-- ==== Sys2Proof/Word.lean ====
section
/-! DEFINITION. The plain words of the part: bytes, check codes, links, and the quantities of Table 0-3. -/

namespace Sys2Proof

/-- One byte of a frame or of a chunk. -/
abbrev Byte := BitVec 8

/-- A 32-bit check code (R1). -/
abbrev Code := BitVec 32

/-- A server link, SL0 to SL5. -/
abbrev Link := Fin 6

/-- A principal id, volume number, extent number, generation, clock value, block count or
location handle: Table 0-3 gives each a range and states that arithmetic on them is exact, so
each is a natural number and the range is checked where the rules check it. -/
abbrev Qty := Nat

/-- 2^40 − 1 blocks, the largest tally and limit (Table 0-3). -/
def maxTally : Nat := 1099511627775

/-- 2^48 − 1, the last value of the clock (R187). -/
def maxClock : Nat := 281474976710655

/-- 2^32 − 1, the last generation (Table 0-3). -/
def maxGeneration : Nat := 4294967295

/-- Bytes of one chunk (Table 0-3). -/
def chunkBytes : Nat := 262144

end Sys2Proof
end

