-- ==== Sys2Proof/Syntax.lean ====
section
/-! DEFINITION. The commands of the part, one constructor of `Instr` for each row of the table of
operations and events, and the operand types they carry. -/

namespace Sys2Proof

/-- Kind of a principal (Table 1-1). -/
inductive PrincipalKind where
  | person
  | pool
  deriving DecidableEq, Repr

/-- One optional field of a Principal Edit (R5): left alone, removed, or given a new value. -/
inductive FieldChange where
  | keep
  | remove
  | put (v : Nat)
  deriving DecidableEq, Repr

/-- The changes a Principal Edit carries (R5). -/
structure EditChanges where
  cls : Option Nat
  soft : FieldChange
  hard : FieldChange
  course : FieldChange
  dept : FieldChange
  deriving DecidableEq, Repr

/-- Kind of a snapshot (Table 4-1). -/
inductive SnapKind where
  | hourly
  | nightly
  | manual
  deriving DecidableEq, Repr

/-- Mode of a restore (Table 5-1). -/
inductive RestoreMode where
  | inPlace
  | recovery
  deriving DecidableEq, Repr

/-- The tally cache mode (R13). -/
inductive CacheMode where
  | writeBack
  | writeThrough
  deriving DecidableEq, Repr

/-- Role of a server link (R169). -/
inductive Role where
  | fileserver
  | console
  deriving DecidableEq, Repr

/-- Source of the window (R118). -/
inductive WindowSource where
  | internal
  | external
  deriving DecidableEq, Repr

/-- The contents of a Restore request (R86). `tvol` and `tfirst` count for RECOVERY only. -/
structure RestoreBody where
  principal : Nat
  vol : Nat
  gen : Nat
  first : Nat
  count : Nat
  mode : RestoreMode
  tvol : Nat
  tfirst : Nat
  partialOk : Bool
  deriving DecidableEq, Repr

/-- A setting and the value written to it (Table 11-2); `unknown` is any setting not of that
table (R188, check 1). -/
inductive Setting where
  | cacheMode (m : CacheMode)
  | autoActivate (b : Bool)
  | linkRole (link : Nat) (r : Role)
  | classEntry (cls grace : Nat) (selfRestore : Bool)
  | recoveryFlag (vol : Nat) (b : Bool)
  | hourlyKeep (vol n : Nat)
  | nightlyKeep (vol n : Nat)
  | hourlyCuts (vol : Nat) (b : Bool)
  | nightlyCut (vol : Nat) (b : Bool)
  | cutWait (n : Nat)
  | directiveWait (n : Nat)
  | idleTime (n : Nat)
  | patrolPeriod (n : Nat)
  | overdueLimit (n : Nat)
  | ackWait (n : Nat)
  | reopenInterval (n : Nat)
  | windowSource (w : WindowSource)
  | openTime (n : Nat)
  | closeTime (n : Nat)
  | scope (n : Nat) (enabled : Bool) (priority : Nat) (vols : List Nat)
  | assumedRate (n : Nat)
  | reserveMargin (n : Nat)
  | unknown (code : Nat)
  deriving DecidableEq, Repr

/-- Subject and key of a Query (R179). -/
inductive QuerySubject where
  | principal (id : Nat)
  | classEntry (cls : Nat)
  | volume (vol : Nat)
  | extent (vol ext : Nat)
  | snapshot (vol gen : Nat)
  | restore (rid : Nat)
  deriving DecidableEq, Repr

/-- The table a Table Read names (R179). The key of a snapshot is volume × 2^32 + generation;
every other key is the number R179 gives. -/
inductive TableName where
  | principals
  | classes
  | volumes
  | extents (vol : Nat)
  | snapshots
  | restores
  | unknown (code : Nat)
  deriving DecidableEq, Repr

/-- The fields of a principal record stored twice (R20). -/
inductive DupField where
  | id
  | kind
  | cls
  | course
  | dept
  | soft
  | hard
  | grace
  | frozen
  deriving DecidableEq, Repr

/-- The fields of a principal record stored once, other than used and reserved (R20). -/
inductive LoneField where
  | unsettled
  | marker
  | active
  | members
  | unsettledMembers
  deriving DecidableEq, Repr

/-- A field of an extent record that lay in a failing word (R65); versions are counted from the
head of the list, codes by chunk index. -/
inductive ExtentField where
  | owner
  | lock
  | birth (v : Nat)
  | death (v : Nat)
  | residence (v : Nat)
  | location (v : Nat)
  | occupied (v : Nat)
  | code (v idx : Nat)
  | shipped (v : Nat)
  | verified (v : Nat)
  | repair (v : Nat)
  | refs (v : Nat)
  deriving DecidableEq, Repr

/-- A double error that the Table Memory Controller reports on a read or write of the step
(R190, Table 11-4). -/
inductive StoreError where
  | layout
  | settings
  | catalogue
  | principalTally (id : Nat)
  | principalOneCopy (id : Nat) (f : DupField)
  | principalBoth (id : Nat) (f : DupField)
  | principalOther (id : Nat) (f : LoneField)
  | extentRecord (vol ext : Nat) (lost : List ExtentField)
  | attachRecord (vol : Nat)
  | restoreOneCopy (rec : Nat)
  | restoreBoth (rec : Nat) (reservationReadable : Bool)
  | restoreStep (rec step : Nat) (reservationReadable : Bool)
  | slot (n : Nat)
  deriving DecidableEq, Repr

/-- The commands of the part. `l` is the server link a frame arrives on or a timer belongs to, `tag`
the tag of the frame, `errs` the double errors that table memory reports on the reads and writes
of the step (R190). -/
inductive Instr where
  -- power and loading
  | powerOn (errs : List StoreError)
  | layoutInitialised (errs : List StoreError := [])
  | tallyLoadingWalkEnd (errs : List StoreError)
  | loadingEnd (errs : List StoreError := [])
  | powerWarnAssert (errs : List StoreError := [])
  | cleanShutdownWrite (errs : List StoreError := [])
  | powerWarnDeassert (errs : List StoreError := [])
  -- server links
  | serialLossOfSignal (l : Link) (errs : List StoreError := [])
  | frameDiscard (l : Link) (frame : List Byte) (errs : List StoreError := [])
  | unknownRequest (l : Link) (frame : List Byte) (errs : List StoreError := [])
  | linkTransmit (l : Link) (errs : List StoreError)
  | linkIdle (l : Link) (errs : List StoreError := [])
  | directiveWaitExpiry (l : Link) (tag : Nat) (errs : List StoreError := [])
  -- tally
  | admitReq (l : Link) (tag principal n q : Nat) (partialOk : Bool) (errs : List StoreError := [])
  | admissionCalculation (op : Nat) (errs : List StoreError)
  | admitReply (op : Nat) (errs : List StoreError := [])
  | tallyFillReadEnd (principal : Nat) (errs : List StoreError)
  | markerWriteEnd (op : Nat) (errs : List StoreError)
  | castoutDrain (errs : List StoreError)
  | release (l : Link) (tag principal blocks : Nat) (errs : List StoreError := [])
  | postingApply (errs : List StoreError := [])
  | settle (l : Link) (tag principal counted : Nat) (errs : List StoreError := [])
  | poolRecountEnd (pool : Nat) (errs : List StoreError)
  | principalCreate (l : Link) (tag id : Nat) (kind : PrincipalKind) (cls : Nat) (course dept soft hard : Option Nat) (errs : List StoreError := [])
  | principalEdit (l : Link) (tag id : Nat) (changes : EditChanges) (errs : List StoreError := [])
  | principalDelete (l : Link) (tag id : Nat) (errs : List StoreError := [])
  | freeze (l : Link) (tag principal : Nat) (frozen : Bool) (errs : List StoreError := [])
  | conversion (op : Nat) (errs : List StoreError)
  | reservationRelease (op : Nat) (errs : List StoreError := [])
  | graceExpiry (errs : List StoreError := [])
  -- catalogue
  | commit (l : Link) (tag vol ext owner loc occ : Nat) (codes : Option (List Code)) (errs : List StoreError)
  | volumeAttach (l : Link) (tag vol owner count : Nat) (recovery : Bool) (hourlyKeep nightlyKeep : Nat) (hourlyCuts nightlyCut : Bool) (errs : List StoreError)
  | attachComplete (vol : Nat) (errs : List StoreError)
  | volumeDetach (l : Link) (tag vol : Nat) (errs : List StoreError)
  | cut (l : Link) (tag vol : Nat) (kind : Option SnapKind) (errs : List StoreError)
  | hourlyCutDueOpen (errs : List StoreError := [])
  | cutWaitExpiry (vol : Nat) (errs : List StoreError := [])
  | expireLocal (l : Link) (tag vol gen : Nat) (errs : List StoreError := [])
  | expirySweepVisit (vol gen : Nat) (errs : List StoreError)
  | expireOffsite (l : Link) (tag vol gen : Nat) (errs : List StoreError := [])
  | dropSweepVisit (vol gen : Nat) (errs : List StoreError)
  -- restores
  | restore (l : Link) (tag : Nat) (body : RestoreBody) (errs : List StoreError := [])
  | restoreAcceptance (errs : List StoreError)
  | restoreStart (errs : List StoreError := [])
  | stepTakeUp (rec : Nat) (errs : List StoreError)
  | put (rec step : Nat) (errs : List StoreError)
  | copyDone (l : Link) (tag loc : Nat) (errs : List StoreError)
  | copyFail (l : Link) (tag : Nat) (errs : List StoreError := [])
  | putDone (l : Link) (tag loc : Nat) (errs : List StoreError)
  | putFail (l : Link) (tag : Nat) (errs : List StoreError := [])
  | restoreCancel (l : Link) (tag rid : Nat) (errs : List StoreError := [])
  | restoreStatus (l : Link) (tag rid : Nat) (errs : List StoreError)
  -- stream buffer
  | slotGrant (errs : List StoreError := [])
  | shipFrameTransmitted (seq : Nat) (errs : List StoreError := [])
  -- the night
  | windowOpening (errs : List StoreError := [])
  | windowOpen (l : Link) (tag : Nat) (errs : List StoreError := [])
  | windowClose (l : Link) (tag : Nat) (errs : List StoreError := [])
  | windowClosing (errs : List StoreError := [])
  | closeAbandon (errs : List StoreError := [])
  | nightEnd (errs : List StoreError := [])
  | scopeSet (l : Link) (tag scope : Nat) (enabled : Bool) (priority : Nat) (vols : List Nat) (errs : List StoreError := [])
  | countWalkVisit (vol : Nat) (errs : List StoreError)
  | shipWalkVisit (errs : List StoreError)
  | pullRun (errs : List StoreError := [])
  | pull (n : Nat) (errs : List StoreError)
  | extentData (l : Link) (tag idx : Nat) (data : List Byte) (errs : List StoreError := [])
  | pullEnd (l : Link) (tag : Nat) (errs : List StoreError := [])
  | pullFail (l : Link) (tag : Nat) (errs : List StoreError := [])
  | ship (errs : List StoreError)
  | volumeDone (errs : List StoreError := [])
  | doneAck (vol target : Nat) (errs : List StoreError := [])
  | forecastIntervalEnd (errs : List StoreError := [])
  -- the offsite link
  | drop (errs : List StoreError := [])
  | dropAck (vol gen : Nat) (errs : List StoreError := [])
  | openAck (errs : List StoreError := [])
  | offsiteFrameDiscard (frame : List Byte)
  | ack (num : Nat) (errs : List StoreError := [])
  | nak (num reason : Nat) (errs : List StoreError := [])
  | ackWaitExpiry (errs : List StoreError := [])
  | carrierLoss (errs : List StoreError := [])
  | reopenIntervalExpiry (errs : List StoreError := [])
  | offsiteIdleTimeout (errs : List StoreError := [])
  | offsiteOpen (l : Link) (tag : Nat) (errs : List StoreError := [])
  | fetchQueueServe (errs : List StoreError := [])
  | fetchReq (errs : List StoreError := [])
  | fetchData (num : Nat) (data : List Byte) (errs : List StoreError := [])
  | fetchEmpty (num : Nat) (errs : List StoreError := [])
  | fetchNone (num reason : Nat) (errs : List StoreError := [])
  -- patrol and repair
  | patrolWalkVisit (errs : List StoreError)
  | versionOverdue (vol ext birth : Nat) (errs : List StoreError := [])
  | verifyingPull (item : Nat) (errs : List StoreError)
  | fix (rec idx : Nat) (errs : List StoreError)
  | fixDone (l : Link) (tag : Nat) (errs : List StoreError := [])
  | fixFail (l : Link) (tag : Nat) (errs : List StoreError := [])
  -- reads
  | query (l : Link) (tag : Nat) (subject : QuerySubject) (errs : List StoreError)
  | tableRead (l : Link) (tag : Nat) (table : TableName) (start count : Nat) (errs : List StoreError)
  | tableNext (l : Link) (tag count : Nat) (errs : List StoreError)
  -- supervisor
  | settingWrite (l : Link) (tag : Nat) (setting : Setting) (errs : List StoreError)
  | holdBegin (l : Link) (tag : Nat) (errs : List StoreError := [])
  | holdRelease (l : Link) (tag : Nat) (errs : List StoreError := [])
  | holdAbandon (l : Link) (tag : Nat) (errs : List StoreError := [])
  | standbyEnter (l : Link) (tag : Nat) (errs : List StoreError := [])
  | quietReported
  | standbyExit (l : Link) (tag : Nat) (errs : List StoreError := [])
  | clear (l : Link) (tag : Nat) (errs : List StoreError := [])
  | timeSet (l : Link) (tag value : Nat) (errs : List StoreError := [])
  | statusQuery (l : Link) (tag : Nat) (errs : List StoreError := [])
  | statusClear (l : Link) (tag : Nat) (errs : List StoreError := [])
  | subscribe (l : Link) (tag : Nat) (classes : List Nat) (errs : List StoreError := [])
  | reset (l : Link) (tag : Nat) (errs : List StoreError := [])
  | inPlaceWriteEnd (principal : Nat) (errs : List StoreError)
  deriving DecidableEq, Repr

end Sys2Proof
end

