-- ==== Sys2Proof/Config.lean ====
section
/-! DEFINITION. The open values of the spec: constants without a body, so that no proof can rest on
one value of them. The fixed sizes of the part (Table 0-1) stand here too. -/

namespace Sys2Proof

/-- DESIGN CHOICE (log entry 8), safe. Whether a server-link body fits its kind, for the kinds
whose body layout the spec does not give (R171, Table 10-3). -/
opaque Config.bodyFits (kind : Nat) (body : List Byte) : Bool

/-- DESIGN CHOICE (log entry 8), safe. Whether an offsite body has the length its kind's contents
require, for the kinds whose layout the spec does not give (R142). -/
opaque Config.offsiteBodyFits (kind : Nat) (body : List Byte) : Bool

/-- DESIGN CHOICE (log entry 11), safe. What a tally holds when the exact sum of a Settle, a parent
move or a recount leaves 0 to 2^40 − 1; the spec states no result there. -/
opaque Config.tallyOver (sum : Nat) : Nat

/-- DESIGN CHOICE (log entry 11), safe. What a pool's tally holds when a parent move takes more from
it than it has, which only an unsettled pool can meet; the spec states no result there (R6). -/
opaque Config.tallyUnder (held taken : Nat) : Nat

/-- DESIGN CHOICE (log entry 11), safe. What a grace deadline holds when clock + 60 × grace length
exceeds 2^48 − 1. -/
opaque Config.deadlineOver (sum : Nat) : Nat

/-- DESIGN CHOICE (log entry 11), safe. What a thinned count of 2^32 − 1 becomes when raised. -/
opaque Config.thinnedOver (sum : Nat) : Nat

/-- DESIGN CHOICE (log entry 10), safe. A free value for each use, counted by `draws` of the
state: fields whose both copies were lost and to which R20 gives no value, and named states read
from a word of zeros (R65). -/
opaque Config.freeNat (draw : Nat) : Nat

/-- Requests a link queues (R172). -/
def Config.requestQueueSize : Nat := 32
/-- Directives outstanding on a link (R175). -/
def Config.directiveListSize : Nat := 16
/-- Notices queued on a link (R177). -/
def Config.noticeQueueSize : Nat := 32
/-- Notices kept in the start-up list (R178). -/
def Config.startupSize : Nat := 64
/-- Changes staged in a hold (R188). -/
def Config.holdSize : Nat := 128
/-- Records of the Principal Table (R2). -/
def Config.principalTableSize : Nat := 262144
/-- Sets of the tally cache (R9). -/
def Config.cacheSets : Nat := 256
/-- Ways of one set (R9). -/
def Config.cacheWays : Nat := 4
/-- The drift cap in blocks (R11). -/
def Config.driftCap : Nat := 4096
/-- The unsettled allowance in blocks (R28). -/
def Config.unsettledAllowance : Nat := 4096
/-- Entries of the castout buffer (R12). -/
def Config.castoutSize : Nat := 4
/-- Entries of the Posting Queue (R15). -/
def Config.postingQueueSize : Nat := 256
/-- Entries of the Grace Queue (R37). -/
def Config.graceQueueSize : Nat := 8192
/-- Records of the Snapshot Catalogue, and of one volume in it (R67). -/
def Config.catalogueSize : Nat := 1024
def Config.volumeCatalogueSize : Nat := 64
/-- Entries of the Reclaim Table (R59). -/
def Config.reclaimTableSize : Nat := 4096
/-- Versions of an extent (R50). -/
def Config.versionListSize : Nat := 4
/-- Extents a volume may have (Table 0-3); also the number of extent keys given to a volume. -/
def Config.maxExtents : Nat := 1048576
/-- Records of the Restore Table (R84). -/
def Config.restoreTableSize : Nat := 64
/-- Running places of restores (R91). -/
def Config.runningPlaces : Nat := 8
/-- Steps of one restore in flight (R92). -/
def Config.stepsInFlight : Nat := 4
/-- Slots of the Stream Buffer (R106). -/
def Config.slotCount : Nat := 64
/-- Slots kept open to repair and to restore fetches, and the PATROL cap (R107). -/
def Config.repairReserve : Nat := 4
def Config.fetchReserve : Nat := 8
def Config.patrolCap : Nat := 8
/-- Entries of the Ship Queue (R126). -/
def Config.shipQueueSize : Nat := 256
/-- Frames outstanding on the offsite link (R143). -/
def Config.outstandingSize : Nat := 16
/-- Fetch entries and outstanding FETCH_REQs together (R150). -/
def Config.fetchQueueSize : Nat := 32
/-- Requests of a fetch burst and frames of a ship turn (R149). -/
def Config.burstSize : Nat := 32
def Config.shipTurnSize : Nat := 16
/-- Items of the Patrol Work List, fold entries, repair records, waiting repairs (R157, R161, R163). -/
def Config.workListSize : Nat := 16
def Config.foldTableSize : Nat := 16
def Config.repairRecords : Nat := 16
def Config.repairWaitSize : Nat := 64
/-- Bytes of the extent region and of the smallest span (R46, R189). -/
def Config.extentRegionBytes : Nat := 17179869184
def Config.minSpanBytes : Nat := 1048576
/-- Seconds an idle offsite link stays open (R140), and of a forecast interval (R132). -/
def Config.idleCloseSeconds : Nat := 300
def Config.intervalSeconds : Nat := 60

end Sys2Proof
end

