-- ==== Sys2Proof/Machine/State.lean ====
section
/-! DEFINITION. The state of the part: every record, queue, list, counter and line the spec names,
grouped by the block that owns it (Table 0-1), and the state right after reset. -/

namespace Sys2Proof.Machine

/-- A table held by key: pairs of key and record, keys strictly rising, one pair a key. -/
abbrev Tbl (α : Type) := List (Nat × α)

/-! ### Supervisor -/

/-- The operating states (Table 11-1). -/
inductive OpState where
  | loading
  | standby
  | active
  | holdup
  | halted
  deriving DecidableEq, Repr

/-- How far LOADING has come (R184, R189): the first-initialisation writes run, the walk of R21
runs, or that walk has ended. -/
inductive LoadStage where
  | initialising
  | walking
  | walked
  deriving DecidableEq, Repr

/-- What the layout block holds (R189). -/
inductive Layout where
  | blank
  | matching
  | other
  deriving DecidableEq, Repr

/-- A Standby Enter or Clear that awaits quiet (R185): its link and request. -/
structure QuietWait where
  link : Link
  req : Nat
  isClear : Bool
  deriving DecidableEq, Repr

/-- A Class Table entry (R35). -/
structure ClassEntry where
  grace : Nat
  selfRestore : Bool
  deriving DecidableEq, Repr

/-- A duplication scope (R121). -/
structure Scope where
  enabled : Bool
  priority : Nat
  vols : List Nat
  deriving DecidableEq, Repr

/-- The Settings Store: the values in force (Table 11-2). A class or scope that is not listed holds
its initial value. -/
structure Settings where
  cacheMode : CacheMode
  autoActivate : Bool
  roles : Vector Role 6
  classes : Tbl ClassEntry
  cutWait : Nat
  directiveWait : Nat
  idleTime : Nat
  patrolPeriod : Nat
  overdueLimit : Nat
  ackWait : Nat
  reopenInterval : Nat
  windowSource : WindowSource
  openTime : Nat
  closeTime : Nat
  scopes : Tbl Scope
  assumedRate : Nat
  reserveMargin : Nat
  deriving DecidableEq, Repr

/-- The pending AT_WINDOW values (R118, R188). -/
structure PendingSettings where
  windowSource : Option WindowSource
  openTime : Option Nat
  closeTime : Option Nat
  scopes : Tbl Scope
  assumedRate : Option Nat
  reserveMargin : Option Nat
  deriving DecidableEq, Repr

/-! ### Statuses, requests and notices -/

/-- Reply statuses (Table 10-4). -/
inductive Status where
  | done
  | accepted
  | granted
  | partialGrant
  | limit
  | frozen
  | busy
  | malformed
  | notPermitted
  | unknownPrincipal
  | unknownVolume
  | unknownSnapshot
  | range
  | notOwner
  | inUse
  | noRoom
  | pinned
  | extentLocked
  | versionPinned
  | damaged
  | unrecoverable
  | catalogueFull
  | holdFull
  | wrongState
  deriving DecidableEq, Repr

/-- Request kinds (Table 10-2). `other` is a code that is no request kind. -/
inductive ReqKind where
  | admitReq | release | settle | principalCreate | principalEdit | principalDelete | freeze
  | commit | cut | expireLocal | expireOffsite | volumeAttach | volumeDetach
  | restore | restoreCancel | restoreStatus
  | windowOpen | windowClose | scopeSet | offsiteOpen
  | query | tableRead | tableNext
  | settingWrite | holdBegin | holdRelease | holdAbandon | standbyEnter | standbyExit | timeSet
  | statusQuery | statusClear | subscribe | clear | reset
  | other (code : Nat)
  deriving DecidableEq, Repr

/-- Grace state of a principal, with the deadline and the queued mark that only GRACE has (R36). -/
inductive Grace where
  | within
  | grace (deadline : Nat) (queued : Bool)
  | expired
  deriving DecidableEq, Repr

/-- A stored principal record (Table 1-1). -/
structure Principal where
  kind : PrincipalKind
  cls : Nat
  course : Option Nat
  dept : Option Nat
  used : Nat
  reserved : Nat
  soft : Option Nat
  hard : Option Nat
  grace : Grace
  frozen : Bool
  unsettled : Bool
  marker : Bool
  active : Nat
  members : Nat
  unsettledMembers : Nat
  deriving DecidableEq, Repr

/-- Repair state of a version (Table 3-3). -/
inductive RepairState where
  | sound
  | suspect
  | repairing
  | unrepairable
  deriving DecidableEq, Repr

/-- Residence of a version: LOCAL with its location handle and reference count, or OFFSITE_ONLY,
which has neither (Table 3-3). -/
inductive Residence where
  | here (loc refs : Nat)
  | offsite
  deriving DecidableEq, Repr

/-- A version (Table 3-3). -/
structure Version where
  birth : Nat
  death : Option Nat
  res : Residence
  occ : Nat
  codes : List Code
  shipped : Bool
  verified : Nat
  repair : RepairState
  deriving DecidableEq, Repr

/-- An extent record (R49). Its damaged-record flag lies in the volume's damage list (R65). -/
structure Extent where
  owner : Nat
  lock : Option Nat
  versions : List Version
  deriving DecidableEq, Repr

/-- A Volume Table entry in state ATTACHED (Table 3-1); an unlisted volume is DETACHED. -/
structure Volume where
  owner : Link
  count : Nat
  recovery : Bool
  gen : Nat
  mark : Nat
  hourlyKeep : Nat
  nightlyKeep : Nat
  hourlyCuts : Bool
  nightlyCut : Bool
  base : Nat
  size : Nat
  shipCursor : Nat
  patrolCursor : Nat
  damage : List Nat
  refTotal : Nat
  deriving DecidableEq, Repr

/-- State of a snapshot with what only that state has: the sweep cursor, the drop origin
(Tables 4-1 and 4-2). -/
inductive SnapState where
  | active
  | expiring (cursor : Nat)
  | offsiteOnly
  | dropping (fromActive : Bool) (cursor : Option Nat)
  deriving DecidableEq, Repr

/-- A snapshot record (Table 4-1). -/
structure Snapshot where
  vol : Nat
  gen : Nat
  kind : SnapKind
  cutTime : Nat
  state : SnapState
  held : Bool
  restorePins : Nat
  shipPins : Nat
  thinned : Nat
  deriving DecidableEq, Repr

/-- Why a restore failed (Table 5-1). -/
inductive FailCause where
  | step
  | power
  | store
  deriving DecidableEq, Repr

/-- Why a step failed (Table 5-2). -/
inductive StepReason where
  | directive
  | linkReset
  | code
  | fetchNone
  | damaged
  | unrepairable
  | record
  | power
  | abandoned
  deriving DecidableEq, Repr

/-- Kind of a step (Table 5-2). -/
inductive StepKind where
  | copy
  | fetch
  | none
  deriving DecidableEq, Repr

/-- State of a step (Table 5-3). -/
inductive StepState where
  | waiting
  | issued
  | fetching
  | putting
  | done
  | failed
  | skipped
  deriving DecidableEq, Repr

/-- A step entry (Table 5-2). `again`: a COPY returned to WAITING that keeps its place in flight
(R97). `recorded`: its restored-version record is made and its conversion is in the Tally Unit
(R96). `marker`: its empty marker is done (R94). `inPause`: its PUT was issued while its restore pauses or is
PAUSED (R102). -/
structure Step where
  kind : StepKind
  src : Option Nat
  loc : Option Nat
  charge : Int
  reissued : Bool
  refetched : List Nat
  reason : Option StepReason
  state : StepState
  again : Bool
  recorded : Bool
  marker : Bool
  inPause : Bool
  deriving DecidableEq, Repr

/-- State of a restore (Table 5-6). -/
inductive RestoreState where
  | planned
  | running
  | paused
  | cancelling
  | done
  | donePartial
  | failed
  | cancelled
  deriving DecidableEq, Repr

/-- A restore record in use (Table 5-1). Steps in flight are counted from the step list. -/
structure Restore where
  rid : Nat
  state : RestoreState
  cause : Option FailCause
  failedStep : Option (Nat × StepReason)
  principal : Nat
  link : Link
  vol : Nat
  gen : Nat
  first : Nat
  count : Nat
  mode : RestoreMode
  tvol : Nat
  tfirst : Nat
  partialOk : Bool
  acceptNo : Nat
  remaining : Nat
  pin : Bool
  finishNo : Option Nat
  pausing : Bool
  steps : List Step
  deriving DecidableEq, Repr

/-- Cause of a link fault (R147). -/
inductive FaultCause where
  | openWait
  | ackWait
  | carrier
  deriving DecidableEq, Repr

/-- Where a drain of the offsite link leads (R149, R154). -/
inductive DrainTarget where
  | toShip
  | toFetch
  | toClose
  deriving DecidableEq, Repr

/-- Direction of the offsite link (R148). -/
inductive Direction where
  | idle
  | ship
  | fetch
  | draining (target : DrainTarget)
  deriving DecidableEq, Repr

/-- State of the offsite link (Table 8-1): OPENING counts the OPENs sent, FAULTED holds the elapsed
second from which the reopen interval runs. -/
inductive OffLink where
  | down
  | opening (opens : Nat)
  | up
  | faulted (since : Nat)
  deriving DecidableEq, Repr

/-- The source that repaired a chunk (R167). -/
inductive RepairSource where
  | twin
  | offsite
  deriving DecidableEq, Repr

/-- What a STORE_ERROR names (Table 10-7). -/
inductive StoreItem where
  | layout
  | settings
  | catalogue
  | principal (id : Nat)
  | extent (vol ext : Nat)
  | restore (rid : Nat)
  | slot (n : Nat)
  deriving DecidableEq, Repr

/-- What a withdrawn SHIP-direction frame was (R146). -/
inductive RejectedFrame where
  | ship (vol ext birth : Nat) (chunks : List Nat)
  | volumeDone (vol target : Nat)
  | drop (vol gen : Nat)
  deriving DecidableEq, Repr

/-- Contents of a notice (Table 10-7). -/
inductive NoticeBody where
  | graceExpired (id deadline clock used reserved : Nat) (soft : Option Nat)
  | tallyUnderflow (id blocks usedBefore : Nat) (link : Link)
  | unsettled (count : Nat)
  | restoreEnd (rid principal : Nat) (link : Link) (state : RestoreState) (cause : Option FailCause) (failedStep : Option (Nat × StepReason)) (done skipped failed waiting inFlight : Nat)
  | cutMissed (vol opened limit : Nat)
  | shipShed (scope clock rate : Nat) (before after : Option Nat)
  | shipNightEnd (clock complete shed missed failed rate : Nat)
  | shipRejected (frame : RejectedFrame) (num reason : Nat)
  | linkFault (clock : Nat) (cause : FaultCause) (state : OffLink) (dir : Direction) (given : Nat)
  | damage (vol ext birth : Nat) (repaired : Bool) (chunks : List (Nat × Option RepairSource))
  | storeError (item : StoreItem)
  deriving DecidableEq, Repr

/-- A notice: the clock at its raising and its contents, which fix its class (R177). -/
structure Notice where
  clock : Nat
  body : NoticeBody
  deriving DecidableEq, Repr

/-! ### What replies carry -/

/-- Reclaim verdict of a Commit (R56). -/
inductive Verdict where
  | first
  | kept
  | now
  | later
  deriving DecidableEq, Repr

/-- Counts of one link reported by Status Query (R169). -/
structure LinkStatus where
  role : Role
  up : Bool
  idle : Bool
  queue : Nat
  directives : Nat
  notices : Nat
  subs : List Nat
  discarded : Nat
  dropped : Nat
  deriving DecidableEq, Repr

/-- Figures of one plan volume reported by Status Query (R137). -/
structure PlanStatus where
  vol : Nat
  state : Nat
  target : Nat
  base : Nat
  countCursor : Nat
  shipCursor : Nat
  shipCount : Nat
  deriving DecidableEq, Repr

/-- The per-volume settings of a volume (Table 11-2), as Status Query reports them (R188). -/
structure VolumeSettings where
  vol : Nat
  recovery : Bool
  hourlyKeep : Nat
  nightlyKeep : Nat
  hourlyCuts : Bool
  nightlyCut : Bool
  deriving DecidableEq, Repr

/-- What Status Query reports (R14, R39, R69, R101, R117, R137, R138, R168, R169, R177, R183, R188).
Lists of counts stand in the order in which the rule names the figures. -/
structure StatusReport where
  op : OpState
  quietAwaited : Bool
  clockSet : Bool
  prevClean : Bool
  settings : Settings
  pendingSettings : PendingSettings
  volumeSettings : List VolumeSettings
  raised : List Nat
  links : List LinkStatus
  tally : List Nat
  catalogue : List Nat
  restores : List Nat
  stream : List Nat
  windowOpen : Bool
  nightEnding : Bool
  closeInstant : Option Nat
  rate : Nat
  work : Nat
  forecast : Option Nat
  lastFit : Bool
  shedScopes : List Nat
  nightCounts : List Nat
  shipQueue : List Nat
  plan : List PlanStatus
  offLink : OffLink
  direction : Direction
  outstanding : List Nat
  expiries : Nat
  offCounts : List Nat
  shipTurn : Bool
  patrol : List Nat
  deriving DecidableEq, Repr

/-- One record as Query and Table Read report it (R14, R44, R52, R69, R101, R179). -/
inductive RecordView where
  | principal (id : Nat) (p : Principal)
  | classEntry (cls : Nat) (e : ClassEntry)
  | volume (vol : Nat) (v : Volume) (versions snapshots : List Nat)
  | detached (vol : Nat)
  | extent (vol ext : Nat) (owner : Nat) (lock : Option Nat) (damaged : Bool) (versions : List (Version × List Nat))
  | snapshot (s : Snapshot)
  | restore (rec : Nat) (r : Restore) (inFlight : Nat) (steps : List Nat) (failed : List (Nat × StepReason))
  | unused (rec : Nat)
  deriving DecidableEq, Repr

/-- Contents of a reply after its status and request kind (R174). -/
inductive ReplyBody where
  | none
  | admitReq (granted headroom limiting : Nat)
  | cut (gen : Nat)
  | commit (birth : Nat) (verdict : Verdict)
  | restoreAccepted (rid copies fetches skipped reserved : Nat)
  | restoreLimit (headroom limiting : Nat)
  | restoreFrozen (member : Nat)
  | restoreUnrecoverable (steps : Nat)
  | holdReleased (applied : Nat) (skipped : List (Nat × Status))
  | record (r : RecordView)
  | table (rs : List RecordView) (atEnd : Bool)
  | status (r : StatusReport)
  deriving DecidableEq, Repr

/-! ### Server links -/

/-- A request in a link's queue (R172). `stale`: the link was reset after it was taken, so its
reply is discarded when handed (R181). -/
structure ReqEntry where
  num : Nat
  tag : Nat
  kind : ReqKind
  taken : Bool
  stale : Bool
  deriving DecidableEq, Repr

/-- Who issued a directive, or waits for a place (R175). `orphan`: the transfer was given up while its
directive is outstanding, so that its answer is a late one (R103, R105, R168). -/
inductive Issuer where
  | orphan
  | step (rec step : Nat)
  | shipPull (n : Nat)
  | verify (item : Nat)
  | repair (rec idx : Nat)
  deriving DecidableEq, Repr

/-- Kinds of directives that take a place (R175). -/
inductive DirKind where
  | pull
  | copy
  | put
  | fix
  deriving DecidableEq, Repr

/-- An entry of the outstanding-directive list (R175, R176), with the references its end lowers
(R58): volume, extent, location. -/
structure Directive where
  tag : Nat
  kind : DirKind
  issuer : Issuer
  issued : Nat
  limit : Nat
  refs : List (Nat × Nat × Nat)
  deriving DecidableEq, Repr

/-- Contents of a directive frame (0.2, R60, R72, R93, R95, R127, R160, R164). -/
inductive DirBody where
  | cutDue (vol : Nat) (nightly : Bool) (gen : Nat)
  | pull (loc first count : Nat) (verify : Bool)
  | copy (loc tvol text : Nat)
  | put (tvol text occ : Nat) (chunks : Nat)
  | fixTwin (loc idx twin : Nat)
  | fixData (loc : Nat) (idxs : List Nat)
  | reclaim (loc : Nat)
  deriving DecidableEq, Repr

/-- A frame waiting for transmission on a server link (R174); a CHUNK_DATA names the slot its bytes
are read from. -/
inductive TxFrame where
  | reply (tag : Nat) (kind : ReqKind) (status : Status) (body : ReplyBody)
  | directive (tag : Nat) (body : DirBody)
  | chunk (tag idx slot : Nat)
  deriving DecidableEq, Repr

/-- A change staged in a settings hold (R188). -/
inductive Staged where
  | setting (s : Setting)
  | edit (id : Nat) (c : EditChanges)
  | freeze (id : Nat) (frozen : Bool)
  deriving DecidableEq, Repr

/-- Table-read cursor (R179). `detached`: its table is the Extent Table of a volume that has since been
detached. -/
structure Cursor where
  table : TableName
  key : Nat
  detached : Bool
  deriving DecidableEq, Repr

/-- What the Link Unit keeps for one server link (R159, R169, R172, R175, R177, R178, R188). -/
structure LinkRec where
  up : Bool
  idle : Bool
  idleFrom : Nat
  queue : List ReqEntry
  directives : List Directive
  placeWaits : List Issuer
  notices : List Notice
  tx : List TxFrame
  subs : List Nat
  delivered : List Nat
  cursor : Option Cursor
  hold : Option (List Staged)
  tagCounter : Nat
  discarded : Nat
  dropped : Nat
  badRun : Nat
  haltNotice : Option Notice
  deriving DecidableEq, Repr

/-! ### Tally Unit -/

/-- A resident line of the tally cache (R9). `held` names the operation that holds it, `filling`
says that its fill read has not completed. -/
structure Line where
  id : Nat
  used : Nat
  reserved : Nat
  dUsed : Int
  dReserved : Int
  dirty : Bool
  held : Option Nat
  filling : Bool
  deriving DecidableEq, Repr

/-- A castout buffer entry (R12). -/
structure Castout where
  id : Nat
  used : Nat
  reserved : Nat
  dUsed : Int
  dReserved : Int
  deriving DecidableEq, Repr

/-- A Posting Queue entry (R15), with its number in order of queueing. -/
structure Posting where
  num : Nat
  principal : Nat
  blocks : Nat
  link : Link
  deriving DecidableEq, Repr

/-- A Grace Queue entry (R37). -/
structure GraceEntry where
  deadline : Nat
  id : Nat
  deriving DecidableEq, Repr

/-- What the Admission Calculator decided at stages 5 and 6 (R28, R29). -/
structure Admission where
  status : Status
  granted : Nat
  headroom : Nat
  limiting : Nat
  deriving DecidableEq, Repr

/-- What an operation of the Tally Unit does once its lines are held. -/
inductive Job where
  | admitReq (link : Link) (req person n q : Nat) (partialOk : Bool)
  | reserve (person n : Nat)
  | posting (person blocks : Nat) (link : Link)
  | release (link : Link) (req person blocks : Nat)
  | settle (link : Link) (req person counted : Nat)
  | convert (rec step person c : Nat) (d : Int) (link : Link)
  | unreserve (person blocks : Nat)
  | edit (link : Link) (req id : Nat) (changes : EditChanges)
  | delete (link : Link) (req id : Nat)
  deriving DecidableEq, Repr

/-- Stage of an operation: waiting for postings and recounts or gathering its lines; all lines held
and filled; marker writes under way (R10); changes applied and in-place writes under way (R11);
every write ended. -/
inductive OpStage where
  | gathering
  | ready
  | marking
  | writing
  | finished
  deriving DecidableEq, Repr

/-- An operation of the Tally Unit in progress (R9, R25). `postings` are the numbers of the postings
it waits for (R17), `ids` the principals whose lines it gathers, `direct` those beyond four of one
set, which are written directly (R6), `writes` the ids whose in-place writes it awaits, `noted` those it
put in the in-progress note (R13). -/
structure TallyOp where
  num : Nat
  job : Job
  stage : OpStage
  postings : List Nat
  ids : List Nat
  direct : List Nat
  outcome : Option Admission
  writes : List Nat
  noted : List Nat
  deriving DecidableEq, Repr

/-- An in-place write under way (R11, R13, R18) and the operation that awaits it; `settles` clears the
unsettled flag with it. -/
structure PendingWrite where
  op : Nat
  id : Nat
  used : Nat
  reserved : Nat
  settles : Bool
  deriving DecidableEq, Repr

/-- State of the Tally Unit. `principals`, `note` are persistent. `cache` is in order of recency,
most recent first. -/
structure Tally where
  principals : Tbl Principal
  cache : List Line
  castout : List Castout
  postings : List Posting
  grace : List GraceEntry
  note : List Nat
  recounts : List Nat
  ops : List TallyOp
  writes : List PendingWrite
  flushing : Bool
  modeReply : List (Link × Nat)
  nextOp : Nat
  nextPosting : Nat
  deriving DecidableEq, Repr

/-! ### Catalogue Unit -/

/-- An Attach in progress (R45 to R47). -/
structure Attach where
  vol : Nat
  link : Link
  req : Nat
  owner : Link
  count : Nat
  recovery : Bool
  hourlyKeep : Nat
  nightlyKeep : Nat
  hourlyCuts : Bool
  nightlyCut : Bool
  base : Nat
  size : Nat
  deriving DecidableEq, Repr

/-- A Reclaim Table entry (R59): WAITING while `refs` is above 0, DUE at 0. -/
structure Reclaim where
  vol : Nat
  ext : Nat
  loc : Nat
  refs : Nat
  deriving DecidableEq, Repr

/-- An open cut due (R72): the elapsed second and the clock at its opening, and its sent flag. -/
structure Due where
  opened : Nat
  clock : Nat
  sent : Bool
  deriving DecidableEq, Repr

/-- The two cut dues of a volume (R72); `none` is closed. -/
structure Dues where
  hourly : Option Due
  nightly : Option Due
  deriving DecidableEq, Repr

/-- State of the Catalogue Unit. The key of an extent is volume × 2^20 + extent, of a snapshot
volume × 2^32 + generation. -/
structure Catalogue where
  volumes : Tbl Volume
  extents : Tbl Extent
  attaching : List Attach
  snapshots : Tbl Snapshot
  reclaims : List Reclaim
  sweepWaits : List Nat
  dues : Tbl Dues
  deriving DecidableEq, Repr

/-! ### Restore Engine -/

/-- A Restore request waiting for acceptance (R87), with its link's role as it arrived (R86, R169). -/
structure RestoreReq where
  link : Link
  req : Nat
  role : Role
  body : RestoreBody
  deriving DecidableEq, Repr

/-- The acceptance whose reservation is with the Tally Unit (R90). -/
structure Acceptance where
  link : Link
  req : Nat
  body : RestoreBody
  rid : Nat
  steps : List Step
  reserve : Nat
  deriving DecidableEq, Repr

/-- State of the Restore Engine; all but the waiting requests and the acceptance is persistent. -/
structure RestoreEngine where
  table : Tbl Restore
  counter : Nat
  waiting : List RestoreReq
  acceptance : Option Acceptance
  nextAccept : Nat
  nextFinish : Nat
  deriving DecidableEq, Repr

/-! ### Stream Buffer -/

/-- States of a slot that is not FREE (R106). -/
inductive SlotState where
  | filling
  | full
  | sending
  | awaitingAck
  deriving DecidableEq, Repr

/-- Slot classes (R107). -/
inductive SlotClass where
  | repair
  | fetch
  | ship
  | patrol
  deriving DecidableEq, Repr

/-- The transfer a slot is granted to (R106). `gone`: the transfer was given up while a directive reads the
slot, of that link and tag, at whose end the slot is freed (R105, R112). -/
inductive SlotHolder where
  | shipPull (n : Nat)
  | step (rec step : Nat)
  | repair (rec : Nat)
  | verify (item : Nat)
  | gone (link : Link) (tag : Nat)
  deriving DecidableEq, Repr

/-- A slot that is not FREE (R106). `fullOrder` orders FULL SHIP slots for R109; `covered`: its
frame was acknowledged while it was being resent (R111). -/
structure Slot where
  state : SlotState
  cls : SlotClass
  holder : SlotHolder
  idx : Nat
  expected : Code
  computed : Code
  seq : Option Nat
  data : List Byte
  fullOrder : Nat
  covered : Bool
  deriving DecidableEq, Repr

/-- A waiting slot request (R107, R108): holder and, for each slot, chunk index and expected code. -/
structure SlotReq where
  holder : SlotHolder
  wants : List (Nat × Code)
  deriving DecidableEq, Repr

/-- State of the Stream Buffer; a slot that is not listed is FREE. -/
structure Stream where
  slots : Tbl Slot
  waitRepair : List SlotReq
  waitFetch : List SlotReq
  waitShip : List SlotReq
  waitPatrol : List SlotReq
  nextFull : Nat
  deriving DecidableEq, Repr

/-! ### Offsite Engine -/

/-- Phase of the window (R119, R120); ENDING holds the elapsed second of the close and the ack wait
limit that runs from it (R154). -/
inductive NightPhase where
  | closed
  | windowOpen
  | ending (since limit : Nat)
  deriving DecidableEq, Repr

/-- States of a plan volume (Table 7-1). -/
inductive PlanState where
  | shipping
  | awaitingDone
  | complete
  | shed
  | failed
  deriving DecidableEq, Repr

/-- A volume of the night's plan (R122, R125, R131). `counted` holds, for extents counted and not yet
walked for shipping, the SHIP chunks counted (R126). -/
structure PlanVol where
  vol : Nat
  state : PlanState
  target : Nat
  base : Nat
  scope : Nat
  countCursor : Nat
  shipCount : Nat
  counted : Tbl Nat
  acked : Nat
  targetPin : Bool
  basePin : Bool
  deriving DecidableEq, Repr

/-- Forms of a Ship Queue entry (R124). -/
inductive EntryForm where
  | ship
  | ref
  | empty
  | damaged
  deriving DecidableEq, Repr

/-- States of a Ship Queue entry (Table 7-2); PULLING names its pull. -/
inductive EntryState where
  | unpulled
  | parked
  | pulling (pull : Nat)
  | ready
  | outstanding
  deriving DecidableEq, Repr

/-- A Ship Queue entry (R126). -/
structure ShipEntry where
  num : Nat
  vol : Nat
  ext : Nat
  birth : Nat
  form : EntryForm
  chunks : List Nat
  code : Option Code
  last : Bool
  failMark : Bool
  state : EntryState
  slot : Option Nat
  deriving DecidableEq, Repr

/-- How far a shipping pull has come (R127). -/
inductive PullStage where
  | slots
  | place
  | issued
  deriving DecidableEq, Repr

/-- A shipping pull (R127): its run of chunks of one version. `cut`: it was in flight when the offsite link began
to close for Standby or Clear (R111). -/
structure ShipPull where
  n : Nat
  vol : Nat
  ext : Nat
  birth : Nat
  loc : Nat
  first : Nat
  count : Nat
  stage : PullStage
  cut : Bool
  deriving DecidableEq, Repr

/-- Holder of a fetch entry (R150). -/
inductive FetchHolder where
  | step (rec step : Nat)
  | repair (rec : Nat)
  deriving DecidableEq, Repr

/-- A Fetch Queue entry (R150); `idx` none is the empty marker. -/
structure FetchEntry where
  holder : FetchHolder
  vol : Nat
  ext : Nat
  birth : Nat
  idx : Option Nat
  code : Code
  deriving DecidableEq, Repr

/-- A wait for room in the Fetch Queue (R150). `takeUp`: a WAITING step, placed by its take-up;
otherwise the entries are placed as soon as room opens, at the head of their kind if `atHead`. -/
structure RoomWait where
  holder : FetchHolder
  entries : List FetchEntry
  atHead : Bool
  takeUp : Bool
  deriving DecidableEq, Repr

/-- A pending VOLUME_DONE or DROP (R148, R153). -/
inductive Control where
  | volumeDone (vol target base entries : Nat)
  | drop (vol gen : Nat)
  deriving DecidableEq, Repr

/-- What an outstanding frame is (R143); a SHIP frame names the chunks it carries. -/
inductive FrameBody where
  | ship (entry vol ext birth target base : Nat) (chunks : List Nat)
  | control (c : Control)
  | fetch (e : FetchEntry) (withdrawn : Bool)
  deriving DecidableEq, Repr

/-- A frame of the outstanding-frame list (R143). -/
structure OutFrame where
  num : Nat
  body : FrameBody
  received : Bool
  naks : Nat
  vacant : Bool
  deriving DecidableEq, Repr

/-- State of the Offsite Engine. -/
structure Offsite where
  phase : NightPhase
  closeInstant : Option Nat
  plan : List PlanVol
  shedScopes : List Nat
  nComplete : Nat
  nShed : Nat
  nMissed : Nat
  nFailed : Nat
  rate : Nat
  intervalStart : Nat
  acked : Nat
  sawShip : Bool
  lastFit : Bool
  queue : List ShipEntry
  nextEntry : Nat
  pulls : List ShipPull
  nextPull : Nat
  link : OffLink
  dir : Direction
  outstanding : List OutFrame
  seqCounter : Nat
  reqCounter : Nat
  withdrawnNums : List Nat
  withdrawnDrops : List (Nat × Nat)
  expiries : Nat
  ackStart : Nat
  ackLimit : Nat
  idleSince : Option Nat
  burst : Nat
  shipTurn : Option Nat
  controls : List Control
  fetchQueue : List FetchEntry
  roomWaits : List RoomWait
  deriving DecidableEq, Repr

/-! ### Patrol Unit -/

/-- States of a Work List item (R157). -/
inductive ItemState where
  | waitingLock
  | waitingIdle
  | slot
  | place
  | issued
  deriving DecidableEq, Repr

/-- A Patrol Work List item (R157), with the chunk indexes its pull received and those that differed
(R162) and the codes its chunks must match. -/
structure WorkItem where
  n : Nat
  vol : Nat
  ext : Nat
  birth : Nat
  loc : Nat
  forced : Bool
  retry : Bool
  state : ItemState
  received : List Nat
  differed : List Nat
  codes : List Code
  deriving DecidableEq, Repr

/-- A fold entry (R161). -/
structure Fold where
  vol : Nat
  ext : Nat
  birth : Nat
  loc : Nat
  equal : List Nat
  deriving DecidableEq, Repr

/-- A repair request, and an entry of the repair waiting list (R163). -/
structure RepairReq where
  vol : Nat
  ext : Nat
  birth : Nat
  loc : Nat
  idxs : List Nat
  whole : Bool
  deriving DecidableEq, Repr

/-- Progress of one chunk of a repair record (R164, R165). -/
inductive ChunkProgress where
  | twinWait
  | fetching
  | fetched
  | fixing
  | done (src : RepairSource)
  | failed
  deriving DecidableEq, Repr

/-- A chunk entry of a repair record (R163). -/
structure RepairChunk where
  idx : Nat
  src : RepairSource
  progress : ChunkProgress
  refetched : Bool
  deriving DecidableEq, Repr

/-- A repair record (R163). `becomeWhole`: it becomes whole-version when its directives and fetches
have ended; `lost`: a whole-version record whose version is UNREPAIRABLE and whose fetches have
still to be answered (R166); `abandoned`: R167. -/
structure Repair where
  vol : Nat
  ext : Nat
  birth : Nat
  loc : Nat
  whole : Bool
  chunks : List RepairChunk
  becomeWhole : Bool
  lost : Bool
  abandoned : Bool
  deriving DecidableEq, Repr

/-- State of the Patrol Unit. -/
structure Patrol where
  work : List WorkItem
  nextItem : Nat
  folds : List Fold
  repairs : Tbl Repair
  waiting : List RepairReq
  turn : Nat
  clearing : Bool
  deriving DecidableEq, Repr

/-! ### Output of a step -/

/-- A frame put on a server link. -/
inductive LinkFrame where
  | reply (tag : Nat) (kind : ReqKind) (status : Status) (body : ReplyBody)
  | directive (tag : Nat) (body : DirBody)
  | chunk (tag idx : Nat) (data : List Byte)
  | notice (n : Notice)
  deriving DecidableEq, Repr

/-- A frame put on the offsite link (Table 8-3). -/
inductive OffFrame where
  | open (first limit : Nat)
  | close
  | ship (num vol target base ext birth : Nat) (form : EntryForm) (chunks : List Nat) (code : Option Code) (data : List Byte)
  | volumeDone (num vol target base entries : Nat)
  | drop (num vol gen : Nat)
  | fetchReq (num vol ext birth : Nat) (idx : Option Nat) (code : Code)
  deriving DecidableEq, Repr

/-- What a step sent. -/
inductive Output where
  | link (l : Link) (f : LinkFrame)
  | offsite (f : OffFrame)
  deriving DecidableEq, Repr

/-! ### The whole -/

/-- State of the Supervisor. -/
structure Supervisor where
  op : OpState
  stage : LoadStage
  layout : Layout
  clock : Nat
  clockSet : Bool
  counted : Bool
  hourlyTaken : Bool
  elapsed : Nat
  powerWarn : Bool
  cleanFlag : Bool
  prevClean : Bool
  quiet : Option QuietWait
  raised : List Nat
  startup : List Notice
  settings : Settings
  pendingSettings : PendingSettings
  nextReq : Nat
  draws : Nat
  deriving DecidableEq, Repr

/-- The state of the part: one part for each block, the commands that wait, oldest first, and what
the last command sent. -/
structure State where
  sup : Supervisor
  links : Vector LinkRec 6
  tally : Tally
  cat : Catalogue
  rst : RestoreEngine
  str : Stream
  off : Offsite
  pat : Patrol
  pending : List Instr
  sent : List Output
  deriving DecidableEq, Repr

/-- Reasons a step could stop with a fault. There is none: the block has no exception entry, and the
spec gives every command an effect in every state, so the type is empty (safe). -/
inductive Fault where
  deriving DecidableEq, Repr

/-- Reasons a step could be refused. -/
inductive Refusal where
  /-- A command without a meaning in this model; no arm of exec raises it (safe). -/
  | notModelled (mnemonic : String)
  deriving DecidableEq, Repr

/-! ### Reset -/

/-- The Class Table entry of a class that was never written (R35). -/
def ClassEntry.initial : ClassEntry := { grace := 10080, selfRestore := false }

/-- A scope that was never written, other than scope 0 (R121). -/
def Scope.initial : Scope := { enabled := false, priority := 0, vols := [] }

/-- The Settings Store as first initialised (Table 11-2, R121). -/
def Settings.initial : Settings :=
  { cacheMode := .writeBack, autoActivate := false,
    roles := #v[.console, .fileserver, .fileserver, .fileserver, .fileserver, .fileserver],
    classes := [], cutWait := 30, directiveWait := 120, idleTime := 2, patrolPeriod := 30,
    overdueLimit := 72, ackWait := 20, reopenInterval := 60, windowSource := .internal,
    openTime := 3600, closeTime := 21600,
    scopes := [(0, { enabled := true, priority := 0, vols := List.range 32 })],
    assumedRate := 40960, reserveMargin := 900 }

/-- No pending value (R188). -/
def PendingSettings.none : PendingSettings :=
  { windowSource := .none, openTime := .none, closeTime := .none, scopes := [],
    assumedRate := .none, reserveMargin := .none }

/-- A link at power-on (R159, R169, R175, R177, R178, R181). -/
def LinkRec.initial : LinkRec :=
  { up := false, idle := false, idleFrom := 0, queue := [], directives := [], placeWaits := [],
    notices := [], tx := [], subs := [], delivered := [], cursor := none, hold := none,
    tagCounter := 0, discarded := 0, dropped := 0, badRun := 0, haltNotice := none }

/-- The extent record an Attach writes (R47): owner 0, no lock, no version. It is what an unlisted
extent of an ATTACHED volume reads as. -/
def Extent.blank : Extent := { owner := 0, lock := none, versions := [] }

/-- Both dues closed (R72). -/
def Dues.closed : Dues := { hourly := none, nightly := none }

/-- The Tally Unit with an empty Principal Table (R189) and its volatile state empty (R21). -/
def Tally.initial : Tally :=
  { principals := [], cache := [], castout := [], postings := [], grace := [], note := [],
    recounts := [], ops := [], writes := [], flushing := false, modeReply := [], nextOp := 0,
    nextPosting := 0 }

/-- The Catalogue Unit with every entry DETACHED and empty tables (R44, R67, R189). -/
def Catalogue.initial : Catalogue :=
  { volumes := [], extents := [], attaching := [], snapshots := [], reclaims := [],
    sweepWaits := [], dues := [] }

/-- The Restore Engine with every record unused and the counter at 1 (R84). -/
def RestoreEngine.initial : RestoreEngine :=
  { table := [], counter := 1, waiting := [], acceptance := none, nextAccept := 0, nextFinish := 0 }

/-- The Stream Buffer at power-on (R106). -/
def Stream.initial : Stream :=
  { slots := [], waitRepair := [], waitFetch := [], waitShip := [], waitPatrol := [], nextFull := 0 }

/-- The Offsite Engine at power-on (R136, R138). -/
def Offsite.initial : Offsite :=
  { phase := .closed, closeInstant := none, plan := [], shedScopes := [], nComplete := 0,
    nShed := 0, nMissed := 0, nFailed := 0, rate := 0, intervalStart := 0, acked := 0,
    sawShip := false, lastFit := false, queue := [], nextEntry := 0, pulls := [], nextPull := 0,
    link := .down, dir := .idle, outstanding := [], seqCounter := 0, reqCounter := 0,
    withdrawnNums := [], withdrawnDrops := [], expiries := 0, ackStart := 0, ackLimit := 0,
    idleSince := none, burst := 0, shipTurn := none, controls := [], fetchQueue := [],
    roomWaits := [] }

/-- The Patrol Unit at power-on (R168). -/
def Patrol.initial : Patrol :=
  { work := [], nextItem := 0, folds := [], repairs := [], waiting := [], turn := 0,
    clearing := false }

/-- The Supervisor at power-on of a blank table memory (R177, R184, R187, R189; log entries 3, 4). -/
def Supervisor.initial : Supervisor :=
  { op := .loading, stage := .initialising, layout := .blank, clock := 0, clockSet := false,
    counted := false, hourlyTaken := false, elapsed := 0, powerWarn := false, cleanFlag := false,
    prevClean := false, quiet := none, raised := List.replicate 11 0, startup := [],
    settings := Settings.initial, pendingSettings := PendingSettings.none, nextReq := 0, draws := 0 }

/-- The part right after power-on of a blank table memory: LOADING, the clock at 0, the
first-initialisation writes under way (R184, R189). -/
def State.reset : State :=
  { sup := Supervisor.initial, links := Vector.replicate 6 LinkRec.initial,
    tally := Tally.initial, cat := Catalogue.initial, rst := RestoreEngine.initial,
    str := Stream.initial, off := Offsite.initial, pat := Patrol.initial, pending := [], sent := [] }

end Sys2Proof.Machine
end

