-- ==== Sys2Proof/Machine/Ops.lean ====
section
/-! DEFINITION. Named operations over the tables and the state: reading and writing by key, the one
read and the one write of each kind of record. -/

namespace Sys2Proof.Machine

/-! ### Tables held by key -/

/-- The record under a key. -/
def tget {α : Type} : Tbl α → Nat → Option α
  | [], _ => none
  | (k, v) :: t, key => if k = key then some v else tget t key

/-- The table with a record written under a key, keys kept rising. -/
def tput {α : Type} : Tbl α → Nat → α → Tbl α
  | [], key, v => [(key, v)]
  | (k, w) :: t, key, v =>
    if key < k then (key, v) :: (k, w) :: t
    else if key = k then (key, v) :: t
    else (k, w) :: tput t key v

/-- The table without the record of a key. -/
def tdel {α : Type} (t : Tbl α) (key : Nat) : Tbl α := t.filter fun kv => kv.1 != key

/-- The table with the record of a key changed, if it has one. -/
def tmod {α : Type} (t : Tbl α) (key : Nat) (f : α → α) : Tbl α :=
  match tget t key with
  | some v => tput t key (f v)
  | none => t

/-- Every record of a table changed. -/
def tmap {α : Type} (f : Nat → α → α) (t : Tbl α) : Tbl α :=
  t.map fun kv => (kv.1, f kv.1 kv.2)

/-- Keys strictly rising above a bound. -/
def risingFrom {α : Type} : Nat → Tbl α → Bool
  | _, [] => true
  | b, (k, _) :: t => decide (b ≤ k) && risingFrom (k + 1) t

/-- The canonical form of a table: keys strictly rising. -/
def Tbl.wf {α : Type} (t : Tbl α) : Bool := risingFrom 0 t

/-! ### Lists -/

/-- Put `x` before the first element that `lt x` holds of. -/
def insertBy {α : Type} (lt : α → α → Bool) (x : α) : List α → List α
  | [] => [x]
  | y :: ys => if lt x y then x :: y :: ys else y :: insertBy lt x ys

/-- A list put in order by insertion. -/
def sortBy {α : Type} (lt : α → α → Bool) : List α → List α
  | [] => []
  | x :: xs => insertBy lt x (sortBy lt xs)

/-- A natural-number list in ascending order. -/
def sortNat (xs : List Nat) : List Nat := sortBy (fun a b => decide (a < b)) xs

/-- The numbers that stand in a list, each once, ascending. -/
def distinctNat (xs : List Nat) : List Nat := sortNat xs.eraseDups

/-- The elements of a list that satisfy `p` changed by `f`. -/
def mapIf {α : Type} (p : α → Bool) (f : α → α) (xs : List α) : List α :=
  xs.map fun x => if p x then f x else x

/-- The element at a place changed. -/
def modAt {α : Type} (xs : List α) (i : Nat) (f : α → α) : List α :=
  match xs, i with
  | [], _ => []
  | x :: t, 0 => f x :: t
  | x :: t, n + 1 => x :: modAt t n f

/-- `f` applied `n` times. -/
def iter {α : Type} : Nat → (α → α) → α → α
  | 0, _, x => x
  | n + 1, f, x => iter n f (f x)

/-- The six server links. -/
def allLinks : List Link := [0, 1, 2, 3, 4, 5]

/-! ### Supervisor and links -/

/-- The record of a server link. -/
def State.link (s : State) (l : Link) : LinkRec := s.links[l]

/-- A link's record changed. -/
def State.modLink (s : State) (l : Link) (f : LinkRec → LinkRec) : State :=
  { s with links := s.links.set l (f (s.link l)) }

/-- The role of a link (R169). -/
def State.role (s : State) (l : Link) : Role := s.sup.settings.roles[l]

/-- The Supervisor's part changed. -/
def State.modSup (s : State) (f : Supervisor → Supervisor) : State := { s with sup := f s.sup }

/-- A frame sent by this step. -/
def State.send (s : State) (o : Output) : State := { s with sent := s.sent ++ [o] }

/-- A free value drawn (log entry 10). -/
def State.draw (s : State) : Nat × State :=
  (Config.freeNat s.sup.draws, s.modSup fun u => { u with draws := u.draws + 1 })

/-! ### Tally records -/

/-- The stored record of a principal. -/
def State.prin (s : State) (id : Nat) : Option Principal := tget s.tally.principals id

/-- The stored record of a principal written. -/
def State.setPrin (s : State) (id : Nat) (p : Principal) : State :=
  { s with tally.principals := tput s.tally.principals id p }

/-- The stored record of a principal changed, if there is one. -/
def State.modPrin (s : State) (id : Nat) (f : Principal → Principal) : State :=
  { s with tally.principals := tmod s.tally.principals id f }

/-- The resident line of a principal (R9). -/
def State.line (s : State) (id : Nat) : Option Line := s.tally.cache.find? fun x => x.id == id

/-- The castout buffer entry of a principal (R12). -/
def State.castoutOf (s : State) (id : Nat) : Option Castout := s.tally.castout.find? fun x => x.id == id

/-- Used and reserved as the stored record has them once the in-place writes under way to it have ended:
reads and writes of one record take effect in their order (log entry 19). -/
def State.stored (s : State) (id : Nat) : Nat × Nat :=
  match (s.tally.writes.filter fun w => w.id == id).getLast? with
  | some w => (w.used, w.reserved)
  | none =>
    match s.prin id with
    | some p => (p.used, p.reserved)
    | none => (0, 0)

/-- Used and reserved as current values: from the resident line, else from a castout buffer entry,
else from the stored record (1.1, R14). A line whose fill read has not ended holds none yet. -/
def State.current (s : State) (id : Nat) : Nat × Nat :=
  let stored := s.stored id
  match s.line id with
  | some x => if x.filling then stored else (x.used, x.reserved)
  | none =>
    match s.castoutOf id with
    | some c => (c.used, c.reserved)
    | none => stored

/-- The unsettled flag as it stands, a Settle whose write is under way having cleared it (R14, R18). -/
def State.isUnsettled (s : State) (id : Nat) : Bool :=
  match s.prin id with
  | some p => p.unsettled && !(s.tally.writes.any fun w => w.id == id && w.settles)
  | none => false

/-- The chain of a principal (R3). -/
def State.chain (s : State) (id : Nat) : List Nat :=
  match s.prin id with
  | some p => id :: (p.course.toList ++ p.dept.toList)
  | none => []

/-- The Class Table entry of a class (R35). -/
def State.classOf (s : State) (c : Nat) : ClassEntry :=
  (tget s.sup.settings.classes c).getD ClassEntry.initial

/-! ### Catalogue records -/

/-- Key of an extent in the extent tables. -/
def extentKey (vol ext : Nat) : Nat := vol * Config.maxExtents + ext

/-- Key of a snapshot in the catalogue (R67, R69). -/
def snapKey (vol gen : Nat) : Nat := vol * 4294967296 + gen

/-- The entry of an ATTACHED volume (R44). -/
def State.volume (s : State) (vol : Nat) : Option Volume :=
  if vol < 32 then tget s.cat.volumes vol else none

/-- A volume's entry changed. -/
def State.modVolume (s : State) (vol : Nat) (f : Volume → Volume) : State :=
  { s with cat.volumes := tmod s.cat.volumes vol f }

/-- The read of one extent record: what is listed, else the empty record (R47). -/
def State.extent (s : State) (vol ext : Nat) : Extent :=
  (tget s.cat.extents (extentKey vol ext)).getD Extent.blank

/-- The write of one extent record; an empty record is not listed, so that equal tables are equal
data. -/
def State.setExtent (s : State) (vol ext : Nat) (e : Extent) : State :=
  { s with cat.extents :=
      if e = Extent.blank then tdel s.cat.extents (extentKey vol ext)
      else tput s.cat.extents (extentKey vol ext) e }

/-- The canonical form of the extent tables: keys strictly rising, no empty record listed. -/
def extentsWf (t : Tbl Extent) : Bool := Tbl.wf t && t.all fun kv => decide (kv.2 ≠ Extent.blank)

/-- The damaged-record flag of an extent (R65). -/
def State.damaged (s : State) (vol ext : Nat) : Bool :=
  match s.volume vol with
  | some v => v.damage.contains ext
  | none => false

/-- The snapshot record of a volume and generation (R67). -/
def State.snapshot (s : State) (vol gen : Nat) : Option Snapshot :=
  if gen ≤ maxGeneration then tget s.cat.snapshots (snapKey vol gen) else none

/-- A snapshot record changed. -/
def State.modSnapshot (s : State) (vol gen : Nat) (f : Snapshot → Snapshot) : State :=
  { s with cat.snapshots := tmod s.cat.snapshots (snapKey vol gen) f }

/-- The snapshot records of a volume, by ascending generation. -/
def State.snapsOf (s : State) (vol : Nat) : List Snapshot :=
  (s.cat.snapshots.map Prod.snd).filter fun p => p.vol == vol

/-- Pin count of a snapshot (Table 4-1). -/
def Snapshot.pins (p : Snapshot) : Nat := p.restorePins + p.shipPins

/-- A snapshot at generation `gen` holds a version (R51). -/
def Version.heldAt (v : Version) (gen : Nat) : Bool :=
  decide (v.birth ≤ gen) &&
    (match v.death with
     | none => true
     | some d => decide (gen < d))

/-- The version a snapshot's generation holds in an extent (R51, R88). -/
def Extent.heldAt (e : Extent) (gen : Nat) : Option Version := e.versions.find? fun v => v.heldAt gen

/-- The live version of an extent (R50). -/
def Extent.live (e : Extent) : Option Version := e.versions.find? fun v => v.death.isNone

/-- The version of an extent with a birth generation. -/
def Extent.version (e : Extent) (birth : Nat) : Option Version := e.versions.find? fun v => v.birth == birth

/-- The location handle of a LOCAL version. -/
def Version.loc (v : Version) : Option Nat :=
  match v.res with
  | .here l _ => some l
  | .offsite => none

/-- The reference count of a version; an OFFSITE_ONLY version has none (R58). -/
def Version.refs (v : Version) : Nat :=
  match v.res with
  | .here _ r => r
  | .offsite => 0

/-- The recorded code of a chunk. -/
def Version.codeAt (v : Version) (idx : Nat) : Code := (v.codes[idx]?).getD 0

/-- The cut dues of a volume (R72). -/
def State.duesOf (s : State) (vol : Nat) : Dues := (tget s.cat.dues vol).getD Dues.closed

/-- The cut dues of a volume written; a volume with both closed is not listed. -/
def State.setDues (s : State) (vol : Nat) (d : Dues) : State :=
  { s with cat.dues := if d = Dues.closed then tdel s.cat.dues vol else tput s.cat.dues vol d }

/-! ### Restore records -/

/-- A restore record in use (R84). -/
def State.restore (s : State) (rec : Nat) : Option Restore := tget s.rst.table rec

/-- A restore record changed. -/
def State.modRestore (s : State) (rec : Nat) (f : Restore → Restore) : State :=
  { s with rst.table := tmod s.rst.table rec f }

/-- A step of a restore record changed. -/
def State.modStep (s : State) (rec i : Nat) (f : Step → Step) : State :=
  s.modRestore rec fun r => { r with steps := modAt r.steps i f }

/-- The record that holds a restore id (R99, R101). -/
def State.recordOf (s : State) (rid : Nat) : Option (Nat × Restore) :=
  s.rst.table.find? fun kr => kr.2.rid == rid

/-- Target volume and extent of a step (5.1). -/
def Restore.target (r : Restore) (i : Nat) : Nat × Nat :=
  match r.mode with
  | .inPlace => (r.vol, r.first + i)
  | .recovery => (r.tvol, r.tfirst + i)

/-- The active states of a restore (R91). -/
def RestoreState.isActive : RestoreState → Bool
  | .planned | .running | .paused | .cancelling => true
  | .done | .donePartial | .failed | .cancelled => false

/-- A step is in flight (R92): ISSUED, FETCHING or PUTTING, or a COPY being reissued (R97). -/
def Step.inFlight (t : Step) : Bool :=
  match t.state with
  | .issued | .fetching | .putting => true
  | .waiting => t.again
  | .done | .failed | .skipped => false

/-- Steps in flight of a restore (Table 5-1). -/
def Restore.inFlight (r : Restore) : Nat := (r.steps.filter Step.inFlight).length

/-- The positive charge of a step (R85). -/
def Step.positive (t : Step) : Nat := t.charge.toNat

/-! ### Stream slots -/

/-- A slot that is not FREE. -/
def State.slot (s : State) (n : Nat) : Option Slot := tget s.str.slots n

/-- A slot changed. -/
def State.modSlot (s : State) (n : Nat) (f : Slot → Slot) : State :=
  { s with str.slots := tmod s.str.slots n f }

/-- A slot freed (R106). -/
def State.freeSlot (s : State) (n : Nat) : State := { s with str.slots := tdel s.str.slots n }

/-- Every slot that satisfies `p` freed. -/
def State.freeSlotsIf (s : State) (p : Slot → Bool) : State :=
  { s with str.slots := s.str.slots.filter fun kv => !p kv.2 }

/-- Slots held in a class (R107). -/
def State.slotsHeld (s : State) (c : SlotClass) : Nat :=
  (s.str.slots.filter fun kv => decide (kv.2.cls = c)).length

/-- Free slots (R107). -/
def State.freeSlots (s : State) : Nat := Config.slotCount - s.str.slots.length

/-! ### The offsite side -/

/-- The plan volume of a volume number (R122). -/
def State.planOf (s : State) (vol : Nat) : Option PlanVol := s.off.plan.find? fun p => p.vol == vol

/-- A plan volume changed. -/
def State.modPlan (s : State) (vol : Nat) (f : PlanVol → PlanVol) : State :=
  { s with off.plan := mapIf (fun p => p.vol == vol) f s.off.plan }

/-- A Ship Queue entry. -/
def State.entry (s : State) (num : Nat) : Option ShipEntry := s.off.queue.find? fun e => e.num == num

/-- A Ship Queue entry changed. -/
def State.modEntry (s : State) (num : Nat) (f : ShipEntry → ShipEntry) : State :=
  { s with off.queue := mapIf (fun e => e.num == num) f s.off.queue }

/-- The night is open and not ending. -/
def State.windowIsOpen (s : State) : Bool := decide (s.off.phase = .windowOpen)

/-- A night is ending (R120). -/
def State.nightEnding (s : State) : Bool :=
  match s.off.phase with
  | .ending _ _ => true
  | _ => false

/-- The offsite link is UP. -/
def State.linkUp (s : State) : Bool := decide (s.off.link = .up)

/-! ### Patrol records -/

/-- An open repair record (R163). -/
def State.repair (s : State) (n : Nat) : Option Repair := tget s.pat.repairs n

/-- A repair record changed. -/
def State.modRepair (s : State) (n : Nat) (f : Repair → Repair) : State :=
  { s with pat.repairs := tmod s.pat.repairs n f }

/-- A Work List item. -/
def State.item (s : State) (n : Nat) : Option WorkItem := s.pat.work.find? fun w => w.n == n

/-- A Work List item changed. -/
def State.modItem (s : State) (n : Nat) (f : WorkItem → WorkItem) : State :=
  { s with pat.work := mapIf (fun w => w.n == n) f s.pat.work }

/-! ### The frame of a meaning -/

/-- A command outside POWER_ON: in HALTED nothing is taken and nothing sent (R190); otherwise the
command's effect, its output standing alone in `sent`. -/
def act (f : State → State) (s : State) : Host.Outcome State Fault Refusal :=
  if s.sup.op = .halted then .next { s with sent := [] } else .next (f { s with sent := [] })

end Sys2Proof.Machine
end

