-- ==== Sys2Proof/Machine/Frames.lean ====
section
/-! DEFINITION. Bytes on the links: the check code (R1), the frames of the server links (R170) and of
the offsite link (R141), and the checks on an arriving frame (R171, R142). -/

namespace Sys2Proof.Machine

/-! ### The check code -/

/-- One bit of the reflected division by the polynomial of Table 0-4. -/
def crcBit (c : Code) : Code :=
  if c.getLsbD 0 then (c >>> 1) ^^^ 0x82F63B78#32 else c >>> 1

/-- One byte of input, least significant bit first (Table 0-4). -/
def crcByte (c : Code) (b : Byte) : Code := iter 8 crcBit (c ^^^ b.setWidth 32)

/-- The code over bytes in the order they appear, from a value already reached. -/
def crcRun (c : Code) (bytes : List Byte) : Code := bytes.foldl crcByte c

/-- The initial value of the check code (Table 0-4); the computed code of a slot starts with it. -/
def crcInit : Code := 0xFFFFFFFF#32

/-- The check code of a string of bytes (R1). -/
def checkCode (bytes : List Byte) : Code := crcRun crcInit bytes ^^^ 0xFFFFFFFF#32

/-! ### Little-endian fields -/

/-- The `k` bytes of a field, least significant first (R1). -/
def leBytes : Nat → Nat → List Byte
  | 0, _ => []
  | k + 1, n => BitVec.ofNat 8 n :: leBytes k (n / 256)

/-- The value of a field of bytes, least significant first. -/
def leValue : List Byte → Nat
  | [] => 0
  | b :: bs => b.toNat + 256 * leValue bs

/-! ### Server-link frames -/

/-- Largest body of a frame on either link (Tables 8-2 and 10-1). -/
def maxBody : Nat := 1048576

/-- A server-link frame within its sync and check code (Table 10-1). -/
structure Frame where
  kind : Nat
  flags : Nat
  tag : Nat
  body : List Byte
  deriving DecidableEq, Repr

/-- Every field fits its size (Table 10-1). -/
def Frame.fits (f : Frame) : Bool :=
  decide (f.kind < 256) && decide (f.flags < 256) && decide (f.tag < 65536) &&
    decide (f.body.length ≤ maxBody)

/-- The bytes the check code of a frame covers: kind, flags, tag, body length and body. -/
def Frame.covered (f : Frame) : List Byte :=
  leBytes 1 f.kind ++ (leBytes 1 f.flags ++ (leBytes 2 f.tag ++ (leBytes 3 f.body.length ++ f.body)))

/-- A server-link frame as it is sent (R170): sync first, least significant byte first. -/
def Frame.encode (f : Frame) : List Byte :=
  leBytes 2 0x5AC3 ++ (f.covered ++ leBytes 4 (checkCode f.covered).toNat)

/-- What the first check of R171 finds in the bytes of an arriving frame. -/
inductive FrameCheck where
  | badSync
  | badLength (codeMatches : Bool)
  | badCode
  | good (f : Frame)
  deriving DecidableEq, Repr

/-- The bytes after the sync end in the check code of those before it, for the body length they state. Bytes
that end short of the frame's check code, or run past it, do not carry a matching code. -/
def codeMatches (inner : List Byte) (len : Nat) : Bool :=
  decide (inner.length = 7 + len + 4) &&
    decide (inner.drop (7 + len) = leBytes 4 (checkCode (inner.take (7 + len))).toNat)

/-- The first check of R171. -/
def parseFrame (bytes : List Byte) : FrameCheck :=
  if bytes.take 2 ≠ leBytes 2 0x5AC3 then .badSync
  else
    let inner := bytes.drop 2
    let len := leValue ((inner.drop 4).take 3)
    if len > maxBody then .badLength (codeMatches inner len)
    else if codeMatches inner len then
      let cover := inner.take (7 + len)
      .good { kind := leValue (cover.take 1), flags := leValue ((cover.drop 1).take 1),
              tag := leValue ((cover.drop 2).take 2), body := cover.drop 7 }
    else .badCode

/-- The code of a request kind (Table 10-2). -/
def ReqKind.code : ReqKind → Nat
  | .admitReq => 0x01 | .release => 0x02 | .settle => 0x03 | .principalCreate => 0x04
  | .principalEdit => 0x05 | .principalDelete => 0x06 | .freeze => 0x07
  | .commit => 0x10 | .cut => 0x11 | .expireLocal => 0x12 | .expireOffsite => 0x13
  | .volumeAttach => 0x14 | .volumeDetach => 0x15
  | .restore => 0x20 | .restoreCancel => 0x21 | .restoreStatus => 0x22
  | .windowOpen => 0x28 | .windowClose => 0x29 | .scopeSet => 0x2A | .offsiteOpen => 0x2B
  | .query => 0x30 | .tableRead => 0x31 | .tableNext => 0x32
  | .settingWrite => 0x38 | .holdBegin => 0x39 | .holdRelease => 0x3A | .holdAbandon => 0x3B
  | .standbyEnter => 0x3C | .standbyExit => 0x3D | .timeSet => 0x3E
  | .statusQuery => 0x3F | .statusClear => 0x40 | .subscribe => 0x41 | .clear => 0x42
  | .reset => 0x43
  | .other c => c

/-- The codes of the request kinds (Table 10-2). -/
def requestCodes : List Nat :=
  [0x01, 0x02, 0x03, 0x04, 0x05, 0x06, 0x07, 0x10, 0x11, 0x12, 0x13, 0x14, 0x15, 0x20, 0x21, 0x22,
   0x28, 0x29, 0x2A, 0x2B, 0x30, 0x31, 0x32, 0x38, 0x39, 0x3A, 0x3B, 0x3C, 0x3D, 0x3E, 0x3F, 0x40,
   0x41, 0x42, 0x43]

/-- The codes of the answer kinds, EXTENT_DATA to FIX_FAIL (Table 10-2). -/
def answerCodes : List Nat := [0x80, 0x81, 0x82, 0x83, 0x84, 0x85, 0x86, 0x87, 0x88]

/-- A request body fits its kind (R171, check 3). The layouts of Admit and Commit stand in
Table 10-3; an Admit's options hold the one bit 0. -/
def requestFits (kind : Nat) (body : List Byte) : Bool :=
  if kind = 0x01 then decide (body.length = 9) && decide (leValue (body.drop 8) ≤ 1)
  else if kind = 0x10 then decide (body.length = 15) || decide (body.length = 79)
  else Config.bodyFits kind body

/-- An answer body fits its kind (R171, check 4). The layout of EXTENT_DATA stands in Table 10-3. -/
def answerFits (kind : Nat) (body : List Byte) : Bool :=
  if kind = 0x80 then decide (body.length = 1 + chunkBytes) else Config.bodyFits kind body

/-- What R171 makes of a frame with a correct sync, length and check code. -/
inductive FrameClass where
  | badFlags
  | request (known : Bool)
  | answer (known : Bool)
  deriving DecidableEq, Repr

/-- Checks 2 to 4 of R171. -/
def Frame.classify (f : Frame) : FrameClass :=
  if f.flags = 1 then .request (requestCodes.contains f.kind && requestFits f.kind f.body)
  else if f.flags = 8 then .answer (answerCodes.contains f.kind && answerFits f.kind f.body)
  else .badFlags

/-- The Admit a frame carries (Table 10-3). -/
def Frame.admitReq (l : Link) (errs : List StoreError) (f : Frame) : Option Instr :=
  if f.flags = 1 ∧ f.kind = 0x01 ∧ requestFits f.kind f.body = true then
    some (.admitReq l f.tag (leValue (f.body.take 3)) (leValue ((f.body.drop 3).take 3))
      (leValue ((f.body.drop 6).take 2)) (decide (leValue (f.body.drop 8) = 1)) errs)
  else none

/-- The body of an Admit (Table 10-3). -/
def admitBody (principal n q : Nat) (partialOk : Bool) : List Byte :=
  leBytes 3 principal ++ (leBytes 3 n ++ (leBytes 2 q ++ leBytes 1 (if partialOk then 1 else 0)))

/-- The code of each chunk in a Commit's body (Table 10-3). -/
def codesFrom : Nat → List Byte → List Code
  | 0, _ => []
  | k + 1, bs => BitVec.ofNat 32 (leValue (bs.take 4)) :: codesFrom k (bs.drop 4)

/-- The Commit a frame carries (Table 10-3): with codes in 79 bytes, without in 15. -/
def Frame.commit (l : Link) (errs : List StoreError) (f : Frame) : Option Instr :=
  if f.flags = 1 ∧ f.kind = 0x10 ∧ requestFits f.kind f.body = true then
    some (.commit l f.tag (leValue (f.body.take 1)) (leValue ((f.body.drop 1).take 3))
      (leValue ((f.body.drop 4).take 3)) (leValue ((f.body.drop 7).take 6))
      (leValue ((f.body.drop 13).take 2))
      (if f.body.length = 79 then some (codesFrom 16 (f.body.drop 15)) else none) errs)
  else none

/-- The body of a Commit (Table 10-3). -/
def commitBody (vol ext owner loc occ : Nat) (codes : Option (List Code)) : List Byte :=
  leBytes 1 vol ++ (leBytes 3 ext ++ (leBytes 3 owner ++ (leBytes 6 loc ++ (leBytes 2 occ ++
    (match codes with
     | some cs => cs.flatMap fun c => leBytes 4 c.toNat
     | none => [])))))

/-- The EXTENT_DATA a frame carries (Table 10-3). -/
def Frame.extentData (l : Link) (errs : List StoreError) (f : Frame) : Option Instr :=
  if f.flags = 8 ∧ f.kind = 0x80 ∧ answerFits f.kind f.body = true then
    some (.extentData l f.tag (leValue (f.body.take 1)) (f.body.drop 1) errs)
  else none

/-! ### Frames the part sends on a server link -/

/-- The code of a reply status (Table 10-4). -/
def Status.code : Status → Nat
  | .done => 0 | .accepted => 1 | .granted => 2 | .partialGrant => 3 | .limit => 4 | .frozen => 5
  | .busy => 6 | .malformed => 7 | .notPermitted => 8 | .unknownPrincipal => 9
  | .unknownVolume => 10 | .unknownSnapshot => 11 | .range => 12 | .notOwner => 13 | .inUse => 14
  | .noRoom => 15 | .pinned => 16 | .extentLocked => 17 | .versionPinned => 18 | .damaged => 19
  | .unrecoverable => 20 | .catalogueFull => 21 | .holdFull => 22 | .wrongState => 23

/-- The kind code of a frame the part sends (Table 10-2). -/
def LinkFrame.kind : LinkFrame → Nat
  | .reply .. => 0x60
  | .directive _ (.cutDue ..) => 0x70
  | .directive _ (.pull ..) => 0x71
  | .directive _ (.copy ..) => 0x72
  | .directive _ (.put ..) => 0x73
  | .directive _ (.fixTwin ..) => 0x74
  | .directive _ (.fixData ..) => 0x74
  | .directive _ (.reclaim _) => 0x75
  | .chunk .. => 0x76
  | .notice _ => 0x90

/-- The flags of a frame the part sends (Table 10-1). A CHUNK_DATA goes with its directive. -/
def LinkFrame.flags : LinkFrame → Nat
  | .reply .. => 2
  | .directive .. => 4
  | .chunk .. => 4
  | .notice _ => 16

/-- The tag of a frame the part sends (Table 10-1). -/
def LinkFrame.tag : LinkFrame → Nat
  | .reply t _ _ _ => t
  | .directive t _ => t
  | .chunk t _ _ => t
  | .notice _ => 0

/-- DESIGN CHOICE (log entry 8), safe. The bytes of a reply's further contents, where Table 10-3 gives them no
layout. -/
opaque Config.replyContents (b : ReplyBody) : List Byte

/-- DESIGN CHOICE (log entry 8), safe. The bytes of a directive's body, where Table 10-3 gives it no layout. -/
opaque Config.directiveContents (b : DirBody) : List Byte

/-- DESIGN CHOICE (log entry 8), safe. The bytes of a notice's contents after class code and clock, to which the
spec gives no layout. -/
opaque Config.noticeContents (b : NoticeBody) : List Byte

/-- DESIGN CHOICE (log entry 8), safe. The bytes of an offsite frame's body, but for CLOSE; the spec gives its
contents (Table 8-3) and not their layout. -/
opaque Config.offsiteContents (f : OffFrame) : List Byte

/-- DESIGN CHOICE (log entry 8), safe. The length of a Table Read's reply body that carries these records. -/
opaque Config.tableBytes (rs : List RecordView) : Nat

/-- DESIGN CHOICE (log entry 8), safe. The two fields of a DONE_ACK's or DROP_ACK's body: volume, and target or
generation (Table 8-3). -/
opaque Config.ackFields (kind : Nat) (body : List Byte) : Nat × Nat

/-- DESIGN CHOICE (log entry 8), safe. The reason code in the body of a NAK or FETCH_NONE (Table 8-3). -/
opaque Config.reasonOf (kind : Nat) (body : List Byte) : Nat

/-- Class code of a notice (Table 10-7). -/
def NoticeBody.cls : NoticeBody → Nat
  | .graceExpired .. => 0
  | .tallyUnderflow .. => 1
  | .unsettled .. => 2
  | .restoreEnd .. => 3
  | .cutMissed .. => 4
  | .shipShed .. => 5
  | .shipNightEnd .. => 6
  | .shipRejected .. => 7
  | .linkFault .. => 8
  | .damage .. => 9
  | .storeError .. => 10

/-- The contents of a reply after its status and request kind (Table 10-3). -/
def ReplyBody.contents : ReplyBody → List Byte
  | .none => []
  | .admitReq granted headroom limiting => leBytes 3 granted ++ leBytes 6 headroom ++ leBytes 3 limiting
  | b => Config.replyContents b

/-- The body of a frame the part sends (Table 10-3); a notice's begins with its class code and the clock (R177). -/
def LinkFrame.body : LinkFrame → List Byte
  | .reply _ k st b => leBytes 1 st.code ++ leBytes 1 k.code ++ b.contents
  | .directive _ (.pull loc first count verify) =>
    leBytes 6 loc ++ leBytes 1 first ++ leBytes 1 count ++ leBytes 1 (if verify then 1 else 0)
  | .directive _ b => Config.directiveContents b
  | .chunk _ idx data => leBytes 1 idx ++ data
  | .notice n => leBytes 1 n.body.cls ++ leBytes 6 n.clock ++ Config.noticeContents n.body

/-- The bytes of a frame the part sends, with its check code (R1, R170). -/
def LinkFrame.bytes (f : LinkFrame) : List Byte :=
  Frame.encode { kind := f.kind, flags := f.flags, tag := f.tag, body := f.body }

/-! ### Offsite frames -/

/-- An offsite frame within its check code (Table 8-2). -/
structure OffsiteFrame where
  kind : Nat
  number : Nat
  body : List Byte
  deriving DecidableEq, Repr

/-- Every field fits its size (Table 8-2). -/
def OffsiteFrame.fits (f : OffsiteFrame) : Bool :=
  decide (f.kind < 256) && decide (f.number < 65536) && decide (f.body.length ≤ maxBody)

/-- The bytes the check code of an offsite frame covers (Table 8-2). -/
def OffsiteFrame.covered (f : OffsiteFrame) : List Byte :=
  leBytes 1 f.kind ++ (leBytes 2 f.number ++ (leBytes 3 f.body.length ++ f.body))

/-- An offsite frame as it is sent (R141). -/
def OffsiteFrame.encode (f : OffsiteFrame) : List Byte :=
  f.covered ++ leBytes 4 (checkCode f.covered).toNat

/-- The kind code of an offsite frame the part sends (Table 10-2: from 0xA0 in the order of Table 8-3). -/
def OffFrame.kind : OffFrame → Nat
  | .open .. => 0xA0
  | .close => 0xA2
  | .ship .. => 0xA3
  | .volumeDone .. => 0xA4
  | .drop .. => 0xA5
  | .fetchReq .. => 0xAA

/-- The number of an offsite frame the part sends (Table 8-2). -/
def OffFrame.number : OffFrame → Nat
  | .open .. => 0
  | .close => 0
  | .ship num .. => num
  | .volumeDone num .. => num
  | .drop num .. => num
  | .fetchReq num .. => num

/-- The body of an offsite frame the part sends (Table 8-3). -/
def OffFrame.body : OffFrame → List Byte
  | .close => []
  | f => Config.offsiteContents f

/-- The bytes of an offsite frame the part sends, with its check code (R1, R141). -/
def OffFrame.bytes (f : OffFrame) : List Byte :=
  OffsiteFrame.encode { kind := f.kind, number := f.number, body := f.body }

/-- An offsite frame read from its bytes: none where its check code does not match or its body
length exceeds the limit (R142). -/
def parseOffsite (bytes : List Byte) : Option OffsiteFrame :=
  let len := leValue ((bytes.drop 3).take 3)
  if len > maxBody then none
  else if bytes.length ≠ 6 + len + 4 then none
  else
    let cover := bytes.take (6 + len)
    if bytes.drop (6 + len) = leBytes 4 (checkCode cover).toNat then
      some { kind := leValue (cover.take 1), number := leValue ((cover.drop 1).take 2),
             body := cover.drop 6 }
    else none

/-- Codes of the kinds the peer sends: OPEN_ACK, ACK, NAK, DONE_ACK, DROP_ACK, FETCH_DATA,
FETCH_EMPTY, FETCH_NONE (Tables 8-3 and 10-2). -/
def peerCodes : List Nat := [0xA1, 0xA6, 0xA7, 0xA8, 0xA9, 0xAB, 0xAC, 0xAD]

/-- The body length fits the kind's contents (R142); FETCH_DATA and FETCH_EMPTY are given by
Table 8-3. -/
def peerFits (kind : Nat) (body : List Byte) : Bool :=
  if kind = 0xAB then decide (body.length = chunkBytes)
  else if kind = 0xAC then body.isEmpty
  else Config.offsiteBodyFits kind body

/-- The command that a peer's frame is (Tables 8-2, 8-3 and 10-2): its number stands in the header, and a
FETCH_DATA's chunk is its body. -/
def OffsiteFrame.command (errs : List StoreError) (f : OffsiteFrame) : Option Instr :=
  if peerFits f.kind f.body = false then none
  else
    match f.kind with
    | 0xA1 => some (.openAck errs)
    | 0xA6 => some (.ack f.number errs)
    | 0xA7 => some (.nak f.number (Config.reasonOf 0xA7 f.body) errs)
    | 0xA8 => some (.doneAck (Config.ackFields 0xA8 f.body).1 (Config.ackFields 0xA8 f.body).2 errs)
    | 0xA9 => some (.dropAck (Config.ackFields 0xA9 f.body).1 (Config.ackFields 0xA9 f.body).2 errs)
    | 0xAB => some (.fetchData f.number f.body errs)
    | 0xAC => some (.fetchEmpty f.number errs)
    | 0xAD => some (.fetchNone f.number (Config.reasonOf 0xAD f.body) errs)
    | _ => none

/-- A frame from the peer is discarded (R142). -/
def discardsOffsite (link : OffLink) (bytes : List Byte) : Bool :=
  match parseOffsite bytes with
  | none => true
  | some f =>
    !(peerCodes.contains f.kind && peerFits f.kind f.body) ||
      (match link with
       | .down | .faulted _ => true
       | .opening _ => decide (f.kind ≠ 0xA1)
       | .up => decide (f.kind = 0xA1))

end Sys2Proof.Machine
end

