-- ==== Sys2Proof/Decode.lean ====
section
/-! DEFINITION. Commands read from words. The table of operations and events gives no row any bits, so
no word spells a command; the frames whose byte layout the spec gives are read in
Sys2Proof/Machine/Frames.lean. -/

namespace Sys2Proof

/-- The command that a word of `nbits` bits spells by the table: none, since no row has bits. -/
def decodeTableWord (_nbits _w : Nat) : Option Instr := none

end Sys2Proof
end

