-- ==== Sys2Proof/Machine/Flags.lean ====
section
/-! DEFINITION. What the part flags to the outside: notices and their raised counts (R177, R178),
replies and directives handed to the Link Unit (R172, R174, R175), the idle state of a link (R159),
store errors that stop the part (R190). -/

namespace Sys2Proof.Machine

/-! ### Notices -/

/-- A raised count one higher, saturating (R177). -/
def countUp (n : Nat) : Nat := if n < 65535 then n + 1 else 65535

/-- A link is a recipient of a notice: UP and subscribed to its class (R177); of RESTORE_END, the
requesting link and the CONSOLE links only (R100). -/
def State.receives (s : State) (b : NoticeBody) (l : Link) : Bool :=
  (s.link l).up && (s.link l).subs.contains b.cls &&
    (match b with
     | .restoreEnd _ _ req _ _ _ _ _ _ _ _ => decide (req = l) || decide (s.role l = .console)
     | _ => true)

/-- A notice put in a link's queue, or dropped and counted where the queue is full (R177). -/
def LinkRec.queueNotice (r : LinkRec) (n : Notice) : LinkRec :=
  if r.notices.length < Config.noticeQueueSize then { r with notices := r.notices ++ [n] }
  else { r with dropped := r.dropped + 1 }

/-- A notice queued to those links of a list that receive it. -/
def State.queueTo (b : NoticeBody) (n : Notice) : List Link → State → State
  | [], s => s
  | l :: ls, s =>
    State.queueTo b n ls (if s.receives b l then s.modLink l (·.queueNotice n) else s)

/-- A notice raised (R177): its class's count rises, it is kept in the start-up list while LOADING
(R178), and it is queued to its recipients. -/
def State.raise (s : State) (b : NoticeBody) : State :=
  let n : Notice := { clock := s.sup.clock, body := b }
  let s := s.modSup fun u =>
    { u with
      raised := modAt u.raised b.cls countUp
      startup :=
        if u.op = .loading ∧ u.startup.length < Config.startupSize then u.startup ++ [n]
        else u.startup }
  State.queueTo b n allLinks s

/-- Entry to HALTED (R190): STORE_ERROR is raised, and every UP subscribed link is still to be sent
it (R182). -/
def State.halt (s : State) (item : StoreItem) : State :=
  let s := s.raise (.storeError item)
  let n : Notice := { clock := s.sup.clock, body := .storeError item }
  let s := allLinks.foldl (fun s l =>
    if s.receives (.storeError item) l then s.modLink l fun r => { r with haltNotice := some n } else s) s
  s.modSup fun u => { u with op := .halted }

/-! ### Idle state -/

/-- A BUSY event of R159: the link is BUSY and its idle time starts again. -/
def State.busy (s : State) (l : Link) : State :=
  s.modLink l fun r => { r with idle := false, idleFrom := s.sup.elapsed }

/-- The end of a request or directive: the idle time starts again, the idle state stands (R159). -/
def State.restartIdle (s : State) (l : Link) : State :=
  s.modLink l fun r => { r with idleFrom := s.sup.elapsed }

/-! ### Replies -/

/-- A reply handed at arrival, for a request that takes no queue entry (R171, R172, R182). -/
def State.replyAtOnce (s : State) (l : Link) (tag : Nat) (k : ReqKind) (st : Status) : State :=
  s.modLink l fun r => { r with tx := r.tx ++ [.reply tag k st .none] }

/-- The reply to a queued request handed (R172, R174): its entry leaves the queue; the frame is
discarded where the link was reset since the request arrived or is DOWN (R181). -/
def LinkRec.reply (r : LinkRec) (req : Nat) (st : Status) (body : ReplyBody) : LinkRec :=
  match r.queue.find? fun e => e.num == req with
  | none => r
  | some e =>
    { r with
      queue := r.queue.filter fun x => x.num != req
      tx := if e.stale || !r.up then r.tx else r.tx ++ [.reply e.tag e.kind st body] }

/-- The reply to a queued request handed. -/
def State.reply (s : State) (l : Link) (req : Nat) (st : Status) (body : ReplyBody) : State :=
  (s.modLink l fun r => r.reply req st body).restartIdle l

/-! ### Directives -/

/-- The next tag of a link's counter that no outstanding directive holds (R175). -/
def freeTag (ds : List Directive) : Nat → Nat → Nat
  | 0, t => t
  | fuel + 1, t => if ds.any fun d => d.tag == t then freeTag ds fuel ((t + 1) % 65536) else t

/-- The tag that the next directive of a link takes. -/
def LinkRec.nextTag (r : LinkRec) : Nat := freeTag r.directives (r.directives.length + 1) r.tagCounter

/-- A directive that takes no place handed to the Link Unit: RECLAIM or CUT_DUE (R60, R74, R175). -/
def State.handNotice (s : State) (l : Link) (b : DirBody) : State :=
  (s.modLink l fun r =>
    { r with tx := r.tx ++ [.directive r.nextTag b], tagCounter := (r.nextTag + 1) % 65536 }).busy l

/-- A directive that takes a place handed to the Link Unit (R175), followed by the CHUNK_DATA frames
of the slots it carries, given as chunk index and slot. -/
def State.handDirective (s : State) (l : Link) (k : DirKind) (who : Issuer)
    (refs : List (Nat × Nat × Nat)) (b : DirBody) (chunks : List (Nat × Nat)) : State :=
  (s.modLink l fun r =>
    { r with
      tx := r.tx ++ .directive r.nextTag b :: chunks.map fun c => .chunk r.nextTag c.1 c.2
      directives := r.directives ++
        [{ tag := r.nextTag, kind := k, issuer := who, issued := s.sup.elapsed,
           limit := s.sup.settings.directiveWait, refs := refs }]
      placeWaits := r.placeWaits.filter (· ≠ who)
      tagCounter := (r.nextTag + 1) % 65536 }).busy l

/-- An issuer's wait for a place begins, unless it waits already (R175). -/
def State.waitPlace (s : State) (l : Link) (who : Issuer) : State :=
  s.modLink l fun r =>
    if r.placeWaits.contains who then r else { r with placeWaits := r.placeWaits ++ [who] }

/-- An issuer no longer waits for a place on any link. -/
def State.leavePlaces (s : State) (who : Issuer) : State :=
  allLinks.foldl (fun s l =>
    s.modLink l fun r => { r with placeWaits := r.placeWaits.filter (· ≠ who) }) s

/-- The outstanding directive of a link with a tag (R175). -/
def State.directive (s : State) (l : Link) (tag : Nat) : Option Directive :=
  (s.link l).directives.find? fun d => d.tag == tag

/-- A directive's entry removed (R175, R176); its CHUNK_DATA frames not yet transmitted go with it. -/
def State.endDirective (s : State) (l : Link) (tag : Nat) : State :=
  (s.modLink l fun r =>
    { r with
      directives := r.directives.filter fun d => d.tag != tag
      tx := r.tx.filter fun f =>
        match f with
        | .chunk t _ _ => t != tag
        | _ => true }).restartIdle l

/-- An issuer has a directive outstanding on some link. -/
def State.hasDirective (s : State) (who : Issuer) : Bool :=
  allLinks.any fun l => (s.link l).directives.any fun d => decide (d.issuer = who)

end Sys2Proof.Machine
end

