-- ==== Sys2Proof/Machine/Grace.lean ====
section
/-! DEFINITION. Grace: the Grace Queue, expiry, lazy expiry and the evaluation after a change
(R36 to R43). -/

namespace Sys2Proof.Machine

/-- Order of the Grace Queue: by deadline, then by id (R37). -/
def GraceEntry.before (a b : GraceEntry) : Bool :=
  decide (a.deadline < b.deadline) || (decide (a.deadline = b.deadline) && decide (a.id < b.id))

/-- A principal's grace fields written to its stored record (R36). -/
def State.setGrace (s : State) (id : Nat) (g : Grace) : State :=
  s.modPrin id fun p => { p with grace := g }

/-- A principal's entry taken out of the Grace Queue (R37). -/
def State.leaveGraceQueue (s : State) (id : Nat) : State :=
  { s with tally.grace := s.tally.grace.filter fun e => e.id != id }

/-- A deadline 60 × grace length after the clock (R36). -/
def deadlineAfter (clock minutes : Nat) : Nat :=
  if clock + 60 * minutes ≤ maxClock then clock + 60 * minutes
  else Config.deadlineOver (clock + 60 * minutes)

/-- Entry into GRACE (R37): inserted in order where there is room; into a full queue only ahead of
its last entry, whose principal is then marked unqueued. -/
def State.enterGrace (s : State) (id deadline : Nat) : State :=
  let e : GraceEntry := { deadline := deadline, id := id }
  let q := s.tally.grace
  if q.length < Config.graceQueueSize then
    { s with tally.grace := insertBy GraceEntry.before e q }.setGrace id (.grace deadline true)
  else
    match q.getLast? with
    | none => s.setGrace id (.grace deadline false)
    | some last =>
      if e.before last then
        ({ s with tally.grace := insertBy GraceEntry.before e q.dropLast }.setGrace id
          (.grace deadline true)).setGrace last.id (.grace last.deadline false)
      else s.setGrace id (.grace deadline false)

/-- The expiry of a principal in GRACE (R38). -/
def State.expire (s : State) (id : Nat) : State :=
  match s.prin id with
  | none => s
  | some p =>
    match p.grace with
    | .grace d _ =>
      ((s.leaveGraceQueue id).setGrace id .expired).raise
        (.graceExpired id d s.sup.clock (s.current id).1 (s.current id).2 p.soft)
    | _ => s

/-- A principal is in GRACE with its deadline at or before the clock (R26, R39). -/
def State.overdue (s : State) (id : Nat) : Bool :=
  match s.prin id with
  | some p =>
    (match p.grace with
     | .grace d _ => decide (d ≤ s.sup.clock)
     | _ => false)
  | none => false

/-- The lazy expiry of an overdue principal (R39). -/
def State.lazyExpire (s : State) (id : Nat) : State := if s.overdue id then s.expire id else s

/-- The lazy expiry of each principal of a list, in order (R26). -/
def State.lazyExpireAll (s : State) (ids : List Nat) : State := ids.foldl State.lazyExpire s

/-- The load used for grace: used + reserved, without the unsettled allowance (R36). -/
def State.graceLoad (s : State) (id : Nat) : Nat := (s.current id).1 + (s.current id).2

/-- The evaluation of grace after a change (R36). -/
def State.evalGrace (s : State) (id : Nat) : State :=
  match s.prin id with
  | none => s
  | some p =>
    let above := match p.soft with
      | some soft => decide (soft < s.graceLoad id)
      | none => false
    match p.grace with
    | .within =>
      if above then
        let minutes := (s.classOf p.cls).grace
        if minutes = 0 then
          (s.setGrace id .expired).raise
            (.graceExpired id s.sup.clock s.sup.clock (s.current id).1 (s.current id).2 p.soft)
        else s.enterGrace id (deadlineAfter s.sup.clock minutes)
      else s
    | .grace _ _ => if above then s else (s.leaveGraceQueue id).setGrace id .within
    | .expired => if above then s else s.setGrace id .within

/-- Grace evaluated for each principal of a list, in order. DESIGN CHOICE (log entry 58): one operation evaluates
the principals it changes in the order in which it gathers them, in a parent move the pools left before the pools
joined; R36 gives no order. -/
def State.evalGraceAll (s : State) (ids : List Nat) : State := ids.foldl State.evalGrace s

/-- A principal's line is held by an operation (R38). -/
def State.lineHeld (s : State) (id : Nat) : Bool :=
  match s.line id with
  | some x => x.held.isSome
  | none => false

/-- The expiry of the head of the Grace Queue where it is due and its line is not held (R38). -/
def State.expireHead (s : State) : State :=
  match s.tally.grace with
  | [] => s
  | e :: _ =>
    if e.deadline ≤ s.sup.clock ∧ s.lineHeld e.id = false then
      { s.expire e.id with tally.grace := (s.expire e.id).tally.grace.filter fun x => x.id != e.id }
    else s

/-- The run of expiries of the heads that are due, in queue order (R38, R40, R42). -/
def State.expireDue (s : State) : State := iter s.tally.grace.length State.expireHead s

/-- The principals in GRACE, by deadline and id (R42). -/
def State.inGrace (s : State) : List GraceEntry :=
  sortBy GraceEntry.before (s.tally.principals.filterMap fun kp =>
    match kp.2.grace with
    | .grace d _ => some { deadline := d, id := kp.1 }
    | _ => none)

/-- The Grace Queue rebuilt at power-on (R42): the first 8,192 are queued, the rest marked unqueued. -/
def State.rebuildGrace (s : State) : State :=
  let all := s.inGrace
  let q := all.take Config.graceQueueSize
  { s with
    tally.grace := q
    tally.principals := tmap (fun id p =>
      match p.grace with
      | .grace d _ => { p with grace := .grace d (q.any fun e => e.id == id) }
      | _ => p) s.tally.principals }

/-- Principals in GRACE that are unqueued (R39). -/
def State.unqueuedCount (s : State) : Nat :=
  (s.tally.principals.filter fun kp =>
    match kp.2.grace with
    | .grace _ q => !q
    | _ => false).length

end Sys2Proof.Machine
end

