-- ==== Sys2Proof/Machine/Cache.lean ====
section
/-! DEFINITION. The tally cache, the castout buffer, and the gathering of lines by the operations of
the Tally Unit (R9 to R13, R17, R19, R25). -/

namespace Sys2Proof.Machine

/-! ### Lines -/

/-- The set of a principal's line (R9). -/
def setOf (id : Nat) : Nat := id % Config.cacheSets

/-- The drift of a line (R11). -/
def Line.drift (x : Line) : Nat := x.dUsed.natAbs + x.dReserved.natAbs

/-- A line written as the most recent one (R9). -/
def State.putLine (s : State) (x : Line) : State :=
  { s with tally.cache := x :: s.tally.cache.filter fun y => y.id != x.id }

/-- A line changed in its place in the recency order. -/
def State.modLine (s : State) (id : Nat) (f : Line → Line) : State :=
  { s with tally.cache := mapIf (fun x => x.id == id) f s.tally.cache }

/-- The castout buffer entry of an evicted dirty line (R12). -/
def Line.castout (x : Line) : Castout :=
  { id := x.id, used := x.used, reserved := x.reserved, dUsed := x.dUsed, dReserved := x.dReserved }

/-- Changes are written in place: WRITE_THROUGH mode (R13), or HOLDUP (R22). -/
def State.inPlaceMode (s : State) : Bool :=
  decide (s.sup.op = .holdup) || decide (s.sup.settings.cacheMode = .writeThrough)

/-- A principal's tally stands in a dirty line or a castout buffer entry, so that its stored record carries
the marker (R10, R11). -/
def State.unwritten (s : State) (id : Nat) : Bool :=
  (s.tally.cache.any fun x => x.id == id && x.dirty) || (s.castoutOf id).isSome

/-- Used and reserved written to a stored record, over what in-place writes under way to it still carry; the
marker goes with the write, unless a later marker write stands (R10, log entry 19). -/
def State.storeTally (s : State) (id used reserved : Nat) : State :=
  let kept := s.unwritten id
  let s := s.modPrin id fun p => { p with used := used, reserved := reserved, marker := p.marker && kept }
  { s with
    tally.writes :=
      mapIf (fun w => w.id == id) (fun w => { w with used := used, reserved := reserved }) s.tally.writes }

/-- A record written clean (R19, R20): used and reserved stored, marker clear, any resident line
holding them clean, any castout buffer entry gone. -/
def State.storeClean (s : State) (id used reserved : Nat) : State :=
  State.storeTally
    { s with
      tally.cache := mapIf (fun x => x.id == id)
        (fun x => if x.filling then { x with dirty := false }
          else { x with used := used, reserved := reserved, dUsed := 0, dReserved := 0, dirty := false })
        s.tally.cache
      tally.castout := s.tally.castout.filter fun c => c.id != id } id used reserved

/-- No line is dirty (R13, R22). -/
def State.allClean (s : State) : Bool := s.tally.cache.all fun x => !x.dirty

/-- While the cache is being flushed (R13, R22), dirty lines that no operation holds are cast out as
far as the buffer has places; they stay resident and clean. -/
def State.castoutDirty (s : State) : State :=
  if s.tally.flushing then
    let room := Config.castoutSize - s.tally.castout.length
    let out := (s.tally.cache.reverse.filter fun x => x.dirty && x.held.isNone).take room
    { s with
      tally.castout := s.tally.castout ++ out.map Line.castout
      tally.cache := mapIf (fun x => out.any fun y => y.id == x.id)
        (fun x => { x with dUsed := 0, dReserved := 0, dirty := false }) s.tally.cache }
  else s

/-! ### Operations -/

/-- An operation in progress. -/
def State.op (s : State) (num : Nat) : Option TallyOp := s.tally.ops.find? fun o => o.num == num

/-- An operation changed. -/
def State.modOp (s : State) (num : Nat) (f : TallyOp → TallyOp) : State :=
  { s with tally.ops := mapIf (fun o => o.num == num) f s.tally.ops }

/-- An operation that has ended leaves the list. -/
def State.dropOp (s : State) (num : Nat) : State :=
  { s with tally.ops := s.tally.ops.filter fun o => o.num != num }

/-- An operation taken by the Tally Unit, behind those already in progress. -/
def State.pushOp (s : State) (job : Job) (postings : List Nat) : State :=
  { s with
    tally.ops := s.tally.ops ++
      [{ num := s.tally.nextOp, job := job, stage := .gathering, postings := postings, ids := [],
         direct := [], outcome := none, writes := [], noted := [] }]
    tally.nextOp := s.tally.nextOp + 1 }

/-- The postings that touch a chain as it stands (R17): those naming a member, and those whose
person's pools stand in the chain. -/
def State.touchingPostings (s : State) (chain : List Nat) : List Nat :=
  (s.tally.postings.filter fun p =>
    chain.contains p.principal || (s.chain p.principal).any fun m => chain.contains m).map Posting.num

/-- The parents a person has after a Principal Edit's parent changes (R6). -/
def newField (c : FieldChange) (old : Option Nat) : Option Nat :=
  match c with
  | .keep => old
  | .remove => none
  | .put v => some v

/-- A Principal Edit gives a parent change (R5). -/
def editMoves (c : EditChanges) : Bool := decide (c.course ≠ .keep) || decide (c.dept ≠ .keep)

/-- A Principal Edit gives a class or limit change (R5). -/
def editLimits (c : EditChanges) : Bool :=
  c.cls.isSome || decide (c.soft ≠ .keep) || decide (c.hard ≠ .keep)

/-- The pools a parent move leaves and joins (R6): a membership whose pool stays as it is moves
nothing. -/
def Principal.leaves (p : Principal) (c : EditChanges) : List Nat :=
  (if newField c.course p.course ≠ p.course then p.course.toList else []) ++
    (if newField c.dept p.dept ≠ p.dept then p.dept.toList else [])

def Principal.joins (p : Principal) (c : EditChanges) : List Nat :=
  (if newField c.course p.course ≠ p.course then (newField c.course p.course).toList else []) ++
    (if newField c.dept p.dept ≠ p.dept then (newField c.dept p.dept).toList else [])

/-- The principals that an operation's job is over (R6, R9, R25). -/
def State.jobChain (s : State) : Job → List Nat
  | .admitReq _ _ p _ _ _ => s.chain p
  | .reserve p _ => s.chain p
  | .posting p _ _ => s.chain p
  | .release _ _ p _ => s.chain p
  | .settle _ _ p _ => s.chain p
  | .convert _ _ p _ _ _ => s.chain p
  | .unreserve p _ => s.chain p
  | .edit _ _ id c =>
    (match s.prin id with
     | some p => if editMoves c then (id :: (p.leaves c ++ p.joins c)).eraseDups else []
     | none => [])
  | .delete _ _ _ => []

/-- The principals whose lines an operation gathers (R6, R9, R25). A parent without a record has no line to
fill: its pool was deleted while an operation waited, or after its member count was lost (log entry 22). -/
def State.jobIds (s : State) (j : Job) : List Nat := (s.jobChain j).filter fun i => (s.prin i).isSome

/-- The principals whose lines must not be held by another operation although they are not gathered: that
of an edit or a delete (R5, R8, R25). -/
def Job.alone : Job → List Nat
  | .edit _ _ id _ => [id]
  | .delete _ _ id => [id]
  | _ => []

/-- The ids beyond the fourth of one set, whose lines are not filled (R6). -/
def beyondFour (ids : List Nat) : List Nat :=
  (List.range ids.length).filterMap fun i =>
    let id := ids[i]?.getD 0
    if 4 ≤ ((ids.take i).filter fun j => setOf j == setOf id).length then some id else none

/-- A principal's line is held by an operation other than `num`. -/
def State.heldByOther (s : State) (num id : Nat) : Bool :=
  match s.line id with
  | some x => decide (x.held ≠ none) && decide (x.held ≠ some num)
  | none => false

/-- An operation other than `num` has all it waits for, and is to change a principal's record directly (R6). -/
def State.directByOther (s : State) (num id : Nat) : Bool :=
  s.tally.ops.any fun o =>
    o.num != num && (decide (o.stage = .ready) || decide (o.stage = .marking)) && o.direct.contains id

/-- An operation cannot begin to gather: it waits for postings (R17), for a Pool Recount (R19), or
for the lines, or direct writes, of the principals it changes without gathering. -/
def State.opBlocked (s : State) (o : TallyOp) (ids : List Nat) : Bool :=
  (s.tally.postings.any fun p => o.postings.contains p.num) ||
    (ids.any fun i => s.tally.recounts.contains i) ||
    (o.job.alone.any fun i => s.heldByOther o.num i || s.directByOther o.num i)

/-- One set's lines taken together for an operation (R9): hold those resident, evict the least
recent unheld lines for those to fill, fill from a castout buffer entry or begin a fill read.
Nothing is taken while a line is held by another operation, ways are wanting, the castout buffer
has no place for a dirty line, or an entry of the buffer must drain first (R12). -/
def State.takeSet (s : State) (num : Nat) (group : List Nat) : State :=
  let k := setOf (group.headD 0)
  let lines := s.tally.cache.filter fun x => setOf x.id == k
  let need := group.filter fun i => (s.line i).isNone
  let resident := group.filter fun i => (s.line i).isSome
  let victims := need.length - (Config.cacheWays - lines.length)
  let candidates := (lines.reverse.filter fun x => x.held.isNone && !(group.contains x.id))
  let out := candidates.take victims
  let dirtyOut := out.filter Line.dirty
  let headId := (s.tally.castout.head?).map Castout.id
  if resident.any (fun i => s.heldByOther num i || (s.castoutOf i).isSome) ∨
      need.any (fun i => decide (headId = some i)) ∨
      candidates.length < victims ∨
      Config.castoutSize < s.tally.castout.length + dirtyOut.length then s
  else
    let kept := s.tally.cache.filter fun x => !(out.any fun y => y.id == x.id)
    let held := mapIf (fun x => group.contains x.id) (fun x => { x with held := some num }) kept
    let filled := need.map fun i =>
      match s.castoutOf i with
      | some c =>
        ({ id := i, used := c.used, reserved := c.reserved, dUsed := c.dUsed,
           dReserved := c.dReserved, dirty := true, held := some num, filling := false } : Line)
      | none =>
        { id := i, used := 0, reserved := 0, dUsed := 0, dReserved := 0, dirty := false,
          held := some num, filling := true }
    { s with
      tally.cache := filled ++ held
      tally.castout :=
        (s.tally.castout.filter fun c => !(need.contains c.id)) ++ dirtyOut.map Line.castout }

/-- An operation holds a principal's line. -/
def State.holds (s : State) (num id : Nat) : Bool :=
  match s.line id with
  | some x => decide (x.held = some num)
  | none => false

/-- The lines of the lowest set that an operation still wants are taken, if they can be (R9). -/
def State.takeNext (s : State) (num : Nat) : State :=
  match s.op num with
  | none => s
  | some o =>
    let wanted := o.ids.filter fun i => !(o.direct.contains i)
    match sortNat ((wanted.filter fun i => !(s.holds num i)).map setOf) with
    | [] => s
    | k :: _ => s.takeSet num (wanted.filter fun i => setOf i == k)

/-- Every line of an operation is held and filled, and no entry of the castout buffer holds the tally
of a principal written directly (R6, R25). -/
def State.opGathered (s : State) (o : TallyOp) : Bool :=
  o.ids.all fun i =>
    if o.direct.contains i then (s.castoutOf i).isNone && (s.line i).isNone
    else s.holds o.num i && (match s.line i with
      | some x => !x.filling
      | none => false)

/-- An operation gathers as far as it can (R9, R25): the chain is taken as it stands when the waits
before gathering have ended. -/
def State.gather (s : State) (num : Nat) : State :=
  match s.op num with
  | none => s
  | some o =>
    if o.stage ≠ .gathering then s
    else
      let ids := if o.ids.isEmpty then s.jobIds o.job else o.ids
      if s.opBlocked o ids then s
      else
        let s := s.modOp num fun o => { o with ids := ids, direct := beyondFour ids }
        let s := iter 5 (fun s => s.takeNext num) s
        match s.op num with
        | none => s
        | some o =>
          if s.opGathered o then s.modOp num fun o => { o with stage := .ready } else s

/-- The lines an operation holds released (R9). -/
def State.releaseLines (s : State) (num : Nat) (ids : List Nat) : State :=
  { s with
    tally.cache := mapIf (fun x => decide (x.held = some num) && ids.contains x.id)
      (fun x => { x with held := none }) s.tally.cache }

/-- The operation of the posting at the head of the queue, whose changes are still to be applied (R16). -/
def State.postingOp (s : State) : Option Nat :=
  (s.tally.ops.find? fun o => decide (o.stage ≠ .writing) && (match o.job with
    | .posting _ _ _ => true
    | _ => false)).map TallyOp.num

/-- The operation for the head of the Posting Queue is taken when there is none (R16): an operation whose
changes are applied has left the queue, whatever write it awaits. -/
def State.takePosting (s : State) : State :=
  match s.tally.postings with
  | [] => s
  | p :: _ => if s.postingOp.isSome then s else s.pushOp (.posting p.principal p.blocks p.link) []

/-! ### Marker writes, changes and in-place writes -/

/-- A change an operation makes: the values of used and reserved after it. -/
structure TallyChange where
  id : Nat
  used : Nat
  reserved : Nat
  deriving DecidableEq, Repr

/-- A change leaves a tally as it stands. -/
def State.isNoChange (s : State) (c : TallyChange) : Bool := decide (s.current c.id = (c.used, c.reserved))

/-- The principals whose stored records take the marker before the changes are applied (R10): those
whose clean lines the changes change. `settled` is the person of a Settle, whose record is written
in place instead (R18). -/
def State.marksFor (s : State) (settled : Option Nat) (cs : List TallyChange) : List Nat :=
  if s.inPlaceMode then []
  else (cs.filter fun c =>
    !(s.isNoChange c) && decide (settled ≠ some c.id) &&
      (match s.line c.id with
       | some x => !x.dirty
       | none => false)).map TallyChange.id

/-- The marker written into stored records (R10). -/
def State.writeMarkers (s : State) (ids : List Nat) : State :=
  { s with
    tally.principals :=
      tmap (fun id p => if ids.contains id then { p with marker := true } else p) s.tally.principals }

/-- A change applied to a line (R11), or directly to the stored record where no line is filled (R6). The line is
written in place in WRITE_THROUGH mode and HOLDUP, when its drift would pass the drift cap, and for the person
of a Settle; it is then clean, with its write under way. DESIGN CHOICE (log entry 52): a change of more than
4,096 blocks that leaves the drift within the cap stays dirty; R11 says both that it does and that it always
causes a drift-cap write. -/
def State.applyChange (num : Nat) (settled : Option Nat) (s : State) (c : TallyChange) : State :=
  match s.line c.id with
  | none => s.storeTally c.id c.used c.reserved
  | some x =>
    let settles := decide (settled = some c.id)
    if x.filling then s.storeTally c.id c.used c.reserved
    else if s.isNoChange c && !settles then s
    else
      let y : Line :=
        { x with
          used := c.used, reserved := c.reserved
          dUsed := x.dUsed + ((c.used : Int) - x.used)
          dReserved := x.dReserved + ((c.reserved : Int) - x.reserved) }
      if s.inPlaceMode || settles || decide (Config.driftCap < y.drift) then
        let s := s.putLine { y with dUsed := 0, dReserved := 0, dirty := false }
        { s with tally.writes := s.tally.writes ++
            [{ op := num, id := c.id, used := c.used, reserved := c.reserved, settles := settles }] }
      else s.putLine { y with dirty := decide (y.drift ≠ 0) }

/-- Changes of the operation `num` applied in order. -/
def State.applyChanges (num : Nat) (settled : Option Nat) (s : State) (cs : List TallyChange) : State :=
  cs.foldl (State.applyChange num settled) s

/-- The oldest in-place write of a record ends (R11): its tally is stored with the marker clear, unless a
later marker write stands, and for a Settle the unsettled flag is cleared too (R18). A marker written for a
change stands until the write that stores the change ends (R10): with a later write under way it stays. -/
def State.endWrite (s : State) (w : PendingWrite) : State :=
  let kept := s.unwritten w.id || (s.tally.writes.erase w).any fun x => x.id == w.id
  let s := s.modPrin w.id fun p =>
    { p with
      used := w.used, reserved := w.reserved, marker := p.marker && kept
      unsettled := if w.settles then false else p.unsettled }
  { s with tally.writes := s.tally.writes.erase w }

/-! ### Pool Recounts -/

/-- The Pool Recount of an unsettled pool whose unsettled member count is 0 begins (R19), unless it
runs already. In HOLDUP, where a recount in progress is abandoned, none begins: those due begin on the return to
STANDBY (R22; DEDUCED, log entry 63). -/
def State.beginRecount (s : State) (pool : Nat) : State :=
  match s.prin pool with
  | none => s
  | some p =>
    if s.sup.op ≠ .holdup ∧ p.kind = .pool ∧ p.unsettled = true ∧ p.unsettledMembers = 0 ∧
        pool ∉ s.tally.recounts then
      { s with tally.recounts := s.tally.recounts ++ [pool] }
    else s

/-- Recounts begin for every unsettled pool whose unsettled member count is 0 (R21, R22). -/
def State.beginRecounts (s : State) : State :=
  (s.tally.principals.map Prod.fst).foldl State.beginRecount s

/-- A member of a pool has become unsettled: the count rises, the pool becomes unsettled, and a
recount that runs is abandoned (R19, R20). -/
def State.memberUnsettled (s : State) (pool : Nat) : State :=
  let s := s.modPrin pool fun p =>
    { p with unsettledMembers := p.unsettledMembers + 1, unsettled := true }
  { s with tally.recounts := s.tally.recounts.filter (· ≠ pool) }

/-- The persons that name a pool as a parent (R3). -/
def State.membersOf (s : State) (pool : Nat) : List (Nat × Principal) :=
  s.tally.principals.filter fun kp =>
    decide (kp.2.kind = .person) &&
      (decide (kp.2.course = some pool) || decide (kp.2.dept = some pool))

/-- A tally that fits 0 to 2^40 − 1; outside it the spec states no result (log entry 11). -/
def fitTally (n : Nat) : Nat := if n ≤ maxTally then n else Config.tallyOver n

/-- What a parent move leaves a pool (R6); below 0 the spec states no result (log entry 11). -/
def takeTally (held taken : Nat) : Nat :=
  if taken ≤ held then held - taken else Config.tallyUnder held taken

end Sys2Proof.Machine
end

