-- ==== Sys2Proof/Machine/Directives.lean ====
section
/-! DEFINITION. Directives without an answer, RECLAIM and CUT_DUE (R60, R72 to R74), a link coming UP
(R169), and the arrival of a frame on a server link. -/

namespace Sys2Proof.Machine

/-- The owning link of a volume (Table 3-1). -/
def State.ownerOf (s : State) (vol : Nat) : Option Link := (s.volume vol).map Volume.owner

/-- The owning link of a volume is UP. -/
def State.ownerUp (s : State) (vol : Nat) : Bool :=
  match s.ownerOf vol with
  | some l => (s.link l).up
  | none => false

/-! ### RECLAIM -/

/-- The first DUE entry whose owning link is UP is sent and removed (R60). -/
def State.flushReclaim (s : State) : State :=
  match s.cat.reclaims.find? fun e => decide (e.refs = 0) && s.ownerUp e.vol with
  | none => s
  | some e =>
    match s.ownerOf e.vol with
    | none => s
    | some l =>
      { s with cat.reclaims := s.cat.reclaims.erase e }.handNotice l (.reclaim e.loc)

/-- Every DUE entry whose owning link is UP is sent, in entry order, and removed (R60). DESIGN CHOICE (log
entry 54): entry order is the order in which the entries were made, freed places or not. -/
def State.flushReclaims (s : State) : State := iter s.cat.reclaims.length State.flushReclaim s

/-- A RECLAIM that the part sends for a location without an entry (R60): where the link is not UP, a
DUE entry is made if the table has a place. -/
def State.sendReclaim (s : State) (vol ext loc : Nat) : State :=
  match s.ownerOf vol with
  | none => s
  | some l =>
    if (s.link l).up then s.handNotice l (.reclaim loc)
    else if s.cat.reclaims.length < Config.reclaimTableSize then
      { s with cat.reclaims := s.cat.reclaims ++ [{ vol := vol, ext := ext, loc := loc, refs := 0 }] }
    else s

/-! ### CUT_DUE -/

/-- The hourly or nightly due of a volume. -/
def Dues.get (d : Dues) (nightly : Bool) : Option Due := if nightly then d.nightly else d.hourly

/-- The hourly or nightly due of a volume written. -/
def Dues.put (d : Dues) (nightly : Bool) (x : Option Due) : Dues :=
  if nightly then { d with nightly := x } else { d with hourly := x }

/-- An open due of a volume whose CUT_DUE has not gone is sent, if the owning link is UP (R74). -/
def State.sendCutDue (s : State) (vol : Nat) (nightly : Bool) : State :=
  match s.volume vol, (s.duesOf vol).get nightly with
  | some v, some d =>
    if d.sent = false ∧ (s.link v.owner).up = true then
      (s.setDues vol ((s.duesOf vol).put nightly (some { d with sent := true }))).handNotice v.owner
        (.cutDue vol nightly v.gen)
    else s
  | _, _ => s

/-- A due of a volume opens (R72, R73). -/
def State.openDue (s : State) (nightly : Bool) (vol : Nat) : State :=
  (s.setDues vol ((s.duesOf vol).put nightly
    (some { opened := s.sup.elapsed, clock := s.sup.clock, sent := false }))).sendCutDue vol nightly

/-- A due of a volume closes. -/
def State.closeDue (s : State) (nightly : Bool) (vol : Nat) : State :=
  s.setDues vol ((s.duesOf vol).put nightly none)

/-- The ATTACHED volumes that satisfy `p`, ascending. -/
def State.volumesIf (s : State) (p : Volume → Bool) : List Nat :=
  (s.cat.volumes.filter fun kv => p kv.2).map Prod.fst

/-- The sent flags of the dues of a link's volumes cleared (R74). -/
def State.unsendDues (s : State) (l : Link) : State :=
  let vols := s.volumesIf fun v => decide (v.owner = l)
  { s with cat.dues := tmap (fun vol d =>
      if vols.contains vol then
        { hourly := d.hourly.map fun x => { x with sent := false }
          nightly := d.nightly.map fun x => { x with sent := false } }
      else d) s.cat.dues }

/-- The unsent CUT_DUEs of a link's volumes are sent (R74). DESIGN CHOICE (log entry 54): several sent in one
step go by ascending volume, hourly before nightly. -/
def State.sendDues (s : State) (l : Link) : State :=
  (s.volumesIf fun v => decide (v.owner = l)).foldl
    (fun s vol => (s.sendCutDue vol false).sendCutDue vol true) s

/-! ### Frames arriving -/

/-- A frame whose sync and check code are correct arrives (R169): it ends a run of bad frames, and a
DOWN link becomes UP, BUSY, with its DUE reclaims and unsent CUT_DUEs sent. DESIGN CHOICE (log entry 59): so in
HOLDUP too, where R74 has the dues stay as they stand and R169 makes no exception. -/
def State.arrive (s : State) (l : Link) : State :=
  let wasUp := (s.link l).up
  let s := s.modLink l fun r => { r with up := true, badRun := 0 }
  if wasUp then s else ((s.busy l).flushReclaims).sendDues l

/-- The directive of a link that an arriving answer ends, where tag and kind agree (R175). -/
def State.matching (s : State) (l : Link) (tag : Nat) (k : DirKind) : Option Directive :=
  match s.directive l tag with
  | some d => if d.kind = k then some d else none
  | none => none

end Sys2Proof.Machine
end

