-- ==== Sys2Proof/Machine/Catalogue.lean ====
section
/-! DEFINITION. The operations of the Catalogue Unit: retention and pins (R71, R75), version lists and
the plan of a Commit (R51 to R57), reference counts and the Reclaim Table (R58, R59), locks (R61,
R62), restored-version records (R63), changes made through the unit (R64), damaged records (R65) and
table spans (R46). -/

namespace Sys2Proof.Machine

/-! ### Retention and pins -/

/-- A snapshot begins its expiry sweep (R71, R77). -/
def State.startExpiry (s : State) (vol gen : Nat) : State :=
  s.modSnapshot vol gen fun p => { p with state := .expiring 0 }

/-- The keep of a kind; MANUAL has none (R71). -/
def Volume.keep (v : Volume) : SnapKind → Option Nat
  | .hourly => some v.hourlyKeep
  | .nightly => some v.nightlyKeep
  | .manual => none

/-- The ACTIVE snapshots of a kind, by ascending generation. -/
def State.activeOf (s : State) (vol : Nat) (k : SnapKind) : List Snapshot :=
  (s.snapsOf vol).filter fun p => decide (p.state = .active) && decide (p.kind = k)

/-- One round of an evaluation of retention (R71). -/
def State.retainOnce (vol : Nat) (k : SnapKind) (s : State) : State :=
  match (s.volume vol).bind (fun v => v.keep k) with
  | none => s
  | some keep =>
    if (s.activeOf vol k).length ≤ keep then s
    else
      match (s.activeOf vol k).find? fun p => decide (p.pins = 0) with
      | none => s
      | some p => s.startExpiry vol p.gen

/-- Retention of a kind evaluated for a volume (R71). -/
def State.retain (s : State) (vol : Nat) (k : SnapKind) : State :=
  iter (s.activeOf vol k).length (State.retainOnce vol k) s

/-- A pin request would be granted (R75). -/
def State.pinGranted (s : State) (vol gen : Nat) : Bool :=
  match s.snapshot vol gen with
  | some p => decide (p.state = .active) || decide (p.state = .offsiteOnly)
  | none => false

/-- A granted pin taken (R75). -/
def State.takePin (s : State) (vol gen : Nat) (ship : Bool) : State :=
  s.modSnapshot vol gen fun p =>
    if ship then { p with shipPins := p.shipPins + 1 } else { p with restorePins := p.restorePins + 1 }

/-- A pin dropped (R75); a pin count of an ACTIVE snapshot that falls to 0 evaluates retention of its kind (R71).
DESIGN CHOICE (log entry 59): R71 says so of any snapshot of the kind; the model goes by R75, which says so of an
ACTIVE one, and by the example of Section 5, where none is evaluated for an OFFSITE_ONLY one. -/
def State.dropPin (s : State) (vol gen : Nat) (ship : Bool) : State :=
  match s.snapshot vol gen with
  | none => s
  | some p =>
    if (if ship then p.shipPins else p.restorePins) = 0 then s
    else
      let s := s.modSnapshot vol gen fun p =>
        if ship then { p with shipPins := p.shipPins - 1 } else { p with restorePins := p.restorePins - 1 }
      if p.pins = 1 ∧ p.state = .active then s.retain vol p.kind else s

/-! ### Version lists -/

/-- A version is held by a snapshot record of its volume, in any state (R51). -/
def State.isHeld (s : State) (vol : Nat) (v : Version) : Bool :=
  (s.snapsOf vol).any fun p => v.heldAt p.gen

/-- A version is pinned-held (R51). -/
def State.pinnedHeld (s : State) (vol : Nat) (v : Version) : Bool :=
  (s.snapsOf vol).any fun p => v.heldAt p.gen && decide (0 < p.pins)

/-- A version stays at the end of a change to its list: it is live or held (R51). -/
def State.stays (s : State) (vol : Nat) (v : Version) : Bool := v.death.isNone || s.isHeld vol v

/-- The version list changed at the version of one birth. -/
def modVersion (vs : List Version) (birth : Nat) (f : Version → Version) : List Version :=
  mapIf (fun v => v.birth == birth) f vs

/-- The candidate of lowest birth among versions in descending order of birth. -/
def lowestBirth (vs : List Version) : Option Version := vs.getLast?

/-- The version that thinning removes from a list (R57). -/
def State.thinnedOf (s : State) (vol : Nat) (vs : List Version) : Option Version :=
  let cands := vs.filter fun v =>
    v.death.isSome && !(s.pinnedHeld vol v) && (decide (v.res = .offsite) || decide (v.refs = 0))
  match lowestBirth (cands.filter fun v => decide (v.res = .offsite)) with
  | some v => some v
  | none =>
    match lowestBirth (cands.filter fun v => v.shipped) with
    | some v => some v
    | none => lowestBirth cands

/-- The Reclaim Table entry of a location that leaves the part's keeping with its version (R59);
an OFFSITE_ONLY version leaves none. -/
def Version.reclaim (v : Version) (vol ext : Nat) : List Reclaim :=
  match v.res with
  | .here loc refs => [{ vol := vol, ext := ext, loc := loc, refs := refs }]
  | .offsite => []

/-- What a Commit or restored-version record would do to an extent (R54 to R57). -/
structure CommitPlan where
  rewrite : Bool
  verdict : Verdict
  versions : List Version
  entries : List Reclaim
  thinned : Option Version
  stuck : Bool
  deriving DecidableEq, Repr

/-- The new live version that a Commit writes (R54, R55). -/
def newVersion (clock gen loc occ : Nat) (codes : List Code) : Version :=
  { birth := gen, death := none, res := .here loc 0, occ := occ, codes := codes, shipped := false,
    verified := clock, repair := .sound }

/-- The plan of a Commit, made against the lists as they stand (R53 to R57). -/
def State.planCommit (s : State) (vol ext : Nat) (gen : Nat) (e : Extent) (loc occ : Nat)
    (codes : List Code) : CommitPlan :=
  let fresh := newVersion s.sup.clock gen loc occ codes
  match e.live with
  | some lv =>
    if lv.birth = gen then
      let same := decide (lv.loc = some loc)
      let refs := if same then lv.refs else 0
      let vs := mapIf (fun v => v.death.isNone)
        (fun v => { fresh with birth := v.birth, res := .here loc refs }) e.versions
      let gone := vs.filter fun v => !(s.stays vol v)
      { rewrite := true
        verdict := if same then .kept else if lv.refs = 0 then .now else .later
        versions := vs.filter (s.stays vol)
        entries := (if same ∨ lv.refs = 0 then [] else lv.reclaim vol ext) ++
          gone.flatMap (fun v => v.reclaim vol ext)
        thinned := none, stuck := false }
    else
      let dead : Version := { lv with death := some gen }
      let all := fresh :: mapIf (fun v => v.death.isNone) (fun _ => dead) e.versions
      let kept := all.filter (s.stays vol)
      let thin := if kept.length ≤ Config.versionListSize then none else s.thinnedOf vol kept
      let final := kept.filter fun v => decide (some v ≠ thin)
      let gone := all.filter fun v => !(final.contains v)
      { rewrite := false
        verdict := if final.contains dead then .kept else if lv.refs = 0 then .now else .later
        versions := final
        entries := (gone.filter fun v => decide (v ≠ dead) || decide (lv.refs ≠ 0)).flatMap
          fun v => v.reclaim vol ext
        thinned := thin
        stuck := decide (Config.versionListSize < kept.length) && thin.isNone }
  | none =>
    let all := fresh :: e.versions
    let kept := all.filter (s.stays vol)
    let thin := if kept.length ≤ Config.versionListSize then none else s.thinnedOf vol kept
    let final := kept.filter fun v => decide (some v ≠ thin)
    { rewrite := false, verdict := .first, versions := final
      entries := (all.filter fun v => !(final.contains v)).flatMap fun v => v.reclaim vol ext
      thinned := thin
      stuck := decide (Config.versionListSize < kept.length) && thin.isNone }

/-- A thinned count one higher (R83). -/
def raiseThinned (n : Nat) : Nat := if n < maxGeneration then n + 1 else Config.thinnedOver n

/-- The thinned counts of the snapshots that held a thinned version raised (R57). -/
def State.countThinned (s : State) (vol : Nat) (v : Version) : State :=
  (s.snapsOf vol).foldl (fun s p =>
    if v.heldAt p.gen then s.modSnapshot vol p.gen fun q => { q with thinned := raiseThinned q.thinned }
    else s) s

/-- The changes of a plan made as one operation (R53). -/
def State.applyCommit (s : State) (vol ext owner : Nat) (p : CommitPlan) : State :=
  let s := match p.thinned with
    | some v => s.countThinned vol v
    | none => s
  let s := s.setExtent vol ext { s.extent vol ext with owner := owner, versions := p.versions }
  { s with cat.reclaims := s.cat.reclaims ++ p.entries }.flushReclaims

/-- The codes given fit the occupied blocks: 16 of them, or none for an empty version (R53). -/
def codesFit (occ : Nat) (codes : Option (List Code)) : Bool :=
  match codes with
  | some cs => decide (0 < occ) && decide (cs.length = 16)
  | none => decide (occ = 0)

/-- The check of the lock of a Commit (no restore) or of a restored-version record (R53, R63). -/
def lockPasses (lock : Option Nat) (rid : Option Nat) : Bool := decide (lock = rid)

/-- The Reclaim Table has no place for the `n` new entries of a Commit: it is full, or sweeps wait (R59).
DESIGN CHOICE (log entry 54): a Commit that needs more entries than there are free places is BUSY too,
where R59 speaks of a full table alone. -/
def State.reclaimFull (s : State) (n : Nat) : Bool :=
  decide (0 < n) &&
    (decide (Config.reclaimTableSize < s.cat.reclaims.length + n) || !s.cat.sweepWaits.isEmpty)

/-- The checks of Table 3-4 in order: the reply of the first that fails. `link` is the link a Commit
arrived on, `rid` the restore of a restored-version record. -/
def State.commitCheck (s : State) (link : Option Link) (rid : Option Nat) (vol ext owner loc occ : Nat)
    (codes : Option (List Code)) : Option Status :=
  if owner < 1 ∨ 16777215 < owner ∨ 1024 < occ then some .range
  else if codesFit occ codes = false then some .malformed
  else
    match s.volume vol with
    | none => some .unknownVolume
    | some v =>
      if link.isSome ∧ link ≠ some v.owner then some .notPermitted
      else if v.count ≤ ext then some .range
      else
        let e := s.extent vol ext
        let p := s.planCommit vol ext v.gen e loc occ (codes.getD [])
        if lockPasses e.lock rid = false then some .extentLocked
        else if s.damaged vol ext = true then some .damaged
        else if (e.versions.any fun x =>
              decide (x.loc = some loc) && !(p.rewrite && x.death.isNone)) ∨
            (s.cat.reclaims.any fun r =>
              decide (r.vol = vol) && decide (r.ext = ext) && decide (r.loc = loc)) then some .inUse
        else if s.reclaimFull p.entries.length = true then some .busy
        else if p.stuck = true then some .versionPinned
        else none

/-- A Commit's changes to an extent of an ATTACHED volume, with its plan. -/
def State.commit (s : State) (vol ext owner loc occ : Nat) (codes : Option (List Code)) :
    CommitPlan × State :=
  let gen := match s.volume vol with
    | some v => v.gen
    | none => 0
  let p := s.planCommit vol ext gen (s.extent vol ext) loc occ (codes.getD [])
  (p, s.applyCommit vol ext owner p)

/-! ### Reference counts -/

/-- The outcome of a request for an increment (R58, R93). -/
inductive Increment where
  | granted (s : State)
  | recordDamaged
  | gone

/-- A LOCAL version of an extent carries a location. -/
def Extent.carries (e : Extent) (loc : Nat) : Bool := e.versions.any fun v => decide (v.loc = some loc)

/-- The reference count of the version that carries a location changed. -/
def modRefs (loc : Nat) (f : Nat → Nat) (v : Version) : Version :=
  match v.res with
  | .here l r => if l = loc then { v with res := .here l (f r) } else v
  | .offsite => v

/-- A request for an increment (R58). -/
def State.incRef (s : State) (vol ext loc : Nat) : Increment :=
  if s.damaged vol ext = true then .recordDamaged
  else if (s.extent vol ext).carries loc = true then
    let e := s.extent vol ext
    .granted ((s.setExtent vol ext { e with versions := e.versions.map (modRefs loc (· + 1)) }).modVolume
      vol fun v => { v with refTotal := v.refTotal + 1 })
  else .gone

/-- A decrement (R58): of the version that carries the location, else of the extent's Reclaim Table
entry, which becomes DUE at 0 (R59); one that finds neither is ignored. -/
def State.decRef (s : State) (vol ext loc : Nat) : State :=
  let e := s.extent vol ext
  if e.carries loc = true then
    (s.setExtent vol ext { e with versions := e.versions.map (modRefs loc (· - 1)) }).modVolume
      vol fun v => { v with refTotal := v.refTotal - 1 }
  else
    match s.cat.reclaims.find? fun r =>
        decide (r.vol = vol) && decide (r.ext = ext) && decide (r.loc = loc) && decide (0 < r.refs) with
    | none => s
    | some r =>
      let left := mapIf (fun x => decide (x = r)) (fun x => { x with refs := x.refs - 1 }) s.cat.reclaims
      ({ s with cat.reclaims := left }.modVolume vol fun v =>
        { v with refTotal := v.refTotal - 1 }).flushReclaims

/-- The decrements a directive's end makes (R58). -/
def State.decRefs (s : State) (refs : List (Nat × Nat × Nat)) : State :=
  refs.foldl (fun s r => s.decRef r.1 r.2.1 r.2.2) s

/-! ### Locks -/

/-- Occupied blocks of an extent's live version, or 0 (R61). -/
def Extent.liveOcc (e : Extent) : Nat :=
  match e.live with
  | some v => v.occ
  | none => 0

/-- Some extent of a range holds a lock (R61). -/
def State.anyLocked (s : State) (vol first count : Nat) : Bool :=
  (List.range count).any fun i => (s.extent vol (first + i)).lock.isSome

/-- Every extent of a range locked under a restore id (R61). -/
def State.lockRange (s : State) (rid vol first count : Nat) : State :=
  (List.range count).foldl (fun s i =>
    s.setExtent vol (first + i) { s.extent vol (first + i) with lock := some rid }) s

/-- A lock released; a release naming another restore id is ignored (R62). -/
def State.unlock (s : State) (vol ext rid : Nat) : State :=
  if (s.extent vol ext).lock = some rid then s.setExtent vol ext { s.extent vol ext with lock := none }
  else s

/-! ### Changes made through the unit -/

/-- A version field changed (R64), unless the record is damaged or no version of that birth satisfies
`p`. -/
def State.changeVersion (s : State) (vol ext birth : Nat) (p : Version → Bool) (f : Version → Version) :
    State :=
  if s.damaged vol ext = true then s
  else
    let e := s.extent vol ext
    s.setExtent vol ext { e with versions := mapIf (fun v => v.birth == birth && p v) f e.versions }

/-- Set shipped (R64). -/
def State.setShipped (s : State) (vol ext birth : Nat) : State :=
  s.changeVersion vol ext birth (fun _ => true) fun v => { v with shipped := true }

/-- Set verified time: to the clock (R64). -/
def State.setVerified (s : State) (vol ext birth loc : Nat) : State :=
  s.changeVersion vol ext birth (fun v => decide (v.loc = some loc))
    fun v => { v with verified := s.sup.clock }

/-- Set repair state (R64), the record alone. -/
def State.writeRepair (s : State) (vol ext birth loc : Nat) (st : RepairState) : State :=
  s.changeVersion vol ext birth (fun v => decide (v.loc = some loc)) fun v => { v with repair := st }

/-! ### Damaged records -/

/-- One field of an extent record lost with its word (R65): it reads as zero from then on. What zero
reads as in a named state, or in a field that may be absent, is a free value (log entry 10). -/
def loseField (x : Nat) (f : ExtentField) (e : Extent) : Extent :=
  let at' (i : Nat) (g : Version → Version) : Extent := { e with versions := modAt e.versions i g }
  match f with
  | .owner => { e with owner := 0 }
  | .lock => { e with lock := none }
  | .birth i => at' i fun v => { v with birth := 0 }
  | .death i => at' i fun v => { v with death := if x % 2 = 0 then none else some 0 }
  | .residence i => at' i fun v => { v with res := if x % 2 = 0 then .here (v.loc.getD 0) v.refs else .offsite }
  | .location i => at' i fun v => { v with res := match v.res with
      | .here _ r => .here 0 r
      | .offsite => .offsite }
  | .occupied i => at' i fun v => { v with occ := 0 }
  | .code i idx => at' i fun v => { v with codes := modAt v.codes idx fun _ => 0 }
  | .shipped i => at' i fun v => { v with shipped := false }
  | .verified i => at' i fun v => { v with verified := 0 }
  | .repair i => at' i fun v => { v with repair :=
      match x % 4 with
      | 0 => .sound
      | 1 => .suspect
      | 2 => .repairing
      | _ => .unrepairable }
  | .refs i => at' i fun v => { v with res := match v.res with
      | .here l _ => .here l 0
      | .offsite => .offsite }

/-- A double error in an extent record (R65). -/
def State.damageExtent (s : State) (vol ext : Nat) (lost : List ExtentField) : State :=
  let s := s.modVolume vol fun v =>
    { v with damage := if v.damage.contains ext then v.damage else sortNat (ext :: v.damage) }
  let s := lost.foldl (fun s f =>
    let (x, s) := s.draw
    s.setExtent vol ext (loseField x f (s.extent vol ext))) s
  s.raise (.storeError (.extent vol ext))

/-! ### Table spans -/

/-- The size of a span: the smallest power of two that holds the records, at least 1 MiB (R46). -/
def spanSize (count : Nat) : Nat :=
  let rec grow : Nat → Nat → Nat
    | 0, n => n
    | fuel + 1, n => if count * 512 ≤ n then n else grow fuel (2 * n)
  grow 9 Config.minSpanBytes

/-- The spans in use: of ATTACHED volumes and of Attaches in progress (R46). -/
def State.spans (s : State) : List (Nat × Nat) :=
  (s.cat.volumes.map fun kv => (kv.2.base, kv.2.size)) ++ s.cat.attaching.map fun a => (a.base, a.size)

/-- Two spans share a byte. -/
def overlaps (a b : Nat × Nat) : Bool := decide (a.1 < b.1 + b.2) && decide (b.1 < a.1 + a.2)

/-- The lowest whole multiple of a size, from `k` × size, at which a span is free (R46). -/
def lowestFree (used : List (Nat × Nat)) (size : Nat) : Nat → Nat → Option Nat
  | 0, _ => none
  | fuel + 1, k =>
    if Config.extentRegionBytes < k * size + size then none
    else if used.any (overlaps (k * size, size)) then lowestFree used size fuel (k + 1)
    else some (k * size)

/-- The place of a new span (R46). -/
def State.placeSpan (s : State) (count : Nat) : Option Nat :=
  lowestFree s.spans (spanSize count) (Config.extentRegionBytes / Config.minSpanBytes) 0

end Sys2Proof.Machine
end

