-- ==== Sys2Proof/Machine/Stream.lean ====
section
/-! DEFINITION. The Stream Buffer and its arbiter: slot requests, grants, taking back, and the freeing
of slots (R106 to R112). -/

namespace Sys2Proof.Machine

/-- The reserve (R107). -/
def State.reserve (s : State) : Nat :=
  (Config.repairReserve - s.slotsHeld .repair) + (Config.fetchReserve - s.slotsHeld .fetch)

/-- The waiting requests of a class, the head first (R108). -/
def State.waiting (s : State) : SlotClass → List SlotReq
  | .repair => s.str.waitRepair
  | .fetch => s.str.waitFetch
  | .ship => s.str.waitShip
  | .patrol => s.str.waitPatrol

/-- The waiting requests of a class written. -/
def State.setWaiting (s : State) (c : SlotClass) (q : List SlotReq) : State :=
  match c with
  | .repair => { s with str.waitRepair := q }
  | .fetch => { s with str.waitFetch := q }
  | .ship => { s with str.waitShip := q }
  | .patrol => { s with str.waitPatrol := q }

/-- A request of class REPAIR or FETCH waits (R108, R109). -/
def State.urgent (s : State) : Bool := !s.str.waitRepair.isEmpty || !s.str.waitFetch.isEmpty

/-- A grant of `k` slots is allowed (R107, R108); none is in HOLDUP (R116). -/
def State.grantAllowed (s : State) (c : SlotClass) (k : Nat) : Bool :=
  decide (s.sup.op ≠ .holdup) && decide (k ≤ s.freeSlots) &&
    (match c with
     | .repair | .fetch => true
     | .ship => !s.urgent && decide (s.reserve ≤ s.freeSlots - k)
     | .patrol => !s.urgent && decide (s.reserve ≤ s.freeSlots - k) &&
         decide (s.slotsHeld .patrol < Config.patrolCap))

/-- The lowest-numbered FREE slot (log entry 9). -/
def State.lowestSlot (s : State) : Nat :=
  ((List.range Config.slotCount).find? fun n => (s.slot n).isNone).getD 0

/-- One slot granted: FILLING, with a computed code at its initial value (R108). -/
def State.grantSlot (c : SlotClass) (h : SlotHolder) (s : State) (w : Nat × Code) : State :=
  { s with
    str.slots := tput s.str.slots s.lowestSlot
      { state := .filling, cls := c, holder := h, idx := w.1, expected := w.2, computed := crcInit,
        seq := none, data := [], fullOrder := 0, covered := false } }

/-- A request granted (R108), and its holder told: a shipping pull or a Work List item goes on to
wait for a place in a list (R127, R160). -/
def State.grant (s : State) (c : SlotClass) (r : SlotReq) : State :=
  let s := r.wants.foldl (State.grantSlot c r.holder) s
  match r.holder with
  | .shipPull n =>
    { s with off.pulls := mapIf (fun p => p.n == n) (fun p => { p with stage := .place }) s.off.pulls }
  | .verify i => s.modItem i fun w => { w with state := .place }
  | .step _ _ => s
  | .repair _ => s
  | .gone _ _ => s

/-- A holder holds slots of a class. -/
def State.holdsSlots (s : State) (c : SlotClass) (h : SlotHolder) : Bool :=
  s.str.slots.any fun kv => decide (kv.2.cls = c) && decide (kv.2.holder = h)

/-- A request put among the waiting ones of its class (R108): in REPAIR and FETCH, ahead of those
whose holders hold no slot, if its own holder holds one. -/
def State.enqueue (s : State) (c : SlotClass) (r : SlotReq) : State :=
  match c with
  | .repair | .fetch =>
    if s.holdsSlots c r.holder then
      let ahead := (s.waiting c).filter fun q => s.holdsSlots c q.holder
      let behind := (s.waiting c).filter fun q => !(s.holdsSlots c q.holder)
      s.setWaiting c (ahead ++ r :: behind)
    else s.setWaiting c (s.waiting c ++ [r])
  | .ship | .patrol => s.setWaiting c (s.waiting c ++ [r])

/-- The first class in arbiter order whose head can be granted (R108). -/
def State.grantable (s : State) : Option SlotClass :=
  [SlotClass.repair, .fetch, .ship, .patrol].find? fun c =>
    match s.waiting c with
    | [] => false
    | r :: _ => s.grantAllowed c r.wants.length

/-- One grant of a consideration of the heads (R108). -/
def State.considerOnce (s : State) : State :=
  match s.grantable with
  | none => s
  | some c =>
    match s.waiting c with
    | [] => s
    | r :: t => (s.setWaiting c t).grant c r

/-- The requests waiting in all classes. -/
def State.waitCount (s : State) : Nat :=
  s.str.waitRepair.length + s.str.waitFetch.length + s.str.waitShip.length + s.str.waitPatrol.length

/-- The heads considered until none can be granted (R108). -/
def State.consider (s : State) : State := iter s.waitCount State.considerOnce s

/-- What becomes of an entry whose chunk is handed back unsent: it goes back to UNPULLED (R109, R128), or, where its pull
has still to end, stays with that pull (R129). DESIGN CHOICE (log entry 60): the entry of a frame cut short in an ending
night, which keeps no UNPULLED entry (R120), leaves the queue at once; the frame stays vacant until it is answered or
abandoned (R143, R154). -/
def ShipEntry.handedBack (ending : Bool) (e : ShipEntry) : Option ShipEntry :=
  match e.state with
  | .pulling _ => some { e with slot := none }
  | .outstanding => if ending then none else some { e with slot := none, state := .unpulled }
  | .unpulled | .parked | .ready => some { e with slot := none, state := .unpulled }

/-- A SHIP chunk handed back unsent (R109, R115, R128): its slot is freed, and its entry dealt with. -/
def State.handBack (s : State) (n : Nat) : State :=
  { s.freeSlot n with
    off.queue := s.off.queue.filterMap fun e =>
      if e.slot = some n then e.handedBack s.nightEnding else some e }

/-- FULL SHIP slots freed as the link closes or the night ends, their entries UNPULLED (R111, R136). -/
def State.freeFullShip (s : State) : State :=
  ((s.str.slots.filter fun kv => decide (kv.2.cls = .ship) && decide (kv.2.state = .full)).map
    Prod.fst).foldl State.handBack s

/-- The FULL SHIP slot that became FULL most recently (R109). -/
def State.latestFull (s : State) : Option Nat :=
  ((s.str.slots.filter fun kv => decide (kv.2.cls = .ship) && decide (kv.2.state = .full)).foldl
    (fun best kv => match best with
      | none => some kv
      | some b => if b.2.fullOrder ≤ kv.2.fullOrder then some kv else some b)
    (none : Option (Nat × Slot))).map Prod.fst

/-- One FULL SHIP slot taken back while a REPAIR or FETCH request waits (R109). -/
def State.takeBackOnce (s : State) : State :=
  if s.urgent then
    match s.latestFull with
    | none => s
    | some n => (s.handBack n).consider
  else s

/-- FULL SHIP slots taken back one at a time (R109). -/
def State.takeBack (s : State) : State := iter Config.slotCount State.takeBackOnce s

/-- A slot request made (R107, R108): granted at once where its grant is allowed and no earlier
request of its class waits; a REPAIR or FETCH request that waits takes FULL SHIP slots back. -/
def State.askSlots (s : State) (c : SlotClass) (r : SlotReq) : State :=
  if s.grantAllowed c r.wants.length = true ∧ (s.waiting c).isEmpty = true then s.grant c r
  else (s.enqueue c r).takeBack

/-- A holder's waiting requests withdrawn (R108). -/
def State.withdrawAsk (s : State) (h : SlotHolder) : State :=
  let keep := fun (q : List SlotReq) => q.filter fun r => decide (r.holder ≠ h)
  { s with
    str.waitRepair := keep s.str.waitRepair, str.waitFetch := keep s.str.waitFetch
    str.waitShip := keep s.str.waitShip, str.waitPatrol := keep s.str.waitPatrol }

/-- The slots of a holder freed when it fails or is abandoned; one in SENDING is freed when its
directive ends (R112). -/
def State.freeHolder (s : State) (h : SlotHolder) : State :=
  s.freeSlotsIf fun x => decide (x.holder = h) && decide (x.state ≠ .sending)

/-- Every slot of a holder freed. -/
def State.freeAllOf (s : State) (h : SlotHolder) : State := s.freeSlotsIf fun x => decide (x.holder = h)

/-- The slot a holder holds for a chunk index, in one of some states. -/
def State.slotFor (s : State) (h : SlotHolder) (idx : Nat) : Option (Nat × Slot) :=
  s.str.slots.find? fun kv => decide (kv.2.holder = h) && decide (kv.2.idx = idx)

/-- The slots of a holder in a state, by chunk index: pairs of index and slot number. -/
def State.chunksOf (s : State) (h : SlotHolder) (st : SlotState) : List (Nat × Nat) :=
  sortBy (fun a b => decide (a.1 < b.1))
    ((s.str.slots.filter fun kv => decide (kv.2.holder = h) && decide (kv.2.state = st)).map
      fun kv => (kv.2.idx, kv.1))

/-- The state of some slots written. -/
def State.setSlots (s : State) (ns : List Nat) (st : SlotState) : State :=
  ns.foldl (fun s n => s.modSlot n fun x => { x with state := st }) s

/-- A chunk's bytes placed in a FILLING slot, with its final computed code (R110). -/
def State.fill (s : State) (n : Nat) (data : List Byte) : State :=
  s.modSlot n fun x => { x with data := data, computed := checkCode data }

/-- A filled slot becomes FULL (R110); a SHIP slot takes its place in the order of R109. -/
def State.makeFull (s : State) (n : Nat) : State :=
  let s := s.modSlot n fun x => { x with state := .full, fullOrder := s.str.nextFull }
  { s with str.nextFull := s.str.nextFull + 1 }

end Sys2Proof.Machine
end

