-- ==== Sys2Proof/Machine/Waits.lean ====
section
/-! DEFINITION. Waits for a place in a directive list (R175) and for room in the Fetch Queue (R150): which step
a restore takes up next (R92, R95, R102), and which of those that wait can go on at this moment. A wait that
cannot, keeps its turn and holds nobody back. -/

namespace Sys2Proof.Machine

/-! ### Steps -/

/-- The source version of a step. -/
def State.sourceOf (s : State) (r : Restore) (i : Nat) : Option Version :=
  match r.steps[i]? with
  | some t => t.src.bind fun birth => (s.extent r.vol (r.first + i)).version birth
  | none => none

/-- A COPY step whose source is in repair is passed over (R92). -/
def State.passedOver (s : State) (r : Restore) (i : Nat) (t : Step) : Bool :=
  decide (t.kind = .copy) &&
    (match s.sourceOf r i with
     | some v => decide (v.repair = .suspect) || decide (v.repair = .repairing)
     | none => false) &&
    !(s.damaged r.vol (r.first + i) || s.damaged (r.target i).1 (r.target i).2)

/-- The step a restore takes up next (R92, R97): the first WAITING one not passed over, for which the
restore has room in flight. -/
def State.nextStep (s : State) (r : Restore) : Option Nat :=
  (List.range r.steps.length).find? fun i =>
    match r.steps[i]? with
    | some t =>
      decide (t.state = .waiting) && (t.again || decide (r.inFlight < Config.stepsInFlight)) &&
        !(s.passedOver r i t)
    | none => false

/-- A restore takes up steps: RUNNING, not pausing, in ACTIVE (R92, R102). -/
def State.takesSteps (s : State) (r : Restore) : Bool :=
  decide (r.state = .running) && !r.pausing && decide (s.sup.op = .active)

/-- A WAITING step is the one its restore takes up next (R92). -/
def State.isNextStep (s : State) (rec i : Nat) : Bool :=
  match s.restore rec with
  | some r => s.takesSteps r && decide (s.nextStep r = some i)
  | none => false

/-- All chunks of a FETCHING step are held, or its empty marker is done (R94). -/
def State.chunksReady (s : State) (rec i : Nat) (t : Step) : Bool :=
  decide (t.state = .fetching) &&
    (t.marker || decide ((s.chunksOf (.step rec i) .full).length = 16))

/-! ### Places -/

/-- Pulls go out (R127): in ACTIVE, the window open, the link UP in SHIP. -/
def State.pullsGo (s : State) : Bool :=
  decide (s.sup.op = .active) && s.windowIsOpen && s.linkUp && decide (s.off.dir = .ship)

/-- A step that waits for a place can take one now: the next WAITING one of its restore (R92), or a FETCHING one
whose PUT is ready (R95) and whose source version can still be read. -/
def State.stepMayTake (s : State) (rec i : Nat) : Bool :=
  match s.restore rec with
  | some r =>
    (match r.steps[i]? with
     | some t =>
       if t.state = .waiting then s.isNextStep rec i else s.chunksReady rec i t && (s.sourceOf r i).isSome
     | none => false)
  | none => false

/-- A repair record that waits for a place can take one now (R164, R166, R168). -/
def State.repairMayTake (s : State) (n idx : Nat) : Bool :=
  decide (s.sup.op = .active) &&
    (match s.repair n with
     | some r =>
       !r.abandoned && !r.lost && !r.becomeWhole &&
         (if r.whole then r.chunks.all fun c => decide (c.progress = .fetched)
          else r.chunks.any fun c =>
            c.idx == idx && (decide (c.progress = .twinWait) || decide (c.progress = .fetched)))
     | none => false)

/-- An issuer that waits for a place can take one now (R175). DESIGN CHOICE (log entry 61): one that cannot is passed
over and keeps its turn; the spec does not say what it does to those behind it. -/
def State.mayTake (s : State) (who : Issuer) : Bool :=
  match who with
  | .orphan => false
  | .step rec i => s.stepMayTake rec i
  | .shipPull n => s.pullsGo && s.off.pulls.any fun p => p.n == n && decide (p.stage = .place) &&
      (match s.planOf p.vol with
       | some v => decide (v.state = .shipping)
       | none => false)
  | .verify n => decide (s.sup.op = .active) && s.pat.work.any fun w => w.n == n && decide (w.state = .place)
  | .repair n idx => s.repairMayTake n idx

/-- An issuer takes a place of a link's list: the link is UP and has a free entry, and no issuer that could take
it waits ahead (R175). -/
def State.placeFree (s : State) (l : Link) (who : Issuer) : Bool :=
  (s.link l).up && decide ((s.link l).directives.length < Config.directiveListSize) &&
    (match (s.link l).placeWaits.find? s.mayTake with
     | some w => decide (w = who)
     | none => true)

/-! ### Room -/

/-- The first wait for room in the Fetch Queue that can be served when its room opens: a WAITING step is served
where it is the next of its restore (R92, R150). DESIGN CHOICE (log entry 61), as for places. -/
def State.firstRoom (s : State) : Option RoomWait :=
  s.off.roomWaits.find? fun w =>
    !w.takeUp ||
      (match w.holder with
       | .step rec i => s.isNextStep rec i
       | .repair _ => false)

end Sys2Proof.Machine
end

