-- ==== Sys2Proof/Machine/OffsiteLink.lean ====
section
/-! DEFINITION. The offsite link: opening and closing (R139, R140), the outstanding-frame list (R143,
R145), faults (R147), the direction (R148, R149), the Fetch Queue (R150) and DROPs (R153). -/

namespace Sys2Proof.Machine

/-- The Offsite Engine's part changed. -/
def State.modOff (s : State) (f : Offsite → Offsite) : State := { s with off := f s.off }

/-! ### Work -/

/-- Work waits for the link (R140). -/
def State.workWaits (s : State) : Bool :=
  !s.off.fetchQueue.isEmpty || !s.off.controls.isEmpty || s.windowIsOpen

/-- A Ship Queue entry counts as ship work (R148). -/
def ShipEntry.isWork (e : ShipEntry) : Bool :=
  match e.state with
  | .unpulled | .pulling _ | .ready => true
  | .parked | .outstanding => false

/-- Ship work waits (R148). -/
def State.shipWork (s : State) : Bool :=
  !s.off.controls.isEmpty || (s.windowIsOpen && s.off.queue.any ShipEntry.isWork)

/-- Fetch work waits (R148). -/
def State.fetchWork (s : State) : Bool := !s.off.fetchQueue.isEmpty

/-- A frame of the SHIP class (Table 8-3). -/
def FrameBody.isShip : FrameBody → Bool
  | .ship .. => true
  | .control _ => true
  | .fetch _ _ => false

/-- FETCH_REQs outstanding (R150). -/
def State.fetchesOut (s : State) : Nat := (s.off.outstanding.filter fun f => !f.body.isShip).length

/-- SHIP-direction frames outstanding (R120). -/
def State.shipsOut (s : State) : Bool := s.off.outstanding.any fun f => f.body.isShip

/-! ### Opening and closing -/

/-- The DROPs withdrawn in the last session whose snapshots still wait for one (R146, R153). -/
def State.returningDrops (s : State) : List Control :=
  (s.off.withdrawnDrops.filter fun vg =>
    match s.snapshot vg.1 vg.2 with
    | some p => p.held && (match p.state with
      | .dropping _ _ => true
      | _ => false)
    | none => false).map fun vg => .drop vg.1 vg.2

/-- An opening starts a session (R139). -/
def State.startOpening (s : State) : State :=
  let back := s.returningDrops
  (s.send (.offsite (.open 0 Config.outstandingSize))).modOff fun o =>
    { o with
      link := .opening 1, dir := .idle, seqCounter := 0, reqCounter := 0, withdrawnNums := []
      withdrawnDrops := [], controls := o.controls ++ back
      ackStart := s.sup.elapsed, ackLimit := s.sup.settings.ackWait, idleSince := none }

/-- An opening asked for (R139): acted on in ACTIVE with the link DOWN. -/
def State.askOpening (s : State) : State :=
  if s.sup.op = .active ∧ s.off.link = .down then s.startOpening else s

/-- The link leaves UP: waiting slot requests of the Fetch Queue are withdrawn (R151). -/
def State.leaveUp (s : State) : State := { s with str.waitRepair := [], str.waitFetch := [] }

/-- The link closed: CLOSE is sent and the link is DOWN (R140). -/
def State.closeLink (s : State) : State :=
  (s.send (.offsite .close)).leaveUp.modOff fun o =>
    { o with link := .down, dir := .idle, expiries := 0, idleSince := none, shipTurn := none }

/-! ### Giving frames back -/

/-- A Fetch Queue entry is of kind REPAIR (R150). -/
def FetchEntry.isRepair (e : FetchEntry) : Bool :=
  match e.holder with
  | .repair _ => true
  | .step _ _ => false

/-- The slot holder behind a fetch entry. -/
def FetchHolder.slots : FetchHolder → SlotHolder
  | .step r i => .step r i
  | .repair r => .repair r

/-- The class of the slots a fetch entry needs (R151). -/
def FetchEntry.cls (e : FetchEntry) : SlotClass := if e.isRepair then .repair else .fetch

/-- Entries placed in the Fetch Queue, at the head or at the tail of their kind (R150). -/
def placeIn (q es : List FetchEntry) (atHead : Bool) : List FetchEntry :=
  let reps := q.filter FetchEntry.isRepair
  let rest := q.filter fun e => !e.isRepair
  let newReps := es.filter FetchEntry.isRepair
  let newRest := es.filter fun e => !e.isRepair
  if atHead then newReps ++ reps ++ (newRest ++ rest) else reps ++ newReps ++ (rest ++ newRest)

/-- The FILLING slot of a fetch entry freed (R112). -/
def State.freeFilling (s : State) (e : FetchEntry) : State :=
  match e.idx with
  | none => s
  | some i => s.freeSlotsIf fun x =>
      decide (x.holder = e.holder.slots) && decide (x.idx = i) && decide (x.state = .filling)

/-- A frame given back (Table 8-4), but for its FETCH_REQ's place in the queue. In an ending night
an entry leaves with the night, and VOLUME_DONE is not sent again (R120, R154). -/
def State.giveBack (s : State) (f : OutFrame) : State :=
  match f.body with
  | .ship num _ _ _ _ _ _ =>
    if f.vacant then s
    else
      match s.entry num with
      | none => s
      | some e =>
        let s := match e.slot with
          | some n => s.freeSlot n
          | none => s
        if s.nightEnding then s.modOff fun o => { o with queue := o.queue.filter fun x => x.num != num }
        else s.modEntry num fun e =>
          { e with slot := none, state := if e.form = .ship then .unpulled else .ready }
  | .control _ => s
  | .fetch e withdrawn => if withdrawn then s else s.freeFilling e

/-- The controls that given-back frames make pending again (Table 8-4). -/
def controlsBack (ending : Bool) (fs : List OutFrame) : List Control :=
  fs.filterMap fun f =>
    match f.body with
    | .control (.volumeDone v t b n) => if ending then none else some (.volumeDone v t b n)
    | .control (.drop v g) => some (.drop v g)
    | _ => none

/-- The fetch entries that given-back frames return (Table 8-4). -/
def fetchesBack (fs : List OutFrame) : List FetchEntry :=
  fs.filterMap fun f =>
    match f.body with
    | .fetch e withdrawn => if withdrawn then none else some e
    | _ => none

/-- Controls given back join the pending ones (R147, R153): ahead of them at a fault or a drain's end (log entry
32), and behind them, as they become pending, where frames are abandoned at a window close or HOLDUP. -/
def joinControls (ahead : Bool) (back pending : List Control) : List Control :=
  if ahead then back ++ pending else pending ++ back

/-- Every outstanding frame given back and removed (R147). -/
def State.giveBackAll (ahead : Bool) (s : State) : State :=
  let fs := s.off.outstanding
  let s := fs.foldl State.giveBack s
  let s := s.freeSlotsIf fun x =>
    decide (x.cls = .ship) && (decide (x.state = .sending) || decide (x.state = .awaitingAck))
  s.modOff fun o =>
    { o with
      outstanding := [], expiries := 0
      controls := joinControls ahead (controlsBack s.nightEnding fs) o.controls
      fetchQueue := placeIn o.fetchQueue (fetchesBack fs) true }

/-- The link goes FAULTED (R147). -/
def State.fault (s : State) (cause : FaultCause) : State :=
  let st := s.off.link
  let dir := s.off.dir
  let n := s.off.outstanding.length
  let s := (s.giveBackAll true).leaveUp.modOff fun o =>
    { o with link := .faulted s.sup.elapsed, dir := .idle, idleSince := none, shipTurn := none }
  s.raise (.linkFault s.sup.clock cause st dir n)

/-! ### Direction -/

/-- The direction becomes SHIP (R148). A ship turn that was running when the direction became IDLE runs on, for IDLE is
neither of its ends (R149). -/
def Offsite.toShip (o : Offsite) : Offsite := { o with dir := .ship, sawShip := true }

/-- The direction becomes SHIP from the drain after a fetch burst, and a ship turn begins (R149). -/
def Offsite.beginTurn (o : Offsite) : Offsite := { o.toShip with shipTurn := some 0 }

/-- The direction becomes FETCH and a burst begins (R149). DESIGN CHOICE (log entry 64): a ship turn that ran over IDLE
is over then, a SHIP-direction frame waiting or not. -/
def Offsite.toFetch (o : Offsite) : Offsite := { o with dir := .fetch, burst := 0, shipTurn := none }

/-- The direction chosen (R148). -/
def State.chooseDir (s : State) : State :=
  s.modOff fun o =>
    if s.fetchWork then o.toFetch
    else if s.shipWork then o.toShip
    else { o with dir := .idle }

/-- A SHIP-direction frame can be transmitted: a control is pending, or a READY entry or filled
vacant frame waits (R149). -/
def State.shipReady (s : State) : Bool :=
  !s.off.controls.isEmpty ||
    (!s.nightEnding && s.off.queue.any fun e => decide (e.state = .ready))

/-- One move of the direction (R148, R149). -/
def State.redirectOnce (s : State) : State :=
  if s.off.link ≠ .up then s
  else
    let none? := s.off.outstanding.isEmpty
    match s.off.dir with
    | .idle => if none? then s.chooseDir else s
    | .ship =>
      match s.off.shipTurn with
      | some n =>
        if Config.shipTurnSize ≤ n ∨ (s.fetchWork = true ∧ s.shipReady = false) then
          s.modOff fun o =>
            { o with shipTurn := none, dir := if s.fetchWork then .draining .toFetch else .ship }
        else if none? && !s.shipWork && !s.fetchWork then s.chooseDir
        else s
      | none =>
        if s.fetchWork then s.modOff fun o => { o with dir := .draining .toFetch }
        else if none? && !s.shipWork then s.chooseDir
        else s
    | .fetch => if none? && !s.fetchWork then s.chooseDir else s
    | .draining t =>
      if none? then
        match t with
        | .toClose => s.closeLink
        | .toShip => if s.shipWork then s.modOff (Offsite.beginTurn) else s.chooseDir
        | .toFetch => if s.fetchWork then s.modOff Offsite.toFetch else s.chooseDir
      else s

/-- The direction moved as far as the work waiting moves it (R148, R149). -/
def State.redirect (s : State) : State := iter 3 State.redirectOnce s

/-- The end of a fetch burst, after a FETCH_REQ was transmitted (R149). DESIGN CHOICE (log entry 64): where a burst ends
with no work waiting, the direction stays FETCH and no new burst begins with an entry that comes later; its FETCH_REQ
counts on from the old count. -/
def State.endBurst (s : State) : State :=
  if Config.burstSize ≤ s.off.burst ∨ s.fetchWork = false then
    if s.shipWork then s.modOff fun o => { o with dir := .draining .toShip }
    else if s.fetchWork then s.modOff fun o => { o with burst := 0 }
    else s
  else s

/-- The idle state of the link that the 300 seconds of R140 run in. -/
def State.linkAtRest (s : State) : Bool :=
  s.linkUp && decide (s.off.phase = .closed) && s.off.outstanding.isEmpty && !s.workWaits

/-- The start of the 300 seconds kept or ended (R140). -/
def State.markRest (s : State) : State :=
  s.modOff fun o =>
    { o with
      idleSince :=
        if s.linkAtRest then (match o.idleSince with
          | some t => some t
          | none => some s.sup.elapsed)
        else none }

/-! ### The Fetch Queue -/

/-- The queue has room for `k` more entries (R150). -/
def State.fetchRoom (s : State) (k : Nat) : Bool :=
  decide (s.off.fetchQueue.length + s.fetchesOut + k ≤ Config.fetchQueueSize)

/-- Entries placed, with the opening they ask for (R139, R150). -/
def State.placeFetch (s : State) (es : List FetchEntry) (atHead : Bool) : State :=
  (s.modOff fun o => { o with fetchQueue := placeIn o.fetchQueue es atHead }).askOpening

/-- Entries placed where there is room and nobody that could take it waits; otherwise their holder waits (R150). -/
def State.askRoom (s : State) (h : FetchHolder) (es : List FetchEntry) (atHead : Bool) : State :=
  if s.firstRoom.isNone && s.fetchRoom es.length then s.placeFetch es atHead
  else s.modOff fun o =>
    { o with roomWaits := o.roomWaits ++ [{ holder := h, entries := es, atHead := atHead, takeUp := false }] }

/-- The first wait for room served, if its room has opened; a WAITING step takes its own place (R92,
R150). -/
def State.serveRoomOnce (s : State) : State :=
  match s.firstRoom with
  | none => s
  | some w =>
    if w.takeUp = false ∧ s.fetchRoom w.entries.length = true then
      (s.modOff fun o => { o with roomWaits := o.roomWaits.erase w }).placeFetch w.entries w.atHead
    else s

/-- Waits for room served in the order in which they began (R150). -/
def State.serveRoom (s : State) : State := iter s.off.roomWaits.length State.serveRoomOnce s

/-- A holder's entries withdrawn, queued and outstanding, with its waits (R94, R150). -/
def State.withdrawFetch (s : State) (h : FetchHolder) : State :=
  (s.modOff fun o =>
    { o with
      fetchQueue := o.fetchQueue.filter fun e => decide (e.holder ≠ h)
      roomWaits := o.roomWaits.filter fun w => decide (w.holder ≠ h)
      outstanding := o.outstanding.map fun f =>
        match f.body with
        | .fetch e w => { f with body := .fetch e (w || decide (e.holder = h)) }
        | _ => f }).withdrawAsk h.slots

/-- Entries of a volume shed or failed that come back to UNPULLED or PARKED leave the queue (R135, log entry 30).
One without data that a fault gives back stays READY, and is transmitted and acknowledged as normal. -/
def State.clearShed (s : State) : State :=
  let out := (s.off.plan.filter fun p => decide (p.state = .shed) || decide (p.state = .failed)).map PlanVol.vol
  s.modOff fun o =>
    { o with
      queue := o.queue.filter fun e =>
        !(out.contains e.vol &&
          (match e.state with
           | .unpulled | .parked => true
           | .ready | .pulling _ | .outstanding => false)) }

/-- The link's own consequences of a step: entries of shed volumes cleared, room served, the direction
moved, the rest marked. -/
def State.settleLink (s : State) : State := (s.clearShed.serveRoom.redirect).markRest

/-! ### Transmission -/

/-- The next number of a counter that was not withdrawn in the session (R143). -/
def freeNumber (gone : List Nat) : Nat → Nat → Nat
  | 0, n => n
  | fuel + 1, n => if gone.contains n then freeNumber gone fuel ((n + 1) % 65536) else n

/-- The number the next SHIP-direction frame takes (R143). -/
def State.nextSeq (s : State) : Nat :=
  freeNumber s.off.withdrawnNums (s.off.withdrawnNums.length + 1) s.off.seqCounter

/-- The ack wait limit starts again at progress, and the expiry count is 0 (R145). -/
def State.progress (s : State) : State :=
  s.modOff fun o =>
    { o with expiries := 0, ackStart := s.sup.elapsed, ackLimit := s.sup.settings.ackWait }

/-- A frame joins the outstanding-frame list (R143); the limit starts when the list stops being empty
(R145). -/
def State.joinList (s : State) (f : OutFrame) : State :=
  let s := if s.off.outstanding.isEmpty then s.progress else s
  s.modOff fun o => { o with outstanding := o.outstanding ++ [f] }

/-- A SHIP-direction frame transmitted first: it takes a number, and counts in a ship turn (R143,
R149). DESIGN CHOICE (log entry 64): so does one that joins the list vacant, cut short at once; its later filling counts
no more. -/
def State.joinShip (s : State) (b : FrameBody) (vacant : Bool) : State :=
  let n := s.nextSeq
  (s.joinList { num := n, body := b, received := false, naks := 0, vacant := vacant }).modOff fun o =>
    { o with seqCounter := (n + 1) % 65536, shipTurn := o.shipTurn.map (· + 1) }

/-- A SHIP-direction frame may be transmitted first (R143): the link is UP in SHIP, and the list has
room and no FETCH_REQ. -/
def State.shipMay (s : State) : Bool :=
  s.linkUp && decide (s.off.dir = .ship) && decide (s.fetchesOut = 0) &&
    decide (s.off.outstanding.length < Config.outstandingSize)

/-- A pending control transmitted first (R131, R143, R153). -/
def State.sendControl (s : State) (c : Control) : State :=
  let n := s.nextSeq
  (s.send (.offsite (match c with
    | .volumeDone v t b k => .volumeDone n v t b k
    | .drop v g => .drop n v g))).joinShip (.control c) false

/-- The vacant frame of the list whose entry is READY, with that entry (R143). -/
def State.vacantReady (s : State) : Option (OutFrame × ShipEntry) :=
  s.off.outstanding.findSome? fun f =>
    match f.body with
    | .ship num _ _ _ _ _ _ =>
      (match s.entry num with
       | some e => if f.vacant = true ∧ e.state = .ready then some (f, e) else none
       | none => none)
    | _ => none

/-- The head of the pending controls transmitted, where it may be (R148): a filled vacant frame goes ahead of
every other (R143). -/
def State.sendHead (s : State) : State :=
  match s.off.controls with
  | [] => s
  | c :: t => if s.shipMay && s.vacantReady.isNone then (s.modOff fun o => { o with controls := t }).sendControl c else s

/-- The SHIP frame of an entry, with its chunk's bytes (R130, Table 8-3). -/
def State.shipFrame (s : State) (num : Nat) (t b : Nat) (e : ShipEntry) : OffFrame :=
  .ship num e.vol t b e.ext e.birth e.form e.chunks e.code
    (match e.slot with
     | some n => (match s.slot n with
       | some x => x.data
       | none => [])
     | none => [])

end Sys2Proof.Machine
end

