-- ==== Sys2Proof/Machine/NightBase.lean ====
section
/-! DEFINITION. Ship Queue entries and plan volumes as other blocks act on them: runs cancelled, entries
of a version made DAMAGED or released from repair (R129), a volume's night failed or shed (R123,
R135), and the repair state of a version changed (R64). -/

namespace Sys2Proof.Machine

/-- An entry is of a version. -/
def ShipEntry.isOf (e : ShipEntry) (vol ext birth : Nat) : Bool :=
  decide (e.vol = vol) && decide (e.ext = ext) && decide (e.birth = birth)

/-- A pull is of a version. -/
def ShipPull.isOf (p : ShipPull) (vol ext birth : Nat) : Bool :=
  decide (p.vol = vol) && decide (p.ext = ext) && decide (p.birth = birth)

/-- A pull run not yet issued given up: its request, its wait for a place and its slots go (R120, R127). -/
def State.cancelRun (s : State) (n : Nat) : State :=
  (((s.withdrawAsk (.shipPull n)).freeAllOf (.shipPull n)).leavePlaces (.shipPull n)).modOff fun o =>
    { o with pulls := o.pulls.filter fun p => p.n != n }

/-- The unissued runs that satisfy `p` given up. -/
def State.cancelRuns (s : State) (p : ShipPull → Bool) : State :=
  (s.off.pulls.filter fun x => decide (x.stage ≠ .issued) && p x).foldl (fun s x => s.cancelRun x.n) s

/-- An entry not yet transmitted and not being pulled (R129). -/
def ShipEntry.unsent (e : ShipEntry) : Bool :=
  match e.state with
  | .parked | .unpulled | .ready => true
  | .pulling _ | .outstanding => false

/-- The slots of some entries freed. -/
def State.freeEntrySlots (s : State) (es : List ShipEntry) : State :=
  (es.filterMap ShipEntry.slot).foldl State.freeSlot s

/-- Entries of a version give way to one DAMAGED entry that covers their chunks (R129): it takes the
place of the first of them, or they join one that already waits; the SHIP count falls with them. DESIGN CHOICE (log
entry 60): where the DAMAGED entry is OUTSTANDING or acknowledged already, they form a second one. -/
def State.damageEntries (s : State) (vol ext birth : Nat) (p : ShipEntry → Bool) : State :=
  let go := fun (e : ShipEntry) => e.isOf vol ext birth && decide (e.form ≠ .damaged) && p e
  let gone := s.off.queue.filter go
  match gone with
  | [] => s
  | first :: _ =>
    let idxs := gone.flatMap ShipEntry.chunks
    let s := s.freeEntrySlots gone
    let waits := fun (e : ShipEntry) =>
      e.isOf vol ext birth && decide (e.form = .damaged) && decide (e.state = .ready)
    let fresh : ShipEntry :=
      { num := s.off.nextEntry, vol := vol, ext := ext, birth := birth, form := .damaged
        chunks := distinctNat idxs, code := none, last := true, failMark := false, state := .ready
        slot := none }
    let unmark := mapIf (fun e => e.isOf vol ext birth && decide (e.form ≠ .damaged))
      (fun e => { e with last := false })
    let queue :=
      if s.off.queue.any waits then
        mapIf waits (fun e => { e with chunks := distinctNat (e.chunks ++ idxs) })
          (s.off.queue.filter fun e => !(go e))
      else
        unmark ((mapIf (fun e => e.num == first.num) (fun _ => fresh) s.off.queue).filter fun e => !(go e))
    let s := s.modOff fun o => { o with queue := queue, nextEntry := o.nextEntry + 1 }
    s.modPlan vol fun v =>
      { v with shipCount := v.shipCount - (gone.filter fun e => decide (e.form = .ship)).length }

/-- A version is UNREPAIRABLE (R129): its entries not yet transmitted and not being pulled give way to one DAMAGED
entry. -/
def State.shipLost (s : State) (vol ext birth : Nat) : State :=
  (s.cancelRuns fun p => p.isOf vol ext birth).damageEntries vol ext birth ShipEntry.unsent

/-- What the Offsite Engine does when a version with PARKED entries changes its repair state (R129). -/
def State.shipReact (s : State) (vol ext birth : Nat) (st : RepairState) : State :=
  if s.off.queue.any fun e => e.isOf vol ext birth && decide (e.state = .parked) then
    match st with
    | .sound =>
      s.modOff fun o =>
        { o with
          queue := mapIf (fun e => e.isOf vol ext birth && decide (e.state = .parked))
            (fun e => { e with state := .unpulled, failMark := false }) o.queue }
    | .unrepairable => s.shipLost vol ext birth
    | .suspect => s
    | .repairing => s
  else s

/-- The version of an extent with a birth and a location. -/
def State.versionAt (s : State) (vol ext birth loc : Nat) : Option Version :=
  (s.extent vol ext).versions.find? fun v => v.birth == birth && decide (v.loc = some loc)

/-- A WAITING COPY step whose source is the version of an extent with a birth (R92). -/
def State.copiesFrom (s : State) (vol ext birth : Nat) (who : Issuer) : Bool :=
  match who with
  | .step rec i =>
    (match s.restore rec with
     | some r => r.vol == vol && r.first + i == ext && (match r.steps[i]? with
       | some t => decide (t.kind = .copy) && decide (t.state = .waiting) && decide (t.src = some birth)
       | none => false)
     | none => false)
  | _ => false

/-- What the Restore Engine does when a version turns SUSPECT or REPAIRING (R64, R92): a COPY step that waits
for a place is passed over, and waits no longer ahead of others (R175). -/
def State.restoreReact (s : State) (vol ext birth : Nat) (st : RepairState) : State :=
  if st = .suspect ∨ st = .repairing then
    allLinks.foldl (fun s l => s.modLink l fun r =>
      { r with placeWaits := r.placeWaits.filter fun w => !(s.copiesFrom vol ext birth w) }) s
  else s

/-- Set repair state (R64), with the reports to the Offsite Engine (R129) and the Restore Engine (R92) where
it changed. -/
def State.setRepair (s : State) (vol ext birth loc : Nat) (st : RepairState) : State :=
  match s.versionAt vol ext birth loc with
  | none => s
  | some v =>
    if s.damaged vol ext = true ∨ v.repair = st then s
    else ((s.writeRepair vol ext birth loc st).restoreReact vol ext birth st).shipReact vol ext birth st

/-- Entries of a volume removed at its shedding or failure (R135): UNPULLED, PARKED, and READY without a
slot. -/
def State.shedEntries (s : State) (vol : Nat) : State :=
  (s.cancelRuns fun p => decide (p.vol = vol)).modOff fun o =>
    { o with
      queue := o.queue.filter fun e =>
        !(decide (e.vol = vol) &&
          (match e.state with
           | .unpulled | .parked => true
           | .ready => e.slot.isNone
           | .pulling _ | .outstanding => false)) }

/-- The ship pins that a plan volume still holds dropped (R75, R123). DESIGN CHOICE (log entry 60): the target's first, then
the base's, retention being evaluated after each; R75 says that both are dropped. -/
def State.dropShipPins (s : State) (vol : Nat) : State :=
  match s.planOf vol with
  | none => s
  | some p =>
    let s := s.modPlan vol fun x => { x with targetPin := false, basePin := false }
    let s := if p.targetPin then s.dropPin vol p.target true else s
    if p.basePin then s.dropPin vol p.base true else s

/-- A pending VOLUME_DONE of a volume. -/
def Control.isDoneOf (vol : Nat) : Control → Bool
  | .volumeDone v _ _ _ => v == vol
  | .drop _ _ => false

/-- A volume's night fails (R123). -/
def State.failVolume (s : State) (vol : Nat) : State :=
  match s.planOf vol with
  | none => s
  | some p =>
    if p.state = .shipping ∨ p.state = .awaitingDone then
      (((s.modPlan vol fun x => { x with state := .failed }).dropShipPins vol).shedEntries vol).modOff
        fun o => { o with nFailed := o.nFailed + 1, controls := o.controls.filter fun c => !(c.isDoneOf vol) }
    else s

/-- The scope of a volume from the scopes in force (R121): the enabled scope of highest priority that
holds it, the lowest-numbered among equals. -/
def State.scopeOf (s : State) (vol : Nat) : Option (Nat × Scope) :=
  ((s.sup.settings.scopes.filter fun kv => kv.2.enabled && kv.2.vols.contains vol).foldl
    (fun best kv => match best with
      | none => some kv
      | some b => if b.2.priority < kv.2.priority then some kv else some b)
    (none : Option (Nat × Scope)))

/-- A DROP becomes pending, and asks for an opening (R80, R153). -/
def State.pendDrop (s : State) (vol gen : Nat) : State :=
  (s.modOff fun o => { o with controls := o.controls ++ [.drop vol gen] }).askOpening

end Sys2Proof.Machine
end

