-- ==== Sys2Proof/Machine/Repair.lean ====
section
/-! DEFINITION. The Patrol Unit: issue decisions, folds, verification and repair records (R155 to
R167). -/

namespace Sys2Proof.Machine

/-- The Patrol Unit's part changed. -/
def State.modPat (s : State) (f : Patrol → Patrol) : State := { s with pat := f s.pat }

/-! ### Eligibility and time -/

/-- The eligibility check of R158; a forced item's version, and a repair's, may be SUSPECT. DESIGN CHOICE (log entry 65): it
may also be SOUND, having become so meanwhile. -/
def State.eligible (s : State) (vol ext birth loc : Nat) (suspectOk : Bool) : Bool :=
  !(s.damaged vol ext) && (s.volume vol).isSome &&
    (match s.versionAt vol ext birth loc with
     | some v => decide (v.repair = .sound) || (suspectOk && decide (v.repair = .suspect))
     | none => false)

/-- The clock value at which a version is due (R155). -/
def State.dueTime (s : State) (v : Version) : Nat := v.verified + 86400 * s.sup.settings.patrolPeriod

/-- A version is due (R155). -/
def State.isDue (s : State) (v : Version) : Bool := v.loc.isSome && decide (s.dueTime v ≤ s.sup.clock)

/-- A version is overdue (R155). -/
def State.isOverdue (s : State) (v : Version) : Bool :=
  s.isDue v && decide (s.dueTime v + 3600 * s.sup.settings.overdueLimit < s.sup.clock)

/-- A shipping PULL naming the version is outstanding, or the version has SHIP entries (R158, R161). -/
def State.shipBound (s : State) (vol ext birth : Nat) : Bool :=
  (s.off.pulls.any fun p => p.isOf vol ext birth && decide (p.stage = .issued)) ||
    (s.off.queue.any fun e => e.isOf vol ext birth && decide (e.form = .ship))

/-! ### Items -/

/-- An item leaves the list with what it holds (R157). -/
def State.leaveItem (s : State) (n : Nat) : State :=
  (((s.withdrawAsk (.verify n)).freeAllOf (.verify n)).leavePlaces (.verify n)).modPat fun p =>
    { p with work := p.work.filter fun w => w.n != n }

/-- A fold entry made for an item that folds, where the table has room and no entry for the version
(R161). -/
def State.addFold (s : State) (w : WorkItem) : State :=
  s.modPat fun p =>
    if p.folds.length < Config.foldTableSize ∧
        (p.folds.any fun f => f.vol == w.vol && f.ext == w.ext && f.birth == w.birth) = false then
      { p with folds := p.folds ++ [{ vol := w.vol, ext := w.ext, birth := w.birth, loc := w.loc, equal := [] }] }
    else p

/-- An item issued: its PATROL slot is asked for (R160). -/
def State.issueItem (s : State) (w : WorkItem) : State :=
  (s.modItem w.n fun x => { x with state := .slot }).askSlots .patrol
    { holder := .verify w.n, wants := [(0, (w.codes[0]?).getD 0)] }

/-- An item whose version is no longer eligible leaves the list (R158). The slot of an outstanding pull is
freed as that pull ends (R113, log entry 56). -/
def State.loseItem (s : State) (w : WorkItem) : State :=
  if w.state = .issued then s.modPat fun p => { p with work := p.work.filter fun x => x.n != w.n }
  else s.leaveItem w.n

/-- The issue decision of an item (R158). Its eligibility is checked in every state; a waiting item folds into
shipping in any operating state, and is issued in ACTIVE alone. -/
def State.decideItem (s : State) (n : Nat) : State :=
  match s.item n with
  | none => s
  | some w =>
    if s.eligible w.vol w.ext w.birth w.loc w.forced = false then s.loseItem w
    else if w.state = .issued ∨ w.state = .slot ∨ w.state = .place then s
    else if w.forced = false ∧ s.shipBound w.vol w.ext w.birth = true then (s.leaveItem n).addFold w
    else if s.sup.op ≠ .active ∨ s.pat.clearing = true then s
    else
      match s.versionAt w.vol w.ext w.birth w.loc, s.ownerOf w.vol with
      | some v, some l =>
        if (s.extent w.vol w.ext).lock.isSome ∧ v.death = none then
          s.modItem n fun x => { x with state := .waitingLock }
        else if (s.link l).idle = true then (s.busy l).issueItem w
        else if s.isOverdue v = true ∨ w.forced = true then s.issueItem w
        else s.modItem n fun x => { x with state := .waitingIdle }
      | _, _ => s

/-! ### Repair records -/

/-- A repair record names a version. -/
def Repair.isOf (r : Repair) (vol ext birth : Nat) : Bool :=
  decide (r.vol = vol) && decide (r.ext = ext) && decide (r.birth = birth)

/-- Directives or fetches of a repair record are outstanding (R165). -/
def State.repairBusy (s : State) (n : Nat) : Bool :=
  (allLinks.any fun l => (s.link l).directives.any fun d =>
    match d.issuer with
    | .repair r _ => r == n
    | _ => false) ||
  (s.off.outstanding.any fun f =>
    match f.body with
    | .fetch e _ => decide (e.holder = .repair n)
    | _ => false)

/-- The version a repair record repairs. -/
def State.repairVersion (s : State) (r : Repair) : Option Version := s.versionAt r.vol r.ext r.birth r.loc

/-- A chunk entry of a record changed. -/
def State.modChunk (s : State) (n idx : Nat) (f : RepairChunk → RepairChunk) : State :=
  s.modRepair n fun r => { r with chunks := mapIf (fun c => c.idx == idx) f r.chunks }

/-- The fetch entry of a record for a chunk (R150, R164). -/
def Repair.fetchEntry (r : Repair) (n : Nat) (v : Version) (idx : Nat) : FetchEntry :=
  { holder := .repair n, vol := r.vol, ext := r.ext, birth := r.birth, idx := some idx, code := v.codeAt idx }

/-- A repair record waits for no place in a directive list any more (R175). -/
def State.leaveRepairPlaces (s : State) (n : Nat) : State :=
  (List.range 16).foldl (fun s i => s.leavePlaces (.repair n i)) s

/-- A chunk goes to the offsite source: its fetch entry is placed, or it is FAILED where the version was
not shipped (R164); it waits for no place meanwhile. -/
def State.chunkOffsite (s : State) (n idx : Nat) : State :=
  match s.repair n with
  | none => s
  | some r =>
    match s.repairVersion r with
    | none => s
    | some v =>
      let s := s.leavePlaces (.repair n idx)
      if v.shipped then
        (s.modChunk n idx fun c => { c with src := .offsite, progress := .fetching }).askRoom (.repair n)
          [r.fetchEntry n v idx] false
      else s.modChunk n idx fun c => { c with src := .offsite, progress := .failed }

/-- The twin of a chunk (R164): the SOUND LOCAL version of highest birth, other than the repaired one,
with an equal recorded code. -/
def State.twinOf (s : State) (r : Repair) (idx : Nat) : Option Version :=
  match s.repairVersion r with
  | none => none
  | some v =>
    (s.extent r.vol r.ext).versions.find? fun x =>
      decide (x.birth ≠ v.birth) && x.loc.isSome && decide (x.repair = .sound) &&
        decide (x.codes[idx]? = v.codes[idx]?) && (v.codes[idx]?).isSome

/-- A chunk taken up: it waits for its twin fix, or goes to the offsite source (R164). -/
def State.startChunk (s : State) (n : Nat) (idx : Nat) : State :=
  match s.repair n with
  | none => s
  | some r => if (s.twinOf r idx).isSome then s else s.chunkOffsite n idx

/-- The end of a record as UNREPAIRABLE decided: nothing more is fetched (R166). -/
def State.loseRepair (s : State) (n : Nat) : State :=
  match s.repair n with
  | none => s
  | some r =>
    ((((s.modRepair n fun r => { r with lost := true }).withdrawFetch (.repair n)).freeHolder
      (.repair n)).leaveRepairPlaces n).setRepair r.vol r.ext r.birth r.loc .unrepairable

/-- A record becomes or opens as WHOLE (R166). -/
def State.startWhole (s : State) (n : Nat) : State :=
  match s.repair n with
  | none => s
  | some r =>
    let s := ((s.withdrawFetch (.repair n)).freeHolder (.repair n)).leaveRepairPlaces n
    let s := s.modRepair n fun r =>
      { r with
        whole := true, becomeWhole := false
        chunks := (List.range 16).map fun i =>
          { idx := i, src := .offsite, progress := .fetching, refetched := false } }
    match s.repairVersion r with
    | none => s
    | some v =>
      if v.shipped then s.askRoom (.repair n) ((List.range 16).map (r.fetchEntry n v)) false
      else s.loseRepair n

/-- The lowest repair record number that is free (R163). -/
def State.freeRepair (s : State) : Option Nat :=
  (List.range Config.repairRecords).find? fun n => (s.repair n).isNone

/-- A repair record opened: the version is REPAIRING (R163). -/
def State.openRepair (s : State) (n : Nat) (q : RepairReq) : State :=
  let s := s.setRepair q.vol q.ext q.birth q.loc .repairing
  let r : Repair :=
    { vol := q.vol, ext := q.ext, birth := q.birth, loc := q.loc, whole := q.whole
      chunks := q.idxs.map fun i => { idx := i, src := .twin, progress := .twinWait, refetched := false }
      becomeWhole := false, lost := false, abandoned := false }
  let s := s.modPat fun p => { p with repairs := tput p.repairs n r }
  if q.whole then s.startWhole n else q.idxs.foldl (fun s i => s.startChunk n i) s

/-- The next waiting entry that passes the eligibility check opens a record; those before it are
discarded (R163). -/
def State.openWaiting (n : Nat) : List RepairReq → State → State
  | [], s => s.modPat fun p => { p with waiting := [] }
  | q :: t, s =>
    if s.eligible q.vol q.ext q.birth q.loc true then
      (s.modPat fun p => { p with waiting := t }).openRepair n q
    else State.openWaiting n t s

/-- A record closed (R167); the next waiting entry opens. -/
def State.closeRepair (s : State) (n : Nat) : State :=
  let s := ((s.freeAllOf (.repair n)).leaveRepairPlaces n).modPat fun p =>
    { p with repairs := tdel p.repairs n }
  State.openWaiting n s.pat.waiting s

/-- The chunks a record repaired, with their sources, and those that failed (R167). DESIGN CHOICE (log entry 65): the
indexes that failed are all those not DONE, of a WHOLE record all 16. -/
def Repair.outcome (r : Repair) : Bool × List (Nat × Option RepairSource) :=
  let done := r.chunks.filterMap fun c =>
    match c.progress with
    | .done src => some (c.idx, some src)
    | _ => none
  let rest := r.chunks.filterMap fun c =>
    match c.progress with
    | .done _ => none
    | _ => some (c.idx, none)
  if r.lost || !rest.isEmpty then (false, rest) else (true, done)

/-- A record that ends: the version SOUND and verified, or UNREPAIRABLE, and DAMAGE raised (R167). -/
def State.endRepair (s : State) (n : Nat) (r : Repair) : State :=
  let out := r.outcome
  let s :=
    if out.1 then (s.setRepair r.vol r.ext r.birth r.loc .sound).setVerified r.vol r.ext r.birth r.loc
    else s.setRepair r.vol r.ext r.birth r.loc .unrepairable
  (s.raise (.damage r.vol r.ext r.birth out.1 out.2)).closeRepair n

/-- A record ended, closed or turned WHOLE where its work has come to that (R163, R165 to R167). -/
def State.checkRepair (s : State) (n : Nat) : State :=
  match s.repair n with
  | none => s
  | some r =>
    if s.repairBusy n then s
    else if r.abandoned then s.closeRepair n
    else if r.lost then s.endRepair n r
    else if r.becomeWhole then s.startWhole n
    else if r.chunks.all fun c => match c.progress with
        | .done _ => true
        | .failed => true
        | _ => false then s.endRepair n r
    else s

/-- A record abandoned (R167): it issues nothing more, and its queued entries and unsent slots go. -/
def State.abandonRepair (s : State) (n : Nat) : State :=
  let s := ((s.modRepair n fun r => { r with abandoned := true }).withdrawFetch (.repair n)).freeHolder
    (.repair n)
  s.leaveRepairPlaces n

/-- Records that satisfy `p` abandoned. -/
def State.abandonIf (s : State) (p : Repair → Bool) : State :=
  (s.pat.repairs.filter fun kv => !kv.2.abandoned && p kv.2).foldl (fun s kv => s.abandonRepair kv.1) s

/-- The open record that names a version and still works on it (R163). DESIGN CHOICE (log entry 65): an abandoned record
that is not yet closed (R167) does not count, and a request for its version opens another or waits. -/
def State.repairOf (s : State) (vol ext birth : Nat) : Option (Nat × Repair) :=
  s.pat.repairs.find? fun kv => kv.2.isOf vol ext birth && !kv.2.abandoned

/-- New indexes added to an open record (R163). -/
def State.addChunks (s : State) (n : Nat) (r : Repair) (q : RepairReq) : State :=
  let fresh := q.idxs.filter fun i => !(r.chunks.any fun c => c.idx == i)
  if r.whole || q.whole || decide (4 < r.chunks.length + fresh.length) then
    (s.modRepair n fun r => { r with becomeWhole := true }).leaveRepairPlaces n
  else
    let s := s.modRepair n fun r =>
      { r with
        chunks := sortBy (fun a b => decide (a.idx < b.idx)) (r.chunks ++
          fresh.map fun i => { idx := i, src := .twin, progress := .twinWait, refetched := false }) }
    fresh.foldl (fun s i => s.startChunk n i) s

/-- A waiting entry merged with a request for the same version (R163). -/
def RepairReq.merge (a b : RepairReq) : RepairReq :=
  let idxs := distinctNat (a.idxs ++ b.idxs)
  if a.whole || b.whole || decide (4 < idxs.length) then { a with idxs := [], whole := true }
  else { a with idxs := idxs }

/-- A repair request placed (R163). -/
def State.requestRepair (s : State) (q : RepairReq) : State :=
  match s.versionAt q.vol q.ext q.birth q.loc with
  | none => s
  | some v =>
    if s.damaged q.vol q.ext = true then s
    else if v.repair = .unrepairable then s.shipLost q.vol q.ext q.birth
    else
      let s := if v.repair = .sound then s.setRepair q.vol q.ext q.birth q.loc .suspect else s
      let same := fun (x : RepairReq) =>
        decide (x.vol = q.vol) && decide (x.ext = q.ext) && decide (x.birth = q.birth)
      match s.repairOf q.vol q.ext q.birth with
      | some (n, r) => (s.addChunks n r q).checkRepair n
      | none =>
        if s.pat.waiting.any same then
          s.modPat fun p => { p with waiting := mapIf same (fun x => x.merge q) p.waiting }
        else
          match s.freeRepair with
          | some n => (s.openRepair n q).checkRepair n
          | none =>
            if s.pat.waiting.length < Config.repairWaitSize then
              s.modPat fun p => { p with waiting := p.waiting ++ [q] }
            else s

/-- A fetched chunk of a repair has arrived equal or not, or was answered FETCH_NONE (R164 to R166). -/
inductive ChunkAnswer where
  | equal
  | differs
  | absent
  deriving DecidableEq, Repr

/-- A record's chunk outcome from the offsite source (R165, R166). -/
def State.repairFetched (s : State) (n idx : Nat) (a : ChunkAnswer) : State :=
  match s.repair n with
  | none => s
  | some r =>
    if r.abandoned || r.lost then s
    else
      match r.chunks.find? fun c => c.idx == idx with
      | none => s
      | some c =>
        let s := if a = .equal then s else s.leavePlaces (.repair n (if r.whole then 0 else idx))
        match a, s.repairVersion r with
        | .equal, _ => s.modChunk n idx fun c => { c with progress := .fetched }
        | .differs, some v =>
          if c.refetched then
            if r.whole then s.loseRepair n
            else s.modChunk n idx fun c => { c with progress := .failed }
          else
            (s.modChunk n idx fun c => { c with refetched := true, progress := .fetching }).askRoom
              (.repair n) [r.fetchEntry n v idx] true
        | _, _ =>
          if r.whole then s.loseRepair n else s.modChunk n idx fun c => { c with progress := .failed }

/-- The FIX of a record has ended, in success or not (R165, R166); its data slots are freed (R112). -/
def State.fixEnded (s : State) (n idx : Nat) (ok : Bool) : State :=
  match s.repair n with
  | none => s
  | some r =>
    if r.whole then
      let s := s.freeAllOf (.repair n)
      let s :=
        if r.abandoned then s
        else if ok then s.modRepair n fun r =>
          { r with chunks := r.chunks.map fun c => { c with progress := .done .offsite } }
        else s.loseRepair n
      s.checkRepair n
    else
      match r.chunks.find? fun c => c.idx == idx with
      | none => s.checkRepair n
      | some c =>
        let s := s.freeSlotsIf fun x => decide (x.holder = .repair n) && decide (x.idx = idx)
        let s :=
          if ok then s.modChunk n idx fun c => { c with progress := .done c.src }
          else if c.src = .twin && !r.abandoned then s.chunkOffsite n idx
          else s.modChunk n idx fun c => { c with progress := .failed }
        s.checkRepair n

/-! ### Verification -/

/-- How a pull ended (R128, R162). -/
inductive PullCause where
  | ended
  | failed
  | limit
  | reset
  deriving DecidableEq, Repr

/-- The outcome of a verifying pull taken (R162). A pull whose item has gone at HOLDUP frees its slot
(R116). -/
def State.verifyEnded (s : State) (n : Nat) (cause : PullCause) : State :=
  match s.item n with
  | none => s.freeAllOf (.verify n)
  | some w =>
    let s := s.freeAllOf (.verify n)
    let again := fun (retry : Bool) => s.modItem n fun x =>
      { x with state := .waitingIdle, retry := retry, received := [], differed := [] }
    if cause = .reset then again w.retry
    else if cause = .limit ∧ w.retry = false then again true
    else if s.eligible w.vol w.ext w.birth w.loc w.forced = false then s.leaveItem n
    else
      let bad := (List.range 16).filter fun i => w.differed.contains i || !(w.received.contains i)
      let whole := decide (cause ≠ .ended) || decide (5 ≤ bad.length)
      let s :=
        if whole = false ∧ bad = [] then
          let s := s.setVerified w.vol w.ext w.birth w.loc
          if w.forced then s.setRepair w.vol w.ext w.birth w.loc .sound else s
        else
          s.requestRepair
            { vol := w.vol, ext := w.ext, birth := w.birth, loc := w.loc
              idxs := if whole then [] else bad, whole := whole }
      s.leaveItem n

/-! ### The re-made decisions -/

/-- A fold entry ended where it is complete, no longer eligible, or no longer to be read (R161). -/
def State.checkFold (s : State) (f : Fold) : State :=
  let drop := s.modPat fun p => { p with folds := p.folds.filter fun x => decide (x ≠ f) }
  if s.eligible f.vol f.ext f.birth f.loc false = false then drop
  else if 16 ≤ f.equal.length then drop.setVerified f.vol f.ext f.birth f.loc
  else if s.shipBound f.vol f.ext f.birth = false then drop
  else s

/-- The Work List emptied after a Clear, once no verifying pull is outstanding (R168). -/
def State.endClearing (s : State) : State :=
  if s.pat.clearing = true ∧ (s.pat.work.any fun w => decide (w.state = .issued)) = false then
    (s.pat.work.foldl (fun s w => s.leaveItem w.n) s).modPat fun p => { p with clearing := false }
  else s

/-- The repair records looked at (R163, R165 to R167), and again those that the closing of others opens. -/
def State.checkRepairs (s : State) : State :=
  iter (s.pat.waiting.length + 1) (fun s => (s.pat.repairs.map Prod.fst).foldl State.checkRepair s) s

/-- The decisions, folds and records looked at again after a step that bears on them (R158, R161,
R163): items in placement order. -/
def State.settlePatrol (s : State) : State :=
  let s := s.abandonIf fun r => s.damaged r.vol r.ext || (s.repairVersion r).isNone
  let s := s.checkRepairs
  let s := s.pat.folds.foldl State.checkFold s
  let s := (s.pat.work.map WorkItem.n).foldl State.decideItem s
  s.endClearing

/-- A step's consequences for the patrol and for the offsite link. -/
def State.settle (s : State) : State := s.settlePatrol.settleLink

end Sys2Proof.Machine
end

