-- ==== Sys2Proof/Machine/Night.lean ====
section
/-! DEFINITION. The window and the night: opening, closing and evaluation (R118 to R120), joining
(R122), the two walks (R124 to R126), the forecast and shedding (R132 to R135). -/

namespace Sys2Proof.Machine

/-! ### The window -/

/-- The time of day of a clock value (0.3). -/
def timeOfDay (clock : Nat) : Nat := clock % 86400

/-- The time of day is inside the INTERNAL open period (R118). -/
def State.insidePeriod (s : State) : Bool :=
  let o := s.sup.settings.openTime
  let c := s.sup.settings.closeTime
  let t := timeOfDay s.sup.clock
  if o < c then decide (o ≤ t) && decide (t < c)
  else if c < o then decide (o ≤ t) || decide (t < c)
  else false

/-- The first clock value after `clock` whose time of day is `close` (R119). -/
def closeAfter (clock close : Nat) : Nat := clock + ((close + 86400 - timeOfDay clock - 1) % 86400 + 1)

/-- The pending window source and times brought into force (R118). -/
def State.applyWindow (s : State) : State :=
  s.modSup fun u =>
    let p := u.pendingSettings
    { u with
      settings := { u.settings with
        windowSource := p.windowSource.getD u.settings.windowSource
        openTime := p.openTime.getD u.settings.openTime
        closeTime := p.closeTime.getD u.settings.closeTime }
      pendingSettings := { p with windowSource := none, openTime := none, closeTime := none } }

/-- Every pending AT_WINDOW value brought into force (R119, R188). -/
def State.applyPending (s : State) : State :=
  s.applyWindow.modSup fun u =>
    let p := u.pendingSettings
    { u with
      settings := { u.settings with
        scopes := p.scopes.foldl (fun t kv => tput t kv.1 kv.2) u.settings.scopes
        assumedRate := p.assumedRate.getD u.settings.assumedRate
        reserveMargin := p.reserveMargin.getD u.settings.reserveMargin }
      pendingSettings := PendingSettings.none }

/-- The window is INTERNAL. -/
def State.internal (s : State) : Bool := decide (s.sup.settings.windowSource = .internal)

/-- The close instant reckoned from the clock; EXTERNAL has none (R119). -/
def State.reckonClose (s : State) : State :=
  s.modOff fun o =>
    { o with
      closeInstant :=
        if s.internal then some (closeAfter s.sup.clock s.sup.settings.closeTime) else none }

/-- The window opens and a night starts (R119, R73). DESIGN CHOICE (log entry 60): the outcome of the last fit test is
cleared, to not fitted, until the night's first (R137). -/
def State.openWindow (s : State) : State :=
  let s := s.applyPending
  let s := s.modOff fun o =>
    { o with
      phase := .windowOpen, plan := [], shedScopes := [], nComplete := 0, nShed := 0, nMissed := 0
      nFailed := 0, rate := s.sup.settings.assumedRate, intervalStart := s.sup.elapsed, acked := 0
      sawShip := decide (o.dir = .ship), lastFit := false }
  let s := s.reckonClose
  let s := (s.volumesIf fun v => v.nightlyCut).foldl (fun s vol => s.openDue true vol) s
  s.askOpening

/-- An INTERNAL opening by evaluation (R119). -/
def State.evaluateOpen (s : State) : State :=
  if s.sup.op = .active ∧ s.off.phase = .closed ∧ s.internal = true ∧ s.sup.clockSet = true ∧
      s.insidePeriod = true then s.openWindow
  else s

/-- The night ends where nothing of it remains (R120): the volumes left are counted failed, the ship
pins dropped, SHIP_NIGHT_END raised, the plan emptied, pending window settings brought into force
and the window evaluated (R118, R119). -/
def State.tryEndNight (s : State) : State :=
  if s.nightEnding && s.off.queue.isEmpty && s.off.pulls.isEmpty && !s.shipsOut then
    let left := (s.off.plan.filter fun p =>
      decide (p.state = .shipping) || decide (p.state = .awaitingDone)).length
    let s := s.modOff fun o => { o with nFailed := o.nFailed + left }
    let s := (s.off.plan.map PlanVol.vol).foldl State.dropShipPins s
    let s := s.raise (.shipNightEnd s.sup.clock s.off.nComplete s.off.nShed s.off.nMissed s.off.nFailed
      s.off.rate)
    let s := s.modOff fun o => { o with phase := .closed, closeInstant := none, plan := [], shedScopes := [] }
    let s := s.modPat fun p => { p with folds := [] }
    s.applyWindow.evaluateOpen
  else s

/-- The window closes and the night begins to end (R120, R154). -/
def State.closeWindow (s : State) : State :=
  if s.windowIsOpen then
    let s := s.cancelRuns fun _ => true
    let s := s.freeFullShip
    let s := s.modOff fun o =>
      { o with
        phase := .ending s.sup.elapsed s.sup.settings.ackWait
        queue := o.queue.filter fun e => !e.unsent
        controls := o.controls.filter fun c => match c with
          | .volumeDone .. => false
          | .drop _ _ => true }
    let s := (s.cat.volumes.map Prod.fst).foldl (fun s vol => s.closeDue true vol) s
    s.tryEndNight
  else s

/-- The evaluation of the window at Time Set and Standby Exit (R119, R120, R136). -/
def State.evaluateWindow (s : State) : State :=
  if s.internal && s.windowIsOpen && s.sup.clockSet && !s.insidePeriod then s.closeWindow
  else s.evaluateOpen

/-! ### Joining -/

/-- A volume's answered nightly due joins the plan (R122). -/
def State.joinPlan (s : State) (vol t : Nat) : State :=
  match s.scopeOf vol, s.volume vol with
  | some (sc, _), some v =>
    if s.windowIsOpen = false then s
    else if s.off.shedScopes.contains sc then s.modOff fun o => { o with nShed := o.nShed + 1 }
    else
      let tPin := s.pinGranted vol t
      let s := if tPin then s.takePin vol t true else s
      let bPin := decide (0 < v.mark) && s.pinGranted vol v.mark
      let s := if bPin then s.takePin vol v.mark true else s
      (s.modOff fun o =>
        { o with
          plan := o.plan ++
            [{ vol := vol, state := .shipping, target := t, base := if bPin then v.mark else 0
               scope := sc, countCursor := 0, shipCount := 0, counted := [], acked := 0
               targetPin := tPin, basePin := bPin }] }).modVolume vol fun v => { v with shipCursor := 0 }
  | _, _ => s

/-- A missed due is reported (R122). -/
def State.reportMissed (s : State) (vol : Nat) : State :=
  match s.scopeOf vol with
  | some (sc, _) =>
    if s.windowIsOpen && !(s.off.shedScopes.contains sc) then
      s.modOff fun o => { o with nMissed := o.nMissed + 1 }
    else s
  | none => s

/-- A nightly due closes as missed (R73). -/
def State.missDue (s : State) (vol : Nat) : State :=
  match (s.duesOf vol).nightly with
  | none => s
  | some d =>
    ((s.closeDue true vol).raise (.cutMissed vol d.clock s.sup.settings.cutWait)).reportMissed vol

/-- A nightly due has waited the cut wait limit in force (R73). -/
def State.cutLate (s : State) (vol : Nat) : Bool :=
  match (s.duesOf vol).nightly with
  | some d => decide (d.opened + 60 * s.sup.settings.cutWait ≤ s.sup.elapsed)
  | none => false

/-- The nightly dues that have waited past the limit closed as missed (R73, R74). DESIGN CHOICE (log entry 54):
several raised at once go by ascending volume. -/
def State.missLate (s : State) : State :=
  (s.cat.volumes.map Prod.fst).foldl (fun s vol => if s.cutLate vol then s.missDue vol else s) s

/-! ### The change set -/

/-- The version of an extent's change set (R124). -/
def Extent.changed (e : Extent) (t b : Nat) : Option Version :=
  (e.heldAt t).bind fun v => if b < v.birth then some v else none

/-- A chunk of a version is sent as REF (R124). -/
def Extent.isRef (e : Extent) (b : Nat) (v : Version) (idx : Nat) : Bool :=
  decide (0 < b) &&
    (match e.heldAt b with
     | some w => (w.codes[idx]?).isSome && decide (w.codes[idx]? = v.codes[idx]?)
     | none => false)

/-- The chunks of a version that R124 makes SHIP. -/
def Extent.shipChunks (e : Extent) (b : Nat) (v : Version) : List Nat :=
  if v.occ = 0 ∨ v.repair = .unrepairable then []
  else (List.range 16).filter fun i => !(e.isRef b v i)

/-- The entries of a version, formed as it stands (R124, R126); the last carries the mark. -/
def Extent.entries (e : Extent) (vol ext b : Nat) (v : Version) (from_ : Nat) : List ShipEntry :=
  let one := fun (num : Nat) (form : EntryForm) (chunks : List Nat) (code : Option Code) (last : Bool)
      (st : EntryState) =>
    ({ num := num, vol := vol, ext := ext, birth := v.birth, form := form, chunks := chunks
       code := code, last := last, failMark := false, state := st, slot := none } : ShipEntry)
  if v.occ = 0 then [one from_ .empty [] none true .ready]
  else if v.repair = .unrepairable then [one from_ .damaged (List.range 16) none true .ready]
  else
    let shipState : EntryState :=
      if v.repair = .suspect ∨ v.repair = .repairing then .parked else .unpulled
    (List.range 16).map fun i =>
      if e.isRef b v i then one (from_ + i) .ref [i] (some (v.codeAt i)) (decide (i = 15)) .ready
      else one (from_ + i) .ship [i] (some (v.codeAt i)) (decide (i = 15)) shipState

/-- A volume's count walk visits one extent (R125). DESIGN CHOICE (log entry 60): no walk visits an extent while a
night is ending; the spec does not say. -/
def State.countVisit (s : State) (vol : Nat) : State :=
  match s.planOf vol, s.volume vol with
  | some p, some v =>
    if p.state = .shipping ∧ s.windowIsOpen = true ∧ p.countCursor < v.count then
      if s.damaged vol p.countCursor = true then s.failVolume vol
      else
        let e := s.extent vol p.countCursor
        let n := match e.changed p.target p.base with
          | some x => (e.shipChunks p.base x).length
          | none => 0
        s.modPlan vol fun q =>
          { q with
            countCursor := p.countCursor + 1, shipCount := q.shipCount + n
            counted := if n = 0 then q.counted else tput q.counted p.countCursor n }
    else s
  | _, _ => s

/-- Plan order (R121): scopes by descending priority, then ascending number, then ascending volume. -/
def State.planBefore (s : State) (a b : PlanVol) : Bool :=
  let pri := fun (p : PlanVol) => ((tget s.sup.settings.scopes p.scope).getD Scope.initial).priority
  decide (pri b < pri a) || (decide (pri a = pri b) &&
    (decide (a.scope < b.scope) || (decide (a.scope = b.scope) && decide (a.vol < b.vol))))

/-- The volume the ship walk serves next (R126). -/
def State.walkVolume (s : State) : Option (PlanVol × Volume) :=
  (sortBy s.planBefore s.off.plan).findSome? fun p =>
    match s.volume p.vol with
    | some v =>
      if p.state = .shipping ∧ v.shipCursor < v.count ∧ v.shipCursor < p.countCursor then some (p, v)
      else none
    | none => none

/-- A version whose SHIP entries the ship walk places PARKED is reported to the Patrol Unit's repair (R126,
R129). DESIGN CHOICE (log entry 14): a version in repair already, or waiting for it, stays with that repair;
otherwise the report names one index, that of the first PARKED entry (R163). -/
def State.reportParked (s : State) (vol ext : Nat) (es : List ShipEntry) : State :=
  match es.find? fun e => decide (e.state = .parked) with
  | none => s
  | some e =>
    if (s.repairOf vol ext e.birth).isSome ∨
        (s.pat.waiting.any fun q => q.vol == vol && q.ext == ext && q.birth == e.birth) = true then s
    else
      match ((s.extent vol ext).version e.birth).bind Version.loc with
      | none => s
      | some loc =>
        s.requestRepair
          { vol := vol, ext := ext, birth := e.birth, loc := loc, idxs := [e.chunks.headD 0], whole := false }

/-- The ship walk visits one extent (R126); it waits where the queue has not room for all entries. DESIGN CHOICE
(log entry 60): it makes no visit while a night is ending; the spec does not say. -/
def State.shipVisit (s : State) : State :=
  match s.walkVolume with
  | none => s
  | some (p, v) =>
    let ext := v.shipCursor
    if s.windowIsOpen = false then s
    else if s.damaged p.vol ext = true then s.failVolume p.vol
    else
      let e := s.extent p.vol ext
      let es := match e.changed p.target p.base with
        | some x => e.entries p.vol ext p.base x s.off.nextEntry
        | none => []
      if Config.shipQueueSize < s.off.queue.length + es.length then s
      else
        let n := (es.filter fun x => decide (x.form = .ship)).length
        let was := (tget p.counted ext).getD 0
        let s := s.modOff fun o => { o with queue := o.queue ++ es, nextEntry := o.nextEntry + es.length }
        let s := s.modPlan p.vol fun q =>
          { q with shipCount := q.shipCount + n - was, counted := tdel q.counted ext }
        (s.modVolume p.vol fun v => { v with shipCursor := ext + 1 }).reportParked p.vol ext es

/-! ### Completing a volume -/

/-- A SHIPPING volume has had every entry of its change set acknowledged (R131). -/
def State.isDone (s : State) (p : PlanVol) : Bool :=
  match s.volume p.vol with
  | some v =>
    decide (p.state = .shipping) && decide (v.count ≤ p.countCursor) && decide (v.count ≤ v.shipCursor) &&
      !(s.off.queue.any fun e => e.vol == p.vol) && !(s.off.pulls.any fun x => x.vol == p.vol)
  | none => false

/-- The first complete volume in plan order becomes AWAITING_DONE, its VOLUME_DONE pending (R131). -/
def State.finishVolume (s : State) : State :=
  match (sortBy s.planBefore s.off.plan).find? s.isDone with
  | none => s
  | some p =>
    if s.windowIsOpen then
      (s.modPlan p.vol fun q => { q with state := .awaitingDone }).modOff fun o =>
        { o with controls := o.controls ++ [.volumeDone p.vol p.target p.base p.acked] }
    else s

/-! ### The forecast -/

/-- The remaining work R in KiB (R133). -/
def State.remainingWork (s : State) : Nat :=
  256 * ((s.off.plan.filter fun p => decide (p.state = .shipping)).map PlanVol.shipCount).sum

/-- The forecast T in seconds; `none` is infinite (R133). -/
def State.forecast (s : State) : Option Nat :=
  if s.remainingWork = 0 then some 0
  else if s.off.rate = 0 then none
  else some ((s.remainingWork + s.off.rate - 1) / s.off.rate)

/-- The forecast fits (R134): clock + T is at or below the close instant minus the reserve margin. -/
def State.fits (s : State) : Bool :=
  match s.forecast, s.off.closeInstant with
  | some t, some c => decide (s.sup.clock + t + s.sup.settings.reserveMargin ≤ c)
  | _, _ => false

/-- The sheddable scopes (R134). -/
def State.sheddable (s : State) : List Nat :=
  distinctNat (((s.off.plan.filter fun p =>
    decide (p.state = .shipping) && !(s.off.shedScopes.contains p.scope)).map PlanVol.scope))

/-- The scope shed next: of lowest priority, the highest-numbered among equals (R134). -/
def State.shedNext (s : State) : Option Nat :=
  let pri := fun (n : Nat) => ((tget s.sup.settings.scopes n).getD Scope.initial).priority
  s.sheddable.foldl (fun best n => match best with
    | none => some n
    | some b => if pri n ≤ pri b then some n else some b) none

/-- A scope shed (R135). -/
def State.shedScope (s : State) (sc : Nat) : State :=
  let vols := (s.off.plan.filter fun p => decide (p.scope = sc) && decide (p.state = .shipping)).map PlanVol.vol
  let s := s.modOff fun o => { o with shedScopes := o.shedScopes ++ [sc], nShed := o.nShed + vols.length }
  vols.foldl (fun s vol =>
    ((s.modPlan vol fun p => { p with state := .shed }).dropShipPins vol).shedEntries vol) s

/-- One round of the fit test (R134): while the forecast does not fit and more than one scope is
sheddable, one is shed. -/
def State.shedOnce (s : State) : State :=
  match s.shedNext with
  | none => s
  | some sc =>
    if s.fits = false ∧ 1 < s.sheddable.length then
      let before := s.forecast
      let rate := s.off.rate
      let s := s.shedScope sc
      s.raise (.shipShed sc s.sup.clock rate before s.forecast)
    else s

/-- The rate after an interval in which the direction was SHIP (R132). -/
def nextRate (r acked : Nat) : Nat := (3 * r + acked / 60) / 4

/-- The end of a 60-second interval (R132 to R134). -/
def State.endInterval (s : State) : State :=
  if s.windowIsOpen = true ∧ s.off.intervalStart + Config.intervalSeconds ≤ s.sup.elapsed then
    let shipping := s.off.plan.any fun p => decide (p.state = .shipping)
    let s :=
      if shipping then
        let s := s.modOff fun o =>
          { o with rate := if o.sawShip && decide (s.sup.op = .active) then nextRate o.rate o.acked else o.rate }
        if s.internal then
          let s := iter 8 State.shedOnce s
          s.modOff fun o => { o with lastFit := s.fits }
        else s
      else s
    s.modOff fun o =>
      { o with
        intervalStart := o.intervalStart + Config.intervalSeconds, acked := 0
        sawShip := decide (o.dir = .ship) }
  else s

end Sys2Proof.Machine
end

