-- ==== Sys2Proof/Machine/RestoreBase.lean ====
section
/-! DEFINITION. Restores as their steps end: failure, cancelling, finishing and pausing of a restore
(R96, R98 to R105). -/

namespace Sys2Proof.Machine

/-- The Restore Engine's part changed. -/
def State.modRst (s : State) (f : RestoreEngine → RestoreEngine) : State := { s with rst := f s.rst }

/-- The active restores of a person changed (Table 1-1). -/
def State.modActive (s : State) (person : Nat) (f : Nat → Nat) : State :=
  s.modPrin person fun p => { p with active := f p.active }

/-- A reservation release asked of the Tally Unit (R34); one of 0 blocks changes nothing. -/
def State.askRelease (s : State) (person blocks : Nat) : State :=
  if blocks = 0 then s else s.pushOp (.unreserve person blocks) []

/-- Steps of a restore in a state. -/
def Restore.stepsIn (r : Restore) (st : StepState) : Nat :=
  (r.steps.filter fun t => decide (t.state = st)).length

/-- RESTORE_END raised for a record as it stands (R100). -/
def State.raiseEnd (s : State) (rec : Nat) : State :=
  match s.restore rec with
  | none => s
  | some r =>
    s.raise (.restoreEnd r.rid r.principal r.link r.state r.cause r.failedStep (r.stepsIn .done)
      (r.stepsIn .skipped) (r.stepsIn .failed) (r.stepsIn .waiting) r.inFlight)

/-- The lock of a step's target released (R62). -/
def State.unlockStep (s : State) (rec i : Nat) : State :=
  match s.restore rec with
  | none => s
  | some r => s.unlock (r.target i).1 (r.target i).2 r.rid

/-- The pin of a restore dropped (R75). -/
def State.dropRestorePin (s : State) (rec : Nat) : State :=
  match s.restore rec with
  | none => s
  | some r =>
    if r.pin then (s.modRestore rec fun r => { r with pin := false }).dropPin r.vol r.gen false else s

/-- The indexes of a restore's steps that satisfy `p`. -/
def Restore.indexes (r : Restore) (p : Step → Bool) : List Nat :=
  (List.range r.steps.length).filter fun i =>
    match r.steps[i]? with
    | some t => p t
    | none => false

/-- The locks of the targets of some steps released. -/
def State.unlockSteps (s : State) (rec : Nat) (is : List Nat) : State :=
  is.foldl (fun s i => s.unlockStep rec i) s

/-- What a step holds given up: fetch entries, slots not in SENDING, waits for a place (R94, R112). -/
def State.dropStep (s : State) (rec i : Nat) : State :=
  ((s.withdrawFetch (.step rec i)).freeHolder (.step rec i)).leavePlaces (.step rec i)

/-- A restore becomes finished: it takes its state and the next finish number. -/
def State.finishAs (s : State) (rec : Nat) (st : RestoreState) (cause : Option FailCause)
    (failed : Option (Nat × StepReason)) : State :=
  (s.modRestore rec fun r =>
    { r with
      state := st, cause := cause, failedStep := failed, finishNo := some s.rst.nextFinish
      pausing := false }).modRst fun e => { e with nextFinish := e.nextFinish + 1 }

/-- Blocks leave the remaining reservation and are released (R34, R98, R99). -/
def State.releaseBlocks (s : State) (rec blocks : Nat) : State :=
  match s.restore rec with
  | none => s
  | some r =>
    (s.modRestore rec fun r => { r with remaining := r.remaining - blocks }).askRelease r.principal blocks

/-- The sum of the positive charges of some steps (R85). -/
def Restore.positives (r : Restore) (is : List Nat) : Nat :=
  (is.map fun i => match r.steps[i]? with
    | some t => t.positive
    | none => 0).sum

/-- A finished restore with no step in flight drops its pin (R98). -/
def State.settlePin (s : State) (rec : Nat) : State :=
  match s.restore rec with
  | none => s
  | some r => if !r.state.isActive && decide (r.inFlight = 0) then s.dropRestorePin rec else s

/-- A CANCELLING restore, or one cancelled at once, becomes CANCELLED (R99): the charges of its WAITING
steps are released, the pin is dropped, active restores is lowered and RESTORE_END raised. -/
def State.becomeCancelled (s : State) (rec : Nat) : State :=
  match s.restore rec with
  | none => s
  | some r =>
    let waits := r.indexes fun t => decide (t.state = .waiting)
    let s := s.finishAs rec .cancelled none none
    let s := s.releaseBlocks rec (r.positives waits)
    ((s.dropRestorePin rec).modActive r.principal (· - 1)).raiseEnd rec

/-- A step holds back a pause (R102): it is ISSUED, or PUTTING by a PUT issued before the pause began. -/
def Step.holdsPause (t : Step) : Bool :=
  decide (t.state = .issued) || (decide (t.state = .putting) && !t.inPause)

/-- What follows the end of a step (R98 to R100, R102): the restore finishes, becomes CANCELLED, becomes
PAUSED, or drops its pin. -/
def State.afterStep (s : State) (rec : Nat) : State :=
  match s.restore rec with
  | none => s
  | some r =>
    match r.state with
    | .running =>
      if r.steps.all fun t => decide (t.state = .done) || decide (t.state = .skipped) then
        let st := if r.stepsIn .skipped = 0 then RestoreState.done else .donePartial
        (((s.finishAs rec st none none).dropRestorePin rec).modActive r.principal (· - 1)).raiseEnd rec
      else if r.pausing = true ∧ r.steps.any Step.holdsPause = false then
        s.modRestore rec fun r => { r with state := .paused, pausing := false }
      else s
    | .cancelling => if r.inFlight = 0 then s.becomeCancelled rec else s
    | .planned => s
    | .paused => s
    | .done => s.settlePin rec
    | .donePartial => s.settlePin rec
    | .failed => s.settlePin rec
    | .cancelled => s.settlePin rec

/-- A step has ended (Table 5-3). -/
def Step.ended (t : Step) : Bool :=
  decide (t.state = .done) || decide (t.state = .failed) || decide (t.state = .skipped)

/-- A step of a record has ended, or the record has no such step. -/
def Restore.stepEnded (r : Restore) (i : Nat) : Bool :=
  match r.steps[i]? with
  | some t => t.ended
  | none => true

/-- A step fails (R98), and with it a restore that was in an active state; a step fails once. -/
def State.failStep (s : State) (rec i : Nat) (why : StepReason) : State :=
  match s.restore rec with
  | none => s
  | some r =>
    if r.stepEnded i then s
    else
      let s := s.modStep rec i fun t => { t with state := .failed, reason := some why, again := false }
      let s := (s.dropStep rec i).unlockStep rec i
      let own := r.positives [i]
      if r.state.isActive then
        let waits := r.indexes fun t => decide (t.state = .waiting)
        let waits := waits.filter (· ≠ i)
        let fetching := (r.indexes fun t => decide (t.state = .fetching)).filter (· ≠ i)
        let s := s.finishAs rec .failed (some .step) (some (i, why))
        let s := waits.foldl (fun s j =>
          ((s.modStep rec j fun t => { t with again := false }).dropStep rec j).unlockStep rec j) s
        let s := fetching.foldl (fun s j =>
          ((s.modStep rec j fun t => { t with state := .failed, reason := some .abandoned }).dropStep rec
            j).unlockStep rec j) s
        let s := s.releaseBlocks rec (own + r.positives waits + r.positives fetching)
        let s := (s.modActive r.principal (· - 1)).raiseEnd rec
        s.settlePin rec
      else (s.releaseBlocks rec own).settlePin rec

/-- The conversion of a step has been applied: the step is DONE (R96), unless it failed meanwhile with its
restore. -/
def State.stepConverted (s : State) (rec i : Nat) : State :=
  match s.restore rec with
  | none => s
  | some r =>
    if r.stepEnded i then s
    else
      let s := s.modStep rec i fun t => { t with state := .done }
      let s := s.modRestore rec fun q => { q with remaining := q.remaining - r.positives [i] }
      (s.unlockStep rec i).afterStep rec

/-- The conversions of a record's steps that are with the Tally Unit go on as what was written charges
(R22), the reservation apart, which the record's release takes whole (R103, R105, log entry 55). They name no
record any more, so that they end no step of a restore that takes the record later (R90). -/
def State.releaseConversions (s : State) (rec : Nat) : State :=
  { s with
    tally.ops := s.tally.ops.map fun o =>
      match o.job with
      | .convert n i p _ d l =>
        if n = rec then { o with job := .convert Config.restoreTableSize i p 0 d l } else o
      | _ => o }

/-- The slots that a directive given up is still reading: they are freed when it ends (R112). -/
def State.orphanSlots (s : State) (l : Link) (rec : Nat) (d : Directive) : State :=
  match d.issuer with
  | .step n i =>
    if n = rec then
      { s with
        str.slots := tmap (fun _ x =>
          if x.holder = .step n i ∧ x.state = .sending then { x with holder := .gone l d.tag } else x) s.str.slots }
    else s
  | _ => s

/-- The directives of a restore record's steps are answered to nobody (R97, R103, R105). -/
def State.orphanSteps (s : State) (rec : Nat) : State :=
  allLinks.foldl (fun s l =>
    let s := (s.link l).directives.foldl (fun s d => s.orphanSlots l rec d) s
    s.modLink l fun k =>
      { k with directives := k.directives.map fun d =>
          match d.issuer with
          | .step n _ => if n = rec then { d with issuer := .orphan } else d
          | _ => d }) s

/-- The steps in flight of a record failed, whatever they wait for, and what its WAITING steps wait for
given up (R103 to R105). -/
def State.failInFlight (s : State) (rec : Nat) (why : StepReason) : State :=
  match s.restore rec with
  | none => s
  | some r =>
    let s := (s.orphanSteps rec).releaseConversions rec
    (r.indexes fun t => !t.ended).foldl (fun s i =>
      ((s.modStep rec i fun t =>
        { t with
          again := false
          state := if t.state = .waiting then .waiting else .failed
          reason := if t.state = .waiting then t.reason else some why }).dropStep rec i)) s

/-- Every lock of a restore released. -/
def State.unlockAll (s : State) (rec : Nat) : State :=
  match s.restore rec with
  | none => s
  | some r => s.unlockSteps rec (List.range r.steps.length)

/-- A record failed with cause POWER at HOLDUP (R103): its steps in flight, its whole remaining reservation,
every lock and its pin; of a finished one, the steps in flight with their charges. -/
def State.powerFail (s : State) (rec : Nat) : State :=
  match s.restore rec with
  | none => s
  | some r =>
    if r.state.isActive then
      let s := s.failInFlight rec .power
      let s := s.finishAs rec .failed (some .power) none
      let s := (s.releaseBlocks rec r.remaining).unlockAll rec
      ((s.dropRestorePin rec).modActive r.principal (· - 1)).raiseEnd rec
    else
      let lost := r.indexes Step.inFlight
      (((s.failInFlight rec .power).unlockSteps rec lost).releaseBlocks rec (r.positives lost)).settlePin rec

/-- A record failed with cause STORE (R105): `readable` says whether a copy of its remaining reservation
is readable; where none is, 0 is released. A finished one fails so while steps of it are in flight. -/
def State.storeFail (s : State) (rec : Nat) (readable : Bool) : State :=
  match s.restore rec with
  | none => s
  | some r =>
    let s := s.raise (.storeError (.restore r.rid))
    if r.state.isActive ∨ 0 < r.inFlight then
      let s := s.failInFlight rec .abandoned
      let s :=
        if r.state.isActive then s.finishAs rec .failed (some .store) none
        else s.modRestore rec fun r => { r with state := .failed, cause := some .store, failedStep := none }
      let s := s.releaseBlocks rec (if readable then r.remaining else 0)
      let s := s.modRestore rec fun r => { r with remaining := 0 }
      let s := (s.unlockAll rec).dropRestorePin rec
      (if r.state.isActive then s.modActive r.principal (· - 1) else s).raiseEnd rec
    else s

/-! ### The acceptance's record -/

/-- The record an acceptance takes (R90, R101): the lowest-numbered unused one, else the reusable one of
lowest finish number. -/
def State.recordFor (s : State) : Option Nat :=
  match (List.range Config.restoreTableSize).find? fun n => (s.restore n).isNone with
  | some n => some n
  | none =>
    ((s.rst.table.filter fun kr => !kr.2.state.isActive && decide (kr.2.inFlight = 0)).foldl
      (fun best kr => match best with
        | none => some kr
        | some b => if kr.2.finishNo.getD 0 < b.2.finishNo.getD 0 then some kr else some b)
      (none : Option (Nat × Restore))).map Prod.fst

/-- The target range of a restore request: volume and first extent (5.1). -/
def targetOf (b : RestoreBody) : Nat × Nat :=
  match b.mode with
  | .inPlace => (b.vol, b.first)
  | .recovery => (b.tvol, b.tfirst)

/-- The locks and the pin of an acceptance given up (R87, R90). -/
def State.refuseAcceptance (s : State) (a : Acceptance) : State :=
  let t := targetOf a.body
  let s := (List.range a.body.count).foldl (fun s i => s.unlock t.1 (t.2 + i) a.rid) s
  { s with rst.acceptance := none }.dropPin a.body.vol a.body.gen false

/-- The record of a GRANTED reservation written, and ACCEPTED answered (R90). In HOLDUP the restore is
then failed like those in the table (R103, log entry 15). -/
def State.writeRecord (s : State) (a : Acceptance) : State :=
  match s.recordFor with
  | none => (s.refuseAcceptance a).reply a.link a.req .busy .none
  | some rec =>
    let b := a.body
    let r : Restore :=
      { rid := a.rid, state := .planned, cause := none, failedStep := none, principal := b.principal
        link := a.link, vol := b.vol, gen := b.gen, first := b.first, count := b.count, mode := b.mode
        tvol := b.tvol, tfirst := b.tfirst, partialOk := b.partialOk, acceptNo := s.rst.nextAccept
        remaining := a.reserve, pin := true, finishNo := none, pausing := false, steps := a.steps }
    let s := s.modRst fun e =>
      { e with table := tput e.table rec r, acceptance := none, nextAccept := e.nextAccept + 1 }
    let s := s.unlockSteps rec (r.indexes fun t => decide (t.state = .skipped))
    let s := s.modActive b.principal (· + 1)
    let kinds := fun (k : StepKind) => (a.steps.filter fun t => decide (t.kind = k)).length
    let s := s.reply a.link a.req .accepted
      (.restoreAccepted a.rid (kinds .copy) (kinds .fetch) (r.stepsIn .skipped) a.reserve)
    if s.sup.op = .holdup then s.powerFail rec else s

/-- The outcome of a restore reservation returned to the Restore Engine (R32, R90). DESIGN CHOICE (log entry
22): a person deleted while the reservation waits leaves it no chain, and the Restore is refused
UNKNOWN_PRINCIPAL. -/
def State.reserved (s : State) (o : Admission) : State :=
  match s.rst.acceptance with
  | none => s
  | some a =>
    match o.status with
    | .granted => s.writeRecord a
    | .limit => (s.refuseAcceptance a).reply a.link a.req .limit (.restoreLimit o.headroom o.limiting)
    | .frozen => (s.refuseAcceptance a).reply a.link a.req .frozen (.restoreFrozen o.limiting)
    | st => (s.refuseAcceptance a).reply a.link a.req st .none

end Sys2Proof.Machine
end

