-- ==== Sys2Proof/Machine/TallyRun.lean ====
section
/-! DEFINITION. The operations of the Tally Unit run: the Admission Calculator (R26 to R31), the changes
of every kind of operation (R6, R16, R18, R33, R34), the writes they wait for (R10, R11, R13), and
their ends. -/

namespace Sys2Proof.Machine

/-! ### The Admission Calculator -/

/-- Stage 2: the effective limit (R27). An EXPIRED member always has a soft limit (R36). -/
def effectiveLimit (p : Principal) : Nat :=
  match p.grace with
  | .expired => p.soft.getD (p.hard.getD maxTally)
  | _ => p.hard.getD maxTally

/-- Stage 3: the load (R28). -/
def State.admitLoad (s : State) (id : Nat) : Nat :=
  (s.current id).1 + (s.current id).2 + (if s.isUnsettled id then Config.unsettledAllowance else 0)

/-- Stage 4: the headroom (R28). -/
def State.headroom (s : State) (id : Nat) : Nat :=
  match s.prin id with
  | some p => effectiveLimit p - s.admitLoad id
  | none => 0

/-- Stage 5: the smallest headroom of a chain and the first member that has it (R28). -/
def State.smallest (s : State) : List Nat → Nat × Nat
  | [] => (0, 0)
  | [x] => (s.headroom x, x)
  | x :: y :: t =>
    let r := State.smallest s (y :: t)
    if s.headroom x ≤ r.1 then (s.headroom x, x) else r

/-- Stage 6: status and granted count (R29). -/
def grantOf (n q : Nat) (partialOk : Bool) (h : Nat) : Status × Nat :=
  if n ≤ h then (.granted, n)
  else if partialOk = true ∧ 0 < q * (h / q) then (.partialGrant, q * (h / q))
  else (.limit, 0)

/-- The first frozen member of a chain (R26). -/
def State.firstFrozen (s : State) (chain : List Nat) : Option Nat :=
  chain.find? fun id => match s.prin id with
    | some p => p.frozen
    | none => false

/-- Stages 1 to 6, after the expiries of stage 1 (R26 to R29). -/
def State.admission (s : State) (chain : List Nat) (n q : Nat) (partialOk : Bool) : Admission :=
  match chain with
  | [] => { status := .unknownPrincipal, granted := 0, headroom := 0, limiting := 0 }
  | _ =>
    match s.firstFrozen chain with
    | some m => { status := .frozen, granted := 0, headroom := 0, limiting := m }
    | none =>
      let h := s.smallest chain
      let g := grantOf n q partialOk h.1
      { status := g.1, granted := g.2, headroom := h.1, limiting := h.2 }

/-! ### Changes -/

/-- Used lowered by a Release's amount (R16): each member by the amount or by its own used. -/
def State.releasing (s : State) (chain : List Nat) (amount : Nat) : List TallyChange :=
  chain.map fun id =>
    { id := id, used := (s.current id).1 - amount, reserved := (s.current id).2 }

/-- The amount a Release removes (R16): the smaller of its blocks and the person's used. -/
def State.removable (s : State) (person blocks : Nat) : Nat := min blocks (s.current person).1

/-- The tally of a pool after a move that leaves it, joins it, or both (R6). -/
def State.moved (s : State) (p : Principal) (c : EditChanges) (person pool : Nat) : TallyChange :=
  let u := (s.current person).1
  let r := (s.current person).2
  let out := (p.leaves c).contains pool
  let into := (p.joins c).contains pool
  let u0 := (s.current pool).1
  let r0 := (s.current pool).2
  let u1 := if out && !into then takeTally u0 u else u0
  let r1 := if out && !into then takeTally r0 r else r0
  { id := pool
    used := if into && !out then fitTally (u1 + u) else u1
    reserved := if into && !out then fitTally (r1 + r) else r1 }

/-- The changes an operation makes to tallies, reckoned from the tallies as they stand. -/
def State.changesOf (s : State) (o : TallyOp) : List TallyChange :=
  match o.job with
  | .admitReq _ _ _ _ _ _ =>
    (match o.outcome with
     | some a => o.ids.map fun id =>
         { id := id, used := (s.current id).1 + a.granted, reserved := (s.current id).2 }
     | none => [])
  | .reserve _ _ =>
    (match o.outcome with
     | some a => o.ids.map fun id =>
         { id := id, used := (s.current id).1, reserved := (s.current id).2 + a.granted }
     | none => [])
  | .posting p b _ => s.releasing o.ids (s.removable p b)
  | .release _ _ p b => s.releasing o.ids (s.removable p b)
  | .settle _ _ p counted =>
    o.ids.map fun id =>
      if id = p then { id := id, used := counted, reserved := (s.current id).2 }
      else
        { id := id
          used := fitTally ((s.current id).1 + counted - (s.current p).1)
          reserved := (s.current id).2 }
  | .convert _ _ p c d _ =>
    let out := if d < 0 then s.removable p (-d).toNat else 0
    o.ids.map fun id =>
      { id := id
        used := if 0 < d then fitTally ((s.current id).1 + d.toNat) else (s.current id).1 - out
        reserved := (s.current id).2 - c }
  | .unreserve _ r =>
    o.ids.map fun id => { id := id, used := (s.current id).1, reserved := (s.current id).2 - r }
  | .edit _ _ id c =>
    (match s.prin id with
     | some p => if editMoves c then (o.ids.filter (· ≠ id)).map (s.moved p c id) else []
     | none => [])
  | .delete _ _ _ => []

/-- The person of a Settle, whose record is written in place (R18). -/
def Job.settled : Job → Option Nat
  | .settle _ _ p _ => some p
  | _ => none

/-- TALLY_UNDERFLOW where a Release exceeds the person's used (R16, R33). -/
def State.underflow (s : State) (person blocks : Nat) (link : Link) : State :=
  if (s.current person).1 < blocks then
    s.raise (.tallyUnderflow person blocks (s.current person).1 link)
  else s

/-- The notices an operation raises as it is applied (R16, R33). -/
def State.jobNotices (s : State) : Job → State
  | .posting p b l => s.underflow p b l
  | .release l _ p b => s.underflow p b l
  | .convert _ _ p _ d l => if d < 0 then s.underflow p (-d).toNat l else s
  | _ => s

/-! ### Principal Edit and Delete -/

/-- An optional limit after a change (R5). -/
def limitFits (v : Option Nat) : Bool :=
  match v with
  | some n => decide (1 ≤ n) && decide (n ≤ maxTally)
  | none => true

/-- Soft is at or below hard where both are present (Table 1-1). -/
def limitsOrdered (soft hard : Option Nat) : Bool :=
  match soft, hard with
  | some a, some b => decide (a ≤ b)
  | _, _ => true

/-- A named parent is a POOL record (R4, R6). -/
def State.isPool (s : State) (id : Option Nat) : Bool :=
  match id with
  | none => true
  | some i =>
    (match s.prin i with
     | some p => decide (p.kind = .pool)
     | none => false)

/-- The value a field is given, if it is given one. -/
def givenField : FieldChange → Option Nat
  | .put v => some v
  | _ => none

/-- The checks of a Principal Edit (R5, R6). DESIGN CHOICE (log entry 52): the spec states no order among
them; the model takes UNKNOWN_PRINCIPAL, MALFORMED, RANGE of class and limits, then UNKNOWN_PRINCIPAL and
RANGE of the parents. -/
def State.editCheck (s : State) (id : Nat) (c : EditChanges) : Option Status :=
  match s.prin id with
  | none => some .unknownPrincipal
  | some p =>
    if editMoves c = true ∧ p.kind = .pool then some .malformed
    else if (match c.cls with
        | some k => decide (63 < k)
        | none => false) = true ∨ limitFits (givenField c.soft) = false ∨
        limitFits (givenField c.hard) = false ∨
        limitsOrdered (newField c.soft p.soft) (newField c.hard p.hard) = false then some .range
    else if s.isPool (givenField c.course) = false ∨ s.isPool (givenField c.dept) = false then
      some .unknownPrincipal
    else if (newField c.course p.course).isSome ∧
        newField c.course p.course = newField c.dept p.dept ∧ editMoves c = true then some .range
    else none

/-- The record fields that a Principal Edit writes (R5). -/
def State.writeEdit (s : State) (id : Nat) (c : EditChanges) : State :=
  s.modPrin id fun p =>
    { p with
      cls := c.cls.getD p.cls, soft := newField c.soft p.soft, hard := newField c.hard p.hard
      course := newField c.course p.course, dept := newField c.dept p.dept }

/-- A member count raised or lowered by one. -/
def State.modMembers (s : State) (pool : Nat) (f : Nat → Nat) : State :=
  s.modPrin pool fun p => { p with members := f p.members }

/-- The counts that move with a person (R6). -/
def State.moveCounts (s : State) (p : Principal) (id : Nat) (c : EditChanges) : State :=
  let uns := s.isUnsettled id
  let s := (p.leaves c).foldl (fun s pool =>
    let s := s.modMembers pool (· - 1)
    if uns then s.modPrin pool fun q => { q with unsettledMembers := q.unsettledMembers - 1 } else s) s
  (p.joins c).foldl (fun s pool =>
    let s := s.modMembers pool (· + 1)
    if uns then s.memberUnsettled pool else s) s

/-- The reasons that keep a record from being deleted (R8). -/
def State.deleteCheck (s : State) (id : Nat) : Option Status :=
  match s.prin id with
  | none => some .unknownPrincipal
  | some p =>
    if (s.current id).1 ≠ 0 ∨ (s.current id).2 ≠ 0 ∨ p.active ≠ 0 ∨ s.isUnsettled id = true ∨
        (s.tally.postings.any fun x => x.principal == id) ∨ (p.kind = .pool ∧ p.members ≠ 0) ∨
        id ∈ s.tally.recounts then some .inUse
    else none

/-- A record freed (R8): its parents' counts fall, and its line and castout entry go unwritten. -/
def State.deletePrincipal (s : State) (id : Nat) : State :=
  match s.prin id with
  | none => s
  | some p =>
    let s := (p.course.toList ++ p.dept.toList).foldl (fun s pool => s.modMembers pool (· - 1)) s
    let s := s.leaveGraceQueue id
    { s with
      tally.principals := tdel s.tally.principals id
      tally.cache := s.tally.cache.filter fun x => x.id != id
      tally.castout := s.tally.castout.filter fun x => x.id != id }

/-! ### Application -/

/-- The person whose chain a job is over. -/
def Job.person : Job → Nat
  | .admitReq _ _ p _ _ _ => p
  | .reserve p _ => p
  | .posting p _ _ => p
  | .release _ _ p _ => p
  | .settle _ _ p _ => p
  | .convert _ _ p _ _ _ => p
  | .unreserve p _ => p
  | .edit _ _ id _ => id
  | .delete _ _ id => id

/-- Operations that let go of the lines they hold and gather anew, what they had computed being dropped. -/
def State.regatherIf (s : State) (again : TallyOp → Bool) : State :=
  { s with
    tally.cache := mapIf (fun x => s.tally.ops.any fun o => again o && decide (x.held = some o.num))
      (fun x => { x with held := none }) s.tally.cache
    tally.ops := mapIf again
      (fun o => { o with stage := .gathering, ids := [], direct := [], outcome := none }) s.tally.ops }

/-- A parent move or deletion of a principal completes while other operations over it wait: they let go of the
lines they hold and gather those of the chain as it now stands (R25); a parent move into a deleted pool is then
refused (R6, log entry 22). -/
def State.regather (s : State) (id : Nat) : State :=
  s.regatherIf fun o => decide (o.stage = .gathering) && (o.job.person == id || o.ids.contains id)

/-- An operation has its lines, or is to gather them, and has not applied its changes. -/
def TallyOp.isOpen (o : TallyOp) : Bool :=
  decide (o.stage = .gathering) || decide (o.stage = .ready) || decide (o.stage = .marking)

/-- A principal's record has met a double error (R20): every operation over it that has not applied its
changes gathers the chain as it now stands, waits for a recount that has begun (R19), and is computed from
the values taken. -/
def State.recompute (s : State) (id : Nat) : State :=
  s.regatherIf fun o => o.isOpen && (o.ids.contains id || o.job.person == id)

/-- What an operation changes beside tallies, before grace is evaluated. -/
def State.jobRecords (s : State) : Job → State
  | .settle _ _ p _ =>
    if s.isUnsettled p then
      ((s.chain p).drop 1).foldl (fun s pool =>
        s.modPrin pool fun q => { q with unsettledMembers := q.unsettledMembers - 1 }) s
    else s
  | .edit _ _ id c =>
    (match s.prin id with
     | some p =>
       let s := (s.moveCounts p id c).writeEdit id c
       if editMoves c then s.regather id else s
     | none => s)
  | .delete _ _ id => (s.deletePrincipal id).regather id
  | _ => s

/-- A Principal Edit changes the soft limit of its record (R36). -/
def State.softChanges (s : State) (id : Nat) (c : EditChanges) : Bool :=
  match s.prin id with
  | some p => decide (newField c.soft p.soft ≠ p.soft)
  | none => false

/-- The principals whose grace an operation evaluates (R36): those whose used, reserved or soft limit it
changes. -/
def State.graceIds (s : State) (o : TallyOp) : List Nat :=
  (match o.job with
   | .edit _ _ id c => if s.softChanges id c then [id] else []
   | _ => []) ++ ((s.changesOf o).filter fun c => !(s.isNoChange c)).map TallyChange.id

/-- The pools whose recount an operation may begin (R6, R18). -/
def State.recountIds (s : State) : Job → List Nat
  | .settle _ _ p _ => (s.chain p).drop 1
  | .edit _ _ id c =>
    (match s.prin id with
     | some p => p.leaves c
     | none => [])
  | _ => []

/-- What another block is told when an operation's changes have been applied (R16, R90, R96). -/
def State.jobApplied (s : State) (o : TallyOp) : State :=
  match o.job with
  | .reserve _ _ =>
    (match o.outcome with
     | some a => s.reserved a
     | none => s)
  | .convert rec i _ _ _ _ => s.stepConverted rec i
  | .posting _ _ _ => { s with tally.postings := s.tally.postings.drop 1 }
  | _ => s

/-- An operation that has no write left goes on: an Admit awaits its reply, and every other ends, with
DONE where a request awaits it (R5, R6, R8, R15, R18). -/
def State.completeOp (s : State) (num : Nat) : State :=
  match s.op num with
  | none => s
  | some o =>
    if o.writes ≠ [] then s
    else
      match o.job with
      | .admitReq _ _ _ _ _ _ => s.modOp num fun o => { o with stage := .finished }
      | .release l q _ _ => (s.dropOp num).reply l q .done .none
      | .settle l q _ _ => (s.dropOp num).reply l q .done .none
      | .edit l q _ _ => (s.dropOp num).reply l q .done .none
      | .delete l q _ => (s.dropOp num).reply l q .done .none
      | .reserve _ _ => s.dropOp num
      | .posting _ _ _ => s.dropOp num
      | .convert _ _ _ _ _ _ => s.dropOp num
      | .unreserve _ _ => s.dropOp num

/-- An operation's changes applied (R3, R11, R30): tallies, records, grace, recounts; its lines are released
(R9), and the writes under way are awaited. Where changes are written before the reply, the in-progress
note holds their ids meanwhile (R13). DESIGN CHOICE (log entry 58): R13 speaks of WRITE_THROUGH and of an operation
that changes several lines; the note is used in every mode, whenever an operation makes several in-place writes, for
the ids so written. -/
def State.applyOp (s : State) (num : Nat) : State :=
  match s.op num with
  | none => s
  | some o =>
    let cs := s.changesOf o
    let graceIds := s.graceIds o
    let recountIds := s.recountIds o.job
    let before := s.tally.writes.length
    let s := s.jobNotices o.job
    let s := (s.jobRecords o.job).applyChanges num o.job.settled cs
    let writes := (s.tally.writes.drop before).map PendingWrite.id
    let noted := if 1 < writes.length then writes else []
    let s := { s with tally.note := s.tally.note ++ noted }
    let s := s.evalGraceAll graceIds
    let s := recountIds.foldl State.beginRecount s
    let s := s.modOp num fun o => { o with stage := .writing, writes := writes, noted := noted }
    let s := s.releaseLines num o.ids
    (s.jobApplied o).completeOp num

/-- An operation ready to be applied: the expiries of R39 come first; then the markers of clean lines
are written (R10), or the changes applied at once where there is none to write. -/
def State.runOp (s : State) (num : Nat) : State :=
  match s.op num with
  | none => s
  | some o =>
    let s := s.lazyExpireAll (match o.job with
      | .edit _ _ id c => if editLimits c then (id :: o.ids).eraseDups else o.ids
      | _ => o.ids)
    if (s.marksFor o.job.settled (s.changesOf o)).isEmpty then s.applyOp num
    else s.modOp num fun o => { o with stage := .marking }

/-- Stages 1 to 7 of the calculator for an operation whose lines are held (R25, R30, R32). -/
def State.calculate (s : State) (num : Nat) : State :=
  match s.op num with
  | none => s
  | some o =>
    let s := s.lazyExpireAll o.ids
    let a := match o.job with
      | .admitReq _ _ _ n q part => s.admission o.ids n q part
      | .reserve _ n => s.admission o.ids n 1 false
      | _ => { status := .malformed, granted := 0, headroom := 0, limiting := 0 }
    let s := s.modOp num fun o => { o with outcome := some a }
    if a.status = .granted ∨ a.status = .partialGrant then s.runOp num
    else
      let s := s.releaseLines num o.ids
      let s := match o.job with
        | .reserve _ _ => s.reserved a
        | _ => s
      s.completeOp num

/-- The marker writes of an operation end: the stored records carry the marker and the changes are
applied (R10). -/
def State.endMarking (s : State) (num : Nat) : State :=
  match s.op num with
  | none => s
  | some o =>
    if o.stage = .marking then
      (s.writeMarkers (s.marksFor o.job.settled (s.changesOf o))).applyOp num
    else s

/-- The writes of an operation have all completed: what it put in the in-progress note is cleared (R13). -/
def State.clearNote (s : State) (o : TallyOp) : State :=
  if o.writes = [] then { s with tally.note := o.noted.foldl List.erase s.tally.note } else s

/-- An in-place write ends (R11): the operation that awaits it goes on. -/
def State.endInPlace (s : State) (id : Nat) : State :=
  match s.tally.writes.find? fun w => w.id == id with
  | none => s
  | some w =>
    let s := (s.endWrite w).modOp w.op fun o => { o with writes := o.writes.erase id }
    match s.op w.op with
    | none => s
    | some o => (s.clearNote o).completeOp o.num

/-! ### What goes on by itself -/

/-- An operation that runs as soon as it is ready, with no step of its own in the table (R5, R6, R8, R15,
R18). -/
def Job.runsAtOnce : Job → Bool
  | .release _ _ _ _ => true
  | .settle _ _ _ _ => true
  | .edit _ _ _ _ => true
  | .delete _ _ _ => true
  | _ => false

/-- The check an operation makes again when it runs, having waited: the reply of one that fails. -/
def State.runCheck (s : State) : Job → Option (Link × Nat × Status)
  | .release l q p _ => if (s.prin p).isNone then some (l, q, .unknownPrincipal) else none
  | .settle l q p _ => if (s.prin p).isNone then some (l, q, .unknownPrincipal) else none
  | .edit l q id c => (s.editCheck id c).map fun st => (l, q, st)
  | .delete l q id => (s.deleteCheck id).map fun st => (l, q, st)
  | _ => none

/-- The frozen flag of a record written (R7). -/
def State.setFrozen (s : State) (id : Nat) (b : Bool) : State := s.modPrin id fun p => { p with frozen := b }

/-- One operation gathers as far as it can, and runs if it is of a kind that runs at once. -/
def State.advanceOp (s : State) (num : Nat) : State :=
  let s := s.gather num
  match s.op num with
  | none => s
  | some o =>
    if o.stage = .ready ∧ o.job.runsAtOnce = true then
      match s.runCheck o.job with
      | some (l, q, st) => ((s.releaseLines num o.ids).dropOp num).reply l q st .none
      | none => s.runOp num
    else s

/-- The operations looked at in the order they were taken (R19, R25). -/
def State.advanceOps (s : State) : State := (s.tally.ops.map TallyOp.num).foldl State.advanceOp s

/-- The replies of switches to WRITE_THROUGH, once no line is dirty and the buffer is empty (R13). -/
def State.endModeSwitch (s : State) : State :=
  match s.tally.modeReply with
  | [] => s
  | rs =>
    if s.allClean && s.tally.castout.isEmpty then
      rs.foldl (fun s r => s.reply r.1 r.2 .done .none)
        { s with
          tally.modeReply := []
          tally.flushing := s.sup.op == OpState.holdup }
    else s

/-- The Tally Unit's walk of LOADING has not ended (R21). -/
def State.walkWaits (s : State) : Bool := decide (s.sup.op = .loading) && decide (s.sup.stage ≠ .walked)

/-- The Tally Unit's own consequences of a step: lines cast out while flushing, the head posting taken,
and every operation that can go on going on; in LOADING they begin when its walk has ended (R21). -/
def State.advance (s : State) : State :=
  if s.walkWaits then s
  else
    let s := (s.castoutDirty).takePosting
    let s := iter (s.tally.ops.length + 1) State.advanceOps s
    (s.castoutDirty).endModeSwitch

/-- The Tally Unit's buffers are empty (R22) and the releases are applied (R103). -/
def State.tallyEmpty (s : State) : Bool :=
  s.tally.postings.isEmpty && s.tally.castout.isEmpty && s.allClean && s.tally.ops.isEmpty &&
    s.tally.writes.isEmpty

end Sys2Proof.Machine
end

