-- ==== Sys2Proof/Machine/Restores.lean ====
section
/-! DEFINITION. The Restore Engine: acceptance (R86 to R90), starting (R91), the steps taken up, fetched,
put, completed and failed (R92 to R97), cancelling (R99); and double errors met in table memory as
their owners handle them (R20, R65, R66, R105, R115, R190). -/

namespace Sys2Proof.Machine

/-! ### Acceptance -/

/-- Check 9 (R86): every source extent's owner is the requesting principal. -/
def State.ownsAll (s : State) (b : RestoreBody) : Bool :=
  (List.range b.count).all fun i => decide ((s.extent b.vol (b.first + i)).owner = b.principal)

/-- The checks of Table 5-4 in order: the reply of the first that fails. `role` is that of the request's link
as the request arrived. -/
def State.restoreCheck (s : State) (role : Role) (b : RestoreBody) : Option Status :=
  if s.sup.op ≠ .active then some .wrongState
  else
    match s.volume b.vol with
    | none => some .unknownSnapshot
    | some v =>
      if s.pinGranted b.vol b.gen = false then some .unknownSnapshot
      else if b.count < 1 ∨ 4096 < b.count ∨ v.count < b.first + b.count then some .range
      else if b.mode = .recovery ∧ (s.volume b.tvol).isNone then some .unknownVolume
      else if b.mode = .recovery ∧ (match s.volume b.tvol with
          | some t => !t.recovery
          | none => false) = true then some .notPermitted
      else if b.mode = .recovery ∧ (match s.volume b.tvol with
          | some t => decide (t.count < b.tfirst + b.count)
          | none => false) = true then some .range
      else
        match s.prin b.principal with
        | none => some .unknownPrincipal
        | some p =>
          if p.kind = .pool then some .unknownPrincipal
          else if role = .fileserver ∧ (s.classOf p.cls).selfRestore = false then some .notPermitted
          else if role = .fileserver ∧ s.ownsAll b = false then some .notOwner
          else if 2 ≤ p.active then some .busy
          else if s.recordFor.isNone then some .busy
          else none

/-- A step as planned. -/
def planStep (k : StepKind) (v : Version) (charge : Int) : Step :=
  { kind := k, src := some v.birth, loc := if k = .copy then v.loc else none, charge := charge
    reissued := false, refetched := [], reason := none, state := .waiting, again := false
    recorded := false, marker := false, inPause := false }

/-- A step that restores nothing: SKIPPED, with charge 0 (R88). -/
def skippedStep : Step :=
  { kind := .none, src := none, loc := none, charge := 0, reissued := false, refetched := []
    reason := none, state := .skipped, again := false, recorded := false, marker := false
    inPause := false }

/-- The kind of a step from the version the snapshot holds (Table 5-5). `near`: the target's owner is
the source's. -/
def planKind (near : Bool) (v : Option Version) : StepKind :=
  match v with
  | none => .none
  | some x =>
    match x.res with
    | .offsite => .fetch
    | .here _ _ =>
      if x.repair = .unrepairable then (if x.shipped then .fetch else .none)
      else if near then .copy
      else if x.shipped then .fetch
      else .none

/-- The plan of a restore (R88, R89): a step for each source extent, with its charge. -/
def State.planRestore (s : State) (b : RestoreBody) : List Step :=
  let near := match b.mode with
    | .inPlace => true
    | .recovery => decide (s.ownerOf b.vol = s.ownerOf b.tvol)
  (List.range b.count).map fun i =>
    let held := (s.extent b.vol (b.first + i)).heldAt b.gen
    match planKind near held, held with
    | .none, _ => skippedStep
    | k, some v =>
      let back : Nat := match b.mode with
        | .inPlace => (s.extent b.vol (b.first + i)).liveOcc
        | .recovery => 0
      planStep k v ((v.occ : Int) - back)
    | _, none => skippedStep

/-- The next restore id (R84): ids held by records are passed over. -/
def nextRid (held : List Nat) : Nat → Nat → Nat
  | 0, n => n
  | fuel + 1, n => if held.contains n then nextRid held fuel (if n = 4294967295 then 1 else n + 1) else n

/-- The acceptance of one request (R86 to R90): checks, pin, plan, locks, and the reservation asked of
the Tally Unit. A stage that refuses drops the pin. -/
def State.acceptRestore (s : State) (q : RestoreReq) : State :=
  let b := q.body
  match s.restoreCheck q.role b with
  | some st => s.reply q.link q.req st .none
  | none =>
    let steps := s.planRestore b
    let none_ := (steps.filter fun t => decide (t.kind = .none)).length
    let s := s.takePin b.vol b.gen false
    if none_ ≠ 0 ∧ b.partialOk = false then
      (s.dropPin b.vol b.gen false).reply q.link q.req .unrecoverable (.restoreUnrecoverable none_)
    else
      let rid := nextRid (s.rst.table.map fun kr => kr.2.rid) 65 s.rst.counter
      let s := s.modRst fun e => { e with counter := if rid = 4294967295 then 1 else rid + 1 }
      let t := targetOf b
      if s.anyLocked t.1 t.2 b.count = true then
        (s.dropPin b.vol b.gen false).reply q.link q.req .extentLocked .none
      else
        let n := (steps.map Step.positive).sum
        let s := s.lockRange rid t.1 t.2 b.count
        let a : Acceptance :=
          { link := q.link, req := q.req, body := b, rid := rid, steps := steps, reserve := n }
        let s := s.modRst fun e => { e with acceptance := some a }
        s.pushOp (.reserve b.principal n) (s.touchingPostings (s.chain b.principal))

/-! ### Running places -/

/-- Running places occupied (R91). -/
def State.placesUsed (s : State) : Nat :=
  (s.rst.table.filter fun kr =>
    decide (kr.2.state = .running) || decide (kr.2.state = .paused) || decide (kr.2.state = .cancelling)).length

/-- The PLANNED restore of lowest acceptance number (R91). -/
def State.nextPlanned (s : State) : Option Nat :=
  ((s.rst.table.filter fun kr => decide (kr.2.state = .planned)).foldl
    (fun best kr => match best with
      | none => some kr
      | some b => if kr.2.acceptNo < b.2.acceptNo then some kr else some b)
    (none : Option (Nat × Restore))).map Prod.fst

/-- A PLANNED restore starts where a place is free in ACTIVE (R91). -/
def State.startRestore (s : State) : State :=
  match s.nextPlanned with
  | none => s
  | some rec =>
    if s.sup.op = .active ∧ s.placesUsed < Config.runningPlaces then
      (s.modRestore rec fun r => { r with state := .running }).afterStep rec
    else s

/-! ### Steps -/

/-- The fetch entries of a step (R94): one for each chunk, or one empty marker. -/
def fetchEntries (rec i vol ext : Nat) (v : Version) : List FetchEntry :=
  let one := fun (idx : Option Nat) (code : Code) =>
    ({ holder := .step rec i, vol := vol, ext := ext, birth := v.birth, idx := idx, code := code } : FetchEntry)
  if v.occ = 0 then [one none 0]
  else (List.range 16).map fun k => one (some k) (v.codeAt k)

/-- A FETCH step issued where the Fetch Queue has room for its entries; otherwise it waits for room
(R92, R94, R150). -/
def State.issueFetch (s : State) (rec i : Nat) (r : Restore) (v : Version) : State :=
  let es := fetchEntries rec i r.vol (r.first + i) v
  let h : FetchHolder := .step rec i
  let first := match s.firstRoom with
    | none => true
    | some w => decide (w.holder = h)
  if first && s.fetchRoom es.length then
    let s := s.modOff fun o => { o with roomWaits := o.roomWaits.filter fun w => decide (w.holder ≠ h) }
    (s.modStep rec i fun t => { t with state := .fetching, again := false, marker := false }).placeFetch es false
  else if s.off.roomWaits.any fun w => decide (w.holder = h) then s
  else
    s.modOff fun o =>
      { o with roomWaits := o.roomWaits ++ [{ holder := h, entries := es, atHead := false, takeUp := true }] }

/-- A COPY step whose source has left the file server becomes FETCH (R92, R93). -/
def State.toFetchStep (s : State) (rec i : Nat) (r : Restore) (v : Version) : State :=
  ((s.modStep rec i fun t => { t with kind := .fetch, loc := none }).leavePlaces (.step rec i)).issueFetch
    rec i r v

/-- A step examined and issued (R92 to R94). -/
def State.takeUp (s : State) (rec i : Nat) : State :=
  match s.restore rec with
  | none => s
  | some r =>
    let t := r.target i
    if s.damaged r.vol (r.first + i) = true ∨ s.damaged t.1 t.2 = true then s.failStep rec i .damaged
    else
      match r.steps[i]?, s.sourceOf r i, s.ownerOf t.1 with
      | some st, some v, some l =>
        if st.kind = .fetch then s.issueFetch rec i r v
        else if v.repair = .unrepairable then
          if v.shipped then s.toFetchStep rec i r v else s.failStep rec i .unrepairable
        else if s.placeFree l (.step rec i) = false then s.waitPlace l (.step rec i)
        else
          let loc := st.loc.getD 0
          match s.incRef r.vol (r.first + i) loc with
          | .recordDamaged => s.failStep rec i .damaged
          | .gone => s.toFetchStep rec i r v
          | .granted s =>
            (s.modStep rec i fun x => { x with state := .issued, again := false }).handDirective l .copy
              (.step rec i) [(r.vol, r.first + i, loc)] (.copy loc t.1 t.2) []
      | _, _, _ => s.failStep rec i .damaged

/-- A step's PUT issued where a place is free (R95); a restore that pauses, or is PAUSED, does not wait for it
(R102). A step whose source version can no longer be read, its birth lost with a word of a damaged record (R65), has
no occupied blocks to name: DESIGN CHOICE (log entry 59), no PUT is issued, and the step stays FETCHING. -/
def State.issuePut (s : State) (rec i : Nat) : State :=
  match s.restore rec with
  | none => s
  | some r =>
    match r.steps[i]?, s.sourceOf r i, s.ownerOf (r.target i).1 with
    | some t, some v, some l =>
      if s.chunksReady rec i t = false then s
      else if s.placeFree l (.step rec i) = false then s.waitPlace l (.step rec i)
      else
        let chunks := s.chunksOf (.step rec i) .full
        let s := s.modStep rec i fun x => { x with state := .putting, inPause := r.pausing || decide (r.state = .paused) }
        (s.handDirective l .put (.step rec i) []
          (.put (r.target i).1 (r.target i).2 v.occ chunks.length) chunks).setSlots
            (chunks.map Prod.snd) .sending
    | _, _, _ => s

/-- COPY_DONE or PUT_DONE of a step (R96): the restored-version record, then the conversion; a refused
record sends the new location back and fails the step. -/
def State.completeStep (s : State) (rec i loc : Nat) : State :=
  match s.restore rec with
  | none => s
  | some r =>
    match r.steps[i]?, s.sourceOf r i with
    | some t, some v =>
      let tv := (r.target i).1
      let te := (r.target i).2
      let codes := if v.occ = 0 then none else some v.codes
      match s.commitCheck none (some r.rid) tv te r.principal loc v.occ codes with
      | some _ => (s.sendReclaim tv te loc).failStep rec i .record
      | none =>
        let old := (s.extent tv te).live
        let (p, s) := s.commit tv te r.principal loc v.occ codes
        let s := match p.verdict, old.bind Version.loc with
          | .now, some o => s.sendReclaim tv te o
          | _, _ => s
        let s := if p.rewrite then s.abandonIf fun k => match old with
            | some o => k.isOf tv te o.birth
            | none => false
          else s
        (s.modStep rec i fun x => { x with recorded := true }).pushOp
          (.convert rec i r.principal t.positive t.charge r.link) []
    | _, _ => (s.sendReclaim (r.target i).1 (r.target i).2 loc).failStep rec i .record

/-- How a directive failed (R97, R176). -/
inductive DirFailure where
  | answer
  | limit
  | reset
  deriving DecidableEq, Repr

/-- The COPY or PUT of a step failed (R97): a first failure reissues it, a second fails it; LINK_RESET
fails it at once, and so does any failure of a restore that takes up no further step. A restore that pauses
is PAUSED where this was its last directive (R102). DESIGN CHOICE (log entry 59): a PUT step whose source version can
no longer be read (R65) goes back to FETCHING with no entries placed. -/
def State.stepDirectiveFailed (s : State) (rec i : Nat) (why : DirFailure) : State :=
  match s.restore rec with
  | none => s
  | some r =>
    match r.steps[i]? with
    | none => s
    | some t =>
      let s := s.freeAllOf (.step rec i)
      if why = .reset then s.failStep rec i .linkReset
      else if t.reissued = true ∨ r.state = .cancelling ∨ r.state.isActive = false then
        s.failStep rec i .directive
      else if t.state = .issued then
        (s.modStep rec i fun x => { x with reissued := true, state := .waiting, again := true }).afterStep rec
      else
        let s := s.modStep rec i fun x =>
          { x with reissued := true, refetched := [], state := .fetching, marker := false }
        match s.sourceOf r i with
        | some v => (s.askRoom (.step rec i) (fetchEntries rec i r.vol (r.first + i) v) false).afterStep rec
        | none => s.afterStep rec

/-- A fetch of a step was answered (R94, R152); `idx` none is the empty marker. -/
def State.stepFetched (s : State) (rec i : Nat) (idx : Option Nat) (a : ChunkAnswer) : State :=
  match s.restore rec with
  | none => s
  | some r =>
    match r.steps[i]?, idx, a with
    | some _, none, .equal => s.modStep rec i fun x => { x with marker := true }
    | some _, some _, .equal => s
    | some t, some k, .differs =>
      if t.refetched.contains k then s.failStep rec i .code
      else
        match s.sourceOf r i with
        | some v =>
          ((s.leavePlaces (.step rec i)).modStep rec i fun x =>
            { x with refetched := sortNat (k :: x.refetched) }).askRoom
            (.step rec i) ((fetchEntries rec i r.vol (r.first + i) v).filter fun e => decide (e.idx = some k))
            true
        | none => s.failStep rec i .code
    | some _, none, .differs => s.failStep rec i .fetchNone
    | some _, _, .absent => s.failStep rec i .fetchNone
    | none, _, _ => s

/-! ### Cancelling and the operating states -/

/-- Restore Cancel of a record (R99): the reply status and the state after it. DESIGN CHOICE (log entry 54): a
COPY that a first failure returned to WAITING (R97) no longer counts as in flight when its restore is
cancelled, or fails by another step: it is WAITING and is not taken up again. -/
def State.cancelRestore (s : State) (rec : Nat) : Status × State :=
  match s.restore rec with
  | none => (.range, s)
  | some r =>
    let waits := r.indexes fun t => decide (t.state = .waiting)
    let giveUp := fun (s : State) => waits.foldl (fun s i =>
      ((s.modStep rec i fun t => { t with again := false }).dropStep rec i).unlockStep rec i) s
    match r.state with
    | .planned => (.done, (giveUp s).becomeCancelled rec)
    | .paused =>
      if r.inFlight = 0 then (.done, (giveUp s).becomeCancelled rec)
      else (.accepted, ((giveUp s).modRestore rec fun r => { r with state := .cancelling }).afterStep rec)
    | .running =>
      (.accepted, ((giveUp s).modRestore rec fun r =>
        { r with state := .cancelling, pausing := false }).afterStep rec)
    | .cancelling => (.accepted, s)
    | .done => (.done, s)
    | .donePartial => (.done, s)
    | .failed => (.done, s)
    | .cancelled => (.done, s)

/-- The Restore Engine's Standby Enter (R102): RUNNING restores pause, at once or when no COPY or PUT of
theirs is outstanding, and WAITING steps no longer wait for room or a place. A PUT issued from now on, in the
drain, holds no restore back. -/
def State.pauseRestores (s : State) : State :=
  let s := (s.modOff fun o => { o with roomWaits := o.roomWaits.filter fun w => !w.takeUp })
  s.rst.table.foldl (fun s kr =>
    if kr.2.state = .running then
      let waits := kr.2.indexes fun t => decide (t.state = .waiting)
      let s := waits.foldl (fun s i => s.leavePlaces (.step kr.1 i)) s
      (s.modRestore kr.1 fun r =>
        { r with pausing := true, steps := r.steps.map fun t => { t with inPause := false } }).afterStep kr.1
    else s) s

/-- The Restore Engine's Standby Exit (R102). -/
def State.resumeRestores (s : State) : State :=
  s.rst.table.foldl (fun s kr =>
    if kr.2.state = .paused ∨ kr.2.state = .running then
      (s.modRestore kr.1 fun r => { r with state := .running, pausing := false }).afterStep kr.1
    else s) s

/-- The Restore Engine is quiet (R102): no restore is RUNNING and no COPY or PUT is outstanding. -/
def State.restoresQuiet (s : State) : Bool :=
  !(s.rst.table.any fun kr => decide (kr.2.state = .running)) &&
    !(allLinks.any fun l => (s.link l).directives.any fun d =>
      decide (d.kind = .copy) || decide (d.kind = .put))

/-! ### Double errors -/

/-- A principal made unsettled by a double error (R20), with the counts of its parents. -/
def State.makeUnsettled (s : State) (id : Nat) : State :=
  match s.prin id with
  | none => s
  | some p =>
    let was := s.isUnsettled id
    let s := s.modPrin id fun p => { p with unsettled := true }
    let s := { s with
      tally.writes := mapIf (fun w => w.id == id) (fun w => { w with settles := false }) s.tally.writes }
    if p.kind = .person then
      if was then s else (p.course.toList ++ p.dept.toList).foldl State.memberUnsettled s
    else s.beginRecount id

/-- Every POOL record made unsettled, where a parent field could not be read (R20). -/
def State.unsettlePools (s : State) : State :=
  (s.tally.principals.filter fun kp => decide (kp.2.kind = .pool)).foldl
    (fun s kp => ((s.modPrin kp.1 fun p => { p with unsettled := true }).beginRecount kp.1).recompute kp.1) s

/-- A duplicated field lost in both copies: the value R20 gives, or a free value (log entry 10). An id is rewritten as
the one under which the record was read, which STORE_ERROR names (DEDUCED, log entry 63). -/
def loseDup (x : Nat) (f : DupField) (p : Principal) : Principal :=
  match f with
  | .id => p
  | .kind => { p with kind := if x % 2 = 0 then .person else .pool }
  | .cls => { p with cls := 0 }
  | .course => { p with course := none }
  | .dept => { p with dept := none }
  | .soft => { p with soft := none }
  | .hard => { p with hard := none }
  | .grace => { p with grace :=
      match x % 3 with
      | 0 => .within
      | 1 => .grace (x / 3) false
      | _ => .expired }
  | .frozen => p

/-- A field stored once lost (R20): the value the rule takes for it. DESIGN CHOICE (log entry 52): R20 names
none for the marker, which is taken as set exactly where the tally stands unwritten in a dirty line or a
castout buffer entry (R11); and of a pool's two counts, only the one whose word is lost is taken as 0. -/
def State.loseLone (s : State) (id : Nat) (f : LoneField) (p : Principal) : Principal :=
  match f with
  | .unsettled => p
  | .marker => { p with marker := s.unwritten id }
  | .active => { p with active :=
      (s.rst.table.filter fun kr => kr.2.state.isActive && kr.2.principal == id).length }
  | .members => { p with members := 0 }
  | .unsettledMembers => { p with unsettledMembers := 0 }

/-- The end of R20: the principal is frozen and unsettled, its record rewritten, grace evaluated where its
tally or its soft limit has changed (R36), STORE_ERROR raised, and the operations over it are computed
anew. -/
def State.endPrincipalError (s : State) (id : Nat) (changed : Bool) : State :=
  let s := (s.modPrin id fun p => { p with frozen := true }).makeUnsettled id
  let s := if changed then s.evalGrace id else s
  ((s.raise (.storeError (.principal id))).recompute id).advance

/-- The outstanding SHIP frame whose chunk stands in a slot becomes vacant (R115, R143). -/
def State.vacate (s : State) (n : Nat) : State :=
  s.modOff fun o =>
    { o with
      outstanding := mapIf (fun f => match f.body with
        | .ship num _ _ _ _ _ _ => (match s.entry num with
          | some e => decide (e.slot = some n)
          | none => false)
        | _ => false) (fun f => { f with vacant := true }) o.outstanding }

/-- A double error as its owner handles it (Table 11-4); an error named in a record that does not exist
is none. A slot's error is handled by class (R115). DESIGN CHOICE (log entry 58): a field lost in both copies leaves
used and reserved as the line, the castout entry and the record have them; R20 gives it the effect of an error in
used or reserved, and does not say whether their values are taken too. -/
def State.meet (s : State) (e : StoreError) : State :=
  match e with
  | .layout => s.halt .layout
  | .settings => s.halt .settings
  | .catalogue => s.halt .catalogue
  | .principalOneCopy _ _ => s
  | .principalTally id =>
    (match s.prin id with
     | none => s
     | some _ =>
       let known := (match s.line id with
         | some x => !x.filling
         | none => false) || (s.castoutOf id).isSome
       let c := if known then s.current id else (0, 0)
       (s.storeClean id c.1 c.2).endPrincipalError id (decide (s.current id ≠ c)))
  | .principalBoth id f =>
    (match s.prin id with
     | none => s
     | some p =>
       let (x, s) := s.draw
       let s := if f = .grace then s.leaveGraceQueue id else s
       let s := s.modPrin id (loseDup x f)
       let s := if f = .course ∨ f = .dept then s.unsettlePools else s
       s.endPrincipalError id (decide (f = .soft) && p.soft.isSome))
  | .principalOther id f =>
    (match s.prin id with
     | none => s
     | some _ => (s.modPrin id (s.loseLone id f)).endPrincipalError id false)
  | .extentRecord vol ext lost =>
    if s.cat.attaching.any fun a => a.vol == vol then s.halt .catalogue
    else
      (match s.volume vol with
       | some v => if ext < v.count then (s.damageExtent vol ext lost).settlePatrol else s
       | none => s)
  | .attachRecord vol => if s.cat.attaching.any fun a => a.vol == vol then s.halt .catalogue else s
  | .restoreOneCopy _ => s
  | .restoreBoth rec readable => (s.storeFail rec readable).advance.settle
  | .restoreStep rec _ readable => (s.storeFail rec readable).advance.settle
  | .slot n =>
    (match s.slot n with
     | none => s
     | some x =>
       if x.cls = .patrol then s
       else
         let s := s.raise (.storeError (.slot n))
         match x.holder with
         | .shipPull _ => (s.vacate n).handBack n
         | .gone _ _ => s.freeSlot n
         | .step rec i => (s.freeSlot n).stepFetched rec i (some x.idx) .differs
         | .repair r => ((s.freeSlot n).repairFetched r x.idx .differs).checkRepair r
         | .verify _ => s)

/-- A step whose reads and writes of table memory may meet double errors: each is handled as its owner
does, and the step proceeds with what they leave unless the part is HALTED (R190, log entry 7). -/
def withErrs (errs : List StoreError) (f : State → State) (s : State) : State :=
  let s := errs.foldl (fun s e => if s.sup.op = .halted then s else s.meet e) s
  if s.sup.op = .halted then s else f s

/-! ### Requests -/

/-- A request that passed R171 arrives (R171 to R173, R182): it makes its link BUSY; in LOADING and
HOLDUP it is answered WRONG_STATE, with a full queue BUSY, and otherwise it takes an entry, under
whose number its owning block takes it. A CONSOLE-only request from a FILESERVER link is answered
NOT_PERMITTED before its owner examines anything. The double errors of the step are met where it looks at
table memory: as the link comes UP (R169), or in the block that takes the request (log entry 57). -/
def request (l : Link) (tag : Nat) (k : ReqKind) (taken consoleOnly : Bool) (errs : List StoreError)
    (body : Nat → State → State) (s : State) : State :=
  let wasUp := (s.link l).up
  withErrs (if wasUp then [] else errs) (fun s =>
    if s.sup.op = .loading ∨ s.sup.op = .holdup then s.replyAtOnce l tag k .wrongState
    else if Config.requestQueueSize ≤ (s.link l).queue.length then s.replyAtOnce l tag k .busy
    else
      let num := s.sup.nextReq
      let s := (s.modSup fun u => { u with nextReq := num + 1 }).modLink l fun r =>
        { r with queue := r.queue ++ [{ num := num, tag := tag, kind := k, taken := taken, stale := false }] }
      if consoleOnly = true ∧ s.role l = .fileserver then s.reply l num .notPermitted .none
      else withErrs (if wasUp then errs else []) (body num) s) ((s.arrive l).busy l)

end Sys2Proof.Machine
end

