-- ==== Sys2Proof/Machine/Pulls.lean ====
section
/-! DEFINITION. Pulls and their chunks: data placed in slots (R110, R113), withheld chunks (R129), the end
of a shipping pull (R114, R128), and the end of any directive told to its issuer (R175, R176, R181). -/

namespace Sys2Proof.Machine

/-! ### Chunks of a shipping pull -/

/-- The entry that a pull has in state PULLING for a chunk index (Table 7-2). -/
def State.pullEntry (s : State) (p : ShipPull) (idx : Nat) : Option ShipEntry :=
  s.off.queue.find? fun e => decide (e.state = .pulling p.n) && decide (e.chunks = [idx])

/-- The version of a pull is UNREPAIRABLE, so that its entries leave when the pull ends (R129). -/
def State.pullLost (s : State) (p : ShipPull) : Bool :=
  match (s.extent p.vol p.ext).version p.birth with
  | some v => decide (v.repair = .unrepairable)
  | none => false

/-- A chunk of a shipping pull compared equal is told to the fold table (R161). -/
def State.foldEqual (s : State) (p : ShipPull) (idx : Nat) : State :=
  s.modPat fun q =>
    { q with
      folds := mapIf (fun f => f.vol == p.vol && f.ext == p.ext && f.birth == p.birth)
        (fun f => { f with equal := distinctNat (idx :: f.equal) }) q.folds }

/-- A mismatch reported to the Patrol Unit: a fold entry of the version ends, and the chunk's repair is
requested (R129, R161, R163). -/
def State.reportMismatch (s : State) (p : ShipPull) (idx : Nat) : State :=
  (s.modPat fun q =>
    { q with
      folds := q.folds.filter fun f => !(f.vol == p.vol && f.ext == p.ext && f.birth == p.birth) }).requestRepair
    { vol := p.vol, ext := p.ext, birth := p.birth, loc := p.loc, idxs := [idx], whole := false }

/-- A shipped chunk withheld (R129): its entry and the UNPULLED entries of its version become PARKED, and
the Patrol Unit is told. An entry of an ending night, or of an UNREPAIRABLE version, stays with its
pull (R120, R129). -/
def State.withhold (s : State) (p : ShipPull) (e : ShipEntry) : State :=
  let idx := e.chunks.headD 0
  if s.nightEnding || s.pullLost p then s.reportMismatch p idx
  else
    let s := (s.modEntry e.num fun x => { x with state := .parked, slot := none }).cancelRuns
      fun q => q.isOf p.vol p.ext p.birth
    (s.modOff fun o =>
      { o with
        queue := mapIf (fun x => x.isOf p.vol p.ext p.birth && decide (x.state = .unpulled))
          (fun x => { x with state := .parked }) o.queue }).reportMismatch p idx

/-- A chunk compared equal (R110, R128). In an ending night its slot is freed and the entry leaves with its pull
(R120). Where the link began to close for Standby or Clear while its pull was in flight, the slot is freed whenever
the chunk completes, and the entry goes back to UNPULLED, unless the version is UNREPAIRABLE: then it stays with its
pull, whose end covers it (R111, R129, R136). -/
def State.shipEqual (s : State) (p : ShipPull) (e : ShipEntry) (n : Nat) : State :=
  if s.nightEnding then s.freeSlot n
  else if s.sup.op = .standby ∨ p.cut = true then
    if s.pullLost p then s.freeSlot n
    else (s.freeSlot n).modEntry e.num fun x => { x with state := .unpulled }
  else if s.pullLost p then
    ((s.makeFull n).modEntry e.num fun x => { x with slot := some n }).takeBack
  else ((s.makeFull n).modEntry e.num fun x => { x with state := .ready, slot := some n }).takeBack

/-- EXTENT_DATA of a shipping pull (R110): a chunk for which the pull holds no FILLING slot is
discarded. -/
def State.shipChunk (s : State) (num idx : Nat) (data : List Byte) : State :=
  match s.off.pulls.find? fun p => p.n == num, s.slotFor (.shipPull num) idx with
  | some p, some (n, x) =>
    if x.state ≠ .filling then s
    else
      let s := s.fill n data
      let same := decide (checkCode data = x.expected)
      let s := if same then s.foldEqual p idx else s
      match s.pullEntry p idx with
      | none => s.freeSlot n
      | some e => if same then s.shipEqual p e n else (s.freeSlot n).withhold p e
  | _, _ => s

/-- EXTENT_DATA of a verifying pull (R113): an index still awaited is compared, and the slot is readied
for the next chunk. -/
def State.verifyChunk (s : State) (i idx : Nat) (data : List Byte) : State :=
  match s.item i with
  | none => s
  | some w =>
    if w.state ≠ .issued ∨ 16 ≤ idx ∨ w.received.contains idx = true then s
    else
      let same := decide (w.codes[idx]? = some (checkCode data))
      let s := s.modItem i fun x =>
        { x with
          received := sortNat (idx :: x.received)
          differed := if same then x.differed else sortNat (idx :: x.differed) }
      { s with
        str.slots := (s.str.slots.map fun kv =>
          if kv.2.holder = .verify i then (kv.1, { kv.2 with data := data, idx := idx, computed := crcInit })
          else kv) }

/-! ### The end of a shipping pull -/

/-- A chunk reported not received at the end of its pull (R128). -/
def State.notReceived (s : State) (p : ShipPull) (cause : PullCause) (e : ShipEntry) : State :=
  match cause with
  | .reset => s.modEntry e.num fun x => { x with state := .unpulled, slot := none }
  | _ =>
    if e.failMark then s.withhold p e
    else s.modEntry e.num fun x => { x with state := .unpulled, slot := none, failMark := true }

/-- The end of a shipping pull (R114, R128): its FILLING slots are freed, and each chunk not received is
handled by the cause. In an ending night its entries leave (R120), and those of an UNREPAIRABLE version,
or of one that the handling of a chunk makes so, are covered by its DAMAGED entry (R129). DESIGN CHOICE (log entry
60): several chunks not received are handled in the order of their entries in the queue; R128 gives none. -/
def State.pullEnded (s : State) (num : Nat) (cause : PullCause) : State :=
  match s.off.pulls.find? fun p => p.n == num with
  | none => s
  | some p =>
    let s := s.freeSlotsIf fun x => decide (x.holder = .shipPull num) && decide (x.state = .filling)
    let mine := fun (e : ShipEntry) => decide (e.state = .pulling num)
    let left := s.off.queue.filter mine
    let s :=
      if s.nightEnding then
        (s.freeEntrySlots left).modOff fun o => { o with queue := o.queue.filter fun e => !(mine e) }
      else
        let s := left.foldl (fun s e => if s.pullLost p then s else s.notReceived p cause e) s
        if s.pullLost p then s.damageEntries p.vol p.ext p.birth mine else s
    s.modOff fun o => { o with pulls := o.pulls.filter fun x => x.n != num }

/-! ### The end of a directive -/

/-- An issuer told that its directive failed (R97, R114, R128, R162, R165, R176). -/
def State.tellFailure (s : State) (who : Issuer) (cause : PullCause) : State :=
  match who with
  | .orphan => s
  | .step rec i =>
    s.stepDirectiveFailed rec i (match cause with
      | .reset => .reset
      | .limit => .limit
      | _ => .answer)
  | .shipPull n => s.pullEnded n cause
  | .verify n => s.verifyEnded n cause
  | .repair rec idx => s.fixEnded rec idx false

/-- A directive ended without success: its entry leaves the list, the references it raised are lowered
(R58), and its issuer is told. -/
def State.failDirective (s : State) (l : Link) (d : Directive) (cause : PullCause) : State :=
  (((s.endDirective l d.tag).freeAllOf (.gone l d.tag)).decRefs d.refs).tellFailure d.issuer cause

/-! ### Link reset -/

/-- The part of a link reset that the link's own record shows (R181). `keepUp` for a Reset request. -/
def LinkRec.reset (keepUp : Bool) (r : LinkRec) : LinkRec :=
  { r with
    up := r.up && keepUp, idle := false, badRun := 0
    queue := (r.queue.filter ReqEntry.taken).map fun e => { e with stale := true }
    notices := [], tx := [], delivered := [], cursor := none, hold := none }

/-- A link reset (R181): requests not yet taken, notices and waiting frames are discarded; the sent
flags of the link's cut dues are cleared (R74); every outstanding directive has failed with
LINK_RESET, and leaves the list as its issuer is told. The caller's blocks then settle. -/
def State.resetLink (s : State) (l : Link) (keepUp : Bool) : State :=
  let ds := (s.link l).directives
  let s := (s.modLink l (·.reset keepUp)).modLink l fun r => { r with idleFrom := s.sup.elapsed }
  let s := s.modRst fun e => { e with waiting := e.waiting.filter fun q => decide (q.link ≠ l) }
  let s := s.unsendDues l
  let s := ds.foldl (fun s d => s.failDirective l d .reset) s
  if keepUp then s.sendDues l else s

/-- What a step brings about in blocks beside its own: the Tally Unit's operations go on, and patrol and
offsite link settle. A part that has become HALTED does nothing more (R190). -/
def State.finish (s : State) : State := if s.sup.op = .halted then s else s.advance.settle

end Sys2Proof.Machine
end

