-- ==== Sys2Proof/Machine/Links.lean ====
section
/-! DEFINITION. The commands of the server links: loss of signal, discarded and unfit frames, transmission,
the idle time, the directive wait limit, Subscribe and Reset (R159, R169 to R181). -/

namespace Sys2Proof.Machine

/-! ### Loss of framing and arriving frames that no block takes -/

/-- SERIAL_LOSS_OF_SIGNAL (R169): an UP link goes DOWN and is reset. -/
def execSerialLossOfSignal (l : Link) (s : State) (errs : List StoreError := []) :
    Host.Outcome State Fault Refusal :=
  act (withErrs errs fun s => if (s.link l).up then (s.resetLink l false).finish else s) s

/-- A frame discarded (R171): the discarded count rises. -/
def State.countDiscard (s : State) (l : Link) : State :=
  s.modLink l fun r => { r with discarded := r.discarded + 1 }

/-- A frame discarded for bad sync or bad check code: the fourth in a row takes an UP link DOWN (R169). -/
def State.badFrame (s : State) (l : Link) : State :=
  let s := (s.countDiscard l).modLink l fun r => { r with badRun := r.badRun + 1 }
  if (s.link l).up = true ∧ 4 ≤ (s.link l).badRun then s.resetLink l false else s

/-- FRAME_DISCARD (R171). A frame of correct sync and check code that is discarded for its length, its flags
or its unfit body brings a DOWN link UP (R169). DESIGN CHOICE (log entry 57): a frame too long whose check code
does not match either counts as one discarded for a bad check code. -/
def execFrameDiscard (l : Link) (frame : List Byte) (s : State) (errs : List StoreError := []) :
    Host.Outcome State Fault Refusal :=
  act (fun s =>
    match parseFrame frame with
    | .badSync => withErrs errs (fun s => (s.badFrame l).finish) s
    | .badCode => withErrs errs (fun s => (s.badFrame l).finish) s
    | .badLength false => withErrs errs (fun s => (s.badFrame l).finish) s
    | .badLength true => withErrs errs (fun s => (s.countDiscard l).finish) (s.arrive l)
    | .good f =>
      match f.classify with
      | .badFlags => withErrs errs (fun s => (s.countDiscard l).finish) (s.arrive l)
      | .answer false => withErrs errs (fun s => (s.countDiscard l).finish) (s.arrive l)
      | .answer true => s
      | .request _ => s) s

/-- The request kinds (Table 10-2). -/
def ReqKind.all : List ReqKind :=
  [.admitReq, .release, .settle, .principalCreate, .principalEdit, .principalDelete, .freeze, .commit,
   .cut, .expireLocal, .expireOffsite, .volumeAttach, .volumeDetach, .restore, .restoreCancel,
   .restoreStatus, .windowOpen, .windowClose, .scopeSet, .offsiteOpen, .query, .tableRead, .tableNext,
   .settingWrite, .holdBegin, .holdRelease, .holdAbandon, .standbyEnter, .standbyExit, .timeSet,
   .statusQuery, .statusClear, .subscribe, .clear, .reset]

/-- The request kind of a kind code. -/
def ReqKind.ofCode (c : Nat) : ReqKind := (ReqKind.all.find? fun k => k.code == c).getD (.other c)

/-- UNKNOWN_REQUEST (R171): a request whose kind or body does not fit is answered MALFORMED with its
tag, and has no other effect. Its arrival makes its link BUSY (R159, log entry 13). -/
def execUnknownRequest (l : Link) (frame : List Byte) (s : State) (errs : List StoreError := []) :
    Host.Outcome State Fault Refusal :=
  act (fun s =>
    match parseFrame frame with
    | .good f =>
      (match f.classify with
       | .request false =>
         withErrs errs (fun s => (s.replyAtOnce l f.tag (ReqKind.ofCode f.kind) .malformed).finish) ((s.arrive l).busy l)
       | _ => s)
    | _ => s) s

/-! ### Transmission -/

/-- The issuer whose directive carries the data of a slot (R112). -/
def issuerOf (x : Slot) (who : Issuer) : Bool :=
  match x.holder, who with
  | .step r i, .step r' i' => r == r' && i == i'
  | .repair r, .repair r' _ => r == r'
  | _, _ => false

/-- A directive carries the data of a slot (R112, R165); the transfer of a `gone` slot was given up while a
directive still reads it (R105). -/
def State.carries (s : State) (l : Link) (x : Slot) (d : Directive) : Bool :=
  match x.holder, d.issuer with
  | .gone k t, _ => l == k && d.tag == t
  | .repair _, .repair r i =>
    issuerOf x d.issuer && (match s.repair r with
      | some k => k.whole || i == x.idx
      | none => i == x.idx)
  | _, _ => issuerOf x d.issuer

/-- The outstanding directive that carries the data of a SENDING slot, with its link. -/
def State.carrier (s : State) (x : Slot) : Option (Link × Directive) :=
  allLinks.findSome? fun l => ((s.link l).directives.find? (s.carries l x)).map fun d => (l, d)

/-- A directive withdrawn because data of it cannot be read (R115): its entry and its waiting frames go,
its references are lowered, and the slots it carried are FULL again; those of a transfer given up are freed. -/
def State.recall (s : State) (l : Link) (d : Directive) : State :=
  let carried := fun (x : Slot) => s.carries l x d
  let s := ((s.endDirective l d.tag).freeAllOf (.gone l d.tag)).modLink l fun r =>
    { r with tx := r.tx.filter fun f => match f with
        | .directive t _ => t != d.tag
        | _ => true }
  let s := s.decRefs d.refs
  let unsend := fun (kv : Nat × Slot) =>
    if carried kv.2 = true ∧ kv.2.state = .sending then (kv.1, { kv.2 with state := .full }) else kv
  let s := { s with str.slots := s.str.slots.map unsend }
  match d.issuer with
  | .step rec i => s.modStep rec i fun t => { t with state := .fetching }
  | .repair n idx => s.modRepair n fun r =>
      { r with
        chunks := mapIf (fun c => (r.whole || c.idx == idx) && decide (c.progress = .fixing))
          (fun c => { c with progress := .fetched }) r.chunks }
  | _ => s

/-- A double error met on reading a slot whose data is being transmitted (R115): its directive is
withdrawn before the slot's error is handled; a step of a restore that has finished fails instead of
being fetched again. Where the transfer was given up, its other slots go with the directive. -/
def State.meetSlot (s : State) (e : StoreError) : State :=
  match e with
  | .slot n =>
    (match s.slot n with
     | some x =>
       (match x.state, s.carrier x with
        | .sending, some (l, d) =>
          (match x.holder with
           | .gone _ _ => (s.meet e).recall l d
           | .step rec i =>
             let s := (s.recall l d).meet e
             (match s.restore rec with
              | some r => if r.state.isActive then s else s.failStep rec i .code
              | none => s)
           | _ => (s.recall l d).meet e)
        | _, _ => s.meet e)
     | none => s)
  | _ => s.meet e

/-- The next frame of an UP link transmitted (R174): the head of the replies, directives and CHUNK_DATA
frames, or else the head notice. -/
def State.transmit (s : State) (l : Link) : State :=
  if (s.link l).up = false then s
  else
    match (s.link l).tx with
    | f :: t =>
      let s := s.modLink l fun r => { r with tx := t }
      (match f with
       | .reply tag k st b => s.send (.link l (.reply tag k st b))
       | .directive tag b => s.send (.link l (.directive tag b))
       | .chunk tag idx n =>
         s.send (.link l (.chunk tag idx (match s.slot n with
           | some x => x.data
           | none => []))))
    | [] =>
      match (s.link l).notices with
      | n :: t => (s.modLink l fun r => { r with notices := t }).send (.link l (.notice n))
      | [] => s

/-- In HALTED, the STORE_ERROR notice of the halt and nothing else (R182, R190). -/
def State.transmitHalted (s : State) (l : Link) : State :=
  match (s.link l).haltNotice with
  | some n => (s.modLink l fun r => { r with haltNotice := none }).send (.link l (.notice n))
  | none => s

/-- LINK_TRANSMIT (R174). The double errors that reading a slot meets are handled first (R115). -/
def execLinkTransmit (l : Link) (errs : List StoreError) (s : State) : Host.Outcome State Fault Refusal :=
  if s.sup.op = .halted then .next ({ s with sent := [] }.transmitHalted l)
  else
    act (fun s =>
      let s := errs.foldl (fun s e => if s.sup.op = .halted then s else s.meetSlot e) s
      if s.sup.op = .halted then s else (s.transmit l).finish) s

/-! ### The idle time and the directive wait limit -/

/-- The conditions on which an UP link becomes IDLE (R159). -/
def State.mayIdle (s : State) (l : Link) : Bool :=
  let r := s.link l
  r.up && !r.idle && r.queue.isEmpty && r.directives.isEmpty &&
    decide (r.idleFrom + s.sup.settings.idleTime ≤ s.sup.elapsed)

/-- LINK_IDLE (R159): the decisions of the link's items are made again (R158). -/
def execLinkIdle (l : Link) (s : State) (errs : List StoreError := []) : Host.Outcome State Fault Refusal :=
  act (withErrs errs fun s =>
    if s.mayIdle l then (s.modLink l fun r => { r with idle := true }).finish else s) s

/-- DIRECTIVE_WAIT_EXPIRY (R176). -/
def execDirectiveWaitExpiry (l : Link) (tag : Nat) (s : State) (errs : List StoreError := []) :
    Host.Outcome State Fault Refusal :=
  act (withErrs errs fun s =>
    match s.directive l tag with
    | some d =>
      if d.issued + d.limit ≤ s.sup.elapsed then (s.failDirective l d .limit).finish else s
    | none => s) s

/-! ### Subscribe and Reset -/

/-- The start-up notices of newly subscribed classes queued to a link, and the classes delivered
(R178). -/
def State.deliverStartup (s : State) (l : Link) (classes : List Nat) : State :=
  let fresh := classes.filter fun c => !((s.link l).delivered.contains c)
  let s := (s.sup.startup.filter fun n => fresh.contains n.body.cls).foldl (fun s n =>
    if s.receives n.body l then s.modLink l (·.queueNotice n) else s) s
  s.modLink l fun r => { r with delivered := distinctNat (r.delivered ++ fresh) }

/-- SUBSCRIBE (R177, R178). -/
def execSubscribe (l : Link) (tag : Nat) (classes : List Nat) (s : State) (errs : List StoreError := []) :
    Host.Outcome State Fault Refusal :=
  act (fun s =>
    (request l tag .subscribe true false errs (fun q s =>
      if classes.any fun c => decide (10 < c) then s.reply l q .range .none
      else
        ((s.modLink l fun r => { r with subs := distinctNat classes }).deliverStartup l
          (distinctNat classes)).reply l q .done .none) s).finish) s

/-- RESET (R181): a link reset of its link, with no reply. -/
def execReset (l : Link) (tag : Nat) (s : State) (errs : List StoreError := []) :
    Host.Outcome State Fault Refusal :=
  act (fun s =>
    (request l tag .reset true false errs (fun q s =>
      (s.modLink l fun r => { r with queue := r.queue.filter fun e => e.num != q }).resetLink l true) s).finish) s

end Sys2Proof.Machine
end

