-- ==== Sys2Proof/Machine/Tally.lean ====
section
/-! DEFINITION. The commands of the Tally Unit (R4 to R8, R9 to R13, R15 to R19, R24 to R34, R38). -/

namespace Sys2Proof.Machine

/-- The record of a person, if the id names one (R15, R18, R24). -/
def State.isPerson (s : State) (id : Nat) : Bool :=
  match s.prin id with
  | some p => decide (p.kind = .person)
  | none => false

/-- The operation of a number is ready to be run by its own step, and of a job that `p` accepts. -/
def State.isReady (s : State) (num : Nat) (p : Job → Bool) : Bool :=
  match s.op num with
  | some o => decide (o.stage = .ready) && p o.job
  | none => false

/-! ### Admit -/

/-- ADMIT (R24, R25): the checks; an Admit that passes waits for postings, recounts and lines. DESIGN CHOICE (log
entry 58): one that is out of range and names no person is answered RANGE; R24 states no order of its checks. -/
def execAdmit (l : Link) (tag principal n q : Nat) (partialOk : Bool) (s : State)
    (errs : List StoreError := []) : Host.Outcome State Fault Refusal :=
  act (fun s =>
    (request l tag .admitReq true false errs (fun r s =>
      if n < 1 ∨ 16777215 < n ∨ q < 1 ∨ 1024 < q then s.reply l r .range (.admitReq 0 0 0)
      else if s.isPerson principal = false then s.reply l r .unknownPrincipal (.admitReq 0 0 0)
      else s.pushOp (.admitReq l r principal n q partialOk) (s.touchingPostings (s.chain principal))) s).finish) s

/-- The job of an Admit or of a restore's reservation. -/
def Job.computes : Job → Bool
  | .admitReq _ _ _ _ _ _ => true
  | .reserve _ _ => true
  | _ => false

/-- ADMISSION_CALCULATION (R25 to R30, R32): stages 1 to 7 for an operation whose lines are held. -/
def execAdmissionCalculation (op : Nat) (errs : List StoreError) (s : State) :
    Host.Outcome State Fault Refusal :=
  act (withErrs errs fun s => if s.isReady op Job.computes then (s.calculate op).finish else s) s

/-- ADMIT_REPLY (R31): stage 8, when every write of the operation has ended. -/
def execAdmitReply (op : Nat) (s : State) (errs : List StoreError := []) : Host.Outcome State Fault Refusal :=
  act (withErrs errs fun s =>
    match s.op op with
    | none => s
    | some o =>
      match o.job, o.stage, o.outcome with
      | .admitReq l r _ _ _ _, .finished, some a =>
        ((s.dropOp op).reply l r a.status (.admitReq a.granted a.headroom a.limiting)).finish
      | _, _, _ => s) s

/-! ### Reads and writes of table memory that end -/

/-- TALLY_FILL_READ_END (R9): the line holds the stored tally, clean. -/
def execTallyFillReadEnd (principal : Nat) (errs : List StoreError) (s : State) :
    Host.Outcome State Fault Refusal :=
  act (withErrs errs fun s =>
    match s.line principal, s.prin principal with
    | some x, some _ =>
      if x.filling then
        (s.putLine { x with
          used := (s.stored principal).1, reserved := (s.stored principal).2, dUsed := 0, dReserved := 0, dirty := false
          filling := false }).finish
      else s
    | _, _ => s) s

/-- An operation whose marker writes are under way (R10). -/
def State.isMarking (s : State) (num : Nat) : Bool :=
  match s.op num with
  | some o => decide (o.stage = .marking)
  | none => false

/-- A ready operation run by its own step. -/
def State.proceed (s : State) (num : Nat) : State :=
  if s.isReady num Job.computes then s.calculate num else s.runOp num

/-- MARKER_WRITE_END (R10): the markers stand in the stored records, and the operation's changes are
applied. Where a double error in a record of its chain is met on the way, the operation proceeds with the
values taken, and an Admit is refused FROZEN (R20). -/
def execMarkerWriteEnd (op : Nat) (errs : List StoreError) (s : State) : Host.Outcome State Fault Refusal :=
  act (fun s =>
    let was := s.isMarking op
    withErrs errs (fun s =>
      (if was && s.isReady op (fun _ => true) then s.proceed op else s.endMarking op).finish) s) s

/-- IN_PLACE_WRITE_END (R11, R13, R18). -/
def execInPlaceWriteEnd (principal : Nat) (errs : List StoreError) (s : State) :
    Host.Outcome State Fault Refusal :=
  act (withErrs errs fun s => (s.endInPlace principal).finish) s

/-- The oldest castout buffer entry written and removed (R12). -/
def State.drain (s : State) : State :=
  match s.tally.castout with
  | [] => s
  | c :: _ => s.storeClean c.id c.used c.reserved

/-- CASTOUT_DRAIN (R12). A double error met on the write rewrites the record from the entry, which goes
with it (R20). -/
def execCastoutDrain (errs : List StoreError) (s : State) : Host.Outcome State Fault Refusal :=
  act (fun s =>
    let head := s.tally.castout.head?
    withErrs errs (fun s => (if s.tally.castout.head? = head then s.drain else s).finish) s) s

/-! ### Release, postings and Settle -/

/-- RELEASE (R15): queued and answered ACCEPTED, or with a full queue an operation of its own. DESIGN CHOICE (log
entry 58): its checks are made in the order in which R15 names them. -/
def execRelease (l : Link) (tag principal blocks : Nat) (s : State) (errs : List StoreError := []) :
    Host.Outcome State Fault Refusal :=
  act (fun s =>
    (request l tag .release true false errs (fun r s =>
      if blocks < 1 ∨ 16777215 < blocks then s.reply l r .range .none
      else if s.isPerson principal = false then s.reply l r .unknownPrincipal .none
      else if s.tally.postings.length < Config.postingQueueSize then
        ({ s with
          tally.postings := s.tally.postings ++
            [{ num := s.tally.nextPosting, principal := principal, blocks := blocks, link := l }]
          tally.nextPosting := s.tally.nextPosting + 1 } : State).reply l r .accepted .none
      else s.pushOp (.release l r principal blocks) []) s).finish) s

/-- POSTING_APPLY (R16): the head posting applied, its lines being held. -/
def execPostingApply (s : State) (errs : List StoreError := []) : Host.Outcome State Fault Refusal :=
  act (withErrs errs fun s =>
    match s.postingOp with
    | some n => if s.isReady n (fun _ => true) then (s.runOp n).finish else s
    | none => s) s

/-- SETTLE (R18). DESIGN CHOICE (log entry 58): its checks are made in the order in which R18 names them. -/
def execSettle (l : Link) (tag principal counted : Nat) (s : State) (errs : List StoreError := []) :
    Host.Outcome State Fault Refusal :=
  act (fun s =>
    (request l tag .settle true false errs (fun r s =>
      if s.isPerson principal = false then s.reply l r .unknownPrincipal .none
      else if maxTally < counted then s.reply l r .range .none
      else s.pushOp (.settle l r principal counted) []) s).finish) s

/-! ### Pool Recounts -/

/-- A Pool Recount's walk completes (R19). -/
def State.endRecount (s : State) (pool : Nat) : State :=
  let s := s.lazyExpire pool
  let ms := s.membersOf pool
  let used := (ms.map fun m => (s.current m.1).1).sum
  let reserved := (ms.map fun m => (s.current m.1).2).sum
  let uns := (ms.filter fun m => s.isUnsettled m.1).length
  let s := s.storeClean pool (fitTally used) (fitTally reserved)
  let s := s.modPrin pool fun p =>
    { p with members := ms.length, unsettledMembers := uns, unsettled := decide (uns ≠ 0) }
  { s with tally.recounts := s.tally.recounts.filter (· ≠ pool) }.evalGrace pool

/-- POOL_RECOUNT_END (R19). -/
def execPoolRecountEnd (pool : Nat) (errs : List StoreError) (s : State) : Host.Outcome State Fault Refusal :=
  act (withErrs errs fun s =>
    if s.tally.recounts.contains pool then (s.endRecount pool).finish else s) s

/-! ### Principal records -/

/-- The checks of Principal Create after the first (Table 1-2). -/
def State.createCheck (s : State) (id : Nat) (kind : PrincipalKind) (cls : Nat)
    (course dept soft hard : Option Nat) : Option Status :=
  if id = 0 ∨ 63 < cls ∨ limitFits soft = false ∨ limitFits hard = false ∨
      limitsOrdered soft hard = false then some .range
  else if kind = .pool ∧ (course.isSome ∨ dept.isSome) then some .malformed
  else if (s.prin id).isSome then some .inUse
  else if s.isPool course = false ∨ s.isPool dept = false then some .unknownPrincipal
  else if course.isSome ∧ course = dept then some .range
  else if Config.principalTableSize ≤ s.tally.principals.length then some .noRoom
  else none

/-- The record a create writes (R4). -/
def newPrincipal (kind : PrincipalKind) (cls : Nat) (course dept soft hard : Option Nat) : Principal :=
  { kind := kind, cls := cls, course := course, dept := dept, used := 0, reserved := 0, soft := soft
    hard := hard, grace := .within, frozen := false, unsettled := false, marker := false, active := 0
    members := 0, unsettledMembers := 0 }

/-- PRINCIPAL_CREATE (R4). -/
def execPrincipalCreate (l : Link) (tag id : Nat) (kind : PrincipalKind) (cls : Nat)
    (course dept soft hard : Option Nat) (s : State) (errs : List StoreError := []) :
    Host.Outcome State Fault Refusal :=
  act (fun s =>
    (request l tag .principalCreate true (soft.isSome || hard.isSome || decide (cls ≠ 0))
      errs (fun r s =>
      match s.createCheck id kind cls course dept soft hard with
      | some st => s.reply l r st .none
      | none =>
        let s := (s.setPrin id (newPrincipal kind cls course dept soft hard)).storeTally id 0 0
        let s := (course.toList ++ dept.toList).foldl (fun s pool => s.modMembers pool (· + 1)) s
        s.reply l r .done .none) s).finish) s

/-- A change appended to a link's settings hold and answered ACCEPTED, or HOLD_FULL (R188). -/
def State.stage (s : State) (l : Link) (r : Nat) (held : List Staged) (c : Staged) : State :=
  if Config.holdSize ≤ held.length then s.reply l r .holdFull .none
  else (s.modLink l fun k => { k with hold := some (held ++ [c]) }).reply l r .accepted .none

/-- The changes of an edit to class and limits alone, and to parents alone (R5). -/
def editLimitPart (c : EditChanges) : EditChanges := { c with course := .keep, dept := .keep }
def editMovePart (c : EditChanges) : EditChanges := { c with cls := none, soft := .keep, hard := .keep }

/-- PRINCIPAL_EDIT (R5, R6). With a settings hold open on the link, changes of class and limits are
staged and answered ACCEPTED, and parent changes are applied (R188). -/
def execPrincipalEdit (l : Link) (tag id : Nat) (changes : EditChanges) (s : State)
    (errs : List StoreError := []) : Host.Outcome State Fault Refusal :=
  act (fun s =>
    (request l tag .principalEdit true (editLimits changes) errs (fun r s =>
      match s.editCheck id changes with
      | some st => s.reply l r st .none
      | none =>
        match (s.link l).hold, editLimits changes with
        | some held, true =>
          let t := s.stage l r held (.edit id (editLimitPart changes))
          if editMoves changes = true ∧ held.length < Config.holdSize then
            t.pushOp (.edit l r id (editMovePart changes)) []
          else t
        | _, _ => s.pushOp (.edit l r id changes) []) s).finish) s

/-- PRINCIPAL_DELETE (R8). -/
def execPrincipalDelete (l : Link) (tag id : Nat) (s : State) (errs : List StoreError := []) :
    Host.Outcome State Fault Refusal :=
  act (fun s =>
    (request l tag .principalDelete true false errs (fun r s =>
      match s.deleteCheck id with
      | some st => s.reply l r st .none
      | none => s.pushOp (.delete l r id) []) s).finish) s

/-- FREEZE (R7), staged on a link with an open settings hold (R188). -/
def execFreeze (l : Link) (tag principal : Nat) (frozen : Bool) (s : State) (errs : List StoreError := []) :
    Host.Outcome State Fault Refusal :=
  act (fun s =>
    (request l tag .freeze true true errs (fun r s =>
      if (s.prin principal).isNone then s.reply l r .unknownPrincipal .none
      else
        match (s.link l).hold with
        | some held => s.stage l r held (.freeze principal frozen)
        | none => (s.setFrozen principal frozen).reply l r .done .none) s).finish) s

/-! ### Conversions and releases of reservations -/

/-- The job of a conversion. -/
def Job.converts : Job → Bool
  | .convert _ _ _ _ _ _ => true
  | _ => false

/-- The job of a reservation release. -/
def Job.unreserves : Job → Bool
  | .unreserve _ _ => true
  | _ => false

/-- CONVERSION (R33): the conversion of a step applied, and the step DONE (R96). -/
def execConversion (op : Nat) (errs : List StoreError) (s : State) : Host.Outcome State Fault Refusal :=
  act (withErrs errs fun s => if s.isReady op Job.converts then (s.runOp op).finish else s) s

/-- RESERVATION_RELEASE (R34). -/
def execReservationRelease (op : Nat) (s : State) (errs : List StoreError := []) :
    Host.Outcome State Fault Refusal :=
  act (withErrs errs fun s => if s.isReady op Job.unreserves then (s.runOp op).finish else s) s

/-! ### Grace -/

/-- GRACE_EXPIRY (R38): the head of the Grace Queue expires; in HOLDUP it is deferred (R42). -/
def execGraceExpiry (s : State) (errs : List StoreError := []) : Host.Outcome State Fault Refusal :=
  act (withErrs errs fun s => if s.sup.op = .holdup then s else s.expireHead.finish) s

end Sys2Proof.Machine
end

