-- ==== Sys2Proof/Machine/Volumes.lean ====
section
/-! DEFINITION. The commands of the Catalogue Unit: Commit (R53 to R60), Attach and Detach (R44 to R48),
Cut and the cut dues (R70 to R74), expiry and its sweeps (R77 to R82). -/

namespace Sys2Proof.Machine

/-! ### Commit -/

/-- A repair record of a version that a change rewrote in place is abandoned (R54, R167). -/
def State.abandonRewritten (s : State) (vol ext : Nat) (old : Option Version) : State :=
  match old with
  | some o => s.abandonIf fun k => k.isOf vol ext o.birth
  | none => s

/-- COMMIT (R53 to R57, R60). -/
def execCommit (l : Link) (tag vol ext owner loc occ : Nat) (codes : Option (List Code))
    (errs : List StoreError) (s : State) : Host.Outcome State Fault Refusal :=
  act (fun s =>
    (request l tag .commit true false errs (fun r s =>
      match s.commitCheck (some l) none vol ext owner loc occ codes with
      | some st => s.reply l r st .none
      | none =>
        let old := (s.extent vol ext).live
        let (p, s) := s.commit vol ext owner loc occ codes
        let s := if p.rewrite then s.abandonRewritten vol ext old else s
        let birth := match (s.extent vol ext).live with
          | some v => v.birth
          | none => 0
        s.reply l r .done (.commit birth p.verdict)) s).finish) s

/-! ### Attach and Detach -/

/-- The checks of Volume Attach after the first (Table 3-2), with the base of the span placed. -/
def State.attachCheck (s : State) (vol owner count hourlyKeep nightlyKeep : Nat) : Except Status (Link × Nat) :=
  if s.sup.op ≠ .standby then .error .wrongState
  else if 31 < vol ∨ count < 1 ∨ Config.maxExtents < count ∨ 48 < hourlyKeep ∨ 30 < nightlyKeep then
    .error .range
  else
    match allLinks.find? fun k => k.val == owner with
    | none => .error .range
    | some k =>
      if s.role k = .console then .error .range
      else if (s.volume vol).isSome ∨ (s.cat.attaching.any fun a => a.vol == vol) = true then .error .inUse
      else
        match s.placeSpan count with
        | none => .error .noRoom
        | some base => .ok (k, base)

/-- VOLUME_ATTACH (R45, R46): the span is placed, and the empty records are being written. -/
def execVolumeAttach (l : Link) (tag vol owner count : Nat) (recovery : Bool)
    (hourlyKeep nightlyKeep : Nat) (hourlyCuts nightlyCut : Bool) (errs : List StoreError) (s : State) :
    Host.Outcome State Fault Refusal :=
  act (fun s =>
    (request l tag .volumeAttach true true errs (fun r s =>
      match s.attachCheck vol owner count hourlyKeep nightlyKeep with
      | .error st => s.reply l r st .none
      | .ok (k, base) =>
        let a : Attach :=
          { vol := vol, link := l, req := r, owner := k, count := count, recovery := recovery
            hourlyKeep := hourlyKeep, nightlyKeep := nightlyKeep, hourlyCuts := hourlyCuts
            nightlyCut := nightlyCut, base := base, size := spanSize count }
        { s with cat.attaching := s.cat.attaching ++ [a] }) s).finish) s

/-- The entry that an Attach writes (R47). -/
def Attach.volume (a : Attach) : Volume :=
  { owner := a.owner, count := a.count, recovery := a.recovery, gen := 1, mark := 0
    hourlyKeep := a.hourlyKeep, nightlyKeep := a.nightlyKeep, hourlyCuts := a.hourlyCuts
    nightlyCut := a.nightlyCut, base := a.base, size := a.size, shipCursor := 0, patrolCursor := 0
    damage := [], refTotal := 0 }

/-- The extent records of a volume taken out of the tables. -/
def State.dropExtents (s : State) (vol : Nat) : State :=
  { s with cat.extents := s.cat.extents.filter fun kv => decide (kv.1 / Config.maxExtents ≠ vol) }

/-- ATTACH_COMPLETE (R47). -/
def execAttachComplete (vol : Nat) (errs : List StoreError) (s : State) : Host.Outcome State Fault Refusal :=
  act (withErrs errs fun s =>
    match s.cat.attaching.find? fun a => a.vol == vol with
    | none => s
    | some a =>
      let s := s.dropExtents vol
      let s := { s with
        cat.volumes := tput s.cat.volumes vol a.volume
        cat.attaching := s.cat.attaching.filter fun x => x.vol != vol
        cat.dues := tdel s.cat.dues vol }
      (s.reply a.link a.req .done .none).finish) s

/-- A snapshot's sweep runs or awaits its DROP_ACK (R48, R77). -/
def Snapshot.leaving (p : Snapshot) : Bool :=
  match p.state with
  | .expiring _ => true
  | .dropping _ _ => true
  | _ => false

/-- An active restore names a volume as source or as target (R48). DESIGN CHOICE (log entry 59): a Restore whose
acceptance is in progress has no record yet and is no active restore, so that its target volume may be detached; a
release of its locks then finds none (R62). -/
def State.restoring (s : State) (vol : Nat) : Bool :=
  s.rst.table.any fun kr =>
    kr.2.state.isActive && (kr.2.vol == vol || (decide (kr.2.mode = .recovery) && kr.2.tvol == vol))

/-- The checks of Volume Detach after the first (R48). -/
def State.detachCheck (s : State) (vol : Nat) : Option Status :=
  if s.sup.op ≠ .standby then some .wrongState
  else
    match s.volume vol with
    | none => some .unknownVolume
    | some v =>
      if (s.snapsOf vol).any fun p => decide (0 < p.pins) then some .pinned
      else if s.restoring vol = true ∨ 0 < v.refTotal ∨ (s.snapsOf vol).any Snapshot.leaving = true then
        some .busy
      else none

/-- A repair record discarded with its volume (R48): its entries are withdrawn and its slots freed; an
outstanding fetch of it is answered to nobody. -/
def State.discardRepair (s : State) (n : Nat) : State :=
  let gone := fun (f : OutFrame) =>
    match f.body with
    | .fetch e w => if e.holder = .repair n then
        { f with body := .fetch { e with holder := .repair Config.repairRecords } w } else f
    | _ => f
  let s := (s.abandonRepair n).modOff fun o => { o with outstanding := o.outstanding.map gone }
  s.closeRepair n

/-- What the Offsite Engine and the Patrol Unit discard of a detached volume (R48). DESIGN CHOICE (log entry
54): a SHIP frame of the volume that is still outstanding stays in the list, its entry gone and its slot
freed, until an answer or a fault removes it; R48 names entries and slots alone. -/
def State.forgetVolume (s : State) (vol : Nat) : State :=
  let s := s.cancelRuns fun p => p.vol == vol
  let s := s.freeEntrySlots (s.off.queue.filter fun e => e.vol == vol)
  let s := s.modOff fun o =>
    { o with
      queue := o.queue.filter fun e => e.vol != vol
      plan := o.plan.filter fun p => p.vol != vol
      controls := o.controls.filter fun c => !(c.isDoneOf vol) }
  let s := (s.pat.work.filter fun w => w.vol == vol).foldl (fun s w => s.leaveItem w.n) s
  let s := s.modPat fun p =>
    { p with
      folds := p.folds.filter fun f => f.vol != vol
      waiting := p.waiting.filter fun q => q.vol != vol }
  (s.pat.repairs.filter fun kv => kv.2.vol == vol).foldl (fun s kv => s.discardRepair kv.1) s

/-- Every link's cursor on the Extent Table of a volume, when that volume is detached (R179). -/
def State.dropCursors (s : State) (vol : Nat) : State :=
  allLinks.foldl (fun s l => s.modLink l fun r =>
    { r with
      cursor := r.cursor.map fun c => if c.table = .extents vol then { c with detached := true } else c }) s

/-- A volume's entry written DETACHED, with its snapshots, reclaims and dues gone (R48). -/
def State.detach (s : State) (vol : Nat) : State :=
  let s := ((s.forgetVolume vol).dropExtents vol).dropCursors vol
  { s with
    cat.volumes := tdel s.cat.volumes vol
    cat.snapshots := s.cat.snapshots.filter fun kv => kv.2.vol != vol
    cat.reclaims := s.cat.reclaims.filter fun e => e.vol != vol
    cat.dues := tdel s.cat.dues vol }

/-- VOLUME_DETACH (R48). -/
def execVolumeDetach (l : Link) (tag vol : Nat) (errs : List StoreError) (s : State) :
    Host.Outcome State Fault Refusal :=
  act (fun s =>
    (request l tag .volumeDetach true true errs (fun r s =>
      match s.detachCheck vol with
      | some st => s.reply l r st .none
      | none => (s.detach vol).reply l r .done .none) s).finish) s

/-! ### Cuts and their dues -/

/-- A request from a FILESERVER link that does not own the volume (R70, R77). -/
def State.foreign (s : State) (l : Link) (v : Volume) : Bool :=
  decide (s.role l = .fileserver) && decide (l ≠ v.owner)

/-- The checks of a Cut (Table 4-3). -/
def State.cutCheck (s : State) (l : Link) (vol : Nat) : Option Status :=
  match s.volume vol with
  | none => some .unknownVolume
  | some v =>
    if s.foreign l v then some .notPermitted
    else if maxGeneration ≤ v.gen then some .range
    else if Config.volumeCatalogueSize ≤ (s.snapsOf vol).length ∨
        Config.catalogueSize ≤ s.cat.snapshots.length then some .catalogueFull
    else none

/-- The record a Cut writes (R70). -/
def newSnapshot (vol gen : Nat) (k : SnapKind) (clock : Nat) : Snapshot :=
  { vol := vol, gen := gen, kind := k, cutTime := clock, state := .active, held := false
    restorePins := 0, shipPins := 0, thinned := 0 }

/-- An accepted Cut (R70): the record and the generation are written, the due it answers closes and its
volume joins the plan, and retention is evaluated last. -/
def State.cut (s : State) (vol gen : Nat) (k : SnapKind) : State :=
  let s := { s with
    cat.snapshots := tput s.cat.snapshots (snapKey vol gen) (newSnapshot vol gen k s.sup.clock) }
  let s := s.modVolume vol fun v => { v with gen := gen + 1 }
  let s := match k with
    | .hourly => s.closeDue false vol
    | .nightly =>
      if (s.duesOf vol).nightly.isSome then (s.closeDue true vol).joinPlan vol gen else s
    | .manual => s
  s.retain vol k

/-- CUT (R70, R71, R73). -/
def execCut (l : Link) (tag vol : Nat) (kind : Option SnapKind) (errs : List StoreError) (s : State) :
    Host.Outcome State Fault Refusal :=
  act (fun s =>
    (request l tag .cut true false errs (fun r s =>
      match kind with
      | none => s.reply l r .malformed .none
      | some k =>
        match s.cutCheck l vol, s.volume vol with
        | some st, _ => s.reply l r st .none
        | none, some v => (s.cut vol v.gen k).reply l r .done (.cut v.gen)
        | none, none => s.reply l r .unknownVolume .none) s).finish) s

/-- The clock, counting, has reached a multiple of 3,600 that no opening has been taken for (R72). -/
def State.hourReached (s : State) : Bool :=
  s.sup.clockSet && s.sup.counted && decide (s.sup.clock % 3600 = 0) && !s.sup.hourlyTaken

/-- The part is in STANDBY or ACTIVE. -/
def State.running (s : State) : Bool := decide (s.sup.op = .standby) || decide (s.sup.op = .active)

/-- HOURLY_CUT_DUE_OPEN (R72). -/
def execHourlyCutDueOpen (s : State) (errs : List StoreError := []) : Host.Outcome State Fault Refusal :=
  act (withErrs errs fun s =>
    if s.hourReached && s.running then
      let s := s.modSup fun u => { u with hourlyTaken := true }
      ((s.volumesIf fun v => v.hourlyCuts).foldl (fun s vol => s.openDue false vol) s).finish
    else s) s

/-- CUT_WAIT_EXPIRY (R73); in HOLDUP it waits (R74). -/
def execCutWaitExpiry (vol : Nat) (s : State) (errs : List StoreError := []) :
    Host.Outcome State Fault Refusal :=
  act (withErrs errs fun s => if s.running && s.cutLate vol then (s.missDue vol).finish else s) s

/-! ### Expiry -/

/-- The checks of Expire Local and Expire Offsite (R77, R80). -/
def State.expireCheck (s : State) (l : Link) (vol gen : Nat) : Option Status :=
  match s.volume vol with
  | none => some .unknownVolume
  | some v =>
    if s.foreign l v then some .notPermitted
    else
      match s.snapshot vol gen with
      | none => some .unknownSnapshot
      | some p => if p.leaving then some .busy else if 0 < p.pins then some .pinned else none

/-- EXPIRE_LOCAL (R77). -/
def execExpireLocal (l : Link) (tag vol gen : Nat) (s : State) (errs : List StoreError := []) :
    Host.Outcome State Fault Refusal :=
  act (fun s =>
    (request l tag .expireLocal true false errs (fun r s =>
      match s.expireCheck l vol gen, s.snapshot vol gen with
      | some st, _ => s.reply l r st .none
      | none, some p =>
        if p.state = .active then (s.startExpiry vol gen).reply l r .accepted .none
        else s.reply l r .done .none
      | none, none => s.reply l r .unknownSnapshot .none) s).finish) s

/-- EXPIRE_OFFSITE (R80). -/
def execExpireOffsite (l : Link) (tag vol gen : Nat) (s : State) (errs : List StoreError := []) :
    Host.Outcome State Fault Refusal :=
  act (fun s =>
    (request l tag .expireOffsite true false errs (fun r s =>
      match s.expireCheck l vol gen, s.snapshot vol gen with
      | some st, _ => s.reply l r st .none
      | none, some p =>
        if p.held then
          ((s.modSnapshot vol gen fun p =>
            { p with state := .dropping (decide (p.state = .active)) none }).pendDrop vol gen).reply l r
              .accepted .none
        else s.reply l r .done .none
      | none, none => s.reply l r .unknownSnapshot .none) s).finish) s

/-! ### Sweeps -/

/-- What a sweep's visit does with a version. -/
inductive Fate where
  | keep
  | convert
  | remove
  deriving DecidableEq, Repr

/-- Case 1 of Table 4-4: a snapshot other than the swept one, ACTIVE or to return to ACTIVE, holds the
version. -/
def Snapshot.keepsFrom (p : Snapshot) (gen : Nat) (v : Version) : Bool :=
  decide (p.gen ≠ gen) && v.heldAt p.gen &&
    (match p.state with
     | .active => true
     | .dropping a _ => a
     | _ => false)

/-- Table 4-4: the fate of a version in the expiry sweep of the snapshot of generation `gen`. -/
def State.expiryFate (s : State) (vol gen : Nat) (v : Version) : Fate :=
  if v.death.isNone || !(v.heldAt gen) then .keep
  else if (s.snapsOf vol).any fun p => p.keepsFrom gen v then .keep
  else if (s.snapsOf vol).any fun p => v.heldAt p.gen && (p.held || decide (0 < p.pins)) then
    if v.loc.isSome && v.shipped then .convert else .keep
  else .remove

/-- The fate of a version in the drop sweep of the snapshot of generation `gen` (R81). -/
def State.dropFate (s : State) (vol gen : Nat) (v : Version) : Fate :=
  if v.death.isNone || !(v.heldAt gen) then .keep
  else if (s.snapsOf vol).any fun p =>
      decide (p.gen ≠ gen) && v.heldAt p.gen && (decide (p.state = .active) || p.held || decide (0 < p.pins)) then
    .keep
  else .remove

/-- The version list after a visit, and the Reclaim Table entries it makes (R59, R78). A list that loses
a version also loses its other dead versions that nothing holds (R51). DESIGN CHOICE (log entry 62): a visit that
only turns versions OFFSITE_ONLY removes none of them; R51 does not say whether that is a change to the list. DESIGN
CHOICE (log entry 54): several versions of one visit are disposed of in the order of the version list. -/
def State.sweepList (s : State) (vol ext : Nat) (fate : Version → Fate) (e : Extent) :
    List Version × List Reclaim :=
  let removes := e.versions.any fun v => decide (fate v = .remove)
  let goes := fun (v : Version) =>
    decide (fate v = .remove) || (removes && !(s.stays vol v))
  let stay := e.versions.filter fun v => !(goes v)
  let out := e.versions.flatMap fun v =>
    if goes v || decide (fate v = .convert) then v.reclaim vol ext else []
  (stay.map fun v => if fate v = .convert then { v with res := .offsite } else v, out)

/-- A visit that makes `n` entries may be made now (R59): the table has room and no other sweep waits
ahead. DESIGN CHOICE (log entry 54): a visit waits until the table has room for all of its entries, where
R78 speaks of a full table alone. -/
def State.sweepRoom (s : State) (key n : Nat) : Bool :=
  decide (n = 0) ||
    (decide (s.cat.reclaims.length + n ≤ Config.reclaimTableSize) &&
      (match s.cat.sweepWaits with
       | [] => true
       | k :: _ => k == key))

/-- A sweep begins to wait for the Reclaim Table, unless it waits already (R59). -/
def State.waitSweep (s : State) (key : Nat) : State :=
  if s.cat.sweepWaits.contains key then s
  else { s with cat.sweepWaits := s.cat.sweepWaits ++ [key] }

/-- A sweep no longer waits. -/
def State.leaveSweep (s : State) (key : Nat) : State :=
  { s with cat.sweepWaits := s.cat.sweepWaits.filter (· ≠ key) }

/-- One visit of a sweep to an extent (R78, R81): `none` where it waits for the Reclaim Table. A damaged
record is passed over, and the sweep no longer waits. -/
def State.visit (s : State) (vol gen ext : Nat) (fate : Version → Fate) : Option State :=
  if s.damaged vol ext then some (s.leaveSweep (snapKey vol gen))
  else
    let e := s.extent vol ext
    let out := s.sweepList vol ext fate e
    let key := snapKey vol gen
    if s.sweepRoom key out.2.length then
      let s := s.setExtent vol ext { e with versions := out.1 }
      some ({ s.leaveSweep key with cat.reclaims := (s.leaveSweep key).cat.reclaims ++ out.2 }.flushReclaims)
    else none

/-- The end of an expiry sweep (R79). -/
def State.endExpiry (s : State) (vol gen : Nat) : State :=
  match s.snapshot vol gen with
  | none => s
  | some p =>
    if p.held then s.modSnapshot vol gen fun p => { p with state := .offsiteOnly }
    else { s with cat.snapshots := tdel s.cat.snapshots (snapKey vol gen) }

/-- The next extent of a sweep, or its end. -/
def State.moveExpiry (s : State) (vol gen cursor count : Nat) : State :=
  if cursor + 1 < count then s.modSnapshot vol gen fun p => { p with state := .expiring (cursor + 1) }
  else s.endExpiry vol gen

/-- EXPIRY_SWEEP_VISIT (R78, R79). -/
def execExpirySweepVisit (vol gen : Nat) (errs : List StoreError) (s : State) :
    Host.Outcome State Fault Refusal :=
  act (fun s =>
    if s.running then
      withErrs errs (fun s =>
        match s.volume vol, s.snapshot vol gen with
        | some v, some p =>
          (match p.state with
           | .expiring cursor =>
             (match s.visit vol gen cursor (s.expiryFate vol gen) with
              | some s => (s.moveExpiry vol gen cursor v.count).finish
              | none => s.waitSweep (snapKey vol gen))
           | _ => s)
        | _, _ => s) s
    else s) s

/-- DROP_SWEEP_VISIT (R81). -/
def execDropSweepVisit (vol gen : Nat) (errs : List StoreError) (s : State) :
    Host.Outcome State Fault Refusal :=
  act (fun s =>
    if s.running then
      withErrs errs (fun s =>
        match s.volume vol, s.snapshot vol gen with
        | some v, some p =>
          (match p.state with
           | .dropping a (some cursor) =>
             (match s.visit vol gen cursor (s.dropFate vol gen) with
              | some s =>
                (if cursor + 1 < v.count then
                  s.modSnapshot vol gen fun p => { p with state := .dropping a (some (cursor + 1)) }
                else { s with cat.snapshots := tdel s.cat.snapshots (snapKey vol gen) }).finish
              | none => s.waitSweep (snapKey vol gen))
           | _ => s)
        | _, _ => s) s
    else s) s

end Sys2Proof.Machine
end

