-- ==== Sys2Proof/Machine/RestoreSteps.lean ====
section
/-! DEFINITION. The commands of the Restore Engine (R86 to R101). -/

namespace Sys2Proof.Machine

/-- RESTORE (R86, R87): the request waits at the Restore Engine for its acceptance; it is not yet taken. -/
def execRestore (l : Link) (tag : Nat) (body : RestoreBody) (s : State) (errs : List StoreError := []) :
    Host.Outcome State Fault Refusal :=
  act (fun s =>
    let role := s.role l
    (request l tag .restore false false errs (fun r s =>
      s.modRst fun e => { e with waiting := e.waiting ++ [{ link := l, req := r, role := role, body := body }] }) s).finish) s

/-- A queued request taken by its block (R172). -/
def State.take (s : State) (l : Link) (req : Nat) : State :=
  s.modLink l fun r => { r with queue := mapIf (fun e => e.num == req) (fun e => { e with taken := true }) r.queue }

/-- RESTORE_ACCEPTANCE (R87): one acceptance at a time, in order of arrival. -/
def execRestoreAcceptance (errs : List StoreError) (s : State) : Host.Outcome State Fault Refusal :=
  act (fun s =>
    match s.rst.acceptance, s.rst.waiting with
    | none, q :: t =>
      if s.running then
        withErrs errs (fun s => (s.acceptRestore q).finish)
          ((s.modRst fun e => { e with waiting := t }).take q.link q.req)
      else s
    | _, _ => s) s

/-- RESTORE_START (R91). -/
def execRestoreStart (s : State) (errs : List StoreError := []) : Host.Outcome State Fault Refusal :=
  act (withErrs errs fun s => s.startRestore.finish) s

/-- STEP_TAKE_UP (R92 to R94). -/
def execStepTakeUp (rec : Nat) (errs : List StoreError) (s : State) : Host.Outcome State Fault Refusal :=
  act (withErrs errs fun s =>
    match s.restore rec with
    | none => s
    | some r =>
      if s.takesSteps r then
        match s.nextStep r with
        | some i => (s.takeUp rec i).finish
        | none => s
      else s) s

/-- PUT (R95). A double error in a slot read for it is handled first, and the PUT is then not issued
(R115). -/
def execPut (rec step : Nat) (errs : List StoreError) (s : State) : Host.Outcome State Fault Refusal :=
  act (withErrs errs fun s => if s.running then (s.issuePut rec step).finish else s) s

/-- A COPY_DONE or PUT_DONE (R96), or a late one, whose location is reclaimed (R97). -/
def State.doneAnswer (s : State) (l : Link) (tag loc : Nat) (k : DirKind) : State :=
  match s.matching l tag k with
  | none => s.handNotice l (.reclaim loc)
  | some d =>
    let s := ((s.endDirective l tag).freeAllOf (.gone l tag)).decRefs d.refs
    match d.issuer with
    | .step rec i => (s.freeAllOf (.step rec i)).completeStep rec i loc
    | _ => s.handNotice l (.reclaim loc)

/-- A failure answer to its issuer; a late one changes nothing (R97, R175). -/
def State.failAnswer (s : State) (l : Link) (tag : Nat) (k : DirKind) : State :=
  match s.matching l tag k with
  | none => s
  | some d => s.failDirective l d .failed

/-- COPY_DONE (R96, R97). -/
def execCopyDone (l : Link) (tag loc : Nat) (errs : List StoreError) (s : State) :
    Host.Outcome State Fault Refusal :=
  act (fun s => withErrs errs (fun s => (s.doneAnswer l tag loc .copy).finish) (s.arrive l)) s

/-- COPY_FAIL (R97). -/
def execCopyFail (l : Link) (tag : Nat) (s : State) (errs : List StoreError := []) :
    Host.Outcome State Fault Refusal :=
  act (fun s => withErrs errs (fun s => (s.failAnswer l tag .copy).finish) (s.arrive l)) s

/-- PUT_DONE (R96, R97): the slots of the PUT are freed (R112). -/
def execPutDone (l : Link) (tag loc : Nat) (errs : List StoreError) (s : State) :
    Host.Outcome State Fault Refusal :=
  act (fun s => withErrs errs (fun s => (s.doneAnswer l tag loc .put).finish) (s.arrive l)) s

/-- PUT_FAIL (R97). -/
def execPutFail (l : Link) (tag : Nat) (s : State) (errs : List StoreError := []) :
    Host.Outcome State Fault Refusal :=
  act (fun s => withErrs errs (fun s => (s.failAnswer l tag .put).finish) (s.arrive l)) s

/-- RESTORE_CANCEL (R99). -/
def execRestoreCancel (l : Link) (tag rid : Nat) (s : State) (errs : List StoreError := []) :
    Host.Outcome State Fault Refusal :=
  act (fun s =>
    (request l tag .restoreCancel true false errs (fun q s =>
      match s.recordOf rid with
      | none => s.reply l q .range .none
      | some (rec, r) =>
        if s.role l = .fileserver ∧ r.link ≠ l then s.reply l q .notPermitted .none
        else (s.cancelRestore rec).2.reply l q (s.cancelRestore rec).1 .none) s).finish) s

/-- The step states, in the order of Table 5-3. -/
def StepState.all : List StepState := [.waiting, .issued, .fetching, .putting, .done, .failed, .skipped]

/-- The index and reason of each FAILED step, up to the first 64 (R101). -/
def Restore.failures (r : Restore) : List (Nat × StepReason) :=
  ((List.range r.steps.length).filterMap fun i =>
    match r.steps[i]? with
    | some t => if t.state = .failed then t.reason.map fun w => (i, w) else none
    | none => none).take 64

/-- A restore record as it is reported (R101): every field but the step list, the counts of steps in
each state, and the failed steps. -/
def restoreView (rec : Nat) (r : Restore) : RecordView :=
  .restore rec { r with steps := [] } r.inFlight (StepState.all.map r.stepsIn) r.failures

/-- RESTORE_STATUS (R101). -/
def execRestoreStatus (l : Link) (tag rid : Nat) (errs : List StoreError) (s : State) :
    Host.Outcome State Fault Refusal :=
  act (fun s =>
    (request l tag .restoreStatus true false errs (fun q s =>
      match s.recordOf rid with
      | none => s.reply l q .range .none
      | some (rec, r) => s.reply l q .done (.record (restoreView rec r))) s).finish) s

end Sys2Proof.Machine
end

