-- ==== Sys2Proof/Machine/Shipping.lean ====
section
/-! DEFINITION. The commands of the Stream Buffer, of pulls and of the night (R106 to R115, R118 to R135). -/

namespace Sys2Proof.Machine

/-! ### The Stream Buffer -/

/-- SLOT_GRANT (R108): the heads are considered and granted as their grants are allowed. -/
def execSlotGrant (s : State) (errs : List StoreError := []) : Host.Outcome State Fault Refusal :=
  act (withErrs errs fun s => s.consider.finish) s

/-- A SHIP slot whose frame's transmission has ended (R111): AWAITING_ACK, or freed if covered. -/
def State.transmitted (s : State) (seq : Nat) : State :=
  match s.str.slots.find? fun kv =>
      decide (kv.2.cls = .ship) && decide (kv.2.seq = some seq) && decide (kv.2.state = .sending) with
  | none => s
  | some (n, x) => if x.covered then s.freeSlot n else s.modSlot n fun x => { x with state := .awaitingAck }

/-- SHIP_FRAME_TRANSMITTED (R111). -/
def execShipFrameTransmitted (seq : Nat) (s : State) (errs : List StoreError := []) :
    Host.Outcome State Fault Refusal :=
  act (withErrs errs fun s => (s.transmitted seq).finish) s

/-! ### Pulls -/

/-- An UNPULLED entry of a SHIPPING volume that no unissued run holds (R127). -/
def State.pullable (s : State) (e : ShipEntry) : Bool :=
  decide (e.state = .unpulled) && decide (e.form = .ship) &&
    (match s.planOf e.vol with
     | some p => decide (p.state = .shipping)
     | none => false) &&
    !(s.off.pulls.any fun p =>
      e.isOf p.vol p.ext p.birth && decide (p.stage ≠ .issued) && decide (p.first ≤ e.chunks.headD 0) &&
        decide (e.chunks.headD 0 < p.first + p.count))

/-- The entries of a run from a chunk index on (R127): consecutive indexes of one version. -/
def State.runFrom (s : State) (e : ShipEntry) : Nat → Nat → List ShipEntry
  | 0, _ => []
  | fuel + 1, idx =>
    match s.off.queue.find? fun x => x.isOf e.vol e.ext e.birth && decide (x.chunks = [idx]) && s.pullable x with
    | some x => x :: State.runFrom s e fuel (idx + 1)
    | none => []

/-- The location a run of an entry's version is pulled from (R127). A damaged record may have lost the words that
give it (R65): the run goes on to its increment, which is refused for the damage. -/
def State.runLoc (s : State) (e : ShipEntry) : Option Nat :=
  match ((s.extent e.vol e.ext).version e.birth).bind Version.loc with
  | some loc => some loc
  | none => if s.damaged e.vol e.ext then some 0 else none

/-- A pull run started: its SHIP slots are asked for (R127). -/
def State.startRun (s : State) : State :=
  match s.off.queue.find? s.pullable with
  | none => s
  | some e =>
    let run := s.runFrom e 16 (e.chunks.headD 0)
    match s.runLoc e with
    | none => s
    | some loc =>
      let p : ShipPull :=
        { n := s.off.nextPull, vol := e.vol, ext := e.ext, birth := e.birth, loc := loc
          first := e.chunks.headD 0, count := run.length, stage := .slots, cut := false }
      (s.modOff fun o => { o with pulls := o.pulls ++ [p], nextPull := o.nextPull + 1 }).askSlots .ship
        { holder := .shipPull p.n, wants := run.map fun x => (x.chunks.headD 0, x.code.getD 0) }

/-- PULL_RUN (R127): at most one SHIP slot request waits. -/
def execPullRun (s : State) (errs : List StoreError := []) : Host.Outcome State Fault Refusal :=
  act (withErrs errs fun s => if s.pullsGo && s.str.waitShip.isEmpty then s.startRun.finish else s) s

/-- A shipping PULL issued (R127), its volume's owning link being `l`. -/
def State.issuePull (s : State) (p : ShipPull) (l : Link) : State :=
  if s.placeFree l (.shipPull p.n) = false then s.waitPlace l (.shipPull p.n)
  else
    match s.incRef p.vol p.ext p.loc with
    | .recordDamaged => (s.cancelRun p.n).failVolume p.vol
    | .gone => s.cancelRun p.n
    | .granted s =>
      let s := s.modOff fun o =>
        { o with
          pulls := mapIf (fun x => x.n == p.n) (fun x => { x with stage := .issued }) o.pulls
          queue := mapIf (fun e => e.isOf p.vol p.ext p.birth && decide (e.state = .unpulled) &&
              decide (p.first ≤ e.chunks.headD 0) && decide (e.chunks.headD 0 < p.first + p.count))
            (fun e => { e with state := .pulling p.n }) o.queue }
      s.handDirective l .pull (.shipPull p.n) [(p.vol, p.ext, p.loc)] (.pull p.loc p.first p.count false) []

/-- PULL (R127): slots granted and a place free, the reference is taken and the PULL issued. -/
def execPull (n : Nat) (errs : List StoreError) (s : State) : Host.Outcome State Fault Refusal :=
  act (withErrs errs fun s =>
    match s.off.pulls.find? fun p => p.n == n with
    | none => s
    | some p =>
      match s.ownerOf p.vol, s.planOf p.vol with
      | some l, some v =>
        if s.pullsGo = true ∧ v.state = .shipping ∧ p.stage = .place then (s.issuePull p l).finish else s
      | _, _ => s) s

/-- A chunk given to the pull that a directive issued (R110, R113). -/
def State.placeChunk (s : State) (d : Directive) (idx : Nat) (data : List Byte) : State :=
  match d.issuer with
  | .shipPull n => s.shipChunk n idx data
  | .verify i => s.verifyChunk i idx data
  | _ => s

/-- EXTENT_DATA (R110). A frame that does not carry 262,144 chunk bytes does not fit its kind and is
discarded and counted (R171). -/
def execExtentData (l : Link) (tag idx : Nat) (data : List Byte) (s : State) (errs : List StoreError := []) :
    Host.Outcome State Fault Refusal :=
  act (fun s => withErrs errs (fun s =>
    if data.length ≠ chunkBytes then (s.countDiscard l).finish
    else
      match s.matching l tag .pull with
      | none => s.finish
      | some d => (s.placeChunk d idx data).finish) (s.arrive l)) s

/-- A pull ended by an answer (R114). -/
def State.pullAnswer (s : State) (l : Link) (tag : Nat) (cause : PullCause) : State :=
  match s.matching l tag .pull with
  | none => s
  | some d => s.failDirective l d cause

/-- PULL_END (R114): the night may end with it (R120). -/
def execPullEnd (l : Link) (tag : Nat) (s : State) (errs : List StoreError := []) :
    Host.Outcome State Fault Refusal :=
  act (fun s => withErrs errs (fun s => (s.pullAnswer l tag .ended).tryEndNight.finish) (s.arrive l)) s

/-- PULL_FAIL (R114, R128, R162). -/
def execPullFail (l : Link) (tag : Nat) (s : State) (errs : List StoreError := []) :
    Host.Outcome State Fault Refusal :=
  act (fun s => withErrs errs (fun s => (s.pullAnswer l tag .failed).tryEndNight.finish) (s.arrive l)) s

/-! ### Transmission -/

/-- The slot of an entry takes the number of its frame and is SENDING (R111). -/
def State.sendSlot (s : State) (e : ShipEntry) (num : Nat) : State :=
  match e.slot with
  | some n => s.modSlot n fun x => { x with state := .sending, seq := some num }
  | none => s

/-- Target and base that an entry's frames carry (R130). -/
def State.targetBase (s : State) (vol : Nat) : Nat × Nat :=
  match s.planOf vol with
  | some p => (p.target, p.base)
  | none => (0, 0)

/-- A double error was met in the slot of an entry. -/
def ShipEntry.unreadable (e : ShipEntry) (errs : List StoreError) : Bool :=
  match e.slot with
  | some n => errs.contains (.slot n)
  | none => false

/-- The errors of slots among those a step meets: those of frames sent from their slots cut the frame short. -/
def slotErrors (errs : List StoreError) : List StoreError :=
  errs.filter fun e => match e with
    | .slot _ => true
    | _ => false

/-- The errors other than slots', which are handled first. -/
def otherErrors (errs : List StoreError) : List StoreError :=
  errs.filter fun e => !((slotErrors errs).contains e)

/-- The slot error of a SHIP frame cut short (R115). -/
def State.cutShort (s : State) (e : ShipEntry) : State :=
  match e.slot with
  | some n => s.meet (.slot n)
  | none => s

/-- A frame of the list resent with its own number (R145, R146); a SHIP slot goes from AWAITING_ACK to
SENDING (R111). A covered or vacant frame is not resent; a SHIP frame whose slot cannot be read is cut
short and becomes vacant (R115, R143). -/
def State.resend (errs : List StoreError) (s : State) (f : OutFrame) : State :=
  if f.received || f.vacant then s
  else
    match f.body with
    | .ship num _ _ _ t b _ =>
      (match s.entry num with
       | none => s
       | some e =>
         if e.unreadable errs then s.cutShort e
         else
           let s := s.send (.offsite (s.shipFrame f.num t b e))
           match e.slot with
           | some n => s.modSlot n fun x => { x with state := .sending }
           | none => s)
    | .control (.volumeDone v t b k) => s.send (.offsite (.volumeDone f.num v t b k))
    | .control (.drop v g) => s.send (.offsite (.drop f.num v g))
    | .fetch e _ => s.send (.offsite (.fetchReq f.num e.vol e.ext e.birth e.idx e.code))

/-- A vacant frame filled with its entry (R143). -/
def State.fillVacant (s : State) (f : OutFrame) (e : ShipEntry) (errs : List StoreError) : State :=
  if e.unreadable errs then s.cutShort e
  else
    let tb := s.targetBase e.vol
    let s := s.send (.offsite (s.shipFrame f.num tb.1 tb.2 e))
    let s := s.modOff fun o =>
      { o with outstanding := mapIf (fun x => decide (x = f)) (fun x => { x with vacant := false }) o.outstanding }
    (s.sendSlot e f.num).modEntry e.num fun x => { x with state := .outstanding }

/-- An entry transmitted first (R130, R143); one whose slot cannot be read joins the list vacant. -/
def State.shipEntry (s : State) (e : ShipEntry) (errs : List StoreError) : State :=
  let tb := s.targetBase e.vol
  let num := s.nextSeq
  let body : FrameBody := .ship e.num e.vol e.ext e.birth tb.1 tb.2 e.chunks
  if e.unreadable errs then (s.joinShip body true).cutShort e
  else
    let s := (s.send (.offsite (s.shipFrame num tb.1 tb.2 e))).joinShip body false
    (s.sendSlot e num).modEntry e.num fun x => { x with state := .outstanding }

/-- What SHIP transmits: a filled vacant frame first, and an entry when no control waits (R143, R148). -/
def State.shipNext (s : State) (errs : List StoreError) : State :=
  if s.windowIsOpen = false ∨ s.linkUp = false ∨ s.off.dir ≠ .ship then s
  else
    match s.vacantReady with
    | some (f, e) => s.fillVacant f e errs
    | none =>
      if s.shipMay = false ∨ s.off.controls ≠ [] then s
      else
        match s.off.queue.find? fun e => decide (e.state = .ready) with
        | some e => s.shipEntry e errs
        | none => s


/-- SHIP (R130). Errors other than its own slot's are handled first. -/
def execShip (errs : List StoreError) (s : State) : Host.Outcome State Fault Refusal :=
  act (withErrs (otherErrors errs) fun s => (s.shipNext (slotErrors errs)).finish) s

/-- The head of the pending controls is a VOLUME_DONE. -/
def State.doneAhead (s : State) : Bool :=
  match s.off.controls with
  | .volumeDone .. :: _ => true
  | _ => false

/-- VOLUME_DONE (R131): a volume wholly acknowledged becomes AWAITING_DONE, and its VOLUME_DONE is
transmitted in its turn among the pending ones (R148). -/
def execVolumeDone (s : State) (errs : List StoreError := []) : Host.Outcome State Fault Refusal :=
  act (withErrs errs fun s =>
    let s := s.finishVolume.redirect
    (if s.doneAhead then s.sendHead else s).finish) s

/-! ### The window -/

/-- The INTERNAL open time is reached by counting (R119). -/
def State.opensNow (s : State) : Bool :=
  decide (s.sup.op = .active) && decide (s.off.phase = .closed) && s.internal && s.sup.clockSet &&
    s.sup.counted && decide (timeOfDay s.sup.clock = s.sup.settings.openTime) && s.insidePeriod

/-- WINDOW_OPENING (R119). -/
def execWindowOpening (s : State) (errs : List StoreError := []) : Host.Outcome State Fault Refusal :=
  act (withErrs errs fun s => if s.opensNow then s.openWindow.finish else s) s

/-- WINDOW_OPEN (R119). -/
def execWindowOpen (l : Link) (tag : Nat) (s : State) (errs : List StoreError := []) :
    Host.Outcome State Fault Refusal :=
  act (fun s =>
    (request l tag .windowOpen true true errs (fun q s =>
      if s.internal ∨ s.sup.op ≠ .active then s.reply l q .wrongState .none
      else if s.nightEnding then s.reply l q .busy .none
      else if s.windowIsOpen then s.reply l q .done .none
      else s.openWindow.reply l q .done .none) s).finish) s

/-- WINDOW_CLOSE (R120). -/
def execWindowClose (l : Link) (tag : Nat) (s : State) (errs : List StoreError := []) :
    Host.Outcome State Fault Refusal :=
  act (fun s =>
    (request l tag .windowClose true true errs (fun q s =>
      if s.internal then s.reply l q .wrongState .none
      else if s.windowIsOpen then s.closeWindow.reply l q .accepted .none
      else s.reply l q .done .none) s).finish) s

/-- The close instant is reached (R120). -/
def State.closesNow (s : State) : Bool :=
  s.running && s.internal && s.windowIsOpen &&
    (match s.off.closeInstant with
     | some c => decide (c ≤ s.sup.clock)
     | none => false)

/-- WINDOW_CLOSING (R120). -/
def execWindowClosing (s : State) (errs : List StoreError := []) : Host.Outcome State Fault Refusal :=
  act (withErrs errs fun s => if s.closesNow then s.closeWindow.finish else s) s

/-- The ack wait limit has passed since the close (R154). DESIGN CHOICE (log entry 64): whatever SHIP-direction frame is
then in the list, or joins it while the night is still ending, a DROP first transmitted after the close too, is
abandoned. -/
def State.abandonsNow (s : State) : Bool :=
  match s.off.phase with
  | .ending since limit => decide (since + limit ≤ s.sup.elapsed) && s.shipsOut
  | _ => false

/-- The SHIP-direction frames still outstanding abandoned, and the link closed and opened again where
work waits (R154). -/
def State.abandonFrames (s : State) : State :=
  let fs := s.off.outstanding.filter fun f => f.body.isShip
  let s := fs.foldl State.giveBack s
  let s := s.freeSlotsIf fun x =>
    decide (x.cls = .ship) && (decide (x.state = .sending) || decide (x.state = .awaitingAck))
  let s := s.modOff fun o =>
    { o with
      outstanding := o.outstanding.filter fun f => !f.body.isShip
      controls := joinControls false (controlsBack true fs) o.controls }
  let s := if s.linkUp then s.closeLink else s
  if s.workWaits then s.askOpening else s

/-- CLOSE_ABANDON (R154). -/
def execCloseAbandon (s : State) (errs : List StoreError := []) : Host.Outcome State Fault Refusal :=
  act (withErrs errs fun s => if s.abandonsNow then s.abandonFrames.tryEndNight.finish else s) s

/-- NIGHT_END (R120). -/
def execNightEnd (s : State) (errs : List StoreError := []) : Host.Outcome State Fault Refusal :=
  act (withErrs errs fun s => s.tryEndNight.finish) s

/-! ### The walks and the forecast -/

/-- COUNT_WALK_VISIT (R125). -/
def execCountWalkVisit (vol : Nat) (errs : List StoreError) (s : State) : Host.Outcome State Fault Refusal :=
  act (withErrs errs fun s => if s.running then (s.countVisit vol).finish else s) s

/-- SHIP_WALK_VISIT (R124, R126). -/
def execShipWalkVisit (errs : List StoreError) (s : State) : Host.Outcome State Fault Refusal :=
  act (withErrs errs fun s => if s.running then s.shipVisit.finish else s) s

/-- FORECAST_INTERVAL_END (R132 to R135). -/
def execForecastIntervalEnd (s : State) (errs : List StoreError := []) : Host.Outcome State Fault Refusal :=
  act (withErrs errs fun s => s.endInterval.finish) s

end Sys2Proof.Machine
end

