-- ==== Sys2Proof/Machine/Offsites.lean ====
section
/-! DEFINITION. The commands of the offsite link (R131, R139 to R154, R180). A frame that arrives in a state
that does not accept it is discarded (R142), so each takes effect with the link UP, OPEN_ACK in
OPENING. -/

namespace Sys2Proof.Machine

/-! ### Opening and closing -/

/-- OPEN_ACK (R139): the link is UP and its direction is chosen. -/
def execOpenAck (s : State) (errs : List StoreError := []) : Host.Outcome State Fault Refusal :=
  act (withErrs errs fun s =>
    match s.off.link with
    | .opening _ => ((s.modOff fun o => { o with link := .up, expiries := 0 }).chooseDir).finish
    | _ => s) s

/-- OFFSITE_FRAME_DISCARD (R142): a frame that fails its checks, or that the link's state does not accept,
has no effect (`discardsOffsite`). -/
def execOffsiteFrameDiscard (_frame : List Byte) (s : State) : Host.Outcome State Fault Refusal :=
  act (fun s => s) s

/-- A fault in STANDBY leaves the link DOWN (R154, log entry 16). -/
def State.downInStandby (s : State) : State :=
  match s.off.link with
  | .faulted _ => if s.sup.op = .standby then s.modOff fun o => { o with link := .down } else s
  | _ => s

/-- CARRIER_LOSS (R140). -/
def execCarrierLoss (s : State) (errs : List StoreError := []) : Host.Outcome State Fault Refusal :=
  act (withErrs errs fun s =>
    match s.off.link with
    | .opening _ => (s.fault .carrier).downInStandby.finish
    | .up => (s.fault .carrier).downInStandby.finish
    | _ => s) s

/-- The ack wait limit has passed (R145). -/
def State.ackPassed (s : State) : Bool := decide (s.off.ackStart + s.off.ackLimit ≤ s.sup.elapsed)

/-- The limit passes in OPENING (R139): OPEN is sent again, and after the fourth the link is FAULTED. -/
def State.openExpired (s : State) (opens : Nat) : State :=
  if 4 ≤ opens then s.fault .openWait
  else
    (s.send (.offsite (.open 0 Config.outstandingSize))).modOff fun o =>
      { o with link := .opening (opens + 1), ackStart := s.sup.elapsed, ackLimit := s.sup.settings.ackWait }

/-- The limit passes with frames outstanding (R145): they are resent, or the link is FAULTED; in a drain
that leads to closing, they are given back and the link closed (R154). -/
def State.listExpired (s : State) (errs : List StoreError) : State :=
  if s.off.expiries + 1 < 3 then
    let s := s.modOff fun o =>
      { o with
        expiries := o.expiries + 1, ackStart := s.sup.elapsed, ackLimit := s.sup.settings.ackWait }
    s.off.outstanding.foldl (State.resend errs) s
  else if s.off.dir = .draining .toClose then (s.giveBackAll true).closeLink
  else s.fault .ackWait

/-- ACK_WAIT_EXPIRY (R139, R145). -/
def execAckWaitExpiry (s : State) (errs : List StoreError := []) : Host.Outcome State Fault Refusal :=
  act (withErrs (otherErrors errs) fun s =>
    if s.ackPassed = false then s
    else
      match s.off.link with
      | .opening n => (s.openExpired n).finish
      | .up => if s.off.outstanding = [] then s else (s.listExpired (slotErrors errs)).finish
      | _ => s) s

/-- REOPEN_INTERVAL_EXPIRY (R140). -/
def execReopenIntervalExpiry (s : State) (errs : List StoreError := []) : Host.Outcome State Fault Refusal :=
  act (withErrs errs fun s =>
    match s.off.link with
    | .faulted since =>
      if since + s.sup.settings.reopenInterval ≤ s.sup.elapsed then
        (if s.sup.op = .active ∧ s.workWaits = true then s.startOpening
         else s.modOff fun o => { o with link := .faulted s.sup.elapsed }).finish
      else s
    | _ => s) s

/-- OFFSITE_IDLE_TIMEOUT (R140). -/
def execOffsiteIdleTimeout (s : State) (errs : List StoreError := []) : Host.Outcome State Fault Refusal :=
  act (withErrs errs fun s =>
    match s.off.idleSince with
    | some t =>
      if s.linkAtRest = true ∧ t + Config.idleCloseSeconds ≤ s.sup.elapsed then s.closeLink.finish else s
    | none => s) s

/-- OFFSITE_OPEN (R180). -/
def execOffsiteOpen (l : Link) (tag : Nat) (s : State) (errs : List StoreError := []) :
    Host.Outcome State Fault Refusal :=
  act (fun s =>
    (request l tag .offsiteOpen true false errs (fun q s =>
      if s.sup.op ≠ .active then s.reply l q .wrongState .none
      else
        match s.off.link with
        | .opening _ => s.reply l q .done .none
        | .up => s.reply l q .done .none
        | .down => s.startOpening.reply l q .accepted .none
        | .faulted _ => s.startOpening.reply l q .accepted .none) s).finish) s

/-! ### Answers to SHIP-direction frames -/

/-- The outstanding-frame list changed; when it becomes empty the expiry count is 0 (R145). -/
def State.setList (s : State) (fs : List OutFrame) : State :=
  s.modOff fun o => { o with outstanding := fs, expiries := if fs = [] then 0 else o.expiries }

/-- The slot of an acknowledged frame freed, or freed when its resending ends (R111, R144). -/
def State.coverSlot (s : State) (e : ShipEntry) : State :=
  match e.slot with
  | none => s
  | some n =>
    match s.slot n with
    | none => s
    | some x => if x.state = .sending then s.modSlot n fun x => { x with covered := true } else s.freeSlot n

/-- An entry acknowledged (R130): it leaves the queue, its volume's counts move, and its version is
shipped where the entry was its last and not DAMAGED. DESIGN CHOICE (log entry 60): so too where an earlier entry of the
version, withheld or taken back, is still in the queue; R130 holds every earlier one acknowledged then. -/
def State.ackEntry (s : State) (e : ShipEntry) : State :=
  let data := decide (e.form = .ship)
  let s := (s.coverSlot e).modOff fun o =>
    { o with
      queue := o.queue.filter fun x => x.num != e.num
      acked := if data then o.acked + 256 else o.acked }
  let s := s.modPlan e.vol fun p =>
    { p with acked := p.acked + 1, shipCount := if data then p.shipCount - 1 else p.shipCount }
  if e.last = true ∧ e.form ≠ .damaged then s.setShipped e.vol e.ext e.birth else s

/-- A SHIP frame covered by an ACK (R144); a vacant one is removed and its entry stays. -/
def State.coverFrame (s : State) (f : OutFrame) : State :=
  match f.body with
  | .ship num _ _ _ _ _ _ =>
    if f.vacant then s
    else
      (match s.entry num with
       | some e => s.ackEntry e
       | none => s)
  | _ => s

/-- The frames of a list up to and with the SHIP-direction frame of a number (R144). -/
def coveredBy (n : Nat) : List OutFrame → Option (List OutFrame × List OutFrame)
  | [] => none
  | f :: t =>
    if f.body.isShip = true ∧ f.num = n then some ([f], t)
    else (coveredBy n t).map fun r => (f :: r.1, r.2)

/-- What a covered frame leaves in the list: a VOLUME_DONE or DROP, received; a FETCH_REQ as it is. -/
def OutFrame.remains (f : OutFrame) : Option OutFrame :=
  match f.body with
  | .ship .. => none
  | .control _ => some { f with received := true }
  | .fetch _ _ => some f

/-- ACK (R144). -/
def State.ack (s : State) (n : Nat) : State :=
  match coveredBy n s.off.outstanding with
  | none => s
  | some (cov, rest) =>
    let fresh := cov.any fun f => f.body.isShip && !f.received
    let s := s.setList (cov.filterMap OutFrame.remains ++ rest)
    let s := cov.foldl State.coverFrame s
    if fresh then s.progress else s

/-- ACK (R144): with the link UP. -/
def execAck (num : Nat) (s : State) (errs : List StoreError := []) : Host.Outcome State Fault Refusal :=
  act (withErrs errs fun s => if s.linkUp then (s.ack num).finish else s) s

/-- A control taken out of the list, which is progress, or cancelled while pending (R144). -/
def State.answerControl (s : State) (p : Control → Bool) : State :=
  let here := fun (f : OutFrame) =>
    match f.body with
    | .control c => p c
    | _ => false
  let s :=
    if s.off.outstanding.any here then (s.setList (s.off.outstanding.filter fun f => !(here f))).progress else s
  s.modOff fun o => { o with controls := o.controls.filter fun c => !(p c) }

/-- The volume that a DONE_ACK completes (R131). -/
def State.completeVolume (s : State) (vol target : Nat) : State :=
  match s.planOf vol with
  | none => s
  | some p =>
    if p.state = .awaitingDone ∧ p.target = target then
      let s := s.modVolume vol fun v => { v with mark := target }
      let s := s.modSnapshot vol target fun q => { q with held := true }
      let s := s.dropShipPins vol
      (s.modPlan vol fun q => { q with state := .complete }).modOff fun o => { o with nComplete := o.nComplete + 1 }
    else s

/-- DONE_ACK (R131, R144). -/
def execDoneAck (vol target : Nat) (s : State) (errs : List StoreError := []) :
    Host.Outcome State Fault Refusal :=
  act (withErrs errs fun s =>
    if s.linkUp then
      ((s.answerControl fun c => match c with
        | .volumeDone v t _ _ => v == vol && t == target
        | .drop _ _ => false).completeVolume vol target).finish
    else s) s

/-- A DROP_ACK's effect on its snapshot (R81). -/
def State.dropAcked (s : State) (vol gen : Nat) : State :=
  match s.snapshot vol gen with
  | none => s
  | some p =>
    match p.state, p.held with
    | .dropping true _, true =>
      (s.modSnapshot vol gen fun q => { q with held := false, state := .active }).retain vol p.kind
    | .dropping false _, true =>
      s.modSnapshot vol gen fun q => { q with held := false, state := .dropping false (some 0) }
    | _, _ => s

/-- DROP_ACK (R81, R144). -/
def execDropAck (vol gen : Nat) (s : State) (errs : List StoreError := []) : Host.Outcome State Fault Refusal
    :=
  act (withErrs errs fun s =>
    if s.linkUp then
      ((s.answerControl fun c => match c with
        | .volumeDone .. => false
        | .drop v g => v == vol && g == gen).dropAcked vol gen).finish
    else s) s

/-- What SHIP_REJECTED names of a withdrawn frame (R146). -/
def OutFrame.rejected (f : OutFrame) : RejectedFrame :=
  match f.body with
  | .ship _ v x b _ _ idxs => .ship v x b idxs
  | .control (.volumeDone v t _ _) => .volumeDone v t
  | .control (.drop v g) => .drop v g
  | .fetch e _ => .ship e.vol e.ext e.birth []

/-- The second NAK of a frame (R146): it is withdrawn. -/
def State.withdrawFrame (s : State) (f : OutFrame) (reason : Nat) : State :=
  let s := s.raise (.shipRejected f.rejected f.num reason)
  let s := (s.setList (s.off.outstanding.filter fun x => decide (x ≠ f))).modOff fun o =>
    { o with withdrawnNums := o.withdrawnNums ++ [f.num] }
  match f.body with
  | .ship num v _ _ _ _ _ =>
    let es := s.off.queue.filter fun e => e.num == num
    let s := (s.freeEntrySlots es).modOff fun o => { o with queue := o.queue.filter fun e => e.num != num }
    s.failVolume v
  | .control (.volumeDone v _ _ _) => s.failVolume v
  | .control (.drop v g) => s.modOff fun o => { o with withdrawnDrops := o.withdrawnDrops ++ [(v, g)] }
  | .fetch _ _ => s

/-- NAK (R146). -/
def State.nak (s : State) (n reason : Nat) (errs : List StoreError) : State :=
  match s.off.outstanding.find? fun f => f.body.isShip && f.num == n with
  | none => s
  | some f =>
    if f.received then s
    else if f.naks = 0 then
      State.resend errs
        (s.modOff fun o =>
          { o with outstanding := mapIf (fun x => decide (x = f)) (fun x => { x with naks := 1 }) o.outstanding }) f
    else s.withdrawFrame f reason

/-- NAK (R146): with the link UP. -/
def execNak (num reason : Nat) (s : State) (errs : List StoreError := []) : Host.Outcome State Fault Refusal
    :=
  act (withErrs (otherErrors errs) fun s =>
    if s.linkUp then (s.nak num reason (slotErrors errs)).finish else s) s

/-- The head of the pending controls is a DROP. -/
def State.dropAhead (s : State) : Bool :=
  match s.off.controls with
  | .drop _ _ :: _ => true
  | _ => false

/-- DROP (R153): the pending DROP at the head transmitted. -/
def execDrop (s : State) (errs : List StoreError := []) : Host.Outcome State Fault Refusal :=
  act (withErrs errs fun s => (if s.dropAhead then s.sendHead else s).finish) s

/-! ### Fetches -/

/-- A fetch entry needs a slot: it is for a chunk, and its holder holds none for its index (R151). -/
def State.needsSlot (s : State) (e : FetchEntry) : Bool :=
  match e.idx with
  | none => false
  | some i => (s.slotFor e.holder.slots i).isNone

/-- The slot request made for the head of the Fetch Queue (R107, R151). -/
def State.serveHead (s : State) : State :=
  match s.off.fetchQueue with
  | [] => s
  | e :: _ =>
    let asked := (s.waiting e.cls).any fun r => decide (r.holder = e.holder.slots)
    if s.needsSlot e = true ∧ asked = false then
      let es := (s.off.fetchQueue.filter fun x => decide (x.holder = e.holder) && s.needsSlot x).take 16
      s.askSlots e.cls { holder := e.holder.slots, wants := es.map fun x => (x.idx.getD 0, x.code) }
    else s

/-- FETCH_QUEUE_SERVE (R151): while the link is UP and does not drain to its closing (R154). -/
def execFetchQueueServe (s : State) (errs : List StoreError := []) : Host.Outcome State Fault Refusal :=
  act (withErrs errs fun s => if s.linkUp = true ∧ s.off.dir ≠ .draining .toClose then s.serveHead.finish else s) s

/-- A FETCH_REQ may be transmitted first (R143). -/
def State.fetchMay (s : State) : Bool :=
  s.linkUp && decide (s.off.dir = .fetch) && !s.shipsOut &&
    decide (s.off.outstanding.length < Config.outstandingSize)

/-- FETCH_REQ (R143, R149, R151). -/
def execFetchReq (s : State) (errs : List StoreError := []) : Host.Outcome State Fault Refusal :=
  act (withErrs errs fun s =>
    match s.off.fetchQueue with
    | [] => s
    | e :: t =>
      if s.fetchMay = true ∧ s.needsSlot e = false then
        let n := s.off.reqCounter
        let s := s.send (.offsite (.fetchReq n e.vol e.ext e.birth e.idx e.code))
        let s := s.joinList { num := n, body := .fetch e false, received := false, naks := 0, vacant := false }
        ((s.modOff fun o =>
          { o with fetchQueue := t, reqCounter := (n + 1) % 65536, burst := o.burst + 1 }).endBurst).finish
      else s) s

/-- The outstanding FETCH_REQ of a number, with its entry and whether its holder has withdrawn it. -/
def State.fetchFrame (s : State) (n : Nat) : Option (OutFrame × FetchEntry × Bool) :=
  s.off.outstanding.findSome? fun f =>
    match f.body with
    | .fetch e w => if f.num = n then some (f, e, w) else none
    | _ => none

/-- A fetch's outcome told to its holder (R94, R152, R165, R166). -/
def State.tellFetch (s : State) (e : FetchEntry) (a : ChunkAnswer) : State :=
  match e.holder with
  | .step rec i => s.stepFetched rec i e.idx a
  | .repair n => (s.repairFetched n (e.idx.getD 0) a).checkRepair n

/-- An answered FETCH_REQ leaves the list, which is progress (R144, R152). -/
def State.answerFetch (s : State) (f : OutFrame) : State :=
  (s.setList (s.off.outstanding.filter fun x => decide (x ≠ f))).progress

/-- A chunk fetched (R110, R112, R152): placed in its holder's FILLING slot and compared. -/
def State.fetchChunk (s : State) (e : FetchEntry) (i : Nat) (data : List Byte) : State :=
  match s.slotFor e.holder.slots i with
  | none => s
  | some (n, x) =>
    if x.state ≠ .filling then s
    else if checkCode data = x.expected then ((s.fill n data).makeFull n).tellFetch e .equal
    else (s.freeSlot n).tellFetch e .differs

/-- A fetch answered FETCH_NONE, or so handled (R152): its slot is freed and its holder told. -/
def State.fetchNone (s : State) (e : FetchEntry) : State := (s.freeFilling e).tellFetch e .absent

/-- FETCH_DATA (R110, R152). One that does not carry 262,144 bytes is discarded and leaves its
FETCH_REQ in the list. -/
def execFetchData (num : Nat) (data : List Byte) (s : State) (errs : List StoreError := []) :
    Host.Outcome State Fault Refusal :=
  act (withErrs errs fun s =>
    match s.linkUp, s.fetchFrame num with
    | true, some (f, e, w) =>
      if data.length ≠ chunkBytes then s
      else
        let s := s.answerFetch f
        (if w then s
         else match e.idx with
           | some i => s.fetchChunk e i data
           | none => s.fetchNone e).finish
    | _, _ => s) s

/-- FETCH_EMPTY (R152). -/
def execFetchEmpty (num : Nat) (s : State) (errs : List StoreError := []) : Host.Outcome State Fault Refusal
    :=
  act (withErrs errs fun s =>
    match s.linkUp, s.fetchFrame num with
    | true, some (f, e, w) =>
      let s := s.answerFetch f
      (if w then s
       else match e.idx with
         | some _ => s.fetchNone e
         | none => s.tellFetch e .equal).finish
    | _, _ => s) s

/-- FETCH_NONE (R152). -/
def execFetchNone (num _reason : Nat) (s : State) (errs : List StoreError := []) :
    Host.Outcome State Fault Refusal :=
  act (withErrs errs fun s =>
    match s.linkUp, s.fetchFrame num with
    | true, some (f, e, w) =>
      let s := s.answerFetch f
      (if w then s else s.fetchNone e).finish
    | _, _ => s) s

end Sys2Proof.Machine
end

