-- ==== Sys2Proof/Machine/Patrols.lean ====
section
/-! DEFINITION. The commands of the Patrol Unit (R155 to R167). -/

namespace Sys2Proof.Machine

/-! ### The walk -/

/-- A version is named by a Work List item, a fold entry, a waiting repair or a repair record (R156). -/
def State.patrolNames (s : State) (vol ext birth : Nat) : Bool :=
  (s.pat.work.any fun w => w.vol == vol && w.ext == ext && w.birth == birth) ||
    (s.pat.folds.any fun f => f.vol == vol && f.ext == ext && f.birth == birth) ||
    (s.pat.waiting.any fun q => q.vol == vol && q.ext == ext && q.birth == birth) ||
    (s.pat.repairs.any fun kv => kv.2.isOf vol ext birth)

/-- The LOCAL versions of an extent that a visit examines (R156). -/
def State.examined (s : State) (vol ext : Nat) : List Version :=
  (s.extent vol ext).versions.filter fun v => v.loc.isSome && !(s.patrolNames vol ext v.birth)

/-- A visit places a version as an item: a due SOUND one that is not empty, or a SUSPECT one (R156). -/
def State.placesItem (s : State) (v : Version) : Bool :=
  (decide (v.repair = .sound) && s.isDue v && decide (0 < v.occ)) || decide (v.repair = .suspect)

/-- An item placed and its decision made (R157, R158). -/
def State.placeItem (vol ext : Nat) (s : State) (v : Version) : State :=
  let w : WorkItem :=
    { n := s.pat.nextItem, vol := vol, ext := ext, birth := v.birth, loc := v.loc.getD 0
      forced := decide (v.repair = .suspect), retry := false, state := .waitingIdle, received := []
      differed := [], codes := v.codes }
  (s.modPat fun p => { p with work := p.work ++ [w], nextItem := p.nextItem + 1 }).decideItem w.n

/-- What a visit does with the versions it examines (R156). -/
def State.visitVersions (s : State) (vol ext : Nat) : State :=
  let vs := s.examined vol ext
  let empty := vs.filter fun v => decide (v.repair = .sound) && s.isDue v && decide (v.occ = 0)
  let s := empty.foldl (fun s v => s.setVerified vol ext v.birth (v.loc.getD 0)) s
  (vs.filter s.placesItem).foldl (State.placeItem vol ext) s

/-- The volume visited next: the first ATTACHED one from the turn on, or else the first (R156). -/
def State.turnVolume (s : State) : Option (Nat × Volume) :=
  match s.cat.volumes.find? fun kv => decide (s.pat.turn ≤ kv.1) with
  | some kv => some kv
  | none => s.cat.volumes.head?

/-- One visit of the patrol walk (R156); it waits where the Work List has less room than it needs. -/
def State.patrolVisit (s : State) : State :=
  match s.turnVolume with
  | none => s
  | some (vol, v) =>
    let ext := v.patrolCursor
    let fresh := if s.damaged vol ext then [] else (s.examined vol ext).filter s.placesItem
    if Config.workListSize < s.pat.work.length + fresh.length then s
    else
      let s := s.modPat fun p => { p with turn := vol + 1 }
      let s := s.modVolume vol fun v => { v with patrolCursor := if ext + 1 < v.count then ext + 1 else 0 }
      if s.damaged vol ext then s else s.visitVersions vol ext

/-- PATROL_WALK_VISIT (R156): in ACTIVE. -/
def execPatrolWalkVisit (errs : List StoreError) (s : State) : Host.Outcome State Fault Refusal :=
  act (withErrs errs fun s => if s.sup.op = .active then s.patrolVisit.finish else s) s

/-- VERSION_OVERDUE (R155, R158): the decision of the version's item is made again. -/
def execVersionOverdue (vol ext birth : Nat) (s : State) (errs : List StoreError := []) :
    Host.Outcome State Fault Refusal :=
  act (withErrs errs fun s =>
    match s.pat.work.find? fun w => w.vol == vol && w.ext == ext && w.birth == birth with
    | some w => (s.decideItem w.n).finish
    | none => s) s

/-! ### Verifying pulls -/

/-- A verifying PULL issued for an item, its volume's owning link being `l` (R160). -/
def State.issueVerify (s : State) (w : WorkItem) (l : Link) : State :=
  if s.placeFree l (.verify w.n) = false then s.waitPlace l (.verify w.n)
  else
    match s.incRef w.vol w.ext w.loc, s.versionAt w.vol w.ext w.birth w.loc with
    | .granted t, some v =>
      (t.modItem w.n fun x =>
        { x with state := .issued, received := [], differed := [], codes := v.codes }).handDirective l
          .pull (.verify w.n) [(w.vol, w.ext, w.loc)] (.pull w.loc 0 16 true) []
    | _, _ => s.leaveItem w.n

/-- VERIFYING_PULL (R160). -/
def execVerifyingPull (item : Nat) (errs : List StoreError) (s : State) : Host.Outcome State Fault Refusal :=
  act (withErrs errs fun s =>
    match s.item item with
    | none => s
    | some w =>
      if s.sup.op ≠ .active ∨ w.state ≠ .place then s
      else if s.eligible w.vol w.ext w.birth w.loc w.forced = false then (s.leaveItem w.n).finish
      else
        match s.ownerOf w.vol with
        | some l => (s.issueVerify w l).finish
        | none => s) s

/-! ### Fixes -/

/-- Chunks of a record marked as being fixed. -/
def State.markFixing (s : State) (n : Nat) (idxs : List Nat) : State :=
  s.modRepair n fun r =>
    { r with chunks := mapIf (fun c => idxs.contains c.idx) (fun c => { c with progress := .fixing }) r.chunks }

/-- A FIX from fetched data issued (R164, R166): the increment of the repaired location, then the
directive with its chunks; a refused increment abandons the record (R167). -/
def State.fixData (s : State) (n idx : Nat) (r : Repair) (l : Link) (idxs : List Nat) : State :=
  match s.incRef r.vol r.ext r.loc with
  | .granted s =>
    let chunks := (s.chunksOf (.repair n) .full).filter fun c => idxs.contains c.1
    ((s.markFixing n idxs).handDirective l .fix (.repair n idx) [(r.vol, r.ext, r.loc)]
      (.fixData r.loc idxs) chunks).setSlots (chunks.map Prod.snd) .sending
  | _ => s.abandonRepair n

/-- A FIX from a twin issued (R164): both increments, the first given back if the second is refused. -/
def State.fixTwin (s : State) (n idx : Nat) (r : Repair) (l : Link) (twin : Nat) : State :=
  match s.incRef r.vol r.ext r.loc with
  | .granted t =>
    (match t.incRef r.vol r.ext twin with
     | .granted u =>
       (u.markFixing n [idx]).handDirective l .fix (.repair n idx)
         [(r.vol, r.ext, r.loc), (r.vol, r.ext, twin)] (.fixTwin r.loc idx twin) []
     | _ => (t.decRef r.vol r.ext r.loc).chunkOffsite n idx)
  | _ => s.abandonRepair n

/-- A chunk's fix, where it is ready for one (R164). -/
def State.fixChunk (s : State) (n idx : Nat) (r : Repair) (l : Link) : State :=
  match r.chunks.find? fun c => c.idx == idx with
  | none => s
  | some c =>
    match c.progress with
    | .twinWait =>
      (match (s.twinOf r idx).bind Version.loc with
       | none => s.chunkOffsite n idx
       | some twin =>
         if s.placeFree l (.repair n idx) then s.fixTwin n idx r l twin
         else s.waitPlace l (.repair n idx))
    | .fetched =>
      if s.placeFree l (.repair n idx) then s.fixData n idx r l [idx]
      else s.waitPlace l (.repair n idx)
    | _ => s

/-- The FIX of a WHOLE record, when all 16 chunks are FULL (R166). -/
def State.fixWhole (s : State) (n : Nat) (r : Repair) (l : Link) : State :=
  if r.chunks.all fun c => decide (c.progress = .fetched) then
    if s.placeFree l (.repair n 0) then s.fixData n 0 r l (List.range 16)
    else s.waitPlace l (.repair n 0)
  else s

/-- FIX (R164, R166): in ACTIVE (R168). A double error in a slot read for it is handled first, and the FIX
is then not issued (R115). -/
def execFix (rec idx : Nat) (errs : List StoreError) (s : State) : Host.Outcome State Fault Refusal :=
  act (withErrs errs fun s =>
    match s.repair rec with
    | none => s
    | some r =>
      match s.ownerOf r.vol with
      | none => s
      | some l =>
        if s.sup.op ≠ .active ∨ r.abandoned = true ∨ r.lost = true ∨ r.becomeWhole = true then s
        else if r.whole then (s.fixWhole rec r l).finish
        else (s.fixChunk rec idx r l).finish) s

/-- A fix answered FIX_DONE (R165, R166). -/
def State.fixDone (s : State) (l : Link) (tag : Nat) : State :=
  match s.matching l tag .fix with
  | none => s
  | some d =>
    let s := (s.endDirective l tag).decRefs d.refs
    match d.issuer with
    | .repair n idx => s.fixEnded n idx true
    | _ => s

/-- FIX_DONE (R165, R166). -/
def execFixDone (l : Link) (tag : Nat) (s : State) (errs : List StoreError := []) :
    Host.Outcome State Fault Refusal :=
  act (fun s => withErrs errs (fun s => (s.fixDone l tag).finish) (s.arrive l)) s

/-- FIX_FAIL (R165, R166). -/
def execFixFail (l : Link) (tag : Nat) (s : State) (errs : List StoreError := []) :
    Host.Outcome State Fault Refusal :=
  act (fun s => withErrs errs (fun s => (s.failAnswer l tag .fix).finish) (s.arrive l)) s

end Sys2Proof.Machine
end

