-- ==== Sys2Proof/Machine/Reads.lean ====
section
/-! DEFINITION. Reading: Query, Table Read, Table Next, Status Query and Status Clear (R14, R39, R44, R52,
R69, R101, R117, R137, R138, R168, R177, R179, R183, R188). -/

namespace Sys2Proof.Machine

/-! ### Views of records -/

/-- A principal as it is reported (R14): current values, the unsettled flag as it stands, no marker. -/
def State.principalView (s : State) (id : Nat) (p : Principal) : RecordView :=
  .principal id
    { p with
      used := (s.current id).1, reserved := (s.current id).2, unsettled := s.isUnsettled id, marker := false }

/-- The number of versions of a volume that satisfy `p`. -/
def State.countVersions (s : State) (vol : Nat) (p : Version → Bool) : Nat :=
  ((s.cat.extents.filter fun kv => decide (kv.1 / Config.maxExtents = vol)).map
    fun kv => (kv.2.versions.filter p).length).sum

/-- Versions of a volume by residence and repair state (R44): LOCAL, OFFSITE_ONLY, SOUND, SUSPECT,
REPAIRING, UNREPAIRABLE. -/
def State.versionCounts (s : State) (vol : Nat) : List Nat :=
  [s.countVersions vol fun v => v.loc.isSome, s.countVersions vol fun v => v.loc.isNone] ++
    [RepairState.sound, .suspect, .repairing, .unrepairable].map fun r =>
      s.countVersions vol fun v => decide (v.repair = r)

/-- The code of a snapshot's state: ACTIVE, EXPIRING, OFFSITE_ONLY, DROPPING. -/
def SnapState.code : SnapState → Nat
  | .active => 0
  | .expiring _ => 1
  | .offsiteOnly => 2
  | .dropping _ _ => 3

/-- Snapshots of a volume in each state and of each kind (R69). -/
def State.snapshotCounts (s : State) (vol : Nat) : List Nat :=
  ([0, 1, 2, 3].map fun c => ((s.snapsOf vol).filter fun p => p.state.code == c).length) ++
    [SnapKind.hourly, .nightly, .manual].map fun k => ((s.snapsOf vol).filter fun p => decide (p.kind = k)).length

/-- A Volume Table entry as it is reported (R44, R69). -/
def State.volumeView (s : State) (vol : Nat) : RecordView :=
  match s.volume vol with
  | some v => .volume vol v (s.versionCounts vol) (s.snapshotCounts vol)
  | none => .detached vol

/-- An extent as it is reported (R52): with each version, the generations that hold it. -/
def State.extentView (s : State) (vol ext : Nat) : RecordView :=
  let e := s.extent vol ext
  .extent vol ext e.owner e.lock (s.damaged vol ext)
    (e.versions.map fun v => (v, ((s.snapsOf vol).filter fun p => v.heldAt p.gen).map Snapshot.gen))

/-! ### Query -/

/-- What a Query is answered (R179): a record, or the status of a subject that is not there. -/
def State.lookup (s : State) : QuerySubject → Except Status RecordView
  | .principal id =>
    (match s.prin id with
     | some p => .ok (s.principalView id p)
     | none => .error .unknownPrincipal)
  | .classEntry c => if c ≤ 63 then .ok (.classEntry c (s.classOf c)) else .error .range
  | .volume vol => if vol < 32 then .ok (s.volumeView vol) else .error .unknownVolume
  | .extent vol ext =>
    (match s.volume vol with
     | none => .error .unknownVolume
     | some v => if ext < v.count then .ok (s.extentView vol ext) else .error .range)
  | .snapshot vol gen =>
    (match s.volume vol, s.snapshot vol gen with
     | none, _ => .error .unknownVolume
     | some _, none => .error .unknownSnapshot
     | some _, some p => .ok (.snapshot p))
  | .restore rid =>
    (match s.recordOf rid with
     | some (rec, r) => .ok (restoreView rec r)
     | none => .error .range)

/-- QUERY (R179). -/
def execQuery (l : Link) (tag : Nat) (subject : QuerySubject) (errs : List StoreError) (s : State) :
    Host.Outcome State Fault Refusal :=
  act (fun s =>
    (request l tag .query true false errs (fun q s =>
      match s.lookup subject with
      | .ok v => s.reply l q .done (.record v)
      | .error st => s.reply l q st .none) s).finish) s

/-! ### Table reads -/

/-- The first `n` keys of a table at or above a start key, ascending; `none` where the table cannot be
read (R179). -/
def State.keysFrom (s : State) (t : TableName) (start n : Nat) : Except Status (List Nat) :=
  match t with
  | .principals => .ok (((s.tally.principals.map Prod.fst).filter fun k => decide (start ≤ k)).take n)
  | .classes => .ok (((List.range 64).filter fun k => decide (start ≤ k)).take n)
  | .volumes => .ok (((List.range 32).filter fun k => decide (start ≤ k)).take n)
  | .extents vol =>
    (match s.volume vol with
     | none => .error .unknownVolume
     | some v => .ok (List.range' start (min n (v.count - start))))
  | .snapshots => .ok (((s.cat.snapshots.map Prod.fst).filter fun k => decide (start ≤ k)).take n)
  | .restores => .ok (((List.range Config.restoreTableSize).filter fun k => decide (start ≤ k)).take n)
  | .unknown _ => .error .range

/-- The record of a table under a key. -/
def State.viewAt (s : State) (t : TableName) (key : Nat) : RecordView :=
  match t with
  | .principals =>
    (match s.prin key with
     | some p => s.principalView key p
     | none => .unused key)
  | .classes => .classEntry key (s.classOf key)
  | .volumes => s.volumeView key
  | .extents vol => s.extentView vol key
  | .snapshots =>
    (match tget s.cat.snapshots key with
     | some p => .snapshot p
     | none => .unused key)
  | .restores =>
    (match s.restore key with
     | some r => restoreView key r
     | none => .unused key)
  | .unknown _ => .unused key

/-- The number of records, behind those already in a reply, before the one that would take its body over
1,048,576 bytes (R179). -/
def recordsThatFit (done : List RecordView) : List RecordView → Nat
  | [] => 0
  | v :: vs => if Config.tableBytes (done ++ [v]) ≤ maxBody then recordsThatFit (done ++ [v]) vs + 1 else 0

/-- The keys of the records a reply carries: up to `count` of them, and fewer where the next would not fit. -/
def State.readKeys (s : State) (t : TableName) (count : Nat) (ks : List Nat) : List Nat :=
  ks.take (recordsThatFit [] ((ks.take count).map (s.viewAt t)))

/-- A table read answered (R179): its records, the end flag, and the cursor moved to the key after the
last. -/
def State.readTable (s : State) (l : Link) (q : Nat) (t : TableName) (start count : Nat) (ks : List Nat) :
    State :=
  let out := s.readKeys t count ks
  let next := match out.getLast? with
    | some k => k + 1
    | none => start
  (s.modLink l fun r => { r with cursor := some { table := t, key := next, detached := false } }).reply l q .done
    (.table (out.map (s.viewAt t)) (decide (ks.length ≤ out.length)))

/-- TABLE_READ (R179). -/
def execTableRead (l : Link) (tag : Nat) (table : TableName) (start count : Nat) (errs : List StoreError)
    (s : State) : Host.Outcome State Fault Refusal :=
  act (fun s =>
    (request l tag .tableRead true false errs (fun q s =>
      if count < 1 ∨ 64 < count then s.reply l q .range .none
      else
        match s.keysFrom table start (count + 1) with
        | .ok ks => s.readTable l q table start count ks
        | .error st => s.reply l q st .none) s).finish) s

/-- TABLE_NEXT (R179). A cursor on a volume detached meanwhile is cleared. -/
def execTableNext (l : Link) (tag count : Nat) (errs : List StoreError) (s : State) :
    Host.Outcome State Fault Refusal :=
  act (fun s =>
    (request l tag .tableNext true false errs (fun q s =>
      match (s.link l).cursor with
      | none => s.reply l q .range .none
      | some c =>
        if count < 1 ∨ 64 < count then s.reply l q .range .none
        else if c.detached then (s.modLink l fun r => { r with cursor := none }).reply l q .unknownVolume .none
        else
          match s.keysFrom c.table c.key (count + 1) with
          | .ok ks => s.readTable l q c.table c.key count ks
          | .error st => (s.modLink l fun r => { r with cursor := none }).reply l q st .none) s).finish) s

/-! ### Status -/

/-- What Status Query reports of a link (R169). -/
def State.linkStatus (s : State) (l : Link) : LinkStatus :=
  let r := s.link l
  { role := s.role l, up := r.up, idle := r.idle, queue := r.queue.length, directives := r.directives.length
    notices := r.notices.length, subs := r.subs, discarded := r.discarded, dropped := r.dropped }

/-- The Tally Unit's figures (R14, R39): dirty lines, castout entries, postings, unsettled and unqueued
principals. -/
def State.tallyFigures (s : State) : List Nat :=
  [(s.tally.cache.filter Line.dirty).length, s.tally.castout.length, s.tally.postings.length,
   (s.tally.principals.filter fun kp => s.isUnsettled kp.1).length, s.unqueuedCount]

/-- A sweep of a snapshot runs (R69). -/
def Snapshot.sweeping (p : Snapshot) : Bool :=
  match p.state with
  | .expiring _ => true
  | .dropping _ (some _) => true
  | _ => false

/-- The Catalogue Unit's figures (R69): occupancy and sweeps running. -/
def State.catalogueFigures (s : State) : List Nat :=
  [s.cat.snapshots.length, (s.cat.snapshots.filter fun kv => kv.2.sweeping).length]

/-- The Restore Engine's figures (R101): restores in each state, and running places occupied. -/
def State.restoreFigures (s : State) : List Nat :=
  ([RestoreState.planned, .running, .paused, .cancelling, .done, .donePartial, .failed, .cancelled].map fun st =>
    (s.rst.table.filter fun kr => decide (kr.2.state = st)).length) ++ [s.placesUsed]

/-- The slot classes in arbiter order. -/
def SlotClass.all : List SlotClass := [.repair, .fetch, .ship, .patrol]

/-- The Stream Buffer's figures (R117): FREE slots, slots in each state, held by each class, waiting
requests of each class, the count each head names, and the reserve. -/
def State.streamFigures (s : State) : List Nat :=
  [s.freeSlots] ++
    ([SlotState.filling, .full, .sending, .awaitingAck].map fun st =>
      (s.str.slots.filter fun kv => decide (kv.2.state = st)).length) ++
    SlotClass.all.map s.slotsHeld ++
    SlotClass.all.map (fun c => (s.waiting c).length) ++
    SlotClass.all.map (fun c => match s.waiting c with
      | r :: _ => r.wants.length
      | [] => 0) ++
    [s.reserve]

/-- The code of a Ship Queue entry's state (Table 7-2). -/
def EntryState.code : EntryState → Nat
  | .unpulled => 0
  | .parked => 1
  | .pulling _ => 2
  | .ready => 3
  | .outstanding => 4

/-- The Ship Queue by entry state and form (R137). -/
def State.shipFigures (s : State) : List Nat :=
  ([0, 1, 2, 3, 4].map fun c => (s.off.queue.filter fun e => e.state.code == c).length) ++
    [EntryForm.ship, .ref, .empty, .damaged].map fun f => (s.off.queue.filter fun e => decide (e.form = f)).length

/-- The code of a plan volume's state (Table 7-1). -/
def PlanState.code : PlanState → Nat
  | .shipping => 0
  | .awaitingDone => 1
  | .complete => 2
  | .shed => 3
  | .failed => 4

/-- What Status Query reports of a plan volume (R137). -/
def State.planStatus (s : State) (p : PlanVol) : PlanStatus :=
  { vol := p.vol, state := p.state.code, target := p.target, base := p.base, countCursor := p.countCursor
    shipCursor := (match s.volume p.vol with
      | some v => v.shipCursor
      | none => 0)
    shipCount := p.shipCount }

/-- The offsite link's figures (R138): Fetch Queue entries of each kind, pending VOLUME_DONEs and DROPs,
and the fetch burst count. -/
def State.offsiteFigures (s : State) : List Nat :=
  let dones := (s.off.controls.filter fun c => match c with
    | .volumeDone .. => true
    | .drop _ _ => false).length
  [(s.off.fetchQueue.filter FetchEntry.isRepair).length,
   (s.off.fetchQueue.filter fun e => !e.isRepair).length, dones, s.off.controls.length - dones, s.off.burst]

/-- The Patrol Unit's figures (R168): Work List items in each state, fold entries, open repair records of
each kind, and the waiting list. -/
def State.patrolFigures (s : State) : List Nat :=
  let items := fun (p : ItemState → Bool) => (s.pat.work.filter fun w => p w.state).length
  [items fun t => decide (t = .waitingLock) || decide (t = .waitingIdle), items (· == .slot),
   items (· == .place), items (· == .issued), s.pat.folds.length,
   (s.pat.repairs.filter fun kv => !kv.2.whole).length, (s.pat.repairs.filter fun kv => kv.2.whole).length,
   s.pat.waiting.length]

/-- The per-volume settings in force (R188). -/
def State.volumeSettings (s : State) : List VolumeSettings :=
  s.cat.volumes.map fun kv =>
    { vol := kv.1, recovery := kv.2.recovery, hourlyKeep := kv.2.hourlyKeep, nightlyKeep := kv.2.nightlyKeep
      hourlyCuts := kv.2.hourlyCuts, nightlyCut := kv.2.nightlyCut }

/-- The report of Status Query. -/
def State.statusReport (s : State) : StatusReport :=
  { op := s.sup.op, quietAwaited := s.sup.quiet.isSome, clockSet := s.sup.clockSet
    prevClean := s.sup.prevClean, settings := s.sup.settings, pendingSettings := s.sup.pendingSettings
    volumeSettings := s.volumeSettings, raised := s.sup.raised, links := allLinks.map s.linkStatus
    tally := s.tallyFigures, catalogue := s.catalogueFigures, restores := s.restoreFigures
    stream := s.streamFigures, windowOpen := s.windowIsOpen, nightEnding := s.nightEnding
    closeInstant := s.off.closeInstant, rate := s.off.rate, work := s.remainingWork
    forecast := s.forecast, lastFit := s.off.lastFit, shedScopes := s.off.shedScopes
    nightCounts := [s.off.nComplete, s.off.nShed, s.off.nMissed, s.off.nFailed]
    shipQueue := s.shipFigures, plan := s.off.plan.map s.planStatus, offLink := s.off.link
    direction := s.off.dir, outstanding := [s.off.outstanding.length, s.fetchesOut]
    expiries := s.off.expiries, offCounts := s.offsiteFigures, shipTurn := s.off.shipTurn.isSome
    patrol := s.patrolFigures }

/-- STATUS_QUERY (R183). -/
def execStatusQuery (l : Link) (tag : Nat) (s : State) (errs : List StoreError := []) :
    Host.Outcome State Fault Refusal :=
  act (fun s =>
    (request l tag .statusQuery true false errs (fun q s => s.reply l q .done (.status s.statusReport)) s).finish) s

/-- The raised counts and the links' counts zeroed (R169, R177). -/
def State.clearCounts (s : State) : State :=
  let s := s.modSup fun u => { u with raised := List.replicate 11 0 }
  allLinks.foldl (fun s l => s.modLink l fun r => { r with discarded := 0, dropped := 0 }) s

/-- STATUS_CLEAR (R177). -/
def execStatusClear (l : Link) (tag : Nat) (s : State) (errs : List StoreError := []) :
    Host.Outcome State Fault Refusal :=
  act (fun s =>
    (request l tag .statusClear true false errs (fun q s => s.clearCounts.reply l q .done .none) s).finish) s

end Sys2Proof.Machine
end

