-- ==== Sys2Proof/Machine/SettingChecks.lean ====
section
/-! DEFINITION. The checks of a Setting Write (R169, R188, Table 11-2), which a Hold Release makes again. -/

namespace Sys2Proof.Machine

/-- A value is inside its range (Table 11-2). -/
def settingInRange : Setting → Bool
  | .linkRole l _ => decide (l ≤ 5)
  | .classEntry c g _ => decide (c ≤ 63) && decide (g ≤ 43200)
  | .hourlyKeep _ n => decide (n ≤ 48)
  | .nightlyKeep _ n => decide (n ≤ 30)
  | .cutWait n => decide (1 ≤ n) && decide (n ≤ 120)
  | .directiveWait n => decide (10 ≤ n) && decide (n ≤ 600)
  | .idleTime n => decide (1 ≤ n) && decide (n ≤ 60)
  | .patrolPeriod n => decide (1 ≤ n) && decide (n ≤ 365)
  | .overdueLimit n => decide (1 ≤ n) && decide (n ≤ 720)
  | .ackWait n => decide (1 ≤ n) && decide (n ≤ 255)
  | .reopenInterval n => decide (10 ≤ n) && decide (n ≤ 3600)
  | .openTime n => decide (n ≤ 86399)
  | .closeTime n => decide (n ≤ 86399)
  | .scope n _ p vs => decide (n ≤ 7) && decide (p ≤ 7) && vs.all fun v => decide (v ≤ 31)
  | .assumedRate n => decide (1 ≤ n) && decide (n ≤ 1048576)
  | .reserveMargin n => decide (n ≤ 7200)
  | .cacheMode _ => true
  | .autoActivate _ => true
  | .recoveryFlag _ _ => true
  | .hourlyCuts _ _ => true
  | .nightlyCut _ _ => true
  | .windowSource _ => true
  | .unknown _ => false

/-- The volume a per-volume setting names. -/
def settingVolume : Setting → Option Nat
  | .recoveryFlag v _ => some v
  | .hourlyKeep v _ => some v
  | .nightlyKeep v _ => some v
  | .hourlyCuts v _ => some v
  | .nightlyCut v _ => some v
  | _ => none

/-- A setting of kind IN_STANDBY (Table 11-2). -/
def settingInStandby : Setting → Bool
  | .cacheMode _ => true
  | .autoActivate _ => true
  | .linkRole _ _ => true
  | _ => false

/-- A link by its number. -/
def linkOf (n : Nat) : Option Link := allLinks.find? fun l => l.val == n

/-- The role checks of R169. -/
def State.roleCheck (s : State) (n : Nat) (r : Role) : Option Status :=
  match linkOf n with
  | none => some .range
  | some l =>
    if r = .fileserver ∧ (allLinks.any fun k => decide (k ≠ l) && decide (s.role k = .console)) = false then
      some .range
    else if r = .console ∧ (s.cat.volumes.any fun kv => decide (kv.2.owner = l)) = true then some .inUse
    else none

/-- The checks of a Setting Write in order (R188). -/
def State.settingCheck (s : State) (x : Setting) : Option Status :=
  match x with
  | .unknown _ => some .malformed
  | _ =>
    if settingInRange x = false then some .range
    else if (match settingVolume x with
        | some v => (s.volume v).isNone
        | none => false) = true then some .unknownVolume
    else if settingInStandby x = true ∧ s.sup.op ≠ .standby then some .wrongState
    else
      match x with
      | .linkRole n r => s.roleCheck n r
      | _ => none

/-- The settings in force changed. -/
def State.modSettings (s : State) (f : Settings → Settings) : State :=
  s.modSup fun u => { u with settings := f u.settings }

end Sys2Proof.Machine
end

