-- ==== Sys2Proof/Machine/Settings.lean ====
section
/-! DEFINITION. The Settings Store and the settings hold: Setting Write, Scope Set, Hold Begin, Hold Release
and Hold Abandon (R118, R121, R188). -/

namespace Sys2Proof.Machine

/-! ### Writing -/

/-- The pending values changed. -/
def State.modPending (s : State) (f : PendingSettings → PendingSettings) : State :=
  s.modSup fun u => { u with pendingSettings := f u.pendingSettings }

/-- An AT_WINDOW value: in force at once while the window is closed and no night is ending, and pending
otherwise (R118, R188). -/
def State.atWindow (s : State) (now : Settings → Settings) (later : PendingSettings → PendingSettings) : State :=
  if s.off.phase = .closed then s.modSettings now else s.modPending later

/-- A scope written (R121). -/
def State.writeScope (s : State) (n : Nat) (enabled : Bool) (priority : Nat) (vols : List Nat) : State :=
  let sc : Scope := { enabled := enabled, priority := priority, vols := distinctNat vols }
  s.atWindow (fun t => { t with scopes := tput t.scopes n sc }) fun p => { p with scopes := tput p.scopes n sc }

/-- The tally cache mode written (R13): a switch to WRITE_THROUGH begins to cast out every dirty line; a
switch to WRITE_BACK ends that, unless a reply still waits on it. -/
def State.writeMode (s : State) (m : CacheMode) : State :=
  if s.sup.settings.cacheMode = m then s
  else
    let s := s.modSettings fun t => { t with cacheMode := m }
    match m with
    | .writeThrough => { s with tally.flushing := true }
    | .writeBack => { s with tally.flushing := !s.tally.modeReply.isEmpty }

/-- A Class Table entry written (R35). -/
def State.writeClass (s : State) (c grace : Nat) (selfRestore : Bool) : State :=
  s.modSettings fun t => { t with classes := tput t.classes c { grace := grace, selfRestore := selfRestore } }

/-- A checked setting stored by its owning block (R188), with what its rule has follow: retention (R71), dues
closed (R72, R73). -/
def State.storeSetting (s : State) (x : Setting) : State :=
  match x with
  | .cacheMode m => s.writeMode m
  | .autoActivate b => s.modSettings fun t => { t with autoActivate := b }
  | .linkRole n r =>
    (match linkOf n with
     | some l => s.modSettings fun t => { t with roles := t.roles.set l r }
     | none => s)
  | .classEntry c g b => s.writeClass c g b
  | .recoveryFlag v b => s.modVolume v fun e => { e with recovery := b }
  | .hourlyKeep v n => (s.modVolume v fun e => { e with hourlyKeep := n }).retain v .hourly
  | .nightlyKeep v n => (s.modVolume v fun e => { e with nightlyKeep := n }).retain v .nightly
  | .hourlyCuts v b =>
    let s := s.modVolume v fun e => { e with hourlyCuts := b }
    if b then s else s.closeDue false v
  | .nightlyCut v b =>
    let s := s.modVolume v fun e => { e with nightlyCut := b }
    if b then s else s.closeDue true v
  | .cutWait n => (s.modSettings fun t => { t with cutWait := n }).missLate
  | .directiveWait n => s.modSettings fun t => { t with directiveWait := n }
  | .idleTime n => s.modSettings fun t => { t with idleTime := n }
  | .patrolPeriod n => s.modSettings fun t => { t with patrolPeriod := n }
  | .overdueLimit n => s.modSettings fun t => { t with overdueLimit := n }
  | .ackWait n => s.modSettings fun t => { t with ackWait := n }
  | .reopenInterval n => s.modSettings fun t => { t with reopenInterval := n }
  | .windowSource w => s.atWindow (fun t => { t with windowSource := w }) fun p => { p with windowSource := some w }
  | .openTime n => s.atWindow (fun t => { t with openTime := n }) fun p => { p with openTime := some n }
  | .closeTime n => s.atWindow (fun t => { t with closeTime := n }) fun p => { p with closeTime := some n }
  | .scope n e p vs => s.writeScope n e p vs
  | .assumedRate n => s.atWindow (fun t => { t with assumedRate := n }) fun p => { p with assumedRate := some n }
  | .reserveMargin n =>
    s.atWindow (fun t => { t with reserveMargin := n }) fun p => { p with reserveMargin := some n }
  | .unknown _ => s

/-- A setting whose writing has the window evaluated (R118). -/
def settingOfWindow : Setting → Bool
  | .windowSource _ => true
  | .openTime _ => true
  | .closeTime _ => true
  | _ => false

/-- A checked setting written, and the window evaluated where it is one of the window's (R118). -/
def State.writeSetting (s : State) (x : Setting) : State :=
  if settingOfWindow x then (s.storeSetting x).evaluateOpen else s.storeSetting x

/-- A setting written and DONE answered (R188); a switch to WRITE_THROUGH is answered when no line is
dirty and the castout buffer is empty (R13). -/
def State.writeAndReply (s : State) (l : Link) (q : Nat) (x : Setting) : State :=
  match x with
  | .cacheMode .writeThrough =>
    if s.sup.settings.cacheMode = .writeThrough then s.reply l q .done .none
    else { s.writeSetting x with tally.modeReply := s.tally.modeReply ++ [(l, q)] }
  | _ => (s.writeSetting x).reply l q .done .none

/-- A checked setting staged on a link with an open hold, or written (R188). -/
def State.takeSetting (s : State) (l : Link) (q : Nat) (x : Setting) : State :=
  match s.settingCheck x with
  | some st => s.reply l q st .none
  | none =>
    match (s.link l).hold with
    | some held => s.stage l q held (.setting x)
    | none => s.writeAndReply l q x

/-- SETTING_WRITE (R188). -/
def execSettingWrite (l : Link) (tag : Nat) (setting : Setting) (errs : List StoreError) (s : State) :
    Host.Outcome State Fault Refusal :=
  act (fun s =>
    (request l tag .settingWrite true true errs (fun q s => s.takeSetting l q setting) s).finish) s

/-- SCOPE_SET (R121). -/
def execScopeSet (l : Link) (tag scope : Nat) (enabled : Bool) (priority : Nat) (vols : List Nat) (s : State)
    (errs : List StoreError := []) : Host.Outcome State Fault Refusal :=
  act (fun s =>
    (request l tag .scopeSet true true
      errs (fun q s => s.takeSetting l q (.scope scope enabled priority vols)) s).finish) s

/-! ### The settings hold -/

/-- HOLD_BEGIN (R188). -/
def execHoldBegin (l : Link) (tag : Nat) (s : State) (errs : List StoreError := []) :
    Host.Outcome State Fault Refusal :=
  act (fun s =>
    (request l tag .holdBegin true false errs (fun q s =>
      if (s.link l).hold.isSome then s.reply l q .busy .none
      else (s.modLink l fun r => { r with hold := some [] }).reply l q .done .none) s).finish) s

/-- A staged change of kind IN_STANDBY. -/
def stagedInStandby : Staged → Bool
  | .setting x => settingInStandby x
  | _ => false

/-- The check of a staged change, made again when it is applied (R188). -/
def State.stagedCheck (s : State) : Staged → Option Status
  | .setting x => s.settingCheck x
  | .edit id c => s.editCheck id c
  | .freeze id _ => if (s.prin id).isNone then some .unknownPrincipal else none

/-- A staged edit of class and limits applied (R5, R39, R41). An Admit or a reservation of that principal
that is computed and not yet applied is computed again, with the lines gathered anew, so that no grace
change falls between its stages (R25). -/
def State.applyEdit (s : State) (id : Nat) (c : EditChanges) : State :=
  let soft := s.softChanges id c
  let s := (s.lazyExpire id).writeEdit id c
  let s := if soft then s.evalGrace id else s
  s.regatherIf fun o => decide (o.stage = .marking) && o.outcome.isSome && o.ids.contains id

/-- A staged change applied by its owning block (R188). -/
def State.applyStaged (s : State) : Staged → State
  | .setting x => s.storeSetting x
  | .edit id c => s.applyEdit id c
  | .freeze id b => s.setFrozen id b

/-- Staged changes applied in staging order as one operation (R188): each is checked again, and one that
fails is skipped, with its staging index and status. The count of those applied is `n`. -/
def State.release (apply : State → Staged → State) :
    List (Nat × Staged) → State × Nat × List (Nat × Status) → State × Nat × List (Nat × Status)
  | [], r => r
  | (i, c) :: cs, (s, n, skipped) =>
    match s.stagedCheck c with
    | some st => State.release apply cs (s, n, skipped ++ [(i, st)])
    | none => State.release apply cs (apply s c, n + 1, skipped)

/-- A staged change that has the window evaluated (R118). -/
def stagedOfWindow : Staged → Bool
  | .setting x => settingOfWindow x
  | _ => false

/-- A list of staged changes released (R188): all are applied in staging order in one step, the window being
evaluated when all of them stand. The list is emptied; the hold stays open (log entry 17). -/
def State.releaseHold (s : State) (l : Link) (q : Nat) (held : List Staged) : State :=
  let r := State.release State.applyStaged ((List.range held.length).zip held) (s, 0, [])
  let s := if held.any stagedOfWindow then r.1.evaluateOpen else r.1
  (s.modLink l fun k => { k with hold := some [] }).reply l q .done (.holdReleased r.2.1 r.2.2)

/-- HOLD_RELEASE (R188). -/
def execHoldRelease (l : Link) (tag : Nat) (s : State) (errs : List StoreError := []) :
    Host.Outcome State Fault Refusal :=
  act (fun s =>
    (request l tag .holdRelease true false errs (fun q s =>
      match (s.link l).hold with
      | none => s.reply l q .range .none
      | some cs =>
        if cs.any stagedInStandby = true ∧ s.sup.op ≠ .standby then s.reply l q .wrongState .none
        else s.releaseHold l q cs) s).finish) s

/-- HOLD_ABANDON (R188). -/
def execHoldAbandon (l : Link) (tag : Nat) (s : State) (errs : List StoreError := []) :
    Host.Outcome State Fault Refusal :=
  act (fun s =>
    (request l tag .holdAbandon true false errs (fun q s =>
      (s.modLink l fun r => { r with hold := none }).reply l q .done .none) s).finish) s

end Sys2Proof.Machine
end

