-- ==== Sys2Proof/Machine/Power.lean ====
section
/-! DEFINITION. The Supervisor's commands: power-on and loading (R21, R42, R104, R184, R189), HOLDUP (R22,
R103, R116, R154, R168, R186), Standby and Clear (R185), Time Set (R187). -/

namespace Sys2Proof.Machine

/-! ### Power-on -/

/-- A version as it is loaded: reference count 0 (R58), SUSPECT and REPAIRING made SOUND (R168), in a damaged record
too (log entry 59). -/
def Version.load (v : Version) : Version :=
  { v with
    res := match v.res with
      | .here l _ => .here l 0
      | .offsite => .offsite
    repair := match v.repair with
      | .suspect => .sound
      | .repairing => .sound
      | r => r }

/-- An extent record as it is loaded: its lock is clear (R62). -/
def Extent.load (e : Extent) : Extent := { e with lock := none, versions := e.versions.map Version.load }

/-- A snapshot as it is loaded: pins 0 (R76), sweeps at extent 0 (R79, R82). -/
def Snapshot.load (p : Snapshot) : Snapshot :=
  { p with
    restorePins := 0, shipPins := 0
    state := match p.state with
      | .expiring _ => .expiring 0
      | .dropping a _ => .dropping a (if p.held then none else some 0)
      | st => st }

/-- The Catalogue Unit as it is loaded (R58, R59, R62, R72, R76, R79, R82, R168). -/
def Catalogue.load (c : Catalogue) : Catalogue :=
  { Catalogue.initial with
    volumes := tmap (fun _ v => { v with refTotal := 0 }) c.volumes
    extents := (tmap (fun _ e => e.load) c.extents).filter fun kv => decide (kv.2 ≠ Extent.blank)
    snapshots := tmap (fun _ p => p.load) c.snapshots
    reclaims := c.reclaims.map fun e => { e with refs := 0 } }

/-- The DROPs pending at power-on (R82, R153). -/
def Catalogue.drops (c : Catalogue) : List Control :=
  c.snapshots.filterMap fun kv =>
    match kv.2.state with
    | .dropping _ _ => if kv.2.held then some (.drop kv.2.vol kv.2.gen) else none
    | _ => none

/-- The part as power-on leaves it before the layout check: what table memory keeps, and every block
empty (R21, R106, R138, R168, R169, R177, R184, R187). -/
def State.cold (s : State) : State :=
  { s with
    sup := { Supervisor.initial with
      layout := s.sup.layout, powerWarn := s.sup.powerWarn, cleanFlag := s.sup.cleanFlag
      settings := s.sup.settings, pendingSettings := s.sup.pendingSettings, draws := s.sup.draws }
    links := Vector.replicate 6 LinkRec.initial
    tally := { Tally.initial with principals := s.tally.principals, note := s.tally.note }
    cat.attaching := []
    rst := { RestoreEngine.initial with
      table := s.rst.table, counter := s.rst.counter, nextAccept := s.rst.nextAccept
      nextFinish := s.rst.nextFinish }
    str := Stream.initial
    off := Offsite.initial
    pat := Patrol.initial
    sent := [] }

/-- Loading after a layout check that passed: the Catalogue Unit and the Patrol Unit load, pending
settings come into force (R188), DROPs wait (R82), and the Tally Unit's walk begins. -/
def State.load (s : State) : State :=
  let s := s.applyPending.modSup fun u => { u with stage := .walking }
  let s := { s with cat := s.cat.load }
  s.modOff fun o => { o with controls := s.cat.drops }

/-- POWER_ON (R184, R189): the layout check, and the loading that it lets proceed. A part in any state,
HALTED included, starts so. -/
def execPowerOn (errs : List StoreError) (s : State) : Host.Outcome State Fault Refusal :=
  let s := s.cold
  .next (if errs.contains .layout then s.halt .layout
    else
      match s.sup.layout with
      | .other => s.halt .layout
      | .blank => withErrs errs (fun s => s) s
      | .matching => withErrs errs (fun s => s) s.load)

/-- Table memory in its first-initialised form (R189). -/
def State.initialise (s : State) : State :=
  { s with
    sup := { s.sup with
      layout := .matching, stage := .walking, cleanFlag := false, settings := Settings.initial
      pendingSettings := PendingSettings.none }
    tally := Tally.initial
    cat := Catalogue.initial
    rst := RestoreEngine.initial }

/-- LAYOUT_INITIALISED (R189): the layout block is written last. -/
def execLayoutInitialised (s : State) (errs : List StoreError := []) : Host.Outcome State Fault Refusal :=
  act (fun s =>
    if s.sup.op = .loading ∧ s.sup.stage = .initialising then withErrs errs (fun s => s) s.initialise else s) s

/-! ### The Tally Unit's walk and the end of LOADING -/

/-- The record carries the marker, or stands in the note (R21). -/
def State.walkMarks (s : State) (id : Nat) (p : Principal) : Bool := p.marker || s.tally.note.contains id

/-- Unsettled flags from markers (R21), each in the write that clears the marker; the tally cache and the
castout buffer are empty. -/
def State.walkFlags (s : State) : State :=
  { s with
    tally.cache := []
    tally.castout := []
    tally.principals := tmap (fun id p =>
      { p with unsettled := p.unsettled || s.walkMarks id p, marker := false }) s.tally.principals }

/-- Each pool's unsettled member count, and the pools that it makes unsettled (R21). -/
def State.walkPools (s : State) : State :=
  { s with
    tally.principals := tmap (fun id p =>
      let n := ((s.membersOf id).filter fun m => m.2.unsettled).length
      if p.kind = .pool then { p with unsettledMembers := n, unsettled := p.unsettled || decide (0 < n) }
      else p) s.tally.principals }

/-- Principals that are unsettled. -/
def State.unsettledCount (s : State) : Nat := (s.tally.principals.filter fun kp => kp.2.unsettled).length

/-- A restore record as LOADING fails it (R104): no conversion of it survived power-off. -/
def State.failLoading (s : State) (rec : Nat) : State :=
  (s.modRestore rec fun r =>
    { r with
      steps := r.steps.map fun t =>
        { t with recorded := t.recorded && decide (t.state = .done), again := false } }).powerFail rec

/-- The walk of R21 ends: flags and counts, the note, UNSETTLED, recounts, the Grace Queue (R42), and the
restores failed (R104). `before` is the number of principals unsettled before the walk. -/
def State.endWalk (s : State) (before : Nat) : State :=
  let s := { s.walkFlags.walkPools with tally.note := [], tally.recounts := [] }
  let n := s.unsettledCount - before
  let s := if 0 < n then s.raise (.unsettled n) else s
  let s := s.beginRecounts.rebuildGrace
  let s := (s.rst.table.map Prod.fst).foldl State.failLoading s
  s.modSup fun u => { u with stage := .walked }

/-- TALLY_LOADING_WALK_END (R21). -/
def execTallyLoadingWalkEnd (errs : List StoreError) (s : State) : Host.Outcome State Fault Refusal :=
  act (fun s =>
    if s.sup.op = .loading ∧ s.sup.stage = .walking then
      let before := s.unsettledCount
      withErrs errs (fun s => (s.endWalk before).finish) s
    else s) s

/-! ### HOLDUP -/

/-- Requests not yet taken are answered WRONG_STATE (R182), and so is a waiting Standby Enter or Clear
(R185). -/
def State.refuseWaiting (s : State) : State :=
  let s := allLinks.foldl (fun s l =>
    (((s.link l).queue.filter fun e => !e.taken).map ReqEntry.num).foldl
      (fun s q => s.reply l q .wrongState .none) s) s
  let s := s.modRst fun e => { e with waiting := [] }
  match s.sup.quiet with
  | some w => (s.modSup fun u => { u with quiet := none }).reply w.link w.req .wrongState .none
  | none => s

/-- The Offsite Engine's holdup path (R136, R154): frames abandoned, CLOSE sent if the link is UP, the
Fetch Queue emptied, SHIP entries back to UNPULLED. -/
def State.offsiteHoldup (s : State) : State :=
  let s := s.cancelRuns fun _ => true
  let up := s.linkUp
  let s := s.giveBackAll false
  let s := if up then s.send (.offsite .close) else s
  let ending := s.nightEnding
  s.modOff fun o =>
    { o with
      link := .down, dir := .idle, expiries := 0, idleSince := none, shipTurn := none
      fetchQueue := [], roomWaits := []
      queue := mapIf (fun e => decide (e.form = .ship) && !ending)
        (fun e => { e with state := .unpulled, slot := none }) o.queue }

/-- The Stream Buffer's holdup path (R116): slots but those of PATROL are freed, and every waiting request
is discarded. -/
def State.streamHoldup (s : State) : State :=
  let s := s.freeSlotsIf fun x => decide (x.cls ≠ .patrol)
  { s with str.waitRepair := [], str.waitFetch := [], str.waitShip := [], str.waitPatrol := [] }

/-- The directives of repair records are answered to nobody (R168). -/
def LinkRec.orphanRepairs (r : LinkRec) : LinkRec :=
  { r with
    placeWaits := []
    tx := r.tx.filter fun f => match f with
      | .chunk _ _ _ => false
      | _ => true
    directives := r.directives.map fun d =>
      match d.issuer with
      | .repair _ _ => { d with issuer := .orphan }
      | _ => d }

/-- A SUSPECT or REPAIRING version written SOUND (R168). -/
def Version.soundAgain (v : Version) : Version :=
  { v with
    repair := match v.repair with
      | .suspect => .sound
      | .repairing => .sound
      | r => r }

/-- The Patrol Unit's holdup path (R168): its lists and records are emptied. The PATROL slot of an
outstanding pull is freed as that pull ends (R116). DESIGN CHOICE (log entry 59): versions of damaged records are
written SOUND too, as R168 says of every version; R64 ignores requests to such a record. -/
def State.patrolHoldup (s : State) : State :=
  let s := (s.pat.work.filter fun w => decide (w.state ≠ .issued)).foldl (fun s w => s.leaveItem w.n) s
  let s := s.modPat fun p =>
    { p with work := [], folds := [], repairs := [], waiting := [], clearing := false }
  let s := allLinks.foldl (fun s l => s.modLink l LinkRec.orphanRepairs) s
  { s with cat.extents := tmap (fun _ e => { e with versions := e.versions.map Version.soundAgain }) s.cat.extents }

/-- Entry to HOLDUP (R186). -/
def State.enterHoldup (s : State) : State :=
  let s := s.modSup fun u => { u with op := .holdup }
  let s := s.refuseWaiting
  let s := { s with tally.recounts := [], tally.flushing := true }
  let s := (s.rst.table.map Prod.fst).foldl State.powerFail s
  s.offsiteHoldup.streamHoldup.patrolHoldup

/-- The return to STANDBY (R22, R42, R74, R116, R186): the flag is written clear, recounts begin again,
deferred expiries and missed cuts take effect. -/
def State.leaveHoldup (s : State) : State :=
  let s := s.modSup fun u => { u with op := .standby, cleanFlag := false }
  let s := { s with tally.flushing := false, str.slots := [] }
  s.beginRecounts.expireDue.missLate

/-- POWER_WARN_ASSERT (R186): the line is ignored in LOADING until its end, and in HALTED. -/
def execPowerWarnAssert (s : State) (errs : List StoreError := []) : Host.Outcome State Fault Refusal :=
  let s := { s with sup.powerWarn := true }
  act (withErrs errs fun s => if s.running then s.enterHoldup.finish else s) s

/-- The markers left in stored records cleared. A line that a change brought back to drift 0 is clean and its
record keeps the marker (R11). DESIGN CHOICE (log entry 53): the write that says the shutdown was clean
clears those left, so that the walk finds no marker (R21). -/
def State.clearMarkers (s : State) : State :=
  { s with tally.principals := tmap (fun _ p => { p with marker := false }) s.tally.principals }

/-- CLEAN_SHUTDOWN_WRITE (R22, R186). -/
def execCleanShutdownWrite (s : State) (errs : List StoreError := []) : Host.Outcome State Fault Refusal :=
  act (withErrs errs fun s =>
    if s.sup.op = .holdup ∧ s.sup.cleanFlag = false ∧ s.tallyEmpty = true then
      let s := s.clearMarkers.modSup fun u => { u with cleanFlag := true }
      if s.sup.powerWarn then s else s.leaveHoldup.finish
    else s) s

/-- POWER_WARN_DEASSERT (R186). -/
def execPowerWarnDeassert (s : State) (errs : List StoreError := []) : Host.Outcome State Fault Refusal :=
  let s := { s with sup.powerWarn := false }
  act (withErrs errs fun s => if s.sup.op = .holdup ∧ s.sup.cleanFlag = true then s.leaveHoldup.finish else s) s

/-- Every block has reported its loading ended (R184): the walk has ended, its recounts have run and the
releases of failed restores are applied. -/
def State.loaded (s : State) : Bool :=
  decide (s.sup.op = .loading) && decide (s.sup.stage = .walked) && s.tally.recounts.isEmpty &&
    s.tally.ops.isEmpty && s.tally.writes.isEmpty

/-- The end of LOADING (R184). -/
def State.endLoading (s : State) : State :=
  let s := s.modSup fun u => { u with prevClean := u.cleanFlag, cleanFlag := false }
  if s.sup.powerWarn then s.enterHoldup
  else if s.sup.settings.autoActivate then
    let s := s.modSup fun u => { u with op := .active }
    if s.workWaits then s.askOpening else s
  else s.modSup fun u => { u with op := .standby }

/-- LOADING_END (R184). -/
def execLoadingEnd (s : State) (errs : List StoreError := []) : Host.Outcome State Fault Refusal :=
  act (withErrs errs fun s => if s.loaded then s.endLoading.finish else s) s

/-! ### Standby and Clear -/

/-- The Offsite Engine's Standby Enter (R136, R154): no new pull, the link drained to its closing; OPENING
and FAULTED go DOWN at once. The chunks of pulls in flight are not kept when they complete (R111). -/
def State.offsiteStandby (s : State) : State :=
  let s := (s.cancelRuns fun _ => true).freeFullShip.leaveUp
  let s := s.modOff fun o => { o with pulls := o.pulls.map fun p => { p with cut := true } }
  match s.off.link with
  | .up => s.modOff fun o => { o with dir := .draining .toClose, shipTurn := none }
  | _ => s.modOff fun o => { o with link := .down, dir := .idle, expiries := 0 }

/-- The Patrol Unit's Standby Enter (R168): items in SLOT or PLACE return to WAITING, and records wait for
no place. -/
def State.patrolStandby (s : State) : State :=
  let back := s.pat.work.filter fun w => decide (w.state = .slot) || decide (w.state = .place)
  let s := back.foldl (fun s w =>
    (((s.withdrawAsk (.verify w.n)).freeAllOf (.verify w.n)).leavePlaces (.verify w.n)).modItem w.n
      fun x => { x with state := .waitingIdle }) s
  allLinks.foldl (fun s l => s.modLink l fun r =>
    { r with placeWaits := r.placeWaits.filter fun w => match w with
        | .repair _ _ => false
        | _ => true }) s

/-- The state set to STANDBY and quiet asked for (R185). -/
def State.enterStandby (s : State) (w : QuietWait) : State :=
  let s := s.modSup fun u => { u with op := .standby, quiet := some w }
  s.pauseRestores.offsiteStandby.patrolStandby

/-- STANDBY_ENTER (R185). -/
def execStandbyEnter (l : Link) (tag : Nat) (s : State) (errs : List StoreError := []) :
    Host.Outcome State Fault Refusal :=
  act (fun s =>
    (request l tag .standbyEnter true true errs (fun q s =>
      if s.sup.quiet.isSome then s.reply l q .busy .none
      else if s.sup.op = .active then s.enterStandby { link := l, req := q, isClear := false }
      else s.reply l q .done .none) s).finish) s

/-- The Patrol Unit is quiet (R168): no verifying pull and no FIX is outstanding, and no Clear's emptying
of the Work List awaits one. -/
def State.patrolQuiet (s : State) : Bool :=
  !s.pat.clearing &&
    !(allLinks.any fun l => (s.link l).directives.any fun d =>
      decide (d.kind = .fix) || (match d.issuer with
        | .verify _ => true
        | _ => false))

/-- The three blocks are quiet (R102, R154, R168). -/
def State.isQuiet (s : State) : Bool := s.restoresQuiet && decide (s.off.link = .down) && s.patrolQuiet

/-- QUIET_REPORTED (R185). -/
def execQuietReported (s : State) : Host.Outcome State Fault Refusal :=
  act (fun s =>
    match s.sup.quiet with
    | some w =>
      if s.isQuiet then
        ((s.modSup fun u => { u with quiet := none }).reply w.link w.req .done .none).finish
      else s
    | none => s) s

/-- The part set ACTIVE (R185): restores resume, the window is evaluated, and the link is opened if work
waits. -/
def State.exitStandby (s : State) : State :=
  let s := (s.modSup fun u => { u with op := .active }).resumeRestores.evaluateWindow
  if s.workWaits then s.askOpening else s

/-- STANDBY_EXIT (R185). -/
def execStandbyExit (l : Link) (tag : Nat) (s : State) (errs : List StoreError := []) :
    Host.Outcome State Fault Refusal :=
  act (fun s =>
    (request l tag .standbyExit true true errs (fun q s =>
      if s.sup.quiet.isSome then s.reply l q .busy .none
      else if s.sup.op = .active then s.reply l q .done .none
      else s.exitStandby.reply l q .done .none) s).finish) s

/-- Every active restore cancelled (R99, R102). -/
def State.cancelAll (s : State) : State :=
  (s.rst.table.map Prod.fst).foldl (fun s rec => (s.cancelRestore rec).2) s

/-- Clear (R185): restores cancelled, the night ended as at window close, then as Standby Enter, with the
Work List to be emptied. -/
def State.clearPart (s : State) (w : QuietWait) : State :=
  let s := s.modSup fun u => { u with op := .standby, quiet := some w }
  let s := s.cancelAll.closeWindow
  s.offsiteStandby.patrolStandby.modPat fun p => { p with clearing := true }

/-- CLEAR (R185). -/
def execClear (l : Link) (tag : Nat) (s : State) (errs : List StoreError := []) :
    Host.Outcome State Fault Refusal :=
  act (fun s =>
    (request l tag .clear true true errs (fun q s =>
      if s.sup.quiet.isSome then s.reply l q .busy .none
      else s.clearPart { link := l, req := q, isClear := true }) s).finish) s

/-! ### The clock -/

/-- The clock written (R40, R119, R187): expiries that fall due, the close instant, the window. -/
def State.setClock (s : State) (value : Nat) : State :=
  let s := s.modSup fun u => { u with clock := value, clockSet := true, counted := false }
  let s := s.expireDue
  let s := if s.windowIsOpen then s.reckonClose else s
  s.evaluateWindow

/-- TIME_SET (R187). A value that does not fit its field is answered MALFORMED at arrival, before the part's
state, the queue or the link's role is looked at (R171, check 3; log entry 13). -/
def execTimeSet (l : Link) (tag value : Nat) (s : State) (errs : List StoreError := []) :
    Host.Outcome State Fault Refusal :=
  act (fun s =>
    if maxClock < value then
      withErrs errs (fun s => (s.replyAtOnce l tag .timeSet .malformed).finish) ((s.arrive l).busy l)
    else
      (request l tag .timeSet true true errs (fun q s =>
        (s.setClock value).reply l q .done .none) s).finish) s

/-- One second of the clock (R187, log entry 2): it stops at 2^48 − 1; elapsed seconds go on. -/
def State.tick (s : State) : State :=
  s.modSup fun u =>
    { u with
      clock := if u.clock < maxClock then u.clock + 1 else u.clock
      counted := decide (u.clock < maxClock) || u.counted
      hourlyTaken := if u.clock < maxClock then false else u.hourlyTaken
      elapsed := u.elapsed + 1 }

end Sys2Proof.Machine
end

