-- ==== Sys2Proof/Machine/Dispatch.lean ====
section
/-! DEFINITION. One arm for each command: its meaning. -/

namespace Sys2Proof.Machine

def exec (i : Instr) (s : State) : Host.Outcome State Fault Refusal :=
  match i with
  | .powerOn errs => Sys2Proof.Machine.execPowerOn errs s
  | .layoutInitialised errs => Sys2Proof.Machine.execLayoutInitialised s errs
  | .tallyLoadingWalkEnd errs => Sys2Proof.Machine.execTallyLoadingWalkEnd errs s
  | .loadingEnd errs => Sys2Proof.Machine.execLoadingEnd s errs
  | .powerWarnAssert errs => Sys2Proof.Machine.execPowerWarnAssert s errs
  | .cleanShutdownWrite errs => Sys2Proof.Machine.execCleanShutdownWrite s errs
  | .powerWarnDeassert errs => Sys2Proof.Machine.execPowerWarnDeassert s errs
  | .serialLossOfSignal l errs => Sys2Proof.Machine.execSerialLossOfSignal l s errs
  | .frameDiscard l frame errs => Sys2Proof.Machine.execFrameDiscard l frame s errs
  | .unknownRequest l frame errs => Sys2Proof.Machine.execUnknownRequest l frame s errs
  | .linkTransmit l errs => Sys2Proof.Machine.execLinkTransmit l errs s
  | .linkIdle l errs => Sys2Proof.Machine.execLinkIdle l s errs
  | .directiveWaitExpiry l tag errs => Sys2Proof.Machine.execDirectiveWaitExpiry l tag s errs
  | .admitReq l tag principal n q partialOk errs => Sys2Proof.Machine.execAdmit l tag principal n q partialOk s errs
  | .admissionCalculation op errs => Sys2Proof.Machine.execAdmissionCalculation op errs s
  | .admitReply op errs => Sys2Proof.Machine.execAdmitReply op s errs
  | .tallyFillReadEnd principal errs => Sys2Proof.Machine.execTallyFillReadEnd principal errs s
  | .markerWriteEnd op errs => Sys2Proof.Machine.execMarkerWriteEnd op errs s
  | .castoutDrain errs => Sys2Proof.Machine.execCastoutDrain errs s
  | .release l tag principal blocks errs => Sys2Proof.Machine.execRelease l tag principal blocks s errs
  | .postingApply errs => Sys2Proof.Machine.execPostingApply s errs
  | .settle l tag principal counted errs => Sys2Proof.Machine.execSettle l tag principal counted s errs
  | .poolRecountEnd pool errs => Sys2Proof.Machine.execPoolRecountEnd pool errs s
  | .principalCreate l tag id kind cls course dept soft hard errs => Sys2Proof.Machine.execPrincipalCreate l tag id kind cls course dept soft hard s errs
  | .principalEdit l tag id changes errs => Sys2Proof.Machine.execPrincipalEdit l tag id changes s errs
  | .principalDelete l tag id errs => Sys2Proof.Machine.execPrincipalDelete l tag id s errs
  | .freeze l tag principal frozen errs => Sys2Proof.Machine.execFreeze l tag principal frozen s errs
  | .conversion op errs => Sys2Proof.Machine.execConversion op errs s
  | .reservationRelease op errs => Sys2Proof.Machine.execReservationRelease op s errs
  | .graceExpiry errs => Sys2Proof.Machine.execGraceExpiry s errs
  | .commit l tag vol ext owner loc occ codes errs => Sys2Proof.Machine.execCommit l tag vol ext owner loc occ codes errs s
  | .volumeAttach l tag vol owner count recovery hourlyKeep nightlyKeep hourlyCuts nightlyCut errs => Sys2Proof.Machine.execVolumeAttach l tag vol owner count recovery hourlyKeep nightlyKeep hourlyCuts nightlyCut errs s
  | .attachComplete vol errs => Sys2Proof.Machine.execAttachComplete vol errs s
  | .volumeDetach l tag vol errs => Sys2Proof.Machine.execVolumeDetach l tag vol errs s
  | .cut l tag vol kind errs => Sys2Proof.Machine.execCut l tag vol kind errs s
  | .hourlyCutDueOpen errs => Sys2Proof.Machine.execHourlyCutDueOpen s errs
  | .cutWaitExpiry vol errs => Sys2Proof.Machine.execCutWaitExpiry vol s errs
  | .expireLocal l tag vol gen errs => Sys2Proof.Machine.execExpireLocal l tag vol gen s errs
  | .expirySweepVisit vol gen errs => Sys2Proof.Machine.execExpirySweepVisit vol gen errs s
  | .expireOffsite l tag vol gen errs => Sys2Proof.Machine.execExpireOffsite l tag vol gen s errs
  | .dropSweepVisit vol gen errs => Sys2Proof.Machine.execDropSweepVisit vol gen errs s
  | .restore l tag body errs => Sys2Proof.Machine.execRestore l tag body s errs
  | .restoreAcceptance errs => Sys2Proof.Machine.execRestoreAcceptance errs s
  | .restoreStart errs => Sys2Proof.Machine.execRestoreStart s errs
  | .stepTakeUp rec errs => Sys2Proof.Machine.execStepTakeUp rec errs s
  | .put rec step errs => Sys2Proof.Machine.execPut rec step errs s
  | .copyDone l tag loc errs => Sys2Proof.Machine.execCopyDone l tag loc errs s
  | .copyFail l tag errs => Sys2Proof.Machine.execCopyFail l tag s errs
  | .putDone l tag loc errs => Sys2Proof.Machine.execPutDone l tag loc errs s
  | .putFail l tag errs => Sys2Proof.Machine.execPutFail l tag s errs
  | .restoreCancel l tag rid errs => Sys2Proof.Machine.execRestoreCancel l tag rid s errs
  | .restoreStatus l tag rid errs => Sys2Proof.Machine.execRestoreStatus l tag rid errs s
  | .slotGrant errs => Sys2Proof.Machine.execSlotGrant s errs
  | .shipFrameTransmitted seq errs => Sys2Proof.Machine.execShipFrameTransmitted seq s errs
  | .windowOpening errs => Sys2Proof.Machine.execWindowOpening s errs
  | .windowOpen l tag errs => Sys2Proof.Machine.execWindowOpen l tag s errs
  | .windowClose l tag errs => Sys2Proof.Machine.execWindowClose l tag s errs
  | .windowClosing errs => Sys2Proof.Machine.execWindowClosing s errs
  | .closeAbandon errs => Sys2Proof.Machine.execCloseAbandon s errs
  | .nightEnd errs => Sys2Proof.Machine.execNightEnd s errs
  | .scopeSet l tag scope enabled priority vols errs => Sys2Proof.Machine.execScopeSet l tag scope enabled priority vols s errs
  | .countWalkVisit vol errs => Sys2Proof.Machine.execCountWalkVisit vol errs s
  | .shipWalkVisit errs => Sys2Proof.Machine.execShipWalkVisit errs s
  | .pullRun errs => Sys2Proof.Machine.execPullRun s errs
  | .pull n errs => Sys2Proof.Machine.execPull n errs s
  | .extentData l tag idx data errs => Sys2Proof.Machine.execExtentData l tag idx data s errs
  | .pullEnd l tag errs => Sys2Proof.Machine.execPullEnd l tag s errs
  | .pullFail l tag errs => Sys2Proof.Machine.execPullFail l tag s errs
  | .ship errs => Sys2Proof.Machine.execShip errs s
  | .volumeDone errs => Sys2Proof.Machine.execVolumeDone s errs
  | .doneAck vol target errs => Sys2Proof.Machine.execDoneAck vol target s errs
  | .forecastIntervalEnd errs => Sys2Proof.Machine.execForecastIntervalEnd s errs
  | .drop errs => Sys2Proof.Machine.execDrop s errs
  | .dropAck vol gen errs => Sys2Proof.Machine.execDropAck vol gen s errs
  | .openAck errs => Sys2Proof.Machine.execOpenAck s errs
  | .offsiteFrameDiscard frame => Sys2Proof.Machine.execOffsiteFrameDiscard frame s
  | .ack num errs => Sys2Proof.Machine.execAck num s errs
  | .nak num reason errs => Sys2Proof.Machine.execNak num reason s errs
  | .ackWaitExpiry errs => Sys2Proof.Machine.execAckWaitExpiry s errs
  | .carrierLoss errs => Sys2Proof.Machine.execCarrierLoss s errs
  | .reopenIntervalExpiry errs => Sys2Proof.Machine.execReopenIntervalExpiry s errs
  | .offsiteIdleTimeout errs => Sys2Proof.Machine.execOffsiteIdleTimeout s errs
  | .offsiteOpen l tag errs => Sys2Proof.Machine.execOffsiteOpen l tag s errs
  | .fetchQueueServe errs => Sys2Proof.Machine.execFetchQueueServe s errs
  | .fetchReq errs => Sys2Proof.Machine.execFetchReq s errs
  | .fetchData num data errs => Sys2Proof.Machine.execFetchData num data s errs
  | .fetchEmpty num errs => Sys2Proof.Machine.execFetchEmpty num s errs
  | .fetchNone num reason errs => Sys2Proof.Machine.execFetchNone num reason s errs
  | .patrolWalkVisit errs => Sys2Proof.Machine.execPatrolWalkVisit errs s
  | .versionOverdue vol ext birth errs => Sys2Proof.Machine.execVersionOverdue vol ext birth s errs
  | .verifyingPull item errs => Sys2Proof.Machine.execVerifyingPull item errs s
  | .fix rec idx errs => Sys2Proof.Machine.execFix rec idx errs s
  | .fixDone l tag errs => Sys2Proof.Machine.execFixDone l tag s errs
  | .fixFail l tag errs => Sys2Proof.Machine.execFixFail l tag s errs
  | .query l tag subject errs => Sys2Proof.Machine.execQuery l tag subject errs s
  | .tableRead l tag table start count errs => Sys2Proof.Machine.execTableRead l tag table start count errs s
  | .tableNext l tag count errs => Sys2Proof.Machine.execTableNext l tag count errs s
  | .settingWrite l tag setting errs => Sys2Proof.Machine.execSettingWrite l tag setting errs s
  | .holdBegin l tag errs => Sys2Proof.Machine.execHoldBegin l tag s errs
  | .holdRelease l tag errs => Sys2Proof.Machine.execHoldRelease l tag s errs
  | .holdAbandon l tag errs => Sys2Proof.Machine.execHoldAbandon l tag s errs
  | .standbyEnter l tag errs => Sys2Proof.Machine.execStandbyEnter l tag s errs
  | .quietReported => Sys2Proof.Machine.execQuietReported s
  | .standbyExit l tag errs => Sys2Proof.Machine.execStandbyExit l tag s errs
  | .clear l tag errs => Sys2Proof.Machine.execClear l tag s errs
  | .timeSet l tag value errs => Sys2Proof.Machine.execTimeSet l tag value s errs
  | .statusQuery l tag errs => Sys2Proof.Machine.execStatusQuery l tag s errs
  | .statusClear l tag errs => Sys2Proof.Machine.execStatusClear l tag s errs
  | .subscribe l tag classes errs => Sys2Proof.Machine.execSubscribe l tag classes s errs
  | .reset l tag errs => Sys2Proof.Machine.execReset l tag s errs
  | .inPlaceWriteEnd principal errs => Sys2Proof.Machine.execInPlaceWriteEnd principal errs s

end Sys2Proof.Machine
end

