-- ==== Sys2Proof/Machine/Step.lean ====
section
/-! DEFINITION. One step of the part: the command that has waited longest is carried out; with none
waiting, one second of the clock passes. -/

namespace Sys2Proof.Machine

/-- One step (log entries 1 and 2): the oldest waiting command is taken from the queue and carried out;
on an empty queue one second passes (R187) and nothing is sent. -/
def step (s : State) : Host.Outcome State Fault Refusal :=
  match s.pending with
  | c :: rest => exec c { s with pending := rest }
  | [] => .next { s with sent := [] }.tick

/-- The state with the command that a word spells in front of its queue; unchanged where the word spells
none. -/
def State.withFetchWord (s : State) (nbits w : Nat) : State :=
  match decodeTableWord nbits w with
  | some c => { s with pending := c :: s.pending }
  | none => s

end Sys2Proof.Machine
end

