-- ==== Sys2Proof/Safety.lean ====
section
/-! DEFINITION. The terms in which claims speak of a run: the bounds that every state keeps, blocks in
which nothing is under way, requests that a link takes, and what a step leaves alone. -/

namespace Sys2Proof.Machine

/-! ### Bounds -/

/-- The bounds of a link's record: its request queue (R172) with numbers below the next, its notice queue
(R177) and its staging list (R188). -/
def LinkRec.bounded (next : Nat) (r : LinkRec) : Prop :=
  r.queue.length ≤ Config.requestQueueSize ∧ (∀ e ∈ r.queue, e.num < next) ∧
    r.notices.length ≤ Config.noticeQueueSize ∧ (∀ h, r.hold = some h → h.length ≤ Config.holdSize)

/-- The bounds of the Supervisor's part: the clock (R187), the start-up list (R178) and the raised counts
of the eleven classes (R177). -/
def supBounded (u : Supervisor) : Prop :=
  u.clock ≤ maxClock ∧ u.startup.length ≤ Config.startupSize ∧ u.raised.length = 11 ∧
    ∀ n ∈ u.raised, n ≤ 65535

/-- The bounds of the Supervisor's part and of every link. -/
def partsBounded (u : Supervisor) (ls : Vector LinkRec 6) : Prop :=
  supBounded u ∧ ∀ l : Link, (ls[l]).bounded u.nextReq

/-- The bounds that every state keeps. -/
def State.bounded (s : State) : Prop := partsBounded s.sup s.links

/-! ### Invariants -/

/-- The records of the settings that the model holds by key stand in rising order (R35, R121). -/
def Supervisor.sound (u : Supervisor) : Prop :=
  Tbl.wf u.settings.classes = true ∧ Tbl.wf u.settings.scopes = true ∧ Tbl.wf u.pendingSettings.scopes = true

/-- At most 16 directives are outstanding on a link (R175). -/
def LinkRec.sound (r : LinkRec) : Prop := r.directives.length ≤ Config.directiveListSize

/-- A principal's stored record carries the marker (R10). -/
def Tally.marked (y : Tally) (id : Nat) : Prop := ∃ p, tget y.principals id = some p ∧ p.marker = true

/-- A resident line (R9 to R11): its drift is within the cap, 0 while it is clean; a line being filled is
clean, a filled one has a stored record, and the record of a dirty one carries the marker. -/
def Line.sound (y : Tally) (x : Line) : Prop :=
  x.drift ≤ Config.driftCap ∧ (x.dirty = false → x.dUsed = 0 ∧ x.dReserved = 0) ∧
    (x.filling = true → x.dirty = false) ∧ (x.filling = false → (tget y.principals x.id).isSome = true) ∧
    (x.dirty = true → y.marked x.id)

/-- A castout buffer entry (R11, R12): its drift is within the cap and its record carries the marker. -/
def Castout.sound (y : Tally) (c : Castout) : Prop :=
  c.dUsed.natAbs + c.dReserved.natAbs ≤ Config.driftCap ∧ y.marked c.id

/-- The Tally Unit's tables: records rising, queues and the castout buffer within their sizes (R12, R15,
R37), lines and castout entries as above. -/
def Tally.sound (y : Tally) : Prop :=
  Tbl.wf y.principals = true ∧ y.postings.length ≤ Config.postingQueueSize ∧
    y.castout.length ≤ Config.castoutSize ∧ y.grace.length ≤ Config.graceQueueSize ∧
    (∀ x ∈ y.cache, x.sound y) ∧ ∀ c ∈ y.castout, c.sound y

/-- The live versions of an extent (R50). -/
def Extent.lives (e : Extent) : Nat := (e.versions.filter fun v => v.death.isNone).length

/-- The record of an extent is damaged (R65), as the volume's damage list says. -/
def Catalogue.isDamaged (c : Catalogue) (vol ext : Nat) : Prop :=
  vol < 32 ∧ ∃ v, tget c.volumes vol = some v ∧ v.damage.contains ext = true

/-- The Catalogue Unit's tables: records rising, no volume and no Attach of more extents than there can be
(R45), the Reclaim Table within its size (R59), at most 4 versions an extent, and one live, if its record is
not damaged (R50, R65). -/
def Catalogue.sound (c : Catalogue) : Prop :=
  (Tbl.wf c.volumes = true ∧ extentsWf c.extents = true ∧ Tbl.wf c.snapshots = true ∧ Tbl.wf c.dues = true) ∧
    (∀ kv ∈ c.volumes, kv.2.count ≤ Config.maxExtents) ∧ (∀ a ∈ c.attaching, a.count ≤ Config.maxExtents) ∧
    c.reclaims.length ≤ Config.reclaimTableSize ∧
    (∀ key, ((tget c.extents key).getD Extent.blank).versions.length ≤ Config.versionListSize) ∧
    ∀ vol ext, ext < Config.maxExtents → ¬ c.isDamaged vol ext →
      ((tget c.extents (extentKey vol ext)).getD Extent.blank).lives ≤ 1

/-- The Restore Table's records rise. -/
def RestoreEngine.sound (r : RestoreEngine) : Prop := Tbl.wf r.table = true

/-- The Stream Buffer: at most 64 slots are held, at most 8 of them of class PATROL (R106, R107), and a
waiting PATROL request asks for one (R160). -/
def Stream.sound (b : Stream) : Prop :=
  Tbl.wf b.slots = true ∧ b.slots.length ≤ Config.slotCount ∧
    (b.slots.filter fun kv => decide (kv.2.cls = .patrol)).length ≤ Config.patrolCap ∧
    ∀ r ∈ b.waitPatrol, r.wants.length ≤ 1

/-- The Offsite Engine: at most 16 frames are outstanding, all of one direction (R143), and the Ship Queue is
within its size (R126). -/
def Offsite.sound (o : Offsite) : Prop :=
  o.outstanding.length ≤ Config.outstandingSize ∧
    ((∀ f ∈ o.outstanding, f.body.isShip = true) ∨ ∀ f ∈ o.outstanding, f.body.isShip = false) ∧
    o.queue.length ≤ Config.shipQueueSize

/-- The open repair records rise (R163). -/
def Patrol.sound (p : Patrol) : Prop := Tbl.wf p.repairs = true

/-- The parts of a state keep their invariants. -/
def partsSound (u : Supervisor) (ls : Vector LinkRec 6) (y : Tally) (c : Catalogue) (r : RestoreEngine)
    (b : Stream) (o : Offsite) (p : Patrol) : Prop :=
  u.sound ∧ (∀ l : Link, (ls[l]).sound) ∧ y.sound ∧ c.sound ∧ r.sound ∧ b.sound ∧ o.sound ∧ p.sound

/-- The invariants that every step keeps. -/
def State.sound (s : State) : Prop := partsSound s.sup s.links s.tally s.cat s.rst s.str s.off s.pat

/-! ### Blocks in which nothing is under way -/

/-- The Tally Unit has no operation, posting, mode switch or flush to go on with. -/
abbrev State.tallyStill (s : State) : Prop :=
  s.tally.ops = [] ∧ s.tally.postings = [] ∧ s.tally.modeReply = [] ∧ s.tally.flushing = false

/-- The Tally Unit has one operation, and nothing else to go on with. -/
abbrev State.tallyOnly (s : State) (o : TallyOp) : Prop :=
  s.tally.ops = [o] ∧ s.tally.postings = [] ∧ s.tally.modeReply = [] ∧ s.tally.flushing = false

/-- The Patrol Unit has no item, fold entry or repair record. -/
abbrev State.patrolStill (s : State) : Prop :=
  s.pat.work = [] ∧ s.pat.folds = [] ∧ s.pat.repairs = [] ∧ s.pat.clearing = false

/-- Tally Unit and Patrol Unit have nothing to go on with of themselves. -/
abbrev State.calm (s : State) : Prop := s.tallyStill ∧ s.patrolStill

/-! ### Requests -/

/-- A request that a command brings, of a body that fits its kind (R171): its link, its tag and its kind
(Table 10-2). -/
def requestOf : Instr → Option (Link × Nat × ReqKind)
  | .admitReq l tag .. => some (l, tag, .admitReq)
  | .release l tag .. => some (l, tag, .release)
  | .settle l tag .. => some (l, tag, .settle)
  | .principalCreate l tag .. => some (l, tag, .principalCreate)
  | .principalEdit l tag .. => some (l, tag, .principalEdit)
  | .principalDelete l tag .. => some (l, tag, .principalDelete)
  | .freeze l tag .. => some (l, tag, .freeze)
  | .commit l tag .. => some (l, tag, .commit)
  | .volumeAttach l tag .. => some (l, tag, .volumeAttach)
  | .volumeDetach l tag .. => some (l, tag, .volumeDetach)
  | .cut l tag .. => some (l, tag, .cut)
  | .expireLocal l tag .. => some (l, tag, .expireLocal)
  | .expireOffsite l tag .. => some (l, tag, .expireOffsite)
  | .restore l tag .. => some (l, tag, .restore)
  | .restoreCancel l tag .. => some (l, tag, .restoreCancel)
  | .restoreStatus l tag .. => some (l, tag, .restoreStatus)
  | .windowOpen l tag _ => some (l, tag, .windowOpen)
  | .windowClose l tag _ => some (l, tag, .windowClose)
  | .scopeSet l tag .. => some (l, tag, .scopeSet)
  | .offsiteOpen l tag _ => some (l, tag, .offsiteOpen)
  | .query l tag .. => some (l, tag, .query)
  | .tableRead l tag .. => some (l, tag, .tableRead)
  | .tableNext l tag .. => some (l, tag, .tableNext)
  | .settingWrite l tag .. => some (l, tag, .settingWrite)
  | .holdBegin l tag _ => some (l, tag, .holdBegin)
  | .holdRelease l tag _ => some (l, tag, .holdRelease)
  | .holdAbandon l tag _ => some (l, tag, .holdAbandon)
  | .standbyEnter l tag _ => some (l, tag, .standbyEnter)
  | .standbyExit l tag _ => some (l, tag, .standbyExit)
  | .timeSet l tag value _ => if value ≤ maxClock then some (l, tag, .timeSet) else none
  | .statusQuery l tag _ => some (l, tag, .statusQuery)
  | .statusClear l tag _ => some (l, tag, .statusClear)
  | .subscribe l tag _ _ => some (l, tag, .subscribe)
  | .clear l tag _ => some (l, tag, .clear)
  | .reset l tag _ => some (l, tag, .reset)
  | .powerOn _ => none
  | .layoutInitialised _ => none
  | .tallyLoadingWalkEnd _ => none
  | .loadingEnd _ => none
  | .powerWarnAssert _ => none
  | .cleanShutdownWrite _ => none
  | .powerWarnDeassert _ => none
  | .serialLossOfSignal _ _ => none
  | .frameDiscard _ _ _ => none
  | .unknownRequest _ _ _ => none
  | .linkTransmit _ _ => none
  | .linkIdle _ _ => none
  | .directiveWaitExpiry _ _ _ => none
  | .admissionCalculation _ _ => none
  | .admitReply _ _ => none
  | .tallyFillReadEnd _ _ => none
  | .markerWriteEnd _ _ => none
  | .castoutDrain _ => none
  | .postingApply _ => none
  | .poolRecountEnd _ _ => none
  | .conversion _ _ => none
  | .reservationRelease _ _ => none
  | .graceExpiry _ => none
  | .attachComplete _ _ => none
  | .hourlyCutDueOpen _ => none
  | .cutWaitExpiry _ _ => none
  | .expirySweepVisit _ _ _ => none
  | .dropSweepVisit _ _ _ => none
  | .restoreAcceptance _ => none
  | .restoreStart _ => none
  | .stepTakeUp _ _ => none
  | .put _ _ _ => none
  | .copyDone _ _ _ _ => none
  | .copyFail _ _ _ => none
  | .putDone _ _ _ _ => none
  | .putFail _ _ _ => none
  | .slotGrant _ => none
  | .shipFrameTransmitted _ _ => none
  | .windowOpening _ => none
  | .windowClosing _ => none
  | .closeAbandon _ => none
  | .nightEnd _ => none
  | .countWalkVisit _ _ => none
  | .shipWalkVisit _ => none
  | .pullRun _ => none
  | .pull _ _ => none
  | .extentData _ _ _ _ _ => none
  | .pullEnd _ _ _ => none
  | .pullFail _ _ _ => none
  | .ship _ => none
  | .volumeDone _ => none
  | .doneAck _ _ _ => none
  | .forecastIntervalEnd _ => none
  | .drop _ => none
  | .dropAck _ _ _ => none
  | .openAck _ => none
  | .offsiteFrameDiscard _ => none
  | .ack _ _ => none
  | .nak _ _ _ => none
  | .ackWaitExpiry _ => none
  | .carrierLoss _ => none
  | .reopenIntervalExpiry _ => none
  | .offsiteIdleTimeout _ => none
  | .fetchQueueServe _ => none
  | .fetchReq _ => none
  | .fetchData _ _ _ => none
  | .fetchEmpty _ _ => none
  | .fetchNone _ _ _ => none
  | .patrolWalkVisit _ => none
  | .versionOverdue _ _ _ _ => none
  | .verifyingPull _ _ => none
  | .fix _ _ _ => none
  | .fixDone _ _ _ => none
  | .fixFail _ _ _ => none
  | .quietReported => none
  | .inPlaceWriteEnd _ _ => none

/-- A link takes a request: the part is in STANDBY or ACTIVE, the link is UP, its queue has a place, and
its entries carry numbers already given. -/
abbrev State.takes (s : State) (l : Link) : Prop :=
  (s.sup.op = .standby ∨ s.sup.op = .active) ∧ (s.link l).up = true ∧
    (s.link l).queue.length < Config.requestQueueSize ∧ ∀ e ∈ (s.link l).queue, e.num < s.sup.nextReq

/-- A request has been answered: among the frames that have joined its link's waiting ones stands the
reply, and its entry has left the queue. -/
def Answered (s t : State) (l : Link) (tag : Nat) (k : ReqKind) (st : Status) (b : ReplyBody) : Prop :=
  (∃ more, (t.link l).tx = (s.link l).tx ++ more ∧ TxFrame.reply tag k st b ∈ more) ∧
    (t.link l).queue.Sublist (s.link l).queue

/-- A request has taken an entry of its link's queue, and waits there for its answer. -/
def Queued (s t : State) (l : Link) (tag : Nat) (k : ReqKind) (taken : Bool) : Prop :=
  { num := s.sup.nextReq, tag := tag, kind := k, taken := taken, stale := false } ∈ (t.link l).queue ∧
    t.sup.nextReq = s.sup.nextReq + 1

/-! ### What a step leaves alone -/

/-- The Supervisor's registers, but for the raised counts, the start-up list and the model's own
counters, are as they were. -/
def supKept (u v : Supervisor) : Prop :=
  v.op = u.op ∧ v.stage = u.stage ∧ v.layout = u.layout ∧ v.clock = u.clock ∧ v.clockSet = u.clockSet ∧
    v.counted = u.counted ∧ v.hourlyTaken = u.hourlyTaken ∧ v.elapsed = u.elapsed ∧
    v.powerWarn = u.powerWarn ∧ v.cleanFlag = u.cleanFlag ∧ v.prevClean = u.prevClean ∧
    v.quiet = u.quiet ∧ v.settings = u.settings ∧ v.pendingSettings = u.pendingSettings

/-- The Supervisor's registers are kept from one state to another. -/
def SupKept (s t : State) : Prop := supKept s.sup t.sup

/-! ### What settling leaves alone -/

/-- A version but for what the Patrol Unit writes into it: verified time and repair state. -/
def Version.bare (v : Version) : Version := { v with verified := 0, repair := .sound }

/-- An extent record but for what the Patrol Unit writes into it. -/
def Extent.bare (e : Extent) : Extent := { e with versions := e.versions.map Version.bare }

/-- What settling leaves of a link: its registers and its directives as they were, its queue without new
entries, frames and notices only added behind those that wait. -/
def linkSettles (r q : LinkRec) : Prop :=
  (q.up = r.up ∧ q.directives = r.directives ∧ q.subs = r.subs ∧ q.delivered = r.delivered ∧
      q.cursor = r.cursor ∧ q.hold = r.hold ∧ q.tagCounter = r.tagCounter ∧
      q.discarded = r.discarded ∧ q.badRun = r.badRun ∧ q.haltNotice = r.haltNotice) ∧
    q.queue.Sublist r.queue ∧ r.tx <+: q.tx ∧ r.notices <+: q.notices

/-- What settling leaves of the Supervisor. -/
def supSettles (u v : Supervisor) : Prop := supKept u v ∧ v.nextReq = u.nextReq ∧ v.draws = u.draws

/-- What settling leaves of the Catalogue Unit: all but verified times and repair states. -/
def catSettles (c d : Catalogue) : Prop :=
  (d.volumes = c.volumes ∧ d.attaching = c.attaching ∧ d.snapshots = c.snapshots ∧
      d.reclaims = c.reclaims ∧ d.sweepWaits = c.sweepWaits ∧ d.dues = c.dues) ∧
    ∀ key, ((tget d.extents key).getD Extent.blank).bare = ((tget c.extents key).getD Extent.blank).bare

/-- What settling leaves of the Offsite Engine: the night's registers. -/
def offSettles (o p : Offsite) : Prop :=
  p.phase = o.phase ∧ p.closeInstant = o.closeInstant ∧ p.shedScopes = o.shedScopes ∧
    p.nComplete = o.nComplete ∧ p.nShed = o.nShed ∧ p.nMissed = o.nMissed ∧ p.nFailed = o.nFailed ∧
    p.rate = o.rate ∧ p.intervalStart = o.intervalStart ∧ p.acked = o.acked ∧ p.lastFit = o.lastFit

/-- What settling leaves of the parts it can touch. -/
def partsSettle (s : State) (u : Supervisor) (ls : Vector LinkRec 6) (c : Catalogue) (r : RestoreEngine)
    (o : Offsite) (pending : List Instr) (sent : List Output) : Prop :=
  supSettles s.sup u ∧ (∀ l : Link, linkSettles (s.link l) ls[l]) ∧ catSettles s.cat c ∧ r = s.rst ∧
    offSettles s.off o ∧ pending = s.pending ∧ s.sent <+: sent

/-- One state is another after its blocks have settled: what no settling of Tally Unit, Patrol Unit and
offsite link changes is as it was. -/
def Settles (s t : State) : Prop := partsSettle s t.sup t.links t.cat t.rst t.off t.pending t.sent

/-- What a request that is turned away leaves of a link: as settling does, but for the run of bad frames,
which its arrival ends, and the frames that wait. -/
def linkSpared (r q : LinkRec) : Prop :=
  (q.up = r.up ∧ q.directives = r.directives ∧ q.subs = r.subs ∧ q.delivered = r.delivered ∧
      q.cursor = r.cursor ∧ q.hold = r.hold ∧ q.tagCounter = r.tagCounter ∧
      q.discarded = r.discarded ∧ q.haltNotice = r.haltNotice) ∧
    q.queue.Sublist r.queue ∧ r.tx <+: q.tx ∧ r.notices <+: q.notices

/-- The offsite link has nothing to go on with of itself: it is not UP, no holder waits for room in the Fetch
Queue (R150), and no entry of a volume shed or failed is left in the Ship Queue (R135). -/
abbrev State.linkStill (s : State) : Prop :=
  s.off.link ≠ .up ∧ s.off.idleSince = none ∧ s.off.roomWaits = [] ∧
    ∀ p ∈ s.off.plan, (p.state = .shed ∨ p.state = .failed) → ∀ e ∈ s.off.queue, e.vol ≠ p.vol

/-- Catalogue, slots and the offsite engine's queues are as they were: the offsite link alone may go on by
itself, and where it has nothing to go on with, it too is as it was. -/
abbrev Undisturbed (s t : State) : Prop :=
  t.cat = s.cat ∧ t.off = s.settleLink.off ∧ t.str = s.settleLink.str ∧
    (s.linkStill → t.off = s.off ∧ t.str = s.str)

/-- A request that is turned away has no effect but its reply and what settling would do anyway. -/
def Spared (s t : State) : Prop :=
  SupKept s t ∧ (∀ l : Link, linkSpared (s.link l) (t.link l)) ∧ catSettles s.cat t.cat ∧ t.rst = s.rst ∧
    offSettles s.off t.off ∧ t.pending = s.pending ∧ (s.tallyStill → t.tally = s.tally) ∧
      (s.patrolStill → t.pat = s.pat) ∧ (s.calm → s.sup.op ≠ .halted → Undisturbed s t)

/-- A request in the queue of an UP link awaits its reply. -/
abbrev State.awaits (s : State) (l : Link) (req : Nat) (e : ReqEntry) : Prop :=
  (s.link l).up = true ∧ (s.link l).queue.find? (fun x => x.num == req) = some e ∧ e.stale = false

/-- A request that awaited its reply has been replied to: the reply has joined its link's frames. -/
def Replied (s t : State) (l : Link) (e : ReqEntry) (st : Status) (b : ReplyBody) : Prop :=
  ∃ more, (t.link l).tx = (s.link l).tx ++ more ∧ TxFrame.reply e.tag e.kind st b ∈ more

/-- The number of the Ship Queue entry that an outstanding SHIP frame carries; a vacant frame carries none. -/
def OutFrame.entryNum (f : OutFrame) : Option Nat :=
  match f.body with
  | .ship num .. => if f.vacant then none else some num
  | _ => none

/-- The control that an outstanding frame carries (Table 8-4). -/
def OutFrame.control? (f : OutFrame) : Option Control :=
  match f.body with
  | .control c => some c
  | _ => none

/-- The Fetch Queue entry that an outstanding FETCH_REQ carries, unless its holder has withdrawn it (R147). -/
def OutFrame.fetched? (f : OutFrame) : Option FetchEntry :=
  match f.body with
  | .fetch e false => some e
  | _ => none

/-- A frame as it is sent again (R145): one that is covered or vacant is not, and a SHIP frame is sent from its
slot. -/
def State.sentAgain (s : State) (f : OutFrame) : Option Output :=
  if f.received = true ∨ f.vacant = true then none
  else
    match f.body with
    | .ship num _ _ _ target base _ => (s.entry num).map fun e =>
        .offsite (.ship f.num e.vol target base e.ext e.birth e.form e.chunks e.code
          (match e.slot.bind s.slot with
           | some x => x.data
           | none => []))
    | .control (.volumeDone v t b k) => some (.offsite (.volumeDone f.num v t b k))
    | .control (.drop v g) => some (.offsite (.drop f.num v g))
    | .fetch e _ => some (.offsite (.fetchReq f.num e.vol e.ext e.birth e.idx e.code))

/-- Every outstanding frame has been given back (Table 8-4): the entry of a SHIP frame is UNPULLED again, or
READY where its form has no data, in its place, and its slot is freed; VOLUME_DONEs and DROPs are pending
again; the entries of FETCH_REQs stand at the head of their kind, and their FILLING slots are freed. -/
def GivenBack (s t : State) : Prop :=
  t.off.outstanding = [] ∧ t.off.plan = s.off.plan ∧
    t.off.queue = s.off.queue.map (fun e =>
      if s.off.outstanding.any (fun f => f.entryNum == some e.num) then
        { e with slot := none, state := if e.form = .ship then .unpulled else .ready }
      else e) ∧
    (∀ f ∈ s.off.outstanding, ∀ num e n, f.entryNum = some num → s.entry num = some e → e.slot = some n →
      t.slot n = none) ∧
    t.off.controls = s.off.outstanding.filterMap OutFrame.control? ++ s.off.controls ∧
    t.off.fetchQueue =
      (s.off.outstanding.filterMap OutFrame.fetched? ++ s.off.fetchQueue).filter FetchEntry.isRepair ++
        (s.off.outstanding.filterMap OutFrame.fetched? ++ s.off.fetchQueue).filter (fun e => !e.isRepair) ∧
    ∀ f ∈ s.off.outstanding, ∀ e i n x, f.fetched? = some e → e.idx = some i → t.slot n = some x →
      x.holder = e.holder.slots → x.idx = i → x.state ≠ .filling

/-- The lines of some principals are resident, filled and dirty, so that a change needs no marker. -/
abbrev State.dirtyLines (s : State) (ids : List Nat) : Prop :=
  ∀ id ∈ ids, (s.line id).any (fun x => !x.filling && x.dirty) = true

/-- No principal of a list is overdue. -/
abbrev State.noneOverdue (s : State) (ids : List Nat) : Prop := ∀ id ∈ ids, s.overdue id = false

/-- An operation over some principals changes lines and nothing waits: each has a record, is not overdue and
has a dirty line, and changes are not written in place. -/
abbrev State.plainLines (s : State) (ids : List Nat) : Prop :=
  ids.Nodup ∧ s.dirtyLines ids ∧ s.noneOverdue ids ∧ s.inPlaceMode = false ∧ ∀ id ∈ ids, (s.prin id).isSome = true

/-- The fields of a Principal Create are in their ranges (Tables 1-1 and 1-2). -/
abbrev createInRange (id cls : Nat) (soft hard : Option Nat) : Prop :=
  id ≠ 0 ∧ cls ≤ 63 ∧ (∀ n, soft = some n ∨ hard = some n → 1 ≤ n ∧ n ≤ maxTally) ∧
    ∀ a b, soft = some a → hard = some b → a ≤ b

/-- The parents that a Principal Create names are POOL records (Table 1-2). -/
abbrev State.parentsArePools (s : State) (course dept : Option Nat) : Prop :=
  ∀ q, course = some q ∨ dept = some q → ∃ k, s.prin q = some k ∧ k.kind = .pool

/-- A Commit on a link passes every check of Table 3-4 that does not look at the version list, the tables have
room, and Tally Unit and Patrol Unit are at rest. -/
abbrev State.commitReady (s : State) (l : Link) (vol ext owner loc occ : Nat) (codes : Option (List Code))
    (v : Volume) : Prop :=
  s.takes l ∧ s.calm ∧ s.volume vol = some v ∧ v.owner = l ∧ ext < v.count ∧ 1 ≤ owner ∧ owner ≤ 16777215 ∧
    occ ≤ 1024 ∧ (codes.any (fun cs => cs.length == 16) && decide (0 < occ) || codes.isNone && decide (occ = 0)) = true ∧
    (s.extent vol ext).lock = none ∧ s.damaged vol ext = false ∧
    (∀ r ∈ s.cat.reclaims, r.vol = vol → r.ext = ext → r.loc ≠ loc) ∧
    s.cat.reclaims.length < 4096 ∧ s.cat.sweepWaits = []

/-- The codes of a Commit fit its occupied blocks (R53): 16 of them, or none for an empty version. -/
abbrev codesMatch (codes : Option (List Code)) (occ : Nat) : Prop :=
  (codes = none ∧ occ = 0) ∨ (codes.any (fun cs => cs.length == 16) = true ∧ 0 < occ)

/-- A dead version of an extent may be thinned (R57): no pinned snapshot holds it, and it is OFFSITE_ONLY or
without references. -/
abbrev State.thinnable (s : State) (vol : Nat) (dead : List Version) (x : Version) : Prop :=
  x ∈ dead ∧ (∀ p ∈ s.snapsOf vol, x.heldAt p.gen = true → p.pins = 0) ∧ (x.res = .offsite ∨ x.refs = 0)

/-- The order in which the kinds of candidates are thinned (R57). -/
def Version.thinRank (x : Version) : Nat := if x.res = .offsite then 0 else if x.shipped then 1 else 2

/-- A link may act on a volume it names: it is a CONSOLE, or it owns the volume (R70, R77). -/
abbrev State.actsOn (s : State) (l : Link) (v : Volume) : Prop := s.role l = .console ∨ l = v.owner

/-- Every snapshot record lies under the key of its volume and generation, one record a key. -/
abbrev State.snapshotsKeyed (s : State) : Prop :=
  Tbl.wf s.cat.snapshots = true ∧
    ∀ kv ∈ s.cat.snapshots, kv.1 = snapKey kv.2.vol kv.2.gen ∧ kv.2.gen ≤ maxGeneration

/-- A sweep of a snapshot may visit the extent at its cursor: the part runs, the record is not damaged, no sweep
waits, and the Reclaim Table has room. -/
abbrev State.sweeps (s : State) (vol ext : Nat) (v : Volume) : Prop :=
  (s.sup.op = .standby ∨ s.sup.op = .active) ∧ s.calm ∧ s.volume vol = some v ∧ s.damaged vol ext = false ∧
    s.cat.sweepWaits = [] ∧ s.cat.reclaims.length + (s.extent vol ext).versions.length ≤ 4096

/-- The requests that only a CONSOLE link may send (Table 10-6). -/
def consoleOnly : Instr → Bool
  | .principalCreate _ _ _ _ cls _ _ soft hard _ => soft.isSome || hard.isSome || decide (cls ≠ 0)
  | .principalEdit _ _ _ changes _ => editLimits changes
  | .freeze .. => true
  | .volumeAttach .. => true
  | .volumeDetach .. => true
  | .settingWrite .. => true
  | .standbyEnter .. => true
  | .standbyExit .. => true
  | .timeSet .. => true
  | .clear .. => true
  | .windowOpen .. => true
  | .windowClose .. => true
  | .scopeSet .. => true
  | _ => false

/-- The double errors of table memory that a command meets (log entry 57). -/
def errsOf : Instr → List StoreError
  | .powerOn errs | .layoutInitialised errs | .tallyLoadingWalkEnd errs | .loadingEnd errs
  | .powerWarnAssert errs | .cleanShutdownWrite errs | .powerWarnDeassert errs | .serialLossOfSignal _ errs
  | .linkTransmit _ errs | .linkIdle _ errs | .directiveWaitExpiry _ _ errs | .admitReq _ _ _ _ _ _ errs
  | .admissionCalculation _ errs | .tallyFillReadEnd _ errs | .markerWriteEnd _ errs | .castoutDrain errs
  | .release _ _ _ _ errs | .postingApply errs | .settle _ _ _ _ errs | .poolRecountEnd _ errs
  | .principalCreate _ _ _ _ _ _ _ _ _ errs | .principalEdit _ _ _ _ errs | .principalDelete _ _ _ errs
  | .freeze _ _ _ _ errs | .conversion _ errs | .reservationRelease _ errs | .graceExpiry errs
  | .volumeAttach _ _ _ _ _ _ _ _ _ _ errs | .attachComplete _ errs | .volumeDetach _ _ _ errs
  | .cut _ _ _ _ errs | .hourlyCutDueOpen errs | .cutWaitExpiry _ errs | .expireLocal _ _ _ _ errs
  | .expirySweepVisit _ _ errs | .expireOffsite _ _ _ _ errs | .dropSweepVisit _ _ errs
  | .restoreAcceptance errs | .restoreStart errs | .stepTakeUp _ errs | .put _ _ errs | .copyDone _ _ _ errs
  | .copyFail _ _ errs | .putDone _ _ _ errs | .putFail _ _ errs | .restoreCancel _ _ _ errs
  | .restoreStatus _ _ _ errs | .windowOpening errs | .windowOpen _ _ errs | .windowClose _ _ errs
  | .windowClosing errs | .closeAbandon errs | .nightEnd errs | .scopeSet _ _ _ _ _ _ errs
  | .countWalkVisit _ errs | .shipWalkVisit errs | .pullRun errs | .pull _ errs | .extentData _ _ _ _ errs
  | .pullEnd _ _ errs | .pullFail _ _ errs | .ship errs | .doneAck _ _ errs | .forecastIntervalEnd errs
  | .dropAck _ _ errs | .ack _ errs | .nak _ _ errs | .ackWaitExpiry errs | .carrierLoss errs
  | .fetchQueueServe errs | .fetchReq errs | .fetchData _ _ errs | .fetchEmpty _ errs | .fetchNone _ _ errs
  | .patrolWalkVisit errs | .versionOverdue _ _ _ errs | .verifyingPull _ errs | .fix _ _ errs
  | .fixDone _ _ errs | .fixFail _ _ errs | .query _ _ _ errs | .tableRead _ _ _ _ _ errs
  | .tableNext _ _ _ errs | .settingWrite _ _ _ errs | .holdRelease _ _ errs | .standbyEnter _ _ errs
  | .standbyExit _ _ errs | .clear _ _ errs | .timeSet _ _ _ errs | .statusQuery _ _ errs | .reset _ _ errs
  | .inPlaceWriteEnd _ errs | .commit _ _ _ _ _ _ _ _ errs | .frameDiscard _ _ errs | .unknownRequest _ _ errs
  | .admitReply _ errs | .restore _ _ _ errs | .slotGrant errs | .shipFrameTransmitted _ errs | .volumeDone errs
  | .drop errs | .openAck errs | .reopenIntervalExpiry errs | .offsiteIdleTimeout errs | .offsiteOpen _ _ errs
  | .holdBegin _ _ errs | .holdAbandon _ _ errs | .statusClear _ _ errs | .subscribe _ _ _ errs => errs
  | .offsiteFrameDiscard .. | .quietReported .. => []

/-- The commands that change the operating state, the clock, the flags, the settings or a wait for quiet:
those of power and loading (R184, R186, R189), the settings and the clock (R187, R188), Standby and Clear
(R185), the hourly opening (R72), and those that can open a window or end a night (R119, R120). -/
def writesSupervisor : Instr → Bool
  | .powerOn .. | .layoutInitialised .. | .tallyLoadingWalkEnd .. | .loadingEnd .. => true
  | .powerWarnAssert .. | .cleanShutdownWrite .. | .powerWarnDeassert .. => true
  | .settingWrite .. | .scopeSet .. | .holdRelease .. | .timeSet .. => true
  | .standbyEnter .. | .standbyExit .. | .quietReported | .clear .. | .hourlyCutDueOpen .. => true
  | .windowOpening .. | .windowOpen .. | .windowClose .. | .windowClosing .. => true
  | .closeAbandon .. | .nightEnd .. => true
  | .pullEnd .. | .pullFail .. => true
  | _ => false

end Sys2Proof.Machine
end

