-- ==== Sys2Proof/Certificates/Slice0/Obligations.lean ====
section
/-! DEFINITION. The statements for the provers. -/

open Sys2Proof Sys2Proof.Machine

/-! ### The machine as a whole -/

/-- A step takes the command that has waited longest and carries it out on the state with the rest of the
queue (log entry 1: the queue and its order are the model's own). -/
def Obligations.StepRunsFrontCommand : Prop :=
  ∀ (c : Instr) (s : State) (rest : List Instr),
    Sys2Proof.Machine.step { s with pending := c :: rest } =
      Sys2Proof.Machine.exec c { s with pending := rest }

/-- R187: the clock counts one each second and stops at 2^48 − 1, and elapsed seconds go on. That a step
with no command waiting is that second is the model's choice (log entry 2).
R187, R174: Time Set writes the clock up to 2^48 − 1, sets the clock-set flag and is answered DONE; a
larger value does not fit its body and is MALFORMED. -/
def Obligations.ClockCountsAndIsSet : Prop :=
  (∀ s : State, s.pending = [] →
    ∃ t, Sys2Proof.Machine.step s = .next t ∧
      (s.sup.clock < maxClock → t.sup.clock = s.sup.clock + 1) ∧
      (maxClock ≤ s.sup.clock → t.sup.clock = s.sup.clock) ∧
      t.sup.elapsed = s.sup.elapsed + 1 ∧ t.sup.op = s.sup.op ∧ t.sup.clockSet = s.sup.clockSet ∧
      t.sup.settings = s.sup.settings ∧ t.sup.pendingSettings = s.sup.pendingSettings ∧
      t.sup.raised = s.sup.raised ∧ t.links = s.links ∧ t.tally = s.tally ∧ t.cat = s.cat ∧
      t.rst = s.rst ∧ t.str = s.str ∧ t.off = s.off ∧ t.pat = s.pat ∧ t.pending = [] ∧ t.sent = []) ∧
  (∀ (s : State) (l : Link) (tag value : Nat), s.takes l → s.role l = .console →
    ∃ t, Sys2Proof.Machine.exec (.timeSet l tag value) s = .next t ∧
      (value ≤ 2 ^ 48 - 1 → Answered s t l tag .timeSet .done .none ∧ t.sup.clock = value ∧
        t.sup.clockSet = true) ∧
      (2 ^ 48 ≤ value → Answered s t l tag .timeSet .malformed .none ∧ Spared s t))

/-- The state right after reset (R21, R106, R138, R168, R169, R177, R184, R187, R189). That the table memory
is blank at reset is the model's choice (log entry 3). -/
def Obligations.ResetIsPowerOnOfBlankMemory : Prop :=
  State.reset.sup.op = .loading ∧ State.reset.sup.clock = 0 ∧ State.reset.sup.clockSet = false ∧
    State.reset.sup.raised = List.replicate 11 0 ∧ State.reset.sup.layout = .blank ∧
    (∀ l : Link, (State.reset.link l).up = false ∧ (State.reset.link l).idle = false ∧
      (State.reset.link l).queue = [] ∧ (State.reset.link l).directives = [] ∧
      (State.reset.link l).notices = [] ∧ (State.reset.link l).subs = [] ∧
      (State.reset.link l).delivered = [] ∧ (State.reset.link l).cursor = none ∧
      (State.reset.link l).hold = none) ∧
    State.reset.role 0 = .console ∧ (∀ l : Link, l ≠ 0 → State.reset.role l = .fileserver) ∧
    State.reset.tally.principals = [] ∧ State.reset.tally.cache = [] ∧ State.reset.tally.castout = [] ∧
    State.reset.tally.postings = [] ∧ State.reset.tally.note = [] ∧
    State.reset.cat.volumes = [] ∧ State.reset.cat.snapshots = [] ∧ State.reset.cat.reclaims = [] ∧
    State.reset.rst.table = [] ∧ State.reset.rst.counter = 1 ∧ State.reset.str.slots = [] ∧
    State.reset.off.link = .down ∧ State.reset.off.phase = .closed ∧ State.reset.off.outstanding = [] ∧
    State.reset.off.fetchQueue = [] ∧ State.reset.off.queue = [] ∧
    State.reset.pat.work = [] ∧ State.reset.pat.folds = [] ∧ State.reset.pat.repairs = [] ∧
    State.reset.pat.waiting = [] ∧ State.reset.pending = []

/-- The bounds of `StepKeepsBounds` hold right after reset, and so do the invariants of
`EveryStepKeepsTheInvariants`. -/
def Obligations.ResetIsBounded : Prop := State.reset.bounded ∧ State.reset.sound

/-- Every step keeps the bounds: the clock at most 2^48 − 1 (R187), the raised counts of eleven classes at
most 65,535 (R177), at most 64 start-up notices (R178), and on every link at most 32 requests in the queue
(R172), 32 notices (R177) and 128 staged changes (R188). The premise that request numbers are ones already
given is the model's own. -/
def Obligations.StepKeepsBounds : Prop :=
  ∀ s t : State, s.bounded → Sys2Proof.Machine.step s = .next t → t.bounded

/-- R170: a server-link frame whose fields fit their sizes, sent and received, is the frame that was sent.
R141: an offsite frame whose fields fit their sizes, sent and received, is the frame that was sent.
Table 10-3: a frame that carries an Admit, a Commit or an EXTENT_DATA spells the command with every
operand; a Commit's body is 15 bytes long without codes and 79 with them (R170). Tables 8-2 and 8-3: a peer's
FETCH_DATA is the command of its number and chunk, and a FETCH_EMPTY that of its number. R1: the bytes of every
frame the part sends, on a server link and on the offsite link, read back with kind, flags, tag or number, and
body. R177: the body of a notice begins with its class code in one byte and the clock in six. -/
def Obligations.FramesReadBackAndSpellTheirCommands : Prop :=
  (∀ f : Frame, f.fits = true → parseFrame f.encode = .good f) ∧
  (∀ f : OffsiteFrame, f.fits = true → parseOffsite f.encode = some f) ∧
  (∀ (l : Link) (errs : List StoreError) (tag principal n q : Nat) (part : Bool),
    principal < 2 ^ 24 → n < 2 ^ 24 → q < 2 ^ 16 →
      Frame.admitReq l errs { kind := 1, flags := 1, tag := tag, body := admitBody principal n q part } =
        some (.admitReq l tag principal n q part errs)) ∧
  (∀ (l : Link) (errs : List StoreError) (tag vol ext owner loc occ : Nat) (cs : List Code),
    vol < 2 ^ 8 → ext < 2 ^ 24 → owner < 2 ^ 24 → loc < 2 ^ 48 → occ < 2 ^ 16 → cs.length = 16 →
      (commitBody vol ext owner loc occ (some cs)).length = 79 ∧
      (commitBody vol ext owner loc occ none).length = 15 ∧
      Frame.commit l errs
          { kind := 16, flags := 1, tag := tag, body := commitBody vol ext owner loc occ (some cs) } =
        some (.commit l tag vol ext owner loc occ (some cs) errs) ∧
      Frame.commit l errs
          { kind := 16, flags := 1, tag := tag, body := commitBody vol ext owner loc occ none } =
        some (.commit l tag vol ext owner loc occ none errs)) ∧
  (∀ (l : Link) (errs : List StoreError) (tag idx : Nat) (data : List Byte),
    idx < 2 ^ 8 → data.length = chunkBytes →
      Frame.extentData l errs { kind := 128, flags := 8, tag := tag, body := leBytes 1 idx ++ data } =
        some (.extentData l tag idx data errs)) ∧
  (∀ (errs : List StoreError) (num : Nat) (data : List Byte), data.length = chunkBytes →
      OffsiteFrame.command errs { kind := 171, number := num, body := data } = some (.fetchData num data errs) ∧
      OffsiteFrame.command errs { kind := 172, number := num, body := [] } = some (.fetchEmpty num errs)) ∧
  (∀ f : LinkFrame, f.tag < 2 ^ 16 → f.body.length ≤ maxBody →
      parseFrame f.bytes = .good { kind := f.kind, flags := f.flags, tag := f.tag, body := f.body }) ∧
  (∀ f : OffFrame, f.number < 2 ^ 16 → f.body.length ≤ maxBody →
      parseOffsite f.bytes = some { kind := f.kind, number := f.number, body := f.body }) ∧
  (∀ n : Notice, (LinkFrame.notice n).body.take 7 = leBytes 1 n.body.cls ++ leBytes 6 n.clock) ∧
  OffFrame.body .close = [] ∧ OffFrame.kind .close = 162 ∧ OffFrame.number .close = 0

/-- R183, R187, R188, R119: the operating state, the clock and its marks, the power-warn line, the clean-
shutdown flag, the settings in force and those that wait for a window, and a Standby Enter or Clear that waits
are changed only by the commands `writesSupervisor` names. Any other leaves them all as they were, unless it
meets a double error of table memory, which can halt the part (R190); the rest stays as it was then too. Where
it rests on the model's reading, log entry 7 says so.
R190: in HALTED no command but a power-on changes a table, a block, a link or the state: nothing is written,
the offsite link sends nothing, and all that goes out is the notice that accompanies the halt, once on a link.
Where it rests on the model's reading, log entry 41 says so. -/
def Obligations.OnlySomeCommandsChangeTheSupervisor : Prop :=
  (∀ (c : Instr) (s t : State), writesSupervisor c = false → Sys2Proof.Machine.exec c s = .next t →
    SupKept s t ∨ (errsOf c ≠ [] ∧ SupKept { s with sup.op := .halted } t)) ∧
  (∀ (c : Instr) (s : State), s.sup.op = .halted → (∀ errs, c ≠ .powerOn errs) →
    ∃ t, Sys2Proof.Machine.exec c s = .next t ∧ t.sup.op = .halted ∧
      t.sup = { s.sup with powerWarn := t.sup.powerWarn } ∧ t.tally = s.tally ∧ t.cat = s.cat ∧
      t.rst = s.rst ∧ t.str = s.str ∧ t.off = s.off ∧ t.pat = s.pat ∧ t.pending = s.pending ∧
      (∀ l : Link, t.link l = { s.link l with haltNotice := (t.link l).haltNotice } ∧
        ((t.link l).haltNotice = (s.link l).haltNotice ∨ (t.link l).haltNotice = none)) ∧
      ∀ o ∈ t.sent, ∃ l n, o = .link l (.notice n) ∧ (s.link l).haltNotice = some n ∧
        (t.link l).haltNotice = none)

/-- R182: in LOADING and HOLDUP each request is answered WRONG_STATE at arrival and takes no entry of its
link's queue; it has no other effect (a Reset too: log entry 45). (The link is UP; a frame that brings a link
UP has R169's effects beside.)
R172, R173: a request that arrives when its link's queue holds 32 entries is answered BUSY and has no
other effect, and a CONSOLE-only request (Table 10-6) that arrives on a FILESERVER link is answered
NOT_PERMITTED whatever its operands are. -/
def Obligations.RequestsAreTurnedAwayAtArrival : Prop :=
  (∀ (c : Instr) (s : State) (l : Link) (tag : Nat) (k : ReqKind),
    requestOf c = some (l, tag, k) → s.sup.op = .loading ∨ s.sup.op = .holdup → (s.link l).up = true →
      ∃ t, Sys2Proof.Machine.exec c s = .next t ∧ Answered s t l tag k .wrongState .none ∧ Spared s t) ∧
  (∀ (c : Instr) (s : State) (l : Link) (tag : Nat) (k : ReqKind),
    requestOf c = some (l, tag, k) → s.sup.op = .standby ∨ s.sup.op = .active → (s.link l).up = true →
      32 ≤ (s.link l).queue.length →
      ∃ t, Sys2Proof.Machine.exec c s = .next t ∧ Answered s t l tag k .busy .none ∧ Spared s t) ∧
  (∀ (c : Instr) (s : State) (l : Link) (tag : Nat) (k : ReqKind),
    requestOf c = some (l, tag, k) → consoleOnly c = true → s.takes l → s.role l = .fileserver →
      ∃ t, Sys2Proof.Machine.exec c s = .next t ∧ Answered s t l tag k .notPermitted .none ∧ Spared s t)

/-- R190 and Table 11-4: a double error of the layout block, the settings region or the catalogue and volume region
(R66), met by a command that reads or writes it, halts the part: STORE_ERROR is counted and goes to every UP
link subscribed to it, and no block's state is otherwise changed.
R20: a double error in a principal's tally words takes the values of its line, or 0 without one; one in both
copies of a class, limit or parent takes 0 or none, and for a parent every POOL becomes unsettled. The principal
is frozen and unsettled, its record rewritten, and the command goes on with what was taken; an error in one copy
has no effect.
R65: a double error in an extent record sets its damaged-record flag, and the word lost reads as zero: a Commit is
refused DAMAGED, and a sweep moves on. R105: one in both copies of a field of a restore record fails the restore
with cause STORE, its locks and its pin go, and the remaining reservation, where a copy can be read, is released.
R115: one in the slot of a SHIP frame cuts the frame short: it is outstanding, vacant, and its entry is UNPULLED; one in
a slot of a PUT refetches the chunk, and no PUT is issued. STORE_ERROR is counted in each case. Where it
rests on the model's reading, log entry 7 says so. -/
def Obligations.DoubleErrorsAreHandledByTheirOwners : Prop :=
  (∀ (s : State) (e : StoreError) (item : StoreItem) (c : Instr) (a b : Nat), s.sup.op ≠ .halted →
    (e = .layout ∧ item = .layout) ∨ (e = .settings ∧ item = .settings) ∨ (e = .catalogue ∧ item = .catalogue) →
    c ∈ [.graceExpiry [e], .nightEnd [e], .castoutDrain [e], .postingApply [e], .restoreStart [e],
      .windowOpening [e], .stepTakeUp a [e], .countWalkVisit a [e], .ack a [e], .doneAck a b [e],
      .dropAck a b [e], .slotGrant [e], .volumeDone [e], .drop [e], .admitReply a [e], .openAck [e],
      .offsiteIdleTimeout [e]] →
    ∃ t, Sys2Proof.Machine.exec c s = .next t ∧ t.sup.op = .halted ∧ t.tally = s.tally ∧ t.cat = s.cat ∧
      t.rst = s.rst ∧ t.str = s.str ∧ t.off = s.off ∧ t.pat = s.pat ∧ t.sent = [] ∧
      t.sup.raised[10]? = (s.sup.raised[10]?).map countUp ∧
      ∀ l : Link, (s.link l).up = true → (s.link l).subs.contains 10 = true →
        (t.link l).haltNotice = some { clock := s.sup.clock, body := .storeError item }) ∧
  (∀ (s : State) (l : Link) (tag id : Nat) (e : StoreError) (p p' : Principal) (now : Nat × Nat), s.takes l →
    s.tallyStill → s.prin id = some p → p.kind = .person → p.course = none ∧ p.dept = none → p.soft = none →
    p.grace = .within →
    (e = .principalTally id ∧ s.line id = none ∧ s.castoutOf id = none ∧ now = (0, 0) ∧
        p' = { p with used := 0, reserved := 0, marker := false }) ∨
      (∃ x, e = .principalTally id ∧ s.line id = some x ∧ x.filling = false ∧ now = (x.used, x.reserved) ∧
        p' = { p with used := x.used, reserved := x.reserved, marker := false }) ∨
      (e = .principalBoth id .cls ∧ now = s.current id ∧ p' = { p with cls := 0 }) ∨
      (e = .principalBoth id .hard ∧ now = s.current id ∧ p' = { p with hard := none }) ∨
      (e = .principalBoth id .course ∧ now = s.current id ∧ p' = p) →
    ∃ t, Sys2Proof.Machine.exec (.query l tag (.principal id) [e]) s = .next t ∧
      t.prin id = some { p' with frozen := true, unsettled := true } ∧ t.current id = now ∧
      Answered s t l tag .query .done (.record (.principal id { p' with
        used := now.1, reserved := now.2, frozen := true, unsettled := true, marker := false })) ∧
      (e = .principalBoth id .course → ∀ q k, s.prin q = some k → k.kind = .pool →
        ∃ k', t.prin q = some k' ∧ k'.unsettled = true) ∧
      t.sup.raised[10]? = (s.sup.raised[10]?).map countUp) ∧
  (∀ (s : State) (l : Link) (tag id : Nat) (f : DupField) (q : QuerySubject), s.takes l → s.tallyStill →
    ∃ t, Sys2Proof.Machine.exec (.query l tag q [.principalOneCopy id f]) s = .next t ∧ Spared s t) ∧
  (∀ (s : State) (l : Link) (tag vol ext : Nat) (v : Volume) (lost : List ExtentField), s.takes l → s.calm →
    s.cat.attaching = [] → s.volume vol = some v → ext < v.count →
    ∃ t, Sys2Proof.Machine.exec (.query l tag (.extent vol ext) [.extentRecord vol ext lost]) s = .next t ∧
      t.volume vol = some { v with
        damage := if v.damage.contains ext then v.damage else sortNat (ext :: v.damage) } ∧
      Answered s t l tag .query .done (.record (t.extentView vol ext)) ∧
      t.sup.raised[10]? = (s.sup.raised[10]?).map countUp ∧
      (lost = [] → t.extent vol ext = s.extent vol ext) ∧
      (lost = [.owner] → t.extent vol ext = { s.extent vol ext with owner := 0 }) ∧
      (∀ i, lost = [.occupied i] → t.extent vol ext = { s.extent vol ext with
        versions := modAt (s.extent vol ext).versions i fun x => { x with occ := 0 } }) ∧
      (∀ i, lost = [.shipped i] → t.extent vol ext = { s.extent vol ext with
        versions := modAt (s.extent vol ext).versions i fun x => { x with shipped := false } })) ∧
  (∀ (s : State) (l : Link) (tag vol ext owner loc occ : Nat) (codes : Option (List Code)) (v : Volume),
    s.commitReady l vol ext owner loc occ codes v → s.cat.attaching = [] →
    ∃ t, Sys2Proof.Machine.exec (.commit l tag vol ext owner loc occ codes [.extentRecord vol ext []]) s =
        .next t ∧
      Answered s t l tag .commit .damaged .none ∧ t.damaged vol ext = true ∧
      t.extent vol ext = s.extent vol ext) ∧
  (∀ (s : State) (vol gen ext : Nat) (v : Volume) (p : Snapshot), s.sweeps vol ext v → s.cat.attaching = [] →
    s.snapshot vol gen = some p → p.state = .expiring ext → ext + 1 < v.count →
    ∃ t, Sys2Proof.Machine.exec (.expirySweepVisit vol gen [.extentRecord vol ext []]) s = .next t ∧
      t.snapshot vol gen = some { p with state := .expiring (ext + 1) } ∧ t.damaged vol ext = true ∧
      t.extent vol ext = s.extent vol ext) ∧
  (∀ (s : State) (l : Link) (tag rid rec : Nat) (r : Restore) (k : Principal) (readable : Bool), s.takes l →
    s.calm → s.recordOf rid = some (rec, r) → s.restore rec = some r → r.rid = rid → r.state = .planned →
    (∀ x ∈ r.steps, x.state = .waiting ∨ x.state = .skipped) → s.prin r.principal = some k →
    ∃ t r' k', Sys2Proof.Machine.exec (.restoreStatus l tag rid [.restoreBoth rec readable]) s = .next t ∧
      t.restore rec = some r' ∧ r'.state = .failed ∧ r'.cause = some .store ∧ r'.remaining = 0 ∧
      r'.pin = false ∧ t.prin r.principal = some k' ∧ k'.active = k.active - 1 ∧
      (∀ i, i < r.steps.length → (t.extent (r.target i).1 (r.target i).2).lock ≠ some rid) ∧
      Answered s t l tag .restoreStatus .done (.record (restoreView rec r')) ∧
      t.sup.raised[10]? = (s.sup.raised[10]?).map countUp ∧
      t.sup.raised[3]? = (s.sup.raised[3]?).map countUp ∧
      (readable = false ∨ r.remaining = 0 → t.tally.ops = []) ∧
      (readable = true → 0 < r.remaining → ∃ o ∈ t.tally.ops, o.job = .unreserve r.principal r.remaining)) ∧
  (∀ (s : State) (e : ShipEntry) (rest : List ShipEntry) (p : PlanVol) (n m : Nat) (x : Slot),
    s.sup.op ≠ .halted → s.calm → s.off.phase = .windowOpen → s.shipMay = true → s.off.controls = [] →
    s.off.withdrawnNums = [] → (∀ f ∈ s.off.outstanding, f.vacant = false) → s.off.queue = e :: rest →
    (s.off.queue.map ShipEntry.num).Nodup → e.state = .ready → s.planOf e.vol = some p →
    (∀ q ∈ s.off.plan, q.state ≠ .shed ∧ q.state ≠ .failed) → e.slot = some n → s.slot n = some x →
    x.cls = .ship → x.holder = .shipPull m →
    (∀ f ∈ s.off.outstanding, ∀ num y, f.entryNum = some num → s.entry num = some y → y.slot ≠ some n) →
    ∃ t f, Sys2Proof.Machine.exec (.ship [.slot n]) s = .next t ∧ t.off.outstanding = s.off.outstanding ++ [f] ∧
      f.num = s.off.seqCounter ∧ f.vacant = true ∧ (∀ o, Output.offsite o ∉ t.sent) ∧ t.slot n = none ∧
      { e with state := .unpulled, slot := none } ∈ t.off.queue ∧
      t.sup.raised[10]? = (s.sup.raised[10]?).map countUp) ∧
  ∀ (s : State) (rec i n : Nat) (r : Restore) (x : Step) (v : Version) (y : Slot),
    s.sup.op = .standby ∨ s.sup.op = .active → s.calm → s.restore rec = some r → r.steps[i]? = some x →
    x.state = .fetching → x.marker = false → x.refetched.contains y.idx = false → x.src = some v.birth →
    (s.extent r.vol (r.first + i)).version v.birth = some v → 0 < v.occ → y.idx < 16 → s.slot n = some y →
    y.cls = .fetch → y.holder = .step rec i → y.state = .full → (s.chunksOf (.step rec i) .full).length = 16 →
    s.off.roomWaits = [] → s.off.fetchQueue.length + s.fetchesOut + 1 ≤ 32 →
    ∃ t, Sys2Proof.Machine.exec (.put rec i [.slot n]) s = .next t ∧ t.slot n = none ∧
      (∀ l : Link, (t.link l).directives = (s.link l).directives) ∧
      t.restore rec = some { r with
        steps := r.steps.set i { x with refetched := sortNat (y.idx :: x.refetched) } } ∧
      ({ holder := .step rec i, vol := r.vol, ext := r.first + i, birth := v.birth, idx := some y.idx,
         code := v.codeAt y.idx } : FetchEntry) ∈ t.off.fetchQueue ∧
      t.sup.raised[10]? = (s.sup.raised[10]?).map countUp

/-- What each block holds stays within its sizes and its rules (`State.sound`): a drift at most 4,096 and the
record of a changed line or castout entry marked (R10 to R12), the postings, the castout buffer and the Grace
Queue within their sizes (R15, R37); records of every table in rising order of their keys; at most 4 versions
an extent and one live version where its record is whole (R50); Reclaim Table entries within 4,096 (R59); at
most 64 slots, at most 8 of them PATROL (R107); at most 16 outstanding frames, of one direction (R143); and at
most 16 directives on a link (R175). Every step keeps all of these, from every state in which they hold. -/
def Obligations.EveryStepKeepsTheInvariants : Prop :=
  ∀ s t : State, s.sound → Sys2Proof.Machine.step s = .next t → t.sound
/-! ### Power, loading and the operating states -/

/-- R184, R189: power-on in any state. A double error in the layout block, the settings region or the catalogue
region (R190), or a layout that is not the part's, halts; blank memory begins its first initialisation; a
matching layout is loaded: LOADING with the clock at 0 and not set, every link as new, tables kept, and pins,
reference counts and locks gone. -/
def Obligations.PowerOnLoadsOrHalts : Prop :=
  (∀ (s : State) (errs : List StoreError),
    StoreError.layout ∈ errs ∨ StoreError.settings ∈ errs ∨ StoreError.catalogue ∈ errs ∨ s.sup.layout = .other →
    ∃ t, Sys2Proof.Machine.exec (.powerOn errs) s = .next t ∧ t.sup.op = .halted) ∧
  (∀ (s : State) (errs : List StoreError), StoreError.layout ∉ errs → StoreError.settings ∉ errs →
    StoreError.catalogue ∉ errs → s.sup.layout = .blank →
    ∃ t, Sys2Proof.Machine.exec (.powerOn errs) s = .next t ∧ t.sup.op = .loading ∧
      t.sup.stage = .initialising ∧ t.sup.clock = 0 ∧ t.sup.clockSet = false) ∧
  (∀ s : State, s.sup.layout = .matching → Tbl.wf s.cat.extents = true →
    ∃ t, Sys2Proof.Machine.exec (.powerOn []) s = .next t ∧ t.sup.op = .loading ∧
      t.sup.stage = .walking ∧ t.sup.clock = 0 ∧ t.sup.clockSet = false ∧
      t.sup.raised = List.replicate 11 0 ∧ t.sup.pendingSettings = PendingSettings.none ∧
      (∀ l, t.link l = LinkRec.initial) ∧
      t.tally = { Tally.initial with principals := s.tally.principals, note := s.tally.note } ∧
      t.rst.table = s.rst.table ∧ t.rst.counter = s.rst.counter ∧ t.str = Stream.initial ∧
      t.pat = Patrol.initial ∧ t.off.link = .down ∧ t.off.phase = .closed ∧ t.off.outstanding = [] ∧
      t.off.fetchQueue = [] ∧ t.off.queue = [] ∧
      (∀ vol, t.volume vol = (s.volume vol).map fun v => { v with refTotal := 0 }) ∧
      (∀ vol gen p, s.snapshot vol gen = some p →
        ∃ p', t.snapshot vol gen = some p' ∧ p'.pins = 0 ∧ p'.kind = p.kind ∧ p'.cutTime = p.cutTime ∧
          p'.held = p.held) ∧
      (∀ vol ext, (t.extent vol ext).lock = none ∧ (t.extent vol ext).owner = (s.extent vol ext).owner ∧
        (t.extent vol ext).versions.map Version.birth = (s.extent vol ext).versions.map Version.birth ∧
        ∀ v ∈ (t.extent vol ext).versions, v.refs = 0 ∧ v.repair ≠ .suspect ∧ v.repair ≠ .repairing) ∧
      ∀ r ∈ t.cat.reclaims, r.refs = 0)

/-- R189: the first initialisation leaves an empty Principal Table, every volume DETACHED, an empty
catalogue and Reclaim Table, every restore record unused with the counter at 1, the settings at their
initial values, the in-progress note and the clean-shutdown flag clear; loading then proceeds. -/
def Obligations.FirstInitialisationFillsTheTables : Prop :=
  ∀ s : State, s.sup.op = .loading → s.sup.stage = .initialising →
    ∃ t, Sys2Proof.Machine.exec .layoutInitialised s = .next t ∧ t.sup.layout = .matching ∧
      t.sup.stage = .walking ∧ t.sup.op = .loading ∧ t.sup.settings = Settings.initial ∧
      t.sup.cleanFlag = false ∧ t.sup.clock = s.sup.clock ∧ t.sup.clockSet = s.sup.clockSet ∧
      t.tally.principals = [] ∧ t.tally.note = [] ∧ (∀ vol, t.volume vol = none) ∧
      t.cat.snapshots = [] ∧ t.cat.reclaims = [] ∧ t.rst.table = [] ∧ t.rst.counter = 1 ∧
      t.links = s.links ∧ t.str = s.str ∧ t.off = s.off ∧ t.pat = s.pat

/-- R21: the walk makes each record that carries the marker, or stands in the note, unsettled and clears the
marker; it gives each pool the number of its unsettled members and makes it unsettled where that is above 0;
the note is cleared, and no restore stays active. Used and reserved stand as they were. R184: when every block
has reported, the clean-shutdown flag is read, kept for Status Query and written clear; the part leaves
LOADING to HOLDUP if the power-warn line is asserted, and otherwise to ACTIVE or STANDBY by the auto-activate
setting. Where it rests on the model's reading, log entry 39 says so. -/
def Obligations.LoadingWalkSettlesTheFlagsAndEnds : Prop :=
  (∀ s : State, s.sup.op = .loading → s.sup.stage = .walking → s.tallyStill → s.patrolStill →
    Tbl.wf s.tally.principals = true → Tbl.wf s.rst.table = true →
    ∃ t, Sys2Proof.Machine.exec (.tallyLoadingWalkEnd []) s = .next t ∧ t.sup.stage = .walked ∧
      SupKept { s with sup.stage := .walked } t ∧ t.tally.note = [] ∧
      (∀ id p, s.prin id = some p → ∃ p', t.prin id = some p' ∧ p'.marker = false ∧
        p'.used = p.used ∧ p'.reserved = p.reserved ∧
        (p.kind = .person → p'.unsettled = (p.unsettled || p.marker || s.tally.note.contains id)) ∧
        (p.kind = .pool →
          p'.unsettledMembers = ((t.membersOf id).filter fun m => m.2.unsettled).length ∧
          p'.unsettled =
            (p.unsettled || p.marker || s.tally.note.contains id || decide (0 < p'.unsettledMembers)))) ∧
      ∀ rec r, t.restore rec = some r → r.state.isActive = false) ∧
  (∀ s : State, s.loaded = true →
    ∃ t, Sys2Proof.Machine.exec .loadingEnd s = .next t ∧ t.sup.prevClean = s.sup.cleanFlag ∧
      t.sup.cleanFlag = false ∧ t.sup.clock = s.sup.clock ∧ t.sup.settings = s.sup.settings ∧
      (s.sup.powerWarn = true → t.sup.op = .holdup) ∧
      (s.sup.powerWarn = false → s.sup.settings.autoActivate = true → t.sup.op = .active) ∧
      (s.sup.powerWarn = false → s.sup.settings.autoActivate = false → t.sup.op = .standby))

/-- R186: the power-warn line in STANDBY or ACTIVE takes the part to HOLDUP: recounts are abandoned (R22),
every restore that was active has FAILED with cause POWER, a reservation release of its whole remaining reservation
waits at the Tally Unit (stated where that had nothing else to go on with), its pin is dropped and its locks are
released (R103), the offsite link is DOWN with no frame outstanding and its Fetch Queue empty, every SHIP entry is
UNPULLED without a slot and none is lost, and the VOLUME_DONEs and DROPs that were outstanding are pending (R136,
R154), every slot but those of class PATROL is free and no slot request waits (R116), the Patrol Unit's lists and
records are empty (R168), and no Standby Enter or Clear is awaited (R185). In LOADING the line is only noted. R186:
with the Tally Unit's buffers empty the clean-shutdown flag is written set, and the part stays in HOLDUP while the
line is asserted. (That the markers left go with that write is the model's choice, log entry 53.) Once the flag is
written and the line deasserted the part is in STANDBY with the flag written clear, and the recounts of R22 begin
again; deasserted before the flag is written, the holdup work goes on. Where it rests on the model's reading, log
entry 37 says so. -/
def Obligations.HoldupIsEnteredAndLeft : Prop :=
  ((∀ s : State, s.sup.op = .standby ∨ s.sup.op = .active → Tbl.wf s.rst.table = true →
    ∃ t, Sys2Proof.Machine.exec .powerWarnAssert s = .next t ∧ t.sup.op = .holdup ∧
      t.sup.powerWarn = true ∧ t.sup.quiet = none ∧ t.sup.settings = s.sup.settings ∧
      t.sup.cleanFlag = s.sup.cleanFlag ∧ t.sup.clock = s.sup.clock ∧
      ((∀ o ∈ s.tally.ops, o.job.runsAtOnce = false) → t.tally.recounts = []) ∧
      (∀ rec r, t.restore rec = some r → r.state.isActive = false) ∧
      (∀ rec r, s.restore rec = some r → r.state.isActive = true →
        ∃ r', t.restore rec = some r' ∧ r'.rid = r.rid ∧ r'.state = .failed ∧ r'.cause = some .power ∧
          r'.remaining = 0 ∧ r'.pin = false ∧
          (s.tallyStill → 0 < r.remaining →
            ∃ o ∈ t.tally.ops, o.job = .unreserve r.principal r.remaining) ∧
          ∀ i < r.steps.length, (t.extent (r.target i).1 (r.target i).2).lock ≠ some r.rid) ∧
      t.rst.waiting = [] ∧ t.off.link = .down ∧ t.off.outstanding = [] ∧ t.off.fetchQueue = [] ∧
      (s.nightEnding = false →
        (∀ e ∈ t.off.queue, e.form = .ship → e.state = .unpulled ∧ e.slot = none) ∧
        ((∀ p ∈ s.off.plan, p.state ≠ .shed ∧ p.state ≠ .failed) →
          t.off.queue.map ShipEntry.num = s.off.queue.map ShipEntry.num) ∧
        ∀ f ∈ s.off.outstanding, ∀ c, f.body = .control c → f.received = false → c ∈ t.off.controls) ∧
      (∀ n x, t.slot n = some x → x.cls = .patrol) ∧ t.str.waitRepair = [] ∧ t.str.waitFetch = [] ∧
      t.str.waitShip = [] ∧ t.str.waitPatrol = [] ∧ t.pat.work = [] ∧ t.pat.folds = [] ∧
      t.pat.repairs = [] ∧ t.pat.waiting = []) ∧
  (∀ s : State, s.sup.op = .loading →
    Sys2Proof.Machine.exec .powerWarnAssert s = .next { s with sup.powerWarn := true, sent := [] })) ∧
  ((∀ s : State, s.sup.op = .holdup → s.sup.cleanFlag = false → s.tallyEmpty = true →
    ∃ t, Sys2Proof.Machine.exec .cleanShutdownWrite s = .next t ∧
      t.sup.settings = s.sup.settings ∧
      (s.sup.powerWarn = true → t.sup = { s.sup with cleanFlag := true } ∧ t.links = s.links ∧
        t.tally = { s.tally with principals := t.tally.principals } ∧
        (∀ id, t.prin id = (s.prin id).map fun p => { p with marker := false }) ∧ t.cat = s.cat ∧
        t.rst = s.rst ∧ t.str = s.str ∧ t.off = s.off ∧ t.pat = s.pat) ∧
      (s.sup.powerWarn = false → t.sup.op = .standby ∧ t.sup.cleanFlag = false ∧ t.str.slots = [] ∧
        ∀ id p, s.prin id = some p → p.kind = .pool → p.unsettled = true → p.unsettledMembers = 0 →
          id ∈ t.tally.recounts)) ∧
  (∀ s : State, s.sup.op = .holdup →
    ∃ t, Sys2Proof.Machine.exec .powerWarnDeassert s = .next t ∧ t.sup.powerWarn = false ∧
      t.sup.cleanFlag = false ∧ t.sup.settings = s.sup.settings ∧
      (s.sup.cleanFlag = true → t.sup.op = .standby ∧ t.str.slots = []) ∧
      (s.sup.cleanFlag = false → t = { s with sup.powerWarn := false, sent := [] })))

/-! ### Server links -/

/-- R181, R169: a link reset. At loss of signal an UP link goes DOWN and is BUSY; a Reset leaves its link UP
and has no reply. Notices, waiting frames, cursor, hold, delivered set and outstanding directives are gone,
and so are the requests not yet taken; of the others the replies will be discarded. (After a Reset of a link
with no directive outstanding, no notice waits, and of frames only the CUT_DUEs that R74 sends anew.) The
subscription set is kept, and a loss of signal keeps the tag counter too. Where it rests on the model's reading,
log entry 18 says so. -/
def Obligations.LinkResetClearsItsLink : Prop :=
  (∀ (s : State) (l : Link), s.sup.op ≠ .halted → (s.link l).up = true →
    ∃ t, Sys2Proof.Machine.exec (.serialLossOfSignal l) s = .next t ∧ SupKept s t ∧
      (t.link l).up = false ∧ (t.link l).idle = false ∧ (t.link l).hold = none ∧
      (t.link l).cursor = none ∧ (t.link l).delivered = [] ∧ (t.link l).directives = [] ∧
      (t.link l).notices = [] ∧ (t.link l).tx = [] ∧ (t.link l).subs = (s.link l).subs ∧
      (t.link l).tagCounter = (s.link l).tagCounter ∧
      (∀ e ∈ (t.link l).queue, e.taken = true ∧ e.stale = true) ∧
      (∀ q ∈ t.rst.waiting, q.link ≠ l) ∧
      ∀ k, k ≠ l → (t.link k).up = (s.link k).up ∧ (t.link k).subs = (s.link k).subs ∧
        (t.link k).hold = (s.link k).hold ∧ (t.link k).cursor = (s.link k).cursor ∧
        (t.link k).directives = (s.link k).directives) ∧
  (∀ (s : State) (l : Link) (tag : Nat), s.takes l →
    ∃ t, Sys2Proof.Machine.exec (.reset l tag) s = .next t ∧ SupKept s t ∧
      (t.link l).up = true ∧ (t.link l).idle = false ∧ (t.link l).hold = none ∧
      (t.link l).cursor = none ∧ (t.link l).delivered = [] ∧ (t.link l).directives = [] ∧
      (t.link l).subs = (s.link l).subs ∧
      (∀ e ∈ (t.link l).queue, e.taken = true ∧ e.stale = true) ∧
      (∀ q ∈ t.rst.waiting, q.link ≠ l) ∧
      (∀ st b, TxFrame.reply tag .reset st b ∉ (t.link l).tx) ∧
      (s.calm → (s.link l).directives = [] → (t.link l).notices = [] ∧
        ∀ f ∈ (t.link l).tx, ∃ tg v n g, f = .directive tg (.cutDue v n g)) ∧
      ∀ k, k ≠ l → (t.link k).up = (s.link k).up ∧ (t.link k).subs = (s.link k).subs ∧
        (t.link k).hold = (s.link k).hold ∧ (t.link k).cursor = (s.link k).cursor)

/-- R171, R169, R142: a frame of bad sync or check code is discarded and counted, and the fourth in a row
takes an UP link DOWN; one too long is discarded and counted, and with a correct check code it is a frame that
brings a DOWN link UP (that one with a bad code counts as that is the model's choice, log entry 57); one of bad
flags, or an answer whose kind or body does not fit, is discarded and
counted, its directive staying outstanding; a request whose kind or body does not fit is answered MALFORMED
with its tag and has no other effect; a discarded frame of the peer has no effect. Where it rests on the
model's reading, log entry 40 says so. -/
def Obligations.UnfitFramesAreDiscarded : Prop :=
  (∀ (s : State) (l : Link) (bytes : List Byte), s.sup.op ≠ .halted →
    parseFrame bytes = .badSync ∨ parseFrame bytes = .badCode ∨ parseFrame bytes = .badLength false →
    ∃ t, Sys2Proof.Machine.exec (.frameDiscard l bytes) s = .next t ∧ SupKept s t ∧
      (t.link l).discarded = (s.link l).discarded + 1 ∧ (t.link l).subs = (s.link l).subs ∧
      ((s.link l).up = true → 3 ≤ (s.link l).badRun → (t.link l).up = false ∧ (t.link l).hold = none) ∧
      ((s.link l).up = false ∨ (s.link l).badRun < 3 →
        (t.link l).up = (s.link l).up ∧ (t.link l).badRun = (s.link l).badRun + 1 ∧
        (t.link l).hold = (s.link l).hold ∧ (t.link l).directives = (s.link l).directives ∧
        t.rst = s.rst)) ∧
  (∀ (s : State) (l : Link) (bytes : List Byte), s.sup.op ≠ .halted → parseFrame bytes = .badLength true →
    ∃ t, Sys2Proof.Machine.exec (.frameDiscard l bytes) s = .next t ∧ SupKept s t ∧
      (t.link l).discarded = (s.link l).discarded + 1 ∧ (t.link l).up = true ∧
      (t.link l).directives = (s.link l).directives ∧ (t.link l).badRun = 0 ∧ t.rst = s.rst ∧
      (s.tallyStill → t.tally = s.tally) ∧ (s.patrolStill → t.pat = s.pat) ∧
      ((s.link l).up = true → catSettles s.cat t.cat ∧ (s.calm → Undisturbed s t))) ∧
  (∀ (s : State) (l : Link) (bytes : List Byte) (f : Frame), s.sup.op ≠ .halted →
    (s.link l).up = true → parseFrame bytes = .good f → f.classify = .badFlags ∨ f.classify = .answer false →
    ∃ t, Sys2Proof.Machine.exec (.frameDiscard l bytes) s = .next t ∧ SupKept s t ∧
      (t.link l).discarded = (s.link l).discarded + 1 ∧ (t.link l).up = true ∧
      (t.link l).directives = (s.link l).directives ∧ t.rst = s.rst ∧ catSettles s.cat t.cat) ∧
  (∀ (s : State) (l : Link) (bytes : List Byte) (f : Frame), s.sup.op ≠ .halted →
    (s.link l).up = true → parseFrame bytes = .good f → f.classify = .request false →
    ∃ t, Sys2Proof.Machine.exec (.unknownRequest l bytes) s = .next t ∧ Spared s t ∧
      Answered s t l f.tag (ReqKind.ofCode f.kind) .malformed .none) ∧
  (∀ (s : State) (bytes : List Byte),
    Sys2Proof.Machine.exec (.offsiteFrameDiscard bytes) s = .next { s with sent := [] })

/-- R174, R182: an UP link transmits its waiting replies, directives and CHUNK_DATA frames in their order, a
CHUNK_DATA with the bytes of its slot; a notice goes only when none of those waits, the head of the notice
queue first. In HALTED a link transmits the notice of the halt once, and nothing else. -/
def Obligations.RepliesGoBeforeNotices : Prop :=
  (∀ (s : State) (l : Link) (f : TxFrame) (rest : List TxFrame), s.sup.op ≠ .halted →
    (s.link l).up = true → (s.link l).tx = f :: rest →
    ∃ t more out, Sys2Proof.Machine.exec (.linkTransmit l []) s = .next t ∧ SupKept s t ∧
      t.sent = .link l (match f with
        | .reply tag k st b => .reply tag k st b
        | .directive tag b => .directive tag b
        | .chunk tag idx n => .chunk tag idx (match s.slot n with
          | some x => x.data
          | none => [])) :: out ∧
      (t.link l).tx = rest ++ more ∧ (s.link l).notices <+: (t.link l).notices) ∧
  (∀ (s : State) (l : Link) (n : Notice) (rest : List Notice), s.sup.op ≠ .halted →
    (s.link l).up = true → (s.link l).tx = [] → (s.link l).notices = n :: rest →
    ∃ t more out, Sys2Proof.Machine.exec (.linkTransmit l []) s = .next t ∧ SupKept s t ∧
      t.sent = .link l (.notice n) :: out ∧ (t.link l).notices = rest ++ more) ∧
  (∀ (s : State) (l : Link) (n : Notice), s.sup.op = .halted → (s.link l).haltNotice = some n →
    ∃ t, Sys2Proof.Machine.exec (.linkTransmit l []) s = .next t ∧ t.sent = [.link l (.notice n)] ∧
      (t.link l).haltNotice = none ∧ t.sup = s.sup) ∧
  (∀ (s : State) (l : Link), s.sup.op = .halted → (s.link l).haltNotice = none →
    Sys2Proof.Machine.exec (.linkTransmit l []) s = .next { s with sent := [] })

/-- R159: an UP link with no request in its queue and no directive outstanding becomes IDLE when the idle time
has passed; short of that its idle state stands. (Patrol at rest: an item issued for the IDLE link makes it
BUSY again, R158.) R177, R178: Subscribe replaces the link's subscription set and is answered DONE, or refused
RANGE if the set names a class above 10; the start-up notices of classes newly delivered are queued to the
link, and those classes join its delivered set. (RESTORE_END, class 3, has R100's recipients.) Where it rests
on the model's reading, log entry 12 says so. -/
def Obligations.LinkIdlesAndSubscribes : Prop :=
  ((∀ (s : State) (l : Link), s.sup.op ≠ .halted → s.patrolStill → (s.link l).up = true →
    (s.link l).idle = false → (s.link l).queue = [] → (s.link l).directives = [] →
    (s.link l).idleFrom + s.sup.settings.idleTime ≤ s.sup.elapsed →
    ∃ t, Sys2Proof.Machine.exec (.linkIdle l) s = .next t ∧ SupKept s t ∧ (t.link l).idle = true ∧
      (t.link l).up = true ∧ (t.link l).directives = [] ∧ t.pat = s.pat ∧ t.rst = s.rst) ∧
  (∀ (s : State) (l : Link), s.sup.op ≠ .halted →
    (s.link l).up = false ∨ (s.link l).queue ≠ [] ∨ (s.link l).directives ≠ [] ∨
      s.sup.elapsed < (s.link l).idleFrom + s.sup.settings.idleTime →
    Sys2Proof.Machine.exec (.linkIdle l) s = .next { s with sent := [] })) ∧
  ((∀ (s : State) (l : Link) (tag : Nat) (classes : List Nat), s.takes l → (∀ c ∈ classes, c ≤ 10) →
    ∃ t, Sys2Proof.Machine.exec (.subscribe l tag classes) s = .next t ∧ SupKept s t ∧
      Answered s t l tag .subscribe .done .none ∧ (∀ c, c ∈ (t.link l).subs ↔ c ∈ classes) ∧
      (∀ c, c ∈ (t.link l).delivered ↔ c ∈ (s.link l).delivered ∨ c ∈ classes) ∧
      ((s.link l).notices.length + s.sup.startup.length ≤ 32 →
        ∀ n ∈ s.sup.startup, n.body.cls ∈ classes → n.body.cls ∉ (s.link l).delivered → n.body.cls ≠ 3 →
          n ∈ (t.link l).notices) ∧
      (∀ k, k ≠ l → (t.link k).subs = (s.link k).subs) ∧ t.rst = s.rst ∧ catSettles s.cat t.cat) ∧
  (∀ (s : State) (l : Link) (tag : Nat) (classes : List Nat), s.takes l → (∃ c ∈ classes, 10 < c) →
    ∃ t, Sys2Proof.Machine.exec (.subscribe l tag classes) s = .next t ∧
      Answered s t l tag .subscribe .range .none ∧ Spared s t))



/-! ### The tally -/

/-- R24, R15, R18: Admit, Release and Settle as they are taken. One that passes its checks is with the Tally
Unit; a Release that finds the Posting Queue short of 256 entries is appended and answered ACCEPTED. A refused
one is answered by the check that fails, of two the one its rule names first (the model's choice, log entry 58), an
Admit with three zeros, and changes nothing. A Settle whose chain's lines are resident, dirty and free sets the
person's used to the counted value and keeps reserved; each pool of the chain takes the difference, no lower than 0;
an unsettled person is unsettled no more, and each pool's unsettled member count falls by one, its Pool Recount
beginning at 0; the write of the person's record is under way, and DONE waits for it (R18). Where it rests on the
model's reading, log entries 18 and 20 say so. -/
def Obligations.AdmitReleaseSettleAreTaken : Prop :=
  (∀ (s : State) (l : Link) (tag p n q : Nat) (part : Bool), s.takes l → s.tallyStill →
    1 ≤ n → n ≤ 16777215 → 1 ≤ q → q ≤ 1024 → s.isPerson p = true →
    ∃ t, Sys2Proof.Machine.exec (.admitReq l tag p n q part) s = .next t ∧ Queued s t l tag .admitReq true ∧
      (∃ o ∈ t.tally.ops, o.job = .admitReq l s.sup.nextReq p n q part) ∧
      t.tally.principals = s.tally.principals) ∧
  (∀ (s : State) (l : Link) (tag p n q : Nat) (part : Bool), s.takes l →
    n < 1 ∨ 16777215 < n ∨ q < 1 ∨ 1024 < q →
    ∃ t, Sys2Proof.Machine.exec (.admitReq l tag p n q part) s = .next t ∧ Spared s t ∧
      Answered s t l tag .admitReq .range (.admitReq 0 0 0)) ∧
  (∀ (s : State) (l : Link) (tag p n q : Nat) (part : Bool), s.takes l →
    1 ≤ n → n ≤ 16777215 → 1 ≤ q → q ≤ 1024 → s.isPerson p = false →
    ∃ t, Sys2Proof.Machine.exec (.admitReq l tag p n q part) s = .next t ∧ Spared s t ∧
      Answered s t l tag .admitReq .unknownPrincipal (.admitReq 0 0 0)) ∧
  (∀ (s : State) (l : Link) (tag p b : Nat), s.takes l → s.tally.ops = [] → s.tally.modeReply = [] →
    1 ≤ b → b ≤ 16777215 → s.isPerson p = true → s.tally.postings.length < 256 →
    ∃ t, Sys2Proof.Machine.exec (.release l tag p b) s = .next t ∧
      Answered s t l tag .release .accepted .none ∧
      t.tally.postings = s.tally.postings ++
        [{ num := s.tally.nextPosting, principal := p, blocks := b, link := l }] ∧
      t.tally.principals = s.tally.principals) ∧
  (∀ (s : State) (l : Link) (tag p b : Nat), s.takes l → s.tally.ops = [] → s.tally.modeReply = [] →
    1 ≤ b → b ≤ 16777215 → s.isPerson p = true → 256 ≤ s.tally.postings.length →
    ∃ t, Sys2Proof.Machine.exec (.release l tag p b) s = .next t ∧ t.tally.postings = s.tally.postings ∧
      ((∃ o ∈ t.tally.ops, o.job = .release l s.sup.nextReq p b) ∨ Answered s t l tag .release .done .none)) ∧
  (∀ (s : State) (l : Link) (tag p b : Nat), s.takes l → b < 1 ∨ 16777215 < b →
    ∃ t, Sys2Proof.Machine.exec (.release l tag p b) s = .next t ∧ Spared s t ∧
      Answered s t l tag .release .range .none) ∧
  (∀ (s : State) (l : Link) (tag p b : Nat), s.takes l → 1 ≤ b → b ≤ 16777215 → s.isPerson p = false →
    ∃ t, Sys2Proof.Machine.exec (.release l tag p b) s = .next t ∧ Spared s t ∧
      Answered s t l tag .release .unknownPrincipal .none) ∧
  (∀ (s : State) (l : Link) (tag p c : Nat), s.takes l → s.tallyStill → s.isPerson p = true → c ≤ maxTally →
    ∃ t, Sys2Proof.Machine.exec (.settle l tag p c) s = .next t ∧ Queued s t l tag .settle true ∧
      ∃ o ∈ t.tally.ops, o.job = .settle l s.sup.nextReq p c) ∧
  (∀ (s : State) (l : Link) (tag p c : Nat), s.takes l → s.tallyStill → s.isPerson p = true → c ≤ maxTally →
    s.plainLines (s.chain p) → (∀ id ∈ s.chain p, s.lineHeld id = false ∧ id ∉ s.tally.recounts) →
    s.tally.castout = [] → s.tally.writes = [] →
    (∀ id ∈ (s.chain p).drop 1, (s.current id).1 + c - (s.current p).1 ≤ maxTally) →
    ∃ t, Sys2Proof.Machine.exec (.settle l tag p c) s = .next t ∧ Queued s t l tag .settle true ∧
      t.current p = (c, (s.current p).2) ∧ t.isUnsettled p = false ∧
      (∃ w ∈ t.tally.writes, w.id = p ∧ w.used = c ∧ w.reserved = (s.current p).2 ∧ w.settles = true) ∧
      (∀ id ∈ (s.chain p).drop 1,
        t.current id = ((s.current id).1 + c - (s.current p).1, (s.current id).2) ∧
        ∀ k, s.prin id = some k → ∃ k', t.prin id = some k' ∧
          k'.unsettledMembers = k.unsettledMembers - (if s.isUnsettled p then 1 else 0) ∧
          (k.kind = .pool → k.unsettled = true → k'.unsettledMembers = 0 → id ∈ t.tally.recounts)) ∧
      ∀ id, id ∉ s.chain p → t.current id = s.current id) ∧
  (∀ (s : State) (l : Link) (tag p c : Nat), s.takes l → s.isPerson p = false →
    ∃ t, Sys2Proof.Machine.exec (.settle l tag p c) s = .next t ∧ Spared s t ∧
      Answered s t l tag .settle .unknownPrincipal .none) ∧
  (∀ (s : State) (l : Link) (tag p c : Nat), s.takes l → s.isPerson p = true → maxTally < c →
    ∃ t, Sys2Proof.Machine.exec (.settle l tag p c) s = .next t ∧ Spared s t ∧
      Answered s t l tag .settle .range .none)

/-- R26, R28 to R31: the calculator over a chain whose lines are held, dirty and not overdue. A frozen
member, the first in chain order, gives FROZEN. Otherwise H is the smallest headroom (effective limit less
used + reserved, and 4,096 more where unsettled) and the limiting member the first that has it: n ≤ H is
GRANTED, else the whole granules of H are PARTIAL where allowed and above 0, else LIMIT with 0. Used of each
member rises by the granted count, and nothing else of any tally changes; the reply carries what was
found.
R31: an Admit whose writes have all ended is answered on its link with the status, the granted count, H
and the limiting member, and changes nothing more. -/
def Obligations.AdmissionFollowsHeadroomAndIsAnswered : Prop :=
  ((∀ (s : State) (id : Nat) (p : Principal), s.prin id = some p →
    s.headroom id =
      (if p.grace = .expired then p.soft.getD (p.hard.getD maxTally) else p.hard.getD maxTally) -
        ((s.current id).1 + (s.current id).2 + if s.isUnsettled id then 4096 else 0)) ∧
  (∀ (s : State) (o : TallyOp) (l : Link) (r p n q m : Nat) (part : Bool) (xs ys : List Nat),
    s.sup.op ≠ .halted → s.tallyOnly o → o.stage = .ready → o.writes = [] →
    o.job = .admitReq l r p n q part → s.plainLines o.ids → o.ids = xs ++ m :: ys →
    (∃ k, s.prin m = some k ∧ k.frozen = true) → (∀ x ∈ xs, ∀ k, s.prin x = some k → k.frozen = false) →
    ∃ t o', Sys2Proof.Machine.exec (.admissionCalculation o.num []) s = .next t ∧ t.tally.ops = [o'] ∧
      o'.stage = .finished ∧ o'.job = o.job ∧
      o'.outcome = some { status := .frozen, granted := 0, headroom := 0, limiting := m } ∧
      ∀ id, t.current id = s.current id) ∧
  (∀ (s : State) (o : TallyOp) (l : Link) (r p n q m : Nat) (part : Bool) (xs ys : List Nat),
    s.sup.op ≠ .halted → s.tallyOnly o → o.stage = .ready → o.writes = [] →
    o.job = .admitReq l r p n q part → s.plainLines o.ids → o.ids = xs ++ m :: ys →
    (∀ x ∈ o.ids, ∀ k, s.prin x = some k → k.frozen = false) →
    (∀ x ∈ xs, s.headroom m < s.headroom x) → (∀ y ∈ ys, s.headroom m ≤ s.headroom y) →
    ∃ t o' a, Sys2Proof.Machine.exec (.admissionCalculation o.num []) s = .next t ∧ t.tally.ops = [o'] ∧
      (o'.stage = .finished ∨ o'.writes ≠ []) ∧ o'.job = o.job ∧ o'.outcome = some a ∧
      a.headroom = s.headroom m ∧ a.limiting = m ∧
      (n ≤ s.headroom m → a.status = .granted ∧ a.granted = n) ∧
      (s.headroom m < n → part = true → q ≤ s.headroom m → 0 < q →
        a.status = .partialGrant ∧ a.granted = q * (s.headroom m / q)) ∧
      (s.headroom m < n → part = false ∨ s.headroom m < q → a.status = .limit ∧ a.granted = 0) ∧
      (∀ id ∈ o.ids, t.current id = ((s.current id).1 + a.granted, (s.current id).2)) ∧
      ∀ id, id ∉ o.ids → t.current id = s.current id)) ∧
  ((∀ (s : State) (o : TallyOp) (l : Link) (r p n q : Nat) (part : Bool) (a : Admission) (e : ReqEntry),
    s.sup.op ≠ .halted → s.tallyOnly o → o.stage = .finished → o.job = .admitReq l r p n q part →
    o.outcome = some a → s.awaits l r e →
    ∃ t, Sys2Proof.Machine.exec (.admitReply o.num) s = .next t ∧
      Replied s t l e a.status (.admitReq a.granted a.headroom a.limiting) ∧
      (∀ x ∈ (t.link l).queue, x.num ≠ r) ∧ t.tally = { s.tally with ops := [] } ∧ SupKept s t ∧
      t.rst = s.rst ∧ catSettles s.cat t.cat))

/-- R9, R12, R11, R18: reads and writes of tallies that end. A fill read leaves the line clean with the
stored tally; the oldest castout entry is stored, with the marker cleared, and leaves the buffer; a
Settle's in-place write stores its tally with marker and unsettled flag clear and DONE is answered.
R10: the marker writes end before the change. With them ended, each member of the chain whose line is
clean carries the marker in its stored record, and the granted count stands in every line. -/
def Obligations.TallyReadsWritesAndMarkersEnd : Prop :=
  ((∀ (s : State) (id : Nat) (x : Line) (p : Principal) (o : TallyOp), s.sup.op ≠ .halted → s.tallyOnly o →
    o.job.runsAtOnce = false → s.line id = some x → x.filling = true → x.held = some o.num →
    s.prin id = some p → (∀ w ∈ s.tally.writes, w.id ≠ id) →
    ∃ t, Sys2Proof.Machine.exec (.tallyFillReadEnd id []) s = .next t ∧
      t.line id = some { x with
        used := p.used, reserved := p.reserved, dUsed := 0, dReserved := 0, dirty := false,
        filling := false } ∧
      t.tally.principals = s.tally.principals) ∧
  (∀ (s : State) (c : Castout) (rest : List Castout) (p : Principal), s.sup.op ≠ .halted → s.tallyStill →
    s.tally.castout = c :: rest → s.prin c.id = some p →
    ∃ t, Sys2Proof.Machine.exec (.castoutDrain []) s = .next t ∧
      t.tally.castout = rest.filter (fun d => d.id != c.id) ∧
      t.prin c.id = some { p with used := c.used, reserved := c.reserved, marker := false } ∧
      ∀ id, id ≠ c.id → t.prin id = s.prin id ∧ t.current id = s.current id) ∧
  (∀ (s : State) (o : TallyOp) (w : PendingWrite) (p : Principal) (l : Link) (r person c : Nat)
    (e : ReqEntry), s.sup.op ≠ .halted → s.tallyOnly o → o.writes = [w.id] → o.job = .settle l r person c →
    s.tally.writes = [w] → w.op = o.num → s.unwritten w.id = false → w.settles = true → s.prin w.id = some p → s.awaits l r e →
    ∃ t, Sys2Proof.Machine.exec (.inPlaceWriteEnd w.id []) s = .next t ∧ t.tally.writes = [] ∧
      t.prin w.id =
        some { p with used := w.used, reserved := w.reserved, marker := false, unsettled := false } ∧
      (∀ id, id ≠ w.id → t.prin id = s.prin id) ∧ Replied s t l e .done .none ∧ t.tally.ops = [])) ∧
  (∀ (s : State) (o : TallyOp) (l : Link) (r p n q : Nat) (part : Bool) (a : Admission),
    s.sup.op ≠ .halted → s.tallyOnly o → o.stage = .marking → o.job = .admitReq l r p n q part →
    o.outcome = some a → 0 < a.granted → o.ids.Nodup → s.inPlaceMode = false →
    (∀ id ∈ o.ids, (s.prin id).isSome = true) →
    (∀ id ∈ o.ids, ∃ x, s.line id = some x ∧ x.filling = false ∧ x.drift + a.granted ≤ 4096) →
    ∃ t, Sys2Proof.Machine.exec (.markerWriteEnd o.num []) s = .next t ∧
      t.tally.ops = [{ o with stage := .finished, writes := [], noted := [] }] ∧
      (∀ id ∈ o.ids, t.current id = ((s.current id).1 + a.granted, (s.current id).2)) ∧
      (∀ id ∈ o.ids, ∀ x, s.line id = some x → x.dirty = false →
        ∃ k, t.prin id = some k ∧ k.marker = true) ∧
      ∀ id, id ∉ o.ids → t.current id = s.current id)

/-- R16: the head posting applied over dirty lines: used of each chain member drops by the smaller of the
blocks and the person's used, no lower than 0; reserved stays; the entry leaves the queue; where the blocks
exceed the person's used, TALLY_UNDERFLOW is counted. -/
def Obligations.PostingLowersUsed : Prop :=
  ∀ (s : State) (o : TallyOp) (x : Posting), s.sup.op ≠ .halted → s.patrolStill →
    s.tally.ops = [o] → s.tally.postings = [x] → s.tally.modeReply = [] → s.tally.flushing = false →
    o.stage = .ready → o.job = .posting x.principal x.blocks x.link → s.plainLines o.ids →
    x.principal ∈ o.ids →
    ∃ t, Sys2Proof.Machine.exec .postingApply s = .next t ∧ t.tally.postings = [] ∧
      (∀ id ∈ o.ids, t.current id =
        ((s.current id).1 - min x.blocks (s.current x.principal).1, (s.current id).2)) ∧
      (∀ id, id ∉ o.ids → t.current id = s.current id) ∧
      ((s.current x.principal).1 < x.blocks → t.sup.raised[1]? = (s.sup.raised[1]?).map countUp) ∧
      (x.blocks ≤ (s.current x.principal).1 → t.sup.raised[1]? = s.sup.raised[1]?)

/-- R33, R34, R96: a conversion over dirty lines drops reserved of each chain member by the charge, no lower
than 0, and moves used by the net charge; the step becomes DONE and its positive charge leaves the
remaining reservation. A reservation release drops reserved alone. -/
def Obligations.ReservationsAreConvertedAndReleased : Prop :=
  (∀ (s : State) (o : TallyOp) (rec i person c j : Nat) (d : Int) (l : Link) (r : Restore)
    (x y : Step), s.sup.op ≠ .halted → s.tallyOnly o → o.stage = .ready →
    o.job = .convert rec i person c d l → s.plainLines o.ids → person ∈ o.ids →
    (∀ id ∈ o.ids, (s.current id).1 + d.toNat ≤ maxTally) →
    s.restore rec = some r → r.state = .running → r.pausing = false → r.steps[i]? = some x →
    x.state = .issued ∨ x.state = .putting → r.steps[j]? = some y → j ≠ i → y.state = .waiting →
    ∃ t, Sys2Proof.Machine.exec (.conversion o.num []) s = .next t ∧
      (∀ id ∈ o.ids, t.current id =
        (if 0 < d then (s.current id).1 + d.toNat
          else (s.current id).1 - min (-d).toNat (s.current person).1,
         (s.current id).2 - c)) ∧
      (∀ id, id ∉ o.ids → t.current id = s.current id) ∧
      t.restore rec = some { r with
        steps := r.steps.set i { x with state := .done }, remaining := r.remaining - x.charge.toNat } ∧
      ∀ k, k ≠ rec → t.restore k = s.restore k) ∧
  (∀ (s : State) (o : TallyOp) (person b : Nat), s.sup.op ≠ .halted → s.tallyOnly o → o.stage = .ready →
    o.job = .unreserve person b → s.plainLines o.ids →
    ∃ t, Sys2Proof.Machine.exec (.reservationRelease o.num) s = .next t ∧
      (∀ id ∈ o.ids, t.current id = ((s.current id).1, (s.current id).2 - b)) ∧
      (∀ id, id ∉ o.ids → t.current id = s.current id) ∧ t.rst = s.rst)

/-- R19: the end of a Pool Recount sets the pool's used and reserved to the sums of its members' current
values, its member count to their number and its unsettled member count to the unsettled ones; the flag is
cleared where that is 0, and the marker too. Where it rests on the model's reading, log entries 12 and 21 say
so. -/
def Obligations.RecountSetsThePoolToItsMembers : Prop :=
  (∀ (s : State) (pool : Nat) (p : Principal), s.sup.op ≠ .halted → s.tallyStill →
    Tbl.wf s.tally.principals = true → pool ∈ s.tally.recounts → s.prin pool = some p → p.kind = .pool →
    ((s.membersOf pool).map fun m => (s.current m.1).1).sum ≤ maxTally →
    ((s.membersOf pool).map fun m => (s.current m.1).2).sum ≤ maxTally →
    ∃ t p', Sys2Proof.Machine.exec (.poolRecountEnd pool []) s = .next t ∧ t.prin pool = some p' ∧
      p'.used = ((s.membersOf pool).map fun m => (s.current m.1).1).sum ∧
      p'.reserved = ((s.membersOf pool).map fun m => (s.current m.1).2).sum ∧
      p'.members = (s.membersOf pool).length ∧
      p'.unsettledMembers = ((s.membersOf pool).filter fun m => s.isUnsettled m.1).length ∧
      (p'.unsettled = true ↔ 0 < p'.unsettledMembers) ∧ p'.marker = false ∧
      t.current pool = (p'.used, p'.reserved) ∧ t.tally.recounts = s.tally.recounts.filter (· ≠ pool)) ∧
  (∀ (s : State) (pool : Nat), s.sup.op ≠ .halted → pool ∉ s.tally.recounts →
    Sys2Proof.Machine.exec (.poolRecountEnd pool []) s = .next { s with sent := [] })

/-- R4 with Table 1-2: a Principal Create that passes its checks writes the record with the given fields and
every count and flag clear, raises the member count of each named pool by one, and is answered DONE. The
first check that fails gives the reply, and the table is unchanged. -/
def Obligations.PrincipalCreateWritesTheRecord : Prop :=
  (∀ (s : State) (l : Link) (tag id cls : Nat) (kind : PrincipalKind) (course dept soft hard : Option Nat),
    s.takes l → s.tallyStill → s.role l = .console ∨ (cls = 0 ∧ soft = none ∧ hard = none) → id ≠ 0 →
    cls ≤ 63 → (∀ n, soft = some n → 1 ≤ n ∧ n ≤ maxTally) → (∀ n, hard = some n → 1 ≤ n ∧ n ≤ maxTally) →
    (∀ a b, soft = some a → hard = some b → a ≤ b) → (kind = .pool → course = none ∧ dept = none) →
    s.prin id = none →
    (∀ q, course = some q ∨ dept = some q → ∃ k, s.prin q = some k ∧ k.kind = .pool) →
    (course = none ∨ course ≠ dept) → s.tally.principals.length < 262144 →
    ∃ t, Sys2Proof.Machine.exec (.principalCreate l tag id kind cls course dept soft hard) s = .next t ∧
      Answered s t l tag .principalCreate .done .none ∧
      t.prin id = some
        { kind := kind, cls := cls, course := course, dept := dept, used := 0, reserved := 0, soft := soft,
          hard := hard, grace := .within, frozen := false, unsettled := false, marker := false,
          active := 0, members := 0, unsettledMembers := 0 } ∧
      (∀ q k, course = some q ∨ dept = some q → s.prin q = some k →
        t.prin q = some { k with members := k.members + 1 }) ∧
      (∀ k, k ≠ id → course ≠ some k → dept ≠ some k → t.prin k = s.prin k) ∧
      t.tally.cache = s.tally.cache) ∧
  ∀ (s : State) (l : Link) (tag id cls : Nat) (kind : PrincipalKind) (course dept soft hard : Option Nat),
    s.takes l → s.role l = .console ∨ (cls = 0 ∧ soft = none ∧ hard = none) →
    ∃ t, Sys2Proof.Machine.exec (.principalCreate l tag id kind cls course dept soft hard) s = .next t ∧
      (¬ createInRange id cls soft hard → Answered s t l tag .principalCreate .range .none ∧ Spared s t) ∧
      (createInRange id cls soft hard → kind = .pool → course.isSome = true ∨ dept.isSome = true →
        Answered s t l tag .principalCreate .malformed .none ∧ Spared s t) ∧
      (createInRange id cls soft hard → (kind = .pool → course = none ∧ dept = none) →
        (s.prin id).isSome = true → Answered s t l tag .principalCreate .inUse .none ∧ Spared s t) ∧
      (createInRange id cls soft hard → (kind = .pool → course = none ∧ dept = none) → s.prin id = none →
        ¬ s.parentsArePools course dept →
        Answered s t l tag .principalCreate .unknownPrincipal .none ∧ Spared s t) ∧
      (createInRange id cls soft hard → (kind = .pool → course = none ∧ dept = none) → s.prin id = none →
        s.parentsArePools course dept → course.isSome = true → course = dept →
        Answered s t l tag .principalCreate .range .none ∧ Spared s t) ∧
      (createInRange id cls soft hard → (kind = .pool → course = none ∧ dept = none) → s.prin id = none →
        s.parentsArePools course dept → course = none ∨ course ≠ dept →
        262144 ≤ s.tally.principals.length →
        Answered s t l tag .principalCreate .noRoom .none ∧ Spared s t)

/-- R8: a Principal Delete of a record that nothing keeps frees it, with its line and castout entry, lowers
the member count of its parents and is answered DONE; what keeps it gives IN_USE, and a missing record
UNKNOWN_PRINCIPAL, with no change. -/
def Obligations.PrincipalDeleteFreesTheRecord : Prop :=
  (∀ (s : State) (l : Link) (tag id : Nat) (p : Principal), s.takes l → s.tallyStill →
    s.prin id = some p → s.lineHeld id = false → s.current id = (0, 0) → p.active = 0 →
    s.isUnsettled id = false → (p.kind = .pool → p.members = 0) → id ∉ s.tally.recounts →
    p.course ≠ some id → p.dept ≠ some id → (p.course = none ∨ p.course ≠ p.dept) →
    ∃ t, Sys2Proof.Machine.exec (.principalDelete l tag id) s = .next t ∧
      Answered s t l tag .principalDelete .done .none ∧ t.prin id = none ∧ t.line id = none ∧
      t.castoutOf id = none ∧
      (∀ q k, p.course = some q ∨ p.dept = some q → s.prin q = some k →
        t.prin q = some { k with members := k.members - 1 }) ∧
      ∀ k, k ≠ id → p.course ≠ some k → p.dept ≠ some k → t.prin k = s.prin k) ∧
  (∀ (s : State) (l : Link) (tag id : Nat) (p : Principal), s.takes l → s.prin id = some p →
    (s.current id).1 ≠ 0 ∨ (s.current id).2 ≠ 0 ∨ p.active ≠ 0 ∨ s.isUnsettled id = true ∨
      (∃ x ∈ s.tally.postings, x.principal = id) ∨ (p.kind = .pool ∧ p.members ≠ 0) ∨
      id ∈ s.tally.recounts →
    ∃ t, Sys2Proof.Machine.exec (.principalDelete l tag id) s = .next t ∧
      Answered s t l tag .principalDelete .inUse .none ∧ Spared s t) ∧
  (∀ (s : State) (l : Link) (tag id : Nat), s.takes l → s.prin id = none →
    ∃ t, Sys2Proof.Machine.exec (.principalDelete l tag id) s = .next t ∧
      Answered s t l tag .principalDelete .unknownPrincipal .none ∧ Spared s t)

/-- R7, R188: Freeze from a CONSOLE link writes the frozen flag and is answered DONE; on a link with an open
settings hold it is staged and answered ACCEPTED, or HOLD_FULL at 128 changes; for a missing record it is
refused UNKNOWN_PRINCIPAL. -/
def Obligations.FreezeSetsTheFlag : Prop :=
  (∀ (s : State) (l : Link) (tag id : Nat) (b : Bool) (p : Principal), s.takes l → s.role l = .console →
    s.tallyStill → s.prin id = some p → (s.link l).hold = none →
    ∃ t, Sys2Proof.Machine.exec (.freeze l tag id b) s = .next t ∧ Answered s t l tag .freeze .done .none ∧
      t.prin id = some { p with frozen := b } ∧ ∀ k, k ≠ id → t.prin k = s.prin k) ∧
  (∀ (s : State) (l : Link) (tag id : Nat) (b : Bool) (held : List Staged), s.takes l →
    s.role l = .console → s.tallyStill → (s.prin id).isSome = true → (s.link l).hold = some held →
    held.length < 128 →
    ∃ t, Sys2Proof.Machine.exec (.freeze l tag id b) s = .next t ∧
      Answered s t l tag .freeze .accepted .none ∧
      (t.link l).hold = some (held ++ [.freeze id b]) ∧ t.tally = s.tally) ∧
  (∀ (s : State) (l : Link) (tag id : Nat) (b : Bool) (held : List Staged), s.takes l →
    s.role l = .console → (s.prin id).isSome = true → (s.link l).hold = some held → 128 ≤ held.length →
    ∃ t, Sys2Proof.Machine.exec (.freeze l tag id b) s = .next t ∧
      Answered s t l tag .freeze .holdFull .none ∧ Spared s t) ∧
  (∀ (s : State) (l : Link) (tag id : Nat) (b : Bool), s.takes l → s.role l = .console → s.prin id = none →
    ∃ t, Sys2Proof.Machine.exec (.freeze l tag id b) s = .next t ∧
      Answered s t l tag .freeze .unknownPrincipal .none ∧ Spared s t)

/-- R5, R41, R6: an edit of class and limits writes them, and evaluates grace where the soft limit changes: at or
above the load it leaves the principal WITHIN, below it a principal WITHIN enters GRACE with a full deadline, or
EXPIRED where the grace length is 0, and another keeps its state; an edit that leaves the soft limit as it is
leaves the grace state; a move
from one course pool to another takes the person's tally from the one and adds it to the other, with the
member counts. A missing record is refused UNKNOWN_PRINCIPAL. -/
def Obligations.PrincipalEditChangesLimitsAndParents : Prop :=
  (∀ (s : State) (l : Link) (tag id : Nat) (c : EditChanges) (p : Principal), s.takes l →
    s.role l = .console → s.tallyStill → (s.link l).hold = none → s.prin id = some p →
    s.lineHeld id = false → s.overdue id = false → c.course = .keep → c.dept = .keep →
    (∀ k, c.cls = some k → k ≤ 63) → (∀ n, c.soft = .put n → 1 ≤ n ∧ n ≤ maxTally) →
    (∀ n, c.hard = .put n → 1 ≤ n ∧ n ≤ maxTally) →
    (∀ a b, newField c.soft p.soft = some a → newField c.hard p.hard = some b → a ≤ b) →
    ∃ t p', Sys2Proof.Machine.exec (.principalEdit l tag id c) s = .next t ∧
      Answered s t l tag .principalEdit .done .none ∧ t.prin id = some p' ∧ p'.cls = c.cls.getD p.cls ∧
      p'.soft = newField c.soft p.soft ∧ p'.hard = newField c.hard p.hard ∧ p'.course = p.course ∧
      p'.dept = p.dept ∧ p'.used = p.used ∧ p'.reserved = p.reserved ∧ p'.frozen = p.frozen ∧
      (newField c.soft p.soft = p.soft → p'.grace = p.grace) ∧
      (c.soft = .remove → p.soft ≠ none → p'.grace = .within) ∧
      (∀ n, c.soft = .put n → p.soft ≠ some n →
        ((s.current id).1 + (s.current id).2 ≤ n → p'.grace = .within) ∧
        (n < (s.current id).1 + (s.current id).2 →
          (p.grace ≠ .within → p'.grace = p.grace) ∧
          (p.grace = .within → (s.classOf p'.cls).grace = 0 → p'.grace = .expired) ∧
          (p.grace = .within → (s.classOf p'.cls).grace ≠ 0 → s.tally.grace.length < 8192 →
            s.sup.clock + 60 * (s.classOf p'.cls).grace ≤ maxClock →
            p'.grace = .grace (s.sup.clock + 60 * (s.classOf p'.cls).grace) true))) ∧
      t.current id = s.current id) ∧
  (∀ (s : State) (l : Link) (tag id a b : Nat) (p ka kb : Principal), s.takes l → s.tallyStill →
    s.prin id = some p → p.kind = .person → p.course = some a → p.dept ≠ some b →
    s.prin a = some ka → s.prin b = some kb → kb.kind = .pool → s.plainLines [id, a, b] →
    (∀ k ∈ [id, a, b], s.lineHeld k = false ∧ k ∉ s.tally.recounts) → s.tally.castout = [] →
    s.isUnsettled id = false → (∀ x y, p.soft = some x → p.hard = some y → x ≤ y) →
    (s.current id).1 ≤ (s.current a).1 → (s.current id).2 ≤ (s.current a).2 →
    (s.current b).1 + (s.current id).1 ≤ maxTally → (s.current b).2 + (s.current id).2 ≤ maxTally →
    ∃ t p' ka' kb', Sys2Proof.Machine.exec
        (.principalEdit l tag id { cls := none, soft := .keep, hard := .keep, course := .put b, dept := .keep })
        s = .next t ∧
      t.prin id = some p' ∧ p'.course = some b ∧ p'.dept = p.dept ∧
      t.prin a = some ka' ∧ ka'.members = ka.members - 1 ∧
      t.prin b = some kb' ∧ kb'.members = kb.members + 1 ∧ t.current id = s.current id ∧
      t.current a = ((s.current a).1 - (s.current id).1, (s.current a).2 - (s.current id).2) ∧
      t.current b = ((s.current b).1 + (s.current id).1, (s.current b).2 + (s.current id).2)) ∧
  (∀ (s : State) (l : Link) (tag id : Nat) (c : EditChanges), s.takes l → s.role l = .console →
    s.prin id = none →
    ∃ t, Sys2Proof.Machine.exec (.principalEdit l tag id c) s = .next t ∧
      Answered s t l tag .principalEdit .unknownPrincipal .none ∧ Spared s t)

/-- R38, R42: the head of the Grace Queue, due and with its line not held, expires: its entry is removed, its
principal is EXPIRED and GRACE_EXPIRED is counted. A head not yet due, or whose line is held, stays; in HOLDUP
every expiry is deferred. Where it rests on the model's reading, log entry 12 says so. -/
def Obligations.GraceHeadExpires : Prop :=
  (∀ (s : State) (e : GraceEntry) (rest : List GraceEntry) (p : Principal) (b : Bool),
    s.sup.op ≠ .halted → s.sup.op ≠ .holdup → s.calm → s.tally.grace = e :: rest →
    e.deadline ≤ s.sup.clock → s.lineHeld e.id = false → s.prin e.id = some p →
    p.grace = .grace e.deadline b →
    ∃ t, Sys2Proof.Machine.exec .graceExpiry s = .next t ∧
      t.tally.grace = rest.filter (fun x => x.id != e.id) ∧
      t.prin e.id = some { p with grace := .expired } ∧ (∀ k, k ≠ e.id → t.prin k = s.prin k) ∧
      t.sup.raised[0]? = (s.sup.raised[0]?).map countUp) ∧
  (∀ (s : State) (e : GraceEntry) (rest : List GraceEntry), s.sup.op ≠ .halted → s.tallyStill →
    s.tally.grace = e :: rest → s.sup.clock < e.deadline ∨ s.lineHeld e.id = true →
    ∃ t, Sys2Proof.Machine.exec .graceExpiry s = .next t ∧ t.tally = s.tally) ∧
  (∀ s : State, s.sup.op = .holdup →
    Sys2Proof.Machine.exec .graceExpiry s = .next { s with sent := [] })

/-! ### Volumes, extents and snapshots -/

/-- R53 to R57: a Commit that passes its checks is answered DONE with the birth generation of the live version
and the verdict. An extent without versions takes its first, born in the current generation (FIRST). A live
version of that generation is rewritten in place: KEPT at the same location, else NOW, or LATER with a
Reclaim Table entry where references are out. One born earlier dies at the current generation behind the new
one: KEPT where a snapshot holds it, else NOW or LATER. R57: where a fifth version would stay, one dead version
that no pinned snapshot holds, OFFSITE_ONLY or without references, is thinned: of those OFFSITE_ONLY, else of
those shipped, else of the rest, the one of lowest birth. Its location goes with verdict NOW where it is the
superseded version, and otherwise with a RECLAIM at once; the thinned counts of the snapshots that held it rise.
With no such version the Commit is refused VERSION_PINNED. -/
def Obligations.CommitWritesTheLiveVersion : Prop :=
  (∀ (s : State) (l : Link) (tag vol ext owner loc occ : Nat) (codes : Option (List Code)) (v : Volume),
    s.commitReady l vol ext owner loc occ codes v → (s.extent vol ext).versions = [] →
    ∃ t, Sys2Proof.Machine.exec (.commit l tag vol ext owner loc occ codes []) s = .next t ∧
      Answered s t l tag .commit .done (.commit v.gen .first) ∧
      t.extent vol ext =
        { owner := owner, lock := none, versions := [newVersion s.sup.clock v.gen loc occ (codes.getD [])] } ∧
      t.tally = s.tally ∧ t.volume vol = some v) ∧
  (∀ (s : State) (l : Link) (tag vol ext owner loc occ old refs : Nat) (codes : Option (List Code))
    (v : Volume) (lv : Version),
    s.commitReady l vol ext owner loc occ codes v → (s.extent vol ext).versions = [lv] → lv.death = none →
    lv.birth = v.gen → lv.res = .here old refs →
    ∃ t verdict, Sys2Proof.Machine.exec (.commit l tag vol ext owner loc occ codes []) s = .next t ∧
      Answered s t l tag .commit .done (.commit v.gen verdict) ∧
      t.extent vol ext = { owner := owner, lock := none, versions :=
        [{ newVersion s.sup.clock v.gen loc occ (codes.getD []) with
            res := .here loc (if old = loc then refs else 0) }] } ∧
      (old = loc → verdict = .kept) ∧ (old ≠ loc → refs = 0 → verdict = .now) ∧
      (old ≠ loc → 0 < refs → verdict = .later ∧
        ({ vol := vol, ext := ext, loc := old, refs := refs } : Reclaim) ∈ t.cat.reclaims)) ∧
  (∀ (s : State) (l : Link) (tag vol ext owner loc occ old refs : Nat) (codes : Option (List Code))
    (v : Volume) (lv : Version),
    s.commitReady l vol ext owner loc occ codes v → (s.extent vol ext).versions = [lv] → lv.death = none →
    lv.birth < v.gen → lv.res = .here old refs → old ≠ loc →
    ∃ t verdict, Sys2Proof.Machine.exec (.commit l tag vol ext owner loc occ codes []) s = .next t ∧
      Answered s t l tag .commit .done (.commit v.gen verdict) ∧
      ((∃ p ∈ s.snapsOf vol, lv.birth ≤ p.gen ∧ p.gen < v.gen) → verdict = .kept ∧
        t.extent vol ext = { owner := owner, lock := none, versions :=
          [newVersion s.sup.clock v.gen loc occ (codes.getD []), { lv with death := some v.gen }] }) ∧
      ((∀ p ∈ s.snapsOf vol, lv.birth ≤ p.gen → v.gen ≤ p.gen) →
        t.extent vol ext = { owner := owner, lock := none, versions :=
          [newVersion s.sup.clock v.gen loc occ (codes.getD [])] } ∧
        (refs = 0 → verdict = .now) ∧
        (0 < refs → verdict = .later ∧
          ({ vol := vol, ext := ext, loc := old, refs := refs } : Reclaim) ∈ t.cat.reclaims))) ∧
  (∀ (s : State) (l : Link) (tag vol ext owner loc occ old refs : Nat) (codes : Option (List Code))
    (v : Volume) (lv : Version) (dead rest : List Version),
    s.commitReady l vol ext owner loc occ codes v → s.snapshotsKeyed →
    (s.extent vol ext).versions = lv :: rest → rest.length = 3 → lv.death = none → lv.birth < v.gen →
    lv.res = .here old refs → (∀ y ∈ lv :: rest, y.loc ≠ some loc) → (∀ y ∈ rest, y.death ≠ none) →
    dead = { lv with death := some v.gen } :: rest → dead.Pairwise (fun a b => b.birth < a.birth) →
    (∀ y ∈ dead, ∃ p ∈ s.snapsOf vol, y.heldAt p.gen = true) →
    ∃ t, Sys2Proof.Machine.exec (.commit l tag vol ext owner loc occ codes []) s = .next t ∧
      (∀ x, s.thinnable vol dead x →
        (∀ y, s.thinnable vol dead y → x.thinRank < y.thinRank ∨ (x.thinRank = y.thinRank ∧ x.birth ≤ y.birth)) →
        (t.extent vol ext).versions =
          newVersion s.sup.clock v.gen loc occ (codes.getD []) :: dead.filter (fun y => decide (y ≠ x)) ∧
        (x.birth = lv.birth → Answered s t l tag .commit .done (.commit v.gen .now)) ∧
        (x.birth ≠ lv.birth → Answered s t l tag .commit .done (.commit v.gen .kept) ∧
          ∀ k, x.res = .here k 0 → ∃ tg, TxFrame.directive tg (.reclaim k) ∈ (t.link l).tx) ∧
        ∀ p ∈ s.snapsOf vol, x.heldAt p.gen = true → p.thinned < maxGeneration →
          ∃ q, t.snapshot vol p.gen = some q ∧ q.thinned = p.thinned + 1) ∧
      ((∀ x, ¬ s.thinnable vol dead x) → Answered s t l tag .commit .versionPinned .none ∧ Spared s t))

/-- R53 with Table 3-4: a Commit refused by a check changes nothing, and the first check that fails gives the reply:
an owner or occupied count out of range is RANGE, codes absent while blocks are occupied or present while none is
MALFORMED, a volume above 31 or DETACHED UNKNOWN_VOLUME, a link that does not own the volume NOT_PERMITTED, an extent
at or above the count RANGE, a locked extent EXTENT_LOCKED, a damaged record DAMAGED. A location that another version
of the extent carries (the live one too, unless it is to be rewritten in place), or a Reclaim Table entry of the
extent, is IN_USE; a superseded location with references out finds a full Reclaim Table BUSY. (VERSION_PINNED stands
in `CommitWritesTheLiveVersion`.) -/
def Obligations.CommitIsRefusedWithoutChange : Prop :=
  (∀ (s : State) (l : Link) (tag vol ext owner loc occ : Nat) (codes : Option (List Code)), s.takes l →
    owner < 1 ∨ 16777215 < owner ∨ 1024 < occ →
    ∃ t, Sys2Proof.Machine.exec (.commit l tag vol ext owner loc occ codes []) s = .next t ∧
      Answered s t l tag .commit .range .none ∧ Spared s t) ∧
  (∀ (s : State) (l : Link) (tag vol ext owner loc occ : Nat) (codes : Option (List Code)), s.takes l →
    1 ≤ owner → owner ≤ 16777215 → occ ≤ 1024 → (codes = none ∧ 0 < occ) ∨ (codes ≠ none ∧ occ = 0) →
    ∃ t, Sys2Proof.Machine.exec (.commit l tag vol ext owner loc occ codes []) s = .next t ∧
      Answered s t l tag .commit .malformed .none ∧ Spared s t) ∧
  (∀ (s : State) (l : Link) (tag vol ext owner loc occ : Nat) (codes : Option (List Code)), s.takes l →
    1 ≤ owner → owner ≤ 16777215 → occ ≤ 1024 → codesMatch codes occ → 31 < vol ∨ s.volume vol = none →
    ∃ t, Sys2Proof.Machine.exec (.commit l tag vol ext owner loc occ codes []) s = .next t ∧
      Answered s t l tag .commit .unknownVolume .none ∧ Spared s t) ∧
  (∀ (s : State) (l : Link) (tag vol ext owner loc occ : Nat) (codes : Option (List Code)) (v : Volume),
    s.takes l → 1 ≤ owner → owner ≤ 16777215 → occ ≤ 1024 → codesMatch codes occ → s.volume vol = some v →
    ∃ t, Sys2Proof.Machine.exec (.commit l tag vol ext owner loc occ codes []) s = .next t ∧
      (l ≠ v.owner → Answered s t l tag .commit .notPermitted .none ∧ Spared s t) ∧
      (l = v.owner → v.count ≤ ext → Answered s t l tag .commit .range .none ∧ Spared s t) ∧
      (l = v.owner → ext < v.count → (s.extent vol ext).lock.isSome = true →
        Answered s t l tag .commit .extentLocked .none ∧ Spared s t) ∧
      (l = v.owner → ext < v.count → (s.extent vol ext).lock = none → s.damaged vol ext = true →
        Answered s t l tag .commit .damaged .none ∧ Spared s t) ∧
      (l = v.owner → ext < v.count → (s.extent vol ext).lock = none → s.damaged vol ext = false →
        (∃ x ∈ (s.extent vol ext).versions, x.loc = some loc ∧
          (x.death ≠ none ∨ ∀ y ∈ (s.extent vol ext).versions, y.death = none → y.birth ≠ v.gen)) ∨
          (∃ r ∈ s.cat.reclaims, r.vol = vol ∧ r.ext = ext ∧ r.loc = loc) →
        Answered s t l tag .commit .inUse .none ∧ Spared s t) ∧
      ∀ lv rest old refs, l = v.owner → ext < v.count → (s.extent vol ext).lock = none →
        s.damaged vol ext = false → (s.extent vol ext).versions = lv :: rest → (∀ y ∈ rest, y.loc ≠ some loc) →
        (∀ r ∈ s.cat.reclaims, r.vol = vol → r.ext = ext → r.loc ≠ loc) → lv.death = none →
        lv.res = .here old refs → 0 < refs → old ≠ loc →
        lv.birth = v.gen ∨
          (lv.birth < v.gen ∧ ∀ p ∈ s.snapsOf vol, lv.birth ≤ p.gen → v.gen ≤ p.gen) →
        4096 ≤ s.cat.reclaims.length →
        Answered s t l tag .commit .busy .none ∧ Spared s t)

/-- R45 to R47: a Volume Attach in STANDBY that passes its checks has its span placed at once, at a multiple of
its size and clear of every other span, and is answered when the records are written: the volume is then
ATTACHED at generation 1 with empty extents, and DONE is sent. In ACTIVE it is refused WRONG_STATE. -/
def Obligations.AttachPlacesASpanAndWritesTheVolume : Prop :=
  (∀ (s : State) (l k : Link) (tag vol count hk nk base : Nat) (rec hc nc : Bool), s.takes l →
    s.role l = .console → s.tallyStill → s.sup.op = .standby → vol ≤ 31 → 1 ≤ count → count ≤ 1048576 →
    hk ≤ 48 → nk ≤ 30 → s.role k = .fileserver → s.volume vol = none →
    (∀ a ∈ s.cat.attaching, a.vol ≠ vol) → s.placeSpan count = some base →
    ∃ t a, Sys2Proof.Machine.exec (.volumeAttach l tag vol k.val count rec hk nk hc nc []) s = .next t ∧
      Queued s t l tag .volumeAttach true ∧ t.cat.attaching = s.cat.attaching ++ [a] ∧
      t.volume vol = none ∧ a.vol = vol ∧ a.owner = k ∧ a.count = count ∧ a.base = base ∧
      a.size = spanSize count ∧ count * 512 ≤ a.size ∧ 1048576 ≤ a.size ∧ base % a.size = 0 ∧
      base + a.size ≤ 17179869184 ∧ ∀ sp ∈ s.spans, base + a.size ≤ sp.1 ∨ sp.1 + sp.2 ≤ base) ∧
  (∀ (s : State) (l : Link) (tag vol owner count hk nk : Nat) (rec hc nc : Bool), s.takes l →
    s.role l = .console → s.sup.op = .active →
    ∃ t, Sys2Proof.Machine.exec (.volumeAttach l tag vol owner count rec hk nk hc nc []) s = .next t ∧
      Answered s t l tag .volumeAttach .wrongState .none ∧ Spared s t) ∧
  (∀ (s : State) (a : Attach) (e : ReqEntry), s.sup.op ≠ .halted → s.calm → s.cat.attaching = [a] →
    a.vol < 32 → s.awaits a.link a.req e →
    ∃ t, Sys2Proof.Machine.exec (.attachComplete a.vol []) s = .next t ∧ t.cat.attaching = [] ∧
      t.volume a.vol = some
        { owner := a.owner, count := a.count, recovery := a.recovery, gen := 1, mark := 0,
          hourlyKeep := a.hourlyKeep, nightlyKeep := a.nightlyKeep, hourlyCuts := a.hourlyCuts,
          nightlyCut := a.nightlyCut, base := a.base, size := a.size, shipCursor := 0,
          patrolCursor := 0, damage := [], refTotal := 0 } ∧
      (∀ ext, ext < 1048576 → t.extent a.vol ext = { owner := 0, lock := none, versions := [] }) ∧
      (∀ k, k ≠ a.vol → t.volume k = s.volume k) ∧ Replied s t a.link e .done .none)

/-- R48, R179: an accepted Volume Detach takes the volume's snapshots, Reclaim Table entries, cut dues and
extent records with it, and marks each link's cursor on its Extent Table; a pinned snapshot refuses it PINNED,
references, an active restore or a running sweep BUSY, a state other than STANDBY WRONG_STATE, and nothing then
changes. -/
def Obligations.DetachRemovesTheVolume : Prop :=
  (∀ (s : State) (l : Link) (tag vol : Nat) (v : Volume), s.takes l → s.role l = .console → s.calm →
    s.sup.op = .standby → s.volume vol = some v → (∀ p ∈ s.snapsOf vol, p.pins = 0 ∧ p.leaving = false) →
    v.refTotal = 0 → s.restoring vol = false →
    ∃ t, Sys2Proof.Machine.exec (.volumeDetach l tag vol []) s = .next t ∧
      Answered s t l tag .volumeDetach .done .none ∧ t.volume vol = none ∧ t.snapsOf vol = [] ∧
      (∀ ext, ext < 1048576 → t.extent vol ext = { owner := 0, lock := none, versions := [] }) ∧
      (∀ r ∈ t.cat.reclaims, r.vol ≠ vol) ∧ t.duesOf vol = { hourly := none, nightly := none } ∧
      (∀ e ∈ t.off.queue, e.vol ≠ vol) ∧ (∀ p ∈ t.off.plan, p.vol ≠ vol) ∧
      (∀ (j : Link) (c : Cursor), (s.link j).cursor = some c → (t.link j).cursor =
        some (if c.table = .extents vol then { c with detached := true } else c)) ∧
      ∀ k, k ≠ vol → t.volume k = s.volume k ∧ t.snapsOf k = s.snapsOf k) ∧
  (∀ (s : State) (l : Link) (tag vol : Nat) (v : Volume), s.takes l → s.role l = .console →
    s.sup.op = .standby → s.volume vol = some v →
    ∃ t, Sys2Proof.Machine.exec (.volumeDetach l tag vol []) s = .next t ∧
      ((∃ p ∈ s.snapsOf vol, 0 < p.pins) →
        Answered s t l tag .volumeDetach .pinned .none ∧ Spared s t) ∧
      ((∀ p ∈ s.snapsOf vol, p.pins = 0) →
        s.restoring vol = true ∨ 0 < v.refTotal ∨ (∃ p ∈ s.snapsOf vol, p.leaving = true) →
        Answered s t l tag .volumeDetach .busy .none ∧ Spared s t)) ∧
  (∀ (s : State) (l : Link) (tag vol : Nat), s.takes l → s.role l = .console → s.sup.op = .active →
    ∃ t, Sys2Proof.Machine.exec (.volumeDetach l tag vol []) s = .next t ∧
      Answered s t l tag .volumeDetach .wrongState .none ∧ Spared s t)

/-- R70, R71: an accepted Cut writes a record of the current generation g, ACTIVE at the clock, raises the
generation to g + 1 and is answered DONE with g; an HOURLY one closes the hourly due, and with no ACTIVE
snapshot pinned retention leaves no more than the hourly keep. Without a kind, on a DETACHED volume or from
a foreign link it is refused, at generation 2^32 − 1 RANGE, and with the catalogue full CATALOGUE_FULL. R75, R122:
a NIGHTLY one that answers an outstanding nightly due closes it, and while the window is open its volume joins
the night's plan where its scope has not been shed: SHIPPING, with both ship pins taken where the offsite mark's
snapshot can be pinned; a NIGHTLY one that answers none leaves the plan as it is. -/
def Obligations.CutWritesTheSnapshot : Prop :=
  (∀ (s : State) (l : Link) (tag vol : Nat) (v : Volume), s.takes l → s.volume vol = some v → s.actsOn l v →
    v.gen < maxGeneration → (s.snapsOf vol).length < 64 → s.cat.snapshots.length < 1024 →
    ∃ t, Sys2Proof.Machine.exec (.cut l tag vol (some .manual) []) s = .next t ∧
      Answered s t l tag .cut .done (.cut v.gen) ∧
      t.snapshot vol v.gen = some
        { vol := vol, gen := v.gen, kind := .manual, cutTime := s.sup.clock, state := .active,
          held := false, restorePins := 0, shipPins := 0, thinned := 0 } ∧
      t.volume vol = some { v with gen := v.gen + 1 } ∧
      ∀ gen, gen ≠ v.gen → t.snapshot vol gen = s.snapshot vol gen) ∧
  (∀ (s : State) (l : Link) (tag vol : Nat) (v : Volume), s.takes l → s.volume vol = some v → s.actsOn l v →
    v.gen < maxGeneration → (s.snapsOf vol).length < 64 → s.cat.snapshots.length < 1024 →
    s.snapshotsKeyed → (∀ p ∈ s.snapsOf vol, p.pins = 0 ∧ p.gen < v.gen) →
    ∃ t, Sys2Proof.Machine.exec (.cut l tag vol (some .hourly) []) s = .next t ∧
      Answered s t l tag .cut .done (.cut v.gen) ∧ (t.duesOf vol).hourly = none ∧
      t.volume vol = some { v with gen := v.gen + 1 } ∧
      (t.activeOf vol .hourly).length = min ((s.activeOf vol .hourly).length + 1) v.hourlyKeep) ∧
  (∀ (s : State) (l : Link) (tag vol sc base : Nat) (cfg : Scope) (v : Volume), s.takes l → s.calm →
    s.volume vol = some v → s.actsOn l v → v.gen < maxGeneration → (s.snapsOf vol).length < 64 →
    s.cat.snapshots.length < 1024 → s.snapshotsKeyed → v.mark < v.gen → (∀ p ∈ s.snapsOf vol, p.gen < v.gen) →
    s.scopeOf vol = some (sc, cfg) → sc ∉ s.off.shedScopes →
    base = (if 0 < v.mark ∧ s.pinGranted vol v.mark = true then v.mark else 0) →
    ∃ t, Sys2Proof.Machine.exec (.cut l tag vol (some .nightly) []) s = .next t ∧
      Answered s t l tag .cut .done (.cut v.gen) ∧ (t.duesOf vol).nightly = none ∧
      ((s.duesOf vol).nightly = none ∨ s.windowIsOpen = false → t.off.plan = s.off.plan) ∧
      ((s.duesOf vol).nightly ≠ none → s.windowIsOpen = true →
        t.volume vol = some { v with gen := v.gen + 1, shipCursor := 0 } ∧
        t.snapshot vol v.gen = some
          { vol := vol, gen := v.gen, kind := .nightly, cutTime := s.sup.clock, state := .active,
            held := false, restorePins := 0, shipPins := 1, thinned := 0 } ∧
        (∃ e, t.off.plan = s.off.plan ++ [e] ∧ e.vol = vol ∧ e.state = .shipping ∧ e.target = v.gen ∧
          e.base = base ∧ e.scope = sc ∧ e.countCursor = 0 ∧ e.shipCount = 0) ∧
        (base ≠ 0 → ∀ p, s.snapshot vol base = some p →
          t.snapshot vol base = some { p with shipPins := p.shipPins + 1 }))) ∧
  (∀ (s : State) (l : Link) (tag vol : Nat) (v : Volume) (k : SnapKind), s.takes l → s.volume vol = some v →
    ∃ t, Sys2Proof.Machine.exec (.cut l tag vol (some k) []) s = .next t ∧
      (s.role l = .fileserver → l ≠ v.owner → Answered s t l tag .cut .notPermitted .none ∧ Spared s t) ∧
      (s.actsOn l v → v.gen = maxGeneration → Answered s t l tag .cut .range .none ∧ Spared s t) ∧
      (s.actsOn l v → v.gen < maxGeneration → 64 ≤ (s.snapsOf vol).length ∨ 1024 ≤ s.cat.snapshots.length →
        Answered s t l tag .cut .catalogueFull .none ∧ Spared s t)) ∧
  (∀ (s : State) (l : Link) (tag vol : Nat) (k : SnapKind), s.takes l → s.volume vol = none →
    ∃ t, Sys2Proof.Machine.exec (.cut l tag vol (some k) []) s = .next t ∧
      Answered s t l tag .cut .unknownVolume .none ∧ Spared s t) ∧
  (∀ (s : State) (l : Link) (tag vol : Nat), s.takes l →
    ∃ t, Sys2Proof.Machine.exec (.cut l tag vol none []) s = .next t ∧
      Answered s t l tag .cut .malformed .none ∧ Spared s t)

/-- R72, R73, R74: with the clock set and counting to a whole hour, the hourly due of each volume whose hourly
cuts are enabled opens, and its CUT_DUE goes to an owning link that is UP; a nightly due that has waited the cut
wait limit closes as missed, with CUT_MISSED counted. Otherwise (a clock not set, or set to the hour and not
counted to it, an hour taken already, LOADING or HOLDUP) neither event changes anything. Where it rests on the
model's reading, log entries 2 and 12 say so. -/
def Obligations.CutDuesOpenAndAreMissed : Prop :=
  (∀ s : State, s.sup.op = .standby ∨ s.sup.op = .active → s.sup.clockSet = true → s.sup.counted = true →
    s.sup.clock % 3600 = 0 → s.sup.hourlyTaken = false → s.calm → Tbl.wf s.cat.volumes = true →
    ∃ t, Sys2Proof.Machine.exec .hourlyCutDueOpen s = .next t ∧ t.sup.hourlyTaken = true ∧
      (∀ vol v, s.volume vol = some v → v.hourlyCuts = true →
        (t.duesOf vol).hourly = some
          { opened := s.sup.elapsed, clock := s.sup.clock, sent := (s.link v.owner).up } ∧
        ((s.link v.owner).up = true →
          ∃ tag, TxFrame.directive tag (.cutDue vol false v.gen) ∈ (t.link v.owner).tx)) ∧
      (∀ vol v, s.volume vol = some v → v.hourlyCuts = false → t.duesOf vol = s.duesOf vol) ∧
      ∀ vol, (t.duesOf vol).nightly = (s.duesOf vol).nightly) ∧
  (∀ s : State, s.sup.op ≠ .halted →
    s.sup.clockSet = false ∨ s.sup.clock % 3600 ≠ 0 ∨ s.sup.counted = false ∨ s.sup.hourlyTaken = true ∨
      s.sup.op = .holdup ∨ s.sup.op = .loading →
    Sys2Proof.Machine.exec .hourlyCutDueOpen s = .next { s with sent := [] }) ∧
  (∀ (s : State) (vol : Nat) (d : Due), s.sup.op = .standby ∨ s.sup.op = .active → s.calm →
    (s.duesOf vol).nightly = some d → d.opened + 60 * s.sup.settings.cutWait ≤ s.sup.elapsed →
    ∃ t, Sys2Proof.Machine.exec (.cutWaitExpiry vol) s = .next t ∧ (t.duesOf vol).nightly = none ∧
      (t.duesOf vol).hourly = (s.duesOf vol).hourly ∧
      t.sup.raised[4]? = (s.sup.raised[4]?).map countUp) ∧
  (∀ (s : State) (vol : Nat), s.sup.op ≠ .halted →
    (∀ d, (s.duesOf vol).nightly = some d → s.sup.elapsed < d.opened + 60 * s.sup.settings.cutWait) →
    Sys2Proof.Machine.exec (.cutWaitExpiry vol) s = .next { s with sent := [] })

/-- R77, R80: an unpinned ACTIVE snapshot named by Expire Local becomes EXPIRING at extent 0 (ACCEPTED), an
OFFSITE_ONLY one stays as it is (DONE); Expire Offsite of an offsite-held one makes it DROPPING with the
present state as origin and its DROP pending (ACCEPTED), and one not held stays as it is (DONE). A pinned one
is refused PINNED, an EXPIRING or DROPPING one BUSY, a missing one UNKNOWN_SNAPSHOT; a foreign FILESERVER link
NOT_PERMITTED and a volume above 31 or DETACHED UNKNOWN_VOLUME. -/
def Obligations.ExpireStartsTheSweepOrTheDrop : Prop :=
  (∀ (s : State) (l : Link) (tag vol gen : Nat) (v : Volume) (p : Snapshot), s.takes l →
    s.volume vol = some v → s.actsOn l v → s.snapshot vol gen = some p → p.pins = 0 →
    ∃ t, Sys2Proof.Machine.exec (.expireLocal l tag vol gen) s = .next t ∧
      (p.state = .active → Answered s t l tag .expireLocal .accepted .none ∧
        t.snapshot vol gen = some { p with state := .expiring 0 }) ∧
      (p.state = .offsiteOnly → Answered s t l tag .expireLocal .done .none ∧ Spared s t)) ∧
  (∀ (s : State) (l : Link) (tag vol gen : Nat) (v : Volume) (p : Snapshot), s.takes l →
    s.volume vol = some v → s.actsOn l v → s.snapshot vol gen = some p → p.leaving = true →
    (∃ t, Sys2Proof.Machine.exec (.expireLocal l tag vol gen) s = .next t ∧
      Answered s t l tag .expireLocal .busy .none ∧ Spared s t) ∧
    ∃ t, Sys2Proof.Machine.exec (.expireOffsite l tag vol gen) s = .next t ∧
      Answered s t l tag .expireOffsite .busy .none ∧ Spared s t) ∧
  (∀ (s : State) (l : Link) (tag vol gen : Nat) (st : Status), s.takes l →
    (s.volume vol = none ∧ st = .unknownVolume) ∨
      (s.role l = .fileserver ∧ st = .notPermitted ∧ ∃ v, s.volume vol = some v ∧ l ≠ v.owner) →
    (∃ t, Sys2Proof.Machine.exec (.expireLocal l tag vol gen) s = .next t ∧
      Answered s t l tag .expireLocal st .none ∧ Spared s t) ∧
    ∃ t, Sys2Proof.Machine.exec (.expireOffsite l tag vol gen) s = .next t ∧
      Answered s t l tag .expireOffsite st .none ∧ Spared s t) ∧
  (∀ (s : State) (l : Link) (tag vol gen : Nat) (v : Volume) (p : Snapshot), s.takes l →
    s.calm → s.volume vol = some v → s.actsOn l v → s.snapshot vol gen = some p →
    p.pins = 0 → p.leaving = false →
    ∃ t, Sys2Proof.Machine.exec (.expireOffsite l tag vol gen) s = .next t ∧
      (p.held = true → Answered s t l tag .expireOffsite .accepted .none ∧
        t.snapshot vol gen = some { p with state := .dropping (decide (p.state = .active)) none } ∧
        Control.drop vol gen ∈ t.off.controls) ∧
      (p.held = false → Answered s t l tag .expireOffsite .done .none ∧ Spared s t)) ∧
  (∀ (s : State) (l : Link) (tag vol gen : Nat) (v : Volume) (p : Snapshot), s.takes l →
    s.volume vol = some v → s.actsOn l v → s.snapshot vol gen = some p → p.leaving = false → 0 < p.pins →
    (∃ t, Sys2Proof.Machine.exec (.expireLocal l tag vol gen) s = .next t ∧
      Answered s t l tag .expireLocal .pinned .none ∧ Spared s t) ∧
    ∃ t, Sys2Proof.Machine.exec (.expireOffsite l tag vol gen) s = .next t ∧
      Answered s t l tag .expireOffsite .pinned .none ∧ Spared s t) ∧
  (∀ (s : State) (l : Link) (tag vol gen : Nat) (v : Volume), s.takes l → s.volume vol = some v →
    s.actsOn l v → s.snapshot vol gen = none →
    (∃ t, Sys2Proof.Machine.exec (.expireLocal l tag vol gen) s = .next t ∧
      Answered s t l tag .expireLocal .unknownSnapshot .none ∧ Spared s t) ∧
    ∃ t, Sys2Proof.Machine.exec (.expireOffsite l tag vol gen) s = .next t ∧
      Answered s t l tag .expireOffsite .unknownSnapshot .none ∧ Spared s t)

/-- R78, R79, R81: a sweep's visit to one extent. Live versions stay. In an expiry sweep a dead version of the
snapshot stays where another ACTIVE snapshot holds it, becomes OFFSITE_ONLY where only offsite-held or pinned
ones do and it was shipped, and is removed where none does; in a drop sweep it is removed where no other
ACTIVE, offsite-held or pinned snapshot holds it. A location with references out that leaves goes to the
Reclaim Table. The cursor moves on; past the last extent an expiry leaves an offsite-held record OFFSITE_ONLY
and removes any other, and a drop removes it. Where it rests on the model's reading, log entry 12 says so. -/
def Obligations.SweepsVisitEachExtent : Prop :=
  (∀ (s : State) (vol gen ext : Nat) (v : Volume) (p : Snapshot), s.sweeps vol ext v →
    s.snapshot vol gen = some p → p.state = .expiring ext →
    ∃ t, Sys2Proof.Machine.exec (.expirySweepVisit vol gen []) s = .next t ∧
      (∀ x ∈ (s.extent vol ext).versions,
        (x.death = none → x ∈ (t.extent vol ext).versions) ∧
        (x.death ≠ none → x.heldAt gen = true →
          (∃ q ∈ s.snapsOf vol, q.gen ≠ gen ∧ q.state = .active ∧ x.heldAt q.gen = true) →
          x ∈ (t.extent vol ext).versions) ∧
        (x.death ≠ none → x.heldAt gen = true →
          (∀ q ∈ s.snapsOf vol, q.gen ≠ gen → x.heldAt q.gen = true →
            q.state ≠ .active ∧ ∀ c, q.state ≠ .dropping true c) →
          (∃ q ∈ s.snapsOf vol, x.heldAt q.gen = true ∧ (q.held = true ∨ 0 < q.pins)) →
          x.loc.isSome = true → x.shipped = true →
          (∃ y ∈ (t.extent vol ext).versions, y = { x with res := .offsite }) ∧
          ∀ loc refs, x.res = .here loc refs → 0 < refs →
            ({ vol := vol, ext := ext, loc := loc, refs := refs } : Reclaim) ∈ t.cat.reclaims) ∧
        (x.death ≠ none → x.heldAt gen = true →
          (∀ q ∈ s.snapsOf vol, x.heldAt q.gen = true → q.held = false ∧ q.pins = 0 ∧
            (q.gen ≠ gen → q.state ≠ .active ∧ ∀ c, q.state ≠ .dropping true c)) →
          ∀ loc refs, x.res = .here loc refs → x ∉ (t.extent vol ext).versions ∧
            (0 < refs → ({ vol := vol, ext := ext, loc := loc, refs := refs } : Reclaim) ∈ t.cat.reclaims))) ∧
      (ext + 1 < v.count → t.snapshot vol gen = some { p with state := .expiring (ext + 1) }) ∧
      (v.count ≤ ext + 1 → p.held = true → t.snapshot vol gen = some { p with state := .offsiteOnly }) ∧
      (v.count ≤ ext + 1 → p.held = false → t.snapshot vol gen = none)) ∧
  (∀ (s : State) (vol gen ext : Nat) (v : Volume) (p : Snapshot) (a : Bool), s.sweeps vol ext v →
    s.snapshot vol gen = some p → p.state = .dropping a (some ext) →
    ∃ t, Sys2Proof.Machine.exec (.dropSweepVisit vol gen []) s = .next t ∧
      (∀ x ∈ (s.extent vol ext).versions,
        (x.death = none → x ∈ (t.extent vol ext).versions) ∧
        (x.death ≠ none → x.heldAt gen = true →
          (∃ q ∈ s.snapsOf vol, q.gen ≠ gen ∧ x.heldAt q.gen = true ∧
            (q.state = .active ∨ q.held = true ∨ 0 < q.pins)) → x ∈ (t.extent vol ext).versions) ∧
        (x.death ≠ none → x.heldAt gen = true →
          (∀ q ∈ s.snapsOf vol, q.gen ≠ gen → x.heldAt q.gen = true →
            q.state ≠ .active ∧ q.held = false ∧ q.pins = 0) → x ∉ (t.extent vol ext).versions)) ∧
      (ext + 1 < v.count → t.snapshot vol gen = some { p with state := .dropping a (some (ext + 1)) }) ∧
      (v.count ≤ ext + 1 → t.snapshot vol gen = none)) ∧
  (∀ (s : State) (vol gen : Nat), s.sup.op = .loading ∨ s.sup.op = .holdup →
    Sys2Proof.Machine.exec (.expirySweepVisit vol gen []) s = .next { s with sent := [] } ∧
      Sys2Proof.Machine.exec (.dropSweepVisit vol gen []) s = .next { s with sent := [] })

/-! ### Restores -/

/-- R86 to R89: a Restore waits at the engine for its turn, with the role its link had as it arrived (R169). Its
acceptance, in ACTIVE and with every check passed, from a CONSOLE link or from a FILESERVER link under self-restore,
in place or to a RECOVERY volume, over a range of extents whose versions are all recoverable and whose targets are
not locked, pins the snapshot, plans a COPY or FETCH step for each extent with its charge (Table 5-5), locks the
targets under the next restore id and asks for a reservation of the positive charges. In STANDBY it is refused
WRONG_STATE; where the snapshot cannot be pinned (its volume DETACHED, no record, or one EXPIRING or DROPPING),
UNKNOWN_SNAPSHOT. Where it rests on the model's reading, log entry 18 says so. -/
def Obligations.RestoreIsAcceptedInTurn : Prop :=
  (∀ (s : State) (l : Link) (tag : Nat) (b : RestoreBody), s.takes l → s.tallyStill →
    ∃ t, Sys2Proof.Machine.exec (.restore l tag b) s = .next t ∧ Queued s t l tag .restore false ∧
      t.rst = { s.rst with
        waiting := s.rst.waiting ++ [{ link := l, req := s.sup.nextReq, role := s.role l, body := b }] }) ∧
  (∀ (s : State) (q : RestoreReq) (rest : List RestoreReq) (e : ReqEntry) (sv : Volume) (p : Snapshot)
    (k : Principal) (vs : Nat → Version) (near : Bool) (tv tf : Nat) (back : Nat → Nat),
    s.sup.op = .active → s.calm → s.rst.acceptance = none → s.rst.waiting = q :: rest →
    s.awaits q.link q.req e → s.volume q.body.vol = some sv → sv.count ≤ 1048576 →
    1 ≤ q.body.count → q.body.count ≤ 4096 → q.body.first + q.body.count ≤ sv.count →
    s.snapshot q.body.vol q.body.gen = some p → p.leaving = false →
    (q.body.mode = .inPlace ∧ tv = q.body.vol ∧ tf = q.body.first ∧ near = true ∧
        back = fun i => (s.extent q.body.vol (q.body.first + i)).liveOcc) ∨
      (q.body.mode = .recovery ∧ tv = q.body.tvol ∧ tf = q.body.tfirst ∧
        near = decide (s.ownerOf q.body.vol = s.ownerOf q.body.tvol) ∧ (back = fun _ => 0) ∧
        ∃ w, s.volume q.body.tvol = some w ∧ w.recovery = true ∧ w.count ≤ 1048576 ∧
          q.body.tfirst + q.body.count ≤ w.count) →
    s.prin q.body.principal = some k → k.kind = .person → k.active < 2 →
    q.role = .console ∨ ((s.classOf k.cls).selfRestore = true ∧
      ∀ i, i < q.body.count → (s.extent q.body.vol (q.body.first + i)).owner = q.body.principal) →
    (∃ n, n < 64 ∧ s.restore n = none) →
    (∀ i, i < q.body.count → (s.extent q.body.vol (q.body.first + i)).heldAt q.body.gen = some (vs i) ∧
      ((vs i).res = .offsite ∨ (vs i).shipped = true ∨ (near = true ∧ (vs i).repair ≠ .unrepairable))) →
    (∀ i, i < q.body.count → (s.extent tv (tf + i)).lock = none) →
    (∀ kr ∈ s.rst.table, kr.2.rid ≠ s.rst.counter) →
    ∃ t a, Sys2Proof.Machine.exec (.restoreAcceptance []) s = .next t ∧ t.rst.waiting = rest ∧
      t.rst.acceptance = some a ∧ a.link = q.link ∧ a.req = q.req ∧ a.body = q.body ∧
      a.rid = s.rst.counter ∧ a.steps.length = q.body.count ∧
      (∀ i, i < q.body.count → ∃ x, a.steps[i]? = some x ∧ x.src = some (vs i).birth ∧ x.state = .waiting ∧
        x.charge = ((vs i).occ : Int) - (back i : Int) ∧
        (near = true → (vs i).res ≠ .offsite → (vs i).repair ≠ .unrepairable →
          x.kind = .copy ∧ x.loc = (vs i).loc) ∧
        (near = false ∨ (vs i).res = .offsite ∨ (vs i).repair = .unrepairable →
          x.kind = .fetch ∧ x.loc = none)) ∧
      a.reserve = ((List.range q.body.count).map fun i => (vs i).occ - back i).sum ∧
      t.rst.counter = (if s.rst.counter = 4294967295 then 1 else s.rst.counter + 1) ∧
      (∀ i, i < q.body.count → (t.extent tv (tf + i)).lock = some s.rst.counter) ∧
      t.snapshot q.body.vol q.body.gen = some { p with restorePins := p.restorePins + 1 } ∧
      ∃ o ∈ t.tally.ops, o.job = .reserve q.body.principal a.reserve) ∧
  (∀ (s : State) (q : RestoreReq) (rest : List RestoreReq) (e : ReqEntry), s.rst.acceptance = none →
    s.rst.waiting = q :: rest → s.awaits q.link q.req e →
    (s.sup.op = .standby →
      ∃ t, Sys2Proof.Machine.exec (.restoreAcceptance []) s = .next t ∧ t.rst = { s.rst with waiting := rest } ∧
        Replied s t q.link e .wrongState .none ∧ catSettles s.cat t.cat) ∧
    (s.sup.op = .active →
      s.volume q.body.vol = none ∨ s.snapshot q.body.vol q.body.gen = none ∨
        (∃ p, s.snapshot q.body.vol q.body.gen = some p ∧ p.leaving = true) →
      ∃ t, Sys2Proof.Machine.exec (.restoreAcceptance []) s = .next t ∧ t.rst = { s.rst with waiting := rest } ∧
        Replied s t q.link e .unknownSnapshot .none ∧ catSettles s.cat t.cat))

/-- R32, R90: the reservation decides an acceptance. GRANTED raises reserved of each chain member by n, writes
the record PLANNED with n remaining into the lowest-numbered unused record, raises the principal's active
restores and is answered ACCEPTED with the restore id, the counts of steps and n. LIMIT and FROZEN change no tally
and drop the acceptance: its locks are released and its pin is dropped. LIMIT is answered with the headroom and the
limiting member, FROZEN with the frozen member. -/
def Obligations.ReservationDecidesTheAcceptance : Prop :=
  (∀ (s : State) (o : TallyOp) (a : Acceptance) (e : ReqEntry) (n m rec : Nat) (xs ys : List Nat)
    (k : Principal), s.sup.op = .active → s.tallyOnly o → o.stage = .ready → o.writes = [] →
    o.job = .reserve a.body.principal n → s.plainLines o.ids → o.ids = xs ++ m :: ys →
    (∀ x ∈ o.ids, ∀ q, s.prin x = some q → q.frozen = false) →
    (∀ x ∈ xs, s.headroom m < s.headroom x) → (∀ y ∈ ys, s.headroom m ≤ s.headroom y) →
    s.rst.acceptance = some a → s.awaits a.link a.req e → n ≤ s.headroom m → a.reserve = n →
    (∀ x ∈ a.steps, x.state = .waiting) → s.restore rec = none → rec < 64 →
    (∀ j, j < rec → (s.restore j).isSome = true) → s.prin a.body.principal = some k →
    ∃ t r k', Sys2Proof.Machine.exec (.admissionCalculation o.num []) s = .next t ∧
      t.rst.acceptance = none ∧ t.restore rec = some r ∧ r.rid = a.rid ∧ r.state = .planned ∧
      r.remaining = n ∧ r.acceptNo = s.rst.nextAccept ∧ r.pin = true ∧ r.steps = a.steps ∧
      r.principal = a.body.principal ∧ r.link = a.link ∧
      t.prin a.body.principal = some k' ∧ k'.active = k.active + 1 ∧
      (∀ id ∈ o.ids, t.current id = ((s.current id).1, (s.current id).2 + n)) ∧
      Replied s t a.link e .accepted (.restoreAccepted a.rid
        (a.steps.filter fun x => decide (x.kind = .copy)).length
        (a.steps.filter fun x => decide (x.kind = .fetch)).length 0 n)) ∧
  (∀ (s : State) (o : TallyOp) (a : Acceptance) (e : ReqEntry) (n m : Nat) (xs ys : List Nat) (p : Snapshot)
    (st : Status) (b : ReplyBody),
    s.sup.op = .active → s.tallyOnly o → o.stage = .ready → o.writes = [] →
    o.job = .reserve a.body.principal n → s.plainLines o.ids → o.ids = xs ++ m :: ys →
    s.rst.acceptance = some a → s.awaits a.link a.req e →
    s.snapshot a.body.vol a.body.gen = some p → 0 < p.restorePins →
    ((∀ x ∈ o.ids, ∀ q, s.prin x = some q → q.frozen = false) ∧ (∀ x ∈ xs, s.headroom m < s.headroom x) ∧
        (∀ y ∈ ys, s.headroom m ≤ s.headroom y) ∧ s.headroom m < n ∧ st = .limit ∧
        b = .restoreLimit (s.headroom m) m) ∨
      ((∃ k, s.prin m = some k ∧ k.frozen = true) ∧ (∀ x ∈ xs, ∀ k, s.prin x = some k → k.frozen = false) ∧
        st = .frozen ∧ b = .restoreFrozen m) →
    ∃ t p', Sys2Proof.Machine.exec (.admissionCalculation o.num []) s = .next t ∧
      t.rst = { s.rst with acceptance := none } ∧ (∀ id, t.current id = s.current id) ∧ t.tally.ops = [] ∧
      (∀ i, i < a.body.count →
        (t.extent (targetOf a.body).1 ((targetOf a.body).2 + i)).lock ≠ some a.rid) ∧
      t.snapshot a.body.vol a.body.gen = some p' ∧ p'.restorePins = p.restorePins - 1 ∧
      Replied s t a.link e st b)

/-- R91, R99, R101: in ACTIVE with fewer than 8 running places taken the PLANNED restore of lowest acceptance
number becomes RUNNING. Restore Cancel makes a RUNNING restore with a step ISSUED CANCELLING (ACCEPTED) and a
PLANNED one CANCELLED at once (DONE), with RESTORE_END counted; of a finished one it changes nothing (DONE);
an id that no record holds is RANGE. Restore Status reports the record. -/
def Obligations.RestoresStartCancelAndReport : Prop :=
  (∀ (s : State) (rec i : Nat) (r : Restore) (x : Step), s.sup.op = .active → Tbl.wf s.rst.table = true →
    s.restore rec = some r → r.state = .planned → r.pausing = false → r.steps[i]? = some x →
    x.state = .waiting → s.placesUsed < 8 →
    (∀ k q, s.restore k = some q → q.state = .planned → k ≠ rec → r.acceptNo < q.acceptNo) →
    ∃ t, Sys2Proof.Machine.exec .restoreStart s = .next t ∧
      t.restore rec = some { r with state := .running } ∧ ∀ k, k ≠ rec → t.restore k = s.restore k) ∧
  (∀ s : State, s.sup.op ≠ .halted → s.sup.op ≠ .active ∨ 8 ≤ s.placesUsed →
    ∃ t, Sys2Proof.Machine.exec .restoreStart s = .next t ∧ t.rst = s.rst) ∧
  (∀ (s : State) (l : Link) (tag rid rec i : Nat) (r : Restore) (x : Step), s.takes l →
    s.recordOf rid = some (rec, r) → s.restore rec = some r → s.role l = .console ∨ r.link = l →
    r.state = .running → r.steps[i]? = some x → x.state = .issued →
    ∃ t r', Sys2Proof.Machine.exec (.restoreCancel l tag rid) s = .next t ∧
      Answered s t l tag .restoreCancel .accepted .none ∧ t.restore rec = some r' ∧
      r'.state = .cancelling ∧ r'.remaining = r.remaining ∧ r'.steps[i]? = some x) ∧
  (∀ (s : State) (l : Link) (tag rid rec : Nat) (r : Restore) (k : Principal), s.takes l → s.calm →
    s.recordOf rid = some (rec, r) → s.restore rec = some r → s.role l = .console ∨ r.link = l →
    r.state = .planned → s.prin r.principal = some k →
    ∃ t r' k', Sys2Proof.Machine.exec (.restoreCancel l tag rid) s = .next t ∧
      Answered s t l tag .restoreCancel .done .none ∧ t.restore rec = some r' ∧ r'.state = .cancelled ∧
      r'.finishNo = some s.rst.nextFinish ∧ t.prin r.principal = some k' ∧ k'.active = k.active - 1 ∧
      t.sup.raised[3]? = (s.sup.raised[3]?).map countUp) ∧
  (∀ (s : State) (l : Link) (tag rid rec : Nat) (r : Restore), s.takes l →
    s.recordOf rid = some (rec, r) → s.restore rec = some r → s.role l = .console ∨ r.link = l →
    r.state.isActive = false →
    ∃ t, Sys2Proof.Machine.exec (.restoreCancel l tag rid) s = .next t ∧
      Answered s t l tag .restoreCancel .done .none ∧ Spared s t) ∧
  (∀ (s : State) (l : Link) (tag rid : Nat), s.takes l → s.recordOf rid = none →
    (∃ t, Sys2Proof.Machine.exec (.restoreCancel l tag rid) s = .next t ∧
      Answered s t l tag .restoreCancel .range .none ∧ Spared s t) ∧
    ∃ t, Sys2Proof.Machine.exec (.restoreStatus l tag rid []) s = .next t ∧
      Answered s t l tag .restoreStatus .range .none ∧ Spared s t) ∧
  (∀ (s : State) (l : Link) (tag rid rec : Nat) (r : Restore), s.takes l → s.recordOf rid = some (rec, r) →
    ∃ t, Sys2Proof.Machine.exec (.restoreStatus l tag rid []) s = .next t ∧ Spared s t ∧
      Answered s t l tag .restoreStatus .done (.record (.restore rec { r with steps := [] } r.inFlight
        ([StepState.waiting, .issued, .fetching, .putting, .done, .failed, .skipped].map r.stepsIn)
        r.failures)))

/-- R92 to R95, R98: a RUNNING restore in ACTIVE takes up its first WAITING step with fewer than 4 in flight.
A COPY of a SOUND source raises the source's reference count, puts COPY in the target's owning link's list
and is ISSUED; a FETCH places its entries in the Fetch Queue and is FETCHING; a damaged record fails the step
and the restore. A FETCHING step with its chunks complete is put: its slots are SENDING and PUT joins the
list. -/
def Obligations.StepsAreTakenUpAndPut : Prop :=
  (∀ (s : State) (rec i loc refs : Nat) (r : Restore) (x : Step) (v : Version) (l : Link),
    s.sup.op = .active → s.calm → s.restore rec = some r → r.state = .running → r.pausing = false →
    r.steps[i]? = some x → x.state = .waiting → (∀ j y, j < i → r.steps[j]? = some y → y.state ≠ .waiting) →
    r.inFlight < 4 → x.kind = .copy → x.loc = some loc → x.src = some v.birth →
    (s.extent r.vol (r.first + i)).version v.birth = some v → v.res = .here loc refs → v.repair = .sound →
    s.damaged r.vol (r.first + i) = false → s.damaged (r.target i).1 (r.target i).2 = false →
    s.ownerOf (r.target i).1 = some l → (s.link l).up = true → (s.link l).directives.length < 16 →
    (s.link l).placeWaits = [] →
    ∃ t d, Sys2Proof.Machine.exec (.stepTakeUp rec []) s = .next t ∧
      t.restore rec = some { r with steps := r.steps.set i { x with state := .issued, again := false } } ∧
      (t.link l).directives = (s.link l).directives ++ [d] ∧ d.kind = .copy ∧ d.issuer = .step rec i ∧
      d.issued = s.sup.elapsed ∧ d.limit = s.sup.settings.directiveWait ∧
      d.refs = [(r.vol, r.first + i, loc)] ∧
      TxFrame.directive d.tag (.copy loc (r.target i).1 (r.target i).2) ∈ (t.link l).tx ∧
      (t.link l).idle = false ∧
      { v with res := .here loc (refs + 1) } ∈ (t.extent r.vol (r.first + i)).versions) ∧
  (∀ (s : State) (rec i : Nat) (r : Restore) (x : Step) (v : Version) (l : Link),
    s.sup.op = .active → s.calm → s.restore rec = some r → r.state = .running → r.pausing = false →
    r.steps[i]? = some x → x.state = .waiting → (∀ j y, j < i → r.steps[j]? = some y → y.state ≠ .waiting) →
    r.inFlight < 4 → x.kind = .fetch → x.src = some v.birth →
    (s.extent r.vol (r.first + i)).version v.birth = some v → 0 < v.occ →
    s.damaged r.vol (r.first + i) = false → s.damaged (r.target i).1 (r.target i).2 = false →
    s.ownerOf (r.target i).1 = some l → s.off.roomWaits = [] →
    s.off.fetchQueue.length + s.fetchesOut + 16 ≤ 32 →
    ∃ t, Sys2Proof.Machine.exec (.stepTakeUp rec []) s = .next t ∧
      t.restore rec =
        some { r with steps := r.steps.set i { x with state := .fetching, again := false, marker := false } } ∧
      ∀ k, k < 16 →
        ({ holder := .step rec i, vol := r.vol, ext := r.first + i, birth := v.birth, idx := some k,
           code := v.codeAt k } : FetchEntry) ∈ t.off.fetchQueue) ∧
  (∀ (s : State) (rec i : Nat) (r : Restore) (x : Step), s.sup.op = .active → s.restore rec = some r →
    r.state = .running → r.pausing = false → r.steps[i]? = some x → x.state = .waiting →
    (∀ j y, j < i → r.steps[j]? = some y → y.state ≠ .waiting) → r.inFlight < 4 →
    s.damaged r.vol (r.first + i) = true ∨ s.damaged (r.target i).1 (r.target i).2 = true →
    ∃ t r', Sys2Proof.Machine.exec (.stepTakeUp rec []) s = .next t ∧ t.restore rec = some r' ∧
      r'.state = .failed ∧ r'.cause = some .step ∧ r'.failedStep = some (i, .damaged)) ∧
  (∀ (s : State) (rec i : Nat) (r : Restore) (x : Step) (v : Version) (l : Link),
    s.sup.op = .standby ∨ s.sup.op = .active → s.calm → s.restore rec = some r → r.steps[i]? = some x →
    x.state = .fetching → x.marker = true ∨ (s.chunksOf (.step rec i) .full).length = 16 →
    x.src = some v.birth → (s.extent r.vol (r.first + i)).version v.birth = some v →
    s.ownerOf (r.target i).1 = some l → (s.link l).up = true → (s.link l).directives.length < 16 →
    (s.link l).placeWaits = [] →
    ∃ t d, Sys2Proof.Machine.exec (.put rec i []) s = .next t ∧
      t.restore rec = some { r with
        steps := r.steps.set i
          { x with state := .putting, inPause := r.pausing || decide (r.state = .paused) } } ∧
      (t.link l).directives = (s.link l).directives ++ [d] ∧ d.kind = .put ∧ d.issuer = .step rec i ∧
      d.refs = [] ∧
      TxFrame.directive d.tag (.put (r.target i).1 (r.target i).2 v.occ
        (s.chunksOf (.step rec i) .full).length) ∈ (t.link l).tx ∧
      ∀ n y, s.slot n = some y → y.holder = .step rec i → y.state = .full →
        t.slot n = some { y with state := .sending })

/-- R96, R97, R63: a PUT_DONE, or a COPY_DONE, of an outstanding directive ends it; with the restored-version
record made, the target's live version holds the new location with the source's occupied blocks and codes,
the requesting principal owns the extent, and the conversion is with the Tally Unit. A late one is sent back
as RECLAIM on its link, and changes no restore. -/
def Obligations.CompletedStepsMakeRestoredVersions : Prop :=
  (∀ (s : State) (l : Link) (tag loc rec i : Nat) (d : Directive) (r : Restore) (x : Step) (v : Version),
    s.sup.op ≠ .halted → s.calm → (s.link l).up = true → s.directive l tag = some d → d.kind = .put →
    d.issuer = .step rec i → d.refs = [] → s.restore rec = some r → r.steps[i]? = some x →
    x.src = some v.birth → (s.extent r.vol (r.first + i)).version v.birth = some v → 0 < v.occ →
    s.commitCheck none (some r.rid) (r.target i).1 (r.target i).2 r.principal loc v.occ (some v.codes) = none →
    ∃ t y, Sys2Proof.Machine.exec (.putDone l tag loc []) s = .next t ∧
      (∀ e ∈ (t.link l).directives, e.tag ≠ tag) ∧
      t.restore rec = some { r with steps := r.steps.set i { x with recorded := true } } ∧
      (t.extent (r.target i).1 (r.target i).2).owner = r.principal ∧
      (t.extent (r.target i).1 (r.target i).2).live = some y ∧ y.loc = some loc ∧ y.occ = v.occ ∧
      y.codes = v.codes ∧ y.shipped = false ∧ y.verified = s.sup.clock ∧
      (∀ n k, (n, k) ∈ t.str.slots → k.holder ≠ .step rec i) ∧
      ∃ o ∈ t.tally.ops, o.job = .convert rec i r.principal x.charge.toNat x.charge r.link) ∧
  (∀ (s : State) (l : Link) (tag loc src rec i : Nat) (d : Directive) (r : Restore) (x : Step)
    (v : Version), s.sup.op ≠ .halted → s.calm → (s.link l).up = true → s.directive l tag = some d →
    d.kind = .copy → d.issuer = .step rec i → d.refs = [(r.vol, r.first + i, src)] →
    s.restore rec = some r → r.mode = .recovery → r.tvol ≠ r.vol → r.first + i < 1048576 →
    r.tfirst + i < 1048576 → r.steps[i]? = some x → x.src = some v.birth →
    (s.extent r.vol (r.first + i)).version v.birth = some v → v.loc = some src → 0 < v.occ →
    s.commitCheck none (some r.rid) r.tvol (r.tfirst + i) r.principal loc v.occ (some v.codes) = none →
    ∃ t y, Sys2Proof.Machine.exec (.copyDone l tag loc []) s = .next t ∧
      (∀ e ∈ (t.link l).directives, e.tag ≠ tag) ∧
      t.restore rec = some { r with steps := r.steps.set i { x with recorded := true } } ∧
      (t.extent r.tvol (r.tfirst + i)).owner = r.principal ∧
      (t.extent r.tvol (r.tfirst + i)).live = some y ∧ y.loc = some loc ∧ y.occ = v.occ ∧
      y.codes = v.codes ∧
      ∃ o ∈ t.tally.ops, o.job = .convert rec i r.principal x.charge.toNat x.charge r.link) ∧
  (∀ (s : State) (l : Link) (tag loc : Nat), s.sup.op ≠ .halted → (s.link l).up = true →
    (∀ d ∈ (s.link l).directives, d.tag ≠ tag) →
    (∃ t n, Sys2Proof.Machine.exec (.copyDone l tag loc []) s = .next t ∧ t.rst = s.rst ∧
      TxFrame.directive n (.reclaim loc) ∈ (t.link l).tx ∧ (t.link l).directives = (s.link l).directives) ∧
    ∃ t n, Sys2Proof.Machine.exec (.putDone l tag loc []) s = .next t ∧ t.rst = s.rst ∧
      TxFrame.directive n (.reclaim loc) ∈ (t.link l).tx ∧ (t.link l).directives = (s.link l).directives)

/-- R97, R176: the first failure of a COPY or PUT of a RUNNING restore, by its answer or by the directive wait
limit, ends the directive and reissues it: a COPY's step is WAITING again, a PUT's step FETCHING, with the
flag set, and a restore that pauses is PAUSED where no other directive of it is out, the PUTs issued since the pause
began apart (R102); the second fails the step and the restore, reason DIRECTIVE. A late failure changes nothing, and
before its limit a directive stays outstanding. Where it rests on the model's reading, log entry 12 says so.
-/
def Obligations.FailedDirectivesAreReissuedOnce : Prop :=
  (∀ (s : State) (l : Link) (tag rec i : Nat) (d : Directive) (r : Restore) (x : Step) (c : Instr),
    s.sup.op ≠ .halted → (s.link l).up = true → s.directive l tag = some d → d.issuer = .step rec i →
    s.restore rec = some r → r.state = .running → r.steps[i]? = some x →
    (c = .copyFail l tag ∧ d.kind = .copy) ∨ (c = .putFail l tag ∧ d.kind = .put) ∨
      (c = .directiveWaitExpiry l tag ∧ d.issued + d.limit ≤ s.sup.elapsed) →
    ∃ t, Sys2Proof.Machine.exec c s = .next t ∧ (∀ e ∈ (t.link l).directives, e.tag ≠ tag) ∧
      (x.reissued = false → x.state = .issued → r.pausing = false → t.restore rec = some { r with
        steps := r.steps.set i { x with reissued := true, state := .waiting, again := true } }) ∧
      (x.reissued = false → x.state = .issued → r.pausing = true →
        (∀ j y, j ≠ i → r.steps[j]? = some y → y.state ≠ .issued ∧ (y.state = .putting → y.inPause = true)) →
        t.restore rec = some { r with
          state := .paused, pausing := false,
          steps := r.steps.set i { x with reissued := true, state := .waiting, again := true } }) ∧
      (x.reissued = false → x.state = .putting → r.pausing = false → t.restore rec = some { r with
        steps := r.steps.set i
          { x with reissued := true, refetched := [], state := .fetching, marker := false } }) ∧
      (x.reissued = true → x.state = .issued ∨ x.state = .putting → ∃ r', t.restore rec = some r' ∧ r'.state = .failed ∧ r'.cause = some .step ∧
        r'.failedStep = some (i, .directive))) ∧
  (∀ (s : State) (l : Link) (tag : Nat), s.sup.op ≠ .halted → (s.link l).up = true →
    (∀ d ∈ (s.link l).directives, d.tag ≠ tag) →
    (∃ t, Sys2Proof.Machine.exec (.copyFail l tag) s = .next t ∧ t.rst = s.rst ∧ catSettles s.cat t.cat ∧
      (t.link l).directives = (s.link l).directives) ∧
    (∃ t, Sys2Proof.Machine.exec (.putFail l tag) s = .next t ∧ t.rst = s.rst ∧ catSettles s.cat t.cat ∧
      (t.link l).directives = (s.link l).directives) ∧
    Sys2Proof.Machine.exec (.directiveWaitExpiry l tag) s = .next { s with sent := [] }) ∧
  (∀ (s : State) (l : Link) (tag : Nat) (d : Directive), s.sup.op ≠ .halted → s.directive l tag = some d →
    s.sup.elapsed < d.issued + d.limit →
    Sys2Proof.Machine.exec (.directiveWaitExpiry l tag) s = .next { s with sent := [] })

/-! ### The Stream Buffer and the night -/

/-- R107, R108, R111: a waiting REPAIR request for one slot is granted a free one, FILLING at the initial
code; a SHIP request is not granted where that would leave less than the reserve of 4 REPAIR and 8 FETCH
slots. R109, R151: where the head of the Fetch Queue needs a slot and none is free, the FULL SHIP slot that
became FULL last is taken back for it, and its entry is UNPULLED again. A SHIP slot whose frame has been
transmitted becomes AWAITING_ACK, or is freed if it was covered meanwhile. Where it rests on the model's
reading, log entry 35 says so. -/
def Obligations.SlotsAreGrantedAndReleased : Prop :=
  (∀ (s : State) (h : SlotHolder) (i m : Nat) (c : Code), s.sup.op ≠ .halted → s.sup.op ≠ .holdup → s.calm →
    s.str.waitRepair = [{ holder := h, wants := [(i, c)] }] → s.str.waitFetch = [] → s.str.waitShip = [] →
    s.str.waitPatrol = [] → s.str.slots.length < 64 → m < 64 → s.slot m = none →
    ∃ t n, Sys2Proof.Machine.exec .slotGrant s = .next t ∧ t.str.waitRepair = [] ∧ n < 64 ∧ s.slot n = none ∧
      t.slot n = some
        { state := .filling, cls := .repair, holder := h, idx := i, expected := c, computed := crcInit,
          seq := none, data := [], fullOrder := 0, covered := false } ∧
      ∀ k, k ≠ n → t.slot k = s.slot k) ∧
  (∀ (s : State) (r : SlotReq) (rest : List SlotReq), s.sup.op ≠ .halted → s.calm → s.str.waitRepair = [] →
    s.str.waitFetch = [] → s.str.waitShip = r :: rest → s.str.waitPatrol = [] →
    64 - s.str.slots.length < r.wants.length ∨ 64 - s.str.slots.length - r.wants.length <
      (4 - s.slotsHeld .repair) + (8 - s.slotsHeld .fetch) →
    ∃ t, Sys2Proof.Machine.exec .slotGrant s = .next t ∧ t.str.slots = s.str.slots ∧
      t.str.waitShip = r :: rest) ∧
  (∀ (s : State) (e : FetchEntry) (i n : Nat) (x : Slot), s.sup.op ≠ .halted → s.sup.op ≠ .holdup → s.calm →
    s.off.link = .up → s.off.dir ≠ .draining .toClose → s.off.roomWaits = [] → s.off.fetchQueue = [e] →
    e.idx = some i → s.slotFor e.holder.slots i = none → s.str.waitRepair = [] → s.str.waitFetch = [] →
    s.str.waitShip = [] → s.str.waitPatrol = [] → Tbl.wf s.str.slots = true → s.str.slots.length = 64 →
    (∀ m, m < 64 → (s.slot m).isSome = true) → n < 64 → s.slot n = some x → x.cls = .ship → x.state = .full →
    (∀ m y, s.slot m = some y → m ≠ n → y.cls = .ship → y.state = .full → y.fullOrder < x.fullOrder) →
    (∀ p ∈ s.off.plan, p.state ≠ .shed ∧ p.state ≠ .failed) →
    ∃ t, Sys2Proof.Machine.exec .fetchQueueServe s = .next t ∧
      t.slot n = some
        { state := .filling, cls := e.cls, holder := e.holder.slots, idx := i, expected := e.code,
          computed := crcInit, seq := none, data := [], fullOrder := 0, covered := false } ∧
      (∀ k, k ≠ n → t.slot k = s.slot k) ∧
      ∀ y ∈ s.off.queue, y.slot = some n → y.state = .ready →
        { y with slot := none, state := .unpulled } ∈ t.off.queue) ∧
  (∀ (s : State) (seq n : Nat) (x : Slot), s.sup.op ≠ .halted → s.calm → s.slot n = some x → x.cls = .ship →
    x.seq = some seq → x.state = .sending →
    (∀ kv ∈ s.str.slots, kv.2.cls = .ship → kv.2.seq = some seq → kv.2.state = .sending → kv.1 = n ∧ kv.2 = x) →
    ∃ t, Sys2Proof.Machine.exec (.shipFrameTransmitted seq) s = .next t ∧
      (x.covered = false → t.slot n = some { x with state := .awaitingAck }) ∧
      (x.covered = true → t.slot n = none) ∧ ∀ k, k ≠ n → t.slot k = s.slot k)

/-- R118 to R120, R73, R154: in ACTIVE with the clock counting to the INTERNAL open time the window opens: the
pending values come into force, the plan is empty, the counts are 0, the rate is the assumed one, the close
instant is the next close time, nightly dues open, and a link that is DOWN is opened. An EXTERNAL window opens
and closes by request. A close with frames outstanding begins the end of the night; entries not sent leave and
nightly dues close. The night ends when nothing of it remains, with SHIP_NIGHT_END counted; frames still
outstanding after the ack wait limit are abandoned and the link closed. Where it rests on the model's reading,
log entries 2, 12, 33 and 64 say so. -/
def Obligations.WindowOpensAndTheNightEnds : Prop :=
  (∀ s : State, s.sup.op = .active → s.off.phase = .closed → s.internal = true → s.sup.clockSet = true →
    s.sup.counted = true → s.sup.clock % 86400 = s.sup.settings.openTime → s.insidePeriod = true → s.calm →
    ∃ t, Sys2Proof.Machine.exec .windowOpening s = .next t ∧ t.off.phase = .windowOpen ∧ t.off.plan = [] ∧
      t.off.shedScopes = [] ∧ t.off.nComplete = 0 ∧ t.off.nShed = 0 ∧ t.off.nMissed = 0 ∧ t.off.nFailed = 0 ∧
      t.sup.pendingSettings = PendingSettings.none ∧ t.off.rate = t.sup.settings.assumedRate ∧
      t.sup.settings.assumedRate = s.sup.pendingSettings.assumedRate.getD s.sup.settings.assumedRate ∧
      (t.sup.settings.windowSource = .internal → t.sup.settings.closeTime < 86400 →
        ∃ c, t.off.closeInstant = some c ∧ s.sup.clock < c ∧ c ≤ s.sup.clock + 86400 ∧
          c % 86400 = t.sup.settings.closeTime) ∧
      (t.sup.settings.windowSource = .external → t.off.closeInstant = none) ∧
      (∀ vol v, s.volume vol = some v → v.nightlyCut = true → (t.duesOf vol).nightly.isSome = true) ∧
      (s.off.link = .down → t.off.link = .opening 1 ∧ Output.offsite (.open 0 16) ∈ t.sent)) ∧
  (∀ s : State, s.sup.op ≠ .halted → s.sup.op ≠ .active ∨ s.off.phase ≠ .closed ∨ s.internal = false ∨
      s.sup.clock % 86400 ≠ s.sup.settings.openTime →
    Sys2Proof.Machine.exec .windowOpening s = .next { s with sent := [] }) ∧
  (∀ (s : State) (l : Link) (tag : Nat), s.takes l → s.role l = .console →
    ∃ t, Sys2Proof.Machine.exec (.windowOpen l tag) s = .next t ∧
      (s.internal = true ∨ s.sup.op = .standby →
        Answered s t l tag .windowOpen .wrongState .none ∧ Spared s t) ∧
      (s.internal = false → s.sup.op = .active → s.nightEnding = true →
        Answered s t l tag .windowOpen .busy .none ∧ Spared s t) ∧
      (s.internal = false → s.sup.op = .active → s.nightEnding = false →
        Answered s t l tag .windowOpen .done .none ∧ t.off.phase = .windowOpen)) ∧
  (∀ (s : State) (l : Link) (tag : Nat), s.takes l → s.role l = .console →
    ∃ t, Sys2Proof.Machine.exec (.windowClose l tag) s = .next t ∧
      (s.internal = true → Answered s t l tag .windowClose .wrongState .none ∧ Spared s t) ∧
      (s.internal = false → s.off.phase ≠ .windowOpen →
        Answered s t l tag .windowClose .done .none ∧ Spared s t) ∧
      (s.internal = false → s.off.phase = .windowOpen → s.shipsOut = true →
        Answered s t l tag .windowClose .accepted .none ∧
        t.off.phase = .ending s.sup.elapsed s.sup.settings.ackWait ∧
        ∀ vol v, s.volume vol = some v → (t.duesOf vol).nightly = none)) ∧
  (∀ (s : State) (c : Nat), s.sup.op = .standby ∨ s.sup.op = .active → s.internal = true → s.patrolStill →
    s.off.phase = .windowOpen → s.off.closeInstant = some c →
    (c ≤ s.sup.clock → s.shipsOut = true →
      ∃ t, Sys2Proof.Machine.exec .windowClosing s = .next t ∧
        t.off.phase = .ending s.sup.elapsed s.sup.settings.ackWait ∧
        (∀ e ∈ t.off.queue, e.unsent = false) ∧
        ∀ vol v, s.volume vol = some v → (t.duesOf vol).nightly = none) ∧
    (s.sup.clock < c → Sys2Proof.Machine.exec .windowClosing s = .next { s with sent := [] })) ∧
  (∀ (s : State) (since limit : Nat), s.sup.op ≠ .halted → s.calm → s.off.phase = .ending since limit →
    s.off.queue = [] → s.off.pulls = [] → s.shipsOut = false → s.sup.settings.windowSource = .external →
    s.sup.pendingSettings.windowSource = none →
    ∃ t, Sys2Proof.Machine.exec .nightEnd s = .next t ∧ t.off.phase = .closed ∧ t.off.closeInstant = none ∧
      t.off.plan = [] ∧ t.off.shedScopes = [] ∧
      t.off.nFailed = s.off.nFailed +
        (s.off.plan.filter fun p => decide (p.state = .shipping) || decide (p.state = .awaitingDone)).length ∧
      t.sup.raised[6]? = (s.sup.raised[6]?).map countUp) ∧
  (∀ (s : State) (since limit : Nat), s.sup.op ≠ .halted → s.off.phase = .ending since limit →
    s.shipsOut = true →
    (since + limit ≤ s.sup.elapsed → s.patrolStill →
      ∃ t, Sys2Proof.Machine.exec .closeAbandon s = .next t ∧ t.shipsOut = false ∧
        (s.off.link = .up → Output.offsite .close ∈ t.sent)) ∧
    (s.sup.elapsed < since + limit → Sys2Proof.Machine.exec .closeAbandon s = .next { s with sent := [] }))

/-- R124 to R126, R132 to R135: the walks and the forecast of a night. A count visit counts the SHIP chunks of
the extent's version that the target holds and the base does not cover: all 16 without a base, and with one
those whose codes differ from the base's version. A ship visit places the entries, one for each chunk, or one
EMPTY. At an interval's end the rate becomes (3r + acknowledged KiB / 60) / 4 where the direction was SHIP.
The forecast is 256 KiB for each chunk counted of the SHIPPING volumes, by the rate, rounded up; under
INTERNAL it fits where clock, forecast and reserve margin come to the close instant or less, and while it does
not the SHIPPING scope of lowest priority is shed. Where it
rests on the model's reading, log entry 12 says so. -/
def Obligations.WalksFormTheChangeSetAndTheForecastSheds : Prop :=
  (∀ (s : State) (vol : Nat) (p : PlanVol) (v : Volume), s.sup.op = .standby ∨ s.sup.op = .active → s.calm →
    s.off.phase = .windowOpen → s.planOf vol = some p → p.state = .shipping → s.volume vol = some v →
    p.countCursor < v.count → s.damaged vol p.countCursor = false →
    ∃ t q, Sys2Proof.Machine.exec (.countWalkVisit vol []) s = .next t ∧ t.planOf vol = some q ∧
      q.countCursor = p.countCursor + 1 ∧ q.state = .shipping ∧
      ((∀ x, (s.extent vol p.countCursor).heldAt p.target = some x → x.birth ≤ p.base) →
        q.shipCount = p.shipCount) ∧
      (∀ x, (s.extent vol p.countCursor).heldAt p.target = some x → p.base < x.birth → 0 < x.occ →
        x.repair ≠ .unrepairable → p.base = 0 → q.shipCount = p.shipCount + 16) ∧
      (∀ x w, (s.extent vol p.countCursor).heldAt p.target = some x → p.base < x.birth → 0 < x.occ →
        x.repair ≠ .unrepairable → 0 < p.base → (s.extent vol p.countCursor).heldAt p.base = some w →
        w.codes.length = 16 →
        q.shipCount = p.shipCount +
          ((List.range 16).filter fun k => decide (w.codes[k]? ≠ x.codes[k]?)).length)) ∧
  (∀ (s : State) (p : PlanVol) (v : Volume) (x : Version), s.sup.op = .standby ∨ s.sup.op = .active → s.calm →
    s.off.phase = .windowOpen → s.off.plan = [p] → p.state = .shipping → s.volume p.vol = some v →
    v.shipCursor < v.count → v.shipCursor < p.countCursor → s.damaged p.vol v.shipCursor = false →
    (s.extent p.vol v.shipCursor).heldAt p.target = some x → p.base = 0 → 0 < x.birth →
    s.off.queue.length + 16 ≤ 256 →
    ∃ t, Sys2Proof.Machine.exec (.shipWalkVisit []) s = .next t ∧
      t.volume p.vol = some { v with shipCursor := v.shipCursor + 1 } ∧
      (0 < x.occ → x.repair = .sound → t.off.queue = s.off.queue ++ (List.range 16).map fun i =>
        { num := s.off.nextEntry + i, vol := p.vol, ext := v.shipCursor, birth := x.birth, form := .ship,
          chunks := [i], code := some (x.codeAt i), last := decide (i = 15), failMark := false,
          state := .unpulled, slot := none }) ∧
      (x.occ = 0 → t.off.queue = s.off.queue ++
        [{ num := s.off.nextEntry, vol := p.vol, ext := v.shipCursor, birth := x.birth, form := .empty,
           chunks := [], code := none, last := true, failMark := false, state := .ready, slot := none }])) ∧
  (∀ (s : State) (p : PlanVol), s.sup.op = .active → s.calm → s.off.phase = .windowOpen →
    s.off.intervalStart + 60 ≤ s.sup.elapsed → p ∈ s.off.plan → p.state = .shipping → s.internal = false →
    ∃ t, Sys2Proof.Machine.exec .forecastIntervalEnd s = .next t ∧
      t.off.rate = (if s.off.sawShip then (3 * s.off.rate + s.off.acked / 60) / 4 else s.off.rate) ∧
      t.off.intervalStart = s.off.intervalStart + 60 ∧ t.off.acked = 0 ∧
      t.off.shedScopes = s.off.shedScopes) ∧
  (∀ (s : State) (p q : PlanVol) (c : Nat), s.sup.op = .active → s.calm → s.off.phase = .windowOpen →
    s.off.intervalStart + 60 ≤ s.sup.elapsed → s.off.sawShip = false → s.internal = true →
    s.off.plan = [p, q] → p.state = .shipping → q.state = .shipping → p.vol ≠ q.vol →
    s.off.shedScopes = [] → s.off.closeInstant = some c →
    ((tget s.sup.settings.scopes p.scope).getD Scope.initial).priority <
      ((tget s.sup.settings.scopes q.scope).getD Scope.initial).priority →
    ∃ t, Sys2Proof.Machine.exec .forecastIntervalEnd s = .next t ∧ t.off.rate = s.off.rate ∧
      ((256 * (p.shipCount + q.shipCount) = 0 ∨ 0 < s.off.rate) →
        s.sup.clock + (256 * (p.shipCount + q.shipCount) + s.off.rate - 1) / s.off.rate +
          s.sup.settings.reserveMargin ≤ c → t.off.shedScopes = [] ∧ t.off.lastFit = true) ∧
      (¬ ((256 * (p.shipCount + q.shipCount) = 0 ∨ 0 < s.off.rate) ∧
        s.sup.clock + (256 * (p.shipCount + q.shipCount) + s.off.rate - 1) / s.off.rate +
          s.sup.settings.reserveMargin ≤ c) → t.off.shedScopes = [p.scope] ∧ t.off.nShed = s.off.nShed + 1 ∧
        (∃ p', t.planOf p.vol = some p' ∧ p'.state = .shed) ∧
        (∃ q', t.planOf q.vol = some q' ∧ q'.state = .shipping) ∧
        t.sup.raised[5]? = (s.sup.raised[5]?).map countUp)) ∧
  (∀ s : State, s.sup.op ≠ .halted → s.off.phase ≠ .windowOpen ∨ s.sup.elapsed < s.off.intervalStart + 60 →
    ∃ t, Sys2Proof.Machine.exec .forecastIntervalEnd s = .next t ∧ offSettles s.off t.off)

/-- R127, R110, R114, R128: a pull run starts at the earliest UNPULLED entry with a SHIP slot granted; with a
place free its PULL goes to the owning link, names the version's location and chunks, and makes its entries
PULLING. A chunk that compares equal fills its slot and its entry is READY; one not of 262,144 bytes is
discarded and counted. At the end of a pull, chunks not received go back to UNPULLED, marked. Where it rests
on the model's reading, log entry 29 says so. -/
def Obligations.PullsBringChunksToSlots : Prop :=
  (∀ (s : State) (e : ShipEntry) (p : PlanVol) (v : Version) (i m loc : Nat), s.calm → s.pullsGo = true →
    s.str.waitShip = [] → s.str.waitRepair = [] → s.str.waitFetch = [] → s.off.queue = [e] →
    s.off.pulls = [] → e.state = .unpulled → e.form = .ship → e.chunks = [i] → s.planOf e.vol = some p →
    p.state = .shipping → (s.extent e.vol e.ext).version e.birth = some v → v.loc = some loc →
    s.str.slots.length < 64 → m < 64 → s.slot m = none →
    (4 - s.slotsHeld .repair) + (8 - s.slotsHeld .fetch) ≤ 64 - s.str.slots.length - 1 →
    ∃ t n x, Sys2Proof.Machine.exec .pullRun s = .next t ∧
      t.off.pulls =
        [{ n := s.off.nextPull, vol := e.vol, ext := e.ext, birth := e.birth, loc := loc, first := i,
           count := 1, stage := .place, cut := false }] ∧
      s.slot n = none ∧ t.slot n = some x ∧ x.state = .filling ∧ x.cls = .ship ∧
      x.holder = .shipPull s.off.nextPull ∧ x.idx = i ∧ x.expected = e.code.getD 0) ∧
  (∀ (s : State) (p : ShipPull) (q : PlanVol) (l : Link) (v : Version), s.calm → s.pullsGo = true →
    s.off.pulls = [p] → p.stage = .place → s.ownerOf p.vol = some l → s.planOf p.vol = some q →
    q.state = .shipping → (s.link l).up = true → (s.link l).directives.length < 16 →
    (s.link l).placeWaits = [] → s.damaged p.vol p.ext = false → v ∈ (s.extent p.vol p.ext).versions →
    v.loc = some p.loc →
    ∃ t d, Sys2Proof.Machine.exec (.pull p.n []) s = .next t ∧
      t.off.pulls = [{ p with stage := .issued }] ∧ (t.link l).directives = (s.link l).directives ++ [d] ∧
      d.kind = .pull ∧ d.issuer = .shipPull p.n ∧ d.refs = [(p.vol, p.ext, p.loc)] ∧
      TxFrame.directive d.tag (.pull p.loc p.first p.count false) ∈ (t.link l).tx ∧
      ∀ e ∈ s.off.queue, e.isOf p.vol p.ext p.birth = true → e.state = .unpulled →
        p.first ≤ e.chunks.headD 0 → e.chunks.headD 0 < p.first + p.count →
        { e with state := .pulling p.n } ∈ t.off.queue) ∧
  (∀ (s : State) (l : Link) (tag idx n : Nat) (data : List Byte) (d : Directive) (p : ShipPull) (x : Slot)
    (e : ShipEntry), s.sup.op = .active → s.calm → (s.link l).up = true → s.directive l tag = some d →
    d.kind = .pull → d.issuer = .shipPull p.n → s.off.pulls = [p] → s.slot n = some x →
    s.slotFor (.shipPull p.n) idx = some (n, x) → x.state = .filling → data.length = 262144 →
    checkCode data = x.expected → s.off.queue = [e] → e.state = .pulling p.n → e.chunks = [idx] →
    s.off.phase = .windowOpen → s.pullLost p = false → p.cut = false → s.str.waitRepair = [] →
    s.str.waitFetch = [] →
    ∃ t, Sys2Proof.Machine.exec (.extentData l tag idx data) s = .next t ∧
      t.slot n = some { x with
        data := data, computed := checkCode data, state := .full, fullOrder := s.str.nextFull } ∧
      { e with state := .ready, slot := some n } ∈ t.off.queue) ∧
  (∀ (s : State) (l : Link) (tag idx : Nat) (data : List Byte), s.sup.op ≠ .halted → (s.link l).up = true →
    s.patrolStill → data.length ≠ 262144 →
    ∃ t, Sys2Proof.Machine.exec (.extentData l tag idx data) s = .next t ∧
      (t.link l).discarded = (s.link l).discarded + 1 ∧ t.str.slots = s.str.slots ∧ t.rst = s.rst) ∧
  (∀ (s : State) (l : Link) (tag : Nat) (d : Directive) (p : ShipPull) (c : Instr), s.sup.op ≠ .halted →
    s.calm → (s.link l).up = true → s.directive l tag = some d → d.kind = .pull → d.issuer = .shipPull p.n →
    s.off.pulls = [p] → s.off.phase = .windowOpen → s.pullLost p = false →
    (∀ e ∈ s.off.queue, e.state = .pulling p.n → e.failMark = false) → (s.off.queue.map ShipEntry.num).Nodup →
    (∀ q ∈ s.off.plan, q.state ≠ .shed ∧ q.state ≠ .failed) → c = .pullEnd l tag ∨ c = .pullFail l tag →
    ∃ t, Sys2Proof.Machine.exec c s = .next t ∧ t.off.pulls = [] ∧
      (∀ x ∈ (t.link l).directives, x.tag ≠ tag) ∧
      (∀ kv ∈ t.str.slots, kv.2.holder = .shipPull p.n → kv.2.state ≠ .filling) ∧
      t.off.queue = s.off.queue.map fun e =>
        if e.state = .pulling p.n then { e with state := .unpulled, slot := none, failMark := true } else e)

/-! ### The offsite link -/

/-- R130, R131, R143, R149, R153: in SHIP, with room in the list, the first READY entry is transmitted under
the next number and becomes OUTSTANDING, its slot SENDING; the 16th frame of a ship turn ends the turn, and a
drain to FETCH begins where fetch work waits. A READY entry whose frame is vacant goes into that frame under
its number, in its place. A volume wholly acknowledged becomes AWAITING_DONE and its VOLUME_DONE goes; a
pending DROP at the head goes, where no vacant frame stands ahead. Each new frame joins the outstanding-frame
list. Where it rests on the model's reading, log entry 32 says so. -/
def Obligations.ShipFramesJoinTheList : Prop :=
  (∀ (s : State) (e : ShipEntry) (rest : List ShipEntry) (p : PlanVol), s.sup.op ≠ .halted → s.calm →
    s.off.phase = .windowOpen → s.shipMay = true → s.off.controls = [] → s.off.withdrawnNums = [] →
    (∀ f ∈ s.off.outstanding, f.vacant = false) → s.off.queue = e :: rest → e.state = .ready →
    s.planOf e.vol = some p →
    ∃ t f, Sys2Proof.Machine.exec (.ship []) s = .next t ∧ t.off.outstanding = s.off.outstanding ++ [f] ∧
      f.num = s.off.seqCounter ∧ f.body = .ship e.num e.vol e.ext e.birth p.target p.base e.chunks ∧
      f.received = false ∧ f.naks = 0 ∧ f.vacant = false ∧
      t.off.seqCounter = (s.off.seqCounter + 1) % 65536 ∧
      Output.offsite (.ship s.off.seqCounter e.vol p.target p.base e.ext e.birth e.form e.chunks e.code
        (match e.slot.bind s.slot with
         | some x => x.data
         | none => [])) ∈ t.sent ∧
      { e with state := .outstanding } ∈ t.off.queue ∧
      (∀ n x, e.slot = some n → s.slot n = some x →
        t.slot n = some { x with state := .sending, seq := some s.off.seqCounter }) ∧
      ∀ k, s.off.shipTurn = some k → 15 ≤ k → s.off.fetchQueue ≠ [] → t.off.dir = .draining .toFetch) ∧
  (∀ (s : State) (f : OutFrame) (fs rest : List OutFrame) (e : ShipEntry) (p : PlanVol) (target base : Nat),
    s.sup.op ≠ .halted → s.calm → s.off.phase = .windowOpen → s.off.link = .up → s.off.dir = .ship →
    s.off.outstanding = fs ++ f :: rest → s.off.outstanding.Nodup → (∀ g ∈ fs, g.vacant = false) →
    f.vacant = true → f.body = .ship e.num e.vol e.ext e.birth target base e.chunks → s.entry e.num = some e →
    e.state = .ready → s.planOf e.vol = some p →
    ∃ t, Sys2Proof.Machine.exec (.ship []) s = .next t ∧
      t.off.outstanding = fs ++ { f with vacant := false } :: rest ∧ t.off.seqCounter = s.off.seqCounter ∧
      Output.offsite (.ship f.num e.vol p.target p.base e.ext e.birth e.form e.chunks e.code
        (match e.slot.bind s.slot with
         | some x => x.data
         | none => [])) ∈ t.sent ∧
      { e with state := .outstanding } ∈ t.off.queue) ∧
  (∀ (s : State) (p : PlanVol) (v : Volume), s.sup.op ≠ .halted → s.calm → s.off.phase = .windowOpen →
    s.off.plan = [p] → p.state = .shipping → s.volume p.vol = some v → v.count ≤ p.countCursor →
    v.count ≤ v.shipCursor → s.off.queue = [] → s.off.pulls = [] → s.off.controls = [] →
    s.off.fetchQueue = [] → s.off.roomWaits = [] → s.off.link = .up → s.off.dir = .idle →
    s.off.outstanding = [] → s.off.withdrawnNums = [] →
    ∃ t f, Sys2Proof.Machine.exec .volumeDone s = .next t ∧ t.off.plan = [{ p with state := .awaitingDone }] ∧
      t.off.outstanding = [f] ∧ f.num = s.off.seqCounter ∧
      f.body = .control (.volumeDone p.vol p.target p.base p.acked) ∧
      Output.offsite (.volumeDone s.off.seqCounter p.vol p.target p.base p.acked) ∈ t.sent) ∧
  (∀ (s : State) (vol gen : Nat) (rest : List Control), s.sup.op ≠ .halted → s.calm → s.shipMay = true →
    s.off.controls = .drop vol gen :: rest → s.off.withdrawnNums = [] →
    (∀ f ∈ s.off.outstanding, f.vacant = false) →
    ∃ t f, Sys2Proof.Machine.exec .drop s = .next t ∧ t.off.outstanding = s.off.outstanding ++ [f] ∧
      f.num = s.off.seqCounter ∧ f.body = .control (.drop vol gen) ∧ t.off.controls = rest ∧
      Output.offsite (.drop s.off.seqCounter vol gen) ∈ t.sent)

/-- R144, R130, R146, R131, R81: the peer's answers. ACK removes the SHIP frame it names and its entry, counts
it, frees its slot and makes the version shipped with the last entry; it covers every SHIP-direction frame
before the one it names, of which a VOLUME_DONE or DROP stays, marked received, and a vacant one leaves its
entry; a frame not covered before makes it progress. The first NAK resends the frame from its slot, the second
withdraws it and fails its volume, with SHIP_REJECTED counted. DONE_ACK writes the offsite mark, sets
the target offsite-held and completes the volume. DROP_ACK clears offsite-held: a snapshot dropped from ACTIVE
is ACTIVE again, one dropped from OFFSITE_ONLY begins its drop sweep. Where it rests on the model's reading,
log entries 32 and 43 say so. -/
def Obligations.PeerAnswersSettleShipFrames : Prop :=
  (∀ (s : State) (f : OutFrame) (e : ShipEntry) (p : PlanVol) (v : Version) (n k target base : Nat) (x : Slot),
    s.sup.op ≠ .halted → s.calm → s.off.link = .up → s.off.outstanding = [f] →
    f.body = .ship e.num e.vol e.ext e.birth target base e.chunks → f.vacant = false → f.num = n →
    s.off.queue = [e] → e.form = .ship → e.slot = some k → s.slot k = some x → x.state = .awaitingAck →
    s.planOf e.vol = some p → v ∈ (s.extent e.vol e.ext).versions → v.birth = e.birth →
    s.damaged e.vol e.ext = false →
    ∃ t q, Sys2Proof.Machine.exec (.ack n) s = .next t ∧ t.off.outstanding = [] ∧ t.off.queue = [] ∧
      t.slot k = none ∧ t.off.acked = s.off.acked + 256 ∧ t.planOf e.vol = some q ∧
      q.acked = p.acked + 1 ∧ q.shipCount = p.shipCount - 1 ∧
      (e.last = true → { v with shipped := true } ∈ (t.extent e.vol e.ext).versions) ∧
      (e.last = false → v ∈ (t.extent e.vol e.ext).versions)) ∧
  (∀ (s : State) (fs rest : List OutFrame) (f : OutFrame) (n : Nat), s.sup.op ≠ .halted → s.calm →
    s.off.link = .up → s.off.outstanding = fs ++ f :: rest →
    (∀ g ∈ fs, g.body.isShip = true → g.num ≠ n) → f.body.isShip = true → f.num = n →
    (∀ p ∈ s.off.plan, p.state ≠ .shed ∧ p.state ≠ .failed) →
    ∃ t, Sys2Proof.Machine.exec (.ack n) s = .next t ∧
      t.off.outstanding = ((fs ++ [f]).filterMap fun g => match g.body with
        | .ship .. => none
        | .control _ => some { g with received := true }
        | .fetch _ _ => some g) ++ rest ∧
      t.off.queue = s.off.queue.filter (fun e => !((fs ++ [f]).any fun g => g.entryNum == some e.num)) ∧
      ((∃ g ∈ fs ++ [f], g.body.isShip = true ∧ g.received = false) →
        t.off.expiries = 0 ∧ t.off.ackStart = s.sup.elapsed ∧
        t.off.ackLimit = s.sup.settings.ackWait)) ∧
  (∀ (s : State) (n : Nat), s.sup.op ≠ .halted → s.calm →
    s.off.link ≠ .up ∨ (∀ f ∈ s.off.outstanding, f.body.isShip = true → f.num ≠ n) →
    (∃ t, Sys2Proof.Machine.exec (.ack n) s = .next t ∧ t.off.outstanding = s.off.outstanding ∧
      t.cat = s.cat) ∧
    ∃ t, Sys2Proof.Machine.exec (.nak n 1) s = .next t ∧ t.off.outstanding = s.off.outstanding ∧
      t.cat = s.cat) ∧
  (∀ (s : State) (f : OutFrame) (e : ShipEntry) (p : PlanVol) (reason target base : Nat),
    s.sup.op ≠ .halted → s.calm → s.off.link = .up → s.off.outstanding = [f] →
    f.body = .ship e.num e.vol e.ext e.birth target base e.chunks → f.vacant = false → f.received = false →
    s.off.queue = [e] → s.planOf e.vol = some p → p.state = .shipping →
    ∃ t, Sys2Proof.Machine.exec (.nak f.num reason) s = .next t ∧
      (f.naks = 0 → t.off.outstanding = [{ f with naks := 1 }] ∧
        Output.offsite (.ship f.num e.vol target base e.ext e.birth e.form e.chunks e.code
          (match e.slot.bind s.slot with
           | some x => x.data
           | none => [])) ∈ t.sent ∧
        ∀ k x, e.slot = some k → s.slot k = some x → t.slot k = some { x with state := .sending }) ∧
      (f.naks = 1 → t.off.outstanding = [] ∧ f.num ∈ t.off.withdrawnNums ∧
        (∃ q, t.planOf e.vol = some q ∧ q.state = .failed) ∧
        t.sup.raised[7]? = (s.sup.raised[7]?).map countUp)) ∧
  (∀ (s : State) (vol target : Nat) (p : PlanVol) (v : Volume) (q : Snapshot), s.sup.op ≠ .halted → s.calm →
    s.off.link = .up → s.planOf vol = some p → p.state = .awaitingDone → p.target = target →
    s.volume vol = some v → s.snapshot vol target = some q →
    ∃ t p' q', Sys2Proof.Machine.exec (.doneAck vol target) s = .next t ∧
      t.volume vol = some { v with mark := target } ∧ t.snapshot vol target = some q' ∧ q'.held = true ∧
      t.planOf vol = some p' ∧ p'.state = .complete ∧ t.off.nComplete = s.off.nComplete + 1) ∧
  (∀ (s : State) (vol gen : Nat) (q : Snapshot) (a : Bool) (c : Option Nat), s.sup.op ≠ .halted →
    s.off.link = .up → s.snapshot vol gen = some q → q.held = true → q.state = .dropping a c →
    q.kind = .manual →
    ∃ t, Sys2Proof.Machine.exec (.dropAck vol gen) s = .next t ∧
      (a = true → t.snapshot vol gen = some { q with held := false, state := .active }) ∧
      (a = false → t.snapshot vol gen = some { q with held := false, state := .dropping false (some 0) })) ∧
  (∀ (s : State) (vol gen : Nat) (q : Snapshot), s.sup.op ≠ .halted → s.snapshot vol gen = some q →
    s.off.link ≠ .up ∨ q.held = false ∨ (∀ a c, q.state ≠ .dropping a c) →
    ∃ t, Sys2Proof.Machine.exec (.dropAck vol gen) s = .next t ∧ t.snapshot vol gen = some q)

/-- R180: Offsite Open outside ACTIVE is answered WRONG_STATE; with the link OPENING or UP it is DONE with no
change; with the link DOWN or FAULTED it starts an opening at once and is ACCEPTED. A link that has had no work
for 300 seconds is closed. -/
def Obligations.OffsiteOpenAsksForAnOpening : Prop :=
  (∀ (s : State) (l : Link) (tag : Nat), s.sup.op = .loading ∨ s.sup.op = .holdup → (s.link l).up = true →
    ∃ t, Sys2Proof.Machine.exec (.offsiteOpen l tag) s = .next t ∧
      Answered s t l tag .offsiteOpen .wrongState .none ∧ Spared s t) ∧
  (∀ (s : State) (l : Link) (tag : Nat), s.takes l → s.patrolStill →
    ∃ t, Sys2Proof.Machine.exec (.offsiteOpen l tag) s = .next t ∧
      (s.sup.op = .standby → Answered s t l tag .offsiteOpen .wrongState .none ∧ Spared s t) ∧
      (s.sup.op = .active → s.off.link = .up ∨ (∃ n, s.off.link = .opening n) →
        Answered s t l tag .offsiteOpen .done .none ∧ Spared s t) ∧
      (s.sup.op = .active → s.off.link = .down ∨ (∃ since, s.off.link = .faulted since) →
        Answered s t l tag .offsiteOpen .accepted .none ∧ t.off.link = .opening 1 ∧ t.off.dir = .idle ∧
        t.off.seqCounter = 0 ∧ t.off.reqCounter = 0 ∧ Output.offsite (.open 0 16) ∈ t.sent)) ∧
  (∀ (s : State) (since : Nat), s.sup.op ≠ .halted → s.calm → s.off.idleSince = some since →
    s.off.link = .up → s.off.phase = .closed → s.off.outstanding = [] → s.off.fetchQueue = [] →
    s.off.controls = [] → s.off.roomWaits = [] → since + 300 ≤ s.sup.elapsed →
    ∃ t, Sys2Proof.Machine.exec .offsiteIdleTimeout s = .next t ∧ t.off.link = .down ∧ t.off.dir = .idle ∧
      Output.offsite .close ∈ t.sent)

/-- R139, R140, R145, R147, R154: the link's states. OPEN_ACK brings an opening link UP with its direction
chosen. At the ack wait limit OPEN is sent again, up to 4 in all, and frames outstanding that are neither
covered nor vacant are resent in their order, each under its number, a SHIP frame from its slot, which is
SENDING again, up to two expiries; then, and at carrier loss, the link is FAULTED, every frame is given back as
Table 8-4 says, and LINK_FAULT is counted; in STANDBY a lost carrier leaves it DOWN (log entry 16). At the
reopen interval it is opened where work waits. Before its time an expiry changes nothing (log entry 12). -/
def Obligations.OffsiteLinkOpensFaultsAndCloses : Prop :=
  (∀ (s : State) (n : Nat), s.sup.op ≠ .halted → s.calm → s.off.link = .opening n → s.off.roomWaits = [] →
    s.off.outstanding = [] →
    ∃ t, Sys2Proof.Machine.exec .openAck s = .next t ∧ t.off.link = .up ∧ t.off.expiries = 0 ∧
      (s.off.fetchQueue ≠ [] → t.off.dir = .fetch) ∧
      (s.off.fetchQueue = [] → s.off.controls ≠ [] → t.off.dir = .ship) ∧
      (s.off.fetchQueue = [] → s.off.controls = [] → s.off.phase = .closed → t.off.dir = .idle)) ∧
  (∀ s : State, s.sup.op ≠ .halted → (∀ n, s.off.link ≠ .opening n) →
    Sys2Proof.Machine.exec .openAck s = .next { s with sent := [] }) ∧
  (∀ (s : State) (n : Nat), s.sup.op ≠ .halted → s.calm → s.off.link = .opening n →
    s.off.ackStart + s.off.ackLimit ≤ s.sup.elapsed →
    ∃ t, Sys2Proof.Machine.exec .ackWaitExpiry s = .next t ∧
      (n < 4 → t.off.link = .opening (n + 1) ∧ t.off.ackStart = s.sup.elapsed ∧
        Output.offsite (.open 0 16) ∈ t.sent) ∧
      (4 ≤ n → t.off.link = .faulted s.sup.elapsed ∧ t.sup.raised[8]? = (s.sup.raised[8]?).map countUp)) ∧
  (∀ s : State, s.sup.op ≠ .halted → s.calm → s.off.link = .up → s.off.outstanding ≠ [] →
    s.off.ackStart + s.off.ackLimit ≤ s.sup.elapsed → s.off.dir ≠ .draining .toClose →
    ∃ t, Sys2Proof.Machine.exec .ackWaitExpiry s = .next t ∧
      (s.off.expiries < 2 → t.off.link = .up ∧ t.off.expiries = s.off.expiries + 1 ∧
        t.off.outstanding = s.off.outstanding ∧ t.off.ackStart = s.sup.elapsed ∧
        s.off.outstanding.filterMap s.sentAgain <+: t.sent ∧
        ∀ f ∈ s.off.outstanding, ∀ num e k x, f.entryNum = some num → s.entry num = some e →
          e.slot = some k → s.slot k = some x → t.slot k = some { x with state := .sending }) ∧
      (2 ≤ s.off.expiries → t.off.link = .faulted s.sup.elapsed ∧ t.off.outstanding = [] ∧
        t.off.expiries = 0 ∧ t.off.dir = .idle ∧ t.sup.raised[8]? = (s.sup.raised[8]?).map countUp ∧
        (s.nightEnding = false → s.off.roomWaits = [] →
          (∀ p ∈ s.off.plan, p.state ≠ .shed ∧ p.state ≠ .failed) → GivenBack s t))) ∧
  (∀ s : State, s.sup.op ≠ .halted → s.sup.elapsed < s.off.ackStart + s.off.ackLimit →
    Sys2Proof.Machine.exec .ackWaitExpiry s = .next { s with sent := [] }) ∧
  (∀ s : State, s.sup.op ≠ .halted → s.calm → s.off.link = .up ∨ (∃ n, s.off.link = .opening n) →
    ∃ t, Sys2Proof.Machine.exec .carrierLoss s = .next t ∧ t.off.outstanding = [] ∧ t.off.dir = .idle ∧
      t.sup.raised[8]? = (s.sup.raised[8]?).map countUp ∧
      (s.sup.op ≠ .standby → t.off.link = .faulted s.sup.elapsed) ∧
      (s.sup.op = .standby → t.off.link = .down) ∧
      (s.nightEnding = false → s.off.roomWaits = [] →
        (∀ p ∈ s.off.plan, p.state ≠ .shed ∧ p.state ≠ .failed) → GivenBack s t)) ∧
  (∀ (s : State) (since : Nat), s.sup.op ≠ .halted → s.calm → s.off.link = .faulted since →
    (since + s.sup.settings.reopenInterval ≤ s.sup.elapsed →
      ∃ t, Sys2Proof.Machine.exec .reopenIntervalExpiry s = .next t ∧
        (s.sup.op = .active → s.workWaits = true → t.off.link = .opening 1) ∧
        (s.sup.op ≠ .active ∨ s.workWaits = false → t.off.link = .faulted s.sup.elapsed)) ∧
    (s.sup.elapsed < since + s.sup.settings.reopenInterval →
      Sys2Proof.Machine.exec .reopenIntervalExpiry s = .next { s with sent := [] })) ∧
  (∀ (s : State) (since : Nat), s.sup.op ≠ .halted → s.calm → s.off.idleSince = some since →
    s.off.link = .up → s.off.phase = .closed → s.off.outstanding = [] → s.off.fetchQueue = [] →
    s.off.controls = [] → s.off.roomWaits = [] →
    (s.sup.elapsed < since + 300 →
      Sys2Proof.Machine.exec .offsiteIdleTimeout s = .next { s with sent := [] }))

/-- R151, R152, R110, R94: the head of the Fetch Queue is given a slot of its class, and its FETCH_REQ goes in
FETCH under the next request number. A chunk that compares equal fills its slot; the first that differs is
fetched again; the empty marker of a step is done at FETCH_EMPTY; FETCH_NONE fails the step and the restore.
An answer that names no FETCH_REQ has no effect. R148, R149: in SHIP with no ship turn and frames outstanding,
fetch work begins a drain to FETCH; a burst ends at its 32nd FETCH_REQ or with the queue's last, in a drain to
SHIP where ship work waits, in a new burst where fetch work alone does; the drain's end makes the direction
FETCH with a burst at 0, or SHIP with a ship turn at 0. Where it rests on the model's reading, log entries 43
and 64 say so. -/
def Obligations.FetchesAreServedAndAnswered : Prop :=
  (∀ (s : State) (e : FetchEntry) (rec i k m : Nat), s.sup.op ≠ .halted → s.sup.op ≠ .holdup → s.calm →
    s.off.link = .up → s.off.dir = .fetch → s.off.fetchQueue = [e] → s.off.roomWaits = [] →
    e.holder = .step rec i → e.idx = some k → s.slotFor (.step rec i) k = none → s.str.waitRepair = [] →
    s.str.waitFetch = [] → s.str.slots.length < 64 → m < 64 → s.slot m = none →
    ∃ t n x, Sys2Proof.Machine.exec .fetchQueueServe s = .next t ∧ s.slot n = none ∧ t.slot n = some x ∧
      x.state = .filling ∧ x.cls = .fetch ∧ x.holder = .step rec i ∧ x.idx = k ∧ x.expected = e.code) ∧
  (∀ (s : State) (e : FetchEntry) (rest : List FetchEntry), s.sup.op ≠ .halted → s.calm →
    s.fetchMay = true → s.off.fetchQueue = e :: rest → s.off.roomWaits = [] → s.needsSlot e = false →
    ∃ t f, Sys2Proof.Machine.exec .fetchReq s = .next t ∧ t.off.outstanding = s.off.outstanding ++ [f] ∧
      f.num = s.off.reqCounter ∧ f.body = .fetch e false ∧ t.off.fetchQueue = rest ∧
      t.off.reqCounter = (s.off.reqCounter + 1) % 65536 ∧
      Output.offsite (.fetchReq s.off.reqCounter e.vol e.ext e.birth e.idx e.code) ∈ t.sent) ∧
  (∀ (s : State) (f : OutFrame) (e : FetchEntry) (rec i k n : Nat) (data : List Byte) (r : Restore)
    (x : Step) (y : Slot), s.sup.op ≠ .halted → s.calm → s.off.link = .up → s.off.outstanding = [f] →
    f.body = .fetch e false → e.holder = .step rec i → e.idx = some k →
    s.slotFor (.step rec i) k = some (n, y) → s.slot n = some y → y.state = .filling →
    data.length = 262144 → s.restore rec = some r → r.steps[i]? = some x →
    ∃ t, Sys2Proof.Machine.exec (.fetchData f.num data) s = .next t ∧ t.off.outstanding = [] ∧
      (checkCode data = y.expected → t.rst = s.rst ∧ t.slot n = some { y with
        data := data, computed := checkCode data, state := .full, fullOrder := s.str.nextFull }) ∧
      (checkCode data ≠ y.expected → k ∉ x.refetched → ∀ v, s.sourceOf r i = some v →
        t.slot n = none ∧ ∃ r' x', t.restore rec = some r' ∧ r'.steps[i]? = some x' ∧ k ∈ x'.refetched ∧
          r'.state = r.state) ∧
      (checkCode data ≠ y.expected → k ∈ x.refetched → r.state = .running → x.state = .fetching →
        ∃ r', t.restore rec = some r' ∧
        r'.state = .failed ∧ r'.failedStep = some (i, .code))) ∧
  (∀ (s : State) (f : OutFrame) (e : FetchEntry) (rec i : Nat) (r : Restore) (x : Step),
    s.sup.op ≠ .halted → s.off.link = .up → s.off.outstanding = [f] → f.body = .fetch e false →
    e.holder = .step rec i → s.restore rec = some r → r.steps[i]? = some x →
    (e.idx = none → ∃ t, Sys2Proof.Machine.exec (.fetchEmpty f.num) s = .next t ∧
      t.restore rec = some { r with steps := r.steps.set i { x with marker := true } }) ∧
    (r.state = .running → x.state = .fetching → ∃ t r',
      Sys2Proof.Machine.exec (.fetchNone f.num 1) s = .next t ∧
      t.restore rec = some r' ∧ r'.state = .failed ∧ r'.failedStep = some (i, .fetchNone))) ∧
  (∀ (s : State) (num reason : Nat) (data : List Byte), s.sup.op ≠ .halted →
    s.off.link ≠ .up ∨ (∀ f ∈ s.off.outstanding, f.body.isShip = false → f.num ≠ num) →
    Sys2Proof.Machine.exec (.fetchData num data) s = .next { s with sent := [] } ∧
      Sys2Proof.Machine.exec (.fetchEmpty num) s = .next { s with sent := [] } ∧
      Sys2Proof.Machine.exec (.fetchNone num reason) s = .next { s with sent := [] }) ∧
  (∀ s : State, s.sup.op ≠ .halted → s.calm → s.off.link = .up → s.off.dir = .ship → s.off.shipTurn = none →
    s.off.fetchQueue ≠ [] → s.off.outstanding ≠ [] →
    ∃ t, Sys2Proof.Machine.exec .fetchQueueServe s = .next t ∧ t.off.dir = .draining .toFetch) ∧
  (∀ (s : State) (e : FetchEntry) (rest : List FetchEntry), s.sup.op ≠ .halted → s.calm →
    s.fetchMay = true → s.off.fetchQueue = e :: rest → s.off.roomWaits = [] → s.needsSlot e = false →
    ∃ t, Sys2Proof.Machine.exec .fetchReq s = .next t ∧
      (rest = [] ∨ 31 ≤ s.off.burst → s.off.controls ≠ [] → t.off.dir = .draining .toShip) ∧
      (rest ≠ [] → 31 ≤ s.off.burst → s.off.controls = [] → s.off.phase ≠ .windowOpen →
        t.off.dir = .fetch ∧ t.off.burst = 0) ∧
      (rest ≠ [] → s.off.burst < 31 → t.off.dir = .fetch ∧ t.off.burst = s.off.burst + 1)) ∧
  (∀ (s : State) (f : OutFrame), s.sup.op ≠ .halted → s.calm → s.off.link = .up →
    s.off.dir = .draining .toFetch → s.off.outstanding = [f] →
    (∃ num vol ext birth target base cs, f.body = .ship num vol ext birth target base cs) →
    s.off.fetchQueue ≠ [] →
    ∃ t, Sys2Proof.Machine.exec (.ack f.num) s = .next t ∧ t.off.outstanding = [] ∧ t.off.dir = .fetch ∧
      t.off.burst = 0) ∧
  (∀ (s : State) (f : OutFrame) (e : FetchEntry), s.sup.op ≠ .halted → s.calm → s.off.link = .up →
    s.off.dir = .draining .toShip → s.off.outstanding = [f] → f.body = .fetch e true → s.off.controls ≠ [] →
    ∃ t, Sys2Proof.Machine.exec (.fetchEmpty f.num) s = .next t ∧ t.off.outstanding = [] ∧
      t.off.dir = .ship ∧ t.off.shipTurn = some 0)
/-! ### Patrol and repair -/

/-- R155 to R158, R160: a walk visit in ACTIVE examines the extent at the cursor and moves on. A due SOUND
version becomes a Work List item, which waits while its link is not IDLE; a version that is not due is left
alone; a due empty version takes the clock as its verified time. Once overdue, an item is issued to the
arbiter although the link is BUSY. With its slot granted and a place free, a verifying PULL of all 16 chunks
goes out with a reference to the location. Outside ACTIVE no visit is made.
R161: an item whose version has SHIP entries or a shipping PULL folds: it leaves, and a fold entry is made. The
sixteenth equal chunk sets the verified time to the clock, and the entry ends; a chunk that differs (R129) ends
it with its Ship Queue entry PARKED and its repair opened.
R162: the outcome of a verifying pull is taken as it ends: no index bad, the clock is the verified time and a
forced item's version is SOUND; one to four, a chunk repair of them; five or more, or PULL_FAIL, a whole-version
repair. The item leaves in each case. Where it rests on the model's reading, log entries 12 and 36 say so. -/
def Obligations.PatrolPlacesIssuesAndPulls : Prop :=
  (∀ (s : State) (vol loc refs : Nat) (v : Volume) (x : Version), s.sup.op = .active → s.calm →
    s.pat.waiting = [] → s.cat.volumes = [(vol, v)] → vol < 32 → v.damage.contains v.patrolCursor = false →
    (s.extent vol v.patrolCursor).versions = [x] → x.res = .here loc refs → x.repair = .sound →
    ∃ t, Sys2Proof.Machine.exec (.patrolWalkVisit []) s = .next t ∧ t.pat.turn = vol + 1 ∧
      t.volume vol = some { v with
        patrolCursor := if v.patrolCursor + 1 < v.count then v.patrolCursor + 1 else 0 } ∧
      (s.sup.clock < x.verified + 86400 * s.sup.settings.patrolPeriod →
        t.pat.work = [] ∧ (t.extent vol v.patrolCursor).versions = [x]) ∧
      (x.verified + 86400 * s.sup.settings.patrolPeriod ≤ s.sup.clock → x.occ = 0 →
        t.pat.work = [] ∧ (t.extent vol v.patrolCursor).versions = [{ x with verified := s.sup.clock }]) ∧
      (x.verified + 86400 * s.sup.settings.patrolPeriod ≤ s.sup.clock → 0 < x.occ →
        s.sup.clock ≤ x.verified + 86400 * s.sup.settings.patrolPeriod +
          3600 * s.sup.settings.overdueLimit →
        (s.extent vol v.patrolCursor).lock = none → (s.link v.owner).idle = false →
        s.off.pulls = [] → s.off.queue = [] → ∃ w, t.pat.work = [w] ∧ w.vol = vol ∧
          w.ext = v.patrolCursor ∧ w.birth = x.birth ∧ w.loc = loc ∧ w.forced = false ∧
          w.state = .waitingIdle ∧ (t.extent vol v.patrolCursor).versions = [x])) ∧
  (∀ s : State, s.sup.op ≠ .active →
    Sys2Proof.Machine.exec (.patrolWalkVisit []) s = .next { s with sent := [] }) ∧
  (∀ (s : State) (w : WorkItem) (v : Volume) (x : Version), s.sup.op = .active → s.tallyStill →
    s.pat.work = [w] → s.pat.folds = [] → s.pat.repairs = [] → s.pat.clearing = false →
    w.state = .waitingIdle → w.forced = false → s.volume w.vol = some v → s.damaged w.vol w.ext = false →
    s.versionAt w.vol w.ext w.birth w.loc = some x → x.repair = .sound → (s.extent w.vol w.ext).lock = none →
    (s.link v.owner).idle = false → s.off.pulls = [] → s.off.queue = [] → s.str.slots = [] →
    s.str.waitRepair = [] → s.str.waitFetch = [] → s.str.waitPatrol = [] →
    x.verified + 86400 * s.sup.settings.patrolPeriod + 3600 * s.sup.settings.overdueLimit < s.sup.clock →
    ∃ t n y, Sys2Proof.Machine.exec (.versionOverdue w.vol w.ext w.birth) s = .next t ∧
      t.pat.work = [{ w with state := .place }] ∧ t.slot n = some y ∧ y.state = .filling ∧
      y.cls = .patrol ∧ y.holder = .verify w.n) ∧
  (∀ (s : State) (w : WorkItem) (v : Volume) (x : Version) (refs : Nat), s.sup.op = .active →
    s.tallyStill → s.pat.work = [w] → s.pat.folds = [] → s.pat.repairs = [] → s.pat.clearing = false →
    w.state = .place → s.eligible w.vol w.ext w.birth w.loc w.forced = true → s.volume w.vol = some v →
    s.versionAt w.vol w.ext w.birth w.loc = some x → x.res = .here w.loc refs → (s.link v.owner).up = true →
    (s.link v.owner).directives.length < 16 → (s.link v.owner).placeWaits = [] →
    ∃ t d, Sys2Proof.Machine.exec (.verifyingPull w.n []) s = .next t ∧
      t.pat.work = [{ w with state := .issued, received := [], differed := [], codes := x.codes }] ∧
      (t.link v.owner).directives = (s.link v.owner).directives ++ [d] ∧ d.kind = .pull ∧
      d.issuer = .verify w.n ∧ d.refs = [(w.vol, w.ext, w.loc)] ∧
      TxFrame.directive d.tag (.pull w.loc 0 16 true) ∈ (t.link v.owner).tx ∧
      (t.link v.owner).idle = false ∧
      { x with res := .here w.loc (refs + 1) } ∈ (t.extent w.vol w.ext).versions) ∧
  (∀ (s : State) (w : WorkItem) (v : Volume) (x : Version), s.sup.op ≠ .halted → s.tallyStill →
    s.pat.work = [w] → s.pat.folds = [] → s.pat.repairs = [] → s.pat.clearing = false →
    w.state = .waitingIdle ∨ w.state = .waitingLock → w.forced = false → s.volume w.vol = some v →
    s.damaged w.vol w.ext = false → s.versionAt w.vol w.ext w.birth w.loc = some x → x.repair = .sound →
    s.shipBound w.vol w.ext w.birth = true →
    ∃ t, Sys2Proof.Machine.exec (.versionOverdue w.vol w.ext w.birth) s = .next t ∧ t.pat.work = [] ∧
      t.pat.folds = [{ vol := w.vol, ext := w.ext, birth := w.birth, loc := w.loc, equal := [] }] ∧
      t.cat = s.cat) ∧
  (∀ (s : State) (l : Link) (tag idx n : Nat) (data : List Byte) (d : Directive) (p : ShipPull) (y : Slot)
    (e : ShipEntry) (f : Fold) (x : Version) (refs : Nat), s.sup.op = .active → s.tallyStill →
    s.pat.work = [] → s.pat.folds = [f] → s.pat.repairs = [] → s.pat.waiting = [] → s.pat.clearing = false →
    (s.link l).up = true → s.directive l tag = some d → d.kind = .pull → d.issuer = .shipPull p.n →
    s.off.pulls = [p] → p.stage = .issued → p.vol = f.vol → p.ext = f.ext → p.birth = f.birth → p.loc = f.loc →
    s.slot n = some y → s.slotFor (.shipPull p.n) idx = some (n, y) → y.state = .filling →
    data.length = 262144 → s.off.queue = [e] → e.state = .pulling p.n → e.chunks = [idx] →
    s.off.phase = .windowOpen → (s.volume f.vol).isSome = true → s.damaged f.vol f.ext = false →
    (s.extent f.vol f.ext).versions = [x] → x.birth = f.birth → x.res = .here f.loc refs → x.repair = .sound →
    (checkCode data = y.expected → f.equal.Nodup → f.equal.length = 15 → idx ∉ f.equal →
      ∃ t, Sys2Proof.Machine.exec (.extentData l tag idx data) s = .next t ∧ t.pat.folds = [] ∧
        (t.extent f.vol f.ext).versions = [{ x with verified := s.sup.clock }]) ∧
    (checkCode data ≠ y.expected → x.shipped = true →
      (∀ q ∈ s.off.plan, q.state ≠ .shed ∧ q.state ≠ .failed) →
      ∃ t, Sys2Proof.Machine.exec (.extentData l tag idx data) s = .next t ∧ t.pat.folds = [] ∧
        t.slot n = none ∧ t.off.queue = [{ e with state := .parked, slot := none }] ∧
        t.repair 0 = some
          { vol := f.vol, ext := f.ext, birth := f.birth, loc := f.loc, whole := false
            chunks := [{ idx := idx, src := .offsite, progress := .fetching, refetched := false }]
            becomeWhole := false, lost := false, abandoned := false } ∧
        (t.extent f.vol f.ext).versions = [{ x with repair := .repairing }])) ∧
  (∀ (s : State) (l : Link) (w : WorkItem) (d : Directive) (x : Version) (refs : Nat), s.sup.op ≠ .halted →
    s.tallyStill → s.pat.work = [w] → s.pat.folds = [] → s.pat.repairs = [] → s.pat.waiting = [] →
    s.pat.clearing = false → s.nightEnding = false → w.state = .issued → (s.link l).up = true →
    (s.link l).directives = [d] → (∀ k, k ≠ l → (s.link k).directives = []) → s.off.outstanding = [] →
    s.off.fetchQueue = [] → s.off.roomWaits = [] → d.kind = .pull → d.issuer = .verify w.n →
    d.refs = [(w.vol, w.ext, w.loc)] → (s.volume w.vol).isSome = true → s.damaged w.vol w.ext = false →
    (s.extent w.vol w.ext).versions = [x] → x.birth = w.birth → x.res = .here w.loc refs →
    x.repair = (if w.forced then .suspect else .sound) →
    ∀ bad, bad = (List.range 16).filter (fun i => w.differed.contains i || !(w.received.contains i)) →
    (bad = [] → ∃ t, Sys2Proof.Machine.exec (.pullEnd l d.tag) s = .next t ∧ t.pat.work = [] ∧
      (t.link l).directives = [] ∧ t.pat.repairs = [] ∧ (t.extent w.vol w.ext).versions =
        [{ x with res := .here w.loc (refs - 1), verified := s.sup.clock, repair := .sound }]) ∧
    (bad ≠ [] → bad.length ≤ 4 → x.shipped = true →
      ∃ t, Sys2Proof.Machine.exec (.pullEnd l d.tag) s = .next t ∧ t.pat.work = [] ∧
        (t.link l).directives = [] ∧ t.pat.repairs = [(0,
          { vol := w.vol, ext := w.ext, birth := w.birth, loc := w.loc, whole := false
            chunks := bad.map fun i => { idx := i, src := .offsite, progress := .fetching, refetched := false }
            becomeWhole := false, lost := false, abandoned := false })] ∧
        (t.extent w.vol w.ext).versions = [{ x with res := .here w.loc (refs - 1), repair := .repairing }] ∧
        t.off.fetchQueue = bad.map fun i =>
          { holder := .repair 0, vol := w.vol, ext := w.ext, birth := w.birth, idx := some i,
            code := x.codeAt i }) ∧
    (∀ c, (c = .pullEnd l d.tag ∧ 5 ≤ bad.length) ∨ c = .pullFail l d.tag →
      ∃ t, Sys2Proof.Machine.exec c s = .next t ∧ t.pat.work = [] ∧ (t.link l).directives = [] ∧
        (x.shipped = true → t.pat.repairs = [(0,
            { vol := w.vol, ext := w.ext, birth := w.birth, loc := w.loc, whole := true
              chunks := (List.range 16).map fun i =>
                { idx := i, src := .offsite, progress := .fetching, refetched := false }
              becomeWhole := false, lost := false, abandoned := false })] ∧
          (t.extent w.vol w.ext).versions = [{ x with res := .here w.loc (refs - 1), repair := .repairing }]) ∧
        (x.shipped = false → t.pat.repairs = [] ∧
          t.sup.raised[9]? = (s.sup.raised[9]?).map countUp ∧
          (t.extent w.vol w.ext).versions =
            [{ x with res := .here w.loc (refs - 1), repair := .unrepairable }])))

/-- R164 to R167: a fetched chunk goes out in a FIX with its CHUNK_DATA and its slot is SENDING; a chunk with
a twin goes out in a FIX that names the twin, with references to both locations. FIX_DONE of the last chunk
makes the version SOUND and verified at the clock, FIX_FAIL of a chunk from the offsite source makes it
UNREPAIRABLE; either way DAMAGE is counted and the record is closed. An answer that names no FIX of the link
changes nothing. R166: the FIX of a WHOLE record carries all 16 chunks, and its FIX_DONE or FIX_FAIL ends the
record likewise. -/
def Obligations.FixesRepairOrGiveUp : Prop :=
  (∀ (s : State) (rec n : Nat) (r : Repair) (c : RepairChunk) (v : Volume) (x : Version) (y : Slot),
    s.sup.op = .active → s.tallyStill → s.pat.repairs = [(rec, r)] → s.pat.work = [] → s.pat.folds = [] →
    s.pat.clearing = false → r.whole = false → r.abandoned = false → r.lost = false → r.becomeWhole = false →
    r.chunks = [c] → c.progress = .fetched → s.volume r.vol = some v → s.damaged r.vol r.ext = false →
    s.repairVersion r = some x → (s.link v.owner).up = true → (s.link v.owner).directives.length < 16 →
    (s.link v.owner).placeWaits = [] → s.str.slots = [(n, y)] → y.holder = .repair rec → y.idx = c.idx →
    y.state = .full →
    ∃ t d, Sys2Proof.Machine.exec (.fix rec c.idx []) s = .next t ∧
      t.repair rec = some { r with chunks := [{ c with progress := .fixing }] } ∧
      t.slot n = some { y with state := .sending } ∧
      (t.link v.owner).directives = (s.link v.owner).directives ++ [d] ∧ d.kind = .fix ∧
      d.issuer = .repair rec c.idx ∧ d.refs = [(r.vol, r.ext, r.loc)] ∧
      (t.link v.owner).tx = (s.link v.owner).tx ++
        [.directive d.tag (.fixData r.loc [c.idx]), .chunk d.tag c.idx n]) ∧
  (∀ (s : State) (rec twin : Nat) (r : Repair) (c : RepairChunk) (v : Volume) (x w : Version),
    s.sup.op = .active → s.tallyStill → s.pat.repairs = [(rec, r)] → s.pat.work = [] → s.pat.folds = [] →
    s.pat.clearing = false → r.whole = false → r.abandoned = false → r.lost = false → r.becomeWhole = false →
    r.chunks = [c] → c.progress = .twinWait → s.volume r.vol = some v → s.damaged r.vol r.ext = false →
    s.repairVersion r = some x → s.twinOf r c.idx = some w → w.loc = some twin →
    (s.link v.owner).up = true → (s.link v.owner).directives.length < 16 → (s.link v.owner).placeWaits = [] →
    ∃ t d, Sys2Proof.Machine.exec (.fix rec c.idx []) s = .next t ∧
      t.repair rec = some { r with chunks := [{ c with progress := .fixing }] } ∧
      (t.link v.owner).directives = (s.link v.owner).directives ++ [d] ∧ d.kind = .fix ∧
      d.issuer = .repair rec c.idx ∧ d.refs = [(r.vol, r.ext, r.loc), (r.vol, r.ext, twin)] ∧
      (t.link v.owner).tx = (s.link v.owner).tx ++ [.directive d.tag (.fixTwin r.loc c.idx twin)]) ∧
  (∀ (s : State) (l : Link) (rec : Nat) (r : Repair) (c : RepairChunk) (d : Directive) (x : Version),
    s.sup.op ≠ .halted → s.tallyStill → s.pat.repairs = [(rec, r)] → s.pat.work = [] → s.pat.folds = [] →
    s.pat.waiting = [] → s.pat.clearing = false → r.whole = false → r.abandoned = false → r.lost = false →
    r.becomeWhole = false → r.chunks = [c] → (s.volume r.vol).isSome = true →
    s.damaged r.vol r.ext = false → s.repairVersion r = some x → (s.link l).up = true →
    (s.link l).directives = [d] → (∀ k, k ≠ l → (s.link k).directives = []) → s.off.outstanding = [] →
    d.kind = .fix → d.issuer = .repair rec c.idx →
    (∃ t y, Sys2Proof.Machine.exec (.fixDone l d.tag) s = .next t ∧ (t.link l).directives = [] ∧
      t.repair rec = none ∧ t.sup.raised[9]? = (s.sup.raised[9]?).map countUp ∧
      y ∈ (t.extent r.vol r.ext).versions ∧ y.birth = r.birth ∧ y.loc = some r.loc ∧ y.repair = .sound ∧
      y.verified = s.sup.clock) ∧
    (c.src = .offsite → ∃ t y, Sys2Proof.Machine.exec (.fixFail l d.tag) s = .next t ∧
      (t.link l).directives = [] ∧ t.repair rec = none ∧
      t.sup.raised[9]? = (s.sup.raised[9]?).map countUp ∧ y ∈ (t.extent r.vol r.ext).versions ∧
      y.birth = r.birth ∧ y.loc = some r.loc ∧ y.repair = .unrepairable)) ∧
  (∀ (s : State) (l : Link) (tag : Nat), s.sup.op ≠ .halted → s.calm → (s.link l).up = true →
    (∀ d ∈ (s.link l).directives, d.tag = tag → d.kind ≠ .fix) →
    (∃ t, Sys2Proof.Machine.exec (.fixDone l tag) s = .next t ∧ t.pat = s.pat ∧ t.cat = s.cat ∧
      (t.link l).directives = (s.link l).directives) ∧
    ∃ t, Sys2Proof.Machine.exec (.fixFail l tag) s = .next t ∧ t.pat = s.pat ∧ t.cat = s.cat ∧
      (t.link l).directives = (s.link l).directives) ∧
  (∀ (s : State) (rec : Nat) (r : Repair) (v : Volume) (x : Version), s.sup.op = .active → s.tallyStill →
    s.pat.repairs = [(rec, r)] → s.pat.work = [] → s.pat.folds = [] → s.pat.clearing = false →
    r.whole = true → r.abandoned = false → r.lost = false → r.becomeWhole = false →
    r.chunks.map RepairChunk.idx = List.range 16 → (∀ c ∈ r.chunks, c.progress = .fetched) →
    s.volume r.vol = some v → s.damaged r.vol r.ext = false → s.repairVersion r = some x →
    (s.link v.owner).up = true → (s.link v.owner).directives.length < 16 →
    (s.link v.owner).placeWaits = [] →
    ∃ t d, Sys2Proof.Machine.exec (.fix rec 0 []) s = .next t ∧
      t.repair rec = some { r with chunks := r.chunks.map fun c => { c with progress := .fixing } } ∧
      (t.link v.owner).directives = (s.link v.owner).directives ++ [d] ∧ d.kind = .fix ∧
      d.issuer = .repair rec 0 ∧ d.refs = [(r.vol, r.ext, r.loc)] ∧
      TxFrame.directive d.tag (.fixData r.loc (List.range 16)) ∈ (t.link v.owner).tx ∧
      ∀ n y, s.slot n = some y → y.holder = .repair rec → y.idx < 16 → y.state = .full →
        t.slot n = some { y with state := .sending } ∧ TxFrame.chunk d.tag y.idx n ∈ (t.link v.owner).tx) ∧
  (∀ (s : State) (l : Link) (rec : Nat) (r : Repair) (d : Directive) (x : Version), s.sup.op ≠ .halted →
    s.tallyStill → s.pat.repairs = [(rec, r)] → s.pat.work = [] → s.pat.folds = [] → s.pat.waiting = [] →
    s.pat.clearing = false → r.whole = true → r.abandoned = false → r.lost = false → r.becomeWhole = false →
    (s.volume r.vol).isSome = true → s.damaged r.vol r.ext = false → s.repairVersion r = some x →
    x.repair = .repairing → (s.link l).up = true → (s.link l).directives = [d] →
    (∀ k, k ≠ l → (s.link k).directives = []) → s.off.outstanding = [] → d.kind = .fix →
    d.issuer = .repair rec 0 →
    (∃ t y, Sys2Proof.Machine.exec (.fixDone l d.tag) s = .next t ∧ (t.link l).directives = [] ∧
      t.repair rec = none ∧ t.sup.raised[9]? = (s.sup.raised[9]?).map countUp ∧
      (∀ kv ∈ t.str.slots, kv.2.holder ≠ .repair rec) ∧
      y ∈ (t.extent r.vol r.ext).versions ∧ y.birth = r.birth ∧ y.loc = some r.loc ∧ y.repair = .sound ∧
      y.verified = s.sup.clock) ∧
    ∃ t y, Sys2Proof.Machine.exec (.fixFail l d.tag) s = .next t ∧ (t.link l).directives = [] ∧
      t.repair rec = none ∧ t.sup.raised[9]? = (s.sup.raised[9]?).map countUp ∧
      (∀ kv ∈ t.str.slots, kv.2.holder ≠ .repair rec) ∧
      y ∈ (t.extent r.vol r.ext).versions ∧ y.birth = r.birth ∧ y.loc = some r.loc ∧
      y.repair = .unrepairable)

/-! ### Reads -/

/-- R179, R14, R35, R44, R52, R69, R101: Query answers DONE with the record, a principal's with its current used
and reserved, and names what is missing; nothing changes.
R179: a Table Read of 1 to 64 records answers the records at or above its start key, in ascending key order, with
the end flag, and moves the link's cursor past the last; fewer are returned when the next would take the body over
1,048,576 bytes. Any other count or an unknown table is RANGE, the Extent Table of a DETACHED volume
UNKNOWN_VOLUME, and a refused read leaves the cursor. Table Next goes on at the cursor; without one it is RANGE,
and a cursor on the Extent Table of a volume detached since makes it UNKNOWN_VOLUME and is cleared. The keys and
the record under each are given for every table. Where it rests on the model's reading, log entry 28 says so. -/
def Obligations.QueryAndTableReadsReportTheRecords : Prop :=
  (∀ (s : State) (l : Link) (tag : Nat) (q : QuerySubject), s.takes l →
    ∃ t st b, Sys2Proof.Machine.exec (.query l tag q []) s = .next t ∧ Answered s t l tag .query st b ∧
      Spared s t ∧
      (∀ id, q = .principal id →
        (∀ p, s.prin id = some p → st = .done ∧ b = .record (.principal id { p with
          used := (s.current id).1, reserved := (s.current id).2
          unsettled := s.isUnsettled id, marker := false })) ∧
        (s.prin id = none → st = .unknownPrincipal ∧ b = .none)) ∧
      (∀ c, q = .classEntry c →
        (c ≤ 63 → st = .done ∧ b = .record (.classEntry c (s.classOf c))) ∧ (63 < c → st = .range ∧ b = .none)) ∧
      (∀ vol, q = .volume vol →
        (∀ v, s.volume vol = some v →
          st = .done ∧ b = .record (.volume vol v (s.versionCounts vol) (s.snapshotCounts vol))) ∧
        (s.volume vol = none → vol < 32 → st = .done ∧ b = .record (.detached vol)) ∧
        (32 ≤ vol → st = .unknownVolume ∧ b = .none)) ∧
      (∀ vol ext, q = .extent vol ext →
        (s.volume vol = none → st = .unknownVolume ∧ b = .none) ∧
        (∀ v, s.volume vol = some v →
          (ext < v.count → st = .done ∧ b = .record (s.extentView vol ext)) ∧
          (v.count ≤ ext → st = .range ∧ b = .none))) ∧
      (∀ vol gen, q = .snapshot vol gen →
        (s.volume vol = none → st = .unknownVolume ∧ b = .none) ∧
        (∀ v, s.volume vol = some v →
          (s.snapshot vol gen = none → st = .unknownSnapshot ∧ b = .none) ∧
          (∀ p, s.snapshot vol gen = some p → st = .done ∧ b = .record (.snapshot p)))) ∧
      ∀ rid, q = .restore rid →
        (s.recordOf rid = none → st = .range ∧ b = .none) ∧
        (∀ rec r, s.recordOf rid = some (rec, r) → st = .done ∧ b = .record (restoreView rec r))) ∧
  (∀ (s : State) (l : Link) (tag start count : Nat) (table : TableName), s.takes l →
    ∃ t, Sys2Proof.Machine.exec (.tableRead l tag table start count []) s = .next t ∧ t.rst = s.rst ∧
      SupKept s t ∧
      (count = 0 ∨ 64 < count → Answered s t l tag .tableRead .range .none ∧ Spared s t) ∧
      (1 ≤ count → count ≤ 64 → ∀ st, s.keysFrom table start (count + 1) = .error st →
        Answered s t l tag .tableRead st .none ∧ Spared s t) ∧
      (1 ≤ count → count ≤ 64 → ∀ ks, s.keysFrom table start (count + 1) = .ok ks →
        Answered s t l tag .tableRead .done
          (.table ((s.readKeys table count ks).map (s.viewAt table))
            (decide (ks.length ≤ (s.readKeys table count ks).length))) ∧
        (t.link l).cursor = some {
          table := table, detached := false
          key := match (s.readKeys table count ks).getLast? with
            | some k => k + 1
            | none => start })) ∧
  (∀ (s : State) (l : Link) (tag count : Nat), s.takes l →
    ∃ t, Sys2Proof.Machine.exec (.tableNext l tag count []) s = .next t ∧ t.rst = s.rst ∧ SupKept s t ∧
      ((s.link l).cursor = none ∨ count = 0 ∨ 64 < count →
        Answered s t l tag .tableNext .range .none ∧ Spared s t) ∧
      (∀ c vol, 1 ≤ count → count ≤ 64 → (s.link l).cursor = some c → c.table = .extents vol →
        c.detached = true ∨ s.volume vol = none →
        Answered s t l tag .tableNext .unknownVolume .none ∧ (t.link l).cursor = none) ∧
      (∀ c ks, 1 ≤ count → count ≤ 64 → (s.link l).cursor = some c → c.detached = false →
        s.keysFrom c.table c.key (count + 1) = .ok ks →
        Answered s t l tag .tableNext .done
          (.table ((s.readKeys c.table count ks).map (s.viewAt c.table))
            (decide (ks.length ≤ (s.readKeys c.table count ks).length))) ∧
        (t.link l).cursor = some {
          table := c.table, detached := false
          key := match (s.readKeys c.table count ks).getLast? with
            | some k => k + 1
            | none => c.key })) ∧
  (∀ (s : State) (table : TableName) (count : Nat) (ks : List Nat), ∃ n, n ≤ count ∧
    s.readKeys table count ks = ks.take n ∧
    (0 < n → n ≤ ks.length → Config.tableBytes ((ks.take n).map (s.viewAt table)) ≤ 1048576) ∧
    (n < count → n < ks.length → 1048576 < Config.tableBytes ((ks.take (n + 1)).map (s.viewAt table)))) ∧
  (∀ (s : State) (start n : Nat),
    s.keysFrom .principals start n =
      .ok (((s.tally.principals.map Prod.fst).filter fun k => decide (start ≤ k)).take n) ∧
    s.keysFrom .snapshots start n =
      .ok (((s.cat.snapshots.map Prod.fst).filter fun k => decide (start ≤ k)).take n) ∧
    s.keysFrom .classes start n = .ok (List.range' start (min n (64 - start))) ∧
    s.keysFrom .volumes start n = .ok (List.range' start (min n (32 - start))) ∧
    s.keysFrom .restores start n = .ok (List.range' start (min n (64 - start))) ∧
    (∀ c, s.keysFrom (.unknown c) start n = .error .range) ∧
    ∀ vol, (s.volume vol = none → s.keysFrom (.extents vol) start n = .error .unknownVolume) ∧
      ∀ v, s.volume vol = some v →
        s.keysFrom (.extents vol) start n = .ok (List.range' start (min n (v.count - start)))) ∧
  (∀ (s : State) (table : TableName) (start n : Nat) (ks : List Nat), Tbl.wf s.tally.principals = true →
    Tbl.wf s.cat.snapshots = true → s.keysFrom table start n = .ok ks →
    ks.Pairwise (· < ·) ∧ ks.length ≤ n ∧ ∀ k ∈ ks, start ≤ k) ∧
  ∀ (s : State) (k : Nat),
    (∀ p, s.prin k = some p → s.viewAt .principals k = .principal k { p with
      used := (s.current k).1
      reserved := (s.current k).2
      unsettled := s.isUnsettled k
      marker := false }) ∧
    s.viewAt .classes k = .classEntry k (s.classOf k) ∧
    (∀ v, s.volume k = some v →
      s.viewAt .volumes k = .volume k v (s.versionCounts k) (s.snapshotCounts k)) ∧
    (s.volume k = none → s.viewAt .volumes k = .detached k) ∧
    (∀ vol, s.viewAt (.extents vol) k = .extent vol k (s.extent vol k).owner (s.extent vol k).lock
      (s.damaged vol k) ((s.extent vol k).versions.map fun v =>
        (v, ((s.snapsOf vol).filter fun p => v.heldAt p.gen).map Snapshot.gen))) ∧
    (∀ p, tget s.cat.snapshots k = some p → s.viewAt .snapshots k = .snapshot p) ∧
    (∀ r, s.restore k = some r → s.viewAt .restores k = restoreView k r) ∧
    (s.restore k = none → s.viewAt .restores k = .unused k)

/-- R183, R177: Status Query answers DONE with the state, the flags, the settings in force and pending, the
raised counts and the blocks' figures, and changes nothing; Status Clear zeroes the eleven raised counts and
every link's discarded and dropped counts. -/
def Obligations.StatusIsReportedAndCleared : Prop :=
  (∀ (s : State) (l : Link) (tag : Nat), s.takes l →
    ∃ t rep, Sys2Proof.Machine.exec (.statusQuery l tag) s = .next t ∧
      Answered s t l tag .statusQuery .done (.status rep) ∧ Spared s t ∧ rep.op = s.sup.op ∧
      rep.quietAwaited = s.sup.quiet.isSome ∧ rep.clockSet = s.sup.clockSet ∧
      rep.prevClean = s.sup.prevClean ∧ rep.settings = s.sup.settings ∧
      rep.pendingSettings = s.sup.pendingSettings ∧ rep.raised = s.sup.raised ∧
      rep.tally = s.tallyFigures ∧ rep.catalogue = s.catalogueFigures ∧ rep.restores = s.restoreFigures ∧
      rep.stream = s.streamFigures ∧ rep.windowOpen = s.windowIsOpen ∧ rep.nightEnding = s.nightEnding ∧
      rep.rate = s.off.rate ∧ rep.work = s.remainingWork ∧ rep.offLink = s.off.link ∧
      rep.direction = s.off.dir ∧ rep.patrol = s.patrolFigures) ∧
  (∀ (s : State) (l : Link) (tag : Nat), s.takes l → s.calm →
    ∃ t, Sys2Proof.Machine.exec (.statusClear l tag) s = .next t ∧
      Answered s t l tag .statusClear .done .none ∧ t.sup.raised = List.replicate 11 0 ∧
      (∀ k : Link, (t.link k).discarded = 0 ∧ (t.link k).dropped = 0) ∧ SupKept s t)

/-! ### Settings and holds -/

/-- R188, R118, R169, R13 and Table 11-2: a Setting Write in range is in force when DONE is answered, whichever
of the table's settings it writes; an AT_WINDOW value written while the window is open or a night ends is
pending instead. A keep written evaluates retention (R71), a cut flag cleared closes its due (R72, R73). Out of
range is RANGE, an unknown setting MALFORMED, a detached volume UNKNOWN_VOLUME, an IN_STANDBY setting in ACTIVE
WRONG_STATE, the last CONSOLE link made FILESERVER RANGE, an owning link made CONSOLE IN_USE. A switch to
WRITE_THROUGH is answered when no line is dirty. With a hold open the change is staged; the 129th is HOLD_FULL.
-/
def Obligations.SettingsAreCheckedAndWritten : Prop :=
  ∀ (s : State) (l : Link) (tag : Nat) (x : Setting), s.takes l → s.role l = .console →
    ∃ t, Sys2Proof.Machine.exec (.settingWrite l tag x []) s = .next t ∧
      ((∃ c, x = .unknown c) → Answered s t l tag .settingWrite .malformed .none ∧ Spared s t) ∧
      ((∀ c, x ≠ .unknown c) → settingInRange x = false →
        Answered s t l tag .settingWrite .range .none ∧ Spared s t) ∧
      (settingInRange x = true → (∃ v, settingVolume x = some v ∧ s.volume v = none) →
        Answered s t l tag .settingWrite .unknownVolume .none ∧ Spared s t) ∧
      (settingInRange x = true → settingInStandby x = true → s.sup.op = .active →
        Answered s t l tag .settingWrite .wrongState .none ∧ Spared s t) ∧
      (∀ k : Link, x = .linkRole k.val .fileserver → s.sup.op = .standby →
        (∀ j, j ≠ k → s.role j = .fileserver) →
        Answered s t l tag .settingWrite .range .none ∧ Spared s t) ∧
      (∀ k : Link, x = .linkRole k.val .console → s.sup.op = .standby →
        (∃ kv ∈ s.cat.volumes, kv.2.owner = k) →
        Answered s t l tag .settingWrite .inUse .none ∧ Spared s t) ∧
      (∀ held, (s.link l).hold = some held → s.settingCheck x = none →
        (held.length < 128 → Answered s t l tag .settingWrite .accepted .none ∧
          (t.link l).hold = some (held ++ [.setting x]) ∧ SupKept s t ∧ catSettles s.cat t.cat) ∧
        (128 ≤ held.length → Answered s t l tag .settingWrite .holdFull .none ∧ Spared s t)) ∧
      ((s.link l).hold = none →
        (∀ n, x = .directiveWait n → 10 ≤ n → n ≤ 600 → Answered s t l tag .settingWrite .done .none ∧
          t.sup.settings = { s.sup.settings with directiveWait := n }) ∧
        (∀ n, x = .idleTime n → 1 ≤ n → n ≤ 60 → Answered s t l tag .settingWrite .done .none ∧
          t.sup.settings = { s.sup.settings with idleTime := n }) ∧
        (∀ n, x = .cutWait n → 1 ≤ n → n ≤ 120 → Answered s t l tag .settingWrite .done .none ∧
          t.sup.settings = { s.sup.settings with cutWait := n }) ∧
        (∀ n, x = .patrolPeriod n → 1 ≤ n → n ≤ 365 → Answered s t l tag .settingWrite .done .none ∧
          t.sup.settings = { s.sup.settings with patrolPeriod := n }) ∧
        (∀ n, x = .overdueLimit n → 1 ≤ n → n ≤ 720 → Answered s t l tag .settingWrite .done .none ∧
          t.sup.settings = { s.sup.settings with overdueLimit := n }) ∧
        (∀ n, x = .ackWait n → 1 ≤ n → n ≤ 255 → Answered s t l tag .settingWrite .done .none ∧
          t.sup.settings = { s.sup.settings with ackWait := n }) ∧
        (∀ n, x = .reopenInterval n → 10 ≤ n → n ≤ 3600 → Answered s t l tag .settingWrite .done .none ∧
          t.sup.settings = { s.sup.settings with reopenInterval := n }) ∧
        (∀ b, x = .autoActivate b → s.sup.op = .standby → Answered s t l tag .settingWrite .done .none ∧
          t.sup.settings = { s.sup.settings with autoActivate := b }) ∧
        (∀ c g b, x = .classEntry c g b → c ≤ 63 → g ≤ 43200 →
          Answered s t l tag .settingWrite .done .none ∧
          t.sup.settings = { s.sup.settings with
            classes := tput s.sup.settings.classes c { grace := g, selfRestore := b } }) ∧
        (∀ (k : Link) (r : Role), x = .linkRole k.val r → s.sup.op = .standby →
          (r = .fileserver → ∃ j, j ≠ k ∧ s.role j = .console) →
          (r = .console → ∀ kv ∈ s.cat.volumes, kv.2.owner ≠ k) →
          Answered s t l tag .settingWrite .done .none ∧ t.role k = r ∧
          ∀ j, j ≠ k → t.role j = s.role j) ∧
        (∀ v e b, x = .recoveryFlag v b → s.volume v = some e →
          Answered s t l tag .settingWrite .done .none ∧ t.volume v = some { e with recovery := b }) ∧
        (∀ v e n, x = .hourlyKeep v n → s.volume v = some e → n ≤ 48 →
          Answered s t l tag .settingWrite .done .none ∧ t.volume v = some { e with hourlyKeep := n } ∧
          (s.snapshotsKeyed → (∀ p ∈ s.snapsOf v, p.pins = 0) →
            (t.activeOf v .hourly).length = min (s.activeOf v .hourly).length n)) ∧
        (∀ v e n, x = .nightlyKeep v n → s.volume v = some e → n ≤ 30 →
          Answered s t l tag .settingWrite .done .none ∧ t.volume v = some { e with nightlyKeep := n } ∧
          (s.snapshotsKeyed → (∀ p ∈ s.snapsOf v, p.pins = 0) →
            (t.activeOf v .nightly).length = min (s.activeOf v .nightly).length n)) ∧
        (∀ v e b, x = .hourlyCuts v b → s.volume v = some e →
          Answered s t l tag .settingWrite .done .none ∧ t.volume v = some { e with hourlyCuts := b } ∧
          t.duesOf v = if b then s.duesOf v else { s.duesOf v with hourly := none }) ∧
        (∀ v e b, x = .nightlyCut v b → s.volume v = some e →
          Answered s t l tag .settingWrite .done .none ∧ t.volume v = some { e with nightlyCut := b } ∧
          t.duesOf v = if b then s.duesOf v else { s.duesOf v with nightly := none }) ∧
        (∀ n, x = .assumedRate n → 1 ≤ n → n ≤ 1048576 → Answered s t l tag .settingWrite .done .none ∧
          (s.off.phase = .closed → t.sup.settings = { s.sup.settings with assumedRate := n } ∧
            t.sup.pendingSettings = s.sup.pendingSettings) ∧
          (s.off.phase ≠ .closed → t.sup.settings = s.sup.settings ∧
            t.sup.pendingSettings = { s.sup.pendingSettings with assumedRate := some n })) ∧
        (∀ n, x = .openTime n → n ≤ 86399 → Answered s t l tag .settingWrite .done .none ∧
          (s.off.phase = .closed → s.sup.op = .standby →
            t.sup.settings = { s.sup.settings with openTime := n }) ∧
          (s.off.phase ≠ .closed → t.sup.settings = s.sup.settings ∧
            t.sup.pendingSettings = { s.sup.pendingSettings with openTime := some n })) ∧
        (∀ n, x = .closeTime n → n ≤ 86399 → Answered s t l tag .settingWrite .done .none ∧
          (s.off.phase = .closed → s.sup.op = .standby →
            t.sup.settings = { s.sup.settings with closeTime := n }) ∧
          (s.off.phase ≠ .closed → t.sup.settings = s.sup.settings ∧
            t.sup.pendingSettings = { s.sup.pendingSettings with closeTime := some n })) ∧
        (∀ w, x = .windowSource w → Answered s t l tag .settingWrite .done .none ∧
          (s.off.phase = .closed → s.sup.op = .standby →
            t.sup.settings = { s.sup.settings with windowSource := w }) ∧
          (s.off.phase ≠ .closed → t.sup.settings = s.sup.settings ∧
            t.sup.pendingSettings = { s.sup.pendingSettings with windowSource := some w })) ∧
        (∀ n, x = .reserveMargin n → n ≤ 7200 → Answered s t l tag .settingWrite .done .none ∧
          (s.off.phase = .closed → t.sup.settings = { s.sup.settings with reserveMargin := n } ∧
            t.sup.pendingSettings = s.sup.pendingSettings) ∧
          (s.off.phase ≠ .closed → t.sup.settings = s.sup.settings ∧
            t.sup.pendingSettings = { s.sup.pendingSettings with reserveMargin := some n })) ∧
        (∀ n e p vs, x = .scope n e p vs → n ≤ 7 → p ≤ 7 → (∀ v ∈ vs, v ≤ 31) →
          Answered s t l tag .settingWrite .done .none ∧
          (s.off.phase = .closed → t.sup.settings = { s.sup.settings with
            scopes := tput s.sup.settings.scopes n { enabled := e, priority := p, vols := distinctNat vs } }) ∧
          (s.off.phase ≠ .closed → t.sup.settings = s.sup.settings ∧
            tget t.sup.pendingSettings.scopes n =
              some { enabled := e, priority := p, vols := distinctNat vs })) ∧
        (∀ m, x = .cacheMode m → s.sup.op = .standby → s.sup.settings.cacheMode = m →
          Answered s t l tag .settingWrite .done .none ∧ t.sup.settings = s.sup.settings) ∧
        (x = .cacheMode .writeBack → s.sup.op = .standby → Answered s t l tag .settingWrite .done .none ∧
          t.sup.settings = { s.sup.settings with cacheMode := .writeBack }) ∧
        (x = .cacheMode .writeThrough → s.sup.op = .standby → s.sup.settings.cacheMode = .writeBack →
          s.tallyStill → t.sup.settings = { s.sup.settings with cacheMode := .writeThrough } ∧
            ((∀ y ∈ s.tally.cache, y.dirty = false) → s.tally.castout = [] →
              Answered s t l tag .settingWrite .done .none) ∧
            ((∃ y ∈ s.tally.cache, y.dirty = true) → Queued s t l tag .settingWrite true)))

/-- R121, R118, R188: Scope Set writes a scope, at once while the window is closed and pending otherwise; a
scope or priority above 7 or a volume above 31 is RANGE; with a hold open it is staged. -/
def Obligations.ScopeSetWritesTheScope : Prop :=
  ∀ (s : State) (l : Link) (tag n p : Nat) (e : Bool) (vs : List Nat), s.takes l → s.role l = .console →
    ∃ t, Sys2Proof.Machine.exec (.scopeSet l tag n e p vs) s = .next t ∧
      (7 < n ∨ 7 < p ∨ (∃ v ∈ vs, 31 < v) → Answered s t l tag .scopeSet .range .none ∧ Spared s t) ∧
      (n ≤ 7 → p ≤ 7 → (∀ v ∈ vs, v ≤ 31) →
        (∀ held, (s.link l).hold = some held → held.length < 128 →
          Answered s t l tag .scopeSet .accepted .none ∧
          (t.link l).hold = some (held ++ [.setting (.scope n e p vs)]) ∧ SupKept s t) ∧
        ((s.link l).hold = none → Answered s t l tag .scopeSet .done .none ∧
          (s.off.phase = .closed →
            tget t.sup.settings.scopes n =
              some { enabled := e, priority := p, vols := distinctNat vs } ∧
            ∀ m, m ≠ n → tget t.sup.settings.scopes m = tget s.sup.settings.scopes m) ∧
          (s.off.phase ≠ .closed → t.sup.settings = s.sup.settings ∧
            tget t.sup.pendingSettings.scopes n =
              some { enabled := e, priority := p, vols := distinctNat vs })))

/-- R188: Hold Begin opens an empty list, and is BUSY when one is open. Hold Release without a hold is RANGE;
with an IN_STANDBY change staged and the part in ACTIVE it is WRONG_STATE and the list is kept; otherwise the
changes are applied in order, and DONE carries the number applied and the index and status of each that was
skipped: for a list of any changes, what `State.release` gives, which checks each change again as it stands
then, and applies or skips it; the window is evaluated once all stand. Hold Abandon closes the hold. That a
release leaves the emptied hold open is the model's choice (log entry 17). -/
def Obligations.HoldsStageReleaseAndAbandon : Prop :=
  (∀ (s : State) (l : Link) (tag : Nat), s.takes l →
    ∃ t, Sys2Proof.Machine.exec (.holdBegin l tag) s = .next t ∧
      ((s.link l).hold = none → Answered s t l tag .holdBegin .done .none ∧ (t.link l).hold = some [] ∧
        SupKept s t) ∧
      ((s.link l).hold ≠ none → Answered s t l tag .holdBegin .busy .none ∧ Spared s t)) ∧
  (∀ (s : State) (l : Link) (tag : Nat), s.takes l →
    ∃ t, Sys2Proof.Machine.exec (.holdRelease l tag) s = .next t ∧
      ((s.link l).hold = none → Answered s t l tag .holdRelease .range .none ∧ Spared s t) ∧
      (∀ held, (s.link l).hold = some held → held.any stagedInStandby = true → s.sup.op = .active →
        Answered s t l tag .holdRelease .wrongState .none ∧ Spared s t) ∧
      (∀ id b n, (s.link l).hold = some [.freeze id b, .setting (.patrolPeriod n)] → 1 ≤ n → n ≤ 365 →
        (t.link l).hold = some [] ∧ t.sup.settings = { s.sup.settings with patrolPeriod := n } ∧
        (s.prin id = none →
          Answered s t l tag .holdRelease .done (.holdReleased 1 [(0, .unknownPrincipal)])) ∧
        (∀ p, s.prin id = some p → s.tallyStill → t.prin id = some { p with frozen := b } ∧
          Answered s t l tag .holdRelease .done (.holdReleased 2 []))) ∧
      (∀ held, (s.link l).hold = some held → held.any stagedInStandby = false ∨ s.sup.op = .standby →
        ∃ u r w, supKept s.sup u.sup ∧ u.tally = s.tally ∧ u.cat = s.cat ∧ u.rst = s.rst ∧ u.str = s.str ∧
          u.off = s.off ∧ u.pat = s.pat ∧
          r = State.release State.applyStaged ((List.range held.length).zip held) (u, 0, []) ∧
          w = (if held.any stagedOfWindow then r.1.evaluateOpen else r.1) ∧
          Answered s t l tag .holdRelease .done (.holdReleased r.2.1 r.2.2) ∧ (t.link l).hold = some [] ∧
          t.sup.settings = w.sup.settings ∧ t.sup.pendingSettings = w.sup.pendingSettings ∧
          t.cat.volumes = w.cat.volumes ∧ t.cat.snapshots = w.cat.snapshots ∧ t.cat.dues = w.cat.dues ∧
          t.off.phase = w.off.phase ∧
          (s.tallyStill → (∀ m, Staged.setting (.cacheMode m) ∉ held) → t.tally = w.tally))) ∧
  (∀ (s : State) (c : Staged) (cs : List (Nat × Staged)) (i n : Nat) (skipped : List (Nat × Status)),
    (∀ st, s.stagedCheck c = some st → State.release State.applyStaged ((i, c) :: cs) (s, n, skipped) =
      State.release State.applyStaged cs (s, n, skipped ++ [(i, st)])) ∧
    (s.stagedCheck c = none → State.release State.applyStaged ((i, c) :: cs) (s, n, skipped) =
      State.release State.applyStaged cs (s.applyStaged c, n + 1, skipped)) ∧
    State.release State.applyStaged [] (s, n, skipped) = (s, n, skipped)) ∧
  (∀ (s : State) (l : Link) (tag : Nat), s.takes l →
    ∃ t, Sys2Proof.Machine.exec (.holdAbandon l tag) s = .next t ∧
      Answered s t l tag .holdAbandon .done .none ∧ (t.link l).hold = none ∧ SupKept s t)

/-! ### Standby, Clear and the clock -/

/-- R185, R102, R120, R154, R168: Standby Enter in ACTIVE sets STANDBY when taken, drains or closes the
offsite link and awaits quiet; in STANDBY it is DONE. Clear does so too and ends the night. Quiet reported,
the awaited request is answered DONE. Standby Exit sets ACTIVE, and a PAUSED restore with a WAITING step runs
again. While quiet is awaited all three are BUSY. Where it rests on the model's reading, log entry 50 says so.
-/
def Obligations.StandbyIsEnteredAndLeft : Prop :=
  (∀ (s : State) (l : Link) (tag : Nat), s.takes l → s.role l = .console →
    ∃ t, Sys2Proof.Machine.exec (.standbyEnter l tag) s = .next t ∧
      (s.sup.quiet ≠ none → Answered s t l tag .standbyEnter .busy .none ∧ Spared s t) ∧
      (s.sup.quiet = none → s.sup.op = .standby →
        Answered s t l tag .standbyEnter .done .none ∧ Spared s t) ∧
      (s.sup.quiet = none → s.sup.op = .active → s.tallyStill → t.sup.op = .standby ∧
        t.sup.quiet = some { link := l, req := s.sup.nextReq, isClear := false } ∧
        Queued s t l tag .standbyEnter true ∧
        (s.off.link = .up → s.off.outstanding ≠ [] → t.off.link = .up ∧ t.off.dir = .draining .toClose) ∧
        (s.off.link ≠ .up ∨ s.off.outstanding = [] → t.off.link = .down ∧ t.off.dir = .idle))) ∧
  (∀ (s : State) (l : Link) (tag : Nat), s.takes l → s.role l = .console →
    ∃ t, Sys2Proof.Machine.exec (.clear l tag) s = .next t ∧
      (s.sup.quiet ≠ none → Answered s t l tag .clear .busy .none ∧ Spared s t) ∧
      (s.sup.quiet = none → s.tallyStill → t.sup.op = .standby ∧
        t.sup.quiet = some { link := l, req := s.sup.nextReq, isClear := true } ∧
        Queued s t l tag .clear true ∧ t.off.phase ≠ .windowOpen)) ∧
  (∀ (s : State) (w : QuietWait) (e : ReqEntry), s.sup.op ≠ .halted → s.sup.quiet = some w →
    (s.isQuiet = true → s.awaits w.link w.req e →
      ∃ t, Sys2Proof.Machine.exec .quietReported s = .next t ∧ Replied s t w.link e .done .none ∧
        t.sup.quiet = none ∧ t.sup.op = s.sup.op) ∧
    (s.isQuiet = false → Sys2Proof.Machine.exec .quietReported s = .next { s with sent := [] })) ∧
  (∀ (s : State) (l : Link) (tag : Nat), s.takes l → s.role l = .console →
    ∃ t, Sys2Proof.Machine.exec (.standbyExit l tag) s = .next t ∧
      (s.sup.quiet ≠ none → Answered s t l tag .standbyExit .busy .none ∧ Spared s t) ∧
      (s.sup.quiet = none → s.sup.op = .active →
        Answered s t l tag .standbyExit .done .none ∧ Spared s t) ∧
      (s.sup.quiet = none → s.sup.op = .standby → Tbl.wf s.rst.table = true →
        Answered s t l tag .standbyExit .done .none ∧ t.sup.op = .active ∧
        ∀ rec r, s.restore rec = some r → r.state = .paused → (∃ x ∈ r.steps, x.state = .waiting) →
          ∃ r', t.restore rec = some r' ∧ r'.state = .running ∧ r'.steps = r.steps))
end

