-- ==== Sys2Proof/Laws/Bounded.lean ====
section
/-! SUPPORT. The bounds of the state kept: one lemma for each operation of the part. -/

namespace Sys2Proof.Machine

theorem bounded_mk (u ls t c r st o p pe se) : (State.mk u ls t c r st o p pe se).bounded = partsBounded u ls := rfl
theorem bounded_unfold {s : State} (h : s.bounded) : partsBounded s.sup s.links := h
theorem bounded_foldl {α : Type} (f : State → α → State) (xs : List α) {s : State} (hf : ∀ s x, s.bounded → (f s x).bounded) (h : s.bounded) :
    (xs.foldl f s).bounded := by
  induction xs generalizing s with
  | nil => exact h
  | cons x xs ih => exact ih (hf s x h)
theorem bounded_iter (n : Nat) (f : State → State) {s : State} (hf : ∀ s, s.bounded → (f s).bounded) (h : s.bounded) :
    (iter n f s).bounded := by
  induction n generalizing s with
  | zero => exact h
  | succ n ih => exact ih (hf s h)
theorem bounded_modLink {s : State} (l : Link) (f : LinkRec → LinkRec)
    (hf : ∀ r, r.bounded s.sup.nextReq → (f r).bounded s.sup.nextReq) (h : s.bounded) : (s.modLink l f).bounded := by
  refine ⟨h.1, fun k => ?_⟩
  have := h.2
  simp only [State.modLink, State.link]
  by_cases hk : (l : Nat) = (k : Nat)
  · have : l = k := Fin.ext hk
    subst this
    simpa using hf _ (h.2 l)
  · simpa [Vector.getElem_set, hk] using h.2 k
theorem bounded_modSup {s : State} (f : Supervisor → Supervisor) 
    (hf : supBounded s.sup → supBounded (f s.sup)) (hn : s.sup.nextReq ≤ (f s.sup).nextReq) (h : s.bounded) : (s.modSup f).bounded :=
  ⟨hf h.1, fun l => ⟨(h.2 l).1, fun e he => lt_of_lt_of_le ((h.2 l).2.1 e he) hn, (h.2 l).2.2⟩⟩
theorem lb_filter {n : Nat} {r : LinkRec} (p : ReqEntry → Bool) (h : r.bounded n) : ({ r with queue := r.queue.filter p } : LinkRec).bounded n :=
  ⟨Nat.le_trans (List.length_filter_le ..) h.1, fun e he => h.2.1 e (List.mem_of_mem_filter he), h.2.2⟩
theorem bounded_send {s : State} (o : Output) (hb : s.bounded) : (State.send s o).bounded := by
  unfold State.send
  repeat' first
    | with_reducible assumption
    | (simp only [bounded_mk]; with_reducible refine bounded_unfold ?_)

theorem bounded_draw {s : State} (hb : s.bounded) : s.draw.2.bounded := bounded_modSup _ (fun hs => hs) (Nat.le_refl _) hb

theorem bounded_setPrin {s : State} (id : Nat) (p : Principal) (hb : s.bounded) : (State.setPrin s id p).bounded := by
  unfold State.setPrin
  repeat' first
    | with_reducible assumption
    | (simp only [bounded_mk]; with_reducible refine bounded_unfold ?_)

theorem bounded_modPrin {s : State} (id : Nat) (f : Principal → Principal) (hb : s.bounded) : (State.modPrin s id f).bounded := by
  unfold State.modPrin
  repeat' first
    | with_reducible assumption
    | (simp only [bounded_mk]; with_reducible refine bounded_unfold ?_)

theorem bounded_modVolume {s : State} (vol : Nat) (f : Volume → Volume) (hb : s.bounded) : (State.modVolume s vol f).bounded := by
  unfold State.modVolume
  repeat' first
    | with_reducible assumption
    | (simp only [bounded_mk]; with_reducible refine bounded_unfold ?_)

theorem bounded_setExtent {s : State} (vol ext : Nat) (e : Extent) (hb : s.bounded) : (State.setExtent s vol ext e).bounded := by
  unfold State.setExtent
  repeat' first
    | with_reducible assumption
    | (simp only [bounded_mk]; with_reducible refine bounded_unfold ?_)

theorem bounded_modSnapshot {s : State} (vol gen : Nat) (f : Snapshot → Snapshot) (hb : s.bounded) : (State.modSnapshot s vol gen f).bounded := by
  unfold State.modSnapshot
  repeat' first
    | with_reducible assumption
    | (simp only [bounded_mk]; with_reducible refine bounded_unfold ?_)

theorem bounded_setDues {s : State} (vol : Nat) (d : Dues) (hb : s.bounded) : (State.setDues s vol d).bounded := by
  unfold State.setDues
  repeat' first
    | with_reducible assumption
    | (simp only [bounded_mk]; with_reducible refine bounded_unfold ?_)

theorem bounded_modRestore {s : State} (rec : Nat) (f : Restore → Restore) (hb : s.bounded) : (State.modRestore s rec f).bounded := by
  unfold State.modRestore
  repeat' first
    | with_reducible assumption
    | (simp only [bounded_mk]; with_reducible refine bounded_unfold ?_)

theorem bounded_modStep {s : State} (rec i : Nat) (f : Step → Step) (hb : s.bounded) : (State.modStep s rec i f).bounded := by
  unfold State.modStep
  repeat' first
    | with_reducible assumption
    | with_reducible apply bounded_modRestore

theorem bounded_modSlot {s : State} (n : Nat) (f : Slot → Slot) (hb : s.bounded) : (State.modSlot s n f).bounded := by
  unfold State.modSlot
  repeat' first
    | with_reducible assumption
    | (simp only [bounded_mk]; with_reducible refine bounded_unfold ?_)

theorem bounded_freeSlot {s : State} (n : Nat) (hb : s.bounded) : (State.freeSlot s n).bounded := by
  unfold State.freeSlot
  repeat' first
    | with_reducible assumption
    | (simp only [bounded_mk]; with_reducible refine bounded_unfold ?_)

theorem bounded_freeSlotsIf {s : State} (p : Slot → Bool) (hb : s.bounded) : (State.freeSlotsIf s p).bounded := by
  unfold State.freeSlotsIf
  repeat' first
    | with_reducible assumption
    | (simp only [bounded_mk]; with_reducible refine bounded_unfold ?_)

theorem bounded_modPlan {s : State} (vol : Nat) (f : PlanVol → PlanVol) (hb : s.bounded) : (State.modPlan s vol f).bounded := by
  unfold State.modPlan
  repeat' first
    | with_reducible assumption
    | (simp only [bounded_mk]; with_reducible refine bounded_unfold ?_)

theorem bounded_modEntry {s : State} (num : Nat) (f : ShipEntry → ShipEntry) (hb : s.bounded) : (State.modEntry s num f).bounded := by
  unfold State.modEntry
  repeat' first
    | with_reducible assumption
    | (simp only [bounded_mk]; with_reducible refine bounded_unfold ?_)

theorem bounded_modRepair {s : State} (n : Nat) (f : Repair → Repair) (hb : s.bounded) : (State.modRepair s n f).bounded := by
  unfold State.modRepair
  repeat' first
    | with_reducible assumption
    | (simp only [bounded_mk]; with_reducible refine bounded_unfold ?_)

theorem bounded_modItem {s : State} (n : Nat) (f : WorkItem → WorkItem) (hb : s.bounded) : (State.modItem s n f).bounded := by
  unfold State.modItem
  repeat' first
    | with_reducible assumption
    | (simp only [bounded_mk]; with_reducible refine bounded_unfold ?_)

theorem lb_queueNotice {n : Nat} {r : LinkRec} (m : Notice) (h : r.bounded n) : (r.queueNotice m).bounded n := by
  unfold LinkRec.queueNotice
  split
  · rename_i hl
    refine ⟨h.1, h.2.1, ?_, h.2.2.2⟩
    simp only [List.length_append, List.length_singleton]; omega
  · exact h
theorem bounded_queueTo {s : State} (b : NoticeBody) (n : Notice) (ls : List Link) (hb : s.bounded) : (State.queueTo b n ls s).bounded := by
  induction ls generalizing s with
  | nil => exact hb
  | cons l ls ih =>
    unfold State.queueTo
    refine ih ?_
    split
    · exact bounded_modLink _ _ (fun _ hr => lb_queueNotice n hr) hb
    · exact hb

theorem countUp_le (n : Nat) : countUp n ≤ 65535 := by unfold countUp; split <;> omega
theorem modAt_length {α : Type} (xs : List α) (i : Nat) (f : α → α) : (modAt xs i f).length = xs.length := by
  induction xs generalizing i with
  | nil => rfl
  | cons x t ih => cases i <;> simp [modAt, ih]
theorem modAt_countUp_le (xs : List Nat) (i : Nat) (h : ∀ n ∈ xs, n ≤ 65535) :
    ∀ n ∈ modAt xs i countUp, n ≤ 65535 := by
  induction xs generalizing i with
  | nil => simp [modAt]
  | cons x t ih =>
    cases i with
    | zero =>
      intro n hn
      rcases List.mem_cons.mp hn with rfl | hn
      · exact countUp_le x
      · exact h n (List.mem_cons_of_mem _ hn)
    | succ i =>
      intro n hn
      rcases List.mem_cons.mp hn with rfl | hn
      · exact h n (List.mem_cons_self ..)
      · exact ih i (fun m hm => h m (List.mem_cons_of_mem _ hm)) n hn
theorem bounded_raise {s : State} (b : NoticeBody) (hb : s.bounded) : (State.raise s b).bounded := by
  unfold State.raise
  refine bounded_queueTo _ _ _ (bounded_modSup _ (fun hs => ⟨hs.1, ?_, ?_, ?_⟩) (Nat.le_refl _) hb)
  · have := hs.2.1
    dsimp only
    split
    · rename_i h; simp only [List.length_append, List.length_singleton]; omega
    · exact hs.2.1
  · simpa [modAt_length] using hs.2.2.1
  · exact modAt_countUp_le _ _ hs.2.2.2

theorem bounded_halt {s : State} (item : StoreItem) (hb : s.bounded) : (State.halt s item).bounded := by
  unfold State.halt
  repeat' first
    | with_reducible assumption
    | with_reducible apply bounded_raise
    | split
    | with_reducible refine bounded_foldl _ _ (fun _ _ _ => ?_) ?_
    | (with_reducible refine bounded_modLink _ _ (fun _ hr => ?_) ?_; (simp only [LinkRec.bounded] at hr ⊢; (repeat' split) <;> simp_all))
    | (with_reducible refine bounded_modSup _ (fun hs => by simp_all [supBounded]) (by simp) ?_)

theorem bounded_busy {s : State} (l : Link) (hb : s.bounded) : (State.busy s l).bounded := by
  unfold State.busy
  repeat' first
    | with_reducible assumption
    | (with_reducible refine bounded_modLink _ _ (fun _ hr => ?_) ?_; (simp only [LinkRec.bounded] at hr ⊢; (repeat' split) <;> simp_all))

theorem bounded_restartIdle {s : State} (l : Link) (hb : s.bounded) : (State.restartIdle s l).bounded := by
  unfold State.restartIdle
  repeat' first
    | with_reducible assumption
    | (with_reducible refine bounded_modLink _ _ (fun _ hr => ?_) ?_; (simp only [LinkRec.bounded] at hr ⊢; (repeat' split) <;> simp_all))

theorem bounded_replyAtOnce {s : State} (l : Link) (tag : Nat) (k : ReqKind) (st : Status) (hb : s.bounded) : (State.replyAtOnce s l tag k st).bounded := by
  unfold State.replyAtOnce
  repeat' first
    | with_reducible assumption
    | (with_reducible refine bounded_modLink _ _ (fun _ hr => ?_) ?_; (simp only [LinkRec.bounded] at hr ⊢; (repeat' split) <;> simp_all))

theorem lb_reply {n : Nat} {r : LinkRec} (req : Nat) (st : Status) (body : ReplyBody) (h : r.bounded n) :
    (r.reply req st body).bounded n := by
  unfold LinkRec.reply
  split
  · exact h
  · exact ⟨Nat.le_trans (List.length_filter_le ..) h.1, fun e he => h.2.1 e (List.mem_of_mem_filter he), h.2.2⟩
theorem bounded_reply {s : State} (l : Link) (req : Nat) (st : Status) (body : ReplyBody) (hb : s.bounded) :
    (State.reply s l req st body).bounded :=
  bounded_restartIdle l (bounded_modLink _ _ (fun _ hr => lb_reply req st body hr) hb)

theorem bounded_handNotice {s : State} (l : Link) (b : DirBody) (hb : s.bounded) : (State.handNotice s l b).bounded := by
  unfold State.handNotice
  repeat' first
    | with_reducible assumption
    | with_reducible apply bounded_busy
    | (with_reducible refine bounded_modLink _ _ (fun _ hr => ?_) ?_; (simp only [LinkRec.bounded] at hr ⊢; (repeat' split) <;> simp_all))

theorem bounded_handDirective {s : State} (l : Link) (k : DirKind) (who : Issuer) (refs : List (Nat × Nat × Nat)) (b : DirBody) (chunks : List (Nat × Nat)) (hb : s.bounded) : (State.handDirective s l k who refs b chunks).bounded := by
  unfold State.handDirective
  repeat' first
    | with_reducible assumption
    | with_reducible apply bounded_busy
    | (with_reducible refine bounded_modLink _ _ (fun _ hr => ?_) ?_; (simp only [LinkRec.bounded] at hr ⊢; (repeat' split) <;> simp_all))

theorem bounded_waitPlace {s : State} (l : Link) (who : Issuer) (hb : s.bounded) : (State.waitPlace s l who).bounded := by
  unfold State.waitPlace
  repeat' first
    | with_reducible assumption
    | (with_reducible refine bounded_modLink _ _ (fun _ hr => ?_) ?_; (simp only [LinkRec.bounded] at hr ⊢; (repeat' split) <;> simp_all))

theorem bounded_leavePlaces {s : State} (who : Issuer) (hb : s.bounded) : (State.leavePlaces s who).bounded := by
  unfold State.leavePlaces
  repeat' first
    | with_reducible assumption
    | with_reducible refine bounded_foldl _ _ (fun _ _ _ => ?_) ?_
    | (with_reducible refine bounded_modLink _ _ (fun _ hr => ?_) ?_; (simp only [LinkRec.bounded] at hr ⊢; (repeat' split) <;> simp_all))

theorem bounded_endDirective {s : State} (l : Link) (tag : Nat) (hb : s.bounded) : (State.endDirective s l tag).bounded := by
  unfold State.endDirective
  repeat' first
    | with_reducible assumption
    | with_reducible apply bounded_restartIdle
    | (with_reducible refine bounded_modLink _ _ (fun _ hr => ?_) ?_; (simp only [LinkRec.bounded] at hr ⊢; (repeat' split) <;> simp_all))

theorem bounded_setGrace {s : State} (id : Nat) (g : Grace) (hb : s.bounded) : (State.setGrace s id g).bounded := by
  unfold State.setGrace
  repeat' first
    | with_reducible assumption
    | with_reducible apply bounded_modPrin

theorem bounded_leaveGraceQueue {s : State} (id : Nat) (hb : s.bounded) : (State.leaveGraceQueue s id).bounded := by
  unfold State.leaveGraceQueue
  repeat' first
    | with_reducible assumption
    | (simp only [bounded_mk]; with_reducible refine bounded_unfold ?_)

theorem bounded_enterGrace {s : State} (id deadline : Nat) (hb : s.bounded) : (State.enterGrace s id deadline).bounded := by
  unfold State.enterGrace
  try dsimp only
  repeat' first
    | with_reducible assumption
    | with_reducible apply bounded_setGrace
    | split
    | (simp only [bounded_mk]; with_reducible refine bounded_unfold ?_)

theorem bounded_expire {s : State} (id : Nat) (hb : s.bounded) : (State.expire s id).bounded := by
  unfold State.expire
  repeat' first
    | with_reducible assumption
    | with_reducible apply bounded_leaveGraceQueue
    | with_reducible apply bounded_raise
    | with_reducible apply bounded_setGrace
    | split

theorem bounded_lazyExpire {s : State} (id : Nat) (hb : s.bounded) : (State.lazyExpire s id).bounded := by
  unfold State.lazyExpire
  repeat' first
    | with_reducible assumption
    | with_reducible apply bounded_expire
    | split

theorem bounded_lazyExpireAll {s : State} (ids : List Nat) (hb : s.bounded) : (State.lazyExpireAll s ids).bounded := by
  unfold State.lazyExpireAll
  repeat' first
    | with_reducible assumption
    | with_reducible apply bounded_lazyExpire
    | with_reducible refine bounded_foldl _ _ (fun _ _ _ => ?_) ?_

theorem bounded_evalGrace {s : State} (id : Nat) (hb : s.bounded) : (State.evalGrace s id).bounded := by
  unfold State.evalGrace
  try dsimp only
  repeat' first
    | with_reducible assumption
    | with_reducible apply bounded_enterGrace
    | with_reducible apply bounded_leaveGraceQueue
    | with_reducible apply bounded_raise
    | with_reducible apply bounded_setGrace
    | split

theorem bounded_evalGraceAll {s : State} (ids : List Nat) (hb : s.bounded) : (State.evalGraceAll s ids).bounded := by
  unfold State.evalGraceAll
  repeat' first
    | with_reducible assumption
    | with_reducible apply bounded_evalGrace
    | with_reducible refine bounded_foldl _ _ (fun _ _ _ => ?_) ?_

theorem bounded_expireHead {s : State} (hb : s.bounded) : (State.expireHead s).bounded := by
  unfold State.expireHead
  repeat' first
    | with_reducible assumption
    | with_reducible apply bounded_expire
    | split
    | (simp only [bounded_mk]; with_reducible refine bounded_unfold ?_)

theorem bounded_expireDue {s : State} (hb : s.bounded) : (State.expireDue s).bounded := by
  unfold State.expireDue
  repeat' first
    | with_reducible assumption
    | with_reducible apply bounded_expireHead
    | with_reducible refine bounded_iter _ _ (fun _ _ => ?_) ?_

theorem bounded_rebuildGrace {s : State} (hb : s.bounded) : (State.rebuildGrace s).bounded := by
  unfold State.rebuildGrace
  repeat' first
    | with_reducible assumption
    | (simp only [bounded_mk]; with_reducible refine bounded_unfold ?_)

theorem bounded_putLine {s : State} (x : Line) (hb : s.bounded) : (State.putLine s x).bounded := by
  unfold State.putLine
  repeat' first
    | with_reducible assumption
    | (simp only [bounded_mk]; with_reducible refine bounded_unfold ?_)

theorem bounded_modLine {s : State} (id : Nat) (f : Line → Line) (hb : s.bounded) : (State.modLine s id f).bounded := by
  unfold State.modLine
  repeat' first
    | with_reducible assumption
    | (simp only [bounded_mk]; with_reducible refine bounded_unfold ?_)

theorem bounded_storeTally {s : State} (id used reserved : Nat) (hb : s.bounded) : (State.storeTally s id used reserved).bounded := by
  unfold State.storeTally
  try dsimp only
  repeat' first
    | with_reducible assumption
    | with_reducible apply bounded_modPrin
    | split
    | (simp only [bounded_mk]; with_reducible refine bounded_unfold ?_)

theorem bounded_storeClean {s : State} (id used reserved : Nat) (hb : s.bounded) : (State.storeClean s id used reserved).bounded := by
  unfold State.storeClean
  try dsimp only
  repeat' first
    | with_reducible assumption
    | with_reducible apply bounded_storeTally
    | split
    | (simp only [bounded_mk]; with_reducible refine bounded_unfold ?_)

theorem bounded_castoutDirty {s : State} (hb : s.bounded) : (State.castoutDirty s).bounded := by
  unfold State.castoutDirty
  repeat' first
    | with_reducible assumption
    | split
    | (simp only [bounded_mk]; with_reducible refine bounded_unfold ?_)

theorem bounded_modOp {s : State} (num : Nat) (f : TallyOp → TallyOp) (hb : s.bounded) : (State.modOp s num f).bounded := by
  unfold State.modOp
  repeat' first
    | with_reducible assumption
    | (simp only [bounded_mk]; with_reducible refine bounded_unfold ?_)

theorem bounded_dropOp {s : State} (num : Nat) (hb : s.bounded) : (State.dropOp s num).bounded := by
  unfold State.dropOp
  repeat' first
    | with_reducible assumption
    | (simp only [bounded_mk]; with_reducible refine bounded_unfold ?_)

theorem bounded_pushOp {s : State} (job : Job) (postings : List Nat) (hb : s.bounded) : (State.pushOp s job postings).bounded := by
  unfold State.pushOp
  repeat' first
    | with_reducible assumption
    | (simp only [bounded_mk]; with_reducible refine bounded_unfold ?_)

theorem bounded_takeSet {s : State} (num : Nat) (group : List Nat) (hb : s.bounded) : (State.takeSet s num group).bounded := by
  unfold State.takeSet
  try dsimp only
  repeat' first
    | with_reducible assumption
    | split
    | (simp only [bounded_mk]; with_reducible refine bounded_unfold ?_)

theorem bounded_takeNext {s : State} (num : Nat) (hb : s.bounded) : (State.takeNext s num).bounded := by
  unfold State.takeNext
  try dsimp only
  repeat' first
    | with_reducible assumption
    | with_reducible apply bounded_takeSet
    | split

theorem bounded_gather {s : State} (num : Nat) (hb : s.bounded) : (State.gather s num).bounded := by
  unfold State.gather
  try dsimp only
  repeat' first
    | with_reducible assumption
    | with_reducible apply bounded_modOp
    | with_reducible apply bounded_takeNext
    | split
    | with_reducible refine bounded_iter _ _ (fun _ _ => ?_) ?_

theorem bounded_releaseLines {s : State} (num : Nat) (ids : List Nat) (hb : s.bounded) : (State.releaseLines s num ids).bounded := by
  unfold State.releaseLines
  repeat' first
    | with_reducible assumption
    | (simp only [bounded_mk]; with_reducible refine bounded_unfold ?_)

theorem bounded_takePosting {s : State} (hb : s.bounded) : (State.takePosting s).bounded := by
  unfold State.takePosting
  repeat' first
    | with_reducible assumption
    | with_reducible apply bounded_pushOp
    | split

theorem bounded_writeMarkers {s : State} (ids : List Nat) (hb : s.bounded) : (State.writeMarkers s ids).bounded := by
  unfold State.writeMarkers
  repeat' first
    | with_reducible assumption
    | (simp only [bounded_mk]; with_reducible refine bounded_unfold ?_)

theorem bounded_applyChange (num : Nat) (settled : Option Nat) {s : State} (c : TallyChange) (hb : s.bounded) : (State.applyChange num settled s c).bounded := by
  unfold State.applyChange
  try dsimp only
  repeat' first
    | with_reducible assumption
    | with_reducible apply bounded_putLine
    | with_reducible apply bounded_storeTally
    | split
    | (simp only [bounded_mk]; with_reducible refine bounded_unfold ?_)

theorem bounded_applyChanges (num : Nat) (settled : Option Nat) {s : State} (cs : List TallyChange) (hb : s.bounded) : (State.applyChanges num settled s cs).bounded := by
  unfold State.applyChanges
  repeat' first
    | with_reducible assumption
    | with_reducible apply bounded_applyChange
    | with_reducible refine bounded_foldl _ _ (fun _ _ _ => ?_) ?_

theorem bounded_endWrite {s : State} (w : PendingWrite) (hb : s.bounded) : (State.endWrite s w).bounded := by
  unfold State.endWrite
  repeat' first
    | with_reducible assumption
    | with_reducible apply bounded_modPrin
    | (simp only [bounded_mk]; with_reducible refine bounded_unfold ?_)

theorem bounded_beginRecount {s : State} (pool : Nat) (hb : s.bounded) : (State.beginRecount s pool).bounded := by
  unfold State.beginRecount
  repeat' first
    | with_reducible assumption
    | split
    | (simp only [bounded_mk]; with_reducible refine bounded_unfold ?_)

theorem bounded_beginRecounts {s : State} (hb : s.bounded) : (State.beginRecounts s).bounded := by
  unfold State.beginRecounts
  repeat' first
    | with_reducible assumption
    | with_reducible apply bounded_beginRecount
    | with_reducible refine bounded_foldl _ _ (fun _ _ _ => ?_) ?_

theorem bounded_memberUnsettled {s : State} (pool : Nat) (hb : s.bounded) : (State.memberUnsettled s pool).bounded := by
  unfold State.memberUnsettled
  repeat' first
    | with_reducible assumption
    | with_reducible apply bounded_modPrin
    | (simp only [bounded_mk]; with_reducible refine bounded_unfold ?_)

theorem bounded_flushReclaim {s : State} (hb : s.bounded) : (State.flushReclaim s).bounded := by
  unfold State.flushReclaim
  repeat' first
    | with_reducible assumption
    | with_reducible apply bounded_handNotice
    | split
    | (simp only [bounded_mk]; with_reducible refine bounded_unfold ?_)

theorem bounded_flushReclaims {s : State} (hb : s.bounded) : (State.flushReclaims s).bounded := by
  unfold State.flushReclaims
  repeat' first
    | with_reducible assumption
    | with_reducible apply bounded_flushReclaim
    | with_reducible refine bounded_iter _ _ (fun _ _ => ?_) ?_

theorem bounded_sendReclaim {s : State} (vol ext loc : Nat) (hb : s.bounded) : (State.sendReclaim s vol ext loc).bounded := by
  unfold State.sendReclaim
  repeat' first
    | with_reducible assumption
    | with_reducible apply bounded_handNotice
    | split
    | (simp only [bounded_mk]; with_reducible refine bounded_unfold ?_)

theorem bounded_sendCutDue {s : State} (vol : Nat) (nightly : Bool) (hb : s.bounded) : (State.sendCutDue s vol nightly).bounded := by
  unfold State.sendCutDue
  repeat' first
    | with_reducible assumption
    | with_reducible apply bounded_handNotice
    | with_reducible apply bounded_setDues
    | split

theorem bounded_openDue {s : State} (nightly : Bool) (vol : Nat) (hb : s.bounded) : (State.openDue s nightly vol).bounded := by
  unfold State.openDue
  repeat' first
    | with_reducible assumption
    | with_reducible apply bounded_sendCutDue
    | with_reducible apply bounded_setDues

theorem bounded_closeDue {s : State} (nightly : Bool) (vol : Nat) (hb : s.bounded) : (State.closeDue s nightly vol).bounded := by
  unfold State.closeDue
  repeat' first
    | with_reducible assumption
    | with_reducible apply bounded_setDues

theorem bounded_unsendDues {s : State} (l : Link) (hb : s.bounded) : (State.unsendDues s l).bounded := by
  unfold State.unsendDues
  repeat' first
    | with_reducible assumption
    | (simp only [bounded_mk]; with_reducible refine bounded_unfold ?_)

theorem bounded_sendDues {s : State} (l : Link) (hb : s.bounded) : (State.sendDues s l).bounded := by
  unfold State.sendDues
  repeat' first
    | with_reducible assumption
    | with_reducible apply bounded_sendCutDue
    | with_reducible refine bounded_foldl _ _ (fun _ _ _ => ?_) ?_

theorem bounded_arrive {s : State} (l : Link) (hb : s.bounded) : (State.arrive s l).bounded := by
  unfold State.arrive
  try dsimp only
  repeat' first
    | with_reducible assumption
    | with_reducible apply bounded_busy
    | with_reducible apply bounded_flushReclaims
    | with_reducible apply bounded_sendDues
    | split
    | (with_reducible refine bounded_modLink _ _ (fun _ hr => ?_) ?_; (simp only [LinkRec.bounded] at hr ⊢; (repeat' split) <;> simp_all))

theorem bounded_enqueue_request {s : State} (l : Link) (tag : Nat) (k : ReqKind) (taken : Bool)
    (hq : (s.link l).queue.length < Config.requestQueueSize) (hb : s.bounded) :
    ((s.modSup fun u => { u with nextReq := s.sup.nextReq + 1 }).modLink l fun r =>
      { r with queue := r.queue ++
          [{ num := s.sup.nextReq, tag := tag, kind := k, taken := taken, stale := false }] }).bounded := by
  have h1 := bounded_modSup (s := s) (fun u => { u with nextReq := s.sup.nextReq + 1 }) (fun hs => hs) (Nat.le_succ _) hb
  refine ⟨h1.1, fun j => ?_⟩
  simp only [State.modLink, State.link, State.modSup]
  by_cases hk : (l : Nat) = (j : Nat)
  · have : l = j := Fin.ext hk
    subst this
    simp only [Fin.getElem_fin, Vector.getElem_set_self]
    refine ⟨?_, ?_, (h1.2 l).2.2⟩
    · simp only [List.length_append, List.length_singleton]
      exact hq
    · intro e he
      rcases List.mem_append.mp he with he | he
      · exact (h1.2 l).2.1 e he
      · simp only [List.mem_singleton] at he
        subst he
        exact Nat.lt_succ_self _
  · have h2 := h1.2 j
    simp only [State.modSup] at h2
    simpa [Vector.getElem_set, hk] using h2
theorem bounded_startExpiry {s : State} (vol gen : Nat) (hb : s.bounded) : (State.startExpiry s vol gen).bounded := by
  unfold State.startExpiry
  repeat' first
    | with_reducible assumption
    | with_reducible apply bounded_modSnapshot

theorem bounded_retainOnce (vol : Nat) (k : SnapKind) {s : State} (hb : s.bounded) : (State.retainOnce vol k s).bounded := by
  unfold State.retainOnce
  repeat' first
    | with_reducible assumption
    | with_reducible apply bounded_startExpiry
    | split

theorem bounded_retain {s : State} (vol : Nat) (k : SnapKind) (hb : s.bounded) : (State.retain s vol k).bounded := by
  unfold State.retain
  repeat' first
    | with_reducible assumption
    | with_reducible apply bounded_retainOnce
    | with_reducible refine bounded_iter _ _ (fun _ _ => ?_) ?_

theorem bounded_takePin {s : State} (vol gen : Nat) (ship : Bool) (hb : s.bounded) : (State.takePin s vol gen ship).bounded := by
  unfold State.takePin
  repeat' first
    | with_reducible assumption
    | with_reducible apply bounded_modSnapshot

theorem bounded_dropPin {s : State} (vol gen : Nat) (ship : Bool) (hb : s.bounded) : (State.dropPin s vol gen ship).bounded := by
  unfold State.dropPin
  repeat' first
    | with_reducible assumption
    | with_reducible apply bounded_modSnapshot
    | with_reducible apply bounded_retain
    | split

theorem bounded_countThinned {s : State} (vol : Nat) (v : Version) (hb : s.bounded) : (State.countThinned s vol v).bounded := by
  unfold State.countThinned
  repeat' first
    | with_reducible assumption
    | with_reducible apply bounded_modSnapshot
    | split
    | with_reducible refine bounded_foldl _ _ (fun _ _ _ => ?_) ?_

theorem bounded_applyCommit {s : State} (vol ext owner : Nat) (p : CommitPlan) (hb : s.bounded) : (State.applyCommit s vol ext owner p).bounded := by
  unfold State.applyCommit
  repeat' first
    | with_reducible assumption
    | with_reducible apply bounded_countThinned
    | with_reducible apply bounded_flushReclaims
    | with_reducible apply bounded_setExtent
    | split
    | (simp only [bounded_mk]; with_reducible refine bounded_unfold ?_)

theorem bounded_commit {s : State} (vol ext owner loc occ : Nat) (codes : Option (List Code)) (hb : s.bounded) :
    (State.commit s vol ext owner loc occ codes).2.bounded := bounded_applyCommit _ _ _ _ hb

theorem bounded_incRef {s t : State} (vol ext loc : Nat) (hb : s.bounded) (h : s.incRef vol ext loc = .granted t) : t.bounded := by
  unfold State.incRef at h
  split at h
  · simp at h
  · split at h
    · simp only [Increment.granted.injEq] at h
      subst h
      exact bounded_modVolume _ _ (bounded_setExtent _ _ _ hb)
    · simp at h

theorem bounded_decRef {s : State} (vol ext loc : Nat) (hb : s.bounded) : (State.decRef s vol ext loc).bounded := by
  unfold State.decRef
  try dsimp only
  repeat' first
    | with_reducible assumption
    | with_reducible apply bounded_flushReclaims
    | with_reducible apply bounded_modVolume
    | with_reducible apply bounded_setExtent
    | split
    | (simp only [bounded_mk]; with_reducible refine bounded_unfold ?_)

theorem bounded_decRefs {s : State} (refs : List (Nat × Nat × Nat)) (hb : s.bounded) : (State.decRefs s refs).bounded := by
  unfold State.decRefs
  repeat' first
    | with_reducible assumption
    | with_reducible apply bounded_decRef
    | with_reducible refine bounded_foldl _ _ (fun _ _ _ => ?_) ?_

theorem bounded_lockRange {s : State} (rid vol first count : Nat) (hb : s.bounded) : (State.lockRange s rid vol first count).bounded := by
  unfold State.lockRange
  repeat' first
    | with_reducible assumption
    | with_reducible apply bounded_setExtent
    | with_reducible refine bounded_foldl _ _ (fun _ _ _ => ?_) ?_

theorem bounded_unlock {s : State} (vol ext rid : Nat) (hb : s.bounded) : (State.unlock s vol ext rid).bounded := by
  unfold State.unlock
  repeat' first
    | with_reducible assumption
    | with_reducible apply bounded_setExtent
    | split

theorem bounded_changeVersion {s : State} (vol ext birth : Nat) (p : Version → Bool) (f : Version → Version) (hb : s.bounded) : (State.changeVersion s vol ext birth p f).bounded := by
  unfold State.changeVersion
  repeat' first
    | with_reducible assumption
    | with_reducible apply bounded_setExtent
    | split

theorem bounded_setShipped {s : State} (vol ext birth : Nat) (hb : s.bounded) : (State.setShipped s vol ext birth).bounded := by
  unfold State.setShipped
  repeat' first
    | with_reducible assumption
    | with_reducible apply bounded_changeVersion

theorem bounded_setVerified {s : State} (vol ext birth loc : Nat) (hb : s.bounded) : (State.setVerified s vol ext birth loc).bounded := by
  unfold State.setVerified
  repeat' first
    | with_reducible assumption
    | with_reducible apply bounded_changeVersion

theorem bounded_writeRepair {s : State} (vol ext birth loc : Nat) (st : RepairState) (hb : s.bounded) : (State.writeRepair s vol ext birth loc st).bounded := by
  unfold State.writeRepair
  repeat' first
    | with_reducible assumption
    | with_reducible apply bounded_changeVersion

theorem bounded_damageExtent {s : State} (vol ext : Nat) (lost : List ExtentField) (hb : s.bounded) : (State.damageExtent s vol ext lost).bounded := by
  unfold State.damageExtent
  repeat' first
    | with_reducible assumption
    | with_reducible apply bounded_draw
    | with_reducible apply bounded_modVolume
    | with_reducible apply bounded_raise
    | with_reducible apply bounded_setExtent
    | with_reducible refine bounded_foldl _ _ (fun _ _ _ => ?_) ?_

theorem bounded_setWaiting {s : State} (c : SlotClass) (q : List SlotReq) (hb : s.bounded) : (State.setWaiting s c q).bounded := by
  unfold State.setWaiting
  repeat' first
    | with_reducible assumption
    | split
    | (simp only [bounded_mk]; with_reducible refine bounded_unfold ?_)

theorem bounded_grantSlot (c : SlotClass) (h : SlotHolder) {s : State} (w : Nat × Code) (hb : s.bounded) : (State.grantSlot c h s w).bounded := by
  unfold State.grantSlot
  repeat' first
    | with_reducible assumption
    | (simp only [bounded_mk]; with_reducible refine bounded_unfold ?_)

theorem bounded_grant {s : State} (c : SlotClass) (r : SlotReq) (hb : s.bounded) : (State.grant s c r).bounded := by
  unfold State.grant
  repeat' first
    | with_reducible assumption
    | with_reducible apply bounded_grantSlot
    | with_reducible apply bounded_modItem
    | split
    | with_reducible refine bounded_foldl _ _ (fun _ _ _ => ?_) ?_
    | (simp only [bounded_mk]; with_reducible refine bounded_unfold ?_)

theorem bounded_enqueue {s : State} (c : SlotClass) (r : SlotReq) (hb : s.bounded) : (State.enqueue s c r).bounded := by
  unfold State.enqueue
  repeat' first
    | with_reducible assumption
    | with_reducible apply bounded_setWaiting
    | split

theorem bounded_considerOnce {s : State} (hb : s.bounded) : (State.considerOnce s).bounded := by
  unfold State.considerOnce
  repeat' first
    | with_reducible assumption
    | with_reducible apply bounded_grant
    | with_reducible apply bounded_setWaiting
    | split

theorem bounded_consider {s : State} (hb : s.bounded) : (State.consider s).bounded := by
  unfold State.consider
  repeat' first
    | with_reducible assumption
    | with_reducible apply bounded_considerOnce
    | with_reducible refine bounded_iter _ _ (fun _ _ => ?_) ?_

theorem bounded_handBack {s : State} (n : Nat) (hb : s.bounded) : (State.handBack s n).bounded := by
  unfold State.handBack
  repeat' first
    | with_reducible assumption
    | with_reducible apply bounded_freeSlot
    | (simp only [bounded_mk]; with_reducible refine bounded_unfold ?_)

theorem bounded_freeFullShip {s : State} (hb : s.bounded) : (State.freeFullShip s).bounded := by
  unfold State.freeFullShip
  repeat' first
    | with_reducible assumption
    | with_reducible apply bounded_handBack
    | with_reducible refine bounded_foldl _ _ (fun _ _ _ => ?_) ?_

theorem bounded_takeBackOnce {s : State} (hb : s.bounded) : (State.takeBackOnce s).bounded := by
  unfold State.takeBackOnce
  repeat' first
    | with_reducible assumption
    | with_reducible apply bounded_consider
    | with_reducible apply bounded_handBack
    | split

theorem bounded_takeBack {s : State} (hb : s.bounded) : (State.takeBack s).bounded := by
  unfold State.takeBack
  repeat' first
    | with_reducible assumption
    | with_reducible apply bounded_takeBackOnce
    | with_reducible refine bounded_iter _ _ (fun _ _ => ?_) ?_

theorem bounded_askSlots {s : State} (c : SlotClass) (r : SlotReq) (hb : s.bounded) : (State.askSlots s c r).bounded := by
  unfold State.askSlots
  repeat' first
    | with_reducible assumption
    | with_reducible apply bounded_enqueue
    | with_reducible apply bounded_grant
    | with_reducible apply bounded_takeBack
    | split

theorem bounded_withdrawAsk {s : State} (h : SlotHolder) (hb : s.bounded) : (State.withdrawAsk s h).bounded := by
  unfold State.withdrawAsk
  repeat' first
    | with_reducible assumption
    | (simp only [bounded_mk]; with_reducible refine bounded_unfold ?_)

theorem bounded_freeHolder {s : State} (h : SlotHolder) (hb : s.bounded) : (State.freeHolder s h).bounded := by
  unfold State.freeHolder
  repeat' first
    | with_reducible assumption
    | with_reducible apply bounded_freeSlotsIf

theorem bounded_freeAllOf {s : State} (h : SlotHolder) (hb : s.bounded) : (State.freeAllOf s h).bounded := by
  unfold State.freeAllOf
  repeat' first
    | with_reducible assumption
    | with_reducible apply bounded_freeSlotsIf

theorem bounded_setSlots {s : State} (ns : List Nat) (st : SlotState) (hb : s.bounded) : (State.setSlots s ns st).bounded := by
  unfold State.setSlots
  repeat' first
    | with_reducible assumption
    | with_reducible apply bounded_modSlot
    | with_reducible refine bounded_foldl _ _ (fun _ _ _ => ?_) ?_

theorem bounded_fill {s : State} (n : Nat) (data : List Byte) (hb : s.bounded) : (State.fill s n data).bounded := by
  unfold State.fill
  repeat' first
    | with_reducible assumption
    | with_reducible apply bounded_modSlot

theorem bounded_makeFull {s : State} (n : Nat) (hb : s.bounded) : (State.makeFull s n).bounded := by
  unfold State.makeFull
  repeat' first
    | with_reducible assumption
    | with_reducible apply bounded_modSlot
    | (simp only [bounded_mk]; with_reducible refine bounded_unfold ?_)

theorem bounded_modOff {s : State} (f : Offsite → Offsite) (hb : s.bounded) : (State.modOff s f).bounded := by
  unfold State.modOff
  repeat' first
    | with_reducible assumption
    | (simp only [bounded_mk]; with_reducible refine bounded_unfold ?_)

theorem bounded_startOpening {s : State} (hb : s.bounded) : (State.startOpening s).bounded := by
  unfold State.startOpening
  repeat' first
    | with_reducible assumption
    | with_reducible apply bounded_modOff
    | with_reducible apply bounded_send

theorem bounded_askOpening {s : State} (hb : s.bounded) : (State.askOpening s).bounded := by
  unfold State.askOpening
  repeat' first
    | with_reducible assumption
    | with_reducible apply bounded_startOpening
    | split

theorem bounded_leaveUp {s : State} (hb : s.bounded) : (State.leaveUp s).bounded := by
  unfold State.leaveUp
  repeat' first
    | with_reducible assumption
    | (simp only [bounded_mk]; with_reducible refine bounded_unfold ?_)

theorem bounded_closeLink {s : State} (hb : s.bounded) : (State.closeLink s).bounded := by
  unfold State.closeLink
  repeat' first
    | with_reducible assumption
    | with_reducible apply bounded_leaveUp
    | with_reducible apply bounded_modOff
    | with_reducible apply bounded_send

theorem bounded_freeFilling {s : State} (e : FetchEntry) (hb : s.bounded) : (State.freeFilling s e).bounded := by
  unfold State.freeFilling
  repeat' first
    | with_reducible assumption
    | with_reducible apply bounded_freeSlotsIf
    | split

theorem bounded_giveBack {s : State} (f : OutFrame) (hb : s.bounded) : (State.giveBack s f).bounded := by
  unfold State.giveBack
  try dsimp only
  repeat' first
    | with_reducible assumption
    | with_reducible apply bounded_freeFilling
    | with_reducible apply bounded_freeSlot
    | with_reducible apply bounded_modEntry
    | with_reducible apply bounded_modOff
    | split

theorem bounded_giveBackAll (ahead : Bool) {s : State} (hb : s.bounded) : (State.giveBackAll ahead s).bounded := by
  unfold State.giveBackAll
  repeat' first
    | with_reducible assumption
    | with_reducible apply bounded_freeSlotsIf
    | with_reducible apply bounded_giveBack
    | with_reducible apply bounded_modOff
    | with_reducible refine bounded_foldl _ _ (fun _ _ _ => ?_) ?_

theorem bounded_fault {s : State} (cause : FaultCause) (hb : s.bounded) : (State.fault s cause).bounded := by
  unfold State.fault
  repeat' first
    | with_reducible assumption
    | with_reducible apply bounded_giveBackAll
    | with_reducible apply bounded_leaveUp
    | with_reducible apply bounded_modOff
    | with_reducible apply bounded_raise

theorem bounded_chooseDir {s : State} (hb : s.bounded) : (State.chooseDir s).bounded := by
  unfold State.chooseDir
  repeat' first
    | with_reducible assumption
    | with_reducible apply bounded_modOff

theorem bounded_redirectOnce {s : State} (hb : s.bounded) : (State.redirectOnce s).bounded := by
  unfold State.redirectOnce
  try dsimp only
  repeat' first
    | with_reducible assumption
    | with_reducible apply bounded_chooseDir
    | with_reducible apply bounded_closeLink
    | with_reducible apply bounded_modOff
    | split

theorem bounded_redirect {s : State} (hb : s.bounded) : (State.redirect s).bounded := by
  unfold State.redirect
  repeat' first
    | with_reducible assumption
    | with_reducible apply bounded_redirectOnce
    | with_reducible refine bounded_iter _ _ (fun _ _ => ?_) ?_

theorem bounded_endBurst {s : State} (hb : s.bounded) : (State.endBurst s).bounded := by
  unfold State.endBurst
  repeat' first
    | with_reducible assumption
    | with_reducible apply bounded_modOff
    | split

theorem bounded_markRest {s : State} (hb : s.bounded) : (State.markRest s).bounded := by
  unfold State.markRest
  repeat' first
    | with_reducible assumption
    | with_reducible apply bounded_modOff

theorem bounded_placeFetch {s : State} (es : List FetchEntry) (atHead : Bool) (hb : s.bounded) : (State.placeFetch s es atHead).bounded := by
  unfold State.placeFetch
  repeat' first
    | with_reducible assumption
    | with_reducible apply bounded_askOpening
    | with_reducible apply bounded_modOff

theorem bounded_askRoom {s : State} (h : FetchHolder) (es : List FetchEntry) (atHead : Bool) (hb : s.bounded) : (State.askRoom s h es atHead).bounded := by
  unfold State.askRoom
  repeat' first
    | with_reducible assumption
    | with_reducible apply bounded_modOff
    | with_reducible apply bounded_placeFetch
    | split

theorem bounded_serveRoomOnce {s : State} (hb : s.bounded) : (State.serveRoomOnce s).bounded := by
  unfold State.serveRoomOnce
  repeat' first
    | with_reducible assumption
    | with_reducible apply bounded_modOff
    | with_reducible apply bounded_placeFetch
    | split

theorem bounded_serveRoom {s : State} (hb : s.bounded) : (State.serveRoom s).bounded := by
  unfold State.serveRoom
  repeat' first
    | with_reducible assumption
    | with_reducible apply bounded_serveRoomOnce
    | with_reducible refine bounded_iter _ _ (fun _ _ => ?_) ?_

theorem bounded_withdrawFetch {s : State} (h : FetchHolder) (hb : s.bounded) : (State.withdrawFetch s h).bounded := by
  unfold State.withdrawFetch
  repeat' first
    | with_reducible assumption
    | with_reducible apply bounded_modOff
    | with_reducible apply bounded_withdrawAsk

theorem bounded_clearShed {s : State} (hb : s.bounded) : (State.clearShed s).bounded := by
  unfold State.clearShed
  repeat' first
    | with_reducible assumption
    | with_reducible apply bounded_modOff

theorem bounded_settleLink {s : State} (hb : s.bounded) : (State.settleLink s).bounded := by
  unfold State.settleLink
  repeat' first
    | with_reducible assumption
    | with_reducible apply bounded_clearShed
    | with_reducible apply bounded_markRest
    | with_reducible apply bounded_redirect
    | with_reducible apply bounded_serveRoom

theorem bounded_progress {s : State} (hb : s.bounded) : (State.progress s).bounded := by
  unfold State.progress
  repeat' first
    | with_reducible assumption
    | with_reducible apply bounded_modOff

theorem bounded_joinList {s : State} (f : OutFrame) (hb : s.bounded) : (State.joinList s f).bounded := by
  unfold State.joinList
  repeat' first
    | with_reducible assumption
    | with_reducible apply bounded_modOff
    | with_reducible apply bounded_progress
    | split

theorem bounded_joinShip {s : State} (b : FrameBody) (vacant : Bool) (hb : s.bounded) : (State.joinShip s b vacant).bounded := by
  unfold State.joinShip
  repeat' first
    | with_reducible assumption
    | with_reducible apply bounded_joinList
    | with_reducible apply bounded_modOff

theorem bounded_sendControl {s : State} (c : Control) (hb : s.bounded) : (State.sendControl s c).bounded := by
  unfold State.sendControl
  repeat' first
    | with_reducible assumption
    | with_reducible apply bounded_joinShip
    | with_reducible apply bounded_send

theorem bounded_sendHead {s : State} (hb : s.bounded) : (State.sendHead s).bounded := by
  unfold State.sendHead
  repeat' first
    | with_reducible assumption
    | with_reducible apply bounded_modOff
    | with_reducible apply bounded_sendControl
    | split

theorem bounded_cancelRun {s : State} (n : Nat) (hb : s.bounded) : (State.cancelRun s n).bounded := by
  unfold State.cancelRun
  repeat' first
    | with_reducible assumption
    | with_reducible apply bounded_freeAllOf
    | with_reducible apply bounded_leavePlaces
    | with_reducible apply bounded_modOff
    | with_reducible apply bounded_withdrawAsk

theorem bounded_cancelRuns {s : State} (p : ShipPull → Bool) (hb : s.bounded) : (State.cancelRuns s p).bounded := by
  unfold State.cancelRuns
  repeat' first
    | with_reducible assumption
    | with_reducible apply bounded_cancelRun
    | with_reducible refine bounded_foldl _ _ (fun _ _ _ => ?_) ?_

theorem bounded_freeEntrySlots {s : State} (es : List ShipEntry) (hb : s.bounded) : (State.freeEntrySlots s es).bounded := by
  unfold State.freeEntrySlots
  repeat' first
    | with_reducible assumption
    | with_reducible apply bounded_freeSlot
    | with_reducible refine bounded_foldl _ _ (fun _ _ _ => ?_) ?_

theorem bounded_damageEntries {s : State} (vol ext birth : Nat) (p : ShipEntry → Bool) (hb : s.bounded) : (State.damageEntries s vol ext birth p).bounded := by
  unfold State.damageEntries
  try dsimp only
  repeat' first
    | with_reducible assumption
    | with_reducible apply bounded_freeEntrySlots
    | with_reducible apply bounded_modOff
    | with_reducible apply bounded_modPlan
    | split

theorem bounded_shipLost {s : State} (vol ext birth : Nat) (hb : s.bounded) : (State.shipLost s vol ext birth).bounded := by
  unfold State.shipLost
  exact bounded_damageEntries _ _ _ _ (bounded_cancelRuns _ hb)

theorem bounded_shipReact {s : State} (vol ext birth : Nat) (st : RepairState) (hb : s.bounded) : (State.shipReact s vol ext birth st).bounded := by
  unfold State.shipReact
  repeat' first
    | with_reducible assumption
    | with_reducible apply bounded_shipLost
    | with_reducible apply bounded_modOff
    | split

theorem bounded_restoreReact {s : State} (vol ext birth : Nat) (st : RepairState) (hb : s.bounded) : (State.restoreReact s vol ext birth st).bounded := by
  unfold State.restoreReact
  try dsimp only
  repeat' first
    | with_reducible assumption
    | split
    | with_reducible refine bounded_foldl _ _ (fun _ _ _ => ?_) ?_
    | (with_reducible refine bounded_modLink _ _ (fun _ hr => hr) ?_)
    | (with_reducible refine bounded_modLink _ _ (fun _ hr => lb_filter _ hr) ?_)
    | (with_reducible refine bounded_modLink _ _ (fun _ hr => ?_) ?_; (simp only [LinkRec.bounded] at hr ⊢; (repeat' split) <;> simp_all))
    | (simp only [bounded_mk]; with_reducible refine bounded_unfold ?_)

theorem bounded_setRepair {s : State} (vol ext birth loc : Nat) (st : RepairState) (hb : s.bounded) : (State.setRepair s vol ext birth loc st).bounded := by
  unfold State.setRepair
  try dsimp only
  repeat' first
    | with_reducible assumption
    | with_reducible apply bounded_restoreReact
    | with_reducible apply bounded_shipReact
    | with_reducible apply bounded_writeRepair
    | split
    | (simp only [bounded_mk]; with_reducible refine bounded_unfold ?_)

theorem bounded_shedEntries {s : State} (vol : Nat) (hb : s.bounded) : (State.shedEntries s vol).bounded := by
  unfold State.shedEntries
  repeat' first
    | with_reducible assumption
    | with_reducible apply bounded_cancelRuns
    | with_reducible apply bounded_modOff

theorem bounded_dropShipPins {s : State} (vol : Nat) (hb : s.bounded) : (State.dropShipPins s vol).bounded := by
  unfold State.dropShipPins
  repeat' first
    | with_reducible assumption
    | with_reducible apply bounded_dropPin
    | with_reducible apply bounded_modPlan
    | split

theorem bounded_failVolume {s : State} (vol : Nat) (hb : s.bounded) : (State.failVolume s vol).bounded := by
  unfold State.failVolume
  repeat' first
    | with_reducible assumption
    | with_reducible apply bounded_dropShipPins
    | with_reducible apply bounded_modOff
    | with_reducible apply bounded_modPlan
    | with_reducible apply bounded_shedEntries
    | split

theorem bounded_pendDrop {s : State} (vol gen : Nat) (hb : s.bounded) : (State.pendDrop s vol gen).bounded := by
  unfold State.pendDrop
  repeat' first
    | with_reducible assumption
    | with_reducible apply bounded_askOpening
    | with_reducible apply bounded_modOff

theorem bounded_modPat {s : State} (f : Patrol → Patrol) (hb : s.bounded) : (State.modPat s f).bounded := by
  unfold State.modPat
  repeat' first
    | with_reducible assumption
    | (simp only [bounded_mk]; with_reducible refine bounded_unfold ?_)

theorem bounded_leaveItem {s : State} (n : Nat) (hb : s.bounded) : (State.leaveItem s n).bounded := by
  unfold State.leaveItem
  repeat' first
    | with_reducible assumption
    | with_reducible apply bounded_freeAllOf
    | with_reducible apply bounded_leavePlaces
    | with_reducible apply bounded_modPat
    | with_reducible apply bounded_withdrawAsk

theorem bounded_addFold {s : State} (w : WorkItem) (hb : s.bounded) : (State.addFold s w).bounded := by
  unfold State.addFold
  repeat' first
    | with_reducible assumption
    | with_reducible apply bounded_modPat

theorem bounded_issueItem {s : State} (w : WorkItem) (hb : s.bounded) : (State.issueItem s w).bounded := by
  unfold State.issueItem
  repeat' first
    | with_reducible assumption
    | with_reducible apply bounded_askSlots
    | with_reducible apply bounded_modItem

theorem bounded_loseItem {s : State} (w : WorkItem) (hb : s.bounded) : (State.loseItem s w).bounded := by
  unfold State.loseItem
  try dsimp only
  repeat' first
    | with_reducible assumption
    | with_reducible apply bounded_leaveItem
    | with_reducible apply bounded_modPat
    | split
    | (simp only [bounded_mk]; with_reducible refine bounded_unfold ?_)

theorem bounded_decideItem {s : State} (n : Nat) (hb : s.bounded) : (State.decideItem s n).bounded := by
  unfold State.decideItem
  try dsimp only
  repeat' first
    | with_reducible assumption
    | with_reducible apply bounded_addFold
    | with_reducible apply bounded_busy
    | with_reducible apply bounded_issueItem
    | with_reducible apply bounded_leaveItem
    | with_reducible apply bounded_loseItem
    | with_reducible apply bounded_modItem
    | split
    | (simp only [bounded_mk]; with_reducible refine bounded_unfold ?_)

theorem bounded_modChunk {s : State} (n idx : Nat) (f : RepairChunk → RepairChunk) (hb : s.bounded) : (State.modChunk s n idx f).bounded := by
  unfold State.modChunk
  repeat' first
    | with_reducible assumption
    | with_reducible apply bounded_modRepair

theorem bounded_leaveRepairPlaces {s : State} (n : Nat) (hb : s.bounded) : (State.leaveRepairPlaces s n).bounded := by
  unfold State.leaveRepairPlaces
  try dsimp only
  repeat' first
    | with_reducible assumption
    | with_reducible apply bounded_leavePlaces
    | split
    | with_reducible refine bounded_foldl _ _ (fun _ _ _ => ?_) ?_
    | (simp only [bounded_mk]; with_reducible refine bounded_unfold ?_)

theorem bounded_chunkOffsite {s : State} (n idx : Nat) (hb : s.bounded) : (State.chunkOffsite s n idx).bounded := by
  unfold State.chunkOffsite
  try dsimp only
  repeat' first
    | with_reducible assumption
    | with_reducible apply bounded_askRoom
    | with_reducible apply bounded_leavePlaces
    | with_reducible apply bounded_modChunk
    | with_reducible apply bounded_progress
    | split
    | (simp only [bounded_mk]; with_reducible refine bounded_unfold ?_)

theorem bounded_startChunk {s : State} (n : Nat) (idx : Nat) (hb : s.bounded) : (State.startChunk s n idx).bounded := by
  unfold State.startChunk
  repeat' first
    | with_reducible assumption
    | with_reducible apply bounded_chunkOffsite
    | split

theorem bounded_loseRepair {s : State} (n : Nat) (hb : s.bounded) : (State.loseRepair s n).bounded := by
  unfold State.loseRepair
  try dsimp only
  repeat' first
    | with_reducible assumption
    | with_reducible apply bounded_freeHolder
    | with_reducible apply bounded_leaveRepairPlaces
    | with_reducible apply bounded_modRepair
    | with_reducible apply bounded_setRepair
    | with_reducible apply bounded_withdrawFetch
    | split
    | (simp only [bounded_mk]; with_reducible refine bounded_unfold ?_)

theorem bounded_startWhole {s : State} (n : Nat) (hb : s.bounded) : (State.startWhole s n).bounded := by
  unfold State.startWhole
  try dsimp only
  repeat' first
    | with_reducible assumption
    | with_reducible apply bounded_askRoom
    | with_reducible apply bounded_freeHolder
    | with_reducible apply bounded_leaveRepairPlaces
    | with_reducible apply bounded_loseRepair
    | with_reducible apply bounded_modRepair
    | with_reducible apply bounded_progress
    | with_reducible apply bounded_withdrawFetch
    | split
    | (simp only [bounded_mk]; with_reducible refine bounded_unfold ?_)

theorem bounded_openRepair {s : State} (n : Nat) (q : RepairReq) (hb : s.bounded) : (State.openRepair s n q).bounded := by
  unfold State.openRepair
  repeat' first
    | with_reducible assumption
    | with_reducible apply bounded_modPat
    | with_reducible apply bounded_setRepair
    | with_reducible apply bounded_startChunk
    | with_reducible apply bounded_startWhole
    | split
    | with_reducible refine bounded_foldl _ _ (fun _ _ _ => ?_) ?_

theorem bounded_openWaiting {s : State} (n : Nat) (q : List RepairReq) (hb : s.bounded) : (State.openWaiting n q s).bounded := by
  induction q generalizing s with
  | nil => exact bounded_modPat _ hb
  | cons x t ih =>
    unfold State.openWaiting
    split
    · exact bounded_openRepair _ _ (bounded_modPat _ hb)
    · exact ih hb

theorem bounded_closeRepair {s : State} (n : Nat) (hb : s.bounded) : (State.closeRepair s n).bounded := by
  unfold State.closeRepair
  try dsimp only
  repeat' first
    | with_reducible assumption
    | with_reducible apply bounded_freeAllOf
    | with_reducible apply bounded_leaveRepairPlaces
    | with_reducible apply bounded_modPat
    | with_reducible apply bounded_openWaiting
    | split
    | (simp only [bounded_mk]; with_reducible refine bounded_unfold ?_)

theorem bounded_endRepair {s : State} (n : Nat) (r : Repair) (hb : s.bounded) : (State.endRepair s n r).bounded := by
  unfold State.endRepair
  repeat' first
    | with_reducible assumption
    | with_reducible apply bounded_closeRepair
    | with_reducible apply bounded_raise
    | with_reducible apply bounded_setRepair
    | with_reducible apply bounded_setVerified
    | split

theorem bounded_checkRepair {s : State} (n : Nat) (hb : s.bounded) : (State.checkRepair s n).bounded := by
  unfold State.checkRepair
  repeat' first
    | with_reducible assumption
    | with_reducible apply bounded_closeRepair
    | with_reducible apply bounded_endRepair
    | with_reducible apply bounded_startWhole
    | split

theorem bounded_abandonRepair {s : State} (n : Nat) (hb : s.bounded) : (State.abandonRepair s n).bounded := by
  unfold State.abandonRepair
  try dsimp only
  repeat' first
    | with_reducible assumption
    | with_reducible apply bounded_freeHolder
    | with_reducible apply bounded_leaveRepairPlaces
    | with_reducible apply bounded_modRepair
    | with_reducible apply bounded_withdrawFetch
    | split
    | (simp only [bounded_mk]; with_reducible refine bounded_unfold ?_)

theorem bounded_abandonIf {s : State} (p : Repair → Bool) (hb : s.bounded) : (State.abandonIf s p).bounded := by
  unfold State.abandonIf
  repeat' first
    | with_reducible assumption
    | with_reducible apply bounded_abandonRepair
    | with_reducible refine bounded_foldl _ _ (fun _ _ _ => ?_) ?_

theorem bounded_addChunks {s : State} (n : Nat) (r : Repair) (q : RepairReq) (hb : s.bounded) : (State.addChunks s n r q).bounded := by
  unfold State.addChunks
  try dsimp only
  repeat' first
    | with_reducible assumption
    | with_reducible apply bounded_leaveRepairPlaces
    | with_reducible apply bounded_modRepair
    | with_reducible apply bounded_startChunk
    | split
    | with_reducible refine bounded_foldl _ _ (fun _ _ _ => ?_) ?_

theorem bounded_requestRepair {s : State} (q : RepairReq) (hb : s.bounded) : (State.requestRepair s q).bounded := by
  unfold State.requestRepair
  try dsimp only
  repeat' first
    | with_reducible assumption
    | with_reducible apply bounded_addChunks
    | with_reducible apply bounded_checkRepair
    | with_reducible apply bounded_modPat
    | with_reducible apply bounded_openRepair
    | with_reducible apply bounded_setRepair
    | with_reducible apply bounded_shipLost
    | split

theorem bounded_repairFetched {s : State} (n idx : Nat) (a : ChunkAnswer) (hb : s.bounded) : (State.repairFetched s n idx a).bounded := by
  unfold State.repairFetched
  try dsimp only
  repeat' first
    | with_reducible assumption
    | with_reducible apply bounded_askRoom
    | with_reducible apply bounded_leavePlaces
    | with_reducible apply bounded_loseRepair
    | with_reducible apply bounded_modChunk
    | with_reducible apply bounded_progress
    | split
    | (simp only [bounded_mk]; with_reducible refine bounded_unfold ?_)

theorem bounded_fixEnded {s : State} (n idx : Nat) (ok : Bool) (hb : s.bounded) : (State.fixEnded s n idx ok).bounded := by
  unfold State.fixEnded
  repeat' first
    | with_reducible assumption
    | with_reducible apply bounded_checkRepair
    | with_reducible apply bounded_chunkOffsite
    | with_reducible apply bounded_freeAllOf
    | with_reducible apply bounded_freeSlotsIf
    | with_reducible apply bounded_loseRepair
    | with_reducible apply bounded_modChunk
    | with_reducible apply bounded_modRepair
    | split

theorem bounded_verifyEnded {s : State} (n : Nat) (cause : PullCause) (hb : s.bounded) : (State.verifyEnded s n cause).bounded := by
  unfold State.verifyEnded
  try dsimp only
  repeat' first
    | with_reducible assumption
    | with_reducible apply bounded_freeAllOf
    | with_reducible apply bounded_leaveItem
    | with_reducible apply bounded_modItem
    | with_reducible apply bounded_requestRepair
    | with_reducible apply bounded_setRepair
    | with_reducible apply bounded_setVerified
    | split

theorem bounded_checkFold {s : State} (f : Fold) (hb : s.bounded) : (State.checkFold s f).bounded := by
  unfold State.checkFold
  repeat' first
    | with_reducible assumption
    | with_reducible apply bounded_modPat
    | with_reducible apply bounded_setVerified
    | split

theorem bounded_endClearing {s : State} (hb : s.bounded) : (State.endClearing s).bounded := by
  unfold State.endClearing
  repeat' first
    | with_reducible assumption
    | with_reducible apply bounded_leaveItem
    | with_reducible apply bounded_modPat
    | split
    | with_reducible refine bounded_foldl _ _ (fun _ _ _ => ?_) ?_

theorem bounded_checkRepairs {s : State} (hb : s.bounded) : (State.checkRepairs s).bounded := by
  unfold State.checkRepairs
  try dsimp only
  repeat' first
    | with_reducible assumption
    | with_reducible apply bounded_checkRepair
    | split
    | with_reducible refine bounded_foldl _ _ (fun _ _ _ => ?_) ?_
    | with_reducible refine bounded_iter _ _ (fun _ _ => ?_) ?_
    | (simp only [bounded_mk]; with_reducible refine bounded_unfold ?_)

theorem bounded_settlePatrol {s : State} (hb : s.bounded) : (State.settlePatrol s).bounded := by
  unfold State.settlePatrol
  try dsimp only
  repeat' first
    | with_reducible assumption
    | with_reducible apply bounded_abandonIf
    | with_reducible apply bounded_checkFold
    | with_reducible apply bounded_checkRepairs
    | with_reducible apply bounded_decideItem
    | with_reducible apply bounded_endClearing
    | split
    | with_reducible refine bounded_foldl _ _ (fun _ _ _ => ?_) ?_
    | (simp only [bounded_mk]; with_reducible refine bounded_unfold ?_)

theorem bounded_settle {s : State} (hb : s.bounded) : (State.settle s).bounded := by
  unfold State.settle
  repeat' first
    | with_reducible assumption
    | with_reducible apply bounded_settleLink
    | with_reducible apply bounded_settlePatrol

theorem bounded_applyWindow {s : State} (hb : s.bounded) : (State.applyWindow s).bounded := by
  unfold State.applyWindow
  repeat' first
    | with_reducible assumption
    | (with_reducible refine bounded_modSup _ (fun hs => by simp_all [supBounded]) (by simp) ?_)

theorem bounded_applyPending {s : State} (hb : s.bounded) : (State.applyPending s).bounded := by
  unfold State.applyPending
  repeat' first
    | with_reducible assumption
    | with_reducible apply bounded_applyWindow
    | (with_reducible refine bounded_modSup _ (fun hs => by simp_all [supBounded]) (by simp) ?_)

theorem bounded_reckonClose {s : State} (hb : s.bounded) : (State.reckonClose s).bounded := by
  unfold State.reckonClose
  repeat' first
    | with_reducible assumption
    | with_reducible apply bounded_modOff

theorem bounded_openWindow {s : State} (hb : s.bounded) : (State.openWindow s).bounded := by
  unfold State.openWindow
  repeat' first
    | with_reducible assumption
    | with_reducible apply bounded_applyPending
    | with_reducible apply bounded_askOpening
    | with_reducible apply bounded_modOff
    | with_reducible apply bounded_openDue
    | with_reducible apply bounded_reckonClose
    | with_reducible refine bounded_foldl _ _ (fun _ _ _ => ?_) ?_

theorem bounded_evaluateOpen {s : State} (hb : s.bounded) : (State.evaluateOpen s).bounded := by
  unfold State.evaluateOpen
  repeat' first
    | with_reducible assumption
    | with_reducible apply bounded_openWindow
    | split

theorem bounded_tryEndNight {s : State} (hb : s.bounded) : (State.tryEndNight s).bounded := by
  unfold State.tryEndNight
  repeat' first
    | with_reducible assumption
    | with_reducible apply bounded_applyWindow
    | with_reducible apply bounded_dropShipPins
    | with_reducible apply bounded_evaluateOpen
    | with_reducible apply bounded_modOff
    | with_reducible apply bounded_modPat
    | with_reducible apply bounded_raise
    | split
    | with_reducible refine bounded_foldl _ _ (fun _ _ _ => ?_) ?_

theorem bounded_closeWindow {s : State} (hb : s.bounded) : (State.closeWindow s).bounded := by
  unfold State.closeWindow
  try dsimp only
  repeat' first
    | with_reducible assumption
    | with_reducible apply bounded_cancelRuns
    | with_reducible apply bounded_closeDue
    | with_reducible apply bounded_freeFullShip
    | with_reducible apply bounded_modOff
    | with_reducible apply bounded_tryEndNight
    | split
    | with_reducible refine bounded_foldl _ _ (fun _ _ _ => ?_) ?_
    | (simp only [bounded_mk]; with_reducible refine bounded_unfold ?_)

theorem bounded_evaluateWindow {s : State} (hb : s.bounded) : (State.evaluateWindow s).bounded := by
  unfold State.evaluateWindow
  repeat' first
    | with_reducible assumption
    | with_reducible apply bounded_closeWindow
    | with_reducible apply bounded_evaluateOpen
    | split

theorem bounded_joinPlan {s : State} (vol t : Nat) (hb : s.bounded) : (State.joinPlan s vol t).bounded := by
  unfold State.joinPlan
  repeat' first
    | with_reducible assumption
    | with_reducible apply bounded_modOff
    | with_reducible apply bounded_modVolume
    | with_reducible apply bounded_takePin
    | split

theorem bounded_reportMissed {s : State} (vol : Nat) (hb : s.bounded) : (State.reportMissed s vol).bounded := by
  unfold State.reportMissed
  repeat' first
    | with_reducible assumption
    | with_reducible apply bounded_modOff
    | split

theorem bounded_missDue {s : State} (vol : Nat) (hb : s.bounded) : (State.missDue s vol).bounded := by
  unfold State.missDue
  repeat' first
    | with_reducible assumption
    | with_reducible apply bounded_closeDue
    | with_reducible apply bounded_raise
    | with_reducible apply bounded_reportMissed
    | split

theorem bounded_missLate {s : State} (hb : s.bounded) : (State.missLate s).bounded := by
  unfold State.missLate
  repeat' first
    | with_reducible assumption
    | with_reducible apply bounded_missDue
    | split
    | with_reducible refine bounded_foldl _ _ (fun _ _ _ => ?_) ?_

theorem bounded_countVisit {s : State} (vol : Nat) (hb : s.bounded) : (State.countVisit s vol).bounded := by
  unfold State.countVisit
  repeat' first
    | with_reducible assumption
    | with_reducible apply bounded_failVolume
    | with_reducible apply bounded_modPlan
    | split

theorem bounded_reportParked {s : State} (vol ext : Nat) (es : List ShipEntry) (hb : s.bounded) : (State.reportParked s vol ext es).bounded := by
  unfold State.reportParked
  try dsimp only
  repeat' first
    | with_reducible assumption
    | with_reducible apply bounded_requestRepair
    | split
    | (simp only [bounded_mk]; with_reducible refine bounded_unfold ?_)

theorem bounded_shipVisit {s : State} (hb : s.bounded) : (State.shipVisit s).bounded := by
  unfold State.shipVisit
  try dsimp only
  repeat' first
    | with_reducible assumption
    | with_reducible apply bounded_failVolume
    | with_reducible apply bounded_modOff
    | with_reducible apply bounded_modPlan
    | with_reducible apply bounded_modVolume
    | with_reducible apply bounded_reportParked
    | split
    | (simp only [bounded_mk]; with_reducible refine bounded_unfold ?_)

theorem bounded_finishVolume {s : State} (hb : s.bounded) : (State.finishVolume s).bounded := by
  unfold State.finishVolume
  repeat' first
    | with_reducible assumption
    | with_reducible apply bounded_modOff
    | with_reducible apply bounded_modPlan
    | split

theorem bounded_shedScope {s : State} (sc : Nat) (hb : s.bounded) : (State.shedScope s sc).bounded := by
  unfold State.shedScope
  repeat' first
    | with_reducible assumption
    | with_reducible apply bounded_dropShipPins
    | with_reducible apply bounded_modOff
    | with_reducible apply bounded_modPlan
    | with_reducible apply bounded_shedEntries
    | with_reducible refine bounded_foldl _ _ (fun _ _ _ => ?_) ?_

theorem bounded_shedOnce {s : State} (hb : s.bounded) : (State.shedOnce s).bounded := by
  unfold State.shedOnce
  repeat' first
    | with_reducible assumption
    | with_reducible apply bounded_raise
    | with_reducible apply bounded_shedScope
    | split

theorem bounded_endInterval {s : State} (hb : s.bounded) : (State.endInterval s).bounded := by
  unfold State.endInterval
  try dsimp only
  repeat' first
    | with_reducible assumption
    | with_reducible apply bounded_modOff
    | with_reducible apply bounded_shedOnce
    | split
    | with_reducible refine bounded_iter _ _ (fun _ _ => ?_) ?_

theorem bounded_modRst {s : State} (f : RestoreEngine → RestoreEngine) (hb : s.bounded) : (State.modRst s f).bounded := by
  unfold State.modRst
  repeat' first
    | with_reducible assumption
    | (simp only [bounded_mk]; with_reducible refine bounded_unfold ?_)

theorem bounded_modActive {s : State} (person : Nat) (f : Nat → Nat) (hb : s.bounded) : (State.modActive s person f).bounded := by
  unfold State.modActive
  repeat' first
    | with_reducible assumption
    | with_reducible apply bounded_modPrin

theorem bounded_askRelease {s : State} (person blocks : Nat) (hb : s.bounded) : (State.askRelease s person blocks).bounded := by
  unfold State.askRelease
  repeat' first
    | with_reducible assumption
    | with_reducible apply bounded_pushOp
    | split

theorem bounded_raiseEnd {s : State} (rec : Nat) (hb : s.bounded) : (State.raiseEnd s rec).bounded := by
  unfold State.raiseEnd
  repeat' first
    | with_reducible assumption
    | with_reducible apply bounded_raise
    | split

theorem bounded_unlockStep {s : State} (rec i : Nat) (hb : s.bounded) : (State.unlockStep s rec i).bounded := by
  unfold State.unlockStep
  repeat' first
    | with_reducible assumption
    | with_reducible apply bounded_unlock
    | split

theorem bounded_dropRestorePin {s : State} (rec : Nat) (hb : s.bounded) : (State.dropRestorePin s rec).bounded := by
  unfold State.dropRestorePin
  repeat' first
    | with_reducible assumption
    | with_reducible apply bounded_dropPin
    | with_reducible apply bounded_modRestore
    | split

theorem bounded_unlockSteps {s : State} (rec : Nat) (is : List Nat) (hb : s.bounded) : (State.unlockSteps s rec is).bounded := by
  unfold State.unlockSteps
  repeat' first
    | with_reducible assumption
    | with_reducible apply bounded_unlockStep
    | with_reducible refine bounded_foldl _ _ (fun _ _ _ => ?_) ?_

theorem bounded_dropStep {s : State} (rec i : Nat) (hb : s.bounded) : (State.dropStep s rec i).bounded := by
  unfold State.dropStep
  repeat' first
    | with_reducible assumption
    | with_reducible apply bounded_freeHolder
    | with_reducible apply bounded_leavePlaces
    | with_reducible apply bounded_withdrawFetch

theorem bounded_finishAs {s : State} (rec : Nat) (st : RestoreState) (cause : Option FailCause) (failed : Option (Nat × StepReason)) (hb : s.bounded) : (State.finishAs s rec st cause failed).bounded := by
  unfold State.finishAs
  repeat' first
    | with_reducible assumption
    | with_reducible apply bounded_modRestore
    | with_reducible apply bounded_modRst

theorem bounded_releaseBlocks {s : State} (rec blocks : Nat) (hb : s.bounded) : (State.releaseBlocks s rec blocks).bounded := by
  unfold State.releaseBlocks
  repeat' first
    | with_reducible assumption
    | with_reducible apply bounded_askRelease
    | with_reducible apply bounded_modRestore
    | split

theorem bounded_settlePin {s : State} (rec : Nat) (hb : s.bounded) : (State.settlePin s rec).bounded := by
  unfold State.settlePin
  repeat' first
    | with_reducible assumption
    | with_reducible apply bounded_dropRestorePin
    | split

theorem bounded_becomeCancelled {s : State} (rec : Nat) (hb : s.bounded) : (State.becomeCancelled s rec).bounded := by
  unfold State.becomeCancelled
  repeat' first
    | with_reducible assumption
    | with_reducible apply bounded_dropRestorePin
    | with_reducible apply bounded_finishAs
    | with_reducible apply bounded_modActive
    | with_reducible apply bounded_raiseEnd
    | with_reducible apply bounded_releaseBlocks
    | split

theorem bounded_afterStep {s : State} (rec : Nat) (hb : s.bounded) : (State.afterStep s rec).bounded := by
  unfold State.afterStep
  repeat' first
    | with_reducible assumption
    | with_reducible apply bounded_becomeCancelled
    | with_reducible apply bounded_dropRestorePin
    | with_reducible apply bounded_finishAs
    | with_reducible apply bounded_modActive
    | with_reducible apply bounded_modRestore
    | with_reducible apply bounded_raiseEnd
    | with_reducible apply bounded_settlePin
    | split

theorem bounded_failStep {s : State} (rec i : Nat) (why : StepReason) (hb : s.bounded) : (State.failStep s rec i why).bounded := by
  unfold State.failStep
  repeat' first
    | with_reducible assumption
    | with_reducible apply bounded_dropStep
    | with_reducible apply bounded_finishAs
    | with_reducible apply bounded_modActive
    | with_reducible apply bounded_modStep
    | with_reducible apply bounded_raiseEnd
    | with_reducible apply bounded_releaseBlocks
    | with_reducible apply bounded_settlePin
    | with_reducible apply bounded_unlockStep
    | split
    | with_reducible refine bounded_foldl _ _ (fun _ _ _ => ?_) ?_

theorem bounded_stepConverted {s : State} (rec i : Nat) (hb : s.bounded) : (State.stepConverted s rec i).bounded := by
  unfold State.stepConverted
  repeat' first
    | with_reducible assumption
    | with_reducible apply bounded_afterStep
    | with_reducible apply bounded_modRestore
    | with_reducible apply bounded_modStep
    | with_reducible apply bounded_unlockStep
    | split

theorem bounded_releaseConversions {s : State} (rec : Nat) (hb : s.bounded) : (State.releaseConversions s rec).bounded := by
  unfold State.releaseConversions
  try dsimp only
  repeat' first
    | with_reducible assumption
    | split
    | (simp only [bounded_mk]; with_reducible refine bounded_unfold ?_)

theorem bounded_orphanSlots {s : State} (l : Link) (rec : Nat) (d : Directive) (hb : s.bounded) : (State.orphanSlots s l rec d).bounded := by
  unfold State.orphanSlots
  try dsimp only
  repeat' first
    | with_reducible assumption
    | split
    | (simp only [bounded_mk]; with_reducible refine bounded_unfold ?_)

theorem bounded_orphanSteps {s : State} (rec : Nat) (hb : s.bounded) : (State.orphanSteps s rec).bounded := by
  unfold State.orphanSteps
  try dsimp only
  repeat' first
    | with_reducible assumption
    | with_reducible apply bounded_orphanSlots
    | split
    | with_reducible refine bounded_foldl _ _ (fun _ _ _ => ?_) ?_
    | (with_reducible refine bounded_modLink _ _ (fun _ hr => hr) ?_)
    | (with_reducible refine bounded_modLink _ _ (fun _ hr => lb_filter _ hr) ?_)
    | (with_reducible refine bounded_modLink _ _ (fun _ hr => ?_) ?_; (simp only [LinkRec.bounded] at hr ⊢; (repeat' split) <;> simp_all))
    | (simp only [bounded_mk]; with_reducible refine bounded_unfold ?_)

theorem bounded_failInFlight {s : State} (rec : Nat) (why : StepReason) (hb : s.bounded) : (State.failInFlight s rec why).bounded := by
  unfold State.failInFlight
  try dsimp only
  repeat' first
    | with_reducible assumption
    | with_reducible apply bounded_dropStep
    | with_reducible apply bounded_modStep
    | with_reducible apply bounded_orphanSteps
    | with_reducible apply bounded_releaseConversions
    | split
    | with_reducible refine bounded_foldl _ _ (fun _ _ _ => ?_) ?_
    | (simp only [bounded_mk]; with_reducible refine bounded_unfold ?_)

theorem bounded_unlockAll {s : State} (rec : Nat) (hb : s.bounded) : (State.unlockAll s rec).bounded := by
  unfold State.unlockAll
  repeat' first
    | with_reducible assumption
    | with_reducible apply bounded_unlockSteps
    | split

theorem bounded_powerFail {s : State} (rec : Nat) (hb : s.bounded) : (State.powerFail s rec).bounded := by
  unfold State.powerFail
  repeat' first
    | with_reducible assumption
    | with_reducible apply bounded_dropRestorePin
    | with_reducible apply bounded_failInFlight
    | with_reducible apply bounded_finishAs
    | with_reducible apply bounded_modActive
    | with_reducible apply bounded_raiseEnd
    | with_reducible apply bounded_releaseBlocks
    | with_reducible apply bounded_settlePin
    | with_reducible apply bounded_unlockAll
    | with_reducible apply bounded_unlockSteps
    | split

theorem bounded_storeFail {s : State} (rec : Nat) (readable : Bool) (hb : s.bounded) : (State.storeFail s rec readable).bounded := by
  unfold State.storeFail
  try dsimp only
  repeat' first
    | with_reducible assumption
    | with_reducible apply bounded_dropRestorePin
    | with_reducible apply bounded_failInFlight
    | with_reducible apply bounded_finishAs
    | with_reducible apply bounded_modActive
    | with_reducible apply bounded_modRestore
    | with_reducible apply bounded_raise
    | with_reducible apply bounded_raiseEnd
    | with_reducible apply bounded_releaseBlocks
    | with_reducible apply bounded_unlockAll
    | split
    | (simp only [bounded_mk]; with_reducible refine bounded_unfold ?_)

theorem bounded_refuseAcceptance {s : State} (a : Acceptance) (hb : s.bounded) : (State.refuseAcceptance s a).bounded := by
  unfold State.refuseAcceptance
  repeat' first
    | with_reducible assumption
    | with_reducible apply bounded_dropPin
    | with_reducible apply bounded_unlock
    | with_reducible refine bounded_foldl _ _ (fun _ _ _ => ?_) ?_
    | (simp only [bounded_mk]; with_reducible refine bounded_unfold ?_)

theorem bounded_writeRecord {s : State} (a : Acceptance) (hb : s.bounded) : (State.writeRecord s a).bounded := by
  unfold State.writeRecord
  try dsimp only
  repeat' first
    | with_reducible assumption
    | with_reducible apply bounded_modActive
    | with_reducible apply bounded_modRst
    | with_reducible apply bounded_powerFail
    | with_reducible apply bounded_refuseAcceptance
    | with_reducible apply bounded_reply
    | with_reducible apply bounded_unlockSteps
    | split

theorem bounded_reserved {s : State} (o : Admission) (hb : s.bounded) : (State.reserved s o).bounded := by
  unfold State.reserved
  repeat' first
    | with_reducible assumption
    | with_reducible apply bounded_refuseAcceptance
    | with_reducible apply bounded_reply
    | with_reducible apply bounded_writeRecord
    | split

theorem bounded_underflow {s : State} (person blocks : Nat) (link : Link) (hb : s.bounded) : (State.underflow s person blocks link).bounded := by
  unfold State.underflow
  repeat' first
    | with_reducible assumption
    | with_reducible apply bounded_raise
    | split

theorem bounded_jobNotices {s : State} (j : Job) (hb : s.bounded) : (s.jobNotices j).bounded := by
  cases j <;> simp only [State.jobNotices] <;> (try split) <;>
    first | with_reducible exact hb | with_reducible exact bounded_underflow _ _ _ hb

theorem bounded_writeEdit {s : State} (id : Nat) (c : EditChanges) (hb : s.bounded) : (State.writeEdit s id c).bounded := by
  unfold State.writeEdit
  repeat' first
    | with_reducible assumption
    | with_reducible apply bounded_modPrin

theorem bounded_modMembers {s : State} (pool : Nat) (f : Nat → Nat) (hb : s.bounded) : (State.modMembers s pool f).bounded := by
  unfold State.modMembers
  repeat' first
    | with_reducible assumption
    | with_reducible apply bounded_modPrin

theorem bounded_moveCounts {s : State} (p : Principal) (id : Nat) (c : EditChanges) (hb : s.bounded) : (State.moveCounts s p id c).bounded := by
  unfold State.moveCounts
  repeat' first
    | with_reducible assumption
    | with_reducible apply bounded_memberUnsettled
    | with_reducible apply bounded_modMembers
    | with_reducible apply bounded_modPrin
    | split
    | with_reducible refine bounded_foldl _ _ (fun _ _ _ => ?_) ?_

theorem bounded_deletePrincipal {s : State} (id : Nat) (hb : s.bounded) : (State.deletePrincipal s id).bounded := by
  unfold State.deletePrincipal
  repeat' first
    | with_reducible assumption
    | with_reducible apply bounded_leaveGraceQueue
    | with_reducible apply bounded_modMembers
    | split
    | with_reducible refine bounded_foldl _ _ (fun _ _ _ => ?_) ?_
    | (simp only [bounded_mk]; with_reducible refine bounded_unfold ?_)

theorem bounded_regatherIf {s : State} (again : TallyOp → Bool) (hb : s.bounded) : (State.regatherIf s again).bounded := by
  unfold State.regatherIf
  try dsimp only
  repeat' first
    | with_reducible assumption
    | split
    | (simp only [bounded_mk]; with_reducible refine bounded_unfold ?_)

theorem bounded_regather {s : State} (id : Nat) (hb : s.bounded) : (State.regather s id).bounded := by
  unfold State.regather
  try dsimp only
  repeat' first
    | with_reducible assumption
    | with_reducible apply bounded_regatherIf
    | split
    | (simp only [bounded_mk]; with_reducible refine bounded_unfold ?_)

theorem bounded_recompute {s : State} (id : Nat) (hb : s.bounded) : (State.recompute s id).bounded := by
  unfold State.recompute
  try dsimp only
  repeat' first
    | with_reducible assumption
    | with_reducible apply bounded_regatherIf
    | split
    | (simp only [bounded_mk]; with_reducible refine bounded_unfold ?_)

theorem bounded_jobRecords {s : State} (j : Job) (hb : s.bounded) : (s.jobRecords j).bounded := by
  cases j <;> simp only [State.jobRecords] <;> (try split) <;>
    first
    | with_reducible exact hb
    | with_reducible exact bounded_foldl _ _ (fun _ _ h => bounded_modPrin _ _ h) hb
    | (split
       · with_reducible exact bounded_regather _ (bounded_writeEdit _ _ (bounded_moveCounts _ _ _ hb))
       · with_reducible exact bounded_writeEdit _ _ (bounded_moveCounts _ _ _ hb))
    | with_reducible exact bounded_regather _ (bounded_deletePrincipal _ hb)

theorem bounded_jobApplied {s : State} (o : TallyOp) (hb : s.bounded) : (State.jobApplied s o).bounded := by
  unfold State.jobApplied
  repeat' first
    | with_reducible assumption
    | with_reducible apply bounded_reserved
    | with_reducible apply bounded_stepConverted
    | split
    | (simp only [bounded_mk]; with_reducible refine bounded_unfold ?_)

theorem bounded_completeOp {s : State} (num : Nat) (hb : s.bounded) : (State.completeOp s num).bounded := by
  unfold State.completeOp
  repeat' first
    | with_reducible assumption
    | with_reducible apply bounded_dropOp
    | with_reducible apply bounded_modOp
    | with_reducible apply bounded_reply
    | split

theorem bounded_applyOp {s : State} (num : Nat) (hb : s.bounded) : (State.applyOp s num).bounded := by
  unfold State.applyOp
  repeat' first
    | with_reducible assumption
    | with_reducible apply bounded_applyChanges
    | with_reducible apply bounded_beginRecount
    | with_reducible apply bounded_completeOp
    | with_reducible apply bounded_evalGraceAll
    | with_reducible apply bounded_jobApplied
    | with_reducible apply bounded_jobNotices
    | with_reducible apply bounded_jobRecords
    | with_reducible apply bounded_modOp
    | with_reducible apply bounded_releaseLines
    | split
    | with_reducible refine bounded_foldl _ _ (fun _ _ _ => ?_) ?_
    | (simp only [bounded_mk]; with_reducible refine bounded_unfold ?_)

theorem bounded_runOp {s : State} (num : Nat) (hb : s.bounded) : (State.runOp s num).bounded := by
  unfold State.runOp
  try dsimp only
  repeat' first
    | with_reducible assumption
    | with_reducible apply bounded_applyOp
    | with_reducible apply bounded_lazyExpireAll
    | with_reducible apply bounded_modOp
    | split

theorem bounded_calculate {s : State} (num : Nat) (hb : s.bounded) : (State.calculate s num).bounded := by
  unfold State.calculate
  try dsimp only
  repeat' first
    | with_reducible assumption
    | with_reducible apply bounded_completeOp
    | with_reducible apply bounded_lazyExpireAll
    | with_reducible apply bounded_modOp
    | with_reducible apply bounded_releaseLines
    | with_reducible apply bounded_reserved
    | with_reducible apply bounded_runOp
    | split

theorem bounded_endMarking {s : State} (num : Nat) (hb : s.bounded) : (State.endMarking s num).bounded := by
  unfold State.endMarking
  repeat' first
    | with_reducible assumption
    | with_reducible apply bounded_applyOp
    | with_reducible apply bounded_writeMarkers
    | split

theorem bounded_clearNote {s : State} (o : TallyOp) (hb : s.bounded) : (State.clearNote s o).bounded := by
  unfold State.clearNote
  try dsimp only
  repeat' first
    | with_reducible assumption
    | split
    | with_reducible refine bounded_foldl _ _ (fun _ _ _ => ?_) ?_
    | (simp only [bounded_mk]; with_reducible refine bounded_unfold ?_)

theorem bounded_endInPlace {s : State} (id : Nat) (hb : s.bounded) : (State.endInPlace s id).bounded := by
  unfold State.endInPlace
  try dsimp only
  repeat' first
    | with_reducible assumption
    | with_reducible apply bounded_clearNote
    | with_reducible apply bounded_completeOp
    | with_reducible apply bounded_endWrite
    | with_reducible apply bounded_modOp
    | split
    | (simp only [bounded_mk]; with_reducible refine bounded_unfold ?_)

theorem bounded_setFrozen {s : State} (id : Nat) (b : Bool) (hb : s.bounded) : (State.setFrozen s id b).bounded := by
  unfold State.setFrozen
  repeat' first
    | with_reducible assumption
    | with_reducible apply bounded_modPrin

theorem bounded_advanceOp {s : State} (num : Nat) (hb : s.bounded) : (State.advanceOp s num).bounded := by
  unfold State.advanceOp
  try dsimp only
  repeat' first
    | with_reducible assumption
    | with_reducible apply bounded_dropOp
    | with_reducible apply bounded_gather
    | with_reducible apply bounded_releaseLines
    | with_reducible apply bounded_reply
    | with_reducible apply bounded_runOp
    | split

theorem bounded_advanceOps {s : State} (hb : s.bounded) : (State.advanceOps s).bounded := by
  unfold State.advanceOps
  repeat' first
    | with_reducible assumption
    | with_reducible apply bounded_advanceOp
    | with_reducible refine bounded_foldl _ _ (fun _ _ _ => ?_) ?_

theorem bounded_endModeSwitch {s : State} (hb : s.bounded) : (State.endModeSwitch s).bounded := by
  unfold State.endModeSwitch
  try dsimp only
  repeat' first
    | with_reducible assumption
    | with_reducible apply bounded_reply
    | split
    | with_reducible refine bounded_foldl _ _ (fun _ _ _ => ?_) ?_
    | (simp only [bounded_mk]; with_reducible refine bounded_unfold ?_)

theorem bounded_advance {s : State} (hb : s.bounded) : (State.advance s).bounded := by
  unfold State.advance
  try dsimp only
  repeat' first
    | with_reducible assumption
    | with_reducible apply bounded_advanceOps
    | with_reducible apply bounded_castoutDirty
    | with_reducible apply bounded_endModeSwitch
    | with_reducible apply bounded_takePosting
    | split
    | with_reducible refine bounded_iter _ _ (fun _ _ => ?_) ?_
    | (simp only [bounded_mk]; with_reducible refine bounded_unfold ?_)

theorem bounded_acceptRestore {s : State} (q : RestoreReq) (hb : s.bounded) : (State.acceptRestore s q).bounded := by
  unfold State.acceptRestore
  try dsimp only
  repeat' first
    | with_reducible assumption
    | with_reducible apply bounded_dropPin
    | with_reducible apply bounded_lockRange
    | with_reducible apply bounded_modRst
    | with_reducible apply bounded_pushOp
    | with_reducible apply bounded_reply
    | with_reducible apply bounded_takePin
    | split
    | (simp only [bounded_mk]; with_reducible refine bounded_unfold ?_)

theorem bounded_startRestore {s : State} (hb : s.bounded) : (State.startRestore s).bounded := by
  unfold State.startRestore
  repeat' first
    | with_reducible assumption
    | with_reducible apply bounded_afterStep
    | with_reducible apply bounded_modRestore
    | split

theorem bounded_issueFetch {s : State} (rec i : Nat) (r : Restore) (v : Version) (hb : s.bounded) : (State.issueFetch s rec i r v).bounded := by
  unfold State.issueFetch
  try dsimp only
  repeat' first
    | with_reducible assumption
    | with_reducible apply bounded_modOff
    | with_reducible apply bounded_modStep
    | with_reducible apply bounded_placeFetch
    | split

theorem bounded_toFetchStep {s : State} (rec i : Nat) (r : Restore) (v : Version) (hb : s.bounded) : (State.toFetchStep s rec i r v).bounded := by
  unfold State.toFetchStep
  repeat' first
    | with_reducible assumption
    | with_reducible apply bounded_issueFetch
    | with_reducible apply bounded_leavePlaces
    | with_reducible apply bounded_modStep

theorem bounded_takeUp {s : State} (rec i : Nat) (hb : s.bounded) : (State.takeUp s rec i).bounded := by
  unfold State.takeUp
  try dsimp only
  repeat' first
    | with_reducible assumption
    | with_reducible apply bounded_failStep
    | with_reducible apply bounded_handDirective
    | with_reducible apply bounded_issueFetch
    | with_reducible apply bounded_modStep
    | with_reducible apply bounded_toFetchStep
    | with_reducible apply bounded_waitPlace
    | (with_reducible refine bounded_incRef _ _ _ ?_ (by assumption))
    | split

theorem bounded_issuePut {s : State} (rec i : Nat) (hb : s.bounded) : (State.issuePut s rec i).bounded := by
  unfold State.issuePut
  repeat' first
    | with_reducible assumption
    | with_reducible apply bounded_handDirective
    | with_reducible apply bounded_modStep
    | with_reducible apply bounded_setSlots
    | with_reducible apply bounded_waitPlace
    | split

theorem bounded_completeStep {s : State} (rec i loc : Nat) (hb : s.bounded) : (State.completeStep s rec i loc).bounded := by
  unfold State.completeStep
  try dsimp only
  repeat' first
    | with_reducible assumption
    | with_reducible apply bounded_abandonIf
    | with_reducible apply bounded_commit
    | with_reducible apply bounded_failStep
    | with_reducible apply bounded_modStep
    | with_reducible apply bounded_pushOp
    | with_reducible apply bounded_sendReclaim
    | split

theorem bounded_stepDirectiveFailed {s : State} (rec i : Nat) (why : DirFailure) (hb : s.bounded) : (State.stepDirectiveFailed s rec i why).bounded := by
  unfold State.stepDirectiveFailed
  try dsimp only
  repeat' first
    | with_reducible assumption
    | with_reducible apply bounded_afterStep
    | with_reducible apply bounded_askRoom
    | with_reducible apply bounded_failStep
    | with_reducible apply bounded_freeAllOf
    | with_reducible apply bounded_modStep
    | split
    | (simp only [bounded_mk]; with_reducible refine bounded_unfold ?_)

theorem bounded_stepFetched {s : State} (rec i : Nat) (idx : Option Nat) (a : ChunkAnswer) (hb : s.bounded) : (State.stepFetched s rec i idx a).bounded := by
  unfold State.stepFetched
  try dsimp only
  repeat' first
    | with_reducible assumption
    | with_reducible apply bounded_askRoom
    | with_reducible apply bounded_failStep
    | with_reducible apply bounded_leavePlaces
    | with_reducible apply bounded_modStep
    | split
    | (simp only [bounded_mk]; with_reducible refine bounded_unfold ?_)

theorem bounded_cancelRestore {s : State} (rec : Nat) (hb : s.bounded) : (State.cancelRestore s rec).2.bounded := by
  have hg : ∀ (waits : List Nat), (waits.foldl (fun (s : State) i =>
      ((s.modStep rec i fun t => { t with again := false }).dropStep rec i).unlockStep rec i) s).bounded :=
    fun waits => bounded_foldl _ _ (fun s i h => bounded_unlockStep _ _ (bounded_dropStep _ _ (bounded_modStep _ _ _ h))) hb
  unfold State.cancelRestore
  split
  · exact hb
  · dsimp only
    split <;> (try split) <;> first
      | with_reducible exact hb
      | with_reducible exact bounded_becomeCancelled _ (hg _)
      | with_reducible exact bounded_afterStep _ (bounded_modRestore _ _ (hg _))

theorem bounded_pauseRestores {s : State} (hb : s.bounded) : (State.pauseRestores s).bounded := by
  unfold State.pauseRestores
  repeat' first
    | with_reducible assumption
    | with_reducible apply bounded_afterStep
    | with_reducible apply bounded_leavePlaces
    | with_reducible apply bounded_modOff
    | with_reducible apply bounded_modRestore
    | split
    | with_reducible refine bounded_foldl _ _ (fun _ _ _ => ?_) ?_

theorem bounded_resumeRestores {s : State} (hb : s.bounded) : (State.resumeRestores s).bounded := by
  unfold State.resumeRestores
  repeat' first
    | with_reducible assumption
    | with_reducible apply bounded_afterStep
    | with_reducible apply bounded_modRestore
    | split
    | with_reducible refine bounded_foldl _ _ (fun _ _ _ => ?_) ?_

theorem bounded_makeUnsettled {s : State} (id : Nat) (hb : s.bounded) : (State.makeUnsettled s id).bounded := by
  unfold State.makeUnsettled
  try dsimp only
  repeat' first
    | with_reducible assumption
    | with_reducible apply bounded_beginRecount
    | with_reducible apply bounded_memberUnsettled
    | with_reducible apply bounded_modPrin
    | split
    | with_reducible refine bounded_foldl _ _ (fun _ _ _ => ?_) ?_
    | (simp only [bounded_mk]; with_reducible refine bounded_unfold ?_)

theorem bounded_unsettlePools {s : State} (hb : s.bounded) : (State.unsettlePools s).bounded := by
  unfold State.unsettlePools
  try dsimp only
  repeat' first
    | with_reducible assumption
    | with_reducible apply bounded_beginRecount
    | with_reducible apply bounded_modPrin
    | with_reducible apply bounded_recompute
    | split
    | with_reducible refine bounded_foldl _ _ (fun _ _ _ => ?_) ?_
    | (simp only [bounded_mk]; with_reducible refine bounded_unfold ?_)

theorem bounded_endPrincipalError {s : State} (id : Nat) (changed : Bool) (hb : s.bounded) : (State.endPrincipalError s id changed).bounded := by
  unfold State.endPrincipalError
  try dsimp only
  repeat' first
    | with_reducible assumption
    | with_reducible apply bounded_advance
    | with_reducible apply bounded_evalGrace
    | with_reducible apply bounded_makeUnsettled
    | with_reducible apply bounded_modPrin
    | with_reducible apply bounded_raise
    | with_reducible apply bounded_recompute
    | split
    | (simp only [bounded_mk]; with_reducible refine bounded_unfold ?_)

theorem bounded_vacate {s : State} (n : Nat) (hb : s.bounded) : (State.vacate s n).bounded := by
  unfold State.vacate
  try dsimp only
  repeat' first
    | with_reducible assumption
    | with_reducible apply bounded_modOff
    | split
    | (simp only [bounded_mk]; with_reducible refine bounded_unfold ?_)

theorem bounded_meet {s : State} (e : StoreError) (hb : s.bounded) : (State.meet s e).bounded := by
  unfold State.meet
  try dsimp only
  repeat' first
    | with_reducible assumption
    | with_reducible apply bounded_advance
    | with_reducible apply bounded_checkRepair
    | with_reducible apply bounded_damageExtent
    | with_reducible apply bounded_draw
    | with_reducible apply bounded_endPrincipalError
    | with_reducible apply bounded_freeSlot
    | with_reducible apply bounded_halt
    | with_reducible apply bounded_handBack
    | with_reducible apply bounded_leaveGraceQueue
    | with_reducible apply bounded_modPrin
    | with_reducible apply bounded_raise
    | with_reducible apply bounded_repairFetched
    | with_reducible apply bounded_settle
    | with_reducible apply bounded_settlePatrol
    | with_reducible apply bounded_stepFetched
    | with_reducible apply bounded_storeClean
    | with_reducible apply bounded_storeFail
    | with_reducible apply bounded_unsettlePools
    | with_reducible apply bounded_vacate
    | split
    | (simp only [bounded_mk]; with_reducible refine bounded_unfold ?_)

theorem bounded_withErrs {s : State} (errs : List StoreError) (f : State → State) (hf : ∀ s, s.bounded → (f s).bounded)
    (hb : s.bounded) : (withErrs errs f s).bounded := by
  have h0 : (errs.foldl (fun s e => if s.sup.op = .halted then s else s.meet e) s).bounded := by
    refine bounded_foldl _ _ (fun s e h => ?_) hb
    split
    · exact h
    · exact bounded_meet _ h
  unfold withErrs
  dsimp only
  split
  · exact h0
  · exact hf _ h0

theorem bounded_request {s : State} (l : Link) (tag : Nat) (k : ReqKind) (taken consoleOnly : Bool)
    (errs : List StoreError) (body : Nat → State → State) (hf : ∀ q s, s.bounded → (body q s).bounded) (hb : s.bounded) :
    (request l tag k taken consoleOnly errs body s).bounded := by
  unfold request
  dsimp only
  refine bounded_withErrs _ _ (fun u h0 => ?_) (bounded_busy l (bounded_arrive l hb))
  split
  · exact bounded_replyAtOnce _ _ _ _ h0
  · split
    · exact bounded_replyAtOnce _ _ _ _ h0
    · rename_i hq
      have h1 := bounded_enqueue_request l tag k taken (Nat.lt_of_not_le hq) h0
      split
      · exact bounded_reply _ _ _ _ h1
      · exact bounded_withErrs _ _ (hf _) h1

theorem bounded_foldEqual {s : State} (p : ShipPull) (idx : Nat) (hb : s.bounded) : (State.foldEqual s p idx).bounded := by
  unfold State.foldEqual
  repeat' first
    | with_reducible assumption
    | with_reducible apply bounded_modPat

theorem bounded_reportMismatch {s : State} (p : ShipPull) (idx : Nat) (hb : s.bounded) : (State.reportMismatch s p idx).bounded := by
  unfold State.reportMismatch
  repeat' first
    | with_reducible assumption
    | with_reducible apply bounded_modPat
    | with_reducible apply bounded_requestRepair

theorem bounded_withhold {s : State} (p : ShipPull) (e : ShipEntry) (hb : s.bounded) : (State.withhold s p e).bounded := by
  unfold State.withhold
  repeat' first
    | with_reducible assumption
    | with_reducible apply bounded_cancelRuns
    | with_reducible apply bounded_modEntry
    | with_reducible apply bounded_modOff
    | with_reducible apply bounded_reportMismatch
    | split

theorem bounded_shipEqual {s : State} (p : ShipPull) (e : ShipEntry) (n : Nat) (hb : s.bounded) : (State.shipEqual s p e n).bounded := by
  unfold State.shipEqual
  repeat' first
    | with_reducible assumption
    | with_reducible apply bounded_freeSlot
    | with_reducible apply bounded_makeFull
    | with_reducible apply bounded_modEntry
    | with_reducible apply bounded_takeBack
    | split

theorem bounded_shipChunk {s : State} (num idx : Nat) (data : List Byte) (hb : s.bounded) : (State.shipChunk s num idx data).bounded := by
  unfold State.shipChunk
  try dsimp only
  repeat' first
    | with_reducible assumption
    | with_reducible apply bounded_fill
    | with_reducible apply bounded_foldEqual
    | with_reducible apply bounded_freeSlot
    | with_reducible apply bounded_shipEqual
    | with_reducible apply bounded_withhold
    | split

theorem bounded_verifyChunk {s : State} (i idx : Nat) (data : List Byte) (hb : s.bounded) : (State.verifyChunk s i idx data).bounded := by
  unfold State.verifyChunk
  repeat' first
    | with_reducible assumption
    | with_reducible apply bounded_modItem
    | split
    | (simp only [bounded_mk]; with_reducible refine bounded_unfold ?_)

theorem bounded_notReceived {s : State} (p : ShipPull) (cause : PullCause) (e : ShipEntry) (hb : s.bounded) : (State.notReceived s p cause e).bounded := by
  unfold State.notReceived
  repeat' first
    | with_reducible assumption
    | with_reducible apply bounded_modEntry
    | with_reducible apply bounded_withhold
    | split

theorem bounded_pullEnded {s : State} (num : Nat) (cause : PullCause) (hb : s.bounded) : (State.pullEnded s num cause).bounded := by
  unfold State.pullEnded
  try dsimp only
  repeat' first
    | with_reducible assumption
    | with_reducible apply bounded_damageEntries
    | with_reducible apply bounded_freeEntrySlots
    | with_reducible apply bounded_freeSlotsIf
    | with_reducible apply bounded_modOff
    | with_reducible apply bounded_notReceived
    | split
    | with_reducible refine bounded_foldl _ _ (fun _ _ _ => ?_) ?_
    | (simp only [bounded_mk]; with_reducible refine bounded_unfold ?_)

theorem bounded_tellFailure {s : State} (who : Issuer) (cause : PullCause) (hb : s.bounded) : (State.tellFailure s who cause).bounded := by
  unfold State.tellFailure
  repeat' first
    | with_reducible assumption
    | with_reducible apply bounded_fixEnded
    | with_reducible apply bounded_pullEnded
    | with_reducible apply bounded_stepDirectiveFailed
    | with_reducible apply bounded_verifyEnded
    | split

theorem bounded_failDirective {s : State} (l : Link) (d : Directive) (cause : PullCause) (hb : s.bounded) : (State.failDirective s l d cause).bounded := by
  unfold State.failDirective
  try dsimp only
  repeat' first
    | with_reducible assumption
    | with_reducible apply bounded_decRefs
    | with_reducible apply bounded_endDirective
    | with_reducible apply bounded_freeAllOf
    | with_reducible apply bounded_tellFailure
    | split
    | (simp only [bounded_mk]; with_reducible refine bounded_unfold ?_)

theorem lb_reset {n : Nat} {r : LinkRec} (keepUp : Bool) (h : r.bounded n) : (r.reset keepUp).bounded n := by
  refine ⟨?_, ?_, Nat.zero_le _, by simp [LinkRec.reset]⟩
  · simp only [LinkRec.reset, List.length_map]
    exact Nat.le_trans (List.length_filter_le ..) h.1
  · intro e he
    simp only [LinkRec.reset, List.mem_map] at he
    obtain ⟨x, hx, rfl⟩ := he
    exact h.2.1 x (List.mem_of_mem_filter hx)
theorem bounded_resetLink {s : State} (l : Link) (keepUp : Bool) (hb : s.bounded) : (State.resetLink s l keepUp).bounded := by
  unfold State.resetLink
  dsimp only
  have h0 := bounded_unsendDues l (bounded_modRst (fun e => { e with waiting := e.waiting.filter fun q => decide (q.link ≠ l) })
    (bounded_modLink l (fun r => { r with idleFrom := (s.modLink l (·.reset keepUp)).sup.elapsed }) (fun _ hr => hr)
      (bounded_modLink l (·.reset keepUp) (fun _ hr => lb_reset keepUp hr) hb)))
  have h1 := bounded_foldl 
    (fun (s : State) (d : Directive) => s.failDirective l d .reset)
    (s.link l).directives (fun s d h => bounded_failDirective l d _ h) h0
  split
  · exact bounded_sendDues l h1
  · exact h1

theorem bounded_finish {s : State} (hb : s.bounded) : (State.finish s).bounded := by
  unfold State.finish
  repeat' first
    | with_reducible assumption
    | with_reducible apply bounded_advance
    | with_reducible apply bounded_settle
    | split

theorem bounded_countDiscard {s : State} (l : Link) (hb : s.bounded) : (State.countDiscard s l).bounded := by
  unfold State.countDiscard
  repeat' first
    | with_reducible assumption
    | (with_reducible refine bounded_modLink _ _ (fun _ hr => ?_) ?_; (simp only [LinkRec.bounded] at hr ⊢; (repeat' split) <;> simp_all))

theorem bounded_badFrame {s : State} (l : Link) (hb : s.bounded) : (State.badFrame s l).bounded := by
  unfold State.badFrame
  try dsimp only
  repeat' first
    | with_reducible assumption
    | with_reducible apply bounded_countDiscard
    | with_reducible apply bounded_resetLink
    | split
    | (with_reducible refine bounded_modLink _ _ (fun _ hr => ?_) ?_; (simp only [LinkRec.bounded] at hr ⊢; (repeat' split) <;> simp_all))

theorem bounded_recall {s : State} (l : Link) (d : Directive) (hb : s.bounded) : (State.recall s l d).bounded := by
  unfold State.recall
  try dsimp only
  repeat' first
    | with_reducible assumption
    | with_reducible apply bounded_decRefs
    | with_reducible apply bounded_endDirective
    | with_reducible apply bounded_freeAllOf
    | with_reducible apply bounded_modRepair
    | with_reducible apply bounded_modStep
    | with_reducible apply bounded_progress
    | split
    | (with_reducible refine bounded_modLink _ _ (fun _ hr => hr) ?_)
    | (with_reducible refine bounded_modLink _ _ (fun _ hr => lb_filter _ hr) ?_)
    | (with_reducible refine bounded_modLink _ _ (fun _ hr => ?_) ?_; (simp only [LinkRec.bounded] at hr ⊢; (repeat' split) <;> simp_all))
    | (simp only [bounded_mk]; with_reducible refine bounded_unfold ?_)

theorem bounded_meetSlot {s : State} (e : StoreError) (hb : s.bounded) : (State.meetSlot s e).bounded := by
  unfold State.meetSlot
  try dsimp only
  repeat' first
    | with_reducible assumption
    | with_reducible apply bounded_failStep
    | with_reducible apply bounded_meet
    | with_reducible apply bounded_recall
    | split

theorem bounded_transmit {s : State} (l : Link) (hb : s.bounded) : (State.transmit s l).bounded := by
  unfold State.transmit
  split
  · exact hb
  · split
    · dsimp only
      have h : ∀ t, (s.modLink l fun r => { r with tx := t }).bounded :=
        fun t => bounded_modLink l (fun r => { r with tx := t }) (fun _ hr => hr) hb
      split <;> exact bounded_send _ (h _)
    · split
      · rename_i n t hn
        refine bounded_send _ ⟨hb.1, fun j => ?_⟩
        simp only [State.modLink, State.link]
        by_cases hk : (l : Nat) = (j : Nat)
        · have : l = j := Fin.ext hk
          subst this
          have h2 := hb.2 l
          simp only [Fin.getElem_fin, Vector.getElem_set_self]
          refine ⟨h2.1, h2.2.1, ?_, h2.2.2.2⟩
          have h3 : (s.link l).notices.length ≤ Config.noticeQueueSize := h2.2.2.1
          rw [hn] at h3
          simp only [List.length_cons] at h3
          exact Nat.le_of_succ_le h3
        · simpa [Vector.getElem_set, hk] using hb.2 j
      · exact hb

theorem bounded_transmitHalted {s : State} (l : Link) (hb : s.bounded) : (State.transmitHalted s l).bounded := by
  unfold State.transmitHalted
  repeat' first
    | with_reducible assumption
    | with_reducible apply bounded_send
    | split
    | (with_reducible refine bounded_modLink _ _ (fun _ hr => ?_) ?_; (simp only [LinkRec.bounded] at hr ⊢; (repeat' split) <;> simp_all))

theorem bounded_deliverStartup {s : State} (l : Link) (classes : List Nat) (hb : s.bounded) :
    (State.deliverStartup s l classes).bounded := by
  unfold State.deliverStartup
  dsimp only
  refine bounded_modLink l (fun r => { r with delivered := _ }) (fun _ hr => hr) (bounded_foldl _ _ (fun s n h => ?_) hb)
  split
  · exact bounded_modLink _ _ (fun _ hr => lb_queueNotice n hr) h
  · exact h

theorem bounded_proceed {s : State} (num : Nat) (hb : s.bounded) : (State.proceed s num).bounded := by
  unfold State.proceed
  try dsimp only
  repeat' first
    | with_reducible assumption
    | with_reducible apply bounded_calculate
    | with_reducible apply bounded_runOp
    | split
    | (simp only [bounded_mk]; with_reducible refine bounded_unfold ?_)

theorem bounded_drain {s : State} (hb : s.bounded) : (State.drain s).bounded := by
  unfold State.drain
  repeat' first
    | with_reducible assumption
    | with_reducible apply bounded_storeClean
    | split

theorem bounded_endRecount {s : State} (pool : Nat) (hb : s.bounded) : (State.endRecount s pool).bounded := by
  unfold State.endRecount
  repeat' first
    | with_reducible assumption
    | with_reducible apply bounded_evalGrace
    | with_reducible apply bounded_lazyExpire
    | with_reducible apply bounded_modPrin
    | with_reducible apply bounded_storeClean
    | (simp only [bounded_mk]; with_reducible refine bounded_unfold ?_)

theorem bounded_stage {s : State} (l : Link) (r : Nat) (held : List Staged) (c : Staged) (hb : s.bounded) : (State.stage s l r held c).bounded := by
  unfold State.stage
  repeat' first
    | with_reducible assumption
    | with_reducible apply bounded_reply
    | split
    | (with_reducible refine bounded_modLink _ _ (fun _ hr => ?_) ?_; (simp only [LinkRec.bounded] at hr ⊢; (repeat' split) <;> simp_all))

theorem bounded_abandonRewritten {s : State} (vol ext : Nat) (old : Option Version) (hb : s.bounded) : (State.abandonRewritten s vol ext old).bounded := by
  unfold State.abandonRewritten
  repeat' first
    | with_reducible assumption
    | with_reducible apply bounded_abandonIf
    | split

theorem bounded_dropExtents {s : State} (vol : Nat) (hb : s.bounded) : (State.dropExtents s vol).bounded := by
  unfold State.dropExtents
  repeat' first
    | with_reducible assumption
    | (simp only [bounded_mk]; with_reducible refine bounded_unfold ?_)

theorem bounded_discardRepair {s : State} (n : Nat) (hb : s.bounded) : (State.discardRepair s n).bounded := by
  unfold State.discardRepair
  repeat' first
    | with_reducible assumption
    | with_reducible apply bounded_abandonRepair
    | with_reducible apply bounded_closeRepair
    | with_reducible apply bounded_modOff

theorem bounded_forgetVolume {s : State} (vol : Nat) (hb : s.bounded) : (State.forgetVolume s vol).bounded := by
  unfold State.forgetVolume
  repeat' first
    | with_reducible assumption
    | with_reducible apply bounded_cancelRuns
    | with_reducible apply bounded_discardRepair
    | with_reducible apply bounded_freeEntrySlots
    | with_reducible apply bounded_leaveItem
    | with_reducible apply bounded_modOff
    | with_reducible apply bounded_modPat
    | with_reducible refine bounded_foldl _ _ (fun _ _ _ => ?_) ?_

theorem bounded_dropCursors {s : State} (vol : Nat) (hb : s.bounded) : (State.dropCursors s vol).bounded := by
  unfold State.dropCursors
  try dsimp only
  repeat' first
    | with_reducible assumption
    | split
    | with_reducible refine bounded_foldl _ _ (fun _ _ _ => ?_) ?_
    | (with_reducible refine bounded_modLink _ _ (fun _ hr => hr) ?_)
    | (with_reducible refine bounded_modLink _ _ (fun _ hr => lb_filter _ hr) ?_)
    | (with_reducible refine bounded_modLink _ _ (fun _ hr => ?_) ?_; (simp only [LinkRec.bounded] at hr ⊢; (repeat' split) <;> simp_all))
    | (simp only [bounded_mk]; with_reducible refine bounded_unfold ?_)

theorem bounded_detach {s : State} (vol : Nat) (hb : s.bounded) : (State.detach s vol).bounded := by
  unfold State.detach
  try dsimp only
  repeat' first
    | with_reducible assumption
    | with_reducible apply bounded_dropCursors
    | with_reducible apply bounded_dropExtents
    | with_reducible apply bounded_forgetVolume
    | split
    | (simp only [bounded_mk]; with_reducible refine bounded_unfold ?_)

theorem bounded_cut {s : State} (vol gen : Nat) (k : SnapKind) (hb : s.bounded) : (State.cut s vol gen k).bounded := by
  unfold State.cut
  repeat' first
    | with_reducible assumption
    | with_reducible apply bounded_closeDue
    | with_reducible apply bounded_joinPlan
    | with_reducible apply bounded_modVolume
    | with_reducible apply bounded_retain
    | split
    | (simp only [bounded_mk]; with_reducible refine bounded_unfold ?_)

theorem bounded_waitSweep {s : State} (key : Nat) (hb : s.bounded) : (State.waitSweep s key).bounded := by
  unfold State.waitSweep
  repeat' first
    | with_reducible assumption
    | split
    | (simp only [bounded_mk]; with_reducible refine bounded_unfold ?_)

theorem bounded_leaveSweep {s : State} (key : Nat) (hb : s.bounded) : (State.leaveSweep s key).bounded := by
  unfold State.leaveSweep
  repeat' first
    | with_reducible assumption
    | (simp only [bounded_mk]; with_reducible refine bounded_unfold ?_)

theorem bounded_endExpiry {s : State} (vol gen : Nat) (hb : s.bounded) : (State.endExpiry s vol gen).bounded := by
  unfold State.endExpiry
  repeat' first
    | with_reducible assumption
    | with_reducible apply bounded_modSnapshot
    | split
    | (simp only [bounded_mk]; with_reducible refine bounded_unfold ?_)

theorem bounded_moveExpiry {s : State} (vol gen cursor count : Nat) (hb : s.bounded) : (State.moveExpiry s vol gen cursor count).bounded := by
  unfold State.moveExpiry
  repeat' first
    | with_reducible assumption
    | with_reducible apply bounded_endExpiry
    | with_reducible apply bounded_modSnapshot
    | split

theorem bounded_take {s : State} (l : Link) (req : Nat) (hb : s.bounded) : (State.take s l req).bounded := by
  refine bounded_modLink _ _ (fun r hr => ⟨?_, ?_, hr.2.2⟩) hb
  · simpa [mapIf] using hr.1
  · intro e he
    simp only [mapIf, List.mem_map] at he
    obtain ⟨x, hx, rfl⟩ := he
    split <;> exact hr.2.1 x hx

theorem bounded_doneAnswer {s : State} (l : Link) (tag loc : Nat) (k : DirKind) (hb : s.bounded) : (State.doneAnswer s l tag loc k).bounded := by
  unfold State.doneAnswer
  repeat' first
    | with_reducible assumption
    | with_reducible apply bounded_completeStep
    | with_reducible apply bounded_decRefs
    | with_reducible apply bounded_endDirective
    | with_reducible apply bounded_freeAllOf
    | with_reducible apply bounded_handNotice
    | split

theorem bounded_failAnswer {s : State} (l : Link) (tag : Nat) (k : DirKind) (hb : s.bounded) : (State.failAnswer s l tag k).bounded := by
  unfold State.failAnswer
  repeat' first
    | with_reducible assumption
    | with_reducible apply bounded_failDirective
    | split

theorem bounded_transmitted {s : State} (seq : Nat) (hb : s.bounded) : (State.transmitted s seq).bounded := by
  unfold State.transmitted
  repeat' first
    | with_reducible assumption
    | with_reducible apply bounded_freeSlot
    | with_reducible apply bounded_modSlot
    | split

theorem bounded_startRun {s : State} (hb : s.bounded) : (State.startRun s).bounded := by
  unfold State.startRun
  repeat' first
    | with_reducible assumption
    | with_reducible apply bounded_askSlots
    | with_reducible apply bounded_modOff
    | split

theorem bounded_issuePull {s : State} (p : ShipPull) (l : Link) (hb : s.bounded) : (State.issuePull s p l).bounded := by
  unfold State.issuePull
  repeat' first
    | with_reducible assumption
    | with_reducible apply bounded_cancelRun
    | with_reducible apply bounded_failVolume
    | with_reducible apply bounded_handDirective
    | with_reducible apply bounded_modOff
    | with_reducible apply bounded_waitPlace
    | (with_reducible refine bounded_incRef _ _ _ ?_ (by assumption))
    | split

theorem bounded_placeChunk {s : State} (d : Directive) (idx : Nat) (data : List Byte) (hb : s.bounded) : (State.placeChunk s d idx data).bounded := by
  unfold State.placeChunk
  repeat' first
    | with_reducible assumption
    | with_reducible apply bounded_shipChunk
    | with_reducible apply bounded_verifyChunk
    | split

theorem bounded_pullAnswer {s : State} (l : Link) (tag : Nat) (cause : PullCause) (hb : s.bounded) : (State.pullAnswer s l tag cause).bounded := by
  unfold State.pullAnswer
  repeat' first
    | with_reducible assumption
    | with_reducible apply bounded_failDirective
    | split

theorem bounded_sendSlot {s : State} (e : ShipEntry) (num : Nat) (hb : s.bounded) : (State.sendSlot s e num).bounded := by
  unfold State.sendSlot
  repeat' first
    | with_reducible assumption
    | with_reducible apply bounded_modSlot
    | split

theorem bounded_cutShort {s : State} (e : ShipEntry) (hb : s.bounded) : (State.cutShort s e).bounded := by
  unfold State.cutShort
  repeat' first
    | with_reducible assumption
    | with_reducible apply bounded_meet
    | split

theorem bounded_resend (errs : List StoreError) {s : State} (f : OutFrame) (hb : s.bounded) : (State.resend errs s f).bounded := by
  unfold State.resend
  try dsimp only
  repeat' first
    | with_reducible assumption
    | with_reducible apply bounded_cutShort
    | with_reducible apply bounded_modSlot
    | with_reducible apply bounded_send
    | split
    | (simp only [bounded_mk]; with_reducible refine bounded_unfold ?_)

theorem bounded_fillVacant {s : State} (f : OutFrame) (e : ShipEntry) (errs : List StoreError) (hb : s.bounded) : (State.fillVacant s f e errs).bounded := by
  unfold State.fillVacant
  repeat' first
    | with_reducible assumption
    | with_reducible apply bounded_cutShort
    | with_reducible apply bounded_modEntry
    | with_reducible apply bounded_modOff
    | with_reducible apply bounded_send
    | with_reducible apply bounded_sendSlot
    | split

theorem bounded_shipEntry {s : State} (e : ShipEntry) (errs : List StoreError) (hb : s.bounded) : (State.shipEntry s e errs).bounded := by
  unfold State.shipEntry
  repeat' first
    | with_reducible assumption
    | with_reducible apply bounded_cutShort
    | with_reducible apply bounded_joinShip
    | with_reducible apply bounded_modEntry
    | with_reducible apply bounded_send
    | with_reducible apply bounded_sendSlot
    | split

theorem bounded_shipNext {s : State} (errs : List StoreError) (hb : s.bounded) : (State.shipNext s errs).bounded := by
  unfold State.shipNext
  repeat' first
    | with_reducible assumption
    | with_reducible apply bounded_fillVacant
    | with_reducible apply bounded_shipEntry
    | split

theorem bounded_abandonFrames {s : State} (hb : s.bounded) : (State.abandonFrames s).bounded := by
  unfold State.abandonFrames
  try dsimp only
  repeat' first
    | with_reducible assumption
    | with_reducible apply bounded_askOpening
    | with_reducible apply bounded_closeLink
    | with_reducible apply bounded_freeSlotsIf
    | with_reducible apply bounded_giveBack
    | with_reducible apply bounded_modOff
    | split
    | with_reducible refine bounded_foldl _ _ (fun _ _ _ => ?_) ?_

theorem bounded_downInStandby {s : State} (hb : s.bounded) : (State.downInStandby s).bounded := by
  unfold State.downInStandby
  repeat' first
    | with_reducible assumption
    | with_reducible apply bounded_modOff
    | split

theorem bounded_openExpired {s : State} (opens : Nat) (hb : s.bounded) : (State.openExpired s opens).bounded := by
  unfold State.openExpired
  repeat' first
    | with_reducible assumption
    | with_reducible apply bounded_fault
    | with_reducible apply bounded_modOff
    | with_reducible apply bounded_send
    | split

theorem bounded_listExpired {s : State} (errs : List StoreError) (hb : s.bounded) : (State.listExpired s errs).bounded := by
  unfold State.listExpired
  repeat' first
    | with_reducible assumption
    | with_reducible apply bounded_closeLink
    | with_reducible apply bounded_fault
    | with_reducible apply bounded_giveBackAll
    | with_reducible apply bounded_modOff
    | with_reducible apply bounded_resend
    | split
    | with_reducible refine bounded_foldl _ _ (fun _ _ _ => ?_) ?_

theorem bounded_setList {s : State} (fs : List OutFrame) (hb : s.bounded) : (State.setList s fs).bounded := by
  unfold State.setList
  repeat' first
    | with_reducible assumption
    | with_reducible apply bounded_modOff

theorem bounded_coverSlot {s : State} (e : ShipEntry) (hb : s.bounded) : (State.coverSlot s e).bounded := by
  unfold State.coverSlot
  repeat' first
    | with_reducible assumption
    | with_reducible apply bounded_freeSlot
    | with_reducible apply bounded_modSlot
    | split

theorem bounded_ackEntry {s : State} (e : ShipEntry) (hb : s.bounded) : (State.ackEntry s e).bounded := by
  unfold State.ackEntry
  repeat' first
    | with_reducible assumption
    | with_reducible apply bounded_coverSlot
    | with_reducible apply bounded_modOff
    | with_reducible apply bounded_modPlan
    | with_reducible apply bounded_setShipped
    | split

theorem bounded_coverFrame {s : State} (f : OutFrame) (hb : s.bounded) : (State.coverFrame s f).bounded := by
  unfold State.coverFrame
  repeat' first
    | with_reducible assumption
    | with_reducible apply bounded_ackEntry
    | split

theorem bounded_ack {s : State} (n : Nat) (hb : s.bounded) : (State.ack s n).bounded := by
  unfold State.ack
  try dsimp only
  repeat' first
    | with_reducible assumption
    | with_reducible apply bounded_coverFrame
    | with_reducible apply bounded_progress
    | with_reducible apply bounded_setList
    | split
    | with_reducible refine bounded_foldl _ _ (fun _ _ _ => ?_) ?_

theorem bounded_answerControl {s : State} (p : Control → Bool) (hb : s.bounded) : (State.answerControl s p).bounded := by
  unfold State.answerControl
  repeat' first
    | with_reducible assumption
    | with_reducible apply bounded_modOff
    | with_reducible apply bounded_progress
    | with_reducible apply bounded_setList
    | split

theorem bounded_completeVolume {s : State} (vol target : Nat) (hb : s.bounded) : (State.completeVolume s vol target).bounded := by
  unfold State.completeVolume
  repeat' first
    | with_reducible assumption
    | with_reducible apply bounded_dropShipPins
    | with_reducible apply bounded_modOff
    | with_reducible apply bounded_modPlan
    | with_reducible apply bounded_modSnapshot
    | with_reducible apply bounded_modVolume
    | split

theorem bounded_dropAcked {s : State} (vol gen : Nat) (hb : s.bounded) : (State.dropAcked s vol gen).bounded := by
  unfold State.dropAcked
  repeat' first
    | with_reducible assumption
    | with_reducible apply bounded_modSnapshot
    | with_reducible apply bounded_retain
    | split

theorem bounded_withdrawFrame {s : State} (f : OutFrame) (reason : Nat) (hb : s.bounded) : (State.withdrawFrame s f reason).bounded := by
  unfold State.withdrawFrame
  repeat' first
    | with_reducible assumption
    | with_reducible apply bounded_failVolume
    | with_reducible apply bounded_freeEntrySlots
    | with_reducible apply bounded_modOff
    | with_reducible apply bounded_raise
    | with_reducible apply bounded_setList
    | split

theorem bounded_nak {s : State} (n reason : Nat) (errs : List StoreError) (hb : s.bounded) : (State.nak s n reason errs).bounded := by
  unfold State.nak
  repeat' first
    | with_reducible assumption
    | with_reducible apply bounded_modOff
    | with_reducible apply bounded_resend
    | with_reducible apply bounded_withdrawFrame
    | split

theorem bounded_serveHead {s : State} (hb : s.bounded) : (State.serveHead s).bounded := by
  unfold State.serveHead
  try dsimp only
  repeat' first
    | with_reducible assumption
    | with_reducible apply bounded_askSlots
    | split

theorem bounded_tellFetch {s : State} (e : FetchEntry) (a : ChunkAnswer) (hb : s.bounded) : (State.tellFetch s e a).bounded := by
  unfold State.tellFetch
  repeat' first
    | with_reducible assumption
    | with_reducible apply bounded_checkRepair
    | with_reducible apply bounded_repairFetched
    | with_reducible apply bounded_stepFetched
    | split

theorem bounded_answerFetch {s : State} (f : OutFrame) (hb : s.bounded) : (State.answerFetch s f).bounded := by
  unfold State.answerFetch
  repeat' first
    | with_reducible assumption
    | with_reducible apply bounded_progress
    | with_reducible apply bounded_setList

theorem bounded_fetchChunk {s : State} (e : FetchEntry) (i : Nat) (data : List Byte) (hb : s.bounded) : (State.fetchChunk s e i data).bounded := by
  unfold State.fetchChunk
  repeat' first
    | with_reducible assumption
    | with_reducible apply bounded_fill
    | with_reducible apply bounded_freeSlot
    | with_reducible apply bounded_makeFull
    | with_reducible apply bounded_tellFetch
    | split

theorem bounded_fetchNone {s : State} (e : FetchEntry) (hb : s.bounded) : (State.fetchNone s e).bounded := by
  unfold State.fetchNone
  repeat' first
    | with_reducible assumption
    | with_reducible apply bounded_freeFilling
    | with_reducible apply bounded_tellFetch

theorem bounded_placeItem (vol ext : Nat) {s : State} (v : Version) (hb : s.bounded) : (State.placeItem vol ext s v).bounded := by
  unfold State.placeItem
  repeat' first
    | with_reducible assumption
    | with_reducible apply bounded_decideItem
    | with_reducible apply bounded_modPat

theorem bounded_visitVersions {s : State} (vol ext : Nat) (hb : s.bounded) : (State.visitVersions s vol ext).bounded := by
  unfold State.visitVersions
  repeat' first
    | with_reducible assumption
    | with_reducible apply bounded_placeItem
    | with_reducible apply bounded_setVerified
    | with_reducible refine bounded_foldl _ _ (fun _ _ _ => ?_) ?_

theorem bounded_patrolVisit {s : State} (hb : s.bounded) : (State.patrolVisit s).bounded := by
  unfold State.patrolVisit
  try dsimp only
  repeat' first
    | with_reducible assumption
    | with_reducible apply bounded_modPat
    | with_reducible apply bounded_modVolume
    | with_reducible apply bounded_visitVersions
    | split

theorem bounded_issueVerify {s : State} (w : WorkItem) (l : Link) (hb : s.bounded) : (State.issueVerify s w l).bounded := by
  unfold State.issueVerify
  repeat' first
    | with_reducible assumption
    | with_reducible apply bounded_handDirective
    | with_reducible apply bounded_leaveItem
    | with_reducible apply bounded_modItem
    | with_reducible apply bounded_waitPlace
    | (with_reducible refine bounded_incRef _ _ _ ?_ (by assumption))
    | split

theorem bounded_markFixing {s : State} (n : Nat) (idxs : List Nat) (hb : s.bounded) : (State.markFixing s n idxs).bounded := by
  unfold State.markFixing
  repeat' first
    | with_reducible assumption
    | with_reducible apply bounded_modRepair

theorem bounded_fixData {s : State} (n idx : Nat) (r : Repair) (l : Link) (idxs : List Nat) (hb : s.bounded) : (State.fixData s n idx r l idxs).bounded := by
  unfold State.fixData
  repeat' first
    | with_reducible assumption
    | with_reducible apply bounded_abandonRepair
    | with_reducible apply bounded_handDirective
    | with_reducible apply bounded_markFixing
    | with_reducible apply bounded_setSlots
    | (with_reducible refine bounded_incRef _ _ _ ?_ (by assumption))
    | split

theorem bounded_fixTwin {s : State} (n idx : Nat) (r : Repair) (l : Link) (twin : Nat) (hb : s.bounded) : (State.fixTwin s n idx r l twin).bounded := by
  unfold State.fixTwin
  repeat' first
    | with_reducible assumption
    | with_reducible apply bounded_abandonRepair
    | with_reducible apply bounded_chunkOffsite
    | with_reducible apply bounded_decRef
    | with_reducible apply bounded_handDirective
    | with_reducible apply bounded_markFixing
    | (with_reducible refine bounded_incRef _ _ _ ?_ (by assumption))
    | split

theorem bounded_fixChunk {s : State} (n idx : Nat) (r : Repair) (l : Link) (hb : s.bounded) : (State.fixChunk s n idx r l).bounded := by
  unfold State.fixChunk
  repeat' first
    | with_reducible assumption
    | with_reducible apply bounded_chunkOffsite
    | with_reducible apply bounded_fixData
    | with_reducible apply bounded_fixTwin
    | with_reducible apply bounded_waitPlace
    | split

theorem bounded_fixWhole {s : State} (n : Nat) (r : Repair) (l : Link) (hb : s.bounded) : (State.fixWhole s n r l).bounded := by
  unfold State.fixWhole
  repeat' first
    | with_reducible assumption
    | with_reducible apply bounded_fixData
    | with_reducible apply bounded_waitPlace
    | split

theorem bounded_fixDone {s : State} (l : Link) (tag : Nat) (hb : s.bounded) : (State.fixDone s l tag).bounded := by
  unfold State.fixDone
  repeat' first
    | with_reducible assumption
    | with_reducible apply bounded_decRefs
    | with_reducible apply bounded_endDirective
    | with_reducible apply bounded_fixEnded
    | split

theorem bounded_readTable {s : State} (l : Link) (q : Nat) (t : TableName) (start count : Nat) (ks : List Nat) (hb : s.bounded) : (State.readTable s l q t start count ks).bounded := by
  unfold State.readTable
  try dsimp only
  repeat' first
    | with_reducible assumption
    | with_reducible apply bounded_reply
    | split
    | (with_reducible refine bounded_modLink _ _ (fun _ hr => hr) ?_)
    | (with_reducible refine bounded_modLink _ _ (fun _ hr => lb_filter _ hr) ?_)
    | (with_reducible refine bounded_modLink _ _ (fun _ hr => ?_) ?_; (simp only [LinkRec.bounded] at hr ⊢; (repeat' split) <;> simp_all))
    | (simp only [bounded_mk]; with_reducible refine bounded_unfold ?_)

theorem bounded_clearCounts {s : State} (hb : s.bounded) : (State.clearCounts s).bounded := by
  unfold State.clearCounts
  repeat' first
    | with_reducible assumption
    | with_reducible refine bounded_foldl _ _ (fun _ _ _ => ?_) ?_
    | (with_reducible refine bounded_modLink _ _ (fun _ hr => ?_) ?_; (simp only [LinkRec.bounded] at hr ⊢; (repeat' split) <;> simp_all))
    | (with_reducible refine bounded_modSup _ (fun hs => by simp_all [supBounded]) (by simp) ?_)

theorem bounded_modSettings {s : State} (f : Settings → Settings) (hb : s.bounded) : (State.modSettings s f).bounded := by
  unfold State.modSettings
  repeat' first
    | with_reducible assumption
    | (with_reducible refine bounded_modSup _ (fun hs => by simp_all [supBounded]) (by simp) ?_)

theorem bounded_modPending {s : State} (f : PendingSettings → PendingSettings) (hb : s.bounded) : (State.modPending s f).bounded := by
  unfold State.modPending
  repeat' first
    | with_reducible assumption
    | (with_reducible refine bounded_modSup _ (fun hs => by simp_all [supBounded]) (by simp) ?_)

theorem bounded_atWindow {s : State} (now : Settings → Settings) (later : PendingSettings → PendingSettings) (hb : s.bounded) : (State.atWindow s now later).bounded := by
  unfold State.atWindow
  repeat' first
    | with_reducible assumption
    | with_reducible apply bounded_modPending
    | with_reducible apply bounded_modSettings
    | split

theorem bounded_writeScope {s : State} (n : Nat) (enabled : Bool) (priority : Nat) (vols : List Nat) (hb : s.bounded) : (State.writeScope s n enabled priority vols).bounded := by
  unfold State.writeScope
  repeat' first
    | with_reducible assumption
    | with_reducible apply bounded_atWindow

theorem bounded_writeMode {s : State} (m : CacheMode) (hb : s.bounded) : (State.writeMode s m).bounded := by
  unfold State.writeMode
  repeat' first
    | with_reducible assumption
    | with_reducible apply bounded_modSettings
    | split
    | (simp only [bounded_mk]; with_reducible refine bounded_unfold ?_)

theorem bounded_writeClass {s : State} (c grace : Nat) (selfRestore : Bool) (hb : s.bounded) : (State.writeClass s c grace selfRestore).bounded := by
  unfold State.writeClass
  try dsimp only
  repeat' first
    | with_reducible assumption
    | with_reducible apply bounded_modSettings
    | split
    | (simp only [bounded_mk]; with_reducible refine bounded_unfold ?_)

theorem bounded_storeSetting {s : State} (x : Setting) (hb : s.bounded) : (State.storeSetting s x).bounded := by
  unfold State.storeSetting
  try dsimp only
  repeat' first
    | with_reducible assumption
    | with_reducible apply bounded_atWindow
    | with_reducible apply bounded_closeDue
    | with_reducible apply bounded_missLate
    | with_reducible apply bounded_modSettings
    | with_reducible apply bounded_modVolume
    | with_reducible apply bounded_retain
    | with_reducible apply bounded_writeClass
    | with_reducible apply bounded_writeMode
    | with_reducible apply bounded_writeScope
    | split
    | (simp only [bounded_mk]; with_reducible refine bounded_unfold ?_)

theorem bounded_writeSetting {s : State} (x : Setting) (hb : s.bounded) : (State.writeSetting s x).bounded := by
  unfold State.writeSetting
  try dsimp only
  repeat' first
    | with_reducible assumption
    | with_reducible apply bounded_evaluateOpen
    | with_reducible apply bounded_storeSetting
    | split
    | (simp only [bounded_mk]; with_reducible refine bounded_unfold ?_)

theorem bounded_writeAndReply {s : State} (l : Link) (q : Nat) (x : Setting) (hb : s.bounded) : (State.writeAndReply s l q x).bounded := by
  unfold State.writeAndReply
  repeat' first
    | with_reducible assumption
    | with_reducible apply bounded_reply
    | with_reducible apply bounded_writeSetting
    | split
    | (simp only [bounded_mk]; with_reducible refine bounded_unfold ?_)

theorem bounded_takeSetting {s : State} (l : Link) (q : Nat) (x : Setting) (hb : s.bounded) : (State.takeSetting s l q x).bounded := by
  unfold State.takeSetting
  repeat' first
    | with_reducible assumption
    | with_reducible apply bounded_reply
    | with_reducible apply bounded_stage
    | with_reducible apply bounded_writeAndReply
    | split

theorem bounded_applyEdit {s : State} (id : Nat) (c : EditChanges) (hb : s.bounded) : (State.applyEdit s id c).bounded := by
  unfold State.applyEdit
  try dsimp only
  repeat' first
    | with_reducible assumption
    | with_reducible apply bounded_evalGrace
    | with_reducible apply bounded_lazyExpire
    | with_reducible apply bounded_regatherIf
    | with_reducible apply bounded_stage
    | with_reducible apply bounded_writeEdit
    | split
    | (simp only [bounded_mk]; with_reducible refine bounded_unfold ?_)

theorem bounded_applyStaged {s : State} (c : Staged) (hb : s.bounded) : (s.applyStaged c).bounded := by
  cases c
  · exact bounded_storeSetting _ hb
  · exact bounded_applyEdit _ _ hb
  · exact bounded_setFrozen _ _ hb

theorem bounded_release {apply : State → Staged → State} (ha : ∀ s c, s.bounded → (apply s c).bounded)
    (cs : List (Nat × Staged)) (r : State × Nat × List (Nat × Status)) (hb : r.1.bounded) :
    (State.release apply cs r).1.bounded := by
  induction cs generalizing r with
  | nil => exact hb
  | cons c cs ih =>
    unfold State.release
    split
    · exact ih _ hb
    · exact ih _ (ha _ _ hb)

theorem bounded_releaseHold {s : State} (l : Link) (q : Nat) (held : List Staged) (hb : s.bounded) :
    (State.releaseHold s l q held).bounded := by
  have h := bounded_release (fun s c h => bounded_applyStaged (s := s) c h) ((List.range held.length).zip held)
    (s, 0, []) hb
  unfold State.releaseHold
  dsimp only
  refine bounded_reply _ _ _ _ (bounded_modLink _ _ (fun r hr => ?_) ?_)
  · exact ⟨hr.1, hr.2.1, hr.2.2.1, fun x hx => by cases hx; exact Nat.zero_le _⟩
  · split
    · exact bounded_evaluateOpen h
    · exact h

theorem bounded_cold (s : State) : (State.cold s).bounded := by
  refine ⟨⟨Nat.zero_le _, Nat.zero_le _, rfl, ?_⟩, fun l => ?_⟩
  · simp [State.cold, Supervisor.initial]
  · simp [State.cold, LinkRec.initial, LinkRec.bounded]

theorem bounded_load {s : State} (hb : s.bounded) : (State.load s).bounded := by
  unfold State.load
  repeat' first
    | with_reducible assumption
    | with_reducible apply bounded_applyPending
    | with_reducible apply bounded_modOff
    | (with_reducible refine bounded_modSup _ (fun hs => by simp_all [supBounded]) (by simp) ?_)
    | (simp only [bounded_mk]; with_reducible refine bounded_unfold ?_)

theorem bounded_initialise {s : State} (hb : s.bounded) : (State.initialise s).bounded := hb

theorem bounded_walkFlags {s : State} (hb : s.bounded) : (State.walkFlags s).bounded := by
  unfold State.walkFlags
  repeat' first
    | with_reducible assumption
    | (simp only [bounded_mk]; with_reducible refine bounded_unfold ?_)

theorem bounded_walkPools {s : State} (hb : s.bounded) : (State.walkPools s).bounded := by
  unfold State.walkPools
  repeat' first
    | with_reducible assumption
    | (simp only [bounded_mk]; with_reducible refine bounded_unfold ?_)

theorem bounded_failLoading {s : State} (rec : Nat) (hb : s.bounded) : (State.failLoading s rec).bounded := by
  unfold State.failLoading
  repeat' first
    | with_reducible assumption
    | with_reducible apply bounded_modRestore
    | with_reducible apply bounded_powerFail

theorem bounded_endWalk {s : State} (before : Nat) (hb : s.bounded) : (State.endWalk s before).bounded := by
  unfold State.endWalk
  repeat' first
    | with_reducible assumption
    | with_reducible apply bounded_beginRecounts
    | with_reducible apply bounded_failLoading
    | with_reducible apply bounded_raise
    | with_reducible apply bounded_rebuildGrace
    | with_reducible apply bounded_walkFlags
    | with_reducible apply bounded_walkPools
    | split
    | with_reducible refine bounded_foldl _ _ (fun _ _ _ => ?_) ?_
    | (with_reducible refine bounded_modSup _ (fun hs => by simp_all [supBounded]) (by simp) ?_)
    | (simp only [bounded_mk]; with_reducible refine bounded_unfold ?_)

theorem bounded_refuseWaiting {s : State} (hb : s.bounded) : (State.refuseWaiting s).bounded := by
  unfold State.refuseWaiting
  try dsimp only
  repeat' first
    | with_reducible assumption
    | with_reducible apply bounded_modRst
    | with_reducible apply bounded_reply
    | split
    | with_reducible refine bounded_foldl _ _ (fun _ _ _ => ?_) ?_
    | (with_reducible refine bounded_modSup _ (fun hs => by simp_all [supBounded]) (by simp) ?_)

theorem bounded_offsiteHoldup {s : State} (hb : s.bounded) : (State.offsiteHoldup s).bounded := by
  unfold State.offsiteHoldup
  repeat' first
    | with_reducible assumption
    | with_reducible apply bounded_cancelRuns
    | with_reducible apply bounded_giveBackAll
    | with_reducible apply bounded_modOff
    | with_reducible apply bounded_send
    | split

theorem bounded_streamHoldup {s : State} (hb : s.bounded) : (State.streamHoldup s).bounded := by
  unfold State.streamHoldup
  repeat' first
    | with_reducible assumption
    | with_reducible apply bounded_freeSlotsIf
    | (simp only [bounded_mk]; with_reducible refine bounded_unfold ?_)

theorem bounded_patrolHoldup {s : State} (hb : s.bounded) : (State.patrolHoldup s).bounded := by
  unfold State.patrolHoldup
  dsimp only
  simp only [bounded_mk]
  refine bounded_unfold (bounded_foldl _ _ (fun s l h => bounded_modLink _ _ (fun _ hr => hr) h) (bounded_modPat _ (bounded_foldl _ _ (fun _ _ h => bounded_leaveItem _ h) hb)))

theorem bounded_enterHoldup {s : State} (hb : s.bounded) : (State.enterHoldup s).bounded := by
  unfold State.enterHoldup
  repeat' first
    | with_reducible assumption
    | with_reducible apply bounded_offsiteHoldup
    | with_reducible apply bounded_patrolHoldup
    | with_reducible apply bounded_powerFail
    | with_reducible apply bounded_refuseWaiting
    | with_reducible apply bounded_streamHoldup
    | with_reducible refine bounded_foldl _ _ (fun _ _ _ => ?_) ?_
    | (with_reducible refine bounded_modSup _ (fun hs => by simp_all [supBounded]) (by simp) ?_)
    | (simp only [bounded_mk]; with_reducible refine bounded_unfold ?_)

theorem bounded_leaveHoldup {s : State} (hb : s.bounded) : (State.leaveHoldup s).bounded := by
  unfold State.leaveHoldup
  repeat' first
    | with_reducible assumption
    | with_reducible apply bounded_beginRecounts
    | with_reducible apply bounded_expireDue
    | with_reducible apply bounded_missLate
    | (with_reducible refine bounded_modSup _ (fun hs => by simp_all [supBounded]) (by simp) ?_)
    | (simp only [bounded_mk]; with_reducible refine bounded_unfold ?_)

theorem bounded_clearMarkers {s : State} (hb : s.bounded) : (State.clearMarkers s).bounded := by
  unfold State.clearMarkers
  try dsimp only
  repeat' first
    | with_reducible assumption
    | split
    | (simp only [bounded_mk]; with_reducible refine bounded_unfold ?_)

theorem bounded_endLoading {s : State} (hb : s.bounded) : (State.endLoading s).bounded := by
  unfold State.endLoading
  try dsimp only
  repeat' first
    | with_reducible assumption
    | with_reducible apply bounded_askOpening
    | with_reducible apply bounded_enterHoldup
    | split
    | (with_reducible refine bounded_modSup _ (fun hs => by simp_all [supBounded]) (by simp) ?_)

theorem bounded_offsiteStandby {s : State} (hb : s.bounded) : (State.offsiteStandby s).bounded := by
  unfold State.offsiteStandby
  try dsimp only
  repeat' first
    | with_reducible assumption
    | with_reducible apply bounded_cancelRuns
    | with_reducible apply bounded_freeFullShip
    | with_reducible apply bounded_leaveUp
    | with_reducible apply bounded_modOff
    | split

theorem bounded_patrolStandby {s : State} (hb : s.bounded) : (State.patrolStandby s).bounded := by
  unfold State.patrolStandby
  repeat' first
    | with_reducible assumption
    | with_reducible apply bounded_freeAllOf
    | with_reducible apply bounded_leavePlaces
    | with_reducible apply bounded_modItem
    | with_reducible apply bounded_withdrawAsk
    | with_reducible refine bounded_foldl _ _ (fun _ _ _ => ?_) ?_
    | (with_reducible refine bounded_modLink _ _ (fun _ hr => ?_) ?_; (simp only [LinkRec.bounded] at hr ⊢; (repeat' split) <;> simp_all))

theorem bounded_enterStandby {s : State} (w : QuietWait) (hb : s.bounded) : (State.enterStandby s w).bounded := by
  unfold State.enterStandby
  repeat' first
    | with_reducible assumption
    | with_reducible apply bounded_offsiteStandby
    | with_reducible apply bounded_patrolStandby
    | with_reducible apply bounded_pauseRestores
    | (with_reducible refine bounded_modSup _ (fun hs => by simp_all [supBounded]) (by simp) ?_)

theorem bounded_exitStandby {s : State} (hb : s.bounded) : (State.exitStandby s).bounded := by
  unfold State.exitStandby
  try dsimp only
  repeat' first
    | with_reducible assumption
    | with_reducible apply bounded_askOpening
    | with_reducible apply bounded_evaluateWindow
    | with_reducible apply bounded_resumeRestores
    | split
    | (with_reducible refine bounded_modSup _ (fun hs => by simp_all [supBounded]) (by simp) ?_)

theorem bounded_cancelAll {s : State} (hb : s.bounded) : (State.cancelAll s).bounded :=
  bounded_foldl _ _ (fun _ r h => bounded_cancelRestore r h) hb

theorem bounded_clearPart {s : State} (w : QuietWait) (hb : s.bounded) : (State.clearPart s w).bounded := by
  unfold State.clearPart
  repeat' first
    | with_reducible assumption
    | with_reducible apply bounded_cancelAll
    | with_reducible apply bounded_closeWindow
    | with_reducible apply bounded_modPat
    | with_reducible apply bounded_offsiteStandby
    | with_reducible apply bounded_patrolStandby
    | (with_reducible refine bounded_modSup _ (fun hs => by simp_all [supBounded]) (by simp) ?_)

theorem bounded_setClock {s : State} (value : Nat) (hv : value ≤ maxClock) (hb : s.bounded) : (State.setClock s value).bounded := by
  unfold State.setClock
  dsimp only
  have h0 := bounded_expireDue (bounded_modSup (s := s) (fun u => { u with clock := value, clockSet := true, counted := false })
    (fun hs => ⟨hv, hs.2⟩) (Nat.le_refl _) hb)
  split
  · exact bounded_evaluateWindow (bounded_reckonClose h0)
  · exact bounded_evaluateWindow h0

theorem bounded_tick {s : State} (hb : s.bounded) : (State.tick s).bounded := by
  refine bounded_modSup _ (fun hs => ⟨?_, hs.2⟩) (Nat.le_refl _) hb
  dsimp only
  split
  · rename_i h; exact h
  · exact hs.1

end Sys2Proof.Machine
end

