-- ==== Sys2Proof/Laws/Tables.lean ====
section
/-! SUPPORT. Tables held by key: what is read after a write, and the canonical form kept by every table
operation. -/

namespace Sys2Proof.Machine

variable {α : Type}

/-! ### Reading after writing -/

@[simp] theorem tget_nil (key : Nat) : tget ([] : Tbl α) key = none := rfl

theorem tget_cons (k : Nat) (v : α) (t : Tbl α) (key : Nat) :
    tget ((k, v) :: t) key = if k = key then some v else tget t key := rfl

@[simp] theorem tget_tput_self (t : Tbl α) (key : Nat) (v : α) : tget (tput t key v) key = some v := by
  induction t with
  | nil => simp [tput, tget]
  | cons kw t ih =>
    obtain ⟨k, w⟩ := kw
    simp only [tput]
    split
    · simp [tget]
    · split
      · simp [tget]
      · rename_i h
        simp [tget, Ne.symm h, ih]

@[simp] theorem tget_tput_ne (t : Tbl α) {key other : Nat} (v : α) (h : key ≠ other) :
    tget (tput t key v) other = tget t other := by
  induction t with
  | nil => simp [tput, tget, h]
  | cons kw t ih =>
    obtain ⟨k, w⟩ := kw
    simp only [tput]
    split
    · simp [tget, h]
    · split
      · rename_i hk
        subst hk
        simp [tget, h]
      · simp [tget, ih]

@[simp] theorem tget_tdel_self (t : Tbl α) (key : Nat) : tget (tdel t key) key = none := by
  induction t with
  | nil => rfl
  | cons kw t ih =>
    obtain ⟨k, w⟩ := kw
    by_cases h : k = key
    · simpa [tdel, h] using ih
    · have : tdel ((k, w) :: t) key = (k, w) :: tdel t key := by simp [tdel, h]
      rw [this, tget_cons, if_neg h, ih]

@[simp] theorem tget_tdel_ne (t : Tbl α) {key other : Nat} (h : key ≠ other) :
    tget (tdel t key) other = tget t other := by
  induction t with
  | nil => rfl
  | cons kw t ih =>
    obtain ⟨k, w⟩ := kw
    by_cases hk : k = key
    · have : tdel ((k, w) :: t) key = tdel t key := by simp [tdel, hk]
      rw [this, ih, tget_cons, if_neg (hk ▸ h)]
    · have : tdel ((k, w) :: t) key = (k, w) :: tdel t key := by simp [tdel, hk]
      rw [this, tget_cons, tget_cons, ih]

@[simp] theorem tget_tmod_self (t : Tbl α) (key : Nat) (f : α → α) :
    tget (tmod t key f) key = (tget t key).map f := by
  unfold tmod
  split
  · rename_i h; simp [h]
  · rename_i h; simp [h]

@[simp] theorem tget_tmod_ne (t : Tbl α) {key other : Nat} (f : α → α) (h : key ≠ other) :
    tget (tmod t key f) other = tget t other := by
  unfold tmod
  split
  · simp [h]
  · rfl

theorem tget_tmod (t : Tbl α) (key other : Nat) (f : α → α) :
    tget (tmod t key f) other = if key = other then (tget t other).map f else tget t other := by
  split
  · rename_i h; subst h; simp
  · rename_i h; simp [h]

@[simp] theorem tget_tmap (f : Nat → α → α) (t : Tbl α) (key : Nat) :
    tget (tmap f t) key = (tget t key).map (f key) := by
  induction t with
  | nil => rfl
  | cons kw t ih =>
    obtain ⟨k, w⟩ := kw
    by_cases h : k = key
    · subst h; simp [tmap, tget]
    · have : tmap f ((k, w) :: t) = (k, f k w) :: tmap f t := rfl
      rw [this, tget_cons, tget_cons, if_neg h, if_neg h, ih]

/-- A filter that keeps every pair of a key keeps what is read there. -/
theorem tget_filter_keep (p : Nat × α → Bool) (t : Tbl α) (key : Nat) (h : ∀ v, p (key, v) = true) :
    tget (t.filter p) key = tget t key := by
  induction t with
  | nil => rfl
  | cons kw t ih =>
    obtain ⟨k, w⟩ := kw
    by_cases hp : p (k, w) = true
    · simp [hp, tget, ih]
    · have hk : k ≠ key := fun e => hp (e ▸ h w)
      simp [hp, tget, hk, ih]

/-- A filter that drops every pair of a key leaves none there. -/
theorem tget_filter_drop (p : Nat × α → Bool) (t : Tbl α) (key : Nat) (h : ∀ v, p (key, v) = false) :
    tget (t.filter p) key = none := by
  induction t with
  | nil => rfl
  | cons kw t ih =>
    obtain ⟨k, w⟩ := kw
    by_cases hp : p (k, w) = true
    · have hk : k ≠ key := fun e => by subst e; simp [h w] at hp
      simp [hp, tget, hk, ih]
    · simp [hp, ih]

/-! ### The canonical form -/

theorem risingFrom_weaken {a b : Nat} (t : Tbl α) (h : risingFrom b t = true) (hab : a ≤ b) :
    risingFrom a t = true := by
  cases t with
  | nil => rfl
  | cons kw t =>
    simp only [risingFrom, Bool.and_eq_true, decide_eq_true_eq] at h ⊢
    exact ⟨by omega, h.2⟩

theorem risingFrom_filter (b : Nat) (t : Tbl α) (p : Nat × α → Bool) (h : risingFrom b t = true) :
    risingFrom b (t.filter p) = true := by
  induction t generalizing b with
  | nil => rfl
  | cons kw t ih =>
    obtain ⟨k, w⟩ := kw
    simp only [risingFrom, Bool.and_eq_true, decide_eq_true_eq] at h
    rw [List.filter_cons]
    split
    · simp [risingFrom, h.1, ih _ h.2]
    · exact ih _ (risingFrom_weaken t h.2 (by omega))

theorem risingFrom_tput (b : Nat) (t : Tbl α) (key : Nat) (v : α) (h : risingFrom b t = true) (hb : b ≤ key) :
    risingFrom b (tput t key v) = true := by
  induction t generalizing b with
  | nil => simp [tput, risingFrom, hb]
  | cons kw t ih =>
    obtain ⟨k, w⟩ := kw
    simp only [risingFrom, Bool.and_eq_true, decide_eq_true_eq] at h
    simp only [tput]
    split
    · simp only [risingFrom, Bool.and_eq_true, decide_eq_true_eq]
      exact ⟨hb, by omega, h.2⟩
    · split
      · rename_i hk
        subst hk
        simp [risingFrom, hb, h.2]
      · simp only [risingFrom, Bool.and_eq_true, decide_eq_true_eq]
        exact ⟨h.1, ih _ h.2 (by omega)⟩

theorem risingFrom_tmap (b : Nat) (t : Tbl α) (f : Nat → α → α) (h : risingFrom b t = true) :
    risingFrom b (tmap f t) = true := by
  induction t generalizing b with
  | nil => rfl
  | cons kw t ih =>
    obtain ⟨k, w⟩ := kw
    simp only [risingFrom, Bool.and_eq_true, decide_eq_true_eq] at h
    have : tmap f ((k, w) :: t) = (k, f k w) :: tmap f t := rfl
    simp [this, risingFrom, h.1, ih _ h.2]

theorem wf_tput {t : Tbl α} (key : Nat) (v : α) (h : t.wf = true) : (tput t key v).wf = true :=
  risingFrom_tput 0 t key v h (Nat.zero_le _)

theorem wf_filter {t : Tbl α} (p : Nat × α → Bool) (h : t.wf = true) : Tbl.wf (t.filter p) = true :=
  risingFrom_filter 0 t p h

theorem wf_tdel {t : Tbl α} (key : Nat) (h : t.wf = true) : (tdel t key).wf = true := wf_filter _ h

theorem wf_tmod {t : Tbl α} (key : Nat) (f : α → α) (h : t.wf = true) : (tmod t key f).wf = true := by
  unfold tmod
  split
  · exact wf_tput _ _ h
  · exact h

theorem wf_tmap {t : Tbl α} (f : Nat → α → α) (h : t.wf = true) : (tmap f t).wf = true :=
  risingFrom_tmap 0 t f h

theorem all_tput (p : Nat × α → Bool) (t : Tbl α) (key : Nat) (v : α) (h : t.all p = true)
    (hv : p (key, v) = true) : (tput t key v).all p = true := by
  induction t with
  | nil => simp [tput, hv]
  | cons kw t ih =>
    obtain ⟨k, w⟩ := kw
    simp only [List.all_cons, Bool.and_eq_true] at h
    simp only [tput]
    split
    · simp [hv, h.1, h.2]
    · split
      · simp [hv, h.2]
      · simp [h.1, ih h.2]

/-- The write of an extent record keeps the canonical form of the extent tables. -/
theorem extentsWf_setExtent {s : State} (vol ext : Nat) (e : Extent) (h : extentsWf s.cat.extents = true) :
    extentsWf (s.setExtent vol ext e).cat.extents = true := by
  simp only [extentsWf, Bool.and_eq_true] at h
  simp only [State.setExtent]
  split
  · simp only [extentsWf, Bool.and_eq_true]
    refine ⟨wf_tdel _ h.1, ?_⟩
    simp only [tdel, List.all_filter]
    rw [List.all_eq_true] at h ⊢
    intro x hx
    simp [h.2 x hx]
  · rename_i he
    simp only [extentsWf, Bool.and_eq_true]
    exact ⟨wf_tput _ _ h.1, all_tput _ _ _ _ h.2 (by simpa using he)⟩

/-- The tables of the state after reset have their canonical form. -/
theorem wf_reset :
    Tbl.wf State.reset.tally.principals = true ∧ Tbl.wf State.reset.cat.volumes = true ∧
      extentsWf State.reset.cat.extents = true ∧ Tbl.wf State.reset.cat.snapshots = true ∧
        Tbl.wf State.reset.cat.dues = true ∧ Tbl.wf State.reset.rst.table = true ∧
          Tbl.wf State.reset.str.slots = true ∧ Tbl.wf State.reset.pat.repairs = true := by
  decide

/-! ### Records of the state -/

@[simp] theorem extent_setExtent_self (s : State) (vol ext : Nat) (e : Extent) :
    (s.setExtent vol ext e).extent vol ext = e := by
  simp only [State.extent, State.setExtent]
  split
  · rename_i h; simp [h]
  · simp

theorem extent_setExtent_ne (s : State) (vol ext v x : Nat) (e : Extent)
    (h : extentKey vol ext ≠ extentKey v x) : (s.setExtent vol ext e).extent v x = s.extent v x := by
  simp only [State.extent, State.setExtent]
  split <;> simp [h]

end Sys2Proof.Machine
end

