-- ==== Sys2Proof/Laws/State.lean ====
section
/-! SUPPORT. What each basic update of the state leaves alone, field by field, and what the links read
after one of them was changed. -/

namespace Sys2Proof.Machine

/-! ### send -/

@[simp] theorem State.send_sup (s : State) (o : Output) : (s.send o).sup = s.sup := rfl
@[simp] theorem State.send_links (s : State) (o : Output) : (s.send o).links = s.links := rfl
@[simp] theorem State.send_tally (s : State) (o : Output) : (s.send o).tally = s.tally := rfl
@[simp] theorem State.send_cat (s : State) (o : Output) : (s.send o).cat = s.cat := rfl
@[simp] theorem State.send_rst (s : State) (o : Output) : (s.send o).rst = s.rst := rfl
@[simp] theorem State.send_str (s : State) (o : Output) : (s.send o).str = s.str := rfl
@[simp] theorem State.send_off (s : State) (o : Output) : (s.send o).off = s.off := rfl
@[simp] theorem State.send_pat (s : State) (o : Output) : (s.send o).pat = s.pat := rfl
@[simp] theorem State.send_pending (s : State) (o : Output) : (s.send o).pending = s.pending := rfl

/-! ### modLink -/

@[simp] theorem State.modLink_sup (s : State) (l : Link) (f : LinkRec → LinkRec) : (s.modLink l f).sup = s.sup := rfl
@[simp] theorem State.modLink_tally (s : State) (l : Link) (f : LinkRec → LinkRec) : (s.modLink l f).tally = s.tally := rfl
@[simp] theorem State.modLink_cat (s : State) (l : Link) (f : LinkRec → LinkRec) : (s.modLink l f).cat = s.cat := rfl
@[simp] theorem State.modLink_rst (s : State) (l : Link) (f : LinkRec → LinkRec) : (s.modLink l f).rst = s.rst := rfl
@[simp] theorem State.modLink_str (s : State) (l : Link) (f : LinkRec → LinkRec) : (s.modLink l f).str = s.str := rfl
@[simp] theorem State.modLink_off (s : State) (l : Link) (f : LinkRec → LinkRec) : (s.modLink l f).off = s.off := rfl
@[simp] theorem State.modLink_pat (s : State) (l : Link) (f : LinkRec → LinkRec) : (s.modLink l f).pat = s.pat := rfl
@[simp] theorem State.modLink_pending (s : State) (l : Link) (f : LinkRec → LinkRec) : (s.modLink l f).pending = s.pending := rfl
@[simp] theorem State.modLink_sent (s : State) (l : Link) (f : LinkRec → LinkRec) : (s.modLink l f).sent = s.sent := rfl

/-! ### modSup -/

@[simp] theorem State.modSup_links (s : State) (f : Supervisor → Supervisor) : (s.modSup f).links = s.links := rfl
@[simp] theorem State.modSup_tally (s : State) (f : Supervisor → Supervisor) : (s.modSup f).tally = s.tally := rfl
@[simp] theorem State.modSup_cat (s : State) (f : Supervisor → Supervisor) : (s.modSup f).cat = s.cat := rfl
@[simp] theorem State.modSup_rst (s : State) (f : Supervisor → Supervisor) : (s.modSup f).rst = s.rst := rfl
@[simp] theorem State.modSup_str (s : State) (f : Supervisor → Supervisor) : (s.modSup f).str = s.str := rfl
@[simp] theorem State.modSup_off (s : State) (f : Supervisor → Supervisor) : (s.modSup f).off = s.off := rfl
@[simp] theorem State.modSup_pat (s : State) (f : Supervisor → Supervisor) : (s.modSup f).pat = s.pat := rfl
@[simp] theorem State.modSup_pending (s : State) (f : Supervisor → Supervisor) : (s.modSup f).pending = s.pending := rfl
@[simp] theorem State.modSup_sent (s : State) (f : Supervisor → Supervisor) : (s.modSup f).sent = s.sent := rfl
@[simp] theorem State.modSup_sup (s : State) (f : Supervisor → Supervisor) : (s.modSup f).sup = f s.sup := rfl

/-! ### modOff -/

@[simp] theorem State.modOff_sup (s : State) (f : Offsite → Offsite) : (s.modOff f).sup = s.sup := rfl
@[simp] theorem State.modOff_links (s : State) (f : Offsite → Offsite) : (s.modOff f).links = s.links := rfl
@[simp] theorem State.modOff_tally (s : State) (f : Offsite → Offsite) : (s.modOff f).tally = s.tally := rfl
@[simp] theorem State.modOff_cat (s : State) (f : Offsite → Offsite) : (s.modOff f).cat = s.cat := rfl
@[simp] theorem State.modOff_rst (s : State) (f : Offsite → Offsite) : (s.modOff f).rst = s.rst := rfl
@[simp] theorem State.modOff_str (s : State) (f : Offsite → Offsite) : (s.modOff f).str = s.str := rfl
@[simp] theorem State.modOff_pat (s : State) (f : Offsite → Offsite) : (s.modOff f).pat = s.pat := rfl
@[simp] theorem State.modOff_pending (s : State) (f : Offsite → Offsite) : (s.modOff f).pending = s.pending := rfl
@[simp] theorem State.modOff_sent (s : State) (f : Offsite → Offsite) : (s.modOff f).sent = s.sent := rfl
@[simp] theorem State.modOff_off (s : State) (f : Offsite → Offsite) : (s.modOff f).off = f s.off := rfl

/-! ### modPat -/

@[simp] theorem State.modPat_sup (s : State) (f : Patrol → Patrol) : (s.modPat f).sup = s.sup := rfl
@[simp] theorem State.modPat_links (s : State) (f : Patrol → Patrol) : (s.modPat f).links = s.links := rfl
@[simp] theorem State.modPat_tally (s : State) (f : Patrol → Patrol) : (s.modPat f).tally = s.tally := rfl
@[simp] theorem State.modPat_cat (s : State) (f : Patrol → Patrol) : (s.modPat f).cat = s.cat := rfl
@[simp] theorem State.modPat_rst (s : State) (f : Patrol → Patrol) : (s.modPat f).rst = s.rst := rfl
@[simp] theorem State.modPat_str (s : State) (f : Patrol → Patrol) : (s.modPat f).str = s.str := rfl
@[simp] theorem State.modPat_off (s : State) (f : Patrol → Patrol) : (s.modPat f).off = s.off := rfl
@[simp] theorem State.modPat_pending (s : State) (f : Patrol → Patrol) : (s.modPat f).pending = s.pending := rfl
@[simp] theorem State.modPat_sent (s : State) (f : Patrol → Patrol) : (s.modPat f).sent = s.sent := rfl
@[simp] theorem State.modPat_pat (s : State) (f : Patrol → Patrol) : (s.modPat f).pat = f s.pat := rfl

/-! ### modRst -/

@[simp] theorem State.modRst_sup (s : State) (f : RestoreEngine → RestoreEngine) : (s.modRst f).sup = s.sup := rfl
@[simp] theorem State.modRst_links (s : State) (f : RestoreEngine → RestoreEngine) : (s.modRst f).links = s.links := rfl
@[simp] theorem State.modRst_tally (s : State) (f : RestoreEngine → RestoreEngine) : (s.modRst f).tally = s.tally := rfl
@[simp] theorem State.modRst_cat (s : State) (f : RestoreEngine → RestoreEngine) : (s.modRst f).cat = s.cat := rfl
@[simp] theorem State.modRst_str (s : State) (f : RestoreEngine → RestoreEngine) : (s.modRst f).str = s.str := rfl
@[simp] theorem State.modRst_off (s : State) (f : RestoreEngine → RestoreEngine) : (s.modRst f).off = s.off := rfl
@[simp] theorem State.modRst_pat (s : State) (f : RestoreEngine → RestoreEngine) : (s.modRst f).pat = s.pat := rfl
@[simp] theorem State.modRst_pending (s : State) (f : RestoreEngine → RestoreEngine) : (s.modRst f).pending = s.pending := rfl
@[simp] theorem State.modRst_sent (s : State) (f : RestoreEngine → RestoreEngine) : (s.modRst f).sent = s.sent := rfl
@[simp] theorem State.modRst_rst (s : State) (f : RestoreEngine → RestoreEngine) : (s.modRst f).rst = f s.rst := rfl

/-! ### setPrin -/

@[simp] theorem State.setPrin_sup (s : State) (id : Nat) (p : Principal) : (s.setPrin id p).sup = s.sup := rfl
@[simp] theorem State.setPrin_links (s : State) (id : Nat) (p : Principal) : (s.setPrin id p).links = s.links := rfl
@[simp] theorem State.setPrin_cat (s : State) (id : Nat) (p : Principal) : (s.setPrin id p).cat = s.cat := rfl
@[simp] theorem State.setPrin_rst (s : State) (id : Nat) (p : Principal) : (s.setPrin id p).rst = s.rst := rfl
@[simp] theorem State.setPrin_str (s : State) (id : Nat) (p : Principal) : (s.setPrin id p).str = s.str := rfl
@[simp] theorem State.setPrin_off (s : State) (id : Nat) (p : Principal) : (s.setPrin id p).off = s.off := rfl
@[simp] theorem State.setPrin_pat (s : State) (id : Nat) (p : Principal) : (s.setPrin id p).pat = s.pat := rfl
@[simp] theorem State.setPrin_pending (s : State) (id : Nat) (p : Principal) : (s.setPrin id p).pending = s.pending := rfl
@[simp] theorem State.setPrin_sent (s : State) (id : Nat) (p : Principal) : (s.setPrin id p).sent = s.sent := rfl
@[simp] theorem State.setPrin_tally_cache (s : State) (id : Nat) (p : Principal) : (s.setPrin id p).tally.cache = s.tally.cache := rfl
@[simp] theorem State.setPrin_tally_castout (s : State) (id : Nat) (p : Principal) : (s.setPrin id p).tally.castout = s.tally.castout := rfl
@[simp] theorem State.setPrin_tally_postings (s : State) (id : Nat) (p : Principal) : (s.setPrin id p).tally.postings = s.tally.postings := rfl
@[simp] theorem State.setPrin_tally_grace (s : State) (id : Nat) (p : Principal) : (s.setPrin id p).tally.grace = s.tally.grace := rfl
@[simp] theorem State.setPrin_tally_note (s : State) (id : Nat) (p : Principal) : (s.setPrin id p).tally.note = s.tally.note := rfl
@[simp] theorem State.setPrin_tally_recounts (s : State) (id : Nat) (p : Principal) : (s.setPrin id p).tally.recounts = s.tally.recounts := rfl
@[simp] theorem State.setPrin_tally_ops (s : State) (id : Nat) (p : Principal) : (s.setPrin id p).tally.ops = s.tally.ops := rfl
@[simp] theorem State.setPrin_tally_writes (s : State) (id : Nat) (p : Principal) : (s.setPrin id p).tally.writes = s.tally.writes := rfl
@[simp] theorem State.setPrin_tally_flushing (s : State) (id : Nat) (p : Principal) : (s.setPrin id p).tally.flushing = s.tally.flushing := rfl
@[simp] theorem State.setPrin_tally_modeReply (s : State) (id : Nat) (p : Principal) : (s.setPrin id p).tally.modeReply = s.tally.modeReply := rfl
@[simp] theorem State.setPrin_tally_nextOp (s : State) (id : Nat) (p : Principal) : (s.setPrin id p).tally.nextOp = s.tally.nextOp := rfl
@[simp] theorem State.setPrin_tally_nextPosting (s : State) (id : Nat) (p : Principal) : (s.setPrin id p).tally.nextPosting = s.tally.nextPosting := rfl

/-! ### modPrin -/

@[simp] theorem State.modPrin_sup (s : State) (id : Nat) (f : Principal → Principal) : (s.modPrin id f).sup = s.sup := rfl
@[simp] theorem State.modPrin_links (s : State) (id : Nat) (f : Principal → Principal) : (s.modPrin id f).links = s.links := rfl
@[simp] theorem State.modPrin_cat (s : State) (id : Nat) (f : Principal → Principal) : (s.modPrin id f).cat = s.cat := rfl
@[simp] theorem State.modPrin_rst (s : State) (id : Nat) (f : Principal → Principal) : (s.modPrin id f).rst = s.rst := rfl
@[simp] theorem State.modPrin_str (s : State) (id : Nat) (f : Principal → Principal) : (s.modPrin id f).str = s.str := rfl
@[simp] theorem State.modPrin_off (s : State) (id : Nat) (f : Principal → Principal) : (s.modPrin id f).off = s.off := rfl
@[simp] theorem State.modPrin_pat (s : State) (id : Nat) (f : Principal → Principal) : (s.modPrin id f).pat = s.pat := rfl
@[simp] theorem State.modPrin_pending (s : State) (id : Nat) (f : Principal → Principal) : (s.modPrin id f).pending = s.pending := rfl
@[simp] theorem State.modPrin_sent (s : State) (id : Nat) (f : Principal → Principal) : (s.modPrin id f).sent = s.sent := rfl
@[simp] theorem State.modPrin_tally_cache (s : State) (id : Nat) (f : Principal → Principal) : (s.modPrin id f).tally.cache = s.tally.cache := rfl
@[simp] theorem State.modPrin_tally_castout (s : State) (id : Nat) (f : Principal → Principal) : (s.modPrin id f).tally.castout = s.tally.castout := rfl
@[simp] theorem State.modPrin_tally_postings (s : State) (id : Nat) (f : Principal → Principal) : (s.modPrin id f).tally.postings = s.tally.postings := rfl
@[simp] theorem State.modPrin_tally_grace (s : State) (id : Nat) (f : Principal → Principal) : (s.modPrin id f).tally.grace = s.tally.grace := rfl
@[simp] theorem State.modPrin_tally_note (s : State) (id : Nat) (f : Principal → Principal) : (s.modPrin id f).tally.note = s.tally.note := rfl
@[simp] theorem State.modPrin_tally_recounts (s : State) (id : Nat) (f : Principal → Principal) : (s.modPrin id f).tally.recounts = s.tally.recounts := rfl
@[simp] theorem State.modPrin_tally_ops (s : State) (id : Nat) (f : Principal → Principal) : (s.modPrin id f).tally.ops = s.tally.ops := rfl
@[simp] theorem State.modPrin_tally_writes (s : State) (id : Nat) (f : Principal → Principal) : (s.modPrin id f).tally.writes = s.tally.writes := rfl
@[simp] theorem State.modPrin_tally_flushing (s : State) (id : Nat) (f : Principal → Principal) : (s.modPrin id f).tally.flushing = s.tally.flushing := rfl
@[simp] theorem State.modPrin_tally_modeReply (s : State) (id : Nat) (f : Principal → Principal) : (s.modPrin id f).tally.modeReply = s.tally.modeReply := rfl
@[simp] theorem State.modPrin_tally_nextOp (s : State) (id : Nat) (f : Principal → Principal) : (s.modPrin id f).tally.nextOp = s.tally.nextOp := rfl
@[simp] theorem State.modPrin_tally_nextPosting (s : State) (id : Nat) (f : Principal → Principal) : (s.modPrin id f).tally.nextPosting = s.tally.nextPosting := rfl

/-! ### modVolume -/

@[simp] theorem State.modVolume_sup (s : State) (vol : Nat) (f : Volume → Volume) : (s.modVolume vol f).sup = s.sup := rfl
@[simp] theorem State.modVolume_links (s : State) (vol : Nat) (f : Volume → Volume) : (s.modVolume vol f).links = s.links := rfl
@[simp] theorem State.modVolume_tally (s : State) (vol : Nat) (f : Volume → Volume) : (s.modVolume vol f).tally = s.tally := rfl
@[simp] theorem State.modVolume_rst (s : State) (vol : Nat) (f : Volume → Volume) : (s.modVolume vol f).rst = s.rst := rfl
@[simp] theorem State.modVolume_str (s : State) (vol : Nat) (f : Volume → Volume) : (s.modVolume vol f).str = s.str := rfl
@[simp] theorem State.modVolume_off (s : State) (vol : Nat) (f : Volume → Volume) : (s.modVolume vol f).off = s.off := rfl
@[simp] theorem State.modVolume_pat (s : State) (vol : Nat) (f : Volume → Volume) : (s.modVolume vol f).pat = s.pat := rfl
@[simp] theorem State.modVolume_pending (s : State) (vol : Nat) (f : Volume → Volume) : (s.modVolume vol f).pending = s.pending := rfl
@[simp] theorem State.modVolume_sent (s : State) (vol : Nat) (f : Volume → Volume) : (s.modVolume vol f).sent = s.sent := rfl
@[simp] theorem State.modVolume_cat_extents (s : State) (vol : Nat) (f : Volume → Volume) : (s.modVolume vol f).cat.extents = s.cat.extents := rfl
@[simp] theorem State.modVolume_cat_attaching (s : State) (vol : Nat) (f : Volume → Volume) : (s.modVolume vol f).cat.attaching = s.cat.attaching := rfl
@[simp] theorem State.modVolume_cat_snapshots (s : State) (vol : Nat) (f : Volume → Volume) : (s.modVolume vol f).cat.snapshots = s.cat.snapshots := rfl
@[simp] theorem State.modVolume_cat_reclaims (s : State) (vol : Nat) (f : Volume → Volume) : (s.modVolume vol f).cat.reclaims = s.cat.reclaims := rfl
@[simp] theorem State.modVolume_cat_sweepWaits (s : State) (vol : Nat) (f : Volume → Volume) : (s.modVolume vol f).cat.sweepWaits = s.cat.sweepWaits := rfl
@[simp] theorem State.modVolume_cat_dues (s : State) (vol : Nat) (f : Volume → Volume) : (s.modVolume vol f).cat.dues = s.cat.dues := rfl

/-! ### setExtent -/

@[simp] theorem State.setExtent_sup (s : State) (vol ext : Nat) (e : Extent) : (s.setExtent vol ext e).sup = s.sup := rfl
@[simp] theorem State.setExtent_links (s : State) (vol ext : Nat) (e : Extent) : (s.setExtent vol ext e).links = s.links := rfl
@[simp] theorem State.setExtent_tally (s : State) (vol ext : Nat) (e : Extent) : (s.setExtent vol ext e).tally = s.tally := rfl
@[simp] theorem State.setExtent_rst (s : State) (vol ext : Nat) (e : Extent) : (s.setExtent vol ext e).rst = s.rst := rfl
@[simp] theorem State.setExtent_str (s : State) (vol ext : Nat) (e : Extent) : (s.setExtent vol ext e).str = s.str := rfl
@[simp] theorem State.setExtent_off (s : State) (vol ext : Nat) (e : Extent) : (s.setExtent vol ext e).off = s.off := rfl
@[simp] theorem State.setExtent_pat (s : State) (vol ext : Nat) (e : Extent) : (s.setExtent vol ext e).pat = s.pat := rfl
@[simp] theorem State.setExtent_pending (s : State) (vol ext : Nat) (e : Extent) : (s.setExtent vol ext e).pending = s.pending := rfl
@[simp] theorem State.setExtent_sent (s : State) (vol ext : Nat) (e : Extent) : (s.setExtent vol ext e).sent = s.sent := rfl
@[simp] theorem State.setExtent_cat_volumes (s : State) (vol ext : Nat) (e : Extent) : (s.setExtent vol ext e).cat.volumes = s.cat.volumes := rfl
@[simp] theorem State.setExtent_cat_attaching (s : State) (vol ext : Nat) (e : Extent) : (s.setExtent vol ext e).cat.attaching = s.cat.attaching := rfl
@[simp] theorem State.setExtent_cat_snapshots (s : State) (vol ext : Nat) (e : Extent) : (s.setExtent vol ext e).cat.snapshots = s.cat.snapshots := rfl
@[simp] theorem State.setExtent_cat_reclaims (s : State) (vol ext : Nat) (e : Extent) : (s.setExtent vol ext e).cat.reclaims = s.cat.reclaims := rfl
@[simp] theorem State.setExtent_cat_sweepWaits (s : State) (vol ext : Nat) (e : Extent) : (s.setExtent vol ext e).cat.sweepWaits = s.cat.sweepWaits := rfl
@[simp] theorem State.setExtent_cat_dues (s : State) (vol ext : Nat) (e : Extent) : (s.setExtent vol ext e).cat.dues = s.cat.dues := rfl

/-! ### modSnapshot -/

@[simp] theorem State.modSnapshot_sup (s : State) (vol gen : Nat) (f : Snapshot → Snapshot) : (s.modSnapshot vol gen f).sup = s.sup := rfl
@[simp] theorem State.modSnapshot_links (s : State) (vol gen : Nat) (f : Snapshot → Snapshot) : (s.modSnapshot vol gen f).links = s.links := rfl
@[simp] theorem State.modSnapshot_tally (s : State) (vol gen : Nat) (f : Snapshot → Snapshot) : (s.modSnapshot vol gen f).tally = s.tally := rfl
@[simp] theorem State.modSnapshot_rst (s : State) (vol gen : Nat) (f : Snapshot → Snapshot) : (s.modSnapshot vol gen f).rst = s.rst := rfl
@[simp] theorem State.modSnapshot_str (s : State) (vol gen : Nat) (f : Snapshot → Snapshot) : (s.modSnapshot vol gen f).str = s.str := rfl
@[simp] theorem State.modSnapshot_off (s : State) (vol gen : Nat) (f : Snapshot → Snapshot) : (s.modSnapshot vol gen f).off = s.off := rfl
@[simp] theorem State.modSnapshot_pat (s : State) (vol gen : Nat) (f : Snapshot → Snapshot) : (s.modSnapshot vol gen f).pat = s.pat := rfl
@[simp] theorem State.modSnapshot_pending (s : State) (vol gen : Nat) (f : Snapshot → Snapshot) : (s.modSnapshot vol gen f).pending = s.pending := rfl
@[simp] theorem State.modSnapshot_sent (s : State) (vol gen : Nat) (f : Snapshot → Snapshot) : (s.modSnapshot vol gen f).sent = s.sent := rfl
@[simp] theorem State.modSnapshot_cat_volumes (s : State) (vol gen : Nat) (f : Snapshot → Snapshot) : (s.modSnapshot vol gen f).cat.volumes = s.cat.volumes := rfl
@[simp] theorem State.modSnapshot_cat_extents (s : State) (vol gen : Nat) (f : Snapshot → Snapshot) : (s.modSnapshot vol gen f).cat.extents = s.cat.extents := rfl
@[simp] theorem State.modSnapshot_cat_attaching (s : State) (vol gen : Nat) (f : Snapshot → Snapshot) : (s.modSnapshot vol gen f).cat.attaching = s.cat.attaching := rfl
@[simp] theorem State.modSnapshot_cat_reclaims (s : State) (vol gen : Nat) (f : Snapshot → Snapshot) : (s.modSnapshot vol gen f).cat.reclaims = s.cat.reclaims := rfl
@[simp] theorem State.modSnapshot_cat_sweepWaits (s : State) (vol gen : Nat) (f : Snapshot → Snapshot) : (s.modSnapshot vol gen f).cat.sweepWaits = s.cat.sweepWaits := rfl
@[simp] theorem State.modSnapshot_cat_dues (s : State) (vol gen : Nat) (f : Snapshot → Snapshot) : (s.modSnapshot vol gen f).cat.dues = s.cat.dues := rfl

/-! ### setDues -/

@[simp] theorem State.setDues_sup (s : State) (vol : Nat) (d : Dues) : (s.setDues vol d).sup = s.sup := rfl
@[simp] theorem State.setDues_links (s : State) (vol : Nat) (d : Dues) : (s.setDues vol d).links = s.links := rfl
@[simp] theorem State.setDues_tally (s : State) (vol : Nat) (d : Dues) : (s.setDues vol d).tally = s.tally := rfl
@[simp] theorem State.setDues_rst (s : State) (vol : Nat) (d : Dues) : (s.setDues vol d).rst = s.rst := rfl
@[simp] theorem State.setDues_str (s : State) (vol : Nat) (d : Dues) : (s.setDues vol d).str = s.str := rfl
@[simp] theorem State.setDues_off (s : State) (vol : Nat) (d : Dues) : (s.setDues vol d).off = s.off := rfl
@[simp] theorem State.setDues_pat (s : State) (vol : Nat) (d : Dues) : (s.setDues vol d).pat = s.pat := rfl
@[simp] theorem State.setDues_pending (s : State) (vol : Nat) (d : Dues) : (s.setDues vol d).pending = s.pending := rfl
@[simp] theorem State.setDues_sent (s : State) (vol : Nat) (d : Dues) : (s.setDues vol d).sent = s.sent := rfl
@[simp] theorem State.setDues_cat_volumes (s : State) (vol : Nat) (d : Dues) : (s.setDues vol d).cat.volumes = s.cat.volumes := rfl
@[simp] theorem State.setDues_cat_extents (s : State) (vol : Nat) (d : Dues) : (s.setDues vol d).cat.extents = s.cat.extents := rfl
@[simp] theorem State.setDues_cat_attaching (s : State) (vol : Nat) (d : Dues) : (s.setDues vol d).cat.attaching = s.cat.attaching := rfl
@[simp] theorem State.setDues_cat_snapshots (s : State) (vol : Nat) (d : Dues) : (s.setDues vol d).cat.snapshots = s.cat.snapshots := rfl
@[simp] theorem State.setDues_cat_reclaims (s : State) (vol : Nat) (d : Dues) : (s.setDues vol d).cat.reclaims = s.cat.reclaims := rfl
@[simp] theorem State.setDues_cat_sweepWaits (s : State) (vol : Nat) (d : Dues) : (s.setDues vol d).cat.sweepWaits = s.cat.sweepWaits := rfl

/-! ### modRestore -/

@[simp] theorem State.modRestore_sup (s : State) (rec : Nat) (f : Restore → Restore) : (s.modRestore rec f).sup = s.sup := rfl
@[simp] theorem State.modRestore_links (s : State) (rec : Nat) (f : Restore → Restore) : (s.modRestore rec f).links = s.links := rfl
@[simp] theorem State.modRestore_tally (s : State) (rec : Nat) (f : Restore → Restore) : (s.modRestore rec f).tally = s.tally := rfl
@[simp] theorem State.modRestore_cat (s : State) (rec : Nat) (f : Restore → Restore) : (s.modRestore rec f).cat = s.cat := rfl
@[simp] theorem State.modRestore_str (s : State) (rec : Nat) (f : Restore → Restore) : (s.modRestore rec f).str = s.str := rfl
@[simp] theorem State.modRestore_off (s : State) (rec : Nat) (f : Restore → Restore) : (s.modRestore rec f).off = s.off := rfl
@[simp] theorem State.modRestore_pat (s : State) (rec : Nat) (f : Restore → Restore) : (s.modRestore rec f).pat = s.pat := rfl
@[simp] theorem State.modRestore_pending (s : State) (rec : Nat) (f : Restore → Restore) : (s.modRestore rec f).pending = s.pending := rfl
@[simp] theorem State.modRestore_sent (s : State) (rec : Nat) (f : Restore → Restore) : (s.modRestore rec f).sent = s.sent := rfl
@[simp] theorem State.modRestore_rst_counter (s : State) (rec : Nat) (f : Restore → Restore) : (s.modRestore rec f).rst.counter = s.rst.counter := rfl
@[simp] theorem State.modRestore_rst_waiting (s : State) (rec : Nat) (f : Restore → Restore) : (s.modRestore rec f).rst.waiting = s.rst.waiting := rfl
@[simp] theorem State.modRestore_rst_acceptance (s : State) (rec : Nat) (f : Restore → Restore) : (s.modRestore rec f).rst.acceptance = s.rst.acceptance := rfl
@[simp] theorem State.modRestore_rst_nextAccept (s : State) (rec : Nat) (f : Restore → Restore) : (s.modRestore rec f).rst.nextAccept = s.rst.nextAccept := rfl
@[simp] theorem State.modRestore_rst_nextFinish (s : State) (rec : Nat) (f : Restore → Restore) : (s.modRestore rec f).rst.nextFinish = s.rst.nextFinish := rfl

/-! ### modStep -/

@[simp] theorem State.modStep_sup (s : State) (rec i : Nat) (f : Step → Step) : (s.modStep rec i f).sup = s.sup := rfl
@[simp] theorem State.modStep_links (s : State) (rec i : Nat) (f : Step → Step) : (s.modStep rec i f).links = s.links := rfl
@[simp] theorem State.modStep_tally (s : State) (rec i : Nat) (f : Step → Step) : (s.modStep rec i f).tally = s.tally := rfl
@[simp] theorem State.modStep_cat (s : State) (rec i : Nat) (f : Step → Step) : (s.modStep rec i f).cat = s.cat := rfl
@[simp] theorem State.modStep_str (s : State) (rec i : Nat) (f : Step → Step) : (s.modStep rec i f).str = s.str := rfl
@[simp] theorem State.modStep_off (s : State) (rec i : Nat) (f : Step → Step) : (s.modStep rec i f).off = s.off := rfl
@[simp] theorem State.modStep_pat (s : State) (rec i : Nat) (f : Step → Step) : (s.modStep rec i f).pat = s.pat := rfl
@[simp] theorem State.modStep_pending (s : State) (rec i : Nat) (f : Step → Step) : (s.modStep rec i f).pending = s.pending := rfl
@[simp] theorem State.modStep_sent (s : State) (rec i : Nat) (f : Step → Step) : (s.modStep rec i f).sent = s.sent := rfl
@[simp] theorem State.modStep_rst_counter (s : State) (rec i : Nat) (f : Step → Step) : (s.modStep rec i f).rst.counter = s.rst.counter := rfl
@[simp] theorem State.modStep_rst_waiting (s : State) (rec i : Nat) (f : Step → Step) : (s.modStep rec i f).rst.waiting = s.rst.waiting := rfl
@[simp] theorem State.modStep_rst_acceptance (s : State) (rec i : Nat) (f : Step → Step) : (s.modStep rec i f).rst.acceptance = s.rst.acceptance := rfl
@[simp] theorem State.modStep_rst_nextAccept (s : State) (rec i : Nat) (f : Step → Step) : (s.modStep rec i f).rst.nextAccept = s.rst.nextAccept := rfl
@[simp] theorem State.modStep_rst_nextFinish (s : State) (rec i : Nat) (f : Step → Step) : (s.modStep rec i f).rst.nextFinish = s.rst.nextFinish := rfl

/-! ### modSlot -/

@[simp] theorem State.modSlot_sup (s : State) (n : Nat) (f : Slot → Slot) : (s.modSlot n f).sup = s.sup := rfl
@[simp] theorem State.modSlot_links (s : State) (n : Nat) (f : Slot → Slot) : (s.modSlot n f).links = s.links := rfl
@[simp] theorem State.modSlot_tally (s : State) (n : Nat) (f : Slot → Slot) : (s.modSlot n f).tally = s.tally := rfl
@[simp] theorem State.modSlot_cat (s : State) (n : Nat) (f : Slot → Slot) : (s.modSlot n f).cat = s.cat := rfl
@[simp] theorem State.modSlot_rst (s : State) (n : Nat) (f : Slot → Slot) : (s.modSlot n f).rst = s.rst := rfl
@[simp] theorem State.modSlot_off (s : State) (n : Nat) (f : Slot → Slot) : (s.modSlot n f).off = s.off := rfl
@[simp] theorem State.modSlot_pat (s : State) (n : Nat) (f : Slot → Slot) : (s.modSlot n f).pat = s.pat := rfl
@[simp] theorem State.modSlot_pending (s : State) (n : Nat) (f : Slot → Slot) : (s.modSlot n f).pending = s.pending := rfl
@[simp] theorem State.modSlot_sent (s : State) (n : Nat) (f : Slot → Slot) : (s.modSlot n f).sent = s.sent := rfl
@[simp] theorem State.modSlot_str_waitRepair (s : State) (n : Nat) (f : Slot → Slot) : (s.modSlot n f).str.waitRepair = s.str.waitRepair := rfl
@[simp] theorem State.modSlot_str_waitFetch (s : State) (n : Nat) (f : Slot → Slot) : (s.modSlot n f).str.waitFetch = s.str.waitFetch := rfl
@[simp] theorem State.modSlot_str_waitShip (s : State) (n : Nat) (f : Slot → Slot) : (s.modSlot n f).str.waitShip = s.str.waitShip := rfl
@[simp] theorem State.modSlot_str_waitPatrol (s : State) (n : Nat) (f : Slot → Slot) : (s.modSlot n f).str.waitPatrol = s.str.waitPatrol := rfl
@[simp] theorem State.modSlot_str_nextFull (s : State) (n : Nat) (f : Slot → Slot) : (s.modSlot n f).str.nextFull = s.str.nextFull := rfl

/-! ### freeSlot -/

@[simp] theorem State.freeSlot_sup (s : State) (n : Nat) : (s.freeSlot n).sup = s.sup := rfl
@[simp] theorem State.freeSlot_links (s : State) (n : Nat) : (s.freeSlot n).links = s.links := rfl
@[simp] theorem State.freeSlot_tally (s : State) (n : Nat) : (s.freeSlot n).tally = s.tally := rfl
@[simp] theorem State.freeSlot_cat (s : State) (n : Nat) : (s.freeSlot n).cat = s.cat := rfl
@[simp] theorem State.freeSlot_rst (s : State) (n : Nat) : (s.freeSlot n).rst = s.rst := rfl
@[simp] theorem State.freeSlot_off (s : State) (n : Nat) : (s.freeSlot n).off = s.off := rfl
@[simp] theorem State.freeSlot_pat (s : State) (n : Nat) : (s.freeSlot n).pat = s.pat := rfl
@[simp] theorem State.freeSlot_pending (s : State) (n : Nat) : (s.freeSlot n).pending = s.pending := rfl
@[simp] theorem State.freeSlot_sent (s : State) (n : Nat) : (s.freeSlot n).sent = s.sent := rfl
@[simp] theorem State.freeSlot_str_waitRepair (s : State) (n : Nat) : (s.freeSlot n).str.waitRepair = s.str.waitRepair := rfl
@[simp] theorem State.freeSlot_str_waitFetch (s : State) (n : Nat) : (s.freeSlot n).str.waitFetch = s.str.waitFetch := rfl
@[simp] theorem State.freeSlot_str_waitShip (s : State) (n : Nat) : (s.freeSlot n).str.waitShip = s.str.waitShip := rfl
@[simp] theorem State.freeSlot_str_waitPatrol (s : State) (n : Nat) : (s.freeSlot n).str.waitPatrol = s.str.waitPatrol := rfl
@[simp] theorem State.freeSlot_str_nextFull (s : State) (n : Nat) : (s.freeSlot n).str.nextFull = s.str.nextFull := rfl

/-! ### freeSlotsIf -/

@[simp] theorem State.freeSlotsIf_sup (s : State) (p : Slot → Bool) : (s.freeSlotsIf p).sup = s.sup := rfl
@[simp] theorem State.freeSlotsIf_links (s : State) (p : Slot → Bool) : (s.freeSlotsIf p).links = s.links := rfl
@[simp] theorem State.freeSlotsIf_tally (s : State) (p : Slot → Bool) : (s.freeSlotsIf p).tally = s.tally := rfl
@[simp] theorem State.freeSlotsIf_cat (s : State) (p : Slot → Bool) : (s.freeSlotsIf p).cat = s.cat := rfl
@[simp] theorem State.freeSlotsIf_rst (s : State) (p : Slot → Bool) : (s.freeSlotsIf p).rst = s.rst := rfl
@[simp] theorem State.freeSlotsIf_off (s : State) (p : Slot → Bool) : (s.freeSlotsIf p).off = s.off := rfl
@[simp] theorem State.freeSlotsIf_pat (s : State) (p : Slot → Bool) : (s.freeSlotsIf p).pat = s.pat := rfl
@[simp] theorem State.freeSlotsIf_pending (s : State) (p : Slot → Bool) : (s.freeSlotsIf p).pending = s.pending := rfl
@[simp] theorem State.freeSlotsIf_sent (s : State) (p : Slot → Bool) : (s.freeSlotsIf p).sent = s.sent := rfl
@[simp] theorem State.freeSlotsIf_str_waitRepair (s : State) (p : Slot → Bool) : (s.freeSlotsIf p).str.waitRepair = s.str.waitRepair := rfl
@[simp] theorem State.freeSlotsIf_str_waitFetch (s : State) (p : Slot → Bool) : (s.freeSlotsIf p).str.waitFetch = s.str.waitFetch := rfl
@[simp] theorem State.freeSlotsIf_str_waitShip (s : State) (p : Slot → Bool) : (s.freeSlotsIf p).str.waitShip = s.str.waitShip := rfl
@[simp] theorem State.freeSlotsIf_str_waitPatrol (s : State) (p : Slot → Bool) : (s.freeSlotsIf p).str.waitPatrol = s.str.waitPatrol := rfl
@[simp] theorem State.freeSlotsIf_str_nextFull (s : State) (p : Slot → Bool) : (s.freeSlotsIf p).str.nextFull = s.str.nextFull := rfl

/-! ### modPlan -/

@[simp] theorem State.modPlan_sup (s : State) (vol : Nat) (f : PlanVol → PlanVol) : (s.modPlan vol f).sup = s.sup := rfl
@[simp] theorem State.modPlan_links (s : State) (vol : Nat) (f : PlanVol → PlanVol) : (s.modPlan vol f).links = s.links := rfl
@[simp] theorem State.modPlan_tally (s : State) (vol : Nat) (f : PlanVol → PlanVol) : (s.modPlan vol f).tally = s.tally := rfl
@[simp] theorem State.modPlan_cat (s : State) (vol : Nat) (f : PlanVol → PlanVol) : (s.modPlan vol f).cat = s.cat := rfl
@[simp] theorem State.modPlan_rst (s : State) (vol : Nat) (f : PlanVol → PlanVol) : (s.modPlan vol f).rst = s.rst := rfl
@[simp] theorem State.modPlan_str (s : State) (vol : Nat) (f : PlanVol → PlanVol) : (s.modPlan vol f).str = s.str := rfl
@[simp] theorem State.modPlan_pat (s : State) (vol : Nat) (f : PlanVol → PlanVol) : (s.modPlan vol f).pat = s.pat := rfl
@[simp] theorem State.modPlan_pending (s : State) (vol : Nat) (f : PlanVol → PlanVol) : (s.modPlan vol f).pending = s.pending := rfl
@[simp] theorem State.modPlan_sent (s : State) (vol : Nat) (f : PlanVol → PlanVol) : (s.modPlan vol f).sent = s.sent := rfl
@[simp] theorem State.modPlan_off_phase (s : State) (vol : Nat) (f : PlanVol → PlanVol) : (s.modPlan vol f).off.phase = s.off.phase := rfl
@[simp] theorem State.modPlan_off_closeInstant (s : State) (vol : Nat) (f : PlanVol → PlanVol) : (s.modPlan vol f).off.closeInstant = s.off.closeInstant := rfl
@[simp] theorem State.modPlan_off_shedScopes (s : State) (vol : Nat) (f : PlanVol → PlanVol) : (s.modPlan vol f).off.shedScopes = s.off.shedScopes := rfl
@[simp] theorem State.modPlan_off_nComplete (s : State) (vol : Nat) (f : PlanVol → PlanVol) : (s.modPlan vol f).off.nComplete = s.off.nComplete := rfl
@[simp] theorem State.modPlan_off_nShed (s : State) (vol : Nat) (f : PlanVol → PlanVol) : (s.modPlan vol f).off.nShed = s.off.nShed := rfl
@[simp] theorem State.modPlan_off_nMissed (s : State) (vol : Nat) (f : PlanVol → PlanVol) : (s.modPlan vol f).off.nMissed = s.off.nMissed := rfl
@[simp] theorem State.modPlan_off_nFailed (s : State) (vol : Nat) (f : PlanVol → PlanVol) : (s.modPlan vol f).off.nFailed = s.off.nFailed := rfl
@[simp] theorem State.modPlan_off_rate (s : State) (vol : Nat) (f : PlanVol → PlanVol) : (s.modPlan vol f).off.rate = s.off.rate := rfl
@[simp] theorem State.modPlan_off_intervalStart (s : State) (vol : Nat) (f : PlanVol → PlanVol) : (s.modPlan vol f).off.intervalStart = s.off.intervalStart := rfl
@[simp] theorem State.modPlan_off_acked (s : State) (vol : Nat) (f : PlanVol → PlanVol) : (s.modPlan vol f).off.acked = s.off.acked := rfl
@[simp] theorem State.modPlan_off_sawShip (s : State) (vol : Nat) (f : PlanVol → PlanVol) : (s.modPlan vol f).off.sawShip = s.off.sawShip := rfl
@[simp] theorem State.modPlan_off_lastFit (s : State) (vol : Nat) (f : PlanVol → PlanVol) : (s.modPlan vol f).off.lastFit = s.off.lastFit := rfl
@[simp] theorem State.modPlan_off_queue (s : State) (vol : Nat) (f : PlanVol → PlanVol) : (s.modPlan vol f).off.queue = s.off.queue := rfl
@[simp] theorem State.modPlan_off_nextEntry (s : State) (vol : Nat) (f : PlanVol → PlanVol) : (s.modPlan vol f).off.nextEntry = s.off.nextEntry := rfl
@[simp] theorem State.modPlan_off_pulls (s : State) (vol : Nat) (f : PlanVol → PlanVol) : (s.modPlan vol f).off.pulls = s.off.pulls := rfl
@[simp] theorem State.modPlan_off_nextPull (s : State) (vol : Nat) (f : PlanVol → PlanVol) : (s.modPlan vol f).off.nextPull = s.off.nextPull := rfl
@[simp] theorem State.modPlan_off_link (s : State) (vol : Nat) (f : PlanVol → PlanVol) : (s.modPlan vol f).off.link = s.off.link := rfl
@[simp] theorem State.modPlan_off_dir (s : State) (vol : Nat) (f : PlanVol → PlanVol) : (s.modPlan vol f).off.dir = s.off.dir := rfl
@[simp] theorem State.modPlan_off_outstanding (s : State) (vol : Nat) (f : PlanVol → PlanVol) : (s.modPlan vol f).off.outstanding = s.off.outstanding := rfl
@[simp] theorem State.modPlan_off_seqCounter (s : State) (vol : Nat) (f : PlanVol → PlanVol) : (s.modPlan vol f).off.seqCounter = s.off.seqCounter := rfl
@[simp] theorem State.modPlan_off_reqCounter (s : State) (vol : Nat) (f : PlanVol → PlanVol) : (s.modPlan vol f).off.reqCounter = s.off.reqCounter := rfl
@[simp] theorem State.modPlan_off_withdrawnNums (s : State) (vol : Nat) (f : PlanVol → PlanVol) : (s.modPlan vol f).off.withdrawnNums = s.off.withdrawnNums := rfl
@[simp] theorem State.modPlan_off_withdrawnDrops (s : State) (vol : Nat) (f : PlanVol → PlanVol) : (s.modPlan vol f).off.withdrawnDrops = s.off.withdrawnDrops := rfl
@[simp] theorem State.modPlan_off_expiries (s : State) (vol : Nat) (f : PlanVol → PlanVol) : (s.modPlan vol f).off.expiries = s.off.expiries := rfl
@[simp] theorem State.modPlan_off_ackStart (s : State) (vol : Nat) (f : PlanVol → PlanVol) : (s.modPlan vol f).off.ackStart = s.off.ackStart := rfl
@[simp] theorem State.modPlan_off_ackLimit (s : State) (vol : Nat) (f : PlanVol → PlanVol) : (s.modPlan vol f).off.ackLimit = s.off.ackLimit := rfl
@[simp] theorem State.modPlan_off_idleSince (s : State) (vol : Nat) (f : PlanVol → PlanVol) : (s.modPlan vol f).off.idleSince = s.off.idleSince := rfl
@[simp] theorem State.modPlan_off_burst (s : State) (vol : Nat) (f : PlanVol → PlanVol) : (s.modPlan vol f).off.burst = s.off.burst := rfl
@[simp] theorem State.modPlan_off_shipTurn (s : State) (vol : Nat) (f : PlanVol → PlanVol) : (s.modPlan vol f).off.shipTurn = s.off.shipTurn := rfl
@[simp] theorem State.modPlan_off_controls (s : State) (vol : Nat) (f : PlanVol → PlanVol) : (s.modPlan vol f).off.controls = s.off.controls := rfl
@[simp] theorem State.modPlan_off_fetchQueue (s : State) (vol : Nat) (f : PlanVol → PlanVol) : (s.modPlan vol f).off.fetchQueue = s.off.fetchQueue := rfl
@[simp] theorem State.modPlan_off_roomWaits (s : State) (vol : Nat) (f : PlanVol → PlanVol) : (s.modPlan vol f).off.roomWaits = s.off.roomWaits := rfl

/-! ### modEntry -/

@[simp] theorem State.modEntry_sup (s : State) (num : Nat) (f : ShipEntry → ShipEntry) : (s.modEntry num f).sup = s.sup := rfl
@[simp] theorem State.modEntry_links (s : State) (num : Nat) (f : ShipEntry → ShipEntry) : (s.modEntry num f).links = s.links := rfl
@[simp] theorem State.modEntry_tally (s : State) (num : Nat) (f : ShipEntry → ShipEntry) : (s.modEntry num f).tally = s.tally := rfl
@[simp] theorem State.modEntry_cat (s : State) (num : Nat) (f : ShipEntry → ShipEntry) : (s.modEntry num f).cat = s.cat := rfl
@[simp] theorem State.modEntry_rst (s : State) (num : Nat) (f : ShipEntry → ShipEntry) : (s.modEntry num f).rst = s.rst := rfl
@[simp] theorem State.modEntry_str (s : State) (num : Nat) (f : ShipEntry → ShipEntry) : (s.modEntry num f).str = s.str := rfl
@[simp] theorem State.modEntry_pat (s : State) (num : Nat) (f : ShipEntry → ShipEntry) : (s.modEntry num f).pat = s.pat := rfl
@[simp] theorem State.modEntry_pending (s : State) (num : Nat) (f : ShipEntry → ShipEntry) : (s.modEntry num f).pending = s.pending := rfl
@[simp] theorem State.modEntry_sent (s : State) (num : Nat) (f : ShipEntry → ShipEntry) : (s.modEntry num f).sent = s.sent := rfl
@[simp] theorem State.modEntry_off_phase (s : State) (num : Nat) (f : ShipEntry → ShipEntry) : (s.modEntry num f).off.phase = s.off.phase := rfl
@[simp] theorem State.modEntry_off_closeInstant (s : State) (num : Nat) (f : ShipEntry → ShipEntry) : (s.modEntry num f).off.closeInstant = s.off.closeInstant := rfl
@[simp] theorem State.modEntry_off_plan (s : State) (num : Nat) (f : ShipEntry → ShipEntry) : (s.modEntry num f).off.plan = s.off.plan := rfl
@[simp] theorem State.modEntry_off_shedScopes (s : State) (num : Nat) (f : ShipEntry → ShipEntry) : (s.modEntry num f).off.shedScopes = s.off.shedScopes := rfl
@[simp] theorem State.modEntry_off_nComplete (s : State) (num : Nat) (f : ShipEntry → ShipEntry) : (s.modEntry num f).off.nComplete = s.off.nComplete := rfl
@[simp] theorem State.modEntry_off_nShed (s : State) (num : Nat) (f : ShipEntry → ShipEntry) : (s.modEntry num f).off.nShed = s.off.nShed := rfl
@[simp] theorem State.modEntry_off_nMissed (s : State) (num : Nat) (f : ShipEntry → ShipEntry) : (s.modEntry num f).off.nMissed = s.off.nMissed := rfl
@[simp] theorem State.modEntry_off_nFailed (s : State) (num : Nat) (f : ShipEntry → ShipEntry) : (s.modEntry num f).off.nFailed = s.off.nFailed := rfl
@[simp] theorem State.modEntry_off_rate (s : State) (num : Nat) (f : ShipEntry → ShipEntry) : (s.modEntry num f).off.rate = s.off.rate := rfl
@[simp] theorem State.modEntry_off_intervalStart (s : State) (num : Nat) (f : ShipEntry → ShipEntry) : (s.modEntry num f).off.intervalStart = s.off.intervalStart := rfl
@[simp] theorem State.modEntry_off_acked (s : State) (num : Nat) (f : ShipEntry → ShipEntry) : (s.modEntry num f).off.acked = s.off.acked := rfl
@[simp] theorem State.modEntry_off_sawShip (s : State) (num : Nat) (f : ShipEntry → ShipEntry) : (s.modEntry num f).off.sawShip = s.off.sawShip := rfl
@[simp] theorem State.modEntry_off_lastFit (s : State) (num : Nat) (f : ShipEntry → ShipEntry) : (s.modEntry num f).off.lastFit = s.off.lastFit := rfl
@[simp] theorem State.modEntry_off_nextEntry (s : State) (num : Nat) (f : ShipEntry → ShipEntry) : (s.modEntry num f).off.nextEntry = s.off.nextEntry := rfl
@[simp] theorem State.modEntry_off_pulls (s : State) (num : Nat) (f : ShipEntry → ShipEntry) : (s.modEntry num f).off.pulls = s.off.pulls := rfl
@[simp] theorem State.modEntry_off_nextPull (s : State) (num : Nat) (f : ShipEntry → ShipEntry) : (s.modEntry num f).off.nextPull = s.off.nextPull := rfl
@[simp] theorem State.modEntry_off_link (s : State) (num : Nat) (f : ShipEntry → ShipEntry) : (s.modEntry num f).off.link = s.off.link := rfl
@[simp] theorem State.modEntry_off_dir (s : State) (num : Nat) (f : ShipEntry → ShipEntry) : (s.modEntry num f).off.dir = s.off.dir := rfl
@[simp] theorem State.modEntry_off_outstanding (s : State) (num : Nat) (f : ShipEntry → ShipEntry) : (s.modEntry num f).off.outstanding = s.off.outstanding := rfl
@[simp] theorem State.modEntry_off_seqCounter (s : State) (num : Nat) (f : ShipEntry → ShipEntry) : (s.modEntry num f).off.seqCounter = s.off.seqCounter := rfl
@[simp] theorem State.modEntry_off_reqCounter (s : State) (num : Nat) (f : ShipEntry → ShipEntry) : (s.modEntry num f).off.reqCounter = s.off.reqCounter := rfl
@[simp] theorem State.modEntry_off_withdrawnNums (s : State) (num : Nat) (f : ShipEntry → ShipEntry) : (s.modEntry num f).off.withdrawnNums = s.off.withdrawnNums := rfl
@[simp] theorem State.modEntry_off_withdrawnDrops (s : State) (num : Nat) (f : ShipEntry → ShipEntry) : (s.modEntry num f).off.withdrawnDrops = s.off.withdrawnDrops := rfl
@[simp] theorem State.modEntry_off_expiries (s : State) (num : Nat) (f : ShipEntry → ShipEntry) : (s.modEntry num f).off.expiries = s.off.expiries := rfl
@[simp] theorem State.modEntry_off_ackStart (s : State) (num : Nat) (f : ShipEntry → ShipEntry) : (s.modEntry num f).off.ackStart = s.off.ackStart := rfl
@[simp] theorem State.modEntry_off_ackLimit (s : State) (num : Nat) (f : ShipEntry → ShipEntry) : (s.modEntry num f).off.ackLimit = s.off.ackLimit := rfl
@[simp] theorem State.modEntry_off_idleSince (s : State) (num : Nat) (f : ShipEntry → ShipEntry) : (s.modEntry num f).off.idleSince = s.off.idleSince := rfl
@[simp] theorem State.modEntry_off_burst (s : State) (num : Nat) (f : ShipEntry → ShipEntry) : (s.modEntry num f).off.burst = s.off.burst := rfl
@[simp] theorem State.modEntry_off_shipTurn (s : State) (num : Nat) (f : ShipEntry → ShipEntry) : (s.modEntry num f).off.shipTurn = s.off.shipTurn := rfl
@[simp] theorem State.modEntry_off_controls (s : State) (num : Nat) (f : ShipEntry → ShipEntry) : (s.modEntry num f).off.controls = s.off.controls := rfl
@[simp] theorem State.modEntry_off_fetchQueue (s : State) (num : Nat) (f : ShipEntry → ShipEntry) : (s.modEntry num f).off.fetchQueue = s.off.fetchQueue := rfl
@[simp] theorem State.modEntry_off_roomWaits (s : State) (num : Nat) (f : ShipEntry → ShipEntry) : (s.modEntry num f).off.roomWaits = s.off.roomWaits := rfl

/-! ### modRepair -/

@[simp] theorem State.modRepair_sup (s : State) (n : Nat) (f : Repair → Repair) : (s.modRepair n f).sup = s.sup := rfl
@[simp] theorem State.modRepair_links (s : State) (n : Nat) (f : Repair → Repair) : (s.modRepair n f).links = s.links := rfl
@[simp] theorem State.modRepair_tally (s : State) (n : Nat) (f : Repair → Repair) : (s.modRepair n f).tally = s.tally := rfl
@[simp] theorem State.modRepair_cat (s : State) (n : Nat) (f : Repair → Repair) : (s.modRepair n f).cat = s.cat := rfl
@[simp] theorem State.modRepair_rst (s : State) (n : Nat) (f : Repair → Repair) : (s.modRepair n f).rst = s.rst := rfl
@[simp] theorem State.modRepair_str (s : State) (n : Nat) (f : Repair → Repair) : (s.modRepair n f).str = s.str := rfl
@[simp] theorem State.modRepair_off (s : State) (n : Nat) (f : Repair → Repair) : (s.modRepair n f).off = s.off := rfl
@[simp] theorem State.modRepair_pending (s : State) (n : Nat) (f : Repair → Repair) : (s.modRepair n f).pending = s.pending := rfl
@[simp] theorem State.modRepair_sent (s : State) (n : Nat) (f : Repair → Repair) : (s.modRepair n f).sent = s.sent := rfl
@[simp] theorem State.modRepair_pat_work (s : State) (n : Nat) (f : Repair → Repair) : (s.modRepair n f).pat.work = s.pat.work := rfl
@[simp] theorem State.modRepair_pat_nextItem (s : State) (n : Nat) (f : Repair → Repair) : (s.modRepair n f).pat.nextItem = s.pat.nextItem := rfl
@[simp] theorem State.modRepair_pat_folds (s : State) (n : Nat) (f : Repair → Repair) : (s.modRepair n f).pat.folds = s.pat.folds := rfl
@[simp] theorem State.modRepair_pat_waiting (s : State) (n : Nat) (f : Repair → Repair) : (s.modRepair n f).pat.waiting = s.pat.waiting := rfl
@[simp] theorem State.modRepair_pat_turn (s : State) (n : Nat) (f : Repair → Repair) : (s.modRepair n f).pat.turn = s.pat.turn := rfl
@[simp] theorem State.modRepair_pat_clearing (s : State) (n : Nat) (f : Repair → Repair) : (s.modRepair n f).pat.clearing = s.pat.clearing := rfl

/-! ### modItem -/

@[simp] theorem State.modItem_sup (s : State) (n : Nat) (f : WorkItem → WorkItem) : (s.modItem n f).sup = s.sup := rfl
@[simp] theorem State.modItem_links (s : State) (n : Nat) (f : WorkItem → WorkItem) : (s.modItem n f).links = s.links := rfl
@[simp] theorem State.modItem_tally (s : State) (n : Nat) (f : WorkItem → WorkItem) : (s.modItem n f).tally = s.tally := rfl
@[simp] theorem State.modItem_cat (s : State) (n : Nat) (f : WorkItem → WorkItem) : (s.modItem n f).cat = s.cat := rfl
@[simp] theorem State.modItem_rst (s : State) (n : Nat) (f : WorkItem → WorkItem) : (s.modItem n f).rst = s.rst := rfl
@[simp] theorem State.modItem_str (s : State) (n : Nat) (f : WorkItem → WorkItem) : (s.modItem n f).str = s.str := rfl
@[simp] theorem State.modItem_off (s : State) (n : Nat) (f : WorkItem → WorkItem) : (s.modItem n f).off = s.off := rfl
@[simp] theorem State.modItem_pending (s : State) (n : Nat) (f : WorkItem → WorkItem) : (s.modItem n f).pending = s.pending := rfl
@[simp] theorem State.modItem_sent (s : State) (n : Nat) (f : WorkItem → WorkItem) : (s.modItem n f).sent = s.sent := rfl
@[simp] theorem State.modItem_pat_nextItem (s : State) (n : Nat) (f : WorkItem → WorkItem) : (s.modItem n f).pat.nextItem = s.pat.nextItem := rfl
@[simp] theorem State.modItem_pat_folds (s : State) (n : Nat) (f : WorkItem → WorkItem) : (s.modItem n f).pat.folds = s.pat.folds := rfl
@[simp] theorem State.modItem_pat_repairs (s : State) (n : Nat) (f : WorkItem → WorkItem) : (s.modItem n f).pat.repairs = s.pat.repairs := rfl
@[simp] theorem State.modItem_pat_waiting (s : State) (n : Nat) (f : WorkItem → WorkItem) : (s.modItem n f).pat.waiting = s.pat.waiting := rfl
@[simp] theorem State.modItem_pat_turn (s : State) (n : Nat) (f : WorkItem → WorkItem) : (s.modItem n f).pat.turn = s.pat.turn := rfl
@[simp] theorem State.modItem_pat_clearing (s : State) (n : Nat) (f : WorkItem → WorkItem) : (s.modItem n f).pat.clearing = s.pat.clearing := rfl

/-! ### putLine -/

@[simp] theorem State.putLine_sup (s : State) (x : Line) : (s.putLine x).sup = s.sup := rfl
@[simp] theorem State.putLine_links (s : State) (x : Line) : (s.putLine x).links = s.links := rfl
@[simp] theorem State.putLine_cat (s : State) (x : Line) : (s.putLine x).cat = s.cat := rfl
@[simp] theorem State.putLine_rst (s : State) (x : Line) : (s.putLine x).rst = s.rst := rfl
@[simp] theorem State.putLine_str (s : State) (x : Line) : (s.putLine x).str = s.str := rfl
@[simp] theorem State.putLine_off (s : State) (x : Line) : (s.putLine x).off = s.off := rfl
@[simp] theorem State.putLine_pat (s : State) (x : Line) : (s.putLine x).pat = s.pat := rfl
@[simp] theorem State.putLine_pending (s : State) (x : Line) : (s.putLine x).pending = s.pending := rfl
@[simp] theorem State.putLine_sent (s : State) (x : Line) : (s.putLine x).sent = s.sent := rfl
@[simp] theorem State.putLine_tally_principals (s : State) (x : Line) : (s.putLine x).tally.principals = s.tally.principals := rfl
@[simp] theorem State.putLine_tally_castout (s : State) (x : Line) : (s.putLine x).tally.castout = s.tally.castout := rfl
@[simp] theorem State.putLine_tally_postings (s : State) (x : Line) : (s.putLine x).tally.postings = s.tally.postings := rfl
@[simp] theorem State.putLine_tally_grace (s : State) (x : Line) : (s.putLine x).tally.grace = s.tally.grace := rfl
@[simp] theorem State.putLine_tally_note (s : State) (x : Line) : (s.putLine x).tally.note = s.tally.note := rfl
@[simp] theorem State.putLine_tally_recounts (s : State) (x : Line) : (s.putLine x).tally.recounts = s.tally.recounts := rfl
@[simp] theorem State.putLine_tally_ops (s : State) (x : Line) : (s.putLine x).tally.ops = s.tally.ops := rfl
@[simp] theorem State.putLine_tally_writes (s : State) (x : Line) : (s.putLine x).tally.writes = s.tally.writes := rfl
@[simp] theorem State.putLine_tally_flushing (s : State) (x : Line) : (s.putLine x).tally.flushing = s.tally.flushing := rfl
@[simp] theorem State.putLine_tally_modeReply (s : State) (x : Line) : (s.putLine x).tally.modeReply = s.tally.modeReply := rfl
@[simp] theorem State.putLine_tally_nextOp (s : State) (x : Line) : (s.putLine x).tally.nextOp = s.tally.nextOp := rfl
@[simp] theorem State.putLine_tally_nextPosting (s : State) (x : Line) : (s.putLine x).tally.nextPosting = s.tally.nextPosting := rfl

/-! ### modLine -/

@[simp] theorem State.modLine_sup (s : State) (id : Nat) (f : Line → Line) : (s.modLine id f).sup = s.sup := rfl
@[simp] theorem State.modLine_links (s : State) (id : Nat) (f : Line → Line) : (s.modLine id f).links = s.links := rfl
@[simp] theorem State.modLine_cat (s : State) (id : Nat) (f : Line → Line) : (s.modLine id f).cat = s.cat := rfl
@[simp] theorem State.modLine_rst (s : State) (id : Nat) (f : Line → Line) : (s.modLine id f).rst = s.rst := rfl
@[simp] theorem State.modLine_str (s : State) (id : Nat) (f : Line → Line) : (s.modLine id f).str = s.str := rfl
@[simp] theorem State.modLine_off (s : State) (id : Nat) (f : Line → Line) : (s.modLine id f).off = s.off := rfl
@[simp] theorem State.modLine_pat (s : State) (id : Nat) (f : Line → Line) : (s.modLine id f).pat = s.pat := rfl
@[simp] theorem State.modLine_pending (s : State) (id : Nat) (f : Line → Line) : (s.modLine id f).pending = s.pending := rfl
@[simp] theorem State.modLine_sent (s : State) (id : Nat) (f : Line → Line) : (s.modLine id f).sent = s.sent := rfl
@[simp] theorem State.modLine_tally_principals (s : State) (id : Nat) (f : Line → Line) : (s.modLine id f).tally.principals = s.tally.principals := rfl
@[simp] theorem State.modLine_tally_castout (s : State) (id : Nat) (f : Line → Line) : (s.modLine id f).tally.castout = s.tally.castout := rfl
@[simp] theorem State.modLine_tally_postings (s : State) (id : Nat) (f : Line → Line) : (s.modLine id f).tally.postings = s.tally.postings := rfl
@[simp] theorem State.modLine_tally_grace (s : State) (id : Nat) (f : Line → Line) : (s.modLine id f).tally.grace = s.tally.grace := rfl
@[simp] theorem State.modLine_tally_note (s : State) (id : Nat) (f : Line → Line) : (s.modLine id f).tally.note = s.tally.note := rfl
@[simp] theorem State.modLine_tally_recounts (s : State) (id : Nat) (f : Line → Line) : (s.modLine id f).tally.recounts = s.tally.recounts := rfl
@[simp] theorem State.modLine_tally_ops (s : State) (id : Nat) (f : Line → Line) : (s.modLine id f).tally.ops = s.tally.ops := rfl
@[simp] theorem State.modLine_tally_writes (s : State) (id : Nat) (f : Line → Line) : (s.modLine id f).tally.writes = s.tally.writes := rfl
@[simp] theorem State.modLine_tally_flushing (s : State) (id : Nat) (f : Line → Line) : (s.modLine id f).tally.flushing = s.tally.flushing := rfl
@[simp] theorem State.modLine_tally_modeReply (s : State) (id : Nat) (f : Line → Line) : (s.modLine id f).tally.modeReply = s.tally.modeReply := rfl
@[simp] theorem State.modLine_tally_nextOp (s : State) (id : Nat) (f : Line → Line) : (s.modLine id f).tally.nextOp = s.tally.nextOp := rfl
@[simp] theorem State.modLine_tally_nextPosting (s : State) (id : Nat) (f : Line → Line) : (s.modLine id f).tally.nextPosting = s.tally.nextPosting := rfl

/-! ### modOp -/

@[simp] theorem State.modOp_sup (s : State) (num : Nat) (f : TallyOp → TallyOp) : (s.modOp num f).sup = s.sup := rfl
@[simp] theorem State.modOp_links (s : State) (num : Nat) (f : TallyOp → TallyOp) : (s.modOp num f).links = s.links := rfl
@[simp] theorem State.modOp_cat (s : State) (num : Nat) (f : TallyOp → TallyOp) : (s.modOp num f).cat = s.cat := rfl
@[simp] theorem State.modOp_rst (s : State) (num : Nat) (f : TallyOp → TallyOp) : (s.modOp num f).rst = s.rst := rfl
@[simp] theorem State.modOp_str (s : State) (num : Nat) (f : TallyOp → TallyOp) : (s.modOp num f).str = s.str := rfl
@[simp] theorem State.modOp_off (s : State) (num : Nat) (f : TallyOp → TallyOp) : (s.modOp num f).off = s.off := rfl
@[simp] theorem State.modOp_pat (s : State) (num : Nat) (f : TallyOp → TallyOp) : (s.modOp num f).pat = s.pat := rfl
@[simp] theorem State.modOp_pending (s : State) (num : Nat) (f : TallyOp → TallyOp) : (s.modOp num f).pending = s.pending := rfl
@[simp] theorem State.modOp_sent (s : State) (num : Nat) (f : TallyOp → TallyOp) : (s.modOp num f).sent = s.sent := rfl
@[simp] theorem State.modOp_tally_principals (s : State) (num : Nat) (f : TallyOp → TallyOp) : (s.modOp num f).tally.principals = s.tally.principals := rfl
@[simp] theorem State.modOp_tally_cache (s : State) (num : Nat) (f : TallyOp → TallyOp) : (s.modOp num f).tally.cache = s.tally.cache := rfl
@[simp] theorem State.modOp_tally_castout (s : State) (num : Nat) (f : TallyOp → TallyOp) : (s.modOp num f).tally.castout = s.tally.castout := rfl
@[simp] theorem State.modOp_tally_postings (s : State) (num : Nat) (f : TallyOp → TallyOp) : (s.modOp num f).tally.postings = s.tally.postings := rfl
@[simp] theorem State.modOp_tally_grace (s : State) (num : Nat) (f : TallyOp → TallyOp) : (s.modOp num f).tally.grace = s.tally.grace := rfl
@[simp] theorem State.modOp_tally_note (s : State) (num : Nat) (f : TallyOp → TallyOp) : (s.modOp num f).tally.note = s.tally.note := rfl
@[simp] theorem State.modOp_tally_recounts (s : State) (num : Nat) (f : TallyOp → TallyOp) : (s.modOp num f).tally.recounts = s.tally.recounts := rfl
@[simp] theorem State.modOp_tally_writes (s : State) (num : Nat) (f : TallyOp → TallyOp) : (s.modOp num f).tally.writes = s.tally.writes := rfl
@[simp] theorem State.modOp_tally_flushing (s : State) (num : Nat) (f : TallyOp → TallyOp) : (s.modOp num f).tally.flushing = s.tally.flushing := rfl
@[simp] theorem State.modOp_tally_modeReply (s : State) (num : Nat) (f : TallyOp → TallyOp) : (s.modOp num f).tally.modeReply = s.tally.modeReply := rfl
@[simp] theorem State.modOp_tally_nextOp (s : State) (num : Nat) (f : TallyOp → TallyOp) : (s.modOp num f).tally.nextOp = s.tally.nextOp := rfl
@[simp] theorem State.modOp_tally_nextPosting (s : State) (num : Nat) (f : TallyOp → TallyOp) : (s.modOp num f).tally.nextPosting = s.tally.nextPosting := rfl

/-! ### dropOp -/

@[simp] theorem State.dropOp_sup (s : State) (num : Nat) : (s.dropOp num).sup = s.sup := rfl
@[simp] theorem State.dropOp_links (s : State) (num : Nat) : (s.dropOp num).links = s.links := rfl
@[simp] theorem State.dropOp_cat (s : State) (num : Nat) : (s.dropOp num).cat = s.cat := rfl
@[simp] theorem State.dropOp_rst (s : State) (num : Nat) : (s.dropOp num).rst = s.rst := rfl
@[simp] theorem State.dropOp_str (s : State) (num : Nat) : (s.dropOp num).str = s.str := rfl
@[simp] theorem State.dropOp_off (s : State) (num : Nat) : (s.dropOp num).off = s.off := rfl
@[simp] theorem State.dropOp_pat (s : State) (num : Nat) : (s.dropOp num).pat = s.pat := rfl
@[simp] theorem State.dropOp_pending (s : State) (num : Nat) : (s.dropOp num).pending = s.pending := rfl
@[simp] theorem State.dropOp_sent (s : State) (num : Nat) : (s.dropOp num).sent = s.sent := rfl
@[simp] theorem State.dropOp_tally_principals (s : State) (num : Nat) : (s.dropOp num).tally.principals = s.tally.principals := rfl
@[simp] theorem State.dropOp_tally_cache (s : State) (num : Nat) : (s.dropOp num).tally.cache = s.tally.cache := rfl
@[simp] theorem State.dropOp_tally_castout (s : State) (num : Nat) : (s.dropOp num).tally.castout = s.tally.castout := rfl
@[simp] theorem State.dropOp_tally_postings (s : State) (num : Nat) : (s.dropOp num).tally.postings = s.tally.postings := rfl
@[simp] theorem State.dropOp_tally_grace (s : State) (num : Nat) : (s.dropOp num).tally.grace = s.tally.grace := rfl
@[simp] theorem State.dropOp_tally_note (s : State) (num : Nat) : (s.dropOp num).tally.note = s.tally.note := rfl
@[simp] theorem State.dropOp_tally_recounts (s : State) (num : Nat) : (s.dropOp num).tally.recounts = s.tally.recounts := rfl
@[simp] theorem State.dropOp_tally_writes (s : State) (num : Nat) : (s.dropOp num).tally.writes = s.tally.writes := rfl
@[simp] theorem State.dropOp_tally_flushing (s : State) (num : Nat) : (s.dropOp num).tally.flushing = s.tally.flushing := rfl
@[simp] theorem State.dropOp_tally_modeReply (s : State) (num : Nat) : (s.dropOp num).tally.modeReply = s.tally.modeReply := rfl
@[simp] theorem State.dropOp_tally_nextOp (s : State) (num : Nat) : (s.dropOp num).tally.nextOp = s.tally.nextOp := rfl
@[simp] theorem State.dropOp_tally_nextPosting (s : State) (num : Nat) : (s.dropOp num).tally.nextPosting = s.tally.nextPosting := rfl

/-! ### releaseLines -/

@[simp] theorem State.releaseLines_sup (s : State) (num : Nat) (ids : List Nat) : (s.releaseLines num ids).sup = s.sup := rfl
@[simp] theorem State.releaseLines_links (s : State) (num : Nat) (ids : List Nat) : (s.releaseLines num ids).links = s.links := rfl
@[simp] theorem State.releaseLines_cat (s : State) (num : Nat) (ids : List Nat) : (s.releaseLines num ids).cat = s.cat := rfl
@[simp] theorem State.releaseLines_rst (s : State) (num : Nat) (ids : List Nat) : (s.releaseLines num ids).rst = s.rst := rfl
@[simp] theorem State.releaseLines_str (s : State) (num : Nat) (ids : List Nat) : (s.releaseLines num ids).str = s.str := rfl
@[simp] theorem State.releaseLines_off (s : State) (num : Nat) (ids : List Nat) : (s.releaseLines num ids).off = s.off := rfl
@[simp] theorem State.releaseLines_pat (s : State) (num : Nat) (ids : List Nat) : (s.releaseLines num ids).pat = s.pat := rfl
@[simp] theorem State.releaseLines_pending (s : State) (num : Nat) (ids : List Nat) : (s.releaseLines num ids).pending = s.pending := rfl
@[simp] theorem State.releaseLines_sent (s : State) (num : Nat) (ids : List Nat) : (s.releaseLines num ids).sent = s.sent := rfl
@[simp] theorem State.releaseLines_tally_principals (s : State) (num : Nat) (ids : List Nat) : (s.releaseLines num ids).tally.principals = s.tally.principals := rfl
@[simp] theorem State.releaseLines_tally_castout (s : State) (num : Nat) (ids : List Nat) : (s.releaseLines num ids).tally.castout = s.tally.castout := rfl
@[simp] theorem State.releaseLines_tally_postings (s : State) (num : Nat) (ids : List Nat) : (s.releaseLines num ids).tally.postings = s.tally.postings := rfl
@[simp] theorem State.releaseLines_tally_grace (s : State) (num : Nat) (ids : List Nat) : (s.releaseLines num ids).tally.grace = s.tally.grace := rfl
@[simp] theorem State.releaseLines_tally_note (s : State) (num : Nat) (ids : List Nat) : (s.releaseLines num ids).tally.note = s.tally.note := rfl
@[simp] theorem State.releaseLines_tally_recounts (s : State) (num : Nat) (ids : List Nat) : (s.releaseLines num ids).tally.recounts = s.tally.recounts := rfl
@[simp] theorem State.releaseLines_tally_ops (s : State) (num : Nat) (ids : List Nat) : (s.releaseLines num ids).tally.ops = s.tally.ops := rfl
@[simp] theorem State.releaseLines_tally_writes (s : State) (num : Nat) (ids : List Nat) : (s.releaseLines num ids).tally.writes = s.tally.writes := rfl
@[simp] theorem State.releaseLines_tally_flushing (s : State) (num : Nat) (ids : List Nat) : (s.releaseLines num ids).tally.flushing = s.tally.flushing := rfl
@[simp] theorem State.releaseLines_tally_modeReply (s : State) (num : Nat) (ids : List Nat) : (s.releaseLines num ids).tally.modeReply = s.tally.modeReply := rfl
@[simp] theorem State.releaseLines_tally_nextOp (s : State) (num : Nat) (ids : List Nat) : (s.releaseLines num ids).tally.nextOp = s.tally.nextOp := rfl
@[simp] theorem State.releaseLines_tally_nextPosting (s : State) (num : Nat) (ids : List Nat) : (s.releaseLines num ids).tally.nextPosting = s.tally.nextPosting := rfl

/-! ### pushOp -/

@[simp] theorem State.pushOp_sup (s : State) (job : Job) (ps : List Nat) : (s.pushOp job ps).sup = s.sup := rfl
@[simp] theorem State.pushOp_links (s : State) (job : Job) (ps : List Nat) : (s.pushOp job ps).links = s.links := rfl
@[simp] theorem State.pushOp_cat (s : State) (job : Job) (ps : List Nat) : (s.pushOp job ps).cat = s.cat := rfl
@[simp] theorem State.pushOp_rst (s : State) (job : Job) (ps : List Nat) : (s.pushOp job ps).rst = s.rst := rfl
@[simp] theorem State.pushOp_str (s : State) (job : Job) (ps : List Nat) : (s.pushOp job ps).str = s.str := rfl
@[simp] theorem State.pushOp_off (s : State) (job : Job) (ps : List Nat) : (s.pushOp job ps).off = s.off := rfl
@[simp] theorem State.pushOp_pat (s : State) (job : Job) (ps : List Nat) : (s.pushOp job ps).pat = s.pat := rfl
@[simp] theorem State.pushOp_pending (s : State) (job : Job) (ps : List Nat) : (s.pushOp job ps).pending = s.pending := rfl
@[simp] theorem State.pushOp_sent (s : State) (job : Job) (ps : List Nat) : (s.pushOp job ps).sent = s.sent := rfl
@[simp] theorem State.pushOp_tally_principals (s : State) (job : Job) (ps : List Nat) : (s.pushOp job ps).tally.principals = s.tally.principals := rfl
@[simp] theorem State.pushOp_tally_cache (s : State) (job : Job) (ps : List Nat) : (s.pushOp job ps).tally.cache = s.tally.cache := rfl
@[simp] theorem State.pushOp_tally_castout (s : State) (job : Job) (ps : List Nat) : (s.pushOp job ps).tally.castout = s.tally.castout := rfl
@[simp] theorem State.pushOp_tally_postings (s : State) (job : Job) (ps : List Nat) : (s.pushOp job ps).tally.postings = s.tally.postings := rfl
@[simp] theorem State.pushOp_tally_grace (s : State) (job : Job) (ps : List Nat) : (s.pushOp job ps).tally.grace = s.tally.grace := rfl
@[simp] theorem State.pushOp_tally_note (s : State) (job : Job) (ps : List Nat) : (s.pushOp job ps).tally.note = s.tally.note := rfl
@[simp] theorem State.pushOp_tally_recounts (s : State) (job : Job) (ps : List Nat) : (s.pushOp job ps).tally.recounts = s.tally.recounts := rfl
@[simp] theorem State.pushOp_tally_writes (s : State) (job : Job) (ps : List Nat) : (s.pushOp job ps).tally.writes = s.tally.writes := rfl
@[simp] theorem State.pushOp_tally_flushing (s : State) (job : Job) (ps : List Nat) : (s.pushOp job ps).tally.flushing = s.tally.flushing := rfl
@[simp] theorem State.pushOp_tally_modeReply (s : State) (job : Job) (ps : List Nat) : (s.pushOp job ps).tally.modeReply = s.tally.modeReply := rfl
@[simp] theorem State.pushOp_tally_nextPosting (s : State) (job : Job) (ps : List Nat) : (s.pushOp job ps).tally.nextPosting = s.tally.nextPosting := rfl

/-! ### reply -/

@[simp] theorem State.reply_sup (s : State) (l : Link) (q : Nat) (st : Status) (b : ReplyBody) : (s.reply l q st b).sup = s.sup := rfl
@[simp] theorem State.reply_tally (s : State) (l : Link) (q : Nat) (st : Status) (b : ReplyBody) : (s.reply l q st b).tally = s.tally := rfl
@[simp] theorem State.reply_cat (s : State) (l : Link) (q : Nat) (st : Status) (b : ReplyBody) : (s.reply l q st b).cat = s.cat := rfl
@[simp] theorem State.reply_rst (s : State) (l : Link) (q : Nat) (st : Status) (b : ReplyBody) : (s.reply l q st b).rst = s.rst := rfl
@[simp] theorem State.reply_str (s : State) (l : Link) (q : Nat) (st : Status) (b : ReplyBody) : (s.reply l q st b).str = s.str := rfl
@[simp] theorem State.reply_off (s : State) (l : Link) (q : Nat) (st : Status) (b : ReplyBody) : (s.reply l q st b).off = s.off := rfl
@[simp] theorem State.reply_pat (s : State) (l : Link) (q : Nat) (st : Status) (b : ReplyBody) : (s.reply l q st b).pat = s.pat := rfl
@[simp] theorem State.reply_pending (s : State) (l : Link) (q : Nat) (st : Status) (b : ReplyBody) : (s.reply l q st b).pending = s.pending := rfl
@[simp] theorem State.reply_sent (s : State) (l : Link) (q : Nat) (st : Status) (b : ReplyBody) : (s.reply l q st b).sent = s.sent := rfl

/-! ### replyAtOnce -/

@[simp] theorem State.replyAtOnce_sup (s : State) (l : Link) (tag : Nat) (k : ReqKind) (st : Status) : (s.replyAtOnce l tag k st).sup = s.sup := rfl
@[simp] theorem State.replyAtOnce_tally (s : State) (l : Link) (tag : Nat) (k : ReqKind) (st : Status) : (s.replyAtOnce l tag k st).tally = s.tally := rfl
@[simp] theorem State.replyAtOnce_cat (s : State) (l : Link) (tag : Nat) (k : ReqKind) (st : Status) : (s.replyAtOnce l tag k st).cat = s.cat := rfl
@[simp] theorem State.replyAtOnce_rst (s : State) (l : Link) (tag : Nat) (k : ReqKind) (st : Status) : (s.replyAtOnce l tag k st).rst = s.rst := rfl
@[simp] theorem State.replyAtOnce_str (s : State) (l : Link) (tag : Nat) (k : ReqKind) (st : Status) : (s.replyAtOnce l tag k st).str = s.str := rfl
@[simp] theorem State.replyAtOnce_off (s : State) (l : Link) (tag : Nat) (k : ReqKind) (st : Status) : (s.replyAtOnce l tag k st).off = s.off := rfl
@[simp] theorem State.replyAtOnce_pat (s : State) (l : Link) (tag : Nat) (k : ReqKind) (st : Status) : (s.replyAtOnce l tag k st).pat = s.pat := rfl
@[simp] theorem State.replyAtOnce_pending (s : State) (l : Link) (tag : Nat) (k : ReqKind) (st : Status) : (s.replyAtOnce l tag k st).pending = s.pending := rfl
@[simp] theorem State.replyAtOnce_sent (s : State) (l : Link) (tag : Nat) (k : ReqKind) (st : Status) : (s.replyAtOnce l tag k st).sent = s.sent := rfl

/-! ### busy -/

@[simp] theorem State.busy_sup (s : State) (l : Link) : (s.busy l).sup = s.sup := rfl
@[simp] theorem State.busy_tally (s : State) (l : Link) : (s.busy l).tally = s.tally := rfl
@[simp] theorem State.busy_cat (s : State) (l : Link) : (s.busy l).cat = s.cat := rfl
@[simp] theorem State.busy_rst (s : State) (l : Link) : (s.busy l).rst = s.rst := rfl
@[simp] theorem State.busy_str (s : State) (l : Link) : (s.busy l).str = s.str := rfl
@[simp] theorem State.busy_off (s : State) (l : Link) : (s.busy l).off = s.off := rfl
@[simp] theorem State.busy_pat (s : State) (l : Link) : (s.busy l).pat = s.pat := rfl
@[simp] theorem State.busy_pending (s : State) (l : Link) : (s.busy l).pending = s.pending := rfl
@[simp] theorem State.busy_sent (s : State) (l : Link) : (s.busy l).sent = s.sent := rfl

/-! ### restartIdle -/

@[simp] theorem State.restartIdle_sup (s : State) (l : Link) : (s.restartIdle l).sup = s.sup := rfl
@[simp] theorem State.restartIdle_tally (s : State) (l : Link) : (s.restartIdle l).tally = s.tally := rfl
@[simp] theorem State.restartIdle_cat (s : State) (l : Link) : (s.restartIdle l).cat = s.cat := rfl
@[simp] theorem State.restartIdle_rst (s : State) (l : Link) : (s.restartIdle l).rst = s.rst := rfl
@[simp] theorem State.restartIdle_str (s : State) (l : Link) : (s.restartIdle l).str = s.str := rfl
@[simp] theorem State.restartIdle_off (s : State) (l : Link) : (s.restartIdle l).off = s.off := rfl
@[simp] theorem State.restartIdle_pat (s : State) (l : Link) : (s.restartIdle l).pat = s.pat := rfl
@[simp] theorem State.restartIdle_pending (s : State) (l : Link) : (s.restartIdle l).pending = s.pending := rfl
@[simp] theorem State.restartIdle_sent (s : State) (l : Link) : (s.restartIdle l).sent = s.sent := rfl

/-! ### handNotice -/

@[simp] theorem State.handNotice_sup (s : State) (l : Link) (b : DirBody) : (s.handNotice l b).sup = s.sup := rfl
@[simp] theorem State.handNotice_tally (s : State) (l : Link) (b : DirBody) : (s.handNotice l b).tally = s.tally := rfl
@[simp] theorem State.handNotice_cat (s : State) (l : Link) (b : DirBody) : (s.handNotice l b).cat = s.cat := rfl
@[simp] theorem State.handNotice_rst (s : State) (l : Link) (b : DirBody) : (s.handNotice l b).rst = s.rst := rfl
@[simp] theorem State.handNotice_str (s : State) (l : Link) (b : DirBody) : (s.handNotice l b).str = s.str := rfl
@[simp] theorem State.handNotice_off (s : State) (l : Link) (b : DirBody) : (s.handNotice l b).off = s.off := rfl
@[simp] theorem State.handNotice_pat (s : State) (l : Link) (b : DirBody) : (s.handNotice l b).pat = s.pat := rfl
@[simp] theorem State.handNotice_pending (s : State) (l : Link) (b : DirBody) : (s.handNotice l b).pending = s.pending := rfl
@[simp] theorem State.handNotice_sent (s : State) (l : Link) (b : DirBody) : (s.handNotice l b).sent = s.sent := rfl

/-! ### endDirective -/

@[simp] theorem State.endDirective_sup (s : State) (l : Link) (tag : Nat) : (s.endDirective l tag).sup = s.sup := rfl
@[simp] theorem State.endDirective_tally (s : State) (l : Link) (tag : Nat) : (s.endDirective l tag).tally = s.tally := rfl
@[simp] theorem State.endDirective_cat (s : State) (l : Link) (tag : Nat) : (s.endDirective l tag).cat = s.cat := rfl
@[simp] theorem State.endDirective_rst (s : State) (l : Link) (tag : Nat) : (s.endDirective l tag).rst = s.rst := rfl
@[simp] theorem State.endDirective_str (s : State) (l : Link) (tag : Nat) : (s.endDirective l tag).str = s.str := rfl
@[simp] theorem State.endDirective_off (s : State) (l : Link) (tag : Nat) : (s.endDirective l tag).off = s.off := rfl
@[simp] theorem State.endDirective_pat (s : State) (l : Link) (tag : Nat) : (s.endDirective l tag).pat = s.pat := rfl
@[simp] theorem State.endDirective_pending (s : State) (l : Link) (tag : Nat) : (s.endDirective l tag).pending = s.pending := rfl
@[simp] theorem State.endDirective_sent (s : State) (l : Link) (tag : Nat) : (s.endDirective l tag).sent = s.sent := rfl

/-! ### waitPlace -/

@[simp] theorem State.waitPlace_sup (s : State) (l : Link) (who : Issuer) : (s.waitPlace l who).sup = s.sup := rfl
@[simp] theorem State.waitPlace_tally (s : State) (l : Link) (who : Issuer) : (s.waitPlace l who).tally = s.tally := rfl
@[simp] theorem State.waitPlace_cat (s : State) (l : Link) (who : Issuer) : (s.waitPlace l who).cat = s.cat := rfl
@[simp] theorem State.waitPlace_rst (s : State) (l : Link) (who : Issuer) : (s.waitPlace l who).rst = s.rst := rfl
@[simp] theorem State.waitPlace_str (s : State) (l : Link) (who : Issuer) : (s.waitPlace l who).str = s.str := rfl
@[simp] theorem State.waitPlace_off (s : State) (l : Link) (who : Issuer) : (s.waitPlace l who).off = s.off := rfl
@[simp] theorem State.waitPlace_pat (s : State) (l : Link) (who : Issuer) : (s.waitPlace l who).pat = s.pat := rfl
@[simp] theorem State.waitPlace_pending (s : State) (l : Link) (who : Issuer) : (s.waitPlace l who).pending = s.pending := rfl
@[simp] theorem State.waitPlace_sent (s : State) (l : Link) (who : Issuer) : (s.waitPlace l who).sent = s.sent := rfl

/-! ### countDiscard -/

@[simp] theorem State.countDiscard_sup (s : State) (l : Link) : (s.countDiscard l).sup = s.sup := rfl
@[simp] theorem State.countDiscard_tally (s : State) (l : Link) : (s.countDiscard l).tally = s.tally := rfl
@[simp] theorem State.countDiscard_cat (s : State) (l : Link) : (s.countDiscard l).cat = s.cat := rfl
@[simp] theorem State.countDiscard_rst (s : State) (l : Link) : (s.countDiscard l).rst = s.rst := rfl
@[simp] theorem State.countDiscard_str (s : State) (l : Link) : (s.countDiscard l).str = s.str := rfl
@[simp] theorem State.countDiscard_off (s : State) (l : Link) : (s.countDiscard l).off = s.off := rfl
@[simp] theorem State.countDiscard_pat (s : State) (l : Link) : (s.countDiscard l).pat = s.pat := rfl
@[simp] theorem State.countDiscard_pending (s : State) (l : Link) : (s.countDiscard l).pending = s.pending := rfl
@[simp] theorem State.countDiscard_sent (s : State) (l : Link) : (s.countDiscard l).sent = s.sent := rfl

/-! ### Links -/

@[simp] theorem State.link_modLink_self (s : State) (l : Link) (f : LinkRec → LinkRec) :
    (s.modLink l f).link l = f (s.link l) := by
  simp [State.link, State.modLink]

theorem State.link_modLink (s : State) (l k : Link) (f : LinkRec → LinkRec) :
    (s.modLink l f).link k = if l = k then f (s.link k) else s.link k := by
  by_cases h : l = k
  · subst h; simp
  · have hv : (l : Nat) ≠ (k : Nat) := fun e => h (Fin.ext e)
    simp [State.link, State.modLink, Vector.getElem_set, h, hv]

@[simp] theorem State.link_modLink_ne (s : State) {l k : Link} (f : LinkRec → LinkRec) (h : l ≠ k) :
    (s.modLink l f).link k = s.link k := by
  rw [State.link_modLink, if_neg h]

/-- A state whose links are another's reads the same link records. -/
theorem State.link_congr {s t : State} (h : t.links = s.links) (l : Link) : t.link l = s.link l := by
  simp [State.link, h]

@[simp] theorem State.send_link (s : State) (o : Output) (k : Link) : (s.send o).link k = s.link k := rfl
@[simp] theorem State.modSup_link (s : State) (f : Supervisor → Supervisor) (k : Link) : (s.modSup f).link k = s.link k := rfl
@[simp] theorem State.modOff_link (s : State) (f : Offsite → Offsite) (k : Link) : (s.modOff f).link k = s.link k := rfl
@[simp] theorem State.modPat_link (s : State) (f : Patrol → Patrol) (k : Link) : (s.modPat f).link k = s.link k := rfl
@[simp] theorem State.modRst_link (s : State) (f : RestoreEngine → RestoreEngine) (k : Link) : (s.modRst f).link k = s.link k := rfl
@[simp] theorem State.setPrin_link (s : State) (id : Nat) (p : Principal) (k : Link) : (s.setPrin id p).link k = s.link k := rfl
@[simp] theorem State.modPrin_link (s : State) (id : Nat) (f : Principal → Principal) (k : Link) : (s.modPrin id f).link k = s.link k := rfl
@[simp] theorem State.modVolume_link (s : State) (vol : Nat) (f : Volume → Volume) (k : Link) : (s.modVolume vol f).link k = s.link k := rfl
@[simp] theorem State.setExtent_link (s : State) (vol ext : Nat) (e : Extent) (k : Link) : (s.setExtent vol ext e).link k = s.link k := rfl
@[simp] theorem State.modSnapshot_link (s : State) (vol gen : Nat) (f : Snapshot → Snapshot) (k : Link) : (s.modSnapshot vol gen f).link k = s.link k := rfl
@[simp] theorem State.setDues_link (s : State) (vol : Nat) (d : Dues) (k : Link) : (s.setDues vol d).link k = s.link k := rfl
@[simp] theorem State.modRestore_link (s : State) (rec : Nat) (f : Restore → Restore) (k : Link) : (s.modRestore rec f).link k = s.link k := rfl
@[simp] theorem State.modStep_link (s : State) (rec i : Nat) (f : Step → Step) (k : Link) : (s.modStep rec i f).link k = s.link k := rfl
@[simp] theorem State.modSlot_link (s : State) (n : Nat) (f : Slot → Slot) (k : Link) : (s.modSlot n f).link k = s.link k := rfl
@[simp] theorem State.freeSlot_link (s : State) (n : Nat) (k : Link) : (s.freeSlot n).link k = s.link k := rfl
@[simp] theorem State.freeSlotsIf_link (s : State) (p : Slot → Bool) (k : Link) : (s.freeSlotsIf p).link k = s.link k := rfl
@[simp] theorem State.modPlan_link (s : State) (vol : Nat) (f : PlanVol → PlanVol) (k : Link) : (s.modPlan vol f).link k = s.link k := rfl
@[simp] theorem State.modEntry_link (s : State) (num : Nat) (f : ShipEntry → ShipEntry) (k : Link) : (s.modEntry num f).link k = s.link k := rfl
@[simp] theorem State.modRepair_link (s : State) (n : Nat) (f : Repair → Repair) (k : Link) : (s.modRepair n f).link k = s.link k := rfl
@[simp] theorem State.modItem_link (s : State) (n : Nat) (f : WorkItem → WorkItem) (k : Link) : (s.modItem n f).link k = s.link k := rfl
@[simp] theorem State.putLine_link (s : State) (x : Line) (k : Link) : (s.putLine x).link k = s.link k := rfl
@[simp] theorem State.modLine_link (s : State) (id : Nat) (f : Line → Line) (k : Link) : (s.modLine id f).link k = s.link k := rfl
@[simp] theorem State.modOp_link (s : State) (num : Nat) (f : TallyOp → TallyOp) (k : Link) : (s.modOp num f).link k = s.link k := rfl
@[simp] theorem State.dropOp_link (s : State) (num : Nat) (k : Link) : (s.dropOp num).link k = s.link k := rfl
@[simp] theorem State.releaseLines_link (s : State) (num : Nat) (ids : List Nat) (k : Link) : (s.releaseLines num ids).link k = s.link k := rfl
@[simp] theorem State.pushOp_link (s : State) (job : Job) (ps : List Nat) (k : Link) : (s.pushOp job ps).link k = s.link k := rfl

/-! ### Records read after a write -/

@[simp] theorem State.prin_setPrin (s : State) (id : Nat) (p : Principal) : (s.setPrin id p).prin id = some p := by
  simp [State.prin, State.setPrin]

@[simp] theorem State.prin_modPrin (s : State) (id : Nat) (f : Principal → Principal) :
    (s.modPrin id f).prin id = (s.prin id).map f := by
  simp [State.prin, State.modPrin]

theorem State.prin_modPrin_ne (s : State) {id k : Nat} (f : Principal → Principal) (h : id ≠ k) :
    (s.modPrin id f).prin k = s.prin k := by
  simp [State.prin, State.modPrin, h]

@[simp] theorem State.restore_modRestore (s : State) (rec : Nat) (f : Restore → Restore) :
    (s.modRestore rec f).restore rec = (s.restore rec).map f := by
  simp [State.restore, State.modRestore]

@[simp] theorem State.slot_modSlot (s : State) (n : Nat) (f : Slot → Slot) :
    (s.modSlot n f).slot n = (s.slot n).map f := by
  simp [State.slot, State.modSlot]

@[simp] theorem State.slot_freeSlot (s : State) (n : Nat) : (s.freeSlot n).slot n = none := by
  simp [State.slot, State.freeSlot]

@[simp] theorem State.repair_modRepair (s : State) (n : Nat) (f : Repair → Repair) :
    (s.modRepair n f).repair n = (s.repair n).map f := by
  simp [State.repair, State.modRepair]

theorem State.volume_modVolume (s : State) (vol : Nat) (f : Volume → Volume) :
    (s.modVolume vol f).volume vol = (s.volume vol).map f := by
  simp only [State.volume, State.modVolume]
  split <;> simp

theorem State.volume_modVolume_ne (s : State) {vol v : Nat} (f : Volume → Volume) (h : vol ≠ v) :
    (s.modVolume vol f).volume v = s.volume v := by
  simp [State.volume, State.modVolume, h]

theorem State.snapshot_modSnapshot (s : State) (vol gen : Nat) (f : Snapshot → Snapshot) :
    (s.modSnapshot vol gen f).snapshot vol gen = (s.snapshot vol gen).map f := by
  simp only [State.snapshot, State.modSnapshot]
  split <;> simp

end Sys2Proof.Machine
end

