-- ==== Sys2Proof/Laws/Settle.lean ====
section
/-! SUPPORT. What settling leaves alone: one lemma for each operation that the blocks run of themselves
after a step, up to `finish`. -/

namespace Sys2Proof.Machine

theorem supSettles_refl (u : Supervisor) : supSettles u u := by simp [supSettles, supKept]
theorem linkSettles_refl (r : LinkRec) : linkSettles r r := by simp [linkSettles]
theorem catSettles_refl (c : Catalogue) : catSettles c c := by simp [catSettles]
theorem offSettles_refl (o : Offsite) : offSettles o o := by simp [offSettles]

/-- A state settles to itself. -/
theorem Settles.refl (s : State) : Settles s s :=
  ⟨supSettles_refl _, fun _ => linkSettles_refl _, catSettles_refl _, rfl, offSettles_refl _, rfl, List.prefix_refl _⟩

theorem settles_mk (s0 : State) (u ls t c r st o p pe se) :
    Settles s0 (State.mk u ls t c r st o p pe se) = partsSettle s0 u ls c r o pe se := rfl
theorem settles_unfold {s0 s : State} (h : Settles s0 s) :
    partsSettle s0 s.sup s.links s.cat s.rst s.off s.pending s.sent := h

variable {s0 : State}

theorem settles_foldl {α : Type} (f : State → α → State) (xs : List α) {s : State}
    (hf : ∀ s x, Settles s0 s → Settles s0 (f s x)) (h : Settles s0 s) : Settles s0 (xs.foldl f s) := by
  induction xs generalizing s with
  | nil => exact h
  | cons x xs ih => exact ih (hf s x h)
theorem settles_iter (n : Nat) (f : State → State) {s : State}
    (hf : ∀ s, Settles s0 s → Settles s0 (f s)) (h : Settles s0 s) : Settles s0 (iter n f s) := by
  induction n generalizing s with
  | zero => exact h
  | succ n ih => exact ih (hf s h)
theorem settles_modLink {s : State} (l : Link) (f : LinkRec → LinkRec)
    (hf : ∀ r q, linkSettles r q → linkSettles r (f q)) (h : Settles s0 s) : Settles s0 (s.modLink l f) := by
  refine ⟨h.1, fun k => ?_, h.2.2⟩
  have hk := h.2.1 k
  by_cases e : l = k
  · subst e
    simpa [State.modLink, State.link] using hf _ _ hk
  · have hv : (l : Nat) ≠ (k : Nat) := fun x => e (Fin.ext x)
    simpa [State.modLink, Vector.getElem_set, hv] using hk
theorem settles_modSup {s : State} (f : Supervisor → Supervisor)
    (hf : ∀ u v, supSettles u v → supSettles u (f v)) (h : Settles s0 s) : Settles s0 (s.modSup f) :=
  ⟨hf _ _ h.1, h.2⟩
theorem settles_modOff {s : State} (f : Offsite → Offsite)
    (hf : ∀ o p, offSettles o p → offSettles o (f p)) (h : Settles s0 s) : Settles s0 (s.modOff f) :=
  ⟨h.1, h.2.1, h.2.2.1, h.2.2.2.1, hf _ _ h.2.2.2.2.1, h.2.2.2.2.2⟩
theorem linkSettles_tx {r q : LinkRec} (fs : List TxFrame) (h : linkSettles r q) :
    linkSettles r { q with tx := q.tx ++ fs } :=
  ⟨h.1, h.2.1, h.2.2.1.trans (List.prefix_append ..), h.2.2.2⟩
theorem linkSettles_queueNotice {r q : LinkRec} (n : Notice) (h : linkSettles r q) : linkSettles r (q.queueNotice n) := by
  unfold LinkRec.queueNotice
  split
  · exact ⟨h.1, h.2.1, h.2.2.1, h.2.2.2.trans (List.prefix_append ..)⟩
  · exact h
theorem linkSettles_reply {r q : LinkRec} (n : Nat) (st : Status) (b : ReplyBody) (h : linkSettles r q) :
    linkSettles r (q.reply n st b) := by
  unfold LinkRec.reply
  split
  · exact h
  · refine ⟨h.1, (List.filter_sublist ..).trans h.2.1, ?_, h.2.2.2⟩
    dsimp only
    split
    · exact h.2.2.1
    · exact h.2.2.1.trans (List.prefix_append ..)

theorem settles_send {s : State} (o : Output) (h : Settles s0 s) : Settles s0 (State.send s o) :=
  ⟨h.1, h.2.1, h.2.2.1, h.2.2.2.1, h.2.2.2.2.1, h.2.2.2.2.2.1, h.2.2.2.2.2.2.trans (List.prefix_append ..)⟩

theorem settles_setPrin {s : State} (id : Nat) (p : Principal) (hb : Settles s0 s) : Settles s0 (State.setPrin s id p) := by
  unfold State.setPrin
  repeat' first
    | with_reducible assumption
    | (simp only [settles_mk]; with_reducible refine settles_unfold ?_)

theorem settles_modPrin {s : State} (id : Nat) (f : Principal → Principal) (hb : Settles s0 s) : Settles s0 (State.modPrin s id f) := by
  unfold State.modPrin
  repeat' first
    | with_reducible assumption
    | (simp only [settles_mk]; with_reducible refine settles_unfold ?_)

theorem settles_modSlot {s : State} (n : Nat) (f : Slot → Slot) (hb : Settles s0 s) : Settles s0 (State.modSlot s n f) := by
  unfold State.modSlot
  repeat' first
    | with_reducible assumption
    | (simp only [settles_mk]; with_reducible refine settles_unfold ?_)

theorem settles_freeSlot {s : State} (n : Nat) (hb : Settles s0 s) : Settles s0 (State.freeSlot s n) := by
  unfold State.freeSlot
  repeat' first
    | with_reducible assumption
    | (simp only [settles_mk]; with_reducible refine settles_unfold ?_)

theorem settles_freeSlotsIf {s : State} (p : Slot → Bool) (hb : Settles s0 s) : Settles s0 (State.freeSlotsIf s p) := by
  unfold State.freeSlotsIf
  repeat' first
    | with_reducible assumption
    | (simp only [settles_mk]; with_reducible refine settles_unfold ?_)

theorem settles_modPlan {s : State} (vol : Nat) (f : PlanVol → PlanVol) (h : Settles s0 s) : Settles s0 (State.modPlan s vol f) :=
  settles_modOff (fun o => { o with plan := mapIf (fun p => p.vol == vol) f o.plan }) (fun _ _ ho => ho) h

theorem settles_modEntry {s : State} (num : Nat) (f : ShipEntry → ShipEntry) (h : Settles s0 s) : Settles s0 (State.modEntry s num f) :=
  settles_modOff (fun o => { o with queue := mapIf (fun e => e.num == num) f o.queue }) (fun _ _ ho => ho) h

theorem settles_modRepair {s : State} (n : Nat) (f : Repair → Repair) (hb : Settles s0 s) : Settles s0 (State.modRepair s n f) := by
  unfold State.modRepair
  repeat' first
    | with_reducible assumption
    | (simp only [settles_mk]; with_reducible refine settles_unfold ?_)

theorem settles_modItem {s : State} (n : Nat) (f : WorkItem → WorkItem) (hb : Settles s0 s) : Settles s0 (State.modItem s n f) := by
  unfold State.modItem
  repeat' first
    | with_reducible assumption
    | (simp only [settles_mk]; with_reducible refine settles_unfold ?_)

theorem settles_queueTo {s : State} (b : NoticeBody) (n : Notice) (ls : List Link) (h : Settles s0 s) :
    Settles s0 (State.queueTo b n ls s) := by
  induction ls generalizing s with
  | nil => exact h
  | cons l ls ih =>
    unfold State.queueTo
    refine ih ?_
    split
    · exact settles_modLink _ _ (fun _ _ hr => linkSettles_queueNotice n hr) h
    · exact h

theorem settles_raise {s : State} (b : NoticeBody) (hb : Settles s0 s) : Settles s0 (State.raise s b) := by
  unfold State.raise
  repeat' first
    | with_reducible assumption
    | with_reducible apply settles_queueTo
    | ((with_reducible refine settles_modSup _ ?_ ?_); exact fun _ _ hs => hs)

theorem settles_busy {s : State} (l : Link) (hb : Settles s0 s) : Settles s0 (State.busy s l) := by
  unfold State.busy
  repeat' first
    | with_reducible assumption
    | ((with_reducible refine settles_modLink _ _ ?_ ?_); exact fun _ _ hr => hr)

theorem settles_restartIdle {s : State} (l : Link) (hb : Settles s0 s) : Settles s0 (State.restartIdle s l) := by
  unfold State.restartIdle
  repeat' first
    | with_reducible assumption
    | ((with_reducible refine settles_modLink _ _ ?_ ?_); exact fun _ _ hr => hr)

theorem settles_reply {s : State} (l : Link) (req : Nat) (st : Status) (body : ReplyBody) (h : Settles s0 s) :
    Settles s0 (State.reply s l req st body) :=
  settles_restartIdle l (settles_modLink _ _ (fun _ _ hr => linkSettles_reply req st body hr) h)

theorem settles_waitPlace {s : State} (l : Link) (who : Issuer) (hb : Settles s0 s) : Settles s0 (State.waitPlace s l who) := by
  unfold State.waitPlace
  repeat' first
    | with_reducible assumption
    | ((with_reducible refine settles_modLink _ _ ?_ ?_); intro _ _ hr; split <;> exact hr)

theorem settles_leavePlaces {s : State} (who : Issuer) (hb : Settles s0 s) : Settles s0 (State.leavePlaces s who) := by
  unfold State.leavePlaces
  repeat' first
    | with_reducible assumption
    | with_reducible refine settles_foldl _ _ (fun _ _ _ => ?_) ?_
    | ((with_reducible refine settles_modLink _ _ ?_ ?_); exact fun _ _ hr => hr)

theorem settles_setGrace {s : State} (id : Nat) (g : Grace) (hb : Settles s0 s) : Settles s0 (State.setGrace s id g) := by
  unfold State.setGrace
  repeat' first
    | with_reducible assumption
    | with_reducible apply settles_modPrin

theorem settles_leaveGraceQueue {s : State} (id : Nat) (hb : Settles s0 s) : Settles s0 (State.leaveGraceQueue s id) := by
  unfold State.leaveGraceQueue
  repeat' first
    | with_reducible assumption
    | (simp only [settles_mk]; with_reducible refine settles_unfold ?_)

theorem settles_enterGrace {s : State} (id deadline : Nat) (hb : Settles s0 s) : Settles s0 (State.enterGrace s id deadline) := by
  unfold State.enterGrace
  try dsimp only
  repeat' first
    | with_reducible assumption
    | with_reducible apply settles_setGrace
    | split
    | (simp only [settles_mk]; with_reducible refine settles_unfold ?_)

theorem settles_expire {s : State} (id : Nat) (hb : Settles s0 s) : Settles s0 (State.expire s id) := by
  unfold State.expire
  repeat' first
    | with_reducible assumption
    | with_reducible apply settles_leaveGraceQueue
    | with_reducible apply settles_raise
    | with_reducible apply settles_setGrace
    | split

theorem settles_lazyExpire {s : State} (id : Nat) (hb : Settles s0 s) : Settles s0 (State.lazyExpire s id) := by
  unfold State.lazyExpire
  repeat' first
    | with_reducible assumption
    | with_reducible apply settles_expire
    | split

theorem settles_lazyExpireAll {s : State} (ids : List Nat) (hb : Settles s0 s) : Settles s0 (State.lazyExpireAll s ids) := by
  unfold State.lazyExpireAll
  repeat' first
    | with_reducible assumption
    | with_reducible apply settles_lazyExpire
    | with_reducible refine settles_foldl _ _ (fun _ _ _ => ?_) ?_

theorem settles_evalGrace {s : State} (id : Nat) (hb : Settles s0 s) : Settles s0 (State.evalGrace s id) := by
  unfold State.evalGrace
  try dsimp only
  repeat' first
    | with_reducible assumption
    | with_reducible apply settles_enterGrace
    | with_reducible apply settles_leaveGraceQueue
    | with_reducible apply settles_raise
    | with_reducible apply settles_setGrace
    | split

theorem settles_evalGraceAll {s : State} (ids : List Nat) (hb : Settles s0 s) : Settles s0 (State.evalGraceAll s ids) := by
  unfold State.evalGraceAll
  repeat' first
    | with_reducible assumption
    | with_reducible apply settles_evalGrace
    | with_reducible refine settles_foldl _ _ (fun _ _ _ => ?_) ?_

theorem settles_expireHead {s : State} (hb : Settles s0 s) : Settles s0 (State.expireHead s) := by
  unfold State.expireHead
  repeat' first
    | with_reducible assumption
    | with_reducible apply settles_expire
    | split
    | (simp only [settles_mk]; with_reducible refine settles_unfold ?_)

theorem settles_expireDue {s : State} (hb : Settles s0 s) : Settles s0 (State.expireDue s) := by
  unfold State.expireDue
  repeat' first
    | with_reducible assumption
    | with_reducible apply settles_expireHead
    | with_reducible refine settles_iter _ _ (fun _ _ => ?_) ?_

theorem settles_putLine {s : State} (x : Line) (hb : Settles s0 s) : Settles s0 (State.putLine s x) := by
  unfold State.putLine
  repeat' first
    | with_reducible assumption
    | (simp only [settles_mk]; with_reducible refine settles_unfold ?_)

theorem settles_modLine {s : State} (id : Nat) (f : Line → Line) (hb : Settles s0 s) : Settles s0 (State.modLine s id f) := by
  unfold State.modLine
  repeat' first
    | with_reducible assumption
    | (simp only [settles_mk]; with_reducible refine settles_unfold ?_)

theorem settles_storeTally {s : State} (id used reserved : Nat) (hb : Settles s0 s) : Settles s0 (State.storeTally s id used reserved) := by
  unfold State.storeTally
  try dsimp only
  repeat' first
    | with_reducible assumption
    | with_reducible apply settles_modPrin
    | split
    | (simp only [settles_mk]; with_reducible refine settles_unfold ?_)

theorem settles_storeClean {s : State} (id used reserved : Nat) (hb : Settles s0 s) : Settles s0 (State.storeClean s id used reserved) := by
  unfold State.storeClean
  try dsimp only
  repeat' first
    | with_reducible assumption
    | with_reducible apply settles_storeTally
    | split
    | (simp only [settles_mk]; with_reducible refine settles_unfold ?_)

theorem settles_castoutDirty {s : State} (hb : Settles s0 s) : Settles s0 (State.castoutDirty s) := by
  unfold State.castoutDirty
  repeat' first
    | with_reducible assumption
    | split
    | (simp only [settles_mk]; with_reducible refine settles_unfold ?_)

theorem settles_modOp {s : State} (num : Nat) (f : TallyOp → TallyOp) (hb : Settles s0 s) : Settles s0 (State.modOp s num f) := by
  unfold State.modOp
  repeat' first
    | with_reducible assumption
    | (simp only [settles_mk]; with_reducible refine settles_unfold ?_)

theorem settles_dropOp {s : State} (num : Nat) (hb : Settles s0 s) : Settles s0 (State.dropOp s num) := by
  unfold State.dropOp
  repeat' first
    | with_reducible assumption
    | (simp only [settles_mk]; with_reducible refine settles_unfold ?_)

theorem settles_pushOp {s : State} (job : Job) (postings : List Nat) (hb : Settles s0 s) : Settles s0 (State.pushOp s job postings) := by
  unfold State.pushOp
  repeat' first
    | with_reducible assumption
    | (simp only [settles_mk]; with_reducible refine settles_unfold ?_)

theorem settles_takeSet {s : State} (num : Nat) (group : List Nat) (hb : Settles s0 s) : Settles s0 (State.takeSet s num group) := by
  unfold State.takeSet
  try dsimp only
  repeat' first
    | with_reducible assumption
    | split
    | (simp only [settles_mk]; with_reducible refine settles_unfold ?_)

theorem settles_takeNext {s : State} (num : Nat) (hb : Settles s0 s) : Settles s0 (State.takeNext s num) := by
  unfold State.takeNext
  try dsimp only
  repeat' first
    | with_reducible assumption
    | with_reducible apply settles_takeSet
    | split

theorem settles_gather {s : State} (num : Nat) (hb : Settles s0 s) : Settles s0 (State.gather s num) := by
  unfold State.gather
  try dsimp only
  repeat' first
    | with_reducible assumption
    | with_reducible apply settles_modOp
    | with_reducible apply settles_takeNext
    | split
    | with_reducible refine settles_iter _ _ (fun _ _ => ?_) ?_

theorem settles_releaseLines {s : State} (num : Nat) (ids : List Nat) (hb : Settles s0 s) : Settles s0 (State.releaseLines s num ids) := by
  unfold State.releaseLines
  repeat' first
    | with_reducible assumption
    | (simp only [settles_mk]; with_reducible refine settles_unfold ?_)

theorem settles_takePosting {s : State} (hb : Settles s0 s) : Settles s0 (State.takePosting s) := by
  unfold State.takePosting
  repeat' first
    | with_reducible assumption
    | with_reducible apply settles_pushOp
    | split

theorem settles_writeMarkers {s : State} (ids : List Nat) (hb : Settles s0 s) : Settles s0 (State.writeMarkers s ids) := by
  unfold State.writeMarkers
  repeat' first
    | with_reducible assumption
    | (simp only [settles_mk]; with_reducible refine settles_unfold ?_)

theorem settles_applyChange (num : Nat) (settled : Option Nat) {s : State} (c : TallyChange) (hb : Settles s0 s) : Settles s0 (State.applyChange num settled s c) := by
  unfold State.applyChange
  try dsimp only
  repeat' first
    | with_reducible assumption
    | with_reducible apply settles_putLine
    | with_reducible apply settles_storeTally
    | split
    | (simp only [settles_mk]; with_reducible refine settles_unfold ?_)

theorem settles_applyChanges (num : Nat) (settled : Option Nat) {s : State} (cs : List TallyChange) (hb : Settles s0 s) : Settles s0 (State.applyChanges num settled s cs) := by
  unfold State.applyChanges
  repeat' first
    | with_reducible assumption
    | with_reducible apply settles_applyChange
    | with_reducible refine settles_foldl _ _ (fun _ _ _ => ?_) ?_

theorem settles_endWrite {s : State} (w : PendingWrite) (hb : Settles s0 s) : Settles s0 (State.endWrite s w) := by
  unfold State.endWrite
  repeat' first
    | with_reducible assumption
    | with_reducible apply settles_modPrin
    | (simp only [settles_mk]; with_reducible refine settles_unfold ?_)

theorem settles_beginRecount {s : State} (pool : Nat) (hb : Settles s0 s) : Settles s0 (State.beginRecount s pool) := by
  unfold State.beginRecount
  repeat' first
    | with_reducible assumption
    | split
    | (simp only [settles_mk]; with_reducible refine settles_unfold ?_)

theorem settles_beginRecounts {s : State} (hb : Settles s0 s) : Settles s0 (State.beginRecounts s) := by
  unfold State.beginRecounts
  repeat' first
    | with_reducible assumption
    | with_reducible apply settles_beginRecount
    | with_reducible refine settles_foldl _ _ (fun _ _ _ => ?_) ?_

theorem settles_memberUnsettled {s : State} (pool : Nat) (hb : Settles s0 s) : Settles s0 (State.memberUnsettled s pool) := by
  unfold State.memberUnsettled
  repeat' first
    | with_reducible assumption
    | with_reducible apply settles_modPrin
    | (simp only [settles_mk]; with_reducible refine settles_unfold ?_)

theorem bare_mapIf (p : Version → Bool) (f : Version → Version) (hf : ∀ v, (f v).bare = v.bare) (vs : List Version) :
    (mapIf p f vs).map Version.bare = vs.map Version.bare := by
  simp only [mapIf, List.map_map]
  refine List.map_congr_left fun v _ => ?_
  simp only [Function.comp_apply]
  split
  · exact hf v
  · rfl
theorem settles_changeVersion {s : State} (vol ext birth : Nat) (p : Version → Bool) (f : Version → Version)
    (hf : ∀ v, (f v).bare = v.bare) (h : Settles s0 s) : Settles s0 (State.changeVersion s vol ext birth p f) := by
  unfold State.changeVersion
  split
  · exact h
  · refine ⟨h.1, h.2.1, ⟨h.2.2.1.1, fun key => ?_⟩, h.2.2.2⟩
    by_cases hk : extentKey vol ext = key
    · subst hk
      have := congrArg Extent.bare (extent_setExtent_self s vol ext
        { s.extent vol ext with versions := mapIf (fun v => v.birth == birth && p v) f (s.extent vol ext).versions })
      refine Eq.trans this (Eq.trans ?_ (h.2.2.1.2 (extentKey vol ext)))
      simp only [Extent.bare, State.extent, bare_mapIf _ _ hf]
    · have := h.2.2.1.2 key
      rw [← this]
      simp only [State.setExtent]
      split <;> simp [hk]

theorem settles_setVerified {s : State} (vol ext birth loc : Nat) (h : Settles s0 s) :
    Settles s0 (State.setVerified s vol ext birth loc) := settles_changeVersion _ _ _ _ _ (fun _ => rfl) h

theorem settles_writeRepair {s : State} (vol ext birth loc : Nat) (st : RepairState) (h : Settles s0 s) :
    Settles s0 (State.writeRepair s vol ext birth loc st) := settles_changeVersion _ _ _ _ _ (fun _ => rfl) h

theorem settles_setWaiting {s : State} (c : SlotClass) (q : List SlotReq) (hb : Settles s0 s) : Settles s0 (State.setWaiting s c q) := by
  unfold State.setWaiting
  repeat' first
    | with_reducible assumption
    | split
    | (simp only [settles_mk]; with_reducible refine settles_unfold ?_)

theorem settles_grantSlot (c : SlotClass) (h : SlotHolder) {s : State} (w : Nat × Code) (hb : Settles s0 s) : Settles s0 (State.grantSlot c h s w) := by
  unfold State.grantSlot
  repeat' first
    | with_reducible assumption
    | (simp only [settles_mk]; with_reducible refine settles_unfold ?_)

theorem settles_grant {s : State} (c : SlotClass) (r : SlotReq) (h : Settles s0 s) : Settles s0 (State.grant s c r) := by
  have h1 : Settles s0 (r.wants.foldl (State.grantSlot c r.holder) s) :=
    settles_foldl _ _ (fun _ x h => settles_grantSlot c r.holder x h) h
  unfold State.grant
  dsimp only
  split
  · exact settles_modOff (fun o => { o with pulls := mapIf _ (fun p => { p with stage := .place }) o.pulls }) (fun _ _ ho => ho) h1
  · exact settles_modItem _ _ h1
  · exact h1
  · exact h1
  · exact h1

theorem settles_enqueue {s : State} (c : SlotClass) (r : SlotReq) (hb : Settles s0 s) : Settles s0 (State.enqueue s c r) := by
  unfold State.enqueue
  repeat' first
    | with_reducible assumption
    | with_reducible apply settles_setWaiting
    | split

theorem settles_considerOnce {s : State} (hb : Settles s0 s) : Settles s0 (State.considerOnce s) := by
  unfold State.considerOnce
  repeat' first
    | with_reducible assumption
    | with_reducible apply settles_grant
    | with_reducible apply settles_setWaiting
    | split

theorem settles_consider {s : State} (hb : Settles s0 s) : Settles s0 (State.consider s) := by
  unfold State.consider
  repeat' first
    | with_reducible assumption
    | with_reducible apply settles_considerOnce
    | with_reducible refine settles_iter _ _ (fun _ _ => ?_) ?_

theorem settles_handBack {s : State} (n : Nat) (h : Settles s0 s) : Settles s0 (State.handBack s n) :=
  settles_modOff
    (fun o => { o with queue := o.queue.filterMap fun e => if e.slot = some n then e.handedBack s.nightEnding else some e })
    (fun _ _ ho => ho) (settles_freeSlot n h)

theorem settles_takeBackOnce {s : State} (hb : Settles s0 s) : Settles s0 (State.takeBackOnce s) := by
  unfold State.takeBackOnce
  repeat' first
    | with_reducible assumption
    | with_reducible apply settles_consider
    | with_reducible apply settles_handBack
    | split

theorem settles_takeBack {s : State} (hb : Settles s0 s) : Settles s0 (State.takeBack s) := by
  unfold State.takeBack
  repeat' first
    | with_reducible assumption
    | with_reducible apply settles_takeBackOnce
    | with_reducible refine settles_iter _ _ (fun _ _ => ?_) ?_

theorem settles_askSlots {s : State} (c : SlotClass) (r : SlotReq) (hb : Settles s0 s) : Settles s0 (State.askSlots s c r) := by
  unfold State.askSlots
  repeat' first
    | with_reducible assumption
    | with_reducible apply settles_enqueue
    | with_reducible apply settles_grant
    | with_reducible apply settles_takeBack
    | split

theorem settles_withdrawAsk {s : State} (h : SlotHolder) (hb : Settles s0 s) : Settles s0 (State.withdrawAsk s h) := by
  unfold State.withdrawAsk
  repeat' first
    | with_reducible assumption
    | (simp only [settles_mk]; with_reducible refine settles_unfold ?_)

theorem settles_freeHolder {s : State} (h : SlotHolder) (hb : Settles s0 s) : Settles s0 (State.freeHolder s h) := by
  unfold State.freeHolder
  repeat' first
    | with_reducible assumption
    | with_reducible apply settles_freeSlotsIf

theorem settles_freeAllOf {s : State} (h : SlotHolder) (hb : Settles s0 s) : Settles s0 (State.freeAllOf s h) := by
  unfold State.freeAllOf
  repeat' first
    | with_reducible assumption
    | with_reducible apply settles_freeSlotsIf

theorem settles_setSlots {s : State} (ns : List Nat) (st : SlotState) (hb : Settles s0 s) : Settles s0 (State.setSlots s ns st) := by
  unfold State.setSlots
  repeat' first
    | with_reducible assumption
    | with_reducible apply settles_modSlot
    | with_reducible refine settles_foldl _ _ (fun _ _ _ => ?_) ?_

theorem settles_fill {s : State} (n : Nat) (data : List Byte) (hb : Settles s0 s) : Settles s0 (State.fill s n data) := by
  unfold State.fill
  repeat' first
    | with_reducible assumption
    | with_reducible apply settles_modSlot

theorem settles_makeFull {s : State} (n : Nat) (hb : Settles s0 s) : Settles s0 (State.makeFull s n) := by
  unfold State.makeFull
  repeat' first
    | with_reducible assumption
    | with_reducible apply settles_modSlot
    | (simp only [settles_mk]; with_reducible refine settles_unfold ?_)

theorem settles_startOpening {s : State} (hb : Settles s0 s) : Settles s0 (State.startOpening s) := by
  unfold State.startOpening
  repeat' first
    | with_reducible assumption
    | with_reducible apply settles_send
    | ((with_reducible refine settles_modOff _ ?_ ?_); exact fun _ _ ho => ho)

theorem settles_askOpening {s : State} (hb : Settles s0 s) : Settles s0 (State.askOpening s) := by
  unfold State.askOpening
  repeat' first
    | with_reducible assumption
    | with_reducible apply settles_startOpening
    | split

theorem settles_leaveUp {s : State} (hb : Settles s0 s) : Settles s0 (State.leaveUp s) := by
  unfold State.leaveUp
  repeat' first
    | with_reducible assumption
    | (simp only [settles_mk]; with_reducible refine settles_unfold ?_)

theorem settles_closeLink {s : State} (hb : Settles s0 s) : Settles s0 (State.closeLink s) := by
  unfold State.closeLink
  repeat' first
    | with_reducible assumption
    | with_reducible apply settles_leaveUp
    | with_reducible apply settles_send
    | ((with_reducible refine settles_modOff _ ?_ ?_); exact fun _ _ ho => ho)

theorem settles_freeFilling {s : State} (e : FetchEntry) (hb : Settles s0 s) : Settles s0 (State.freeFilling s e) := by
  unfold State.freeFilling
  repeat' first
    | with_reducible assumption
    | with_reducible apply settles_freeSlotsIf
    | split

theorem settles_chooseDir {s : State} (hb : Settles s0 s) : Settles s0 (State.chooseDir s) := by
  unfold State.chooseDir
  repeat' first
    | with_reducible assumption
    | split
    | ((with_reducible refine settles_modOff _ ?_ ?_); exact fun _ _ ho => ho)

theorem settles_redirectOnce {s : State} (hb : Settles s0 s) : Settles s0 (State.redirectOnce s) := by
  unfold State.redirectOnce
  try dsimp only
  repeat' first
    | with_reducible assumption
    | with_reducible apply settles_chooseDir
    | with_reducible apply settles_closeLink
    | split
    | ((with_reducible refine settles_modOff _ ?_ ?_); exact fun _ _ ho => ho)

theorem settles_redirect {s : State} (hb : Settles s0 s) : Settles s0 (State.redirect s) := by
  unfold State.redirect
  repeat' first
    | with_reducible assumption
    | with_reducible apply settles_redirectOnce
    | with_reducible refine settles_iter _ _ (fun _ _ => ?_) ?_

theorem settles_endBurst {s : State} (hb : Settles s0 s) : Settles s0 (State.endBurst s) := by
  unfold State.endBurst
  repeat' first
    | with_reducible assumption
    | split
    | ((with_reducible refine settles_modOff _ ?_ ?_); exact fun _ _ ho => ho)

theorem settles_markRest {s : State} (hb : Settles s0 s) : Settles s0 (State.markRest s) := by
  unfold State.markRest
  repeat' first
    | with_reducible assumption
    | ((with_reducible refine settles_modOff _ ?_ ?_); exact fun _ _ ho => ho)

theorem settles_placeFetch {s : State} (es : List FetchEntry) (atHead : Bool) (hb : Settles s0 s) : Settles s0 (State.placeFetch s es atHead) := by
  unfold State.placeFetch
  repeat' first
    | with_reducible assumption
    | with_reducible apply settles_askOpening
    | ((with_reducible refine settles_modOff _ ?_ ?_); exact fun _ _ ho => ho)

theorem settles_askRoom {s : State} (h : FetchHolder) (es : List FetchEntry) (atHead : Bool) (hb : Settles s0 s) : Settles s0 (State.askRoom s h es atHead) := by
  unfold State.askRoom
  repeat' first
    | with_reducible assumption
    | with_reducible apply settles_placeFetch
    | split
    | ((with_reducible refine settles_modOff _ ?_ ?_); exact fun _ _ ho => ho)

theorem settles_serveRoomOnce {s : State} (hb : Settles s0 s) : Settles s0 (State.serveRoomOnce s) := by
  unfold State.serveRoomOnce
  repeat' first
    | with_reducible assumption
    | with_reducible apply settles_placeFetch
    | split
    | ((with_reducible refine settles_modOff _ ?_ ?_); exact fun _ _ ho => ho)

theorem settles_serveRoom {s : State} (hb : Settles s0 s) : Settles s0 (State.serveRoom s) := by
  unfold State.serveRoom
  repeat' first
    | with_reducible assumption
    | with_reducible apply settles_serveRoomOnce
    | with_reducible refine settles_iter _ _ (fun _ _ => ?_) ?_

theorem settles_withdrawFetch {s : State} (h : FetchHolder) (hb : Settles s0 s) : Settles s0 (State.withdrawFetch s h) := by
  unfold State.withdrawFetch
  repeat' first
    | with_reducible assumption
    | with_reducible apply settles_withdrawAsk
    | ((with_reducible refine settles_modOff _ ?_ ?_); exact fun _ _ ho => ho)

theorem settles_clearShed {s : State} (hb : Settles s0 s) : Settles s0 (State.clearShed s) := by
  unfold State.clearShed
  repeat' first
    | with_reducible assumption
    | ((with_reducible refine settles_modOff _ ?_ ?_); exact fun _ _ ho => ho)

theorem settles_settleLink {s : State} (hb : Settles s0 s) : Settles s0 (State.settleLink s) := by
  unfold State.settleLink
  repeat' first
    | with_reducible assumption
    | with_reducible apply settles_clearShed
    | with_reducible apply settles_markRest
    | with_reducible apply settles_redirect
    | with_reducible apply settles_serveRoom

theorem settles_progress {s : State} (hb : Settles s0 s) : Settles s0 (State.progress s) := by
  unfold State.progress
  repeat' first
    | with_reducible assumption
    | ((with_reducible refine settles_modOff _ ?_ ?_); exact fun _ _ ho => ho)

theorem settles_joinList {s : State} (f : OutFrame) (hb : Settles s0 s) : Settles s0 (State.joinList s f) := by
  unfold State.joinList
  repeat' first
    | with_reducible assumption
    | with_reducible apply settles_progress
    | split
    | ((with_reducible refine settles_modOff _ ?_ ?_); exact fun _ _ ho => ho)

theorem settles_joinShip {s : State} (b : FrameBody) (vacant : Bool) (hb : Settles s0 s) : Settles s0 (State.joinShip s b vacant) := by
  unfold State.joinShip
  repeat' first
    | with_reducible assumption
    | with_reducible apply settles_joinList
    | ((with_reducible refine settles_modOff _ ?_ ?_); exact fun _ _ ho => ho)

theorem settles_sendControl {s : State} (c : Control) (hb : Settles s0 s) : Settles s0 (State.sendControl s c) := by
  unfold State.sendControl
  repeat' first
    | with_reducible assumption
    | with_reducible apply settles_joinShip
    | with_reducible apply settles_send

theorem settles_sendHead {s : State} (hb : Settles s0 s) : Settles s0 (State.sendHead s) := by
  unfold State.sendHead
  repeat' first
    | with_reducible assumption
    | with_reducible apply settles_sendControl
    | split
    | ((with_reducible refine settles_modOff _ ?_ ?_); exact fun _ _ ho => ho)

theorem settles_cancelRun {s : State} (n : Nat) (hb : Settles s0 s) : Settles s0 (State.cancelRun s n) := by
  unfold State.cancelRun
  repeat' first
    | with_reducible assumption
    | with_reducible apply settles_freeAllOf
    | with_reducible apply settles_leavePlaces
    | with_reducible apply settles_withdrawAsk
    | ((with_reducible refine settles_modOff _ ?_ ?_); exact fun _ _ ho => ho)

theorem settles_cancelRuns {s : State} (p : ShipPull → Bool) (hb : Settles s0 s) : Settles s0 (State.cancelRuns s p) := by
  unfold State.cancelRuns
  repeat' first
    | with_reducible assumption
    | with_reducible apply settles_cancelRun
    | with_reducible refine settles_foldl _ _ (fun _ _ _ => ?_) ?_

theorem settles_freeEntrySlots {s : State} (es : List ShipEntry) (hb : Settles s0 s) : Settles s0 (State.freeEntrySlots s es) := by
  unfold State.freeEntrySlots
  repeat' first
    | with_reducible assumption
    | with_reducible apply settles_freeSlot
    | with_reducible refine settles_foldl _ _ (fun _ _ _ => ?_) ?_

theorem settles_damageEntries {s : State} (vol ext birth : Nat) (p : ShipEntry → Bool) (hb : Settles s0 s) : Settles s0 (State.damageEntries s vol ext birth p) := by
  unfold State.damageEntries
  try dsimp only
  repeat' first
    | with_reducible assumption
    | with_reducible apply settles_freeEntrySlots
    | with_reducible apply settles_modPlan
    | split
    | ((with_reducible refine settles_modOff _ ?_ ?_); exact fun _ _ ho => ho)

theorem settles_shipLost {s : State} (vol ext birth : Nat) (hb : Settles s0 s) : Settles s0 (State.shipLost s vol ext birth) := by
  unfold State.shipLost
  exact settles_damageEntries _ _ _ _ (settles_cancelRuns _ hb)

theorem settles_shipReact {s : State} (vol ext birth : Nat) (st : RepairState) (hb : Settles s0 s) : Settles s0 (State.shipReact s vol ext birth st) := by
  unfold State.shipReact
  repeat' first
    | with_reducible assumption
    | with_reducible apply settles_shipLost
    | split
    | ((with_reducible refine settles_modOff _ ?_ ?_); exact fun _ _ ho => ho)

theorem settles_restoreReact {s : State} (vol ext birth : Nat) (st : RepairState) (hb : Settles s0 s) : Settles s0 (State.restoreReact s vol ext birth st) := by
  unfold State.restoreReact
  try dsimp only
  repeat' first
    | with_reducible assumption
    | split
    | with_reducible refine settles_foldl _ _ (fun _ _ _ => ?_) ?_
    | ((with_reducible refine settles_modLink _ _ ?_ ?_); exact fun _ _ hr => hr)
    | ((with_reducible refine settles_modLink _ _ ?_ ?_); exact fun _ _ hr => linkSettles_tx _ hr)
    | ((with_reducible refine settles_modLink _ _ ?_ ?_); intro _ _ hr; split <;> exact hr)
    | (simp only [settles_mk]; with_reducible refine settles_unfold ?_)

theorem settles_setRepair {s : State} (vol ext birth loc : Nat) (st : RepairState) (hb : Settles s0 s) : Settles s0 (State.setRepair s vol ext birth loc st) := by
  unfold State.setRepair
  try dsimp only
  repeat' first
    | with_reducible assumption
    | with_reducible apply settles_restoreReact
    | with_reducible apply settles_shipReact
    | with_reducible apply settles_writeRepair
    | split
    | (simp only [settles_mk]; with_reducible refine settles_unfold ?_)

theorem settles_modPat {s : State} (f : Patrol → Patrol) (hb : Settles s0 s) : Settles s0 (State.modPat s f) := by
  unfold State.modPat
  repeat' first
    | with_reducible assumption
    | (simp only [settles_mk]; with_reducible refine settles_unfold ?_)

theorem settles_leaveItem {s : State} (n : Nat) (hb : Settles s0 s) : Settles s0 (State.leaveItem s n) := by
  unfold State.leaveItem
  repeat' first
    | with_reducible assumption
    | with_reducible apply settles_freeAllOf
    | with_reducible apply settles_leavePlaces
    | with_reducible apply settles_modPat
    | with_reducible apply settles_withdrawAsk

theorem settles_addFold {s : State} (w : WorkItem) (hb : Settles s0 s) : Settles s0 (State.addFold s w) := by
  unfold State.addFold
  repeat' first
    | with_reducible assumption
    | with_reducible apply settles_modPat

theorem settles_issueItem {s : State} (w : WorkItem) (hb : Settles s0 s) : Settles s0 (State.issueItem s w) := by
  unfold State.issueItem
  repeat' first
    | with_reducible assumption
    | with_reducible apply settles_askSlots
    | with_reducible apply settles_modItem

theorem settles_loseItem {s : State} (w : WorkItem) (hb : Settles s0 s) : Settles s0 (State.loseItem s w) := by
  unfold State.loseItem
  try dsimp only
  repeat' first
    | with_reducible assumption
    | with_reducible apply settles_leaveItem
    | with_reducible apply settles_modPat
    | split
    | (simp only [settles_mk]; with_reducible refine settles_unfold ?_)

theorem settles_decideItem {s : State} (n : Nat) (hb : Settles s0 s) : Settles s0 (State.decideItem s n) := by
  unfold State.decideItem
  try dsimp only
  repeat' first
    | with_reducible assumption
    | with_reducible apply settles_addFold
    | with_reducible apply settles_busy
    | with_reducible apply settles_issueItem
    | with_reducible apply settles_leaveItem
    | with_reducible apply settles_loseItem
    | with_reducible apply settles_modItem
    | split
    | (simp only [settles_mk]; with_reducible refine settles_unfold ?_)

theorem settles_modChunk {s : State} (n idx : Nat) (f : RepairChunk → RepairChunk) (hb : Settles s0 s) : Settles s0 (State.modChunk s n idx f) := by
  unfold State.modChunk
  repeat' first
    | with_reducible assumption
    | with_reducible apply settles_modRepair

theorem settles_leaveRepairPlaces {s : State} (n : Nat) (hb : Settles s0 s) : Settles s0 (State.leaveRepairPlaces s n) := by
  unfold State.leaveRepairPlaces
  try dsimp only
  repeat' first
    | with_reducible assumption
    | with_reducible apply settles_leavePlaces
    | split
    | with_reducible refine settles_foldl _ _ (fun _ _ _ => ?_) ?_
    | (simp only [settles_mk]; with_reducible refine settles_unfold ?_)

theorem settles_chunkOffsite {s : State} (n idx : Nat) (hb : Settles s0 s) : Settles s0 (State.chunkOffsite s n idx) := by
  unfold State.chunkOffsite
  try dsimp only
  repeat' first
    | with_reducible assumption
    | with_reducible apply settles_askRoom
    | with_reducible apply settles_leavePlaces
    | with_reducible apply settles_modChunk
    | with_reducible apply settles_progress
    | split
    | (simp only [settles_mk]; with_reducible refine settles_unfold ?_)

theorem settles_startChunk {s : State} (n : Nat) (idx : Nat) (hb : Settles s0 s) : Settles s0 (State.startChunk s n idx) := by
  unfold State.startChunk
  repeat' first
    | with_reducible assumption
    | with_reducible apply settles_chunkOffsite
    | split

theorem settles_loseRepair {s : State} (n : Nat) (hb : Settles s0 s) : Settles s0 (State.loseRepair s n) := by
  unfold State.loseRepair
  try dsimp only
  repeat' first
    | with_reducible assumption
    | with_reducible apply settles_freeHolder
    | with_reducible apply settles_leaveRepairPlaces
    | with_reducible apply settles_modRepair
    | with_reducible apply settles_setRepair
    | with_reducible apply settles_withdrawFetch
    | split
    | (simp only [settles_mk]; with_reducible refine settles_unfold ?_)

theorem settles_startWhole {s : State} (n : Nat) (hb : Settles s0 s) : Settles s0 (State.startWhole s n) := by
  unfold State.startWhole
  try dsimp only
  repeat' first
    | with_reducible assumption
    | with_reducible apply settles_askRoom
    | with_reducible apply settles_freeHolder
    | with_reducible apply settles_leaveRepairPlaces
    | with_reducible apply settles_loseRepair
    | with_reducible apply settles_modRepair
    | with_reducible apply settles_progress
    | with_reducible apply settles_withdrawFetch
    | split
    | (simp only [settles_mk]; with_reducible refine settles_unfold ?_)

theorem settles_openRepair {s : State} (n : Nat) (q : RepairReq) (hb : Settles s0 s) : Settles s0 (State.openRepair s n q) := by
  unfold State.openRepair
  repeat' first
    | with_reducible assumption
    | with_reducible apply settles_modPat
    | with_reducible apply settles_setRepair
    | with_reducible apply settles_startChunk
    | with_reducible apply settles_startWhole
    | split
    | with_reducible refine settles_foldl _ _ (fun _ _ _ => ?_) ?_

theorem settles_openWaiting {s : State} (n : Nat) (q : List RepairReq) (h : Settles s0 s) :
    Settles s0 (State.openWaiting n q s) := by
  induction q generalizing s with
  | nil => exact settles_modPat _ h
  | cons x t ih =>
    unfold State.openWaiting
    split
    · exact settles_openRepair _ _ (settles_modPat _ h)
    · exact ih h

theorem settles_closeRepair {s : State} (n : Nat) (hb : Settles s0 s) : Settles s0 (State.closeRepair s n) := by
  unfold State.closeRepair
  try dsimp only
  repeat' first
    | with_reducible assumption
    | with_reducible apply settles_freeAllOf
    | with_reducible apply settles_leaveRepairPlaces
    | with_reducible apply settles_modPat
    | with_reducible apply settles_openWaiting
    | split
    | (simp only [settles_mk]; with_reducible refine settles_unfold ?_)

theorem settles_endRepair {s : State} (n : Nat) (r : Repair) (hb : Settles s0 s) : Settles s0 (State.endRepair s n r) := by
  unfold State.endRepair
  repeat' first
    | with_reducible assumption
    | with_reducible apply settles_closeRepair
    | with_reducible apply settles_raise
    | with_reducible apply settles_setRepair
    | with_reducible apply settles_setVerified
    | split

theorem settles_checkRepair {s : State} (n : Nat) (hb : Settles s0 s) : Settles s0 (State.checkRepair s n) := by
  unfold State.checkRepair
  repeat' first
    | with_reducible assumption
    | with_reducible apply settles_closeRepair
    | with_reducible apply settles_endRepair
    | with_reducible apply settles_startWhole
    | split

theorem settles_abandonRepair {s : State} (n : Nat) (hb : Settles s0 s) : Settles s0 (State.abandonRepair s n) := by
  unfold State.abandonRepair
  try dsimp only
  repeat' first
    | with_reducible assumption
    | with_reducible apply settles_freeHolder
    | with_reducible apply settles_leaveRepairPlaces
    | with_reducible apply settles_modRepair
    | with_reducible apply settles_withdrawFetch
    | split
    | (simp only [settles_mk]; with_reducible refine settles_unfold ?_)

theorem settles_abandonIf {s : State} (p : Repair → Bool) (hb : Settles s0 s) : Settles s0 (State.abandonIf s p) := by
  unfold State.abandonIf
  repeat' first
    | with_reducible assumption
    | with_reducible apply settles_abandonRepair
    | with_reducible refine settles_foldl _ _ (fun _ _ _ => ?_) ?_

theorem settles_addChunks {s : State} (n : Nat) (r : Repair) (q : RepairReq) (hb : Settles s0 s) : Settles s0 (State.addChunks s n r q) := by
  unfold State.addChunks
  try dsimp only
  repeat' first
    | with_reducible assumption
    | with_reducible apply settles_leaveRepairPlaces
    | with_reducible apply settles_modRepair
    | with_reducible apply settles_startChunk
    | split
    | with_reducible refine settles_foldl _ _ (fun _ _ _ => ?_) ?_

theorem settles_requestRepair {s : State} (q : RepairReq) (hb : Settles s0 s) : Settles s0 (State.requestRepair s q) := by
  unfold State.requestRepair
  try dsimp only
  repeat' first
    | with_reducible assumption
    | with_reducible apply settles_addChunks
    | with_reducible apply settles_checkRepair
    | with_reducible apply settles_modPat
    | with_reducible apply settles_openRepair
    | with_reducible apply settles_setRepair
    | with_reducible apply settles_shipLost
    | split

theorem settles_repairFetched {s : State} (n idx : Nat) (a : ChunkAnswer) (hb : Settles s0 s) : Settles s0 (State.repairFetched s n idx a) := by
  unfold State.repairFetched
  try dsimp only
  repeat' first
    | with_reducible assumption
    | with_reducible apply settles_askRoom
    | with_reducible apply settles_leavePlaces
    | with_reducible apply settles_loseRepair
    | with_reducible apply settles_modChunk
    | with_reducible apply settles_progress
    | split
    | (simp only [settles_mk]; with_reducible refine settles_unfold ?_)

theorem settles_fixEnded {s : State} (n idx : Nat) (ok : Bool) (hb : Settles s0 s) : Settles s0 (State.fixEnded s n idx ok) := by
  unfold State.fixEnded
  repeat' first
    | with_reducible assumption
    | with_reducible apply settles_checkRepair
    | with_reducible apply settles_chunkOffsite
    | with_reducible apply settles_freeAllOf
    | with_reducible apply settles_freeSlotsIf
    | with_reducible apply settles_loseRepair
    | with_reducible apply settles_modChunk
    | with_reducible apply settles_modRepair
    | split

theorem settles_verifyEnded {s : State} (n : Nat) (cause : PullCause) (hb : Settles s0 s) : Settles s0 (State.verifyEnded s n cause) := by
  unfold State.verifyEnded
  try dsimp only
  repeat' first
    | with_reducible assumption
    | with_reducible apply settles_freeAllOf
    | with_reducible apply settles_leaveItem
    | with_reducible apply settles_modItem
    | with_reducible apply settles_requestRepair
    | with_reducible apply settles_setRepair
    | with_reducible apply settles_setVerified
    | split

theorem settles_checkFold {s : State} (f : Fold) (hb : Settles s0 s) : Settles s0 (State.checkFold s f) := by
  unfold State.checkFold
  repeat' first
    | with_reducible assumption
    | with_reducible apply settles_modPat
    | with_reducible apply settles_setVerified
    | split

theorem settles_endClearing {s : State} (hb : Settles s0 s) : Settles s0 (State.endClearing s) := by
  unfold State.endClearing
  repeat' first
    | with_reducible assumption
    | with_reducible apply settles_leaveItem
    | with_reducible apply settles_modPat
    | split
    | with_reducible refine settles_foldl _ _ (fun _ _ _ => ?_) ?_

theorem settles_checkRepairs {s : State} (hb : Settles s0 s) : Settles s0 (State.checkRepairs s) := by
  unfold State.checkRepairs
  try dsimp only
  repeat' first
    | with_reducible assumption
    | with_reducible apply settles_checkRepair
    | split
    | with_reducible refine settles_foldl _ _ (fun _ _ _ => ?_) ?_
    | with_reducible refine settles_iter _ _ (fun _ _ => ?_) ?_
    | (simp only [settles_mk]; with_reducible refine settles_unfold ?_)

theorem settles_settlePatrol {s : State} (hb : Settles s0 s) : Settles s0 (State.settlePatrol s) := by
  unfold State.settlePatrol
  try dsimp only
  repeat' first
    | with_reducible assumption
    | with_reducible apply settles_abandonIf
    | with_reducible apply settles_checkFold
    | with_reducible apply settles_checkRepairs
    | with_reducible apply settles_decideItem
    | with_reducible apply settles_endClearing
    | split
    | with_reducible refine settles_foldl _ _ (fun _ _ _ => ?_) ?_
    | (simp only [settles_mk]; with_reducible refine settles_unfold ?_)

theorem settles_settle {s : State} (hb : Settles s0 s) : Settles s0 (State.settle s) := by
  unfold State.settle
  repeat' first
    | with_reducible assumption
    | with_reducible apply settles_settleLink
    | with_reducible apply settles_settlePatrol

theorem settles_underflow {s : State} (person blocks : Nat) (link : Link) (hb : Settles s0 s) : Settles s0 (State.underflow s person blocks link) := by
  unfold State.underflow
  repeat' first
    | with_reducible assumption
    | with_reducible apply settles_raise
    | split

theorem settles_jobNotices {s : State} (j : Job) (h : Settles s0 s) : Settles s0 (s.jobNotices j) := by
  cases j <;> simp only [State.jobNotices] <;> (try split) <;>
    first | with_reducible exact h | with_reducible exact settles_underflow _ _ _ h

theorem settles_writeEdit {s : State} (id : Nat) (c : EditChanges) (hb : Settles s0 s) : Settles s0 (State.writeEdit s id c) := by
  unfold State.writeEdit
  repeat' first
    | with_reducible assumption
    | with_reducible apply settles_modPrin

theorem settles_modMembers {s : State} (pool : Nat) (f : Nat → Nat) (hb : Settles s0 s) : Settles s0 (State.modMembers s pool f) := by
  unfold State.modMembers
  repeat' first
    | with_reducible assumption
    | with_reducible apply settles_modPrin

theorem settles_moveCounts {s : State} (p : Principal) (id : Nat) (c : EditChanges) (hb : Settles s0 s) : Settles s0 (State.moveCounts s p id c) := by
  unfold State.moveCounts
  repeat' first
    | with_reducible assumption
    | with_reducible apply settles_memberUnsettled
    | with_reducible apply settles_modMembers
    | with_reducible apply settles_modPrin
    | split
    | with_reducible refine settles_foldl _ _ (fun _ _ _ => ?_) ?_

theorem settles_deletePrincipal {s : State} (id : Nat) (hb : Settles s0 s) : Settles s0 (State.deletePrincipal s id) := by
  unfold State.deletePrincipal
  repeat' first
    | with_reducible assumption
    | with_reducible apply settles_leaveGraceQueue
    | with_reducible apply settles_modMembers
    | split
    | with_reducible refine settles_foldl _ _ (fun _ _ _ => ?_) ?_
    | (simp only [settles_mk]; with_reducible refine settles_unfold ?_)

theorem settles_regatherIf {s : State} (again : TallyOp → Bool) (hb : Settles s0 s) : Settles s0 (State.regatherIf s again) := by
  unfold State.regatherIf
  try dsimp only
  repeat' first
    | with_reducible assumption
    | split
    | (simp only [settles_mk]; with_reducible refine settles_unfold ?_)

theorem settles_regather {s : State} (id : Nat) (hb : Settles s0 s) : Settles s0 (State.regather s id) := by
  unfold State.regather
  try dsimp only
  repeat' first
    | with_reducible assumption
    | with_reducible apply settles_regatherIf
    | split
    | (simp only [settles_mk]; with_reducible refine settles_unfold ?_)

theorem settles_jobRecords {s : State} (j : Job) (h : Settles s0 s) : Settles s0 (s.jobRecords j) := by
  cases j <;> simp only [State.jobRecords] <;> (try split) <;>
    first
    | with_reducible exact h
    | with_reducible exact settles_foldl _ _ (fun _ _ h => settles_modPrin _ _ h) h
    | (split
       · with_reducible exact settles_regather _ (settles_writeEdit _ _ (settles_moveCounts _ _ _ h))
       · with_reducible exact settles_writeEdit _ _ (settles_moveCounts _ _ _ h))
    | with_reducible exact settles_regather _ (settles_deletePrincipal _ h)

theorem settles_jobApplied {s : State} (o : TallyOp) (ho : o.job.runsAtOnce = true) (h : Settles s0 s) :
    Settles s0 (s.jobApplied o) := by
  unfold State.jobApplied
  split <;> simp_all [Job.runsAtOnce]

theorem settles_completeOp {s : State} (num : Nat) (hb : Settles s0 s) : Settles s0 (State.completeOp s num) := by
  unfold State.completeOp
  repeat' first
    | with_reducible assumption
    | with_reducible apply settles_dropOp
    | with_reducible apply settles_modOp
    | with_reducible apply settles_reply
    | split

theorem settles_applyOp {s : State} (num : Nat) (ho : ∀ o, s.op num = some o → o.job.runsAtOnce = true)
    (h : Settles s0 s) : Settles s0 (s.applyOp num) := by
  unfold State.applyOp
  split
  · exact h
  · rename_i o he
    dsimp only
    have h1 := settles_applyChanges num o.job.settled (s.changesOf o)
      (settles_jobRecords o.job (settles_jobNotices o.job h))
    refine settles_completeOp _ (settles_jobApplied _ (ho o he) (settles_releaseLines _ _ (settles_modOp _ _
      (settles_foldl _ _ (fun _ _ h => settles_beginRecount _ h) (settles_evalGraceAll _ ?_)))))
    exact h1

theorem ops_expire (s : State) (id : Nat) : (s.expire id).tally.ops = s.tally.ops := by
  unfold State.expire
  split
  · rfl
  · split
    · have hq : ∀ (ls : List Link) (b : NoticeBody) (n : Notice) (s : State), (State.queueTo b n ls s).tally = s.tally := by
        intro ls
        induction ls with
        | nil => intros; rfl
        | cons l ls ih =>
          intro b n s
          unfold State.queueTo
          rw [ih]
          split <;> rfl
      simp [State.raise, hq, State.setGrace, State.leaveGraceQueue]
    · rfl
theorem ops_lazyExpireAll (s : State) (ids : List Nat) : (s.lazyExpireAll ids).tally.ops = s.tally.ops := by
  unfold State.lazyExpireAll
  induction ids generalizing s with
  | nil => rfl
  | cons i t ih =>
    rw [List.foldl_cons, ih]
    unfold State.lazyExpire
    split
    · exact ops_expire s i
    · rfl
theorem settles_runOp {s : State} (num : Nat) (ho : ∀ o, s.op num = some o → o.job.runsAtOnce = true)
    (h : Settles s0 s) : Settles s0 (s.runOp num) := by
  have key : ∀ (ids : List Nat) (o : TallyOp), Settles s0 (
      if ((s.lazyExpireAll ids).marksFor o.job.settled ((s.lazyExpireAll ids).changesOf o)).isEmpty = true then
        (s.lazyExpireAll ids).applyOp num
      else (s.lazyExpireAll ids).modOp num fun o => { o with stage := .marking }) := by
    intro ids o
    split
    · refine settles_applyOp _ (fun o he => ho o ?_) (settles_lazyExpireAll _ h)
      simpa [State.op, ops_lazyExpireAll] using he
    · exact settles_modOp _ _ (settles_lazyExpireAll _ h)
  unfold State.runOp
  split
  · exact h
  · exact key _ _

theorem settles_setFrozen {s : State} (id : Nat) (b : Bool) (hb : Settles s0 s) : Settles s0 (State.setFrozen s id b) := by
  unfold State.setFrozen
  repeat' first
    | with_reducible assumption
    | with_reducible apply settles_modPrin

theorem settles_advanceOp {s : State} (num : Nat) (h : Settles s0 s) : Settles s0 (s.advanceOp num) := by
  unfold State.advanceOp
  dsimp only
  split
  · exact settles_gather _ h
  · rename_i o he
    split
    · rename_i hr
      split
      · exact settles_reply _ _ _ _ (settles_dropOp _ (settles_releaseLines _ _ (settles_gather _ h)))
      · refine settles_runOp _ (fun o' he' => ?_) (settles_gather _ h)
        rw [he] at he'
        cases he'
        exact hr.2
    · exact settles_gather _ h

theorem settles_advanceOps {s : State} (hb : Settles s0 s) : Settles s0 (State.advanceOps s) := by
  unfold State.advanceOps
  repeat' first
    | with_reducible assumption
    | with_reducible apply settles_advanceOp
    | with_reducible refine settles_foldl _ _ (fun _ _ _ => ?_) ?_

theorem settles_endModeSwitch {s : State} (hb : Settles s0 s) : Settles s0 (State.endModeSwitch s) := by
  unfold State.endModeSwitch
  try dsimp only
  repeat' first
    | with_reducible assumption
    | with_reducible apply settles_reply
    | split
    | with_reducible refine settles_foldl _ _ (fun _ _ _ => ?_) ?_
    | (simp only [settles_mk]; with_reducible refine settles_unfold ?_)

theorem settles_advance {s : State} (hb : Settles s0 s) : Settles s0 (State.advance s) := by
  unfold State.advance
  try dsimp only
  repeat' first
    | with_reducible assumption
    | with_reducible apply settles_advanceOps
    | with_reducible apply settles_castoutDirty
    | with_reducible apply settles_endModeSwitch
    | with_reducible apply settles_takePosting
    | split
    | with_reducible refine settles_iter _ _ (fun _ _ => ?_) ?_
    | (simp only [settles_mk]; with_reducible refine settles_unfold ?_)

theorem settles_foldEqual {s : State} (p : ShipPull) (idx : Nat) (hb : Settles s0 s) : Settles s0 (State.foldEqual s p idx) := by
  unfold State.foldEqual
  repeat' first
    | with_reducible assumption
    | with_reducible apply settles_modPat

theorem settles_reportMismatch {s : State} (p : ShipPull) (idx : Nat) (hb : Settles s0 s) : Settles s0 (State.reportMismatch s p idx) := by
  unfold State.reportMismatch
  repeat' first
    | with_reducible assumption
    | with_reducible apply settles_modPat
    | with_reducible apply settles_requestRepair

theorem settles_withhold {s : State} (p : ShipPull) (e : ShipEntry) (hb : Settles s0 s) : Settles s0 (State.withhold s p e) := by
  unfold State.withhold
  repeat' first
    | with_reducible assumption
    | with_reducible apply settles_cancelRuns
    | with_reducible apply settles_modEntry
    | with_reducible apply settles_reportMismatch
    | split
    | ((with_reducible refine settles_modOff _ ?_ ?_); exact fun _ _ ho => ho)

theorem settles_shipEqual {s : State} (p : ShipPull) (e : ShipEntry) (n : Nat) (hb : Settles s0 s) : Settles s0 (State.shipEqual s p e n) := by
  unfold State.shipEqual
  repeat' first
    | with_reducible assumption
    | with_reducible apply settles_freeSlot
    | with_reducible apply settles_makeFull
    | with_reducible apply settles_modEntry
    | with_reducible apply settles_takeBack
    | split

theorem settles_shipChunk {s : State} (num idx : Nat) (data : List Byte) (hb : Settles s0 s) : Settles s0 (State.shipChunk s num idx data) := by
  unfold State.shipChunk
  try dsimp only
  repeat' first
    | with_reducible assumption
    | with_reducible apply settles_fill
    | with_reducible apply settles_foldEqual
    | with_reducible apply settles_freeSlot
    | with_reducible apply settles_shipEqual
    | with_reducible apply settles_withhold
    | split

theorem settles_verifyChunk {s : State} (i idx : Nat) (data : List Byte) (hb : Settles s0 s) : Settles s0 (State.verifyChunk s i idx data) := by
  unfold State.verifyChunk
  repeat' first
    | with_reducible assumption
    | with_reducible apply settles_modItem
    | split
    | (simp only [settles_mk]; with_reducible refine settles_unfold ?_)

theorem settles_notReceived {s : State} (p : ShipPull) (cause : PullCause) (e : ShipEntry) (hb : Settles s0 s) : Settles s0 (State.notReceived s p cause e) := by
  unfold State.notReceived
  repeat' first
    | with_reducible assumption
    | with_reducible apply settles_modEntry
    | with_reducible apply settles_withhold
    | split

theorem settles_finish {s : State} (hb : Settles s0 s) : Settles s0 (State.finish s) := by
  unfold State.finish
  repeat' first
    | with_reducible assumption
    | with_reducible apply settles_advance
    | with_reducible apply settles_settle
    | split

theorem settles_drain {s : State} (hb : Settles s0 s) : Settles s0 (State.drain s) := by
  unfold State.drain
  repeat' first
    | with_reducible assumption
    | with_reducible apply settles_storeClean
    | split

end Sys2Proof.Machine
end

