-- ==== Sys2Proof/Laws/TallyKept.lean ====
section
/-! SUPPORT. The Tally Unit's part left alone: one lemma for each operation of the other blocks that runs
after a step; and with nothing to go on with, `finish` is the settling of the offsite link. -/

namespace Sys2Proof.Machine

theorem tallyKept_mk (ta : Tally) (u ls t c r st o p pe se) : ((State.mk u ls t c r st o p pe se).tally = ta) = (t = ta) := rfl

variable {ta : Tally}

theorem tallyKept_foldl {α : Type} (f : State → α → State) (xs : List α) {s : State}
    (hf : ∀ s x, s.tally = ta → (f s x).tally = ta) (h : s.tally = ta) : (xs.foldl f s).tally = ta := by
  induction xs generalizing s with
  | nil => exact h
  | cons x xs ih => exact ih (hf s x h)
theorem tallyKept_iter (n : Nat) (f : State → State) {s : State}
    (hf : ∀ s, s.tally = ta → (f s).tally = ta) (h : s.tally = ta) : (iter n f s).tally = ta := by
  induction n generalizing s with
  | zero => exact h
  | succ n ih => exact ih (hf s h)
theorem tallyKept_modLink {s : State} (l : Link) (f : LinkRec → LinkRec) (h : s.tally = ta) : (s.modLink l f).tally = ta := h
theorem tallyKept_modSup {s : State} (f : Supervisor → Supervisor) (h : s.tally = ta) : (s.modSup f).tally = ta := h
theorem tallyKept_modOff {s : State} (f : Offsite → Offsite) (h : s.tally = ta) : (s.modOff f).tally = ta := h
theorem tallyKept_modPat {s : State} (f : Patrol → Patrol) (h : s.tally = ta) : (s.modPat f).tally = ta := h
theorem tallyKept_modRst {s : State} (f : RestoreEngine → RestoreEngine) (h : s.tally = ta) : (s.modRst f).tally = ta := h
theorem tallyKept_modPlan {s : State} (vol : Nat) (f : PlanVol → PlanVol) (h : s.tally = ta) : (s.modPlan vol f).tally = ta := h
theorem tallyKept_modEntry {s : State} (n : Nat) (f : ShipEntry → ShipEntry) (h : s.tally = ta) : (s.modEntry n f).tally = ta := h
theorem tallyKept_modItem {s : State} (n : Nat) (f : WorkItem → WorkItem) (h : s.tally = ta) : (s.modItem n f).tally = ta := h
theorem tallyKept_modRepair {s : State} (n : Nat) (f : Repair → Repair) (h : s.tally = ta) : (s.modRepair n f).tally = ta := h
theorem tallyKept_modVolume {s : State} (vol : Nat) (f : Volume → Volume) (h : s.tally = ta) : (s.modVolume vol f).tally = ta := h
theorem tallyKept_setExtent {s : State} (vol ext : Nat) (e : Extent) (h : s.tally = ta) : (s.setExtent vol ext e).tally = ta := h
theorem tallyKept_modSnapshot {s : State} (vol gen : Nat) (f : Snapshot → Snapshot) (h : s.tally = ta) : (s.modSnapshot vol gen f).tally = ta := h
theorem tallyKept_setDues {s : State} (vol : Nat) (d : Dues) (h : s.tally = ta) : (s.setDues vol d).tally = ta := h
theorem tallyKept_modRestore {s : State} (rec : Nat) (f : Restore → Restore) (h : s.tally = ta) : (s.modRestore rec f).tally = ta := h
theorem tallyKept_modStep {s : State} (rec i : Nat) (f : Step → Step) (h : s.tally = ta) : (s.modStep rec i f).tally = ta := h
theorem tallyKept_modSlot {s : State} (n : Nat) (f : Slot → Slot) (h : s.tally = ta) : (s.modSlot n f).tally = ta := h
theorem tallyKept_freeSlot {s : State} (n : Nat) (h : s.tally = ta) : (s.freeSlot n).tally = ta := h
theorem tallyKept_freeSlotsIf {s : State} (p : Slot → Bool) (h : s.tally = ta) : (s.freeSlotsIf p).tally = ta := h
theorem tallyKept_send {s : State} (o : Output) (h : s.tally = ta) : (s.send o).tally = ta := h

theorem tallyKept_queueTo {s : State} (b : NoticeBody) (n : Notice) (ls : List Link) (h : s.tally = ta) :
    (State.queueTo b n ls s).tally = ta := by
  induction ls generalizing s with
  | nil => exact h
  | cons l ls ih =>
    unfold State.queueTo
    refine ih ?_
    split
    · exact h
    · exact h

theorem tallyKept_raise {s : State} (b : NoticeBody) (hb : s.tally = ta) : (State.raise s b).tally = ta := by
  unfold State.raise
  repeat' first
    | with_reducible assumption
    | with_reducible apply tallyKept_queueTo
    | with_reducible apply tallyKept_modSup

theorem tallyKept_busy {s : State} (l : Link) (hb : s.tally = ta) : (State.busy s l).tally = ta := by
  unfold State.busy
  repeat' first
    | with_reducible assumption
    | with_reducible apply tallyKept_modLink

theorem tallyKept_restartIdle {s : State} (l : Link) (hb : s.tally = ta) : (State.restartIdle s l).tally = ta := by
  unfold State.restartIdle
  repeat' first
    | with_reducible assumption
    | with_reducible apply tallyKept_modLink

theorem tallyKept_replyAtOnce {s : State} (l : Link) (tag : Nat) (k : ReqKind) (st : Status) (hb : s.tally = ta) : (State.replyAtOnce s l tag k st).tally = ta := by
  unfold State.replyAtOnce
  repeat' first
    | with_reducible assumption
    | with_reducible apply tallyKept_modLink

theorem tallyKept_reply {s : State} (l : Link) (req : Nat) (st : Status) (body : ReplyBody) (hb : s.tally = ta) : (State.reply s l req st body).tally = ta := by
  unfold State.reply
  repeat' first
    | with_reducible assumption
    | with_reducible apply tallyKept_restartIdle
    | with_reducible apply tallyKept_modLink

theorem tallyKept_handNotice {s : State} (l : Link) (b : DirBody) (hb : s.tally = ta) : (State.handNotice s l b).tally = ta := by
  unfold State.handNotice
  repeat' first
    | with_reducible assumption
    | with_reducible apply tallyKept_busy
    | with_reducible apply tallyKept_modLink

theorem tallyKept_handDirective {s : State} (l : Link) (k : DirKind) (who : Issuer) (refs : List (Nat × Nat × Nat)) (b : DirBody) (chunks : List (Nat × Nat)) (hb : s.tally = ta) : (State.handDirective s l k who refs b chunks).tally = ta := by
  unfold State.handDirective
  repeat' first
    | with_reducible assumption
    | with_reducible apply tallyKept_busy
    | with_reducible apply tallyKept_modLink

theorem tallyKept_waitPlace {s : State} (l : Link) (who : Issuer) (hb : s.tally = ta) : (State.waitPlace s l who).tally = ta := by
  unfold State.waitPlace
  repeat' first
    | with_reducible assumption
    | with_reducible apply tallyKept_modLink

theorem tallyKept_leavePlaces {s : State} (who : Issuer) (hb : s.tally = ta) : (State.leavePlaces s who).tally = ta := by
  unfold State.leavePlaces
  repeat' first
    | with_reducible assumption
    | with_reducible refine tallyKept_foldl _ _ (fun _ _ _ => ?_) ?_
    | with_reducible apply tallyKept_modLink

theorem tallyKept_endDirective {s : State} (l : Link) (tag : Nat) (hb : s.tally = ta) : (State.endDirective s l tag).tally = ta := by
  unfold State.endDirective
  repeat' first
    | with_reducible assumption
    | with_reducible apply tallyKept_restartIdle
    | with_reducible apply tallyKept_modLink

theorem tallyKept_flushReclaim {s : State} (hb : s.tally = ta) : (State.flushReclaim s).tally = ta := by
  unfold State.flushReclaim
  repeat' first
    | with_reducible assumption
    | with_reducible apply tallyKept_handNotice
    | split

theorem tallyKept_flushReclaims {s : State} (hb : s.tally = ta) : (State.flushReclaims s).tally = ta := by
  unfold State.flushReclaims
  repeat' first
    | with_reducible assumption
    | with_reducible apply tallyKept_flushReclaim
    | with_reducible refine tallyKept_iter _ _ (fun _ _ => ?_) ?_

theorem tallyKept_sendReclaim {s : State} (vol ext loc : Nat) (hb : s.tally = ta) : (State.sendReclaim s vol ext loc).tally = ta := by
  unfold State.sendReclaim
  repeat' first
    | with_reducible assumption
    | with_reducible apply tallyKept_handNotice
    | split

theorem tallyKept_sendCutDue {s : State} (vol : Nat) (nightly : Bool) (hb : s.tally = ta) : (State.sendCutDue s vol nightly).tally = ta := by
  unfold State.sendCutDue
  repeat' first
    | with_reducible assumption
    | with_reducible apply tallyKept_handNotice
    | split
    | with_reducible apply tallyKept_setDues

theorem tallyKept_openDue {s : State} (nightly : Bool) (vol : Nat) (hb : s.tally = ta) : (State.openDue s nightly vol).tally = ta := by
  unfold State.openDue
  repeat' first
    | with_reducible assumption
    | with_reducible apply tallyKept_sendCutDue
    | with_reducible apply tallyKept_setDues

theorem tallyKept_closeDue {s : State} (nightly : Bool) (vol : Nat) (hb : s.tally = ta) : (State.closeDue s nightly vol).tally = ta := by
  unfold State.closeDue
  repeat' first
    | with_reducible assumption
    | with_reducible apply tallyKept_setDues

theorem tallyKept_unsendDues {s : State} (l : Link) (hb : s.tally = ta) : (State.unsendDues s l).tally = ta := by
  unfold State.unsendDues
  with_reducible assumption

theorem tallyKept_sendDues {s : State} (l : Link) (hb : s.tally = ta) : (State.sendDues s l).tally = ta := by
  unfold State.sendDues
  repeat' first
    | with_reducible assumption
    | with_reducible apply tallyKept_sendCutDue
    | with_reducible refine tallyKept_foldl _ _ (fun _ _ _ => ?_) ?_

theorem tallyKept_arrive {s : State} (l : Link) (hb : s.tally = ta) : (State.arrive s l).tally = ta := by
  unfold State.arrive
  try dsimp only
  repeat' first
    | with_reducible assumption
    | with_reducible apply tallyKept_busy
    | with_reducible apply tallyKept_flushReclaims
    | with_reducible apply tallyKept_sendDues
    | split
    | with_reducible apply tallyKept_modLink

theorem tallyKept_startExpiry {s : State} (vol gen : Nat) (hb : s.tally = ta) : (State.startExpiry s vol gen).tally = ta := by
  unfold State.startExpiry
  repeat' first
    | with_reducible assumption
    | with_reducible apply tallyKept_modSnapshot

theorem tallyKept_retainOnce (vol : Nat) (k : SnapKind) {s : State} (hb : s.tally = ta) : (State.retainOnce vol k s).tally = ta := by
  unfold State.retainOnce
  repeat' first
    | with_reducible assumption
    | with_reducible apply tallyKept_startExpiry
    | split

theorem tallyKept_retain {s : State} (vol : Nat) (k : SnapKind) (hb : s.tally = ta) : (State.retain s vol k).tally = ta := by
  unfold State.retain
  repeat' first
    | with_reducible assumption
    | with_reducible apply tallyKept_retainOnce
    | with_reducible refine tallyKept_iter _ _ (fun _ _ => ?_) ?_

theorem tallyKept_takePin {s : State} (vol gen : Nat) (ship : Bool) (hb : s.tally = ta) : (State.takePin s vol gen ship).tally = ta := by
  unfold State.takePin
  repeat' first
    | with_reducible assumption
    | with_reducible apply tallyKept_modSnapshot

theorem tallyKept_dropPin {s : State} (vol gen : Nat) (ship : Bool) (hb : s.tally = ta) : (State.dropPin s vol gen ship).tally = ta := by
  unfold State.dropPin
  repeat' first
    | with_reducible assumption
    | with_reducible apply tallyKept_retain
    | split
    | with_reducible apply tallyKept_modSnapshot

theorem tallyKept_countThinned {s : State} (vol : Nat) (v : Version) (hb : s.tally = ta) : (State.countThinned s vol v).tally = ta := by
  unfold State.countThinned
  repeat' first
    | with_reducible assumption
    | split
    | with_reducible refine tallyKept_foldl _ _ (fun _ _ _ => ?_) ?_
    | with_reducible apply tallyKept_modSnapshot

theorem tallyKept_applyCommit {s : State} (vol ext owner : Nat) (p : CommitPlan) (hb : s.tally = ta) : (State.applyCommit s vol ext owner p).tally = ta := by
  unfold State.applyCommit
  repeat' first
    | with_reducible assumption
    | with_reducible apply tallyKept_countThinned
    | with_reducible apply tallyKept_flushReclaims
    | split
    | with_reducible apply tallyKept_setExtent

theorem tallyKept_decRef {s : State} (vol ext loc : Nat) (hb : s.tally = ta) : (State.decRef s vol ext loc).tally = ta := by
  unfold State.decRef
  try dsimp only
  repeat' first
    | with_reducible assumption
    | with_reducible apply tallyKept_flushReclaims
    | split
    | with_reducible apply tallyKept_modVolume
    | with_reducible apply tallyKept_setExtent

theorem tallyKept_decRefs {s : State} (refs : List (Nat × Nat × Nat)) (hb : s.tally = ta) : (State.decRefs s refs).tally = ta := by
  unfold State.decRefs
  repeat' first
    | with_reducible assumption
    | with_reducible apply tallyKept_decRef
    | with_reducible refine tallyKept_foldl _ _ (fun _ _ _ => ?_) ?_

theorem tallyKept_lockRange {s : State} (rid vol first count : Nat) (hb : s.tally = ta) : (State.lockRange s rid vol first count).tally = ta := by
  unfold State.lockRange
  repeat' first
    | with_reducible assumption
    | with_reducible refine tallyKept_foldl _ _ (fun _ _ _ => ?_) ?_
    | with_reducible apply tallyKept_setExtent

theorem tallyKept_unlock {s : State} (vol ext rid : Nat) (hb : s.tally = ta) : (State.unlock s vol ext rid).tally = ta := by
  unfold State.unlock
  repeat' first
    | with_reducible assumption
    | split
    | with_reducible apply tallyKept_setExtent

theorem tallyKept_changeVersion {s : State} (vol ext birth : Nat) (p : Version → Bool) (f : Version → Version) (hb : s.tally = ta) : (State.changeVersion s vol ext birth p f).tally = ta := by
  unfold State.changeVersion
  repeat' first
    | with_reducible assumption
    | split
    | with_reducible apply tallyKept_setExtent

theorem tallyKept_setShipped {s : State} (vol ext birth : Nat) (hb : s.tally = ta) : (State.setShipped s vol ext birth).tally = ta := by
  unfold State.setShipped
  repeat' first
    | with_reducible assumption
    | with_reducible apply tallyKept_changeVersion

theorem tallyKept_setVerified {s : State} (vol ext birth loc : Nat) (hb : s.tally = ta) : (State.setVerified s vol ext birth loc).tally = ta := by
  unfold State.setVerified
  repeat' first
    | with_reducible assumption
    | with_reducible apply tallyKept_changeVersion

theorem tallyKept_writeRepair {s : State} (vol ext birth loc : Nat) (st : RepairState) (hb : s.tally = ta) : (State.writeRepair s vol ext birth loc st).tally = ta := by
  unfold State.writeRepair
  repeat' first
    | with_reducible assumption
    | with_reducible apply tallyKept_changeVersion

theorem tallyKept_setWaiting {s : State} (c : SlotClass) (q : List SlotReq) (hb : s.tally = ta) : (State.setWaiting s c q).tally = ta := by
  unfold State.setWaiting
  repeat' first
    | with_reducible assumption
    | split

theorem tallyKept_grantSlot (c : SlotClass) (h : SlotHolder) {s : State} (w : Nat × Code) (hb : s.tally = ta) : (State.grantSlot c h s w).tally = ta := by
  unfold State.grantSlot
  with_reducible assumption

theorem tallyKept_grant {s : State} (c : SlotClass) (r : SlotReq) (hb : s.tally = ta) : (State.grant s c r).tally = ta := by
  unfold State.grant
  repeat' first
    | with_reducible assumption
    | with_reducible apply tallyKept_grantSlot
    | split
    | with_reducible refine tallyKept_foldl _ _ (fun _ _ _ => ?_) ?_
    | with_reducible apply tallyKept_modItem

theorem tallyKept_enqueue {s : State} (c : SlotClass) (r : SlotReq) (hb : s.tally = ta) : (State.enqueue s c r).tally = ta := by
  unfold State.enqueue
  repeat' first
    | with_reducible assumption
    | with_reducible apply tallyKept_setWaiting
    | split

theorem tallyKept_considerOnce {s : State} (hb : s.tally = ta) : (State.considerOnce s).tally = ta := by
  unfold State.considerOnce
  repeat' first
    | with_reducible assumption
    | with_reducible apply tallyKept_grant
    | with_reducible apply tallyKept_setWaiting
    | split

theorem tallyKept_consider {s : State} (hb : s.tally = ta) : (State.consider s).tally = ta := by
  unfold State.consider
  repeat' first
    | with_reducible assumption
    | with_reducible apply tallyKept_considerOnce
    | with_reducible refine tallyKept_iter _ _ (fun _ _ => ?_) ?_

theorem tallyKept_handBack {s : State} (n : Nat) (hb : s.tally = ta) : (State.handBack s n).tally = ta := by
  unfold State.handBack
  repeat' first
    | with_reducible assumption
    | with_reducible apply tallyKept_freeSlot

theorem tallyKept_freeFullShip {s : State} (hb : s.tally = ta) : (State.freeFullShip s).tally = ta := by
  unfold State.freeFullShip
  try dsimp only
  repeat' first
    | with_reducible assumption
    | with_reducible apply tallyKept_handBack
    | split
    | with_reducible refine tallyKept_foldl _ _ (fun _ _ _ => ?_) ?_
    | (simp only [tallyKept_mk]; with_reducible assumption)

theorem tallyKept_takeBackOnce {s : State} (hb : s.tally = ta) : (State.takeBackOnce s).tally = ta := by
  unfold State.takeBackOnce
  repeat' first
    | with_reducible assumption
    | with_reducible apply tallyKept_consider
    | with_reducible apply tallyKept_handBack
    | split

theorem tallyKept_takeBack {s : State} (hb : s.tally = ta) : (State.takeBack s).tally = ta := by
  unfold State.takeBack
  repeat' first
    | with_reducible assumption
    | with_reducible apply tallyKept_takeBackOnce
    | with_reducible refine tallyKept_iter _ _ (fun _ _ => ?_) ?_

theorem tallyKept_askSlots {s : State} (c : SlotClass) (r : SlotReq) (hb : s.tally = ta) : (State.askSlots s c r).tally = ta := by
  unfold State.askSlots
  repeat' first
    | with_reducible assumption
    | with_reducible apply tallyKept_enqueue
    | with_reducible apply tallyKept_grant
    | with_reducible apply tallyKept_takeBack
    | split

theorem tallyKept_withdrawAsk {s : State} (h : SlotHolder) (hb : s.tally = ta) : (State.withdrawAsk s h).tally = ta := by
  unfold State.withdrawAsk
  with_reducible assumption

theorem tallyKept_freeHolder {s : State} (h : SlotHolder) (hb : s.tally = ta) : (State.freeHolder s h).tally = ta := by
  unfold State.freeHolder
  repeat' first
    | with_reducible assumption
    | with_reducible apply tallyKept_freeSlotsIf

theorem tallyKept_freeAllOf {s : State} (h : SlotHolder) (hb : s.tally = ta) : (State.freeAllOf s h).tally = ta := by
  unfold State.freeAllOf
  repeat' first
    | with_reducible assumption
    | with_reducible apply tallyKept_freeSlotsIf

theorem tallyKept_setSlots {s : State} (ns : List Nat) (st : SlotState) (hb : s.tally = ta) : (State.setSlots s ns st).tally = ta := by
  unfold State.setSlots
  repeat' first
    | with_reducible assumption
    | with_reducible refine tallyKept_foldl _ _ (fun _ _ _ => ?_) ?_
    | with_reducible apply tallyKept_modSlot

theorem tallyKept_fill {s : State} (n : Nat) (data : List Byte) (hb : s.tally = ta) : (State.fill s n data).tally = ta := by
  unfold State.fill
  repeat' first
    | with_reducible assumption
    | with_reducible apply tallyKept_modSlot

theorem tallyKept_makeFull {s : State} (n : Nat) (hb : s.tally = ta) : (State.makeFull s n).tally = ta := by
  unfold State.makeFull
  repeat' first
    | with_reducible assumption
    | with_reducible apply tallyKept_modSlot

theorem tallyKept_startOpening {s : State} (hb : s.tally = ta) : (State.startOpening s).tally = ta := by
  unfold State.startOpening
  repeat' first
    | with_reducible assumption
    | with_reducible apply tallyKept_modOff
    | with_reducible apply tallyKept_send

theorem tallyKept_askOpening {s : State} (hb : s.tally = ta) : (State.askOpening s).tally = ta := by
  unfold State.askOpening
  repeat' first
    | with_reducible assumption
    | with_reducible apply tallyKept_startOpening
    | split

theorem tallyKept_leaveUp {s : State} (hb : s.tally = ta) : (State.leaveUp s).tally = ta := by
  unfold State.leaveUp
  with_reducible assumption

theorem tallyKept_closeLink {s : State} (hb : s.tally = ta) : (State.closeLink s).tally = ta := by
  unfold State.closeLink
  repeat' first
    | with_reducible assumption
    | with_reducible apply tallyKept_leaveUp
    | with_reducible apply tallyKept_modOff
    | with_reducible apply tallyKept_send

theorem tallyKept_freeFilling {s : State} (e : FetchEntry) (hb : s.tally = ta) : (State.freeFilling s e).tally = ta := by
  unfold State.freeFilling
  repeat' first
    | with_reducible assumption
    | split
    | with_reducible apply tallyKept_freeSlotsIf

theorem tallyKept_giveBack {s : State} (f : OutFrame) (hb : s.tally = ta) : (State.giveBack s f).tally = ta := by
  unfold State.giveBack
  try dsimp only
  repeat' first
    | with_reducible assumption
    | with_reducible apply tallyKept_freeFilling
    | split
    | with_reducible apply tallyKept_modOff
    | with_reducible apply tallyKept_modEntry
    | with_reducible apply tallyKept_freeSlot

theorem tallyKept_giveBackAll (ahead : Bool) {s : State} (hb : s.tally = ta) : (State.giveBackAll ahead s).tally = ta := by
  unfold State.giveBackAll
  repeat' first
    | with_reducible assumption
    | with_reducible apply tallyKept_giveBack
    | with_reducible refine tallyKept_foldl _ _ (fun _ _ _ => ?_) ?_
    | with_reducible apply tallyKept_modOff
    | with_reducible apply tallyKept_freeSlotsIf

theorem tallyKept_fault {s : State} (cause : FaultCause) (hb : s.tally = ta) : (State.fault s cause).tally = ta := by
  unfold State.fault
  repeat' first
    | with_reducible assumption
    | with_reducible apply tallyKept_giveBackAll
    | with_reducible apply tallyKept_leaveUp
    | with_reducible apply tallyKept_raise
    | with_reducible apply tallyKept_modOff

theorem tallyKept_chooseDir {s : State} (hb : s.tally = ta) : (State.chooseDir s).tally = ta := by
  unfold State.chooseDir
  repeat' first
    | with_reducible assumption
    | with_reducible apply tallyKept_modOff

theorem tallyKept_redirectOnce {s : State} (hb : s.tally = ta) : (State.redirectOnce s).tally = ta := by
  unfold State.redirectOnce
  try dsimp only
  repeat' first
    | with_reducible assumption
    | with_reducible apply tallyKept_chooseDir
    | with_reducible apply tallyKept_closeLink
    | split
    | with_reducible apply tallyKept_modOff

theorem tallyKept_redirect {s : State} (hb : s.tally = ta) : (State.redirect s).tally = ta := by
  unfold State.redirect
  repeat' first
    | with_reducible assumption
    | with_reducible apply tallyKept_redirectOnce
    | with_reducible refine tallyKept_iter _ _ (fun _ _ => ?_) ?_

theorem tallyKept_endBurst {s : State} (hb : s.tally = ta) : (State.endBurst s).tally = ta := by
  unfold State.endBurst
  repeat' first
    | with_reducible assumption
    | split
    | with_reducible apply tallyKept_modOff

theorem tallyKept_markRest {s : State} (hb : s.tally = ta) : (State.markRest s).tally = ta := by
  unfold State.markRest
  repeat' first
    | with_reducible assumption
    | with_reducible apply tallyKept_modOff

theorem tallyKept_placeFetch {s : State} (es : List FetchEntry) (atHead : Bool) (hb : s.tally = ta) : (State.placeFetch s es atHead).tally = ta := by
  unfold State.placeFetch
  repeat' first
    | with_reducible assumption
    | with_reducible apply tallyKept_askOpening
    | with_reducible apply tallyKept_modOff

theorem tallyKept_askRoom {s : State} (h : FetchHolder) (es : List FetchEntry) (atHead : Bool) (hb : s.tally = ta) : (State.askRoom s h es atHead).tally = ta := by
  unfold State.askRoom
  repeat' first
    | with_reducible assumption
    | with_reducible apply tallyKept_placeFetch
    | split
    | with_reducible apply tallyKept_modOff

theorem tallyKept_serveRoomOnce {s : State} (hb : s.tally = ta) : (State.serveRoomOnce s).tally = ta := by
  unfold State.serveRoomOnce
  repeat' first
    | with_reducible assumption
    | with_reducible apply tallyKept_placeFetch
    | split
    | with_reducible apply tallyKept_modOff

theorem tallyKept_serveRoom {s : State} (hb : s.tally = ta) : (State.serveRoom s).tally = ta := by
  unfold State.serveRoom
  repeat' first
    | with_reducible assumption
    | with_reducible apply tallyKept_serveRoomOnce
    | with_reducible refine tallyKept_iter _ _ (fun _ _ => ?_) ?_

theorem tallyKept_withdrawFetch {s : State} (h : FetchHolder) (hb : s.tally = ta) : (State.withdrawFetch s h).tally = ta := by
  unfold State.withdrawFetch
  repeat' first
    | with_reducible assumption
    | with_reducible apply tallyKept_withdrawAsk
    | with_reducible apply tallyKept_modOff

theorem tallyKept_clearShed {s : State} (hb : s.tally = ta) : (State.clearShed s).tally = ta := by
  unfold State.clearShed
  repeat' first
    | with_reducible assumption
    | with_reducible apply tallyKept_modOff

theorem tallyKept_settleLink {s : State} (hb : s.tally = ta) : (State.settleLink s).tally = ta := by
  unfold State.settleLink
  repeat' first
    | with_reducible assumption
    | with_reducible apply tallyKept_clearShed
    | with_reducible apply tallyKept_markRest
    | with_reducible apply tallyKept_redirect
    | with_reducible apply tallyKept_serveRoom

theorem tallyKept_progress {s : State} (hb : s.tally = ta) : (State.progress s).tally = ta := by
  unfold State.progress
  repeat' first
    | with_reducible assumption
    | with_reducible apply tallyKept_modOff

theorem tallyKept_joinList {s : State} (f : OutFrame) (hb : s.tally = ta) : (State.joinList s f).tally = ta := by
  unfold State.joinList
  repeat' first
    | with_reducible assumption
    | with_reducible apply tallyKept_progress
    | split
    | with_reducible apply tallyKept_modOff

theorem tallyKept_joinShip {s : State} (b : FrameBody) (vacant : Bool) (hb : s.tally = ta) : (State.joinShip s b vacant).tally = ta := by
  unfold State.joinShip
  repeat' first
    | with_reducible assumption
    | with_reducible apply tallyKept_joinList
    | with_reducible apply tallyKept_modOff

theorem tallyKept_sendControl {s : State} (c : Control) (hb : s.tally = ta) : (State.sendControl s c).tally = ta := by
  unfold State.sendControl
  repeat' first
    | with_reducible assumption
    | with_reducible apply tallyKept_joinShip
    | with_reducible apply tallyKept_send

theorem tallyKept_sendHead {s : State} (hb : s.tally = ta) : (State.sendHead s).tally = ta := by
  unfold State.sendHead
  repeat' first
    | with_reducible assumption
    | with_reducible apply tallyKept_sendControl
    | split
    | with_reducible apply tallyKept_modOff

theorem tallyKept_cancelRun {s : State} (n : Nat) (hb : s.tally = ta) : (State.cancelRun s n).tally = ta := by
  unfold State.cancelRun
  repeat' first
    | with_reducible assumption
    | with_reducible apply tallyKept_freeAllOf
    | with_reducible apply tallyKept_leavePlaces
    | with_reducible apply tallyKept_withdrawAsk
    | with_reducible apply tallyKept_modOff

theorem tallyKept_cancelRuns {s : State} (p : ShipPull → Bool) (hb : s.tally = ta) : (State.cancelRuns s p).tally = ta := by
  unfold State.cancelRuns
  repeat' first
    | with_reducible assumption
    | with_reducible apply tallyKept_cancelRun
    | with_reducible refine tallyKept_foldl _ _ (fun _ _ _ => ?_) ?_

theorem tallyKept_freeEntrySlots {s : State} (es : List ShipEntry) (hb : s.tally = ta) : (State.freeEntrySlots s es).tally = ta := by
  unfold State.freeEntrySlots
  repeat' first
    | with_reducible assumption
    | with_reducible refine tallyKept_foldl _ _ (fun _ _ _ => ?_) ?_
    | with_reducible apply tallyKept_freeSlot

theorem tallyKept_damageEntries {s : State} (vol ext birth : Nat) (p : ShipEntry → Bool) (hb : s.tally = ta) : (State.damageEntries s vol ext birth p).tally = ta := by
  unfold State.damageEntries
  try dsimp only
  repeat' first
    | with_reducible assumption
    | with_reducible apply tallyKept_freeEntrySlots
    | split
    | with_reducible apply tallyKept_modOff
    | with_reducible apply tallyKept_modPlan

theorem tallyKept_shipLost {s : State} (vol ext birth : Nat) (hb : s.tally = ta) : (State.shipLost s vol ext birth).tally = ta := by
  unfold State.shipLost
  exact tallyKept_damageEntries _ _ _ _ (tallyKept_cancelRuns _ hb)

theorem tallyKept_shipReact {s : State} (vol ext birth : Nat) (st : RepairState) (hb : s.tally = ta) : (State.shipReact s vol ext birth st).tally = ta := by
  unfold State.shipReact
  repeat' first
    | with_reducible assumption
    | with_reducible apply tallyKept_shipLost
    | split
    | with_reducible apply tallyKept_modOff

theorem tallyKept_restoreReact {s : State} (vol ext birth : Nat) (st : RepairState) (hb : s.tally = ta) : (State.restoreReact s vol ext birth st).tally = ta := by
  unfold State.restoreReact
  try dsimp only
  repeat' first
    | with_reducible assumption
    | split
    | with_reducible refine tallyKept_foldl _ _ (fun _ _ _ => ?_) ?_
    | with_reducible apply tallyKept_modLink
    | (simp only [tallyKept_mk]; with_reducible assumption)

theorem tallyKept_setRepair {s : State} (vol ext birth loc : Nat) (st : RepairState) (hb : s.tally = ta) : (State.setRepair s vol ext birth loc st).tally = ta := by
  unfold State.setRepair
  try dsimp only
  repeat' first
    | with_reducible assumption
    | with_reducible apply tallyKept_restoreReact
    | with_reducible apply tallyKept_shipReact
    | with_reducible apply tallyKept_writeRepair
    | split
    | (simp only [tallyKept_mk]; with_reducible assumption)

theorem tallyKept_shedEntries {s : State} (vol : Nat) (hb : s.tally = ta) : (State.shedEntries s vol).tally = ta := by
  unfold State.shedEntries
  repeat' first
    | with_reducible assumption
    | with_reducible apply tallyKept_cancelRuns
    | with_reducible apply tallyKept_modOff

theorem tallyKept_dropShipPins {s : State} (vol : Nat) (hb : s.tally = ta) : (State.dropShipPins s vol).tally = ta := by
  unfold State.dropShipPins
  repeat' first
    | with_reducible assumption
    | with_reducible apply tallyKept_dropPin
    | split
    | with_reducible apply tallyKept_modPlan

theorem tallyKept_failVolume {s : State} (vol : Nat) (hb : s.tally = ta) : (State.failVolume s vol).tally = ta := by
  unfold State.failVolume
  repeat' first
    | with_reducible assumption
    | with_reducible apply tallyKept_dropShipPins
    | with_reducible apply tallyKept_shedEntries
    | split
    | with_reducible apply tallyKept_modOff
    | with_reducible apply tallyKept_modPlan

theorem tallyKept_pendDrop {s : State} (vol gen : Nat) (hb : s.tally = ta) : (State.pendDrop s vol gen).tally = ta := by
  unfold State.pendDrop
  repeat' first
    | with_reducible assumption
    | with_reducible apply tallyKept_askOpening
    | with_reducible apply tallyKept_modOff

theorem tallyKept_leaveItem {s : State} (n : Nat) (hb : s.tally = ta) : (State.leaveItem s n).tally = ta := by
  unfold State.leaveItem
  repeat' first
    | with_reducible assumption
    | with_reducible apply tallyKept_freeAllOf
    | with_reducible apply tallyKept_leavePlaces
    | with_reducible apply tallyKept_withdrawAsk
    | with_reducible apply tallyKept_modPat

theorem tallyKept_addFold {s : State} (w : WorkItem) (hb : s.tally = ta) : (State.addFold s w).tally = ta := by
  unfold State.addFold
  repeat' first
    | with_reducible assumption
    | with_reducible apply tallyKept_modPat

theorem tallyKept_issueItem {s : State} (w : WorkItem) (hb : s.tally = ta) : (State.issueItem s w).tally = ta := by
  unfold State.issueItem
  repeat' first
    | with_reducible assumption
    | with_reducible apply tallyKept_askSlots
    | with_reducible apply tallyKept_modItem

theorem tallyKept_loseItem {s : State} (w : WorkItem) (hb : s.tally = ta) : (State.loseItem s w).tally = ta := by
  unfold State.loseItem
  try dsimp only
  repeat' first
    | with_reducible assumption
    | with_reducible apply tallyKept_leaveItem
    | split
    | with_reducible apply tallyKept_modPat
    | (simp only [tallyKept_mk]; with_reducible assumption)

theorem tallyKept_decideItem {s : State} (n : Nat) (hb : s.tally = ta) : (State.decideItem s n).tally = ta := by
  unfold State.decideItem
  try dsimp only
  repeat' first
    | with_reducible assumption
    | with_reducible apply tallyKept_addFold
    | with_reducible apply tallyKept_busy
    | with_reducible apply tallyKept_issueItem
    | with_reducible apply tallyKept_leaveItem
    | with_reducible apply tallyKept_loseItem
    | split
    | with_reducible apply tallyKept_modItem
    | (simp only [tallyKept_mk]; with_reducible assumption)

theorem tallyKept_modChunk {s : State} (n idx : Nat) (f : RepairChunk → RepairChunk) (hb : s.tally = ta) : (State.modChunk s n idx f).tally = ta := by
  unfold State.modChunk
  repeat' first
    | with_reducible assumption
    | with_reducible apply tallyKept_modRepair

theorem tallyKept_leaveRepairPlaces {s : State} (n : Nat) (hb : s.tally = ta) : (State.leaveRepairPlaces s n).tally = ta := by
  unfold State.leaveRepairPlaces
  try dsimp only
  repeat' first
    | with_reducible assumption
    | with_reducible apply tallyKept_leavePlaces
    | split
    | with_reducible refine tallyKept_foldl _ _ (fun _ _ _ => ?_) ?_
    | (simp only [tallyKept_mk]; with_reducible assumption)

theorem tallyKept_chunkOffsite {s : State} (n idx : Nat) (hb : s.tally = ta) : (State.chunkOffsite s n idx).tally = ta := by
  unfold State.chunkOffsite
  try dsimp only
  repeat' first
    | with_reducible assumption
    | with_reducible apply tallyKept_askRoom
    | with_reducible apply tallyKept_leavePlaces
    | with_reducible apply tallyKept_modChunk
    | with_reducible apply tallyKept_progress
    | split
    | (simp only [tallyKept_mk]; with_reducible assumption)

theorem tallyKept_startChunk {s : State} (n : Nat) (idx : Nat) (hb : s.tally = ta) : (State.startChunk s n idx).tally = ta := by
  unfold State.startChunk
  repeat' first
    | with_reducible assumption
    | with_reducible apply tallyKept_chunkOffsite
    | split

theorem tallyKept_loseRepair {s : State} (n : Nat) (hb : s.tally = ta) : (State.loseRepair s n).tally = ta := by
  unfold State.loseRepair
  try dsimp only
  repeat' first
    | with_reducible assumption
    | with_reducible apply tallyKept_freeHolder
    | with_reducible apply tallyKept_leaveRepairPlaces
    | with_reducible apply tallyKept_setRepair
    | with_reducible apply tallyKept_withdrawFetch
    | split
    | with_reducible apply tallyKept_modRepair
    | (simp only [tallyKept_mk]; with_reducible assumption)

theorem tallyKept_startWhole {s : State} (n : Nat) (hb : s.tally = ta) : (State.startWhole s n).tally = ta := by
  unfold State.startWhole
  try dsimp only
  repeat' first
    | with_reducible assumption
    | with_reducible apply tallyKept_askRoom
    | with_reducible apply tallyKept_freeHolder
    | with_reducible apply tallyKept_leaveRepairPlaces
    | with_reducible apply tallyKept_loseRepair
    | with_reducible apply tallyKept_progress
    | with_reducible apply tallyKept_withdrawFetch
    | split
    | with_reducible apply tallyKept_modRepair
    | (simp only [tallyKept_mk]; with_reducible assumption)

theorem tallyKept_openRepair {s : State} (n : Nat) (q : RepairReq) (hb : s.tally = ta) : (State.openRepair s n q).tally = ta := by
  unfold State.openRepair
  repeat' first
    | with_reducible assumption
    | with_reducible apply tallyKept_setRepair
    | with_reducible apply tallyKept_startChunk
    | with_reducible apply tallyKept_startWhole
    | split
    | with_reducible refine tallyKept_foldl _ _ (fun _ _ _ => ?_) ?_
    | with_reducible apply tallyKept_modPat

theorem tallyKept_openWaiting {s : State} (n : Nat) (q : List RepairReq) (h : s.tally = ta) :
    (State.openWaiting n q s).tally = ta := by
  induction q generalizing s with
  | nil => exact h
  | cons x t ih =>
    unfold State.openWaiting
    split
    · exact tallyKept_openRepair _ _ (tallyKept_modPat _ h)
    · exact ih h

theorem tallyKept_closeRepair {s : State} (n : Nat) (hb : s.tally = ta) : (State.closeRepair s n).tally = ta := by
  unfold State.closeRepair
  try dsimp only
  repeat' first
    | with_reducible assumption
    | with_reducible apply tallyKept_freeAllOf
    | with_reducible apply tallyKept_leaveRepairPlaces
    | with_reducible apply tallyKept_openWaiting
    | split
    | with_reducible apply tallyKept_modPat
    | (simp only [tallyKept_mk]; with_reducible assumption)

theorem tallyKept_endRepair {s : State} (n : Nat) (r : Repair) (hb : s.tally = ta) : (State.endRepair s n r).tally = ta := by
  unfold State.endRepair
  repeat' first
    | with_reducible assumption
    | with_reducible apply tallyKept_closeRepair
    | with_reducible apply tallyKept_raise
    | with_reducible apply tallyKept_setRepair
    | with_reducible apply tallyKept_setVerified
    | split

theorem tallyKept_checkRepair {s : State} (n : Nat) (hb : s.tally = ta) : (State.checkRepair s n).tally = ta := by
  unfold State.checkRepair
  repeat' first
    | with_reducible assumption
    | with_reducible apply tallyKept_closeRepair
    | with_reducible apply tallyKept_endRepair
    | with_reducible apply tallyKept_startWhole
    | split

theorem tallyKept_abandonRepair {s : State} (n : Nat) (hb : s.tally = ta) : (State.abandonRepair s n).tally = ta := by
  unfold State.abandonRepair
  try dsimp only
  repeat' first
    | with_reducible assumption
    | with_reducible apply tallyKept_freeHolder
    | with_reducible apply tallyKept_leaveRepairPlaces
    | with_reducible apply tallyKept_withdrawFetch
    | split
    | with_reducible apply tallyKept_modRepair
    | (simp only [tallyKept_mk]; with_reducible assumption)

theorem tallyKept_abandonIf {s : State} (p : Repair → Bool) (hb : s.tally = ta) : (State.abandonIf s p).tally = ta := by
  unfold State.abandonIf
  repeat' first
    | with_reducible assumption
    | with_reducible apply tallyKept_abandonRepair
    | with_reducible refine tallyKept_foldl _ _ (fun _ _ _ => ?_) ?_

theorem tallyKept_addChunks {s : State} (n : Nat) (r : Repair) (q : RepairReq) (hb : s.tally = ta) : (State.addChunks s n r q).tally = ta := by
  unfold State.addChunks
  try dsimp only
  repeat' first
    | with_reducible assumption
    | with_reducible apply tallyKept_leaveRepairPlaces
    | with_reducible apply tallyKept_startChunk
    | split
    | with_reducible refine tallyKept_foldl _ _ (fun _ _ _ => ?_) ?_
    | with_reducible apply tallyKept_modRepair

theorem tallyKept_requestRepair {s : State} (q : RepairReq) (hb : s.tally = ta) : (State.requestRepair s q).tally = ta := by
  unfold State.requestRepair
  try dsimp only
  repeat' first
    | with_reducible assumption
    | with_reducible apply tallyKept_addChunks
    | with_reducible apply tallyKept_checkRepair
    | with_reducible apply tallyKept_openRepair
    | with_reducible apply tallyKept_setRepair
    | with_reducible apply tallyKept_shipLost
    | split
    | with_reducible apply tallyKept_modPat

theorem tallyKept_repairFetched {s : State} (n idx : Nat) (a : ChunkAnswer) (hb : s.tally = ta) : (State.repairFetched s n idx a).tally = ta := by
  unfold State.repairFetched
  try dsimp only
  repeat' first
    | with_reducible assumption
    | with_reducible apply tallyKept_askRoom
    | with_reducible apply tallyKept_leavePlaces
    | with_reducible apply tallyKept_loseRepair
    | with_reducible apply tallyKept_modChunk
    | with_reducible apply tallyKept_progress
    | split
    | (simp only [tallyKept_mk]; with_reducible assumption)

theorem tallyKept_fixEnded {s : State} (n idx : Nat) (ok : Bool) (hb : s.tally = ta) : (State.fixEnded s n idx ok).tally = ta := by
  unfold State.fixEnded
  repeat' first
    | with_reducible assumption
    | with_reducible apply tallyKept_checkRepair
    | with_reducible apply tallyKept_chunkOffsite
    | with_reducible apply tallyKept_freeAllOf
    | with_reducible apply tallyKept_loseRepair
    | with_reducible apply tallyKept_modChunk
    | split
    | with_reducible apply tallyKept_modRepair
    | with_reducible apply tallyKept_freeSlotsIf

theorem tallyKept_verifyEnded {s : State} (n : Nat) (cause : PullCause) (hb : s.tally = ta) : (State.verifyEnded s n cause).tally = ta := by
  unfold State.verifyEnded
  try dsimp only
  repeat' first
    | with_reducible assumption
    | with_reducible apply tallyKept_freeAllOf
    | with_reducible apply tallyKept_leaveItem
    | with_reducible apply tallyKept_requestRepair
    | with_reducible apply tallyKept_setRepair
    | with_reducible apply tallyKept_setVerified
    | split
    | with_reducible apply tallyKept_modItem

theorem tallyKept_checkFold {s : State} (f : Fold) (hb : s.tally = ta) : (State.checkFold s f).tally = ta := by
  unfold State.checkFold
  repeat' first
    | with_reducible assumption
    | with_reducible apply tallyKept_setVerified
    | split
    | with_reducible apply tallyKept_modPat

theorem tallyKept_endClearing {s : State} (hb : s.tally = ta) : (State.endClearing s).tally = ta := by
  unfold State.endClearing
  repeat' first
    | with_reducible assumption
    | with_reducible apply tallyKept_leaveItem
    | split
    | with_reducible refine tallyKept_foldl _ _ (fun _ _ _ => ?_) ?_
    | with_reducible apply tallyKept_modPat

theorem tallyKept_checkRepairs {s : State} (hb : s.tally = ta) : (State.checkRepairs s).tally = ta := by
  unfold State.checkRepairs
  try dsimp only
  repeat' first
    | with_reducible assumption
    | with_reducible apply tallyKept_checkRepair
    | split
    | with_reducible refine tallyKept_foldl _ _ (fun _ _ _ => ?_) ?_
    | with_reducible refine tallyKept_iter _ _ (fun _ _ => ?_) ?_
    | (simp only [tallyKept_mk]; with_reducible assumption)

theorem tallyKept_settlePatrol {s : State} (hb : s.tally = ta) : (State.settlePatrol s).tally = ta := by
  unfold State.settlePatrol
  try dsimp only
  repeat' first
    | with_reducible assumption
    | with_reducible apply tallyKept_abandonIf
    | with_reducible apply tallyKept_checkFold
    | with_reducible apply tallyKept_checkRepairs
    | with_reducible apply tallyKept_decideItem
    | with_reducible apply tallyKept_endClearing
    | split
    | with_reducible refine tallyKept_foldl _ _ (fun _ _ _ => ?_) ?_
    | (simp only [tallyKept_mk]; with_reducible assumption)

theorem tallyKept_settle {s : State} (hb : s.tally = ta) : (State.settle s).tally = ta := by
  unfold State.settle
  repeat' first
    | with_reducible assumption
    | with_reducible apply tallyKept_settleLink
    | with_reducible apply tallyKept_settlePatrol

theorem tallyKept_applyWindow {s : State} (hb : s.tally = ta) : (State.applyWindow s).tally = ta := by
  unfold State.applyWindow
  repeat' first
    | with_reducible assumption
    | with_reducible apply tallyKept_modSup

theorem tallyKept_applyPending {s : State} (hb : s.tally = ta) : (State.applyPending s).tally = ta := by
  unfold State.applyPending
  repeat' first
    | with_reducible assumption
    | with_reducible apply tallyKept_applyWindow
    | with_reducible apply tallyKept_modSup

theorem tallyKept_reckonClose {s : State} (hb : s.tally = ta) : (State.reckonClose s).tally = ta := by
  unfold State.reckonClose
  repeat' first
    | with_reducible assumption
    | with_reducible apply tallyKept_modOff

theorem tallyKept_openWindow {s : State} (hb : s.tally = ta) : (State.openWindow s).tally = ta := by
  unfold State.openWindow
  repeat' first
    | with_reducible assumption
    | with_reducible apply tallyKept_applyPending
    | with_reducible apply tallyKept_askOpening
    | with_reducible apply tallyKept_openDue
    | with_reducible apply tallyKept_reckonClose
    | with_reducible refine tallyKept_foldl _ _ (fun _ _ _ => ?_) ?_
    | with_reducible apply tallyKept_modOff

theorem tallyKept_evaluateOpen {s : State} (hb : s.tally = ta) : (State.evaluateOpen s).tally = ta := by
  unfold State.evaluateOpen
  repeat' first
    | with_reducible assumption
    | with_reducible apply tallyKept_openWindow
    | split

theorem tallyKept_tryEndNight {s : State} (hb : s.tally = ta) : (State.tryEndNight s).tally = ta := by
  unfold State.tryEndNight
  repeat' first
    | with_reducible assumption
    | with_reducible apply tallyKept_applyWindow
    | with_reducible apply tallyKept_dropShipPins
    | with_reducible apply tallyKept_evaluateOpen
    | with_reducible apply tallyKept_raise
    | split
    | with_reducible refine tallyKept_foldl _ _ (fun _ _ _ => ?_) ?_
    | with_reducible apply tallyKept_modOff
    | with_reducible apply tallyKept_modPat

theorem tallyKept_closeWindow {s : State} (hb : s.tally = ta) : (State.closeWindow s).tally = ta := by
  unfold State.closeWindow
  try dsimp only
  repeat' first
    | with_reducible assumption
    | with_reducible apply tallyKept_cancelRuns
    | with_reducible apply tallyKept_closeDue
    | with_reducible apply tallyKept_freeFullShip
    | with_reducible apply tallyKept_tryEndNight
    | split
    | with_reducible refine tallyKept_foldl _ _ (fun _ _ _ => ?_) ?_
    | with_reducible apply tallyKept_modOff
    | (simp only [tallyKept_mk]; with_reducible assumption)

theorem tallyKept_evaluateWindow {s : State} (hb : s.tally = ta) : (State.evaluateWindow s).tally = ta := by
  unfold State.evaluateWindow
  repeat' first
    | with_reducible assumption
    | with_reducible apply tallyKept_closeWindow
    | with_reducible apply tallyKept_evaluateOpen
    | split

theorem tallyKept_joinPlan {s : State} (vol t : Nat) (hb : s.tally = ta) : (State.joinPlan s vol t).tally = ta := by
  unfold State.joinPlan
  repeat' first
    | with_reducible assumption
    | with_reducible apply tallyKept_takePin
    | split
    | with_reducible apply tallyKept_modOff
    | with_reducible apply tallyKept_modVolume

theorem tallyKept_reportMissed {s : State} (vol : Nat) (hb : s.tally = ta) : (State.reportMissed s vol).tally = ta := by
  unfold State.reportMissed
  repeat' first
    | with_reducible assumption
    | split
    | with_reducible apply tallyKept_modOff

theorem tallyKept_missDue {s : State} (vol : Nat) (hb : s.tally = ta) : (State.missDue s vol).tally = ta := by
  unfold State.missDue
  repeat' first
    | with_reducible assumption
    | with_reducible apply tallyKept_closeDue
    | with_reducible apply tallyKept_raise
    | with_reducible apply tallyKept_reportMissed
    | split

theorem tallyKept_missLate {s : State} (hb : s.tally = ta) : (State.missLate s).tally = ta := by
  unfold State.missLate
  repeat' first
    | with_reducible assumption
    | with_reducible apply tallyKept_missDue
    | split
    | with_reducible refine tallyKept_foldl _ _ (fun _ _ _ => ?_) ?_

theorem tallyKept_countVisit {s : State} (vol : Nat) (hb : s.tally = ta) : (State.countVisit s vol).tally = ta := by
  unfold State.countVisit
  repeat' first
    | with_reducible assumption
    | with_reducible apply tallyKept_failVolume
    | split
    | with_reducible apply tallyKept_modPlan

theorem tallyKept_reportParked {s : State} (vol ext : Nat) (es : List ShipEntry) (hb : s.tally = ta) : (State.reportParked s vol ext es).tally = ta := by
  unfold State.reportParked
  try dsimp only
  repeat' first
    | with_reducible assumption
    | with_reducible apply tallyKept_requestRepair
    | split
    | (simp only [tallyKept_mk]; with_reducible assumption)

theorem tallyKept_shipVisit {s : State} (hb : s.tally = ta) : (State.shipVisit s).tally = ta := by
  unfold State.shipVisit
  try dsimp only
  repeat' first
    | with_reducible assumption
    | with_reducible apply tallyKept_failVolume
    | with_reducible apply tallyKept_reportParked
    | split
    | with_reducible apply tallyKept_modOff
    | with_reducible apply tallyKept_modPlan
    | with_reducible apply tallyKept_modVolume
    | (simp only [tallyKept_mk]; with_reducible assumption)

theorem tallyKept_finishVolume {s : State} (hb : s.tally = ta) : (State.finishVolume s).tally = ta := by
  unfold State.finishVolume
  repeat' first
    | with_reducible assumption
    | split
    | with_reducible apply tallyKept_modOff
    | with_reducible apply tallyKept_modPlan

theorem tallyKept_shedScope {s : State} (sc : Nat) (hb : s.tally = ta) : (State.shedScope s sc).tally = ta := by
  unfold State.shedScope
  repeat' first
    | with_reducible assumption
    | with_reducible apply tallyKept_dropShipPins
    | with_reducible apply tallyKept_shedEntries
    | with_reducible refine tallyKept_foldl _ _ (fun _ _ _ => ?_) ?_
    | with_reducible apply tallyKept_modOff
    | with_reducible apply tallyKept_modPlan

theorem tallyKept_shedOnce {s : State} (hb : s.tally = ta) : (State.shedOnce s).tally = ta := by
  unfold State.shedOnce
  repeat' first
    | with_reducible assumption
    | with_reducible apply tallyKept_raise
    | with_reducible apply tallyKept_shedScope
    | split

theorem tallyKept_endInterval {s : State} (hb : s.tally = ta) : (State.endInterval s).tally = ta := by
  unfold State.endInterval
  try dsimp only
  repeat' first
    | with_reducible assumption
    | with_reducible apply tallyKept_shedOnce
    | split
    | with_reducible refine tallyKept_iter _ _ (fun _ _ => ?_) ?_
    | with_reducible apply tallyKept_modOff

theorem tallyKept_foldEqual {s : State} (p : ShipPull) (idx : Nat) (hb : s.tally = ta) : (State.foldEqual s p idx).tally = ta := by
  unfold State.foldEqual
  repeat' first
    | with_reducible assumption
    | with_reducible apply tallyKept_modPat

theorem tallyKept_reportMismatch {s : State} (p : ShipPull) (idx : Nat) (hb : s.tally = ta) : (State.reportMismatch s p idx).tally = ta := by
  unfold State.reportMismatch
  repeat' first
    | with_reducible assumption
    | with_reducible apply tallyKept_requestRepair
    | with_reducible apply tallyKept_modPat

theorem tallyKept_withhold {s : State} (p : ShipPull) (e : ShipEntry) (hb : s.tally = ta) : (State.withhold s p e).tally = ta := by
  unfold State.withhold
  repeat' first
    | with_reducible assumption
    | with_reducible apply tallyKept_cancelRuns
    | with_reducible apply tallyKept_reportMismatch
    | split
    | with_reducible apply tallyKept_modOff
    | with_reducible apply tallyKept_modEntry

theorem tallyKept_shipEqual {s : State} (p : ShipPull) (e : ShipEntry) (n : Nat) (hb : s.tally = ta) : (State.shipEqual s p e n).tally = ta := by
  unfold State.shipEqual
  repeat' first
    | with_reducible assumption
    | with_reducible apply tallyKept_makeFull
    | with_reducible apply tallyKept_takeBack
    | split
    | with_reducible apply tallyKept_modEntry
    | with_reducible apply tallyKept_freeSlot

theorem tallyKept_shipChunk {s : State} (num idx : Nat) (data : List Byte) (hb : s.tally = ta) : (State.shipChunk s num idx data).tally = ta := by
  unfold State.shipChunk
  try dsimp only
  repeat' first
    | with_reducible assumption
    | with_reducible apply tallyKept_fill
    | with_reducible apply tallyKept_foldEqual
    | with_reducible apply tallyKept_shipEqual
    | with_reducible apply tallyKept_withhold
    | split
    | with_reducible apply tallyKept_freeSlot

theorem tallyKept_verifyChunk {s : State} (i idx : Nat) (data : List Byte) (hb : s.tally = ta) : (State.verifyChunk s i idx data).tally = ta := by
  unfold State.verifyChunk
  repeat' first
    | with_reducible assumption
    | split
    | with_reducible apply tallyKept_modItem

theorem tallyKept_notReceived {s : State} (p : ShipPull) (cause : PullCause) (e : ShipEntry) (hb : s.tally = ta) : (State.notReceived s p cause e).tally = ta := by
  unfold State.notReceived
  repeat' first
    | with_reducible assumption
    | with_reducible apply tallyKept_withhold
    | split
    | with_reducible apply tallyKept_modEntry

theorem tallyKept_pullEnded {s : State} (num : Nat) (cause : PullCause) (hb : s.tally = ta) : (State.pullEnded s num cause).tally = ta := by
  unfold State.pullEnded
  try dsimp only
  repeat' first
    | with_reducible assumption
    | with_reducible apply tallyKept_damageEntries
    | with_reducible apply tallyKept_freeEntrySlots
    | with_reducible apply tallyKept_notReceived
    | split
    | with_reducible refine tallyKept_foldl _ _ (fun _ _ _ => ?_) ?_
    | with_reducible apply tallyKept_modOff
    | with_reducible apply tallyKept_freeSlotsIf
    | (simp only [tallyKept_mk]; with_reducible assumption)

end Sys2Proof.Machine
end

