-- ==== Sys2Proof/Laws/Others.lean ====
section
/-! SUPPORT. The Tally Unit goes on without touching the blocks beside it: one lemma for each operation
that `advance` runs. -/

namespace Sys2Proof.Machine

/-- The parts of the blocks beside the Tally Unit. -/
def State.others (s : State) : Catalogue × RestoreEngine × Stream × Offsite × Patrol := (s.cat, s.rst, s.str, s.off, s.pat)

variable {ot : Catalogue × RestoreEngine × Stream × Offsite × Patrol}

theorem othersKept_mk (u ls t c r st o p pe se) : ((State.mk u ls t c r st o p pe se).others = ot) = ((c, r, st, o, p) = ot) := rfl
theorem othersKept_unfold {s : State} (h : s.others = ot) : (s.cat, s.rst, s.str, s.off, s.pat) = ot := h

theorem othersKept_foldl {α : Type} (f : State → α → State) (xs : List α) {s : State}
    (hf : ∀ s x, s.others = ot → (f s x).others = ot) (h : s.others = ot) : (xs.foldl f s).others = ot := by
  induction xs generalizing s with
  | nil => exact h
  | cons x xs ih => exact ih (hf s x h)
theorem othersKept_iter (n : Nat) (f : State → State) {s : State}
    (hf : ∀ s, s.others = ot → (f s).others = ot) (h : s.others = ot) : (iter n f s).others = ot := by
  induction n generalizing s with
  | zero => exact h
  | succ n ih => exact ih (hf s h)
theorem othersKept_modLink {s : State} (l : Link) (f : LinkRec → LinkRec) (h : s.others = ot) : (s.modLink l f).others = ot := h
theorem othersKept_modSup {s : State} (f : Supervisor → Supervisor) (h : s.others = ot) : (s.modSup f).others = ot := h

theorem othersKept_setPrin {s : State} (id : Nat) (p : Principal) (hb : s.others = ot) : (State.setPrin s id p).others = ot := by
  unfold State.setPrin
  repeat' first
    | with_reducible assumption
    | (simp only [othersKept_mk]; with_reducible refine othersKept_unfold ?_)

theorem othersKept_modPrin {s : State} (id : Nat) (f : Principal → Principal) (hb : s.others = ot) : (State.modPrin s id f).others = ot := by
  unfold State.modPrin
  repeat' first
    | with_reducible assumption
    | (simp only [othersKept_mk]; with_reducible refine othersKept_unfold ?_)

theorem othersKept_queueTo {s : State} (b : NoticeBody) (n : Notice) (ls : List Link) (h : s.others = ot) :
    (State.queueTo b n ls s).others = ot := by
  induction ls generalizing s with
  | nil => exact h
  | cons l ls ih =>
    unfold State.queueTo
    refine ih ?_
    split
    · exact h
    · exact h

theorem othersKept_raise {s : State} (b : NoticeBody) (hb : s.others = ot) : (State.raise s b).others = ot := by
  unfold State.raise
  repeat' first
    | with_reducible assumption
    | with_reducible apply othersKept_queueTo
    | with_reducible apply othersKept_modSup

theorem othersKept_busy {s : State} (l : Link) (hb : s.others = ot) : (State.busy s l).others = ot := by
  unfold State.busy
  repeat' first
    | with_reducible assumption
    | with_reducible apply othersKept_modLink

theorem othersKept_restartIdle {s : State} (l : Link) (hb : s.others = ot) : (State.restartIdle s l).others = ot := by
  unfold State.restartIdle
  repeat' first
    | with_reducible assumption
    | with_reducible apply othersKept_modLink

theorem othersKept_reply {s : State} (l : Link) (req : Nat) (st : Status) (body : ReplyBody) (hb : s.others = ot) : (State.reply s l req st body).others = ot := by
  unfold State.reply
  repeat' first
    | with_reducible assumption
    | with_reducible apply othersKept_restartIdle
    | with_reducible apply othersKept_modLink

theorem othersKept_setGrace {s : State} (id : Nat) (g : Grace) (hb : s.others = ot) : (State.setGrace s id g).others = ot := by
  unfold State.setGrace
  repeat' first
    | with_reducible assumption
    | with_reducible apply othersKept_modPrin

theorem othersKept_leaveGraceQueue {s : State} (id : Nat) (hb : s.others = ot) : (State.leaveGraceQueue s id).others = ot := by
  unfold State.leaveGraceQueue
  repeat' first
    | with_reducible assumption
    | (simp only [othersKept_mk]; with_reducible refine othersKept_unfold ?_)

theorem othersKept_enterGrace {s : State} (id deadline : Nat) (hb : s.others = ot) : (State.enterGrace s id deadline).others = ot := by
  unfold State.enterGrace
  try dsimp only
  repeat' first
    | with_reducible assumption
    | with_reducible apply othersKept_setGrace
    | split
    | (simp only [othersKept_mk]; with_reducible refine othersKept_unfold ?_)

theorem othersKept_expire {s : State} (id : Nat) (hb : s.others = ot) : (State.expire s id).others = ot := by
  unfold State.expire
  repeat' first
    | with_reducible assumption
    | with_reducible apply othersKept_leaveGraceQueue
    | with_reducible apply othersKept_raise
    | with_reducible apply othersKept_setGrace
    | split

theorem othersKept_lazyExpire {s : State} (id : Nat) (hb : s.others = ot) : (State.lazyExpire s id).others = ot := by
  unfold State.lazyExpire
  repeat' first
    | with_reducible assumption
    | with_reducible apply othersKept_expire
    | split

theorem othersKept_lazyExpireAll {s : State} (ids : List Nat) (hb : s.others = ot) : (State.lazyExpireAll s ids).others = ot := by
  unfold State.lazyExpireAll
  repeat' first
    | with_reducible assumption
    | with_reducible apply othersKept_lazyExpire
    | with_reducible refine othersKept_foldl _ _ (fun _ _ _ => ?_) ?_

theorem othersKept_evalGrace {s : State} (id : Nat) (hb : s.others = ot) : (State.evalGrace s id).others = ot := by
  unfold State.evalGrace
  try dsimp only
  repeat' first
    | with_reducible assumption
    | with_reducible apply othersKept_enterGrace
    | with_reducible apply othersKept_leaveGraceQueue
    | with_reducible apply othersKept_raise
    | with_reducible apply othersKept_setGrace
    | split

theorem othersKept_evalGraceAll {s : State} (ids : List Nat) (hb : s.others = ot) : (State.evalGraceAll s ids).others = ot := by
  unfold State.evalGraceAll
  repeat' first
    | with_reducible assumption
    | with_reducible apply othersKept_evalGrace
    | with_reducible refine othersKept_foldl _ _ (fun _ _ _ => ?_) ?_

theorem othersKept_expireHead {s : State} (hb : s.others = ot) : (State.expireHead s).others = ot := by
  unfold State.expireHead
  repeat' first
    | with_reducible assumption
    | with_reducible apply othersKept_expire
    | split
    | (simp only [othersKept_mk]; with_reducible refine othersKept_unfold ?_)

theorem othersKept_expireDue {s : State} (hb : s.others = ot) : (State.expireDue s).others = ot := by
  unfold State.expireDue
  repeat' first
    | with_reducible assumption
    | with_reducible apply othersKept_expireHead
    | with_reducible refine othersKept_iter _ _ (fun _ _ => ?_) ?_

theorem othersKept_putLine {s : State} (x : Line) (hb : s.others = ot) : (State.putLine s x).others = ot := by
  unfold State.putLine
  repeat' first
    | with_reducible assumption
    | (simp only [othersKept_mk]; with_reducible refine othersKept_unfold ?_)

theorem othersKept_modLine {s : State} (id : Nat) (f : Line → Line) (hb : s.others = ot) : (State.modLine s id f).others = ot := by
  unfold State.modLine
  repeat' first
    | with_reducible assumption
    | (simp only [othersKept_mk]; with_reducible refine othersKept_unfold ?_)

theorem othersKept_storeTally {s : State} (id used reserved : Nat) (hb : s.others = ot) : (State.storeTally s id used reserved).others = ot := by
  unfold State.storeTally
  try dsimp only
  repeat' first
    | with_reducible assumption
    | with_reducible apply othersKept_modPrin
    | split
    | (simp only [othersKept_mk]; with_reducible refine othersKept_unfold ?_)

theorem othersKept_storeClean {s : State} (id used reserved : Nat) (hb : s.others = ot) : (State.storeClean s id used reserved).others = ot := by
  unfold State.storeClean
  try dsimp only
  repeat' first
    | with_reducible assumption
    | with_reducible apply othersKept_storeTally
    | split
    | (simp only [othersKept_mk]; with_reducible refine othersKept_unfold ?_)

theorem othersKept_castoutDirty {s : State} (hb : s.others = ot) : (State.castoutDirty s).others = ot := by
  unfold State.castoutDirty
  repeat' first
    | with_reducible assumption
    | split
    | (simp only [othersKept_mk]; with_reducible refine othersKept_unfold ?_)

theorem othersKept_modOp {s : State} (num : Nat) (f : TallyOp → TallyOp) (hb : s.others = ot) : (State.modOp s num f).others = ot := by
  unfold State.modOp
  repeat' first
    | with_reducible assumption
    | (simp only [othersKept_mk]; with_reducible refine othersKept_unfold ?_)

theorem othersKept_dropOp {s : State} (num : Nat) (hb : s.others = ot) : (State.dropOp s num).others = ot := by
  unfold State.dropOp
  repeat' first
    | with_reducible assumption
    | (simp only [othersKept_mk]; with_reducible refine othersKept_unfold ?_)

theorem othersKept_pushOp {s : State} (job : Job) (postings : List Nat) (hb : s.others = ot) : (State.pushOp s job postings).others = ot := by
  unfold State.pushOp
  repeat' first
    | with_reducible assumption
    | (simp only [othersKept_mk]; with_reducible refine othersKept_unfold ?_)

theorem othersKept_takeSet {s : State} (num : Nat) (group : List Nat) (hb : s.others = ot) : (State.takeSet s num group).others = ot := by
  unfold State.takeSet
  try dsimp only
  repeat' first
    | with_reducible assumption
    | split
    | (simp only [othersKept_mk]; with_reducible refine othersKept_unfold ?_)

theorem othersKept_takeNext {s : State} (num : Nat) (hb : s.others = ot) : (State.takeNext s num).others = ot := by
  unfold State.takeNext
  try dsimp only
  repeat' first
    | with_reducible assumption
    | with_reducible apply othersKept_takeSet
    | split

theorem othersKept_gather {s : State} (num : Nat) (hb : s.others = ot) : (State.gather s num).others = ot := by
  unfold State.gather
  try dsimp only
  repeat' first
    | with_reducible assumption
    | with_reducible apply othersKept_modOp
    | with_reducible apply othersKept_takeNext
    | split
    | with_reducible refine othersKept_iter _ _ (fun _ _ => ?_) ?_

theorem othersKept_releaseLines {s : State} (num : Nat) (ids : List Nat) (hb : s.others = ot) : (State.releaseLines s num ids).others = ot := by
  unfold State.releaseLines
  repeat' first
    | with_reducible assumption
    | (simp only [othersKept_mk]; with_reducible refine othersKept_unfold ?_)

theorem othersKept_takePosting {s : State} (hb : s.others = ot) : (State.takePosting s).others = ot := by
  unfold State.takePosting
  repeat' first
    | with_reducible assumption
    | with_reducible apply othersKept_pushOp
    | split

theorem othersKept_writeMarkers {s : State} (ids : List Nat) (hb : s.others = ot) : (State.writeMarkers s ids).others = ot := by
  unfold State.writeMarkers
  repeat' first
    | with_reducible assumption
    | (simp only [othersKept_mk]; with_reducible refine othersKept_unfold ?_)

theorem othersKept_applyChange (num : Nat) (settled : Option Nat) {s : State} (c : TallyChange) (hb : s.others = ot) : (State.applyChange num settled s c).others = ot := by
  unfold State.applyChange
  try dsimp only
  repeat' first
    | with_reducible assumption
    | with_reducible apply othersKept_putLine
    | with_reducible apply othersKept_storeTally
    | split
    | (simp only [othersKept_mk]; with_reducible refine othersKept_unfold ?_)

theorem othersKept_applyChanges (num : Nat) (settled : Option Nat) {s : State} (cs : List TallyChange) (hb : s.others = ot) : (State.applyChanges num settled s cs).others = ot := by
  unfold State.applyChanges
  repeat' first
    | with_reducible assumption
    | with_reducible apply othersKept_applyChange
    | with_reducible refine othersKept_foldl _ _ (fun _ _ _ => ?_) ?_

theorem othersKept_endWrite {s : State} (w : PendingWrite) (hb : s.others = ot) : (State.endWrite s w).others = ot := by
  unfold State.endWrite
  repeat' first
    | with_reducible assumption
    | with_reducible apply othersKept_modPrin
    | (simp only [othersKept_mk]; with_reducible refine othersKept_unfold ?_)

theorem othersKept_beginRecount {s : State} (pool : Nat) (hb : s.others = ot) : (State.beginRecount s pool).others = ot := by
  unfold State.beginRecount
  repeat' first
    | with_reducible assumption
    | split
    | (simp only [othersKept_mk]; with_reducible refine othersKept_unfold ?_)

theorem othersKept_beginRecounts {s : State} (hb : s.others = ot) : (State.beginRecounts s).others = ot := by
  unfold State.beginRecounts
  repeat' first
    | with_reducible assumption
    | with_reducible apply othersKept_beginRecount
    | with_reducible refine othersKept_foldl _ _ (fun _ _ _ => ?_) ?_

theorem othersKept_memberUnsettled {s : State} (pool : Nat) (hb : s.others = ot) : (State.memberUnsettled s pool).others = ot := by
  unfold State.memberUnsettled
  repeat' first
    | with_reducible assumption
    | with_reducible apply othersKept_modPrin
    | (simp only [othersKept_mk]; with_reducible refine othersKept_unfold ?_)

theorem othersKept_underflow {s : State} (person blocks : Nat) (link : Link) (hb : s.others = ot) : (State.underflow s person blocks link).others = ot := by
  unfold State.underflow
  repeat' first
    | with_reducible assumption
    | with_reducible apply othersKept_raise
    | split

theorem othersKept_jobNotices {s : State} (j : Job) (h : s.others = ot) : (s.jobNotices j).others = ot := by
  cases j <;> simp only [State.jobNotices] <;> (try split) <;>
    first | with_reducible exact h | with_reducible exact othersKept_underflow _ _ _ h

theorem othersKept_writeEdit {s : State} (id : Nat) (c : EditChanges) (hb : s.others = ot) : (State.writeEdit s id c).others = ot := by
  unfold State.writeEdit
  repeat' first
    | with_reducible assumption
    | with_reducible apply othersKept_modPrin

theorem othersKept_modMembers {s : State} (pool : Nat) (f : Nat → Nat) (hb : s.others = ot) : (State.modMembers s pool f).others = ot := by
  unfold State.modMembers
  repeat' first
    | with_reducible assumption
    | with_reducible apply othersKept_modPrin

theorem othersKept_moveCounts {s : State} (p : Principal) (id : Nat) (c : EditChanges) (hb : s.others = ot) : (State.moveCounts s p id c).others = ot := by
  unfold State.moveCounts
  repeat' first
    | with_reducible assumption
    | with_reducible apply othersKept_memberUnsettled
    | with_reducible apply othersKept_modMembers
    | with_reducible apply othersKept_modPrin
    | split
    | with_reducible refine othersKept_foldl _ _ (fun _ _ _ => ?_) ?_

theorem othersKept_deletePrincipal {s : State} (id : Nat) (hb : s.others = ot) : (State.deletePrincipal s id).others = ot := by
  unfold State.deletePrincipal
  repeat' first
    | with_reducible assumption
    | with_reducible apply othersKept_leaveGraceQueue
    | with_reducible apply othersKept_modMembers
    | split
    | with_reducible refine othersKept_foldl _ _ (fun _ _ _ => ?_) ?_
    | (simp only [othersKept_mk]; with_reducible refine othersKept_unfold ?_)

theorem othersKept_regatherIf {s : State} (again : TallyOp → Bool) (hb : s.others = ot) : (State.regatherIf s again).others = ot := by
  unfold State.regatherIf
  try dsimp only
  repeat' first
    | with_reducible assumption
    | split
    | (simp only [othersKept_mk]; with_reducible refine othersKept_unfold ?_)

theorem othersKept_regather {s : State} (id : Nat) (hb : s.others = ot) : (State.regather s id).others = ot := by
  unfold State.regather
  try dsimp only
  repeat' first
    | with_reducible assumption
    | with_reducible apply othersKept_regatherIf
    | split
    | (simp only [othersKept_mk]; with_reducible refine othersKept_unfold ?_)

theorem othersKept_jobRecords {s : State} (j : Job) (h : s.others = ot) : (s.jobRecords j).others = ot := by
  cases j <;> simp only [State.jobRecords] <;> (try split) <;>
    first
    | with_reducible exact h
    | with_reducible exact othersKept_foldl _ _ (fun _ _ h => othersKept_modPrin _ _ h) h
    | (split
       · with_reducible exact othersKept_regather _ (othersKept_writeEdit _ _ (othersKept_moveCounts _ _ _ h))
       · with_reducible exact othersKept_writeEdit _ _ (othersKept_moveCounts _ _ _ h))
    | with_reducible exact othersKept_regather _ (othersKept_deletePrincipal _ h)

theorem othersKept_jobApplied {s : State} (o : TallyOp) (ho : o.job.runsAtOnce = true) (h : s.others = ot) :
    (s.jobApplied o).others = ot := by
  unfold State.jobApplied
  split <;> simp_all [Job.runsAtOnce]

theorem othersKept_completeOp {s : State} (num : Nat) (hb : s.others = ot) : (State.completeOp s num).others = ot := by
  unfold State.completeOp
  repeat' first
    | with_reducible assumption
    | with_reducible apply othersKept_dropOp
    | with_reducible apply othersKept_modOp
    | with_reducible apply othersKept_reply
    | split

theorem othersKept_applyOp {s : State} (num : Nat) (ho : ∀ o, s.op num = some o → o.job.runsAtOnce = true)
    (h : s.others = ot) : (s.applyOp num).others = ot := by
  unfold State.applyOp
  split
  · exact h
  · rename_i o he
    dsimp only
    have h1 := othersKept_applyChanges num o.job.settled (s.changesOf o)
      (othersKept_jobRecords o.job (othersKept_jobNotices o.job h))
    refine othersKept_completeOp _ (othersKept_jobApplied _ (ho o he) (othersKept_releaseLines _ _ (othersKept_modOp _ _
      (othersKept_foldl _ _ (fun _ _ h => othersKept_beginRecount _ h) (othersKept_evalGraceAll _ ?_)))))
    exact h1

theorem othersKept_runOp {s : State} (num : Nat) (ho : ∀ o, s.op num = some o → o.job.runsAtOnce = true)
    (h : s.others = ot) : (s.runOp num).others = ot := by
  have key : ∀ (ids : List Nat) (o : TallyOp), (
      if ((s.lazyExpireAll ids).marksFor o.job.settled ((s.lazyExpireAll ids).changesOf o)).isEmpty = true then
        (s.lazyExpireAll ids).applyOp num
      else (s.lazyExpireAll ids).modOp num fun o => { o with stage := .marking }).others = ot := by
    intro ids o
    split
    · refine othersKept_applyOp _ (fun o he => ho o ?_) (othersKept_lazyExpireAll _ h)
      simpa [State.op, ops_lazyExpireAll] using he
    · exact othersKept_modOp _ _ (othersKept_lazyExpireAll _ h)
  unfold State.runOp
  split
  · exact h
  · exact key _ _

theorem othersKept_setFrozen {s : State} (id : Nat) (b : Bool) (hb : s.others = ot) : (State.setFrozen s id b).others = ot := by
  unfold State.setFrozen
  repeat' first
    | with_reducible assumption
    | with_reducible apply othersKept_modPrin

theorem othersKept_advanceOp {s : State} (num : Nat) (h : s.others = ot) : (s.advanceOp num).others = ot := by
  unfold State.advanceOp
  dsimp only
  split
  · exact othersKept_gather _ h
  · rename_i o he
    split
    · rename_i hr
      split
      · exact othersKept_reply _ _ _ _ (othersKept_dropOp _ (othersKept_releaseLines _ _ (othersKept_gather _ h)))
      · refine othersKept_runOp _ (fun o' he' => ?_) (othersKept_gather _ h)
        rw [he] at he'
        cases he'
        exact hr.2
    · exact othersKept_gather _ h

theorem othersKept_advanceOps {s : State} (hb : s.others = ot) : (State.advanceOps s).others = ot := by
  unfold State.advanceOps
  repeat' first
    | with_reducible assumption
    | with_reducible apply othersKept_advanceOp
    | with_reducible refine othersKept_foldl _ _ (fun _ _ _ => ?_) ?_

theorem othersKept_endModeSwitch {s : State} (hb : s.others = ot) : (State.endModeSwitch s).others = ot := by
  unfold State.endModeSwitch
  try dsimp only
  repeat' first
    | with_reducible assumption
    | with_reducible apply othersKept_reply
    | split
    | with_reducible refine othersKept_foldl _ _ (fun _ _ _ => ?_) ?_
    | (simp only [othersKept_mk]; with_reducible refine othersKept_unfold ?_)

theorem othersKept_advance {s : State} (hb : s.others = ot) : (State.advance s).others = ot := by
  unfold State.advance
  try dsimp only
  repeat' first
    | with_reducible assumption
    | with_reducible apply othersKept_advanceOps
    | with_reducible apply othersKept_castoutDirty
    | with_reducible apply othersKept_endModeSwitch
    | with_reducible apply othersKept_takePosting
    | split
    | with_reducible refine othersKept_iter _ _ (fun _ _ => ?_) ?_
    | (simp only [othersKept_mk]; with_reducible refine othersKept_unfold ?_)

theorem othersKept_drain {s : State} (hb : s.others = ot) : (State.drain s).others = ot := by
  unfold State.drain
  repeat' first
    | with_reducible assumption
    | with_reducible apply othersKept_storeClean
    | split

end Sys2Proof.Machine
end

