-- ==== Sys2Proof/Laws/Finish.lean ====
section
/-! SUPPORT. What `finish` does where the Tally Unit or the Patrol Unit has nothing to go on with, and what
taking a request and answering it do to its link. -/

namespace Sys2Proof.Machine

/-! ### Finishing -/

theorem advance_still {s : State} (h : s.tallyStill) : s.advance = s := by
  obtain ⟨h1, h2, h3, h4⟩ := h
  simp [State.advance, State.castoutDirty, State.takePosting, State.endModeSwitch, State.advanceOps, iter, h1, h2, h3, h4]

theorem abandonIf_still {s : State} (h : s.patrolStill) (p : Repair → Bool) : s.abandonIf p = s := by
  simp [State.abandonIf, h.2.2.1]

theorem checkRepairs_still {s : State} (h : s.patrolStill) : s.checkRepairs = s := by
  have hi : ∀ n, iter n (fun s : State => (s.pat.repairs.map Prod.fst).foldl State.checkRepair s) s = s := by
    intro n
    induction n with
    | zero => rfl
    | succ n ih => rw [iter, h.2.2.1]; exact ih
  exact hi _

theorem settlePatrol_still {s : State} (h : s.patrolStill) : s.settlePatrol = s := by
  rw [State.settlePatrol, abandonIf_still h]
  rw [checkRepairs_still h]
  simp [State.endClearing, h.1, h.2.1, h.2.2.2]

theorem finish_halted {s : State} (h : s.sup.op = .halted) : s.finish = s := by simp [State.finish, h]

/-- With Tally Unit and Patrol Unit at rest, only the offsite link settles. -/
theorem finish_calm {s : State} (h : s.calm) (hh : s.sup.op ≠ .halted) : s.finish = s.settleLink := by
  simp [State.finish, hh, advance_still h.1, State.settle, settlePatrol_still h.2]

/-- Finishing leaves what no settling changes. -/
theorem finish_settles (s : State) : Settles s s.finish := settles_finish (Settles.refl s)

/-- With the Tally Unit at rest, finishing leaves its part. -/
theorem finish_tally {s : State} (h : s.tallyStill) : s.finish.tally = s.tally := by
  unfold State.finish
  split
  · rfl
  · rw [advance_still h]
    exact tallyKept_settle rfl

theorem settleLink_pat (s : State) : s.settleLink.pat = s.pat := by
  have hp : ∀ n (s : State), (iter n State.redirectOnce s).pat = s.pat := by
    intro n
    induction n with
    | zero => intro; rfl
    | succ n ih =>
      intro s
      rw [iter, ih]
      unfold State.redirectOnce
      dsimp only
      repeat' split
      all_goals rfl
  have ho : ∀ s : State, s.askOpening.pat = s.pat := by
    intro s
    unfold State.askOpening
    split <;> rfl
  have hs : ∀ n (s : State), (iter n State.serveRoomOnce s).pat = s.pat := by
    intro n
    induction n with
    | zero => intro; rfl
    | succ n ih =>
      intro s
      rw [iter, ih]
      unfold State.serveRoomOnce
      repeat' split
      all_goals first | rfl | (simp only [State.placeFetch, ho]; rfl)
  have h1 : s.settleLink.pat = (State.redirect (s.clearShed.serveRoom)).pat := rfl
  rw [h1, State.redirect, hp, State.serveRoom, hs]
  rfl

/-- With the Patrol Unit at rest, finishing leaves its part. -/
theorem finish_pat {s : State} (h : s.patrolStill) : s.finish.pat = s.pat := by
  unfold State.finish
  split
  · rfl
  · have ha : s.advance.others = s.others := othersKept_advance rfl
    have hp : s.advance.pat = s.pat := congrArg (fun x => x.2.2.2.2) ha
    have hs : s.advance.patrolStill := by
      obtain ⟨h1, h2, h3, h4⟩ := h
      exact ⟨by rw [hp]; exact h1, by rw [hp]; exact h2, by rw [hp]; exact h3, by rw [hp]; exact h4⟩
    rw [State.settle, settlePatrol_still hs, settleLink_pat, hp]

end Sys2Proof.Machine
end

