-- ==== Sys2Proof/Laws/LinkSettle.lean ====
section
/-! SUPPORT. What the offsite link's own settling reads, and where it does nothing. -/

namespace Sys2Proof.Machine

/-- What the offsite link's settling reads is equal in two states. -/
def LinkAlike (a b : State) : Prop :=
  a.off = b.off ∧ a.cat = b.cat ∧ a.str = b.str ∧ a.sup.op = b.sup.op ∧ a.sup.elapsed = b.sup.elapsed ∧
    a.sup.settings = b.sup.settings ∧ a.rst = b.rst

namespace LinkAlike

theorem modOff {a b : State} (h : LinkAlike a b) {f g : Offsite → Offsite} (hf : f a.off = g b.off) :
    LinkAlike (a.modOff f) (b.modOff g) := ⟨hf, h.2⟩

theorem startOpening {a b : State} (h : LinkAlike a b) : LinkAlike a.startOpening b.startOpening := by
  obtain ⟨h1, h2, h3, h4, h5, h6, h7⟩ := h
  refine ⟨?_, h2, h3, h4, h5, h6, h7⟩
  simp only [State.startOpening, State.modOff, State.send, State.returningDrops, State.snapshot, h1, h2, h5, h6]

theorem askOpening {a b : State} (h : LinkAlike a b) : LinkAlike a.askOpening b.askOpening := by
  unfold State.askOpening
  rw [h.1, h.2.2.2.1]
  split
  · exact h.startOpening
  · exact h

theorem clearShed {a b : State} (h : LinkAlike a b) : LinkAlike a.clearShed b.clearShed :=
  h.modOff (by rw [h.1])

theorem firstRoom {a b : State} (h : LinkAlike a b) : a.firstRoom = b.firstRoom := by
  obtain ⟨h1, h2, -, h4, -, -, h7⟩ := h
  have hs : a.sourceOf = b.sourceOf := by unfold State.sourceOf State.extent; rw [h2]
  have hd : a.damaged = b.damaged := by unfold State.damaged State.volume; rw [h2]
  have hp : a.passedOver = b.passedOver := by unfold State.passedOver; rw [hs, hd]
  have hn : a.nextStep = b.nextStep := by unfold State.nextStep; rw [hp]
  have hi : a.isNextStep = b.isNextStep := by
    unfold State.isNextStep State.takesSteps State.restore; rw [hn, h4, h7]
  unfold State.firstRoom
  rw [hi, h1]

theorem serveRoomOnce {a b : State} (h : LinkAlike a b) : LinkAlike a.serveRoomOnce b.serveRoomOnce := by
  have hr : ∀ k, a.fetchRoom k = b.fetchRoom k := by
    intro k; unfold State.fetchRoom State.fetchesOut; rw [h.1]
  unfold State.serveRoomOnce
  rw [h.firstRoom]
  split
  · exact h
  · rw [hr]
    split
    · rename_i w _ _
      have h1 : LinkAlike (a.modOff fun o => { o with roomWaits := o.roomWaits.erase w })
          (b.modOff fun o => { o with roomWaits := o.roomWaits.erase w }) := h.modOff (by rw [h.1])
      exact (h1.modOff (by rw [h1.1])).askOpening
    · exact h

theorem iter {a b : State} (f : State → State) (hf : ∀ a b, LinkAlike a b → LinkAlike (f a) (f b)) (n : Nat)
    (h : LinkAlike a b) : LinkAlike (Machine.iter n f a) (Machine.iter n f b) := by
  induction n generalizing a b with
  | zero => exact h
  | succ n ih => exact ih (hf a b h)

theorem serveRoom {a b : State} (h : LinkAlike a b) : LinkAlike a.serveRoom b.serveRoom := by
  unfold State.serveRoom
  rw [h.1]
  exact iter _ (fun _ _ h => h.serveRoomOnce) _ h

theorem work {a b : State} (h : LinkAlike a b) :
    a.shipWork = b.shipWork ∧ a.fetchWork = b.fetchWork ∧ a.shipReady = b.shipReady := by
  refine ⟨?_, ?_, ?_⟩ <;>
    simp [State.shipWork, State.fetchWork, State.shipReady, State.windowIsOpen, State.nightEnding, h.1]

theorem chooseDir {a b : State} (h : LinkAlike a b) : LinkAlike a.chooseDir b.chooseDir :=
  h.modOff (by rw [h.1, h.work.1, h.work.2.1])

theorem closeLink {a b : State} (h : LinkAlike a b) : LinkAlike a.closeLink b.closeLink := by
  obtain ⟨h1, h2, h3, h4, h5, h6, h7⟩ := h
  refine ⟨?_, h2, ?_, h4, h5, h6, h7⟩
  · simp only [State.closeLink, State.modOff, State.send, State.leaveUp, h1]
  · simp only [State.closeLink, State.modOff, State.send, State.leaveUp, h3]

theorem redirectOnce {a b : State} (h : LinkAlike a b) : LinkAlike a.redirectOnce b.redirectOnce := by
  unfold State.redirectOnce
  rw [h.1, h.work.1, h.work.2.1, h.work.2.2]
  dsimp only
  repeat' split
  all_goals first
    | exact h
    | exact h.chooseDir
    | exact h.closeLink
    | exact h.modOff (by rw [h.1])

theorem markRest {a b : State} (h : LinkAlike a b) : LinkAlike a.markRest b.markRest := by
  refine h.modOff ?_
  have hr : a.linkAtRest = b.linkAtRest := by
    simp [State.linkAtRest, State.linkUp, State.workWaits, State.windowIsOpen, h.1]
  rw [h.1, hr, h.2.2.2.2.1]

theorem settleLink {a b : State} (h : LinkAlike a b) : LinkAlike a.settleLink b.settleLink :=
  (iter _ (fun _ _ h => h.redirectOnce) 3 h.clearShed.serveRoom).markRest

end LinkAlike

/-- Where the offsite link has nothing to go on with, its settling does nothing. -/
theorem settleLink_still {s : State} (h : s.linkStill) : s.settleLink = s := by
  obtain ⟨h1, h2, h3, h4⟩ := h
  have hc : s.clearShed = s := by
    unfold State.clearShed State.modOff
    dsimp only
    rw [List.filter_eq_self.mpr]
    intro e he
    have hn : ((s.off.plan.filter fun p => decide (p.state = .shed) || decide (p.state = .failed)).map
        PlanVol.vol).contains e.vol = false := by
      simp only [List.contains_eq_mem, decide_eq_false_iff_not, List.mem_map, List.mem_filter, not_exists, not_and]
      intro p ⟨hp, hs⟩ hv
      exact h4 p hp (by simpa using hs) e he hv.symm
    rw [hn]; rfl
  have hs : s.serveRoom = s := by simp [State.serveRoom, h3, iter]
  have hd : s.redirect = s := by simp [State.redirect, iter, State.redirectOnce, h1]
  have hm : s.markRest = s := by
    have : s.linkAtRest = false := by simp [State.linkAtRest, State.linkUp, h1]
    unfold State.markRest State.modOff
    simp only [this]
    rw [if_neg (by simp), ← h2]
  rw [State.settleLink, hc, hs, hd, hm]

theorem settleLink_cat (s : State) : s.settleLink.cat = s.cat := by
  have hp : ∀ n (s : State), (iter n State.redirectOnce s).cat = s.cat := by
    intro n
    induction n with
    | zero => intro; rfl
    | succ n ih =>
      intro s
      rw [iter, ih]
      unfold State.redirectOnce
      dsimp only
      repeat' split
      all_goals rfl
  have ho : ∀ s : State, s.askOpening.cat = s.cat := by
    intro s
    unfold State.askOpening
    split <;> rfl
  have hs : ∀ n (s : State), (iter n State.serveRoomOnce s).cat = s.cat := by
    intro n
    induction n with
    | zero => intro; rfl
    | succ n ih =>
      intro s
      rw [iter, ih]
      unfold State.serveRoomOnce
      repeat' split
      all_goals first | rfl | (simp only [State.placeFetch, ho]; rfl)
  have h1 : s.settleLink.cat = (State.redirect (s.clearShed.serveRoom)).cat := rfl
  rw [h1, State.redirect, hp, State.serveRoom, hs]
  rfl

/-- With Tally Unit and Patrol Unit at rest, a state that differs from another in nothing the offsite link's
settling reads leaves its catalogue, slots and queues undisturbed as it finishes. -/
theorem undisturbed_finish {s u : State} (h : LinkAlike u s) (hc : u.calm) (hh : u.sup.op ≠ .halted) :
    Undisturbed s u.finish := by
  rw [finish_calm hc hh]
  have hl := h.settleLink
  refine ⟨by rw [settleLink_cat, h.2.1], hl.1, hl.2.2.1, fun hs => ?_⟩
  rw [hl.1, hl.2.2.1, settleLink_still hs]
  exact ⟨rfl, rfl⟩

end Sys2Proof.Machine
end

