-- ==== Sys2Proof/Laws/Requests.lean ====
section
/-! SUPPORT. Requests: what taking one does, and that an answered request stays answered while the blocks
settle. -/

namespace Sys2Proof.Machine

/-! ### The frame of a meaning -/

theorem act_running {s : State} (f : State → State) (h : s.sup.op ≠ .halted) :
    act f s = .next (f { s with sent := [] }) := by simp [act, h]

theorem act_halted {s : State} (f : State → State) (h : s.sup.op = .halted) :
    act f s = .next { s with sent := [] } := by simp [act, h]

@[simp] theorem withErrs_nil {s : State} (f : State → State) (h : s.sup.op ≠ .halted) : withErrs [] f s = f s := by
  simp [withErrs, h]

theorem takes_running {s : State} {l : Link} (h : s.takes l) : s.sup.op ≠ .halted := by
  rcases h.1 with h | h <;> simp [h]

/-! ### Taking a request -/

/-- The entry that a request takes. -/
def entryOf (s : State) (tag : Nat) (k : ReqKind) (taken : Bool) : ReqEntry :=
  { num := s.sup.nextReq, tag := tag, kind := k, taken := taken, stale := false }

/-- The state in which a request that a link takes is given to its block. -/
def State.entered (s : State) (l : Link) (tag : Nat) (k : ReqKind) (taken : Bool) : State :=
  (s.modSup fun u => { u with nextReq := u.nextReq + 1 }).modLink l fun r =>
    { r with
      up := true, badRun := 0, idle := false, idleFrom := s.sup.elapsed
      queue := r.queue ++ [entryOf s tag k taken] }

theorem modLink_modLink (s : State) (l : Link) (f g : LinkRec → LinkRec) :
    (s.modLink l f).modLink l g = s.modLink l fun r => g (f r) := by
  simp [State.modLink, State.link]

/-- What `request` does where the link takes the request: its block gets it, with the double errors it meets. -/
theorem request_takes {s : State} {l : Link} (tag : Nat) (k : ReqKind) (taken : Bool) {co : Bool}
    (errs : List StoreError) (body : Nat → State → State) (h : s.takes l) (hc : co = false ∨ s.role l = .console) :
    request l tag k taken co errs body s =
      withErrs errs (body s.sup.nextReq) (s.entered l tag k taken) := by
  have hrun := takes_running h
  obtain ⟨hop, hup, hq, -⟩ := h
  have h1 : (s.arrive l).busy l = s.modLink l fun r =>
      { r with up := true, badRun := 0, idle := false, idleFrom := s.sup.elapsed } := by
    simp [State.arrive, hup, State.busy, modLink_modLink]
  have h2 : ¬((s.modLink l fun r =>
      { r with up := true, badRun := 0, idle := false, idleFrom := s.sup.elapsed }).sup.op = .loading ∨
      (s.modLink l fun r =>
      { r with up := true, badRun := 0, idle := false, idleFrom := s.sup.elapsed }).sup.op = .holdup) := by
    rcases hop with h | h <;> simp [h]
  unfold request
  dsimp only
  rw [h1, hup, if_pos rfl, if_pos rfl, withErrs_nil _ (by simpa using hrun), if_neg h2, State.link_modLink_self,
    if_neg (by simpa using hq), if_neg]
  · congr 1
    simp [State.entered, State.modLink, State.modSup, State.link, entryOf]
  · rintro ⟨hc', hr⟩
    rcases hc with h | h
    · simp [h] at hc'
    · have : s.role l = .fileserver := hr
      simp [this] at h

@[simp] theorem entered_sup (s : State) (l : Link) (tag : Nat) (k : ReqKind) (taken : Bool) :
    (s.entered l tag k taken).sup = { s.sup with nextReq := s.sup.nextReq + 1 } := rfl
@[simp] theorem entered_tally (s : State) (l : Link) (tag : Nat) (k : ReqKind) (taken : Bool) :
    (s.entered l tag k taken).tally = s.tally := rfl
@[simp] theorem entered_cat (s : State) (l : Link) (tag : Nat) (k : ReqKind) (taken : Bool) :
    (s.entered l tag k taken).cat = s.cat := rfl
@[simp] theorem entered_rst (s : State) (l : Link) (tag : Nat) (k : ReqKind) (taken : Bool) :
    (s.entered l tag k taken).rst = s.rst := rfl
@[simp] theorem entered_str (s : State) (l : Link) (tag : Nat) (k : ReqKind) (taken : Bool) :
    (s.entered l tag k taken).str = s.str := rfl
@[simp] theorem entered_off (s : State) (l : Link) (tag : Nat) (k : ReqKind) (taken : Bool) :
    (s.entered l tag k taken).off = s.off := rfl
@[simp] theorem entered_pat (s : State) (l : Link) (tag : Nat) (k : ReqKind) (taken : Bool) :
    (s.entered l tag k taken).pat = s.pat := rfl
@[simp] theorem entered_link (s : State) (l : Link) (tag : Nat) (k : ReqKind) (taken : Bool) :
    (s.entered l tag k taken).link l =
      { s.link l with
        up := true, badRun := 0, idle := false, idleFrom := s.sup.elapsed
        queue := (s.link l).queue ++ [entryOf s tag k taken] } := by
  simp [State.entered]
theorem entered_link_ne (s : State) {l j : Link} (tag : Nat) (k : ReqKind) (taken : Bool) (h : l ≠ j) :
    (s.entered l tag k taken).link j = s.link j := by
  simp [State.entered, h]

/-! ### Answering -/

/-- A request that has come to its block and is not yet answered: the link is UP, its entry is the last of
the queue, and its waiting frames are at most more than they were. -/
def Entered (s u : State) (l : Link) (tag : Nat) (k : ReqKind) (taken : Bool) : Prop :=
  (u.link l).up = true ∧ (∃ more, (u.link l).tx = (s.link l).tx ++ more) ∧
    (u.link l).queue = (s.link l).queue ++ [entryOf s tag k taken]

theorem entered_self (s : State) (l : Link) (tag : Nat) (k : ReqKind) (taken : Bool) :
    Entered s (s.entered l tag k taken) l tag k taken := by
  refine ⟨by simp, ⟨[], by simp⟩, by simp⟩

theorem find_entry {q : List ReqEntry} {s : State} (tag : Nat) (k : ReqKind) (taken : Bool)
    (h : ∀ e ∈ q, e.num < s.sup.nextReq) :
    (q ++ [entryOf s tag k taken]).find? (fun e => e.num == s.sup.nextReq) = some (entryOf s tag k taken) := by
  rw [List.find?_append, List.find?_eq_none.mpr]
  · simp [entryOf]
  · intro e he
    have := h e he
    simp; omega

theorem filter_entry {q : List ReqEntry} {s : State} (tag : Nat) (k : ReqKind) (taken : Bool)
    (h : ∀ e ∈ q, e.num < s.sup.nextReq) :
    (q ++ [entryOf s tag k taken]).filter (fun e => e.num != s.sup.nextReq) = q := by
  rw [List.filter_append, List.filter_eq_self.mpr]
  · simp [entryOf]
  · intro e he
    have := h e he
    simp; omega

/-- Replying to a request that has come to its block: the reply joins its link's frames, and its entry
leaves the queue. -/
theorem reply_entered {s u : State} {l : Link} {tag : Nat} {k : ReqKind} {taken : Bool} (st : Status) (b : ReplyBody)
    (hq : ∀ e ∈ (s.link l).queue, e.num < s.sup.nextReq) (h : Entered s u l tag k taken) :
    ((u.reply l s.sup.nextReq st b).link l).tx = (u.link l).tx ++ [.reply tag k st b] ∧
      ((u.reply l s.sup.nextReq st b).link l).queue = (s.link l).queue := by
  obtain ⟨hup, -, hqueue⟩ := h
  have hr : (u.link l).reply s.sup.nextReq st b =
      { u.link l with queue := (s.link l).queue, tx := (u.link l).tx ++ [.reply tag k st b] } := by
    unfold LinkRec.reply
    rw [hqueue, find_entry tag k taken hq, filter_entry tag k taken hq]
    simp [entryOf, hup]
  unfold State.reply State.restartIdle
  rw [modLink_modLink, State.link_modLink_self, hr]
  exact ⟨rfl, rfl⟩

/-- A request replied to is answered. -/
theorem answered_reply {s u : State} {l : Link} {tag : Nat} {k : ReqKind} {taken : Bool} (st : Status) (b : ReplyBody)
    (hq : ∀ e ∈ (s.link l).queue, e.num < s.sup.nextReq) (h : Entered s u l tag k taken) :
    Answered s (u.reply l s.sup.nextReq st b) l tag k st b := by
  have h1 := reply_entered st b hq h
  obtain ⟨-, ⟨more, hm⟩, -⟩ := h
  refine ⟨⟨more ++ [.reply tag k st b], ?_, by simp⟩, by rw [h1.2]⟩
  rw [h1.1, hm, List.append_assoc]

/-- What settles keeps a request answered. -/
theorem Answered.settles {s u t : State} {l : Link} {tag : Nat} {k : ReqKind} {st : Status} {b : ReplyBody}
    (h : Answered s u l tag k st b) (hs : Settles u t) : Answered s t l tag k st b := by
  obtain ⟨⟨more, hm, hr⟩, hq⟩ := h
  have hl := hs.2.1 l
  obtain ⟨x, hx⟩ := hl.2.2.1
  refine ⟨⟨more ++ x, ?_, by simp [hr]⟩, hl.2.1.trans hq⟩
  show (t.links[l]).tx = _
  rw [← hx, hm, List.append_assoc]

theorem Answered.finish {s u : State} {l : Link} {tag : Nat} {k : ReqKind} {st : Status} {b : ReplyBody}
    (h : Answered s u l tag k st b) : Answered s u.finish l tag k st b := h.settles (finish_settles u)

/-- The state whose output was cleared takes and answers what it took and answered. -/
theorem takes_unsent {s : State} {l : Link} (h : s.takes l) : ({ s with sent := [] } : State).takes l := h
theorem answered_unsent {s t : State} {l : Link} {tag : Nat} {k : ReqKind} {st : Status} {b : ReplyBody}
    (h : Answered { s with sent := [] } t l tag k st b) : Answered s t l tag k st b := h

end Sys2Proof.Machine
end

