-- ==== Sys2Proof/Laws/Sound.lean ====
section
/-! SUPPORT. The invariants of the state kept: one lemma for each operation of the part. -/

namespace Sys2Proof.Machine

/-! ### The parts of a state changed -/

theorem sound_mk (u ls t c r st o p pe se) : (State.mk u ls t c r st o p pe se).sound = partsSound u ls t c r st o p := rfl
theorem sound_unfold {s : State} (h : s.sound) : partsSound s.sup s.links s.tally s.cat s.rst s.str s.off s.pat := h
theorem sound_chSup {s : State} {u : Supervisor} (hu : s.sup.sound → u.sound) (h : s.sound) :
    partsSound u s.links s.tally s.cat s.rst s.str s.off s.pat := ⟨hu h.1, h.2⟩
theorem sound_chTally {s : State} {y : Tally} (hu : s.tally.sound → y.sound) (h : s.sound) :
    partsSound s.sup s.links y s.cat s.rst s.str s.off s.pat := ⟨h.1, h.2.1, hu h.2.2.1, h.2.2.2⟩
theorem sound_chCat {s : State} {y : Catalogue} (hu : s.cat.sound → y.sound) (h : s.sound) :
    partsSound s.sup s.links s.tally y s.rst s.str s.off s.pat := ⟨h.1, h.2.1, h.2.2.1, hu h.2.2.2.1, h.2.2.2.2⟩
theorem sound_chRst {s : State} {y : RestoreEngine} (hu : s.rst.sound → y.sound) (h : s.sound) :
    partsSound s.sup s.links s.tally s.cat y s.str s.off s.pat :=
  ⟨h.1, h.2.1, h.2.2.1, h.2.2.2.1, hu h.2.2.2.2.1, h.2.2.2.2.2⟩
theorem sound_chStr {s : State} {y : Stream} (hu : s.str.sound → y.sound) (h : s.sound) :
    partsSound s.sup s.links s.tally s.cat s.rst y s.off s.pat :=
  ⟨h.1, h.2.1, h.2.2.1, h.2.2.2.1, h.2.2.2.2.1, hu h.2.2.2.2.2.1, h.2.2.2.2.2.2⟩
theorem sound_chOff {s : State} {y : Offsite} (hu : s.off.sound → y.sound) (h : s.sound) :
    partsSound s.sup s.links s.tally s.cat s.rst s.str y s.pat :=
  ⟨h.1, h.2.1, h.2.2.1, h.2.2.2.1, h.2.2.2.2.1, h.2.2.2.2.2.1, hu h.2.2.2.2.2.2.1, h.2.2.2.2.2.2.2⟩
theorem sound_chPat {s : State} {y : Patrol} (hu : s.pat.sound → y.sound) (h : s.sound) :
    partsSound s.sup s.links s.tally s.cat s.rst s.str s.off y :=
  ⟨h.1, h.2.1, h.2.2.1, h.2.2.2.1, h.2.2.2.2.1, h.2.2.2.2.2.1, h.2.2.2.2.2.2.1, hu h.2.2.2.2.2.2.2⟩
theorem sound_foldl {α : Type} (f : State → α → State) (xs : List α) {s : State} (hf : ∀ s x, s.sound → (f s x).sound) (h : s.sound) :
    (xs.foldl f s).sound := by
  induction xs generalizing s with
  | nil => exact h
  | cons x xs ih => exact ih (hf s x h)
theorem sound_iter (n : Nat) (f : State → State) {s : State} (hf : ∀ s, s.sound → (f s).sound) (h : s.sound) :
    (iter n f s).sound := by
  induction n generalizing s with
  | zero => exact h
  | succ n ih => exact ih (hf s h)
theorem sound_modLink {s : State} (l : Link) (f : LinkRec → LinkRec)
    (hf : ∀ r, r.sound → (f r).sound) (h : s.sound) : (s.modLink l f).sound := by
  refine ⟨h.1, fun k => ?_, h.2.2⟩
  simp only [State.modLink, State.link]
  by_cases hk : (l : Nat) = (k : Nat)
  · have : l = k := Fin.ext hk
    subst this
    simpa using hf _ (h.2.1 l)
  · simpa [Vector.getElem_set, hk] using h.2.1 k
theorem sound_modSup {s : State} (f : Supervisor → Supervisor) (hf : s.sup.sound → (f s.sup).sound)
    (h : s.sound) : (s.modSup f).sound := ⟨hf h.1, h.2⟩
theorem sound_modOff {s : State} (f : Offsite → Offsite) (hf : s.off.sound → (f s.off).sound) (h : s.sound) :
    (s.modOff f).sound := sound_chOff (s := s) hf h
theorem sound_modPat {s : State} (f : Patrol → Patrol) (hf : s.pat.sound → (f s.pat).sound) (h : s.sound) :
    (s.modPat f).sound := sound_chPat (s := s) hf h
theorem sound_modRst {s : State} (f : RestoreEngine → RestoreEngine) (hf : s.rst.sound → (f s.rst).sound)
    (h : s.sound) : (s.modRst f).sound := sound_chRst (s := s) hf h
theorem sound_draw {s : State} (hb : s.sound) : s.draw.2.sound := sound_modSup _ (fun hs => hs) hb
theorem length_mapIf {α : Type} (p : α → Bool) (f : α → α) (xs : List α) : (mapIf p f xs).length = xs.length := by
  simp [mapIf]
theorem wf_of_keys {α β : Type} {t : Tbl α} {u : Tbl β} (hk : u.map Prod.fst = t.map Prod.fst) (h : t.wf = true) : u.wf = true := by
  have : ∀ (b : Nat) (t : Tbl α) (u : Tbl β), u.map Prod.fst = t.map Prod.fst → risingFrom b t = true → risingFrom b u = true := by
    intro b t
    induction t generalizing b with
    | nil => intro u hk _; simp only [List.map_nil, List.map_eq_nil_iff] at hk; subst hk; rfl
    | cons x t ih =>
      intro u hk hr
      cases u with
      | nil => simp at hk
      | cons y u =>
        simp only [List.map_cons, List.cons.injEq] at hk
        obtain ⟨xk, xv⟩ := x
        obtain ⟨yk, yv⟩ := y
        simp only at hk
        simp only [risingFrom, Bool.and_eq_true, decide_eq_true_eq] at hr ⊢
        rw [hk.1]
        exact ⟨hr.1, ih _ u hk.2 hr.2⟩
  exact this 0 t u hk h

/-! ### Lists -/

theorem mem_mapIf {α : Type} {p : α → Bool} {f : α → α} {xs : List α} {y : α} (h : y ∈ mapIf p f xs) :
    ∃ x ∈ xs, y = if p x then f x else x := by
  simp only [mapIf, List.mem_map] at h
  obtain ⟨x, hx, rfl⟩ := h
  exact ⟨x, hx, rfl⟩

/-! ### The Tally Unit -/

/-- The records of one table carry what those of another do, and every marker of it. -/
def Tally.keeps (y z : Tally) : Prop :=
  (∀ id, (tget y.principals id).isSome = true → (tget z.principals id).isSome = true) ∧
    ∀ id, y.marked id → z.marked id

theorem Line.sound_keeps {y z : Tally} (k : y.keeps z) {x : Line} (h : x.sound y) : x.sound z :=
  ⟨h.1, h.2.1, h.2.2.1, fun hf => k.1 _ (h.2.2.2.1 hf), fun hd => k.2 _ (h.2.2.2.2 hd)⟩
theorem Castout.sound_keeps {y z : Tally} (k : y.keeps z) {x : Castout} (h : x.sound y) : x.sound z :=
  ⟨h.1, k.2 _ h.2⟩

theorem Tally.sound_prins {y : Tally} (t : Tbl Principal) (hw : t.wf = true) (k : y.keeps { y with principals := t })
    (h : y.sound) : ({ y with principals := t } : Tally).sound :=
  ⟨hw, h.2.1, h.2.2.1, h.2.2.2.1, fun x hx => Line.sound_keeps k (h.2.2.2.2.1 x hx),
    fun c hc => Castout.sound_keeps k (h.2.2.2.2.2 c hc)⟩

theorem keeps_tmod (y : Tally) (id : Nat) (f : Principal → Principal) (hf : ∀ p, p.marker = true → (f p).marker = true) :
    y.keeps { y with principals := tmod y.principals id f } := by
  refine ⟨fun j hj => ?_, fun j hj => ?_⟩
  · simp only [tget_tmod]
    split
    · rename_i he; subst he; simpa using hj
    · exact hj
  · obtain ⟨p, hp, hm⟩ := hj
    simp only [Tally.marked, tget_tmod]
    split
    · rename_i he; subst he; exact ⟨f p, by simp [hp], hf p hm⟩
    · exact ⟨p, hp, hm⟩

theorem sound_modPrin' {s : State} (id : Nat) (f : Principal → Principal) (hf : ∀ p, p.marker = true → (f p).marker = true)
    (h : s.sound) : (s.modPrin id f).sound := by
  unfold State.modPrin
  simp only [sound_mk]
  exact sound_chTally (fun hy => Tally.sound_prins _ (wf_tmod _ _ hy.1) (keeps_tmod _ _ _ hf) hy) h

/-- A record changed so that it may lose its marker where its tally stands in no dirty line or castout entry. -/
theorem sound_modPrin_kept {s : State} (id : Nat) (f : Principal → Principal)
    (hf : s.unwritten id = true → ∀ p, p.marker = true → (f p).marker = true)
    (h : s.sound) : (s.modPrin id f).sound := by
  by_cases hu : s.unwritten id = true
  · exact sound_modPrin' id f (hf hu) h
  · unfold State.modPrin
    simp only [sound_mk]
    refine sound_chTally (fun hy => ?_) h
    have hn : ∀ x ∈ s.tally.cache, x.id = id → x.dirty = false := by
      intro x hx hi
      simp only [State.unwritten, Bool.or_eq_true, List.any_eq_true, not_or, not_exists, not_and] at hu
      have := hu.1 x hx
      simpa [hi] using this
    have hc : ∀ c ∈ s.tally.castout, c.id ≠ id := by
      intro c hc hi
      simp only [State.unwritten, Bool.or_eq_true, not_or, State.castoutOf, Bool.not_eq_true, Option.isSome_eq_false_iff,
        Option.isNone_iff_eq_none, List.find?_eq_none] at hu
      have := hu.2 c hc
      simp [hi] at this
    have hs : ∀ j, (tget s.tally.principals j).isSome = true → (tget (tmod s.tally.principals id f) j).isSome = true := by
      intro j hj
      simp only [tget_tmod]
      split
      · rename_i he; subst he; simpa using hj
      · exact hj
    refine ⟨wf_tmod _ _ hy.1, hy.2.1, hy.2.2.1, hy.2.2.2.1, fun x hx => ?_, fun c hx => ?_⟩
    · have hl := hy.2.2.2.2.1 x hx
      refine ⟨hl.1, hl.2.1, hl.2.2.1, fun hf => hs _ (hl.2.2.2.1 hf), fun hd => ?_⟩
      obtain ⟨p, hp, hm⟩ := hl.2.2.2.2 hd
      have hne : id ≠ x.id := fun he => by simp [hn x hx he.symm] at hd
      exact ⟨p, by simp [hne, hp], hm⟩
    · obtain ⟨hd, p, hp, hm⟩ := hy.2.2.2.2.2 c hx
      exact ⟨hd, p, by simp [Ne.symm (hc c hx), hp], hm⟩

theorem sound_storeTally {s : State} (id used reserved : Nat) (hb : s.sound) : (s.storeTally id used reserved).sound := by
  unfold State.storeTally
  dsimp only
  simp only [sound_mk]
  exact sound_chTally (fun h => h) (sound_modPrin_kept id _ (fun hu p hp => by simp [hp, hu]) hb)

theorem sound_endWrite {s : State} (w : PendingWrite) (hb : s.sound) : (s.endWrite w).sound := by
  unfold State.endWrite
  dsimp only
  simp only [sound_mk]
  exact sound_chTally (fun h => h) (sound_modPrin_kept w.id _ (fun hu p hp => by simp [hp, hu]) hb)

/-- Lines each made of one there was, none worse. -/
theorem Tally.sound_cache {y : Tally} (c : List Line) (hc : ∀ x ∈ c, x.sound y) (h : y.sound) :
    ({ y with cache := c } : Tally).sound := ⟨h.1, h.2.1, h.2.2.1, h.2.2.2.1, hc, h.2.2.2.2.2⟩

theorem sound_cacheMap {s : State} (p : Line → Bool) (f : Line → Line)
    (hf : ∀ x, x.sound s.tally → (f x).sound s.tally) (h : s.sound) :
    ({ s with tally.cache := mapIf p f s.tally.cache } : State).sound := by
  simp only [sound_mk]
  refine sound_chTally (fun hy => Tally.sound_cache _ (fun x hx => ?_) hy) h
  obtain ⟨z, hz, rfl⟩ := mem_mapIf hx
  split
  · exact hf z (hy.2.2.2.2.1 z hz)
  · exact hy.2.2.2.2.1 z hz

theorem Line.sound_clean {y : Tally} {x : Line} (u r : Nat) (h : x.sound y) :
    ({ x with used := u, reserved := r, dUsed := 0, dReserved := 0, dirty := false } : Line).sound y :=
  ⟨Nat.zero_le _, fun _ => ⟨rfl, rfl⟩, fun _ => rfl, h.2.2.2.1, fun hd => by simp at hd⟩

theorem sound_storeClean {s : State} (id used reserved : Nat) (hb : s.sound) : (s.storeClean id used reserved).sound := by
  unfold State.storeClean
  refine sound_storeTally _ _ _ ?_
  simp only [sound_mk]
  refine sound_chTally (fun hy => ?_) hb
  refine ⟨hy.1, hy.2.1, Nat.le_trans (List.length_filter_le ..) hy.2.2.1, hy.2.2.2.1, fun x hx => ?_, fun c hc =>
    hy.2.2.2.2.2 c (List.mem_of_mem_filter hc)⟩
  obtain ⟨z, hz, rfl⟩ := mem_mapIf hx
  have hl := hy.2.2.2.2.1 z hz
  split
  · split
    · rename_i hf
      have hd := hl.2.2.1 hf
      exact ⟨hl.1, fun _ => hl.2.1 hd, fun _ => rfl, hl.2.2.2.1, fun h => by simp at h⟩
    · exact Line.sound_clean used reserved hl
  · exact hl

theorem sound_putLine' {s : State} (x : Line) (hx : x.sound s.tally) (hb : s.sound) : (s.putLine x).sound := by
  unfold State.putLine
  simp only [sound_mk]
  refine sound_chTally (fun hy => Tally.sound_cache _ (fun z hz => ?_) hy) hb
  rcases List.mem_cons.mp hz with rfl | hz
  · exact hx
  · exact hy.2.2.2.2.1 z (List.mem_of_mem_filter hz)

theorem Line.castout_sound {y : Tally} {x : Line} (hd : x.dirty = true) (h : x.sound y) : x.castout.sound y :=
  ⟨h.1, h.2.2.2.2 hd⟩

theorem sound_castoutDirty {s : State} (hb : s.sound) : (s.castoutDirty).sound := by
  unfold State.castoutDirty
  split
  · dsimp only
    simp only [sound_mk]
    refine sound_chTally (fun hy => ?_) hb
    refine ⟨hy.1, hy.2.1, ?_, hy.2.2.2.1, fun x hx => ?_, fun c hc => ?_⟩
    · have := hy.2.2.1
      simp only [List.length_append, List.length_map]
      have h2 := List.length_take_le (Config.castoutSize - s.tally.castout.length)
        (s.tally.cache.reverse.filter fun x => x.dirty && x.held.isNone)
      omega
    · obtain ⟨z, hz, rfl⟩ := mem_mapIf hx
      have hl := hy.2.2.2.2.1 z hz
      split
      · exact ⟨Nat.zero_le _, fun _ => ⟨rfl, rfl⟩, fun _ => rfl, hl.2.2.2.1, fun hd => by simp at hd⟩
      · exact hl
    · rcases List.mem_append.mp hc with hc | hc
      · exact hy.2.2.2.2.2 c hc
      · simp only [List.mem_map] at hc
        obtain ⟨x, hx, rfl⟩ := hc
        have h2 := List.mem_of_mem_filter (List.mem_of_mem_take hx)
        have h3 := List.of_mem_filter (List.mem_of_mem_take hx)
        simp only [Bool.and_eq_true] at h3
        exact Line.castout_sound h3.1 (hy.2.2.2.2.1 x (by simpa using h2))
  · exact hb

theorem Line.sound_held {y : Tally} {x : Line} (o : Option Nat) (h : x.sound y) : ({ x with held := o } : Line).sound y := h

theorem sound_takeSet {s : State} (num : Nat) (group : List Nat) (hb : s.sound) : (s.takeSet num group).sound := by
  unfold State.takeSet
  dsimp only
  split
  · exact hb
  · rename_i hc
    simp only [not_or, Nat.not_lt] at hc
    simp only [sound_mk]
    refine sound_chTally (fun hy => ?_) hb
    refine ⟨hy.1, hy.2.1, ?_, hy.2.2.2.1, fun x hx => ?_, fun c hx => ?_⟩
    · have h4 := hc.2.2.2
      simp only [List.length_append, List.length_map]
      refine Nat.le_trans (Nat.add_le_add_right (List.length_filter_le ..) _) h4
    · rcases List.mem_append.mp hx with hx | hx
      · simp only [List.mem_map] at hx
        obtain ⟨i, hi, rfl⟩ := hx
        split
        · rename_i c he
          have hm := List.mem_of_find?_eq_some he
          have hid := List.find?_some he
          simp only [beq_iff_eq] at hid
          have h2 := hy.2.2.2.2.2 c hm
          rw [Castout.sound, hid] at h2
          refine ⟨h2.1, fun h => by simp at h, fun h => by simp at h, fun _ => ?_, fun _ => h2.2⟩
          obtain ⟨p, hp, _⟩ := h2.2
          simp [hp]
        · exact ⟨Nat.zero_le _, fun _ => ⟨rfl, rfl⟩, fun _ => rfl, fun h => by simp at h, fun h => by simp at h⟩
      · obtain ⟨z, hz, rfl⟩ := mem_mapIf hx
        have hl := hy.2.2.2.2.1 z (List.mem_of_mem_filter hz)
        split
        · exact hl
        · exact hl
    · rcases List.mem_append.mp hx with hx | hx
      · exact hy.2.2.2.2.2 c (List.mem_of_mem_filter hx)
      · simp only [List.mem_map] at hx
        obtain ⟨x, hq, rfl⟩ := hx
        have hd := List.of_mem_filter hq
        have hm := List.mem_of_mem_filter (List.mem_reverse.mp (List.mem_of_mem_filter (List.mem_of_mem_take (List.mem_of_mem_filter hq))))
        exact Line.castout_sound hd (hy.2.2.2.2.1 x hm)

/-! ### Changes to tallies -/

/-- A change to a clean line finds the marker in the stored record, where one is asked for (R10). -/
def State.covered (s : State) (settled : Option Nat) (c : TallyChange) : Prop :=
  s.inPlaceMode = true ∨ settled = some c.id ∨ s.isNoChange c = true ∨ s.tally.marked c.id ∨
    ∀ x, s.line c.id = some x → x.filling = true ∨ x.dirty = true

theorem marked_storeTally_ne {s : State} {id j : Nat} (u r : Nat) (h : id ≠ j) (hm : s.tally.marked j) :
    (s.storeTally id u r).tally.marked j := by
  obtain ⟨p, hp, hk⟩ := hm
  exact ⟨p, by simp [State.storeTally, State.modPrin, h, hp], hk⟩
theorem line_storeTally (s : State) (id u r j : Nat) : (s.storeTally id u r).line j = s.line j := rfl
theorem line_putLine_ne {s : State} (x : Line) {j : Nat} (h : x.id ≠ j) : (s.putLine x).line j = s.line j := by
  simp only [State.putLine, State.line]
  rw [List.find?_cons_of_neg (by simpa using h)]
  induction s.tally.cache with
  | nil => rfl
  | cons y t ih =>
    by_cases hy : y.id = j
    · subst hy
      have : (y.id != x.id) = true := by simpa using Ne.symm h
      simp [this]
    · by_cases hx : (y.id != x.id) = true
      · simp [hx, hy, ih]
      · simp [hx, hy, ih]
theorem line_putLine_self {s : State} (x : Line) : (s.putLine x).line x.id = some x := by
  simp [State.putLine, State.line]
theorem stored_storeTally_ne {s : State} {id j : Nat} (u r : Nat) (h : id ≠ j) :
    (s.storeTally id u r).stored j = s.stored j := by
  have hf : ∀ ws : List PendingWrite, (mapIf (fun w => w.id == id) (fun w => { w with used := u, reserved := r }) ws).filter
      (fun w => w.id == j) = ws.filter fun w => w.id == j := by
    intro ws
    induction ws with
    | nil => rfl
    | cons w t ih =>
      simp only [mapIf, List.map_cons, List.filter_cons] at ih ⊢
      by_cases hw : (w.id == id) = true
      · have : ¬ (w.id = j) := fun e => h ((beq_iff_eq.mp hw) ▸ e)
        rw [if_pos hw, ih]
        simp [this]
      · rw [if_neg hw, ih]
  simp only [State.storeTally, State.stored, State.modPrin, State.prin, hf, tget_tmod_ne _ _ h]
theorem current_storeTally_ne {s : State} {id j : Nat} (u r : Nat) (h : id ≠ j) :
    (s.storeTally id u r).current j = s.current j := by
  have h1 := stored_storeTally_ne (s := s) u r h
  have h2 : (s.storeTally id u r).castoutOf j = s.castoutOf j := rfl
  simp only [State.current, line_storeTally, h1, h2]
theorem stored_putWrite_ne {s : State} (w : PendingWrite) {j : Nat} (h : w.id ≠ j) :
    ({ s with tally.writes := s.tally.writes ++ [w] } : State).stored j = s.stored j := by
  simp only [State.stored, State.prin]
  rw [List.filter_append]
  simp [h]

theorem line_find_id {s : State} {j : Nat} {x : Line} (h : s.line j = some x) : x.id = j ∧ x ∈ s.tally.cache := by
  refine ⟨by simpa using List.find?_some h, List.mem_of_find?_eq_some h⟩

/-- What one change does: the invariants stand, and every change still to come stays covered. -/
theorem sound_applyChange' {s : State} (num : Nat) (settled : Option Nat) (c : TallyChange)
    (hc : s.covered settled c) (hb : s.sound) :
    (s.applyChange num settled c).sound ∧
      ∀ d, s.covered settled d → (s.applyChange num settled c).covered settled d := by
  have hstore : ∀ (hl : ∀ x, s.line c.id = some x → x.filling = true ∨ x.dirty = true),
      (s.storeTally c.id c.used c.reserved).sound ∧
      ∀ d, s.covered settled d → (s.storeTally c.id c.used c.reserved).covered settled d := by
    intro hl
    refine ⟨sound_storeTally _ _ _ hb, fun d hd => ?_⟩
    by_cases he : c.id = d.id
    · exact Or.inr (Or.inr (Or.inr (Or.inr (by rw [← he]; exact hl))))
    · rcases hd with h | h | h | h | h
      · exact Or.inl h
      · exact Or.inr (Or.inl h)
      · refine Or.inr (Or.inr (Or.inl ?_))
        simpa [State.isNoChange, current_storeTally_ne _ _ he] using h
      · exact Or.inr (Or.inr (Or.inr (Or.inl (marked_storeTally_ne _ _ he h))))
      · exact Or.inr (Or.inr (Or.inr (Or.inr h)))
  unfold State.applyChange
  split
  · rename_i hn
    exact hstore (fun x hx => by simp [hn] at hx)
  · rename_i x hx
    obtain ⟨hid, hmem⟩ := line_find_id hx
    have hl := hb.2.2.1.2.2.2.2.1 x hmem
    dsimp only
    split
    · rename_i hf
      exact hstore (fun z hz => by rw [hx] at hz; cases hz; exact Or.inl hf)
    · rename_i hf
      split
      · exact ⟨hb, fun d hd => hd⟩
      · rename_i hch
        simp only [Bool.and_eq_true, not_and, Bool.not_eq_eq_eq_not, Bool.not_true,
          decide_eq_false_iff_not, Decidable.not_not] at hch
        split
        · rename_i hin
          have hp : (s.putLine { x with used := c.used, reserved := c.reserved, dUsed := 0, dReserved := 0, dirty := false }).sound :=
            sound_putLine' _ (Line.sound_clean c.used c.reserved hl) hb
          refine ⟨?_, fun d hd => ?_⟩
          · simp only [sound_mk]
            exact sound_chTally (fun h => h) hp
          · by_cases he : c.id = d.id
            · by_cases hs : settled = some c.id
              · exact Or.inr (Or.inl (he ▸ hs))
              · have hno : s.isNoChange c = false := by
                  cases hq : s.isNoChange c
                  · rfl
                  · exact absurd (hch hq) (by simpa using hs)
                rcases hc with h | h | h | h | h
                · exact Or.inl h
                · exact absurd h hs
                · simp [h] at hno
                · exact Or.inr (Or.inr (Or.inr (Or.inl (he ▸ h))))
                · rcases h x hx with h | h
                  · simp [h] at hf
                  · refine Or.inr (Or.inr (Or.inr (Or.inl ?_)))
                    have := hl.2.2.2.2 h
                    rw [hid, he] at this
                    exact this
            · rcases hd with h | h | h | h | h
              · exact Or.inl h
              · exact Or.inr (Or.inl h)
              · refine Or.inr (Or.inr (Or.inl ?_))
                have e1 : x.id ≠ d.id := by rw [hid]; exact he
                have e2 := line_putLine_ne (s := s) { x with used := c.used, reserved := c.reserved, dUsed := 0, dReserved := 0, dirty := false } e1
                have e3 : ∀ w : PendingWrite, w.id ≠ d.id →
                    ({ s.putLine { x with used := c.used, reserved := c.reserved, dUsed := 0, dReserved := 0, dirty := false } with
                      tally.writes := s.tally.writes ++ [w] } : State).stored d.id = s.stored d.id :=
                  fun w hw => stored_putWrite_ne (s := s) w hw
                simp only [State.isNoChange, decide_eq_true_eq] at h ⊢
                rw [← h]
                have e4 := e3 { op := num, id := c.id, used := c.used, reserved := c.reserved, settles := decide (settled = some c.id) } he
                simp only [State.current]
                change (match (s.putLine _).line d.id with | some y => _ | none => _) = _
                rw [e2]
                change (match s.line d.id with
                  | some y => if y.filling = true then _ else _
                  | none => match s.castoutOf d.id with | some _ => _ | none => _) = _
                cases s.line d.id with
                | none => cases s.castoutOf d.id with
                  | none => exact e4
                  | some k => rfl
                | some y => simp only; split <;> first | exact e4 | rfl
              · exact Or.inr (Or.inr (Or.inr (Or.inl h)))
              · refine Or.inr (Or.inr (Or.inr (Or.inr (fun z hz => h z ?_))))
                have e1 : x.id ≠ d.id := by rw [hid]; exact he
                rw [← hz]
                exact (line_putLine_ne (s := s) { x with used := c.used, reserved := c.reserved, dUsed := 0, dReserved := 0, dirty := false } e1).symm
        · rename_i hin
          simp only [Bool.or_eq_true, decide_eq_true_eq, not_or, Nat.not_lt] at hin
          have hs : ¬ settled = some c.id := hin.1.2
          have hno : s.isNoChange c = false := by
            cases hq : s.isNoChange c
            · rfl
            · exact absurd (hch hq) (by simpa using hs)
          have hmk : s.tally.marked c.id := by
            rcases hc with h | h | h | h | h
            · exact absurd h hin.1.1
            · exact absurd h hs
            · simp [h] at hno
            · exact h
            · rcases h x hx with h | h
              · simp [h] at hf
              · have := hl.2.2.2.2 h
                rwa [hid] at this
          refine ⟨sound_putLine' _ ⟨hin.2, fun hd => ?_, fun h => absurd h hf, hl.2.2.2.1, fun _ => ?_⟩ hb, fun d hd => ?_⟩
          · have h0 := of_decide_eq_false hd
            simp only [ne_eq, Decidable.not_not, Line.drift] at h0
            simp only
            omega
          · simp only [hid]; exact hmk
          · by_cases he : c.id = d.id
            · exact Or.inr (Or.inr (Or.inr (Or.inl (he ▸ hmk))))
            · have e1 : x.id ≠ d.id := by rw [hid]; exact he
              rcases hd with h | h | h | h | h
              · exact Or.inl h
              · exact Or.inr (Or.inl h)
              · refine Or.inr (Or.inr (Or.inl ?_))
                simp only [State.isNoChange, decide_eq_true_eq] at h ⊢
                rw [← h]
                simp only [State.current]
                rw [line_putLine_ne _ (by exact e1)]
                rfl
              · exact Or.inr (Or.inr (Or.inr (Or.inl h)))
              · refine Or.inr (Or.inr (Or.inr (Or.inr (fun z hz => h z ?_))))
                rw [← hz]
                exact (line_putLine_ne _ (by exact e1)).symm

theorem sound_applyChanges' (num : Nat) (settled : Option Nat) (cs : List TallyChange) {s : State}
    (hc : ∀ c ∈ cs, s.covered settled c) (hb : s.sound) : (s.applyChanges num settled cs).sound := by
  unfold State.applyChanges
  induction cs generalizing s with
  | nil => exact hb
  | cons c cs ih =>
    have h := sound_applyChange' num settled c (hc c (by simp)) hb
    exact ih (fun d hd => h.2 d (hc d (by simp [hd]))) h.1

/-! ### The Catalogue Unit -/

theorem extentKey_inj {v x w y : Nat} (hx : x < Config.maxExtents) (hy : y < Config.maxExtents)
    (h : extentKey v x = extentKey w y) : v = w ∧ x = y := by
  simp only [extentKey, Config.maxExtents] at *
  omega

theorem tget_setExtent (s : State) (vol ext : Nat) (e : Extent) (key : Nat) :
    (tget (s.setExtent vol ext e).cat.extents key).getD Extent.blank =
      if key = extentKey vol ext then e else (tget s.cat.extents key).getD Extent.blank := by
  simp only [State.setExtent]
  by_cases he : e = Extent.blank
  · by_cases hk : key = extentKey vol ext
    · simp [he, hk]
    · simp [he, hk, Ne.symm hk]
  · by_cases hk : key = extentKey vol ext
    · simp [he, hk]
    · simp [he, hk, Ne.symm hk]

theorem sound_setExtent' {s : State} (vol ext : Nat) (e : Extent)
    (hl : e.versions.length ≤ Config.versionListSize)
    (hv : ∀ v x, x < Config.maxExtents → extentKey v x = extentKey vol ext → ¬ s.cat.isDamaged v x → e.lives ≤ 1)
    (h : s.sound) : (s.setExtent vol ext e).sound := by
  have hy := h.2.2.2.1
  refine sound_chCat (s := s) (fun hy => ?_) h
  refine ⟨⟨hy.1.1, extentsWf_setExtent _ _ _ hy.1.2.1, hy.1.2.2⟩, hy.2.1, hy.2.2.1, hy.2.2.2.1, fun key => ?_, fun v x hx hd => ?_⟩
  · rw [tget_setExtent]
    split
    · exact hl
    · exact hy.2.2.2.2.1 key
  · rw [tget_setExtent]
    split
    · rename_i hk
      exact hv v x hx hk hd
    · exact hy.2.2.2.2.2 v x hx hd

theorem sound_setExtent_le {s : State} (vol ext : Nat) (e : Extent)
    (hl : e.versions.length ≤ (s.extent vol ext).versions.length) (hv : e.lives ≤ (s.extent vol ext).lives)
    (h : s.sound) : (s.setExtent vol ext e).sound := by
  have hy := h.2.2.2.1
  refine sound_setExtent' vol ext e (Nat.le_trans hl (hy.2.2.2.2.1 _)) (fun v x hx hk hd => ?_) h
  refine Nat.le_trans hv ?_
  have := hy.2.2.2.2.2 v x hx hd
  rw [hk] at this
  exact this

theorem lives_filter (vs : List Version) (p : Version → Bool) :
    ((vs.filter p).filter fun v => v.death.isNone).length ≤ (vs.filter fun v => v.death.isNone).length :=
  (List.filter_sublist.filter _).length_le
theorem lives_mapIf (p : Version → Bool) (f : Version → Version) (hf : ∀ v, (f v).death.isNone = v.death.isNone) (vs : List Version) :
    ((mapIf p f vs).filter fun v => v.death.isNone).length = (vs.filter fun v => v.death.isNone).length := by
  induction vs with
  | nil => rfl
  | cons v t ih =>
    simp only [mapIf, List.map_cons, List.filter_cons] at ih ⊢
    have : (if p v = true then f v else v).death.isNone = v.death.isNone := by split <;> simp [hf]
    rw [this]
    split <;> simp [ih]
theorem sound_mapVersions {s : State} (vol ext : Nat) (p : Version → Bool) (f : Version → Version)
    (hf : ∀ v, (f v).death.isNone = v.death.isNone) (h : s.sound) :
    (s.setExtent vol ext { s.extent vol ext with versions := mapIf p f (s.extent vol ext).versions }).sound :=
  sound_setExtent_le _ _ _ (by simp [length_mapIf]) (by simp [Extent.lives, lives_mapIf _ _ hf]) h

theorem mem_tput {α : Type} {t : Tbl α} {k : Nat} {v : α} {kv : Nat × α} (h : kv ∈ tput t k v) : kv = (k, v) ∨ kv ∈ t := by
  induction t with
  | nil => exact Or.inl (by simpa [tput] using h)
  | cons x t ih =>
    obtain ⟨xk, xv⟩ := x
    simp only [tput] at h
    split at h
    · simpa using h
    · split at h
      · rcases List.mem_cons.mp h with rfl | h
        · exact Or.inl rfl
        · exact Or.inr (List.mem_cons_of_mem _ h)
      · rcases List.mem_cons.mp h with rfl | h
        · exact Or.inr (by simp)
        · rcases ih h with h | h
          · exact Or.inl h
          · exact Or.inr (List.mem_cons_of_mem _ h)
theorem mem_of_tget {α : Type} {t : Tbl α} {k : Nat} {v : α} (h : tget t k = some v) : (k, v) ∈ t := by
  induction t with
  | nil => simp at h
  | cons x t ih =>
    obtain ⟨xk, xv⟩ := x
    simp only [tget] at h
    split at h
    · rename_i he; subst he; cases h; simp
    · exact List.mem_cons_of_mem _ (ih h)
theorem mem_tmod {α : Type} {t : Tbl α} {k : Nat} {f : α → α} {kv : Nat × α} (h : kv ∈ tmod t k f) :
    kv ∈ t ∨ ∃ v, (k, v) ∈ t ∧ kv = (k, f v) := by
  simp only [tmod] at h
  split at h
  · rename_i v hv
    rcases mem_tput h with h | h
    · exact Or.inr ⟨v, mem_of_tget hv, h⟩
    · exact Or.inl h
  · exact Or.inl h
theorem sound_modVolume' {s : State} (vol : Nat) (f : Volume → Volume)
    (hf : ∀ v, (f v).count = v.count ∧ ∀ x, v.damage.contains x = true → (f v).damage.contains x = true) (h : s.sound) :
    (s.modVolume vol f).sound := by
  refine sound_chCat (s := s) (fun hy => ?_) h
  refine ⟨⟨wf_tmod _ _ hy.1.1, hy.1.2⟩, fun kv hkv => ?_, hy.2.2.1, hy.2.2.2.1, hy.2.2.2.2.1, fun v x hx hd => hy.2.2.2.2.2 v x hx (fun hq => hd ?_)⟩
  · rcases mem_tmod hkv with hk | ⟨v, hk, rfl⟩
    · exact hy.2.1 kv hk
    · rw [(hf v).1]
      exact hy.2.1 _ hk
  · obtain ⟨h32, w, hw, hc⟩ := hq
    refine ⟨h32, ?_⟩
    change ∃ z, tget (tmod s.cat.volumes vol f) v = some z ∧ _
    rw [tget_tmod]
    split
    · rename_i he; subst he
      exact ⟨f w, by simp [hw], (hf w).2 x hc⟩
    · exact ⟨w, hw, hc⟩

theorem lives_map (f : Version → Version) (hf : ∀ v, (f v).death.isNone = v.death.isNone) (vs : List Version) :
    ((vs.map f).filter fun v => v.death.isNone).length = (vs.filter fun v => v.death.isNone).length := by
  have := lives_mapIf (fun _ => true) f hf vs
  simpa [mapIf] using this
theorem modRefs_death (loc : Nat) (g : Nat → Nat) (v : Version) : (modRefs loc g v).death.isNone = v.death.isNone := by
  unfold modRefs
  split
  · split <;> rfl
  · rfl
theorem sound_refs {s : State} (vol ext loc : Nat) (g : Nat → Nat) (h : s.sound) :
    (s.setExtent vol ext { s.extent vol ext with versions := (s.extent vol ext).versions.map (modRefs loc g) }).sound :=
  sound_setExtent_le _ _ _ (by simp) (by simp [Extent.lives, lives_map _ (modRefs_death loc g)]) h

theorem lives_cons (v : Version) (vs : List Version) (hv : v.death.isNone = true) :
    ((v :: vs).filter fun v => v.death.isNone).length = (vs.filter fun v => v.death.isNone).length + 1 := by
  simp [hv]
theorem length_filter_ne_lt {vs : List Version} {v : Version} (h : v ∈ vs) :
    (vs.filter fun x => decide (some x ≠ some v)).length < vs.length := by
  induction vs with
  | nil => simp at h
  | cons x t ih =>
    by_cases hx : x = v
    · subst hx
      simp only [List.filter_cons, ne_eq, not_true_eq_false, decide_false, Bool.false_eq_true, if_false, List.length_cons]
      exact Nat.lt_succ_of_le (List.length_filter_le ..)
    · have : v ∈ t := by
        rcases List.mem_cons.mp h with h | h
        · exact absurd h.symm hx
        · exact h
      have h2 := ih this
      simp only [List.filter_cons, List.length_cons]
      split
      · simp only [List.length_cons]; omega
      · omega
theorem thinnedOf_mem {s : State} {vol : Nat} {vs : List Version} {v : Version} (h : s.thinnedOf vol vs = some v) : v ∈ vs := by
  have hl : ∀ {xs : List Version} {x : Version}, lowestBirth xs = some x → x ∈ xs := fun h => List.mem_of_getLast? h
  unfold State.thinnedOf at h
  dsimp only at h
  split at h
  · rename_i w hw
    cases h
    exact List.mem_of_mem_filter (List.mem_of_mem_filter (hl hw))
  · split at h
    · rename_i w hw
      cases h
      exact List.mem_of_mem_filter (List.mem_of_mem_filter (hl hw))
    · exact List.mem_of_mem_filter (hl h)
theorem thinned_length (s : State) (vol : Nat) (kept : List Version) (hk : kept.length ≤ 5)
    (hs : (decide (Config.versionListSize < kept.length) &&
      (if kept.length ≤ Config.versionListSize then none else s.thinnedOf vol kept).isNone) = false) :
    (kept.filter fun v => decide (some v ≠ (if kept.length ≤ Config.versionListSize then none else s.thinnedOf vol kept))).length ≤ 4 := by
  split
  · rename_i h
    exact Nat.le_trans (List.length_filter_le ..) h
  · rename_i h
    rw [if_neg h] at hs
    cases ht : s.thinnedOf vol kept with
    | none =>
      rw [ht] at hs
      simp [Nat.lt_of_not_le h] at hs
    | some v =>
      have := length_filter_ne_lt (thinnedOf_mem ht)
      omega

/-- A plan that a Commit may carry out leaves at most 4 versions, one live. -/
theorem planCommit_sound (s : State) (vol ext gen loc occ : Nat) (e : Extent) (codes : List Code)
    (hl : e.versions.length ≤ 4) (hv : e.lives ≤ 1) (hs : (s.planCommit vol ext gen e loc occ codes).stuck = false) :
    (s.planCommit vol ext gen e loc occ codes).versions.length ≤ 4 ∧
      ((s.planCommit vol ext gen e loc occ codes).versions.filter fun v => v.death.isNone).length ≤ 1 := by
  unfold State.planCommit at hs ⊢
  cases hlive : e.live with
  | some lv =>
    simp only [hlive] at hs ⊢
    by_cases hg : lv.birth = gen
    · simp only [if_pos hg] at hs ⊢
      constructor
      · exact Nat.le_trans (List.length_filter_le ..) (by simpa [length_mapIf] using hl)
      · refine Nat.le_trans (lives_filter _ _) ?_
        have : ∀ (f : Version → Version) (hf : ∀ v, (f v).death.isNone = true) (vs : List Version),
            ((mapIf (fun v => v.death.isNone) f vs).filter fun v => v.death.isNone).length =
              (vs.filter fun v => v.death.isNone).length := by
          intro f hf vs
          induction vs with
          | nil => rfl
          | cons v t ih =>
            simp only [mapIf, List.map_cons, List.filter_cons] at ih ⊢
            by_cases hd : v.death.isNone = true
            · simp only [hd, if_true, hf, List.length_cons, ih]
            · have hd' : v.death.isNone = false := Bool.eq_false_iff.mpr hd
              simp only [hd', Bool.false_eq_true, if_false]
              exact ih
        rw [this _ (fun v => rfl)]
        exact hv
    · simp only [if_neg hg] at hs ⊢
      have h5 : ∀ p : Version → Bool, ((newVersion s.sup.clock gen loc occ codes ::
          mapIf (fun v => v.death.isNone) (fun _ => { lv with death := some gen }) e.versions).filter p).length ≤ 5 := by
        intro p
        refine Nat.le_trans (List.length_filter_le ..) ?_
        simp only [List.length_cons, length_mapIf]; omega
      refine ⟨thinned_length s vol _ (h5 _) hs, Nat.le_trans (lives_filter _ _) (Nat.le_trans (lives_filter _ _) ?_)⟩
      rw [lives_cons _ _ rfl]
      have : ∀ vs : List Version, ((mapIf (fun v => v.death.isNone) (fun _ => { lv with death := some gen }) vs).filter
          fun v => v.death.isNone).length = 0 := by
        intro vs
        induction vs with
        | nil => rfl
        | cons v t ih =>
          simp only [mapIf, List.map_cons, List.filter_cons] at ih ⊢
          by_cases hd : v.death.isNone = true
          · simp only [hd, if_true, Option.isNone_some, Bool.false_eq_true, if_false]
            exact ih
          · have hd' : v.death.isNone = false := Bool.eq_false_iff.mpr hd
            simp only [hd', Bool.false_eq_true, if_false]
            exact ih
      rw [this]
  | none =>
    simp only [hlive] at hs ⊢
    have h5 : ∀ p : Version → Bool, ((newVersion s.sup.clock gen loc occ codes :: e.versions).filter p).length ≤ 5 := by
      intro p
      refine Nat.le_trans (List.length_filter_le ..) ?_
      simp only [List.length_cons]; omega
    refine ⟨thinned_length s vol _ (h5 _) hs, Nat.le_trans (lives_filter _ _) (Nat.le_trans (lives_filter _ _) ?_)⟩
    rw [lives_cons _ _ rfl]
    have : (e.versions.filter fun v => v.death.isNone) = [] := by
      rw [List.filter_eq_nil_iff]
      exact List.find?_eq_none.mp hlive
    rw [this]; rfl

/-! ### The Stream Buffer -/

theorem tput_present {α : Type} {b : Nat} {t : Tbl α} {k : Nat} {w : α} (v : α) (hr : risingFrom b t = true)
    (h : tget t k = some w) : tput t k v = t.map fun kv => if kv.1 = k then (k, v) else kv := by
  induction t generalizing b with
  | nil => simp at h
  | cons x t ih =>
    obtain ⟨xk, xv⟩ := x
    simp only [risingFrom, Bool.and_eq_true, decide_eq_true_eq] at hr
    simp only [tget] at h
    have hlow : ∀ (c : Nat) (u : Tbl α), risingFrom c u = true → ∀ kv ∈ u, c ≤ kv.1 := by
      intro c u
      induction u generalizing c with
      | nil => simp
      | cons y u ihu =>
        intro hc kv hkv
        obtain ⟨yk, yv⟩ := y
        simp only [risingFrom, Bool.and_eq_true, decide_eq_true_eq] at hc
        rcases List.mem_cons.mp hkv with rfl | hkv
        · exact hc.1
        · have := ihu _ hc.2 kv hkv; omega
    have hmem : xk ≤ k := by
      split at h
      · rename_i he; omega
      · have := hlow _ _ hr.2 _ (mem_of_tget h); simp only at this; omega
    simp only [tput, List.map_cons]
    by_cases he : xk = k
    · subst he
      simp only [Nat.lt_irrefl, if_false, if_true, List.cons.injEq, true_and]
      have hg : (t.map fun kv => if kv.1 = xk then (xk, v) else kv) = t.map id :=
        List.map_congr_left fun kv hkv => by
          have := hlow _ _ hr.2 kv hkv
          rw [if_neg (by omega)]; rfl
      rw [hg, List.map_id]
    · rw [if_neg (by omega), if_neg (Ne.symm he), if_neg he]
      rw [if_neg he] at h
      rw [ih hr.2 h]

theorem tmod_present {α : Type} {t : Tbl α} (k : Nat) (f : α → α) (hr : t.wf = true) :
    ∃ g : Nat × α → Nat × α, tmod t k f = t.map g ∧ ∀ kv ∈ t, (g kv = kv ∨ ∃ w, tget t k = some w ∧ g kv = (k, f w) ∧ kv = (k, w)) := by
  simp only [tmod]
  cases hw : tget t k with
  | none => exact ⟨id, by simp, fun kv _ => Or.inl rfl⟩
  | some w =>
    refine ⟨fun kv => if kv.1 = k then (k, f w) else kv, tput_present _ hr hw, fun kv hkv => ?_⟩
    by_cases he : kv.1 = k
    · have huniq : ∀ (b : Nat) (u : Tbl α), risingFrom b u = true → ∀ v, (k, v) ∈ u → tget u k = some v := by
        intro b u
        induction u generalizing b with
        | nil => simp
        | cons y u ih =>
          intro hb v hv
          obtain ⟨yk, yv⟩ := y
          simp only [risingFrom, Bool.and_eq_true, decide_eq_true_eq] at hb
          rcases List.mem_cons.mp hv with h | h
          · cases h; simp [tget]
          · have h2 := ih _ hb.2 v h
            have h3 : yk ≠ k := by
              intro e
              have hlow : ∀ (c : Nat) (u : Tbl α), risingFrom c u = true → ∀ kv ∈ u, c ≤ kv.1 := by
                intro c u
                induction u generalizing c with
                | nil => simp
                | cons y u ihu =>
                  intro hc kv hkv
                  obtain ⟨yk, yv⟩ := y
                  simp only [risingFrom, Bool.and_eq_true, decide_eq_true_eq] at hc
                  rcases List.mem_cons.mp hkv with rfl | hkv
                  · exact hc.1
                  · have := ihu _ hc.2 kv hkv; omega
              have := hlow _ _ hb.2 _ h
              simp only at this
              omega
            simp [tget, h3, h2]
      obtain ⟨a, v⟩ := kv
      simp only at he
      subst he
      have := huniq 0 t hr v hkv
      rw [hw] at this
      cases this
      exact Or.inr ⟨w, rfl, by simp, rfl⟩
    · exact Or.inl (by simp [he])

theorem count_map {α : Type} (p : α → Bool) (g : α → α) (xs : List α) (h : ∀ x ∈ xs, p (g x) = p x) :
    ((xs.map g).filter p).length = (xs.filter p).length := by
  induction xs with
  | nil => rfl
  | cons x t ih =>
    have h1 := h x (by simp)
    have h2 := ih fun y hy => h y (by simp [hy])
    simp only [List.map_cons, List.filter_cons, h1]
    split <;> simp [h2]

/-- Slots each made of one there was, of the same class. -/
theorem Stream.sound_map {b : Stream} (g : Nat × Slot → Nat × Slot) (hk : ∀ kv ∈ b.slots, (g kv).1 = kv.1)
    (hc : ∀ kv ∈ b.slots, (g kv).2.cls = kv.2.cls) (h : b.sound) : ({ b with slots := b.slots.map g } : Stream).sound := by
  refine ⟨wf_of_keys (t := b.slots) ?_ h.1, by simpa using h.2.1, ?_, h.2.2.2⟩
  · simp only [List.map_map]
    exact List.map_congr_left hk
  · rw [count_map _ g _ fun kv hkv => by simp only [hc kv hkv]]
    exact h.2.2.1
theorem Stream.sound_filter {b : Stream} (p : Nat × Slot → Bool) (h : b.sound) :
    ({ b with slots := b.slots.filter p } : Stream).sound :=
  ⟨wf_filter _ h.1, Nat.le_trans (List.length_filter_le ..) h.2.1,
    Nat.le_trans (List.filter_sublist.filter _).length_le h.2.2.1, h.2.2.2⟩
theorem sound_modSlot' {s : State} (n : Nat) (f : Slot → Slot) (hf : ∀ x, (f x).cls = x.cls) (h : s.sound) :
    (s.modSlot n f).sound := by
  refine sound_chStr (s := s) (fun hb => ?_) h
  obtain ⟨g, hg, hk⟩ := tmod_present n f hb.1
  have := Stream.sound_map g (fun kv hkv => ?_) (fun kv hkv => ?_) hb
  · rw [← hg] at this
    exact this
  · rcases hk kv hkv with h | ⟨w, _, h1, h2⟩
    · rw [h]
    · rw [h1, h2]
  · rcases hk kv hkv with h | ⟨w, _, h1, h2⟩
    · rw [h]
    · rw [h1, h2]; exact hf w
theorem sound_freeSlot {s : State} (n : Nat) (h : s.sound) : (s.freeSlot n).sound :=
  sound_chStr (s := s) (fun hb => Stream.sound_filter _ hb) h
theorem sound_freeSlotsIf {s : State} (p : Slot → Bool) (h : s.sound) : (s.freeSlotsIf p).sound :=
  sound_chStr (s := s) (fun hb => Stream.sound_filter _ hb) h
theorem tput_length {α : Type} (t : Tbl α) (k : Nat) (v : α) : (tput t k v).length ≤ t.length + 1 := by
  induction t with
  | nil => simp [tput]
  | cons x t ih =>
    obtain ⟨xk, xv⟩ := x
    simp only [tput]
    split
    · simp
    · split
      · simp
      · simp only [List.length_cons]; omega
theorem tput_count {α : Type} (p : Nat × α → Bool) (t : Tbl α) (k : Nat) (v : α) :
    ((tput t k v).filter p).length ≤ (t.filter p).length + (if p (k, v) then 1 else 0) := by
  induction t with
  | nil => simp only [tput, List.filter_cons, List.filter_nil]; split <;> simp
  | cons x t ih =>
    obtain ⟨xk, xv⟩ := x
    simp only [tput]
    split
    · simp only [List.filter_cons]
      repeat' split
      all_goals (try simp only [List.length_cons]); omega
    · split
      · simp only [List.filter_cons]
        repeat' split
        all_goals (try simp only [List.length_cons]); omega
      · simp only [List.filter_cons]
        repeat' split
        all_goals (try simp only [List.length_cons]); simp_all
/-- A request's slots granted one after another. -/
theorem sound_grantSlots (c : SlotClass) (h : SlotHolder) (ws : List (Nat × Code)) {s : State}
    (hl : s.str.slots.length + ws.length ≤ Config.slotCount)
    (hp : c = .patrol → (s.str.slots.filter fun kv => decide (kv.2.cls = .patrol)).length + ws.length ≤ Config.patrolCap)
    (hb : s.sound) : (ws.foldl (State.grantSlot c h) s).sound := by
  induction ws generalizing s with
  | nil => exact hb
  | cons w ws ih =>
    have hlen := tput_length s.str.slots s.lowestSlot
      { state := .filling, cls := c, holder := h, idx := w.1, expected := w.2, computed := crcInit,
        seq := none, data := [], fullOrder := 0, covered := false }
    have hcnt := tput_count (fun kv : Nat × Slot => decide (kv.2.cls = .patrol)) s.str.slots s.lowestSlot
      { state := .filling, cls := c, holder := h, idx := w.1, expected := w.2, computed := crcInit,
        seq := none, data := [], fullOrder := 0, covered := false }
    simp only [List.length_cons] at hl hp
    simp only [decide_eq_true_eq] at hcnt
    refine ih (s := s.grantSlot c h w) ?_ (fun hc => ?_) ?_
    · simp only [State.grantSlot]; omega
    · have := hp hc
      simp only [State.grantSlot]
      rw [if_pos hc] at hcnt
      omega
    · refine sound_chStr (s := s) (fun hy => ⟨wf_tput _ _ hy.1, ?_, ?_, hy.2.2.2⟩) hb
      · exact Nat.le_trans hlen (by omega)
      · by_cases hc : c = .patrol
        · have := hp hc
          rw [if_pos hc] at hcnt
          exact Nat.le_trans hcnt (by omega)
        · rw [if_neg hc] at hcnt
          exact Nat.le_trans hcnt hy.2.2.1

/-! ### Records of the Tally Unit taken together -/

theorem sound_tmapPrin {s : State} (f : Nat → Principal → Principal) (hf : ∀ i p, p.marker = true → (f i p).marker = true)
    (h : s.sound) : ({ s with tally.principals := tmap f s.tally.principals } : State).sound := by
  simp only [sound_mk]
  refine sound_chTally (fun hy => Tally.sound_prins _ (wf_tmap _ hy.1) ⟨fun j hj => ?_, fun j hj => ?_⟩ hy) h
  · simpa using hj
  · obtain ⟨p, hp, hm⟩ := hj
    exact ⟨f j p, by simp [hp], hf j p hm⟩

theorem length_insertBy {α : Type} (lt : α → α → Bool) (x : α) (xs : List α) : (insertBy lt x xs).length = xs.length + 1 := by
  induction xs with
  | nil => rfl
  | cons y t ih => simp only [insertBy]; split <;> simp [ih]

theorem sound_writeMarkers {s : State} (ids : List Nat) (h : s.sound) : (s.writeMarkers ids).sound :=
  sound_tmapPrin _ (fun i p hp => by split <;> simp [hp]) h

theorem sound_grace {s : State} (q : List GraceEntry) (hq : s.tally.grace.length ≤ Config.graceQueueSize → q.length ≤ Config.graceQueueSize)
    (h : s.sound) : ({ s with tally.grace := q } : State).sound := by
  simp only [sound_mk]
  exact sound_chTally (fun hy => ⟨hy.1, hy.2.1, hy.2.2.1, hq hy.2.2.2.1, hy.2.2.2.2⟩) h

theorem sound_enterGrace' {s : State} (id deadline : Nat) (hset : ∀ (s : State) i g, s.sound → (s.setGrace i g).sound)
    (hb : s.sound) : (s.enterGrace id deadline).sound := by
  unfold State.enterGrace
  dsimp only
  split
  · rename_i hl
    exact hset _ _ _ (sound_grace _ (fun _ => by rw [length_insertBy]; exact hl) hb)
  · split
    · exact hset _ _ _ hb
    · rename_i last hlast
      split
      · refine hset _ _ _ (hset _ _ _ (sound_grace _ (fun hq => ?_) hb))
        rw [length_insertBy, List.length_dropLast]
        have : 0 < s.tally.grace.length := by
          cases hg : s.tally.grace with
          | nil => simp [hg] at hlast
          | cons x t => simp
        omega
      · exact hset _ _ _ hb

theorem sound_regatherIf' {s : State} (again : TallyOp → Bool) (hb : s.sound) : (s.regatherIf again).sound := by
  unfold State.regatherIf
  have := sound_cacheMap (s := s) (fun x => s.tally.ops.any fun o => again o && decide (x.held = some o.num))
    (fun x => { x with held := none }) (fun x hx => hx) hb
  simp only [sound_mk] at this ⊢
  exact this
theorem sound_releaseLines {s : State} (num : Nat) (ids : List Nat) (hb : s.sound) : (s.releaseLines num ids).sound :=
  sound_cacheMap _ _ (fun _ hx => hx) hb

theorem sound_dropPrincipal {s : State} (id : Nat) (h : s.sound) :
    ({ s with
      tally.principals := tdel s.tally.principals id
      tally.cache := s.tally.cache.filter fun x => x.id != id
      tally.castout := s.tally.castout.filter fun x => x.id != id } : State).sound := by
  simp only [sound_mk]
  refine sound_chTally (fun hy => ⟨wf_tdel _ hy.1, hy.2.1, Nat.le_trans (List.length_filter_le ..) hy.2.2.1, hy.2.2.2.1,
    fun x hx => ?_, fun c hc => ?_⟩) h
  · have hl := hy.2.2.2.2.1 x (List.mem_of_mem_filter hx)
    have hne : id ≠ x.id := by
      have := List.of_mem_filter hx
      intro e
      simp [← e] at this
    refine ⟨hl.1, hl.2.1, hl.2.2.1, fun hf => ?_, fun hd => ?_⟩
    · simpa [hne] using hl.2.2.2.1 hf
    · obtain ⟨p, hp, hm⟩ := hl.2.2.2.2 hd
      exact ⟨p, by simp [hne, hp], hm⟩
  · obtain ⟨hd, p, hp, hm⟩ := hy.2.2.2.2.2 c (List.mem_of_mem_filter hc)
    have hne : id ≠ c.id := by
      have := List.of_mem_filter hc
      intro e
      simp [← e] at this
    exact ⟨hd, p, by simp [hne, hp], hm⟩
theorem sound_setPrin' {s : State} (id : Nat) (p : Principal) (hn : s.prin id = none) (h : s.sound) : (s.setPrin id p).sound := by
  unfold State.setPrin
  simp only [sound_mk]
  refine sound_chTally (fun hy => Tally.sound_prins _ (wf_tput _ _ hy.1) ⟨fun j hj => ?_, fun j hj => ?_⟩ hy) h
  · by_cases he : id = j
    · subst he; simp
    · simpa [he] using hj
  · obtain ⟨q, hq, hm⟩ := hj
    have he : id ≠ j := by
      intro e
      subst e
      simp only [State.prin] at hn
      rw [hn] at hq; cases hq
    exact ⟨q, by simp [he, hq], hm⟩

/-! ### Reclaims, damage and tables of the Catalogue Unit -/

theorem sound_reclaims {s : State} (q : List Reclaim)
    (hq : s.cat.reclaims.length ≤ Config.reclaimTableSize → q.length ≤ Config.reclaimTableSize)
    (h : s.sound) : ({ s with cat.reclaims := q } : State).sound := by
  simp only [sound_mk]
  exact sound_chCat (fun hy => ⟨hy.1, hy.2.1, hy.2.2.1, hq hy.2.2.2.1, hy.2.2.2.2⟩) h
theorem sound_modSnapshot {s : State} (vol gen : Nat) (f : Snapshot → Snapshot) (h : s.sound) : (s.modSnapshot vol gen f).sound :=
  sound_chCat (s := s) (fun hy => ⟨⟨hy.1.1, hy.1.2.1, wf_tmod _ _ hy.1.2.2.1, hy.1.2.2.2⟩, hy.2⟩) h
theorem sound_setDues {s : State} (vol : Nat) (d : Dues) (h : s.sound) : (s.setDues vol d).sound := by
  refine sound_chCat (s := s) (fun hy => ⟨⟨hy.1.1, hy.1.2.1, hy.1.2.2.1, ?_⟩, hy.2⟩) h
  unfold State.setDues
  dsimp only
  split
  · exact wf_tdel _ hy.1.2.2.2
  · exact wf_tput _ _ hy.1.2.2.2
theorem length_modAt {α : Type} (xs : List α) (i : Nat) (f : α → α) : (modAt xs i f).length = xs.length := by
  induction xs generalizing i with
  | nil => rfl
  | cons x t ih => cases i <;> simp [modAt, ih]
theorem length_loseField (x : Nat) (f : ExtentField) (e : Extent) : (loseField x f e).versions.length = e.versions.length := by
  cases f <;> simp [loseField, length_modAt]
theorem isDamaged_draw (s : State) (v x : Nat) : s.draw.2.cat.isDamaged v x = s.cat.isDamaged v x := rfl
theorem damageFold (vol ext : Nat) (hx : ext < Config.maxExtents) (fs : List ExtentField) {s : State}
    (hd : s.cat.isDamaged vol ext) (h : s.sound) :
    (fs.foldl (fun s f => s.draw.2.setExtent vol ext (loseField s.draw.1 f (s.draw.2.extent vol ext))) s).sound := by
  induction fs generalizing s with
  | nil => exact h
  | cons f fs ih =>
    refine ih (s := s.draw.2.setExtent vol ext (loseField s.draw.1 f (s.draw.2.extent vol ext))) hd ?_
    refine sound_setExtent' vol ext _ ?_ (fun v x hx' hk hn => ?_) (sound_draw h)
    · rw [length_loseField]
      exact h.2.2.2.1.2.2.2.2.1 _
    · obtain ⟨rfl, rfl⟩ := extentKey_inj hx' hx hk
      exact absurd hd hn
theorem mem_insertBy {α : Type} {lt : α → α → Bool} {x y : α} {xs : List α} : y ∈ insertBy lt x xs ↔ y = x ∨ y ∈ xs := by
  induction xs with
  | nil => simp [insertBy]
  | cons z t ih =>
    simp only [insertBy]
    split
    · simp
    · simp only [List.mem_cons, ih]
      tauto
theorem mem_sortNat {y : Nat} {xs : List Nat} : y ∈ sortNat xs ↔ y ∈ xs := by
  unfold sortNat
  induction xs with
  | nil => simp [sortBy]
  | cons z t ih => simp only [sortBy, mem_insertBy, ih, List.mem_cons]

theorem sound_applyCommit' {s : State} (vol ext owner : Nat) (p : CommitPlan)
    (hflush : ∀ s : State, s.sound → s.flushReclaims.sound) (hcount : ∀ (s : State) v, s.sound → (s.countThinned vol v).sound)
    (hl : p.versions.length ≤ 4) (hv : (p.versions.filter fun v => v.death.isNone).length ≤ 1)
    (hr : p.entries.length = 0 ∨ s.cat.reclaims.length + p.entries.length ≤ Config.reclaimTableSize)
    (hrc : ∀ v, (s.countThinned vol v).cat.reclaims = s.cat.reclaims)
    (h : s.sound) : (s.applyCommit vol ext owner p).sound := by
  unfold State.applyCommit
  have h1 : ∀ t : State, t.sound → t.cat.reclaims = s.cat.reclaims →
      ({ t.setExtent vol ext { t.extent vol ext with owner := owner, versions := p.versions } with
        cat.reclaims := (t.setExtent vol ext { t.extent vol ext with owner := owner, versions := p.versions }).cat.reclaims ++ p.entries } : State).flushReclaims.sound := by
    intro t ht he
    refine hflush _ (sound_reclaims _ (fun hq => ?_) (sound_setExtent' vol ext _ hl (fun _ _ _ _ _ => hv) ht))
    simp only [State.setExtent] at hq ⊢
    rw [List.length_append, he] at *
    omega
  cases p.thinned with
  | none => exact h1 s h rfl
  | some v => exact h1 _ (hcount s v h) (hrc v)
theorem sound_send {s : State} (o : Output) (hb : s.sound) : (State.send s o).sound := by
  unfold State.send
  repeat' first
    | with_reducible assumption
    | (simp only [sound_mk]; with_reducible refine sound_unfold ?_)





theorem sound_modRestore {s : State} (rec : Nat) (f : Restore → Restore) (hb : s.sound) : (State.modRestore s rec f).sound := by
  unfold State.modRestore
  repeat' first
    | with_reducible assumption
    | ((try simp only [sound_mk]); (with_reducible refine sound_chRst ?_ ?_); first | exact fun h => h | exact fun h => wf_tmod _ _ h)

theorem sound_modStep {s : State} (rec i : Nat) (f : Step → Step) (hb : s.sound) : (State.modStep s rec i f).sound := by
  unfold State.modStep
  repeat' first
    | with_reducible assumption
    | with_reducible apply sound_modRestore

theorem sound_modPlan {s : State} (vol : Nat) (f : PlanVol → PlanVol) (hb : s.sound) : (State.modPlan s vol f).sound := by
  unfold State.modPlan
  repeat' first
    | with_reducible assumption
    | ((try simp only [sound_mk]); (with_reducible refine sound_chOff ?_ ?_); (first | exact fun h => h | exact fun h => ⟨h.1, h.2.1, by simpa [length_mapIf] using h.2.2⟩ | exact fun h => ⟨h.1, h.2.1, Nat.le_trans (List.length_filter_le ..) h.2.2⟩))

theorem sound_modEntry {s : State} (num : Nat) (f : ShipEntry → ShipEntry) (hb : s.sound) : (State.modEntry s num f).sound := by
  unfold State.modEntry
  repeat' first
    | with_reducible assumption
    | ((try simp only [sound_mk]); (with_reducible refine sound_chOff ?_ ?_); (first | exact fun h => h | exact fun h => ⟨h.1, h.2.1, by simpa [length_mapIf] using h.2.2⟩ | exact fun h => ⟨h.1, h.2.1, Nat.le_trans (List.length_filter_le ..) h.2.2⟩))

theorem sound_modRepair {s : State} (n : Nat) (f : Repair → Repair) (hb : s.sound) : (State.modRepair s n f).sound := by
  unfold State.modRepair
  repeat' first
    | with_reducible assumption
    | ((try simp only [sound_mk]); (with_reducible refine sound_chPat ?_ ?_); first | exact fun h => h | exact fun h => wf_tmod _ _ h)

theorem sound_modItem {s : State} (n : Nat) (f : WorkItem → WorkItem) (hb : s.sound) : (State.modItem s n f).sound := by
  unfold State.modItem
  repeat' first
    | with_reducible assumption
    | ((try simp only [sound_mk]); (with_reducible refine sound_chPat ?_ ?_); first | exact fun h => h | exact fun h => wf_tmod _ _ h)

theorem sound_queueTo {s : State} (b : NoticeBody) (n : Notice) (ls : List Link) (hb : s.sound) : (State.queueTo b n ls s).sound := by
  induction ls generalizing s with
  | nil => exact hb
  | cons l ls ih =>
    unfold State.queueTo
    refine ih ?_
    split
    · refine sound_modLink _ _ (fun r hr => ?_) hb
      unfold LinkRec.queueNotice
      split <;> exact hr
    · exact hb

theorem sound_raise {s : State} (b : NoticeBody) (hb : s.sound) : (State.raise s b).sound := by
  unfold State.raise
  repeat' first
    | with_reducible assumption
    | with_reducible apply sound_queueTo
    | ((with_reducible refine sound_modSup _ ?_ ?_); exact fun h => h)

theorem sound_halt {s : State} (item : StoreItem) (hb : s.sound) : (State.halt s item).sound := by
  unfold State.halt
  extract_lets s1 n s2
  have h2 : s2.sound := by
    refine sound_foldl _ _ (fun t l ht => ?_) (sound_raise _ hb)
    split
    · exact sound_modLink _ _ (fun _ hr => hr) ht
    · exact ht
  clear_value s2
  exact sound_modSup (s := s2) (fun u => { u with op := .halted }) (fun h => h) h2

theorem sound_busy {s : State} (l : Link) (hb : s.sound) : (State.busy s l).sound := by
  unfold State.busy
  repeat' first
    | with_reducible assumption
    | ((with_reducible refine sound_modLink _ _ ?_ ?_); first | exact fun _ hr => hr | exact fun _ hr => Nat.le_trans (List.length_filter_le ..) hr | exact fun _ hr => by (repeat' split) <;> exact hr)

theorem sound_restartIdle {s : State} (l : Link) (hb : s.sound) : (State.restartIdle s l).sound := by
  unfold State.restartIdle
  repeat' first
    | with_reducible assumption
    | ((with_reducible refine sound_modLink _ _ ?_ ?_); first | exact fun _ hr => hr | exact fun _ hr => Nat.le_trans (List.length_filter_le ..) hr | exact fun _ hr => by (repeat' split) <;> exact hr)

theorem sound_replyAtOnce {s : State} (l : Link) (tag : Nat) (k : ReqKind) (st : Status) (hb : s.sound) : (State.replyAtOnce s l tag k st).sound := by
  unfold State.replyAtOnce
  repeat' first
    | with_reducible assumption
    | ((with_reducible refine sound_modLink _ _ ?_ ?_); first | exact fun _ hr => hr | exact fun _ hr => Nat.le_trans (List.length_filter_le ..) hr | exact fun _ hr => by (repeat' split) <;> exact hr)

theorem sound_reply {s : State} (l : Link) (req : Nat) (st : Status) (body : ReplyBody) (hb : s.sound) :
    (State.reply s l req st body).sound := by
  refine sound_restartIdle l (sound_modLink _ _ (fun r hr => ?_) hb)
  unfold LinkRec.reply
  split
  · exact hr
  · exact hr

theorem sound_handNotice {s : State} (l : Link) (b : DirBody) (hb : s.sound) : (State.handNotice s l b).sound := by
  unfold State.handNotice
  repeat' first
    | with_reducible assumption
    | with_reducible apply sound_busy
    | ((with_reducible refine sound_modLink _ _ ?_ ?_); first | exact fun _ hr => hr | exact fun _ hr => Nat.le_trans (List.length_filter_le ..) hr | exact fun _ hr => by (repeat' split) <;> exact hr)

/-- A place is given only in a list that has a free entry (R175). -/
theorem placeFree_room {s : State} {l : Link} {who : Issuer} (h : ¬ s.placeFree l who = false) :
    (s.link l).directives.length < Config.directiveListSize := by
  unfold State.placeFree at h
  simp only [Bool.not_eq_false, Bool.and_eq_true, decide_eq_true_eq] at h
  exact h.1.2
theorem sound_modLink_at {s : State} (l : Link) (f : LinkRec → LinkRec)
    (hf : (s.link l).sound → (f (s.link l)).sound) (h : s.sound) : (s.modLink l f).sound := by
  refine ⟨h.1, fun k => ?_, h.2.2⟩
  simp only [State.modLink, State.link]
  by_cases hk : (l : Nat) = (k : Nat)
  · have : l = k := Fin.ext hk
    subst this
    have hk2 := hf (h.2.1 l)
    simpa [State.link] using hk2
  · simpa [Vector.getElem_set, hk] using h.2.1 k
theorem sound_handDirective {s : State} (l : Link) (k : DirKind) (who : Issuer) (refs : List (Nat × Nat × Nat)) (b : DirBody)
    (chunks : List (Nat × Nat)) (hr : (s.link l).directives.length < Config.directiveListSize) (hb : s.sound) :
    (State.handDirective s l k who refs b chunks).sound := by
  unfold State.handDirective
  refine sound_busy _ (sound_modLink_at _ _ (fun _ => ?_) hb)
  unfold LinkRec.sound
  rw [List.length_append]
  exact hr

theorem sound_waitPlace {s : State} (l : Link) (who : Issuer) (hb : s.sound) : (State.waitPlace s l who).sound := by
  unfold State.waitPlace
  repeat' first
    | with_reducible assumption
    | ((with_reducible refine sound_modLink _ _ ?_ ?_); first | exact fun _ hr => hr | exact fun _ hr => Nat.le_trans (List.length_filter_le ..) hr | exact fun _ hr => by (repeat' split) <;> exact hr)

theorem sound_leavePlaces {s : State} (who : Issuer) (hb : s.sound) : (State.leavePlaces s who).sound := by
  unfold State.leavePlaces
  repeat' first
    | with_reducible assumption
    | with_reducible refine sound_foldl _ _ (fun _ _ _ => ?_) ?_
    | ((with_reducible refine sound_modLink _ _ ?_ ?_); first | exact fun _ hr => hr | exact fun _ hr => Nat.le_trans (List.length_filter_le ..) hr | exact fun _ hr => by (repeat' split) <;> exact hr)

theorem sound_endDirective {s : State} (l : Link) (tag : Nat) (hb : s.sound) : (State.endDirective s l tag).sound := by
  unfold State.endDirective
  repeat' first
    | with_reducible assumption
    | with_reducible apply sound_restartIdle
    | ((with_reducible refine sound_modLink _ _ ?_ ?_); first | exact fun _ hr => hr | exact fun _ hr => Nat.le_trans (List.length_filter_le ..) hr | exact fun _ hr => by (repeat' split) <;> exact hr)

theorem sound_setGrace {s : State} (id : Nat) (g : Grace) (hb : s.sound) : (State.setGrace s id g).sound := by
  unfold State.setGrace
  repeat' first
    | with_reducible assumption
    | ((with_reducible refine sound_modPrin' _ _ ?_ ?_); exact fun _ h => h)

theorem sound_leaveGraceQueue {s : State} (id : Nat) (hb : s.sound) : (State.leaveGraceQueue s id).sound :=
  sound_grace _ (fun h => Nat.le_trans (List.length_filter_le ..) h) hb

theorem sound_enterGrace {s : State} (id deadline : Nat) (hb : s.sound) : (State.enterGrace s id deadline).sound :=
  sound_enterGrace' id deadline (fun _ i g h => sound_setGrace i g h) hb

theorem sound_expire {s : State} (id : Nat) (hb : s.sound) : (State.expire s id).sound := by
  unfold State.expire
  repeat' first
    | with_reducible assumption
    | with_reducible apply sound_leaveGraceQueue
    | with_reducible apply sound_raise
    | with_reducible apply sound_setGrace
    | split

theorem sound_lazyExpire {s : State} (id : Nat) (hb : s.sound) : (State.lazyExpire s id).sound := by
  unfold State.lazyExpire
  repeat' first
    | with_reducible assumption
    | with_reducible apply sound_expire
    | split

theorem sound_lazyExpireAll {s : State} (ids : List Nat) (hb : s.sound) : (State.lazyExpireAll s ids).sound := by
  unfold State.lazyExpireAll
  repeat' first
    | with_reducible assumption
    | with_reducible apply sound_lazyExpire
    | with_reducible refine sound_foldl _ _ (fun _ _ _ => ?_) ?_

theorem sound_evalGrace {s : State} (id : Nat) (hb : s.sound) : (State.evalGrace s id).sound := by
  unfold State.evalGrace
  try dsimp only
  repeat' first
    | with_reducible assumption
    | with_reducible apply sound_enterGrace
    | with_reducible apply sound_leaveGraceQueue
    | with_reducible apply sound_raise
    | with_reducible apply sound_setGrace
    | split

theorem sound_evalGraceAll {s : State} (ids : List Nat) (hb : s.sound) : (State.evalGraceAll s ids).sound := by
  unfold State.evalGraceAll
  repeat' first
    | with_reducible assumption
    | with_reducible apply sound_evalGrace
    | with_reducible refine sound_foldl _ _ (fun _ _ _ => ?_) ?_

theorem sound_expireHead {s : State} (hb : s.sound) : (State.expireHead s).sound := by
  unfold State.expireHead
  split
  · exact hb
  · split
    · exact sound_grace _ (fun h => Nat.le_trans (List.length_filter_le ..) h) (sound_expire _ hb)
    · exact hb

theorem sound_expireDue {s : State} (hb : s.sound) : (State.expireDue s).sound := by
  unfold State.expireDue
  repeat' first
    | with_reducible assumption
    | with_reducible apply sound_expireHead
    | with_reducible refine sound_iter _ _ (fun _ _ => ?_) ?_

theorem sound_rebuildGrace {s : State} (hb : s.sound) : (State.rebuildGrace s).sound := by
  unfold State.rebuildGrace
  refine sound_tmapPrin (s := { s with tally.grace := s.inGrace.take Config.graceQueueSize }) _ (fun i p hp => ?_)
    (sound_grace _ (fun _ => List.length_take_le ..) hb)
  split <;> exact hp

theorem sound_modOp {s : State} (num : Nat) (f : TallyOp → TallyOp) (hb : s.sound) : (State.modOp s num f).sound := by
  unfold State.modOp
  repeat' first
    | with_reducible assumption
    | ((try simp only [sound_mk]); (with_reducible refine sound_chTally ?_ ?_); first | exact fun h => h | exact fun h => ⟨wf_tmap _ h.1, h.2⟩)

theorem sound_dropOp {s : State} (num : Nat) (hb : s.sound) : (State.dropOp s num).sound := by
  unfold State.dropOp
  repeat' first
    | with_reducible assumption
    | ((try simp only [sound_mk]); (with_reducible refine sound_chTally ?_ ?_); first | exact fun h => h | exact fun h => ⟨wf_tmap _ h.1, h.2⟩)

theorem sound_pushOp {s : State} (job : Job) (postings : List Nat) (hb : s.sound) : (State.pushOp s job postings).sound := by
  unfold State.pushOp
  repeat' first
    | with_reducible assumption
    | ((try simp only [sound_mk]); (with_reducible refine sound_chTally ?_ ?_); first | exact fun h => h | exact fun h => ⟨wf_tmap _ h.1, h.2⟩)

theorem sound_takeNext {s : State} (num : Nat) (hb : s.sound) : (State.takeNext s num).sound := by
  unfold State.takeNext
  try dsimp only
  repeat' first
    | with_reducible assumption
    | split
    | with_reducible apply sound_takeSet

theorem sound_gather {s : State} (num : Nat) (hb : s.sound) : (State.gather s num).sound := by
  unfold State.gather
  try dsimp only
  repeat' first
    | with_reducible assumption
    | with_reducible apply sound_modOp
    | with_reducible apply sound_takeNext
    | split
    | with_reducible refine sound_iter _ _ (fun _ _ => ?_) ?_



theorem sound_takePosting {s : State} (hb : s.sound) : (State.takePosting s).sound := by
  unfold State.takePosting
  repeat' first
    | with_reducible assumption
    | with_reducible apply sound_pushOp
    | split



theorem sound_beginRecount {s : State} (pool : Nat) (hb : s.sound) : (State.beginRecount s pool).sound := by
  unfold State.beginRecount
  repeat' first
    | with_reducible assumption
    | split
    | ((try simp only [sound_mk]); (with_reducible refine sound_chTally ?_ ?_); first | exact fun h => h | exact fun h => ⟨wf_tmap _ h.1, h.2⟩)

theorem sound_beginRecounts {s : State} (hb : s.sound) : (State.beginRecounts s).sound := by
  unfold State.beginRecounts
  repeat' first
    | with_reducible assumption
    | with_reducible apply sound_beginRecount
    | with_reducible refine sound_foldl _ _ (fun _ _ _ => ?_) ?_

theorem sound_memberUnsettled {s : State} (pool : Nat) (hb : s.sound) : (State.memberUnsettled s pool).sound := by
  unfold State.memberUnsettled
  repeat' first
    | with_reducible assumption
    | ((with_reducible refine sound_modPrin' _ _ ?_ ?_); exact fun _ h => h)
    | ((try simp only [sound_mk]); (with_reducible refine sound_chTally ?_ ?_); first | exact fun h => h | exact fun h => ⟨wf_tmap _ h.1, h.2⟩)

theorem sound_flushReclaim {s : State} (hb : s.sound) : (State.flushReclaim s).sound := by
  unfold State.flushReclaim
  split
  · exact hb
  · split
    · exact hb
    · exact sound_handNotice _ _ (sound_reclaims _ (fun h => Nat.le_trans List.erase_sublist.length_le h) hb)

theorem sound_flushReclaims {s : State} (hb : s.sound) : (State.flushReclaims s).sound := by
  unfold State.flushReclaims
  repeat' first
    | with_reducible assumption
    | with_reducible apply sound_flushReclaim
    | with_reducible refine sound_iter _ _ (fun _ _ => ?_) ?_

theorem sound_sendReclaim {s : State} (vol ext loc : Nat) (hb : s.sound) : (State.sendReclaim s vol ext loc).sound := by
  unfold State.sendReclaim
  split
  · exact hb
  · split
    · exact sound_handNotice _ _ hb
    · split
      · rename_i hlt
        refine sound_reclaims _ (fun _ => ?_) hb
        rw [List.length_append]
        exact hlt
      · exact hb

theorem sound_sendCutDue {s : State} (vol : Nat) (nightly : Bool) (hb : s.sound) : (State.sendCutDue s vol nightly).sound := by
  unfold State.sendCutDue
  repeat' first
    | with_reducible assumption
    | with_reducible apply sound_handNotice
    | with_reducible apply sound_setDues
    | split

theorem sound_openDue {s : State} (nightly : Bool) (vol : Nat) (hb : s.sound) : (State.openDue s nightly vol).sound := by
  unfold State.openDue
  repeat' first
    | with_reducible assumption
    | with_reducible apply sound_sendCutDue
    | with_reducible apply sound_setDues

theorem sound_closeDue {s : State} (nightly : Bool) (vol : Nat) (hb : s.sound) : (State.closeDue s nightly vol).sound := by
  unfold State.closeDue
  repeat' first
    | with_reducible assumption
    | with_reducible apply sound_setDues

theorem sound_unsendDues {s : State} (l : Link) (hb : s.sound) : (State.unsendDues s l).sound :=
  by
  unfold State.unsendDues
  simp only [sound_mk]
  exact sound_chCat (fun hy => ⟨⟨hy.1.1, hy.1.2.1, hy.1.2.2.1, by dsimp only; exact wf_tmap _ hy.1.2.2.2⟩, hy.2⟩) hb

theorem sound_sendDues {s : State} (l : Link) (hb : s.sound) : (State.sendDues s l).sound := by
  unfold State.sendDues
  repeat' first
    | with_reducible assumption
    | with_reducible apply sound_sendCutDue
    | with_reducible refine sound_foldl _ _ (fun _ _ _ => ?_) ?_

theorem sound_arrive {s : State} (l : Link) (hb : s.sound) : (State.arrive s l).sound := by
  unfold State.arrive
  try dsimp only
  repeat' first
    | with_reducible assumption
    | with_reducible apply sound_busy
    | with_reducible apply sound_flushReclaims
    | with_reducible apply sound_sendDues
    | split
    | ((with_reducible refine sound_modLink _ _ ?_ ?_); first | exact fun _ hr => hr | exact fun _ hr => Nat.le_trans (List.length_filter_le ..) hr | exact fun _ hr => by (repeat' split) <;> exact hr)

theorem sound_startExpiry {s : State} (vol gen : Nat) (hb : s.sound) : (State.startExpiry s vol gen).sound := by
  unfold State.startExpiry
  repeat' first
    | with_reducible assumption
    | with_reducible apply sound_modSnapshot

theorem sound_retainOnce (vol : Nat) (k : SnapKind) {s : State} (hb : s.sound) : (State.retainOnce vol k s).sound := by
  unfold State.retainOnce
  repeat' first
    | with_reducible assumption
    | with_reducible apply sound_startExpiry
    | split

theorem sound_retain {s : State} (vol : Nat) (k : SnapKind) (hb : s.sound) : (State.retain s vol k).sound := by
  unfold State.retain
  repeat' first
    | with_reducible assumption
    | with_reducible apply sound_retainOnce
    | with_reducible refine sound_iter _ _ (fun _ _ => ?_) ?_

theorem sound_takePin {s : State} (vol gen : Nat) (ship : Bool) (hb : s.sound) : (State.takePin s vol gen ship).sound := by
  unfold State.takePin
  repeat' first
    | with_reducible assumption
    | with_reducible apply sound_modSnapshot

theorem sound_dropPin {s : State} (vol gen : Nat) (ship : Bool) (hb : s.sound) : (State.dropPin s vol gen ship).sound := by
  unfold State.dropPin
  repeat' first
    | with_reducible assumption
    | with_reducible apply sound_modSnapshot
    | with_reducible apply sound_retain
    | split

theorem sound_countThinned {s : State} (vol : Nat) (v : Version) (hb : s.sound) : (State.countThinned s vol v).sound := by
  unfold State.countThinned
  repeat' first
    | with_reducible assumption
    | with_reducible apply sound_modSnapshot
    | split
    | with_reducible refine sound_foldl _ _ (fun _ _ _ => ?_) ?_

theorem sound_commit {s : State} {link : Option Link} {rid : Option Nat} {vol ext owner loc occ : Nat} {codes : Option (List Code)}
    (hc : s.commitCheck link rid vol ext owner loc occ codes = none) (hb : s.sound) :
    (s.commit vol ext owner loc occ codes).2.sound := by
  unfold State.commitCheck at hc
  split at hc
  · cases hc
  · split at hc
    · cases hc
    · split at hc
      · cases hc
      · rename_i v hv
        split at hc
        · cases hc
        · split at hc
          · cases hc
          · rename_i hx
            dsimp only at hc
            split at hc
            · cases hc
            · split at hc
              · cases hc
              · rename_i hd
                split at hc
                · cases hc
                · split at hc
                  · cases hc
                  · rename_i hf
                    split at hc
                    · cases hc
                    · rename_i hs
                      have hy := hb.2.2.2.1
                      have hv' : tget s.cat.volumes vol = some v := by
                        unfold State.volume at hv
                        split at hv
                        · exact hv
                        · cases hv
                      have hcount := hy.2.1 _ (mem_of_tget hv')
                      have hlive : (s.extent vol ext).lives ≤ 1 := by
                        refine hy.2.2.2.2.2 vol ext (Nat.lt_of_lt_of_le (Nat.not_le.1 hx) hcount) ?_
                        rintro ⟨hlt, w, hw, hdam⟩
                        rw [hv'] at hw
                        cases hw
                        unfold State.damaged at hd
                        rw [hv] at hd
                        exact hd hdam
                      have hp := planCommit_sound s vol ext v.gen loc occ (s.extent vol ext) (codes.getD []) (hy.2.2.2.2.1 _) hlive (by simpa using hs)
                      unfold State.commit
                      rw [hv]
                      refine sound_applyCommit' vol ext owner _ (fun _ h => sound_flushReclaims h) (fun _ _ h => sound_countThinned _ _ h)
                        hp.1 hp.2 ?_ (fun w => ?_) hb
                      · unfold State.reclaimFull at hf
                        simp only [Bool.and_eq_true, Bool.or_eq_true, decide_eq_true_eq, not_and, not_or] at hf
                        by_cases h0 : (s.planCommit vol ext v.gen (s.extent vol ext) loc occ (codes.getD [])).entries.length = 0
                        · exact Or.inl h0
                        · exact Or.inr (Nat.not_lt.1 (hf (Nat.pos_of_ne_zero h0)).1)
                      · unfold State.countThinned
                        generalize s.snapsOf vol = ps
                        suffices ∀ t : State, (ps.foldl (fun s p => if w.heldAt p.gen then s.modSnapshot vol p.gen fun q => { q with thinned := raiseThinned q.thinned } else s) t).cat.reclaims = t.cat.reclaims from this s
                        intro t
                        induction ps generalizing t with
                        | nil => rfl
                        | cons p ps ih =>
                          rw [List.foldl_cons, ih]
                          split <;> rfl

theorem sound_decRef {s : State} (vol ext loc : Nat) (hb : s.sound) : (State.decRef s vol ext loc).sound := by
  unfold State.decRef
  dsimp only
  split
  · exact sound_modVolume' _ _ (fun _ => ⟨rfl, fun _ h => h⟩) (sound_refs _ _ _ _ hb)
  · split
    · exact hb
    · exact sound_flushReclaims (sound_modVolume' _ _ (fun _ => ⟨rfl, fun _ h => h⟩)
        (sound_reclaims _ (fun h => by rw [length_mapIf]; exact h) hb))

theorem sound_decRefs {s : State} (refs : List (Nat × Nat × Nat)) (hb : s.sound) : (State.decRefs s refs).sound := by
  unfold State.decRefs
  repeat' first
    | with_reducible assumption
    | with_reducible apply sound_decRef
    | with_reducible refine sound_foldl _ _ (fun _ _ _ => ?_) ?_

theorem sound_lockRange {s : State} (rid vol first count : Nat) (hb : s.sound) : (State.lockRange s rid vol first count).sound := by
  unfold State.lockRange
  repeat' first
    | with_reducible assumption
    | with_reducible refine sound_foldl _ _ (fun _ _ _ => ?_) ?_
    | ((with_reducible refine sound_setExtent_le _ _ _ ?_ ?_ ?_); exact Nat.le_refl _; exact Nat.le_refl _)

theorem sound_unlock {s : State} (vol ext rid : Nat) (hb : s.sound) : (State.unlock s vol ext rid).sound := by
  unfold State.unlock
  repeat' first
    | with_reducible assumption
    | split
    | ((with_reducible refine sound_setExtent_le _ _ _ ?_ ?_ ?_); exact Nat.le_refl _; exact Nat.le_refl _)

theorem sound_changeVersion {s : State} (vol ext birth : Nat) (p : Version → Bool) (f : Version → Version)
    (hf : ∀ v, (f v).death.isNone = v.death.isNone) (hb : s.sound) : (State.changeVersion s vol ext birth p f).sound := by
  unfold State.changeVersion
  split
  · exact hb
  · exact sound_mapVersions _ _ _ _ hf hb

theorem sound_setShipped {s : State} (vol ext birth : Nat) (hb : s.sound) : (State.setShipped s vol ext birth).sound := by
  unfold State.setShipped
  repeat' first
    | with_reducible assumption
    | ((with_reducible refine sound_changeVersion _ _ _ _ _ ?_ ?_); exact fun _ => rfl)

theorem sound_setVerified {s : State} (vol ext birth loc : Nat) (hb : s.sound) : (State.setVerified s vol ext birth loc).sound := by
  unfold State.setVerified
  repeat' first
    | with_reducible assumption
    | ((with_reducible refine sound_changeVersion _ _ _ _ _ ?_ ?_); exact fun _ => rfl)

theorem sound_writeRepair {s : State} (vol ext birth loc : Nat) (st : RepairState) (hb : s.sound) : (State.writeRepair s vol ext birth loc st).sound := by
  unfold State.writeRepair
  repeat' first
    | with_reducible assumption
    | ((with_reducible refine sound_changeVersion _ _ _ _ _ ?_ ?_); exact fun _ => rfl)

theorem sound_damageExtent {s : State} (vol ext : Nat) (lost : List ExtentField) (v : Volume) (hv : s.volume vol = some v)
    (hx : ext < v.count) (hb : s.sound) : (State.damageExtent s vol ext lost).sound := by
  unfold State.damageExtent
  unfold State.volume at hv
  split at hv
  · rename_i hlt
    have hc := hb.2.2.2.1.2.1 _ (mem_of_tget hv)
    refine sound_raise _ (damageFold vol ext (Nat.lt_of_lt_of_le hx hc) lost ?_ (sound_modVolume' _ _ (fun v => ⟨rfl, fun x hx => ?_⟩) hb))
    · refine ⟨hlt, ?_⟩
      simp only [State.modVolume, tget_tmod, hv]
      exact ⟨_, by simp; rfl, by dsimp only; split <;> simp_all [mem_sortNat]⟩
    · split
      · exact hx
      · simp only [List.contains_eq_mem, decide_eq_true_eq] at hx ⊢
        exact mem_sortNat.2 (List.mem_cons_of_mem _ hx)
  · cases hv





theorem sound_grant {s : State} (c : SlotClass) (r : SlotReq) (ha : s.grantAllowed c r.wants.length = true)
    (hw : c = .patrol → r.wants.length ≤ 1) (hb : s.sound) : (State.grant s c r).sound := by
  have h1 : (r.wants.foldl (State.grantSlot c r.holder) s).sound := by
    have hs := hb.2.2.2.2.2.1.2.1
    unfold State.grantAllowed State.freeSlots at ha
    refine sound_grantSlots c r.holder r.wants ?_ (fun hc => ?_) hb
    · simp only [Bool.and_eq_true, decide_eq_true_eq] at ha
      have := ha.1.2
      omega
    · subst hc
      have h1 := hw rfl
      have h2 : s.slotsHeld .patrol < Config.patrolCap := by
        simp only [Bool.and_eq_true, decide_eq_true_eq] at ha
        exact ha.2.2
      unfold State.slotsHeld at h2
      exact Nat.le_trans (Nat.add_le_add_left h1 _) h2
  unfold State.grant
  dsimp only
  split
  · simp only [sound_mk]
    exact sound_chOff (fun h => h) h1
  · exact sound_modItem _ _ h1
  · exact h1
  · exact h1
  · exact h1

theorem sound_setWaiting' {s : State} (c : SlotClass) (q : List SlotReq) (hq : c = .patrol → ∀ r ∈ q, r.wants.length ≤ 1)
    (hb : s.sound) : (s.setWaiting c q).sound := by
  cases c with
  | patrol => exact sound_chStr (s := s) (fun hy => ⟨hy.1, hy.2.1, hy.2.2.1, hq rfl⟩) hb
  | repair => exact sound_chStr (s := s) (fun hy => hy) hb
  | fetch => exact sound_chStr (s := s) (fun hy => hy) hb
  | ship => exact sound_chStr (s := s) (fun hy => hy) hb

theorem waiting_patrol {s : State} (hb : s.sound) {c : SlotClass} (hc : c = .patrol) : ∀ r ∈ s.waiting c, r.wants.length ≤ 1 := by
  subst hc
  exact hb.2.2.2.2.2.1.2.2.2

theorem sound_enqueue {s : State} (c : SlotClass) (r : SlotReq) (hw : c = .patrol → r.wants.length ≤ 1) (hb : s.sound) :
    (State.enqueue s c r).sound := by
  have ha : ∀ x ∈ s.waiting c ++ [r], c = .patrol → x.wants.length ≤ 1 := by
    intro x hx hc
    rcases List.mem_append.1 hx with h | h
    · exact waiting_patrol hb hc x h
    · rw [List.mem_singleton] at h
      subst h
      exact hw hc
  unfold State.enqueue
  split
  · split
    · exact sound_setWaiting' _ _ (fun hc => by cases hc) hb
    · exact sound_setWaiting' _ _ (fun hc => by cases hc) hb
  · split
    · exact sound_setWaiting' _ _ (fun hc => by cases hc) hb
    · exact sound_setWaiting' _ _ (fun hc => by cases hc) hb
  · exact sound_setWaiting' _ _ (fun hc => by cases hc) hb
  · exact sound_setWaiting' _ _ (fun hc x hx => ha x hx hc) hb

theorem sound_considerOnce {s : State} (hb : s.sound) : (State.considerOnce s).sound := by
  unfold State.considerOnce
  split
  · exact hb
  · rename_i c hg
    split
    · exact hb
    · rename_i r t hrt
      have hgr := List.find?_some hg
      rw [hrt] at hgr
      have hw := fun hc => waiting_patrol hb (c := c) hc
      rw [hrt] at hw
      refine sound_grant c r ?_ (fun hc => hw hc r (List.mem_cons_self ..))
        (sound_setWaiting' _ _ (fun hc x hx => hw hc x (List.mem_cons_of_mem _ hx)) hb)
      cases c with
      | repair => exact hgr
      | fetch => exact hgr
      | ship => exact hgr
      | patrol => exact hgr

theorem sound_consider {s : State} (hb : s.sound) : (State.consider s).sound := by
  unfold State.consider
  repeat' first
    | with_reducible assumption
    | with_reducible apply sound_considerOnce
    | with_reducible refine sound_iter _ _ (fun _ _ => ?_) ?_

theorem sound_handBack {s : State} (n : Nat) (hb : s.sound) : (State.handBack s n).sound :=
  sound_modOff (s := s.freeSlot n)
    (fun o => { o with queue := o.queue.filterMap fun e => if e.slot = some n then e.handedBack s.nightEnding else some e })
    (fun h => ⟨h.1, h.2.1, Nat.le_trans (List.length_filterMap_le ..) h.2.2⟩) (sound_freeSlot n hb)

theorem sound_freeFullShip {s : State} (hb : s.sound) : (State.freeFullShip s).sound := by
  unfold State.freeFullShip
  repeat' first
    | with_reducible assumption
    | with_reducible apply sound_handBack
    | with_reducible refine sound_foldl _ _ (fun _ _ _ => ?_) ?_

theorem sound_takeBackOnce {s : State} (hb : s.sound) : (State.takeBackOnce s).sound := by
  unfold State.takeBackOnce
  repeat' first
    | with_reducible assumption
    | with_reducible apply sound_consider
    | with_reducible apply sound_handBack
    | split

theorem sound_takeBack {s : State} (hb : s.sound) : (State.takeBack s).sound := by
  unfold State.takeBack
  repeat' first
    | with_reducible assumption
    | with_reducible apply sound_takeBackOnce
    | with_reducible refine sound_iter _ _ (fun _ _ => ?_) ?_

theorem sound_askSlots {s : State} (c : SlotClass) (r : SlotReq) (hw : c = .patrol → r.wants.length ≤ 1) (hb : s.sound) :
    (State.askSlots s c r).sound := by
  unfold State.askSlots
  split
  · rename_i h
    exact sound_grant c r h.1 hw hb
  · exact sound_takeBack (sound_enqueue c r hw hb)

theorem sound_withdrawAsk {s : State} (h : SlotHolder) (hb : s.sound) : (State.withdrawAsk s h).sound :=
  sound_chStr (s := s) (fun hy => ⟨hy.1, hy.2.1, hy.2.2.1, fun r hr => hy.2.2.2 r (List.mem_filter.1 hr).1⟩) hb

theorem sound_freeHolder {s : State} (h : SlotHolder) (hb : s.sound) : (State.freeHolder s h).sound := by
  unfold State.freeHolder
  repeat' first
    | with_reducible assumption
    | with_reducible apply sound_freeSlotsIf

theorem sound_freeAllOf {s : State} (h : SlotHolder) (hb : s.sound) : (State.freeAllOf s h).sound := by
  unfold State.freeAllOf
  repeat' first
    | with_reducible assumption
    | with_reducible apply sound_freeSlotsIf

theorem sound_setSlots {s : State} (ns : List Nat) (st : SlotState) (hb : s.sound) : (State.setSlots s ns st).sound := by
  unfold State.setSlots
  repeat' first
    | with_reducible assumption
    | with_reducible refine sound_foldl _ _ (fun _ _ _ => ?_) ?_
    | ((with_reducible refine sound_modSlot' _ _ ?_ ?_); exact fun _ => rfl)

theorem sound_fill {s : State} (n : Nat) (data : List Byte) (hb : s.sound) : (State.fill s n data).sound := by
  unfold State.fill
  repeat' first
    | with_reducible assumption
    | ((with_reducible refine sound_modSlot' _ _ ?_ ?_); exact fun _ => rfl)

theorem sound_makeFull {s : State} (n : Nat) (hb : s.sound) : (State.makeFull s n).sound := by
  unfold State.makeFull
  repeat' first
    | with_reducible assumption
    | ((with_reducible refine sound_modSlot' _ _ ?_ ?_); exact fun _ => rfl)
    | ((try simp only [sound_mk]); (with_reducible refine sound_chStr ?_ ?_); first | exact fun h => h)

theorem sound_startOpening {s : State} (hb : s.sound) : (State.startOpening s).sound := by
  unfold State.startOpening
  repeat' first
    | with_reducible assumption
    | with_reducible apply sound_send
    | ((with_reducible refine sound_modOff _ ?_ ?_); (first | exact fun h => h | exact fun h => ⟨h.1, h.2.1, by simpa [length_mapIf] using h.2.2⟩ | exact fun h => ⟨h.1, h.2.1, Nat.le_trans (List.length_filter_le ..) h.2.2⟩))

theorem sound_askOpening {s : State} (hb : s.sound) : (State.askOpening s).sound := by
  unfold State.askOpening
  repeat' first
    | with_reducible assumption
    | with_reducible apply sound_startOpening
    | split

theorem sound_leaveUp {s : State} (hb : s.sound) : (State.leaveUp s).sound := by
  unfold State.leaveUp
  repeat' first
    | with_reducible assumption
    | ((try simp only [sound_mk]); (with_reducible refine sound_chStr ?_ ?_); first | exact fun h => h)

theorem sound_closeLink {s : State} (hb : s.sound) : (State.closeLink s).sound := by
  unfold State.closeLink
  repeat' first
    | with_reducible assumption
    | with_reducible apply sound_leaveUp
    | with_reducible apply sound_send
    | ((with_reducible refine sound_modOff _ ?_ ?_); (first | exact fun h => h | exact fun h => ⟨h.1, h.2.1, by simpa [length_mapIf] using h.2.2⟩ | exact fun h => ⟨h.1, h.2.1, Nat.le_trans (List.length_filter_le ..) h.2.2⟩))

theorem sound_freeFilling {s : State} (e : FetchEntry) (hb : s.sound) : (State.freeFilling s e).sound := by
  unfold State.freeFilling
  repeat' first
    | with_reducible assumption
    | split
    | with_reducible apply sound_freeSlotsIf

theorem sound_giveBack {s : State} (f : OutFrame) (hb : s.sound) : (State.giveBack s f).sound := by
  unfold State.giveBack
  try dsimp only
  repeat' first
    | with_reducible assumption
    | with_reducible apply sound_freeFilling
    | with_reducible apply sound_modEntry
    | split
    | ((with_reducible refine sound_modOff _ ?_ ?_); (first | exact fun h => h | exact fun h => ⟨h.1, h.2.1, by simpa [length_mapIf] using h.2.2⟩ | exact fun h => ⟨h.1, h.2.1, Nat.le_trans (List.length_filter_le ..) h.2.2⟩))
    | with_reducible apply sound_freeSlot

theorem sound_giveBackAll {s : State} (ahead : Bool) (hb : s.sound) : (State.giveBackAll ahead s).sound := by
  unfold State.giveBackAll
  refine sound_modOff _ (fun h => ⟨Nat.zero_le _, Or.inl (fun _ hm => by cases hm), h.2.2⟩)
    (sound_freeSlotsIf _ (sound_foldl _ _ (fun _ _ h => sound_giveBack _ h) hb))

theorem sound_fault {s : State} (cause : FaultCause) (hb : s.sound) : (State.fault s cause).sound := by
  unfold State.fault
  repeat' first
    | with_reducible assumption
    | with_reducible apply sound_giveBackAll
    | with_reducible apply sound_leaveUp
    | with_reducible apply sound_raise
    | ((with_reducible refine sound_modOff _ ?_ ?_); (first | exact fun h => h | exact fun h => ⟨h.1, h.2.1, by simpa [length_mapIf] using h.2.2⟩ | exact fun h => ⟨h.1, h.2.1, Nat.le_trans (List.length_filter_le ..) h.2.2⟩))

theorem sound_chooseDir {s : State} (hb : s.sound) : (State.chooseDir s).sound := by
  unfold State.chooseDir
  repeat' first
    | with_reducible assumption
    | split
    | ((with_reducible refine sound_modOff _ ?_ ?_); (first | exact fun h => h | exact fun h => ⟨h.1, h.2.1, by simpa [length_mapIf] using h.2.2⟩ | exact fun h => ⟨h.1, h.2.1, Nat.le_trans (List.length_filter_le ..) h.2.2⟩))

theorem sound_redirectOnce {s : State} (hb : s.sound) : (State.redirectOnce s).sound := by
  unfold State.redirectOnce
  try dsimp only
  repeat' first
    | with_reducible assumption
    | with_reducible apply sound_chooseDir
    | with_reducible apply sound_closeLink
    | split
    | ((with_reducible refine sound_modOff _ ?_ ?_); (first | exact fun h => h | exact fun h => ⟨h.1, h.2.1, by simpa [length_mapIf] using h.2.2⟩ | exact fun h => ⟨h.1, h.2.1, Nat.le_trans (List.length_filter_le ..) h.2.2⟩))

theorem sound_redirect {s : State} (hb : s.sound) : (State.redirect s).sound := by
  unfold State.redirect
  repeat' first
    | with_reducible assumption
    | with_reducible apply sound_redirectOnce
    | with_reducible refine sound_iter _ _ (fun _ _ => ?_) ?_

theorem sound_endBurst {s : State} (hb : s.sound) : (State.endBurst s).sound := by
  unfold State.endBurst
  repeat' first
    | with_reducible assumption
    | split
    | ((with_reducible refine sound_modOff _ ?_ ?_); (first | exact fun h => h | exact fun h => ⟨h.1, h.2.1, by simpa [length_mapIf] using h.2.2⟩ | exact fun h => ⟨h.1, h.2.1, Nat.le_trans (List.length_filter_le ..) h.2.2⟩))

theorem sound_markRest {s : State} (hb : s.sound) : (State.markRest s).sound := by
  unfold State.markRest
  repeat' first
    | with_reducible assumption
    | ((with_reducible refine sound_modOff _ ?_ ?_); (first | exact fun h => h | exact fun h => ⟨h.1, h.2.1, by simpa [length_mapIf] using h.2.2⟩ | exact fun h => ⟨h.1, h.2.1, Nat.le_trans (List.length_filter_le ..) h.2.2⟩))

theorem sound_placeFetch {s : State} (es : List FetchEntry) (atHead : Bool) (hb : s.sound) : (State.placeFetch s es atHead).sound := by
  unfold State.placeFetch
  repeat' first
    | with_reducible assumption
    | with_reducible apply sound_askOpening
    | ((with_reducible refine sound_modOff _ ?_ ?_); (first | exact fun h => h | exact fun h => ⟨h.1, h.2.1, by simpa [length_mapIf] using h.2.2⟩ | exact fun h => ⟨h.1, h.2.1, Nat.le_trans (List.length_filter_le ..) h.2.2⟩))

theorem sound_askRoom {s : State} (h : FetchHolder) (es : List FetchEntry) (atHead : Bool) (hb : s.sound) : (State.askRoom s h es atHead).sound := by
  unfold State.askRoom
  repeat' first
    | with_reducible assumption
    | with_reducible apply sound_placeFetch
    | split
    | ((with_reducible refine sound_modOff _ ?_ ?_); (first | exact fun h => h | exact fun h => ⟨h.1, h.2.1, by simpa [length_mapIf] using h.2.2⟩ | exact fun h => ⟨h.1, h.2.1, Nat.le_trans (List.length_filter_le ..) h.2.2⟩))

theorem sound_serveRoomOnce {s : State} (hb : s.sound) : (State.serveRoomOnce s).sound := by
  unfold State.serveRoomOnce
  repeat' first
    | with_reducible assumption
    | with_reducible apply sound_placeFetch
    | split
    | ((with_reducible refine sound_modOff _ ?_ ?_); (first | exact fun h => h | exact fun h => ⟨h.1, h.2.1, by simpa [length_mapIf] using h.2.2⟩ | exact fun h => ⟨h.1, h.2.1, Nat.le_trans (List.length_filter_le ..) h.2.2⟩))

theorem sound_serveRoom {s : State} (hb : s.sound) : (State.serveRoom s).sound := by
  unfold State.serveRoom
  repeat' first
    | with_reducible assumption
    | with_reducible apply sound_serveRoomOnce
    | with_reducible refine sound_iter _ _ (fun _ _ => ?_) ?_

theorem mapFrames {o : Offsite} (g : OutFrame → OutFrame) (hg : ∀ f, (g f).body.isShip = f.body.isShip)
    (h : ((∀ f ∈ o.outstanding, f.body.isShip = true) ∨ ∀ f ∈ o.outstanding, f.body.isShip = false)) :
    (∀ f ∈ o.outstanding.map g, f.body.isShip = true) ∨ ∀ f ∈ o.outstanding.map g, f.body.isShip = false := by
  rcases h with k | k
  · refine Or.inl (fun f hf => ?_)
    obtain ⟨x, hx, rfl⟩ := List.mem_map.1 hf
    rw [hg]; exact k x hx
  · refine Or.inr (fun f hf => ?_)
    obtain ⟨x, hx, rfl⟩ := List.mem_map.1 hf
    rw [hg]; exact k x hx
theorem sound_withdrawFetch {s : State} (h : FetchHolder) (hb : s.sound) : (State.withdrawFetch s h).sound := by
  unfold State.withdrawFetch
  refine sound_withdrawAsk _ (sound_modOff _ (fun hy => ⟨?_, ?_, hy.2.2⟩) hb)
  · rw [List.length_map]; exact hy.1
  · refine mapFrames _ (fun f => ?_) hy.2.1
    split
    · rename_i hf
      simp [FrameBody.isShip, hf]
    · rfl

theorem sound_clearShed {s : State} (hb : s.sound) : (State.clearShed s).sound := by
  unfold State.clearShed
  repeat' first
    | with_reducible assumption
    | ((with_reducible refine sound_modOff _ ?_ ?_); (first | exact fun h => h | exact fun h => ⟨h.1, h.2.1, by simpa [length_mapIf] using h.2.2⟩ | exact fun h => ⟨h.1, h.2.1, Nat.le_trans (List.length_filter_le ..) h.2.2⟩))

theorem sound_settleLink {s : State} (hb : s.sound) : (State.settleLink s).sound := by
  unfold State.settleLink
  repeat' first
    | with_reducible assumption
    | with_reducible apply sound_clearShed
    | with_reducible apply sound_markRest
    | with_reducible apply sound_redirect
    | with_reducible apply sound_serveRoom

theorem sound_progress {s : State} (hb : s.sound) : (State.progress s).sound := by
  unfold State.progress
  repeat' first
    | with_reducible assumption
    | ((with_reducible refine sound_modOff _ ?_ ?_); (first | exact fun h => h | exact fun h => ⟨h.1, h.2.1, by simpa [length_mapIf] using h.2.2⟩ | exact fun h => ⟨h.1, h.2.1, Nat.le_trans (List.length_filter_le ..) h.2.2⟩))



theorem sound_joinList {s : State} (f : OutFrame) (hl : s.off.outstanding.length < Config.outstandingSize)
    (hc : ∀ g ∈ s.off.outstanding, g.body.isShip = f.body.isShip) (hb : s.sound) : (s.joinList f).sound := by
  unfold State.joinList
  have h1 : (if s.off.outstanding.isEmpty then s.progress else s).sound := by
    split
    · exact sound_progress hb
    · exact hb
  have h2 : (if s.off.outstanding.isEmpty then s.progress else s).off.outstanding = s.off.outstanding := by
    split <;> rfl
  refine sound_modOff _ (fun h => ⟨?_, ?_, h.2.2⟩) h1
  · rw [h2, List.length_append]
    exact hl
  · rw [h2]
    have h3 : ∀ g ∈ s.off.outstanding ++ [f], g.body.isShip = f.body.isShip := by
      intro g hg
      rcases List.mem_append.1 hg with hg | hg
      · exact hc g hg
      · rw [List.mem_singleton] at hg
        rw [hg]
    cases hf : f.body.isShip with
    | true => exact Or.inl (fun g hg => (h3 g hg).trans hf)
    | false => exact Or.inr (fun g hg => (h3 g hg).trans hf)

theorem allShip {s : State} (h : s.fetchesOut = 0) : ∀ g ∈ s.off.outstanding, g.body.isShip = true := by
  intro g hg
  unfold State.fetchesOut at h
  rw [List.length_eq_zero_iff, List.filter_eq_nil_iff] at h
  simpa using h g hg

theorem shipMay_room {s : State} (h : s.shipMay = true) :
    s.off.outstanding.length < Config.outstandingSize ∧ ∀ g ∈ s.off.outstanding, g.body.isShip = true := by
  unfold State.shipMay at h
  simp only [Bool.and_eq_true, decide_eq_true_eq] at h
  exact ⟨h.2, allShip h.1.2⟩

theorem sound_joinShip {s : State} (b : FrameBody) (vacant : Bool) (hl : s.off.outstanding.length < Config.outstandingSize)
    (hc : ∀ g ∈ s.off.outstanding, g.body.isShip = true) (hs : b.isShip = true) (hb : s.sound) :
    (s.joinShip b vacant).sound := by
  unfold State.joinShip
  refine sound_modOff _ (fun h => h) (sound_joinList _ hl (fun g hg => ?_) hb)
  exact (hc g hg).trans hs.symm

theorem sound_sendControl {s : State} (c : Control) (hl : s.off.outstanding.length < Config.outstandingSize)
    (hc : ∀ g ∈ s.off.outstanding, g.body.isShip = true) (hb : s.sound) : (s.sendControl c).sound := by
  unfold State.sendControl
  exact sound_joinShip (s := s.send _) _ _ hl hc rfl (sound_send _ hb)

theorem sound_sendHead {s : State} (hb : s.sound) : (State.sendHead s).sound := by
  unfold State.sendHead
  split
  · exact hb
  · split
    · rename_i h
      simp only [Bool.and_eq_true] at h
      have hr := shipMay_room h.1
      exact sound_sendControl (s := s.modOff _) _ hr.1 hr.2 (sound_modOff _ (fun h => h) hb)
    · exact hb

theorem sound_cancelRun {s : State} (n : Nat) (hb : s.sound) : (State.cancelRun s n).sound := by
  unfold State.cancelRun
  repeat' first
    | with_reducible assumption
    | with_reducible apply sound_freeAllOf
    | with_reducible apply sound_leavePlaces
    | with_reducible apply sound_withdrawAsk
    | ((with_reducible refine sound_modOff _ ?_ ?_); (first | exact fun h => h | exact fun h => ⟨h.1, h.2.1, by simpa [length_mapIf] using h.2.2⟩ | exact fun h => ⟨h.1, h.2.1, Nat.le_trans (List.length_filter_le ..) h.2.2⟩))

theorem sound_cancelRuns {s : State} (p : ShipPull → Bool) (hb : s.sound) : (State.cancelRuns s p).sound := by
  unfold State.cancelRuns
  repeat' first
    | with_reducible assumption
    | with_reducible apply sound_cancelRun
    | with_reducible refine sound_foldl _ _ (fun _ _ _ => ?_) ?_

theorem sound_freeEntrySlots {s : State} (es : List ShipEntry) (hb : s.sound) : (State.freeEntrySlots s es).sound := by
  unfold State.freeEntrySlots
  repeat' first
    | with_reducible assumption
    | with_reducible refine sound_foldl _ _ (fun _ _ _ => ?_) ?_
    | with_reducible apply sound_freeSlot

theorem sound_damageEntries {s : State} (vol ext birth : Nat) (p : ShipEntry → Bool) (hb : s.sound) :
    (State.damageEntries s vol ext birth p).sound := by
  unfold State.damageEntries
  dsimp only
  split
  · exact hb
  · split
    · refine sound_modPlan _ _ (sound_modOff _ (fun h => ⟨h.1, h.2.1, ?_⟩) (sound_freeEntrySlots _ hb))
      rw [length_mapIf]
      exact Nat.le_trans (List.length_filter_le ..) h.2.2
    · refine sound_modPlan _ _ (sound_modOff _ (fun h => ⟨h.1, h.2.1, ?_⟩) (sound_freeEntrySlots _ hb))
      rw [length_mapIf]
      refine Nat.le_trans (List.length_filter_le ..) ?_
      rw [length_mapIf]
      exact h.2.2

theorem sound_shipLost {s : State} (vol ext birth : Nat) (hb : s.sound) : (State.shipLost s vol ext birth).sound := by
  unfold State.shipLost
  exact sound_damageEntries _ _ _ _ (sound_cancelRuns _ hb)

theorem sound_shipReact {s : State} (vol ext birth : Nat) (st : RepairState) (hb : s.sound) : (State.shipReact s vol ext birth st).sound := by
  unfold State.shipReact
  repeat' first
    | with_reducible assumption
    | with_reducible apply sound_shipLost
    | split
    | ((with_reducible refine sound_modOff _ ?_ ?_); (first | exact fun h => h | exact fun h => ⟨h.1, h.2.1, by simpa [length_mapIf] using h.2.2⟩ | exact fun h => ⟨h.1, h.2.1, Nat.le_trans (List.length_filter_le ..) h.2.2⟩))

theorem sound_restoreReact {s : State} (vol ext birth : Nat) (st : RepairState) (hb : s.sound) : (State.restoreReact s vol ext birth st).sound := by
  unfold State.restoreReact
  repeat' first
    | with_reducible assumption
    | split
    | with_reducible refine sound_foldl _ _ (fun _ _ _ => ?_) ?_
    | ((with_reducible refine sound_modLink _ _ ?_ ?_); first | exact fun _ hr => hr | exact fun _ hr => Nat.le_trans (List.length_filter_le ..) hr | exact fun _ hr => by (repeat' split) <;> exact hr)

theorem sound_setRepair {s : State} (vol ext birth loc : Nat) (st : RepairState) (hb : s.sound) : (State.setRepair s vol ext birth loc st).sound := by
  unfold State.setRepair
  repeat' first
    | with_reducible assumption
    | with_reducible apply sound_restoreReact
    | with_reducible apply sound_shipReact
    | with_reducible apply sound_writeRepair
    | split

theorem sound_shedEntries {s : State} (vol : Nat) (hb : s.sound) : (State.shedEntries s vol).sound := by
  unfold State.shedEntries
  repeat' first
    | with_reducible assumption
    | with_reducible apply sound_cancelRuns
    | ((with_reducible refine sound_modOff _ ?_ ?_); (first | exact fun h => h | exact fun h => ⟨h.1, h.2.1, by simpa [length_mapIf] using h.2.2⟩ | exact fun h => ⟨h.1, h.2.1, Nat.le_trans (List.length_filter_le ..) h.2.2⟩))

theorem sound_dropShipPins {s : State} (vol : Nat) (hb : s.sound) : (State.dropShipPins s vol).sound := by
  unfold State.dropShipPins
  repeat' first
    | with_reducible assumption
    | with_reducible apply sound_dropPin
    | with_reducible apply sound_modPlan
    | split

theorem sound_failVolume {s : State} (vol : Nat) (hb : s.sound) : (State.failVolume s vol).sound := by
  unfold State.failVolume
  repeat' first
    | with_reducible assumption
    | with_reducible apply sound_dropShipPins
    | with_reducible apply sound_modPlan
    | with_reducible apply sound_shedEntries
    | split
    | ((with_reducible refine sound_modOff _ ?_ ?_); (first | exact fun h => h | exact fun h => ⟨h.1, h.2.1, by simpa [length_mapIf] using h.2.2⟩ | exact fun h => ⟨h.1, h.2.1, Nat.le_trans (List.length_filter_le ..) h.2.2⟩))

theorem sound_pendDrop {s : State} (vol gen : Nat) (hb : s.sound) : (State.pendDrop s vol gen).sound := by
  unfold State.pendDrop
  repeat' first
    | with_reducible assumption
    | with_reducible apply sound_askOpening
    | ((with_reducible refine sound_modOff _ ?_ ?_); (first | exact fun h => h | exact fun h => ⟨h.1, h.2.1, by simpa [length_mapIf] using h.2.2⟩ | exact fun h => ⟨h.1, h.2.1, Nat.le_trans (List.length_filter_le ..) h.2.2⟩))

theorem sound_leaveItem {s : State} (n : Nat) (hb : s.sound) : (State.leaveItem s n).sound := by
  unfold State.leaveItem
  repeat' first
    | with_reducible assumption
    | with_reducible apply sound_freeAllOf
    | with_reducible apply sound_leavePlaces
    | with_reducible apply sound_withdrawAsk
    | ((with_reducible refine sound_modPat _ ?_ ?_); exact fun h => h)

theorem sound_addFold {s : State} (w : WorkItem) (hb : s.sound) : (State.addFold s w).sound := by
  unfold State.addFold
  refine sound_modPat _ (fun h => ?_) hb
  split <;> exact h

theorem sound_issueItem {s : State} (w : WorkItem) (hb : s.sound) : (State.issueItem s w).sound := by
  unfold State.issueItem
  repeat' first
    | with_reducible assumption
    | with_reducible apply sound_modItem
    | ((with_reducible refine sound_askSlots _ _ ?_ ?_); first | exact fun _ => Nat.le_refl 1 | exact fun hc => nomatch hc)

theorem sound_loseItem {s : State} (w : WorkItem) (hb : s.sound) : (State.loseItem s w).sound := by
  unfold State.loseItem
  repeat' first
    | with_reducible assumption
    | with_reducible apply sound_leaveItem
    | split
    | ((with_reducible refine sound_modPat _ ?_ ?_); exact fun h => h)

theorem sound_decideItem {s : State} (n : Nat) (hb : s.sound) : (State.decideItem s n).sound := by
  unfold State.decideItem
  repeat' first
    | with_reducible assumption
    | with_reducible apply sound_addFold
    | with_reducible apply sound_busy
    | with_reducible apply sound_issueItem
    | with_reducible apply sound_leaveItem
    | with_reducible apply sound_loseItem
    | with_reducible apply sound_modItem
    | split

theorem sound_modChunk {s : State} (n idx : Nat) (f : RepairChunk → RepairChunk) (hb : s.sound) : (State.modChunk s n idx f).sound := by
  unfold State.modChunk
  repeat' first
    | with_reducible assumption
    | with_reducible apply sound_modRepair

theorem sound_leaveRepairPlaces {s : State} (n : Nat) (hb : s.sound) : (State.leaveRepairPlaces s n).sound := by
  unfold State.leaveRepairPlaces
  repeat' first
    | with_reducible assumption
    | with_reducible apply sound_leavePlaces
    | with_reducible refine sound_foldl _ _ (fun _ _ _ => ?_) ?_

theorem sound_chunkOffsite {s : State} (n idx : Nat) (hb : s.sound) : (State.chunkOffsite s n idx).sound := by
  unfold State.chunkOffsite
  repeat' first
    | with_reducible assumption
    | with_reducible apply sound_askRoom
    | with_reducible apply sound_leavePlaces
    | with_reducible apply sound_modChunk
    | split

theorem sound_startChunk {s : State} (n : Nat) (idx : Nat) (hb : s.sound) : (State.startChunk s n idx).sound := by
  unfold State.startChunk
  repeat' first
    | with_reducible assumption
    | with_reducible apply sound_chunkOffsite
    | split

theorem sound_loseRepair {s : State} (n : Nat) (hb : s.sound) : (State.loseRepair s n).sound := by
  unfold State.loseRepair
  repeat' first
    | with_reducible assumption
    | with_reducible apply sound_freeHolder
    | with_reducible apply sound_leaveRepairPlaces
    | with_reducible apply sound_modRepair
    | with_reducible apply sound_setRepair
    | with_reducible apply sound_withdrawFetch
    | split

theorem sound_startWhole {s : State} (n : Nat) (hb : s.sound) : (State.startWhole s n).sound := by
  unfold State.startWhole
  try dsimp only
  repeat' first
    | with_reducible assumption
    | with_reducible apply sound_askRoom
    | with_reducible apply sound_freeHolder
    | with_reducible apply sound_leaveRepairPlaces
    | with_reducible apply sound_loseRepair
    | with_reducible apply sound_modRepair
    | with_reducible apply sound_withdrawFetch
    | split

theorem sound_putRepair {s : State} (n : Nat) (r : Repair) (hb : s.sound) :
    (s.modPat fun p => { p with repairs := tput p.repairs n r }).sound :=
  sound_modPat _ (fun h => wf_tput _ _ h) hb
theorem sound_openRepair {s : State} (n : Nat) (q : RepairReq) (hb : s.sound) : (State.openRepair s n q).sound := by
  unfold State.openRepair
  dsimp only
  split
  · exact sound_startWhole _ (sound_putRepair _ _ (sound_setRepair _ _ _ _ _ hb))
  · exact sound_foldl _ _ (fun _ _ h => sound_startChunk _ _ h) (sound_putRepair _ _ (sound_setRepair _ _ _ _ _ hb))

theorem sound_openWaiting (n : Nat) (qs : List RepairReq) {s : State} (hb : s.sound) : (State.openWaiting n qs s).sound := by
  induction qs generalizing s with
  | nil => exact sound_modPat _ (fun h => h) hb
  | cons q t ih =>
    unfold State.openWaiting
    split
    · exact sound_openRepair _ _ (sound_modPat _ (fun h => h) hb)
    · exact ih hb

theorem sound_closeRepair {s : State} (n : Nat) (hb : s.sound) : (State.closeRepair s n).sound := by
  unfold State.closeRepair
  exact sound_openWaiting _ _ (sound_modPat _ (fun h => wf_tdel _ h) (sound_leaveRepairPlaces _ (sound_freeAllOf _ hb)))

theorem sound_endRepair {s : State} (n : Nat) (r : Repair) (hb : s.sound) : (State.endRepair s n r).sound := by
  unfold State.endRepair
  repeat' first
    | with_reducible assumption
    | with_reducible apply sound_closeRepair
    | with_reducible apply sound_raise
    | with_reducible apply sound_setRepair
    | with_reducible apply sound_setVerified
    | split

theorem sound_checkRepair {s : State} (n : Nat) (hb : s.sound) : (State.checkRepair s n).sound := by
  unfold State.checkRepair
  repeat' first
    | with_reducible assumption
    | with_reducible apply sound_closeRepair
    | with_reducible apply sound_endRepair
    | with_reducible apply sound_startWhole
    | split

theorem sound_abandonRepair {s : State} (n : Nat) (hb : s.sound) : (State.abandonRepair s n).sound := by
  unfold State.abandonRepair
  repeat' first
    | with_reducible assumption
    | with_reducible apply sound_freeHolder
    | with_reducible apply sound_leaveRepairPlaces
    | with_reducible apply sound_modRepair
    | with_reducible apply sound_withdrawFetch

theorem sound_abandonIf {s : State} (p : Repair → Bool) (hb : s.sound) : (State.abandonIf s p).sound := by
  unfold State.abandonIf
  repeat' first
    | with_reducible assumption
    | with_reducible apply sound_abandonRepair
    | with_reducible refine sound_foldl _ _ (fun _ _ _ => ?_) ?_

theorem sound_addChunks {s : State} (n : Nat) (r : Repair) (q : RepairReq) (hb : s.sound) : (State.addChunks s n r q).sound := by
  unfold State.addChunks
  try dsimp only
  repeat' first
    | with_reducible assumption
    | with_reducible apply sound_leaveRepairPlaces
    | with_reducible apply sound_modRepair
    | with_reducible apply sound_startChunk
    | split
    | with_reducible refine sound_foldl _ _ (fun _ _ _ => ?_) ?_

theorem sound_requestRepair {s : State} (q : RepairReq) (hb : s.sound) : (State.requestRepair s q).sound := by
  unfold State.requestRepair
  try dsimp only
  repeat' first
    | with_reducible assumption
    | with_reducible apply sound_addChunks
    | with_reducible apply sound_checkRepair
    | with_reducible apply sound_openRepair
    | with_reducible apply sound_setRepair
    | with_reducible apply sound_shipLost
    | split
    | ((with_reducible refine sound_modPat _ ?_ ?_); exact fun h => h)

theorem sound_repairFetched {s : State} (n idx : Nat) (a : ChunkAnswer) (hb : s.sound) : (State.repairFetched s n idx a).sound := by
  unfold State.repairFetched
  try dsimp only
  repeat' first
    | with_reducible assumption
    | with_reducible apply sound_askRoom
    | with_reducible apply sound_leavePlaces
    | with_reducible apply sound_loseRepair
    | with_reducible apply sound_modChunk
    | split

theorem sound_fixEnded {s : State} (n idx : Nat) (ok : Bool) (hb : s.sound) : (State.fixEnded s n idx ok).sound := by
  unfold State.fixEnded
  repeat' first
    | with_reducible assumption
    | with_reducible apply sound_checkRepair
    | with_reducible apply sound_chunkOffsite
    | with_reducible apply sound_freeAllOf
    | with_reducible apply sound_loseRepair
    | with_reducible apply sound_modChunk
    | with_reducible apply sound_modRepair
    | split
    | with_reducible apply sound_freeSlotsIf

theorem sound_verifyEnded {s : State} (n : Nat) (cause : PullCause) (hb : s.sound) : (State.verifyEnded s n cause).sound := by
  unfold State.verifyEnded
  try dsimp only
  repeat' first
    | with_reducible assumption
    | with_reducible apply sound_freeAllOf
    | with_reducible apply sound_leaveItem
    | with_reducible apply sound_modItem
    | with_reducible apply sound_requestRepair
    | with_reducible apply sound_setRepair
    | with_reducible apply sound_setVerified
    | split

theorem sound_checkFold {s : State} (f : Fold) (hb : s.sound) : (State.checkFold s f).sound := by
  unfold State.checkFold
  repeat' first
    | with_reducible assumption
    | with_reducible apply sound_setVerified
    | split
    | ((with_reducible refine sound_modPat _ ?_ ?_); exact fun h => h)

theorem sound_endClearing {s : State} (hb : s.sound) : (State.endClearing s).sound := by
  unfold State.endClearing
  repeat' first
    | with_reducible assumption
    | with_reducible apply sound_leaveItem
    | split
    | with_reducible refine sound_foldl _ _ (fun _ _ _ => ?_) ?_
    | ((with_reducible refine sound_modPat _ ?_ ?_); exact fun h => h)

theorem sound_checkRepairs {s : State} (hb : s.sound) : (State.checkRepairs s).sound := by
  unfold State.checkRepairs
  repeat' first
    | with_reducible assumption
    | with_reducible apply sound_checkRepair
    | with_reducible refine sound_foldl _ _ (fun _ _ _ => ?_) ?_
    | with_reducible refine sound_iter _ _ (fun _ _ => ?_) ?_

theorem sound_settlePatrol {s : State} (hb : s.sound) : (State.settlePatrol s).sound := by
  unfold State.settlePatrol
  repeat' first
    | with_reducible assumption
    | with_reducible apply sound_abandonIf
    | with_reducible apply sound_checkFold
    | with_reducible apply sound_checkRepairs
    | with_reducible apply sound_decideItem
    | with_reducible apply sound_endClearing
    | with_reducible refine sound_foldl _ _ (fun _ _ _ => ?_) ?_

theorem sound_settle {s : State} (hb : s.sound) : (State.settle s).sound := by
  unfold State.settle
  repeat' first
    | with_reducible assumption
    | with_reducible apply sound_settleLink
    | with_reducible apply sound_settlePatrol

theorem sound_applyWindow {s : State} (hb : s.sound) : (State.applyWindow s).sound := by
  unfold State.applyWindow
  repeat' first
    | with_reducible assumption
    | ((with_reducible refine sound_modSup _ ?_ ?_); exact fun h => h)

theorem wf_tputs {α : Type} (ps : Tbl α) {t : Tbl α} (h : t.wf = true) : Tbl.wf (ps.foldl (fun t kv => tput t kv.1 kv.2) t) = true := by
  induction ps generalizing t with
  | nil => exact h
  | cons p ps ih => exact ih (wf_tput _ _ h)
theorem sound_applyPending {s : State} (hb : s.sound) : (State.applyPending s).sound := by
  unfold State.applyPending
  exact sound_modSup _ (fun h => ⟨h.1, wf_tputs _ h.2.1, rfl⟩) (sound_applyWindow hb)

theorem sound_reckonClose {s : State} (hb : s.sound) : (State.reckonClose s).sound := by
  unfold State.reckonClose
  repeat' first
    | with_reducible assumption
    | ((with_reducible refine sound_modOff _ ?_ ?_); (first | exact fun h => h | exact fun h => ⟨h.1, h.2.1, by simpa [length_mapIf] using h.2.2⟩ | exact fun h => ⟨h.1, h.2.1, Nat.le_trans (List.length_filter_le ..) h.2.2⟩))

theorem sound_openWindow {s : State} (hb : s.sound) : (State.openWindow s).sound := by
  unfold State.openWindow
  repeat' first
    | with_reducible assumption
    | with_reducible apply sound_applyPending
    | with_reducible apply sound_askOpening
    | with_reducible apply sound_openDue
    | with_reducible apply sound_reckonClose
    | with_reducible refine sound_foldl _ _ (fun _ _ _ => ?_) ?_
    | ((with_reducible refine sound_modOff _ ?_ ?_); (first | exact fun h => h | exact fun h => ⟨h.1, h.2.1, by simpa [length_mapIf] using h.2.2⟩ | exact fun h => ⟨h.1, h.2.1, Nat.le_trans (List.length_filter_le ..) h.2.2⟩))

theorem sound_evaluateOpen {s : State} (hb : s.sound) : (State.evaluateOpen s).sound := by
  unfold State.evaluateOpen
  repeat' first
    | with_reducible assumption
    | with_reducible apply sound_openWindow
    | split

theorem sound_tryEndNight {s : State} (hb : s.sound) : (State.tryEndNight s).sound := by
  unfold State.tryEndNight
  split
  · extract_lets left s1 s2 s3 s4 s5
    have h1 : s1.sound := sound_modOff _ (fun h => h) hb
    have h2 : s2.sound := sound_foldl _ _ (fun _ _ h => sound_dropShipPins _ h) h1
    have h3 : s3.sound := sound_raise _ h2
    clear_value s3
    have h4 : s4.sound := sound_modOff (s := s3) _ (fun h => h) h3
    have h5 : s5.sound := sound_modPat (s := s4) _ (fun h => h) h4
    exact sound_evaluateOpen (sound_applyWindow h5)
  · exact hb

theorem sound_closeWindow {s : State} (hb : s.sound) : (State.closeWindow s).sound := by
  unfold State.closeWindow
  repeat' first
    | with_reducible assumption
    | with_reducible apply sound_cancelRuns
    | with_reducible apply sound_closeDue
    | with_reducible apply sound_freeFullShip
    | with_reducible apply sound_tryEndNight
    | split
    | with_reducible refine sound_foldl _ _ (fun _ _ _ => ?_) ?_
    | ((with_reducible refine sound_modOff _ ?_ ?_); (first | exact fun h => h | exact fun h => ⟨h.1, h.2.1, by simpa [length_mapIf] using h.2.2⟩ | exact fun h => ⟨h.1, h.2.1, Nat.le_trans (List.length_filter_le ..) h.2.2⟩))

theorem sound_evaluateWindow {s : State} (hb : s.sound) : (State.evaluateWindow s).sound := by
  unfold State.evaluateWindow
  repeat' first
    | with_reducible assumption
    | with_reducible apply sound_closeWindow
    | with_reducible apply sound_evaluateOpen
    | split

theorem sound_joinPlan {s : State} (vol t : Nat) (hb : s.sound) : (State.joinPlan s vol t).sound := by
  unfold State.joinPlan
  repeat' first
    | with_reducible assumption
    | with_reducible apply sound_takePin
    | split
    | ((with_reducible refine sound_modOff _ ?_ ?_); (first | exact fun h => h | exact fun h => ⟨h.1, h.2.1, by simpa [length_mapIf] using h.2.2⟩ | exact fun h => ⟨h.1, h.2.1, Nat.le_trans (List.length_filter_le ..) h.2.2⟩))
    | ((with_reducible refine sound_modVolume' _ _ ?_ ?_); exact fun _ => ⟨rfl, fun _ h => h⟩)

theorem sound_reportMissed {s : State} (vol : Nat) (hb : s.sound) : (State.reportMissed s vol).sound := by
  unfold State.reportMissed
  repeat' first
    | with_reducible assumption
    | split
    | ((with_reducible refine sound_modOff _ ?_ ?_); (first | exact fun h => h | exact fun h => ⟨h.1, h.2.1, by simpa [length_mapIf] using h.2.2⟩ | exact fun h => ⟨h.1, h.2.1, Nat.le_trans (List.length_filter_le ..) h.2.2⟩))

theorem sound_missDue {s : State} (vol : Nat) (hb : s.sound) : (State.missDue s vol).sound := by
  unfold State.missDue
  repeat' first
    | with_reducible assumption
    | with_reducible apply sound_closeDue
    | with_reducible apply sound_raise
    | with_reducible apply sound_reportMissed
    | split

theorem sound_missLate {s : State} (hb : s.sound) : (State.missLate s).sound := by
  unfold State.missLate
  repeat' first
    | with_reducible assumption
    | with_reducible apply sound_missDue
    | split
    | with_reducible refine sound_foldl _ _ (fun _ _ _ => ?_) ?_

theorem sound_countVisit {s : State} (vol : Nat) (hb : s.sound) : (State.countVisit s vol).sound := by
  unfold State.countVisit
  repeat' first
    | with_reducible assumption
    | with_reducible apply sound_failVolume
    | with_reducible apply sound_modPlan
    | split

theorem sound_reportParked {s : State} (vol ext : Nat) (es : List ShipEntry) (hb : s.sound) : (State.reportParked s vol ext es).sound := by
  unfold State.reportParked
  repeat' first
    | with_reducible assumption
    | with_reducible apply sound_requestRepair
    | split

theorem sound_shipVisit {s : State} (hb : s.sound) : (State.shipVisit s).sound := by
  unfold State.shipVisit
  split
  · exact hb
  · extract_lets ext e es n was s1 s2
    split
    · exact hb
    · split
      · exact sound_failVolume _ hb
      · split
        · exact hb
        · rename_i hl
          have h1 : s1.sound := by
            refine sound_modOff _ (fun h => ⟨h.1, h.2.1, ?_⟩) hb
            rw [List.length_append]
            omega
          clear_value s1
          have h2 : s2.sound := sound_modPlan _ _ h1
          exact sound_reportParked _ _ _ (sound_modVolume' _ _ (fun _ => ⟨rfl, fun _ h => h⟩) h2)

theorem sound_finishVolume {s : State} (hb : s.sound) : (State.finishVolume s).sound := by
  unfold State.finishVolume
  repeat' first
    | with_reducible assumption
    | with_reducible apply sound_modPlan
    | split
    | ((with_reducible refine sound_modOff _ ?_ ?_); (first | exact fun h => h | exact fun h => ⟨h.1, h.2.1, by simpa [length_mapIf] using h.2.2⟩ | exact fun h => ⟨h.1, h.2.1, Nat.le_trans (List.length_filter_le ..) h.2.2⟩))

theorem sound_shedScope {s : State} (sc : Nat) (hb : s.sound) : (State.shedScope s sc).sound := by
  unfold State.shedScope
  repeat' first
    | with_reducible assumption
    | with_reducible apply sound_dropShipPins
    | with_reducible apply sound_modPlan
    | with_reducible apply sound_shedEntries
    | with_reducible refine sound_foldl _ _ (fun _ _ _ => ?_) ?_
    | ((with_reducible refine sound_modOff _ ?_ ?_); (first | exact fun h => h | exact fun h => ⟨h.1, h.2.1, by simpa [length_mapIf] using h.2.2⟩ | exact fun h => ⟨h.1, h.2.1, Nat.le_trans (List.length_filter_le ..) h.2.2⟩))

theorem sound_shedOnce {s : State} (hb : s.sound) : (State.shedOnce s).sound := by
  unfold State.shedOnce
  repeat' first
    | with_reducible assumption
    | with_reducible apply sound_raise
    | with_reducible apply sound_shedScope
    | split

theorem sound_endInterval {s : State} (hb : s.sound) : (State.endInterval s).sound := by
  unfold State.endInterval
  split
  · extract_lets shipping s1 s2 s3
    have h3 : s3.sound := by
      unfold s3
      split
      · have h1 : s1.sound := sound_modOff _ (fun h => h) hb
        clear_value s1
        split
        · have h2 : s2.sound := sound_iter _ _ (fun _ h => sound_shedOnce h) h1
          clear_value s2
          exact sound_modOff _ (fun h => h) h2
        · exact h1
      · exact hb
    clear_value s3
    exact sound_modOff _ (fun h => h) h3
  · exact hb

theorem sound_modActive {s : State} (person : Nat) (f : Nat → Nat) (hb : s.sound) : (State.modActive s person f).sound := by
  unfold State.modActive
  repeat' first
    | with_reducible assumption
    | ((with_reducible refine sound_modPrin' _ _ ?_ ?_); exact fun _ h => h)

theorem sound_askRelease {s : State} (person blocks : Nat) (hb : s.sound) : (State.askRelease s person blocks).sound := by
  unfold State.askRelease
  repeat' first
    | with_reducible assumption
    | with_reducible apply sound_pushOp
    | split

theorem sound_raiseEnd {s : State} (rec : Nat) (hb : s.sound) : (State.raiseEnd s rec).sound := by
  unfold State.raiseEnd
  repeat' first
    | with_reducible assumption
    | with_reducible apply sound_raise
    | split

theorem sound_unlockStep {s : State} (rec i : Nat) (hb : s.sound) : (State.unlockStep s rec i).sound := by
  unfold State.unlockStep
  repeat' first
    | with_reducible assumption
    | with_reducible apply sound_unlock
    | split

theorem sound_dropRestorePin {s : State} (rec : Nat) (hb : s.sound) : (State.dropRestorePin s rec).sound := by
  unfold State.dropRestorePin
  repeat' first
    | with_reducible assumption
    | with_reducible apply sound_dropPin
    | with_reducible apply sound_modRestore
    | split

theorem sound_unlockSteps {s : State} (rec : Nat) (is : List Nat) (hb : s.sound) : (State.unlockSteps s rec is).sound := by
  unfold State.unlockSteps
  repeat' first
    | with_reducible assumption
    | with_reducible apply sound_unlockStep
    | with_reducible refine sound_foldl _ _ (fun _ _ _ => ?_) ?_

theorem sound_dropStep {s : State} (rec i : Nat) (hb : s.sound) : (State.dropStep s rec i).sound := by
  unfold State.dropStep
  repeat' first
    | with_reducible assumption
    | with_reducible apply sound_freeHolder
    | with_reducible apply sound_leavePlaces
    | with_reducible apply sound_withdrawFetch

theorem sound_finishAs {s : State} (rec : Nat) (st : RestoreState) (cause : Option FailCause) (failed : Option (Nat × StepReason)) (hb : s.sound) : (State.finishAs s rec st cause failed).sound := by
  unfold State.finishAs
  repeat' first
    | with_reducible assumption
    | with_reducible apply sound_modRestore
    | ((with_reducible refine sound_modRst _ ?_ ?_); exact fun h => h)

theorem sound_releaseBlocks {s : State} (rec blocks : Nat) (hb : s.sound) : (State.releaseBlocks s rec blocks).sound := by
  unfold State.releaseBlocks
  repeat' first
    | with_reducible assumption
    | with_reducible apply sound_askRelease
    | with_reducible apply sound_modRestore
    | split

theorem sound_settlePin {s : State} (rec : Nat) (hb : s.sound) : (State.settlePin s rec).sound := by
  unfold State.settlePin
  repeat' first
    | with_reducible assumption
    | with_reducible apply sound_dropRestorePin
    | split

theorem sound_becomeCancelled {s : State} (rec : Nat) (hb : s.sound) : (State.becomeCancelled s rec).sound := by
  unfold State.becomeCancelled
  repeat' first
    | with_reducible assumption
    | with_reducible apply sound_dropRestorePin
    | with_reducible apply sound_finishAs
    | with_reducible apply sound_modActive
    | with_reducible apply sound_raiseEnd
    | with_reducible apply sound_releaseBlocks
    | split

theorem sound_afterStep {s : State} (rec : Nat) (hb : s.sound) : (State.afterStep s rec).sound := by
  unfold State.afterStep
  repeat' first
    | with_reducible assumption
    | with_reducible apply sound_becomeCancelled
    | with_reducible apply sound_dropRestorePin
    | with_reducible apply sound_finishAs
    | with_reducible apply sound_modActive
    | with_reducible apply sound_modRestore
    | with_reducible apply sound_raiseEnd
    | with_reducible apply sound_settlePin
    | split

theorem sound_failStep {s : State} (rec i : Nat) (why : StepReason) (hb : s.sound) : (State.failStep s rec i why).sound := by
  unfold State.failStep
  repeat' first
    | with_reducible assumption
    | with_reducible apply sound_dropStep
    | with_reducible apply sound_finishAs
    | with_reducible apply sound_modActive
    | with_reducible apply sound_modStep
    | with_reducible apply sound_raiseEnd
    | with_reducible apply sound_releaseBlocks
    | with_reducible apply sound_settlePin
    | with_reducible apply sound_unlockStep
    | split
    | with_reducible refine sound_foldl _ _ (fun _ _ _ => ?_) ?_

theorem sound_stepConverted {s : State} (rec i : Nat) (hb : s.sound) : (State.stepConverted s rec i).sound := by
  unfold State.stepConverted
  repeat' first
    | with_reducible assumption
    | with_reducible apply sound_afterStep
    | with_reducible apply sound_modRestore
    | with_reducible apply sound_modStep
    | with_reducible apply sound_unlockStep
    | split

theorem sound_releaseConversions {s : State} (rec : Nat) (hb : s.sound) : (State.releaseConversions s rec).sound := by
  unfold State.releaseConversions
  repeat' first
    | with_reducible assumption
    | ((try simp only [sound_mk]); (with_reducible refine sound_chTally ?_ ?_); first | exact fun h => h | exact fun h => ⟨wf_tmap _ h.1, h.2⟩)

theorem tmap_eq_map {α : Type} (f : Nat → α → α) (t : Tbl α) : tmap f t = t.map fun kv => (kv.1, f kv.1 kv.2) := rfl
theorem sound_mapSlots {s : State} (f : Nat → Slot → Slot) (hf : ∀ n x, (f n x).cls = x.cls) (hb : s.sound) :
    ({ s with str.slots := tmap f s.str.slots } : State).sound := by
  simp only [sound_mk]
  exact sound_chStr (fun hy => Stream.sound_map _ (fun _ _ => rfl) (fun kv _ => hf kv.1 kv.2) hy) hb
theorem sound_orphanSlots {s : State} (l : Link) (rec : Nat) (d : Directive) (hb : s.sound) : (State.orphanSlots s l rec d).sound := by
  unfold State.orphanSlots
  split
  · split
    · exact sound_mapSlots _ (fun n x => by split <;> rfl) hb
    · exact hb
  · exact hb

theorem sound_orphanSteps {s : State} (rec : Nat) (hb : s.sound) : (State.orphanSteps s rec).sound := by
  unfold State.orphanSteps
  refine sound_foldl _ _ (fun s l h => sound_modLink _ _ (fun r hr => ?_) (sound_foldl _ _ (fun _ _ h => sound_orphanSlots _ _ _ h) h)) hb
  unfold LinkRec.sound at hr ⊢
  rw [List.length_map]
  exact hr

theorem sound_failInFlight {s : State} (rec : Nat) (why : StepReason) (hb : s.sound) : (State.failInFlight s rec why).sound := by
  unfold State.failInFlight
  repeat' first
    | with_reducible assumption
    | with_reducible apply sound_dropStep
    | with_reducible apply sound_modStep
    | with_reducible apply sound_orphanSteps
    | with_reducible apply sound_releaseConversions
    | split
    | with_reducible refine sound_foldl _ _ (fun _ _ _ => ?_) ?_

theorem sound_unlockAll {s : State} (rec : Nat) (hb : s.sound) : (State.unlockAll s rec).sound := by
  unfold State.unlockAll
  repeat' first
    | with_reducible assumption
    | with_reducible apply sound_unlockSteps
    | split

theorem sound_powerFail {s : State} (rec : Nat) (hb : s.sound) : (State.powerFail s rec).sound := by
  unfold State.powerFail
  repeat' first
    | with_reducible assumption
    | with_reducible apply sound_dropRestorePin
    | with_reducible apply sound_failInFlight
    | with_reducible apply sound_finishAs
    | with_reducible apply sound_modActive
    | with_reducible apply sound_raiseEnd
    | with_reducible apply sound_releaseBlocks
    | with_reducible apply sound_settlePin
    | with_reducible apply sound_unlockAll
    | with_reducible apply sound_unlockSteps
    | split

theorem sound_storeFail {s : State} (rec : Nat) (readable : Bool) (hb : s.sound) : (State.storeFail s rec readable).sound := by
  unfold State.storeFail
  repeat' first
    | with_reducible assumption
    | with_reducible apply sound_dropRestorePin
    | with_reducible apply sound_failInFlight
    | with_reducible apply sound_finishAs
    | with_reducible apply sound_modActive
    | with_reducible apply sound_modRestore
    | with_reducible apply sound_raise
    | with_reducible apply sound_raiseEnd
    | with_reducible apply sound_releaseBlocks
    | with_reducible apply sound_unlockAll
    | split

theorem sound_refuseAcceptance {s : State} (a : Acceptance) (hb : s.sound) : (State.refuseAcceptance s a).sound := by
  unfold State.refuseAcceptance
  repeat' first
    | with_reducible assumption
    | with_reducible apply sound_dropPin
    | with_reducible apply sound_unlock
    | with_reducible refine sound_foldl _ _ (fun _ _ _ => ?_) ?_
    | ((try simp only [sound_mk]); (with_reducible refine sound_chRst ?_ ?_); first | exact fun h => h | exact fun h => wf_tmod _ _ h)

theorem sound_putRecord {s : State} (rec : Nat) (r : Restore) (f : RestoreEngine → RestoreEngine)
    (hf : (f s.rst).table = tput s.rst.table rec r) (hb : s.sound) : (s.modRst f).sound :=
  sound_modRst _ (fun h => by unfold RestoreEngine.sound; rw [hf]; exact wf_tput _ _ h) hb
theorem sound_writeRecord {s : State} (a : Acceptance) (hb : s.sound) : (State.writeRecord s a).sound := by
  unfold State.writeRecord
  split
  · exact sound_reply _ _ _ _ (sound_refuseAcceptance _ hb)
  · extract_lets b r s1 s2 s3 kinds s4
    have h1 : s1.sound := sound_putRecord _ _ _ rfl hb
    clear_value s1
    have h4 : s4.sound := sound_reply _ _ _ _ (sound_modActive _ _ (sound_unlockSteps _ _ h1))
    clear_value s4
    split
    · exact sound_powerFail _ h4
    · exact h4

theorem sound_reserved {s : State} (o : Admission) (hb : s.sound) : (State.reserved s o).sound := by
  unfold State.reserved
  repeat' first
    | with_reducible assumption
    | with_reducible apply sound_refuseAcceptance
    | with_reducible apply sound_reply
    | with_reducible apply sound_writeRecord
    | split

theorem sound_underflow {s : State} (person blocks : Nat) (link : Link) (hb : s.sound) : (State.underflow s person blocks link).sound := by
  unfold State.underflow
  repeat' first
    | with_reducible assumption
    | with_reducible apply sound_raise
    | split

theorem sound_jobNotices {s : State} (j : Job) (hb : s.sound) : (s.jobNotices j).sound := by
  cases j <;> simp only [State.jobNotices] <;> (try split) <;>
    first | with_reducible exact hb | with_reducible exact sound_underflow _ _ _ hb

theorem sound_writeEdit {s : State} (id : Nat) (c : EditChanges) (hb : s.sound) : (State.writeEdit s id c).sound := by
  unfold State.writeEdit
  repeat' first
    | with_reducible assumption
    | ((with_reducible refine sound_modPrin' _ _ ?_ ?_); exact fun _ h => h)

theorem sound_modMembers {s : State} (pool : Nat) (f : Nat → Nat) (hb : s.sound) : (State.modMembers s pool f).sound := by
  unfold State.modMembers
  repeat' first
    | with_reducible assumption
    | ((with_reducible refine sound_modPrin' _ _ ?_ ?_); exact fun _ h => h)

theorem sound_moveCounts {s : State} (p : Principal) (id : Nat) (c : EditChanges) (hb : s.sound) : (State.moveCounts s p id c).sound := by
  unfold State.moveCounts
  repeat' first
    | with_reducible assumption
    | with_reducible apply sound_memberUnsettled
    | with_reducible apply sound_modMembers
    | split
    | with_reducible refine sound_foldl _ _ (fun _ _ _ => ?_) ?_
    | ((with_reducible refine sound_modPrin' _ _ ?_ ?_); exact fun _ h => h)

theorem sound_deletePrincipal {s : State} (id : Nat) (hb : s.sound) : (State.deletePrincipal s id).sound := by
  unfold State.deletePrincipal
  split
  · exact hb
  · exact sound_dropPrincipal _ (sound_leaveGraceQueue _ (sound_foldl _ _ (fun _ _ h => sound_modMembers _ _ h) hb))

theorem sound_regatherIf {s : State} (again : TallyOp → Bool) (hb : s.sound) : (s.regatherIf again).sound := sound_regatherIf' _ hb

theorem sound_regather {s : State} (id : Nat) (hb : s.sound) : (State.regather s id).sound := sound_regatherIf' _ hb

theorem sound_recompute {s : State} (id : Nat) (hb : s.sound) : (State.recompute s id).sound := sound_regatherIf' _ hb

theorem sound_jobRecords {s : State} (j : Job) (hb : s.sound) : (State.jobRecords s j).sound := by
  unfold State.jobRecords
  split
  · split
    · exact sound_foldl _ _ (fun _ _ h => sound_modPrin' _ _ (fun _ hm => hm) h) hb
    · exact hb
  · split
    · dsimp only
      split
      · exact sound_regather _ (sound_writeEdit _ _ (sound_moveCounts _ _ _ hb))
      · exact sound_writeEdit _ _ (sound_moveCounts _ _ _ hb)
    · exact hb
  · exact sound_regather _ (sound_deletePrincipal _ hb)
  · exact hb

theorem sound_jobApplied {s : State} (o : TallyOp) (hb : s.sound) : (State.jobApplied s o).sound := by
  unfold State.jobApplied
  split
  · split
    · exact sound_reserved _ hb
    · exact hb
  · exact sound_stepConverted _ _ hb
  · simp only [sound_mk]
    refine sound_chTally (fun hy => ⟨hy.1, ?_, hy.2.2⟩) hb
    rw [List.length_drop]
    exact Nat.le_trans (Nat.sub_le ..) hy.2.1
  · exact hb

theorem sound_completeOp {s : State} (num : Nat) (hb : s.sound) : (State.completeOp s num).sound := by
  unfold State.completeOp
  repeat' first
    | with_reducible assumption
    | with_reducible apply sound_dropOp
    | with_reducible apply sound_modOp
    | with_reducible apply sound_reply
    | split

/-- What the marker of a changed record rests on is as it was. -/
structure Alike (s t : State) : Prop where
  mode : t.inPlaceMode = s.inPlaceMode
  current : ∀ id, t.current id = s.current id
  marked : ∀ id, s.tally.marked id → t.tally.marked id
  line : ∀ id x, t.line id = some x → ∃ y, s.line id = some y ∧ y.filling = x.filling ∧ y.dirty = x.dirty
theorem Alike.refl (s : State) : Alike s s := ⟨rfl, fun _ => rfl, fun _ h => h, fun _ x h => ⟨x, h, rfl, rfl⟩⟩
theorem Alike.trans {s t u : State} (h : Alike s t) (k : Alike t u) : Alike s u :=
  ⟨k.mode.trans h.mode, fun id => (k.current id).trans (h.current id), fun id m => k.marked id (h.marked id m), fun id x hx => by
    obtain ⟨y, hy, h1, h2⟩ := k.line id x hx
    obtain ⟨z, hz, h3, h4⟩ := h.line id y hy
    exact ⟨z, hz, h3.trans h1, h4.trans h2⟩⟩
theorem Alike.covered {s t : State} (h : Alike s t) {o : Option Nat} {c : TallyChange} (hc : s.covered o c) : t.covered o c := by
  rcases hc with hc | hc | hc | hc | hc
  · exact Or.inl (h.mode.trans hc)
  · exact Or.inr (Or.inl hc)
  · refine Or.inr (Or.inr (Or.inl ?_))
    unfold State.isNoChange at hc ⊢
    rw [h.current]; exact hc
  · exact Or.inr (Or.inr (Or.inr (Or.inl (h.marked _ hc))))
  · refine Or.inr (Or.inr (Or.inr (Or.inr (fun x hx => ?_))))
    obtain ⟨y, hy, h1, h2⟩ := h.line _ x hx
    rw [← h1, ← h2]
    exact hc y hy
theorem alike_foldl {α : Type} (f : State → α → State) (hf : ∀ s a, Alike s (f s a)) (xs : List α) (s : State) :
    Alike s (xs.foldl f s) := by
  induction xs generalizing s with
  | nil => exact Alike.refl s
  | cons x xs ih => exact (hf s x).trans (ih _)
theorem alike_of {s t : State} (h1 : t.tally = s.tally) (h2 : t.sup.op = s.sup.op) (h3 : t.sup.settings = s.sup.settings) : Alike s t := by
  refine ⟨by simp [State.inPlaceMode, h2, h3], fun id => ?_, fun id m => by rw [h1]; exact m, fun id x hx => ⟨x, ?_, rfl, rfl⟩⟩
  · simp [State.current, State.stored, State.line, State.castoutOf, State.prin, h1]
  · simpa [State.line, h1] using hx
theorem alike_prins {s t : State} (h1 : t.tally.cache = s.tally.cache) (h2 : t.tally.castout = s.tally.castout)
    (h3 : t.tally.writes = s.tally.writes) (h4 : t.sup = s.sup)
    (h5 : ∀ id, (t.prin id).map (fun p => (p.used, p.reserved)) = (s.prin id).map (fun p => (p.used, p.reserved)))
    (h6 : ∀ id, s.tally.marked id → t.tally.marked id) : Alike s t := by
  refine ⟨by simp [State.inPlaceMode, h4], fun id => ?_, h6, fun id x hx => ⟨x, ?_, rfl, rfl⟩⟩
  · have h := h5 id
    simp only [State.current, State.stored, State.line, State.castoutOf, h1, h2, h3]
    cases hs : s.prin id with
    | none => cases ht : t.prin id <;> simp_all
    | some p => cases ht : t.prin id <;> simp_all
  · simpa [State.line, h1] using hx
theorem alike_modPrin (s : State) (id : Nat) (f : Principal → Principal)
    (hf : ∀ p, (f p).used = p.used ∧ (f p).reserved = p.reserved ∧ (f p).marker = p.marker) : Alike s (s.modPrin id f) := by
  refine alike_prins rfl rfl rfl rfl (fun j => ?_) (fun j hj => ?_)
  · simp only [State.modPrin, State.prin, tget_tmod]
    split
    · cases tget s.tally.principals j <;> simp [hf]
    · rfl
  · obtain ⟨p, hp, hm⟩ := hj
    unfold Tally.marked
    simp only [State.modPrin, tget_tmod]
    split
    · exact ⟨f p, by simp [hp], (hf p).2.2.trans hm⟩
    · exact ⟨p, hp, hm⟩
theorem alike_writeMarkers (s : State) (ids : List Nat) : Alike s (s.writeMarkers ids) := by
  refine alike_prins rfl rfl rfl rfl (fun j => ?_) (fun j hj => ?_)
  · simp only [State.writeMarkers, State.prin, tget_tmap]
    cases tget s.tally.principals j with
    | none => rfl
    | some p => simp only [Option.map_some]; split <;> rfl
  · obtain ⟨p, hp, hm⟩ := hj
    unfold Tally.marked
    simp only [State.writeMarkers, tget_tmap, hp, Option.map_some]
    exact ⟨_, rfl, by split <;> simp [hm]⟩
theorem find_mapIf {xs : List Line} (p : Line → Bool) (f : Line → Line) (hf : ∀ x, (f x).id = x.id) (j : Nat) :
    (mapIf p f xs).find? (fun x => x.id == j) = (xs.find? fun x => x.id == j).map fun x => if p x then f x else x := by
  induction xs with
  | nil => rfl
  | cons x t ih =>
    have h1 : mapIf p f (x :: t) = (if p x then f x else x) :: mapIf p f t := rfl
    have h2 : (if p x = true then f x else x).id = x.id := by split <;> simp [hf]
    rw [h1]
    simp only [List.find?_cons, h2]
    split
    · rfl
    · exact ih
theorem alike_regatherIf (s : State) (again : TallyOp → Bool) : Alike s (s.regatherIf again) := by
  have hl : ∀ j, (s.regatherIf again).line j = (s.line j).map fun x =>
      if (s.tally.ops.any fun o => again o && decide (x.held = some o.num)) then { x with held := none } else x := by
    intro j
    exact find_mapIf (fun x => s.tally.ops.any fun o => again o && decide (x.held = some o.num)) (fun x => { x with held := none }) (fun _ => rfl) j
  refine ⟨rfl, fun j => ?_, fun _ h => h, fun j x hx => ?_⟩
  · have h2 : (s.regatherIf again).stored j = s.stored j := rfl
    have h3 : (s.regatherIf again).castoutOf j = s.castoutOf j := rfl
    simp only [State.current, hl, h2, h3]
    cases s.line j with
    | none => rfl
    | some x => simp only [Option.map_some]; split <;> rfl
  · rw [hl] at hx
    cases hy : s.line j with
    | none => rw [hy] at hx; cases hx
    | some y =>
      rw [hy] at hx
      simp only [Option.map_some, Option.some.injEq] at hx
      refine ⟨y, rfl, ?_⟩
      rw [← hx]
      split <;> exact ⟨rfl, rfl⟩
theorem queueTo_kept (b : NoticeBody) (n : Notice) (ls : List Link) (s : State) :
    (State.queueTo b n ls s).tally = s.tally ∧ (State.queueTo b n ls s).sup = s.sup := by
  induction ls generalizing s with
  | nil => exact ⟨rfl, rfl⟩
  | cons l ls ih =>
    unfold State.queueTo
    split
    · exact ih (s.modLink _ _)
    · exact ih s
theorem alike_raise (s : State) (b : NoticeBody) : Alike s (s.raise b) := by
  unfold State.raise
  have h := queueTo_kept b { clock := s.sup.clock, body := b } allLinks (s.modSup fun u =>
    { u with
      raised := modAt u.raised b.cls countUp
      startup := if u.op = .loading ∧ u.startup.length < Config.startupSize then u.startup ++ [{ clock := s.sup.clock, body := b }]
        else u.startup })
  exact alike_of h.1 (by rw [h.2]; rfl) (by rw [h.2]; rfl)
theorem alike_underflow (s : State) (p b : Nat) (l : Link) : Alike s (s.underflow p b l) := by
  unfold State.underflow
  split
  · exact alike_raise _ _
  · exact Alike.refl _
theorem alike_jobNotices (s : State) (j : Job) : Alike s (s.jobNotices j) := by
  unfold State.jobNotices
  split
  · exact alike_underflow _ _ _ _
  · exact alike_underflow _ _ _ _
  · split
    · exact alike_underflow _ _ _ _
    · exact Alike.refl _
  · exact Alike.refl _
theorem alike_memberUnsettled (s : State) (pool : Nat) : Alike s (s.memberUnsettled pool) := by
  unfold State.memberUnsettled
  exact (alike_modPrin s pool (fun p => { p with unsettledMembers := p.unsettledMembers + 1, unsettled := true }) (fun _ => ⟨rfl, rfl, rfl⟩)).trans
    (alike_prins rfl rfl rfl rfl (fun _ => rfl) (fun _ h => h))
theorem alike_moveCounts (s : State) (p : Principal) (id : Nat) (c : EditChanges) : Alike s (s.moveCounts p id c) := by
  unfold State.moveCounts
  refine (alike_foldl _ (fun t pool => ?_) _ _).trans (alike_foldl _ (fun t pool => ?_) _ _)
  · have h : Alike t (t.modMembers pool (· - 1)) := alike_modPrin _ _ _ (fun _ => ⟨rfl, rfl, rfl⟩)
    dsimp only
    split
    · exact h.trans (alike_modPrin _ _ _ (fun _ => ⟨rfl, rfl, rfl⟩))
    · exact h
  · have h : Alike t (t.modMembers pool (· + 1)) := alike_modPrin _ _ _ (fun _ => ⟨rfl, rfl, rfl⟩)
    dsimp only
    split
    · exact h.trans (alike_memberUnsettled _ _)
    · exact h
theorem covered_jobRecords {s : State} {o : TallyOp} {c : TallyChange} (hm : c ∈ s.changesOf o)
    {t : State} (ht : Alike s t) (hc : t.covered o.job.settled c) : (t.jobRecords o.job).covered o.job.settled c := by
  unfold State.jobRecords
  split
  · split
    · exact (alike_foldl (fun (s : State) pool => s.modPrin pool fun q => { q with unsettledMembers := q.unsettledMembers - 1 })
        (fun t pool => alike_modPrin _ _ _ (fun _ => ⟨rfl, rfl, rfl⟩)) _ _).covered hc
    · exact hc
  · split
    · dsimp only
      have h1 := fun (id : Nat) p e => (alike_moveCounts t p id e).trans (alike_modPrin _ id (fun p : Principal =>
        { p with cls := e.cls.getD p.cls, soft := newField e.soft p.soft, hard := newField e.hard p.hard, course := newField e.course p.course, dept := newField e.dept p.dept }) (fun _ => ⟨rfl, rfl, rfl⟩))
      split
      · exact ((h1 _ _ _).trans (alike_regatherIf _ _)).covered hc
      · exact (h1 _ _ _).covered hc
    · exact hc
  · rename_i hj
    rw [State.changesOf, hj] at hm
    cases hm
  · exact hc
theorem sound_applyOp {s : State} (num : Nat)
    (hc : ∀ o, s.op num = some o → ∀ c ∈ s.changesOf o, s.covered o.job.settled c) (hb : s.sound) : (State.applyOp s num).sound := by
  unfold State.applyOp
  split
  · exact hb
  · rename_i o ho
    extract_lets cs graceIds recountIds before s1 s2 writes noted src s3 s4 s5 s6 s7
    have h1 : s1.sound := sound_jobNotices _ hb
    have h2 : s2.sound := sound_applyChanges' _ _ _ (fun c hm => covered_jobRecords hm (alike_jobNotices _ _)
      ((alike_jobNotices _ _).covered (hc o ho c hm))) (sound_jobRecords _ h1)
    clear_value s2
    have h3 : s3.sound := by
      unfold s3
      simp only [sound_mk]
      exact sound_chTally (fun hy => hy) h2
    clear_value s3
    have h5 : s5.sound := sound_foldl _ _ (fun _ _ h => sound_beginRecount _ h) (sound_evalGraceAll _ h3)
    clear_value s5
    exact sound_completeOp _ (sound_jobApplied _ (sound_releaseLines _ _ (sound_modOp _ _ h5)))

theorem covered_of_marks {s : State} {o : Option Nat} {cs : List TallyChange} {c : TallyChange} (hm : c ∈ cs)
    (h : c.id ∉ s.marksFor o cs) : s.covered o c := by
  unfold State.marksFor at h
  split at h
  · rename_i hi
    exact Or.inl hi
  · by_cases h1 : o = some c.id
    · exact Or.inr (Or.inl h1)
    · by_cases h2 : s.isNoChange c = true
      · exact Or.inr (Or.inr (Or.inl h2))
      · refine Or.inr (Or.inr (Or.inr (Or.inr (fun x hx => ?_))))
        refine Or.inr (Decidable.byContradiction fun hd => h ?_)
        refine List.mem_map.2 ⟨c, List.mem_filter.2 ⟨hm, ?_⟩, rfl⟩
        simp [h1, h2, hx, hd]
theorem ops_lazyExpireEach (xs : List Nat) (s : State) : (s.lazyExpireAll xs).tally.ops = s.tally.ops := by
  unfold State.lazyExpireAll
  induction xs generalizing s with
  | nil => rfl
  | cons x xs ih =>
    rw [List.foldl_cons, ih]
    unfold State.lazyExpire State.expire
    split
    · split
      · rfl
      · split
        · unfold State.raise
          rw [(queueTo_kept _ _ _ _).1]
          rfl
        · rfl
    · rfl
theorem sound_runOp {s : State} (num : Nat) (hb : s.sound) : (State.runOp s num).sound := by
  unfold State.runOp
  split
  · exact hb
  · rename_i o ho
    extract_lets s1
    have h1 : s1.sound := sound_lazyExpireAll _ hb
    have ho' : s1.op num = some o := by
      unfold State.op at ho ⊢
      unfold s1
      rw [ops_lazyExpireEach, ho]
    split
    · rename_i he
      refine sound_applyOp _ (fun o' h' c hm => ?_) h1
      rw [ho'] at h'
      cases h'
      refine covered_of_marks hm ?_
      rw [List.isEmpty_iff] at he
      rw [he]
      exact List.not_mem_nil
    · exact sound_modOp _ _ h1

theorem sound_calculate {s : State} (num : Nat) (hb : s.sound) : (State.calculate s num).sound := by
  unfold State.calculate
  try dsimp only
  repeat' first
    | with_reducible assumption
    | with_reducible apply sound_completeOp
    | with_reducible apply sound_lazyExpireAll
    | with_reducible apply sound_modOp
    | with_reducible apply sound_releaseLines
    | with_reducible apply sound_reserved
    | with_reducible apply sound_runOp
    | split

theorem Alike.changesOf {s t : State} (h : Alike s t) (hp : ∀ id, (t.prin id).map (fun p => (p.course, p.dept)) = (s.prin id).map fun p => (p.course, p.dept))
    (o : TallyOp) : t.changesOf o = s.changesOf o := by
  unfold State.changesOf
  have hm : ∀ (p q : Principal) c id, q.course = p.course → q.dept = p.dept → t.moved q c id = s.moved p c id := by
    intro p q c id h1 h2
    funext pool
    have hl : q.leaves c = p.leaves c := by unfold Principal.leaves; rw [h1, h2]
    have hj : q.joins c = p.joins c := by unfold Principal.joins; rw [h1, h2]
    unfold State.moved
    simp only [hl, hj, h.current]
  split <;> try simp only [State.releasing, State.removable, h.current]
  · rename_i id c hj
    have := hp id
    cases hs : s.prin id with
    | none => cases ht : t.prin id <;> simp_all
    | some p =>
      cases ht : t.prin id with
      | none => simp_all
      | some q =>
        simp only [hs, ht, Option.map_some, Option.some.injEq, Prod.mk.injEq] at this
        simp only [hm p q c id this.1 this.2]
theorem sound_endMarking {s : State} (num : Nat) (hb : s.sound) : (State.endMarking s num).sound := by
  unfold State.endMarking
  split
  · exact hb
  · rename_i o ho
    split
    · refine sound_applyOp _ (fun o' h' c hm => ?_) (sound_writeMarkers _ hb)
      have he : o' = o := by
        have : s.op num = some o' := h'
        rw [ho] at this
        exact (Option.some.inj this).symm
      subst he
      have hal := alike_writeMarkers s (s.marksFor o'.job.settled (s.changesOf o'))
      rw [hal.changesOf (fun id => by
        simp only [State.writeMarkers, State.prin, tget_tmap]
        cases tget s.tally.principals id with
        | none => rfl
        | some p => simp only [Option.map_some]; split <;> rfl)] at hm
      by_cases hi : c.id ∈ s.marksFor o'.job.settled (s.changesOf o')
      · by_cases hx : (tget s.tally.principals c.id).isSome = true
        · obtain ⟨p, hp⟩ := Option.isSome_iff_exists.1 hx
          refine Or.inr (Or.inr (Or.inr (Or.inl ?_)))
          unfold Tally.marked
          simp only [State.writeMarkers, tget_tmap, hp, Option.map_some]
          exact ⟨_, rfl, by simp [hi]⟩
        · refine Or.inr (Or.inr (Or.inr (Or.inr (fun x hl => Or.inl ?_))))
          have hl' : s.line c.id = some x := hl
          have hk := line_find_id hl'
          have hs := (hb.2.2.1.2.2.2.2.1 x hk.2).2.2.2.1
          rw [hk.1] at hs
          by_contra hf
          exact hx (hs (by simpa using hf))
      · exact hal.covered (covered_of_marks hm hi)
    · exact hb

theorem sound_clearNote {s : State} (o : TallyOp) (hb : s.sound) : (State.clearNote s o).sound := by
  unfold State.clearNote
  repeat' first
    | with_reducible assumption
    | split
    | ((try simp only [sound_mk]); (with_reducible refine sound_chTally ?_ ?_); first | exact fun h => h | exact fun h => ⟨wf_tmap _ h.1, h.2⟩)

theorem sound_endInPlace {s : State} (id : Nat) (hb : s.sound) : (State.endInPlace s id).sound := by
  unfold State.endInPlace
  try dsimp only
  repeat' first
    | with_reducible assumption
    | with_reducible apply sound_clearNote
    | with_reducible apply sound_completeOp
    | with_reducible apply sound_modOp
    | split
    | with_reducible apply sound_endWrite

theorem sound_setFrozen {s : State} (id : Nat) (b : Bool) (hb : s.sound) : (State.setFrozen s id b).sound := by
  unfold State.setFrozen
  repeat' first
    | with_reducible assumption
    | ((with_reducible refine sound_modPrin' _ _ ?_ ?_); exact fun _ h => h)

theorem sound_advanceOp {s : State} (num : Nat) (hb : s.sound) : (State.advanceOp s num).sound := by
  unfold State.advanceOp
  try dsimp only
  repeat' first
    | with_reducible assumption
    | with_reducible apply sound_dropOp
    | with_reducible apply sound_gather
    | with_reducible apply sound_releaseLines
    | with_reducible apply sound_reply
    | with_reducible apply sound_runOp
    | split

theorem sound_advanceOps {s : State} (hb : s.sound) : (State.advanceOps s).sound := by
  unfold State.advanceOps
  repeat' first
    | with_reducible assumption
    | with_reducible apply sound_advanceOp
    | with_reducible refine sound_foldl _ _ (fun _ _ _ => ?_) ?_

theorem sound_endModeSwitch {s : State} (hb : s.sound) : (State.endModeSwitch s).sound := by
  unfold State.endModeSwitch
  repeat' first
    | with_reducible assumption
    | with_reducible apply sound_reply
    | split
    | with_reducible refine sound_foldl _ _ (fun _ _ _ => ?_) ?_
    | ((try simp only [sound_mk]); (with_reducible refine sound_chTally ?_ ?_); first | exact fun h => h | exact fun h => ⟨wf_tmap _ h.1, h.2⟩)

theorem sound_advance {s : State} (hb : s.sound) : (State.advance s).sound := by
  unfold State.advance
  repeat' first
    | with_reducible assumption
    | with_reducible apply sound_advanceOps
    | with_reducible apply sound_endModeSwitch
    | with_reducible apply sound_takePosting
    | split
    | with_reducible refine sound_iter _ _ (fun _ _ => ?_) ?_
    | with_reducible apply sound_castoutDirty

theorem sound_acceptRestore {s : State} (q : RestoreReq) (hb : s.sound) : (State.acceptRestore s q).sound := by
  unfold State.acceptRestore
  try dsimp only
  repeat' first
    | with_reducible assumption
    | with_reducible apply sound_dropPin
    | with_reducible apply sound_lockRange
    | with_reducible apply sound_pushOp
    | with_reducible apply sound_reply
    | with_reducible apply sound_takePin
    | split
    | ((with_reducible refine sound_modRst _ ?_ ?_); exact fun h => h)

theorem sound_startRestore {s : State} (hb : s.sound) : (State.startRestore s).sound := by
  unfold State.startRestore
  repeat' first
    | with_reducible assumption
    | with_reducible apply sound_afterStep
    | with_reducible apply sound_modRestore
    | split

theorem sound_issueFetch {s : State} (rec i : Nat) (r : Restore) (v : Version) (hb : s.sound) : (State.issueFetch s rec i r v).sound := by
  unfold State.issueFetch
  try dsimp only
  repeat' first
    | with_reducible assumption
    | with_reducible apply sound_modStep
    | with_reducible apply sound_placeFetch
    | split
    | ((with_reducible refine sound_modOff _ ?_ ?_); (first | exact fun h => h | exact fun h => ⟨h.1, h.2.1, by simpa [length_mapIf] using h.2.2⟩ | exact fun h => ⟨h.1, h.2.1, Nat.le_trans (List.length_filter_le ..) h.2.2⟩))

theorem sound_toFetchStep {s : State} (rec i : Nat) (r : Restore) (v : Version) (hb : s.sound) : (State.toFetchStep s rec i r v).sound := by
  unfold State.toFetchStep
  repeat' first
    | with_reducible assumption
    | with_reducible apply sound_issueFetch
    | with_reducible apply sound_leavePlaces
    | with_reducible apply sound_modStep

theorem incRef_link {s t : State} {vol ext loc : Nat} (h : s.incRef vol ext loc = .granted t) (l : Link) : t.link l = s.link l := by
  unfold State.incRef at h
  split at h
  · cases h
  · split at h
    · cases h; rfl
    · cases h
theorem sound_incRef {s t : State} (vol ext loc : Nat) (hb : s.sound) (h : s.incRef vol ext loc = .granted t) : t.sound := by
  unfold State.incRef at h
  split at h
  · cases h
  · split at h
    · cases h
      exact sound_modVolume' _ _ (fun _ => ⟨rfl, fun _ h => h⟩) (sound_refs _ _ _ _ hb)
    · cases h
theorem sound_takeUp {s : State} (rec i : Nat) (hb : s.sound) : (State.takeUp s rec i).sound := by
  unfold State.takeUp
  split
  · exact hb
  · extract_lets t
    split
    · exact sound_failStep _ _ _ hb
    · split
      · split
        · exact sound_issueFetch _ _ _ _ hb
        · split
          · split
            · exact sound_toFetchStep _ _ _ _ hb
            · exact sound_failStep _ _ _ hb
          · split
            · exact sound_waitPlace _ _ hb
            · rename_i hp
              extract_lets loc
              split
              · exact sound_failStep _ _ _ hb
              · exact sound_toFetchStep _ _ _ _ hb
              · rename_i u hu
                refine sound_handDirective _ _ _ _ _ _ ?_ (sound_modStep _ _ _ (sound_incRef _ _ _ hb hu))
                have := incRef_link hu
                show ((u.link _).directives).length < _
                rw [this]
                exact placeFree_room hp
      · exact sound_failStep _ _ _ hb

theorem sound_issuePut {s : State} (rec i : Nat) (hb : s.sound) : (State.issuePut s rec i).sound := by
  unfold State.issuePut
  split
  · exact hb
  · split
    · split
      · exact hb
      · split
        · exact sound_waitPlace _ _ hb
        · rename_i hp
          exact sound_setSlots _ _ (sound_handDirective _ _ _ _ _ _ (placeFree_room (s := s) hp) (sound_modStep _ _ _ hb))
    · exact hb

theorem sound_completeStep {s : State} (rec i loc : Nat) (hb : s.sound) : (State.completeStep s rec i loc).sound := by
  unfold State.completeStep
  split
  · exact hb
  · split
    · extract_lets tv te codes
      split
      · exact sound_failStep _ _ _ (sound_sendReclaim _ _ _ hb)
      · rename_i hc
        have h1 := sound_commit hc hb
        generalize s.commit tv te _ loc _ codes = ps at h1 ⊢
        obtain ⟨p, u⟩ := ps
        dsimp only at h1 ⊢
        refine sound_pushOp _ _ (sound_modStep _ _ _ ?_)
        have h2 : ∀ v o, (match v, o with
          | Verdict.now, some o => u.sendReclaim tv te o
          | _, _ => u).sound := by
          intro v o
          split
          · exact sound_sendReclaim _ _ _ h1
          · exact h1
        split
        · exact sound_abandonIf _ (h2 _ _)
        · exact h2 _ _
    · exact sound_failStep _ _ _ (sound_sendReclaim _ _ _ hb)

theorem sound_stepDirectiveFailed {s : State} (rec i : Nat) (why : DirFailure) (hb : s.sound) : (State.stepDirectiveFailed s rec i why).sound := by
  unfold State.stepDirectiveFailed
  try dsimp only
  repeat' first
    | with_reducible assumption
    | with_reducible apply sound_afterStep
    | with_reducible apply sound_askRoom
    | with_reducible apply sound_failStep
    | with_reducible apply sound_freeAllOf
    | with_reducible apply sound_modStep
    | split

theorem sound_stepFetched {s : State} (rec i : Nat) (idx : Option Nat) (a : ChunkAnswer) (hb : s.sound) : (State.stepFetched s rec i idx a).sound := by
  unfold State.stepFetched
  repeat' first
    | with_reducible assumption
    | with_reducible apply sound_askRoom
    | with_reducible apply sound_failStep
    | with_reducible apply sound_leavePlaces
    | with_reducible apply sound_modStep
    | split

theorem sound_cancelRestore {s : State} (rec : Nat) (hb : s.sound) : (State.cancelRestore s rec).2.sound := by
  have hg : ∀ (waits : List Nat), (waits.foldl (fun (s : State) i =>
      ((s.modStep rec i fun t => { t with again := false }).dropStep rec i).unlockStep rec i) s).sound :=
    fun waits => sound_foldl _ _ (fun s i h => sound_unlockStep _ _ (sound_dropStep _ _ (sound_modStep _ _ _ h))) hb
  unfold State.cancelRestore
  split
  · exact hb
  · dsimp only
    split <;> (try split) <;> first
      | with_reducible exact hb
      | with_reducible exact sound_becomeCancelled _ (hg _)
      | with_reducible exact sound_afterStep _ (sound_modRestore _ _ (hg _))

theorem sound_pauseRestores {s : State} (hb : s.sound) : (State.pauseRestores s).sound := by
  unfold State.pauseRestores
  repeat' first
    | with_reducible assumption
    | with_reducible apply sound_afterStep
    | with_reducible apply sound_leavePlaces
    | with_reducible apply sound_modRestore
    | split
    | with_reducible refine sound_foldl _ _ (fun _ _ _ => ?_) ?_
    | ((with_reducible refine sound_modOff _ ?_ ?_); (first | exact fun h => h | exact fun h => ⟨h.1, h.2.1, by simpa [length_mapIf] using h.2.2⟩ | exact fun h => ⟨h.1, h.2.1, Nat.le_trans (List.length_filter_le ..) h.2.2⟩))

theorem sound_resumeRestores {s : State} (hb : s.sound) : (State.resumeRestores s).sound := by
  unfold State.resumeRestores
  repeat' first
    | with_reducible assumption
    | with_reducible apply sound_afterStep
    | with_reducible apply sound_modRestore
    | split
    | with_reducible refine sound_foldl _ _ (fun _ _ _ => ?_) ?_

theorem sound_makeUnsettled {s : State} (id : Nat) (hb : s.sound) : (State.makeUnsettled s id).sound := by
  unfold State.makeUnsettled
  try dsimp only
  repeat' first
    | with_reducible assumption
    | with_reducible apply sound_beginRecount
    | with_reducible apply sound_memberUnsettled
    | split
    | with_reducible refine sound_foldl _ _ (fun _ _ _ => ?_) ?_
    | ((with_reducible refine sound_modPrin' _ _ ?_ ?_); exact fun _ h => h)
    | ((try simp only [sound_mk]); (with_reducible refine sound_chTally ?_ ?_); first | exact fun h => h | exact fun h => ⟨wf_tmap _ h.1, h.2⟩)

theorem sound_unsettlePools {s : State} (hb : s.sound) : (State.unsettlePools s).sound := by
  unfold State.unsettlePools
  repeat' first
    | with_reducible assumption
    | with_reducible apply sound_beginRecount
    | with_reducible apply sound_recompute
    | with_reducible refine sound_foldl _ _ (fun _ _ _ => ?_) ?_
    | ((with_reducible refine sound_modPrin' _ _ ?_ ?_); exact fun _ h => h)

theorem sound_endPrincipalError {s : State} (id : Nat) (changed : Bool) (hb : s.sound) : (State.endPrincipalError s id changed).sound := by
  unfold State.endPrincipalError
  repeat' first
    | with_reducible assumption
    | with_reducible apply sound_advance
    | with_reducible apply sound_evalGrace
    | with_reducible apply sound_makeUnsettled
    | with_reducible apply sound_raise
    | with_reducible apply sound_recompute
    | split
    | ((with_reducible refine sound_modPrin' _ _ ?_ ?_); exact fun _ h => h)

theorem mapIfFrames {o : Offsite} (p : OutFrame → Bool) (g : OutFrame → OutFrame) (hg : ∀ f, (g f).body.isShip = f.body.isShip) (h : o.sound) :
    Offsite.sound { o with outstanding := mapIf p g o.outstanding } := by
  refine ⟨by rw [length_mapIf]; exact h.1, ?_, h.2.2⟩
  exact mapFrames (o := o) (fun f => if p f then g f else f) (fun f => by split <;> simp [hg]) h.2.1
theorem sound_vacate {s : State} (n : Nat) (hb : s.sound) : (State.vacate s n).sound := by
  unfold State.vacate
  exact sound_modOff _ (fun h => mapIfFrames _ _ (fun _ => rfl) h) hb

theorem marker_loseDup (x : Nat) (f : DupField) (p : Principal) : (loseDup x f p).marker = p.marker := by cases f <;> rfl
theorem sound_meet {s : State} (e : StoreError) (hb : s.sound) : (State.meet s e).sound := by
  unfold State.meet
  split
  · exact sound_halt _ hb
  · exact sound_halt _ hb
  · exact sound_halt _ hb
  · exact hb
  · split
    · exact hb
    · exact sound_endPrincipalError _ _ (sound_storeClean _ _ _ hb)
  · split
    · exact hb
    · dsimp only
      refine sound_endPrincipalError _ _ ?_
      have h1 : ∀ (f : DupField) id, (if f = .grace then s.draw.2.leaveGraceQueue id else s.draw.2).sound := by
        intro f id
        split
        · exact sound_leaveGraceQueue _ (sound_draw hb)
        · exact sound_draw hb
      split
      · exact sound_unsettlePools (sound_modPrin' _ _ (fun p hp => (marker_loseDup _ _ p).trans hp) (h1 _ _))
      · exact sound_modPrin' _ _ (fun p hp => (marker_loseDup _ _ p).trans hp) (h1 _ _)
  · split
    · exact hb
    · refine sound_endPrincipalError _ _ (sound_modPrin_kept _ _ (fun hu p hp => ?_) hb)
      rename_i f _ _ _
      unfold State.loseLone
      split
      · exact hp
      · exact hu
      · exact hp
      · exact hp
      · exact hp
  · split
    · exact sound_halt _ hb
    · split
      · rename_i v hv
        split
        · rename_i hx
          exact sound_settlePatrol (sound_damageExtent _ _ _ v hv hx hb)
        · exact hb
      · exact hb
  · split
    · exact sound_halt _ hb
    · exact hb
  · exact hb
  · exact sound_settle (sound_advance (sound_storeFail _ _ hb))
  · exact sound_settle (sound_advance (sound_storeFail _ _ hb))
  · split
    · exact hb
    · split
      · exact hb
      · have hr := sound_raise (.storeError (.slot ‹_›)) hb
        dsimp only
        split
        · exact sound_handBack _ (sound_vacate _ hr)
        · exact sound_freeSlot _ hr
        · exact sound_stepFetched _ _ _ _ (sound_freeSlot _ hr)
        · exact sound_checkRepair _ (sound_repairFetched _ _ _ (sound_freeSlot _ hr))
        · exact hr

theorem sound_withErrs {s : State} (errs : List StoreError) (f : State → State) (hf : ∀ s, s.sound → (f s).sound)
    (hb : s.sound) : (withErrs errs f s).sound := by
  have h0 : (errs.foldl (fun s e => if s.sup.op = .halted then s else s.meet e) s).sound := by
    refine sound_foldl _ _ (fun s e h => ?_) hb
    split
    · exact h
    · exact sound_meet _ h
  unfold withErrs
  dsimp only
  split
  · exact h0
  · exact hf _ h0

theorem sound_request {s : State} (l : Link) (tag : Nat) (k : ReqKind) (taken consoleOnly : Bool)
    (errs : List StoreError) (body : Nat → State → State) (hf : ∀ q s, s.sound → (body q s).sound) (hb : s.sound) :
    (request l tag k taken consoleOnly errs body s).sound := by
  unfold request
  dsimp only
  refine sound_withErrs _ _ (fun u h0 => ?_) (sound_busy l (sound_arrive l hb))
  split
  · exact sound_replyAtOnce _ _ _ _ h0
  · split
    · exact sound_replyAtOnce _ _ _ _ h0
    · have h1 := sound_modLink l (fun r => { r with
          queue := r.queue ++ [{ num := u.sup.nextReq, tag := tag, kind := k, taken := taken, stale := false }] })
        (fun r hr => hr) (sound_modSup (s := u)
          (fun v => { v with nextReq := u.sup.nextReq + 1 }) (fun hs => hs) h0)
      split
      · exact sound_reply _ _ _ _ h1
      · exact sound_withErrs _ _ (hf _) h1

theorem sound_foldEqual {s : State} (p : ShipPull) (idx : Nat) (hb : s.sound) : (State.foldEqual s p idx).sound := by
  unfold State.foldEqual
  repeat' first
    | with_reducible assumption
    | ((with_reducible refine sound_modPat _ ?_ ?_); exact fun h => h)

theorem sound_reportMismatch {s : State} (p : ShipPull) (idx : Nat) (hb : s.sound) : (State.reportMismatch s p idx).sound := by
  unfold State.reportMismatch
  repeat' first
    | with_reducible assumption
    | with_reducible apply sound_requestRepair
    | ((with_reducible refine sound_modPat _ ?_ ?_); exact fun h => h)

theorem sound_withhold {s : State} (p : ShipPull) (e : ShipEntry) (hb : s.sound) : (State.withhold s p e).sound := by
  unfold State.withhold
  repeat' first
    | with_reducible assumption
    | with_reducible apply sound_cancelRuns
    | with_reducible apply sound_modEntry
    | with_reducible apply sound_reportMismatch
    | split
    | ((with_reducible refine sound_modOff _ ?_ ?_); (first | exact fun h => h | exact fun h => ⟨h.1, h.2.1, by simpa [length_mapIf] using h.2.2⟩ | exact fun h => ⟨h.1, h.2.1, Nat.le_trans (List.length_filter_le ..) h.2.2⟩))

theorem sound_shipEqual {s : State} (p : ShipPull) (e : ShipEntry) (n : Nat) (hb : s.sound) : (State.shipEqual s p e n).sound := by
  unfold State.shipEqual
  repeat' first
    | with_reducible assumption
    | with_reducible apply sound_makeFull
    | with_reducible apply sound_modEntry
    | with_reducible apply sound_takeBack
    | split
    | with_reducible apply sound_freeSlot

theorem sound_shipChunk {s : State} (num idx : Nat) (data : List Byte) (hb : s.sound) : (State.shipChunk s num idx data).sound := by
  unfold State.shipChunk
  try dsimp only
  repeat' first
    | with_reducible assumption
    | with_reducible apply sound_fill
    | with_reducible apply sound_foldEqual
    | with_reducible apply sound_shipEqual
    | with_reducible apply sound_withhold
    | split
    | with_reducible apply sound_freeSlot

theorem sound_mapKV {s : State} (f : Nat × Slot → Nat × Slot) (hf : ∀ kv, (f kv).1 = kv.1 ∧ (f kv).2.cls = kv.2.cls) (hb : s.sound) :
    ({ s with str.slots := s.str.slots.map f } : State).sound := by
  simp only [sound_mk]
  exact sound_chStr (fun hy => Stream.sound_map _ (fun kv _ => (hf kv).1) (fun kv _ => (hf kv).2) hy) hb
theorem sound_verifyChunk {s : State} (i idx : Nat) (data : List Byte) (hb : s.sound) : (State.verifyChunk s i idx data).sound := by
  unfold State.verifyChunk
  split
  · exact hb
  · split
    · exact hb
    · dsimp only
      exact sound_mapKV (s := s.modItem i _) _ (fun kv => by split <;> exact ⟨rfl, rfl⟩) (sound_modItem _ _ hb)

theorem sound_notReceived {s : State} (p : ShipPull) (cause : PullCause) (e : ShipEntry) (hb : s.sound) : (State.notReceived s p cause e).sound := by
  unfold State.notReceived
  repeat' first
    | with_reducible assumption
    | with_reducible apply sound_modEntry
    | with_reducible apply sound_withhold
    | split

theorem sound_pullEnded {s : State} (num : Nat) (cause : PullCause) (hb : s.sound) : (State.pullEnded s num cause).sound := by
  unfold State.pullEnded
  try dsimp only
  repeat' first
    | with_reducible assumption
    | with_reducible apply sound_damageEntries
    | with_reducible apply sound_freeEntrySlots
    | with_reducible apply sound_notReceived
    | split
    | with_reducible refine sound_foldl _ _ (fun _ _ _ => ?_) ?_
    | ((with_reducible refine sound_modOff _ ?_ ?_); (first | exact fun h => h | exact fun h => ⟨h.1, h.2.1, by simpa [length_mapIf] using h.2.2⟩ | exact fun h => ⟨h.1, h.2.1, Nat.le_trans (List.length_filter_le ..) h.2.2⟩))
    | with_reducible apply sound_freeSlotsIf

theorem sound_tellFailure {s : State} (who : Issuer) (cause : PullCause) (hb : s.sound) : (State.tellFailure s who cause).sound := by
  unfold State.tellFailure
  repeat' first
    | with_reducible assumption
    | with_reducible apply sound_fixEnded
    | with_reducible apply sound_pullEnded
    | with_reducible apply sound_stepDirectiveFailed
    | with_reducible apply sound_verifyEnded
    | split

theorem sound_failDirective {s : State} (l : Link) (d : Directive) (cause : PullCause) (hb : s.sound) : (State.failDirective s l d cause).sound := by
  unfold State.failDirective
  repeat' first
    | with_reducible assumption
    | with_reducible apply sound_decRefs
    | with_reducible apply sound_endDirective
    | with_reducible apply sound_freeAllOf
    | with_reducible apply sound_tellFailure

theorem sound_resetLink {s : State} (l : Link) (keepUp : Bool) (hb : s.sound) : (State.resetLink s l keepUp).sound := by
  unfold State.resetLink
  dsimp only
  have h0 := sound_unsendDues l (sound_modRst (fun e => { e with waiting := e.waiting.filter fun q => decide (q.link ≠ l) }) (fun h => h)
    (sound_modLink l (fun r => { r with idleFrom := (s.modLink l (·.reset keepUp)).sup.elapsed }) (fun _ hr => hr)
      (sound_modLink l (·.reset keepUp) (fun _ hr => hr) hb)))
  have h1 := sound_foldl
    (fun (s : State) (d : Directive) => s.failDirective l d .reset)
    (s.link l).directives (fun s d h => sound_failDirective l d _ h) h0
  split
  · exact sound_sendDues l h1
  · exact h1

theorem sound_finish {s : State} (hb : s.sound) : (State.finish s).sound := by
  unfold State.finish
  repeat' first
    | with_reducible assumption
    | with_reducible apply sound_advance
    | with_reducible apply sound_settle
    | split

theorem sound_countDiscard {s : State} (l : Link) (hb : s.sound) : (State.countDiscard s l).sound := by
  unfold State.countDiscard
  repeat' first
    | with_reducible assumption
    | ((with_reducible refine sound_modLink _ _ ?_ ?_); first | exact fun _ hr => hr | exact fun _ hr => Nat.le_trans (List.length_filter_le ..) hr | exact fun _ hr => by (repeat' split) <;> exact hr)

theorem sound_badFrame {s : State} (l : Link) (hb : s.sound) : (State.badFrame s l).sound := by
  unfold State.badFrame
  try dsimp only
  repeat' first
    | with_reducible assumption
    | with_reducible apply sound_countDiscard
    | with_reducible apply sound_resetLink
    | split
    | ((with_reducible refine sound_modLink _ _ ?_ ?_); first | exact fun _ hr => hr | exact fun _ hr => Nat.le_trans (List.length_filter_le ..) hr | exact fun _ hr => by (repeat' split) <;> exact hr)

theorem sound_recall {s : State} (l : Link) (d : Directive) (hb : s.sound) : (State.recall s l d).sound := by
  unfold State.recall
  extract_lets carried s1 s2 unsend src s3
  have h1 : s1.sound := sound_modLink _ _ (fun _ hr => hr) (sound_freeAllOf _ (sound_endDirective _ _ hb))
  clear_value s1
  have h2 : s2.sound := sound_decRefs _ h1
  clear_value s2
  have h3 : s3.sound := sound_mapKV (s := s2) _ (fun kv => by unfold unsend; split <;> exact ⟨rfl, rfl⟩) h2
  clear_value s3
  split
  · exact sound_modStep _ _ _ h3
  · exact sound_modRepair _ _ h3
  · exact h3

theorem sound_meetSlot {s : State} (e : StoreError) (hb : s.sound) : (State.meetSlot s e).sound := by
  unfold State.meetSlot
  try dsimp only
  repeat' first
    | with_reducible assumption
    | with_reducible apply sound_failStep
    | with_reducible apply sound_meet
    | with_reducible apply sound_recall
    | split

theorem sound_transmit {s : State} (l : Link) (hb : s.sound) : (State.transmit s l).sound := by
  unfold State.transmit
  repeat' first
    | with_reducible assumption
    | with_reducible apply sound_send
    | split
    | ((with_reducible refine sound_modLink _ _ ?_ ?_); first | exact fun _ hr => hr | exact fun _ hr => Nat.le_trans (List.length_filter_le ..) hr | exact fun _ hr => by (repeat' split) <;> exact hr)

theorem sound_transmitHalted {s : State} (l : Link) (hb : s.sound) : (State.transmitHalted s l).sound := by
  unfold State.transmitHalted
  repeat' first
    | with_reducible assumption
    | with_reducible apply sound_send
    | split
    | ((with_reducible refine sound_modLink _ _ ?_ ?_); first | exact fun _ hr => hr | exact fun _ hr => Nat.le_trans (List.length_filter_le ..) hr | exact fun _ hr => by (repeat' split) <;> exact hr)

theorem sound_deliverStartup {s : State} (l : Link) (classes : List Nat) (hb : s.sound) :
    (State.deliverStartup s l classes).sound := by
  unfold State.deliverStartup
  dsimp only
  refine sound_modLink l (fun r => { r with delivered := _ }) (fun _ hr => hr) (sound_foldl _ _ (fun s n h => ?_) hb)
  split
  · refine sound_modLink _ _ (fun r hr => ?_) h
    unfold LinkRec.queueNotice
    split <;> exact hr
  · exact h

theorem sound_proceed {s : State} (num : Nat) (hb : s.sound) : (State.proceed s num).sound := by
  unfold State.proceed
  repeat' first
    | with_reducible assumption
    | with_reducible apply sound_calculate
    | with_reducible apply sound_runOp
    | split

theorem sound_drain {s : State} (hb : s.sound) : (State.drain s).sound := by
  unfold State.drain
  repeat' first
    | with_reducible assumption
    | split
    | with_reducible apply sound_storeClean

theorem sound_endRecount {s : State} (pool : Nat) (hb : s.sound) : (State.endRecount s pool).sound := by
  unfold State.endRecount
  repeat' first
    | with_reducible assumption
    | with_reducible apply sound_evalGrace
    | with_reducible apply sound_lazyExpire
    | ((with_reducible refine sound_modPrin' _ _ ?_ ?_); exact fun _ h => h)
    | with_reducible apply sound_storeClean
    | ((try simp only [sound_mk]); (with_reducible refine sound_chTally ?_ ?_); first | exact fun h => h | exact fun h => ⟨wf_tmap _ h.1, h.2⟩)

theorem sound_stage {s : State} (l : Link) (r : Nat) (held : List Staged) (c : Staged) (hb : s.sound) : (State.stage s l r held c).sound := by
  unfold State.stage
  repeat' first
    | with_reducible assumption
    | with_reducible apply sound_reply
    | split
    | ((with_reducible refine sound_modLink _ _ ?_ ?_); first | exact fun _ hr => hr | exact fun _ hr => Nat.le_trans (List.length_filter_le ..) hr | exact fun _ hr => by (repeat' split) <;> exact hr)

theorem sound_abandonRewritten {s : State} (vol ext : Nat) (old : Option Version) (hb : s.sound) : (State.abandonRewritten s vol ext old).sound := by
  unfold State.abandonRewritten
  repeat' first
    | with_reducible assumption
    | with_reducible apply sound_abandonIf
    | split

theorem sound_dropExtents {s : State} (vol : Nat) (hb : s.sound) : (State.dropExtents s vol).sound := by
  have hk : ∀ key, tget (s.cat.extents.filter fun kv => decide (kv.1 / Config.maxExtents ≠ vol)) key =
      if key / Config.maxExtents ≠ vol then tget s.cat.extents key else none := by
    intro key
    split
    · rename_i h
      exact tget_filter_keep _ _ _ (fun _ => by simpa using h)
    · rename_i h
      exact tget_filter_drop _ _ _ (fun _ => by simpa using h)
  unfold State.dropExtents
  simp only [sound_mk]
  refine sound_chCat (fun hy => ⟨⟨hy.1.1, ?_, hy.1.2.2⟩, hy.2.1, hy.2.2.1, hy.2.2.2.1, fun key => ?_, fun v x hx hd => ?_⟩) hb
  · have h := hy.1.2.1
    unfold extentsWf at h ⊢
    simp only [Bool.and_eq_true] at h ⊢
    refine ⟨wf_filter _ h.1, ?_⟩
    rw [List.all_eq_true] at h ⊢
    exact fun kv hkv => h.2 kv (List.mem_of_mem_filter hkv)
  · dsimp only
    rw [hk]
    split
    · exact hy.2.2.2.2.1 key
    · exact Nat.zero_le _
  · dsimp only
    rw [hk]
    split
    · exact hy.2.2.2.2.2 v x hx hd
    · exact Nat.zero_le _

theorem sound_discardRepair {s : State} (n : Nat) (hb : s.sound) : (State.discardRepair s n).sound := by
  unfold State.discardRepair
  refine sound_closeRepair _ (sound_modOff _ (fun h => ⟨by rw [List.length_map]; exact h.1, mapFrames _ (fun f => ?_) h.2.1, h.2.2⟩) (sound_abandonRepair _ hb))
  split
  · rename_i hf
    split
    · simp [FrameBody.isShip, hf]
    · rfl
  · rfl

theorem sound_forgetVolume {s : State} (vol : Nat) (hb : s.sound) : (State.forgetVolume s vol).sound := by
  unfold State.forgetVolume
  repeat' first
    | with_reducible assumption
    | with_reducible apply sound_cancelRuns
    | with_reducible apply sound_discardRepair
    | with_reducible apply sound_freeEntrySlots
    | with_reducible apply sound_leaveItem
    | with_reducible refine sound_foldl _ _ (fun _ _ _ => ?_) ?_
    | ((with_reducible refine sound_modOff _ ?_ ?_); (first | exact fun h => h | exact fun h => ⟨h.1, h.2.1, by simpa [length_mapIf] using h.2.2⟩ | exact fun h => ⟨h.1, h.2.1, Nat.le_trans (List.length_filter_le ..) h.2.2⟩))
    | ((with_reducible refine sound_modPat _ ?_ ?_); exact fun h => h)

theorem sound_dropCursors {s : State} (vol : Nat) (hb : s.sound) : (State.dropCursors s vol).sound := by
  unfold State.dropCursors
  repeat' first
    | with_reducible assumption
    | with_reducible refine sound_foldl _ _ (fun _ _ _ => ?_) ?_
    | ((with_reducible refine sound_modLink _ _ ?_ ?_); first | exact fun _ hr => hr | exact fun _ hr => Nat.le_trans (List.length_filter_le ..) hr | exact fun _ hr => by (repeat' split) <;> exact hr)

theorem cat_dropCursors (s : State) (vol : Nat) : (s.dropCursors vol).cat = s.cat := by
  unfold State.dropCursors
  generalize allLinks = ls
  induction ls generalizing s with
  | nil => rfl
  | cons l ls ih => rw [List.foldl_cons, ih]; rfl
theorem sound_detach {s : State} (vol : Nat) (hb : s.sound) : (State.detach s vol).sound := by
  have h1 : (s.forgetVolume vol).sound := sound_forgetVolume _ hb
  have h2 := sound_dropCursors vol (sound_dropExtents vol h1)
  have hn : ∀ x, x < Config.maxExtents → tget (((s.forgetVolume vol).dropExtents vol).dropCursors vol).cat.extents (extentKey vol x) = none := by
    intro x hx
    rw [cat_dropCursors]
    refine tget_filter_drop _ _ _ (fun _ => ?_)
    have hk : extentKey vol x / Config.maxExtents = vol := by
      unfold extentKey
      rw [Nat.mul_comm, Nat.mul_add_div (by decide), Nat.div_eq_of_lt hx, Nat.add_zero]
    simp [hk]
  unfold State.detach
  extract_lets u
  replace h2 : u.sound := h2
  replace hn : ∀ x, x < Config.maxExtents → tget u.cat.extents (extentKey vol x) = none := hn
  clear_value u
  simp only [sound_mk]
  refine sound_chCat (fun hy => ⟨⟨wf_tdel _ hy.1.1, hy.1.2.1, wf_filter _ hy.1.2.2.1, wf_tdel _ hy.1.2.2.2⟩, ?_, hy.2.2.1,
    Nat.le_trans (List.length_filter_le ..) hy.2.2.2.1, hy.2.2.2.2.1, fun v x hx hd => ?_⟩) h2
  · exact fun kv hkv => hy.2.1 kv (List.mem_of_mem_filter hkv)
  · by_cases hv : vol = v
    · subst hv
      dsimp only
      rw [hn x hx]
      exact Nat.zero_le _
    · refine hy.2.2.2.2.2 v x hx (fun hd' => hd ?_)
      obtain ⟨h1, w, hw, h2⟩ := hd'
      exact ⟨h1, w, by simp [hv, hw], h2⟩

theorem sound_putSnapshot {s : State} (key : Nat) (p : Snapshot) (h : s.sound) :
    ({ s with cat.snapshots := tput s.cat.snapshots key p } : State).sound := by
  simp only [sound_mk]
  exact sound_chCat (fun hy => ⟨⟨hy.1.1, hy.1.2.1, wf_tput _ _ hy.1.2.2.1, hy.1.2.2.2⟩, hy.2⟩) h
theorem sound_cut {s : State} (vol gen : Nat) (k : SnapKind) (hb : s.sound) : (State.cut s vol gen k).sound := by
  unfold State.cut
  extract_lets src s1 s2 s3
  have h2 : s2.sound := sound_modVolume' _ _ (fun _ => ⟨rfl, fun _ h => h⟩) (sound_putSnapshot _ _ hb)
  clear_value s2
  have h3 : s3.sound := by
    unfold s3
    split
    · exact sound_closeDue _ _ h2
    · split
      · exact sound_joinPlan _ _ (sound_closeDue _ _ h2)
      · exact h2
    · exact h2
  exact sound_retain _ _ h3

theorem sound_waitSweep {s : State} (key : Nat) (hb : s.sound) : (State.waitSweep s key).sound := by
  unfold State.waitSweep
  repeat' first
    | with_reducible assumption
    | split
    | ((try simp only [sound_mk]); (with_reducible refine sound_chCat ?_ ?_); first | exact fun h => h)

theorem sound_leaveSweep {s : State} (key : Nat) (hb : s.sound) : (State.leaveSweep s key).sound := by
  unfold State.leaveSweep
  repeat' first
    | with_reducible assumption
    | ((try simp only [sound_mk]); (with_reducible refine sound_chCat ?_ ?_); first | exact fun h => h)

theorem sound_endExpiry {s : State} (vol gen : Nat) (hb : s.sound) : (State.endExpiry s vol gen).sound := by
  unfold State.endExpiry
  split
  · exact hb
  · split
    · exact sound_modSnapshot _ _ _ hb
    · simp only [sound_mk]
      exact sound_chCat (fun hy => ⟨⟨hy.1.1, hy.1.2.1, wf_tdel _ hy.1.2.2.1, hy.1.2.2.2⟩, hy.2⟩) hb

theorem sound_moveExpiry {s : State} (vol gen cursor count : Nat) (hb : s.sound) : (State.moveExpiry s vol gen cursor count).sound := by
  unfold State.moveExpiry
  repeat' first
    | with_reducible assumption
    | with_reducible apply sound_endExpiry
    | with_reducible apply sound_modSnapshot
    | split

theorem sound_take {s : State} (l : Link) (req : Nat) (hb : s.sound) : (State.take s l req).sound := by
  unfold State.take
  repeat' first
    | with_reducible assumption
    | ((with_reducible refine sound_modLink _ _ ?_ ?_); first | exact fun _ hr => hr | exact fun _ hr => Nat.le_trans (List.length_filter_le ..) hr | exact fun _ hr => by (repeat' split) <;> exact hr)

theorem sound_doneAnswer {s : State} (l : Link) (tag loc : Nat) (k : DirKind) (hb : s.sound) : (State.doneAnswer s l tag loc k).sound := by
  unfold State.doneAnswer
  repeat' first
    | with_reducible assumption
    | with_reducible apply sound_completeStep
    | with_reducible apply sound_decRefs
    | with_reducible apply sound_endDirective
    | with_reducible apply sound_freeAllOf
    | with_reducible apply sound_handNotice
    | split

theorem sound_failAnswer {s : State} (l : Link) (tag : Nat) (k : DirKind) (hb : s.sound) : (State.failAnswer s l tag k).sound := by
  unfold State.failAnswer
  repeat' first
    | with_reducible assumption
    | with_reducible apply sound_failDirective
    | split

theorem sound_transmitted {s : State} (seq : Nat) (hb : s.sound) : (State.transmitted s seq).sound := by
  unfold State.transmitted
  repeat' first
    | with_reducible assumption
    | split
    | ((with_reducible refine sound_modSlot' _ _ ?_ ?_); exact fun _ => rfl)
    | with_reducible apply sound_freeSlot

theorem sound_startRun {s : State} (hb : s.sound) : (State.startRun s).sound := by
  unfold State.startRun
  repeat' first
    | with_reducible assumption
    | split
    | ((with_reducible refine sound_modOff _ ?_ ?_); (first | exact fun h => h | exact fun h => ⟨h.1, h.2.1, by simpa [length_mapIf] using h.2.2⟩ | exact fun h => ⟨h.1, h.2.1, Nat.le_trans (List.length_filter_le ..) h.2.2⟩))
    | ((with_reducible refine sound_askSlots _ _ ?_ ?_); first | exact fun _ => Nat.le_refl 1 | exact fun hc => nomatch hc)

theorem sound_issuePull {s : State} (p : ShipPull) (l : Link) (hb : s.sound) : (State.issuePull s p l).sound := by
  unfold State.issuePull
  split
  · exact sound_waitPlace _ _ hb
  · rename_i hp
    split
    · exact sound_failVolume _ (sound_cancelRun _ hb)
    · exact sound_cancelRun _ hb
    · rename_i u hu
      refine sound_handDirective _ _ _ _ _ _ ?_ (sound_modOff _ (fun h => ⟨h.1, h.2.1, by rw [length_mapIf]; exact h.2.2⟩) (sound_incRef _ _ _ hb hu))
      show ((u.link _).directives).length < _
      rw [incRef_link hu]
      exact placeFree_room hp

theorem sound_placeChunk {s : State} (d : Directive) (idx : Nat) (data : List Byte) (hb : s.sound) : (State.placeChunk s d idx data).sound := by
  unfold State.placeChunk
  repeat' first
    | with_reducible assumption
    | with_reducible apply sound_shipChunk
    | with_reducible apply sound_verifyChunk
    | split

theorem sound_pullAnswer {s : State} (l : Link) (tag : Nat) (cause : PullCause) (hb : s.sound) : (State.pullAnswer s l tag cause).sound := by
  unfold State.pullAnswer
  repeat' first
    | with_reducible assumption
    | with_reducible apply sound_failDirective
    | split

theorem sound_sendSlot {s : State} (e : ShipEntry) (num : Nat) (hb : s.sound) : (State.sendSlot s e num).sound := by
  unfold State.sendSlot
  repeat' first
    | with_reducible assumption
    | split
    | ((with_reducible refine sound_modSlot' _ _ ?_ ?_); exact fun _ => rfl)

theorem sound_cutShort {s : State} (e : ShipEntry) (hb : s.sound) : (State.cutShort s e).sound := by
  unfold State.cutShort
  repeat' first
    | with_reducible assumption
    | with_reducible apply sound_meet
    | split

theorem sound_resend (errs : List StoreError) {s : State} (f : OutFrame) (hb : s.sound) : (State.resend errs s f).sound := by
  unfold State.resend
  repeat' first
    | with_reducible assumption
    | with_reducible apply sound_cutShort
    | with_reducible apply sound_send
    | split
    | ((with_reducible refine sound_modSlot' _ _ ?_ ?_); exact fun _ => rfl)

theorem sound_fillVacant {s : State} (f : OutFrame) (e : ShipEntry) (errs : List StoreError) (hb : s.sound) : (State.fillVacant s f e errs).sound := by
  unfold State.fillVacant
  split
  · exact sound_cutShort _ hb
  · extract_lets tb s1 s2
    have h1 : s1.sound := sound_send _ hb
    clear_value s1
    have h2 : s2.sound := sound_modOff _ (fun h => mapIfFrames _ _ (fun _ => rfl) h) h1
    exact sound_modEntry _ _ (sound_sendSlot _ _ h2)

theorem sound_shipEntry {s : State} (e : ShipEntry) (errs : List StoreError) (hm : s.shipMay = true) (hb : s.sound) : (State.shipEntry s e errs).sound := by
  have hr := shipMay_room hm
  unfold State.shipEntry
  extract_lets tb num body s1
  split
  · exact sound_cutShort _ (sound_joinShip _ _ hr.1 hr.2 rfl hb)
  · have h1 : s1.sound := sound_joinShip (s := s.send _) _ _ hr.1 hr.2 rfl (sound_send _ hb)
    exact sound_modEntry _ _ (sound_sendSlot _ _ h1)

theorem sound_shipNext {s : State} (errs : List StoreError) (hb : s.sound) : (State.shipNext s errs).sound := by
  unfold State.shipNext
  split
  · exact hb
  · split
    · exact sound_fillVacant _ _ _ hb
    · split
      · exact hb
      · rename_i h
        split
        · exact sound_shipEntry _ _ (by simpa using (not_or.1 h).1) hb
        · exact hb

theorem sound_abandonFrames {s : State} (hb : s.sound) : (State.abandonFrames s).sound := by
  unfold State.abandonFrames
  extract_lets fs s1 s2 s3 s4
  have h2 : s2.sound := sound_freeSlotsIf _ (sound_foldl _ _ (fun _ _ h => sound_giveBack _ h) hb)
  clear_value s2
  have h3 : s3.sound := by
    refine sound_modOff _ (fun h => ⟨Nat.le_trans (List.length_filter_le ..) h.1, Or.inr (fun f hf => ?_), h.2.2⟩) h2
    simpa using (List.mem_filter.1 hf).2
  clear_value s3
  have h4 : s4.sound := by
    unfold s4
    split
    · exact sound_closeLink h3
    · exact h3
  split
  · exact sound_askOpening h4
  · exact h4

theorem sound_downInStandby {s : State} (hb : s.sound) : (State.downInStandby s).sound := by
  unfold State.downInStandby
  repeat' first
    | with_reducible assumption
    | split
    | ((with_reducible refine sound_modOff _ ?_ ?_); (first | exact fun h => h | exact fun h => ⟨h.1, h.2.1, by simpa [length_mapIf] using h.2.2⟩ | exact fun h => ⟨h.1, h.2.1, Nat.le_trans (List.length_filter_le ..) h.2.2⟩))

theorem sound_openExpired {s : State} (opens : Nat) (hb : s.sound) : (State.openExpired s opens).sound := by
  unfold State.openExpired
  repeat' first
    | with_reducible assumption
    | with_reducible apply sound_fault
    | with_reducible apply sound_send
    | split
    | ((with_reducible refine sound_modOff _ ?_ ?_); (first | exact fun h => h | exact fun h => ⟨h.1, h.2.1, by simpa [length_mapIf] using h.2.2⟩ | exact fun h => ⟨h.1, h.2.1, Nat.le_trans (List.length_filter_le ..) h.2.2⟩))

theorem sound_listExpired {s : State} (errs : List StoreError) (hb : s.sound) : (State.listExpired s errs).sound := by
  unfold State.listExpired
  repeat' first
    | with_reducible assumption
    | with_reducible apply sound_closeLink
    | with_reducible apply sound_fault
    | with_reducible apply sound_giveBackAll
    | with_reducible apply sound_resend
    | split
    | with_reducible refine sound_foldl _ _ (fun _ _ _ => ?_) ?_
    | ((with_reducible refine sound_modOff _ ?_ ?_); (first | exact fun h => h | exact fun h => ⟨h.1, h.2.1, by simpa [length_mapIf] using h.2.2⟩ | exact fun h => ⟨h.1, h.2.1, Nat.le_trans (List.length_filter_le ..) h.2.2⟩))

/-- A list of frames that are those outstanding, or some of them, but for what is noted in them. -/
def Fewer (s : State) (fs : List OutFrame) : Prop :=
  fs.length ≤ s.off.outstanding.length ∧ ∀ f ∈ fs, ∃ g ∈ s.off.outstanding, g.body.isShip = f.body.isShip
theorem fewer_filter (s : State) (p : OutFrame → Bool) : Fewer s (s.off.outstanding.filter p) :=
  ⟨List.length_filter_le .., fun f hf => ⟨f, List.mem_of_mem_filter hf, rfl⟩⟩
theorem sound_setList {s : State} (fs : List OutFrame) (hf : Fewer s fs) (hb : s.sound) : (State.setList s fs).sound := by
  unfold State.setList
  refine sound_modOff _ (fun h => ⟨Nat.le_trans hf.1 h.1, ?_, h.2.2⟩) hb
  rcases h.2.1 with k | k
  · refine Or.inl (fun f hm => ?_)
    obtain ⟨g, hg, he⟩ := hf.2 f hm
    rw [← he]; exact k g hg
  · refine Or.inr (fun f hm => ?_)
    obtain ⟨g, hg, he⟩ := hf.2 f hm
    rw [← he]; exact k g hg

theorem sound_coverSlot {s : State} (e : ShipEntry) (hb : s.sound) : (State.coverSlot s e).sound := by
  unfold State.coverSlot
  repeat' first
    | with_reducible assumption
    | split
    | ((with_reducible refine sound_modSlot' _ _ ?_ ?_); exact fun _ => rfl)
    | with_reducible apply sound_freeSlot

theorem sound_ackEntry {s : State} (e : ShipEntry) (hb : s.sound) : (State.ackEntry s e).sound := by
  unfold State.ackEntry
  repeat' first
    | with_reducible assumption
    | with_reducible apply sound_coverSlot
    | with_reducible apply sound_modPlan
    | with_reducible apply sound_setShipped
    | split
    | ((with_reducible refine sound_modOff _ ?_ ?_); (first | exact fun h => h | exact fun h => ⟨h.1, h.2.1, by simpa [length_mapIf] using h.2.2⟩ | exact fun h => ⟨h.1, h.2.1, Nat.le_trans (List.length_filter_le ..) h.2.2⟩))

theorem sound_coverFrame {s : State} (f : OutFrame) (hb : s.sound) : (State.coverFrame s f).sound := by
  unfold State.coverFrame
  repeat' first
    | with_reducible assumption
    | with_reducible apply sound_ackEntry
    | split

theorem coveredBy_append {n : Nat} {fs cov rest : List OutFrame} (h : coveredBy n fs = some (cov, rest)) : fs = cov ++ rest := by
  induction fs generalizing cov rest with
  | nil => cases h
  | cons f t ih =>
    unfold coveredBy at h
    split at h
    · cases h; rfl
    · cases hc : coveredBy n t with
      | none => rw [hc] at h; cases h
      | some r =>
        rw [hc] at h
        cases h
        rw [List.cons_append, ← ih (cov := r.1) (rest := r.2) hc]
theorem isShip_remains {f g : OutFrame} (h : f.remains = some g) : f.body.isShip = g.body.isShip := by
  unfold OutFrame.remains at h
  split at h <;> cases h <;> rfl
theorem sound_ack {s : State} (n : Nat) (hb : s.sound) : (State.ack s n).sound := by
  unfold State.ack
  split
  · exact hb
  · rename_i cov rest hc
    have ha := coveredBy_append hc
    have h1 : (s.setList (cov.filterMap OutFrame.remains ++ rest)).sound := by
      refine sound_setList _ ⟨?_, fun f hf => ?_⟩ hb
      · rw [ha, List.length_append, List.length_append]
        exact Nat.add_le_add_right (List.length_filterMap_le ..) _
      · rw [ha]
        rcases List.mem_append.1 hf with hf | hf
        · obtain ⟨g, hg, he⟩ := List.mem_filterMap.1 hf
          exact ⟨g, List.mem_append_left _ hg, isShip_remains he⟩
        · exact ⟨f, List.mem_append_right _ hf, rfl⟩
    have h2 := sound_foldl State.coverFrame cov (fun _ _ h => sound_coverFrame _ h) h1
    dsimp only
    split
    · exact sound_progress h2
    · exact h2

theorem sound_answerControl {s : State} (p : Control → Bool) (hb : s.sound) : (State.answerControl s p).sound := by
  unfold State.answerControl
  repeat' first
    | with_reducible assumption
    | with_reducible apply sound_progress
    | split
    | ((with_reducible refine sound_modOff _ ?_ ?_); (first | exact fun h => h | exact fun h => ⟨h.1, h.2.1, by simpa [length_mapIf] using h.2.2⟩ | exact fun h => ⟨h.1, h.2.1, Nat.le_trans (List.length_filter_le ..) h.2.2⟩))
    | ((with_reducible refine sound_setList _ ?_ ?_); exact fewer_filter _ _)

theorem sound_completeVolume {s : State} (vol target : Nat) (hb : s.sound) : (State.completeVolume s vol target).sound := by
  unfold State.completeVolume
  repeat' first
    | with_reducible assumption
    | with_reducible apply sound_dropShipPins
    | with_reducible apply sound_modPlan
    | with_reducible apply sound_modSnapshot
    | split
    | ((with_reducible refine sound_modOff _ ?_ ?_); (first | exact fun h => h | exact fun h => ⟨h.1, h.2.1, by simpa [length_mapIf] using h.2.2⟩ | exact fun h => ⟨h.1, h.2.1, Nat.le_trans (List.length_filter_le ..) h.2.2⟩))
    | ((with_reducible refine sound_modVolume' _ _ ?_ ?_); exact fun _ => ⟨rfl, fun _ h => h⟩)

theorem sound_dropAcked {s : State} (vol gen : Nat) (hb : s.sound) : (State.dropAcked s vol gen).sound := by
  unfold State.dropAcked
  repeat' first
    | with_reducible assumption
    | with_reducible apply sound_modSnapshot
    | with_reducible apply sound_retain
    | split

theorem sound_withdrawFrame {s : State} (f : OutFrame) (reason : Nat) (hb : s.sound) : (State.withdrawFrame s f reason).sound := by
  unfold State.withdrawFrame
  extract_lets s1 s2
  have h1 : s1.sound := sound_raise _ hb
  clear_value s1
  have h2 : s2.sound := sound_modOff _ (fun h => h) (sound_setList _ (fewer_filter _ _) h1)
  clear_value s2
  split
  · exact sound_failVolume _ (sound_modOff _ (fun h => ⟨h.1, h.2.1, Nat.le_trans (List.length_filter_le ..) h.2.2⟩) (sound_freeEntrySlots _ h2))
  · exact sound_failVolume _ h2
  · exact sound_modOff _ (fun h => h) h2
  · exact h2

theorem sound_nak {s : State} (n reason : Nat) (errs : List StoreError) (hb : s.sound) : (State.nak s n reason errs).sound := by
  unfold State.nak
  split
  · exact hb
  · split
    · exact hb
    · split
      · exact sound_resend _ _ (sound_modOff _ (fun h => mapIfFrames _ _ (fun _ => rfl) h) hb)
      · exact sound_withdrawFrame _ _ hb

theorem sound_serveHead {s : State} (hb : s.sound) : (State.serveHead s).sound := by
  unfold State.serveHead
  split
  · exact hb
  · dsimp only
    split
    · refine sound_askSlots _ _ (fun hc => ?_) hb
      unfold FetchEntry.cls at hc
      split at hc <;> cases hc
    · exact hb

theorem sound_tellFetch {s : State} (e : FetchEntry) (a : ChunkAnswer) (hb : s.sound) : (State.tellFetch s e a).sound := by
  unfold State.tellFetch
  repeat' first
    | with_reducible assumption
    | with_reducible apply sound_checkRepair
    | with_reducible apply sound_repairFetched
    | with_reducible apply sound_stepFetched
    | split

theorem sound_answerFetch {s : State} (f : OutFrame) (hb : s.sound) : (State.answerFetch s f).sound := by
  unfold State.answerFetch
  repeat' first
    | with_reducible assumption
    | with_reducible apply sound_progress
    | ((with_reducible refine sound_setList _ ?_ ?_); exact fewer_filter _ _)

theorem sound_fetchChunk {s : State} (e : FetchEntry) (i : Nat) (data : List Byte) (hb : s.sound) : (State.fetchChunk s e i data).sound := by
  unfold State.fetchChunk
  repeat' first
    | with_reducible assumption
    | with_reducible apply sound_fill
    | with_reducible apply sound_makeFull
    | with_reducible apply sound_tellFetch
    | split
    | with_reducible apply sound_freeSlot

theorem sound_fetchNone {s : State} (e : FetchEntry) (hb : s.sound) : (State.fetchNone s e).sound := by
  unfold State.fetchNone
  repeat' first
    | with_reducible assumption
    | with_reducible apply sound_freeFilling
    | with_reducible apply sound_tellFetch

theorem sound_placeItem (vol ext : Nat) {s : State} (v : Version) (hb : s.sound) : (State.placeItem vol ext s v).sound := by
  unfold State.placeItem
  repeat' first
    | with_reducible assumption
    | with_reducible apply sound_decideItem
    | ((with_reducible refine sound_modPat _ ?_ ?_); exact fun h => h)

theorem sound_visitVersions {s : State} (vol ext : Nat) (hb : s.sound) : (State.visitVersions s vol ext).sound := by
  unfold State.visitVersions
  repeat' first
    | with_reducible assumption
    | with_reducible apply sound_placeItem
    | with_reducible apply sound_setVerified
    | with_reducible refine sound_foldl _ _ (fun _ _ _ => ?_) ?_

theorem sound_patrolVisit {s : State} (hb : s.sound) : (State.patrolVisit s).sound := by
  unfold State.patrolVisit
  try dsimp only
  repeat' first
    | with_reducible assumption
    | with_reducible apply sound_visitVersions
    | split
    | ((with_reducible refine sound_modPat _ ?_ ?_); exact fun h => h)
    | ((with_reducible refine sound_modVolume' _ _ ?_ ?_); exact fun _ => ⟨rfl, fun _ h => h⟩)

theorem sound_issueVerify {s : State} (w : WorkItem) (l : Link) (hb : s.sound) : (State.issueVerify s w l).sound := by
  unfold State.issueVerify
  split
  · exact sound_waitPlace _ _ hb
  · rename_i hp
    split
    · rename_i u _ hu _
      refine sound_handDirective _ _ _ _ _ _ ?_ (sound_modItem _ _ (sound_incRef _ _ _ hb hu))
      show ((u.link _).directives).length < _
      rw [incRef_link hu]
      exact placeFree_room hp
    · exact sound_leaveItem _ hb

theorem sound_markFixing {s : State} (n : Nat) (idxs : List Nat) (hb : s.sound) : (State.markFixing s n idxs).sound := by
  unfold State.markFixing
  repeat' first
    | with_reducible assumption
    | with_reducible apply sound_modRepair

theorem sound_fixData {s : State} (n idx : Nat) (r : Repair) (l : Link) (idxs : List Nat)
    (hp : (s.link l).directives.length < Config.directiveListSize) (hb : s.sound) : (State.fixData s n idx r l idxs).sound := by
  unfold State.fixData
  split
  · rename_i u hu
    refine sound_setSlots _ _ (sound_handDirective _ _ _ _ _ _ ?_ (sound_markFixing _ _ (sound_incRef _ _ _ hb hu)))
    show ((u.link _).directives).length < _
    rw [incRef_link hu]
    exact hp
  · exact sound_abandonRepair _ hb

theorem sound_fixTwin {s : State} (n idx : Nat) (r : Repair) (l : Link) (twin : Nat)
    (hp : (s.link l).directives.length < Config.directiveListSize) (hb : s.sound) : (State.fixTwin s n idx r l twin).sound := by
  unfold State.fixTwin
  split
  · rename_i t ht
    have h1 := sound_incRef _ _ _ hb ht
    split
    · rename_i u hu
      refine sound_handDirective _ _ _ _ _ _ ?_ (sound_markFixing _ _ (sound_incRef _ _ _ h1 hu))
      show ((u.link _).directives).length < _
      rw [incRef_link hu, incRef_link ht]
      exact hp
    · exact sound_chunkOffsite _ _ (sound_decRef _ _ _ h1)
  · exact sound_abandonRepair _ hb

theorem placeFree_room' {s : State} {l : Link} {who : Issuer} (h : s.placeFree l who = true) :
    (s.link l).directives.length < Config.directiveListSize :=
  placeFree_room (who := who) (by simp [h])

theorem sound_fixChunk {s : State} (n idx : Nat) (r : Repair) (l : Link) (hb : s.sound) : (State.fixChunk s n idx r l).sound := by
  unfold State.fixChunk
  split
  · exact hb
  · split
    · split
      · exact sound_chunkOffsite _ _ hb
      · split
        · rename_i hp
          exact sound_fixTwin _ _ _ _ _ (placeFree_room' hp) hb
        · exact sound_waitPlace _ _ hb
    · split
      · rename_i hp
        exact sound_fixData _ _ _ _ _ (placeFree_room' hp) hb
      · exact sound_waitPlace _ _ hb
    · exact hb

theorem sound_fixWhole {s : State} (n : Nat) (r : Repair) (l : Link) (hb : s.sound) : (State.fixWhole s n r l).sound := by
  unfold State.fixWhole
  split
  · split
    · rename_i hp
      exact sound_fixData _ _ _ _ _ (placeFree_room' hp) hb
    · exact sound_waitPlace _ _ hb
  · exact hb

theorem sound_fixDone {s : State} (l : Link) (tag : Nat) (hb : s.sound) : (State.fixDone s l tag).sound := by
  unfold State.fixDone
  repeat' first
    | with_reducible assumption
    | with_reducible apply sound_decRefs
    | with_reducible apply sound_endDirective
    | with_reducible apply sound_fixEnded
    | split

theorem sound_readTable {s : State} (l : Link) (q : Nat) (t : TableName) (start count : Nat) (ks : List Nat) (hb : s.sound) : (State.readTable s l q t start count ks).sound := by
  unfold State.readTable
  repeat' first
    | with_reducible assumption
    | with_reducible apply sound_reply
    | ((with_reducible refine sound_modLink _ _ ?_ ?_); first | exact fun _ hr => hr | exact fun _ hr => Nat.le_trans (List.length_filter_le ..) hr | exact fun _ hr => by (repeat' split) <;> exact hr)

theorem sound_clearCounts {s : State} (hb : s.sound) : (State.clearCounts s).sound := by
  unfold State.clearCounts
  repeat' first
    | with_reducible assumption
    | with_reducible refine sound_foldl _ _ (fun _ _ _ => ?_) ?_
    | ((with_reducible refine sound_modLink _ _ ?_ ?_); first | exact fun _ hr => hr | exact fun _ hr => Nat.le_trans (List.length_filter_le ..) hr | exact fun _ hr => by (repeat' split) <;> exact hr)
    | ((with_reducible refine sound_modSup _ ?_ ?_); exact fun h => h)

theorem sound_modSettings {s : State} (f : Settings → Settings)
    (hf : ∀ t, t.classes.wf = true → t.scopes.wf = true → (f t).classes.wf = true ∧ (f t).scopes.wf = true) (hb : s.sound) :
    (State.modSettings s f).sound :=
  sound_modSup _ (fun h => ⟨(hf _ h.1 h.2.1).1, (hf _ h.1 h.2.1).2, h.2.2⟩) hb

theorem sound_modPending {s : State} (f : PendingSettings → PendingSettings)
    (hf : ∀ t, t.scopes.wf = true → (f t).scopes.wf = true) (hb : s.sound) :
    (State.modPending s f).sound :=
  sound_modSup _ (fun h => ⟨h.1, h.2.1, hf _ h.2.2⟩) hb

theorem sound_atWindow {s : State} (f : Settings → Settings) (g : PendingSettings → PendingSettings)
    (hf : ∀ t, t.classes.wf = true → t.scopes.wf = true → (f t).classes.wf = true ∧ (f t).scopes.wf = true)
    (hg : ∀ t, t.scopes.wf = true → (g t).scopes.wf = true) (hb : s.sound) : (State.atWindow s f g).sound := by
  unfold State.atWindow
  split
  · exact sound_modSettings _ hf hb
  · exact sound_modPending _ hg hb

theorem sound_writeScope {s : State} (n : Nat) (enabled : Bool) (priority : Nat) (vols : List Nat) (hb : s.sound) : (State.writeScope s n enabled priority vols).sound :=
  sound_atWindow _ _ (fun _ h k => ⟨h, wf_tput _ _ k⟩) (fun _ h => wf_tput _ _ h) hb

theorem sound_writeMode {s : State} (m : CacheMode) (hb : s.sound) : (State.writeMode s m).sound := by
  unfold State.writeMode
  split
  · exact hb
  · extract_lets u
    have hu : u.sound := sound_modSettings _ (fun _ h k => ⟨h, k⟩) hb
    clear_value u
    split <;>
    · simp only [sound_mk]
      exact sound_chTally (fun h => h) hu

theorem sound_writeClass {s : State} (c grace : Nat) (selfRestore : Bool) (hb : s.sound) : (State.writeClass s c grace selfRestore).sound :=
  sound_modSettings _ (fun _ h k => ⟨wf_tput _ _ h, k⟩) hb

theorem sound_storeSetting {s : State} (x : Setting) (hb : s.sound) : (State.storeSetting s x).sound := by
  unfold State.storeSetting
  repeat' first
    | with_reducible assumption
    | with_reducible apply sound_closeDue
    | with_reducible apply sound_missLate
    | with_reducible apply sound_retain
    | with_reducible apply sound_writeClass
    | with_reducible apply sound_writeMode
    | with_reducible apply sound_writeScope
    | split
    | ((with_reducible refine sound_modVolume' _ _ ?_ ?_); exact fun _ => ⟨rfl, fun _ h => h⟩)
    | ((with_reducible refine sound_modSettings _ ?_ ?_); exact fun _ h k => ⟨h, k⟩)
    | ((with_reducible refine sound_atWindow _ _ ?_ ?_ ?_); exact fun _ h k => ⟨h, k⟩; exact fun _ h => h)

theorem sound_writeSetting {s : State} (x : Setting) (hb : s.sound) : (State.writeSetting s x).sound := by
  unfold State.writeSetting
  repeat' first
    | with_reducible assumption
    | with_reducible apply sound_evaluateOpen
    | with_reducible apply sound_storeSetting
    | split

theorem sound_writeAndReply {s : State} (l : Link) (q : Nat) (x : Setting) (hb : s.sound) : (State.writeAndReply s l q x).sound := by
  unfold State.writeAndReply
  repeat' first
    | with_reducible assumption
    | with_reducible apply sound_reply
    | with_reducible apply sound_writeSetting
    | split
    | ((try simp only [sound_mk]); (with_reducible refine sound_chTally ?_ ?_); first | exact fun h => h | exact fun h => ⟨wf_tmap _ h.1, h.2⟩)

theorem sound_takeSetting {s : State} (l : Link) (q : Nat) (x : Setting) (hb : s.sound) : (State.takeSetting s l q x).sound := by
  unfold State.takeSetting
  repeat' first
    | with_reducible assumption
    | with_reducible apply sound_reply
    | with_reducible apply sound_stage
    | with_reducible apply sound_writeAndReply
    | split

theorem sound_applyEdit {s : State} (id : Nat) (c : EditChanges) (hb : s.sound) : (State.applyEdit s id c).sound := by
  unfold State.applyEdit
  repeat' first
    | with_reducible assumption
    | with_reducible apply sound_evalGrace
    | with_reducible apply sound_lazyExpire
    | with_reducible apply sound_regatherIf
    | with_reducible apply sound_writeEdit
    | split

theorem sound_applyStaged {s : State} (c : Staged) (hb : s.sound) : (s.applyStaged c).sound := by
  cases c
  · exact sound_storeSetting _ hb
  · exact sound_applyEdit _ _ hb
  · exact sound_setFrozen _ _ hb

theorem sound_release {apply : State → Staged → State} (ha : ∀ s c, s.sound → (apply s c).sound)
    (cs : List (Nat × Staged)) (r : State × Nat × List (Nat × Status)) (hb : r.1.sound) :
    (State.release apply cs r).1.sound := by
  induction cs generalizing r with
  | nil => exact hb
  | cons c cs ih =>
    unfold State.release
    split
    · exact ih _ hb
    · exact ih _ (ha _ _ hb)

theorem sound_releaseHold {s : State} (l : Link) (q : Nat) (held : List Staged) (hb : s.sound) :
    (State.releaseHold s l q held).sound := by
  have h := sound_release (fun s c h => sound_applyStaged (s := s) c h) ((List.range held.length).zip held)
    (s, 0, []) hb
  unfold State.releaseHold
  dsimp only
  refine sound_reply _ _ _ _ (sound_modLink _ _ (fun r hr => hr) ?_)
  split
  · exact sound_evaluateOpen h
  · exact h

theorem Tally.sound_empty {y : Tally} (hw : y.principals.wf = true) (hc : y.cache = []) (hk : y.castout = []) (hg : y.grace = []) (hp : y.postings = []) : y.sound := by
  refine ⟨hw, by rw [hp]; exact Nat.zero_le _, by rw [hk]; exact Nat.zero_le _, by rw [hg]; exact Nat.zero_le _, fun x hx => ?_, fun c hx => ?_⟩
  · rw [hc] at hx; cases hx
  · rw [hk] at hx; cases hx
theorem Stream.sound_initial : Stream.initial.sound := ⟨rfl, Nat.zero_le _, Nat.zero_le _, fun _ h => (by cases h)⟩
theorem Offsite.sound_initial : Offsite.initial.sound := ⟨Nat.zero_le _, Or.inl (fun _ h => (by cases h)), Nat.zero_le _⟩
theorem sound_cold {s : State} (hb : s.sound) : (State.cold s).sound := by
  refine ⟨hb.1, fun l => ?_, Tally.sound_empty hb.2.2.1.1 rfl rfl rfl rfl, ?_, hb.2.2.2.2.1, Stream.sound_initial, Offsite.sound_initial, rfl⟩
  · have : (State.cold s).links[l] = LinkRec.initial := by simp [State.cold]
    rw [this]
    exact Nat.zero_le _
  · have hy := hb.2.2.2.1
    exact ⟨hy.1, hy.2.1, fun _ h => (by cases h), hy.2.2.2⟩

theorem rising_mem {α : Type} {t : Tbl α} {b k : Nat} {v : α} (hr : risingFrom b t = true) (h : (k, v) ∈ t) : b ≤ k := by
  induction t generalizing b with
  | nil => cases h
  | cons kv t ih =>
    obtain ⟨k', w⟩ := kv
    simp only [risingFrom, Bool.and_eq_true, decide_eq_true_eq] at hr
    rcases List.mem_cons.1 h with e | e
    · cases e
      exact hr.1
    · have := ih hr.2 e
      omega
theorem mem_tget {α : Type} {t : Tbl α} {k : Nat} {v : α} {b : Nat} (hr : risingFrom b t = true) (h : (k, v) ∈ t) : tget t k = some v := by
  induction t generalizing b with
  | nil => cases h
  | cons kv t ih =>
    obtain ⟨k', w⟩ := kv
    simp only [risingFrom, Bool.and_eq_true, decide_eq_true_eq] at hr
    rw [tget_cons]
    rcases List.mem_cons.1 h with e | e
    · cases e
      rw [if_pos rfl]
    · have hlt : k' < k := rising_mem hr.2 e
      rw [if_neg (by omega)]
      exact ih hr.2 e
theorem load_death (v : Version) : v.load.death.isNone = v.death.isNone := rfl
theorem sound_loadCat {c : Catalogue} (h : c.sound) : c.load.sound := by
  have hext := h.1.2.1
  unfold extentsWf at hext
  simp only [Bool.and_eq_true] at hext
  have hg : ∀ key, ((tget c.load.extents key).getD Extent.blank).versions.length ≤ ((tget c.extents key).getD Extent.blank).versions.length ∧
      ((tget c.load.extents key).getD Extent.blank).lives ≤ ((tget c.extents key).getD Extent.blank).lives := by
    intro key
    cases hk : tget c.load.extents key with
    | none => exact ⟨Nat.zero_le _, Nat.zero_le _⟩
    | some e =>
      have hm := List.mem_of_mem_filter (mem_of_tget hk)
      unfold tmap at hm
      obtain ⟨⟨k, e0⟩, hm0, heq⟩ := List.mem_map.1 hm
      cases heq
      rw [mem_tget hext.1 hm0]
      refine ⟨by simp [Extent.load], ?_⟩
      simp only [Option.getD_some, Extent.lives, Extent.load]
      rw [lives_map _ load_death]
  refine ⟨⟨by unfold Catalogue.load; dsimp only; exact wf_tmap _ h.1.1, ?_, by unfold Catalogue.load; dsimp only; exact wf_tmap _ h.1.2.2.1, rfl⟩, fun kv hkv => ?_, fun _ hm => (by cases hm), ?_, fun key => ?_, fun v x hx hd => ?_⟩
  · unfold extentsWf
    simp only [Bool.and_eq_true]
    refine ⟨wf_filter _ (wf_tmap _ hext.1), ?_⟩
    rw [List.all_eq_true]
    exact fun kv hkv => (List.mem_filter.1 hkv).2
  · unfold Catalogue.load tmap at hkv
    obtain ⟨kv0, hm, rfl⟩ := List.mem_map.1 hkv
    exact h.2.1 kv0 hm
  · unfold Catalogue.load
    rw [List.length_map]
    exact h.2.2.2.1
  · exact Nat.le_trans (hg key).1 (h.2.2.2.2.1 key)
  · refine Nat.le_trans (hg _).2 (h.2.2.2.2.2 v x hx (fun hd' => hd ?_))
    obtain ⟨h1, w, hw, h2⟩ := hd'
    exact ⟨h1, { w with refTotal := 0 }, by simp [Catalogue.load, hw], h2⟩
theorem sound_load {s : State} (hb : s.sound) : (State.load s).sound := by
  unfold State.load
  extract_lets u v
  have hu : u.sound := sound_modSup _ (fun h => h) (sound_applyPending hb)
  clear_value u
  have hv : v.sound := by
    unfold v
    simp only [sound_mk]
    exact sound_chCat sound_loadCat hu
  clear_value v
  exact sound_modOff _ (fun h => h) hv

theorem Catalogue.sound_initial : Catalogue.initial.sound :=
  ⟨⟨rfl, rfl, rfl, rfl⟩, fun _ h => (by cases h), fun _ h => (by cases h), Nat.zero_le _, fun _ => Nat.zero_le _, fun _ _ _ _ => Nat.zero_le _⟩
theorem sound_initialise {s : State} (hb : s.sound) : (State.initialise s).sound :=
  ⟨⟨rfl, rfl, rfl⟩, hb.2.1, Tally.sound_empty rfl rfl rfl rfl rfl, Catalogue.sound_initial, rfl, hb.2.2.2.2.2⟩





theorem sound_failLoading {s : State} (rec : Nat) (hb : s.sound) : (State.failLoading s rec).sound := by
  unfold State.failLoading
  repeat' first
    | with_reducible assumption
    | with_reducible apply sound_modRestore
    | with_reducible apply sound_powerFail

theorem wf_bare {y : Tally} (t : Tbl Principal) (h : y.sound) (hw : t.wf = true) :
    Tally.sound { y with cache := [], castout := [], principals := t } :=
  ⟨hw, h.2.1, Nat.zero_le _, h.2.2.2.1, fun _ hm => (by cases hm), fun _ hm => (by cases hm)⟩
theorem sound_walkFlags {s : State} (hb : s.sound) : (State.walkFlags s).sound := by
  unfold State.walkFlags
  simp only [sound_mk]
  exact sound_chTally (fun h => wf_bare _ h (wf_tmap _ h.1)) hb
theorem sound_walkPools {s : State} (hb : s.sound) : (State.walkPools s).sound := by
  unfold State.walkPools
  refine sound_tmapPrin _ (fun i p hp => ?_) hb
  split <;> exact hp
theorem sound_endWalk {s : State} (before : Nat) (hb : s.sound) : (State.endWalk s before).sound := by
  unfold State.endWalk
  extract_lets u src s1 n s2 s3 s4
  have h1 : s1.sound := by
    have h0 : u.sound := sound_walkPools (sound_walkFlags hb)
    unfold s1
    simp only [sound_mk]
    exact sound_chTally (fun h => h) h0
  clear_value s1
  have h2 : s2.sound := by
    unfold s2
    split
    · exact sound_raise _ h1
    · exact h1
  clear_value s2
  have h3 : s3.sound := sound_rebuildGrace (sound_beginRecounts h2)
  clear_value s3
  have h4 : s4.sound := sound_foldl _ _ (fun _ _ h => sound_failLoading _ h) h3
  clear_value s4
  exact sound_modSup _ (fun h => h) h4

theorem sound_refuseWaiting {s : State} (hb : s.sound) : (State.refuseWaiting s).sound := by
  unfold State.refuseWaiting
  extract_lets s1 s2
  have h1 : s1.sound := sound_foldl _ _ (fun s l h => sound_foldl _ _ (fun _ _ h => sound_reply _ _ _ _ h) h) hb
  clear_value s1
  have h2 : s2.sound := sound_modRst _ (fun h => h) h1
  clear_value s2
  split
  · exact sound_reply _ _ _ _ (sound_modSup _ (fun h => h) h2)
  · exact h2

theorem sound_offsiteHoldup {s : State} (hb : s.sound) : (State.offsiteHoldup s).sound := by
  unfold State.offsiteHoldup
  repeat' first
    | with_reducible assumption
    | with_reducible apply sound_cancelRuns
    | with_reducible apply sound_giveBackAll
    | with_reducible apply sound_send
    | split
    | ((with_reducible refine sound_modOff _ ?_ ?_); (first | exact fun h => h | exact fun h => ⟨h.1, h.2.1, by simpa [length_mapIf] using h.2.2⟩ | exact fun h => ⟨h.1, h.2.1, Nat.le_trans (List.length_filter_le ..) h.2.2⟩))

theorem sound_streamHoldup {s : State} (hb : s.sound) : (State.streamHoldup s).sound := by
  unfold State.streamHoldup
  extract_lets s1
  have h1 : s1.sound := sound_freeSlotsIf _ hb
  clear_value s1
  simp only [sound_mk]
  exact sound_chStr (fun h => ⟨h.1, h.2.1, h.2.2.1, fun _ hm => by cases hm⟩) h1

theorem soundAgain_death (v : Version) : v.soundAgain.death.isNone = v.death.isNone := rfl
theorem sound_again {s : State} (h : s.sound) :
    ({ s with cat.extents := tmap (fun _ e => { e with versions := e.versions.map Version.soundAgain }) s.cat.extents } : State).sound := by
  simp only [sound_mk]
  refine sound_chCat (fun hy => ⟨⟨hy.1.1, ?_, hy.1.2.2⟩, hy.2.1, hy.2.2.1, hy.2.2.2.1, fun key => ?_, fun v x hx hd => ?_⟩) h
  · have h := hy.1.2.1
    unfold extentsWf at h ⊢
    simp only [Bool.and_eq_true] at h ⊢
    refine ⟨wf_tmap _ h.1, ?_⟩
    rw [List.all_eq_true] at h ⊢
    intro kv hkv
    unfold tmap at hkv
    obtain ⟨kv0, hm, rfl⟩ := List.mem_map.1 hkv
    have := h.2 kv0 hm
    simp only [decide_eq_true_eq] at this ⊢
    intro he
    refine this ?_
    obtain ⟨k, o, lk, vs⟩ := kv0
    simp only [Extent.blank, Extent.mk.injEq, List.map_eq_nil_iff] at he ⊢
    exact he
  · rw [tget_tmap]
    have := hy.2.2.2.2.1 key
    cases hk : tget s.cat.extents key with
    | none => exact Nat.zero_le _
    | some e => rw [hk] at this; simpa using this
  · rw [tget_tmap]
    have := hy.2.2.2.2.2 v x hx hd
    cases hk : tget s.cat.extents (extentKey v x) with
    | none => exact Nat.zero_le _
    | some e =>
      rw [hk] at this
      simp only [Option.map_some, Option.getD_some, Extent.lives] at this ⊢
      rw [lives_map _ soundAgain_death]
      exact this
theorem sound_patrolHoldup {s : State} (hb : s.sound) : (State.patrolHoldup s).sound := by
  unfold State.patrolHoldup
  extract_lets s1 s2 s3
  have h1 : s1.sound := sound_foldl _ _ (fun _ _ h => sound_leaveItem _ h) hb
  clear_value s1
  have h2 : s2.sound := sound_modPat _ (fun _ => rfl) h1
  clear_value s2
  have h3 : s3.sound := by
    refine sound_foldl _ _ (fun s l h => sound_modLink _ _ (fun r hr => ?_) h) h2
    unfold LinkRec.sound LinkRec.orphanRepairs at *
    simpa using hr
  clear_value s3
  exact sound_again h3

theorem sound_enterHoldup {s : State} (hb : s.sound) : (State.enterHoldup s).sound := by
  unfold State.enterHoldup
  extract_lets s1 s2 src s3 s4
  have h1 : s1.sound := sound_modSup _ (fun h => h) hb
  clear_value s1
  have h2 : s2.sound := sound_refuseWaiting h1
  clear_value s2
  have h3 : s3.sound := by
    unfold s3
    simp only [sound_mk]
    exact sound_chTally (fun h => h) h2
  clear_value s3
  have h4 : s4.sound := sound_foldl _ _ (fun _ _ h => sound_powerFail _ h) h3
  clear_value s4
  exact sound_patrolHoldup (sound_streamHoldup (sound_offsiteHoldup h4))

theorem sound_leaveHoldup {s : State} (hb : s.sound) : (State.leaveHoldup s).sound := by
  unfold State.leaveHoldup
  extract_lets s1 src src2 s2
  have h1 : s1.sound := sound_modSup _ (fun h => h) hb
  have h2 : s2.sound := by
    unfold s2
    clear_value s1
    simp only [sound_mk]
    exact sound_chTally (s := { s1 with str.slots := [] }) (fun h => h) (sound_chStr (s := s1) (fun h => ⟨rfl, Nat.zero_le _, Nat.zero_le _, h.2.2.2⟩) h1)
  clear_value s2
  exact sound_missLate (sound_expireDue (sound_beginRecounts h2))

theorem sound_clearMarkers {s : State} (he : s.tallyEmpty = true) (hb : s.sound) : (State.clearMarkers s).sound := by
  unfold State.tallyEmpty State.allClean at he
  simp only [Bool.and_eq_true, List.isEmpty_iff, List.all_eq_true] at he
  have hc : s.tally.castout = [] := he.1.1.1.2
  have ha : ∀ x ∈ s.tally.cache, x.dirty = false := fun x hx => by simpa using he.1.1.2 x hx
  unfold State.clearMarkers
  simp only [sound_mk]
  refine sound_chTally (fun h => ⟨by dsimp only; exact wf_tmap _ h.1, h.2.1, h.2.2.1, h.2.2.2.1, fun x hx => ?_, fun c hm => ?_⟩) hb
  · have hl := h.2.2.2.2.1 x hx
    refine ⟨hl.1, hl.2.1, hl.2.2.1, fun hf => ?_, fun hd => by rw [ha x hx] at hd; cases hd⟩
    simpa using hl.2.2.2.1 hf
  · dsimp only at hm
    rw [hc] at hm
    cases hm

theorem sound_endLoading {s : State} (hb : s.sound) : (State.endLoading s).sound := by
  unfold State.endLoading
  extract_lets s1 s2
  have h1 : s1.sound := sound_modSup _ (fun h => h) hb
  clear_value s1
  have h2 : s2.sound := sound_modSup _ (fun h => h) h1
  clear_value s2
  split
  · exact sound_enterHoldup h1
  · split
    · split
      · exact sound_askOpening h2
      · exact h2
    · exact sound_modSup _ (fun h => h) h1

theorem sound_offsiteStandby {s : State} (hb : s.sound) : (State.offsiteStandby s).sound := by
  unfold State.offsiteStandby
  try dsimp only
  repeat' first
    | with_reducible assumption
    | with_reducible apply sound_cancelRuns
    | with_reducible apply sound_freeFullShip
    | with_reducible apply sound_leaveUp
    | split
    | ((with_reducible refine sound_modOff _ ?_ ?_); (first | exact fun h => h | exact fun h => ⟨h.1, h.2.1, by simpa [length_mapIf] using h.2.2⟩ | exact fun h => ⟨h.1, h.2.1, Nat.le_trans (List.length_filter_le ..) h.2.2⟩))

theorem sound_patrolStandby {s : State} (hb : s.sound) : (State.patrolStandby s).sound := by
  unfold State.patrolStandby
  repeat' first
    | with_reducible assumption
    | with_reducible apply sound_freeAllOf
    | with_reducible apply sound_leavePlaces
    | with_reducible apply sound_modItem
    | with_reducible apply sound_withdrawAsk
    | with_reducible refine sound_foldl _ _ (fun _ _ _ => ?_) ?_
    | ((with_reducible refine sound_modLink _ _ ?_ ?_); first | exact fun _ hr => hr | exact fun _ hr => Nat.le_trans (List.length_filter_le ..) hr | exact fun _ hr => by (repeat' split) <;> exact hr)

theorem sound_enterStandby {s : State} (w : QuietWait) (hb : s.sound) : (State.enterStandby s w).sound := by
  unfold State.enterStandby
  repeat' first
    | with_reducible assumption
    | with_reducible apply sound_offsiteStandby
    | with_reducible apply sound_patrolStandby
    | with_reducible apply sound_pauseRestores
    | ((with_reducible refine sound_modSup _ ?_ ?_); exact fun h => h)

theorem sound_exitStandby {s : State} (hb : s.sound) : (State.exitStandby s).sound := by
  unfold State.exitStandby
  try dsimp only
  repeat' first
    | with_reducible assumption
    | with_reducible apply sound_askOpening
    | with_reducible apply sound_evaluateWindow
    | with_reducible apply sound_resumeRestores
    | split
    | ((with_reducible refine sound_modSup _ ?_ ?_); exact fun h => h)

theorem sound_cancelAll {s : State} (hb : s.sound) : (State.cancelAll s).sound :=
  sound_foldl _ _ (fun _ r h => sound_cancelRestore r h) hb

theorem sound_clearPart {s : State} (w : QuietWait) (hb : s.sound) : (State.clearPart s w).sound := by
  unfold State.clearPart
  extract_lets s1 s2
  have h1 : s1.sound := sound_modSup _ (fun h => h) hb
  clear_value s1
  have h2 : s2.sound := sound_closeWindow (sound_cancelAll h1)
  clear_value s2
  exact sound_modPat _ (fun h => h) (sound_patrolStandby (sound_offsiteStandby h2))

theorem sound_setClock {s : State} (value : Nat) (hb : s.sound) : (State.setClock s value).sound := by
  unfold State.setClock
  repeat' first
    | with_reducible assumption
    | with_reducible apply sound_evaluateWindow
    | with_reducible apply sound_expireDue
    | with_reducible apply sound_reckonClose
    | split
    | ((with_reducible refine sound_modSup _ ?_ ?_); exact fun h => h)

theorem sound_tick {s : State} (hb : s.sound) : (State.tick s).sound := by
  unfold State.tick
  repeat' first
    | with_reducible assumption
    | ((with_reducible refine sound_modSup _ ?_ ?_); exact fun h => h)

end Sys2Proof.Machine
end

