-- ==== Sys2Proof/Laws/SupKept.lean ====
section
/-! SUPPORT. The Supervisor's registers left alone: one lemma for each operation that changes none of
them. -/

namespace Sys2Proof.Machine

theorem supKept_mk (v u : Supervisor) (ls t c r st o p pe se) : supKept v (State.mk u ls t c r st o p pe se).sup = supKept v u := rfl

variable {u0 : Supervisor}

theorem supKept_refl (u : Supervisor) : supKept u u := by simp [supKept]
theorem supKept_foldl {α : Type} (f : State → α → State) (xs : List α) {s : State}
    (hf : ∀ s x, supKept u0 s.sup → supKept u0 (f s x).sup) (h : supKept u0 s.sup) : supKept u0 (xs.foldl f s).sup := by
  induction xs generalizing s with
  | nil => exact h
  | cons x xs ih => exact ih (hf s x h)
theorem supKept_iter (n : Nat) (f : State → State) {s : State}
    (hf : ∀ s, supKept u0 s.sup → supKept u0 (f s).sup) (h : supKept u0 s.sup) : supKept u0 (iter n f s).sup := by
  induction n generalizing s with
  | zero => exact h
  | succ n ih => exact ih (hf s h)
theorem supKept_modLink {s : State} (l : Link) (f : LinkRec → LinkRec) (h : supKept u0 s.sup) : supKept u0 (s.modLink l f).sup := h
theorem supKept_modSup {s : State} (f : Supervisor → Supervisor) (hf : ∀ v, supKept u0 v → supKept u0 (f v))
    (h : supKept u0 s.sup) : supKept u0 (s.modSup f).sup := hf _ h
theorem supKept_draw {s : State} (h : supKept u0 s.sup) : supKept u0 s.draw.2.sup := h
theorem supKept_commit' {s : State} (vol ext owner loc occ : Nat) (codes : Option (List Code))
    (h : supKept u0 (s.applyCommit vol ext owner (s.commit vol ext owner loc occ codes).1).sup) :
    supKept u0 (s.commit vol ext owner loc occ codes).2.sup := h

theorem supKept_send {s : State} (o : Output) (hb : supKept u0 s.sup) : supKept u0 (State.send s o).sup := by
  unfold State.send
  with_reducible assumption

theorem supKept_setPrin {s : State} (id : Nat) (p : Principal) (hb : supKept u0 s.sup) : supKept u0 (State.setPrin s id p).sup := by
  unfold State.setPrin
  with_reducible assumption

theorem supKept_modPrin {s : State} (id : Nat) (f : Principal → Principal) (hb : supKept u0 s.sup) : supKept u0 (State.modPrin s id f).sup := by
  unfold State.modPrin
  with_reducible assumption

theorem supKept_modVolume {s : State} (vol : Nat) (f : Volume → Volume) (hb : supKept u0 s.sup) : supKept u0 (State.modVolume s vol f).sup := by
  unfold State.modVolume
  with_reducible assumption

theorem supKept_setExtent {s : State} (vol ext : Nat) (e : Extent) (hb : supKept u0 s.sup) : supKept u0 (State.setExtent s vol ext e).sup := by
  unfold State.setExtent
  with_reducible assumption

theorem supKept_modSnapshot {s : State} (vol gen : Nat) (f : Snapshot → Snapshot) (hb : supKept u0 s.sup) : supKept u0 (State.modSnapshot s vol gen f).sup := by
  unfold State.modSnapshot
  with_reducible assumption

theorem supKept_setDues {s : State} (vol : Nat) (d : Dues) (hb : supKept u0 s.sup) : supKept u0 (State.setDues s vol d).sup := by
  unfold State.setDues
  with_reducible assumption

theorem supKept_modRestore {s : State} (rec : Nat) (f : Restore → Restore) (hb : supKept u0 s.sup) : supKept u0 (State.modRestore s rec f).sup := by
  unfold State.modRestore
  with_reducible assumption

theorem supKept_modStep {s : State} (rec i : Nat) (f : Step → Step) (hb : supKept u0 s.sup) : supKept u0 (State.modStep s rec i f).sup := by
  unfold State.modStep
  repeat' first
    | with_reducible assumption
    | with_reducible apply supKept_modRestore

theorem supKept_modSlot {s : State} (n : Nat) (f : Slot → Slot) (hb : supKept u0 s.sup) : supKept u0 (State.modSlot s n f).sup := by
  unfold State.modSlot
  with_reducible assumption

theorem supKept_freeSlot {s : State} (n : Nat) (hb : supKept u0 s.sup) : supKept u0 (State.freeSlot s n).sup := by
  unfold State.freeSlot
  with_reducible assumption

theorem supKept_freeSlotsIf {s : State} (p : Slot → Bool) (hb : supKept u0 s.sup) : supKept u0 (State.freeSlotsIf s p).sup := by
  unfold State.freeSlotsIf
  with_reducible assumption

theorem supKept_modPlan {s : State} (vol : Nat) (f : PlanVol → PlanVol) (hb : supKept u0 s.sup) : supKept u0 (State.modPlan s vol f).sup := by
  unfold State.modPlan
  with_reducible assumption

theorem supKept_modEntry {s : State} (num : Nat) (f : ShipEntry → ShipEntry) (hb : supKept u0 s.sup) : supKept u0 (State.modEntry s num f).sup := by
  unfold State.modEntry
  with_reducible assumption

theorem supKept_modRepair {s : State} (n : Nat) (f : Repair → Repair) (hb : supKept u0 s.sup) : supKept u0 (State.modRepair s n f).sup := by
  unfold State.modRepair
  with_reducible assumption

theorem supKept_modItem {s : State} (n : Nat) (f : WorkItem → WorkItem) (hb : supKept u0 s.sup) : supKept u0 (State.modItem s n f).sup := by
  unfold State.modItem
  with_reducible assumption

theorem supKept_queueTo {s : State} (b : NoticeBody) (n : Notice) (ls : List Link) (h : supKept u0 s.sup) :
    supKept u0 (State.queueTo b n ls s).sup := by
  induction ls generalizing s with
  | nil => exact h
  | cons l ls ih =>
    unfold State.queueTo
    refine ih ?_
    split
    · exact h
    · exact h

theorem supKept_raise {s : State} (b : NoticeBody) (hb : supKept u0 s.sup) : supKept u0 (State.raise s b).sup := by
  unfold State.raise
  repeat' first
    | with_reducible assumption
    | with_reducible apply supKept_queueTo
    | ((with_reducible refine supKept_modSup _ ?_ ?_); exact fun _ hs => hs)

theorem supKept_busy {s : State} (l : Link) (hb : supKept u0 s.sup) : supKept u0 (State.busy s l).sup := by
  unfold State.busy
  repeat' first
    | with_reducible assumption
    | with_reducible refine supKept_modLink _ _ ?_

theorem supKept_restartIdle {s : State} (l : Link) (hb : supKept u0 s.sup) : supKept u0 (State.restartIdle s l).sup := by
  unfold State.restartIdle
  repeat' first
    | with_reducible assumption
    | with_reducible refine supKept_modLink _ _ ?_

theorem supKept_replyAtOnce {s : State} (l : Link) (tag : Nat) (k : ReqKind) (st : Status) (hb : supKept u0 s.sup) : supKept u0 (State.replyAtOnce s l tag k st).sup := by
  unfold State.replyAtOnce
  repeat' first
    | with_reducible assumption
    | with_reducible refine supKept_modLink _ _ ?_

theorem supKept_reply {s : State} (l : Link) (req : Nat) (st : Status) (body : ReplyBody) (hb : supKept u0 s.sup) : supKept u0 (State.reply s l req st body).sup := by
  unfold State.reply
  repeat' first
    | with_reducible assumption
    | with_reducible apply supKept_restartIdle
    | with_reducible refine supKept_modLink _ _ ?_

theorem supKept_handNotice {s : State} (l : Link) (b : DirBody) (hb : supKept u0 s.sup) : supKept u0 (State.handNotice s l b).sup := by
  unfold State.handNotice
  repeat' first
    | with_reducible assumption
    | with_reducible apply supKept_busy
    | with_reducible refine supKept_modLink _ _ ?_

theorem supKept_handDirective {s : State} (l : Link) (k : DirKind) (who : Issuer) (refs : List (Nat × Nat × Nat)) (b : DirBody) (chunks : List (Nat × Nat)) (hb : supKept u0 s.sup) : supKept u0 (State.handDirective s l k who refs b chunks).sup := by
  unfold State.handDirective
  repeat' first
    | with_reducible assumption
    | with_reducible apply supKept_busy
    | with_reducible refine supKept_modLink _ _ ?_

theorem supKept_waitPlace {s : State} (l : Link) (who : Issuer) (hb : supKept u0 s.sup) : supKept u0 (State.waitPlace s l who).sup := by
  unfold State.waitPlace
  repeat' first
    | with_reducible assumption
    | with_reducible refine supKept_modLink _ _ ?_

theorem supKept_leavePlaces {s : State} (who : Issuer) (hb : supKept u0 s.sup) : supKept u0 (State.leavePlaces s who).sup := by
  unfold State.leavePlaces
  repeat' first
    | with_reducible assumption
    | with_reducible refine supKept_foldl _ _ (fun _ _ _ => ?_) ?_
    | with_reducible refine supKept_modLink _ _ ?_

theorem supKept_endDirective {s : State} (l : Link) (tag : Nat) (hb : supKept u0 s.sup) : supKept u0 (State.endDirective s l tag).sup := by
  unfold State.endDirective
  repeat' first
    | with_reducible assumption
    | with_reducible apply supKept_restartIdle
    | with_reducible refine supKept_modLink _ _ ?_

theorem supKept_setGrace {s : State} (id : Nat) (g : Grace) (hb : supKept u0 s.sup) : supKept u0 (State.setGrace s id g).sup := by
  unfold State.setGrace
  repeat' first
    | with_reducible assumption
    | with_reducible apply supKept_modPrin

theorem supKept_leaveGraceQueue {s : State} (id : Nat) (hb : supKept u0 s.sup) : supKept u0 (State.leaveGraceQueue s id).sup := by
  unfold State.leaveGraceQueue
  with_reducible assumption

theorem supKept_enterGrace {s : State} (id deadline : Nat) (hb : supKept u0 s.sup) : supKept u0 (State.enterGrace s id deadline).sup := by
  unfold State.enterGrace
  try dsimp only
  repeat' first
    | with_reducible assumption
    | with_reducible apply supKept_setGrace
    | split

theorem supKept_expire {s : State} (id : Nat) (hb : supKept u0 s.sup) : supKept u0 (State.expire s id).sup := by
  unfold State.expire
  repeat' first
    | with_reducible assumption
    | with_reducible apply supKept_leaveGraceQueue
    | with_reducible apply supKept_raise
    | with_reducible apply supKept_setGrace
    | split

theorem supKept_lazyExpire {s : State} (id : Nat) (hb : supKept u0 s.sup) : supKept u0 (State.lazyExpire s id).sup := by
  unfold State.lazyExpire
  repeat' first
    | with_reducible assumption
    | with_reducible apply supKept_expire
    | split

theorem supKept_lazyExpireAll {s : State} (ids : List Nat) (hb : supKept u0 s.sup) : supKept u0 (State.lazyExpireAll s ids).sup := by
  unfold State.lazyExpireAll
  repeat' first
    | with_reducible assumption
    | with_reducible apply supKept_lazyExpire
    | with_reducible refine supKept_foldl _ _ (fun _ _ _ => ?_) ?_

theorem supKept_evalGrace {s : State} (id : Nat) (hb : supKept u0 s.sup) : supKept u0 (State.evalGrace s id).sup := by
  unfold State.evalGrace
  try dsimp only
  repeat' first
    | with_reducible assumption
    | with_reducible apply supKept_enterGrace
    | with_reducible apply supKept_leaveGraceQueue
    | with_reducible apply supKept_raise
    | with_reducible apply supKept_setGrace
    | split

theorem supKept_evalGraceAll {s : State} (ids : List Nat) (hb : supKept u0 s.sup) : supKept u0 (State.evalGraceAll s ids).sup := by
  unfold State.evalGraceAll
  repeat' first
    | with_reducible assumption
    | with_reducible apply supKept_evalGrace
    | with_reducible refine supKept_foldl _ _ (fun _ _ _ => ?_) ?_

theorem supKept_expireHead {s : State} (hb : supKept u0 s.sup) : supKept u0 (State.expireHead s).sup := by
  unfold State.expireHead
  repeat' first
    | with_reducible assumption
    | with_reducible apply supKept_expire
    | split

theorem supKept_expireDue {s : State} (hb : supKept u0 s.sup) : supKept u0 (State.expireDue s).sup := by
  unfold State.expireDue
  repeat' first
    | with_reducible assumption
    | with_reducible apply supKept_expireHead
    | with_reducible refine supKept_iter _ _ (fun _ _ => ?_) ?_

theorem supKept_rebuildGrace {s : State} (hb : supKept u0 s.sup) : supKept u0 (State.rebuildGrace s).sup := by
  unfold State.rebuildGrace
  with_reducible assumption

theorem supKept_putLine {s : State} (x : Line) (hb : supKept u0 s.sup) : supKept u0 (State.putLine s x).sup := by
  unfold State.putLine
  with_reducible assumption

theorem supKept_modLine {s : State} (id : Nat) (f : Line → Line) (hb : supKept u0 s.sup) : supKept u0 (State.modLine s id f).sup := by
  unfold State.modLine
  with_reducible assumption

theorem supKept_storeTally {s : State} (id used reserved : Nat) (hb : supKept u0 s.sup) : supKept u0 (State.storeTally s id used reserved).sup := by
  unfold State.storeTally
  try dsimp only
  repeat' first
    | with_reducible assumption
    | with_reducible apply supKept_modPrin
    | split
    | (simp only [supKept_mk]; with_reducible assumption)
    | (simp only [supKept_mk])

theorem supKept_storeClean {s : State} (id used reserved : Nat) (hb : supKept u0 s.sup) : supKept u0 (State.storeClean s id used reserved).sup := by
  unfold State.storeClean
  try dsimp only
  repeat' first
    | with_reducible assumption
    | with_reducible apply supKept_storeTally
    | split
    | (simp only [supKept_mk]; with_reducible assumption)
    | (simp only [supKept_mk])

theorem supKept_castoutDirty {s : State} (hb : supKept u0 s.sup) : supKept u0 (State.castoutDirty s).sup := by
  unfold State.castoutDirty
  repeat' first
    | with_reducible assumption
    | split

theorem supKept_modOp {s : State} (num : Nat) (f : TallyOp → TallyOp) (hb : supKept u0 s.sup) : supKept u0 (State.modOp s num f).sup := by
  unfold State.modOp
  with_reducible assumption

theorem supKept_dropOp {s : State} (num : Nat) (hb : supKept u0 s.sup) : supKept u0 (State.dropOp s num).sup := by
  unfold State.dropOp
  with_reducible assumption

theorem supKept_pushOp {s : State} (job : Job) (postings : List Nat) (hb : supKept u0 s.sup) : supKept u0 (State.pushOp s job postings).sup := by
  unfold State.pushOp
  with_reducible assumption

theorem supKept_takeSet {s : State} (num : Nat) (group : List Nat) (hb : supKept u0 s.sup) : supKept u0 (State.takeSet s num group).sup := by
  unfold State.takeSet
  try dsimp only
  repeat' first
    | with_reducible assumption
    | split

theorem supKept_takeNext {s : State} (num : Nat) (hb : supKept u0 s.sup) : supKept u0 (State.takeNext s num).sup := by
  unfold State.takeNext
  try dsimp only
  repeat' first
    | with_reducible assumption
    | with_reducible apply supKept_takeSet
    | split

theorem supKept_gather {s : State} (num : Nat) (hb : supKept u0 s.sup) : supKept u0 (State.gather s num).sup := by
  unfold State.gather
  try dsimp only
  repeat' first
    | with_reducible assumption
    | with_reducible apply supKept_modOp
    | with_reducible apply supKept_takeNext
    | split
    | with_reducible refine supKept_iter _ _ (fun _ _ => ?_) ?_

theorem supKept_releaseLines {s : State} (num : Nat) (ids : List Nat) (hb : supKept u0 s.sup) : supKept u0 (State.releaseLines s num ids).sup := by
  unfold State.releaseLines
  with_reducible assumption

theorem supKept_takePosting {s : State} (hb : supKept u0 s.sup) : supKept u0 (State.takePosting s).sup := by
  unfold State.takePosting
  repeat' first
    | with_reducible assumption
    | with_reducible apply supKept_pushOp
    | split

theorem supKept_writeMarkers {s : State} (ids : List Nat) (hb : supKept u0 s.sup) : supKept u0 (State.writeMarkers s ids).sup := by
  unfold State.writeMarkers
  with_reducible assumption

theorem supKept_applyChange (num : Nat) (settled : Option Nat) {s : State} (c : TallyChange) (hb : supKept u0 s.sup) : supKept u0 (State.applyChange num settled s c).sup := by
  unfold State.applyChange
  try dsimp only
  repeat' first
    | with_reducible assumption
    | with_reducible apply supKept_putLine
    | with_reducible apply supKept_storeTally
    | split
    | (simp only [supKept_mk]; with_reducible assumption)
    | (simp only [supKept_mk])

theorem supKept_applyChanges (num : Nat) (settled : Option Nat) {s : State} (cs : List TallyChange) (hb : supKept u0 s.sup) : supKept u0 (State.applyChanges num settled s cs).sup := by
  unfold State.applyChanges
  repeat' first
    | with_reducible assumption
    | with_reducible apply supKept_applyChange
    | with_reducible refine supKept_foldl _ _ (fun _ _ _ => ?_) ?_

theorem supKept_endWrite {s : State} (w : PendingWrite) (hb : supKept u0 s.sup) : supKept u0 (State.endWrite s w).sup := by
  unfold State.endWrite
  repeat' first
    | with_reducible assumption
    | with_reducible apply supKept_modPrin

theorem supKept_beginRecount {s : State} (pool : Nat) (hb : supKept u0 s.sup) : supKept u0 (State.beginRecount s pool).sup := by
  unfold State.beginRecount
  repeat' first
    | with_reducible assumption
    | split

theorem supKept_beginRecounts {s : State} (hb : supKept u0 s.sup) : supKept u0 (State.beginRecounts s).sup := by
  unfold State.beginRecounts
  repeat' first
    | with_reducible assumption
    | with_reducible apply supKept_beginRecount
    | with_reducible refine supKept_foldl _ _ (fun _ _ _ => ?_) ?_

theorem supKept_memberUnsettled {s : State} (pool : Nat) (hb : supKept u0 s.sup) : supKept u0 (State.memberUnsettled s pool).sup := by
  unfold State.memberUnsettled
  repeat' first
    | with_reducible assumption
    | with_reducible apply supKept_modPrin

theorem supKept_flushReclaim {s : State} (hb : supKept u0 s.sup) : supKept u0 (State.flushReclaim s).sup := by
  unfold State.flushReclaim
  repeat' first
    | with_reducible assumption
    | with_reducible apply supKept_handNotice
    | split

theorem supKept_flushReclaims {s : State} (hb : supKept u0 s.sup) : supKept u0 (State.flushReclaims s).sup := by
  unfold State.flushReclaims
  repeat' first
    | with_reducible assumption
    | with_reducible apply supKept_flushReclaim
    | with_reducible refine supKept_iter _ _ (fun _ _ => ?_) ?_

theorem supKept_sendReclaim {s : State} (vol ext loc : Nat) (hb : supKept u0 s.sup) : supKept u0 (State.sendReclaim s vol ext loc).sup := by
  unfold State.sendReclaim
  repeat' first
    | with_reducible assumption
    | with_reducible apply supKept_handNotice
    | split

theorem supKept_sendCutDue {s : State} (vol : Nat) (nightly : Bool) (hb : supKept u0 s.sup) : supKept u0 (State.sendCutDue s vol nightly).sup := by
  unfold State.sendCutDue
  repeat' first
    | with_reducible assumption
    | with_reducible apply supKept_handNotice
    | with_reducible apply supKept_setDues
    | split

theorem supKept_openDue {s : State} (nightly : Bool) (vol : Nat) (hb : supKept u0 s.sup) : supKept u0 (State.openDue s nightly vol).sup := by
  unfold State.openDue
  repeat' first
    | with_reducible assumption
    | with_reducible apply supKept_sendCutDue
    | with_reducible apply supKept_setDues

theorem supKept_closeDue {s : State} (nightly : Bool) (vol : Nat) (hb : supKept u0 s.sup) : supKept u0 (State.closeDue s nightly vol).sup := by
  unfold State.closeDue
  repeat' first
    | with_reducible assumption
    | with_reducible apply supKept_setDues

theorem supKept_unsendDues {s : State} (l : Link) (hb : supKept u0 s.sup) : supKept u0 (State.unsendDues s l).sup := by
  unfold State.unsendDues
  with_reducible assumption

theorem supKept_sendDues {s : State} (l : Link) (hb : supKept u0 s.sup) : supKept u0 (State.sendDues s l).sup := by
  unfold State.sendDues
  repeat' first
    | with_reducible assumption
    | with_reducible apply supKept_sendCutDue
    | with_reducible refine supKept_foldl _ _ (fun _ _ _ => ?_) ?_

theorem supKept_arrive {s : State} (l : Link) (hb : supKept u0 s.sup) : supKept u0 (State.arrive s l).sup := by
  unfold State.arrive
  try dsimp only
  repeat' first
    | with_reducible assumption
    | with_reducible apply supKept_busy
    | with_reducible apply supKept_flushReclaims
    | with_reducible apply supKept_sendDues
    | split
    | with_reducible refine supKept_modLink _ _ ?_

theorem supKept_startExpiry {s : State} (vol gen : Nat) (hb : supKept u0 s.sup) : supKept u0 (State.startExpiry s vol gen).sup := by
  unfold State.startExpiry
  repeat' first
    | with_reducible assumption
    | with_reducible apply supKept_modSnapshot

theorem supKept_retainOnce (vol : Nat) (k : SnapKind) {s : State} (hb : supKept u0 s.sup) : supKept u0 (State.retainOnce vol k s).sup := by
  unfold State.retainOnce
  repeat' first
    | with_reducible assumption
    | with_reducible apply supKept_startExpiry
    | split

theorem supKept_retain {s : State} (vol : Nat) (k : SnapKind) (hb : supKept u0 s.sup) : supKept u0 (State.retain s vol k).sup := by
  unfold State.retain
  repeat' first
    | with_reducible assumption
    | with_reducible apply supKept_retainOnce
    | with_reducible refine supKept_iter _ _ (fun _ _ => ?_) ?_

theorem supKept_takePin {s : State} (vol gen : Nat) (ship : Bool) (hb : supKept u0 s.sup) : supKept u0 (State.takePin s vol gen ship).sup := by
  unfold State.takePin
  repeat' first
    | with_reducible assumption
    | with_reducible apply supKept_modSnapshot

theorem supKept_dropPin {s : State} (vol gen : Nat) (ship : Bool) (hb : supKept u0 s.sup) : supKept u0 (State.dropPin s vol gen ship).sup := by
  unfold State.dropPin
  repeat' first
    | with_reducible assumption
    | with_reducible apply supKept_modSnapshot
    | with_reducible apply supKept_retain
    | split

theorem supKept_countThinned {s : State} (vol : Nat) (v : Version) (hb : supKept u0 s.sup) : supKept u0 (State.countThinned s vol v).sup := by
  unfold State.countThinned
  repeat' first
    | with_reducible assumption
    | with_reducible apply supKept_modSnapshot
    | split
    | with_reducible refine supKept_foldl _ _ (fun _ _ _ => ?_) ?_

theorem supKept_applyCommit {s : State} (vol ext owner : Nat) (p : CommitPlan) (hb : supKept u0 s.sup) : supKept u0 (State.applyCommit s vol ext owner p).sup := by
  unfold State.applyCommit
  repeat' first
    | with_reducible assumption
    | with_reducible apply supKept_countThinned
    | with_reducible apply supKept_flushReclaims
    | with_reducible apply supKept_setExtent
    | split

theorem supKept_commit {s : State} (vol ext owner loc occ : Nat) (codes : Option (List Code)) (h : supKept u0 s.sup) :
    supKept u0 (State.commit s vol ext owner loc occ codes).2.sup := supKept_applyCommit _ _ _ _ h

theorem supKept_incRef {s t : State} (vol ext loc : Nat) (h : supKept u0 s.sup) (hi : s.incRef vol ext loc = .granted t) :
    supKept u0 t.sup := by
  unfold State.incRef at hi
  split at hi
  · simp at hi
  · split at hi
    · simp only [Increment.granted.injEq] at hi
      subst hi
      exact h
    · simp at hi

theorem supKept_decRef {s : State} (vol ext loc : Nat) (hb : supKept u0 s.sup) : supKept u0 (State.decRef s vol ext loc).sup := by
  unfold State.decRef
  try dsimp only
  repeat' first
    | with_reducible assumption
    | with_reducible apply supKept_flushReclaims
    | with_reducible apply supKept_modVolume
    | with_reducible apply supKept_setExtent
    | split

theorem supKept_decRefs {s : State} (refs : List (Nat × Nat × Nat)) (hb : supKept u0 s.sup) : supKept u0 (State.decRefs s refs).sup := by
  unfold State.decRefs
  repeat' first
    | with_reducible assumption
    | with_reducible apply supKept_decRef
    | with_reducible refine supKept_foldl _ _ (fun _ _ _ => ?_) ?_

theorem supKept_lockRange {s : State} (rid vol first count : Nat) (hb : supKept u0 s.sup) : supKept u0 (State.lockRange s rid vol first count).sup := by
  unfold State.lockRange
  repeat' first
    | with_reducible assumption
    | with_reducible apply supKept_setExtent
    | with_reducible refine supKept_foldl _ _ (fun _ _ _ => ?_) ?_

theorem supKept_unlock {s : State} (vol ext rid : Nat) (hb : supKept u0 s.sup) : supKept u0 (State.unlock s vol ext rid).sup := by
  unfold State.unlock
  repeat' first
    | with_reducible assumption
    | with_reducible apply supKept_setExtent
    | split

theorem supKept_changeVersion {s : State} (vol ext birth : Nat) (p : Version → Bool) (f : Version → Version) (hb : supKept u0 s.sup) : supKept u0 (State.changeVersion s vol ext birth p f).sup := by
  unfold State.changeVersion
  repeat' first
    | with_reducible assumption
    | with_reducible apply supKept_setExtent
    | split

theorem supKept_setShipped {s : State} (vol ext birth : Nat) (hb : supKept u0 s.sup) : supKept u0 (State.setShipped s vol ext birth).sup := by
  unfold State.setShipped
  repeat' first
    | with_reducible assumption
    | with_reducible apply supKept_changeVersion

theorem supKept_setVerified {s : State} (vol ext birth loc : Nat) (hb : supKept u0 s.sup) : supKept u0 (State.setVerified s vol ext birth loc).sup := by
  unfold State.setVerified
  repeat' first
    | with_reducible assumption
    | with_reducible apply supKept_changeVersion

theorem supKept_writeRepair {s : State} (vol ext birth loc : Nat) (st : RepairState) (hb : supKept u0 s.sup) : supKept u0 (State.writeRepair s vol ext birth loc st).sup := by
  unfold State.writeRepair
  repeat' first
    | with_reducible assumption
    | with_reducible apply supKept_changeVersion

theorem supKept_damageExtent {s : State} (vol ext : Nat) (lost : List ExtentField) (hb : supKept u0 s.sup) :
    supKept u0 (State.damageExtent s vol ext lost).sup := by
  unfold State.damageExtent
  refine supKept_raise _ (supKept_foldl _ _ (fun s f h => ?_) (supKept_modVolume _ _ hb))
  exact supKept_setExtent _ _ _ (supKept_draw h)

theorem supKept_setWaiting {s : State} (c : SlotClass) (q : List SlotReq) (hb : supKept u0 s.sup) : supKept u0 (State.setWaiting s c q).sup := by
  unfold State.setWaiting
  repeat' first
    | with_reducible assumption
    | split

theorem supKept_grantSlot (c : SlotClass) (h : SlotHolder) {s : State} (w : Nat × Code) (hb : supKept u0 s.sup) : supKept u0 (State.grantSlot c h s w).sup := by
  unfold State.grantSlot
  with_reducible assumption

theorem supKept_grant {s : State} (c : SlotClass) (r : SlotReq) (hb : supKept u0 s.sup) : supKept u0 (State.grant s c r).sup := by
  unfold State.grant
  repeat' first
    | with_reducible assumption
    | with_reducible apply supKept_grantSlot
    | with_reducible apply supKept_modItem
    | split
    | with_reducible refine supKept_foldl _ _ (fun _ _ _ => ?_) ?_

theorem supKept_enqueue {s : State} (c : SlotClass) (r : SlotReq) (hb : supKept u0 s.sup) : supKept u0 (State.enqueue s c r).sup := by
  unfold State.enqueue
  repeat' first
    | with_reducible assumption
    | with_reducible apply supKept_setWaiting
    | split

theorem supKept_considerOnce {s : State} (hb : supKept u0 s.sup) : supKept u0 (State.considerOnce s).sup := by
  unfold State.considerOnce
  repeat' first
    | with_reducible assumption
    | with_reducible apply supKept_grant
    | with_reducible apply supKept_setWaiting
    | split

theorem supKept_consider {s : State} (hb : supKept u0 s.sup) : supKept u0 (State.consider s).sup := by
  unfold State.consider
  repeat' first
    | with_reducible assumption
    | with_reducible apply supKept_considerOnce
    | with_reducible refine supKept_iter _ _ (fun _ _ => ?_) ?_

theorem supKept_handBack {s : State} (n : Nat) (hb : supKept u0 s.sup) : supKept u0 (State.handBack s n).sup := by
  unfold State.handBack
  repeat' first
    | with_reducible assumption
    | with_reducible apply supKept_freeSlot

theorem supKept_freeFullShip {s : State} (hb : supKept u0 s.sup) : supKept u0 (State.freeFullShip s).sup := by
  unfold State.freeFullShip
  repeat' first
    | with_reducible assumption
    | with_reducible apply supKept_handBack
    | with_reducible refine supKept_foldl _ _ (fun _ _ _ => ?_) ?_

theorem supKept_takeBackOnce {s : State} (hb : supKept u0 s.sup) : supKept u0 (State.takeBackOnce s).sup := by
  unfold State.takeBackOnce
  repeat' first
    | with_reducible assumption
    | with_reducible apply supKept_consider
    | with_reducible apply supKept_handBack
    | split

theorem supKept_takeBack {s : State} (hb : supKept u0 s.sup) : supKept u0 (State.takeBack s).sup := by
  unfold State.takeBack
  repeat' first
    | with_reducible assumption
    | with_reducible apply supKept_takeBackOnce
    | with_reducible refine supKept_iter _ _ (fun _ _ => ?_) ?_

theorem supKept_askSlots {s : State} (c : SlotClass) (r : SlotReq) (hb : supKept u0 s.sup) : supKept u0 (State.askSlots s c r).sup := by
  unfold State.askSlots
  repeat' first
    | with_reducible assumption
    | with_reducible apply supKept_enqueue
    | with_reducible apply supKept_grant
    | with_reducible apply supKept_takeBack
    | split

theorem supKept_withdrawAsk {s : State} (h : SlotHolder) (hb : supKept u0 s.sup) : supKept u0 (State.withdrawAsk s h).sup := by
  unfold State.withdrawAsk
  with_reducible assumption

theorem supKept_freeHolder {s : State} (h : SlotHolder) (hb : supKept u0 s.sup) : supKept u0 (State.freeHolder s h).sup := by
  unfold State.freeHolder
  repeat' first
    | with_reducible assumption
    | with_reducible apply supKept_freeSlotsIf

theorem supKept_freeAllOf {s : State} (h : SlotHolder) (hb : supKept u0 s.sup) : supKept u0 (State.freeAllOf s h).sup := by
  unfold State.freeAllOf
  repeat' first
    | with_reducible assumption
    | with_reducible apply supKept_freeSlotsIf

theorem supKept_setSlots {s : State} (ns : List Nat) (st : SlotState) (hb : supKept u0 s.sup) : supKept u0 (State.setSlots s ns st).sup := by
  unfold State.setSlots
  repeat' first
    | with_reducible assumption
    | with_reducible apply supKept_modSlot
    | with_reducible refine supKept_foldl _ _ (fun _ _ _ => ?_) ?_

theorem supKept_fill {s : State} (n : Nat) (data : List Byte) (hb : supKept u0 s.sup) : supKept u0 (State.fill s n data).sup := by
  unfold State.fill
  repeat' first
    | with_reducible assumption
    | with_reducible apply supKept_modSlot

theorem supKept_makeFull {s : State} (n : Nat) (hb : supKept u0 s.sup) : supKept u0 (State.makeFull s n).sup := by
  unfold State.makeFull
  repeat' first
    | with_reducible assumption
    | with_reducible apply supKept_modSlot

theorem supKept_modOff {s : State} (f : Offsite → Offsite) (hb : supKept u0 s.sup) : supKept u0 (State.modOff s f).sup := by
  unfold State.modOff
  with_reducible assumption

theorem supKept_startOpening {s : State} (hb : supKept u0 s.sup) : supKept u0 (State.startOpening s).sup := by
  unfold State.startOpening
  repeat' first
    | with_reducible assumption
    | with_reducible apply supKept_modOff
    | with_reducible apply supKept_send

theorem supKept_askOpening {s : State} (hb : supKept u0 s.sup) : supKept u0 (State.askOpening s).sup := by
  unfold State.askOpening
  repeat' first
    | with_reducible assumption
    | with_reducible apply supKept_startOpening
    | split

theorem supKept_leaveUp {s : State} (hb : supKept u0 s.sup) : supKept u0 (State.leaveUp s).sup := by
  unfold State.leaveUp
  with_reducible assumption

theorem supKept_closeLink {s : State} (hb : supKept u0 s.sup) : supKept u0 (State.closeLink s).sup := by
  unfold State.closeLink
  repeat' first
    | with_reducible assumption
    | with_reducible apply supKept_leaveUp
    | with_reducible apply supKept_modOff
    | with_reducible apply supKept_send

theorem supKept_freeFilling {s : State} (e : FetchEntry) (hb : supKept u0 s.sup) : supKept u0 (State.freeFilling s e).sup := by
  unfold State.freeFilling
  repeat' first
    | with_reducible assumption
    | with_reducible apply supKept_freeSlotsIf
    | split

theorem supKept_giveBack {s : State} (f : OutFrame) (hb : supKept u0 s.sup) : supKept u0 (State.giveBack s f).sup := by
  unfold State.giveBack
  try dsimp only
  repeat' first
    | with_reducible assumption
    | with_reducible apply supKept_freeFilling
    | with_reducible apply supKept_freeSlot
    | with_reducible apply supKept_modEntry
    | with_reducible apply supKept_modOff
    | split

theorem supKept_giveBackAll (ahead : Bool) {s : State} (hb : supKept u0 s.sup) : supKept u0 (State.giveBackAll ahead s).sup := by
  unfold State.giveBackAll
  repeat' first
    | with_reducible assumption
    | with_reducible apply supKept_freeSlotsIf
    | with_reducible apply supKept_giveBack
    | with_reducible apply supKept_modOff
    | with_reducible refine supKept_foldl _ _ (fun _ _ _ => ?_) ?_

theorem supKept_fault {s : State} (cause : FaultCause) (hb : supKept u0 s.sup) : supKept u0 (State.fault s cause).sup := by
  unfold State.fault
  repeat' first
    | with_reducible assumption
    | with_reducible apply supKept_giveBackAll
    | with_reducible apply supKept_leaveUp
    | with_reducible apply supKept_modOff
    | with_reducible apply supKept_raise

theorem supKept_chooseDir {s : State} (hb : supKept u0 s.sup) : supKept u0 (State.chooseDir s).sup := by
  unfold State.chooseDir
  repeat' first
    | with_reducible assumption
    | with_reducible apply supKept_modOff

theorem supKept_redirectOnce {s : State} (hb : supKept u0 s.sup) : supKept u0 (State.redirectOnce s).sup := by
  unfold State.redirectOnce
  try dsimp only
  repeat' first
    | with_reducible assumption
    | with_reducible apply supKept_chooseDir
    | with_reducible apply supKept_closeLink
    | with_reducible apply supKept_modOff
    | split

theorem supKept_redirect {s : State} (hb : supKept u0 s.sup) : supKept u0 (State.redirect s).sup := by
  unfold State.redirect
  repeat' first
    | with_reducible assumption
    | with_reducible apply supKept_redirectOnce
    | with_reducible refine supKept_iter _ _ (fun _ _ => ?_) ?_

theorem supKept_endBurst {s : State} (hb : supKept u0 s.sup) : supKept u0 (State.endBurst s).sup := by
  unfold State.endBurst
  repeat' first
    | with_reducible assumption
    | with_reducible apply supKept_modOff
    | split

theorem supKept_markRest {s : State} (hb : supKept u0 s.sup) : supKept u0 (State.markRest s).sup := by
  unfold State.markRest
  repeat' first
    | with_reducible assumption
    | with_reducible apply supKept_modOff

theorem supKept_placeFetch {s : State} (es : List FetchEntry) (atHead : Bool) (hb : supKept u0 s.sup) : supKept u0 (State.placeFetch s es atHead).sup := by
  unfold State.placeFetch
  repeat' first
    | with_reducible assumption
    | with_reducible apply supKept_askOpening
    | with_reducible apply supKept_modOff

theorem supKept_askRoom {s : State} (h : FetchHolder) (es : List FetchEntry) (atHead : Bool) (hb : supKept u0 s.sup) : supKept u0 (State.askRoom s h es atHead).sup := by
  unfold State.askRoom
  repeat' first
    | with_reducible assumption
    | with_reducible apply supKept_modOff
    | with_reducible apply supKept_placeFetch
    | split

theorem supKept_serveRoomOnce {s : State} (hb : supKept u0 s.sup) : supKept u0 (State.serveRoomOnce s).sup := by
  unfold State.serveRoomOnce
  repeat' first
    | with_reducible assumption
    | with_reducible apply supKept_modOff
    | with_reducible apply supKept_placeFetch
    | split

theorem supKept_serveRoom {s : State} (hb : supKept u0 s.sup) : supKept u0 (State.serveRoom s).sup := by
  unfold State.serveRoom
  repeat' first
    | with_reducible assumption
    | with_reducible apply supKept_serveRoomOnce
    | with_reducible refine supKept_iter _ _ (fun _ _ => ?_) ?_

theorem supKept_withdrawFetch {s : State} (h : FetchHolder) (hb : supKept u0 s.sup) : supKept u0 (State.withdrawFetch s h).sup := by
  unfold State.withdrawFetch
  repeat' first
    | with_reducible assumption
    | with_reducible apply supKept_modOff
    | with_reducible apply supKept_withdrawAsk

theorem supKept_clearShed {s : State} (hb : supKept u0 s.sup) : supKept u0 (State.clearShed s).sup := by
  unfold State.clearShed
  repeat' first
    | with_reducible assumption
    | with_reducible apply supKept_modOff

theorem supKept_settleLink {s : State} (hb : supKept u0 s.sup) : supKept u0 (State.settleLink s).sup := by
  unfold State.settleLink
  repeat' first
    | with_reducible assumption
    | with_reducible apply supKept_clearShed
    | with_reducible apply supKept_markRest
    | with_reducible apply supKept_redirect
    | with_reducible apply supKept_serveRoom

theorem supKept_progress {s : State} (hb : supKept u0 s.sup) : supKept u0 (State.progress s).sup := by
  unfold State.progress
  repeat' first
    | with_reducible assumption
    | with_reducible apply supKept_modOff

theorem supKept_joinList {s : State} (f : OutFrame) (hb : supKept u0 s.sup) : supKept u0 (State.joinList s f).sup := by
  unfold State.joinList
  repeat' first
    | with_reducible assumption
    | with_reducible apply supKept_modOff
    | with_reducible apply supKept_progress
    | split

theorem supKept_joinShip {s : State} (b : FrameBody) (vacant : Bool) (hb : supKept u0 s.sup) : supKept u0 (State.joinShip s b vacant).sup := by
  unfold State.joinShip
  repeat' first
    | with_reducible assumption
    | with_reducible apply supKept_joinList
    | with_reducible apply supKept_modOff

theorem supKept_sendControl {s : State} (c : Control) (hb : supKept u0 s.sup) : supKept u0 (State.sendControl s c).sup := by
  unfold State.sendControl
  repeat' first
    | with_reducible assumption
    | with_reducible apply supKept_joinShip
    | with_reducible apply supKept_send

theorem supKept_sendHead {s : State} (hb : supKept u0 s.sup) : supKept u0 (State.sendHead s).sup := by
  unfold State.sendHead
  repeat' first
    | with_reducible assumption
    | with_reducible apply supKept_modOff
    | with_reducible apply supKept_sendControl
    | split

theorem supKept_cancelRun {s : State} (n : Nat) (hb : supKept u0 s.sup) : supKept u0 (State.cancelRun s n).sup := by
  unfold State.cancelRun
  repeat' first
    | with_reducible assumption
    | with_reducible apply supKept_freeAllOf
    | with_reducible apply supKept_leavePlaces
    | with_reducible apply supKept_modOff
    | with_reducible apply supKept_withdrawAsk

theorem supKept_cancelRuns {s : State} (p : ShipPull → Bool) (hb : supKept u0 s.sup) : supKept u0 (State.cancelRuns s p).sup := by
  unfold State.cancelRuns
  repeat' first
    | with_reducible assumption
    | with_reducible apply supKept_cancelRun
    | with_reducible refine supKept_foldl _ _ (fun _ _ _ => ?_) ?_

theorem supKept_freeEntrySlots {s : State} (es : List ShipEntry) (hb : supKept u0 s.sup) : supKept u0 (State.freeEntrySlots s es).sup := by
  unfold State.freeEntrySlots
  repeat' first
    | with_reducible assumption
    | with_reducible apply supKept_freeSlot
    | with_reducible refine supKept_foldl _ _ (fun _ _ _ => ?_) ?_

theorem supKept_damageEntries {s : State} (vol ext birth : Nat) (p : ShipEntry → Bool) (hb : supKept u0 s.sup) : supKept u0 (State.damageEntries s vol ext birth p).sup := by
  unfold State.damageEntries
  try dsimp only
  repeat' first
    | with_reducible assumption
    | with_reducible apply supKept_freeEntrySlots
    | with_reducible apply supKept_modOff
    | with_reducible apply supKept_modPlan
    | split

theorem supKept_shipLost {s : State} (vol ext birth : Nat) (hb : supKept u0 s.sup) : supKept u0 (State.shipLost s vol ext birth).sup := by
  unfold State.shipLost
  exact supKept_damageEntries _ _ _ _ (supKept_cancelRuns _ hb)

theorem supKept_shipReact {s : State} (vol ext birth : Nat) (st : RepairState) (hb : supKept u0 s.sup) : supKept u0 (State.shipReact s vol ext birth st).sup := by
  unfold State.shipReact
  repeat' first
    | with_reducible assumption
    | with_reducible apply supKept_shipLost
    | with_reducible apply supKept_modOff
    | split

theorem supKept_restoreReact {s : State} (vol ext birth : Nat) (st : RepairState) (hb : supKept u0 s.sup) : supKept u0 (State.restoreReact s vol ext birth st).sup := by
  unfold State.restoreReact
  try dsimp only
  repeat' first
    | with_reducible assumption
    | split
    | with_reducible refine supKept_foldl _ _ (fun _ _ _ => ?_) ?_
    | with_reducible refine supKept_modLink _ _ ?_
    | (simp only [supKept_mk]; with_reducible assumption)
    | (simp only [supKept_mk])

theorem supKept_setRepair {s : State} (vol ext birth loc : Nat) (st : RepairState) (hb : supKept u0 s.sup) : supKept u0 (State.setRepair s vol ext birth loc st).sup := by
  unfold State.setRepair
  try dsimp only
  repeat' first
    | with_reducible assumption
    | with_reducible apply supKept_restoreReact
    | with_reducible apply supKept_shipReact
    | with_reducible apply supKept_writeRepair
    | split
    | (simp only [supKept_mk]; with_reducible assumption)
    | (simp only [supKept_mk])

theorem supKept_shedEntries {s : State} (vol : Nat) (hb : supKept u0 s.sup) : supKept u0 (State.shedEntries s vol).sup := by
  unfold State.shedEntries
  repeat' first
    | with_reducible assumption
    | with_reducible apply supKept_cancelRuns
    | with_reducible apply supKept_modOff

theorem supKept_dropShipPins {s : State} (vol : Nat) (hb : supKept u0 s.sup) : supKept u0 (State.dropShipPins s vol).sup := by
  unfold State.dropShipPins
  repeat' first
    | with_reducible assumption
    | with_reducible apply supKept_dropPin
    | with_reducible apply supKept_modPlan
    | split

theorem supKept_failVolume {s : State} (vol : Nat) (hb : supKept u0 s.sup) : supKept u0 (State.failVolume s vol).sup := by
  unfold State.failVolume
  repeat' first
    | with_reducible assumption
    | with_reducible apply supKept_dropShipPins
    | with_reducible apply supKept_modOff
    | with_reducible apply supKept_modPlan
    | with_reducible apply supKept_shedEntries
    | split

theorem supKept_pendDrop {s : State} (vol gen : Nat) (hb : supKept u0 s.sup) : supKept u0 (State.pendDrop s vol gen).sup := by
  unfold State.pendDrop
  repeat' first
    | with_reducible assumption
    | with_reducible apply supKept_askOpening
    | with_reducible apply supKept_modOff

theorem supKept_modPat {s : State} (f : Patrol → Patrol) (hb : supKept u0 s.sup) : supKept u0 (State.modPat s f).sup := by
  unfold State.modPat
  with_reducible assumption

theorem supKept_leaveItem {s : State} (n : Nat) (hb : supKept u0 s.sup) : supKept u0 (State.leaveItem s n).sup := by
  unfold State.leaveItem
  repeat' first
    | with_reducible assumption
    | with_reducible apply supKept_freeAllOf
    | with_reducible apply supKept_leavePlaces
    | with_reducible apply supKept_modPat
    | with_reducible apply supKept_withdrawAsk

theorem supKept_addFold {s : State} (w : WorkItem) (hb : supKept u0 s.sup) : supKept u0 (State.addFold s w).sup := by
  unfold State.addFold
  repeat' first
    | with_reducible assumption
    | with_reducible apply supKept_modPat

theorem supKept_issueItem {s : State} (w : WorkItem) (hb : supKept u0 s.sup) : supKept u0 (State.issueItem s w).sup := by
  unfold State.issueItem
  repeat' first
    | with_reducible assumption
    | with_reducible apply supKept_askSlots
    | with_reducible apply supKept_modItem

theorem supKept_loseItem {s : State} (w : WorkItem) (hb : supKept u0 s.sup) : supKept u0 (State.loseItem s w).sup := by
  unfold State.loseItem
  try dsimp only
  repeat' first
    | with_reducible assumption
    | with_reducible apply supKept_leaveItem
    | with_reducible apply supKept_modPat
    | split
    | (simp only [supKept_mk]; with_reducible assumption)
    | (simp only [supKept_mk])

theorem supKept_decideItem {s : State} (n : Nat) (hb : supKept u0 s.sup) : supKept u0 (State.decideItem s n).sup := by
  unfold State.decideItem
  try dsimp only
  repeat' first
    | with_reducible assumption
    | with_reducible apply supKept_addFold
    | with_reducible apply supKept_busy
    | with_reducible apply supKept_issueItem
    | with_reducible apply supKept_leaveItem
    | with_reducible apply supKept_loseItem
    | with_reducible apply supKept_modItem
    | split
    | (simp only [supKept_mk]; with_reducible assumption)
    | (simp only [supKept_mk])

theorem supKept_modChunk {s : State} (n idx : Nat) (f : RepairChunk → RepairChunk) (hb : supKept u0 s.sup) : supKept u0 (State.modChunk s n idx f).sup := by
  unfold State.modChunk
  repeat' first
    | with_reducible assumption
    | with_reducible apply supKept_modRepair

theorem supKept_leaveRepairPlaces {s : State} (n : Nat) (hb : supKept u0 s.sup) : supKept u0 (State.leaveRepairPlaces s n).sup := by
  unfold State.leaveRepairPlaces
  try dsimp only
  repeat' first
    | with_reducible assumption
    | with_reducible apply supKept_leavePlaces
    | split
    | with_reducible refine supKept_foldl _ _ (fun _ _ _ => ?_) ?_
    | (simp only [supKept_mk]; with_reducible assumption)
    | (simp only [supKept_mk])

theorem supKept_chunkOffsite {s : State} (n idx : Nat) (hb : supKept u0 s.sup) : supKept u0 (State.chunkOffsite s n idx).sup := by
  unfold State.chunkOffsite
  try dsimp only
  repeat' first
    | with_reducible assumption
    | with_reducible apply supKept_askRoom
    | with_reducible apply supKept_leavePlaces
    | with_reducible apply supKept_modChunk
    | with_reducible apply supKept_progress
    | split
    | (simp only [supKept_mk]; with_reducible assumption)
    | (simp only [supKept_mk])

theorem supKept_startChunk {s : State} (n : Nat) (idx : Nat) (hb : supKept u0 s.sup) : supKept u0 (State.startChunk s n idx).sup := by
  unfold State.startChunk
  repeat' first
    | with_reducible assumption
    | with_reducible apply supKept_chunkOffsite
    | split

theorem supKept_loseRepair {s : State} (n : Nat) (hb : supKept u0 s.sup) : supKept u0 (State.loseRepair s n).sup := by
  unfold State.loseRepair
  try dsimp only
  repeat' first
    | with_reducible assumption
    | with_reducible apply supKept_freeHolder
    | with_reducible apply supKept_leaveRepairPlaces
    | with_reducible apply supKept_modRepair
    | with_reducible apply supKept_setRepair
    | with_reducible apply supKept_withdrawFetch
    | split
    | (simp only [supKept_mk]; with_reducible assumption)
    | (simp only [supKept_mk])

theorem supKept_startWhole {s : State} (n : Nat) (hb : supKept u0 s.sup) : supKept u0 (State.startWhole s n).sup := by
  unfold State.startWhole
  try dsimp only
  repeat' first
    | with_reducible assumption
    | with_reducible apply supKept_askRoom
    | with_reducible apply supKept_freeHolder
    | with_reducible apply supKept_leaveRepairPlaces
    | with_reducible apply supKept_loseRepair
    | with_reducible apply supKept_modRepair
    | with_reducible apply supKept_progress
    | with_reducible apply supKept_withdrawFetch
    | split
    | (simp only [supKept_mk]; with_reducible assumption)
    | (simp only [supKept_mk])

theorem supKept_openRepair {s : State} (n : Nat) (q : RepairReq) (hb : supKept u0 s.sup) : supKept u0 (State.openRepair s n q).sup := by
  unfold State.openRepair
  repeat' first
    | with_reducible assumption
    | with_reducible apply supKept_modPat
    | with_reducible apply supKept_setRepair
    | with_reducible apply supKept_startChunk
    | with_reducible apply supKept_startWhole
    | split
    | with_reducible refine supKept_foldl _ _ (fun _ _ _ => ?_) ?_

theorem supKept_openWaiting {s : State} (n : Nat) (q : List RepairReq) (h : supKept u0 s.sup) :
    supKept u0 (State.openWaiting n q s).sup := by
  induction q generalizing s with
  | nil => exact h
  | cons x t ih =>
    unfold State.openWaiting
    split
    · exact supKept_openRepair _ _ (supKept_modPat _ h)
    · exact ih h

theorem supKept_closeRepair {s : State} (n : Nat) (hb : supKept u0 s.sup) : supKept u0 (State.closeRepair s n).sup := by
  unfold State.closeRepair
  try dsimp only
  repeat' first
    | with_reducible assumption
    | with_reducible apply supKept_freeAllOf
    | with_reducible apply supKept_leaveRepairPlaces
    | with_reducible apply supKept_modPat
    | with_reducible apply supKept_openWaiting
    | split
    | (simp only [supKept_mk]; with_reducible assumption)
    | (simp only [supKept_mk])

theorem supKept_endRepair {s : State} (n : Nat) (r : Repair) (hb : supKept u0 s.sup) : supKept u0 (State.endRepair s n r).sup := by
  unfold State.endRepair
  repeat' first
    | with_reducible assumption
    | with_reducible apply supKept_closeRepair
    | with_reducible apply supKept_raise
    | with_reducible apply supKept_setRepair
    | with_reducible apply supKept_setVerified
    | split

theorem supKept_checkRepair {s : State} (n : Nat) (hb : supKept u0 s.sup) : supKept u0 (State.checkRepair s n).sup := by
  unfold State.checkRepair
  repeat' first
    | with_reducible assumption
    | with_reducible apply supKept_closeRepair
    | with_reducible apply supKept_endRepair
    | with_reducible apply supKept_startWhole
    | split

theorem supKept_abandonRepair {s : State} (n : Nat) (hb : supKept u0 s.sup) : supKept u0 (State.abandonRepair s n).sup := by
  unfold State.abandonRepair
  try dsimp only
  repeat' first
    | with_reducible assumption
    | with_reducible apply supKept_freeHolder
    | with_reducible apply supKept_leaveRepairPlaces
    | with_reducible apply supKept_modRepair
    | with_reducible apply supKept_withdrawFetch
    | split
    | (simp only [supKept_mk]; with_reducible assumption)
    | (simp only [supKept_mk])

theorem supKept_abandonIf {s : State} (p : Repair → Bool) (hb : supKept u0 s.sup) : supKept u0 (State.abandonIf s p).sup := by
  unfold State.abandonIf
  repeat' first
    | with_reducible assumption
    | with_reducible apply supKept_abandonRepair
    | with_reducible refine supKept_foldl _ _ (fun _ _ _ => ?_) ?_

theorem supKept_addChunks {s : State} (n : Nat) (r : Repair) (q : RepairReq) (hb : supKept u0 s.sup) : supKept u0 (State.addChunks s n r q).sup := by
  unfold State.addChunks
  try dsimp only
  repeat' first
    | with_reducible assumption
    | with_reducible apply supKept_leaveRepairPlaces
    | with_reducible apply supKept_modRepair
    | with_reducible apply supKept_startChunk
    | split
    | with_reducible refine supKept_foldl _ _ (fun _ _ _ => ?_) ?_

theorem supKept_requestRepair {s : State} (q : RepairReq) (hb : supKept u0 s.sup) : supKept u0 (State.requestRepair s q).sup := by
  unfold State.requestRepair
  try dsimp only
  repeat' first
    | with_reducible assumption
    | with_reducible apply supKept_addChunks
    | with_reducible apply supKept_checkRepair
    | with_reducible apply supKept_modPat
    | with_reducible apply supKept_openRepair
    | with_reducible apply supKept_setRepair
    | with_reducible apply supKept_shipLost
    | split

theorem supKept_repairFetched {s : State} (n idx : Nat) (a : ChunkAnswer) (hb : supKept u0 s.sup) : supKept u0 (State.repairFetched s n idx a).sup := by
  unfold State.repairFetched
  try dsimp only
  repeat' first
    | with_reducible assumption
    | with_reducible apply supKept_askRoom
    | with_reducible apply supKept_leavePlaces
    | with_reducible apply supKept_loseRepair
    | with_reducible apply supKept_modChunk
    | with_reducible apply supKept_progress
    | split
    | (simp only [supKept_mk]; with_reducible assumption)
    | (simp only [supKept_mk])

theorem supKept_fixEnded {s : State} (n idx : Nat) (ok : Bool) (hb : supKept u0 s.sup) : supKept u0 (State.fixEnded s n idx ok).sup := by
  unfold State.fixEnded
  repeat' first
    | with_reducible assumption
    | with_reducible apply supKept_checkRepair
    | with_reducible apply supKept_chunkOffsite
    | with_reducible apply supKept_freeAllOf
    | with_reducible apply supKept_freeSlotsIf
    | with_reducible apply supKept_loseRepair
    | with_reducible apply supKept_modChunk
    | with_reducible apply supKept_modRepair
    | split

theorem supKept_verifyEnded {s : State} (n : Nat) (cause : PullCause) (hb : supKept u0 s.sup) : supKept u0 (State.verifyEnded s n cause).sup := by
  unfold State.verifyEnded
  try dsimp only
  repeat' first
    | with_reducible assumption
    | with_reducible apply supKept_freeAllOf
    | with_reducible apply supKept_leaveItem
    | with_reducible apply supKept_modItem
    | with_reducible apply supKept_requestRepair
    | with_reducible apply supKept_setRepair
    | with_reducible apply supKept_setVerified
    | split

theorem supKept_checkFold {s : State} (f : Fold) (hb : supKept u0 s.sup) : supKept u0 (State.checkFold s f).sup := by
  unfold State.checkFold
  repeat' first
    | with_reducible assumption
    | with_reducible apply supKept_modPat
    | with_reducible apply supKept_setVerified
    | split

theorem supKept_endClearing {s : State} (hb : supKept u0 s.sup) : supKept u0 (State.endClearing s).sup := by
  unfold State.endClearing
  repeat' first
    | with_reducible assumption
    | with_reducible apply supKept_leaveItem
    | with_reducible apply supKept_modPat
    | split
    | with_reducible refine supKept_foldl _ _ (fun _ _ _ => ?_) ?_

theorem supKept_checkRepairs {s : State} (hb : supKept u0 s.sup) : supKept u0 (State.checkRepairs s).sup := by
  unfold State.checkRepairs
  try dsimp only
  repeat' first
    | with_reducible assumption
    | with_reducible apply supKept_checkRepair
    | split
    | with_reducible refine supKept_foldl _ _ (fun _ _ _ => ?_) ?_
    | with_reducible refine supKept_iter _ _ (fun _ _ => ?_) ?_
    | (simp only [supKept_mk]; with_reducible assumption)
    | (simp only [supKept_mk])

theorem supKept_settlePatrol {s : State} (hb : supKept u0 s.sup) : supKept u0 (State.settlePatrol s).sup := by
  unfold State.settlePatrol
  try dsimp only
  repeat' first
    | with_reducible assumption
    | with_reducible apply supKept_abandonIf
    | with_reducible apply supKept_checkFold
    | with_reducible apply supKept_checkRepairs
    | with_reducible apply supKept_decideItem
    | with_reducible apply supKept_endClearing
    | split
    | with_reducible refine supKept_foldl _ _ (fun _ _ _ => ?_) ?_
    | (simp only [supKept_mk]; with_reducible assumption)
    | (simp only [supKept_mk])

theorem supKept_settle {s : State} (hb : supKept u0 s.sup) : supKept u0 (State.settle s).sup := by
  unfold State.settle
  repeat' first
    | with_reducible assumption
    | with_reducible apply supKept_settleLink
    | with_reducible apply supKept_settlePatrol

theorem supKept_reckonClose {s : State} (hb : supKept u0 s.sup) : supKept u0 (State.reckonClose s).sup := by
  unfold State.reckonClose
  repeat' first
    | with_reducible assumption
    | with_reducible apply supKept_modOff

theorem supKept_joinPlan {s : State} (vol t : Nat) (hb : supKept u0 s.sup) : supKept u0 (State.joinPlan s vol t).sup := by
  unfold State.joinPlan
  repeat' first
    | with_reducible assumption
    | with_reducible apply supKept_modOff
    | with_reducible apply supKept_modVolume
    | with_reducible apply supKept_takePin
    | split

theorem supKept_reportMissed {s : State} (vol : Nat) (hb : supKept u0 s.sup) : supKept u0 (State.reportMissed s vol).sup := by
  unfold State.reportMissed
  repeat' first
    | with_reducible assumption
    | with_reducible apply supKept_modOff
    | split

theorem supKept_missDue {s : State} (vol : Nat) (hb : supKept u0 s.sup) : supKept u0 (State.missDue s vol).sup := by
  unfold State.missDue
  repeat' first
    | with_reducible assumption
    | with_reducible apply supKept_closeDue
    | with_reducible apply supKept_raise
    | with_reducible apply supKept_reportMissed
    | split

theorem supKept_missLate {s : State} (hb : supKept u0 s.sup) : supKept u0 (State.missLate s).sup := by
  unfold State.missLate
  repeat' first
    | with_reducible assumption
    | with_reducible apply supKept_missDue
    | split
    | with_reducible refine supKept_foldl _ _ (fun _ _ _ => ?_) ?_

theorem supKept_countVisit {s : State} (vol : Nat) (hb : supKept u0 s.sup) : supKept u0 (State.countVisit s vol).sup := by
  unfold State.countVisit
  repeat' first
    | with_reducible assumption
    | with_reducible apply supKept_failVolume
    | with_reducible apply supKept_modPlan
    | split

theorem supKept_reportParked {s : State} (vol ext : Nat) (es : List ShipEntry) (hb : supKept u0 s.sup) : supKept u0 (State.reportParked s vol ext es).sup := by
  unfold State.reportParked
  try dsimp only
  repeat' first
    | with_reducible assumption
    | with_reducible apply supKept_requestRepair
    | split
    | (simp only [supKept_mk]; with_reducible assumption)
    | (simp only [supKept_mk])

theorem supKept_shipVisit {s : State} (hb : supKept u0 s.sup) : supKept u0 (State.shipVisit s).sup := by
  unfold State.shipVisit
  try dsimp only
  repeat' first
    | with_reducible assumption
    | with_reducible apply supKept_failVolume
    | with_reducible apply supKept_modOff
    | with_reducible apply supKept_modPlan
    | with_reducible apply supKept_modVolume
    | with_reducible apply supKept_reportParked
    | split
    | (simp only [supKept_mk]; with_reducible assumption)
    | (simp only [supKept_mk])

theorem supKept_finishVolume {s : State} (hb : supKept u0 s.sup) : supKept u0 (State.finishVolume s).sup := by
  unfold State.finishVolume
  repeat' first
    | with_reducible assumption
    | with_reducible apply supKept_modOff
    | with_reducible apply supKept_modPlan
    | split

theorem supKept_shedScope {s : State} (sc : Nat) (hb : supKept u0 s.sup) : supKept u0 (State.shedScope s sc).sup := by
  unfold State.shedScope
  repeat' first
    | with_reducible assumption
    | with_reducible apply supKept_dropShipPins
    | with_reducible apply supKept_modOff
    | with_reducible apply supKept_modPlan
    | with_reducible apply supKept_shedEntries
    | with_reducible refine supKept_foldl _ _ (fun _ _ _ => ?_) ?_

theorem supKept_shedOnce {s : State} (hb : supKept u0 s.sup) : supKept u0 (State.shedOnce s).sup := by
  unfold State.shedOnce
  repeat' first
    | with_reducible assumption
    | with_reducible apply supKept_raise
    | with_reducible apply supKept_shedScope
    | split

theorem supKept_endInterval {s : State} (hb : supKept u0 s.sup) : supKept u0 (State.endInterval s).sup := by
  unfold State.endInterval
  try dsimp only
  repeat' first
    | with_reducible assumption
    | with_reducible apply supKept_modOff
    | with_reducible apply supKept_shedOnce
    | split
    | with_reducible refine supKept_iter _ _ (fun _ _ => ?_) ?_

theorem supKept_modRst {s : State} (f : RestoreEngine → RestoreEngine) (hb : supKept u0 s.sup) : supKept u0 (State.modRst s f).sup := by
  unfold State.modRst
  with_reducible assumption

theorem supKept_modActive {s : State} (person : Nat) (f : Nat → Nat) (hb : supKept u0 s.sup) : supKept u0 (State.modActive s person f).sup := by
  unfold State.modActive
  repeat' first
    | with_reducible assumption
    | with_reducible apply supKept_modPrin

theorem supKept_askRelease {s : State} (person blocks : Nat) (hb : supKept u0 s.sup) : supKept u0 (State.askRelease s person blocks).sup := by
  unfold State.askRelease
  repeat' first
    | with_reducible assumption
    | with_reducible apply supKept_pushOp
    | split

theorem supKept_raiseEnd {s : State} (rec : Nat) (hb : supKept u0 s.sup) : supKept u0 (State.raiseEnd s rec).sup := by
  unfold State.raiseEnd
  repeat' first
    | with_reducible assumption
    | with_reducible apply supKept_raise
    | split

theorem supKept_unlockStep {s : State} (rec i : Nat) (hb : supKept u0 s.sup) : supKept u0 (State.unlockStep s rec i).sup := by
  unfold State.unlockStep
  repeat' first
    | with_reducible assumption
    | with_reducible apply supKept_unlock
    | split

theorem supKept_dropRestorePin {s : State} (rec : Nat) (hb : supKept u0 s.sup) : supKept u0 (State.dropRestorePin s rec).sup := by
  unfold State.dropRestorePin
  repeat' first
    | with_reducible assumption
    | with_reducible apply supKept_dropPin
    | with_reducible apply supKept_modRestore
    | split

theorem supKept_unlockSteps {s : State} (rec : Nat) (is : List Nat) (hb : supKept u0 s.sup) : supKept u0 (State.unlockSteps s rec is).sup := by
  unfold State.unlockSteps
  repeat' first
    | with_reducible assumption
    | with_reducible apply supKept_unlockStep
    | with_reducible refine supKept_foldl _ _ (fun _ _ _ => ?_) ?_

theorem supKept_dropStep {s : State} (rec i : Nat) (hb : supKept u0 s.sup) : supKept u0 (State.dropStep s rec i).sup := by
  unfold State.dropStep
  repeat' first
    | with_reducible assumption
    | with_reducible apply supKept_freeHolder
    | with_reducible apply supKept_leavePlaces
    | with_reducible apply supKept_withdrawFetch

theorem supKept_finishAs {s : State} (rec : Nat) (st : RestoreState) (cause : Option FailCause) (failed : Option (Nat × StepReason)) (hb : supKept u0 s.sup) : supKept u0 (State.finishAs s rec st cause failed).sup := by
  unfold State.finishAs
  repeat' first
    | with_reducible assumption
    | with_reducible apply supKept_modRestore
    | with_reducible apply supKept_modRst

theorem supKept_releaseBlocks {s : State} (rec blocks : Nat) (hb : supKept u0 s.sup) : supKept u0 (State.releaseBlocks s rec blocks).sup := by
  unfold State.releaseBlocks
  repeat' first
    | with_reducible assumption
    | with_reducible apply supKept_askRelease
    | with_reducible apply supKept_modRestore
    | split

theorem supKept_settlePin {s : State} (rec : Nat) (hb : supKept u0 s.sup) : supKept u0 (State.settlePin s rec).sup := by
  unfold State.settlePin
  repeat' first
    | with_reducible assumption
    | with_reducible apply supKept_dropRestorePin
    | split

theorem supKept_becomeCancelled {s : State} (rec : Nat) (hb : supKept u0 s.sup) : supKept u0 (State.becomeCancelled s rec).sup := by
  unfold State.becomeCancelled
  repeat' first
    | with_reducible assumption
    | with_reducible apply supKept_dropRestorePin
    | with_reducible apply supKept_finishAs
    | with_reducible apply supKept_modActive
    | with_reducible apply supKept_raiseEnd
    | with_reducible apply supKept_releaseBlocks
    | split

theorem supKept_afterStep {s : State} (rec : Nat) (hb : supKept u0 s.sup) : supKept u0 (State.afterStep s rec).sup := by
  unfold State.afterStep
  repeat' first
    | with_reducible assumption
    | with_reducible apply supKept_becomeCancelled
    | with_reducible apply supKept_dropRestorePin
    | with_reducible apply supKept_finishAs
    | with_reducible apply supKept_modActive
    | with_reducible apply supKept_modRestore
    | with_reducible apply supKept_raiseEnd
    | with_reducible apply supKept_settlePin
    | split

theorem supKept_failStep {s : State} (rec i : Nat) (why : StepReason) (hb : supKept u0 s.sup) : supKept u0 (State.failStep s rec i why).sup := by
  unfold State.failStep
  repeat' first
    | with_reducible assumption
    | with_reducible apply supKept_dropStep
    | with_reducible apply supKept_finishAs
    | with_reducible apply supKept_modActive
    | with_reducible apply supKept_modStep
    | with_reducible apply supKept_raiseEnd
    | with_reducible apply supKept_releaseBlocks
    | with_reducible apply supKept_settlePin
    | with_reducible apply supKept_unlockStep
    | split
    | with_reducible refine supKept_foldl _ _ (fun _ _ _ => ?_) ?_

theorem supKept_stepConverted {s : State} (rec i : Nat) (hb : supKept u0 s.sup) : supKept u0 (State.stepConverted s rec i).sup := by
  unfold State.stepConverted
  repeat' first
    | with_reducible assumption
    | with_reducible apply supKept_afterStep
    | with_reducible apply supKept_modRestore
    | with_reducible apply supKept_modStep
    | with_reducible apply supKept_unlockStep
    | split

theorem supKept_releaseConversions {s : State} (rec : Nat) (hb : supKept u0 s.sup) : supKept u0 (State.releaseConversions s rec).sup := by
  unfold State.releaseConversions
  try dsimp only
  repeat' first
    | with_reducible assumption
    | split
    | (simp only [supKept_mk]; with_reducible assumption)
    | (simp only [supKept_mk])

theorem supKept_orphanSlots {s : State} (l : Link) (rec : Nat) (d : Directive) (hb : supKept u0 s.sup) : supKept u0 (State.orphanSlots s l rec d).sup := by
  unfold State.orphanSlots
  try dsimp only
  repeat' first
    | with_reducible assumption
    | split
    | (simp only [supKept_mk]; with_reducible assumption)
    | (simp only [supKept_mk])

theorem supKept_orphanSteps {s : State} (rec : Nat) (hb : supKept u0 s.sup) : supKept u0 (State.orphanSteps s rec).sup := by
  unfold State.orphanSteps
  try dsimp only
  repeat' first
    | with_reducible assumption
    | with_reducible apply supKept_orphanSlots
    | split
    | with_reducible refine supKept_foldl _ _ (fun _ _ _ => ?_) ?_
    | with_reducible refine supKept_modLink _ _ ?_
    | (simp only [supKept_mk]; with_reducible assumption)
    | (simp only [supKept_mk])

theorem supKept_failInFlight {s : State} (rec : Nat) (why : StepReason) (hb : supKept u0 s.sup) : supKept u0 (State.failInFlight s rec why).sup := by
  unfold State.failInFlight
  try dsimp only
  repeat' first
    | with_reducible assumption
    | with_reducible apply supKept_dropStep
    | with_reducible apply supKept_modStep
    | with_reducible apply supKept_orphanSteps
    | with_reducible apply supKept_releaseConversions
    | split
    | with_reducible refine supKept_foldl _ _ (fun _ _ _ => ?_) ?_
    | (simp only [supKept_mk]; with_reducible assumption)
    | (simp only [supKept_mk])

theorem supKept_unlockAll {s : State} (rec : Nat) (hb : supKept u0 s.sup) : supKept u0 (State.unlockAll s rec).sup := by
  unfold State.unlockAll
  repeat' first
    | with_reducible assumption
    | with_reducible apply supKept_unlockSteps
    | split

theorem supKept_powerFail {s : State} (rec : Nat) (hb : supKept u0 s.sup) : supKept u0 (State.powerFail s rec).sup := by
  unfold State.powerFail
  repeat' first
    | with_reducible assumption
    | with_reducible apply supKept_dropRestorePin
    | with_reducible apply supKept_failInFlight
    | with_reducible apply supKept_finishAs
    | with_reducible apply supKept_modActive
    | with_reducible apply supKept_raiseEnd
    | with_reducible apply supKept_releaseBlocks
    | with_reducible apply supKept_settlePin
    | with_reducible apply supKept_unlockAll
    | with_reducible apply supKept_unlockSteps
    | split

theorem supKept_storeFail {s : State} (rec : Nat) (readable : Bool) (hb : supKept u0 s.sup) : supKept u0 (State.storeFail s rec readable).sup := by
  unfold State.storeFail
  try dsimp only
  repeat' first
    | with_reducible assumption
    | with_reducible apply supKept_dropRestorePin
    | with_reducible apply supKept_failInFlight
    | with_reducible apply supKept_finishAs
    | with_reducible apply supKept_modActive
    | with_reducible apply supKept_modRestore
    | with_reducible apply supKept_raise
    | with_reducible apply supKept_raiseEnd
    | with_reducible apply supKept_releaseBlocks
    | with_reducible apply supKept_unlockAll
    | split
    | (simp only [supKept_mk]; with_reducible assumption)
    | (simp only [supKept_mk])

theorem supKept_refuseAcceptance {s : State} (a : Acceptance) (hb : supKept u0 s.sup) : supKept u0 (State.refuseAcceptance s a).sup := by
  unfold State.refuseAcceptance
  repeat' first
    | with_reducible assumption
    | with_reducible apply supKept_dropPin
    | with_reducible apply supKept_unlock
    | with_reducible refine supKept_foldl _ _ (fun _ _ _ => ?_) ?_

theorem supKept_writeRecord {s : State} (a : Acceptance) (hb : supKept u0 s.sup) : supKept u0 (State.writeRecord s a).sup := by
  unfold State.writeRecord
  try dsimp only
  repeat' first
    | with_reducible assumption
    | with_reducible apply supKept_modActive
    | with_reducible apply supKept_modRst
    | with_reducible apply supKept_powerFail
    | with_reducible apply supKept_refuseAcceptance
    | with_reducible apply supKept_reply
    | with_reducible apply supKept_unlockSteps
    | split

theorem supKept_reserved {s : State} (o : Admission) (hb : supKept u0 s.sup) : supKept u0 (State.reserved s o).sup := by
  unfold State.reserved
  repeat' first
    | with_reducible assumption
    | with_reducible apply supKept_refuseAcceptance
    | with_reducible apply supKept_reply
    | with_reducible apply supKept_writeRecord
    | split

theorem supKept_underflow {s : State} (person blocks : Nat) (link : Link) (hb : supKept u0 s.sup) : supKept u0 (State.underflow s person blocks link).sup := by
  unfold State.underflow
  repeat' first
    | with_reducible assumption
    | with_reducible apply supKept_raise
    | split

theorem supKept_jobNotices {s : State} (j : Job) (h : supKept u0 s.sup) : supKept u0 (s.jobNotices j).sup := by
  cases j <;> simp only [State.jobNotices] <;> (try split) <;>
    first | with_reducible exact h | with_reducible exact supKept_underflow _ _ _ h

theorem supKept_writeEdit {s : State} (id : Nat) (c : EditChanges) (hb : supKept u0 s.sup) : supKept u0 (State.writeEdit s id c).sup := by
  unfold State.writeEdit
  repeat' first
    | with_reducible assumption
    | with_reducible apply supKept_modPrin

theorem supKept_modMembers {s : State} (pool : Nat) (f : Nat → Nat) (hb : supKept u0 s.sup) : supKept u0 (State.modMembers s pool f).sup := by
  unfold State.modMembers
  repeat' first
    | with_reducible assumption
    | with_reducible apply supKept_modPrin

theorem supKept_moveCounts {s : State} (p : Principal) (id : Nat) (c : EditChanges) (hb : supKept u0 s.sup) : supKept u0 (State.moveCounts s p id c).sup := by
  unfold State.moveCounts
  repeat' first
    | with_reducible assumption
    | with_reducible apply supKept_memberUnsettled
    | with_reducible apply supKept_modMembers
    | with_reducible apply supKept_modPrin
    | split
    | with_reducible refine supKept_foldl _ _ (fun _ _ _ => ?_) ?_

theorem supKept_deletePrincipal {s : State} (id : Nat) (hb : supKept u0 s.sup) : supKept u0 (State.deletePrincipal s id).sup := by
  unfold State.deletePrincipal
  repeat' first
    | with_reducible assumption
    | with_reducible apply supKept_leaveGraceQueue
    | with_reducible apply supKept_modMembers
    | split
    | with_reducible refine supKept_foldl _ _ (fun _ _ _ => ?_) ?_

theorem supKept_regatherIf {s : State} (again : TallyOp → Bool) (hb : supKept u0 s.sup) : supKept u0 (State.regatherIf s again).sup := by
  unfold State.regatherIf
  try dsimp only
  repeat' first
    | with_reducible assumption
    | split
    | (simp only [supKept_mk]; with_reducible assumption)
    | (simp only [supKept_mk])

theorem supKept_regather {s : State} (id : Nat) (hb : supKept u0 s.sup) : supKept u0 (State.regather s id).sup := by
  unfold State.regather
  try dsimp only
  repeat' first
    | with_reducible assumption
    | with_reducible apply supKept_regatherIf
    | split
    | (simp only [supKept_mk]; with_reducible assumption)
    | (simp only [supKept_mk])

theorem supKept_recompute {s : State} (id : Nat) (hb : supKept u0 s.sup) : supKept u0 (State.recompute s id).sup := by
  unfold State.recompute
  try dsimp only
  repeat' first
    | with_reducible assumption
    | with_reducible apply supKept_regatherIf
    | split
    | (simp only [supKept_mk]; with_reducible assumption)
    | (simp only [supKept_mk])

theorem supKept_jobRecords {s : State} (j : Job) (h : supKept u0 s.sup) : supKept u0 (s.jobRecords j).sup := by
  cases j <;> simp only [State.jobRecords] <;> (try split) <;>
    first
    | with_reducible exact h
    | with_reducible exact supKept_foldl _ _ (fun _ _ h => supKept_modPrin _ _ h) h
    | (split
       · with_reducible exact supKept_regather _ (supKept_writeEdit _ _ (supKept_moveCounts _ _ _ h))
       · with_reducible exact supKept_writeEdit _ _ (supKept_moveCounts _ _ _ h))
    | with_reducible exact supKept_regather _ (supKept_deletePrincipal _ h)

theorem supKept_jobApplied {s : State} (o : TallyOp) (hb : supKept u0 s.sup) : supKept u0 (State.jobApplied s o).sup := by
  unfold State.jobApplied
  repeat' first
    | with_reducible assumption
    | with_reducible apply supKept_reserved
    | with_reducible apply supKept_stepConverted
    | split

theorem supKept_completeOp {s : State} (num : Nat) (hb : supKept u0 s.sup) : supKept u0 (State.completeOp s num).sup := by
  unfold State.completeOp
  repeat' first
    | with_reducible assumption
    | with_reducible apply supKept_dropOp
    | with_reducible apply supKept_modOp
    | with_reducible apply supKept_reply
    | split

theorem supKept_applyOp {s : State} (num : Nat) (hb : supKept u0 s.sup) : supKept u0 (State.applyOp s num).sup := by
  unfold State.applyOp
  repeat' first
    | with_reducible assumption
    | with_reducible apply supKept_applyChanges
    | with_reducible apply supKept_beginRecount
    | with_reducible apply supKept_completeOp
    | with_reducible apply supKept_evalGraceAll
    | with_reducible apply supKept_jobApplied
    | with_reducible apply supKept_jobNotices
    | with_reducible apply supKept_jobRecords
    | with_reducible apply supKept_modOp
    | with_reducible apply supKept_releaseLines
    | split
    | with_reducible refine supKept_foldl _ _ (fun _ _ _ => ?_) ?_

theorem supKept_runOp {s : State} (num : Nat) (hb : supKept u0 s.sup) : supKept u0 (State.runOp s num).sup := by
  unfold State.runOp
  try dsimp only
  repeat' first
    | with_reducible assumption
    | with_reducible apply supKept_applyOp
    | with_reducible apply supKept_lazyExpireAll
    | with_reducible apply supKept_modOp
    | split

theorem supKept_calculate {s : State} (num : Nat) (hb : supKept u0 s.sup) : supKept u0 (State.calculate s num).sup := by
  unfold State.calculate
  try dsimp only
  repeat' first
    | with_reducible assumption
    | with_reducible apply supKept_completeOp
    | with_reducible apply supKept_lazyExpireAll
    | with_reducible apply supKept_modOp
    | with_reducible apply supKept_releaseLines
    | with_reducible apply supKept_reserved
    | with_reducible apply supKept_runOp
    | split

theorem supKept_endMarking {s : State} (num : Nat) (hb : supKept u0 s.sup) : supKept u0 (State.endMarking s num).sup := by
  unfold State.endMarking
  repeat' first
    | with_reducible assumption
    | with_reducible apply supKept_applyOp
    | with_reducible apply supKept_writeMarkers
    | split

theorem supKept_clearNote {s : State} (o : TallyOp) (hb : supKept u0 s.sup) : supKept u0 (State.clearNote s o).sup := by
  unfold State.clearNote
  try dsimp only
  repeat' first
    | with_reducible assumption
    | split
    | with_reducible refine supKept_foldl _ _ (fun _ _ _ => ?_) ?_
    | (simp only [supKept_mk]; with_reducible assumption)
    | (simp only [supKept_mk])

theorem supKept_endInPlace {s : State} (id : Nat) (hb : supKept u0 s.sup) : supKept u0 (State.endInPlace s id).sup := by
  unfold State.endInPlace
  try dsimp only
  repeat' first
    | with_reducible assumption
    | with_reducible apply supKept_clearNote
    | with_reducible apply supKept_completeOp
    | with_reducible apply supKept_endWrite
    | with_reducible apply supKept_modOp
    | split
    | (simp only [supKept_mk]; with_reducible assumption)
    | (simp only [supKept_mk])

theorem supKept_setFrozen {s : State} (id : Nat) (b : Bool) (hb : supKept u0 s.sup) : supKept u0 (State.setFrozen s id b).sup := by
  unfold State.setFrozen
  repeat' first
    | with_reducible assumption
    | with_reducible apply supKept_modPrin

theorem supKept_advanceOp {s : State} (num : Nat) (hb : supKept u0 s.sup) : supKept u0 (State.advanceOp s num).sup := by
  unfold State.advanceOp
  try dsimp only
  repeat' first
    | with_reducible assumption
    | with_reducible apply supKept_dropOp
    | with_reducible apply supKept_gather
    | with_reducible apply supKept_releaseLines
    | with_reducible apply supKept_reply
    | with_reducible apply supKept_runOp
    | split

theorem supKept_advanceOps {s : State} (hb : supKept u0 s.sup) : supKept u0 (State.advanceOps s).sup := by
  unfold State.advanceOps
  repeat' first
    | with_reducible assumption
    | with_reducible apply supKept_advanceOp
    | with_reducible refine supKept_foldl _ _ (fun _ _ _ => ?_) ?_

theorem supKept_endModeSwitch {s : State} (hb : supKept u0 s.sup) : supKept u0 (State.endModeSwitch s).sup := by
  unfold State.endModeSwitch
  try dsimp only
  repeat' first
    | with_reducible assumption
    | with_reducible apply supKept_reply
    | split
    | with_reducible refine supKept_foldl _ _ (fun _ _ _ => ?_) ?_
    | (simp only [supKept_mk]; with_reducible assumption)
    | (simp only [supKept_mk])

theorem supKept_advance {s : State} (hb : supKept u0 s.sup) : supKept u0 (State.advance s).sup := by
  unfold State.advance
  try dsimp only
  repeat' first
    | with_reducible assumption
    | with_reducible apply supKept_advanceOps
    | with_reducible apply supKept_castoutDirty
    | with_reducible apply supKept_endModeSwitch
    | with_reducible apply supKept_takePosting
    | split
    | with_reducible refine supKept_iter _ _ (fun _ _ => ?_) ?_
    | (simp only [supKept_mk]; with_reducible assumption)
    | (simp only [supKept_mk])

theorem supKept_acceptRestore {s : State} (q : RestoreReq) (hb : supKept u0 s.sup) : supKept u0 (State.acceptRestore s q).sup := by
  unfold State.acceptRestore
  try dsimp only
  repeat' first
    | with_reducible assumption
    | with_reducible apply supKept_dropPin
    | with_reducible apply supKept_lockRange
    | with_reducible apply supKept_modRst
    | with_reducible apply supKept_pushOp
    | with_reducible apply supKept_reply
    | with_reducible apply supKept_takePin
    | split
    | (simp only [supKept_mk]; with_reducible assumption)
    | (simp only [supKept_mk])

theorem supKept_startRestore {s : State} (hb : supKept u0 s.sup) : supKept u0 (State.startRestore s).sup := by
  unfold State.startRestore
  repeat' first
    | with_reducible assumption
    | with_reducible apply supKept_afterStep
    | with_reducible apply supKept_modRestore
    | split

theorem supKept_issueFetch {s : State} (rec i : Nat) (r : Restore) (v : Version) (hb : supKept u0 s.sup) : supKept u0 (State.issueFetch s rec i r v).sup := by
  unfold State.issueFetch
  try dsimp only
  repeat' first
    | with_reducible assumption
    | with_reducible apply supKept_modOff
    | with_reducible apply supKept_modStep
    | with_reducible apply supKept_placeFetch
    | split

theorem supKept_toFetchStep {s : State} (rec i : Nat) (r : Restore) (v : Version) (hb : supKept u0 s.sup) : supKept u0 (State.toFetchStep s rec i r v).sup := by
  unfold State.toFetchStep
  repeat' first
    | with_reducible assumption
    | with_reducible apply supKept_issueFetch
    | with_reducible apply supKept_leavePlaces
    | with_reducible apply supKept_modStep

theorem supKept_takeUp {s : State} (rec i : Nat) (hb : supKept u0 s.sup) : supKept u0 (State.takeUp s rec i).sup := by
  unfold State.takeUp
  try dsimp only
  repeat' first
    | with_reducible assumption
    | with_reducible apply supKept_failStep
    | with_reducible apply supKept_handDirective
    | with_reducible apply supKept_issueFetch
    | with_reducible apply supKept_modStep
    | with_reducible apply supKept_toFetchStep
    | with_reducible apply supKept_waitPlace
    | (with_reducible refine supKept_incRef _ _ _ ?_ (by assumption))
    | split

theorem supKept_issuePut {s : State} (rec i : Nat) (hb : supKept u0 s.sup) : supKept u0 (State.issuePut s rec i).sup := by
  unfold State.issuePut
  repeat' first
    | with_reducible assumption
    | with_reducible apply supKept_handDirective
    | with_reducible apply supKept_modStep
    | with_reducible apply supKept_setSlots
    | with_reducible apply supKept_waitPlace
    | split

theorem supKept_completeStep {s : State} (rec i loc : Nat) (hb : supKept u0 s.sup) : supKept u0 (State.completeStep s rec i loc).sup := by
  unfold State.completeStep
  try dsimp only
  repeat' first
    | with_reducible assumption
    | with_reducible apply supKept_abandonIf
    | with_reducible apply supKept_commit
    | with_reducible apply supKept_failStep
    | with_reducible apply supKept_modStep
    | with_reducible apply supKept_pushOp
    | with_reducible apply supKept_sendReclaim
    | split

theorem supKept_stepDirectiveFailed {s : State} (rec i : Nat) (why : DirFailure) (hb : supKept u0 s.sup) : supKept u0 (State.stepDirectiveFailed s rec i why).sup := by
  unfold State.stepDirectiveFailed
  try dsimp only
  repeat' first
    | with_reducible assumption
    | with_reducible apply supKept_afterStep
    | with_reducible apply supKept_askRoom
    | with_reducible apply supKept_failStep
    | with_reducible apply supKept_freeAllOf
    | with_reducible apply supKept_modStep
    | split
    | (simp only [supKept_mk]; with_reducible assumption)
    | (simp only [supKept_mk])

theorem supKept_stepFetched {s : State} (rec i : Nat) (idx : Option Nat) (a : ChunkAnswer) (hb : supKept u0 s.sup) : supKept u0 (State.stepFetched s rec i idx a).sup := by
  unfold State.stepFetched
  try dsimp only
  repeat' first
    | with_reducible assumption
    | with_reducible apply supKept_askRoom
    | with_reducible apply supKept_failStep
    | with_reducible apply supKept_leavePlaces
    | with_reducible apply supKept_modStep
    | split
    | (simp only [supKept_mk]; with_reducible assumption)
    | (simp only [supKept_mk])

theorem supKept_cancelRestore {s : State} (rec : Nat) (hb : supKept u0 s.sup) : supKept u0 (State.cancelRestore s rec).2.sup := by
  have hg : ∀ (waits : List Nat), supKept u0 (waits.foldl (fun (s : State) i =>
      ((s.modStep rec i fun t => { t with again := false }).dropStep rec i).unlockStep rec i) s).sup :=
    fun waits => supKept_foldl _ _ (fun s i h => supKept_unlockStep _ _ (supKept_dropStep _ _ (supKept_modStep _ _ _ h))) hb
  unfold State.cancelRestore
  split
  · exact hb
  · dsimp only
    split <;> (try split) <;> first
      | with_reducible exact hb
      | with_reducible exact supKept_becomeCancelled _ (hg _)
      | with_reducible exact supKept_afterStep _ (supKept_modRestore _ _ (hg _))

theorem supKept_pauseRestores {s : State} (hb : supKept u0 s.sup) : supKept u0 (State.pauseRestores s).sup := by
  unfold State.pauseRestores
  repeat' first
    | with_reducible assumption
    | with_reducible apply supKept_afterStep
    | with_reducible apply supKept_leavePlaces
    | with_reducible apply supKept_modOff
    | with_reducible apply supKept_modRestore
    | split
    | with_reducible refine supKept_foldl _ _ (fun _ _ _ => ?_) ?_

theorem supKept_resumeRestores {s : State} (hb : supKept u0 s.sup) : supKept u0 (State.resumeRestores s).sup := by
  unfold State.resumeRestores
  repeat' first
    | with_reducible assumption
    | with_reducible apply supKept_afterStep
    | with_reducible apply supKept_modRestore
    | split
    | with_reducible refine supKept_foldl _ _ (fun _ _ _ => ?_) ?_

theorem supKept_makeUnsettled {s : State} (id : Nat) (hb : supKept u0 s.sup) : supKept u0 (State.makeUnsettled s id).sup := by
  unfold State.makeUnsettled
  try dsimp only
  repeat' first
    | with_reducible assumption
    | with_reducible apply supKept_beginRecount
    | with_reducible apply supKept_memberUnsettled
    | with_reducible apply supKept_modPrin
    | split
    | with_reducible refine supKept_foldl _ _ (fun _ _ _ => ?_) ?_

theorem supKept_unsettlePools {s : State} (hb : supKept u0 s.sup) : supKept u0 (State.unsettlePools s).sup := by
  unfold State.unsettlePools
  try dsimp only
  repeat' first
    | with_reducible assumption
    | with_reducible apply supKept_beginRecount
    | with_reducible apply supKept_modPrin
    | with_reducible apply supKept_recompute
    | split
    | with_reducible refine supKept_foldl _ _ (fun _ _ _ => ?_) ?_
    | (simp only [supKept_mk]; with_reducible assumption)
    | (simp only [supKept_mk])

theorem supKept_endPrincipalError {s : State} (id : Nat) (changed : Bool) (hb : supKept u0 s.sup) : supKept u0 (State.endPrincipalError s id changed).sup := by
  unfold State.endPrincipalError
  try dsimp only
  repeat' first
    | with_reducible assumption
    | with_reducible apply supKept_advance
    | with_reducible apply supKept_evalGrace
    | with_reducible apply supKept_makeUnsettled
    | with_reducible apply supKept_modPrin
    | with_reducible apply supKept_raise
    | with_reducible apply supKept_recompute
    | split
    | (simp only [supKept_mk]; with_reducible assumption)
    | (simp only [supKept_mk])

theorem supKept_vacate {s : State} (n : Nat) (hb : supKept u0 s.sup) : supKept u0 (State.vacate s n).sup := by
  unfold State.vacate
  try dsimp only
  repeat' first
    | with_reducible assumption
    | with_reducible apply supKept_modOff
    | split
    | (simp only [supKept_mk]; with_reducible assumption)
    | (simp only [supKept_mk])

theorem supKept_foldEqual {s : State} (p : ShipPull) (idx : Nat) (hb : supKept u0 s.sup) : supKept u0 (State.foldEqual s p idx).sup := by
  unfold State.foldEqual
  repeat' first
    | with_reducible assumption
    | with_reducible apply supKept_modPat

theorem supKept_reportMismatch {s : State} (p : ShipPull) (idx : Nat) (hb : supKept u0 s.sup) : supKept u0 (State.reportMismatch s p idx).sup := by
  unfold State.reportMismatch
  repeat' first
    | with_reducible assumption
    | with_reducible apply supKept_modPat
    | with_reducible apply supKept_requestRepair

theorem supKept_withhold {s : State} (p : ShipPull) (e : ShipEntry) (hb : supKept u0 s.sup) : supKept u0 (State.withhold s p e).sup := by
  unfold State.withhold
  repeat' first
    | with_reducible assumption
    | with_reducible apply supKept_cancelRuns
    | with_reducible apply supKept_modEntry
    | with_reducible apply supKept_modOff
    | with_reducible apply supKept_reportMismatch
    | split

theorem supKept_shipEqual {s : State} (p : ShipPull) (e : ShipEntry) (n : Nat) (hb : supKept u0 s.sup) : supKept u0 (State.shipEqual s p e n).sup := by
  unfold State.shipEqual
  repeat' first
    | with_reducible assumption
    | with_reducible apply supKept_freeSlot
    | with_reducible apply supKept_makeFull
    | with_reducible apply supKept_modEntry
    | with_reducible apply supKept_takeBack
    | split

theorem supKept_shipChunk {s : State} (num idx : Nat) (data : List Byte) (hb : supKept u0 s.sup) : supKept u0 (State.shipChunk s num idx data).sup := by
  unfold State.shipChunk
  try dsimp only
  repeat' first
    | with_reducible assumption
    | with_reducible apply supKept_fill
    | with_reducible apply supKept_foldEqual
    | with_reducible apply supKept_freeSlot
    | with_reducible apply supKept_shipEqual
    | with_reducible apply supKept_withhold
    | split

theorem supKept_verifyChunk {s : State} (i idx : Nat) (data : List Byte) (hb : supKept u0 s.sup) : supKept u0 (State.verifyChunk s i idx data).sup := by
  unfold State.verifyChunk
  repeat' first
    | with_reducible assumption
    | with_reducible apply supKept_modItem
    | split

theorem supKept_notReceived {s : State} (p : ShipPull) (cause : PullCause) (e : ShipEntry) (hb : supKept u0 s.sup) : supKept u0 (State.notReceived s p cause e).sup := by
  unfold State.notReceived
  repeat' first
    | with_reducible assumption
    | with_reducible apply supKept_modEntry
    | with_reducible apply supKept_withhold
    | split

theorem supKept_pullEnded {s : State} (num : Nat) (cause : PullCause) (hb : supKept u0 s.sup) : supKept u0 (State.pullEnded s num cause).sup := by
  unfold State.pullEnded
  try dsimp only
  repeat' first
    | with_reducible assumption
    | with_reducible apply supKept_damageEntries
    | with_reducible apply supKept_freeEntrySlots
    | with_reducible apply supKept_freeSlotsIf
    | with_reducible apply supKept_modOff
    | with_reducible apply supKept_notReceived
    | split
    | with_reducible refine supKept_foldl _ _ (fun _ _ _ => ?_) ?_
    | (simp only [supKept_mk]; with_reducible assumption)
    | (simp only [supKept_mk])

theorem supKept_tellFailure {s : State} (who : Issuer) (cause : PullCause) (hb : supKept u0 s.sup) : supKept u0 (State.tellFailure s who cause).sup := by
  unfold State.tellFailure
  repeat' first
    | with_reducible assumption
    | with_reducible apply supKept_fixEnded
    | with_reducible apply supKept_pullEnded
    | with_reducible apply supKept_stepDirectiveFailed
    | with_reducible apply supKept_verifyEnded
    | split

theorem supKept_failDirective {s : State} (l : Link) (d : Directive) (cause : PullCause) (hb : supKept u0 s.sup) : supKept u0 (State.failDirective s l d cause).sup := by
  unfold State.failDirective
  try dsimp only
  repeat' first
    | with_reducible assumption
    | with_reducible apply supKept_decRefs
    | with_reducible apply supKept_endDirective
    | with_reducible apply supKept_freeAllOf
    | with_reducible apply supKept_tellFailure
    | split
    | (simp only [supKept_mk]; with_reducible assumption)
    | (simp only [supKept_mk])

theorem supKept_resetLink {s : State} (l : Link) (keepUp : Bool) (hb : supKept u0 s.sup) : supKept u0 (State.resetLink s l keepUp).sup := by
  unfold State.resetLink
  try dsimp only
  repeat' first
    | with_reducible assumption
    | with_reducible apply supKept_failDirective
    | with_reducible apply supKept_modRst
    | with_reducible apply supKept_sendDues
    | with_reducible apply supKept_unsendDues
    | split
    | with_reducible refine supKept_foldl _ _ (fun _ _ _ => ?_) ?_
    | with_reducible refine supKept_modLink _ _ ?_
    | (simp only [supKept_mk]; with_reducible assumption)
    | (simp only [supKept_mk])

theorem supKept_finish {s : State} (hb : supKept u0 s.sup) : supKept u0 (State.finish s).sup := by
  unfold State.finish
  repeat' first
    | with_reducible assumption
    | with_reducible apply supKept_advance
    | with_reducible apply supKept_settle
    | split

theorem supKept_countDiscard {s : State} (l : Link) (hb : supKept u0 s.sup) : supKept u0 (State.countDiscard s l).sup := by
  unfold State.countDiscard
  repeat' first
    | with_reducible assumption
    | with_reducible refine supKept_modLink _ _ ?_

theorem supKept_badFrame {s : State} (l : Link) (hb : supKept u0 s.sup) : supKept u0 (State.badFrame s l).sup := by
  unfold State.badFrame
  try dsimp only
  repeat' first
    | with_reducible assumption
    | with_reducible apply supKept_countDiscard
    | with_reducible apply supKept_resetLink
    | split
    | with_reducible refine supKept_modLink _ _ ?_

theorem supKept_recall {s : State} (l : Link) (d : Directive) (hb : supKept u0 s.sup) : supKept u0 (State.recall s l d).sup := by
  unfold State.recall
  try dsimp only
  repeat' first
    | with_reducible assumption
    | with_reducible apply supKept_decRefs
    | with_reducible apply supKept_endDirective
    | with_reducible apply supKept_freeAllOf
    | with_reducible apply supKept_modRepair
    | with_reducible apply supKept_modStep
    | with_reducible apply supKept_progress
    | split
    | with_reducible refine supKept_modLink _ _ ?_
    | (simp only [supKept_mk]; with_reducible assumption)
    | (simp only [supKept_mk])

theorem supKept_transmit {s : State} (l : Link) (hb : supKept u0 s.sup) : supKept u0 (State.transmit s l).sup := by
  unfold State.transmit
  repeat' first
    | with_reducible assumption
    | with_reducible apply supKept_send
    | split
    | with_reducible refine supKept_modLink _ _ ?_

theorem supKept_transmitHalted {s : State} (l : Link) (hb : supKept u0 s.sup) : supKept u0 (State.transmitHalted s l).sup := by
  unfold State.transmitHalted
  repeat' first
    | with_reducible assumption
    | with_reducible apply supKept_send
    | split
    | with_reducible refine supKept_modLink _ _ ?_

theorem supKept_deliverStartup {s : State} (l : Link) (classes : List Nat) (hb : supKept u0 s.sup) : supKept u0 (State.deliverStartup s l classes).sup := by
  unfold State.deliverStartup
  repeat' first
    | with_reducible assumption
    | split
    | with_reducible refine supKept_foldl _ _ (fun _ _ _ => ?_) ?_
    | with_reducible refine supKept_modLink _ _ ?_

theorem supKept_proceed {s : State} (num : Nat) (hb : supKept u0 s.sup) : supKept u0 (State.proceed s num).sup := by
  unfold State.proceed
  try dsimp only
  repeat' first
    | with_reducible assumption
    | with_reducible apply supKept_calculate
    | with_reducible apply supKept_runOp
    | split
    | (simp only [supKept_mk]; with_reducible assumption)
    | (simp only [supKept_mk])

theorem supKept_drain {s : State} (hb : supKept u0 s.sup) : supKept u0 (State.drain s).sup := by
  unfold State.drain
  repeat' first
    | with_reducible assumption
    | with_reducible apply supKept_storeClean
    | split

theorem supKept_endRecount {s : State} (pool : Nat) (hb : supKept u0 s.sup) : supKept u0 (State.endRecount s pool).sup := by
  unfold State.endRecount
  repeat' first
    | with_reducible assumption
    | with_reducible apply supKept_evalGrace
    | with_reducible apply supKept_lazyExpire
    | with_reducible apply supKept_modPrin
    | with_reducible apply supKept_storeClean

theorem supKept_stage {s : State} (l : Link) (r : Nat) (held : List Staged) (c : Staged) (hb : supKept u0 s.sup) : supKept u0 (State.stage s l r held c).sup := by
  unfold State.stage
  repeat' first
    | with_reducible assumption
    | with_reducible apply supKept_reply
    | split
    | with_reducible refine supKept_modLink _ _ ?_

theorem supKept_abandonRewritten {s : State} (vol ext : Nat) (old : Option Version) (hb : supKept u0 s.sup) : supKept u0 (State.abandonRewritten s vol ext old).sup := by
  unfold State.abandonRewritten
  repeat' first
    | with_reducible assumption
    | with_reducible apply supKept_abandonIf
    | split

theorem supKept_dropExtents {s : State} (vol : Nat) (hb : supKept u0 s.sup) : supKept u0 (State.dropExtents s vol).sup := by
  unfold State.dropExtents
  with_reducible assumption

theorem supKept_discardRepair {s : State} (n : Nat) (hb : supKept u0 s.sup) : supKept u0 (State.discardRepair s n).sup := by
  unfold State.discardRepair
  repeat' first
    | with_reducible assumption
    | with_reducible apply supKept_abandonRepair
    | with_reducible apply supKept_closeRepair
    | with_reducible apply supKept_modOff

theorem supKept_forgetVolume {s : State} (vol : Nat) (hb : supKept u0 s.sup) : supKept u0 (State.forgetVolume s vol).sup := by
  unfold State.forgetVolume
  repeat' first
    | with_reducible assumption
    | with_reducible apply supKept_cancelRuns
    | with_reducible apply supKept_discardRepair
    | with_reducible apply supKept_freeEntrySlots
    | with_reducible apply supKept_leaveItem
    | with_reducible apply supKept_modOff
    | with_reducible apply supKept_modPat
    | with_reducible refine supKept_foldl _ _ (fun _ _ _ => ?_) ?_

theorem supKept_dropCursors {s : State} (vol : Nat) (hb : supKept u0 s.sup) : supKept u0 (State.dropCursors s vol).sup := by
  unfold State.dropCursors
  try dsimp only
  repeat' first
    | with_reducible assumption
    | split
    | with_reducible refine supKept_foldl _ _ (fun _ _ _ => ?_) ?_
    | with_reducible refine supKept_modLink _ _ ?_
    | (simp only [supKept_mk]; with_reducible assumption)
    | (simp only [supKept_mk])

theorem supKept_detach {s : State} (vol : Nat) (hb : supKept u0 s.sup) : supKept u0 (State.detach s vol).sup := by
  unfold State.detach
  try dsimp only
  repeat' first
    | with_reducible assumption
    | with_reducible apply supKept_dropCursors
    | with_reducible apply supKept_dropExtents
    | with_reducible apply supKept_forgetVolume
    | split
    | (simp only [supKept_mk]; with_reducible assumption)
    | (simp only [supKept_mk])

theorem supKept_cut {s : State} (vol gen : Nat) (k : SnapKind) (hb : supKept u0 s.sup) : supKept u0 (State.cut s vol gen k).sup := by
  unfold State.cut
  repeat' first
    | with_reducible assumption
    | with_reducible apply supKept_closeDue
    | with_reducible apply supKept_joinPlan
    | with_reducible apply supKept_modVolume
    | with_reducible apply supKept_retain
    | split

theorem supKept_waitSweep {s : State} (key : Nat) (hb : supKept u0 s.sup) : supKept u0 (State.waitSweep s key).sup := by
  unfold State.waitSweep
  repeat' first
    | with_reducible assumption
    | split

theorem supKept_leaveSweep {s : State} (key : Nat) (hb : supKept u0 s.sup) : supKept u0 (State.leaveSweep s key).sup := by
  unfold State.leaveSweep
  with_reducible assumption

theorem supKept_endExpiry {s : State} (vol gen : Nat) (hb : supKept u0 s.sup) : supKept u0 (State.endExpiry s vol gen).sup := by
  unfold State.endExpiry
  repeat' first
    | with_reducible assumption
    | with_reducible apply supKept_modSnapshot
    | split

theorem supKept_moveExpiry {s : State} (vol gen cursor count : Nat) (hb : supKept u0 s.sup) : supKept u0 (State.moveExpiry s vol gen cursor count).sup := by
  unfold State.moveExpiry
  repeat' first
    | with_reducible assumption
    | with_reducible apply supKept_endExpiry
    | with_reducible apply supKept_modSnapshot
    | split

theorem supKept_take {s : State} (l : Link) (req : Nat) (hb : supKept u0 s.sup) : supKept u0 (State.take s l req).sup := by
  unfold State.take
  repeat' first
    | with_reducible assumption
    | with_reducible refine supKept_modLink _ _ ?_

theorem supKept_doneAnswer {s : State} (l : Link) (tag loc : Nat) (k : DirKind) (hb : supKept u0 s.sup) : supKept u0 (State.doneAnswer s l tag loc k).sup := by
  unfold State.doneAnswer
  repeat' first
    | with_reducible assumption
    | with_reducible apply supKept_completeStep
    | with_reducible apply supKept_decRefs
    | with_reducible apply supKept_endDirective
    | with_reducible apply supKept_freeAllOf
    | with_reducible apply supKept_handNotice
    | split

theorem supKept_failAnswer {s : State} (l : Link) (tag : Nat) (k : DirKind) (hb : supKept u0 s.sup) : supKept u0 (State.failAnswer s l tag k).sup := by
  unfold State.failAnswer
  repeat' first
    | with_reducible assumption
    | with_reducible apply supKept_failDirective
    | split

theorem supKept_transmitted {s : State} (seq : Nat) (hb : supKept u0 s.sup) : supKept u0 (State.transmitted s seq).sup := by
  unfold State.transmitted
  repeat' first
    | with_reducible assumption
    | with_reducible apply supKept_freeSlot
    | with_reducible apply supKept_modSlot
    | split

theorem supKept_startRun {s : State} (hb : supKept u0 s.sup) : supKept u0 (State.startRun s).sup := by
  unfold State.startRun
  repeat' first
    | with_reducible assumption
    | with_reducible apply supKept_askSlots
    | with_reducible apply supKept_modOff
    | split

theorem supKept_issuePull {s : State} (p : ShipPull) (l : Link) (hb : supKept u0 s.sup) : supKept u0 (State.issuePull s p l).sup := by
  unfold State.issuePull
  repeat' first
    | with_reducible assumption
    | with_reducible apply supKept_cancelRun
    | with_reducible apply supKept_failVolume
    | with_reducible apply supKept_handDirective
    | with_reducible apply supKept_modOff
    | with_reducible apply supKept_waitPlace
    | (with_reducible refine supKept_incRef _ _ _ ?_ (by assumption))
    | split

theorem supKept_placeChunk {s : State} (d : Directive) (idx : Nat) (data : List Byte) (hb : supKept u0 s.sup) : supKept u0 (State.placeChunk s d idx data).sup := by
  unfold State.placeChunk
  repeat' first
    | with_reducible assumption
    | with_reducible apply supKept_shipChunk
    | with_reducible apply supKept_verifyChunk
    | split

theorem supKept_pullAnswer {s : State} (l : Link) (tag : Nat) (cause : PullCause) (hb : supKept u0 s.sup) : supKept u0 (State.pullAnswer s l tag cause).sup := by
  unfold State.pullAnswer
  repeat' first
    | with_reducible assumption
    | with_reducible apply supKept_failDirective
    | split

theorem supKept_sendSlot {s : State} (e : ShipEntry) (num : Nat) (hb : supKept u0 s.sup) : supKept u0 (State.sendSlot s e num).sup := by
  unfold State.sendSlot
  repeat' first
    | with_reducible assumption
    | with_reducible apply supKept_modSlot
    | split

theorem supKept_meetPlainSlot {s : State} (n : Nat) (hb : supKept u0 s.sup) :
    supKept u0 (s.meet (.slot n)).sup := by
  unfold State.meet
  dsimp only
  repeat' first
    | with_reducible assumption
    | with_reducible apply supKept_raise
    | with_reducible apply supKept_handBack
    | with_reducible apply supKept_vacate
    | with_reducible apply supKept_freeSlot
    | with_reducible apply supKept_stepFetched
    | with_reducible apply supKept_checkRepair
    | with_reducible apply supKept_repairFetched
    | split

theorem supKept_cutShort {s : State} (e : ShipEntry) (hb : supKept u0 s.sup) :
    supKept u0 (State.cutShort s e).sup := by
  unfold State.cutShort
  split
  · exact supKept_meetPlainSlot _ hb
  · exact hb

theorem supKept_resend (errs : List StoreError) {s : State} (f : OutFrame) (hb : supKept u0 s.sup) : supKept u0 (State.resend errs s f).sup := by
  unfold State.resend
  try dsimp only
  repeat' first
    | with_reducible assumption
    | with_reducible apply supKept_cutShort
    | with_reducible apply supKept_modSlot
    | with_reducible apply supKept_send
    | split
    | (simp only [supKept_mk]; with_reducible assumption)
    | (simp only [supKept_mk])

theorem supKept_fillVacant {s : State} (f : OutFrame) (e : ShipEntry) (errs : List StoreError) (hb : supKept u0 s.sup) : supKept u0 (State.fillVacant s f e errs).sup := by
  unfold State.fillVacant
  try dsimp only
  repeat' first
    | with_reducible assumption
    | with_reducible apply supKept_cutShort
    | with_reducible apply supKept_modEntry
    | with_reducible apply supKept_modOff
    | with_reducible apply supKept_send
    | with_reducible apply supKept_sendSlot
    | split
    | (simp only [supKept_mk]; with_reducible assumption)
    | (simp only [supKept_mk])

theorem supKept_shipEntry {s : State} (e : ShipEntry) (errs : List StoreError) (hb : supKept u0 s.sup) : supKept u0 (State.shipEntry s e errs).sup := by
  unfold State.shipEntry
  try dsimp only
  repeat' first
    | with_reducible assumption
    | with_reducible apply supKept_cutShort
    | with_reducible apply supKept_joinShip
    | with_reducible apply supKept_modEntry
    | with_reducible apply supKept_send
    | with_reducible apply supKept_sendSlot
    | split
    | (simp only [supKept_mk]; with_reducible assumption)
    | (simp only [supKept_mk])

theorem supKept_shipNext {s : State} (errs : List StoreError) (hb : supKept u0 s.sup) : supKept u0 (State.shipNext s errs).sup := by
  unfold State.shipNext
  try dsimp only
  repeat' first
    | with_reducible assumption
    | with_reducible apply supKept_fillVacant
    | with_reducible apply supKept_shipEntry
    | split
    | (simp only [supKept_mk]; with_reducible assumption)
    | (simp only [supKept_mk])

theorem supKept_abandonFrames {s : State} (hb : supKept u0 s.sup) : supKept u0 (State.abandonFrames s).sup := by
  unfold State.abandonFrames
  try dsimp only
  repeat' first
    | with_reducible assumption
    | with_reducible apply supKept_askOpening
    | with_reducible apply supKept_closeLink
    | with_reducible apply supKept_freeSlotsIf
    | with_reducible apply supKept_giveBack
    | with_reducible apply supKept_modOff
    | split
    | with_reducible refine supKept_foldl _ _ (fun _ _ _ => ?_) ?_

theorem supKept_downInStandby {s : State} (hb : supKept u0 s.sup) : supKept u0 (State.downInStandby s).sup := by
  unfold State.downInStandby
  repeat' first
    | with_reducible assumption
    | with_reducible apply supKept_modOff
    | split

theorem supKept_openExpired {s : State} (opens : Nat) (hb : supKept u0 s.sup) : supKept u0 (State.openExpired s opens).sup := by
  unfold State.openExpired
  repeat' first
    | with_reducible assumption
    | with_reducible apply supKept_fault
    | with_reducible apply supKept_modOff
    | with_reducible apply supKept_send
    | split

theorem supKept_listExpired {s : State} (errs : List StoreError) (hb : supKept u0 s.sup) : supKept u0 (State.listExpired s errs).sup := by
  unfold State.listExpired
  repeat' first
    | with_reducible assumption
    | with_reducible apply supKept_closeLink
    | with_reducible apply supKept_fault
    | with_reducible apply supKept_giveBackAll
    | with_reducible apply supKept_modOff
    | with_reducible apply supKept_resend
    | split
    | with_reducible refine supKept_foldl _ _ (fun _ _ _ => ?_) ?_

theorem supKept_setList {s : State} (fs : List OutFrame) (hb : supKept u0 s.sup) : supKept u0 (State.setList s fs).sup := by
  unfold State.setList
  repeat' first
    | with_reducible assumption
    | with_reducible apply supKept_modOff

theorem supKept_coverSlot {s : State} (e : ShipEntry) (hb : supKept u0 s.sup) : supKept u0 (State.coverSlot s e).sup := by
  unfold State.coverSlot
  repeat' first
    | with_reducible assumption
    | with_reducible apply supKept_freeSlot
    | with_reducible apply supKept_modSlot
    | split

theorem supKept_ackEntry {s : State} (e : ShipEntry) (hb : supKept u0 s.sup) : supKept u0 (State.ackEntry s e).sup := by
  unfold State.ackEntry
  repeat' first
    | with_reducible assumption
    | with_reducible apply supKept_coverSlot
    | with_reducible apply supKept_modOff
    | with_reducible apply supKept_modPlan
    | with_reducible apply supKept_setShipped
    | split

theorem supKept_coverFrame {s : State} (f : OutFrame) (hb : supKept u0 s.sup) : supKept u0 (State.coverFrame s f).sup := by
  unfold State.coverFrame
  repeat' first
    | with_reducible assumption
    | with_reducible apply supKept_ackEntry
    | split

theorem supKept_ack {s : State} (n : Nat) (hb : supKept u0 s.sup) : supKept u0 (State.ack s n).sup := by
  unfold State.ack
  try dsimp only
  repeat' first
    | with_reducible assumption
    | with_reducible apply supKept_coverFrame
    | with_reducible apply supKept_progress
    | with_reducible apply supKept_setList
    | split
    | with_reducible refine supKept_foldl _ _ (fun _ _ _ => ?_) ?_

theorem supKept_answerControl {s : State} (p : Control → Bool) (hb : supKept u0 s.sup) : supKept u0 (State.answerControl s p).sup := by
  unfold State.answerControl
  repeat' first
    | with_reducible assumption
    | with_reducible apply supKept_modOff
    | with_reducible apply supKept_progress
    | with_reducible apply supKept_setList
    | split

theorem supKept_completeVolume {s : State} (vol target : Nat) (hb : supKept u0 s.sup) : supKept u0 (State.completeVolume s vol target).sup := by
  unfold State.completeVolume
  repeat' first
    | with_reducible assumption
    | with_reducible apply supKept_dropShipPins
    | with_reducible apply supKept_modOff
    | with_reducible apply supKept_modPlan
    | with_reducible apply supKept_modSnapshot
    | with_reducible apply supKept_modVolume
    | split

theorem supKept_dropAcked {s : State} (vol gen : Nat) (hb : supKept u0 s.sup) : supKept u0 (State.dropAcked s vol gen).sup := by
  unfold State.dropAcked
  repeat' first
    | with_reducible assumption
    | with_reducible apply supKept_modSnapshot
    | with_reducible apply supKept_retain
    | split

theorem supKept_withdrawFrame {s : State} (f : OutFrame) (reason : Nat) (hb : supKept u0 s.sup) : supKept u0 (State.withdrawFrame s f reason).sup := by
  unfold State.withdrawFrame
  repeat' first
    | with_reducible assumption
    | with_reducible apply supKept_failVolume
    | with_reducible apply supKept_freeEntrySlots
    | with_reducible apply supKept_modOff
    | with_reducible apply supKept_raise
    | with_reducible apply supKept_setList
    | split

theorem supKept_nak {s : State} (n reason : Nat) (errs : List StoreError) (hb : supKept u0 s.sup) : supKept u0 (State.nak s n reason errs).sup := by
  unfold State.nak
  repeat' first
    | with_reducible assumption
    | with_reducible apply supKept_modOff
    | with_reducible apply supKept_resend
    | with_reducible apply supKept_withdrawFrame
    | split

theorem supKept_serveHead {s : State} (hb : supKept u0 s.sup) : supKept u0 (State.serveHead s).sup := by
  unfold State.serveHead
  try dsimp only
  repeat' first
    | with_reducible assumption
    | with_reducible apply supKept_askSlots
    | split

theorem supKept_tellFetch {s : State} (e : FetchEntry) (a : ChunkAnswer) (hb : supKept u0 s.sup) : supKept u0 (State.tellFetch s e a).sup := by
  unfold State.tellFetch
  repeat' first
    | with_reducible assumption
    | with_reducible apply supKept_checkRepair
    | with_reducible apply supKept_repairFetched
    | with_reducible apply supKept_stepFetched
    | split

theorem supKept_answerFetch {s : State} (f : OutFrame) (hb : supKept u0 s.sup) : supKept u0 (State.answerFetch s f).sup := by
  unfold State.answerFetch
  repeat' first
    | with_reducible assumption
    | with_reducible apply supKept_progress
    | with_reducible apply supKept_setList

theorem supKept_fetchChunk {s : State} (e : FetchEntry) (i : Nat) (data : List Byte) (hb : supKept u0 s.sup) : supKept u0 (State.fetchChunk s e i data).sup := by
  unfold State.fetchChunk
  repeat' first
    | with_reducible assumption
    | with_reducible apply supKept_fill
    | with_reducible apply supKept_freeSlot
    | with_reducible apply supKept_makeFull
    | with_reducible apply supKept_tellFetch
    | split

theorem supKept_fetchNone {s : State} (e : FetchEntry) (hb : supKept u0 s.sup) : supKept u0 (State.fetchNone s e).sup := by
  unfold State.fetchNone
  repeat' first
    | with_reducible assumption
    | with_reducible apply supKept_freeFilling
    | with_reducible apply supKept_tellFetch

theorem supKept_placeItem (vol ext : Nat) {s : State} (v : Version) (hb : supKept u0 s.sup) : supKept u0 (State.placeItem vol ext s v).sup := by
  unfold State.placeItem
  repeat' first
    | with_reducible assumption
    | with_reducible apply supKept_decideItem
    | with_reducible apply supKept_modPat

theorem supKept_visitVersions {s : State} (vol ext : Nat) (hb : supKept u0 s.sup) : supKept u0 (State.visitVersions s vol ext).sup := by
  unfold State.visitVersions
  repeat' first
    | with_reducible assumption
    | with_reducible apply supKept_placeItem
    | with_reducible apply supKept_setVerified
    | with_reducible refine supKept_foldl _ _ (fun _ _ _ => ?_) ?_

theorem supKept_patrolVisit {s : State} (hb : supKept u0 s.sup) : supKept u0 (State.patrolVisit s).sup := by
  unfold State.patrolVisit
  try dsimp only
  repeat' first
    | with_reducible assumption
    | with_reducible apply supKept_modPat
    | with_reducible apply supKept_modVolume
    | with_reducible apply supKept_visitVersions
    | split

theorem supKept_issueVerify {s : State} (w : WorkItem) (l : Link) (hb : supKept u0 s.sup) : supKept u0 (State.issueVerify s w l).sup := by
  unfold State.issueVerify
  repeat' first
    | with_reducible assumption
    | with_reducible apply supKept_handDirective
    | with_reducible apply supKept_leaveItem
    | with_reducible apply supKept_modItem
    | with_reducible apply supKept_waitPlace
    | (with_reducible refine supKept_incRef _ _ _ ?_ (by assumption))
    | split

theorem supKept_markFixing {s : State} (n : Nat) (idxs : List Nat) (hb : supKept u0 s.sup) : supKept u0 (State.markFixing s n idxs).sup := by
  unfold State.markFixing
  repeat' first
    | with_reducible assumption
    | with_reducible apply supKept_modRepair

theorem supKept_fixData {s : State} (n idx : Nat) (r : Repair) (l : Link) (idxs : List Nat) (hb : supKept u0 s.sup) : supKept u0 (State.fixData s n idx r l idxs).sup := by
  unfold State.fixData
  repeat' first
    | with_reducible assumption
    | with_reducible apply supKept_abandonRepair
    | with_reducible apply supKept_handDirective
    | with_reducible apply supKept_markFixing
    | with_reducible apply supKept_setSlots
    | (with_reducible refine supKept_incRef _ _ _ ?_ (by assumption))
    | split

theorem supKept_fixTwin {s : State} (n idx : Nat) (r : Repair) (l : Link) (twin : Nat) (hb : supKept u0 s.sup) : supKept u0 (State.fixTwin s n idx r l twin).sup := by
  unfold State.fixTwin
  repeat' first
    | with_reducible assumption
    | with_reducible apply supKept_abandonRepair
    | with_reducible apply supKept_chunkOffsite
    | with_reducible apply supKept_decRef
    | with_reducible apply supKept_handDirective
    | with_reducible apply supKept_markFixing
    | (with_reducible refine supKept_incRef _ _ _ ?_ (by assumption))
    | split

theorem supKept_fixChunk {s : State} (n idx : Nat) (r : Repair) (l : Link) (hb : supKept u0 s.sup) : supKept u0 (State.fixChunk s n idx r l).sup := by
  unfold State.fixChunk
  repeat' first
    | with_reducible assumption
    | with_reducible apply supKept_chunkOffsite
    | with_reducible apply supKept_fixData
    | with_reducible apply supKept_fixTwin
    | with_reducible apply supKept_waitPlace
    | split

theorem supKept_fixWhole {s : State} (n : Nat) (r : Repair) (l : Link) (hb : supKept u0 s.sup) : supKept u0 (State.fixWhole s n r l).sup := by
  unfold State.fixWhole
  repeat' first
    | with_reducible assumption
    | with_reducible apply supKept_fixData
    | with_reducible apply supKept_waitPlace
    | split

theorem supKept_fixDone {s : State} (l : Link) (tag : Nat) (hb : supKept u0 s.sup) : supKept u0 (State.fixDone s l tag).sup := by
  unfold State.fixDone
  repeat' first
    | with_reducible assumption
    | with_reducible apply supKept_decRefs
    | with_reducible apply supKept_endDirective
    | with_reducible apply supKept_fixEnded
    | split

theorem supKept_readTable {s : State} (l : Link) (q : Nat) (t : TableName) (start count : Nat) (ks : List Nat) (hb : supKept u0 s.sup) : supKept u0 (State.readTable s l q t start count ks).sup := by
  unfold State.readTable
  try dsimp only
  repeat' first
    | with_reducible assumption
    | with_reducible apply supKept_reply
    | split
    | with_reducible refine supKept_modLink _ _ ?_
    | (simp only [supKept_mk]; with_reducible assumption)
    | (simp only [supKept_mk])

theorem supKept_clearCounts {s : State} (hb : supKept u0 s.sup) : supKept u0 (State.clearCounts s).sup := by
  unfold State.clearCounts
  repeat' first
    | with_reducible assumption
    | with_reducible refine supKept_foldl _ _ (fun _ _ _ => ?_) ?_
    | with_reducible refine supKept_modLink _ _ ?_
    | ((with_reducible refine supKept_modSup _ ?_ ?_); exact fun _ hs => hs)

theorem supKept_applyEdit {s : State} (id : Nat) (c : EditChanges) (hb : supKept u0 s.sup) : supKept u0 (State.applyEdit s id c).sup := by
  unfold State.applyEdit
  try dsimp only
  repeat' first
    | with_reducible assumption
    | with_reducible apply supKept_evalGrace
    | with_reducible apply supKept_lazyExpire
    | with_reducible apply supKept_regatherIf
    | with_reducible apply supKept_stage
    | with_reducible apply supKept_writeEdit
    | split
    | (simp only [supKept_mk]; with_reducible assumption)
    | (simp only [supKept_mk])

theorem supKept_walkFlags {s : State} (hb : supKept u0 s.sup) : supKept u0 (State.walkFlags s).sup := by
  unfold State.walkFlags
  with_reducible assumption

theorem supKept_walkPools {s : State} (hb : supKept u0 s.sup) : supKept u0 (State.walkPools s).sup := by
  unfold State.walkPools
  with_reducible assumption

theorem supKept_failLoading {s : State} (rec : Nat) (hb : supKept u0 s.sup) : supKept u0 (State.failLoading s rec).sup := by
  unfold State.failLoading
  repeat' first
    | with_reducible assumption
    | with_reducible apply supKept_modRestore
    | with_reducible apply supKept_powerFail

theorem supKept_offsiteHoldup {s : State} (hb : supKept u0 s.sup) : supKept u0 (State.offsiteHoldup s).sup := by
  unfold State.offsiteHoldup
  repeat' first
    | with_reducible assumption
    | with_reducible apply supKept_cancelRuns
    | with_reducible apply supKept_giveBackAll
    | with_reducible apply supKept_modOff
    | with_reducible apply supKept_send
    | split

theorem supKept_streamHoldup {s : State} (hb : supKept u0 s.sup) : supKept u0 (State.streamHoldup s).sup := by
  unfold State.streamHoldup
  repeat' first
    | with_reducible assumption
    | with_reducible apply supKept_freeSlotsIf

theorem supKept_patrolHoldup {s : State} (hb : supKept u0 s.sup) : supKept u0 (State.patrolHoldup s).sup := by
  unfold State.patrolHoldup
  repeat' first
    | with_reducible assumption
    | with_reducible apply supKept_leaveItem
    | with_reducible apply supKept_modPat
    | with_reducible refine supKept_foldl _ _ (fun _ _ _ => ?_) ?_
    | with_reducible refine supKept_modLink _ _ ?_

theorem supKept_clearMarkers {s : State} (hb : supKept u0 s.sup) : supKept u0 (State.clearMarkers s).sup := by
  unfold State.clearMarkers
  try dsimp only
  repeat' first
    | with_reducible assumption
    | split
    | (simp only [supKept_mk]; with_reducible assumption)
    | (simp only [supKept_mk])

theorem supKept_offsiteStandby {s : State} (hb : supKept u0 s.sup) : supKept u0 (State.offsiteStandby s).sup := by
  unfold State.offsiteStandby
  try dsimp only
  repeat' first
    | with_reducible assumption
    | with_reducible apply supKept_cancelRuns
    | with_reducible apply supKept_freeFullShip
    | with_reducible apply supKept_leaveUp
    | with_reducible apply supKept_modOff
    | split

theorem supKept_patrolStandby {s : State} (hb : supKept u0 s.sup) : supKept u0 (State.patrolStandby s).sup := by
  unfold State.patrolStandby
  repeat' first
    | with_reducible assumption
    | with_reducible apply supKept_freeAllOf
    | with_reducible apply supKept_leavePlaces
    | with_reducible apply supKept_modItem
    | with_reducible apply supKept_withdrawAsk
    | with_reducible refine supKept_foldl _ _ (fun _ _ _ => ?_) ?_
    | with_reducible refine supKept_modLink _ _ ?_

theorem supKept_cancelAll {s : State} (hb : supKept u0 s.sup) : supKept u0 (State.cancelAll s).sup :=
  supKept_foldl _ _ (fun _ r h => supKept_cancelRestore r h) hb

end Sys2Proof.Machine
end

