-- ==== Sys2Proof/WellFormed.lean ====
section
/-! DEFINITION. Well-formed commands: every operand fits the field that carries it, for the fields whose
size the spec gives (Tables 10-1, 10-3, 8-2), and the frames of the three frame commands are ones
their row speaks of (R142, R171). -/

namespace Sys2Proof

open Machine

/-- A frame tag: 2 bytes (Table 10-1). -/
def tagFits (tag : Nat) : Bool := decide (tag < 65536)

/-- An offsite sequence or request number: 2 bytes (Table 8-2). -/
def numberFits (n : Nat) : Bool := decide (n < 65536)

/-- A location handle: 48 bits (Table 0-3). -/
def locationFits (loc : Nat) : Bool := decide (loc < 281474976710656)

/-- The operands of an Admit (Table 10-3). -/
def admitFits (principal n q : Nat) : Bool :=
  decide (principal < 16777216) && decide (n < 16777216) && decide (q < 65536)

/-- The operands of a Commit (Table 10-3); codes come 16 together. -/
def commitFits (vol ext owner loc occ : Nat) (codes : Option (List Code)) : Bool :=
  decide (vol < 256) && decide (ext < 16777216) && decide (owner < 16777216) && locationFits loc &&
    decide (occ < 65536) &&
    (match codes with
     | some cs => decide (cs.length = 16)
     | none => true)

/-- A chunk as a frame carries it: an index of 1 byte and 262,144 bytes (Table 10-3). -/
def chunkFits (idx : Nat) (data : List Byte) : Bool := decide (idx < 256) && decide (data.length = chunkBytes)

/-- Bytes that R171 discards. -/
def isDiscarded (frame : List Byte) : Bool :=
  match parseFrame frame with
  | .good f =>
    (match f.classify with
     | .badFlags => true
     | .answer known => !known
     | .request _ => false)
  | _ => true

/-- A request that R171 answers MALFORMED at its arrival. -/
def isUnfit (frame : List Byte) : Bool :=
  match parseFrame frame with
  | .good f => decide (f.classify = .request false)
  | _ => false

/-- Every operand of a command fits its field. -/
def Instr.wellFormed : Instr → Bool
  | .powerOn _ => true
  | .layoutInitialised _ => true
  | .tallyLoadingWalkEnd _ => true
  | .loadingEnd _ => true
  | .powerWarnAssert _ => true
  | .cleanShutdownWrite _ => true
  | .powerWarnDeassert _ => true
  | .serialLossOfSignal _ _ => true
  | .frameDiscard _ frame _ => isDiscarded frame
  | .unknownRequest _ frame _ => isUnfit frame
  | .linkTransmit _ _ => true
  | .linkIdle _ _ => true
  | .directiveWaitExpiry _ tag _ => tagFits tag
  | .admitReq _ tag principal n q _ _ => tagFits tag && admitFits principal n q
  | .admissionCalculation _ _ => true
  | .admitReply _ _ => true
  | .tallyFillReadEnd _ _ => true
  | .markerWriteEnd _ _ => true
  | .castoutDrain _ => true
  | .release _ tag _ _ _ => tagFits tag
  | .postingApply _ => true
  | .settle _ tag _ _ _ => tagFits tag
  | .poolRecountEnd _ _ => true
  | .principalCreate _ tag _ _ _ _ _ _ _ _ => tagFits tag
  | .principalEdit _ tag _ _ _ => tagFits tag
  | .principalDelete _ tag _ _ => tagFits tag
  | .freeze _ tag _ _ _ => tagFits tag
  | .conversion _ _ => true
  | .reservationRelease _ _ => true
  | .graceExpiry _ => true
  | .commit _ tag vol ext owner loc occ codes _ => tagFits tag && commitFits vol ext owner loc occ codes
  | .volumeAttach _ tag _ _ _ _ _ _ _ _ _ => tagFits tag
  | .attachComplete _ _ => true
  | .volumeDetach _ tag _ _ => tagFits tag
  | .cut _ tag _ _ _ => tagFits tag
  | .hourlyCutDueOpen _ => true
  | .cutWaitExpiry _ _ => true
  | .expireLocal _ tag _ _ _ => tagFits tag
  | .expirySweepVisit _ _ _ => true
  | .expireOffsite _ tag _ _ _ => tagFits tag
  | .dropSweepVisit _ _ _ => true
  | .restore _ tag _ _ => tagFits tag
  | .restoreAcceptance _ => true
  | .restoreStart _ => true
  | .stepTakeUp _ _ => true
  | .put _ _ _ => true
  | .copyDone _ tag loc _ => tagFits tag && locationFits loc
  | .copyFail _ tag _ => tagFits tag
  | .putDone _ tag loc _ => tagFits tag && locationFits loc
  | .putFail _ tag _ => tagFits tag
  | .restoreCancel _ tag _ _ => tagFits tag
  | .restoreStatus _ tag _ _ => tagFits tag
  | .slotGrant _ => true
  | .shipFrameTransmitted seq _ => numberFits seq
  | .windowOpening _ => true
  | .windowOpen _ tag _ => tagFits tag
  | .windowClose _ tag _ => tagFits tag
  | .windowClosing _ => true
  | .closeAbandon _ => true
  | .nightEnd _ => true
  | .scopeSet _ tag _ _ _ _ _ => tagFits tag
  | .countWalkVisit _ _ => true
  | .shipWalkVisit _ => true
  | .pullRun _ => true
  | .pull _ _ => true
  | .extentData _ tag idx data _ => tagFits tag && chunkFits idx data
  | .pullEnd _ tag _ => tagFits tag
  | .pullFail _ tag _ => tagFits tag
  | .ship _ => true
  | .volumeDone _ => true
  | .doneAck _ _ _ => true
  | .forecastIntervalEnd _ => true
  | .drop _ => true
  | .dropAck _ _ _ => true
  | .openAck _ => true
  | .offsiteFrameDiscard _ => true
  | .ack num _ => numberFits num
  | .nak num _ _ => numberFits num
  | .ackWaitExpiry _ => true
  | .carrierLoss _ => true
  | .reopenIntervalExpiry _ => true
  | .offsiteIdleTimeout _ => true
  | .offsiteOpen _ tag _ => tagFits tag
  | .fetchQueueServe _ => true
  | .fetchReq _ => true
  | .fetchData num data _ => numberFits num && decide (data.length = chunkBytes)
  | .fetchEmpty num _ => numberFits num
  | .fetchNone num _ _ => numberFits num
  | .patrolWalkVisit _ => true
  | .versionOverdue _ _ _ _ => true
  | .verifyingPull _ _ => true
  | .fix _ _ _ => true
  | .fixDone _ tag _ => tagFits tag
  | .fixFail _ tag _ => tagFits tag
  | .query _ tag _ _ => tagFits tag
  | .tableRead _ tag _ _ _ _ => tagFits tag
  | .tableNext _ tag _ _ => tagFits tag
  | .settingWrite _ tag _ _ => tagFits tag
  | .holdBegin _ tag _ => tagFits tag
  | .holdRelease _ tag _ => tagFits tag
  | .holdAbandon _ tag _ => tagFits tag
  | .standbyEnter _ tag _ => tagFits tag
  | .quietReported => true
  | .standbyExit _ tag _ => tagFits tag
  | .clear _ tag _ => tagFits tag
  | .timeSet _ tag _ _ => tagFits tag
  | .statusQuery _ tag _ => tagFits tag
  | .statusClear _ tag _ => tagFits tag
  | .subscribe _ tag _ _ => tagFits tag
  | .reset _ tag _ => tagFits tag
  | .inPlaceWriteEnd _ _ => true

end Sys2Proof
end

