-- ==== Sys2Proof/Tests/Slice0.lean ====
section
/-! SUPPORT. Tests: the checks of well-formed operands, commands on small states against what the rules say,
and for each statement with hypotheses a state that meets them. -/

namespace Sys2Proof.Tests

open Sys2Proof.Machine

/-! ### Small states -/

/-- An UP link at power-on otherwise. -/
def upLink : LinkRec := { LinkRec.initial with up := true }

/-- The part in ACTIVE, its links UP, the clock set and at a whole hour. -/
def base : State :=
  { State.reset with
    sup := { Supervisor.initial with
      op := .active, stage := .walked, layout := .matching, clock := 7200, clockSet := true, elapsed := 100 }
    links := Vector.replicate 6 upLink }

/-- The part in another operating state. -/
def inState (op : OpState) (s : State) : State := s.modSup fun u => { u with op := op }

/-- A command's next state satisfies `p`. -/
def out (c : Instr) (s : State) (p : State → Bool) : Bool :=
  match exec c s with
  | .next t => p t
  | _ => false

/-- A value that an option holds is the only one it can hold. -/
theorem only {α : Type} {o : Option α} {P : α → Prop} (c : α) (h : o = some c) (hp : P c) :
    ∀ k, o = some k → P k := by
  intro k hk
  cases h.symm.trans hk
  exact hp

/-- An empty option holds no value. -/
theorem noneHeld {α : Type} {o : Option α} {P : α → Prop} (h : o = none) : ∀ k, o = some k → P k := by
  intro k hk
  cases h.symm.trans hk

/-- A principal record of a person under a course pool, and that pool. -/
def person : Principal :=
  { kind := .person, cls := 0, course := some 2, dept := none, used := 100, reserved := 10, soft := some 500
    hard := some 1000, grace := .within, frozen := false, unsettled := false, marker := false, active := 0
    members := 0, unsettledMembers := 0 }
def pool : Principal :=
  { person with kind := .pool, course := none, used := 300, reserved := 20, soft := none, hard := some 2000, members := 1 }

/-- A resident dirty line. -/
def lineFor (id used reserved : Nat) : Line :=
  { id := id, used := used, reserved := reserved, dUsed := 5, dReserved := 0, dirty := true, held := none
    filling := false }

/-- A person, a pool, and their dirty lines. -/
def tallied : State :=
  { base with
    tally := { Tally.initial with
      principals := [(2, pool), (5, person)], cache := [lineFor 5 105 10, lineFor 2 305 20] } }

/-- An operation over the person and the pool, its lines held. -/
def opOf (j : Job) (st : OpStage) : TallyOp :=
  { num := 0, job := j, stage := st, postings := [], ids := [5, 2], direct := [], outcome := none, writes := [],
    noted := [] }

/-- The state with one operation. -/
def withOp (s : State) (o : TallyOp) : State := { s with tally.ops := [o], tally.nextOp := 1 }

/-- A taken request in a link's queue. -/
def entryOf (num tag : Nat) (k : ReqKind) : ReqEntry :=
  { num := num, tag := tag, kind := k, taken := true, stale := false }

/-- The state with a request waiting on link 0 under number 0. -/
def withReq (s : State) (e : ReqEntry) : State :=
  (s.modLink 0 fun r => { r with queue := [e] }).modSup fun u => { u with nextReq := 1 }

/-- A volume of link 1 with four extents. -/
def vol0 : Volume :=
  { owner := 1, count := 4, recovery := false, gen := 3, mark := 0, hourlyKeep := 2, nightlyKeep := 2
    hourlyCuts := true, nightlyCut := true, base := 0, size := 1048576, shipCursor := 0, patrolCursor := 0
    damage := [], refTotal := 0 }

/-- A LOCAL SOUND version born at generation 1 at location 70. -/
def ver : Version :=
  { birth := 1, death := none, res := .here 70 0, occ := 8, codes := List.replicate 16 0#32, shipped := false
    verified := 0, repair := .sound }

/-- An extent of the person with one version. -/
def ext0 : Extent := { owner := 5, lock := none, versions := [ver] }

/-- An unpinned ACTIVE snapshot of generation 1. -/
def snap : Snapshot :=
  { vol := 0, gen := 1, kind := .manual, cutTime := 0, state := .active, held := false, restorePins := 0
    shipPins := 0, thinned := 0 }

/-- The volume with its extent 0 and the snapshot. -/
def stored : State :=
  { tallied with cat := { Catalogue.initial with
      volumes := [(0, vol0)], extents := [(0, ext0)], snapshots := [(snapKey 0 1, snap)] } }

/-- The volume with another record. -/
def withVol (s : State) (v : Volume) : State := { s with cat.volumes := [(0, v)] }
def withExt (s : State) (e : Extent) : State := { s with cat.extents := [(0, e)] }
def withSnap (s : State) (p : Snapshot) : State := { s with cat.snapshots := [(snapKey 0 1, p)] }

/-- The window open. -/
def night (s : State) : State := { s with off.phase := .windowOpen }

/-- A whole queue of requests on link 0. -/
def fullQueue : State :=
  (base.modLink 0 fun r => { r with queue := (List.range 32).map fun n => entryOf n 0 .query }).modSup
    fun u => { u with nextReq := 32 }

/-! ### Well-formed commands -/

theorem test_wf_tag : (Instr.query 0 65536 (.volume 0) []).wellFormed = false := by decide
theorem test_wf_number : (Instr.ack 65536).wellFormed = false := by decide
theorem test_wf_location : (Instr.copyDone 0 1 281474976710656 []).wellFormed = false := by decide
theorem test_wf_admit : (Instr.admitReq 0 1 16777216 1 1 false).wellFormed = false := by decide
theorem test_wf_commit : (Instr.commit 1 1 0 0 1 70 8 (some [0#32]) []).wellFormed = false := by decide
theorem test_wf_chunk : (Instr.extentData 1 1 0 [0#8]).wellFormed = false := by decide
theorem test_wf_discard : (Instr.frameDiscard 0 ({ kind := 0x10, flags := 1, tag := 0
                                                   body := commitBody 0 0 1 70 0 none } : Frame).encode).wellFormed =
    false := by decide +kernel
theorem test_wf_unfit : (Instr.unknownRequest 0 [0#8]).wellFormed = false := by decide
theorem test_wf_accepts : (Instr.admitReq 0 65535 16777215 16777215 65535 true).wellFormed = true := by decide

/-! ### Bytes -/

/-- Table 0-4: the check code of the nine characters 1 to 9. -/
theorem test_checkCode :
    checkCode [0x31#8, 0x32#8, 0x33#8, 0x34#8, 0x35#8, 0x36#8, 0x37#8, 0x38#8, 0x39#8] = 0xE3069283#32 := by decide +kernel

/-- Table 10-3: an Admit's body, its fields least significant byte first. -/
theorem test_admit_body :
    admitBody 0x010203 0x040506 0x0708 true =
      [0x03#8, 0x02#8, 0x01#8, 0x06#8, 0x05#8, 0x04#8, 0x08#8, 0x07#8, 0x01#8] := by decide

/-- R171: bad flags are found after a good check code. -/
theorem test_bad_flags :
    parseFrame ({ kind := 1, flags := 3, tag := 9, body := [] } : Frame).encode =
      .good { kind := 1, flags := 3, tag := 9, body := [] } ∧
    ({ kind := 1, flags := 3, tag := 9, body := [] } : Frame).classify = .badFlags := by decide +kernel

/-! ### The machine as a whole -/

theorem witness_ClockCountsAndIsSet :
    (base.pending = [] ∧ base.sup.clock < maxClock) ∧
    (base.modSup fun u => { u with clock := maxClock }).pending = [] ∧
    (base.takes 0 ∧ base.role 0 = .console) ∧
    out (.timeSet 0 1 (2 ^ 48 - 1)) base (fun t => t.sup.clock == maxClock && t.sup.clockSet) = true ∧
    out (.timeSet 0 1 (2 ^ 48)) base (fun t => t.sup.clock == 7200) = true := by decide

theorem witness_StepKeepsBounds : base.bounded ∧ step base = .next base.tick := by
  refine ⟨⟨⟨by decide, by decide, by decide, by decide⟩, fun l => ?_⟩, rfl⟩
  have h : base.links[l] = upLink := by simp [base]
  rw [h]
  exact ⟨by decide, by decide, by decide, noneHeld rfl⟩

theorem witness_FramesReadBackAndSpellTheirCommands :
    (({ kind := 255, flags := 255, tag := 65535, body := [0#8] } : Frame).fits = true ∧
      ({ kind := 255, number := 65535, body := [0#8] } : OffsiteFrame).fits = true) ∧
    (16777215 < 2 ^ 24 ∧ 65535 < 2 ^ 16) ∧ (255 < 2 ^ 8 ∧ 281474976710655 < 2 ^ 48) ∧
    (List.replicate 16 0#32).length = 16 ∧ (List.replicate chunkBytes 0#8).length = chunkBytes :=
  ⟨by decide, by decide, by decide, by decide, List.length_replicate⟩

/-- A command without errors keeps the Supervisor; a double error of the catalogue halts the part; in HALTED
nothing changes. -/
theorem witness_OnlySomeCommandsChangeTheSupervisor :
    (writesSupervisor .slotGrant = false ∧ ∃ t, exec .slotGrant base = .next t) ∧
    (writesSupervisor (.pullRun [.catalogue]) = false ∧
      out (.pullRun [.catalogue]) base (fun t => t.sup.op == .halted) = true) ∧
    (inState .halted base).sup.op = .halted ∧ ∀ errs, Instr.slotGrant ≠ .powerOn errs :=
  ⟨⟨rfl, _, rfl⟩, ⟨rfl, by decide⟩, by decide, fun _ => by simp⟩

theorem witness_EveryStepKeepsTheInvariants : base.sound ∧ step base = .next base.tick := by
  refine ⟨⟨⟨rfl, rfl, rfl⟩, fun l => ?_, Tally.sound_empty rfl rfl rfl rfl rfl, Catalogue.sound_initial, rfl,
    Stream.sound_initial, Offsite.sound_initial, rfl⟩, rfl⟩
  have h : base.links[l] = upLink := by simp [base]
  rw [h]
  exact Nat.zero_le _

theorem witness_RequestsAreTurnedAwayAtArrival :
    (requestOf (.windowOpen 0 7) = some (0, 7, .windowOpen) ∧
    ((inState .loading base).sup.op = .loading ∧ ((inState .loading base).link 0).up = true) ∧
    ((inState .holdup base).sup.op = .holdup ∧ ((inState .holdup base).link 0).up = true) ∧
    out (.windowOpen 0 7) (inState .holdup base)
      (fun t => (t.link 0).tx == [.reply 7 .windowOpen .wrongState .none]) = true) ∧
    (requestOf (.query 0 7 (.volume 0) []) = some (0, 7, .query) ∧ fullQueue.sup.op = .active ∧
      (fullQueue.link 0).up = true ∧ 32 ≤ (fullQueue.link 0).queue.length) ∧
    out (.query 0 7 (.volume 0) []) fullQueue
      (fun t => (t.link 0).tx == [.reply 7 .query .busy .none]) = true ∧
    (requestOf (.freeze 1 7 5 true) = some (1, 7, .freeze) ∧ consoleOnly (.freeze 1 7 5 true) = true ∧
      base.takes 1 ∧ base.role 1 = .fileserver) := by decide


/-! ### Power, loading and the operating states -/

/-- A part in LOADING whose tables are those of `stored`. -/
def loading (st : LoadStage) : State := (inState .loading stored).modSup fun u => { u with stage := st }

/-- The part with a restore of the person, in a state, one step in it. -/
def stepOne : Step :=
  { kind := .copy, src := some 1, loc := some 70, charge := 4, reissued := false, refetched := [], reason := none
    state := .waiting, again := false, recorded := false, marker := false, inPause := false }
def rest0 : Restore :=
  { rid := 9, state := .running, cause := none, failedStep := none, principal := 5, link := 1, vol := 0, gen := 1
    first := 0, count := 1, mode := .inPlace, tvol := 0, tfirst := 0, partialOk := false, acceptNo := 0
    remaining := 4, pin := true, finishNo := none, pausing := false, steps := [stepOne] }
def withRst (s : State) (r : Restore) : State := { s with rst.table := [(0, r)] }

theorem witness_PowerOnLoadsOrHalts :
    (base.modSup fun u => { u with layout := .other }).sup.layout = .other ∧
    (StoreError.layout ∉ ([] : List StoreError) ∧ State.reset.sup.layout = .blank) ∧
    (stored.sup.layout = .matching ∧ Tbl.wf stored.cat.extents = true) ∧
    out (.powerOn [.layout]) stored (fun t => t.sup.op == .halted) = true ∧
    out (.powerOn []) stored (fun t => t.sup.op == .loading && t.sup.stage == .walking && t.sup.clock == 0) =
      true := by decide

theorem witness_FirstInitialisationFillsTheTables :
    State.reset.sup.op = .loading ∧ State.reset.sup.stage = .initialising ∧
    out .layoutInitialised State.reset (fun t => t.sup.layout == .matching && t.rst.counter == 1) = true := by decide

/-- R21: a marker makes the person and its pool unsettled. -/
theorem witness_LoadingWalkSettlesTheFlagsAndEnds :
    let s := withRst ((loading .walking).modPrin 5 fun p => { p with marker := true }) rest0
    (s.sup.op = .loading ∧ s.sup.stage = .walking ∧ s.tallyStill ∧ s.patrolStill ∧
      Tbl.wf s.tally.principals = true ∧ Tbl.wf s.rst.table = true) ∧
    out (.tallyLoadingWalkEnd []) s (fun t =>
      (t.prin 5).any (fun p => p.unsettled && !p.marker) &&
        (t.prin 2).any (fun p => p.unsettled && p.unsettledMembers == 1) &&
        (t.restore 0).any (fun r => r.state == .failed)) = true ∧
    (loading .walked).loaded = true ∧
    out .loadingEnd (loading .walked) (fun t => t.sup.op == .standby) = true := by decide

theorem witness_HoldupIsEnteredAndLeft :
    let h := { inState .holdup base with tally := Tally.initial }
    let f := h.modSup fun u => { u with cleanFlag := true }
    ((withRst stored rest0).sup.op = .active ∧ Tbl.wf (withRst stored rest0).rst.table = true) ∧
    ((withRst stored rest0).tallyStill ∧ 0 < rest0.remaining) ∧
    out .powerWarnAssert (withRst stored rest0) (fun t => t.sup.op == .holdup &&
      (t.restore 0).any (fun r => r.state == .failed && r.cause == some .power) &&
      t.tally.ops.map TallyOp.job == [.unreserve 5 4]) = true ∧
    (loading .walked).sup.op = .loading ∧
    (h.sup.op = .holdup ∧ h.sup.cleanFlag = false ∧ h.tallyEmpty = true) ∧
    out .cleanShutdownWrite h (fun t => t.sup.op == .standby) = true ∧
    f.sup.cleanFlag = true ∧ out .powerWarnDeassert f (fun t => t.sup.op == .standby) = true := by decide

/-! ### Server links -/

theorem witness_LinkResetClearsItsLink :
    (base.sup.op ≠ .halted ∧ (base.link 1).up = true) ∧ base.takes 1 ∧
    out (.serialLossOfSignal 1) base (fun t => !(t.link 1).up && (t.link 0).up) = true ∧
    out (.reset 1 4) base (fun t => (t.link 1).up && (t.link 1).tx.isEmpty && (t.link 1).queue.isEmpty) = true := by
  decide

/-- A frame whose length field is too large, and whose check code does not follow. -/
def longFrame : List Byte := leBytes 2 0x5AC3 ++ leBytes 4 0 ++ leBytes 3 1048577

/-- A frame whose body is too long is found so, with its check code right. -/
theorem longBody_badLength (body : List Byte) (h : body.length = 1048577) :
    parseFrame ({ kind := 1, flags := 1, tag := 0, body := body } : Frame).encode = .badLength true := by
  have hc : ({ kind := 1, flags := 1, tag := 0, body := body } : Frame).covered.length = 7 + 1048577 := by
    simp [Frame.covered, leBytes, h]
  have hl : leValue (((({ kind := 1, flags := 1, tag := 0, body := body } : Frame).covered ++
      leBytes 4 (checkCode ({ kind := 1, flags := 1, tag := 0, body := body } : Frame).covered).toNat).drop
        4).take 3) = 1048577 := by
    simp [Frame.covered, leBytes, leValue, h]
  unfold parseFrame Frame.encode
  generalize ({ kind := 1, flags := 1, tag := 0, body := body } : Frame).covered = c at hc hl
  rw [if_neg (by simp [leBytes])]
  have hd : (leBytes 2 0x5AC3 ++ (c ++ leBytes 4 (checkCode c).toNat)).drop 2 = c ++ leBytes 4 (checkCode c).toNat := rfl
  rw [hd]
  dsimp only
  rw [hl, if_pos (by decide)]
  unfold codeMatches
  rw [← hc, List.drop_left, List.take_left]
  simp [leBytes, hc]

/-- Frames with good check codes. -/
def oddFlags : Frame := { kind := 1, flags := 3, tag := 9, body := [] }
def shortAdmit : Frame := { kind := 1, flags := 1, tag := 9, body := [] }

theorem witness_UnfitFramesAreDiscarded :
    (base.sup.op ≠ .halted ∧ parseFrame [] = .badSync) ∧
    ((base.link 1).up = true ∧ 3 ≤ ((base.modLink 1 fun r => { r with badRun := 3 }).link 1).badRun) ∧
    parseFrame longFrame = .badLength false ∧
    (parseFrame oddFlags.encode = .good oddFlags ∧ oddFlags.classify = .badFlags) ∧
    (parseFrame shortAdmit.encode = .good shortAdmit ∧ shortAdmit.classify = .request false) ∧
    out (.frameDiscard 1 []) (base.modLink 1 fun r => { r with badRun := 3 }) (fun t => !(t.link 1).up) = true ∧
    out (.unknownRequest 1 shortAdmit.encode) base
      (fun t => (t.link 1).tx == [.reply 9 .admitReq .malformed .none]) = true := by decide +kernel

theorem witness_LongFramesWithGoodCodes :
    base.sup.op ≠ .halted ∧ parseFrame ({ kind := 1, flags := 1, tag := 0, body := List.replicate 1048577 0#8 } :
      Frame).encode = .badLength true :=
  ⟨by decide, longBody_badLength _ List.length_replicate⟩

/-- R181, R66: the reset that the fourth bad frame brings meets a double error of the catalogue, and the part halts. -/
theorem test_frameDiscard_meetsErrors :
    out (.frameDiscard 1 [] [.catalogue]) (base.modLink 1 fun r => { r with badRun := 3 })
      (fun t => t.sup.op == .halted) = true := by decide

/-- A notice. -/
def notice0 : Notice := { clock := 3, body := .unsettled 1 }

/-- R177: the frame of a notice begins with its class code and the clock, lowest byte first. -/
theorem test_notice_body : (LinkFrame.notice notice0).body =
    [2#8, 3#8, 0#8, 0#8, 0#8, 0#8, 0#8] ++ Config.noticeContents notice0.body := rfl

theorem witness_RepliesGoBeforeNotices :
    let a := base.modLink 1 fun r => { r with tx := [.chunk 4 0 1], notices := [notice0] }
    let b := base.modLink 1 fun r => { r with notices := [notice0] }
    let h := (inState .halted base).modLink 1 fun r => { r with haltNotice := some notice0 }
    (a.sup.op ≠ .halted ∧ (a.link 1).up = true ∧ (a.link 1).tx = [.chunk 4 0 1]) ∧
    ((b.link 1).up = true ∧ (b.link 1).tx = [] ∧ (b.link 1).notices = [notice0]) ∧
    (h.sup.op = .halted ∧ (h.link 1).haltNotice = some notice0) ∧ (h.link 0).haltNotice = none ∧
    out (.linkTransmit 1 []) a (fun t => t.sent == [.link 1 (.chunk 4 0 [])]) = true ∧
    out (.linkTransmit 1 []) b (fun t => t.sent == [.link 1 (.notice notice0)]) = true := by decide

theorem witness_LinkIdlesAndSubscribes :
    let u := base.modSup fun u => { u with startup := [notice0] }
    (base.sup.op ≠ .halted ∧ base.patrolStill ∧ (base.link 1).up = true ∧ (base.link 1).idle = false ∧
      (base.link 1).queue = [] ∧ (base.link 1).directives = [] ∧
      (base.link 1).idleFrom + base.sup.settings.idleTime ≤ base.sup.elapsed) ∧
    ((base.modLink 1 fun r => { r with idleFrom := 99 }).sup.elapsed <
      ((base.modLink 1 fun r => { r with idleFrom := 99 }).link 1).idleFrom +
        (base.modLink 1 fun r => { r with idleFrom := 99 }).sup.settings.idleTime) ∧
    (u.takes 1 ∧ (∀ c ∈ [2, 10], c ≤ 10) ∧ (u.link 1).notices.length + u.sup.startup.length ≤ 32) ∧
    (∃ c ∈ [2, 11], 10 < c) ∧
    out (.linkIdle 1) base (fun t => (t.link 1).idle) = true ∧
    out (.subscribe 1 4 [2, 10]) u (fun t => (t.link 1).subs == [2, 10] && (t.link 1).notices == [notice0]) = true ∧
    out (.subscribe 1 4 [2, 11]) u (fun t => (t.link 1).subs == []) = true := by decide

/-! ### The tally -/

/-- A Posting Queue of 256 entries. -/
def fullPostings : State :=
  { tallied with
    tally.postings := (List.range 256).map fun n => { num := n, principal := 5, blocks := 1, link := 1 }
    tally.nextPosting := 256 }

theorem witness_AdmitReleaseSettleAreTaken :
    (tallied.takes 1 ∧ tallied.tallyStill ∧ tallied.isPerson 5 = true) ∧ tallied.isPerson 2 = false ∧
    (tallied.tally.ops = [] ∧ tallied.tally.modeReply = [] ∧ tallied.tally.postings.length < 256) ∧
    (tallied.chain 5 = [5, 2] ∧ tallied.plainLines [5, 2] ∧
      (∀ id ∈ [5, 2], tallied.lineHeld id = false ∧ id ∉ tallied.tally.recounts) ∧ tallied.tally.castout = [] ∧
      tallied.tally.writes = [] ∧ (tallied.current 2).1 + 77 - (tallied.current 5).1 ≤ maxTally) ∧
    out (.admitReq 1 4 5 16777215 1024 true) tallied
      (fun t => t.tally.ops.map TallyOp.job == [.admitReq 1 0 5 16777215 1024 true]) = true ∧
    out (.admitReq 1 4 5 1 1025 true) tallied
      (fun t => (t.link 1).tx == [.reply 4 .admitReq .range (.admitReq 0 0 0)]) = true ∧
    out (.release 1 4 5 16777215) tallied (fun t => (t.link 1).tx == [.reply 4 .release .accepted .none]) = true ∧
    out (.settle 1 4 5 77) tallied (fun t => t.tally.ops.map TallyOp.job == [.settle 1 0 5 77] &&
      t.current 5 == (77, 10) && t.current 2 == (277, 20) && t.tally.writes.any fun w => w.id == 5 && w.used == 77) =
      true ∧
    out (.settle 1 4 5 200)
      ((tallied.modPrin 5 fun p => { p with unsettled := true }).modPrin 2 fun p =>
        { p with unsettled := true, unsettledMembers := 1 })
      (fun t => !(t.isUnsettled 5) && t.tally.recounts == [2] &&
        (t.prin 2).any fun p => p.unsettledMembers == 0) = true ∧
    out (.settle 1 4 5 (maxTally + 1)) tallied
      (fun t => (t.link 1).tx == [.reply 4 .settle .range .none]) = true := by decide +kernel

theorem witness_ReleaseWithAFullQueue :
    fullPostings.takes 1 ∧ fullPostings.tally.ops = [] ∧ fullPostings.tally.modeReply = [] ∧
    fullPostings.isPerson 5 = true ∧ 256 ≤ fullPostings.tally.postings.length := by decide +kernel

/-- The Admit of n blocks in granules of 64 over the person and the pool. -/
def admitting (n : Nat) (part : Bool) : State := withOp tallied (opOf (.admitReq 1 0 5 n 64 part) .ready)
def frozenPool : State := (admitting 4 false).modPrin 2 fun p => { p with frozen := true }

/-- The person's headroom is 1000 − 115, the pool's 2000 − 325. -/
theorem witness_AdmissionFollowsHeadroomAndIsAnswered :
    let done := withReq (withOp tallied { opOf (.admitReq 0 0 5 4 64 true) .finished with
      outcome := some { status := .granted, granted := 4, headroom := 885, limiting := 5 } }) (entryOf 0 3 .admitReq)
    (tallied.prin 5 = some person) ∧
    (frozenPool.sup.op ≠ .halted ∧ frozenPool.tallyOnly (opOf (.admitReq 1 0 5 4 64 false) .ready) ∧
      frozenPool.plainLines [5, 2] ∧ (frozenPool.prin 2).any Principal.frozen = true ∧
      frozenPool.prin 5 = some person ∧ person.frozen = false) ∧
    ((admitting 886 true).tallyOnly (opOf (.admitReq 1 0 5 886 64 true) .ready) ∧ (admitting 886 true).plainLines [5, 2] ∧
      (admitting 886 true).prin 2 = some pool ∧ pool.frozen = false ∧
      (admitting 886 true).headroom 5 ≤ (admitting 886 true).headroom 2 ∧ (admitting 886 true).headroom 5 = 885) ∧
    out (.admissionCalculation 0 []) (admitting 885 false)
      (fun t => t.tally.ops.map TallyOp.outcome ==
        [some { status := .granted, granted := 885, headroom := 885, limiting := 5 }]) = true ∧
    out (.admissionCalculation 0 []) (admitting 886 true)
      (fun t => t.tally.ops.map TallyOp.outcome ==
        [some { status := .partialGrant, granted := 832, headroom := 885, limiting := 5 }] &&
        t.current 5 == (937, 10)) = true ∧
    out (.admissionCalculation 0 []) (admitting 886 false)
      (fun t => t.tally.ops.map TallyOp.outcome ==
        [some { status := .limit, granted := 0, headroom := 885, limiting := 5 }]) = true ∧
    (done.sup.op ≠ .halted ∧ done.awaits 0 0 (entryOf 0 3 .admitReq)) ∧
    out (.admitReply 0) done (fun t => (t.link 0).tx == [.reply 3 .admitReq .granted (.admitReq 4 885 5)]) = true := by
  decide

/-- A line whose fill read runs, a castout entry, and a Settle's in-place write. -/
def filling : State :=
  withOp { tallied with tally.cache := [{ lineFor 5 0 0 with held := some 0, filling := true }] }
    (opOf (.admitReq 1 0 5 4 4 false) .gathering)
/-- R10: an in-place write that ends while a later one of the record waits leaves the marker. -/
theorem test_inPlaceWriteEnd_keepsMarker :
    let w : PendingWrite := { id := 5, used := 77, reserved := 10, settles := false, op := 0 }
    let s := { withOp (tallied.modPrin 5 fun p => { p with marker := true })
        { opOf (.settle 0 0 5 77) .writing with writes := [5] } with
      tally.cache := [{ lineFor 5 80 10 with dUsed := 0, dirty := false }]
      tally.writes := [w, { w with op := 1, used := 80 }] }
    out (.inPlaceWriteEnd 5 []) s (fun t => (t.prin 5).any (fun p => p.marker && p.used == 77) &&
      t.tally.writes.length == 1) = true := by decide

def castingOut : State :=
  { tallied with
    tally.cache := []
    tally.castout := [{ id := 5, used := 105, reserved := 10, dUsed := 5, dReserved := 0 }] }
def settling : State :=
  withReq { withOp tallied { opOf (.settle 0 0 5 77) .writing with writes := [5] } with
    tally.cache := [{ lineFor 5 77 10 with dUsed := 0, dirty := false }, lineFor 2 277 20]
    tally.writes := [{ id := 5, used := 77, reserved := 10, settles := true, op := 0 }] } (entryOf 0 3 .settle)

/-- A clean line of the person with the drift `d`, an Admit of 96 in its marker writes. -/
def marking (d : Int) : State :=
  withOp { tallied with
    tally.cache := [{ lineFor 5 105 10 with dUsed := d, dirty := false }, lineFor 2 305 20] }
    { opOf (.admitReq 1 0 5 96 96 false) .marking with
      outcome := some { status := .granted, granted := 96, headroom := 885, limiting := 5 } }

theorem witness_TallyReadsWritesAndMarkersEnd :
    (filling.sup.op ≠ .halted ∧ filling.tallyOnly (opOf (.admitReq 1 0 5 4 4 false) .gathering) ∧
      (opOf (.admitReq 1 0 5 4 4 false) .gathering).job.runsAtOnce = false ∧
      (filling.line 5).any (fun x => x.filling && x.held == some 0) = true ∧ filling.prin 5 = some person) ∧
    (castingOut.tallyStill ∧ castingOut.tally.castout.map Castout.id = [5] ∧ castingOut.prin 5 = some person) ∧
    (settling.tallyOnly { opOf (.settle 0 0 5 77) .writing with writes := [5] } ∧ settling.prin 5 = some person ∧
      settling.unwritten 5 = false ∧ settling.awaits 0 0 (entryOf 0 3 .settle)) ∧
    ((marking 4000).sup.op ≠ .halted ∧ [5, 2].Nodup ∧ (marking 4000).inPlaceMode = false ∧
      (∀ id ∈ [5, 2], ((marking 4000).prin id).isSome = true) ∧
      ∀ id ∈ [5, 2], ((marking 4000).line id).any (fun x => !x.filling && decide (x.drift + 96 ≤ 4096)) = true) ∧
    out (.tallyFillReadEnd 5 []) filling (fun t => (t.line 5).any fun x => x.used == 100 && !x.filling) = true ∧
    out (.castoutDrain []) castingOut
      (fun t => t.tally.castout.isEmpty && (t.prin 5).any fun p => p.used == 105) = true ∧
    out (.inPlaceWriteEnd 5 []) settling
      (fun t => (t.prin 5).any (fun p => p.used == 77) && (t.link 0).tx == [.reply 3 .settle .done .none]) = true ∧
    out (.markerWriteEnd 0 []) (marking 4000)
      (fun t => t.current 5 == (201, 10) && (t.prin 5).any Principal.marker) = true := by decide

/-- A posting of the person's, taken by its operation. -/
def posting (b : Nat) : State :=
  { withOp tallied (opOf (.posting 5 b 1) .ready) with
    tally.postings := [{ num := 0, principal := 5, blocks := b, link := 1 }], tally.nextPosting := 1 }

theorem witness_PostingLowersUsed :
    ((posting 106).sup.op ≠ .halted ∧ (posting 106).patrolStill ∧ (posting 106).tally.modeReply = [] ∧
      (posting 106).tally.flushing = false ∧ (posting 106).plainLines [5, 2]) ∧
    out .postingApply (posting 106) (fun t => t.current 5 == (0, 10) && t.current 2 == (200, 20) &&
      t.sup.raised == [0, 1, 0, 0, 0, 0, 0, 0, 0, 0, 0]) = true ∧
    out .postingApply (posting 105) (fun t => t.current 5 == (0, 10) &&
      t.sup.raised == List.replicate 11 0) = true := by decide

/-- A conversion of the first of two steps, and a release of blocks. -/
def twoSteps : Restore := { rest0 with count := 2, remaining := 8, steps := [{ stepOne with state := .putting }, stepOne] }
def converting (c : Nat) (d : Int) : State :=
  withRst (withOp tallied (opOf (.convert 0 0 5 c d 1) .ready)) twoSteps
def unreserving : State := withOp tallied (opOf (.unreserve 5 4) .ready)

theorem witness_ReservationsAreConvertedAndReleased :
    ((converting 4 4).sup.op ≠ .halted ∧ (converting 4 4).tallyOnly (opOf (.convert 0 0 5 4 4 1) .ready) ∧
      (converting 4 4).plainLines [5, 2] ∧ (∀ id ∈ [5, 2], ((converting 4 4).current id).1 + 4 ≤ maxTally) ∧
      (converting 4 4).restore 0 = some twoSteps ∧ twoSteps.state = .running ∧ twoSteps.pausing = false) ∧
    (unreserving.tallyOnly (opOf (.unreserve 5 4) .ready) ∧ unreserving.plainLines [5, 2]) ∧
    out (.conversion 0 []) (converting 4 4) (fun t => t.current 5 == (109, 6) &&
      (t.restore 0).any fun r => r.remaining == 4 && r.stepsIn .done == 1) = true ∧
    out (.conversion 0 []) (converting 0 (-200)) (fun t => t.current 5 == (0, 10) && t.current 2 == (200, 20)) =
      true ∧
    out (.reservationRelease 0) unreserving (fun t => t.current 5 == (105, 6) && t.current 2 == (305, 16)) = true := by
  decide

theorem witness_RecountSetsThePoolToItsMembers :
    let s := { tallied with tally.recounts := [2] }
    (s.sup.op ≠ .halted ∧ s.tallyStill ∧ Tbl.wf s.tally.principals = true ∧ 2 ∈ s.tally.recounts ∧
      s.prin 2 = some pool ∧ pool.kind = .pool ∧ ((s.membersOf 2).map fun m => (s.current m.1).1).sum ≤ maxTally ∧
      ((s.membersOf 2).map fun m => (s.current m.1).2).sum ≤ maxTally) ∧ 3 ∉ s.tally.recounts ∧
    out (.poolRecountEnd 2 []) s (fun t => t.current 2 == (105, 10) && t.tally.recounts.isEmpty) = true := by decide

/-- A Principal Table of 262,144 records. -/
def fullTable : State := { base with tally.principals := List.replicate 262144 (2, pool) }

theorem witness_PrincipalCreateWritesTheRecord :
    (tallied.takes 1 ∧ tallied.tallyStill ∧ tallied.prin 6 = none ∧ tallied.prin 2 = some pool ∧ pool.kind = .pool ∧
      tallied.tally.principals.length < 262144) ∧ tallied.role 0 = .console ∧ (tallied.prin 5).isSome = true ∧
    out (.principalCreate 1 4 6 .person 0 (some 2) none none none) tallied
      (fun t => (t.prin 6).isSome && (t.prin 2).any (fun p => p.members == 2)) = true ∧
    (createInRange 6 0 (some 5) (some 5) ∧ ¬ createInRange 0 0 none none ∧ ¬ createInRange 6 0 (some 6) (some 5)) ∧
    (tallied.parentsArePools (some 2) (some 2) ∧ ¬ tallied.parentsArePools (some 5) none) ∧
    out (.principalCreate 0 4 6 .pool 0 (some 2) none none none) tallied
      (fun t => (t.link 0).tx == [.reply 4 .principalCreate .malformed .none]) = true ∧
    out (.principalCreate 0 4 6 .person 0 (some 5) none none none) tallied
      (fun t => (t.link 0).tx == [.reply 4 .principalCreate .unknownPrincipal .none]) = true ∧
    out (.principalCreate 0 4 6 .person 0 (some 2) (some 2) none none) tallied
      (fun t => (t.link 0).tx == [.reply 4 .principalCreate .range .none]) = true ∧
    out (.principalCreate 0 4 6 .person 64 none none none none) tallied
      (fun t => (t.link 0).tx == [.reply 4 .principalCreate .range .none]) = true ∧
    out (.principalCreate 0 4 5 .person 0 none none none none) tallied
      (fun t => (t.link 0).tx == [.reply 4 .principalCreate .inUse .none]) = true := by
  refine ⟨by decide, by decide, by decide, by decide, ⟨by simp [createInRange, maxTally], by simp [createInRange],
    by simp [createInRange, maxTally]⟩, ⟨?_, ?_⟩, by decide, by decide, by decide, by decide, by decide⟩
  · intro q hq
    cases hq <;> rename_i h <;> cases h <;> exact ⟨pool, by decide, by decide⟩
  · intro h
    obtain ⟨k, hk, hp⟩ := h 5 (Or.inl rfl)
    cases hk
    cases hp

theorem witness_PrincipalCreateWithAFullTable :
    fullTable.takes 1 ∧ 262144 ≤ fullTable.tally.principals.length ∧ fullTable.prin 6 = none := by
  refine ⟨by decide, Nat.le_of_eq List.length_replicate.symm, ?_⟩
  have h : ∀ n, tget (List.replicate n (2, pool)) 6 = none := by
    intro n
    induction n with
    | zero => rfl
    | succ n ih => exact ih
  exact h _

theorem witness_PrincipalDeleteFreesTheRecord :
    let s := { tallied with tally.principals := [(2, pool), (5, { person with used := 0, reserved := 0 })]
                            tally.cache := [] }
    (s.takes 1 ∧ s.tallyStill ∧ s.prin 5 = some { person with used := 0, reserved := 0 } ∧ s.lineHeld 5 = false ∧
      s.current 5 = (0, 0) ∧ s.isUnsettled 5 = false ∧ 5 ∉ s.tally.recounts) ∧
    (tallied.current 5).1 ≠ 0 ∧ tallied.prin 6 = none ∧
    out (.principalDelete 1 4 5) s
      (fun t => (t.prin 5).isNone && (t.prin 2).any (fun p => p.members == 0)) = true ∧
    out (.principalDelete 1 4 5) tallied
      (fun t => (t.link 1).tx == [.reply 4 .principalDelete .inUse .none]) = true := by decide

/-- A settings hold of `n` changes open on link 0. -/
def holding (s : State) (n : Nat) : State :=
  s.modLink 0 fun r => { r with hold := some (List.replicate n (.freeze 5 true)) }

theorem witness_FreezeSetsTheFlag :
    (tallied.takes 0 ∧ tallied.role 0 = .console ∧ tallied.tallyStill ∧ tallied.prin 5 = some person ∧
      (tallied.link 0).hold = none) ∧
    ((holding tallied 127).takes 0 ∧ ((holding tallied 127).prin 5).isSome = true ∧
      (List.replicate 127 (Staged.freeze 5 true)).length < 128) ∧
    (128 ≤ (List.replicate 128 (Staged.freeze 5 true)).length) ∧ tallied.prin 6 = none ∧
    out (.freeze 0 4 5 true) tallied (fun t => (t.prin 5).any Principal.frozen) = true ∧
    out (.freeze 0 4 5 true) (holding tallied 127)
      (fun t => (t.link 0).tx == [.reply 4 .freeze .accepted .none]) = true ∧
    out (.freeze 0 4 5 true) (holding tallied 128)
      (fun t => (t.link 0).tx == [.reply 4 .freeze .holdFull .none]) = true := by decide +kernel

def noChange : EditChanges := { cls := none, soft := .keep, hard := .keep, course := .keep, dept := .keep }
def twoPools : State :=
  { tallied with
    tally.principals := [(2, pool), (3, { pool with used := 0, reserved := 0, members := 0 }), (5, person)]
    tally.cache := [lineFor 5 105 10, lineFor 2 305 20, lineFor 3 7 1] }

theorem witness_PrincipalEditChangesLimitsAndParents :
    (tallied.takes 0 ∧ tallied.role 0 = .console ∧ tallied.tallyStill ∧ (tallied.link 0).hold = none ∧
      tallied.prin 5 = some person ∧ tallied.lineHeld 5 = false ∧ tallied.overdue 5 = false ∧
      newField (.put 115) person.soft = some 115 ∧ newField .keep person.hard = some 1000) ∧
    (twoPools.takes 1 ∧ twoPools.tallyStill ∧ twoPools.prin 5 = some person ∧ (twoPools.prin 3).isSome = true ∧
      twoPools.plainLines [5, 2, 3] ∧ (∀ k ∈ [5, 2, 3], twoPools.lineHeld k = false ∧ k ∉ twoPools.tally.recounts) ∧
      twoPools.tally.castout = [] ∧ twoPools.isUnsettled 5 = false ∧
      (twoPools.current 5).1 ≤ (twoPools.current 2).1 ∧ (twoPools.current 5).2 ≤ (twoPools.current 2).2) ∧
    tallied.prin 6 = none ∧
    (tallied.tally.grace.length < 8192 ∧ (tallied.classOf 0).grace ≠ 0 ∧
      tallied.sup.clock + 60 * (tallied.classOf 0).grace ≤ maxClock ∧ person.grace = .within ∧
      (tallied.current 5).1 + (tallied.current 5).2 = 115) ∧
    out (.principalEdit 0 4 5 { noChange with soft := .put 114 }) tallied
      (fun t => (t.prin 5).any fun p => p.grace == .grace (7200 + 60 * 10080) true) = true ∧
    out (.principalEdit 0 4 5 { noChange with soft := .put 115 }) tallied
      (fun t => (t.prin 5).any fun p => p.soft == some 115 && p.grace == .within) = true ∧
    out (.principalEdit 1 4 5 { noChange with course := .put 3 }) twoPools
      (fun t => t.current 2 == (200, 10) && t.current 3 == (112, 11) &&
        (t.prin 5).any fun p => p.course == some 3) = true := by decide

theorem witness_GraceHeadExpires :
    let s := { tallied with
      tally.principals := [(2, pool), (5, { person with grace := .grace 7200 true })]
      tally.grace := [{ deadline := 7200, id := 5 }] }
    let w := { s with tally.grace := [{ deadline := 7201, id := 5 }] }
    (s.sup.op ≠ .halted ∧ s.sup.op ≠ .holdup ∧ s.calm ∧ s.lineHeld 5 = false) ∧ w.sup.clock < 7201 ∧
    (inState .holdup s).sup.op = .holdup ∧
    out .graceExpiry s (fun t => (t.prin 5).any (fun p => p.grace == .expired) &&
      t.sup.raised == [1, 0, 0, 0, 0, 0, 0, 0, 0, 0, 0]) = true ∧
    out .graceExpiry w (fun t => t.tally.grace.length == 1) = true := by decide

/-! ### Volumes, extents and snapshots -/

def codes16 : List Code := List.replicate 16 0xAB#32

/-- A version of the current generation, and one with references out. -/
def nowVer : Version := { ver with birth := 3, res := .here 70 2 }
def lone (v : Version) : State := withExt stored { ext0 with versions := [v] }

theorem witness_CommitWritesTheLiveVersion :
    (stored.commitReady 1 0 3 16777215 71 1024 (some codes16) vol0 ∧ (stored.extent 0 3).versions = []) ∧
    ((lone nowVer).commitReady 1 0 0 5 71 8 (some codes16) vol0 ∧ ((lone nowVer).extent 0 0).versions = [nowVer] ∧
      nowVer.death = none ∧ nowVer.birth = vol0.gen) ∧
    (stored.commitReady 1 0 0 5 71 0 none vol0 ∧ (stored.extent 0 0).versions = [ver] ∧ ver.death = none ∧
      ver.birth < vol0.gen ∧ (70 : Nat) ≠ 71 ∧ ∃ p ∈ stored.snapsOf 0, ver.birth ≤ p.gen ∧ p.gen < vol0.gen) ∧
    ((withSnap stored { snap with gen := 3 }).commitReady 1 0 0 5 71 0 none vol0 ∧
      ∀ p ∈ (withSnap stored { snap with gen := 3 }).snapsOf 0, ver.birth ≤ p.gen → vol0.gen ≤ p.gen) ∧
    out (.commit 1 4 0 3 5 71 8 (some codes16) []) stored
      (fun t => (t.link 1).tx == [.reply 4 .commit .done (.commit 3 .first)]) = true ∧
    out (.commit 1 4 0 0 5 71 8 (some codes16) []) (lone nowVer)
      (fun t => (t.link 1).tx == [.reply 4 .commit .done (.commit 3 .later)]) = true ∧
    out (.commit 1 4 0 0 5 71 0 none []) stored
      (fun t => (t.link 1).tx == [.reply 4 .commit .done (.commit 3 .kept)] &&
        (t.extent 0 0).versions.map Version.birth == [3, 1]) = true ∧
    out (.commit 1 4 0 0 5 71 0 none []) (withSnap stored { snap with gen := 3 })
      (fun t => (t.link 1).tx == [.reply 4 .commit .done (.commit 3 .now)]) = true :=
  ⟨by decide, by decide, by decide, by decide, by decide, by decide, by decide, by decide⟩

/-- An extent with four versions, each held by a snapshot with `pins` restore pins; generation 2's is
OFFSITE_ONLY. -/
def aged (pins : Nat) : State :=
  { stored with cat := { Catalogue.initial with
      volumes := [(0, { vol0 with gen := 5 })]
      extents := [(0, { ext0 with versions :=
        [{ ver with birth := 4 }, { ver with birth := 3, death := some 4, res := .here 71 0, shipped := true },
         { ver with birth := 2, death := some 3, res := .offsite, shipped := true },
         { ver with birth := 1, death := some 2, res := .here 73 0 }] })]
      snapshots := [1, 2, 3, 4].map fun g => (snapKey 0 g, { snap with gen := g, restorePins := pins }) } }
def agedDead : List Version :=
  [{ ver with birth := 4, death := some 5 }, { ver with birth := 3, death := some 4, res := .here 71 0, shipped := true },
   { ver with birth := 2, death := some 3, res := .offsite, shipped := true },
   { ver with birth := 1, death := some 2, res := .here 73 0 }]
def offsiteVer : Version := { ver with birth := 2, death := some 3, res := .offsite, shipped := true }

/-- R57: the OFFSITE_ONLY version is thinned, and with every snapshot pinned the Commit is refused. -/
theorem witness_CommitThins :
    ((aged 0).commitReady 1 0 0 5 99 8 (some codes16) { vol0 with gen := 5 } ∧ (aged 0).snapshotsKeyed ∧
      (∀ y ∈ ((aged 0).extent 0 0).versions, y.loc ≠ some 99) ∧
      agedDead.Pairwise (fun a b => b.birth < a.birth) ∧
      ∀ y ∈ agedDead, ∃ p ∈ (aged 0).snapsOf 0, y.heldAt p.gen = true) ∧
    ((aged 0).thinnable 0 agedDead offsiteVer ∧ ∀ y, (aged 0).thinnable 0 agedDead y →
      offsiteVer.thinRank < y.thinRank ∨ (offsiteVer.thinRank = y.thinRank ∧ offsiteVer.birth ≤ y.birth)) ∧
    (∀ x, ¬ (aged 1).thinnable 0 agedDead x) ∧
    out (.commit 1 4 0 0 5 99 8 (some codes16) []) (aged 0)
      (fun t => (t.link 1).tx == [.reply 4 .commit .done (.commit 5 .kept)] &&
        (t.extent 0 0).versions.map Version.birth == [5, 4, 3, 1] &&
        (t.snapshot 0 2).any fun p => p.thinned == 1) = true ∧
    out (.commit 1 4 0 0 5 99 8 (some codes16) []) (aged 1)
      (fun t => (t.link 1).tx == [.reply 4 .commit .versionPinned .none]) = true := by
  have h0 : ∀ y ∈ agedDead, offsiteVer.thinRank < y.thinRank ∨
      (offsiteVer.thinRank = y.thinRank ∧ offsiteVer.birth ≤ y.birth) := by decide
  have h1 : ∀ y ∈ agedDead, ¬ (aged 1).thinnable 0 agedDead y := by decide
  exact ⟨by decide, ⟨by decide, fun y hy => h0 y hy.1⟩, fun x hx => h1 x hx.1 hx, by decide, by decide⟩

/-- The live version of the current generation, its location 70 referenced, beside a full Reclaim Table. -/
def fullReclaims : State :=
  { lone nowVer with cat.reclaims := List.replicate 4096 { vol := 0, ext := 2, loc := 9, refs := 1 } }

theorem witness_CommitIsRefusedWithoutChange :
    let k := withExt stored { ext0 with lock := some 9 }
    let g := withVol stored { vol0 with damage := [0] }
    (stored.takes 1 ∧ stored.volume 32 = none ∧ stored.volume 0 = some vol0 ∧ (0 : Link) ≠ vol0.owner ∧
      vol0.owner = 1 ∧ vol0.count ≤ 4 ∧ 3 < vol0.count ∧ codesMatch none 0 ∧ codesMatch (some codes16) 1024) ∧
    ((k.extent 0 0).lock.isSome = true ∧ k.volume 0 = some vol0 ∧ (g.extent 0 0).lock = none ∧
      g.damaged 0 0 = true ∧ g.takes 1) ∧
    ((stored.extent 0 0).lock = none ∧ stored.damaged 0 0 = false ∧ (stored.extent 0 0).versions = [ver] ∧
      ver.loc = some 70 ∧ ver.birth ≠ vol0.gen) ∧
    out (.commit 1 4 0 0 5 71 1 none []) stored
      (fun t => (t.link 1).tx == [.reply 4 .commit .malformed .none]) = true ∧
    out (.commit 1 4 0 0 5 71 0 (some codes16) []) stored
      (fun t => (t.link 1).tx == [.reply 4 .commit .malformed .none]) = true ∧
    out (.commit 1 4 32 0 5 71 0 none []) stored
      (fun t => (t.link 1).tx == [.reply 4 .commit .unknownVolume .none]) = true ∧
    out (.commit 0 4 0 0 5 71 0 none []) stored
      (fun t => (t.link 0).tx == [.reply 4 .commit .notPermitted .none]) = true ∧
    out (.commit 1 4 0 4 5 71 0 none []) stored
      (fun t => (t.link 1).tx == [.reply 4 .commit .range .none]) = true ∧
    out (.commit 1 4 0 0 5 71 0 none []) k (fun t => (t.link 1).tx == [.reply 4 .commit .extentLocked .none]) = true ∧
    out (.commit 1 4 0 0 5 71 0 none []) g (fun t => (t.link 1).tx == [.reply 4 .commit .damaged .none]) = true ∧
    out (.commit 1 4 0 0 5 70 0 none []) stored
      (fun t => (t.link 1).tx == [.reply 4 .commit .inUse .none]) = true := by
  (repeat' apply And.intro) <;> decide

theorem witness_CommitFindsTheReclaimTableFull :
    (fullReclaims.takes 1 ∧ fullReclaims.volume 0 = some vol0 ∧ (fullReclaims.extent 0 0).lock = none ∧
      fullReclaims.damaged 0 0 = false ∧ (fullReclaims.extent 0 0).versions = [nowVer] ∧ nowVer.death = none ∧
      nowVer.res = .here 70 2 ∧ nowVer.birth = vol0.gen) ∧
    ((∀ r ∈ fullReclaims.cat.reclaims, r.vol = 0 → r.ext = 0 → r.loc ≠ 71) ∧
      4096 ≤ fullReclaims.cat.reclaims.length) ∧
    out (.commit 1 4 0 0 5 71 0 none []) fullReclaims
      (fun t => (t.link 1).tx == [.reply 4 .commit .busy .none]) = true :=
  ⟨by decide, ⟨fun r hr => by simp [List.eq_of_mem_replicate hr], (List.length_replicate).ge⟩, by decide +kernel⟩

def attach0 : Attach :=
  { vol := 31, link := 0, req := 0, owner := 1, count := 1048576, recovery := true, hourlyKeep := 48
    nightlyKeep := 30, hourlyCuts := true, nightlyCut := true, base := 0, size := 536870912 }
def attachingState : State := withReq { base with cat.attaching := [attach0] } (entryOf 0 3 .volumeAttach)

theorem witness_AttachPlacesASpanAndWritesTheVolume :
    let s := inState .standby base
    (s.takes 0 ∧ s.role 0 = .console ∧ s.tallyStill ∧ s.sup.op = .standby ∧ s.role 1 = .fileserver ∧
      s.volume 31 = none ∧ (∀ a ∈ s.cat.attaching, a.vol ≠ 31) ∧ (s.placeSpan 1048576).isSome = true) ∧
    (base.takes 0 ∧ base.sup.op = .active) ∧
    (attachingState.sup.op ≠ .halted ∧ attachingState.calm ∧ attachingState.cat.attaching = [attach0] ∧
      attachingState.awaits 0 0 (entryOf 0 3 .volumeAttach)) ∧
    out (.volumeAttach 0 4 31 1 1048576 true 48 30 true true []) s
      (fun t => t.cat.attaching.map (fun a => (a.vol, a.size)) == [(31, 536870912)]) = true ∧
    out (.attachComplete 31 []) attachingState (fun t => (t.volume 31).any (fun v => v.gen == 1 && v.count == 1048576) &&
      (t.link 0).tx == [.reply 3 .volumeAttach .done .none]) = true := by decide

theorem witness_DetachRemovesTheVolume :
    let s := inState .standby stored
    let p := withSnap s { snap with restorePins := 1 }
    (s.takes 0 ∧ s.role 0 = .console ∧ s.calm ∧ s.sup.op = .standby ∧ s.volume 0 = some vol0 ∧
      (∀ q ∈ s.snapsOf 0, q.pins = 0 ∧ q.leaving = false) ∧ vol0.refTotal = 0 ∧ s.restoring 0 = false) ∧
    (∃ q ∈ p.snapsOf 0, 0 < q.pins) ∧
    ((withVol s { vol0 with refTotal := 1 }).volume 0 = some { vol0 with refTotal := 1 } ∧
      ∀ q ∈ (withVol s { vol0 with refTotal := 1 }).snapsOf 0, q.pins = 0) ∧
    (stored.takes 0 ∧ stored.sup.op = .active) ∧
    out (.volumeDetach 0 4 0 []) s (fun t => (t.volume 0).isNone && (t.snapshot 0 1).isNone) = true ∧
    out (.volumeDetach 0 4 0 []) (s.modLink 2 fun r =>
        { r with cursor := some { table := .extents 0, key := 3, detached := false } })
      (fun t => (t.link 2).cursor == some { table := .extents 0, key := 3, detached := true }) = true ∧
    out (.volumeDetach 0 4 0 []) p (fun t => (t.link 0).tx == [.reply 4 .volumeDetach .pinned .none]) = true ∧
    out (.volumeDetach 0 4 0 []) (withVol s { vol0 with refTotal := 1 })
      (fun t => (t.link 0).tx == [.reply 4 .volumeDetach .busy .none]) = true := by decide

theorem witness_CutWritesTheSnapshot :
    (stored.takes 1 ∧ stored.volume 0 = some vol0 ∧ stored.actsOn 1 vol0 ∧ vol0.gen < maxGeneration ∧
      (stored.snapsOf 0).length < 64 ∧ stored.cat.snapshots.length < 1024) ∧
    (stored.snapshotsKeyed ∧ ∀ p ∈ stored.snapsOf 0, p.pins = 0 ∧ p.gen < vol0.gen) ∧
    (stored.role 2 = .fileserver ∧ (2 : Link) ≠ vol0.owner) ∧
    out (.cut 1 4 0 (some .manual) []) stored
      (fun t => (t.link 1).tx == [.reply 4 .cut .done (.cut 3)] && (t.snapshot 0 3).isSome) = true ∧
    out (.cut 1 4 0 (some .hourly) []) (withVol stored { vol0 with hourlyKeep := 0 })
      (fun t => (t.activeOf 0 .hourly).length == 0 && (t.snapshot 0 3).any (fun p => p.state == .expiring 0)) =
      true ∧
    out (.cut 2 4 0 (some .manual) []) stored
      (fun t => (t.link 2).tx == [.reply 4 .cut .notPermitted .none]) = true := by decide

/-- A nightly due of the volume opened at second 0. -/
def dueSince (elapsed : Nat) : State :=
  ({ stored with cat.dues := [(0, { hourly := none, nightly := some { opened := 0, clock := 0, sent := true } })] } :
    State).modSup fun u => { u with elapsed := elapsed }

/-- A nightly Cut answers its due while the window is open: the volume joins the plan, its mark's snapshot as
base. -/
theorem witness_NightlyCutJoinsThePlan :
    let s := withVol (night (dueSince 100)) { vol0 with mark := 1 }
    (s.takes 1 ∧ s.calm ∧ s.volume 0 = some { vol0 with mark := 1 } ∧ s.actsOn 1 { vol0 with mark := 1 } ∧
      (s.snapsOf 0).length < 64 ∧ s.cat.snapshots.length < 1024 ∧ s.snapshotsKeyed ∧ (1 : Nat) < vol0.gen ∧
      (∀ p ∈ s.snapsOf 0, p.gen < vol0.gen) ∧ (s.scopeOf 0).map Prod.fst = some 0 ∧ 0 ∉ s.off.shedScopes ∧
      s.pinGranted 0 1 = true ∧ (s.duesOf 0).nightly ≠ none ∧ s.windowIsOpen = true) ∧
    ((dueSince 100).windowIsOpen = false ∧ stored.volume 1 = none ∧ stored.takes 1) ∧
    out (.cut 1 4 0 (some .nightly) []) s (fun t => t.off.plan.map (fun p => (p.vol, p.target, p.base)) == [(0, 3, 1)] &&
      (t.duesOf 0).nightly.isNone && (t.snapshot 0 1).any (fun p => p.shipPins == 1) &&
      (t.snapshot 0 3).any (fun p => p.shipPins == 1)) = true ∧
    out (.cut 1 4 0 (some .nightly) []) (dueSince 100) (fun t => t.off.plan.isEmpty) = true ∧
    out (.cut 1 4 1 (some .manual) []) stored
      (fun t => (t.link 1).tx == [.reply 4 .cut .unknownVolume .none]) = true := by decide

theorem witness_CutDuesOpenAndAreMissed :
    let s := stored.modSup fun u => { u with counted := true }
    (s.sup.op = .active ∧ s.sup.clockSet = true ∧ s.sup.counted = true ∧ s.sup.clock % 3600 = 0 ∧
      s.sup.hourlyTaken = false ∧ s.calm ∧ Tbl.wf s.cat.volumes = true) ∧
    (State.reset.sup.op ≠ .halted ∧ State.reset.sup.clockSet = false) ∧
    ((dueSince 1800).sup.op = .active ∧ (dueSince 1800).calm ∧ ((dueSince 1800).duesOf 0).nightly.isSome = true) ∧
    ((dueSince 1799).duesOf 0).nightly = some { opened := 0, clock := 0, sent := true } ∧
    out .hourlyCutDueOpen s
      (fun t => (t.link 1).tx == [.directive 0 (.cutDue 0 false 3)] && (t.duesOf 0).hourly.isSome) = true ∧
    out (.cutWaitExpiry 0) (dueSince 1800)
      (fun t => (t.duesOf 0).nightly.isNone && t.sup.raised == [0, 0, 0, 0, 1, 0, 0, 0, 0, 0, 0]) = true ∧
    out (.cutWaitExpiry 0) (dueSince 1799) (fun t => (t.duesOf 0).nightly.isSome) = true := by decide

theorem witness_ExpireStartsTheSweepOrTheDrop :
    let h := withSnap stored { snap with held := true }
    let o := withSnap stored { snap with state := .offsiteOnly }
    let e := withSnap stored { snap with state := .expiring 0 }
    let p := withSnap stored { snap with shipPins := 1 }
    (stored.takes 1 ∧ stored.volume 0 = some vol0 ∧ stored.actsOn 1 vol0 ∧ stored.snapshot 0 1 = some snap ∧
      snap.pins = 0 ∧ snap.leaving = false ∧ stored.calm) ∧
    h.snapshot 0 1 = some { snap with held := true } ∧ o.snapshot 0 1 = some { snap with state := .offsiteOnly } ∧
    (e.snapshot 0 1).any Snapshot.leaving = true ∧ (p.snapshot 0 1).any (fun q => decide (0 < q.pins)) = true ∧
    stored.snapshot 0 2 = none ∧ (stored.takes 0 ∧ stored.volume 32 = none) ∧
    (stored.takes 2 ∧ stored.role 2 = .fileserver ∧ 2 ≠ vol0.owner) ∧
    out (.expireLocal 1 4 0 1) stored (fun t => (t.snapshot 0 1).any fun q => q.state == .expiring 0) = true ∧
    out (.expireOffsite 1 4 0 1) h (fun t => (t.snapshot 0 1).any (fun q => q.state == .dropping true none) &&
      t.off.controls == [.drop 0 1]) = true ∧
    out (.expireLocal 1 4 0 1) p (fun t => (t.link 1).tx == [.reply 4 .expireLocal .pinned .none]) = true ∧
    out (.expireOffsite 1 4 0 2) h (fun t => (t.link 1).tx == [.reply 4 .expireOffsite .unknownSnapshot .none]) =
      true ∧
    out (.expireLocal 2 4 0 1) stored (fun t => (t.link 2).tx == [.reply 4 .expireLocal .notPermitted .none]) =
      true := by decide

/-- A dead shipped version with a reference out, and a sweep at an extent of a volume. -/
def deadVer : Version := { ver with death := some 2, res := .here 70 1, shipped := true }
def sweepAt (count : Nat) (p : Snapshot) : State :=
  withVol (withSnap (lone deadVer) p) { vol0 with count := count, refTotal := 1 }

theorem witness_SweepsVisitEachExtent :
    let a := sweepAt 4 { snap with state := .expiring 0 }
    let b := sweepAt 1 { snap with state := .expiring 0, held := true }
    let c := sweepAt 1 { snap with state := .dropping false (some 0) }
    (a.sweeps 0 0 { vol0 with refTotal := 1 } ∧ a.snapshot 0 1 = some { snap with state := .expiring 0 } ∧
      deadVer ∈ (a.extent 0 0).versions ∧ deadVer.heldAt 1 = true) ∧
    b.sweeps 0 0 { vol0 with count := 1, refTotal := 1 } ∧
    (c.sweeps 0 0 { vol0 with count := 1, refTotal := 1 } ∧
      c.snapshot 0 1 = some { snap with state := .dropping false (some 0) }) ∧
    (inState .holdup a).sup.op = .holdup ∧
    out (.expirySweepVisit 0 1 []) a (fun t => (t.extent 0 0).versions.isEmpty &&
      t.cat.reclaims == [{ vol := 0, ext := 0, loc := 70, refs := 1 }] &&
      (t.snapshot 0 1).any (fun q => q.state == .expiring 1)) = true ∧
    out (.expirySweepVisit 0 1 []) b (fun t => (t.extent 0 0).versions.map Version.res == [.offsite] &&
      (t.snapshot 0 1).any (fun q => q.state == .offsiteOnly)) = true ∧
    out (.dropSweepVisit 0 1 []) c (fun t => (t.extent 0 0).versions.isEmpty && (t.snapshot 0 1).isNone) = true := by
  decide

/-! ### Restores -/

def body0 : RestoreBody :=
  { principal := 5, vol := 0, gen := 1, first := 0, count := 1, mode := .inPlace, tvol := 0, tfirst := 0
    partialOk := false }
/-- A dead version of the snapshot with 12 blocks before a live one of 8. -/
def rich : State :=
  withExt stored { ext0 with versions := [{ ver with birth := 3 }, { ver with death := some 3, occ := 12 }] }
/-- Two extents asked for by the person from its FILESERVER link: a LOCAL version, and one that is OFFSITE_ONLY. -/
def body2 : RestoreBody := { body0 with count := 2 }
def two : State :=
  let q := { rich with rst.waiting := [{ link := 0, req := 0, role := .fileserver, body := body2 }] }
  withReq { q with
    cat.extents := [(0, rich.extent 0 0), (1, { ext0 with versions :=
      [{ ver with birth := 2 }, { ver with death := some 2, res := .offsite, occ := 9 }] })]
    sup.settings.classes := [(0, { grace := 0, selfRestore := true })] } { entryOf 0 3 .restore with taken := false }

theorem witness_RestoreIsAcceptedInTurn :
    (stored.takes 1 ∧ stored.tallyStill) ∧
    (two.sup.op = .active ∧ two.calm ∧ two.rst.acceptance = none ∧
      two.awaits 0 0 { entryOf 0 3 .restore with taken := false } ∧ two.volume 0 = some vol0 ∧
      vol0.count ≤ 1048576 ∧ two.snapshot 0 1 = some snap ∧ snap.leaving = false) ∧
    (two.prin 5 = some person ∧ person.kind = .person ∧ person.active < 2 ∧ (two.classOf 0).selfRestore = true ∧
      (∀ i, i < 2 → (two.extent 0 i).owner = 5)) ∧
    ((two.restore 0 = none) ∧ (∀ i, i < 2 → ((two.extent 0 i).heldAt 1).isSome = true) ∧
      (∀ i, i < 2 → (two.extent 0 i).lock = none) ∧ ∀ kr ∈ two.rst.table, kr.2.rid ≠ two.rst.counter) ∧
    ((inState .standby two).sup.op = .standby ∧
      (withSnap two { snap with state := .expiring 0 }).snapshot 0 1 = some { snap with state := .expiring 0 }) ∧
    out (.restore 1 4 body0) stored (fun t => t.rst.waiting.length == 1) = true ∧
    out (.restoreAcceptance []) two (fun t =>
      t.rst.acceptance.any (fun a => a.rid == 1 && a.reserve == 5 && a.steps.map Step.kind == [.copy, .fetch]) &&
      (t.extent 0 0).lock == some 1 && (t.extent 0 1).lock == some 1 &&
      (t.snapshot 0 1).any (fun p => p.restorePins == 1)) = true ∧
    out (.restoreAcceptance []) (inState .standby two)
      (fun t => (t.link 0).tx == [.reply 3 .restore .wrongState .none]) = true ∧
    out (.restoreAcceptance []) (withSnap two { snap with state := .expiring 0 })
      (fun t => (t.link 0).tx == [.reply 3 .restore .unknownSnapshot .none]) = true := by
  (repeat' apply And.intro) <;> decide

/-- A reservation of `n` blocks for an acceptance of one COPY. -/
def reserving (n : Nat) : State :=
  withReq { withOp tallied (opOf (.reserve 5 n) .ready) with
    rst.acceptance := some { link := 0, req := 0, body := body0, rid := 1, steps := [stepOne], reserve := n } }
    (entryOf 0 3 .restore)

theorem witness_ReservationDecidesTheAcceptance :
    ((reserving 885).sup.op = .active ∧ (reserving 885).tallyOnly (opOf (.reserve 5 885) .ready) ∧
      (reserving 885).plainLines [5, 2] ∧ (reserving 885).prin 5 = some person ∧ (reserving 885).prin 2 = some pool ∧
      (reserving 885).headroom 5 = 885 ∧ (reserving 885).headroom 5 ≤ (reserving 885).headroom 2 ∧
      (reserving 885).awaits 0 0 (entryOf 0 3 .restore) ∧ (reserving 885).restore 0 = none) ∧
    (reserving 886).headroom 5 < 886 ∧
    out (.admissionCalculation 0 []) (reserving 885) (fun t => t.current 5 == (105, 895) &&
      (t.restore 0).any (fun r => r.state == .planned && r.remaining == 885) &&
      (t.link 0).tx == [.reply 3 .restore .accepted (.restoreAccepted 1 1 0 0 885)]) = true ∧
    out (.admissionCalculation 0 []) (reserving 886) (fun t => t.current 5 == (105, 10) &&
      (t.link 0).tx == [.reply 3 .restore .limit (.restoreLimit 885 5)]) = true := by decide

/-- The acceptance's lock and pin held, and the person's pool frozen. -/
def lockedFrozen : State :=
  ((withSnap (withExt (reserving 886) { ext0 with lock := some 1 }) { snap with restorePins := 1 })).modPrin 2
    fun p => { p with frozen := true }

theorem witness_ReservationRefusedReleases :
    (lockedFrozen.snapshot 0 1 = some { snap with restorePins := 1 } ∧ lockedFrozen.tallyOnly (opOf (.reserve 5 886) .ready) ∧
      lockedFrozen.plainLines [5, 2] ∧ (lockedFrozen.prin 2).any Principal.frozen = true ∧
      lockedFrozen.prin 5 = some person ∧ person.frozen = false ∧ lockedFrozen.awaits 0 0 (entryOf 0 3 .restore)) ∧
    out (.admissionCalculation 0 []) lockedFrozen (fun t => t.rst.acceptance.isNone && (t.extent 0 0).lock.isNone &&
      (t.snapshot 0 1).any (fun p => p.restorePins == 0) &&
      (t.link 0).tx == [.reply 3 .restore .frozen (.restoreFrozen 2)]) = true := by decide

def planned : State := withRst stored { rest0 with state := .planned }
def issuedStep : Step := { stepOne with state := .issued }
def dirFor (k : DirKind) (who : Issuer) (refs : List (Nat × Nat × Nat)) : Directive :=
  { tag := 6, kind := k, issuer := who, issued := 0, limit := 120, refs := refs }
def withDir (s : State) (d : Directive) : State := s.modLink 1 fun r => { r with directives := [d] }

theorem witness_RestoresStartCancelAndReport :
    let i := withRst stored { rest0 with steps := [issuedStep] }
    let d := withRst stored { rest0 with state := .done }
    (planned.sup.op = .active ∧ Tbl.wf planned.rst.table = true ∧
      planned.restore 0 = some { rest0 with state := .planned } ∧ planned.placesUsed < 8) ∧
    ((inState .standby planned).sup.op ≠ .active) ∧
    (i.takes 1 ∧ i.recordOf 9 = some (0, { rest0 with steps := [issuedStep] }) ∧ rest0.link = 1) ∧
    (planned.takes 1 ∧ planned.calm ∧ planned.recordOf 9 = some (0, { rest0 with state := .planned }) ∧
      planned.prin 5 = some person) ∧
    (d.recordOf 9 = some (0, { rest0 with state := .done }) ∧ RestoreState.done.isActive = false) ∧
    planned.recordOf 8 = none ∧
    out .restoreStart planned (fun t => (t.restore 0).any fun r => r.state == .running) = true ∧
    out (.restoreCancel 1 4 9) i (fun t => (t.restore 0).any (fun r => r.state == .cancelling) &&
      (t.link 1).tx == [.reply 4 .restoreCancel .accepted .none]) = true ∧
    out (.restoreCancel 1 4 9) planned (fun t => (t.restore 0).any (fun r => r.state == .cancelled) &&
      t.sup.raised == [0, 0, 0, 1, 0, 0, 0, 0, 0, 0, 0]) = true ∧
    out (.restoreStatus 1 4 8 []) planned
      (fun t => (t.link 1).tx == [.reply 4 .restoreStatus .range .none]) = true := by decide

def fetchStep : Step := { stepOne with kind := .fetch, loc := none }
/-- Sixteen FULL slots of the step. -/
def fullSlots : Tbl Slot :=
  (List.range 16).map fun n => (n, { state := .full, cls := .fetch, holder := .step 0 0, idx := n, expected := 0
                                     computed := 0, seq := none, data := [], fullOrder := 0, covered := false })
def puttable : State :=
  { withRst stored { rest0 with steps := [{ fetchStep with state := .fetching }] } with str.slots := fullSlots }

theorem witness_StepsAreTakenUp :
    let c := withRst stored rest0
    let f := withRst stored { rest0 with steps := [fetchStep] }
    let d := withVol c { vol0 with damage := [0] }
    (c.sup.op = .active ∧ c.calm ∧ c.restore 0 = some rest0 ∧ rest0.inFlight < 4 ∧
      (c.extent 0 0).version 1 = some ver ∧ c.damaged 0 0 = false ∧ c.ownerOf 0 = some 1 ∧ (c.link 1).up = true ∧
      (c.link 1).directives.length < 16 ∧ (c.link 1).placeWaits = []) ∧
    (f.calm ∧ f.restore 0 = some { rest0 with steps := [fetchStep] } ∧ 0 < ver.occ ∧ f.off.roomWaits = [] ∧
      f.off.fetchQueue.length + f.fetchesOut + 16 ≤ 32) ∧
    (d.restore 0 = some rest0 ∧ d.damaged rest0.vol (rest0.first + 0) = true) ∧
    out (.stepTakeUp 0 []) c (fun t => (t.link 1).tx == [.directive 0 (.copy 70 0 0)] &&
      (t.extent 0 0).versions.map Version.refs == [1]) = true ∧
    out (.stepTakeUp 0 []) f (fun t => t.off.fetchQueue.length == 16) = true ∧
    out (.stepTakeUp 0 []) d (fun t => (t.restore 0).any fun r => r.failedStep == some (0, .damaged)) = true := by
  decide

theorem witness_StepsAreTakenUpAndPut :
    (puttable.sup.op = .active ∧ puttable.calm ∧ (puttable.restore 0).isSome = true ∧
      (puttable.chunksOf (.step 0 0) .full).length = 16 ∧ (puttable.extent 0 0).version 1 = some ver ∧
      puttable.ownerOf 0 = some 1 ∧ (puttable.link 1).up = true ∧ (puttable.link 1).directives.length < 16 ∧
      (puttable.link 1).placeWaits = []) ∧
    out (.put 0 0 []) puttable (fun t => (t.link 1).tx.length == 17 &&
      (t.link 1).tx.head? == some (.directive 0 (.put 0 0 8 16))) = true := by decide +kernel

def putting : State :=
  withDir (withExt (withRst stored { rest0 with steps := [{ fetchStep with state := .putting }] })
    { ext0 with lock := some 9 }) (dirFor .put (.step 0 0) [])
/-- A recovery to volume 2, its COPY outstanding. -/
def recovering : State :=
  let r := { rest0 with mode := .recovery, tvol := 2, tfirst := 3, steps := [issuedStep] }
  withDir { withRst stored r with
    cat.volumes := [(0, { vol0 with refTotal := 1 }), (2, { vol0 with recovery := true, base := 1048576 })]
    cat.extents := [(0, { ext0 with versions := [{ ver with res := .here 70 1 }] }),
      (extentKey 2 3, { owner := 0, lock := some 9, versions := [] })] } (dirFor .copy (.step 0 0) [(0, 0, 70)])

theorem witness_CompletedStepsMakeRestoredVersions :
    (putting.sup.op ≠ .halted ∧ putting.calm ∧ (putting.link 1).up = true ∧
      putting.directive 1 6 = some (dirFor .put (.step 0 0) []) ∧ (putting.restore 0).isSome = true ∧
      (putting.extent 0 0).version 1 = some ver ∧ 0 < ver.occ ∧
      putting.commitCheck none (some 9) 0 0 5 80 8 (some ver.codes) = none) ∧
    (recovering.calm ∧ recovering.directive 1 6 = some (dirFor .copy (.step 0 0) [(0, 0, 70)]) ∧
      ((recovering.extent 0 0).version 1).any (fun v => v.loc == some 70) = true ∧
      recovering.commitCheck none (some 9) 2 3 5 80 8 (some ver.codes) = none) ∧
    (∀ d ∈ (stored.link 1).directives, d.tag ≠ 6) ∧
    out (.putDone 1 6 80 []) putting (fun t => (t.extent 0 0).versions.map Version.loc == [some 80, some 70] &&
      t.tally.ops.map TallyOp.job == [.convert 0 0 5 4 4 1]) = true ∧
    out (.copyDone 1 6 80 []) recovering (fun t => (t.extent 2 3).versions.map Version.loc == [some 80] &&
      (t.extent 0 0).versions.map Version.refs == [0]) = true ∧
    out (.copyDone 1 6 80 []) stored (fun t => (t.link 1).tx == [.directive 0 (.reclaim 80)]) = true := by decide

/-- A PUT step issued in the drain of a Standby Enter (R102). -/
def drainStep : Step := { fetchStep with state := .putting, inPause := true }

theorem witness_FailedDirectivesAreReissuedOnce :
    let a := withDir (withRst stored { rest0 with steps := [issuedStep] }) (dirFor .copy (.step 0 0) [])
    let b := withDir (withRst stored { rest0 with steps := [{ issuedStep with reissued := true }] })
      (dirFor .copy (.step 0 0) [])
    let late := a.modSup fun u => { u with elapsed := 120 }
    (a.sup.op ≠ .halted ∧ (a.link 1).up = true ∧ a.directive 1 6 = some (dirFor .copy (.step 0 0) []) ∧
      a.restore 0 = some { rest0 with steps := [issuedStep] }) ∧
    (putting.directive 1 6 = some (dirFor .put (.step 0 0) []) ∧ rest0.state = .running) ∧
    (0 + 120 ≤ late.sup.elapsed ∧ a.sup.elapsed < 0 + 120) ∧ (∀ d ∈ (stored.link 1).directives, d.tag ≠ 6) ∧
    out (.copyFail 1 6) a (fun t => (t.restore 0).any fun r => r.stepsIn .waiting == 1 && r.inFlight == 1) = true ∧
    (∀ j y, j ≠ 0 → [issuedStep, drainStep][j]? = some y →
      y.state ≠ .issued ∧ (y.state = .putting → y.inPause = true)) ∧
    out (.copyFail 1 6) (withRst a { rest0 with pausing := true, steps := [issuedStep, drainStep] })
      (fun t => (t.restore 0).any fun r => r.state == .paused && !r.pausing && r.stepsIn .waiting == 1) = true ∧
    out (.copyFail 1 6) b (fun t => (t.restore 0).any fun r => r.failedStep == some (0, .directive)) = true ∧
    out (.putFail 1 6) putting (fun t => (t.restore 0).any fun r => r.stepsIn .fetching == 1) = true ∧
    out (.directiveWaitExpiry 1 6) late (fun t => (t.link 1).directives.isEmpty) = true ∧
    out (.directiveWaitExpiry 1 6) a (fun t => (t.link 1).directives.length == 1) = true := by
  refine ⟨by decide, by decide, by decide, by decide, by decide, ?_, by decide, by decide, by decide, by decide,
    by decide⟩
  intro j y hj hy
  obtain ⟨k, rfl⟩ := Nat.exists_eq_succ_of_ne_zero hj
  cases k with
  | zero => cases hy; exact ⟨by decide, fun _ => rfl⟩
  | succ k => cases hy

/-- R92, R175: a later step that heads the waits for a place does not hold back the restore's next one. -/
theorem test_stepTakeUp_passesADeadWait :
    out (.stepTakeUp 0 []) ((withRst stored { rest0 with count := 2, steps := [stepOne, { stepOne with again := true }] }).modLink 1
        fun r => { r with placeWaits := [.step 0 1] })
      (fun t => (t.restore 0).any (fun r => r.steps.map Step.state == [.issued, .waiting]) &&
        (t.link 1).placeWaits == [.step 0 1]) = true := by decide

/-- R95, R175: a step whose PUT would be ready, but whose source can no longer be read, holds no place back. -/
theorem test_stepMayTake_needsItsSource :
    puttable.stepMayTake 0 0 = true ∧
    (withExt puttable { ext0 with lock := some 9, versions := [{ ver with birth := 0 }] }).stepMayTake 0 0 = false := by
  decide +kernel

/-! ### The Stream Buffer and the night -/

def slotOf (st : SlotState) (c : SlotClass) (h : SlotHolder) (idx : Nat) : Slot :=
  { state := st, cls := c, holder := h, idx := idx, expected := 0#32, computed := 0#32, seq := none, data := []
    fullOrder := 0, covered := false }
def withSlot (s : State) (x : Slot) : State := { s with str.slots := [(7, x)] }
def asksRepair : State := { base with str.waitRepair := [{ holder := .repair 0, wants := [(3, 9#32)] }] }
/-- A SHIP request for `k` slots with 51 held in class SHIP: 13 are free, and 12 are the reserve. -/
def asksShip (k : Nat) : State :=
  { base with
    str.slots := (List.range 51).map fun n => (n, slotOf .filling .ship (.shipPull 1) n)
    str.waitShip := [{ holder := .shipPull 0, wants := (List.range k).map fun i => (i, 0#32) }] }
def sendingSlot (covered : Bool) : State :=
  withSlot base { slotOf .sending .ship (.shipPull 0) 0 with seq := some 5, covered := covered }

theorem witness_SlotsAreGrantedAndReleased :
    (asksRepair.sup.op ≠ .halted ∧ asksRepair.sup.op ≠ .holdup ∧ asksRepair.calm ∧ asksRepair.str.slots.length < 64 ∧
      asksRepair.slot 0 = none) ∧
    ((asksShip 2).calm ∧ (asksShip 2).str.waitShip.length = 1 ∧
      64 - (asksShip 2).str.slots.length - 2 < (4 - (asksShip 2).slotsHeld .repair) + (8 - (asksShip 2).slotsHeld .fetch)) ∧
    ((sendingSlot false).calm ∧ ((sendingSlot false).slot 7).any (fun x => x.seq == some 5) = true) ∧
    out .slotGrant asksRepair (fun t => (t.slot 0).any fun x => x.idx == 3 && x.expected == 9#32) = true ∧
    out .slotGrant (asksShip 2) (fun t => t.str.slots.length == 51) = true ∧
    out .slotGrant (asksShip 1) (fun t => t.str.slots.length == 52) = true ∧
    out (.shipFrameTransmitted 5) (sendingSlot false) (fun t => (t.slot 7).any fun x => x.state == .awaitingAck) = true ∧
    out (.shipFrameTransmitted 5) (sendingSlot true) (fun t => (t.slot 7).isNone) = true := by decide

/-- One o'clock, the open time; the same with an EXTERNAL window. -/
def atOpen : State := stored.modSup fun u => { u with clock := 3600, counted := true }
def external (s : State) : State :=
  s.modSup fun u => { u with settings := { u.settings with windowSource := .external } }
/-- A DROP outstanding. -/
def shipOut : OutFrame := { num := 0, body := .control (.drop 0 1), received := false, naks := 0, vacant := false }
def outBase (s : State) : State := { s with off.link := .up, off.dir := .ship, off.outstanding := [shipOut] }
def ending (s : State) : State := { s with off.phase := .ending 80 20 }

theorem witness_WindowOpensAndTheNightEnds :
    (atOpen.sup.op = .active ∧ atOpen.off.phase = .closed ∧ atOpen.internal = true ∧ atOpen.sup.clockSet = true ∧
      atOpen.sup.counted = true ∧ atOpen.sup.clock % 86400 = atOpen.sup.settings.openTime ∧
      atOpen.insidePeriod = true ∧ atOpen.calm ∧ atOpen.off.link = .down) ∧
    (stored.sup.op ≠ .halted ∧ stored.sup.clock % 86400 ≠ stored.sup.settings.openTime) ∧
    ((external stored).takes 0 ∧ (external stored).role 0 = .console ∧ (external stored).internal = false ∧
      (external stored).nightEnding = false ∧ (ending (external stored)).nightEnding = true) ∧
    ((night (outBase (external stored))).off.phase = .windowOpen ∧ (night (outBase (external stored))).shipsOut = true) ∧
    out .windowOpening atOpen (fun t => t.off.phase == .windowOpen && t.off.closeInstant == some 21600 &&
      t.off.link == .opening 1 && (t.duesOf 0).nightly.isSome) = true ∧
    out (.windowOpen 0 4) (external stored) (fun t => t.off.phase == .windowOpen && t.off.closeInstant == none) =
      true ∧
    out (.windowOpen 0 4) (ending (external stored)) (fun t => (t.link 0).tx == [.reply 4 .windowOpen .busy .none]) =
      true ∧
    out (.windowClose 0 4) (night (outBase (external stored))) (fun t => t.off.phase == .ending 100 20 &&
      (t.link 0).tx == [.reply 4 .windowClose .accepted .none]) = true := by decide

theorem witness_TheNightCloses :
    let c := { night (outBase stored) with off.closeInstant := some 7200 }
    let n := ending (external stored)
    (c.sup.op = .active ∧ c.internal = true ∧ c.patrolStill ∧ c.off.phase = .windowOpen ∧ 7200 ≤ c.sup.clock ∧
      c.shipsOut = true) ∧
    (n.calm ∧ n.off.queue = [] ∧ n.off.pulls = [] ∧ n.shipsOut = false ∧
      n.sup.settings.windowSource = .external ∧ n.sup.pendingSettings.windowSource = none) ∧
    ((ending (outBase stored)).shipsOut = true ∧ 80 + 20 ≤ (ending (outBase stored)).sup.elapsed ∧
      (ending (outBase stored)).patrolStill) ∧
    out .windowClosing c (fun t => t.off.phase == .ending 100 20) = true ∧
    out .windowClosing { c with off.closeInstant := some 7201 } (fun t => t.off.phase == .windowOpen) = true ∧
    out .nightEnd n (fun t => t.off.phase == .closed && t.sup.raised == [0, 0, 0, 0, 0, 0, 1, 0, 0, 0, 0]) = true ∧
    out .closeAbandon (ending (outBase stored)) (fun t => t.off.outstanding.isEmpty && t.sent.contains (.offsite .close)) =
      true := by decide

/-- A plan volume. -/
def plan0 : PlanVol :=
  { vol := 0, state := .shipping, target := 1, base := 0, scope := 0, countCursor := 0, shipCount := 0, counted := []
    acked := 0, targetPin := false, basePin := false }
def withPlan (s : State) (ps : List PlanVol) : State := { night s with off.plan := ps }
/-- A base version of generation 1 and one of generation 2 that differs from it in one chunk. -/
def twoVers : State :=
  withPlan (withExt stored { ext0 with versions := [{ ver with birth := 2, codes := 1#32 :: List.replicate 15 0#32 },
    { ver with death := some 2 }] }) [{ plan0 with target := 2, base := 1 }]
def late (s : State) : State := s.modSup fun u => { u with elapsed := 160 }

theorem witness_WalksFormTheChangeSet :
    let a := withPlan stored [plan0]
    let b := withPlan stored [{ plan0 with countCursor := 1 }]
    let z := withExt b { ext0 with versions := [{ ver with occ := 0, codes := [] }] }
    (a.sup.op = .active ∧ a.calm ∧ a.off.phase = .windowOpen ∧ a.planOf 0 = some plan0 ∧ a.volume 0 = some vol0 ∧
      plan0.countCursor < vol0.count ∧ a.damaged 0 0 = false ∧ (a.extent 0 0).heldAt 1 = some ver ∧ 0 < ver.occ) ∧
    ((twoVers.planOf 0).any (fun p => p.base == 1) = true ∧
      ((twoVers.extent 0 0).heldAt 2).any (fun x => decide (1 < x.birth)) = true ∧
      ((twoVers.extent 0 0).heldAt 1).any (fun w => w.codes.length == 16) = true) ∧
    (b.calm ∧ vol0.shipCursor < vol0.count ∧ b.damaged 0 0 = false ∧ b.off.queue.length + 16 ≤ 256 ∧ 0 < ver.birth) ∧
    ((withExt a { ext0 with versions := [] }).extent 0 0).heldAt 1 = none ∧
    out (.countWalkVisit 0 []) a (fun t => (t.planOf 0).any fun q => q.shipCount == 16 && q.countCursor == 1) = true ∧
    out (.countWalkVisit 0 []) twoVers (fun t => (t.planOf 0).any fun q => q.shipCount == 1) = true ∧
    out (.shipWalkVisit []) b (fun t => t.off.queue.length == 16 && (t.volume 0).any fun v => v.shipCursor == 1) =
      true ∧
    out (.shipWalkVisit []) z (fun t => t.off.queue.map ShipEntry.form == [.empty]) = true := by decide

theorem witness_WalksFormTheChangeSetAndTheForecastSheds :
    let e := late { withPlan (external stored) [plan0] with
      off.intervalStart := 100, off.sawShip := true, off.rate := 40, off.acked := 6000 }
    let i := (late { withPlan stored [plan0, { plan0 with vol := 1, scope := 1 }] with
      off.intervalStart := 100, off.closeInstant := some 8101, off.rate := 1024 }).modSup fun u =>
        { u with settings := { u.settings with scopes := tput u.settings.scopes 1 { enabled := true, priority := 3, vols := [1] } } }
    let full := { i with off.plan := [{ plan0 with shipCount := 1 }, { plan0 with vol := 1, scope := 1, shipCount := 8 }] }
    (e.sup.op = .active ∧ e.calm ∧ e.off.phase = .windowOpen ∧ 100 + 60 ≤ e.sup.elapsed ∧ plan0 ∈ e.off.plan ∧
      e.internal = false) ∧
    (i.calm ∧ i.internal = true ∧ i.off.sawShip = false ∧ i.off.shedScopes = [] ∧ i.fits = true ∧ full.fits = false ∧
      ((tget i.sup.settings.scopes 0).getD Scope.initial).priority <
        ((tget i.sup.settings.scopes 1).getD Scope.initial).priority) ∧
    (stored.off.phase ≠ .windowOpen) ∧
    out .forecastIntervalEnd e (fun t => t.off.rate == 55 && t.off.intervalStart == 160 && t.off.acked == 0) = true ∧
    out .forecastIntervalEnd i (fun t => t.off.shedScopes == [] && t.off.lastFit) = true ∧
    out .forecastIntervalEnd full (fun t => t.off.shedScopes == [0] &&
      t.sup.raised == [0, 0, 0, 0, 0, 1, 0, 0, 0, 0, 0]) = true := by decide

def entry0 : ShipEntry :=
  { num := 0, vol := 0, ext := 0, birth := 1, form := .ship, chunks := [3], code := some 0#32, last := true
    failMark := false, state := .unpulled, slot := none }
def shipping (e : ShipEntry) : State :=
  { withPlan stored [plan0] with off.link := .up, off.dir := .ship, off.queue := [e], off.nextEntry := 1 }
def pull0 (st : PullStage) : ShipPull :=
  { n := 0, vol := 0, ext := 0, birth := 1, loc := 70, first := 3, count := 1, stage := st, cut := false }
def pulling : State :=
  withDir { shipping { entry0 with state := .pulling 0 } with
    off.pulls := [pull0 .issued], str.slots := [(7, slotOf .filling .ship (.shipPull 0) 3)] }
    (dirFor .pull (.shipPull 0) [])

/-- Every slot held, one of them FULL in class SHIP, and a fetch at the head of its queue. -/
def waitingFetch : FetchEntry := { holder := .repair 0, vol := 0, ext := 0, birth := 1, idx := some 2, code := 9#32 }
def allHeld : State :=
  let s := shipping { entry0 with state := .ready, slot := some 0 }
  { s with
    off.fetchQueue := [waitingFetch]
    str.slots := (0, { slotOf .full .ship (.shipPull 0) 3 with fullOrder := 1 }) ::
      (List.range 63).map fun n => (n + 1, slotOf .filling .ship (.shipPull 1) n) }

theorem witness_FullShipSlotTakenBack :
    (allHeld.sup.op ≠ .halted ∧ allHeld.sup.op ≠ .holdup ∧ allHeld.calm ∧ allHeld.off.link = .up ∧
      allHeld.off.dir ≠ .draining .toClose ∧ allHeld.off.roomWaits = [] ∧ allHeld.off.fetchQueue = [waitingFetch]) ∧
    (allHeld.slotFor waitingFetch.holder.slots 2 = none ∧ Tbl.wf allHeld.str.slots = true ∧
      allHeld.str.slots.length = 64 ∧ (∀ m, m < 64 → (allHeld.slot m).isSome = true) ∧
      ∀ p ∈ allHeld.off.plan, p.state ≠ .shed ∧ p.state ≠ .failed) ∧
    allHeld.slot 0 = some { slotOf .full .ship (.shipPull 0) 3 with fullOrder := 1 } ∧
    (∀ m y, allHeld.slot m = some y → m ≠ 0 → y.cls = .ship → y.state = .full → y.fullOrder < 1) ∧
    out .fetchQueueServe allHeld (fun t => (t.slot 0).any (fun x => x.idx == 2 && x.cls == .repair) &&
      t.off.queue.map ShipEntry.state == [.unpulled]) = true := by
  have h : ∀ kv ∈ allHeld.str.slots, kv.1 ≠ 0 → kv.2.cls = .ship → kv.2.state = .full → kv.2.fullOrder < 1 := by decide
  exact ⟨by decide, by decide +kernel, rfl, fun m y hy => h (m, y) (mem_of_tget hy), by decide +kernel⟩

theorem witness_PullsBringChunksToSlots :
    let a := shipping entry0
    let b := { a with off.pulls := [pull0 .place] }
    let data := List.replicate 262144 0#8
    let c := { pulling with str.slots := [(7, { slotOf .filling .ship (.shipPull 0) 3 with expected := checkCode data })] }
    (a.calm ∧ a.pullsGo = true ∧ a.planOf 0 = some plan0 ∧ (a.extent 0 0).version 1 = some ver ∧ ver.loc = some 70 ∧
      a.str.slots.length < 64 ∧ a.slot 0 = none ∧
      (4 - a.slotsHeld .repair) + (8 - a.slotsHeld .fetch) ≤ 64 - a.str.slots.length - 1) ∧
    (b.calm ∧ b.pullsGo = true ∧ b.ownerOf 0 = some 1 ∧ (b.link 1).up = true ∧ (b.link 1).directives.length < 16 ∧
      (b.link 1).placeWaits = [] ∧ b.damaged 0 0 = false ∧ ver ∈ (b.extent 0 0).versions) ∧
    ((c.sup.op = .active ∧ c.calm ∧ (c.link 1).up = true ∧
      c.directive 1 6 = some (dirFor .pull (.shipPull 0) []) ∧ c.off.pulls = [pull0 .issued]) ∧
      c.slot 7 = some { slotOf .filling .ship (.shipPull 0) 3 with expected := checkCode data } ∧
      c.slotFor (.shipPull 0) 3 = some (7, { slotOf .filling .ship (.shipPull 0) 3 with expected := checkCode data }) ∧
      data.length = 262144 ∧ c.pullLost (pull0 .issued) = false) ∧
    (pulling.calm ∧ (pulling.off.queue.map ShipEntry.num).Nodup ∧
      (∀ e ∈ pulling.off.queue, e.state = .pulling 0 → e.failMark = false) ∧
      ∀ q ∈ pulling.off.plan, q.state ≠ .shed ∧ q.state ≠ .failed) ∧
    out .pullRun a (fun t => t.off.pulls == [pull0 .place] && (t.slot 0).any fun x => x.idx == 3) = true ∧
    out (.pull 0 []) b (fun t => (t.link 1).tx == [.directive 0 (.pull 70 3 1 false)] &&
      t.off.queue.map ShipEntry.state == [.pulling 0]) = true ∧
    out (.extentData 1 6 3 [0#8]) pulling (fun t => (t.link 1).discarded == 1) = true ∧
    out (.pullEnd 1 6) pulling (fun t => t.off.queue == [{ entry0 with failMark := true }] && t.str.slots.isEmpty) =
      true :=
  ⟨by decide, by decide, ⟨⟨rfl, ⟨⟨rfl, rfl, rfl, rfl⟩, rfl, rfl, rfl, rfl⟩, rfl, rfl, rfl⟩, rfl, rfl, List.length_replicate, by decide⟩,
    by decide, by decide, by decide, by decide, by decide⟩

/-! ### The offsite link -/

/-- The link UP in a direction, with frames outstanding. -/
def upWith (s : State) (d : Direction) (fs : List OutFrame) : State :=
  { s with off.link := .up, off.dir := d, off.outstanding := fs }
def shipFrame0 (naks : Nat) : OutFrame :=
  { num := 5, body := .ship 0 0 0 1 1 0 [3], received := false, naks := naks, vacant := false }
def readyEntry : ShipEntry := { entry0 with state := .ready, slot := some 7 }
def readyState : State :=
  { withSlot (shipping readyEntry) (slotOf .full .ship (.shipPull 0) 3) with off.seqCounter := 65535 }
def sentState (naks : Nat) : State :=
  upWith { withSlot (shipping { readyEntry with state := .outstanding })
    { slotOf .awaitingAck .ship (.shipPull 0) 3 with seq := some 5 } with off.rate := 0 } .ship [shipFrame0 naks]

/-- R115, R120: the entry of a frame cut short while the night ends leaves the queue, and its frame stays vacant. -/
theorem test_meet_slotInEndingNight :
    let t := { sentState 0 with off.phase := .ending 80 20 }.meet (.slot 7)
    t.off.queue = [] ∧ t.off.outstanding.map OutFrame.vacant = [true] ∧ t.slot 7 = none := by decide

/-- R148, R149: a ship turn runs on over IDLE, and ends where the direction becomes FETCH. -/
theorem test_redirect_keepsTheTurn :
    let s := { upWith stored .idle [] with off.shipTurn := some 3 }
    let a := { s with off.controls := [.drop 0 1] }.redirect
    let b := { s with off.fetchQueue := [waitingFetch] }.redirect
    (a.off.dir = .ship ∧ a.off.shipTurn = some 3) ∧ b.off.dir = .fetch ∧ b.off.shipTurn = none := by decide

/-- A FETCH_REQ's entry and frame. -/
def fetchEntry0 (idx : Option Nat) : FetchEntry :=
  { holder := .step 0 0, vol := 0, ext := 0, birth := 1, idx := idx, code := 0#32 }
def fetchFrame0 (idx : Option Nat) : OutFrame :=
  { num := 8, body := .fetch (fetchEntry0 idx) false, received := false, naks := 0, vacant := false }

theorem witness_ShipFramesJoinTheList :
    let d := { withPlan stored [{ plan0 with countCursor := 4 }] with
      cat.volumes := [(0, { vol0 with shipCursor := 4 })], off.link := .up }
    let c := { upWith stored .ship [] with off.controls := [.drop 0 1] }
    let w := { readyState with off.shipTurn := some 15, off.fetchQueue := [fetchEntry0 none] }
    let gap := { shipFrame0 0 with vacant := true }
    let v := upWith readyState .ship [gap]
    (readyState.sup.op ≠ .halted ∧ readyState.calm ∧ readyState.off.phase = .windowOpen ∧ readyState.shipMay = true ∧
      readyState.off.controls = [] ∧ readyState.off.withdrawnNums = [] ∧ readyState.off.outstanding = [] ∧
      readyState.off.queue = [readyEntry] ∧ readyState.planOf 0 = some plan0) ∧
    (w.calm ∧ w.shipMay = true ∧ w.off.shipTurn = some 15 ∧ w.off.fetchQueue ≠ []) ∧
    (v.calm ∧ v.off.link = .up ∧ v.off.dir = .ship ∧ v.off.outstanding = [] ++ gap :: [] ∧ v.off.outstanding.Nodup ∧
      v.entry 0 = some readyEntry ∧ readyEntry.state = .ready ∧ v.planOf 0 = some plan0) ∧
    (d.calm ∧ d.off.phase = .windowOpen ∧ (d.volume 0).isSome = true ∧ d.off.link = .up ∧ d.off.dir = .idle ∧
      d.off.queue = [] ∧ d.off.pulls = [] ∧ d.off.controls = [] ∧ d.off.outstanding = []) ∧
    (c.calm ∧ c.shipMay = true ∧ c.off.controls = [.drop 0 1] ∧ c.off.withdrawnNums = []) ∧
    out (.ship []) readyState (fun t => t.off.outstanding.map OutFrame.num == [65535] && t.off.seqCounter == 0 &&
      (t.slot 7).any (fun x => x.state == .sending && x.seq == some 65535)) = true ∧
    out (.ship []) w (fun t => t.off.dir == .draining .toFetch) = true ∧
    out (.ship []) v (fun t => t.off.outstanding == [shipFrame0 0] && t.off.seqCounter == 65535 &&
      t.sent == [.offsite (.ship 5 0 1 0 0 1 .ship [3] (some 0#32) [])]) = true ∧
    out .volumeDone d (fun t => t.sent == [.offsite (.volumeDone 0 0 1 0 0)] &&
      t.off.plan.map PlanVol.state == [.awaitingDone]) = true ∧
    out .drop c (fun t => t.sent == [.offsite (.drop 0 0 1)] && t.off.controls.isEmpty) = true := by
  (repeat' apply And.intro) <;> decide

theorem witness_PeerAnswersSettleShipFrames :
    let a := sentState 0
    let w := { withPlan stored [{ plan0 with state := .awaitingDone }] with off.link := .up }
    let drop1 : OutFrame := { shipFrame0 0 with num := 4, body := .control (.drop 0 9) }
    let cu := { sentState 0 with off.outstanding := [drop1, shipFrame0 0], off.expiries := 1 }
    let p (a : Bool) := { withSnap stored { snap with held := true, state := .dropping a none } with off.link := .up }
    (a.sup.op ≠ .halted ∧ a.calm ∧ a.off.link = .up ∧ a.off.outstanding = [shipFrame0 0] ∧
      a.off.queue = [{ readyEntry with state := .outstanding }] ∧
      (a.slot 7).any (fun x => x.state == .awaitingAck) = true ∧ a.planOf 0 = some plan0 ∧
      ver ∈ (a.extent 0 0).versions ∧ a.damaged 0 0 = false) ∧
    (cu.calm ∧ cu.off.link = .up ∧ cu.off.outstanding = [drop1] ++ shipFrame0 0 :: [] ∧ drop1.num ≠ 5 ∧
      drop1.received = false ∧ ∀ p ∈ cu.off.plan, p.state ≠ .shed ∧ p.state ≠ .failed) ∧
    (stored.calm ∧ stored.off.link ≠ .up) ∧
    ((sentState 1).calm ∧ (sentState 1).off.outstanding = [shipFrame0 1] ∧ (sentState 1).planOf 0 = some plan0) ∧
    (w.calm ∧ w.planOf 0 = some { plan0 with state := .awaitingDone } ∧ w.volume 0 = some vol0 ∧
      w.snapshot 0 1 = some snap) ∧
    ((p true).off.link = .up ∧ (p true).snapshot 0 1 = some { snap with held := true, state := .dropping true none }) ∧
    stored.snapshot 0 1 = some snap ∧
    out (.ack 5) a (fun t => t.off.queue.isEmpty && t.off.acked == 256 && (t.slot 7).isNone &&
      (t.extent 0 0).versions.map Version.shipped == [true]) = true ∧
    out (.ack 6) a (fun t => t.off.outstanding == [shipFrame0 0]) = true ∧
    out (.ack 5) cu (fun t => t.off.outstanding == [{ drop1 with received := true }] && t.off.queue.isEmpty &&
      t.off.expiries == 0 && t.off.ackStart == 100) = true ∧
    out (.nak 5 1) a (fun t => t.off.outstanding == [shipFrame0 1] && t.sent.length == 1 &&
      (t.slot 7).any (fun x => x.state == .sending)) = true ∧
    out (.nak 5 1) (sentState 1) (fun t => t.off.withdrawnNums == [5] && t.off.plan.map PlanVol.state == [.failed] &&
      t.sup.raised == [0, 0, 0, 0, 0, 0, 0, 1, 0, 0, 0]) = true ∧
    out (.doneAck 0 1) w (fun t => (t.volume 0).any (fun v => v.mark == 1) &&
      (t.snapshot 0 1).any Snapshot.held) = true ∧
    out (.dropAck 0 1) (p true) (fun t => (t.snapshot 0 1).any fun q => q.state == .active && !q.held) = true ∧
    out (.dropAck 0 1) (p false)
      (fun t => (t.snapshot 0 1).any fun q => q.state == .dropping false (some 0)) = true := by
  (repeat' apply And.intro) <;> decide

theorem witness_OffsiteOpenAsksForAnOpening :
    let i := { stored with off.link := .up, off.idleSince := some 0 }.modSup fun u => { u with elapsed := 300 }
    ((inState .holdup stored).sup.op = .holdup ∧ ((inState .holdup stored).link 1).up = true) ∧
    (stored.takes 1 ∧ stored.patrolStill ∧ stored.off.link = .down) ∧
    (i.calm ∧ i.off.phase = .closed ∧ i.off.fetchQueue = [] ∧ i.off.controls = [] ∧ 0 + 300 ≤ i.sup.elapsed) ∧
    out (.offsiteOpen 1 4) stored (fun t => t.off.link == .opening 1 && t.sent == [.offsite (.open 0 16)]) = true ∧
    out .offsiteIdleTimeout i (fun t => t.off.link == .down && t.sent == [.offsite .close]) = true := by decide

theorem witness_OffsiteLinkOpensFaultsAndCloses :
    let o (n : Nat) := { stored with off.link := .opening n, off.ackStart := 80, off.ackLimit := 20 }
    let u (k : Nat) := { sentState 0 with off.ackStart := 80, off.ackLimit := 20, off.expiries := k }
    let f := { night stored with off.link := .faulted 40 }
    let i := { stored with off.link := .up, off.idleSince := some 0 }
    (((o 1).calm ∧ (o 1).off.roomWaits = [] ∧ (o 1).off.outstanding = []) ∧ (∀ n, stored.off.link ≠ .opening n)) ∧
    ((o 4).sup.op ≠ .halted ∧ (o 4).off.ackStart + (o 4).off.ackLimit ≤ (o 4).sup.elapsed) ∧
    ((u 2).nightEnding = false ∧ (u 2).off.roomWaits = [] ∧
      ∀ p ∈ (u 2).off.plan, p.state ≠ .shed ∧ p.state ≠ .failed) ∧
    ((u 1).calm ∧ (u 1).off.outstanding ≠ [] ∧ (u 1).off.dir ≠ .draining .toClose ∧
      (u 1).off.ackStart + (u 1).off.ackLimit ≤ (u 1).sup.elapsed) ∧
    ((late f).calm ∧ 40 + 60 ≤ f.sup.elapsed ∧ f.workWaits = true) ∧
    (i.calm ∧ i.off.phase = .closed ∧ i.off.fetchQueue = [] ∧ i.off.controls = [] ∧ i.sup.elapsed < 0 + 300) ∧
    out .openAck (o 1) (fun t => t.off.link == .up && t.off.dir == .idle) = true ∧
    out .ackWaitExpiry (o 3) (fun t => t.off.link == .opening 4) = true ∧
    out .ackWaitExpiry (o 4) (fun t => t.off.link == .faulted 100 &&
      t.sup.raised == [0, 0, 0, 0, 0, 0, 0, 0, 1, 0, 0]) = true ∧
    out .ackWaitExpiry (u 1) (fun t => t.off.expiries == 2 && t.off.outstanding.length == 1 && t.sent.length == 1 &&
      (t.slot 7).any (fun x => x.state == .sending)) = true ∧
    out .ackWaitExpiry (u 2) (fun t => t.off.link == .faulted 100 && t.off.outstanding.isEmpty &&
      t.off.queue.map ShipEntry.state == [.unpulled] && (t.slot 7).isNone) = true ∧
    out .carrierLoss (u 0) (fun t => t.off.link == .faulted 100) = true ∧
    out .carrierLoss (inState .standby (u 0)) (fun t => t.off.link == .down) = true ∧
    out .reopenIntervalExpiry f (fun t => t.off.link == .opening 1) = true ∧
    out .offsiteIdleTimeout (i.modSup fun u => { u with elapsed := 300 })
      (fun t => t.off.link == .down && t.sent == [.offsite .close]) = true :=
  ⟨⟨by decide, fun n => by simp [stored, tallied, base, State.reset, Offsite.initial]⟩,
    (by (repeat' apply And.intro) <;> decide)⟩

/-- R135: an OUTSTANDING entry without data of a shed volume is READY again after the link is lost, and stays. -/
theorem test_carrierLoss_keepsEntriesOfAShedVolume :
    let s := sentState 0
    out .carrierLoss { s with
        off.queue := [{ readyEntry with form := .ref, slot := none, state := .outstanding }]
        off.plan := [{ plan0 with state := .shed }] }
      (fun t => t.off.queue.map ShipEntry.state == [.ready]) = true := by decide

def fetching (refetched : List Nat) : State :=
  withRst stored { rest0 with steps := [{ fetchStep with state := .fetching, refetched := refetched }] }
def zeros : List Byte := List.replicate 262144 0#8
def filledBy (expected : Code) (refetched : List Nat) : State :=
  withSlot (upWith (fetching refetched) .fetch [fetchFrame0 (some 3)])
    { slotOf .filling .fetch (.step 0 0) 3 with expected := expected }

theorem code_succ (c : Code) : c ≠ c + 1#32 := by
  intro h
  have := congrArg BitVec.toNat h
  simp at this
  omega

theorem witness_FetchesAreServedAndAnswered :
    let s := { upWith (fetching []) .fetch [] with off.fetchQueue := [fetchEntry0 (some 3)] }
    let g := withSlot s (slotOf .filling .fetch (.step 0 0) 3)
    let m := upWith (fetching []) .fetch [fetchFrame0 none]
    let b := { upWith stored .ship [shipFrame0 0] with off.fetchQueue := [fetchEntry0 none] }
    let k (n : Nat) (cs : List Control) := { upWith (fetching []) .fetch [] with
      off.fetchQueue := [fetchEntry0 none, fetchEntry0 (some 3)], off.burst := n, off.controls := cs }
    let da := { upWith (sentState 0) (.draining .toFetch) [shipFrame0 0] with off.fetchQueue := [fetchEntry0 none] }
    let de := { upWith stored (.draining .toShip) [{ fetchFrame0 none with body := .fetch (fetchEntry0 none) true }] with
      off.controls := [.drop 0 9] }
    (s.sup.op ≠ .halted ∧ s.sup.op ≠ .holdup ∧ s.calm ∧ s.off.link = .up ∧ s.off.dir = .fetch ∧ s.off.roomWaits = [] ∧
      s.slotFor (.step 0 0) 3 = none ∧ s.str.slots.length < 64 ∧ s.slot 0 = none) ∧
    (g.calm ∧ g.fetchMay = true ∧ g.needsSlot (fetchEntry0 (some 3)) = false) ∧
    (m.off.link = .up ∧ m.off.outstanding = [fetchFrame0 none] ∧
      (m.restore 0).any (fun r => r.state == .running && r.steps.map Step.state == [.fetching])) ∧
    (stored.off.link ≠ .up) ∧
    (b.calm ∧ b.off.link = .up ∧ b.off.dir = .ship ∧ b.off.shipTurn = none ∧ b.off.fetchQueue ≠ [] ∧
      b.off.outstanding ≠ []) ∧
    ((k 31 []).calm ∧ (k 31 []).fetchMay = true ∧ (k 30 []).fetchMay = true ∧ (k 31 [.drop 0 9]).fetchMay = true ∧
      (k 31 []).off.roomWaits = [] ∧ (k 31 []).needsSlot (fetchEntry0 none) = false ∧
      (k 31 []).off.phase ≠ .windowOpen) ∧
    (da.calm ∧ da.off.link = .up ∧ da.off.dir = .draining .toFetch ∧ da.off.fetchQueue ≠ []) ∧
    (de.calm ∧ de.off.link = .up ∧ de.off.dir = .draining .toShip ∧ de.off.controls ≠ []) ∧
    out .fetchQueueServe b (fun t => t.off.dir == .draining .toFetch) = true ∧
    out .fetchReq (k 31 [.drop 0 9]) (fun t => t.off.dir == .draining .toShip) = true ∧
    out .fetchReq (k 31 []) (fun t => t.off.dir == .fetch && t.off.burst == 0) = true ∧
    out .fetchReq (k 30 []) (fun t => t.off.dir == .fetch && t.off.burst == 31) = true ∧
    out (.ack 5) da (fun t => t.off.outstanding.isEmpty && t.off.dir == .fetch && t.off.burst == 0) = true ∧
    out (.fetchEmpty 8) de (fun t => t.off.outstanding.isEmpty && t.off.dir == .ship && t.off.shipTurn == some 0) = true ∧
    out .fetchQueueServe s (fun t => (t.slot 0).any fun x => x.idx == 3 && x.cls == .fetch) = true ∧
    out .fetchReq g (fun t => t.sent == [.offsite (.fetchReq 0 0 0 1 (some 3) 0#32)] && t.off.fetchQueue.isEmpty) =
      true ∧
    out (.fetchEmpty 8) m (fun t => (t.restore 0).any fun r => r.steps.map Step.marker == [true]) = true ∧
    out (.fetchNone 8 1) m (fun t => (t.restore 0).any fun r => r.failedStep == some (0, .fetchNone)) = true := by
  (repeat' apply And.intro) <;> decide

theorem witness_FetchedChunksAreCompared :
    let y (e : Code) := { slotOf .filling .fetch (.step 0 0) 3 with expected := e }
    (∀ e r, (filledBy e r).sup.op ≠ .halted ∧ (filledBy e r).calm ∧ (filledBy e r).off.link = .up ∧
      (filledBy e r).off.outstanding = [fetchFrame0 (some 3)] ∧
      (filledBy e r).slotFor (.step 0 0) 3 = some (7, y e) ∧ (filledBy e r).slot 7 = some (y e) ∧
      ((filledBy e r).restore 0).isSome = true) ∧
    zeros.length = 262144 ∧ checkCode zeros ≠ checkCode zeros + 1#32 ∧
    ((fetching []).restore 0).any (fun r => (State.sourceOf (fetching []) r 0).isSome) = true :=
  ⟨fun _ _ => ⟨nofun, ⟨⟨rfl, rfl, rfl, rfl⟩, rfl, rfl, rfl, rfl⟩, rfl, rfl, rfl, rfl, rfl⟩, List.length_replicate,
    code_succ _, by decide⟩

/-! ### Patrol and repair -/

/-- The version is due after 30 days and overdue 72 hours later; the link of its volume is BUSY. -/
def clockAt (n : Nat) (s : State) : State := s.modSup fun u => { u with clock := n }
def item0 (st : ItemState) : WorkItem :=
  { n := 0, vol := 0, ext := 0, birth := 1, loc := 70, forced := false, retry := false, state := st, received := []
    differed := [], codes := ver.codes }
def withItem (st : ItemState) : State :=
  { clockAt 2851201 stored with pat.work := [item0 st], pat.nextItem := 1 }

/-- A SHIP entry of the item's version. -/
def shipBoundItem : State := { withItem .waitingIdle with off.queue := [{ entry0 with state := .ready }] }
/-- A fold entry at its sixteenth chunk, the chunk on its way. -/
def fold0 : Fold := { vol := 0, ext := 0, birth := 1, loc := 70, equal := (List.range 16).filter (· ≠ 3) }
def shippedVer : Version := { ver with shipped := true }
def folding (expected : Code) : State :=
  { withExt (withDir (shipping { entry0 with state := .pulling 0 }) (dirFor .pull (.shipPull 0) [])) { ext0 with versions := [shippedVer] } with
    off.pulls := [pull0 .issued], pat.folds := [fold0]
    str.slots := [(7, { slotOf .filling .ship (.shipPull 0) 3 with expected := expected })] }
/-- An item's verifying pull at its end: the chunks received, those that differ and the version. -/
def verifying (shipped : Bool) (got bad : List Nat) : State :=
  withDir { withExt stored { ext0 with versions := [{ ver with res := .here 70 1, shipped := shipped }] } with
    pat.work := [{ item0 .issued with received := got, differed := bad }] } (dirFor .pull (.verify 0) [(0, 0, 70)])

theorem witness_FoldsEndWithTheLastChunk (e : Code) (data : List Byte) (h : data.length = 262144) :
    ((folding e).sup.op = .active ∧ (folding e).tallyStill ∧ (folding e).pat.work = [] ∧
      (folding e).pat.folds = [fold0] ∧ (folding e).pat.repairs = [] ∧ (folding e).pat.waiting = [] ∧
      (folding e).pat.clearing = false ∧ ((folding e).link 1).up = true) ∧
    ((folding e).directive 1 6 = some (dirFor .pull (.shipPull 0) []) ∧ (folding e).off.pulls = [pull0 .issued] ∧
      (folding e).slotFor (.shipPull 0) 3 = some (7, { slotOf .filling .ship (.shipPull 0) 3 with expected := e }) ∧
      data.length = 262144 ∧ (folding e).off.queue = [{ entry0 with state := .pulling 0 }] ∧
      (folding e).off.phase = .windowOpen ∧ ((folding e).volume 0).isSome = true ∧ (folding e).damaged 0 0 = false ∧
      ((folding e).extent 0 0).versions = [shippedVer]) ∧
    (fold0.equal.Nodup ∧ fold0.equal.length = 15 ∧ 3 ∉ fold0.equal ∧ shippedVer.shipped = true ∧
      ∀ q ∈ (folding e).off.plan, q.state ≠ .shed ∧ q.state ≠ .failed) :=
  ⟨⟨rfl, ⟨rfl, rfl, rfl, rfl⟩, rfl, rfl, rfl, rfl, rfl, rfl⟩, ⟨rfl, rfl, rfl, h, rfl, rfl, rfl, rfl, rfl⟩, by decide,
    by decide, by decide, rfl, by simp [folding, withExt, withDir, State.modLink, shipping, withPlan, plan0]⟩

theorem witness_VerifyingPullsEnd :
    let b (got bad : List Nat) := verifying true got bad
    let all := List.range 16
    (∀ shipped got bad, (verifying shipped got bad).sup.op ≠ .halted ∧ (verifying shipped got bad).tallyStill ∧
      (verifying shipped got bad).nightEnding = false ∧ ((verifying shipped got bad).link 1).up = true ∧
      ((verifying shipped got bad).link 1).directives = [dirFor .pull (.verify 0) [(0, 0, 70)]] ∧
      (verifying shipped got bad).off.outstanding = [] ∧ (verifying shipped got bad).damaged 0 0 = false ∧
      ((verifying shipped got bad).extent 0 0).versions = [{ ver with res := .here 70 1, shipped := shipped }]) ∧
    (∀ k, k ≠ (1 : Link) → ((b all []).link k).directives = []) ∧
    (all.filter fun i => decide (i ∈ [2]) || !(all.contains i)) = [2] ∧
    out (.pullEnd 1 6) (b all []) (fun t => t.pat.work.isEmpty &&
      (t.extent 0 0).versions.map Version.verified == [7200] && (t.extent 0 0).versions.map Version.refs == [0]) = true ∧
    out (.pullEnd 1 6) (b all [2]) (fun t => t.pat.work.isEmpty &&
      t.pat.repairs.map (fun kv => kv.2.chunks.map RepairChunk.idx) == [[2]] &&
      (t.extent 0 0).versions.map Version.repair == [.repairing] && t.off.fetchQueue.length == 1) = true ∧
    out (.pullEnd 1 6) (b [] []) (fun t => t.pat.repairs.map (fun kv => kv.2.whole) == [true]) = true ∧
    out (.pullFail 1 6) (b all []) (fun t => t.pat.repairs.map (fun kv => kv.2.whole) == [true]) = true ∧
    out (.pullFail 1 6) (verifying false all []) (fun t => t.pat.repairs.isEmpty &&
      t.sup.raised == [0, 0, 0, 0, 0, 0, 0, 0, 0, 1, 0] &&
      (t.extent 0 0).versions.map Version.repair == [.unrepairable]) = true :=
  ⟨fun _ _ _ => ⟨nofun, ⟨rfl, rfl, rfl, rfl⟩, rfl, rfl, rfl, rfl, rfl, rfl⟩, by decide, by decide, by decide, by decide,
    by decide, by decide, by decide +kernel⟩

theorem witness_PatrolPlacesIssuesAndPulls :
    let s := clockAt 2592000 stored
    let e := withExt s { ext0 with versions := [{ ver with occ := 0, codes := [] }] }
    (s.sup.op = .active ∧ s.calm ∧ s.pat.waiting = [] ∧ s.cat.volumes = [(0, vol0)] ∧
      vol0.damage.contains vol0.patrolCursor = false ∧ (s.extent 0 0).versions = [ver] ∧ ver.repair = .sound ∧
      ver.verified + 86400 * s.sup.settings.patrolPeriod ≤ s.sup.clock ∧ (s.extent 0 0).lock = none ∧
      (s.link vol0.owner).idle = false ∧ s.off.pulls = [] ∧ s.off.queue = []) ∧
    stored.sup.clock < ver.verified + 86400 * stored.sup.settings.patrolPeriod ∧
    (inState .standby s).sup.op ≠ .active ∧
    ((withItem .waitingIdle).tallyStill ∧ (withItem .waitingIdle).volume 0 = some vol0 ∧
      (withItem .waitingIdle).versionAt 0 0 1 70 = some ver ∧ (withItem .waitingIdle).damaged 0 0 = false ∧
      (withItem .waitingIdle).str.slots = [] ∧ ver.verified +
        86400 * (withItem .waitingIdle).sup.settings.patrolPeriod +
        3600 * (withItem .waitingIdle).sup.settings.overdueLimit < (withItem .waitingIdle).sup.clock) ∧
    ((withItem .place).eligible 0 0 1 70 false = true ∧ ((withItem .place).link vol0.owner).up = true ∧
      ((withItem .place).link vol0.owner).directives.length < 16 ∧
      ((withItem .place).link vol0.owner).placeWaits = []) ∧
    (shipBoundItem.shipBound 0 0 1 = true ∧ shipBoundItem.damaged 0 0 = false ∧
      shipBoundItem.versionAt 0 0 1 70 = some ver) ∧
    out (.versionOverdue 0 0 1) shipBoundItem (fun t => t.pat.work.isEmpty &&
      t.pat.folds == [{ vol := 0, ext := 0, birth := 1, loc := 70, equal := [] }]) = true ∧
    out (.patrolWalkVisit []) s (fun t => t.pat.work == [item0 .waitingIdle] && t.pat.turn == 1 &&
      (t.volume 0).any fun v => v.patrolCursor == 1) = true ∧
    out (.patrolWalkVisit []) e (fun t => t.pat.work.isEmpty &&
      (t.extent 0 0).versions.map Version.verified == [2592000]) = true ∧
    out (.patrolWalkVisit []) stored (fun t => t.pat.work.isEmpty && t.pat.turn == 1) = true ∧
    out (.versionOverdue 0 0 1) (withItem .waitingIdle) (fun t => t.pat.work == [item0 .place] &&
      (t.slot 0).any fun y => y.holder == .verify 0) = true ∧
    out (.versionOverdue 0 0 1) (clockAt 2851200 (withItem .waitingIdle))
      (fun t => t.pat.work == [item0 .waitingIdle]) = true ∧
    out (.verifyingPull 0 []) (withItem .place) (fun t => t.pat.work == [item0 .issued] &&
      (t.link 1).tx == [.directive 0 (.pull 70 0 16 true)] && (t.extent 0 0).versions.map Version.refs == [1]) =
      true := by decide

def chunk0 (src : RepairSource) (p : ChunkProgress) : RepairChunk := { idx := 3, src := src, progress := p, refetched := false }
def repair0 (c : RepairChunk) : Repair :=
  { vol := 0, ext := 0, birth := 1, loc := 70, whole := false, chunks := [c], becomeWhole := false, lost := false
    abandoned := false }
def repairing (c : RepairChunk) : State :=
  { withExt stored { ext0 with versions := [{ ver with birth := 2, res := .here 71 0 },
      { ver with death := some 2, repair := .repairing }] } with pat.repairs := [(0, repair0 c)] }
def fixing (src : RepairSource) : State :=
  withDir (repairing (chunk0 src .fixing)) (dirFor .fix (.repair 0 3) [(0, 0, 70)])

/-- A WHOLE record, all of it fetched, and its FIX outstanding. -/
def whole0 (p : ChunkProgress) : Repair :=
  { repair0 (chunk0 .offsite p) with
    whole := true
    chunks := (List.range 16).map fun i => { idx := i, src := .offsite, progress := p, refetched := false } }
def wholeReady : State :=
  { repairing (chunk0 .offsite .fetched) with
    pat.repairs := [(0, whole0 .fetched)]
    str.slots := (List.range 16).map fun n => (n, slotOf .full .repair (.repair 0) n) }
/-- R165, R168: a link reset ends both FIXes of a record that is to become WHOLE before it turns. -/
theorem test_lossOfSignal_turnsARecordWholeOnce :
    let r := { repair0 (chunk0 .offsite .fixing) with
      becomeWhole := true, chunks := [chunk0 .offsite .fixing, { chunk0 .offsite .fixing with idx := 4 }] }
    let d := dirFor .fix (.repair 0 3) []
    out (.serialLossOfSignal 1)
      ((withExt { stored with pat.repairs := [(0, r)] } { ext0 with versions :=
          [{ ver with birth := 2, res := .here 71 0 }, { ver with death := some 2, shipped := true, repair := .repairing }] }).modLink 1 fun k =>
        { k with directives := [d, { d with tag := 7, issuer := .repair 0 4 }] })
      (fun t => (t.link 1).directives.isEmpty && (t.repair 0).any fun r => r.whole) = true := by decide +kernel

def wholeFixing : State :=
  { withDir (repairing (chunk0 .offsite .fixing)) (dirFor .fix (.repair 0 0) [(0, 0, 70)]) with
    pat.repairs := [(0, whole0 .fixing)]
    str.slots := (List.range 16).map fun n => (n, slotOf .sending .repair (.repair 0) n) }

theorem witness_WholeFixesRepairOrGiveUp :
    let d := wholeReady
    let o := wholeFixing
    (d.sup.op = .active ∧ d.tallyStill ∧ d.pat.repairs = [(0, whole0 .fetched)] ∧
      (whole0 .fetched).chunks.map RepairChunk.idx = List.range 16 ∧ d.volume 0 = some vol0 ∧ d.damaged 0 0 = false ∧
      (d.repairVersion (whole0 .fetched)).isSome = true ∧ (d.link vol0.owner).up = true ∧
      (d.link vol0.owner).directives.length < 16 ∧ (d.link vol0.owner).placeWaits = []) ∧
    (∀ c ∈ (whole0 .fetched).chunks, c.progress = .fetched) ∧
    (o.tallyStill ∧ o.pat.waiting = [] ∧ (o.link 1).up = true ∧
      (o.link 1).directives = [dirFor .fix (.repair 0 0) [(0, 0, 70)]] ∧ o.off.outstanding = [] ∧
      (o.repairVersion (whole0 .fixing)).any (fun x => x.repair == .repairing) = true) ∧
    (∀ k, k ≠ (1 : Link) → (o.link k).directives = []) ∧
    out (.fix 0 0 []) d (fun t => (t.link 1).tx.head? == some (.directive 0 (.fixData 70 (List.range 16))) &&
      (t.link 1).tx.length == 17 && (t.slot 15).any fun y => y.state == .sending) = true ∧
    out (.fixDone 1 6) o (fun t => (t.repair 0).isNone && t.str.slots.isEmpty &&
      (t.extent 0 0).versions.map Version.repair == [.sound, .sound] &&
      (t.extent 0 0).versions.map Version.verified == [0, 7200]) = true ∧
    out (.fixFail 1 6) o (fun t => (t.repair 0).isNone && t.str.slots.isEmpty &&
      (t.extent 0 0).versions.map Version.repair == [.sound, .unrepairable]) = true := by
  exact ⟨by decide, by decide, by decide, by decide, by decide +kernel, by decide +kernel,
    by decide +kernel⟩

theorem witness_FixesRepairOrGiveUp :
    let d := withSlot (repairing (chunk0 .offsite .fetched)) (slotOf .full .repair (.repair 0) 3)
    let w := repairing (chunk0 .twin .twinWait)
    let o := fixing .offsite
    (d.sup.op = .active ∧ d.tallyStill ∧ d.pat.repairs = [(0, repair0 (chunk0 .offsite .fetched))] ∧
      d.volume 0 = some vol0 ∧ d.damaged 0 0 = false ∧ (d.repairVersion (repair0 (chunk0 .offsite .fetched))).isSome = true ∧
      (d.link vol0.owner).up = true ∧ (d.link vol0.owner).directives.length < 16 ∧ (d.link vol0.owner).placeWaits = []) ∧
    (w.tallyStill ∧ (w.repairVersion (repair0 (chunk0 .twin .twinWait))).isSome = true ∧
      (w.twinOf (repair0 (chunk0 .twin .twinWait)) 3).bind Version.loc = some 71) ∧
    (o.sup.op ≠ .halted ∧ o.tallyStill ∧ o.pat.waiting = [] ∧ (o.link 1).up = true ∧
      (o.link 1).directives = [dirFor .fix (.repair 0 3) [(0, 0, 70)]] ∧
      (∀ k, k ≠ (1 : Link) → (o.link k).directives = []) ∧ o.off.outstanding = [] ∧ o.damaged 0 0 = false ∧
      (o.repairVersion (repair0 (chunk0 .offsite .fixing))).isSome = true) ∧
    (stored.calm ∧ ∀ x ∈ (stored.link 1).directives, x.tag = 6 → x.kind ≠ .fix) ∧
    out (.fix 0 3 []) d (fun t => (t.link 1).tx == [.directive 0 (.fixData 70 [3]), .chunk 0 3 7] &&
      (t.slot 7).any fun y => y.state == .sending) = true ∧
    out (.fix 0 3 []) w (fun t => (t.link 1).tx == [.directive 0 (.fixTwin 70 3 71)]) = true ∧
    out (.fixDone 1 6) o (fun t => (t.repair 0).isNone &&
      (t.extent 0 0).versions.map Version.repair == [.sound, .sound] &&
      (t.extent 0 0).versions.map Version.verified == [0, 7200] &&
      t.sup.raised == [0, 0, 0, 0, 0, 0, 0, 0, 0, 1, 0]) = true ∧
    out (.fixFail 1 6) o (fun t => (t.repair 0).isNone &&
      (t.extent 0 0).versions.map Version.repair == [.sound, .unrepairable]) = true := by decide

/-! ### Reads -/

theorem witness_QueryAndTableReadsReportTheRecords :
    stored.takes 1 ∧ stored.prin 5 = some person ∧ stored.prin 6 = none ∧ stored.volume 0 = some vol0 ∧
    stored.volume 1 = none ∧ 3 < vol0.count ∧ vol0.count ≤ 4 ∧ stored.snapshot 0 1 = some snap ∧
    stored.snapshot 0 2 = none ∧ planned.recordOf 9 = some (0, { rest0 with state := .planned }) ∧
    planned.recordOf 8 = none ∧
    out (.query 1 4 (.principal 5) []) stored (fun t => (t.link 1).tx ==
      [.reply 4 .query .done (.record (.principal 5 { person with used := 105, reserved := 10 }))]) = true ∧
    out (.query 1 4 (.extent 0 4) []) stored (fun t => (t.link 1).tx == [.reply 4 .query .range .none]) = true ∧
    out (.query 1 4 (.volume 32) []) stored
      (fun t => (t.link 1).tx == [.reply 4 .query .unknownVolume .none]) = true := by decide

/-- A reply that carries records is as long as `Config.tableBytes` says, which nothing evaluates: the reads
here end past the last record. -/
theorem witness_QueryAndTableReadsWalkTheTable :
    let at_ (k : Nat) (gone : Bool) := stored.modLink 1 fun r =>
      { r with cursor := some { table := .extents 0, key := k, detached := gone } }
    let c := at_ 2 false
    (stored.takes 1 ∧ stored.keysFrom .principals 0 65 = .ok [2, 5]) ∧
    stored.keysFrom (.unknown 9) 0 2 = .error .range ∧ (stored.link 1).cursor = none ∧
    (c.takes 1 ∧ (c.link 1).cursor = some { table := .extents 0, key := 2, detached := false } ∧
      c.keysFrom (.extents 0) 2 2 = .ok [2, 3]) ∧ stored.volume 1 = none ∧
    ((at_ 2 true).link 1).cursor = some { table := .extents 0, key := 2, detached := true } ∧
    (Tbl.wf stored.tally.principals = true ∧ Tbl.wf stored.cat.snapshots = true) ∧
    out (.tableRead 1 4 .principals 6 1 []) stored (fun t => (t.link 1).tx == [.reply 4 .tableRead .done (.table [] true)] &&
      (t.link 1).cursor == some { table := .principals, key := 6, detached := false }) = true ∧
    out (.tableNext 1 4 1 []) (at_ 2 true) (fun t => (t.link 1).tx == [.reply 4 .tableNext .unknownVolume .none] &&
      (t.link 1).cursor == none) = true ∧
    out (.tableRead 1 4 .principals 0 65 []) stored
      (fun t => (t.link 1).tx == [.reply 4 .tableRead .range .none]) = true ∧
    out (.tableNext 1 4 1 []) (at_ 4 false) (fun t => (t.link 1).tx == [.reply 4 .tableNext .done (.table [] true)] &&
      (t.link 1).cursor == some { table := .extents 0, key := 4, detached := false }) = true := by decide

theorem witness_StatusIsReportedAndCleared :
    let r := (stored.modSup fun u => { u with raised := List.replicate 11 65535 }).modLink 2 fun r =>
      { r with discarded := 7, dropped := 2 }
    (r.takes 1 ∧ r.calm) ∧
    out (.statusQuery 1 4) r (fun t => (t.link 1).tx.any fun f => match f with
      | .reply 4 .statusQuery .done (.status p) => p.raised == List.replicate 11 65535 && p.op == .active
      | _ => false) = true ∧
    out (.statusClear 1 4) r (fun t => t.sup.raised == List.replicate 11 0 && (t.link 2).discarded == 0 &&
      (t.link 2).dropped == 0) = true := by decide

/-! ### Settings and holds -/

def held (xs : List Staged) (s : State) : State := s.modLink 0 fun r => { r with hold := some xs }
def replies (st : Status) (k : ReqKind) (t : State) : Bool := (t.link 0).tx == [.reply 4 k st .none]

theorem witness_SettingsAreCheckedAndWritten :
    let s := inState .standby stored
    (stored.takes 0 ∧ stored.role 0 = .console ∧ settingInRange (.directiveWait 9) = false ∧
      settingInRange (.directiveWait 600) = true ∧ settingInRange (.hourlyKeep 1 48) = true ∧
      settingVolume (.hourlyKeep 1 48) = some 1 ∧ stored.volume 1 = none) ∧
    (settingInRange (.autoActivate true) = true ∧ settingInStandby (.autoActivate true) = true ∧
      stored.sup.op = .active) ∧
    (s.sup.op = .standby ∧ (∀ j, j ≠ (0 : Link) → s.role j = .fileserver) ∧ (∃ kv ∈ s.cat.volumes, kv.2.owner = 1)) ∧
    ((stored.link 0).hold = none ∧ ((held [] stored).link 0).hold = some [] ∧
      (held [] stored).settingCheck (.idleTime 60) = none) ∧
    (stored.off.phase = .closed ∧ (night stored).off.phase ≠ .closed ∧ s.sup.settings.cacheMode = .writeBack ∧
      s.tallyStill ∧ ∃ y ∈ s.tally.cache, y.dirty = true) ∧
    (stored.snapshotsKeyed ∧ (∀ p ∈ stored.snapsOf 0, p.pins = 0) ∧ stored.volume 0 = some vol0) ∧
    (s.role 1 = .fileserver ∧ (∀ kv ∈ s.cat.volumes, kv.2.owner ≠ 2) ∧
      ∃ j, j ≠ (0 : Link) ∧ ((s.modSup fun u => { u with settings := { u.settings with roles := (u.settings.roles.set 1 .console) } }).role j) = .console) ∧
    (∀ y ∈ (inState .standby base).tally.cache, y.dirty = false) := by
  (repeat' apply And.intro) <;> decide

theorem test_settingWrite_tableWrites :
    out (.settingWrite 0 4 (.classEntry 9 43200 true) []) stored (fun t => replies .done .settingWrite t &&
      tget t.sup.settings.classes 9 == some { grace := 43200, selfRestore := true }) = true ∧
    out (.settingWrite 0 4 (.linkRole 2 .console) []) (inState .standby stored) (fun t => replies .done .settingWrite t &&
      t.role 2 == .console) = true ∧
    out (.settingWrite 0 4 (.hourlyCuts 0 false) []) stored (fun t => replies .done .settingWrite t &&
      (t.volume 0).any fun v => !v.hourlyCuts) = true ∧
    out (.settingWrite 0 4 (.recoveryFlag 0 true) []) stored (fun t => replies .done .settingWrite t &&
      (t.volume 0).any Volume.recovery) = true ∧
    out (.settingWrite 0 4 (.hourlyKeep 0 0) []) (withSnap stored { snap with kind := .hourly }) (fun t =>
      replies .done .settingWrite t && (t.snapshot 0 1).any fun p => p.state != .active) = true := by decide

theorem test_settingWrite_checks :
    out (.settingWrite 0 4 (.unknown 3) []) stored (replies .malformed .settingWrite) = true ∧
    out (.settingWrite 0 4 (.directiveWait 9) []) stored (replies .range .settingWrite) = true ∧
    out (.settingWrite 0 4 (.hourlyKeep 1 48) []) stored (replies .unknownVolume .settingWrite) = true ∧
    out (.settingWrite 0 4 (.autoActivate true) []) stored (replies .wrongState .settingWrite) = true ∧
    out (.settingWrite 0 4 (.linkRole 0 .fileserver) []) (inState .standby stored) (replies .range .settingWrite) =
      true ∧
    out (.settingWrite 0 4 (.linkRole 1 .console) []) (inState .standby stored) (replies .inUse .settingWrite) =
      true := by decide

theorem test_settingWrite_effects :
    out (.settingWrite 0 4 (.directiveWait 600) []) stored (fun t => replies .done .settingWrite t &&
      t.sup.settings.directiveWait == 600) = true ∧
    out (.settingWrite 0 4 (.assumedRate 1) []) (night stored) (fun t => replies .done .settingWrite t &&
      t.sup.settings.assumedRate == 40960 && t.sup.pendingSettings.assumedRate == some 1) = true ∧
    out (.settingWrite 0 4 (.cacheMode .writeThrough) []) (inState .standby stored) (fun t => (t.link 0).tx.isEmpty &&
      t.sup.settings.cacheMode == .writeThrough && t.tally.castout.length == 2) = true ∧
    out (.settingWrite 0 4 (.cacheMode .writeThrough) []) (inState .standby base) (replies .done .settingWrite) =
      true ∧
    out (.settingWrite 0 4 (.idleTime 60) []) (held [] stored) (fun t => replies .accepted .settingWrite t &&
      (t.link 0).hold == some [.setting (.idleTime 60)]) = true := by decide

theorem witness_ScopeSetWritesTheScope :
    (stored.takes 0 ∧ stored.role 0 = .console ∧ (stored.link 0).hold = none ∧ stored.off.phase = .closed ∧
      (night stored).off.phase ≠ .closed ∧ ([] : List Staged).length < 128) ∧
    out (.scopeSet 0 4 7 true 7 [31, 3]) stored (fun t => replies .done .scopeSet t &&
      tget t.sup.settings.scopes 7 == some { enabled := true, priority := 7, vols := [3, 31] }) = true ∧
    out (.scopeSet 0 4 0 true 7 [31]) (night stored) (fun t => replies .done .scopeSet t &&
      t.sup.settings == stored.sup.settings) = true ∧
    out (.scopeSet 0 4 0 true 7 [32]) stored (replies .range .scopeSet) = true ∧
    out (.scopeSet 0 4 0 true 7 [31]) (held [] stored) (replies .accepted .scopeSet) = true := by decide

theorem witness_HoldsStageReleaseAndAbandon :
    let xs : List Staged := [.freeze 5 true, .setting (.patrolPeriod 365)]
    let ys : List Staged := [.freeze 6 true, .setting (.patrolPeriod 365)]
    let zs : List Staged := [.setting (.autoActivate true)]
    (stored.takes 0 ∧ (stored.link 0).hold = none ∧ (held [] stored).takes 0 ∧ ((held [] stored).link 0).hold ≠ none) ∧
    (((held zs stored).link 0).hold = some zs ∧ zs.any stagedInStandby = true ∧ stored.sup.op = .active) ∧
    (((held xs stored).link 0).hold = some xs ∧ stored.prin 5 = some person ∧ stored.tallyStill ∧
      stored.prin 6 = none) ∧
    (xs.any stagedInStandby = false ∧ xs.any stagedOfWindow = false ∧ Staged.setting (.cacheMode .writeBack) ∉ xs ∧
      Staged.setting (.cacheMode .writeThrough) ∉ xs ∧
      stored.stagedCheck (.freeze 5 true) = none ∧ stored.stagedCheck (.freeze 6 true) = some .unknownPrincipal) ∧
    out (.holdBegin 0 4) stored (fun t => replies .done .holdBegin t && (t.link 0).hold == some []) = true ∧
    out (.holdBegin 0 4) (held [] stored) (replies .busy .holdBegin) = true ∧
    out (.holdRelease 0 4) stored (replies .range .holdRelease) = true ∧
    out (.holdRelease 0 4) (held zs stored) (replies .wrongState .holdRelease) = true ∧
    out (.holdRelease 0 4) (held xs stored) (fun t => (t.prin 5).any Principal.frozen &&
      t.sup.settings.patrolPeriod == 365 && (t.link 0).tx == [.reply 4 .holdRelease .done (.holdReleased 2 [])]) =
      true ∧
    out (.holdRelease 0 4) (held ys stored) (fun t =>
      (t.link 0).tx == [.reply 4 .holdRelease .done (.holdReleased 1 [(0, .unknownPrincipal)])]) = true ∧
    out (.holdAbandon 0 4) (held xs stored) (fun t => (t.link 0).hold == none && !(t.prin 5).any Principal.frozen) =
      true := by decide

/-! ### Standby, Clear -/

def awaiting (s : State) : State :=
  (withReq (inState .standby s) (entryOf 0 3 .standbyEnter)).modSup fun u =>
    { u with quiet := some { link := 0, req := 0, isClear := false } }

theorem witness_StandbyIsEnteredAndLeft :
    let p := inState .standby (withRst stored { rest0 with state := .paused })
    let b := { outBase (withRst stored rest0) with off.phase := .windowOpen }
    (b.takes 0 ∧ b.role 0 = .console ∧ b.sup.quiet = none ∧ b.sup.op = .active ∧ b.tallyStill ∧ b.off.link = .up ∧
      b.off.outstanding ≠ []) ∧
    ((awaiting stored).takes 0 ∧ (awaiting stored).sup.quiet ≠ none ∧ (awaiting stored).isQuiet = true ∧
      (awaiting stored).awaits 0 0 (entryOf 0 3 .standbyEnter)) ∧
    ((awaiting b).isQuiet = false ∧ (awaiting b).sup.quiet ≠ none) ∧
    (p.takes 0 ∧ p.sup.quiet = none ∧ p.sup.op = .standby ∧ Tbl.wf p.rst.table = true ∧
      p.restore 0 = some { rest0 with state := .paused } ∧ ∃ x ∈ rest0.steps, x.state = .waiting) ∧
    out (.standbyEnter 0 4) b (fun t => t.sup.op == .standby && t.off.dir == .draining .toClose &&
      (t.restore 0).any fun r => r.state == .paused) = true ∧
    out (.standbyEnter 0 4) (outBase stored) (fun t => t.sup.quiet == some { link := 0, req := 0, isClear := false } &&
      (t.link 0).tx.isEmpty) = true ∧
    out (.clear 0 4) b (fun t => t.sup.op == .standby && (t.restore 0).any (fun r => r.state == .cancelled) &&
      t.off.phase == .ending 100 20) = true ∧
    out (.clear 0 4) (awaiting stored) (fun t => (t.link 0).tx == [.reply 4 .clear .busy .none]) = true ∧
    out .quietReported (awaiting stored) (fun t => (t.link 0).tx == [.reply 3 .standbyEnter .done .none] &&
      t.sup.quiet == none) = true ∧
    out .quietReported (awaiting b) (fun t => t.sup.quiet != none) = true ∧
    out (.standbyExit 0 4) p (fun t => t.sup.op == .active && (t.restore 0).any fun r => r.state == .running) =
      true := by decide

/-! ### Double errors -/

/-- A person without parents or a soft limit, with its line and without it. -/
def loner : Principal := { person with course := none, soft := none }
def lonely (cache : List Line) : State :=
  { stored with tally.principals := [(2, pool), (5, loner)], tally.cache := cache }
def erred : List Nat := [0, 0, 0, 0, 0, 0, 0, 0, 0, 0, 1]

/-- R20: an id lost in both copies leaves the principal unsettled and frozen, with STORE_ERROR raised. -/
theorem test_query_idLost :
    out (.query 1 4 (.principal 5) [.principalBoth 5 .id]) (lonely []) (fun t => t.sup.raised == erred &&
      t.prin 5 == some { loner with frozen := true, unsettled := true }) = true := by decide

/-- R22: no Pool Recount begins in HOLDUP. -/
theorem test_beginRecount_notInHoldup :
    let s := tallied.modPrin 2 fun p => { p with unsettled := true }
    (s.beginRecount 2).tally.recounts = [2] ∧ ((inState .holdup s).beginRecount 2).tally.recounts = [] := by decide

theorem witness_DoubleErrorsAreHandledByTheirOwners :
    let a := sweepAt 4 { snap with state := .expiring 0 }
    ((lonely []).takes 1 ∧ (lonely []).tallyStill ∧ (lonely []).prin 5 = some loner ∧ (lonely []).line 5 = none ∧
      (lonely []).castoutOf 5 = none ∧ (lonely [lineFor 5 105 10]).line 5 = some (lineFor 5 105 10)) ∧
    (stored.takes 1 ∧ stored.calm ∧ stored.cat.attaching = [] ∧ stored.volume 0 = some vol0) ∧
    stored.commitReady 1 0 3 16777215 71 1024 (some codes16) vol0 ∧
    (a.sweeps 0 0 { vol0 with refTotal := 1 } ∧ a.cat.attaching = [] ∧
      a.snapshot 0 1 = some { snap with state := .expiring 0 }) ∧
    (planned.takes 1 ∧ planned.calm ∧ planned.recordOf 9 = some (0, { rest0 with state := .planned }) ∧
      (∀ x ∈ rest0.steps, x.state = .waiting ∨ x.state = .skipped) ∧ planned.prin rest0.principal = some person) ∧
    ((readyState.off.queue.map ShipEntry.num).Nodup ∧
      readyState.slot 7 = some (slotOf .full .ship (.shipPull 0) 3) ∧ readyState.off.outstanding = [] ∧
      ∀ q ∈ readyState.off.plan, q.state ≠ .shed ∧ q.state ≠ .failed) ∧
    (puttable.slot 3 = some (slotOf .full .fetch (.step 0 0) 3) ∧ puttable.off.roomWaits = [] ∧
      (puttable.extent 0 0).version 1 = some ver ∧ puttable.off.fetchQueue.length + puttable.fetchesOut + 1 ≤ 32) ∧
    out (.graceExpiry [.catalogue]) stored (fun t => t.sup.op == .halted && t.sup.raised == erred &&
      t.cat == stored.cat) = true ∧
    out (.query 1 4 (.principal 5) [.principalTally 5]) (lonely []) (fun t => t.sup.raised == erred &&
      t.prin 5 == some { loner with used := 0, reserved := 0, frozen := true, unsettled := true }) = true ∧
    out (.query 1 4 (.principal 5) [.principalTally 5]) (lonely [lineFor 5 105 10]) (fun t =>
      t.prin 5 == some { loner with used := 105, reserved := 10, frozen := true, unsettled := true }) = true ∧
    out (.query 1 4 (.principal 5) [.principalBoth 5 .course]) (lonely []) (fun t =>
      (t.prin 2).any Principal.unsettled) = true ∧
    out (.query 1 4 (.principal 5) [.principalOneCopy 5 .cls]) (lonely []) (fun t =>
      t.sup.raised == List.replicate 11 0) = true ∧
    out (.query 1 4 (.extent 0 0) [.extentRecord 0 0 [.owner]]) stored (fun t => (t.extent 0 0).owner == 0 &&
      t.damaged 0 0) = true ∧
    out (.commit 1 4 0 3 16777215 71 1024 (some codes16) [.extentRecord 0 3 []]) stored (fun t =>
      (t.link 1).tx == [.reply 4 .commit .damaged .none] && t.damaged 0 3) = true ∧
    out (.expirySweepVisit 0 1 [.extentRecord 0 0 []]) a (fun t =>
      t.snapshot 0 1 == some { snap with state := .expiring 1 } && t.extent 0 0 == a.extent 0 0) = true ∧
    out (.restoreStatus 1 4 9 [.restoreBoth 0 true]) planned (fun t => (t.restore 0).any fun r =>
      r.state == .failed && r.cause == some .store && r.remaining == 0) = true ∧
    out (.ship [.slot 7]) readyState (fun t => t.off.outstanding.map OutFrame.vacant == [true] && t.sent.isEmpty &&
      (t.slot 7).isNone && t.off.queue.map ShipEntry.state == [.unpulled]) = true ∧
    out (.put 0 0 [.slot 3]) puttable (fun t => (t.slot 3).isNone && (t.link 1).directives.isEmpty &&
      t.off.fetchQueue.map FetchEntry.idx == [some 3]) = true := by
  (repeat' apply And.intro) <;> decide +kernel
end Sys2Proof.Tests
end

section
/-! SUPPORT. Requests turned away: the state that only answers, and why it is spared; DROPs made pending
stay pending as the offsite link settles. -/

namespace Sys2Proof.Machine

/-! ### A request answered and nothing else done -/

/-- The state in which a taken request is given to its block, the output of the step still empty. -/
def State.asked (s : State) (l : Link) (tag : Nat) (k : ReqKind) : State :=
  ({ s with sent := [] } : State).entered l tag k true

/-- The end of a step that answers a request and does nothing else. -/
def State.turned (s : State) (l : Link) (tag : Nat) (k : ReqKind) (st : Status) : State :=
  ((s.asked l tag k).reply l s.sup.nextReq st .none).finish

@[simp] theorem snapshot_asked (s : State) (l : Link) (tag : Nat) (k : ReqKind) (vol gen : Nat) :
    (s.asked l tag k).snapshot vol gen = s.snapshot vol gen := rfl

theorem asked_running {s : State} {l : Link} (tag : Nat) (k : ReqKind) (h : s.takes l) :
    (s.asked l tag k).sup.op ≠ .halted := by
  have hrun := takes_running h
  exact hrun

/-- The step of a request that its link takes, with no double errors: its block's work on it, and what that
brings about beside it. -/
theorem act_request {s : State} {l : Link} (tag : Nat) (k : ReqKind) (body : Nat → State → State) (h : s.takes l) :
    act (fun s => (request l tag k true false [] body s).finish) s =
      .next (body s.sup.nextReq (s.asked l tag k)).finish := by
  have hreq : request l tag k true false [] body { s with sent := [] } = body s.sup.nextReq (s.asked l tag k) :=
    (request_takes tag k true [] body (takes_unsent h) (.inl rfl)).trans (withErrs_nil _ (asked_running tag k h))
  rw [act_running _ (takes_running h), hreq]

theorem entered_asked (s : State) (l : Link) (tag : Nat) (k : ReqKind) :
    Entered s (s.asked l tag k) l tag k true := entered_self { s with sent := [] } l tag k true

theorem answered_finish_reply {s u : State} {l : Link} {tag : Nat} {k : ReqKind} (st : Status) (h : s.takes l)
    (hu : Entered s u l tag k true) :
    Answered s (u.reply l s.sup.nextReq st .none).finish l tag k st .none :=
  (answered_reply st .none h.2.2.2 hu).finish

theorem answered_turned {s : State} {l : Link} (tag : Nat) (k : ReqKind) (st : Status) (h : s.takes l) :
    Answered s (s.turned l tag k st) l tag k st .none :=
  answered_finish_reply st h (entered_asked s l tag k)

/-- A link whose request was answered is spared: of what the request's arrival wrote, its entry has left the
queue again, and the rest is the end of the run of bad frames and the idle time. -/
theorem linkSpared_turned {s : State} {l : Link} (tag : Nat) (k : ReqKind) (st : Status) (h : s.takes l) (j : Link) :
    linkSpared (s.link j) ((s.turned l tag k st).link j) := by
  have hs : Settles (s.asked l tag k) (s.turned l tag k st) :=
    settles_finish (settles_reply l _ st .none (Settles.refl _))
  obtain ⟨⟨hup, hdir, hsubs, hdel, hcur, hhold, htag, hdisc, -, hhalt⟩, hq, htx, hnot⟩ := hs.2.1 j
  by_cases hj : l = j
  · subst hj
    have hl : (s.asked l tag k).link l = _ := entered_link { s with sent := [] } l tag k true
    rw [hl] at hup hdir hsubs hdel hcur hhold htag hdisc hhalt htx hnot
    exact ⟨⟨hup.trans h.2.1.symm, hdir, hsubs, hdel, hcur, hhold, htag, hdisc, hhalt⟩,
      (answered_turned tag k st h).2, htx, hnot⟩
  · have hl : (s.asked l tag k).link j = s.link j := entered_link_ne { s with sent := [] } tag k true hj
    rw [hl] at hup hdir hsubs hdel hcur hhold htag hdisc hhalt hq htx hnot
    exact ⟨⟨hup, hdir, hsubs, hdel, hcur, hhold, htag, hdisc, hhalt⟩, hq, htx, hnot⟩

/-- A request that is answered and changes nothing spares the part. -/
theorem spared_turned {s : State} {l : Link} (tag : Nat) (k : ReqKind) (st : Status) (h : s.takes l) :
    Spared s (s.turned l tag k st) := by
  obtain ⟨hsup, -, hcat, hrst, hoff, hpend, -⟩ :=
    finish_settles ((s.asked l tag k).reply l s.sup.nextReq st .none)
  have halike : LinkAlike ((s.asked l tag k).reply l s.sup.nextReq st .none) s :=
    ⟨rfl, rfl, rfl, rfl, rfl, rfl, rfl⟩
  exact ⟨hsup.1, linkSpared_turned tag k st h, hcat, hrst, hoff, hpend, fun ht => finish_tally ht,
    fun hp => finish_pat hp, fun hc hh => undisturbed_finish halike hc hh⟩

/-! ### Snapshots as the blocks settle -/

theorem Settles.snapshot {s t : State} (h : Settles s t) (vol gen : Nat) : t.snapshot vol gen = s.snapshot vol gen := by
  obtain ⟨-, -, ⟨⟨-, -, hsnap, -⟩, -⟩, -⟩ := h
  simp only [State.snapshot, hsnap]

/-! ### Controls as the offsite link goes on -/

theorem askOpening_sup (s : State) : s.askOpening.sup = s.sup := by unfold State.askOpening; split <;> rfl
theorem askOpening_links (s : State) : s.askOpening.links = s.links := by unfold State.askOpening; split <;> rfl
theorem askOpening_tally (s : State) : s.askOpening.tally = s.tally := by unfold State.askOpening; split <;> rfl
theorem askOpening_cat (s : State) : s.askOpening.cat = s.cat := by unfold State.askOpening; split <;> rfl
theorem askOpening_pat (s : State) : s.askOpening.pat = s.pat := by unfold State.askOpening; split <;> rfl

/-- An opening only adds the DROPs that return with it. -/
theorem mem_controls_askOpening {s : State} {c : Control} (h : c ∈ s.off.controls) :
    c ∈ s.askOpening.off.controls := by
  unfold State.askOpening
  split
  · exact List.mem_append_left _ h
  · exact h

theorem mem_controls_serveRoomOnce {s : State} {c : Control} (h : c ∈ s.off.controls) :
    c ∈ s.serveRoomOnce.off.controls := by
  unfold State.serveRoomOnce
  split
  · exact h
  · split
    · exact mem_controls_askOpening h
    · exact h

theorem controls_chooseDir (s : State) : s.chooseDir.off.controls = s.off.controls := by
  simp only [State.chooseDir, State.modOff]
  split
  · rfl
  · split <;> rfl

theorem controls_redirectOnce (s : State) : s.redirectOnce.off.controls = s.off.controls := by
  unfold State.redirectOnce
  dsimp only
  repeat' split
  all_goals simp [controls_chooseDir, State.modOff, State.closeLink, State.send, State.leaveUp, Offsite.beginTurn,
    Offsite.toShip, Offsite.toFetch]

/-- What every round of an iteration keeps, the iteration keeps. -/
theorem iter_keeps {P : State → Prop} {f : State → State} (hf : ∀ s, P s → P (f s)) (n : Nat) {s : State} (h : P s) :
    P (iter n f s) := by
  induction n generalizing s with
  | zero => exact h
  | succ n ih => exact ih (hf s h)

theorem mem_controls_settleLink {s : State} {c : Control} (h : c ∈ s.off.controls) :
    c ∈ s.settleLink.off.controls := by
  have hserved : c ∈ s.clearShed.serveRoom.off.controls :=
    iter_keeps (P := fun s => c ∈ s.off.controls) (fun _ => mem_controls_serveRoomOnce) _ h
  exact iter_keeps (P := fun s => c ∈ s.off.controls) (fun s hs => (controls_redirectOnce s).symm ▸ hs) 3 hserved

/-! ### A DROP made pending -/

theorem pendDrop_sup (s : State) (vol gen : Nat) : (s.pendDrop vol gen).sup = s.sup := askOpening_sup _
theorem pendDrop_link (s : State) (vol gen : Nat) (l : Link) : (s.pendDrop vol gen).link l = s.link l :=
  State.link_congr (askOpening_links _) l
theorem pendDrop_tally (s : State) (vol gen : Nat) : (s.pendDrop vol gen).tally = s.tally := askOpening_tally _
theorem pendDrop_cat (s : State) (vol gen : Nat) : (s.pendDrop vol gen).cat = s.cat := askOpening_cat _
theorem pendDrop_pat (s : State) (vol gen : Nat) : (s.pendDrop vol gen).pat = s.pat := askOpening_pat _
theorem drop_mem_pendDrop (s : State) (vol gen : Nat) : Control.drop vol gen ∈ (s.pendDrop vol gen).off.controls :=
  mem_controls_askOpening (List.mem_append_right _ (List.mem_singleton_self _))

end Sys2Proof.Machine
end

section
/-! PROOF. Expire Local and Expire Offsite (R77, R80): the checks in their order, then the sweep or the
DROP. -/

namespace Sys2Proof.Machine

/-! ### The checks -/

theorem not_foreign {s : State} {l : Link} {v : Volume} (h : s.actsOn l v) : s.foreign l v = false := by
  rcases h with h | h <;> simp [State.foreign, h]

@[simp] theorem expireCheck_asked (s : State) (l j : Link) (tag : Nat) (k : ReqKind) (vol gen : Nat) :
    (s.asked l tag k).expireCheck j vol gen = s.expireCheck j vol gen := rfl

theorem expireCheck_unknownVolume {s : State} {vol : Nat} (l : Link) (gen : Nat) (hv : s.volume vol = none) :
    s.expireCheck l vol gen = some .unknownVolume := by
  simp [State.expireCheck, hv]

theorem expireCheck_notPermitted {s : State} {l : Link} {vol : Nat} {v : Volume} (gen : Nat)
    (hv : s.volume vol = some v) (hr : s.role l = .fileserver) (ho : l ≠ v.owner) :
    s.expireCheck l vol gen = some .notPermitted := by
  simp [State.expireCheck, hv, State.foreign, hr, ho]

section
variable {s : State} {l : Link} {vol gen : Nat} {v : Volume} {p : Snapshot}

theorem expireCheck_unknownSnapshot (hv : s.volume vol = some v) (ha : s.actsOn l v)
    (hs : s.snapshot vol gen = none) : s.expireCheck l vol gen = some .unknownSnapshot := by
  simp [State.expireCheck, hv, not_foreign ha, hs]

/-- The last checks, on a snapshot that the link may name: a sweep or DROP under way, then the pins. -/
theorem expireCheck_snapshot (hv : s.volume vol = some v) (ha : s.actsOn l v) (hs : s.snapshot vol gen = some p) :
    s.expireCheck l vol gen = if p.leaving then some .busy else if 0 < p.pins then some .pinned else none := by
  simp [State.expireCheck, hv, not_foreign ha, hs]

end

/-! ### The outcomes -/

/-- The state of Expire Offsite once the record is DROPPING and its DROP pending (R80). -/
def State.dropBegun (s : State) (vol gen : Nat) : State :=
  (s.modSnapshot vol gen fun p => { p with state := .dropping (decide (p.state = .active)) none }).pendDrop vol gen

/-- The end of an Expire Local that starts a sweep (R77). -/
def State.sweepStarted (s : State) (l : Link) (tag vol gen : Nat) : State :=
  (((s.asked l tag .expireLocal).startExpiry vol gen).reply l s.sup.nextReq .accepted .none).finish

/-- The end of an Expire Offsite that begins a DROP (R80). -/
def State.dropStarted (s : State) (l : Link) (tag vol gen : Nat) : State :=
  (((s.asked l tag .expireOffsite).dropBegun vol gen).reply l s.sup.nextReq .accepted .none).finish

section
variable {s : State} {l : Link} {vol gen : Nat} {p : Snapshot} {st : Status} (tag : Nat)

theorem exec_expireLocal_refused (h : s.takes l) (hc : s.expireCheck l vol gen = some st) :
    Machine.exec (.expireLocal l tag vol gen) s = .next (s.turned l tag .expireLocal st) := by
  refine (act_request tag .expireLocal _ h).trans ?_
  simp only [expireCheck_asked, hc]
  rfl

theorem exec_expireOffsite_refused (h : s.takes l) (hc : s.expireCheck l vol gen = some st) :
    Machine.exec (.expireOffsite l tag vol gen) s = .next (s.turned l tag .expireOffsite st) := by
  refine (act_request tag .expireOffsite _ h).trans ?_
  simp only [expireCheck_asked, hc]
  rfl

theorem exec_expireLocal_started (h : s.takes l) (hc : s.expireCheck l vol gen = none)
    (hs : s.snapshot vol gen = some p) (hp : p.state = .active) :
    Machine.exec (.expireLocal l tag vol gen) s = .next (s.sweepStarted l tag vol gen) := by
  refine (act_request tag .expireLocal _ h).trans ?_
  simp only [expireCheck_asked, snapshot_asked, hc, hs, hp, if_true]
  rfl

theorem exec_expireLocal_done (h : s.takes l) (hc : s.expireCheck l vol gen = none)
    (hs : s.snapshot vol gen = some p) (hp : p.state ≠ .active) :
    Machine.exec (.expireLocal l tag vol gen) s = .next (s.turned l tag .expireLocal .done) := by
  refine (act_request tag .expireLocal _ h).trans ?_
  simp only [expireCheck_asked, snapshot_asked, hc, hs, hp, if_false]
  rfl

theorem exec_expireOffsite_begun (h : s.takes l) (hc : s.expireCheck l vol gen = none)
    (hs : s.snapshot vol gen = some p) (hp : p.held = true) :
    Machine.exec (.expireOffsite l tag vol gen) s = .next (s.dropStarted l tag vol gen) := by
  refine (act_request tag .expireOffsite _ h).trans ?_
  simp only [expireCheck_asked, snapshot_asked, hc, hs, hp, if_true]
  rfl

theorem exec_expireOffsite_done (h : s.takes l) (hc : s.expireCheck l vol gen = none)
    (hs : s.snapshot vol gen = some p) (hp : p.held = false) :
    Machine.exec (.expireOffsite l tag vol gen) s = .next (s.turned l tag .expireOffsite .done) := by
  refine (act_request tag .expireOffsite _ h).trans ?_
  simp only [expireCheck_asked, snapshot_asked, hc, hs, hp, Bool.false_eq_true, if_false]
  rfl

/-- What a check refuses, both requests refuse, with no other effect. -/
theorem expire_refused (h : s.takes l) (hc : s.expireCheck l vol gen = some st) :
    (∃ t, Machine.exec (.expireLocal l tag vol gen) s = .next t ∧
      Answered s t l tag .expireLocal st .none ∧ Spared s t) ∧
    ∃ t, Machine.exec (.expireOffsite l tag vol gen) s = .next t ∧
      Answered s t l tag .expireOffsite st .none ∧ Spared s t :=
  ⟨⟨_, exec_expireLocal_refused tag h hc, answered_turned tag _ st h, spared_turned tag _ st h⟩,
    ⟨_, exec_expireOffsite_refused tag h hc, answered_turned tag _ st h, spared_turned tag _ st h⟩⟩

/-- A sweep started: the request is ACCEPTED, and the record is EXPIRING at extent 0 (R77). -/
theorem sweepStarted_accepted (h : s.takes l) (hs : s.snapshot vol gen = some p) :
    Answered s (s.sweepStarted l tag vol gen) l tag .expireLocal .accepted .none ∧
      (s.sweepStarted l tag vol gen).snapshot vol gen = some { p with state := .expiring 0 } := by
  refine ⟨answered_finish_reply .accepted h (entered_asked s l tag .expireLocal), ?_⟩
  rw [State.sweepStarted, (finish_settles _).snapshot]
  calc ((s.asked l tag .expireLocal).startExpiry vol gen).snapshot vol gen
      = (s.snapshot vol gen).map fun p => { p with state := .expiring 0 } :=
        State.snapshot_modSnapshot (s.asked l tag .expireLocal) vol gen _
    _ = some { p with state := .expiring 0 } := by rw [hs]; rfl

theorem dropBegun_sup (s : State) (vol gen : Nat) : (s.dropBegun vol gen).sup = s.sup := pendDrop_sup _ vol gen
theorem dropBegun_link (s : State) (vol gen : Nat) (l : Link) : (s.dropBegun vol gen).link l = s.link l :=
  pendDrop_link _ vol gen l

theorem dropBegun_calm (h : s.calm) : (s.dropBegun vol gen).calm := by
  rw [State.calm, State.tallyStill, State.patrolStill, State.dropBegun, pendDrop_tally, pendDrop_pat]
  exact h

theorem snapshot_dropBegun (s : State) (vol gen : Nat) :
    (s.dropBegun vol gen).snapshot vol gen =
      (s.snapshot vol gen).map fun p => { p with state := .dropping (decide (p.state = .active)) none } := by
  rw [State.snapshot, State.dropBegun, pendDrop_cat]
  exact State.snapshot_modSnapshot s vol gen _

/-- A DROP begun with Tally Unit and Patrol Unit at rest: the request is ACCEPTED, the record is DROPPING with
its present state as origin, and the DROP is pending (R80). -/
theorem dropStarted_accepted (h : s.takes l) (hcalm : s.calm) (hs : s.snapshot vol gen = some p) :
    Answered s (s.dropStarted l tag vol gen) l tag .expireOffsite .accepted .none ∧
      (s.dropStarted l tag vol gen).snapshot vol gen =
        some { p with state := .dropping (decide (p.state = .active)) none } ∧
      Control.drop vol gen ∈ (s.dropStarted l tag vol gen).off.controls := by
  have hentered : Entered s ((s.asked l tag .expireOffsite).dropBegun vol gen) l tag .expireOffsite true := by
    unfold Entered
    rw [dropBegun_link]
    exact entered_asked s l tag .expireOffsite
  have hrun : ((s.asked l tag .expireOffsite).dropBegun vol gen).sup.op ≠ .halted := by
    rw [dropBegun_sup]
    exact asked_running tag .expireOffsite h
  have hrest : ((s.asked l tag .expireOffsite).dropBegun vol gen).calm := dropBegun_calm hcalm
  refine ⟨answered_finish_reply .accepted h hentered, ?_, ?_⟩
  · rw [State.dropStarted, (finish_settles _).snapshot]
    calc ((s.asked l tag .expireOffsite).dropBegun vol gen).snapshot vol gen
        = (s.snapshot vol gen).map fun p => { p with state := .dropping (decide (p.state = .active)) none } :=
          snapshot_dropBegun (s.asked l tag .expireOffsite) vol gen
      _ = some { p with state := .dropping (decide (p.state = .active)) none } := by rw [hs]; rfl
  · rw [State.dropStarted, finish_calm (s := State.reply _ l s.sup.nextReq .accepted .none) hrest hrun]
    exact mem_controls_settleLink (drop_mem_pendDrop _ vol gen)

/-- Expire Local of a snapshot that the link may name and no pin holds, by the state of its record: ACTIVE starts
the sweep, OFFSITE_ONLY is done, and one leaving already is busy. -/
theorem expireLocal_unpinned {v : Volume} (h : s.takes l) (hv : s.volume vol = some v) (ha : s.actsOn l v)
    (hs : s.snapshot vol gen = some p) (hpin : p.pins = 0) :
    ∃ t, Machine.exec (.expireLocal l tag vol gen) s = .next t ∧
      (p.state = .active → Answered s t l tag .expireLocal .accepted .none ∧
        t.snapshot vol gen = some { p with state := .expiring 0 }) ∧
      (p.state = .offsiteOnly → Answered s t l tag .expireLocal .done .none ∧ Spared s t) := by
  have hcheck := expireCheck_snapshot hv ha hs
  cases hp : p.state with
  | active =>
    have hnone : s.expireCheck l vol gen = none := by simpa [Snapshot.leaving, hp, hpin] using hcheck
    exact ⟨_, exec_expireLocal_started tag h hnone hs hp, fun _ => sweepStarted_accepted tag h hs, nofun⟩
  | offsiteOnly =>
    have hnone : s.expireCheck l vol gen = none := by simpa [Snapshot.leaving, hp, hpin] using hcheck
    exact ⟨_, exec_expireLocal_done tag h hnone hs (by simp [hp]), nofun,
      fun _ => ⟨answered_turned tag _ _ h, spared_turned tag _ _ h⟩⟩
  | expiring cursor =>
    have hbusy : s.expireCheck l vol gen = some .busy := by simpa [Snapshot.leaving, hp] using hcheck
    exact ⟨_, exec_expireLocal_refused tag h hbusy, nofun, nofun⟩
  | dropping fromActive cursor =>
    have hbusy : s.expireCheck l vol gen = some .busy := by simpa [Snapshot.leaving, hp] using hcheck
    exact ⟨_, exec_expireLocal_refused tag h hbusy, nofun, nofun⟩

/-- Expire Offsite of a snapshot that passes its checks: one held offsite begins its DROP, another is done. -/
theorem expireOffsite_unpinned (h : s.takes l) (hcalm : s.calm) (hc : s.expireCheck l vol gen = none)
    (hs : s.snapshot vol gen = some p) :
    ∃ t, Machine.exec (.expireOffsite l tag vol gen) s = .next t ∧
      (p.held = true → Answered s t l tag .expireOffsite .accepted .none ∧
        t.snapshot vol gen = some { p with state := .dropping (decide (p.state = .active)) none } ∧
        Control.drop vol gen ∈ t.off.controls) ∧
      (p.held = false → Answered s t l tag .expireOffsite .done .none ∧ Spared s t) := by
  by_cases hp : p.held = true
  · exact ⟨_, exec_expireOffsite_begun tag h hc hs hp, fun _ => dropStarted_accepted tag h hcalm hs,
      fun hnot => absurd hp (by simp [hnot])⟩
  · exact ⟨_, exec_expireOffsite_done tag h hc hs (by simpa using hp), fun hheld => absurd hheld hp,
      fun _ => ⟨answered_turned tag _ _ h, spared_turned tag _ _ h⟩⟩

end

end Sys2Proof.Machine

open Sys2Proof Sys2Proof.Machine

/-- Settles O36, clause by clause: the refusals are the checks in their order, and what passes them is decided
by the record's state, or by whether it is held offsite. -/
theorem expireStartsTheSweepOrTheDrop : Obligations.ExpireStartsTheSweepOrTheDrop := by
  refine ⟨?_, ?_, ?_, ?_, ?_, ?_⟩
  · intro s l tag vol gen v p h hv ha hs hpin
    exact expireLocal_unpinned tag h hv ha hs hpin
  · intro s l tag vol gen v p h hv ha hs hleaving
    exact expire_refused tag h (by simp [expireCheck_snapshot hv ha hs, hleaving])
  · rintro s l tag vol gen st h (⟨hv, rfl⟩ | ⟨hrole, rfl, v, hv, howner⟩)
    · exact expire_refused tag h (expireCheck_unknownVolume l gen hv)
    · exact expire_refused tag h (expireCheck_notPermitted gen hv hrole howner)
  · intro s l tag vol gen v p h hcalm hv ha hs hpin hleaving
    exact expireOffsite_unpinned tag h hcalm (by simp [expireCheck_snapshot hv ha hs, hleaving, hpin]) hs
  · intro s l tag vol gen v p h hv ha hs hleaving hpin
    exact expire_refused tag h (by simp [expireCheck_snapshot hv ha hs, hleaving, hpin])
  · intro s l tag vol gen v h hv ha hs
    exact expire_refused tag h (expireCheck_unknownSnapshot hv ha hs)
end

section
/-! SUPPORT. Requests turned away as they arrive, in LOADING and HOLDUP (R182); the session of an offsite link
that is not UP, kept while the blocks settle. -/

namespace Sys2Proof.Machine

/-! ### A request turned away as it arrives -/

/-- What settling leaves of a spared link is spared. -/
theorem linkSpared_settles {r q x : LinkRec} (h : linkSpared r q) (hs : linkSettles q x) : linkSpared r x := by
  obtain ⟨⟨hup, hdir, hsubs, hdel, hcur, hhold, htag, hdisc, hhalt⟩, hq, htx, hnot⟩ := h
  obtain ⟨⟨kup, kdir, ksubs, kdel, kcur, khold, ktag, kdisc, -, khalt⟩, kq, ktx, knot⟩ := hs
  exact ⟨⟨kup.trans hup, kdir.trans hdir, ksubs.trans hsubs, kdel.trans hdel, kcur.trans hcur, khold.trans hhold,
    ktag.trans htag, kdisc.trans hdisc, khalt.trans hhalt⟩, kq.trans hq, htx.trans ktx, hnot.trans knot⟩

/-- The part is spared by a step that writes nothing but spared links before the blocks settle. -/
theorem spared_finish {s u : State} (hsup : u.sup = s.sup) (hlink : ∀ j, linkSpared (s.link j) (u.link j))
    (htally : u.tally = s.tally) (hothers : u.others = s.others) (hpending : u.pending = s.pending) :
    Spared s u.finish := by
  obtain ⟨ksup, klink, kcat, krst, koff, kpending, -⟩ := finish_settles u
  simp only [State.others, Prod.mk.injEq] at hothers
  obtain ⟨hcat, hrst, hstr, hoff, hpat⟩ := hothers
  have halike : LinkAlike u s := ⟨hoff, hcat, hstr, by rw [hsup], by rw [hsup], by rw [hsup], hrst⟩
  refine ⟨by rw [SupKept, ← hsup]; exact ksup.1, fun j => linkSpared_settles (hlink j) (klink j), hcat ▸ kcat,
    krst.trans hrst, hoff ▸ koff, kpending.trans hpending, fun ht => ?_, fun hp => ?_, fun hc hrun => ?_⟩
  · rw [finish_tally (by simpa only [State.tallyStill, htally] using ht), htally]
  · rw [finish_pat (by simpa only [State.patrolStill, hpat] using hp), hpat]
  · have hcalm : u.calm := by simpa only [State.calm, State.tallyStill, State.patrolStill, htally, hpat] using hc
    exact undisturbed_finish halike hcalm (by rwa [hsup])

/-- The state in which a request has been answered as it arrived on an UP link, taking no entry of the queue; the
output of the step is still empty. -/
def State.rebuffed (s : State) (l : Link) (tag : Nat) (k : ReqKind) (st : Status) : State :=
  (({ s with sent := [] } : State).modLink l fun r =>
    { r with up := true, badRun := 0, idle := false, idleFrom := s.sup.elapsed }).replyAtOnce l tag k st

@[simp] theorem link_unsent (s : State) (l : Link) : ({ s with sent := [] } : State).link l = s.link l := rfl

@[simp] theorem rebuffed_link (s : State) (l : Link) (tag : Nat) (k : ReqKind) (st : Status) :
    (s.rebuffed l tag k st).link l =
      { s.link l with
        up := true, badRun := 0, idle := false, idleFrom := s.sup.elapsed
        tx := (s.link l).tx ++ [.reply tag k st .none] } := by
  simp [State.rebuffed, State.replyAtOnce]

theorem rebuffed_link_ne (s : State) {l j : Link} (tag : Nat) (k : ReqKind) (st : Status) (h : l ≠ j) :
    (s.rebuffed l tag k st).link j = s.link j := by
  simp [State.rebuffed, State.replyAtOnce, h]

theorem notOperating_running {s : State} (h : s.sup.op = .loading ∨ s.sup.op = .holdup) : s.sup.op ≠ .halted := by
  rcases h with h | h <;> simp [h]

/-- What `request` does on an UP link in LOADING and HOLDUP (R182). -/
theorem request_wrongState {s : State} {l : Link} (tag : Nat) (k : ReqKind) (taken co : Bool) (errs : List StoreError)
    (body : Nat → State → State) (hop : s.sup.op = .loading ∨ s.sup.op = .holdup) (hup : (s.link l).up = true) :
    request l tag k taken co errs body s =
      (s.modLink l fun r => { r with up := true, badRun := 0, idle := false, idleFrom := s.sup.elapsed }).replyAtOnce
        l tag k .wrongState := by
  have harrive : (s.arrive l).busy l = s.modLink l fun r =>
      { r with up := true, badRun := 0, idle := false, idleFrom := s.sup.elapsed } := by
    simp [State.arrive, hup, State.busy, modLink_modLink]
  have hrun := notOperating_running hop
  unfold request
  dsimp only
  rw [harrive, hup, if_pos rfl, withErrs_nil _ (by simpa using hrun), if_pos (by simpa using hop)]

/-- The step of a request that arrives on an UP link in LOADING or HOLDUP. -/
theorem act_request_wrongState {s : State} {l : Link} (tag : Nat) (k : ReqKind) (taken co : Bool)
    (errs : List StoreError) (body : Nat → State → State) (hop : s.sup.op = .loading ∨ s.sup.op = .holdup)
    (hup : (s.link l).up = true) :
    act (fun s => (request l tag k taken co errs body s).finish) s = .next (s.rebuffed l tag k .wrongState).finish := by
  have hrun := notOperating_running hop
  have hreq : request l tag k taken co errs body { s with sent := [] } = s.rebuffed l tag k .wrongState :=
    request_wrongState (s := { s with sent := [] }) tag k taken co errs body hop hup
  rw [act_running _ hrun, hreq]

theorem answered_rebuffed (s : State) (l : Link) (tag : Nat) (k : ReqKind) (st : Status) :
    Answered s (s.rebuffed l tag k st) l tag k st .none :=
  ⟨⟨[.reply tag k st .none], by simp, by simp⟩, by simp⟩

/-- A request answered as it arrives spares the part. -/
theorem spared_rebuffed {s : State} {l : Link} (tag : Nat) (k : ReqKind) (st : Status) (hup : (s.link l).up = true) :
    Spared s (s.rebuffed l tag k st).finish := by
  refine spared_finish rfl (fun j => ?_) rfl rfl rfl
  by_cases hj : l = j
  · subst hj
    simp [linkSpared, hup]
  · rw [rebuffed_link_ne s tag k st hj]
    simp [linkSpared]

/-! ### The session of the offsite link -/

/-- What an opening or a close of the offsite link sets of its session: its state, its direction, and the
counters of numbers (R139, R140). -/
def Offsite.session (o : Offsite) : OffLink × Direction × Nat × Nat := (o.link, o.dir, o.seqCounter, o.reqCounter)

/-- Openings are asked for of a DOWN link alone, so a room served keeps the session of any other. -/
theorem session_serveRoomOnce {s : State} (h : s.off.link ≠ .down) :
    s.serveRoomOnce.off.session = s.off.session := by
  unfold State.serveRoomOnce
  split
  · rfl
  · split
    · simp [State.placeFetch, State.askOpening, State.modOff, h, Offsite.session]
    · rfl

theorem session_serveRoom {s : State} (h : s.off.link ≠ .down ∨ s.off.roomWaits = []) :
    s.serveRoom.off.session = s.off.session := by
  rcases h with hlink | hrooms
  · refine iter_keeps (P := fun u => u.off.session = s.off.session) (fun u hu => ?_) _ rfl
    have hulink : u.off.link = s.off.link := congrArg Prod.fst hu
    rw [session_serveRoomOnce (hulink ▸ hlink), hu]
  · simp [State.serveRoom, hrooms, iter]

theorem redirect_of_not_up {s : State} (h : s.off.link ≠ .up) : s.redirect = s := by
  simp [State.redirect, iter, State.redirectOnce, h]

/-- Settling keeps the session of a link that is not UP, unless it is DOWN and a wait for room asks for an
opening. -/
theorem session_settleLink {s : State} (hup : s.off.link ≠ .up) (hdown : s.off.link ≠ .down ∨ s.off.roomWaits = []) :
    s.settleLink.off.session = s.off.session := by
  have hserved : s.clearShed.serveRoom.off.session = s.off.session := session_serveRoom (s := s.clearShed) hdown
  have hlink : s.clearShed.serveRoom.off.link = s.off.link := congrArg Prod.fst hserved
  rw [State.settleLink, redirect_of_not_up (hlink ▸ hup)]
  exact hserved

/-- With the Patrol Unit at rest, Tally Unit and offsite link alone go on. -/
theorem finish_patrolStill {s : State} (h : s.patrolStill) (hrun : s.sup.op ≠ .halted) :
    s.finish = s.advance.settleLink := by
  have hothers : s.advance.others = s.others := othersKept_advance rfl
  have hpat : s.advance.pat = s.pat := congrArg (fun x => x.2.2.2.2) hothers
  rw [State.finish, if_neg hrun, State.settle, settlePatrol_still]
  simpa only [State.patrolStill, hpat] using h

theorem session_finish {s : State} (h : s.patrolStill) (hrun : s.sup.op ≠ .halted) (hup : s.off.link ≠ .up)
    (hdown : s.off.link ≠ .down ∨ s.off.roomWaits = []) : s.finish.off.session = s.off.session := by
  have hothers : s.advance.others = s.others := othersKept_advance rfl
  have hoff : s.advance.off = s.off := congrArg (fun x => x.2.2.2.1) hothers
  rw [finish_patrolStill h hrun, session_settleLink (hoff ▸ hup) (hoff ▸ hdown), hoff]

theorem session_closeLink (s : State) :
    s.closeLink.off.session = (.down, .idle, s.off.seqCounter, s.off.reqCounter) := rfl

theorem startOpening_sent (s : State) : s.startOpening.sent = s.sent ++ [.offsite (.open 0 16)] := rfl

theorem closeLink_sent (s : State) : s.closeLink.sent = s.sent ++ [.offsite .close] := rfl

/-- What a step has sent stays sent as the blocks settle. -/
theorem mem_sent_finish {s : State} {o : Output} (h : o ∈ s.sent) : o ∈ s.finish.sent := by
  obtain ⟨-, -, -, -, -, -, hsent⟩ := finish_settles s
  exact hsent.subset h

end Sys2Proof.Machine
end

section
/-! PROOF. Offsite Open and the close of a link without work (R140, R180). -/

namespace Sys2Proof.Machine

/-- The end of an Offsite Open that starts an opening (R180). -/
def State.openStarted (s : State) (l : Link) (tag : Nat) : State :=
  ((s.asked l tag .offsiteOpen).startOpening.reply l s.sup.nextReq .accepted .none).finish

section
variable {s : State} {l : Link} (tag : Nat)

theorem exec_offsiteOpen_rebuffed (hop : s.sup.op = .loading ∨ s.sup.op = .holdup) (hup : (s.link l).up = true) :
    Machine.exec (.offsiteOpen l tag) s = .next (s.rebuffed l tag .offsiteOpen .wrongState).finish :=
  act_request_wrongState tag .offsiteOpen true false [] _ hop hup

theorem exec_offsiteOpen_standby (h : s.takes l) (hop : s.sup.op = .standby) :
    Machine.exec (.offsiteOpen l tag) s = .next (s.turned l tag .offsiteOpen .wrongState) := by
  refine (act_request tag .offsiteOpen _ h).trans ?_
  simp [State.asked, hop, State.turned]

/-- A link OPENING or UP needs no opening (R180). -/
theorem exec_offsiteOpen_done (h : s.takes l) (hop : s.sup.op = .active)
    (hlink : s.off.link = .up ∨ ∃ n, s.off.link = .opening n) :
    Machine.exec (.offsiteOpen l tag) s = .next (s.turned l tag .offsiteOpen .done) := by
  refine (act_request tag .offsiteOpen _ h).trans ?_
  rcases hlink with hlink | ⟨n, hlink⟩ <;> simp [State.asked, hop, hlink, State.turned]

/-- A link DOWN or FAULTED is opened at once, with no wait for the reopen interval (R180). -/
theorem exec_offsiteOpen_started (h : s.takes l) (hop : s.sup.op = .active)
    (hlink : s.off.link = .down ∨ ∃ since, s.off.link = .faulted since) :
    Machine.exec (.offsiteOpen l tag) s = .next (s.openStarted l tag) := by
  refine (act_request tag .offsiteOpen _ h).trans ?_
  rcases hlink with hlink | ⟨since, hlink⟩ <;> simp [State.asked, hop, hlink, State.openStarted]

/-- An opening started on request: the request is ACCEPTED, and a session begins with its OPEN (R139, R180). -/
theorem openStarted_accepted (h : s.takes l) (hpat : s.patrolStill) :
    Answered s (s.openStarted l tag) l tag .offsiteOpen .accepted .none ∧
      (s.openStarted l tag).off.link = .opening 1 ∧ (s.openStarted l tag).off.dir = .idle ∧
      (s.openStarted l tag).off.seqCounter = 0 ∧ (s.openStarted l tag).off.reqCounter = 0 ∧
      Output.offsite (.open 0 16) ∈ (s.openStarted l tag).sent := by
  have hsession : (s.openStarted l tag).off.session = (.opening 1, .idle, 0, 0) :=
    session_finish (s := (s.asked l tag .offsiteOpen).startOpening.reply l s.sup.nextReq .accepted .none)
      hpat (asked_running tag .offsiteOpen h) (fun hup => nomatch hup) (.inl fun hdown => nomatch hdown)
  have hopen : Output.offsite (.open 0 16) ∈ (s.asked l tag .offsiteOpen).startOpening.sent := by
    simp [startOpening_sent]
  simp only [Offsite.session, Prod.mk.injEq] at hsession
  obtain ⟨hlink, hdir, hseq, hreq⟩ := hsession
  exact ⟨answered_finish_reply .accepted h (entered_asked s l tag .offsiteOpen), hlink, hdir, hseq, hreq,
    mem_sent_finish hopen⟩

/-- Offsite Open on a server link that takes it, by the operating state and the state of the offsite link. -/
theorem offsiteOpen_taken (h : s.takes l) (hpat : s.patrolStill) :
    ∃ t, Machine.exec (.offsiteOpen l tag) s = .next t ∧
      (s.sup.op = .standby → Answered s t l tag .offsiteOpen .wrongState .none ∧ Spared s t) ∧
      (s.sup.op = .active → s.off.link = .up ∨ (∃ n, s.off.link = .opening n) →
        Answered s t l tag .offsiteOpen .done .none ∧ Spared s t) ∧
      (s.sup.op = .active → s.off.link = .down ∨ (∃ since, s.off.link = .faulted since) →
        Answered s t l tag .offsiteOpen .accepted .none ∧ t.off.link = .opening 1 ∧ t.off.dir = .idle ∧
        t.off.seqCounter = 0 ∧ t.off.reqCounter = 0 ∧ Output.offsite (.open 0 16) ∈ t.sent) := by
  have hturned (st : Status) : Answered s (s.turned l tag .offsiteOpen st) l tag .offsiteOpen st .none ∧
      Spared s (s.turned l tag .offsiteOpen st) :=
    ⟨answered_turned tag _ st h, spared_turned tag _ st h⟩
  rcases h.1 with hop | hop
  · exact ⟨_, exec_offsiteOpen_standby tag h hop, fun _ => hturned .wrongState, by simp [hop], by simp [hop]⟩
  have hopened := openStarted_accepted tag h hpat
  cases hlink : s.off.link with
  | down =>
    exact ⟨_, exec_offsiteOpen_started tag h hop (.inl hlink), by simp [hop], by simp, fun _ _ => hopened⟩
  | faulted since =>
    exact ⟨_, exec_offsiteOpen_started tag h hop (.inr ⟨since, hlink⟩), by simp [hop], by simp, fun _ _ => hopened⟩
  | up =>
    exact ⟨_, exec_offsiteOpen_done tag h hop (.inl hlink), by simp [hop], fun _ _ => hturned .done, by simp⟩
  | opening n =>
    exact ⟨_, exec_offsiteOpen_done tag h hop (.inr ⟨n, hlink⟩), by simp [hop], fun _ _ => hturned .done, by simp⟩

end

section
variable {s : State}

/-- A link that has been at rest for 300 seconds is closed (R140). -/
theorem exec_offsiteIdleTimeout_closes {since : Nat} (hrun : s.sup.op ≠ .halted)
    (hsince : s.off.idleSince = some since) (hrest : s.linkAtRest = true) (hpassed : since + 300 ≤ s.sup.elapsed) :
    Machine.exec .offsiteIdleTimeout s = .next ({ s with sent := [] } : State).closeLink.finish := by
  refine (act_running _ hrun).trans (congrArg Host.Outcome.next ?_)
  refine (withErrs_nil (s := { s with sent := [] }) _ hrun).trans ?_
  dsimp only
  rw [hsince]
  exact if_pos ⟨hrest, hpassed⟩

/-- A link closed with nobody waiting for room stays DOWN as the blocks settle, and its CLOSE is sent. -/
theorem closeLink_finish (hcalm : s.calm) (hrun : s.sup.op ≠ .halted) (hrooms : s.off.roomWaits = []) :
    s.closeLink.finish.off.link = .down ∧ s.closeLink.finish.off.dir = .idle ∧
      Output.offsite .close ∈ s.closeLink.finish.sent := by
  have hsession : s.closeLink.finish.off.session = s.closeLink.off.session :=
    session_finish hcalm.2 hrun (fun hup => nomatch hup) (.inr hrooms)
  rw [session_closeLink] at hsession
  simp only [Offsite.session, Prod.mk.injEq] at hsession
  obtain ⟨hlink, hdir, -⟩ := hsession
  exact ⟨hlink, hdir, mem_sent_finish (by simp [closeLink_sent])⟩

end

end Sys2Proof.Machine

open Sys2Proof Sys2Proof.Machine

/-- Settles O50, clause by clause: the request before STANDBY and in HOLDUP, the request its link takes, and the
300 seconds without work. -/
theorem offsiteOpenAsksForAnOpening : Obligations.OffsiteOpenAsksForAnOpening := by
  refine ⟨?_, ?_, ?_⟩
  · intro s l tag hop hup
    exact ⟨_, exec_offsiteOpen_rebuffed tag hop hup, (answered_rebuffed _ l tag .offsiteOpen .wrongState).finish,
      spared_rebuffed tag .offsiteOpen .wrongState hup⟩
  · intro s l tag h hpat
    exact offsiteOpen_taken tag h hpat
  · intro s since hrun hcalm hsince hlink hphase hout hfetch hcontrols hrooms hpassed
    have hrest : s.linkAtRest = true := by
      simp [State.linkAtRest, State.linkUp, State.workWaits, State.windowIsOpen, hlink, hphase, hout, hfetch, hcontrols]
    exact ⟨_, exec_offsiteIdleTimeout_closes hrun hsince hrest hpassed,
      closeLink_finish (s := { s with sent := [] }) hcalm hrun hrooms⟩
end

section
/-! PROOF. What every command keeps: a property of the state that each operation of the blocks keeps is kept by
each command (R172, R187, R190). The bounds, the invariants and the Supervisor's registers are such properties. -/

namespace Sys2Proof.Machine

/-- A property of the state that the operations of every block keep; `errs` are the double errors that may be
met on the way (R190, log entry 7). -/
structure KeptByBlocks (errs : List StoreError) (P : State → Prop) : Prop where
  unsent : ∀ {s : State} (o : List Output), P s → P ({ s with sent := o } : State)
  send : ∀ {s : State} (o : Output), P s → P (s.send o)
  meet : ∀ {s : State} (e : StoreError), e ∈ errs → P s → P (s.meet e)
  meetSlot : ∀ {s : State} (e : StoreError), e ∈ errs → P s → P (s.meetSlot e)
  enqueue : ∀ {s : State} (l : Link) (tag : Nat) (k : ReqKind) (taken : Bool),
    (s.link l).queue.length < Config.requestQueueSize → P s →
      P ((s.modSup fun u => { u with nextReq := s.sup.nextReq + 1 }).modLink l fun r =>
      { r with
        queue := r.queue ++ [{ num := s.sup.nextReq, tag := tag, kind := k, taken := taken, stale := false }] })
  reply : ∀ {s : State} (l : Link) (req : Nat) (st : Status) (body : ReplyBody), P s → P (s.reply l req st body)
  replyAtOnce : ∀ {s : State} (l : Link) (tag : Nat) (k : ReqKind) (st : Status), P s → P (s.replyAtOnce l tag k st)
  arrive : ∀ {s : State} (l : Link), P s → P (s.arrive l)
  busy : ∀ {s : State} (l : Link), P s → P (s.busy l)
  finish : ∀ {s : State}, P s → P (s.finish)
  pushOp : ∀ {s : State} (job : Job) (postings : List Nat), P s → P (s.pushOp job postings)
  calculate : ∀ {s : State} (num : Nat), P s → P (s.calculate num)
  dropOp : ∀ {s : State} (num : Nat), P s → P (s.dropOp num)
  proceed : ∀ {s : State} (num : Nat), P s → P (s.proceed num)
  endMarking : ∀ {s : State} (num : Nat), P s → P (s.endMarking num)
  endInPlace : ∀ {s : State} (id : Nat), P s → P (s.endInPlace id)
  drain : ∀ {s : State}, P s → P (s.drain)
  runOp : ∀ {s : State} (num : Nat), P s → P (s.runOp num)
  endRecount : ∀ {s : State} (pool : Nat), P s → P (s.endRecount pool)
  modMembers : ∀ {s : State} (pool : Nat) (f : Nat → Nat), P s → P (s.modMembers pool f)
  stage : ∀ {s : State} (l : Link) (r : Nat) (held : List Staged) (c : Staged), P s → P (s.stage l r held c)
  setFrozen : ∀ {s : State} (id : Nat) (b : Bool), P s → P (s.setFrozen id b)
  expireHead : ∀ {s : State}, P s → P (s.expireHead)
  abandonRewritten : ∀ {s : State} (vol ext : Nat) (old : Option Version), P s → P (s.abandonRewritten vol ext old)
  detach : ∀ {s : State} (vol : Nat), P s → P (s.detach vol)
  cut : ∀ {s : State} (vol gen : Nat) (k : SnapKind), P s → P (s.cut vol gen k)
  missDue : ∀ {s : State} (vol : Nat), P s → P (s.missDue vol)
  startExpiry : ∀ {s : State} (vol gen : Nat), P s → P (s.startExpiry vol gen)
  pendDrop : ∀ {s : State} (vol gen : Nat), P s → P (s.pendDrop vol gen)
  modSnapshot : ∀ {s : State} (vol gen : Nat) (f : Snapshot → Snapshot), P s → P (s.modSnapshot vol gen f)
  moveExpiry : ∀ {s : State} (vol gen cursor count : Nat), P s → P (s.moveExpiry vol gen cursor count)
  waitSweep : ∀ {s : State} (key : Nat), P s → P (s.waitSweep key)
  acceptRestore : ∀ {s : State} (q : RestoreReq), P s → P (s.acceptRestore q)
  take : ∀ {s : State} (l : Link) (req : Nat), P s → P (s.take l req)
  startRestore : ∀ {s : State}, P s → P (s.startRestore)
  takeUp : ∀ {s : State} (rec i : Nat), P s → P (s.takeUp rec i)
  issuePut : ∀ {s : State} (rec i : Nat), P s → P (s.issuePut rec i)
  doneAnswer : ∀ {s : State} (l : Link) (tag loc : Nat) (k : DirKind), P s → P (s.doneAnswer l tag loc k)
  failAnswer : ∀ {s : State} (l : Link) (tag : Nat) (k : DirKind), P s → P (s.failAnswer l tag k)
  consider : ∀ {s : State}, P s → P (s.consider)
  transmitted : ∀ {s : State} (seq : Nat), P s → P (s.transmitted seq)
  startRun : ∀ {s : State}, P s → P (s.startRun)
  issuePull : ∀ {s : State} (p : ShipPull) (l : Link), P s → P (s.issuePull p l)
  countDiscard : ∀ {s : State} (l : Link), P s → P (s.countDiscard l)
  placeChunk : ∀ {s : State} (d : Directive) (idx : Nat) (data : List Byte), P s → P (s.placeChunk d idx data)
  shipNext : ∀ {s : State} (errs : List StoreError), P s → P (s.shipNext errs)
  finishVolume : ∀ {s : State}, P s → P (s.finishVolume)
  redirect : ∀ {s : State}, P s → P (s.redirect)
  sendHead : ∀ {s : State}, P s → P (s.sendHead)
  countVisit : ∀ {s : State} (vol : Nat), P s → P (s.countVisit vol)
  shipVisit : ∀ {s : State}, P s → P (s.shipVisit)
  endInterval : ∀ {s : State}, P s → P (s.endInterval)
  chooseDir : ∀ {s : State}, P s → P (s.chooseDir)
  fault : ∀ {s : State} (cause : FaultCause), P s → P (s.fault cause)
  downInStandby : ∀ {s : State}, P s → P (s.downInStandby)
  openExpired : ∀ {s : State} (opens : Nat), P s → P (s.openExpired opens)
  listExpired : ∀ {s : State} (errs : List StoreError), P s → P (s.listExpired errs)
  startOpening : ∀ {s : State}, P s → P (s.startOpening)
  closeLink : ∀ {s : State}, P s → P (s.closeLink)
  ack : ∀ {s : State} (n : Nat), P s → P (s.ack n)
  answerControl : ∀ {s : State} (p : Control → Bool), P s → P (s.answerControl p)
  completeVolume : ∀ {s : State} (vol target : Nat), P s → P (s.completeVolume vol target)
  dropAcked : ∀ {s : State} (vol gen : Nat), P s → P (s.dropAcked vol gen)
  nak : ∀ {s : State} (n reason : Nat) (errs : List StoreError), P s → P (s.nak n reason errs)
  serveHead : ∀ {s : State}, P s → P (s.serveHead)
  endBurst : ∀ {s : State}, P s → P (s.endBurst)
  answerFetch : ∀ {s : State} (f : OutFrame), P s → P (s.answerFetch f)
  fetchChunk : ∀ {s : State} (e : FetchEntry) (i : Nat) (data : List Byte), P s → P (s.fetchChunk e i data)
  fetchNone : ∀ {s : State} (e : FetchEntry), P s → P (s.fetchNone e)
  tellFetch : ∀ {s : State} (e : FetchEntry) (a : ChunkAnswer), P s → P (s.tellFetch e a)
  patrolVisit : ∀ {s : State}, P s → P (s.patrolVisit)
  decideItem : ∀ {s : State} (n : Nat), P s → P (s.decideItem n)
  leaveItem : ∀ {s : State} (n : Nat), P s → P (s.leaveItem n)
  issueVerify : ∀ {s : State} (w : WorkItem) (l : Link), P s → P (s.issueVerify w l)
  fixWhole : ∀ {s : State} (n : Nat) (r : Repair) (l : Link), P s → P (s.fixWhole n r l)
  fixChunk : ∀ {s : State} (n idx : Nat) (r : Repair) (l : Link), P s → P (s.fixChunk n idx r l)
  fixDone : ∀ {s : State} (l : Link) (tag : Nat), P s → P (s.fixDone l tag)
  readTable : ∀ {s : State} (l : Link) (q : Nat) (t : TableName) (start count : Nat) (ks : List Nat), P s → P
      (s.readTable l q t start count ks)
  clearCounts : ∀ {s : State}, P s → P (s.clearCounts)
  failDirective : ∀ {s : State} (l : Link) (d : Directive) (cause : PullCause), P s → P (s.failDirective l d cause)
  deliverStartup : ∀ {s : State} (l : Link) (classes : List Nat), P s → P (s.deliverStartup l classes)
  resetLink : ∀ {s : State} (l : Link) (keepUp : Bool), P s → P (s.resetLink l keepUp)
  badFrame : ∀ {s : State} (l : Link), P s → P (s.badFrame l)
  transmit : ∀ {s : State} (l : Link), P s → P (s.transmit l)
  transmitHalted : ∀ {s : State} (l : Link), P s → P (s.transmitHalted l)
  setIdle : ∀ {s : State} (l : Link), P s → P (s.modLink l fun r => { r with idle := true })
  setSubs : ∀ {s : State} (l : Link) (cs : List Nat), P s → P (s.modLink l fun r => { r with subs := cs })
  endCursor : ∀ {s : State} (l : Link), P s → P (s.modLink l fun r => { r with cursor := none })
  beginHold : ∀ {s : State} (l : Link), P s → P (s.modLink l fun r => { r with hold := some [] })
  endHold : ∀ {s : State} (l : Link), P s → P (s.modLink l fun r => { r with hold := none })
  leaveQueue : ∀ {s : State} (l : Link) (q : Nat), P s →
    P (s.modLink l fun r => { r with queue := r.queue.filter fun e => e.num != q })
  endFill : ∀ {s : State} {x : Line} (u r : Nat), (s.prin x.id).isSome = true → P s →
    P (s.putLine { x with used := u, reserved := r, dUsed := 0, dReserved := 0, dirty := false, filling := false })
  addPosting : ∀ {s : State} (x : Posting) (n : Nat), s.tally.postings.length < Config.postingQueueSize → P s →
    P { s with tally.postings := s.tally.postings ++ [x], tally.nextPosting := n }
  addPrincipal : ∀ {s : State} (id : Nat) (p : Principal), s.prin id = none → P s → P (s.setPrin id p)
  storeTally : ∀ {s : State} (id used reserved : Nat), P s → P (s.storeTally id used reserved)
  commit : ∀ {s : State} {l : Link} {vol ext owner loc occ : Nat} {codes : Option (List Code)},
    s.commitCheck (some l) none vol ext owner loc occ codes = none → P s →
      P (s.commit vol ext owner loc occ codes).2
  addAttach : ∀ {s : State} (a : Attach), a.count ≤ Config.maxExtents → P s →
    P { s with cat.attaching := s.cat.attaching ++ [a] }
  endAttach : ∀ {s : State} (a : Attach), a ∈ s.cat.attaching → P s →
    P { s.dropExtents a.vol with
      cat.volumes := tput s.cat.volumes a.vol a.volume
      cat.attaching := s.cat.attaching.filter fun x => x.vol != a.vol
      cat.dues := tdel s.cat.dues a.vol }
  visit : ∀ {s t : State} {vol gen ext : Nat} {fate : Version → Fate}, s.visit vol gen ext fate = some t → P s → P t
  dropSnapshot : ∀ {s : State} (key : Nat), P s → P { s with cat.snapshots := tdel s.cat.snapshots key }
  setWaiting : ∀ {s : State} (qs : List RestoreReq), P s → P (s.modRst fun e => { e with waiting := qs })
  cancelRestore : ∀ {s : State} (rec : Nat), P s → P (s.cancelRestore rec).2
  setOffLink : ∀ {s : State} (x : OffLink) (n : Nat), P s → P (s.modOff fun o => { o with link := x, expiries := n })
  askFetch : ∀ {s : State} (e : FetchEntry) (n : Nat), s.fetchMay = true → P s →
    P (s.joinList { num := n, body := .fetch e false, received := false, naks := 0, vacant := false })
  setFetches : ∀ {s : State} (q : List FetchEntry) (n k : Nat), P s →
    P (s.modOff fun o => { o with fetchQueue := q, reqCounter := n, burst := k })

/-- A property that the operations of the Supervisor keep too: those that change the operating state, the clock,
the flags, the settings and the window. -/
structure KeptByAll (errs : List StoreError) (P : State → Prop) : Prop extends KeptByBlocks errs P where
  cold : ∀ {s : State}, P s → P s.cold
  load : ∀ {s : State}, P s → P s.load
  setClock : ∀ {s : State} (value : Nat), value ≤ maxClock → P s → P (s.setClock value)
  clearMarkers : ∀ {s : State}, s.tallyEmpty = true → P s → P s.clearMarkers
  setFlag : ∀ {s : State} (b : Bool), P s → P (s.modSup fun u => { u with cleanFlag := b })
  setLine : ∀ {s : State} (b : Bool), P s → P { s with sup.powerWarn := b }
  takeHour : ∀ {s : State}, P s → P (s.modSup fun u => { u with hourlyTaken := true })
  endQuiet : ∀ {s : State}, P s → P (s.modSup fun u => { u with quiet := none })
  openDue : ∀ {s : State} (nightly : Bool) (vol : Nat), P s → P (s.openDue nightly vol)
  halt : ∀ {s : State} (item : StoreItem), P s → P (s.halt item)
  initialise : ∀ {s : State}, P s → P (s.initialise)
  endWalk : ∀ {s : State} (before : Nat), P s → P (s.endWalk before)
  enterHoldup : ∀ {s : State}, P s → P (s.enterHoldup)
  leaveHoldup : ∀ {s : State}, P s → P (s.leaveHoldup)
  endLoading : ∀ {s : State}, P s → P (s.endLoading)
  enterStandby : ∀ {s : State} (w : QuietWait), P s → P (s.enterStandby w)
  exitStandby : ∀ {s : State}, P s → P (s.exitStandby)
  clearPart : ∀ {s : State} (w : QuietWait), P s → P (s.clearPart w)
  takeSetting : ∀ {s : State} (l : Link) (q : Nat) (x : Setting), P s → P (s.takeSetting l q x)
  releaseHold : ∀ {s : State} (l : Link) (q : Nat) (held : List Staged), P s → P (s.releaseHold l q held)
  openWindow : ∀ {s : State}, P s → P (s.openWindow)
  closeWindow : ∀ {s : State}, P s → P (s.closeWindow)
  tryEndNight : ∀ {s : State}, P s → P (s.tryEndNight)
  pullAnswer : ∀ {s : State} (l : Link) (tag : Nat) (cause : PullCause), P s → P (s.pullAnswer l tag cause)
  abandonFrames : ∀ {s : State}, P s → P (s.abandonFrames)

namespace KeptByBlocks

variable {errs : List StoreError} {P : State → Prop} {s t : State} {f : State → State}

theorem foldl {α : Type} {g : State → α → State} {xs : List α} (hg : ∀ s, ∀ x ∈ xs, P s → P (g s x)) (h : P s) :
    P (xs.foldl g s) := by
  induction xs generalizing s with
  | nil => exact h
  | cons x xs ih =>
    exact ih (fun s y hy => hg s y (List.mem_cons_of_mem x hy)) (hg s x List.mem_cons_self h)

theorem withErrs (hk : KeptByBlocks errs P) {es : List StoreError} (hes : ∀ e ∈ es, e ∈ errs)
    (hf : ∀ s, P s → P (f s)) (h : P s) : P (Machine.withErrs es f s) := by
  have hmet : P (es.foldl (fun s e => if s.sup.op = .halted then s else s.meet e) s) :=
    foldl (fun s e he h => iteInduction (fun _ => h) fun _ => hk.meet e (hes e he) h) h
  exact iteInduction (fun _ => hmet) fun _ => hf _ hmet

theorem request (hk : KeptByBlocks errs P) {body : Nat → State → State} (l : Link) (tag : Nat) (k : ReqKind)
    (taken co : Bool) (hbody : ∀ q s, P s → P (body q s)) (h : P s) :
    P (Machine.request l tag k taken co errs body s) := by
  have hes (c : Bool) (as bs : List StoreError) (ha : ∀ e ∈ as, e ∈ errs) (hb : ∀ e ∈ bs, e ∈ errs) :
      ∀ e ∈ (if c = true then as else bs), e ∈ errs := by
    split
    · exact ha
    · exact hb
  unfold Machine.request
  dsimp only
  refine hk.withErrs (hes (s.link l).up [] errs (by simp) fun _ he => he) (fun u h => ?_) (hk.busy l (hk.arrive l h))
  split
  · exact hk.replyAtOnce l tag k _ h
  split
  · exact hk.replyAtOnce l tag k _ h
  · rename_i hroom
    have hentered := hk.enqueue l tag k taken (by omega) h
    refine iteInduction (fun _ => hk.reply l _ _ _ hentered) fun _ => ?_
    exact hk.withErrs (hes (s.link l).up errs [] (fun _ he => he) (by simp)) (hbody _) hentered

/-- The step of a command in any state but HALTED, where nothing is done (R190). -/
theorem acted (hk : KeptByBlocks errs P) (hf : ∀ s, P s → P (f s)) (h : P s) (ht : act f s = .next t) : P t := by
  unfold act at ht
  split at ht <;> cases ht
  · exact hk.unsent [] h
  · exact hf _ (hk.unsent [] h)

theorem met (hk : KeptByBlocks errs P) (hf : ∀ s, P s → P (f s)) (h : P s)
    (ht : act (Machine.withErrs errs f) s = .next t) : P t :=
  hk.acted (fun _ h => hk.withErrs (fun _ he => he) hf h) h ht

/-- The step of a command whose double errors in slots are met by its block itself (R115). -/
theorem metOthers (hk : KeptByBlocks errs P) (hf : ∀ s, P s → P (f s)) (h : P s)
    (ht : act (Machine.withErrs (otherErrors errs) f) s = .next t) : P t :=
  hk.acted (fun _ h => hk.withErrs (fun _ he => List.mem_of_mem_filter he) hf h) h ht

/-- The step of a frame that arrives on a link (R169). -/
theorem arrived (hk : KeptByBlocks errs P) {l : Link} (hf : ∀ s, P s → P (f s)) (h : P s)
    (ht : act (fun s => Machine.withErrs errs f (s.arrive l)) s = .next t) : P t :=
  hk.acted (fun _ h => hk.withErrs (fun _ he => he) hf (hk.arrive l h)) h ht

theorem asked (hk : KeptByBlocks errs P) {body : Nat → State → State} {l : Link} {tag : Nat} {k : ReqKind}
    {taken co : Bool} (hbody : ∀ q s, P s → P (body q s)) (h : P s)
    (ht : act (fun s => (Machine.request l tag k taken co errs body s).finish) s = .next t) : P t :=
  hk.acted (fun _ h => hk.finish (hk.request l tag k taken co hbody h)) h ht

/-! ### Server links -/

theorem frameDiscard (hk : KeptByBlocks errs P) {l : Link} {bytes : List Byte} (h : P s)
    (ht : execFrameDiscard l bytes s errs = .next t) : P t := by
  have hbad (s : State) (h : P s) : P (Machine.withErrs errs (fun s => (s.badFrame l).finish) s) :=
    hk.withErrs (fun _ he => he) (fun _ h => hk.finish (hk.badFrame l h)) h
  have hcount (s : State) (h : P s) : P (Machine.withErrs errs (fun s => (s.countDiscard l).finish) (s.arrive l)) :=
    hk.withErrs (fun _ he => he) (fun _ h => hk.finish (hk.countDiscard l h)) (hk.arrive l h)
  refine hk.acted (fun s h => ?_) h ht
  split
  · exact hbad s h
  · exact hbad s h
  · exact hbad s h
  · exact hcount s h
  · split
    · exact hcount s h
    · exact hcount s h
    · exact h
    · exact h

theorem unknownRequest (hk : KeptByBlocks errs P) {l : Link} {bytes : List Byte} (h : P s)
    (ht : execUnknownRequest l bytes s errs = .next t) : P t := by
  refine hk.acted (fun s h => ?_) h ht
  split
  · split
    · exact hk.withErrs (fun _ he => he) (fun _ h => hk.finish (hk.replyAtOnce l _ _ _ h))
        (hk.busy l (hk.arrive l h))
    · exact h
  · exact h

theorem linkTransmit (hk : KeptByBlocks errs P) {l : Link} (h : P s) (ht : execLinkTransmit l errs s = .next t) :
    P t := by
  unfold execLinkTransmit at ht
  split at ht
  · cases ht
    exact hk.transmitHalted l (hk.unsent [] h)
  · refine hk.acted (fun s h => ?_) h ht
    have hmet : P (errs.foldl (fun s e => if s.sup.op = .halted then s else s.meetSlot e) s) :=
      foldl (fun s e he h => iteInduction (fun _ => h) fun _ => hk.meetSlot e he h) h
    exact iteInduction (fun _ => hmet) fun _ => hk.finish (hk.transmit l hmet)

theorem directiveWaitExpiry (hk : KeptByBlocks errs P) {l : Link} {tag : Nat} (h : P s)
    (ht : execDirectiveWaitExpiry l tag s errs = .next t) : P t := by
  refine hk.met (fun s h => ?_) h ht
  split
  · exact iteInduction (fun _ => hk.finish (hk.failDirective l _ _ h)) fun _ => h
  · exact h

theorem subscribe (hk : KeptByBlocks errs P) {l : Link} {tag : Nat} {classes : List Nat} (h : P s)
    (ht : execSubscribe l tag classes s errs = .next t) : P t :=
  hk.asked (fun q _ h => iteInduction (fun _ => hk.reply l q _ _ h)
    fun _ => hk.reply l q _ _ (hk.deliverStartup l _ (hk.setSubs l _ h))) h ht

/-! ### The Tally Unit -/

theorem admitReq (hk : KeptByBlocks errs P) {l : Link} {tag p n q : Nat} {part : Bool} (h : P s)
    (ht : execAdmit l tag p n q part s errs = .next t) : P t :=
  hk.asked (fun r _ h => iteInduction (fun _ => hk.reply l r _ _ h) fun _ =>
    iteInduction (fun _ => hk.reply l r _ _ h) fun _ => hk.pushOp _ _ h) h ht

theorem admitReply (hk : KeptByBlocks errs P) {op : Nat} (h : P s) (ht : execAdmitReply op s errs = .next t) :
    P t := by
  refine hk.met (fun s h => ?_) h ht
  split
  · exact h
  · split
    · exact hk.finish (hk.reply _ _ _ _ (hk.dropOp op h))
    · exact h

theorem tallyFillReadEnd (hk : KeptByBlocks errs P) {p : Nat} (h : P s)
    (ht : execTallyFillReadEnd p errs s = .next t) : P t := by
  refine hk.met (fun s h => ?_) h ht
  split
  · rename_i x k hx hp
    obtain ⟨rfl, -⟩ := line_find_id hx
    exact iteInduction (fun _ => hk.finish (hk.endFill _ _ (by simp [hp]) h)) fun _ => h
  · exact h

theorem markerWriteEnd (hk : KeptByBlocks errs P) {op : Nat} (h : P s) (ht : execMarkerWriteEnd op errs s = .next t) :
    P t :=
  hk.acted (fun _ h => hk.withErrs (fun _ he => he) (fun _ h => hk.finish
    (iteInduction (fun _ => hk.proceed op h) fun _ => hk.endMarking op h)) h) h ht

theorem castoutDrain (hk : KeptByBlocks errs P) (h : P s) (ht : execCastoutDrain errs s = .next t) : P t :=
  hk.acted (fun _ h => hk.withErrs (fun _ he => he) (fun _ h => hk.finish
    (iteInduction (fun _ => hk.drain h) fun _ => h)) h) h ht

theorem release (hk : KeptByBlocks errs P) {l : Link} {tag p blocks : Nat} (h : P s)
    (ht : execRelease l tag p blocks s errs = .next t) : P t :=
  hk.asked (fun r _ h => iteInduction (fun _ => hk.reply l r _ _ h) fun _ =>
    iteInduction (fun _ => hk.reply l r _ _ h) fun _ =>
      iteInduction (fun hroom => hk.reply l r _ _ (hk.addPosting _ _ hroom h)) fun _ => hk.pushOp _ _ h) h ht

theorem postingApply (hk : KeptByBlocks errs P) (h : P s) (ht : execPostingApply s errs = .next t) : P t := by
  refine hk.met (fun s h => ?_) h ht
  split
  · exact iteInduction (fun _ => hk.finish (hk.runOp _ h)) fun _ => h
  · exact h

theorem settle (hk : KeptByBlocks errs P) {l : Link} {tag p counted : Nat} (h : P s)
    (ht : execSettle l tag p counted s errs = .next t) : P t :=
  hk.asked (fun r _ h => iteInduction (fun _ => hk.reply l r _ _ h) fun _ =>
    iteInduction (fun _ => hk.reply l r _ _ h) fun _ => hk.pushOp _ _ h) h ht

theorem createCheck_unused {id cls : Nat} {kind : PrincipalKind} {course dept soft hard : Option Nat}
    (hc : s.createCheck id kind cls course dept soft hard = none) : s.prin id = none := by
  unfold State.createCheck at hc
  by_contra hne
  have hsome : (s.prin id).isSome = true := Option.isSome_iff_ne_none.mpr hne
  simp only [hsome, if_true] at hc
  split at hc
  · cases hc
  split at hc <;> cases hc

theorem principalCreate (hk : KeptByBlocks errs P) {l : Link} {tag id cls : Nat} {kind : PrincipalKind}
    {course dept soft hard : Option Nat} (h : P s)
    (ht : execPrincipalCreate l tag id kind cls course dept soft hard s errs = .next t) : P t := by
  refine hk.asked (fun r s h => ?_) h ht
  split
  · exact hk.reply l r _ _ h
  · rename_i hc
    exact hk.reply l r _ _ (foldl (fun _ pool _ h => hk.modMembers pool _ h)
      (hk.storeTally id 0 0 (hk.addPrincipal id _ (createCheck_unused hc) h)))

theorem principalEdit (hk : KeptByBlocks errs P) {l : Link} {tag id : Nat} {changes : EditChanges} (h : P s)
    (ht : execPrincipalEdit l tag id changes s errs = .next t) : P t := by
  refine hk.asked (fun r s h => ?_) h ht
  split
  · exact hk.reply l r _ _ h
  · split
    · exact iteInduction (fun _ => hk.pushOp _ _ (hk.stage l r _ _ h)) fun _ => hk.stage l r _ _ h
    · exact hk.pushOp _ _ h

theorem principalDelete (hk : KeptByBlocks errs P) {l : Link} {tag id : Nat} (h : P s)
    (ht : execPrincipalDelete l tag id s errs = .next t) : P t := by
  refine hk.asked (fun r s h => ?_) h ht
  split
  · exact hk.reply l r _ _ h
  · exact hk.pushOp _ _ h

theorem freeze (hk : KeptByBlocks errs P) {l : Link} {tag p : Nat} {frozen : Bool} (h : P s)
    (ht : execFreeze l tag p frozen s errs = .next t) : P t := by
  refine hk.asked (fun r s h => iteInduction (fun _ => hk.reply l r _ _ h) fun _ => ?_) h ht
  split
  · exact hk.stage l r _ _ h
  · exact hk.reply l r _ _ (hk.setFrozen p frozen h)

/-! ### The Catalogue Unit -/

theorem commitReq (hk : KeptByBlocks errs P) {l : Link} {tag vol ext owner loc occ : Nat}
    {codes : Option (List Code)} (h : P s) (ht : execCommit l tag vol ext owner loc occ codes errs s = .next t) :
    P t := by
  refine hk.asked (fun r s h => ?_) h ht
  split
  · exact hk.reply l r _ _ h
  · rename_i hc
    exact hk.reply l r _ _
      (iteInduction (fun _ => hk.abandonRewritten vol ext _ (hk.commit hc h)) fun _ => hk.commit hc h)

theorem attachCheck_count {vol owner count hk nk base : Nat} {k : Link}
    (hc : s.attachCheck vol owner count hk nk = .ok (k, base)) : count ≤ Config.maxExtents := by
  unfold State.attachCheck at hc
  split at hc
  · cases hc
  split at hc
  · cases hc
  · omega

theorem volumeAttach (hk : KeptByBlocks errs P) {l : Link} {tag vol owner count hourlyKeep nightlyKeep : Nat}
    {recovery hourlyCuts nightlyCut : Bool} (h : P s)
    (ht : execVolumeAttach l tag vol owner count recovery hourlyKeep nightlyKeep hourlyCuts nightlyCut errs s =
      .next t) : P t := by
  refine hk.asked (fun r s h => ?_) h ht
  split
  · exact hk.reply l r _ _ h
  · rename_i hc
    exact hk.addAttach _ (attachCheck_count hc) h

theorem attachComplete (hk : KeptByBlocks errs P) {vol : Nat} (h : P s)
    (ht : execAttachComplete vol errs s = .next t) : P t := by
  refine hk.met (fun s h => ?_) h ht
  split
  · exact h
  · rename_i a ha
    have hvol : a.vol = vol := by simpa using List.find?_some ha
    subst hvol
    exact hk.finish (hk.reply a.link a.req _ _ (hk.endAttach a (List.mem_of_find?_eq_some ha) h))

theorem volumeDetach (hk : KeptByBlocks errs P) {l : Link} {tag vol : Nat} (h : P s)
    (ht : execVolumeDetach l tag vol errs s = .next t) : P t := by
  refine hk.asked (fun r s h => ?_) h ht
  split
  · exact hk.reply l r _ _ h
  · exact hk.reply l r _ _ (hk.detach vol h)

theorem cutReq (hk : KeptByBlocks errs P) {l : Link} {tag vol : Nat} {kind : Option SnapKind} (h : P s)
    (ht : execCut l tag vol kind errs s = .next t) : P t := by
  refine hk.asked (fun r s h => ?_) h ht
  split
  · exact hk.reply l r _ _ h
  · split
    · exact hk.reply l r _ _ h
    · exact hk.reply l r _ _ (hk.cut vol _ _ h)
    · exact hk.reply l r _ _ h

theorem expireLocal (hk : KeptByBlocks errs P) {l : Link} {tag vol gen : Nat} (h : P s)
    (ht : execExpireLocal l tag vol gen s errs = .next t) : P t := by
  refine hk.asked (fun r s h => ?_) h ht
  split
  · exact hk.reply l r _ _ h
  · exact iteInduction (fun _ => hk.reply l r _ _ (hk.startExpiry vol gen h)) fun _ => hk.reply l r _ _ h
  · exact hk.reply l r _ _ h

theorem expireOffsite (hk : KeptByBlocks errs P) {l : Link} {tag vol gen : Nat} (h : P s)
    (ht : execExpireOffsite l tag vol gen s errs = .next t) : P t := by
  refine hk.asked (fun r s h => ?_) h ht
  split
  · exact hk.reply l r _ _ h
  · exact iteInduction (fun _ => hk.reply l r _ _ (hk.pendDrop vol gen (hk.modSnapshot vol gen _ h)))
      fun _ => hk.reply l r _ _ h
  · exact hk.reply l r _ _ h

theorem expirySweepVisit (hk : KeptByBlocks errs P) {vol gen : Nat} (h : P s)
    (ht : execExpirySweepVisit vol gen errs s = .next t) : P t := by
  refine hk.acted (fun s h => iteInduction (fun _ => hk.withErrs (fun _ he => he) (fun s h => ?_) h) fun _ => h) h ht
  split
  · split
    · split
      · rename_i hv
        exact hk.finish (hk.moveExpiry vol gen _ _ (hk.visit hv h))
      · exact hk.waitSweep _ h
    · exact h
  · exact h

theorem dropSweepVisit (hk : KeptByBlocks errs P) {vol gen : Nat} (h : P s)
    (ht : execDropSweepVisit vol gen errs s = .next t) : P t := by
  refine hk.acted (fun s h => iteInduction (fun _ => hk.withErrs (fun _ he => he) (fun s h => ?_) h) fun _ => h) h ht
  split
  · split
    · split
      · rename_i hv
        have hvisited := hk.visit hv h
        exact hk.finish (iteInduction (fun _ => hk.modSnapshot vol gen _ hvisited)
          fun _ => hk.dropSnapshot _ hvisited)
      · exact hk.waitSweep _ h
    · exact h
  · exact h

/-! ### The Restore Engine -/

theorem restoreAcceptance (hk : KeptByBlocks errs P) (h : P s) (ht : execRestoreAcceptance errs s = .next t) :
    P t := by
  refine hk.acted (fun s h => ?_) h ht
  split
  · exact iteInduction (fun _ => hk.withErrs (fun _ he => he) (fun _ h => hk.finish (hk.acceptRestore _ h))
      (hk.take _ _ (hk.setWaiting _ h))) fun _ => h
  · exact h

theorem stepTakeUp (hk : KeptByBlocks errs P) {rec : Nat} (h : P s) (ht : execStepTakeUp rec errs s = .next t) :
    P t := by
  refine hk.met (fun s h => ?_) h ht
  split
  · exact h
  · refine iteInduction (fun _ => ?_) fun _ => h
    split
    · exact hk.finish (hk.takeUp rec _ h)
    · exact h

theorem restoreCancel (hk : KeptByBlocks errs P) {l : Link} {tag rid : Nat} (h : P s)
    (ht : execRestoreCancel l tag rid s errs = .next t) : P t := by
  refine hk.asked (fun r s h => ?_) h ht
  split
  · exact hk.reply l r _ _ h
  · exact iteInduction (fun _ => hk.reply l r _ _ h) fun _ => hk.reply l r _ _ (hk.cancelRestore _ h)

theorem restoreStatus (hk : KeptByBlocks errs P) {l : Link} {tag rid : Nat} (h : P s)
    (ht : execRestoreStatus l tag rid errs s = .next t) : P t := by
  refine hk.asked (fun r s h => ?_) h ht
  split <;> exact hk.reply l r _ _ h

/-! ### Stream Buffer and Offsite Engine -/

theorem pull (hk : KeptByBlocks errs P) {n : Nat} (h : P s) (ht : execPull n errs s = .next t) : P t := by
  refine hk.met (fun s h => ?_) h ht
  split
  · exact h
  · split
    · exact iteInduction (fun _ => hk.finish (hk.issuePull _ _ h)) fun _ => h
    · exact h

theorem extentData (hk : KeptByBlocks errs P) {l : Link} {tag idx : Nat} {data : List Byte} (h : P s)
    (ht : execExtentData l tag idx data s errs = .next t) : P t := by
  refine hk.arrived (fun s h => iteInduction (fun _ => hk.finish (hk.countDiscard l h)) fun _ => ?_) h ht
  split
  · exact hk.finish h
  · exact hk.finish (hk.placeChunk _ idx data h)

theorem volumeDone (hk : KeptByBlocks errs P) (h : P s) (ht : execVolumeDone s errs = .next t) : P t :=
  hk.met (fun _ h => hk.finish (iteInduction (fun _ => hk.sendHead (hk.redirect (hk.finishVolume h)))
    fun _ => hk.redirect (hk.finishVolume h))) h ht

theorem openAck (hk : KeptByBlocks errs P) (h : P s) (ht : execOpenAck s errs = .next t) : P t := by
  refine hk.met (fun s h => ?_) h ht
  split
  · exact hk.finish (hk.chooseDir (hk.setOffLink .up 0 h))
  · exact h

theorem carrierLoss (hk : KeptByBlocks errs P) (h : P s) (ht : execCarrierLoss s errs = .next t) : P t := by
  refine hk.met (fun s h => ?_) h ht
  split
  · exact hk.finish (hk.downInStandby (hk.fault _ h))
  · exact hk.finish (hk.downInStandby (hk.fault _ h))
  · exact h

theorem ackWaitExpiry (hk : KeptByBlocks errs P) (h : P s) (ht : execAckWaitExpiry s errs = .next t) : P t := by
  refine hk.metOthers (fun s h => iteInduction (fun _ => h) fun _ => ?_) h ht
  split
  · exact hk.finish (hk.openExpired _ h)
  · exact iteInduction (fun _ => h) fun _ => hk.finish (hk.listExpired _ h)
  · exact h

theorem reopenIntervalExpiry (hk : KeptByBlocks errs P) (h : P s) (ht : execReopenIntervalExpiry s errs = .next t) :
    P t := by
  refine hk.met (fun s h => ?_) h ht
  split
  · exact iteInduction (fun _ => hk.finish (iteInduction (fun _ => hk.startOpening h)
      fun _ => hk.setOffLink _ s.off.expiries h)) fun _ => h
  · exact h

theorem offsiteIdleTimeout (hk : KeptByBlocks errs P) (h : P s) (ht : execOffsiteIdleTimeout s errs = .next t) :
    P t := by
  refine hk.met (fun s h => ?_) h ht
  split
  · exact iteInduction (fun _ => hk.finish (hk.closeLink h)) fun _ => h
  · exact h

theorem offsiteOpen (hk : KeptByBlocks errs P) {l : Link} {tag : Nat} (h : P s)
    (ht : execOffsiteOpen l tag s errs = .next t) : P t := by
  refine hk.asked (fun r s h => iteInduction (fun _ => hk.reply l r _ _ h) fun _ => ?_) h ht
  split
  · exact hk.reply l r _ _ h
  · exact hk.reply l r _ _ h
  · exact hk.reply l r _ _ (hk.startOpening h)
  · exact hk.reply l r _ _ (hk.startOpening h)

theorem fetchReq (hk : KeptByBlocks errs P) (h : P s) (ht : execFetchReq s errs = .next t) : P t := by
  refine hk.met (fun s h => ?_) h ht
  split
  · exact h
  · exact iteInduction (fun hmay => hk.finish (hk.endBurst (hk.setFetches _ _ _
      (hk.askFetch _ _ hmay.1 (hk.send _ h))))) fun _ => h

theorem fetchData (hk : KeptByBlocks errs P) {num : Nat} {data : List Byte} (h : P s)
    (ht : execFetchData num data s errs = .next t) : P t := by
  refine hk.met (fun s h => ?_) h ht
  split
  · rename_i f e w _ _
    have hanswered := hk.answerFetch f h
    refine iteInduction (fun _ => h) fun _ => hk.finish (iteInduction (fun _ => hanswered) fun _ => ?_)
    split
    · exact hk.fetchChunk e _ data hanswered
    · exact hk.fetchNone e hanswered
  · exact h

theorem fetchEmpty (hk : KeptByBlocks errs P) {num : Nat} (h : P s) (ht : execFetchEmpty num s errs = .next t) :
    P t := by
  refine hk.met (fun s h => ?_) h ht
  split
  · rename_i f e w _ _
    have hanswered := hk.answerFetch f h
    refine hk.finish (iteInduction (fun _ => hanswered) fun _ => ?_)
    split
    · exact hk.fetchNone e hanswered
    · exact hk.tellFetch e _ hanswered
  · exact h

theorem fetchNoneReq (hk : KeptByBlocks errs P) {num reason : Nat} (h : P s)
    (ht : execFetchNone num reason s errs = .next t) : P t := by
  refine hk.met (fun s h => ?_) h ht
  split
  · exact hk.finish (iteInduction (fun _ => hk.answerFetch _ h) fun _ => hk.fetchNone _ (hk.answerFetch _ h))
  · exact h

/-! ### The Patrol Unit -/

theorem versionOverdue (hk : KeptByBlocks errs P) {vol ext birth : Nat} (h : P s)
    (ht : execVersionOverdue vol ext birth s errs = .next t) : P t := by
  refine hk.met (fun s h => ?_) h ht
  split
  · exact hk.finish (hk.decideItem _ h)
  · exact h

theorem verifyingPull (hk : KeptByBlocks errs P) {item : Nat} (h : P s)
    (ht : execVerifyingPull item errs s = .next t) : P t := by
  refine hk.met (fun s h => ?_) h ht
  split
  · exact h
  · refine iteInduction (fun _ => h) fun _ => iteInduction (fun _ => hk.finish (hk.leaveItem _ h)) fun _ => ?_
    split
    · exact hk.finish (hk.issueVerify _ _ h)
    · exact h

theorem fix (hk : KeptByBlocks errs P) {rec idx : Nat} (h : P s) (ht : execFix rec idx errs s = .next t) : P t := by
  refine hk.met (fun s h => ?_) h ht
  split
  · exact h
  · split
    · exact h
    · exact iteInduction (fun _ => h) fun _ => iteInduction (fun _ => hk.finish (hk.fixWhole _ _ _ h))
        fun _ => hk.finish (hk.fixChunk _ _ _ _ h)

/-! ### Reads -/

theorem query (hk : KeptByBlocks errs P) {l : Link} {tag : Nat} {subject : QuerySubject} (h : P s)
    (ht : execQuery l tag subject errs s = .next t) : P t := by
  refine hk.asked (fun r s h => ?_) h ht
  split <;> exact hk.reply l r _ _ h

theorem tableRead (hk : KeptByBlocks errs P) {l : Link} {tag start count : Nat} {table : TableName} (h : P s)
    (ht : execTableRead l tag table start count errs s = .next t) : P t := by
  refine hk.asked (fun r s h => iteInduction (fun _ => hk.reply l r _ _ h) fun _ => ?_) h ht
  split
  · exact hk.readTable l r _ _ _ _ h
  · exact hk.reply l r _ _ h

theorem tableNext (hk : KeptByBlocks errs P) {l : Link} {tag count : Nat} (h : P s)
    (ht : execTableNext l tag count errs s = .next t) : P t := by
  refine hk.asked (fun r s h => ?_) h ht
  split
  · exact hk.reply l r _ _ h
  · refine iteInduction (fun _ => hk.reply l r _ _ h) fun _ =>
      iteInduction (fun _ => hk.reply l r _ _ (hk.endCursor l h)) fun _ => ?_
    split
    · exact hk.readTable l r _ _ _ _ h
    · exact hk.reply l r _ _ (hk.endCursor l h)

theorem holdBegin (hk : KeptByBlocks errs P) {l : Link} {tag : Nat} (h : P s)
    (ht : execHoldBegin l tag s errs = .next t) : P t :=
  hk.asked (fun r _ h => iteInduction (fun _ => hk.reply l r _ _ h)
    fun _ => hk.reply l r _ _ (hk.beginHold l h)) h ht

end KeptByBlocks

/-- Every command that does not write the Supervisor keeps what the operations of the blocks keep. -/
theorem KeptByBlocks.exec {P : State → Prop} {s t : State} (c : Instr) (hk : KeptByBlocks (errsOf c) P)
    (hw : writesSupervisor c = false) (h : P s) (ht : Machine.exec c s = .next t) : P t := by
  cases c with
  | serialLossOfSignal l errs => exact hk.met (fun _ h =>
      iteInduction (fun _ => hk.finish (hk.resetLink l false h)) fun _ => h) h ht
  | frameDiscard => exact hk.frameDiscard h ht
  | unknownRequest => exact hk.unknownRequest h ht
  | linkTransmit => exact hk.linkTransmit h ht
  | linkIdle l errs => exact hk.met (fun _ h =>
      iteInduction (fun _ => hk.finish (hk.setIdle l h)) fun _ => h) h ht
  | directiveWaitExpiry => exact hk.directiveWaitExpiry h ht
  | subscribe => exact hk.subscribe h ht
  | reset l tag errs => exact hk.asked (fun q _ h => hk.resetLink l true (hk.leaveQueue l q h)) h ht
  | admitReq => exact hk.admitReq h ht
  | admissionCalculation op errs => exact hk.met (fun _ h =>
      iteInduction (fun _ => hk.finish (hk.calculate op h)) fun _ => h) h ht
  | admitReply => exact hk.admitReply h ht
  | tallyFillReadEnd => exact hk.tallyFillReadEnd h ht
  | markerWriteEnd => exact hk.markerWriteEnd h ht
  | inPlaceWriteEnd p errs => exact hk.met (fun _ h => hk.finish (hk.endInPlace p h)) h ht
  | castoutDrain => exact hk.castoutDrain h ht
  | release => exact hk.release h ht
  | postingApply => exact hk.postingApply h ht
  | settle => exact hk.settle h ht
  | poolRecountEnd pool errs => exact hk.met (fun _ h =>
      iteInduction (fun _ => hk.finish (hk.endRecount pool h)) fun _ => h) h ht
  | principalCreate => exact hk.principalCreate h ht
  | principalEdit => exact hk.principalEdit h ht
  | principalDelete => exact hk.principalDelete h ht
  | freeze => exact hk.freeze h ht
  | conversion op errs => exact hk.met (fun _ h =>
      iteInduction (fun _ => hk.finish (hk.runOp op h)) fun _ => h) h ht
  | reservationRelease op errs => exact hk.met (fun _ h =>
      iteInduction (fun _ => hk.finish (hk.runOp op h)) fun _ => h) h ht
  | graceExpiry errs => exact hk.met (fun _ h =>
      iteInduction (fun _ => h) fun _ => hk.finish (hk.expireHead h)) h ht
  | commit => exact hk.commitReq h ht
  | volumeAttach => exact hk.volumeAttach h ht
  | attachComplete => exact hk.attachComplete h ht
  | volumeDetach => exact hk.volumeDetach h ht
  | cut => exact hk.cutReq h ht
  | cutWaitExpiry vol errs => exact hk.met (fun _ h =>
      iteInduction (fun _ => hk.finish (hk.missDue vol h)) fun _ => h) h ht
  | expireLocal => exact hk.expireLocal h ht
  | expireOffsite => exact hk.expireOffsite h ht
  | expirySweepVisit => exact hk.expirySweepVisit h ht
  | dropSweepVisit => exact hk.dropSweepVisit h ht
  | restore l tag body errs =>
    exact hk.acted (fun s h => hk.finish (hk.request l tag _ _ _ (fun _ s h => hk.setWaiting _ h) h)) h ht
  | restoreAcceptance => exact hk.restoreAcceptance h ht
  | restoreStart errs => exact hk.met (fun _ h => hk.finish (hk.startRestore h)) h ht
  | stepTakeUp => exact hk.stepTakeUp h ht
  | put rec i errs => exact hk.met (fun _ h =>
      iteInduction (fun _ => hk.finish (hk.issuePut rec i h)) fun _ => h) h ht
  | copyDone l tag loc errs => exact hk.arrived (fun _ h => hk.finish (hk.doneAnswer l tag loc _ h)) h ht
  | copyFail l tag errs => exact hk.arrived (fun _ h => hk.finish (hk.failAnswer l tag _ h)) h ht
  | putDone l tag loc errs => exact hk.arrived (fun _ h => hk.finish (hk.doneAnswer l tag loc _ h)) h ht
  | putFail l tag errs => exact hk.arrived (fun _ h => hk.finish (hk.failAnswer l tag _ h)) h ht
  | restoreCancel => exact hk.restoreCancel h ht
  | restoreStatus => exact hk.restoreStatus h ht
  | slotGrant errs => exact hk.met (fun _ h => hk.finish (hk.consider h)) h ht
  | shipFrameTransmitted seq errs => exact hk.met (fun _ h => hk.finish (hk.transmitted seq h)) h ht
  | pullRun errs => exact hk.met (fun _ h => iteInduction (fun _ => hk.finish (hk.startRun h)) fun _ => h) h ht
  | pull => exact hk.pull h ht
  | extentData => exact hk.extentData h ht
  | ship errs => exact hk.metOthers (fun _ h => hk.finish (hk.shipNext _ h)) h ht
  | volumeDone => exact hk.volumeDone h ht
  | countWalkVisit vol errs => exact hk.met (fun _ h =>
      iteInduction (fun _ => hk.finish (hk.countVisit vol h)) fun _ => h) h ht
  | shipWalkVisit errs => exact hk.met (fun _ h =>
      iteInduction (fun _ => hk.finish (hk.shipVisit h)) fun _ => h) h ht
  | forecastIntervalEnd errs => exact hk.met (fun _ h => hk.finish (hk.endInterval h)) h ht
  | openAck => exact hk.openAck h ht
  | offsiteFrameDiscard => exact hk.acted (fun _ h => h) h ht
  | carrierLoss => exact hk.carrierLoss h ht
  | ackWaitExpiry => exact hk.ackWaitExpiry h ht
  | reopenIntervalExpiry => exact hk.reopenIntervalExpiry h ht
  | offsiteIdleTimeout => exact hk.offsiteIdleTimeout h ht
  | offsiteOpen => exact hk.offsiteOpen h ht
  | ack num errs => exact hk.met (fun _ h => iteInduction (fun _ => hk.finish (hk.ack num h)) fun _ => h) h ht
  | doneAck vol target errs => exact hk.met (fun _ h =>
      iteInduction (fun _ => hk.finish (hk.completeVolume vol target (hk.answerControl _ h))) fun _ => h) h ht
  | dropAck vol gen errs => exact hk.met (fun _ h =>
      iteInduction (fun _ => hk.finish (hk.dropAcked vol gen (hk.answerControl _ h))) fun _ => h) h ht
  | nak num reason errs => exact hk.metOthers (fun _ h =>
      iteInduction (fun _ => hk.finish (hk.nak num reason _ h)) fun _ => h) h ht
  | drop errs => exact hk.met (fun _ h =>
      hk.finish (iteInduction (fun _ => hk.sendHead h) fun _ => h)) h ht
  | fetchQueueServe errs => exact hk.met (fun _ h =>
      iteInduction (fun _ => hk.finish (hk.serveHead h)) fun _ => h) h ht
  | fetchReq => exact hk.fetchReq h ht
  | fetchData => exact hk.fetchData h ht
  | fetchEmpty => exact hk.fetchEmpty h ht
  | fetchNone num reason errs => exact hk.fetchNoneReq (reason := reason) h ht
  | patrolWalkVisit errs => exact hk.met (fun _ h =>
      iteInduction (fun _ => hk.finish (hk.patrolVisit h)) fun _ => h) h ht
  | versionOverdue => exact hk.versionOverdue h ht
  | verifyingPull => exact hk.verifyingPull h ht
  | fix => exact hk.fix h ht
  | fixDone l tag errs => exact hk.arrived (fun _ h => hk.finish (hk.fixDone l tag h)) h ht
  | fixFail l tag errs => exact hk.arrived (fun _ h => hk.finish (hk.failAnswer l tag _ h)) h ht
  | query => exact hk.query h ht
  | tableRead => exact hk.tableRead h ht
  | tableNext => exact hk.tableNext h ht
  | statusQuery l tag errs => exact hk.asked (fun q _ h => hk.reply l q _ _ h) h ht
  | statusClear l tag errs => exact hk.asked (fun q _ h => hk.reply l q _ _ (hk.clearCounts h)) h ht
  | holdBegin => exact hk.holdBegin h ht
  | holdAbandon l tag errs => exact hk.asked (fun q _ h => hk.reply l q _ _ (hk.endHold l h)) h ht
  | powerOn | layoutInitialised | tallyLoadingWalkEnd | loadingEnd | powerWarnAssert | cleanShutdownWrite
  | powerWarnDeassert | settingWrite | scopeSet | holdRelease | timeSet | standbyEnter | standbyExit | quietReported
  | clear | hourlyCutDueOpen | windowOpening | windowOpen | windowClose | windowClosing | closeAbandon | nightEnd
  | pullEnd | pullFail => cases hw

namespace KeptByAll

variable {errs : List StoreError} {P : State → Prop} {s t : State}

theorem powerOn (hk : KeptByAll errs P) (h : P s) (ht : execPowerOn errs s = .next t) : P t := by
  have hcold := hk.cold h
  have hmet (s : State) (h : P s) : P (Machine.withErrs errs (fun s => s) s) :=
    hk.withErrs (fun _ he => he) (fun _ h => h) h
  cases ht
  refine iteInduction (fun _ => hk.halt _ hcold) fun _ => ?_
  split
  · exact hk.halt _ hcold
  · exact hmet _ hcold
  · exact hmet _ (hk.load hcold)

theorem cleanShutdownWrite (hk : KeptByAll errs P) (h : P s) (ht : execCleanShutdownWrite s errs = .next t) : P t :=
  hk.met (fun _ h => iteInduction (fun hc => iteInduction
    (fun _ => hk.setFlag true (hk.clearMarkers hc.2.2 h))
    fun _ => hk.finish (hk.leaveHoldup (hk.setFlag true (hk.clearMarkers hc.2.2 h)))) fun _ => h) h ht

theorem hourlyCutDueOpen (hk : KeptByAll errs P) (h : P s) (ht : execHourlyCutDueOpen s errs = .next t) : P t :=
  hk.met (fun _ h => iteInduction (fun _ => hk.finish
    (KeptByBlocks.foldl (fun _ vol _ h => hk.openDue false vol h) (hk.takeHour h))) fun _ => h) h ht

theorem timeSet (hk : KeptByAll errs P) {l : Link} {tag value : Nat} (h : P s)
    (ht : execTimeSet l tag value s errs = .next t) : P t :=
  hk.acted (fun _ h => iteInduction
    (fun _ => hk.withErrs (fun _ he => he) (fun _ h => hk.finish (hk.replyAtOnce l tag _ _ h))
      (hk.busy l (hk.arrive l h)))
    fun hv => hk.finish (hk.request l tag _ _ _
      (fun q _ h => hk.reply l q _ _ (hk.setClock value (Nat.not_lt.mp hv) h)) h)) h ht

theorem windowOpen (hk : KeptByAll errs P) {l : Link} {tag : Nat} (h : P s)
    (ht : execWindowOpen l tag s errs = .next t) : P t :=
  hk.asked (fun q _ h => iteInduction (fun _ => hk.reply l q _ _ h) fun _ =>
    iteInduction (fun _ => hk.reply l q _ _ h) fun _ =>
      iteInduction (fun _ => hk.reply l q _ _ h) fun _ => hk.reply l q _ _ (hk.openWindow h)) h ht

theorem windowClose (hk : KeptByAll errs P) {l : Link} {tag : Nat} (h : P s)
    (ht : execWindowClose l tag s errs = .next t) : P t :=
  hk.asked (fun q _ h => iteInduction (fun _ => hk.reply l q _ _ h) fun _ =>
    iteInduction (fun _ => hk.reply l q _ _ (hk.closeWindow h)) fun _ => hk.reply l q _ _ h) h ht

theorem holdRelease (hk : KeptByAll errs P) {l : Link} {tag : Nat} (h : P s)
    (ht : execHoldRelease l tag s errs = .next t) : P t := by
  refine hk.asked (fun q s h => ?_) h ht
  split
  · exact hk.reply l q _ _ h
  · exact iteInduction (fun _ => hk.reply l q _ _ h) fun _ => hk.releaseHold l q _ h

theorem standbyEnter (hk : KeptByAll errs P) {l : Link} {tag : Nat} (h : P s)
    (ht : execStandbyEnter l tag s errs = .next t) : P t :=
  hk.asked (fun q _ h => iteInduction (fun _ => hk.reply l q _ _ h) fun _ =>
    iteInduction (fun _ => hk.enterStandby _ h) fun _ => hk.reply l q _ _ h) h ht

theorem standbyExit (hk : KeptByAll errs P) {l : Link} {tag : Nat} (h : P s)
    (ht : execStandbyExit l tag s errs = .next t) : P t :=
  hk.asked (fun q _ h => iteInduction (fun _ => hk.reply l q _ _ h) fun _ =>
    iteInduction (fun _ => hk.reply l q _ _ h) fun _ => hk.reply l q _ _ (hk.exitStandby h)) h ht

theorem quietReported (hk : KeptByAll errs P) (h : P s) (ht : execQuietReported s = .next t) : P t := by
  refine hk.acted (fun s h => ?_) h ht
  split
  · exact iteInduction (fun _ => hk.finish (hk.reply _ _ _ _ (hk.endQuiet h))) fun _ => h
  · exact h

theorem clear (hk : KeptByAll errs P) {l : Link} {tag : Nat} (h : P s) (ht : execClear l tag s errs = .next t) :
    P t :=
  hk.asked (fun q _ h => iteInduction (fun _ => hk.reply l q _ _ h) fun _ => hk.clearPart _ h) h ht

end KeptByAll

/-- Every command keeps what the operations of the blocks and of the Supervisor keep. -/
theorem KeptByAll.exec {P : State → Prop} {s t : State} (c : Instr) (hk : KeptByAll (errsOf c) P) (h : P s)
    (ht : Machine.exec c s = .next t) : P t := by
  cases hw : writesSupervisor c with
  | false => exact hk.toKeptByBlocks.exec c hw h ht
  | true =>
    cases c with
    | powerOn => exact hk.powerOn h ht
    | layoutInitialised errs => exact hk.acted (fun _ h =>
        iteInduction (fun _ => hk.withErrs (fun _ he => he) (fun _ h => h) (hk.initialise h)) fun _ => h) h ht
    | tallyLoadingWalkEnd errs => exact hk.acted (fun _ h =>
        iteInduction (fun _ => hk.withErrs (fun _ he => he) (fun _ h => hk.finish (hk.endWalk _ h)) h) fun _ => h) h ht
    | loadingEnd errs => exact hk.met (fun _ h =>
        iteInduction (fun _ => hk.finish (hk.endLoading h)) fun _ => h) h ht
    | powerWarnAssert errs => exact hk.met (fun _ h =>
        iteInduction (fun _ => hk.finish (hk.enterHoldup h)) fun _ => h) (hk.setLine true h) ht
    | cleanShutdownWrite => exact hk.cleanShutdownWrite h ht
    | powerWarnDeassert errs => exact hk.met (fun _ h =>
        iteInduction (fun _ => hk.finish (hk.leaveHoldup h)) fun _ => h) (hk.setLine false h) ht
    | settingWrite l tag x errs => exact hk.asked (fun q _ h => hk.takeSetting l q x h) h ht
    | scopeSet l tag n on p vs errs => exact hk.asked (fun q _ h => hk.takeSetting l q _ h) h ht
    | holdRelease => exact hk.holdRelease h ht
    | timeSet => exact hk.timeSet h ht
    | standbyEnter => exact hk.standbyEnter h ht
    | standbyExit => exact hk.standbyExit h ht
    | quietReported => exact hk.quietReported h ht
    | clear => exact hk.clear h ht
    | hourlyCutDueOpen => exact hk.hourlyCutDueOpen h ht
    | windowOpening errs => exact hk.met (fun _ h =>
        iteInduction (fun _ => hk.finish (hk.openWindow h)) fun _ => h) h ht
    | windowOpen => exact hk.windowOpen h ht
    | windowClose => exact hk.windowClose h ht
    | windowClosing errs => exact hk.met (fun _ h =>
        iteInduction (fun _ => hk.finish (hk.closeWindow h)) fun _ => h) h ht
    | closeAbandon errs => exact hk.met (fun _ h =>
        iteInduction (fun _ => hk.finish (hk.tryEndNight (hk.abandonFrames h))) fun _ => h) h ht
    | nightEnd errs => exact hk.met (fun _ h => hk.finish (hk.tryEndNight h)) h ht
    | pullEnd l tag errs => exact hk.arrived (fun _ h => hk.finish (hk.tryEndNight (hk.pullAnswer l tag _ h))) h ht
    | pullFail l tag errs => exact hk.arrived (fun _ h => hk.finish (hk.tryEndNight (hk.pullAnswer l tag _ h))) h ht
    | _ => cases hw

end Sys2Proof.Machine
end

section
/-! PROOF. The bounds, the invariants and the Supervisor's registers are kept by every operation, so by every step;
right after reset bounds and invariants hold. -/

namespace Sys2Proof.Machine

/-! ### The bounds (R172, R177, R178, R187, R188) -/

/-- A part of the state that no bound speaks of may change. -/
theorem bounded_of_parts {s t : State} (hsup : t.sup = s.sup) (hlinks : t.links = s.links) (h : s.bounded) :
    t.bounded := by
  rw [State.bounded, hsup, hlinks]
  exact h

theorem bounded_visit {s t : State} {vol gen ext : Nat} {fate : Version → Fate}
    (hv : s.visit vol gen ext fate = some t) (h : s.bounded) : t.bounded := by
  unfold State.visit at hv
  split at hv
  · cases hv
    exact bounded_of_parts rfl rfl h
  · dsimp only at hv
    split at hv <;> cases hv
    exact bounded_flushReclaims (bounded_of_parts rfl rfl h)

theorem bounded_keptByBlocks (errs : List StoreError) : KeptByBlocks errs State.bounded where
  unsent _ h := h
  send _ h := h
  meet e _ h := bounded_meet e h
  meetSlot e _ h := bounded_meetSlot e h
  enqueue := bounded_enqueue_request
  setIdle l h := bounded_modLink l _ (fun _ hr => hr) h
  setSubs l _ h := bounded_modLink l _ (fun _ hr => hr) h
  endCursor l h := bounded_modLink l _ (fun _ hr => hr) h
  beginHold l h := bounded_modLink l _ (fun _ hr => ⟨hr.1, hr.2.1, hr.2.2.1, by simp⟩) h
  endHold l h := bounded_modLink l _ (fun _ hr => ⟨hr.1, hr.2.1, hr.2.2.1, by simp⟩) h
  leaveQueue l _ h := bounded_modLink l _ (fun _ hr => lb_filter _ hr) h
  endFill _ _ _ h := h
  addPosting _ _ _ h := h
  addPrincipal _ _ _ h := h
  storeTally id u r h := bounded_storeTally id u r h
  commit _ h := bounded_commit _ _ _ _ _ _ h
  addAttach _ _ h := h
  endAttach _ _ h := h
  visit := bounded_visit
  dropSnapshot _ h := h
  setWaiting _ h := h
  cancelRestore := bounded_cancelRestore
  setOffLink _ _ h := h
  askFetch _ _ _ h := bounded_joinList _ h
  setFetches _ _ _ h := h
  reply := bounded_reply
  replyAtOnce := bounded_replyAtOnce
  arrive := bounded_arrive
  busy := bounded_busy
  finish := bounded_finish
  pushOp := bounded_pushOp
  calculate := bounded_calculate
  dropOp := bounded_dropOp
  proceed := bounded_proceed
  endMarking := bounded_endMarking
  endInPlace := bounded_endInPlace
  drain := bounded_drain
  runOp := bounded_runOp
  endRecount := bounded_endRecount
  modMembers := bounded_modMembers
  stage := bounded_stage
  setFrozen := bounded_setFrozen
  expireHead := bounded_expireHead
  abandonRewritten := bounded_abandonRewritten
  detach := bounded_detach
  cut := bounded_cut
  missDue := bounded_missDue
  startExpiry := bounded_startExpiry
  pendDrop := bounded_pendDrop
  modSnapshot := bounded_modSnapshot
  moveExpiry := bounded_moveExpiry
  waitSweep := bounded_waitSweep
  acceptRestore := bounded_acceptRestore
  take := bounded_take
  startRestore := bounded_startRestore
  takeUp := bounded_takeUp
  issuePut := bounded_issuePut
  doneAnswer := bounded_doneAnswer
  failAnswer := bounded_failAnswer
  consider := bounded_consider
  transmitted := bounded_transmitted
  startRun := bounded_startRun
  issuePull := bounded_issuePull
  countDiscard := bounded_countDiscard
  placeChunk := bounded_placeChunk
  shipNext := bounded_shipNext
  finishVolume := bounded_finishVolume
  redirect := bounded_redirect
  sendHead := bounded_sendHead
  countVisit := bounded_countVisit
  shipVisit := bounded_shipVisit
  endInterval := bounded_endInterval
  chooseDir := bounded_chooseDir
  fault := bounded_fault
  downInStandby := bounded_downInStandby
  openExpired := bounded_openExpired
  listExpired := bounded_listExpired
  startOpening := bounded_startOpening
  closeLink := bounded_closeLink
  ack := bounded_ack
  answerControl := bounded_answerControl
  completeVolume := bounded_completeVolume
  dropAcked := bounded_dropAcked
  nak := bounded_nak
  serveHead := bounded_serveHead
  endBurst := bounded_endBurst
  answerFetch := bounded_answerFetch
  fetchChunk := bounded_fetchChunk
  fetchNone := bounded_fetchNone
  tellFetch := bounded_tellFetch
  patrolVisit := bounded_patrolVisit
  decideItem := bounded_decideItem
  leaveItem := bounded_leaveItem
  issueVerify := bounded_issueVerify
  fixWhole := bounded_fixWhole
  fixChunk := bounded_fixChunk
  fixDone := bounded_fixDone
  readTable := bounded_readTable
  clearCounts := bounded_clearCounts
  failDirective := bounded_failDirective
  deliverStartup := bounded_deliverStartup
  resetLink := bounded_resetLink
  badFrame := bounded_badFrame
  transmit := bounded_transmit
  transmitHalted := bounded_transmitHalted

theorem bounded_keptByAll (errs : List StoreError) : KeptByAll errs State.bounded where
  toKeptByBlocks := bounded_keptByBlocks errs
  cold _ := bounded_cold _
  load := bounded_load
  setClock _ hv h := bounded_setClock _ hv h
  clearMarkers _ h := bounded_clearMarkers h
  setFlag _ h := h
  setLine _ h := h
  takeHour h := h
  endQuiet h := h
  openDue := bounded_openDue
  halt := bounded_halt
  initialise := bounded_initialise
  endWalk := bounded_endWalk
  enterHoldup := bounded_enterHoldup
  leaveHoldup := bounded_leaveHoldup
  endLoading := bounded_endLoading
  enterStandby := bounded_enterStandby
  exitStandby := bounded_exitStandby
  clearPart := bounded_clearPart
  takeSetting := bounded_takeSetting
  releaseHold := bounded_releaseHold
  openWindow := bounded_openWindow
  closeWindow := bounded_closeWindow
  tryEndNight := bounded_tryEndNight
  pullAnswer := bounded_pullAnswer
  abandonFrames := bounded_abandonFrames

/-! ### The invariants of the blocks (R10 to R12, R37, R45, R50, R59, R107, R126, R143, R175) -/

theorem sweepList_length (s : State) (vol ext : Nat) (fate : Version → Fate) (e : Extent) :
    (s.sweepList vol ext fate e).1.length ≤ e.versions.length := by
  simp only [State.sweepList, List.length_map]
  exact List.length_filter_le ..

theorem sweepList_lives (s : State) (vol ext : Nat) (fate : Version → Fate) (e : Extent) :
    ({ e with versions := (s.sweepList vol ext fate e).1 } : Extent).lives ≤ e.lives := by
  simp only [State.sweepList, Extent.lives]
  rw [lives_map _ fun v => by split <;> rfl]
  exact lives_filter _ _

theorem sweepRoom_le {s : State} {key n : Nat} (hr : s.sweepRoom key n = true)
    (h : s.cat.reclaims.length ≤ Config.reclaimTableSize) : s.cat.reclaims.length + n ≤ Config.reclaimTableSize := by
  simp only [State.sweepRoom, Bool.or_eq_true, Bool.and_eq_true, decide_eq_true_eq] at hr
  omega

/-- A sweep's visit makes no live version, lengthens no list, and fills the Reclaim Table no further than its size
(R59, R78). -/
theorem sound_visit {s t : State} {vol gen ext : Nat} {fate : Version → Fate}
    (hv : s.visit vol gen ext fate = some t) (h : s.sound) : t.sound := by
  unfold State.visit at hv
  split at hv
  · cases hv
    exact sound_leaveSweep _ h
  · dsimp only at hv
    split at hv <;> cases hv
    rename_i hroom
    refine sound_flushReclaims (sound_reclaims _ (fun hr => ?_) (sound_leaveSweep _
      (sound_setExtent_le vol ext _ (sweepList_length s vol ext fate _) (sweepList_lives s vol ext fate _) h)))
    rw [List.length_append]
    exact sweepRoom_le (s := s) hroom hr

theorem sound_addAttach {s : State} (a : Attach) (ha : a.count ≤ Config.maxExtents) (h : s.sound) :
    ({ s with cat.attaching := s.cat.attaching ++ [a] } : State).sound :=
  sound_chCat (s := s) (fun hy => ⟨hy.1, hy.2.1, by simpa [or_imp, forall_and] using ⟨hy.2.2.1, ha⟩, hy.2.2.2⟩) h

theorem tget_dropExtents (s : State) (vol key : Nat) : tget (s.dropExtents vol).cat.extents key =
    if key / Config.maxExtents = vol then none else tget s.cat.extents key := by
  split
  · rename_i hkey
    exact tget_filter_drop _ _ _ fun _ => by simp [hkey]
  · rename_i hkey
    exact tget_filter_keep _ _ _ fun _ => by simp [hkey]

theorem extentKey_div {vol ext : Nat} (h : ext < Config.maxExtents) : extentKey vol ext / Config.maxExtents = vol := by
  simp only [extentKey, Config.maxExtents] at *
  omega

/-- The volume attached anew has no extent record left, so none can hold two live versions (R47, R50). -/
theorem sound_endAttach {s : State} (a : Attach) (ha : a ∈ s.cat.attaching) (h : s.sound) :
    ({ s.dropExtents a.vol with
        cat.volumes := tput s.cat.volumes a.vol a.volume
        cat.attaching := s.cat.attaching.filter fun x => x.vol != a.vol
        cat.dues := tdel s.cat.dues a.vol } : State).sound := by
  have hcount := h.2.2.2.1.2.2.1 a ha
  have hdropped := sound_dropExtents a.vol h
  refine sound_chCat (s := s.dropExtents a.vol) (fun hy => ?_) hdropped
  obtain ⟨⟨hvols, hexts, hsnaps, hdues⟩, hcounts, hattach, hrecl, hlen, hlives⟩ := hy
  refine ⟨⟨wf_tput _ _ hvols, hexts, hsnaps, wf_tdel _ hdues⟩, fun kv hkv => ?_,
    fun b hb => hattach b (List.mem_of_mem_filter hb), hrecl, hlen, fun vol ext hext hd => ?_⟩
  · rcases mem_tput hkv with rfl | hmem
    · exact hcount
    · exact hcounts kv hmem
  · by_cases hvol : vol = a.vol
    · subst hvol
      rw [tget_dropExtents, if_pos (extentKey_div hext)]
      exact Nat.zero_le 1
    · refine hlives vol ext hext fun ⟨h32, v, hv, hdam⟩ => hd ⟨h32, v, ?_, hdam⟩
      rw [tget_tput_ne _ _ (Ne.symm hvol)]
      exact hv

theorem sound_dropSnapshot {s : State} (key : Nat) (h : s.sound) :
    ({ s with cat.snapshots := tdel s.cat.snapshots key } : State).sound :=
  sound_chCat (s := s) (fun ⟨⟨hvols, hexts, hsnaps, hdues⟩, hrest⟩ =>
    ⟨⟨hvols, hexts, wf_tdel _ hsnaps, hdues⟩, hrest⟩) h

theorem sound_endFill {s : State} {x : Line} (u r : Nat)
    (hp : (s.prin x.id).isSome = true) (h : s.sound) :
    (s.putLine { x with used := u, reserved := r, dUsed := 0, dReserved := 0, dirty := false, filling := false }).sound :=
  sound_putLine' _ ⟨Nat.zero_le _, fun _ => ⟨rfl, rfl⟩, fun _ => rfl, fun _ => hp, fun hd => nomatch hd⟩ h

theorem sound_addPosting {s : State} (x : Posting) (n : Nat) (hroom : s.tally.postings.length < Config.postingQueueSize)
    (h : s.sound) :
    ({ s with tally.postings := s.tally.postings ++ [x], tally.nextPosting := n } : State).sound :=
  sound_chTally (s := s) (fun ⟨hwf, _, hrest⟩ => ⟨hwf, by simp; omega, hrest⟩) h

/-- FETCH_REQs go where no SHIP-direction frame is out and the list has room (R143). -/
theorem sound_askFetch {s : State} (e : FetchEntry) (n : Nat) (hmay : s.fetchMay = true) (h : s.sound) :
    (s.joinList { num := n, body := .fetch e false, received := false, naks := 0, vacant := false }).sound := by
  simp only [State.fetchMay, State.shipsOut, Bool.and_eq_true, Bool.not_eq_true', List.any_eq_false,
    decide_eq_true_eq] at hmay
  obtain ⟨⟨⟨-, -⟩, hships⟩, hroom⟩ := hmay
  exact sound_joinList _ hroom (fun g hg => by simpa [FrameBody.isShip] using hships g hg) h

theorem sound_keptByBlocks (errs : List StoreError) : KeptByBlocks errs State.sound where
  unsent _ h := h
  send _ h := h
  meet e _ h := sound_meet e h
  meetSlot e _ h := sound_meetSlot e h
  enqueue l _ _ _ _ h := sound_modLink l _ (fun _ hr => hr) (sound_modSup _ (fun hu => hu) h)
  setIdle l h := sound_modLink l _ (fun _ hr => hr) h
  setSubs l _ h := sound_modLink l _ (fun _ hr => hr) h
  endCursor l h := sound_modLink l _ (fun _ hr => hr) h
  beginHold l h := sound_modLink l _ (fun _ hr => hr) h
  endHold l h := sound_modLink l _ (fun _ hr => hr) h
  leaveQueue l _ h := sound_modLink l _ (fun _ hr => hr) h
  endFill := sound_endFill
  addPosting := sound_addPosting
  addPrincipal id p hp h := sound_setPrin' id p hp h
  storeTally := sound_storeTally
  commit hc h := sound_commit hc h
  addAttach := sound_addAttach
  endAttach := sound_endAttach
  visit := sound_visit
  dropSnapshot := sound_dropSnapshot
  setWaiting _ h := sound_modRst _ (fun hr => hr) h
  cancelRestore := sound_cancelRestore
  setOffLink _ _ h := sound_modOff _ (fun ho => ho) h
  askFetch := sound_askFetch
  setFetches _ _ _ h := sound_modOff _ (fun ho => ho) h
  reply := sound_reply
  replyAtOnce := sound_replyAtOnce
  arrive := sound_arrive
  busy := sound_busy
  finish := sound_finish
  pushOp := sound_pushOp
  calculate := sound_calculate
  dropOp := sound_dropOp
  proceed := sound_proceed
  endMarking := sound_endMarking
  endInPlace := sound_endInPlace
  drain := sound_drain
  runOp := sound_runOp
  endRecount := sound_endRecount
  modMembers := sound_modMembers
  stage := sound_stage
  setFrozen := sound_setFrozen
  expireHead := sound_expireHead
  abandonRewritten := sound_abandonRewritten
  detach := sound_detach
  cut := sound_cut
  missDue := sound_missDue
  startExpiry := sound_startExpiry
  pendDrop := sound_pendDrop
  modSnapshot := sound_modSnapshot
  moveExpiry := sound_moveExpiry
  waitSweep := sound_waitSweep
  acceptRestore := sound_acceptRestore
  take := sound_take
  startRestore := sound_startRestore
  takeUp := sound_takeUp
  issuePut := sound_issuePut
  doneAnswer := sound_doneAnswer
  failAnswer := sound_failAnswer
  consider := sound_consider
  transmitted := sound_transmitted
  startRun := sound_startRun
  issuePull := sound_issuePull
  countDiscard := sound_countDiscard
  placeChunk := sound_placeChunk
  shipNext := sound_shipNext
  finishVolume := sound_finishVolume
  redirect := sound_redirect
  sendHead := sound_sendHead
  countVisit := sound_countVisit
  shipVisit := sound_shipVisit
  endInterval := sound_endInterval
  chooseDir := sound_chooseDir
  fault := sound_fault
  downInStandby := sound_downInStandby
  openExpired := sound_openExpired
  listExpired := sound_listExpired
  startOpening := sound_startOpening
  closeLink := sound_closeLink
  ack := sound_ack
  answerControl := sound_answerControl
  completeVolume := sound_completeVolume
  dropAcked := sound_dropAcked
  nak := sound_nak
  serveHead := sound_serveHead
  endBurst := sound_endBurst
  answerFetch := sound_answerFetch
  fetchChunk := sound_fetchChunk
  fetchNone := sound_fetchNone
  tellFetch := sound_tellFetch
  patrolVisit := sound_patrolVisit
  decideItem := sound_decideItem
  leaveItem := sound_leaveItem
  issueVerify := sound_issueVerify
  fixWhole := sound_fixWhole
  fixChunk := sound_fixChunk
  fixDone := sound_fixDone
  readTable := sound_readTable
  clearCounts := sound_clearCounts
  failDirective := sound_failDirective
  deliverStartup := sound_deliverStartup
  resetLink := sound_resetLink
  badFrame := sound_badFrame
  transmit := sound_transmit
  transmitHalted := sound_transmitHalted

theorem sound_keptByAll (errs : List StoreError) : KeptByAll errs State.sound where
  toKeptByBlocks := sound_keptByBlocks errs
  cold := sound_cold
  load := sound_load
  setClock value _ h := sound_setClock value h
  clearMarkers he h := sound_clearMarkers he h
  setFlag _ h := sound_modSup _ (fun hu => hu) h
  setLine _ h := h
  takeHour h := sound_modSup _ (fun hu => hu) h
  endQuiet h := sound_modSup _ (fun hu => hu) h
  openDue := sound_openDue
  halt := sound_halt
  initialise := sound_initialise
  endWalk := sound_endWalk
  enterHoldup := sound_enterHoldup
  leaveHoldup := sound_leaveHoldup
  endLoading := sound_endLoading
  enterStandby := sound_enterStandby
  exitStandby := sound_exitStandby
  clearPart := sound_clearPart
  takeSetting := sound_takeSetting
  releaseHold := sound_releaseHold
  openWindow := sound_openWindow
  closeWindow := sound_closeWindow
  tryEndNight := sound_tryEndNight
  pullAnswer := sound_pullAnswer
  abandonFrames := sound_abandonFrames

/-! ### Right after reset -/

theorem link_reset (l : Link) : State.reset.link l = LinkRec.initial := by simp [State.link, State.reset]

theorem bounded_reset : State.reset.bounded := by
  refine ⟨⟨by decide, by decide, rfl, by decide⟩, fun l => ?_⟩
  change (State.reset.link l).bounded 0
  rw [link_reset]
  exact ⟨by decide, by decide, by decide, fun h hh => nomatch hh⟩

theorem sound_reset : State.reset.sound := by
  refine ⟨⟨rfl, rfl, rfl⟩, fun l => ?_, ⟨rfl, by decide, by decide, by decide,
      (fun _ hx => nomatch hx), fun _ hc => nomatch hc⟩,
    ⟨⟨rfl, rfl, rfl, rfl⟩, by decide, by decide, by decide, fun _ => Nat.zero_le _, fun _ _ _ _ => Nat.zero_le _⟩,
    rfl, ⟨rfl, by decide, by decide, by decide⟩, ⟨by decide, .inl (by decide), by decide⟩, rfl⟩
  change (State.reset.link l).sound
  rw [link_reset]
  exact Nat.zero_le _

/-! ### The Supervisor's registers (R119, R183, R187, R188, R190) -/

/-- The Supervisor's registers are as they were, but that the part is HALTED where a double error was met. -/
def KeptOrHalted (errs : List StoreError) (u : Supervisor) (s : State) : Prop :=
  supKept u s.sup ∨ (errs ≠ [] ∧ supKept { u with op := .halted } s.sup)

section
variable {errs : List StoreError} {u : Supervisor} {s t : State}

theorem KeptOrHalted.keeps (h : KeptOrHalted errs u s) (hf : ∀ u, supKept u s.sup → supKept u t.sup) :
    KeptOrHalted errs u t := h.imp (hf _) (And.imp_right (hf _))

/-- A step that may halt the part as it meets a double error. -/
theorem KeptOrHalted.mayHalt {e : StoreError} (he : e ∈ errs) (h : KeptOrHalted errs u s)
    (hf : ∀ u, supKept u s.sup → supKept u t.sup ∨ supKept { u with op := .halted } t.sup) :
    KeptOrHalted errs u t := by
  have hne : errs ≠ [] := List.ne_nil_of_mem he
  rcases h with h | ⟨-, h⟩
  · exact (hf u h).imp_right fun hhalt => ⟨hne, hhalt⟩
  · exact .inr ⟨hne, (hf _ h).elim id id⟩

theorem supKept_ite {c : Prop} [Decidable c] (hs : supKept u s.sup) (ht : supKept u t.sup) :
    supKept u (if c then s else t).sup := by split <;> assumption

theorem supKept_setOp {v : Supervisor} (op : OpState) (h : supKept u v) :
    supKept { u with op := op } { v with op := op } := by
  obtain ⟨-, hrest⟩ := h
  exact ⟨rfl, hrest⟩

theorem supKept_halt (item : StoreItem) (h : supKept u s.sup) :
    supKept { u with op := .halted } (s.halt item).sup := by
  have hnoted (x : Notice) : supKept u (allLinks.foldl (fun s l => if s.receives (.storeError item) l then
      s.modLink l fun r => { r with haltNotice := some x } else s) (s.raise (.storeError item))).sup :=
    supKept_foldl _ _ (fun _ _ h => supKept_ite (supKept_modLink _ _ h) h) (supKept_raise (.storeError item) h)
  exact supKept_setOp .halted (hnoted _)

theorem supKept_meet_slot (n : Nat) (h : supKept u s.sup) : supKept u (s.meet (.slot n)).sup := by
  unfold State.meet
  dsimp only
  split
  · exact h
  · split
    · exact h
    · have hraised := supKept_raise (.storeError (.slot n)) h
      split
      · exact supKept_handBack n (supKept_vacate n hraised)
      · exact supKept_freeSlot n hraised
      · exact supKept_stepFetched _ _ _ _ (supKept_freeSlot n hraised)
      · exact supKept_checkRepair _ (supKept_repairFetched _ _ _ (supKept_freeSlot n hraised))
      · exact hraised

theorem supKept_meet (e : StoreError) (h : supKept u s.sup) :
    supKept u (s.meet e).sup ∨ supKept { u with op := .halted } (s.meet e).sup := by
  cases e with
  | layout | settings | catalogue => exact .inr (supKept_halt _ h)
  | principalOneCopy id f | restoreOneCopy rec => exact .inl h
  | principalTally id =>
    refine .inl ?_
    unfold State.meet
    dsimp only
    split
    · exact h
    · exact supKept_endPrincipalError _ _ (supKept_storeClean _ _ _ h)
  | principalBoth id f =>
    refine .inl ?_
    unfold State.meet
    dsimp only
    split
    · exact h
    · refine supKept_endPrincipalError _ _ ?_
      have hleft : supKept u (if f = .grace then s.draw.2.leaveGraceQueue id else s.draw.2).sup :=
        supKept_ite (supKept_leaveGraceQueue _ (supKept_draw h)) (supKept_draw h)
      exact supKept_ite (supKept_unsettlePools (supKept_modPrin _ _ hleft)) (supKept_modPrin _ _ hleft)
  | principalOther id f =>
    refine .inl ?_
    unfold State.meet
    dsimp only
    split
    · exact h
    · exact supKept_endPrincipalError _ _ (supKept_modPrin _ _ h)
  | extentRecord vol ext lost =>
    unfold State.meet
    dsimp only
    split
    · exact .inr (supKept_halt _ h)
    · refine .inl ?_
      split
      · split
        · exact supKept_settlePatrol (supKept_damageExtent vol ext lost h)
        · exact h
      · exact h
  | attachRecord vol =>
    unfold State.meet
    dsimp only
    split
    · exact .inr (supKept_halt _ h)
    · exact .inl h
  | restoreBoth rec readable | restoreStep rec i readable =>
    exact .inl (supKept_settle (supKept_advance (supKept_storeFail rec readable h)))
  | slot n => exact .inl (supKept_meet_slot n h)

/-- A double error met as a frame is transmitted: that of a slot leaves the Supervisor alone (R115). -/
theorem supKept_meetSlot (e : StoreError) (h : supKept u s.sup) :
    supKept u (s.meetSlot e).sup ∨ supKept { u with op := .halted } (s.meetSlot e).sup := by
  cases e with
  | slot n =>
    refine .inl ?_
    unfold State.meetSlot
    dsimp only
    split
    · split
      · split
        · exact supKept_recall _ _ (supKept_meet_slot n h)
        · split
          · exact supKept_ite (supKept_meet_slot n (supKept_recall _ _ h))
              (supKept_failStep _ _ _ (supKept_meet_slot n (supKept_recall _ _ h)))
          · exact supKept_meet_slot n (supKept_recall _ _ h)
        · exact supKept_meet_slot n (supKept_recall _ _ h)
      · exact supKept_meet_slot n h
    · exact h
  | _ =>
    rw [State.meetSlot.eq_2 _ _ (by simp)]
    exact supKept_meet _ h

theorem supKept_visit {vol gen ext : Nat} {fate : Version → Fate} (hv : s.visit vol gen ext fate = some t)
    (h : supKept u s.sup) : supKept u t.sup := by
  unfold State.visit at hv
  split at hv
  · cases hv
    exact h
  · dsimp only at hv
    split at hv <;> cases hv
    refine supKept_flushReclaims ?_
    exact h

theorem keptOrHalted_keptByBlocks (errs : List StoreError) (u : Supervisor) :
    KeptByBlocks errs (KeptOrHalted errs u) where
  unsent _ h := h
  send _ h := h
  meet e he h := h.mayHalt he fun _ => supKept_meet e
  meetSlot e he h := h.mayHalt he fun _ => supKept_meetSlot e
  enqueue _ _ _ _ _ h := h
  setIdle _ h := h
  setSubs _ _ h := h
  endCursor _ h := h
  beginHold _ h := h
  endHold _ h := h
  leaveQueue _ _ h := h
  endFill _ _ _ h := h
  addPosting _ _ _ h := h
  addPrincipal _ _ _ h := h
  storeTally id u r h := h.keeps fun _ => supKept_storeTally id u r
  commit _ h := h.keeps fun _ => supKept_commit _ _ _ _ _ _
  addAttach _ _ h := h
  endAttach _ _ h := h
  visit hv h := h.keeps fun _ => supKept_visit hv
  dropSnapshot _ h := h
  setWaiting _ h := h
  cancelRestore rec h := h.keeps fun _ => supKept_cancelRestore rec
  setOffLink _ _ h := h
  askFetch _ _ _ h := h.keeps fun _ => supKept_joinList _
  setFetches _ _ _ h := h
  reply l req st body h := h.keeps fun _ => supKept_reply l req st body
  replyAtOnce l tag k st h := h.keeps fun _ => supKept_replyAtOnce l tag k st
  arrive l h := h.keeps fun _ => supKept_arrive l
  busy l h := h.keeps fun _ => supKept_busy l
  finish h := h.keeps fun _ => supKept_finish
  pushOp job postings h := h.keeps fun _ => supKept_pushOp job postings
  calculate num h := h.keeps fun _ => supKept_calculate num
  dropOp num h := h.keeps fun _ => supKept_dropOp num
  proceed num h := h.keeps fun _ => supKept_proceed num
  endMarking num h := h.keeps fun _ => supKept_endMarking num
  endInPlace id h := h.keeps fun _ => supKept_endInPlace id
  drain h := h.keeps fun _ => supKept_drain
  runOp num h := h.keeps fun _ => supKept_runOp num
  endRecount pool h := h.keeps fun _ => supKept_endRecount pool
  modMembers pool f h := h.keeps fun _ => supKept_modMembers pool f
  stage l r held c h := h.keeps fun _ => supKept_stage l r held c
  setFrozen id b h := h.keeps fun _ => supKept_setFrozen id b
  expireHead h := h.keeps fun _ => supKept_expireHead
  abandonRewritten vol ext old h := h.keeps fun _ => supKept_abandonRewritten vol ext old
  detach vol h := h.keeps fun _ => supKept_detach vol
  cut vol gen k h := h.keeps fun _ => supKept_cut vol gen k
  missDue vol h := h.keeps fun _ => supKept_missDue vol
  startExpiry vol gen h := h.keeps fun _ => supKept_startExpiry vol gen
  pendDrop vol gen h := h.keeps fun _ => supKept_pendDrop vol gen
  modSnapshot vol gen f h := h.keeps fun _ => supKept_modSnapshot vol gen f
  moveExpiry vol gen cursor count h := h.keeps fun _ => supKept_moveExpiry vol gen cursor count
  waitSweep key h := h.keeps fun _ => supKept_waitSweep key
  acceptRestore q h := h.keeps fun _ => supKept_acceptRestore q
  take l req h := h.keeps fun _ => supKept_take l req
  startRestore h := h.keeps fun _ => supKept_startRestore
  takeUp rec i h := h.keeps fun _ => supKept_takeUp rec i
  issuePut rec i h := h.keeps fun _ => supKept_issuePut rec i
  doneAnswer l tag loc k h := h.keeps fun _ => supKept_doneAnswer l tag loc k
  failAnswer l tag k h := h.keeps fun _ => supKept_failAnswer l tag k
  consider h := h.keeps fun _ => supKept_consider
  transmitted seq h := h.keeps fun _ => supKept_transmitted seq
  startRun h := h.keeps fun _ => supKept_startRun
  issuePull p l h := h.keeps fun _ => supKept_issuePull p l
  countDiscard l h := h.keeps fun _ => supKept_countDiscard l
  placeChunk d idx data h := h.keeps fun _ => supKept_placeChunk d idx data
  shipNext errs h := h.keeps fun _ => supKept_shipNext errs
  finishVolume h := h.keeps fun _ => supKept_finishVolume
  redirect h := h.keeps fun _ => supKept_redirect
  sendHead h := h.keeps fun _ => supKept_sendHead
  countVisit vol h := h.keeps fun _ => supKept_countVisit vol
  shipVisit h := h.keeps fun _ => supKept_shipVisit
  endInterval h := h.keeps fun _ => supKept_endInterval
  chooseDir h := h.keeps fun _ => supKept_chooseDir
  fault cause h := h.keeps fun _ => supKept_fault cause
  downInStandby h := h.keeps fun _ => supKept_downInStandby
  openExpired opens h := h.keeps fun _ => supKept_openExpired opens
  listExpired errs h := h.keeps fun _ => supKept_listExpired errs
  startOpening h := h.keeps fun _ => supKept_startOpening
  closeLink h := h.keeps fun _ => supKept_closeLink
  ack n h := h.keeps fun _ => supKept_ack n
  answerControl p h := h.keeps fun _ => supKept_answerControl p
  completeVolume vol target h := h.keeps fun _ => supKept_completeVolume vol target
  dropAcked vol gen h := h.keeps fun _ => supKept_dropAcked vol gen
  nak n reason errs h := h.keeps fun _ => supKept_nak n reason errs
  serveHead h := h.keeps fun _ => supKept_serveHead
  endBurst h := h.keeps fun _ => supKept_endBurst
  answerFetch f h := h.keeps fun _ => supKept_answerFetch f
  fetchChunk e i data h := h.keeps fun _ => supKept_fetchChunk e i data
  fetchNone e h := h.keeps fun _ => supKept_fetchNone e
  tellFetch e a h := h.keeps fun _ => supKept_tellFetch e a
  patrolVisit h := h.keeps fun _ => supKept_patrolVisit
  decideItem n h := h.keeps fun _ => supKept_decideItem n
  leaveItem n h := h.keeps fun _ => supKept_leaveItem n
  issueVerify w l h := h.keeps fun _ => supKept_issueVerify w l
  fixWhole n r l h := h.keeps fun _ => supKept_fixWhole n r l
  fixChunk n idx r l h := h.keeps fun _ => supKept_fixChunk n idx r l
  fixDone l tag h := h.keeps fun _ => supKept_fixDone l tag
  readTable l q t start count ks h := h.keeps fun _ => supKept_readTable l q t start count ks
  clearCounts h := h.keeps fun _ => supKept_clearCounts
  failDirective l d cause h := h.keeps fun _ => supKept_failDirective l d cause
  deliverStartup l classes h := h.keeps fun _ => supKept_deliverStartup l classes
  resetLink l keepUp h := h.keeps fun _ => supKept_resetLink l keepUp
  badFrame l h := h.keeps fun _ => supKept_badFrame l
  transmit l h := h.keeps fun _ => supKept_transmit l
  transmitHalted l h := h.keeps fun _ => supKept_transmitHalted l

end

/-- The commands that leave the Supervisor alone do nothing in HALTED, but for the transmission of the halt's
notice (R182, R190). -/
theorem exec_halted_blocks {s : State} (c : Instr) (hw : writesSupervisor c = false) (h : s.sup.op = .halted) :
    (∃ l errs, c = .linkTransmit l errs) ∨ Machine.exec c s = .next { s with sent := [] } := by
  cases c with
  | linkTransmit l errs => exact .inl ⟨l, errs, rfl⟩
  | powerOn | layoutInitialised | tallyLoadingWalkEnd | loadingEnd | powerWarnAssert | cleanShutdownWrite
  | powerWarnDeassert | settingWrite | scopeSet | holdRelease | timeSet | standbyEnter | standbyExit | quietReported
  | clear | hourlyCutDueOpen | windowOpening | windowOpen | windowClose | windowClosing | closeAbandon | nightEnd
  | pullEnd | pullFail => cases hw
  | _ => exact .inr (if_pos h)

/-- The others do nothing in HALTED either, but for a power-on and the power-warn line (R190). -/
theorem exec_halted_supervisor {s : State} (c : Instr) (hw : writesSupervisor c = true) (h : s.sup.op = .halted) :
    (∃ errs, c = .powerOn errs) ∨
      (∃ b, Machine.exec c s = .next { s with sup.powerWarn := b, sent := [] }) := by
  cases c with
  | powerOn errs => exact .inl ⟨errs, rfl⟩
  | powerWarnAssert errs => exact .inr ⟨true, if_pos h⟩
  | powerWarnDeassert errs => exact .inr ⟨false, if_pos h⟩
  | layoutInitialised | tallyLoadingWalkEnd | loadingEnd | cleanShutdownWrite | settingWrite | scopeSet | holdRelease
  | timeSet | standbyEnter | standbyExit | quietReported | clear | hourlyCutDueOpen | windowOpening | windowOpen
  | windowClose | windowClosing | closeAbandon | nightEnd | pullEnd | pullFail =>
    exact .inr ⟨s.sup.powerWarn, if_pos h⟩
  | _ => cases hw

/-- In HALTED a link sends the notice of the halt, once, and nothing else (R182). -/
theorem exec_linkTransmit_halted {s : State} (l : Link) (errs : List StoreError) (h : s.sup.op = .halted) :
    Machine.exec (.linkTransmit l errs) s = .next (({ s with sent := [] } : State).transmitHalted l) :=
  if_pos h

theorem transmitHalted_none {s : State} {l : Link} (h : (s.link l).haltNotice = none) : s.transmitHalted l = s := by
  simp [State.transmitHalted, h]

theorem transmitHalted_some {s : State} {l : Link} {n : Notice} (h : (s.link l).haltNotice = some n) :
    s.transmitHalted l = (s.modLink l fun r => { r with haltNotice := none }).send (.link l (.notice n)) := by
  simp [State.transmitHalted, h]

theorem haltNotice_cleared (s : State) (l k : Link) :
    (s.modLink l fun r => { r with haltNotice := none }).link k =
      { s.link k with haltNotice := if l = k then none else (s.link k).haltNotice } := by
  rw [State.link_modLink]
  split <;> rfl

/-- All that a transmission in HALTED changes is its link's notice of the halt. -/
theorem transmitHalted_halted {s : State} (l : Link) (hhalt : s.sup.op = .halted) (hsent : s.sent = []) :
    (s.transmitHalted l).sup.op = .halted ∧
      (s.transmitHalted l).sup = { s.sup with powerWarn := (s.transmitHalted l).sup.powerWarn } ∧
      (s.transmitHalted l).tally = s.tally ∧ (s.transmitHalted l).cat = s.cat ∧
      (s.transmitHalted l).rst = s.rst ∧ (s.transmitHalted l).str = s.str ∧ (s.transmitHalted l).off = s.off ∧
      (s.transmitHalted l).pat = s.pat ∧ (s.transmitHalted l).pending = s.pending ∧
      (∀ k : Link, (s.transmitHalted l).link k =
          { s.link k with haltNotice := ((s.transmitHalted l).link k).haltNotice } ∧
        (((s.transmitHalted l).link k).haltNotice = (s.link k).haltNotice ∨
          ((s.transmitHalted l).link k).haltNotice = none)) ∧
      ∀ o ∈ (s.transmitHalted l).sent, ∃ k n, o = .link k (.notice n) ∧ (s.link k).haltNotice = some n ∧
        ((s.transmitHalted l).link k).haltNotice = none := by
  cases hn : (s.link l).haltNotice with
  | none =>
    rw [transmitHalted_none hn]
    exact ⟨hhalt, rfl, rfl, rfl, rfl, rfl, rfl, rfl, rfl, fun _ => ⟨rfl, .inl rfl⟩, by simp [hsent]⟩
  | some n =>
    rw [transmitHalted_some hn]
    refine ⟨hhalt, rfl, rfl, rfl, rfl, rfl, rfl, rfl, rfl, fun k => ?_, fun o ho => ?_⟩
    · rw [State.send_link, haltNotice_cleared]
      exact ⟨rfl, by by_cases hk : l = k <;> simp [hk]⟩
    · obtain rfl : o = .link l (.notice n) := by simpa [State.send, hsent] using ho
      exact ⟨l, n, rfl, hn, by rw [State.send_link, haltNotice_cleared, if_pos rfl]⟩

end Sys2Proof.Machine

open Sys2Proof Sys2Proof.Machine

/-- Settles O1: a step is defined by the front of the queue. -/
theorem stepRunsFrontCommand : Obligations.StepRunsFrontCommand := fun _ _ _ => rfl

/-- Settles O3, field by field of the reset state. -/
theorem resetIsPowerOnOfBlankMemory : Obligations.ResetIsPowerOnOfBlankMemory := by
  unfold Obligations.ResetIsPowerOnOfBlankMemory
  decide +kernel

/-- Settles O4. -/
theorem resetIsBounded : Obligations.ResetIsBounded := ⟨bounded_reset, sound_reset⟩

/-- Settles O5: a command keeps the bounds since every operation it calls does, and so does a second of the clock. -/
theorem stepKeepsBounds : Obligations.StepKeepsBounds := by
  intro s t h ht
  unfold Machine.step at ht
  cases hp : s.pending with
  | nil =>
    simp only [hp, Host.Outcome.next.injEq] at ht
    exact ht ▸ bounded_tick (s := { s with sent := [] }) h
  | cons c rest =>
    simp only [hp] at ht
    exact (bounded_keptByAll (errsOf c)).exec c (s := { s with pending := rest }) h ht

/-- Settles O10: a command keeps the invariants since every operation it calls does, and so does a second of the
clock. -/
theorem everyStepKeepsTheInvariants : Obligations.EveryStepKeepsTheInvariants := by
  intro s t h ht
  unfold Machine.step at ht
  cases hp : s.pending with
  | nil =>
    simp only [hp, Host.Outcome.next.injEq] at ht
    exact ht ▸ sound_tick (s := { s with sent := [] }) h
  | cons c rest =>
    simp only [hp] at ht
    exact (sound_keptByAll (errsOf c)).exec c (s := { s with pending := rest }) h ht

/-- Settles O7: what the blocks' operations keep of the Supervisor, and the commands of HALTED one by one. -/
theorem onlySomeCommandsChangeTheSupervisor : Obligations.OnlySomeCommandsChangeTheSupervisor := by
  refine ⟨fun c s t hw ht => ?_, fun c s hhalt hon => ?_⟩
  · exact (keptOrHalted_keptByBlocks (errsOf c) s.sup).exec c hw (.inl (supKept_refl s.sup)) ht
  · have hstill (b : Bool) : ∀ l : Link, ({ s with sup.powerWarn := b, sent := [] } : State).link l =
        { s.link l with haltNotice := (s.link l).haltNotice } := fun _ => rfl
    cases hw : writesSupervisor c with
    | true =>
      rcases exec_halted_supervisor c hw hhalt with ⟨errs, rfl⟩ | ⟨b, hb⟩
      · exact absurd rfl (hon errs)
      · exact ⟨_, hb, hhalt, rfl, rfl, rfl, rfl, rfl, rfl, rfl, rfl, fun l => ⟨hstill b l, .inl rfl⟩, by simp⟩
    | false =>
      rcases exec_halted_blocks c hw hhalt with ⟨l, errs, rfl⟩ | hb
      · exact ⟨_, exec_linkTransmit_halted l errs hhalt, transmitHalted_halted (s := { s with sent := [] }) l hhalt rfl⟩
      · exact ⟨_, hb, hhalt, rfl, rfl, rfl, rfl, rfl, rfl, rfl, rfl, fun l => ⟨hstill _ l, .inl rfl⟩, by simp⟩
end

section
/-! PROOF. Requests turned away as they arrive (R172, R173, R182): the one form that the step of every request has. -/

namespace Sys2Proof.Machine

/-- A Time Set whose value fits its body (R174, R187). -/
theorem exec_timeSet_fits (s : State) (l : Link) (tag : Nat) {value : Nat} (errs : List StoreError)
    (hv : value ≤ maxClock) :
    Machine.exec (.timeSet l tag value errs) s =
      act (fun s => (request l tag .timeSet true true errs (fun q s => (s.setClock value).reply l q .done .none)
        s).finish) s := by
  change execTimeSet l tag value s errs = _
  simp only [execTimeSet, if_neg (Nat.not_lt.mpr hv)]

/-- The step of every request: its arrival, its block's work, and what they bring about. A request that only a
CONSOLE may send is marked so, and is answered by the block that takes it (Table 10-6). -/
theorem exec_requestOf {c : Instr} (s : State) {l : Link} {tag : Nat} {k : ReqKind}
    (h : requestOf c = some (l, tag, k)) :
    ∃ taken co errs body, (consoleOnly c = true → taken = true ∧ co = true) ∧
      Machine.exec c s =
        act (fun _ => (request l tag k taken co errs body { s with sent := [] }).finish) s := by
  cases c with
  | timeSet l tag value errs =>
    simp only [requestOf] at h
    split at h <;> cases h
    rename_i hv
    exact ⟨true, true, errs, _, fun _ => ⟨rfl, rfl⟩, exec_timeSet_fits s l tag errs hv⟩
  | principalCreate l tag id kind cls course dept soft hard errs =>
    cases h
    exact ⟨true, _, errs, _, fun hc => ⟨rfl, hc⟩, rfl⟩
  | principalEdit l tag id changes errs =>
    cases h
    exact ⟨true, _, errs, _, fun hc => ⟨rfl, hc⟩, rfl⟩
  | freeze | volumeAttach | volumeDetach | settingWrite | standbyEnter | standbyExit | clear | windowOpen | windowClose
  | scopeSet =>
    cases h
    exact ⟨true, true, _, _, fun _ => ⟨rfl, rfl⟩, rfl⟩
  | restore =>
    cases h
    exact ⟨false, false, _, _, (fun hc => nomatch hc), rfl⟩
  | admitReq | release | settle | principalDelete | commit | cut | expireLocal | expireOffsite | restoreCancel
  | restoreStatus | offsiteOpen | query | tableRead | tableNext | holdBegin | holdRelease | holdAbandon | statusQuery
  | statusClear | subscribe | reset =>
    cases h
    exact ⟨true, false, _, _, (fun hc => nomatch hc), rfl⟩
  | _ => cases h

/-- What `request` does on an UP link whose queue is full (R172). -/
theorem request_busy {s : State} {l : Link} (tag : Nat) (k : ReqKind) (taken co : Bool) (errs : List StoreError)
    (body : Nat → State → State) (hop : s.sup.op = .standby ∨ s.sup.op = .active) (hup : (s.link l).up = true)
    (hfull : Config.requestQueueSize ≤ (s.link l).queue.length) :
    request l tag k taken co errs body s =
      (s.modLink l fun r => { r with up := true, badRun := 0, idle := false, idleFrom := s.sup.elapsed }).replyAtOnce
        l tag k .busy := by
  have harrive : (s.arrive l).busy l = s.modLink l fun r =>
      { r with up := true, badRun := 0, idle := false, idleFrom := s.sup.elapsed } := by
    simp [State.arrive, hup, State.busy, modLink_modLink]
  have hrun : s.sup.op ≠ .halted := by rcases hop with h | h <;> simp [h]
  have hstate : ¬(s.sup.op = .loading ∨ s.sup.op = .holdup) := by rcases hop with h | h <;> simp [h]
  unfold request
  dsimp only
  rw [harrive, hup, if_pos rfl, withErrs_nil _ (by simpa using hrun), if_neg (by simpa using hstate),
    if_pos (by simpa using hfull)]

/-- What `request` does with a request that only a CONSOLE may send, on a FILESERVER link that takes it (R173). -/
theorem request_notPermitted {s : State} {l : Link} (tag : Nat) (k : ReqKind) (taken : Bool) (errs : List StoreError)
    (body : Nat → State → State) (h : s.takes l) (hrole : s.role l = .fileserver) :
    request l tag k taken true errs body s =
      (s.entered l tag k taken).reply l s.sup.nextReq .notPermitted .none := by
  have hrun := takes_running h
  obtain ⟨hop, hup, hroom, -⟩ := h
  have harrive : (s.arrive l).busy l = s.modLink l fun r =>
      { r with up := true, badRun := 0, idle := false, idleFrom := s.sup.elapsed } := by
    simp [State.arrive, hup, State.busy, modLink_modLink]
  have hstate : ¬(s.sup.op = .loading ∨ s.sup.op = .holdup) := by rcases hop with h | h <;> simp [h]
  unfold request
  dsimp only
  rw [harrive, hup, if_pos rfl, withErrs_nil _ (by simpa using hrun), if_neg (by simpa using hstate),
    State.link_modLink_self, if_neg (by simpa using hroom), if_pos ⟨rfl, hrole⟩]
  congr 1
  simp [State.entered, State.modLink, State.modSup, State.link, entryOf]

end Sys2Proof.Machine

open Sys2Proof Sys2Proof.Machine

/-- Settles O8: by state, by full queue and by role, from the one form of every request's step. -/
theorem requestsAreTurnedAwayAtArrival : Obligations.RequestsAreTurnedAwayAtArrival := by
  refine ⟨fun c s l tag k hc hop hup => ?_, fun c s l tag k hc hop hup hfull => ?_,
    fun c s l tag k hc hco htakes hrole => ?_⟩
  · obtain ⟨taken, co, errs, body, -, hexec⟩ := exec_requestOf s hc
    refine ⟨(s.rebuffed l tag k .wrongState).finish, ?_, (answered_rebuffed s l tag k _).finish,
      spared_rebuffed tag k _ hup⟩
    rw [hexec, act_running _ (notOperating_running hop),
      request_wrongState (s := { s with sent := [] }) tag k taken co errs body hop hup]
    rfl
  · obtain ⟨taken, co, errs, body, -, hexec⟩ := exec_requestOf s hc
    refine ⟨(s.rebuffed l tag k .busy).finish, ?_, (answered_rebuffed s l tag k _).finish,
      spared_rebuffed tag k _ hup⟩
    rw [hexec, act_running _ (by rcases hop with h | h <;> simp [h]),
      request_busy (s := { s with sent := [] }) tag k taken co errs body hop hup hfull]
    rfl
  · obtain ⟨taken, co, errs, body, hconsole, hexec⟩ := exec_requestOf s hc
    obtain ⟨rfl, rfl⟩ := hconsole hco
    refine ⟨s.turned l tag k .notPermitted, ?_, answered_turned tag k _ htakes, spared_turned tag k _ htakes⟩
    rw [hexec, act_running _ (takes_running htakes),
      request_notPermitted (s := { s with sent := [] }) tag k true errs body (takes_unsent htakes) hrole]
    rfl
end

section
/-! SUPPORT. Requests whose block answers at once, with any body, and what such an answer leaves alone. -/

namespace Sys2Proof.Machine

/-- The step of a request that its link takes and its role may send. -/
theorem act_asked {s : State} {l : Link} (tag : Nat) (k : ReqKind) {co : Bool} (body : Nat → State → State)
    (h : s.takes l) (hc : co = false ∨ s.role l = .console) :
    act (fun s => (request l tag k true co [] body s).finish) s =
      .next (body s.sup.nextReq (s.asked l tag k)).finish := by
  have hreq : request l tag k true co [] body { s with sent := [] } = body s.sup.nextReq (s.asked l tag k) :=
    (request_takes tag k true [] body (takes_unsent h) hc).trans (withErrs_nil _ (asked_running tag k h))
  rw [act_running _ (takes_running h), hreq]

@[simp] theorem asked_sup (s : State) (l : Link) (tag : Nat) (k : ReqKind) :
    (s.asked l tag k).sup = { s.sup with nextReq := s.sup.nextReq + 1 } := rfl
@[simp] theorem asked_tally (s : State) (l : Link) (tag : Nat) (k : ReqKind) : (s.asked l tag k).tally = s.tally := rfl
@[simp] theorem asked_cat (s : State) (l : Link) (tag : Nat) (k : ReqKind) : (s.asked l tag k).cat = s.cat := rfl
@[simp] theorem asked_rst (s : State) (l : Link) (tag : Nat) (k : ReqKind) : (s.asked l tag k).rst = s.rst := rfl
@[simp] theorem asked_str (s : State) (l : Link) (tag : Nat) (k : ReqKind) : (s.asked l tag k).str = s.str := rfl
@[simp] theorem asked_off (s : State) (l : Link) (tag : Nat) (k : ReqKind) : (s.asked l tag k).off = s.off := rfl
@[simp] theorem asked_pat (s : State) (l : Link) (tag : Nat) (k : ReqKind) : (s.asked l tag k).pat = s.pat := rfl
@[simp] theorem asked_role (s : State) (l j : Link) (tag : Nat) (k : ReqKind) :
    (s.asked l tag k).role j = s.role j := rfl
@[simp] theorem asked_link (s : State) (l : Link) (tag : Nat) (k : ReqKind) :
    (s.asked l tag k).link l =
      { s.link l with
        up := true, badRun := 0, idle := false, idleFrom := s.sup.elapsed
        queue := (s.link l).queue ++ [entryOf s tag k true] } :=
  entered_link { s with sent := [] } l tag k true
theorem asked_link_ne (s : State) {l j : Link} (tag : Nat) (k : ReqKind) (h : l ≠ j) :
    (s.asked l tag k).link j = s.link j :=
  entered_link_ne { s with sent := [] } tag k true h

theorem reply_link_ne (s : State) {l j : Link} (req : Nat) (st : Status) (b : ReplyBody) (h : l ≠ j) :
    (s.reply l req st b).link j = s.link j := by
  simp [State.reply, State.restartIdle, h]

/-- A reply leaves a link's registers as they stand. -/
theorem reply_link_kept (s : State) (l : Link) (req : Nat) (st : Status) (b : ReplyBody) :
    ((s.reply l req st b).link l).up = (s.link l).up ∧
      ((s.reply l req st b).link l).directives = (s.link l).directives ∧
      ((s.reply l req st b).link l).subs = (s.link l).subs ∧
      ((s.reply l req st b).link l).delivered = (s.link l).delivered ∧
      ((s.reply l req st b).link l).cursor = (s.link l).cursor ∧
      ((s.reply l req st b).link l).hold = (s.link l).hold ∧
      ((s.reply l req st b).link l).notices = (s.link l).notices ∧
      ((s.reply l req st b).link l).tagCounter = (s.link l).tagCounter ∧
      ((s.reply l req st b).link l).discarded = (s.link l).discarded ∧
      ((s.reply l req st b).link l).dropped = (s.link l).dropped ∧
      ((s.reply l req st b).link l).haltNotice = (s.link l).haltNotice := by
  simp only [State.reply, State.restartIdle, State.link_modLink_self]
  unfold LinkRec.reply
  split <;> simp

/-- Work that leaves a request's link as it was leaves the request with its block. -/
theorem Entered.congr {s u v : State} {l : Link} {tag : Nat} {k : ReqKind} {taken : Bool}
    (h : Entered s u l tag k taken) (hl : v.link l = u.link l) : Entered s v l tag k taken := by
  rwa [Entered, hl]

/-- Work that leaves the state, the frames and the queue of a request's link leaves the request with its block. -/
theorem Entered.of_kept {s u v : State} {l : Link} {tag : Nat} {k : ReqKind} {taken : Bool}
    (h : Entered s u l tag k taken) (hup : (v.link l).up = (u.link l).up) (htx : (v.link l).tx = (u.link l).tx)
    (hq : (v.link l).queue = (u.link l).queue) : Entered s v l tag k taken := by
  rwa [Entered, hup, htx, hq]

theorem answered_finish {s u : State} {l : Link} {tag : Nat} {k : ReqKind} (st : Status) (b : ReplyBody)
    (h : s.takes l) (hu : Entered s u l tag k true) :
    Answered s (u.reply l s.sup.nextReq st b).finish l tag k st b :=
  (answered_reply st b h.2.2.2 hu).finish

/-- The end of a step that answers a request and does nothing else. -/
def State.replied (s : State) (l : Link) (tag : Nat) (k : ReqKind) (st : Status) (b : ReplyBody) : State :=
  ((s.asked l tag k).reply l s.sup.nextReq st b).finish

theorem answered_replied {s : State} {l : Link} (tag : Nat) (k : ReqKind) (st : Status) (b : ReplyBody)
    (h : s.takes l) : Answered s (s.replied l tag k st b) l tag k st b :=
  answered_finish st b h (entered_asked s l tag k)

/-- A request that is answered and changes nothing spares the part. -/
theorem spared_replied {s : State} {l : Link} (tag : Nat) (k : ReqKind) (st : Status) (b : ReplyBody)
    (h : s.takes l) : Spared s (s.replied l tag k st b) := by
  obtain ⟨htx, hq⟩ := reply_entered st b h.2.2.2 (entered_asked s l tag k)
  have hkept := reply_link_kept (s.asked l tag k) l s.sup.nextReq st b
  have hspared : ∀ j, linkSpared (s.link j) (((s.asked l tag k).reply l s.sup.nextReq st b).link j) := by
    intro j
    by_cases hj : l = j
    · subst hj
      obtain ⟨hup, hdir, hsubs, hdel, hcur, hhold, hnot, htag, hdisc, -, hhalt⟩ := hkept
      simp only [asked_link] at hup hdir hsubs hdel hcur hhold hnot htag hdisc hhalt htx
      exact ⟨⟨hup.trans h.2.1.symm, hdir, hsubs, hdel, hcur, hhold, htag, hdisc, hhalt⟩, by rw [hq],
        htx ▸ List.prefix_append _ _, hnot ▸ List.prefix_refl _⟩
    · rw [reply_link_ne _ _ _ _ hj, asked_link_ne s tag k hj]
      simp [linkSpared]
  obtain ⟨hsup, hlink, hcat, hrst, hoff, hpend, -⟩ :=
    finish_settles ((s.asked l tag k).reply l s.sup.nextReq st b)
  have halike : LinkAlike ((s.asked l tag k).reply l s.sup.nextReq st b) s := ⟨rfl, rfl, rfl, rfl, rfl, rfl, rfl⟩
  exact ⟨hsup.1, fun j => linkSpared_settles (hspared j) (hlink j), hcat, hrst, hoff, hpend,
    fun ht => finish_tally ht, fun hp => finish_pat hp, fun hc hh => undisturbed_finish halike hc hh⟩

/-- A step keeps the Supervisor's registers where its work does, up to the settling of the blocks. -/
theorem supKept_finish_of {s u : State} (h : supKept s.sup u.sup) : SupKept s u.finish := supKept_finish h

theorem supKept_of_eq {u v : Supervisor} (h : v = u) : supKept u v := h ▸ supKept_refl u

/-- What the end of a step shows of a link: its registers as the work of the step left them. -/
theorem finish_link_kept (u : State) (l : Link) :
    (u.finish.link l).up = (u.link l).up ∧ (u.finish.link l).directives = (u.link l).directives ∧
      (u.finish.link l).subs = (u.link l).subs ∧ (u.finish.link l).delivered = (u.link l).delivered ∧
      (u.finish.link l).cursor = (u.link l).cursor ∧ (u.finish.link l).hold = (u.link l).hold ∧
      (u.finish.link l).tagCounter = (u.link l).tagCounter ∧ (u.finish.link l).discarded = (u.link l).discarded ∧
      (u.finish.link l).badRun = (u.link l).badRun ∧ (u.finish.link l).haltNotice = (u.link l).haltNotice :=
  ((finish_settles u).2.1 l).1

theorem finish_rst (u : State) : u.finish.rst = u.rst := (finish_settles u).2.2.2.1

end Sys2Proof.Machine
end

section
/-! SUPPORT. With Tally Unit and Patrol Unit at rest, the end of a step touches the offsite link and its slots
alone. -/

namespace Sys2Proof.Machine

/-- All of a state but the offsite link, its slots and the output. -/
def State.besideLink (s : State) :
    Supervisor × Vector LinkRec 6 × Tally × Catalogue × RestoreEngine × Patrol × List Instr :=
  (s.sup, s.links, s.tally, s.cat, s.rst, s.pat, s.pending)

theorem askOpening_beside (s : State) : s.askOpening.besideLink = s.besideLink := by
  unfold State.askOpening
  split <;> rfl

theorem serveRoomOnce_beside (s : State) : s.serveRoomOnce.besideLink = s.besideLink := by
  unfold State.serveRoomOnce
  split
  · rfl
  · split
    · exact askOpening_beside _
    · rfl

theorem redirectOnce_beside (s : State) : s.redirectOnce.besideLink = s.besideLink := by
  unfold State.redirectOnce
  dsimp only
  repeat' split
  all_goals rfl

theorem settleLink_beside (s : State) : s.settleLink.besideLink = s.besideLink := by
  have hroom : s.clearShed.serveRoom.besideLink = s.besideLink :=
    iter_keeps (P := fun u => u.besideLink = s.besideLink) (fun u hu => (serveRoomOnce_beside u).trans hu) _ rfl
  exact iter_keeps (P := fun u => u.besideLink = s.besideLink) (fun u hu => (redirectOnce_beside u).trans hu) 3 hroom

theorem finish_beside {s : State} (h : s.calm) (hrun : s.sup.op ≠ .halted) :
    s.finish.besideLink = s.besideLink := by
  rw [finish_calm h hrun]
  exact settleLink_beside s

theorem finish_beside_parts {s : State} (h : s.calm) (hrun : s.sup.op ≠ .halted) :
    s.finish.sup = s.sup ∧ s.finish.links = s.links ∧ s.finish.tally = s.tally ∧ s.finish.cat = s.cat ∧
      s.finish.rst = s.rst ∧ s.finish.pat = s.pat ∧ s.finish.pending = s.pending := by
  have hbeside := finish_beside h hrun
  simpa only [State.besideLink, Prod.mk.injEq] using hbeside

theorem finish_link {s : State} (h : s.calm) (hrun : s.sup.op ≠ .halted) (l : Link) : s.finish.link l = s.link l :=
  State.link_congr (finish_beside_parts h hrun).2.1 l

/-! ### A link's record changed on each link of a list -/

theorem foldl_modLink_link {f : LinkRec → LinkRec} (hf : ∀ r, f (f r) = f r) (ls : List Link) (s : State) (k : Link) :
    (ls.foldl (fun s l => s.modLink l f) s).link k = if k ∈ ls then f (s.link k) else s.link k := by
  induction ls generalizing s with
  | nil => simp
  | cons l ls ih =>
    rw [List.foldl_cons, ih, State.link_modLink]
    by_cases hl : l = k
    · subst hl
      by_cases hk : l ∈ ls <;> simp [hk, hf]
    · simp [hl, Ne.symm hl]

theorem foldl_modLink_beside (f : Link → LinkRec → LinkRec) (ls : List Link) (s : State) :
    (ls.foldl (fun s l => s.modLink l (f l)) s) =
      { s with links := (ls.foldl (fun s l => s.modLink l (f l)) s).links } := by
  induction ls generalizing s with
  | nil => rfl
  | cons l ls ih => rw [List.foldl_cons, ih]; rfl

theorem mem_allLinks (l : Link) : l ∈ allLinks := by
  revert l
  decide

end Sys2Proof.Machine
end

section
/-! PROOF. Status Query and Status Clear (R183, R177). -/

namespace Sys2Proof.Machine

theorem clearCounts_link (s : State) (k : Link) :
    s.clearCounts.link k = { s.link k with discarded := 0, dropped := 0 } := by
  have hfold := foldl_modLink_link (f := fun r => { r with discarded := 0, dropped := 0 }) (fun _ => rfl) allLinks
    (s.modSup fun u => { u with raised := List.replicate 11 0 }) k
  rw [if_pos (mem_allLinks k)] at hfold
  exact hfold

/-- Clearing the counts leaves all but the raised counts and the links. -/
theorem clearCounts_eq (s : State) :
    s.clearCounts = { s with sup := { s.sup with raised := List.replicate 11 0 }, links := s.clearCounts.links } :=
  foldl_modLink_beside (fun _ r => { r with discarded := 0, dropped := 0 }) allLinks
    (s.modSup fun u => { u with raised := List.replicate 11 0 })

theorem clearCounts_sup (s : State) : s.clearCounts.sup = { s.sup with raised := List.replicate 11 0 } := by
  rw [clearCounts_eq]

theorem clearCounts_calm {s : State} (h : s.calm) : s.clearCounts.calm := by
  rw [clearCounts_eq]
  exact h

/-- The end of a Status Clear. -/
def State.countsCleared (s : State) (l : Link) (tag : Nat) : State :=
  ((s.asked l tag .statusClear).clearCounts.reply l s.sup.nextReq .done .none).finish

theorem exec_statusQuery {s : State} {l : Link} (tag : Nat) (h : s.takes l) :
    Machine.exec (.statusQuery l tag) s =
      .next (s.replied l tag .statusQuery .done (.status (s.asked l tag .statusQuery).statusReport)) :=
  act_asked tag .statusQuery _ h (.inl rfl)

theorem exec_statusClear {s : State} {l : Link} (tag : Nat) (h : s.takes l) :
    Machine.exec (.statusClear l tag) s = .next (s.countsCleared l tag) :=
  act_asked tag .statusClear _ h (.inl rfl)

section
variable {s : State} {l : Link} (tag : Nat)

theorem countsCleared_answered (h : s.takes l) :
    Answered s (s.countsCleared l tag) l tag .statusClear .done .none := by
  refine answered_finish .done .none h ((entered_asked s l tag .statusClear).of_kept ?_ ?_ ?_) <;>
    rw [clearCounts_link]

theorem countsCleared_supKept : SupKept s (s.countsCleared l tag) := by
  refine supKept_finish_of (s := s) (u := (s.asked l tag .statusClear).clearCounts.reply l s.sup.nextReq .done .none) ?_
  show supKept s.sup (s.asked l tag .statusClear).clearCounts.sup
  rw [clearCounts_sup]
  simp [supKept]

/-- At rest, nothing is raised or counted before the step ends. -/
theorem countsCleared_zero (h : s.takes l) (hc : s.calm) :
    (s.countsCleared l tag).sup.raised = List.replicate 11 0 ∧
      ∀ k, ((s.countsCleared l tag).link k).discarded = 0 ∧ ((s.countsCleared l tag).link k).dropped = 0 := by
  let u := (s.asked l tag .statusClear).clearCounts.reply l s.sup.nextReq .done .none
  have hcalm : u.calm := clearCounts_calm (s := s.asked l tag .statusClear) hc
  have hsup : u.sup = _ := clearCounts_sup (s.asked l tag .statusClear)
  have hasked := asked_running tag .statusClear h
  have hrun : u.sup.op ≠ .halted := by
    rw [hsup]
    exact hasked
  refine ⟨(congrArg Supervisor.raised ((finish_beside_parts hcalm hrun).1.trans hsup)), fun k => ?_⟩
  rw [State.countsCleared, finish_link hcalm hrun]
  by_cases hk : l = k
  · subst hk
    obtain ⟨-, -, -, -, -, -, -, -, hdisc, hdrop, -⟩ :=
      reply_link_kept (s.asked l tag .statusClear).clearCounts l s.sup.nextReq .done .none
    rw [hdisc, hdrop, clearCounts_link]
    exact ⟨rfl, rfl⟩
  · rw [reply_link_ne _ _ _ _ hk, clearCounts_link]
    exact ⟨rfl, rfl⟩

end

end Sys2Proof.Machine

open Sys2Proof Sys2Proof.Machine

/-- Settles O56: the report is read from the state that the request's arrival leaves, and clearing the counts
raises nothing while the blocks are at rest. -/
theorem statusIsReportedAndCleared : Obligations.StatusIsReportedAndCleared := by
  refine ⟨fun s l tag h => ?_, fun s l tag h hc => ?_⟩
  · exact ⟨_, _, exec_statusQuery tag h, answered_replied tag _ _ _ h, spared_replied tag _ _ _ h,
      rfl, rfl, rfl, rfl, rfl, rfl, rfl, rfl, rfl, rfl, rfl, rfl, rfl, rfl, rfl, rfl, rfl, rfl⟩
  · obtain ⟨hraised, hcounts⟩ := countsCleared_zero tag h hc
    exact ⟨_, exec_statusClear tag h, countsCleared_answered tag h, hraised, hcounts, countsCleared_supKept tag⟩
end

section
/-! SUPPORT. What the Tally Unit's own work does to the links: it queues notices, replies and starts idle times
again, and nothing else. A property of the links that those three keep, `advance` keeps. -/

namespace Sys2Proof.Machine

/-- A property of the links that the Tally Unit's work keeps. -/
structure KeptByTally (P : Vector LinkRec 6 → Prop) : Prop where
  queueNotice (ls : Vector LinkRec 6) (l : Link) (n : Notice) :
    ls[l].up = true → P ls → P (ls.set l (ls[l].queueNotice n))
  reply (ls : Vector LinkRec 6) (l : Link) (req : Nat) (st : Status) (b : ReplyBody) :
    P ls → P (ls.set l (ls[l].reply req st b))
  restartIdle (ls : Vector LinkRec 6) (l : Link) (now : Nat) : P ls → P (ls.set l { ls[l] with idleFrom := now })

variable {P : Vector LinkRec 6 → Prop}

theorem tallyLinks_foldl {α : Type} (f : State → α → State) (xs : List α) {s : State}
    (hf : ∀ s x, P s.links → P (f s x).links) (h : P s.links) : P (xs.foldl f s).links := by
  induction xs generalizing s with
  | nil => exact h
  | cons x xs ih => exact ih (hf s x h)

theorem tallyLinks_iter (n : Nat) (f : State → State) {s : State} (hf : ∀ s, P s.links → P (f s).links)
    (h : P s.links) : P (iter n f s).links := by
  induction n generalizing s with
  | zero => exact h
  | succ n ih => exact ih (hf s h)

theorem tallyLinks_modSup {s : State} (f : Supervisor → Supervisor) (h : P s.links) : P (s.modSup f).links := h

theorem tallyLinks_queueTo (k : KeptByTally P) {s : State} (b : NoticeBody) (n : Notice) (ls : List Link)
    (h : P s.links) : P (State.queueTo b n ls s).links := by
  induction ls generalizing s with
  | nil => exact h
  | cons l ls ih =>
    unfold State.queueTo
    refine ih ?_
    split
    next hrec =>
      simp only [State.receives, Bool.and_eq_true] at hrec
      obtain ⟨⟨hup, -⟩, -⟩ := hrec
      exact k.queueNotice _ l n hup h
    · exact h

theorem tallyLinks_restartIdle (k : KeptByTally P) {s : State} (l : Link) (h : P s.links) :
    P (s.restartIdle l).links := k.restartIdle _ l _ h

theorem tallyLinks_reply (k : KeptByTally P) {s : State} (l : Link) (req : Nat) (st : Status) (b : ReplyBody)
    (h : P s.links) : P (s.reply l req st b).links :=
  tallyLinks_restartIdle k l (k.reply _ l req st b h)

theorem tallyLinks_modPrin {s : State} (id : Nat) (f : Principal → Principal) (hb : P s.links) :
    P (State.modPrin s id f).links := hb

theorem tallyLinks_raise (k : KeptByTally P) {s : State} (b : NoticeBody) (hb : P s.links) :
    P (State.raise s b).links := by
  unfold State.raise
  repeat' first
    | with_reducible assumption
    | with_reducible apply tallyLinks_queueTo k
    | with_reducible apply tallyLinks_modSup

theorem tallyLinks_setGrace {s : State} (id : Nat) (g : Grace) (hb : P s.links) :
    P (State.setGrace s id g).links := by
  unfold State.setGrace
  repeat' first
    | with_reducible assumption
    | with_reducible apply tallyLinks_modPrin

theorem tallyLinks_leaveGraceQueue {s : State} (id : Nat) (hb : P s.links) :
    P (State.leaveGraceQueue s id).links := hb

theorem tallyLinks_enterGrace {s : State} (id deadline : Nat) (hb : P s.links) :
    P (State.enterGrace s id deadline).links := by
  unfold State.enterGrace
  try dsimp only
  repeat' first
    | with_reducible assumption
    | with_reducible apply tallyLinks_setGrace
    | split

theorem tallyLinks_expire (k : KeptByTally P) {s : State} (id : Nat) (hb : P s.links) :
    P (State.expire s id).links := by
  unfold State.expire
  repeat' first
    | with_reducible assumption
    | with_reducible apply tallyLinks_leaveGraceQueue
    | with_reducible apply tallyLinks_raise k
    | with_reducible apply tallyLinks_setGrace
    | split

theorem tallyLinks_lazyExpire (k : KeptByTally P) {s : State} (id : Nat) (hb : P s.links) :
    P (State.lazyExpire s id).links := by
  unfold State.lazyExpire
  repeat' first
    | with_reducible assumption
    | with_reducible apply tallyLinks_expire k
    | split

theorem tallyLinks_lazyExpireAll (k : KeptByTally P) {s : State} (ids : List Nat) (hb : P s.links) :
    P (State.lazyExpireAll s ids).links := by
  unfold State.lazyExpireAll
  repeat' first
    | with_reducible assumption
    | with_reducible apply tallyLinks_lazyExpire k
    | with_reducible refine tallyLinks_foldl _ _ (fun _ _ _ => ?_) ?_

theorem tallyLinks_evalGrace (k : KeptByTally P) {s : State} (id : Nat) (hb : P s.links) :
    P (State.evalGrace s id).links := by
  unfold State.evalGrace
  try dsimp only
  repeat' first
    | with_reducible assumption
    | with_reducible apply tallyLinks_enterGrace
    | with_reducible apply tallyLinks_leaveGraceQueue
    | with_reducible apply tallyLinks_raise k
    | with_reducible apply tallyLinks_setGrace
    | split

theorem tallyLinks_evalGraceAll (k : KeptByTally P) {s : State} (ids : List Nat) (hb : P s.links) :
    P (State.evalGraceAll s ids).links := by
  unfold State.evalGraceAll
  repeat' first
    | with_reducible assumption
    | with_reducible apply tallyLinks_evalGrace k
    | with_reducible refine tallyLinks_foldl _ _ (fun _ _ _ => ?_) ?_

theorem tallyLinks_putLine {s : State} (x : Line) (hb : P s.links) : P (State.putLine s x).links := hb

theorem tallyLinks_storeTally {s : State} (id used reserved : Nat) (hb : P s.links) :
    P (State.storeTally s id used reserved).links := by
  unfold State.storeTally
  try dsimp only
  repeat' first
    | with_reducible assumption
    | with_reducible apply tallyLinks_modPrin

theorem tallyLinks_castoutDirty {s : State} (hb : P s.links) : P (State.castoutDirty s).links := by
  unfold State.castoutDirty
  repeat' first
    | with_reducible assumption
    | split

theorem tallyLinks_modOp {s : State} (num : Nat) (f : TallyOp → TallyOp) (hb : P s.links) :
    P (State.modOp s num f).links := hb

theorem tallyLinks_dropOp {s : State} (num : Nat) (hb : P s.links) : P (State.dropOp s num).links := hb

theorem tallyLinks_pushOp {s : State} (job : Job) (postings : List Nat) (hb : P s.links) :
    P (State.pushOp s job postings).links := hb

theorem tallyLinks_takeSet {s : State} (num : Nat) (group : List Nat) (hb : P s.links) :
    P (State.takeSet s num group).links := by
  unfold State.takeSet
  try dsimp only
  repeat' first
    | with_reducible assumption
    | split

theorem tallyLinks_takeNext {s : State} (num : Nat) (hb : P s.links) : P (State.takeNext s num).links := by
  unfold State.takeNext
  try dsimp only
  repeat' first
    | with_reducible assumption
    | with_reducible apply tallyLinks_takeSet
    | split

theorem tallyLinks_gather {s : State} (num : Nat) (hb : P s.links) : P (State.gather s num).links := by
  unfold State.gather
  try dsimp only
  repeat' first
    | with_reducible assumption
    | with_reducible apply tallyLinks_modOp
    | with_reducible apply tallyLinks_takeNext
    | split
    | with_reducible refine tallyLinks_iter _ _ (fun _ _ => ?_) ?_

theorem tallyLinks_releaseLines {s : State} (num : Nat) (ids : List Nat) (hb : P s.links) :
    P (State.releaseLines s num ids).links := hb

theorem tallyLinks_takePosting {s : State} (hb : P s.links) : P (State.takePosting s).links := by
  unfold State.takePosting
  repeat' first
    | with_reducible assumption
    | with_reducible apply tallyLinks_pushOp
    | split

theorem tallyLinks_applyChange (num : Nat) (settled : Option Nat) {s : State} (c : TallyChange) (hb : P s.links) :
    P (State.applyChange num settled s c).links := by
  unfold State.applyChange
  try dsimp only
  repeat' first
    | with_reducible assumption
    | with_reducible apply tallyLinks_putLine
    | with_reducible apply tallyLinks_storeTally
    | split

theorem tallyLinks_applyChanges (num : Nat) (settled : Option Nat) {s : State} (cs : List TallyChange) (hb :
    P s.links) :
    P (State.applyChanges num settled s cs).links := by
  unfold State.applyChanges
  repeat' first
    | with_reducible assumption
    | with_reducible apply tallyLinks_applyChange
    | with_reducible refine tallyLinks_foldl _ _ (fun _ _ _ => ?_) ?_

theorem tallyLinks_beginRecount {s : State} (pool : Nat) (hb : P s.links) : P (State.beginRecount s pool).links := by
  unfold State.beginRecount
  repeat' first
    | with_reducible assumption
    | split

theorem tallyLinks_memberUnsettled {s : State} (pool : Nat) (hb : P s.links) :
    P (State.memberUnsettled s pool).links := by
  unfold State.memberUnsettled
  repeat' first
    | with_reducible assumption
    | with_reducible apply tallyLinks_modPrin

theorem tallyLinks_underflow (k : KeptByTally P) {s : State} (person blocks : Nat) (link : Link) (hb : P s.links) :
    P (State.underflow s person blocks link).links := by
  unfold State.underflow
  repeat' first
    | with_reducible assumption
    | with_reducible apply tallyLinks_raise k
    | split

theorem tallyLinks_jobNotices (k : KeptByTally P) {s : State} (j : Job) (h : P s.links) :
    P (s.jobNotices j).links := by
  cases j <;> simp only [State.jobNotices] <;> (try split) <;>
    first | with_reducible exact h | with_reducible exact tallyLinks_underflow k _ _ _ h

theorem tallyLinks_writeEdit {s : State} (id : Nat) (c : EditChanges) (hb : P s.links) :
    P (State.writeEdit s id c).links := by
  unfold State.writeEdit
  repeat' first
    | with_reducible assumption
    | with_reducible apply tallyLinks_modPrin

theorem tallyLinks_modMembers {s : State} (pool : Nat) (f : Nat → Nat) (hb : P s.links) :
    P (State.modMembers s pool f).links := by
  unfold State.modMembers
  repeat' first
    | with_reducible assumption
    | with_reducible apply tallyLinks_modPrin

theorem tallyLinks_moveCounts {s : State} (p : Principal) (id : Nat) (c : EditChanges) (hb : P s.links) :
    P (State.moveCounts s p id c).links := by
  unfold State.moveCounts
  repeat' first
    | with_reducible assumption
    | with_reducible apply tallyLinks_memberUnsettled
    | with_reducible apply tallyLinks_modMembers
    | with_reducible apply tallyLinks_modPrin
    | split
    | with_reducible refine tallyLinks_foldl _ _ (fun _ _ _ => ?_) ?_

theorem tallyLinks_deletePrincipal {s : State} (id : Nat) (hb : P s.links) :
    P (State.deletePrincipal s id).links := by
  unfold State.deletePrincipal
  repeat' first
    | with_reducible assumption
    | with_reducible apply tallyLinks_leaveGraceQueue
    | with_reducible apply tallyLinks_modMembers
    | split
    | with_reducible refine tallyLinks_foldl _ _ (fun _ _ _ => ?_) ?_

theorem tallyLinks_regatherIf {s : State} (again : TallyOp → Bool) (hb : P s.links) :
    P (State.regatherIf s again).links := by
  unfold State.regatherIf
  try dsimp only
  repeat' first
    | with_reducible assumption

theorem tallyLinks_regather {s : State} (id : Nat) (hb : P s.links) : P (State.regather s id).links := by
  unfold State.regather
  try dsimp only
  repeat' first
    | with_reducible assumption
    | with_reducible apply tallyLinks_regatherIf

theorem tallyLinks_jobRecords {s : State} (j : Job) (h : P s.links) : P (s.jobRecords j).links := by
  cases j <;> simp only [State.jobRecords] <;> (try split) <;>
    first
    | with_reducible exact h
    | with_reducible exact tallyLinks_foldl _ _ (fun _ _ h => tallyLinks_modPrin _ _ h) h
    | (split
       · with_reducible exact tallyLinks_regather _ (tallyLinks_writeEdit _ _ (tallyLinks_moveCounts _ _ _ h))
       · with_reducible exact tallyLinks_writeEdit _ _ (tallyLinks_moveCounts _ _ _ h))
    | with_reducible exact tallyLinks_regather _ (tallyLinks_deletePrincipal _ h)

theorem tallyLinks_jobApplied {s : State} (o : TallyOp) (ho : o.job.runsAtOnce = true) (h : P s.links) :
    P (s.jobApplied o).links := by
  unfold State.jobApplied
  split <;> simp_all [Job.runsAtOnce]

theorem tallyLinks_completeOp (k : KeptByTally P) {s : State} (num : Nat) (hb : P s.links) :
    P (State.completeOp s num).links := by
  unfold State.completeOp
  repeat' first
    | with_reducible assumption
    | with_reducible apply tallyLinks_dropOp
    | with_reducible apply tallyLinks_modOp
    | with_reducible apply tallyLinks_reply k
    | split

theorem tallyLinks_applyOp (k : KeptByTally P) {s : State} (num : Nat) (ho : ∀ o, s.op num = some o → o.job.runsAtOnce = true)
    (h : P s.links) : P (s.applyOp num).links := by
  unfold State.applyOp
  split
  · exact h
  · rename_i o he
    dsimp only
    have h1 := tallyLinks_applyChanges num o.job.settled (s.changesOf o)
      (tallyLinks_jobRecords o.job (tallyLinks_jobNotices k o.job h))
    refine tallyLinks_completeOp k _ (tallyLinks_jobApplied _ (ho o he) (tallyLinks_releaseLines _ _ (tallyLinks_modOp _ _
      (tallyLinks_foldl _ _ (fun _ _ h => tallyLinks_beginRecount _ h) (tallyLinks_evalGraceAll k _ ?_)))))
    exact h1

theorem tallyLinks_runOp (k : KeptByTally P) {s : State} (num : Nat) (ho : ∀ o, s.op num = some o → o.job.runsAtOnce = true)
    (h : P s.links) : P (s.runOp num).links := by
  have key : ∀ (ids : List Nat) (o : TallyOp), P (
      if ((s.lazyExpireAll ids).marksFor o.job.settled ((s.lazyExpireAll ids).changesOf o)).isEmpty = true then
        (s.lazyExpireAll ids).applyOp num
      else (s.lazyExpireAll ids).modOp num fun o => { o with stage := .marking }).links := by
    intro ids o
    split
    · refine tallyLinks_applyOp k _ (fun o he => ho o ?_) (tallyLinks_lazyExpireAll k _ h)
      simpa [State.op, ops_lazyExpireAll] using he
    · exact tallyLinks_modOp _ _ (tallyLinks_lazyExpireAll k _ h)
  unfold State.runOp
  split
  · exact h
  · exact key _ _

theorem tallyLinks_advanceOp (k : KeptByTally P) {s : State} (num : Nat) (h : P s.links) :
    P (s.advanceOp num).links := by
  unfold State.advanceOp
  dsimp only
  split
  · exact tallyLinks_gather _ h
  · rename_i o he
    split
    · rename_i hr
      split
      · exact tallyLinks_reply k _ _ _ _ (tallyLinks_dropOp _ (tallyLinks_releaseLines _ _ (tallyLinks_gather _ h)))
      · refine tallyLinks_runOp k _ (fun o' he' => ?_) (tallyLinks_gather _ h)
        rw [he] at he'
        cases he'
        exact hr.2
    · exact tallyLinks_gather _ h

theorem tallyLinks_advanceOps (k : KeptByTally P) {s : State} (hb : P s.links) : P (State.advanceOps s).links := by
  unfold State.advanceOps
  repeat' first
    | with_reducible assumption
    | with_reducible apply tallyLinks_advanceOp k
    | with_reducible refine tallyLinks_foldl _ _ (fun _ _ _ => ?_) ?_

theorem tallyLinks_endModeSwitch (k : KeptByTally P) {s : State} (hb : P s.links) :
    P (State.endModeSwitch s).links := by
  unfold State.endModeSwitch
  try dsimp only
  repeat' first
    | with_reducible assumption
    | with_reducible apply tallyLinks_reply k
    | split
    | with_reducible refine tallyLinks_foldl _ _ (fun _ _ _ => ?_) ?_

theorem tallyLinks_advance (k : KeptByTally P) {s : State} (hb : P s.links) : P (State.advance s).links := by
  unfold State.advance
  try dsimp only
  repeat' first
    | with_reducible assumption
    | with_reducible apply tallyLinks_advanceOps k
    | with_reducible apply tallyLinks_castoutDirty
    | with_reducible apply tallyLinks_endModeSwitch k
    | with_reducible apply tallyLinks_takePosting
    | split
    | with_reducible refine tallyLinks_iter _ _ (fun _ _ => ?_) ?_

end Sys2Proof.Machine
end

section
/-! PROOF. Transmission, the idle time and Subscribe (R159, R174, R177, R178, R182). -/

namespace Sys2Proof.Machine

/-! ### Transmission -/

/-- What an UP link puts on the wire for the head of its waiting frames (R174). -/
def State.wired (s : State) : TxFrame → LinkFrame
  | .reply tag k st b => .reply tag k st b
  | .directive tag b => .directive tag b
  | .chunk tag idx n => .chunk tag idx (match s.slot n with
    | some x => x.data
    | none => [])

theorem exec_linkTransmit_running {s : State} (l : Link) (h : s.sup.op ≠ .halted) :
    Machine.exec (.linkTransmit l []) s = .next (({ s with sent := [] } : State).transmit l).finish := by
  refine (if_neg h).trans ((act_running _ h).trans (congrArg Host.Outcome.next ?_))
  exact if_neg h

theorem transmit_frame {s : State} {l : Link} {f : TxFrame} {rest : List TxFrame} (hup : (s.link l).up = true)
    (htx : (s.link l).tx = f :: rest) :
    s.transmit l = (s.modLink l fun r => { r with tx := rest }).send (.link l (s.wired f)) := by
  unfold State.transmit
  rw [hup, if_neg (by simp), htx]
  cases f <;> rfl

theorem transmit_notice {s : State} {l : Link} {n : Notice} {rest : List Notice} (hup : (s.link l).up = true)
    (htx : (s.link l).tx = []) (hnot : (s.link l).notices = n :: rest) :
    s.transmit l = (s.modLink l fun r => { r with notices := rest }).send (.link l (.notice n)) := by
  unfold State.transmit
  rw [hup, if_neg (by simp), htx, hnot]

/-- What the end of a step adds to a link: frames and notices behind those that wait, outputs behind those sent. -/
theorem finish_adds (u : State) (l : Link) :
    (u.link l).tx <+: (u.finish.link l).tx ∧ (u.link l).notices <+: (u.finish.link l).notices ∧
      u.sent <+: u.finish.sent := by
  obtain ⟨-, hlink, -, -, -, -, hsent⟩ := finish_settles u
  obtain ⟨-, -, htx, hnot⟩ := hlink l
  exact ⟨htx, hnot, hsent⟩

/-! ### The idle time -/

/-- No work of the Tally Unit makes an IDLE link BUSY. -/
theorem keptByTally_idle (l : Link) : KeptByTally fun ls => ls[l].idle = true := by
  have hset (ls : Vector LinkRec 6) (j : Link) (r : LinkRec) (hr : r.idle = ls[j].idle) (h : ls[l].idle = true) :
      (ls.set j r)[l].idle = true := by
    by_cases hj : (j : Nat) = (l : Nat)
    · obtain rfl : j = l := Fin.ext hj
      simpa [hr] using h
    · simpa [Vector.getElem_set, hj] using h
  refine ⟨fun ls j n _ => hset ls j _ ?_, fun ls j req st b => hset ls j _ ?_, fun ls j now => hset ls j _ rfl⟩
  · unfold LinkRec.queueNotice
    split <;> rfl
  · unfold LinkRec.reply
    split <;> rfl

/-- With the Patrol Unit at rest, a link that is IDLE at the end of a step's work is so at the end of the step. -/
theorem finish_idle {u : State} {l : Link} (hpat : u.patrolStill) (hrun : u.sup.op ≠ .halted)
    (h : (u.link l).idle = true) : (u.finish.link l).idle = true := by
  have hadvance : (u.advance.link l).idle = true := tallyLinks_advance (keptByTally_idle l) h
  rw [finish_patrolStill hpat hrun]
  have hlinks : u.advance.settleLink.links = u.advance.links :=
    congrArg (fun x => x.2.1) (settleLink_beside u.advance)
  rw [State.link_congr hlinks l]
  exact hadvance

theorem exec_linkIdle {s : State} (l : Link) (h : s.sup.op ≠ .halted) :
    Machine.exec (.linkIdle l) s =
      .next (if s.mayIdle l then (({ s with sent := [] } : State).modLink l fun r => { r with idle := true }).finish
        else { s with sent := [] }) :=
  (act_running _ h).trans (congrArg Host.Outcome.next (withErrs_nil _ h))

/-! ### Subscribe -/

theorem mem_distinctNat {n : Nat} {xs : List Nat} : n ∈ distinctNat xs ↔ n ∈ xs := by
  rw [distinctNat, mem_sortNat, List.mem_eraseDups]

/-- A start-up notice queued to a link that receives it. -/
def State.offerStartup (l : Link) (s : State) (n : Notice) : State :=
  if s.receives n.body l then s.modLink l (·.queueNotice n) else s

theorem offerStartup_beside (l : Link) (s : State) (n : Notice) :
    s.offerStartup l n = { s with links := (s.offerStartup l n).links } := by
  unfold State.offerStartup
  split <;> rfl

theorem offerStartup_link_ne {l j : Link} (s : State) (n : Notice) (h : l ≠ j) :
    (s.offerStartup l n).link j = s.link j := by
  unfold State.offerStartup
  split
  · simp [h]
  · rfl

/-- What start-up notices offered to a link leave of it. -/
theorem offerStartup_link (l : Link) (s : State) (n : Notice) :
    ∃ more d, (s.offerStartup l n).link l =
        { s.link l with notices := (s.link l).notices ++ more, dropped := d } ∧ more.length ≤ 1 ∧
      ((s.link l).notices.length < 32 → s.receives n.body l = true → more = [n]) := by
  unfold State.offerStartup
  split
  next hrec =>
    rw [State.link_modLink_self]
    by_cases hlen : (s.link l).notices.length < 32
    · exact ⟨[n], (s.link l).dropped, if_pos hlen, le_refl _, fun _ _ => rfl⟩
    · refine ⟨[], (s.link l).dropped + 1, (if_neg hlen).trans ?_, Nat.zero_le _, fun h => absurd h hlen⟩
      rw [List.append_nil]
  next hrec =>
    exact ⟨[], (s.link l).dropped, by rw [List.append_nil], Nat.zero_le _, fun _ h => absurd h hrec⟩

theorem receives_congr {s t : State} {l : Link} (b : NoticeBody) (hup : (t.link l).up = (s.link l).up)
    (hsubs : (t.link l).subs = (s.link l).subs) (hrole : t.role l = s.role l) :
    t.receives b l = s.receives b l := by
  simp only [State.receives, hup, hsubs, hrole]

/-- The start-up notices offered in turn: the link's other registers stand, and with room for all of them each
that the link receives is queued. -/
theorem offerStartups (l : Link) (ns : List Notice) (s : State) :
    (ns.foldl (State.offerStartup l) s = { s with links := (ns.foldl (State.offerStartup l) s).links }) ∧
      (∀ j, l ≠ j → (ns.foldl (State.offerStartup l) s).link j = s.link j) ∧
      ∃ more d, (ns.foldl (State.offerStartup l) s).link l =
          { s.link l with notices := (s.link l).notices ++ more, dropped := d } ∧
        ((s.link l).notices.length + ns.length ≤ 32 → ∀ n ∈ ns, s.receives n.body l = true → n ∈ more) := by
  induction ns generalizing s with
  | nil => exact ⟨rfl, fun _ _ => rfl, [], (s.link l).dropped, by simp, by simp⟩
  | cons n ns ih =>
    obtain ⟨hbeside, hne, more, d, hlink, hmore⟩ := ih (s.offerStartup l n)
    obtain ⟨first, d', hfirst, hlen, hqueued⟩ := offerStartup_link l s n
    rw [List.foldl_cons]
    refine ⟨?_, fun j hj => (hne j hj).trans (offerStartup_link_ne s n hj), first ++ more, d, ?_, ?_⟩
    · rw [hbeside, offerStartup_beside]
    · rw [hlink, hfirst]
      simp
    · intro hroom m hm hrec
      rcases List.mem_cons.mp hm with rfl | hm
      · rw [hqueued (by simp only [List.length_cons] at hroom; omega) hrec]
        simp
      · refine List.mem_append_right _ (hmore ?_ m hm ?_)
        · rw [hfirst]
          simp only [List.length_append, List.length_cons] at hroom ⊢
          omega
        · have hsame : (s.offerStartup l n).receives m.body l = s.receives m.body l :=
            receives_congr m.body (by rw [hfirst]) (by rw [hfirst]) (by rw [offerStartup_beside]; rfl)
          rwa [hsame]

/-- The classes of a list that have not been delivered to a link. -/
def State.undelivered (s : State) (l : Link) (classes : List Nat) : List Nat :=
  classes.filter fun c => !((s.link l).delivered.contains c)

/-- The start-up notices of the classes newly delivered. -/
def State.startupFor (s : State) (l : Link) (classes : List Nat) : List Notice :=
  s.sup.startup.filter fun n => (s.undelivered l classes).contains n.body.cls

/-- What delivering the start-up notices leaves: all beside the link, and its registers but for the notices and
the delivered set. -/
theorem deliverStartup_spec (s : State) (l : Link) (classes : List Nat) :
    (s.deliverStartup l classes = { s with links := (s.deliverStartup l classes).links }) ∧
      (∀ j, l ≠ j → (s.deliverStartup l classes).link j = s.link j) ∧
      ∃ more d, (s.deliverStartup l classes).link l =
          { s.link l with
            notices := (s.link l).notices ++ more, dropped := d
            delivered := distinctNat ((s.link l).delivered ++ s.undelivered l classes) } ∧
        ((s.link l).notices.length + s.sup.startup.length ≤ 32 →
          ∀ n ∈ s.startupFor l classes, s.receives n.body l = true → n ∈ more) := by
  obtain ⟨hbeside, hne, more, d, hlink, hmore⟩ := offerStartups l (s.startupFor l classes) s
  have hform : s.deliverStartup l classes = ((s.startupFor l classes).foldl (State.offerStartup l) s).modLink l
      fun r => { r with delivered := distinctNat (r.delivered ++ s.undelivered l classes) } := rfl
  rw [hform]
  refine ⟨?_, fun j hj => ?_, more, d, ?_, fun hroom => hmore ?_⟩
  · rw [hbeside]
    rfl
  · rw [State.link_modLink, if_neg hj, hne j hj]
  · rw [State.link_modLink_self, hlink]
  · have hle : (s.startupFor l classes).length ≤ s.sup.startup.length := List.length_filter_le _ _
    omega

/-- A link's subscription set replaced and its start-up notices delivered (R177, R178). -/
def State.subscribed (s : State) (l : Link) (classes : List Nat) : State :=
  (s.modLink l fun r => { r with subs := distinctNat classes }).deliverStartup l (distinctNat classes)

theorem exec_subscribe_refused {s : State} {l : Link} (tag : Nat) {classes : List Nat} (h : s.takes l)
    (hc : ∃ c ∈ classes, 10 < c) :
    Machine.exec (.subscribe l tag classes) s = .next (s.replied l tag .subscribe .range .none) := by
  refine (act_asked tag .subscribe _ h (.inl rfl)).trans ?_
  rw [if_pos (by simpa using hc)]
  rfl

theorem exec_subscribe_done {s : State} {l : Link} (tag : Nat) {classes : List Nat} (h : s.takes l)
    (hc : ∀ c ∈ classes, c ≤ 10) :
    Machine.exec (.subscribe l tag classes) s =
      .next (((s.asked l tag .subscribe).subscribed l classes).reply l s.sup.nextReq .done .none).finish := by
  refine (act_asked tag .subscribe _ h (.inl rfl)).trans ?_
  rw [if_neg (by simpa using hc)]
  rfl

/-- A link that is UP receives each notice of its set but RESTORE_END (R100, R177). -/
theorem receives_of_mem {s : State} {l : Link} {b : NoticeBody} (hup : (s.link l).up = true)
    (hsub : b.cls ∈ (s.link l).subs) (h : b.cls ≠ 3) : s.receives b l = true := by
  cases b <;> simp_all [State.receives, NoticeBody.cls]

/-- What a Subscribe makes of its link, and that it leaves the others and all beside the links. -/
theorem subscribed_spec {s : State} {l : Link} (classes : List Nat) (hup : (s.link l).up = true) :
    (s.subscribed l classes = { s with links := (s.subscribed l classes).links }) ∧
      (∀ j, l ≠ j → (s.subscribed l classes).link j = s.link j) ∧
      ∃ more d, (s.subscribed l classes).link l =
          { s.link l with
            subs := distinctNat classes, notices := (s.link l).notices ++ more, dropped := d
            delivered := distinctNat ((s.link l).delivered ++ s.undelivered l (distinctNat classes)) } ∧
        ((s.link l).notices.length + s.sup.startup.length ≤ 32 →
          ∀ n ∈ s.sup.startup, n.body.cls ∈ classes → n.body.cls ∉ (s.link l).delivered → n.body.cls ≠ 3 →
            n ∈ more) := by
  let u := s.modLink l fun r => { r with subs := distinctNat classes }
  have hu : u.link l = { s.link l with subs := distinctNat classes } := State.link_modLink_self s l _
  obtain ⟨hbeside, hne, more, d, hlink, hmore⟩ := deliverStartup_spec u l (distinctNat classes)
  have hfresh : u.undelivered l (distinctNat classes) = s.undelivered l (distinctNat classes) := by
    simp only [State.undelivered, hu]
  rw [hfresh, hu] at hlink
  rw [hu] at hmore
  refine ⟨hbeside, fun j hj => (hne j hj).trans (by simp [u, hj]), more, d, hlink, ?_⟩
  intro hroom n hn hcls hnew hne3
  refine hmore hroom n ?_ (receives_of_mem (by rw [hu]; exact hup) (by rw [hu]; exact mem_distinctNat.mpr hcls) hne3)
  rw [State.startupFor, hfresh, List.mem_filter]
  exact ⟨hn, by simp [State.undelivered, mem_distinctNat, hcls, hnew]⟩

/-- The classes delivered after a Subscribe are those before it and those it names. -/
theorem mem_delivered {s : State} {l : Link} {classes : List Nat} {c : Nat} :
    c ∈ distinctNat ((s.link l).delivered ++ s.undelivered l (distinctNat classes)) ↔
      c ∈ (s.link l).delivered ∨ c ∈ classes := by
  by_cases hc : c ∈ (s.link l).delivered <;> simp [mem_distinctNat, State.undelivered, hc]

end Sys2Proof.Machine

open Sys2Proof Sys2Proof.Machine

/-- Settles O17: the head of the waiting frames, or with none of those the head notice, leaves its list and is
sent; in HALTED the notice of the halt alone. -/
theorem repliesGoBeforeNotices : Obligations.RepliesGoBeforeNotices := by
  refine ⟨fun s l f rest hrun hup htx => ?_, fun s l n rest hrun hup htx hnot => ?_, fun s l n hhalt hn => ?_,
    fun s l hhalt hn => ?_⟩
  · have hsent := transmit_frame (s := { s with sent := [] }) hup htx
    obtain ⟨⟨more, hmore⟩, hnotices, ⟨out, hout⟩⟩ := finish_adds (({ s with sent := [] } : State).transmit l) l
    rw [hsent] at hmore hnotices hout
    refine ⟨_, more, out, exec_linkTransmit_running l hrun, supKept_finish_of (supKept_of_eq ?_), ?_, ?_, ?_⟩
    · rw [hsent]; rfl
    · rw [hsent, ← hout]
      cases f <;> rfl
    · rw [hsent, ← hmore]
      simp [State.send, State.modLink, State.link]
    · rw [hsent]
      simpa [State.send, State.modLink, State.link] using hnotices
  · have hsent := transmit_notice (s := { s with sent := [] }) hup htx hnot
    obtain ⟨-, ⟨more, hmore⟩, ⟨out, hout⟩⟩ := finish_adds (({ s with sent := [] } : State).transmit l) l
    rw [hsent] at hmore hout
    refine ⟨_, more, out, exec_linkTransmit_running l hrun, supKept_finish_of (supKept_of_eq ?_), ?_, ?_⟩
    · rw [hsent]; rfl
    · rw [hsent, ← hout]; rfl
    · rw [hsent, ← hmore]
      simp [State.send, State.modLink, State.link]
  · have hsome := transmitHalted_some (s := { s with sent := [] }) (l := l) hn
    refine ⟨_, exec_linkTransmit_halted l [] hhalt, ?_, ?_, ?_⟩ <;> rw [hsome]
    · rfl
    · simp [State.send, State.modLink, State.link]
    · rfl
  · rw [exec_linkTransmit_halted l [] hhalt, transmitHalted_none (s := { s with sent := [] }) hn]

/-- Settles O18. -/
theorem linkIdlesAndSubscribes : Obligations.LinkIdlesAndSubscribes := by
  refine ⟨⟨fun s l hrun hpat hup hidle hq hd htime => ?_, fun s l hrun hnot => ?_⟩,
    fun s l tag classes h hc => ?_, fun s l tag classes h hc => ?_⟩
  · let u := ({ s with sent := [] } : State).modLink l fun r => { r with idle := true }
    have hmay : s.mayIdle l = true := by simp [State.mayIdle, hup, hidle, hq, hd, htime]
    have hu : u.link l = { s.link l with idle := true } := State.link_modLink_self _ _ _
    obtain ⟨kup, kdir, -⟩ := finish_link_kept u l
    rw [hu] at kup kdir
    refine ⟨u.finish, (exec_linkIdle l hrun).trans (congrArg Host.Outcome.next (if_pos hmay)),
      supKept_finish_of (supKept_refl _), finish_idle hpat hrun (by rw [hu]), kup.trans hup, kdir.trans hd,
      finish_pat hpat, finish_rst u⟩
  · have hmay : s.mayIdle l = false := by
      rcases hnot with hup | hq | hd | htime
      · simp [State.mayIdle, hup]
      · simp [State.mayIdle, hq]
      · simp [State.mayIdle, hd]
      · simp [State.mayIdle, Nat.not_le.mpr htime]
    rw [exec_linkIdle l hrun, hmay]
    rfl
  · let a := s.asked l tag .subscribe
    let u := (a.subscribed l classes).reply l s.sup.nextReq .done .none
    have ha : a.link l = _ := asked_link s l tag .subscribe
    obtain ⟨hbeside, hne, more, d, hlink, hmore⟩ := subscribed_spec (s := a) (l := l) classes (by rw [ha])
    obtain ⟨-, -, ksubs, kdel, -⟩ := finish_link_kept u l
    obtain ⟨-, -, rsubs, rdel, -, -, rnot, -⟩ := reply_link_kept (a.subscribed l classes) l s.sup.nextReq .done .none
    obtain ⟨-, hnotices, -⟩ := finish_adds u l
    have hstartup : a.sup.startup = s.sup.startup := rfl
    have hdel : (a.link l).delivered = (s.link l).delivered := by rw [ha]
    have hnots : (a.link l).notices = (s.link l).notices := by rw [ha]
    rw [hdel, hnots, hstartup] at hmore
    refine ⟨_, exec_subscribe_done tag h hc, supKept_finish_of ?_, answered_finish .done .none h ?_, fun c => ?_,
      fun c => ?_, fun hroom n hn hcls hnew hne3 => ?_, fun k hk => ?_, ?_, ?_⟩
    · show supKept s.sup (a.subscribed l classes).sup
      rw [hbeside]
      exact supKept_refl _
    · exact (entered_asked s l tag .subscribe).of_kept (by rw [hlink]) (by rw [hlink]) (by rw [hlink])
    · rw [ksubs, rsubs, hlink]
      exact mem_distinctNat
    · rw [kdel, rdel, hlink]
      show c ∈ distinctNat ((a.link l).delivered ++ _) ↔ _
      rw [mem_delivered, hdel]
    · refine hnotices.subset ?_
      rw [rnot, hlink]
      exact List.mem_append_right _ (hmore hroom n hn hcls hnew hne3)
    · obtain ⟨-, -, hsubs, -⟩ := finish_link_kept u k
      rw [hsubs, reply_link_ne _ _ _ _ (Ne.symm hk), hne k (Ne.symm hk), asked_link_ne s tag _ (Ne.symm hk)]
    · rw [finish_rst]
      show (a.subscribed l classes).rst = s.rst
      rw [hbeside]
      rfl
    · obtain ⟨-, -, hcat, -⟩ := finish_settles u
      have hcat' : u.cat = s.cat := by
        show (a.subscribed l classes).cat = s.cat
        rw [hbeside]
        rfl
      rwa [hcat'] at hcat
  · exact ⟨_, exec_subscribe_refused tag h hc, answered_replied tag _ _ _ h, spared_replied tag _ _ _ h⟩
end

section
/-! PROOF. Query, Table Read and Table Next (R179). -/

namespace Sys2Proof.Machine

/-! ### Query -/

theorem exec_query {s : State} {l : Link} (tag : Nat) (q : QuerySubject) (h : s.takes l) :
    Machine.exec (.query l tag q []) s =
      .next (match s.lookup q with
        | .ok v => s.replied l tag .query .done (.record v)
        | .error st => s.replied l tag .query st .none) := by
  refine (act_asked tag .query _ h (.inl rfl)).trans (congrArg Host.Outcome.next ?_)
  change State.finish (match s.lookup q with | .ok v => _ | .error st => _) = _
  cases s.lookup q <;> rfl

/-- What a Query is answered, of what its subject looks up. -/
def queryReply : Except Status RecordView → Status × ReplyBody
  | .ok v => (.done, .record v)
  | .error st => (st, .none)

theorem exec_query_replied {s : State} {l : Link} (tag : Nat) (q : QuerySubject) (h : s.takes l) :
    Machine.exec (.query l tag q []) s =
      .next (s.replied l tag .query (queryReply (s.lookup q)).1 (queryReply (s.lookup q)).2) := by
  rw [exec_query tag q h]
  cases s.lookup q <;> rfl

/-! ### Table reads -/

theorem keysFrom_asked (s : State) (l : Link) (tag : Nat) (k : ReqKind) (table : TableName) (start n : Nat) :
    (s.asked l tag k).keysFrom table start n = s.keysFrom table start n := rfl

/-- The end of a table read answered with its records (R179). -/
def State.tableRead (s : State) (l : Link) (tag : Nat) (k : ReqKind) (table : TableName) (start count : Nat)
    (ks : List Nat) : State :=
  ((s.asked l tag k).readTable l s.sup.nextReq table start count ks).finish

/-- Where a link's cursor stands after a read (R179). -/
def State.nextKey (s : State) (table : TableName) (start count : Nat) (ks : List Nat) : Nat :=
  match (s.readKeys table count ks).getLast? with
  | some k => k + 1
  | none => start

section
variable {s : State} {l : Link} (tag : Nat) (k : ReqKind) (table : TableName) (start count : Nat) (ks : List Nat)

theorem answered_tableRead (h : s.takes l) :
    Answered s (s.tableRead l tag k table start count ks) l tag k .done
      (.table ((s.readKeys table count ks).map (s.viewAt table))
        (decide (ks.length ≤ (s.readKeys table count ks).length))) :=
  answered_finish .done _ h ((entered_asked s l tag k).of_kept (by simp) (by simp) (by simp))

theorem cursor_tableRead :
    ((s.tableRead l tag k table start count ks).link l).cursor =
      some { table := table, key := s.nextKey table start count ks, detached := false } := by
  obtain ⟨-, -, -, -, hfinish, -⟩ :=
    finish_link_kept ((s.asked l tag k).readTable l s.sup.nextReq table start count ks) l
  refine hfinish.trans ?_
  unfold State.readTable
  obtain ⟨-, -, -, -, hreply, -⟩ := reply_link_kept _ l s.sup.nextReq _ _
  refine hreply.trans ?_
  rw [State.link_modLink_self]
  rfl

theorem supKept_tableRead : SupKept s (s.tableRead l tag k table start count ks) :=
  supKept_finish_of (supKept_refl _)

theorem rst_tableRead : (s.tableRead l tag k table start count ks).rst = s.rst := finish_rst _

theorem rst_replied (st : Status) (b : ReplyBody) : (s.replied l tag k st b).rst = s.rst := finish_rst _

theorem supKept_replied (st : Status) (b : ReplyBody) : SupKept s (s.replied l tag k st b) :=
  supKept_finish_of (supKept_refl _)

end

/-- A count that a read may name (R179). -/
abbrev countOk (count : Nat) : Prop := 1 ≤ count ∧ count ≤ 64

section
variable {s : State} {l : Link} (tag : Nat) {table : TableName} {start count : Nat}

theorem exec_tableRead_range (h : s.takes l) (hc : count = 0 ∨ 64 < count) :
    Machine.exec (.tableRead l tag table start count []) s = .next (s.replied l tag .tableRead .range .none) := by
  refine (act_asked tag .tableRead _ h (.inl rfl)).trans ?_
  rw [if_pos (by omega)]
  rfl

theorem exec_tableRead_refused {st : Status} (h : s.takes l) (hc : countOk count)
    (hk : s.keysFrom table start (count + 1) = .error st) :
    Machine.exec (.tableRead l tag table start count []) s = .next (s.replied l tag .tableRead st .none) := by
  refine (act_asked tag .tableRead _ h (.inl rfl)).trans ?_
  rw [if_neg (by omega), keysFrom_asked, hk]
  rfl

theorem exec_tableRead_done {ks : List Nat} (h : s.takes l) (hc : countOk count)
    (hk : s.keysFrom table start (count + 1) = .ok ks) :
    Machine.exec (.tableRead l tag table start count []) s =
      .next (s.tableRead l tag .tableRead table start count ks) := by
  refine (act_asked tag .tableRead _ h (.inl rfl)).trans ?_
  rw [if_neg (by omega), keysFrom_asked, hk]
  rfl

/-- The end of a Table Next whose cursor is cleared (R179). -/
def State.cursorCleared (s : State) (l : Link) (tag : Nat) (st : Status) : State :=
  (((s.asked l tag .tableNext).modLink l fun r => { r with cursor := none }).reply l s.sup.nextReq st .none).finish

theorem cursorCleared_cleared (st : Status) (h : s.takes l) :
    Answered s (s.cursorCleared l tag st) l tag .tableNext st .none ∧
      ((s.cursorCleared l tag st).link l).cursor = none := by
  refine ⟨answered_finish st .none h ((entered_asked s l tag .tableNext).of_kept (by simp) (by simp) (by simp)), ?_⟩
  obtain ⟨-, -, -, -, hfinish, -⟩ := finish_link_kept
    (((s.asked l tag .tableNext).modLink l fun r => { r with cursor := none }).reply l s.sup.nextReq st .none) l
  refine hfinish.trans ?_
  obtain ⟨-, -, -, -, hreply, -⟩ := reply_link_kept _ l s.sup.nextReq _ _
  refine hreply.trans ?_
  rw [State.link_modLink_self]

/-- Table Next with no cursor, or of a count out of range. -/
theorem exec_tableNext_range (h : s.takes l) (hc : (s.link l).cursor = none ∨ count = 0 ∨ 64 < count) :
    Machine.exec (.tableNext l tag count []) s = .next (s.replied l tag .tableNext .range .none) := by
  refine (act_asked tag .tableNext _ h (.inl rfl)).trans ?_
  have hcur : ((s.asked l tag .tableNext).link l).cursor = (s.link l).cursor := by rw [asked_link]
  rw [hcur]
  cases hlink : (s.link l).cursor with
  | none => rfl
  | some c =>
    have hcount : count < 1 ∨ 64 < count := by
      rcases hc with hc | hc
      · rw [hlink] at hc; cases hc
      · omega
    dsimp only
    rw [if_pos hcount]
    rfl

variable {c : Cursor}

/-- Table Next at a cursor: a detached one is cleared, and otherwise its table is read on. -/
theorem exec_tableNext_at (h : s.takes l) (hcur : (s.link l).cursor = some c) (hc : countOk count) :
    Machine.exec (.tableNext l tag count []) s =
      .next (if c.detached then s.cursorCleared l tag .unknownVolume
        else match s.keysFrom c.table c.key (count + 1) with
          | .ok ks => s.tableRead l tag .tableNext c.table c.key count ks
          | .error st => s.cursorCleared l tag st) := by
  refine (act_asked tag .tableNext _ h (.inl rfl)).trans ?_
  have hlink : ((s.asked l tag .tableNext).link l).cursor = some c := by rw [asked_link]; exact hcur
  rw [hlink]
  dsimp only
  rw [if_neg (by omega), keysFrom_asked]
  congr 1
  split
  · rfl
  · cases s.keysFrom c.table c.key (count + 1) <;> rfl

end

/-! ### The records that a reply holds -/

/-- Of records behind those already in a reply, `recordsThatFit` counts the most that fit. -/
theorem recordsThatFit_spec (done vs : List RecordView) :
    recordsThatFit done vs ≤ vs.length ∧
      (0 < recordsThatFit done vs → Config.tableBytes (done ++ vs.take (recordsThatFit done vs)) ≤ maxBody) ∧
      (recordsThatFit done vs < vs.length →
        maxBody < Config.tableBytes (done ++ vs.take (recordsThatFit done vs + 1))) := by
  induction vs generalizing done with
  | nil => simp [recordsThatFit]
  | cons v vs ih =>
    unfold recordsThatFit
    split
    next hfits =>
      obtain ⟨hle, hok, hnext⟩ := ih (done ++ [v])
      have hcons (n : Nat) : done ++ (v :: vs).take (n + 1) = done ++ [v] ++ vs.take n := by simp
      refine ⟨Nat.succ_le_succ hle, fun _ => ?_, fun hlt => ?_⟩
      · rw [hcons]
        by_cases hzero : recordsThatFit (done ++ [v]) vs = 0
        · rw [hzero]
          simpa using hfits
        · exact hok (Nat.pos_of_ne_zero hzero)
      · rw [hcons]
        exact hnext (Nat.lt_of_succ_lt_succ hlt)
    next hover =>
      refine ⟨Nat.zero_le _, fun hpos => absurd hpos (Nat.lt_irrefl 0), fun _ => ?_⟩
      simpa using hover

theorem take_take_of_lt {α : Type} {xs : List α} {n m : Nat} (h : n ≤ m) : (xs.take m).take n = xs.take n := by
  rw [List.take_take, Nat.min_eq_left h]

theorem readKeys_spec (s : State) (table : TableName) (count : Nat) (ks : List Nat) :
    ∃ n, n ≤ count ∧ s.readKeys table count ks = ks.take n ∧
      (0 < n → n ≤ ks.length → Config.tableBytes ((ks.take n).map (s.viewAt table)) ≤ 1048576) ∧
      (n < count → n < ks.length → 1048576 < Config.tableBytes ((ks.take (n + 1)).map (s.viewAt table))) := by
  let vs := (ks.take count).map (s.viewAt table)
  have hlen : vs.length = min count ks.length := by simp [vs]
  obtain ⟨hle, hok, hnext⟩ := recordsThatFit_spec [] vs
  have htake {n : Nat} (hn : n ≤ count) : vs.take n = (ks.take n).map (s.viewAt table) := by
    rw [← List.map_take, take_take_of_lt hn]
  rw [hlen] at hle hnext
  refine ⟨recordsThatFit [] vs, le_trans hle (min_le_left _ _), rfl, fun hpos _ => ?_, fun hlt hlt' => ?_⟩
  · rw [← htake (le_trans hle (min_le_left _ _))]
    exact hok hpos
  · rw [← htake hlt]
    exact hnext (lt_min hlt hlt')

/-! ### The keys of a table -/

theorem filter_range_take (m start n : Nat) :
    ((List.range m).filter fun k => decide (start ≤ k)).take n = List.range' start (min n (m - start)) := by
  have hfilter : ∀ m, (List.range m).filter (fun k => decide (start ≤ k)) = List.range' start (m - start) := by
    intro m
    induction m with
    | zero => simp
    | succ m ih =>
      rw [List.range_succ, List.filter_append, ih]
      by_cases hm : start ≤ m
      · rw [Nat.succ_sub hm, List.range'_concat]
        simp [hm]
      · rw [Nat.sub_eq_zero_of_le (by omega : m + 1 ≤ start), Nat.sub_eq_zero_of_le (by omega : m ≤ start)]
        simp [hm]
  rw [hfilter]
  refine List.ext_getElem (by simp) fun i _ _ => ?_
  simp

theorem risingFrom_keys {α : Type} (b : Nat) (t : Tbl α) (h : risingFrom b t = true) :
    (t.map Prod.fst).Pairwise (· < ·) ∧ ∀ k ∈ t.map Prod.fst, b ≤ k := by
  induction t generalizing b with
  | nil => simp
  | cons kv t ih =>
    simp only [risingFrom, Bool.and_eq_true, decide_eq_true_eq] at h
    obtain ⟨hb, ht⟩ := h
    obtain ⟨hpair, hle⟩ := ih _ ht
    rw [List.map_cons, List.pairwise_cons]
    refine ⟨⟨fun k hk => hle k hk, hpair⟩, fun k hk => ?_⟩
    rcases List.mem_cons.mp hk with rfl | hk
    · exact hb
    · exact le_trans (Nat.le_succ_of_le hb) (hle k hk)

/-- The first keys at or above a start key, of keys that rise, rise. -/
theorem keys_taken {xs : List Nat} (start n : Nat) (h : xs.Pairwise (· < ·)) :
    ((xs.filter fun k => decide (start ≤ k)).take n).Pairwise (· < ·) ∧
      ((xs.filter fun k => decide (start ≤ k)).take n).length ≤ n ∧
      ∀ k ∈ (xs.filter fun k => decide (start ≤ k)).take n, start ≤ k := by
  refine ⟨(h.filter _).sublist (List.take_sublist _ _), List.length_take_le _ _, fun k hk => ?_⟩
  simpa using (List.mem_filter.mp (List.mem_of_mem_take hk)).2

theorem keys_ranged (start n m : Nat) :
    (List.range' start (min n m)).Pairwise (· < ·) ∧ (List.range' start (min n m)).length ≤ n ∧
      ∀ k ∈ List.range' start (min n m), start ≤ k := by
  refine ⟨List.pairwise_lt_range', ?_, fun k hk => (List.mem_range'_1.mp hk).1⟩
  rw [List.length_range']
  exact min_le_left _ _

theorem keysFrom_rising {s : State} {table : TableName} {start n : Nat} {ks : List Nat}
    (hp : Tbl.wf s.tally.principals = true) (hc : Tbl.wf s.cat.snapshots = true)
    (h : s.keysFrom table start n = .ok ks) : ks.Pairwise (· < ·) ∧ ks.length ≤ n ∧ ∀ k ∈ ks, start ≤ k := by
  cases table with
  | principals => cases h; exact keys_taken start n (risingFrom_keys 0 _ hp).1
  | snapshots => cases h; exact keys_taken start n (risingFrom_keys 0 _ hc).1
  | classes => cases h; exact keys_taken start n List.pairwise_lt_range
  | volumes => cases h; exact keys_taken start n List.pairwise_lt_range
  | restores => cases h; exact keys_taken start n List.pairwise_lt_range
  | unknown c => cases h
  | extents vol =>
    unfold State.keysFrom at h
    dsimp only at h
    split at h
    · cases h
    · cases h
      exact keys_ranged start n _

end Sys2Proof.Machine

open Sys2Proof Sys2Proof.Machine

/-- Settles O55: the lookup by subject, the reads by what their checks find, then the keys and the views of each
table. -/
theorem queryAndTableReadsReportTheRecords : Obligations.QueryAndTableReadsReportTheRecords := by
  refine ⟨fun s l tag q h => ?_, fun s l tag start count table h => ?_, fun s l tag count h => ?_,
    readKeys_spec, fun s start n => ?_, fun s table start n ks hp hc hk => keysFrom_rising hp hc hk, fun s k => ?_⟩
  · refine ⟨_, (queryReply (s.lookup q)).1, (queryReply (s.lookup q)).2, exec_query_replied tag q h,
      answered_replied tag _ _ _ h, spared_replied tag _ _ _ h, ?_, ?_, ?_, ?_, ?_, ?_⟩
    · rintro id rfl
      refine ⟨fun p hp => ?_, fun hp => ?_⟩ <;> simp [State.lookup, hp, queryReply, State.principalView]
    · rintro c rfl
      refine ⟨fun hc => ?_, fun hc => ?_⟩
      · simp [State.lookup, hc, queryReply]
      · simp [State.lookup, Nat.not_le.mpr hc, queryReply]
    · rintro vol rfl
      refine ⟨fun v hv => ?_, fun hv hlt => ?_, fun hle => ?_⟩
      · have hlt : vol < 32 := by
          by_contra hge
          simp [State.volume, hge] at hv
        simp [State.lookup, hlt, queryReply, State.volumeView, hv]
      · simp [State.lookup, hlt, queryReply, State.volumeView, hv]
      · simp [State.lookup, Nat.not_lt.mpr hle, queryReply]
    · rintro vol ext rfl
      refine ⟨fun hv => ?_, fun v hv => ⟨fun he => ?_, fun he => ?_⟩⟩
      · simp [State.lookup, hv, queryReply]
      · simp [State.lookup, hv, he, queryReply]
      · simp [State.lookup, hv, Nat.not_lt.mpr he, queryReply]
    · rintro vol gen rfl
      refine ⟨fun hv => ?_, fun v hv => ⟨fun hs => ?_, fun p hs => ?_⟩⟩
      · simp [State.lookup, hv, queryReply]
      · simp [State.lookup, hv, hs, queryReply]
      · simp [State.lookup, hv, hs, queryReply]
    · rintro rid rfl
      refine ⟨fun hr => ?_, fun rec r hr => ?_⟩ <;> simp [State.lookup, hr, queryReply]
  · by_cases hc : countOk count
    · obtain ⟨hc1, hc64⟩ := hc
      have hbad : ¬(count = 0 ∨ 64 < count) := by omega
      cases hk : s.keysFrom table start (count + 1) with
      | error st =>
        refine ⟨_, exec_tableRead_refused tag h ⟨hc1, hc64⟩ hk, rst_replied .., supKept_replied ..,
          fun hn => absurd hn hbad, fun _ _ st' hst => ?_, fun _ _ ks hks => (nomatch hks)⟩
        cases hst
        exact ⟨answered_replied tag _ _ _ h, spared_replied tag _ _ _ h⟩
      | ok ks =>
        refine ⟨_, exec_tableRead_done tag h ⟨hc1, hc64⟩ hk, rst_tableRead .., supKept_tableRead ..,
          fun hn => absurd hn hbad, fun _ _ st hst => (nomatch hst), fun _ _ ks' hks => ?_⟩
        cases hks
        exact ⟨answered_tableRead tag _ table start count ks h, cursor_tableRead ..⟩
    · have hbad : count = 0 ∨ 64 < count := by
        simp only [countOk] at hc
        omega
      exact ⟨_, exec_tableRead_range tag h hbad, rst_replied .., supKept_replied ..,
        fun _ => ⟨answered_replied tag _ _ _ h, spared_replied tag _ _ _ h⟩,
        fun h1 h64 => absurd ⟨h1, h64⟩ hc, fun h1 h64 => absurd ⟨h1, h64⟩ hc⟩
  · by_cases hc : countOk count
    · cases hcur : (s.link l).cursor with
      | none =>
        refine ⟨_, exec_tableNext_range tag h (.inl hcur), rst_replied .., supKept_replied ..,
          fun _ => ⟨answered_replied tag _ _ _ h, spared_replied tag _ _ _ h⟩, fun c vol _ _ hc => (nomatch hc),
          fun c ks _ _ hc => (nomatch hc)⟩
      | some c =>
        have hgood : ¬(some c = none ∨ count = 0 ∨ 64 < count) := by
          obtain ⟨hc1, hc64⟩ := hc
          simp only [reduceCtorEq, false_or]
          omega
        refine ⟨_, exec_tableNext_at tag h hcur hc, ?_, ?_, fun hn => absurd hn hgood, ?_, ?_⟩
        · split
          · exact finish_rst _
          · split
            · exact rst_tableRead ..
            · exact finish_rst _
        · split
          · exact supKept_finish_of (supKept_refl _)
          · split
            · exact supKept_tableRead ..
            · exact supKept_finish_of (supKept_refl _)
        · rintro c' vol - - hc' htable hgone
          cases hc'
          by_cases hdet : c.detached = true
          · rw [if_pos hdet]
            exact cursorCleared_cleared tag _ h
          · have hkeys : s.keysFrom c.table c.key (count + 1) = .error .unknownVolume := by
              rw [htable]
              simp [State.keysFrom, hgone.resolve_left hdet]
            rw [if_neg hdet, hkeys]
            exact cursorCleared_cleared tag _ h
        · rintro c' ks - - hc' hdet hkeys
          cases hc'
          rw [if_neg (by simp [hdet]), hkeys]
          exact ⟨answered_tableRead tag _ c.table c.key count ks h, cursor_tableRead ..⟩
    · have hbad : count = 0 ∨ 64 < count := by
        simp only [countOk] at hc
        omega
      exact ⟨_, exec_tableNext_range tag h (.inr hbad), rst_replied .., supKept_replied ..,
        fun _ => ⟨answered_replied tag _ _ _ h, spared_replied tag _ _ _ h⟩,
        fun c vol h1 h64 => absurd ⟨h1, h64⟩ hc, fun c ks h1 h64 => absurd ⟨h1, h64⟩ hc⟩
  · refine ⟨rfl, rfl, congrArg Except.ok (filter_range_take 64 start n),
      congrArg Except.ok (filter_range_take 32 start n), congrArg Except.ok (filter_range_take 64 start n),
      fun c => rfl, fun vol => ⟨fun hv => ?_, fun v hv => ?_⟩⟩ <;> simp [State.keysFrom, hv]
  · refine ⟨fun p hp => ?_, rfl, fun v hv => ?_, fun hv => ?_, fun vol => rfl, fun p hp => ?_, fun r hr => ?_,
      fun hr => ?_⟩
    · simp [State.viewAt, hp, State.principalView]
    · simp [State.viewAt, State.volumeView, hv]
    · simp [State.viewAt, State.volumeView, hv]
    · simp [State.viewAt, hp]
    · simp [State.viewAt, hr]
    · simp [State.viewAt, hr]
end

section
/-! SUPPORT. What the blocks' work does to the links. A property of the links that a few changes of a link's record
keep, the operations of the blocks keep: one lemma for each operation. -/

namespace Sys2Proof.Machine

/-- A property of the links that is kept as links gain notices and RECLAIMs or CUT_DUEs, become BUSY and take or
leave places to wait in. -/
structure LinksGain (P : Vector LinkRec 6 → Prop) : Prop where
  queueNotice (ls : Vector LinkRec 6) (l : Link) (n : Notice) :
    ls[l].up = true → P ls → P (ls.set l (ls[l].queueNotice n))
  handNotice (ls : Vector LinkRec 6) (l : Link) (b : DirBody) : ls[l].up = true → P ls →
    P (ls.set l { ls[l] with
      tx := ls[l].tx ++ [.directive ls[l].nextTag b], tagCounter := (ls[l].nextTag + 1) % 65536 })
  busy (ls : Vector LinkRec 6) (l : Link) (now : Nat) : P ls → P (ls.set l { ls[l] with idle := false, idleFrom := now })
  restartIdle (ls : Vector LinkRec 6) (l : Link) (now : Nat) : P ls → P (ls.set l { ls[l] with idleFrom := now })
  places (ls : Vector LinkRec 6) (l : Link) (ws : List Issuer) : P ls → P (ls.set l { ls[l] with placeWaits := ws })

/-- A property that links also keep as requests are replied to and directives end. -/
structure LinksWork (P : Vector LinkRec 6 → Prop) : Prop extends LinksGain P where
  reply (ls : Vector LinkRec 6) (l : Link) (req : Nat) (st : Status) (b : ReplyBody) :
    P ls → P (ls.set l (ls[l].reply req st b))
  endDirective (ls : Vector LinkRec 6) (l : Link) (tag : Nat) : P ls →
    P (ls.set l { ls[l] with
      directives := ls[l].directives.filter fun d => d.tag != tag
      tx := ls[l].tx.filter fun f => match f with
        | .chunk t _ _ => t != tag
        | _ => true })

theorem LinksWork.tally {P : Vector LinkRec 6 → Prop} (k : LinksWork P) : KeptByTally P :=
  ⟨k.queueNotice, k.reply, k.restartIdle⟩

/-- A property of one link's record, kept where that record keeps it. -/
theorem LinksGain.of_record {R : LinkRec → Prop} (l : Link)
    (hnotice : ∀ r n, r.up = true → R r → R (r.queueNotice n))
    (hhand : ∀ r b, r.up = true → R r → R { r with
      tx := r.tx ++ [.directive r.nextTag b], tagCounter := (r.nextTag + 1) % 65536 })
    (hbusy : ∀ r now, R r → R { r with idle := false, idleFrom := now })
    (hidle : ∀ r now, R r → R { r with idleFrom := now })
    (hplaces : ∀ r ws, R r → R { r with placeWaits := ws }) : LinksGain fun ls => R ls[l] := by
  have hset (ls : Vector LinkRec 6) (j : Link) (f : LinkRec → LinkRec) (hf : R ls[j] → R (f ls[j])) (h : R ls[l]) :
      R (ls.set j (f ls[j]))[l] := by
    by_cases hj : (j : Nat) = (l : Nat)
    · obtain rfl : j = l := Fin.ext hj
      simpa using hf h
    · simpa [Vector.getElem_set, hj] using h
  exact ⟨fun ls j n hup => hset ls j (·.queueNotice n) (hnotice _ n hup),
    fun ls j b hup => hset ls j (fun r => { r with
      tx := r.tx ++ [.directive r.nextTag b], tagCounter := (r.nextTag + 1) % 65536 }) (hhand _ b hup),
    fun ls j now => hset ls j (fun r => { r with idle := false, idleFrom := now }) (hbusy _ now),
    fun ls j now => hset ls j (fun r => { r with idleFrom := now }) (hidle _ now),
    fun ls j ws => hset ls j (fun r => { r with placeWaits := ws }) (hplaces _ ws)⟩

theorem LinksWork.of_record {R : LinkRec → Prop} (l : Link) (k : LinksGain fun ls => R ls[l])
    (hreply : ∀ r req st b, R r → R (r.reply req st b))
    (hend : ∀ r tag, R r → R { r with
      directives := r.directives.filter fun d => d.tag != tag
      tx := r.tx.filter fun f => match f with
        | .chunk t _ _ => t != tag
        | _ => true }) : LinksWork fun ls => R ls[l] := by
  have hset (ls : Vector LinkRec 6) (j : Link) (f : LinkRec → LinkRec) (hf : R ls[j] → R (f ls[j])) (h : R ls[l]) :
      R (ls.set j (f ls[j]))[l] := by
    by_cases hj : (j : Nat) = (l : Nat)
    · obtain rfl : j = l := Fin.ext hj
      simpa using hf h
    · simpa [Vector.getElem_set, hj] using h
  exact { k with
    reply := fun ls j req st b => hset ls j (·.reply req st b) (hreply _ req st b)
    endDirective := fun ls j tag => hset ls j (fun r => { r with
      directives := r.directives.filter fun d => d.tag != tag
      tx := r.tx.filter fun f => match f with
        | .chunk t _ _ => t != tag
        | _ => true }) (hend _ tag) }

variable {P : Vector LinkRec 6 → Prop}

theorem gains_foldl {α : Type} (f : State → α → State) (xs : List α) {s : State}
    (hf : ∀ s x, P s.links → P (f s x).links) (h : P s.links) : P (xs.foldl f s).links :=
  tallyLinks_foldl f xs hf h

theorem gains_iter (n : Nat) (f : State → State) {s : State} (hf : ∀ s, P s.links → P (f s).links)
    (h : P s.links) : P (iter n f s).links := tallyLinks_iter n f hf h

theorem gains_modSup {s : State} (f : Supervisor → Supervisor) (h : P s.links) : P (s.modSup f).links := h

theorem gains_send {s : State} (o : Output) (hb : P s.links) : P (State.send s o).links := hb

theorem gains_modPrin {s : State} (id : Nat) (f : Principal → Principal) (hb : P s.links) :
    P (State.modPrin s id f).links := hb

theorem gains_modVolume {s : State} (vol : Nat) (f : Volume → Volume) (hb : P s.links) :
    P (State.modVolume s vol f).links := hb

theorem gains_setExtent {s : State} (vol ext : Nat) (e : Extent) (hb : P s.links) :
    P (State.setExtent s vol ext e).links := hb

theorem gains_modSnapshot {s : State} (vol gen : Nat) (f : Snapshot → Snapshot) (hb : P s.links) :
    P (State.modSnapshot s vol gen f).links := hb

theorem gains_setDues {s : State} (vol : Nat) (d : Dues) (hb : P s.links) : P (State.setDues s vol d).links := hb

theorem gains_modRestore {s : State} (rec : Nat) (f : Restore → Restore) (hb : P s.links) :
    P (State.modRestore s rec f).links := hb

theorem gains_modStep {s : State} (rec i : Nat) (f : Step → Step) (hb : P s.links) :
    P (State.modStep s rec i f).links := by
  unfold State.modStep
  repeat' first
    | with_reducible assumption
    | with_reducible apply gains_modRestore

theorem gains_freeSlot {s : State} (n : Nat) (hb : P s.links) : P (State.freeSlot s n).links := hb

theorem gains_freeSlotsIf {s : State} (p : Slot → Bool) (hb : P s.links) : P (State.freeSlotsIf s p).links := hb

theorem gains_modPlan {s : State} (vol : Nat) (f : PlanVol → PlanVol) (hb : P s.links) :
    P (State.modPlan s vol f).links := hb

theorem gains_modEntry {s : State} (num : Nat) (f : ShipEntry → ShipEntry) (hb : P s.links) :
    P (State.modEntry s num f).links := hb

theorem gains_modRepair {s : State} (n : Nat) (f : Repair → Repair) (hb : P s.links) :
    P (State.modRepair s n f).links := hb

theorem gains_modItem {s : State} (n : Nat) (f : WorkItem → WorkItem) (hb : P s.links) :
    P (State.modItem s n f).links := hb

theorem gains_queueTo (k : LinksGain P) {s : State} (b : NoticeBody) (n : Notice) (ls : List Link)
    (h : P s.links) : P (State.queueTo b n ls s).links := by
  induction ls generalizing s with
  | nil => exact h
  | cons l ls ih =>
    unfold State.queueTo
    refine ih ?_
    split
    next hrec =>
      simp only [State.receives, Bool.and_eq_true] at hrec
      obtain ⟨⟨hup, -⟩, -⟩ := hrec
      exact k.queueNotice _ l n hup h
    · exact h

theorem gains_raise (k : LinksGain P) {s : State} (b : NoticeBody) (hb : P s.links) : P (State.raise s b).links := by
  unfold State.raise
  repeat' first
    | with_reducible assumption
    | with_reducible apply gains_queueTo k
    | with_reducible refine gains_modSup _ ?_

theorem gains_busy (k : LinksGain P) {s : State} (l : Link) (h : P s.links) : P (s.busy l).links := k.busy _ l _ h

theorem gains_restartIdle (k : LinksGain P) {s : State} (l : Link) (h : P s.links) : P (s.restartIdle l).links :=
  k.restartIdle _ l _ h

theorem gains_handNotice (k : LinksGain P) {s : State} (l : Link) (b : DirBody) (hup : (s.link l).up = true)
    (h : P s.links) : P (s.handNotice l b).links := gains_busy k l (k.handNotice _ l b hup h)

theorem gains_leavePlaces (k : LinksGain P) {s : State} (who : Issuer) (h : P s.links) :
    P (s.leavePlaces who).links := gains_foldl _ _ (fun _ l hs => k.places _ l _ hs) h

theorem gains_setGrace {s : State} (id : Nat) (g : Grace) (hb : P s.links) : P (State.setGrace s id g).links := by
  unfold State.setGrace
  repeat' first
    | with_reducible assumption
    | with_reducible apply gains_modPrin

theorem gains_leaveGraceQueue {s : State} (id : Nat) (hb : P s.links) : P (State.leaveGraceQueue s id).links := hb

theorem gains_enterGrace {s : State} (id deadline : Nat) (hb : P s.links) :
    P (State.enterGrace s id deadline).links := by
  unfold State.enterGrace
  try dsimp only
  repeat' first
    | with_reducible assumption
    | with_reducible apply gains_setGrace
    | split

theorem gains_expire (k : LinksGain P) {s : State} (id : Nat) (hb : P s.links) : P (State.expire s id).links := by
  unfold State.expire
  repeat' first
    | with_reducible assumption
    | with_reducible apply gains_leaveGraceQueue
    | with_reducible apply gains_raise k
    | with_reducible apply gains_setGrace
    | split

theorem gains_lazyExpire (k : LinksGain P) {s : State} (id : Nat) (hb : P s.links) :
    P (State.lazyExpire s id).links := by
  unfold State.lazyExpire
  repeat' first
    | with_reducible assumption
    | with_reducible apply gains_expire k
    | split

theorem gains_evalGrace (k : LinksGain P) {s : State} (id : Nat) (hb : P s.links) :
    P (State.evalGrace s id).links := by
  unfold State.evalGrace
  try dsimp only
  repeat' first
    | with_reducible assumption
    | with_reducible apply gains_enterGrace
    | with_reducible apply gains_leaveGraceQueue
    | with_reducible apply gains_raise k
    | with_reducible apply gains_setGrace
    | split

theorem gains_expireHead (k : LinksGain P) {s : State} (hb : P s.links) : P (State.expireHead s).links := by
  unfold State.expireHead
  repeat' first
    | with_reducible assumption
    | with_reducible apply gains_expire k
    | split

theorem gains_expireDue (k : LinksGain P) {s : State} (hb : P s.links) : P (State.expireDue s).links := by
  unfold State.expireDue
  repeat' first
    | with_reducible assumption
    | with_reducible apply gains_expireHead k
    | with_reducible refine gains_iter _ _ (fun _ _ => ?_) ?_

theorem gains_pushOp {s : State} (job : Job) (postings : List Nat) (hb : P s.links) :
    P (State.pushOp s job postings).links := hb

/-- A RECLAIM goes to an UP link alone (R60). -/
theorem gains_flushReclaim (k : LinksGain P) {s : State} (h : P s.links) : P s.flushReclaim.links := by
  unfold State.flushReclaim
  split
  · exact h
  next e hfind =>
    split
    · exact h
    next l howner =>
      have hup := List.find?_some hfind
      rw [Bool.and_eq_true, State.ownerUp, howner] at hup
      exact gains_handNotice k l _ hup.2 h

theorem gains_flushReclaims (k : LinksGain P) {s : State} (hb : P s.links) : P (State.flushReclaims s).links := by
  unfold State.flushReclaims
  repeat' first
    | with_reducible assumption
    | with_reducible apply gains_flushReclaim k
    | with_reducible refine gains_iter _ _ (fun _ _ => ?_) ?_

/-- A CUT_DUE goes to an UP link alone (R74). -/
theorem gains_sendCutDue (k : LinksGain P) {s : State} (vol : Nat) (nightly : Bool) (h : P s.links) :
    P (s.sendCutDue vol nightly).links := by
  unfold State.sendCutDue
  split
  next v d hv hd =>
    split
    next hsend => exact gains_handNotice k _ _ hsend.2 h
    · exact h
  · exact h

theorem gains_openDue (k : LinksGain P) {s : State} (nightly : Bool) (vol : Nat) (hb : P s.links) :
    P (State.openDue s nightly vol).links := by
  unfold State.openDue
  repeat' first
    | with_reducible assumption
    | with_reducible apply gains_sendCutDue k
    | with_reducible apply gains_setDues

theorem gains_closeDue {s : State} (nightly : Bool) (vol : Nat) (hb : P s.links) :
    P (State.closeDue s nightly vol).links := by
  unfold State.closeDue
  repeat' first
    | with_reducible assumption
    | with_reducible apply gains_setDues

theorem gains_sendDues (k : LinksGain P) {s : State} (l : Link) (hb : P s.links) : P (State.sendDues s l).links := by
  unfold State.sendDues
  repeat' first
    | with_reducible assumption
    | with_reducible apply gains_sendCutDue k
    | with_reducible refine gains_foldl _ _ (fun _ _ _ => ?_) ?_

theorem gains_startExpiry {s : State} (vol gen : Nat) (hb : P s.links) : P (State.startExpiry s vol gen).links := by
  unfold State.startExpiry
  repeat' first
    | with_reducible assumption
    | with_reducible apply gains_modSnapshot

theorem gains_retainOnce (vol : Nat) (k : SnapKind) {s : State} (hb : P s.links) :
    P (State.retainOnce vol k s).links := by
  unfold State.retainOnce
  repeat' first
    | with_reducible assumption
    | with_reducible apply gains_startExpiry
    | split

theorem gains_retain {s : State} (vol : Nat) (k : SnapKind) (hb : P s.links) : P (State.retain s vol k).links := by
  unfold State.retain
  repeat' first
    | with_reducible assumption
    | with_reducible apply gains_retainOnce
    | with_reducible refine gains_iter _ _ (fun _ _ => ?_) ?_

theorem gains_takePin {s : State} (vol gen : Nat) (ship : Bool) (hb : P s.links) :
    P (State.takePin s vol gen ship).links := by
  unfold State.takePin
  repeat' first
    | with_reducible assumption
    | with_reducible apply gains_modSnapshot

theorem gains_dropPin {s : State} (vol gen : Nat) (ship : Bool) (hb : P s.links) :
    P (State.dropPin s vol gen ship).links := by
  unfold State.dropPin
  repeat' first
    | with_reducible assumption
    | with_reducible apply gains_modSnapshot
    | with_reducible apply gains_retain
    | split

theorem gains_decRef (k : LinksGain P) {s : State} (vol ext loc : Nat) (hb : P s.links) :
    P (State.decRef s vol ext loc).links := by
  unfold State.decRef
  try dsimp only
  repeat' first
    | with_reducible assumption
    | with_reducible apply gains_flushReclaims k
    | with_reducible apply gains_modVolume
    | with_reducible apply gains_setExtent
    | split

theorem gains_decRefs (k : LinksGain P) {s : State} (refs : List (Nat × Nat × Nat)) (hb : P s.links) :
    P (State.decRefs s refs).links := by
  unfold State.decRefs
  repeat' first
    | with_reducible assumption
    | with_reducible apply gains_decRef k
    | with_reducible refine gains_foldl _ _ (fun _ _ _ => ?_) ?_

theorem gains_unlock {s : State} (vol ext rid : Nat) (hb : P s.links) : P (State.unlock s vol ext rid).links := by
  unfold State.unlock
  repeat' first
    | with_reducible assumption
    | with_reducible apply gains_setExtent
    | split

theorem gains_changeVersion {s : State} (vol ext birth : Nat) (p : Version → Bool) (f : Version → Version) (hb :
    P s.links) :
    P (State.changeVersion s vol ext birth p f).links := by
  unfold State.changeVersion
  repeat' first
    | with_reducible assumption
    | with_reducible apply gains_setExtent
    | split

theorem gains_setVerified {s : State} (vol ext birth loc : Nat) (hb : P s.links) :
    P (State.setVerified s vol ext birth loc).links := by
  unfold State.setVerified
  repeat' first
    | with_reducible assumption
    | with_reducible apply gains_changeVersion

theorem gains_writeRepair {s : State} (vol ext birth loc : Nat) (st : RepairState) (hb : P s.links) :
    P (State.writeRepair s vol ext birth loc st).links := by
  unfold State.writeRepair
  repeat' first
    | with_reducible assumption
    | with_reducible apply gains_changeVersion

theorem gains_setWaiting {s : State} (c : SlotClass) (q : List SlotReq) (hb : P s.links) :
    P (State.setWaiting s c q).links := by
  unfold State.setWaiting
  repeat' first
    | with_reducible assumption
    | split

theorem gains_grantSlot (c : SlotClass) (h : SlotHolder) {s : State} (w : Nat × Code) (hb : P s.links) :
    P (State.grantSlot c h s w).links := hb

theorem gains_grant {s : State} (c : SlotClass) (r : SlotReq) (hb : P s.links) : P (State.grant s c r).links := by
  unfold State.grant
  repeat' first
    | with_reducible assumption
    | with_reducible apply gains_grantSlot
    | with_reducible apply gains_modItem
    | split
    | with_reducible refine gains_foldl _ _ (fun _ _ _ => ?_) ?_

theorem gains_enqueue {s : State} (c : SlotClass) (r : SlotReq) (hb : P s.links) : P (State.enqueue s c r).links := by
  unfold State.enqueue
  repeat' first
    | with_reducible assumption
    | with_reducible apply gains_setWaiting
    | split

theorem gains_considerOnce {s : State} (hb : P s.links) : P (State.considerOnce s).links := by
  unfold State.considerOnce
  repeat' first
    | with_reducible assumption
    | with_reducible apply gains_grant
    | with_reducible apply gains_setWaiting
    | split

theorem gains_consider {s : State} (hb : P s.links) : P (State.consider s).links := by
  unfold State.consider
  repeat' first
    | with_reducible assumption
    | with_reducible apply gains_considerOnce
    | with_reducible refine gains_iter _ _ (fun _ _ => ?_) ?_

theorem gains_handBack {s : State} (n : Nat) (hb : P s.links) : P (State.handBack s n).links := by
  unfold State.handBack
  repeat' first
    | with_reducible assumption
    | with_reducible apply gains_freeSlot

theorem gains_freeFullShip {s : State} (hb : P s.links) : P (State.freeFullShip s).links := by
  unfold State.freeFullShip
  repeat' first
    | with_reducible assumption
    | with_reducible apply gains_handBack
    | with_reducible refine gains_foldl _ _ (fun _ _ _ => ?_) ?_

theorem gains_takeBackOnce {s : State} (hb : P s.links) : P (State.takeBackOnce s).links := by
  unfold State.takeBackOnce
  repeat' first
    | with_reducible assumption
    | with_reducible apply gains_consider
    | with_reducible apply gains_handBack
    | split

theorem gains_takeBack {s : State} (hb : P s.links) : P (State.takeBack s).links := by
  unfold State.takeBack
  repeat' first
    | with_reducible assumption
    | with_reducible apply gains_takeBackOnce
    | with_reducible refine gains_iter _ _ (fun _ _ => ?_) ?_

theorem gains_askSlots {s : State} (c : SlotClass) (r : SlotReq) (hb : P s.links) :
    P (State.askSlots s c r).links := by
  unfold State.askSlots
  repeat' first
    | with_reducible assumption
    | with_reducible apply gains_enqueue
    | with_reducible apply gains_grant
    | with_reducible apply gains_takeBack
    | split

theorem gains_withdrawAsk {s : State} (h : SlotHolder) (hb : P s.links) : P (State.withdrawAsk s h).links := hb

theorem gains_freeHolder {s : State} (h : SlotHolder) (hb : P s.links) : P (State.freeHolder s h).links := by
  unfold State.freeHolder
  repeat' first
    | with_reducible assumption
    | with_reducible apply gains_freeSlotsIf

theorem gains_freeAllOf {s : State} (h : SlotHolder) (hb : P s.links) : P (State.freeAllOf s h).links := by
  unfold State.freeAllOf
  repeat' first
    | with_reducible assumption
    | with_reducible apply gains_freeSlotsIf

theorem gains_modOff {s : State} (f : Offsite → Offsite) (hb : P s.links) : P (State.modOff s f).links := hb

theorem gains_startOpening {s : State} (hb : P s.links) : P (State.startOpening s).links := by
  unfold State.startOpening
  repeat' first
    | with_reducible assumption
    | with_reducible apply gains_modOff
    | with_reducible apply gains_send

theorem gains_askOpening {s : State} (hb : P s.links) : P (State.askOpening s).links := by
  unfold State.askOpening
  repeat' first
    | with_reducible assumption
    | with_reducible apply gains_startOpening
    | split

theorem gains_leaveUp {s : State} (hb : P s.links) : P (State.leaveUp s).links := hb

theorem gains_closeLink {s : State} (hb : P s.links) : P (State.closeLink s).links := by
  unfold State.closeLink
  repeat' first
    | with_reducible assumption
    | with_reducible apply gains_leaveUp
    | with_reducible apply gains_modOff
    | with_reducible apply gains_send

theorem gains_chooseDir {s : State} (hb : P s.links) : P (State.chooseDir s).links := by
  unfold State.chooseDir
  repeat' first
    | with_reducible assumption
    | with_reducible apply gains_modOff

theorem gains_redirectOnce {s : State} (hb : P s.links) : P (State.redirectOnce s).links := by
  unfold State.redirectOnce
  try dsimp only
  repeat' first
    | with_reducible assumption
    | with_reducible apply gains_chooseDir
    | with_reducible apply gains_closeLink
    | with_reducible apply gains_modOff
    | split

theorem gains_redirect {s : State} (hb : P s.links) : P (State.redirect s).links := by
  unfold State.redirect
  repeat' first
    | with_reducible assumption
    | with_reducible apply gains_redirectOnce
    | with_reducible refine gains_iter _ _ (fun _ _ => ?_) ?_

theorem gains_markRest {s : State} (hb : P s.links) : P (State.markRest s).links := by
  unfold State.markRest
  repeat' first
    | with_reducible assumption
    | with_reducible apply gains_modOff

theorem gains_placeFetch {s : State} (es : List FetchEntry) (atHead : Bool) (hb : P s.links) :
    P (State.placeFetch s es atHead).links := by
  unfold State.placeFetch
  repeat' first
    | with_reducible assumption
    | with_reducible apply gains_askOpening
    | with_reducible apply gains_modOff

theorem gains_askRoom {s : State} (h : FetchHolder) (es : List FetchEntry) (atHead : Bool) (hb : P s.links) :
    P (State.askRoom s h es atHead).links := by
  unfold State.askRoom
  repeat' first
    | with_reducible assumption
    | with_reducible apply gains_modOff
    | with_reducible apply gains_placeFetch
    | split

theorem gains_serveRoomOnce {s : State} (hb : P s.links) : P (State.serveRoomOnce s).links := by
  unfold State.serveRoomOnce
  repeat' first
    | with_reducible assumption
    | with_reducible apply gains_modOff
    | with_reducible apply gains_placeFetch
    | split

theorem gains_serveRoom {s : State} (hb : P s.links) : P (State.serveRoom s).links := by
  unfold State.serveRoom
  repeat' first
    | with_reducible assumption
    | with_reducible apply gains_serveRoomOnce
    | with_reducible refine gains_iter _ _ (fun _ _ => ?_) ?_

theorem gains_withdrawFetch {s : State} (h : FetchHolder) (hb : P s.links) : P (State.withdrawFetch s h).links := by
  unfold State.withdrawFetch
  repeat' first
    | with_reducible assumption
    | with_reducible apply gains_modOff
    | with_reducible apply gains_withdrawAsk

theorem gains_clearShed {s : State} (hb : P s.links) : P (State.clearShed s).links := by
  unfold State.clearShed
  repeat' first
    | with_reducible assumption
    | with_reducible apply gains_modOff

theorem gains_settleLink {s : State} (hb : P s.links) : P (State.settleLink s).links := by
  unfold State.settleLink
  repeat' first
    | with_reducible assumption
    | with_reducible apply gains_clearShed
    | with_reducible apply gains_markRest
    | with_reducible apply gains_redirect
    | with_reducible apply gains_serveRoom

theorem gains_progress {s : State} (hb : P s.links) : P (State.progress s).links := by
  unfold State.progress
  repeat' first
    | with_reducible assumption
    | with_reducible apply gains_modOff

theorem gains_cancelRun (k : LinksGain P) {s : State} (n : Nat) (hb : P s.links) : P (State.cancelRun s n).links := by
  unfold State.cancelRun
  repeat' first
    | with_reducible assumption
    | with_reducible apply gains_freeAllOf
    | with_reducible apply gains_leavePlaces k
    | with_reducible apply gains_modOff
    | with_reducible apply gains_withdrawAsk

theorem gains_cancelRuns (k : LinksGain P) {s : State} (p : ShipPull → Bool) (hb : P s.links) :
    P (State.cancelRuns s p).links := by
  unfold State.cancelRuns
  repeat' first
    | with_reducible assumption
    | with_reducible apply gains_cancelRun k
    | with_reducible refine gains_foldl _ _ (fun _ _ _ => ?_) ?_

theorem gains_freeEntrySlots {s : State} (es : List ShipEntry) (hb : P s.links) :
    P (State.freeEntrySlots s es).links := by
  unfold State.freeEntrySlots
  repeat' first
    | with_reducible assumption
    | with_reducible apply gains_freeSlot
    | with_reducible refine gains_foldl _ _ (fun _ _ _ => ?_) ?_

theorem gains_damageEntries {s : State} (vol ext birth : Nat) (p : ShipEntry → Bool) (hb : P s.links) :
    P (State.damageEntries s vol ext birth p).links := by
  unfold State.damageEntries
  try dsimp only
  repeat' first
    | with_reducible assumption
    | with_reducible apply gains_freeEntrySlots
    | with_reducible apply gains_modOff
    | with_reducible apply gains_modPlan
    | split

theorem gains_shipLost (k : LinksGain P) {s : State} (vol ext birth : Nat) (hb : P s.links) :
    P (State.shipLost s vol ext birth).links := by
  unfold State.shipLost
  exact gains_damageEntries _ _ _ _ (gains_cancelRuns k _ hb)

theorem gains_shipReact (k : LinksGain P) {s : State} (vol ext birth : Nat) (st : RepairState) (hb : P s.links) :
    P (State.shipReact s vol ext birth st).links := by
  unfold State.shipReact
  repeat' first
    | with_reducible assumption
    | with_reducible apply gains_shipLost k
    | with_reducible apply gains_modOff
    | split

theorem gains_restoreReact (k : LinksGain P) {s : State} (vol ext birth : Nat) (st : RepairState) (h : P s.links) :
    P (s.restoreReact vol ext birth st).links := by
  unfold State.restoreReact
  split
  · exact gains_foldl _ _ (fun _ l hs => k.places _ l _ hs) h
  · exact h

theorem gains_setRepair (k : LinksGain P) {s : State} (vol ext birth loc : Nat) (st : RepairState) (hb : P s.links) :
    P (State.setRepair s vol ext birth loc st).links := by
  unfold State.setRepair
  try dsimp only
  repeat' first
    | with_reducible assumption
    | with_reducible apply gains_restoreReact k
    | with_reducible apply gains_shipReact k
    | with_reducible apply gains_writeRepair
    | split

theorem gains_dropShipPins {s : State} (vol : Nat) (hb : P s.links) : P (State.dropShipPins s vol).links := by
  unfold State.dropShipPins
  repeat' first
    | with_reducible assumption
    | with_reducible apply gains_dropPin
    | with_reducible apply gains_modPlan
    | split

theorem gains_modPat {s : State} (f : Patrol → Patrol) (hb : P s.links) : P (State.modPat s f).links := hb

theorem gains_leaveItem (k : LinksGain P) {s : State} (n : Nat) (hb : P s.links) : P (State.leaveItem s n).links := by
  unfold State.leaveItem
  repeat' first
    | with_reducible assumption
    | with_reducible apply gains_freeAllOf
    | with_reducible apply gains_leavePlaces k
    | with_reducible apply gains_modPat
    | with_reducible apply gains_withdrawAsk

theorem gains_addFold {s : State} (w : WorkItem) (hb : P s.links) : P (State.addFold s w).links := by
  unfold State.addFold
  repeat' first
    | with_reducible assumption
    | with_reducible apply gains_modPat

theorem gains_issueItem {s : State} (w : WorkItem) (hb : P s.links) : P (State.issueItem s w).links := by
  unfold State.issueItem
  repeat' first
    | with_reducible assumption
    | with_reducible apply gains_askSlots
    | with_reducible apply gains_modItem

theorem gains_loseItem (k : LinksGain P) {s : State} (w : WorkItem) (hb : P s.links) :
    P (State.loseItem s w).links := by
  unfold State.loseItem
  try dsimp only
  repeat' first
    | with_reducible assumption
    | with_reducible apply gains_leaveItem k
    | with_reducible apply gains_modPat
    | split

theorem gains_decideItem (k : LinksGain P) {s : State} (n : Nat) (hb : P s.links) :
    P (State.decideItem s n).links := by
  unfold State.decideItem
  try dsimp only
  repeat' first
    | with_reducible assumption
    | with_reducible apply gains_addFold
    | with_reducible apply gains_busy k
    | with_reducible apply gains_issueItem
    | with_reducible apply gains_leaveItem k
    | with_reducible apply gains_loseItem k
    | with_reducible apply gains_modItem
    | split

theorem gains_modChunk {s : State} (n idx : Nat) (f : RepairChunk → RepairChunk) (hb : P s.links) :
    P (State.modChunk s n idx f).links := by
  unfold State.modChunk
  repeat' first
    | with_reducible assumption
    | with_reducible apply gains_modRepair

theorem gains_leaveRepairPlaces (k : LinksGain P) {s : State} (n : Nat) (hb : P s.links) :
    P (State.leaveRepairPlaces s n).links := by
  unfold State.leaveRepairPlaces
  try dsimp only
  repeat' first
    | with_reducible assumption
    | with_reducible apply gains_leavePlaces k
    | split
    | with_reducible refine gains_foldl _ _ (fun _ _ _ => ?_) ?_

theorem gains_chunkOffsite (k : LinksGain P) {s : State} (n idx : Nat) (hb : P s.links) :
    P (State.chunkOffsite s n idx).links := by
  unfold State.chunkOffsite
  try dsimp only
  repeat' first
    | with_reducible assumption
    | with_reducible apply gains_askRoom
    | with_reducible apply gains_leavePlaces k
    | with_reducible apply gains_modChunk
    | with_reducible apply gains_progress
    | split

theorem gains_startChunk (k : LinksGain P) {s : State} (n : Nat) (idx : Nat) (hb : P s.links) :
    P (State.startChunk s n idx).links := by
  unfold State.startChunk
  repeat' first
    | with_reducible assumption
    | with_reducible apply gains_chunkOffsite k
    | split

theorem gains_loseRepair (k : LinksGain P) {s : State} (n : Nat) (hb : P s.links) :
    P (State.loseRepair s n).links := by
  unfold State.loseRepair
  try dsimp only
  repeat' first
    | with_reducible assumption
    | with_reducible apply gains_freeHolder
    | with_reducible apply gains_leaveRepairPlaces k
    | with_reducible apply gains_modRepair
    | with_reducible apply gains_setRepair k
    | with_reducible apply gains_withdrawFetch
    | split

theorem gains_startWhole (k : LinksGain P) {s : State} (n : Nat) (hb : P s.links) :
    P (State.startWhole s n).links := by
  unfold State.startWhole
  try dsimp only
  repeat' first
    | with_reducible assumption
    | with_reducible apply gains_askRoom
    | with_reducible apply gains_freeHolder
    | with_reducible apply gains_leaveRepairPlaces k
    | with_reducible apply gains_loseRepair k
    | with_reducible apply gains_modRepair
    | with_reducible apply gains_progress
    | with_reducible apply gains_withdrawFetch
    | split

theorem gains_openRepair (k : LinksGain P) {s : State} (n : Nat) (q : RepairReq) (hb : P s.links) :
    P (State.openRepair s n q).links := by
  unfold State.openRepair
  repeat' first
    | with_reducible assumption
    | with_reducible apply gains_modPat
    | with_reducible apply gains_setRepair k
    | with_reducible apply gains_startChunk k
    | with_reducible apply gains_startWhole k
    | split
    | with_reducible refine gains_foldl _ _ (fun _ _ _ => ?_) ?_

theorem gains_openWaiting (k : LinksGain P) {s : State} (n : Nat) (q : List RepairReq) (h : P s.links) :
    P (State.openWaiting n q s).links := by
  induction q generalizing s with
  | nil => exact h
  | cons x t ih =>
    unfold State.openWaiting
    split
    · exact gains_openRepair k _ _ (gains_modPat _ h)
    · exact ih h

theorem gains_closeRepair (k : LinksGain P) {s : State} (n : Nat) (hb : P s.links) :
    P (State.closeRepair s n).links := by
  unfold State.closeRepair
  try dsimp only
  repeat' first
    | with_reducible assumption
    | with_reducible apply gains_freeAllOf
    | with_reducible apply gains_leaveRepairPlaces k
    | with_reducible apply gains_modPat
    | with_reducible apply gains_openWaiting k

theorem gains_endRepair (k : LinksGain P) {s : State} (n : Nat) (r : Repair) (hb : P s.links) :
    P (State.endRepair s n r).links := by
  unfold State.endRepair
  repeat' first
    | with_reducible assumption
    | with_reducible apply gains_closeRepair k
    | with_reducible apply gains_raise k
    | with_reducible apply gains_setRepair k
    | with_reducible apply gains_setVerified
    | split

theorem gains_checkRepair (k : LinksGain P) {s : State} (n : Nat) (hb : P s.links) :
    P (State.checkRepair s n).links := by
  unfold State.checkRepair
  repeat' first
    | with_reducible assumption
    | with_reducible apply gains_closeRepair k
    | with_reducible apply gains_endRepair k
    | with_reducible apply gains_startWhole k
    | split

theorem gains_abandonRepair (k : LinksGain P) {s : State} (n : Nat) (hb : P s.links) :
    P (State.abandonRepair s n).links := by
  unfold State.abandonRepair
  try dsimp only
  repeat' first
    | with_reducible assumption
    | with_reducible apply gains_freeHolder
    | with_reducible apply gains_leaveRepairPlaces k
    | with_reducible apply gains_modRepair
    | with_reducible apply gains_withdrawFetch

theorem gains_abandonIf (k : LinksGain P) {s : State} (p : Repair → Bool) (hb : P s.links) :
    P (State.abandonIf s p).links := by
  unfold State.abandonIf
  repeat' first
    | with_reducible assumption
    | with_reducible apply gains_abandonRepair k
    | with_reducible refine gains_foldl _ _ (fun _ _ _ => ?_) ?_

theorem gains_addChunks (k : LinksGain P) {s : State} (n : Nat) (r : Repair) (q : RepairReq) (hb : P s.links) :
    P (State.addChunks s n r q).links := by
  unfold State.addChunks
  try dsimp only
  repeat' first
    | with_reducible assumption
    | with_reducible apply gains_leaveRepairPlaces k
    | with_reducible apply gains_modRepair
    | with_reducible apply gains_startChunk k
    | split
    | with_reducible refine gains_foldl _ _ (fun _ _ _ => ?_) ?_

theorem gains_requestRepair (k : LinksGain P) {s : State} (q : RepairReq) (hb : P s.links) :
    P (State.requestRepair s q).links := by
  unfold State.requestRepair
  try dsimp only
  repeat' first
    | with_reducible assumption
    | with_reducible apply gains_addChunks k
    | with_reducible apply gains_checkRepair k
    | with_reducible apply gains_modPat
    | with_reducible apply gains_openRepair k
    | with_reducible apply gains_setRepair k
    | with_reducible apply gains_shipLost k
    | split

theorem gains_fixEnded (k : LinksGain P) {s : State} (n idx : Nat) (ok : Bool) (hb : P s.links) :
    P (State.fixEnded s n idx ok).links := by
  unfold State.fixEnded
  repeat' first
    | with_reducible assumption
    | with_reducible apply gains_checkRepair k
    | with_reducible apply gains_chunkOffsite k
    | with_reducible apply gains_freeAllOf
    | with_reducible apply gains_freeSlotsIf
    | with_reducible apply gains_loseRepair k
    | with_reducible apply gains_modChunk
    | with_reducible apply gains_modRepair
    | split

theorem gains_verifyEnded (k : LinksGain P) {s : State} (n : Nat) (cause : PullCause) (hb : P s.links) :
    P (State.verifyEnded s n cause).links := by
  unfold State.verifyEnded
  try dsimp only
  repeat' first
    | with_reducible assumption
    | with_reducible apply gains_freeAllOf
    | with_reducible apply gains_leaveItem k
    | with_reducible apply gains_modItem
    | with_reducible apply gains_requestRepair k
    | with_reducible apply gains_setRepair k
    | with_reducible apply gains_setVerified
    | split

theorem gains_checkFold {s : State} (f : Fold) (hb : P s.links) : P (State.checkFold s f).links := by
  unfold State.checkFold
  repeat' first
    | with_reducible assumption
    | with_reducible apply gains_modPat
    | with_reducible apply gains_setVerified
    | split

theorem gains_endClearing (k : LinksGain P) {s : State} (hb : P s.links) : P (State.endClearing s).links := by
  unfold State.endClearing
  repeat' first
    | with_reducible assumption
    | with_reducible apply gains_leaveItem k
    | with_reducible apply gains_modPat
    | split
    | with_reducible refine gains_foldl _ _ (fun _ _ _ => ?_) ?_

theorem gains_checkRepairs (k : LinksGain P) {s : State} (hb : P s.links) : P (State.checkRepairs s).links := by
  unfold State.checkRepairs
  try dsimp only
  repeat' first
    | with_reducible assumption
    | with_reducible apply gains_checkRepair k
    | split
    | with_reducible refine gains_foldl _ _ (fun _ _ _ => ?_) ?_
    | with_reducible refine gains_iter _ _ (fun _ _ => ?_) ?_

theorem gains_settlePatrol (k : LinksGain P) {s : State} (hb : P s.links) : P (State.settlePatrol s).links := by
  unfold State.settlePatrol
  try dsimp only
  repeat' first
    | with_reducible assumption
    | with_reducible apply gains_abandonIf k
    | with_reducible apply gains_checkFold
    | with_reducible apply gains_checkRepairs k
    | with_reducible apply gains_decideItem k
    | with_reducible apply gains_endClearing k
    | split
    | with_reducible refine gains_foldl _ _ (fun _ _ _ => ?_) ?_

theorem gains_settle (k : LinksGain P) {s : State} (hb : P s.links) : P (State.settle s).links := by
  unfold State.settle
  repeat' first
    | with_reducible assumption
    | with_reducible apply gains_settleLink
    | with_reducible apply gains_settlePatrol k

theorem gains_reckonClose {s : State} (hb : P s.links) : P (State.reckonClose s).links := by
  unfold State.reckonClose
  repeat' first
    | with_reducible assumption
    | with_reducible apply gains_modOff

theorem gains_joinPlan {s : State} (vol t : Nat) (hb : P s.links) : P (State.joinPlan s vol t).links := by
  unfold State.joinPlan
  repeat' first
    | with_reducible assumption
    | with_reducible apply gains_modOff
    | with_reducible apply gains_modVolume
    | with_reducible apply gains_takePin
    | split

theorem gains_reportMissed {s : State} (vol : Nat) (hb : P s.links) : P (State.reportMissed s vol).links := by
  unfold State.reportMissed
  repeat' first
    | with_reducible assumption
    | with_reducible apply gains_modOff
    | split

theorem gains_missDue (k : LinksGain P) {s : State} (vol : Nat) (hb : P s.links) : P (State.missDue s vol).links := by
  unfold State.missDue
  repeat' first
    | with_reducible assumption
    | with_reducible apply gains_closeDue
    | with_reducible apply gains_raise k
    | with_reducible apply gains_reportMissed
    | split

theorem gains_missLate (k : LinksGain P) {s : State} (hb : P s.links) : P (State.missLate s).links := by
  unfold State.missLate
  repeat' first
    | with_reducible assumption
    | with_reducible apply gains_missDue k
    | split
    | with_reducible refine gains_foldl _ _ (fun _ _ _ => ?_) ?_

theorem gains_modRst {s : State} (f : RestoreEngine → RestoreEngine) (hb : P s.links) :
    P (State.modRst s f).links := hb

theorem gains_modActive {s : State} (person : Nat) (f : Nat → Nat) (hb : P s.links) :
    P (State.modActive s person f).links := by
  unfold State.modActive
  repeat' first
    | with_reducible assumption
    | with_reducible apply gains_modPrin

theorem gains_askRelease {s : State} (person blocks : Nat) (hb : P s.links) :
    P (State.askRelease s person blocks).links := by
  unfold State.askRelease
  repeat' first
    | with_reducible assumption
    | with_reducible apply gains_pushOp
    | split

theorem gains_raiseEnd (k : LinksGain P) {s : State} (rec : Nat) (hb : P s.links) :
    P (State.raiseEnd s rec).links := by
  unfold State.raiseEnd
  repeat' first
    | with_reducible assumption
    | with_reducible apply gains_raise k
    | split

theorem gains_unlockStep {s : State} (rec i : Nat) (hb : P s.links) : P (State.unlockStep s rec i).links := by
  unfold State.unlockStep
  repeat' first
    | with_reducible assumption
    | with_reducible apply gains_unlock
    | split

theorem gains_dropRestorePin {s : State} (rec : Nat) (hb : P s.links) : P (State.dropRestorePin s rec).links := by
  unfold State.dropRestorePin
  repeat' first
    | with_reducible assumption
    | with_reducible apply gains_dropPin
    | with_reducible apply gains_modRestore
    | split

theorem gains_dropStep (k : LinksGain P) {s : State} (rec i : Nat) (hb : P s.links) :
    P (State.dropStep s rec i).links := by
  unfold State.dropStep
  repeat' first
    | with_reducible assumption
    | with_reducible apply gains_freeHolder
    | with_reducible apply gains_leavePlaces k
    | with_reducible apply gains_withdrawFetch

theorem gains_finishAs {s : State} (rec : Nat) (st : RestoreState) (cause : Option FailCause) (failed : Option (Nat × StepReason)) (hb :
    P s.links) :
    P (State.finishAs s rec st cause failed).links := by
  unfold State.finishAs
  repeat' first
    | with_reducible assumption
    | with_reducible apply gains_modRestore
    | with_reducible apply gains_modRst

theorem gains_releaseBlocks {s : State} (rec blocks : Nat) (hb : P s.links) :
    P (State.releaseBlocks s rec blocks).links := by
  unfold State.releaseBlocks
  repeat' first
    | with_reducible assumption
    | with_reducible apply gains_askRelease
    | with_reducible apply gains_modRestore
    | split

theorem gains_settlePin {s : State} (rec : Nat) (hb : P s.links) : P (State.settlePin s rec).links := by
  unfold State.settlePin
  repeat' first
    | with_reducible assumption
    | with_reducible apply gains_dropRestorePin
    | split

theorem gains_becomeCancelled (k : LinksGain P) {s : State} (rec : Nat) (hb : P s.links) :
    P (State.becomeCancelled s rec).links := by
  unfold State.becomeCancelled
  repeat' first
    | with_reducible assumption
    | with_reducible apply gains_dropRestorePin
    | with_reducible apply gains_finishAs
    | with_reducible apply gains_modActive
    | with_reducible apply gains_raiseEnd k
    | with_reducible apply gains_releaseBlocks
    | split

theorem gains_afterStep (k : LinksGain P) {s : State} (rec : Nat) (hb : P s.links) :
    P (State.afterStep s rec).links := by
  unfold State.afterStep
  repeat' first
    | with_reducible assumption
    | with_reducible apply gains_becomeCancelled k
    | with_reducible apply gains_dropRestorePin
    | with_reducible apply gains_finishAs
    | with_reducible apply gains_modActive
    | with_reducible apply gains_modRestore
    | with_reducible apply gains_raiseEnd k
    | with_reducible apply gains_settlePin
    | split

theorem gains_failStep (k : LinksGain P) {s : State} (rec i : Nat) (why : StepReason) (hb : P s.links) :
    P (State.failStep s rec i why).links := by
  unfold State.failStep
  repeat' first
    | with_reducible assumption
    | with_reducible apply gains_dropStep k
    | with_reducible apply gains_finishAs
    | with_reducible apply gains_modActive
    | with_reducible apply gains_modStep
    | with_reducible apply gains_raiseEnd k
    | with_reducible apply gains_releaseBlocks
    | with_reducible apply gains_settlePin
    | with_reducible apply gains_unlockStep
    | split
    | with_reducible refine gains_foldl _ _ (fun _ _ _ => ?_) ?_

theorem gains_writeEdit {s : State} (id : Nat) (c : EditChanges) (hb : P s.links) :
    P (State.writeEdit s id c).links := by
  unfold State.writeEdit
  repeat' first
    | with_reducible assumption
    | with_reducible apply gains_modPrin

theorem gains_regatherIf {s : State} (again : TallyOp → Bool) (hb : P s.links) :
    P (State.regatherIf s again).links := by
  unfold State.regatherIf
  try dsimp only
  repeat' first
    | with_reducible assumption

theorem gains_setFrozen {s : State} (id : Nat) (b : Bool) (hb : P s.links) : P (State.setFrozen s id b).links := by
  unfold State.setFrozen
  repeat' first
    | with_reducible assumption
    | with_reducible apply gains_modPrin

theorem gains_stepDirectiveFailed (k : LinksGain P) {s : State} (rec i : Nat) (why : DirFailure) (hb : P s.links) :
    P (State.stepDirectiveFailed s rec i why).links := by
  unfold State.stepDirectiveFailed
  try dsimp only
  repeat' first
    | with_reducible assumption
    | with_reducible apply gains_afterStep k
    | with_reducible apply gains_askRoom
    | with_reducible apply gains_failStep k
    | with_reducible apply gains_freeAllOf
    | with_reducible apply gains_modStep
    | split

theorem gains_reportMismatch (k : LinksGain P) {s : State} (p : ShipPull) (idx : Nat) (hb : P s.links) :
    P (State.reportMismatch s p idx).links := by
  unfold State.reportMismatch
  repeat' first
    | with_reducible assumption
    | with_reducible apply gains_modPat
    | with_reducible apply gains_requestRepair k

theorem gains_withhold (k : LinksGain P) {s : State} (p : ShipPull) (e : ShipEntry) (hb : P s.links) :
    P (State.withhold s p e).links := by
  unfold State.withhold
  repeat' first
    | with_reducible assumption
    | with_reducible apply gains_cancelRuns k
    | with_reducible apply gains_modEntry
    | with_reducible apply gains_modOff
    | with_reducible apply gains_reportMismatch k
    | split

theorem gains_notReceived (k : LinksGain P) {s : State} (p : ShipPull) (cause : PullCause) (e : ShipEntry) (hb :
    P s.links) :
    P (State.notReceived s p cause e).links := by
  unfold State.notReceived
  repeat' first
    | with_reducible assumption
    | with_reducible apply gains_modEntry
    | with_reducible apply gains_withhold k
    | split

theorem gains_pullEnded (k : LinksGain P) {s : State} (num : Nat) (cause : PullCause) (hb : P s.links) :
    P (State.pullEnded s num cause).links := by
  unfold State.pullEnded
  try dsimp only
  repeat' first
    | with_reducible assumption
    | with_reducible apply gains_damageEntries
    | with_reducible apply gains_freeEntrySlots
    | with_reducible apply gains_freeSlotsIf
    | with_reducible apply gains_modOff
    | with_reducible apply gains_notReceived k
    | split
    | with_reducible refine gains_foldl _ _ (fun _ _ _ => ?_) ?_

theorem gains_tellFailure (k : LinksGain P) {s : State} (who : Issuer) (cause : PullCause) (hb : P s.links) :
    P (State.tellFailure s who cause).links := by
  unfold State.tellFailure
  repeat' first
    | with_reducible assumption
    | with_reducible apply gains_fixEnded k
    | with_reducible apply gains_pullEnded k
    | with_reducible apply gains_stepDirectiveFailed k
    | with_reducible apply gains_verifyEnded k
    | split

theorem gains_cut {s : State} (vol gen : Nat) (k : SnapKind) (hb : P s.links) : P (State.cut s vol gen k).links := by
  unfold State.cut
  repeat' first
    | with_reducible assumption
    | with_reducible apply gains_closeDue
    | with_reducible apply gains_joinPlan
    | with_reducible apply gains_modVolume
    | with_reducible apply gains_retain
    | split

theorem gains_applyEdit (k : LinksGain P) {s : State} (id : Nat) (c : EditChanges) (hb : P s.links) :
    P (State.applyEdit s id c).links := by
  unfold State.applyEdit
  try dsimp only
  repeat' first
    | with_reducible assumption
    | with_reducible apply gains_evalGrace k
    | with_reducible apply gains_lazyExpire k
    | with_reducible apply gains_regatherIf
    | with_reducible apply gains_stage
    | with_reducible apply gains_writeEdit
    | split

/-! ### The end of directives and of a step -/

theorem works_endDirective (k : LinksWork P) {s : State} (l : Link) (tag : Nat) (h : P s.links) :
    P (s.endDirective l tag).links := gains_restartIdle k.toLinksGain l (k.endDirective _ l tag h)

theorem works_failDirective (k : LinksWork P) {s : State} (l : Link) (d : Directive) (cause : PullCause)
    (h : P s.links) : P (s.failDirective l d cause).links :=
  gains_tellFailure k.toLinksGain _ _ (gains_decRefs k.toLinksGain _ (gains_freeAllOf _ (works_endDirective k l _ h)))

theorem works_finish (k : LinksWork P) {s : State} (h : P s.links) : P s.finish.links := by
  unfold State.finish
  split
  · exact h
  · exact gains_settle k.toLinksGain (tallyLinks_advance k.tally h)

end Sys2Proof.Machine
end

section
/-! SUPPORT. The restores that wait at the engine for their turn, while directives fail and CUT_DUEs are sent. -/

namespace Sys2Proof.Machine

variable {ws : List RestoreReq}

theorem waits_of_settles {s t : State} (h : Settles s t) (hb : s.rst.waiting = ws) : t.rst.waiting = ws := by
  obtain ⟨-, -, -, hrst, -⟩ := h
  rw [hrst, hb]

theorem waits_foldl {α : Type} (f : State → α → State) (xs : List α) {s : State}
    (hf : ∀ s x, s.rst.waiting = ws → (f s x).rst.waiting = ws) (h : s.rst.waiting = ws) :
    (xs.foldl f s).rst.waiting = ws := by
  induction xs generalizing s with
  | nil => exact h
  | cons x xs ih => exact ih (hf s x h)

theorem waits_iter (n : Nat) (f : State → State) {s : State}
    (hf : ∀ s, s.rst.waiting = ws → (f s).rst.waiting = ws) (h : s.rst.waiting = ws) :
    (iter n f s).rst.waiting = ws := by
  induction n generalizing s with
  | zero => exact h
  | succ n ih => exact ih (hf s h)

theorem waits_modLink {s : State} (l : Link) (f : LinkRec → LinkRec) (h : s.rst.waiting = ws) :
    (s.modLink l f).rst.waiting = ws := h

theorem waits_modRst {s : State} (f : RestoreEngine → RestoreEngine) (hf : (f s.rst).waiting = s.rst.waiting)
    (h : s.rst.waiting = ws) : (s.modRst f).rst.waiting = ws := hf.trans h

theorem waits_modPrin {s : State} (id : Nat) (f : Principal → Principal) (hb : s.rst.waiting = ws) :
    (State.modPrin s id f).rst.waiting = ws :=
  waits_of_settles (settles_modPrin _ _ (Settles.refl s)) hb

theorem waits_modVolume {s : State} (vol : Nat) (f : Volume → Volume) (hb : s.rst.waiting = ws) :
    (State.modVolume s vol f).rst.waiting = ws := hb

theorem waits_setExtent {s : State} (vol ext : Nat) (e : Extent) (hb : s.rst.waiting = ws) :
    (State.setExtent s vol ext e).rst.waiting = ws := hb

theorem waits_modSnapshot {s : State} (vol gen : Nat) (f : Snapshot → Snapshot) (hb : s.rst.waiting = ws) :
    (State.modSnapshot s vol gen f).rst.waiting = ws := hb

theorem waits_setDues {s : State} (vol : Nat) (d : Dues) (hb : s.rst.waiting = ws) :
    (State.setDues s vol d).rst.waiting = ws := hb

theorem waits_modRestore {s : State} (rec : Nat) (f : Restore → Restore) (hb : s.rst.waiting = ws) :
    (State.modRestore s rec f).rst.waiting = ws := hb

theorem waits_modStep {s : State} (rec i : Nat) (f : Step → Step) (hb : s.rst.waiting = ws) :
    (State.modStep s rec i f).rst.waiting = ws := by
  unfold State.modStep
  repeat' first
    | with_reducible assumption
    | with_reducible apply waits_modRestore

theorem waits_freeSlotsIf {s : State} (p : Slot → Bool) (hb : s.rst.waiting = ws) :
    (State.freeSlotsIf s p).rst.waiting = ws :=
  waits_of_settles (settles_freeSlotsIf _ (Settles.refl s)) hb

theorem waits_raise {s : State} (b : NoticeBody) (hb : s.rst.waiting = ws) : (State.raise s b).rst.waiting = ws :=
  waits_of_settles (settles_raise _ (Settles.refl s)) hb

theorem waits_busy {s : State} (l : Link) (hb : s.rst.waiting = ws) : (State.busy s l).rst.waiting = ws :=
  waits_of_settles (settles_busy _ (Settles.refl s)) hb

theorem waits_restartIdle {s : State} (l : Link) (hb : s.rst.waiting = ws) :
    (State.restartIdle s l).rst.waiting = ws :=
  waits_of_settles (settles_restartIdle _ (Settles.refl s)) hb

theorem waits_handNotice {s : State} (l : Link) (b : DirBody) (hb : s.rst.waiting = ws) :
    (State.handNotice s l b).rst.waiting = ws := by
  unfold State.handNotice
  repeat' first
    | with_reducible assumption
    | with_reducible apply waits_busy
    | with_reducible refine waits_modLink _ _ ?_

theorem waits_leavePlaces {s : State} (who : Issuer) (hb : s.rst.waiting = ws) :
    (State.leavePlaces s who).rst.waiting = ws :=
  waits_of_settles (settles_leavePlaces _ (Settles.refl s)) hb

theorem waits_endDirective {s : State} (l : Link) (tag : Nat) (hb : s.rst.waiting = ws) :
    (State.endDirective s l tag).rst.waiting = ws := by
  unfold State.endDirective
  repeat' first
    | with_reducible assumption
    | with_reducible apply waits_restartIdle
    | with_reducible refine waits_modLink _ _ ?_

theorem waits_pushOp {s : State} (job : Job) (postings : List Nat) (hb : s.rst.waiting = ws) :
    (State.pushOp s job postings).rst.waiting = ws :=
  waits_of_settles (settles_pushOp _ _ (Settles.refl s)) hb

theorem waits_flushReclaim {s : State} (hb : s.rst.waiting = ws) : (State.flushReclaim s).rst.waiting = ws := by
  unfold State.flushReclaim
  repeat' first
    | with_reducible assumption
    | with_reducible apply waits_handNotice
    | split

theorem waits_flushReclaims {s : State} (hb : s.rst.waiting = ws) : (State.flushReclaims s).rst.waiting = ws := by
  unfold State.flushReclaims
  repeat' first
    | with_reducible assumption
    | with_reducible apply waits_flushReclaim
    | with_reducible refine waits_iter _ _ (fun _ _ => ?_) ?_

theorem waits_sendCutDue {s : State} (vol : Nat) (nightly : Bool) (hb : s.rst.waiting = ws) :
    (State.sendCutDue s vol nightly).rst.waiting = ws := by
  unfold State.sendCutDue
  repeat' first
    | with_reducible assumption
    | with_reducible apply waits_handNotice
    | with_reducible apply waits_setDues
    | split

theorem waits_sendDues {s : State} (l : Link) (hb : s.rst.waiting = ws) : (State.sendDues s l).rst.waiting = ws := by
  unfold State.sendDues
  repeat' first
    | with_reducible assumption
    | with_reducible apply waits_sendCutDue
    | with_reducible refine waits_foldl _ _ (fun _ _ _ => ?_) ?_

theorem waits_startExpiry {s : State} (vol gen : Nat) (hb : s.rst.waiting = ws) :
    (State.startExpiry s vol gen).rst.waiting = ws := by
  unfold State.startExpiry
  repeat' first
    | with_reducible assumption
    | with_reducible apply waits_modSnapshot

theorem waits_retainOnce (vol : Nat) (k : SnapKind) {s : State} (hb : s.rst.waiting = ws) :
    (State.retainOnce vol k s).rst.waiting = ws := by
  unfold State.retainOnce
  repeat' first
    | with_reducible assumption
    | with_reducible apply waits_startExpiry
    | split

theorem waits_retain {s : State} (vol : Nat) (k : SnapKind) (hb : s.rst.waiting = ws) :
    (State.retain s vol k).rst.waiting = ws := by
  unfold State.retain
  repeat' first
    | with_reducible assumption
    | with_reducible apply waits_retainOnce
    | with_reducible refine waits_iter _ _ (fun _ _ => ?_) ?_

theorem waits_dropPin {s : State} (vol gen : Nat) (ship : Bool) (hb : s.rst.waiting = ws) :
    (State.dropPin s vol gen ship).rst.waiting = ws := by
  unfold State.dropPin
  repeat' first
    | with_reducible assumption
    | with_reducible apply waits_modSnapshot
    | with_reducible apply waits_retain
    | split

theorem waits_decRef {s : State} (vol ext loc : Nat) (hb : s.rst.waiting = ws) :
    (State.decRef s vol ext loc).rst.waiting = ws := by
  unfold State.decRef
  try dsimp only
  repeat' first
    | with_reducible assumption
    | with_reducible apply waits_flushReclaims
    | with_reducible apply waits_modVolume
    | with_reducible apply waits_setExtent
    | split

theorem waits_decRefs {s : State} (refs : List (Nat × Nat × Nat)) (hb : s.rst.waiting = ws) :
    (State.decRefs s refs).rst.waiting = ws := by
  unfold State.decRefs
  repeat' first
    | with_reducible assumption
    | with_reducible apply waits_decRef
    | with_reducible refine waits_foldl _ _ (fun _ _ _ => ?_) ?_

theorem waits_unlock {s : State} (vol ext rid : Nat) (hb : s.rst.waiting = ws) :
    (State.unlock s vol ext rid).rst.waiting = ws := by
  unfold State.unlock
  repeat' first
    | with_reducible assumption
    | with_reducible apply waits_setExtent
    | split

theorem waits_freeHolder {s : State} (h : SlotHolder) (hb : s.rst.waiting = ws) :
    (State.freeHolder s h).rst.waiting = ws :=
  waits_of_settles (settles_freeHolder _ (Settles.refl s)) hb

theorem waits_freeAllOf {s : State} (h : SlotHolder) (hb : s.rst.waiting = ws) :
    (State.freeAllOf s h).rst.waiting = ws :=
  waits_of_settles (settles_freeAllOf _ (Settles.refl s)) hb

theorem waits_modOff {s : State} (f : Offsite → Offsite) (hb : s.rst.waiting = ws) :
    (State.modOff s f).rst.waiting = ws :=
  hb

theorem waits_askRoom {s : State} (h : FetchHolder) (es : List FetchEntry) (atHead : Bool) (hb : s.rst.waiting = ws) :
    (State.askRoom s h es atHead).rst.waiting = ws :=
  waits_of_settles (settles_askRoom _ _ _ (Settles.refl s)) hb

theorem waits_withdrawFetch {s : State} (h : FetchHolder) (hb : s.rst.waiting = ws) :
    (State.withdrawFetch s h).rst.waiting = ws :=
  waits_of_settles (settles_withdrawFetch _ (Settles.refl s)) hb

theorem waits_freeEntrySlots {s : State} (es : List ShipEntry) (hb : s.rst.waiting = ws) :
    (State.freeEntrySlots s es).rst.waiting = ws :=
  waits_of_settles (settles_freeEntrySlots _ (Settles.refl s)) hb

theorem waits_damageEntries {s : State} (vol ext birth : Nat) (p : ShipEntry → Bool) (hb : s.rst.waiting = ws) :
    (State.damageEntries s vol ext birth p).rst.waiting = ws :=
  waits_of_settles (settles_damageEntries _ _ _ _ (Settles.refl s)) hb

theorem waits_fixEnded {s : State} (n idx : Nat) (ok : Bool) (hb : s.rst.waiting = ws) :
    (State.fixEnded s n idx ok).rst.waiting = ws :=
  waits_of_settles (settles_fixEnded _ _ _ (Settles.refl s)) hb

theorem waits_verifyEnded {s : State} (n : Nat) (cause : PullCause) (hb : s.rst.waiting = ws) :
    (State.verifyEnded s n cause).rst.waiting = ws :=
  waits_of_settles (settles_verifyEnded _ _ (Settles.refl s)) hb

theorem waits_modActive {s : State} (person : Nat) (f : Nat → Nat) (hb : s.rst.waiting = ws) :
    (State.modActive s person f).rst.waiting = ws := by
  unfold State.modActive
  repeat' first
    | with_reducible assumption
    | with_reducible apply waits_modPrin

theorem waits_askRelease {s : State} (person blocks : Nat) (hb : s.rst.waiting = ws) :
    (State.askRelease s person blocks).rst.waiting = ws := by
  unfold State.askRelease
  repeat' first
    | with_reducible assumption
    | with_reducible apply waits_pushOp
    | split

theorem waits_raiseEnd {s : State} (rec : Nat) (hb : s.rst.waiting = ws) :
    (State.raiseEnd s rec).rst.waiting = ws := by
  unfold State.raiseEnd
  repeat' first
    | with_reducible assumption
    | with_reducible apply waits_raise
    | split

theorem waits_unlockStep {s : State} (rec i : Nat) (hb : s.rst.waiting = ws) :
    (State.unlockStep s rec i).rst.waiting = ws := by
  unfold State.unlockStep
  repeat' first
    | with_reducible assumption
    | with_reducible apply waits_unlock
    | split

theorem waits_dropRestorePin {s : State} (rec : Nat) (hb : s.rst.waiting = ws) :
    (State.dropRestorePin s rec).rst.waiting = ws := by
  unfold State.dropRestorePin
  repeat' first
    | with_reducible assumption
    | with_reducible apply waits_dropPin
    | with_reducible apply waits_modRestore
    | split

theorem waits_dropStep {s : State} (rec i : Nat) (hb : s.rst.waiting = ws) :
    (State.dropStep s rec i).rst.waiting = ws := by
  unfold State.dropStep
  repeat' first
    | with_reducible assumption
    | with_reducible apply waits_freeHolder
    | with_reducible apply waits_leavePlaces
    | with_reducible apply waits_withdrawFetch

theorem waits_finishAs {s : State} (rec : Nat) (st : RestoreState) (cause : Option FailCause) (failed : Option (Nat × StepReason)) (hb : s.rst.waiting = ws) :
    (State.finishAs s rec st cause failed).rst.waiting = ws := by
  unfold State.finishAs
  repeat' first
    | with_reducible assumption
    | with_reducible apply waits_modRestore
    | refine waits_modRst _ rfl ?_

theorem waits_releaseBlocks {s : State} (rec blocks : Nat) (hb : s.rst.waiting = ws) :
    (State.releaseBlocks s rec blocks).rst.waiting = ws := by
  unfold State.releaseBlocks
  repeat' first
    | with_reducible assumption
    | with_reducible apply waits_askRelease
    | with_reducible apply waits_modRestore
    | split

theorem waits_settlePin {s : State} (rec : Nat) (hb : s.rst.waiting = ws) :
    (State.settlePin s rec).rst.waiting = ws := by
  unfold State.settlePin
  repeat' first
    | with_reducible assumption
    | with_reducible apply waits_dropRestorePin
    | split

theorem waits_becomeCancelled {s : State} (rec : Nat) (hb : s.rst.waiting = ws) :
    (State.becomeCancelled s rec).rst.waiting = ws := by
  unfold State.becomeCancelled
  repeat' first
    | with_reducible assumption
    | with_reducible apply waits_dropRestorePin
    | with_reducible apply waits_finishAs
    | with_reducible apply waits_modActive
    | with_reducible apply waits_raiseEnd
    | with_reducible apply waits_releaseBlocks
    | split

theorem waits_afterStep {s : State} (rec : Nat) (hb : s.rst.waiting = ws) :
    (State.afterStep s rec).rst.waiting = ws := by
  unfold State.afterStep
  repeat' first
    | with_reducible assumption
    | with_reducible apply waits_becomeCancelled
    | with_reducible apply waits_dropRestorePin
    | with_reducible apply waits_finishAs
    | with_reducible apply waits_modActive
    | with_reducible apply waits_modRestore
    | with_reducible apply waits_raiseEnd
    | with_reducible apply waits_settlePin
    | split

theorem waits_failStep {s : State} (rec i : Nat) (why : StepReason) (hb : s.rst.waiting = ws) :
    (State.failStep s rec i why).rst.waiting = ws := by
  unfold State.failStep
  repeat' first
    | with_reducible assumption
    | with_reducible apply waits_dropStep
    | with_reducible apply waits_finishAs
    | with_reducible apply waits_modActive
    | with_reducible apply waits_modStep
    | with_reducible apply waits_raiseEnd
    | with_reducible apply waits_releaseBlocks
    | with_reducible apply waits_settlePin
    | with_reducible apply waits_unlockStep
    | split
    | with_reducible refine waits_foldl _ _ (fun _ _ _ => ?_) ?_

theorem waits_stepDirectiveFailed {s : State} (rec i : Nat) (why : DirFailure) (hb : s.rst.waiting = ws) :
    (State.stepDirectiveFailed s rec i why).rst.waiting = ws := by
  unfold State.stepDirectiveFailed
  try dsimp only
  repeat' first
    | with_reducible assumption
    | with_reducible apply waits_afterStep
    | with_reducible apply waits_askRoom
    | with_reducible apply waits_failStep
    | with_reducible apply waits_freeAllOf
    | with_reducible apply waits_modStep
    | split

theorem waits_notReceived {s : State} (p : ShipPull) (cause : PullCause) (e : ShipEntry) (hb : s.rst.waiting = ws) :
    (State.notReceived s p cause e).rst.waiting = ws :=
  waits_of_settles (settles_notReceived _ _ _ (Settles.refl s)) hb

theorem waits_pullEnded {s : State} (num : Nat) (cause : PullCause) (hb : s.rst.waiting = ws) :
    (State.pullEnded s num cause).rst.waiting = ws := by
  unfold State.pullEnded
  try dsimp only
  repeat' first
    | with_reducible assumption
    | with_reducible apply waits_damageEntries
    | with_reducible apply waits_freeEntrySlots
    | with_reducible apply waits_freeSlotsIf
    | with_reducible apply waits_modOff
    | with_reducible apply waits_notReceived
    | split
    | with_reducible refine waits_foldl _ _ (fun _ _ _ => ?_) ?_

theorem waits_tellFailure {s : State} (who : Issuer) (cause : PullCause) (hb : s.rst.waiting = ws) :
    (State.tellFailure s who cause).rst.waiting = ws := by
  unfold State.tellFailure
  repeat' first
    | with_reducible assumption
    | with_reducible apply waits_fixEnded
    | with_reducible apply waits_pullEnded
    | with_reducible apply waits_stepDirectiveFailed
    | with_reducible apply waits_verifyEnded
    | split

theorem waits_failDirective {s : State} (l : Link) (d : Directive) (cause : PullCause) (hb : s.rst.waiting = ws) :
    (State.failDirective s l d cause).rst.waiting = ws := by
  unfold State.failDirective
  try dsimp only
  repeat' first
    | with_reducible assumption
    | with_reducible apply waits_decRefs
    | with_reducible apply waits_endDirective
    | with_reducible apply waits_freeAllOf
    | with_reducible apply waits_tellFailure

end Sys2Proof.Machine
end

section
/-! PROOF. The link reset (R181): loss of signal, Reset, and frames that do not fit (R169, R171, R142). -/

namespace Sys2Proof.Machine

/-! ### What a link reset leaves of its link -/

/-- A link that a reset took DOWN: nothing waits on it, and what it keeps is as it was. -/
structure LinkRec.downAs (r0 r : LinkRec) : Prop where
  up : r.up = false
  idle : r.idle = false
  hold : r.hold = none
  cursor : r.cursor = none
  delivered : r.delivered = []
  notices : r.notices = []
  tx : r.tx = []
  subs : r.subs = r0.subs
  tagCounter : r.tagCounter = r0.tagCounter
  discarded : r.discarded = r0.discarded
  queue : ∀ e ∈ r.queue, e.taken = true ∧ e.stale = true

/-- A link that a Reset left UP: what waits on it is no reply. -/
structure LinkRec.resetAs (r0 r : LinkRec) : Prop where
  up : r.up = true
  idle : r.idle = false
  hold : r.hold = none
  cursor : r.cursor = none
  delivered : r.delivered = []
  subs : r.subs = r0.subs
  noReply : ∀ tag k st b, TxFrame.reply tag k st b ∉ r.tx
  queue : ∀ e ∈ r.queue, e.taken = true ∧ e.stale = true

/-- A reply to an entry that went stale is discarded (R181). -/
theorem reply_stale {r : LinkRec} (req : Nat) (st : Status) (b : ReplyBody)
    (h : ∀ e ∈ r.queue, e.taken = true ∧ e.stale = true) :
    r.reply req st b = { r with queue := (r.reply req st b).queue } ∧
      ∀ e ∈ (r.reply req st b).queue, e.taken = true ∧ e.stale = true := by
  unfold LinkRec.reply
  cases hfind : r.queue.find? fun e => e.num == req with
  | none => exact ⟨rfl, h⟩
  | some e =>
    have hstale := (h e (List.mem_of_find?_eq_some hfind)).2
    simp only [hstale, Bool.true_or, if_true, true_and]
    exact fun x hx => h x (List.mem_of_mem_filter hx)

theorem linksWork_down (r0 : LinkRec) (l : Link) : LinksWork fun ls => r0.downAs ls[l] := by
  refine LinksWork.of_record l (LinksGain.of_record l ?_ ?_ ?_ ?_ ?_) ?_ ?_
  · exact fun r n hup h => absurd hup (by simp [h.up])
  · exact fun r b hup h => absurd hup (by simp [h.up])
  · exact fun r now h => { h with idle := rfl }
  · exact fun r now h => { h with }
  · exact fun r ws h => { h with }
  · intro r req st b h
    obtain ⟨hform, hqueue⟩ := reply_stale req st b h.queue
    rw [hform]
    exact { h with queue := hqueue }
  · exact fun r tag h => { h with tx := by rw [h.tx]; rfl }

theorem linksWork_reset (r0 : LinkRec) (l : Link) : LinksWork fun ls => r0.resetAs ls[l] := by
  refine LinksWork.of_record l (LinksGain.of_record l ?_ ?_ ?_ ?_ ?_) ?_ ?_
  · intro r n hup h
    unfold LinkRec.queueNotice
    split <;> exact { h with }
  · intro r b hup h
    refine { h with noReply := fun tag k st b' hmem => ?_ }
    rcases List.mem_append.mp hmem with hmem | hmem
    · exact h.noReply tag k st b' hmem
    · cases List.mem_singleton.mp hmem
  · exact fun r now h => { h with idle := rfl }
  · exact fun r now h => { h with }
  · exact fun r ws h => { h with }
  · intro r req st b h
    obtain ⟨hform, hqueue⟩ := reply_stale req st b h.queue
    rw [hform]
    exact { h with queue := hqueue }
  · exact fun r tag h => { h with noReply := fun t k st b hmem => h.noReply t k st b (List.mem_of_mem_filter hmem) }

/-- The registers of a link that no work of the blocks changes. -/
def LinkRec.registers (r : LinkRec) : Bool × List Nat × Option (List Staged) × Option Cursor × Nat :=
  (r.up, r.subs, r.hold, r.cursor, r.discarded)

theorem linksWork_registers (r0 : LinkRec) (l : Link) : LinksWork fun ls => (ls[l]).registers = r0.registers := by
  refine LinksWork.of_record (R := fun r => r.registers = r0.registers) l
    (LinksGain.of_record (R := fun r => r.registers = r0.registers) l ?_ ?_ ?_ ?_ ?_) ?_ ?_
  · intro r n _ h
    unfold LinkRec.queueNotice
    split <;> exact h
  · exact fun r b _ h => h
  · exact fun r now h => h
  · exact fun r now h => h
  · exact fun r ws h => h
  · intro r req st b h
    unfold LinkRec.reply
    split <;> exact h
  · exact fun r tag h => h

/-- The directives of a link stand as links gain notices and frames. -/
theorem linksGain_directives (ds : List Directive) (l : Link) : LinksGain fun ls => (ls[l]).directives = ds := by
  refine LinksGain.of_record (R := fun r => r.directives = ds) l ?_ ?_ ?_ ?_ ?_
  · intro r n _ h
    unfold LinkRec.queueNotice
    split <;> exact h
  · exact fun r b _ h => h
  · exact fun r now h => h
  · exact fun r now h => h
  · exact fun r ws h => h

/-! ### The directives of a link failed -/

/-- A directive that fails leaves its link's list, and no other directive does. -/
theorem directives_failDirective (s : State) (l j : Link) (d : Directive) (cause : PullCause) :
    ((s.failDirective l d cause).link j).directives =
      if l = j then (s.link j).directives.filter fun x => x.tag != d.tag else (s.link j).directives := by
  have k := linksGain_directives ((s.endDirective l d.tag).link j).directives j
  have hended : (((s.endDirective l d.tag).freeAllOf (.gone l d.tag)).link j).directives =
      ((s.endDirective l d.tag).link j).directives := rfl
  have hgain : ((s.failDirective l d cause).link j).directives = ((s.endDirective l d.tag).link j).directives :=
    gains_tellFailure k _ _ (gains_decRefs k _ hended)
  rw [hgain]
  simp only [State.endDirective, State.restartIdle, modLink_modLink, State.link_modLink]
  split
  next h => subst h; rfl
  · rfl

/-- Directives that fail in turn leave their link's list. -/
theorem directives_failed {l : Link} (cause : PullCause) (ds : List Directive) {s : State}
    (h : ∀ d ∈ (s.link l).directives, ∃ x ∈ ds, x.tag = d.tag) :
    ((ds.foldl (fun s d => s.failDirective l d cause) s).link l).directives = [] ∧
      ∀ j, l ≠ j → ((ds.foldl (fun s d => s.failDirective l d cause) s).link j).directives = (s.link j).directives := by
  induction ds generalizing s with
  | nil =>
    refine ⟨List.eq_nil_iff_forall_not_mem.mpr fun d hd => ?_, fun _ _ => rfl⟩
    obtain ⟨x, hx, -⟩ := h d hd
    cases hx
  | cons x xs ih =>
    have hrest : ∀ d ∈ ((s.failDirective l x cause).link l).directives, ∃ y ∈ xs, y.tag = d.tag := by
      intro d hd
      rw [directives_failDirective, if_pos rfl] at hd
      obtain ⟨hd, hne⟩ := List.mem_filter.mp hd
      obtain ⟨y, hy, htag⟩ := h d hd
      rcases List.mem_cons.mp hy with rfl | hy
      · simp [htag] at hne
      · exact ⟨y, hy, htag⟩
    obtain ⟨hnil, hothers⟩ := ih hrest
    refine ⟨hnil, fun j hj => (hothers j hj).trans ?_⟩
    rw [directives_failDirective, if_neg hj]

theorem works_failDirectives {P : Vector LinkRec 6 → Prop} (k : LinksWork P) (l : Link) (cause : PullCause)
    (ds : List Directive) {s : State} (h : P s.links) :
    P (ds.foldl (fun s d => s.failDirective l d cause) s).links :=
  gains_foldl _ ds (fun _ d hs => works_failDirective k l d cause hs) h

/-! ### The reset -/

/-- A link's record as its reset begins. -/
def LinkRec.wiped (r : LinkRec) (keepUp : Bool) (now : Nat) : LinkRec := { r.reset keepUp with idleFrom := now }

/-- The state in which a reset link's directives fail. -/
def State.resetBegun (s : State) (l : Link) (keepUp : Bool) : State :=
  (((s.modLink l (·.reset keepUp)).modLink l fun r => { r with idleFrom := s.sup.elapsed }).modRst fun e =>
    { e with waiting := e.waiting.filter fun q => decide (q.link ≠ l) }).unsendDues l

/-- The state in which a reset link's directives have failed. -/
def State.resetFailed (s : State) (l : Link) (keepUp : Bool) : State :=
  (s.link l).directives.foldl (fun s d => s.failDirective l d .reset) (s.resetBegun l keepUp)

theorem resetLink_eq (s : State) (l : Link) (keepUp : Bool) :
    s.resetLink l keepUp = if keepUp then (s.resetFailed l keepUp).sendDues l else s.resetFailed l keepUp := rfl

theorem resetBegun_link (s : State) (l : Link) (keepUp : Bool) :
    (s.resetBegun l keepUp).link l = (s.link l).wiped keepUp s.sup.elapsed := by
  show ((s.modLink l (·.reset keepUp)).modLink l fun r => { r with idleFrom := s.sup.elapsed }).link l = _
  rw [modLink_modLink, State.link_modLink_self]
  rfl

theorem resetBegun_link_ne (s : State) {l j : Link} (keepUp : Bool) (h : l ≠ j) :
    (s.resetBegun l keepUp).link j = s.link j := by
  show ((s.modLink l (·.reset keepUp)).modLink l fun r => { r with idleFrom := s.sup.elapsed }).link j = _
  rw [modLink_modLink, State.link_modLink, if_neg h]

/-- What a link's reset makes of all links, what keeps a property of links keeps through the rest of it. -/
theorem works_resetLink {P : Vector LinkRec 6 → Prop} (k : LinksWork P) {s : State} {l : Link} {keepUp : Bool}
    (h : P (s.resetBegun l keepUp).links) : P (s.resetLink l keepUp).links := by
  have hfailed : P (s.resetFailed l keepUp).links := works_failDirectives k l .reset _ h
  rw [resetLink_eq]
  split
  · exact gains_sendDues k.toLinksGain l hfailed
  · exact hfailed

theorem wiped_queue (r : LinkRec) (keepUp : Bool) (now : Nat) :
    ∀ e ∈ (r.wiped keepUp now).queue, e.taken = true ∧ e.stale = true := by
  intro e he
  obtain ⟨x, hx, rfl⟩ := List.mem_map.mp he
  exact ⟨(List.mem_filter.mp hx).2, rfl⟩

theorem wiped_down (r : LinkRec) (now : Nat) : r.downAs (r.wiped false now) :=
  ⟨Bool.and_false _, rfl, rfl, rfl, rfl, rfl, rfl, rfl, rfl, rfl, wiped_queue r false now⟩

theorem wiped_reset {r : LinkRec} (now : Nat) (hup : r.up = true) : r.resetAs (r.wiped true now) :=
  ⟨by simp [LinkRec.wiped, LinkRec.reset, hup], rfl, rfl, rfl, rfl, rfl, (fun _ _ _ _ h => nomatch h),
    wiped_queue r true now⟩

theorem directives_resetLink (s : State) (l : Link) (keepUp : Bool) :
    ((s.resetLink l keepUp).link l).directives = [] ∧
      ∀ j, l ≠ j → ((s.resetLink l keepUp).link j).directives = (s.link j).directives := by
  have hfailed := directives_failed (l := l) .reset (s.link l).directives (s := s.resetBegun l keepUp)
    (by rw [resetBegun_link]; exact fun d hd => ⟨d, hd, rfl⟩)
  obtain ⟨hnil, hothers⟩ := hfailed
  have hsend (j : Link) : ((s.resetLink l keepUp).link j).directives = ((s.resetFailed l keepUp).link j).directives := by
    rw [resetLink_eq]
    split
    · exact gains_sendDues (linksGain_directives _ j) l rfl
    · rfl
  refine ⟨(hsend l).trans hnil, fun j hj => (hsend j).trans ((hothers j hj).trans ?_)⟩
  rw [resetBegun_link_ne s keepUp hj]

/-- A link reset discards the restores of its link that wait for their turn (R86, R181). -/
theorem waiting_resetLink (s : State) (l : Link) (keepUp : Bool) :
    (s.resetLink l keepUp).rst.waiting = s.rst.waiting.filter fun q => decide (q.link ≠ l) := by
  have hfailed : (s.resetFailed l keepUp).rst.waiting = s.rst.waiting.filter fun q => decide (q.link ≠ l) :=
    waits_foldl _ _ (fun _ d hs => waits_failDirective l d .reset hs) rfl
  rw [resetLink_eq]
  split
  · exact waits_sendDues l hfailed
  · exact hfailed

theorem not_waiting_resetLink (s : State) (l : Link) (keepUp : Bool) :
    ∀ q ∈ (s.resetLink l keepUp).finish.rst.waiting, q.link ≠ l := by
  rw [finish_rst, waiting_resetLink]
  intro q hq
  simpa using (List.mem_filter.mp hq).2

/-- A link's record after a loss of signal, at the end of the step. -/
theorem downAs_resetLink (s : State) (l : Link) : (s.link l).downAs ((s.resetLink l false).finish.link l) := by
  have k := linksWork_down (s.link l) l
  have hbegun : (s.link l).downAs ((s.resetBegun l false).link l) := by
    rw [resetBegun_link]
    exact wiped_down _ _
  exact works_finish k (works_resetLink k hbegun)

/-- An UP link's record after a Reset, at the end of the step. -/
theorem resetAs_resetLink {s : State} {l : Link} (hup : (s.link l).up = true) :
    (s.link l).resetAs ((s.resetLink l true).finish.link l) := by
  have k := linksWork_reset (s.link l) l
  have hbegun : (s.link l).resetAs ((s.resetBegun l true).link l) := by
    rw [resetBegun_link]
    exact wiped_reset _ hup
  exact works_finish k (works_resetLink k hbegun)

/-- The other links keep their registers through a link reset. -/
theorem registers_resetLink (s : State) {l j : Link} (keepUp : Bool) (h : l ≠ j) :
    ((s.resetLink l keepUp).finish.link j).registers = (s.link j).registers := by
  have k := linksWork_registers (s.link j) j
  have hbegun : ((s.resetBegun l keepUp).link j).registers = (s.link j).registers := by
    rw [resetBegun_link_ne s keepUp h]
  exact works_finish k (works_resetLink k hbegun)

theorem directives_resetLink_finish (s : State) (l : Link) (keepUp : Bool) :
    ((s.resetLink l keepUp).finish.link l).directives = [] ∧
      ∀ j, l ≠ j → ((s.resetLink l keepUp).finish.link j).directives = (s.link j).directives := by
  obtain ⟨hnil, hothers⟩ := directives_resetLink s l keepUp
  have hfinish (j : Link) := (finish_link_kept (s.resetLink l keepUp) j).2.1
  exact ⟨(hfinish l).trans hnil, fun j hj => (hfinish j).trans (hothers j hj)⟩

/-! ### A Reset of a link at rest -/

/-- No notice waits on a link, and of frames only CUT_DUEs. -/
def LinkRec.onlyCutDues (r : LinkRec) : Prop :=
  r.notices = [] ∧ ∀ f ∈ r.tx, ∃ tag vol nightly gen, f = .directive tag (.cutDue vol nightly gen)

theorem sendCutDue_onlyCutDues {s : State} {l : Link} (vol : Nat) (nightly : Bool) (h : (s.link l).onlyCutDues) :
    ((s.sendCutDue vol nightly).link l).onlyCutDues := by
  unfold State.sendCutDue
  split
  next v d hv hd =>
    split
    · simp only [State.handNotice, State.busy, modLink_modLink, State.link_modLink]
      split
      next hl =>
        subst hl
        refine ⟨h.1, fun f hf => ?_⟩
        rcases List.mem_append.mp hf with hf | hf
        · exact h.2 f hf
        · exact ⟨_, _, _, _, List.mem_singleton.mp hf⟩
      · exact h
    · exact h
  · exact h

theorem sendDues_onlyCutDues {s : State} {l : Link} (j : Link) (h : (s.link l).onlyCutDues) :
    ((s.sendDues j).link l).onlyCutDues := by
  refine gains_foldl (P := fun ls => (ls[l]).onlyCutDues) _ _ (fun s vol hs => ?_) h
  exact sendCutDue_onlyCutDues vol true (s := s.sendCutDue vol false) (sendCutDue_onlyCutDues vol false hs)

theorem sendCutDue_pat (s : State) (vol : Nat) (nightly : Bool) : (s.sendCutDue vol nightly).pat = s.pat := by
  unfold State.sendCutDue
  repeat' split
  all_goals rfl

theorem sendDues_pat (s : State) (l : Link) : (s.sendDues l).pat = s.pat := by
  unfold State.sendDues
  generalize s.volumesIf _ = vols
  induction vols generalizing s with
  | nil => rfl
  | cons vol vols ih => rw [List.foldl_cons, ih, sendCutDue_pat, sendCutDue_pat]

/-- After a Reset of a link without directives, with the blocks at rest, no frame waits but the CUT_DUEs sent anew
(R74). -/
theorem onlyCutDues_resetLink {s : State} {l : Link} (hcalm : s.calm) (hrun : s.sup.op ≠ .halted)
    (hd : (s.link l).directives = []) : ((s.resetLink l true).finish.link l).onlyCutDues := by
  have hform : s.resetLink l true = (s.resetBegun l true).sendDues l := by
    rw [resetLink_eq, if_pos rfl, State.resetFailed, hd]
    rfl
  have htally : ((s.resetBegun l true).sendDues l).tally = s.tally := tallyKept_sendDues l rfl
  have hpat : ((s.resetBegun l true).sendDues l).pat = s.pat := sendDues_pat _ l
  have hop : ((s.resetBegun l true).sendDues l).sup.op = s.sup.op := (supKept_sendDues l (supKept_refl (s.resetBegun l true).sup)).1
  have hcalm' : ((s.resetBegun l true).sendDues l).calm := by
    simpa only [State.calm, State.tallyStill, State.patrolStill, htally, hpat] using hcalm
  rw [hform, finish_link hcalm' (by rw [hop]; exact hrun)]
  refine sendDues_onlyCutDues l ?_
  rw [resetBegun_link]
  exact ⟨rfl, fun f hf => nomatch hf⟩

/-! ### The commands that reset a link -/

theorem exec_serialLossOfSignal {s : State} {l : Link} (hrun : s.sup.op ≠ .halted) (hup : (s.link l).up = true) :
    Machine.exec (.serialLossOfSignal l) s = .next (({ s with sent := [] } : State).resetLink l false).finish := by
  refine (act_running _ hrun).trans (congrArg Host.Outcome.next ?_)
  refine (withErrs_nil (s := { s with sent := [] }) _ hrun).trans ?_
  exact if_pos hup

/-- The state that a Reset finds: its own entry has left the queue again. -/
def State.resetAsked (s : State) (l : Link) (tag : Nat) : State :=
  (s.asked l tag .reset).modLink l fun r => { r with queue := r.queue.filter fun e => e.num != s.sup.nextReq }

theorem exec_reset {s : State} {l : Link} (tag : Nat) (h : s.takes l) :
    Machine.exec (.reset l tag) s = .next ((s.resetAsked l tag).resetLink l true).finish :=
  act_asked tag .reset _ h (.inl rfl)

theorem resetAsked_link (s : State) (l : Link) (tag : Nat) :
    ((s.resetAsked l tag).link l).up = true ∧ ((s.resetAsked l tag).link l).subs = (s.link l).subs ∧
      ((s.resetAsked l tag).link l).directives = (s.link l).directives := by
  rw [State.resetAsked, State.link_modLink_self, asked_link]
  exact ⟨rfl, rfl, rfl⟩

theorem resetAsked_link_ne (s : State) {l j : Link} (tag : Nat) (h : l ≠ j) :
    (s.resetAsked l tag).link j = s.link j := by
  rw [State.resetAsked, State.link_modLink, if_neg h, asked_link_ne s tag _ h]

/-! ### Frames discarded -/

/-- The step of a frame of bad sync or bad check code. -/
theorem exec_frameDiscard_bad {s : State} (l : Link) {bytes : List Byte} (hrun : s.sup.op ≠ .halted)
    (h : parseFrame bytes = .badSync ∨ parseFrame bytes = .badCode ∨ parseFrame bytes = .badLength false) :
    Machine.exec (.frameDiscard l bytes) s = .next (({ s with sent := [] } : State).badFrame l).finish := by
  change execFrameDiscard l bytes s = _
  rw [execFrameDiscard, act_running _ hrun]
  rcases h with h | h | h <;> rw [h] <;> exact congrArg Host.Outcome.next (withErrs_nil _ hrun)

theorem supKept_arrive_unsent (s : State) (l : Link) :
    supKept s.sup ((({ s with sent := [] } : State).arrive l).sup) := supKept_arrive l (supKept_refl s.sup)

/-- The step of a frame of correct check code that is discarded for its length or flags, or as an unfit answer. -/
theorem exec_frameDiscard_arrived {s : State} (l : Link) {bytes : List Byte} (hrun : s.sup.op ≠ .halted)
    (h : parseFrame bytes = .badLength true ∨
      ∃ f, parseFrame bytes = .good f ∧ (f.classify = .badFlags ∨ f.classify = .answer false)) :
    Machine.exec (.frameDiscard l bytes) s =
      .next ((({ s with sent := [] } : State).arrive l).countDiscard l).finish := by
  have hrun' : (({ s with sent := [] } : State).arrive l).sup.op ≠ .halted := by
    rw [(supKept_arrive_unsent s l).1]
    exact hrun
  change execFrameDiscard l bytes s = _
  rw [execFrameDiscard, act_running _ hrun]
  refine congrArg Host.Outcome.next ?_
  rcases h with h | ⟨f, h, hc | hc⟩
  · rw [h]
    exact withErrs_nil _ hrun'
  · rw [h]
    dsimp only
    rw [hc]
    exact withErrs_nil _ hrun'
  · rw [h]
    dsimp only
    rw [hc]
    exact withErrs_nil _ hrun'

theorem arrive_up {s : State} {l : Link} (hup : (s.link l).up = true) :
    s.arrive l = s.modLink l fun r => { r with up := true, badRun := 0 } := by
  simp [State.arrive, hup]

theorem arrive_down {s : State} {l : Link} (hup : (s.link l).up = false) :
    s.arrive l = (((s.modLink l fun r => { r with up := true, badRun := 0 }).busy l).flushReclaims).sendDues l := by
  simp [State.arrive, hup]

/-- What stands on a link that a frame has brought UP. -/
def LinkRec.arrivedAs (r0 r : LinkRec) : Prop :=
  r.up = true ∧ r.badRun = 0 ∧ r.discarded = r0.discarded ∧ r.directives = r0.directives

theorem linksGain_arrived (r0 : LinkRec) (l : Link) : LinksGain fun ls => r0.arrivedAs ls[l] := by
  refine LinksGain.of_record l ?_ ?_ ?_ ?_ ?_
  · intro r n _ h
    unfold LinkRec.queueNotice
    split <;> exact h
  · exact fun r b _ h => h
  · exact fun r now h => h
  · exact fun r now h => h
  · exact fun r ws h => h

theorem arrivedAs_arrive (s : State) (l : Link) : (s.link l).arrivedAs ((s.arrive l).link l) := by
  have hfirst : (s.link l).arrivedAs ((s.modLink l fun r => { r with up := true, badRun := 0 }).link l) := by
    rw [State.link_modLink_self]
    exact ⟨rfl, rfl, rfl, rfl⟩
  cases hup : (s.link l).up with
  | true => rwa [arrive_up hup]
  | false =>
    have k := linksGain_arrived (s.link l) l
    rw [arrive_down hup]
    exact gains_sendDues k l (gains_flushReclaims k (gains_busy k l hfirst))

theorem flushReclaims_kept (s : State) :
    s.flushReclaims.rst = s.rst ∧ s.flushReclaims.tally = s.tally ∧ s.flushReclaims.pat = s.pat := by
  refine iter_keeps (P := fun u => u.rst = s.rst ∧ u.tally = s.tally ∧ u.pat = s.pat) (fun u hu => ?_) _ ⟨rfl, rfl, rfl⟩
  unfold State.flushReclaim
  repeat' split
  all_goals exact hu

theorem sendDues_kept (s : State) (l : Link) :
    (s.sendDues l).rst = s.rst ∧ (s.sendDues l).tally = s.tally ∧ (s.sendDues l).pat = s.pat := by
  refine ⟨?_, tallyKept_sendDues l rfl, sendDues_pat s l⟩
  have hsend (u : State) (vol : Nat) (nightly : Bool) : (u.sendCutDue vol nightly).rst = u.rst := by
    unfold State.sendCutDue
    repeat' split
    all_goals rfl
  unfold State.sendDues
  generalize s.volumesIf _ = vols
  induction vols generalizing s with
  | nil => rfl
  | cons vol vols ih => rw [List.foldl_cons, ih, hsend, hsend]

/-- A frame's arrival leaves restores, tally and patrol as they are. -/
theorem arrive_kept (s : State) (l : Link) :
    (s.arrive l).rst = s.rst ∧ (s.arrive l).tally = s.tally ∧ (s.arrive l).pat = s.pat := by
  cases hup : (s.link l).up with
  | true =>
    rw [arrive_up hup]
    exact ⟨rfl, rfl, rfl⟩
  | false =>
    rw [arrive_down hup]
    obtain ⟨hrst, htally, hpat⟩ := sendDues_kept
      (((s.modLink l fun r => { r with up := true, badRun := 0 }).busy l).flushReclaims) l
    obtain ⟨krst, ktally, kpat⟩ := flushReclaims_kept
      ((s.modLink l fun r => { r with up := true, badRun := 0 }).busy l)
    exact ⟨hrst.trans krst, htally.trans ktally, hpat.trans kpat⟩

/-- What a discarded frame of correct check code leaves. -/
theorem countDiscard_arrive {s : State} (l : Link) (hrun : s.sup.op ≠ .halted) :
    ∃ t, ((({ s with sent := [] } : State).arrive l).countDiscard l).finish = t ∧ SupKept s t ∧
      (t.link l).discarded = (s.link l).discarded + 1 ∧ (t.link l).up = true ∧
      (t.link l).directives = (s.link l).directives ∧ (t.link l).badRun = 0 ∧ t.rst = s.rst ∧
      (s.tallyStill → t.tally = s.tally) ∧ (s.patrolStill → t.pat = s.pat) ∧
      ((s.link l).up = true → catSettles s.cat t.cat ∧ (s.calm → Undisturbed s t)) := by
  let a := ({ s with sent := [] } : State).arrive l
  let u := a.countDiscard l
  obtain ⟨hup, hbad, hdisc, hdir⟩ := arrivedAs_arrive { s with sent := [] } l
  obtain ⟨hrst, htally, hpat⟩ := arrive_kept { s with sent := [] } l
  obtain ⟨kup, kdir, -, -, -, -, -, kdisc, kbad, -⟩ := finish_link_kept u l
  have hlink : u.link l = { a.link l with discarded := (a.link l).discarded + 1 } := State.link_modLink_self _ _ _
  rw [hlink] at kup kdir kdisc kbad
  refine ⟨_, rfl, supKept_finish_of (supKept_arrive_unsent s l), ?_, kup.trans hup, kdir.trans hdir, kbad.trans hbad,
    (finish_rst u).trans hrst, fun hstill => ?_, fun hstill => ?_, fun hwas => ?_⟩
  · exact kdisc.trans (congrArg (· + 1) hdisc)
  · have hstill' : u.tallyStill := by
      show a.tallyStill
      rwa [State.tallyStill, htally]
    exact (finish_tally hstill').trans htally
  · have hstill' : u.patrolStill := by
      show a.patrolStill
      rwa [State.patrolStill, hpat]
    exact (finish_pat hstill').trans hpat
  · have ha : a = _ := arrive_up (s := { s with sent := [] }) hwas
    have halike : LinkAlike u s := by
      have hu : u = a.countDiscard l := rfl
      rw [hu, ha]
      exact ⟨rfl, rfl, rfl, rfl, rfl, rfl, rfl⟩
    obtain ⟨-, -, hcat, -⟩ := finish_settles u
    refine ⟨?_, fun hcalm => undisturbed_finish halike ?_ (by rw [halike.2.2.2.1]; exact hrun)⟩
    · have hucat : u.cat = s.cat := halike.2.1
      rwa [hucat] at hcat
    · have hutally : u.tally = s.tally := htally
      have hupat : u.pat = s.pat := hpat
      rwa [State.calm, State.tallyStill, State.patrolStill, hutally, hupat]

/-- A bad frame that does not end the link: it is counted, and the run of bad frames goes on. -/
theorem badFrame_counted {s : State} {l : Link} (h : (s.link l).up = false ∨ (s.link l).badRun < 3) :
    s.badFrame l = (s.countDiscard l).modLink l fun r => { r with badRun := r.badRun + 1 } := by
  refine if_neg ?_
  simp only [State.countDiscard, modLink_modLink, State.link_modLink_self]
  rintro ⟨hup, hrun⟩
  rcases h with h | h
  · simp [h] at hup
  · omega

/-- The fourth bad frame in a row takes an UP link DOWN. -/
theorem badFrame_fourth {s : State} {l : Link} (hup : (s.link l).up = true) (hbad : 3 ≤ (s.link l).badRun) :
    s.badFrame l = ((s.countDiscard l).modLink l fun r => { r with badRun := r.badRun + 1 }).resetLink l false := by
  refine if_pos ?_
  simp only [State.countDiscard, modLink_modLink, State.link_modLink_self]
  exact ⟨hup, by omega⟩

/-- The step of an unfit request: it is answered MALFORMED as it arrives (R171). -/
theorem exec_unknownRequest {s : State} {l : Link} {bytes : List Byte} {f : Frame} (hrun : s.sup.op ≠ .halted)
    (hup : (s.link l).up = true) (hf : parseFrame bytes = .good f) (hc : f.classify = .request false) :
    Machine.exec (.unknownRequest l bytes) s =
      .next (s.rebuffed l f.tag (ReqKind.ofCode f.kind) .malformed).finish := by
  change execUnknownRequest l bytes s = _
  rw [execUnknownRequest, act_running _ hrun]
  refine congrArg Host.Outcome.next ?_
  rw [hf]
  dsimp only
  rw [hc]
  dsimp only
  have harrive : (({ s with sent := [] } : State).arrive l).busy l =
      ({ s with sent := [] } : State).modLink l fun r =>
        { r with up := true, badRun := 0, idle := false, idleFrom := s.sup.elapsed } := by
    rw [arrive_up (s := { s with sent := [] }) hup, State.busy, modLink_modLink]
    rfl
  rw [harrive]
  exact withErrs_nil _ hrun

end Sys2Proof.Machine

open Sys2Proof Sys2Proof.Machine

/-- Settles O15: what a reset leaves of its link every later work of the step keeps, and it leaves the registers of
the other links. -/
theorem linkResetClearsItsLink : Obligations.LinkResetClearsItsLink := by
  refine ⟨fun s l hrun hup => ?_, fun s l tag h => ?_⟩
  · let u : State := { s with sent := [] }
    have hdown := downAs_resetLink u l
    obtain ⟨hnil, hothers⟩ := directives_resetLink_finish u l false
    refine ⟨_, exec_serialLossOfSignal hrun hup, supKept_finish_of (supKept_resetLink l false (supKept_refl _)), hdown.up,
      hdown.idle, hdown.hold, hdown.cursor, hdown.delivered, hnil, hdown.notices, hdown.tx, hdown.subs,
      hdown.tagCounter, hdown.queue, not_waiting_resetLink u l false, fun k hk => ?_⟩
    have hkept := registers_resetLink u false (Ne.symm hk)
    simp only [LinkRec.registers, Prod.mk.injEq] at hkept
    obtain ⟨kup, ksubs, khold, kcur, -⟩ := hkept
    exact ⟨kup, ksubs, khold, kcur, hothers k (Ne.symm hk)⟩
  · let u := s.resetAsked l tag
    obtain ⟨hup, hsubs, hdirs⟩ := resetAsked_link s l tag
    have hreset := resetAs_resetLink hup
    obtain ⟨hnil, -⟩ := directives_resetLink_finish u l true
    refine ⟨_, exec_reset tag h, supKept_finish_of (supKept_resetLink l true (supKept_refl _)), hreset.up, hreset.idle,
      hreset.hold, hreset.cursor, hreset.delivered, hnil, hreset.subs.trans hsubs, hreset.queue,
      not_waiting_resetLink u l true, fun st b => hreset.noReply tag .reset st b, fun hcalm hd => ?_, fun k hk => ?_⟩
    · exact onlyCutDues_resetLink (s := u) hcalm (asked_running tag .reset h) (hdirs.trans hd)
    · have hkept := registers_resetLink u true (Ne.symm hk)
      rw [resetAsked_link_ne s tag (Ne.symm hk)] at hkept
      simp only [LinkRec.registers, Prod.mk.injEq] at hkept
      obtain ⟨kup, ksubs, khold, kcur, -⟩ := hkept
      exact ⟨kup, ksubs, khold, kcur⟩

/-- Settles O16, by what the frame is found to be. -/
theorem unfitFramesAreDiscarded : Obligations.UnfitFramesAreDiscarded := by
  refine ⟨fun s l bytes hrun hbad => ?_, fun s l bytes hrun hlen => ?_, fun s l bytes f hrun hup hf hc => ?_,
    fun s l bytes f hrun hup hf hc => ?_, fun s bytes => ?_⟩
  · let u : State := { s with sent := [] }
    let c := (u.countDiscard l).modLink l fun r => { r with badRun := r.badRun + 1 }
    have hc : c.link l = { s.link l with discarded := (s.link l).discarded + 1, badRun := (s.link l).badRun + 1 } := by
      simp only [c, State.countDiscard, modLink_modLink, State.link_modLink_self]
      rfl
    by_cases hend : (s.link l).up = true ∧ 3 ≤ (s.link l).badRun
    · have hdown := downAs_resetLink c l
      have hdisc := hdown.discarded
      have hsubs := hdown.subs
      rw [hc] at hdisc hsubs
      refine ⟨(c.resetLink l false).finish, (exec_frameDiscard_bad l hrun hbad).trans
          (congrArg (fun t : State => Host.Outcome.next t.finish) (badFrame_fourth (s := u) hend.1 hend.2)),
        supKept_finish_of (supKept_resetLink l false (supKept_refl _)), hdisc, hsubs, fun _ _ => ⟨hdown.up, hdown.hold⟩,
        fun hnot => ?_⟩
      rcases hnot with hnot | hnot
      · simp [hend.1] at hnot
      · omega
    · have hcounts : (s.link l).up = false ∨ (s.link l).badRun < 3 := by
        cases hup : (s.link l).up with
        | false => exact .inl rfl
        | true => exact .inr (Nat.not_le.mp fun hle => hend ⟨hup, hle⟩)
      obtain ⟨kup, kdir, ksubs, -, -, khold, -, kdisc, kbad, -⟩ := finish_link_kept c l
      rw [hc] at kup kdir ksubs khold kdisc kbad
      refine ⟨c.finish, (exec_frameDiscard_bad l hrun hbad).trans
          (congrArg (fun t : State => Host.Outcome.next t.finish) (badFrame_counted (s := u) hcounts)),
        supKept_finish_of (supKept_refl _), kdisc, ksubs, fun h1 h2 => absurd ⟨h1, h2⟩ hend,
        fun _ => ⟨kup, kbad, khold, kdir, finish_rst c⟩⟩
  · obtain ⟨t, ht, hspec⟩ := countDiscard_arrive l hrun
    exact ⟨t, (exec_frameDiscard_arrived l hrun (.inl hlen)).trans (congrArg Host.Outcome.next ht), hspec⟩
  · obtain ⟨t, ht, hsup, hdisc, hup', hdir, -, hrst, -, -, hwas⟩ := countDiscard_arrive l hrun
    exact ⟨t, (exec_frameDiscard_arrived l hrun (.inr ⟨f, hf, hc⟩)).trans (congrArg Host.Outcome.next ht), hsup, hdisc,
      hup', hdir, hrst, (hwas hup).1⟩
  · exact ⟨_, exec_unknownRequest hrun hup hf hc, spared_rebuffed _ _ _ hup, (answered_rebuffed _ _ _ _ _).finish⟩
  · by_cases hhalt : s.sup.op = .halted
    · exact act_halted (fun s => s) hhalt
    · exact act_running (fun s => s) hhalt
end

section
/-! SUPPORT. The window and the settings: what opening, closing and evaluating the window keep, and that a request
stays with its block while links only gain. -/

namespace Sys2Proof.Machine

/-! ### A request that its block still holds -/

/-- The record of a link whose request has come to its block and is not yet answered. -/
def LinkRec.holdsRequest (r0 : LinkRec) (e : ReqEntry) (r : LinkRec) : Prop :=
  r.up = true ∧ (∃ more, r.tx = r0.tx ++ more) ∧ r.queue = r0.queue ++ [e]

theorem linksGain_holdsRequest (r0 : LinkRec) (e : ReqEntry) (l : Link) :
    LinksGain fun ls => r0.holdsRequest e ls[l] := by
  refine LinksGain.of_record l ?_ ?_ ?_ ?_ ?_
  · intro r n _ h
    unfold LinkRec.queueNotice
    split <;> exact h
  · rintro r b - ⟨hup, ⟨more, htx⟩, hq⟩
    exact ⟨hup, ⟨more ++ [.directive r.nextTag b], by rw [htx, List.append_assoc]⟩, hq⟩
  · exact fun r now h => h
  · exact fun r now h => h
  · exact fun r ws h => h

/-- While links only gain, a request stays with its block. -/
theorem Entered.gains {s u v : State} {l : Link} {tag : Nat} {k : ReqKind} {taken : Bool}
    (h : Entered s u l tag k taken)
    (hg : ∀ P : Vector LinkRec 6 → Prop, LinksGain P → P u.links → P v.links) : Entered s v l tag k taken :=
  hg _ (linksGain_holdsRequest (s.link l) (entryOf s tag k taken) l) h

/-! ### The registers beside the settings -/

/-- The Supervisor's registers but for the settings in force and those that wait for a window. -/
def supRuns (u v : Supervisor) : Prop :=
  v.op = u.op ∧ v.stage = u.stage ∧ v.layout = u.layout ∧ v.clock = u.clock ∧ v.clockSet = u.clockSet ∧
    v.counted = u.counted ∧ v.hourlyTaken = u.hourlyTaken ∧ v.elapsed = u.elapsed ∧
    v.powerWarn = u.powerWarn ∧ v.cleanFlag = u.cleanFlag ∧ v.prevClean = u.prevClean ∧ v.quiet = u.quiet

theorem supRuns_of_kept {u v : Supervisor} (h : supKept u v) : supRuns u v := by
  obtain ⟨h1, h2, h3, h4, h5, h6, h7, h8, h9, h10, h11, h12, -⟩ := h
  exact ⟨h1, h2, h3, h4, h5, h6, h7, h8, h9, h10, h11, h12⟩

theorem supRuns_refl (u : Supervisor) : supRuns u u := supRuns_of_kept (supKept_refl u)

theorem supRuns.trans {u v w : Supervisor} (h : supRuns u v) (k : supRuns v w) : supRuns u w := by
  obtain ⟨h1, h2, h3, h4, h5, h6, h7, h8, h9, h10, h11, h12⟩ := h
  obtain ⟨k1, k2, k3, k4, k5, k6, k7, k8, k9, k10, k11, k12⟩ := k
  exact ⟨k1.trans h1, k2.trans h2, k3.trans h3, k4.trans h4, k5.trans h5, k6.trans h6, k7.trans h7, k8.trans h8,
    k9.trans h9, k10.trans h10, k11.trans h11, k12.trans h12⟩

theorem supKept.trans {u v w : Supervisor} (h : supKept u v) (k : supKept v w) : supKept u w := by
  obtain ⟨h1, h2, h3, h4, h5, h6, h7, h8, h9, h10, h11, h12, h13, h14⟩ := h
  obtain ⟨k1, k2, k3, k4, k5, k6, k7, k8, k9, k10, k11, k12, k13, k14⟩ := k
  exact ⟨k1.trans h1, k2.trans h2, k3.trans h3, k4.trans h4, k5.trans h5, k6.trans h6, k7.trans h7, k8.trans h8,
    k9.trans h9, k10.trans h10, k11.trans h11, k12.trans h12, k13.trans h13, k14.trans h14⟩

/-! ### Opening and closing the window -/

/-- The state in which an opening window opens the nightly dues (R73, R119). -/
def State.windowSet (s : State) : State :=
  (s.applyPending.modOff fun o =>
    { o with
      phase := .windowOpen, plan := [], shedScopes := [], nComplete := 0, nShed := 0, nMissed := 0
      nFailed := 0, rate := s.applyPending.sup.settings.assumedRate, intervalStart := s.sup.elapsed, acked := 0
      sawShip := decide (o.dir = .ship), lastFit := false }).reckonClose

theorem openWindow_eq (s : State) :
    s.openWindow = ((s.windowSet.volumesIf fun v => v.nightlyCut).foldl (fun s vol => s.openDue true vol)
      s.windowSet).askOpening := rfl

/-- An opening keeps all registers but the settings, of which those that waited come into force. -/
theorem supKept_openWindow_of (s : State) : supKept s.applyPending.sup s.openWindow.sup := by
  rw [openWindow_eq]
  refine supKept_askOpening (supKept_foldl _ _ (fun _ vol h => supKept_openDue true vol h) ?_)
  exact supKept_refl s.applyPending.sup

theorem supRuns_openWindow (s : State) : supRuns s.sup s.openWindow.sup :=
  supRuns.trans (v := s.applyPending.sup) ⟨rfl, rfl, rfl, rfl, rfl, rfl, rfl, rfl, rfl, rfl, rfl, rfl⟩
    (supRuns_of_kept (supKept_openWindow_of s))

theorem supRuns_evaluateOpen (s : State) : supRuns s.sup s.evaluateOpen.sup := by
  unfold State.evaluateOpen
  split
  · exact supRuns_openWindow s
  · exact supRuns_refl _

/-- Nothing of a night that is ending remains (R120). -/
def State.nightIsOver (s : State) : Bool :=
  s.nightEnding && s.off.queue.isEmpty && s.off.pulls.isEmpty && !s.shipsOut

/-- The volumes of the plan left unshipped, which the night's end counts failed (R120). -/
def State.plansLeft (s : State) : Nat :=
  (s.off.plan.filter fun p => decide (p.state = .shipping) || decide (p.state = .awaitingDone)).length

/-- The night's end with its volumes counted and its ship pins dropped (R120). -/
def State.nightCounted (s : State) : State :=
  (s.off.plan.map PlanVol.vol).foldl State.dropShipPins
    (s.modOff fun o => { o with nFailed := o.nFailed + s.plansLeft })

/-- The night's end reported (R120). -/
def State.nightReported (s : State) : State :=
  s.nightCounted.raise (.shipNightEnd s.nightCounted.sup.clock s.nightCounted.off.nComplete s.nightCounted.off.nShed
    s.nightCounted.off.nMissed s.nightCounted.off.nFailed s.nightCounted.off.rate)

/-- The window closed at the night's end, before the values that waited for it come into force (R118, R120). -/
def State.nightClosed (s : State) : State :=
  (s.nightReported.modOff fun o => { o with phase := .closed, closeInstant := none, plan := [], shedScopes := [] }).modPat
    fun p => { p with folds := [] }

theorem tryEndNight_eq (s : State) :
    s.tryEndNight = if s.nightIsOver then s.nightClosed.applyWindow.evaluateOpen else s := rfl

theorem supKept_nightCounted (s : State) : supKept s.sup s.nightCounted.sup :=
  supKept_foldl _ _ (fun _ vol h => supKept_dropShipPins vol h) (supKept_refl s.sup)

theorem supKept_nightReported (s : State) : supKept s.sup s.nightReported.sup := by
  unfold State.nightReported
  exact supKept_raise _ (supKept_nightCounted s)

theorem nightClosed_sup (s : State) : s.nightClosed.sup = s.nightReported.sup := by
  simp only [State.nightClosed, State.modPat, State.modOff]

theorem nightClosed_links (s : State) : s.nightClosed.links = s.nightReported.links := by
  simp only [State.nightClosed, State.modPat, State.modOff]

theorem supKept_nightClosed (s : State) : supKept s.sup s.nightClosed.sup :=
  (congrArg (supKept s.sup) (nightClosed_sup s)).mpr (supKept_nightReported s)

theorem supRuns_applyWindow (s : State) : supRuns s.sup s.applyWindow.sup :=
  ⟨rfl, rfl, rfl, rfl, rfl, rfl, rfl, rfl, rfl, rfl, rfl, rfl⟩

theorem supRuns_tryEndNight (s : State) : supRuns s.sup s.tryEndNight.sup := by
  rw [tryEndNight_eq]
  split
  · exact ((supRuns_of_kept (supKept_nightClosed s)).trans (supRuns_applyWindow _)).trans (supRuns_evaluateOpen _)
  · exact supRuns_refl _

/-- The state in which a window that closes looks for the end of its night (R120). -/
def State.windowShut (s : State) : State :=
  let s := ((s.cancelRuns fun _ => true).freeFullShip).modOff fun o =>
    { o with
      phase := .ending (s.cancelRuns fun _ => true).freeFullShip.sup.elapsed
        (s.cancelRuns fun _ => true).freeFullShip.sup.settings.ackWait
      queue := o.queue.filter fun e => !e.unsent
      controls := o.controls.filter fun c => match c with
        | .volumeDone .. => false
        | .drop _ _ => true }
  (s.cat.volumes.map Prod.fst).foldl (fun s vol => s.closeDue true vol) s

theorem closeWindow_eq (s : State) :
    s.closeWindow = if s.windowIsOpen then s.windowShut.tryEndNight else s := rfl

theorem supKept_windowShut (s : State) : supKept s.sup s.windowShut.sup :=
  supKept_foldl _ _ (fun _ vol h => supKept_closeDue true vol h)
    (supKept_freeFullShip (supKept_cancelRuns _ (supKept_refl s.sup)))

theorem supRuns_closeWindow (s : State) : supRuns s.sup s.closeWindow.sup := by
  rw [closeWindow_eq]
  split
  · exact (supRuns_of_kept (supKept_windowShut s)).trans (supRuns_tryEndNight _)
  · exact supRuns_refl _

theorem supRuns_evaluateWindow (s : State) : supRuns s.sup s.evaluateWindow.sup := by
  unfold State.evaluateWindow
  split
  · exact supRuns_closeWindow s
  · exact supRuns_evaluateOpen s

section
variable {P : Vector LinkRec 6 → Prop} (k : LinksGain P) {s : State}
include k

omit k in
theorem gains_applyWindow (h : P s.links) : P s.applyWindow.links := h

theorem gains_openWindow (h : P s.links) : P s.openWindow.links := by
  rw [openWindow_eq]
  exact gains_askOpening (gains_foldl _ _ (fun _ vol hs => gains_openDue k true vol hs) h)

theorem gains_evaluateOpen (h : P s.links) : P s.evaluateOpen.links := by
  unfold State.evaluateOpen
  split
  · exact gains_openWindow k h
  · exact h

theorem gains_nightReported (h : P s.links) : P s.nightReported.links := by
  unfold State.nightReported
  refine gains_raise k _ ?_
  unfold State.nightCounted
  exact gains_foldl _ _ (fun _ vol hs => gains_dropShipPins vol hs) h

theorem gains_nightClosed (h : P s.links) : P s.nightClosed.links := by
  rw [nightClosed_links]
  exact gains_nightReported k h

theorem gains_tryEndNight (h : P s.links) : P s.tryEndNight.links := by
  rw [tryEndNight_eq]
  split
  · exact gains_evaluateOpen k (gains_applyWindow (gains_nightClosed k h))
  · exact h

theorem gains_windowShut (h : P s.links) : P s.windowShut.links :=
  gains_foldl _ _ (fun _ vol hs => gains_closeDue true vol hs) (gains_freeFullShip (gains_cancelRuns k _ h))

theorem gains_closeWindow (h : P s.links) : P s.closeWindow.links := by
  rw [closeWindow_eq]
  split
  · exact gains_tryEndNight k (gains_windowShut k h)
  · exact h

theorem gains_evaluateWindow (h : P s.links) : P s.evaluateWindow.links := by
  unfold State.evaluateWindow
  split
  · exact gains_closeWindow k h
  · exact gains_evaluateOpen k h

end

/-- The window opens by evaluation only in ACTIVE with the window closed. -/
theorem evaluateOpen_eq_self {s : State} (h : s.sup.op ≠ .active ∨ s.off.phase ≠ .closed) : s.evaluateOpen = s := by
  refine if_neg ?_
  rintro ⟨hop, hphase, -⟩
  rcases h with h | h
  · exact h hop
  · exact h hphase

end Sys2Proof.Machine
end

section
/-! PROOF. The clock (R187): a second on the empty queue, and Time Set. -/

namespace Sys2Proof.Machine

/-- A step with no command waiting is one second of the clock. -/
theorem step_empty {s : State} (h : s.pending = []) :
    Sys2Proof.Machine.step s = .next ({ s with sent := [] } : State).tick := by
  unfold Sys2Proof.Machine.step
  rw [h]

/-- What setting the clock does before the window is evaluated (R40, R119, R187). -/
def State.clockSetTo (s : State) (value : Nat) : State :=
  let s := (s.modSup fun u => { u with clock := value, clockSet := true, counted := false }).expireDue
  if s.windowIsOpen then s.reckonClose else s

theorem supKept_clockSetTo (s : State) (value : Nat) :
    supKept { s.sup with clock := value, clockSet := true, counted := false } (s.clockSetTo value).sup := by
  unfold State.clockSetTo
  dsimp only
  split
  · exact supKept_reckonClose (supKept_expireDue (supKept_refl _))
  · exact supKept_expireDue (supKept_refl _)

theorem setClock_clock (s : State) (value : Nat) :
    (s.setClock value).sup.clock = value ∧ (s.setClock value).sup.clockSet = true := by
  obtain ⟨-, -, -, hclock, hset, -⟩ :=
    (supRuns_of_kept (supKept_clockSetTo s value)).trans (supRuns_evaluateWindow (s.clockSetTo value))
  exact ⟨hclock, hset⟩

theorem gains_setClock {P : Vector LinkRec 6 → Prop} (k : LinksGain P) {s : State} (value : Nat) (h : P s.links) :
    P (s.setClock value).links := by
  have hset : P (s.clockSetTo value).links := by
    unfold State.clockSetTo
    dsimp only
    split
    · exact gains_reckonClose (gains_expireDue k h)
    · exact gains_expireDue k h
  exact gains_evaluateWindow k hset

/-- The end of a Time Set. -/
def State.timeSet (s : State) (l : Link) (tag value : Nat) : State :=
  (((s.asked l tag .timeSet).setClock value).reply l s.sup.nextReq .done .none).finish

theorem exec_timeSet {s : State} {l : Link} (tag : Nat) {value : Nat} (h : s.takes l) (hr : s.role l = .console)
    (hv : value ≤ maxClock) : Machine.exec (.timeSet l tag value) s = .next (s.timeSet l tag value) :=
  (exec_timeSet_fits s l tag [] hv).trans (act_asked tag .timeSet _ h (.inr hr))

theorem timeSet_answered {s : State} {l : Link} (tag value : Nat) (h : s.takes l) :
    Answered s (s.timeSet l tag value) l tag .timeSet .done .none :=
  answered_finish .done .none h
    ((entered_asked s l tag .timeSet).gains fun _ k hp => gains_setClock k value hp)

theorem timeSet_clock (s : State) (l : Link) (tag value : Nat) :
    (s.timeSet l tag value).sup.clock = value ∧ (s.timeSet l tag value).sup.clockSet = true := by
  obtain ⟨hclock, hset⟩ := setClock_clock (s.asked l tag .timeSet) value
  obtain ⟨-, -, -, kclock, kset, -⟩ := supKept_finish_of
    (u := ((s.asked l tag .timeSet).setClock value).reply l s.sup.nextReq .done .none) (supKept_refl _)
  exact ⟨kclock.trans hclock, kset.trans hset⟩

/-- A Time Set whose value does not fit its body is answered as it arrives (R171). -/
theorem exec_timeSet_malformed {s : State} {l : Link} (tag : Nat) {value : Nat} (hrun : s.sup.op ≠ .halted)
    (hup : (s.link l).up = true) (hv : maxClock < value) :
    Machine.exec (.timeSet l tag value) s = .next (s.rebuffed l tag .timeSet .malformed).finish := by
  change execTimeSet l tag value s [] = _
  simp only [execTimeSet, if_pos hv]
  rw [act_running _ hrun]
  refine congrArg Host.Outcome.next ?_
  have harrive : (({ s with sent := [] } : State).arrive l).busy l =
      ({ s with sent := [] } : State).modLink l fun r =>
        { r with up := true, badRun := 0, idle := false, idleFrom := s.sup.elapsed } := by
    rw [arrive_up (s := { s with sent := [] }) hup, State.busy, modLink_modLink]
    rfl
  rw [harrive]
  exact withErrs_nil _ hrun

end Sys2Proof.Machine

open Sys2Proof Sys2Proof.Machine

/-- Settles O2. -/
theorem clockCountsAndIsSet : Obligations.ClockCountsAndIsSet := by
  refine ⟨fun s h => ?_, fun s l tag value h hr => ?_⟩
  · refine ⟨_, step_empty h, fun hlt => if_pos hlt, fun hge => if_neg (Nat.not_lt.mpr hge), rfl, rfl, rfl, rfl, rfl, rfl,
      rfl, rfl, rfl, rfl, rfl, rfl, rfl, h, rfl⟩
  · by_cases hv : value ≤ maxClock
    · exact ⟨_, exec_timeSet tag h hr hv, fun _ => ⟨timeSet_answered tag value h, timeSet_clock s l tag value⟩,
        fun hbig => absurd hv (Nat.not_le.mpr hbig)⟩
    · have hbig : maxClock < value := Nat.not_le.mp hv
      exact ⟨_, exec_timeSet_malformed tag (takes_running h) h.2.1 hbig, fun hle => absurd hle hv,
        fun _ => ⟨(answered_rebuffed _ _ _ _ _).finish, spared_rebuffed _ _ _ h.2.1⟩⟩
end

section
/-! SUPPORT. Retention (R71): an evaluation starts the sweeps of as many snapshots as exceed the keep. -/

namespace Sys2Proof.Machine

theorem tget_of_mem {α : Type} (b : Nat) (t : Tbl α) (h : risingFrom b t = true) {kv : Nat × α} (hm : kv ∈ t) :
    tget t kv.1 = some kv.2 := by
  induction t generalizing b with
  | nil => cases hm
  | cons x t ih =>
    obtain ⟨k, y⟩ := x
    simp only [risingFrom, Bool.and_eq_true, decide_eq_true_eq] at h
    rcases List.mem_cons.mp hm with rfl | hm
    · simp [tget]
    · have hne : k ≠ kv.1 := by
        have := (risingFrom_keys (k + 1) t h.2).2 kv.1 (List.mem_map_of_mem hm)
        omega
      simp [tget, hne, ih (k + 1) h.2 hm]

/-- A record changed under its key, as a change of each row. -/
theorem tmod_eq_map {α : Type} (b : Nat) (t : Tbl α) (key : Nat) (f : α → α) (h : risingFrom b t = true) :
    tmod t key f = t.map fun kv => if kv.1 = key then (kv.1, f kv.2) else kv := by
  have hput (b : Nat) (t : Tbl α) (v w : α) (h : risingFrom b t = true) (hv : tget t key = some v) :
      tput t key w = t.map fun kv => if kv.1 = key then (kv.1, w) else kv := by
    induction t generalizing b with
    | nil => cases hv
    | cons x t ih =>
      obtain ⟨k, y⟩ := x
      simp only [risingFrom, Bool.and_eq_true, decide_eq_true_eq] at h
      obtain ⟨-, hrise⟩ := h
      have hkeys := (risingFrom_keys (k + 1) t hrise).2
      by_cases hk : k = key
      · subst hk
        have hrest : t.map (fun kv => if kv.1 = k then (kv.1, w) else kv) = t := by
          refine (List.map_congr_left fun kv hkv => if_neg ?_).trans (List.map_id t)
          have := hkeys kv.1 (List.mem_map_of_mem hkv)
          omega
        simp [tput, hrest]
      · have hmem : key ∈ t.map Prod.fst := by
          simp only [tget, hk, if_false] at hv
          exact List.mem_map.mpr ⟨(key, v), mem_of_tget hv, rfl⟩
        have hlt : ¬key < k := by
          have := hkeys key hmem
          omega
        simp only [tget, hk, if_false] at hv
        simp [tput, hk, Ne.symm hk, hlt, ih (k + 1) hrise hv]
  unfold tmod
  split
  next v hv =>
    rw [hput b t v (f v) h hv]
    refine List.map_congr_left fun kv hkv => ?_
    split
    next hk =>
      have hget : tget t key = some kv.2 := hk ▸ tget_of_mem b t h hkv
      rw [hv] at hget
      cases hget
      rfl
    · rfl
  next hv =>
    refine ((List.map_congr_left fun kv hkv => if_neg fun hk => ?_).trans (List.map_id t)).symm
    have hget : tget t key = some kv.2 := hk ▸ tget_of_mem b t h hkv
    rw [hv] at hget
    cases hget

theorem snapKey_inj {vol gen vol' gen' : Nat} (h : gen ≤ maxGeneration) (h' : gen' ≤ maxGeneration)
    (hk : snapKey vol gen = snapKey vol' gen') : vol = vol' ∧ gen = gen' := by
  simp only [snapKey, maxGeneration] at *
  omega

/-- A snapshot changed, as a change of the volume's list. -/
theorem snapsOf_modSnapshot {s : State} (hkeyed : s.snapshotsKeyed) {vol gen : Nat} (hgen : gen ≤ maxGeneration)
    {f : Snapshot → Snapshot} (hf : ∀ p, (f p).vol = p.vol) (w : Nat) :
    (s.modSnapshot vol gen f).snapsOf w =
      (s.snapsOf w).map fun p => if p.vol = vol ∧ p.gen = gen then f p else p := by
  obtain ⟨hwf, hkeys⟩ := hkeyed
  have hrow : ∀ kv ∈ s.cat.snapshots, (kv.1 = snapKey vol gen ↔ kv.2.vol = vol ∧ kv.2.gen = gen) := by
    intro kv hkv
    obtain ⟨hkey, hle⟩ := hkeys kv hkv
    rw [hkey]
    exact ⟨fun hk => snapKey_inj hle hgen hk, fun ⟨h1, h2⟩ => by rw [h1, h2]⟩
  have hmap : (s.modSnapshot vol gen f).cat.snapshots.map Prod.snd =
      (s.cat.snapshots.map Prod.snd).map fun p => if p.vol = vol ∧ p.gen = gen then f p else p := by
    show (tmod s.cat.snapshots (snapKey vol gen) f).map Prod.snd = _
    rw [tmod_eq_map 0 _ _ _ hwf, List.map_map, List.map_map]
    refine List.map_congr_left fun kv hkv => ?_
    by_cases hk : kv.1 = snapKey vol gen
    · simp [hk, (hrow kv hkv).mp hk]
    · have hne : ¬(kv.2.vol = vol ∧ kv.2.gen = gen) := fun hp => hk ((hrow kv hkv).mpr hp)
      simp [hk, hne]
  rw [State.snapsOf, hmap, List.filter_map]
  have hvol : ((fun p : Snapshot => p.vol == w) ∘ fun p => if p.vol = vol ∧ p.gen = gen then f p else p) =
      fun p => p.vol == w := by
    funext p
    simp only [Function.comp_apply]
    split
    · rw [hf]
    · rfl
  rw [hvol]
  rfl

theorem snapsOf_startExpiry {s : State} (hkeyed : s.snapshotsKeyed) {vol gen : Nat} (hgen : gen ≤ maxGeneration)
    (w : Nat) :
    (s.startExpiry vol gen).snapsOf w =
      (s.snapsOf w).map fun p => if p.vol = vol ∧ p.gen = gen then { p with state := .expiring 0 } else p :=
  snapsOf_modSnapshot (f := fun p => { p with state := .expiring 0 }) hkeyed hgen (fun _ => rfl) w

/-- The generations of a volume's snapshots rise. -/
theorem snapsOf_gens {s : State} (hkeyed : s.snapshotsKeyed) (vol : Nat) :
    (s.snapsOf vol).Pairwise fun p q => p.gen < q.gen := by
  obtain ⟨hwf, hkeys⟩ := hkeyed
  have hpair : s.cat.snapshots.Pairwise fun a b => a.1 < b.1 :=
    List.pairwise_map.mp (risingFrom_keys 0 _ hwf).1
  have hsnaps : (s.cat.snapshots.map Prod.snd).Pairwise fun p q => p.vol = q.vol → p.gen < q.gen := by
    refine List.pairwise_map.mpr (hpair.imp_of_mem fun {a b} ha hb hlt hvol => ?_)
    rw [(hkeys a ha).1, (hkeys b hb).1, hvol] at hlt
    simp only [snapKey] at hlt
    omega
  refine (hsnaps.filter _).imp_of_mem fun {p q} hp hq himp => himp ?_
  have hpv := (List.mem_filter.mp hp).2
  have hqv := (List.mem_filter.mp hq).2
  simp only [beq_iff_eq] at hpv hqv
  rw [hpv, hqv]

/-- One element goes from a list whose keys are distinct. -/
theorem length_filter_ne {ps : List Snapshot} (h : ps.Pairwise fun p q => p.gen < q.gen) {p : Snapshot}
    (hp : p ∈ ps) : (ps.filter fun q => decide (q.gen ≠ p.gen)).length + 1 = ps.length := by
  induction ps with
  | nil => cases hp
  | cons q qs ih =>
    obtain ⟨hlt, hqs⟩ := List.pairwise_cons.mp h
    rcases List.mem_cons.mp hp with rfl | hp
    · have hall : qs.filter (fun q => decide (q.gen ≠ p.gen)) = qs :=
        List.filter_eq_self.mpr fun x hx => by simpa using (Nat.ne_of_lt (hlt x hx)).symm
      rw [List.filter_cons_of_neg (by simp), hall, List.length_cons]
    · have hne : q.gen ≠ p.gen := Nat.ne_of_lt (hlt p hp)
      rw [List.filter_cons_of_pos (by simpa using hne), List.length_cons, List.length_cons, ih hqs hp]

theorem mem_activeOf {s : State} {vol : Nat} {k : SnapKind} {p : Snapshot} (h : p ∈ s.activeOf vol k) :
    p ∈ s.snapsOf vol ∧ p.vol = vol ∧ p.state = .active ∧ p.kind = k := by
  obtain ⟨hsnap, hstate⟩ := List.mem_filter.mp h
  have hvol := (List.mem_filter.mp hsnap).2
  simp only [beq_iff_eq] at hvol
  simp only [Bool.and_eq_true, decide_eq_true_eq] at hstate
  exact ⟨hsnap, hvol, hstate.1, hstate.2⟩

theorem gen_le_of_mem {s : State} (hkeyed : s.snapshotsKeyed) {vol : Nat} {p : Snapshot} (h : p ∈ s.snapsOf vol) :
    p.gen ≤ maxGeneration := by
  obtain ⟨kv, hkv, rfl⟩ := List.mem_map.mp (List.mem_of_mem_filter h)
  exact (hkeyed.2 kv hkv).2

/-- A snapshot whose sweep starts is ACTIVE no more, and the others stay. -/
theorem activeOf_startExpiry {s : State} (hkeyed : s.snapshotsKeyed) {vol gen : Nat} (hgen : gen ≤ maxGeneration)
    (k : SnapKind) :
    (s.startExpiry vol gen).activeOf vol k = (s.activeOf vol k).filter fun q => decide (q.gen ≠ gen) := by
  have hmem : ∀ p ∈ s.snapsOf vol, p.vol = vol := fun p hp => by simpa using (List.mem_filter.mp hp).2
  rw [State.activeOf, snapsOf_startExpiry hkeyed hgen, State.activeOf]
  generalize s.snapsOf vol = ps at hmem
  induction ps with
  | nil => rfl
  | cons p ps ih =>
    have ih := ih fun q hq => hmem q (List.mem_cons_of_mem _ hq)
    have hvol := hmem p List.mem_cons_self
    rw [List.map_cons, List.filter_cons, List.filter_cons (x := p), ih]
    by_cases hg : p.gen = gen
    · rw [if_neg (by simp [hvol, hg])]
      split
      · rw [List.filter_cons_of_neg (by simp [hg])]
      · rfl
    · rw [if_neg (by simp [hg] : ¬(p.vol = vol ∧ p.gen = gen))]
      split
      · rw [List.filter_cons_of_pos (by simpa using hg)]
      · rfl

theorem snapshotsKeyed_startExpiry {s : State} (hkeyed : s.snapshotsKeyed) (vol gen : Nat) :
    (s.startExpiry vol gen).snapshotsKeyed := by
  obtain ⟨hwf, hkeys⟩ := hkeyed
  refine ⟨wf_tmod _ _ hwf, fun kv hkv => ?_⟩
  change kv ∈ tmod s.cat.snapshots (snapKey vol gen) _ at hkv
  rw [tmod_eq_map 0 _ _ _ hwf] at hkv
  obtain ⟨x, hx, rfl⟩ := List.mem_map.mp hkv
  have hrow := hkeys x hx
  split <;> exact hrow

/-- No snapshot of a volume is pinned. -/
def State.unpinned (s : State) (vol : Nat) : Prop := ∀ p ∈ s.snapsOf vol, p.pins = 0

theorem unpinned_startExpiry {s : State} (hkeyed : s.snapshotsKeyed) {vol gen : Nat} (hgen : gen ≤ maxGeneration)
    (h : s.unpinned vol) : (s.startExpiry vol gen).unpinned vol := by
  intro p hp
  rw [snapsOf_startExpiry hkeyed hgen] at hp
  obtain ⟨q, hq, rfl⟩ := List.mem_map.mp hp
  have hpins := h q hq
  split <;> exact hpins

section
variable {vol : Nat} {k : SnapKind} {v : Volume} {n : Nat}

/-- One round of an evaluation, on a volume without pins. -/
theorem retainOnce_spec {s : State} (hv : s.volume vol = some v) (hn : v.keep k = some n) (hkeyed : s.snapshotsKeyed)
    (hpins : s.unpinned vol) :
    (State.retainOnce vol k s).volume vol = some v ∧ (State.retainOnce vol k s).snapshotsKeyed ∧
      (State.retainOnce vol k s).unpinned vol ∧
      ((State.retainOnce vol k s).activeOf vol k).length =
        if (s.activeOf vol k).length ≤ n then (s.activeOf vol k).length else (s.activeOf vol k).length - 1 := by
  unfold State.retainOnce
  rw [hv, Option.bind_some, hn]
  dsimp only
  by_cases hle : (s.activeOf vol k).length ≤ n
  · simp only [hle, if_true]
    exact ⟨hv, hkeyed, hpins, trivial⟩
  · simp only [hle, if_false]
    cases hfind : (s.activeOf vol k).find? fun p => decide (p.pins = 0) with
    | none =>
      cases hact : s.activeOf vol k with
      | nil => simp [hact] at hle
      | cons p ps =>
        have hmem : p ∈ s.activeOf vol k := hact ▸ List.mem_cons_self
        have hzero := hpins p (mem_activeOf hmem).1
        have hnone := List.find?_eq_none.mp hfind p hmem
        simp [hzero] at hnone
    | some p =>
      have hmem := List.mem_of_find?_eq_some hfind
      have hgen := gen_le_of_mem hkeyed (mem_activeOf hmem).1
      refine ⟨hv, snapshotsKeyed_startExpiry hkeyed vol p.gen, unpinned_startExpiry hkeyed hgen hpins, ?_⟩
      dsimp only
      rw [activeOf_startExpiry hkeyed hgen]
      have hgens : (s.activeOf vol k).Pairwise fun p q => p.gen < q.gen := (snapsOf_gens hkeyed vol).filter _
      have hone := length_filter_ne hgens hmem
      omega

/-- An evaluation on a volume without pins leaves no more ACTIVE snapshots of the kind than the keep. -/
theorem retain_length {s : State} (hv : s.volume vol = some v) (hn : v.keep k = some n) (hkeyed : s.snapshotsKeyed)
    (hpins : s.unpinned vol) :
    ((s.retain vol k).activeOf vol k).length = min (s.activeOf vol k).length n := by
  have hiter (m : Nat) (s : State) (hv : s.volume vol = some v) (hkeyed : s.snapshotsKeyed) (hpins : s.unpinned vol) :
      ((iter m (State.retainOnce vol k) s).activeOf vol k).length =
        if (s.activeOf vol k).length ≤ n then (s.activeOf vol k).length
        else max n ((s.activeOf vol k).length - m) := by
    induction m generalizing s with
    | zero =>
      rw [iter]
      split <;> omega
    | succ m ih =>
      obtain ⟨hv', hkeyed', hpins', hlen⟩ := retainOnce_spec hv hn hkeyed hpins
      rw [iter, ih _ hv' hkeyed' hpins', hlen]
      by_cases hle : (s.activeOf vol k).length ≤ n
      · simp only [hle, if_true]
      · simp only [hle, if_false]
        split <;> omega
  rw [State.retain, hiter _ s hv hkeyed hpins]
  split <;> omega

end

/-- Retention touches the states of snapshots alone. -/
theorem retainOnce_eq (vol : Nat) (k : SnapKind) (s : State) :
    State.retainOnce vol k s = { s with cat.snapshots := (State.retainOnce vol k s).cat.snapshots } := by
  unfold State.retainOnce
  repeat' split
  all_goals rfl

theorem retain_eq (s : State) (vol : Nat) (k : SnapKind) :
    s.retain vol k = { s with cat.snapshots := (s.retain vol k).cat.snapshots } := by
  refine iter_keeps (P := fun u => u = { s with cat.snapshots := u.cat.snapshots }) (fun u hu => ?_) _ rfl
  rw [retainOnce_eq, hu]

theorem activeOf_congr {s t : State} (h : t.cat.snapshots = s.cat.snapshots) (vol : Nat) (k : SnapKind) :
    t.activeOf vol k = s.activeOf vol k := by
  simp only [State.activeOf, State.snapsOf, h]

theorem volume_congr {s t : State} (h : t.cat.volumes = s.cat.volumes) (vol : Nat) : t.volume vol = s.volume vol := by
  simp only [State.volume, h]

theorem duesOf_congr {s t : State} (h : t.cat.dues = s.cat.dues) (vol : Nat) : t.duesOf vol = s.duesOf vol := by
  simp only [State.duesOf, h]

theorem duesOf_setDues (s : State) (vol : Nat) (d : Dues) : (s.setDues vol d).duesOf vol = d := by
  unfold State.duesOf State.setDues
  dsimp only
  split
  next hd => simp [hd]
  · simp

end Sys2Proof.Machine
end

section
/-! SUPPORT. A setting checked, staged or written (R188). -/

namespace Sys2Proof.Machine

/-! ### What writing a setting does to the links -/

section
variable {P : Vector LinkRec 6 → Prop} {s : State}

theorem gains_atWindow (now : Settings → Settings) (later : PendingSettings → PendingSettings) (h : P s.links) :
    P (s.atWindow now later).links := by
  unfold State.atWindow
  split <;> exact h

theorem gains_writeMode (m : CacheMode) (h : P s.links) : P (s.writeMode m).links := by
  unfold State.writeMode
  split
  · exact h
  · cases m <;> exact h

theorem gains_storeSetting (k : LinksGain P) (x : Setting) (h : P s.links) : P (s.storeSetting x).links := by
  cases x with
  | cacheMode m => exact gains_writeMode m h
  | linkRole n r =>
    unfold State.storeSetting
    dsimp only
    split <;> exact h
  | hourlyKeep v n => exact gains_retain _ _ h
  | nightlyKeep v n => exact gains_retain _ _ h
  | hourlyCuts v b => cases b <;> exact h
  | nightlyCut v b => cases b <;> exact h
  | cutWait n => exact gains_missLate k h
  | windowSource | openTime | closeTime | assumedRate | reserveMargin | scope => exact gains_atWindow _ _ h
  | autoActivate | classEntry | recoveryFlag | directiveWait | idleTime | patrolPeriod | overdueLimit | ackWait
  | reopenInterval | unknown => exact h

theorem gains_writeSetting (k : LinksGain P) (x : Setting) (h : P s.links) : P (s.writeSetting x).links := by
  unfold State.writeSetting
  split
  · exact gains_evaluateOpen k (gains_storeSetting k x h)
  · exact gains_storeSetting k x h

end

/-! ### A change staged in a hold -/

/-- The end of a request whose change is staged (R188). -/
def State.staged (s : State) (l : Link) (tag : Nat) (k : ReqKind) (held : List Staged) (c : Staged) : State :=
  (((s.asked l tag k).modLink l fun r => { r with hold := some (held ++ [c]) }).reply l s.sup.nextReq .accepted
    .none).finish

theorem stage_finish (s : State) (l : Link) (tag : Nat) (k : ReqKind) (held : List Staged) (c : Staged) :
    ((s.asked l tag k).stage l s.sup.nextReq held c).finish =
      if 128 ≤ held.length then s.replied l tag k .holdFull .none else s.staged l tag k held c := by
  unfold State.stage
  split
  next hfull => exact (if_pos hfull).symm
  next hroom => exact (if_neg hroom).symm

theorem staged_spec {s : State} {l : Link} (tag : Nat) (k : ReqKind) (held : List Staged) (c : Staged) (h : s.takes l) :
    Answered s (s.staged l tag k held c) l tag k .accepted .none ∧
      ((s.staged l tag k held c).link l).hold = some (held ++ [c]) ∧ SupKept s (s.staged l tag k held c) ∧
      catSettles s.cat (s.staged l tag k held c).cat := by
  let u := (s.asked l tag k).modLink l fun r => { r with hold := some (held ++ [c]) }
  have hu : u.link l = _ := State.link_modLink_self _ _ _
  obtain ⟨-, -, -, -, -, rhold, -⟩ := reply_link_kept u l s.sup.nextReq .accepted .none
  obtain ⟨-, -, -, -, -, khold, -⟩ := finish_link_kept (u.reply l s.sup.nextReq .accepted .none) l
  obtain ⟨-, -, hcat, -⟩ := finish_settles (u.reply l s.sup.nextReq .accepted .none)
  refine ⟨answered_finish .accepted .none h ((entered_asked s l tag k).of_kept ?_ ?_ ?_), ?_,
    supKept_finish_of (supKept_refl _), hcat⟩
  · rw [hu]
  · rw [hu]
  · rw [hu]
  · refine khold.trans (rhold.trans ?_)
    rw [hu]

/-! ### A setting taken -/

/-- The end of a Setting Write or Scope Set. -/
def State.settingTaken (s : State) (l : Link) (tag : Nat) (k : ReqKind) (x : Setting) : State :=
  ((s.asked l tag k).takeSetting l s.sup.nextReq x).finish

/-- The end of a request that writes a setting. -/
def State.settingWritten (s : State) (l : Link) (tag : Nat) (k : ReqKind) (x : Setting) : State :=
  (((s.asked l tag k).writeSetting x).reply l s.sup.nextReq .done .none).finish

theorem exec_settingWrite {s : State} {l : Link} (tag : Nat) (x : Setting) (h : s.takes l) (hr : s.role l = .console) :
    Machine.exec (.settingWrite l tag x []) s = .next (s.settingTaken l tag .settingWrite x) :=
  act_asked tag .settingWrite _ h (.inr hr)

theorem exec_scopeSet {s : State} {l : Link} (tag n p : Nat) (e : Bool) (vs : List Nat) (h : s.takes l)
    (hr : s.role l = .console) :
    Machine.exec (.scopeSet l tag n e p vs) s = .next (s.settingTaken l tag .scopeSet (.scope n e p vs)) :=
  act_asked tag .scopeSet _ h (.inr hr)

theorem settingCheck_asked (s : State) (l : Link) (tag : Nat) (k : ReqKind) (x : Setting) :
    (s.asked l tag k).settingCheck x = s.settingCheck x := rfl

section
variable {s : State} {l : Link} (tag : Nat) (k : ReqKind) {x : Setting}

theorem taken_refused {st : Status} (hc : s.settingCheck x = some st) :
    s.settingTaken l tag k x = s.replied l tag k st .none := by
  unfold State.settingTaken State.takeSetting
  rw [settingCheck_asked, hc]
  rfl

/-- A setting that a check refuses is answered so, and nothing changes. -/
theorem taken_refused_spec {st : Status} (h : s.takes l) (hc : s.settingCheck x = some st) :
    Answered s (s.settingTaken l tag k x) l tag k st .none ∧ Spared s (s.settingTaken l tag k x) := by
  rw [taken_refused tag k hc]
  exact ⟨answered_replied tag k st .none h, spared_replied tag k st .none h⟩

theorem taken_held {held : List Staged} (hc : s.settingCheck x = none) (hh : (s.link l).hold = some held) :
    s.settingTaken l tag k x =
      if 128 ≤ held.length then s.replied l tag k .holdFull .none else s.staged l tag k held (.setting x) := by
  unfold State.settingTaken State.takeSetting
  have hold : ((s.asked l tag k).link l).hold = some held := by rw [asked_link]; exact hh
  rw [settingCheck_asked, hc]
  dsimp only
  rw [hold]
  exact stage_finish s l tag k held (.setting x)

/-- With no hold open, a checked setting is written and answered. -/
theorem taken_unheld (hc : s.settingCheck x = none) (hh : (s.link l).hold = none) :
    s.settingTaken l tag k x = ((s.asked l tag k).writeAndReply l s.sup.nextReq x).finish := by
  unfold State.settingTaken State.takeSetting
  have hold : ((s.asked l tag k).link l).hold = none := by rw [asked_link]; exact hh
  rw [settingCheck_asked, hc]
  dsimp only
  rw [hold]

theorem taken_written (hc : s.settingCheck x = none) (hh : (s.link l).hold = none)
    (hx : x ≠ .cacheMode .writeThrough) : s.settingTaken l tag k x = s.settingWritten l tag k x := by
  rw [taken_unheld tag k hc hh, State.writeAndReply.eq_2 _ _ _ _ hx]
  rfl

theorem written_answered (h : s.takes l) :
    Answered s (s.settingWritten l tag k x) l tag k .done .none :=
  answered_finish .done .none h ((entered_asked s l tag k).gains fun _ kg hp => gains_writeSetting kg x hp)

theorem written_settings :
    (s.settingWritten l tag k x).sup.settings = ((s.asked l tag k).writeSetting x).sup.settings ∧
      (s.settingWritten l tag k x).sup.pendingSettings =
        ((s.asked l tag k).writeSetting x).sup.pendingSettings := by
  obtain ⟨-, -, -, -, -, -, -, -, -, -, -, -, hset, hpend⟩ := supKept_finish_of
    (u := ((s.asked l tag k).writeSetting x).reply l s.sup.nextReq .done .none) (supKept_refl _)
  exact ⟨hset, hpend⟩

theorem written_cat :
    (s.settingWritten l tag k x).cat.volumes = ((s.asked l tag k).writeSetting x).cat.volumes ∧
      (s.settingWritten l tag k x).cat.snapshots = ((s.asked l tag k).writeSetting x).cat.snapshots ∧
      (s.settingWritten l tag k x).cat.dues = ((s.asked l tag k).writeSetting x).cat.dues := by
  obtain ⟨-, -, ⟨⟨hvol, -, hsnap, -, -, hdues⟩, -⟩, -⟩ :=
    finish_settles (((s.asked l tag k).writeSetting x).reply l s.sup.nextReq .done .none)
  exact ⟨hvol, hsnap, hdues⟩

/-- A setting of a value in range that names no volume, no role and is not IN_STANDBY passes its checks. -/
theorem settingCheck_none (hr : settingInRange x = true) (hv : ∀ v, settingVolume x = some v → (s.volume v).isSome)
    (hst : settingInStandby x = true → s.sup.op = .standby) (hrole : ∀ n r, x = .linkRole n r → s.roleCheck n r = none) :
    s.settingCheck x = none := by
  have hvol : (match settingVolume x with
      | some v => (s.volume v).isNone
      | none => false) = false := by
    cases hx : settingVolume x with
    | none => rfl
    | some v => simpa using hv v hx
  have hstand : ¬(settingInStandby x = true ∧ s.sup.op ≠ .standby) := fun ⟨h1, h2⟩ => h2 (hst h1)
  cases x with
  | unknown c => cases hr
  | linkRole n r =>
    unfold State.settingCheck
    dsimp only
    refine (if_neg (by rw [hr]; simp)).trans ?_
    refine (if_neg fun hm => Bool.false_ne_true (hvol.symm.trans hm)).trans ((if_neg hstand).trans ?_)
    exact hrole n r rfl
  | _ =>
    unfold State.settingCheck
    dsimp only
    refine (if_neg (by rw [hr]; simp)).trans ?_
    exact (if_neg fun hm => Bool.false_ne_true (hvol.symm.trans hm)).trans (if_neg hstand)

end

end Sys2Proof.Machine
end

section
/-! PROOF. Setting Write and Scope Set (R118, R121, R188, Table 11-2). -/

namespace Sys2Proof.Machine

section
variable {s : State} {l : Link} (tag : Nat) (k : ReqKind) {x : Setting}

/-- The state in which a taken setting's step ends, as the writing leaves it. -/
theorem taken_effect (h : s.takes l) (hc : s.settingCheck x = none) (hh : (s.link l).hold = none)
    (hx : x ≠ .cacheMode .writeThrough) :
    Answered s (s.settingTaken l tag k x) l tag k .done .none ∧
      (s.settingTaken l tag k x).sup.settings = ((s.asked l tag k).writeSetting x).sup.settings ∧
      (s.settingTaken l tag k x).sup.pendingSettings = ((s.asked l tag k).writeSetting x).sup.pendingSettings ∧
      (s.settingTaken l tag k x).cat.volumes = ((s.asked l tag k).writeSetting x).cat.volumes ∧
      (s.settingTaken l tag k x).cat.snapshots = ((s.asked l tag k).writeSetting x).cat.snapshots ∧
      (s.settingTaken l tag k x).cat.dues = ((s.asked l tag k).writeSetting x).cat.dues := by
  rw [taken_written tag k hc hh hx]
  obtain ⟨hset, hpend⟩ := written_settings (s := s) (l := l) tag k (x := x)
  obtain ⟨hvol, hsnap, hdues⟩ := written_cat (s := s) (l := l) tag k (x := x)
  exact ⟨written_answered tag k h, hset, hpend, hvol, hsnap, hdues⟩

/-- A setting in range that names no volume, no role and no IN_STANDBY value passes its checks. -/
theorem settingCheck_plain (hr : settingInRange x = true) (hv : settingVolume x = none)
    (hst : settingInStandby x = false) : s.settingCheck x = none := by
  refine settingCheck_none hr (fun v h => ?_) (fun h => ?_) (fun n r h => ?_)
  · rw [hv] at h
    cases h
  · rw [hst] at h
    cases h
  · rw [h] at hst
    cases hst

/-- A setting in range of a volume that is attached passes its checks. -/
theorem settingCheck_volume {v : Nat} {e : Volume} (hr : settingInRange x = true) (hv : settingVolume x = some v)
    (hst : settingInStandby x = false) (he : s.volume v = some e) : s.settingCheck x = none := by
  refine settingCheck_none hr (fun w h => ?_) (fun h => ?_) (fun n r h => ?_)
  · obtain rfl : v = w := Option.some.inj (hv.symm.trans h)
    rw [he]
    rfl
  · rw [hst] at h
    cases h
  · rw [h] at hst
    cases hst

/-- A setting in range that may be written in STANDBY alone passes its checks there, if it is no role. -/
theorem settingCheck_standby (hr : settingInRange x = true) (hv : settingVolume x = none) (hop : s.sup.op = .standby)
    (hrole : ∀ n r, x ≠ .linkRole n r) : s.settingCheck x = none := by
  refine settingCheck_none hr (fun v h => ?_) (fun _ => hop) (fun n r h => absurd h (hrole n r))
  rw [hv] at h
  cases h

/-- The checks of any setting of Table 11-2, in order (R188). -/
theorem settingCheck_known (hne : ∀ c, x ≠ .unknown c) :
    s.settingCheck x =
      if settingInRange x = false then some .range
      else if (match settingVolume x with
          | some v => (s.volume v).isNone
          | none => false) = true then some .unknownVolume
      else if settingInStandby x = true ∧ s.sup.op ≠ .standby then some .wrongState
      else
        match x with
        | .linkRole n r => s.roleCheck n r
        | _ => none := by
  cases x with
  | unknown c => exact absurd rfl (hne c)
  | _ => rfl

theorem linkOf_val (k : Link) : linkOf k.val = some k := by
  revert k
  decide

/-- The checks of a link's role (R169). -/
theorem settingCheck_linkRole (k : Link) (r : Role) (hop : s.sup.op = .standby) :
    s.settingCheck (.linkRole k.val r) = s.roleCheck k.val r := by
  have hrange : settingInRange (.linkRole k.val r) = true := by
    have := k.isLt
    simp only [settingInRange, decide_eq_true_eq]
    omega
  unfold State.settingCheck
  dsimp only
  rw [if_neg (by rw [hrange]; decide)]
  exact (if_neg Bool.false_ne_true).trans (if_neg fun ⟨_, h⟩ => h hop)

theorem roleCheck_val (k : Link) (r : Role) :
    s.roleCheck k.val r =
      if r = .fileserver ∧ (allLinks.any fun j => decide (j ≠ k) && decide (s.role j = .console)) = false then
        some .range
      else if r = .console ∧ (s.cat.volumes.any fun kv => decide (kv.2.owner = k)) = true then some .inUse
      else none := by
  unfold State.roleCheck
  rw [linkOf_val]

theorem roleCheck_none {k : Link} {r : Role} (hf : r = .fileserver → ∃ j, j ≠ k ∧ s.role j = .console)
    (hc : r = .console → ∀ kv ∈ s.cat.volumes, kv.2.owner ≠ k) : s.roleCheck k.val r = none := by
  rw [roleCheck_val, if_neg, if_neg]
  · rintro ⟨hr, hown⟩
    obtain ⟨kv, hkv, hk⟩ := List.any_eq_true.mp hown
    exact hc hr kv hkv (of_decide_eq_true hk)
  · rintro ⟨hr, hnone⟩
    obtain ⟨j, hj, hrole⟩ := hf hr
    have := List.any_eq_false.mp hnone j (mem_allLinks j)
    simp [hj, hrole] at this

/-! ### The switch of the cache mode -/

/-- Some line is dirty, or an entry waits in the castout buffer (R13). -/
def State.unclean (s : State) : Prop := s.allClean = false ∨ s.tally.castout ≠ []

theorem castoutDirty_keeps (s : State) :
    s.castoutDirty = { s with tally := { s.tally with
      castout := s.castoutDirty.tally.castout, cache := s.castoutDirty.tally.cache } } := by
  unfold State.castoutDirty
  split <;> rfl

/-- Casting out leaves a dirty line, or its entry in the buffer. -/
theorem unclean_castoutDirty {s : State} (h : s.unclean) : s.castoutDirty.unclean := by
  unfold State.castoutDirty
  split
  · dsimp only
    generalize hout : (s.tally.cache.reverse.filter fun x => x.dirty && x.held.isNone).take
      (Config.castoutSize - s.tally.castout.length) = out
    cases out with
    | cons x xs => exact .inr (by simp)
    | nil =>
      have hcache : mapIf (fun x => ([] : List Line).any fun y => y.id == x.id)
          (fun x => { x with dUsed := 0, dReserved := 0, dirty := false }) s.tally.cache = s.tally.cache := by
        simp [mapIf]
      rcases h with h | h
      · refine .inl ?_
        unfold State.allClean
        dsimp only
        rw [hcache]
        exact h
      · exact .inr (by simpa using h)
  · exact h

/-- With no dirty line, casting out changes nothing. -/
theorem castoutDirty_clean {s : State} (h : ∀ y ∈ s.tally.cache, y.dirty = false) : s.castoutDirty = s := by
  have hnone : (s.tally.cache.reverse.filter fun x => x.dirty && x.held.isNone) = [] := by
    refine List.filter_eq_nil_iff.mpr fun x hx => ?_
    rw [h x (List.mem_reverse.mp hx)]
    exact Bool.false_ne_true
  unfold State.castoutDirty
  split
  · simp [hnone, mapIf]
  · rfl

/-- With no operation and no posting, what the Tally Unit goes on with is casting out and the mode switch. -/
theorem advance_idle {s : State} (hops : s.tally.ops = []) (hpost : s.tally.postings = [])
    (hop : s.sup.op = .standby) : s.advance = s.castoutDirty.castoutDirty.endModeSwitch := by
  have hwalk : ¬s.walkWaits = true := by simp [State.walkWaits, hop]
  have hkeep := castoutDirty_keeps s
  have hops' : s.castoutDirty.tally.ops = [] := by rw [hkeep]; exact hops
  have hpost' : s.castoutDirty.tally.postings = [] := by rw [hkeep]; exact hpost
  have htake : s.castoutDirty.takePosting = s.castoutDirty := by
    unfold State.takePosting
    rw [hpost']
  unfold State.advance
  rw [if_neg hwalk]
  dsimp only
  rw [htake, hops']
  simp [iter, State.advanceOps, hops']

/-- A switch to WRITE_THROUGH waits while a line is dirty or the buffer holds an entry. -/
theorem endModeSwitch_unclean {s : State} (h : s.unclean) : s.endModeSwitch = s := by
  unfold State.endModeSwitch
  split
  · rfl
  · refine if_neg ?_
    rw [Bool.and_eq_true, List.isEmpty_iff]
    rintro ⟨hc, he⟩
    rcases h with h | h
    · rw [h] at hc
      cases hc
    · exact h he

/-- A request that stays with its block while links gain waits in its link's queue as Patrol Unit and offsite link
settle. -/
theorem queued_settle {u : State} {taken : Bool} (h : Entered s u l tag k taken)
    (hn : u.sup.nextReq = s.sup.nextReq + 1) : Queued s u.settle l tag k taken := by
  obtain ⟨-, -, hq⟩ := h.gains (v := u.settle) fun P kg hp => gains_settle kg hp
  obtain ⟨⟨-, hnext, -⟩, -⟩ := settles_settle (Settles.refl u)
  refine ⟨?_, hnext.trans hn⟩
  rw [hq]
  exact List.mem_append_right _ (List.mem_singleton.mpr rfl)

/-- The state in which a switch to WRITE_THROUGH waits to be answered. -/
def State.switching (s : State) (l : Link) (tag : Nat) (k : ReqKind) : State :=
  { s.asked l tag k with
    sup := { (s.asked l tag k).sup with settings := { s.sup.settings with cacheMode := .writeThrough } }
    tally := { s.tally with flushing := true, modeReply := [(l, s.sup.nextReq)] } }

theorem taken_switching (hop : s.sup.op = .standby) (hh : (s.link l).hold = none)
    (hmode : s.sup.settings.cacheMode = .writeBack) (ht : s.tallyStill) :
    s.settingTaken l tag k (.cacheMode .writeThrough) = (s.switching l tag k).finish := by
  obtain ⟨-, -, hreply, -⟩ := ht
  have hc : s.settingCheck (.cacheMode .writeThrough) = none :=
    settingCheck_standby rfl rfl hop fun _ _ h => nomatch h
  have hne : ¬s.sup.settings.cacheMode = .writeThrough := by rw [hmode]; decide
  rw [taken_unheld tag k hc hh, State.writeAndReply]
  refine congrArg State.finish ((if_neg hne).trans ?_)
  have hwrite : (s.asked l tag k).writeSetting (.cacheMode .writeThrough) =
      { s.asked l tag k with
        sup := { (s.asked l tag k).sup with settings := { s.sup.settings with cacheMode := .writeThrough } }
        tally := { s.tally with flushing := true } } := if_neg hne
  rw [hwrite, asked_tally, hreply]
  rfl

theorem switching_finish (hop : s.sup.op = .standby) (ht : s.tallyStill) :
    (s.switching l tag k).finish =
      (s.switching l tag k).castoutDirty.castoutDirty.endModeSwitch.settle := by
  obtain ⟨hops, hpost, -, -⟩ := ht
  have hop' : (s.switching l tag k).sup.op = .standby := hop
  unfold State.finish
  rw [if_neg (by rw [hop']; decide), advance_idle (s := s.switching l tag k) hops hpost hop']

theorem switching_entered : Entered s (s.switching l tag k) l tag k true :=
  (entered_asked s l tag k).congr rfl

/-- With a dirty line, the switch to WRITE_THROUGH waits. -/
theorem switching_queued (hop : s.sup.op = .standby) (ht : s.tallyStill) (hd : ∃ y ∈ s.tally.cache, y.dirty = true) :
    Queued s (s.switching l tag k).finish l tag k true := by
  obtain ⟨y, hy, hyd⟩ := hd
  have hunclean : (s.switching l tag k).unclean :=
    .inl (List.all_eq_false.mpr ⟨y, hy, by rw [hyd]; decide⟩)
  rw [switching_finish tag k hop ht, endModeSwitch_unclean (unclean_castoutDirty (unclean_castoutDirty hunclean))]
  have h1 := castoutDirty_keeps (s.switching l tag k)
  have h2 := castoutDirty_keeps (s.switching l tag k).castoutDirty
  refine queued_settle tag k ((switching_entered tag k).congr ?_) ?_
  · rw [h2, h1]
    rfl
  · rw [h2, h1]
    rfl

/-- With every line clean and the buffer empty, the switch to WRITE_THROUGH is answered. -/
theorem switching_answered (h : s.takes l) (hop : s.sup.op = .standby) (ht : s.tallyStill)
    (hd : ∀ y ∈ s.tally.cache, y.dirty = false) (hcast : s.tally.castout = []) :
    Answered s (s.switching l tag k).finish l tag k .done .none := by
  have hclean : ∀ y ∈ (s.switching l tag k).tally.cache, y.dirty = false := hd
  have hend : (s.switching l tag k).endModeSwitch =
      State.reply { s.switching l tag k with
        tally := { (s.switching l tag k).tally with modeReply := [], flushing := s.sup.op == .holdup } }
        l s.sup.nextReq .done .none := by
    refine if_pos ?_
    rw [Bool.and_eq_true]
    refine ⟨List.all_eq_true.mpr fun y hy => ?_, List.isEmpty_iff.mpr hcast⟩
    rw [hclean y hy]
    rfl
  rw [switching_finish tag k hop ht, castoutDirty_clean hclean, castoutDirty_clean hclean, hend]
  refine (answered_reply (taken := true) .done .none h.2.2.2 ?_).settles (settles_settle (Settles.refl _))
  exact (switching_entered tag k).congr rfl

theorem switching_settings :
    (s.switching l tag k).finish.sup.settings = { s.sup.settings with cacheMode := .writeThrough } := by
  obtain ⟨-, -, -, -, -, -, -, -, -, -, -, -, hset, -⟩ := supKept_finish_of (u := s.switching l tag k) (supKept_refl _)
  exact hset

/-! ### What each kind of setting writes -/

/-- The settings in force and pending after a write in the words of an AT_WINDOW value (R118). -/
theorem atWindow_settings (u : State) (now : Settings → Settings) (later : PendingSettings → PendingSettings) :
    (u.off.phase = .closed → (u.atWindow now later).sup.settings = now u.sup.settings ∧
        (u.atWindow now later).sup.pendingSettings = u.sup.pendingSettings) ∧
      (u.off.phase ≠ .closed → (u.atWindow now later).sup.settings = u.sup.settings ∧
        (u.atWindow now later).sup.pendingSettings = later u.sup.pendingSettings) := by
  unfold State.atWindow
  constructor
  · intro h
    rw [if_pos h]
    exact ⟨rfl, rfl⟩
  · intro h
    rw [if_neg h]
    exact ⟨rfl, rfl⟩

theorem atWindow_kept (u : State) (now : Settings → Settings) (later : PendingSettings → PendingSettings) :
    (u.atWindow now later).sup.op = u.sup.op ∧ (u.atWindow now later).off = u.off := by
  unfold State.atWindow
  split <;> exact ⟨rfl, rfl⟩

/-- An AT_WINDOW value taken with no hold open (R118, R188): in force at once with the window closed, and pending
otherwise. -/
theorem taken_atWindow {now : Settings → Settings} {later : PendingSettings → PendingSettings} (h : s.takes l)
    (hh : (s.link l).hold = none) (hc : s.settingCheck x = none) (hx : x ≠ .cacheMode .writeThrough)
    (hst : ∀ u : State, u.storeSetting x = u.atWindow now later) (hw : settingOfWindow x = false) :
    Answered s (s.settingTaken l tag k x) l tag k .done .none ∧
      (s.off.phase = .closed → (s.settingTaken l tag k x).sup.settings = now s.sup.settings ∧
        (s.settingTaken l tag k x).sup.pendingSettings = s.sup.pendingSettings) ∧
      (s.off.phase ≠ .closed → (s.settingTaken l tag k x).sup.settings = s.sup.settings ∧
        (s.settingTaken l tag k x).sup.pendingSettings = later s.sup.pendingSettings) := by
  obtain ⟨hans, hset, hpend, -⟩ := taken_effect tag k h hc hh hx
  have hwrite : (s.asked l tag k).writeSetting x = (s.asked l tag k).atWindow now later := by
    unfold State.writeSetting
    rw [hw, hst]
    rfl
  rw [hwrite] at hset hpend
  rw [hset, hpend]
  exact ⟨hans, atWindow_settings (s.asked l tag k) now later⟩

/-- A value of the window's taken with no hold open: as other AT_WINDOW values, where its writing opens no window. -/
theorem taken_ofWindow {now : Settings → Settings} {later : PendingSettings → PendingSettings} (h : s.takes l)
    (hh : (s.link l).hold = none) (hc : s.settingCheck x = none) (hx : x ≠ .cacheMode .writeThrough)
    (hst : ∀ u : State, u.storeSetting x = u.atWindow now later) (hw : settingOfWindow x = true) :
    Answered s (s.settingTaken l tag k x) l tag k .done .none ∧
      (s.off.phase = .closed → s.sup.op = .standby → (s.settingTaken l tag k x).sup.settings = now s.sup.settings) ∧
      (s.off.phase ≠ .closed → (s.settingTaken l tag k x).sup.settings = s.sup.settings ∧
        (s.settingTaken l tag k x).sup.pendingSettings = later s.sup.pendingSettings) := by
  obtain ⟨hans, hset, hpend, -⟩ := taken_effect tag k h hc hh hx
  obtain ⟨hop, hoff⟩ := atWindow_kept (s.asked l tag k) now later
  obtain ⟨hin, hlater⟩ := atWindow_settings (s.asked l tag k) now later
  have hwrite (hstay : s.sup.op ≠ .active ∨ s.off.phase ≠ .closed) :
      (s.asked l tag k).writeSetting x = (s.asked l tag k).atWindow now later := by
    unfold State.writeSetting
    rw [hw, hst]
    refine evaluateOpen_eq_self ?_
    rw [hop, hoff]
    exact hstay
  refine ⟨hans, fun hclosed hstandby => ?_, fun hopen => ?_⟩
  · rw [hwrite (.inl (by rw [hstandby]; decide))] at hset
    exact hset.trans (hin hclosed).1
  · rw [hwrite (.inr hopen)] at hset hpend
    exact ⟨hset.trans (hlater hopen).1, hpend.trans (hlater hopen).2⟩

/-- A value in force at once, taken with no hold open. -/
theorem taken_plain {now : Settings → Settings} (h : s.takes l) (hh : (s.link l).hold = none)
    (hc : s.settingCheck x = none) (hx : x ≠ .cacheMode .writeThrough)
    (hst : ∀ u : State, (u.writeSetting x).sup.settings = now u.sup.settings) :
    Answered s (s.settingTaken l tag k x) l tag k .done .none ∧
      (s.settingTaken l tag k x).sup.settings = now s.sup.settings := by
  obtain ⟨hans, hset, -⟩ := taken_effect tag k h hc hh hx
  exact ⟨hans, hset.trans (hst _)⟩

/-- The cut wait limit is in force though it has dues missed at once (R73). -/
theorem cutWait_settings (u : State) (n : Nat) :
    (u.writeSetting (.cutWait n)).sup.settings = { u.sup.settings with cutWait := n } := by
  obtain ⟨-, -, -, -, -, -, -, -, -, -, -, -, hset, -⟩ :=
    supKept_missLate (s := u.modSettings fun t => { t with cutWait := n }) (supKept_refl _)
  exact hset

/-- The scope that a Scope Set writes (R121). -/
def scopeOf (e : Bool) (p : Nat) (vs : List Nat) : Scope := { enabled := e, priority := p, vols := distinctNat vs }

theorem settingInRange_scope {n p : Nat} (e : Bool) {vs : List Nat} (hn : n ≤ 7) (hp : p ≤ 7) (hvs : ∀ v ∈ vs, v ≤ 31) :
    settingInRange (.scope n e p vs) = true := by
  simpa [settingInRange, hn, hp] using hvs

theorem taken_scope {n p : Nat} (e : Bool) {vs : List Nat} (h : s.takes l) (hh : (s.link l).hold = none) (hn : n ≤ 7)
    (hp : p ≤ 7) (hvs : ∀ v ∈ vs, v ≤ 31) :
    Answered s (s.settingTaken l tag k (.scope n e p vs)) l tag k .done .none ∧
      (s.off.phase = .closed → (s.settingTaken l tag k (.scope n e p vs)).sup.settings =
          { s.sup.settings with scopes := tput s.sup.settings.scopes n (scopeOf e p vs) } ∧
        (s.settingTaken l tag k (.scope n e p vs)).sup.pendingSettings = s.sup.pendingSettings) ∧
      (s.off.phase ≠ .closed → (s.settingTaken l tag k (.scope n e p vs)).sup.settings = s.sup.settings ∧
        (s.settingTaken l tag k (.scope n e p vs)).sup.pendingSettings =
          { s.sup.pendingSettings with scopes := tput s.sup.pendingSettings.scopes n (scopeOf e p vs) }) :=
  taken_atWindow tag k (now := fun t => { t with scopes := tput t.scopes n (scopeOf e p vs) })
    (later := fun t => { t with scopes := tput t.scopes n (scopeOf e p vs) }) h hh
    (settingCheck_plain (settingInRange_scope e hn hp hvs) rfl rfl) (fun hx => nomatch hx) (fun _ => rfl) rfl

/-- A keep written has retention evaluated (R71). -/
theorem taken_keep {v n : Nat} {kind : SnapKind} {e e' : Volume} (h : s.takes l) (hh : (s.link l).hold = none)
    (hc : s.settingCheck x = none) (hx : x ≠ .cacheMode .writeThrough) (he : s.volume v = some e)
    {f : Volume → Volume} (hf : f e = e') (hkeep : e'.keep kind = some n)
    (hst : ∀ u : State, u.writeSetting x = (u.modVolume v f).retain v kind) :
    Answered s (s.settingTaken l tag k x) l tag k .done .none ∧ (s.settingTaken l tag k x).volume v = some e' ∧
      (s.snapshotsKeyed → (∀ p ∈ s.snapsOf v, p.pins = 0) →
        ((s.settingTaken l tag k x).activeOf v kind).length = min (s.activeOf v kind).length n) := by
  obtain ⟨hans, -, -, hvol, hsnap, -⟩ := taken_effect tag k h hc hh hx
  rw [hst] at hvol hsnap
  have hv : ((s.asked l tag k).modVolume v f).volume v = some e' := by
    have hasked : (s.asked l tag k).volume v = some e := he
    rw [State.volume_modVolume, hasked, Option.map_some, hf]
  refine ⟨hans, ?_, fun hkeyed hpins => ?_⟩
  · rw [volume_congr hvol, volume_congr (s := (s.asked l tag k).modVolume v f) (by rw [retain_eq])]
    exact hv
  · rw [activeOf_congr hsnap]
    exact retain_length hv hkeep hkeyed hpins

/-- A cut flag written: cleared, it closes its due (R72, R73). -/
theorem taken_cutFlag {v : Nat} {e e' : Volume} {b nightly : Bool} {f : Volume → Volume} (h : s.takes l)
    (hh : (s.link l).hold = none) (hc : s.settingCheck x = none) (hx : x ≠ .cacheMode .writeThrough)
    (he : s.volume v = some e) (hf : f e = e')
    (hst : ∀ u : State, u.writeSetting x = if b then u.modVolume v f else (u.modVolume v f).closeDue nightly v) :
    Answered s (s.settingTaken l tag k x) l tag k .done .none ∧ (s.settingTaken l tag k x).volume v = some e' ∧
      (s.settingTaken l tag k x).duesOf v = if b then s.duesOf v else (s.duesOf v).put nightly none := by
  obtain ⟨hans, -, -, hvol, -, hdues⟩ := taken_effect tag k h hc hh hx
  have hasked : (s.asked l tag k).volume v = some e := he
  have hv : ((s.asked l tag k).modVolume v f).volume v = some e' := by
    rw [State.volume_modVolume, hasked, Option.map_some, hf]
  rw [hst] at hvol hdues
  cases b with
  | true => exact ⟨hans, (volume_congr hvol v).trans hv, (duesOf_congr hdues v).trans rfl⟩
  | false => exact ⟨hans, (volume_congr hvol v).trans hv, (duesOf_congr hdues v).trans (duesOf_setDues _ v _)⟩

/-- The mode that is in force already is answered at once (R13). -/
theorem taken_sameMode {m : CacheMode} (hc : s.settingCheck (.cacheMode m) = none) (hh : (s.link l).hold = none)
    (hm : s.sup.settings.cacheMode = m) : s.settingTaken l tag k (.cacheMode m) = s.replied l tag k .done .none := by
  rw [taken_unheld tag k hc hh]
  refine congrArg State.finish ?_
  cases m with
  | writeThrough => exact if_pos hm
  | writeBack => exact congrArg (fun u : State => u.reply l s.sup.nextReq .done .none) (if_pos hm)

theorem writeBack_settings (u : State) :
    (u.writeSetting (.cacheMode .writeBack)).sup.settings = { u.sup.settings with cacheMode := .writeBack } := by
  change (u.writeMode .writeBack).sup.settings = _
  unfold State.writeMode
  split
  next hm => rw [← hm]
  · rfl

/-- A role taken in STANDBY (R169). -/
theorem taken_role {j : Link} {r : Role} (h : s.takes l) (hh : (s.link l).hold = none) (hop : s.sup.op = .standby)
    (hc : s.roleCheck j.val r = none) :
    Answered s (s.settingTaken l tag k (.linkRole j.val r)) l tag k .done .none ∧
      (s.settingTaken l tag k (.linkRole j.val r)).role j = r ∧
      ∀ i, i ≠ j → (s.settingTaken l tag k (.linkRole j.val r)).role i = s.role i := by
  obtain ⟨hans, hset, -⟩ := taken_effect tag k h ((settingCheck_linkRole j r hop).trans hc) hh fun hx => nomatch hx
  have hroles : (s.settingTaken l tag k (.linkRole j.val r)).sup.settings.roles = s.sup.settings.roles.set j r := by
    have hstore : (s.asked l tag k).writeSetting (.linkRole j.val r) =
        (s.asked l tag k).modSettings fun t => { t with roles := t.roles.set j r } := by
      change State.storeSetting _ (.linkRole j.val r) = _
      unfold State.storeSetting
      dsimp only
      rw [linkOf_val]
    rw [hset, hstore]
    rfl
  refine ⟨hans, ?_, fun i hi => ?_⟩
  · rw [State.role, hroles]
    simp
  · rw [State.role, hroles, State.role]
    have hne : (j : Nat) ≠ i := fun he => hi (Fin.ext he.symm)
    simp [hne]

end

end Sys2Proof.Machine
end

section
namespace Sys2Proof.Machine

section
variable {s : State} {l : Link} (tag : Nat) {x : Setting}

/-- A setting that a check refuses (R188). -/
theorem settingWrite_refused (h : s.takes l) :
    ((∃ c, x = .unknown c) → Answered s (s.settingTaken l tag .settingWrite x) l tag .settingWrite .malformed .none ∧
        Spared s (s.settingTaken l tag .settingWrite x)) ∧
      ((∀ c, x ≠ .unknown c) → settingInRange x = false →
        Answered s (s.settingTaken l tag .settingWrite x) l tag .settingWrite .range .none ∧
          Spared s (s.settingTaken l tag .settingWrite x)) ∧
      (settingInRange x = true → (∃ v, settingVolume x = some v ∧ s.volume v = none) →
        Answered s (s.settingTaken l tag .settingWrite x) l tag .settingWrite .unknownVolume .none ∧
          Spared s (s.settingTaken l tag .settingWrite x)) ∧
      (settingInRange x = true → settingInStandby x = true → s.sup.op = .active →
        Answered s (s.settingTaken l tag .settingWrite x) l tag .settingWrite .wrongState .none ∧
          Spared s (s.settingTaken l tag .settingWrite x)) := by
  refine ⟨?_, fun hne hr => ?_, ?_, fun hr hst hop => ?_⟩
  · rintro ⟨c, rfl⟩
    exact taken_refused_spec tag _ h rfl
  · refine taken_refused_spec tag _ h ?_
    rw [settingCheck_known hne]
    exact if_pos hr
  · rintro hr ⟨v, hv, hnone⟩
    refine taken_refused_spec tag _ h ?_
    have hne : ∀ c, x ≠ .unknown c := by
      rintro c rfl
      cases hv
    rw [settingCheck_known hne, if_neg (by rw [hr]; decide)]
    refine if_pos ?_
    rw [hv]
    simp [hnone]
  · refine taken_refused_spec tag _ h ?_
    have hne : ∀ c, x ≠ .unknown c := by
      rintro c rfl
      cases hr
    have hv : settingVolume x = none := by
      cases x <;> first | rfl | cases hst
    rw [settingCheck_known hne, if_neg (by rw [hr]; decide)]
    refine (if_neg ?_).trans (if_pos ⟨hst, by rw [hop]; decide⟩)
    rw [hv]
    exact Bool.false_ne_true

/-- A role that would leave no CONSOLE link, or take one from a volume's owner (R169). -/
theorem settingWrite_role_refused (h : s.takes l) :
    (∀ k : Link, x = .linkRole k.val .fileserver → s.sup.op = .standby → (∀ j, j ≠ k → s.role j = .fileserver) →
        Answered s (s.settingTaken l tag .settingWrite x) l tag .settingWrite .range .none ∧
          Spared s (s.settingTaken l tag .settingWrite x)) ∧
      (∀ k : Link, x = .linkRole k.val .console → s.sup.op = .standby → (∃ kv ∈ s.cat.volumes, kv.2.owner = k) →
        Answered s (s.settingTaken l tag .settingWrite x) l tag .settingWrite .inUse .none ∧
          Spared s (s.settingTaken l tag .settingWrite x)) := by
  constructor
  · rintro k rfl hop hall
    refine taken_refused_spec tag _ h ?_
    rw [settingCheck_linkRole k _ hop, roleCheck_val]
    refine if_pos ⟨rfl, List.any_eq_false.mpr fun j _ => ?_⟩
    by_cases hj : j = k
    · simp [hj]
    · simp [hall j hj]
  · rintro k rfl hop ⟨kv, hkv, hown⟩
    refine taken_refused_spec tag _ h ?_
    rw [settingCheck_linkRole k _ hop, roleCheck_val, if_neg (by simp)]
    exact if_pos ⟨rfl, List.any_eq_true.mpr ⟨kv, hkv, decide_eq_true hown⟩⟩

theorem settingWrite_held (k : ReqKind) (h : s.takes l) {held : List Staged} (hh : (s.link l).hold = some held)
    (hc : s.settingCheck x = none) :
    (held.length < 128 → Answered s (s.settingTaken l tag k x) l tag k .accepted .none ∧
        ((s.settingTaken l tag k x).link l).hold = some (held ++ [.setting x]) ∧ SupKept s (s.settingTaken l tag k x) ∧
        catSettles s.cat (s.settingTaken l tag k x).cat) ∧
      (128 ≤ held.length → Answered s (s.settingTaken l tag k x) l tag k .holdFull .none ∧
        Spared s (s.settingTaken l tag k x)) := by
  rw [taken_held tag k hc hh]
  constructor
  · intro hlt
    rw [if_neg (Nat.not_le.mpr hlt)]
    exact staged_spec tag k held _ h
  · intro hge
    rw [if_pos hge]
    exact ⟨answered_replied tag k .holdFull .none h, spared_replied tag k .holdFull .none h⟩

end

end Sys2Proof.Machine

open Sys2Proof Sys2Proof.Machine

/-- Settles O58. -/
theorem scopeSetWritesTheScope : Obligations.ScopeSetWritesTheScope := by
  intro s l tag n p e vs h hr
  refine ⟨_, exec_scopeSet tag n p e vs h hr, fun hbad => ?_, fun hn hp hvs => ⟨fun held hh hlt => ?_, fun hh => ?_⟩⟩
  · refine taken_refused_spec tag _ h (if_pos ?_)
    refine Bool.eq_false_iff.mpr fun hin => ?_
    simp only [settingInRange, Bool.and_eq_true, decide_eq_true_eq, List.all_eq_true] at hin
    obtain ⟨⟨hn, hp⟩, hvs⟩ := hin
    rcases hbad with hbad | hbad | ⟨v, hv, hbad⟩
    · omega
    · omega
    · have := hvs v hv
      omega
  · obtain ⟨hans, hhold, hkept, -⟩ := (settingWrite_held tag .scopeSet h hh
      (settingCheck_plain (settingInRange_scope e hn hp hvs) rfl rfl)).1 hlt
    exact ⟨hans, hhold, hkept⟩
  · obtain ⟨hans, hin, hlater⟩ := taken_scope tag .scopeSet e h hh hn hp hvs
    refine ⟨hans, fun hclosed => ?_, fun hopen => ?_⟩
    · rw [(hin hclosed).1]
      exact ⟨by simp [scopeOf], fun m hm => by simp [Ne.symm hm]⟩
    · obtain ⟨hset, hpend⟩ := hlater hopen
      rw [hset, hpend]
      exact ⟨rfl, by simp [scopeOf]⟩

/-- Settles O57. -/
theorem settingsAreCheckedAndWritten : Obligations.SettingsAreCheckedAndWritten := by
  intro s l tag x h hr
  obtain ⟨hmal, hrange, hvol, hwrong⟩ := settingWrite_refused (x := x) tag h
  obtain ⟨hconsole, howner⟩ := settingWrite_role_refused (x := x) tag h
  refine ⟨_, exec_settingWrite tag x h hr, hmal, hrange, hvol, hwrong, hconsole, howner,
    fun held hh hc => settingWrite_held tag .settingWrite h hh hc, fun hh => ?_⟩
  refine ⟨?_, ?_, ?_, ?_, ?_, ?_, ?_, ?_, ?_, ?_, ?_, ?_, ?_, ?_, ?_, ?_, ?_, ?_, ?_, ?_, ?_, ?_, ?_, ?_⟩
  · rintro n rfl h1 h2
    exact taken_plain tag _ h hh (settingCheck_plain (by simp [settingInRange, h1, h2]) rfl rfl) (fun hx => nomatch hx)
      (now := fun t => { t with directiveWait := n }) fun _ => rfl
  · rintro n rfl h1 h2
    exact taken_plain tag _ h hh (settingCheck_plain (by simp [settingInRange, h1, h2]) rfl rfl) (fun hx => nomatch hx)
      (now := fun t => { t with idleTime := n }) fun _ => rfl
  · rintro n rfl h1 h2
    exact taken_plain tag _ h hh (settingCheck_plain (by simp [settingInRange, h1, h2]) rfl rfl) (fun hx => nomatch hx)
      (now := fun t => { t with cutWait := n }) fun u => cutWait_settings u n
  · rintro n rfl h1 h2
    exact taken_plain tag _ h hh (settingCheck_plain (by simp [settingInRange, h1, h2]) rfl rfl) (fun hx => nomatch hx)
      (now := fun t => { t with patrolPeriod := n }) fun _ => rfl
  · rintro n rfl h1 h2
    exact taken_plain tag _ h hh (settingCheck_plain (by simp [settingInRange, h1, h2]) rfl rfl) (fun hx => nomatch hx)
      (now := fun t => { t with overdueLimit := n }) fun _ => rfl
  · rintro n rfl h1 h2
    exact taken_plain tag _ h hh (settingCheck_plain (by simp [settingInRange, h1, h2]) rfl rfl) (fun hx => nomatch hx)
      (now := fun t => { t with ackWait := n }) fun _ => rfl
  · rintro n rfl h1 h2
    exact taken_plain tag _ h hh (settingCheck_plain (by simp [settingInRange, h1, h2]) rfl rfl) (fun hx => nomatch hx)
      (now := fun t => { t with reopenInterval := n }) fun _ => rfl
  · rintro b rfl hop
    exact taken_plain tag _ h hh (settingCheck_standby rfl rfl hop fun _ _ hx => nomatch hx) (fun hx => nomatch hx)
      (now := fun t => { t with autoActivate := b }) fun _ => rfl
  · rintro c g b rfl hc hg
    exact taken_plain tag _ h hh (settingCheck_plain (by simp [settingInRange, hc, hg]) rfl rfl) (fun hx => nomatch hx)
      (now := fun t => { t with classes := tput t.classes c { grace := g, selfRestore := b } }) fun _ => rfl
  · rintro k r rfl hop hf hc
    exact taken_role tag _ h hh hop (roleCheck_none hf hc)
  · rintro v e b rfl he
    obtain ⟨hans, -, -, hvols, -⟩ := taken_effect tag .settingWrite h
      (settingCheck_volume (x := .recoveryFlag v b) rfl rfl rfl he) hh fun hx => nomatch hx
    refine ⟨hans, (volume_congr (s := (s.asked l tag .settingWrite).modVolume v fun e => { e with recovery := b })
      hvols v).trans ?_⟩
    rw [State.volume_modVolume]
    exact congrArg (Option.map _) he
  · rintro v e n rfl he hn
    exact taken_keep tag _ h hh (settingCheck_volume (by simp [settingInRange, hn]) rfl rfl he) (fun hx => nomatch hx) he
      (f := fun e => { e with hourlyKeep := n }) rfl rfl fun _ => rfl
  · rintro v e n rfl he hn
    exact taken_keep tag _ h hh (settingCheck_volume (by simp [settingInRange, hn]) rfl rfl he) (fun hx => nomatch hx) he
      (f := fun e => { e with nightlyKeep := n }) rfl rfl fun _ => rfl
  · rintro v e b rfl he
    exact taken_cutFlag tag _ h hh (settingCheck_volume rfl rfl rfl he) (fun hx => nomatch hx) he (nightly := false)
      (f := fun e => { e with hourlyCuts := b }) rfl fun _ => rfl
  · rintro v e b rfl he
    exact taken_cutFlag tag _ h hh (settingCheck_volume rfl rfl rfl he) (fun hx => nomatch hx) he (nightly := true)
      (f := fun e => { e with nightlyCut := b }) rfl fun _ => rfl
  · rintro n rfl h1 h2
    exact taken_atWindow tag _ (now := fun t => { t with assumedRate := n })
      (later := fun t => { t with assumedRate := some n }) h hh
      (settingCheck_plain (by simp [settingInRange, h1, h2]) rfl rfl) (fun hx => nomatch hx) (fun _ => rfl) rfl
  · rintro n rfl hn
    exact taken_ofWindow tag _ (now := fun t => { t with openTime := n })
      (later := fun t => { t with openTime := some n }) h hh
      (settingCheck_plain (by simp [settingInRange, hn]) rfl rfl) (fun hx => nomatch hx) (fun _ => rfl) rfl
  · rintro n rfl hn
    exact taken_ofWindow tag _ (now := fun t => { t with closeTime := n })
      (later := fun t => { t with closeTime := some n }) h hh
      (settingCheck_plain (by simp [settingInRange, hn]) rfl rfl) (fun hx => nomatch hx) (fun _ => rfl) rfl
  · rintro w rfl
    exact taken_ofWindow tag _ (now := fun t => { t with windowSource := w })
      (later := fun t => { t with windowSource := some w }) h hh (settingCheck_plain rfl rfl rfl)
      (fun hx => nomatch hx) (fun _ => rfl) rfl
  · rintro n rfl hn
    exact taken_atWindow tag _ (now := fun t => { t with reserveMargin := n })
      (later := fun t => { t with reserveMargin := some n }) h hh
      (settingCheck_plain (by simp [settingInRange, hn]) rfl rfl) (fun hx => nomatch hx) (fun _ => rfl) rfl
  · rintro n e p vs rfl hn hp hvs
    obtain ⟨hans, hin, hlater⟩ := taken_scope tag .settingWrite e h hh hn hp hvs
    refine ⟨hans, fun hclosed => (hin hclosed).1, fun hopen => ⟨(hlater hopen).1, ?_⟩⟩
    rw [(hlater hopen).2]
    simp [scopeOf]
  · rintro m rfl hop hm
    have hc : s.settingCheck (.cacheMode m) = none := settingCheck_standby rfl rfl hop fun _ _ hx => nomatch hx
    rw [taken_sameMode tag _ hc hh hm]
    obtain ⟨-, -, -, -, -, -, -, -, -, -, -, -, hset, -⟩ := supKept_replied (s := s) (l := l) tag .settingWrite .done .none
    exact ⟨answered_replied tag _ .done .none h, hset⟩
  · rintro rfl hop
    exact taken_plain tag _ h hh (settingCheck_standby rfl rfl hop fun _ _ hx => nomatch hx) (fun hx => nomatch hx)
      (now := fun t => { t with cacheMode := .writeBack }) writeBack_settings
  · rintro rfl hop hmode ht
    rw [taken_switching tag .settingWrite hop hh hmode ht]
    exact ⟨switching_settings tag _, fun hd hcast => switching_answered tag _ h hop ht hd hcast,
      fun hd => switching_queued tag _ hop ht hd⟩
end

section
/-! SUPPORT. The Tally Unit beside its records: what grace and edits of records leave of it (R36 to R39). -/

namespace Sys2Proof.Machine

/-- The Tally Unit but for its records and the Grace Queue. -/
def State.tallyWork (s : State) : Tally := { s.tally with principals := [], grace := [] }

theorem tallyWork_of_tally {s t : State} (h : t.tally = s.tally) : t.tallyWork = s.tallyWork := by
  rw [State.tallyWork, h, State.tallyWork]

theorem raise_tally (s : State) (b : NoticeBody) : (s.raise b).tally = s.tally := tallyKept_raise b rfl

theorem raise_tallyWork (s : State) (b : NoticeBody) : (s.raise b).tallyWork = s.tallyWork :=
  tallyWork_of_tally (raise_tally s b)

theorem setGrace_tallyWork (s : State) (id : Nat) (g : Grace) : (s.setGrace id g).tallyWork = s.tallyWork := rfl

theorem leaveGraceQueue_tallyWork (s : State) (id : Nat) : (s.leaveGraceQueue id).tallyWork = s.tallyWork := rfl

theorem enterGrace_tallyWork (s : State) (id deadline : Nat) :
    (s.enterGrace id deadline).tallyWork = s.tallyWork := by
  unfold State.enterGrace
  dsimp only
  repeat' split
  all_goals rfl

theorem expire_tallyWork (s : State) (id : Nat) : (s.expire id).tallyWork = s.tallyWork := by
  unfold State.expire
  repeat' split
  all_goals simp only [raise_tallyWork, setGrace_tallyWork, leaveGraceQueue_tallyWork]

theorem lazyExpire_tallyWork (s : State) (id : Nat) : (s.lazyExpire id).tallyWork = s.tallyWork := by
  unfold State.lazyExpire
  split
  · exact expire_tallyWork s id
  · rfl

theorem evalGrace_tallyWork (s : State) (id : Nat) : (s.evalGrace id).tallyWork = s.tallyWork := by
  unfold State.evalGrace
  dsimp only
  repeat' split
  all_goals simp only [raise_tallyWork, enterGrace_tallyWork, setGrace_tallyWork, leaveGraceQueue_tallyWork]

theorem tallyStill_of_work {s t : State} (h : t.tallyWork = s.tallyWork) (hs : s.tallyStill) : t.tallyStill := by
  obtain ⟨hops, hpost, hmode, hflush⟩ := hs
  exact ⟨(congrArg Tally.ops h).trans hops, (congrArg Tally.postings h).trans hpost,
    (congrArg Tally.modeReply h).trans hmode, (congrArg Tally.flushing h).trans hflush⟩

/-- With no operation, none is gathered anew. -/
theorem regatherIf_none {s : State} (h : s.tally.ops = []) (again : TallyOp → Bool) :
    (s.regatherIf again).tally = s.tally := by
  unfold State.regatherIf
  dsimp only
  rw [h]
  simp only [mapIf, List.any_nil, Bool.false_eq_true, if_false, List.map_id', List.map_nil]
  rw [← h]

theorem tallyStill_applyEdit {s : State} (id : Nat) (c : EditChanges) (h : s.tallyStill) :
    (s.applyEdit id c).tallyStill := by
  unfold State.applyEdit
  dsimp only
  have hwork : ((s.lazyExpire id).writeEdit id c).tallyStill :=
    tallyStill_of_work (s := s) (lazyExpire_tallyWork s id) h
  generalize (s.lazyExpire id).writeEdit id c = u at hwork
  have hgrace : (if s.softChanges id c then u.evalGrace id else u).tallyStill := by
    split
    · exact tallyStill_of_work (evalGrace_tallyWork u id) hwork
    · exact hwork
  refine tallyStill_of_work (tallyWork_of_tally (regatherIf_none hgrace.1 _)) hgrace

end Sys2Proof.Machine
end

section
/-! PROOF. Hold Begin, Hold Release and Hold Abandon (R188). -/

namespace Sys2Proof.Machine

/-! ### A hold opened and closed -/

/-- The end of a request that sets its link's hold and is answered DONE. -/
def State.holdSet (s : State) (l : Link) (tag : Nat) (k : ReqKind) (hold : Option (List Staged)) : State :=
  (((s.asked l tag k).modLink l fun r => { r with hold := hold }).reply l s.sup.nextReq .done .none).finish

/-- A link's hold set, and a reply sent: what the end of the step shows. -/
theorem holdReply_spec {s w : State} {l : Link} {tag : Nat} {k : ReqKind} (hold : Option (List Staged)) (st : Status)
    (b : ReplyBody) (h : s.takes l) (hw : Entered s w l tag k true) :
    Answered s (((w.modLink l fun r => { r with hold := hold }).reply l s.sup.nextReq st b).finish) l tag k st b ∧
      ((((w.modLink l fun r => { r with hold := hold }).reply l s.sup.nextReq st b).finish).link l).hold = hold := by
  let u := w.modLink l fun r => { r with hold := hold }
  have hu : u.link l = { w.link l with hold := hold } := State.link_modLink_self _ _ _
  obtain ⟨-, -, -, -, -, rhold, -⟩ := reply_link_kept u l s.sup.nextReq st b
  obtain ⟨-, -, -, -, -, khold, -⟩ := finish_link_kept (u.reply l s.sup.nextReq st b) l
  refine ⟨answered_finish st b h (hw.of_kept ?_ ?_ ?_), khold.trans (rhold.trans ?_)⟩ <;> rw [hu]

theorem holdSet_spec {s : State} {l : Link} (tag : Nat) (k : ReqKind) (hold : Option (List Staged)) (h : s.takes l) :
    Answered s (s.holdSet l tag k hold) l tag k .done .none ∧ ((s.holdSet l tag k hold).link l).hold = hold ∧
      SupKept s (s.holdSet l tag k hold) := by
  obtain ⟨hans, hhold⟩ := holdReply_spec hold .done .none h (entered_asked s l tag k)
  exact ⟨hans, hhold, supKept_finish_of (supKept_refl _)⟩

theorem exec_holdBegin {s : State} {l : Link} (tag : Nat) (h : s.takes l) :
    Machine.exec (.holdBegin l tag) s =
      .next (if (s.link l).hold = none then s.holdSet l tag .holdBegin (some [])
        else s.replied l tag .holdBegin .busy .none) := by
  refine (act_asked tag .holdBegin _ h (.inl rfl)).trans (congrArg Host.Outcome.next ?_)
  have hold : ((s.asked l tag .holdBegin).link l).hold = (s.link l).hold := by rw [asked_link]
  rw [hold]
  cases (s.link l).hold with
  | none => rfl
  | some held => rfl

theorem exec_holdAbandon {s : State} {l : Link} (tag : Nat) (h : s.takes l) :
    Machine.exec (.holdAbandon l tag) s = .next (s.holdSet l tag .holdAbandon none) :=
  act_asked tag .holdAbandon _ h (.inl rfl)

/-! ### A hold released -/

theorem release_refused {s : State} {c : Staged} {st : Status} (h : s.stagedCheck c = some st)
    (apply : State → Staged → State) (cs : List (Nat × Staged)) (i n : Nat) (skipped : List (Nat × Status)) :
    State.release apply ((i, c) :: cs) (s, n, skipped) = State.release apply cs (s, n, skipped ++ [(i, st)]) := by
  rw [State.release, h]

theorem release_applied {s : State} {c : Staged} (h : s.stagedCheck c = none) (apply : State → Staged → State)
    (cs : List (Nat × Staged)) (i n : Nat) (skipped : List (Nat × Status)) :
    State.release apply ((i, c) :: cs) (s, n, skipped) = State.release apply cs (apply s c, n + 1, skipped) := by
  rw [State.release, h]

/-- What each staged change keeps, a release of them keeps. -/
theorem release_keeps {P : State → Prop} {apply : State → Staged → State} (cs : List (Nat × Staged))
    (r : State × Nat × List (Nat × Status)) (hP : ∀ s, ∀ ic ∈ cs, P s → P (apply s ic.2)) (h : P r.1) :
    P (State.release apply cs r).1 := by
  induction cs generalizing r with
  | nil => exact h
  | cons ic cs ih =>
    obtain ⟨i, c⟩ := ic
    obtain ⟨s, n, skipped⟩ := r
    have hrest : ∀ s, ∀ ic ∈ cs, P s → P (apply s ic.2) := fun s ic hic => hP s ic (List.mem_cons_of_mem _ hic)
    rw [State.release]
    split
    · exact ih _ hrest h
    · exact ih _ hrest (hP s (i, c) List.mem_cons_self h)

theorem gains_applyStaged {P : Vector LinkRec 6 → Prop} (k : LinksGain P) {s : State} (c : Staged) (h : P s.links) :
    P (s.applyStaged c).links := by
  cases c with
  | setting x => exact gains_storeSetting k x h
  | edit id c => exact gains_applyEdit k id c h
  | freeze id b => exact gains_setFrozen id b h

theorem tallyStill_storeSetting {s : State} {x : Setting} (hx : ∀ m, x ≠ .cacheMode m) (h : s.tallyStill) :
    (s.storeSetting x).tallyStill := by
  have hwindow (now : Settings → Settings) (later : PendingSettings → PendingSettings) :
      (s.atWindow now later).tallyStill := by
    unfold State.atWindow
    split <;> exact h
  cases x with
  | cacheMode m => exact absurd rfl (hx m)
  | linkRole n r =>
    unfold State.storeSetting
    dsimp only
    split <;> exact h
  | hourlyKeep v n =>
    unfold State.storeSetting
    dsimp only
    rw [retain_eq]
    exact h
  | nightlyKeep v n =>
    unfold State.storeSetting
    dsimp only
    rw [retain_eq]
    exact h
  | hourlyCuts v b => cases b <;> exact h
  | nightlyCut v b => cases b <;> exact h
  | cutWait n =>
    exact tallyStill_of_work (s := s) (tallyWork_of_tally
      (tallyKept_missLate (s := s.modSettings fun t => { t with cutWait := n }) rfl)) h
  | windowSource | openTime | closeTime | assumedRate | reserveMargin | scope => exact hwindow _ _
  | autoActivate | classEntry | recoveryFlag | directiveWait | idleTime | patrolPeriod | overdueLimit | ackWait
  | reopenInterval | unknown => exact h

theorem tallyStill_applyStaged {s : State} {c : Staged} (hc : ∀ m, c ≠ .setting (.cacheMode m)) (h : s.tallyStill) :
    (s.applyStaged c).tallyStill := by
  cases c with
  | setting x => exact tallyStill_storeSetting (fun m hx => hc m (congrArg Staged.setting hx)) h
  | edit id c => exact tallyStill_applyEdit id c h
  | freeze id b => exact h

/-- What a Hold Release makes of the staged changes. -/
def State.releasedOf (s : State) (l : Link) (tag : Nat) (held : List Staged) : State × Nat × List (Nat × Status) :=
  State.release State.applyStaged ((List.range held.length).zip held) (s.asked l tag .holdRelease, 0, [])

/-- The state in which the changes of a released hold stand and the window has been evaluated. -/
def State.releaseStands (s : State) (l : Link) (tag : Nat) (held : List Staged) : State :=
  if held.any stagedOfWindow then (s.releasedOf l tag held).1.evaluateOpen else (s.releasedOf l tag held).1

/-- The end of a Hold Release that applies its changes. -/
def State.holdReleased (s : State) (l : Link) (tag : Nat) (held : List Staged) : State :=
  (((s.releaseStands l tag held).modLink l fun r => { r with hold := some [] }).reply l s.sup.nextReq .done
    (.holdReleased (s.releasedOf l tag held).2.1 (s.releasedOf l tag held).2.2)).finish

section
variable {s : State} {l : Link} (tag : Nat)

theorem exec_holdRelease_none (h : s.takes l) (hh : (s.link l).hold = none) :
    Machine.exec (.holdRelease l tag) s = .next (s.replied l tag .holdRelease .range .none) := by
  refine (act_asked tag .holdRelease _ h (.inl rfl)).trans (congrArg Host.Outcome.next ?_)
  have hold : ((s.asked l tag .holdRelease).link l).hold = none := by rw [asked_link]; exact hh
  rw [hold]
  rfl

theorem exec_holdRelease_some {held : List Staged} (h : s.takes l) (hh : (s.link l).hold = some held) :
    Machine.exec (.holdRelease l tag) s =
      .next (if held.any stagedInStandby = true ∧ s.sup.op ≠ .standby then
          s.replied l tag .holdRelease .wrongState .none
        else s.holdReleased l tag held) := by
  refine (act_asked tag .holdRelease _ h (.inl rfl)).trans (congrArg Host.Outcome.next ?_)
  have hold : ((s.asked l tag .holdRelease).link l).hold = some held := by rw [asked_link]; exact hh
  rw [hold]
  exact apply_ite State.finish _ _ _

theorem releaseStands_entered (held : List Staged) : Entered s (s.releaseStands l tag held) l tag .holdRelease true := by
  refine (entered_asked s l tag .holdRelease).gains fun P k hp => ?_
  have hrel : P (s.releasedOf l tag held).1.links :=
    release_keeps (P := fun u => P u.links) _ _ (fun u ic _ hu => gains_applyStaged k ic.2 hu) hp
  unfold State.releaseStands
  split
  · exact gains_evaluateOpen k hrel
  · exact hrel

theorem releaseStands_still {held : List Staged} (ht : s.tallyStill) (hm : ∀ m, Staged.setting (.cacheMode m) ∉ held) :
    (s.releaseStands l tag held).tallyStill := by
  have hrel : (s.releasedOf l tag held).1.tallyStill := by
    refine release_keeps (P := State.tallyStill) _ _ (fun u ic hic hu => tallyStill_applyStaged (fun m hc => ?_) hu) ht
    exact hm m (hc ▸ (List.of_mem_zip hic).2)
  unfold State.releaseStands
  split
  · exact tallyStill_of_work (tallyWork_of_tally (tallyKept_evaluateOpen rfl)) hrel
  · exact hrel

/-- What the end of a Hold Release shows. -/
theorem holdReleased_spec (held : List Staged) (h : s.takes l) :
    Answered s (s.holdReleased l tag held) l tag .holdRelease .done
        (.holdReleased (s.releasedOf l tag held).2.1 (s.releasedOf l tag held).2.2) ∧
      ((s.holdReleased l tag held).link l).hold = some [] ∧
      (s.holdReleased l tag held).sup.settings = (s.releaseStands l tag held).sup.settings ∧
      (s.holdReleased l tag held).sup.pendingSettings = (s.releaseStands l tag held).sup.pendingSettings ∧
      (s.holdReleased l tag held).cat.volumes = (s.releaseStands l tag held).cat.volumes ∧
      (s.holdReleased l tag held).cat.snapshots = (s.releaseStands l tag held).cat.snapshots ∧
      (s.holdReleased l tag held).cat.dues = (s.releaseStands l tag held).cat.dues ∧
      (s.holdReleased l tag held).off.phase = (s.releaseStands l tag held).off.phase ∧
      (s.tallyStill → (∀ m, Staged.setting (.cacheMode m) ∉ held) →
        (s.holdReleased l tag held).tally = (s.releaseStands l tag held).tally) := by
  obtain ⟨hans, hhold⟩ := holdReply_spec (some []) .done
    (.holdReleased (s.releasedOf l tag held).2.1 (s.releasedOf l tag held).2.2) h (releaseStands_entered tag held)
  have hset := finish_settles (((s.releaseStands l tag held).modLink l fun r => { r with hold := some [] }).reply l
    s.sup.nextReq .done (.holdReleased (s.releasedOf l tag held).2.1 (s.releasedOf l tag held).2.2))
  obtain ⟨⟨⟨-, -, -, -, -, -, -, -, -, -, -, -, hsettings, hpending⟩, -⟩, -,
    ⟨⟨hvol, -, hsnap, -, -, hdues⟩, -⟩, -, ⟨hphase, -⟩, -⟩ := hset
  exact ⟨hans, hhold, hsettings, hpending, hvol, hsnap, hdues, hphase,
    fun ht hm => finish_tally (s := State.reply _ l s.sup.nextReq _ _) (releaseStands_still tag ht hm)⟩

end

/-! ### A freeze and a setting released together -/

theorem stagedCheck_patrolPeriod (s : State) {n : Nat} (h1 : 1 ≤ n) (h2 : n ≤ 365) :
    s.stagedCheck (.setting (.patrolPeriod n)) = none :=
  settingCheck_plain (x := .patrolPeriod n) (by simp [settingInRange, h1, h2]) rfl rfl

section
variable {s : State} {l : Link} (tag : Nat) {id n : Nat} {b : Bool}

theorem releasedOf_pair_missing (hp : s.prin id = none) (h1 : 1 ≤ n) (h2 : n ≤ 365) :
    s.releasedOf l tag [.freeze id b, .setting (.patrolPeriod n)] =
      ((s.asked l tag .holdRelease).storeSetting (.patrolPeriod n), 1, [(0, .unknownPrincipal)]) := by
  have hfreeze : (s.asked l tag .holdRelease).stagedCheck (.freeze id b) = some .unknownPrincipal := by
    refine if_pos ?_
    change (s.prin id).isNone = true
    rw [hp]
    rfl
  exact (release_refused hfreeze _ _ _ _ _).trans
    (release_applied (stagedCheck_patrolPeriod _ h1 h2) _ _ _ _ _)

theorem releasedOf_pair_known {p : Principal} (hp : s.prin id = some p) (h1 : 1 ≤ n) (h2 : n ≤ 365) :
    s.releasedOf l tag [.freeze id b, .setting (.patrolPeriod n)] =
      (((s.asked l tag .holdRelease).setFrozen id b).storeSetting (.patrolPeriod n), 2, []) := by
  have hfreeze : (s.asked l tag .holdRelease).stagedCheck (.freeze id b) = none := by
    refine if_neg ?_
    change ¬(s.prin id).isNone = true
    rw [hp]
    exact Bool.false_ne_true
  exact (release_applied hfreeze _ _ _ _ _).trans
    (release_applied (stagedCheck_patrolPeriod _ h1 h2) _ _ _ _ _)

end

end Sys2Proof.Machine

open Sys2Proof Sys2Proof.Machine

/-- Settles O59. -/
theorem holdsStageReleaseAndAbandon : Obligations.HoldsStageReleaseAndAbandon := by
  refine ⟨fun s l tag h => ?_, fun s l tag h => ?_, fun s c cs i n skipped => ?_, fun s l tag h => ?_⟩
  · refine ⟨_, exec_holdBegin tag h, fun hh => ?_, fun hh => ?_⟩
    · rw [if_pos hh]
      exact holdSet_spec tag .holdBegin (some []) h
    · rw [if_neg hh]
      exact ⟨answered_replied tag _ _ _ h, spared_replied tag _ _ _ h⟩
  · cases hh : (s.link l).hold with
    | none =>
      refine ⟨_, exec_holdRelease_none tag h hh, fun _ => ?_, fun held hs => (nomatch hs), fun _ _ _ hs => (nomatch hs),
        fun held hs => (nomatch hs)⟩
      exact ⟨answered_replied tag _ _ _ h, spared_replied tag _ _ _ h⟩
    | some held =>
      refine ⟨_, exec_holdRelease_some tag h hh, fun hs => (nomatch hs), ?_, ?_, ?_⟩
      · rintro _ ⟨⟩ hany hop
        rw [if_pos ⟨hany, by rw [hop]; decide⟩]
        exact ⟨answered_replied tag _ _ _ h, spared_replied tag _ _ _ h⟩
      · rintro id b n ⟨⟩ h1 h2
        rw [if_neg (fun ⟨hany, _⟩ => Bool.false_ne_true hany)]
        obtain ⟨hans, hhold, hsettings, -, -, -, -, -, htally⟩ :=
          holdReleased_spec tag [.freeze id b, .setting (.patrolPeriod n)] h
        refine ⟨hhold, hsettings.trans ?_, fun hp => ?_, fun p hp ht => ⟨?_, ?_⟩⟩
        · cases hp : s.prin id with
          | none => exact congrArg (fun r => r.1.sup.settings) (releasedOf_pair_missing tag hp h1 h2)
          | some p => exact congrArg (fun r => r.1.sup.settings) (releasedOf_pair_known tag hp h1 h2)
        · rw [releasedOf_pair_missing tag hp h1 h2] at hans
          exact hans
        · have htally := htally ht (by simp)
          have hstands := congrArg Prod.fst (releasedOf_pair_known (l := l) (b := b) tag hp h1 h2)
          have hstands : s.releaseStands l tag [.freeze id b, .setting (.patrolPeriod n)] = _ := hstands
          rw [hstands] at htally
          have hfrozen := State.prin_modPrin (s.asked l tag .holdRelease) id fun p => { p with frozen := b }
          have hprin : (s.asked l tag .holdRelease).prin id = some p := hp
          rw [hprin] at hfrozen
          exact (congrArg (fun y : Tally => tget y.principals id) htally).trans hfrozen
        · rw [releasedOf_pair_known tag hp h1 h2] at hans
          exact hans
      · rintro _ ⟨⟩ hok
        have happly : ¬(held.any stagedInStandby = true ∧ s.sup.op ≠ .standby) := by
          rintro ⟨hany, hop⟩
          rcases hok with hok | hok
          · rw [hok] at hany
            cases hany
          · exact hop hok
        rw [if_neg happly]
        obtain ⟨hans, hhold, hrest⟩ := holdReleased_spec tag held h
        exact ⟨s.asked l tag .holdRelease, s.releasedOf l tag held, s.releaseStands l tag held, supKept_refl s.sup, rfl, rfl,
          rfl, rfl, rfl, rfl, rfl, rfl, hans, hhold, hrest⟩
  · exact ⟨fun st hst => release_refused hst _ _ _ _ _, fun hc => release_applied hc _ _ _ _ _, rfl⟩
  · exact ⟨_, exec_holdAbandon tag h, holdSet_spec tag .holdAbandon none h⟩
end

section
/-! SUPPORT. Tallies (R3, R9 to R12): what current values rest on, what grace leaves of the Tally Unit, and what
changes applied to filled lines make of it. -/

namespace Sys2Proof.Machine

/-! ### Notices -/

theorem getElem?_modAt {α : Type} (xs : List α) (i j : Nat) (f : α → α) :
    (modAt xs i f)[j]? = if i = j then xs[j]?.map f else xs[j]? := by
  induction xs generalizing i j with
  | nil => cases i <;> simp [modAt]
  | cons x xs ih =>
    cases i with
    | zero => cases j <;> simp [modAt]
    | succ i =>
      cases j with
      | zero => simp [modAt]
      | succ j => simp [modAt, ih]

/-- A notice raised counts in its class (R177). -/
theorem raise_raised (s : State) (b : NoticeBody) : (s.raise b).sup.raised = modAt s.sup.raised b.cls countUp := by
  unfold State.raise
  dsimp only
  rw [(queueTo_kept _ _ _ _).2]
  rfl

/-! ### Current values -/

/-- Used and reserved of a stored record. -/
def Principal.tally (p : Principal) : Nat × Nat := (p.used, p.reserved)

theorem stored_congr {s t : State} (hw : t.tally.writes = s.tally.writes)
    (hp : ∀ id, (t.prin id).map Principal.tally = (s.prin id).map Principal.tally) (id : Nat) :
    t.stored id = s.stored id := by
  have hid := hp id
  simp only [State.stored, hw]
  cases hs : s.prin id with
  | none => cases ht : t.prin id <;> simp_all
  | some p => cases ht : t.prin id <;> simp_all [Principal.tally]

theorem current_congr {s t : State} (hc : t.tally.cache = s.tally.cache) (ho : t.tally.castout = s.tally.castout)
    (hw : t.tally.writes = s.tally.writes)
    (hp : ∀ id, (t.prin id).map Principal.tally = (s.prin id).map Principal.tally) (id : Nat) :
    t.current id = s.current id := by
  simp only [State.current, State.line, State.castoutOf, hc, ho, stored_congr hw hp id]

theorem current_of_tally {s t : State} (h : t.tally = s.tally) (id : Nat) : t.current id = s.current id :=
  current_congr (by rw [h]) (by rw [h]) (by rw [h]) (fun id => by simp only [State.prin, h]) id

theorem current_of_line {s : State} {id : Nat} {x : Line} (hx : s.line id = some x) (hf : x.filling = false) :
    s.current id = (x.used, x.reserved) := by
  simp only [State.current, hx, hf, Bool.false_eq_true, if_false]

theorem current_of_line_eq {s t : State} {id : Nat} (hl : t.line id = s.line id)
    (hc : t.tally.castout = s.tally.castout) (hs : t.stored id = s.stored id) : t.current id = s.current id := by
  simp only [State.current, State.castoutOf, hl, hc, hs]

/-! ### What grace leaves alone -/

/-- A record but for its grace fields. -/
def Principal.ungraced (p : Principal) : Principal := { p with grace := .within }

/-- From one state to another, the Tally Unit's work in hand is as it was, records differ in their grace fields
alone, and only grace notices are raised. -/
structure GraceOnly (s t : State) : Prop where
  work : t.tallyWork = s.tallyWork
  prins : ∀ id, (t.prin id).map Principal.ungraced = (s.prin id).map Principal.ungraced
  sup : supKept s.sup t.sup
  raised : ∀ i, i ≠ 0 → t.sup.raised[i]? = s.sup.raised[i]?
  others : t.others = s.others

namespace GraceOnly

theorem refl (s : State) : GraceOnly s s := ⟨rfl, fun _ => rfl, supKept_refl _, fun _ _ => rfl, rfl⟩

variable {s t u : State}

theorem trans (h : GraceOnly s t) (k : GraceOnly t u) : GraceOnly s u :=
  ⟨k.work.trans h.work, fun id => (k.prins id).trans (h.prins id), h.sup.trans k.sup,
    fun i hi => (k.raised i hi).trans (h.raised i hi), k.others.trans h.others⟩

theorem cache (h : GraceOnly s t) : t.tally.cache = s.tally.cache := by
  have e := congrArg Tally.cache h.work
  exact e

theorem castout (h : GraceOnly s t) : t.tally.castout = s.tally.castout := by
  have e := congrArg Tally.castout h.work
  exact e

theorem writes (h : GraceOnly s t) : t.tally.writes = s.tally.writes := by
  have e := congrArg Tally.writes h.work
  exact e

theorem ops (h : GraceOnly s t) : t.tally.ops = s.tally.ops := by
  have e := congrArg Tally.ops h.work
  exact e

theorem postings (h : GraceOnly s t) : t.tally.postings = s.tally.postings := by
  have e := congrArg Tally.postings h.work
  exact e

theorem recounts (h : GraceOnly s t) : t.tally.recounts = s.tally.recounts := by
  have e := congrArg Tally.recounts h.work
  exact e

theorem modeReply (h : GraceOnly s t) : t.tally.modeReply = s.tally.modeReply := by
  have e := congrArg Tally.modeReply h.work
  exact e

theorem flushing (h : GraceOnly s t) : t.tally.flushing = s.tally.flushing := by
  have e := congrArg Tally.flushing h.work
  exact e

theorem note (h : GraceOnly s t) : t.tally.note = s.tally.note := by
  have e := congrArg Tally.note h.work
  exact e

theorem line (h : GraceOnly s t) (id : Nat) : t.line id = s.line id := by simp only [State.line, h.cache]

/-- What no grace field says of a record is as it was. -/
theorem of_prin {α : Type} (h : GraceOnly s t) (f : Principal → α) (hf : ∀ p : Principal, f p.ungraced = f p) (id : Nat) :
    (t.prin id).map f = (s.prin id).map f := by
  have hid := h.prins id
  cases hs : s.prin id with
  | none => cases ht : t.prin id <;> simp_all
  | some p =>
    cases ht : t.prin id with
    | none => simp_all
    | some q =>
      simp only [hs, ht, Option.map_some, Option.some.injEq] at hid
      simp only [Option.map_some, ← hf q, ← hf p, hid]

theorem current (h : GraceOnly s t) (id : Nat) : t.current id = s.current id :=
  current_congr h.cache h.castout h.writes (h.of_prin Principal.tally fun _ => rfl) id

theorem isUnsettled (h : GraceOnly s t) (id : Nat) : t.isUnsettled id = s.isUnsettled id := by
  have hid := h.of_prin Principal.unsettled (fun _ => rfl) id
  simp only [State.isUnsettled, h.writes]
  cases hs : s.prin id <;> cases ht : t.prin id <;> simp_all

end GraceOnly

theorem graceOnly_setGrace (s : State) (id : Nat) (g : Grace) : GraceOnly s (s.setGrace id g) := by
  refine ⟨rfl, fun k => ?_, supKept_refl _, fun _ _ => rfl, rfl⟩
  by_cases hk : id = k
  · subst hk
    rw [State.setGrace, State.prin_modPrin, Option.map_map]
    rfl
  · rw [State.setGrace, State.prin_modPrin_ne _ _ hk]

theorem graceOnly_queue (s : State) (q : List GraceEntry) : GraceOnly s { s with tally.grace := q } :=
  ⟨rfl, fun _ => rfl, supKept_refl _, fun _ _ => rfl, rfl⟩

theorem graceOnly_leaveGraceQueue (s : State) (id : Nat) : GraceOnly s (s.leaveGraceQueue id) := graceOnly_queue s _

theorem graceOnly_raise (s : State) {b : NoticeBody} (hb : b.cls = 0) : GraceOnly s (s.raise b) := by
  refine ⟨raise_tallyWork s b, fun id => by simp only [State.prin, raise_tally], supKept_raise b (supKept_refl _),
    fun i hi => ?_, othersKept_raise b rfl⟩
  rw [raise_raised, getElem?_modAt, hb, if_neg (Ne.symm hi)]

theorem graceOnly_expiry (s : State) (id d now u r : Nat) (soft : Option Nat) :
    GraceOnly s (s.raise (.graceExpired id d now u r soft)) := graceOnly_raise s rfl

theorem graceOnly_enterGrace (s : State) (id deadline : Nat) : GraceOnly s (s.enterGrace id deadline) := by
  unfold State.enterGrace
  dsimp only
  repeat' split
  · exact (graceOnly_queue s _).trans (graceOnly_setGrace _ _ _)
  · exact graceOnly_setGrace _ _ _
  · exact ((graceOnly_queue s _).trans (graceOnly_setGrace _ _ _)).trans (graceOnly_setGrace _ _ _)
  · exact graceOnly_setGrace _ _ _

theorem graceOnly_expire (s : State) (id : Nat) : GraceOnly s (s.expire id) := by
  unfold State.expire
  repeat' split
  · exact GraceOnly.refl s
  · exact ((graceOnly_leaveGraceQueue s id).trans (graceOnly_setGrace _ id .expired)).trans (graceOnly_expiry _ _ _ _ _ _ _)
  · exact GraceOnly.refl s

theorem graceOnly_lazyExpire (s : State) (id : Nat) : GraceOnly s (s.lazyExpire id) := by
  unfold State.lazyExpire
  split
  · exact graceOnly_expire s id
  · exact GraceOnly.refl s

/-- The load of a principal exceeds its soft limit (R36). -/
def State.aboveSoft (s : State) (id : Nat) (p : Principal) : Bool :=
  match p.soft with
  | some soft => decide (soft < s.graceLoad id)
  | none => false

section
variable {s : State} {id : Nat} {p : Principal}

theorem evalGrace_none (h : s.prin id = none) : s.evalGrace id = s := by
  unfold State.evalGrace
  rw [h]

theorem evalGrace_within (h : s.prin id = some p) (hg : p.grace = .within) :
    s.evalGrace id =
      if s.aboveSoft id p then
        if (s.classOf p.cls).grace = 0 then
          (s.setGrace id .expired).raise
            (.graceExpired id s.sup.clock s.sup.clock (s.current id).1 (s.current id).2 p.soft)
        else s.enterGrace id (deadlineAfter s.sup.clock (s.classOf p.cls).grace)
      else s := by
  unfold State.evalGrace
  rw [h]
  dsimp only
  rw [hg]
  rfl

theorem evalGrace_grace (h : s.prin id = some p) {d : Nat} {q : Bool} (hg : p.grace = .grace d q) :
    s.evalGrace id = if s.aboveSoft id p then s else (s.leaveGraceQueue id).setGrace id .within := by
  unfold State.evalGrace
  rw [h]
  dsimp only
  rw [hg]
  rfl

theorem evalGrace_expired (h : s.prin id = some p) (hg : p.grace = .expired) :
    s.evalGrace id = if s.aboveSoft id p then s else s.setGrace id .within := by
  unfold State.evalGrace
  rw [h]
  dsimp only
  rw [hg]
  rfl

end

theorem graceOnly_evalGrace (s : State) (id : Nat) : GraceOnly s (s.evalGrace id) := by
  cases hp : s.prin id with
  | none =>
    rw [evalGrace_none hp]
    exact GraceOnly.refl s
  | some p =>
    cases hg : p.grace with
    | within =>
      rw [evalGrace_within hp hg]
      split
      · split
        · exact (graceOnly_setGrace s id .expired).trans (graceOnly_expiry _ _ _ _ _ _ _)
        · exact graceOnly_enterGrace s id _
      · exact GraceOnly.refl s
    | grace d q =>
      rw [evalGrace_grace hp hg]
      split
      · exact GraceOnly.refl s
      · exact (graceOnly_leaveGraceQueue s id).trans (graceOnly_setGrace _ id .within)
    | expired =>
      rw [evalGrace_expired hp hg]
      split
      · exact GraceOnly.refl s
      · exact graceOnly_setGrace s id .within

theorem graceOnly_foldl {f : State → Nat → State} (hf : ∀ s id, GraceOnly s (f s id)) (ids : List Nat) (s : State) :
    GraceOnly s (ids.foldl f s) := by
  induction ids generalizing s with
  | nil => exact GraceOnly.refl s
  | cons id ids ih => exact (hf s id).trans (ih _)

theorem graceOnly_evalGraceAll (s : State) (ids : List Nat) : GraceOnly s (s.evalGraceAll ids) :=
  graceOnly_foldl graceOnly_evalGrace ids s

theorem graceOnly_lazyExpireAll (s : State) (ids : List Nat) : GraceOnly s (s.lazyExpireAll ids) :=
  graceOnly_foldl graceOnly_lazyExpire ids s

theorem lazyExpire_of_not_overdue {s : State} {id : Nat} (h : s.overdue id = false) : s.lazyExpire id = s := by
  unfold State.lazyExpire
  rw [h]
  exact if_neg Bool.false_ne_true

/-- Where none of them is overdue, no principal expires (R39). -/
theorem lazyExpireAll_none {s : State} {ids : List Nat} (h : s.noneOverdue ids) : s.lazyExpireAll ids = s := by
  unfold State.lazyExpireAll
  induction ids with
  | nil => rfl
  | cons id ids ih =>
    rw [List.foldl_cons, lazyExpire_of_not_overdue (h id List.mem_cons_self)]
    exact ih fun x hx => h x (List.mem_cons_of_mem _ hx)

/-! ### A change applied to a filled line -/

/-- What changes make of a state all of whose lines that they name are filled (R11): lines and in-place writes alone
differ, the lines named hold the new values, and the writes begun are of lines named. -/
structure LinesChanged (settled : Option Nat) (cs : List TallyChange) (s t : State) : Prop where
  frame : t = { s with tally := { s.tally with cache := t.tally.cache, writes := t.tally.writes } }
  changed : ∀ c ∈ cs, ∃ x y, s.line c.id = some x ∧ t.line c.id = some y ∧ y.filling = false ∧ y.held = x.held ∧
    y.used = c.used ∧ y.reserved = c.reserved
  kept : ∀ id, id ∉ cs.map TallyChange.id → t.line id = s.line id
  begun : ∃ ws, t.tally.writes = s.tally.writes ++ ws ∧
    ∀ w ∈ ws, w.id ∈ cs.map TallyChange.id ∧ w.settles = decide (settled = some w.id)

theorem linesChanged_applyChange {s : State} (num : Nat) (settled : Option Nat) (c : TallyChange) {x : Line}
    (hx : s.line c.id = some x) (hf : x.filling = false) :
    LinesChanged settled [c] s (s.applyChange num settled c) := by
  have hid : x.id = c.id := (line_find_id hx).1
  have hput (y : Line) (ws : List PendingWrite) (hy : y.id = x.id) (hyf : y.filling = false) (hh : y.held = x.held)
      (hu : y.used = c.used) (hr : y.reserved = c.reserved)
      (hws : ∀ w ∈ ws, w.id = c.id ∧ w.settles = decide (settled = some w.id)) :
      LinesChanged settled [c] s { s.putLine y with tally.writes := s.tally.writes ++ ws } := by
    have hline (j : Nat) : ({ s.putLine y with tally.writes := s.tally.writes ++ ws } : State).line j =
        (s.putLine y).line j := rfl
    refine ⟨rfl, ?_, ?_, ws, rfl, fun w hw => ?_⟩
    · intro d hd
      obtain rfl := List.mem_singleton.mp hd
      refine ⟨x, y, hx, ?_, hyf, hh, hu, hr⟩
      rw [hline, ← hid, ← hy]
      exact line_putLine_self y
    · intro j hj
      rw [hline]
      refine line_putLine_ne y fun he => hj ?_
      rw [← he, hy, hid]
      exact List.mem_singleton.mpr rfl
    · obtain ⟨hwid, hset⟩ := hws w hw
      exact ⟨List.mem_singleton.mpr hwid, hset⟩
  unfold State.applyChange
  rw [hx]
  dsimp only
  rw [if_neg (by rw [hf]; exact Bool.false_ne_true)]
  split
  next hsame =>
    simp only [State.isNoChange, Bool.and_eq_true, decide_eq_true_eq, current_of_line hx hf, Prod.mk.injEq] at hsame
    refine ⟨rfl, ?_, fun _ _ => rfl, [], (List.append_nil _).symm, fun w hw => nomatch hw⟩
    intro d hd
    obtain rfl := List.mem_singleton.mp hd
    exact ⟨x, x, hx, hx, hf, rfl, hsame.1⟩
  next =>
    split
    · refine hput _ [_] rfl hf rfl rfl rfl fun w hw => ?_
      obtain rfl := List.mem_singleton.mp hw
      exact ⟨rfl, rfl⟩
    · have hnone := hput { x with
        used := c.used, reserved := c.reserved
        dUsed := x.dUsed + ((c.used : Int) - x.used)
        dReserved := x.dReserved + ((c.reserved : Int) - x.reserved)
        dirty := decide (Line.drift { x with
          used := c.used, reserved := c.reserved
          dUsed := x.dUsed + ((c.used : Int) - x.used)
          dReserved := x.dReserved + ((c.reserved : Int) - x.reserved) } ≠ 0) } [] rfl hf rfl rfl rfl
        fun w hw => nomatch hw
      rw [List.append_nil] at hnone
      exact hnone

/-- The lines that changes name are resident and filled. -/
def State.linesFilled (s : State) (ids : List Nat) : Prop := ∀ id ∈ ids, ∃ x, s.line id = some x ∧ x.filling = false

theorem linesChanged_applyChanges {s : State} (num : Nat) (settled : Option Nat) {cs : List TallyChange}
    (hn : (cs.map TallyChange.id).Nodup) (hf : s.linesFilled (cs.map TallyChange.id)) :
    LinesChanged settled cs s (s.applyChanges num settled cs) := by
  unfold State.applyChanges
  induction cs generalizing s with
  | nil =>
    exact ⟨rfl, fun c hc => (nomatch hc), fun _ _ => rfl, [], (List.append_nil _).symm, fun w hw => (nomatch hw)⟩
  | cons c cs ih =>
    rw [List.map_cons, List.nodup_cons] at hn
    obtain ⟨hc, hn⟩ := hn
    obtain ⟨x, hx, hxf⟩ := hf c.id (by simp)
    have h1 := linesChanged_applyChange num settled c hx hxf
    have hkept (id : Nat) (hid : id ∈ cs.map TallyChange.id) : (s.applyChange num settled c).line id = s.line id := by
      refine h1.kept id fun hm => hc ?_
      rwa [← List.mem_singleton.mp hm]
    have h2 := ih hn fun id hid => by
      rw [hkept id hid]
      exact hf id (List.mem_cons_of_mem _ hid)
    rw [List.foldl_cons]
    generalize cs.foldl (State.applyChange num settled) (s.applyChange num settled c) = t at h2
    refine ⟨?_, ?_, ?_, ?_⟩
    · have hframe := h2.frame
      rw [h1.frame] at hframe
      exact hframe
    · intro d hd
      rcases List.mem_cons.mp hd with rfl | hd
      · rw [h2.kept d.id hc]
        exact h1.changed d List.mem_cons_self
      · obtain ⟨y, z, hy, hz⟩ := h2.changed d hd
        rw [hkept d.id (List.mem_map_of_mem hd)] at hy
        exact ⟨y, z, hy, hz⟩
    · intro id hid
      rw [List.map_cons, List.mem_cons, not_or] at hid
      rw [h2.kept id hid.2]
      exact h1.kept id (by simpa using hid.1)
    · obtain ⟨ws, hws, hw⟩ := h1.begun
      obtain ⟨vs, hvs, hv⟩ := h2.begun
      refine ⟨ws ++ vs, by rw [hvs, hws, List.append_assoc], fun w hm => ?_⟩
      rcases List.mem_append.mp hm with hm | hm
      · obtain ⟨hid, hset⟩ := hw w hm
        exact ⟨List.mem_cons.mpr (.inl (List.mem_singleton.mp hid)), hset⟩
      · obtain ⟨hid, hset⟩ := hv w hm
        exact ⟨List.mem_cons_of_mem _ hid, hset⟩

namespace LinesChanged
variable {settled : Option Nat} {cs : List TallyChange} {s t : State}

theorem castout (h : LinesChanged settled cs s t) : t.tally.castout = s.tally.castout := by rw [h.frame]
theorem principals (h : LinesChanged settled cs s t) : t.tally.principals = s.tally.principals := by rw [h.frame]
theorem ops (h : LinesChanged settled cs s t) : t.tally.ops = s.tally.ops := by rw [h.frame]
theorem queues (h : LinesChanged settled cs s t) : t.tally.postings = s.tally.postings ∧
    t.tally.modeReply = s.tally.modeReply ∧ t.tally.flushing = s.tally.flushing := by
  rw [h.frame]
  exact ⟨rfl, rfl, rfl⟩
theorem prin (h : LinesChanged settled cs s t) (id : Nat) : t.prin id = s.prin id := by
  simp only [State.prin, h.principals]

theorem current (h : LinesChanged settled cs s t) {c : TallyChange} (hc : c ∈ cs) :
    t.current c.id = (c.used, c.reserved) := by
  obtain ⟨x, y, -, hy, hf, -, hu, hr⟩ := h.changed c hc
  rw [current_of_line hy hf, hu, hr]

/-- No other tally changes. -/
theorem current_kept (h : LinesChanged settled cs s t) {id : Nat} (hid : id ∉ cs.map TallyChange.id) :
    t.current id = s.current id := by
  obtain ⟨ws, hws, hw⟩ := h.begun
  refine current_of_line_eq (h.kept id hid) h.castout ?_
  have hnone : ws.filter (fun w => w.id == id) = [] := by
    refine List.filter_eq_nil_iff.mpr fun w hm he => hid ?_
    rw [← beq_iff_eq.mp he]
    exact (hw w hm).1
  simp only [State.stored, hws, List.filter_append, hnone, List.append_nil, h.prin]

/-- Where no person is settled, no flag changes. -/
theorem isUnsettled (h : LinesChanged none cs s t) (id : Nat) : t.isUnsettled id = s.isUnsettled id := by
  obtain ⟨ws, hws, hw⟩ := h.begun
  have hany : ws.any (fun w => w.id == id && w.settles) = false := by
    refine List.any_eq_false.mpr fun w hm => ?_
    simp [(hw w hm).2]
  simp only [State.isUnsettled, hws, List.any_append, hany, Bool.or_false, h.prin]

end LinesChanged

end Sys2Proof.Machine
end

section
/-! SUPPORT. An operation of the Tally Unit applied (R3, R11, R30), and a Tally Unit whose operations wait. -/

namespace Sys2Proof.Machine

/-! ### The stages of an application -/

/-- The ids that an operation puts in the in-progress note (R13). -/
def notedOf (ws : List Nat) : List Nat := if 1 < ws.length then ws else []

/-- An operation whose changes stand, awaiting its in-place writes. -/
def TallyOp.written (o : TallyOp) (ws : List Nat) : TallyOp :=
  { o with stage := .writing, writes := ws, noted := notedOf ws }

/-- The changes of an operation stand, with its notices and its records. -/
def State.opStands (s : State) (o : TallyOp) : State :=
  ((s.jobNotices o.job).jobRecords o.job).applyChanges o.num o.job.settled (s.changesOf o)

/-- The in-place writes that an operation begins. -/
def State.opWrites (s : State) (o : TallyOp) : List Nat :=
  ((s.opStands o).tally.writes.drop s.tally.writes.length).map PendingWrite.id

/-- The note written, and grace evaluated (R13, R36). -/
def State.opGraced (s : State) (o : TallyOp) : State :=
  State.evalGraceAll
    { s.opStands o with tally.note := (s.opStands o).tally.note ++ notedOf (s.opWrites o) } (s.graceIds o)

/-- The recounts that an operation begins have begun, and its lines are released (R9, R19). -/
def State.opReleased (s : State) (o : TallyOp) : State :=
  (((s.recountIds o.job).foldl State.beginRecount (s.opGraced o)).modOp o.num fun x => x.written (s.opWrites o)).releaseLines
    o.num o.ids

theorem applyOp_eq {s : State} {o : TallyOp} (h : s.op o.num = some o) :
    s.applyOp o.num = ((s.opReleased o).jobApplied o).completeOp o.num := by
  unfold State.applyOp
  rw [h]
  rfl

theorem op_single {s : State} {o : TallyOp} (h : s.tally.ops = [o]) : s.op o.num = some o := by
  simp [State.op, h]

theorem modOp_single {s : State} {o : TallyOp} (h : s.tally.ops = [o]) (f : TallyOp → TallyOp) :
    (s.modOp o.num f).tally.ops = [f o] := by
  simp [State.modOp, mapIf, h]

theorem dropOp_single {s : State} {o : TallyOp} (h : s.tally.ops = [o]) : (s.dropOp o.num).tally.ops = [] := by
  simp [State.dropOp, h]

/-! ### What the last stages keep -/

theorem beginRecount_eq (s : State) (pool : Nat) :
    s.beginRecount pool = { s with tally.recounts := (s.beginRecount pool).tally.recounts } := by
  unfold State.beginRecount
  split
  · rfl
  · split <;> rfl

theorem beginRecounts_eq (s : State) (ids : List Nat) :
    ids.foldl State.beginRecount s =
      { s with tally.recounts := (ids.foldl State.beginRecount s).tally.recounts } := by
  induction ids generalizing s with
  | nil => rfl
  | cons id ids ih => rw [List.foldl_cons, ih, beginRecount_eq]

theorem line_releaseLines (s : State) (num : Nat) (ids : List Nat) (id : Nat) :
    (s.releaseLines num ids).line id = (s.line id).map fun x =>
      if decide (x.held = some num) && ids.contains x.id then { x with held := none } else x :=
  find_mapIf _ (fun x => { x with held := none }) (fun _ => rfl) id

theorem current_releaseLines (s : State) (num : Nat) (ids : List Nat) (id : Nat) :
    (s.releaseLines num ids).current id = s.current id := by
  have h2 : (s.releaseLines num ids).stored id = s.stored id := rfl
  have h3 : (s.releaseLines num ids).castoutOf id = s.castoutOf id := rfl
  simp only [State.current, line_releaseLines, h2, h3]
  cases s.line id with
  | none => rfl
  | some x =>
    simp only [Option.map_some]
    split <;> rfl

theorem opGraced_graceOnly (s : State) (o : TallyOp) :
    GraceOnly { s.opStands o with tally.note := (s.opStands o).tally.note ++ notedOf (s.opWrites o) } (s.opGraced o) :=
  graceOnly_evalGraceAll _ _

theorem opReleased_current (s : State) (o : TallyOp) (id : Nat) :
    (s.opReleased o).current id = (s.opStands o).current id := by
  have hrec : ((s.recountIds o.job).foldl State.beginRecount (s.opGraced o)).current id = (s.opGraced o).current id := by
    rw [beginRecounts_eq]
    exact current_congr rfl rfl rfl (fun _ => rfl) id
  have hgrace := (opGraced_graceOnly s o).current id
  have hnote : State.current
      { s.opStands o with tally.note := (s.opStands o).tally.note ++ notedOf (s.opWrites o) } id =
      (s.opStands o).current id := current_congr rfl rfl rfl (fun _ => rfl) id
  exact (current_releaseLines _ _ _ _).trans (hrec.trans (hgrace.trans hnote))

theorem opReleased_prin (s : State) (o : TallyOp) (id : Nat) : (s.opReleased o).prin id = (s.opGraced o).prin id := by
  unfold State.opReleased
  rw [beginRecounts_eq]
  rfl

theorem opReleased_isUnsettled (s : State) (o : TallyOp) (id : Nat) :
    (s.opReleased o).isUnsettled id = (s.opStands o).isUnsettled id := by
  have hwrites : (s.opReleased o).tally.writes = (s.opGraced o).tally.writes := by
    unfold State.opReleased
    rw [beginRecounts_eq]
    rfl
  have hun : (s.opReleased o).isUnsettled id = (s.opGraced o).isUnsettled id := by
    unfold State.isUnsettled
    rw [opReleased_prin, hwrites]
  exact hun.trans ((opGraced_graceOnly s o).isUnsettled id)

theorem opReleased_others (s : State) (o : TallyOp) : (s.opReleased o).others = (s.opStands o).others := by
  have hgrace := (opGraced_graceOnly s o).others
  unfold State.opReleased
  rw [beginRecounts_eq]
  exact hgrace

theorem opReleased_sup (s : State) (o : TallyOp) :
    supKept (s.opStands o).sup (s.opReleased o).sup ∧
      ∀ i, i ≠ 0 → (s.opReleased o).sup.raised[i]? = (s.opStands o).sup.raised[i]? := by
  have hgrace := opGraced_graceOnly s o
  unfold State.opReleased
  rw [beginRecounts_eq]
  exact ⟨hgrace.sup, hgrace.raised⟩

theorem opReleased_queues (s : State) (o : TallyOp) :
    (s.opReleased o).tally.postings = (s.opStands o).tally.postings ∧
      (s.opReleased o).tally.modeReply = (s.opStands o).tally.modeReply ∧
      (s.opReleased o).tally.flushing = (s.opStands o).tally.flushing ∧
      (s.opReleased o).tally.castout = (s.opStands o).tally.castout ∧
      (s.opReleased o).tally.writes = (s.opStands o).tally.writes := by
  have hgrace := opGraced_graceOnly s o
  unfold State.opReleased
  rw [beginRecounts_eq]
  exact ⟨hgrace.postings, hgrace.modeReply, hgrace.flushing, hgrace.castout, hgrace.writes⟩

theorem opReleased_ops {s : State} {o x : TallyOp} (h : (s.opStands o).tally.ops = [x]) (hx : x.num = o.num) :
    (s.opReleased o).tally.ops = [x.written (s.opWrites o)] := by
  have hgrace := (opGraced_graceOnly s o).ops
  unfold State.opReleased
  rw [beginRecounts_eq]
  have hops : (s.opGraced o).tally.ops = [x] := hgrace.trans h
  rw [← hx]
  exact modOp_single (s := { s.opGraced o with
    tally.recounts := ((s.recountIds o.job).foldl State.beginRecount (s.opGraced o)).tally.recounts }) hops _

/-! ### Operations that change tallies alone -/

/-- A job that changes no record and begins no recount. -/
def Job.plain : Job → Bool
  | .settle _ _ _ _ => false
  | .edit _ _ _ _ => false
  | .delete _ _ _ => false
  | _ => true

theorem jobNotices_tally (s : State) (j : Job) : (s.jobNotices j).tally = s.tally := by
  have hunder (p b : Nat) (l : Link) : (s.underflow p b l).tally = s.tally := by
    unfold State.underflow
    split
    · exact raise_tally _ _
    · rfl
  unfold State.jobNotices
  split
  · exact hunder _ _ _
  · exact hunder _ _ _
  · split
    · exact hunder _ _ _
    · rfl
  · rfl

theorem jobNotices_kept (s : State) (j : Job) : supKept s.sup (s.jobNotices j).sup ∧ (s.jobNotices j).others = s.others :=
  ⟨supKept_jobNotices j (supKept_refl _), othersKept_jobNotices j rfl⟩

theorem jobRecords_plain {j : Job} (h : j.plain = true) (s : State) : s.jobRecords j = s := by
  cases j with
  | settle | edit | delete => cases h
  | admitReq | reserve | posting | release | convert | unreserve => rfl

theorem settled_plain {j : Job} (h : j.plain = true) : j.settled = none := by
  cases j with
  | settle | edit | delete => cases h
  | admitReq | reserve | posting | release | convert | unreserve => rfl

/-- The changes of an operation over filled lines stand (R11). -/
theorem opStands_plain {s : State} {o : TallyOp} (hp : o.job.plain = true)
    (hn : ((s.changesOf o).map TallyChange.id).Nodup) (hf : s.linesFilled ((s.changesOf o).map TallyChange.id)) :
    LinesChanged none (s.changesOf o) (s.jobNotices o.job) (s.opStands o) := by
  unfold State.opStands
  rw [jobRecords_plain hp, settled_plain hp]
  refine linesChanged_applyChanges o.num none hn fun id hid => ?_
  simp only [State.line, jobNotices_tally]
  exact hf id hid

/-- What an operation that changes tallies alone makes of a state: the tallies it names take their new values, and
all else of a tally, its flags and the other blocks stand. -/
structure PlainApplied (s : State) (o : TallyOp) (t : State) : Prop where
  changed : ∀ c ∈ s.changesOf o, t.current c.id = (c.used, c.reserved)
  kept : ∀ id, id ∉ (s.changesOf o).map TallyChange.id → t.current id = s.current id
  prins : ∀ id, (t.prin id).map Principal.ungraced = (s.prin id).map Principal.ungraced
  unsettled : ∀ id, t.isUnsettled id = s.isUnsettled id
  queues : t.tally.postings = s.tally.postings ∧ t.tally.modeReply = s.tally.modeReply ∧
    t.tally.flushing = s.tally.flushing
  others : t.others = s.others
  sup : supKept s.sup t.sup
  raised : ∀ i, i ≠ 0 → t.sup.raised[i]? = (s.jobNotices o.job).sup.raised[i]?

theorem plainApplied_opReleased {s : State} {o : TallyOp} (hp : o.job.plain = true)
    (hn : ((s.changesOf o).map TallyChange.id).Nodup) (hf : s.linesFilled ((s.changesOf o).map TallyChange.id)) :
    PlainApplied s o (s.opReleased o) := by
  have h := opStands_plain hp hn hf
  obtain ⟨hsup, hothers⟩ := jobNotices_kept s o.job
  obtain ⟨gsup, graised⟩ := opReleased_sup s o
  obtain ⟨hpost, hmode, hflush, -, -⟩ := opReleased_queues s o
  have htally := jobNotices_tally s o.job
  have hprin (id : Nat) : (s.opStands o).prin id = s.prin id := by
    rw [h.prin]
    simp only [State.prin, htally]
  have hstands : (s.opStands o).sup = (s.jobNotices o.job).sup := by rw [h.frame]
  refine ⟨fun c hc => ?_, fun id hid => ?_, fun id => ?_, fun id => ?_, ⟨?_, ?_, ?_⟩, ?_, ?_, fun i hi => ?_⟩
  · rw [opReleased_current]
    exact h.current hc
  · rw [opReleased_current, h.current_kept hid]
    exact current_of_tally htally id
  · have hg := (opGraced_graceOnly s o).prins id
    rw [opReleased_prin, hg]
    exact congrArg (Option.map Principal.ungraced) (hprin id)
  · rw [opReleased_isUnsettled, h.isUnsettled]
    simp only [State.isUnsettled, State.prin, htally]
  · rw [hpost, h.queues.1, htally]
  · rw [hmode, h.queues.2.1, htally]
  · rw [hflush, h.queues.2.2, htally]
  · have hframe : (s.opStands o).others = (s.jobNotices o.job).others := by
      rw [h.frame]
      rfl
    rw [opReleased_others, hframe, hothers]
  · rw [hstands] at gsup
    exact hsup.trans gsup
  · rw [graised i hi, hstands]

/-- An operation alone in its list, of a job that changes tallies alone, awaits its writes. -/
theorem opReleased_plain_ops {s : State} {o : TallyOp} (hp : o.job.plain = true) (ho : s.tally.ops = [o])
    (hn : ((s.changesOf o).map TallyChange.id).Nodup) (hf : s.linesFilled ((s.changesOf o).map TallyChange.id)) :
    (s.opReleased o).tally.ops = [o.written (s.opWrites o)] := by
  refine opReleased_ops ?_ rfl
  rw [(opStands_plain hp hn hf).ops, jobNotices_tally, ho]

/-! ### Operations that wait -/

/-- No operation can go on by itself, no posting is to be taken, and nothing is flushed. -/
def State.tallyWaits (s : State) : Prop :=
  (∀ o ∈ s.tally.ops, o.stage ≠ .gathering ∧ (o.stage = .ready → o.job.runsAtOnce = false)) ∧ s.tally.postings = [] ∧
    s.tally.modeReply = [] ∧ s.tally.flushing = false

theorem advanceOp_waits {s : State} (num : Nat)
    (h : ∀ o ∈ s.tally.ops, o.stage ≠ .gathering ∧ (o.stage = .ready → o.job.runsAtOnce = false)) :
    s.advanceOp num = s := by
  have hgather : s.gather num = s := by
    unfold State.gather
    cases ho : s.op num with
    | none => rfl
    | some o => exact if_pos (h o (List.mem_of_find?_eq_some ho)).1
  unfold State.advanceOp
  rw [hgather]
  dsimp only
  cases ho : s.op num with
  | none => rfl
  | some o =>
    refine if_neg fun hr => ?_
    have := (h o (List.mem_of_find?_eq_some ho)).2 hr.1
    rw [this] at hr
    cases hr.2

theorem advanceOps_waits {s : State}
    (h : ∀ o ∈ s.tally.ops, o.stage ≠ .gathering ∧ (o.stage = .ready → o.job.runsAtOnce = false)) :
    s.advanceOps = s := by
  unfold State.advanceOps
  induction s.tally.ops.map TallyOp.num with
  | nil => rfl
  | cons n ns ih => rw [List.foldl_cons, advanceOp_waits n h, ih]

theorem iter_fixed {α : Type} {f : α → α} {x : α} (h : f x = x) (n : Nat) : iter n f x = x := by
  induction n with
  | zero => rfl
  | succ n ih => rw [iter, h, ih]

theorem castoutDirty_of_not_flushing {s : State} (h : s.tally.flushing = false) : s.castoutDirty = s := by
  unfold State.castoutDirty
  rw [h]
  exact if_neg Bool.false_ne_true

theorem endModeSwitch_none {s : State} (h : s.tally.modeReply = []) : s.endModeSwitch = s := by
  unfold State.endModeSwitch
  rw [h]

theorem takePosting_none {s : State} (h : s.tally.postings = []) : s.takePosting = s := by
  unfold State.takePosting
  rw [h]

theorem advance_waits {s : State} (h : s.tallyWaits) : s.advance = s := by
  obtain ⟨hops, hpost, hmode, hflush⟩ := h
  unfold State.advance
  split
  · rfl
  · dsimp only
    rw [castoutDirty_of_not_flushing hflush, takePosting_none hpost, iter_fixed (advanceOps_waits hops),
      castoutDirty_of_not_flushing hflush, endModeSwitch_none hmode]

theorem finish_waits {s : State} (h : s.tallyWaits) (hrun : s.sup.op ≠ .halted) : s.finish = s.settle := by
  unfold State.finish
  rw [if_neg hrun, advance_waits h]

theorem finish_waits_tally {s : State} (h : s.tallyWaits) : s.finish.tally = s.tally := by
  unfold State.finish
  split
  · rfl
  · rw [advance_waits h]
    exact tallyKept_settle rfl

theorem finish_waits_beside {s : State} (h : s.tallyWaits) (hp : s.patrolStill) (hrun : s.sup.op ≠ .halted) :
    s.finish.sup = s.sup ∧ s.finish.links = s.links := by
  rw [finish_waits h hrun, State.settle, settlePatrol_still hp]
  have hbeside := settleLink_beside s
  simp only [State.besideLink, Prod.mk.injEq] at hbeside
  exact ⟨hbeside.1, hbeside.2.1⟩

end Sys2Proof.Machine
end

section
/-! PROOF. Postings, conversions and reservation releases applied (R16, R33, R34, R96). -/

namespace Sys2Proof.Machine

/-- The step of a command that meets no double error, in a part that is not HALTED. -/
theorem act_withErrs_nil {s : State} (f : State → State) (h : s.sup.op ≠ .halted) :
    act (withErrs [] f) s = .next (f { s with sent := [] }) := by
  rw [act_running _ h]
  exact congrArg Host.Outcome.next (withErrs_nil (s := { s with sent := [] }) _ h)

/-! ### Operations over plain lines -/

theorem linesFilled_of_dirty {s : State} {ids : List Nat} (h : s.dirtyLines ids) : s.linesFilled ids := by
  intro id hid
  have hany := h id hid
  cases hx : s.line id with
  | none =>
    rw [hx] at hany
    cases hany
  | some x =>
    rw [hx, Option.any_some, Bool.and_eq_true] at hany
    exact ⟨x, rfl, by simpa using hany.1⟩

/-- Changes over dirty lines need no marker (R10). -/
theorem marksFor_dirty {s : State} {cs : List TallyChange} (settled : Option Nat)
    (h : s.dirtyLines (cs.map TallyChange.id)) : s.marksFor settled cs = [] := by
  unfold State.marksFor
  split
  · rfl
  · refine List.map_eq_nil_iff.mpr (List.filter_eq_nil_iff.mpr fun c hc => ?_)
    have hany := h c.id (List.mem_map_of_mem hc)
    cases hx : s.line c.id with
    | none =>
      rw [hx] at hany
      cases hany
    | some x =>
      rw [hx, Option.any_some, Bool.and_eq_true] at hany
      simp [hany.2]

/-- The changes of an operation name its principals. -/
theorem changesOf_ids {s : State} {o : TallyOp} (hp : o.job.plain = true)
    (hout : o.job.computes = true → o.outcome.isSome = true) : (s.changesOf o).map TallyChange.id = o.ids := by
  have hmap (f : Nat → TallyChange) (hf : ∀ id, (f id).id = id) : (o.ids.map f).map TallyChange.id = o.ids := by
    rw [List.map_map]
    exact (List.map_congr_left fun id _ => hf id).trans (List.map_id _)
  unfold State.changesOf
  split
  next hj =>
    obtain ⟨a, ha⟩ := Option.isSome_iff_exists.mp (hout (by rw [hj]; rfl))
    rw [ha]
    exact hmap _ fun _ => rfl
  next hj =>
    obtain ⟨a, ha⟩ := Option.isSome_iff_exists.mp (hout (by rw [hj]; rfl))
    rw [ha]
    exact hmap _ fun _ => rfl
  · exact hmap _ fun _ => rfl
  · exact hmap _ fun _ => rfl
  next hj =>
    rw [hj] at hp
    cases hp
  · exact hmap _ fun _ => rfl
  · exact hmap _ fun _ => rfl
  next hj =>
    rw [hj] at hp
    cases hp
  next hj =>
    rw [hj] at hp
    cases hp

theorem runOp_dirty {s : State} {o : TallyOp} (ho : s.op o.num = some o) (hp : o.job.plain = true)
    (hover : s.noneOverdue o.ids) (hd : s.dirtyLines ((s.changesOf o).map TallyChange.id)) :
    s.runOp o.num = s.applyOp o.num := by
  have hexp : s.lazyExpireAll (match o.job with
      | .edit _ _ id c => if editLimits c then (id :: o.ids).eraseDups else o.ids
      | _ => o.ids) = s := by
    cases hj : o.job with
    | edit =>
      rw [hj] at hp
      cases hp
    | _ => exact lazyExpireAll_none hover
  unfold State.runOp
  rw [ho]
  dsimp only
  refine (congrArg (fun u : State => if (u.marksFor o.job.settled (u.changesOf o)).isEmpty then u.applyOp o.num
    else u.modOp o.num fun o => { o with stage := .marking }) hexp).trans ?_
  rw [marksFor_dirty _ hd]
  rfl

/-- A job that ends without a reply. -/
def Job.silent : Job → Bool
  | .posting _ _ _ => true
  | .convert _ _ _ _ _ _ => true
  | .unreserve _ _ => true
  | .reserve _ _ => true
  | _ => false

/-- An operation without a reply leaves the list when it has no write left. -/
theorem completeOp_silent {s : State} {x : TallyOp} (hx : s.tally.ops = [x]) (hs : x.job.silent = true) :
    s.completeOp x.num = { s with tally.ops := if x.writes ≠ [] then [x] else [] } := by
  unfold State.completeOp
  rw [op_single hx]
  dsimp only
  by_cases hw : x.writes = []
  · rw [if_neg (fun h => h hw), if_neg (fun h => h hw)]
    have hdrop : s.dropOp x.num = { s with tally.ops := [] } := by
      rw [← dropOp_single hx]
      rfl
    cases hj : x.job with
    | posting | convert | unreserve | reserve => exact hdrop
    | admitReq | release | settle | edit | delete =>
      rw [hj] at hs
      cases hs
  · rw [if_pos hw, if_pos hw, ← hx]

/-- A silent operation over plain lines is applied at once. -/
theorem runOp_silent {s : State} {o : TallyOp} (ho : s.tally.ops = [o]) (hp : o.job.plain = true)
    (hs : o.job.silent = true) (hl : s.plainLines o.ids) (hids : (s.changesOf o).map TallyChange.id = o.ids)
    (happ : (((s.opReleased o).jobApplied o).tally.ops = [o.written (s.opWrites o)])) :
    s.runOp o.num = { (s.opReleased o).jobApplied o with
      tally := { ((s.opReleased o).jobApplied o).tally with
        ops := if s.opWrites o ≠ [] then [o.written (s.opWrites o)] else [] } } := by
  obtain ⟨-, hdirty, hover, -, -⟩ := hl
  rw [runOp_dirty (op_single ho) hp hover (by rw [hids]; exact hdirty), applyOp_eq (op_single ho)]
  exact completeOp_silent happ hs

theorem plainApplied_of_plainLines {s : State} {o : TallyOp} (hp : o.job.plain = true) (hl : s.plainLines o.ids)
    (hids : (s.changesOf o).map TallyChange.id = o.ids) : PlainApplied s o (s.opReleased o) := by
  obtain ⟨hnodup, hdirty, -⟩ := hl
  exact plainApplied_opReleased hp (by rw [hids]; exact hnodup) (by rw [hids]; exact linesFilled_of_dirty hdirty)

theorem opReleased_ops_plainLines {s : State} {o : TallyOp} (ho : s.tally.ops = [o]) (hp : o.job.plain = true)
    (hl : s.plainLines o.ids) (hids : (s.changesOf o).map TallyChange.id = o.ids) :
    (s.opReleased o).tally.ops = [o.written (s.opWrites o)] := by
  obtain ⟨hnodup, hdirty, -⟩ := hl
  exact opReleased_plain_ops hp ho (by rw [hids]; exact hnodup) (by rw [hids]; exact linesFilled_of_dirty hdirty)

/-- An operation that awaits its writes, or has left the list, goes on with nothing. -/
theorem tallyWaits_written {s : State} {o : TallyOp} {ws : List Nat}
    (hops : s.tally.ops = if ws ≠ [] then [o.written ws] else []) (hpost : s.tally.postings = [])
    (hmode : s.tally.modeReply = []) (hflush : s.tally.flushing = false) : s.tallyWaits := by
  refine ⟨fun x hx => ?_, hpost, hmode, hflush⟩
  rw [hops] at hx
  split at hx
  · obtain rfl := List.mem_singleton.mp hx
    exact ⟨fun h => (nomatch h), fun h => (nomatch h)⟩
  · cases hx

/-! ### Postings -/

section
variable {s : State} {o : TallyOp} {x : Posting}

/-- The head posting applied: its entry leaves the queue (R16). -/
def State.posted (s : State) (o : TallyOp) : State :=
  { s.opReleased o with
    tally := { (s.opReleased o).tally with
      postings := (s.opReleased o).tally.postings.drop 1
      ops := if s.opWrites o ≠ [] then [o.written (s.opWrites o)] else [] } }

theorem exec_postingApply (hrun : s.sup.op ≠ .halted) (ho : s.tally.ops = [o]) (hst : o.stage = .ready) {p b : Nat}
    {l : Link} (hj : o.job = .posting p b l) (hl : s.plainLines o.ids) :
    Machine.exec .postingApply s = .next (State.finish (State.posted { s with sent := [] } o)) := by
  refine (act_withErrs_nil _ hrun).trans (congrArg Host.Outcome.next ?_)
  let v : State := { s with sent := [] }
  have hov : v.tally.ops = [o] := ho
  have hpost : v.postingOp = some o.num := by
    simp only [State.postingOp, hov, List.find?_cons, hst, hj]
    rfl
  have hready : v.isReady o.num (fun _ => true) = true := by
    simp only [State.isReady, op_single hov, hst]
    rfl
  have hp : o.job.plain = true := by rw [hj]; rfl
  have hids : (v.changesOf o).map TallyChange.id = o.ids := changesOf_ids hp (by rw [hj]; exact fun h => nomatch h)
  have happ : (v.opReleased o).jobApplied o =
      { v.opReleased o with tally.postings := (v.opReleased o).tally.postings.drop 1 } := by
    unfold State.jobApplied
    rw [hj]
  have hops := opReleased_ops_plainLines hov hp hl hids
  have hsil : o.job.silent = true := by rw [hj]; rfl
  have hdone := runOp_silent hov hp hsil hl hids (by rw [happ]; exact hops)
  change (match v.postingOp with
    | some n => if v.isReady n (fun _ => true) then (v.runOp n).finish else v
    | none => v) = _
  rw [hpost]
  dsimp only
  rw [hready, if_pos rfl, hdone, happ]
  rfl

theorem posted_spec (hl : s.plainLines o.ids) (hx : s.tally.postings = [x])
    (hmode : s.tally.modeReply = []) (hflush : s.tally.flushing = false) {p b : Nat} {l : Link}
    (hj : o.job = .posting p b l) :
    (s.posted o).tallyWaits ∧ (s.posted o).tally.postings = [] ∧
      (∀ id ∈ o.ids, (s.posted o).current id = ((s.current id).1 - min b (s.current p).1, (s.current id).2)) ∧
      (∀ id, id ∉ o.ids → (s.posted o).current id = s.current id) ∧
      supKept s.sup (s.posted o).sup ∧ (s.posted o).others = s.others ∧
      (s.posted o).sup.raised[1]? = (s.underflow p b l).sup.raised[1]? := by
  have hp : o.job.plain = true := by rw [hj]; rfl
  have hids : (s.changesOf o).map TallyChange.id = o.ids := changesOf_ids hp (by rw [hj]; exact fun h => nomatch h)
  have happ := plainApplied_of_plainLines hp hl hids
  obtain ⟨qpost, qmode, qflush⟩ := happ.queues
  have hpost : (s.posted o).tally.postings = [] := by
    change (s.opReleased o).tally.postings.drop 1 = []
    rw [qpost, hx]
    rfl
  have hcur (id : Nat) : (s.posted o).current id = (s.opReleased o).current id :=
    current_congr rfl rfl rfl (fun _ => rfl) id
  have hchanges : s.changesOf o = s.releasing o.ids (s.removable p b) := by
    unfold State.changesOf
    rw [hj]
  refine ⟨tallyWaits_written rfl hpost (qmode.trans hmode) (qflush.trans hflush), hpost, fun id hid => ?_,
    fun id hid => ?_, happ.sup, happ.others, ?_⟩
  · rw [hcur]
    have hmem : { id := id, used := (s.current id).1 - s.removable p b, reserved := (s.current id).2 } ∈
        s.changesOf o := by
      rw [hchanges]
      exact List.mem_map_of_mem hid
    exact happ.changed _ hmem
  · rw [hcur]
    exact happ.kept id (by rw [hids]; exact hid)
  · refine (happ.raised 1 (by decide)).trans ?_
    rw [hj]
    rfl

/-- TALLY_UNDERFLOW is counted where a Release exceeds the person's used (R16). -/
theorem underflow_raised (s : State) (p b : Nat) (l : Link) :
    ((s.current p).1 < b → (s.underflow p b l).sup.raised[1]? = (s.sup.raised[1]?).map countUp) ∧
      (b ≤ (s.current p).1 → (s.underflow p b l).sup.raised[1]? = s.sup.raised[1]?) := by
  unfold State.underflow
  constructor
  · intro h
    rw [if_pos h, raise_raised, getElem?_modAt]
    rfl
  · intro h
    rw [if_neg (Nat.not_lt.mpr h)]

end

/-! ### Conversions and reservation releases -/

section
variable {s : State} {o : TallyOp}

/-- A conversion or a reservation release applied (R33, R34). -/
def State.reservationMoved (s : State) (o : TallyOp) : State :=
  { (s.opReleased o).jobApplied o with
    tally := { ((s.opReleased o).jobApplied o).tally with
      ops := if s.opWrites o ≠ [] then [o.written (s.opWrites o)] else [] } }

theorem modAt_eq_set {α : Type} {xs : List α} {i : Nat} {x : α} (f : α → α) (h : xs[i]? = some x) :
    modAt xs i f = xs.set i (f x) := by
  induction xs generalizing i with
  | nil => rfl
  | cons y ys ih =>
    cases i with
    | zero =>
      simp only [List.getElem?_cons_zero, Option.some.injEq] at h
      rw [h]
      rfl
    | succ i =>
      simp only [List.getElem?_cons_succ] at h
      exact congrArg (List.cons y) (ih h)

/-- The end of a step of a restore that goes on: its record has the step DONE and its charge spent (R96). -/
theorem stepConverted_running {rec i j : Nat} {r : Restore} {x y : Step} (hr : s.restore rec = some r)
    (hrun : r.state = .running) (hpause : r.pausing = false) (hx : r.steps[i]? = some x)
    (hst : x.state = .issued ∨ x.state = .putting) (hy : r.steps[j]? = some y) (hj : j ≠ i) (hw : y.state = .waiting) :
    (s.stepConverted rec i).tally = s.tally ∧ (s.stepConverted rec i).sup = s.sup ∧
      (s.stepConverted rec i).restore rec = some { r with
        steps := r.steps.set i { x with state := .done }, remaining := r.remaining - x.charge.toNat } ∧
      ∀ k, k ≠ rec → (s.stepConverted rec i).restore k = s.restore k := by
  have hended : r.stepEnded i = false := by
    unfold Restore.stepEnded
    rw [hx]
    rcases hst with h | h <;> simp [Step.ended, h]
  let r' : Restore := { r with
    steps := r.steps.set i { x with state := .done }, remaining := r.remaining - x.charge.toNat }
  let u : State := (s.modStep rec i fun t => { t with state := .done }).modRestore rec fun q =>
    { q with remaining := q.remaining - r.positives [i] }
  have hu : u.restore rec = some r' := by
    have hpos : r.positives [i] = x.charge.toNat := by simp [Restore.positives, hx, Step.positive]
    rw [State.restore_modRestore, State.modStep, State.restore_modRestore, hr, hpos]
    simp only [Option.map_some, modAt_eq_set _ hx, r']
  have hunlock : (u.unlockStep rec i).rst = u.rst ∧ (u.unlockStep rec i).tally = u.tally ∧
      (u.unlockStep rec i).sup = u.sup := by
    unfold State.unlockStep
    rw [hu]
    dsimp only
    unfold State.unlock
    split <;> exact ⟨rfl, rfl, rfl⟩
  obtain ⟨urst, utally, usup⟩ := hunlock
  have hrec (k : Nat) : (u.unlockStep rec i).restore k = u.restore k := by rw [State.restore, urst, State.restore]
  have hwait : r'.steps[j]? = some y := by
    rw [List.getElem?_set_ne hj.symm]
    exact hy
  have hall : ¬r'.steps.all (fun t => decide (t.state = .done) || decide (t.state = .skipped)) = true := by
    intro hall
    have := List.all_eq_true.mp hall y (List.mem_of_getElem? hwait)
    simp [hw] at this
  have hafter : (u.unlockStep rec i).afterStep rec = u.unlockStep rec i := by
    unfold State.afterStep
    rw [hrec, hu]
    dsimp only
    rw [show r'.state = .running from hrun]
    dsimp only
    rw [if_neg hall]
    exact if_neg fun h => Bool.false_ne_true (hpause.symm.trans h.1)
  have hconv : s.stepConverted rec i = u.unlockStep rec i := by
    unfold State.stepConverted
    rw [hr]
    dsimp only
    rw [hended]
    exact hafter
  rw [hconv]
  refine ⟨utally, usup, (hrec rec).trans hu, fun k hk => (hrec k).trans ?_⟩
  have hmod (t : State) (f : Restore → Restore) : (t.modRestore rec f).restore k = t.restore k :=
    tget_tmod_ne _ f (Ne.symm hk)
  rw [hmod, State.modStep, hmod]

theorem restore_of_others {s t : State} (h : t.others = s.others) (k : Nat) : t.restore k = s.restore k := by
  have hrst : t.rst = s.rst := congrArg (fun p => p.2.1) h
  rw [State.restore, hrst, State.restore]

/-- The step of an operation with a step of its own, over plain lines. -/
theorem ready_silent {ready : Job → Bool} (hrun : s.sup.op ≠ .halted) (ho : s.tally.ops = [o]) (hst : o.stage = .ready)
    (hr : ready o.job = true) (hp : o.job.plain = true) (hs : o.job.silent = true) (hl : s.plainLines o.ids)
    (hids : (s.changesOf o).map TallyChange.id = o.ids)
    (happ : ((State.opReleased { s with sent := [] } o).jobApplied o).tally.ops =
      (State.opReleased { s with sent := [] } o).tally.ops) :
    act (withErrs [] fun s => if s.isReady o.num ready then (s.runOp o.num).finish else s) s =
      .next (State.finish (State.reservationMoved { s with sent := [] } o)) := by
  refine (act_withErrs_nil _ hrun).trans (congrArg Host.Outcome.next ?_)
  let v : State := { s with sent := [] }
  have hov : v.tally.ops = [o] := ho
  have hready : v.isReady o.num ready = true := by
    simp only [State.isReady, op_single hov, hst, hr]
    rfl
  have hops := opReleased_ops_plainLines hov hp hl hids
  change (if v.isReady o.num ready then (v.runOp o.num).finish else v) = _
  rw [if_pos hready, runOp_silent hov hp hs hl hids (happ.trans hops)]
  rfl

/-- What a conversion or a reservation release makes of the tallies. -/
theorem reservationMoved_spec (hp : o.job.plain = true) (hl : s.plainLines o.ids)
    (hids : (s.changesOf o).map TallyChange.id = o.ids) (hpost : s.tally.postings = [])
    (hmode : s.tally.modeReply = []) (hflush : s.tally.flushing = false)
    (happ : ((s.opReleased o).jobApplied o).tally = (s.opReleased o).tally) :
    (s.reservationMoved o).tallyWaits ∧
      (∀ c ∈ s.changesOf o, (s.reservationMoved o).current c.id = (c.used, c.reserved)) ∧
      ∀ id, id ∉ o.ids → (s.reservationMoved o).current id = s.current id := by
  have happl := plainApplied_of_plainLines hp hl hids
  obtain ⟨qpost, qmode, qflush⟩ := happl.queues
  have hcur (id : Nat) : (s.reservationMoved o).current id = (s.opReleased o).current id := by
    refine Eq.trans ?_ (current_of_tally happ id)
    exact current_congr rfl rfl rfl (fun _ => rfl) id
  refine ⟨tallyWaits_written rfl ?_ ?_ ?_, fun c hc => (hcur _).trans (happl.changed c hc), fun id hid => ?_⟩
  · exact (congrArg Tally.postings happ).trans (qpost.trans hpost)
  · exact (congrArg Tally.modeReply happ).trans (qmode.trans hmode)
  · exact (congrArg Tally.flushing happ).trans (qflush.trans hflush)
  · exact (hcur id).trans (happl.kept id (by rw [hids]; exact hid))

end

end Sys2Proof.Machine

open Sys2Proof Sys2Proof.Machine

/-- Settles O22. -/
theorem postingLowersUsed : Obligations.PostingLowersUsed := by
  intro s o x hrun hpat ho hx hmode hflush hst hj hl hmem
  obtain ⟨hwaits, hpost, hchanged, hkept, hsup, hothers, hraised⟩ :=
    posted_spec (s := { s with sent := [] }) hl hx hmode hflush hj
  generalize hu : State.posted { s with sent := [] } o = u at *
  have hstill : u.patrolStill := by
    have hpat' : u.pat = s.pat := congrArg (fun p => p.2.2.2.2) hothers
    rw [State.patrolStill, hpat']
    exact hpat
  have hrun' : u.sup.op ≠ .halted := by
    rw [hsup.1]
    exact hrun
  obtain ⟨fsup, -⟩ := finish_waits_beside hwaits hstill hrun'
  have ftally := finish_waits_tally hwaits
  obtain ⟨hunder, hover⟩ := underflow_raised { s with sent := [] } x.principal x.blocks x.link
  refine ⟨u.finish, ?_, ?_, fun id hid => ?_, fun id hid => ?_, fun hlt => ?_, fun hle => ?_⟩
  · rw [exec_postingApply hrun ho hst hj hl, hu]
  · rw [ftally]
    exact hpost
  · rw [current_of_tally ftally]
    exact hchanged id hid
  · rw [current_of_tally ftally]
    exact hkept id hid
  · rw [fsup, hraised]
    exact hunder hlt
  · rw [fsup, hraised]
    exact hover hle

/-- Settles O23. -/
theorem reservationsAreConvertedAndReleased : Obligations.ReservationsAreConvertedAndReleased := by
  refine ⟨?_, ?_⟩
  · intro s o rec i person c j d l r x y hrun hto hst hj hl hperson hfit hr hrr hpause hx hxs hy hne hyw
    obtain ⟨ho, hpost, hmode, hflush⟩ := hto
    let v : State := { s with sent := [] }
    have hp : o.job.plain = true := by rw [hj]; rfl
    have hs : o.job.silent = true := by rw [hj]; rfl
    have hids : (v.changesOf o).map TallyChange.id = o.ids := changesOf_ids hp (by rw [hj]; exact fun h => nomatch h)
    have hothers := (plainApplied_of_plainLines (s := v) hp hl hids).others
    have happ : (v.opReleased o).jobApplied o = (v.opReleased o).stepConverted rec i := by
      unfold State.jobApplied
      rw [hj]
    have hrel (k : Nat) : (v.opReleased o).restore k = s.restore k := restore_of_others hothers k
    obtain ⟨ctally, -, crec, cother⟩ := stepConverted_running (s := v.opReleased o) ((hrel rec).trans hr) hrr hpause hx hxs hy hne hyw
    rw [← happ] at ctally crec cother
    obtain ⟨hwaits, hchanged, hkept⟩ := reservationMoved_spec (s := v) hp hl hids hpost hmode hflush ctally
    have ftally := finish_waits_tally hwaits
    have frst := finish_rst (v.reservationMoved o)
    have hrest (k : Nat) : (v.reservationMoved o).finish.restore k = ((v.opReleased o).jobApplied o).restore k := by
      rw [State.restore, frst]
      rfl
    refine ⟨(v.reservationMoved o).finish, ready_silent hrun ho hst (by rw [hj]; rfl) hp hs hl hids
      (congrArg Tally.ops ctally), fun id hid => ?_, fun id hid => ?_, ?_, fun k hk => ?_⟩
    · rw [current_of_tally ftally]
      refine hchanged { id := id, used := if 0 < d then (s.current id).1 + d.toNat
        else (s.current id).1 - min (-d).toNat (s.current person).1, reserved := (s.current id).2 - c } ?_
      have hout : (if 0 < d then fitTally ((s.current id).1 + d.toNat)
          else (s.current id).1 - (if d < 0 then v.removable person (-d).toNat else 0)) =
          if 0 < d then (s.current id).1 + d.toNat else (s.current id).1 - min (-d).toNat (s.current person).1 := by
        by_cases hd : 0 < d
        · rw [if_pos hd, if_pos hd]
          exact if_pos (hfit id hid)
        · rw [if_neg hd, if_neg hd]
          by_cases hneg : d < 0
          · rw [if_pos hneg]
            rfl
          · rw [if_neg hneg, Int.toNat_of_nonpos (by omega), Nat.zero_min]
      rw [← hout]
      unfold State.changesOf
      rw [hj]
      exact List.mem_map_of_mem hid
    · rw [current_of_tally ftally]
      exact hkept id hid
    · exact (hrest rec).trans crec
    · exact (hrest k).trans ((cother k hk).trans (hrel k))
  · intro s o person b hrun hto hst hj hl
    obtain ⟨ho, hpost, hmode, hflush⟩ := hto
    let v : State := { s with sent := [] }
    have hp : o.job.plain = true := by rw [hj]; rfl
    have hs : o.job.silent = true := by rw [hj]; rfl
    have hids : (v.changesOf o).map TallyChange.id = o.ids := changesOf_ids hp (by rw [hj]; exact fun h => nomatch h)
    have hothers := (plainApplied_of_plainLines (s := v) hp hl hids).others
    have happ : (v.opReleased o).jobApplied o = v.opReleased o := by
      unfold State.jobApplied
      rw [hj]
    obtain ⟨hwaits, hchanged, hkept⟩ :=
      reservationMoved_spec (s := v) hp hl hids hpost hmode hflush (congrArg State.tally happ)
    have ftally := finish_waits_tally hwaits
    refine ⟨(v.reservationMoved o).finish, ready_silent hrun ho hst (by rw [hj]; rfl) hp hs hl hids
      (congrArg (fun u : State => u.tally.ops) happ), fun id hid => ?_, fun id hid => ?_, ?_⟩
    · rw [current_of_tally ftally]
      refine hchanged { id := id, used := (s.current id).1, reserved := (s.current id).2 - b } ?_
      unfold State.changesOf
      rw [hj]
      exact List.mem_map_of_mem hid
    · rw [current_of_tally ftally]
      exact hkept id hid
    · rw [finish_rst]
      have hrst : ((v.opReleased o).jobApplied o).rst = (v.opReleased o).rst := congrArg State.rst happ
      exact hrst.trans (congrArg (fun p => p.2.1) hothers)
end

section
/-! PROOF. The Admission Calculator and the reply to an Admit (R26 to R31). -/

namespace Sys2Proof.Machine

/-! ### The stages of the calculator -/

theorem smallest_mem (s : State) {ids : List Nat} (h : ids ≠ []) :
    ∃ x ∈ ids, (s.smallest ids).1 = s.headroom x := by
  induction ids with
  | nil => exact absurd rfl h
  | cons x xs ih =>
    cases xs with
    | nil => exact ⟨x, List.mem_cons_self, rfl⟩
    | cons y ys =>
      obtain ⟨z, hz, hs⟩ := ih (List.cons_ne_nil y ys)
      rw [State.smallest]
      split
      · exact ⟨x, List.mem_cons_self, rfl⟩
      · exact ⟨z, List.mem_cons_of_mem _ hz, hs⟩

/-- The limiting member is the first of the smallest headroom (R28). -/
theorem smallest_of_first (s : State) (xs : List Nat) (m : Nat) (ys : List Nat)
    (hxs : ∀ x ∈ xs, s.headroom m < s.headroom x) (hys : ∀ y ∈ ys, s.headroom m ≤ s.headroom y) :
    s.smallest (xs ++ m :: ys) = (s.headroom m, m) := by
  induction xs with
  | nil =>
    cases ys with
    | nil => rfl
    | cons y ys =>
      obtain ⟨z, hz, hs⟩ := smallest_mem s (List.cons_ne_nil y ys)
      rw [List.nil_append, State.smallest]
      exact if_pos (hs ▸ hys z hz)
  | cons x xs ih =>
    have ih := ih fun z hz => hxs z (List.mem_cons_of_mem _ hz)
    have hx := hxs x List.mem_cons_self
    cases hrest : xs ++ m :: ys with
    | nil => simp at hrest
    | cons y zs =>
      rw [hrest] at ih
      rw [List.cons_append, hrest, State.smallest, ih]
      exact if_neg (Nat.not_le.mpr hx)

theorem firstFrozen_none {s : State} {ids : List Nat} (h : ∀ x ∈ ids, ∀ k, s.prin x = some k → k.frozen = false) :
    s.firstFrozen ids = none := by
  refine List.find?_eq_none.mpr fun x hx => ?_
  cases hp : s.prin x with
  | none => exact Bool.false_ne_true
  | some k => simp [h x hx k hp]

theorem firstFrozen_of_first {s : State} {xs ys : List Nat} {m : Nat} {k : Principal} (hm : s.prin m = some k)
    (hf : k.frozen = true) (hxs : ∀ x ∈ xs, ∀ k, s.prin x = some k → k.frozen = false) :
    s.firstFrozen (xs ++ m :: ys) = some m := by
  have hnone := firstFrozen_none hxs
  unfold State.firstFrozen at hnone ⊢
  rw [List.find?_append, hnone, Option.none_or, List.find?_cons_of_pos]
  rw [hm]
  exact hf

theorem admission_frozen {s : State} {ids : List Nat} {m : Nat} (n q : Nat) (part : Bool)
    (h : s.firstFrozen ids = some m) :
    s.admission ids n q part = { status := .frozen, granted := 0, headroom := 0, limiting := m } := by
  cases ids with
  | nil => cases h
  | cons x xs =>
    unfold State.admission
    rw [h]

theorem admission_free {s : State} {ids : List Nat} (n q : Nat) (part : Bool) (hne : ids ≠ [])
    (h : s.firstFrozen ids = none) :
    s.admission ids n q part =
      { status := (grantOf n q part (s.smallest ids).1).1, granted := (grantOf n q part (s.smallest ids).1).2
        headroom := (s.smallest ids).1, limiting := (s.smallest ids).2 } := by
  cases ids with
  | nil => exact absurd rfl hne
  | cons x xs =>
    unfold State.admission
    rw [h]

/-- Status and granted count (R29). -/
theorem grantOf_spec (n q : Nat) (part : Bool) (h : Nat) :
    (n ≤ h → grantOf n q part h = (.granted, n)) ∧
      (h < n → part = true → q ≤ h → 0 < q → grantOf n q part h = (.partialGrant, q * (h / q))) ∧
      (h < n → part = false ∨ h < q → grantOf n q part h = (.limit, 0)) := by
  refine ⟨fun hle => if_pos hle, fun hlt hpart hq hpos => ?_, fun hlt hno => ?_⟩
  · exact (if_neg (Nat.not_le.mpr hlt)).trans (if_pos ⟨hpart, Nat.mul_pos hpos (Nat.div_pos hq hpos)⟩)
  · refine (if_neg (Nat.not_le.mpr hlt)).trans (if_neg ?_)
    rintro ⟨hpart, hpos⟩
    rcases hno with hno | hno
    · rw [hno] at hpart
      cases hpart
    · rw [Nat.div_eq_of_lt hno, Nat.mul_zero] at hpos
      exact Nat.lt_irrefl 0 hpos

/-- Only GRANTED and PARTIAL grant anything. -/
theorem grantOf_granted {n q h : Nat} {part : Bool} :
    (grantOf n q part h).1 = .granted ∨ (grantOf n q part h).1 = .partialGrant ∨
      (grantOf n q part h).1 = .limit ∧ (grantOf n q part h).2 = 0 := by
  unfold grantOf
  split
  · exact .inl rfl
  · split
    · exact .inr (.inl rfl)
    · exact .inr (.inr ⟨rfl, rfl⟩)

/-! ### An Admit computed -/

/-- An Admit goes on when it has no write left (R31). -/
theorem completeOp_admit {s : State} {x : TallyOp} {l : Link} {r p n q : Nat} {part : Bool} (hx : s.tally.ops = [x])
    (hj : x.job = .admitReq l r p n q part) :
    s.completeOp x.num = { s with
      tally.ops := if x.writes ≠ [] then [x] else [{ x with stage := .finished }] } := by
  unfold State.completeOp
  rw [op_single hx]
  dsimp only
  by_cases hw : x.writes = []
  · have hmod := modOp_single hx fun o => { o with stage := .finished }
    rw [if_neg (fun h => h hw), if_neg (fun h => h hw), ← hmod, hj]
    rfl
  · rw [if_pos hw, if_pos hw, ← hx]

/-- An Admit over plain lines, with its outcome found, is applied at once and goes on. -/
theorem runOp_admit {s : State} {o : TallyOp} {l : Link} {r p n q : Nat} {part : Bool} (ho : s.tally.ops = [o])
    (hj : o.job = .admitReq l r p n q part) (hl : s.plainLines o.ids) (hout : o.outcome.isSome = true) :
    s.runOp o.num = { s.opReleased o with
      tally := { (s.opReleased o).tally with
        ops := if s.opWrites o ≠ [] then [o.written (s.opWrites o)]
          else [{ o.written (s.opWrites o) with stage := .finished }] } } := by
  have hp : o.job.plain = true := by rw [hj]; rfl
  have hids : (s.changesOf o).map TallyChange.id = o.ids := changesOf_ids hp fun _ => hout
  have hops := opReleased_ops_plainLines ho hp hl hids
  have happ : (s.opReleased o).jobApplied o = s.opReleased o := by
    unfold State.jobApplied
    rw [hj]
  obtain ⟨-, hdirty, hover, -, -⟩ := hl
  rw [runOp_dirty (op_single ho) hp hover (by rw [hids]; exact hdirty), applyOp_eq (op_single ho), happ]
  exact completeOp_admit hops hj

/-- An operation whose outcome is found. -/
def TallyOp.found (o : TallyOp) (a : Admission) : TallyOp := { o with outcome := some a }

/-- The outcome that the calculator finds for an Admit. -/
def State.outcomeOf (s : State) (o : TallyOp) (n q : Nat) (part : Bool) : Admission := s.admission o.ids n q part

section
variable {s : State} {o : TallyOp} {l : Link} {r p n q : Nat} {part : Bool}

theorem calculate_admit (ho : s.tally.ops = [o]) (hj : o.job = .admitReq l r p n q part) (hover : s.noneOverdue o.ids) :
    s.calculate o.num =
      if (s.outcomeOf o n q part).status = .granted ∨ (s.outcomeOf o n q part).status = .partialGrant then
        (s.modOp o.num fun o => o.found (s.outcomeOf o n q part)).runOp o.num
      else ((s.modOp o.num fun o => o.found (s.outcomeOf o n q part)).releaseLines o.num o.ids).completeOp o.num := by
  unfold State.calculate
  rw [op_single ho]
  dsimp only
  rw [lazyExpireAll_none hover, hj]
  have hmod (a : Admission) (f : TallyOp → TallyOp) (hf : f o = o.found a) :
      (s.modOp o.num fun o => { o with outcome := some a }) = s.modOp o.num f := by
    simp only [State.modOp, ho, mapIf, List.map_cons, List.map_nil, beq_self_eq_true, if_true, hf]
    rfl
  rw [hmod (s.admission o.ids n q part) (fun o => o.found (s.outcomeOf o n q part)) rfl]
  rfl

/-- A state in which an Admit stands with its outcome, all tallies of its chain holding what it was granted. -/
structure Admitted (s : State) (o : TallyOp) (a : Admission) (t : State) : Prop where
  ops : ∃ o', t.tally.ops = [o'] ∧ o'.job = o.job ∧ o'.outcome = some a ∧
    (o'.stage = .finished ∨ o'.stage = .writing ∧ o'.writes ≠ [] ∧ a.status ≠ .frozen)
  changed : ∀ id ∈ o.ids, t.current id = ((s.current id).1 + a.granted, (s.current id).2)
  kept : ∀ id, id ∉ o.ids → t.current id = s.current id
  queues : t.tally.postings = s.tally.postings ∧ t.tally.modeReply = s.tally.modeReply ∧
    t.tally.flushing = s.tally.flushing

/-- A granted Admit is applied (R30). -/
theorem admitted_granted (ho : s.tally.ops = [o]) (hj : o.job = .admitReq l r p n q part) (hl : s.plainLines o.ids)
    {a : Admission} (ha : a.status ≠ .frozen) : Admitted s o a ((s.modOp o.num fun o => o.found a).runOp o.num) := by
  let w := s.modOp o.num fun o => o.found a
  have hw : w.tally.ops = [o.found a] := modOp_single ho _
  have hp : (o.found a).job.plain = true := by
    change o.job.plain = true
    rw [hj]
    rfl
  have hids : (w.changesOf (o.found a)).map TallyChange.id = o.ids := changesOf_ids hp fun _ => rfl
  have happ := plainApplied_of_plainLines (s := w) (o := o.found a) hp hl hids
  have hrun := runOp_admit (s := w) (o := o.found a) hw hj hl rfl
  change Admitted s o a (w.runOp (o.found a).num)
  rw [hrun]
  have hcur (ops : List TallyOp) (id : Nat) :
      State.current { w.opReleased (o.found a) with
        tally := { (w.opReleased (o.found a)).tally with ops := ops } } id =
      (w.opReleased (o.found a)).current id := current_congr rfl rfl rfl (fun _ => rfl) id
  refine ⟨?_, fun id hid => ?_, fun id hid => ?_, happ.queues⟩
  · by_cases hws : w.opWrites (o.found a) = []
    · exact ⟨_, if_neg fun h => h hws, rfl, rfl, .inl rfl⟩
    · exact ⟨_, if_pos hws, rfl, rfl, .inr ⟨rfl, hws, ha⟩⟩
  · rw [hcur]
    refine happ.changed { id := id, used := (s.current id).1 + a.granted, reserved := (s.current id).2 } ?_
    have hchanges : w.changesOf (o.found a) = o.ids.map fun id =>
        { id := id, used := (w.current id).1 + a.granted, reserved := (w.current id).2 } := by
      have hjf : (o.found a).job = .admitReq l r p n q part := hj
      unfold State.changesOf
      rw [hjf]
      rfl
    rw [hchanges]
    exact List.mem_map_of_mem hid
  · rw [hcur]
    exact happ.kept id (by rw [hids]; exact hid)

/-- A refused Admit changes no tally. -/
theorem admitted_refused (ho : s.tally.ops = [o]) (hj : o.job = .admitReq l r p n q part) (hw : o.writes = [])
    {a : Admission} (ha : a.granted = 0) :
    Admitted s o a (((s.modOp o.num fun o => o.found a).releaseLines o.num o.ids).completeOp o.num) := by
  let w := (s.modOp o.num fun o => o.found a).releaseLines o.num o.ids
  have hops : w.tally.ops = [o.found a] := modOp_single ho _
  have hdone : w.completeOp (o.found a).num = { w with
      tally.ops := if (o.found a).writes ≠ [] then [o.found a] else [{ o.found a with stage := .finished }] } :=
    completeOp_admit hops hj
  change Admitted s o a (w.completeOp (o.found a).num)
  rw [hdone]
  have hcur (ops : List TallyOp) (id : Nat) :
      State.current { w with tally := { w.tally with ops := ops } } id = s.current id := by
    have h1 : State.current { w with tally := { w.tally with ops := ops } } id = w.current id :=
      current_congr rfl rfl rfl (fun _ => rfl) id
    have h2 : w.current id = (s.modOp o.num fun o => o.found a).current id := current_releaseLines _ _ _ _
    exact h1.trans (h2.trans (current_congr rfl rfl rfl (fun _ => rfl) id))
  refine ⟨⟨_, if_neg fun h => h hw, rfl, rfl, .inl rfl⟩, fun id _ => ?_, fun id _ => hcur _ id, rfl, rfl, rfl⟩
  rw [hcur, ha]
  rfl

theorem admitted_calculate (ho : s.tally.ops = [o]) (hj : o.job = .admitReq l r p n q part) (hw : o.writes = [])
    (hl : s.plainLines o.ids) (ha : (s.outcomeOf o n q part).status ≠ .granted →
      (s.outcomeOf o n q part).status ≠ .partialGrant → (s.outcomeOf o n q part).granted = 0) :
    Admitted s o (s.outcomeOf o n q part) (s.calculate o.num) := by
  rw [calculate_admit ho hj hl.2.2.1]
  have hmod : (s.modOp o.num fun x => x.found (s.outcomeOf x n q part)) =
      s.modOp o.num fun x => x.found (s.outcomeOf o n q part) := by
    simp only [State.modOp, ho, mapIf, List.map_cons, List.map_nil, beq_self_eq_true, if_true]
  rw [hmod]
  split
  next hyes =>
    refine admitted_granted ho hj hl fun hf => ?_
    rw [hf] at hyes
    exact hyes.elim (fun h => nomatch h) fun h => nomatch h
  next hno =>
    exact admitted_refused ho hj hw (ha (fun h => hno (.inl h)) fun h => hno (.inr h))

theorem Admitted.waits {a : Admission} {t : State} (h : Admitted s o a t) (hto : s.tallyOnly o) : t.tallyWaits := by
  obtain ⟨-, hpost, hmode, hflush⟩ := hto
  obtain ⟨o', hops, -, -, hst⟩ := h.ops
  obtain ⟨qpost, qmode, qflush⟩ := h.queues
  refine ⟨fun x hx => ?_, qpost.trans hpost, qmode.trans hmode, qflush.trans hflush⟩
  rw [hops] at hx
  obtain rfl := List.mem_singleton.mp hx
  rcases hst with hst | ⟨hst, -, -⟩ <;> rw [hst] <;> exact ⟨fun h => (nomatch h), fun h => (nomatch h)⟩

theorem exec_admissionCalculation (hrun : s.sup.op ≠ .halted) (ho : s.tally.ops = [o]) (hst : o.stage = .ready)
    (hj : o.job = .admitReq l r p n q part) :
    Machine.exec (.admissionCalculation o.num []) s =
      .next (State.finish (State.calculate { s with sent := [] } o.num)) := by
  refine (act_withErrs_nil _ hrun).trans (congrArg Host.Outcome.next (if_pos ?_))
  have hov : State.op { s with sent := [] } o.num = some o := op_single (s := { s with sent := [] }) ho
  simp only [State.isReady, hov, hst, hj]
  rfl

/-- An Admit computed over plain lines, at the end of its step. -/
theorem admitted_finish (hto : s.tallyOnly o) (hj : o.job = .admitReq l r p n q part) (hw : o.writes = [])
    (hl : s.plainLines o.ids) (ha : (s.outcomeOf o n q part).status ≠ .granted →
      (s.outcomeOf o n q part).status ≠ .partialGrant → (s.outcomeOf o n q part).granted = 0) :
    Admitted s o (s.outcomeOf o n q part) (s.calculate o.num).finish := by
  have h := admitted_calculate hto.1 hj hw hl ha
  have ftally := finish_waits_tally (h.waits hto)
  refine ⟨?_, fun id hid => ?_, fun id hid => ?_, ?_⟩
  · rw [ftally]
    exact h.ops
  · rw [current_of_tally ftally]
    exact h.changed id hid
  · rw [current_of_tally ftally]
    exact h.kept id hid
  · rw [ftally]
    exact h.queues

end

/-! ### The reply -/

/-- A request that its link awaits a reply to is replied to, and leaves the queue. -/
theorem replied_reply {s : State} {l : Link} {r : Nat} {e : ReqEntry} (st : Status) (b : ReplyBody)
    (h : s.awaits l r e) :
    Replied s (s.reply l r st b) l e st b ∧ ∀ x ∈ ((s.reply l r st b).link l).queue, x.num ≠ r := by
  obtain ⟨hup, hfind, hstale⟩ := h
  have hlink : (s.reply l r st b).link l =
      { (s.link l).reply r st b with idleFrom := s.sup.elapsed } := by
    simp [State.reply, State.restartIdle]
  have hreply : (s.link l).reply r st b = { s.link l with
      queue := (s.link l).queue.filter fun x => x.num != r
      tx := (s.link l).tx ++ [.reply e.tag e.kind st b] } := by
    unfold LinkRec.reply
    rw [hfind]
    simp [hup, hstale]
  rw [hlink, hreply]
  refine ⟨⟨[.reply e.tag e.kind st b], ?_, List.mem_singleton.mpr rfl⟩, fun x hx => ?_⟩
  · rw [hlink, hreply]
  · simpa using (List.mem_filter.mp hx).2

theorem Replied.finish {s u : State} {l : Link} {e : ReqEntry} {st : Status} {b : ReplyBody}
    (h : Replied s u l e st b) : Replied s u.finish l e st b := by
  obtain ⟨more, htx, hmem⟩ := h
  obtain ⟨x, hx⟩ := ((finish_settles u).2.1 l).2.2.1
  refine ⟨more ++ x, ?_, List.mem_append_left _ hmem⟩
  rw [← List.append_assoc, ← htx]
  exact hx.symm

end Sys2Proof.Machine

open Sys2Proof Sys2Proof.Machine

/-- Settles O20. -/
theorem admissionFollowsHeadroomAndIsAnswered : Obligations.AdmissionFollowsHeadroomAndIsAnswered := by
  refine ⟨⟨fun s id p hp => ?_, ?_, ?_⟩, ?_⟩
  · unfold State.headroom
    rw [hp]
    cases hg : p.grace <;> simp [effectiveLimit, State.admitLoad, Config.unsettledAllowance, hg]
  · intro s o l r p n q m part xs ys hrun hto hst hw hj hl hids hm hxs
    obtain ⟨k, hk, hf⟩ := hm
    let v : State := { s with sent := [] }
    have hout : v.outcomeOf o n q part = { status := .frozen, granted := 0, headroom := 0, limiting := m } := by
      refine admission_frozen n q part ?_
      rw [hids]
      exact firstFrozen_of_first hk hf hxs
    have hadm := admitted_finish (s := v) (o := o) hto hj hw hl (by rw [hout]; exact fun _ _ => rfl)
    rw [hout] at hadm
    obtain ⟨o', hops, hjob, hfound, hst'⟩ := hadm.ops
    refine ⟨_, o', exec_admissionCalculation hrun hto.1 hst hj, hops, ?_, hjob, hfound, fun id => ?_⟩
    · rcases hst' with h | ⟨-, -, h⟩
      · exact h
      · exact absurd rfl h
    · by_cases hid : id ∈ o.ids
      · exact hadm.changed id hid
      · exact hadm.kept id hid
  · intro s o l r p n q m part xs ys hrun hto hst hw hj hl hids hfree hxs hys
    let v : State := { s with sent := [] }
    have hsmall : v.smallest o.ids = (s.headroom m, m) := by
      rw [hids]
      exact smallest_of_first v xs m ys hxs hys
    have hout : v.outcomeOf o n q part =
        { status := (grantOf n q part (s.headroom m)).1, granted := (grantOf n q part (s.headroom m)).2
          headroom := s.headroom m, limiting := m } := by
      have h := admission_free (s := v) (ids := o.ids) n q part (by rw [hids]; simp) (firstFrozen_none hfree)
      rw [hsmall] at h
      exact h
    have hadm := admitted_finish (s := v) (o := o) hto hj hw hl (by
      rw [hout]
      intro h1 h2
      rcases grantOf_granted (n := n) (q := q) (h := s.headroom m) (part := part) with h | h | h
      · exact absurd h h1
      · exact absurd h h2
      · exact h.2)
    obtain ⟨o', hops, hjob, hfound, hst'⟩ := hadm.ops
    obtain ⟨hgrant, hpartial, hlimit⟩ := grantOf_spec n q part (s.headroom m)
    refine ⟨_, o', _, exec_admissionCalculation hrun hto.1 hst hj, hops, ?_, hjob, hfound, ?_, ?_, fun hle => ?_,
      fun hlt hpart hq hpos => ?_, fun hlt hno => ?_, hadm.changed, hadm.kept⟩
    · exact hst'.imp_right fun h => h.2.1
    · rw [hout]
    · rw [hout]
    · rw [hout, hgrant hle]
      exact ⟨rfl, rfl⟩
    · rw [hout, hpartial hlt hpart hq hpos]
      exact ⟨rfl, rfl⟩
    · rw [hout, hlimit hlt hno]
      exact ⟨rfl, rfl⟩
  · intro s o l r p n q part a e hrun hto hst hj hout hawait
    obtain ⟨ho, hpost, hmode, hflush⟩ := hto
    let v : State := { s with sent := [] }
    let w := v.dropOp o.num
    let u := w.reply l r a.status (.admitReq a.granted a.headroom a.limiting)
    obtain ⟨hrep, hq⟩ := replied_reply (s := w) a.status (.admitReq a.granted a.headroom a.limiting) hawait
    have hops : w.tally.ops = [] := dropOp_single (s := v) ho
    have htally : u.finish.tally = u.tally := finish_tally ⟨hops, hpost, hmode, hflush⟩
    obtain ⟨-, hlinks, hcat, hrst, -⟩ := finish_settles u
    refine ⟨u.finish, ?_, hrep.finish, fun x hx => hq x ((hlinks l).2.1.subset hx), ?_,
      supKept_finish_of (u := u) (supKept_refl _), hrst, hcat⟩
    · refine (act_withErrs_nil _ hrun).trans (congrArg Host.Outcome.next ?_)
      have hop : v.op o.num = some o := op_single (s := v) ho
      obtain ⟨num, job, stage, postings, ids, direct, outcome, writes, noted⟩ := o
      cases hj
      cases hst
      cases hout
      change (match v.op num with | none => v | some o' => _) = _
      rw [hop]
    · rw [htally]
      change { s.tally with ops := s.tally.ops.filter fun x => x.num != o.num } = { s.tally with ops := [] }
      rw [ho]
      simp
end

section
/-! SUPPORT. Gathering (R9, R25): what it leaves alone, and the lines that it keeps held. -/

namespace Sys2Proof.Machine

theorem find?_filter_of {α : Type} {p q : α → Bool} {xs : List α} (h : ∀ x ∈ xs, p x = true → q x = true) :
    (xs.filter q).find? p = xs.find? p := by
  induction xs with
  | nil => rfl
  | cons x xs ih =>
    have ih := ih fun y hy => h y (List.mem_cons_of_mem _ hy)
    by_cases hp : p x = true
    · rw [List.filter_cons_of_pos (h x List.mem_cons_self hp), List.find?_cons_of_pos hp, List.find?_cons_of_pos hp]
    · rw [List.find?_cons_of_neg hp]
      by_cases hq : q x = true
      · rw [List.filter_cons_of_pos hq, List.find?_cons_of_neg hp, ih]
      · rw [List.filter_cons_of_neg hq, ih]

/-! ### What gathering leaves alone -/

/-- From one state to another, lines, castout entries and operations alone differ, the operations in neither number
nor job. -/
structure GatherOnly (s t : State) : Prop where
  frame : t = { s with tally := { s.tally with
    cache := t.tally.cache, castout := t.tally.castout, ops := t.tally.ops } }
  ops : t.tally.ops.map (fun o => (o.num, o.job)) = s.tally.ops.map fun o => (o.num, o.job)

namespace GatherOnly
variable {s t u : State}

theorem refl (s : State) : GatherOnly s s := ⟨rfl, rfl⟩

theorem trans (h : GatherOnly s t) (k : GatherOnly t u) : GatherOnly s u := by
  refine ⟨?_, k.ops.trans h.ops⟩
  have hframe := k.frame
  rw [h.frame] at hframe
  exact hframe

theorem principals (h : GatherOnly s t) : t.tally.principals = s.tally.principals := by rw [h.frame]
theorem queues (h : GatherOnly s t) : t.tally.postings = s.tally.postings ∧ t.tally.modeReply = s.tally.modeReply ∧
    t.tally.flushing = s.tally.flushing := by
  rw [h.frame]
  exact ⟨rfl, rfl, rfl⟩
theorem links (h : GatherOnly s t) : t.links = s.links := by rw [h.frame]
theorem sup (h : GatherOnly s t) : t.sup = s.sup := by rw [h.frame]
theorem writes (h : GatherOnly s t) : t.tally.writes = s.tally.writes := by rw [h.frame]
theorem recounts (h : GatherOnly s t) : t.tally.recounts = s.tally.recounts := by rw [h.frame]
theorem others (h : GatherOnly s t) : t.others = s.others := by
  rw [h.frame]
  rfl
theorem prin (h : GatherOnly s t) (id : Nat) : t.prin id = s.prin id := by simp only [State.prin, h.principals]

/-- Each operation stands, under its number and with its job. -/
theorem mem (h : GatherOnly s t) {o : TallyOp} (ho : o ∈ t.tally.ops) :
    ∃ x ∈ s.tally.ops, x.num = o.num ∧ x.job = o.job := by
  have hm : (o.num, o.job) ∈ t.tally.ops.map fun o => (o.num, o.job) := List.mem_map_of_mem ho
  rw [h.ops] at hm
  obtain ⟨x, hx, he⟩ := List.mem_map.mp hm
  simp only [Prod.mk.injEq] at he
  exact ⟨x, hx, he⟩

theorem mem_of (h : GatherOnly s t) {o : TallyOp} (ho : o ∈ s.tally.ops) :
    ∃ x ∈ t.tally.ops, x.num = o.num ∧ x.job = o.job := by
  have hm : (o.num, o.job) ∈ s.tally.ops.map fun o => (o.num, o.job) := List.mem_map_of_mem ho
  rw [← h.ops] at hm
  obtain ⟨x, hx, he⟩ := List.mem_map.mp hm
  simp only [Prod.mk.injEq] at he
  exact ⟨x, hx, he⟩

end GatherOnly

theorem gatherOnly_modOp (s : State) (num : Nat) {f : TallyOp → TallyOp}
    (hf : ∀ o, (f o).num = o.num ∧ (f o).job = o.job) : GatherOnly s (s.modOp num f) := by
  refine ⟨rfl, ?_⟩
  simp only [State.modOp, mapIf, List.map_map]
  refine List.map_congr_left fun o _ => ?_
  simp only [Function.comp_apply]
  split
  · rw [(hf o).1, (hf o).2]
  · rfl

theorem gatherOnly_takeSet (s : State) (num : Nat) (group : List Nat) : GatherOnly s (s.takeSet num group) := by
  unfold State.takeSet
  dsimp only
  split <;> exact ⟨rfl, rfl⟩

theorem gatherOnly_takeNext (s : State) (num : Nat) : GatherOnly s (s.takeNext num) := by
  unfold State.takeNext
  split
  · exact GatherOnly.refl s
  · dsimp only
    split
    · exact GatherOnly.refl s
    · exact gatherOnly_takeSet s num _

theorem gatherOnly_takeNexts (n : Nat) (s : State) (num : Nat) :
    GatherOnly s (iter n (fun s => s.takeNext num) s) :=
  iter_keeps (P := GatherOnly s) (fun u hu => hu.trans (gatherOnly_takeNext u num)) n (GatherOnly.refl s)

/-- The principals for whose lines an operation is to gather (R25). -/
def State.gatherIds (s : State) (o : TallyOp) : List Nat := if o.ids.isEmpty then s.jobIds o.job else o.ids

/-- An operation with the principals that it gathers for, its lines taken as far as they can be (R9). -/
def State.tookLines (s : State) (num : Nat) (ids : List Nat) : State :=
  iter 5 (fun s => s.takeNext num) (s.modOp num fun o => { o with ids := ids, direct := beyondFour ids })

/-- An operation that has gathered all its lines is ready. -/
def State.readied (s : State) (num : Nat) : State :=
  match s.op num with
  | none => s
  | some o => if s.opGathered o then s.modOp num fun o => { o with stage := .ready } else s

theorem gather_eq {s : State} {num : Nat} {o : TallyOp} (h : s.op num = some o) (hst : o.stage = .gathering) :
    s.gather num =
      if s.opBlocked o (s.gatherIds o) then s else (s.tookLines num (s.gatherIds o)).readied num := by
  unfold State.gather
  rw [h]
  dsimp only
  rw [if_neg (fun hn => hn hst)]
  rfl

theorem gather_past {s : State} {num : Nat} (h : ∀ o, s.op num = some o → o.stage ≠ .gathering) :
    s.gather num = s := by
  unfold State.gather
  cases ho : s.op num with
  | none => rfl
  | some o => exact if_pos (h o ho)

theorem gatherOnly_readied (s : State) (num : Nat) : GatherOnly s (s.readied num) := by
  unfold State.readied
  split
  · exact GatherOnly.refl s
  · split
    · exact gatherOnly_modOp s num fun o => ⟨rfl, rfl⟩
    · exact GatherOnly.refl s

theorem gatherOnly_gather (s : State) (num : Nat) : GatherOnly s (s.gather num) := by
  by_cases h : ∃ o, s.op num = some o ∧ o.stage = .gathering
  · obtain ⟨o, ho, hst⟩ := h
    rw [gather_eq ho hst]
    split
    · exact GatherOnly.refl s
    · have htook := (gatherOnly_modOp s num (f := fun x =>
        { x with ids := s.gatherIds o, direct := beyondFour (s.gatherIds o) }) fun x => ⟨rfl, rfl⟩).trans
        (gatherOnly_takeNexts 5 _ num)
      exact htook.trans (gatherOnly_readied _ num)
  · rw [gather_past fun o ho hst => h ⟨o, ho, hst⟩]
    exact GatherOnly.refl s

/-- A job that waits for a step of its own is gathered for, and not run, as the Tally Unit goes on. -/
theorem advanceOp_gathers {s : State} (num : Nat) (h : ∀ o ∈ s.tally.ops, o.job.runsAtOnce = false) :
    s.advanceOp num = s.gather num := by
  unfold State.advanceOp
  dsimp only
  cases ho : (s.gather num).op num with
  | none => rfl
  | some o =>
    refine if_neg fun hr => ?_
    obtain ⟨x, hx, -, hj⟩ := (gatherOnly_gather s num).mem (List.mem_of_find?_eq_some ho)
    rw [← hj, h x hx] at hr
    cases hr.2

/-- What the operations keep as they go on, the Tally Unit keeps, where nothing is posted, switched or flushed. -/
theorem advance_keeps {P : State → Prop} {s : State}
    (hquiet : ∀ u, P u → u.tally.flushing = false ∧ u.tally.postings = [] ∧ u.tally.modeReply = [])
    (hop : ∀ u n, P u → P (u.advanceOp n)) (h : P s) : P s.advance := by
  have hops (u : State) (hu : P u) : P u.advanceOps := by
    unfold State.advanceOps
    induction u.tally.ops.map TallyOp.num generalizing u with
    | nil => exact hu
    | cons n ns ih => exact ih _ (hop u n hu)
  obtain ⟨hflush, hpost, -⟩ := hquiet s h
  unfold State.advance
  split
  · exact h
  · dsimp only
    rw [castoutDirty_of_not_flushing hflush, takePosting_none hpost]
    have hiter := iter_keeps (P := P) hops (s.tally.ops.length + 1) h
    obtain ⟨kflush, -, kmode⟩ := hquiet _ hiter
    rw [castoutDirty_of_not_flushing kflush, endModeSwitch_none kmode]
    exact hiter

/-! ### Lines that stay held -/

/-- The line of a principal, held by an operation, with no other line of the principal to be evicted. -/
def State.heldLine (s : State) (num id : Nat) (x : Line) : Prop :=
  s.line id = some x ∧ x.held = some num ∧ ∀ y ∈ s.tally.cache, y.id = id → y.held.isSome = true

/-- The principals of a group without a line. -/
def State.lineNeeds (s : State) (group : List Nat) : List Nat := group.filter fun i => (s.line i).isNone

/-- The lines that can be evicted for a group, the least recent first (R9). -/
def State.evictable (s : State) (group : List Nat) : List Line :=
  (s.tally.cache.filter fun x => setOf x.id == setOf (group.headD 0)).reverse.filter fun x =>
    x.held.isNone && !(group.contains x.id)

/-- The lines evicted for a group (R9). -/
def State.evicted (s : State) (group : List Nat) : List Line :=
  (s.evictable group).take ((s.lineNeeds group).length -
    (Config.cacheWays - (s.tally.cache.filter fun x => setOf x.id == setOf (group.headD 0)).length))

/-- A line taken for a principal without one: from its castout entry, or to be filled (R9, R12). -/
def State.newLine (s : State) (num i : Nat) : Line :=
  match s.castoutOf i with
  | some c =>
    { id := i, used := c.used, reserved := c.reserved, dUsed := c.dUsed, dReserved := c.dReserved, dirty := true
      held := some num, filling := false }
  | none =>
    { id := i, used := 0, reserved := 0, dUsed := 0, dReserved := 0, dirty := false, held := some num, filling := true }

theorem newLine_id (s : State) (num i : Nat) : (s.newLine num i).id = i := by
  unfold State.newLine
  split <;> rfl

/-- The lines of a group are taken, or none is (R9). -/
theorem takeSet_cache (s : State) (num : Nat) (group : List Nat) :
    (s.takeSet num group).tally.cache = s.tally.cache ∨
      (s.takeSet num group).tally.cache =
        (s.lineNeeds group).map (s.newLine num) ++
          mapIf (fun x => group.contains x.id) (fun x => { x with held := some num })
            (s.tally.cache.filter fun x => !((s.evicted group).any fun y => y.id == x.id)) := by
  unfold State.takeSet
  dsimp only
  split
  · exact .inl rfl
  · exact .inr rfl

theorem evicted_free {s : State} {group : List Nat} {y : Line} (h : y ∈ s.evicted group) :
    y ∈ s.tally.cache ∧ y.held.isNone = true := by
  have hcand := List.mem_filter.mp (List.mem_of_mem_take h)
  have hmem := (List.mem_filter.mp (List.mem_reverse.mp hcand.1)).1
  have hfree := hcand.2
  rw [Bool.and_eq_true] at hfree
  exact ⟨hmem, hfree.1⟩

theorem heldLine_takeSet {s : State} {num id : Nat} {x : Line} (group : List Nat) (h : s.heldLine num id x) :
    (s.takeSet num group).heldLine num id x := by
  obtain ⟨hline, hheld, hall⟩ := h
  rcases takeSet_cache s num group with hcache | hcache
  · refine ⟨?_, hheld, fun y hy => ?_⟩
    · rw [State.line, hcache]
      exact hline
    · rw [hcache] at hy
      exact hall y hy
  · have hnew : ((s.lineNeeds group).map (s.newLine num)).find? (fun y => y.id == id) = none := by
      refine List.find?_eq_none.mpr fun y hy => ?_
      obtain ⟨i, hi, rfl⟩ := List.mem_map.mp hy
      have hnone := (List.mem_filter.mp hi).2
      rw [newLine_id]
      intro he
      rw [beq_iff_eq.mp he, hline] at hnone
      cases hnone
    have hkept : (s.tally.cache.filter fun x => !((s.evicted group).any fun y => y.id == x.id)).find?
        (fun y => y.id == id) = some x := by
      refine (find?_filter_of fun y hy he => ?_).trans hline
      rw [Bool.not_eq_true', List.any_eq_false]
      intro z hz hid
      obtain ⟨hmem, hfree⟩ := evicted_free hz
      have := hall z hmem ((beq_iff_eq.mp hid).trans (beq_iff_eq.mp he))
      rw [Option.isNone_iff_eq_none.mp hfree] at this
      cases this
    refine ⟨?_, hheld, fun y hy hid => ?_⟩
    · rw [State.line, hcache, List.find?_append, hnew, Option.none_or,
        find_mapIf _ (fun x => { x with held := some num }) (fun _ => rfl), hkept, Option.map_some]
      split
      · rw [← hheld]
      · rfl
    · rw [hcache] at hy
      rcases List.mem_append.mp hy with hy | hy
      · obtain ⟨i, -, rfl⟩ := List.mem_map.mp hy
        unfold State.newLine
        split <;> rfl
      · obtain ⟨z, hz, rfl⟩ := List.mem_map.mp hy
        have hmem := List.mem_of_mem_filter hz
        split
        · rfl
        next hno =>
          rw [if_neg hno] at hid
          exact hall z hmem hid

theorem heldLine_congr {s t : State} (hc : t.tally.cache = s.tally.cache) {num id : Nat} {x : Line}
    (h : s.heldLine num id x) : t.heldLine num id x := by
  obtain ⟨hline, hheld, hall⟩ := h
  refine ⟨?_, hheld, ?_⟩
  · rw [State.line, hc]
    exact hline
  · rw [hc]
    exact hall

theorem heldLine_modOp {s : State} {num id : Nat} {x : Line} (n : Nat) (f : TallyOp → TallyOp)
    (h : s.heldLine num id x) : (s.modOp n f).heldLine num id x :=
  heldLine_congr (s := s) (t := s.modOp n f) rfl h

theorem heldLine_takeNext {s : State} {num id : Nat} {x : Line} (h : s.heldLine num id x) :
    (s.takeNext num).heldLine num id x := by
  unfold State.takeNext
  split
  · exact h
  · dsimp only
    split
    · exact h
    · exact heldLine_takeSet _ h

/-- A line that the operation itself holds stays as it gathers. -/
theorem heldLine_gather {s : State} {num id : Nat} {x : Line} (h : s.heldLine num id x) :
    (s.gather num).heldLine num id x := by
  by_cases hg : ∃ o, s.op num = some o ∧ o.stage = .gathering
  · obtain ⟨o, ho, hst⟩ := hg
    rw [gather_eq ho hst]
    split
    · exact h
    · have htook : (s.tookLines num (s.gatherIds o)).heldLine num id x :=
        iter_keeps (P := fun u => u.heldLine num id x) (fun u hu => heldLine_takeNext hu) 5 (heldLine_modOp _ _ h)
      unfold State.readied
      split
      · exact htook
      · split
        · exact heldLine_modOp _ _ htook
        · exact htook
  · rw [gather_past fun o ho hst => hg ⟨o, ho, hst⟩]
    exact h

end Sys2Proof.Machine
end

section
/-! PROOF. Reads and writes of tallies that end (R9 to R12, R18). -/

namespace Sys2Proof.Machine

/-! ### Fill reads -/

section
variable {s : State} {id : Nat} {x : Line} {p : Principal} {o : TallyOp}

/-- A line filled with the stored tally of its principal, clean (R9). -/
def Line.filled (x : Line) (p : Principal) : Line :=
  { x with used := p.used, reserved := p.reserved, dUsed := 0, dReserved := 0, dirty := false, filling := false }

theorem exec_tallyFillReadEnd (hrun : s.sup.op ≠ .halted) (hx : s.line id = some x) (hf : x.filling = true)
    (hp : s.prin id = some p) (hw : ∀ w ∈ s.tally.writes, w.id ≠ id) :
    Machine.exec (.tallyFillReadEnd id []) s =
      .next (State.finish (State.putLine { s with sent := [] } (x.filled p))) := by
  refine (act_withErrs_nil _ hrun).trans (congrArg Host.Outcome.next ?_)
  let v : State := { s with sent := [] }
  have hstored : v.stored id = (p.used, p.reserved) := by
    have hnone : s.tally.writes.filter (fun w => w.id == id) = [] :=
      List.filter_eq_nil_iff.mpr fun w hm he => hw w hm (beq_iff_eq.mp he)
    have hpv : v.prin id = some p := hp
    simp only [State.stored, hpv, v, hnone]
    rfl
  have hline : v.line id = some x := hx
  have hprin : v.prin id = some p := hp
  change (match v.line id, v.prin id with
    | some x, some _ => if x.filling then (v.putLine { x with
        used := (v.stored id).1, reserved := (v.stored id).2, dUsed := 0, dReserved := 0, dirty := false
        filling := false }).finish else v
    | _, _ => v) = _
  rw [hline, hprin]
  dsimp only
  rw [if_pos hf, hstored]
  rfl

/-- A line just written stands alone for its principal. -/
theorem heldLine_putLine (s : State) {x : Line} {num : Nat} (hh : x.held = some num) :
    (s.putLine x).heldLine num x.id x := by
  refine ⟨line_putLine_self x, hh, fun y hy hid => ?_⟩
  rcases List.mem_cons.mp hy with rfl | hy
  · rw [hh]
    rfl
  · have := (List.mem_filter.mp hy).2
    simp [hid] at this

/-- As operations that wait for steps of their own gather, a line that the one of them holds stays, and so do the
records. -/
theorem advance_heldLine {u : State} {num : Nat} (hline : u.heldLine num id x) (ho : ∀ o ∈ u.tally.ops, o.num = num)
    (hj : ∀ o ∈ u.tally.ops, o.job.runsAtOnce = false) (hpost : u.tally.postings = []) (hmode : u.tally.modeReply = [])
    (hflush : u.tally.flushing = false) :
    u.advance.heldLine num id x ∧ u.advance.tally.principals = u.tally.principals := by
  have hkeep : u.advance.heldLine num id x ∧ GatherOnly u u.advance := by
    refine advance_keeps (P := fun w => w.heldLine num id x ∧ GatherOnly u w) ?_ ?_ ⟨hline, GatherOnly.refl u⟩
    · rintro w ⟨-, hg⟩
      obtain ⟨qpost, qmode, qflush⟩ := hg.queues
      exact ⟨qflush.trans hflush, qpost.trans hpost, qmode.trans hmode⟩
    · rintro w n ⟨hw, hg⟩
      have hwait : ∀ o ∈ w.tally.ops, o.job.runsAtOnce = false := fun o hm => by
        obtain ⟨y, hy, -, hyj⟩ := hg.mem hm
        rw [← hyj]
        exact hj y hy
      rw [advanceOp_gathers n hwait]
      refine ⟨?_, hg.trans (gatherOnly_gather w n)⟩
      by_cases hn : n = num
      · rw [hn]
        exact heldLine_gather hw
      · rw [gather_past fun o hop => absurd ?_ hn]
        · exact hw
        · obtain ⟨y, hy, hyn, -⟩ := hg.mem (List.mem_of_find?_eq_some hop)
          have hnum : o.num = n := by simpa using List.find?_some hop
          rw [← hnum, ← hyn]
          exact ho y hy
  exact ⟨hkeep.1, hkeep.2.principals⟩

end

/-! ### Castout entries -/

section
variable {s : State} {c : Castout} {rest : List Castout}

theorem exec_castoutDrain (hrun : s.sup.op ≠ .halted) (hc : s.tally.castout = c :: rest) :
    Machine.exec (.castoutDrain []) s =
      .next (State.finish (State.storeClean { s with sent := [] } c.id c.used c.reserved)) := by
  change act (fun s => withErrs [] (fun u =>
    (if u.tally.castout.head? = s.tally.castout.head? then u.drain else u).finish) s) s = _
  rw [act_running _ hrun]
  refine congrArg Host.Outcome.next ((withErrs_nil (s := { s with sent := [] }) _ hrun).trans ?_)
  rw [if_pos rfl]
  refine congrArg State.finish ?_
  unfold State.drain
  have hcv : State.tally { s with sent := [] } = s.tally := rfl
  rw [hcv, hc]

/-- The state in which the line and the castout entry of a principal have given way to its record. -/
def State.emptied (s : State) (id used reserved : Nat) : State :=
  { s with
    tally.cache := mapIf (fun x => x.id == id)
      (fun x => if x.filling then { x with dirty := false }
        else { x with used := used, reserved := reserved, dUsed := 0, dReserved := 0, dirty := false }) s.tally.cache
    tally.castout := s.tally.castout.filter fun c => c.id != id }

theorem storeClean_eq (s : State) (id used reserved : Nat) :
    s.storeClean id used reserved = (s.emptied id used reserved).storeTally id used reserved := rfl

theorem emptied_unwritten (s : State) (id used reserved : Nat) :
    (s.emptied id used reserved).unwritten id = false := by
  unfold State.unwritten
  rw [Bool.or_eq_false_iff]
  constructor
  · refine List.any_eq_false.mpr fun x hx => ?_
    obtain ⟨y, -, rfl⟩ := List.mem_map.mp hx
    dsimp only
    by_cases hy : (y.id == id) = true
    · rw [if_pos hy]
      cases y.filling <;> simp
    · rw [if_neg hy]
      simp [hy]
  · have hnone : (s.emptied id used reserved).castoutOf id = none := by
      refine List.find?_eq_none.mpr fun d hd => ?_
      have := (List.mem_filter.mp hd).2
      simpa using this
    rw [hnone]
    rfl

theorem storeClean_prin (s : State) (id used reserved : Nat) :
    (s.storeClean id used reserved).prin id =
      (s.prin id).map fun p => { p with used := used, reserved := reserved, marker := false } := by
  rw [storeClean_eq]
  unfold State.storeTally
  dsimp only
  rw [emptied_unwritten]
  refine (State.prin_modPrin (s.emptied id used reserved) id _).trans ?_
  simp only [Bool.and_false]
  rfl

theorem storeClean_prin_ne (s : State) {id k : Nat} (used reserved : Nat) (h : id ≠ k) :
    (s.storeClean id used reserved).prin k = s.prin k := by
  rw [storeClean_eq]
  exact State.prin_modPrin_ne (s.emptied id used reserved) _ h

theorem emptied_line (s : State) (id used reserved k : Nat) :
    (s.emptied id used reserved).line k = (s.line k).map fun x =>
      if x.id == id then
        if x.filling then { x with dirty := false }
        else { x with used := used, reserved := reserved, dUsed := 0, dReserved := 0, dirty := false }
      else x :=
  find_mapIf (fun x => x.id == id) (fun x => if x.filling then { x with dirty := false }
    else { x with used := used, reserved := reserved, dUsed := 0, dReserved := 0, dirty := false })
    (fun x => by split <;> rfl) k

/-- No other tally changes as a record is written clean. -/
theorem storeClean_current_ne (s : State) {id k : Nat} (used reserved : Nat) (h : id ≠ k) :
    (s.storeClean id used reserved).current k = s.current k := by
  rw [storeClean_eq, current_storeTally_ne _ _ h]
  have hline : (s.emptied id used reserved).line k = s.line k := by
    rw [emptied_line]
    cases hx : s.line k with
    | none => rfl
    | some x =>
      have hid := (line_find_id hx).1
      rw [Option.map_some, if_neg]
      rw [hid]
      simpa using Ne.symm h
  have hcast : (s.emptied id used reserved).castoutOf k = s.castoutOf k :=
    find?_filter_of fun d _ hd => by
      rw [beq_iff_eq] at hd
      rw [hd]
      simpa using Ne.symm h
  have hstored : (s.emptied id used reserved).stored k = s.stored k := rfl
  simp only [State.current, hline, hcast, hstored]

/-- The tally of a principal whose record is written clean. -/
theorem storeClean_current (s : State) {id : Nat} (used reserved : Nat) {p : Principal} (hp : s.prin id = some p) :
    (s.storeClean id used reserved).current id = (used, reserved) := by
  have hstored : (s.storeClean id used reserved).stored id = (used, reserved) := by
    unfold State.stored
    have hws : (s.storeClean id used reserved).tally.writes.filter (fun w => w.id == id) =
        (s.tally.writes.filter fun w => w.id == id).map fun w => { w with used := used, reserved := reserved } := by
      change (mapIf (fun w => w.id == id) (fun w => { w with used := used, reserved := reserved })
        s.tally.writes).filter (fun w => w.id == id) = _
      induction s.tally.writes with
      | nil => rfl
      | cons w ws ih =>
        simp only [mapIf, List.map_cons, List.filter_cons] at ih ⊢
        by_cases hw : (w.id == id) = true
        · rw [if_pos hw, if_pos hw, if_pos hw, ih]
          rfl
        · rw [if_neg hw, if_neg hw, if_neg hw, ih]
    rw [hws, storeClean_prin, hp, List.getLast?_map]
    cases (s.tally.writes.filter fun w => w.id == id).getLast? <;> rfl
  have hline : (s.storeClean id used reserved).line id = (s.emptied id used reserved).line id := rfl
  have hcast : (s.storeClean id used reserved).castoutOf id = none := by
    refine List.find?_eq_none.mpr fun d hd => ?_
    have := (List.mem_filter.mp hd).2
    simpa using this
  simp only [State.current, hline, emptied_line, hcast, hstored]
  cases hx : s.line id with
  | none => rfl
  | some x =>
    have hid := (line_find_id hx).1
    simp only [Option.map_some, hid, beq_self_eq_true, if_true]
    cases x.filling <;> rfl

end

/-! ### In-place writes -/

section
variable {s : State} {o : TallyOp} {w : PendingWrite} {l : Link} {r person c : Nat}

/-- The last in-place write of a Settle has ended: its record is written, and it is to be answered (R18). -/
def State.settleWritten (s : State) (o : TallyOp) (w : PendingWrite) : State :=
  { s.endWrite w with tally := { (s.endWrite w).tally with
    ops := [], note := o.noted.foldl List.erase (s.endWrite w).tally.note } }

/-- An operation that a request awaits is answered when it has no write left. -/
theorem completeOp_settle {x : TallyOp} (hx : s.tally.ops = [x]) (hw : x.writes = []) (hj : x.job = .settle l r person c) :
    s.completeOp x.num = ({ s with tally.ops := [] } : State).reply l r .done .none := by
  unfold State.completeOp
  rw [op_single hx]
  dsimp only
  rw [if_neg (fun h => h hw), ← dropOp_single hx, hj]
  rfl

theorem endInPlace_settle (ho : s.tally.ops = [o]) (hws : o.writes = [w.id]) (hj : o.job = .settle l r person c)
    (hw : s.tally.writes = [w]) (hop : w.op = o.num) :
    s.endInPlace w.id = (s.settleWritten o w).reply l r .done .none := by
  have hfind : s.tally.writes.find? (fun x => x.id == w.id) = some w := by simp [hw]
  have hops : ((s.endWrite w).modOp w.op fun o => { o with writes := o.writes.erase w.id }).tally.ops =
      [{ o with writes := [] }] := by
    rw [hop, modOp_single (s := s.endWrite w) ho, hws, List.erase_cons_head]
  unfold State.endInPlace
  rw [hfind]
  dsimp only
  generalize hu : ((s.endWrite w).modOp w.op fun o => { o with writes := o.writes.erase w.id }) = u at hops
  have hfound : u.op w.op = some { o with writes := [] } := by
    rw [hop]
    exact op_single (o := { o with writes := [] }) hops
  rw [hfound]
  dsimp only
  have hdone := completeOp_settle (s := u.clearNote { o with writes := [] }) (x := { o with writes := [] })
    (l := l) (r := r) (person := person) (c := c) hops rfl hj
  rw [hdone, ← hu]
  rfl

theorem endWrite_prin (hw : s.tally.writes = [w]) (hkept : s.unwritten w.id = false) (hset : w.settles = true) :
    (s.endWrite w).prin w.id = (s.prin w.id).map fun p =>
      { p with used := w.used, reserved := w.reserved, marker := false, unsettled := false } := by
  have hlast : (s.unwritten w.id || (s.tally.writes.erase w).any fun x => x.id == w.id) = false := by
    rw [hkept, hw]
    simp
  unfold State.endWrite
  dsimp only
  rw [hlast, hset]
  refine (State.prin_modPrin s w.id _).trans ?_
  simp only [Bool.and_false, if_true]

theorem endWrite_prin_ne {k : Nat} (h : w.id ≠ k) : (s.endWrite w).prin k = s.prin k :=
  State.prin_modPrin_ne s _ h

end

/-! ### Markers -/

/-- A change that leaves a filled line's drift within the cap, in a mode that writes nothing in place, begins no
write (R11). -/
theorem applyChange_writes {s : State} (num : Nat) (c : TallyChange) {x : Line} (hx : s.line c.id = some x)
    (hf : x.filling = false) (hm : s.inPlaceMode = false)
    (hd : (x.dUsed + ((c.used : Int) - x.used)).natAbs + (x.dReserved + ((c.reserved : Int) - x.reserved)).natAbs ≤ 4096) :
    (s.applyChange num none c).tally.writes = s.tally.writes := by
  unfold State.applyChange
  rw [hx]
  dsimp only
  rw [if_neg (by rw [hf]; exact Bool.false_ne_true)]
  split
  · rfl
  · have hcap : ¬(s.inPlaceMode || decide ((none : Option Nat) = some c.id) || decide (Config.driftCap < Line.drift { x with
        used := c.used, reserved := c.reserved
        dUsed := x.dUsed + ((c.used : Int) - x.used)
        dReserved := x.dReserved + ((c.reserved : Int) - x.reserved) })) = true := by
      rw [hm]
      simp only [Line.drift, Config.driftCap, reduceCtorEq, decide_false, Bool.false_or]
      exact fun h => Nat.not_lt.mpr hd (of_decide_eq_true h)
    rw [if_neg hcap]
    rfl

theorem applyChanges_writes {s : State} (num : Nat) {cs : List TallyChange} (hn : (cs.map TallyChange.id).Nodup)
    (hm : s.inPlaceMode = false)
    (hd : ∀ c ∈ cs, ∃ x, s.line c.id = some x ∧ x.filling = false ∧
      (x.dUsed + ((c.used : Int) - x.used)).natAbs + (x.dReserved + ((c.reserved : Int) - x.reserved)).natAbs ≤ 4096) :
    (s.applyChanges num none cs).tally.writes = s.tally.writes := by
  unfold State.applyChanges
  induction cs generalizing s with
  | nil => rfl
  | cons c cs ih =>
    rw [List.map_cons, List.nodup_cons] at hn
    obtain ⟨hc, hn⟩ := hn
    obtain ⟨x, hx, hf, hcap⟩ := hd c List.mem_cons_self
    have h1 := linesChanged_applyChange num none c hx hf
    have hmode : (s.applyChange num none c).inPlaceMode = false := by
      rw [h1.frame]
      exact hm
    rw [List.foldl_cons, ih hn hmode, applyChange_writes num c hx hf hm hcap]
    intro d hd'
    have hkept : (s.applyChange num none c).line d.id = s.line d.id := by
      refine h1.kept d.id fun he => hc ?_
      rw [← List.mem_singleton.mp he]
      exact List.mem_map_of_mem hd'
    rw [hkept]
    exact hd d (List.mem_cons_of_mem _ hd')

section
variable {s : State} {o : TallyOp} {l : Link} {r p n q : Nat} {part : Bool} {a : Admission}

/-- The marker writes of an Admit ended, and its changes applied (R10). -/
def State.markedAdmit (s : State) (o : TallyOp) : State := s.writeMarkers (s.marksFor none (s.changesOf o))

theorem markedAdmit_current (s : State) (o : TallyOp) (id : Nat) : (s.markedAdmit o).current id = s.current id :=
  (alike_writeMarkers s _).current id

theorem markedAdmit_changes (hj : o.job = .admitReq l r p n q part) (ha : o.outcome = some a) :
    (s.markedAdmit o).changesOf o = o.ids.map fun id =>
      { id := id, used := (s.current id).1 + a.granted, reserved := (s.current id).2 } := by
  unfold State.changesOf
  rw [hj, ha]
  dsimp only
  refine List.map_congr_left fun id _ => ?_
  rw [markedAdmit_current]

theorem endMarking_admit (ho : s.tally.ops = [o]) (hst : o.stage = .marking) (hj : o.job = .admitReq l r p n q part) :
    s.endMarking o.num = (s.markedAdmit o).applyOp o.num := by
  unfold State.endMarking
  rw [op_single ho]
  dsimp only
  rw [if_pos hst, hj]
  rfl

/-- The marker stands in the record of every clean line that an Admit changes (R10). -/
theorem markedAdmit_marker (hj : o.job = .admitReq l r p n q part) (ha : o.outcome = some a) (hg : 0 < a.granted)
    (hm : s.inPlaceMode = false) {id : Nat} (hid : id ∈ o.ids) {x : Line} (hx : s.line id = some x)
    (hd : x.dirty = false) {k : Principal} (hk : s.prin id = some k) :
    (s.markedAdmit o).prin id = some { k with marker := true } := by
  have hmem : id ∈ s.marksFor none (s.changesOf o) := by
    unfold State.marksFor
    rw [if_neg (by rw [hm]; exact Bool.false_ne_true)]
    have hchange : { id := id, used := (s.current id).1 + a.granted, reserved := (s.current id).2 } ∈ s.changesOf o := by
      unfold State.changesOf
      rw [hj, ha]
      exact List.mem_map_of_mem hid
    refine List.mem_map.mpr ⟨_, List.mem_filter.mpr ⟨hchange, ?_⟩, rfl⟩
    have hdiff : ¬s.current id = ((s.current id).1 + a.granted, (s.current id).2) := by
      intro he
      have := congrArg Prod.fst he
      simp only at this
      omega
    simp [State.isNoChange, hdiff, hx, hd]
  unfold State.markedAdmit State.writeMarkers State.prin
  dsimp only
  rw [tget_tmap]
  have hk' : tget s.tally.principals id = some k := hk
  rw [hk', Option.map_some, if_pos (by simpa using hmem)]

/-- The changes of a marked Admit stand without a write, and it goes on to its reply. -/
theorem markedAdmit_applied (ho : s.tally.ops = [o]) (hj : o.job = .admitReq l r p n q part) (ha : o.outcome = some a)
    (hn : o.ids.Nodup) (hm : s.inPlaceMode = false)
    (hl : ∀ id ∈ o.ids, ∃ x, s.line id = some x ∧ x.filling = false ∧ x.drift + a.granted ≤ 4096) :
    (s.markedAdmit o).applyOp o.num =
      { (s.markedAdmit o).opReleased o with
        tally := { ((s.markedAdmit o).opReleased o).tally with
          ops := [{ o with stage := .finished, writes := [], noted := [] }] } } ∧
      PlainApplied (s.markedAdmit o) o ((s.markedAdmit o).opReleased o) := by
  let w := s.markedAdmit o
  have hp : o.job.plain = true := by rw [hj]; rfl
  have hids : (w.changesOf o).map TallyChange.id = o.ids := changesOf_ids hp fun _ => by rw [ha]; rfl
  have hfilled : w.linesFilled o.ids := fun id hid => by
    obtain ⟨x, hx, hf, -⟩ := hl id hid
    exact ⟨x, hx, hf⟩
  have hnodup : ((w.changesOf o).map TallyChange.id).Nodup := by rw [hids]; exact hn
  have hfilled' : w.linesFilled ((w.changesOf o).map TallyChange.id) := by rw [hids]; exact hfilled
  have hwrites : w.opWrites o = [] := by
    have hstands : w.opStands o = w.applyChanges o.num none (w.changesOf o) := by
      unfold State.opStands
      rw [jobRecords_plain hp, settled_plain hp, hj]
      rfl
    have hsame : (w.opStands o).tally.writes = w.tally.writes := by
      rw [hstands]
      refine applyChanges_writes o.num hnodup hm fun c hc => ?_
      have hc' : c ∈ (s.markedAdmit o).changesOf o := hc
      rw [markedAdmit_changes hj ha] at hc'
      obtain ⟨id, hid, rfl⟩ := List.mem_map.mp hc'
      obtain ⟨x, hx, hf, hcap⟩ := hl id hid
      refine ⟨x, hx, hf, ?_⟩
      rw [current_of_line hx hf]
      simp only [Line.drift] at hcap ⊢
      omega
    unfold State.opWrites
    rw [hsame, List.drop_length]
    rfl
  have hops := opReleased_plain_ops hp (s := w) ho hnodup hfilled'
  have happ : (w.opReleased o).jobApplied o = w.opReleased o := by
    unfold State.jobApplied
    rw [hj]
  refine ⟨?_, plainApplied_opReleased hp hnodup hfilled'⟩
  have hdone := completeOp_admit hops hj
  change w.applyOp o.num = _
  rw [applyOp_eq (op_single (s := w) ho), happ]
  refine hdone.trans ?_
  rw [hwrites]
  rfl

end

end Sys2Proof.Machine

open Sys2Proof Sys2Proof.Machine

/-- Settles O21. -/
theorem tallyReadsWritesAndMarkersEnd : Obligations.TallyReadsWritesAndMarkersEnd := by
  refine ⟨⟨?_, ?_, ?_⟩, ?_⟩
  · intro s id x p o hrun hto hj hx hf hh hp hw
    obtain ⟨ho, hpost, hmode, hflush⟩ := hto
    have hid : x.id = id := (line_find_id hx).1
    let u := State.putLine { s with sent := [] } (x.filled p)
    have hline : u.heldLine o.num id (x.filled p) := hid ▸ heldLine_putLine _ hh
    have hops : ∀ y ∈ u.tally.ops, y = o := fun y hy => List.mem_singleton.mp (ho ▸ hy)
    obtain ⟨hkeep, hprins⟩ := advance_heldLine hline (fun y hy => by rw [hops y hy]) (fun y hy => by rw [hops y hy, hj])
      hpost hmode hflush
    have htally : u.finish.tally = u.advance.tally := by
      unfold State.finish
      rw [if_neg (show u.sup.op ≠ .halted from hrun)]
      exact tallyKept_settle rfl
    refine ⟨u.finish, exec_tallyFillReadEnd hrun hx hf hp hw, ?_, ?_⟩
    · rw [State.line, htally]
      exact hkeep.1
    · rw [htally]
      exact hprins
  · intro s c rest p hrun ht hc hp
    let v : State := { s with sent := [] }
    let u := v.storeClean c.id c.used c.reserved
    have htally : u.finish.tally = u.tally := finish_tally (s := u) ht
    refine ⟨u.finish, exec_castoutDrain hrun hc, ?_, ?_, fun k hk => ⟨?_, ?_⟩⟩
    · rw [htally]
      change s.tally.castout.filter (fun d => d.id != c.id) = _
      rw [hc, List.filter_cons_of_neg (by simp)]
    · simp only [State.prin, htally]
      have hprin := storeClean_prin v c.id c.used c.reserved
      rw [show v.prin c.id = some p from hp] at hprin
      exact hprin
    · simp only [State.prin, htally]
      exact storeClean_prin_ne v c.used c.reserved (Ne.symm hk)
    · rw [current_of_tally htally]
      exact storeClean_current_ne v c.used c.reserved (Ne.symm hk)
  · intro s o w p l r person c e hrun hto hws hj hw hop hun hset hp hawait
    obtain ⟨ho, hpost, hmode, hflush⟩ := hto
    let v : State := { s with sent := [] }
    let u := (v.settleWritten o w).reply l r .done .none
    have htally : u.finish.tally = u.tally := finish_tally (s := u) ⟨rfl, hpost, hmode, hflush⟩
    have hprin (k : Nat) : u.finish.prin k = (v.endWrite w).prin k := by
      simp only [State.prin, htally]
      rfl
    obtain ⟨hrep, -⟩ := replied_reply (s := v.settleWritten o w) (l := l) (r := r) (e := e) .done .none hawait
    refine ⟨u.finish, ?_, ?_, ?_, fun k hk => ?_, hrep.finish, ?_⟩
    · refine (act_withErrs_nil _ hrun).trans (congrArg Host.Outcome.next (congrArg State.finish ?_))
      exact endInPlace_settle (s := v) ho hws hj hw hop
    · rw [htally]
      change s.tally.writes.erase w = []
      rw [hw]
      simp
    · rw [hprin, endWrite_prin (s := v) hw hun hset]
      exact congrArg (Option.map _) hp
    · rw [hprin]
      exact endWrite_prin_ne (s := v) (Ne.symm hk)
    · rw [htally]
      rfl
  · intro s o l r p n q part a hrun hto hst hj ha hg hn hm hsome hl
    obtain ⟨ho, hpost, hmode, hflush⟩ := hto
    let v : State := { s with sent := [] }
    let w := v.markedAdmit o
    obtain ⟨hdone, happ⟩ := markedAdmit_applied (s := v) ho hj ha hn hm hl
    generalize hu : w.applyOp o.num = u at hdone
    obtain ⟨qpost, qmode, qflush⟩ := happ.queues
    have hcur (id : Nat) : u.current id = (w.opReleased o).current id := by
      rw [hdone]
      exact current_congr rfl rfl rfl (fun _ => rfl) id
    have hwaits : u.tallyWaits := by
      rw [hdone]
      refine ⟨fun x hx => ?_, qpost.trans hpost, qmode.trans hmode, qflush.trans hflush⟩
      obtain rfl := List.mem_singleton.mp hx
      exact ⟨fun h => (nomatch h), fun h => (nomatch h)⟩
    have htally := finish_waits_tally hwaits
    have hids : (w.changesOf o).map TallyChange.id = o.ids :=
      changesOf_ids (by rw [hj]; rfl) fun _ => by rw [ha]; rfl
    refine ⟨u.finish, ?_, ?_, fun id hid => ?_, fun id hid x hx hd => ?_, fun id hid => ?_⟩
    · change act (fun s => withErrs [] (fun u =>
        (if s.isMarking o.num && u.isReady o.num (fun _ => true) then u.proceed o.num
          else u.endMarking o.num).finish) s) s = _
      rw [act_running _ hrun]
      refine congrArg Host.Outcome.next ((withErrs_nil (s := { s with sent := [] }) _ hrun).trans ?_)
      have hready : v.isReady o.num (fun _ => true) = false := by
        simp only [State.isReady, op_single (s := v) ho, hst]
        rfl
      refine congrArg State.finish ((if_neg ?_).trans ((endMarking_admit (s := v) ho hst hj).trans hu))
      change ¬(_ && v.isReady o.num fun _ => true) = true
      rw [hready, Bool.and_false]
      exact Bool.false_ne_true
    · rw [htally, hdone]
    · rw [current_of_tally htally, hcur]
      refine happ.changed { id := id, used := (s.current id).1 + a.granted, reserved := (s.current id).2 } ?_
      rw [markedAdmit_changes (s := v) hj ha]
      exact List.mem_map_of_mem hid
    · obtain ⟨k, hk⟩ := Option.isSome_iff_exists.mp (hsome id hid)
      have hmark := markedAdmit_marker (s := v) hj ha hg hm hid hx hd hk
      have hprin : u.finish.prin id = (w.opReleased o).prin id := by
        have hu' := congrArg (fun t : State => tget t.tally.principals id) hdone
        exact (congrArg (fun y : Tally => tget y.principals id) htally).trans hu'
      have hun := happ.prins id
      rw [hmark, Option.map_some] at hun
      obtain ⟨k', hk', he⟩ := Option.map_eq_some_iff.mp hun
      refine ⟨k', hprin.trans hk', ?_⟩
      exact congrArg Principal.marker he
    · rw [current_of_tally htally, hcur, happ.kept id (by rw [hids]; exact hid)]
      exact markedAdmit_current v o id
end

section
/-! PROOF. Records of principals: grace expiries, recounts, Freeze and Principal Create (R4, R7, R19, R38). -/

namespace Sys2Proof.Machine

/-! ### The head of the Grace Queue -/

section
variable {s : State} {e : GraceEntry} {rest : List GraceEntry} {p : Principal} {b : Bool}

theorem expire_grace {id d : Nat} (hp : s.prin id = some p) (hg : p.grace = .grace d b) :
    s.expire id = ((s.leaveGraceQueue id).setGrace id .expired).raise
      (.graceExpired id d s.sup.clock (s.current id).1 (s.current id).2 p.soft) := by
  unfold State.expire
  rw [hp]
  dsimp only
  rw [hg]

theorem exec_graceExpiry (hrun : s.sup.op ≠ .halted) (hop : s.sup.op ≠ .holdup) :
    Machine.exec .graceExpiry s = .next (State.expireHead { s with sent := [] }).finish :=
  (act_withErrs_nil _ hrun).trans (congrArg Host.Outcome.next (if_neg hop))

theorem expireHead_due (hq : s.tally.grace = e :: rest) (hd : e.deadline ≤ s.sup.clock)
    (hheld : s.lineHeld e.id = false) :
    s.expireHead = { s.expire e.id with
      tally.grace := (s.expire e.id).tally.grace.filter fun x => x.id != e.id } := by
  unfold State.expireHead
  rw [hq]
  exact if_pos ⟨hd, hheld⟩

theorem expireHead_stays (hq : s.tally.grace = e :: rest) (h : s.sup.clock < e.deadline ∨ s.lineHeld e.id = true) :
    s.expireHead = s := by
  unfold State.expireHead
  rw [hq]
  refine if_neg fun ⟨hd, hheld⟩ => ?_
  rcases h with h | h
  · exact Nat.not_lt.mpr hd h
  · rw [hheld] at h
    cases h

/-- The state in which the head of the Grace Queue has expired. -/
theorem expireHead_spec (hq : s.tally.grace = e :: rest) (hd : e.deadline ≤ s.sup.clock)
    (hheld : s.lineHeld e.id = false) (hp : s.prin e.id = some p) (hg : p.grace = .grace e.deadline b) :
    s.expireHead.tally.grace = rest.filter (fun x => x.id != e.id) ∧
      s.expireHead.prin e.id = some { p with grace := .expired } ∧
      (∀ k, k ≠ e.id → s.expireHead.prin k = s.prin k) ∧
      s.expireHead.sup.raised[0]? = (s.sup.raised[0]?).map countUp ∧
      s.expireHead.tallyWork = s.tallyWork ∧ s.expireHead.pat = s.pat ∧ s.expireHead.sup.op = s.sup.op := by
  have hkept := supKept_expireHead (s := s) (supKept_refl s.sup)
  have hothers := othersKept_expireHead (s := s) rfl
  have hwork : s.expireHead.tallyWork = (s.expire e.id).tallyWork := by
    rw [expireHead_due hq hd hheld]
    rfl
  have hprin (k : Nat) : s.expireHead.prin k = ((s.leaveGraceQueue e.id).setGrace e.id .expired).prin k := by
    rw [expireHead_due hq hd hheld, expire_grace hp hg]
    simp only [State.prin, raise_tally]
  refine ⟨?_, ?_, fun k hk => ?_, ?_, hwork.trans (expire_tallyWork s e.id), congrArg (fun q => q.2.2.2.2) hothers,
    hkept.1⟩
  · rw [expireHead_due hq hd hheld, expire_grace hp hg]
    dsimp only
    rw [raise_tally]
    change List.filter _ (List.filter _ s.tally.grace) = _
    rw [hq, List.filter_cons_of_neg (by simp), List.filter_filter]
    simp
  · rw [hprin]
    refine (State.prin_modPrin (s.leaveGraceQueue e.id) e.id _).trans ?_
    exact congrArg (Option.map _) hp
  · rw [hprin]
    exact State.prin_modPrin_ne (s.leaveGraceQueue e.id) _ (Ne.symm hk)
  · rw [expireHead_due hq hd hheld, expire_grace hp hg]
    dsimp only
    rw [raise_raised, getElem?_modAt]
    rfl

end

/-! ### Pool Recounts -/

section
variable {s : State} {pool : Nat} {p : Principal}

/-- An expiry of a pool leaves the members of every pool as they are. -/
theorem membersOf_lazyExpire (hwf : Tbl.wf s.tally.principals = true) (hp : s.prin pool = some p)
    (hk : p.kind = .pool) (q : Nat) : (s.lazyExpire pool).membersOf q = s.membersOf q := by
  have hmod : (s.setGrace pool .expired).membersOf q = s.membersOf q := by
    unfold State.membersOf
    change (tmod s.tally.principals pool _).filter _ = _
    rw [tmod_eq_map 0 _ _ _ hwf, List.filter_map]
    have hpred : ((fun kp : Nat × Principal => decide (kp.2.kind = .person) &&
        (decide (kp.2.course = some q) || decide (kp.2.dept = some q))) ∘
        fun kv : Nat × Principal => if kv.1 = pool then (kv.1, { kv.2 with grace := .expired }) else kv) =
        fun kp => decide (kp.2.kind = .person) &&
          (decide (kp.2.course = some q) || decide (kp.2.dept = some q)) := by
      funext kv
      simp only [Function.comp_apply]
      split <;> rfl
    rw [hpred]
    refine (List.map_congr_left fun kv hkv => if_neg fun he => ?_).trans (List.map_id _)
    obtain ⟨hm, hperson⟩ := List.mem_filter.mp hkv
    have hrec := tget_of_mem 0 _ hwf hm
    have hp' : tget s.tally.principals pool = some p := hp
    rw [he, hp', Option.some.injEq] at hrec
    rw [← hrec, hk] at hperson
    simp at hperson
  unfold State.lazyExpire
  split
  · unfold State.expire
    rw [hp]
    dsimp only
    split
    · unfold State.membersOf
      rw [raise_tally]
      exact hmod
    · rfl
  · rfl

theorem fitTally_of_le {n : Nat} (h : n ≤ maxTally) : fitTally n = n := if_pos h

/-- The state in which a recounted pool's record is written, before its grace is evaluated (R19). -/
def State.recounted (s : State) (pool : Nat) : State :=
  { (((s.lazyExpire pool).storeClean pool
        (fitTally (((s.lazyExpire pool).membersOf pool).map fun m => ((s.lazyExpire pool).current m.1).1).sum)
        (fitTally (((s.lazyExpire pool).membersOf pool).map fun m => ((s.lazyExpire pool).current m.1).2).sum)).modPrin
      pool fun p =>
      { p with
        members := ((s.lazyExpire pool).membersOf pool).length
        unsettledMembers := (((s.lazyExpire pool).membersOf pool).filter fun m => (s.lazyExpire pool).isUnsettled m.1).length
        unsettled := decide
          ((((s.lazyExpire pool).membersOf pool).filter fun m => (s.lazyExpire pool).isUnsettled m.1).length ≠ 0) }) with
    tally.recounts := s.tally.recounts.filter (· ≠ pool) }

/-- A record field that holds no tally leaves every current value (R14). -/
theorem current_modPrin_of (s : State) (id : Nat) {f : Principal → Principal} (hf : ∀ p, (f p).tally = p.tally)
    (j : Nat) : (s.modPrin id f).current j = s.current j := by
  refine current_congr (s := s) (t := s.modPrin id f) rfl rfl rfl (fun i => ?_) j
  by_cases hi : id = i
  · subst hi
    rw [State.prin_modPrin, Option.map_map]
    exact Option.map_congr fun p _ => hf p
  · rw [State.prin_modPrin_ne _ _ hi]

theorem endRecount_eq (s : State) (pool : Nat) : s.endRecount pool = (s.recounted pool).evalGrace pool := by
  have hrec := (graceOnly_lazyExpire s pool).recounts
  unfold State.endRecount State.recounted
  dsimp only
  rw [← hrec]
  rfl

/-- The record that a recount leaves a pool (R19). -/
def State.recountOf (s : State) (pool : Nat) (p : Principal) : Principal :=
  { p with
    used := ((s.membersOf pool).map fun m => (s.current m.1).1).sum
    reserved := ((s.membersOf pool).map fun m => (s.current m.1).2).sum
    marker := false
    members := (s.membersOf pool).length
    unsettledMembers := ((s.membersOf pool).filter fun m => s.isUnsettled m.1).length
    unsettled := decide (((s.membersOf pool).filter fun m => s.isUnsettled m.1).length ≠ 0) }

theorem recounted_spec (hwf : Tbl.wf s.tally.principals = true) (hp : s.prin pool = some p) (hk : p.kind = .pool)
    (hu : ((s.membersOf pool).map fun m => (s.current m.1).1).sum ≤ maxTally)
    (hr : ((s.membersOf pool).map fun m => (s.current m.1).2).sum ≤ maxTally) :
    ((s.recounted pool).prin pool).map Principal.ungraced = some (s.recountOf pool p).ungraced ∧
      (s.recounted pool).current pool = ((s.recountOf pool p).used, (s.recountOf pool p).reserved) := by
  have hg := graceOnly_lazyExpire s pool
  have hms := membersOf_lazyExpire hwf hp hk pool
  have hcur : (s.lazyExpire pool).current = s.current := funext hg.current
  have huns : (s.lazyExpire pool).isUnsettled = s.isUnsettled := funext hg.isUnsettled
  obtain ⟨p1, hp1, hsame⟩ : ∃ p1, (s.lazyExpire pool).prin pool = some p1 ∧ p1.ungraced = p.ungraced := by
    have h := hg.prins pool
    rw [hp, Option.map_some] at h
    exact Option.map_eq_some_iff.mp h
  have hstored := storeClean_prin (s.lazyExpire pool) pool (s.recountOf pool p).used (s.recountOf pool p).reserved
  rw [hp1, Option.map_some] at hstored
  have hvalue := storeClean_current (s.lazyExpire pool) (s.recountOf pool p).used (s.recountOf pool p).reserved hp1
  unfold State.recounted
  rw [hms, hcur, huns, fitTally_of_le hu, fitTally_of_le hr]
  have hmod := State.prin_modPrin ((s.lazyExpire pool).storeClean pool (s.recountOf pool p).used
    (s.recountOf pool p).reserved) pool fun q =>
      { q with
        members := (s.recountOf pool p).members, unsettledMembers := (s.recountOf pool p).unsettledMembers
        unsettled := (s.recountOf pool p).unsettled }
  rw [hstored, Option.map_some] at hmod
  constructor
  · refine (congrArg (Option.map Principal.ungraced) hmod).trans ?_
    rw [Option.map_some]
    refine congrArg some ?_
    have hrec : ∀ q : Principal, q.ungraced = p.ungraced →
        Principal.ungraced { q with
          used := (s.recountOf pool p).used, reserved := (s.recountOf pool p).reserved, marker := false
          members := (s.recountOf pool p).members, unsettledMembers := (s.recountOf pool p).unsettledMembers
          unsettled := (s.recountOf pool p).unsettled } = (s.recountOf pool p).ungraced := by
      intro q hq
      cases q
      cases p
      simp only [Principal.ungraced, Principal.mk.injEq] at hq ⊢
      simp [State.recountOf, hq]
    exact hrec p1 hsame
  · refine Eq.trans ?_ hvalue
    exact current_modPrin_of ((s.lazyExpire pool).storeClean pool (s.recountOf pool p).used
      (s.recountOf pool p).reserved) pool (f := fun q =>
      { q with
        members := (s.recountOf pool p).members, unsettledMembers := (s.recountOf pool p).unsettledMembers
        unsettled := (s.recountOf pool p).unsettled }) (fun _ => rfl) pool

end

/-! ### Principal Create -/

section
variable {s : State} {l : Link} (tag id cls : Nat) (kind : PrincipalKind) (course dept soft hard : Option Nat)

/-- The record of a Principal Create written, its pools counting it (R4). -/
def State.createdIn (s : State) (id cls : Nat) (kind : PrincipalKind) (course dept soft hard : Option Nat) : State :=
  (course.toList ++ dept.toList).foldl (fun s pool => s.modMembers pool (· + 1))
    ((s.setPrin id (newPrincipal kind cls course dept soft hard)).storeTally id 0 0)

/-- The end of a Principal Create that passes its checks. -/
def State.created (s : State) (l : Link) (tag id cls : Nat) (kind : PrincipalKind)
    (course dept soft hard : Option Nat) : State :=
  (((s.asked l tag .principalCreate).createdIn id cls kind course dept soft hard).reply l s.sup.nextReq .done
    .none).finish

theorem createCheck_asked (k : ReqKind) : (s.asked l tag k).createCheck id kind cls course dept soft hard =
    s.createCheck id kind cls course dept soft hard := rfl

theorem exec_principalCreate (h : s.takes l) (hr : s.role l = .console ∨ (cls = 0 ∧ soft = none ∧ hard = none)) :
    Machine.exec (.principalCreate l tag id kind cls course dept soft hard) s =
      .next (match s.createCheck id kind cls course dept soft hard with
        | some st => s.replied l tag .principalCreate st .none
        | none => s.created l tag id cls kind course dept soft hard) := by
  have hrole : (soft.isSome || hard.isSome || decide (cls ≠ 0)) = false ∨ s.role l = .console := by
    rcases hr with hr | ⟨rfl, rfl, rfl⟩
    · exact .inr hr
    · exact .inl rfl
  refine (act_asked tag .principalCreate _ h hrole).trans (congrArg Host.Outcome.next ?_)
  rw [createCheck_asked]
  cases s.createCheck id kind cls course dept soft hard <;> rfl

/-- A Principal Create that a check refuses changes nothing. -/
theorem create_refused {st : Status} (h : s.takes l)
    (hc : s.createCheck id kind cls course dept soft hard = some st) :
    Answered s (match s.createCheck id kind cls course dept soft hard with
        | some st => s.replied l tag .principalCreate st .none
        | none => s.created l tag id cls kind course dept soft hard) l tag .principalCreate st .none ∧
      Spared s (match s.createCheck id kind cls course dept soft hard with
        | some st => s.replied l tag .principalCreate st .none
        | none => s.created l tag id cls kind course dept soft hard) := by
  rw [hc]
  exact ⟨answered_replied tag _ st .none h, spared_replied tag _ st .none h⟩

end

/-- Member counts changed for some pools touch the records alone. -/
theorem modMembers_foldl_eq (f : Nat → Nat) (pools : List Nat) (s : State) :
    pools.foldl (fun s pool => s.modMembers pool f) s =
      { s with tally.principals := (pools.foldl (fun s pool => s.modMembers pool f) s).tally.principals } := by
  induction pools generalizing s with
  | nil => rfl
  | cons q qs ih =>
    rw [List.foldl_cons, ih]
    rfl

theorem modMembers_foldl_prin (f : Nat → Nat) {pools : List Nat} (hn : pools.Nodup) (s : State) (k : Nat) :
    (pools.foldl (fun s pool => s.modMembers pool f) s).prin k =
      if k ∈ pools then (s.prin k).map fun p => { p with members := f p.members } else s.prin k := by
  induction pools generalizing s with
  | nil => rfl
  | cons q qs ih =>
    obtain ⟨hq, hqs⟩ := List.nodup_cons.mp hn
    rw [List.foldl_cons, ih hqs]
    by_cases hk : q = k
    · subst hk
      rw [if_neg hq, if_pos List.mem_cons_self]
      exact State.prin_modPrin s q _
    · have hne := State.prin_modPrin_ne s (fun p => { p with members := f p.members }) hk
      change (s.modMembers q f).prin k = s.prin k at hne
      rw [hne]
      have hmem : k ∈ q :: qs ↔ k ∈ qs := by
        rw [List.mem_cons]
        exact or_iff_right (Ne.symm hk)
      simp only [hmem]

/-- The pools a record names, each once. -/
theorem parents_nodup {course dept : Option Nat} (h : course = none ∨ course ≠ dept) :
    (course.toList ++ dept.toList).Nodup := by
  cases course with
  | none => cases dept <;> simp
  | some a =>
    cases dept with
    | none => simp
    | some b =>
      rcases h with h | h
      · cases h
      · simpa using h

theorem mem_parents {course dept : Option Nat} {q : Nat} :
    q ∈ course.toList ++ dept.toList ↔ course = some q ∨ dept = some q := by
  simp [Option.mem_toList]

section
variable {s : State} {id cls : Nat} {kind : PrincipalKind} {course dept soft hard : Option Nat}

theorem limitFits_iff {v : Option Nat} : limitFits v = true ↔ ∀ n, v = some n → 1 ≤ n ∧ n ≤ maxTally := by
  cases v with
  | none => simp [limitFits]
  | some n => simp [limitFits]

theorem limitsOrdered_iff : limitsOrdered soft hard = true ↔ ∀ a b, soft = some a → hard = some b → a ≤ b := by
  cases soft with
  | none => simp [limitsOrdered]
  | some a => cases hard <;> simp [limitsOrdered]

theorem createInRange_iff : createInRange id cls soft hard ↔
    ¬(id = 0 ∨ 63 < cls ∨ limitFits soft = false ∨ limitFits hard = false ∨ limitsOrdered soft hard = false) := by
  simp only [not_or, Bool.not_eq_false, limitFits_iff, limitsOrdered_iff, Nat.not_lt]
  constructor
  · rintro ⟨h1, h2, h3, h4⟩
    exact ⟨h1, h2, fun n hn => h3 n (.inl hn), fun n hn => h3 n (.inr hn), h4⟩
  · rintro ⟨h1, h2, h3, h4, h5⟩
    exact ⟨h1, h2, fun n hn => hn.elim (h3 n) (h4 n), h5⟩

theorem isPool_iff {v : Option Nat} : s.isPool v = true ↔ ∀ q, v = some q → ∃ k, s.prin q = some k ∧ k.kind = .pool := by
  unfold State.isPool
  cases v with
  | none => simp
  | some q =>
    dsimp only
    cases hq : s.prin q <;> simp [hq]

theorem parentsArePools_iff :
    s.parentsArePools course dept ↔ ¬(s.isPool course = false ∨ s.isPool dept = false) := by
  simp only [not_or, Bool.not_eq_false, isPool_iff]
  exact ⟨fun h => ⟨fun q hq => h q (.inl hq), fun q hq => h q (.inr hq)⟩, fun h q hq => hq.elim (h.1 q) (h.2 q)⟩

theorem createCheck_malformed_iff : ¬(kind = .pool ∧ (course.isSome ∨ dept.isSome)) ↔
    (kind = .pool → course = none ∧ dept = none) := by
  rw [not_and, not_or]
  simp only [Bool.not_eq_true, Option.isSome_eq_false_iff, Option.isNone_iff_eq_none]

/-- A new record written, with its tally stored. -/
theorem newRecord_prin (s : State) (id : Nat) (kind : PrincipalKind) (cls : Nat) (course dept soft hard : Option Nat) :
    ((s.setPrin id (newPrincipal kind cls course dept soft hard)).storeTally id 0 0).prin id =
        some (newPrincipal kind cls course dept soft hard) ∧
      ∀ k, k ≠ id →
        ((s.setPrin id (newPrincipal kind cls course dept soft hard)).storeTally id 0 0).prin k = s.prin k := by
  constructor
  · refine (State.prin_modPrin _ id _).trans ?_
    rw [State.prin_setPrin]
    rfl
  · intro k hk
    refine (State.prin_modPrin_ne _ _ (Ne.symm hk)).trans ?_
    exact tget_tput_ne _ _ (Ne.symm hk)

/-- What a Principal Create that passes its checks makes of the records. -/
theorem createdIn_spec (hid : s.prin id = none)
    (hpools : ∀ q, course = some q ∨ dept = some q → ∃ k, s.prin q = some k ∧ k.kind = .pool)
    (hne : course = none ∨ course ≠ dept) :
    (s.createdIn id cls kind course dept soft hard).prin id = some (newPrincipal kind cls course dept soft hard) ∧
      (∀ q k, course = some q ∨ dept = some q → s.prin q = some k →
        (s.createdIn id cls kind course dept soft hard).prin q = some { k with members := k.members + 1 }) ∧
      (∀ k, k ≠ id → course ≠ some k → dept ≠ some k →
        (s.createdIn id cls kind course dept soft hard).prin k = s.prin k) := by
  obtain ⟨hself, hothers⟩ := newRecord_prin s id kind cls course dept soft hard
  have hfold := modMembers_foldl_prin (· + 1) (parents_nodup hne)
    ((s.setPrin id (newPrincipal kind cls course dept soft hard)).storeTally id 0 0)
  have hparent (q : Nat) (hq : course = some q ∨ dept = some q) : q ≠ id := by
    rintro rfl
    obtain ⟨k, hk, -⟩ := hpools q hq
    rw [hid] at hk
    cases hk
  refine ⟨?_, fun q k hq hk => ?_, fun k hk hc hd => ?_⟩
  · refine (hfold id).trans ((if_neg fun hm => ?_).trans hself)
    exact hparent id (mem_parents.mp hm) rfl
  · refine (hfold q).trans ((if_pos (mem_parents.mpr hq)).trans ?_)
    rw [hothers q (hparent q hq), hk]
    rfl
  · refine (hfold k).trans ((if_neg fun hm => ?_).trans (hothers k hk))
    exact (mem_parents.mp hm).elim hc hd

end

end Sys2Proof.Machine

open Sys2Proof Sys2Proof.Machine

/-- Settles O29. -/
theorem graceHeadExpires : Obligations.GraceHeadExpires := by
  refine ⟨?_, ?_, fun s hop => ?_⟩
  · intro s e rest p b hrun hop hcalm hq hd hheld hp hg
    let v : State := { s with sent := [] }
    obtain ⟨hqueue, hprin, hothers, hraised, hwork, hpat, hop'⟩ := expireHead_spec (s := v) hq hd hheld hp hg
    have hcalm' : v.expireHead.calm := by
      refine ⟨tallyStill_of_work hwork hcalm.1, ?_⟩
      have hstill := hcalm.2
      simp only [State.patrolStill] at hstill ⊢
      rw [hpat]
      exact hstill
    have hrun' : v.expireHead.sup.op ≠ .halted := by
      rw [hop']
      exact hrun
    obtain ⟨fsup, -, ftally, -⟩ := finish_beside_parts hcalm' hrun'
    refine ⟨v.expireHead.finish, exec_graceExpiry hrun hop, ?_, ?_, fun k hk => ?_, ?_⟩
    · rw [ftally]
      exact hqueue
    · simp only [State.prin, ftally]
      exact hprin
    · simp only [State.prin, ftally]
      exact hothers k hk
    · rw [fsup]
      exact hraised
  · intro s e rest hrun ht hq h
    let v : State := { s with sent := [] }
    by_cases hop : s.sup.op = .holdup
    · exact ⟨v, (act_withErrs_nil _ hrun).trans (congrArg Host.Outcome.next (if_pos hop)), rfl⟩
    · have hstay : v.expireHead = v := expireHead_stays (s := v) hq h
      refine ⟨v.expireHead.finish, exec_graceExpiry hrun hop, ?_⟩
      rw [hstay]
      exact finish_tally (s := v) ht
  · exact (act_withErrs_nil _ (by rw [hop]; decide)).trans (congrArg Host.Outcome.next (if_pos hop))

/-- Settles O24. -/
theorem recountSetsThePoolToItsMembers : Obligations.RecountSetsThePoolToItsMembers := by
  refine ⟨?_, fun s pool hrun hno => ?_⟩
  · intro s pool p hrun ht hwf hmem hp hk hu hr
    let v : State := { s with sent := [] }
    obtain ⟨hrec, hcur⟩ := recounted_spec (s := v) hwf hp hk hu hr
    have hg := graceOnly_evalGrace (v.recounted pool) pool
    have hwork : ((v.recounted pool).evalGrace pool).tallyStill := by
      have hlazy := tallyStill_of_work (lazyExpire_tallyWork v pool) ht
      exact tallyStill_of_work (s := v.recounted pool) (evalGrace_tallyWork _ _) hlazy
    have ftally : ((v.recounted pool).evalGrace pool).finish.tally = ((v.recounted pool).evalGrace pool).tally :=
      finish_tally hwork
    obtain ⟨p', hp', hsame⟩ : ∃ p', ((v.recounted pool).evalGrace pool).prin pool = some p' ∧
        p'.ungraced = (v.recountOf pool p).ungraced := by
      have h := hg.prins pool
      rw [hrec] at h
      exact Option.map_eq_some_iff.mp h
    have hfield {α : Type} (f : Principal → α) (hf : ∀ q : Principal, f q.ungraced = f q) :
        f p' = f (v.recountOf pool p) := by rw [← hf p', hsame, hf]
    have hmembers := hfield Principal.members fun _ => rfl
    have huns := hfield Principal.unsettledMembers fun _ => rfl
    have hflag := hfield Principal.unsettled fun _ => rfl
    have hused := hfield Principal.used fun _ => rfl
    have hreserved := hfield Principal.reserved fun _ => rfl
    refine ⟨((v.recounted pool).evalGrace pool).finish, p', ?_, ?_, hused, hreserved, hmembers, huns, ?_,
      hfield Principal.marker fun _ => rfl, ?_, ?_⟩
    · refine (act_withErrs_nil _ hrun).trans (congrArg Host.Outcome.next ?_)
      refine (if_pos ?_).trans (congrArg State.finish (endRecount_eq v pool))
      exact List.contains_iff_mem.mpr hmem
    · simp only [State.prin, ftally]
      exact hp'
    · rw [hflag, huns]
      simp only [State.recountOf, decide_eq_true_eq]
      omega
    · rw [current_of_tally ftally, hg.current, hcur, hused, hreserved]
    · rw [ftally, hg.recounts]
      rfl
  · refine (act_withErrs_nil _ hrun).trans (congrArg Host.Outcome.next (if_neg ?_))
    exact fun h => hno (List.contains_iff_mem.mp h)

/-- Settles O27. -/
theorem freezeSetsTheFlag : Obligations.FreezeSetsTheFlag := by
  have hexec (s : State) (l : Link) (tag id : Nat) (b : Bool) (h : s.takes l) (hr : s.role l = .console) :=
    act_asked tag .freeze (co := true) (fun r s =>
      if (s.prin id).isNone then s.reply l r .unknownPrincipal .none
      else
        match (s.link l).hold with
        | some held => s.stage l r held (.freeze id b)
        | none => (s.setFrozen id b).reply l r .done .none) h (.inr hr)
  have hhold (s : State) (l : Link) (tag : Nat) : ((s.asked l tag .freeze).link l).hold = (s.link l).hold := by
    rw [asked_link]
  have hknown {s : State} {id : Nat} (l : Link) (tag : Nat) (h : (s.prin id).isSome = true) :
      ¬((s.asked l tag .freeze).prin id).isNone = true := by
    change ¬(s.prin id).isNone = true
    rw [Option.isNone_eq_false_iff.mpr h]
    exact Bool.false_ne_true
  refine ⟨?_, ?_, ?_, ?_⟩
  · intro s l tag id b p h hr ht hp hh
    let u := ((s.asked l tag .freeze).setFrozen id b).reply l s.sup.nextReq .done .none
    have htally : u.finish.tally = u.tally := finish_tally (s := u) ht
    refine ⟨u.finish, (hexec s l tag id b h hr).trans (congrArg Host.Outcome.next (congrArg State.finish ?_)), ?_, ?_,
      fun k hk => ?_⟩
    · rw [if_neg (hknown l tag (by rw [hp]; rfl)), hhold, hh]
    · exact answered_finish .done .none h ((entered_asked s l tag .freeze).congr rfl)
    · simp only [State.prin, htally]
      exact (State.prin_modPrin (s.asked l tag .freeze) id _).trans (congrArg (Option.map _) hp)
    · simp only [State.prin, htally]
      exact State.prin_modPrin_ne (s.asked l tag .freeze) _ (Ne.symm hk)
  · intro s l tag id b held h hr ht hp hh hlt
    obtain ⟨hans, hhold', -, -⟩ := staged_spec tag .freeze held (.freeze id b) h
    refine ⟨s.staged l tag .freeze held (.freeze id b), ?_, hans, hhold', finish_tally (s := State.reply _ _ _ _ _) ht⟩
    refine (hexec s l tag id b h hr).trans (congrArg Host.Outcome.next ?_)
    rw [if_neg (hknown l tag hp), hhold, hh]
    exact (stage_finish s l tag .freeze held _).trans (if_neg (Nat.not_le.mpr hlt))
  · intro s l tag id b held h hr hp hh hge
    refine ⟨s.replied l tag .freeze .holdFull .none, ?_, answered_replied tag _ _ _ h, spared_replied tag _ _ _ h⟩
    refine (hexec s l tag id b h hr).trans (congrArg Host.Outcome.next ?_)
    rw [if_neg (hknown l tag hp), hhold, hh]
    exact (stage_finish s l tag .freeze held _).trans (if_pos hge)
  · intro s l tag id b h hr hp
    refine ⟨s.replied l tag .freeze .unknownPrincipal .none, ?_, answered_replied tag _ _ _ h, spared_replied tag _ _ _ h⟩
    refine (hexec s l tag id b h hr).trans (congrArg Host.Outcome.next (congrArg State.finish (if_pos ?_)))
    change (s.prin id).isNone = true
    rw [hp]
    rfl

/-- Settles O25. -/
theorem principalCreateWritesTheRecord : Obligations.PrincipalCreateWritesTheRecord := by
  refine ⟨?_, ?_⟩
  · intro s l tag id cls kind course dept soft hard h ht hr hid hcls hsoft hhard hord hpool hnone hparents hne hroom
    let u := ((s.asked l tag .principalCreate).createdIn id cls kind course dept soft hard).reply l s.sup.nextReq .done .none
    have hcheck : s.createCheck id kind cls course dept soft hard = none := by
      unfold State.createCheck
      rw [if_neg (createInRange_iff.mp ⟨hid, hcls, fun n hn => hn.elim (hsoft n) (hhard n), hord⟩),
        if_neg (createCheck_malformed_iff.mpr hpool), hnone, if_neg (by exact Bool.false_ne_true),
        if_neg (parentsArePools_iff.mp hparents), if_neg]
      · exact if_neg (Nat.not_le.mpr hroom)
      rintro ⟨hsome, he⟩
      rcases hne with hne | hne
      · rw [hne] at hsome
        cases hsome
      · exact hne he
    have hframe := modMembers_foldl_eq (· + 1) (course.toList ++ dept.toList)
      (((s.asked l tag .principalCreate).setPrin id (newPrincipal kind cls course dept soft hard)).storeTally id 0 0)
    have hu : (s.asked l tag .principalCreate).createdIn id cls kind course dept soft hard = _ := hframe
    have hstill : u.tallyStill := by
      change ((s.asked l tag .principalCreate).createdIn id cls kind course dept soft hard).tallyStill
      rw [hu]
      exact ht
    have htally := finish_tally hstill
    obtain ⟨hself, hpools, hrest⟩ := createdIn_spec (s := s.asked l tag .principalCreate) (id := id) (cls := cls)
      (kind := kind) (course := course) (dept := dept) (soft := soft) (hard := hard) hnone hparents hne
    refine ⟨u.finish, ?_, ?_, ?_, fun q k hq hk => ?_, fun k hk hc hd => ?_, ?_⟩
    · rw [exec_principalCreate tag id cls kind course dept soft hard h hr, hcheck]
      rfl
    · refine answered_finish .done .none h ((entered_asked s l tag .principalCreate).congr ?_)
      rw [hu]
      rfl
    · simp only [State.prin, htally]
      exact hself
    · simp only [State.prin, htally]
      exact hpools q k hq hk
    · simp only [State.prin, htally]
      exact hrest k hk hc hd
    · rw [htally]
      change ((s.asked l tag .principalCreate).createdIn id cls kind course dept soft hard).tally.cache = _
      rw [hu]
      rfl
  · intro s l tag id cls kind course dept soft hard h hr
    refine ⟨_, exec_principalCreate tag id cls kind course dept soft hard h hr, fun hbad => ?_, fun hin hpool hsome => ?_,
      fun hin hpool hsome => ?_, fun hin hpool hnone hpar => ?_, fun hin hpool hnone hpar hsome he => ?_,
      fun hin hpool hnone hpar hne hfull => ?_⟩
    · exact create_refused tag id cls kind course dept soft hard h (if_pos (not_not.mp (mt createInRange_iff.mpr hbad)))
    · exact create_refused tag id cls kind course dept soft hard h
        ((if_neg (createInRange_iff.mp hin)).trans (if_pos ⟨hpool, hsome⟩))
    · exact create_refused tag id cls kind course dept soft hard h
        ((if_neg (createInRange_iff.mp hin)).trans ((if_neg (createCheck_malformed_iff.mpr hpool)).trans (if_pos hsome)))
    · refine create_refused tag id cls kind course dept soft hard h
        ((if_neg (createInRange_iff.mp hin)).trans ((if_neg (createCheck_malformed_iff.mpr hpool)).trans
          ((if_neg ?_).trans (if_pos (not_not.mp (mt parentsArePools_iff.mpr hpar))))))
      rw [hnone]
      exact Bool.false_ne_true
    · refine create_refused tag id cls kind course dept soft hard h
        ((if_neg (createInRange_iff.mp hin)).trans ((if_neg (createCheck_malformed_iff.mpr hpool)).trans
          ((if_neg ?_).trans ((if_neg (parentsArePools_iff.mp hpar)).trans (if_pos ⟨hsome, he⟩)))))
      rw [hnone]
      exact Bool.false_ne_true
    · refine create_refused tag id cls kind course dept soft hard h
        ((if_neg (createInRange_iff.mp hin)).trans ((if_neg (createCheck_malformed_iff.mpr hpool)).trans
          ((if_neg ?_).trans ((if_neg (parentsArePools_iff.mp hpar)).trans ((if_neg ?_).trans (if_pos hfull))))))
      · rw [hnone]
        exact Bool.false_ne_true
      · rintro ⟨hsome, he⟩
        rcases hne with hne | hne
        · rw [hne] at hsome
          cases hsome
        · exact hne he
end

section
/-! SUPPORT. An operation taken by a Tally Unit at rest that gathers no line, and runs at once (R5, R8). -/

namespace Sys2Proof.Machine

/-! ### One operation taken and run -/

theorem modOp_eq_single {s : State} {o : TallyOp} (h : s.tally.ops = [o]) (f : TallyOp → TallyOp) :
    s.modOp o.num f = { s with tally.ops := [f o] } := by
  have hops := modOp_single h f
  unfold State.modOp at hops ⊢
  dsimp only at hops
  rw [hops]

/-- The operation that a job taken by a Tally Unit at rest becomes. -/
def State.firstOp (s : State) (job : Job) : TallyOp :=
  { num := s.tally.nextOp, job := job, stage := .gathering, postings := [], ids := [], direct := [], outcome := none
    writes := [], noted := [] }

theorem pushOp_ops {s : State} (h : s.tally.ops = []) (job : Job) :
    (s.pushOp job []).tally.ops = [s.firstOp job] := by
  unfold State.pushOp
  dsimp only
  rw [h]
  rfl

/-- Where the one operation goes on as far as it can, and then waits or has ended, so does the Tally Unit. -/
theorem advance_single {u w : State} {o : TallyOp} (hop : u.sup.op = .standby ∨ u.sup.op = .active)
    (ho : u.tally.ops = [o]) (hpost : u.tally.postings = []) (hflush : u.tally.flushing = false)
    (hw : u.advanceOp o.num = w) (hwaits : w.tallyWaits) : u.advance = w := by
  have hwalk : u.walkWaits = false := by
    unfold State.walkWaits
    rcases hop with h | h <;> rw [h] <;> rfl
  have hops : u.advanceOps = w := by
    unfold State.advanceOps
    rw [ho]
    exact hw
  unfold State.advance
  rw [if_neg (by rw [hwalk]; exact Bool.false_ne_true)]
  dsimp only
  rw [castoutDirty_of_not_flushing hflush, takePosting_none hpost, ho]
  change ((iter 1 State.advanceOps u.advanceOps).castoutDirty).endModeSwitch = w
  rw [hops, iter_fixed (advanceOps_waits hwaits.1), castoutDirty_of_not_flushing hwaits.2.2.2,
    endModeSwitch_none hwaits.2.2.1]

/-- The end of the step is then that of the state so reached. -/
theorem finish_advanced {u w : State} {o : TallyOp} (hop : u.sup.op = .standby ∨ u.sup.op = .active)
    (ho : u.tally.ops = [o]) (hpost : u.tally.postings = []) (hflush : u.tally.flushing = false)
    (hw : u.advanceOp o.num = w) (hwaits : w.tallyWaits) (hrun : w.sup.op ≠ .halted) : u.finish = w.finish := by
  have hrunning : u.sup.op ≠ .halted := by rcases hop with h | h <;> rw [h] <;> decide
  rw [finish_waits hwaits hrun]
  unfold State.finish
  rw [if_neg hrunning, advance_single hop ho hpost hflush hw hwaits]

/-- An operation that has gathered, with no line to hold. -/
def TallyOp.lineless (o : TallyOp) : TallyOp := { o with ids := [], direct := [], stage := .ready }

theorem heldByOther_of_free {s : State} {num id : Nat} (h : s.lineHeld id = false) : s.heldByOther num id = false := by
  unfold State.lineHeld at h
  unfold State.heldByOther
  cases hx : s.line id with
  | none => rfl
  | some x =>
    rw [hx] at h
    have hnone : x.held = none := by simpa using h
    simp [hnone]

/-- An operation alone in its list, which names no line, is ready at once, where those lines that it must find free are
free (R25). -/
theorem gather_lineless {s : State} {o : TallyOp} (ho : s.tally.ops = [o]) (hst : o.stage = .gathering)
    (hids : o.ids = []) (hjob : s.jobIds o.job = []) (hpost : s.tally.postings = [])
    (hfree : ∀ i ∈ o.job.alone, s.lineHeld i = false) : s.gather o.num = { s with tally.ops := [o.lineless] } := by
  have hblocked : s.opBlocked o [] = false := by
    unfold State.opBlocked
    rw [hpost, List.any_nil, List.any_nil, Bool.false_or, Bool.false_or, List.any_eq_false]
    intro i hi
    have hdirect : s.directByOther o.num i = false := by
      unfold State.directByOther
      rw [ho]
      simp
    rw [heldByOther_of_free (hfree i hi), hdirect]
    exact Bool.false_ne_true
  have hgather : s.gatherIds o = [] := by
    unfold State.gatherIds
    rw [hids]
    exact hjob
  let v : State := { s with tally.ops := [{ o with ids := [], direct := beyondFour [] }] }
  have hnum : v.op o.num = some { o with ids := [], direct := beyondFour [] } :=
    op_single (s := v) (o := { o with ids := [], direct := beyondFour [] }) rfl
  have htake : v.takeNext o.num = v := by
    unfold State.takeNext
    rw [hnum]
    rfl
  have htook : s.tookLines o.num [] = v := by
    unfold State.tookLines
    rw [modOp_eq_single ho]
    exact iter_fixed htake 5
  have hready : v.readied o.num = { s with tally.ops := [o.lineless] } := by
    unfold State.readied
    rw [hnum]
    exact (if_pos rfl).trans (modOp_eq_single (s := v) (o := { o with ids := [], direct := beyondFour [] }) rfl _)
  rw [gather_eq (op_single ho) hst, hgather, hblocked, htook, hready]
  exact if_neg Bool.false_ne_true

theorem advanceOp_lineless {s : State} {o : TallyOp} (ho : s.tally.ops = [o]) (hst : o.stage = .gathering)
    (hids : o.ids = []) (hjob : s.jobIds o.job = []) (hpost : s.tally.postings = [])
    (hfree : ∀ i ∈ o.job.alone, s.lineHeld i = false) (hrun : o.job.runsAtOnce = true)
    (hcheck : State.runCheck { s with tally.ops := [o.lineless] } o.job = none) :
    s.advanceOp o.num = State.runOp { s with tally.ops := [o.lineless] } o.num := by
  unfold State.advanceOp
  rw [gather_lineless ho hst hids hjob hpost hfree]
  dsimp only
  have hop : State.op { s with tally.ops := [o.lineless] } o.num = some o.lineless :=
    op_single (s := { s with tally.ops := [o.lineless] }) (o := o.lineless) rfl
  rw [hop]
  dsimp only
  have hrun' : o.lineless.stage = .ready ∧ o.lineless.job.runsAtOnce = true := ⟨rfl, hrun⟩
  rw [if_pos hrun']
  have hcheck' : State.runCheck { s with tally.ops := [o.lineless] } o.lineless.job = none := hcheck
  rw [hcheck']

/-- The principals whose lazy expiry comes before an operation (R39). -/
def TallyOp.expiring (o : TallyOp) : List Nat :=
  match o.job with
  | .edit _ _ id c => if editLimits c then (id :: o.ids).eraseDups else o.ids
  | _ => o.ids

theorem runOp_eq {s : State} {o : TallyOp} (h : s.op o.num = some o) :
    s.runOp o.num =
      if ((s.lazyExpireAll o.expiring).marksFor o.job.settled ((s.lazyExpireAll o.expiring).changesOf o)).isEmpty then
        (s.lazyExpireAll o.expiring).applyOp o.num
      else (s.lazyExpireAll o.expiring).modOp o.num fun o => { o with stage := .marking } := by
  unfold State.runOp
  rw [h]
  rfl

/-- An operation of no change and no overdue member is applied at once. -/
theorem runOp_unchanging {s : State} {o : TallyOp} (ho : s.tally.ops = [o]) (hover : s.noneOverdue o.expiring)
    (hcs : s.changesOf o = []) : s.runOp o.num = ((s.opReleased o).jobApplied o).completeOp o.num := by
  have hmarks : (s.marksFor o.job.settled []).isEmpty = true := by
    unfold State.marksFor
    split <;> rfl
  rw [runOp_eq (op_single ho), lazyExpireAll_none hover, hcs, if_pos hmarks, applyOp_eq (op_single ho)]

/-- An operation whose records and grace are all that it tells the links of (R36). -/
theorem gains_opReleased {P : Vector LinkRec 6 → Prop} (k : LinksGain P) {s : State} (o : TallyOp)
    (hn : ∀ t : State, t.jobNotices o.job = t) (h : P s.links) : P (s.opReleased o).links := by
  have hstands : P (s.opStands o).links := by
    unfold State.opStands
    rw [hn]
    exact tallyLinks_applyChanges _ _ _ (tallyLinks_jobRecords _ h)
  refine tallyLinks_releaseLines _ _ (tallyLinks_modOp _ _ (tallyLinks_foldl _ _ (fun _ _ h => ?_) ?_))
  · exact tallyLinks_beginRecount _ h
  · exact tallyLinks_foldl _ _ (fun _ _ h => gains_evalGrace k _ h) hstands

theorem opWrites_nil {s : State} {o : TallyOp} (h : (s.opStands o).tally.writes = s.tally.writes) :
    s.opWrites o = [] := by
  unfold State.opWrites
  rw [h, List.drop_length, List.map_nil]

/-- A request's operation with no write left is answered DONE (R5, R8). -/
theorem completeOp_replies {t : State} {x : TallyOp} {l : Link} {r : Nat} (hx : t.tally.ops = [x]) (hw : x.writes = [])
    (hj : (∃ id, x.job = .delete l r id) ∨ ∃ id c, x.job = .edit l r id c) :
    t.completeOp x.num = (t.dropOp x.num).reply l r .done .none := by
  unfold State.completeOp
  rw [op_single hx]
  dsimp only
  rw [if_neg (fun h => h hw)]
  rcases hj with ⟨id, hj⟩ | ⟨id, c, hj⟩ <;> rw [hj]

/-- With no operation that gathers, none gathers anew. -/
theorem regather_gathered {s : State} {o : TallyOp} (ho : s.tally.ops = [o]) (hst : o.stage ≠ .gathering) (id : Nat) :
    s.regather id = s := by
  unfold State.regather State.regatherIf
  rw [ho]
  simp only [mapIf, hst, decide_false, Bool.false_and, List.any_cons, List.any_nil, Bool.or_false, Bool.false_eq_true,
    if_false, List.map_id', List.map_cons, List.map_nil]
  rw [← ho]

end Sys2Proof.Machine
end

section
/-! PROOF. Principal Delete (R8). -/

namespace Sys2Proof.Machine

section
variable {s : State} {l : Link} {id : Nat} {p : Principal}

theorem deleteCheck_inUse_iff (hp : s.prin id = some p) :
    s.deleteCheck id = some .inUse ↔ ((s.current id).1 ≠ 0 ∨ (s.current id).2 ≠ 0 ∨ p.active ≠ 0 ∨
      s.isUnsettled id = true ∨ (∃ x ∈ s.tally.postings, x.principal = id) ∨ (p.kind = .pool ∧ p.members ≠ 0) ∨
      id ∈ s.tally.recounts) := by
  unfold State.deleteCheck
  rw [hp]
  simp only [List.any_eq_true, beq_iff_eq, ite_eq_left_iff, reduceCtorEq, imp_false, not_not]

theorem deleteCheck_none (hp : s.prin id = some p) (h : ¬((s.current id).1 ≠ 0 ∨ (s.current id).2 ≠ 0 ∨ p.active ≠ 0 ∨
      s.isUnsettled id = true ∨ (∃ x ∈ s.tally.postings, x.principal = id) ∨ (p.kind = .pool ∧ p.members ≠ 0) ∨
      id ∈ s.tally.recounts)) : s.deleteCheck id = none := by
  unfold State.deleteCheck
  rw [hp]
  simp only [ite_eq_right_iff, reduceCtorEq, imp_false]
  simpa only [List.any_eq_true, beq_iff_eq] using h

theorem exec_principalDelete (tag : Nat) (h : s.takes l) :
    Machine.exec (.principalDelete l tag id) s =
      .next (State.finish (match s.deleteCheck id with
        | some st => (s.asked l tag .principalDelete).reply l s.sup.nextReq st .none
        | none => (s.asked l tag .principalDelete).pushOp (.delete l s.sup.nextReq id) [])) :=
  act_asked tag .principalDelete _ h (.inl rfl)

/-- The counts of the parents fall, and the record, its line and its castout entry are gone (R8). -/
theorem deletePrincipal_spec (hp : s.prin id = some p) (hc : p.course ≠ some id) (hd : p.dept ≠ some id)
    (hne : p.course = none ∨ p.course ≠ p.dept) :
    (s.deletePrincipal id).prin id = none ∧ (s.deletePrincipal id).line id = none ∧
      (s.deletePrincipal id).castoutOf id = none ∧
      (∀ q k, p.course = some q ∨ p.dept = some q → s.prin q = some k →
        (s.deletePrincipal id).prin q = some { k with members := k.members - 1 }) ∧
      ∀ k, k ≠ id → p.course ≠ some k → p.dept ≠ some k → (s.deletePrincipal id).prin k = s.prin k := by
  have hfold := modMembers_foldl_prin (· - 1) (parents_nodup hne) s
  have hother {k : Nat} (hk : k ≠ id) : (s.deletePrincipal id).prin k =
      ((p.course.toList ++ p.dept.toList).foldl (fun s pool => s.modMembers pool (· - 1)) s).prin k := by
    unfold State.deletePrincipal
    rw [hp]
    exact tget_tdel_ne _ (Ne.symm hk)
  refine ⟨?_, ?_, ?_, fun q k hq hk => ?_, fun k hk hkc hkd => ?_⟩
  · unfold State.deletePrincipal
    rw [hp]
    exact tget_tdel_self _ _
  · unfold State.deletePrincipal
    rw [hp]
    exact List.find?_eq_none.mpr fun x hx => by simpa using (List.mem_filter.mp hx).2
  · unfold State.deletePrincipal
    rw [hp]
    exact List.find?_eq_none.mpr fun x hx => by simpa using (List.mem_filter.mp hx).2
  · have hqid : q ≠ id := by
      rintro rfl
      exact hq.elim hc hd
    rw [hother hqid, hfold, if_pos (mem_parents.mpr hq), hk]
    rfl
  · rw [hother hk, hfold, if_neg fun hm => (mem_parents.mp hm).elim hkc hkd]

/-- What a deletion leaves of the Tally Unit, and of the rest of the part. -/
theorem deletePrincipal_eq (s : State) (id : Nat) : ∃ principals cache castout grace, s.deletePrincipal id =
    { s with tally := { s.tally with
      principals := principals, cache := cache, castout := castout, grace := grace } } := by
  unfold State.deletePrincipal
  split
  · exact ⟨s.tally.principals, s.tally.cache, s.tally.castout, s.tally.grace, rfl⟩
  · rename_i p hp
    dsimp only
    rw [modMembers_foldl_eq]
    exact ⟨_, _, _, _, rfl⟩

/-- A deletion ready to run stands as the record's deletion. -/
theorem opStands_delete {v : State} {o : TallyOp} {l : Link} {r : Nat} (ho : v.tally.ops = [o])
    (hst : o.stage ≠ .gathering) (hj : o.job = .delete l r id) : v.opStands o = v.deletePrincipal id := by
  obtain ⟨principals, cache, castout, grace, heq⟩ := deletePrincipal_eq v id
  have hops : (v.deletePrincipal id).tally.ops = [o] := by
    rw [heq]
    exact ho
  have hcs : v.changesOf o = [] := by
    unfold State.changesOf
    rw [hj]
  unfold State.opStands
  rw [hcs, hj]
  exact regather_gathered hops hst id

/-- What the deletion of a principal makes of a Tally Unit at rest. -/
theorem deleted_spec {u : State} {o : TallyOp} {l : Link} {r : Nat} (hop : u.sup.op = .standby ∨ u.sup.op = .active)
    (ho : u.tally.ops = [o]) (hst : o.stage = .gathering) (hids : o.ids = []) (hj : o.job = .delete l r id)
    (hpost : u.tally.postings = []) (hmode : u.tally.modeReply = []) (hflush : u.tally.flushing = false)
    (hfree : u.lineHeld id = false) (hcheck : u.deleteCheck id = none) :
    ∃ v t : State, v = { u with tally.ops := [o.lineless] } ∧ u.finish = (t.reply l r .done .none).finish ∧
      t.tallyStill ∧ (∀ k, t.prin k = (v.deletePrincipal id).prin k) ∧
      ((v.deletePrincipal id).line id = none → t.line id = none) ∧
      t.castoutOf id = (v.deletePrincipal id).castoutOf id ∧
      ∀ P : Vector LinkRec 6 → Prop, LinksGain P → P u.links → P t.links := by
  let v : State := { u with tally.ops := [o.lineless] }
  let x : TallyOp := o.lineless
  have hjob : x.job = .delete l r id := hj
  have hgone : v.opStands x = v.deletePrincipal id := opStands_delete rfl (fun h => nomatch h) hjob
  obtain ⟨principals, cache, castout, grace, heq⟩ := deletePrincipal_eq v id
  have hwrites : v.opWrites x = [] := opWrites_nil (by rw [hgone, heq])
  have hops : (v.opReleased x).tally.ops = [x.written []] := by
    rw [← hwrites]
    refine opReleased_ops ?_ rfl
    rw [hgone, heq]
  obtain ⟨hq1, hq2, hq3, hq4, -⟩ := opReleased_queues v x
  have hstill : ((v.opReleased x).dropOp x.num).tallyStill := by
    refine ⟨dropOp_single (o := x.written []) hops, hq1.trans ?_, hq2.trans ?_, hq3.trans ?_⟩ <;> rw [hgone, heq]
    · exact hpost
    · exact hmode
    · exact hflush
  have hcs : v.changesOf x = [] := by
    unfold State.changesOf
    rw [hjob]
  have hexp : x.expiring = [] := by
    unfold TallyOp.expiring
    rw [hjob]
    rfl
  have hgraced : v.opGraced x = { v.opStands x with tally.note := (v.opStands x).tally.note ++ notedOf [] } := by
    have hids : v.graceIds x = [] := by
      unfold State.graceIds
      rw [hcs, hjob]
      rfl
    unfold State.opGraced
    rw [hids, hwrites]
    rfl
  have happlied : (v.opReleased x).jobApplied x = v.opReleased x := by
    unfold State.jobApplied
    rw [hjob]
  have hrun : u.advanceOp o.num = ((v.opReleased x).dropOp x.num).reply l r .done .none := by
    rw [advanceOp_lineless ho hst hids (by rw [hj]; rfl) hpost ?_ (by rw [hj]; rfl) ?_]
    · refine (runOp_unchanging (s := v) (o := x) rfl (by rw [hexp]; exact fun i hi => nomatch hi) hcs).trans ?_
      rw [happlied]
      exact completeOp_replies (x := x.written []) hops rfl (.inl ⟨id, hjob⟩)
    · intro i hi
      rw [hj] at hi
      rw [List.mem_singleton.mp hi]
      exact hfree
    · rw [hj]
      change (u.deleteCheck id).map _ = none
      rw [hcheck]
      rfl
  refine ⟨v, (v.opReleased x).dropOp x.num, rfl, ?_, hstill, fun k => ?_, fun hl => ?_, ?_, fun P k hP => ?_⟩
  · refine finish_advanced hop ho hpost hflush hrun ⟨?_, hstill.2⟩ ?_
    · intro y hy
      rw [State.reply_tally, hstill.1] at hy
      cases hy
    · have hsup := (opReleased_sup v x).1.1
      have hop' : (v.opReleased x).sup.op = u.sup.op := by
        rw [hsup, hgone, heq]
      change (v.opReleased x).sup.op ≠ .halted
      rw [hop']
      rcases hop with h | h <;> rw [h] <;> decide
  · refine (opReleased_prin v x k).trans ?_
    rw [hgraced, hgone]
    rfl
  · refine (line_releaseLines _ _ _ _).trans ?_
    rw [beginRecounts_eq]
    change ((v.opGraced x).line id).map _ = none
    rw [hgraced, hgone]
    change ((v.deletePrincipal id).line id).map _ = none
    rw [hl]
    rfl
  · change State.castoutOf (v.opReleased x) id = _
    rw [State.castoutOf, hq4, hgone]
    rfl
  · refine gains_opReleased k x (fun t => ?_) hP
    rw [hjob]
    rfl

end

end Sys2Proof.Machine

open Sys2Proof Sys2Proof.Machine

/-- Settles O26. -/
theorem principalDeleteFreesTheRecord : Obligations.PrincipalDeleteFreesTheRecord := by
  refine ⟨?_, ?_, ?_⟩
  · intro s l tag id p h ht hp hheld hcur hact huns hpool hrec hcid hdid hne
    have hcheck : s.deleteCheck id = none := by
      refine deleteCheck_none hp ?_
      rw [hcur, hact, huns, ht.2.1]
      simpa using ⟨hpool, hrec⟩
    let u := (s.asked l tag .principalDelete).pushOp (.delete l s.sup.nextReq id) []
    obtain ⟨v, t, hv, hfin, hstill, hprin, hline, hcast, hgains⟩ := deleted_spec (u := u) (id := id)
      (o := (s.asked l tag .principalDelete).firstOp (.delete l s.sup.nextReq id)) h.1 (pushOp_ops ht.1 _) rfl rfl rfl
      ht.2.1 ht.2.2.1 ht.2.2.2 hheld hcheck
    have hvprin (k : Nat) : v.prin k = s.prin k := by
      rw [hv]
      rfl
    obtain ⟨hgone, hnoline, hnocast, hparents, hothers⟩ :=
      deletePrincipal_spec (s := v) ((hvprin id).trans hp) hcid hdid hne
    have htally : (t.reply l s.sup.nextReq .done .none).finish.tally = t.tally :=
      finish_tally (s := State.reply _ _ _ _ _) hstill
    refine ⟨(t.reply l s.sup.nextReq .done .none).finish, ?_, ?_, ?_, ?_, ?_, fun q k hq hk => ?_, fun k hk hkc hkd => ?_⟩
    · rw [exec_principalDelete tag h, hcheck]
      exact congrArg Host.Outcome.next hfin
    · exact answered_finish .done .none h ((entered_asked s l tag .principalDelete).gains hgains)
    · simp only [State.prin, htally]
      exact (hprin id).trans hgone
    · simp only [State.line, htally]
      exact hline hnoline
    · simp only [State.castoutOf, htally]
      exact hcast.trans hnocast
    · simp only [State.prin, htally]
      exact (hprin q).trans (hparents q k hq ((hvprin q).trans hk))
    · simp only [State.prin, htally]
      exact (hprin k).trans ((hothers k hk hkc hkd).trans (hvprin k))
  · intro s l tag id p h hp hwhy
    refine ⟨s.replied l tag .principalDelete .inUse .none, ?_, answered_replied tag _ _ _ h, spared_replied tag _ _ _ h⟩
    rw [exec_principalDelete tag h, (deleteCheck_inUse_iff hp).mpr hwhy]
    rfl
  · intro s l tag id h hp
    have hcheck : s.deleteCheck id = some .unknownPrincipal := by
      unfold State.deleteCheck
      rw [hp]
    refine ⟨s.replied l tag .principalDelete .unknownPrincipal .none, ?_, answered_replied tag _ _ _ h,
      spared_replied tag _ _ _ h⟩
    rw [exec_principalDelete tag h, hcheck]
    rfl
end

section
/-! SUPPORT. An operation whose lines are resident and free gathers them all at once (R9, R25). -/

namespace Sys2Proof.Machine

/-- The lines of some principals held by an operation, the only one, with no castout entry. -/
def State.holding (s : State) (o : TallyOp) (hs : List Nat) : State :=
  { s with
    tally.cache := mapIf (fun x => hs.contains x.id) (fun x => { x with held := some o.num }) s.tally.cache
    tally.castout := []
    tally.ops := [o] }

/-- The lines of some principals are resident, filled, and held by no operation. -/
def State.freeLines (s : State) (ids : List Nat) : Prop :=
  ∀ i ∈ ids, ∃ x, s.line i = some x ∧ x.held = none ∧ x.filling = false

section
variable {s : State} {o : TallyOp} {hs ids : List Nat}

theorem holding_line (s : State) (o : TallyOp) (hs : List Nat) (i : Nat) : (s.holding o hs).line i =
    (s.line i).map fun x => if hs.contains x.id then { x with held := some o.num } else x :=
  find_mapIf _ (fun x => { x with held := some o.num }) (fun _ => rfl) i

theorem holding_current (h : s.tally.castout = []) (o : TallyOp) (hs : List Nat) (i : Nat) :
    (s.holding o hs).current i = s.current i := by
  have hcast : (s.holding o hs).castoutOf i = s.castoutOf i := by
    rw [State.castoutOf, State.castoutOf, h]
    rfl
  have hstored : (s.holding o hs).stored i = s.stored i := rfl
  simp only [State.current, holding_line, hcast, hstored]
  cases s.line i with
  | none => rfl
  | some x =>
    simp only [Option.map_some]
    split <;> rfl

theorem holding_holds (h : s.freeLines ids) {i : Nat} (hi : i ∈ ids) :
    (s.holding o hs).holds o.num i = hs.contains i := by
  obtain ⟨x, hx, hheld, -⟩ := h i hi
  unfold State.holds
  rw [holding_line, hx, Option.map_some, (line_find_id hx).1]
  cases hc : hs.contains i <;> simp [hheld]

theorem holding_more (s : State) (o : TallyOp) (hs group : List Nat) :
    { s.holding o hs with
      tally.cache := mapIf (fun x => group.contains x.id) (fun x => { x with held := some o.num })
        (s.holding o hs).tally.cache
      tally.castout := [] } = s.holding o (hs ++ group) := by
  have hcache : mapIf (fun x => group.contains x.id) (fun x => { x with held := some o.num })
      (s.holding o hs).tally.cache = (s.holding o (hs ++ group)).tally.cache := by
    simp only [State.holding, mapIf, List.map_map]
    refine List.map_congr_left fun x _ => ?_
    simp only [Function.comp_apply, List.contains_eq_mem, decide_eq_true_eq, List.mem_append]
    by_cases h1 : x.id ∈ hs <;> by_cases h2 : x.id ∈ group <;> simp [h1, h2]
  rw [hcache]
  rfl

theorem holding_congr (s : State) (o : TallyOp) {hs ids : List Nat} (h : ∀ i, i ∈ hs ↔ i ∈ ids) :
    s.holding o hs = s.holding o ids := by
  have hc : (fun x : Line => hs.contains x.id) = fun x => ids.contains x.id := by
    funext x
    simp [h]
  unfold State.holding
  rw [hc]

/-- Where a group's lines are all resident, and no other operation holds one, they are held, and nothing is evicted
(R9). -/
theorem takeSet_resident {u : State} {num : Nat} {group : List Nat}
    (hg : ∀ i ∈ group, ∃ x, u.line i = some x ∧ (x.held = none ∨ x.held = some num)) (hcast : u.tally.castout = []) :
    u.takeSet num group =
      { u with
        tally.cache := mapIf (fun x => group.contains x.id) (fun x => { x with held := some num }) u.tally.cache
        tally.castout := [] } := by
  have hneed : group.filter (fun i => (u.line i).isNone) = [] := by
    refine List.filter_eq_nil_iff.mpr fun i hi hn => ?_
    obtain ⟨x, hx, -⟩ := hg i hi
    rw [hx] at hn
    cases hn
  have hres : (group.filter fun i => (u.line i).isSome).any
      (fun i => u.heldByOther num i || (u.castoutOf i).isSome) = false := by
    refine List.any_eq_false.mpr fun i hi => ?_
    obtain ⟨x, hx, hheld⟩ := hg i (List.mem_of_mem_filter hi)
    have hnocast : u.castoutOf i = none := by
      rw [State.castoutOf, hcast]
      rfl
    unfold State.heldByOther
    rw [hx, hnocast]
    rcases hheld with h | h <;> simp [h]
  unfold State.takeSet
  dsimp only
  rw [hneed, hres, hcast]
  simp only [List.length_nil, Nat.zero_sub, List.take_zero, List.filter_nil, List.any_nil, Bool.false_eq_true,
    Nat.not_lt_zero, Nat.add_zero, or_self, if_false, Bool.not_false, List.filter_true, List.map_nil, List.nil_append]

/-- One step of the gathering: the lines of one more set, where a line is wanted (R9). -/
theorem takeNext_holding (hd : o.direct = []) (h : s.freeLines o.ids) (hs : List Nat) :
    (∀ i ∈ o.ids, i ∈ hs) ∧ (s.holding o hs).takeNext o.num = s.holding o hs ∨
      ∃ group, (∀ i ∈ group, i ∈ o.ids) ∧ (∃ i ∈ o.ids, i ∉ hs ∧ i ∈ group) ∧
        (s.holding o hs).takeNext o.num = s.holding o (hs ++ group) := by
  have hop : (s.holding o hs).op o.num = some o := op_single (s := s.holding o hs) rfl
  have hwanted : (o.ids.filter fun i => !(o.direct.contains i)) = o.ids := by
    rw [hd]
    exact List.filter_eq_self.mpr fun _ _ => rfl
  have hunheld : (o.ids.filter fun i => !((s.holding o hs).holds o.num i)) = o.ids.filter fun i => !(hs.contains i) :=
    List.filter_congr fun i hi => by rw [holding_holds h hi]
  unfold State.takeNext
  rw [hop]
  dsimp only
  rw [hwanted, hunheld]
  cases hsort : sortNat ((o.ids.filter fun i => !(hs.contains i)).map setOf) with
  | nil =>
    refine .inl ⟨fun i hi => ?_, rfl⟩
    by_contra hn
    have hmem : setOf i ∈ sortNat ((o.ids.filter fun i => !(hs.contains i)).map setOf) := by
      refine mem_sortNat.mpr (List.mem_map_of_mem (List.mem_filter.mpr ⟨hi, ?_⟩))
      simpa using hn
    rw [hsort] at hmem
    cases hmem
  | cons k ks =>
    have hk : k ∈ sortNat ((o.ids.filter fun i => !(hs.contains i)).map setOf) := by
      rw [hsort]
      exact List.mem_cons_self
    obtain ⟨i, hi, hset⟩ := List.mem_map.mp (mem_sortNat.mp hk)
    obtain ⟨him, hin⟩ := List.mem_filter.mp hi
    refine .inr ⟨o.ids.filter fun i => setOf i == k, fun j hj => List.mem_of_mem_filter hj,
      ⟨i, him, by simpa using hin, List.mem_filter.mpr ⟨him, by simpa using hset⟩⟩, ?_⟩
    dsimp only
    rw [takeSet_resident (fun j hj => ?_) rfl]
    · exact holding_more s o hs _
    · obtain ⟨x, hx, hheld, -⟩ := h j (List.mem_of_mem_filter hj)
      refine ⟨_, (holding_line s o hs j).trans (congrArg _ hx), ?_⟩
      by_cases hc : hs.contains x.id = true
      · exact .inr (by dsimp only; rw [if_pos hc])
      · exact .inl (by dsimp only; rw [if_neg hc]; exact hheld)

/-- Each step takes one more wanted line at least, so as many steps as lines are wanted take all. -/
theorem takeNexts_holding (hd : o.direct = []) (h : s.freeLines o.ids) (n : Nat) (hs : List Nat)
    (hn : (o.ids.filter fun i => !(hs.contains i)).length ≤ n) (hin : ∀ i ∈ hs, i ∈ o.ids) :
    iter n (fun u => u.takeNext o.num) (s.holding o hs) = s.holding o o.ids := by
  induction n generalizing hs with
  | zero =>
    refine holding_congr s o fun i => ⟨hin i, fun hi => ?_⟩
    by_contra hc
    have hmem : i ∈ o.ids.filter fun i => !(hs.contains i) := List.mem_filter.mpr ⟨hi, by simpa using hc⟩
    rw [List.eq_nil_of_length_eq_zero (Nat.le_zero.mp hn)] at hmem
    cases hmem
  | succ n ih =>
    rw [iter]
    rcases takeNext_holding hd h hs with ⟨hall, heq⟩ | ⟨group, hgroup, ⟨i, hi, hnot, hmem⟩, heq⟩
    · rw [heq]
      refine ih hs ?_ hin
      have hnone : (o.ids.filter fun i => !(hs.contains i)) = [] :=
        List.filter_eq_nil_iff.mpr fun i hi => by simpa using hall i hi
      rw [hnone]
      exact Nat.zero_le n
    · rw [heq]
      refine ih (hs ++ group) ?_ fun j hj => (List.mem_append.mp hj).elim (hin j) (hgroup j)
      have hfewer : (o.ids.filter fun i => !((hs ++ group).contains i)) =
          (o.ids.filter fun i => !(hs.contains i)).filter fun i => !(group.contains i) := by
        rw [List.filter_filter]
        refine List.filter_congr fun j _ => ?_
        simp [List.mem_append, Bool.and_comm]
      have hlt : ((o.ids.filter fun i => !(hs.contains i)).filter fun i => !(group.contains i)).length <
          (o.ids.filter fun i => !(hs.contains i)).length :=
        List.length_filter_lt_length_iff_exists.mpr
          ⟨i, List.mem_filter.mpr ⟨hi, by simpa using hnot⟩, by simpa using hmem⟩
      rw [hfewer]
      omega

theorem beyondFour_short {ids : List Nat} (h : ids.length ≤ 4) : beyondFour ids = [] := by
  unfold beyondFour
  refine List.filterMap_eq_nil_iff.mpr fun i hi => if_neg fun hfour => ?_
  have h1 := List.length_filter_le (fun j => setOf j == setOf (ids[i]?.getD 0)) (ids.take i)
  have h2 := List.length_take_le i ids
  have h3 := List.mem_range.mp hi
  omega

/-- An operation whose lines are held and filled, ready to run. -/
def TallyOp.gathered (o : TallyOp) (ids : List Nat) : TallyOp := { o with ids := ids, direct := [], stage := .ready }

/-- An operation alone in its list whose lines are resident and free holds them all, and is ready (R25). -/
theorem gather_resident (ho : s.tally.ops = [o]) (hst : o.stage = .gathering) (hids : s.gatherIds o = ids)
    (hblock : s.opBlocked o ids = false) (hlen : ids.length ≤ 4) (h : s.freeLines ids) (hcast : s.tally.castout = []) :
    s.gather o.num = s.holding (o.gathered ids) ids := by
  let x : TallyOp := { o with ids := ids, direct := beyondFour ids }
  have hstart : s.modOp o.num (fun o => { o with ids := ids, direct := beyondFour ids }) = s.holding x [] := by
    rw [modOp_eq_single ho]
    have hcache : mapIf (fun y : Line => ([] : List Nat).contains y.id) (fun y => { y with held := some x.num })
        s.tally.cache = s.tally.cache := by
      simp [mapIf]
    unfold State.holding
    rw [hcache, ← hcast]
  have htook : s.tookLines o.num ids = s.holding x ids := by
    unfold State.tookLines
    rw [hstart]
    refine takeNexts_holding (o := x) (beyondFour_short hlen) h 5 [] ?_ (fun i hi => nomatch hi)
    exact Nat.le_trans (List.length_filter_le _ _) (Nat.le_succ_of_le hlen)
  have hop : (s.holding x ids).op o.num = some x := op_single (s := s.holding x ids) (o := x) rfl
  have hall : (s.holding x ids).opGathered x = true := by
    unfold State.opGathered
    refine List.all_eq_true.mpr fun i hi => ?_
    obtain ⟨y, hy, -, hfill⟩ := h i hi
    have hdirect : x.direct.contains i = false := by
      change (beyondFour ids).contains i = false
      rw [beyondFour_short hlen]
      rfl
    have hfilled : (match (s.holding x ids).line i with
        | some x => !x.filling
        | none => false) = true := by
      rw [holding_line, hy, Option.map_some]
      dsimp only
      split <;> simp [hfill]
    rw [hdirect, if_neg Bool.false_ne_true, holding_holds h hi]
    exact Bool.and_eq_true_iff.mpr ⟨by simpa using hi, hfilled⟩
  rw [gather_eq (op_single ho) hst, hids, hblock, if_neg Bool.false_ne_true, htook]
  unfold State.readied
  rw [hop]
  dsimp only
  rw [if_pos hall, modOp_eq_single (s := s.holding x ids) (o := x) rfl]
  have hdone : ({ x with stage := .ready } : TallyOp) = o.gathered ids := by
    change ({ o with ids := ids, direct := beyondFour ids, stage := .ready } : TallyOp) = _
    rw [beyondFour_short hlen]
    rfl
  rw [hdone]
  rfl

end

end Sys2Proof.Machine
end

section
/-! PROOF. Principal Edit (R5, R6, R41). -/

namespace Sys2Proof.Machine

/-! ### Grace after an edit -/

section
variable {s : State} {id : Nat} {p : Principal}

/-- What an evaluation of grace makes of the record it evaluates (R36, R41). -/
theorem evalGrace_spec (hp : s.prin id = some p) :
    ∃ g, (s.evalGrace id).prin id = some { p with grace := g } ∧ (s.aboveSoft id p = false → g = .within) ∧
      (s.aboveSoft id p = true → (p.grace ≠ .within → g = p.grace) ∧
        (p.grace = .within → (s.classOf p.cls).grace = 0 → g = .expired) ∧
        (p.grace = .within → (s.classOf p.cls).grace ≠ 0 → s.tally.grace.length < 8192 →
          g = .grace (deadlineAfter s.sup.clock (s.classOf p.cls).grace) true)) := by
  have hset (t : State) (g : Grace) (ht : t.prin id = some p) :
      (t.setGrace id g).prin id = some { p with grace := g } := by
    rw [State.setGrace, State.prin_modPrin, ht]
    rfl
  have hstay : s.prin id = some { p with grace := p.grace } := hp
  cases hg : p.grace with
  | within =>
    rw [evalGrace_within hp hg]
    cases ha : s.aboveSoft id p with
    | false => exact ⟨.within, by rw [if_neg Bool.false_ne_true, ← hg]; exact hstay, fun _ => rfl, fun h => (nomatch h)⟩
    | true =>
      rw [if_pos rfl]
      by_cases hz : (s.classOf p.cls).grace = 0
      · rw [if_pos hz]
        refine ⟨.expired, ?_, fun h => (nomatch h), fun _ => ⟨fun h => absurd rfl h, fun _ _ => rfl, fun _ h => absurd hz h⟩⟩
        simp only [State.prin, raise_tally]
        exact hset s .expired hp
      · rw [if_neg hz]
        have hrec := (graceOnly_enterGrace s id (deadlineAfter s.sup.clock (s.classOf p.cls).grace)).prins id
        rw [hp, Option.map_some] at hrec
        obtain ⟨q, hq, hsame⟩ := Option.map_eq_some_iff.mp hrec
        have hqp : q = { p with grace := q.grace } := by
          cases q
          cases p
          simp only [Principal.ungraced, Principal.mk.injEq] at hsame ⊢
          simp [hsame]
        refine ⟨q.grace, by rw [hq, ← hqp], fun h => (nomatch h), fun _ => ⟨fun h => absurd rfl h, fun _ h => absurd h hz,
          fun _ _ hroom => ?_⟩⟩
        unfold State.enterGrace at hq
        dsimp only at hq
        have hroom' : s.tally.grace.length < Config.graceQueueSize := hroom
        rw [if_pos hroom', hset _ _ (by exact hp), Option.some.injEq] at hq
        rw [← hq]
  | grace d b =>
    rw [evalGrace_grace hp hg]
    cases ha : s.aboveSoft id p with
    | false =>
      rw [if_neg Bool.false_ne_true]
      exact ⟨.within, hset _ _ (by exact hp), fun _ => rfl, fun h => (nomatch h)⟩
    | true =>
      rw [if_pos rfl]
      exact ⟨.grace d b, by rw [← hg]; exact hstay, fun h => (nomatch h), fun _ => ⟨fun _ => rfl, fun h => (nomatch h),
        fun h => (nomatch h)⟩⟩
  | expired =>
    rw [evalGrace_expired hp hg]
    cases ha : s.aboveSoft id p with
    | false =>
      rw [if_neg Bool.false_ne_true]
      exact ⟨.within, hset _ _ hp, fun _ => rfl, fun h => (nomatch h)⟩
    | true =>
      rw [if_pos rfl]
      exact ⟨.expired, by rw [← hg]; exact hstay, fun h => (nomatch h), fun _ => ⟨fun _ => rfl, fun h => (nomatch h),
        fun h => (nomatch h)⟩⟩

end

/-! ### An edit of class and limits -/

/-- The record that an edit leaves, before grace is evaluated (R5). -/
def Principal.edited (p : Principal) (c : EditChanges) : Principal :=
  { p with
    cls := c.cls.getD p.cls, soft := newField c.soft p.soft, hard := newField c.hard p.hard
    course := newField c.course p.course, dept := newField c.dept p.dept }

section
variable {s : State} {l : Link} {id : Nat} {p : Principal} {c : EditChanges}

theorem exec_principalEdit (tag : Nat) (h : s.takes l) (hr : editLimits c = false ∨ s.role l = .console)
    (hn : (s.link l).hold = none ∨ editLimits c = false) :
    Machine.exec (.principalEdit l tag id c) s =
      .next (State.finish (match s.editCheck id c with
        | some st => (s.asked l tag .principalEdit).reply l s.sup.nextReq st .none
        | none => (s.asked l tag .principalEdit).pushOp (.edit l s.sup.nextReq id c) [])) := by
  refine (act_asked tag .principalEdit _ h hr).trans (congrArg Host.Outcome.next (congrArg State.finish ?_))
  have hcheck : (s.asked l tag .principalEdit).editCheck id c = s.editCheck id c := rfl
  rw [hcheck]
  cases s.editCheck id c with
  | some st => rfl
  | none =>
    rw [asked_link]
    dsimp only
    rcases hn with hn | hn
    · rw [hn]
    · rw [hn]
      cases (s.link l).hold <;> rfl

theorem exec_principalEdit_unknown (tag : Nat) (h : s.takes l) (hr : s.role l = .console) (hp : s.prin id = none) :
    Machine.exec (.principalEdit l tag id c) s = .next (s.replied l tag .principalEdit .unknownPrincipal .none) := by
  refine (act_asked tag .principalEdit _ h (.inr hr)).trans (congrArg Host.Outcome.next ?_)
  have hcheck : (s.asked l tag .principalEdit).editCheck id c = some .unknownPrincipal := by
    unfold State.editCheck
    have hp' : (s.asked l tag .principalEdit).prin id = none := hp
    rw [hp']
  rw [hcheck]
  rfl

/-- An edit of class and limits in their ranges passes its checks (R5). -/
theorem editCheck_limits (hp : s.prin id = some p) (hc : c.course = .keep) (hd : c.dept = .keep)
    (hcls : ∀ k, c.cls = some k → k ≤ 63) (hsoft : ∀ n, c.soft = .put n → 1 ≤ n ∧ n ≤ maxTally)
    (hhard : ∀ n, c.hard = .put n → 1 ≤ n ∧ n ≤ maxTally)
    (hord : ∀ a b, newField c.soft p.soft = some a → newField c.hard p.hard = some b → a ≤ b) :
    s.editCheck id c = none := by
  have hmoves : editMoves c = false := by
    unfold editMoves
    rw [hc, hd]
    rfl
  have hfits {f : FieldChange} (hf : ∀ n, f = .put n → 1 ≤ n ∧ n ≤ maxTally) : limitFits (givenField f) = true := by
    refine limitFits_iff.mpr fun n hn => ?_
    cases f with
    | keep => cases hn
    | remove => cases hn
    | put v =>
      simp only [givenField, Option.some.injEq] at hn
      exact hf n (by rw [hn])
  have hclsin : ¬(match c.cls with
      | some k => decide (63 < k)
      | none => false) = true := by
    cases hk : c.cls with
    | none => exact Bool.false_ne_true
    | some k => simpa using hcls k hk
  unfold State.editCheck
  rw [hp]
  dsimp only
  rw [hmoves, hfits hsoft, hfits hhard, limitsOrdered_iff.mpr hord, hc, hd]
  refine (if_neg (fun h => Bool.false_ne_true h.1)).trans ((if_neg ?_).trans ((if_neg ?_).trans (if_neg ?_)))
  · rintro (h | h | h | h)
    · exact hclsin h
    · cases h
    · cases h
    · cases h
  · rintro (h | h) <;> cases h
  · rintro ⟨-, -, h⟩
    cases h

/-- An edit without a move writes the fields given alone (R5). -/
theorem opStands_edit {v : State} {o : TallyOp} {r : Nat} (hp : v.prin id = some p) (hj : o.job = .edit l r id c)
    (hc : c.course = .keep) (hd : c.dept = .keep) : v.opStands o = v.writeEdit id c := by
  have hmoves : editMoves c = false := by
    unfold editMoves
    rw [hc, hd]
    rfl
  have hcs : v.changesOf o = [] := by
    unfold State.changesOf
    rw [hj]
    dsimp only
    rw [hp]
    dsimp only
    rw [hmoves]
    rfl
  have hcounts : v.moveCounts p id c = v := by
    unfold State.moveCounts Principal.leaves Principal.joins
    rw [hc, hd]
    simp [newField]
  unfold State.opStands
  rw [hcs, hj]
  unfold State.jobRecords State.jobNotices
  dsimp only
  rw [hp]
  dsimp only
  rw [hcounts, hmoves]
  rfl

/-- What an edit of class and limits makes of a Tally Unit at rest. -/
theorem edited_spec {u : State} {o : TallyOp} {r : Nat} (hop : u.sup.op = .standby ∨ u.sup.op = .active)
    (ho : u.tally.ops = [o]) (hst : o.stage = .gathering) (hids : o.ids = []) (hj : o.job = .edit l r id c)
    (hpost : u.tally.postings = []) (hmode : u.tally.modeReply = []) (hflush : u.tally.flushing = false)
    (hfree : u.lineHeld id = false) (hover : u.overdue id = false) (hp : u.prin id = some p)
    (hcheck : u.editCheck id c = none) (hc : c.course = .keep) (hd : c.dept = .keep) :
    ∃ v t : State, v = { u with tally.ops := [o.lineless] } ∧ u.finish = (t.reply l r .done .none).finish ∧
      t.tallyStill ∧ (∀ k, t.prin k = (if v.softChanges id c then (v.writeEdit id c).evalGrace id
        else v.writeEdit id c).prin k) ∧ t.current id = u.current id ∧
      ∀ P : Vector LinkRec 6 → Prop, LinksGain P → P u.links → P t.links := by
  let v : State := { u with tally.ops := [o.lineless] }
  let x : TallyOp := o.lineless
  have hjob : x.job = .edit l r id c := hj
  have hvp : v.prin id = some p := hp
  have hmoves : editMoves c = false := by
    unfold editMoves
    rw [hc, hd]
    rfl
  have hedit : v.opStands x = v.writeEdit id c := opStands_edit hvp hjob hc hd
  have hwrites : v.opWrites x = [] := opWrites_nil (by rw [hedit]; rfl)
  have hops : (v.opReleased x).tally.ops = [x.written []] := by
    rw [← hwrites]
    exact opReleased_ops (by rw [hedit]; rfl) rfl
  obtain ⟨hq1, hq2, hq3, hq4, -⟩ := opReleased_queues v x
  have hstill : ((v.opReleased x).dropOp x.num).tallyStill := by
    refine ⟨dropOp_single (o := x.written []) hops, hq1.trans ?_, hq2.trans ?_, hq3.trans ?_⟩ <;> rw [hedit]
    · exact hpost
    · exact hmode
    · exact hflush
  have hcs : v.changesOf x = [] := by
    unfold State.changesOf
    rw [hjob]
    dsimp only
    rw [hvp]
    dsimp only
    rw [hmoves]
    rfl
  have hexp : v.noneOverdue x.expiring := by
    intro i hi
    have hmem : i = id := by
      unfold TallyOp.expiring at hi
      rw [hjob] at hi
      dsimp only at hi
      split at hi
      · exact List.mem_singleton.mp hi
      · cases hi
    rw [hmem]
    exact hover
  have hgraced : v.opGraced x = State.evalGraceAll
      { v.writeEdit id c with tally.note := (v.writeEdit id c).tally.note ++ [] }
      (if v.softChanges id c then [id] else []) := by
    have hgids : v.graceIds x = if v.softChanges id c then [id] else [] := by
      unfold State.graceIds
      rw [hcs, hjob]
      exact List.append_nil _
    unfold State.opGraced
    rw [hgids, hwrites, hedit]
    rfl
  have hnote : { v.writeEdit id c with tally.note := (v.writeEdit id c).tally.note ++ [] } = v.writeEdit id c := by
    rw [List.append_nil]
  rw [hnote] at hgraced
  have happlied : (v.opReleased x).jobApplied x = v.opReleased x := by
    unfold State.jobApplied
    rw [hjob]
  have hjobIds : u.jobIds o.job = [] := by
    unfold State.jobIds State.jobChain
    rw [hj]
    dsimp only
    rw [hp]
    dsimp only
    rw [hmoves]
    rfl
  have hrun : u.advanceOp o.num = ((v.opReleased x).dropOp x.num).reply l r .done .none := by
    rw [advanceOp_lineless ho hst hids hjobIds hpost ?_ (by rw [hj]; rfl) ?_]
    · refine (runOp_unchanging (s := v) (o := x) rfl hexp hcs).trans ?_
      rw [happlied]
      exact completeOp_replies (x := x.written []) hops rfl (.inr ⟨id, c, hjob⟩)
    · intro i hi
      rw [hj] at hi
      rw [List.mem_singleton.mp hi]
      exact hfree
    · rw [hj]
      change (u.editCheck id c).map _ = none
      rw [hcheck]
      rfl
  refine ⟨v, (v.opReleased x).dropOp x.num, rfl, ?_, hstill, fun k => ?_, ?_, fun P k hP => ?_⟩
  · refine finish_advanced hop ho hpost hflush hrun ⟨?_, hstill.2⟩ ?_
    · intro y hy
      rw [State.reply_tally, hstill.1] at hy
      cases hy
    · have hsup := (opReleased_sup v x).1.1
      have hop' : (v.opReleased x).sup.op = u.sup.op := by
        rw [hsup, hedit]
        rfl
      change (v.opReleased x).sup.op ≠ .halted
      rw [hop']
      rcases hop with h | h <;> rw [h] <;> decide
  · refine (opReleased_prin v x k).trans ?_
    rw [hgraced]
    split <;> rfl
  · refine (opReleased_current v x id).trans ?_
    rw [hedit]
    exact current_modPrin_of v id (f := fun q => q.edited c) (fun _ => rfl) id
  · refine gains_opReleased k x (fun t => ?_) hP
    rw [hjob]
    rfl

end

/-! ### A move between pools -/

/-- The changes of an edit that moves a person into a course pool alone. -/
def movedInto (b : Nat) : EditChanges := { cls := none, soft := .keep, hard := .keep, course := .put b, dept := .keep }

section
variable {s : State} {l : Link} {id a b : Nat} {p ka kb : Principal} {o : TallyOp}

theorem leaves_movedInto (hc : p.course = some a) (hab : a ≠ b) : p.leaves (movedInto b) = [a] := by
  unfold Principal.leaves movedInto newField
  rw [hc]
  simp [Ne.symm hab]

theorem joins_movedInto (hc : p.course = some a) (hab : a ≠ b) : p.joins (movedInto b) = [b] := by
  unfold Principal.joins movedInto newField
  rw [hc]
  simp [Ne.symm hab]

/-- A move into a pool passes its checks (R6). -/
theorem editCheck_movedInto (hp : s.prin id = some p) (hk : p.kind = .person) (hd : p.dept ≠ some b)
    (hb : s.prin b = some kb) (hkb : kb.kind = .pool) (hord : ∀ x y, p.soft = some x → p.hard = some y → x ≤ y) :
    s.editCheck id (movedInto b) = none := by
  unfold State.editCheck
  rw [hp]
  refine (if_neg fun h => ?_).trans ((if_neg ?_).trans ((if_neg ?_).trans (if_neg ?_)))
  · rw [hk] at h
    cases h.2
  · rintro (h | h | h | h)
    · cases h
    · cases h
    · cases h
    · change limitsOrdered p.soft p.hard = false at h
      rw [limitsOrdered_iff.mpr hord] at h
      cases h
  · have hpool : s.isPool (some b) = true := isPool_iff.mpr fun q hq => by
      rw [← Option.some.inj hq]
      exact ⟨kb, hb, hkb⟩
    rintro (h | h)
    · change s.isPool (some b) = false at h
      rw [hpool] at h
      cases h
    · cases h
  · rintro ⟨-, h, -⟩
    exact hd h.symm

theorem jobIds_movedInto {r : Nat} (hp : s.prin id = some p) (hc : p.course = some a) (hn : [id, a, b].Nodup)
    (hall : ∀ i ∈ [id, a, b], (s.prin i).isSome = true) : s.jobIds (.edit l r id (movedInto b)) = [id, a, b] := by
  have hab : a ≠ b := by
    rintro rfl
    simp at hn
  have hchain : s.jobChain (.edit l r id (movedInto b)) = [id, a, b] := by
    unfold State.jobChain
    dsimp only
    rw [hp]
    dsimp only
    rw [leaves_movedInto hc hab, joins_movedInto hc hab, if_pos (by rfl)]
    simp only [List.nodup_cons, List.mem_cons, not_or] at hn
    obtain ⟨⟨h1, h2, -⟩, ⟨h3, -⟩, -⟩ := hn
    simp [List.eraseDups_cons, Ne.symm h1, Ne.symm h2, Ne.symm h3]
  unfold State.jobIds
  rw [hchain]
  exact List.filter_eq_self.mpr hall

/-- The records of a move: the member counts, and the person's parent (R6). -/
def State.movedRecords (s : State) (id a b : Nat) : State :=
  ((s.modMembers a (· - 1)).modMembers b (· + 1)).writeEdit id (movedInto b)

theorem movedRecords_current (s : State) (id a b k : Nat) : (s.movedRecords id a b).current k = s.current k := by
  unfold State.movedRecords
  refine (current_modPrin_of _ id (f := fun q => q.edited (movedInto b)) (fun _ => rfl) k).trans ?_
  refine (current_modPrin_of _ b (f := fun q => { q with members := q.members + 1 }) (fun _ => rfl) k).trans ?_
  exact current_modPrin_of s a (f := fun q => { q with members := q.members - 1 }) (fun _ => rfl) k

theorem movedRecords_prin (hn : [id, a, b].Nodup) (hp : s.prin id = some p) (ha : s.prin a = some ka)
    (hb : s.prin b = some kb) :
    (s.movedRecords id a b).prin id = some (p.edited (movedInto b)) ∧
      (s.movedRecords id a b).prin a = some { ka with members := ka.members - 1 } ∧
      (s.movedRecords id a b).prin b = some { kb with members := kb.members + 1 } := by
  simp only [List.nodup_cons, List.mem_cons, not_or] at hn
  obtain ⟨⟨h1, h2, -⟩, ⟨h3, -⟩, -⟩ := hn
  have hself (t : State) (k : Nat) (f : Principal → Principal) {q : Principal} (hq : t.prin k = some q) :
      (t.modPrin k f).prin k = some (f q) := by
    rw [State.prin_modPrin, hq]
    rfl
  unfold State.movedRecords State.writeEdit State.modMembers
  refine ⟨hself _ id (fun q => q.edited (movedInto b)) ?_, ?_, ?_⟩
  · rw [State.prin_modPrin_ne _ _ (Ne.symm h2), State.prin_modPrin_ne _ _ (Ne.symm h1)]
    exact hp
  · rw [State.prin_modPrin_ne _ _ h1, State.prin_modPrin_ne _ _ (Ne.symm h3)]
    exact hself _ _ _ ha
  · rw [State.prin_modPrin_ne _ _ h2]
    refine hself _ b (fun q => { q with members := q.members + 1 }) ?_
    rw [State.prin_modPrin_ne _ _ h3]
    exact hb

theorem jobRecords_movedInto {r : Nat} (ho : s.tally.ops = [o]) (hst : o.stage ≠ .gathering) (hp : s.prin id = some p)
    (hc : p.course = some a) (hab : a ≠ b) (hu : s.isUnsettled id = false) :
    s.jobRecords (.edit l r id (movedInto b)) = s.movedRecords id a b := by
  have hcounts : s.moveCounts p id (movedInto b) = (s.modMembers a (· - 1)).modMembers b (· + 1) := by
    unfold State.moveCounts
    rw [leaves_movedInto hc hab, joins_movedInto hc hab, hu]
    rfl
  unfold State.jobRecords
  dsimp only
  rw [hp]
  dsimp only
  rw [hcounts, if_pos (by rfl)]
  exact regather_gathered (s := s.movedRecords id a b) ho hst id

theorem changesOf_movedInto {r : Nat} (hj : o.job = .edit l r id (movedInto b)) (hids : o.ids = [id, a, b])
    (hn : [id, a, b].Nodup) (hp : s.prin id = some p) (hc : p.course = some a)
    (hu : (s.current id).1 ≤ (s.current a).1) (hr : (s.current id).2 ≤ (s.current a).2)
    (hbu : (s.current b).1 + (s.current id).1 ≤ maxTally) (hbr : (s.current b).2 + (s.current id).2 ≤ maxTally) :
    s.changesOf o =
      [{ id := a, used := (s.current a).1 - (s.current id).1, reserved := (s.current a).2 - (s.current id).2 },
        { id := b, used := (s.current b).1 + (s.current id).1, reserved := (s.current b).2 + (s.current id).2 }] := by
  simp only [List.nodup_cons, List.mem_cons, not_or] at hn
  obtain ⟨⟨h1, h2, -⟩, ⟨h3, -⟩, -⟩ := hn
  unfold State.changesOf
  rw [hj]
  dsimp only
  rw [hp]
  dsimp only
  have hfilter : ([id, a, b].filter fun x => decide (x ≠ id)) = [a, b] := by
    simp [Ne.symm h1, Ne.symm h2]
  rw [if_pos (by rfl), hids, hfilter]
  unfold State.moved
  rw [leaves_movedInto hc h3, joins_movedInto hc h3]
  simp [h3, Ne.symm h3, takeTally, hu, hr, fitTally_of_le hbu, fitTally_of_le hbr]

/-- A completed operation leaves a Tally Unit whose operations alone have changed. -/
theorem completeOp_tally (t : State) (num : Nat) : ∃ ops, (t.completeOp num).tally = { t.tally with ops := ops } := by
  unfold State.completeOp
  split
  · exact ⟨t.tally.ops, rfl⟩
  next o ho =>
    split
    · exact ⟨t.tally.ops, rfl⟩
    · cases o.job <;> exact ⟨_, rfl⟩

/-- The operation that makes a move applied: what stands of records and tallies, and that it waits or has ended. -/
theorem moved_spec {v : State} {r : Nat} (ho : v.tally.ops = [o]) (hst : o.stage = .ready)
    (hj : o.job = .edit l r id (movedInto b)) (hids : o.ids = [id, a, b]) (hp : v.prin id = some p)
    (hc : p.course = some a) (ha : v.prin a = some ka) (hb : v.prin b = some kb) (hl : v.plainLines [id, a, b])
    (hun : v.isUnsettled id = false) (hu : (v.current id).1 ≤ (v.current a).1)
    (hr : (v.current id).2 ≤ (v.current a).2) (hbu : (v.current b).1 + (v.current id).1 ≤ maxTally)
    (hbr : (v.current b).2 + (v.current id).2 ≤ maxTally) (hpost : v.tally.postings = [])
    (hmode : v.tally.modeReply = []) (hflush : v.tally.flushing = false) :
    (v.runOp o.num).tallyWaits ∧ (v.runOp o.num).sup.op = v.sup.op ∧
      (∃ p', (v.runOp o.num).prin id = some p' ∧ p'.course = some b ∧ p'.dept = p.dept) ∧
      (∃ ka', (v.runOp o.num).prin a = some ka' ∧ ka'.members = ka.members - 1) ∧
      (∃ kb', (v.runOp o.num).prin b = some kb' ∧ kb'.members = kb.members + 1) ∧
      (v.runOp o.num).current id = v.current id ∧
      (v.runOp o.num).current a = ((v.current a).1 - (v.current id).1, (v.current a).2 - (v.current id).2) ∧
      (v.runOp o.num).current b = ((v.current b).1 + (v.current id).1, (v.current b).2 + (v.current id).2) := by
  obtain ⟨hn, hdirty, hover, hmodeIn, -⟩ := hl
  have hcs := changesOf_movedInto hj hids hn hp hc hu hr hbu hbr
  have hcids : (v.changesOf o).map TallyChange.id = [a, b] := by
    rw [hcs]
    rfl
  obtain ⟨hid, hab⟩ := List.nodup_cons.mp hn
  have hsub {i : Nat} (hi : i ∈ [a, b]) : i ∈ [id, a, b] := List.mem_cons_of_mem _ hi
  have hexp : o.expiring = [id, a, b] := by
    unfold TallyOp.expiring
    rw [hj]
    exact hids
  have hmarks : v.marksFor o.job.settled (v.changesOf o) = [] := by
    refine marksFor_dirty _ fun i hi => ?_
    rw [hcids] at hi
    exact hdirty i (hsub hi)
  have hrun : v.runOp o.num = (v.opReleased o).completeOp o.num := by
    have happlied : (v.opReleased o).jobApplied o = v.opReleased o := by
      unfold State.jobApplied
      rw [hj]
    rw [runOp_eq (op_single ho), hexp, lazyExpireAll_none hover, hmarks, if_pos (by rfl), applyOp_eq (op_single ho),
      happlied]
  have hrecs : v.jobRecords o.job = v.movedRecords id a b := by
    rw [hj]
    refine jobRecords_movedInto ho (by rw [hst]; exact fun h => nomatch h) hp hc ?_ hun
    rintro rfl
    simp at hab
  have hchanged : LinesChanged none (v.changesOf o) (v.movedRecords id a b) (v.opStands o) := by
    have hnot : v.jobNotices o.job = v := by
      rw [hj]
      rfl
    unfold State.opStands
    rw [hnot, hrecs, hj]
    refine linesChanged_applyChanges o.num none (by rw [hcids]; exact hab) fun i hi => ?_
    rw [hcids] at hi
    exact linesFilled_of_dirty hdirty i (hsub hi)
  obtain ⟨ops, htally⟩ := completeOp_tally (v.opReleased o) o.num
  obtain ⟨hq1, hq2, hq3, -, -⟩ := opReleased_queues v o
  have hqs := hchanged.queues
  have hstands : (v.opReleased o).tally.ops = [o.written (v.opWrites o)] := opReleased_ops (hchanged.ops.trans ho) rfl
  have hcur (i : Nat) : (v.runOp o.num).current i = (v.opStands o).current i := by
    rw [hrun]
    refine (current_congr (s := v.opReleased o) (by rw [htally]) (by rw [htally]) (by rw [htally])
      (fun j => by simp only [State.prin, htally]) i).trans (opReleased_current v o i)
  have hrec (i : Nat) {α : Type} (f : Principal → α) (hf : ∀ q : Principal, f q.ungraced = f q) :
      ((v.runOp o.num).prin i).map f = ((v.movedRecords id a b).prin i).map f := by
    have h1 : (v.runOp o.num).prin i = (v.opReleased o).prin i := by
      rw [hrun]
      simp only [State.prin, htally]
    rw [h1, opReleased_prin, (opGraced_graceOnly v o).of_prin f hf i]
    exact congrArg (Option.map f) (hchanged.prin i)
  obtain ⟨mid, ma, mb⟩ := movedRecords_prin (s := v) hn hp ha hb
  have hown : (v.runOp o.num).tallyWaits := by
    rw [hrun]
    refine ⟨fun x hx => ?_, by rw [htally]; exact (hq1.trans hqs.1).trans hpost,
      by rw [htally]; exact (hq2.trans hqs.2.1).trans hmode, by rw [htally]; exact (hq3.trans hqs.2.2).trans hflush⟩
    by_cases hw : v.opWrites o = []
    · have hdone : (v.opReleased o).completeOp o.num = ((v.opReleased o).dropOp o.num).reply l r .done .none :=
        completeOp_replies (x := o.written (v.opWrites o)) hstands hw (.inr ⟨id, movedInto b, hj⟩)
      have hnone : ((v.opReleased o).dropOp o.num).tally.ops = [] :=
        dropOp_single (o := o.written (v.opWrites o)) hstands
      rw [hdone, State.reply_tally, hnone] at hx
      cases hx
    · have hstay : (v.opReleased o).completeOp o.num = v.opReleased o := by
        unfold State.completeOp
        have hop : (v.opReleased o).op o.num = some (o.written (v.opWrites o)) :=
          op_single (o := o.written (v.opWrites o)) hstands
        rw [hop]
        exact if_pos hw
      rw [hstay, hstands] at hx
      rw [List.mem_singleton.mp hx]
      exact ⟨fun h => (nomatch h), fun h => nomatch h⟩
  have hsup : (v.runOp o.num).sup.op = v.sup.op := by
    have h1 : ((v.opReleased o).completeOp o.num).sup.op = (v.opReleased o).sup.op :=
      (supKept_completeOp o.num (supKept_refl _)).1
    have h2 : (v.opStands o).sup = v.sup := by
      rw [hchanged.frame]
      rfl
    rw [hrun, h1, (opReleased_sup v o).1.1, h2]
  have hget {i : Nat} {q : Principal} (hq : (v.movedRecords id a b).prin i = some q) {α : Type} (f : Principal → α)
      (hf : ∀ q : Principal, f q.ungraced = f q) : ∃ q', (v.runOp o.num).prin i = some q' ∧ f q' = f q := by
    have h := hrec i f hf
    rw [hq, Option.map_some] at h
    exact Option.map_eq_some_iff.mp h
  refine ⟨hown, hsup, ?_, ?_, ?_, ?_, ?_, ?_⟩
  · obtain ⟨p', hp', he⟩ := hget mid (fun q => (q.course, q.dept)) (fun _ => rfl)
    simp only [Prod.mk.injEq] at he
    exact ⟨p', hp', he.1, he.2⟩
  · exact hget ma (fun q => q.members) (fun _ => rfl)
  · exact hget mb (fun q => q.members) (fun _ => rfl)
  · rw [hcur, hchanged.current_kept (by rw [hcids]; exact hid), movedRecords_current]
  · rw [hcur]
    exact hchanged.current (c := { id := a, used := _, reserved := _ }) (by rw [hcs]; exact List.mem_cons_self)
  · rw [hcur]
    exact hchanged.current (c := { id := b, used := _, reserved := _ })
      (by rw [hcs]; exact List.mem_cons_of_mem _ List.mem_cons_self)

end

end Sys2Proof.Machine
end

section
/-! SUPPORT. An operation whose lines are resident and free goes on to run (R9, R25). -/

namespace Sys2Proof.Machine

section
variable {s : State} {o : TallyOp} {ids : List Nat}

/-- The lines that are held keep what they hold. -/
theorem holding_plainLines (o : TallyOp) (h : s.plainLines ids) : (s.holding o ids).plainLines ids := by
  obtain ⟨hn, hd, hover, hmode, hrec⟩ := h
  refine ⟨hn, fun i hi => ?_, hover, hmode, hrec⟩
  have hany := hd i hi
  rw [holding_line]
  cases hx : s.line i with
  | none =>
    rw [hx] at hany
    cases hany
  | some x =>
    rw [hx] at hany
    rw [Option.map_some, Option.any_some]
    split <;> exact hany

theorem freeLines_of_plain (h : s.dirtyLines ids) (hfree : ∀ i ∈ ids, s.lineHeld i = false) : s.freeLines ids := by
  intro i hi
  obtain ⟨x, hx, hf⟩ := linesFilled_of_dirty h i hi
  have hheld := hfree i hi
  unfold State.lineHeld at hheld
  rw [hx] at hheld
  exact ⟨x, hx, by simpa using hheld, hf⟩

/-- Nothing keeps an operation, the only one, from gathering lines that are free, with no recount under way. -/
theorem opBlocked_free (ho : s.tally.ops = [o]) (hpost : s.tally.postings = [])
    (hfree : ∀ i ∈ ids, s.lineHeld i = false ∧ i ∉ s.tally.recounts) (halone : ∀ i ∈ o.job.alone, i ∈ ids) :
    s.opBlocked o ids = false := by
  unfold State.opBlocked
  rw [hpost, List.any_nil, Bool.false_or, Bool.or_eq_false_iff, List.any_eq_false, List.any_eq_false]
  constructor
  · intro i hi
    simpa using (hfree i hi).2
  · intro i hi
    have hdirect : s.directByOther o.num i = false := by
      unfold State.directByOther
      rw [ho]
      simp
    rw [heldByOther_of_free (hfree i (halone i hi)).1, hdirect]
    exact Bool.false_ne_true

/-- An operation that runs at once, over lines resident and free, holds them and runs. -/
theorem advanceOp_resident (ho : s.tally.ops = [o]) (hst : o.stage = .gathering) (hnone : o.ids = [])
    (hids : s.jobIds o.job = ids) (hlen : ids.length ≤ 4) (hpost : s.tally.postings = []) (h : s.dirtyLines ids)
    (hfree : ∀ i ∈ ids, s.lineHeld i = false ∧ i ∉ s.tally.recounts) (halone : ∀ i ∈ o.job.alone, i ∈ ids)
    (hcast : s.tally.castout = []) (hrun : o.job.runsAtOnce = true)
    (hcheck : (s.holding (o.gathered ids) ids).runCheck o.job = none) :
    s.advanceOp o.num = (s.holding (o.gathered ids) ids).runOp o.num := by
  have hgather : s.gatherIds o = ids := by
    unfold State.gatherIds
    rw [hnone]
    exact hids
  unfold State.advanceOp
  rw [gather_resident ho hst hgather (opBlocked_free ho hpost hfree halone) hlen
    (freeLines_of_plain h fun i hi => (hfree i hi).1) hcast]
  dsimp only
  have hop : (s.holding (o.gathered ids) ids).op o.num = some (o.gathered ids) :=
    op_single (s := s.holding (o.gathered ids) ids) (o := o.gathered ids) rfl
  rw [hop]
  dsimp only
  have hready : (o.gathered ids).stage = .ready ∧ (o.gathered ids).job.runsAtOnce = true := ⟨rfl, hrun⟩
  rw [if_pos hready]
  have hcheck' : (s.holding (o.gathered ids) ids).runCheck (o.gathered ids).job = none := hcheck
  rw [hcheck']

end

end Sys2Proof.Machine

open Sys2Proof Sys2Proof.Machine

/-- Settles O28. -/
theorem principalEditChangesLimitsAndParents : Obligations.PrincipalEditChangesLimitsAndParents := by
  refine ⟨?_, ?_, ?_⟩
  · intro s l tag id c p h hr ht hhold hp hheld hover hc hd hcls hsoft hhard hord
    have hcheck := editCheck_limits hp hc hd hcls hsoft hhard hord
    let u := (s.asked l tag .principalEdit).pushOp (.edit l s.sup.nextReq id c) []
    obtain ⟨v, t, hv, hfin, hstill, hprin, hcur, hgains⟩ := edited_spec (u := u) (id := id)
      (o := (s.asked l tag .principalEdit).firstOp (.edit l s.sup.nextReq id c)) h.1 (pushOp_ops ht.1 _) rfl rfl rfl
      ht.2.1 ht.2.2.1 ht.2.2.2 hheld hover hp hcheck hc hd
    have hvp : v.prin id = some p := by
      rw [hv]
      exact hp
    have hwritten : (v.writeEdit id c).prin id = some (p.edited c) := by
      refine (State.prin_modPrin v id _).trans ?_
      rw [hvp]
      rfl
    have hvcur : (v.writeEdit id c).current id = s.current id := by
      refine (current_modPrin_of v id (f := fun q => q.edited c) (fun _ => rfl) id).trans ?_
      rw [hv]
      exact current_congr rfl rfl rfl (fun _ => rfl) id
    obtain ⟨g, hg, hbelow, habove⟩ := evalGrace_spec hwritten
    have hchanges : v.softChanges id c = decide (newField c.soft p.soft ≠ p.soft) := by
      unfold State.softChanges
      rw [hvp]
    have hrec : t.prin id = some { p.edited c with
        grace := if newField c.soft p.soft = p.soft then p.grace else g } := by
      rw [hprin id, hchanges]
      by_cases hs : newField c.soft p.soft = p.soft
      · rw [if_neg (by simpa using hs), if_pos hs]
        exact hwritten
      · rw [if_pos (by simpa using hs), if_neg hs]
        exact hg
    have htally : (t.reply l s.sup.nextReq .done .none).finish.tally = t.tally :=
      finish_tally (s := State.reply _ _ _ _ _) hstill
    have hclass : (v.writeEdit id c).classOf (p.edited c).cls = s.classOf (p.edited c).cls := by
      rw [hv]
      rfl
    refine ⟨(t.reply l s.sup.nextReq .done .none).finish, { p.edited c with
        grace := if newField c.soft p.soft = p.soft then p.grace else g }, ?_, ?_, ?_, rfl, rfl, rfl, ?_, ?_, rfl, rfl, rfl,
      fun hs => if_pos hs, fun hs hne => ?_, fun n hs hne => ?_, ?_⟩
    · rw [exec_principalEdit tag h (.inr hr) (.inl hhold), hcheck]
      exact congrArg Host.Outcome.next hfin
    · exact answered_finish .done .none h ((entered_asked s l tag .principalEdit).gains hgains)
    · simp only [State.prin, htally]
      exact hrec
    · change newField c.course p.course = p.course
      rw [hc]
      rfl
    · change newField c.dept p.dept = p.dept
      rw [hd]
      rfl
    · have hnew : newField c.soft p.soft = none := by
        rw [hs]
        rfl
      have hbel : (v.writeEdit id c).aboveSoft id (p.edited c) = false := by
        have hnone : (p.edited c).soft = none := hnew
        unfold State.aboveSoft
        rw [hnone]
      dsimp only
      rw [hnew, if_neg (Ne.symm hne)]
      exact hbelow hbel
    · have hnew : newField c.soft p.soft = some n := by
        rw [hs]
        rfl
      have hab : (v.writeEdit id c).aboveSoft id (p.edited c) =
          decide (n < (s.current id).1 + (s.current id).2) := by
        have hsome : (p.edited c).soft = some n := hnew
        unfold State.aboveSoft State.graceLoad
        rw [hsome, hvcur]
      have hsel : (if newField c.soft p.soft = p.soft then p.grace else g) = g := by
        rw [hnew]
        exact if_neg (Ne.symm hne)
      dsimp only
      rw [hsel]
      refine ⟨fun hle => hbelow (by rw [hab]; simpa using hle), fun hlt => ?_⟩
      obtain ⟨hkeep, hexp, hgrace⟩ := habove (by rw [hab]; simpa using hlt)
      rw [hclass] at hexp hgrace
      refine ⟨hkeep, hexp, fun hw hz hroom hclock => ?_⟩
      have hdead : deadlineAfter s.sup.clock (s.classOf (p.edited c).cls).grace =
          s.sup.clock + 60 * (s.classOf (p.edited c).cls).grace := if_pos hclock
      have hvg : (v.writeEdit id c).tally.grace = s.tally.grace ∧ (v.writeEdit id c).sup.clock = s.sup.clock := by
        rw [hv]
        exact ⟨rfl, rfl⟩
      have hres := hgrace hw hz (by rw [hvg.1]; exact hroom)
      rw [hvg.2, hdead] at hres
      exact hres
    · refine (current_of_tally htally id).trans ?_
      refine Eq.trans ?_ hcur
      exact current_congr rfl rfl rfl (fun _ => rfl) id
  · intro s l tag id a b p ka kb h ht hp hk hc hd ha hb hkb hl hfree hcast hun hord hu hr hbu hbr
    let c := movedInto b
    let job : Job := .edit l s.sup.nextReq id c
    let u := (s.asked l tag .principalEdit).pushOp job []
    let o := (s.asked l tag .principalEdit).firstOp job
    let v := u.holding (o.gathered [id, a, b]) [id, a, b]
    have hlu : u.plainLines [id, a, b] := hl
    have hcheck : s.editCheck id c = none := editCheck_movedInto hp hk hd hb hkb hord
    have hcur (i : Nat) : v.current i = s.current i := by
      refine (holding_current (s := u) hcast _ _ i).trans ?_
      exact current_congr rfl rfl rfl (fun _ => rfl) i
    have hops : u.tally.ops = [o] := pushOp_ops ht.1 _
    have hrun : u.advanceOp o.num = v.runOp (o.gathered [id, a, b]).num := by
      refine advanceOp_resident hops rfl rfl (jobIds_movedInto (s := u) hp hc hl.1 hl.2.2.2.2) (Nat.le_succ 3) ht.2.1 hlu.2.1
        hfree ?_ hcast rfl ?_
      · intro i hi
        rw [List.mem_singleton.mp hi]
        exact List.mem_cons_self
      · change (s.editCheck id c).map _ = none
        rw [hcheck]
        rfl
    obtain ⟨hwaits, hsup, ⟨p', hp', hpc, hpd⟩, ⟨ka', hka', hma⟩, ⟨kb', hkb', hmb⟩, c1, c2, c3⟩ :=
      moved_spec (v := v) (o := o.gathered [id, a, b]) (id := id) (a := a) (b := b) (p := p) (ka := ka) (kb := kb) rfl rfl
        rfl rfl hp hc ha hb (holding_plainLines _ hlu) hun (by rw [hcur, hcur]; exact hu) (by rw [hcur, hcur]; exact hr)
        (by rw [hcur, hcur]; exact hbu) (by rw [hcur, hcur]; exact hbr) ht.2.1 ht.2.2.1 ht.2.2.2
    have hrunning : (v.runOp (o.gathered [id, a, b]).num).sup.op ≠ .halted := by
      have hs := takes_running h
      rw [hsup]
      exact hs
    have hfin : u.finish = (v.runOp (o.gathered [id, a, b]).num).finish :=
      finish_advanced h.1 hops ht.2.1 ht.2.2.2 hrun hwaits hrunning
    have htally := finish_waits_tally hwaits
    have hcurs (i : Nat) := current_of_tally htally i
    refine ⟨(v.runOp (o.gathered [id, a, b]).num).finish, p', ka', kb', ?_, ?_, hpc, hpd, ?_, hma, ?_, hmb, ?_, ?_, ?_⟩
    · rw [← hfin]
      have hexec := exec_principalEdit (id := id) (c := c) tag h (.inl rfl) (.inr rfl)
      rw [hcheck] at hexec
      exact hexec
    · simp only [State.prin, htally]
      exact hp'
    · simp only [State.prin, htally]
      exact hka'
    · simp only [State.prin, htally]
      exact hkb'
    · rw [hcurs, c1, hcur]
    · rw [hcurs, c2, hcur, hcur]
    · rw [hcurs, c3, hcur, hcur]
  · intro s l tag id c h hr hp
    exact ⟨_, exec_principalEdit_unknown tag h hr hp, answered_replied tag _ _ _ h, spared_replied tag _ _ _ h⟩

end

section
/-! SUPPORT. What the Tally Unit leaves alone as it goes on: the records while operations gather, the queues while
changes are applied. -/

namespace Sys2Proof.Machine

/-- From one state to another, lines, castout entries and operations alone differ. -/
def Tidied (s t : State) : Prop :=
  t = { s with tally := { s.tally with
    cache := t.tally.cache, castout := t.tally.castout, ops := t.tally.ops, nextOp := t.tally.nextOp } }

namespace Tidied
variable {s t u : State}

theorem trans (h : Tidied s t) (k : Tidied t u) : Tidied s u := by
  unfold Tidied at *
  rw [h] at k
  exact k

theorem principals (h : Tidied s t) : t.tally.principals = s.tally.principals := by rw [h]
theorem postings (h : Tidied s t) : t.tally.postings = s.tally.postings := by rw [h]
theorem modeReply (h : Tidied s t) : t.tally.modeReply = s.tally.modeReply := by rw [h]
theorem links (h : Tidied s t) : t.links = s.links := by rw [h]
theorem prin (h : Tidied s t) (id : Nat) : t.prin id = s.prin id := by simp only [State.prin, h.principals]

end Tidied

theorem tidied_refl (s : State) : Tidied s s := rfl

theorem GatherOnly.tidied {s t : State} (h : GatherOnly s t) : Tidied s t := by
  have hframe := h.frame
  rw [hframe]
  rfl

theorem tidied_castoutDirty (s : State) : Tidied s s.castoutDirty := by
  unfold State.castoutDirty
  split <;> rfl

theorem castoutDirty_ops (s : State) : s.castoutDirty.tally.ops = s.tally.ops := by
  unfold State.castoutDirty
  split <;> rfl

/-- The posting at the head brings at most its own operation, which waits for a step of its own (R16). -/
theorem takePosting_spec (s : State) : Tidied s s.takePosting ∧ (∀ o ∈ s.tally.ops, o ∈ s.takePosting.tally.ops) ∧
    ∀ o ∈ s.takePosting.tally.ops, o ∈ s.tally.ops ∨ o.job.runsAtOnce = false := by
  unfold State.takePosting
  split
  · exact ⟨rfl, fun _ h => h, fun _ h => .inl h⟩
  · split
    · exact ⟨rfl, fun _ h => h, fun _ h => .inl h⟩
    · refine ⟨rfl, fun o h => List.mem_append_left _ h, fun o h => ?_⟩
      rcases List.mem_append.mp h with h | h
      · exact .inl h
      · right
        rw [List.mem_singleton.mp h]
        rfl

/-- What each stage of the Tally Unit's going on keeps, it keeps, with no switch to be answered. -/
theorem advance_goes {P : State → Prop} {s : State} (hcast : ∀ u, P u → P u.castoutDirty)
    (htake : ∀ u, P u → P u.takePosting) (hop : ∀ u n, P u → P (u.advanceOp n))
    (hmode : ∀ u, P u → u.tally.modeReply = []) (h : P s) : P s.advance := by
  have hops (u : State) (hu : P u) : P u.advanceOps := by
    unfold State.advanceOps
    induction u.tally.ops.map TallyOp.num generalizing u with
    | nil => exact hu
    | cons n ns ih => exact ih _ (hop u n hu)
  unfold State.advance
  split
  · exact h
  · dsimp only
    have hiter := hcast _ (iter_keeps (P := P) hops (s.castoutDirty.takePosting.tally.ops.length + 1)
      (htake _ (hcast _ h)))
    rw [endModeSwitch_none (hmode _ hiter)]
    exact hiter

theorem finish_running {s : State} (hrun : s.sup.op ≠ .halted) : s.finish = s.advance.settle := if_neg hrun

theorem settle_tally (s : State) : s.settle.tally = s.tally := tallyKept_settle rfl

/-! ### Changes to any lines -/

/-- A change to a line, or to the record where no line is filled, leaves the queues and every record in its place
(R11). -/
theorem applyChange_frame (num : Nat) (settled : Option Nat) (s : State) (c : TallyChange) :
    ∃ principals cache writes, s.applyChange num settled c =
        { s with tally := { s.tally with principals := principals, cache := cache, writes := writes } } ∧
      ∀ id, ((s.applyChange num settled c).prin id).isSome = (s.prin id).isSome := by
  have hstore : ∃ principals cache writes, s.storeTally c.id c.used c.reserved =
        { s with tally := { s.tally with principals := principals, cache := cache, writes := writes } } ∧
      ∀ id, ((s.storeTally c.id c.used c.reserved).prin id).isSome = (s.prin id).isSome := by
    refine ⟨_, s.tally.cache, _, rfl, fun id => ?_⟩
    by_cases hid : c.id = id
    · subst hid
      refine (congrArg Option.isSome (State.prin_modPrin s c.id _)).trans ?_
      exact Option.isSome_map ..
    · exact congrArg Option.isSome (State.prin_modPrin_ne s _ hid)
  unfold State.applyChange
  split
  · exact hstore
  · dsimp only
    split
    · exact hstore
    · split
      · exact ⟨s.tally.principals, s.tally.cache, s.tally.writes, rfl, fun _ => rfl⟩
      · split
        · exact ⟨s.tally.principals, _, _, rfl, fun _ => rfl⟩
        · exact ⟨s.tally.principals, _, s.tally.writes, rfl, fun _ => rfl⟩

theorem applyChanges_frame (num : Nat) (settled : Option Nat) (cs : List TallyChange) (s : State) :
    ∃ principals cache writes, s.applyChanges num settled cs =
        { s with tally := { s.tally with principals := principals, cache := cache, writes := writes } } ∧
      ∀ id, ((s.applyChanges num settled cs).prin id).isSome = (s.prin id).isSome := by
  unfold State.applyChanges
  induction cs generalizing s with
  | nil => exact ⟨s.tally.principals, s.tally.cache, s.tally.writes, rfl, fun _ => rfl⟩
  | cons c cs ih =>
    obtain ⟨ps, cache, ws, heq, hsome⟩ := applyChange_frame num settled s c
    obtain ⟨qs, cache', vs, heq', hsome'⟩ := ih (s.applyChange num settled c)
    rw [List.foldl_cons]
    refine ⟨qs, cache', vs, ?_, fun id => (hsome' id).trans (hsome id)⟩
    rw [heq', heq]

/-- An operation applied writes its stage, wherever it stands in the list. -/
theorem opReleased_ops_mapIf {s : State} {o : TallyOp} (h : (s.opStands o).tally.ops = s.tally.ops) :
    (s.opReleased o).tally.ops = mapIf (fun x => x.num == o.num) (fun x => x.written (s.opWrites o)) s.tally.ops := by
  have hgrace := (opGraced_graceOnly s o).ops
  unfold State.opReleased
  rw [beginRecounts_eq]
  change mapIf _ _ (s.opGraced o).tally.ops = _
  rw [hgrace]
  exact congrArg _ h

end Sys2Proof.Machine
end

section
/-! PROOF. Admit and Release as they are taken (R15, R24). -/

namespace Sys2Proof.Machine

section
variable {s : State} {l : Link} {p n q b : Nat} {part : Bool}

/-! ### Admit -/

theorem exec_admitReq (tag : Nat) (h : s.takes l) :
    Machine.exec (.admitReq l tag p n q part) s =
      .next (State.finish (if n < 1 ∨ 16777215 < n ∨ q < 1 ∨ 1024 < q then
          (s.asked l tag .admitReq).reply l s.sup.nextReq .range (.admitReq 0 0 0)
        else if s.isPerson p = false then
          (s.asked l tag .admitReq).reply l s.sup.nextReq .unknownPrincipal (.admitReq 0 0 0)
        else (s.asked l tag .admitReq).pushOp (.admitReq l s.sup.nextReq p n q part)
          ((s.asked l tag .admitReq).touchingPostings ((s.asked l tag .admitReq).chain p)))) :=
  act_asked tag .admitReq _ h (.inl rfl)

/-- Operations that wait for steps of their own gather alone. -/
theorem advance_gatherOnly {u : State} (hj : ∀ o ∈ u.tally.ops, o.job.runsAtOnce = false)
    (hpost : u.tally.postings = []) (hmode : u.tally.modeReply = []) (hflush : u.tally.flushing = false) :
    GatherOnly u u.advance := by
  refine advance_keeps (P := GatherOnly u) (fun w hg => ?_) (fun w n hg => ?_) (GatherOnly.refl u)
  · obtain ⟨qpost, qmode, qflush⟩ := hg.queues
    exact ⟨qflush.trans hflush, qpost.trans hpost, qmode.trans hmode⟩
  · rw [advanceOp_gathers n fun o ho => ?_]
    · exact hg.trans (gatherOnly_gather w n)
    · obtain ⟨x, hx, -, hxj⟩ := hg.mem ho
      rw [← hxj]
      exact hj x hx

/-! ### Release -/

/-- The end of the work of a Release that a place in the Posting Queue takes (R15). -/
def State.postedIn (s : State) (l : Link) (tag p b : Nat) : State :=
  { s.asked l tag .release with
    tally.postings := s.tally.postings ++ [{ num := s.tally.nextPosting, principal := p, blocks := b, link := l }]
    tally.nextPosting := s.tally.nextPosting + 1 }

theorem exec_release (tag : Nat) (h : s.takes l) :
    Machine.exec (.release l tag p b) s =
      .next (State.finish (if b < 1 ∨ 16777215 < b then (s.asked l tag .release).reply l s.sup.nextReq .range .none
        else if s.isPerson p = false then
          (s.asked l tag .release).reply l s.sup.nextReq .unknownPrincipal .none
        else if s.tally.postings.length < Config.postingQueueSize then
          (s.postedIn l tag p b).reply l s.sup.nextReq .accepted .none
        else (s.asked l tag .release).pushOp (.release l s.sup.nextReq p b) [])) :=
  act_asked tag .release _ h (.inl rfl)

/-- While no operation runs at once, the Tally Unit tidies its lines, castout entries and operations alone. -/
theorem advance_tidied {u : State} (hj : ∀ o ∈ u.tally.ops, o.job.runsAtOnce = false)
    (hmode : u.tally.modeReply = []) : Tidied u u.advance := by
  have hall : Tidied u u.advance ∧ ∀ o ∈ u.advance.tally.ops, o.job.runsAtOnce = false := by
    refine advance_goes (P := fun w => Tidied u w ∧ ∀ o ∈ w.tally.ops, o.job.runsAtOnce = false) ?_ ?_ ?_ ?_
      ⟨tidied_refl u, hj⟩
    · rintro w ⟨ht, hw⟩
      exact ⟨ht.trans (tidied_castoutDirty w), fun o ho => hw o (by rwa [castoutDirty_ops] at ho)⟩
    · rintro w ⟨ht, hw⟩
      obtain ⟨k, -, hnew⟩ := takePosting_spec w
      exact ⟨ht.trans k, fun o ho => (hnew o ho).elim (hw o) fun h => h⟩
    · rintro w n ⟨ht, hw⟩
      rw [advanceOp_gathers n hw]
      have hg := gatherOnly_gather w n
      refine ⟨ht.trans hg.tidied, fun o ho => ?_⟩
      obtain ⟨x, hx, -, hxj⟩ := hg.mem ho
      rw [← hxj]
      exact hw x hx
    · rintro w ⟨ht, -⟩
      exact ht.modeReply.trans hmode
  exact hall.1

/-! ### A Release that finds the Posting Queue full -/

/-- A Release is with the Tally Unit: its operation is the only one that runs at once, and its request waits. -/
def State.releasing? (s w : State) (l : Link) (tag p b : Nat) : Prop :=
  (∃ o ∈ w.tally.ops, o.job = .release l s.sup.nextReq p b) ∧
    (∀ o ∈ w.tally.ops, o.job.runsAtOnce = true → o.num = s.tally.nextOp ∧ o.job = .release l s.sup.nextReq p b) ∧
    Entered s w l tag .release true

/-- A Release has been applied and answered. -/
def State.releaseDone (s w : State) (l : Link) (tag : Nat) : Prop :=
  (∀ o ∈ w.tally.ops, o.job.runsAtOnce = false) ∧ Answered s w l tag .release .done .none

/-- What holds of a Release as the Tally Unit goes on: it waits, or it is answered. -/
def State.releaseGoes (s w : State) (l : Link) (tag p b : Nat) : Prop :=
  w.tally.postings = s.tally.postings ∧ w.tally.modeReply = [] ∧ (w.prin p).isSome = true ∧
    (s.releasing? w l tag p b ∨ s.releaseDone w l tag)

theorem releaseGoes_of_ops {w v : State} {tag : Nat} (h : s.releaseGoes w l tag p b) (ht : Tidied w v)
    (hkeep : ∀ o ∈ w.tally.ops, ∃ x ∈ v.tally.ops, x.job = o.job)
    (hnew : ∀ x ∈ v.tally.ops, x.job.runsAtOnce = false ∨ ∃ o ∈ w.tally.ops, o.num = x.num ∧ o.job = x.job) :
    s.releaseGoes v l tag p b := by
  obtain ⟨hpost, hmode, hsome, hor⟩ := h
  refine ⟨ht.postings.trans hpost, ht.modeReply.trans hmode, by rw [ht.prin]; exact hsome, ?_⟩
  rcases hor with ⟨⟨o, ho, hoj⟩, hall, hent⟩ | ⟨hnone, hans⟩
  · left
    refine ⟨?_, fun x hx hrun => ?_, hent.congr (by simp only [State.link, ht.links])⟩
    · obtain ⟨x, hx, hxj⟩ := hkeep o ho
      exact ⟨x, hx, hxj.trans hoj⟩
    · rcases hnew x hx with hx' | ⟨y, hy, hyn, hyj⟩
      · rw [hx'] at hrun
        cases hrun
      · rw [← hyn, ← hyj]
        exact hall y hy (by rw [hyj]; exact hrun)
  · right
    refine ⟨fun x hx => ?_, ?_⟩
    · rcases hnew x hx with hx' | ⟨y, hy, -, hyj⟩
      · exact hx'
      · rw [← hyj]
        exact hnone y hy
    · simp only [Answered, State.link, ht.links] at hans ⊢
      exact hans

theorem releaseGoes_gather {w v : State} {tag : Nat} (h : s.releaseGoes w l tag p b) (hg : GatherOnly w v) :
    s.releaseGoes v l tag p b :=
  releaseGoes_of_ops h hg.tidied
    (fun o ho => by
      obtain ⟨x, hx, -, hxj⟩ := hg.mem_of ho
      exact ⟨x, hx, hxj⟩)
    (fun x hx => by
      obtain ⟨o, ho, hon, hoj⟩ := hg.mem hx
      exact .inr ⟨o, ho, hon, hoj⟩)

/-- Expiries of grace leave a Release with the Tally Unit. -/
theorem releaseGoes_lazyExpireAll {w : State} {tag : Nat} (ids : List Nat) (hw : s.releasing? w l tag p b) :
    s.releasing? (w.lazyExpireAll ids) l tag p b := by
  obtain ⟨hex, hall, hent⟩ := hw
  have hops := ops_lazyExpireAll w ids
  refine ⟨by rw [hops]; exact hex, by rw [hops]; exact hall, hent.gains fun P k hP => ?_⟩
  unfold State.lazyExpireAll
  exact tallyLinks_foldl _ _ (fun t _ ht => gains_lazyExpire k (s := t) _ ht) hP

/-- The Release applied: its operation awaits the writes it began, or has ended with DONE (R15, R16). -/
theorem releaseGoes_applyOp {w : State} {tag : Nat} {o : TallyOp} (h : s.takes l)
    (hpost : w.tally.postings = s.tally.postings) (hmode : w.tally.modeReply = []) (hsome : (w.prin p).isSome = true)
    (hw : s.releasing? w l tag p b) (ho : w.op o.num = some o) (hj : o.job = .release l s.sup.nextReq p b) :
    s.releaseGoes (w.applyOp o.num) l tag p b := by
  obtain ⟨hex, hall, hent⟩ := hw
  obtain ⟨ps, cache, ws, hframe, hprins⟩ := applyChanges_frame o.num o.job.settled (w.changesOf o) (w.jobNotices o.job)
  have hnot := jobNotices_tally w o.job
  have hrecs : ∀ t : State, t.jobRecords o.job = t := fun t => jobRecords_plain (by rw [hj]; rfl) t
  have hstands : w.opStands o = (w.jobNotices o.job).applyChanges o.num o.job.settled (w.changesOf o) := by
    unfold State.opStands
    rw [hrecs]
  obtain ⟨q1, q2, -, -, -⟩ := opReleased_queues w o
  have hops : (w.opStands o).tally.ops = w.tally.ops := by rw [hstands, hframe, ← hnot]
  have hrel := opReleased_ops_mapIf hops
  let r := w.opReleased o
  have hrpost : r.tally.postings = s.tally.postings := by
    refine q1.trans ?_
    rw [hstands, hframe]
    exact (congrArg Tally.postings hnot).trans hpost
  have hrmode : r.tally.modeReply = [] := by
    refine q2.trans ?_
    rw [hstands, hframe]
    exact (congrArg Tally.modeReply hnot).trans hmode
  have hrsome : (r.prin p).isSome = true := by
    have hg := (opGraced_graceOnly w o).prins p
    have h1 : (r.prin p).map Principal.ungraced = ((w.opStands o).prin p).map Principal.ungraced :=
      (congrArg _ (opReleased_prin w o p)).trans hg
    have h2 := congrArg Option.isSome h1
    rw [Option.isSome_map, Option.isSome_map] at h2
    rw [h2, hstands, hprins]
    simp only [State.prin, hnot]
    exact hsome
  have hrent : Entered s r l tag .release true := by
    refine hent.gains fun P k hP => ?_
    have hstand : P (w.opStands o).links := by
      rw [hstands]
      refine tallyLinks_applyChanges _ _ _ ?_
      rw [hj]
      unfold State.jobNotices State.underflow
      dsimp only
      split
      · exact gains_raise k _ hP
      · exact hP
    refine tallyLinks_releaseLines _ _ (tallyLinks_modOp _ _ (tallyLinks_foldl _ _ (fun _ _ h => ?_) ?_))
    · exact tallyLinks_beginRecount _ h
    · exact tallyLinks_foldl _ _ (fun _ _ h => gains_evalGrace k _ h) hstand
  have hrop : r.op o.num = some (o.written (w.opWrites o)) := by
    have hfind := List.find?_some ho
    unfold State.op at ho ⊢
    rw [hrel]
    unfold mapIf
    rw [List.find?_map]
    have hp : ((fun x : TallyOp => x.num == o.num) ∘ fun x =>
        if (x.num == o.num) = true then x.written (w.opWrites o) else x) = fun x => x.num == o.num := by
      funext x
      simp only [Function.comp_apply]
      split <;> rfl
    rw [hp, ho, Option.map_some, if_pos hfind]
  have hmem {x : TallyOp} (hx : x ∈ r.tally.ops) : ∃ y ∈ w.tally.ops, y.num = x.num ∧ y.job = x.job := by
    rw [hrel] at hx
    obtain ⟨y, hy, rfl⟩ := List.mem_map.mp hx
    exact ⟨y, hy, by split <;> exact ⟨rfl, rfl⟩⟩
  have hrall : ∀ x ∈ r.tally.ops, x.job.runsAtOnce = true →
      x.num = s.tally.nextOp ∧ x.job = .release l s.sup.nextReq p b := by
    intro x hx hrun
    obtain ⟨y, hy, hyn, hyj⟩ := hmem hx
    rw [← hyn, ← hyj]
    exact hall y hy (by rw [hyj]; exact hrun)
  have happlied : r.jobApplied o = r := by
    unfold State.jobApplied
    rw [hj]
  rw [applyOp_eq ho]
  change s.releaseGoes ((r.jobApplied o).completeOp o.num) l tag p b
  rw [happlied]
  unfold State.completeOp
  rw [hrop]
  dsimp only
  by_cases hws : (o.written (w.opWrites o)).writes ≠ []
  · rw [if_pos hws]
    exact ⟨hrpost, hrmode, hrsome, .inl ⟨⟨_, List.mem_of_find?_eq_some hrop, hj⟩, hrall, hrent⟩⟩
  · rw [if_neg hws]
    have hjob : (o.written (w.opWrites o)).job = .release l s.sup.nextReq p b := hj
    rw [hjob]
    refine ⟨hrpost, hrmode, hrsome, .inr ⟨fun x hx => ?_, answered_reply .done .none h.2.2.2 hrent⟩⟩
    obtain ⟨hx, hne⟩ := List.mem_filter.mp hx
    by_contra hrun
    have honum : o.num = s.tally.nextOp := (hall o (List.mem_of_find?_eq_some ho) (by rw [hj]; rfl)).1
    have hxnum := (hrall x hx (by simpa using hrun)).1
    rw [hxnum, honum] at hne
    simp at hne

theorem releaseGoes_advanceOp {w : State} {tag : Nat} (h : s.takes l) (hw : s.releaseGoes w l tag p b) (n : Nat) :
    s.releaseGoes (w.advanceOp n) l tag p b := by
  have hg := releaseGoes_gather hw (gatherOnly_gather w n)
  unfold State.advanceOp
  dsimp only
  cases ho : (w.gather n).op n with
  | none => exact hg
  | some o =>
    dsimp only
    by_cases hrun : o.stage = .ready ∧ o.job.runsAtOnce = true
    · rw [if_pos hrun]
      obtain ⟨hpost, hmode, hsome, hor⟩ := hg
      have hmem := List.mem_of_find?_eq_some ho
      have hnum : o.num = n := by simpa using List.find?_some ho
      rcases hor with hin | ⟨hnone, -⟩
      · have hj := (hin.2.1 o hmem hrun.2).2
        have hcheck : (w.gather n).runCheck o.job = none := by
          rw [hj]
          refine if_neg ?_
          rw [Option.isNone_eq_false_iff.mpr hsome]
          exact Bool.false_ne_true
        rw [hcheck]
        dsimp only
        rw [← hnum] at ho ⊢
        rw [runOp_eq ho]
        have hgr := graceOnly_lazyExpireAll (w.gather o.num) o.expiring
        have hin' : s.releasing? ((w.gather o.num).lazyExpireAll o.expiring) l tag p b :=
          releaseGoes_lazyExpireAll o.expiring (by rw [hnum]; exact hin)
        have hpost' : ((w.gather o.num).lazyExpireAll o.expiring).tally.postings = s.tally.postings := by
          rw [hgr.postings, hnum]
          exact hpost
        have hmode' : ((w.gather o.num).lazyExpireAll o.expiring).tally.modeReply = [] := by
          rw [hgr.modeReply, hnum]
          exact hmode
        have hsome' : (((w.gather o.num).lazyExpireAll o.expiring).prin p).isSome = true := by
          have h2 := congrArg Option.isSome (hgr.prins p)
          rw [Option.isSome_map, Option.isSome_map, hnum] at h2
          rw [hnum, h2]
          exact hsome
        have ho' : ((w.gather o.num).lazyExpireAll o.expiring).op o.num = some o := by
          rw [State.op, hgr.ops]
          exact ho
        split
        · exact releaseGoes_applyOp h hpost' hmode' hsome' hin' ho' hj
        · exact releaseGoes_gather ⟨hpost', hmode', hsome', .inl hin'⟩ (gatherOnly_modOp _ _ fun _ => ⟨rfl, rfl⟩)
      · rw [hnone o hmem] at hrun
        cases hrun.2
    · rw [if_neg hrun]
      exact hg

/-- A Release that finds the queue full waits for its operation, or is answered, as the step ends. -/
theorem releaseGoes_advance {w : State} {tag : Nat} (h : s.takes l) (hw : s.releaseGoes w l tag p b) :
    s.releaseGoes w.advance l tag p b := by
  refine advance_goes (P := fun w => s.releaseGoes w l tag p b) (fun u hu => ?_) (fun u hu => ?_)
    (fun u n hu => releaseGoes_advanceOp h hu n) (fun u hu => hu.2.1) hw
  · refine releaseGoes_of_ops hu (tidied_castoutDirty u) (fun o ho => ?_) (fun x hx => ?_)
    · exact ⟨o, by rw [castoutDirty_ops]; exact ho, rfl⟩
    · rw [castoutDirty_ops] at hx
      exact .inr ⟨x, hx, rfl, rfl⟩
  · obtain ⟨ht, hkeep, hnew⟩ := takePosting_spec u
    refine releaseGoes_of_ops hu ht (fun o ho => ⟨o, hkeep o ho, rfl⟩) fun x hx => ?_
    rcases hnew x hx with hx | hx
    · exact .inr ⟨x, hx, rfl, rfl⟩
    · exact .inl hx

end

end Sys2Proof.Machine
end

section
/-! PROOF. Settle as it is taken, and applied over lines resident and free (R18). -/

namespace Sys2Proof.Machine

section
variable {s : State} {l : Link} {p c r : Nat} {o : TallyOp}

theorem exec_settle (tag : Nat) (h : s.takes l) :
    Machine.exec (.settle l tag p c) s =
      .next (State.finish (if s.isPerson p = false then
          (s.asked l tag .settle).reply l s.sup.nextReq .unknownPrincipal .none
        else if maxTally < c then (s.asked l tag .settle).reply l s.sup.nextReq .range .none
        else (s.asked l tag .settle).pushOp (.settle l s.sup.nextReq p c) [])) :=
  act_asked tag .settle _ h (.inl rfl)

theorem prin_of_isPerson (h : s.isPerson p = true) : ∃ k, s.prin p = some k := by
  unfold State.isPerson at h
  cases hp : s.prin p with
  | none =>
    rw [hp] at h
    cases h
  | some k => exact ⟨k, rfl⟩

/-! ### The write of the person's record -/

theorem storeTally_writes (s : State) (id u v : Nat) :
    (s.storeTally id u v).tally.writes.length = s.tally.writes.length := List.length_map ..

/-- A change begins no write or one, and one at the settled person's filled line (R11, R18). -/
theorem applyChange_writes_length (num : Nat) (settled : Option Nat) (s : State) (d : TallyChange) :
    s.tally.writes.length ≤ (s.applyChange num settled d).tally.writes.length ∧
      (∀ x, s.line d.id = some x → x.filling = false → settled = some d.id →
        s.tally.writes.length < (s.applyChange num settled d).tally.writes.length) := by
  unfold State.applyChange
  cases hx : s.line d.id with
  | none => exact ⟨Nat.le_of_eq (storeTally_writes s _ _ _).symm, fun x h => nomatch h⟩
  | some x =>
    dsimp only
    by_cases hf : x.filling = true
    · rw [if_pos hf]
      refine ⟨Nat.le_of_eq (storeTally_writes s _ _ _).symm, fun y hy hyf => ?_⟩
      rw [← Option.some.inj hy, hf] at hyf
      cases hyf
    · rw [if_neg hf]
      by_cases hs : settled = some d.id
      · have hsettles : decide (settled = some d.id) = true := by simpa using hs
        rw [hsettles, Bool.not_true, Bool.and_false, if_neg Bool.false_ne_true, Bool.or_true, Bool.true_or, if_pos rfl]
        have hlen : s.tally.writes.length < (s.tally.writes ++
            [({ op := num, id := d.id, used := d.used, reserved := d.reserved, settles := true } : PendingWrite)]).length := by
          rw [List.length_append]
          exact Nat.lt_succ_self _
        exact ⟨Nat.le_of_lt hlen, fun _ _ _ _ => hlen⟩
      · refine ⟨?_, fun _ _ _ h => absurd h hs⟩
        split
        · exact Nat.le_refl _
        · split
          · exact Nat.le_of_lt (by
              change s.tally.writes.length < (s.tally.writes ++ [_]).length
              rw [List.length_append]
              exact Nat.lt_succ_self _)
          · exact Nat.le_refl _

/-- A change to another principal keeps a line. -/
theorem applyChange_line_ne (num : Nat) (settled : Option Nat) (s : State) {d : TallyChange} {id : Nat} (h : d.id ≠ id) :
    (s.applyChange num settled d).line id = s.line id := by
  unfold State.applyChange
  split
  · rfl
  next x hx =>
    have hid : x.id ≠ id := by
      rw [(line_find_id hx).1]
      exact h
    dsimp only
    split
    · rfl
    · split
      · rfl
      · split
        · exact line_putLine_ne _ hid
        · exact line_putLine_ne _ hid

theorem applyChanges_writes_lt (num : Nat) {settled : Option Nat} {s : State} {cs : List TallyChange} {x : Line}
    (hs : settled = some p) (hx : s.line p = some x) (hf : x.filling = false) (hmem : p ∈ cs.map TallyChange.id) :
    s.tally.writes.length < (s.applyChanges num settled cs).tally.writes.length := by
  have hmono (cs : List TallyChange) (t : State) :
      t.tally.writes.length ≤ (t.applyChanges num settled cs).tally.writes.length := by
    unfold State.applyChanges
    induction cs generalizing t with
    | nil => exact Nat.le_refl _
    | cons d ds ih =>
      rw [List.foldl_cons]
      exact Nat.le_trans (applyChange_writes_length num settled t d).1 (ih _)
  induction cs generalizing s with
  | nil => cases hmem
  | cons d ds ih =>
    have hstep := applyChange_writes_length num settled s d
    by_cases hd : d.id = p
    · exact Nat.lt_of_lt_of_le (hstep.2 x (by rw [hd]; exact hx) hf (by rw [hd]; exact hs)) (hmono ds _)
    · have hmem' : p ∈ ds.map TallyChange.id := (List.mem_cons.mp hmem).resolve_left (Ne.symm hd)
      exact Nat.lt_of_le_of_lt hstep.1 (ih ((applyChange_line_ne num settled s hd).trans hx) hmem')

/-! ### A Settle gathers, and runs -/

/-- The changes that a Settle makes (R18). -/
theorem changesOf_settle (hj : o.job = .settle l r p c) : s.changesOf o =
    o.ids.map fun id =>
      if id = p then { id := id, used := c, reserved := (s.current id).2 }
      else
        { id := id, used := fitTally ((s.current id).1 + c - (s.current p).1), reserved := (s.current id).2 } := by
  unfold State.changesOf
  rw [hj]

theorem changesOf_settle_ids (hj : o.job = .settle l r p c) : (s.changesOf o).map TallyChange.id = o.ids := by
  rw [changesOf_settle hj, List.map_map]
  refine (List.map_congr_left fun id _ => ?_).trans (List.map_id _)
  simp only [Function.comp_apply]
  split <;> rfl

/-- The records that a Settle writes leave lines, queues and every record in its place (R18). -/
theorem jobRecords_settle_frame (s : State) (l : Link) (r p c : Nat) : ∃ principals,
    s.jobRecords (.settle l r p c) = { s with tally := { s.tally with principals := principals } } := by
  have hfold (f : Principal → Principal) (ids : List Nat) (t : State) : ∃ principals,
      ids.foldl (fun t pool => t.modPrin pool f) t = { t with tally := { t.tally with principals := principals } } := by
    induction ids generalizing t with
    | nil => exact ⟨t.tally.principals, rfl⟩
    | cons id ids ih =>
      obtain ⟨ps, hps⟩ := ih (t.modPrin id f)
      exact ⟨ps, hps⟩
  unfold State.jobRecords
  dsimp only
  split
  · exact hfold _ _ _
  · exact ⟨s.tally.principals, rfl⟩

theorem jobRecords_settle_isSome {id : Nat} (h : (s.prin id).isSome = true) :
    ((s.jobRecords (.settle l r p c)).prin id).isSome = true := by
  have hfold (f : Principal → Principal) (ids : List Nat) (t : State) (ht : (t.prin id).isSome = true) :
      ((ids.foldl (fun t pool => t.modPrin pool f) t).prin id).isSome = true := by
    induction ids generalizing t with
    | nil => exact ht
    | cons k ks ih =>
      refine ih (t.modPrin k f) ?_
      by_cases hk : k = id
      · subst hk
        rw [State.prin_modPrin, Option.isSome_map]
        exact ht
      · rw [State.prin_modPrin_ne _ _ hk]
        exact ht
  unfold State.jobRecords
  dsimp only
  split
  · exact hfold _ _ _ h
  · exact h

/-- A Settle over a chain with its person's line filled awaits the write of the person's record (R18). -/
theorem opWrites_settle {x : Line} (hj : o.job = .settle l r p c) (hmem : p ∈ o.ids) (hx : s.line p = some x)
    (hf : x.filling = false) : s.opWrites o ≠ [] := by
  obtain ⟨ps, hps⟩ := jobRecords_settle_frame s l r p c
  have hlt : s.tally.writes.length < (s.opStands o).tally.writes.length := by
    unfold State.opStands
    rw [hj]
    change _ < (((s.jobRecords (.settle l r p c))).applyChanges o.num (some p) (s.changesOf o)).tally.writes.length
    rw [hps]
    refine applyChanges_writes_lt (p := p) (x := x) o.num (s := { s with tally := { s.tally with principals := ps } }) rfl
      hx hf ?_
    rw [changesOf_settle_ids hj]
    exact hmem
  intro hnil
  unfold State.opWrites at hnil
  have hlen := congrArg List.length hnil
  rw [List.length_map, List.length_drop, List.length_nil] at hlen
  omega

/-- A Settle that runs with its person's line filled is applied and awaits its writes, or awaits markers (R10, R18). -/
theorem runOp_settle {x : Line} (ho : s.tally.ops = [o]) (hj : o.job = .settle l r p c) (hmem : p ∈ o.ids)
    (hx : s.line p = some x) (hf : x.filling = false) :
    (∃ e, GraceOnly s e ∧ (s.runOp o.num = e.opReleased o ∧ (e.opReleased o).tally.ops = [o.written (e.opWrites o)] ∧
        e.opWrites o ≠ [] ∨ s.runOp o.num = e.modOp o.num (fun o => { o with stage := .marking })) ∧
      ∀ P : Vector LinkRec 6 → Prop, LinksGain P → P s.links → P e.links) := by
  let e := s.lazyExpireAll o.expiring
  have he : GraceOnly s e := graceOnly_lazyExpireAll s o.expiring
  have heo : e.tally.ops = [o] := he.ops.trans ho
  refine ⟨e, he, ?_, fun P k hP => ?_⟩
  · rw [runOp_eq (op_single ho)]
    by_cases hm : (e.marksFor o.job.settled (e.changesOf o)).isEmpty = true
    · left
      rw [if_pos hm]
      obtain ⟨ps, hps⟩ := jobRecords_settle_frame e l r p c
      obtain ⟨qs, cache, ws, hframe, -⟩ := applyChanges_frame o.num (some p) (e.changesOf o) (e.jobRecords (.settle l r p c))
      have hstands : e.opStands o = (e.jobRecords (.settle l r p c)).applyChanges o.num (some p) (e.changesOf o) := by
        unfold State.opStands
        rw [hj]
        rfl
      have hops : (e.opReleased o).tally.ops = [o.written (e.opWrites o)] := by
        refine opReleased_ops ?_ rfl
        rw [hstands, hframe, hps]
        exact heo
      have hws : e.opWrites o ≠ [] := opWrites_settle hj hmem ((he.line p).trans hx) hf
      refine ⟨?_, hops, hws⟩
      have happlied : (e.opReleased o).jobApplied o = e.opReleased o := by
        unfold State.jobApplied
        rw [hj]
      refine (applyOp_eq (op_single heo)).trans ?_
      rw [happlied]
      unfold State.completeOp
      have hop : (e.opReleased o).op o.num = some (o.written (e.opWrites o)) :=
        op_single (o := o.written (e.opWrites o)) hops
      rw [hop]
      exact if_pos hws
    · exact .inr (if_neg hm)
  · exact tallyLinks_foldl _ _ (fun t _ ht => gains_lazyExpire k (s := t) _ ht) hP

theorem takeNext_ops (s : State) (num : Nat) : (s.takeNext num).tally.ops = s.tally.ops := by
  unfold State.takeNext
  split
  · rfl
  · dsimp only
    split
    · rfl
    · unfold State.takeSet
      dsimp only
      split <;> rfl

theorem modOp_line (s : State) (num : Nat) (f : TallyOp → TallyOp) (i : Nat) :
    (s.modOp num f).line i = s.line i := rfl

/-- Gathering for the one operation: it goes on gathering for its principals, or is ready with every line it is to
hold filled (R9, R25). -/
theorem gather_single {w : State} {x : TallyOp} (hx : w.tally.ops = [x]) (hst : x.stage = .gathering) :
    w.gather x.num = w ∨
      ((w.gather x.num).tally.ops = [{ x with ids := w.gatherIds x, direct := beyondFour (w.gatherIds x) }] ∨
        ((w.gather x.num).tally.ops = [{ x with
            ids := w.gatherIds x, direct := beyondFour (w.gatherIds x), stage := .ready }] ∧
          ∀ i ∈ w.gatherIds x, i ∉ beyondFour (w.gatherIds x) →
            ∃ y, (w.gather x.num).line i = some y ∧ y.filling = false)) := by
  rw [gather_eq (op_single hx) hst]
  by_cases hb : w.opBlocked x (w.gatherIds x) = true
  · exact .inl (if_pos hb)
  · right
    rw [if_neg hb]
    let y : TallyOp := { x with ids := w.gatherIds x, direct := beyondFour (w.gatherIds x) }
    have htook : (w.tookLines x.num (w.gatherIds x)).tally.ops = [y] := by
      have hstart : (w.modOp x.num fun o => { o with
          ids := w.gatherIds x, direct := beyondFour (w.gatherIds x) }).tally.ops = [y] := modOp_single hx _
      exact iter_keeps (P := fun u => u.tally.ops = [y]) (fun u hu => (takeNext_ops u x.num).trans hu) 5 hstart
    unfold State.readied
    have hop : (w.tookLines x.num (w.gatherIds x)).op x.num = some y := op_single (o := y) htook
    rw [hop]
    dsimp only
    by_cases hg : (w.tookLines x.num (w.gatherIds x)).opGathered y = true
    · right
      rw [if_pos hg]
      refine ⟨modOp_single (o := y) htook _, fun i hi hdirect => ?_⟩
      have hall := List.all_eq_true.mp hg i hi
      have hnot : y.direct.contains i = false := by simpa [y] using hdirect
      rw [hnot, if_neg Bool.false_ne_true, Bool.and_eq_true] at hall
      rw [modOp_line]
      cases hz : (w.tookLines x.num (w.gatherIds x)).line i with
      | none =>
        rw [hz] at hall
        cases hall.2
      | some z =>
        rw [hz] at hall
        exact ⟨z, rfl, by simpa using hall.2⟩
    · left
      rw [if_neg hg]
      exact htook

theorem chain_length_le (s : State) (p : Nat) : (s.chain p).length ≤ 3 := by
  unfold State.chain
  split
  · rename_i k hk
    cases k.course <;> cases k.dept <;> simp
  · exact Nat.zero_le 3

theorem mem_chain_self {k : Principal} (hp : s.prin p = some k) : p ∈ s.chain p := by
  unfold State.chain
  rw [hp]
  exact List.mem_cons_self

/-- What holds of a Settle as the Tally Unit goes on: its operation, the only one, stays, and its request waits. -/
def State.settling (s w : State) (l : Link) (tag p c : Nat) : Prop :=
  (w.tally.postings = [] ∧ w.tally.modeReply = [] ∧ w.tally.flushing = false) ∧ (w.prin p).isSome = true ∧
    Entered s w l tag .settle true ∧
    ∃ x, w.tally.ops = [x] ∧ x.job = .settle l s.sup.nextReq p c ∧ x.stage ≠ .ready ∧
      (x.stage = .gathering → x.ids = [] ∨ (p ∈ x.ids ∧ x.ids.length ≤ 4))

theorem gatherIds_settle {w : State} {x : TallyOp} (hj : x.job = .settle l r p c) (hsome : (w.prin p).isSome = true)
    (h : x.ids = [] ∨ (p ∈ x.ids ∧ x.ids.length ≤ 4)) : p ∈ w.gatherIds x ∧ (w.gatherIds x).length ≤ 4 := by
  obtain ⟨k, hk⟩ := Option.isSome_iff_exists.mp hsome
  unfold State.gatherIds
  rcases h with h | h
  · rw [h]
    change p ∈ w.jobIds x.job ∧ (w.jobIds x.job).length ≤ 4
    rw [hj]
    refine ⟨List.mem_filter.mpr ⟨mem_chain_self hk, hsome⟩, ?_⟩
    exact Nat.le_trans (List.length_filter_le _ _) (Nat.le_succ_of_le (chain_length_le w p))
  · have hne : x.ids.isEmpty = false := by
      cases hx : x.ids with
      | nil =>
        rw [hx] at h
        cases h.1
      | cons => rfl
    rw [hne]
    exact h

theorem settling_advanceOp {w : State} {tag : Nat} (hw : s.settling w l tag p c) (n : Nat) :
    s.settling (w.advanceOp n) l tag p c := by
  obtain ⟨⟨hpost, hmode, hflush⟩, hsome, hent, x, hx, hj, hst, hids⟩ := id hw
  by_cases hn : n = x.num
  · subst hn
    by_cases hgath : x.stage = .gathering
    · obtain ⟨hmem, hlen⟩ := gatherIds_settle hj hsome (hids hgath)
      have hg := gatherOnly_gather w x.num
      obtain ⟨qpost, qmode, qflush⟩ := hg.queues
      have hentg : Entered s (w.gather x.num) l tag .settle true := hent.congr (by simp only [State.link, hg.links])
      have hgather : ∀ y, (w.gather x.num).tally.ops = [y] → y.job = .settle l s.sup.nextReq p c → y.stage ≠ .ready →
          (y.stage = .gathering → y.ids = [] ∨ (p ∈ y.ids ∧ y.ids.length ≤ 4)) →
          s.settling (w.gather x.num) l tag p c := fun y hy hyj hyst hyids =>
        ⟨⟨qpost.trans hpost, qmode.trans hmode, qflush.trans hflush⟩, by rw [hg.prin]; exact hsome, hentg,
          y, hy, hyj, hyst, hyids⟩
      have hwait : ∀ y, (w.gather x.num).tally.ops = [y] → y.num = x.num → y.stage ≠ .ready →
          w.advanceOp x.num = w.gather x.num := by
        intro y hy hyn hyst
        unfold State.advanceOp
        have hop : (w.gather x.num).op x.num = some y := by
          have hfind := op_single hy
          rwa [hyn] at hfind
        dsimp only
        rw [hop]
        exact if_neg fun h => hyst h.1
      rcases gather_single hx hgath with heq | hgo | ⟨hready, hfilled⟩
      · have hstay := hwait x (by rw [heq]; exact hx) rfl hst
        rw [hstay, heq]
        exact hw
      · rw [hwait _ hgo rfl hst]
        exact hgather _ hgo hj hst fun _ => .inr ⟨hmem, hlen⟩
      · let y : TallyOp := { x with
            ids := w.gatherIds x, direct := beyondFour (w.gatherIds x), stage := .ready }
        obtain ⟨z, hz, hzf⟩ := hfilled p hmem (by rw [beyondFour_short hlen]; exact fun h => nomatch h)
        have hop : (w.gather x.num).op x.num = some y := op_single (o := y) hready
        have hrun : w.advanceOp x.num = (w.gather x.num).runOp x.num := by
          unfold State.advanceOp
          dsimp only
          rw [hop]
          dsimp only
          have hr : y.stage = .ready ∧ y.job.runsAtOnce = true := ⟨rfl, by rw [show y.job = _ from hj]; rfl⟩
          rw [if_pos hr]
          have hcheck : (w.gather x.num).runCheck y.job = none := by
            rw [show y.job = _ from hj]
            refine if_neg ?_
            rw [hg.prin, Option.isNone_eq_false_iff.mpr hsome]
            exact Bool.false_ne_true
          rw [hcheck]
        have hyj : y.job = .settle l s.sup.nextReq p c := hj
        obtain ⟨e, he, hres, hgain⟩ := runOp_settle (o := y) hready hyj hmem hz hzf
        have hpe : (e.prin p).isSome = true := by
          have h2 := congrArg Option.isSome (he.prins p)
          rw [Option.isSome_map, Option.isSome_map, hg.prin] at h2
          rw [h2]
          exact hsome
        have hente : Entered s e l tag .settle true := hentg.gains hgain
        rw [hrun]
        rcases hres with ⟨heq, hops, hws⟩ | heq
        · have hyrun : (w.gather x.num).runOp x.num = e.opReleased y := heq
          obtain ⟨q1, q2, q3, -, -⟩ := opReleased_queues e y
          obtain ⟨ps, hps⟩ := jobRecords_settle_frame e l s.sup.nextReq p c
          obtain ⟨qs, cache, ws, hframe, hprins⟩ :=
            applyChanges_frame y.num (some p) (e.changesOf y) (e.jobRecords (.settle l s.sup.nextReq p c))
          have hstands : e.opStands y =
              (e.jobRecords (.settle l s.sup.nextReq p c)).applyChanges y.num (some p) (e.changesOf y) := by
            unfold State.opStands
            rw [hyj]
            rfl
          have hrsome : ((e.opReleased y).prin p).isSome = true := by
            have h1 := congrArg Option.isSome ((opGraced_graceOnly e y).prins p)
            rw [Option.isSome_map, Option.isSome_map] at h1
            rw [opReleased_prin, h1]
            change ((e.opStands y).prin p).isSome = true
            rw [hstands, hprins]
            exact jobRecords_settle_isSome hpe
          rw [hyrun]
          refine ⟨⟨q1.trans ?_, q2.trans ?_, q3.trans ?_⟩, hrsome, hente.gains fun P k hP => ?_, _, hops, hj,
            fun h => (nomatch h), fun h => nomatch h⟩
          · rw [hstands, hframe, hps]
            exact he.postings.trans (qpost.trans hpost)
          · rw [hstands, hframe, hps]
            exact he.modeReply.trans (qmode.trans hmode)
          · rw [hstands, hframe, hps]
            exact he.flushing.trans (qflush.trans hflush)
          · refine gains_opReleased k y (fun t => ?_) hP
            rw [hyj]
            rfl
        · have hyrun : (w.gather x.num).runOp x.num = e.modOp x.num (fun o => { o with stage := .marking }) := heq
          rw [hyrun]
          refine ⟨⟨he.postings.trans (qpost.trans hpost), he.modeReply.trans (qmode.trans hmode),
            he.flushing.trans (qflush.trans hflush)⟩, hpe, hente.congr rfl, _,
            modOp_single (o := y) (he.ops.trans hready) _, hj, fun h => (nomatch h), fun h => nomatch h⟩
    · have hstay : w.advanceOp x.num = w := by
        refine advanceOp_waits x.num fun y hy => ?_
        rw [hx] at hy
        rw [List.mem_singleton.mp hy]
        exact ⟨hgath, fun h => absurd h hst⟩
      rw [hstay]
      exact hw
  · have hnone : w.op n = none := by
      refine List.find?_eq_none.mpr fun y hy => ?_
      rw [hx] at hy
      rw [List.mem_singleton.mp hy]
      simpa using Ne.symm hn
    have hstay : w.advanceOp n = w := by
      unfold State.advanceOp
      rw [gather_past (fun y hy => by rw [hnone] at hy; cases hy)]
      dsimp only
      rw [hnone]
    rw [hstay]
    exact hw

/-- A request that has come to the Tally Unit and stays with it through the step waits in its queue. -/
theorem queued_finish {u : State} {tag : Nat} {k : ReqKind} (hrun : u.sup.op ≠ .halted)
    (h : Entered s u.advance l tag k true) (hn : u.sup.nextReq = s.sup.nextReq + 1) :
    Queued s u.finish l tag k true := by
  have hnext : u.finish.sup.nextReq = u.sup.nextReq := (finish_settles u).1.2.1
  refine ⟨?_, hnext.trans hn⟩
  rw [finish_running hrun]
  obtain ⟨-, -, hq⟩ := h.gains (v := u.advance.settle) fun P kg hp => gains_settle kg hp
  rw [hq]
  exact List.mem_append_right _ (List.mem_singleton.mpr rfl)

/-! ### A Settle over lines resident and free -/

theorem foldl_modPrin_prin (f : Principal → Principal) {ids : List Nat} (hn : ids.Nodup) (s : State) (k : Nat) :
    (ids.foldl (fun s id => s.modPrin id f) s).prin k = if k ∈ ids then (s.prin k).map f else s.prin k := by
  induction ids generalizing s with
  | nil => rfl
  | cons q qs ih =>
    obtain ⟨hq, hqs⟩ := List.nodup_cons.mp hn
    rw [List.foldl_cons, ih hqs]
    by_cases hk : q = k
    · subst hk
      rw [if_neg hq, if_pos List.mem_cons_self]
      exact State.prin_modPrin s q _
    · have hmem : k ∈ q :: qs ↔ k ∈ qs := by
        rw [List.mem_cons]
        exact or_iff_right (Ne.symm hk)
      simp only [State.prin_modPrin_ne s f hk, hmem]

theorem foldl_modPrin_current {f : Principal → Principal} (hf : ∀ q, (f q).tally = q.tally) (ids : List Nat) (s : State)
    (k : Nat) : (ids.foldl (fun s id => s.modPrin id f) s).current k = s.current k := by
  induction ids generalizing s with
  | nil => rfl
  | cons q qs ih => rw [List.foldl_cons, ih, current_modPrin_of s q hf k]

/-- The pools of a settled person have one unsettled member fewer, where the person was one (R18). -/
theorem jobRecords_settle_spec (hn : (s.chain p).Nodup) :
    (∀ k, (s.jobRecords (.settle l r p c)).current k = s.current k) ∧
      (∀ k, (s.jobRecords (.settle l r p c)).prin k =
        if k ∈ (s.chain p).drop 1 then
          (s.prin k).map fun q => { q with unsettledMembers := q.unsettledMembers - (if s.isUnsettled p then 1 else 0) }
        else s.prin k) := by
  unfold State.jobRecords
  dsimp only
  cases hu : s.isUnsettled p with
  | false =>
    refine ⟨fun _ => rfl, fun k => ?_⟩
    rw [if_neg Bool.false_ne_true]
    have hid : (s.prin k).map (fun q : Principal =>
        { q with unsettledMembers := q.unsettledMembers - (if false = true then 1 else 0) }) = s.prin k := by
      cases s.prin k <;> rfl
    rw [hid]
    split <;> rfl
  | true =>
    rw [if_pos rfl]
    exact ⟨fun k => foldl_modPrin_current (f := fun q => { q with unsettledMembers := q.unsettledMembers - 1 })
        (fun _ => rfl) _ s k,
      fun k => foldl_modPrin_prin (fun q => { q with unsettledMembers := q.unsettledMembers - 1 })
        (hn.sublist (List.drop_sublist 1 _)) s k⟩

/-- The write of the settled person's record is under way (R18). -/
theorem applyChanges_settles (num : Nat) {cs : List TallyChange} {d : TallyChange}
    (hn : (cs.map TallyChange.id).Nodup) (hf : s.linesFilled (cs.map TallyChange.id)) (hd : d ∈ cs) :
    ∃ w ∈ (s.applyChanges num (some d.id) cs).tally.writes,
      w.id = d.id ∧ w.used = d.used ∧ w.reserved = d.reserved ∧ w.settles = true := by
  induction cs generalizing s with
  | nil => cases hd
  | cons e es ih =>
    rw [List.map_cons, List.nodup_cons] at hn
    obtain ⟨he, hn⟩ := hn
    obtain ⟨x, hx, hxf⟩ := hf e.id List.mem_cons_self
    have hfilled : (s.applyChange num (some d.id) e).linesFilled (es.map TallyChange.id) := by
      intro i hi
      rw [applyChange_line_ne num _ s (d := e) fun h => he (by rw [h]; exact hi)]
      exact hf i (List.mem_cons_of_mem _ hi)
    rcases List.mem_cons.mp hd with rfl | hd
    · obtain ⟨ws, hws, -⟩ := (linesChanged_applyChanges num (some d.id) hn hfilled).begun
      have hstep : (s.applyChange num (some d.id) d).tally.writes = s.tally.writes ++
          [{ op := num, id := d.id, used := d.used, reserved := d.reserved, settles := true }] := by
        unfold State.applyChange
        rw [hx]
        dsimp only
        rw [if_neg (by rw [hxf]; exact Bool.false_ne_true), decide_eq_true rfl, Bool.not_true, Bool.and_false,
          if_neg Bool.false_ne_true, Bool.or_true, Bool.true_or, if_pos rfl]
        rfl
      refine ⟨{ op := num, id := d.id, used := d.used, reserved := d.reserved, settles := true }, ?_, rfl, rfl, rfl, rfl⟩
      change _ ∈ ((s.applyChange num (some d.id) d).applyChanges num (some d.id) es).tally.writes
      rw [hws, hstep]
      exact List.mem_append_left _ (List.mem_append_right _ (List.mem_singleton.mpr rfl))
    · exact ih hn hfilled hd

/-- Recounts begun for some pools: each one due has begun, and none has ended (R19). -/
theorem beginRecounts_spec {ids : List Nat} (hop : s.sup.op ≠ .holdup) :
    (∀ i ∈ s.tally.recounts, i ∈ (ids.foldl State.beginRecount s).tally.recounts) ∧
      ∀ i ∈ ids, ∀ k, s.prin i = some k → k.kind = .pool → k.unsettled = true → k.unsettledMembers = 0 →
        i ∈ (ids.foldl State.beginRecount s).tally.recounts := by
  have hone (t : State) (q : Nat) : (∀ i ∈ t.tally.recounts, i ∈ (t.beginRecount q).tally.recounts) ∧
      (t.sup.op ≠ .holdup → ∀ k, t.prin q = some k → k.kind = .pool → k.unsettled = true → k.unsettledMembers = 0 →
        q ∈ (t.beginRecount q).tally.recounts) := by
    unfold State.beginRecount
    cases hq : t.prin q with
    | none => exact ⟨fun _ h => h, fun _ k hk => nomatch hk⟩
    | some k =>
      dsimp only
      by_cases hdue : t.sup.op ≠ .holdup ∧ k.kind = .pool ∧ k.unsettled = true ∧ k.unsettledMembers = 0 ∧
          q ∉ t.tally.recounts
      · rw [if_pos hdue]
        exact ⟨fun i hi => List.mem_append_left _ hi, fun _ _ _ _ _ _ =>
          List.mem_append_right _ (List.mem_singleton.mpr rfl)⟩
      · rw [if_neg hdue]
        refine ⟨fun _ h => h, fun hop k' hk' hpool huns hzero => ?_⟩
        obtain rfl := Option.some.inj hk'
        by_contra hno
        exact hdue ⟨hop, hpool, huns, hzero, hno⟩
  induction ids generalizing s with
  | nil => exact ⟨fun _ h => h, fun i hi => nomatch hi⟩
  | cons q qs ih =>
    have heq := beginRecount_eq s q
    have hop' : (s.beginRecount q).sup.op ≠ .holdup := by
      rw [heq]
      exact hop
    obtain ⟨hkeep, hdue⟩ := ih hop'
    rw [List.foldl_cons]
    refine ⟨fun i hi => hkeep i ((hone s q).1 i hi), fun i hi k hk hpool huns hzero => ?_⟩
    rcases List.mem_cons.mp hi with rfl | hi
    · exact hkeep i ((hone s i).2 hop k hk hpool huns hzero)
    · refine hdue i hi k ?_ hpool huns hzero
      rw [heq]
      exact hk

/-- What a Settle that runs over dirty lines makes of its chain (R18). -/
theorem settled_spec {v : State} (ho : v.tally.ops = [o]) (hj : o.job = .settle l r p c) (hids : o.ids = v.chain p)
    (hp : (v.prin p).isSome = true) (hl : v.plainLines (v.chain p)) (hpost : v.tally.postings = [])
    (hmode : v.tally.modeReply = []) (hflush : v.tally.flushing = false) (hop : v.sup.op = .standby ∨ v.sup.op = .active)
    (hfit : ∀ id ∈ (v.chain p).drop 1, (v.current id).1 + c - (v.current p).1 ≤ maxTally) :
    (v.runOp o.num).tallyWaits ∧ (v.runOp o.num).sup.op = v.sup.op ∧
      (∀ P : Vector LinkRec 6 → Prop, LinksGain P → P v.links → P (v.runOp o.num).links) ∧
      (v.runOp o.num).current p = (c, (v.current p).2) ∧ (v.runOp o.num).isUnsettled p = false ∧
      (∃ w ∈ (v.runOp o.num).tally.writes, w.id = p ∧ w.used = c ∧ w.reserved = (v.current p).2 ∧ w.settles = true) ∧
      (∀ id ∈ (v.chain p).drop 1,
        (v.runOp o.num).current id = ((v.current id).1 + c - (v.current p).1, (v.current id).2) ∧
        ∀ k, v.prin id = some k → ∃ k', (v.runOp o.num).prin id = some k' ∧
          k'.unsettledMembers = k.unsettledMembers - (if v.isUnsettled p then 1 else 0) ∧
          (k.kind = .pool → k.unsettled = true → k'.unsettledMembers = 0 →
            id ∈ (v.runOp o.num).tally.recounts)) ∧
      ∀ id, id ∉ v.chain p → (v.runOp o.num).current id = v.current id := by
  obtain ⟨hn, hdirty, hover, -, -⟩ := hl
  obtain ⟨kp, hkp⟩ := Option.isSome_iff_exists.mp hp
  obtain ⟨rest, hrest⟩ : ∃ rest, v.chain p = p :: rest := by
    unfold State.chain
    rw [hkp]
    exact ⟨_, rfl⟩
  have hself : p ∈ v.chain p := mem_chain_self hkp
  have hcids : (v.changesOf o).map TallyChange.id = v.chain p := (changesOf_settle_ids hj).trans hids
  have hexp : o.expiring = v.chain p := by
    unfold TallyOp.expiring
    rw [hj]
    exact hids
  obtain ⟨x, hx, hxf⟩ := linesFilled_of_dirty hdirty p hself
  have hws : v.opWrites o ≠ [] := opWrites_settle hj (by rw [hids]; exact hself) hx hxf
  obtain ⟨ps, hps⟩ := jobRecords_settle_frame v l r p c
  obtain ⟨jcur, jprin⟩ := jobRecords_settle_spec (l := l) (r := r) (c := c) hn
  let j := v.jobRecords (.settle l r p c)
  have hfilled : j.linesFilled ((v.changesOf o).map TallyChange.id) := by
    intro i hi
    rw [hcids] at hi
    obtain ⟨y, hy, hyf⟩ := linesFilled_of_dirty hdirty i hi
    refine ⟨y, ?_, hyf⟩
    change (v.jobRecords _).line i = some y
    rw [hps]
    exact hy
  have hstands : v.opStands o = j.applyChanges o.num (some p) (v.changesOf o) := by
    unfold State.opStands
    rw [hj]
    rfl
  have hchanged : LinesChanged (some p) (v.changesOf o) j (v.opStands o) := by
    rw [hstands]
    exact linesChanged_applyChanges o.num (some p) (by rw [hcids]; exact hn) hfilled
  have hops : (v.opReleased o).tally.ops = [o.written (v.opWrites o)] := by
    refine opReleased_ops (hchanged.ops.trans ?_) rfl
    change (v.jobRecords _).tally.ops = [o]
    rw [hps]
    exact ho
  have hrun : v.runOp o.num = v.opReleased o := by
    have hmarks : v.marksFor o.job.settled (v.changesOf o) = [] :=
      marksFor_dirty _ fun i hi => hdirty i (by rw [hcids] at hi; exact hi)
    have happlied : (v.opReleased o).jobApplied o = v.opReleased o := by
      unfold State.jobApplied
      rw [hj]
    rw [runOp_eq (op_single ho), hexp, lazyExpireAll_none hover, hmarks, if_pos (by rfl), applyOp_eq (op_single ho),
      happlied]
    unfold State.completeOp
    have hopr : (v.opReleased o).op o.num = some (o.written (v.opWrites o)) :=
      op_single (o := o.written (v.opWrites o)) hops
    rw [hopr]
    exact if_pos hws
  have hjsup : j.sup = v.sup ∧ j.tally.postings = v.tally.postings ∧ j.tally.modeReply = v.tally.modeReply ∧
      j.tally.flushing = v.tally.flushing := by
    change (v.jobRecords _).sup = _ ∧ (v.jobRecords _).tally.postings = _ ∧ (v.jobRecords _).tally.modeReply = _ ∧
      (v.jobRecords _).tally.flushing = _
    rw [hps]
    exact ⟨rfl, rfl, rfl, rfl⟩
  obtain ⟨q1, q2, q3, -, q5⟩ := opReleased_queues v o
  have hqs := hchanged.queues
  have hgr := opGraced_graceOnly v o
  have hssup : (v.opStands o).sup = v.sup := by
    rw [hchanged.frame]
    exact hjsup.1
  have hmemp : ({ id := p, used := c, reserved := (v.current p).2 } : TallyChange) ∈ v.changesOf o := by
    rw [changesOf_settle hj, hids]
    exact List.mem_map.mpr ⟨p, hself, if_pos rfl⟩
  obtain ⟨w, hw, hwid, hwu, hwr, hwset⟩ :=
    applyChanges_settles (s := j) o.num (d := { id := p, used := c, reserved := (v.current p).2 })
      (by rw [hcids]; exact hn) hfilled hmemp
  have hwrel : w ∈ (v.opReleased o).tally.writes := by
    rw [q5, hstands]
    exact hw
  have hrest' : (v.chain p).drop 1 = rest := by
    rw [hrest]
    rfl
  rw [hrun]
  refine ⟨?_, ?_, fun P k hP => ?_, ?_, ?_, ⟨w, hwrel, hwid, hwu, hwr, hwset⟩, fun id hid => ⟨?_, fun k hk => ?_⟩,
    fun id hid => ?_⟩
  · refine ⟨fun y hy => ?_, (q1.trans hqs.1).trans (hjsup.2.1.trans hpost),
      (q2.trans hqs.2.1).trans (hjsup.2.2.1.trans hmode), (q3.trans hqs.2.2).trans (hjsup.2.2.2.trans hflush)⟩
    rw [hops] at hy
    rw [List.mem_singleton.mp hy]
    exact ⟨fun h => (nomatch h), fun h => nomatch h⟩
  · rw [(opReleased_sup v o).1.1, hssup]
  · refine gains_opReleased k o (fun t => ?_) hP
    rw [hj]
    rfl
  · rw [opReleased_current]
    exact hchanged.current hmemp
  · have hany : ((v.opReleased o).tally.writes.any fun w => w.id == p && w.settles) = true :=
      List.any_eq_true.mpr ⟨w, hwrel, by rw [hwset, beq_iff_eq.mpr hwid]; rfl⟩
    unfold State.isUnsettled
    rw [hany]
    cases (v.opReleased o).prin p with
    | none => rfl
    | some q => exact Bool.and_false _
  · have hne : id ≠ p := by
      rintro rfl
      rw [hrest'] at hid
      rw [hrest] at hn
      exact (List.nodup_cons.mp hn).1 hid
    have hmem : ({ id := id, used := (v.current id).1 + c - (v.current p).1, reserved := (v.current id).2 } :
        TallyChange) ∈ v.changesOf o := by
      rw [changesOf_settle hj, hids]
      refine List.mem_map.mpr ⟨id, List.mem_of_mem_drop hid, ?_⟩
      rw [if_neg hne, fitTally_of_le (hfit id hid)]
    rw [opReleased_current]
    exact hchanged.current hmem
  · have hjk := jprin id
    rw [if_pos hid, hk, Option.map_some] at hjk
    have hget {α : Type} (f : Principal → α) (hf : ∀ q : Principal, f q.ungraced = f q) :
        ((v.opGraced o).prin id).map f = some (f { k with
          unsettledMembers := k.unsettledMembers - (if v.isUnsettled p then 1 else 0) }) := by
      refine (hgr.of_prin f hf id).trans ?_
      change ((v.opStands o).prin id).map f = _
      rw [hchanged.prin]
      exact congrArg (Option.map f) hjk
    obtain ⟨k', hk', he⟩ := Option.map_eq_some_iff.mp (hget (fun q => (q.kind, q.unsettled, q.unsettledMembers))
      fun _ => rfl)
    simp only [Prod.mk.injEq] at he
    obtain ⟨ekind, euns, emem⟩ := he
    refine ⟨k', (opReleased_prin v o id).trans hk', emem, fun hpool huns hzero => ?_⟩
    have hnotup : (v.opGraced o).sup.op ≠ .holdup := by
      rw [hgr.sup.1]
      change (v.opStands o).sup.op ≠ .holdup
      rw [hssup]
      rcases hop with h | h <;> rw [h] <;> decide
    have hrids : v.recountIds o.job = (v.chain p).drop 1 := by
      rw [hj]
      rfl
    change id ∈ ((v.recountIds o.job).foldl State.beginRecount (v.opGraced o)).tally.recounts
    exact (beginRecounts_spec hnotup).2 id (by rw [hrids]; exact hid) k' hk' (ekind.trans hpool) (euns.trans huns) hzero
  · rw [opReleased_current, hchanged.current_kept (by rw [hcids]; exact hid)]
    exact jcur id

end

end Sys2Proof.Machine
end

section
/-! PROOF. Admit, Release and Settle as they are taken (R15, R18, R24). -/

open Sys2Proof Sys2Proof.Machine

/-- Settles O19. -/
theorem admitReleaseSettleAreTaken : Obligations.AdmitReleaseSettleAreTaken := by
  have hperson {s : State} {p : Nat} (h : s.isPerson p = true) : ¬s.isPerson p = false := by
    rw [h]
    exact fun h => nomatch h
  refine ⟨?_, ?_, ?_, ?_, ?_, ?_, ?_, ?_, ?_, ?_, ?_⟩
  · intro s l tag p n q part h ht hn1 hn2 hq1 hq2 hp
    let job : Job := .admitReq l s.sup.nextReq p n q part
    let u := (s.asked l tag .admitReq).pushOp job
      ((s.asked l tag .admitReq).touchingPostings ((s.asked l tag .admitReq).chain p))
    have hrunning := takes_running h
    have hrun : u.sup.op ≠ .halted := hrunning
    have hops : ∀ o ∈ u.tally.ops, o.job.runsAtOnce = false := by
      intro o ho
      rcases List.mem_append.mp ho with ho | ho
      · have hnone : (s.asked l tag .admitReq).tally.ops = [] := ht.1
        rw [hnone] at ho
        cases ho
      · rw [List.mem_singleton.mp ho]
        rfl
    have hg : GatherOnly u u.advance := advance_gatherOnly hops ht.2.1 ht.2.2.1 ht.2.2.2
    have hent : Entered s u.advance l tag .admitReq true :=
      (entered_asked s l tag .admitReq).congr (by simp only [State.link, hg.links]; rfl)
    have htally : u.finish.tally = u.advance.tally := by
      rw [finish_running hrun]
      exact settle_tally u.advance
    obtain ⟨o, ho, -, hoj⟩ := hg.mem_of (o := _) (List.mem_append_right s.tally.ops (List.mem_singleton.mpr rfl))
    refine ⟨u.finish, ?_, queued_finish hrun hent rfl, ⟨o, by rw [htally]; exact ho, hoj⟩, ?_⟩
    · rw [exec_admitReq tag h, if_neg (by omega), if_neg (hperson hp)]
    · rw [htally]
      exact hg.principals
  · intro s l tag p n q part h hbad
    refine ⟨s.replied l tag .admitReq .range (.admitReq 0 0 0), ?_, spared_replied tag _ _ _ h, answered_replied tag _ _ _ h⟩
    rw [exec_admitReq tag h, if_pos hbad]
    rfl
  · intro s l tag p n q part h hn1 hn2 hq1 hq2 hp
    refine ⟨s.replied l tag .admitReq .unknownPrincipal (.admitReq 0 0 0), ?_, spared_replied tag _ _ _ h,
      answered_replied tag _ _ _ h⟩
    rw [exec_admitReq tag h, if_neg (by omega), if_pos hp]
    rfl
  · intro s l tag p b h hops hmode hb1 hb2 hp hroom
    let u := (s.postedIn l tag p b).reply l s.sup.nextReq .accepted .none
    have hrunning := takes_running h
    have hrun : u.sup.op ≠ .halted := hrunning
    have hnone : ∀ o ∈ u.tally.ops, o.job.runsAtOnce = false := by
      intro o ho
      have hu : u.tally.ops = [] := hops
      rw [hu] at ho
      cases ho
    have hg : Tidied u u.advance := advance_tidied hnone hmode
    have htally : u.finish.tally = u.advance.tally := by
      rw [finish_running hrun]
      exact settle_tally u.advance
    refine ⟨u.finish, ?_, ?_, ?_, ?_⟩
    · rw [exec_release tag h, if_neg (by omega), if_neg (hperson hp)]
      exact congrArg Host.Outcome.next (congrArg State.finish (if_pos hroom))
    · exact answered_finish .accepted .none h ((entered_asked s l tag .release).congr rfl)
    · rw [htally]
      exact hg.postings
    · rw [htally]
      exact hg.principals
  · intro s l tag p b h hops hmode hb1 hb2 hp hfull
    let u := (s.asked l tag .release).pushOp (.release l s.sup.nextReq p b) []
    have hrunning := takes_running h
    have hrun : u.sup.op ≠ .halted := hrunning
    have hou : u.tally.ops = [(s.asked l tag .release).firstOp (.release l s.sup.nextReq p b)] := pushOp_ops hops _
    obtain ⟨k, hk⟩ := prin_of_isPerson hp
    have hgoes : s.releaseGoes u l tag p b := by
      refine ⟨rfl, hmode, ?_, .inl ⟨⟨_, by rw [hou]; exact List.mem_singleton.mpr rfl, rfl⟩, fun o ho _ => ?_,
        (entered_asked s l tag .release).congr rfl⟩⟩
      · change (s.prin p).isSome = true
        rw [hk]
        rfl
      · rw [hou] at ho
        rw [List.mem_singleton.mp ho]
        exact ⟨rfl, rfl⟩
    obtain ⟨hpost, -, -, hor⟩ := releaseGoes_advance h hgoes
    have htally : u.finish.tally = u.advance.tally := by
      rw [finish_running hrun]
      exact settle_tally u.advance
    refine ⟨u.finish, ?_, by rw [htally]; exact hpost, ?_⟩
    · rw [exec_release tag h, if_neg (by omega), if_neg (hperson hp)]
      exact congrArg Host.Outcome.next (congrArg State.finish (if_neg (Nat.not_lt.mpr hfull)))
    · rcases hor with ⟨hex, -, -⟩ | ⟨-, hans⟩
      · left
        rw [htally]
        exact hex
      · right
        rw [finish_running hrun]
        exact hans.settles (settles_settle (Settles.refl _))
  · intro s l tag p b h hbad
    refine ⟨s.replied l tag .release .range .none, ?_, spared_replied tag _ _ _ h, answered_replied tag _ _ _ h⟩
    rw [exec_release tag h, if_pos hbad]
    rfl
  · intro s l tag p b h hb1 hb2 hp
    refine ⟨s.replied l tag .release .unknownPrincipal .none, ?_, spared_replied tag _ _ _ h, answered_replied tag _ _ _ h⟩
    rw [exec_release tag h, if_neg (by omega), if_pos hp]
    rfl
  · intro s l tag p c h ht hp hc
    let u := (s.asked l tag .settle).pushOp (.settle l s.sup.nextReq p c) []
    have hrunning := takes_running h
    have hrun : u.sup.op ≠ .halted := hrunning
    obtain ⟨k, hk⟩ := prin_of_isPerson hp
    have hstart : s.settling u l tag p c := by
      refine ⟨ht.2, ?_, (entered_asked s l tag .settle).congr rfl, _, pushOp_ops ht.1 _, rfl, fun h => (nomatch h),
        fun _ => .inl rfl⟩
      change (s.prin p).isSome = true
      rw [hk]
      rfl
    obtain ⟨-, -, hent, x, hx, hj, -, -⟩ := advance_keeps (P := fun w => s.settling w l tag p c)
      (fun w hw => ⟨hw.1.2.2, hw.1.1, hw.1.2.1⟩) (fun w n hw => settling_advanceOp hw n) hstart
    refine ⟨u.finish, ?_, queued_finish hrun hent rfl, x, ?_, hj⟩
    · rw [exec_settle tag h, if_neg (hperson hp), if_neg (Nat.not_lt.mpr hc)]
    · rw [finish_running hrun, settle_tally, hx]
      exact List.mem_singleton.mpr rfl
  · intro s l tag p c h ht hp hc hl hfree hcast hwrites hfit
    let job : Job := .settle l s.sup.nextReq p c
    let u := (s.asked l tag .settle).pushOp job []
    let o := (s.asked l tag .settle).firstOp job
    let ids := s.chain p
    let v := u.holding (o.gathered ids) ids
    have hrunning := takes_running h
    have hrun : u.sup.op ≠ .halted := hrunning
    obtain ⟨k, hk⟩ := prin_of_isPerson hp
    have hsome : (s.prin p).isSome = true := by rw [hk]; rfl
    have hlu : u.plainLines ids := hl
    have hcur (i : Nat) : v.current i = s.current i := by
      refine (holding_current (s := u) hcast _ _ i).trans ?_
      exact current_congr rfl rfl rfl (fun _ => rfl) i
    have hops : u.tally.ops = [o] := pushOp_ops ht.1 _
    have hadvance : u.advanceOp o.num = v.runOp (o.gathered ids).num := by
      refine advanceOp_resident hops rfl rfl (List.filter_eq_self.mpr hl.2.2.2.2)
        (Nat.le_succ_of_le (chain_length_le s p)) ht.2.1 hlu.2.1 hfree (fun i hi => nomatch hi) hcast rfl ?_
      refine if_neg ?_
      change ¬(s.prin p).isNone = true
      rw [Option.isNone_eq_false_iff.mpr hsome]
      exact Bool.false_ne_true
    obtain ⟨hwaits, hsup, hgain, hcp, hunp, ⟨w, hw⟩, hpools, hothers⟩ :=
      settled_spec (v := v) (o := o.gathered ids) (l := l) (r := s.sup.nextReq) (p := p) (c := c) rfl rfl rfl hsome
        (holding_plainLines _ hlu) ht.2.1 ht.2.2.1 ht.2.2.2 h.1
        (fun id hid => by rw [hcur, hcur]; exact hfit id hid)
    let e := v.runOp (o.gathered ids).num
    have herun : e.sup.op ≠ .halted := by
      rw [hsup]
      exact hrunning
    have hfin : u.finish = e.finish := finish_advanced h.1 hops ht.2.1 ht.2.2.2 hadvance hwaits herun
    have htally : u.finish.tally = e.tally := by
      rw [hfin]
      exact finish_waits_tally hwaits
    have hcurs (i : Nat) : u.finish.current i = e.current i := current_of_tally htally i
    have huns : v.isUnsettled p = s.isUnsettled p := rfl
    have hent : Entered s u.advance l tag .settle true := by
      rw [advance_single (u := u) h.1 hops ht.2.1 ht.2.2.2 hadvance hwaits]
      exact (entered_asked s l tag .settle).gains hgain
    refine ⟨u.finish, ?_, queued_finish hrun hent rfl, ?_, ?_, ⟨w, by rw [htally]; exact hw.1, ?_⟩,
      fun id hid => ⟨?_, fun k hk => ?_⟩, fun id hid => ?_⟩
    · rw [exec_settle tag h, if_neg (hperson hp), if_neg (Nat.not_lt.mpr hc)]
    · rw [hcurs, hcp, hcur]
    · have hu := hunp
      simp only [State.isUnsettled, State.prin] at hu ⊢
      rw [htally]
      exact hu
    · obtain ⟨-, h1, h2, h3, h4⟩ := hw
      rw [hcur] at h3
      exact ⟨h1, h2, h3, h4⟩
    · rw [hcurs, (hpools id hid).1, hcur, hcur]
    · obtain ⟨k', hk', hmem, hrec⟩ := (hpools id hid).2 k hk
      refine ⟨k', ?_, hmem, ?_⟩
      · simp only [State.prin, htally]
        exact hk'
      · rw [htally]
        exact hrec
    · rw [hcurs, hothers id hid, hcur]
  · intro s l tag p c h hp
    refine ⟨s.replied l tag .settle .unknownPrincipal .none, ?_, spared_replied tag _ _ _ h, answered_replied tag _ _ _ h⟩
    rw [exec_settle tag h, if_pos hp]
    rfl
  · intro s l tag p c h hp hc
    refine ⟨s.replied l tag .settle .range .none, ?_, spared_replied tag _ _ _ h, answered_replied tag _ _ _ h⟩
    rw [exec_settle tag h, if_neg (hperson hp), if_pos hc]
    rfl

end

section
/-! PROOF. Commits that a check refuses (R53). -/

namespace Sys2Proof.Machine

section
variable {s : State} {l : Link} {vol ext owner loc occ : Nat} {codes : Option (List Code)} {v : Volume}

/-- The state that an accepted Commit leaves before its reply (R53, R54). -/
def State.committed (s : State) (vol ext owner loc occ : Nat) (codes : Option (List Code)) : State :=
  if (s.commit vol ext owner loc occ codes).1.rewrite then
    (s.commit vol ext owner loc occ codes).2.abandonRewritten vol ext (s.extent vol ext).live
  else (s.commit vol ext owner loc occ codes).2

theorem exec_commit (tag : Nat) (h : s.takes l) :
    Machine.exec (.commit l tag vol ext owner loc occ codes []) s =
      .next (State.finish (match s.commitCheck (some l) none vol ext owner loc occ codes with
        | some st => (s.asked l tag .commit).reply l s.sup.nextReq st .none
        | none =>
          ((s.asked l tag .commit).committed vol ext owner loc occ codes).reply l s.sup.nextReq .done
            (.commit (match (((s.asked l tag .commit).committed vol ext owner loc occ codes).extent vol ext).live with
                | some v => v.birth
                | none => 0)
              ((s.asked l tag .commit).commit vol ext owner loc occ codes).1.verdict))) := by
  refine (act_asked tag .commit _ h (.inl rfl)).trans (congrArg Host.Outcome.next (congrArg State.finish ?_))
  have hcheck : (s.asked l tag .commit).commitCheck (some l) none vol ext owner loc occ codes =
      s.commitCheck (some l) none vol ext owner loc occ codes := rfl
  rw [hcheck]
  cases s.commitCheck (some l) none vol ext owner loc occ codes <;> rfl

theorem commit_refused {st : Status} (tag : Nat) (h : s.takes l)
    (hc : s.commitCheck (some l) none vol ext owner loc occ codes = some st) :
    Machine.exec (.commit l tag vol ext owner loc occ codes []) s = .next (s.replied l tag .commit st .none) ∧
      Answered s (s.replied l tag .commit st .none) l tag .commit st .none ∧
      Spared s (s.replied l tag .commit st .none) := by
  refine ⟨?_, answered_replied tag _ _ _ h, spared_replied tag _ _ _ h⟩
  rw [exec_commit tag h, hc]
  rfl

theorem codesFit_of_match (h : codesMatch codes occ) : codesFit occ codes = true := by
  rcases h with ⟨rfl, rfl⟩ | ⟨h16, hpos⟩
  · rfl
  · cases codes with
    | none => cases h16
    | some cs =>
      have hlen : cs.length = 16 := by simpa using h16
      unfold codesFit
      simp [hpos, hlen]

/-! ### The checks that pass, one after the other -/

/-- Owner, occupied count and codes of a Commit are in their ranges. -/
structure CommitFits (owner occ : Nat) (codes : Option (List Code)) : Prop where
  owner_ge : 1 ≤ owner
  owner_le : owner ≤ 16777215
  occ_le : occ ≤ 1024
  codes_fit : codesMatch codes occ

/-- The plan of a Commit in the generation of its volume. -/
def State.plan (s : State) (vol ext : Nat) (v : Volume) (loc occ : Nat) (codes : Option (List Code)) : CommitPlan :=
  s.planCommit vol ext v.gen (s.extent vol ext) loc occ (codes.getD [])

/-- The checks of Table 3-4 that look at the extent. -/
def State.extentCheck (s : State) (vol ext loc occ : Nat) (codes : Option (List Code)) (v : Volume) : Option Status :=
  if v.count ≤ ext then some .range
  else if lockPasses (s.extent vol ext).lock none = false then some .extentLocked
  else if s.damaged vol ext = true then some .damaged
  else if ((s.extent vol ext).versions.any fun x =>
        decide (x.loc = some loc) && !((s.plan vol ext v loc occ codes).rewrite && x.death.isNone)) ∨
      (s.cat.reclaims.any fun r =>
        decide (r.vol = vol) && decide (r.ext = ext) && decide (r.loc = loc)) then some .inUse
  else if s.reclaimFull (s.plan vol ext v loc occ codes).entries.length = true then some .busy
  else if (s.plan vol ext v loc occ codes).stuck = true then some .versionPinned
  else none

theorem commitCheck_fits (h : CommitFits owner occ codes) (hv : s.volume vol = some v) :
    s.commitCheck (some l) none vol ext owner loc occ codes =
      if l ≠ v.owner then some .notPermitted else s.extentCheck vol ext loc occ codes v := by
  unfold State.commitCheck
  obtain ⟨h1, h2, h3, h4⟩ := h
  rw [if_neg (by omega), codesFit_of_match h4, if_neg (by exact fun h => nomatch h), hv]
  dsimp only
  by_cases hl : l ≠ v.owner
  · rw [if_pos hl, if_pos ⟨rfl, fun he => hl (Option.some.inj he)⟩]
  · rw [if_neg hl, if_neg (fun hc => hl fun he => hc.2 (congrArg some he))]
    rfl

theorem commitCheck_range (h : owner < 1 ∨ 16777215 < owner ∨ 1024 < occ) :
    s.commitCheck (some l) none vol ext owner loc occ codes = some .range := if_pos h

theorem commitCheck_malformed (h1 : 1 ≤ owner) (h2 : owner ≤ 16777215) (h3 : occ ≤ 1024)
    (h : (codes = none ∧ 0 < occ) ∨ (codes ≠ none ∧ occ = 0)) :
    s.commitCheck (some l) none vol ext owner loc occ codes = some .malformed := by
  have hfit : codesFit occ codes = false := by
    unfold codesFit
    rcases h with ⟨rfl, hpos⟩ | ⟨hne, rfl⟩
    · simpa using Nat.ne_of_gt hpos
    · cases codes with
      | none => exact absurd rfl hne
      | some cs => simp
  unfold State.commitCheck
  rw [if_neg (by omega), hfit, if_pos rfl]

theorem commitCheck_unknown (h : CommitFits owner occ codes) (hv : 31 < vol ∨ s.volume vol = none) :
    s.commitCheck (some l) none vol ext owner loc occ codes = some .unknownVolume := by
  have hnone : s.volume vol = none := by
    rcases hv with hv | hv
    · exact if_neg (by omega)
    · exact hv
  obtain ⟨h1, h2, h3, h4⟩ := h
  unfold State.commitCheck
  rw [if_neg (by omega), codesFit_of_match h4, if_neg (by exact fun h => nomatch h), hnone]

theorem extentCheck_locked (hc : ext < v.count) (h : (s.extent vol ext).lock.isSome = true) :
    s.extentCheck vol ext loc occ codes v = some .extentLocked := by
  unfold State.extentCheck
  rw [if_neg (Nat.not_le.mpr hc), if_pos]
  unfold lockPasses
  cases hl : (s.extent vol ext).lock with
  | none =>
    rw [hl] at h
    cases h
  | some r => rfl

theorem extentCheck_damaged (hc : ext < v.count) (hl : (s.extent vol ext).lock = none)
    (h : s.damaged vol ext = true) : s.extentCheck vol ext loc occ codes v = some .damaged := by
  unfold State.extentCheck
  rw [if_neg (Nat.not_le.mpr hc), hl, if_neg (by exact fun h => nomatch h), if_pos h]

/-- What the checks of version list and tables say of an extent that is not locked or damaged. -/
theorem extentCheck_sound (hc : ext < v.count) (hl : (s.extent vol ext).lock = none) (hd : s.damaged vol ext = false) :
    s.extentCheck vol ext loc occ codes v =
      if ((s.extent vol ext).versions.any fun x =>
          decide (x.loc = some loc) && !((s.plan vol ext v loc occ codes).rewrite && x.death.isNone)) ∨
        (s.cat.reclaims.any fun r =>
          decide (r.vol = vol) && decide (r.ext = ext) && decide (r.loc = loc)) then some .inUse
      else if s.reclaimFull (s.plan vol ext v loc occ codes).entries.length = true then some .busy
      else if (s.plan vol ext v loc occ codes).stuck = true then some .versionPinned
      else none := by
  unfold State.extentCheck
  rw [if_neg (Nat.not_le.mpr hc), hl, if_neg (by exact fun h => nomatch h), hd, if_neg Bool.false_ne_true]

/-! ### The plan of a Commit -/

/-- A plan rewrites in place only where the live version is of the generation (R54). -/
theorem plan_rewrite (h : (s.plan vol ext v loc occ codes).rewrite = true) :
    ∃ y ∈ (s.extent vol ext).versions, y.death = none ∧ y.birth = v.gen := by
  unfold State.plan State.planCommit at h
  dsimp only at h
  cases hlive : (s.extent vol ext).live with
  | none =>
    rw [hlive] at h
    cases h
  | some lv =>
    rw [hlive] at h
    dsimp only at h
    by_cases hb : lv.birth = v.gen
    · exact ⟨lv, List.mem_of_find?_eq_some hlive, by simpa using List.find?_some hlive, hb⟩
    · rw [if_neg hb] at h
      cases h

theorem live_head {lv : Version} {rest : List Version} (hvs : (s.extent vol ext).versions = lv :: rest)
    (hd : lv.death = none) : (s.extent vol ext).live = some lv := by
  unfold Extent.live
  rw [hvs, List.find?_cons_of_pos]
  rw [hd]
  rfl

/-- The plan where the live version heads the list and is of the generation (R54). -/
theorem plan_rewrites {lv : Version} {rest : List Version} (hvs : (s.extent vol ext).versions = lv :: rest)
    (hd : lv.death = none) (hb : lv.birth = v.gen) :
    s.plan vol ext v loc occ codes =
      { rewrite := true
        verdict := if lv.loc = some loc then .kept else if lv.refs = 0 then .now else .later
        versions := (mapIf (fun w => w.death.isNone)
          (fun w => { newVersion s.sup.clock v.gen loc occ (codes.getD []) with
            birth := w.birth, res := .here loc (if lv.loc = some loc then lv.refs else 0) }) (lv :: rest)).filter
          (s.stays vol)
        entries := (if lv.loc = some loc ∨ lv.refs = 0 then [] else lv.reclaim vol ext) ++
          ((mapIf (fun w => w.death.isNone)
            (fun w => { newVersion s.sup.clock v.gen loc occ (codes.getD []) with
              birth := w.birth, res := .here loc (if lv.loc = some loc then lv.refs else 0) }) (lv :: rest)).filter
            fun w => !(s.stays vol w)).flatMap fun w => w.reclaim vol ext
        thinned := none, stuck := false } := by
  unfold State.plan State.planCommit
  rw [live_head hvs hd]
  dsimp only
  rw [if_pos hb, hvs]
  simp only [decide_eq_true_eq]

/-- The live version that a Commit supersedes, dead at the current generation (R55). -/
def Version.superseded (lv : Version) (gen : Nat) : Version := { lv with death := some gen }

/-- The list that a Commit behind an older live version makes, before any version leaves it (R55). -/
def State.listedBehind (s : State) (v : Volume) (loc occ : Nat) (codes : Option (List Code)) (lv : Version)
    (vs : List Version) : List Version :=
  newVersion s.sup.clock v.gen loc occ (codes.getD []) ::
    mapIf (fun w => w.death.isNone) (fun _ => lv.superseded v.gen) vs

/-- The version that thinning takes from those that stay (R57). -/
def State.thinFrom (s : State) (vol : Nat) (all : List Version) : Option Version :=
  if (all.filter (s.stays vol)).length ≤ Config.versionListSize then none
  else s.thinnedOf vol (all.filter (s.stays vol))

/-- The list that a Commit leaves (R57). -/
def State.keptOf (s : State) (vol : Nat) (all : List Version) : List Version :=
  (all.filter (s.stays vol)).filter fun w => decide (some w ≠ s.thinFrom vol all)

/-- The plan where the live version heads the list and is older than the generation (R55 to R57). -/
theorem plan_supersedes {lv : Version} {rest : List Version} (hvs : (s.extent vol ext).versions = lv :: rest)
    (hd : lv.death = none) (hb : lv.birth ≠ v.gen) :
    s.plan vol ext v loc occ codes =
      { rewrite := false
        verdict :=
          if (s.keptOf vol (s.listedBehind v loc occ codes lv (lv :: rest))).contains (lv.superseded v.gen) then .kept
          else if lv.refs = 0 then .now else .later
        versions := s.keptOf vol (s.listedBehind v loc occ codes lv (lv :: rest))
        entries := (((s.listedBehind v loc occ codes lv (lv :: rest)).filter fun w =>
            !((s.keptOf vol (s.listedBehind v loc occ codes lv (lv :: rest))).contains w)).filter fun w =>
              decide (w ≠ lv.superseded v.gen) || decide (lv.refs ≠ 0)).flatMap fun w => w.reclaim vol ext
        thinned := s.thinFrom vol (s.listedBehind v loc occ codes lv (lv :: rest))
        stuck := decide (Config.versionListSize <
            ((s.listedBehind v loc occ codes lv (lv :: rest)).filter (s.stays vol)).length) &&
          (s.thinFrom vol (s.listedBehind v loc occ codes lv (lv :: rest))).isNone } := by
  unfold State.plan State.planCommit
  rw [live_head hvs hd]
  dsimp only
  rw [if_neg hb, hvs]
  rfl

/-- A dead version that no snapshot holds does not stay (R51). -/
theorem not_stays_superseded {lv : Version} (h : ∀ p ∈ s.snapsOf vol, lv.birth ≤ p.gen → v.gen ≤ p.gen) :
    s.stays vol (lv.superseded v.gen) = false := by
  unfold State.stays State.isHeld
  rw [Bool.or_eq_false_iff, List.any_eq_false]
  refine ⟨rfl, fun p hp => ?_⟩
  unfold Version.heldAt Version.superseded
  simp only [Bool.and_eq_true, decide_eq_true_eq, not_and, Nat.not_lt]
  exact h p hp

theorem superseded_mem {lv : Version} (hd : lv.death = none) (rest : List Version) :
    lv.superseded v.gen ∈ s.listedBehind v loc occ codes lv (lv :: rest) := by
  refine List.mem_cons_of_mem _ ?_
  refine List.mem_map.mpr ⟨lv, List.mem_cons_self, if_pos ?_⟩
  dsimp only
  rw [hd]
  rfl

/-- A superseded location with references out makes an entry (R54, R59). -/
theorem plan_entries_pos {lv : Version} {rest : List Version} {old refs : Nat}
    (hvs : (s.extent vol ext).versions = lv :: rest) (hd : lv.death = none) (hres : lv.res = .here old refs)
    (hpos : 0 < refs) (hne : old ≠ loc)
    (hb : lv.birth = v.gen ∨ (lv.birth < v.gen ∧ ∀ p ∈ s.snapsOf vol, lv.birth ≤ p.gen → v.gen ≤ p.gen)) :
    0 < (s.plan vol ext v loc occ codes).entries.length := by
  have hloc : lv.loc ≠ some loc := by
    unfold Version.loc
    rw [hres]
    exact fun h => hne (Option.some.inj h)
  have hrefs : lv.refs = refs := by
    unfold Version.refs
    rw [hres]
  have hrec : lv.reclaim vol ext = [{ vol := vol, ext := ext, loc := old, refs := refs }] := by
    unfold Version.reclaim
    rw [hres]
  rcases hb with hb | ⟨hlt, hheld⟩
  · rw [plan_rewrites hvs hd hb]
    dsimp only
    rw [if_neg (by rintro (h | h); exacts [hloc h, Nat.ne_of_gt hpos (hrefs.symm.trans h)]), hrec]
    exact Nat.succ_pos _
  · rw [plan_supersedes hvs hd (Nat.ne_of_lt hlt)]
    refine List.length_pos_of_mem (a := { vol := vol, ext := ext, loc := old, refs := refs })
      (List.mem_flatMap.mpr ⟨lv.superseded v.gen, ?_, ?_⟩)
    · refine List.mem_filter.mpr ⟨List.mem_filter.mpr ⟨superseded_mem hd rest, ?_⟩, ?_⟩
      · rw [Bool.not_eq_true']
        refine Bool.eq_false_iff.mpr fun hc => ?_
        have hmem := List.mem_of_mem_filter (List.contains_iff_mem.mp hc)
        have hstays := (List.mem_filter.mp hmem).2
        rw [not_stays_superseded hheld] at hstays
        cases hstays
      · rw [Bool.or_eq_true]
        right
        rw [hrefs]
        simpa using Nat.ne_of_gt hpos
    · unfold Version.superseded Version.reclaim
      rw [hres]
      exact List.mem_singleton.mpr rfl

end

end Sys2Proof.Machine

open Sys2Proof Sys2Proof.Machine

/-- Settles O31. -/
theorem commitIsRefusedWithoutChange : Obligations.CommitIsRefusedWithoutChange := by
  refine ⟨?_, ?_, ?_, ?_⟩
  · intro s l tag vol ext owner loc occ codes h hbad
    exact ⟨_, commit_refused tag h (commitCheck_range hbad)⟩
  · intro s l tag vol ext owner loc occ codes h h1 h2 h3 hbad
    exact ⟨_, commit_refused tag h (commitCheck_malformed h1 h2 h3 hbad)⟩
  · intro s l tag vol ext owner loc occ codes h h1 h2 h3 h4 hv
    exact ⟨_, commit_refused tag h (commitCheck_unknown ⟨h1, h2, h3, h4⟩ hv)⟩
  · intro s l tag vol ext owner loc occ codes v h h1 h2 h3 h4 hv
    have hcheck := commitCheck_fits (l := l) (ext := ext) (loc := loc) ⟨h1, h2, h3, h4⟩ hv
    have hrefused (st : Status) (hc : s.commitCheck (some l) none vol ext owner loc occ codes = some st) :
        ∀ t, Machine.exec (.commit l tag vol ext owner loc occ codes []) s = .next t →
          Answered s t l tag .commit st .none ∧ Spared s t := by
      intro t ht
      obtain ⟨hexec, hans, hspared⟩ := commit_refused tag h hc
      rw [hexec] at ht
      obtain rfl := Host.Outcome.next.inj ht
      exact ⟨hans, hspared⟩
    refine ⟨_, exec_commit tag h, fun hl => ?_, fun hl hc => ?_, fun hl hc hlock => ?_, fun hl hc hlock hd => ?_,
      fun hl hc hlock hd huse => ?_, fun lv rest old refs hl hc hlock hd hvs hrest hrec hlive hres hpos hne hb hfull => ?_⟩
    · exact hrefused _ (hcheck.trans (if_pos hl)) _ (exec_commit tag h)
    · exact hrefused _ ((hcheck.trans (if_neg fun hn => hn hl)).trans (if_pos hc)) _ (exec_commit tag h)
    · exact hrefused _ ((hcheck.trans (if_neg fun hn => hn hl)).trans (extentCheck_locked hc hlock)) _ (exec_commit tag h)
    · exact hrefused _ ((hcheck.trans (if_neg fun hn => hn hl)).trans (extentCheck_damaged hc hlock hd)) _
        (exec_commit tag h)
    · refine hrefused _ ((hcheck.trans (if_neg fun hn => hn hl)).trans
        ((extentCheck_sound hc hlock hd).trans (if_pos ?_))) _ (exec_commit tag h)
      rcases huse with ⟨x, hx, hxl, hor⟩ | ⟨r, hr, hrv, hre, hrl⟩
      · left
        refine List.any_eq_true.mpr ⟨x, hx, ?_⟩
        rw [Bool.and_eq_true, Bool.not_eq_true', Bool.and_eq_false_iff]
        refine ⟨by simpa using hxl, ?_⟩
        rcases hor with hdead | hall
        · right
          cases hxd : x.death with
          | none => exact absurd hxd hdead
          | some d => rfl
        · left
          refine Bool.eq_false_iff.mpr fun hrw => ?_
          obtain ⟨y, hy, hyd, hyb⟩ := plan_rewrite hrw
          exact hall y hy hyd hyb
      · right
        refine List.any_eq_true.mpr ⟨r, hr, ?_⟩
        simp [hrv, hre, hrl]
    · refine hrefused _ ((hcheck.trans (if_neg fun hn => hn hl)).trans
        ((extentCheck_sound hc hlock hd).trans ((if_neg ?_).trans (if_pos ?_)))) _ (exec_commit tag h)
      · rintro (huse | huse)
        · obtain ⟨x, hx, hxu⟩ := List.any_eq_true.mp huse
          rw [Bool.and_eq_true] at hxu
          have hxl : x.loc = some loc := by simpa using hxu.1
          rw [hvs] at hx
          rcases List.mem_cons.mp hx with rfl | hx
          · unfold Version.loc at hxl
            rw [hres] at hxl
            exact hne (Option.some.inj hxl)
          · exact hrest x hx hxl
        · obtain ⟨r, hr, hru⟩ := List.any_eq_true.mp huse
          simp only [Bool.and_eq_true, decide_eq_true_eq] at hru
          exact hrec r hr hru.1.1 hru.1.2 hru.2
      · have hentries := plan_entries_pos (codes := codes) (occ := occ) hvs hlive hres hpos hne hb
        unfold State.reclaimFull
        have h1 : decide (0 < (s.plan vol ext v loc occ codes).entries.length) = true := by simpa using hentries
        have h2 : decide (Config.reclaimTableSize <
            s.cat.reclaims.length + (s.plan vol ext v loc occ codes).entries.length) = true := by
          have : Config.reclaimTableSize = 4096 := rfl
          simp only [decide_eq_true_eq]
          omega
        rw [h1, h2]
        rfl
end

section
/-! SUPPORT. The changes of a Commit made as one operation (R53 to R59). -/

namespace Sys2Proof.Machine

/-! ### DUE entries sent -/

section
variable {s : State}

/-- An entry whose RECLAIM can be sent (R60). -/
def State.sendable (s : State) (e : Reclaim) : Bool := decide (e.refs = 0) && s.ownerUp e.vol

/-- From one state to another, links and Reclaim Table alone differ, and an owner's link is UP as it was. -/
structure ReclaimsOnly (s t : State) : Prop where
  frame : t = { s with links := t.links, cat.reclaims := t.cat.reclaims }
  up : ∀ l : Link, (t.link l).up = (s.link l).up

namespace ReclaimsOnly
variable {s t u : State}

theorem refl (s : State) : ReclaimsOnly s s := ⟨rfl, fun _ => rfl⟩

theorem trans (h : ReclaimsOnly s t) (k : ReclaimsOnly t u) : ReclaimsOnly s u := by
  refine ⟨?_, fun l => (k.up l).trans (h.up l)⟩
  have hframe := k.frame
  rw [h.frame] at hframe
  exact hframe

theorem volumes (h : ReclaimsOnly s t) : t.cat.volumes = s.cat.volumes := by rw [h.frame]
theorem snapshots (h : ReclaimsOnly s t) : t.cat.snapshots = s.cat.snapshots := by rw [h.frame]
theorem extents (h : ReclaimsOnly s t) : t.cat.extents = s.cat.extents := by rw [h.frame]
theorem sup (h : ReclaimsOnly s t) : t.sup = s.sup := by rw [h.frame]
theorem tally (h : ReclaimsOnly s t) : t.tally = s.tally := by rw [h.frame]
theorem pat (h : ReclaimsOnly s t) : t.pat = s.pat := by rw [h.frame]
theorem volume (h : ReclaimsOnly s t) (vol : Nat) : t.volume vol = s.volume vol := volume_congr h.volumes vol
theorem extent (h : ReclaimsOnly s t) (vol ext : Nat) : t.extent vol ext = s.extent vol ext := by
  simp only [State.extent, h.extents]
theorem snapshot (h : ReclaimsOnly s t) (vol gen : Nat) : t.snapshot vol gen = s.snapshot vol gen := by
  simp only [State.snapshot, h.snapshots]

theorem sendable (h : ReclaimsOnly s t) : t.sendable = s.sendable := by
  funext e
  unfold State.sendable State.ownerUp State.ownerOf
  rw [h.volume]
  cases s.volume e.vol with
  | none => rfl
  | some v => exact congrArg (fun b => decide (e.refs = 0) && b) (h.up v.owner)

end ReclaimsOnly

/-- One entry sent: the first that can be (R60). -/
theorem flushReclaim_eq (s : State) : s.flushReclaim = s ∧ s.cat.reclaims.find? s.sendable = none ∨
    ∃ e v, s.cat.reclaims.find? s.sendable = some e ∧ s.volume e.vol = some v ∧
      s.flushReclaim = { s with cat.reclaims := s.cat.reclaims.erase e }.handNotice v.owner (.reclaim e.loc) := by
  unfold State.flushReclaim
  have hfind : (s.cat.reclaims.find? fun e => decide (e.refs = 0) && s.ownerUp e.vol) =
      s.cat.reclaims.find? s.sendable := rfl
  rw [hfind]
  cases he : s.cat.reclaims.find? s.sendable with
  | none => exact .inl ⟨rfl, rfl⟩
  | some e =>
    right
    have hup := List.find?_some he
    cases hv : s.volume e.vol with
    | none =>
      unfold State.sendable State.ownerUp State.ownerOf at hup
      rw [hv] at hup
      simp at hup
    | some v =>
      refine ⟨e, v, rfl, hv, ?_⟩
      dsimp only
      unfold State.ownerOf
      rw [hv]
      rfl

theorem handNotice_link (s : State) (l : Link) (b : DirBody) :
    ((s.handNotice l b).link l).tx = (s.link l).tx ++ [.directive (s.link l).nextTag b] ∧
      (∀ j : Link, ((s.handNotice l b).link j).up = (s.link j).up) ∧
      ∀ j : Link, ∃ more, ((s.handNotice l b).link j).tx = (s.link j).tx ++ more := by
  unfold State.handNotice State.busy
  refine ⟨by simp, fun j => ?_, fun j => ?_⟩
  · by_cases hj : l = j
    · subst hj
      simp
    · simp [hj]
  · by_cases hj : l = j
    · subst hj
      simp
    · exact ⟨[], by simp [hj]⟩

theorem reclaimsOnly_flushReclaim (s : State) : ReclaimsOnly s s.flushReclaim := by
  rcases flushReclaim_eq s with ⟨heq, -⟩ | ⟨e, v, -, -, heq⟩
  · rw [heq]
    exact ReclaimsOnly.refl s
  · rw [heq]
    exact ⟨rfl, (handNotice_link { s with cat.reclaims := s.cat.reclaims.erase e } v.owner (.reclaim e.loc)).2.1⟩

theorem reclaimsOnly_flushReclaims (s : State) : ReclaimsOnly s s.flushReclaims :=
  iter_keeps (P := ReclaimsOnly s) (fun u hu => hu.trans (reclaimsOnly_flushReclaim u)) _ (ReclaimsOnly.refl s)

/-- An entry with references out stays (R59). -/
theorem mem_flushReclaims {r : Reclaim} (h : r ∈ s.cat.reclaims) (hpos : 0 < r.refs) :
    r ∈ s.flushReclaims.cat.reclaims := by
  refine iter_keeps (P := fun u => r ∈ u.cat.reclaims) (fun u hu => ?_) _ h
  rcases flushReclaim_eq u with ⟨heq, -⟩ | ⟨e, v, he, -, heq⟩
  · rw [heq]
    exact hu
  · have hzero := List.find?_some he
    unfold State.sendable at hzero
    rw [Bool.and_eq_true, decide_eq_true_eq] at hzero
    rw [heq]
    refine (List.mem_erase_of_ne ?_).mpr hu
    rintro rfl
    exact Nat.ne_of_gt hpos hzero.1

/-- As many rounds as there are entries leave none that can be sent. -/
theorem flushReclaims_done (s : State) : s.flushReclaims.cat.reclaims.find? s.sendable = none := by
  have hiter (n : Nat) (u : State) (hu : ReclaimsOnly s u) (hn : u.cat.reclaims.length ≤ n) :
      (iter n State.flushReclaim u).cat.reclaims.find? s.sendable = none := by
    induction n generalizing u with
    | zero =>
      rw [iter, List.eq_nil_of_length_eq_zero (Nat.le_zero.mp hn)]
      rfl
    | succ n ih =>
      rw [iter]
      rcases flushReclaim_eq u with ⟨heq, hnone⟩ | ⟨e, v, he, -, heq⟩
      · have hfix : iter n State.flushReclaim u = u := iter_fixed heq n
        rw [heq, hfix, ← hu.sendable]
        exact hnone
      · refine ih _ (hu.trans (reclaimsOnly_flushReclaim u)) ?_
        rw [heq]
        change (u.cat.reclaims.erase e).length ≤ n
        rw [List.length_erase_of_mem (List.mem_of_find?_eq_some he)]
        omega
  exact hiter _ s (ReclaimsOnly.refl s) (Nat.le_refl _)

/-- A DUE entry whose owning link is UP is sent (R60). -/
theorem flushReclaims_sends {r : Reclaim} {v : Volume} (h : r ∈ s.cat.reclaims) (hz : r.refs = 0)
    (hv : s.volume r.vol = some v) (hup : (s.link v.owner).up = true) :
    ∃ tg, TxFrame.directive tg (.reclaim r.loc) ∈ (s.flushReclaims.link v.owner).tx := by
  have hsend : s.sendable r = true := by
    unfold State.sendable State.ownerUp State.ownerOf
    rw [hv]
    simp [hz, hup]
  have hkeep : ReclaimsOnly s s.flushReclaims ∧ (r ∈ s.flushReclaims.cat.reclaims ∨
      ∃ tg, TxFrame.directive tg (.reclaim r.loc) ∈ (s.flushReclaims.link v.owner).tx) := by
    refine iter_keeps (P := fun u => ReclaimsOnly s u ∧ (r ∈ u.cat.reclaims ∨
      ∃ tg, TxFrame.directive tg (.reclaim r.loc) ∈ (u.link v.owner).tx)) (fun u hu => ?_) _
      ⟨ReclaimsOnly.refl s, .inl h⟩
    obtain ⟨hro, hor⟩ := hu
    refine ⟨hro.trans (reclaimsOnly_flushReclaim u), ?_⟩
    rcases flushReclaim_eq u with ⟨heq, -⟩ | ⟨e, w, he, hw, heq⟩
    · rw [heq]
      exact hor
    · rw [heq]
      obtain ⟨htx, -, hmore⟩ :=
        handNotice_link { u with cat.reclaims := u.cat.reclaims.erase e } w.owner (.reclaim e.loc)
      rcases hor with hmem | ⟨tg, hdir⟩
      · by_cases hre : r = e
        · right
          subst hre
          rw [hro.volume, hv] at hw
          rw [← Option.some.inj hw] at htx ⊢
          exact ⟨_, by rw [htx]; exact List.mem_append_right _ (List.mem_singleton.mpr rfl)⟩
        · left
          exact (List.mem_erase_of_ne hre).mpr hmem
      · right
        obtain ⟨more, hm⟩ := hmore v.owner
        exact ⟨tg, by rw [hm]; exact List.mem_append_left _ hdir⟩
  rcases hkeep.2 with hmem | hdir
  · have := List.find?_eq_none.mp (flushReclaims_done s) r hmem
    rw [hsend] at this
    exact absurd rfl this
  · exact hdir

end

/-! ### A plan applied -/

section
variable {s : State} {l : Link} {vol ext owner loc occ : Nat} {codes : Option (List Code)} {v : Volume}

theorem countThinned_eq (s : State) (vol : Nat) (x : Version) :
    s.countThinned vol x = { s with cat.snapshots := (s.countThinned vol x).cat.snapshots } := by
  unfold State.countThinned
  generalize s.snapsOf vol = ps
  induction ps generalizing s with
  | nil => rfl
  | cons p ps ih =>
    rw [List.foldl_cons]
    by_cases hp : x.heldAt p.gen = true
    · rw [if_pos hp]
      refine (ih _).trans ?_
      rfl
    · rw [if_neg hp]
      exact ih s

/-- The thinned counts of a plan raised. -/
def State.planThinned (s : State) (vol : Nat) (p : CommitPlan) : State :=
  match p.thinned with
  | some x => s.countThinned vol x
  | none => s

/-- The records of a plan written, before DUE entries are sent. -/
def State.planWritten (s : State) (vol ext owner : Nat) (p : CommitPlan) : State :=
  { (s.planThinned vol p).setExtent vol ext
      { (s.planThinned vol p).extent vol ext with owner := owner, versions := p.versions } with
    cat.reclaims := s.cat.reclaims ++ p.entries }

theorem planThinned_eq (s : State) (vol : Nat) (p : CommitPlan) :
    s.planThinned vol p = { s with cat.snapshots := (s.planThinned vol p).cat.snapshots } := by
  unfold State.planThinned
  split
  · exact countThinned_eq s vol _
  · rfl

theorem applyCommit_eq (s : State) (vol ext owner : Nat) (p : CommitPlan) :
    s.applyCommit vol ext owner p = (s.planWritten vol ext owner p).flushReclaims := by
  have hrec : ((s.planThinned vol p).setExtent vol ext
      { (s.planThinned vol p).extent vol ext with owner := owner, versions := p.versions }).cat.reclaims =
      s.cat.reclaims := by
    rw [planThinned_eq]
    rfl
  unfold State.planWritten
  rw [← hrec]
  rfl

/-- What an accepted Commit makes of a state whose Patrol Unit has no repair record. -/
theorem committed_spec (hv : s.volume vol = some v) (hrep : s.pat.repairs = []) :
    (s.committed vol ext owner loc occ codes).extent vol ext =
        { owner := owner, lock := (s.extent vol ext).lock, versions := (s.plan vol ext v loc occ codes).versions } ∧
      ReclaimsOnly (s.planWritten vol ext owner (s.plan vol ext v loc occ codes))
        (s.committed vol ext owner loc occ codes) ∧
      (s.committed vol ext owner loc occ codes).tally = s.tally ∧ (s.committed vol ext owner loc occ codes).pat = s.pat ∧
      (s.committed vol ext owner loc occ codes).sup = s.sup ∧
      (∀ w, (s.committed vol ext owner loc occ codes).volume w = s.volume w) ∧
      (∀ r ∈ (s.plan vol ext v loc occ codes).entries, 0 < r.refs →
        r ∈ (s.committed vol ext owner loc occ codes).cat.reclaims) ∧
      (∀ r ∈ (s.plan vol ext v loc occ codes).entries, r.refs = 0 → r.vol = vol → (s.link v.owner).up = true →
        ∃ tg, TxFrame.directive tg (.reclaim r.loc) ∈ ((s.committed vol ext owner loc occ codes).link v.owner).tx) ∧
      (∀ P : Vector LinkRec 6 → Prop, LinksGain P → P s.links → P (s.committed vol ext owner loc occ codes).links) := by
  let p := s.plan vol ext v loc occ codes
  have hcommit : s.commit vol ext owner loc occ codes = (p, s.applyCommit vol ext owner p) := by
    unfold State.commit
    rw [hv]
    rfl
  have hpat : (s.applyCommit vol ext owner p).pat = s.pat := by
    rw [applyCommit_eq, (reclaimsOnly_flushReclaims _).pat]
    unfold State.planWritten
    rw [planThinned_eq]
    rfl
  have hdone : s.committed vol ext owner loc occ codes = (s.planWritten vol ext owner p).flushReclaims := by
    unfold State.committed
    rw [hcommit]
    dsimp only
    split
    · unfold State.abandonRewritten
      split
      · unfold State.abandonIf
        rw [hpat, hrep]
        exact applyCommit_eq s vol ext owner p
      · exact applyCommit_eq s vol ext owner p
    · exact applyCommit_eq s vol ext owner p
  have hw : ∃ snaps extents, s.planWritten vol ext owner p =
      { s with cat := { s.cat with
        snapshots := snaps, extents := extents, reclaims := s.cat.reclaims ++ p.entries } } := by
    unfold State.planWritten
    rw [planThinned_eq]
    exact ⟨_, _, rfl⟩
  have hext : (s.planWritten vol ext owner p).extent vol ext =
      { owner := owner, lock := (s.extent vol ext).lock, versions := p.versions } := by
    refine (extent_setExtent_self (s.planThinned vol p) vol ext _).trans ?_
    rw [planThinned_eq]
    rfl
  have hro := reclaimsOnly_flushReclaims (s.planWritten vol ext owner p)
  obtain ⟨snaps, extents, hweq⟩ := hw
  have hrecs : (s.planWritten vol ext owner p).cat.reclaims = s.cat.reclaims ++ p.entries := rfl
  have hvols (w : Nat) : (s.planWritten vol ext owner p).volume w = s.volume w := by
    rw [hweq]
    rfl
  have hlinks : (s.planWritten vol ext owner p).links = s.links := by rw [hweq]
  rw [hdone]
  refine ⟨(hro.extent vol ext).trans hext, hro, hro.tally.trans ?_, hro.pat.trans ?_, hro.sup.trans ?_, fun w => ?_,
    fun r hr hpos => ?_, fun r hr hz hrv hup => ?_, fun P k hP => ?_⟩
  · rw [hweq]
  · rw [hweq]
  · rw [hweq]
  · exact (hro.volume w).trans (hvols w)
  · exact mem_flushReclaims (by rw [hrecs]; exact List.mem_append_right _ hr) hpos
  · refine flushReclaims_sends (by rw [hrecs]; exact List.mem_append_right _ hr) hz ?_ ?_
    · rw [hvols, hrv]
      exact hv
    · rw [State.link_congr hlinks]
      exact hup
  · refine gains_flushReclaims k ?_
    rw [hlinks]
    exact hP

/-- A Commit that passes its checks, on a part at rest: its end, and what has become of extent, tables and links. -/
theorem commit_accepted (tag : Nat) (h : s.takes l) (hcalm : s.calm) (hv : s.volume vol = some v) (hl : v.owner = l)
    (hlock : (s.extent vol ext).lock = none)
    (hcheck : s.commitCheck (some l) none vol ext owner loc occ codes = none) :
    ∃ t, Machine.exec (.commit l tag vol ext owner loc occ codes []) s = .next t ∧
      Answered s t l tag .commit .done (.commit
        (match ((s.plan vol ext v loc occ codes).versions.find? fun w => w.death.isNone) with
          | some w => w.birth
          | none => 0) (s.plan vol ext v loc occ codes).verdict) ∧
      t.extent vol ext = { owner := owner, lock := none, versions := (s.plan vol ext v loc occ codes).versions } ∧
      t.tally = s.tally ∧ t.volume vol = some v ∧
      (∀ r ∈ (s.plan vol ext v loc occ codes).entries, 0 < r.refs → r ∈ t.cat.reclaims) ∧
      (∀ r ∈ (s.plan vol ext v loc occ codes).entries, r.refs = 0 → r.vol = vol →
        ∃ tg, TxFrame.directive tg (.reclaim r.loc) ∈ (t.link l).tx) ∧
      ∀ gen, t.snapshot vol gen = (s.planThinned vol (s.plan vol ext v loc occ codes)).snapshot vol gen := by
  let a := s.asked l tag .commit
  let p := s.plan vol ext v loc occ codes
  obtain ⟨hext, hro, htally, hpat, hsup, hvols, hkept, hsent, hgain⟩ :=
    committed_spec (s := a) (ext := ext) (owner := owner) (loc := loc) (occ := occ) (codes := codes) hv hcalm.2.2.2.1
  let c := a.committed vol ext owner loc occ codes
  have hlive : (c.extent vol ext).live = p.versions.find? fun w => w.death.isNone := by
    rw [hext]
    rfl
  let u := c.reply l s.sup.nextReq .done (.commit
    (match (c.extent vol ext).live with
      | some w => w.birth
      | none => 0) p.verdict)
  have hcalmu : u.calm := by
    have hc : c.calm := by
      unfold State.calm State.tallyStill State.patrolStill
      rw [htally, hpat]
      exact hcalm
    exact hc
  have hrun : u.sup.op ≠ .halted := by
    have hr := takes_running h
    change c.sup.op ≠ .halted
    rw [hsup]
    exact hr
  obtain ⟨-, flinks, ftally, fcat, -⟩ := finish_beside_parts hcalmu hrun
  have hent : Entered s c l tag .commit true := (entered_asked s l tag .commit).gains hgain
  have hexec : Machine.exec (.commit l tag vol ext owner loc occ codes []) s = .next u.finish := by
    rw [exec_commit tag h, hcheck]
    have hplan : (a.commit vol ext owner loc occ codes).1 = p := by
      unfold State.commit
      rw [show a.volume vol = some v from hv]
      rfl
    rw [hplan] <;> rfl
  refine ⟨u.finish, hexec, ?_, ?_, ?_, ?_, fun r hr hpos => ?_, fun r hr hz hrv => ?_, fun gen => ?_⟩
  · rw [← hlive]
    exact answered_finish _ _ h hent
  · simp only [State.extent, fcat]
    refine hext.trans ?_
    have hl : (a.extent vol ext).lock = none := hlock
    rw [hl]
    rfl
  · rw [ftally]
    exact htally
  · refine (volume_congr (congrArg Catalogue.volumes fcat) vol).trans ?_
    exact (hvols vol).trans hv
  · rw [fcat]
    exact hkept r hr hpos
  · have hup : (a.link v.owner).up = true := by
      rw [hl, asked_link]
    obtain ⟨tg, htg⟩ := hsent r hr hz hrv hup
    refine ⟨tg, ?_⟩
    rw [State.link_congr flinks]
    rw [hl] at htg
    obtain ⟨htx, -⟩ := reply_entered .done (.commit
      (match (c.extent vol ext).live with
        | some w => w.birth
        | none => 0) p.verdict) h.2.2.2 hent
    rw [htx]
    exact List.mem_append_left _ htg
  · have hsnap : u.finish.snapshot vol gen = c.snapshot vol gen := by
      simp only [State.snapshot, fcat]
      rfl
    refine (hsnap.trans (hro.snapshot vol gen)).trans ?_
    have hpt (q : CommitPlan) : (a.planThinned vol q).cat.snapshots = (s.planThinned vol q).cat.snapshots := by
      unfold State.planThinned
      split
      · rename_i x hx
        have hfold (ps : List Snapshot) (b d : State) (hbd : b.cat.snapshots = d.cat.snapshots) :
            (ps.foldl (fun s p => if x.heldAt p.gen then
              s.modSnapshot vol p.gen fun q => { q with thinned := raiseThinned q.thinned } else s) b).cat.snapshots =
            (ps.foldl (fun s p => if x.heldAt p.gen then
              s.modSnapshot vol p.gen fun q => { q with thinned := raiseThinned q.thinned } else s) d).cat.snapshots := by
          induction ps generalizing b d with
          | nil => exact hbd
          | cons p ps ih =>
            rw [List.foldl_cons, List.foldl_cons]
            refine ih _ _ ?_
            split
            · simp only [State.modSnapshot, hbd]
            · exact hbd
        exact hfold _ _ _ rfl
      · rfl
    have hpa : (a.planWritten vol ext owner p).snapshot vol gen = (a.planThinned vol p).snapshot vol gen := by
      simp only [State.snapshot]
      rfl
    refine hpa.trans ?_
    simp only [State.snapshot, hpt]
    rfl

end

end Sys2Proof.Machine
end

section
/-! PROOF. Commits accepted: the live version, and thinning (R53 to R57). -/

namespace Sys2Proof.Machine

section
variable {s : State} {l : Link} {vol ext owner loc occ : Nat} {codes : Option (List Code)} {v : Volume}

/-! ### The checks of a Commit that is ready -/

/-- The location of a Commit is carried by a version that the Commit does not rewrite (R53). -/
def State.carriedElsewhere (s : State) (vol ext loc occ : Nat) (codes : Option (List Code)) (v : Volume) : Bool :=
  (s.extent vol ext).versions.any fun x =>
    decide (x.loc = some loc) && !((s.plan vol ext v loc occ codes).rewrite && x.death.isNone)

theorem codesMatch_of
    (h : (codes.any (fun cs => cs.length == 16) && decide (0 < occ) || codes.isNone && decide (occ = 0)) = true) :
    codesMatch codes occ := by
  rw [Bool.or_eq_true, Bool.and_eq_true, Bool.and_eq_true] at h
  rcases h with ⟨h16, hpos⟩ | ⟨hnone, hzero⟩
  · exact .inr ⟨h16, by simpa using hpos⟩
  · exact .inl ⟨by simpa using hnone, by simpa using hzero⟩

theorem ready_check (h : s.commitReady l vol ext owner loc occ codes v)
    (huse : s.carriedElsewhere vol ext loc occ codes v = false)
    (hone : (s.plan vol ext v loc occ codes).entries.length ≤ 1) :
    s.commitCheck (some l) none vol ext owner loc occ codes =
      if (s.plan vol ext v loc occ codes).stuck = true then some .versionPinned else none := by
  obtain ⟨-, -, hv, hl, hc, h1, h2, h3, hcodes, hlock, hd, hrec, hroom, hwaits⟩ := h
  rw [commitCheck_fits ⟨h1, h2, h3, codesMatch_of hcodes⟩ hv, if_neg fun hn => hn hl.symm,
    extentCheck_sound hc hlock hd]
  have hreclaim : (s.cat.reclaims.any fun r =>
      decide (r.vol = vol) && decide (r.ext = ext) && decide (r.loc = loc)) = false := by
    refine List.any_eq_false.mpr fun r hr hru => ?_
    simp only [Bool.and_eq_true, decide_eq_true_eq] at hru
    exact hrec r hr hru.1.1 hru.1.2 hru.2
  have hfull : s.reclaimFull (s.plan vol ext v loc occ codes).entries.length = false := by
    have hsize : Config.reclaimTableSize = 4096 := rfl
    unfold State.reclaimFull
    rw [hwaits, decide_eq_false (by omega : ¬Config.reclaimTableSize <
      s.cat.reclaims.length + (s.plan vol ext v loc occ codes).entries.length)]
    exact Bool.and_false _
  rw [if_neg, hfull, if_neg Bool.false_ne_true]
  rintro (hu | hu)
  · rw [State.carriedElsewhere] at huse
    rw [huse] at hu
    cases hu
  · rw [hreclaim] at hu
    cases hu

theorem stays_live {x : Version} (h : x.death = none) : s.stays vol x = true := by
  unfold State.stays
  rw [h]
  rfl

/-! ### An extent without versions -/

theorem plan_first (h : (s.extent vol ext).versions = []) :
    s.plan vol ext v loc occ codes =
      { rewrite := false, verdict := .first, versions := [newVersion s.sup.clock v.gen loc occ (codes.getD [])]
        entries := [], thinned := none, stuck := false } := by
  have hlive : (s.extent vol ext).live = none := by
    unfold Extent.live
    rw [h]
    rfl
  have hkept : [newVersion s.sup.clock v.gen loc occ (codes.getD [])].filter (s.stays vol) =
      [newVersion s.sup.clock v.gen loc occ (codes.getD [])] :=
    List.filter_eq_self.mpr fun x hx => stays_live (by rw [List.mem_singleton.mp hx]; rfl)
  unfold State.plan State.planCommit
  rw [hlive, h]
  dsimp only
  rw [hkept]
  simp [Config.versionListSize]

/-! ### A live version alone -/

/-- The version that a Commit rewrites in place (R54). -/
def State.rewritten (s : State) (v : Volume) (loc occ : Nat) (codes : Option (List Code)) (old refs : Nat) : Version :=
  { newVersion s.sup.clock v.gen loc occ (codes.getD []) with res := .here loc (if old = loc then refs else 0) }

theorem plan_rewrites_alone {lv : Version} {old refs : Nat} (hvs : (s.extent vol ext).versions = [lv])
    (hd : lv.death = none) (hb : lv.birth = v.gen) (hres : lv.res = .here old refs) :
    s.plan vol ext v loc occ codes =
      { rewrite := true, verdict := if old = loc then .kept else if refs = 0 then .now else .later
        versions := [s.rewritten v loc occ codes old refs]
        entries := if old = loc ∨ refs = 0 then [] else [{ vol := vol, ext := ext, loc := old, refs := refs }]
        thinned := none, stuck := false } := by
  have hloc : lv.loc = some old := by
    unfold Version.loc
    rw [hres]
  have hrefs : lv.refs = refs := by
    unfold Version.refs
    rw [hres]
  have hrec : lv.reclaim vol ext = [{ vol := vol, ext := ext, loc := old, refs := refs }] := by
    unfold Version.reclaim
    rw [hres]
  have hmap : mapIf (fun w : Version => w.death.isNone)
      (fun w => { newVersion s.sup.clock v.gen loc occ (codes.getD []) with
        birth := w.birth, res := .here loc (if lv.loc = some loc then lv.refs else 0) }) [lv] =
      [s.rewritten v loc occ codes old refs] := by
    unfold mapIf State.rewritten
    simp [hd, hloc, hrefs, hb, newVersion]
  have hstays : s.stays vol (s.rewritten v loc occ codes old refs) = true := stays_live rfl
  rw [plan_rewrites hvs hd hb, hmap, hloc, hrefs, hrec]
  simp [hstays]

/-! ### The list behind an older live version -/

theorem listedBehind_eq {lv : Version} {rest : List Version} (hd : lv.death = none)
    (hdead : ∀ y ∈ rest, y.death ≠ none) :
    s.listedBehind v loc occ codes lv (lv :: rest) =
      newVersion s.sup.clock v.gen loc occ (codes.getD []) :: lv.superseded v.gen :: rest := by
  have hrest : rest.map (fun w : Version => if w.death.isNone = true then lv.superseded v.gen else w) = rest := by
    refine (List.map_congr_left fun y hy => if_neg fun hn => ?_).trans (List.map_id rest)
    exact hdead y hy (Option.isNone_iff_eq_none.mp hn)
  unfold State.listedBehind mapIf
  rw [List.map_cons, hrest]
  simp [hd]

theorem newVersion_ne {y : Version} (clock gen loc occ : Nat) (codes : List Code) (h : y.death ≠ none) :
    newVersion clock gen loc occ codes ≠ y := by
  rintro rfl
  exact h rfl

/-- Where no more than four versions stay, none is thinned. -/
theorem keptOf_short {all : List Version} (h : (all.filter (s.stays vol)).length ≤ 4) :
    s.thinFrom vol all = none ∧ s.keptOf vol all = all.filter (s.stays vol) := by
  have hnone : s.thinFrom vol all = none := if_pos h
  refine ⟨hnone, ?_⟩
  unfold State.keptOf
  rw [hnone]
  exact List.filter_eq_self.mpr fun w _ => rfl

theorem stays_superseded_iff {lv : Version} : s.stays vol (lv.superseded v.gen) = true ↔
    ∃ p ∈ s.snapsOf vol, lv.birth ≤ p.gen ∧ p.gen < v.gen := by
  unfold State.stays State.isHeld Version.superseded Version.heldAt
  simp [List.any_eq_true]

/-- A superseded version that a snapshot holds stays behind the new one (R55). -/
theorem plan_held {lv : Version} (hvs : (s.extent vol ext).versions = [lv]) (hd : lv.death = none)
    (hb : lv.birth < v.gen) (hheld : s.stays vol (lv.superseded v.gen) = true) :
    s.plan vol ext v loc occ codes =
      { rewrite := false, verdict := .kept
        versions := [newVersion s.sup.clock v.gen loc occ (codes.getD []), lv.superseded v.gen]
        entries := [], thinned := none, stuck := false } := by
  have hnew : s.stays vol (newVersion s.sup.clock v.gen loc occ (codes.getD [])) = true := stays_live rfl
  have hall : s.listedBehind v loc occ codes lv [lv] =
      [newVersion s.sup.clock v.gen loc occ (codes.getD []), lv.superseded v.gen] :=
    listedBehind_eq hd fun y hy => nomatch hy
  have hfilter : (s.listedBehind v loc occ codes lv [lv]).filter (s.stays vol) =
      s.listedBehind v loc occ codes lv [lv] := by
    rw [hall]
    simp [hnew, hheld]
  obtain ⟨hthin, hkept⟩ := keptOf_short (s := s) (vol := vol) (all := s.listedBehind v loc occ codes lv [lv])
    (by rw [hfilter, hall]; simp)
  rw [plan_supersedes hvs hd (Nat.ne_of_lt hb), hkept, hthin, hfilter, hall]
  simp [Config.versionListSize]

/-- A superseded version that no snapshot holds leaves its location (R56). -/
theorem plan_unheld {lv : Version} {old refs : Nat} (hvs : (s.extent vol ext).versions = [lv]) (hd : lv.death = none)
    (hb : lv.birth < v.gen) (hres : lv.res = .here old refs) (hheld : s.stays vol (lv.superseded v.gen) = false) :
    s.plan vol ext v loc occ codes =
      { rewrite := false, verdict := if refs = 0 then .now else .later
        versions := [newVersion s.sup.clock v.gen loc occ (codes.getD [])]
        entries := if refs = 0 then [] else [{ vol := vol, ext := ext, loc := old, refs := refs }]
        thinned := none, stuck := false } := by
  have hrefs : lv.refs = refs := by
    unfold Version.refs
    rw [hres]
  have hnew : s.stays vol (newVersion s.sup.clock v.gen loc occ (codes.getD [])) = true := stays_live rfl
  have hall : s.listedBehind v loc occ codes lv [lv] =
      [newVersion s.sup.clock v.gen loc occ (codes.getD []), lv.superseded v.gen] :=
    listedBehind_eq hd fun y hy => nomatch hy
  have hne : newVersion s.sup.clock v.gen loc occ (codes.getD []) ≠ lv.superseded v.gen :=
    newVersion_ne _ _ _ _ _ fun h => nomatch h
  have hfilter : (s.listedBehind v loc occ codes lv [lv]).filter (s.stays vol) =
      [newVersion s.sup.clock v.gen loc occ (codes.getD [])] := by
    rw [hall]
    simp [hnew, hheld]
  have hrec : (lv.superseded v.gen).reclaim vol ext = [{ vol := vol, ext := ext, loc := old, refs := refs }] := by
    unfold Version.superseded Version.reclaim
    rw [hres]
  obtain ⟨hthin, hkept⟩ := keptOf_short (s := s) (vol := vol) (all := s.listedBehind v loc occ codes lv [lv])
    (by rw [hfilter]; simp)
  rw [plan_supersedes hvs hd (Nat.ne_of_lt hb), hkept, hthin, hfilter, hall, hrefs]
  by_cases hz : refs = 0 <;> simp [hz, hrec, Ne.symm hne, Config.versionListSize]

/-! ### Thinning -/

/-- In a list of falling births the last is the one of lowest birth. -/
theorem getLast_lowest {vs : List Version} {x : Version} (hp : vs.Pairwise fun a b => b.birth < a.birth) (hx : x ∈ vs)
    (hmin : ∀ z ∈ vs, x.birth ≤ z.birth) : vs.getLast? = some x := by
  induction vs with
  | nil => cases hx
  | cons a vs ih =>
    obtain ⟨ha, hp⟩ := List.pairwise_cons.mp hp
    cases vs with
    | nil => rw [List.mem_singleton.mp hx, List.getLast?_singleton]
    | cons b vs =>
      rw [List.getLast?_cons_cons]
      refine ih hp ?_ fun z hz => hmin z (List.mem_cons_of_mem _ hz)
      rcases List.mem_cons.mp hx with rfl | hx
      · have h1 := ha b List.mem_cons_self
        have h2 := hmin b (List.mem_cons_of_mem _ List.mem_cons_self)
        omega
      · exact hx

/-- A dead version may be thinned (R57), as `State.thinnedOf` tests it. -/
def State.thins (s : State) (vol : Nat) (x : Version) : Bool :=
  x.death.isSome && !(s.pinnedHeld vol x) && (decide (x.res = .offsite) || decide (x.refs = 0))

theorem thinnable_iff {dead : List Version} (hdead : ∀ y ∈ dead, y.death ≠ none) (x : Version) :
    s.thinnable vol dead x ↔ x ∈ dead ∧ s.thins vol x = true := by
  have hpin : (!(s.pinnedHeld vol x)) = true ↔ ∀ p ∈ s.snapsOf vol, x.heldAt p.gen = true → p.pins = 0 := by
    unfold State.pinnedHeld
    rw [Bool.not_eq_true', List.any_eq_false]
    simp only [Bool.and_eq_true, decide_eq_true_eq, not_and, Nat.not_lt, Nat.le_zero]
  have hthin : s.thins vol x = true ↔ x.death.isSome = true ∧
    (∀ p ∈ s.snapsOf vol, x.heldAt p.gen = true → p.pins = 0) ∧
      (x.res = .offsite ∨ x.refs = 0) := by
    unfold State.thins
    rw [Bool.and_eq_true, Bool.and_eq_true, hpin, Bool.or_eq_true, decide_eq_true_eq, decide_eq_true_eq, and_assoc]
  rw [hthin]
  constructor
  · rintro ⟨hx, hpins, hres⟩
    exact ⟨hx, Option.isSome_iff_ne_none.mpr (hdead x hx), hpins, hres⟩
  · rintro ⟨hx, -, hpins, hres⟩
    exact ⟨hx, hpins, hres⟩

theorem thinnedOf_eq (s : State) (vol : Nat) (vs : List Version) : s.thinnedOf vol vs =
    (((vs.filter (s.thins vol)).filter fun v => decide (v.res = .offsite)).getLast?.or
      (((vs.filter (s.thins vol)).filter fun v => v.shipped).getLast?.or (vs.filter (s.thins vol)).getLast?)) := by
  unfold State.thinnedOf lowestBirth
  dsimp only
  have hf : (vs.filter fun v => v.death.isSome && !(s.pinnedHeld vol v) &&
      (decide (v.res = .offsite) || decide (v.refs = 0))) = vs.filter (s.thins vol) := rfl
  rw [hf]
  cases ((vs.filter (s.thins vol)).filter fun v => decide (v.res = .offsite)).getLast? with
  | some x => rfl
  | none =>
    dsimp only
    cases ((vs.filter (s.thins vol)).filter fun v => v.shipped).getLast? <;> rfl

/-- Of those that may be thinned, the one that is thinned: of the first kind that has one, the lowest birth (R57). -/
theorem thinnedOf_least {dead : List Version} {new x : Version} (hnew : new.death = none)
    (hp : dead.Pairwise fun a b => b.birth < a.birth) (hx : x ∈ dead) (hxt : s.thins vol x = true)
    (hmin : ∀ y ∈ dead, s.thins vol y = true →
      x.thinRank < y.thinRank ∨ (x.thinRank = y.thinRank ∧ x.birth ≤ y.birth)) :
    s.thinnedOf vol (new :: dead) = some x := by
  have hcands : (new :: dead).filter (s.thins vol) = dead.filter (s.thins vol) := by
    refine List.filter_cons_of_neg fun h => ?_
    unfold State.thins at h
    rw [hnew] at h
    cases h
  have hlast (p : Version → Bool) (hpx : p x = true)
      (hrank : ∀ y ∈ dead, s.thins vol y = true → p y = true → ¬x.thinRank < y.thinRank) :
      ((dead.filter (s.thins vol)).filter p).getLast? = some x := by
    refine getLast_lowest ((hp.filter _).filter _)
      (List.mem_filter.mpr ⟨List.mem_filter.mpr ⟨hx, hxt⟩, hpx⟩) fun z hz => ?_
    obtain ⟨hz, hpz⟩ := List.mem_filter.mp hz
    obtain ⟨hz, hzt⟩ := List.mem_filter.mp hz
    rcases hmin z hz hzt with h | h
    · exact absurd h (hrank z hz hzt hpz)
    · exact h.2
  have hempty (p : Version → Bool) (hno : ∀ y ∈ dead, s.thins vol y = true → p y = true → y.thinRank < x.thinRank) :
      ((dead.filter (s.thins vol)).filter p).getLast? = none := by
    rw [List.getLast?_eq_none_iff, List.filter_eq_nil_iff]
    intro y hy hpy
    obtain ⟨hy, hyt⟩ := List.mem_filter.mp hy
    have hlt := hno y hy hyt hpy
    rcases hmin y hy hyt with h | h <;> omega
  rw [thinnedOf_eq, hcands]
  by_cases hoff : x.res = .offsite
  · have hr : x.thinRank = 0 := if_pos hoff
    rw [hlast (fun v => decide (v.res = .offsite)) (by simpa using hoff) fun y _ _ hpy => ?_]
    · rfl
    · have hy : y.thinRank = 0 := if_pos (by simpa using hpy)
      omega
  · have hnone := hempty (fun v => decide (v.res = .offsite)) fun y _ _ hpy => by
      have hy : y.thinRank = 0 := if_pos (by simpa using hpy)
      have hxr : 0 < x.thinRank := by
        unfold Version.thinRank
        rw [if_neg hoff]
        split <;> omega
      omega
    rw [hnone, Option.none_or]
    by_cases hship : x.shipped = true
    · have hr : x.thinRank = 1 := (if_neg hoff).trans (if_pos hship)
      rw [hlast (fun v => v.shipped) hship fun y _ _ hpy => ?_]
      · rfl
      · have hy : y.thinRank ≤ 1 := by
          have hps : y.shipped = true := hpy
          unfold Version.thinRank
          rw [hps]
          split <;> simp
        omega
    · have hr : x.thinRank = 2 := (if_neg hoff).trans (if_neg hship)
      have hnone2 := hempty (fun v => v.shipped) fun y _ _ hpy => by
        have hps : y.shipped = true := hpy
        unfold Version.thinRank at hr ⊢
        rw [hps, hr]
        split <;> simp
      have hall := hlast (fun _ => true) rfl fun y _ _ _ => by
        unfold Version.thinRank at hr ⊢
        rw [hr]
        split
        · omega
        · split <;> omega
      rw [List.filter_true] at hall
      rw [hnone2, Option.none_or, hall]

/-- The list behind an older live version, each of whose dead versions a snapshot holds: all of it stays. -/
theorem filter_stays_held {new : Version} {dead : List Version} (hnew : new.death = none)
    (hheld : ∀ y ∈ dead, ∃ p ∈ s.snapsOf vol, y.heldAt p.gen = true) :
    (new :: dead).filter (s.stays vol) = new :: dead := by
  refine List.filter_eq_self.mpr fun y hy => ?_
  rcases List.mem_cons.mp hy with rfl | hy
  · exact stays_live hnew
  · unfold State.stays State.isHeld
    rw [Bool.or_eq_true, List.any_eq_true]
    exact .inr (hheld y hy)

theorem nodup_of_falling {dead : List Version} (hp : dead.Pairwise fun a b => b.birth < a.birth) : dead.Nodup :=
  hp.imp fun {a _} hlt => fun hab => Nat.lt_irrefl _ (show a.birth < a.birth from hab ▸ hlt)

/-- In a list of falling births the birth tells the version. -/
theorem falling_birth_inj {dead : List Version} (hp : dead.Pairwise fun a b => b.birth < a.birth) {x y : Version}
    (hx : x ∈ dead) (hy : y ∈ dead) (h : x.birth = y.birth) : x = y := by
  induction dead with
  | nil => cases hx
  | cons a dead ih =>
    obtain ⟨ha, hp⟩ := List.pairwise_cons.mp hp
    rcases List.mem_cons.mp hx with hxa | hx
    · rcases List.mem_cons.mp hy with hya | hy
      · rw [hxa, hya]
      · rw [hxa] at h
        exact absurd h (Nat.ne_of_gt (ha y hy))
    · rcases List.mem_cons.mp hy with hya | hy
      · rw [hya] at h
        exact absurd h (Nat.ne_of_lt (ha x hx))
      · exact ih hp hx hy

/-- What leaves a list that keeps all but one version of it is that version. -/
theorem filter_left_one {new x : Version} {dead : List Version} (hn : new ≠ x) (hnd : dead.Nodup) (hx : x ∈ dead)
    (hnew : new ∉ dead) :
    ((new :: dead).filter fun w => !((new :: dead.filter fun y => decide (y ≠ x)).contains w)) = [x] := by
  have hsame : ((new :: dead).filter fun w => !((new :: dead.filter fun y => decide (y ≠ x)).contains w)) =
      dead.filter fun w => w == x := by
    rw [List.filter_cons_of_neg (by simp)]
    refine List.filter_congr fun w hw => ?_
    have hwn : w ≠ new := fun h => hnew (h ▸ hw)
    by_cases hwx : w = x
    · subst hwx
      simp [hwn]
    · simp [hwx, hw]
  rw [hsame, List.filter_beq, List.count_eq_one_of_mem hnd hx]
  rfl

theorem deaths_behind {lv : Version} {dead rest : List Version} {gen : Nat} (hrest : ∀ y ∈ rest, y.death ≠ none)
    (hdead : dead = lv.superseded gen :: rest) : ∀ y ∈ dead, y.death ≠ none := by
  rw [hdead]
  intro y hy
  rcases List.mem_cons.mp hy with rfl | hy
  · exact nofun
  · exact hrest y hy

/-- Where five versions would stay, one that may be thinned leaves the list (R57). -/
theorem plan_thins {lv x : Version} {dead rest : List Version} {old refs : Nat}
    (hvs : (s.extent vol ext).versions = lv :: rest) (hlen : rest.length = 3) (hd : lv.death = none)
    (hb : lv.birth < v.gen) (hres : lv.res = .here old refs) (hrest : ∀ y ∈ rest, y.death ≠ none)
    (hdead : dead = lv.superseded v.gen :: rest) (hp : dead.Pairwise fun a b => b.birth < a.birth)
    (hheld : ∀ y ∈ dead, ∃ p ∈ s.snapsOf vol, y.heldAt p.gen = true) (hx : x ∈ dead) (hxt : s.thins vol x = true)
    (hmin : ∀ y ∈ dead, s.thins vol y = true →
      x.thinRank < y.thinRank ∨ (x.thinRank = y.thinRank ∧ x.birth ≤ y.birth)) :
    s.plan vol ext v loc occ codes =
      { rewrite := false, verdict := if x = lv.superseded v.gen then .now else .kept
        versions := newVersion s.sup.clock v.gen loc occ (codes.getD []) :: dead.filter fun y => decide (y ≠ x)
        entries := if x = lv.superseded v.gen then [] else x.reclaim vol ext
        thinned := some x, stuck := false } := by
  let new := newVersion s.sup.clock v.gen loc occ (codes.getD [])
  have hdd := deaths_behind (gen := v.gen) hrest hdead
  have hnew : new ∉ dead := fun h => hdd new h rfl
  have hnx : new ≠ x := fun h => hnew (h ▸ hx)
  have hall : s.listedBehind v loc occ codes lv (lv :: rest) = new :: dead := by
    rw [listedBehind_eq hd hrest, hdead]
  have hfilter : (new :: dead).filter (s.stays vol) = new :: dead := filter_stays_held rfl hheld
  have hfive : (new :: dead).length = 5 := by
    rw [hdead, List.length_cons, List.length_cons, hlen]
  have hthin : s.thinFrom vol (new :: dead) = some x := by
    unfold State.thinFrom
    rw [hfilter, hfive]
    exact thinnedOf_least rfl hp hx hxt hmin
  have hkept : s.keptOf vol (new :: dead) = new :: dead.filter fun y => decide (y ≠ x) := by
    unfold State.keptOf
    rw [hfilter, hthin, List.filter_cons_of_pos (by simpa using hnx)]
    exact congrArg (new :: ·) (List.filter_congr fun y _ => by simp)
  have hgone := filter_left_one hnx (nodup_of_falling hp) hx hnew
  have hsup : (new :: dead.filter fun y => decide (y ≠ x)).contains (lv.superseded v.gen) =
      !decide (x = lv.superseded v.gen) := by
    have hmem : lv.superseded v.gen ∈ dead := by
      rw [hdead]
      exact List.mem_cons_self
    have hne : lv.superseded v.gen ≠ new := fun h => hnew (h ▸ hmem)
    by_cases hxs : x = lv.superseded v.gen
    · simp [hxs, hne]
    · simp [hxs, hmem, Ne.symm hxs]
  have hrefs : lv.refs = refs := by
    unfold Version.refs
    rw [hres]
  have hzero (h : x = lv.superseded v.gen) : lv.refs = 0 := by
    unfold State.thins at hxt
    rw [Bool.and_eq_true, Bool.or_eq_true, decide_eq_true_eq, decide_eq_true_eq] at hxt
    rcases hxt.2 with hoff | href
    · rw [h] at hoff
      exact absurd (hres.symm.trans hoff) nofun
    · rw [h] at href
      exact href
  rw [plan_supersedes hvs hd (Nat.ne_of_lt hb), hall, hkept, hfilter, hthin, hgone, hsup]
  by_cases hxs : x = lv.superseded v.gen
  · simp [hxs, hzero hxs, new]
  · simp [hxs, new]

/-- Where five versions would stay and none may be thinned, the Commit is stuck (R57). -/
theorem plan_stuck {lv : Version} {dead rest : List Version}
    (hvs : (s.extent vol ext).versions = lv :: rest) (hlen : rest.length = 3) (hd : lv.death = none)
    (hb : lv.birth < v.gen) (hrest : ∀ y ∈ rest, y.death ≠ none) (hdead : dead = lv.superseded v.gen :: rest)
    (hheld : ∀ y ∈ dead, ∃ p ∈ s.snapsOf vol, y.heldAt p.gen = true) (hno : ∀ x ∈ dead, ¬s.thins vol x = true) :
    (s.plan vol ext v loc occ codes).entries = [] ∧ (s.plan vol ext v loc occ codes).stuck = true := by
  let new := newVersion s.sup.clock v.gen loc occ (codes.getD [])
  have hall : s.listedBehind v loc occ codes lv (lv :: rest) = new :: dead := by
    rw [listedBehind_eq hd hrest, hdead]
  have hfilter : (new :: dead).filter (s.stays vol) = new :: dead := filter_stays_held rfl hheld
  have hfive : (new :: dead).length = 5 := by
    rw [hdead, List.length_cons, List.length_cons, hlen]
  have hcands : (new :: dead).filter (s.thins vol) = [] := by
    refine List.filter_eq_nil_iff.mpr fun y hy => ?_
    rcases List.mem_cons.mp hy with rfl | hy
    · exact Bool.false_ne_true
    · exact hno y hy
  have hthin : s.thinFrom vol (new :: dead) = none := by
    unfold State.thinFrom
    rw [hfilter, hfive]
    refine (if_neg (by decide : ¬5 ≤ Config.versionListSize)).trans ?_
    rw [thinnedOf_eq, hcands]
    rfl
  have hkept : s.keptOf vol (new :: dead) = new :: dead := by
    unfold State.keptOf
    rw [hfilter, hthin]
    exact List.filter_eq_self.mpr fun w _ => rfl
  rw [plan_supersedes hvs hd (Nat.ne_of_lt hb), hall, hkept, hfilter, hthin]
  refine ⟨?_, ?_⟩
  · have hnone : ((new :: dead).filter fun w => !((new :: dead).contains w)) = [] := by
      refine List.filter_eq_nil_iff.mpr fun y hy => ?_
      rw [List.contains_iff_mem.mpr hy]
      exact Bool.false_ne_true
    dsimp only
    rw [hnone]
    rfl
  · dsimp only
    rw [hfive]
    rfl

theorem not_carriedElsewhere (h : ∀ y ∈ (s.extent vol ext).versions, y.loc ≠ some loc) :
    s.carriedElsewhere vol ext loc occ codes v = false := by
  unfold State.carriedElsewhere
  refine List.any_eq_false.mpr fun y hy => ?_
  rw [decide_eq_false (h y hy)]
  exact Bool.false_ne_true

/-! ### Thinned counts -/

theorem snapshot_of_mem (hkeyed : s.snapshotsKeyed) {p : Snapshot} (h : p ∈ s.snapsOf vol) :
    s.snapshot vol p.gen = some p := by
  have hle := gen_le_of_mem hkeyed h
  obtain ⟨hm, hvol⟩ := List.mem_filter.mp h
  obtain ⟨kv, hkv, rfl⟩ := List.mem_map.mp hm
  have hkey := (hkeyed.2 kv hkv).1
  rw [eq_of_beq hvol] at hkey
  unfold State.snapshot
  rw [if_pos hle, ← hkey]
  exact tget_of_mem 0 _ hkeyed.1 hkv

theorem snapshot_modSnapshot_ne {gen g : Nat} (hg : gen ≤ maxGeneration) (hne : g ≠ gen) (f : Snapshot → Snapshot) :
    (s.modSnapshot vol gen f).snapshot vol g = s.snapshot vol g := by
  unfold State.snapshot
  by_cases h : g ≤ maxGeneration
  · rw [if_pos h, if_pos h]
    exact tget_tmod_ne _ f fun hk => hne (snapKey_inj hg h hk).2.symm
  · rw [if_neg h, if_neg h]

/-- The thinned count of a snapshot that held the thinned version rises by one (R57). -/
theorem countThinned_snapshot (hkeyed : s.snapshotsKeyed) {x : Version} {p : Snapshot} (h : p ∈ s.snapsOf vol)
    (hheld : x.heldAt p.gen = true) :
    (s.countThinned vol x).snapshot vol p.gen = some { p with thinned := raiseThinned p.thinned } := by
  have hkeep (ps : List Snapshot) (u : State) (hle : ∀ q ∈ ps, q.gen ≤ maxGeneration) (hno : ∀ q ∈ ps, q.gen ≠ p.gen) :
      (ps.foldl (fun s q => if x.heldAt q.gen then
        s.modSnapshot vol q.gen fun r => { r with thinned := raiseThinned r.thinned } else s) u).snapshot vol p.gen =
        u.snapshot vol p.gen := by
    induction ps generalizing u with
    | nil => rfl
    | cons q ps ih =>
      rw [List.foldl_cons, ih _ (fun r hr => hle r (List.mem_cons_of_mem _ hr))
        fun r hr => hno r (List.mem_cons_of_mem _ hr)]
      split
      · exact snapshot_modSnapshot_ne (hle q List.mem_cons_self) (Ne.symm (hno q List.mem_cons_self)) _
      · rfl
  have hraise (ps : List Snapshot) (u : State) (hu : u.snapshot vol p.gen = some p)
      (hle : ∀ q ∈ ps, q.gen ≤ maxGeneration) (hpair : ps.Pairwise fun a b => a.gen < b.gen) (hmem : p ∈ ps) :
      (ps.foldl (fun s q => if x.heldAt q.gen then
        s.modSnapshot vol q.gen fun r => { r with thinned := raiseThinned r.thinned } else s) u).snapshot vol p.gen =
        some { p with thinned := raiseThinned p.thinned } := by
    induction ps generalizing u with
    | nil => cases hmem
    | cons q ps ih =>
      obtain ⟨hlt, hpair⟩ := List.pairwise_cons.mp hpair
      have hles : ∀ r ∈ ps, r.gen ≤ maxGeneration := fun r hr => hle r (List.mem_cons_of_mem _ hr)
      rw [List.foldl_cons]
      rcases List.mem_cons.mp hmem with rfl | hmem
      · rw [hkeep ps _ hles fun r hr => Nat.ne_of_gt (hlt r hr), if_pos hheld, State.snapshot_modSnapshot, hu]
        rfl
      · refine ih _ ?_ hles hpair hmem
        split
        · rw [snapshot_modSnapshot_ne (hle q List.mem_cons_self) (Nat.ne_of_gt (hlt p hmem)), hu]
        · exact hu
  exact hraise _ s (snapshot_of_mem hkeyed h) (fun q hq => gen_le_of_mem hkeyed hq) (snapsOf_gens hkeyed vol) h

end

end Sys2Proof.Machine

open Sys2Proof Sys2Proof.Machine

/-- Settles O30. -/
theorem commitWritesTheLiveVersion : Obligations.CommitWritesTheLiveVersion := by
  refine ⟨?_, ?_, ?_, ?_⟩
  · intro s l tag vol ext owner loc occ codes v h hvs
    have hplan := plan_first (s := s) (v := v) (loc := loc) (occ := occ) (codes := codes) hvs
    have hcheck := ready_check h (not_carriedElsewhere (by rw [hvs]; exact nofun)) (by rw [hplan]; exact Nat.zero_le 1)
    obtain ⟨htakes, hcalm, hv, hl, -, -, -, -, -, hlock, -⟩ := h
    rw [hplan] at hcheck
    obtain ⟨t, hexec, hans, hext, htally, hvol, -⟩ := commit_accepted tag htakes hcalm hv hl hlock hcheck
    rw [hplan] at hans hext
    exact ⟨t, hexec, hans, hext, htally, hvol⟩
  · intro s l tag vol ext owner loc occ old refs codes v lv h hvs hd hb hres
    have hplan := plan_rewrites_alone (s := s) (loc := loc) (occ := occ) (codes := codes) hvs hd hb hres
    have huse : s.carriedElsewhere vol ext loc occ codes v = false := by
      unfold State.carriedElsewhere
      rw [hvs, hplan]
      simp [hd]
    have hcheck := ready_check h huse (by rw [hplan]; dsimp only; split <;> simp)
    obtain ⟨htakes, hcalm, hv, hl, -, -, -, -, -, hlock, -⟩ := h
    rw [hplan] at hcheck
    obtain ⟨t, hexec, hans, hext, -, -, hkept, -⟩ := commit_accepted tag htakes hcalm hv hl hlock hcheck
    rw [hplan] at hans hext hkept
    refine ⟨t, _, hexec, hans, hext, fun hol => if_pos hol, fun hol hz => (if_neg hol).trans (if_pos hz),
      fun hol hpos => ?_⟩
    have hz := Nat.ne_of_gt hpos
    refine ⟨(if_neg hol).trans (if_neg hz), hkept _ ?_ hpos⟩
    dsimp only
    rw [if_neg (not_or.mpr ⟨hol, hz⟩)]
    exact List.mem_singleton.mpr rfl
  · intro s l tag vol ext owner loc occ old refs codes v lv h hvs hd hb hres hne
    have hloc : ∀ y ∈ (s.extent vol ext).versions, y.loc ≠ some loc := by
      rw [hvs]
      intro y hy
      rw [List.mem_singleton.mp hy]
      unfold Version.loc
      rw [hres]
      exact fun h => hne (Option.some.inj h)
    have huse := not_carriedElsewhere (occ := occ) (codes := codes) (v := v) hloc
    cases hstays : s.stays vol (lv.superseded v.gen) with
    | true =>
      have hplan := plan_held (loc := loc) (occ := occ) (codes := codes) hvs hd hb hstays
      have hcheck := ready_check h huse (by rw [hplan]; exact Nat.zero_le 1)
      obtain ⟨htakes, hcalm, hv, hl, -, -, -, -, -, hlock, -⟩ := h
      rw [hplan] at hcheck
      obtain ⟨t, hexec, hans, hext, -⟩ := commit_accepted tag htakes hcalm hv hl hlock hcheck
      rw [hplan] at hans hext
      refine ⟨t, _, hexec, hans, fun _ => ⟨rfl, hext⟩, fun hno => ?_⟩
      rw [not_stays_superseded hno] at hstays
      cases hstays
    | false =>
      have hplan := plan_unheld (loc := loc) (occ := occ) (codes := codes) hvs hd hb hres hstays
      have hcheck := ready_check h huse (by rw [hplan]; dsimp only; split <;> simp)
      obtain ⟨htakes, hcalm, hv, hl, -, -, -, -, -, hlock, -⟩ := h
      rw [hplan] at hcheck
      obtain ⟨t, hexec, hans, hext, -, -, hkept, -⟩ := commit_accepted tag htakes hcalm hv hl hlock hcheck
      rw [hplan] at hans hext hkept
      refine ⟨t, _, hexec, hans, fun hheld => ?_, fun _ => ⟨hext, fun hz => if_pos hz, fun hpos => ?_⟩⟩
      · rw [stays_superseded_iff.mpr hheld] at hstays
        cases hstays
      · have hz := Nat.ne_of_gt hpos
        refine ⟨if_neg hz, hkept _ ?_ hpos⟩
        dsimp only
        rw [if_neg hz]
        exact List.mem_singleton.mpr rfl
  · intro s l tag vol ext owner loc occ old refs codes v lv dead rest h hkeyed hvs hlen hd hb hres hloc hrest hdead hp
      hheld
    have hdd := deaths_behind hrest hdead
    have huse := not_carriedElsewhere (occ := occ) (codes := codes) (v := v) (by rw [hvs]; exact hloc)
    obtain ⟨t, hexec⟩ : ∃ t, Machine.exec (.commit l tag vol ext owner loc occ codes []) s = .next t :=
      ⟨_, exec_commit tag h.1⟩
    refine ⟨t, hexec, fun x hx hmin => ?_, fun hno => ?_⟩
    · obtain ⟨hxd, hxt⟩ := (thinnable_iff hdd x).mp hx
      have hplan := plan_thins (loc := loc) (occ := occ) (codes :=
        codes) hvs hlen hd hb hres hrest hdead hp hheld hxd hxt
        fun y hy hyt => hmin y ((thinnable_iff hdd y).mpr ⟨hy, hyt⟩)
      have hone : (s.plan vol ext v loc occ codes).entries.length ≤ 1 := by
        rw [hplan]
        dsimp only
        split
        · exact Nat.zero_le 1
        · unfold Version.reclaim
          split <;> simp
      have hcheck := ready_check h huse hone
      obtain ⟨htakes, hcalm, hv, hl, -, -, -, -, -, hlock, -⟩ := h
      rw [hplan] at hcheck
      obtain ⟨u, hexecu, hans, hext, -, -, -, hsent, hsnaps⟩ := commit_accepted tag htakes hcalm hv hl hlock hcheck
      obtain rfl : u = t := Host.Outcome.next.inj (hexecu.symm.trans hexec)
      rw [hplan] at hans hext hsent hsnaps
      have hbirth : x.birth = lv.birth ↔ x = lv.superseded v.gen := by
        refine ⟨fun hxb => falling_birth_inj hp hxd (by rw [hdead]; exact List.mem_cons_self) hxb, ?_⟩
        rintro rfl
        rfl
      refine ⟨by rw [hext], fun hxb => ?_, fun hxb => ⟨?_, fun k hk => ?_⟩, fun p hmem hxheld hlt => ?_⟩
      · dsimp only at hans
        rw [if_pos (hbirth.mp hxb)] at hans
        exact hans
      · dsimp only at hans
        rw [if_neg (mt hbirth.mpr hxb)] at hans
        exact hans
      · refine hsent { vol := vol, ext := ext, loc := k, refs := 0 } ?_ rfl rfl
        dsimp only
        rw [if_neg (mt hbirth.mpr hxb)]
        unfold Version.reclaim
        rw [hk]
        exact List.mem_singleton.mpr rfl
      · refine ⟨_, (hsnaps p.gen).trans (countThinned_snapshot hkeyed hmem hxheld), if_pos hlt⟩
    · obtain ⟨hent, hstuck⟩ := plan_stuck (loc := loc) (occ := occ) (codes := codes) hvs hlen hd hb hrest hdead hheld
        fun x hx hxt => hno x ((thinnable_iff hdd x).mpr ⟨hx, hxt⟩)
      have hcheck := ready_check h huse (by rw [hent]; exact Nat.zero_le 1)
      rw [hstuck] at hcheck
      obtain ⟨hexecu, hans, hspared⟩ := commit_refused tag h.1 (hcheck.trans (if_pos rfl))
      obtain rfl := Host.Outcome.next.inj (hexecu.symm.trans hexec)
      exact ⟨hans, hspared⟩

end

section
/-! PROOF. Volume Attach and Volume Detach (R45 to R48). -/

namespace Sys2Proof.Machine

section
variable {s : State} {l : Link} {vol : Nat}

/-! ### The span of a volume -/

/-- A span doubled until it holds the volume: large enough where that many doublings suffice. -/
theorem spanSize_grow (count fuel n : Nat) (h : count * 512 ≤ n * 2 ^ fuel) :
    count * 512 ≤ spanSize.grow count fuel n ∧ n ≤ spanSize.grow count fuel n := by
  induction fuel generalizing n with
  | zero => exact ⟨by simpa [spanSize.grow] using h, Nat.le_refl n⟩
  | succ fuel ih =>
    rw [spanSize.grow]
    split
    · exact ⟨‹_›, Nat.le_refl n⟩
    · obtain ⟨h1, h2⟩ := ih (2 * n) (by rw [pow_succ] at h; nlinarith)
      exact ⟨h1, by omega⟩

theorem spanSize_holds {count : Nat} (h : count ≤ 1048576) : count * 512 ≤ spanSize count ∧ 1048576 ≤ spanSize count :=
  spanSize_grow count 9 1048576 (by omega)

/-- A span placed lies at a multiple of its size, within the region and clear of the spans in use (R46). -/
theorem lowestFree_spec {used : List (Nat × Nat)} {size base : Nat} (fuel k : Nat)
    (h : lowestFree used size fuel k = some base) :
    base % size = 0 ∧ base + size ≤ Config.extentRegionBytes ∧
      ∀ sp ∈ used, base + size ≤ sp.1 ∨ sp.1 + sp.2 ≤ base := by
  induction fuel generalizing k with
  | zero => cases h
  | succ fuel ih =>
    rw [lowestFree] at h
    split at h
    · cases h
    · rename_i hroom
      split at h
      · exact ih (k + 1) h
      · rename_i hfree
        obtain rfl := Option.some.inj h
        refine ⟨Nat.mul_mod_left k size, Nat.le_of_not_lt hroom, fun sp hsp => ?_⟩
        have hno : overlaps (k * size, size) sp = false := by
          rw [Bool.not_eq_true, List.any_eq_false] at hfree
          exact Bool.eq_false_iff.mpr (hfree sp hsp)
        simp only [overlaps, Bool.and_eq_false_iff, decide_eq_false_iff_not] at hno
        omega

/-! ### Volume Attach -/

theorem exec_volumeAttach (tag owner count hk nk : Nat) (rec hc nc : Bool) (h : s.takes l) (hrole : s.role l = .console) :
    Machine.exec (.volumeAttach l tag vol owner count rec hk nk hc nc []) s =
      .next (State.finish (match s.attachCheck vol owner count hk nk with
        | .error st => (s.asked l tag .volumeAttach).reply l s.sup.nextReq st .none
        | .ok (k, base) =>
          { s.asked l tag .volumeAttach with cat.attaching := s.cat.attaching ++ [
            { vol := vol, link := l, req := s.sup.nextReq, owner := k, count := count, recovery := rec, hourlyKeep := hk
              nightlyKeep := nk, hourlyCuts := hc, nightlyCut := nc, base := base, size := spanSize count }] })) := by
  refine (act_asked tag .volumeAttach _ h (.inr hrole)).trans (congrArg Host.Outcome.next (congrArg State.finish ?_))
  have hcheck : (s.asked l tag .volumeAttach).attachCheck vol owner count hk nk = s.attachCheck vol owner count hk nk := by
    unfold State.attachCheck
    simp only [asked_role]
    rfl
  rw [hcheck]
  cases s.attachCheck vol owner count hk nk <;> rfl

theorem attachCheck_places {count hk nk base : Nat} {k : Link} (hop : s.sup.op = .standby) (hvol : vol ≤ 31)
    (h1 : 1 ≤ count) (h2 : count ≤ 1048576) (hhk : hk ≤ 48) (hnk : nk ≤ 30) (hrole : s.role k = .fileserver)
    (hv : s.volume vol = none) (hat : ∀ a ∈ s.cat.attaching, a.vol ≠ vol) (hb : s.placeSpan count = some base) :
    s.attachCheck vol k.val count hk nk = .ok (k, base) := by
  have hmax : Config.maxExtents = 1048576 := rfl
  have hfind : (allLinks.find? fun j => j.val == k.val) = some k := linkOf_val k
  have hnone : (s.cat.attaching.any fun a => a.vol == vol) = false :=
    List.any_eq_false.mpr fun a ha => by simpa using hat a ha
  unfold State.attachCheck
  rw [if_neg (not_not.mpr hop), if_neg (by omega), hfind]
  dsimp only
  rw [hrole, if_neg (by simp), hv, hnone, if_neg (by simp), hb]

/-! ### The records written -/

theorem exec_attachComplete {a : Attach} (hrun : s.sup.op ≠ .halted) (ha : s.cat.attaching = [a]) :
    Machine.exec (.attachComplete a.vol []) s =
      .next (State.finish (({ ({ s with sent := [] } : State).dropExtents a.vol with
        cat.volumes := tput s.cat.volumes a.vol a.volume
        cat.attaching := []
        cat.dues := tdel s.cat.dues a.vol } : State).reply a.link a.req .done .none)) := by
  refine (act_withErrs_nil _ hrun).trans (congrArg Host.Outcome.next ?_)
  have hfind : (s.cat.attaching.find? fun x => x.vol == a.vol) = some a := by
    rw [ha, List.find?_cons_of_pos (by simp)]
  have hleft : (s.cat.attaching.filter fun x => x.vol != a.vol) = [] := by
    rw [ha]
    simp
  change (match s.cat.attaching.find? fun x => x.vol == a.vol with
    | none => ({ s with sent := [] } : State)
    | some a' => (({ ({ s with sent := [] } : State).dropExtents a.vol with
        cat.volumes := tput s.cat.volumes a.vol a'.volume
        cat.attaching := s.cat.attaching.filter fun x => x.vol != a.vol
        cat.dues := tdel s.cat.dues a.vol } : State).reply a'.link a'.req .done .none).finish) = _
  rw [hfind, hleft]

end

end Sys2Proof.Machine

open Sys2Proof Sys2Proof.Machine

/-- Settles O32. -/
theorem attachPlacesASpanAndWritesTheVolume : Obligations.AttachPlacesASpanAndWritesTheVolume := by
  refine ⟨?_, ?_, ?_⟩
  · intro s l k tag vol count hk nk base rec hc nc h hrole htally hop hvol h1 h2 hhk hnk hfs hv hat hb
    have hexec := exec_volumeAttach (vol := vol) tag k.val count hk nk rec hc nc h hrole
    rw [attachCheck_places hop hvol h1 h2 hhk hnk hfs hv hat hb] at hexec
    dsimp only at hexec
    let a : Attach :=
      { vol := vol, link := l, req := s.sup.nextReq, owner := k, count := count, recovery := rec, hourlyKeep := hk
        nightlyKeep := nk, hourlyCuts := hc, nightlyCut := nc, base := base, size := spanSize count }
    let u : State := { s.asked l tag .volumeAttach with cat.attaching := s.cat.attaching ++ [a] }
    have hr := takes_running h
    have hrun : u.sup.op ≠ .halted := hr
    have hstill : u.advance = u := advance_still htally
    have hent : Entered s u.advance l tag .volumeAttach true := by
      rw [hstill]
      exact entered_asked s l tag .volumeAttach
    obtain ⟨-, -, ⟨⟨hvols, hattaching, -⟩, -⟩, -⟩ := finish_settles u
    obtain ⟨hmod, hroom, hclear⟩ := lowestFree_spec _ _ hb
    obtain ⟨hsize, hmin⟩ := spanSize_holds h2
    exact ⟨u.finish, a, hexec, queued_finish hrun hent rfl, hattaching, (volume_congr hvols vol).trans hv, rfl, rfl, rfl,
      rfl, rfl, hsize, hmin, hmod, hroom, hclear⟩
  · intro s l tag vol owner count hk nk rec hc nc h hrole hop
    have hexec := exec_volumeAttach (vol := vol) tag owner count hk nk rec hc nc h hrole
    have hcheck : s.attachCheck vol owner count hk nk = .error .wrongState := by
      unfold State.attachCheck
      rw [if_pos (by rw [hop]; decide)]
    rw [hcheck] at hexec
    exact ⟨_, hexec, answered_replied tag .volumeAttach .wrongState .none h,
      spared_replied tag .volumeAttach .wrongState .none h⟩
  · intro s a e hrun hcalm ha hvol hawaits
    let w : State := { ({ s with sent := [] } : State).dropExtents a.vol with
      cat.volumes := tput s.cat.volumes a.vol a.volume
      cat.attaching := []
      cat.dues := tdel s.cat.dues a.vol }
    let u := w.reply a.link a.req .done .none
    have hcalmu : u.calm := hcalm
    obtain ⟨-, -, -, hcat, -⟩ := finish_beside_parts hcalmu hrun
    have hrep := (replied_reply (s := w) .done .none hawaits).1
    refine ⟨u.finish, exec_attachComplete hrun ha, ?_, ?_, fun ext hext => ?_, fun k hk => ?_, Replied.finish hrep⟩
    · rw [hcat]
      rfl
    · rw [volume_congr (congrArg Catalogue.volumes hcat)]
      unfold State.volume
      rw [if_pos hvol]
      exact tget_tput_self _ _ _
    · have hkey : tget u.finish.cat.extents (extentKey a.vol ext) = none := by
        rw [hcat]
        exact (tget_dropExtents _ a.vol _).trans (if_pos (extentKey_div hext))
      unfold State.extent
      rw [hkey]
      rfl
    · rw [volume_congr (congrArg Catalogue.volumes hcat)]
      unfold State.volume
      split
      · exact tget_tput_ne _ _ (Ne.symm hk)
      · rfl

end

section
/-! SUPPORT. What the offsite link's settling leaves of the night and of the slots (R120, R139, R148). -/

namespace Sys2Proof.Machine

/-- The registers of the Offsite Engine that no settling of the link changes, the others blanked. -/
def Offsite.lasting (o : Offsite) : Offsite :=
  { o with
    sawShip := false, queue := [], link := .down, dir := .idle, seqCounter := 0, reqCounter := 0, withdrawnNums := []
    withdrawnDrops := [], controls := [], ackStart := 0, ackLimit := 0, expiries := 0, idleSince := none
    shipTurn := none, burst := 0, fetchQueue := [], roomWaits := [] }

/-- What the link's settling never changes: the lasting registers, the Ship Queue once shed entries are cleared, and
the slots. -/
def State.nightSide (s : State) : Offsite × List ShipEntry × Tbl Slot × List SlotReq × List SlotReq :=
  (s.off.lasting, s.off.queue, s.str.slots, s.str.waitShip, s.str.waitPatrol)

theorem askOpening_nightSide (s : State) : s.askOpening.nightSide = s.nightSide := by
  unfold State.askOpening
  split <;> rfl

theorem serveRoomOnce_nightSide (s : State) : s.serveRoomOnce.nightSide = s.nightSide := by
  unfold State.serveRoomOnce
  split
  · rfl
  · split
    · exact (askOpening_nightSide _).trans rfl
    · rfl

theorem chooseDir_nightSide (s : State) : s.chooseDir.nightSide = s.nightSide := by
  unfold State.chooseDir State.modOff
  dsimp only
  split
  · rfl
  · split <;> rfl

theorem redirectOnce_nightSide (s : State) : s.redirectOnce.nightSide = s.nightSide := by
  unfold State.redirectOnce
  dsimp only
  repeat' split
  all_goals first
    | exact chooseDir_nightSide s
    | rfl

theorem settleLink_nightSide (s : State) : s.settleLink.nightSide = s.clearShed.nightSide := by
  have hroom : s.clearShed.serveRoom.nightSide = s.clearShed.nightSide :=
    iter_keeps (P := fun u => u.nightSide = s.clearShed.nightSide)
      (fun u hu => (serveRoomOnce_nightSide u).trans hu) _ rfl
  exact iter_keeps (P := fun u => u.nightSide = s.clearShed.nightSide)
    (fun u hu => (redirectOnce_nightSide u).trans hu) 3 hroom

/-- Settling keeps the lasting registers and the slots. -/
theorem settleLink_lasting (s : State) : s.settleLink.off.lasting = s.off.lasting ∧
    s.settleLink.str.slots = s.str.slots :=
  ⟨congrArg Prod.fst (settleLink_nightSide s), congrArg (fun x => x.2.2.1) (settleLink_nightSide s)⟩

theorem settleLink_queue (s : State) : s.settleLink.off.queue = s.clearShed.off.queue :=
  congrArg (fun x => x.2.1) (settleLink_nightSide s)

theorem plan_of_lasting {o p : Offsite} (h : o.lasting = p.lasting) : o.plan = p.plan := by
  have hplan : o.lasting.plan = p.lasting.plan := by rw [h]
  exact hplan

/-- With the Patrol Unit at rest, a step's end keeps the lasting registers and the slots. -/
theorem finish_lasting {s : State} (h : s.patrolStill) (hrun : s.sup.op ≠ .halted) :
    s.finish.off.lasting = s.off.lasting ∧ s.finish.str.slots = s.str.slots ∧
      s.finish.off.queue = s.clearShed.off.queue := by
  have hothers : s.advance.others = s.others := othersKept_advance rfl
  have hoff : s.advance.off = s.off := congrArg (fun x => x.2.2.2.1) hothers
  have hstr : s.advance.str = s.str := congrArg (fun x => x.2.2.1) hothers
  obtain ⟨hlast, hslots⟩ := settleLink_lasting s.advance
  rw [finish_patrolStill h hrun, hlast, hslots, settleLink_queue, hoff, hstr]
  refine ⟨rfl, rfl, ?_⟩
  unfold State.clearShed State.modOff
  rw [hoff]

end Sys2Proof.Machine
end

section
/-! PROOF. Volume Detach (R48, R179). -/

namespace Sys2Proof.Machine

section
variable {s t u : State} {l : Link} {vol : Nat}

/-! ### Runs given up and slots freed -/

/-- From one state to another, pull runs, slots with their requests, and the waits for places alone differ. -/
structure RunsFreed (s t : State) : Prop where
  frame : t = { s with links := t.links, str := t.str, off.pulls := t.off.pulls }
  places : ∀ j : Link, t.link j = { s.link j with placeWaits := (t.link j).placeWaits }

namespace RunsFreed

theorem refl (s : State) : RunsFreed s s := ⟨rfl, fun _ => rfl⟩

theorem trans (h : RunsFreed s t) (k : RunsFreed t u) : RunsFreed s u := by
  refine ⟨?_, fun j => ?_⟩
  · have hframe := k.frame
    rw [h.frame] at hframe
    exact hframe
  · have hlink := k.places j
    rw [h.places j] at hlink
    exact hlink

end RunsFreed

theorem runsFreed_leavePlaces (s : State) (who : Issuer) : RunsFreed s (s.leavePlaces who) := by
  let f : LinkRec → LinkRec := fun r => { r with placeWaits := r.placeWaits.filter (· ≠ who) }
  have hf : ∀ r, f (f r) = f r := fun r => by simp [f]
  have hbeside : s.leavePlaces who = { s with links := (s.leavePlaces who).links } :=
    foldl_modLink_beside (fun _ => f) allLinks s
  refine ⟨hbeside, fun j => ?_⟩
  have hlink : (s.leavePlaces who).link j = f (s.link j) :=
    (foldl_modLink_link hf allLinks s j).trans (if_pos (mem_allLinks j))
  rw [hlink]

theorem runsFreed_cancelRun (s : State) (n : Nat) : RunsFreed s (s.cancelRun n) := by
  have hask : RunsFreed s ((s.withdrawAsk (.shipPull n)).freeAllOf (.shipPull n)) := ⟨rfl, fun _ => rfl⟩
  have hplaces := hask.trans (runsFreed_leavePlaces _ (.shipPull n))
  exact hplaces.trans ⟨rfl, fun _ => rfl⟩

theorem runsFreed_freeSlot (s : State) (n : Nat) : RunsFreed s (s.freeSlot n) := ⟨rfl, fun _ => rfl⟩

theorem runsFreed_foldl {α : Type} {f : State → α → State} (hf : ∀ s x, RunsFreed s (f s x)) (xs : List α) (s : State) :
    RunsFreed s (xs.foldl f s) := by
  induction xs generalizing s with
  | nil => exact RunsFreed.refl s
  | cons x xs ih => exact (hf s x).trans (ih _)

theorem runsFreed_forget (s : State) (p : ShipPull → Bool) (es : List ShipEntry) :
    RunsFreed s ((s.cancelRuns p).freeEntrySlots es) :=
  (runsFreed_foldl (fun s (x : ShipPull) => runsFreed_cancelRun s x.n) _ s).trans
    (runsFreed_foldl runsFreed_freeSlot _ _)

/-! ### A volume forgotten and detached -/

/-- The Ship Queue, the plan and the controls without a volume (R48). -/
def Offsite.without (o : Offsite) (vol : Nat) : Offsite :=
  { o with
    queue := o.queue.filter fun e => e.vol != vol
    plan := o.plan.filter fun p => p.vol != vol
    controls := o.controls.filter fun c => !(c.isDoneOf vol) }

theorem foldl_filter_nil {α : Type} {f : State → α → State} {p : α → Bool} {xs : List α} (h : xs = []) (s : State) :
    (xs.filter p).foldl f s = s := by
  rw [h]
  rfl

/-- With the Patrol Unit at rest, forgetting a volume touches links, slots and the offsite side alone. -/
theorem forgetVolume_still (h : s.patrolStill) : ∃ v : State, RunsFreed s v ∧
    s.forgetVolume vol = (v.modOff fun o => o.without vol).modPat fun p =>
      { p with folds := p.folds.filter fun f => f.vol != vol, waiting := p.waiting.filter fun q => q.vol != vol } := by
  let v := (s.cancelRuns fun p => p.vol == vol).freeEntrySlots
    ((s.cancelRuns fun p => p.vol == vol).off.queue.filter fun e => e.vol == vol)
  have hv : RunsFreed s v := runsFreed_forget s _ _
  have hpat : v.pat = s.pat := by rw [hv.frame]
  obtain ⟨hwork, -, hrepairs, -⟩ := h
  refine ⟨v, hv, ?_⟩
  let w := v.modOff fun o => o.without vol
  let y := w.modPat fun p =>
    { p with folds := p.folds.filter fun f => f.vol != vol, waiting := p.waiting.filter fun q => q.vol != vol }
  have hitems : ((w.pat.work.filter fun x => x.vol == vol).foldl (fun s x => s.leaveItem x.n) w) = w :=
    foldl_filter_nil ((congrArg Patrol.work hpat).trans hwork) w
  have hrecs : ((y.pat.repairs.filter fun kv => kv.2.vol == vol).foldl (fun s kv => s.discardRepair kv.1) y) = y :=
    foldl_filter_nil ((congrArg Patrol.repairs hpat).trans hrepairs) y
  have hafter (x : State) (hx : x = w) :
      (((x.modPat fun p => { p with
          folds := p.folds.filter fun f => f.vol != vol
          waiting := p.waiting.filter fun q => q.vol != vol }).pat.repairs.filter fun kv => kv.2.vol == vol).foldl
        (fun s kv => s.discardRepair kv.1) (x.modPat fun p => { p with
          folds := p.folds.filter fun f => f.vol != vol
          waiting := p.waiting.filter fun q => q.vol != vol })) = y := by
    rw [hx]
    exact hrecs
  exact hafter _ hitems

/-- What forgetting a volume leaves and takes, with the Patrol Unit at rest. -/
theorem forgetVolume_spec (h : s.patrolStill) :
    (s.forgetVolume vol).sup = s.sup ∧ (s.forgetVolume vol).tally = s.tally ∧ (s.forgetVolume vol).patrolStill ∧
      (s.forgetVolume vol).cat = s.cat ∧
      (s.forgetVolume vol).off.queue = (s.off.queue.filter fun e => e.vol != vol) ∧
      (s.forgetVolume vol).off.plan = (s.off.plan.filter fun p => p.vol != vol) ∧
      ∀ j : Link, ∃ ws, (s.forgetVolume vol).link j = { s.link j with placeWaits := ws } := by
  obtain ⟨v, hv, hforget⟩ := forgetVolume_still (vol := vol) h
  obtain ⟨hwork, hfolds, hrepairs, hclear⟩ := h
  have hpat : v.pat = s.pat := by rw [hv.frame]
  have hqueue : v.off.queue = s.off.queue := by rw [hv.frame]
  have hplan : v.off.plan = s.off.plan := by rw [hv.frame]
  rw [hforget]
  refine ⟨?_, ?_, ⟨?_, ?_, ?_, ?_⟩, ?_, ?_, ?_, fun j => ⟨_, hv.places j⟩⟩
  · change v.sup = s.sup
    rw [hv.frame]
  · change v.tally = s.tally
    rw [hv.frame]
  · exact (congrArg Patrol.work hpat).trans hwork
  · change (v.pat.folds.filter fun f => f.vol != vol) = []
    rw [hpat, hfolds]
    rfl
  · exact (congrArg Patrol.repairs hpat).trans hrepairs
  · exact (congrArg Patrol.clearing hpat).trans hclear
  · change v.cat = s.cat
    rw [hv.frame]
  · exact congrArg (List.filter fun e => e.vol != vol) hqueue
  · exact congrArg (List.filter fun p => p.vol != vol) hplan

/-- A cursor on the Extent Table of a volume that is detached (R179). -/
def Cursor.without (c : Cursor) (vol : Nat) : Cursor :=
  if c.table = .extents vol then { c with detached := true } else c

theorem Cursor.without_twice (c : Cursor) (vol : Nat) : (c.without vol).without vol = c.without vol := by
  unfold Cursor.without
  by_cases h : c.table = .extents vol <;> simp [h]

theorem dropExtents_link (s : State) (vol : Nat) (j : Link) : (s.dropExtents vol).link j = s.link j := rfl

theorem dropExtents_kept (s : State) (vol : Nat) : (s.dropExtents vol).sup = s.sup ∧
    (s.dropExtents vol).tally = s.tally ∧ (s.dropExtents vol).pat = s.pat ∧ (s.dropExtents vol).off = s.off ∧
    (s.dropExtents vol).cat = { s.cat with
      extents := s.cat.extents.filter fun kv => decide (kv.1 / Config.maxExtents ≠ vol) } :=
  ⟨rfl, rfl, rfl, rfl, rfl⟩

theorem detach_frame {w c : State} (h : c = { w with links := c.links }) : c.sup = w.sup ∧ c.tally = w.tally ∧
    c.pat = w.pat ∧ c.off = w.off ∧ c.cat = w.cat := by
  rw [h]
  exact ⟨rfl, rfl, rfl, rfl, rfl⟩

theorem detach_of {c : State} (h : c = ((s.forgetVolume vol).dropExtents vol).dropCursors vol) :
    s.detach vol = { c with
      cat.volumes := tdel c.cat.volumes vol
      cat.snapshots := c.cat.snapshots.filter fun kv => kv.2.vol != vol
      cat.reclaims := c.cat.reclaims.filter fun e => e.vol != vol
      cat.dues := tdel c.cat.dues vol } := by
  rw [h]
  rfl

/-- What a detach makes of a state whose Patrol Unit is at rest. -/
theorem detach_spec (h : s.patrolStill) :
    (s.detach vol).sup = s.sup ∧ (s.detach vol).tally = s.tally ∧ (s.detach vol).patrolStill ∧
      (s.detach vol).cat = { s.cat with
        volumes := tdel s.cat.volumes vol
        snapshots := s.cat.snapshots.filter fun kv => kv.2.vol != vol
        reclaims := s.cat.reclaims.filter fun e => e.vol != vol
        extents := s.cat.extents.filter fun kv => decide (kv.1 / Config.maxExtents ≠ vol)
        dues := tdel s.cat.dues vol } ∧
      (s.detach vol).off.queue = (s.off.queue.filter fun e => e.vol != vol) ∧
      (s.detach vol).off.plan = (s.off.plan.filter fun p => p.vol != vol) ∧
      ∀ j : Link, ∃ ws, (s.detach vol).link j =
        { s.link j with cursor := (s.link j).cursor.map fun c => c.without vol, placeWaits := ws } := by
  obtain ⟨hsup, htally, hpat, hcat, hqueue, hplan, hlinks⟩ := forgetVolume_spec (vol := vol) h
  let f : LinkRec → LinkRec := fun r => { r with cursor := r.cursor.map fun c => c.without vol }
  have hf : ∀ r, f (f r) = f r := fun r => by
    cases hr : r.cursor with
    | none => simp [f, hr]
    | some c => simp [f, hr, Cursor.without_twice]
  obtain ⟨w, hw⟩ : ∃ w, w = (s.forgetVolume vol).dropExtents vol := ⟨_, rfl⟩
  obtain ⟨c, hc⟩ : ∃ c, c = w.dropCursors vol := ⟨_, rfl⟩
  have hframe : c = { w with links := c.links } := by
    rw [hc]
    exact foldl_modLink_beside (fun _ => f) allLinks w
  have hlink (j : Link) : c.link j = f (w.link j) := by
    rw [hc]
    exact (foldl_modLink_link hf allLinks w j).trans (if_pos (mem_allLinks j))
  rw [detach_of (hc.trans (congrArg (fun w => w.dropCursors vol) hw))]
  obtain ⟨wsup, wtally, wpat, woff, wcat⟩ := dropExtents_kept (s.forgetVolume vol) vol
  rw [← hw] at wsup wtally wpat woff wcat
  obtain ⟨csup, ctally, cpat, coff, ccat⟩ := detach_frame hframe
  have hwcat : c.cat = { s.cat with
      extents := s.cat.extents.filter fun kv => decide (kv.1 / Config.maxExtents ≠ vol) } := by
    rw [ccat, wcat, hcat]
  refine ⟨(csup.trans wsup).trans hsup, (ctally.trans wtally).trans htally, ?_, ?_,
    (congrArg Offsite.queue (coff.trans woff)).trans hqueue, (congrArg Offsite.plan (coff.trans woff)).trans hplan,
    fun j => ?_⟩
  · change c.patrolStill
    unfold State.patrolStill
    rw [cpat, wpat]
    exact hpat
  · change { c.cat with
      volumes := tdel c.cat.volumes vol
      snapshots := c.cat.snapshots.filter fun kv => kv.2.vol != vol
      reclaims := c.cat.reclaims.filter fun e => e.vol != vol
      dues := tdel c.cat.dues vol } = _
    rw [hwcat]
  · obtain ⟨ws, hj⟩ := hlinks j
    refine ⟨ws, (hlink j).trans ?_⟩
    rw [hw, dropExtents_link, hj]

/-! ### The command -/

theorem exec_volumeDetach (tag : Nat) (h : s.takes l) (hrole : s.role l = .console) :
    Machine.exec (.volumeDetach l tag vol []) s =
      .next (State.finish (match s.detachCheck vol with
        | some st => (s.asked l tag .volumeDetach).reply l s.sup.nextReq st .none
        | none => ((s.asked l tag .volumeDetach).detach vol).reply l s.sup.nextReq .done .none)) := by
  refine (act_asked tag .volumeDetach _ h (.inr hrole)).trans (congrArg Host.Outcome.next (congrArg State.finish ?_))
  have hcheck : (s.asked l tag .volumeDetach).detachCheck vol = s.detachCheck vol := rfl
  rw [hcheck] <;> cases s.detachCheck vol <;> rfl

/-- The checks of Volume Detach in STANDBY on an ATTACHED volume (R48). -/
theorem detachCheck_attached {v : Volume} (hop : s.sup.op = .standby) (hv : s.volume vol = some v) :
    s.detachCheck vol =
      if (s.snapsOf vol).any fun p => decide (0 < p.pins) then some .pinned
      else if s.restoring vol = true ∨ 0 < v.refTotal ∨ (s.snapsOf vol).any Snapshot.leaving = true then some .busy
      else none := by
  unfold State.detachCheck
  rw [if_neg (not_not.mpr hop), hv]

theorem snapsOf_filter_ne {k : Nat} (hk : k ≠ vol) (hs : t.cat.snapshots =
    s.cat.snapshots.filter fun kv => kv.2.vol != vol) : t.snapsOf k = s.snapsOf k := by
  unfold State.snapsOf
  rw [hs, List.filter_map, List.filter_map, List.filter_filter]
  refine congrArg (List.map Prod.snd) (List.filter_congr fun kv _ => ?_)
  by_cases hkv : kv.2.vol = k
  · simp [hkv, hk]
  · simp [hkv]

theorem snapsOf_filter_self (hs : t.cat.snapshots = s.cat.snapshots.filter fun kv => kv.2.vol != vol) :
    t.snapsOf vol = [] := by
  unfold State.snapsOf
  rw [hs]
  refine List.filter_eq_nil_iff.mpr fun p hp => ?_
  obtain ⟨kv, hkv, rfl⟩ := List.mem_map.mp hp
  simpa using (List.mem_filter.mp hkv).2

end

end Sys2Proof.Machine

open Sys2Proof Sys2Proof.Machine

/-- Settles O33. -/
theorem detachRemovesTheVolume : Obligations.DetachRemovesTheVolume := by
  refine ⟨?_, ?_, ?_⟩
  · intro s l tag vol v h hrole hcalm hop hv hsnaps htotal hrest
    obtain ⟨dsup, dtally, dpat, dcat, dqueue, dplan, dlinks⟩ :=
      detach_spec (s := s.asked l tag .volumeDetach) (vol := vol) hcalm.2
    obtain ⟨d, hd⟩ : ∃ d, d = (s.asked l tag .volumeDetach).detach vol := ⟨_, rfl⟩
    rw [← hd] at dsup dtally dpat dcat dqueue dplan dlinks
    have hcheck : s.detachCheck vol = none := by
      have hpins : ((s.snapsOf vol).any fun p => decide (0 < p.pins)) = false :=
        List.any_eq_false.mpr fun p hp => by simp [(hsnaps p hp).1]
      have hleave : (s.snapsOf vol).any Snapshot.leaving = false :=
        List.any_eq_false.mpr fun p hp => by simp [(hsnaps p hp).2]
      rw [detachCheck_attached hop hv, hpins, hleave, hrest, htotal]
      simp
    have hexec := exec_volumeDetach (vol := vol) tag h hrole
    rw [hcheck] at hexec
    rw [← hd] at hexec
    let u := d.reply l s.sup.nextReq .done .none
    have hrun : u.sup.op ≠ .halted := by
      have hr := takes_running h
      change d.sup.op ≠ .halted
      rw [dsup]
      exact hr
    have hcalmu : u.calm := by
      refine ⟨?_, dpat⟩
      change d.tallyStill
      unfold State.tallyStill
      rw [dtally]
      exact hcalm.1
    obtain ⟨-, flinks, -, fcat, -⟩ := finish_beside_parts hcalmu hrun
    obtain ⟨hlast, -, hqueue⟩ := finish_lasting hcalmu.2 hrun
    have hcat : u.finish.cat = d.cat := fcat
    have hent : Entered s d l tag .volumeDetach true := by
      obtain ⟨ws, hl⟩ := dlinks l
      exact (entered_asked s l tag .volumeDetach).of_kept (by rw [hl]) (by rw [hl]) (by rw [hl])
    have hsnapshots : u.finish.cat.snapshots = s.cat.snapshots.filter fun kv => kv.2.vol != vol := by
      rw [hcat, dcat]
      rfl
    refine ⟨u.finish, hexec, answered_finish _ _ h hent, ?_, snapsOf_filter_self hsnapshots, fun ext hext => ?_,
      fun r hr => ?_, ?_, fun e he => ?_, fun p hp => ?_, fun j c hc => ?_, fun k hk => ⟨?_, snapsOf_filter_ne hk hsnapshots⟩⟩
    · unfold State.volume
      rw [hcat, dcat]
      split
      · exact tget_tdel_self _ _
      · rfl
    · have hkey : tget u.finish.cat.extents (extentKey vol ext) = none := by
        rw [hcat, dcat]
        exact (tget_dropExtents s vol _).trans (if_pos (extentKey_div hext))
      unfold State.extent
      rw [hkey]
      rfl
    · rw [hcat, dcat] at hr
      simpa using (List.mem_filter.mp hr).2
    · unfold State.duesOf
      rw [hcat, dcat]
      dsimp only
      rw [tget_tdel_self]
      rfl
    · rw [hqueue] at he
      have hq : e ∈ d.off.queue := List.mem_of_mem_filter he
      rw [dqueue] at hq
      simpa using (List.mem_filter.mp hq).2
    · have hplan : u.finish.off.plan = d.off.plan := plan_of_lasting hlast
      rw [hplan, dplan] at hp
      simpa using (List.mem_filter.mp hp).2
    · have hcur : (u.link j).cursor = (d.link j).cursor := by
        by_cases hj : j = l
        · subst hj
          exact (reply_link_kept d j s.sup.nextReq .done .none).2.2.2.2.1
        · exact congrArg LinkRec.cursor (reply_link_ne d s.sup.nextReq .done .none (Ne.symm hj))
      obtain ⟨ws, hl⟩ := dlinks j
      have hask : ((s.asked l tag .volumeDetach).link j).cursor = (s.link j).cursor := by
        by_cases hj : l = j
        · subst hj
          rw [asked_link]
        · rw [asked_link_ne _ _ _ hj]
      rw [State.link_congr flinks, hcur, hl]
      dsimp only
      rw [hask, hc]
      rfl
    · unfold State.volume
      rw [hcat, dcat]
      split
      · exact tget_tdel_ne _ (Ne.symm hk)
      · rfl
  · intro s l tag vol v h hrole hop hv
    have hexec := exec_volumeDetach (vol := vol) tag h hrole
    rw [detachCheck_attached hop hv] at hexec
    refine ⟨_, hexec, fun hpin => ?_, fun hno hbusy => ?_⟩
    · obtain ⟨p, hp, hpos⟩ := hpin
      rw [if_pos (List.any_eq_true.mpr ⟨p, hp, decide_eq_true hpos⟩)]
      exact ⟨answered_replied tag _ .pinned .none h, spared_replied tag _ .pinned .none h⟩
    · have hpins : ((s.snapsOf vol).any fun p => decide (0 < p.pins)) = false :=
        List.any_eq_false.mpr fun p hp => by simp [hno p hp]
      have hb : s.restoring vol = true ∨ 0 < v.refTotal ∨ (s.snapsOf vol).any Snapshot.leaving = true :=
        hbusy.imp id (Or.imp id fun ⟨p, hp, hl⟩ => List.any_eq_true.mpr ⟨p, hp, hl⟩)
      rw [hpins, if_neg Bool.false_ne_true, if_pos hb]
      exact ⟨answered_replied tag _ .busy .none h, spared_replied tag _ .busy .none h⟩
  · intro s l tag vol h hrole hop
    have hexec := exec_volumeDetach (vol := vol) tag h hrole
    have hcheck : s.detachCheck vol = some .wrongState := if_pos (by rw [hop]; decide)
    rw [hcheck] at hexec
    exact ⟨_, hexec, answered_replied tag _ .wrongState .none h, spared_replied tag _ .wrongState .none h⟩

end

section
/-! PROOF. Cut, and the night's plan that a NIGHTLY one joins (R70, R71, R75, R122). -/

namespace Sys2Proof.Machine

theorem tput_perm {α : Type} (t : Tbl α) {key : Nat} (x : α) (h : ∀ kv ∈ t, kv.1 ≠ key) :
    (tput t key x).Perm ((key, x) :: t) := by
  induction t with
  | nil => exact .refl _
  | cons kv t ih =>
    obtain ⟨k, w⟩ := kv
    have hne : k ≠ key := h (k, w) List.mem_cons_self
    rw [tput]
    split
    · exact .refl _
    · rw [if_neg (Ne.symm hne)]
      exact ((ih fun y hy => h y (List.mem_cons_of_mem _ hy)).cons _).trans (.swap _ _ _)

section
variable {s : State} {l : Link} {vol gen : Nat} {v : Volume}

/-! ### The record and the generation written -/

/-- The record of a Cut and the generation that follows it (R70). -/
def State.cutWritten (s : State) (vol gen : Nat) (k : SnapKind) : State :=
  ({ s with cat.snapshots := tput s.cat.snapshots (snapKey vol gen) (newSnapshot vol gen k s.sup.clock) } : State).modVolume
    vol fun v => { v with gen := gen + 1 }

/-- What follows the record, by the kind of the Cut (R71, R73, R122). -/
def State.cutAnswered (s : State) (vol gen : Nat) (k : SnapKind) : State :=
  match k with
  | .hourly => s.closeDue false vol
  | .nightly => if (s.duesOf vol).nightly.isSome then (s.closeDue true vol).joinPlan vol gen else s
  | .manual => s

theorem cut_eq (s : State) (vol gen : Nat) (k : SnapKind) :
    s.cut vol gen k = ((s.cutWritten vol gen k).cutAnswered vol gen k).retain vol k := rfl

theorem cutWritten_volume (k : SnapKind) (hv : s.volume vol = some v) :
    (s.cutWritten vol gen k).volume vol = some { v with gen := gen + 1 } := by
  unfold State.cutWritten
  rw [State.volume_modVolume]
  exact congrArg (Option.map _) hv

theorem cutWritten_snapshot (k : SnapKind) (hg : gen ≤ maxGeneration) :
    (s.cutWritten vol gen k).snapshot vol gen = some (newSnapshot vol gen k s.sup.clock) := by
  unfold State.snapshot
  rw [if_pos hg]
  exact tget_tput_self _ _ _

theorem cutWritten_snapshot_ne (k : SnapKind) (hg : gen ≤ maxGeneration) {g : Nat} (hne : g ≠ gen) :
    (s.cutWritten vol gen k).snapshot vol g = s.snapshot vol g := by
  unfold State.snapshot
  split
  · exact tget_tput_ne _ _ fun hk => hne (snapKey_inj hg ‹_› hk).2.symm
  · rfl

theorem cutWritten_keyed (k : SnapKind) (hg : gen ≤ maxGeneration) (h : s.snapshotsKeyed) :
    (s.cutWritten vol gen k).snapshotsKeyed := by
  obtain ⟨hwf, hkeys⟩ := h
  refine ⟨wf_tput _ _ hwf, fun kv hkv => ?_⟩
  rcases mem_tput hkv with rfl | hkv
  · exact ⟨rfl, hg⟩
  · exact hkeys kv hkv

/-- The new record joins the volume's snapshots. -/
theorem cutWritten_snapsOf (k : SnapKind) (hg : gen ≤ maxGeneration) (h : s.snapshotsKeyed)
    (hfresh : ∀ p ∈ s.snapsOf vol, p.gen < gen) :
    ((s.cutWritten vol gen k).snapsOf vol).Perm (newSnapshot vol gen k s.sup.clock :: s.snapsOf vol) := by
  have hkey : ∀ kv ∈ s.cat.snapshots, kv.1 ≠ snapKey vol gen := by
    intro kv hkv hk
    obtain ⟨hkv1, hle⟩ := h.2 kv hkv
    obtain ⟨hvol, hgen⟩ := snapKey_inj hle hg (hkv1.symm.trans hk)
    have hmem : kv.2 ∈ s.snapsOf vol :=
      List.mem_filter.mpr ⟨List.mem_map.mpr ⟨kv, hkv, rfl⟩, by simpa using hvol⟩
    exact Nat.lt_irrefl _ (hgen ▸ hfresh _ hmem)
  have hperm := ((tput_perm s.cat.snapshots (newSnapshot vol gen k s.sup.clock) hkey).map Prod.snd).filter
    fun p => p.vol == vol
  rw [List.map_cons, List.filter_cons_of_pos (by simp [newSnapshot])] at hperm
  exact hperm

/-! ### Retention after a Cut -/

theorem retain_manual (s : State) (vol : Nat) : s.retain vol .manual = s := by
  refine iter_fixed ?_ _
  unfold State.retainOnce
  cases s.volume vol <;> rfl

theorem snapshotsKeyed_modSnapshot (h : s.snapshotsKeyed) {f : Snapshot → Snapshot}
    (hf : ∀ p, (f p).vol = p.vol ∧ (f p).gen = p.gen) : (s.modSnapshot vol gen f).snapshotsKeyed := by
  obtain ⟨hwf, hkeys⟩ := h
  refine ⟨wf_tmod _ _ hwf, fun kv hkv => ?_⟩
  change kv ∈ tmod s.cat.snapshots (snapKey vol gen) f at hkv
  rw [tmod_eq_map 0 _ _ _ hwf] at hkv
  obtain ⟨x, hx, rfl⟩ := List.mem_map.mp hkv
  have hrow := hkeys x hx
  split
  · change x.1 = snapKey (f x.2).vol (f x.2).gen ∧ (f x.2).gen ≤ maxGeneration
    rw [(hf x.2).1, (hf x.2).2]
    exact hrow
  · exact hrow

/-- A pinned snapshot is left by an evaluation of retention (R71). -/
theorem retain_pinned (k : SnapKind) (h : s.snapshotsKeyed) {q : Snapshot} (hq : s.snapshot vol gen = some q)
    (hpos : 0 < q.pins) : (s.retain vol k).snapshot vol gen = some q := by
  refine (iter_keeps (P := fun u => u.snapshotsKeyed ∧ u.snapshot vol gen = some q) (fun u hu => ?_) _ ⟨h, hq⟩).2
  obtain ⟨hkeyed, hsnap⟩ := hu
  unfold State.retainOnce
  split
  · exact ⟨hkeyed, hsnap⟩
  · split
    · exact ⟨hkeyed, hsnap⟩
    · split
      · exact ⟨hkeyed, hsnap⟩
      · rename_i p hp
        have hmem := (mem_activeOf (List.mem_of_find?_eq_some hp)).1
        have hzero := List.find?_some hp
        refine ⟨snapshotsKeyed_startExpiry hkeyed vol p.gen, ?_⟩
        refine (snapshot_modSnapshot_ne (gen_le_of_mem hkeyed hmem) ?_ _).trans hsnap
        rintro rfl
        rw [snapshot_of_mem hkeyed hmem] at hsnap
        obtain rfl := Option.some.inj hsnap
        simp only [decide_eq_true_eq] at hzero
        omega

/-! ### Joining the plan -/

theorem snapshot_takePin_self {p : Snapshot} (h : s.snapshot vol gen = some p) :
    (s.takePin vol gen true).snapshot vol gen = some { p with shipPins := p.shipPins + 1 } := by
  unfold State.takePin
  rw [State.snapshot_modSnapshot, h]
  rfl

theorem pinGranted_congr {t : State} {g : Nat} (h : t.snapshot vol g = s.snapshot vol g) :
    t.pinGranted vol g = s.pinGranted vol g := by
  unfold State.pinGranted
  rw [h]

theorem gen_le_of_snapshot {p : Snapshot} (h : s.snapshot vol gen = some p) : gen ≤ maxGeneration := by
  unfold State.snapshot at h
  split at h
  · assumption
  · cases h

/-- The base of a volume that joins the plan: the offsite mark, where its snapshot can be pinned (R122). -/
def State.shipBase (s : State) (vol : Nat) (v : Volume) : Nat :=
  if 0 < v.mark ∧ s.pinGranted vol v.mark = true then v.mark else 0

/-- A volume joins the plan of an open window (R122): it is SHIPPING, with both ship pins taken where they can be. -/
theorem joinPlan_joins {sc : Nat} {cfg : Scope} {p : Snapshot} (hv : s.volume vol = some v)
    (hscope : s.scopeOf vol = some (sc, cfg)) (hopen : s.windowIsOpen = true) (hshed : sc ∉ s.off.shedScopes)
    (hkeyed : s.snapshotsKeyed) (hp : s.snapshot vol gen = some p) (hact : p.state = .active) (hmark : v.mark < gen) :
    (s.joinPlan vol gen).snapshotsKeyed ∧
      (s.joinPlan vol gen).volume vol = some { v with shipCursor := 0 } ∧
      (s.joinPlan vol gen).snapshot vol gen = some { p with shipPins := p.shipPins + 1 } ∧
      (s.shipBase vol v ≠ 0 → ∀ q, s.snapshot vol (s.shipBase vol v) = some q →
        (s.joinPlan vol gen).snapshot vol (s.shipBase vol v) = some { q with shipPins := q.shipPins + 1 }) ∧
      (∃ e, (s.joinPlan vol gen).off.plan = s.off.plan ++ [e] ∧ e.vol = vol ∧ e.state = .shipping ∧ e.target = gen ∧
        e.base = s.shipBase vol v ∧ e.scope = sc ∧ e.countCursor = 0 ∧ e.shipCount = 0) ∧
      (s.joinPlan vol gen).cat.dues = s.cat.dues := by
  have hgrant : s.pinGranted vol gen = true := by
    unfold State.pinGranted
    rw [hp]
    simp [hact]
  have hmle : v.mark ≤ maxGeneration := Nat.le_of_lt (Nat.lt_of_lt_of_le hmark (gen_le_of_snapshot hp))
  let a := s.takePin vol gen true
  have hmne : v.mark ≠ gen := Nat.ne_of_lt hmark
  have hamark : a.snapshot vol v.mark = s.snapshot vol v.mark :=
    snapshot_modSnapshot_ne (gen_le_of_snapshot hp) hmne _
  let bPin := decide (0 < v.mark) && s.pinGranted vol v.mark
  let b := if bPin = true then a.takePin vol v.mark true else a
  have hpin {u : State} (hu : u.snapshotsKeyed) (g : Nat) : (u.takePin vol g true).snapshotsKeyed :=
    snapshotsKeyed_modSnapshot hu fun q => ⟨rfl, rfl⟩
  have hbkeyed : b.snapshotsKeyed := by
    change (if bPin = true then a.takePin vol v.mark true else a).snapshotsKeyed
    split
    · exact hpin (hpin hkeyed gen) v.mark
    · exact hpin hkeyed gen
  have hbgen : b.snapshot vol gen = some { p with shipPins := p.shipPins + 1 } := by
    change (if bPin = true then a.takePin vol v.mark true else a).snapshot vol gen = _
    split
    · exact (snapshot_modSnapshot_ne hmle (Ne.symm hmne) _).trans (snapshot_takePin_self hp)
    · exact snapshot_takePin_self hp
  have hbframe : b = { s with cat.snapshots := b.cat.snapshots } := by
    change (if bPin = true then a.takePin vol v.mark true else a) = _
    dsimp only [b]
    split <;> rfl
  have hbase : (if bPin = true then v.mark else 0) = s.shipBase vol v := by
    unfold State.shipBase
    simp only [bPin, Bool.and_eq_true, decide_eq_true_eq]
  let e : PlanVol :=
    { vol := vol, state := .shipping, target := gen, base := s.shipBase vol v, scope := sc, countCursor := 0
      shipCount := 0, counted := [], acked := 0, targetPin := true, basePin := bPin }
  have hjoin : s.joinPlan vol gen =
      ((b.modOff fun o => { o with plan := o.plan ++ [e] }).modVolume vol fun v => { v with shipCursor := 0 }) := by
    have hab : (decide (0 < v.mark) && a.pinGranted vol v.mark) = bPin := by rw [pinGranted_congr hamark]
    unfold State.joinPlan
    rw [hscope, hv]
    dsimp only
    rw [hopen, if_neg (by simp), if_neg (by simpa using hshed), hgrant, if_pos rfl, hab, hbase]
  rw [hjoin]
  refine ⟨hbkeyed, ?_, hbgen, fun hne q hq => ?_, ⟨e, ?_, rfl, rfl, rfl, rfl, rfl, rfl, rfl⟩, ?_⟩
  · rw [State.volume_modVolume]
    change (b.volume vol).map _ = _
    rw [hbframe]
    exact congrArg (Option.map _) hv
  · have hb : bPin = true := by
      by_contra hno
      rw [← hbase, if_neg hno] at hne
      exact hne rfl
    rw [← hbase, if_pos hb] at hq ⊢
    change b.snapshot vol v.mark = _
    change (if bPin = true then a.takePin vol v.mark true else a).snapshot vol v.mark = _
    rw [if_pos hb]
    exact snapshot_takePin_self (hamark.trans hq)
  · change b.off.plan ++ _ = _
    rw [hbframe]
  · change b.cat.dues = _
    rw [hbframe]

theorem joinPlan_closed (hopen : s.windowIsOpen = false) : s.joinPlan vol gen = s := by
  unfold State.joinPlan
  split
  · exact if_pos hopen
  · rfl

theorem joinPlan_kept (s : State) (vol gen : Nat) :
    (s.joinPlan vol gen).sup = s.sup ∧ (s.joinPlan vol gen).pat = s.pat := by
  unfold State.joinPlan
  split
  · dsimp only
    split
    · exact ⟨rfl, rfl⟩
    · split
      · exact ⟨rfl, rfl⟩
      · split <;> split <;> exact ⟨rfl, rfl⟩
  · exact ⟨rfl, rfl⟩

theorem cut_kept (s : State) (vol gen : Nat) (k : SnapKind) :
    (s.cut vol gen k).sup = s.sup ∧ (s.cut vol gen k).pat = s.pat := by
  have hans (w : State) : (w.cutAnswered vol gen k).sup = w.sup ∧ (w.cutAnswered vol gen k).pat = w.pat := by
    cases k with
    | hourly => exact ⟨rfl, rfl⟩
    | manual => exact ⟨rfl, rfl⟩
    | nightly =>
      unfold State.cutAnswered
      dsimp only
      split
      · exact joinPlan_kept _ vol gen
      · exact ⟨rfl, rfl⟩
  rw [cut_eq, retain_eq]
  exact hans _

theorem cut_dues_plan (s : State) (vol gen : Nat) (k : SnapKind) :
    (s.cut vol gen k).cat.dues = ((s.cutWritten vol gen k).cutAnswered vol gen k).cat.dues ∧
      (s.cut vol gen k).cat.volumes = ((s.cutWritten vol gen k).cutAnswered vol gen k).cat.volumes ∧
      (s.cut vol gen k).off = ((s.cutWritten vol gen k).cutAnswered vol gen k).off := by
  rw [cut_eq, retain_eq]
  exact ⟨rfl, rfl, rfl⟩

/-- A NIGHTLY Cut that answers no due leaves dues and plan. -/
theorem cutAnswered_none {w : State} (h : (w.duesOf vol).nightly = none) : w.cutAnswered vol gen .nightly = w := by
  unfold State.cutAnswered
  dsimp only
  rw [h]
  rfl

/-- A NIGHTLY Cut that answers its due closes it, and its volume may join the plan (R73, R122). -/
theorem cutAnswered_some {w : State} (h : (w.duesOf vol).nightly ≠ none) :
    w.cutAnswered vol gen .nightly = (w.closeDue true vol).joinPlan vol gen := by
  unfold State.cutAnswered
  dsimp only
  exact if_pos (Option.isSome_iff_ne_none.mpr h)

/-- A snapshot that is pinned once the Cut is answered stands after it. -/
theorem cut_pinned {k : SnapKind} {g : Nat} {q : Snapshot} (l : Link) (r : Nat) (st : Status) (b : ReplyBody)
    (h : ((s.cutWritten vol gen k).cutAnswered vol gen k).snapshotsKeyed)
    (hq : ((s.cutWritten vol gen k).cutAnswered vol gen k).snapshot vol g = some q) (hpos : 0 < q.pins) :
    ((s.cut vol gen k).reply l r st b).snapshot vol g = some q := by
  have hreply (w : State) : (w.reply l r st b).snapshot vol g = w.snapshot vol g := rfl
  rw [hreply, cut_eq]
  exact retain_pinned k h hq hpos

/-! ### The command -/

/-- A Cut refused by its checks. -/
theorem cut_refused (tag : Nat) (k : SnapKind) {st : Status} (h : s.takes l) (hc : s.cutCheck l vol = some st) :
    Machine.exec (.cut l tag vol (some k) []) s = .next (s.replied l tag .cut st .none) ∧
      Answered s (s.replied l tag .cut st .none) l tag .cut st .none ∧ Spared s (s.replied l tag .cut st .none) := by
  refine ⟨(act_asked tag .cut _ h (.inl rfl)).trans (congrArg Host.Outcome.next (congrArg State.finish ?_)),
    answered_replied tag _ _ _ h, spared_replied tag _ _ _ h⟩
  have hcheck : (s.asked l tag .cut).cutCheck l vol = some st := hc
  dsimp only
  rw [hcheck]

/-- A Cut that its checks accept. -/
theorem exec_cut (tag : Nat) (k : SnapKind) (h : s.takes l) (hc : s.cutCheck l vol = none) (hv : s.volume vol = some v) :
    Machine.exec (.cut l tag vol (some k) []) s =
      .next (((s.asked l tag .cut).cut vol v.gen k).reply l s.sup.nextReq .done (.cut v.gen)).finish := by
  refine (act_asked tag .cut _ h (.inl rfl)).trans (congrArg Host.Outcome.next (congrArg State.finish ?_))
  have hcheck : (s.asked l tag .cut).cutCheck l vol = none := hc
  have hvol : (s.asked l tag .cut).volume vol = some v := hv
  dsimp only
  rw [hcheck, hvol]

theorem foreign_iff : s.foreign l v = true ↔ s.role l = .fileserver ∧ l ≠ v.owner := by
  unfold State.foreign
  rw [Bool.and_eq_true, decide_eq_true_eq, decide_eq_true_eq]

theorem cutCheck_attached (hv : s.volume vol = some v) : s.cutCheck l vol =
    if s.foreign l v then some .notPermitted
    else if maxGeneration ≤ v.gen then some .range
    else if 64 ≤ (s.snapsOf vol).length ∨ 1024 ≤ s.cat.snapshots.length then some .catalogueFull
    else none := by
  unfold State.cutCheck
  rw [hv]
  rfl

theorem cutCheck_accepts (hv : s.volume vol = some v) (hacts : s.actsOn l v) (hgen : v.gen < maxGeneration)
    (hof : (s.snapsOf vol).length < 64) (hall : s.cat.snapshots.length < 1024) : s.cutCheck l vol = none := by
  rw [cutCheck_attached hv, not_foreign hacts, if_neg Bool.false_ne_true, if_neg (Nat.not_le.mpr hgen), if_neg (by omega)]

/-- The end of an accepted Cut: its answer, and a catalogue as the Cut left it. -/
theorem cut_accepted (tag : Nat) (k : SnapKind) (h : s.takes l) (hc : s.cutCheck l vol = none)
    (hv : s.volume vol = some v) :
    ∃ t, Machine.exec (.cut l tag vol (some k) []) s = .next t ∧ Answered s t l tag .cut .done (.cut v.gen) ∧
      Settles (((s.asked l tag .cut).cut vol v.gen k).reply l s.sup.nextReq .done (.cut v.gen)) t := by
  have hent : Entered s ((s.asked l tag .cut).cut vol v.gen k) l tag .cut true :=
    (entered_asked s l tag .cut).gains fun P _ hp => gains_cut vol v.gen k hp
  exact ⟨_, exec_cut tag k h hc hv, answered_finish _ _ h hent, finish_settles _⟩

end

end Sys2Proof.Machine

open Sys2Proof Sys2Proof.Machine

/-- Settles O34. -/
theorem cutWritesTheSnapshot : Obligations.CutWritesTheSnapshot := by
  refine ⟨?_, ?_, ?_, ?_, ?_, ?_⟩
  · intro s l tag vol v h hv hacts hgen hof hall
    obtain ⟨t, hexec, hans, hset⟩ := cut_accepted tag .manual h (cutCheck_accepts hv hacts hgen hof hall) hv
    let a := s.asked l tag .cut
    have hcut : a.cut vol v.gen .manual = a.cutWritten vol v.gen .manual := by
      rw [cut_eq]
      exact retain_manual _ vol
    rw [hcut] at hset
    have hle := Nat.le_of_lt hgen
    obtain ⟨-, -, ⟨⟨hvols, -⟩, -⟩, -⟩ := id hset
    exact ⟨t, hexec, hans, (hset.snapshot vol v.gen).trans (cutWritten_snapshot (s := a) .manual hle),
      (volume_congr hvols vol).trans (cutWritten_volume (s := a) .manual hv),
      fun g hne => (hset.snapshot vol g).trans (cutWritten_snapshot_ne (s := a) .manual hle hne)⟩
  · intro s l tag vol v h hv hacts hgen hof hall hkeyed hsnaps
    obtain ⟨t, hexec, hans, hset⟩ := cut_accepted tag .hourly h (cutCheck_accepts hv hacts hgen hof hall) hv
    let a := s.asked l tag .cut
    let w := a.cutWritten vol v.gen .hourly
    let c := w.closeDue false vol
    have hcut : a.cut vol v.gen .hourly = c.retain vol .hourly := rfl
    rw [hcut] at hset
    have hle := Nat.le_of_lt hgen
    have hperm : (w.snapsOf vol).Perm (newSnapshot vol v.gen .hourly s.sup.clock :: s.snapsOf vol) :=
      cutWritten_snapsOf (s := a) .hourly hle hkeyed fun p hp => (hsnaps p hp).2
    have hun : c.unpinned vol := fun p hp => by
      rcases List.mem_cons.mp (hperm.mem_iff.mp hp) with rfl | hp
      · rfl
      · exact (hsnaps p hp).1
    have hvc : c.volume vol = some { v with gen := v.gen + 1 } := cutWritten_volume (s := a) .hourly hv
    have hkeep := retain_length (s := c) (k := .hourly) hvc rfl (cutWritten_keyed (s := a) .hourly hle hkeyed) hun
    have hactive : (c.activeOf vol .hourly).length = (s.activeOf vol .hourly).length + 1 :=
      (hperm.filter _).length_eq
    obtain ⟨-, -, ⟨⟨hvols, -, hsnap, -, -, hdues⟩, -⟩, -⟩ := id hset
    refine ⟨t, hexec, hans, ?_, (volume_congr hvols vol).trans ?_, ?_⟩
    · rw [duesOf_congr hdues]
      have hd : (c.retain vol .hourly).cat.dues = c.cat.dues := by rw [retain_eq]
      refine congrArg Dues.hourly ((duesOf_congr (s := c) hd vol).trans (duesOf_setDues w vol _))
    · refine Eq.trans ?_ hvc
      refine volume_congr (s := c) ?_ vol
      change (c.retain vol .hourly).cat.volumes = _
      rw [retain_eq]
    · rw [activeOf_congr hsnap vol .hourly, ← hactive]
      exact hkeep
  · intro s l tag vol sc base cfg v h hcalm hv hacts hgen hof hall hkeyed hmark hsnaps hscope hshed hbase
    obtain ⟨t, hexec, hans, hset⟩ := cut_accepted tag .nightly h (cutCheck_accepts hv hacts hgen hof hall) hv
    let a := s.asked l tag .cut
    let w := a.cutWritten vol v.gen .nightly
    let c := w.cutAnswered vol v.gen .nightly
    let u := (a.cut vol v.gen .nightly).reply l s.sup.nextReq .done (.cut v.gen)
    have hle := Nat.le_of_lt hgen
    obtain ⟨hsup, hpat⟩ := cut_kept a vol v.gen .nightly
    obtain ⟨cdues, cvols, coff⟩ := cut_dues_plan a vol v.gen .nightly
    have ht : t = u.finish := Host.Outcome.next.inj (hexec.symm.trans (exec_cut tag .nightly h
      (cutCheck_accepts hv hacts hgen hof hall) hv))
    have hplan : t.off.plan = c.off.plan := by
      have hrun : u.sup.op ≠ .halted := by
        have hr := takes_running h
        change (a.cut vol v.gen .nightly).sup.op ≠ .halted
        rw [hsup]
        exact hr
      have hstill : u.patrolStill := by
        change (a.cut vol v.gen .nightly).patrolStill
        unfold State.patrolStill
        rw [hpat]
        exact hcalm.2
      have hlast : u.finish.off.plan = u.off.plan := plan_of_lasting (finish_lasting hstill hrun).1
      rw [ht, hlast]
      exact congrArg Offsite.plan coff
    obtain ⟨-, -, ⟨⟨hvols, -, -, -, -, hdues⟩, -⟩, -⟩ := id hset
    have hnightly : (t.duesOf vol).nightly = (c.duesOf vol).nightly :=
      congrArg Dues.nightly (duesOf_congr (hdues.trans cdues) vol)
    have hkeyedw : w.snapshotsKeyed := cutWritten_keyed (s := a) .nightly hle hkeyed
    by_cases hdue : (s.duesOf vol).nightly = none
    · have hc : c = w := cutAnswered_none hdue
      refine ⟨t, hexec, hans, ?_, fun _ => ?_, fun hne => absurd hdue hne⟩
      · rw [hnightly, hc]
        exact hdue
      · rw [hplan, hc]
        rfl
    · have hc : c = (w.closeDue true vol).joinPlan vol v.gen := cutAnswered_some hdue
      have hclosed : ((w.closeDue true vol).duesOf vol).nightly = none :=
        congrArg Dues.nightly (duesOf_setDues w vol _)
      cases hopen : s.windowIsOpen with
      | false =>
        have hc' : c = w.closeDue true vol := hc.trans (joinPlan_closed (s := w.closeDue true vol) hopen)
        refine ⟨t, hexec, hans, ?_, fun _ => ?_, fun _ hno => (nomatch hno)⟩
        · rw [hnightly, hc']
          exact hclosed
        · rw [hplan, hc']
          rfl
      | true =>
        have hwv : (w.closeDue true vol).volume vol = some { v with gen := v.gen + 1 } :=
          cutWritten_volume (s := a) .nightly hv
        have hnew : (w.closeDue true vol).snapshot vol v.gen = some (newSnapshot vol v.gen .nightly s.sup.clock) :=
          cutWritten_snapshot (s := a) .nightly hle
        have hold (g : Nat) (hne : g ≠ v.gen) : (w.closeDue true vol).snapshot vol g = s.snapshot vol g :=
          cutWritten_snapshot_ne (s := a) .nightly hle hne
        obtain ⟨jkeyed, jvol, jtarget, jbase, jplan, jdues⟩ :=
          joinPlan_joins (s := w.closeDue true vol) hwv hscope hopen hshed hkeyedw hnew rfl hmark
        have hsb : (w.closeDue true vol).shipBase vol { v with gen := v.gen + 1 } = base := by
          unfold State.shipBase
          rw [hbase]
          dsimp only
          rw [pinGranted_congr (hold v.mark (Nat.ne_of_lt hmark))]
        rw [hsb] at jbase jplan
        rw [← hc] at jkeyed jvol jtarget jbase jplan jdues
        have hpinned {g : Nat} {q : Snapshot} (hq : c.snapshot vol g = some q) (hpos : 0 < q.pins) :
            t.snapshot vol g = some q :=
          (hset.snapshot vol g).trans (cut_pinned (s := a) l s.sup.nextReq .done (.cut v.gen) jkeyed hq hpos)
        refine ⟨t, hexec, hans, ?_, fun hno => ?_, fun _ _ => ⟨(volume_congr (hvols.trans cvols) vol).trans jvol,
          hpinned jtarget (Nat.lt_of_lt_of_le (Nat.zero_lt_one) (Nat.le_add_left _ _)), ?_, fun hne p hp => ?_⟩⟩
        · rw [hnightly, duesOf_congr jdues]
          exact hclosed
        · rcases hno with hno | hno
          · exact absurd hno hdue
          · cases hno
        · rw [hplan]
          exact jplan
        · have hbne : base ≠ v.gen := by
            rw [hbase] at hne ⊢
            split at hne
            · rw [if_pos ‹_›]
              exact Nat.ne_of_lt hmark
            · exact absurd rfl hne
          refine hpinned (jbase hne p ((hold base hbne).trans hp)) ?_
          exact Nat.lt_of_lt_of_le (Nat.succ_pos p.shipPins) (Nat.le_add_left _ _)
  · intro s l tag vol v k h hv
    have hcheck := cutCheck_attached (l := l) hv
    have hrefused (st : Status) (hc : s.cutCheck l vol = some st) : ∀ t, Machine.exec (.cut l tag vol (some k) []) s = .next t →
        Answered s t l tag .cut st .none ∧ Spared s t := by
      intro t ht
      obtain ⟨hexec, hans⟩ := cut_refused tag k h hc
      rw [hexec] at ht
      obtain rfl := Host.Outcome.next.inj ht
      exact hans
    obtain ⟨t, hexec⟩ : ∃ t, Machine.exec (.cut l tag vol (some k) []) s = .next t :=
      ⟨_, act_asked tag .cut _ h (.inl rfl)⟩
    refine ⟨t, hexec, fun hrole hne => ?_, fun hacts hmax => ?_, fun hacts hlt hfull => ?_⟩
    · exact hrefused _ (hcheck.trans (if_pos (foreign_iff.mpr ⟨hrole, hne⟩))) t hexec
    · refine hrefused .range ?_ t hexec
      rw [hcheck, not_foreign hacts, if_neg Bool.false_ne_true, if_pos (Nat.le_of_eq hmax.symm)]
    · refine hrefused .catalogueFull ?_ t hexec
      rw [hcheck, not_foreign hacts, if_neg Bool.false_ne_true, if_neg (Nat.not_le.mpr hlt), if_pos hfull]
  · intro s l tag vol k h hv
    have hc : s.cutCheck l vol = some .unknownVolume := by
      unfold State.cutCheck
      rw [hv]
    exact ⟨_, cut_refused tag k h hc⟩
  · intro s l tag vol h
    exact ⟨_, act_asked tag .cut _ h (.inl rfl), answered_replied tag .cut .malformed .none h,
      spared_replied tag .cut .malformed .none h⟩

end

section
/-! PROOF. Hourly cut dues, and a nightly due missed (R72 to R74). -/

namespace Sys2Proof.Machine

section
variable {s t u : State} {vol : Nat}

theorem duesOf_setDues_ne (s : State) {vol w : Nat} (d : Dues) (h : vol ≠ w) :
    (s.setDues vol d).duesOf w = s.duesOf w := by
  unfold State.duesOf State.setDues
  dsimp only
  split
  · rw [tget_tdel_ne _ h]
  · rw [tget_tput_ne _ _ h]

/-! ### One due opened -/

/-- From one state to another, dues and links alone differ: a link is UP as it was, its frames only grow, and the
nightly dues stand. -/
structure DuesOpened (s t : State) : Prop where
  frame : t = { s with links := t.links, cat.dues := t.cat.dues }
  up : ∀ l : Link, (t.link l).up = (s.link l).up
  tx : ∀ l : Link, (s.link l).tx <+: (t.link l).tx
  nightly : ∀ vol, (t.duesOf vol).nightly = (s.duesOf vol).nightly

namespace DuesOpened

theorem refl (s : State) : DuesOpened s s := ⟨rfl, fun _ => rfl, fun _ => List.prefix_refl _, fun _ => rfl⟩

theorem trans (h : DuesOpened s t) (k : DuesOpened t u) : DuesOpened s u := by
  refine ⟨?_, fun l => (k.up l).trans (h.up l), fun l => (h.tx l).trans (k.tx l),
    fun vol => (k.nightly vol).trans (h.nightly vol)⟩
  have hframe := k.frame
  rw [h.frame] at hframe
  exact hframe

theorem sup (h : DuesOpened s t) : t.sup = s.sup := by rw [h.frame]
theorem tally (h : DuesOpened s t) : t.tally = s.tally := by rw [h.frame]
theorem pat (h : DuesOpened s t) : t.pat = s.pat := by rw [h.frame]
theorem volume (h : DuesOpened s t) (vol : Nat) : t.volume vol = s.volume vol := by
  refine volume_congr ?_ vol
  rw [h.frame]

end DuesOpened

/-- An hourly due written open, before its CUT_DUE goes (R72). -/
def State.hourlyWritten (s : State) (vol : Nat) : State :=
  s.setDues vol ((s.duesOf vol).put false (some { opened := s.sup.elapsed, clock := s.sup.clock, sent := false }))

theorem duesOpened_hourlyWritten (s : State) (vol : Nat) : DuesOpened s (s.hourlyWritten vol) := by
  refine ⟨rfl, fun _ => rfl, fun _ => List.prefix_refl _, fun w => ?_⟩
  by_cases h : vol = w
  · subst h
    have hd := duesOf_setDues s vol
      ((s.duesOf vol).put false (some { opened := s.sup.elapsed, clock := s.sup.clock, sent := false }))
    exact (congrArg Dues.nightly hd).trans rfl
  · exact congrArg Dues.nightly (duesOf_setDues_ne s _ h)

/-- A CUT_DUE sent (R74). -/
theorem sendCutDue_eq {v : Volume} {d : Due} (hv : s.volume vol = some v) (hd : (s.duesOf vol).hourly = some d)
    (hsent : d.sent = false) (hup : (s.link v.owner).up = true) :
    s.sendCutDue vol false = (s.setDues vol ((s.duesOf vol).put false (some { d with sent := true }))).handNotice v.owner
      (.cutDue vol false v.gen) := by
  unfold State.sendCutDue
  have hget : (s.duesOf vol).get false = some d := hd
  rw [hv, hget]
  exact if_pos ⟨hsent, hup⟩

theorem sendCutDue_down {v : Volume} (hv : s.volume vol = some v) (hup : (s.link v.owner).up = false) :
    s.sendCutDue vol false = s := by
  unfold State.sendCutDue
  rw [hv]
  cases (s.duesOf vol).get false with
  | none => rfl
  | some d => exact if_neg fun h => by rw [hup] at h; cases h.2

theorem sendCutDue_unknown (hv : s.volume vol = none) : s.sendCutDue vol false = s := by
  unfold State.sendCutDue
  rw [hv]

theorem duesOpened_handNotice (s : State) (l : Link) (b : DirBody) : DuesOpened s (s.handNotice l b) := by
  obtain ⟨-, hup, htx⟩ := handNotice_link s l b
  refine ⟨rfl, hup, fun j => ?_, fun _ => rfl⟩
  obtain ⟨more, hmore⟩ := htx j
  exact ⟨more, hmore.symm⟩

/-- An hourly due opened (R72): other dues stand, and it is sent where the owning link is UP (R74). -/
theorem openDue_spec (s : State) (vol : Nat) : DuesOpened s (s.openDue false vol) ∧
    (∀ w, vol ≠ w → (s.openDue false vol).duesOf w = s.duesOf w) ∧
    ∀ v, s.volume vol = some v →
      ((s.openDue false vol).duesOf vol).hourly =
          some { opened := s.sup.elapsed, clock := s.sup.clock, sent := (s.link v.owner).up } ∧
        ((s.link v.owner).up = true →
          ∃ tag, TxFrame.directive tag (.cutDue vol false v.gen) ∈ ((s.openDue false vol).link v.owner).tx) := by
  have hopen : s.openDue false vol = (s.hourlyWritten vol).sendCutDue vol false := rfl
  have hw := duesOpened_hourlyWritten s vol
  have hdue : ((s.hourlyWritten vol).duesOf vol).hourly =
      some { opened := s.sup.elapsed, clock := s.sup.clock, sent := false } :=
    congrArg Dues.hourly (duesOf_setDues s vol _)
  have hother (w : Nat) (h : vol ≠ w) : (s.hourlyWritten vol).duesOf w = s.duesOf w := duesOf_setDues_ne s _ h
  rw [hopen]
  cases hv : s.volume vol with
  | none =>
    rw [sendCutDue_unknown (s := s.hourlyWritten vol) hv]
    exact ⟨hw, hother, fun v hno => nomatch hno⟩
  | some v =>
    cases hup : (s.link v.owner).up with
    | false =>
      rw [sendCutDue_down (s := s.hourlyWritten vol) hv hup]
      refine ⟨hw, hother, fun v' hv' => ?_⟩
      obtain rfl := Option.some.inj hv'
      rw [hup]
      exact ⟨hdue, fun hno => nomatch hno⟩
    | true =>
      rw [sendCutDue_eq (s := s.hourlyWritten vol) hv hdue rfl hup]
      let z := (s.hourlyWritten vol).setDues vol (((s.hourlyWritten vol).duesOf vol).put false
        (some { opened := s.sup.elapsed, clock := s.sup.clock, sent := true }))
      have hz : DuesOpened (s.hourlyWritten vol) z := by
        refine ⟨rfl, fun _ => rfl, fun _ => List.prefix_refl _, fun w => ?_⟩
        by_cases h : vol = w
        · subst h
          have hd := duesOf_setDues (s.hourlyWritten vol) vol (((s.hourlyWritten vol).duesOf vol).put false
            (some { opened := s.sup.elapsed, clock := s.sup.clock, sent := true }))
          exact (congrArg Dues.nightly hd).trans rfl
        · exact congrArg Dues.nightly (duesOf_setDues_ne _ _ h)
      have hn := duesOpened_handNotice z v.owner (.cutDue vol false v.gen)
      refine ⟨(hw.trans hz).trans hn, fun w h => (duesOf_setDues_ne _ _ h).trans (hother w h), fun v' hv' => ?_⟩
      obtain rfl := Option.some.inj hv'
      rw [hup]
      refine ⟨congrArg Dues.hourly (duesOf_setDues (s.hourlyWritten vol) vol _), fun _ => ?_⟩
      rw [(handNotice_link z v.owner (.cutDue vol false v.gen)).1]
      exact ⟨_, List.mem_append_right _ (List.mem_singleton.mpr rfl)⟩

/-! ### The dues of a list of volumes opened -/

theorem openDues_spec (vols : List Nat) (hnd : vols.Nodup) (s : State) :
    DuesOpened s (vols.foldl (fun s vol => s.openDue false vol) s) ∧
    (∀ w ∉ vols, (vols.foldl (fun s vol => s.openDue false vol) s).duesOf w = s.duesOf w) ∧
    ∀ vol ∈ vols, ∀ v, s.volume vol = some v →
      ((vols.foldl (fun s vol => s.openDue false vol) s).duesOf vol).hourly =
          some { opened := s.sup.elapsed, clock := s.sup.clock, sent := (s.link v.owner).up } ∧
        ((s.link v.owner).up = true → ∃ tag, TxFrame.directive tag (.cutDue vol false v.gen) ∈
          ((vols.foldl (fun s vol => s.openDue false vol) s).link v.owner).tx) := by
  induction vols generalizing s with
  | nil => exact ⟨DuesOpened.refl s, fun _ _ => rfl, fun vol hvol => nomatch hvol⟩
  | cons x vols ih =>
    obtain ⟨hx, hnd⟩ := List.nodup_cons.mp hnd
    obtain ⟨hone, hother, hself⟩ := openDue_spec s x
    obtain ⟨hrest, hout, hin⟩ := ih hnd (s.openDue false x)
    rw [List.foldl_cons]
    refine ⟨hone.trans hrest, fun w hw => ?_, fun vol hvol v hv => ?_⟩
    · obtain ⟨hne, hw⟩ := not_or.mp (mt List.mem_cons.mpr hw)
      exact (hout w hw).trans (hother w (Ne.symm hne))
    · rcases List.mem_cons.mp hvol with rfl | hvol
      · obtain ⟨hdue, hsent⟩ := hself v hv
        refine ⟨?_, fun hup => ?_⟩
        · rw [hout vol hx]
          exact hdue
        · obtain ⟨tag, htag⟩ := hsent hup
          exact ⟨tag, (hrest.tx v.owner).subset htag⟩
      · have hgo := hin vol hvol v ((hone.volume vol).trans hv)
        rw [hone.sup, hone.up] at hgo
        exact hgo

theorem mem_volumesIf {p : Volume → Bool} {v : Volume} (hwf : Tbl.wf s.cat.volumes = true) (hv : s.volume vol = some v) :
    vol ∈ s.volumesIf p ↔ p v = true := by
  have hget : tget s.cat.volumes vol = some v := by
    unfold State.volume at hv
    split at hv
    · exact hv
    · cases hv
  constructor
  · intro h
    obtain ⟨kv, hkv, rfl⟩ := List.mem_map.mp h
    obtain ⟨hkv, hp⟩ := List.mem_filter.mp hkv
    rw [tget_of_mem 0 _ hwf hkv] at hget
    rw [← Option.some.inj hget]
    exact hp
  · intro h
    exact List.mem_map.mpr ⟨(vol, v), List.mem_filter.mpr ⟨mem_of_tget hget, h⟩, rfl⟩

theorem volumesIf_nodup {p : Volume → Bool} (hwf : Tbl.wf s.cat.volumes = true) : (s.volumesIf p).Nodup := by
  have hkeys := (risingFrom_keys 0 _ hwf).1
  have hsub : (s.volumesIf p).Sublist (s.cat.volumes.map Prod.fst) := List.filter_sublist.map _
  exact (hkeys.sublist hsub).imp Nat.ne_of_lt

/-! ### A nightly due missed -/

theorem reportMissed_kept (s : State) (vol : Nat) :
    (s.reportMissed vol).cat = s.cat ∧ (s.reportMissed vol).sup = s.sup ∧ (s.reportMissed vol).tally = s.tally ∧
      (s.reportMissed vol).pat = s.pat := by
  unfold State.reportMissed
  split
  · split <;> exact ⟨rfl, rfl, rfl, rfl⟩
  · exact ⟨rfl, rfl, rfl, rfl⟩

theorem missDue_some {d : Due} (hd : (s.duesOf vol).nightly = some d) : s.missDue vol =
    ((s.closeDue true vol).raise (.cutMissed vol d.clock s.sup.settings.cutWait)).reportMissed vol := by
  unfold State.missDue
  rw [hd]

theorem running_iff : s.running = true ↔ s.sup.op = .standby ∨ s.sup.op = .active := by
  unfold State.running
  rw [Bool.or_eq_true, decide_eq_true_eq, decide_eq_true_eq]

end

end Sys2Proof.Machine

open Sys2Proof Sys2Proof.Machine

/-- Settles O35. -/
theorem cutDuesOpenAndAreMissed : Obligations.CutDuesOpenAndAreMissed := by
  refine ⟨?_, ?_, ?_, ?_⟩
  · intro s hop hset hcounted hhour htaken hcalm hwf
    have hrun : s.sup.op ≠ .halted := by rcases hop with h | h <;> rw [h] <;> decide
    let a : State := ({ s with sent := [] } : State).modSup fun u => { u with hourlyTaken := true }
    let vols := s.volumesIf fun v => v.hourlyCuts
    obtain ⟨hopened, hout, hin⟩ := openDues_spec vols (volumesIf_nodup hwf) a
    obtain ⟨u, hu⟩ : ∃ u, u = vols.foldl (fun s vol => s.openDue false vol) a := ⟨_, rfl⟩
    rw [← hu] at hopened hout hin
    have hexec : Machine.exec .hourlyCutDueOpen s = .next u.finish := by
      refine (act_withErrs_nil _ hrun).trans (congrArg Host.Outcome.next ?_)
      have hhr : ({ s with sent := [] } : State).hourReached = true := by
        simp [State.hourReached, hset, hcounted, hhour, htaken]
      have hrn : ({ s with sent := [] } : State).running = true := running_iff.mpr hop
      dsimp only
      rw [hhr, hrn, hu]
      rfl
    have hcalmu : u.calm := by
      unfold State.calm State.tallyStill State.patrolStill
      rw [hopened.tally, hopened.pat]
      exact hcalm
    have hrunu : u.sup.op ≠ .halted := by
      rw [hopened.sup]
      exact hrun
    obtain ⟨fsup, flinks, -, fcat, -⟩ := finish_beside_parts hcalmu hrunu
    have hdues (vol : Nat) : u.finish.duesOf vol = u.duesOf vol := duesOf_congr (congrArg Catalogue.dues fcat) vol
    refine ⟨u.finish, hexec, ?_, fun vol v hv hcuts => ?_, fun vol v hv hcuts => ?_, fun vol => ?_⟩
    · rw [fsup, hopened.sup]
      rfl
    · rw [hdues, State.link_congr flinks]
      exact hin vol ((mem_volumesIf hwf hv).mpr hcuts) v hv
    · rw [hdues]
      refine hout vol fun hmem => ?_
      rw [(mem_volumesIf hwf hv).mp hmem] at hcuts
      cases hcuts
    · rw [hdues]
      exact hopened.nightly vol
  · intro s hrun hno
    refine (act_withErrs_nil _ hrun).trans (congrArg Host.Outcome.next (if_neg ?_))
    rw [Bool.and_eq_true, running_iff]
    simp only [State.hourReached, Bool.and_eq_true, decide_eq_true_eq, Bool.not_eq_true']
    rintro ⟨⟨⟨⟨h1, h2⟩, h3⟩, h4⟩, h5⟩
    rcases hno with h | h | h | h | h | h
    · rw [h] at h1
      cases h1
    · exact h h3
    · rw [h] at h2
      cases h2
    · rw [h] at h4
      cases h4
    · rw [h] at h5
      rcases h5 with h5 | h5 <;> cases h5
    · rw [h] at h5
      rcases h5 with h5 | h5 <;> cases h5
  · intro s vol d hop hcalm hd hlate
    have hrun : s.sup.op ≠ .halted := by rcases hop with h | h <;> rw [h] <;> decide
    let a : State := { s with sent := [] }
    let b := a.closeDue true vol
    let c := b.raise (.cutMissed vol d.clock s.sup.settings.cutWait)
    let u := c.reportMissed vol
    have hexec : Machine.exec (.cutWaitExpiry vol) s = .next u.finish := by
      refine (act_withErrs_nil _ hrun).trans (congrArg Host.Outcome.next ?_)
      have hlt : a.cutLate vol = true := by
        unfold State.cutLate
        rw [show (a.duesOf vol).nightly = some d from hd]
        exact decide_eq_true hlate
      have hrn : a.running = true := running_iff.mpr hop
      have hmiss : a.missDue vol = u := missDue_some hd
      rw [← hmiss]
      exact if_pos (by rw [hlt, hrn]; rfl)
    obtain ⟨ucat, usup, utally, upat⟩ := reportMissed_kept c vol
    have hothers : c.others = b.others := othersKept_raise _ rfl
    have hccat : c.cat = b.cat := congrArg (fun x => x.1) hothers
    have hcpat : c.pat = b.pat := congrArg (fun x => x.2.2.2.2) hothers
    have hcalmu : u.calm := by
      unfold State.calm State.tallyStill State.patrolStill
      rw [utally, upat, hcpat, raise_tally]
      exact hcalm
    have hrunu : u.sup.op ≠ .halted := by
      have hk : supKept b.sup c.sup := supKept_raise _ (supKept_refl _)
      rw [usup, hk.1]
      exact hrun
    obtain ⟨fsup, -, -, fcat, -⟩ := finish_beside_parts hcalmu hrunu
    have hdues : u.finish.duesOf vol = b.duesOf vol :=
      duesOf_congr (congrArg Catalogue.dues ((fcat.trans ucat).trans hccat)) vol
    have hclosed : b.duesOf vol = (s.duesOf vol).put true none := duesOf_setDues a vol _
    refine ⟨u.finish, hexec, ?_, ?_, ?_⟩
    · rw [hdues, hclosed]
      rfl
    · rw [hdues, hclosed]
      rfl
    · rw [fsup, usup, raise_raised, getElem?_modAt]
      rfl
  · intro s vol hrun hno
    refine (act_withErrs_nil _ hrun).trans (congrArg Host.Outcome.next (if_neg ?_))
    rw [Bool.and_eq_true]
    rintro ⟨-, hlate⟩
    unfold State.cutLate at hlate
    have hsame : ({ s with sent := [] } : State).duesOf vol = s.duesOf vol := rfl
    rw [hsame] at hlate
    cases hd : (s.duesOf vol).nightly with
    | none =>
      rw [hd] at hlate
      cases hlate
    | some d =>
      rw [hd] at hlate
      have h1 := of_decide_eq_true hlate
      have h2 := hno d hd
      exact Nat.not_le.mpr h2 h1

end

section
/-! PROOF. The visits of expiry and drop sweeps (R78, R79, R81). -/

namespace Sys2Proof.Machine

section
variable {s : State} {vol gen ext : Nat} {v : Volume} {x : Version}

/-! ### The fates of versions (Table 4-4) -/

theorem isHeld_of_mem {q : Snapshot} (hq : q ∈ s.snapsOf vol) (hx : x.heldAt q.gen = true) : s.stays vol x = true := by
  unfold State.stays State.isHeld
  rw [Bool.or_eq_true, List.any_eq_true]
  exact .inr ⟨q, hq, hx⟩

theorem expiryFate_live (h : x.death = none) : s.expiryFate vol gen x = .keep := by
  unfold State.expiryFate
  rw [h]
  rfl

theorem expiryFate_dead (hd : x.death ≠ none) (hx : x.heldAt gen = true) : s.expiryFate vol gen x =
    if (s.snapsOf vol).any fun p => p.keepsFrom gen x then .keep
    else if (s.snapsOf vol).any fun p => x.heldAt p.gen && (p.held || decide (0 < p.pins)) then
      if x.loc.isSome && x.shipped then .convert else .keep
    else .remove := by
  unfold State.expiryFate
  refine if_neg ?_
  rw [hx, Option.isNone_eq_false_iff.mpr (Option.isSome_iff_ne_none.mpr hd)]
  exact Bool.false_ne_true

theorem keepsFrom_active {q : Snapshot} (hne : q.gen ≠ gen) (ha : q.state = .active) (hx : x.heldAt q.gen = true) :
    q.keepsFrom gen x = true := by
  unfold Snapshot.keepsFrom
  rw [ha]
  simp [hne, hx]

theorem not_keepsFrom (h : ∀ q ∈ s.snapsOf vol, q.gen ≠ gen → x.heldAt q.gen = true →
    q.state ≠ .active ∧ ∀ c, q.state ≠ .dropping true c) : ((s.snapsOf vol).any fun p => p.keepsFrom gen x) = false := by
  refine List.any_eq_false.mpr fun q hq hk => ?_
  unfold Snapshot.keepsFrom at hk
  rw [Bool.and_eq_true, Bool.and_eq_true, decide_eq_true_eq] at hk
  obtain ⟨⟨hne, hx⟩, hst⟩ := hk
  obtain ⟨hact, hdrop⟩ := h q hq hne hx
  cases hs : q.state with
  | active => exact hact hs
  | dropping a c =>
    rw [hs] at hst
    cases a with
    | true => exact hdrop c hs
    | false => cases hst
  | expiring c =>
    rw [hs] at hst
    cases hst
  | offsiteOnly =>
    rw [hs] at hst
    cases hst

theorem expiryFate_keep {q : Snapshot} (hd : x.death ≠ none) (hx : x.heldAt gen = true) (hq : q ∈ s.snapsOf vol)
    (hne : q.gen ≠ gen) (ha : q.state = .active) (hqx : x.heldAt q.gen = true) : s.expiryFate vol gen x = .keep :=
  (expiryFate_dead hd hx).trans (if_pos (List.any_eq_true.mpr ⟨q, hq, keepsFrom_active hne ha hqx⟩))

theorem expiryFate_convert {q : Snapshot} (hd : x.death ≠ none) (hx : x.heldAt gen = true)
    (hno : ∀ q ∈ s.snapsOf vol, q.gen ≠ gen → x.heldAt q.gen = true →
      q.state ≠ .active ∧ ∀ c, q.state ≠ .dropping true c)
    (hq : q ∈ s.snapsOf vol) (hqx : x.heldAt q.gen = true) (hheld : q.held = true ∨ 0 < q.pins)
    (hloc : x.loc.isSome = true) (hship : x.shipped = true) : s.expiryFate vol gen x = .convert := by
  have hany : ((s.snapsOf vol).any fun p => x.heldAt p.gen && (p.held || decide (0 < p.pins))) = true :=
    List.any_eq_true.mpr ⟨q, hq, by simpa [hqx] using hheld⟩
  rw [expiryFate_dead hd hx, not_keepsFrom hno, if_neg Bool.false_ne_true, if_pos hany, hloc, hship]
  rfl

theorem expiryFate_remove (hd : x.death ≠ none) (hx : x.heldAt gen = true)
    (hno : ∀ q ∈ s.snapsOf vol, x.heldAt q.gen = true → q.held = false ∧ q.pins = 0 ∧
      (q.gen ≠ gen → q.state ≠ .active ∧ ∀ c, q.state ≠ .dropping true c)) : s.expiryFate vol gen x = .remove := by
  have hany : ((s.snapsOf vol).any fun p => x.heldAt p.gen && (p.held || decide (0 < p.pins))) = false := by
    refine List.any_eq_false.mpr fun q hq hk => ?_
    rw [Bool.and_eq_true] at hk
    obtain ⟨hh, hp, -⟩ := hno q hq hk.1
    rw [hh, hp] at hk
    cases hk.2
  rw [expiryFate_dead hd hx, not_keepsFrom fun q hq hne hqx => (hno q hq hqx).2.2 hne, if_neg Bool.false_ne_true, hany,
    if_neg Bool.false_ne_true]

theorem dropFate_live (h : x.death = none) : s.dropFate vol gen x = .keep := by
  unfold State.dropFate
  rw [h]
  rfl

theorem dropFate_dead (hd : x.death ≠ none) (hx : x.heldAt gen = true) : s.dropFate vol gen x =
    if (s.snapsOf vol).any fun p =>
      decide (p.gen ≠ gen) && x.heldAt p.gen && (decide (p.state = .active) || p.held || decide (0 < p.pins)) then .keep
    else .remove := by
  unfold State.dropFate
  refine if_neg ?_
  rw [hx, Option.isNone_eq_false_iff.mpr (Option.isSome_iff_ne_none.mpr hd)]
  exact Bool.false_ne_true

theorem dropFate_ne_convert (s : State) (vol gen : Nat) (x : Version) : s.dropFate vol gen x ≠ .convert := by
  unfold State.dropFate
  split
  · exact nofun
  · split <;> exact nofun

/-! ### The list that a visit leaves -/

section
variable {fate : Version → Fate} {e : Extent}

/-- A version that a visit takes out of the list (R51, R78). -/
def State.goes (s : State) (vol : Nat) (fate : Version → Fate) (e : Extent) (x : Version) : Bool :=
  decide (fate x = .remove) || ((e.versions.any fun v => decide (fate v = .remove)) && !(s.stays vol x))

theorem sweepList_eq (s : State) (vol ext : Nat) (fate : Version → Fate) (e : Extent) : s.sweepList vol ext fate e =
    ((e.versions.filter fun x => !(s.goes vol fate e x)).map fun x =>
        if fate x = .convert then { x with res := .offsite } else x,
      e.versions.flatMap fun x =>
        if s.goes vol fate e x || decide (fate x = .convert) then x.reclaim vol ext else []) := rfl

theorem not_goes (hf : fate x ≠ .remove) (hs : s.stays vol x = true) : s.goes vol fate e x = false := by
  unfold State.goes
  rw [decide_eq_false hf, hs]
  simp

theorem sweepList_keeps (hx : x ∈ e.versions) (hf : fate x = .keep) (hs : s.stays vol x = true) :
    x ∈ (s.sweepList vol ext fate e).1 := by
  rw [sweepList_eq]
  refine List.mem_map.mpr ⟨x, List.mem_filter.mpr ⟨hx, ?_⟩, if_neg (by rw [hf]; exact nofun)⟩
  rw [not_goes (by rw [hf]; exact nofun) hs]
  rfl

theorem sweepList_converts (hx : x ∈ e.versions) (hf : fate x = .convert) (hs : s.stays vol x = true) :
    { x with res := .offsite } ∈ (s.sweepList vol ext fate e).1 ∧
      ∀ r ∈ x.reclaim vol ext, r ∈ (s.sweepList vol ext fate e).2 := by
  rw [sweepList_eq]
  refine ⟨List.mem_map.mpr ⟨x, List.mem_filter.mpr ⟨hx, ?_⟩, if_pos hf⟩, fun r hr => List.mem_flatMap.mpr ⟨x, hx, ?_⟩⟩
  · rw [not_goes (by rw [hf]; exact nofun) hs]
    rfl
  · rw [if_pos (by rw [hf]; simp)]
    exact hr

theorem sweepList_removes (hx : x ∈ e.versions) (hf : fate x = .remove)
    (hsame : ∀ y ∈ e.versions, fate y = .convert → ({ y with res := .offsite } : Version) ≠ x) :
    x ∉ (s.sweepList vol ext fate e).1 ∧ ∀ r ∈ x.reclaim vol ext, r ∈ (s.sweepList vol ext fate e).2 := by
  have hgoes : s.goes vol fate e x = true := by
    unfold State.goes
    rw [hf]
    rfl
  rw [sweepList_eq]
  refine ⟨fun hmem => ?_, fun r hr => List.mem_flatMap.mpr ⟨x, hx, ?_⟩⟩
  · obtain ⟨y, hy, hyx⟩ := List.mem_map.mp hmem
    obtain ⟨hy, hstay⟩ := List.mem_filter.mp hy
    by_cases hc : fate y = .convert
    · rw [if_pos hc] at hyx
      exact hsame y hy hc hyx
    · rw [if_neg hc] at hyx
      rw [hyx, hgoes] at hstay
      cases hstay
  · rw [hgoes]
    exact hr

theorem sweepList_entries (s : State) (vol ext : Nat) (fate : Version → Fate) (e : Extent) :
    (s.sweepList vol ext fate e).2.length ≤ e.versions.length := by
  rw [sweepList_eq]
  dsimp only
  generalize s.goes vol fate e = goes
  induction e.versions with
  | nil => exact Nat.le_refl 0
  | cons y ys ih =>
    have hone : (if goes y || decide (fate y = .convert) then y.reclaim vol ext else []).length ≤ 1 := by
      split
      · unfold Version.reclaim
        split
        · exact Nat.le_refl 1
        · exact Nat.zero_le 1
      · exact Nat.zero_le 1
    rw [List.flatMap_cons, List.length_append, List.length_cons]
    omega

end

/-! ### A visit made -/

/-- The records that a visit writes, before DUE entries are sent. -/
def State.visitWritten (s : State) (vol gen ext : Nat) (fate : Version → Fate) : State :=
  { (s.setExtent vol ext { s.extent vol ext with
      versions := (s.sweepList vol ext fate (s.extent vol ext)).1 }).leaveSweep (snapKey vol gen) with
    cat.reclaims := s.cat.reclaims ++ (s.sweepList vol ext fate (s.extent vol ext)).2 }

theorem visit_sweeps {fate : Version → Fate} (h : s.sweeps vol ext v) :
    s.visit vol gen ext fate = some (s.visitWritten vol gen ext fate).flushReclaims := by
  obtain ⟨-, -, -, hd, hwaits, hroom⟩ := h
  have hlen := sweepList_entries s vol ext fate (s.extent vol ext)
  have hfits : s.sweepRoom (snapKey vol gen) (s.sweepList vol ext fate (s.extent vol ext)).2.length = true := by
    have hsize : Config.reclaimTableSize = 4096 := rfl
    unfold State.sweepRoom
    rw [hwaits, decide_eq_true (p := s.cat.reclaims.length + _ ≤ Config.reclaimTableSize) (by omega)]
    simp
  unfold State.visit
  rw [hd, if_neg Bool.false_ne_true]
  dsimp only
  rw [if_pos hfits]
  rfl

/-- What a visit leaves: the extent's list, its entries with references out, and all else but links. -/
theorem visit_spec {fate : Version → Fate} {c : State} (hc : c = (s.visitWritten vol gen ext fate).flushReclaims) :
    c.sup = s.sup ∧ c.tally = s.tally ∧ c.pat = s.pat ∧ c.cat.snapshots = s.cat.snapshots ∧
      (c.extent vol ext).versions = (s.sweepList vol ext fate (s.extent vol ext)).1 ∧
      ∀ r ∈ (s.sweepList vol ext fate (s.extent vol ext)).2, 0 < r.refs → r ∈ c.cat.reclaims := by
  have hro := reclaimsOnly_flushReclaims (s.visitWritten vol gen ext fate)
  rw [hc]
  refine ⟨hro.sup, hro.tally, hro.pat, hro.snapshots, ?_, fun r hr hpos => ?_⟩
  · rw [hro.extent]
    exact congrArg Extent.versions (extent_setExtent_self s vol ext _)
  · exact mem_flushReclaims (List.mem_append_right _ hr) hpos

/-! ### The cursor of an expiry sweep -/

/-- The cursor's move touches the catalogue alone (R79). -/
theorem moveExpiry_kept (s : State) (vol gen cursor count : Nat) :
    (s.moveExpiry vol gen cursor count).sup = s.sup ∧ (s.moveExpiry vol gen cursor count).tally = s.tally ∧
      (s.moveExpiry vol gen cursor count).pat = s.pat ∧
      (s.moveExpiry vol gen cursor count).cat.extents = s.cat.extents ∧
      (s.moveExpiry vol gen cursor count).cat.reclaims = s.cat.reclaims := by
  unfold State.moveExpiry State.endExpiry
  split
  · exact ⟨rfl, rfl, rfl, rfl, rfl⟩
  · split
    · exact ⟨rfl, rfl, rfl, rfl, rfl⟩
    · split <;> exact ⟨rfl, rfl, rfl, rfl, rfl⟩

theorem moveExpiry_next {p : Snapshot} {cursor count : Nat} (hp : s.snapshot vol gen = some p) (h : cursor + 1 < count) :
    (s.moveExpiry vol gen cursor count).snapshot vol gen = some { p with state := .expiring (cursor + 1) } := by
  unfold State.moveExpiry
  rw [if_pos h, State.snapshot_modSnapshot, hp]
  rfl

theorem moveExpiry_held {p : Snapshot} {cursor count : Nat} (hp : s.snapshot vol gen = some p) (h : count ≤ cursor + 1)
    (hheld : p.held = true) :
    (s.moveExpiry vol gen cursor count).snapshot vol gen = some { p with state := .offsiteOnly } := by
  unfold State.moveExpiry State.endExpiry
  rw [if_neg (Nat.not_lt.mpr h), hp]
  dsimp only
  rw [if_pos hheld, State.snapshot_modSnapshot, hp]
  rfl

/-- A snapshot's record taken out of the catalogue. -/
theorem snapshot_deleted (s : State) (vol gen : Nat) :
    ({ s with cat.snapshots := tdel s.cat.snapshots (snapKey vol gen) } : State).snapshot vol gen = none := by
  unfold State.snapshot
  split
  · exact tget_tdel_self _ _
  · rfl

theorem moveExpiry_gone {p : Snapshot} {cursor count : Nat} (hp : s.snapshot vol gen = some p) (h : count ≤ cursor + 1)
    (hheld : p.held = false) : (s.moveExpiry vol gen cursor count).snapshot vol gen = none := by
  unfold State.moveExpiry State.endExpiry
  rw [if_neg (Nat.not_lt.mpr h), hp]
  dsimp only
  rw [hheld, if_neg Bool.false_ne_true]
  exact snapshot_deleted s vol gen

/-- The next extent of a drop sweep, or the end of its record (R81). -/
def State.moveDrop (s : State) (vol gen cursor count : Nat) (a : Bool) : State :=
  if cursor + 1 < count then s.modSnapshot vol gen fun p => { p with state := .dropping a (some (cursor + 1)) }
  else { s with cat.snapshots := tdel s.cat.snapshots (snapKey vol gen) }

theorem moveDrop_kept (s : State) (vol gen cursor count : Nat) (a : Bool) :
    (s.moveDrop vol gen cursor count a).sup = s.sup ∧ (s.moveDrop vol gen cursor count a).tally = s.tally ∧
      (s.moveDrop vol gen cursor count a).pat = s.pat ∧
      (s.moveDrop vol gen cursor count a).cat.extents = s.cat.extents := by
  unfold State.moveDrop
  split <;> exact ⟨rfl, rfl, rfl, rfl⟩

/-! ### The commands -/

theorem exec_expiryVisit {p : Snapshot} {cursor : Nat} {c : State} (hop : s.sup.op = .standby ∨ s.sup.op = .active)
    (hv : s.volume vol = some v) (hp : s.snapshot vol gen = some p) (hstate : p.state = .expiring cursor)
    (hc : ({ s with sent := [] } : State).visit vol gen cursor (s.expiryFate vol gen) = some c) :
    Machine.exec (.expirySweepVisit vol gen []) s = .next (c.moveExpiry vol gen cursor v.count).finish := by
  have hrun : s.sup.op ≠ .halted := by rcases hop with h | h <;> rw [h] <;> decide
  refine (act_running _ hrun).trans (congrArg Host.Outcome.next ?_)
  refine (if_pos (running_iff.mpr hop)).trans ((withErrs_nil (s := { s with sent := [] }) _ hrun).trans ?_)
  change (match s.volume vol, s.snapshot vol gen with
    | some v, some p =>
      (match p.state with
       | .expiring cursor =>
         (match ({ s with sent := [] } : State).visit vol gen cursor (s.expiryFate vol gen) with
          | some s => (s.moveExpiry vol gen cursor v.count).finish
          | none => ({ s with sent := [] } : State).waitSweep (snapKey vol gen))
       | _ => { s with sent := [] })
    | _, _ => { s with sent := [] }) = _
  rw [hv, hp]
  change (match p.state with
       | .expiring cursor =>
         (match ({ s with sent := [] } : State).visit vol gen cursor (s.expiryFate vol gen) with
          | some s => (s.moveExpiry vol gen cursor v.count).finish
          | none => ({ s with sent := [] } : State).waitSweep (snapKey vol gen))
       | _ => { s with sent := [] }) = _
  rw [hstate]
  change (match ({ s with sent := [] } : State).visit vol gen cursor (s.expiryFate vol gen) with
          | some s => (s.moveExpiry vol gen cursor v.count).finish
          | none => ({ s with sent := [] } : State).waitSweep (snapKey vol gen)) = _
  rw [hc]

theorem exec_dropVisit {p : Snapshot} {cursor : Nat} {a : Bool} {c : State}
    (hop : s.sup.op = .standby ∨ s.sup.op = .active) (hv : s.volume vol = some v) (hp : s.snapshot vol gen = some p)
    (hstate : p.state = .dropping a (some cursor))
    (hc : ({ s with sent := [] } : State).visit vol gen cursor (s.dropFate vol gen) = some c) :
    Machine.exec (.dropSweepVisit vol gen []) s = .next (c.moveDrop vol gen cursor v.count a).finish := by
  have hrun : s.sup.op ≠ .halted := by rcases hop with h | h <;> rw [h] <;> decide
  refine (act_running _ hrun).trans (congrArg Host.Outcome.next ?_)
  refine (if_pos (running_iff.mpr hop)).trans ((withErrs_nil (s := { s with sent := [] }) _ hrun).trans ?_)
  change (match s.volume vol, s.snapshot vol gen with
    | some v, some p =>
      (match p.state with
       | .dropping a (some cursor) =>
         (match ({ s with sent := [] } : State).visit vol gen cursor (s.dropFate vol gen) with
          | some s => (s.moveDrop vol gen cursor v.count a).finish
          | none => ({ s with sent := [] } : State).waitSweep (snapKey vol gen))
       | _ => { s with sent := [] })
    | _, _ => { s with sent := [] }) = _
  rw [hv, hp]
  change (match p.state with
       | .dropping a (some cursor) =>
         (match ({ s with sent := [] } : State).visit vol gen cursor (s.dropFate vol gen) with
          | some s => (s.moveDrop vol gen cursor v.count a).finish
          | none => ({ s with sent := [] } : State).waitSweep (snapKey vol gen))
       | _ => { s with sent := [] }) = _
  rw [hstate]
  change (match ({ s with sent := [] } : State).visit vol gen cursor (s.dropFate vol gen) with
          | some s => (s.moveDrop vol gen cursor v.count a).finish
          | none => ({ s with sent := [] } : State).waitSweep (snapKey vol gen)) = _
  rw [hc]

end

end Sys2Proof.Machine

open Sys2Proof Sys2Proof.Machine

/-- Settles O37. -/
theorem sweepsVisitEachExtent : Obligations.SweepsVisitEachExtent := by
  refine ⟨?_, ?_, ?_⟩
  · intro s vol gen ext v p hsweeps hp hstate
    let a : State := { s with sent := [] }
    obtain ⟨c, hc⟩ : ∃ c, c = (a.visitWritten vol gen ext (a.expiryFate vol gen)).flushReclaims := ⟨_, rfl⟩
    obtain ⟨csup, ctally, cpat, csnap, cext, crec⟩ := visit_spec hc
    have hvisit : a.visit vol gen ext (a.expiryFate vol gen) = some c := by
      rw [hc]
      exact visit_sweeps (s := a) hsweeps
    obtain ⟨hop, hcalm, hv, -⟩ := hsweeps
    have hrun : s.sup.op ≠ .halted := by rcases hop with h | h <;> rw [h] <;> decide
    let u := c.moveExpiry vol gen ext v.count
    have hexec : Machine.exec (.expirySweepVisit vol gen []) s = .next u.finish :=
      exec_expiryVisit hop hv hp hstate hvisit
    have hcp : c.snapshot vol gen = some p := by
      simp only [State.snapshot, csnap]
      exact hp
    obtain ⟨usup, utally, upat, uext, urec⟩ := moveExpiry_kept c vol gen ext v.count
    have hcalmu : u.calm := by
      unfold State.calm State.tallyStill State.patrolStill
      rw [utally, upat, ctally, cpat]
      exact hcalm
    have hrunu : u.sup.op ≠ .halted := by
      rw [usup, csup]
      exact hrun
    obtain ⟨-, -, -, fcat, -⟩ := finish_beside_parts hcalmu hrunu
    have hext : (u.finish.extent vol ext).versions =
        (s.sweepList vol ext (s.expiryFate vol gen) (s.extent vol ext)).1 := by
      refine Eq.trans ?_ cext
      have hxs : u.cat.extents = c.cat.extents := uext
      simp only [State.extent, fcat, hxs]
    have hrecs : ∀ r ∈ (s.sweepList vol ext (s.expiryFate vol gen) (s.extent vol ext)).2, 0 < r.refs →
        r ∈ u.finish.cat.reclaims := fun r hr hpos => by
      rw [fcat, urec]
      exact crec r hr hpos
    have hsnap : u.finish.snapshot vol gen = u.snapshot vol gen := by simp only [State.snapshot, fcat]
    refine ⟨u.finish, hexec, fun x hx => ?_, fun hlt => hsnap.trans (moveExpiry_next hcp hlt),
      fun hle hheld => hsnap.trans (moveExpiry_held hcp hle hheld),
      fun hle hheld => hsnap.trans (moveExpiry_gone hcp hle hheld)⟩
    rw [hext]
    refine ⟨fun hd => ?_, fun hd hxg hq => ?_, fun hd hxg hno hq hloc hship => ?_, fun hd hxg hno loc refs hres => ?_⟩
    · exact sweepList_keeps hx (expiryFate_live hd) (stays_live hd)
    · obtain ⟨q, hq, hne, ha, hqx⟩ := hq
      exact sweepList_keeps hx (expiryFate_keep hd hxg hq hne ha hqx) (isHeld_of_mem hq hqx)
    · obtain ⟨q, hq, hqx, hheld⟩ := hq
      obtain ⟨hin, hout⟩ := sweepList_converts (ext := ext) hx
        (expiryFate_convert hd hxg hno hq hqx hheld hloc hship) (isHeld_of_mem hq hqx)
      refine ⟨⟨_, hin, rfl⟩, fun loc refs hres hpos => hrecs _ (hout _ ?_) hpos⟩
      unfold Version.reclaim
      rw [hres]
      exact List.mem_singleton.mpr rfl
    · obtain ⟨hnot, hout⟩ := sweepList_removes (s := s) (vol := vol) (ext := ext) hx
        (expiryFate_remove hd hxg hno) fun y _ _ h => by
          have hoff : x.res = .offsite := by rw [← h]
          rw [hres] at hoff
          cases hoff
      refine ⟨hnot, fun hpos => hrecs _ (hout _ ?_) hpos⟩
      unfold Version.reclaim
      rw [hres]
      exact List.mem_singleton.mpr rfl
  · intro s vol gen ext v p drop hsweeps hp hstate
    let a : State := { s with sent := [] }
    obtain ⟨c, hc⟩ : ∃ c, c = (a.visitWritten vol gen ext (a.dropFate vol gen)).flushReclaims := ⟨_, rfl⟩
    obtain ⟨csup, ctally, cpat, csnap, cext, -⟩ := visit_spec hc
    have hvisit : a.visit vol gen ext (a.dropFate vol gen) = some c := by
      rw [hc]
      exact visit_sweeps (s := a) hsweeps
    obtain ⟨hop, hcalm, hv, -⟩ := hsweeps
    have hrun : s.sup.op ≠ .halted := by rcases hop with h | h <;> rw [h] <;> decide
    let u := c.moveDrop vol gen ext v.count drop
    have hexec : Machine.exec (.dropSweepVisit vol gen []) s = .next u.finish :=
      exec_dropVisit hop hv hp hstate hvisit
    have hcp : c.snapshot vol gen = some p := by
      simp only [State.snapshot, csnap]
      exact hp
    obtain ⟨usup, utally, upat, uext⟩ := moveDrop_kept c vol gen ext v.count drop
    have hcalmu : u.calm := by
      unfold State.calm State.tallyStill State.patrolStill
      rw [utally, upat, ctally, cpat]
      exact hcalm
    have hrunu : u.sup.op ≠ .halted := by
      rw [usup, csup]
      exact hrun
    obtain ⟨-, -, -, fcat, -⟩ := finish_beside_parts hcalmu hrunu
    have hext : (u.finish.extent vol ext).versions =
        (s.sweepList vol ext (s.dropFate vol gen) (s.extent vol ext)).1 := by
      refine Eq.trans ?_ cext
      have hxs : u.cat.extents = c.cat.extents := uext
      simp only [State.extent, fcat, hxs]
    have hsnap : u.finish.snapshot vol gen = u.snapshot vol gen := by simp only [State.snapshot, fcat]
    refine ⟨u.finish, hexec, fun x hx => ?_, fun hlt => hsnap.trans ?_, fun hle => hsnap.trans ?_⟩
    · rw [hext]
      refine ⟨fun hd => ?_, fun hd hxg hq => ?_, fun hd hxg hno => ?_⟩
      · exact sweepList_keeps hx (dropFate_live hd) (stays_live hd)
      · obtain ⟨q, hq, hne, hqx, hst⟩ := hq
        refine sweepList_keeps hx ((dropFate_dead hd hxg).trans (if_pos ?_)) (isHeld_of_mem hq hqx)
        exact List.any_eq_true.mpr ⟨q, hq, by simpa [hne, hqx, or_assoc] using hst⟩
      · have hfate : s.dropFate vol gen x = .remove := by
          rw [dropFate_dead hd hxg, if_neg]
          rw [List.any_eq_true]
          rintro ⟨q, hq, hk⟩
          rw [Bool.and_eq_true, Bool.and_eq_true, decide_eq_true_eq] at hk
          obtain ⟨⟨hne, hqx⟩, hst⟩ := hk
          obtain ⟨hact, hheld, hpins⟩ := hno q hq hne hqx
          rw [hheld, hpins, decide_eq_false hact] at hst
          cases hst
        exact (sweepList_removes (s := s) (vol := vol) (ext := ext) hx hfate fun y _ hc =>
          absurd hc (dropFate_ne_convert s vol gen y)).1
    · unfold u State.moveDrop
      rw [if_pos hlt, State.snapshot_modSnapshot, hcp]
      rfl
    · unfold u State.moveDrop
      rw [if_neg (Nat.not_lt.mpr hle)]
      exact snapshot_deleted c vol gen
  · intro s vol gen hop
    have hrun : s.sup.op ≠ .halted := by rcases hop with h | h <;> rw [h] <;> decide
    have hno : ¬({ s with sent := [] } : State).running = true := by
      rw [running_iff]
      rintro (hr | hr) <;> rcases hop with h | h <;> exact nomatch h.symm.trans hr
    exact ⟨(act_running _ hrun).trans (congrArg Host.Outcome.next (if_neg hno)),
      (act_running _ hrun).trans (congrArg Host.Outcome.next (if_neg hno))⟩

end

section
/-! PROOF. A Restore waits for its turn, and is accepted in it (R86 to R89). -/

namespace Sys2Proof.Machine

section
variable {s : State} {l : Link} {b : RestoreBody}

/-! ### A Restore as it arrives -/

theorem exec_restore (tag : Nat) (h : s.takes l) :
    Machine.exec (.restore l tag b) s = .next (State.finish (((({ s with sent := [] } : State).entered l tag .restore
      false).modRst fun e => { e with
        waiting := e.waiting ++ [{ link := l, req := s.sup.nextReq, role := s.role l, body := b }] }))) := by
  have hr := takes_running h
  have hreq : request l tag .restore false false [] (fun r u => u.modRst fun e => { e with
      waiting := e.waiting ++ [{ link := l, req := r, role := s.role l, body := b }] }) { s with sent := [] } = _ :=
    (request_takes (s := { s with sent := [] }) tag .restore false [] _ h (.inl rfl)).trans (withErrs_nil _ hr)
  change execRestore l tag b s = _
  unfold execRestore
  refine (act_running _ hr).trans ?_
  exact congrArg (fun u : State => Host.Outcome.next u.finish) hreq

/-! ### The checks of an acceptance -/

theorem recordFor_isSome (h : ∃ n, n < 64 ∧ s.restore n = none) : s.recordFor.isNone = false := by
  obtain ⟨n, hn, hnone⟩ := h
  unfold State.recordFor
  have hmem : n ∈ List.range Config.restoreTableSize := List.mem_range.mpr hn
  have hfind : ((List.range Config.restoreTableSize).find? fun n => (s.restore n).isNone).isSome = true := by
    rw [List.find?_isSome]
    exact ⟨n, hmem, by rw [hnone]; rfl⟩
  obtain ⟨m, hm⟩ := Option.isSome_iff_exists.mp hfind
  rw [hm]
  rfl

theorem pinGranted_of {vol gen : Nat} {p : Snapshot} (hp : s.snapshot vol gen = some p) (hl : p.leaving = false) :
    s.pinGranted vol gen = true := by
  unfold State.pinGranted
  rw [hp]
  unfold Snapshot.leaving at hl
  cases hs : p.state with
  | active => simp [hs]
  | offsiteOnly => simp [hs]
  | expiring c =>
    rw [hs] at hl
    cases hl
  | dropping a c =>
    rw [hs] at hl
    cases hl

theorem pinGranted_none {vol gen : Nat} (h : s.snapshot vol gen = none ∨
    ∃ p, s.snapshot vol gen = some p ∧ p.leaving = true) : s.pinGranted vol gen = false := by
  unfold State.pinGranted
  rcases h with h | ⟨p, hp, hl⟩
  · rw [h]
  · rw [hp]
    unfold Snapshot.leaving at hl
    cases hs : p.state with
    | active =>
      rw [hs] at hl
      cases hl
    | offsiteOnly =>
      rw [hs] at hl
      cases hl
    | expiring c => simp [hs]
    | dropping a c => simp [hs]

/-- What the checks of Table 5-4 ask of the target of a restore to a RECOVERY volume. -/
def State.targetReady (s : State) (b : RestoreBody) : Prop :=
  b.mode = .inPlace ∨ ∃ w, s.volume b.tvol = some w ∧ w.recovery = true ∧ b.tfirst + b.count ≤ w.count

/-- A request that passes every check of Table 5-4. -/
theorem restoreCheck_passes {sv : Volume} {p : Snapshot} {k : Principal} {role : Role} (hop : s.sup.op = .active)
    (hv : s.volume b.vol = some sv) (hp : s.snapshot b.vol b.gen = some p) (hl : p.leaving = false)
    (h1 : 1 ≤ b.count) (h2 : b.count ≤ 4096) (h3 : b.first + b.count ≤ sv.count) (htarget : s.targetReady b)
    (hk : s.prin b.principal = some k) (hperson : k.kind = .person) (hactive : k.active < 2)
    (hrole : role = .console ∨ ((s.classOf k.cls).selfRestore = true ∧ s.ownsAll b = true))
    (hrec : ∃ n, n < 64 ∧ s.restore n = none) : s.restoreCheck role b = none := by
  have hown : ¬(role = .fileserver ∧ (s.classOf k.cls).selfRestore = false) ∧
      ¬(role = .fileserver ∧ s.ownsAll b = false) := by
    rcases hrole with hr | ⟨hself, hall⟩
    · rw [hr]
      exact ⟨fun h => (nomatch h.1), fun h => (nomatch h.1)⟩
    · rw [hself, hall]
      exact ⟨fun h => (nomatch h.2), fun h => (nomatch h.2)⟩
  have hkind : ¬k.kind = .pool := by rw [hperson]; exact nofun
  unfold State.restoreCheck
  rw [if_neg (not_not.mpr hop), hv]
  dsimp only
  rw [pinGranted_of hp hl, if_neg (by simp), if_neg (by omega)]
  rcases htarget with hm | ⟨w, hw, hwr, hwc⟩
  · rw [hm, if_neg (by simp), if_neg (by simp), if_neg (by simp), hk]
    dsimp only
    rw [if_neg hkind, if_neg hown.1, if_neg hown.2, if_neg (Nat.not_le.mpr hactive), recordFor_isSome hrec]
    rfl
  · rw [hw]
    dsimp only
    rw [if_neg (by simp), if_neg (by simp [hwr]), if_neg (by simp only [decide_eq_true_eq]; omega), hk]
    dsimp only
    rw [if_neg hkind, if_neg hown.1, if_neg hown.2, if_neg (Nat.not_le.mpr hactive), recordFor_isSome hrec]
    rfl

theorem restoreCheck_standby {role : Role} (hop : s.sup.op = .standby) :
    s.restoreCheck role b = some .wrongState := if_pos (by rw [hop]; decide)

theorem restoreCheck_unknown {role : Role} (hop : s.sup.op = .active)
    (h : s.volume b.vol = none ∨ s.snapshot b.vol b.gen = none ∨
      ∃ p, s.snapshot b.vol b.gen = some p ∧ p.leaving = true) : s.restoreCheck role b = some .unknownSnapshot := by
  unfold State.restoreCheck
  rw [if_neg (not_not.mpr hop)]
  cases hv : s.volume b.vol with
  | none => rfl
  | some v =>
    rcases h with h | h
    · rw [hv] at h
      cases h
    · exact if_pos (pinGranted_none h)

/-! ### The plan (Table 5-5) -/

/-- The step planned for an extent of the range (R88, R89). -/
def State.plannedStep (s : State) (b : RestoreBody) (i : Nat) : Step :=
  let near := match b.mode with
    | .inPlace => true
    | .recovery => decide (s.ownerOf b.vol = s.ownerOf b.tvol)
  let held := (s.extent b.vol (b.first + i)).heldAt b.gen
  match planKind near held, held with
  | .none, _ => skippedStep
  | k, some v =>
    let back : Nat := match b.mode with
      | .inPlace => (s.extent b.vol (b.first + i)).liveOcc
      | .recovery => 0
    planStep k v ((v.occ : Int) - back)
  | _, none => skippedStep

theorem planRestore_eq (s : State) (b : RestoreBody) :
    s.planRestore b = (List.range b.count).map (s.plannedStep b) := rfl

/-- The target's owner is the source's. -/
def State.isNear (s : State) (b : RestoreBody) : Bool :=
  match b.mode with
  | .inPlace => true
  | .recovery => decide (s.ownerOf b.vol = s.ownerOf b.tvol)

/-- The blocks that a restored version takes the place of. -/
def State.givesBack (s : State) (b : RestoreBody) (i : Nat) : Nat :=
  match b.mode with
  | .inPlace => (s.extent b.vol (b.first + i)).liveOcc
  | .recovery => 0

theorem planKind_copy {near : Bool} {v : Version} (hnear : near = true) (hoff : v.res ≠ .offsite)
    (hrep : v.repair ≠ .unrepairable) : planKind near (some v) = .copy := by
  unfold planKind
  dsimp only
  cases hres : v.res with
  | offsite => exact absurd hres hoff
  | here loc refs =>
    dsimp only
    rw [if_neg hrep, if_pos hnear]

theorem planKind_fetch {near : Bool} {v : Version} (hok : v.res = .offsite ∨ v.shipped = true)
    (hfar : near = false ∨ v.res = .offsite ∨ v.repair = .unrepairable) : planKind near (some v) = .fetch := by
  unfold planKind
  dsimp only
  cases hres : v.res with
  | offsite => rfl
  | here loc refs =>
    rw [hres] at hok hfar
    have hship : v.shipped = true := hok.resolve_left nofun
    dsimp only
    rw [hship]
    rcases hfar with hn | hn | hn
    · rw [hn, if_neg (c := false = true) Bool.false_ne_true, if_pos rfl, ite_self]
    · cases hn
    · rw [if_pos hn, if_pos rfl]

/-- The step planned for an extent whose version is recoverable. -/
theorem plannedStep_held {i : Nat} {v : Version} {k : StepKind}
    (hv : (s.extent b.vol (b.first + i)).heldAt b.gen = some v) (hk : planKind (s.isNear b) (some v) = k)
    (hne : k ≠ .none) : s.plannedStep b i = planStep k v ((v.occ : Int) - (s.givesBack b i : Int)) := by
  have hk' : planKind (match b.mode with
    | .inPlace => true
    | .recovery => decide (s.ownerOf b.vol = s.ownerOf b.tvol)) (some v) = k := hk
  unfold State.plannedStep
  rw [hv]
  dsimp only
  rw [hk']
  cases k with
  | none => exact absurd rfl hne
  | copy => rfl
  | fetch => rfl

/-! ### The range locked -/

theorem lockRange_eq (s : State) (rid vol first count : Nat) : s.lockRange rid vol first count =
    { s with cat.extents := (s.lockRange rid vol first count).cat.extents } := by
  unfold State.lockRange
  generalize List.range count = is
  induction is generalizing s with
  | nil => rfl
  | cons i is ih =>
    rw [List.foldl_cons, ih]
    rfl

/-- One extent locked leaves another locked under the same restore id. -/
theorem locked_setExtent {vol ext e rid : Nat} (h : (s.extent vol e).lock = some rid) :
    ((s.setExtent vol ext { s.extent vol ext with lock := some rid }).extent vol e).lock = some rid := by
  by_cases he : ext = e
  · subst he
    rw [extent_setExtent_self]
  · rw [extent_setExtent_ne _ _ _ _ _ _ fun hk => he (Nat.add_left_cancel hk)]
    exact h

/-- Every extent of a range locked (R61). -/
theorem lockRange_locks (s : State) (rid vol first count : Nat) {i : Nat} (hi : i < count) :
    ((s.lockRange rid vol first count).extent vol (first + i)).lock = some rid := by
  have hall (is : List Nat) (u : State) (h : i ∈ is ∨ (u.extent vol (first + i)).lock = some rid) :
      ((is.foldl (fun s i => s.setExtent vol (first + i) { s.extent vol (first + i) with lock := some rid }) u).extent
        vol (first + i)).lock = some rid := by
    induction is generalizing u with
    | nil => exact h.resolve_left fun hn => nomatch hn
    | cons x is ih =>
      rw [List.foldl_cons]
      refine ih _ ?_
      rcases h with h | h
      · rcases List.mem_cons.mp h with rfl | h
        · right
          rw [extent_setExtent_self]
        · exact .inl h
      · exact .inr (locked_setExtent h)
  exact hall (List.range count) s (.inl (List.mem_range.mpr hi))

/-! ### The acceptance -/

theorem nextRid_free {held : List Nat} {n : Nat} (fuel : Nat) (h : n ∉ held) : nextRid held (fuel + 1) n = n := by
  unfold nextRid
  rw [List.contains_eq_mem, decide_eq_false h]
  rfl

/-- The acceptance that a request's passing makes. -/
def State.acceptanceOf (s : State) (q : RestoreReq) : Acceptance :=
  { link := q.link, req := q.req, body := q.body, rid := s.rst.counter, steps := s.planRestore q.body
    reserve := ((s.planRestore q.body).map Step.positive).sum }

/-- The acceptance of a request that every check passes, with its reservation asked for. -/
def State.accepting (s : State) (q : RestoreReq) : State :=
  let t := targetOf q.body
  let u := ((s.takePin q.body.vol q.body.gen false).modRst fun e => { e with
    counter := if s.rst.counter = 4294967295 then 1 else s.rst.counter + 1 }).lockRange s.rst.counter t.1 t.2 q.body.count
  let v := u.modRst fun e => { e with acceptance := some (s.acceptanceOf q) }
  v.pushOp (.reserve q.body.principal (s.acceptanceOf q).reserve) (v.touchingPostings (v.chain q.body.principal))

theorem acceptRestore_passes {q : RestoreReq} (hcheck : s.restoreCheck q.role q.body = none)
    (hsteps : ∀ x ∈ s.planRestore q.body, x.kind ≠ .none)
    (hlock : s.anyLocked (targetOf q.body).1 (targetOf q.body).2 q.body.count = false)
    (hrid : ∀ kr ∈ s.rst.table, kr.2.rid ≠ s.rst.counter) : s.acceptRestore q = s.accepting q := by
  have hnone : ((s.planRestore q.body).filter fun t => decide (t.kind = .none)).length = 0 := by
    rw [List.length_eq_zero_iff, List.filter_eq_nil_iff]
    exact fun x hx => by simpa using hsteps x hx
  have hfree : s.rst.counter ∉ s.rst.table.map fun kr => kr.2.rid := by
    intro hmem
    obtain ⟨kr, hkr, he⟩ := List.mem_map.mp hmem
    exact hrid kr hkr he
  have hnext : nextRid ((s.takePin q.body.vol q.body.gen false).rst.table.map fun kr => kr.2.rid) 65
      (s.takePin q.body.vol q.body.gen false).rst.counter = s.rst.counter := nextRid_free 64 hfree
  have hany : ((s.takePin q.body.vol q.body.gen false).modRst fun e => { e with
      counter := if s.rst.counter = 4294967295 then 1 else s.rst.counter + 1 }).anyLocked (targetOf q.body).1
      (targetOf q.body).2 q.body.count = false := hlock
  unfold State.acceptRestore
  dsimp only
  rw [hcheck]
  dsimp only
  rw [hnone, if_neg (by simp), hnext, hany, if_neg Bool.false_ne_true]
  rfl

/-- What an acceptance writes. -/
theorem accepting_spec {q : RestoreReq} {p : Snapshot} (hp : s.snapshot q.body.vol q.body.gen = some p) :
    (s.accepting q).rst = { s.rst with
        counter := if s.rst.counter = 4294967295 then 1 else s.rst.counter + 1
        acceptance := some (s.acceptanceOf q) } ∧
      (∀ i, i < q.body.count → ((s.accepting q).extent (targetOf q.body).1 ((targetOf q.body).2 + i)).lock =
        some s.rst.counter) ∧
      (s.accepting q).snapshot q.body.vol q.body.gen = some { p with restorePins := p.restorePins + 1 } ∧
      (∃ o, (s.accepting q).tally.ops = s.tally.ops ++ [o] ∧ o.job = .reserve q.body.principal (s.acceptanceOf q).reserve) ∧
      (s.accepting q).tally.postings = s.tally.postings ∧ (s.accepting q).tally.modeReply = s.tally.modeReply ∧
      (s.accepting q).tally.flushing = s.tally.flushing ∧ (s.accepting q).sup = s.sup ∧ (s.accepting q).pat = s.pat := by
  obtain ⟨w, hw⟩ : ∃ w, w = (s.takePin q.body.vol q.body.gen false).modRst fun e => { e with
    counter := if s.rst.counter = 4294967295 then 1 else s.rst.counter + 1 } := ⟨_, rfl⟩
  obtain ⟨u, hu⟩ : ∃ u, u = w.lockRange s.rst.counter (targetOf q.body).1 (targetOf q.body).2 q.body.count := ⟨_, rfl⟩
  have hframe : u = { w with cat.extents := u.cat.extents } := by
    rw [hu]
    exact lockRange_eq _ _ _ _ _
  have hurst : u.rst = w.rst := by rw [hframe]
  have hutally : u.tally = s.tally := by
    rw [hframe, hw]
    rfl
  have hlocks (i : Nat) (hi : i < q.body.count) :
      (u.extent (targetOf q.body).1 ((targetOf q.body).2 + i)).lock = some s.rst.counter := by
    rw [hu]
    exact lockRange_locks w _ _ _ _ hi
  have hsnap : u.snapshot q.body.vol q.body.gen = some { p with restorePins := p.restorePins + 1 } := by
    have hus : u.snapshot q.body.vol q.body.gen = w.snapshot q.body.vol q.body.gen := by
      rw [hframe]
      rfl
    rw [hus, hw]
    change (s.takePin q.body.vol q.body.gen false).snapshot q.body.vol q.body.gen = _
    unfold State.takePin
    rw [State.snapshot_modSnapshot, hp]
    rfl
  have hacc : s.accepting q = (u.modRst fun e => { e with acceptance := some (s.acceptanceOf q) }).pushOp
      (.reserve q.body.principal (s.acceptanceOf q).reserve)
      ((u.modRst fun e => { e with acceptance := some (s.acceptanceOf q) }).touchingPostings
        ((u.modRst fun e => { e with acceptance := some (s.acceptanceOf q) }).chain q.body.principal)) := by
    rw [hu, hw]
    rfl
  rw [hacc]
  refine ⟨?_, hlocks, hsnap, ⟨_, congrArg (fun y : Tally => y.ops ++ _) hutally, rfl⟩, ?_, ?_, ?_, ?_, ?_⟩
  · have hrst : { u.rst with acceptance := some (s.acceptanceOf q) } = { s.rst with
        counter := if s.rst.counter = 4294967295 then 1 else s.rst.counter + 1
        acceptance := some (s.acceptanceOf q) } := by
      rw [hurst, hw]
      rfl
    exact hrst
  · change u.tally.postings = _
    rw [hutally]
  · change u.tally.modeReply = _
    rw [hutally]
  · change u.tally.flushing = _
    rw [hutally]
  · change u.sup = s.sup
    rw [hframe, hw]
    rfl
  · change u.pat = s.pat
    rw [hframe, hw]
    rfl

/-! ### The turn of a request -/

theorem exec_restoreAcceptance {q : RestoreReq} {rest : List RestoreReq} (hop : s.sup.op = .standby ∨ s.sup.op = .active)
    (hacc : s.rst.acceptance = none) (hw : s.rst.waiting = q :: rest) :
    Machine.exec (.restoreAcceptance []) s =
      .next ((((({ s with sent := [] } : State).modRst fun e => { e with waiting := rest }).take q.link
        q.req).acceptRestore q).finish) := by
  have hrun : s.sup.op ≠ .halted := by rcases hop with h | h <;> rw [h] <;> decide
  change execRestoreAcceptance [] s = _
  unfold execRestoreAcceptance
  refine (act_running _ hrun).trans (congrArg Host.Outcome.next ?_)
  change (match s.rst.acceptance, s.rst.waiting with
    | none, q :: t =>
      if ({ s with sent := [] } : State).running then
        withErrs [] (fun s => (s.acceptRestore q).finish)
          ((({ s with sent := [] } : State).modRst fun e => { e with waiting := t }).take q.link q.req)
      else { s with sent := [] }
    | _, _ => { s with sent := [] }) = _
  rw [hacc, hw]
  refine (if_pos (running_iff.mpr hop)).trans (withErrs_nil _ hrun)

/-- A request taken by its block still awaits its reply. -/
theorem awaits_take {r : Nat} {e : ReqEntry} (h : s.awaits l r e) :
    (s.take l r).awaits l r { e with taken := true } := by
  obtain ⟨hup, hfind, hstale⟩ := h
  have hlink : (s.take l r).link l = { s.link l with
      queue := mapIf (fun e => e.num == r) (fun e => { e with taken := true }) (s.link l).queue } := by
    unfold State.take
    rw [State.link_modLink, if_pos rfl]
  have hnum : (e.num == r) = true := List.find?_some (p := fun x : ReqEntry => x.num == r) hfind
  refine ⟨by rw [hlink]; exact hup, ?_, hstale⟩
  rw [hlink]
  unfold mapIf
  rw [List.find?_map]
  have hp : ((fun x : ReqEntry => x.num == r) ∘ fun x =>
      if (x.num == r) = true then { x with taken := true } else x) = fun x => x.num == r := by
    funext x
    simp only [Function.comp_apply]
    split <;> rfl
  rw [hp, hfind, Option.map_some, if_pos hnum]

/-- A request refused in its turn. -/
theorem acceptance_refused {q : RestoreReq} {rest : List RestoreReq} {e : ReqEntry} {st : Status}
    (hop : s.sup.op = .standby ∨ s.sup.op = .active) (hacc : s.rst.acceptance = none) (hw : s.rst.waiting = q :: rest)
    (ha : s.awaits q.link q.req e) (hcheck : s.restoreCheck q.role q.body = some st) :
    ∃ t, Machine.exec (.restoreAcceptance []) s = .next t ∧ t.rst = { s.rst with waiting := rest } ∧
      Replied s t q.link e st .none ∧ catSettles s.cat t.cat := by
  let a := (({ s with sent := [] } : State).modRst fun e => { e with waiting := rest }).take q.link q.req
  have hacheck : a.restoreCheck q.role q.body = some st := hcheck
  have hrefused : a.acceptRestore q = a.reply q.link q.req st .none := by
    unfold State.acceptRestore
    dsimp only
    rw [hacheck]
  have hexec := exec_restoreAcceptance hop hacc hw
  have hexec' : Machine.exec (.restoreAcceptance []) s = .next (a.reply q.link q.req st .none).finish := by
    rw [← hrefused]
    exact hexec
  have hrep : Replied a (a.reply q.link q.req st .none) q.link { e with taken := true } st .none :=
    (replied_reply st .none (awaits_take (s := ({ s with sent := [] } : State).modRst fun e =>
      { e with waiting := rest }) ha)).1
  have htx : (a.link q.link).tx = (s.link q.link).tx := by
    change ((({ s with sent := [] } : State).modRst fun e => { e with waiting := rest }).take q.link q.req |>.link
      q.link).tx = _
    unfold State.take
    rw [State.link_modLink, if_pos rfl]
    rfl
  obtain ⟨-, -, hcat, hrst, -⟩ := finish_settles (a.reply q.link q.req st .none)
  refine ⟨_, hexec', hrst, ?_, hcat⟩
  obtain ⟨more, hmore, hmem⟩ := hrep.finish
  exact ⟨more, by rw [hmore, htx], hmem⟩

end

end Sys2Proof.Machine

open Sys2Proof Sys2Proof.Machine

/-- Settles O38. -/
theorem restoreIsAcceptedInTurn : Obligations.RestoreIsAcceptedInTurn := by
  refine ⟨?_, ?_, ?_⟩
  · intro s l tag b h htally
    have hexec := exec_restore (b := b) tag h
    let u := (({ s with sent := [] } : State).entered l tag .restore false).modRst fun e => { e with
      waiting := e.waiting ++ [{ link := l, req := s.sup.nextReq, role := s.role l, body := b }] }
    have hr := takes_running h
    have hrun : u.sup.op ≠ .halted := hr
    have hstill : u.advance = u := advance_still htally
    have hent : Entered s u l tag .restore false := entered_self { s with sent := [] } l tag .restore false
    obtain ⟨-, -, -, hrst, -⟩ := finish_settles u
    refine ⟨u.finish, hexec, ?_, hrst⟩
    rw [finish_running hrun, hstill]
    exact queued_settle tag .restore hent rfl
  · intro s q rest e sv p k vs near tv tf back hop hcalm hacc hw hawaits hv hsv h1 h2 h3 hp hl htarget hk hperson hactive
      hrole hrec hheld hlock hrid
    let a := (({ s with sent := [] } : State).modRst fun e => { e with waiting := rest }).take q.link q.req
    have hready : s.targetReady q.body ∧ s.isNear q.body = near ∧ s.givesBack q.body = back ∧
        targetOf q.body = (tv, tf) := by
      rcases htarget with ⟨hm, rfl, rfl, rfl, rfl⟩ | ⟨hm, rfl, rfl, rfl, rfl, w, hwv, hwr, -, hwc⟩
      · refine ⟨.inl hm, ?_, ?_, ?_⟩
        · unfold State.isNear
          rw [hm]
        · funext i
          unfold State.givesBack
          rw [hm]
        · unfold targetOf
          rw [hm]
      · refine ⟨.inr ⟨w, hwv, hwr, hwc⟩, ?_, ?_, ?_⟩
        · unfold State.isNear
          rw [hm]
        · funext i
          unfold State.givesBack
          rw [hm]
        · unfold targetOf
          rw [hm]
    obtain ⟨hready, hnear, hback, htgt⟩ := hready
    have hown : q.role = .console ∨ ((s.classOf k.cls).selfRestore = true ∧ s.ownsAll q.body = true) := by
      refine hrole.imp id fun ⟨hself, hall⟩ => ⟨hself, ?_⟩
      unfold State.ownsAll
      rw [List.all_eq_true]
      exact fun i hi => decide_eq_true (hall i (List.mem_range.mp hi))
    have hcheck : a.restoreCheck q.role q.body = none :=
      restoreCheck_passes (s := s) hop hv hp hl h1 h2 h3 hready hk hperson hactive hown hrec
    have hplan (i : Nat) (hi : i < q.body.count) : ∃ kd, kd ≠ StepKind.none ∧ planKind near (some (vs i)) = kd ∧
        a.plannedStep q.body i = planStep kd (vs i) (((vs i).occ : Int) - (back i : Int)) := by
      obtain ⟨hh, hok⟩ := hheld i hi
      have hkind : planKind near (some (vs i)) ≠ .none := by
        by_cases hfar : near = false ∨ (vs i).res = .offsite ∨ (vs i).repair = .unrepairable
        · have hship : (vs i).res = .offsite ∨ (vs i).shipped = true := by
            rcases hok with h | h | ⟨hn, hr⟩
            · exact .inl h
            · exact .inr h
            · rcases hfar with hf | hf | hf
              · rw [hf] at hn
                cases hn
              · exact .inl hf
              · exact absurd hf hr
          rw [planKind_fetch hship hfar]
          exact nofun
        · rw [planKind_copy (by simpa using fun h => hfar (.inl h)) (fun h => hfar (.inr (.inl h)))
            fun h => hfar (.inr (.inr h))]
          exact nofun
      refine ⟨_, hkind, rfl, ?_⟩
      rw [← hback]
      exact plannedStep_held (s := s) hh (by rw [hnear]) hkind
    have hsteps : ∀ x ∈ a.planRestore q.body, x.kind ≠ .none := by
      intro x hx
      rw [planRestore_eq] at hx
      obtain ⟨i, hi, rfl⟩ := List.mem_map.mp hx
      obtain ⟨kd, hne, -, heq⟩ := hplan i (List.mem_range.mp hi)
      rw [heq]
      exact hne
    have hunlocked : a.anyLocked (targetOf q.body).1 (targetOf q.body).2 q.body.count = false := by
      rw [htgt]
      unfold State.anyLocked
      refine List.any_eq_false.mpr fun i hi => ?_
      rw [show (a.extent tv (tf + i)).lock = none from hlock i (List.mem_range.mp hi)]
      exact Bool.false_ne_true
    have haccept := acceptRestore_passes (s := a) hcheck hsteps hunlocked hrid
    obtain ⟨acc, hacceq⟩ : ∃ acc, acc = a.acceptanceOf q := ⟨_, rfl⟩
    obtain ⟨wrst, wlocks, wsnap, ⟨o, wops, hjob⟩, wpost, wmode, wflush, wsup, wpat⟩ :=
      accepting_spec (s := a) (q := q) hp
    obtain ⟨w, hweq⟩ : ∃ w, w = a.accepting q := ⟨_, rfl⟩
    rw [← hweq] at wrst wlocks wsnap wops wpost wmode wflush wsup wpat
    rw [← hacceq] at wrst hjob
    have hexec : Machine.exec (.restoreAcceptance []) s = .next w.finish := by
      rw [hweq, ← haccept]
      exact exec_restoreAcceptance (.inr hop) hacc hw
    obtain ⟨⟨cops, cpost, cmode, cflush⟩, cpat⟩ := hcalm
    have hops : w.tally.ops = [o] := wops.trans (congrArg (· ++ [o]) cops)
    have hgather : GatherOnly w w.advance := by
      refine advance_gatherOnly (fun x hx => ?_) (wpost.trans cpost) (wmode.trans cmode) (wflush.trans cflush)
      rw [hops] at hx
      rw [List.mem_singleton.mp hx, hjob]
      rfl
    have hrun : w.sup.op ≠ .halted := by
      rw [wsup]
      change s.sup.op ≠ .halted
      rw [hop]
      decide
    have hwstill : w.patrolStill := by
      unfold State.patrolStill
      rw [wpat]
      exact cpat
    have hfin : w.finish = w.advance.settleLink := finish_patrolStill hwstill hrun
    have hcat : w.finish.cat = w.cat := by
      rw [hfin, settleLink_cat]
      exact congrArg (fun x => x.1) hgather.others
    obtain ⟨-, -, -, frst, -⟩ := finish_settles w
    have hrst : w.finish.rst = { s.rst with
        waiting := rest, counter := if s.rst.counter = 4294967295 then 1 else s.rst.counter + 1, acceptance := some acc } :=
      frst.trans wrst
    have hext (i : Nat) : w.finish.extent tv (tf + i) = w.extent tv (tf + i) := by simp only [State.extent, hcat]
    refine ⟨w.finish, acc, hexec, congrArg RestoreEngine.waiting hrst, congrArg RestoreEngine.acceptance hrst,
      congrArg Acceptance.link hacceq, congrArg Acceptance.req hacceq, congrArg Acceptance.body hacceq,
      congrArg Acceptance.rid hacceq, ?_, fun i hi => ?_, ?_, congrArg RestoreEngine.counter hrst, fun i hi => ?_, ?_, ?_⟩
    · rw [hacceq]
      change (a.planRestore q.body).length = _
      rw [planRestore_eq, List.length_map, List.length_range]
    · obtain ⟨kd, hne, hkd, heq⟩ := hplan i hi
      have hget : acc.steps[i]? = some (planStep kd (vs i) (((vs i).occ : Int) - (back i : Int))) := by
        rw [hacceq]
        change (a.planRestore q.body)[i]? = _
        rw [planRestore_eq, List.getElem?_map, List.getElem?_range hi, Option.map_some, heq]
      refine ⟨_, hget, rfl, rfl, rfl, fun hn hoff hrep => ?_, fun hfar => ?_⟩
      · obtain rfl : StepKind.copy = kd := (planKind_copy hn hoff hrep).symm.trans hkd
        exact ⟨rfl, rfl⟩
      · have hok := (hheld i hi).2
        have hship : (vs i).res = .offsite ∨ (vs i).shipped = true := by
          rcases hok with h | h | ⟨hn, hr⟩
          · exact .inl h
          · exact .inr h
          · rcases hfar with hf | hf | hf
            · rw [hf] at hn
              cases hn
            · exact .inl hf
            · exact absurd hf hr
        obtain rfl : StepKind.fetch = kd := (planKind_fetch hship hfar).symm.trans hkd
        exact ⟨rfl, rfl⟩
    · rw [hacceq]
      change ((a.planRestore q.body).map Step.positive).sum = _
      rw [planRestore_eq, List.map_map]
      refine congrArg List.sum (List.map_congr_left fun i hi => ?_)
      obtain ⟨kd, -, -, heq⟩ := hplan i (List.mem_range.mp hi)
      rw [Function.comp_apply, heq]
      exact Int.toNat_sub _ _
    · rw [hext]
      have hl := wlocks i hi
      rw [htgt] at hl
      exact hl
    · have hs : w.finish.snapshot q.body.vol q.body.gen = w.snapshot q.body.vol q.body.gen := by
        simp only [State.snapshot, hcat]
      rw [hs]
      exact wsnap
    · have hmem : o ∈ w.tally.ops := by
        rw [hops]
        exact List.mem_singleton.mpr rfl
      obtain ⟨x, hx, -, hxj⟩ := hgather.mem_of hmem
      have ht : w.finish.tally = w.advance.tally := by
        rw [hfin]
        exact tallyKept_settleLink rfl
      rw [ht]
      exact ⟨x, hx, hxj.trans hjob⟩
  · intro s q rest e hacc hw ha
    exact ⟨fun hop => acceptance_refused (.inl hop) hacc hw ha (restoreCheck_standby hop),
      fun hop hno => acceptance_refused (.inr hop) hacc hw ha (restoreCheck_unknown hop hno)⟩

end

section
/-! PROOF. A restore's reservation decides its acceptance (R32, R90). -/

namespace Sys2Proof.Machine

/-! ### A reply after a block's work -/

/-- A request stands in its link's queue, and the frames gain, while links gain. -/
theorem linksGain_awaits (r0 : LinkRec) (req : Nat) (e : ReqEntry) (l : Link) :
    LinksGain fun ls => ((ls[l]).up = true ∧ (ls[l]).queue.find? (fun x => x.num == req) = some e) ∧
      r0.tx <+: (ls[l]).tx := by
  refine LinksGain.of_record (R := fun r => (r.up = true ∧ r.queue.find? (fun x => x.num == req) = some e) ∧
    r0.tx <+: r.tx) l ?_ ?_ ?_ ?_ ?_
  · intro r n _ h
    unfold LinkRec.queueNotice
    split <;> exact h
  · exact fun r b _ ⟨h, hp⟩ => ⟨h, hp.trans (List.prefix_append _ _)⟩
  · exact fun r _ h => h
  · exact fun r _ h => h
  · exact fun r _ h => h

/-- A request that awaits its reply is replied to after work by which links only gain. -/
theorem replied_of_gains {s u : State} {l : Link} {r : Nat} {e : ReqEntry} (st : Status) (b : ReplyBody)
    (h : s.awaits l r e) (hg : ∀ P : Vector LinkRec 6 → Prop, LinksGain P → P s.links → P u.links) :
    Replied s (u.reply l r st b) l e st b := by
  obtain ⟨hup, hfind, hstale⟩ := h
  obtain ⟨⟨uup, ufind⟩, more, hmore⟩ := hg _ (linksGain_awaits (s.link l) r e l) ⟨⟨hup, hfind⟩, List.prefix_refl _⟩
  obtain ⟨⟨x, hx, hmem⟩, -⟩ := replied_reply (s := u) st b ⟨uup, ufind, hstale⟩
  refine ⟨more ++ x, ?_, List.mem_append_right _ hmem⟩
  have hu : (u.link l).tx = (s.link l).tx ++ more := hmore.symm
  rw [hx, hu, List.append_assoc]

/-! ### The outcome of a reservation -/

section
variable {s : State} {o : TallyOp} {p n : Nat}

theorem exec_reserveCalculation (hrun : s.sup.op ≠ .halted) (ho : s.tally.ops = [o]) (hst : o.stage = .ready)
    (hj : o.job = .reserve p n) :
    Machine.exec (.admissionCalculation o.num []) s =
      .next (State.finish (State.calculate { s with sent := [] } o.num)) := by
  refine (act_withErrs_nil _ hrun).trans (congrArg Host.Outcome.next (if_pos ?_))
  have hov : State.op { s with sent := [] } o.num = some o := op_single (s := { s with sent := [] }) ho
  simp only [State.isReady, hov, hst, hj]
  rfl

theorem calculate_reserve (ho : s.tally.ops = [o]) (hj : o.job = .reserve p n) (hover : s.noneOverdue o.ids)
    {a : Admission} (ha : s.admission o.ids n 1 false = a) :
    s.calculate o.num =
      if a.status = .granted ∨ a.status = .partialGrant then (s.modOp o.num fun o => o.found a).runOp o.num
      else (((s.modOp o.num fun o => o.found a).releaseLines o.num o.ids).reserved a).completeOp o.num := by
  subst ha
  unfold State.calculate
  rw [op_single ho]
  dsimp only
  rw [lazyExpireAll_none hover, hj]
  rfl

/-! ### A reservation granted -/

/-- The record that an acceptance writes (R90). -/
def State.recordOfAcceptance (s : State) (a : Acceptance) : Restore :=
  { rid := a.rid, state := .planned, cause := none, failedStep := none, principal := a.body.principal
    link := a.link, vol := a.body.vol, gen := a.body.gen, first := a.body.first, count := a.body.count
    mode := a.body.mode, tvol := a.body.tvol, tfirst := a.body.tfirst, partialOk := a.body.partialOk
    acceptNo := s.rst.nextAccept, remaining := a.reserve, pin := true, finishNo := none, pausing := false
    steps := a.steps }

theorem recordFor_lowest {rec : Nat} (hfree : s.restore rec = none) (hlt : rec < 64)
    (hlow : ∀ j, j < rec → (s.restore j).isSome = true) : s.recordFor = some rec := by
  have hfind : ((List.range Config.restoreTableSize).find? fun n => (s.restore n).isNone) = some rec := by
    refine List.find?_range_eq_some.mpr ⟨by rw [hfree]; rfl, List.mem_range.mpr hlt, fun j hj => ?_⟩
    have := hlow j hj
    cases hr : s.restore j with
    | none =>
      rw [hr] at this
      cases this
    | some r => rfl
  unfold State.recordFor
  rw [hfind]

/-- The record written and the active restores counted. -/
def State.recordWritten (s : State) (a : Acceptance) (rec : Nat) : State :=
  (s.modRst fun e => { e with
    table := tput e.table rec (s.recordOfAcceptance a), acceptance := none, nextAccept := e.nextAccept + 1 }).modActive
    a.body.principal (· + 1)

theorem indexes_none {r : Restore} {f : Step → Bool} (h : ∀ x ∈ r.steps, f x = false) : r.indexes f = [] := by
  unfold Restore.indexes
  refine List.filter_eq_nil_iff.mpr fun i _ => ?_
  cases hx : r.steps[i]? with
  | none => exact Bool.false_ne_true
  | some x => simp [h x (List.mem_of_getElem? hx)]

theorem stepsIn_none {r : Restore} {st : StepState} (h : ∀ x ∈ r.steps, x.state ≠ st) : r.stepsIn st = 0 := by
  unfold Restore.stepsIn
  rw [List.filter_eq_nil_iff.mpr fun x hx => by simpa using h x hx]
  rfl

theorem writeRecord_eq {a : Acceptance} {rec : Nat} (hrec : s.recordFor = some rec) (hop : s.sup.op ≠ .holdup)
    (hsteps : ∀ x ∈ a.steps, x.state = .waiting) :
    s.writeRecord a = (s.recordWritten a rec).reply a.link a.req .accepted (.restoreAccepted a.rid
      (a.steps.filter fun x => decide (x.kind = .copy)).length
      (a.steps.filter fun x => decide (x.kind = .fetch)).length 0 a.reserve) := by
  have hskip : (s.recordOfAcceptance a).indexes (fun t => decide (t.state = .skipped)) = [] :=
    indexes_none fun x hx => by simp [hsteps x hx]
  have hcount : (s.recordOfAcceptance a).stepsIn .skipped = 0 :=
    stepsIn_none fun x hx => by simp [hsteps x hx]
  unfold State.recordOfAcceptance at hskip hcount
  unfold State.writeRecord
  rw [hrec]
  dsimp only
  rw [hskip, hcount]
  exact if_neg hop

theorem recordWritten_spec (a : Acceptance) (rec : Nat) :
    (s.recordWritten a rec).rst.acceptance = none ∧
      (s.recordWritten a rec).restore rec = some (s.recordOfAcceptance a) ∧
      (∀ id, (s.recordWritten a rec).current id = s.current id) ∧
      ∀ k, s.prin a.body.principal = some k →
        (s.recordWritten a rec).prin a.body.principal = some { k with active := k.active + 1 } := by
  refine ⟨rfl, tget_tput_self _ _ _, fun id => ?_, fun k hk => ?_⟩
  · exact current_modPrin_of (s.modRst _) a.body.principal
      (f := fun p => { p with active := p.active + 1 }) (fun _ => rfl) id
  · have hp := State.prin_modPrin (s.modRst fun e => { e with
      table := tput e.table rec (s.recordOfAcceptance a), acceptance := none, nextAccept := e.nextAccept + 1 })
      a.body.principal fun p => { p with active := p.active + 1 }
    exact hp.trans (congrArg _ hk)

/-- A granted reservation applied over plain lines (R32, R90). -/
theorem reserve_granted {a : Acceptance} {e : ReqEntry} {rec : Nat} {k : Principal} {g : Admission}
    (hto : s.tallyOnly o) (hj : o.job = .reserve p n) (hl : s.plainLines o.ids) (hop : s.sup.op = .active)
    (hg : g.status = .granted) (hacc : s.rst.acceptance = some a) (ha : s.awaits a.link a.req e)
    (hsteps : ∀ x ∈ a.steps, x.state = .waiting) (hfree : s.restore rec = none) (hlt : rec < 64)
    (hlow : ∀ j, j < rec → (s.restore j).isSome = true) (hk : s.prin a.body.principal = some k) :
    ∃ u, (s.modOp o.num fun o => o.found g).runOp o.num = u ∧ u.tallyWaits ∧ u.rst.acceptance = none ∧
      u.restore rec = some (s.recordOfAcceptance a) ∧
      (∃ k', u.prin a.body.principal = some k' ∧ k'.active = k.active + 1) ∧
      (∀ id ∈ o.ids, u.current id = ((s.current id).1, (s.current id).2 + g.granted)) ∧
      Replied s u a.link e .accepted (.restoreAccepted a.rid
        (a.steps.filter fun x => decide (x.kind = .copy)).length
        (a.steps.filter fun x => decide (x.kind = .fetch)).length 0 a.reserve) := by
  obtain ⟨ho, hpost, hmode, hflush⟩ := hto
  let w := s.modOp o.num fun o => o.found g
  let x := o.found g
  have hw : w.tally.ops = [x] := modOp_single ho _
  have hxj : x.job = .reserve p n := hj
  have hp : x.job.plain = true := by rw [hxj]; rfl
  have hsil : x.job.silent = true := by rw [hxj]; rfl
  have hids : (w.changesOf x).map TallyChange.id = x.ids := changesOf_ids hp fun _ => rfl
  have happ := plainApplied_of_plainLines (s := w) (o := x) hp hl hids
  obtain ⟨qpost, qmode, qflush⟩ := happ.queues
  have hops := opReleased_ops_plainLines hw hp hl hids
  have hgains (P : Vector LinkRec 6 → Prop) (hP : LinksGain P) (h : P s.links) : P (w.opReleased x).links :=
    gains_opReleased hP x (fun t => by rw [hxj]; rfl) h
  obtain ⟨v, hv⟩ : ∃ v, v = w.opReleased x := ⟨_, rfl⟩
  rw [← hv] at happ qpost qmode qflush hops hgains
  have hrst : v.rst = s.rst := congrArg (fun q => q.2.1) happ.others
  have hvop : v.sup.op ≠ .holdup := by
    have h : v.sup.op = s.sup.op := happ.sup.1
    rw [h, hop]
    exact nofun
  have hvres (j : Nat) : v.restore j = s.restore j := by rw [State.restore, hrst, State.restore]
  have hwrite : v.jobApplied x = (v.recordWritten a rec).reply a.link a.req .accepted (.restoreAccepted a.rid
      (a.steps.filter fun x => decide (x.kind = .copy)).length
      (a.steps.filter fun x => decide (x.kind = .fetch)).length 0 a.reserve) := by
    have hres : v.jobApplied x = v.reserved g := by
      unfold State.jobApplied
      rw [hxj]
      rfl
    have hrec : v.recordFor = some rec :=
      recordFor_lowest ((hvres rec).trans hfree) hlt fun j hj => by rw [hvres]; exact hlow j hj
    rw [hres]
    unfold State.reserved
    rw [hrst, hacc]
    dsimp only
    rw [hg]
    exact writeRecord_eq hrec hvop hsteps
  obtain ⟨sacc, srec, scur, sprin⟩ := recordWritten_spec (s := v) a rec
  obtain ⟨y, hy⟩ : ∃ y, y = v.recordWritten a rec := ⟨_, rfl⟩
  have htally : (v.jobApplied x).tally = y.tally := by rw [hwrite, ← hy]; rfl
  have hyops : y.tally.ops = v.tally.ops := by rw [hy]; rfl
  have hrun := runOp_silent hw hp hsil hl hids (by
    rw [← hv, htally, hyops]
    exact hops)
  rw [← hv] at hrun
  have hprin : ∃ k', v.prin a.body.principal = some k' ∧ k'.active = k.active := by
    have hu := happ.prins a.body.principal
    have hwk : w.prin a.body.principal = some k := hk
    rw [hwk] at hu
    obtain ⟨k', hk', hkk⟩ := Option.map_eq_some_iff.mp hu
    have hactive : k'.ungraced.active = k.ungraced.active := congrArg Principal.active hkk
    exact ⟨k', hk', hactive⟩
  obtain ⟨k1, hk1, hactive⟩ := hprin
  refine ⟨_, hrun, tallyWaits_written rfl ?_ ?_ ?_, ?_, ?_,
    ⟨{ k1 with active := k1.active + 1 }, ?_, ?_⟩, fun id hid => ?_, ?_⟩
  · change (v.jobApplied x).tally.postings = []
    rw [htally, hy]
    exact qpost.trans hpost
  · change (v.jobApplied x).tally.modeReply = []
    rw [htally, hy]
    exact qmode.trans hmode
  · change (v.jobApplied x).tally.flushing = false
    rw [htally, hy]
    exact qflush.trans hflush
  · change (v.jobApplied x).rst.acceptance = none
    rw [hwrite]
    exact sacc
  · change (v.jobApplied x).restore rec = _
    rw [hwrite]
    refine srec.trans ?_
    unfold State.recordOfAcceptance
    rw [hrst]
  · change (v.jobApplied x).prin a.body.principal = _
    rw [hwrite]
    exact sprin k1 hk1
  · exact congrArg (fun c => c + 1) hactive
  · have hcur : (v.jobApplied x).current id = v.current id := by
      refine (current_of_tally htally id).trans ?_
      rw [hy]
      exact scur id
    refine (current_congr rfl rfl rfl (fun _ => rfl) id).trans (hcur.trans ?_)
    refine happ.changed { id := id, used := (s.current id).1, reserved := (s.current id).2 + g.granted } ?_
    unfold State.changesOf
    rw [hxj]
    exact List.mem_map_of_mem (f := fun id => ({
      id := id, used := (w.current id).1, reserved := (w.current id).2 + g.granted } : TallyChange)) hid
  · have hrep := replied_of_gains (u := y) .accepted (.restoreAccepted a.rid
      (a.steps.filter fun x => decide (x.kind = .copy)).length
      (a.steps.filter fun x => decide (x.kind = .fetch)).length 0 a.reserve) ha (fun P hP h => by
        rw [hy]
        exact hgains P hP h)
    rw [hy, ← hwrite] at hrep
    exact hrep

/-! ### A reservation refused -/

/-- An extent unlocked is not locked under that restore id, nor is one that was not. -/
theorem unlock_lock {vol ext rid v e : Nat} (h : (v, e) = (vol, ext) ∨ (s.extent v e).lock ≠ some rid) :
    ((s.unlock vol ext rid).extent v e).lock ≠ some rid := by
  unfold State.unlock
  split
  next hlocked =>
    by_cases hkey : extentKey v e = extentKey vol ext
    · have hself : (s.setExtent vol ext { s.extent vol ext with lock := none }).extent v e =
          { s.extent vol ext with lock := none } := by
        refine Eq.trans ?_ (extent_setExtent_self s vol ext { s.extent vol ext with lock := none })
        simp only [State.extent, hkey]
      rw [hself]
      exact nofun
    · rw [extent_setExtent_ne _ _ _ _ _ _ fun hk => hkey hk.symm]
      rcases h with h | h
      · cases h
        exact absurd rfl hkey
      · exact h
  next hfree =>
    rcases h with h | h
    · cases h
      exact hfree
    · exact h

/-- A range of targets unlocked (R62). -/
def State.unlockRange (s : State) (vol first rid count : Nat) : State :=
  (List.range count).foldl (fun s i => s.unlock vol (first + i) rid) s

theorem unlock_eq (s : State) (vol ext rid : Nat) :
    s.unlock vol ext rid = { s with cat.extents := (s.unlock vol ext rid).cat.extents } := by
  unfold State.unlock
  split <;> rfl

theorem unlockRange_eq (s : State) (vol first rid count : Nat) :
    s.unlockRange vol first rid count =
      { s with cat.extents := (s.unlockRange vol first rid count).cat.extents } := by
  unfold State.unlockRange
  generalize List.range count = is
  induction is generalizing s with
  | nil => rfl
  | cons i is ih =>
    rw [List.foldl_cons, ih, unlock_eq]

theorem unlockRange_lock (s : State) (vol first rid count : Nat) {i : Nat} (hi : i < count) :
    ((s.unlockRange vol first rid count).extent vol (first + i)).lock ≠ some rid := by
  have hall (is : List Nat) (u : State) (h : i ∈ is ∨ (u.extent vol (first + i)).lock ≠ some rid) :
      ((is.foldl (fun s j => s.unlock vol (first + j) rid) u).extent vol (first + i)).lock ≠ some rid := by
    induction is generalizing u with
    | nil => exact h.resolve_left fun hn => nomatch hn
    | cons j is ih =>
      rw [List.foldl_cons]
      refine ih _ ?_
      rcases h with h | h
      · rcases List.mem_cons.mp h with rfl | h
        · exact .inr (unlock_lock (.inl rfl))
        · exact .inl h
      · exact .inr (unlock_lock (.inr h))
  exact hall (List.range count) s (.inl (List.mem_range.mpr hi))

/-- A snapshot's record but for its state. -/
def Snapshot.pinCounts (p : Snapshot) : Nat × Nat := (p.shipPins, p.restorePins)

theorem tget_tmod_map {α β : Type} (t : Tbl α) (i j : Nat) {f : α → α} {g : α → β} (h : ∀ x, g (f x) = g x) :
    (tget (tmod t i f) j).map g = (tget t j).map g := by
  by_cases hij : i = j
  · subst hij
    rw [tget_tmod_self, Option.map_map]
    exact Option.map_congr fun x _ => h x
  · rw [tget_tmod_ne t f hij]

theorem snapshot_startExpiry_pins (s : State) (vol g v gen : Nat) :
    ((s.startExpiry vol g).snapshot v gen).map Snapshot.pinCounts = (s.snapshot v gen).map Snapshot.pinCounts := by
  unfold State.snapshot
  split
  · exact tget_tmod_map _ _ _ fun _ => rfl
  · rfl

/-- Retention changes no pin count. -/
theorem snapshot_retain_pins (s : State) (vol : Nat) (k : SnapKind) (v gen : Nat) :
    ((s.retain vol k).snapshot v gen).map Snapshot.pinCounts = (s.snapshot v gen).map Snapshot.pinCounts := by
  refine iter_keeps (P := fun u => (u.snapshot v gen).map Snapshot.pinCounts =
    (s.snapshot v gen).map Snapshot.pinCounts) (fun u hu => ?_) _ rfl
  unfold State.retainOnce
  split
  · exact hu
  · split
    · exact hu
    · split
      · exact hu
      · exact (snapshot_startExpiry_pins _ _ _ _ _).trans hu

theorem dropPin_eq (s : State) (vol gen : Nat) (ship : Bool) :
    s.dropPin vol gen ship = { s with cat.snapshots := (s.dropPin vol gen ship).cat.snapshots } := by
  unfold State.dropPin
  cases s.snapshot vol gen with
  | none => rfl
  | some q =>
    dsimp only
    by_cases hpins : (if ship then q.shipPins else q.restorePins) = 0
    · rw [if_pos hpins]
    · rw [if_neg hpins]
      by_cases hlast : q.pins = 1 ∧ q.state = .active
      · rw [if_pos hlast, retain_eq]
        rfl
      · rw [if_neg hlast]
        rfl

/-- A restore's pin dropped (R75). -/
theorem dropPin_restorePins {vol gen : Nat} {q : Snapshot} (hq : s.snapshot vol gen = some q)
    (hpos : 0 < q.restorePins) :
    ∃ q', (s.dropPin vol gen false).snapshot vol gen = some q' ∧ q'.restorePins = q.restorePins - 1 := by
  have hmod : ((s.modSnapshot vol gen fun p => { p with restorePins := p.restorePins - 1 }).snapshot vol gen) =
      some { q with restorePins := q.restorePins - 1 } :=
    (State.snapshot_modSnapshot _ _ _ _).trans (congrArg _ hq)
  have hpins : ((s.dropPin vol gen false).snapshot vol gen).map Snapshot.pinCounts =
      some (Snapshot.pinCounts { q with restorePins := q.restorePins - 1 }) := by
    unfold State.dropPin
    rw [hq]
    dsimp only
    rw [if_neg (by simp only [Bool.false_eq_true, if_false]; omega)]
    split
    · exact (snapshot_retain_pins _ _ _ _ _).trans (congrArg _ hmod)
    · exact congrArg (Option.map Snapshot.pinCounts) hmod
  obtain ⟨q', hq', hc⟩ := Option.map_eq_some_iff.mp hpins
  exact ⟨q', hq', congrArg Prod.snd hc⟩

theorem refuseAcceptance_eq (s : State) (a : Acceptance) :
    s.refuseAcceptance a = State.dropPin { s.unlockRange (targetOf a.body).1 (targetOf a.body).2 a.rid a.body.count with
      rst.acceptance := none } a.body.vol a.body.gen false := rfl

theorem refuseAcceptance_spec (a : Acceptance) {q : Snapshot} (hq : s.snapshot a.body.vol a.body.gen = some q)
    (hpos : 0 < q.restorePins) :
    (s.refuseAcceptance a).rst = { s.rst with acceptance := none } ∧ (s.refuseAcceptance a).tally = s.tally ∧
      (s.refuseAcceptance a).links = s.links ∧
      (∀ i, i < a.body.count → ((s.refuseAcceptance a).extent (targetOf a.body).1
        ((targetOf a.body).2 + i)).lock ≠ some a.rid) ∧
      ∃ q', (s.refuseAcceptance a).snapshot a.body.vol a.body.gen = some q' ∧
        q'.restorePins = q.restorePins - 1 := by
  have hrange := unlockRange_eq s (targetOf a.body).1 (targetOf a.body).2 a.rid a.body.count
  have hlock (i : Nat) (hi : i < a.body.count) :=
    unlockRange_lock s (targetOf a.body).1 (targetOf a.body).2 a.rid a.body.count hi
  obtain ⟨u, hu⟩ : ∃ u, u = ({ s.unlockRange (targetOf a.body).1 (targetOf a.body).2 a.rid a.body.count with
    rst.acceptance := none } : State) := ⟨_, rfl⟩
  have hpin := dropPin_eq u a.body.vol a.body.gen false
  have husnap : u.snapshot a.body.vol a.body.gen = some q := by
    rw [hu, hrange]
    exact hq
  rw [refuseAcceptance_eq, ← hu]
  refine ⟨?_, ?_, ?_, fun i hi => ?_, dropPin_restorePins husnap hpos⟩
  · rw [hpin, hu, hrange]
  · rw [hpin, hu, hrange]
  · rw [hpin, hu, hrange]
  · rw [hpin]
    have h := hlock i hi
    rw [hu]
    exact h

/-- A refused reservation changes no tally and drops the acceptance (R32, R90). -/
theorem reserve_refused {a : Acceptance} {e : ReqEntry} {g : Admission} {q : Snapshot} {st : Status} {b : ReplyBody}
    (hto : s.tallyOnly o) (hj : o.job = .reserve p n) (hw : o.writes = []) (hacc : s.rst.acceptance = some a)
    (ha : s.awaits a.link a.req e) (hq : s.snapshot a.body.vol a.body.gen = some q) (hpos : 0 < q.restorePins)
    (hg : ∀ u : State, u.rst.acceptance = some a →
      u.reserved g = (u.refuseAcceptance a).reply a.link a.req st b) :
    ∃ u, (((s.modOp o.num fun o => o.found g).releaseLines o.num o.ids).reserved g).completeOp o.num = u ∧
      u.tallyWaits ∧ u.tally.ops = [] ∧ u.rst = { s.rst with acceptance := none } ∧
      (∀ id, u.current id = s.current id) ∧
      (∀ i, i < a.body.count → (u.extent (targetOf a.body).1 ((targetOf a.body).2 + i)).lock ≠ some a.rid) ∧
      (∃ q', u.snapshot a.body.vol a.body.gen = some q' ∧ q'.restorePins = q.restorePins - 1) ∧
      Replied s u a.link e st b := by
  obtain ⟨ho, hpost, hmode, hflush⟩ := hto
  obtain ⟨w, hwdef⟩ : ∃ w, w = (s.modOp o.num fun o => o.found g).releaseLines o.num o.ids := ⟨_, rfl⟩
  have hops : w.tally.ops = [o.found g] := by
    rw [hwdef]
    exact modOp_single ho _
  have hwq : w.snapshot a.body.vol a.body.gen = some q := by rw [hwdef]; exact hq
  have hwacc : w.rst.acceptance = some a := by rw [hwdef]; exact hacc
  have hwcur (id : Nat) : w.current id = s.current id := by
    rw [hwdef]
    have h2 : (s.modOp o.num fun o => o.found g).current id = s.current id :=
      current_congr rfl rfl rfl (fun _ => rfl) id
    exact (current_releaseLines _ _ _ _).trans h2
  obtain ⟨wrst, wtally, wlinks, wlock, wsnap⟩ := refuseAcceptance_spec (s := w) a hwq hpos
  have hres := hg w hwacc
  have hrep : Replied s (w.reserved g) a.link e st b := by
    rw [hres]
    exact replied_of_gains st b ha fun P _ h => by
      rw [wlinks, hwdef]
      exact h
  have rrst : (w.reserved g).rst = { s.rst with acceptance := none } := by
    rw [hres]
    refine Eq.trans ?_ (wrst.trans (by rw [hwdef]; rfl))
    rfl
  have rtally : (w.reserved g).tally = w.tally := by
    rw [hres]
    exact wtally
  have rlock (i : Nat) (hi : i < a.body.count) :
      ((w.reserved g).extent (targetOf a.body).1 ((targetOf a.body).2 + i)).lock ≠ some a.rid := by
    rw [hres]
    exact wlock i hi
  have rsnap : ∃ q', (w.reserved g).snapshot a.body.vol a.body.gen = some q' ∧
      q'.restorePins = q.restorePins - 1 := by
    rw [hres]
    exact wsnap
  obtain ⟨y, hy⟩ : ∃ y, y = w.reserved g := ⟨_, rfl⟩
  rw [← hwdef, ← hy]
  rw [← hy] at hrep rrst rtally rlock rsnap
  have hyops : y.tally.ops = [o.found g] := by rw [rtally, hops]
  have hdone : y.completeOp (o.found g).num = { y with
      tally.ops := if (o.found g).writes ≠ [] then [o.found g] else [] } :=
    completeOp_silent hyops (by
      have hxj : (o.found g).job = .reserve p n := hj
      rw [hxj]
      rfl)
  have hnil : (if (o.found g).writes ≠ [] then [o.found g] else []) = ([] : List TallyOp) :=
    if_neg fun h => h hw
  rw [hnil] at hdone
  refine ⟨_, hdone, ⟨fun x hx => (nomatch hx), ?_, ?_, ?_⟩, rfl, rrst, fun id => ?_, rlock, rsnap, hrep⟩
  · change y.tally.postings = []
    rw [rtally, hwdef]
    exact hpost
  · change y.tally.modeReply = []
    rw [rtally, hwdef]
    exact hmode
  · change y.tally.flushing = false
    rw [rtally, hwdef]
    exact hflush
  · exact (current_congr rfl rfl rfl (fun _ => rfl) id).trans ((current_of_tally rtally id).trans (hwcur id))

/-- The end of a step keeps the locks. -/
theorem finish_lock (u : State) (vol ext : Nat) : (u.finish.extent vol ext).lock = (u.extent vol ext).lock := by
  have hbare : (u.finish.extent vol ext).bare = (u.extent vol ext).bare :=
    (finish_settles u).2.2.1.2 (extentKey vol ext)
  have hlock : (u.finish.extent vol ext).bare.lock = (u.extent vol ext).bare.lock := congrArg Extent.lock hbare
  exact hlock

theorem finish_snapshot (u : State) (vol gen : Nat) : u.finish.snapshot vol gen = u.snapshot vol gen := by
  obtain ⟨-, -, ⟨⟨-, -, hsnaps, -, -, -⟩, -⟩, -⟩ := finish_settles u
  rw [State.snapshot, hsnaps, State.snapshot]

end

end Sys2Proof.Machine

open Sys2Proof Sys2Proof.Machine

/-- Settles O39. -/
theorem reservationDecidesTheAcceptance : Obligations.ReservationDecidesTheAcceptance := by
  refine ⟨?_, ?_⟩
  · intro s o a e n m rec xs ys k hop hto hst hw hj hl hids hfrozen hxs hys hacc ha hle hres hsteps hfree hlt hlow hk
    let v : State := { s with sent := [] }
    have hrun : s.sup.op ≠ .halted := by rw [hop]; exact nofun
    have hne : o.ids ≠ [] := by rw [hids]; exact List.append_ne_nil_of_right_ne_nil _ (List.cons_ne_nil _ _)
    have hfound : v.admission o.ids n 1 false =
        { status := .granted, granted := n, headroom := s.headroom m, limiting := m } := by
      have hsmall : v.smallest o.ids = (s.headroom m, m) := by
        rw [hids]
        exact smallest_of_first v xs m ys hxs hys
      rw [admission_free (s := v) n 1 false hne (firstFrozen_none hfrozen), hsmall]
      dsimp only
      rw [(grantOf_spec n 1 false (s.headroom m)).1 hle]
    obtain ⟨u, hu, hwaits, uacc, urec, ⟨k', hk', hactive⟩, ucur, hrep⟩ :=
      reserve_granted (s := v) (g := { status := .granted, granted := n, headroom := s.headroom m, limiting := m })
        hto hj hl hop rfl hacc ha hsteps hfree hlt hlow hk
    have hcalc : v.calculate o.num = u :=
      (calculate_reserve (s := v) hto.1 hj hl.2.2.1 hfound).trans ((if_pos (.inl rfl)).trans hu)
    have ftally := finish_waits_tally hwaits
    have hexec := exec_reserveCalculation hrun hto.1 hst hj
    refine ⟨u.finish, v.recordOfAcceptance a, k',
      hexec.trans (congrArg (fun t : State => Host.Outcome.next t.finish) hcalc), ?_, ?_,
      rfl, rfl, hres, rfl, rfl, rfl, rfl, rfl, ?_, hactive, fun id hid => ?_, ?_⟩
    · rw [finish_rst]
      exact uacc
    · rw [State.restore, finish_rst]
      exact urec
    · rw [State.prin, ftally]
      exact hk'
    · rw [current_of_tally ftally]
      exact ucur id hid
    · rw [← hres]
      exact hrep.finish
  · intro s o a e n m xs ys q st b hop hto hst hw hj hl hids hacc ha hq hpos hwhy
    let v : State := { s with sent := [] }
    have hrun : s.sup.op ≠ .halted := by rw [hop]; exact nofun
    have hne : o.ids ≠ [] := by rw [hids]; exact List.append_ne_nil_of_right_ne_nil _ (List.cons_ne_nil _ _)
    obtain ⟨g, hfound, hno, hg⟩ : ∃ g, v.admission o.ids n 1 false = g ∧
        ¬(g.status = .granted ∨ g.status = .partialGrant) ∧ ∀ u : State, u.rst.acceptance = some a →
          u.reserved g = (u.refuseAcceptance a).reply a.link a.req st b := by
      rcases hwhy with ⟨hfrozen, hxs, hys, hlt, rfl, rfl⟩ | ⟨⟨k, hk, hkf⟩, hxs, rfl, rfl⟩
      · have hsmall : v.smallest o.ids = (s.headroom m, m) := by
          rw [hids]
          exact smallest_of_first v xs m ys hxs hys
        refine ⟨_, admission_free (s := v) n 1 false hne (firstFrozen_none hfrozen), ?_, fun u hu => ?_⟩
        · rw [hsmall, (grantOf_spec n 1 false (s.headroom m)).2.2 hlt (.inl rfl)]
          exact fun h => h.elim (fun h => nomatch h) fun h => nomatch h
        · rw [hsmall, (grantOf_spec n 1 false (s.headroom m)).2.2 hlt (.inl rfl)]
          unfold State.reserved
          rw [hu]
      · refine ⟨_, admission_frozen (s := v) n 1 false (m := m) ?_, ?_, fun u hu => ?_⟩
        · rw [hids]
          exact firstFrozen_of_first (s := v) hk hkf hxs
        · exact fun h => h.elim (fun h => nomatch h) fun h => nomatch h
        · unfold State.reserved
          rw [hu]
    obtain ⟨u, hu, hwaits, uops, urst, ucur, ulock, ⟨q', hq', hpins⟩, hrep⟩ :=
      reserve_refused (s := v) (g := g) hto hj hw hacc ha hq hpos hg
    have hcalc : v.calculate o.num = u :=
      (calculate_reserve (s := v) hto.1 hj hl.2.2.1 hfound).trans ((if_neg hno).trans hu)
    have ftally := finish_waits_tally hwaits
    have hexec := exec_reserveCalculation hrun hto.1 hst hj
    refine ⟨u.finish, q', hexec.trans (congrArg (fun t : State => Host.Outcome.next t.finish) hcalc),
      (finish_rst u).trans urst, fun id => ?_, ?_, fun i hi => ?_, (finish_snapshot u _ _).trans hq', hpins,
      hrep.finish⟩
    · rw [current_of_tally ftally]
      exact ucur id
    · rw [ftally]
      exact uops
    · rw [finish_lock]
      exact ulock i hi

end

section
/-! PROOF. Restores start in the order of their acceptance, are cancelled, and are reported (R91, R99, R101). -/

namespace Sys2Proof.Machine

/-! ### What giving up a step leaves alone -/

theorem leavePlaces_eq (s : State) (who : Issuer) :
    s.leavePlaces who = { s with links := (s.leavePlaces who).links } := by
  unfold State.leavePlaces
  generalize allLinks = ls
  induction ls generalizing s with
  | nil => rfl
  | cons l ls ih =>
    rw [List.foldl_cons, ih]
    rfl

/-- Fetch entries, slots and places given up touch the links, the stream and the offsite engine alone. -/
theorem dropStep_eq (s : State) (rec i : Nat) : s.dropStep rec i = { s with
    links := (s.dropStep rec i).links, str := (s.dropStep rec i).str, off := (s.dropStep rec i).off } := by
  unfold State.dropStep
  rw [leavePlaces_eq]
  rfl

theorem unlockStep_eq (s : State) (rec i : Nat) :
    s.unlockStep rec i = { s with cat.extents := (s.unlockStep rec i).cat.extents } := by
  unfold State.unlockStep
  split
  · rfl
  · exact unlock_eq _ _ _ _

theorem restore_modRestore_ne (s : State) {rec k : Nat} (f : Restore → Restore) (h : k ≠ rec) :
    (s.modRestore rec f).restore k = s.restore k := tget_tmod_ne _ f (Ne.symm h)

/-- From one state to another, the work of the Restore Engine on a record's steps leaves Supervisor, Tally Unit,
Patrol Unit, snapshots and volumes alone, and links only gain. -/
structure StepWork (s t : State) : Prop where
  sup : t.sup = s.sup
  tally : t.tally = s.tally
  pat : t.pat = s.pat
  cat : t.cat = { s.cat with extents := t.cat.extents }
  rst : t.rst = { s.rst with table := t.rst.table }
  pending : t.pending = s.pending
  gains : ∀ P : Vector LinkRec 6 → Prop, LinksGain P → P s.links → P t.links

namespace StepWork
variable {s t u : State}

theorem refl (s : State) : StepWork s s := ⟨rfl, rfl, rfl, rfl, rfl, rfl, fun _ _ h => h⟩

theorem trans (h : StepWork s t) (k : StepWork t u) : StepWork s u := by
  refine ⟨k.sup.trans h.sup, k.tally.trans h.tally, k.pat.trans h.pat, ?_, ?_, k.pending.trans h.pending,
    fun P hP hs => k.gains P hP (h.gains P hP hs)⟩
  · rw [k.cat, h.cat]
  · rw [k.rst, h.rst]

end StepWork

theorem stepWork_modRestore (s : State) (rec : Nat) (f : Restore → Restore) : StepWork s (s.modRestore rec f) :=
  ⟨rfl, rfl, rfl, rfl, rfl, rfl, fun _ _ h => h⟩

theorem stepWork_modStep (s : State) (rec i : Nat) (f : Step → Step) : StepWork s (s.modStep rec i f) :=
  stepWork_modRestore s rec _

theorem stepWork_dropStep (s : State) (rec i : Nat) : StepWork s (s.dropStep rec i) := by
  have h := dropStep_eq s rec i
  refine ⟨?_, ?_, ?_, ?_, ?_, ?_, fun P hP hs => gains_dropStep hP rec i hs⟩ <;> rw [h]

theorem stepWork_unlockStep (s : State) (rec i : Nat) : StepWork s (s.unlockStep rec i) := by
  have h := unlockStep_eq s rec i
  refine ⟨?_, ?_, ?_, ?_, ?_, ?_, fun P hP hs => gains_unlockStep rec i hs⟩ <;> rw [h]

theorem restore_dropStep (s : State) (rec i k : Nat) : (s.dropStep rec i).restore k = s.restore k := by
  rw [dropStep_eq]
  rfl

theorem restore_unlockStep (s : State) (rec i k : Nat) : (s.unlockStep rec i).restore k = s.restore k := by
  rw [unlockStep_eq]
  rfl

theorem getElem?_modAt_ne {α : Type} (xs : List α) {i j : Nat} (f : α → α) (h : i ≠ j) :
    (modAt xs i f)[j]? = xs[j]? := by
  rw [getElem?_modAt, if_neg h]

/-- The WAITING steps of a record given up (R98, R99). -/
def State.giveUpSteps (s : State) (rec : Nat) (is : List Nat) : State :=
  is.foldl (fun s i => ((s.modStep rec i fun t => { t with again := false }).dropStep rec i).unlockStep rec i) s

/-- Steps given up stand in their states; the other steps of the record, and the record's other fields, are as they
were. -/
theorem giveUpSteps_spec (s : State) (rec : Nat) (is : List Nat) {r : Restore} (hr : s.restore rec = some r) :
    StepWork s (s.giveUpSteps rec is) ∧ (∀ k, k ≠ rec → (s.giveUpSteps rec is).restore k = s.restore k) ∧
      ∃ r', (s.giveUpSteps rec is).restore rec = some r' ∧ r' = { r with steps := r'.steps } ∧
        ∀ i, i ∉ is → r'.steps[i]? = r.steps[i]? := by
  unfold State.giveUpSteps
  induction is generalizing s r with
  | nil => exact ⟨StepWork.refl s, fun _ _ => rfl, r, hr, rfl, fun _ _ => rfl⟩
  | cons j is ih =>
    rw [List.foldl_cons]
    obtain ⟨w, hw⟩ : ∃ w, w =
        ((s.modStep rec j fun t => { t with again := false }).dropStep rec j).unlockStep rec j := ⟨_, rfl⟩
    have hwork : StepWork s w := by
      rw [hw]
      exact (stepWork_modStep s rec j _).trans ((stepWork_dropStep _ rec j).trans (stepWork_unlockStep _ rec j))
    have hrw : w.restore rec = some { r with steps := modAt r.steps j fun t => { t with again := false } } := by
      rw [hw, restore_unlockStep, restore_dropStep]
      exact (State.restore_modRestore s rec _).trans (congrArg _ hr)
    have hother (k : Nat) (hk : k ≠ rec) : w.restore k = s.restore k := by
      rw [hw, restore_unlockStep, restore_dropStep]
      exact restore_modRestore_ne s _ hk
    rw [← hw]
    obtain ⟨iwork, iother, r', hr', hrr, hsteps⟩ := ih w hrw
    refine ⟨hwork.trans iwork, fun k hk => (iother k hk).trans (hother k hk), r', hr', hrr, fun i hi => ?_⟩
    obtain ⟨hij, hi⟩ := not_or.mp (mt List.mem_cons.mpr hi)
    rw [hsteps i hi]
    exact getElem?_modAt_ne _ _ (Ne.symm hij)

/-! ### Starting -/

section
variable {s : State}

/-- The record of lowest acceptance number is the one a walk over the table finds. -/
theorem lowest_accept (table : List (Nat × Restore)) (best : Nat × Restore) :
    ∃ kr, (table.foldl (fun best kr => match best with
        | none => some kr
        | some b => if kr.2.acceptNo < b.2.acceptNo then some kr else some b) (some best)) = some kr ∧
      (kr = best ∨ kr ∈ table) ∧ kr.2.acceptNo ≤ best.2.acceptNo ∧ ∀ x ∈ table, kr.2.acceptNo ≤ x.2.acceptNo := by
  induction table generalizing best with
  | nil => exact ⟨best, rfl, .inl rfl, Nat.le_refl _, fun _ h => nomatch h⟩
  | cons y ys ih =>
    rw [List.foldl_cons]
    dsimp only
    split
    next hlt =>
      obtain ⟨kr, hkr, hmem, hle, hall⟩ := ih y
      refine ⟨kr, hkr, .inr ?_, Nat.le_trans hle (Nat.le_of_lt hlt), fun x hx => ?_⟩
      · exact hmem.elim (fun h => h ▸ List.mem_cons_self) fun h => List.mem_cons_of_mem _ h
      · exact (List.mem_cons.mp hx).elim (fun h => h ▸ hle) (hall x)
    next hge =>
      obtain ⟨kr, hkr, hmem, hle, hall⟩ := ih best
      refine ⟨kr, hkr, hmem.imp_right fun h => List.mem_cons_of_mem _ h, hle, fun x hx => ?_⟩
      exact (List.mem_cons.mp hx).elim (fun h => h ▸ Nat.le_trans hle (Nat.not_lt.mp hge)) (hall x)

theorem nextPlanned_of_lowest {rec : Nat} {r : Restore} (hwf : Tbl.wf s.rst.table = true)
    (hr : s.restore rec = some r) (hst : r.state = .planned)
    (hlow : ∀ k q, s.restore k = some q → q.state = .planned → k ≠ rec → r.acceptNo < q.acceptNo) :
    s.nextPlanned = some rec := by
  have hmem : (rec, r) ∈ s.rst.table.filter fun kr => decide (kr.2.state = .planned) :=
    List.mem_filter.mpr ⟨mem_of_tget hr, by simp [hst]⟩
  unfold State.nextPlanned
  cases hf : s.rst.table.filter fun kr => decide (kr.2.state = .planned) with
  | nil =>
    rw [hf] at hmem
    cases hmem
  | cons y ys =>
    rw [List.foldl_cons]
    dsimp only
    obtain ⟨kr, hkr, hin, hle, hall⟩ := lowest_accept ys y
    rw [hf] at hmem
    have hkmem : kr ∈ s.rst.table.filter fun kr => decide (kr.2.state = .planned) := by
      rw [hf]
      exact hin.elim (fun h => h ▸ List.mem_cons_self) fun h => List.mem_cons_of_mem _ h
    obtain ⟨hktab, hkst⟩ := List.mem_filter.mp hkmem
    have hkget : s.restore kr.1 = some kr.2 := tget_of_mem 0 _ hwf hktab
    have hkle : kr.2.acceptNo ≤ r.acceptNo :=
      (List.mem_cons.mp hmem).elim (fun h => by rw [← h] at hle; exact hle) fun h => hall _ h
    have hk : kr.1 = rec := by
      by_contra hne
      exact absurd (hlow kr.1 kr.2 hkget (of_decide_eq_true hkst) hne) (Nat.not_lt.mpr hkle)
    exact (congrArg (Option.map Prod.fst) hkr).trans (congrArg some hk)

theorem exec_restoreStart (hrun : s.sup.op ≠ .halted) :
    Machine.exec (.restoreStart []) s = .next (State.finish (State.startRestore { s with sent := [] })) :=
  act_withErrs_nil _ hrun

/-- A RUNNING restore with a step still WAITING goes on (R98). -/
theorem afterStep_running {rec i : Nat} {r : Restore} {x : Step} (hr : s.restore rec = some r)
    (hst : r.state = .running) (hpause : r.pausing = false) (hx : r.steps[i]? = some x) (hxs : x.state = .waiting) :
    s.afterStep rec = s := by
  have hall : ¬r.steps.all (fun t => decide (t.state = .done) || decide (t.state = .skipped)) = true := by
    intro hall
    have := List.all_eq_true.mp hall x (List.mem_of_getElem? hx)
    simp [hxs] at this
  unfold State.afterStep
  rw [hr]
  dsimp only
  rw [hst]
  dsimp only
  rw [if_neg hall]
  exact if_neg fun h => Bool.false_ne_true (hpause.symm.trans h.1)

theorem startRestore_starts {rec i : Nat} {r : Restore} {x : Step} (hnext : s.nextPlanned = some rec)
    (hop : s.sup.op = .active) (hplaces : s.placesUsed < 8) (hr : s.restore rec = some r) (hpause : r.pausing = false)
    (hx : r.steps[i]? = some x) (hxs : x.state = .waiting) :
    s.startRestore = s.modRestore rec fun r => { r with state := .running } := by
  have hmod : (s.modRestore rec fun r => { r with state := .running }).restore rec =
      some { r with state := .running } := (State.restore_modRestore s rec _).trans (congrArg _ hr)
  unfold State.startRestore
  rw [hnext]
  exact (if_pos ⟨hop, hplaces⟩).trans (afterStep_running hmod rfl hpause hx hxs)

theorem startRestore_none (h : s.sup.op ≠ .active ∨ 8 ≤ s.placesUsed) : s.startRestore = s := by
  unfold State.startRestore
  split
  · rfl
  · exact if_neg fun hc => h.elim (fun h => h hc.1) fun h => Nat.not_lt.mpr h hc.2

/-! ### Cancelling -/

/-- The indexes of a record's WAITING steps. -/
def Restore.waits (r : Restore) : List Nat := r.indexes fun t => decide (t.state = .waiting)

theorem not_mem_waits {r : Restore} {i : Nat} {x : Step} (hx : r.steps[i]? = some x) (hxs : x.state ≠ .waiting) :
    i ∉ r.waits := by
  intro h
  obtain ⟨-, hp⟩ := List.mem_filter.mp h
  rw [hx] at hp
  exact hxs (of_decide_eq_true hp)

theorem cancelRestore_running {rec : Nat} {r : Restore} (hr : s.restore rec = some r) (hst : r.state = .running) :
    s.cancelRestore rec = (.accepted, ((s.giveUpSteps rec r.waits).modRestore rec fun r =>
      { r with state := .cancelling, pausing := false }).afterStep rec) := by
  unfold State.cancelRestore
  rw [hr]
  dsimp only
  rw [hst]
  rfl

theorem cancelRestore_planned {rec : Nat} {r : Restore} (hr : s.restore rec = some r) (hst : r.state = .planned) :
    s.cancelRestore rec = (.done, (s.giveUpSteps rec r.waits).becomeCancelled rec) := by
  unfold State.cancelRestore
  rw [hr]
  dsimp only
  rw [hst]
  rfl

theorem cancelRestore_finished {rec : Nat} {r : Restore} (hr : s.restore rec = some r)
    (hst : r.state.isActive = false) : s.cancelRestore rec = (.done, s) := by
  unfold State.cancelRestore
  rw [hr]
  dsimp only
  cases hs : r.state with
  | done | donePartial | failed | cancelled => rfl
  | planned | running | paused | cancelling =>
    rw [hs] at hst
    cases hst

/-- A RUNNING restore with a step ISSUED becomes CANCELLING (R99). -/
theorem cancelRestore_issued {rec i : Nat} {r : Restore} {x : Step} (hr : s.restore rec = some r)
    (hst : r.state = .running) (hx : r.steps[i]? = some x) (hxs : x.state = .issued) :
    ∃ u r', s.cancelRestore rec = (.accepted, u) ∧ StepWork s u ∧ u.restore rec = some r' ∧
      r'.state = .cancelling ∧ r'.remaining = r.remaining ∧ r'.steps[i]? = some x := by
  obtain ⟨hwork, -, q, hq, hqr, hsteps⟩ := giveUpSteps_spec s rec r.waits hr
  obtain ⟨w, hw⟩ : ∃ w, w = (s.giveUpSteps rec r.waits).modRestore rec fun r =>
    { r with state := .cancelling, pausing := false } := ⟨_, rfl⟩
  have hwr : w.restore rec = some { q with state := .cancelling, pausing := false } := by
    rw [hw]
    exact (State.restore_modRestore _ rec _).trans (congrArg _ hq)
  have hqx : q.steps[i]? = some x := (hsteps i (not_mem_waits hx (by rw [hxs]; exact nofun))).trans hx
  have hflight : q.inFlight ≠ 0 := by
    refine Nat.ne_of_gt (List.length_pos_of_mem (List.mem_filter.mpr ⟨List.mem_of_getElem? hqx, ?_⟩))
    unfold Step.inFlight
    rw [hxs]
  have hafter : w.afterStep rec = w := by
    unfold State.afterStep
    rw [hwr]
    exact if_neg hflight
  have hwwork : StepWork s w := by
    rw [hw]
    exact hwork.trans (stepWork_modRestore _ rec _)
  have hrem : q.remaining = r.remaining := by rw [hqr]
  refine ⟨w, { q with state := .cancelling, pausing := false }, ?_, hwwork, hwr, rfl, hrem, hqx⟩
  rw [cancelRestore_running hr hst, ← hw, hafter]

/-! ### A restore cancelled at once -/

theorem restore_raise (s : State) (b : NoticeBody) (k : Nat) : (s.raise b).restore k = s.restore k := by
  have h : (s.raise b).rst = s.rst := congrArg (fun p => p.2.1) (othersKept_raise (ot := s.others) b rfl)
  rw [State.restore, h, State.restore]

theorem raiseEnd_eq {rec : Nat} {r : Restore} (hr : s.restore rec = some r) :
    s.raiseEnd rec = s.raise (.restoreEnd r.rid r.principal r.link r.state r.cause r.failedStep (r.stepsIn .done)
      (r.stepsIn .skipped) (r.stepsIn .failed) (r.stepsIn .waiting) r.inFlight) := by
  unfold State.raiseEnd
  rw [hr]

/-- A reservation release asked for is at most one operation more of the Tally Unit (R34). -/
theorem askRelease_eq (s : State) (person blocks : Nat) :
    s.askRelease person blocks = { s with tally := (s.askRelease person blocks).tally } ∧
      (s.askRelease person blocks).tally = { s.tally with
        ops := (s.askRelease person blocks).tally.ops, nextOp := (s.askRelease person blocks).tally.nextOp } ∧
      ∀ o ∈ (s.askRelease person blocks).tally.ops, o ∈ s.tally.ops ∨ o.job = .unreserve person blocks := by
  unfold State.askRelease
  split
  · exact ⟨rfl, rfl, fun _ h => .inl h⟩
  · refine ⟨rfl, rfl, fun o h => ?_⟩
    rcases List.mem_append.mp h with h | h
    · exact .inl h
    · right
      rw [List.mem_singleton.mp h]

theorem releaseBlocks_eq {rec : Nat} {r : Restore} (hr : s.restore rec = some r) (blocks : Nat) :
    s.releaseBlocks rec blocks =
      (s.modRestore rec fun r => { r with remaining := r.remaining - blocks }).askRelease r.principal blocks := by
  unfold State.releaseBlocks
  rw [hr]

theorem dropRestorePin_eq (s : State) (rec : Nat) : s.dropRestorePin rec = { s with
    rst := { s.rst with table := (s.dropRestorePin rec).rst.table }
    cat.snapshots := (s.dropRestorePin rec).cat.snapshots } := by
  unfold State.dropRestorePin
  split
  · rfl
  · split
    · rw [dropPin_eq]
      rfl
    · rfl

theorem restore_dropRestorePin {rec : Nat} {r : Restore} (hr : s.restore rec = some r) :
    (s.dropRestorePin rec).restore rec = some { r with pin := false } := by
  unfold State.dropRestorePin
  rw [hr]
  dsimp only
  split
  · rw [dropPin_eq]
    exact (State.restore_modRestore s rec _).trans (congrArg _ hr)
  next hpin =>
    rw [hr]
    have hfalse : r.pin = false := Bool.not_eq_true _ ▸ hpin
    cases r
    cases hfalse
    rfl

/-- What a restore that becomes CANCELLED at once leaves (R99). -/
theorem becomeCancelled_spec {rec : Nat} {r : Restore} {k : Principal} (hr : s.restore rec = some r)
    (hk : s.prin r.principal = some k) :
    (∃ r', (s.becomeCancelled rec).restore rec = some r' ∧ r'.state = .cancelled ∧
        r'.finishNo = some s.rst.nextFinish) ∧
      (∃ k', (s.becomeCancelled rec).prin r.principal = some k' ∧ k'.active = k.active - 1) ∧
      (s.becomeCancelled rec).sup.raised[3]? = (s.sup.raised[3]?).map countUp ∧
      supKept s.sup (s.becomeCancelled rec).sup ∧ (s.becomeCancelled rec).pat = s.pat ∧
      (s.becomeCancelled rec).tally.postings = s.tally.postings ∧
      (s.becomeCancelled rec).tally.modeReply = s.tally.modeReply ∧
      (s.becomeCancelled rec).tally.flushing = s.tally.flushing ∧
      (∀ o ∈ (s.becomeCancelled rec).tally.ops, o ∈ s.tally.ops ∨ o.job.runsAtOnce = false) ∧
      ∀ P : Vector LinkRec 6 → Prop, LinksGain P → P s.links → P (s.becomeCancelled rec).links := by
  obtain ⟨n, hn⟩ : ∃ n, n = r.positives (r.indexes fun t => decide (t.state = .waiting)) := ⟨_, rfl⟩
  obtain ⟨u1, hu1⟩ : ∃ u, u = s.finishAs rec .cancelled none none := ⟨_, rfl⟩
  have hr1 : u1.restore rec = some { r with
      state := .cancelled, cause := none, failedStep := none, finishNo := some s.rst.nextFinish
      pausing := false } := by
    rw [hu1]
    exact (State.restore_modRestore s rec _).trans (congrArg _ hr)
  obtain ⟨u2, hu2⟩ : ∃ u, u = u1.releaseBlocks rec n := ⟨_, rfl⟩
  have hrel := releaseBlocks_eq hr1 n
  obtain ⟨hask, hasktally, haskops⟩ := askRelease_eq
    (u1.modRestore rec fun r => { r with remaining := r.remaining - n }) r.principal n
  rw [← hrel, ← hu2] at hask hasktally haskops
  have hr2 : u2.restore rec = some { r with
      state := .cancelled, cause := none, failedStep := none, finishNo := some s.rst.nextFinish, pausing := false
      remaining := r.remaining - n } := by
    rw [hask]
    exact (State.restore_modRestore u1 rec _).trans (congrArg _ hr1)
  obtain ⟨u3, hu3⟩ : ∃ u, u = u2.dropRestorePin rec := ⟨_, rfl⟩
  have hr3 := restore_dropRestorePin hr2
  have hpin := dropRestorePin_eq u2 rec
  rw [← hu3] at hr3 hpin
  obtain ⟨u4, hu4⟩ : ∃ u, u = u3.modActive r.principal (· - 1) := ⟨_, rfl⟩
  have hr4 : u4.restore rec = u3.restore rec := by
    rw [hu4]
    rfl
  have hall : s.becomeCancelled rec = u4.raiseEnd rec := by
    unfold State.becomeCancelled
    rw [hr, hu4, hu3, hu2, hn, hu1]
  have hend := raiseEnd_eq (hr4.trans hr3)
  rw [hall, hend]
  have h1sup : u1.sup = s.sup := by rw [hu1]; rfl
  have h1tally : u1.tally = s.tally := by rw [hu1]; rfl
  have h1pat : u1.pat = s.pat := by rw [hu1]; rfl
  have h1links : u1.links = s.links := by rw [hu1]; rfl
  have h2sup : u2.sup = s.sup := by rw [hask]; exact h1sup
  have h2pat : u2.pat = s.pat := by rw [hask]; exact h1pat
  have h2links : u2.links = s.links := by rw [hask]; exact h1links
  have h4sup : u4.sup = s.sup := by rw [hu4, hpin]; exact h2sup
  have h4pat : u4.pat = s.pat := by rw [hu4, hpin]; exact h2pat
  have h4links : u4.links = s.links := by rw [hu4, hpin]; exact h2links
  have h3tally : u3.tally = u2.tally := by rw [hpin]
  have h2prin : u2.prin r.principal = some k := by
    have hprins : u2.tally.principals = s.tally.principals := by
      rw [hasktally, ← h1tally]
      rfl
    rw [State.prin, hprins]
    exact hk
  have h4prin : u4.prin r.principal = some { k with active := k.active - 1 } := by
    have h3prin : u3.prin r.principal = some k := by
      rw [State.prin, h3tally]
      exact h2prin
    rw [hu4]
    exact (State.prin_modPrin u3 r.principal _).trans (congrArg _ h3prin)
  have hothers := othersKept_raise (ot := u4.others) (.restoreEnd r.rid r.principal r.link .cancelled none none
    (r.stepsIn .done) (r.stepsIn .skipped) (r.stepsIn .failed) (r.stepsIn .waiting) r.inFlight) rfl
  have htallyq : u4.tally.postings = s.tally.postings ∧ u4.tally.modeReply = s.tally.modeReply ∧
      u4.tally.flushing = s.tally.flushing ∧
      ∀ o ∈ u4.tally.ops, o ∈ s.tally.ops ∨ o.job.runsAtOnce = false := by
    have hq : u4.tally.postings = u2.tally.postings ∧ u4.tally.modeReply = u2.tally.modeReply ∧
        u4.tally.flushing = u2.tally.flushing ∧ u4.tally.ops = u2.tally.ops := by
      rw [hu4, ← h3tally]
      exact ⟨rfl, rfl, rfl, rfl⟩
    obtain ⟨q1, q2, q3, q4⟩ := hq
    rw [q1, q2, q3, q4]
    refine ⟨?_, ?_, ?_, fun o ho => ?_⟩
    · rw [hasktally, ← h1tally]
      rfl
    · rw [hasktally, ← h1tally]
      rfl
    · rw [hasktally, ← h1tally]
      rfl
    · rcases haskops o ho with h | h
      · left
        rw [← h1tally]
        exact h
      · right
        rw [h]
        rfl
  obtain ⟨q1, q2, q3, q4⟩ := htallyq
  refine ⟨⟨_, (restore_raise _ _ _).trans (hr4.trans hr3), rfl, rfl⟩,
    ⟨{ k with active := k.active - 1 }, ?_, rfl⟩, ?_, ?_, ?_, ?_, ?_, ?_, ?_, fun P hP h => ?_⟩
  · rw [State.prin, raise_tally]
    exact h4prin
  · rw [raise_raised, getElem?_modAt, h4sup]
    rfl
  · exact supKept_raise _ (supKept_of_eq h4sup)
  · exact (congrArg (fun p => p.2.2.2.2) hothers).trans h4pat
  · rw [raise_tally, q1]
  · rw [raise_tally, q2]
  · rw [raise_tally, q3]
  · rw [raise_tally]
    exact q4
  · refine gains_raise hP _ ?_
    rw [h4links]
    exact h

/-! ### The end of a step whose operations wait for steps of their own -/

/-- With a quiet Patrol Unit, and operations that only gather, the end of a step keeps records and Supervisor. -/
theorem finish_gathers (hrun : s.sup.op ≠ .halted) (hj : ∀ o ∈ s.tally.ops, o.job.runsAtOnce = false)
    (hpost : s.tally.postings = []) (hmode : s.tally.modeReply = []) (hflush : s.tally.flushing = false)
    (hp : s.patrolStill) :
    s.finish.sup = s.sup ∧ ∀ id, s.finish.prin id = s.prin id := by
  have hg := advance_gatherOnly hj hpost hmode hflush
  have hpat : s.advance.pat = s.pat := congrArg (fun p => p.2.2.2.2) hg.others
  have hstill : s.advance.patrolStill := by
    rw [State.patrolStill, hpat]
    exact hp
  have hsup : s.advance.settleLink.sup = s.advance.sup := congrArg Prod.fst (settleLink_beside s.advance)
  rw [finish_running hrun]
  refine ⟨?_, fun id => ?_⟩
  · rw [State.settle, settlePatrol_still hstill, hsup, hg.sup]
  · rw [State.prin, settle_tally]
    exact hg.prin id

/-! ### The requests -/

theorem exec_restoreCancel {l : Link} (tag rid : Nat) (h : s.takes l) :
    Machine.exec (.restoreCancel l tag rid []) s = .next (State.finish (
      match (s.asked l tag .restoreCancel).recordOf rid with
      | none => (s.asked l tag .restoreCancel).reply l s.sup.nextReq .range .none
      | some (rec, r) =>
        if (s.asked l tag .restoreCancel).role l = .fileserver ∧ r.link ≠ l then
          (s.asked l tag .restoreCancel).reply l s.sup.nextReq .notPermitted .none
        else ((s.asked l tag .restoreCancel).cancelRestore rec).2.reply l s.sup.nextReq
          ((s.asked l tag .restoreCancel).cancelRestore rec).1 .none)) :=
  act_asked tag .restoreCancel _ h (.inl rfl)

theorem exec_restoreCancel_of {l : Link} {tag rid rec : Nat} {r : Restore} (h : s.takes l)
    (hrec : s.recordOf rid = some (rec, r)) (hmay : s.role l = .console ∨ r.link = l) {st : Status} {u : State}
    (hc : (s.asked l tag .restoreCancel).cancelRestore rec = (st, u)) :
    Machine.exec (.restoreCancel l tag rid []) s = .next (State.finish (u.reply l s.sup.nextReq st .none)) := by
  have hrec' : (s.asked l tag .restoreCancel).recordOf rid = some (rec, r) := hrec
  rw [exec_restoreCancel tag rid h, hrec']
  dsimp only
  rw [hc]
  refine congrArg (fun t : State => Host.Outcome.next t.finish) (if_neg fun hno => ?_)
  rw [asked_role] at hno
  rcases hmay with hm | hm
  · rw [hm] at hno
    exact nomatch hno.1
  · exact hno.2 hm

theorem exec_restoreStatus {l : Link} (tag rid : Nat) (h : s.takes l) :
    Machine.exec (.restoreStatus l tag rid []) s = .next (State.finish (
      match (s.asked l tag .restoreStatus).recordOf rid with
      | none => (s.asked l tag .restoreStatus).reply l s.sup.nextReq .range .none
      | some (rec, r) => (s.asked l tag .restoreStatus).reply l s.sup.nextReq .done (.record (restoreView rec r)))) :=
  act_asked tag .restoreStatus _ h (.inl rfl)

end

end Sys2Proof.Machine

open Sys2Proof Sys2Proof.Machine

/-- Settles O40. -/
theorem restoresStartCancelAndReport : Obligations.RestoresStartCancelAndReport := by
  refine ⟨?_, ?_, ?_, ?_, ?_, ?_, ?_⟩
  · intro s rec i r x hop hwf hr hst hpause hx hxs hplaces hlow
    let v : State := { s with sent := [] }
    have hrun : s.sup.op ≠ .halted := by rw [hop]; exact nofun
    have hstart := startRestore_starts (s := v) (nextPlanned_of_lowest hwf hr hst hlow) hop hplaces hr hpause hx hxs
    refine ⟨_, exec_restoreStart hrun, ?_, fun k hk => ?_⟩
    · rw [State.restore, finish_rst, hstart]
      exact (State.restore_modRestore v rec _).trans (congrArg _ hr)
    · rw [State.restore, finish_rst, hstart]
      exact restore_modRestore_ne v _ hk
  · intro s hrun hno
    refine ⟨_, exec_restoreStart hrun, ?_⟩
    rw [finish_rst, startRestore_none (s := { s with sent := [] }) hno]
  · intro s l tag rid rec i r x h hrec hr hmay hst hx hxs
    obtain ⟨u, r', hc, hwork, hr', hst', hrem, hx'⟩ :=
      cancelRestore_issued (s := s.asked l tag .restoreCancel) hr hst hx hxs
    have hent := (entered_asked s l tag .restoreCancel).gains hwork.gains
    refine ⟨_, r', exec_restoreCancel_of h hrec hmay hc, answered_finish _ _ h hent, ?_, hst', hrem, hx'⟩
    rw [State.restore, finish_rst]
    exact hr'
  · intro s l tag rid rec r k h hcalm hrec hr hmay hst hk
    obtain ⟨⟨hops, hpost, hmode, hflush⟩, hpat⟩ := hcalm
    obtain ⟨a, ha⟩ : ∃ a, a = s.asked l tag .restoreCancel := ⟨_, rfl⟩
    have har : a.restore rec = some r := by rw [ha]; exact hr
    have hasup : a.sup = { s.sup with nextReq := s.sup.nextReq + 1 } := by rw [ha]; rfl
    have hatally : a.tally = s.tally := by rw [ha]; rfl
    have hapat : a.pat = s.pat := by rw [ha]; rfl
    have harst : a.rst = s.rst := by rw [ha]; rfl
    obtain ⟨gwork, -, q, hq, hqr, -⟩ := giveUpSteps_spec a rec r.waits har
    obtain ⟨g, hg⟩ : ∃ g, g = a.giveUpSteps rec r.waits := ⟨_, rfl⟩
    rw [← hg] at gwork hq
    have hqp : q.principal = r.principal := by rw [hqr]
    have hgk : g.prin q.principal = some k := by
      rw [State.prin, gwork.tally, hatally, hqp]
      exact hk
    obtain ⟨⟨r', hr', hst', hfin⟩, ⟨k', hk', hactive⟩, hraised, bsup, bpat, bpost, bmode, bflush, bops, bgains⟩ :=
      becomeCancelled_spec hq hgk
    have hc := cancelRestore_planned har hst
    rw [← hg] at hc
    obtain ⟨b, hb⟩ : ∃ b, b = g.becomeCancelled rec := ⟨_, rfl⟩
    rw [← hb] at hr' hk' hraised bsup bpat bpost bmode bflush bops bgains hc
    have hent := ((entered_asked s l tag .restoreCancel).gains fun P hP hs =>
      bgains P hP (gwork.gains P hP (by rw [ha]; exact hs)))
    rw [ha] at hc
    have hrunb : b.sup.op ≠ .halted := by
      have hop : b.sup.op = s.sup.op := by
        refine bsup.1.trans ?_
        rw [gwork.sup, hasup]
      rw [hop]
      exact takes_running h
    obtain ⟨fsup, fprin⟩ := finish_gathers (s := b.reply l s.sup.nextReq .done .none) hrunb
      (fun o ho => by
        rcases bops o ho with hm | hm
        · rw [gwork.tally, hatally, hops] at hm
          cases hm
        · exact hm)
      (bpost.trans (by rw [gwork.tally, hatally, hpost])) (bmode.trans (by rw [gwork.tally, hatally, hmode]))
      (bflush.trans (by rw [gwork.tally, hatally, hflush]))
      (by
        have hpb : b.pat = s.pat := bpat.trans (gwork.pat.trans hapat)
        change b.pat.work = [] ∧ b.pat.folds = [] ∧ b.pat.repairs = [] ∧ b.pat.clearing = false
        rw [hpb]
        exact hpat)
    refine ⟨_, r', k', exec_restoreCancel_of h hrec hmay hc, answered_finish _ _ h hent, ?_, hst', ?_, ?_, hactive, ?_⟩
    · rw [State.restore, finish_rst]
      exact hr'
    · have hnext : g.rst.nextFinish = s.rst.nextFinish := by rw [gwork.rst, harst]
      rw [hfin, hnext]
    · rw [fprin, ← hqp]
      exact hk'
    · rw [fsup]
      refine hraised.trans ?_
      rw [gwork.sup, hasup]
  · intro s l tag rid rec r h hrec hr hmay hst
    have hc := cancelRestore_finished (s := s.asked l tag .restoreCancel) hr hst
    exact ⟨_, exec_restoreCancel_of h hrec hmay hc, answered_replied tag .restoreCancel .done .none h,
      spared_replied tag .restoreCancel .done .none h⟩
  · intro s l tag rid h hnone
    refine ⟨⟨_, (exec_restoreCancel tag rid h).trans ?_, answered_replied tag .restoreCancel .range .none h,
      spared_replied tag .restoreCancel .range .none h⟩, _, (exec_restoreStatus tag rid h).trans ?_,
      answered_replied tag .restoreStatus .range .none h, spared_replied tag .restoreStatus .range .none h⟩
    · have hnone' : (s.asked l tag .restoreCancel).recordOf rid = none := hnone
      rw [hnone'] <;> rfl
    · have hnone' : (s.asked l tag .restoreStatus).recordOf rid = none := hnone
      rw [hnone'] <;> rfl
  · intro s l tag rid rec r h hrec
    refine ⟨_, (exec_restoreStatus tag rid h).trans ?_, spared_replied tag .restoreStatus .done
      (.record (restoreView rec r)) h, answered_replied tag .restoreStatus .done (.record (restoreView rec r)) h⟩
    have hrec' : (s.asked l tag .restoreStatus).recordOf rid = some (rec, r) := hrec
    rw [hrec'] <;> rfl

end

section
/-! PROOF. Steps taken up as copies or fetches, put, or failed (R92 to R95, R98). -/

namespace Sys2Proof.Machine

/-! ### A step's failure -/

/-- A record has failed with a cause at a step (R98). -/
def State.hasFailed (s : State) (rec : Nat) (cause : Option FailCause) (at' : Option (Nat × StepReason)) : Prop :=
  ∃ r, s.restore rec = some r ∧ r.state = .failed ∧ r.cause = cause ∧ r.failedStep = at'

section
variable {s : State} {rec : Nat} {cause : Option FailCause} {at' : Option (Nat × StepReason)}

theorem hasFailed_congr {t : State} (h : t.restore rec = s.restore rec) (hf : s.hasFailed rec cause at') :
    t.hasFailed rec cause at' := by
  unfold State.hasFailed
  rw [h]
  exact hf

theorem hasFailed_modRestore {f : Restore → Restore}
    (hf : ∀ r, (f r).state = r.state ∧ (f r).cause = r.cause ∧ (f r).failedStep = r.failedStep)
    (h : s.hasFailed rec cause at') : (s.modRestore rec f).hasFailed rec cause at' := by
  obtain ⟨r, hr, hst, hc, ha⟩ := h
  obtain ⟨fst, fc, fa⟩ := hf r
  exact ⟨f r, (State.restore_modRestore s rec f).trans (congrArg _ hr), fst.trans hst, fc.trans hc, fa.trans ha⟩

theorem hasFailed_modStep (i : Nat) (f : Step → Step) (h : s.hasFailed rec cause at') :
    (s.modStep rec i f).hasFailed rec cause at' := hasFailed_modRestore (fun _ => ⟨rfl, rfl, rfl⟩) h

theorem hasFailed_dropStep (i : Nat) (h : s.hasFailed rec cause at') : (s.dropStep rec i).hasFailed rec cause at' :=
  hasFailed_congr (restore_dropStep s rec i rec) h

theorem hasFailed_unlockStep (i : Nat) (h : s.hasFailed rec cause at') :
    (s.unlockStep rec i).hasFailed rec cause at' := hasFailed_congr (restore_unlockStep s rec i rec) h

theorem hasFailed_foldl {g : State → Nat → State}
    (hg : ∀ u i, u.hasFailed rec cause at' → (g u i).hasFailed rec cause at') (is : List Nat)
    (h : s.hasFailed rec cause at') : (is.foldl g s).hasFailed rec cause at' := by
  induction is generalizing s with
  | nil => exact h
  | cons i is ih => exact ih (hg s i h)

theorem hasFailed_releaseBlocks (n : Nat) (h : s.hasFailed rec cause at') :
    (s.releaseBlocks rec n).hasFailed rec cause at' := by
  obtain ⟨r, hr, -⟩ := id h
  have hmod := hasFailed_modRestore (f := fun r => { r with remaining := r.remaining - n })
    (fun _ => ⟨rfl, rfl, rfl⟩) h
  have heq := askRelease_eq (s.modRestore rec fun r => { r with remaining := r.remaining - n }) r.principal n
  rw [releaseBlocks_eq hr]
  refine hasFailed_congr ?_ hmod
  rw [heq.1]
  rfl

theorem hasFailed_settlePin (h : s.hasFailed rec cause at') : (s.settlePin rec).hasFailed rec cause at' := by
  obtain ⟨r, hr, hst, hc, ha⟩ := id h
  unfold State.settlePin
  rw [hr]
  dsimp only
  split
  · exact ⟨_, restore_dropRestorePin hr, hst, hc, ha⟩
  · exact h

theorem hasFailed_raiseEnd (h : s.hasFailed rec cause at') : (s.raiseEnd rec).hasFailed rec cause at' := by
  obtain ⟨r, hr, -⟩ := id h
  rw [raiseEnd_eq hr]
  exact hasFailed_congr (restore_raise _ _ _) h

/-- An active restore one of whose steps fails, fails with it (R98). -/
theorem failStep_fails {i : Nat} {r : Restore} {x : Step} (why : StepReason) (hr : s.restore rec = some r)
    (hactive : r.state.isActive = true) (hx : r.steps[i]? = some x) (hended : x.ended = false) :
    (s.failStep rec i why).hasFailed rec (some .step) (some (i, why)) := by
  have hend : r.stepEnded i = false := by
    unfold Restore.stepEnded
    rw [hx]
    exact hended
  obtain ⟨u, hu⟩ : ∃ u, u = ((s.modStep rec i fun t =>
    { t with state := .failed, reason := some why, again := false }).dropStep rec i).unlockStep rec i := ⟨_, rfl⟩
  have hur : ∃ q, u.restore rec = some q := by
    rw [hu, restore_unlockStep, restore_dropStep]
    exact ⟨_, (State.restore_modRestore s rec _).trans (congrArg _ hr)⟩
  obtain ⟨q, hq⟩ := hur
  have hfin : (u.finishAs rec .failed (some .step) (some (i, why))).hasFailed rec (some .step) (some (i, why)) :=
    ⟨_, (State.restore_modRestore u rec _).trans (congrArg _ hq), rfl, rfl, rfl⟩
  unfold State.failStep
  rw [hr]
  dsimp only
  rw [hend, if_neg Bool.false_ne_true, if_pos hactive, ← hu]
  refine hasFailed_settlePin (hasFailed_raiseEnd (hasFailed_congr (s := State.releaseBlocks _ rec _) rfl
    (hasFailed_releaseBlocks _ (hasFailed_foldl (fun w j h => ?_) _ (hasFailed_foldl (fun w j h => ?_) _ hfin)))))
  · exact hasFailed_unlockStep j (hasFailed_dropStep j (hasFailed_modStep j _ h))
  · exact hasFailed_unlockStep j (hasFailed_dropStep j (hasFailed_modStep j _ h))

end

/-! ### A directive handed to the Link Unit -/

section
variable {s : State} {l : Link} {k : DirKind} {who : Issuer} {refs : List (Nat × Nat × Nat)} {b : DirBody}
  {chunks : List (Nat × Nat)}

theorem handDirective_eq (s : State) (l : Link) (k : DirKind) (who : Issuer) (refs : List (Nat × Nat × Nat))
    (b : DirBody) (chunks : List (Nat × Nat)) :
    s.handDirective l k who refs b chunks = { s with links := (s.handDirective l k who refs b chunks).links } := rfl

/-- The entry that a directive takes in its link's list (R175). -/
def State.newDirective (s : State) (l : Link) (k : DirKind) (who : Issuer) (refs : List (Nat × Nat × Nat)) :
    Directive :=
  { tag := (s.link l).nextTag, kind := k, issuer := who, issued := s.sup.elapsed
    limit := s.sup.settings.directiveWait, refs := refs }

theorem handDirective_link : (s.handDirective l k who refs b chunks).link l =
    { s.link l with
      tx := (s.link l).tx ++ .directive (s.link l).nextTag b ::
        chunks.map fun c => .chunk (s.link l).nextTag c.1 c.2
      directives := (s.link l).directives ++ [s.newDirective l k who refs]
      placeWaits := (s.link l).placeWaits.filter (· ≠ who)
      tagCounter := ((s.link l).nextTag + 1) % 65536
      idle := false, idleFrom := s.sup.elapsed } := by
  unfold State.handDirective State.busy
  rw [State.link_modLink_self, State.link_modLink_self]
  rfl

/-- What handing a directive shows on its link. -/
theorem handDirective_spec :
    ((s.handDirective l k who refs b chunks).link l).directives =
        (s.link l).directives ++ [s.newDirective l k who refs] ∧
      TxFrame.directive (s.newDirective l k who refs).tag b ∈ ((s.handDirective l k who refs b chunks).link l).tx ∧
      ((s.handDirective l k who refs b chunks).link l).idle = false := by
  rw [handDirective_link]
  exact ⟨rfl, List.mem_append_right _ List.mem_cons_self, rfl⟩

theorem placeFree_of (hup : (s.link l).up = true) (hroom : (s.link l).directives.length < 16)
    (hnone : (s.link l).placeWaits = []) : s.placeFree l who = true := by
  unfold State.placeFree
  have hlt : (s.link l).directives.length < Config.directiveListSize := hroom
  rw [hup, hnone, decide_eq_true hlt]
  rfl

end

/-! ### The step taken up next -/

section
variable {s : State} {rec i : Nat} {r : Restore} {x : Step} {v : Version}

/-- The first WAITING step is the next, where it is not passed over and fewer than four are in flight (R92). -/
theorem nextStep_first (hx : r.steps[i]? = some x) (hxs : x.state = .waiting)
    (hfirst : ∀ j y, j < i → r.steps[j]? = some y → y.state ≠ .waiting) (hflight : r.inFlight < 4)
    (hpass : s.passedOver r i x = false) : s.nextStep r = some i := by
  have hlt : i < r.steps.length := by
    by_contra hge
    rw [List.getElem?_eq_none (Nat.not_lt.mp hge)] at hx
    cases hx
  refine List.find?_range_eq_some.mpr ⟨?_, List.mem_range.mpr hlt, fun j hj => ?_⟩
  · have hlt : r.inFlight < Config.stepsInFlight := hflight
    rw [hx]
    dsimp only
    rw [hxs, hpass, decide_eq_true hlt, Bool.or_true]
    rfl
  · cases hy : r.steps[j]? with
    | none => rfl
    | some y => simp [hfirst j y hj hy]

theorem sourceOf_of (hx : r.steps[i]? = some x) (hsrc : x.src = some v.birth)
    (hv : (s.extent r.vol (r.first + i)).version v.birth = some v) : s.sourceOf r i = some v := by
  unfold State.sourceOf
  rw [hx]
  dsimp only
  rw [hsrc]
  exact hv

theorem passedOver_sound (hx : r.steps[i]? = some x) (hsrc : x.src = some v.birth)
    (hv : (s.extent r.vol (r.first + i)).version v.birth = some v) (hrep : v.repair = .sound) :
    s.passedOver r i x = false := by
  unfold State.passedOver
  rw [sourceOf_of hx hsrc hv]
  dsimp only
  rw [hrep]
  simp

theorem passedOver_fetch (h : x.kind = .fetch) : s.passedOver r i x = false := by
  unfold State.passedOver
  rw [h]
  rfl

theorem passedOver_damaged
    (h : s.damaged r.vol (r.first + i) = true ∨ s.damaged (r.target i).1 (r.target i).2 = true) :
    s.passedOver r i x = false := by
  unfold State.passedOver
  rcases h with h | h <;> rw [h] <;> simp

theorem exec_stepTakeUp (hop : s.sup.op = .active) (hr : s.restore rec = some r) (hrr : r.state = .running)
    (hpause : r.pausing = false) (hnext : s.nextStep r = some i) :
    Machine.exec (.stepTakeUp rec []) s = .next (State.finish (State.takeUp { s with sent := [] } rec i)) := by
  have hrun : s.sup.op ≠ .halted := by rw [hop]; exact nofun
  have htakes : State.takesSteps { s with sent := [] } r = true := by
    simp [State.takesSteps, hrr, hpause, hop]
  have hr' : State.restore { s with sent := [] } rec = some r := hr
  have hnext' : State.nextStep { s with sent := [] } r = some i := hnext
  refine (act_withErrs_nil _ hrun).trans (congrArg Host.Outcome.next ?_)
  rw [hr']
  dsimp only
  rw [if_pos htakes, hnext']

/-- A step whose source or target record is damaged fails, and its restore (R93, R98). -/
theorem takeUp_damaged (hr : s.restore rec = some r)
    (h : s.damaged r.vol (r.first + i) = true ∨ s.damaged (r.target i).1 (r.target i).2 = true) :
    s.takeUp rec i = s.failStep rec i .damaged := by
  unfold State.takeUp
  rw [hr]
  exact if_pos h

/-! ### COPY -/

/-- A COPY issued with a reference to its source (R93). -/
def State.copyIssued (s : State) (rec i : Nat) (r : Restore) (l : Link) (loc : Nat) : State :=
  ((((s.setExtent r.vol (r.first + i) { s.extent r.vol (r.first + i) with
      versions := (s.extent r.vol (r.first + i)).versions.map (modRefs loc (· + 1)) }).modVolume r.vol fun v =>
        { v with refTotal := v.refTotal + 1 }).modStep rec i fun x =>
          { x with state := .issued, again := false })).handDirective l .copy (.step rec i)
    [(r.vol, r.first + i, loc)] (.copy loc (r.target i).1 (r.target i).2) []

theorem mem_of_version {e : Extent} {b : Nat} (h : e.version b = some v) : v ∈ e.versions := List.mem_of_find?_eq_some h

theorem carries_of_mem {e : Extent} {loc refs : Nat} (hmem : v ∈ e.versions) (hres : v.res = .here loc refs) :
    e.carries loc = true := by
  refine List.any_eq_true.mpr ⟨v, hmem, decide_eq_true ?_⟩
  unfold Version.loc
  rw [hres]

theorem takeUp_copy {loc refs : Nat} {l : Link} (hr : s.restore rec = some r) (hx : r.steps[i]? = some x)
    (hkind : x.kind = .copy) (hloc : x.loc = some loc) (hsrc : x.src = some v.birth)
    (hv : (s.extent r.vol (r.first + i)).version v.birth = some v) (hres : v.res = .here loc refs)
    (hrep : v.repair = .sound) (hd : s.damaged r.vol (r.first + i) = false)
    (hdt : s.damaged (r.target i).1 (r.target i).2 = false) (hown : s.ownerOf (r.target i).1 = some l)
    (hplace : s.placeFree l (.step rec i) = true) : s.takeUp rec i = s.copyIssued rec i r l loc := by
  have hinc : s.incRef r.vol (r.first + i) loc = .granted
      ((s.setExtent r.vol (r.first + i) { s.extent r.vol (r.first + i) with
        versions := (s.extent r.vol (r.first + i)).versions.map (modRefs loc (· + 1)) }).modVolume r.vol fun v =>
          { v with refTotal := v.refTotal + 1 }) := by
    unfold State.incRef
    rw [hd, if_neg Bool.false_ne_true]
    exact if_pos (carries_of_mem (mem_of_version hv) hres)
  unfold State.takeUp
  rw [hr]
  dsimp only
  rw [hd, hdt, if_neg (by simp), hx, sourceOf_of hx hsrc hv, hown]
  dsimp only
  rw [hkind, if_neg (by decide), hrep, if_neg (by decide), hplace, if_neg (by decide), hloc, Option.getD_some, hinc]
  rfl

theorem copyIssued_spec {loc refs : Nat} {l : Link} (hr : s.restore rec = some r) (hx : r.steps[i]? = some x)
    (hv : (s.extent r.vol (r.first + i)).version v.birth = some v) (hres : v.res = .here loc refs) :
    (s.copyIssued rec i r l loc).restore rec =
        some { r with steps := r.steps.set i { x with state := .issued, again := false } } ∧
      ((s.copyIssued rec i r l loc).link l).directives = (s.link l).directives ++
        [s.newDirective l .copy (.step rec i) [(r.vol, r.first + i, loc)]] ∧
      TxFrame.directive (s.newDirective l .copy (.step rec i) [(r.vol, r.first + i, loc)]).tag
        (.copy loc (r.target i).1 (r.target i).2) ∈ ((s.copyIssued rec i r l loc).link l).tx ∧
      ((s.copyIssued rec i r l loc).link l).idle = false ∧
      { v with res := .here loc (refs + 1) } ∈
        ((s.copyIssued rec i r l loc).extent r.vol (r.first + i)).versions := by
  obtain ⟨e, he⟩ : ∃ e, e = ({ s.extent r.vol (r.first + i) with
    versions := (s.extent r.vol (r.first + i)).versions.map (modRefs loc (· + 1)) } : Extent) := ⟨_, rfl⟩
  obtain ⟨w, hw⟩ : ∃ w, w = ((s.setExtent r.vol (r.first + i) e).modVolume r.vol fun v =>
    { v with refTotal := v.refTotal + 1 }).modStep rec i fun x => { x with state := .issued, again := false } :=
      ⟨_, rfl⟩
  have hcopy : s.copyIssued rec i r l loc = w.handDirective l .copy (.step rec i) [(r.vol, r.first + i, loc)]
      (.copy loc (r.target i).1 (r.target i).2) [] := by
    rw [hw, he]
    rfl
  have hwl (j : Link) : w.link j = s.link j := by rw [hw]; rfl
  have hnew : w.newDirective l .copy (.step rec i) [(r.vol, r.first + i, loc)] =
      s.newDirective l .copy (.step rec i) [(r.vol, r.first + i, loc)] := by rw [hw]; rfl
  obtain ⟨hdirs, htx, hidle⟩ := handDirective_spec (s := w) (l := l) (k := .copy) (who := .step rec i)
    (refs := [(r.vol, r.first + i, loc)]) (b := .copy loc (r.target i).1 (r.target i).2) (chunks := [])
  rw [hnew, hwl] at hdirs
  rw [hnew] at htx
  rw [hcopy]
  refine ⟨?_, hdirs, htx, hidle, ?_⟩
  · have hwr : w.restore rec = some { r with
        steps := modAt r.steps i fun x => { x with state := .issued, again := false } } := by
      rw [hw]
      exact (State.restore_modRestore _ rec _).trans (congrArg _ hr)
    rw [modAt_eq_set _ hx] at hwr
    exact hwr
  · have hext : (w.handDirective l .copy (.step rec i) [(r.vol, r.first + i, loc)]
        (.copy loc (r.target i).1 (r.target i).2) []).extent r.vol (r.first + i) = e := by
      rw [hw]
      exact extent_setExtent_self s r.vol (r.first + i) e
    rw [hext, he]
    refine List.mem_map.mpr ⟨v, mem_of_version hv, ?_⟩
    unfold modRefs
    rw [hres]
    exact if_pos rfl

/-! ### FETCH -/

/-- The fetch entries of a version with data: one for each chunk (R94). -/
theorem mem_fetchEntries {vol ext k : Nat} (hocc : 0 < v.occ) (hk : k < 16) :
    ({ holder := .step rec i, vol := vol, ext := ext, birth := v.birth, idx := some k, code := v.codeAt k } :
      FetchEntry) ∈ fetchEntries rec i vol ext v := by
  unfold fetchEntries
  rw [if_neg (Nat.ne_of_gt hocc)]
  exact List.mem_map.mpr ⟨k, List.mem_range.mpr hk, rfl⟩

theorem length_fetchEntries {vol ext : Nat} (hocc : 0 < v.occ) : (fetchEntries rec i vol ext v).length = 16 := by
  unfold fetchEntries
  rw [if_neg (Nat.ne_of_gt hocc), List.length_map, List.length_range]

theorem mem_placeIn {q es : List FetchEntry} {e : FetchEntry} (atHead : Bool) :
    e ∈ placeIn q es atHead ↔ e ∈ q ∨ e ∈ es := by
  have hsplit (xs : List FetchEntry) : e ∈ xs ↔
      (e ∈ xs.filter FetchEntry.isRepair ∨ e ∈ xs.filter fun e => !e.isRepair) := by
    simp only [List.mem_filter]
    cases e.isRepair <;> simp
  rw [hsplit q, hsplit es]
  unfold placeIn
  cases atHead <;> simp only [Bool.false_eq_true, if_false, if_true, List.mem_append] <;> tauto

/-- An opening asked for leaves the Fetch Queue and the waits for room. -/
theorem askOpening_fetch (s : State) :
    s.askOpening.off.fetchQueue = s.off.fetchQueue ∧ s.askOpening.off.roomWaits = s.off.roomWaits := by
  unfold State.askOpening
  split <;> exact ⟨rfl, rfl⟩

theorem askOpening_rst (s : State) : s.askOpening.rst = s.rst := by
  unfold State.askOpening
  split <;> rfl

/-- The Fetch Queue and the waits for room. -/
def State.fetching (s : State) : List FetchEntry × List RoomWait := (s.off.fetchQueue, s.off.roomWaits)

theorem chooseDir_fetching (s : State) : s.chooseDir.fetching = s.fetching := by
  unfold State.chooseDir State.modOff
  dsimp only
  split
  · rfl
  · split <;> rfl

theorem redirectOnce_fetching (s : State) : s.redirectOnce.fetching = s.fetching := by
  unfold State.redirectOnce
  dsimp only
  repeat' split
  all_goals first
    | exact chooseDir_fetching s
    | rfl

/-- With no wait for room, the link's settling leaves the Fetch Queue. -/
theorem settleLink_fetching (h : s.off.roomWaits = []) : s.settleLink.fetching = s.fetching := by
  have hserve : s.clearShed.serveRoom = s.clearShed := by
    unfold State.serveRoom
    have hnil : s.clearShed.off.roomWaits = [] := h
    rw [hnil]
    rfl
  refine iter_keeps (P := fun u => u.fetching = s.fetching) (fun u hu => (redirectOnce_fetching u).trans hu) 3 ?_
  rw [hserve]
  rfl

/-- A FETCH step issued: its entries are in the Fetch Queue (R94). -/
def State.fetchIssued (s : State) (rec i : Nat) (r : Restore) (v : Version) : State :=
  ((s.modOff fun o => { o with
    roomWaits := o.roomWaits.filter fun w => decide (w.holder ≠ .step rec i) }).modStep rec i fun t =>
      { t with state := .fetching, again := false, marker := false }).placeFetch
    (fetchEntries rec i r.vol (r.first + i) v) false

theorem takeUp_fetch {l : Link} (hr : s.restore rec = some r) (hx : r.steps[i]? = some x) (hkind : x.kind = .fetch)
    (hsrc : x.src = some v.birth) (hv : (s.extent r.vol (r.first + i)).version v.birth = some v)
    (hocc : 0 < v.occ) (hd : s.damaged r.vol (r.first + i) = false)
    (hdt : s.damaged (r.target i).1 (r.target i).2 = false) (hown : s.ownerOf (r.target i).1 = some l)
    (hwaits : s.off.roomWaits = []) (hroom : s.off.fetchQueue.length + s.fetchesOut + 16 ≤ 32) :
    s.takeUp rec i = s.fetchIssued rec i r v := by
  have hfirst : s.firstRoom = none := by
    unfold State.firstRoom
    rw [hwaits]
    rfl
  have hfits : s.fetchRoom (fetchEntries rec i r.vol (r.first + i) v).length = true := by
    rw [length_fetchEntries hocc]
    exact decide_eq_true hroom
  have hissue : s.issueFetch rec i r v = s.fetchIssued rec i r v := by
    unfold State.issueFetch
    rw [hfirst]
    dsimp only
    rw [hfits, Bool.true_and, if_pos rfl]
    rfl
  unfold State.takeUp
  rw [hr]
  dsimp only
  rw [hd, hdt, if_neg (by simp), hx, sourceOf_of hx hsrc hv, hown]
  dsimp only
  rw [if_pos hkind, hissue]

/-! ### PUT -/

theorem exec_put (hop : s.sup.op = .standby ∨ s.sup.op = .active) :
    Machine.exec (.put rec i []) s = .next (State.finish (State.issuePut { s with sent := [] } rec i)) := by
  have hrun : s.sup.op ≠ .halted := by rcases hop with h | h <;> rw [h] <;> decide
  exact (act_withErrs_nil _ hrun).trans (congrArg Host.Outcome.next (if_pos (running_iff.mpr hop)))

/-- A PUT issued with the chunks of its step (R95). -/
def State.putIssued (s : State) (rec i : Nat) (r : Restore) (l : Link) (occ : Nat) : State :=
  (((s.modStep rec i fun x =>
    { x with state := .putting, inPause := r.pausing || decide (r.state = .paused) }).handDirective l
    .put (.step rec i) [] (.put (r.target i).1 (r.target i).2 occ (s.chunksOf (.step rec i) .full).length)
      (s.chunksOf (.step rec i) .full)).setSlots ((s.chunksOf (.step rec i) .full).map Prod.snd) .sending)

theorem issuePut_issues {l : Link} (hr : s.restore rec = some r) (hx : r.steps[i]? = some x)
    (hxs : x.state = .fetching) (hready : x.marker = true ∨ (s.chunksOf (.step rec i) .full).length = 16)
    (hsrc : x.src = some v.birth) (hv : (s.extent r.vol (r.first + i)).version v.birth = some v)
    (hown : s.ownerOf (r.target i).1 = some l) (hplace : s.placeFree l (.step rec i) = true) :
    s.issuePut rec i = s.putIssued rec i r l v.occ := by
  have hchunks : s.chunksReady rec i x = true := by
    unfold State.chunksReady
    rw [hxs]
    simpa using hready
  unfold State.issuePut
  rw [hr]
  dsimp only
  rw [hx, sourceOf_of hx hsrc hv, hown]
  dsimp only
  rw [hchunks, if_neg (by decide), hplace, if_neg (by decide)]
  rfl

theorem setSlots_eq (s : State) (ns : List Nat) (st : SlotState) :
    s.setSlots ns st = { s with str := { s.str with slots := (s.setSlots ns st).str.slots } } := by
  unfold State.setSlots
  induction ns generalizing s with
  | nil => rfl
  | cons n ns ih =>
    rw [List.foldl_cons, ih]
    rfl

/-- The slots named are in the state written; the others are as they were. -/
theorem slot_setSlots (s : State) (ns : List Nat) (st : SlotState) (n : Nat) :
    (s.setSlots ns st).slot n = if n ∈ ns then (s.slot n).map fun x => { x with state := st } else s.slot n := by
  unfold State.setSlots
  induction ns generalizing s with
  | nil => rfl
  | cons m ns ih =>
    rw [List.foldl_cons, ih]
    by_cases hm : m = n
    · subst hm
      rw [if_pos List.mem_cons_self, State.slot_modSlot, Option.map_map]
      by_cases hmem : m ∈ ns
      · rw [if_pos hmem]
        rfl
      · rw [if_neg hmem]
    · have hother : (s.modSlot m fun x => { x with state := st }).slot n = s.slot n := tget_tmod_ne _ _ hm
      rw [hother]
      by_cases hmem : n ∈ ns
      · rw [if_pos hmem, if_pos (List.mem_cons_of_mem _ hmem)]
      · rw [if_neg hmem, if_neg fun h => (List.mem_cons.mp h).elim (fun h => hm h.symm) hmem]

theorem mem_sortBy {α : Type} (lt : α → α → Bool) (xs : List α) (a : α) : a ∈ sortBy lt xs ↔ a ∈ xs := by
  induction xs with
  | nil => rfl
  | cons x xs ih => rw [sortBy, mem_insertBy, ih, List.mem_cons]

/-- A holder's slot in a state is one of its chunks. -/
theorem mem_chunksOf {h : SlotHolder} {st : SlotState} {n : Nat} {y : Slot} (hy : s.slot n = some y)
    (hh : y.holder = h) (hs : y.state = st) : n ∈ (s.chunksOf h st).map Prod.snd := by
  refine List.mem_map.mpr ⟨(y.idx, n), ?_, rfl⟩
  unfold State.chunksOf
  rw [mem_sortBy]
  refine List.mem_map.mpr ⟨(n, y), List.mem_filter.mpr ⟨mem_of_tget hy, ?_⟩, rfl⟩
  simp [hh, hs]

end

end Sys2Proof.Machine

open Sys2Proof Sys2Proof.Machine

/-- Settles O41. -/
theorem stepsAreTakenUpAndPut : Obligations.StepsAreTakenUpAndPut := by
  refine ⟨?_, ?_, ?_, ?_⟩
  · intro s rec i loc refs r x v l hop hcalm hr hrr hpause hx hxs hfirst hflight hkind hloc hsrc hv hres hrep hd hdt
      hown hup hroom hnone
    let a : State := { s with sent := [] }
    have hnext := nextStep_first hx hxs hfirst hflight (passedOver_sound (s := s) hx hsrc hv hrep)
    have htake := takeUp_copy (s := a) hr hx hkind hloc hsrc hv hres hrep hd hdt hown (placeFree_of hup hroom hnone)
    obtain ⟨urest, udirs, utx, uidle, uver⟩ := copyIssued_spec (s := a) (l := l) hr hx hv hres
    have hcalmu : (a.copyIssued rec i r l loc).calm := hcalm
    have hrunu : (a.copyIssued rec i r l loc).sup.op ≠ .halted := by
      change s.sup.op ≠ .halted
      rw [hop]
      exact nofun
    obtain ⟨u, hu⟩ : ∃ u, u = a.copyIssued rec i r l loc := ⟨_, rfl⟩
    rw [← hu] at htake urest udirs utx uidle uver hcalmu hrunu
    obtain ⟨-, -, -, fcat, frst, -⟩ := finish_beside_parts hcalmu hrunu
    have flink := finish_link hcalmu hrunu l
    have hexec := exec_stepTakeUp hop hr hrr hpause hnext
    refine ⟨u.finish, a.newDirective l .copy (.step rec i) [(r.vol, r.first + i, loc)],
      hexec.trans (congrArg (fun t : State => Host.Outcome.next t.finish) htake), ?_, ?_, rfl, rfl, rfl,
      rfl, rfl, ?_, ?_, ?_⟩
    · rw [State.restore, frst]
      exact urest
    · rw [flink]
      exact udirs
    · rw [flink]
      exact utx
    · rw [flink]
      exact uidle
    · rw [State.extent, fcat]
      exact uver
  · intro s rec i r x v l hop hcalm hr hrr hpause hx hxs hfirst hflight hkind hsrc hv hocc hd hdt hown hwaits hroom
    let a : State := { s with sent := [] }
    have hnext := nextStep_first hx hxs hfirst hflight (passedOver_fetch (s := s) hkind)
    have htake := takeUp_fetch (s := a) hr hx hkind hsrc hv hocc hd hdt hown hwaits hroom
    obtain ⟨w, hw⟩ : ∃ w, w = ((a.modOff fun o => { o with
      roomWaits := o.roomWaits.filter fun w => decide (w.holder ≠ .step rec i) }).modStep rec i fun t =>
        { t with state := .fetching, again := false, marker := false }) := ⟨_, rfl⟩
    have htake : a.takeUp rec i = w.placeFetch (fetchEntries rec i r.vol (r.first + i) v) false := by
      rw [htake, hw]
      rfl
    have hwwaits : w.off.roomWaits = [] := by
      rw [hw]
      change s.off.roomWaits.filter _ = []
      rw [hwaits]
      rfl
    obtain ⟨u, hu⟩ : ∃ u, u = w.placeFetch (fetchEntries rec i r.vol (r.first + i) v) false := ⟨_, rfl⟩
    rw [← hu] at htake
    obtain ⟨hqueue, hwait⟩ := askOpening_fetch (w.modOff fun o => { o with
      fetchQueue := placeIn o.fetchQueue (fetchEntries rec i r.vol (r.first + i) v) false })
    have hurst : u.rst = w.rst := by
      rw [hu]
      exact askOpening_rst _
    have huwaits : u.off.roomWaits = [] := by
      rw [hu]
      exact hwait.trans hwwaits
    have huq : u.off.fetchQueue = placeIn w.off.fetchQueue (fetchEntries rec i r.vol (r.first + i) v) false := by
      rw [hu]
      exact hqueue
    have hkeeps : u.sup = s.sup ∧ u.tally = s.tally ∧ u.pat = s.pat := by
      rw [hu, hw]
      unfold State.placeFetch State.askOpening
      split <;> exact ⟨rfl, rfl, rfl⟩
    obtain ⟨usup, utally, upat⟩ := hkeeps
    have hcalmu : u.calm := by
      rw [State.calm, State.tallyStill, State.patrolStill, utally, upat]
      exact hcalm
    have hrunu : u.sup.op ≠ .halted := by
      rw [usup, hop]
      exact nofun
    have hexec := exec_stepTakeUp hop hr hrr hpause hnext
    refine ⟨u.finish, hexec.trans (congrArg (fun t : State => Host.Outcome.next t.finish) htake), ?_, fun k hk => ?_⟩
    · have hwr : w.restore rec = some { r with
          steps := modAt r.steps i fun t => { t with state := .fetching, again := false, marker := false } } := by
        rw [hw]
        exact (State.restore_modRestore _ rec _).trans (congrArg _ hr)
      rw [modAt_eq_set _ hx] at hwr
      rw [State.restore, finish_rst, hurst]
      exact hwr
    · have hf : u.settleLink.off.fetchQueue = u.off.fetchQueue := congrArg Prod.fst (settleLink_fetching huwaits)
      rw [finish_calm hcalmu hrunu, hf, huq, mem_placeIn]
      exact .inr (mem_fetchEntries hocc hk)
  · intro s rec i r x hop hr hrr hpause hx hxs hfirst hflight hd
    let a : State := { s with sent := [] }
    have hnext := nextStep_first hx hxs hfirst hflight (passedOver_damaged (s := s) hd)
    have hexec := exec_stepTakeUp hop hr hrr hpause hnext
    have htake := takeUp_damaged (s := a) hr hd
    obtain ⟨q, hq, hst, hc, ha⟩ := failStep_fails (s := a) .damaged hr (by rw [hrr]; rfl) hx (by
      unfold Step.ended
      rw [hxs]
      rfl)
    refine ⟨_, q, hexec.trans (congrArg (fun t : State => Host.Outcome.next t.finish) htake), ?_, hst, hc, ha⟩
    rw [State.restore, finish_rst]
    exact hq
  · intro s rec i r x v l hop hcalm hr hx hxs hready hsrc hv hown hup hroom hnone
    let a : State := { s with sent := [] }
    have hexec := exec_put (rec := rec) (i := i) hop
    have hput := issuePut_issues (s := a) hr hx hxs hready hsrc hv hown (placeFree_of hup hroom hnone)
    obtain ⟨w, hw⟩ : ∃ w, w = a.modStep rec i fun x =>
      { x with state := .putting, inPause := r.pausing || decide (r.state = .paused) } := ⟨_, rfl⟩
    obtain ⟨cs, hcs⟩ : ∃ cs, cs = s.chunksOf (.step rec i) .full := ⟨_, rfl⟩
    obtain ⟨y, hy⟩ : ∃ y, y = w.handDirective l .put (.step rec i) []
      (.put (r.target i).1 (r.target i).2 v.occ cs.length) cs := ⟨_, rfl⟩
    have hu : a.putIssued rec i r l v.occ = y.setSlots (cs.map Prod.snd) .sending := by
      rw [hy, hw, hcs]
      rfl
    obtain ⟨hdirs, htx, hidle⟩ := handDirective_spec (s := w) (l := l) (k := .put) (who := .step rec i) (refs := [])
      (b := .put (r.target i).1 (r.target i).2 v.occ cs.length) (chunks := cs)
    rw [← hy] at hdirs htx hidle
    have hset := setSlots_eq y (cs.map Prod.snd) .sending
    obtain ⟨u, hudef⟩ : ∃ u, u = y.setSlots (cs.map Prod.snd) .sending := ⟨_, rfl⟩
    rw [← hudef] at hset hu
    have hkeeps : u.sup = s.sup ∧ u.tally = s.tally ∧ u.pat = s.pat ∧ u.rst = w.rst ∧ u.link l = y.link l := by
      rw [hset, hy, hw]
      exact ⟨rfl, rfl, rfl, rfl, rfl⟩
    obtain ⟨usup, utally, upat, urst, ulink⟩ := hkeeps
    have hcalmu : u.calm := by
      rw [State.calm, State.tallyStill, State.patrolStill, utally, upat]
      exact hcalm
    have hrunu : u.sup.op ≠ .halted := by
      rw [usup]
      rcases hop with h | h <;> rw [h] <;> decide
    have flink := finish_link hcalmu hrunu l
    have hwl : (w.link l).directives = (s.link l).directives := by rw [hw]; rfl
    obtain ⟨-, fslots, -⟩ := finish_lasting hcalmu.2 hrunu
    refine ⟨u.finish, w.newDirective l .put (.step rec i) [],
      hexec.trans (congrArg (fun t : State => Host.Outcome.next t.finish) (hput.trans hu)), ?_, ?_, rfl, rfl, rfl, ?_,
      fun n z hz hh hs => ?_⟩
    · have hwr : w.restore rec = some { r with steps := modAt r.steps i fun x =>
          { x with state := .putting, inPause := r.pausing || decide (r.state = .paused) } } := by
        rw [hw]
        exact (State.restore_modRestore _ rec _).trans (congrArg _ hr)
      rw [modAt_eq_set _ hx] at hwr
      rw [State.restore, finish_rst, urst]
      exact hwr
    · rw [flink, ulink, hdirs, hwl]
    · rw [flink, ulink, ← hcs]
      exact htx
    · have hys : y.slot n = s.slot n := by rw [hy, hw]; rfl
      have hmem : n ∈ cs.map Prod.snd := by
        rw [hcs]
        exact mem_chunksOf hz hh hs
      rw [State.slot, fslots, hudef]
      exact (slot_setSlots y (cs.map Prod.snd) .sending n).trans
        ((if_pos hmem).trans (by rw [hys, hz]; rfl))

end

section
/-! PROOF. COPY_DONE and PUT_DONE make restored versions (R63, R96, R97). -/

namespace Sys2Proof.Machine

/-! ### The live version of any plan -/

/-- What a Commit or a restored-version record writes of its live version (R54, R55). -/
def State.isFresh (s : State) (loc occ : Nat) (codes : List Code) (y : Version) : Prop :=
  y.loc = some loc ∧ y.occ = occ ∧ y.codes = codes ∧ y.shipped = false ∧ y.verified = s.sup.clock

section
variable {s : State} {vol ext gen loc occ : Nat} {codes : List Code}

theorem isFresh_new : s.isFresh loc occ codes (newVersion s.sup.clock gen loc occ codes) := ⟨rfl, rfl, rfl, rfl, rfl⟩

theorem live_of {vs : List Version} {Q : Version → Prop} (hall : ∀ w ∈ vs, w.death = none → Q w)
    (hex : ∃ w ∈ vs, w.death = none) : ∃ y, (vs.find? fun w => w.death.isNone) = some y ∧ Q y := by
  obtain ⟨w, hw, hd⟩ := hex
  cases hf : vs.find? fun w => w.death.isNone with
  | none =>
    have := List.find?_eq_none.mp hf w hw
    rw [hd] at this
    exact absurd rfl this
  | some y =>
    have hnone := List.find?_some hf
    exact ⟨y, rfl, hall y (List.mem_of_find?_eq_some hf) (Option.isNone_iff_eq_none.mp hnone)⟩

theorem thinnedOf_dead {vs : List Version} {x : Version} (h : s.thinnedOf vol vs = some x) : x.death ≠ none := by
  have hlast {p : Version → Bool} {cs : List Version} {y : Version} (hy : lowestBirth (cs.filter p) = some y) :
      y ∈ cs :=
    (List.mem_filter.mp (List.mem_of_getLast? hy)).1
  have hcand (y : Version) (hy : y ∈ vs.filter fun v =>
      v.death.isSome && !(s.pinnedHeld vol v) && (decide (v.res = .offsite) || decide (v.refs = 0))) :
      y.death ≠ none := by
    have hc := (List.mem_filter.mp hy).2
    simp only [Bool.and_eq_true] at hc
    intro hn
    rw [hn] at hc
    exact Bool.false_ne_true hc.1.1
  unfold State.thinnedOf at h
  dsimp only at h
  split at h
  next y hy =>
    rw [← Option.some.inj h]
    exact hcand y (hlast hy)
  next =>
    split at h
    next y hy =>
      rw [← Option.some.inj h]
      exact hcand y (hlast hy)
    next => exact hcand x (List.mem_of_getLast? h)

/-- The list that is left behind a fresh version, the fresh one heading it (R55, R57). -/
theorem live_behind {rest : List Version} (hrest : ∀ w ∈ rest, w.death ≠ none) {thin : Option Version}
    (hthin : ∀ x, thin = some x → x.death ≠ none) :
    ∃ y, ((((newVersion s.sup.clock gen loc occ codes :: rest).filter (s.stays vol)).filter fun v =>
      decide (some v ≠ thin)).find? fun w => w.death.isNone) = some y ∧ s.isFresh loc occ codes y := by
  refine live_of (fun w hw hd => ?_) ⟨newVersion s.sup.clock gen loc occ codes, ?_, rfl⟩
  · have hmem := (List.mem_filter.mp (List.mem_filter.mp hw).1).1
    rcases List.mem_cons.mp hmem with rfl | hmem
    · exact isFresh_new
    · exact absurd hd (hrest w hmem)
  · refine List.mem_filter.mpr ⟨List.mem_filter.mpr ⟨List.mem_cons_self, stays_live rfl⟩, decide_eq_true fun he => ?_⟩
    exact hthin _ he.symm rfl

/-- The plan's live version is the one written (R54 to R57). -/
theorem planCommit_live (e : Extent) :
    ∃ y, ((s.planCommit vol ext gen e loc occ codes).versions.find? fun w => w.death.isNone) = some y ∧
      s.isFresh loc occ codes y := by
  have hthin (vs : List Version) (x : Version)
      (h : (if vs.length ≤ Config.versionListSize then none else s.thinnedOf vol vs) = some x) : x.death ≠ none := by
    split at h
    · cases h
    · exact thinnedOf_dead h
  unfold State.planCommit
  dsimp only
  cases hlive : e.live with
  | none =>
    refine live_behind (fun w hw hd => ?_) (hthin _)
    have := List.find?_eq_none.mp hlive w hw
    rw [hd] at this
    exact this rfl
  | some lv =>
    dsimp only
    split
    · have hnone : lv.death.isNone = true := List.find?_some (p := fun w : Version => w.death.isNone) hlive
      have hlv : lv ∈ e.versions ∧ lv.death = none :=
        ⟨List.mem_of_find?_eq_some hlive, Option.isNone_iff_eq_none.mp hnone⟩
      refine live_of (fun w hw hd => ?_) ?_
      · obtain ⟨z, hz, rfl⟩ := List.mem_map.mp (List.mem_filter.mp hw).1
        split at hd
        next hn =>
          rw [if_pos hn]
          exact ⟨rfl, rfl, rfl, rfl, rfl⟩
        next hn => exact absurd (Option.isNone_iff_eq_none.mpr hd) hn
      · refine ⟨_, List.mem_filter.mpr ⟨List.mem_map.mpr ⟨lv, hlv.1, rfl⟩, ?_⟩, ?_⟩
        · refine stays_live ?_
          rw [if_pos (Option.isNone_iff_eq_none.mpr hlv.2)]
          rfl
        · rw [if_pos (Option.isNone_iff_eq_none.mpr hlv.2)]
          rfl
    · refine live_behind (fun w hw hd => ?_) (hthin _)
      obtain ⟨z, hz, rfl⟩ := List.mem_map.mp hw
      split at hd
      next => cases hd
      next hn => exact hn (Option.isNone_iff_eq_none.mpr hd)

/-! ### What the checks of a restored-version record look at -/

/-- Two states agree on what the checks of a record of an extent look at. -/
structure SameExtent (s t : State) (vol ext : Nat) : Prop where
  clock : t.sup.clock = s.sup.clock
  volume : t.volume vol = s.volume vol
  extent : t.extent vol ext = s.extent vol ext
  snapshots : t.cat.snapshots = s.cat.snapshots
  reclaims : t.cat.reclaims = s.cat.reclaims
  waits : t.cat.sweepWaits = s.cat.sweepWaits

theorem planCommit_congr {t : State} (hclock : t.sup.clock = s.sup.clock)
    (hsnaps : t.cat.snapshots = s.cat.snapshots) (e : Extent) :
    t.planCommit vol ext gen e loc occ codes = s.planCommit vol ext gen e loc occ codes := by
  have hof : t.snapsOf vol = s.snapsOf vol := by rw [State.snapsOf, hsnaps, State.snapsOf]
  have hstays : t.stays vol = s.stays vol := by
    funext v
    unfold State.stays State.isHeld
    rw [hof]
  have hthin (vs : List Version) : t.thinnedOf vol vs = s.thinnedOf vol vs := by
    unfold State.thinnedOf State.pinnedHeld
    rw [hof]
  unfold State.planCommit
  rw [hclock, hstays]
  simp only [hthin]

theorem commitCheck_congr {t : State} (h : SameExtent s t vol ext) (link : Option Link) (rid : Option Nat)
    (owner loc occ : Nat) (codes : Option (List Code)) :
    t.commitCheck link rid vol ext owner loc occ codes = s.commitCheck link rid vol ext owner loc occ codes := by
  have hd : t.damaged vol ext = s.damaged vol ext := by
    unfold State.damaged
    rw [h.volume]
  have hfull (n : Nat) : t.reclaimFull n = s.reclaimFull n := by
    unfold State.reclaimFull
    rw [h.reclaims, h.waits]
  unfold State.commitCheck
  rw [h.volume, h.extent, h.reclaims, hd]
  simp only [hfull, planCommit_congr h.clock h.snapshots]

end

/-! ### A step completed -/

section
variable {s : State} {vol ext owner loc occ : Nat} {codes : Option (List Code)} {v : Volume}

theorem reclaimsOnly_handNotice (s : State) (l : Link) (b : DirBody) : ReclaimsOnly s (s.handNotice l b) :=
  ⟨rfl, (handNotice_link s l b).2.1⟩

theorem reclaimsOnly_sendReclaim (s : State) (vol ext loc : Nat) : ReclaimsOnly s (s.sendReclaim vol ext loc) := by
  unfold State.sendReclaim
  split
  · exact ReclaimsOnly.refl s
  · split
    · exact reclaimsOnly_handNotice s _ _
    · split
      · exact ⟨rfl, fun _ => rfl⟩
      · exact ReclaimsOnly.refl s

theorem gains_sendReclaim {P : Vector LinkRec 6 → Prop} (k : LinksGain P) (vol ext loc : Nat) (h : P s.links) :
    P (s.sendReclaim vol ext loc).links := by
  unfold State.sendReclaim
  split
  · exact h
  · split
    next hup => exact gains_handNotice k _ _ hup h
    next => split <;> exact h

theorem ReclaimsOnly.rst {s t : State} (h : ReclaimsOnly s t) : t.rst = s.rst := by rw [h.frame]
theorem ReclaimsOnly.str {s t : State} (h : ReclaimsOnly s t) : t.str = s.str := by rw [h.frame]

theorem planWritten_eq (s : State) (vol ext owner : Nat) (p : CommitPlan) :
    s.planWritten vol ext owner p = { s with cat := { s.cat with
      snapshots := (s.planWritten vol ext owner p).cat.snapshots
      extents := (s.planWritten vol ext owner p).cat.extents
      reclaims := s.cat.reclaims ++ p.entries } } := by
  unfold State.planWritten
  rw [planThinned_eq]
  rfl

theorem planWritten_extent (s : State) (vol ext owner : Nat) (p : CommitPlan) :
    (s.planWritten vol ext owner p).extent vol ext =
      { owner := owner, lock := (s.extent vol ext).lock, versions := p.versions } := by
  refine (extent_setExtent_self (s.planThinned vol p) vol ext _).trans ?_
  rw [planThinned_eq]
  rfl

/-- A restored-version record made, with a location given up sent back (R63). -/
def State.restored (s : State) (vol ext owner loc occ : Nat) (codes : Option (List Code)) (old : Option Version) :
    State :=
  let c := (s.commit vol ext owner loc occ codes).2
  let c := match (s.commit vol ext owner loc occ codes).1.verdict, old.bind Version.loc with
    | .now, some o => c.sendReclaim vol ext o
    | _, _ => c
  if (s.commit vol ext owner loc occ codes).1.rewrite then c.abandonIf fun k => match old with
    | some o => k.isOf vol ext o.birth
    | none => false
  else c

theorem abandonIf_none {p : Repair → Bool} (h : s.pat.repairs = []) : s.abandonIf p = s := by
  unfold State.abandonIf
  rw [h]
  rfl

/-- A restored-version record over an extent of an ATTACHED volume (R63). -/
theorem restored_spec (hv : s.volume vol = some v) (hrep : s.pat.repairs = []) (old : Option Version) :
    ((s.restored vol ext owner loc occ codes old).extent vol ext).owner = owner ∧
      (∃ y, ((s.restored vol ext owner loc occ codes old).extent vol ext).live = some y ∧
        s.isFresh loc occ (codes.getD []) y) ∧
      (s.restored vol ext owner loc occ codes old).sup = s.sup ∧
      (s.restored vol ext owner loc occ codes old).tally = s.tally ∧
      (s.restored vol ext owner loc occ codes old).pat = s.pat ∧
      (s.restored vol ext owner loc occ codes old).rst = s.rst ∧
      (s.restored vol ext owner loc occ codes old).str = s.str ∧
      ∀ P : Vector LinkRec 6 → Prop, LinksGain P → P s.links →
        P (s.restored vol ext owner loc occ codes old).links := by
  obtain ⟨p, hp⟩ : ∃ p, p = s.planCommit vol ext v.gen (s.extent vol ext) loc occ (codes.getD []) := ⟨_, rfl⟩
  have hcommit : s.commit vol ext owner loc occ codes = (p, (s.planWritten vol ext owner p).flushReclaims) := by
    rw [← applyCommit_eq, hp]
    unfold State.commit
    rw [hv]
  have hro := reclaimsOnly_flushReclaims (s.planWritten vol ext owner p)
  have hgains (P : Vector LinkRec 6 → Prop) (k : LinksGain P) (h : P s.links) :
      P (s.planWritten vol ext owner p).flushReclaims.links := by
    refine gains_flushReclaims k ?_
    rw [planWritten_eq]
    exact h
  obtain ⟨c, hc⟩ : ∃ c, c = (s.planWritten vol ext owner p).flushReclaims := ⟨_, rfl⟩
  rw [← hc] at hcommit hro hgains
  obtain ⟨d, hd⟩ : ∃ d, d = (match p.verdict, old.bind Version.loc with
    | .now, some o => c.sendReclaim vol ext o
    | _, _ => c) := ⟨_, rfl⟩
  have hdro : ReclaimsOnly c d ∧ ∀ P : Vector LinkRec 6 → Prop, LinksGain P → P c.links → P d.links := by
    rw [hd]
    split
    · exact ⟨reclaimsOnly_sendReclaim c vol ext _, fun P k h => gains_sendReclaim k vol ext _ h⟩
    · exact ⟨ReclaimsOnly.refl c, fun _ _ h => h⟩
  obtain ⟨hcd, hdgains⟩ := hdro
  have hall := hro.trans hcd
  have hw := planWritten_eq s vol ext owner p
  have hdpat : d.pat = s.pat := by
    rw [hall.pat, hw]
  have hdone : s.restored vol ext owner loc occ codes old = d := by
    unfold State.restored
    rw [hcommit]
    dsimp only
    rw [hd] at hdpat ⊢
    split
    · exact abandonIf_none (by rw [hdpat]; exact hrep)
    · rfl
  have hext : d.extent vol ext =
      { owner := owner, lock := (s.extent vol ext).lock, versions := p.versions } :=
    (hall.extent vol ext).trans (planWritten_extent s vol ext owner p)
  have hlive := planCommit_live (s := s) (vol := vol) (ext := ext) (gen := v.gen) (loc := loc) (occ := occ)
    (codes := codes.getD []) (s.extent vol ext)
  rw [← hp] at hlive
  rw [hdone]
  refine ⟨by rw [hext], ?_, ?_, ?_, hdpat, ?_, ?_, fun P k h => hdgains P k (hgains P k h)⟩
  · rw [hext]
    exact hlive
  · rw [hall.sup, hw]
  · rw [hall.tally, hw]
  · rw [hall.rst, hw]
  · rw [hall.str, hw]

section
variable {rec i : Nat} {r : Restore} {x : Step} {y : Version}

theorem completeStep_eq (hr : s.restore rec = some r) (hx : r.steps[i]? = some x) (hsrc : s.sourceOf r i = some y)
    (hocc : 0 < y.occ) (hcheck : s.commitCheck none (some r.rid) (r.target i).1 (r.target i).2 r.principal loc y.occ
      (some y.codes) = none) :
    s.completeStep rec i loc = ((((s.restored (r.target i).1 (r.target i).2 r.principal loc y.occ (some y.codes)
      (s.extent (r.target i).1 (r.target i).2).live)).modStep rec i fun x => { x with recorded := true }).pushOp
        (.convert rec i r.principal x.positive x.charge r.link) []) := by
  have hcodes : (if y.occ = 0 then none else some y.codes) = some y.codes := if_neg (Nat.ne_of_gt hocc)
  unfold State.completeStep
  rw [hr]
  dsimp only
  rw [hx, hsrc]
  dsimp only
  rw [hcodes, hcheck]
  rfl

/-- A step completed: the target holds the new location, and the conversion is with the Tally Unit (R96). -/
theorem completeStep_spec (hr : s.restore rec = some r) (hx : r.steps[i]? = some x) (hsrc : s.sourceOf r i = some y)
    (hocc : 0 < y.occ) (hrep : s.pat.repairs = []) (hcheck : s.commitCheck none (some r.rid) (r.target i).1
      (r.target i).2 r.principal loc y.occ (some y.codes) = none) :
    (s.completeStep rec i loc).restore rec = some { r with steps := r.steps.set i { x with recorded := true } } ∧
      ((s.completeStep rec i loc).extent (r.target i).1 (r.target i).2).owner = r.principal ∧
      (∃ z, ((s.completeStep rec i loc).extent (r.target i).1 (r.target i).2).live = some z ∧
        s.isFresh loc y.occ y.codes z) ∧
      (s.completeStep rec i loc).sup = s.sup ∧ (s.completeStep rec i loc).pat = s.pat ∧
      (s.completeStep rec i loc).str = s.str ∧
      (∃ o, (s.completeStep rec i loc).tally.ops = s.tally.ops ++ [o] ∧
        o.job = .convert rec i r.principal x.charge.toNat x.charge r.link) ∧
      (s.completeStep rec i loc).tally.postings = s.tally.postings ∧
      (s.completeStep rec i loc).tally.modeReply = s.tally.modeReply ∧
      (s.completeStep rec i loc).tally.flushing = s.tally.flushing ∧
      ∀ P : Vector LinkRec 6 → Prop, LinksGain P → P s.links → P (s.completeStep rec i loc).links := by
  have hvol : ∃ v, s.volume (r.target i).1 = some v := by
    cases hv : s.volume (r.target i).1 with
    | some v => exact ⟨v, rfl⟩
    | none =>
      unfold State.commitCheck at hcheck
      rw [hv] at hcheck
      dsimp only at hcheck
      split at hcheck
      · cases hcheck
      · split at hcheck <;> cases hcheck
  obtain ⟨v, hv⟩ := hvol
  obtain ⟨howner, hlive, hsup, htally, hpat, hrst, hstr, hgains⟩ := restored_spec (ext := (r.target i).2)
    (owner := r.principal) (loc := loc) (occ := y.occ) (codes := some y.codes) hv hrep
    (s.extent (r.target i).1 (r.target i).2).live
  have heq := completeStep_eq hr hx hsrc hocc hcheck
  obtain ⟨d, hd⟩ : ∃ d, d = s.restored (r.target i).1 (r.target i).2 r.principal loc y.occ (some y.codes)
    (s.extent (r.target i).1 (r.target i).2).live := ⟨_, rfl⟩
  rw [← hd] at howner hlive hsup htally hpat hrst hstr hgains heq
  have hdr : d.restore rec = some r := by
    rw [State.restore, hrst]
    exact hr
  rw [heq]
  refine ⟨?_, howner, hlive, hsup, hpat, hstr, ⟨d.firstOp
    (.convert rec i r.principal x.positive x.charge r.link), ?_, rfl⟩, ?_, ?_, ?_, hgains⟩
  · have hmod : (d.modStep rec i fun x => { x with recorded := true }).restore rec =
        some { r with steps := modAt r.steps i fun x => { x with recorded := true } } :=
      (State.restore_modRestore d rec _).trans (congrArg _ hdr)
    rw [modAt_eq_set _ hx] at hmod
    exact hmod
  · rw [← htally]
    rfl
  · rw [← htally]
    rfl
  · rw [← htally]
    rfl
  · rw [← htally]
    rfl

end

end

/-! ### The answers -/

section
variable {s : State} {l : Link} {tag loc : Nat}

theorem exec_copyDone (hrun : s.sup.op ≠ .halted) (hup : (s.link l).up = true) :
    Machine.exec (.copyDone l tag loc []) s = .next (State.finish (State.doneAnswer
      (({ s with sent := [] } : State).modLink l fun r => { r with up := true, badRun := 0 }) l tag loc .copy)) := by
  have harr := arrive_up (s := { s with sent := [] }) (l := l) hup
  change execCopyDone l tag loc [] s = _
  unfold execCopyDone
  refine (act_running _ hrun).trans (congrArg Host.Outcome.next ?_)
  rw [harr]
  exact withErrs_nil _ hrun

theorem exec_putDone (hrun : s.sup.op ≠ .halted) (hup : (s.link l).up = true) :
    Machine.exec (.putDone l tag loc []) s = .next (State.finish (State.doneAnswer
      (({ s with sent := [] } : State).modLink l fun r => { r with up := true, badRun := 0 }) l tag loc .put)) := by
  have harr := arrive_up (s := { s with sent := [] }) (l := l) hup
  change execPutDone l tag loc [] s = _
  unfold execPutDone
  refine (act_running _ hrun).trans (congrArg Host.Outcome.next ?_)
  rw [harr]
  exact withErrs_nil _ hrun

theorem matching_of {d : Directive} {k : DirKind} (hd : s.directive l tag = some d) (hk : d.kind = k) :
    s.matching l tag k = some d := by
  unfold State.matching
  rw [hd]
  exact if_pos hk

theorem directive_none (h : ∀ d ∈ (s.link l).directives, d.tag ≠ tag) : s.directive l tag = none :=
  List.find?_eq_none.mpr fun d hd => by simpa using h d hd

theorem matching_none (h : ∀ d ∈ (s.link l).directives, d.tag ≠ tag) (k : DirKind) : s.matching l tag k = none := by
  unfold State.matching
  rw [directive_none h]

/-- No directive of a link has a tag, while links gain. -/
theorem linksGain_noTag (l : Link) (tag : Nat) : LinksGain fun ls => ∀ d ∈ (ls[l]).directives, d.tag ≠ tag := by
  refine LinksGain.of_record (R := fun r => ∀ d ∈ r.directives, d.tag ≠ tag) l ?_ ?_ ?_ ?_ ?_
  · intro r n _ h
    unfold LinkRec.queueNotice
    split <;> exact h
  · exact fun r _ _ h => h
  · exact fun r _ h => h
  · exact fun r _ h => h
  · exact fun r _ h => h

theorem endDirective_directives (s : State) (l : Link) (tag : Nat) :
    ((s.endDirective l tag).link l).directives = (s.link l).directives.filter fun d => d.tag != tag := by
  unfold State.endDirective State.restartIdle
  rw [State.link_modLink_self, State.link_modLink_self]

theorem endDirective_noTag (s : State) (l : Link) (tag : Nat) :
    ∀ d ∈ ((s.endDirective l tag).link l).directives, d.tag ≠ tag := by
  intro d hd
  rw [endDirective_directives] at hd
  simpa using (List.mem_filter.mp hd).2

/-- A late answer's location is sent back (R97). -/
theorem lateDone {k : DirKind} {c : Instr} (hlate : ∀ d ∈ (s.link l).directives, d.tag ≠ tag)
    (hexec : Machine.exec c s = .next (State.finish (State.doneAnswer
      (({ s with sent := [] } : State).modLink l fun r => { r with up := true, badRun := 0 }) l tag loc k))) :
    ∃ t n, Machine.exec c s = .next t ∧ t.rst = s.rst ∧ TxFrame.directive n (.reclaim loc) ∈ (t.link l).tx ∧
      (t.link l).directives = (s.link l).directives := by
  obtain ⟨a, ha⟩ : ∃ a, a = ({ s with sent := [] } : State).modLink l fun r => { r with up := true, badRun := 0 } :=
    ⟨_, rfl⟩
  have halink : a.link l = { s.link l with up := true, badRun := 0 } := by
    rw [ha, State.link_modLink_self]
    rfl
  have hanswer : a.doneAnswer l tag loc k = a.handNotice l (.reclaim loc) := by
    unfold State.doneAnswer
    rw [matching_none (by rw [halink]; exact hlate)]
  rw [← ha, hanswer] at hexec
  obtain ⟨htx, -⟩ := handNotice_link a l (.reclaim loc)
  obtain ⟨more, hmore⟩ := ((finish_settles (a.handNotice l (.reclaim loc))).2.1 l).2.2.1
  obtain ⟨-, hdirs, -⟩ := finish_link_kept (a.handNotice l (.reclaim loc)) l
  refine ⟨_, (a.link l).nextTag, hexec, ?_, ?_, ?_⟩
  · rw [finish_rst, ha]
    rfl
  · have hftx : ((a.handNotice l (.reclaim loc)).finish.link l).tx =
        ((a.handNotice l (.reclaim loc)).link l).tx ++ more := hmore.symm
    rw [hftx, htx]
    exact List.mem_append_left _ (List.mem_append_right _ (List.mem_singleton.mpr rfl))
  · refine hdirs.trans ?_
    have hd : ((a.handNotice l (.reclaim loc)).link l).directives = (a.link l).directives := by
      unfold State.handNotice State.busy
      rw [State.link_modLink_self, State.link_modLink_self]
    rw [hd, halink]

/-- With the Patrol Unit at rest, a step's end keeps the catalogue. -/
theorem finish_cat (hp : s.patrolStill) (hrun : s.sup.op ≠ .halted) : s.finish.cat = s.cat := by
  have hothers : s.advance.others = s.others := othersKept_advance rfl
  rw [finish_patrolStill hp hrun, settleLink_cat]
  exact congrArg Prod.fst hothers

theorem freeAllOf_none (s : State) (h : SlotHolder) : ∀ n k, (n, k) ∈ (s.freeAllOf h).str.slots → k.holder ≠ h := by
  intro n k hk
  have := (List.mem_filter.mp hk).2
  simpa using this

/-- The end of an answered directive of a step, on a state in which its checks pass. -/
theorem doneAnswer_completes {d : Directive} {k : DirKind} {rec i : Nat} {r : Restore} {x : Step} {v w : Version}
    {a e : State} (hcalm : a.calm) (hrun : a.sup.op ≠ .halted) (hd : a.directive l tag = some d) (hk : d.kind = k)
    (hissuer : d.issuer = .step rec i)
    (he : e = (((a.endDirective l tag).freeAllOf (.gone l tag)).decRefs d.refs).freeAllOf (.step rec i))
    (hesup : e.sup = a.sup) (hetally : e.tally = a.tally) (hepat : e.pat = a.pat)
    (her : e.restore rec = some r) (hx : r.steps[i]? = some x)
    (hsrc : e.sourceOf r i = some w) (hwocc : w.occ = v.occ) (hwcodes : w.codes = v.codes) (hocc : 0 < v.occ)
    (hcheck : e.commitCheck none (some r.rid) (r.target i).1 (r.target i).2 r.principal loc v.occ
      (some v.codes) = none) :
    ∃ y, (∀ f ∈ ((a.doneAnswer l tag loc k).finish.link l).directives, f.tag ≠ tag) ∧
      (a.doneAnswer l tag loc k).finish.restore rec =
        some { r with steps := r.steps.set i { x with recorded := true } } ∧
      ((a.doneAnswer l tag loc k).finish.extent (r.target i).1 (r.target i).2).owner = r.principal ∧
      ((a.doneAnswer l tag loc k).finish.extent (r.target i).1 (r.target i).2).live = some y ∧
      a.isFresh loc v.occ v.codes y ∧
      (∀ n c, (n, c) ∈ (a.doneAnswer l tag loc k).finish.str.slots → c.holder ≠ .step rec i) ∧
      ∃ o ∈ (a.doneAnswer l tag loc k).finish.tally.ops,
        o.job = .convert rec i r.principal x.charge.toNat x.charge r.link := by
  obtain ⟨⟨hops, hpost, hmode, hflush⟩, hstill⟩ := hcalm
  rw [← hwocc, ← hwcodes] at hcheck
  obtain ⟨urest, uowner, ⟨y, ulive, ufresh⟩, usup, upat, ustr, ⟨o, uops, ojob⟩, upost, umode, uflush, ugains⟩ :=
    completeStep_spec her hx hsrc (by rw [hwocc]; exact hocc) (by rw [hepat]; exact hstill.2.2.1) hcheck
  rw [hwocc, hwcodes] at ufresh
  have hanswer : a.doneAnswer l tag loc k = e.completeStep rec i loc := by
    unfold State.doneAnswer
    rw [matching_of hd hk]
    dsimp only
    rw [hissuer, he]
  have hnotag : ∀ f ∈ (e.link l).directives, f.tag ≠ tag := by
    have hgain : LinksGain fun ls => ∀ f ∈ (ls[l]).directives, f.tag ≠ tag := linksGain_noTag l tag
    rw [he]
    exact gains_freeAllOf (P := fun ls => ∀ f ∈ (ls[l]).directives, f.tag ≠ tag) (.step rec i)
      (gains_decRefs hgain d.refs (gains_freeAllOf (P := fun ls => ∀ f ∈ (ls[l]).directives, f.tag ≠ tag)
        (.gone l tag) (endDirective_noTag a l tag)))
  have hslots : ∀ n c, (n, c) ∈ e.str.slots → c.holder ≠ .step rec i := by
    rw [he]
    exact freeAllOf_none _ _
  obtain ⟨u, hu⟩ : ∃ u, u = e.completeStep rec i loc := ⟨_, rfl⟩
  rw [← hu] at urest uowner ulive usup upat ustr uops upost umode uflush ugains hanswer
  have hstillu : u.patrolStill := by
    rw [State.patrolStill, upat, hepat]
    exact hstill
  have hrunu : u.sup.op ≠ .halted := by
    rw [usup, hesup]
    exact hrun
  obtain ⟨-, fslots, -⟩ := finish_lasting hstillu hrunu
  have fcat := finish_cat hstillu hrunu
  obtain ⟨-, fdirs, -⟩ := finish_link_kept u l
  have hopsu : u.tally.ops = [o] := by
    rw [uops, hetally, hops]
    rfl
  have hgather := advance_gatherOnly (u := u) (fun z hz => by
    rw [hopsu] at hz
    rw [List.mem_singleton.mp hz, ojob]
    rfl) (upost.trans (by rw [hetally, hpost])) (umode.trans (by rw [hetally, hmode]))
    (uflush.trans (by rw [hetally, hflush]))
  rw [hanswer]
  refine ⟨y, ?_, ?_, ?_, ?_, ?_, ?_, ?_⟩
  · rw [fdirs]
    exact ugains _ (linksGain_noTag l tag) hnotag
  · rw [State.restore, finish_rst]
    exact urest
  · rw [State.extent, fcat]
    exact uowner
  · rw [State.extent, fcat]
    exact ulive
  · unfold State.isFresh at ufresh ⊢
    rw [hesup] at ufresh
    exact ufresh
  · rw [fslots, ustr]
    exact hslots
  · obtain ⟨z, hz, -, hzj⟩ := hgather.mem_of (o := o) (by rw [hopsu]; exact List.mem_singleton.mpr rfl)
    refine ⟨z, ?_, hzj.trans ojob⟩
    rw [finish_running hrunu, settle_tally]
    exact hz

/-! ### The reference of an ended COPY -/

theorem modRefs_kept (loc : Nat) (f : Nat → Nat) (v : Version) :
    (modRefs loc f v).birth = v.birth ∧ (modRefs loc f v).occ = v.occ ∧ (modRefs loc f v).codes = v.codes := by
  unfold modRefs
  split
  · split <;> exact ⟨rfl, rfl, rfl⟩
  · exact ⟨rfl, rfl, rfl⟩

/-- The version of a birth among versions whose reference counts change. -/
theorem find?_modRefs (loc : Nat) (f : Nat → Nat) (vs : List Version) (b : Nat) :
    ((vs.map (modRefs loc f)).find? fun v => v.birth == b) =
      (vs.find? fun v => v.birth == b).map (modRefs loc f) := by
  rw [List.find?_map]
  refine congrArg _ (congrArg (fun p => List.find? p vs) ?_)
  funext v
  rw [Function.comp_apply, (modRefs_kept loc f v).1]

/-- A reference given back to a version that carries its location (R58). -/
theorem decRef_carried {vol ext src : Nat} (hc : (s.extent vol ext).carries src = true) :
    s.decRef vol ext src = ((s.setExtent vol ext { s.extent vol ext with
      versions := (s.extent vol ext).versions.map (modRefs src (· - 1)) }).modVolume vol fun v =>
        { v with refTotal := v.refTotal - 1 }) := if_pos hc

end

end Sys2Proof.Machine

open Sys2Proof Sys2Proof.Machine

/-- Settles O42. -/
theorem completedStepsMakeRestoredVersions : Obligations.CompletedStepsMakeRestoredVersions := by
  refine ⟨?_, ?_, ?_⟩
  · intro s l tag loc rec i d r x v hrun hcalm hup hd hk hissuer hrefs hr hx hsrc hv hocc hcheck
    obtain ⟨a, ha⟩ : ∃ a, a = ({ s with sent := [] } : State).modLink l fun r => { r with up := true, badRun := 0 } :=
      ⟨_, rfl⟩
    have hexec := exec_putDone (tag := tag) (loc := loc) hrun hup
    rw [← ha] at hexec
    obtain ⟨e, he⟩ : ∃ e, e = (((a.endDirective l tag).freeAllOf (.gone l tag)).decRefs d.refs).freeAllOf
      (.step rec i) := ⟨_, rfl⟩
    have hsame : e.sup = s.sup ∧ e.tally = s.tally ∧ e.pat = s.pat ∧ e.rst = s.rst ∧ e.cat = s.cat := by
      rw [he, hrefs, ha]
      exact ⟨rfl, rfl, rfl, rfl, rfl⟩
    obtain ⟨esup, etally, epat, erst, ecat⟩ := hsame
    have hasame : a.sup = s.sup ∧ a.tally = s.tally ∧ a.pat = s.pat := by
      rw [ha]
      exact ⟨rfl, rfl, rfl⟩
    obtain ⟨asup, atally, apat⟩ := hasame
    have had : a.directive l tag = some d := by
      rw [State.directive, ha, State.link_modLink_self]
      exact hd
    have hse : e.sourceOf r i = some v := by
      refine sourceOf_of hx hsrc ?_
      rw [State.extent, ecat]
      exact hv
    have hext (vol ext : Nat) : e.extent vol ext = s.extent vol ext := by rw [State.extent, ecat, State.extent]
    have hchk := (commitCheck_congr (s := s) (t := e) ⟨by rw [esup], by rw [State.volume, ecat, State.volume],
      hext _ _, by rw [ecat], by rw [ecat], by rw [ecat]⟩ none (some r.rid) r.principal loc v.occ
        (some v.codes)).trans hcheck
    obtain ⟨y, hdirs, hrest, howner, hlive, hfresh, hslots, hop⟩ := doneAnswer_completes (a := a) (e := e) (v := v)
      (by rw [State.calm, State.tallyStill, State.patrolStill, atally, apat]; exact hcalm)
      (by rw [asup]; exact hrun) had hk hissuer he (by rw [esup, asup]) (by rw [etally, atally]) (by rw [epat, apat])
      (by rw [State.restore, erst]; exact hr) hx hse rfl rfl hocc hchk
    obtain ⟨floc, focc, fcodes, fship, fver⟩ := hfresh
    exact ⟨_, y, hexec, hdirs, hrest, howner, hlive, floc, focc, fcodes, fship, fver.trans (by rw [asup]), hslots, hop⟩
  · intro s l tag loc src rec i d r x v hrun hcalm hup hd hk hissuer hrefs hr hmode hne h1 h2 hx hsrc hv hloc
      hocc hcheck
    obtain ⟨a, ha⟩ : ∃ a, a = ({ s with sent := [] } : State).modLink l fun r => { r with up := true, badRun := 0 } :=
      ⟨_, rfl⟩
    have hexec := exec_copyDone (tag := tag) (loc := loc) hrun hup
    rw [← ha] at hexec
    have htarget : r.target i = (r.tvol, r.tfirst + i) := by
      unfold Restore.target
      rw [hmode]
    obtain ⟨b, hb⟩ : ∃ b, b = (a.endDirective l tag).freeAllOf (.gone l tag) := ⟨_, rfl⟩
    have hbsame : b.sup = s.sup ∧ b.tally = s.tally ∧ b.pat = s.pat ∧ b.rst = s.rst ∧ b.cat = s.cat := by
      rw [hb, ha]
      exact ⟨rfl, rfl, rfl, rfl, rfl⟩
    obtain ⟨bsup, btally, bpat, brst, bcat⟩ := hbsame
    have hbext (vol ext : Nat) : b.extent vol ext = s.extent vol ext := by rw [State.extent, bcat, State.extent]
    have hcarries : (b.extent r.vol (r.first + i)).carries src = true := by
      rw [hbext]
      exact List.any_eq_true.mpr ⟨v, mem_of_version hv, decide_eq_true hloc⟩
    have hdec : b.decRefs d.refs = b.decRef r.vol (r.first + i) src := by
      rw [hrefs]
      rfl
    obtain ⟨e, he⟩ : ∃ e, e = (b.decRefs d.refs).freeAllOf (.step rec i) := ⟨_, rfl⟩
    have heq : e = (((b.setExtent r.vol (r.first + i) { b.extent r.vol (r.first + i) with
        versions := (b.extent r.vol (r.first + i)).versions.map (modRefs src (· - 1)) }).modVolume r.vol fun v =>
          { v with refTotal := v.refTotal - 1 })).freeAllOf (.step rec i) := by
      rw [he, hdec, decRef_carried hcarries]
    have hesame : e.sup = b.sup ∧ e.tally = b.tally ∧ e.pat = b.pat ∧ e.rst = b.rst ∧
        e.cat.snapshots = b.cat.snapshots ∧ e.cat.reclaims = b.cat.reclaims ∧ e.cat.sweepWaits = b.cat.sweepWaits := by
      rw [heq]
      exact ⟨rfl, rfl, rfl, rfl, rfl, rfl, rfl⟩
    obtain ⟨esup, etally, epat, erst, esnaps, erecs, ewaits⟩ := hesame
    have hasame : a.sup = s.sup ∧ a.tally = s.tally ∧ a.pat = s.pat := by
      rw [ha]
      exact ⟨rfl, rfl, rfl⟩
    obtain ⟨asup, atally, apat⟩ := hasame
    have had : a.directive l tag = some d := by
      rw [State.directive, ha, State.link_modLink_self]
      exact hd
    have hself : e.extent r.vol (r.first + i) = { s.extent r.vol (r.first + i) with
        versions := (s.extent r.vol (r.first + i)).versions.map (modRefs src (· - 1)) } := by
      have h := extent_setExtent_self b r.vol (r.first + i) { b.extent r.vol (r.first + i) with
        versions := (b.extent r.vol (r.first + i)).versions.map (modRefs src (· - 1)) }
      rw [hbext] at h
      rw [heq, hbext]
      exact h
    have hkey : extentKey r.vol (r.first + i) ≠ extentKey r.tvol (r.tfirst + i) := by
      unfold extentKey
      have hmax : Config.maxExtents = 1048576 := rfl
      rw [hmax]
      omega
    have hother : e.extent r.tvol (r.tfirst + i) = s.extent r.tvol (r.tfirst + i) := by
      rw [heq]
      exact (extent_setExtent_ne b _ _ _ _ _ hkey).trans (hbext _ _)
    have hvol : e.volume r.tvol = s.volume r.tvol := by
      have h : e.volume r.tvol = b.volume r.tvol := by
        rw [heq]
        exact State.volume_modVolume_ne _ _ (Ne.symm hne)
      rw [h, State.volume, bcat, State.volume]
    have hse : e.sourceOf r i = some (modRefs src (· - 1) v) := by
      unfold State.sourceOf
      rw [hx]
      dsimp only
      rw [hsrc, Option.bind_some, hself]
      unfold Extent.version
      rw [find?_modRefs]
      exact congrArg _ hv
    obtain ⟨-, wocc, wcodes⟩ := modRefs_kept src (· - 1) v
    have hchk := (commitCheck_congr (s := s) (t := e) (vol := r.tvol) (ext := r.tfirst + i) ⟨by rw [esup, bsup], hvol,
      hother, by rw [esnaps, bcat], by rw [erecs, bcat], by rw [ewaits, bcat]⟩ none (some r.rid) r.principal loc v.occ
        (some v.codes)).trans hcheck
    obtain ⟨y, hdirs, hrest, howner, hlive, hfresh, -, hop⟩ := doneAnswer_completes (a := a) (e := e) (v := v)
      (by rw [State.calm, State.tallyStill, State.patrolStill, atally, apat]; exact hcalm)
      (by rw [asup]; exact hrun) had hk hissuer (by rw [he, hb]) (by rw [esup, bsup, asup])
      (by rw [etally, btally, atally]) (by rw [epat, bpat, apat])
      (by rw [State.restore, erst, brst]; exact hr) hx hse wocc wcodes hocc
      (by rw [htarget]; exact hchk)
    obtain ⟨floc, focc, fcodes, -, -⟩ := hfresh
    rw [htarget] at howner hlive
    exact ⟨_, y, hexec, hdirs, hrest, howner, hlive, floc, focc, fcodes, hop⟩
  · intro s l tag loc hrun hup hlate
    exact ⟨lateDone hlate (exec_copyDone hrun hup), lateDone hlate (exec_putDone hrun hup)⟩

end

section
/-! PROOF. A failed COPY or PUT is issued again once (R97, R102, R176). -/

namespace Sys2Proof.Machine

section
variable {s : State} {rec i : Nat} {r : Restore} {x : Step}

theorem askRoom_rst (s : State) (h : FetchHolder) (es : List FetchEntry) (atHead : Bool) :
    (s.askRoom h es atHead).rst = s.rst := by
  unfold State.askRoom
  split
  · exact askOpening_rst _
  · rfl

theorem restore_congr {t : State} (h : t.rst = s.rst) (k : Nat) : t.restore k = s.restore k := by
  rw [State.restore, h, State.restore]

/-- A RUNNING restore that does not pause goes on while one of its steps has not ended (R98, R102). -/
theorem afterStep_goesOn (hr : s.restore rec = some r) (hst : r.state = .running) (hpause : r.pausing = false)
    (hx : r.steps[i]? = some x) (hd : x.state ≠ .done) (hk : x.state ≠ .skipped) : s.afterStep rec = s := by
  have hall : ¬r.steps.all (fun t => decide (t.state = .done) || decide (t.state = .skipped)) = true := by
    intro hall
    have := List.all_eq_true.mp hall x (List.mem_of_getElem? hx)
    simp [hd, hk] at this
  unfold State.afterStep
  rw [hr]
  dsimp only
  rw [hst]
  dsimp only
  rw [if_neg hall]
  exact if_neg fun h => Bool.false_ne_true (hpause.symm.trans h.1)

/-- A RUNNING restore that pauses is PAUSED once no step holds it back (R102). -/
theorem afterStep_pauses (hr : s.restore rec = some r) (hst : r.state = .running) (hpause : r.pausing = true)
    (hx : r.steps[i]? = some x) (hd : x.state ≠ .done) (hk : x.state ≠ .skipped)
    (hno : ∀ y ∈ r.steps, y.holdsPause = false) :
    s.afterStep rec = s.modRestore rec fun r => { r with state := .paused, pausing := false } := by
  have hall : ¬r.steps.all (fun t => decide (t.state = .done) || decide (t.state = .skipped)) = true := by
    intro hall
    have := List.all_eq_true.mp hall x (List.mem_of_getElem? hx)
    simp [hd, hk] at this
  have hany : r.steps.any Step.holdsPause = false :=
    List.any_eq_false.mpr fun y hy => by rw [hno y hy]; exact Bool.false_ne_true
  unfold State.afterStep
  rw [hr]
  dsimp only
  rw [hst]
  dsimp only
  rw [if_neg hall]
  exact if_pos ⟨hpause, hany⟩

theorem restore_modStep (hr : s.restore rec = some r) (hx : r.steps[i]? = some x) (f : Step → Step) :
    (s.modStep rec i f).restore rec = some { r with steps := r.steps.set i (f x) } := by
  have h : (s.modStep rec i f).restore rec = some { r with steps := modAt r.steps i f } :=
    (State.restore_modRestore s rec _).trans (congrArg _ hr)
  rw [modAt_eq_set _ hx] at h
  exact h

theorem set_self (hx : r.steps[i]? = some x) (y : Step) : (r.steps.set i y)[i]? = some y := by
  have hlt : i < r.steps.length := by
    by_contra hge
    rw [List.getElem?_eq_none (Nat.not_lt.mp hge)] at hx
    cases hx
  rw [List.getElem?_set_self hlt]

/-- What the failure of a COPY or PUT of a RUNNING restore makes of its record (R97, R102). -/
structure FailureTaken (r : Restore) (x : Step) (i : Nat) (q : Option Restore) : Prop where
  copy : x.reissued = false → x.state = .issued → r.pausing = false → q = some { r with
    steps := r.steps.set i { x with reissued := true, state := .waiting, again := true } }
  pauses : x.reissued = false → x.state = .issued → r.pausing = true →
    (∀ j y, j ≠ i → r.steps[j]? = some y → y.state ≠ .issued ∧ (y.state = .putting → y.inPause = true)) →
    q = some { r with
      state := .paused, pausing := false
      steps := r.steps.set i { x with reissued := true, state := .waiting, again := true } }
  put : x.reissued = false → x.state = .putting → r.pausing = false → q = some { r with
    steps := r.steps.set i { x with reissued := true, refetched := [], state := .fetching, marker := false } }
  again : x.reissued = true → x.state = .issued ∨ x.state = .putting →
    ∃ r', q = some r' ∧ r'.state = .failed ∧ r'.cause = some .step ∧ r'.failedStep = some (i, .directive)

/-- The first failure of a COPY (R97). -/
theorem stepDirectiveFailed_copy (hr : s.restore rec = some r) (hrr : r.state = .running)
    (hx : r.steps[i]? = some x) {why : DirFailure} (hwhy : why ≠ .reset) (hre : x.reissued = false)
    (hxs : x.state = .issued) :
    s.stepDirectiveFailed rec i why = ((s.freeAllOf (.step rec i)).modStep rec i fun x =>
      { x with reissued := true, state := .waiting, again := true }).afterStep rec := by
  unfold State.stepDirectiveFailed
  rw [hr]
  dsimp only
  rw [hx]
  dsimp only
  rw [if_neg hwhy, hre, hrr, if_neg (by simp [RestoreState.isActive]), if_pos hxs]

/-- The first failure of a PUT (R97). -/
theorem stepDirectiveFailed_put (hr : s.restore rec = some r) (hrr : r.state = .running)
    (hx : r.steps[i]? = some x) {why : DirFailure} (hwhy : why ≠ .reset) (hre : x.reissued = false)
    (hxs : x.state = .putting) : ∃ w : State, s.stepDirectiveFailed rec i why = w.afterStep rec ∧
      w.rst = (s.modStep rec i fun x =>
        { x with reissued := true, refetched := [], state := .fetching, marker := false }).rst := by
  unfold State.stepDirectiveFailed
  rw [hr]
  dsimp only
  rw [hx]
  dsimp only
  rw [if_neg hwhy, hre, hrr, if_neg (by simp [RestoreState.isActive]), if_neg (by rw [hxs]; exact nofun)]
  split
  · exact ⟨_, rfl, askRoom_rst _ _ _ _⟩
  · exact ⟨_, rfl, rfl⟩

/-- The second failure (R97). -/
theorem stepDirectiveFailed_again (hr : s.restore rec = some r) (hx : r.steps[i]? = some x) {why : DirFailure}
    (hwhy : why ≠ .reset) (hre : x.reissued = true) :
    s.stepDirectiveFailed rec i why = (s.freeAllOf (.step rec i)).failStep rec i .directive := by
  unfold State.stepDirectiveFailed
  rw [hr]
  dsimp only
  rw [hx]
  dsimp only
  rw [if_neg hwhy, if_pos (.inl hre)]

theorem stepDirectiveFailed_spec (hr : s.restore rec = some r) (hrr : r.state = .running)
    (hx : r.steps[i]? = some x) {why : DirFailure} (hwhy : why ≠ .reset) :
    FailureTaken r x i ((s.stepDirectiveFailed rec i why).restore rec) := by
  have hmod := restore_modStep (s := s.freeAllOf (.step rec i)) (rec := rec) hr hx fun x =>
    { x with reissued := true, state := .waiting, again := true }
  refine ⟨fun hre hxs hpause => ?_, fun hre hxs hpause hno => ?_, fun hre hxs hpause => ?_, fun hre hxs => ?_⟩
  · rw [stepDirectiveFailed_copy hr hrr hx hwhy hre hxs,
      afterStep_goesOn hmod hrr hpause (set_self hx _) (fun h => nomatch h) (fun h => nomatch h)]
    exact hmod
  · rw [stepDirectiveFailed_copy hr hrr hx hwhy hre hxs,
      afterStep_pauses hmod hrr hpause (set_self hx _) (fun h => nomatch h) (fun h => nomatch h) fun y hy => ?_]
    · exact (State.restore_modRestore _ rec _).trans (congrArg _ hmod)
    · obtain ⟨j, hj⟩ := List.mem_iff_getElem?.mp hy
      by_cases hji : j = i
      · subst hji
        rw [set_self hx] at hj
        rw [← Option.some.inj hj]
        rfl
      · rw [List.getElem?_set_ne (Ne.symm hji)] at hj
        obtain ⟨h1, h2⟩ := hno j y hji hj
        unfold Step.holdsPause
        rw [decide_eq_false h1, Bool.false_or]
        by_cases hp : y.state = .putting
        · rw [h2 hp]
          simp
        · rw [decide_eq_false hp]
          rfl
  · obtain ⟨w, hw, hwrst⟩ := stepDirectiveFailed_put hr hrr hx hwhy hre hxs
    have hwr := (restore_congr hwrst rec).trans (restore_modStep hr hx fun x =>
      { x with reissued := true, refetched := [], state := .fetching, marker := false })
    rw [hw, afterStep_goesOn hwr hrr hpause (set_self hx _) (fun h => nomatch h) (fun h => nomatch h)]
    exact hwr
  · rw [stepDirectiveFailed_again hr hx hwhy hre]
    refine failStep_fails (s := s.freeAllOf (.step rec i)) .directive hr (by rw [hrr]; rfl) hx ?_
    unfold Step.ended
    rcases hxs with h | h <;> rw [h] <;> rfl

end

/-! ### The commands -/

section
variable {s : State} {l : Link} {tag : Nat}

theorem exec_copyFail (hrun : s.sup.op ≠ .halted) (hup : (s.link l).up = true) :
    Machine.exec (.copyFail l tag) s = .next (State.finish (State.failAnswer
      (({ s with sent := [] } : State).modLink l fun r => { r with up := true, badRun := 0 }) l tag .copy)) := by
  have harr := arrive_up (s := { s with sent := [] }) (l := l) hup
  change execCopyFail l tag s [] = _
  unfold execCopyFail
  refine (act_running _ hrun).trans (congrArg Host.Outcome.next ?_)
  rw [harr]
  exact withErrs_nil _ hrun

theorem exec_putFail (hrun : s.sup.op ≠ .halted) (hup : (s.link l).up = true) :
    Machine.exec (.putFail l tag) s = .next (State.finish (State.failAnswer
      (({ s with sent := [] } : State).modLink l fun r => { r with up := true, badRun := 0 }) l tag .put)) := by
  have harr := arrive_up (s := { s with sent := [] }) (l := l) hup
  change execPutFail l tag s [] = _
  unfold execPutFail
  refine (act_running _ hrun).trans (congrArg Host.Outcome.next ?_)
  rw [harr]
  exact withErrs_nil _ hrun

theorem exec_directiveWaitExpiry (hrun : s.sup.op ≠ .halted) {d : Directive} (hd : s.directive l tag = some d) :
    Machine.exec (.directiveWaitExpiry l tag) s = .next (if d.issued + d.limit ≤ s.sup.elapsed then
      (State.failDirective { s with sent := [] } l d .limit).finish else { s with sent := [] }) := by
  have hd' : State.directive { s with sent := [] } l tag = some d := hd
  change execDirectiveWaitExpiry l tag s [] = _
  unfold execDirectiveWaitExpiry
  refine (act_withErrs_nil _ hrun).trans (congrArg Host.Outcome.next ?_)
  rw [hd']

theorem exec_directiveWaitExpiry_none (hrun : s.sup.op ≠ .halted) (hd : s.directive l tag = none) :
    Machine.exec (.directiveWaitExpiry l tag) s = .next { s with sent := [] } := by
  have hd' : State.directive { s with sent := [] } l tag = none := hd
  change execDirectiveWaitExpiry l tag s [] = _
  unfold execDirectiveWaitExpiry
  refine (act_withErrs_nil _ hrun).trans (congrArg Host.Outcome.next ?_)
  rw [hd']

theorem decRef_rst (s : State) (vol ext loc : Nat) : (s.decRef vol ext loc).rst = s.rst := by
  unfold State.decRef
  dsimp only
  split
  · rfl
  · split
    · rfl
    · exact (reclaimsOnly_flushReclaims _).rst

theorem decRefs_rst (s : State) (refs : List (Nat × Nat × Nat)) : (s.decRefs refs).rst = s.rst := by
  unfold State.decRefs
  induction refs generalizing s with
  | nil => rfl
  | cons r rs ih =>
    rw [List.foldl_cons, ih]
    exact decRef_rst s _ _ _

/-- A directive of a step ended without success: its entry has left its list, and its step has been told (R97). -/
theorem failDirective_spec {d : Directive} {cause : PullCause} {rec i : Nat} {r : Restore} {x : Step}
    (hd : d.tag = tag) (hissuer : d.issuer = .step rec i) (hcause : cause ≠ .reset) (hr : s.restore rec = some r)
    (hrr : r.state = .running) (hx : r.steps[i]? = some x) :
    (∀ e ∈ ((s.failDirective l d cause).finish.link l).directives, e.tag ≠ tag) ∧
      FailureTaken r x i ((s.failDirective l d cause).finish.restore rec) := by
  obtain ⟨b, hb⟩ : ∃ b, b = ((s.endDirective l d.tag).freeAllOf (.gone l d.tag)).decRefs d.refs := ⟨_, rfl⟩
  obtain ⟨why, hwhy, htell⟩ : ∃ why : DirFailure, why ≠ .reset ∧
      s.failDirective l d cause = b.stepDirectiveFailed rec i why := by
    unfold State.failDirective State.tellFailure
    rw [hissuer, ← hb]
    cases cause with
    | reset => exact absurd rfl hcause
    | ended | failed => exact ⟨.answer, nofun, rfl⟩
    | limit => exact ⟨.limit, nofun, rfl⟩
  have hbr : b.restore rec = some r := by
    rw [restore_congr (s := s)]
    · exact hr
    · rw [hb, decRefs_rst]
      rfl
  have hgain : LinksGain fun ls => ∀ e ∈ (ls[l]).directives, e.tag ≠ tag := linksGain_noTag l tag
  have hnotag : ∀ e ∈ (b.link l).directives, e.tag ≠ tag := by
    rw [hb, hd]
    exact gains_decRefs hgain d.refs (gains_freeAllOf (P := fun ls => ∀ f ∈ (ls[l]).directives, f.tag ≠ tag)
      (.gone l tag) (endDirective_noTag s l tag))
  obtain ⟨-, fdirs, -⟩ := finish_link_kept (s.failDirective l d cause) l
  constructor
  · rw [fdirs, htell]
    exact gains_stepDirectiveFailed hgain rec i why hnotag
  · rw [restore_congr (finish_rst _), htell]
    exact stepDirectiveFailed_spec hbr hrr hx hwhy

/-- A failure answer that names no directive changes nothing (R97). -/
theorem lateFail {k : DirKind} {c : Instr} (hlate : ∀ d ∈ (s.link l).directives, d.tag ≠ tag)
    (hexec : Machine.exec c s = .next (State.finish (State.failAnswer
      (({ s with sent := [] } : State).modLink l fun r => { r with up := true, badRun := 0 }) l tag k))) :
    ∃ t, Machine.exec c s = .next t ∧ t.rst = s.rst ∧ catSettles s.cat t.cat ∧
      (t.link l).directives = (s.link l).directives := by
  obtain ⟨a, ha⟩ : ∃ a, a = ({ s with sent := [] } : State).modLink l fun r => { r with up := true, badRun := 0 } :=
    ⟨_, rfl⟩
  have halink : (a.link l).directives = (s.link l).directives := by
    rw [ha, State.link_modLink_self]
    rfl
  have hanswer : a.failAnswer l tag k = a := by
    unfold State.failAnswer
    rw [matching_none (by rw [halink]; exact hlate)]
  rw [← ha, hanswer] at hexec
  have hcat : a.cat = s.cat := by rw [ha]; rfl
  obtain ⟨-, -, fcat, frst, -⟩ := finish_settles a
  obtain ⟨-, fdirs, -⟩ := finish_link_kept a l
  refine ⟨_, hexec, ?_, ?_, fdirs.trans halink⟩
  · rw [frst, ha]
    rfl
  · rw [hcat] at fcat
    exact fcat

end

end Sys2Proof.Machine

open Sys2Proof Sys2Proof.Machine

/-- Settles O43. -/
theorem failedDirectivesAreReissuedOnce : Obligations.FailedDirectivesAreReissuedOnce := by
  refine ⟨?_, ?_, ?_⟩
  · intro s l tag rec i d r x c hrun hup hd hissuer hr hrr hx hc
    have htag : d.tag = tag := by simpa using List.find?_some hd
    obtain ⟨a, ha⟩ : ∃ a, a = ({ s with sent := [] } : State).modLink l fun r => { r with up := true, badRun := 0 } :=
      ⟨_, rfl⟩
    have had : a.directive l tag = some d := by
      rw [State.directive, ha, State.link_modLink_self]
      exact hd
    have har : a.restore rec = some r := by rw [ha]; exact hr
    have hends (b : State) (cause : PullCause) (hb : b.restore rec = some r) (hcause : cause ≠ .reset)
        (hexec : Machine.exec c s = .next (b.failDirective l d cause).finish) :
        ∃ t, Machine.exec c s = .next t ∧ (∀ e ∈ (t.link l).directives, e.tag ≠ tag) ∧
          FailureTaken r x i (t.restore rec) := by
      obtain ⟨hdirs, htaken⟩ := failDirective_spec (l := l) htag hissuer hcause hb hrr hx
      exact ⟨_, hexec, hdirs, htaken⟩
    have hanswer (k : DirKind) (hk : d.kind = k) : a.failAnswer l tag k = a.failDirective l d .failed := by
      unfold State.failAnswer
      rw [matching_of had hk]
    obtain ⟨t, hexec, hdirs, hcopy, hpauses, hput, hagain⟩ : ∃ t, Machine.exec c s = .next t ∧
        (∀ e ∈ (t.link l).directives, e.tag ≠ tag) ∧ FailureTaken r x i (t.restore rec) := by
      rcases hc with ⟨rfl, hk⟩ | ⟨rfl, hk⟩ | ⟨rfl, hlate⟩
      · have hexec := exec_copyFail (tag := tag) hrun hup
        rw [← ha, hanswer .copy hk] at hexec
        exact hends a .failed har nofun hexec
      · have hexec := exec_putFail (tag := tag) hrun hup
        rw [← ha, hanswer .put hk] at hexec
        exact hends a .failed har nofun hexec
      · have hexec := exec_directiveWaitExpiry hrun hd
        rw [if_pos hlate] at hexec
        exact hends { s with sent := [] } .limit hr nofun hexec
    exact ⟨t, hexec, hdirs, hcopy, hpauses, hput, hagain⟩
  · intro s l tag hrun hup hlate
    exact ⟨lateFail hlate (exec_copyFail hrun hup), lateFail hlate (exec_putFail hrun hup),
      exec_directiveWaitExpiry_none hrun (directive_none hlate)⟩
  · intro s l tag d hrun hd hearly
    exact (exec_directiveWaitExpiry hrun hd).trans (congrArg Host.Outcome.next (if_neg (Nat.not_le.mpr hearly)))

end

section
/-! PROOF. Slots granted, taken back and released (R107 to R111, R151). -/

namespace Sys2Proof.Machine

/-! ### Grants -/

section
variable {s : State}

theorem lowestSlot_spec {m : Nat} (hm : m < 64) (hfree : s.slot m = none) :
    s.lowestSlot < 64 ∧ s.slot s.lowestSlot = none := by
  have hsome : ((List.range Config.slotCount).find? fun n => (s.slot n).isNone).isSome = true := by
    rw [List.find?_isSome]
    exact ⟨m, List.mem_range.mpr hm, by rw [hfree]; rfl⟩
  obtain ⟨n, hn⟩ := Option.isSome_iff_exists.mp hsome
  have hlow : s.lowestSlot = n := by
    unfold State.lowestSlot
    rw [hn]
    rfl
  have hnone : (s.slot n).isNone = true := List.find?_some (p := fun n : Nat => (s.slot n).isNone) hn
  rw [hlow]
  exact ⟨List.mem_range.mp (List.mem_of_find?_eq_some hn), Option.isNone_iff_eq_none.mp hnone⟩

/-- A slot as it is granted (R108). -/
def grantedSlot (c : SlotClass) (h : SlotHolder) (i : Nat) (code : Code) : Slot :=
  { state := .filling, cls := c, holder := h, idx := i, expected := code, computed := crcInit, seq := none, data := []
    fullOrder := 0, covered := false }

/-- A grant of one slot: the lowest free one is FILLING, and the others are as they were. -/
theorem grant_one (c : SlotClass) (h : SlotHolder) (i : Nat) (code : Code) :
    (s.grant c { holder := h, wants := [(i, code)] }).str.slots =
      tput s.str.slots s.lowestSlot (grantedSlot c h i code) := by
  unfold State.grant
  cases h <;> rfl

theorem grant_kept (c : SlotClass) (r : SlotReq) : (s.grant c r).sup = s.sup ∧ (s.grant c r).tally = s.tally ∧
    (s.grant c r).str.waitRepair = s.str.waitRepair ∧ (s.grant c r).str.waitFetch = s.str.waitFetch ∧
    (s.grant c r).str.waitShip = s.str.waitShip ∧ (s.grant c r).str.waitPatrol = s.str.waitPatrol ∧
    (s.grant c r).off.queue = s.off.queue ∧ (s.grant c r).off.plan = s.off.plan ∧
    (s.patrolStill → (s.grant c r).patrolStill) := by
  have hslots (ws : List (Nat × Code)) (u : State) : ws.foldl (State.grantSlot c r.holder) u =
      { u with str := { u.str with slots := (ws.foldl (State.grantSlot c r.holder) u).str.slots } } := by
    induction ws generalizing u with
    | nil => rfl
    | cons w ws ih =>
      rw [List.foldl_cons, ih]
      rfl
  unfold State.grant
  rw [hslots]
  dsimp only
  split
  · exact ⟨rfl, rfl, rfl, rfl, rfl, rfl, rfl, rfl, fun h => h⟩
  · refine ⟨rfl, rfl, rfl, rfl, rfl, rfl, rfl, rfl, fun h => ?_⟩
    obtain ⟨hwork, hfolds, hreps, hclear⟩ := h
    refine ⟨?_, hfolds, hreps, hclear⟩
    change mapIf _ _ s.pat.work = []
    rw [hwork]
    rfl
  · exact ⟨rfl, rfl, rfl, rfl, rfl, rfl, rfl, rfl, fun h => h⟩
  · exact ⟨rfl, rfl, rfl, rfl, rfl, rfl, rfl, rfl, fun h => h⟩
  · exact ⟨rfl, rfl, rfl, rfl, rfl, rfl, rfl, rfl, fun h => h⟩

theorem grantAllowed_urgent {c : SlotClass} {k : Nat} (hop : s.sup.op ≠ .holdup) (hfree : k ≤ s.freeSlots)
    (hc : c = .repair ∨ c = .fetch) : s.grantAllowed c k = true := by
  unfold State.grantAllowed
  rw [decide_eq_true hop, decide_eq_true hfree]
  rcases hc with rfl | rfl <;> rfl

/-- One request of class REPAIR or FETCH, alone among those that wait, is granted where a slot is free (R108). -/
theorem consider_alone {c : SlotClass} {r : SlotReq} (hc : c = .repair ∨ c = .fetch) (hop : s.sup.op ≠ .holdup)
    (hw : s.waiting c = [r]) (hcount : s.waitCount = 1) (hfree : r.wants.length ≤ s.freeSlots) :
    s.consider = (s.setWaiting c []).grant c r := by
  have hothers : c = .fetch → s.str.waitRepair = [] := by
    rintro rfl
    have hf : s.str.waitFetch = [r] := hw
    unfold State.waitCount at hcount
    rw [hf] at hcount
    simp only [List.length_cons, List.length_nil] at hcount
    exact List.eq_nil_of_length_eq_zero (by omega)
  have hgrantable : s.grantable = some c := by
    unfold State.grantable
    have hallowed := grantAllowed_urgent hop hfree hc
    rcases hc with rfl | rfl
    · rw [List.find?_cons_of_pos]
      rw [hw]
      exact hallowed
    · have hr : s.waiting .repair = [] := hothers rfl
      rw [List.find?_cons_of_neg, List.find?_cons_of_pos]
      · rw [hw]
        exact hallowed
      · rw [hr]
        exact Bool.false_ne_true
  have honce : s.considerOnce = (s.setWaiting c []).grant c r := by
    unfold State.considerOnce
    rw [hgrantable]
    dsimp only
    rw [hw]
  unfold State.consider
  rw [hcount]
  exact honce

/-! ### The end of a step -/

theorem finish_slots (h : s.patrolStill) (hrun : s.sup.op ≠ .halted) (n : Nat) : s.finish.slot n = s.slot n := by
  rw [State.slot, (finish_lasting h hrun).2.1, State.slot]

/-- Settling the link makes no request wait. -/
theorem settleLink_waitRepair (h : s.str.waitRepair = []) : s.settleLink.str.waitRepair = [] := by
  have hserve (u : State) (hu : u.str.waitRepair = []) : u.serveRoomOnce.str.waitRepair = [] := by
    unfold State.serveRoomOnce
    split
    · exact hu
    · split
      · unfold State.placeFetch State.askOpening
        split <;> exact hu
      · exact hu
  have hdir (u : State) (hu : u.str.waitRepair = []) : u.redirectOnce.str.waitRepair = [] := by
    have hchoose : u.chooseDir.str.waitRepair = [] := by
      unfold State.chooseDir State.modOff
      exact hu
    unfold State.redirectOnce
    dsimp only
    repeat' split
    all_goals first
      | exact hchoose
      | exact hu
      | rfl
  exact iter_keeps (P := fun u => u.str.waitRepair = []) hdir 3
    (iter_keeps (P := fun u => u.str.waitRepair = []) hserve _ h)

/-! ### A SHIP request that the reserve keeps waiting -/

theorem consider_reserved {r : SlotReq} {rest : List SlotReq} (h1 : s.str.waitRepair = []) (h2 : s.str.waitFetch = [])
    (h3 : s.str.waitShip = r :: rest) (h4 : s.str.waitPatrol = [])
    (hno : 64 - s.str.slots.length < r.wants.length ∨ 64 - s.str.slots.length - r.wants.length <
      (4 - s.slotsHeld .repair) + (8 - s.slotsHeld .fetch)) : s.consider = s := by
  have hallowed : s.grantAllowed .ship r.wants.length = false := by
    have hfree : s.freeSlots = 64 - s.str.slots.length := rfl
    have hreserve : s.reserve = (4 - s.slotsHeld .repair) + (8 - s.slotsHeld .fetch) := rfl
    unfold State.grantAllowed
    rw [hfree, hreserve]
    rcases hno with h | h
    · rw [decide_eq_false (Nat.not_le.mpr h), Bool.and_false, Bool.false_and]
    · dsimp only
      rw [decide_eq_false (p := (4 - s.slotsHeld .repair) + (8 - s.slotsHeld .fetch) ≤
        64 - s.str.slots.length - r.wants.length) (Nat.not_le.mpr h), Bool.and_false, Bool.and_false]
  have hgrantable : s.grantable = none := by
    unfold State.grantable
    refine List.find?_eq_none.mpr fun c _ => ?_
    cases c with
    | repair => simp [State.waiting, h1]
    | fetch => simp [State.waiting, h2]
    | ship => simp [State.waiting, h3, hallowed]
    | patrol => simp [State.waiting, h4]
  have honce : s.considerOnce = s := by
    unfold State.considerOnce
    rw [hgrantable]
  exact iter_fixed honce _

/-! ### A SHIP slot taken back -/

/-- The FULL SHIP slots. -/
def State.fullShip (s : State) : List (Nat × Slot) :=
  s.str.slots.filter fun kv => decide (kv.2.cls = .ship) && decide (kv.2.state = .full)

/-- The one of highest order is what a walk over the slots finds. -/
theorem latest_fold (slots : List (Nat × Slot)) (best : Nat × Slot) :
    ∃ kv, (slots.foldl (fun best kv => match best with
        | none => some kv
        | some b => if b.2.fullOrder ≤ kv.2.fullOrder then some kv else some b) (some best)) = some kv ∧
      (kv = best ∨ kv ∈ slots) ∧ best.2.fullOrder ≤ kv.2.fullOrder ∧
      ∀ y ∈ slots, y.2.fullOrder ≤ kv.2.fullOrder := by
  induction slots generalizing best with
  | nil => exact ⟨best, rfl, .inl rfl, Nat.le_refl _, fun _ h => nomatch h⟩
  | cons y ys ih =>
    rw [List.foldl_cons]
    dsimp only
    split
    next hle =>
      obtain ⟨kv, hkv, hmem, hbest, hall⟩ := ih y
      refine ⟨kv, hkv, .inr ?_, Nat.le_trans hle hbest, fun z hz => ?_⟩
      · exact hmem.elim (fun h => h ▸ List.mem_cons_self) fun h => List.mem_cons_of_mem _ h
      · exact (List.mem_cons.mp hz).elim (fun h => h ▸ hbest) (hall z)
    next hgt =>
      obtain ⟨kv, hkv, hmem, hbest, hall⟩ := ih best
      refine ⟨kv, hkv, hmem.imp_right fun h => List.mem_cons_of_mem _ h, hbest, fun z hz => ?_⟩
      exact (List.mem_cons.mp hz).elim (fun h => h ▸ Nat.le_trans (Nat.le_of_not_le hgt) hbest) (hall z)

theorem latestFull_of {n : Nat} {x : Slot} (hwf : Tbl.wf s.str.slots = true) (hx : s.slot n = some x)
    (hcls : x.cls = .ship) (hst : x.state = .full)
    (hlast : ∀ m y, s.slot m = some y → m ≠ n → y.cls = .ship → y.state = .full → y.fullOrder < x.fullOrder) :
    s.latestFull = some n := by
  have hmem : (n, x) ∈ s.fullShip := List.mem_filter.mpr ⟨mem_of_tget hx, by simp [hcls, hst]⟩
  unfold State.latestFull
  have hdef : (s.str.slots.filter fun kv => decide (kv.2.cls = .ship) && decide (kv.2.state = .full)) = s.fullShip :=
    rfl
  rw [hdef]
  cases hf : s.fullShip with
  | nil =>
    rw [hf] at hmem
    cases hmem
  | cons y ys =>
    rw [List.foldl_cons]
    dsimp only
    obtain ⟨kv, hkv, hin, hbest, hall⟩ := latest_fold ys y
    have hkmem : kv ∈ s.fullShip := by
      rw [hf]
      exact hin.elim (fun h => h ▸ List.mem_cons_self) fun h => List.mem_cons_of_mem _ h
    obtain ⟨hktab, hkp⟩ := List.mem_filter.mp hkmem
    rw [Bool.and_eq_true, decide_eq_true_eq, decide_eq_true_eq] at hkp
    have hkget : s.slot kv.1 = some kv.2 := tget_of_mem 0 _ hwf hktab
    have hle : x.fullOrder ≤ kv.2.fullOrder := by
      rw [hf] at hmem
      exact (List.mem_cons.mp hmem).elim (fun h => by rw [← h] at hbest; exact hbest) fun h => hall _ h
    have hk : kv.1 = n := by
      by_contra hne
      exact absurd (hlast kv.1 kv.2 hkget hne hkp.1 hkp.2) (Nat.not_lt.mpr hle)
    exact (congrArg (Option.map Prod.fst) hkv).trans (congrArg some hk)

/-- A slot request of class REPAIR or FETCH that waits alone. -/
def State.asking (s : State) (c : SlotClass) (r : SlotReq) : State := s.setWaiting c [r]

theorem enqueue_alone {c : SlotClass} {r : SlotReq} (hc : c = .repair ∨ c = .fetch) (hw : s.waiting c = []) :
    s.enqueue c r = s.asking c r := by
  unfold State.enqueue State.asking
  rcases hc with rfl | rfl <;> simp [hw]

theorem asking_kept {c : SlotClass} (hc : c = .repair ∨ c = .fetch) (r : SlotReq) :
    (s.asking c r).sup = s.sup ∧ (s.asking c r).tally = s.tally ∧ (s.asking c r).pat = s.pat ∧
      (s.asking c r).off = s.off ∧ (s.asking c r).str.slots = s.str.slots ∧ (s.asking c r).waiting c = [r] ∧
      (s.asking c r).urgent = true ∧ (s.asking c r).waitCount =
        s.waitCount - (s.waiting c).length + 1 := by
  rcases hc with rfl | rfl
  · refine ⟨rfl, rfl, rfl, rfl, rfl, rfl, rfl, ?_⟩
    unfold State.waitCount State.asking State.setWaiting State.waiting
    simp only [List.length_cons, List.length_nil]
    omega
  · refine ⟨rfl, rfl, rfl, rfl, rfl, rfl, ?_, ?_⟩
    · unfold State.urgent State.asking State.setWaiting
      simp
    · unfold State.waitCount State.asking State.setWaiting State.waiting
      simp only [List.length_cons, List.length_nil]
      omega

theorem takeBackOnce_rest (h : s.urgent = false) : s.takeBackOnce = s := by
  unfold State.takeBackOnce
  rw [h]
  exact if_neg Bool.false_ne_true

/-- What a slot taken back for a request leaves (R109). -/
theorem takeBack_alone {c : SlotClass} {r : SlotReq} {n : Nat} (hc : c = .repair ∨ c = .fetch)
    (hop : s.sup.op ≠ .holdup) (hw : s.waiting c = [r]) (hcount : s.waitCount = 1) (hurgent : s.urgent = true)
    (hlast : s.latestFull = some n) (hfree : r.wants.length ≤ (s.handBack n).freeSlots) :
    s.takeBack = ((s.handBack n).setWaiting c []).grant c r := by
  have hcw : (s.handBack n).waiting c = [r] := by
    rcases hc with rfl | rfl <;> exact hw
  have hconsider := consider_alone (s := s.handBack n) hc hop hcw hcount hfree
  have honce : s.takeBackOnce = ((s.handBack n).setWaiting c []).grant c r := by
    unfold State.takeBackOnce
    rw [if_pos hurgent, hlast]
    exact hconsider
  obtain ⟨-, -, k1, k2, -⟩ := grant_kept (s := (s.handBack n).setWaiting c []) c r
  have hrest : (((s.handBack n).setWaiting c []).grant c r).urgent = false := by
    have hzero : ((s.handBack n).setWaiting c []).str.waitRepair = [] ∧
        ((s.handBack n).setWaiting c []).str.waitFetch = [] := by
      unfold State.waitCount at hcount
      rcases hc with rfl | rfl
      · have hr : s.str.waitRepair = [r] := hw
        rw [hr] at hcount
        simp only [List.length_cons, List.length_nil] at hcount
        exact ⟨rfl, List.eq_nil_of_length_eq_zero (l := s.str.waitFetch) (by omega)⟩
      · have hf : s.str.waitFetch = [r] := hw
        rw [hf] at hcount
        simp only [List.length_cons, List.length_nil] at hcount
        exact ⟨List.eq_nil_of_length_eq_zero (l := s.str.waitRepair) (by omega), rfl⟩
    unfold State.urgent
    rw [k1, k2, hzero.1, hzero.2]
    rfl
  unfold State.takeBack
  have hsize : Config.slotCount = 63 + 1 := rfl
  rw [hsize, iter, honce]
  exact iter_fixed (takeBackOnce_rest hrest) 63

theorem handBack_queue {n : Nat} {y : ShipEntry} (hy : y ∈ s.off.queue) (hslot : y.slot = some n)
    (hst : y.state = .ready) : { y with slot := none, state := .unpulled } ∈ (s.handBack n).off.queue := by
  refine List.mem_filterMap.mpr ⟨y, hy, ?_⟩
  rw [if_pos hslot]
  unfold ShipEntry.handedBack
  rw [hst]

theorem clearShed_queue (h : ∀ p ∈ s.off.plan, p.state ≠ .shed ∧ p.state ≠ .failed) :
    s.clearShed.off.queue = s.off.queue := by
  have hnone : (s.off.plan.filter fun p => decide (p.state = .shed) || decide (p.state = .failed)) = [] := by
    refine List.filter_eq_nil_iff.mpr fun p hp => ?_
    obtain ⟨h1, h2⟩ := h p hp
    simp [h1, h2]
  unfold State.clearShed State.modOff
  rw [hnone]
  exact List.filter_eq_self.mpr fun e _ => rfl

/-! ### The head of the Fetch Queue -/

theorem cls_urgent (e : FetchEntry) : e.cls = .repair ∨ e.cls = .fetch := by
  unfold FetchEntry.cls
  split
  · exact .inl rfl
  · exact .inr rfl

theorem exec_fetchQueueServe (hrun : s.sup.op ≠ .halted) (hup : s.off.link = .up)
    (hdir : s.off.dir ≠ .draining .toClose) :
    Machine.exec .fetchQueueServe s = .next (State.finish (State.serveHead { s with sent := [] })) :=
  (act_withErrs_nil _ hrun).trans (congrArg Host.Outcome.next (if_pos ⟨decide_eq_true hup, hdir⟩))

/-- The request made for a Fetch Queue of one entry (R151). -/
theorem serveHead_single {e : FetchEntry} {i : Nat} (hq : s.off.fetchQueue = [e]) (hi : e.idx = some i)
    (hnone : s.slotFor e.holder.slots i = none) (hw : s.waiting e.cls = []) :
    s.serveHead = s.askSlots e.cls { holder := e.holder.slots, wants := [(i, e.code)] } := by
  have hneeds : s.needsSlot e = true := by
    unfold State.needsSlot
    rw [hi]
    dsimp only
    rw [hnone]
    rfl
  unfold State.serveHead
  rw [hq]
  dsimp only
  rw [hw, if_pos ⟨hneeds, rfl⟩]
  have hfilter : [e].filter (fun x => decide (x.holder = e.holder) && s.needsSlot x) = [e] := by
    simp [hneeds]
  rw [hfilter]
  simp [hi]

end

end Sys2Proof.Machine

open Sys2Proof Sys2Proof.Machine

/-- Settles O44. -/
theorem slotsAreGrantedAndReleased : Obligations.SlotsAreGrantedAndReleased := by
  refine ⟨?_, ?_, ?_, ?_⟩
  · intro s h i m c hrun hop hcalm h1 h2 h3 h4 hlen hm hfree
    let a : State := { s with sent := [] }
    have hfreeSlots : 1 ≤ a.freeSlots := by
      have : a.freeSlots = 64 - s.str.slots.length := rfl
      omega
    have hcount : a.waitCount = 1 := by
      unfold State.waitCount
      change s.str.waitRepair.length + s.str.waitFetch.length + s.str.waitShip.length + s.str.waitPatrol.length = 1
      rw [h1, h2, h3, h4]
      rfl
    have hconsider := consider_alone (s := a) (.inl rfl) hop h1 hcount hfreeSlots
    obtain ⟨w, hw⟩ : ∃ w, w = a.setWaiting .repair [] := ⟨_, rfl⟩
    rw [← hw] at hconsider
    have hws : w.str.slots = s.str.slots := by rw [hw]; rfl
    have hslot (k : Nat) : w.slot k = s.slot k := by rw [State.slot, hws, State.slot]
    obtain ⟨hlt, hnone⟩ := lowestSlot_spec hm ((hslot m).trans hfree)
    have hgrant := grant_one (s := w) .repair h i c
    obtain ⟨ksup, ktally, kr, -, -, -, -, -, kpat⟩ := grant_kept (s := w) .repair { holder := h, wants := [(i, c)] }
    obtain ⟨u, hu⟩ : ∃ u, u = w.grant .repair { holder := h, wants := [(i, c)] } := ⟨_, rfl⟩
    rw [← hu] at hconsider hgrant ksup ktally kr kpat
    have hustill : u.patrolStill := kpat (by rw [hw]; exact hcalm.2)
    have hucalm : u.calm := by
      refine ⟨?_, hustill⟩
      rw [State.tallyStill, ktally, hw]
      exact hcalm.1
    have hurun : u.sup.op ≠ .halted := by
      rw [ksup, hw]
      exact hrun
    have fslot (k : Nat) : u.finish.slot k = tget (tput w.str.slots w.lowestSlot (grantedSlot .repair h i c)) k := by
      rw [finish_slots hustill hurun, State.slot, hgrant]
    refine ⟨u.finish, w.lowestSlot, (act_withErrs_nil _ hrun).trans (congrArg (fun t : State =>
      Host.Outcome.next t.finish) hconsider), ?_, hlt, (hslot _).symm.trans hnone, ?_, fun k hk => ?_⟩
    · rw [finish_calm hucalm hurun]
      refine settleLink_waitRepair (kr.trans ?_)
      rw [hw]
      rfl
    · rw [fslot, tget_tput_self]
      rfl
    · rw [fslot, tget_tput_ne _ _ (Ne.symm hk), hws]
      rfl
  · intro s r rest hrun hcalm h1 h2 h3 h4 hno
    let a : State := { s with sent := [] }
    have hconsider := consider_reserved (s := a) h1 h2 h3 h4 hno
    refine ⟨a.finish,
      (act_withErrs_nil _ hrun).trans (congrArg (fun t : State => Host.Outcome.next t.finish) hconsider),
      (finish_lasting (s := a) hcalm.2 hrun).2.1, ?_⟩
    rw [finish_calm (s := a) hcalm hrun]
    exact (congrArg (fun x => x.2.2.2.1) (settleLink_nightSide a)).trans h3
  · intro s e i n x hrun hop hcalm hup hdir hwaits hq hi hnoslot h1 h2 h3 h4 hwf hlen hall hn hx hcls hst hlast hplan
    let a : State := { s with sent := [] }
    have hc := cls_urgent e
    have hw : a.waiting e.cls = [] := by
      rcases hc with hc | hc <;> rw [hc]
      · exact h1
      · exact h2
    have hserve := serveHead_single (s := a) hq hi hnoslot hw
    obtain ⟨r, hr⟩ : ∃ r : SlotReq, r = { holder := e.holder.slots, wants := [(i, e.code)] } := ⟨_, rfl⟩
    rw [← hr] at hserve
    have hzero : a.freeSlots = 0 := by
      have : a.freeSlots = 64 - s.str.slots.length := rfl
      omega
    have hno : a.grantAllowed e.cls r.wants.length = false := by
      unfold State.grantAllowed
      rw [hzero, hr]
      simp
    have hask : a.askSlots e.cls r = (a.asking e.cls r).takeBack := by
      unfold State.askSlots
      rw [hno, if_neg (fun h => Bool.false_ne_true h.1), enqueue_alone hc hw]
    obtain ⟨qsup, qtally, qpat, qoff, qslots, qw, qurgent, qcount⟩ := asking_kept (s := a) hc r
    have hcount : (a.asking e.cls r).waitCount = 1 := by
      have hz : a.waitCount = 0 := by
        unfold State.waitCount
        change s.str.waitRepair.length + s.str.waitFetch.length + s.str.waitShip.length + s.str.waitPatrol.length = 0
        rw [h1, h2, h3, h4]
        rfl
      rw [qcount, hz]
      omega
    obtain ⟨q, hqdef⟩ : ∃ q, q = a.asking e.cls r := ⟨_, rfl⟩
    rw [← hqdef] at hask qsup qtally qpat qoff qslots qw qurgent hcount
    have hqslot (k : Nat) : q.slot k = s.slot k := by rw [State.slot, qslots, State.slot]
    have hlatest : q.latestFull = some n :=
      latestFull_of (by rw [qslots]; exact hwf) ((hqslot n).trans hx) hcls hst
        fun k y hy => hlast k y ((hqslot k).symm.trans hy)
    have hbslots : (q.handBack n).str.slots = tdel s.str.slots n := by
      rw [← show q.str.slots = s.str.slots from qslots]
      rfl
    have hbfree : r.wants.length ≤ (q.handBack n).freeSlots := by
      have hlt : (tdel s.str.slots n).length < s.str.slots.length := by
        refine List.length_filter_lt_length_iff_exists.mpr ⟨(n, x), mem_of_tget hx, ?_⟩
        simp
      have hf : (q.handBack n).freeSlots = 64 - (q.handBack n).str.slots.length := rfl
      have hone : r.wants.length = 1 := by rw [hr]; rfl
      rw [hf, hbslots, hone]
      omega
    have htake := takeBack_alone (s := q) hc (by rw [qsup]; exact hop) qw hcount qurgent hlatest hbfree
    obtain ⟨w, hwdef⟩ : ∃ w, w = (q.handBack n).setWaiting e.cls [] := ⟨_, rfl⟩
    rw [← hwdef] at htake
    have hwkept : w.str.slots = tdel s.str.slots n ∧ w.sup = s.sup ∧ w.tally = s.tally ∧ w.pat = s.pat ∧
        w.off = (q.handBack n).off := by
      rw [hwdef, ← hbslots]
      rcases hc with hc | hc <;> rw [hc] <;> exact ⟨rfl, qsup, qtally, qpat, rfl⟩
    obtain ⟨wslots, wsup, wtally, wpat, woff⟩ := hwkept
    have hwslot (k : Nat) (hk : k ≠ n) : w.slot k = s.slot k := by
      rw [State.slot, wslots, tget_tdel_ne _ (Ne.symm hk), State.slot]
    have hwn : w.slot n = none := by rw [State.slot, wslots, tget_tdel_self]
    obtain ⟨hlowlt, hlownone⟩ := lowestSlot_spec hn hwn
    have hlow : w.lowestSlot = n := by
      by_contra hne
      rw [hwslot _ hne] at hlownone
      have := hall _ hlowlt
      rw [hlownone] at this
      cases this
    have hgrant := grant_one (s := w) e.cls e.holder.slots i e.code
    rw [← hr, hlow, wslots] at hgrant
    obtain ⟨ksup, ktally, -, -, -, -, kqueue, kplan, kpat⟩ := grant_kept (s := w) e.cls r
    obtain ⟨u, hu⟩ : ∃ u, u = w.grant e.cls r := ⟨_, rfl⟩
    rw [← hu] at htake hgrant ksup ktally kqueue kplan kpat
    have hustill : u.patrolStill := kpat (by rw [State.patrolStill, wpat]; exact hcalm.2)
    have hurun : u.sup.op ≠ .halted := by
      rw [ksup, wsup]
      exact hrun
    have hdone : a.serveHead = u := hserve.trans (hask.trans htake)
    have fslot (k : Nat) : u.finish.slot k =
        tget (tput (tdel s.str.slots n) n (grantedSlot e.cls e.holder.slots i e.code)) k := by
      rw [finish_slots hustill hurun, State.slot, hgrant]
    have huplan : u.off.plan = s.off.plan := by
      have hback : (q.handBack n).off.plan = q.off.plan := rfl
      rw [kplan, woff, hback, qoff]
    refine ⟨u.finish, (exec_fetchQueueServe hrun hup hdir).trans
      (congrArg (fun t : State => Host.Outcome.next t.finish) hdone), ?_, fun k hk => ?_, fun y hy hys hyr => ?_⟩
    · rw [fslot, tget_tput_self]
      rfl
    · rw [fslot, tget_tput_ne _ _ (Ne.symm hk), tget_tdel_ne _ (Ne.symm hk)]
      rfl
    · rw [(finish_lasting hustill hurun).2.2, clearShed_queue (by rw [huplan]; exact hplan), kqueue, woff]
      refine handBack_queue ?_ hys hyr
      rw [qoff]
      exact hy
  · intro s seq n x hrun hcalm hx hcls hseq hst huniq
    let a : State := { s with sent := [] }
    have hfind : (a.str.slots.find? fun kv =>
        decide (kv.2.cls = .ship) && decide (kv.2.seq = some seq) && decide (kv.2.state = .sending)) = some (n, x) := by
      cases hf : a.str.slots.find? fun kv =>
          decide (kv.2.cls = .ship) && decide (kv.2.seq = some seq) && decide (kv.2.state = .sending) with
      | none =>
        have := List.find?_eq_none.mp hf (n, x) (mem_of_tget hx)
        simp [hcls, hseq, hst] at this
      | some kv =>
        have hp := List.find?_some hf
        simp only [Bool.and_eq_true, decide_eq_true_eq] at hp
        obtain ⟨h1, h2⟩ := huniq kv (List.mem_of_find?_eq_some hf) hp.1.1 hp.1.2 hp.2
        rw [← h1, ← h2]
    have htrans : a.transmitted seq = if x.covered then a.freeSlot n
        else a.modSlot n fun x => { x with state := .awaitingAck } := by
      unfold State.transmitted
      rw [hfind]
    have hexec : Machine.exec (.shipFrameTransmitted seq) s = .next (a.transmitted seq).finish :=
      act_withErrs_nil _ hrun
    cases hcov : x.covered with
    | true =>
      rw [hcov, if_pos rfl] at htrans
      rw [htrans] at hexec
      have fslot (k : Nat) : (a.freeSlot n).finish.slot k = (a.freeSlot n).slot k :=
        finish_slots (s := a.freeSlot n) hcalm.2 hrun k
      refine ⟨_, hexec, fun h => (nomatch h), fun _ => ?_, fun k hk => ?_⟩
      · rw [fslot]
        exact tget_tdel_self _ _
      · rw [fslot]
        exact tget_tdel_ne _ (Ne.symm hk)
    | false =>
      rw [hcov, if_neg Bool.false_ne_true] at htrans
      rw [htrans] at hexec
      have fslot (k : Nat) := finish_slots (s := a.modSlot n fun x => { x with state := .awaitingAck }) hcalm.2 hrun k
      refine ⟨_, hexec, fun _ => ?_, fun h => (nomatch h), fun k hk => ?_⟩
      · have hxa : a.slot n = some x := hx
        rw [fslot, State.slot_modSlot, hxa, Option.map_some, hcov]
      · rw [fslot]
        exact tget_tmod_ne _ _ (Ne.symm hk)

end

section
/-! PROOF. The window: its opening, its close and the end of the night (R118 to R120, R73, R154). -/

namespace Sys2Proof.Machine

section
variable {s t u : State} {vol : Nat}

/-! ### The nightly dues opened -/

/-- From one state to another, links and dues alone differ, and no nightly due has closed. -/
structure NightlyOpened (s t : State) : Prop where
  frame : t = { s with links := t.links, cat.dues := t.cat.dues }
  stays : ∀ vol, (s.duesOf vol).nightly.isSome = true → (t.duesOf vol).nightly.isSome = true

namespace NightlyOpened

theorem refl (s : State) : NightlyOpened s s := ⟨rfl, fun _ h => h⟩

theorem trans (h : NightlyOpened s t) (k : NightlyOpened t u) : NightlyOpened s u := by
  refine ⟨?_, fun vol hs => k.stays vol (h.stays vol hs)⟩
  have hframe := k.frame
  rw [h.frame] at hframe
  exact hframe

end NightlyOpened

theorem nightlyOpened_setDues (s : State) (vol : Nat) (d : Due) :
    NightlyOpened s (s.setDues vol ((s.duesOf vol).put true (some d))) ∧
      ((s.setDues vol ((s.duesOf vol).put true (some d))).duesOf vol).nightly = some d := by
  have hself : ((s.setDues vol ((s.duesOf vol).put true (some d))).duesOf vol).nightly = some d :=
    congrArg Dues.nightly (duesOf_setDues s vol _)
  refine ⟨⟨rfl, fun w hw => ?_⟩, hself⟩
  by_cases h : vol = w
  · subst h
    rw [hself]
    rfl
  · rw [duesOf_setDues_ne s _ h]
    exact hw

theorem nightlyOpened_sendCutDue (s : State) (vol : Nat) : NightlyOpened s (s.sendCutDue vol true) := by
  unfold State.sendCutDue
  split
  · split
    · exact (nightlyOpened_setDues s vol _).1.trans ⟨rfl, fun _ h => h⟩
    · exact NightlyOpened.refl s
  · exact NightlyOpened.refl s

theorem openDue_nightly (s : State) (vol : Nat) : NightlyOpened s (s.openDue true vol) ∧
    ((s.openDue true vol).duesOf vol).nightly.isSome = true := by
  obtain ⟨hset, hself⟩ := nightlyOpened_setDues s vol { opened := s.sup.elapsed, clock := s.sup.clock, sent := false }
  have hsend := nightlyOpened_sendCutDue (s.setDues vol ((s.duesOf vol).put true
    (some { opened := s.sup.elapsed, clock := s.sup.clock, sent := false }))) vol
  exact ⟨hset.trans hsend, hsend.stays vol (by rw [hself]; rfl)⟩

theorem openDues_nightly (vols : List Nat) (s : State) :
    NightlyOpened s (vols.foldl (fun s vol => s.openDue true vol) s) ∧
      ∀ vol ∈ vols, ((vols.foldl (fun s vol => s.openDue true vol) s).duesOf vol).nightly.isSome = true := by
  induction vols generalizing s with
  | nil => exact ⟨NightlyOpened.refl s, fun _ h => nomatch h⟩
  | cons x vols ih =>
    obtain ⟨hone, hself⟩ := openDue_nightly s x
    obtain ⟨hrest, hall⟩ := ih (s.openDue true x)
    refine ⟨hone.trans hrest, fun vol hvol => ?_⟩
    rcases List.mem_cons.mp hvol with rfl | hin
    · exact hrest.stays _ hself
    · exact hall vol hin

theorem volumesIf_of {p : Volume → Bool} {v : Volume} (hv : s.volume vol = some v) (hp : p v = true) :
    vol ∈ s.volumesIf p := by
  unfold State.volume at hv
  split at hv
  · exact List.mem_map.mpr ⟨(vol, v), List.mem_filter.mpr ⟨mem_of_tget hv, hp⟩, rfl⟩
  · cases hv

/-! ### The opening -/

/-- A link that is asked to open starts a session in ACTIVE where it is DOWN; links, dues and the night's registers
stand. -/
theorem askOpening_night (s : State) : s.askOpening.sup = s.sup ∧ s.askOpening.cat = s.cat ∧
    s.askOpening.pat = s.pat ∧ s.askOpening.off.lasting = s.off.lasting ∧
    (s.sup.op = .active → s.off.link = .down → s.askOpening.off.link = .opening 1 ∧
      Output.offsite (.open 0 16) ∈ s.askOpening.sent) := by
  unfold State.askOpening
  split
  · exact ⟨rfl, rfl, rfl, rfl, fun _ _ => ⟨rfl, List.mem_append_right _ (List.mem_singleton.mpr rfl)⟩⟩
  · next h => exact ⟨rfl, rfl, rfl, rfl, fun h1 h2 => absurd ⟨h1, h2⟩ h⟩

/-- What the opening of the window leaves (R73, R119). -/
theorem openWindow_spec (s : State) : s.openWindow.sup = s.applyPending.sup ∧ s.openWindow.pat = s.pat ∧
    s.openWindow.off.lasting = s.windowSet.off.lasting ∧
    (∀ vol v, s.volume vol = some v → v.nightlyCut = true → (s.openWindow.duesOf vol).nightly.isSome = true) ∧
    (s.sup.op = .active → s.off.link = .down → s.openWindow.off.link = .opening 1 ∧
      Output.offsite (.open 0 16) ∈ s.openWindow.sent) := by
  obtain ⟨hopened, hall⟩ := openDues_nightly (s.windowSet.volumesIf fun v => v.nightlyCut) s.windowSet
  rw [openWindow_eq]
  generalize (s.windowSet.volumesIf fun v => v.nightlyCut).foldl (fun s vol => s.openDue true vol) s.windowSet = w
    at hopened hall
  obtain ⟨hsup, hcat, hpat, hlast, hlink⟩ := askOpening_night w
  have hframe := hopened.frame
  have hwsup : w.sup = s.applyPending.sup := by rw [hframe]; rfl
  have hwoff : w.off = s.windowSet.off := by rw [hframe]
  have hwpat : w.pat = s.pat := by rw [hframe]; rfl
  refine ⟨hsup.trans hwsup, hpat.trans hwpat, hlast.trans (congrArg Offsite.lasting hwoff), fun vol v hv hn => ?_,
    fun hop hdown => hlink ((congrArg Supervisor.op hwsup).trans hop) ((congrArg Offsite.link hwoff).trans hdown)⟩
  rw [duesOf_congr (congrArg Catalogue.dues hcat)]
  exact hall vol (volumesIf_of (s := s.windowSet) hv hn)

/-- The first clock value after a clock whose time of day is a given one comes within a day. -/
theorem closeAfter_spec (clock : Nat) {close : Nat} (h : close < 86400) :
    clock < closeAfter clock close ∧ closeAfter clock close ≤ clock + 86400 ∧
      closeAfter clock close % 86400 = close := by
  unfold closeAfter timeOfDay
  omega

/-! ### The close -/

/-- From one state to another, links, slots, pull runs and the Ship Queue alone differ. -/
structure RunsGone (s t : State) : Prop where
  frame : t = { s with links := t.links, str := t.str, off.pulls := t.off.pulls, off.queue := t.off.queue }

theorem RunsGone.refl (s : State) : RunsGone s s := ⟨rfl⟩

theorem RunsGone.trans (h : RunsGone s t) (k : RunsGone t u) : RunsGone s u := by
  have hframe := k.frame
  rw [h.frame] at hframe
  exact ⟨hframe⟩

theorem runsGone_of_freed (h : RunsFreed s t) : RunsGone s t := by
  refine ⟨?_⟩
  have hframe := h.frame
  have hqueue : t.off.queue = s.off.queue := by rw [hframe]
  rw [hqueue]
  exact hframe

theorem runsGone_foldl {α : Type} {f : State → α → State} (hf : ∀ s x, RunsGone s (f s x)) (xs : List α) (s : State) :
    RunsGone s (xs.foldl f s) := by
  induction xs generalizing s with
  | nil => exact RunsGone.refl s
  | cons x xs ih => exact (hf s x).trans (ih _)

theorem runsGone_shut (s : State) : RunsGone s (s.cancelRuns fun _ => true).freeFullShip :=
  (runsGone_of_freed (runsFreed_foldl (fun s (x : ShipPull) => runsFreed_cancelRun s x.n) _ s)).trans
    (runsGone_foldl (fun _ _ => ⟨rfl⟩) _ _)

/-- Closing the nightly dues of volumes touches dues alone, and none of those volumes has a nightly due after. -/
theorem closeDues_nightly (vols : List Nat) (s : State) :
    (vols.foldl (fun s vol => s.closeDue true vol) s =
      { s with cat.dues := (vols.foldl (fun s vol => s.closeDue true vol) s).cat.dues }) ∧
    ∀ vol, vol ∈ vols ∨ (s.duesOf vol).nightly = none →
      ((vols.foldl (fun s vol => s.closeDue true vol) s).duesOf vol).nightly = none := by
  induction vols generalizing s with
  | nil => exact ⟨rfl, fun vol h => h.resolve_left (fun hno => nomatch hno)⟩
  | cons x vols ih =>
    obtain ⟨hframe, hall⟩ := ih (s.closeDue true x)
    refine ⟨hframe, fun vol hvol => hall vol ?_⟩
    by_cases hx : x = vol
    · exact .inr (by subst hx; exact congrArg Dues.nightly (duesOf_setDues s x _))
    · rcases hvol with hin | hnone
      · exact .inl ((List.mem_cons.mp hin).resolve_left fun h => hx h.symm)
      · exact .inr ((congrArg Dues.nightly (duesOf_setDues_ne s _ hx)).trans hnone)

/-- The night set to end, the entries not sent and the VOLUME_DONEs gone (R120, R154). -/
def State.nightEnds (s : State) : State :=
  s.modOff fun o =>
    { o with
      phase := .ending s.sup.elapsed s.sup.settings.ackWait
      queue := o.queue.filter fun e => !e.unsent
      controls := o.controls.filter fun c => match c with
        | .volumeDone .. => false
        | .drop _ _ => true }

theorem windowShut_eq (s : State) : s.windowShut =
    (((s.cancelRuns fun _ => true).freeFullShip.nightEnds).cat.volumes.map Prod.fst).foldl
      (fun s vol => s.closeDue true vol) (s.cancelRuns fun _ => true).freeFullShip.nightEnds := rfl

/-- What the close of the window leaves (R120, R154). -/
theorem windowShut_spec (s : State) : s.windowShut.sup = s.sup ∧ s.windowShut.pat = s.pat ∧
    s.windowShut.off.phase = .ending s.sup.elapsed s.sup.settings.ackWait ∧
    s.windowShut.off.outstanding = s.off.outstanding ∧ (∀ e ∈ s.windowShut.off.queue, e.unsent = false) ∧
    ∀ vol v, s.volume vol = some v → (s.windowShut.duesOf vol).nightly = none := by
  have hframe := (runsGone_shut s).frame
  rw [windowShut_eq]
  generalize (s.cancelRuns fun _ => true).freeFullShip = w at hframe ⊢
  have hwsup : w.sup = s.sup := by rw [hframe]
  have hwpat : w.pat = s.pat := by rw [hframe]
  have hwout : w.off.outstanding = s.off.outstanding := by rw [hframe]
  have hwvol (vol : Nat) : w.volume vol = s.volume vol := volume_congr (by rw [hframe]) vol
  obtain ⟨hdues, hall⟩ := closeDues_nightly (w.nightEnds.cat.volumes.map Prod.fst) w.nightEnds
  generalize (w.nightEnds.cat.volumes.map Prod.fst).foldl (fun s vol => s.closeDue true vol) w.nightEnds = y
    at hdues hall ⊢
  have hoff : y.off = w.nightEnds.off := by rw [hdues]
  have hsup : y.sup = s.sup := Eq.trans (by rw [hdues]; rfl) hwsup
  have hpat : y.pat = s.pat := Eq.trans (by rw [hdues]; rfl) hwpat
  refine ⟨hsup, hpat, ?_, ?_, fun e he => ?_, fun vol v hv => hall vol (.inl ?_)⟩
  · rw [hoff, ← hwsup]
    rfl
  · rw [hoff, ← hwout]
    rfl
  · rw [hoff] at he
    simpa using (List.mem_filter.mp he).2
  · have hmem := volumesIf_of (p := fun _ => true) (s := w) ((hwvol vol).trans hv) rfl
    obtain ⟨kv, hkv, rfl⟩ := List.mem_map.mp hmem
    exact List.mem_map_of_mem (List.mem_filter.mp hkv).1

/-- A close with frames outstanding leaves the night ending (R120). -/
theorem closeWindow_ending (hphase : s.off.phase = .windowOpen) (hships : s.shipsOut = true) :
    s.closeWindow = s.windowShut := by
  obtain ⟨-, -, -, hout, -, -⟩ := windowShut_spec s
  have hstill : s.windowShut.shipsOut = true := by
    unfold State.shipsOut
    rw [hout]
    exact hships
  rw [closeWindow_eq, if_pos (show s.windowIsOpen = true from decide_eq_true hphase), tryEndNight_eq, if_neg]
  unfold State.nightIsOver
  rw [hstill]
  simp

/-! ### The end of the night -/

/-- Queueing a notice changes links alone. -/
theorem queueTo_eq (b : NoticeBody) (n : Notice) (ls : List Link) (s : State) :
    State.queueTo b n ls s = { s with links := (State.queueTo b n ls s).links } := by
  induction ls generalizing s with
  | nil => rfl
  | cons l ls ih =>
    unfold State.queueTo
    rw [ih]
    split <;> rfl

/-- A notice raised changes the Supervisor's counts and the links alone. -/
theorem raise_eq (s : State) (b : NoticeBody) :
    s.raise b = { s with sup := (s.raise b).sup, links := (s.raise b).links } := by
  unfold State.raise
  dsimp only
  rw [queueTo_eq]
  rfl

theorem raise_parts (s : State) (b : NoticeBody) :
    (s.raise b).off = s.off ∧ (s.raise b).pat = s.pat ∧ (s.raise b).sent = s.sent := by
  rw [raise_eq]
  exact ⟨rfl, rfl, rfl⟩

/-- From one state to another, the snapshots and the plan alone differ. -/
structure PlanUnpinned (s t : State) : Prop where
  frame : t = { s with cat.snapshots := t.cat.snapshots, off.plan := t.off.plan }

theorem PlanUnpinned.refl (s : State) : PlanUnpinned s s := ⟨rfl⟩

theorem PlanUnpinned.trans (h : PlanUnpinned s t) (k : PlanUnpinned t u) : PlanUnpinned s u := by
  have hframe := k.frame
  rw [h.frame] at hframe
  exact ⟨hframe⟩

theorem planUnpinned_dropPin (s : State) (vol gen : Nat) (ship : Bool) : PlanUnpinned s (s.dropPin vol gen ship) := by
  refine ⟨?_⟩
  rw [dropPin_eq]

theorem planUnpinned_dropShipPins (s : State) (vol : Nat) : PlanUnpinned s (s.dropShipPins vol) := by
  unfold State.dropShipPins
  split
  · exact PlanUnpinned.refl s
  · have hmod (f : PlanVol → PlanVol) : PlanUnpinned s (s.modPlan vol f) := ⟨rfl⟩
    dsimp only
    split <;> split
    · exact ((hmod _).trans (planUnpinned_dropPin _ _ _ _)).trans (planUnpinned_dropPin _ _ _ _)
    · exact (hmod _).trans (planUnpinned_dropPin _ _ _ _)
    · exact (hmod _).trans (planUnpinned_dropPin _ _ _ _)
    · exact hmod _

theorem planUnpinned_nightCounted (s : State) :
    PlanUnpinned (s.modOff fun o => { o with nFailed := o.nFailed + s.plansLeft }) s.nightCounted := by
  unfold State.nightCounted
  generalize s.off.plan.map PlanVol.vol = vols
  generalize (s.modOff fun o => { o with nFailed := o.nFailed + s.plansLeft }) = w
  induction vols generalizing w with
  | nil => exact PlanUnpinned.refl w
  | cons x vols ih => exact (planUnpinned_dropShipPins w x).trans (ih _)

/-- The night done: no plan and no fold entry is left (R120). -/
def State.nightDone (s : State) : State :=
  (s.modOff fun o => { o with phase := .closed, closeInstant := none, plan := [], shedScopes := [] }).modPat fun p =>
    { p with folds := [] }

theorem nightClosed_eq (s : State) : s.nightClosed = s.nightReported.nightDone := rfl

/-- What the end of the night leaves, before the values that waited for it come into force (R120). -/
theorem nightClosed_spec (s : State) :
    s.nightClosed.off = { s.off with
      nFailed := s.off.nFailed + s.plansLeft, phase := .closed, closeInstant := none, plan := [], shedScopes := [] } ∧
    s.nightClosed.pat = { s.pat with folds := [] } ∧ s.nightClosed.tally = s.tally ∧ s.nightClosed.sent = s.sent ∧
    s.nightClosed.sup.raised = modAt s.sup.raised 6 countUp := by
  have hcounted := (planUnpinned_nightCounted s).frame
  have hoff : s.nightReported.off = s.nightCounted.off := by unfold State.nightReported; exact (raise_parts _ _).1
  have hpat : s.nightReported.pat = s.nightCounted.pat := by unfold State.nightReported; exact (raise_parts _ _).2.1
  have hsent : s.nightReported.sent = s.nightCounted.sent := by unfold State.nightReported; exact (raise_parts _ _).2.2
  have htally : s.nightReported.tally = s.nightCounted.tally := by unfold State.nightReported; exact raise_tally _ _
  have hraised : s.nightReported.sup.raised = modAt s.nightCounted.sup.raised 6 countUp := by
    unfold State.nightReported
    exact raise_raised _ _
  generalize s.nightCounted = w at hcounted hoff hpat htally hsent hraised
  rw [nightClosed_eq]
  generalize s.nightReported = y at hoff hpat htally hsent hraised
  have kpat : w.pat = s.pat := by rw [hcounted]; rfl
  have ksup : w.sup = s.sup := by rw [hcounted]; rfl
  have ktally : w.tally = s.tally := by rw [hcounted]; rfl
  have ksent : w.sent = s.sent := by rw [hcounted]; rfl
  have koff : w.off = { s.off with nFailed := s.off.nFailed + s.plansLeft, plan := w.off.plan } :=
    congrArg State.off hcounted
  refine ⟨?_, ?_, ?_, ?_, ?_⟩
  · unfold State.nightDone State.modPat State.modOff
    rw [hoff, koff]
  · unfold State.nightDone State.modPat State.modOff
    rw [hpat, kpat]
  · exact htally.trans ktally
  · exact hsent.trans ksent
  · exact hraised.trans (by rw [ksup])

/-- The opening of the window sends no less. -/
theorem sent_openWindow (s : State) : s.sent <+: s.openWindow.sent := by
  have hframe := (openDues_nightly (s.windowSet.volumesIf fun v => v.nightlyCut) s.windowSet).1.frame
  rw [openWindow_eq]
  generalize (s.windowSet.volumesIf fun v => v.nightlyCut).foldl (fun s vol => s.openDue true vol) s.windowSet = w
    at hframe
  have hsent : w.sent = s.sent := by rw [hframe]; rfl
  unfold State.askOpening
  split
  · exact ⟨[.offsite (.open 0 16)], by rw [← hsent]; rfl⟩
  · rw [hsent]

/-- What an evaluation of the window leaves of the Patrol Unit, of the frames outstanding and of what was sent. -/
theorem evaluateOpen_spec (s : State) : s.evaluateOpen.pat = s.pat ∧
    s.evaluateOpen.off.outstanding = s.off.outstanding ∧ s.sent <+: s.evaluateOpen.sent := by
  unfold State.evaluateOpen
  split
  · obtain ⟨-, hpat, hlast, -, -⟩ := openWindow_spec s
    exact ⟨hpat, (congrArg Offsite.outstanding hlast : _), sent_openWindow s⟩
  · exact ⟨rfl, rfl, List.prefix_refl _⟩

/-- The same of a look for the night's end, with the Patrol Unit at rest. -/
theorem tryEndNight_spec (s : State) : (s.patrolStill → s.tryEndNight.patrolStill) ∧
    s.tryEndNight.off.outstanding = s.off.outstanding ∧ s.sent <+: s.tryEndNight.sent := by
  rw [tryEndNight_eq]
  split
  · obtain ⟨hoff, hpat, -, hsent, -⟩ := nightClosed_spec s
    have hout : s.nightClosed.off.outstanding = s.off.outstanding := by rw [hoff]
    generalize s.nightClosed = w at hpat hsent hout
    obtain ⟨kpat, kout, ksent⟩ := evaluateOpen_spec w.applyWindow
    refine ⟨fun ⟨hwork, _, hreps, hclear⟩ => ?_, kout.trans hout, hsent ▸ ksent⟩
    have hp : w.applyWindow.evaluateOpen.pat = { s.pat with folds := [] } := kpat.trans hpat
    unfold State.patrolStill
    rw [hp]
    exact ⟨hwork, rfl, hreps, hclear⟩
  · exact ⟨id, rfl, List.prefix_refl _⟩

/-! ### Frames abandoned -/

/-- From one state to another, slots and the Ship Queue alone differ. -/
structure FramesBack (s t : State) : Prop where
  frame : t = { s with str := t.str, off.queue := t.off.queue }

theorem FramesBack.refl (s : State) : FramesBack s s := ⟨rfl⟩

theorem FramesBack.trans (h : FramesBack s t) (k : FramesBack t u) : FramesBack s u := by
  have hframe := k.frame
  rw [h.frame] at hframe
  exact ⟨hframe⟩

theorem framesBack_giveBack (s : State) (f : OutFrame) : FramesBack s (s.giveBack f) := by
  unfold State.giveBack
  split
  · split
    · exact FramesBack.refl s
    · split
      · exact FramesBack.refl s
      · have hends (w : State) (hw : FramesBack s w) (f : Offsite → List ShipEntry) (num : Nat)
            (g : ShipEntry → ShipEntry) : FramesBack s (if w.nightEnding then
              w.modOff fun o => { o with queue := f o } else w.modEntry num g) := by
          split <;> exact hw.trans ⟨rfl⟩
        dsimp only
        split
        · exact hends _ ⟨rfl⟩ _ _ _
        · exact hends _ (FramesBack.refl s) _ _ _
  · exact FramesBack.refl s
  · split
    · exact FramesBack.refl s
    · unfold State.freeFilling
      split
      · exact FramesBack.refl s
      · exact ⟨rfl⟩

theorem framesBack_foldl (fs : List OutFrame) (s : State) : FramesBack s (fs.foldl State.giveBack s) := by
  induction fs generalizing s with
  | nil => exact FramesBack.refl s
  | cons f fs ih => exact (framesBack_giveBack s f).trans (ih _)

/-- What abandoning the frames of an ending night leaves (R154). -/
theorem abandonFrames_spec (s : State) : s.abandonFrames.pat = s.pat ∧ s.abandonFrames.sup = s.sup ∧
    s.abandonFrames.shipsOut = false ∧
    (s.off.link = .up → Output.offsite .close ∈ s.abandonFrames.sent) := by
  obtain ⟨fs, hfs⟩ : ∃ fs, fs = s.off.outstanding.filter fun f => f.body.isShip := ⟨_, rfl⟩
  have hframe := (framesBack_foldl fs s).frame
  unfold State.abandonFrames
  dsimp only
  rw [← hfs]
  generalize fs.foldl State.giveBack s = w at hframe
  have hwlink : w.off.link = s.off.link := by rw [hframe]
  have hwpat : w.pat = s.pat := by rw [hframe]
  have hwsup : w.sup = s.sup := by rw [hframe]
  obtain ⟨x, hx⟩ : ∃ x, x = (w.freeSlotsIf fun x => decide (x.cls = .ship) &&
      (decide (x.state = .sending) || decide (x.state = .awaitingAck))).modOff fun o =>
    { o with
      outstanding := o.outstanding.filter fun f => !f.body.isShip
      controls := joinControls false (controlsBack true fs) o.controls } := ⟨_, rfl⟩
  rw [← hx]
  have hxpat : x.pat = s.pat := by rw [hx]; exact hwpat
  have hxsup : x.sup = s.sup := by rw [hx]; exact hwsup
  have hxlink : x.off.link = s.off.link := by rw [hx]; exact hwlink
  have hxships : x.shipsOut = false := by
    rw [hx]
    exact List.any_eq_false.mpr fun f hf => by simpa using (List.mem_filter.mp hf).2
  have hclose : (if x.linkUp then x.closeLink else x).pat = s.pat ∧ (if x.linkUp then x.closeLink else x).sup = s.sup ∧
      (if x.linkUp then x.closeLink else x).shipsOut = false ∧
      (s.off.link = .up → Output.offsite .close ∈ (if x.linkUp then x.closeLink else x).sent) := by
    split
    · exact ⟨hxpat, hxsup, hxships, fun _ => List.mem_append_right _ (List.mem_singleton.mpr rfl)⟩
    · next hdown => exact ⟨hxpat, hxsup, hxships, fun hup => absurd (decide_eq_true (hxlink.trans hup)) hdown⟩
  generalize (if x.linkUp then x.closeLink else x) = y at hclose
  split
  · obtain ⟨hpat, hsup, hships, hsent⟩ := hclose
    unfold State.askOpening
    split
    · exact ⟨hpat, hsup, hships, fun hup => List.mem_append_left _ (hsent hup)⟩
    · exact ⟨hpat, hsup, hships, hsent⟩
  · exact hclose

end

end Sys2Proof.Machine
end

section
/-! PROOF. The window's commands: opening, requests, closing, night end, frames abandoned (O45). -/

namespace Sys2Proof.Machine

section
variable {s : State} {l : Link}

/-! ### The opening by the clock -/

theorem exec_windowOpening (hrun : s.sup.op ≠ .halted) : Sys2Proof.Machine.exec .windowOpening s =
    .next (if s.opensNow then ({ s with sent := [] } : State).openWindow.finish else { s with sent := [] }) := by
  change execWindowOpening s [] = _
  unfold execWindowOpening
  rw [act_withErrs_nil _ hrun]
  rfl

theorem opensNow_no (h : s.sup.op ≠ .active ∨ s.off.phase ≠ .closed ∨ s.internal = false ∨
    s.sup.clock % 86400 ≠ s.sup.settings.openTime) : s.opensNow = false := by
  cases ho : s.opensNow with
  | false => rfl
  | true =>
    unfold State.opensNow timeOfDay at ho
    simp only [Bool.and_eq_true, decide_eq_true_eq] at ho
    obtain ⟨⟨⟨⟨⟨⟨hop, hphase⟩, hint⟩, -⟩, -⟩, htime⟩, -⟩ := ho
    rcases h with h | h | h | h
    · exact absurd hop h
    · exact absurd hphase h
    · rw [hint] at h
      cases h
    · exact absurd htime h

/-- The opening by the clock (R73, R118, R119, R140). -/
theorem windowOpening_spec (hop : s.sup.op = .active) (hcalm : s.calm) :
    ∃ t, t = ({ s with sent := [] } : State).openWindow.finish ∧ t.off.phase = .windowOpen ∧ t.off.plan = [] ∧
      t.off.shedScopes = [] ∧ t.off.nComplete = 0 ∧ t.off.nShed = 0 ∧ t.off.nMissed = 0 ∧ t.off.nFailed = 0 ∧
      t.sup.pendingSettings = PendingSettings.none ∧ t.off.rate = t.sup.settings.assumedRate ∧
      t.sup.settings.assumedRate = s.sup.pendingSettings.assumedRate.getD s.sup.settings.assumedRate ∧
      (t.sup.settings.windowSource = .internal → t.sup.settings.closeTime < 86400 →
        ∃ c, t.off.closeInstant = some c ∧ s.sup.clock < c ∧ c ≤ s.sup.clock + 86400 ∧
          c % 86400 = t.sup.settings.closeTime) ∧
      (t.sup.settings.windowSource = .external → t.off.closeInstant = none) ∧
      (∀ vol v, s.volume vol = some v → v.nightlyCut = true → (t.duesOf vol).nightly.isSome = true) ∧
      (s.off.link = .down → t.off.link = .opening 1 ∧ Output.offsite (.open 0 16) ∈ t.sent) := by
  let a : State := { s with sent := [] }
  obtain ⟨hsup, hpat, hlast, hdues, hlink⟩ := openWindow_spec a
  obtain ⟨u, hu⟩ : ∃ u, u = a.openWindow := ⟨_, rfl⟩
  rw [← hu] at hsup hpat hlast hdues hlink
  have hurun : u.sup.op ≠ .halted := by
    rw [hsup]
    exact fun hno => nomatch hop.symm.trans hno
  have hstill : u.patrolStill := by
    unfold State.patrolStill
    rw [hpat]
    exact hcalm.2
  obtain ⟨-, -, -, -, -, -, -, -, -, -, -, -, hsettings, hpending⟩ := supKept_finish_of (u := u) (supKept_refl u.sup)
  obtain ⟨-, -, ⟨⟨-, -, -, -, -, kdues⟩, -⟩, -, -, -, ksent⟩ := finish_settles u
  have kset : u.finish.sup.settings = a.applyPending.sup.settings := hsettings.trans (congrArg Supervisor.settings hsup)
  have klast : u.finish.off.lasting = a.windowSet.off.lasting := (finish_lasting hstill hurun).1.trans hlast
  have hclose : u.finish.off.closeInstant = if a.applyPending.internal then
      some (closeAfter s.sup.clock a.applyPending.sup.settings.closeTime) else none :=
    (congrArg Offsite.closeInstant klast : _)
  have hrate : u.finish.off.rate = a.applyPending.sup.settings.assumedRate := (congrArg Offsite.rate klast : _)
  refine ⟨_, rfl, ?_⟩
  rw [← hu, kset]
  refine ⟨(congrArg Offsite.phase klast : _), (congrArg Offsite.plan klast : _),
    (congrArg Offsite.shedScopes klast : _), (congrArg Offsite.nComplete klast : _),
    (congrArg Offsite.nShed klast : _), (congrArg Offsite.nMissed klast : _), (congrArg Offsite.nFailed klast : _),
    hpending.trans (congrArg Supervisor.pendingSettings hsup), hrate, rfl, fun hint hlt => ?_, fun hext => ?_,
    fun vol v hv hn => ?_, fun hdown => ?_⟩
  · rw [hclose, if_pos (show a.applyPending.internal = true from decide_eq_true hint)]
    exact ⟨_, rfl, closeAfter_spec _ hlt⟩
  · rw [hclose, if_neg]
    unfold State.internal
    rw [hext]
    exact Bool.false_ne_true
  · rw [duesOf_congr kdues]
    exact hdues vol v hv hn
  · obtain ⟨hopening, hsent⟩ := hlink hop hdown
    have hsession := session_finish hstill hurun (by rw [hopening]; nofun) (.inl (by rw [hopening]; nofun))
    exact ⟨(congrArg Prod.fst hsession : _).trans hopening, ksent.subset hsent⟩

/-! ### The requests -/

theorem exec_windowOpen (tag : Nat) (h : s.takes l) (hr : s.role l = .console) :
    Sys2Proof.Machine.exec (.windowOpen l tag) s = .next
      (if s.internal ∨ s.sup.op ≠ .active then
          (s.asked l tag .windowOpen).reply l s.sup.nextReq .wrongState .none
        else if s.nightEnding then (s.asked l tag .windowOpen).reply l s.sup.nextReq .busy .none
        else if s.windowIsOpen then (s.asked l tag .windowOpen).reply l s.sup.nextReq .done .none
        else (s.asked l tag .windowOpen).openWindow.reply l s.sup.nextReq .done .none).finish :=
  act_asked tag .windowOpen _ h (.inr hr)

theorem exec_windowClose (tag : Nat) (h : s.takes l) (hr : s.role l = .console) :
    Sys2Proof.Machine.exec (.windowClose l tag) s = .next
      (if s.internal then (s.asked l tag .windowClose).reply l s.sup.nextReq .wrongState .none
        else if s.windowIsOpen then
          (s.asked l tag .windowClose).closeWindow.reply l s.sup.nextReq .accepted .none
        else (s.asked l tag .windowClose).reply l s.sup.nextReq .done .none).finish :=
  act_asked tag .windowClose _ h (.inr hr)

/-- A reply and the end of the step keep the phase of the night and the dues. -/
theorem finish_reply_night (u : State) (l : Link) (n : Nat) (st : Status) (b : ReplyBody) :
    (u.reply l n st b).finish.off.phase = u.off.phase ∧ ∀ vol, (u.reply l n st b).finish.duesOf vol = u.duesOf vol := by
  obtain ⟨-, -, ⟨⟨-, -, -, -, -, kdues⟩, -⟩, -, ⟨kphase, -⟩, -, -⟩ := finish_settles (u.reply l n st b)
  exact ⟨kphase, fun vol => duesOf_congr kdues vol⟩

theorem windowOpen_spec (tag : Nat) (h : s.takes l) (hr : s.role l = .console) :
    ∃ t, Sys2Proof.Machine.exec (.windowOpen l tag) s = .next t ∧
      (s.internal = true ∨ s.sup.op = .standby →
        Answered s t l tag .windowOpen .wrongState .none ∧ Spared s t) ∧
      (s.internal = false → s.sup.op = .active → s.nightEnding = true →
        Answered s t l tag .windowOpen .busy .none ∧ Spared s t) ∧
      (s.internal = false → s.sup.op = .active → s.nightEnding = false →
        Answered s t l tag .windowOpen .done .none ∧ t.off.phase = .windowOpen) := by
  refine ⟨_, exec_windowOpen tag h hr, fun hno => ?_, fun hint hop hend => ?_, fun hint hop hend => ?_⟩
  · rw [if_pos (hno.imp id fun hop => by rw [hop]; nofun)]
    exact ⟨answered_replied tag .windowOpen .wrongState .none h, spared_replied tag .windowOpen .wrongState .none h⟩
  all_goals
    have hgo : ¬ (s.internal = true ∨ s.sup.op ≠ .active) := by simp [hint, hop]
    rw [if_neg hgo]
  · rw [if_pos hend]
    exact ⟨answered_replied tag .windowOpen .busy .none h, spared_replied tag .windowOpen .busy .none h⟩
  · rw [if_neg (by simp [hend])]
    split
    · next hopen =>
      refine ⟨answered_replied tag .windowOpen .done .none h, (finish_reply_night _ _ _ _ _).1.trans ?_⟩
      exact of_decide_eq_true hopen
    · refine ⟨answered_finish .done .none h
        ((entered_asked s l tag .windowOpen).gains fun P k hp => gains_openWindow k hp),
        (finish_reply_night _ _ _ _ _).1.trans ?_⟩
      obtain ⟨-, -, hlast, -, -⟩ := openWindow_spec (s.asked l tag .windowOpen)
      exact (congrArg Offsite.phase hlast : _)

theorem windowClose_spec (tag : Nat) (h : s.takes l) (hr : s.role l = .console) :
    ∃ t, Sys2Proof.Machine.exec (.windowClose l tag) s = .next t ∧
      (s.internal = true → Answered s t l tag .windowClose .wrongState .none ∧ Spared s t) ∧
      (s.internal = false → s.off.phase ≠ .windowOpen →
        Answered s t l tag .windowClose .done .none ∧ Spared s t) ∧
      (s.internal = false → s.off.phase = .windowOpen → s.shipsOut = true →
        Answered s t l tag .windowClose .accepted .none ∧
        t.off.phase = .ending s.sup.elapsed s.sup.settings.ackWait ∧
        ∀ vol v, s.volume vol = some v → (t.duesOf vol).nightly = none) := by
  refine ⟨_, exec_windowClose tag h hr, fun hint => ?_, fun hint hphase => ?_, fun hint hphase hships => ?_⟩
  · rw [if_pos hint]
    exact ⟨answered_replied tag .windowClose .wrongState .none h,
      spared_replied tag .windowClose .wrongState .none h⟩
  all_goals rw [if_neg (by simp [hint])]
  · rw [if_neg (by simpa [State.windowIsOpen] using hphase)]
    exact ⟨answered_replied tag .windowClose .done .none h, spared_replied tag .windowClose .done .none h⟩
  · rw [if_pos (show s.windowIsOpen = true from decide_eq_true hphase)]
    have hclose := closeWindow_ending (s := s.asked l tag .windowClose) hphase hships
    obtain ⟨hphase', hdues⟩ :=
      finish_reply_night (s.asked l tag .windowClose).closeWindow l s.sup.nextReq .accepted .none
    obtain ⟨-, -, kphase, -, -, kdues⟩ := windowShut_spec (s.asked l tag .windowClose)
    refine ⟨answered_finish .accepted .none h
      ((entered_asked s l tag .windowClose).gains fun P k hp => gains_closeWindow k hp), ?_, fun vol v hv => ?_⟩
    · rw [hphase', hclose, kphase]
      rfl
    · rw [hdues, hclose]
      exact kdues vol v hv

/-! ### The close by the clock, the night's end and the frames abandoned -/

theorem windowClosing_spec {c : Nat} (hop : s.sup.op = .standby ∨ s.sup.op = .active) (hint : s.internal = true)
    (hpat : s.patrolStill) (hphase : s.off.phase = .windowOpen) (hc : s.off.closeInstant = some c) :
    (c ≤ s.sup.clock → s.shipsOut = true →
      ∃ t, Sys2Proof.Machine.exec .windowClosing s = .next t ∧
        t.off.phase = .ending s.sup.elapsed s.sup.settings.ackWait ∧
        (∀ e ∈ t.off.queue, e.unsent = false) ∧
        ∀ vol v, s.volume vol = some v → (t.duesOf vol).nightly = none) ∧
    (s.sup.clock < c → Sys2Proof.Machine.exec .windowClosing s = .next { s with sent := [] }) := by
  have hrun : s.sup.op ≠ .halted := by
    rcases hop with h | h <;> rw [h] <;> nofun
  have hrunning : s.running = true := running_iff.mpr hop
  have hexec : Sys2Proof.Machine.exec .windowClosing s = .next
      (if s.closesNow then ({ s with sent := [] } : State).closeWindow.finish else { s with sent := [] }) := by
    change execWindowClosing s [] = _
    unfold execWindowClosing
    rw [act_withErrs_nil _ hrun]
    rfl
  have hcloses : s.closesNow = decide (c ≤ s.sup.clock) := by
    unfold State.closesNow State.windowIsOpen
    rw [hrunning, hint, hphase, hc]
    rfl
  rw [hexec, hcloses]
  refine ⟨fun hle hships => ?_, fun hlt => ?_⟩
  · rw [if_pos (decide_eq_true hle), closeWindow_ending (s := { s with sent := [] }) hphase hships]
    obtain ⟨hsup, kpat, kphase, -, kqueue, kdues⟩ := windowShut_spec { s with sent := [] }
    generalize State.windowShut { s with sent := [] } = w at hsup kpat kphase kqueue kdues
    obtain ⟨-, -, ⟨⟨-, -, -, -, -, fdues⟩, -⟩, -, ⟨fphase, -⟩, -, -⟩ := finish_settles w
    have hstill : w.patrolStill := by
      unfold State.patrolStill
      rw [kpat]
      exact hpat
    refine ⟨_, rfl, fphase.trans kphase, fun e he => kqueue e ?_, fun vol v hv => ?_⟩
    · rw [(finish_lasting hstill (hsup ▸ hrun)).2.2] at he
      exact (List.mem_filter.mp he).1
    · rw [duesOf_congr fdues]
      exact kdues vol v hv
  · rw [if_neg (by simpa using hlt)]

theorem nightEnd_spec {since limit : Nat} (hrun : s.sup.op ≠ .halted) (hcalm : s.calm)
    (hphase : s.off.phase = .ending since limit) (hqueue : s.off.queue = []) (hpulls : s.off.pulls = [])
    (hships : s.shipsOut = false) (hsource : s.sup.settings.windowSource = .external)
    (hpending : s.sup.pendingSettings.windowSource = none) :
    ∃ t, Sys2Proof.Machine.exec .nightEnd s = .next t ∧ t.off.phase = .closed ∧ t.off.closeInstant = none ∧
      t.off.plan = [] ∧ t.off.shedScopes = [] ∧
      t.off.nFailed = s.off.nFailed +
        (s.off.plan.filter fun p => decide (p.state = .shipping) || decide (p.state = .awaitingDone)).length ∧
      t.sup.raised[6]? = (s.sup.raised[6]?).map countUp := by
  let a : State := { s with sent := [] }
  have hexec : Sys2Proof.Machine.exec .nightEnd s = .next a.tryEndNight.finish := by
    change execNightEnd s [] = _
    unfold execNightEnd
    rw [act_withErrs_nil _ hrun]
  have hover : a.nightIsOver = true := by
    have hending : a.nightEnding = true := by
      change s.nightEnding = true
      unfold State.nightEnding
      rw [hphase]
    have hships' : a.shipsOut = false := hships
    have hq : a.off.queue = [] := hqueue
    have hp : a.off.pulls = [] := hpulls
    unfold State.nightIsOver
    rw [hending, hships', hq, hp]
    rfl
  obtain ⟨hoff, hpat, htally, -, hraised⟩ := nightClosed_spec a
  have hkept := supKept_nightClosed a
  generalize hw : a.nightClosed = w at hoff hpat htally hraised hkept
  obtain ⟨kop, -, -, -, -, -, -, -, -, -, -, -, kset, kpend⟩ := hkept
  have hsrc : w.applyWindow.internal = false := by
    have hw : w.applyWindow.sup.settings.windowSource = .external := by
      have hform : w.applyWindow.sup.settings.windowSource =
          w.sup.pendingSettings.windowSource.getD w.sup.settings.windowSource := rfl
      rw [hform, kset, kpend, hpending]
      exact hsource
    unfold State.internal
    rw [hw]
    rfl
  have hend : a.tryEndNight = w.applyWindow := by
    rw [tryEndNight_eq, if_pos hover, hw]
    unfold State.evaluateOpen
    rw [if_neg]
    rintro ⟨-, -, hint, -⟩
    rw [hsrc] at hint
    cases hint
  obtain ⟨⟨hops, hposts, hmode, hflush⟩, hwork, -, hreps, hclear⟩ := hcalm
  have hwpat : w.applyWindow.patrolStill := by
    change w.patrolStill
    unfold State.patrolStill
    rw [hpat]
    exact ⟨hwork, rfl, hreps, hclear⟩
  have hwtally : w.applyWindow.tallyStill := by
    change w.tallyStill
    unfold State.tallyStill
    rw [htally]
    exact ⟨hops, hposts, hmode, hflush⟩
  have hwrun : w.applyWindow.sup.op ≠ .halted := fun hno => hrun (kop.symm.trans hno)
  have hlast := (finish_lasting hwpat hwrun).1
  have hfoff : w.applyWindow.off = w.off := rfl
  rw [hfoff, hoff] at hlast
  rw [hexec, hend]
  refine ⟨_, rfl, (congrArg Offsite.phase hlast : _), (congrArg Offsite.closeInstant hlast : _),
    (congrArg Offsite.plan hlast : _), (congrArg Offsite.shedScopes hlast : _),
    (congrArg Offsite.nFailed hlast : _), ?_⟩
  rw [(finish_beside_parts ⟨hwtally, hwpat⟩ hwrun).1]
  have hr : w.applyWindow.sup.raised = modAt s.sup.raised 6 countUp := hraised
  rw [hr, getElem?_modAt, if_pos rfl]

theorem closeAbandon_spec {since limit : Nat} (hrun : s.sup.op ≠ .halted)
    (hphase : s.off.phase = .ending since limit) (hships : s.shipsOut = true) :
    (since + limit ≤ s.sup.elapsed → s.patrolStill →
      ∃ t, Sys2Proof.Machine.exec .closeAbandon s = .next t ∧ t.shipsOut = false ∧
        (s.off.link = .up → Output.offsite .close ∈ t.sent)) ∧
    (s.sup.elapsed < since + limit → Sys2Proof.Machine.exec .closeAbandon s = .next { s with sent := [] }) := by
  have hexec : Sys2Proof.Machine.exec .closeAbandon s = .next
      (if s.abandonsNow then ({ s with sent := [] } : State).abandonFrames.tryEndNight.finish
        else { s with sent := [] }) := by
    change execCloseAbandon s [] = _
    unfold execCloseAbandon
    rw [act_withErrs_nil _ hrun]
    rfl
  have habandons : s.abandonsNow = decide (since + limit ≤ s.sup.elapsed) := by
    unfold State.abandonsNow
    rw [hphase, hships]
    exact Bool.and_true _
  rw [hexec, habandons]
  refine ⟨fun hle hpat => ?_, fun hlt => ?_⟩
  · rw [if_pos (decide_eq_true hle)]
    obtain ⟨apat, asup, aships, asent⟩ := abandonFrames_spec { s with sent := [] }
    generalize State.abandonFrames { s with sent := [] } = w at apat asup aships asent
    obtain ⟨kpat, kout, ksent⟩ := tryEndNight_spec w
    have kop : w.tryEndNight.sup.op = w.sup.op := (supRuns_tryEndNight w).1
    have hstill : w.tryEndNight.patrolStill := kpat (by unfold State.patrolStill; rw [apat]; exact hpat)
    have hlast := (finish_lasting hstill (kop.trans (congrArg Supervisor.op asup) ▸ hrun)).1
    have hout : w.tryEndNight.finish.off.outstanding = w.off.outstanding :=
      (congrArg Offsite.outstanding hlast : _).trans kout
    refine ⟨_, rfl, ?_, fun hup => mem_sent_finish (ksent.subset (asent hup))⟩
    unfold State.shipsOut
    rw [hout]
    exact aships
  · rw [if_neg (by simpa using hlt)]

end

end Sys2Proof.Machine

open Sys2Proof Sys2Proof.Machine

/-- Settles O45. -/
theorem windowOpensAndTheNightEnds : Obligations.WindowOpensAndTheNightEnds := by
  refine ⟨fun s hop hphase hint hset hcounted htime hinside hcalm => ?_, fun s hrun hno => ?_,
    fun s l tag h hr => windowOpen_spec tag h hr, fun s l tag h hr => windowClose_spec tag h hr,
    fun s c hop hint hpat hphase hc => windowClosing_spec hop hint hpat hphase hc,
    fun s since limit hrun hcalm hphase hq hp hs hsrc hpend => nightEnd_spec hrun hcalm hphase hq hp hs hsrc hpend,
    fun s since limit hrun hphase hs => closeAbandon_spec hrun hphase hs⟩
  · have hopens : s.opensNow = true := by
      unfold State.opensNow timeOfDay
      simp [hop, hphase, hint, hset, hcounted, htime, hinside]
    obtain ⟨t, rfl, ht⟩ := windowOpening_spec hop hcalm
    refine ⟨_, ?_, ht⟩
    rw [exec_windowOpening (by rw [hop]; nofun), if_pos hopens]
  · rw [exec_windowOpening hrun, opensNow_no hno, if_neg Bool.false_ne_true]
end

section
/-! PROOF. The walks of a night and the forecast (R124 to R126, R132 to R135). -/

namespace Sys2Proof.Machine

section
variable {s t u : State} {vol : Nat} {p q : PlanVol} {v : Volume} {x : Version}

/-! ### The plan -/

theorem find?_mapIf_kept {α : Type} {r : α → Bool} {f : α → α} (hf : ∀ x, r (f x) = r x) (c : α → Bool) (xs : List α) :
    (mapIf c f xs).find? r = (xs.find? r).map fun x => if c x then f x else x := by
  induction xs with
  | nil => rfl
  | cons x xs ih =>
    have hr : r (if c x then f x else x) = r x := by
      split
      · exact hf x
      · rfl
    unfold mapIf at ih ⊢
    rw [List.map_cons, List.find?_cons, List.find?_cons, hr, ih]
    cases r x <;> rfl

/-- The plan volume of a volume after a plan volume is changed. -/
theorem planOf_modPlan (s : State) (vol w : Nat) {f : PlanVol → PlanVol} (hf : ∀ x, (f x).vol = x.vol) :
    (s.modPlan vol f).planOf w = (s.planOf w).map fun x => if x.vol == vol then f x else x :=
  find?_mapIf_kept (r := fun x : PlanVol => x.vol == w) (fun x => by rw [hf]) (fun x : PlanVol => x.vol == vol)
    s.off.plan

theorem planOf_vol (h : s.planOf vol = some p) : p.vol = vol := by
  have hfound := List.find?_some (p := fun y : PlanVol => y.vol == vol) h
  simpa using hfound

theorem planOf_modPlan_self {f : PlanVol → PlanVol} (hf : ∀ x, (f x).vol = x.vol) (h : s.planOf vol = some p) :
    (s.modPlan vol f).planOf vol = some (f p) := by
  rw [planOf_modPlan s vol vol hf, h]
  simp [planOf_vol h]

theorem planOf_congr (h : t.off.plan = s.off.plan) (vol : Nat) : t.planOf vol = s.planOf vol := by
  unfold State.planOf
  rw [h]

/-- A plan volume that was changed in other fields has the state of one that was there. -/
theorem state_of_modPlan {f : PlanVol → PlanVol} {y : PlanVol} (h : y ∈ (s.modPlan vol f).off.plan)
    (hf : ∀ x, (f x).state = x.state) : ∃ z ∈ s.off.plan, y.state = z.state := by
  obtain ⟨z, hz, rfl⟩ := List.mem_map.mp h
  refine ⟨z, hz, ?_⟩
  split
  · exact hf z
  · rfl

/-! ### The count walk -/

/-- The SHIP chunks of an extent that a count visit counts (R124, R125). -/
def State.countOf (s : State) (vol : Nat) (p : PlanVol) : Nat :=
  match (s.extent vol p.countCursor).changed p.target p.base with
  | some x => ((s.extent vol p.countCursor).shipChunks p.base x).length
  | none => 0

/-- A plan volume whose count walk has counted at an extent (R125). -/
def PlanVol.countedAt (q : PlanVol) (ext n : Nat) : PlanVol :=
  { q with
    countCursor := ext + 1, shipCount := q.shipCount + n
    counted := if n = 0 then q.counted else tput q.counted ext n }

theorem countVisit_eq (hphase : s.off.phase = .windowOpen) (hp : s.planOf vol = some p) (hst : p.state = .shipping)
    (hv : s.volume vol = some v) (hcur : p.countCursor < v.count) (hd : s.damaged vol p.countCursor = false) :
    s.countVisit vol = s.modPlan vol fun q => q.countedAt p.countCursor (s.countOf vol p) := by
  have hopen : s.windowIsOpen = true := decide_eq_true hphase
  unfold State.countVisit
  rw [hp, hv]
  dsimp only
  rw [if_pos ⟨hst, hopen, hcur⟩, if_neg (by rw [hd]; exact Bool.false_ne_true)]
  rfl

/-- A version that neither the base nor anything else takes out of the change set is counted whole or by the codes that
differ (R124). -/
theorem shipChunks_of {e : Extent} {b : Nat} (hocc : 0 < x.occ) (hrep : x.repair ≠ .unrepairable) :
    e.shipChunks b x = (List.range 16).filter fun i => !(e.isRef b x i) :=
  if_neg fun h => h.elim (fun h0 => Nat.lt_irrefl 0 (h0 ▸ hocc)) hrep

theorem isRef_zero (e : Extent) (x : Version) (i : Nat) : e.isRef 0 x i = false := rfl

theorem countOf_none (h : ∀ x, (s.extent vol p.countCursor).heldAt p.target = some x → x.birth ≤ p.base) :
    s.countOf vol p = 0 := by
  unfold State.countOf Extent.changed
  cases hx : (s.extent vol p.countCursor).heldAt p.target with
  | none => rfl
  | some x =>
    rw [Option.bind_some, if_neg (Nat.not_lt.mpr (h x hx))]

theorem countOf_some (hx : (s.extent vol p.countCursor).heldAt p.target = some x) (hb : p.base < x.birth) :
    s.countOf vol p = ((s.extent vol p.countCursor).shipChunks p.base x).length := by
  unfold State.countOf Extent.changed
  rw [hx, Option.bind_some, if_pos hb]

/-- A count visit takes the cursor on and adds what it counts (R125). -/
theorem exec_countWalkVisit (hop : s.sup.op = .standby ∨ s.sup.op = .active) (hcalm : s.calm)
    (hphase : s.off.phase = .windowOpen) (hp : s.planOf vol = some p) (hst : p.state = .shipping)
    (hv : s.volume vol = some v) (hcur : p.countCursor < v.count) (hd : s.damaged vol p.countCursor = false) :
    ∃ t q, Sys2Proof.Machine.exec (.countWalkVisit vol []) s = .next t ∧ t.planOf vol = some q ∧
      q.countCursor = p.countCursor + 1 ∧ q.state = .shipping ∧ q.shipCount = p.shipCount + s.countOf vol p := by
  have hrun : s.sup.op ≠ .halted := by rcases hop with h | h <;> rw [h] <;> nofun
  let a : State := { s with sent := [] }
  have heq := countVisit_eq (s := a) hphase hp hst hv hcur hd
  have hexec : Sys2Proof.Machine.exec (.countWalkVisit vol []) s = .next (a.countVisit vol).finish := by
    change execCountWalkVisit vol [] s = _
    unfold execCountWalkVisit
    rw [act_withErrs_nil _ hrun]
    exact congrArg Host.Outcome.next (if_pos (running_iff.mpr hop))
  rw [hexec, heq]
  refine ⟨_, p.countedAt p.countCursor (a.countOf vol p), rfl, ?_, rfl, hst, rfl⟩
  have hwp := planOf_modPlan_self (s := a) (f := fun q => q.countedAt p.countCursor (a.countOf vol p)) (fun _ => rfl) hp
  have hwpat : (a.modPlan vol fun q => q.countedAt p.countCursor (a.countOf vol p)).patrolStill := hcalm.2
  rw [planOf_congr (plan_of_lasting (finish_lasting hwpat hrun).1)]
  exact hwp

theorem countWalk_spec (hop : s.sup.op = .standby ∨ s.sup.op = .active) (hcalm : s.calm)
    (hphase : s.off.phase = .windowOpen) (hp : s.planOf vol = some p) (hst : p.state = .shipping)
    (hv : s.volume vol = some v) (hcur : p.countCursor < v.count) (hd : s.damaged vol p.countCursor = false) :
    ∃ t q, Sys2Proof.Machine.exec (.countWalkVisit vol []) s = .next t ∧ t.planOf vol = some q ∧
      q.countCursor = p.countCursor + 1 ∧ q.state = .shipping ∧
      ((∀ x, (s.extent vol p.countCursor).heldAt p.target = some x → x.birth ≤ p.base) →
        q.shipCount = p.shipCount) ∧
      (∀ x, (s.extent vol p.countCursor).heldAt p.target = some x → p.base < x.birth → 0 < x.occ →
        x.repair ≠ .unrepairable → p.base = 0 → q.shipCount = p.shipCount + 16) ∧
      (∀ x w, (s.extent vol p.countCursor).heldAt p.target = some x → p.base < x.birth → 0 < x.occ →
        x.repair ≠ .unrepairable → 0 < p.base → (s.extent vol p.countCursor).heldAt p.base = some w →
        w.codes.length = 16 →
        q.shipCount = p.shipCount +
          ((List.range 16).filter fun k => decide (w.codes[k]? ≠ x.codes[k]?)).length) := by
  obtain ⟨t, q, hexec, hq, hcursor, hship, hcount⟩ := exec_countWalkVisit hop hcalm hphase hp hst hv hcur hd
  refine ⟨t, q, hexec, hq, hcursor, hship, fun hnone => ?_, fun x hx hb hocc hrep h0 => ?_,
    fun x w hx hb hocc hrep hpos hw hlen => ?_⟩
  · rw [hcount, countOf_none hnone, Nat.add_zero]
  · have hall : ((List.range 16).filter fun i => !(s.extent vol p.countCursor).isRef p.base x i) = List.range 16 := by
      rw [h0]
      exact List.filter_eq_self.mpr fun i _ => rfl
    rw [hcount, countOf_some hx hb, shipChunks_of hocc hrep, hall]
    rfl
  · rw [hcount, countOf_some hx hb, shipChunks_of hocc hrep]
    refine congrArg (fun n => p.shipCount + List.length n) (List.filter_congr fun i hi => ?_)
    have hlt : i < w.codes.length := hlen ▸ List.mem_range.mp hi
    unfold Extent.isRef
    have hsome : w.codes[i]?.isSome = true := by rw [List.getElem?_eq_getElem hlt]; rfl
    simp [hw, hpos, hsome]

/-! ### The ship walk -/

/-- A plan of one SHIPPING volume whose walk has not come past its count walk is the one the ship walk serves. -/
theorem walkVolume_single (hplan : s.off.plan = [p]) (hst : p.state = .shipping) (hv : s.volume p.vol = some v)
    (h1 : v.shipCursor < v.count) (h2 : v.shipCursor < p.countCursor) : s.walkVolume = some (p, v) := by
  unfold State.walkVolume
  rw [hplan]
  change List.findSome? _ [p] = _
  rw [List.findSome?_cons, hv]
  dsimp only
  rw [if_pos ⟨hst, h1, h2⟩]

/-- At most sixteen entries are formed of a version (R124). -/
theorem length_entries_le (e : Extent) (vol ext b : Nat) (x : Version) (n : Nat) :
    (e.entries vol ext b x n).length ≤ 16 := by
  unfold Extent.entries
  dsimp only
  split
  · simp
  · split
    · simp
    · simp

/-- The sixteen SHIP entries of a SOUND version that no base covers (R124, R126). -/
theorem entries_sound {e : Extent} {ext n : Nat} (hocc : 0 < x.occ) (hs : x.repair = .sound) :
    e.entries vol ext 0 x n = (List.range 16).map fun i =>
      { num := n + i, vol := vol, ext := ext, birth := x.birth, form := .ship, chunks := [i]
        code := some (x.codeAt i), last := decide (i = 15), failMark := false, state := .unpulled, slot := none } := by
  unfold Extent.entries
  dsimp only
  rw [if_neg (Nat.pos_iff_ne_zero.mp hocc), if_neg (by rw [hs]; nofun)]
  refine List.map_congr_left fun i _ => ?_
  rw [isRef_zero, if_neg Bool.false_ne_true, if_neg (by rw [hs]; nofun)]

theorem entries_empty {e : Extent} {ext b n : Nat} (hocc : x.occ = 0) :
    e.entries vol ext b x n =
      [{ num := n, vol := vol, ext := ext, birth := x.birth, form := .empty, chunks := [], code := none, last := true
         failMark := false, state := .ready, slot := none }] := by
  unfold Extent.entries
  exact if_pos hocc

/-- The state in which a ship visit has placed entries, before a PARKED one is reported (R126). -/
def State.shipPlaced (s : State) (p : PlanVol) (ext : Nat) (es : List ShipEntry) : State :=
  ((s.modOff fun o => { o with queue := o.queue ++ es, nextEntry := o.nextEntry + es.length }).modPlan p.vol fun q =>
    { q with
      shipCount := q.shipCount + (es.filter fun x => decide (x.form = .ship)).length - (tget p.counted ext).getD 0
      counted := tdel q.counted ext }).modVolume p.vol fun v => { v with shipCursor := ext + 1 }

theorem shipVisit_eq (hphase : s.off.phase = .windowOpen) (hplan : s.off.plan = [p]) (hst : p.state = .shipping)
    (hv : s.volume p.vol = some v) (h1 : v.shipCursor < v.count) (h2 : v.shipCursor < p.countCursor)
    (hd : s.damaged p.vol v.shipCursor = false) (hx : (s.extent p.vol v.shipCursor).heldAt p.target = some x)
    (hb : p.base < x.birth) (hroom : s.off.queue.length + 16 ≤ 256) :
    s.shipVisit = (s.shipPlaced p v.shipCursor
        ((s.extent p.vol v.shipCursor).entries p.vol v.shipCursor p.base x s.off.nextEntry)).reportParked p.vol
      v.shipCursor ((s.extent p.vol v.shipCursor).entries p.vol v.shipCursor p.base x s.off.nextEntry) := by
  have hopen : s.windowIsOpen = true := decide_eq_true hphase
  have hchanged : (s.extent p.vol v.shipCursor).changed p.target p.base = some x := by
    unfold Extent.changed
    rw [hx, Option.bind_some, if_pos hb]
  have hlen := length_entries_le (s.extent p.vol v.shipCursor) p.vol v.shipCursor p.base x s.off.nextEntry
  unfold State.shipVisit
  rw [walkVolume_single hplan hst hv h1 h2]
  dsimp only
  rw [if_neg (by rw [hopen]; nofun), if_neg (by rw [hd]; exact Bool.false_ne_true), hchanged]
  dsimp only
  rw [if_neg]
  · rfl
  · unfold Config.shipQueueSize
    omega

theorem reportParked_none {ext : Nat} {es : List ShipEntry} (h : ∀ e ∈ es, e.state ≠ .parked) :
    s.reportParked vol ext es = s := by
  have hnone : (es.find? fun e => decide (e.state = .parked)) = none :=
    List.find?_eq_none.mpr fun e he => by simpa using h e he
  unfold State.reportParked
  rw [hnone]

/-- A report keeps the Volume Table. -/
theorem reportParked_volumes (s : State) (vol ext : Nat) (es : List ShipEntry) :
    (s.reportParked vol ext es).cat.volumes = s.cat.volumes := by
  unfold State.reportParked
  split
  · rfl
  · split
    · rfl
    · split
      · rfl
      · obtain ⟨-, -, ⟨⟨hvol, -⟩, -⟩, -⟩ := settles_requestRepair _ (Settles.refl s)
        exact hvol

theorem shipWalk_spec (hop : s.sup.op = .standby ∨ s.sup.op = .active) (hcalm : s.calm)
    (hphase : s.off.phase = .windowOpen) (hplan : s.off.plan = [p]) (hst : p.state = .shipping)
    (hv : s.volume p.vol = some v) (h1 : v.shipCursor < v.count) (h2 : v.shipCursor < p.countCursor)
    (hd : s.damaged p.vol v.shipCursor = false) (hx : (s.extent p.vol v.shipCursor).heldAt p.target = some x)
    (hbase : p.base = 0) (hbirth : 0 < x.birth) (hroom : s.off.queue.length + 16 ≤ 256) :
    ∃ t, Sys2Proof.Machine.exec (.shipWalkVisit []) s = .next t ∧
      t.volume p.vol = some { v with shipCursor := v.shipCursor + 1 } ∧
      (0 < x.occ → x.repair = .sound → t.off.queue = s.off.queue ++ (List.range 16).map fun i =>
        { num := s.off.nextEntry + i, vol := p.vol, ext := v.shipCursor, birth := x.birth, form := .ship,
          chunks := [i], code := some (x.codeAt i), last := decide (i = 15), failMark := false,
          state := .unpulled, slot := none }) ∧
      (x.occ = 0 → t.off.queue = s.off.queue ++
        [{ num := s.off.nextEntry, vol := p.vol, ext := v.shipCursor, birth := x.birth, form := .empty,
           chunks := [], code := none, last := true, failMark := false, state := .ready, slot := none }]) := by
  have hrun : s.sup.op ≠ .halted := by rcases hop with h | h <;> rw [h] <;> nofun
  let a : State := { s with sent := [] }
  obtain ⟨es, hes⟩ : ∃ es, es = (a.extent p.vol v.shipCursor).entries p.vol v.shipCursor p.base x a.off.nextEntry :=
    ⟨_, rfl⟩
  have heq := shipVisit_eq (s := a) hphase hplan hst hv h1 h2 hd hx (hbase ▸ hbirth) hroom
  rw [← hes] at heq
  have hexec : Sys2Proof.Machine.exec (.shipWalkVisit []) s = .next a.shipVisit.finish := by
    change execShipWalkVisit [] s = _
    unfold execShipWalkVisit
    rw [act_withErrs_nil _ hrun]
    exact congrArg Host.Outcome.next (if_pos (running_iff.mpr hop))
  have hplaced (hpark : ∀ e ∈ es, e.state ≠ .parked) :
      a.shipVisit.finish.off.queue = s.off.queue ++ es := by
    rw [heq, reportParked_none hpark]
    have hstill : (a.shipPlaced p v.shipCursor es).patrolStill := hcalm.2
    rw [(finish_lasting hstill hrun).2.2, clearShed_queue]
    · rfl
    · intro y hy
      obtain ⟨z, hz, hyz⟩ := state_of_modPlan hy (fun _ => rfl)
      have hz : z ∈ s.off.plan := hz
      rw [hplan] at hz
      obtain rfl := List.mem_singleton.mp hz
      rw [hyz, hst]
      exact ⟨nofun, nofun⟩
  rw [hexec]
  refine ⟨_, rfl, ?_, fun hocc hs => ?_, fun hocc => ?_⟩
  · obtain ⟨-, -, ⟨⟨hvol, -⟩, -⟩, -⟩ := finish_settles a.shipVisit
    have hvols : a.shipVisit.finish.cat.volumes = (a.shipPlaced p v.shipCursor es).cat.volumes := by
      rw [hvol, heq, reportParked_volumes]
    rw [volume_congr hvols]
    have hself := State.volume_modVolume
      ((a.modOff fun o =>
          { o with queue := o.queue ++ es, nextEntry := o.nextEntry + es.length }).modPlan p.vol fun q =>
        { q with
          shipCount := q.shipCount + (es.filter fun x => decide (x.form = .ship)).length -
            (tget p.counted v.shipCursor).getD 0
          counted := tdel q.counted v.shipCursor }) p.vol fun w => { w with shipCursor := v.shipCursor + 1 }
    exact hself.trans (congrArg (Option.map fun w : Volume => { w with shipCursor := v.shipCursor + 1 }) hv)
  · have hform := entries_sound (e := a.extent p.vol v.shipCursor) (vol := p.vol) (ext := v.shipCursor)
      (n := a.off.nextEntry) hocc hs
    rw [hbase, hform] at hes
    rw [hplaced, hes]
    intro e he
    rw [hes] at he
    obtain ⟨i, -, rfl⟩ := List.mem_map.mp he
    nofun
  · rw [entries_empty hocc] at hes
    rw [hplaced, hes]
    intro e he
    rw [hes] at he
    obtain rfl := List.mem_singleton.mp he
    nofun

end

end Sys2Proof.Machine
end

section
/-! PROOF. The end of a forecast interval: the rate, the fit test and the scope shed (R132 to R135). -/

namespace Sys2Proof.Machine

section
variable {s : State} {vol : Nat} {p q : PlanVol}

/-! ### The end of an interval -/

/-- The rate taken at the end of an interval (R132). -/
def State.rateTaken (s : State) : State :=
  s.modOff fun o =>
    { o with rate := if o.sawShip && decide (s.sup.op = .active) then nextRate o.rate o.acked else o.rate }

theorem rateTaken_same (h : s.off.sawShip = false) : s.rateTaken = s := by
  unfold State.rateTaken State.modOff
  dsimp only
  rw [h]
  exact congrArg (fun o => { s with off := o }) (congrArg (fun b => { s.off with sawShip := b }) h.symm)

/-- The fit test at the end of an interval (R134). -/
def State.fitTested (s : State) : State :=
  (iter 8 State.shedOnce s).modOff fun o => { o with lastFit := (iter 8 State.shedOnce s).fits }

/-- The next interval begun (R132). -/
def State.intervalBegun (s : State) : State :=
  s.modOff fun o =>
    { o with intervalStart := o.intervalStart + Config.intervalSeconds, acked := 0, sawShip := decide (o.dir = .ship) }

theorem endInterval_eq (hphase : s.off.phase = .windowOpen) (htime : s.off.intervalStart + 60 ≤ s.sup.elapsed)
    (hp : p ∈ s.off.plan) (hst : p.state = .shipping) :
    s.endInterval = (if s.internal then s.rateTaken.fitTested else s.rateTaken).intervalBegun := by
  have hopen : s.windowIsOpen = true := decide_eq_true hphase
  have hany : (s.off.plan.any fun p => decide (p.state = .shipping)) = true :=
    List.any_eq_true.mpr ⟨p, hp, decide_eq_true hst⟩
  unfold State.endInterval
  rw [if_pos ⟨hopen, htime⟩]
  dsimp only
  rw [if_pos hany]
  rfl

theorem exec_forecastIntervalEnd (hrun : s.sup.op ≠ .halted) : Sys2Proof.Machine.exec .forecastIntervalEnd s =
    .next ({ s with sent := [] } : State).endInterval.finish := by
  change execForecastIntervalEnd s [] = _
  unfold execForecastIntervalEnd
  rw [act_withErrs_nil _ hrun]

theorem interval_external (hop : s.sup.op = .active) (hcalm : s.calm) (hphase : s.off.phase = .windowOpen)
    (htime : s.off.intervalStart + 60 ≤ s.sup.elapsed) (hp : p ∈ s.off.plan) (hst : p.state = .shipping)
    (hint : s.internal = false) :
    ∃ t, Sys2Proof.Machine.exec .forecastIntervalEnd s = .next t ∧
      t.off.rate = (if s.off.sawShip then (3 * s.off.rate + s.off.acked / 60) / 4 else s.off.rate) ∧
      t.off.intervalStart = s.off.intervalStart + 60 ∧ t.off.acked = 0 ∧
      t.off.shedScopes = s.off.shedScopes := by
  have hrun : s.sup.op ≠ .halted := by rw [hop]; nofun
  let a : State := { s with sent := [] }
  have heq := endInterval_eq (s := a) hphase htime hp hst
  rw [if_neg (show ¬ a.internal = true by rw [show a.internal = false from hint]; exact Bool.false_ne_true)] at heq
  have hlast : a.rateTaken.intervalBegun.finish.off.lasting = a.rateTaken.intervalBegun.off.lasting :=
    (finish_lasting (s := a.rateTaken.intervalBegun) hcalm.2 hrun).1
  rw [exec_forecastIntervalEnd hrun, heq]
  refine ⟨_, rfl, (congrArg Offsite.rate hlast : _).trans ?_, (congrArg Offsite.intervalStart hlast : _),
    (congrArg Offsite.acked hlast : _), (congrArg Offsite.shedScopes hlast : _)⟩
  change (if s.off.sawShip && decide (s.sup.op = .active) then nextRate s.off.rate s.off.acked else s.off.rate) = _
  rw [hop]
  cases s.off.sawShip <;> rfl

/-! ### The fit test -/

/-- The forecast fits where it is finite and clock, forecast and margin come to the close instant or less
(R133, R134). -/
theorem fits_iff {c work : Nat} (hc : s.off.closeInstant = some c) (hw : s.remainingWork = work) :
    s.fits = true ↔ (work = 0 ∨ 0 < s.off.rate) ∧
      s.sup.clock + (work + s.off.rate - 1) / s.off.rate + s.sup.settings.reserveMargin ≤ c := by
  unfold State.fits State.forecast
  rw [hc, hw]
  by_cases h0 : work = 0
  · have hzero : (work + s.off.rate - 1) / s.off.rate = 0 := by
      rw [h0, Nat.zero_add]
      rcases Nat.eq_zero_or_pos s.off.rate with hr | hr
      · rw [hr, Nat.div_zero]
      · exact Nat.div_eq_of_lt (by omega)
    rw [if_pos h0, hzero]
    simp [h0]
  · rw [if_neg h0]
    by_cases hr : s.off.rate = 0
    · rw [if_pos hr]
      simp [h0, hr]
    · rw [if_neg hr]
      simp [h0, Nat.pos_of_ne_zero hr]

theorem remainingWork_pair (hplan : s.off.plan = [p, q]) (hp : p.state = .shipping) (hq : q.state = .shipping) :
    s.remainingWork = 256 * (p.shipCount + q.shipCount) := by
  unfold State.remainingWork
  rw [hplan]
  simp [hp, hq]

/-- A scope's priority (R121). -/
def State.priorityOf (s : State) (sc : Nat) : Nat := ((tget s.sup.settings.scopes sc).getD Scope.initial).priority

theorem sheddable_pair (hplan : s.off.plan = [p, q]) (hp : p.state = .shipping) (hq : q.state = .shipping)
    (hshed : s.off.shedScopes = []) (hne : p.scope ≠ q.scope) :
    s.sheddable = [p.scope, q.scope] ∨ s.sheddable = [q.scope, p.scope] := by
  have hlist : s.sheddable = sortNat [p.scope, q.scope] := by
    unfold State.sheddable distinctNat
    rw [hplan, hshed]
    simp [hp, hq, hne.symm, List.eraseDups_cons]
  rw [hlist]
  simp only [sortNat, sortBy, insertBy]
  split
  · exact .inl rfl
  · exact .inr rfl

/-- Of two sheddable scopes the one of lower priority is shed (R134). -/
theorem shedNext_pair {x y : Nat} (h : s.sheddable = [x, y] ∨ s.sheddable = [y, x])
    (hpri : s.priorityOf x < s.priorityOf y) : s.shedNext = some x := by
  unfold State.shedNext
  unfold State.priorityOf at hpri
  rcases h with h | h
  · rw [h]
    exact if_neg (Nat.not_le.mpr hpri)
  · rw [h]
    exact if_pos (Nat.le_of_lt hpri)

theorem shedOnce_stops (h : s.fits = true ∨ s.sheddable.length ≤ 1) : s.shedOnce = s := by
  unfold State.shedOnce
  split
  · rfl
  · refine if_neg ?_
    rintro ⟨hfits, hlen⟩
    rcases h with h | h
    · rw [h] at hfits
      cases hfits
    · exact absurd hlen (Nat.not_lt.mpr h)

/-! ### A scope shed -/

/-- The plan as the ship pins of a volume are dropped: its volumes, states and scopes stand. -/
theorem dropShipPins_plan (s : State) (vol : Nat) : ∃ f : PlanVol → PlanVol,
    (∀ x, (f x).vol = x.vol ∧ (f x).state = x.state ∧ (f x).scope = x.scope) ∧
      (s.dropShipPins vol).off.plan = mapIf (fun x => x.vol == vol) f s.off.plan := by
  unfold State.dropShipPins
  split
  · refine ⟨id, fun _ => ⟨rfl, rfl, rfl⟩, ?_⟩
    unfold mapIf
    simp
  · next r _ =>
    refine ⟨fun x => { x with targetPin := false, basePin := false }, fun _ => ⟨rfl, rfl, rfl⟩, ?_⟩
    have hpin (u : State) (c : Bool) (g : Nat) :
        (if c then u.dropPin vol g true else u).off.plan = u.off.plan := by
      split
      · rw [dropPin_eq]
      · rfl
    exact (hpin _ _ _).trans (hpin _ _ _)

/-- A volume leaves the night: its state, its ship pins and its entries (R123, R135). -/
def State.volumeLeaves (s : State) (vol : Nat) (st : PlanState) : State :=
  ((s.modPlan vol fun p => { p with state := st }).dropShipPins vol).shedEntries vol

theorem planUnpinned_modPlan (s : State) (vol : Nat) (f : PlanVol → PlanVol) : PlanUnpinned s (s.modPlan vol f) := ⟨rfl⟩

/-- What a volume that leaves the night changes: links, slots, snapshots, pulls and entries, and of the plan its own
state. -/
structure VolumeLeft (s t : State) (vol : Nat) (st : PlanState) : Prop where
  frame : t = { s with
    links := t.links, str := t.str, cat.snapshots := t.cat.snapshots
    off := { s.off with plan := t.off.plan, pulls := t.off.pulls, queue := t.off.queue } }
  plan : ∃ f : PlanVol → PlanVol, (∀ x, (f x).vol = x.vol ∧ (f x).state = st ∧ (f x).scope = x.scope) ∧
    t.off.plan = mapIf (fun x => x.vol == vol) f s.off.plan

/-- A volume's pull runs and entries that leave with it (R135). -/
theorem shedEntries_gone (s : State) (vol : Nat) : RunsGone s (s.shedEntries vol) := by
  have hruns := runsGone_of_freed
    (runsFreed_foldl (fun s (x : ShipPull) => runsFreed_cancelRun s x.n)
      (s.off.pulls.filter fun x => decide (x.stage ≠ .issued) && decide (x.vol = vol)) s)
  exact hruns.trans ⟨rfl⟩

theorem volumeLeft_leaves (s : State) (vol : Nat) (st : PlanState) : VolumeLeft s (s.volumeLeaves vol st) vol st := by
  obtain ⟨a, ha⟩ : ∃ a, a = s.modPlan vol fun p => { p with state := st } := ⟨_, rfl⟩
  have hb := (planUnpinned_modPlan s vol fun p => { p with state := st }).trans
    (planUnpinned_dropShipPins (s.modPlan vol fun p => { p with state := st }) vol)
  obtain ⟨f, hf, hplan⟩ := dropShipPins_plan a vol
  have hleaves : s.volumeLeaves vol st = (a.dropShipPins vol).shedEntries vol := by rw [ha]; rfl
  rw [← ha] at hb
  rw [hleaves]
  generalize a.dropShipPins vol = b at hb hplan
  have hbframe := hb.frame
  have hcframe := (shedEntries_gone b vol).frame
  generalize b.shedEntries vol = c at hcframe
  have hcplan : c.off.plan = b.off.plan := by rw [hcframe]
  have hcsnaps : c.cat.snapshots = b.cat.snapshots := by rw [hcframe]
  refine ⟨?_, fun x => f { x with state := st }, fun x => ?_, ?_⟩
  · rw [hcplan, hcsnaps]
    have hboth := hcframe
    rw [hbframe] at hboth
    exact hboth
  · obtain ⟨hvol, hst, hsc⟩ := hf { x with state := st }
    exact ⟨hvol, hst, hsc⟩
  · rw [hcplan, hplan, ha]
    change mapIf _ f (mapIf _ _ s.off.plan) = _
    unfold mapIf
    rw [List.map_map]
    refine List.map_congr_left fun x _ => ?_
    by_cases hx : x.vol = vol <;> simp [hx]

/-- The scope of lower priority of two shed (R135). -/
theorem shedScope_pair (hplan : s.off.plan = [p, q]) (hp : p.state = .shipping) (hne : p.scope ≠ q.scope)
    (hvol : p.vol ≠ q.vol) :
    (s.shedScope p.scope).sup = s.sup ∧ (s.shedScope p.scope).tally = s.tally ∧ (s.shedScope p.scope).pat = s.pat ∧
      (s.shedScope p.scope).off.shedScopes = s.off.shedScopes ++ [p.scope] ∧
      (s.shedScope p.scope).off.nShed = s.off.nShed + 1 ∧ (s.shedScope p.scope).off.rate = s.off.rate ∧
      ∃ p', p'.vol = p.vol ∧ p'.state = .shed ∧ p'.scope = p.scope ∧
        (s.shedScope p.scope).off.plan = [p', q] := by
  have hvols : (s.off.plan.filter fun x => decide (x.scope = p.scope) && decide (x.state = .shipping)).map PlanVol.vol =
      [p.vol] := by
    rw [hplan]
    simp [hp, hne.symm]
  let a := s.modOff fun o => { o with shedScopes := o.shedScopes ++ [p.scope], nShed := o.nShed + 1 }
  have hshed : s.shedScope p.scope = a.volumeLeaves p.vol .shed := by
    unfold State.shedScope
    rw [hvols]
    rfl
  obtain ⟨hframe, f, hf, hfplan⟩ := volumeLeft_leaves a p.vol .shed
  rw [hshed]
  generalize a.volumeLeaves p.vol .shed = w at hframe hfplan
  obtain ⟨hfvol, hfst, hfsc⟩ := hf p
  refine ⟨by rw [hframe]; rfl, by rw [hframe]; rfl, by rw [hframe]; rfl, by rw [hframe]; rfl, by rw [hframe]; rfl,
    by rw [hframe]; rfl, f p, hfvol, hfst, hfsc, hfplan.trans ?_⟩
  have haplan : a.off.plan = [p, q] := hplan
  rw [haplan]
  unfold mapIf
  simp [hvol.symm]

/-- The fit test that does not fit over two scopes sheds the one of lower priority and no more (R134, R135). -/
theorem shedOnce_pair (hplan : s.off.plan = [p, q]) (hp : p.state = .shipping) (hq : q.state = .shipping)
    (hvol : p.vol ≠ q.vol) (hshed : s.off.shedScopes = []) (hfits : s.fits = false)
    (hpri : s.priorityOf p.scope < s.priorityOf q.scope) :
    ∃ b, (∀ n, iter (n + 1) State.shedOnce s = b) ∧ b.tally = s.tally ∧ b.pat = s.pat ∧ b.sup.op = s.sup.op ∧
      b.sup.raised = modAt s.sup.raised 5 countUp ∧ b.off.shedScopes = [p.scope] ∧
      b.off.nShed = s.off.nShed + 1 ∧ b.off.rate = s.off.rate ∧
      ∃ p', p'.vol = p.vol ∧ p'.state = .shed ∧ b.off.plan = [p', q] := by
  have hne : p.scope ≠ q.scope := fun h => Nat.lt_irrefl _ (h ▸ hpri)
  have hpair := sheddable_pair hplan hp hq hshed hne
  have hlen : 1 < s.sheddable.length := by rcases hpair with h | h <;> rw [h] <;> exact Nat.one_lt_two
  obtain ⟨hsup, htally, hpat, hscopes, hn, hrate, p', hvol', hst', hsc', hplan'⟩ := shedScope_pair hplan hp hne hvol
  obtain ⟨w, hw⟩ : ∃ w, w = s.shedScope p.scope := ⟨_, rfl⟩
  rw [← hw] at hsup htally hpat hscopes hn hrate hplan'
  obtain ⟨b, hb⟩ : ∃ b, b = w.raise (.shipShed p.scope w.sup.clock s.off.rate s.forecast w.forecast) := ⟨_, rfl⟩
  have honce : s.shedOnce = b := by
    rw [hb, hw]
    unfold State.shedOnce
    rw [shedNext_pair hpair hpri]
    dsimp only
    rw [if_pos ⟨hfits, hlen⟩]
  have hboff : b.off = w.off := (congrArg State.off hb).trans (raise_parts w _).1
  have hbplan : b.off.plan = [p', q] := by rw [hboff]; exact hplan'
  have hbscopes : b.off.shedScopes = [p.scope] := by rw [hboff, hscopes, hshed]; rfl
  have hbstops : b.sheddable.length ≤ 1 := by
    unfold State.sheddable
    rw [hbplan, hbscopes]
    simp [hst', hq, hne.symm, distinctNat, sortNat, List.eraseDups_cons, sortBy, insertBy]
  refine ⟨b, fun n => ?_, ?_, ?_, ?_, ?_, hbscopes, ?_, ?_, p', hvol', hst', hbplan⟩
  · rw [iter, honce]
    exact iter_fixed (shedOnce_stops (.inr hbstops)) n
  · rw [hb, raise_tally]
    exact htally
  · rw [hb, (raise_parts _ _).2.1]
    exact hpat
  · have hkept := supKept_raise (u0 := w.sup) (.shipShed p.scope w.sup.clock s.off.rate s.forecast w.forecast)
      (supKept_refl w.sup)
    rw [hb, hkept.1]
    exact congrArg Supervisor.op hsup
  · rw [hb, raise_raised]
    exact congrArg (fun u : Supervisor => modAt u.raised 5 countUp) hsup
  · rw [hboff]
    exact hn
  · rw [hboff]
    exact hrate

theorem interval_internal {c : Nat} (hop : s.sup.op = .active) (hcalm : s.calm) (hphase : s.off.phase = .windowOpen)
    (htime : s.off.intervalStart + 60 ≤ s.sup.elapsed) (hsaw : s.off.sawShip = false) (hint : s.internal = true)
    (hplan : s.off.plan = [p, q]) (hp : p.state = .shipping) (hq : q.state = .shipping) (hvol : p.vol ≠ q.vol)
    (hshed : s.off.shedScopes = []) (hc : s.off.closeInstant = some c)
    (hpri : s.priorityOf p.scope < s.priorityOf q.scope) :
    ∃ t, Sys2Proof.Machine.exec .forecastIntervalEnd s = .next t ∧ t.off.rate = s.off.rate ∧
      ((256 * (p.shipCount + q.shipCount) = 0 ∨ 0 < s.off.rate) →
        s.sup.clock + (256 * (p.shipCount + q.shipCount) + s.off.rate - 1) / s.off.rate +
          s.sup.settings.reserveMargin ≤ c → t.off.shedScopes = [] ∧ t.off.lastFit = true) ∧
      (¬ ((256 * (p.shipCount + q.shipCount) = 0 ∨ 0 < s.off.rate) ∧
        s.sup.clock + (256 * (p.shipCount + q.shipCount) + s.off.rate - 1) / s.off.rate +
          s.sup.settings.reserveMargin ≤ c) → t.off.shedScopes = [p.scope] ∧ t.off.nShed = s.off.nShed + 1 ∧
        (∃ p', t.planOf p.vol = some p' ∧ p'.state = .shed) ∧
        (∃ q', t.planOf q.vol = some q' ∧ q'.state = .shipping) ∧
        t.sup.raised[5]? = (s.sup.raised[5]?).map countUp) := by
  have hrun : s.sup.op ≠ .halted := by rw [hop]; nofun
  let a : State := { s with sent := [] }
  have hmem : p ∈ a.off.plan := by
    change p ∈ s.off.plan
    rw [hplan]
    exact List.mem_cons_self
  have hrate : a.rateTaken = a := rateTaken_same hsaw
  have heq : a.endInterval = a.fitTested.intervalBegun := by
    rw [endInterval_eq (s := a) hphase htime hmem hp, if_pos (show a.internal = true from hint), hrate]
  have hfits := fits_iff (s := a) hc (remainingWork_pair (s := a) hplan hp hq)
  rw [exec_forecastIntervalEnd hrun, heq]
  cases hf : a.fits with
  | true =>
    have hsame : iter 8 State.shedOnce a = a := iter_fixed (shedOnce_stops (.inl hf)) 8
    have htested : a.fitTested = a.modOff fun o => { o with lastFit := true } := by
      unfold State.fitTested
      rw [hsame, hf]
    have hlast := (finish_lasting (s := (a.modOff fun o => { o with lastFit := true }).intervalBegun) hcalm.2 hrun).1
    rw [htested]
    refine ⟨_, rfl, (congrArg Offsite.rate hlast : _), fun _ _ => ⟨(congrArg Offsite.shedScopes hlast : _).trans hshed,
      (congrArg Offsite.lastFit hlast : _)⟩, fun hno => absurd (hfits.mp hf) hno⟩
  | false =>
    obtain ⟨b, hiter, htally, hpat, hbop, hraised, hscopes, hn, hbrate, p', hvol', hst', hbplan⟩ :=
      shedOnce_pair (s := a) hplan hp hq hvol hshed hf hpri
    have htested : a.fitTested = b.modOff fun o => { o with lastFit := b.fits } := by
      unfold State.fitTested
      rw [hiter 7]
    obtain ⟨w, hw⟩ : ∃ w, w = (b.modOff fun o => { o with lastFit := b.fits }).intervalBegun := ⟨_, rfl⟩
    have hwcalm : w.calm := by
      have ht : w.tally = s.tally := by rw [hw]; exact htally
      have hp : w.pat = s.pat := by rw [hw]; exact hpat
      unfold State.calm State.tallyStill State.patrolStill
      rw [ht, hp]
      exact hcalm
    have hwrun : w.sup.op ≠ .halted := by
      rw [hw]
      exact fun hno => hrun (hbop.symm.trans hno)
    have hlast := (finish_lasting hwcalm.2 hwrun).1
    have hfplan : w.finish.off.plan = [p', q] := (plan_of_lasting hlast).trans (by rw [hw]; exact hbplan)
    rw [htested, ← hw]
    refine ⟨_, rfl, (congrArg Offsite.rate hlast : _).trans (by rw [hw]; exact hbrate), fun h1 h2 => ?_,
      fun _ => ⟨?_, ?_, ⟨p', ?_, hst'⟩, ⟨q, ?_, hq⟩, ?_⟩⟩
    · have hyes := hfits.mpr ⟨h1, h2⟩
      rw [hf] at hyes
      cases hyes
    · exact (congrArg Offsite.shedScopes hlast : _).trans (by rw [hw]; exact hscopes)
    · exact (congrArg Offsite.nShed hlast : _).trans (by rw [hw]; exact hn)
    · unfold State.planOf
      rw [hfplan, List.find?_cons, hvol', beq_self_eq_true]
    · unfold State.planOf
      rw [hfplan, List.find?_cons, hvol', beq_false_of_ne hvol, List.find?_cons, beq_self_eq_true]
    · rw [(finish_beside_parts hwcalm hwrun).1]
      have hwraised : w.sup.raised = modAt s.sup.raised 5 countUp := by rw [hw]; exact hraised
      rw [hwraised, getElem?_modAt, if_pos rfl]

end

end Sys2Proof.Machine

open Sys2Proof Sys2Proof.Machine

/-- Settles O46. -/
theorem walksFormTheChangeSetAndTheForecastSheds : Obligations.WalksFormTheChangeSetAndTheForecastSheds := by
  refine ⟨fun s vol p v hop hcalm hphase hp hst hv hcur hd => countWalk_spec hop hcalm hphase hp hst hv hcur hd,
    fun s p v x hop hcalm hphase hplan hst hv h1 h2 hd hx hbase hbirth hroom =>
      shipWalk_spec hop hcalm hphase hplan hst hv h1 h2 hd hx hbase hbirth hroom,
    fun s p hop hcalm hphase htime hp hst hint => interval_external hop hcalm hphase htime hp hst hint,
    fun s p q c hop hcalm hphase htime hsaw hint hplan hp hq hvol hshed hc hpri =>
      interval_internal hop hcalm hphase htime hsaw hint hplan hp hq hvol hshed hc hpri, fun s hrun hno => ?_⟩
  have hsame : ({ s with sent := [] } : State).endInterval = { s with sent := [] } := by
    refine if_neg ?_
    rintro ⟨hopen, htime⟩
    rcases hno with h | h
    · exact h (of_decide_eq_true hopen)
    · exact absurd htime (Nat.not_le.mpr h)
  obtain ⟨-, -, -, -, hoff, -, -⟩ := finish_settles { s with sent := [] }
  refine ⟨_, exec_forecastIntervalEnd hrun, ?_⟩
  rw [hsame]
  exact hoff
end

section
/-! SUPPORT. The references of an ended directive, and the end of a shipping pull (R58, R114, R128). -/

namespace Sys2Proof.Machine

section
variable {s t u : State} {vol ext : Nat}

/-! ### References given back -/

/-- A version but for the count of its references. -/
def SameButRefs (v w : Version) : Prop := w = { v with res := w.res } ∧ w.loc = v.loc

theorem SameButRefs.refl (v : Version) : SameButRefs v v := ⟨rfl, rfl⟩

theorem SameButRefs.trans {v w x : Version} (h : SameButRefs v w) (k : SameButRefs w x) : SameButRefs v x := by
  obtain ⟨hw, hloc⟩ := h
  obtain ⟨hx, kloc⟩ := k
  rw [hw] at hx
  exact ⟨hx, kloc.trans hloc⟩

theorem sameButRefs_modRefs (loc : Nat) (f : Nat → Nat) (v : Version) : SameButRefs v (modRefs loc f v) := by
  unfold modRefs
  cases hres : v.res with
  | offsite => exact SameButRefs.refl v
  | here l r =>
    dsimp only
    split
    · refine ⟨rfl, ?_⟩
      unfold Version.loc
      rw [hres]
    · exact SameButRefs.refl v

/-- From one state to another, links and catalogue alone differ, and of the catalogue the Reclaim Table and counts of
references. -/
structure RefsMoved (s t : State) : Prop where
  frame : t = { s with links := t.links, cat := t.cat }
  versions : ∀ vol ext, ∃ g : Version → Version, (∀ v, SameButRefs v (g v)) ∧
    (t.extent vol ext).versions = (s.extent vol ext).versions.map g
  volume : ∀ vol, ∃ n : Volume → Nat, t.volume vol = (s.volume vol).map fun v => { v with refTotal := n v }

namespace RefsMoved

theorem of_kept (hframe : t = { s with links := t.links, cat := t.cat }) (hext : t.cat.extents = s.cat.extents)
    (hvol : t.cat.volumes = s.cat.volumes) : RefsMoved s t := by
  refine ⟨hframe, fun vol ext => ⟨id, fun v => SameButRefs.refl v, ?_⟩, fun vol => ⟨fun v => v.refTotal, ?_⟩⟩
  · simp only [State.extent, hext, List.map_id]
  · rw [volume_congr hvol]
    cases s.volume vol <;> rfl

theorem refl (s : State) : RefsMoved s s := of_kept rfl rfl rfl

theorem trans (h : RefsMoved s t) (k : RefsMoved t u) : RefsMoved s u := by
  refine ⟨?_, fun vol ext => ?_, fun vol => ?_⟩
  · have hframe := k.frame
    rw [h.frame] at hframe
    exact hframe
  · obtain ⟨g, hg, hgv⟩ := h.versions vol ext
    obtain ⟨f, hf, hfv⟩ := k.versions vol ext
    exact ⟨f ∘ g, fun v => (hg v).trans (hf (g v)), by rw [hfv, hgv, List.map_map]⟩
  · obtain ⟨n, hn⟩ := h.volume vol
    obtain ⟨m, hm⟩ := k.volume vol
    exact ⟨fun v => m { v with refTotal := n v }, by rw [hm, hn, Option.map_map]; rfl⟩

theorem sup (h : RefsMoved s t) : t.sup = s.sup := by rw [h.frame]
theorem tally (h : RefsMoved s t) : t.tally = s.tally := by rw [h.frame]
theorem rst (h : RefsMoved s t) : t.rst = s.rst := by rw [h.frame]
theorem str (h : RefsMoved s t) : t.str = s.str := by rw [h.frame]
theorem off (h : RefsMoved s t) : t.off = s.off := by rw [h.frame]
theorem pat (h : RefsMoved s t) : t.pat = s.pat := by rw [h.frame]
theorem sent (h : RefsMoved s t) : t.sent = s.sent := by rw [h.frame]

theorem damaged (h : RefsMoved s t) (vol ext : Nat) : t.damaged vol ext = s.damaged vol ext := by
  obtain ⟨n, hn⟩ := h.volume vol
  unfold State.damaged
  rw [hn]
  cases s.volume vol <;> rfl

/-- The version of a birth is the same but for its references. -/
theorem version (h : RefsMoved s t) (vol ext birth : Nat) : ∃ g : Version → Version, (∀ v, SameButRefs v (g v)) ∧
    (t.extent vol ext).version birth = ((s.extent vol ext).version birth).map g := by
  obtain ⟨g, hg, hgv⟩ := h.versions vol ext
  refine ⟨g, hg, ?_⟩
  unfold Extent.version
  rw [hgv, List.find?_map]
  refine congrArg _ (congrArg (fun p => List.find? p _) ?_)
  funext v
  have hbirth : (g v).birth = v.birth := by rw [(hg v).1]
  rw [Function.comp_apply, hbirth]

end RefsMoved

theorem refsMoved_of_reclaims (h : ReclaimsOnly s t) : RefsMoved s t := by
  refine RefsMoved.of_kept ?_ h.extents h.volumes
  have hcat : t.cat = { s.cat with reclaims := t.cat.reclaims } := by rw [h.frame]
  rw [hcat]
  exact h.frame

/-- References of one version counted anew. -/
theorem refsMoved_setRefs (s : State) (vol ext loc : Nat) (f : Nat → Nat) (g : Nat → Nat) :
    RefsMoved s ((s.setExtent vol ext { s.extent vol ext with
      versions := (s.extent vol ext).versions.map (modRefs loc f) }).modVolume vol fun v =>
        { v with refTotal := g v.refTotal }) := by
  refine ⟨rfl, fun w x => ?_, fun w => ?_⟩
  · have hext : ((s.setExtent vol ext { s.extent vol ext with
        versions := (s.extent vol ext).versions.map (modRefs loc f) }).modVolume vol fun v =>
          { v with refTotal := g v.refTotal }).extent w x = (s.setExtent vol ext { s.extent vol ext with
        versions := (s.extent vol ext).versions.map (modRefs loc f) }).extent w x := rfl
    rw [hext]
    by_cases hkey : extentKey vol ext = extentKey w x
    · have hsame (y : State) : y.extent w x = y.extent vol ext := by
        unfold State.extent
        rw [hkey]
      rw [hsame, hsame, extent_setExtent_self]
      exact ⟨modRefs loc f, sameButRefs_modRefs loc f, rfl⟩
    · rw [extent_setExtent_ne _ _ _ _ _ _ hkey]
      exact ⟨id, SameButRefs.refl, (List.map_id _).symm⟩
  · by_cases hw : vol = w
    · subst hw
      exact ⟨fun v => g v.refTotal, State.volume_modVolume _ _ _⟩
    · refine ⟨fun v => v.refTotal, (State.volume_modVolume_ne _ _ hw).trans ?_⟩
      have hvol : (s.setExtent vol ext { s.extent vol ext with
        versions := (s.extent vol ext).versions.map (modRefs loc f) }).volume w = s.volume w := rfl
      rw [hvol]
      cases s.volume w <;> rfl

theorem refsMoved_decRef (s : State) (vol ext loc : Nat) : RefsMoved s (s.decRef vol ext loc) := by
  unfold State.decRef
  dsimp only
  split
  · exact refsMoved_setRefs s vol ext loc (· - 1) (· - 1)
  · split
    · exact RefsMoved.refl s
    · next r _ =>
      refine RefsMoved.trans ?_ (refsMoved_of_reclaims (reclaimsOnly_flushReclaims _))
      refine ⟨rfl, fun w x => ⟨id, SameButRefs.refl, (List.map_id _).symm⟩, fun w => ?_⟩
      by_cases hw : vol = w
      · subst hw
        exact ⟨fun v => v.refTotal - 1, State.volume_modVolume _ _ _⟩
      · refine ⟨fun v => v.refTotal, (State.volume_modVolume_ne _ _ hw).trans ?_⟩
        change s.volume w = _
        cases s.volume w <;> rfl

theorem refsMoved_decRefs (s : State) (refs : List (Nat × Nat × Nat)) : RefsMoved s (s.decRefs refs) := by
  unfold State.decRefs
  induction refs generalizing s with
  | nil => exact RefsMoved.refl s
  | cons r rs ih => exact (refsMoved_decRef s _ _ _).trans (ih _)

/-- The state in which the issuer of an ended directive is told: its entry gone, its slots and references given back
(R58, R112, R175). -/
def State.directiveGone (s : State) (l : Link) (d : Directive) : State :=
  ((s.endDirective l d.tag).freeAllOf (.gone l d.tag)).decRefs d.refs

/-- What an ended directive leaves but for its link. -/
theorem directiveGone_spec (s : State) (l : Link) (d : Directive) :
    RefsMoved { s with str.slots := s.str.slots.filter fun kv => !decide (kv.2.holder = .gone l d.tag) }
      (s.directiveGone l d) ∧
    (∀ e ∈ ((s.directiveGone l d).link l).directives, e.tag ≠ d.tag) ∧
      ((s.directiveGone l d).link l).up = (s.link l).up := by
  let b := (s.endDirective l d.tag).freeAllOf (.gone l d.tag)
  have hb : RefsMoved { s with str.slots := s.str.slots.filter fun kv => !decide (kv.2.holder = .gone l d.tag) } b :=
    RefsMoved.of_kept rfl rfl rfl
  refine ⟨hb.trans (refsMoved_decRefs b d.refs), ?_, ?_⟩
  · exact gains_decRefs (linksGain_noTag l d.tag) d.refs
      (gains_freeAllOf (P := fun ls => ∀ f ∈ (ls[l]).directives, f.tag ≠ d.tag) (.gone l d.tag)
        (endDirective_noTag s l d.tag))
  · have hup : LinksGain fun ls => (ls[l]).up = (s.link l).up := by
      refine LinksGain.of_record (R := fun r => r.up = (s.link l).up) l ?_ ?_ ?_ ?_ ?_
      · intro r n _ h
        unfold LinkRec.queueNotice
        split <;> exact h
      · exact fun r b _ h => h
      · exact fun r now h => h
      · exact fun r now h => h
      · exact fun r ws h => h
    refine gains_decRefs hup d.refs ?_
    change ((s.endDirective l d.tag).link l).up = _
    unfold State.endDirective State.restartIdle
    rw [State.link_modLink_self, State.link_modLink_self]

/-! ### The end of a shipping pull -/

/-- Entries of a pull go back to UNPULLED, marked (R128). -/
def ShipEntry.unreceived (e : ShipEntry) : ShipEntry :=
  { e with state := .unpulled, slot := none, failMark := true }

/-- Entries named one after another by distinct numbers are each changed once. -/
theorem foldl_modEntry {f : ShipEntry → ShipEntry} (hf : ∀ e, (f e).num = e.num) (es q : List ShipEntry)
    (hnd : (es.map ShipEntry.num).Nodup) :
    es.foldl (fun q e => mapIf (fun x => x.num == e.num) f q) q =
      q.map fun x => if x.num ∈ es.map ShipEntry.num then f x else x := by
  induction es generalizing q with
  | nil => simp
  | cons e es ih =>
    obtain ⟨hnot, hnd⟩ := List.nodup_cons.mp hnd
    rw [List.foldl_cons, ih _ hnd]
    unfold mapIf
    rw [List.map_map]
    refine List.map_congr_left fun x _ => ?_
    by_cases hx : x.num = e.num
    · have hno : ∀ y ∈ es, y.num ≠ e.num := fun y hy h => hnot (List.mem_map.mpr ⟨y, hy, h⟩)
      simp only [hx, hf, beq_self_eq_true, if_true, if_neg hnot, Function.comp_apply, List.map_cons, List.mem_cons,
        true_or]
    · simp [hx]

end

end Sys2Proof.Machine
end

section
/-! PROOF. Pull runs, PULLs, chunks and the ends of pulls (R110, R114, R127, R128). -/

namespace Sys2Proof.Machine

section
variable {s t u : State} {p : ShipPull} {e : ShipEntry} {l : Link} {tag i n : Nat}

/-! ### A pull run started -/

theorem pullable_of {q : PlanVol} (hpulls : s.off.pulls = []) (hst : e.state = .unpulled) (hform : e.form = .ship)
    (hplan : s.planOf e.vol = some q) (hq : q.state = .shipping) : s.pullable e = true := by
  unfold State.pullable
  rw [hst, hform, hplan, hpulls]
  dsimp only
  rw [hq]
  rfl

/-- A queue of one entry gives a run of it alone (R127). -/
theorem runFrom_single (hq : s.off.queue = [e]) (hch : e.chunks = [i]) (hp : s.pullable e = true) :
    s.runFrom e 16 i = [e] := by
  have hself : e.isOf e.vol e.ext e.birth = true := by simp [ShipEntry.isOf]
  have hfirst : (s.off.queue.find? fun x =>
      x.isOf e.vol e.ext e.birth && decide (x.chunks = [i]) && s.pullable x) = some e := by
    rw [hq, List.find?_cons_of_pos]
    rw [hself, decide_eq_true hch, hp]
    rfl
  have hnext : (s.off.queue.find? fun x =>
      x.isOf e.vol e.ext e.birth && decide (x.chunks = [i + 1]) && s.pullable x) = none := by
    rw [hq, List.find?_cons_of_neg, List.find?_nil]
    have hne : e.chunks ≠ [i + 1] := by
      rw [hch]
      intro h
      have := List.head_eq_of_cons_eq h
      omega
    rw [decide_eq_false hne, Bool.and_false, Bool.false_and]
    exact Bool.false_ne_true
  unfold State.runFrom
  rw [hfirst]
  dsimp only
  unfold State.runFrom
  rw [hnext]

/-- A SHIP request that the reserve allows is granted (R107, R108). -/
theorem grantAllowed_ship {k : Nat} (hop : s.sup.op ≠ .holdup) (h1 : s.str.waitRepair = []) (h2 : s.str.waitFetch = [])
    (hk : k ≤ 64 - s.str.slots.length)
    (hres : (4 - s.slotsHeld .repair) + (8 - s.slotsHeld .fetch) ≤ 64 - s.str.slots.length - k) :
    s.grantAllowed .ship k = true := by
  have hurgent : s.urgent = false := by
    unfold State.urgent
    rw [h1, h2]
    rfl
  have hfree : s.freeSlots = 64 - s.str.slots.length := rfl
  have hreserve : s.reserve = (4 - s.slotsHeld .repair) + (8 - s.slotsHeld .fetch) := rfl
  unfold State.grantAllowed
  rw [decide_eq_true hop, hfree, decide_eq_true hk, hurgent, hreserve, decide_eq_true hres]
  rfl

/-- The pull of a run of one entry. -/
def State.runOf (s : State) (e : ShipEntry) (loc i : Nat) : ShipPull :=
  { n := s.off.nextPull, vol := e.vol, ext := e.ext, birth := e.birth, loc := loc, first := i, count := 1
    stage := .slots, cut := false }

theorem startRun_single {v : Version} {loc : Nat} (hq : s.off.queue = [e]) (hch : e.chunks = [i])
    (hp : s.pullable e = true) (hv : (s.extent e.vol e.ext).version e.birth = some v) (hloc : v.loc = some loc) :
    s.startRun = (s.modOff fun o => { o with
      pulls := o.pulls ++ [s.runOf e loc i], nextPull := o.nextPull + 1 }).askSlots .ship
        { holder := .shipPull s.off.nextPull, wants := [(i, e.code.getD 0)] } := by
  have hfind : s.off.queue.find? s.pullable = some e := by
    rw [hq, List.find?_cons_of_pos hp]
  have hrunLoc : s.runLoc e = some loc := by
    unfold State.runLoc
    rw [hv, Option.bind_some, hloc]
  have hhead : e.chunks.headD 0 = i := by rw [hch]; rfl
  unfold State.startRun
  rw [hfind]
  dsimp only
  rw [hhead, runFrom_single hq hch hp, hrunLoc, ← hhead]
  rfl

theorem pullRun_spec {q : PlanVol} {v : Version} {m loc : Nat} (hcalm : s.calm) (hgo : s.pullsGo = true)
    (hship : s.str.waitShip = []) (hrep : s.str.waitRepair = []) (hfetch : s.str.waitFetch = [])
    (hq : s.off.queue = [e]) (hpulls : s.off.pulls = []) (hst : e.state = .unpulled) (hform : e.form = .ship)
    (hch : e.chunks = [i]) (hplan : s.planOf e.vol = some q) (hqs : q.state = .shipping)
    (hv : (s.extent e.vol e.ext).version e.birth = some v) (hloc : v.loc = some loc)
    (hlen : s.str.slots.length < 64) (hm : m < 64) (hfree : s.slot m = none)
    (hres : (4 - s.slotsHeld .repair) + (8 - s.slotsHeld .fetch) ≤ 64 - s.str.slots.length - 1) :
    ∃ t n x, Sys2Proof.Machine.exec .pullRun s = .next t ∧
      t.off.pulls =
        [{ n := s.off.nextPull, vol := e.vol, ext := e.ext, birth := e.birth, loc := loc, first := i,
           count := 1, stage := .place, cut := false }] ∧
      s.slot n = none ∧ t.slot n = some x ∧ x.state = .filling ∧ x.cls = .ship ∧
      x.holder = .shipPull s.off.nextPull ∧ x.idx = i ∧ x.expected = e.code.getD 0 := by
  have hop : s.sup.op = .active := by
    unfold State.pullsGo at hgo
    simp only [Bool.and_eq_true, decide_eq_true_eq] at hgo
    exact hgo.1.1.1
  have hrun : s.sup.op ≠ .halted := by rw [hop]; nofun
  let a : State := { s with sent := [] }
  have hexec : Sys2Proof.Machine.exec .pullRun s = .next a.startRun.finish := by
    change execPullRun s [] = _
    unfold execPullRun
    rw [act_withErrs_nil _ hrun]
    refine congrArg Host.Outcome.next (if_pos ?_)
    change (s.pullsGo && s.str.waitShip.isEmpty) = true
    rw [hgo, hship]
    rfl
  have hstart := startRun_single (s := a) hq hch (pullable_of (s := a) hpulls hst hform hplan hqs) hv hloc
  obtain ⟨w, hw⟩ : ∃ w, w = a.modOff fun o =>
      { o with pulls := o.pulls ++ [a.runOf e loc i], nextPull := o.nextPull + 1 } := ⟨_, rfl⟩
  have hwslots : w.str.slots = s.str.slots := by rw [hw]; rfl
  have hwship : w.waiting .ship = [] := by rw [hw]; exact hship
  have hallowed : w.grantAllowed .ship 1 = true := by
    have hheld (c : SlotClass) : w.slotsHeld c = s.slotsHeld c := by rw [hw]; rfl
    have hwop : w.sup.op = .active := by rw [hw]; exact hop
    refine grantAllowed_ship (by rw [hwop]; nofun) (by rw [hw]; exact hrep) (by rw [hw]; exact hfetch) ?_ ?_
    · rw [hwslots]
      omega
    · rw [hwslots, hheld, hheld]
      exact hres
  have hask : a.startRun = w.grant .ship { holder := .shipPull s.off.nextPull, wants := [(i, e.code.getD 0)] } := by
    rw [hstart, ← hw]
    unfold State.askSlots
    rw [hwship]
    exact if_pos ⟨hallowed, rfl⟩
  obtain ⟨ksup, -, -, -, -, -, -, -, kstill⟩ := grant_kept (s := w) .ship
    { holder := .shipPull s.off.nextPull, wants := [(i, e.code.getD 0)] }
  have hslots := grant_one (s := w) .ship (.shipPull s.off.nextPull) i (e.code.getD 0)
  have hgpulls : (w.grant .ship { holder := .shipPull s.off.nextPull, wants := [(i, e.code.getD 0)] }).off.pulls =
      mapIf (fun p => p.n == s.off.nextPull) (fun p => { p with stage := .place }) w.off.pulls := rfl
  have hwpulls : w.off.pulls = [s.runOf e loc i] := by
    rw [hw]
    change s.off.pulls ++ [s.runOf e loc i] = _
    rw [hpulls]
    rfl
  rw [hwpulls] at hgpulls
  generalize w.grant .ship { holder := .shipPull s.off.nextPull, wants := [(i, e.code.getD 0)] } = y
    at hask ksup kstill hslots hgpulls
  have hwstill : w.patrolStill := by rw [hw]; exact hcalm.2
  have hyrun : y.sup.op ≠ .halted := by rw [ksup, hw]; exact hrun
  have hlow := lowestSlot_spec (s := w) hm (by rw [hw]; exact hfree)
  have hlast := (finish_lasting (kstill hwstill) hyrun).1
  refine ⟨_, w.lowestSlot, grantedSlot .ship (.shipPull s.off.nextPull) i (e.code.getD 0), hexec, ?_, ?_, ?_, rfl, rfl,
    rfl, rfl, rfl⟩
  · rw [hask]
    refine (congrArg Offsite.pulls hlast : _).trans (hgpulls.trans ?_)
    change [if (s.runOf e loc i).n == s.off.nextPull then _ else _] = _
    rw [if_pos (show ((s.runOf e loc i).n == s.off.nextPull) = true from beq_self_eq_true _)]
    rfl
  · have hfree' := hlow.2
    unfold State.slot at hfree' ⊢
    rw [hwslots] at hfree'
    exact hfree'
  · rw [hask, finish_slots (kstill hwstill) hyrun, State.slot, hslots, tget_tput_self]

/-! ### A PULL issued -/

theorem calm_congr (htally : t.tally = s.tally) (hpat : t.pat = s.pat) (h : s.calm) : t.calm := by
  unfold State.calm State.tallyStill State.patrolStill
  rw [htally, hpat]
  exact h

/-- An entry that is neither UNPULLED nor PARKED stays when shed entries are cleared. -/
theorem mem_clearShed (he : e ∈ s.off.queue) (h1 : e.state ≠ .unpulled) (h2 : e.state ≠ .parked) :
    e ∈ s.clearShed.off.queue := by
  refine List.mem_filter.mpr ⟨he, ?_⟩
  cases hst : e.state with
  | unpulled => exact absurd hst h1
  | parked => exact absurd hst h2
  | ready => simp
  | pulling k => simp
  | outstanding => simp

theorem find_pull (h : s.off.pulls = [p]) : (s.off.pulls.find? fun x => x.n == p.n) = some p := by
  rw [h]
  simp

theorem pull_spec {q : PlanVol} {v : Version} (hcalm : s.calm) (hgo : s.pullsGo = true) (hpulls : s.off.pulls = [p])
    (hstage : p.stage = .place) (howner : s.ownerOf p.vol = some l) (hplan : s.planOf p.vol = some q)
    (hq : q.state = .shipping) (hup : (s.link l).up = true) (hroom : (s.link l).directives.length < 16)
    (hwaits : (s.link l).placeWaits = []) (hd : s.damaged p.vol p.ext = false)
    (hv : v ∈ (s.extent p.vol p.ext).versions) (hloc : v.loc = some p.loc) :
    ∃ t d, Sys2Proof.Machine.exec (.pull p.n []) s = .next t ∧
      t.off.pulls = [{ p with stage := .issued }] ∧ (t.link l).directives = (s.link l).directives ++ [d] ∧
      d.kind = .pull ∧ d.issuer = .shipPull p.n ∧ d.refs = [(p.vol, p.ext, p.loc)] ∧
      TxFrame.directive d.tag (.pull p.loc p.first p.count false) ∈ (t.link l).tx ∧
      ∀ e ∈ s.off.queue, e.isOf p.vol p.ext p.birth = true → e.state = .unpulled →
        p.first ≤ e.chunks.headD 0 → e.chunks.headD 0 < p.first + p.count →
        { e with state := .pulling p.n } ∈ t.off.queue := by
  have hop : s.sup.op = .active := by
    unfold State.pullsGo at hgo
    simp only [Bool.and_eq_true, decide_eq_true_eq] at hgo
    exact hgo.1.1.1
  have hrun : s.sup.op ≠ .halted := by rw [hop]; nofun
  let a : State := { s with sent := [] }
  have hexec : Sys2Proof.Machine.exec (.pull p.n []) s = .next (a.issuePull p l).finish := by
    change execPull p.n [] s = _
    unfold execPull
    rw [act_withErrs_nil _ hrun]
    refine congrArg Host.Outcome.next ?_
    have hfind := find_pull hpulls
    dsimp only
    rw [hfind]
    dsimp only
    rw [show State.ownerOf { s with sent := [] } p.vol = some l from howner,
      show State.planOf { s with sent := [] } p.vol = some q from hplan]
    exact if_pos ⟨hgo, hq, hstage⟩
  have hcarries : (a.extent p.vol p.ext).carries p.loc = true :=
    List.any_eq_true.mpr ⟨v, hv, decide_eq_true hloc⟩
  obtain ⟨w, hw⟩ : ∃ w, w = (a.setExtent p.vol p.ext { a.extent p.vol p.ext with
      versions := (a.extent p.vol p.ext).versions.map (modRefs p.loc (· + 1)) }).modVolume p.vol fun v =>
        { v with refTotal := v.refTotal + 1 } := ⟨_, rfl⟩
  have hmoved : RefsMoved a w := by
    rw [hw]
    exact refsMoved_setRefs a p.vol p.ext p.loc (· + 1) (· + 1)
  have hinc : a.incRef p.vol p.ext p.loc = .granted w := by
    unfold State.incRef
    rw [if_neg (by rw [show a.damaged p.vol p.ext = false from hd]; exact Bool.false_ne_true), if_pos hcarries, hw]
  have hwlinks : w.links = s.links := by rw [hw]; rfl
  obtain ⟨y, hy⟩ : ∃ y, y = w.modOff fun o =>
      { o with
        pulls := mapIf (fun x => x.n == p.n) (fun x => { x with stage := .issued }) o.pulls
        queue := mapIf (fun e => e.isOf p.vol p.ext p.birth && decide (e.state = .unpulled) &&
            decide (p.first ≤ e.chunks.headD 0) && decide (e.chunks.headD 0 < p.first + p.count))
          (fun e => { e with state := .pulling p.n }) o.queue } := ⟨_, rfl⟩
  have hissue : a.issuePull p l =
      y.handDirective l .pull (.shipPull p.n) [(p.vol, p.ext, p.loc)] (.pull p.loc p.first p.count false) [] := by
    unfold State.issuePull
    rw [if_neg (by rw [placeFree_of (s := a) hup hroom hwaits]; nofun), hinc, hy]
  have hylink : y.link l = s.link l := by
    rw [hy]
    exact State.link_congr hwlinks l
  have hyoff : y.off.pulls = [{ p with stage := .issued }] := by
    have hp : w.off.pulls = [p] := (congrArg Offsite.pulls hmoved.off : _).trans hpulls
    rw [hy]
    change mapIf _ _ w.off.pulls = _
    rw [hp]
    simp [mapIf]
  have hycalm : y.calm := by
    refine calm_congr (s := s) ?_ ?_ hcalm
    · rw [hy]
      exact hmoved.tally
    · rw [hy]
      exact hmoved.pat
  have hyrun : y.sup.op ≠ .halted := by
    rw [hy]
    exact fun hno => hrun ((congrArg Supervisor.op hmoved.sup).symm.trans hno)
  obtain ⟨hdirs, htx, -⟩ := handDirective_spec (s := y) (l := l) (k := .pull) (who := .shipPull p.n)
    (refs := [(p.vol, p.ext, p.loc)]) (b := .pull p.loc p.first p.count false) (chunks := [])
  have hframe := handDirective_eq y l .pull (.shipPull p.n) [(p.vol, p.ext, p.loc)]
    (.pull p.loc p.first p.count false) []
  rw [hexec, hissue]
  generalize y.handDirective l .pull (.shipPull p.n) [(p.vol, p.ext, p.loc)] (.pull p.loc p.first p.count false) [] = z
    at hdirs htx hframe
  have hzoff : z.off = y.off := by rw [hframe]
  have hzcalm : z.calm := calm_congr (by rw [hframe]) (by rw [hframe]) hycalm
  have hzrun : z.sup.op ≠ .halted := by rw [hframe]; exact hyrun
  obtain ⟨hlast, -, hqueue⟩ := finish_lasting hzcalm.2 hzrun
  refine ⟨_, y.newDirective l .pull (.shipPull p.n) [(p.vol, p.ext, p.loc)], rfl, ?_, ?_, rfl, rfl, rfl, ?_,
    fun e he hof hun h1 h2 => ?_⟩
  · exact (congrArg Offsite.pulls hlast : _).trans ((congrArg Offsite.pulls hzoff : _).trans hyoff)
  · rw [finish_link hzcalm hzrun, hdirs, hylink]
  · rw [finish_link hzcalm hzrun]
    exact htx
  · rw [hqueue]
    refine mem_clearShed ?_ (by nofun) (by nofun)
    rw [hzoff, hy]
    have hwe : e ∈ w.off.queue := by
      rw [hmoved.off]
      exact he
    have hyes : (e.isOf p.vol p.ext p.birth && decide (e.state = .unpulled) && decide (p.first ≤ e.chunks.headD 0) &&
        decide (e.chunks.headD 0 < p.first + p.count)) = true := by
      rw [hof, decide_eq_true hun, decide_eq_true h1, decide_eq_true h2]
      rfl
    exact List.mem_map.mpr ⟨e, hwe, if_pos hyes⟩

/-! ### Chunks -/

theorem exec_extentData {idx : Nat} {data : List Byte} (hrun : s.sup.op ≠ .halted) (hup : (s.link l).up = true) :
    Sys2Proof.Machine.exec (.extentData l tag idx data) s = .next
      (if data.length ≠ chunkBytes then
        ((({ s with sent := [] } : State).modLink l fun r => { r with up := true, badRun := 0 }).countDiscard l).finish
      else
        match (({ s with sent := [] } : State).modLink l fun r => { r with up := true, badRun := 0 }).matching l tag
            .pull with
        | none => (({ s with sent := [] } : State).modLink l fun r => { r with up := true, badRun := 0 }).finish
        | some d => ((({ s with sent := [] } : State).modLink l fun r =>
            { r with up := true, badRun := 0 }).placeChunk d idx data).finish) := by
  have harr := arrive_up (s := { s with sent := [] }) (l := l) hup
  change execExtentData l tag idx data s [] = _
  unfold execExtentData
  refine (act_running _ hrun).trans (congrArg Host.Outcome.next ?_)
  rw [harr]
  exact withErrs_nil _ hrun

/-- A frame of an UP link that ends a run of bad ones leaves the directives. -/
theorem directive_arrived (a : State) (l : Link) (tag : Nat) :
    (a.modLink l fun r => { r with up := true, badRun := 0 }).directive l tag = a.directive l tag := by
  unfold State.directive
  rw [State.link_modLink_self]

theorem chunkDiscarded_spec {idx : Nat} {data : List Byte} (hrun : s.sup.op ≠ .halted) (hup : (s.link l).up = true)
    (hstill : s.patrolStill) (hlen : data.length ≠ 262144) :
    ∃ t, Sys2Proof.Machine.exec (.extentData l tag idx data) s = .next t ∧
      (t.link l).discarded = (s.link l).discarded + 1 ∧ t.str.slots = s.str.slots ∧ t.rst = s.rst := by
  rw [exec_extentData hrun hup, if_pos (show data.length ≠ chunkBytes from hlen)]
  obtain ⟨w, hw⟩ : ∃ w, w =
    (({ s with sent := [] } : State).modLink l fun r => { r with up := true, badRun := 0 }).countDiscard l := ⟨_, rfl⟩
  rw [← hw]
  have hwstill : w.patrolStill := by rw [hw]; exact hstill
  have hwrun : w.sup.op ≠ .halted := by rw [hw]; exact hrun
  obtain ⟨-, -, -, -, -, -, -, hdisc, -⟩ := finish_link_kept w l
  refine ⟨_, rfl, ?_, ?_, ?_⟩
  · rw [hdisc, hw]
    unfold State.countDiscard
    rw [State.link_modLink_self, State.link_modLink_self]
    rfl
  · rw [(finish_lasting hwstill hwrun).2.1, hw]
    rfl
  · rw [finish_rst, hw]
    rfl

theorem foldEqual_none (h : s.pat.folds = []) (p : ShipPull) (idx : Nat) : s.foldEqual p idx = s := by
  unfold State.foldEqual State.modPat
  dsimp only
  rw [h]
  exact congrArg (fun o => { s with pat := o }) (congrArg (fun f => { s.pat with folds := f }) h.symm)

/-- A chunk of a shipping pull that compares equal fills its slot, and its entry is READY (R110, R128). -/
theorem shipChunk_equal {idx : Nat} {data : List Byte} {x : Slot} (hop : s.sup.op = .active)
    (hphase : s.off.phase = .windowOpen) (hpulls : s.off.pulls = [p]) (hstill : s.patrolStill)
    (hslot : s.slotFor (.shipPull p.n) idx = some (n, x)) (hst : x.state = .filling)
    (hcode : checkCode data = x.expected) (hq : s.off.queue = [e]) (hes : e.state = .pulling p.n)
    (hch : e.chunks = [idx]) (hlost : s.pullLost p = false) (hcut : p.cut = false)
    (hrep : s.str.waitRepair = []) (hfetch : s.str.waitFetch = []) :
    s.shipChunk p.n idx data =
      ((s.fill n data).makeFull n).modEntry e.num fun y => { y with state := .ready, slot := some n } := by
  have hfind := find_pull hpulls
  have hfold : (s.fill n data).foldEqual p idx = s.fill n data := by
    obtain ⟨-, hfolds, -⟩ := hstill
    exact foldEqual_none (s := s.fill n data) hfolds p idx
  have hentry : (s.fill n data).pullEntry p idx = some e := by
    have hq' : (s.fill n data).off.queue = [e] := hq
    unfold State.pullEntry
    rw [hq', List.find?_cons_of_pos]
    rw [decide_eq_true hes, decide_eq_true hch]
    rfl
  have hend : (s.fill n data).nightEnding = false := by
    unfold State.nightEnding
    rw [show (s.fill n data).off.phase = .windowOpen from hphase]
  have hstay : ¬ ((s.fill n data).sup.op = .standby ∨ p.cut = true) := by
    rw [show (s.fill n data).sup.op = .active from hop, hcut]
    rintro (h | h) <;> cases h
  have hlost' : (s.fill n data).pullLost p = false := hlost
  have hback (w : State) (h1 : w.str.waitRepair = []) (h2 : w.str.waitFetch = []) : w.takeBack = w := by
    refine iter_fixed (takeBackOnce_rest ?_) _
    unfold State.urgent
    rw [h1, h2]
    rfl
  unfold State.shipChunk
  rw [hfind, hslot]
  dsimp only
  rw [if_neg (by rw [hst]; exact fun h => h rfl), decide_eq_true hcode, if_pos rfl, hfold, hentry]
  dsimp only
  rw [if_pos rfl]
  unfold State.shipEqual
  rw [hend, if_neg Bool.false_ne_true, if_neg hstay, hlost', if_neg Bool.false_ne_true]
  exact hback _ hrep hfetch

theorem chunkEqual_spec {idx : Nat} {data : List Byte} {d : Directive} {x : Slot} (hop : s.sup.op = .active)
    (hcalm : s.calm) (hup : (s.link l).up = true) (hd : s.directive l tag = some d) (hkind : d.kind = .pull)
    (hissuer : d.issuer = .shipPull p.n) (hpulls : s.off.pulls = [p]) (hx : s.slot n = some x)
    (hslot : s.slotFor (.shipPull p.n) idx = some (n, x)) (hst : x.state = .filling) (hlen : data.length = 262144)
    (hcode : checkCode data = x.expected) (hq : s.off.queue = [e]) (hes : e.state = .pulling p.n)
    (hch : e.chunks = [idx]) (hphase : s.off.phase = .windowOpen) (hlost : s.pullLost p = false) (hcut : p.cut = false)
    (hrep : s.str.waitRepair = []) (hfetch : s.str.waitFetch = []) :
    ∃ t, Sys2Proof.Machine.exec (.extentData l tag idx data) s = .next t ∧
      t.slot n = some { x with
        data := data, computed := checkCode data, state := .full, fullOrder := s.str.nextFull } ∧
      { e with state := .ready, slot := some n } ∈ t.off.queue := by
  have hrun : s.sup.op ≠ .halted := by rw [hop]; nofun
  obtain ⟨a, ha⟩ : ∃ a, a = ({ s with sent := [] } : State).modLink l fun r => { r with up := true, badRun := 0 } :=
    ⟨_, rfl⟩
  have hmatch : a.matching l tag .pull = some d := by
    refine matching_of ?_ hkind
    rw [ha, directive_arrived]
    exact hd
  have hchunk : a.placeChunk d idx data =
      ((a.fill n data).makeFull n).modEntry e.num fun y => { y with state := .ready, slot := some n } := by
    unfold State.placeChunk
    rw [hissuer]
    refine shipChunk_equal ?_ ?_ ?_ ?_ ?_ hst hcode ?_ hes hch ?_ hcut ?_ ?_ <;> rw [ha]
    · exact hop
    · exact hphase
    · exact hpulls
    · exact hcalm.2
    · exact hslot
    · exact hq
    · exact hlost
    · exact hrep
    · exact hfetch
  obtain ⟨w, hw⟩ : ∃ w, w = ((a.fill n data).makeFull n).modEntry e.num fun y =>
    { y with state := .ready, slot := some n } := ⟨_, rfl⟩
  have hwstill : w.patrolStill := by rw [hw, ha]; exact hcalm.2
  have hwrun : w.sup.op ≠ .halted := by rw [hw, ha]; exact hrun
  refine ⟨w.finish, ?_, ?_, ?_⟩
  · rw [exec_extentData hrun hup, if_neg (show ¬ data.length ≠ chunkBytes from not_not.mpr hlen), ← ha, hmatch]
    dsimp only
    rw [hchunk, ← hw]
  · rw [finish_slots hwstill hwrun, hw]
    have hslot2 : (((a.fill n data).makeFull n).modEntry e.num fun y =>
        { y with state := .ready, slot := some n }).slot n =
        ((a.fill n data).modSlot n fun y => { y with state := .full, fullOrder := a.str.nextFull }).slot n := rfl
    have hax : a.slot n = some x := by rw [ha]; exact hx
    have hnext : a.str.nextFull = s.str.nextFull := by rw [ha]; rfl
    rw [hslot2, State.slot_modSlot, State.fill, State.slot_modSlot, hax, hnext]
    rfl
  · rw [(finish_lasting hwstill hwrun).2.2]
    refine mem_clearShed ?_ (by nofun) (by nofun)
    rw [hw]
    refine List.mem_map.mpr ⟨e, ?_, if_pos (beq_self_eq_true e.num)⟩
    rw [ha]
    change e ∈ s.off.queue
    rw [hq]
    exact List.mem_singleton.mpr rfl

/-! ### The end of a pull -/

/-- Chunks that were not received, of a version that is not lost, go back to UNPULLED one after another (R128). -/
theorem notReceived_fold {cause : PullCause} (hcause : cause = .ended ∨ cause = .failed) (left : List ShipEntry)
    (u : State) (hlost : u.pullLost p = false) (hmark : ∀ e ∈ left, e.failMark = false) :
    left.foldl (fun s e => if s.pullLost p then s else s.notReceived p cause e) u =
      { u with off.queue :=
          left.foldl (fun q e => mapIf (fun x => x.num == e.num) ShipEntry.unreceived q) u.off.queue } := by
  induction left generalizing u with
  | nil => rfl
  | cons e left ih =>
    have hone : u.notReceived p cause e = u.modEntry e.num ShipEntry.unreceived := by
      have he := hmark e List.mem_cons_self
      unfold State.notReceived
      rcases hcause with rfl | rfl <;> exact if_neg (by rw [he]; exact Bool.false_ne_true)
    rw [List.foldl_cons, List.foldl_cons, if_neg (by rw [hlost]; exact Bool.false_ne_true), hone,
      ih (u.modEntry e.num ShipEntry.unreceived) hlost fun x hx => hmark x (List.mem_cons_of_mem _ hx)]
    rfl

/-- The queue as a pull ends with chunks not received (R128). -/
def unreceivedQueue (n : Nat) (q : List ShipEntry) : List ShipEntry :=
  q.map fun e => if e.state = .pulling n then e.unreceived else e

theorem fold_left {n : Nat} {q : List ShipEntry} (hnd : (q.map ShipEntry.num).Nodup) :
    (q.filter fun e => decide (e.state = .pulling n)).foldl
        (fun q e => mapIf (fun x => x.num == e.num) ShipEntry.unreceived q) q = unreceivedQueue n q := by
  have hsub : ((q.filter fun e => decide (e.state = .pulling n)).map ShipEntry.num).Nodup :=
    hnd.sublist (List.filter_sublist.map _)
  rw [foldl_modEntry (f := ShipEntry.unreceived) (fun _ => rfl) _ _ hsub]
  refine List.map_congr_left fun x hx => ?_
  by_cases hst : x.state = .pulling n
  · rw [if_pos hst, if_pos]
    exact List.mem_map_of_mem (List.mem_filter.mpr ⟨hx, decide_eq_true hst⟩)
  · rw [if_neg hst, if_neg]
    intro hmem
    obtain ⟨y, hy, hnum⟩ := List.mem_map.mp hmem
    obtain ⟨hyq, hyst⟩ := List.mem_filter.mp hy
    obtain rfl := List.inj_on_of_nodup_map hnd hyq hx hnum
    exact hst (of_decide_eq_true hyst)

/-- A pull ends while the window is open: its FILLING slots are freed, and its entries not received go back (R114,
R128). -/
theorem pullEnded_eq {cause : PullCause} (hcause : cause = .ended ∨ cause = .failed) (hpulls : s.off.pulls = [p])
    (hphase : s.off.phase = .windowOpen) (hlost : s.pullLost p = false)
    (hmark : ∀ e ∈ s.off.queue, e.state = .pulling p.n → e.failMark = false)
    (hnd : (s.off.queue.map ShipEntry.num).Nodup) :
    s.pullEnded p.n cause = { s with
      str.slots := s.str.slots.filter fun kv =>
        !(decide (kv.2.holder = .shipPull p.n) && decide (kv.2.state = .filling))
      off := { s.off with queue := unreceivedQueue p.n s.off.queue, pulls := [] } } := by
  obtain ⟨w, hw⟩ : ∃ w, w = s.freeSlotsIf fun x =>
      decide (x.holder = .shipPull p.n) && decide (x.state = .filling) := ⟨_, rfl⟩
  have hwoff : w.off = s.off := by rw [hw]; rfl
  have hwlost : w.pullLost p = false := by rw [hw]; exact hlost
  have hend : w.nightEnding = false := by
    unfold State.nightEnding
    rw [hwoff, hphase]
  have hfold := notReceived_fold hcause (w.off.queue.filter fun e => decide (e.state = .pulling p.n)) w hwlost
    (by
      rw [hwoff]
      exact fun e he => hmark e (List.mem_filter.mp he).1 (of_decide_eq_true (List.mem_filter.mp he).2))
  rw [fold_left (by rw [hwoff]; exact hnd)] at hfold
  have hkept : ({ w with off.queue := unreceivedQueue p.n w.off.queue } : State).pullLost p = false := hwlost
  have hfilter : (s.off.pulls.filter fun x => x.n != p.n) = [] := by
    rw [hpulls]
    simp
  unfold State.pullEnded
  rw [find_pull hpulls]
  dsimp only
  rw [← hw, hend, if_neg Bool.false_ne_true, hfold, hkept, if_neg Bool.false_ne_true, hwoff]
  unfold State.modOff
  dsimp only
  rw [hfilter, hw]
  rfl

theorem exec_pullAnswer {c : Instr} (hrun : s.sup.op ≠ .halted) (hup : (s.link l).up = true)
    (hc : c = .pullEnd l tag ∨ c = .pullFail l tag) : ∃ cause : PullCause, (cause = .ended ∨ cause = .failed) ∧
      Sys2Proof.Machine.exec c s = .next (((({ s with sent := [] } : State).modLink l fun r =>
        { r with up := true, badRun := 0 }).pullAnswer l tag cause).tryEndNight.finish) := by
  have harr := arrive_up (s := { s with sent := [] }) (l := l) hup
  rcases hc with rfl | rfl
  · refine ⟨.ended, .inl rfl, ?_⟩
    change execPullEnd l tag s [] = _
    unfold execPullEnd
    refine (act_running _ hrun).trans (congrArg Host.Outcome.next ?_)
    rw [harr]
    exact withErrs_nil _ hrun
  · refine ⟨.failed, .inr rfl, ?_⟩
    change execPullFail l tag s [] = _
    unfold execPullFail
    refine (act_running _ hrun).trans (congrArg Host.Outcome.next ?_)
    rw [harr]
    exact withErrs_nil _ hrun

/-- No night ends while the window is open. -/
theorem tryEndNight_open (h : s.off.phase = .windowOpen) : s.tryEndNight = s := by
  rw [tryEndNight_eq, if_neg]
  unfold State.nightIsOver State.nightEnding
  rw [h]
  exact Bool.false_ne_true

/-- What makes a version UNREPAIRABLE stands as references are counted. -/
theorem pullLost_moved (h : RefsMoved s t) (p : ShipPull) : t.pullLost p = s.pullLost p := by
  obtain ⟨g, hg, hv⟩ := h.version p.vol p.ext p.birth
  unfold State.pullLost
  rw [hv]
  cases (s.extent p.vol p.ext).version p.birth with
  | none => rfl
  | some v =>
    have hrep : (g v).repair = v.repair := by rw [(hg v).1]
    rw [Option.map_some]
    dsimp only
    rw [hrep]

theorem pullEnd_spec {c : Instr} {d : Directive} (hrun : s.sup.op ≠ .halted) (hcalm : s.calm)
    (hup : (s.link l).up = true) (hd : s.directive l tag = some d) (hkind : d.kind = .pull)
    (hissuer : d.issuer = .shipPull p.n) (hpulls : s.off.pulls = [p]) (hphase : s.off.phase = .windowOpen)
    (hlost : s.pullLost p = false) (hmark : ∀ e ∈ s.off.queue, e.state = .pulling p.n → e.failMark = false)
    (hnd : (s.off.queue.map ShipEntry.num).Nodup) (hplan : ∀ q ∈ s.off.plan, q.state ≠ .shed ∧ q.state ≠ .failed)
    (hc : c = .pullEnd l tag ∨ c = .pullFail l tag) :
    ∃ t, Sys2Proof.Machine.exec c s = .next t ∧ t.off.pulls = [] ∧
      (∀ x ∈ (t.link l).directives, x.tag ≠ tag) ∧
      (∀ kv ∈ t.str.slots, kv.2.holder = .shipPull p.n → kv.2.state ≠ .filling) ∧
      t.off.queue = s.off.queue.map fun e =>
        if e.state = .pulling p.n then { e with state := .unpulled, slot := none, failMark := true } else e := by
  obtain ⟨cause, hcause, hexec⟩ := exec_pullAnswer hrun hup hc
  obtain ⟨a, ha⟩ : ∃ a, a = ({ s with sent := [] } : State).modLink l fun r => { r with up := true, badRun := 0 } :=
    ⟨_, rfl⟩
  have hdtag : d.tag = tag := by
    have := List.find?_some (p := fun y : Directive => y.tag == tag) hd
    simpa using this
  have hmatch : a.matching l tag .pull = some d := by
    refine matching_of ?_ hkind
    rw [ha, directive_arrived]
    exact hd
  obtain ⟨hmoved, hnotag, -⟩ := directiveGone_spec a l d
  have hanswer : a.pullAnswer l tag cause = (a.directiveGone l d).pullEnded p.n cause := by
    unfold State.pullAnswer
    rw [hmatch]
    dsimp only
    unfold State.failDirective State.tellFailure
    rw [hissuer]
    rfl
  generalize a.directiveGone l d = b at hmoved hnotag hanswer
  have hboff : b.off = s.off := by rw [hmoved.off, ha]; rfl
  have hbstill : b.patrolStill := by
    unfold State.patrolStill
    rw [hmoved.pat, ha]
    exact hcalm.2
  have hbtally : b.tally = s.tally := by rw [hmoved.tally, ha]; rfl
  have hbpat : b.pat = s.pat := by rw [hmoved.pat, ha]; rfl
  have hbop : b.sup.op = s.sup.op := by rw [hmoved.sup, ha]; rfl
  have hblost : b.pullLost p = false := by
    rw [pullLost_moved hmoved, ha]
    exact hlost
  have hended := pullEnded_eq (s := b) hcause (by rw [hboff]; exact hpulls) (by rw [hboff]; exact hphase) hblost
    (by rw [hboff]; exact hmark) (by rw [hboff]; exact hnd)
  obtain ⟨y, hy⟩ : ∃ y, y = b.pullEnded p.n cause := ⟨_, rfl⟩
  rw [← hy] at hanswer hended
  have hyphase : y.off.phase = .windowOpen := by
    rw [hended]
    exact (congrArg Offsite.phase hboff : _).trans hphase
  have hycalm : y.calm :=
    calm_congr (by rw [hended]; exact hbtally) (by rw [hended]; exact hbpat) hcalm
  have hyrun : y.sup.op ≠ .halted := by rw [hended]; exact fun hno => hrun (hbop.symm.trans hno)
  obtain ⟨hlast, hslots, hqueue⟩ := finish_lasting hycalm.2 hyrun
  rw [hexec, ← ha, hanswer, tryEndNight_open hyphase]
  refine ⟨_, rfl, ?_, ?_, ?_, ?_⟩
  · refine (congrArg Offsite.pulls hlast : _).trans ?_
    change y.off.pulls = []
    rw [hended]
  · rw [finish_link hycalm hyrun]
    have hlink : y.link l = b.link l := State.link_congr (by rw [hended]) l
    rw [hlink, ← hdtag]
    exact hnotag
  · rw [hslots, hended]
    intro kv hkv hholder hfilling
    have hkept := (List.mem_filter.mp hkv).2
    rw [hholder, hfilling] at hkept
    simp at hkept
  · rw [hqueue, clearShed_queue]
    · rw [hended]
      change unreceivedQueue p.n b.off.queue = _
      rw [hboff]
      rfl
    · rw [hended]
      change ∀ q ∈ b.off.plan, _
      rw [hboff]
      exact hplan

end

end Sys2Proof.Machine

open Sys2Proof Sys2Proof.Machine

/-- Settles O47. -/
theorem pullsBringChunksToSlots : Obligations.PullsBringChunksToSlots := by
  refine ⟨fun s e p v i m loc hcalm hgo hship hrep hfetch hq hpulls hst hform hch hplan hps hv hloc hlen hm hfree
        hres =>
      pullRun_spec hcalm hgo hship hrep hfetch hq hpulls hst hform hch hplan hps hv hloc hlen hm hfree hres,
    fun s p q l v hcalm hgo hpulls hstage howner hplan hq hup hroom hwaits hd hv hloc =>
      pull_spec hcalm hgo hpulls hstage howner hplan hq hup hroom hwaits hd hv hloc,
    fun s l tag idx n data d p x e hop hcalm hup hd hkind hissuer hpulls hx hslot hst hlen hcode hq hes hch hphase hlost
        hcut hrep hfetch => ?_,
    fun s l tag idx data hrun hup hstill hlen => chunkDiscarded_spec hrun hup hstill hlen,
    fun s l tag d p c hrun hcalm hup hd hkind hissuer hpulls hphase hlost hmark hnd hplan hc =>
      pullEnd_spec hrun hcalm hup hd hkind hissuer hpulls hphase hlost hmark hnd hplan hc⟩
  exact chunkEqual_spec hop hcalm hup hd hkind hissuer hpulls hx hslot hst hlen hcode hq hes hch hphase hlost hcut hrep
    hfetch
end

section
/-! SUPPORT. What a step's end leaves of an offsite link that is not DOWN (R139, R143, R148). -/

namespace Sys2Proof.Machine

section
variable {s : State}

/-- The registers of the link's session that only an opening writes as a step ends. -/
def Offsite.counters (o : Offsite) : (Nat × Nat × List Nat × List (Nat × Nat)) × List Control × Nat × Nat :=
  ((o.seqCounter, o.reqCounter, o.withdrawnNums, o.withdrawnDrops), o.controls, o.ackStart, o.ackLimit)

/-- From one state to another, entries have moved into the Fetch Queue, and that is all. -/
structure RoomServed (s t : State) : Prop where
  frame : t = { s with off.fetchQueue := t.off.fetchQueue, off.roomWaits := t.off.roomWaits }
  stays : ∀ e ∈ s.off.fetchQueue, e ∈ t.off.fetchQueue

theorem RoomServed.trans {t u : State} (h : RoomServed s t) (k : RoomServed t u) : RoomServed s u := by
  refine ⟨?_, fun e he => k.stays e (h.stays e he)⟩
  have hframe := k.frame
  rw [h.frame] at hframe
  exact hframe

/-- Room served with the link not DOWN asks for no opening. -/
theorem serveRoomOnce_served (h : s.off.link ≠ .down) : RoomServed s s.serveRoomOnce := by
  unfold State.serveRoomOnce
  split
  · exact ⟨rfl, fun _ he => he⟩
  · split
    · unfold State.placeFetch State.askOpening
      rw [if_neg fun hno => h hno.2]
      exact ⟨rfl, fun e he => (mem_placeIn _).mpr (.inl he)⟩
    · exact ⟨rfl, fun _ he => he⟩

theorem serveRoom_served (h : s.off.link ≠ .down) : RoomServed s s.serveRoom := by
  refine iter_keeps (P := RoomServed s) (fun u hu => hu.trans (serveRoomOnce_served ?_)) _ ⟨rfl, fun _ he => he⟩
  rw [hu.frame]
  exact h

theorem chooseDir_counters (s : State) : s.chooseDir.off.counters = s.off.counters := by
  unfold State.chooseDir State.modOff
  dsimp only
  repeat' split
  all_goals rfl

theorem redirectOnce_counters (s : State) : s.redirectOnce.off.counters = s.off.counters := by
  unfold State.redirectOnce
  dsimp only
  repeat' split
  all_goals first
    | exact chooseDir_counters s
    | rfl

/-- A step ends with the settling of the link, from the same offsite side. -/
theorem finish_settleLink (hstill : s.patrolStill) (hrun : s.sup.op ≠ .halted) :
    ∃ v : State, v.off = s.off ∧ v.sup.elapsed = s.sup.elapsed ∧ s.finish = v.settleLink := by
  refine ⟨s.advance, congrArg (fun x => x.2.2.2.1) (othersKept_advance (ot := s.others) rfl), ?_,
    finish_patrolStill hstill hrun⟩
  obtain ⟨-, -, -, -, -, -, -, helapsed, -⟩ := supKept_advance (supKept_refl s.sup)
  exact helapsed

/-- The end of a step keeps the counters, the pending controls and the ack wait limit of a link that is not DOWN. -/
theorem finish_counters (hstill : s.patrolStill) (hrun : s.sup.op ≠ .halted) (h : s.off.link ≠ .down) :
    s.finish.off.counters = s.off.counters := by
  obtain ⟨v, hv, -, hfinish⟩ := finish_settleLink hstill hrun
  have hserved := (serveRoom_served (s := v.clearShed) (by rw [← hv] at h; exact h)).frame
  have hroom : v.clearShed.serveRoom.off.counters = s.off.counters := by
    rw [hserved, ← hv]
    rfl
  rw [hfinish]
  exact iter_keeps (P := fun u => u.off.counters = s.off.counters)
    (fun u hu => (redirectOnce_counters u).trans hu) 3 hroom

/-- A ship turn of sixteen frames is over: the direction drains to FETCH where fetch work waits (R149). -/
theorem redirect_turnOver {n : Nat} (hup : s.off.link = .up) (hdir : s.off.dir = .ship)
    (hturn : s.off.shipTurn = some n) (hn : 16 ≤ n) (hfetch : s.off.fetchQueue ≠ []) (hout : s.off.outstanding ≠ []) :
    s.redirect.off.dir = .draining .toFetch := by
  have hwork : s.fetchWork = true := by
    unfold State.fetchWork
    simpa using hfetch
  obtain ⟨w, hw⟩ : ∃ w, w = s.modOff fun o => { o with shipTurn := none, dir := .draining .toFetch } := ⟨_, rfl⟩
  have honce : s.redirectOnce = w := by
    unfold State.redirectOnce
    rw [if_neg (by rw [hup]; exact fun h => h rfl), hdir]
    dsimp only
    rw [hturn]
    dsimp only
    rw [if_pos (.inl hn), hwork, if_pos rfl, hw]
  have hdrains : w.redirectOnce = w := by
    have hwup : w.off.link = .up := by rw [hw]; exact hup
    have hwdir : w.off.dir = .draining .toFetch := by rw [hw]; rfl
    have hwout : w.off.outstanding.isEmpty = false := by
      rw [hw]
      simpa [State.modOff] using hout
    unfold State.redirectOnce
    rw [if_neg (by rw [hwup]; exact fun h => h rfl), hwdir]
    dsimp only
    rw [hwout, if_neg Bool.false_ne_true]
  have hiter : s.redirect = iter 2 State.redirectOnce s.redirectOnce := rfl
  rw [hiter, honce, iter_fixed hdrains, hw]
  rfl

theorem finish_turnOver {n : Nat} (hstill : s.patrolStill) (hrun : s.sup.op ≠ .halted) (hup : s.off.link = .up)
    (hdir : s.off.dir = .ship) (hturn : s.off.shipTurn = some n) (hn : 16 ≤ n) (hfetch : s.off.fetchQueue ≠ [])
    (hout : s.off.outstanding ≠ []) : s.finish.off.dir = .draining .toFetch := by
  obtain ⟨v, hv, -, hfinish⟩ := finish_settleLink hstill hrun
  rw [← hv] at hup hdir hturn hfetch hout
  have hserved := serveRoom_served (s := v.clearShed) (fun hno => nomatch hup.symm.trans hno)
  have hframe := hserved.frame
  rw [hfinish]
  change v.clearShed.serveRoom.redirect.off.dir = _
  obtain ⟨e, he⟩ := List.exists_mem_of_ne_nil _ hfetch
  refine redirect_turnOver (n := n) ?_ ?_ ?_ hn (List.ne_nil_of_mem (hserved.stays e he)) ?_ <;> rw [hframe]
  · exact hup
  · exact hdir
  · exact hturn
  · exact hout

/-! ### Numbers -/

/-- With no number withdrawn the next one is the counter's (R143). -/
theorem nextSeq_none (h : s.off.withdrawnNums = []) : s.nextSeq = s.off.seqCounter := by
  unfold State.nextSeq
  rw [h]
  rfl

theorem vacantReady_none (h : ∀ f ∈ s.off.outstanding, f.vacant = false) : s.vacantReady = none := by
  refine List.findSome?_eq_none_iff.mpr fun f hf => ?_
  split
  · split
    · exact if_neg fun hno => by rw [h f hf] at hno; cases hno.1
    · rfl
  · rfl

/-- A frame that joins the list is its last, and its number is used (R143). -/
theorem joinShip_spec (b : FrameBody) (vacant : Bool) : (s.joinShip b vacant).off.outstanding = s.off.outstanding ++
      [{ num := s.nextSeq, body := b, received := false, naks := 0, vacant := vacant }] ∧
    (s.joinShip b vacant).off.seqCounter = (s.nextSeq + 1) % 65536 ∧
    (s.joinShip b vacant).off.shipTurn = s.off.shipTurn.map (· + 1) ∧
    (s.joinShip b vacant).off.queue = s.off.queue ∧ (s.joinShip b vacant).off.link = s.off.link ∧
    (s.joinShip b vacant).off.dir = s.off.dir ∧ (s.joinShip b vacant).off.fetchQueue = s.off.fetchQueue ∧
    (s.joinShip b vacant).off.controls = s.off.controls ∧ (s.joinShip b vacant).off.plan = s.off.plan ∧
    (s.joinShip b vacant).str = s.str ∧ (s.joinShip b vacant).pat = s.pat ∧ (s.joinShip b vacant).sup = s.sup ∧
    (s.joinShip b vacant).tally = s.tally ∧ (s.joinShip b vacant).sent = s.sent := by
  unfold State.joinShip State.joinList
  dsimp only
  split <;> exact ⟨rfl, rfl, rfl, rfl, rfl, rfl, rfl, rfl, rfl, rfl, rfl, rfl, rfl, rfl⟩

end

end Sys2Proof.Machine
end

section
/-! PROOF. SHIP, VOLUME_DONE and DROP frames transmitted (R130, R131, R143, R149, R153). -/

namespace Sys2Proof.Machine

section
variable {s : State} {e : ShipEntry} {p : PlanVol} {n : Nat}

/-! ### Entries sent -/

/-- The bytes a SHIP frame carries: those of its entry's slot. -/
def State.entryData (s : State) (e : ShipEntry) : List Byte :=
  match e.slot.bind s.slot with
  | some x => x.data
  | none => []

theorem shipFrame_eq (s : State) (num t b : Nat) (e : ShipEntry) :
    s.shipFrame num t b e = .ship num e.vol t b e.ext e.birth e.form e.chunks e.code (s.entryData e) := by
  unfold State.shipFrame State.entryData
  cases e.slot with
  | none => rfl
  | some k => cases hk : s.slot k <;> simp [hk]

theorem shipMay_iff : s.shipMay = true ↔ s.off.link = .up ∧ s.off.dir = .ship ∧ s.fetchesOut = 0 ∧
    s.off.outstanding.length < 16 := by
  unfold State.shipMay State.linkUp Config.outstandingSize
  simp only [Bool.and_eq_true, decide_eq_true_eq, and_assoc]

/-- What an entry's slot and state become as its frame is sent (R111, R130): nothing else changes. -/
theorem sent_spec (s : State) (e : ShipEntry) (num : Nat) :
    ((s.sendSlot e num).modEntry e.num fun x => { x with state := .outstanding }) =
      { s with
        str.slots := (s.sendSlot e num).str.slots
        off.queue := mapIf (fun x => x.num == e.num) (fun x => { x with state := .outstanding }) s.off.queue } := by
  unfold State.sendSlot
  split <;> rfl

theorem sendSlot_slot {k : Nat} {x : Slot} (num : Nat) (hk : e.slot = some k) (hx : s.slot k = some x) :
    (s.sendSlot e num).slot k = some { x with state := .sending, seq := some num } := by
  unfold State.sendSlot
  rw [hk]
  dsimp only
  rw [State.slot_modSlot, hx]
  rfl

theorem unreadable_nil (e : ShipEntry) : e.unreadable [] = false := by
  unfold ShipEntry.unreadable
  split <;> rfl

theorem targetBase_of (h : s.planOf e.vol = some p) : s.targetBase e.vol = (p.target, p.base) := by
  unfold State.targetBase
  rw [h]

/-- The state in which an entry's frame has joined the list, its entry and slot not yet changed (R143). -/
def State.entryJoined (s : State) (e : ShipEntry) (p : PlanVol) : State :=
  (s.send (.offsite (s.shipFrame s.nextSeq p.target p.base e))).joinShip
    (.ship e.num e.vol e.ext e.birth p.target p.base e.chunks) false

theorem shipEntry_eq (h : s.planOf e.vol = some p) : s.shipEntry e [] =
    ((s.entryJoined e p).sendSlot e s.nextSeq).modEntry e.num fun x => { x with state := .outstanding } := by
  unfold State.shipEntry
  rw [targetBase_of h, unreadable_nil]
  rfl

theorem exec_ship (hrun : s.sup.op ≠ .halted) : Sys2Proof.Machine.exec (.ship []) s =
    .next (({ s with sent := [] } : State).shipNext []).finish := by
  change execShip [] s = _
  unfold execShip
  exact act_withErrs_nil _ hrun

/-- With the window open, the link UP in SHIP, no vacant frame and no control waiting, the first READY entry goes. -/
theorem shipNext_entry {rest : List ShipEntry} (hphase : s.off.phase = .windowOpen) (hmay : s.shipMay = true)
    (hctl : s.off.controls = []) (hvacant : ∀ f ∈ s.off.outstanding, f.vacant = false)
    (hq : s.off.queue = e :: rest) (hst : e.state = .ready) : s.shipNext [] = s.shipEntry e [] := by
  obtain ⟨hup, hdir, -, -⟩ := shipMay_iff.mp hmay
  have hopen : s.windowIsOpen = true := decide_eq_true hphase
  have hlink : s.linkUp = true := decide_eq_true hup
  have hfind : (s.off.queue.find? fun e => decide (e.state = .ready)) = some e := by
    rw [hq, List.find?_cons_of_pos]
    exact decide_eq_true hst
  unfold State.shipNext
  rw [if_neg (by rw [hopen, hlink, hdir]; rintro (h | h | h) <;> simp at h), vacantReady_none hvacant]
  dsimp only
  rw [if_neg (by rw [hmay, hctl]; rintro (h | h) <;> simp at h), hfind]

theorem ship_spec {rest : List ShipEntry} (hrun : s.sup.op ≠ .halted) (hcalm : s.calm)
    (hphase : s.off.phase = .windowOpen) (hmay : s.shipMay = true) (hctl : s.off.controls = [])
    (hnums : s.off.withdrawnNums = []) (hvacant : ∀ f ∈ s.off.outstanding, f.vacant = false)
    (hq : s.off.queue = e :: rest) (hst : e.state = .ready) (hplan : s.planOf e.vol = some p) :
    ∃ t f, Sys2Proof.Machine.exec (.ship []) s = .next t ∧ t.off.outstanding = s.off.outstanding ++ [f] ∧
      f.num = s.off.seqCounter ∧ f.body = .ship e.num e.vol e.ext e.birth p.target p.base e.chunks ∧
      f.received = false ∧ f.naks = 0 ∧ f.vacant = false ∧
      t.off.seqCounter = (s.off.seqCounter + 1) % 65536 ∧
      Output.offsite (.ship s.off.seqCounter e.vol p.target p.base e.ext e.birth e.form e.chunks e.code
        (s.entryData e)) ∈ t.sent ∧
      { e with state := .outstanding } ∈ t.off.queue ∧
      (∀ n x, e.slot = some n → s.slot n = some x →
        t.slot n = some { x with state := .sending, seq := some s.off.seqCounter }) ∧
      ∀ k, s.off.shipTurn = some k → 15 ≤ k → s.off.fetchQueue ≠ [] → t.off.dir = .draining .toFetch := by
  let a : State := { s with sent := [] }
  have hmay' : a.shipMay = true := hmay
  have hnext : a.shipNext [] = a.shipEntry e [] := shipNext_entry (s := a) hphase hmay' hctl hvacant hq hst
  have hseq : a.nextSeq = s.off.seqCounter := nextSeq_none (s := a) hnums
  obtain ⟨jout, jseq, jturn, jqueue, jlink, jdir, jfetch, -, -, jstr, jpat, jsup, jtally, jsent⟩ :=
    joinShip_spec (s := a.send (.offsite (a.shipFrame a.nextSeq p.target p.base e)))
      (.ship e.num e.vol e.ext e.birth p.target p.base e.chunks) false
  have hsends : (a.send (.offsite (a.shipFrame a.nextSeq p.target p.base e))).nextSeq = s.off.seqCounter := hseq
  rw [hsends] at jout jseq
  have hentry := shipEntry_eq (s := a) (e := e) hplan
  have hjoined : a.entryJoined e p = (a.send (.offsite (a.shipFrame a.nextSeq p.target p.base e))).joinShip
    (.ship e.num e.vol e.ext e.birth p.target p.base e.chunks) false := rfl
  rw [← hjoined] at jout jseq jturn jqueue jlink jdir jfetch jstr jpat jsup jtally jsent
  generalize a.entryJoined e p = j at hentry jout jseq jturn jqueue jlink jdir jfetch jstr jpat jsup jtally jsent
  rw [hseq, sent_spec] at hentry
  obtain ⟨w, hw⟩ : ∃ w, w = a.shipEntry e [] := ⟨_, rfl⟩
  rw [← hw] at hentry hnext
  obtain ⟨hup, hdir, -, -⟩ := shipMay_iff.mp hmay
  have hwpat : w.patrolStill := by
    unfold State.patrolStill
    rw [hentry]
    change j.patrolStill
    unfold State.patrolStill
    rw [jpat]
    exact hcalm.2
  have hwrun : w.sup.op ≠ .halted := by
    rw [hentry]
    exact fun hno => hrun ((congrArg Supervisor.op jsup).symm.trans hno)
  have hwlink : w.off.link = .up := by
    rw [hentry]
    exact jlink.trans hup
  have hwout : w.off.outstanding = s.off.outstanding ++ [{
      num := s.off.seqCounter, body := .ship e.num e.vol e.ext e.birth p.target p.base e.chunks, received := false
      naks := 0, vacant := false }] := by
    rw [hentry]
    exact jout
  obtain ⟨hlast, -, hqueue⟩ := finish_lasting hwpat hwrun
  have hcounters := finish_counters hwpat hwrun (by rw [hwlink]; nofun)
  refine ⟨w.finish, { num := s.off.seqCounter, body := .ship e.num e.vol e.ext e.birth p.target p.base e.chunks
                      received := false, naks := 0, vacant := false }, ?_, ?_, rfl, rfl, rfl, rfl, rfl, ?_, ?_, ?_,
    fun k x hk hx => ?_, fun k hk h15 hfetch => ?_⟩
  · rw [exec_ship hrun, hnext]
  · exact (congrArg Offsite.outstanding hlast : _).trans hwout
  · refine (congrArg (fun c => c.1.1) hcounters : _).trans ?_
    change w.off.seqCounter = _
    rw [hentry]
    exact jseq
  · refine mem_sent_finish ?_
    rw [hentry]
    change _ ∈ j.sent
    rw [jsent, hseq]
    refine List.mem_append_right _ (List.mem_singleton.mpr ?_)
    rw [shipFrame_eq]
    rfl
  · rw [hqueue]
    refine mem_clearShed ?_ (by nofun) (by nofun)
    rw [hentry]
    refine List.mem_map.mpr ⟨e, ?_, if_pos (beq_self_eq_true e.num)⟩
    rw [jqueue]
    change e ∈ s.off.queue
    rw [hq]
    exact List.mem_cons_self
  · rw [finish_slots hwpat hwrun, hentry]
    refine sendSlot_slot (s := j) s.off.seqCounter hk ?_
    unfold State.slot at hx ⊢
    rw [jstr]
    exact hx
  · refine finish_turnOver (n := k + 1) hwpat hwrun hwlink ?_ ?_ (by omega) ?_ ?_
    · rw [hentry]
      exact jdir.trans hdir
    · rw [hentry]
      change j.off.shipTurn = _
      rw [jturn]
      change s.off.shipTurn.map (· + 1) = _
      rw [hk]
      rfl
    · rw [hentry]
      change j.off.fetchQueue ≠ []
      rw [jfetch]
      exact hfetch
    · rw [hwout]
      simp

/-! ### A vacant frame filled -/

theorem vacantReady_first {f : OutFrame} {fs rest : List OutFrame} {target base : Nat}
    (hout : s.off.outstanding = fs ++ f :: rest) (hfs : ∀ g ∈ fs, g.vacant = false) (hf : f.vacant = true)
    (hbody : f.body = .ship e.num e.vol e.ext e.birth target base e.chunks) (he : s.entry e.num = some e)
    (hst : e.state = .ready) : s.vacantReady = some (f, e) := by
  have hbefore : (fs.findSome? fun f => match f.body with
      | .ship num _ _ _ _ _ _ =>
        (match s.entry num with
         | some e => if f.vacant = true ∧ e.state = .ready then some (f, e) else none
         | none => none)
      | _ => none) = none := by
    refine List.findSome?_eq_none_iff.mpr fun g hg => ?_
    split
    · split
      · exact if_neg fun hno => by rw [hfs g hg] at hno; cases hno.1
      · rfl
    · rfl
  unfold State.vacantReady
  rw [hout, List.findSome?_append]
  refine (congrArg (fun x => Option.or x _) hbefore).trans ?_
  rw [Option.none_or, List.findSome?_cons, hbody]
  dsimp only
  rw [he]
  dsimp only
  rw [if_pos ⟨hf, hst⟩]

/-- Of frames that are all different one alone is changed. -/
theorem mapIf_frame {f : OutFrame} {fs rest : List OutFrame} (hnd : (fs ++ f :: rest).Nodup) (g : OutFrame → OutFrame) :
    mapIf (fun x => decide (x = f)) g (fs ++ f :: rest) = fs ++ g f :: rest := by
  have hmid := List.nodup_middle.mp hnd
  obtain ⟨hnot, -⟩ := List.nodup_cons.mp hmid
  have hsame (xs : List OutFrame) (h : ∀ x ∈ xs, x ≠ f) :
      (xs.map fun x => if decide (x = f) = true then g x else x) = xs := by
    refine (List.map_congr_left fun x hx => ?_).trans (List.map_id xs)
    rw [decide_eq_false (h x hx), if_neg Bool.false_ne_true]
    rfl
  unfold mapIf
  rw [List.map_append, List.map_cons, hsame fs fun x hx hno => hnot (hno ▸ List.mem_append_left _ hx),
    hsame rest fun x hx hno => hnot (hno ▸ List.mem_append_right _ hx), if_pos (decide_eq_true rfl)]

theorem fillVacant_spec {f : OutFrame} {fs rest : List OutFrame} {target base : Nat} (hrun : s.sup.op ≠ .halted)
    (hcalm : s.calm) (hphase : s.off.phase = .windowOpen) (hup : s.off.link = .up) (hdir : s.off.dir = .ship)
    (hout : s.off.outstanding = fs ++ f :: rest) (hnd : s.off.outstanding.Nodup) (hfs : ∀ g ∈ fs, g.vacant = false)
    (hf : f.vacant = true) (hbody : f.body = .ship e.num e.vol e.ext e.birth target base e.chunks)
    (he : s.entry e.num = some e) (hst : e.state = .ready) (hplan : s.planOf e.vol = some p) :
    ∃ t, Sys2Proof.Machine.exec (.ship []) s = .next t ∧
      t.off.outstanding = fs ++ { f with vacant := false } :: rest ∧ t.off.seqCounter = s.off.seqCounter ∧
      Output.offsite (.ship f.num e.vol p.target p.base e.ext e.birth e.form e.chunks e.code (s.entryData e)) ∈ t.sent ∧
      { e with state := .outstanding } ∈ t.off.queue := by
  let a : State := { s with sent := [] }
  have hready : a.vacantReady = some (f, e) := vacantReady_first (s := a) hout hfs hf hbody he hst
  obtain ⟨j, hj⟩ : ∃ j, j = (a.send (.offsite (a.shipFrame f.num p.target p.base e))).modOff fun o =>
      { o with outstanding := mapIf (fun x => decide (x = f)) (fun x => { x with vacant := false }) o.outstanding } :=
    ⟨_, rfl⟩
  have hnext : a.shipNext [] = (j.sendSlot e f.num).modEntry e.num fun x => { x with state := .outstanding } := by
    have hopen : a.windowIsOpen = true := decide_eq_true hphase
    have hlink : a.linkUp = true := decide_eq_true hup
    have hdir' : a.off.dir = .ship := hdir
    unfold State.shipNext
    rw [if_neg (by rw [hopen, hlink, hdir']; rintro (h | h | h) <;> simp at h), hready]
    dsimp only
    unfold State.fillVacant
    rw [unreadable_nil, if_neg Bool.false_ne_true, targetBase_of (s := a) hplan, hj]
  rw [sent_spec] at hnext
  obtain ⟨w, hw⟩ : ∃ w, w = a.shipNext [] := ⟨_, rfl⟩
  rw [← hw] at hnext
  have hwpat : w.patrolStill := by rw [hnext, hj]; exact hcalm.2
  have hwrun : w.sup.op ≠ .halted := by rw [hnext, hj]; exact hrun
  have hwlink : w.off.link ≠ .down := by
    rw [hnext, hj]
    change s.off.link ≠ .down
    rw [hup]
    nofun
  obtain ⟨hlast, -, hqueue⟩ := finish_lasting hwpat hwrun
  have hcounters := finish_counters hwpat hwrun hwlink
  refine ⟨w.finish, ?_, ?_, ?_, ?_, ?_⟩
  · rw [exec_ship hrun, hw]
  · refine (congrArg Offsite.outstanding hlast : _).trans ?_
    change w.off.outstanding = _
    rw [hnext, hj]
    change mapIf (fun x => decide (x = f)) (fun x => { x with vacant := false }) s.off.outstanding = _
    rw [hout] at hnd ⊢
    exact mapIf_frame hnd _
  · refine (congrArg (fun c => c.1.1) hcounters : _).trans ?_
    change w.off.seqCounter = _
    rw [hnext, hj]
    rfl
  · refine mem_sent_finish ?_
    rw [hnext, hj]
    refine List.mem_append_right _ (List.mem_singleton.mpr ?_)
    rw [shipFrame_eq]
    rfl
  · rw [hqueue]
    refine mem_clearShed ?_ (by nofun) (by nofun)
    rw [hnext, hj]
    exact List.mem_map.mpr ⟨e, List.mem_of_find?_eq_some he, if_pos (beq_self_eq_true e.num)⟩

/-! ### Controls -/

/-- The frame of a control under a number (Table 8-3). -/
def Control.frame (num : Nat) : Control → OffFrame
  | .volumeDone v t b k => .volumeDone num v t b k
  | .drop v g => .drop num v g

theorem sendControl_eq (s : State) (c : Control) : s.sendControl c =
    (s.send (.offsite (c.frame s.nextSeq))).joinShip (.control c) false := by
  cases c <;> rfl

/-- A pending control that may be transmitted goes, and joins the list under the next number (R143). -/
theorem sendHead_spec {c : Control} {rest : List Control} (hctl : s.off.controls = c :: rest) (hmay : s.shipMay = true)
    (hnums : s.off.withdrawnNums = []) (hvacant : ∀ f ∈ s.off.outstanding, f.vacant = false) :
    ∃ w, s.sendHead = w ∧ .offsite (c.frame s.off.seqCounter) ∈ w.sent ∧
      w.off.outstanding = s.off.outstanding ++
        [{ num := s.off.seqCounter, body := .control c, received := false, naks := 0, vacant := false }] ∧
      w.off.controls = rest ∧ w.off.plan = s.off.plan ∧ w.off.link = s.off.link ∧ w.pat = s.pat ∧ w.sup = s.sup := by
  obtain ⟨b, hb⟩ : ∃ b, b = s.modOff fun o => { o with controls := rest } := ⟨_, rfl⟩
  have hsend : s.sendHead = b.sendControl c := by
    unfold State.sendHead
    rw [hctl, hmay, vacantReady_none hvacant, hb]
    rfl
  have hseq : b.nextSeq = s.off.seqCounter := by
    rw [hb]
    exact nextSeq_none (s := s.modOff fun o => { o with controls := rest }) hnums
  obtain ⟨jout, -, -, -, jlink, -, -, jctl, jplan, -, jpat, jsup, -, jsent⟩ :=
    joinShip_spec (s := b.send (.offsite (c.frame s.off.seqCounter))) (.control c) false
  have hseq' : (b.send (.offsite (c.frame s.off.seqCounter))).nextSeq = s.off.seqCounter := hseq
  rw [hseq'] at jout
  refine ⟨_, hsend.trans ((sendControl_eq b c).trans (by rw [hseq])), ?_, ?_, ?_, ?_, ?_, ?_, ?_⟩
  · rw [jsent]
    exact List.mem_append_right _ (List.mem_singleton.mpr rfl)
  · rw [jout, hb]
    rfl
  · rw [jctl, hb]
    rfl
  · rw [jplan, hb]
    rfl
  · rw [jlink, hb]
    rfl
  · rw [jpat, hb]
    rfl
  · rw [jsup, hb]
    rfl

theorem drop_spec {vol gen : Nat} {rest : List Control} (hrun : s.sup.op ≠ .halted) (hcalm : s.calm)
    (hmay : s.shipMay = true) (hctl : s.off.controls = .drop vol gen :: rest) (hnums : s.off.withdrawnNums = [])
    (hvacant : ∀ f ∈ s.off.outstanding, f.vacant = false) :
    ∃ t f, Sys2Proof.Machine.exec .drop s = .next t ∧ t.off.outstanding = s.off.outstanding ++ [f] ∧
      f.num = s.off.seqCounter ∧ f.body = .control (.drop vol gen) ∧ t.off.controls = rest ∧
      Output.offsite (.drop s.off.seqCounter vol gen) ∈ t.sent := by
  let a : State := { s with sent := [] }
  have hmay' : a.shipMay = true := hmay
  obtain ⟨w, hsend, hsent, hout, hrest, -, hlink, hpat, hsup⟩ := sendHead_spec (s := a) hctl hmay' hnums hvacant
  have hexec : Sys2Proof.Machine.exec .drop s = .next w.finish := by
    change execDrop s [] = _
    unfold execDrop
    rw [act_withErrs_nil _ hrun]
    have hahead : a.dropAhead = true := by
      unfold State.dropAhead
      rw [show a.off.controls = .drop vol gen :: rest from hctl]
    refine congrArg (fun u : State => Host.Outcome.next u.finish) ?_
    exact (if_pos hahead).trans hsend
  have hwpat : w.patrolStill := by
    unfold State.patrolStill
    rw [hpat]
    exact hcalm.2
  have hwrun : w.sup.op ≠ .halted := by rw [hsup]; exact hrun
  have hwlink : w.off.link ≠ .down := by
    rw [hlink]
    change s.off.link ≠ .down
    rw [(shipMay_iff.mp hmay).1]
    nofun
  have hlast := (finish_lasting hwpat hwrun).1
  have hcounters := finish_counters hwpat hwrun hwlink
  refine ⟨w.finish, _, hexec, (congrArg Offsite.outstanding hlast : _).trans hout, rfl, rfl, ?_, ?_⟩
  · exact (congrArg (fun c => c.2.1) hcounters : _).trans hrest
  · exact mem_sent_finish hsent

/-! ### A volume done -/

/-- From one state to another, the direction has become SHIP. -/
def ShipTaken (s t : State) : Prop :=
  t = { s with off.dir := .ship, off.sawShip := t.off.sawShip, off.shipTurn := t.off.shipTurn }

/-- While a control waits and no fetch work does, the direction is SHIP (R148). -/
theorem redirectOnce_ship {u : State} (hup : s.off.link = .up) (hctl : s.off.controls ≠ [])
    (hfetch : s.off.fetchQueue = []) (hu : ShipTaken s u) : ShipTaken s u.redirectOnce := by
  have hulink : u.off.link = .up := by rw [hu]; exact hup
  have hudir : u.off.dir = .ship := by rw [hu]
  have hufetch : u.fetchWork = false := by
    have hq : u.off.fetchQueue = [] := by rw [hu]; exact hfetch
    unfold State.fetchWork
    rw [hq]
    rfl
  have huship : u.shipWork = true := by
    have hc : u.off.controls ≠ [] := by rw [hu]; exact hctl
    unfold State.shipWork
    simp [hc]
  unfold State.redirectOnce
  rw [if_neg (by rw [hulink]; exact fun h => h rfl), hudir]
  dsimp only
  rw [hufetch, huship]
  split
  · split
    · rw [if_neg Bool.false_ne_true]
      rw [hu]
      rfl
    · rw [Bool.not_true, Bool.and_false, Bool.false_and, if_neg Bool.false_ne_true]
      exact hu
  · rw [if_neg Bool.false_ne_true, Bool.not_true, Bool.and_false, if_neg Bool.false_ne_true]
    exact hu

theorem redirect_ship (hup : s.off.link = .up) (hdir : s.off.dir = .idle) (hout : s.off.outstanding = [])
    (hctl : s.off.controls ≠ []) (hfetch : s.off.fetchQueue = []) : ShipTaken s s.redirect := by
  have hfirst : ShipTaken s s.redirectOnce := by
    have hwork : s.fetchWork = false := by
      unfold State.fetchWork
      rw [hfetch]
      rfl
    have hship : s.shipWork = true := by
      unfold State.shipWork
      simp [hctl]
    unfold State.redirectOnce
    rw [if_neg (by rw [hup]; exact fun h => h rfl), hdir]
    dsimp only
    rw [hout, show ([] : List OutFrame).isEmpty = true from rfl, if_pos rfl]
    unfold State.chooseDir State.modOff
    rw [hwork, hship]
    exact rfl
  exact redirectOnce_ship hup hctl hfetch (redirectOnce_ship hup hctl hfetch hfirst)

theorem finishVolume_single {v : Volume} (hphase : s.off.phase = .windowOpen) (hplan : s.off.plan = [p])
    (hst : p.state = .shipping) (hv : s.volume p.vol = some v) (h1 : v.count ≤ p.countCursor)
    (h2 : v.count ≤ v.shipCursor) (hq : s.off.queue = []) (hpulls : s.off.pulls = []) :
    s.finishVolume = (s.modPlan p.vol fun q => { q with state := .awaitingDone }).modOff fun o =>
      { o with controls := o.controls ++ [.volumeDone p.vol p.target p.base p.acked] } := by
  have hopen : s.windowIsOpen = true := decide_eq_true hphase
  have hdone : s.isDone p = true := by
    unfold State.isDone
    rw [hv, hq, hpulls]
    dsimp only
    rw [decide_eq_true hst, decide_eq_true h1, decide_eq_true h2]
    rfl
  have hfind : (sortBy s.planBefore s.off.plan).find? s.isDone = some p := by
    rw [hplan]
    change List.find? s.isDone [p] = some p
    rw [List.find?_cons_of_pos hdone]
  unfold State.finishVolume
  rw [hfind]
  dsimp only
  rw [hopen, if_pos rfl]

theorem volumeDone_spec {v : Volume} (hrun : s.sup.op ≠ .halted) (hcalm : s.calm) (hphase : s.off.phase = .windowOpen)
    (hplan : s.off.plan = [p]) (hst : p.state = .shipping) (hv : s.volume p.vol = some v)
    (h1 : v.count ≤ p.countCursor) (h2 : v.count ≤ v.shipCursor) (hq : s.off.queue = []) (hpulls : s.off.pulls = [])
    (hctl : s.off.controls = []) (hfetch : s.off.fetchQueue = []) (hup : s.off.link = .up) (hdir : s.off.dir = .idle)
    (hout : s.off.outstanding = []) (hnums : s.off.withdrawnNums = []) :
    ∃ t f, Sys2Proof.Machine.exec .volumeDone s = .next t ∧ t.off.plan = [{ p with state := .awaitingDone }] ∧
      t.off.outstanding = [f] ∧ f.num = s.off.seqCounter ∧
      f.body = .control (.volumeDone p.vol p.target p.base p.acked) ∧
      Output.offsite (.volumeDone s.off.seqCounter p.vol p.target p.base p.acked) ∈ t.sent := by
  let a : State := { s with sent := [] }
  obtain ⟨b, hb⟩ : ∃ b, b = a.finishVolume := ⟨_, rfl⟩
  have hbeq := hb.trans (finishVolume_single (s := a) hphase hplan hst hv h1 h2 hq hpulls)
  have hbctl : b.off.controls = [.volumeDone p.vol p.target p.base p.acked] := by
    rw [hbeq]
    change s.off.controls ++ _ = _
    rw [hctl]
    rfl
  have hbplan : b.off.plan = [{ p with state := .awaitingDone }] := by
    rw [hbeq]
    change mapIf (fun q => q.vol == p.vol) (fun q => { q with state := .awaitingDone }) s.off.plan = _
    rw [hplan]
    simp [mapIf]
  have hbout : b.off.outstanding = [] := by rw [hbeq]; exact hout
  have hbfetch : b.off.fetchQueue = [] := by rw [hbeq]; exact hfetch
  have hbup : b.off.link = .up := by rw [hbeq]; exact hup
  have hbnums : b.off.withdrawnNums = [] := by rw [hbeq]; exact hnums
  have hbseq : b.off.seqCounter = s.off.seqCounter := by rw [hbeq]; rfl
  have hbpat : b.pat = s.pat := by rw [hbeq]; rfl
  have hbop : b.sup.op = s.sup.op := by rw [hbeq]; rfl
  have hmoved := redirect_ship hbup (by rw [hbeq]; exact hdir) hbout (by rw [hbctl]; nofun) hbfetch
  generalize hc : b.redirect = c at hmoved
  have hcctl : c.off.controls = [.volumeDone p.vol p.target p.base p.acked] := by rw [hmoved]; exact hbctl
  have hcout : c.off.outstanding = [] := by rw [hmoved]; exact hbout
  have hmay : c.shipMay = true := by
    refine shipMay_iff.mpr ⟨by rw [hmoved]; exact hbup, by rw [hmoved], ?_, ?_⟩
    · unfold State.fetchesOut
      rw [hcout]
      rfl
    · rw [hcout]
      exact Nat.succ_pos 15
  obtain ⟨w, hsend, hsent, hwout, -, hwplan, -, hwpat, hwsup⟩ := sendHead_spec hcctl hmay (by rw [hmoved]; exact hbnums)
    (by rw [hcout]; nofun)
  have hcseq : c.off.seqCounter = s.off.seqCounter := by rw [hmoved]; exact hbseq
  rw [hcseq] at hsent hwout
  have hexec : Sys2Proof.Machine.exec .volumeDone s = .next w.finish := by
    change execVolumeDone s [] = _
    unfold execVolumeDone
    rw [act_withErrs_nil _ hrun]
    refine congrArg (fun u : State => Host.Outcome.next u.finish) ?_
    have hahead : c.doneAhead = true := by
      unfold State.doneAhead
      rw [hcctl]
    change (if a.finishVolume.redirect.doneAhead then a.finishVolume.redirect.sendHead else a.finishVolume.redirect) = w
    rw [← hb, hc, hahead]
    exact hsend
  have hwstill : w.patrolStill := by
    unfold State.patrolStill
    rw [hwpat, hmoved]
    change b.patrolStill
    unfold State.patrolStill
    rw [hbpat]
    exact hcalm.2
  have hwrun : w.sup.op ≠ .halted := by
    rw [hwsup, hmoved]
    exact fun hno => hrun (hbop.symm.trans hno)
  have hlast := (finish_lasting hwstill hwrun).1
  refine ⟨w.finish, { num := s.off.seqCounter, body := .control (.volumeDone p.vol p.target p.base p.acked)
                      received := false, naks := 0, vacant := false }, hexec, ?_,
    (congrArg Offsite.outstanding hlast : _).trans (hwout.trans ?_), rfl, rfl, ?_⟩
  · refine (plan_of_lasting hlast).trans (hwplan.trans ?_)
    rw [hmoved]
    exact hbplan
  · rw [hcout]
    rfl
  · exact mem_sent_finish hsent

end

end Sys2Proof.Machine

open Sys2Proof Sys2Proof.Machine

/-- Settles O48. -/
theorem shipFramesJoinTheList : Obligations.ShipFramesJoinTheList := by
  refine ⟨fun s e rest p hrun hcalm hphase hmay hctl hnums hvacant hq hst hplan =>
      ship_spec hrun hcalm hphase hmay hctl hnums hvacant hq hst hplan,
    fun s f fs rest e p target base hrun hcalm hphase hup hdir hout hnd hfs hf hbody he hst hplan =>
      fillVacant_spec hrun hcalm hphase hup hdir hout hnd hfs hf hbody he hst hplan,
    fun s p v hrun hcalm hphase hplan hst hv h1 h2 hq hpulls hctl hfetch _ hup hdir hout hnums =>
      volumeDone_spec hrun hcalm hphase hplan hst hv h1 h2 hq hpulls hctl hfetch hup hdir hout hnums,
    fun s vol gen rest hrun hcalm hmay hctl hnums hvacant => drop_spec hrun hcalm hmay hctl hnums hvacant⟩
end

section
/-! PROOF. ACK (R130, R144, R145). -/

namespace Sys2Proof.Machine

section
variable {s t u : State} {e : ShipEntry} {f : OutFrame} {n : Nat}

/-! ### An entry acknowledged -/

/-- What acknowledgements change: slots, the catalogue, and of the offsite side the Ship Queue, the acknowledged count
and the plan, where no state of a volume changes. -/
structure Acknowledged (s t : State) : Prop where
  frame : t = { s with
    str := t.str, cat := t.cat, off := { s.off with queue := t.off.queue, acked := t.off.acked, plan := t.off.plan } }
  states : ∀ y ∈ t.off.plan, ∃ z ∈ s.off.plan, y.state = z.state

theorem Acknowledged.refl (s : State) : Acknowledged s s := ⟨rfl, fun y hy => ⟨y, hy, rfl⟩⟩

theorem Acknowledged.trans (h : Acknowledged s t) (k : Acknowledged t u) : Acknowledged s u := by
  refine ⟨?_, fun y hy => ?_⟩
  · have hframe := k.frame
    rw [h.frame] at hframe
    exact hframe
  · obtain ⟨z, hz, hyz⟩ := k.states y hy
    obtain ⟨x, hx, hzx⟩ := h.states z hz
    exact ⟨x, hx, hyz.trans hzx⟩

theorem coverSlot_eq (s : State) (e : ShipEntry) : s.coverSlot e = { s with str := (s.coverSlot e).str } := by
  unfold State.coverSlot
  split
  · rfl
  · split
    · rfl
    · split <;> rfl

theorem setShipped_eq (s : State) (vol ext birth : Nat) :
    s.setShipped vol ext birth = { s with cat := (s.setShipped vol ext birth).cat } := by
  unfold State.setShipped State.changeVersion
  split <;> rfl

/-- The counts of an acknowledged entry (R130). -/
def State.entryCounted (s : State) (e : ShipEntry) : State :=
  (s.modOff fun o =>
    { o with
      queue := o.queue.filter fun x => x.num != e.num
      acked := if decide (e.form = .ship) then o.acked + 256 else o.acked }).modPlan e.vol fun p =>
    { p with acked := p.acked + 1, shipCount := if decide (e.form = .ship) then p.shipCount - 1 else p.shipCount }

theorem ackEntry_eq (s : State) (e : ShipEntry) : s.ackEntry e =
    if e.last = true ∧ e.form ≠ .damaged then ((s.coverSlot e).entryCounted e).setShipped e.vol e.ext e.birth
    else (s.coverSlot e).entryCounted e := rfl

theorem acknowledged_counted (s : State) (e : ShipEntry) : Acknowledged s (s.entryCounted e) :=
  ⟨rfl, fun _ hy => state_of_modPlan hy fun _ => rfl⟩

theorem acknowledged_ackEntry (s : State) (e : ShipEntry) : Acknowledged s (s.ackEntry e) ∧
    (s.ackEntry e).off.queue = s.off.queue.filter fun x => x.num != e.num := by
  have hcover : Acknowledged s (s.coverSlot e) := by
    have hoff : (s.coverSlot e).off = s.off := by rw [coverSlot_eq]
    refine ⟨by rw [coverSlot_eq], fun y hy => ⟨y, ?_, rfl⟩⟩
    rw [hoff] at hy
    exact hy
  have hcounted := hcover.trans (acknowledged_counted (s.coverSlot e) e)
  have hqueue : ((s.coverSlot e).entryCounted e).off.queue = s.off.queue.filter fun x => x.num != e.num := by
    rw [coverSlot_eq]
    rfl
  rw [ackEntry_eq]
  split
  · have hoff : (((s.coverSlot e).entryCounted e).setShipped e.vol e.ext e.birth).off =
        ((s.coverSlot e).entryCounted e).off := by rw [setShipped_eq]
    refine ⟨hcounted.trans ⟨?_, fun y hy => ⟨y, by rw [hoff] at hy; exact hy, rfl⟩⟩, ?_⟩
    · rw [setShipped_eq]
    · rw [hoff]
      exact hqueue
  · exact ⟨hcounted, hqueue⟩

theorem acknowledged_coverFrame (s : State) (f : OutFrame) : Acknowledged s (s.coverFrame f) ∧
    (s.coverFrame f).off.queue = s.off.queue.filter fun x => !(f.entryNum == some x.num) := by
  have hnone (h : f.entryNum = none) : s.off.queue = s.off.queue.filter fun x => !(f.entryNum == some x.num) := by
    rw [h]
    exact (List.filter_eq_self.mpr fun _ _ => rfl).symm
  unfold State.coverFrame
  split
  · next num vol ext birth target base idxs hbody =>
    split
    · next hv =>
      refine ⟨Acknowledged.refl s, hnone ?_⟩
      unfold OutFrame.entryNum
      rw [hbody]
      exact if_pos hv
    · next hv =>
      have hnum : f.entryNum = some num := by
        unfold OutFrame.entryNum
        rw [hbody]
        exact if_neg hv
      split
      · next e he =>
        have henum : e.num = num := by
          have := List.find?_some (p := fun x : ShipEntry => x.num == num) he
          simpa using this
        obtain ⟨hack, hqueue⟩ := acknowledged_ackEntry s e
        refine ⟨hack, hqueue.trans (List.filter_congr fun x _ => ?_)⟩
        have hsome : (some num == some x.num) = (x.num == num) := by rw [Option.some_beq_some, BEq.comm]
        rw [hnum, henum, hsome]
        rfl
      · next hno =>
        refine ⟨Acknowledged.refl s, (List.filter_eq_self.mpr fun x hx => ?_).symm⟩
        have hne := List.find?_eq_none.mp hno x hx
        rw [hnum]
        simp only [beq_iff_eq] at hne
        simp [Ne.symm hne]
  · next hbody =>
    refine ⟨Acknowledged.refl s, hnone ?_⟩
    unfold OutFrame.entryNum
    split
    · next num vol ext birth target base idxs hb => exact absurd hb (hbody num vol ext birth target base idxs)
    · rfl

theorem acknowledged_fold (cov : List OutFrame) (s : State) : Acknowledged s (cov.foldl State.coverFrame s) ∧
    (cov.foldl State.coverFrame s).off.queue =
      s.off.queue.filter fun x => !(cov.any fun g => g.entryNum == some x.num) := by
  induction cov generalizing s with
  | nil => exact ⟨Acknowledged.refl s, (List.filter_eq_self.mpr fun _ _ => rfl).symm⟩
  | cons g cov ih =>
    obtain ⟨hone, hqueue⟩ := acknowledged_coverFrame s g
    obtain ⟨hrest, hall⟩ := ih (s.coverFrame g)
    refine ⟨hone.trans hrest, hall.trans ?_⟩
    rw [hqueue, List.filter_filter]
    refine List.filter_congr fun x _ => ?_
    rw [List.any_cons, Bool.not_or, Bool.and_comm]

/-! ### The frames an ACK covers -/

theorem coveredBy_first {fs rest : List OutFrame} (hfs : ∀ g ∈ fs, g.body.isShip = true → g.num ≠ n)
    (hf : f.body.isShip = true) (hn : f.num = n) : coveredBy n (fs ++ f :: rest) = some (fs ++ [f], rest) := by
  induction fs with
  | nil =>
    rw [List.nil_append, coveredBy, if_pos ⟨hf, hn⟩]
    rfl
  | cons g fs ih =>
    have hg : ¬ (g.body.isShip = true ∧ g.num = n) := fun h => hfs g List.mem_cons_self h.1 h.2
    rw [List.cons_append, coveredBy, if_neg hg, ih fun x hx => hfs x (List.mem_cons_of_mem _ hx)]
    rfl

theorem coveredBy_none {fs : List OutFrame} (h : ∀ g ∈ fs, g.body.isShip = true → g.num ≠ n) :
    coveredBy n fs = none := by
  induction fs with
  | nil => rfl
  | cons g fs ih =>
    have hg : ¬ (g.body.isShip = true ∧ g.num = n) := fun hno => h g List.mem_cons_self hno.1 hno.2
    rw [coveredBy, if_neg hg, ih fun x hx => h x (List.mem_cons_of_mem _ hx)]
    rfl

/-- What is left of the frames when an ACK has covered them, and the rest behind (R144). -/
def State.acked (s : State) (cov rest : List OutFrame) : State :=
  let w := cov.foldl State.coverFrame (s.setList (cov.filterMap OutFrame.remains ++ rest))
  if cov.any fun f => f.body.isShip && !f.received then w.progress else w

theorem ack_append {fs rest : List OutFrame} (hout : s.off.outstanding = fs ++ f :: rest)
    (hfs : ∀ g ∈ fs, g.body.isShip = true → g.num ≠ n) (hf : f.body.isShip = true) (hn : f.num = n) :
    s.ack n = s.acked (fs ++ [f]) rest := by
  unfold State.ack
  rw [hout, coveredBy_first hfs hf hn]
  rfl

/-- The end of an ACK's effect: its frames and entries gone, and progress made where one was not covered before. -/
theorem acked_spec (s : State) (cov rest : List OutFrame) :
    (s.acked cov rest).off.outstanding = cov.filterMap OutFrame.remains ++ rest ∧
    (s.acked cov rest).off.queue = s.off.queue.filter (fun x => !(cov.any fun g => g.entryNum == some x.num)) ∧
    (s.acked cov rest).off.link = s.off.link ∧ (s.acked cov rest).pat = s.pat ∧ (s.acked cov rest).sup = s.sup ∧
    (s.acked cov rest).tally = s.tally ∧
    (∀ y ∈ (s.acked cov rest).off.plan, ∃ z ∈ s.off.plan, y.state = z.state) ∧
    ((∃ g ∈ cov, g.body.isShip = true ∧ g.received = false) → (s.acked cov rest).off.expiries = 0 ∧
      (s.acked cov rest).off.ackStart = s.sup.elapsed ∧
      (s.acked cov rest).off.ackLimit = s.sup.settings.ackWait) := by
  obtain ⟨hack, hqueue⟩ := acknowledged_fold cov (s.setList (cov.filterMap OutFrame.remains ++ rest))
  have hdef : s.acked cov rest = if cov.any fun f => f.body.isShip && !f.received then
      (cov.foldl State.coverFrame (s.setList (cov.filterMap OutFrame.remains ++ rest))).progress
      else cov.foldl State.coverFrame (s.setList (cov.filterMap OutFrame.remains ++ rest)) := rfl
  rw [hdef]
  generalize cov.foldl State.coverFrame (s.setList (cov.filterMap OutFrame.remains ++ rest)) = w at hack hqueue
  have hframe := hack.frame
  have hwout : w.off.outstanding = cov.filterMap OutFrame.remains ++ rest := by rw [hframe]; rfl
  have hwlink : w.off.link = s.off.link := by rw [hframe]; rfl
  have hwpat : w.pat = s.pat := by rw [hframe]; rfl
  have hwsup : w.sup = s.sup := by rw [hframe]; rfl
  have hwtally : w.tally = s.tally := by rw [hframe]; rfl
  split
  · refine ⟨hwout, hqueue, hwlink, hwpat, hwsup, hwtally, hack.states, fun _ => ⟨rfl, ?_, ?_⟩⟩
    · exact congrArg Supervisor.elapsed hwsup
    · exact congrArg (fun u : Supervisor => u.settings.ackWait) hwsup
  · next hno =>
    refine ⟨hwout, hqueue, hwlink, hwpat, hwsup, hwtally, hack.states, fun ⟨g, hg, hship, hrec⟩ => absurd ?_ hno⟩
    exact List.any_eq_true.mpr ⟨g, hg, by rw [hship, hrec]; rfl⟩

/-! ### The expiry count as a step ends -/

theorem redirectOnce_expiries (h : s.off.expiries = 0) : s.redirectOnce.off.expiries = 0 := by
  have hchoose : s.chooseDir.off.expiries = 0 := by
    unfold State.chooseDir State.modOff
    dsimp only
    repeat' split
    all_goals exact h
  unfold State.redirectOnce
  dsimp only
  repeat' split
  all_goals first
    | exact hchoose
    | exact h
    | rfl

/-- An expiry count of 0 stays so as a step ends, the link not DOWN. -/
theorem finish_expiries (hstill : s.patrolStill) (hrun : s.sup.op ≠ .halted) (hlink : s.off.link ≠ .down)
    (h : s.off.expiries = 0) : s.finish.off.expiries = 0 := by
  obtain ⟨v, hv, -, hfinish⟩ := finish_settleLink hstill hrun
  have hserved := (serveRoom_served (s := v.clearShed) (by rw [← hv] at hlink; exact hlink)).frame
  have hroom : v.clearShed.serveRoom.off.expiries = 0 := by
    rw [hserved]
    rw [← hv] at h
    exact h
  rw [hfinish]
  exact iter_keeps (P := fun u => u.off.expiries = 0) (fun u hu => redirectOnce_expiries hu) 3 hroom

/-! ### ACK -/

theorem exec_ack (hrun : s.sup.op ≠ .halted) : Sys2Proof.Machine.exec (.ack n) s = .next
    (if s.linkUp then (({ s with sent := [] } : State).ack n).finish else { s with sent := [] }) := by
  change execAck n s [] = _
  unfold execAck
  rw [act_withErrs_nil _ hrun]
  rfl

theorem ack_spec {fs rest : List OutFrame} (hrun : s.sup.op ≠ .halted) (hcalm : s.calm) (hup : s.off.link = .up)
    (hout : s.off.outstanding = fs ++ f :: rest) (hfs : ∀ g ∈ fs, g.body.isShip = true → g.num ≠ n)
    (hf : f.body.isShip = true) (hn : f.num = n) (hplan : ∀ p ∈ s.off.plan, p.state ≠ .shed ∧ p.state ≠ .failed) :
    ∃ t, Sys2Proof.Machine.exec (.ack n) s = .next t ∧
      t.off.outstanding = (fs ++ [f]).filterMap OutFrame.remains ++ rest ∧
      t.off.queue = s.off.queue.filter (fun e => !((fs ++ [f]).any fun g => g.entryNum == some e.num)) ∧
      ((∃ g ∈ fs ++ [f], g.body.isShip = true ∧ g.received = false) →
        t.off.expiries = 0 ∧ t.off.ackStart = s.sup.elapsed ∧
        t.off.ackLimit = s.sup.settings.ackWait) := by
  let a : State := { s with sent := [] }
  obtain ⟨wout, wqueue, wlink, wpat, wsup, -, wplan, wfresh⟩ := acked_spec a (fs ++ [f]) rest
  have hack : a.ack n = a.acked (fs ++ [f]) rest := ack_append (s := a) hout hfs hf hn
  generalize a.acked (fs ++ [f]) rest = w at wout wqueue wlink wpat wsup wplan wfresh hack
  have hwstill : w.patrolStill := by
    unfold State.patrolStill
    rw [wpat]
    exact hcalm.2
  have hwrun : w.sup.op ≠ .halted := by rw [wsup]; exact hrun
  have hwlink : w.off.link ≠ .down := by
    rw [wlink]
    exact fun hno => nomatch hup.symm.trans hno
  obtain ⟨hlast, -, hqueue⟩ := finish_lasting hwstill hwrun
  have hcounters := finish_counters hwstill hwrun hwlink
  refine ⟨w.finish, ?_, (congrArg Offsite.outstanding hlast : _).trans wout, ?_, fun hfresh => ?_⟩
  · rw [exec_ack hrun, if_pos (show s.linkUp = true from decide_eq_true hup), hack]
  · rw [hqueue, clearShed_queue]
    · exact wqueue
    · intro y hy
      obtain ⟨z, hz, hyz⟩ := wplan y hy
      rw [hyz]
      exact hplan z hz
  · obtain ⟨hexp, hstart, hlimit⟩ := wfresh hfresh
    exact ⟨finish_expiries hwstill hwrun hwlink hexp, (congrArg (fun c => c.2.2.1) hcounters : _).trans hstart,
      (congrArg (fun c => c.2.2.2) hcounters : _).trans hlimit⟩

/-! ### The ACK of one frame -/

/-- The versions of an extent after its last entry is acknowledged (R64, R130). -/
theorem extent_setShipped {vol ext birth : Nat} {v : Version} (hd : s.damaged vol ext = false)
    (hv : v ∈ (s.extent vol ext).versions) (hb : v.birth = birth) :
    { v with shipped := true } ∈ ((s.setShipped vol ext birth).extent vol ext).versions := by
  unfold State.setShipped State.changeVersion
  rw [if_neg (by rw [hd]; exact Bool.false_ne_true), extent_setExtent_self]
  exact List.mem_map.mpr ⟨v, hv, if_pos (by simp [hb])⟩

theorem ackOne_spec {p : PlanVol} {v : Version} {k target base : Nat} {x : Slot} (hrun : s.sup.op ≠ .halted)
    (hcalm : s.calm) (hup : s.off.link = .up) (hout : s.off.outstanding = [f])
    (hbody : f.body = .ship e.num e.vol e.ext e.birth target base e.chunks) (hvac : f.vacant = false) (hn : f.num = n)
    (hq : s.off.queue = [e]) (hform : e.form = .ship) (hslot : e.slot = some k) (hx : s.slot k = some x)
    (hxs : x.state = .awaitingAck) (hplan : s.planOf e.vol = some p) (hv : v ∈ (s.extent e.vol e.ext).versions)
    (hb : v.birth = e.birth) (hd : s.damaged e.vol e.ext = false) :
    ∃ t q, Sys2Proof.Machine.exec (.ack n) s = .next t ∧ t.off.outstanding = [] ∧ t.off.queue = [] ∧
      t.slot k = none ∧ t.off.acked = s.off.acked + 256 ∧ t.planOf e.vol = some q ∧
      q.acked = p.acked + 1 ∧ q.shipCount = p.shipCount - 1 ∧
      (e.last = true → { v with shipped := true } ∈ (t.extent e.vol e.ext).versions) ∧
      (e.last = false → v ∈ (t.extent e.vol e.ext).versions) := by
  let a : State := { s with sent := [] }
  obtain ⟨b, hbd⟩ : ∃ b, b = a.setList [] := ⟨_, rfl⟩
  have hship : f.body.isShip = true := by rw [hbody]; rfl
  have hremains : f.remains = none := by unfold OutFrame.remains; rw [hbody]
  have hentry : b.entry e.num = some e := by
    have hbq : b.off.queue = [e] := by rw [hbd]; exact hq
    unfold State.entry
    rw [hbq]
    simp
  have hcover : b.coverFrame f = b.ackEntry e := by
    unfold State.coverFrame
    rw [hbody]
    dsimp only
    rw [hvac, if_neg Bool.false_ne_true, hentry]
  have hfree : b.coverSlot e = b.freeSlot k := by
    have hbx : b.slot k = some x := by rw [hbd]; exact hx
    unfold State.coverSlot
    rw [hslot]
    dsimp only
    rw [hbx]
    dsimp only
    rw [if_neg (by rw [hxs]; nofun)]
  obtain ⟨c, hc⟩ : ∃ c, c = (b.freeSlot k).entryCounted e := ⟨_, rfl⟩
  have hack : a.ack n = if ([f].any fun f => f.body.isShip && !f.received) then (b.ackEntry e).progress
      else b.ackEntry e := by
    have hacked := ack_append (s := a) (fs := []) (rest := []) hout (fun _ h => nomatch h) hship hn
    rw [hacked]
    unfold State.acked
    rw [List.nil_append, List.filterMap_cons, hremains, List.filterMap_nil, List.append_nil, ← hbd, List.foldl_cons,
      List.foldl_nil, hcover]
  have hackEntry : b.ackEntry e = if e.last = true ∧ e.form ≠ .damaged then c.setShipped e.vol e.ext e.birth else c := by
    rw [ackEntry_eq, hfree, hc]
  have hcplan : c.planOf e.vol = some { p with acked := p.acked + 1, shipCount := p.shipCount - 1 } := by
    have hbplan : b.planOf e.vol = some p := by rw [hbd]; exact hplan
    have hself := planOf_modPlan_self (s := (b.freeSlot k).modOff fun o =>
        { o with
          queue := o.queue.filter fun x => x.num != e.num
          acked := if decide (e.form = .ship) then o.acked + 256 else o.acked })
      (f := fun p => { p with
        acked := p.acked + 1, shipCount := if decide (e.form = .ship) then p.shipCount - 1 else p.shipCount })
      (fun _ => rfl) hbplan
    rw [hc]
    refine hself.trans ?_
    rw [decide_eq_true hform]
    rfl
  have hcq : c.off.queue = [] := by
    rw [hc, hbd]
    change s.off.queue.filter _ = []
    rw [hq]
    simp
  have hcacked : c.off.acked = s.off.acked + 256 := by
    rw [hc, hbd]
    change (if decide (e.form = .ship) then s.off.acked + 256 else s.off.acked) = _
    rw [if_pos (decide_eq_true hform)]
  have hcslot : c.slot k = none := by
    rw [hc]
    exact State.slot_freeSlot b k
  have hcat : c.cat = s.cat := by rw [hc, hbd]; rfl
  obtain ⟨w, hw⟩ : ∃ w, w = a.ack n := ⟨_, rfl⟩
  have hwdesc : w.off.outstanding = [] ∧ w.off.queue = [] ∧ w.slot k = none ∧ w.off.acked = s.off.acked + 256 ∧
      w.off.plan = c.off.plan ∧ w.pat = s.pat ∧ w.sup = s.sup ∧
      w.cat = if e.last = true ∧ e.form ≠ .damaged then (c.setShipped e.vol e.ext e.birth).cat else c.cat := by
    have hcout : c.off.outstanding = [] := by rw [hc, hbd]; rfl
    have hcpat : c.pat = s.pat := by rw [hc, hbd]; rfl
    have hcsup : c.sup = s.sup := by rw [hc, hbd]; rfl
    have hy : ∀ y : State, y = b.ackEntry e → y.off = c.off ∧ y.str = c.str ∧ y.pat = c.pat ∧ y.sup = c.sup ∧
        y.cat = if e.last = true ∧ e.form ≠ .damaged then (c.setShipped e.vol e.ext e.birth).cat else c.cat := by
      intro y hy
      rw [hy, hackEntry]
      split
      · exact ⟨by rw [setShipped_eq], by rw [setShipped_eq], by rw [setShipped_eq], by rw [setShipped_eq], rfl⟩
      · exact ⟨rfl, rfl, rfl, rfl, rfl⟩
    obtain ⟨hoff, hstr, hpat, hsup, hycat⟩ := hy _ rfl
    rw [hw, hack]
    generalize b.ackEntry e = y at hoff hstr hpat hsup hycat
    have hyslot : y.slot k = none := by
      unfold State.slot
      rw [hstr]
      exact hcslot
    split
    · refine ⟨?_, ?_, hyslot, ?_, ?_, hpat.trans hcpat, hsup.trans hcsup, hycat⟩
      · exact (congrArg Offsite.outstanding hoff : _).trans hcout
      · exact (congrArg Offsite.queue hoff : _).trans hcq
      · exact (congrArg Offsite.acked hoff : _).trans hcacked
      · exact (congrArg Offsite.plan hoff : y.off.plan = c.off.plan)
    · rw [hoff]
      exact ⟨hcout, hcq, hyslot, hcacked, rfl, hpat.trans hcpat, hsup.trans hcsup, hycat⟩
  obtain ⟨hwout, hwq, hwslot, hwacked, hwplan, hwpat, hwsup, hwcat⟩ := hwdesc
  have hwstill : w.patrolStill := by
    unfold State.patrolStill
    rw [hwpat]
    exact hcalm.2
  have hwrun : w.sup.op ≠ .halted := by rw [hwsup]; exact hrun
  obtain ⟨hlast, -, hqueue⟩ := finish_lasting hwstill hwrun
  have hfcat := finish_cat hwstill hwrun
  have hext (y : State) (hy : y.cat = w.finish.cat) : w.finish.extent e.vol e.ext = y.extent e.vol e.ext := by
    unfold State.extent
    rw [hy]
  refine ⟨w.finish, { p with acked := p.acked + 1, shipCount := p.shipCount - 1 }, ?_,
    (congrArg Offsite.outstanding hlast : _).trans hwout, ?_, ?_, (congrArg Offsite.acked hlast : _).trans hwacked, ?_,
    rfl, rfl, fun hl => ?_, fun hl => ?_⟩
  · rw [exec_ack hrun, if_pos (show s.linkUp = true from decide_eq_true hup), hw]
  · rw [hqueue]
    refine List.eq_nil_iff_forall_not_mem.mpr fun y hy => ?_
    have hmem := (List.mem_filter.mp hy).1
    rw [hwq] at hmem
    cases hmem
  · rw [finish_slots hwstill hwrun]
    exact hwslot
  · rw [planOf_congr ((plan_of_lasting hlast).trans hwplan)]
    exact hcplan
  · rw [if_pos ⟨hl, by rw [hform]; nofun⟩] at hwcat
    rw [hext (c.setShipped e.vol e.ext e.birth) (hwcat.symm.trans hfcat.symm)]
    refine extent_setShipped ?_ ?_ hb
    · unfold State.damaged at hd ⊢
      rw [volume_congr (s := s) (by rw [hcat])]
      exact hd
    · unfold State.extent at hv ⊢
      rw [hcat]
      exact hv
  · rw [if_neg (by rw [hl]; exact fun h => Bool.false_ne_true h.1)] at hwcat
    rw [hext s ((hwcat.trans hcat).symm.trans hfcat.symm)]
    exact hv

end

end Sys2Proof.Machine
end

section
/-! PROOF. NAK, DONE_ACK and DROP_ACK (R81, R131, R144, R146), and O49. -/

namespace Sys2Proof.Machine

section
variable {s t u : State} {e : ShipEntry} {f : OutFrame} {n vol gen : Nat} {p : PlanVol}

/-! ### NAK -/

theorem exec_nak {reason : Nat} (hrun : s.sup.op ≠ .halted) : Sys2Proof.Machine.exec (.nak n reason) s = .next
    (if s.linkUp then (({ s with sent := [] } : State).nak n reason []).finish else { s with sent := [] }) := by
  change execNak n reason s [] = _
  unfold execNak
  exact act_withErrs_nil _ hrun

/-- An answer of the peer that names no outstanding frame has no effect (R142, R144, R146). -/
theorem answers_nothing (hrun : s.sup.op ≠ .halted) (hcalm : s.calm)
    (hno : s.off.link ≠ .up ∨ ∀ f ∈ s.off.outstanding, f.body.isShip = true → f.num ≠ n) :
    (∃ t, Sys2Proof.Machine.exec (.ack n) s = .next t ∧ t.off.outstanding = s.off.outstanding ∧ t.cat = s.cat) ∧
    ∃ t, Sys2Proof.Machine.exec (.nak n 1) s = .next t ∧ t.off.outstanding = s.off.outstanding ∧ t.cat = s.cat := by
  let a : State := { s with sent := [] }
  obtain ⟨-, -, -, fcat, -⟩ := finish_beside_parts (s := a) hcalm hrun
  have hfout : a.finish.off.outstanding = s.off.outstanding :=
    (congrArg Offsite.outstanding (finish_lasting (s := a) hcalm.2 hrun).1 : _)
  rw [exec_ack hrun, exec_nak hrun]
  by_cases hup : s.linkUp = true
  · have hnum := hno.resolve_left fun h => h (of_decide_eq_true hup)
    have hack : a.ack n = a := by
      unfold State.ack
      rw [coveredBy_none (fs := a.off.outstanding) hnum]
    have hnak : a.nak n 1 [] = a := by
      have hnone : (a.off.outstanding.find? fun f => f.body.isShip && f.num == n) = none := by
        refine List.find?_eq_none.mpr fun g hg => ?_
        have hg := hnum g hg
        simp only [Bool.and_eq_true, beq_iff_eq, not_and]
        exact hg
      unfold State.nak
      rw [hnone]
    rw [if_pos hup, if_pos hup, hack, hnak]
    exact ⟨⟨_, rfl, hfout, fcat⟩, _, rfl, hfout, fcat⟩
  · rw [if_neg hup, if_neg hup]
    exact ⟨⟨_, rfl, rfl, rfl⟩, _, rfl, rfl, rfl⟩

/-- The state in which a frame has counted its first NAK (R146). -/
def State.nakCounted (s : State) (f : OutFrame) : State :=
  s.modOff fun o =>
    { o with outstanding := mapIf (fun x => decide (x = f)) (fun x => { x with naks := 1 }) o.outstanding }

/-- A SHIP frame that has its entry is resent from its slot (R145, R146). -/
theorem resend_ship {target base : Nat} (hbody : f.body = .ship e.num e.vol e.ext e.birth target base e.chunks)
    (hrec : f.received = false) (hvac : f.vacant = false) (he : s.entry e.num = some e) :
    State.resend [] s f = { s with
      sent := s.sent ++ [.offsite (.ship f.num e.vol target base e.ext e.birth e.form e.chunks e.code (s.entryData e))]
      str := (State.resend [] s f).str } ∧
    ∀ k x, e.slot = some k → s.slot k = some x →
      (State.resend [] s f).slot k = some { x with state := .sending } := by
  have hresend : State.resend [] s f = match e.slot with
      | some n => (s.send (.offsite (s.shipFrame f.num target base e))).modSlot n fun x => { x with state := .sending }
      | none => s.send (.offsite (s.shipFrame f.num target base e)) := by
    unfold State.resend
    rw [hrec, hvac, hbody]
    dsimp only
    rw [he, if_neg (by nofun)]
    dsimp only
    rw [unreadable_nil, if_neg Bool.false_ne_true] <;> rfl
  rw [hresend]
  cases hslot : e.slot with
  | none =>
    refine ⟨?_, fun _ _ h => nomatch h⟩
    rw [← shipFrame_eq]
    rfl
  | some j =>
    refine ⟨?_, fun k x hk hx => ?_⟩
    · rw [← shipFrame_eq]
      rfl
    · obtain rfl := Option.some.inj hk
      dsimp only
      rw [State.slot_modSlot]
      exact congrArg (Option.map fun x : Slot => { x with state := .sending }) hx

theorem firstNak_spec {reason target base : Nat} (hrun : s.sup.op ≠ .halted) (hcalm : s.calm) (hup : s.off.link = .up)
    (hout : s.off.outstanding = [f]) (hbody : f.body = .ship e.num e.vol e.ext e.birth target base e.chunks)
    (hvac : f.vacant = false) (hrec : f.received = false) (hq : s.off.queue = [e]) (hnaks : f.naks = 0) :
    ∃ t, Sys2Proof.Machine.exec (.nak f.num reason) s = .next t ∧ t.off.outstanding = [{ f with naks := 1 }] ∧
      Output.offsite (.ship f.num e.vol target base e.ext e.birth e.form e.chunks e.code (s.entryData e)) ∈ t.sent ∧
      ∀ k x, e.slot = some k → s.slot k = some x → t.slot k = some { x with state := .sending } := by
  let a : State := { s with sent := [] }
  have hfind : (a.off.outstanding.find? fun g => g.body.isShip && g.num == f.num) = some f := by
    change (s.off.outstanding.find? _) = _
    rw [hout]
    simp [hbody, FrameBody.isShip]
  obtain ⟨b, hb⟩ : ∃ b, b = a.nakCounted f := ⟨_, rfl⟩
  have hnak : a.nak f.num reason [] = State.resend [] b f := by
    unfold State.nak
    rw [hfind]
    dsimp only
    rw [hrec, if_neg Bool.false_ne_true, if_pos hnaks, hb]
    rfl
  have hbe : b.entry e.num = some e := by
    have hbq : b.off.queue = [e] := by rw [hb]; exact hq
    unfold State.entry
    rw [hbq]
    simp
  have hbout : b.off.outstanding = [{ f with naks := 1 }] := by
    rw [hb]
    change mapIf _ _ s.off.outstanding = _
    rw [hout]
    simp [mapIf]
  have hbslot (k : Nat) : b.slot k = s.slot k := by rw [hb]; rfl
  obtain ⟨hframe, hslots⟩ := resend_ship (s := b) hbody hrec hvac hbe
  generalize State.resend [] b f = w at hnak hframe hslots
  have hwstill : w.patrolStill := by
    rw [hframe, hb]
    exact hcalm.2
  have hwrun : w.sup.op ≠ .halted := by
    rw [hframe, hb]
    exact hrun
  have hlast := (finish_lasting hwstill hwrun).1
  refine ⟨w.finish, ?_, (congrArg Offsite.outstanding hlast : _).trans ?_, mem_sent_finish ?_, fun k x hk hx => ?_⟩
  · rw [exec_nak hrun, if_pos (show s.linkUp = true from decide_eq_true hup), hnak]
  · change w.off.outstanding = _
    rw [hframe]
    exact hbout
  · rw [hframe, hb]
    exact List.mem_append_right _ (List.mem_singleton.mpr rfl)
  · rw [finish_slots hwstill hwrun]
    exact hslots k x hk ((hbslot k).trans hx)

/-- A volume that is SHIPPING fails (R123). -/
theorem failVolume_eq (hplan : s.planOf vol = some p) (hst : p.state = .shipping) :
    s.failVolume vol = (s.volumeLeaves vol .failed).modOff fun o =>
      { o with nFailed := o.nFailed + 1, controls := o.controls.filter fun c => !(c.isDoneOf vol) } := by
  unfold State.failVolume
  rw [hplan]
  exact if_pos (.inl hst)

theorem freeEntrySlots_eq (s : State) (es : List ShipEntry) :
    s.freeEntrySlots es = { s with str := (s.freeEntrySlots es).str } := by
  unfold State.freeEntrySlots
  generalize es.filterMap ShipEntry.slot = ns
  induction ns generalizing s with
  | nil => rfl
  | cons k ns ih =>
    rw [List.foldl_cons, ih]
    rfl

/-- A frame withdrawn at its second NAK, its volume not yet failed (R146). -/
def State.frameWithdrawn (s : State) (f : OutFrame) (reason num : Nat) : State :=
  let b := ((s.raise (.shipRejected f.rejected f.num reason)).setList
      ((s.raise (.shipRejected f.rejected f.num reason)).off.outstanding.filter fun x => decide (x ≠ f))).modOff fun o =>
    { o with withdrawnNums := o.withdrawnNums ++ [f.num] }
  (b.freeEntrySlots (b.off.queue.filter fun e => e.num == num)).modOff fun o =>
    { o with queue := o.queue.filter fun e => e.num != num }

theorem withdrawFrame_ship {reason target base num ext birth : Nat} {chunks : List Nat}
    (hbody : f.body = .ship num vol ext birth target base chunks) :
    s.withdrawFrame f reason = (s.frameWithdrawn f reason num).failVolume vol := by
  unfold State.withdrawFrame
  dsimp only
  rw [hbody]
  rfl

/-- What a withdrawn frame leaves (R146). -/
theorem frameWithdrawn_spec (s : State) (f : OutFrame) (reason num : Nat) :
    (s.frameWithdrawn f reason num).off.outstanding = s.off.outstanding.filter (fun x => decide (x ≠ f)) ∧
    (s.frameWithdrawn f reason num).off.withdrawnNums = s.off.withdrawnNums ++ [f.num] ∧
    (s.frameWithdrawn f reason num).off.plan = s.off.plan ∧
    (s.frameWithdrawn f reason num).off.link = s.off.link ∧ (s.frameWithdrawn f reason num).pat = s.pat ∧
    (s.frameWithdrawn f reason num).tally = s.tally ∧ (s.frameWithdrawn f reason num).sup.op = s.sup.op ∧
    (s.frameWithdrawn f reason num).sup.raised = modAt s.sup.raised 7 countUp := by
  obtain ⟨roff, rpat, -⟩ := raise_parts s (.shipRejected f.rejected f.num reason)
  have rtally := raise_tally s (.shipRejected f.rejected f.num reason)
  have rraised := raise_raised s (.shipRejected f.rejected f.num reason)
  have rop := (supKept_raise (u0 := s.sup) (.shipRejected f.rejected f.num reason) (supKept_refl s.sup)).1
  unfold State.frameWithdrawn
  generalize s.raise (.shipRejected f.rejected f.num reason) = r at roff rpat rtally rraised rop
  dsimp only
  rw [freeEntrySlots_eq]
  refine ⟨?_, ?_, ?_, ?_, rpat, rtally, rop, rraised⟩
  · exact (congrArg (fun o : Offsite => o.outstanding.filter fun x => decide (x ≠ f)) roff : _)
  · exact (congrArg (fun o : Offsite => o.withdrawnNums ++ [f.num]) roff : _)
  · exact (congrArg Offsite.plan roff : _)
  · exact (congrArg Offsite.link roff : _)

theorem secondNak_spec {reason target base : Nat} (hrun : s.sup.op ≠ .halted) (hcalm : s.calm) (hup : s.off.link = .up)
    (hout : s.off.outstanding = [f]) (hbody : f.body = .ship e.num e.vol e.ext e.birth target base e.chunks)
    (hrec : f.received = false) (hplan : s.planOf e.vol = some p) (hst : p.state = .shipping) (hnaks : f.naks = 1) :
    ∃ t, Sys2Proof.Machine.exec (.nak f.num reason) s = .next t ∧ t.off.outstanding = [] ∧
      f.num ∈ t.off.withdrawnNums ∧ (∃ q, t.planOf e.vol = some q ∧ q.state = .failed) ∧
      t.sup.raised[7]? = (s.sup.raised[7]?).map countUp := by
  let a : State := { s with sent := [] }
  have hfind : (a.off.outstanding.find? fun g => g.body.isShip && g.num == f.num) = some f := by
    change (s.off.outstanding.find? _) = _
    rw [hout]
    simp [hbody, FrameBody.isShip]
  obtain ⟨bout, bnums, bplan, blink, bpat, btally, bop, braised⟩ := frameWithdrawn_spec a f reason e.num
  have hnak : a.nak f.num reason [] = (a.frameWithdrawn f reason e.num).failVolume e.vol := by
    unfold State.nak
    rw [hfind]
    dsimp only
    rw [hrec, if_neg Bool.false_ne_true, if_neg (by rw [hnaks]; exact Nat.one_ne_zero), withdrawFrame_ship hbody]
  generalize a.frameWithdrawn f reason e.num = b at bout bnums bplan blink bpat btally bop braised hnak
  have hbplan : b.planOf e.vol = some p := (planOf_congr (s := s) bplan e.vol).trans hplan
  rw [failVolume_eq hbplan hst] at hnak
  obtain ⟨cframe, g, hg, cplan⟩ := volumeLeft_leaves b e.vol .failed
  generalize b.volumeLeaves e.vol .failed = c at cframe cplan hnak
  obtain ⟨w, hw⟩ : ∃ w, w = c.modOff fun o =>
      { o with nFailed := o.nFailed + 1, controls := o.controls.filter fun c => !(c.isDoneOf e.vol) } := ⟨_, rfl⟩
  rw [← hw] at hnak
  have hwout : w.off.outstanding = [] := by
    rw [hw]
    change c.off.outstanding = []
    rw [cframe]
    refine bout.trans ?_
    change s.off.outstanding.filter _ = []
    rw [hout]
    simp
  have hwnums : w.off.withdrawnNums = s.off.withdrawnNums ++ [f.num] := by
    rw [hw]
    change c.off.withdrawnNums = _
    rw [cframe]
    exact bnums
  have hwlink : w.off.link ≠ .down := by
    rw [hw]
    change c.off.link ≠ .down
    rw [cframe]
    exact fun hno => nomatch (blink.trans hup).symm.trans hno
  have hwcalm : w.calm := by
    refine calm_congr (s := s) ?_ ?_ hcalm <;> rw [hw]
    · change c.tally = _
      rw [cframe]
      exact btally
    · change c.pat = _
      rw [cframe]
      exact bpat
  have hwop : w.sup.op = s.sup.op := by
    rw [hw]
    change c.sup.op = _
    rw [cframe]
    exact bop
  have hwrun : w.sup.op ≠ .halted := fun hno => hrun (hwop.symm.trans hno)
  have hlast := (finish_lasting hwcalm.2 hwrun).1
  have hcounters := finish_counters hwcalm.2 hwrun hwlink
  obtain ⟨-, hgst, -⟩ := hg p
  refine ⟨w.finish, ?_, (congrArg Offsite.outstanding hlast : _).trans hwout, ?_, ⟨g p, ?_, hgst⟩, ?_⟩
  · rw [exec_nak hrun, if_pos (show s.linkUp = true from decide_eq_true hup), hnak]
  · have hn : w.finish.off.withdrawnNums = w.off.withdrawnNums :=
      (congrArg (fun c : _ × _ × _ × _ => c.1.2.2.1) hcounters : _)
    rw [hn, hwnums]
    exact List.mem_append_right _ (List.mem_singleton.mpr rfl)
  · have hwplan : w.finish.off.plan = (b.modPlan e.vol g).off.plan :=
      (plan_of_lasting hlast).trans (by rw [hw]; exact cplan)
    rw [planOf_congr hwplan]
    exact planOf_modPlan_self (fun x => (hg x).1) hbplan
  · rw [(finish_beside_parts hwcalm hwrun).1]
    have hwraised : w.sup.raised = modAt s.sup.raised 7 countUp := by
      rw [hw]
      change c.sup.raised = _
      rw [cframe]
      exact braised
    rw [hwraised, getElem?_modAt, if_pos rfl]

/-! ### DONE_ACK -/

/-- A control answered changes the list, its limit and the pending controls. -/
theorem answerControl_eq (s : State) (c : Control → Bool) : s.answerControl c = { s with
    off := { s.off with
      outstanding := (s.answerControl c).off.outstanding, expiries := (s.answerControl c).off.expiries
      ackStart := (s.answerControl c).off.ackStart, ackLimit := (s.answerControl c).off.ackLimit
      controls := (s.answerControl c).off.controls } } := by
  unfold State.answerControl
  dsimp only
  split <;> rfl

/-- Ship pins dropped leave what is held offsite. -/
theorem snapshot_dropPin_held (s : State) (vol gen : Nat) (ship : Bool) (v g : Nat) :
    ((s.dropPin vol gen ship).snapshot v g).map Snapshot.held = (s.snapshot v g).map Snapshot.held := by
  have hmod (u : State) (f : Snapshot → Snapshot) (hf : ∀ x, (f x).held = x.held) :
      ((u.modSnapshot vol gen f).snapshot v g).map Snapshot.held = (u.snapshot v g).map Snapshot.held := by
    unfold State.snapshot
    split
    · exact tget_tmod_map _ _ _ hf
    · rfl
  have hretain (u : State) (k : SnapKind) :
      ((u.retain vol k).snapshot v g).map Snapshot.held = (u.snapshot v g).map Snapshot.held := by
    refine iter_keeps (P := fun w => (w.snapshot v g).map Snapshot.held = (u.snapshot v g).map Snapshot.held)
      (fun w hw => ?_) _ rfl
    unfold State.retainOnce
    split
    · exact hw
    · split
      · exact hw
      · split
        · exact hw
        · refine Eq.trans ?_ hw
          unfold State.snapshot
          split
          · exact tget_tmod_map _ _ _ fun _ => rfl
          · rfl
  unfold State.dropPin
  split
  · rfl
  next p _ =>
    by_cases hpins : (if ship then p.shipPins else p.restorePins) = 0
    · rw [if_pos hpins]
    · rw [if_neg hpins]
      dsimp only
      have hone := hmod s _ fun x => by
        show (if ship then { x with shipPins := x.shipPins - 1 }
          else { x with restorePins := x.restorePins - 1 } : Snapshot).held = x.held
        split <;> rfl
      by_cases hlast : p.pins = 1 ∧ p.state = .active
      · rw [if_pos hlast]
        exact (hretain _ _).trans hone
      · rw [if_neg hlast]
        exact hone

theorem snapshot_dropShipPins_held (s : State) (vol v g : Nat) :
    ((s.dropShipPins vol).snapshot v g).map Snapshot.held = (s.snapshot v g).map Snapshot.held := by
  have hone (u : State) (c : Bool) (gen : Nat) : ((if c then u.dropPin vol gen true else u).snapshot v g).map
      Snapshot.held = (u.snapshot v g).map Snapshot.held := by
    split
    · exact snapshot_dropPin_held u vol gen true v g
    · rfl
  unfold State.dropShipPins
  split
  · rfl
  · exact (hone _ _ _).trans (hone _ _ _)

theorem snapshot_congr (h : t.cat.snapshots = s.cat.snapshots) (vol gen : Nat) :
    t.snapshot vol gen = s.snapshot vol gen := by
  unfold State.snapshot
  rw [h]

/-- A volume completed by its DONE_ACK (R131). -/
theorem completeVolume_spec {target : Nat} {v : Volume} {q : Snapshot} (hplan : s.planOf vol = some p)
    (hst : p.state = .awaitingDone) (ht : p.target = target) (hv : s.volume vol = some v)
    (hq : s.snapshot vol target = some q) :
    (s.completeVolume vol target).volume vol = some { v with mark := target } ∧
    (∃ q', (s.completeVolume vol target).snapshot vol target = some q' ∧ q'.held = true) ∧
    (∃ p', (s.completeVolume vol target).planOf vol = some p' ∧ p'.state = .complete) ∧
    (s.completeVolume vol target).off.nComplete = s.off.nComplete + 1 ∧
    (s.completeVolume vol target).pat = s.pat ∧ (s.completeVolume vol target).sup = s.sup := by
  obtain ⟨b, hb⟩ : ∃ b, b = (s.modVolume vol fun v => { v with mark := target }).modSnapshot vol target fun q =>
    { q with held := true } := ⟨_, rfl⟩
  have hcomplete : s.completeVolume vol target = ((b.dropShipPins vol).modPlan vol fun q =>
      { q with state := .complete }).modOff fun o => { o with nComplete := o.nComplete + 1 } := by
    unfold State.completeVolume
    rw [hplan]
    dsimp only
    rw [if_pos ⟨hst, ht⟩, hb]
  have hbv : b.volume vol = some { v with mark := target } := by
    rw [hb]
    refine (State.volume_modVolume s vol fun v => { v with mark := target }).trans ?_
    rw [hv]
    rfl
  have hbq : (b.snapshot vol target).map Snapshot.held = some true := by
    rw [hb, State.snapshot_modSnapshot]
    change ((s.snapshot vol target).map _).map _ = _
    rw [hq]
    rfl
  have hbplan : b.planOf vol = some p := by rw [hb]; exact hplan
  have hframe := (planUnpinned_dropShipPins b vol).frame
  obtain ⟨g, hg, hgplan⟩ := dropShipPins_plan b vol
  have hheld := snapshot_dropShipPins_held b vol vol target
  generalize b.dropShipPins vol = c at hframe hgplan hheld hcomplete
  rw [hcomplete]
  refine ⟨?_, ?_, ?_, ?_, ?_, ?_⟩
  · refine (volume_congr (s := b) (t := _) ?_ vol).trans hbv
    change c.cat.volumes = _
    rw [hframe]
  · rw [hbq] at hheld
    obtain ⟨q', hq', hheld'⟩ := Option.map_eq_some_iff.mp hheld
    exact ⟨q', hq', hheld'⟩
  · have hcplan : c.planOf vol = some (g p) := by
      rw [planOf_congr (s := b.modPlan vol g) hgplan]
      exact planOf_modPlan_self (fun x => (hg x).1) hbplan
    exact ⟨_, planOf_modPlan_self (f := fun q => { q with state := .complete }) (fun _ => rfl) hcplan, rfl⟩
  · change c.off.nComplete + 1 = _
    rw [hframe, hb]
    rfl
  · change c.pat = _
    rw [hframe, hb]
    rfl
  · change c.sup = _
    rw [hframe, hb]
    rfl

theorem doneAck_spec {target : Nat} {v : Volume} {q : Snapshot} (hrun : s.sup.op ≠ .halted) (hcalm : s.calm)
    (hup : s.off.link = .up) (hplan : s.planOf vol = some p) (hst : p.state = .awaitingDone) (ht : p.target = target)
    (hv : s.volume vol = some v) (hq : s.snapshot vol target = some q) :
    ∃ t p' q', Sys2Proof.Machine.exec (.doneAck vol target) s = .next t ∧
      t.volume vol = some { v with mark := target } ∧ t.snapshot vol target = some q' ∧ q'.held = true ∧
      t.planOf vol = some p' ∧ p'.state = .complete ∧ t.off.nComplete = s.off.nComplete + 1 := by
  let a : State := { s with sent := [] }
  obtain ⟨c, hc⟩ : ∃ c : Control → Bool, c = fun c => match c with
    | .volumeDone v t _ _ => v == vol && t == target
    | .drop _ _ => false := ⟨_, rfl⟩
  have hexec : Sys2Proof.Machine.exec (.doneAck vol target) s =
      .next (((a.answerControl c).completeVolume vol target).finish) := by
    change execDoneAck vol target s [] = _
    unfold execDoneAck
    rw [act_withErrs_nil _ hrun, hc]
    exact congrArg Host.Outcome.next (if_pos (decide_eq_true hup))
  have hframe := answerControl_eq a c
  generalize a.answerControl c = b at hframe hexec
  have hbplan : b.planOf vol = some p := (planOf_congr (s := s) (by rw [hframe]) vol).trans hplan
  have hbv : b.volume vol = some v := (volume_congr (s := s) (by rw [hframe]) vol).trans hv
  have hbq : b.snapshot vol target = some q := (snapshot_congr (s := s) (by rw [hframe]) vol target).trans hq
  obtain ⟨kv, ⟨q', kq, kheld⟩, ⟨p', kp, kst⟩, kn, kpat, ksup⟩ := completeVolume_spec hbplan hst ht hbv hbq
  generalize b.completeVolume vol target = w at hexec kv kq kp kn kpat ksup
  have hwstill : w.patrolStill := by
    unfold State.patrolStill
    rw [kpat, hframe]
    exact hcalm.2
  have hwrun : w.sup.op ≠ .halted := by
    rw [ksup, hframe]
    exact hrun
  have hlast := (finish_lasting hwstill hwrun).1
  have hcat := finish_cat hwstill hwrun
  refine ⟨w.finish, p', q', hexec, ?_, ?_, kheld, ?_, kst, ?_⟩
  · exact (volume_congr (congrArg Catalogue.volumes hcat) vol).trans kv
  · exact (snapshot_congr (congrArg Catalogue.snapshots hcat) vol target).trans kq
  · exact (planOf_congr (plan_of_lasting hlast) vol).trans kp
  · refine (congrArg Offsite.nComplete hlast : _).trans (kn.trans ?_)
    rw [hframe]

/-! ### DROP_ACK -/

/-- The pending DROP of a snapshot (R144). -/
def Control.isDropOf (vol gen : Nat) : Control → Bool
  | .drop v g => v == vol && g == gen
  | .volumeDone _ _ _ _ => false

theorem exec_dropAck (hrun : s.sup.op ≠ .halted) :
    Sys2Proof.Machine.exec (.dropAck vol gen) s = .next (if s.linkUp then
      (((({ s with sent := [] } : State).answerControl (Control.isDropOf vol gen)).dropAcked vol gen).finish)
      else { s with sent := [] }) := by
  change execDropAck vol gen s [] = _
  unfold execDropAck
  refine (act_withErrs_nil _ hrun).trans (congrArg Host.Outcome.next ?_)
  refine if_congr Iff.rfl ?_ rfl
  refine congrArg (fun c => ((State.answerControl { s with sent := [] } c).dropAcked vol gen).finish)
    (funext fun c => ?_)
  cases c <;> rfl

theorem finish_snapshots (s : State) (vol gen : Nat) : s.finish.snapshot vol gen = s.snapshot vol gen := by
  obtain ⟨-, -, ⟨⟨-, -, hsnaps, -⟩, -⟩, -⟩ := finish_settles s
  exact snapshot_congr hsnaps vol gen

theorem answerControl_snapshot (s : State) (c : Control → Bool) (vol gen : Nat) :
    (s.answerControl c).snapshot vol gen = s.snapshot vol gen :=
  snapshot_congr (by rw [answerControl_eq]) vol gen

theorem dropAck_spec {q : Snapshot} {a : Bool} {c : Option Nat} (hrun : s.sup.op ≠ .halted) (hup : s.off.link = .up)
    (hq : s.snapshot vol gen = some q) (hheld : q.held = true) (hst : q.state = .dropping a c)
    (hkind : q.kind = .manual) :
    ∃ t, Sys2Proof.Machine.exec (.dropAck vol gen) s = .next t ∧
      (a = true → t.snapshot vol gen = some { q with held := false, state := .active }) ∧
      (a = false → t.snapshot vol gen = some { q with held := false, state := .dropping false (some 0) }) := by
  have hexec := exec_dropAck (vol := vol) (gen := gen) hrun
  have hb : (({ s with sent := [] } : State).answerControl (Control.isDropOf vol gen)).snapshot vol gen = some q :=
    (answerControl_snapshot _ _ _ _).trans hq
  rw [if_pos (show s.linkUp = true from decide_eq_true hup)] at hexec
  generalize State.answerControl { s with sent := [] } (Control.isDropOf vol gen) = b at hb hexec
  refine ⟨_, hexec, fun ha => ?_, fun ha => ?_⟩ <;> rw [finish_snapshots] <;> unfold State.dropAcked <;> rw [hb] <;>
    dsimp only <;> rw [hst, hheld, ha] <;> dsimp only
  · rw [hkind, retain_manual, State.snapshot_modSnapshot, hb, ← hkind]
    rfl
  · rw [State.snapshot_modSnapshot, hb]
    rfl

theorem dropAck_nothing {q : Snapshot} (hrun : s.sup.op ≠ .halted) (hq : s.snapshot vol gen = some q)
    (hno : s.off.link ≠ .up ∨ q.held = false ∨ ∀ a c, q.state ≠ .dropping a c) :
    ∃ t, Sys2Proof.Machine.exec (.dropAck vol gen) s = .next t ∧ t.snapshot vol gen = some q := by
  have hexec := exec_dropAck (vol := vol) (gen := gen) hrun
  by_cases hup : s.linkUp = true
  · rw [if_pos hup] at hexec
    have hrest := hno.resolve_left fun h => h (of_decide_eq_true hup)
    have hb : (({ s with sent := [] } : State).answerControl (Control.isDropOf vol gen)).snapshot vol gen = some q :=
      (answerControl_snapshot _ _ _ _).trans hq
    generalize State.answerControl { s with sent := [] } (Control.isDropOf vol gen) = b at hb hexec
    refine ⟨_, hexec, ?_⟩
    have hsame : b.dropAcked vol gen = b := by
      unfold State.dropAcked
      rw [hb]
      dsimp only
      rcases hrest with h | h
      · rw [h]
        split <;> simp_all
      · split
        · next hst _ => exact absurd hst (h _ _)
        · next hst _ => exact absurd hst (h _ _)
        · rfl
    rw [finish_snapshots, hsame]
    exact hb
  · rw [if_neg hup] at hexec
    exact ⟨_, hexec, hq⟩

end

end Sys2Proof.Machine

open Sys2Proof Sys2Proof.Machine

/-- Settles O49. -/
theorem peerAnswersSettleShipFrames : Obligations.PeerAnswersSettleShipFrames := by
  refine ⟨fun s f e p v n k target base x hrun hcalm hup hout hbody hvac hn hq hform hslot hx hxs hplan hv hb hd =>
      ackOne_spec hrun hcalm hup hout hbody hvac hn hq hform hslot hx hxs hplan hv hb hd,
    fun s fs rest f n hrun hcalm hup hout hfs hf hn hplan => ack_spec hrun hcalm hup hout hfs hf hn hplan,
    fun s n hrun hcalm hno => answers_nothing hrun hcalm hno,
    fun s f e p reason target base hrun hcalm hup hout hbody hvac hrec hq hplan hst => ?_,
    fun s vol target p v q hrun hcalm hup hplan hst ht hv hq => doneAck_spec hrun hcalm hup hplan hst ht hv hq,
    fun s vol gen q a c hrun hup hq hheld hst hkind => dropAck_spec hrun hup hq hheld hst hkind,
    fun s vol gen q hrun hq hno => dropAck_nothing hrun hq hno⟩
  by_cases h0 : f.naks = 0
  · obtain ⟨t, hexec, ht⟩ := firstNak_spec (reason := reason) hrun hcalm hup hout hbody hvac hrec hq h0
    exact ⟨t, hexec, fun _ => ht, fun h1 => absurd (h0.symm.trans h1) Nat.zero_ne_one⟩
  · by_cases h1 : f.naks = 1
    · obtain ⟨t, hexec, ht⟩ := secondNak_spec (reason := reason) hrun hcalm hup hout hbody hrec hplan hst h1
      exact ⟨t, hexec, fun h => absurd h h0, fun _ => ht⟩
    · exact ⟨_, exec_nak hrun, fun h => absurd h h0, fun h => absurd h h1⟩
end

section
/-! PROOF. The ack wait limit over a SHIP frame that is covered (R144, R145), and O51. -/

namespace Sys2Proof.Machine

/-- The SHIP frame of the entry below, marked received, so that the limit does not resend it. -/
def coveredShipFrame : OutFrame :=
  { num := 0, body := .ship 0 0 0 0 0 0 [0], received := true, naks := 0, vacant := false }

/-- The slot of the covered frame, which is AWAITING_ACK. -/
def coveredSlot : Slot :=
  { state := .awaitingAck, cls := .ship, holder := .shipPull 0, idx := 0, expected := 0, computed := 0, seq := some 0,
    data := [], fullOrder := 0, covered := false }

/-- An UP link in SHIP whose only outstanding frame is covered, its entry in the Ship Queue and its chunk in
slot 0; the ack wait limit has passed. -/
def coveredShipOut : State := { State.reset with
  off := { Offsite.initial with
    link := .up, dir := .ship, ackLimit := 0, outstanding := [coveredShipFrame]
    queue := [{ num := 0, vol := 0, ext := 0, birth := 0, form := .ship, chunks := [0], code := none, last := true
                failMark := false, state := .outstanding, slot := some 0 }] }
  str := { Stream.initial with slots := [(0, coveredSlot)] } }

/-- A covered frame is not resent, so its slot stays AWAITING_ACK at the limit (R145). -/
theorem ackWaitExpiry_covered (t : State) (h : Sys2Proof.Machine.exec .ackWaitExpiry coveredShipOut = .next t) :
    t.slot 0 = some coveredSlot := by
  have hslot : (match Sys2Proof.Machine.exec .ackWaitExpiry coveredShipOut with
      | .next t => t.slot 0
      | _ => none) = some coveredSlot := by decide
  rw [h] at hslot
  exact hslot

end Sys2Proof.Machine

open Sys2Proof Sys2Proof.Machine

/-- Refutes O51: its clause of the resent frames asks that the slot of every outstanding SHIP frame that is not
vacant be SENDING again, and so of one that is covered too; the model, as R145 has it and as `State.sentAgain` says
beside, does not resend a covered frame, and its slot stays AWAITING_ACK. -/
theorem not_offsiteLinkOpensFaultsAndCloses : ¬ Obligations.OffsiteLinkOpensFaultsAndCloses := by
  rintro ⟨-, -, -, hexpiry, -⟩
  obtain ⟨t, hexec, hresent, -⟩ := hexpiry coveredShipOut (by decide) (by decide) rfl (by decide) (by decide)
    (by decide)
  obtain ⟨-, -, -, -, -, hslots⟩ := hresent (by decide)
  have hsending := hslots coveredShipFrame (List.mem_singleton.mpr rfl) 0 _ 0 coveredSlot rfl rfl rfl rfl
  rw [ackWaitExpiry_covered t hexec] at hsending
  exact absurd hsending (by decide)
end

section
/-! PROOF. The direction as a step ends (R148, R149), and the slot requests of the Fetch Queue (R151). -/

namespace Sys2Proof.Machine

section
variable {s t u v : State}

/-! ### The end of a step and the direction -/

/-- The Fetch Queue, the direction, its burst and its ship turn: what the direction moves by, and what it moves. -/
def Offsite.moving (o : Offsite) : OffLink × Direction × Nat × Option Nat × List FetchEntry :=
  (o.link, o.dir, o.burst, o.shipTurn, o.fetchQueue)

/-- What a step with a link that is not DOWN leaves of the link is what the direction's moves leave, from a state whose
Fetch Queue may have gained entries that waited for room. -/
theorem finish_redirect (hstill : s.patrolStill) (hrun : s.sup.op ≠ .halted) (hlink : s.off.link ≠ .down) :
    ∃ u : State, u.off = { s.off with
        queue := u.off.queue, fetchQueue := u.off.fetchQueue, roomWaits := u.off.roomWaits } ∧
      (∀ e ∈ s.off.fetchQueue, e ∈ u.off.fetchQueue) ∧
      (s.off.roomWaits = [] → u.off.fetchQueue = s.off.fetchQueue) ∧
      s.finish.off.moving = u.redirect.off.moving := by
  obtain ⟨v, hv, -, hfinish⟩ := finish_settleLink hstill hrun
  have hserved := serveRoom_served (s := v.clearShed) (by rw [← hv] at hlink; exact hlink)
  have hframe := hserved.frame
  refine ⟨v.clearShed.serveRoom, ?_, ?_, ?_, ?_⟩
  · rw [← hv]
    rw [hframe] <;> rfl
  · rw [← hv]
    exact hserved.stays
  · intro hnone
    have hnil : v.clearShed.off.roomWaits = [] := by rw [← hv] at hnone; exact hnone
    rw [← hv]
    unfold State.serveRoom
    rw [hnil]
    rfl
  · rw [hfinish]
    rfl

/-- A direction that one move leaves as it is stays. -/
theorem redirect_fixed (h : s.redirectOnce = s) : s.redirect = s := iter_fixed h 3

/-- A direction that one move brings to rest is there after all of them. -/
theorem redirect_once (h : s.redirectOnce = t) (hfix : t.redirectOnce = t) : s.redirect = t := by
  unfold State.redirect
  rw [show (3 : Nat) = 2 + 1 from rfl, iter, h]
  exact iter_fixed hfix 2

theorem fetchWork_of (h : s.off.fetchQueue ≠ []) : s.fetchWork = true := by
  unfold State.fetchWork
  simpa using h

/-- FETCH stays while frames are outstanding or entries wait (R149). -/
theorem redirectOnce_fetch (hup : s.off.link = .up) (hdir : s.off.dir = .fetch)
    (h : s.off.outstanding ≠ [] ∨ s.off.fetchQueue ≠ []) : s.redirectOnce = s := by
  unfold State.redirectOnce
  rw [if_neg (by rw [hup]; exact fun h => h rfl), hdir]
  dsimp only
  refine if_neg fun hno => ?_
  obtain ⟨hout, hwork⟩ := (Bool.and_eq_true _ _).mp hno
  rcases h with h | h
  · exact h (List.isEmpty_iff.mp hout)
  · rw [fetchWork_of h] at hwork
    exact Bool.false_ne_true hwork

/-- A drain goes on while frames are outstanding (R149). -/
theorem redirectOnce_draining {d : DrainTarget} (hup : s.off.link = .up) (hdir : s.off.dir = .draining d)
    (hout : s.off.outstanding ≠ []) : s.redirectOnce = s := by
  unfold State.redirectOnce
  rw [if_neg (by rw [hup]; exact fun h => h rfl), hdir]
  dsimp only
  exact if_neg fun hno => hout (List.isEmpty_iff.mp hno)

/-- Fetch work in SHIP outside a ship turn begins a drain (R148). -/
theorem redirect_toFetch (hup : s.off.link = .up) (hdir : s.off.dir = .ship) (hturn : s.off.shipTurn = none)
    (hfetch : s.off.fetchQueue ≠ []) (hout : s.off.outstanding ≠ []) : s.redirect.off.dir = .draining .toFetch := by
  obtain ⟨w, hw⟩ : ∃ w, w = s.modOff fun o => { o with dir := .draining .toFetch } := ⟨_, rfl⟩
  have honce : s.redirectOnce = w := by
    unfold State.redirectOnce
    rw [if_neg (by rw [hup]; exact fun h => h rfl), hdir]
    dsimp only
    rw [hturn]
    dsimp only
    rw [if_pos (fetchWork_of hfetch), hw]
  have hrest : w.redirectOnce = w := by
    refine redirectOnce_draining (d := .toFetch) ?_ ?_ ?_ <;> rw [hw]
    · exact hup
    · rfl
    · exact hout
  rw [redirect_once honce hrest, hw]
  rfl

/-- A drain to FETCH that is over begins a burst (R149). -/
theorem redirect_drainedFetch (hup : s.off.link = .up) (hdir : s.off.dir = .draining .toFetch)
    (hfetch : s.off.fetchQueue ≠ []) (hout : s.off.outstanding = []) :
    s.redirect.off.dir = .fetch ∧ s.redirect.off.burst = 0 := by
  obtain ⟨w, hw⟩ : ∃ w, w = s.modOff Offsite.toFetch := ⟨_, rfl⟩
  have honce : s.redirectOnce = w := by
    unfold State.redirectOnce
    rw [if_neg (by rw [hup]; exact fun h => h rfl), hdir]
    dsimp only
    rw [if_pos (List.isEmpty_iff.mpr hout), if_pos (fetchWork_of hfetch), hw]
  have hrest : w.redirectOnce = w := by
    refine redirectOnce_fetch ?_ ?_ (.inr ?_) <;> rw [hw]
    · exact hup
    · rfl
    · exact hfetch
  rw [redirect_once honce hrest, hw]
  exact ⟨rfl, rfl⟩

/-- A drain to SHIP that is over begins a ship turn where a control waits (R149). -/
theorem redirect_drainedShip (hup : s.off.link = .up) (hdir : s.off.dir = .draining .toShip)
    (hctl : s.off.controls ≠ []) (hout : s.off.outstanding = []) :
    s.redirect.off.dir = .ship ∧ s.redirect.off.shipTurn = some 0 := by
  have hship (x : State) (h : x.off.controls ≠ []) : x.shipWork = true := by
    unfold State.shipWork
    simp [h]
  obtain ⟨w, hw⟩ : ∃ w, w = s.modOff Offsite.beginTurn := ⟨_, rfl⟩
  have honce : s.redirectOnce = w := by
    unfold State.redirectOnce
    rw [if_neg (by rw [hup]; exact fun h => h rfl), hdir]
    dsimp only
    rw [if_pos (List.isEmpty_iff.mpr hout), if_pos (hship s hctl), hw]
  have hwup : w.off.link = .up := by rw [hw]; exact hup
  have hwdir : w.off.dir = .ship := by rw [hw]; rfl
  have hwturn : w.off.shipTurn = some 0 := by rw [hw]; rfl
  have hwctl : w.off.controls ≠ [] := by rw [hw]; exact hctl
  have hready : w.shipReady = true := by
    unfold State.shipReady
    simp [hwctl]
  have hrest : w.redirectOnce = w := by
    unfold State.redirectOnce
    rw [if_neg (by rw [hwup]; exact fun h => h rfl), hwdir]
    dsimp only
    rw [hwturn]
    dsimp only
    rw [hready, hship w hwctl, if_neg (by simp [Config.shipTurnSize])]
    refine if_neg ?_
    simp
  rw [redirect_once honce hrest]
  exact ⟨hwdir, hwturn⟩

/-! ### Slots asked for -/

/-- What the arbiter changes beside slots and waiting requests: entries of the Ship Queue and pulls, and the items of
the Work List. -/
structure SlotWork (s t : State) : Prop where
  sup : t.sup = s.sup
  pat : s.patrolStill → t.patrolStill
  off : t.off = { s.off with queue := t.off.queue, pulls := t.off.pulls }

theorem SlotWork.refl (s : State) : SlotWork s s := ⟨rfl, id, rfl⟩

theorem SlotWork.trans (h : SlotWork s t) (k : SlotWork t u) : SlotWork s u := by
  refine ⟨k.sup.trans h.sup, fun hp => k.pat (h.pat hp), ?_⟩
  have hoff := k.off
  rw [h.off] at hoff
  exact hoff

theorem slotWork_setWaiting (s : State) (c : SlotClass) (q : List SlotReq) : SlotWork s (s.setWaiting c q) := by
  cases c <;> exact ⟨rfl, id, rfl⟩

theorem slotWork_grant (s : State) (c : SlotClass) (r : SlotReq) : SlotWork s (s.grant c r) := by
  have hslots (ws : List (Nat × Code)) (u : State) : SlotWork u (ws.foldl (State.grantSlot c r.holder) u) := by
    induction ws generalizing u with
    | nil => exact SlotWork.refl u
    | cons w ws ih =>
      rw [List.foldl_cons]
      exact SlotWork.trans (t := State.grantSlot c r.holder u w) ⟨rfl, id, rfl⟩ (ih _)
  obtain ⟨ksup, -, -, -, -, -, -, -, kpat⟩ := grant_kept (s := s) c r
  refine ⟨ksup, kpat, ?_⟩
  have hoff := (hslots r.wants s).off
  unfold State.grant
  dsimp only
  split
  · dsimp only
    rw [hoff]
  all_goals exact hoff

theorem slotWork_considerOnce (s : State) : SlotWork s s.considerOnce := by
  unfold State.considerOnce
  split
  · exact SlotWork.refl s
  · split
    · exact SlotWork.refl s
    · exact (slotWork_setWaiting s _ _).trans (slotWork_grant _ _ _)

theorem slotWork_consider (s : State) : SlotWork s s.consider :=
  iter_keeps (P := SlotWork s) (fun w hw => hw.trans (slotWork_considerOnce w)) _ (SlotWork.refl s)

theorem slotWork_takeBackOnce (s : State) : SlotWork s s.takeBackOnce := by
  unfold State.takeBackOnce
  split
  · split
    · exact SlotWork.refl s
    · next n _ => exact SlotWork.trans (t := s.handBack n) ⟨rfl, id, rfl⟩ (slotWork_consider _)
  · exact SlotWork.refl s

theorem slotWork_enqueue (s : State) (c : SlotClass) (r : SlotReq) : SlotWork s (s.enqueue c r) := by
  unfold State.enqueue
  dsimp only
  repeat' split
  all_goals exact slotWork_setWaiting s _ _

theorem slotWork_askSlots (s : State) (c : SlotClass) (r : SlotReq) : SlotWork s (s.askSlots c r) := by
  unfold State.askSlots
  split
  · exact slotWork_grant s c r
  · exact (slotWork_enqueue s c r).trans
      (iter_keeps (P := SlotWork _) (fun w hw => hw.trans (slotWork_takeBackOnce w)) _ (SlotWork.refl _))

theorem slotWork_serveHead (s : State) : SlotWork s s.serveHead := by
  unfold State.serveHead
  split
  · exact SlotWork.refl s
  · dsimp only
    split
    · exact slotWork_askSlots s _ _
    · exact SlotWork.refl s

/-- A request of class REPAIR or FETCH for one slot, with one free and none waiting in its class, is granted at once. -/
theorem askSlots_granted {c : SlotClass} {h : SlotHolder} {i : Nat} {code : Code} (hc : c = .repair ∨ c = .fetch)
    (hop : s.sup.op ≠ .holdup) (hfree : s.str.slots.length < 64) (hw : s.waiting c = []) :
    s.askSlots c { holder := h, wants := [(i, code)] } = s.grant c { holder := h, wants := [(i, code)] } := by
  have hone : 1 ≤ s.freeSlots := by
    have : s.freeSlots = 64 - s.str.slots.length := rfl
    omega
  unfold State.askSlots
  rw [hw]
  exact if_pos ⟨grantAllowed_urgent hop hone hc, rfl⟩

end

end Sys2Proof.Machine
end

section
/-! PROOF. FETCH_REQ and its answers (R94, R110, R149, R152), and O52. -/

namespace Sys2Proof.Machine

section
variable {s t u : State} {f : OutFrame} {e : FetchEntry} {rec i : Nat}

/-! ### FETCH_REQ -/

/-- A FETCH_REQ transmitted first, its burst not yet looked at (R143, R151). -/
def State.fetchSent (s : State) (e : FetchEntry) (rest : List FetchEntry) : State :=
  ((s.send (.offsite (.fetchReq s.off.reqCounter e.vol e.ext e.birth e.idx e.code))).joinList
    { num := s.off.reqCounter, body := .fetch e false, received := false, naks := 0, vacant := false }).modOff fun o =>
    { o with fetchQueue := rest, reqCounter := (s.off.reqCounter + 1) % 65536, burst := o.burst + 1 }

theorem exec_fetchReq {rest : List FetchEntry} (hrun : s.sup.op ≠ .halted) (hmay : s.fetchMay = true)
    (hq : s.off.fetchQueue = e :: rest) (hneeds : s.needsSlot e = false) :
    Sys2Proof.Machine.exec .fetchReq s =
      .next ((State.fetchSent { s with sent := [] } e rest).endBurst).finish := by
  change execFetchReq s [] = _
  unfold execFetchReq
  refine (act_withErrs_nil _ hrun).trans (congrArg Host.Outcome.next ?_)
  dsimp only
  rw [hq]
  exact if_pos ⟨hmay, hneeds⟩

theorem fetchSent_spec (s : State) (e : FetchEntry) (rest : List FetchEntry) :
    (s.fetchSent e rest).off.outstanding = s.off.outstanding ++
      [{ num := s.off.reqCounter, body := .fetch e false, received := false, naks := 0, vacant := false }] ∧
    (s.fetchSent e rest).off.fetchQueue = rest ∧
    (s.fetchSent e rest).off.reqCounter = (s.off.reqCounter + 1) % 65536 ∧
    (s.fetchSent e rest).off.burst = s.off.burst + 1 ∧ (s.fetchSent e rest).off.link = s.off.link ∧
    (s.fetchSent e rest).off.dir = s.off.dir ∧ (s.fetchSent e rest).off.controls = s.off.controls ∧
    (s.fetchSent e rest).off.phase = s.off.phase ∧ (s.fetchSent e rest).off.roomWaits = s.off.roomWaits ∧
    (s.fetchSent e rest).pat = s.pat ∧ (s.fetchSent e rest).sup = s.sup ∧
    (s.fetchSent e rest).sent =
      s.sent ++ [.offsite (.fetchReq s.off.reqCounter e.vol e.ext e.birth e.idx e.code)] := by
  unfold State.fetchSent State.joinList
  dsimp only
  split <;> exact ⟨rfl, rfl, rfl, rfl, rfl, rfl, rfl, rfl, rfl, rfl, rfl, rfl⟩

/-- The end of a burst moves the direction and the burst's count, and nothing else. -/
theorem endBurst_eq (s : State) :
    s.endBurst = { s with off.dir := s.endBurst.off.dir, off.burst := s.endBurst.off.burst } := by
  unfold State.endBurst
  repeat' split
  all_goals rfl

/-- A burst ends in a drain to SHIP or leaves the direction (R149). -/
theorem endBurst_dir (s : State) : s.endBurst.off.dir = .draining .toShip ∨ s.endBurst.off.dir = s.off.dir := by
  unfold State.endBurst
  split
  · split
    · exact .inl rfl
    · split <;> exact .inr rfl
  · exact .inr rfl

theorem endBurst_toShip (h : s.off.fetchQueue = [] ∨ 32 ≤ s.off.burst) (hctl : s.off.controls ≠ []) :
    s.endBurst.off.dir = .draining .toShip := by
  have hship : s.shipWork = true := by
    unfold State.shipWork
    simp [hctl]
  have hover : Config.burstSize ≤ s.off.burst ∨ s.fetchWork = false := by
    refine h.symm.imp id fun hnil => ?_
    unfold State.fetchWork
    rw [hnil]
    rfl
  unfold State.endBurst
  rw [if_pos hover, if_pos hship]
  rfl

theorem endBurst_again (hfetch : s.off.fetchQueue ≠ []) (hburst : 32 ≤ s.off.burst) (hctl : s.off.controls = [])
    (hphase : s.off.phase ≠ .windowOpen) : s.endBurst.off.dir = s.off.dir ∧ s.endBurst.off.burst = 0 := by
  have hship : s.shipWork = false := by
    unfold State.shipWork State.windowIsOpen
    rw [hctl, decide_eq_false hphase]
    rfl
  unfold State.endBurst
  rw [if_pos (.inl hburst), hship, if_neg Bool.false_ne_true, if_pos (fetchWork_of hfetch)]
  exact ⟨rfl, rfl⟩

theorem endBurst_on (hfetch : s.off.fetchQueue ≠ []) (hburst : s.off.burst < 32) : s.endBurst = s := by
  unfold State.endBurst
  refine if_neg fun hno => ?_
  rcases hno with h | h
  · exact absurd hburst (Nat.not_lt.mpr h)
  · exact Bool.false_ne_true (h.symm.trans (fetchWork_of hfetch))

/-- A step that ends with frames outstanding, in FETCH or in a drain, and with nobody waiting for room, leaves
direction, burst and Fetch Queue. -/
theorem finish_moving (hstill : s.patrolStill) (hrun : s.sup.op ≠ .halted) (hup : s.off.link = .up)
    (hdir : s.off.dir = .draining .toShip ∨ s.off.dir = .fetch) (hout : s.off.outstanding ≠ [])
    (hroom : s.off.roomWaits = []) : s.finish.off.moving = s.off.moving := by
  obtain ⟨v, hv, -, hqueue, hfin⟩ := finish_redirect hstill hrun (fun hno => nomatch hup.symm.trans hno)
  have hvup : v.off.link = .up := by rw [hv]; exact hup
  have hvout : v.off.outstanding ≠ [] := by rw [hv]; exact hout
  have hvdir : v.off.dir = s.off.dir := by rw [hv]
  have hfixed : v.redirectOnce = v := by
    rcases hdir with h | h
    · exact redirectOnce_draining hvup (hvdir.trans h) hvout
    · exact redirectOnce_fetch hvup (hvdir.trans h) (.inl hvout)
  rw [hfin, redirect_fixed hfixed]
  unfold Offsite.moving
  rw [hqueue hroom, hv]

/-! ### What a failing step leaves of patrol and list -/

/-- From one state to another, the Patrol Unit is as it was, and an empty outstanding-frame list stays empty. -/
structure ListEmpty (s t : State) : Prop where
  pat : t.pat = s.pat
  empty : s.off.outstanding = [] → t.off.outstanding = []

theorem ListEmpty.refl (s : State) : ListEmpty s s := ⟨rfl, id⟩

theorem ListEmpty.trans (h : ListEmpty s t) (k : ListEmpty t u) : ListEmpty s u :=
  ⟨k.pat.trans h.pat, fun he => k.empty (h.empty he)⟩

theorem ListEmpty.of_eq (hpat : t.pat = s.pat) (hoff : t.off = s.off) : ListEmpty s t :=
  ⟨hpat, fun he => (congrArg Offsite.outstanding hoff).trans he⟩

theorem listEmpty_dropStep (s : State) (rec i : Nat) : ListEmpty s (s.dropStep rec i) := by
  refine ⟨by rw [dropStep_eq], fun he => ?_⟩
  unfold State.dropStep
  rw [leavePlaces_eq]
  change s.off.outstanding.map _ = []
  rw [he]
  rfl

theorem listEmpty_unlockStep (s : State) (rec i : Nat) : ListEmpty s (s.unlockStep rec i) :=
  .of_eq (by rw [unlockStep_eq]) (by rw [unlockStep_eq])

/-- A step given up: changed, what it holds dropped, and its target unlocked. -/
theorem listEmpty_stepGone (s : State) (rec j : Nat) (g : Step → Step) :
    ListEmpty s (((s.modStep rec j g).dropStep rec j).unlockStep rec j) :=
  (ListEmpty.of_eq (s := s) (t := s.modStep rec j g) rfl rfl).trans
    ((listEmpty_dropStep _ _ _).trans (listEmpty_unlockStep _ _ _))

theorem listEmpty_foldl {g : State → Nat → State} (h : ∀ u j, ListEmpty u (g u j)) (js : List Nat) (s : State) :
    ListEmpty s (js.foldl g s) := by
  induction js generalizing s with
  | nil => exact ListEmpty.refl s
  | cons j js ih => exact (h s j).trans (ih _)

theorem listEmpty_releaseBlocks (s : State) (rec n : Nat) : ListEmpty s (s.releaseBlocks rec n) := by
  unfold State.releaseBlocks
  split
  · exact ListEmpty.refl s
  · exact .of_eq (by rw [(askRelease_eq _ _ _).1]; rfl) (by rw [(askRelease_eq _ _ _).1]; rfl)

theorem listEmpty_modActive (s : State) (person : Nat) (g : Nat → Nat) : ListEmpty s (s.modActive person g) :=
  .of_eq rfl rfl

theorem listEmpty_raiseEnd (s : State) (rec : Nat) : ListEmpty s (s.raiseEnd rec) := by
  unfold State.raiseEnd
  split
  · exact ListEmpty.refl s
  · obtain ⟨hoff, hpat, -⟩ := raise_parts s _
    exact .of_eq hpat hoff

theorem listEmpty_settlePin (s : State) (rec : Nat) : ListEmpty s (s.settlePin rec) := by
  unfold State.settlePin State.dropRestorePin
  split
  · exact ListEmpty.refl s
  · split
    · split
      · exact ListEmpty.refl s
      · split
        · exact .of_eq (by rw [dropPin_eq]; rfl) (by rw [dropPin_eq]; rfl)
        · exact ListEmpty.refl s
    · exact ListEmpty.refl s

theorem listEmpty_failStep (s : State) (rec i : Nat) (why : StepReason) : ListEmpty s (s.failStep rec i why) := by
  unfold State.failStep
  split
  · exact ListEmpty.refl s
  · split
    · exact ListEmpty.refl s
    · refine (listEmpty_stepGone s rec i fun t =>
        { t with state := .failed, reason := some why, again := false }).trans ?_
      dsimp only
      generalize State.unlockStep (State.dropStep (s.modStep rec i _) rec i) rec i = w
      split
      · refine ListEmpty.trans ?_ (listEmpty_settlePin _ rec)
        refine ListEmpty.trans ?_ (listEmpty_raiseEnd _ rec)
        refine ListEmpty.trans ?_ (listEmpty_modActive _ _ _)
        refine ListEmpty.trans ?_ (listEmpty_releaseBlocks _ rec _)
        refine ListEmpty.trans ?_ (listEmpty_foldl (fun u j => listEmpty_stepGone u rec j _) _ _)
        refine ListEmpty.trans ?_ (listEmpty_foldl (fun u j => listEmpty_stepGone u rec j _) _ _)
        exact .of_eq rfl rfl
      · exact (listEmpty_releaseBlocks w rec _).trans (listEmpty_settlePin _ rec)

end

end Sys2Proof.Machine
end

section
/-! PROOF. Answers to FETCH_REQs (R94, R110, R142, R152), and O52. -/

namespace Sys2Proof.Machine

section
variable {s t u : State} {f : OutFrame} {e : FetchEntry} {rec i num : Nat}

/-! ### The frame an answer names -/

theorem fetchFrame_single {w : Bool} (hout : s.off.outstanding = [f]) (hbody : f.body = .fetch e w) :
    s.fetchFrame f.num = some (f, e, w) := by
  unfold State.fetchFrame
  rw [hout]
  simp [hbody]

theorem fetchFrame_none (h : ∀ f ∈ s.off.outstanding, f.body.isShip = false → f.num ≠ num) :
    s.fetchFrame num = none := by
  refine List.findSome?_eq_none_iff.mpr fun f hf => ?_
  split
  · next e w hbody => exact if_neg (h f hf (by rw [hbody]; rfl))
  · rfl

/-- An answer to the only outstanding FETCH_REQ (R144, R145). -/
def State.fetchAnswered (s : State) : State :=
  { s with off := { s.off with
      outstanding := [], expiries := 0, ackStart := s.sup.elapsed, ackLimit := s.sup.settings.ackWait } }

theorem answerFetch_single (hout : s.off.outstanding = [f]) : s.answerFetch f = s.fetchAnswered := by
  unfold State.answerFetch
  rw [hout]
  simp [State.setList, State.progress, State.modOff, State.fetchAnswered]

/-! ### The answers carried out -/

theorem exec_fetchData {k : Nat} {data : List Byte} (hrun : s.sup.op ≠ .halted) (hup : s.off.link = .up)
    (hout : s.off.outstanding = [f]) (hbody : f.body = .fetch e false) (hidx : e.idx = some k)
    (hlen : data.length = 262144) : Sys2Proof.Machine.exec (.fetchData f.num data) s =
      .next (State.fetchChunk (State.fetchAnswered { s with sent := [] }) e k data).finish := by
  change execFetchData f.num data s [] = _
  unfold execFetchData
  refine (act_withErrs_nil _ hrun).trans (congrArg Host.Outcome.next ?_)
  dsimp only
  rw [show State.linkUp { s with sent := [] } = true from decide_eq_true hup,
    fetchFrame_single (s := { s with sent := [] }) hout hbody]
  dsimp only
  rw [if_neg (fun h => h hlen), if_neg Bool.false_ne_true, hidx, answerFetch_single (s := { s with sent := [] }) hout]

theorem exec_fetchEmpty {w : Bool} (hrun : s.sup.op ≠ .halted) (hup : s.off.link = .up)
    (hout : s.off.outstanding = [f]) (hbody : f.body = .fetch e w) (hidx : w = true ∨ e.idx = none) :
    Sys2Proof.Machine.exec (.fetchEmpty f.num) s = .next (State.finish (if w then
      State.fetchAnswered { s with sent := [] } else
      (State.fetchAnswered { s with sent := [] }).tellFetch e .equal)) := by
  change execFetchEmpty f.num s [] = _
  unfold execFetchEmpty
  refine (act_withErrs_nil _ hrun).trans (congrArg Host.Outcome.next ?_)
  dsimp only
  rw [show State.linkUp { s with sent := [] } = true from decide_eq_true hup,
    fetchFrame_single (s := { s with sent := [] }) hout hbody]
  dsimp only
  rw [answerFetch_single (s := { s with sent := [] }) hout]
  rcases hidx with rfl | hidx
  · rfl
  · rw [hidx]

theorem exec_fetchNone {reason : Nat} (hrun : s.sup.op ≠ .halted) (hup : s.off.link = .up)
    (hout : s.off.outstanding = [f]) (hbody : f.body = .fetch e false) :
    Sys2Proof.Machine.exec (.fetchNone f.num reason) s =
      .next ((State.fetchAnswered { s with sent := [] }).fetchNone e).finish := by
  change execFetchNone f.num reason s [] = _
  unfold execFetchNone
  refine (act_withErrs_nil _ hrun).trans (congrArg Host.Outcome.next ?_)
  dsimp only
  rw [show State.linkUp { s with sent := [] } = true from decide_eq_true hup,
    fetchFrame_single (s := { s with sent := [] }) hout hbody]
  dsimp only
  rw [if_neg Bool.false_ne_true, answerFetch_single (s := { s with sent := [] }) hout]

/-- The branch of an answer that nothing accepts (R142). -/
theorem answer_nothing (h : s.linkUp = false ∨ s.fetchFrame num = none) (g : OutFrame → FetchEntry → Bool → State) :
    (match s.linkUp, s.fetchFrame num with
      | true, some (f, e, w) => g f e w
      | _, _ => s) = s := by
  split
  · next hup hframe =>
    rcases h with h | h
    · exact nomatch h.symm.trans hup
    · exact nomatch h.symm.trans hframe
  · rfl

/-- An answer that names no FETCH_REQ of an UP link has no effect (R142). -/
theorem fetchAnswers_nothing {reason : Nat} {data : List Byte} (hrun : s.sup.op ≠ .halted)
    (hno : s.off.link ≠ .up ∨ ∀ f ∈ s.off.outstanding, f.body.isShip = false → f.num ≠ num) :
    Sys2Proof.Machine.exec (.fetchData num data) s = .next { s with sent := [] } ∧
      Sys2Proof.Machine.exec (.fetchEmpty num) s = .next { s with sent := [] } ∧
      Sys2Proof.Machine.exec (.fetchNone num reason) s = .next { s with sent := [] } := by
  obtain ⟨a, ha⟩ : ∃ a : State, a = { s with sent := [] } := ⟨_, rfl⟩
  have hnone : a.linkUp = false ∨ a.fetchFrame num = none := by
    rw [ha]
    exact hno.imp (fun h => decide_eq_false h) fun h => fetchFrame_none h
  rw [← ha]
  refine ⟨?_, ?_, ?_⟩
  · change execFetchData num data s [] = _
    unfold execFetchData
    refine (act_withErrs_nil _ hrun).trans (congrArg Host.Outcome.next ?_)
    rw [← ha]
    exact answer_nothing hnone _
  · change execFetchEmpty num s [] = _
    unfold execFetchEmpty
    refine (act_withErrs_nil _ hrun).trans (congrArg Host.Outcome.next ?_)
    rw [← ha]
    exact answer_nothing hnone _
  · change execFetchNone num reason s [] = _
    unfold execFetchNone
    refine (act_withErrs_nil _ hrun).trans (congrArg Host.Outcome.next ?_)
    rw [← ha]
    exact answer_nothing hnone _

/-! ### A chunk fetched for a step -/

/-- The step of a restore told of a fetch (R94). -/
theorem tellFetch_step (s : State) (a : ChunkAnswer) (h : e.holder = .step rec i) :
    s.tellFetch e a = s.stepFetched rec i e.idx a := by
  unfold State.tellFetch
  rw [h]

theorem fetchChunk_slot {k n : Nat} {y : Slot} {data : List Byte} (hslot : s.slotFor e.holder.slots k = some (n, y))
    (hfilling : y.state = .filling) : s.fetchChunk e k data =
      if checkCode data = y.expected then ((s.fill n data).makeFull n).tellFetch e .equal
      else (s.freeSlot n).tellFetch e .differs := by
  unfold State.fetchChunk
  rw [hslot]
  exact if_neg fun h => h hfilling

/-- A slot filled and FULL (R110). -/
theorem slot_filledFull {n : Nat} {y : Slot} (data : List Byte) (h : s.slot n = some y) :
    ((s.fill n data).makeFull n).slot n = some { y with
      data := data, computed := checkCode data, state := .full, fullOrder := s.str.nextFull } := by
  unfold State.makeFull State.fill
  dsimp only
  refine (State.slot_modSlot (s.modSlot n fun x => { x with data := data, computed := checkCode data }) n
    (fun x => { x with state := .full, fullOrder := s.str.nextFull })).trans ?_
  rw [State.slot_modSlot, h]
  rfl

/-- A chunk of a step fetched again (R94). -/
def State.fetchedAgain (s : State) (rec i k : Nat) (r : Restore) (v : Version) : State :=
  ((s.leavePlaces (.step rec i)).modStep rec i fun x => { x with refetched := sortNat (k :: x.refetched) }).askRoom
    (.step rec i) ((fetchEntries rec i r.vol (r.first + i) v).filter fun e => decide (e.idx = some k)) true

theorem stepFetched_again {k : Nat} {r : Restore} {x : Step} {v : Version} (hr : s.restore rec = some r)
    (hx : r.steps[i]? = some x) (hk : k ∉ x.refetched) (hv : s.sourceOf r i = some v) :
    s.stepFetched rec i (some k) .differs = s.fetchedAgain rec i k r v := by
  unfold State.stepFetched
  rw [hr]
  dsimp only
  rw [hx]
  dsimp only
  rw [if_neg (by simpa using hk), hv]
  rfl

theorem stepFetched_fails {k : Nat} {r : Restore} {x : Step} (hr : s.restore rec = some r)
    (hx : r.steps[i]? = some x) (hk : k ∈ x.refetched) :
    s.stepFetched rec i (some k) .differs = s.failStep rec i .code := by
  unfold State.stepFetched
  rw [hr]
  dsimp only
  rw [hx]
  dsimp only
  exact if_pos (by simpa using hk)

/-- A chunk that differed has no source left: its step fails (R94). -/
theorem stepFetched_lost {k : Nat} {r : Restore} {x : Step} (hr : s.restore rec = some r)
    (hx : r.steps[i]? = some x) (hk : k ∉ x.refetched) (hv : s.sourceOf r i = none) :
    s.stepFetched rec i (some k) .differs = s.failStep rec i .code := by
  unfold State.stepFetched
  rw [hr]
  dsimp only
  rw [hx]
  dsimp only
  rw [if_neg (by simpa using hk), hv]

/-- Room asked for changes the offsite side and what is sent. -/
theorem askRoom_spec (s : State) (h : FetchHolder) (es : List FetchEntry) (atHead : Bool) :
    (s.askRoom h es atHead).rst = s.rst ∧ (s.askRoom h es atHead).str = s.str ∧ (s.askRoom h es atHead).pat = s.pat ∧
      (s.askRoom h es atHead).sup = s.sup ∧ (s.askRoom h es atHead).off.outstanding = s.off.outstanding := by
  unfold State.askRoom State.placeFetch State.askOpening
  split
  · split <;> exact ⟨rfl, rfl, rfl, rfl, rfl⟩
  · exact ⟨rfl, rfl, rfl, rfl, rfl⟩

theorem fetchedAgain_spec {k : Nat} {r : Restore} {x : Step} (v : Version) (hr : s.restore rec = some r)
    (hx : r.steps[i]? = some x) : (s.fetchedAgain rec i k r v).str = s.str ∧ ListEmpty s (s.fetchedAgain rec i k r v) ∧
      (s.fetchedAgain rec i k r v).sup = s.sup ∧
      ∃ r' x', (s.fetchedAgain rec i k r v).restore rec = some r' ∧ r'.steps[i]? = some x' ∧ k ∈ x'.refetched ∧
        r'.state = r.state := by
  obtain ⟨w, hw⟩ : ∃ w, w = s.leavePlaces (.step rec i) := ⟨_, rfl⟩
  have hframe := leavePlaces_eq s (.step rec i)
  rw [← hw] at hframe
  obtain ⟨b, hb⟩ : ∃ b, b = w.modStep rec i fun x => { x with refetched := sortNat (k :: x.refetched) } := ⟨_, rfl⟩
  have hbr : b.restore rec = some { r with
      steps := modAt r.steps i fun x => { x with refetched := sortNat (k :: x.refetched) } } := by
    rw [hb]
    refine (State.restore_modRestore w rec _).trans ?_
    rw [restore_congr (s := s) (by rw [hframe]) rec, hr]
    rfl
  have hagain : s.fetchedAgain rec i k r v = b.askRoom (.step rec i)
      ((fetchEntries rec i r.vol (r.first + i) v).filter fun e => decide (e.idx = some k)) true := by
    unfold State.fetchedAgain
    rw [← hw, ← hb]
  obtain ⟨arst, astr, apat, asup, aout⟩ := askRoom_spec b (.step rec i)
    ((fetchEntries rec i r.vol (r.first + i) v).filter fun e => decide (e.idx = some k)) true
  rw [← hagain] at arst astr apat asup aout
  have hkeep : b.str = s.str ∧ b.pat = s.pat ∧ b.sup = s.sup ∧ b.off = s.off := by
    rw [hb, hframe]
    exact ⟨rfl, rfl, rfl, rfl⟩
  obtain ⟨bstr, bpat, bsup, boff⟩ := hkeep
  refine ⟨astr.trans bstr, ⟨apat.trans bpat, fun he => ?_⟩, asup.trans bsup, _,
    { x with refetched := sortNat (k :: x.refetched) }, (restore_congr arst rec).trans hbr, ?_, ?_, rfl⟩
  · rw [aout, boff]
    exact he
  · change (modAt r.steps i _)[i]? = _
    rw [getElem?_modAt, if_pos rfl, hx]
    rfl
  · exact mem_sortNat.mpr List.mem_cons_self

end

end Sys2Proof.Machine
end

section
/-! PROOF. The Fetch Queue served, its requests answered, and the direction (R148 to R152): O52. -/

namespace Sys2Proof.Machine

section
variable {s t u : State} {f : OutFrame} {e : FetchEntry} {rec i num : Nat}

/-! ### The queue served -/

/-- The head of the Fetch Queue, for a chunk of a step, takes a free slot (R151). -/
theorem serve_takesSlot {k m : Nat} (hrun : s.sup.op ≠ .halted) (hop : s.sup.op ≠ .holdup) (hcalm : s.calm)
    (hup : s.off.link = .up) (hdir : s.off.dir = .fetch) (hq : s.off.fetchQueue = [e]) (hh : e.holder = .step rec i)
    (hidx : e.idx = some k) (hnone : s.slotFor (.step rec i) k = none) (hw : s.str.waitFetch = [])
    (hlen : s.str.slots.length < 64) (hm : m < 64) (hfree : s.slot m = none) :
    ∃ t n x, Sys2Proof.Machine.exec .fetchQueueServe s = .next t ∧ s.slot n = none ∧ t.slot n = some x ∧
      x.state = .filling ∧ x.cls = .fetch ∧ x.holder = .step rec i ∧ x.idx = k ∧ x.expected = e.code := by
  let a : State := { s with sent := [] }
  have hslots : e.holder.slots = .step rec i := by rw [hh]; rfl
  have hcls : e.cls = .fetch := by
    unfold FetchEntry.cls FetchEntry.isRepair
    rw [hh]
    rfl
  have hserve : a.serveHead = a.grant .fetch { holder := .step rec i, wants := [(k, e.code)] } := by
    rw [serveHead_single (s := a) hq hidx (by rw [hslots]; exact hnone) (by rw [hcls]; exact hw), hslots, hcls]
    exact askSlots_granted (.inr rfl) hop hlen hw
  obtain ⟨-, hlow⟩ := lowestSlot_spec (s := a) hm hfree
  have hgrant := grant_one (s := a) .fetch (.step rec i) k e.code
  obtain ⟨ksup, -, -, -, -, -, -, -, kpat⟩ :=
    grant_kept (s := a) .fetch { holder := .step rec i, wants := [(k, e.code)] }
  have hexec := exec_fetchQueueServe hrun hup (fun hno => nomatch hdir.symm.trans hno)
  rw [show State.serveHead { s with sent := [] } = _ from hserve] at hexec
  generalize a.grant .fetch { holder := .step rec i, wants := [(k, e.code)] } = w at hexec hgrant ksup kpat
  have hstill : w.patrolStill := kpat hcalm.2
  have hwrun : w.sup.op ≠ .halted := by rw [ksup]; exact hrun
  refine ⟨w.finish, a.lowestSlot, grantedSlot .fetch (.step rec i) k e.code, hexec, hlow, ?_, rfl, rfl, rfl, rfl, rfl⟩
  rw [finish_slots hstill hwrun, State.slot, hgrant]
  exact tget_tput_self _ _ _

/-- Fetch work in SHIP outside a ship turn, with frames outstanding, begins a drain to FETCH (R148). -/
theorem serve_drains (hrun : s.sup.op ≠ .halted) (hcalm : s.calm) (hup : s.off.link = .up) (hdir : s.off.dir = .ship)
    (hturn : s.off.shipTurn = none) (hq : s.off.fetchQueue ≠ []) (hout : s.off.outstanding ≠ []) :
    ∃ t, Sys2Proof.Machine.exec .fetchQueueServe s = .next t ∧ t.off.dir = .draining .toFetch := by
  have hexec := exec_fetchQueueServe hrun hup (fun hno => nomatch hdir.symm.trans hno)
  obtain ⟨ksup, kpat, koff⟩ := slotWork_serveHead { s with sent := [] }
  generalize State.serveHead { s with sent := [] } = w at hexec ksup kpat koff
  have hwup : w.off.link = .up := by rw [koff]; exact hup
  have hwrun : w.sup.op ≠ .halted := by rw [ksup]; exact hrun
  obtain ⟨v, hv, hstays, -, hfin⟩ := finish_redirect (kpat hcalm.2) hwrun (fun hno => nomatch hwup.symm.trans hno)
  refine ⟨w.finish, hexec, (congrArg (fun x : _ × _ × _ => x.2.1) hfin : _).trans (redirect_toFetch ?_ ?_ ?_ ?_ ?_)⟩
  · rw [hv]; exact hwup
  · rw [hv, koff]; exact hdir
  · rw [hv, koff]; exact hturn
  · obtain ⟨x, hx⟩ := List.exists_mem_of_ne_nil _ hq
    exact List.ne_nil_of_mem (hstays x (by rw [koff]; exact hx))
  · rw [hv, koff]; exact hout

/-! ### A request sent -/

/-- A FETCH_REQ transmitted, and what the burst's end makes of the direction (R149, R151). -/
theorem fetchReq_spec {rest : List FetchEntry} (hrun : s.sup.op ≠ .halted) (hcalm : s.calm) (hmay : s.fetchMay = true)
    (hq : s.off.fetchQueue = e :: rest) (hroom : s.off.roomWaits = []) (hneeds : s.needsSlot e = false) :
    ∃ t, Sys2Proof.Machine.exec .fetchReq s = .next t ∧
      t.off.outstanding = s.off.outstanding ++
        [{ num := s.off.reqCounter, body := .fetch e false, received := false, naks := 0, vacant := false }] ∧
      t.off.fetchQueue = rest ∧ t.off.reqCounter = (s.off.reqCounter + 1) % 65536 ∧
      Output.offsite (.fetchReq s.off.reqCounter e.vol e.ext e.birth e.idx e.code) ∈ t.sent ∧
      (rest = [] ∨ 31 ≤ s.off.burst → s.off.controls ≠ [] → t.off.dir = .draining .toShip) ∧
      (rest ≠ [] → 31 ≤ s.off.burst → s.off.controls = [] → s.off.phase ≠ .windowOpen →
        t.off.dir = .fetch ∧ t.off.burst = 0) ∧
      (rest ≠ [] → s.off.burst < 31 → t.off.dir = .fetch ∧ t.off.burst = s.off.burst + 1) := by
  have hexec := exec_fetchReq hrun hmay hq hneeds
  have hlinkdir : s.off.link = .up ∧ s.off.dir = .fetch := by
    unfold State.fetchMay State.linkUp at hmay
    simp only [Bool.and_eq_true, decide_eq_true_eq] at hmay
    exact ⟨hmay.1.1.1, hmay.1.1.2⟩
  obtain ⟨hup, hdir⟩ := hlinkdir
  have hspec := fetchSent_spec { s with sent := [] } e rest
  generalize State.fetchSent { s with sent := [] } e rest = b at hexec hspec
  obtain ⟨bout, bq, breq, bburst, blink, bdir, bctl, bphase, broom, bpat, bsup, bsent⟩ := hspec
  have hframe := endBurst_eq b
  have hdirs := endBurst_dir b
  have htoShip := endBurst_toShip (s := b)
  have hagain := endBurst_again (s := b)
  have hon := endBurst_on (s := b)
  generalize b.endBurst = w at hexec hframe hdirs htoShip hagain hon
  have hwstill : w.patrolStill := by
    unfold State.patrolStill
    rw [hframe, bpat]
    exact hcalm.2
  have hwrun : w.sup.op ≠ .halted := by
    rw [hframe, bsup]
    exact hrun
  have hwup : w.off.link = .up := by
    rw [hframe]
    exact blink.trans hup
  have hwout : w.off.outstanding = s.off.outstanding ++
      [{ num := s.off.reqCounter, body := .fetch e false, received := false, naks := 0, vacant := false }] := by
    rw [hframe]
    exact bout
  have hwdir : w.off.dir = .draining .toShip ∨ w.off.dir = .fetch :=
    hdirs.imp id fun h => h.trans (bdir.trans hdir)
  have hmoving := finish_moving hwstill hwrun hwup hwdir
    (by rw [hwout]; exact List.append_ne_nil_of_right_ne_nil _ (by simp))
    (by rw [hframe]; exact broom.trans hroom)
  have hlast := (finish_lasting hwstill hwrun).1
  have hcounters := finish_counters hwstill hwrun (fun hno => nomatch hwup.symm.trans hno)
  have hfdir : w.finish.off.dir = w.off.dir := (congrArg (fun x : _ × _ × _ => x.2.1) hmoving : _)
  have hfburst : w.finish.off.burst = w.off.burst := (congrArg (fun x : _ × _ × _ × _ => x.2.2.1) hmoving : _)
  have hfq : w.finish.off.fetchQueue = w.off.fetchQueue :=
    (congrArg (fun x : _ × _ × _ × _ × _ => x.2.2.2.2) hmoving : _)
  have hfreq : w.finish.off.reqCounter = w.off.reqCounter :=
    (congrArg (fun x : (_ × _ × _) × _ => x.1.2.1) hcounters : _)
  refine ⟨w.finish, hexec, (congrArg Offsite.outstanding hlast : _).trans hwout, ?_, ?_, mem_sent_finish ?_, ?_, ?_, ?_⟩
  · rw [hfq, hframe]
    exact bq
  · rw [hfreq, hframe]
    exact breq
  · rw [hframe, bsent]
    exact List.mem_append_right _ (List.mem_singleton.mpr rfl)
  · intro hover hctl
    rw [hfdir]
    refine htoShip (hover.imp (fun h => bq.trans h) fun h => ?_) (by rw [bctl]; exact hctl)
    rw [bburst]
    exact Nat.succ_le_succ h
  · intro hrest hburst hctl hphase
    rw [hfdir, hfburst]
    obtain ⟨h1, h2⟩ := hagain (by rw [bq]; exact hrest) (by rw [bburst]; exact Nat.succ_le_succ hburst)
      (bctl.trans hctl) (by rw [bphase]; exact hphase)
    exact ⟨h1.trans (bdir.trans hdir), h2⟩
  · intro hrest hburst
    have hsame := hon (by rw [bq]; exact hrest) (by rw [bburst]; exact Nat.succ_lt_succ hburst)
    rw [hfdir, hfburst, hsame]
    exact ⟨bdir.trans hdir, bburst⟩

/-! ### A chunk received -/

theorem fetchData_spec {k n : Nat} {data : List Byte} {r : Restore} {x : Step} {y : Slot} (hrun : s.sup.op ≠ .halted)
    (hcalm : s.calm) (hup : s.off.link = .up) (hout : s.off.outstanding = [f]) (hbody : f.body = .fetch e false)
    (hh : e.holder = .step rec i) (hidx : e.idx = some k) (hfor : s.slotFor (.step rec i) k = some (n, y))
    (hy : s.slot n = some y) (hfilling : y.state = .filling) (hlen : data.length = 262144)
    (hr : s.restore rec = some r) (hx : r.steps[i]? = some x) :
    ∃ t, Sys2Proof.Machine.exec (.fetchData f.num data) s = .next t ∧ t.off.outstanding = [] ∧
      (checkCode data = y.expected → t.rst = s.rst ∧ t.slot n = some { y with
        data := data, computed := checkCode data, state := .full, fullOrder := s.str.nextFull }) ∧
      (checkCode data ≠ y.expected → k ∉ x.refetched → ∀ v, s.sourceOf r i = some v →
        t.slot n = none ∧ ∃ r' x', t.restore rec = some r' ∧ r'.steps[i]? = some x' ∧ k ∈ x'.refetched ∧
          r'.state = r.state) ∧
      (checkCode data ≠ y.expected → k ∈ x.refetched → r.state = .running → x.state = .fetching →
        ∃ r', t.restore rec = some r' ∧ r'.state = .failed ∧ r'.failedStep = some (i, .code)) := by
  obtain ⟨b, hb⟩ : ∃ b : State, b = State.fetchAnswered { s with sent := [] } := ⟨_, rfl⟩
  have hexec := exec_fetchData hrun hup hout hbody hidx hlen
  rw [← hb] at hexec
  have hbout : b.off.outstanding = [] := by rw [hb]; rfl
  have hbkeep : b.str = s.str ∧ b.rst = s.rst ∧ b.pat = s.pat ∧ b.sup = s.sup ∧ b.cat = s.cat := by
    rw [hb]
    exact ⟨rfl, rfl, rfl, rfl, rfl⟩
  obtain ⟨bstr, brst, bpat, bsup, bcat⟩ := hbkeep
  have hbfor : b.slotFor e.holder.slots k = some (n, y) := by
    rw [hh]
    unfold State.slotFor
    rw [bstr]
    exact hfor
  have hby : b.slot n = some y := by
    rw [State.slot, bstr]
    exact hy
  rw [fetchChunk_slot hbfor hfilling, tellFetch_step _ _ hh, tellFetch_step _ _ hh, hidx] at hexec
  by_cases hcode : checkCode data = y.expected
  · rw [if_pos hcode] at hexec
    obtain ⟨w, hw⟩ : ∃ w, w = (b.fill n data).makeFull n := ⟨_, rfl⟩
    have hwslot := slot_filledFull data hby
    rw [← hw] at hexec hwslot
    have hwkeep : w.rst = b.rst ∧ w.pat = b.pat ∧ w.sup = b.sup ∧ w.off = b.off := by
      rw [hw]
      exact ⟨rfl, rfl, rfl, rfl⟩
    obtain ⟨wrst, wpat, wsup, woff⟩ := hwkeep
    have htold : w.stepFetched rec i (some k) .equal = w := by
      unfold State.stepFetched
      rw [restore_congr (s := s) (wrst.trans brst) rec, hr]
      dsimp only
      rw [hx]
    rw [htold] at hexec
    have hstill : w.patrolStill := by
      unfold State.patrolStill
      rw [wpat, bpat]
      exact hcalm.2
    have hwrun : w.sup.op ≠ .halted := by
      rw [wsup, bsup]
      exact hrun
    have hlast := (finish_lasting hstill hwrun).1
    refine ⟨w.finish, hexec, (congrArg Offsite.outstanding hlast : _).trans ?_, fun _ => ⟨?_, ?_⟩,
      fun h => absurd hcode h, fun h => absurd hcode h⟩
    · rw [woff]
      exact hbout
    · rw [finish_rst, wrst, brst]
    · rw [finish_slots hstill hwrun, hwslot, bstr]
  · rw [if_neg hcode] at hexec
    obtain ⟨w, hw⟩ : ∃ w, w = b.freeSlot n := ⟨_, rfl⟩
    rw [← hw] at hexec
    have hwslot : w.slot n = none := by
      rw [hw]
      exact State.slot_freeSlot b n
    have hwkeep : w.rst = b.rst ∧ w.pat = b.pat ∧ w.sup = b.sup ∧ w.off = b.off ∧ w.cat = b.cat := by
      rw [hw]
      exact ⟨rfl, rfl, rfl, rfl, rfl⟩
    obtain ⟨wrst, wpat, wsup, woff, wcat⟩ := hwkeep
    have hwr : w.restore rec = some r := (restore_congr (s := s) (wrst.trans brst) rec).trans hr
    have hwempty : w.off.outstanding = [] := by
      rw [woff]
      exact hbout
    have hfinal (q : State) (hlist : ListEmpty w q) (hop : q.sup.op = w.sup.op) :
        q.patrolStill ∧ q.sup.op ≠ .halted ∧ q.finish.off.outstanding = [] := by
      have hstill : q.patrolStill := by
        unfold State.patrolStill
        rw [hlist.pat, wpat, bpat]
        exact hcalm.2
      have hqrun : q.sup.op ≠ .halted := by
        rw [hop, wsup, bsup]
        exact hrun
      have hlast := (finish_lasting hstill hqrun).1
      exact ⟨hstill, hqrun, (congrArg Offsite.outstanding hlast : _).trans (hlist.empty hwempty)⟩
    have hfails : (w.failStep rec i .code).finish.off.outstanding = [] :=
      (hfinal _ (listEmpty_failStep w rec i .code) (supKept_failStep rec i .code (supKept_refl w.sup)).1).2.2
    by_cases hk : k ∈ x.refetched
    · rw [stepFetched_fails hwr hx hk] at hexec
      refine ⟨_, hexec, hfails, fun h => absurd h hcode, fun _ h => absurd hk h, fun _ _ hst hxs => ?_⟩
      obtain ⟨q, hq, hqst, -, hqf⟩ := failStep_fails (s := w) .code hwr (by rw [hst]; rfl) hx (by
        unfold Step.ended
        rw [hxs]
        rfl)
      refine ⟨q, ?_, hqst, hqf⟩
      rw [State.restore, finish_rst]
      exact hq
    · cases hsrc : w.sourceOf r i with
      | none =>
        rw [stepFetched_lost hwr hx hk hsrc] at hexec
        have hsource : s.sourceOf r i = none := by
          rw [← hsrc]
          unfold State.sourceOf State.extent
          rw [wcat, bcat]
        refine ⟨_, hexec, hfails, fun h => absurd h hcode, fun _ _ v hv => ?_, fun _ h => absurd h hk⟩
        exact nomatch hsource.symm.trans hv
      | some v =>
        rw [stepFetched_again hwr hx hk hsrc] at hexec
        obtain ⟨qstr, qlist, qsup, r', x', hr', hx', hmem, hst⟩ := fetchedAgain_spec (k := k) v hwr hx
        obtain ⟨qstill, qrun, qout⟩ := hfinal _ qlist (congrArg Supervisor.op qsup)
        refine ⟨_, hexec, qout, fun h => absurd h hcode, fun _ _ _ _ => ⟨?_, r', x', ?_, hx', hmem, hst⟩,
          fun _ h => absurd h hk⟩
        · rw [finish_slots qstill qrun, State.slot, qstr]
          exact hwslot
        · rw [State.restore, finish_rst]
          exact hr'

/-! ### FETCH_EMPTY and FETCH_NONE -/

theorem fetchEmpty_marks {r : Restore} {x : Step} (hrun : s.sup.op ≠ .halted) (hup : s.off.link = .up)
    (hout : s.off.outstanding = [f]) (hbody : f.body = .fetch e false) (hh : e.holder = .step rec i)
    (hr : s.restore rec = some r) (hx : r.steps[i]? = some x) (hidx : e.idx = none) :
    ∃ t, Sys2Proof.Machine.exec (.fetchEmpty f.num) s = .next t ∧
      t.restore rec = some { r with steps := r.steps.set i { x with marker := true } } := by
  have hexec := exec_fetchEmpty hrun hup hout hbody (.inr hidx)
  rw [if_neg Bool.false_ne_true, tellFetch_step _ _ hh, hidx] at hexec
  obtain ⟨b, hb⟩ : ∃ b : State, b = State.fetchAnswered { s with sent := [] } := ⟨_, rfl⟩
  rw [← hb] at hexec
  have hbr : b.restore rec = some r := by
    rw [hb]
    exact hr
  have htold : b.stepFetched rec i none .equal = b.modStep rec i fun x => { x with marker := true } := by
    unfold State.stepFetched
    rw [hbr]
    dsimp only
    rw [hx]
  refine ⟨_, hexec, ?_⟩
  rw [State.restore, finish_rst, htold]
  refine (State.restore_modRestore b rec _).trans ?_
  rw [hbr]
  refine congrArg (fun xs => some { r with steps := xs }) ?_
  refine List.ext_getElem? fun j => ?_
  rw [getElem?_modAt, List.getElem?_set]
  by_cases hj : i = j
  · subst hj
    have hlt : i < r.steps.length := (List.getElem?_eq_some_iff.mp hx).1
    rw [if_pos rfl, if_pos rfl, if_pos hlt, hx]
    rfl
  · rw [if_neg hj, if_neg hj]

theorem fetchNone_fails {r : Restore} {x : Step} (hrun : s.sup.op ≠ .halted) (hup : s.off.link = .up)
    (hout : s.off.outstanding = [f]) (hbody : f.body = .fetch e false) (hh : e.holder = .step rec i)
    (hr : s.restore rec = some r) (hx : r.steps[i]? = some x) (hst : r.state = .running) (hxs : x.state = .fetching) :
    ∃ t r', Sys2Proof.Machine.exec (.fetchNone f.num 1) s = .next t ∧ t.restore rec = some r' ∧ r'.state = .failed ∧
      r'.failedStep = some (i, .fetchNone) := by
  have hexec := exec_fetchNone (reason := 1) hrun hup hout hbody
  obtain ⟨w, hw⟩ : ∃ w, w = (State.fetchAnswered { s with sent := [] }).freeFilling e := ⟨_, rfl⟩
  have hwr : w.restore rec = some r := by
    rw [hw]
    unfold State.freeFilling
    split <;> exact hr
  have htold : (State.fetchAnswered { s with sent := [] }).fetchNone e = w.failStep rec i .fetchNone := by
    unfold State.fetchNone
    rw [← hw, tellFetch_step _ _ hh]
    unfold State.stepFetched
    rw [hwr]
    dsimp only
    rw [hx]
    cases e.idx <;> rfl
  rw [htold] at hexec
  obtain ⟨q, hq, hqst, -, hqf⟩ := failStep_fails (s := w) .fetchNone hwr (by rw [hst]; rfl) hx (by
    unfold Step.ended
    rw [hxs]
    rfl)
  refine ⟨_, q, hexec, ?_, hqst, hqf⟩
  rw [State.restore, finish_rst]
  exact hq

/-! ### The drains' ends -/

theorem ack_drained (hrun : s.sup.op ≠ .halted) (hcalm : s.calm) (hup : s.off.link = .up)
    (hdir : s.off.dir = .draining .toFetch) (hout : s.off.outstanding = [f])
    (hship : ∃ num vol ext birth target base cs, f.body = .ship num vol ext birth target base cs)
    (hq : s.off.fetchQueue ≠ []) : ∃ t, Sys2Proof.Machine.exec (.ack f.num) s = .next t ∧ t.off.outstanding = [] ∧
      t.off.dir = .fetch ∧ t.off.burst = 0 := by
  let a : State := { s with sent := [] }
  obtain ⟨num, vol, ext, birth, target, base, cs, hbody⟩ := hship
  have hisShip : f.body.isShip = true := by rw [hbody]; rfl
  have hremains : f.remains = none := by
    unfold OutFrame.remains
    rw [hbody]
  have hack : a.ack f.num = a.acked [f] [] :=
    ack_append (s := a) (fs := []) (rest := []) hout (fun _ h => nomatch h) hisShip rfl
  obtain ⟨wout, -, wlink, wpat, wsup, -⟩ := acked_spec a [f] []
  have hcover := (acknowledged_fold [f] (a.setList ([f].filterMap OutFrame.remains ++ []))).1.frame
  have hwdir : (a.acked [f] []).off.dir = s.off.dir ∧ (a.acked [f] []).off.fetchQueue = s.off.fetchQueue := by
    unfold State.acked
    dsimp only
    generalize List.foldl State.coverFrame (a.setList ([f].filterMap OutFrame.remains ++ [])) [f] = c at hcover ⊢
    have hc : c.off.dir = s.off.dir ∧ c.off.fetchQueue = s.off.fetchQueue := by
      rw [hcover]
      exact ⟨rfl, rfl⟩
    split <;> exact hc
  obtain ⟨wdir, wq⟩ := hwdir
  have hexec := exec_ack (n := f.num) hrun
  rw [if_pos (show s.linkUp = true from decide_eq_true hup), show State.ack { s with sent := [] } f.num = _ from hack]
    at hexec
  generalize a.acked [f] [] = w at hexec wout wlink wpat wsup wdir wq
  have hwout : w.off.outstanding = [] := by
    rw [wout, List.filterMap_cons, hremains]
    rfl
  have hstill : w.patrolStill := by
    unfold State.patrolStill
    rw [wpat]
    exact hcalm.2
  have hwrun : w.sup.op ≠ .halted := by rw [wsup]; exact hrun
  have hwup : w.off.link = .up := wlink.trans hup
  have hlast := (finish_lasting hstill hwrun).1
  obtain ⟨v, hv, hstays, -, hfin⟩ := finish_redirect hstill hwrun (fun hno => nomatch hwup.symm.trans hno)
  obtain ⟨x, hx⟩ := List.exists_mem_of_ne_nil _ hq
  obtain ⟨hfetch, hburst⟩ := redirect_drainedFetch (s := v) (by rw [hv]; exact hwup)
    (by rw [hv]; exact wdir.trans hdir) (List.ne_nil_of_mem (hstays x (by rw [wq]; exact hx)))
    (by rw [hv]; exact hwout)
  exact ⟨w.finish, hexec, (congrArg Offsite.outstanding hlast : _).trans hwout,
    (congrArg (fun x : _ × _ × _ => x.2.1) hfin : _).trans hfetch,
    (congrArg (fun x : _ × _ × _ × _ => x.2.2.1) hfin : _).trans hburst⟩

theorem fetchEmpty_drained (hrun : s.sup.op ≠ .halted) (hcalm : s.calm) (hup : s.off.link = .up)
    (hdir : s.off.dir = .draining .toShip) (hout : s.off.outstanding = [f]) (hbody : f.body = .fetch e true)
    (hctl : s.off.controls ≠ []) : ∃ t, Sys2Proof.Machine.exec (.fetchEmpty f.num) s = .next t ∧
      t.off.outstanding = [] ∧ t.off.dir = .ship ∧ t.off.shipTurn = some 0 := by
  have hexec := exec_fetchEmpty hrun hup hout hbody (.inl rfl)
  rw [if_pos rfl] at hexec
  obtain ⟨w, hw⟩ : ∃ w : State, w = State.fetchAnswered { s with sent := [] } := ⟨_, rfl⟩
  rw [← hw] at hexec
  have hwup : w.off.link = .up := by rw [hw]; exact hup
  have hwout : w.off.outstanding = [] := by rw [hw]; rfl
  have hwdir : w.off.dir = .draining .toShip := by rw [hw]; exact hdir
  have hwctl : w.off.controls ≠ [] := by rw [hw]; exact hctl
  have hstill : w.patrolStill := by
    rw [hw]
    exact hcalm.2
  have hwrun : w.sup.op ≠ .halted := by
    rw [hw]
    exact hrun
  have hlast := (finish_lasting hstill hwrun).1
  obtain ⟨v, hv, -, -, hfin⟩ := finish_redirect hstill hwrun (fun hno => nomatch hwup.symm.trans hno)
  obtain ⟨hship, hturn⟩ := redirect_drainedShip (s := v) (by rw [hv]; exact hwup) (by rw [hv]; exact hwdir)
    (by rw [hv]; exact hwctl) (by rw [hv]; exact hwout)
  exact ⟨w.finish, hexec, (congrArg Offsite.outstanding hlast : _).trans hwout,
    (congrArg (fun x : _ × _ × _ => x.2.1) hfin : _).trans hship,
    (congrArg (fun x : _ × _ × _ × _ × _ => x.2.2.2.1) hfin : _).trans hturn⟩

end

end Sys2Proof.Machine

open Sys2Proof Sys2Proof.Machine

/-- Settles O52. -/
theorem fetchesAreServedAndAnswered : Obligations.FetchesAreServedAndAnswered := by
  refine ⟨fun s e rec i k m hrun hop hcalm hup hdir hq _ hh hidx hnone _ hw hlen hm hfree =>
      serve_takesSlot hrun hop hcalm hup hdir hq hh hidx hnone hw hlen hm hfree, ?_,
    fun s f e rec i k n data r x y hrun hcalm hup hout hbody hh hidx hfor hy hfilling hlen hr hx =>
      fetchData_spec hrun hcalm hup hout hbody hh hidx hfor hy hfilling hlen hr hx,
    fun s f e rec i r x hrun hup hout hbody hh hr hx =>
      ⟨fetchEmpty_marks hrun hup hout hbody hh hr hx, fetchNone_fails hrun hup hout hbody hh hr hx⟩,
    fun s num reason data hrun hno => fetchAnswers_nothing hrun hno,
    fun s hrun hcalm hup hdir hturn hq hout => serve_drains hrun hcalm hup hdir hturn hq hout, ?_,
    fun s f hrun hcalm hup hdir hout hship hq => ack_drained hrun hcalm hup hdir hout hship hq,
    fun s f e hrun hcalm hup hdir hout hbody hctl => fetchEmpty_drained hrun hcalm hup hdir hout hbody hctl⟩
  · intro s e rest hrun hcalm hmay hq hroom hneeds
    obtain ⟨t, hexec, hout, hq', hreq, hsent, -⟩ := fetchReq_spec hrun hcalm hmay hq hroom hneeds
    exact ⟨t, _, hexec, hout, rfl, rfl, hq', hreq, hsent⟩
  · intro s e rest hrun hcalm hmay hq hroom hneeds
    obtain ⟨t, hexec, -, -, -, -, hdirs⟩ := fetchReq_spec hrun hcalm hmay hq hroom hneeds
    exact ⟨t, hexec, hdirs⟩
end

section
/-! PROOF. Power-on and the first initialisation (R184, R189, R190): O11, O12. -/

namespace Sys2Proof.Machine

section
variable {s t u : State} {rec i : Nat} {sup0 : Supervisor}

/-! ### No Attach in progress stays so as double errors are met -/

theorem attaching_of_settles (h : Settles s t) : t.cat.attaching = s.cat.attaching := by
  obtain ⟨-, -, ⟨⟨-, hatt, -⟩, -⟩, -⟩ := h
  exact hatt

theorem attaching_of_others {o : Catalogue × RestoreEngine × Stream × Offsite × Patrol} (h : t.others = o) :
    t.cat.attaching = o.1.attaching := congrArg (fun x : Catalogue × _ => x.1.attaching) h

/-- What a failed step, or a failed restore, gives up leaves the Attaches in progress. -/
def AttachKept (s t : State) : Prop := t.cat.attaching = s.cat.attaching

theorem attachKept_stepGone (s : State) (rec j : Nat) (g : Step → Step) :
    AttachKept s (((s.modStep rec j g).dropStep rec j).unlockStep rec j) := by
  unfold AttachKept
  rw [unlockStep_eq, dropStep_eq]
  rfl

theorem attachKept_foldl {g : State → Nat → State} (h : ∀ u j, AttachKept u (g u j)) (js : List Nat) (s : State) :
    AttachKept s (js.foldl g s) := by
  induction js generalizing s with
  | nil => exact rfl
  | cons j js ih => exact Eq.trans (ih _) (h s j)

theorem attachKept_releaseBlocks (s : State) (rec n : Nat) : AttachKept s (s.releaseBlocks rec n) := by
  unfold State.releaseBlocks
  split
  · exact rfl
  · unfold AttachKept
    rw [(askRelease_eq _ _ _).1]
    rfl

theorem attachKept_raiseEnd (s : State) (rec : Nat) : AttachKept s (s.raiseEnd rec) := by
  unfold State.raiseEnd
  split
  · exact rfl
  · unfold AttachKept
    rw [raise_eq]

theorem attachKept_dropRestorePin (s : State) (rec : Nat) : AttachKept s (s.dropRestorePin rec) := by
  unfold State.dropRestorePin
  split
  · exact rfl
  · split
    · unfold AttachKept
      rw [dropPin_eq]
      rfl
    · exact rfl

theorem attachKept_settlePin (s : State) (rec : Nat) : AttachKept s (s.settlePin rec) := by
  unfold State.settlePin
  split
  · exact rfl
  · split
    · exact attachKept_dropRestorePin s rec
    · exact rfl

theorem attachKept_failStep (s : State) (rec i : Nat) (why : StepReason) : AttachKept s (s.failStep rec i why) := by
  unfold State.failStep
  split
  · exact rfl
  · split
    · exact rfl
    · refine Eq.trans ?_ (attachKept_stepGone s rec i fun t =>
        { t with state := .failed, reason := some why, again := false })
      dsimp only
      generalize State.unlockStep (State.dropStep (s.modStep rec i _) rec i) rec i = w
      split
      · refine (attachKept_settlePin _ rec).trans ((attachKept_raiseEnd _ rec).trans ?_)
        refine (attachKept_releaseBlocks _ rec _).trans ?_
        refine (attachKept_foldl (fun u j => attachKept_stepGone u rec j _) _ _).trans ?_
        exact (attachKept_foldl (fun u j => attachKept_stepGone u rec j _) _ _)
      · exact (attachKept_settlePin _ rec).trans (attachKept_releaseBlocks w rec _)

theorem attachKept_stepFetched (s : State) (rec i : Nat) (idx : Option Nat) (a : ChunkAnswer) :
    AttachKept s (s.stepFetched rec i idx a) := by
  unfold State.stepFetched
  split
  · exact rfl
  · split
    · exact rfl
    · exact rfl
    · split
      · exact attachKept_failStep s rec i _
      · split
        · refine (attaching_of_settles (settles_askRoom (s0 := _) _ _ _ (Settles.refl _))).trans ?_
          rw [leavePlaces_eq]
          rfl
        · exact attachKept_failStep s rec i _
    all_goals first
      | exact attachKept_failStep s rec i _
      | exact rfl

theorem attachKept_modRestore (s : State) (rec : Nat) (f : Restore → Restore) : AttachKept s (s.modRestore rec f) := rfl

theorem attachKept_orphanSteps (s : State) (rec : Nat) : AttachKept s (s.orphanSteps rec) := by
  have hslots (l : Link) (d : Directive) (u : State) : AttachKept u (u.orphanSlots l rec d) := by
    unfold State.orphanSlots
    split
    · split <;> exact rfl
    · exact rfl
  have hone (l : Link) (ds : List Directive) (u : State) :
      AttachKept u (ds.foldl (fun s d => s.orphanSlots l rec d) u) := by
    induction ds generalizing u with
    | nil => exact rfl
    | cons d ds ih => exact Eq.trans (ih _) (hslots l d u)
  unfold State.orphanSteps
  generalize allLinks = ls
  induction ls generalizing s with
  | nil => exact rfl
  | cons l ls ih => exact Eq.trans (ih _) (hone l _ s)

theorem attachKept_releaseConversions (s : State) (rec : Nat) : AttachKept s (s.releaseConversions rec) := rfl

theorem attachKept_failInFlight (s : State) (rec : Nat) (why : StepReason) :
    AttachKept s (s.failInFlight rec why) := by
  unfold State.failInFlight
  split
  · exact rfl
  · have hconv : AttachKept s ((s.orphanSteps rec).releaseConversions rec) :=
      Eq.trans (attachKept_releaseConversions _ rec) (attachKept_orphanSteps s rec)
    generalize (s.orphanSteps rec).releaseConversions rec = w at hconv
    dsimp only
    refine Eq.trans (attachKept_foldl (fun u j => ?_) _ w) hconv
    unfold AttachKept
    rw [dropStep_eq]
    rfl

theorem attachKept_unlockAll (s : State) (rec : Nat) : AttachKept s (s.unlockAll rec) := by
  unfold State.unlockAll State.unlockSteps
  split
  · exact rfl
  · refine attachKept_foldl (fun u j => ?_) _ _
    unfold AttachKept
    rw [unlockStep_eq]

theorem attachKept_storeFail (s : State) (rec : Nat) (readable : Bool) : AttachKept s (s.storeFail rec readable) := by
  unfold State.storeFail
  split
  · exact rfl
  next r _ =>
    have hraised : AttachKept s (s.raise (.storeError (.restore r.rid))) := by
      unfold AttachKept
      rw [raise_eq]
    dsimp only
    generalize s.raise (.storeError (.restore r.rid)) = w at hraised
    split
    · refine Eq.trans ?_ ((attachKept_failInFlight w rec .abandoned).trans hraised)
      generalize w.failInFlight rec .abandoned = x
      have hfinished : State.cat (if r.state.isActive then x.finishAs rec .failed (some .store) none
          else x.modRestore rec fun r =>
            { r with state := .failed, cause := some .store, failedStep := none }) = x.cat := by
        split <;> rfl
      have hactive (c : Bool) (z : State) :
          (if c then z.modActive r.principal (· - 1) else z).cat.attaching = z.cat.attaching := by
        split <;> rfl
      refine (attachKept_raiseEnd _ rec).trans ((hactive _ _).trans ((attachKept_dropRestorePin _ rec).trans
        ((attachKept_unlockAll _ rec).trans ((attachKept_modRestore _ rec _).trans
          ((attachKept_releaseBlocks _ rec _).trans (congrArg Catalogue.attaching hfinished))))))
    · exact hraised

/-! ### Double errors of principals -/

theorem othersKept_makeUnsettled {o : Catalogue × RestoreEngine × Stream × Offsite × Patrol} (id : Nat)
    (h : s.others = o) : (s.makeUnsettled id).others = o := by
  unfold State.makeUnsettled
  split
  · exact h
  · dsimp only
    split
    · split
      · exact h
      · exact othersKept_foldl _ _ (fun _ _ hb => othersKept_memberUnsettled _ hb) h
    · exact othersKept_beginRecount _ h

theorem othersKept_recompute {o : Catalogue × RestoreEngine × Stream × Offsite × Patrol} (id : Nat)
    (h : s.others = o) : (s.recompute id).others = o := othersKept_regatherIf _ h

theorem othersKept_endPrincipalError {o : Catalogue × RestoreEngine × Stream × Offsite × Patrol} (id : Nat)
    (changed : Bool) (h : s.others = o) : (s.endPrincipalError id changed).others = o := by
  unfold State.endPrincipalError
  refine othersKept_advance (othersKept_recompute id (othersKept_raise _ ?_))
  have hmade := othersKept_makeUnsettled id (othersKept_modPrin id (fun p => { p with frozen := true }) h)
  split
  · exact othersKept_evalGrace _ hmade
  · exact hmade

theorem othersKept_unsettlePools {o : Catalogue × RestoreEngine × Stream × Offsite × Patrol}
    (h : s.others = o) : s.unsettlePools.others = o :=
  othersKept_foldl _ _ (fun _ _ hb => othersKept_recompute _ (othersKept_beginRecount _ (othersKept_modPrin _ _ hb))) h

/-! ### The double errors that do not halt the part -/

/-- A double error outside layout block, settings region and catalogue region (R190). -/
def minorError : StoreError → Bool
  | .layout => false
  | .settings => false
  | .catalogue => false
  | _ => true

theorem AttachKept.trans {s t u : State} (h : AttachKept s t) (k : AttachKept t u) : AttachKept s u := Eq.trans k h

theorem attachKept_raise (s : State) (b : NoticeBody) : AttachKept s (s.raise b) := by
  unfold AttachKept
  rw [raise_eq]

theorem AttachKept.fold {α : Type} {g : State → α → State} (h : ∀ u x, AttachKept u (g u x)) (xs : List α) (s : State) :
    AttachKept s (xs.foldl g s) := by
  induction xs generalizing s with
  | nil => exact rfl
  | cons x xs ih => exact (h s x).trans (ih _)

/-- An extent record damaged, its lost fields read as zero (R65). -/
theorem attachKept_damageExtent (s : State) (vol ext : Nat) (lost : List ExtentField) :
    AttachKept s (s.damageExtent vol ext lost) := by
  unfold State.damageExtent
  dsimp only
  refine .trans ?_ (attachKept_raise _ _)
  refine .trans (State.modVolume_cat_attaching s vol _) (.fold (fun u f => ?_) lost _)
  exact State.setExtent_cat_attaching u.draw.2 vol ext _

theorem attachKept_meet {e : StoreError} (he : minorError e = true) (hnone : s.cat.attaching = []) :
    (s.meet e).cat.attaching = [] := by
  have hothers (t : State) (h : t.others = s.others) : t.cat.attaching = [] :=
    (attaching_of_others h).trans hnone
  cases e with
  | layout | settings | catalogue => cases he
  | principalOneCopy id f | restoreOneCopy rec => exact hnone
  | principalTally id =>
    unfold State.meet
    dsimp only
    split
    · exact hnone
    · exact hothers _ (othersKept_endPrincipalError _ _ (othersKept_storeClean _ _ _ rfl))
  | principalBoth id f =>
    unfold State.meet
    dsimp only
    split
    · exact hnone
    · refine hothers _ (othersKept_endPrincipalError _ _ ?_)
      have hleft : (if f = .grace then s.draw.2.leaveGraceQueue id else s.draw.2).others = s.others := by
        split
        · exact othersKept_leaveGraceQueue _ rfl
        · rfl
      split
      · exact othersKept_unsettlePools (othersKept_modPrin _ _ hleft)
      · exact othersKept_modPrin _ _ hleft
  | principalOther id f =>
    unfold State.meet
    dsimp only
    split
    · exact hnone
    · exact hothers _ (othersKept_endPrincipalError _ _ (othersKept_modPrin _ _ rfl))
  | extentRecord vol ext lost =>
    unfold State.meet
    dsimp only
    rw [hnone, if_neg (by nofun)]
    split
    · split
      · exact (attaching_of_settles (settles_settlePatrol (Settles.refl _))).trans
          (Eq.trans (attachKept_damageExtent s vol ext lost) hnone)
      · exact hnone
    · exact hnone
  | attachRecord vol =>
    unfold State.meet
    dsimp only
    rw [hnone, if_neg (by nofun)]
    exact hnone
  | restoreBoth rec readable | restoreStep rec k readable =>
    refine (attaching_of_settles (settles_settle (Settles.refl _))).trans ?_
    refine (attaching_of_others (othersKept_advance rfl)).trans ?_
    exact Eq.trans (attachKept_storeFail s rec readable) hnone
  | slot n =>
    unfold State.meet
    dsimp only
    split
    · exact hnone
    next x _ =>
      split
      · exact hnone
      · have hraised : (s.raise (.storeError (.slot n))).cat.attaching = [] := by
          rw [raise_eq]
          exact hnone
        generalize s.raise (.storeError (.slot n)) = w at hraised
        split
        · exact hraised
        · exact hraised
        · exact Eq.trans (attachKept_stepFetched (w.freeSlot n) _ _ _ _) hraised
        · refine Eq.trans (attaching_of_settles (settles_checkRepair _ (settles_repairFetched _ _ _ ?_))) hraised
          exact Settles.refl (w.freeSlot n)
        · exact hraised

theorem supKept_meetMinor {e : StoreError} (he : minorError e = true) (hnone : s.cat.attaching = [])
    (h : supKept sup0 s.sup) : supKept sup0 (s.meet e).sup := by
  cases e with
  | layout | settings | catalogue => cases he
  | principalOneCopy id f | restoreOneCopy rec => exact h
  | principalTally id =>
    unfold State.meet
    dsimp only
    split
    · exact h
    · exact supKept_endPrincipalError _ _ (supKept_storeClean _ _ _ h)
  | principalBoth id f =>
    unfold State.meet
    dsimp only
    split
    · exact h
    · refine supKept_endPrincipalError _ _ ?_
      have hleft : supKept sup0 (if f = .grace then s.draw.2.leaveGraceQueue id else s.draw.2).sup :=
        supKept_ite (supKept_leaveGraceQueue _ (supKept_draw h)) (supKept_draw h)
      exact supKept_ite (supKept_unsettlePools (supKept_modPrin _ _ hleft)) (supKept_modPrin _ _ hleft)
  | principalOther id f =>
    unfold State.meet
    dsimp only
    split
    · exact h
    · exact supKept_endPrincipalError _ _ (supKept_modPrin _ _ h)
  | extentRecord vol ext lost =>
    unfold State.meet
    dsimp only
    rw [hnone, if_neg (by nofun)]
    split
    · exact supKept_ite (supKept_settlePatrol (supKept_damageExtent vol ext lost h)) h
    · exact h
  | attachRecord vol =>
    unfold State.meet
    dsimp only
    rw [hnone, if_neg (by nofun)]
    exact h
  | restoreBoth rec readable | restoreStep rec k readable =>
    exact supKept_settle (supKept_advance (supKept_storeFail rec readable h))
  | slot n => exact supKept_meet_slot n h

/-- Double errors outside the three regions, with no Attach in progress, leave the Supervisor's registers. -/
theorem supKept_meets {errs : List StoreError} (herrs : ∀ e ∈ errs, minorError e = true)
    (hnone : s.cat.attaching = []) (h : supKept sup0 s.sup) :
    supKept sup0 (errs.foldl (fun s e => if s.sup.op = .halted then s else s.meet e) s).sup := by
  induction errs generalizing s with
  | nil => exact h
  | cons e errs ih =>
    have hrest : ∀ x ∈ errs, minorError x = true := fun x hx => herrs x (List.mem_cons_of_mem _ hx)
    rw [List.foldl_cons]
    split
    · exact ih hrest hnone h
    · exact ih hrest (attachKept_meet (herrs e List.mem_cons_self) hnone)
        (supKept_meetMinor (herrs e List.mem_cons_self) hnone h)

end

end Sys2Proof.Machine
end

section
/-! PROOF. What power-on loads (R21, R58, R62, R76, R168, R184, R189): O11 and O12. -/

namespace Sys2Proof.Machine

section
variable {s t u : State}

/-! ### Double errors that halt -/

/-- Double errors met one after another leave a HALTED part as it is. -/
theorem meets_of_halted (errs : List StoreError) (h : s.sup.op = .halted) :
    errs.foldl (fun s e => if s.sup.op = .halted then s else s.meet e) s = s := by
  induction errs with
  | nil => rfl
  | cons e errs ih => rw [List.foldl_cons, if_pos h, ih]

/-- A double error of the layout block, the settings region or the catalogue region halts the part (R190). -/
theorem meets_halt {errs : List StoreError} {e : StoreError} (he : e ∈ errs) (hmajor : minorError e = false)
    (s : State) :
    (errs.foldl (fun s e => if s.sup.op = .halted then s else s.meet e) s).sup.op = .halted := by
  induction errs generalizing s with
  | nil => cases he
  | cons x errs ih =>
    rw [List.foldl_cons]
    by_cases hhalted : s.sup.op = .halted
    · rw [if_pos hhalted, meets_of_halted errs hhalted]
      exact hhalted
    · rw [if_neg hhalted]
      rcases List.mem_cons.mp he with rfl | he
      · have hhalt : (s.meet e).sup.op = .halted := by
          cases e with
          | layout | settings | catalogue => rfl
          | _ => cases hmajor
        rw [meets_of_halted errs hhalt]
        exact hhalt
      · exact ih he _

theorem withErrs_halts {errs : List StoreError} {e : StoreError} (he : e ∈ errs) (hmajor : minorError e = false)
    (f : State → State) (s : State) : (withErrs errs f s).sup.op = .halted := by
  have hhalt := meets_halt he hmajor s
  unfold withErrs
  dsimp only
  rw [if_pos hhalt]
  exact hhalt

/-! ### Power-on -/

theorem powerOn_halts {errs : List StoreError} (h : StoreError.layout ∈ errs ∨ StoreError.settings ∈ errs ∨
      StoreError.catalogue ∈ errs ∨ s.sup.layout = .other) :
    ∃ t, Sys2Proof.Machine.exec (.powerOn errs) s = .next t ∧ t.sup.op = .halted := by
  refine ⟨_, rfl, ?_⟩
  by_cases hlayout : errs.contains .layout = true
  · rw [if_pos hlayout]
    rfl
  · rw [if_neg hlayout]
    have hregion (f : State → State) (x : State) (hx : s.sup.layout ≠ .other) :
        (withErrs errs f x).sup.op = .halted := by
      rcases h with h | h | h | h
      · exact absurd (by simpa using h) hlayout
      · exact withErrs_halts h rfl f x
      · exact withErrs_halts h rfl f x
      · exact absurd h hx
    split
    · rfl
    · next hl => exact hregion _ _ (fun hno => nomatch hno.symm.trans hl)
    · next hl => exact hregion _ _ (fun hno => nomatch hno.symm.trans hl)

theorem powerOn_initialises {errs : List StoreError} (h1 : StoreError.layout ∉ errs) (h2 : StoreError.settings ∉ errs)
    (h3 : StoreError.catalogue ∉ errs) (hblank : s.sup.layout = .blank) :
    ∃ t, Sys2Proof.Machine.exec (.powerOn errs) s = .next t ∧ t.sup.op = .loading ∧
      t.sup.stage = .initialising ∧ t.sup.clock = 0 ∧ t.sup.clockSet = false := by
  have hminor : ∀ e ∈ errs, minorError e = true := by
    intro e he
    cases e with
    | layout => exact absurd he h1
    | settings => exact absurd he h2
    | catalogue => exact absurd he h3
    | _ => rfl
  have hkept := supKept_meets (s := s.cold) hminor rfl (supKept_refl _)
  have hexec : Sys2Proof.Machine.exec (.powerOn errs) s = .next (withErrs errs (fun s => s) s.cold) := by
    change Host.Outcome.next (if errs.contains .layout then _ else _) = _
    rw [if_neg (by simpa using h1)]
    split
    · next hl => exact nomatch hblank.symm.trans hl
    · rfl
    · next hl => exact nomatch hblank.symm.trans hl
  refine ⟨_, hexec, ?_⟩
  unfold withErrs
  dsimp only
  generalize errs.foldl (fun s e => if s.sup.op = .halted then s else s.meet e) s.cold = w at hkept
  obtain ⟨hop, hstage, -, hclock, hset, -⟩ := hkept
  rw [ite_self]
  exact ⟨hop, hstage, hclock, hset⟩

/-! ### What is loaded -/

theorem powerOn_loads (hmatch : s.sup.layout = .matching) :
    Sys2Proof.Machine.exec (.powerOn []) s = .next s.cold.load := by
  change Host.Outcome.next (if ([] : List StoreError).contains .layout then _ else _) = _
  rw [if_neg (by nofun)]
  split
  · next hl => exact nomatch hmatch.symm.trans hl
  · next hl => exact nomatch hmatch.symm.trans hl
  · rfl

/-- A table of extent records without those that are empty reads the same. -/
theorem getD_tget_nonblank {t : Tbl Extent} (hwf : Tbl.wf t = true) (key : Nat) :
    (tget (t.filter fun kv => decide (kv.2 ≠ Extent.blank)) key).getD Extent.blank =
      (tget t key).getD Extent.blank := by
  cases h : tget t key with
  | none =>
    cases hf : tget (t.filter fun kv => decide (kv.2 ≠ Extent.blank)) key with
    | none => rfl
    | some e =>
      have hm := (List.mem_filter.mp (mem_of_tget hf)).1
      exact nomatch h.symm.trans (tget_of_mem 0 _ hwf hm)
  | some e =>
    by_cases he : e = Extent.blank
    · cases hf : tget (t.filter fun kv => decide (kv.2 ≠ Extent.blank)) key with
      | none => exact he.symm
      | some x =>
        have hm := (List.mem_filter.mp (mem_of_tget hf)).1
        exact Option.some.inj ((tget_of_mem 0 _ hwf hm).symm.trans h)
    · have hm : (key, e) ∈ t.filter fun kv => decide (kv.2 ≠ Extent.blank) :=
        List.mem_filter.mpr ⟨mem_of_tget h, decide_eq_true he⟩
      rw [tget_of_mem 0 _ (wf_filter _ hwf) hm]

/-- An extent record as power-on loads it (R58, R62, R168). -/
theorem extent_loaded (hwf : Tbl.wf s.cat.extents = true) (vol ext : Nat) :
    s.cold.load.extent vol ext = (s.extent vol ext).load := by
  have hload : s.cold.load.extent vol ext = (tget ((tmap (fun _ e => e.load) s.cat.extents).filter fun kv =>
      decide (kv.2 ≠ Extent.blank)) (extentKey vol ext)).getD Extent.blank := rfl
  rw [hload, getD_tget_nonblank (wf_tmap _ hwf), tget_tmap, State.extent]
  cases tget s.cat.extents (extentKey vol ext) <;> rfl

theorem volume_loaded (vol : Nat) :
    s.cold.load.volume vol = (s.volume vol).map fun v => { v with refTotal := 0 } := by
  have hload : s.cold.load.volume vol =
      if vol < 32 then tget (tmap (fun _ v => ({ v with refTotal := 0 } : Volume)) s.cat.volumes) vol else none := rfl
  rw [hload, tget_tmap, State.volume]
  split <;> rfl

theorem snapshot_loaded {vol gen : Nat} {p : Snapshot} (h : s.snapshot vol gen = some p) :
    s.cold.load.snapshot vol gen = some p.load := by
  have hload : s.cold.load.snapshot vol gen =
      if gen ≤ maxGeneration then tget (tmap (fun _ p => p.load) s.cat.snapshots) (snapKey vol gen) else none := rfl
  rw [hload, tget_tmap]
  unfold State.snapshot at h
  split at h
  · next hg => rw [if_pos hg, h]; rfl
  · cases h

theorem load_births (e : Extent) : e.load.versions.map Version.birth = e.versions.map Version.birth := by
  unfold Extent.load
  rw [List.map_map]
  rfl

/-- A version as it is loaded has no references, and is neither SUSPECT nor REPAIRING. -/
theorem load_version (v : Version) : v.load.refs = 0 ∧ v.load.repair ≠ .suspect ∧ v.load.repair ≠ .repairing := by
  refine ⟨?_, ?_, ?_⟩
  · unfold Version.refs Version.load
    cases v.res <;> rfl
  · unfold Version.load
    cases v.repair <;> nofun
  · unfold Version.load
    cases v.repair <;> nofun

end

end Sys2Proof.Machine

open Sys2Proof Sys2Proof.Machine

/-- Settles O11. -/
theorem powerOnLoadsOrHalts : Obligations.PowerOnLoadsOrHalts := by
  refine ⟨fun s errs h => powerOn_halts h, fun s errs h1 h2 h3 hblank => powerOn_initialises h1 h2 h3 hblank, ?_⟩
  intro s hmatch hwf
  refine ⟨_, powerOn_loads hmatch, rfl, rfl, rfl, rfl, rfl, rfl, fun l => ?_, rfl, rfl, rfl, rfl, rfl, rfl, rfl,
    rfl, rfl, rfl, fun vol => volume_loaded vol, fun vol gen p hp => ⟨p.load, snapshot_loaded hp, rfl, rfl, rfl, rfl⟩,
    fun vol ext => ?_, fun r hr => ?_⟩
  · exact link_reset l
  · rw [extent_loaded hwf]
    refine ⟨rfl, rfl, load_births _, fun v hv => ?_⟩
    obtain ⟨w, -, rfl⟩ := List.mem_map.mp hv
    exact load_version w
  · obtain ⟨e, -, rfl⟩ := List.mem_map.mp (show r ∈ s.cat.reclaims.map fun e => { e with refs := 0 } from hr)
    rfl

/-- Settles O12. -/
theorem firstInitialisationFillsTheTables : Obligations.FirstInitialisationFillsTheTables := by
  intro s hop hstage
  refine ⟨State.initialise { s with sent := [] }, ?_, rfl, rfl, hop, rfl, rfl, rfl, rfl, rfl, rfl, fun vol => ?_, rfl,
    rfl, rfl, rfl, rfl, rfl, rfl, rfl⟩
  · change execLayoutInitialised s [] = _
    unfold execLayoutInitialised
    have hrun : s.sup.op ≠ .halted := fun hno => nomatch hop.symm.trans hno
    rw [act_running _ hrun, if_pos ⟨hop, hstage⟩, withErrs_nil]
    exact hrun
  · change (if vol < 32 then tget ([] : Tbl Volume) vol else none) = none
    split <;> rfl
end

section
/-! PROOF. Restores failed at once with their steps in flight, at HOLDUP and in LOADING (R103, R104). -/

namespace Sys2Proof.Machine

section
variable {s t u : State} {rec : Nat} {r : Restore}

/-! ### What a failed restore leaves -/

/-- A principal's record but for its grace and its active restores. -/
def principalCore (p : Principal) : Principal := { p with grace := .within, active := 0 }

/-- The principals' records but for grace and active restores. -/
def State.cores (s : State) : List (Nat × Principal) := s.tally.principals.map fun kp => (kp.1, principalCore kp.2)

/-- What restores that fail for want of power change: their own records, slots, links, locks and pins, the offsite
list and Fetch Queue, active restores, and the operations of the Tally Unit, which gain releases. -/
structure PowerWork (P : Nat → Prop) (s t : State) : Prop where
  others : ∀ k, ¬ P k → t.restore k = s.restore k
  pat : t.pat = s.pat
  off : t.off = { s.off with
    outstanding := t.off.outstanding, fetchQueue := t.off.fetchQueue, roomWaits := t.off.roomWaits }
  stays : ∀ f ∈ s.off.outstanding, (∃ c, f.body = .control c) → f ∈ t.off.outstanding
  tally : t.tally = { s.tally with
    principals := t.tally.principals, ops := t.tally.ops, nextOp := t.tally.nextOp }
  cores : Tbl.wf s.tally.principals = true → Tbl.wf t.tally.principals = true ∧ t.cores = s.cores
  once : (∀ o ∈ s.tally.ops, o.job.runsAtOnce = false) → ∀ o ∈ t.tally.ops, o.job.runsAtOnce = false
  releases : ∀ p n, (∃ o ∈ s.tally.ops, o.job = .unreserve p n) → ∃ o ∈ t.tally.ops, o.job = .unreserve p n
  locks : ∀ v e rid, (s.extent v e).lock ≠ some rid → (t.extent v e).lock ≠ some rid
  waiting : t.rst.waiting = s.rst.waiting

namespace PowerWork

variable {P Q : Nat → Prop}

theorem refl (P : Nat → Prop) (s : State) : PowerWork P s s :=
  ⟨fun _ _ => rfl, rfl, rfl, fun _ h _ => h, rfl, fun h => ⟨h, rfl⟩, id, fun _ _ h => h, fun _ _ _ h => h, rfl⟩

theorem trans (h : PowerWork P s t) (k : PowerWork P t u) : PowerWork P s u := by
  refine ⟨fun j hj => (k.others j hj).trans (h.others j hj), k.pat.trans h.pat, ?_,
    fun f hf hc => k.stays f (h.stays f hf hc) hc, ?_, fun hwf => ?_, fun ho => k.once (h.once ho),
    fun p n ho => k.releases p n (h.releases p n ho), fun v e rid hl => k.locks v e rid (h.locks v e rid hl),
    k.waiting.trans h.waiting⟩
  · have hoff := k.off
    rw [h.off] at hoff
    exact hoff
  · have htally := k.tally
    rw [h.tally] at htally
    exact htally
  · obtain ⟨hwf', hcores⟩ := h.cores hwf
    obtain ⟨hwf'', hcores'⟩ := k.cores hwf'
    exact ⟨hwf'', hcores'.trans hcores⟩

/-- A change of slots and links alone. -/
theorem of_bare (h : t = { s with links := t.links, str := t.str, sup := t.sup }) : PowerWork P s t := by
  rw [h]
  exact ⟨fun _ _ => rfl, rfl, rfl, fun _ h _ => h, rfl, fun h => ⟨h, rfl⟩, id, fun _ _ h => h, fun _ _ _ h => h, rfl⟩

theorem foldl {g : State → Nat → State} (hg : ∀ u j, PowerWork P u (g u j)) (js : List Nat) (s : State) :
    PowerWork P s (js.foldl g s) := by
  induction js generalizing s with
  | nil => exact refl P s
  | cons j js ih => exact (hg s j).trans (ih _)

theorem mono (h : PowerWork P s t) (hsub : ∀ k, P k → Q k) : PowerWork Q s t :=
  { h with others := fun k hk => h.others k fun hp => hk (hsub k hp) }

end PowerWork

theorem powerWork_modRestore (s : State) (rec : Nat) (f : Restore → Restore) :
    PowerWork (Eq rec) s (s.modRestore rec f) :=
  { PowerWork.refl (Eq rec) s with others := fun _ hk => restore_modRestore_ne s f (Ne.symm hk) }

theorem powerWork_finishAs (s : State) (rec : Nat) (st : RestoreState) (cause : Option FailCause)
    (failed : Option (Nat × StepReason)) : PowerWork (Eq rec) s (s.finishAs rec st cause failed) :=
  (powerWork_modRestore s rec _).trans { PowerWork.refl (Eq rec) _ with others := fun _ _ => rfl }

/-- An extent unlocked has no lock, and the others have theirs. -/
theorem unlock_frees (s : State) (vol ext rid v e : Nat) :
    ((s.unlock vol ext rid).extent v e).lock = none ∨
      ((s.unlock vol ext rid).extent v e).lock = (s.extent v e).lock := by
  unfold State.unlock
  split
  · by_cases hkey : extentKey v e = extentKey vol ext
    · refine .inl ?_
      have hself : (s.setExtent vol ext { s.extent vol ext with lock := none }).extent v e =
          { s.extent vol ext with lock := none } := by
        refine Eq.trans ?_ (extent_setExtent_self s vol ext { s.extent vol ext with lock := none })
        simp only [State.extent, hkey]
      rw [hself]
    · refine .inr ?_
      rw [extent_setExtent_ne _ _ _ _ _ _ fun hk => hkey hk.symm]
  · exact .inr rfl

theorem powerWork_unlockStep (s : State) (rec i : Nat) : PowerWork (Eq rec) s (s.unlockStep rec i) := by
  unfold State.unlockStep
  split
  · exact PowerWork.refl (Eq rec) s
  next r _ =>
    have hframe := unlock_eq s (r.target i).1 (r.target i).2 r.rid
    have hfrees := unlock_frees s (r.target i).1 (r.target i).2 r.rid
    generalize s.unlock (r.target i).1 (r.target i).2 r.rid = t at hframe hfrees
    refine ⟨?_, ?_, ?_, ?_, ?_, ?_, ?_, ?_, fun v e rid hl => ?_, ?_⟩
    case refine_9 =>
      rcases hfrees v e with h | h <;> rw [h]
      · nofun
      · exact hl
    all_goals rw [hframe]
    · exact fun _ _ => rfl
    · exact fun _ h _ => h
    · exact fun h => ⟨h, rfl⟩
    · exact id
    · exact fun _ _ h => h

theorem powerWork_dropStep (s : State) (rec i : Nat) : PowerWork (Eq rec) s (s.dropStep rec i) := by
  unfold State.dropStep
  refine PowerWork.trans (t := s.withdrawFetch (.step rec i)) ?_ ?_
  · refine { PowerWork.refl (Eq rec) s with off := rfl, stays := fun f hf hc => ?_ }
    obtain ⟨c, hc⟩ := hc
    refine List.mem_map.mpr ⟨f, hf, ?_⟩
    rw [hc]
  · refine PowerWork.of_bare ?_
    rw [leavePlaces_eq]
    rfl

theorem powerWork_releaseBlocks (s : State) (rec n : Nat) : PowerWork (Eq rec) s (s.releaseBlocks rec n) := by
  unfold State.releaseBlocks
  split
  · exact PowerWork.refl (Eq rec) s
  next r _ =>
    refine (powerWork_modRestore s rec fun r => { r with remaining := r.remaining - n }).trans ?_
    generalize s.modRestore rec _ = w
    unfold State.askRelease
    split
    · exact PowerWork.refl (Eq rec) w
    · refine { PowerWork.refl (Eq rec) w with
        tally := rfl, cores := fun h => ⟨h, rfl⟩, once := fun ho o hm => ?_,
        releases := fun p k ⟨o, hm, hj⟩ => ⟨o, List.mem_append_left _ hm, hj⟩ }
      rcases List.mem_append.mp hm with hm | hm
      · exact ho o hm
      · rw [List.mem_singleton.mp hm]
        rfl

theorem powerWork_unlockSteps (s : State) (rec : Nat) (is : List Nat) : PowerWork (Eq rec) s (s.unlockSteps rec is) :=
  PowerWork.foldl (fun u j => powerWork_unlockStep u rec j) is s

theorem powerWork_dropRestorePin (s : State) (rec : Nat) : PowerWork (Eq rec) s (s.dropRestorePin rec) := by
  unfold State.dropRestorePin
  split
  · exact PowerWork.refl (Eq rec) s
  · split
    · refine (powerWork_modRestore s rec fun r => { r with pin := false }).trans ?_
      generalize s.modRestore rec _ = w
      rw [dropPin_eq]
      exact { PowerWork.refl (Eq rec) w with locks := fun _ _ _ h => h }
    · exact PowerWork.refl (Eq rec) s

theorem powerWork_settlePin (s : State) (rec : Nat) : PowerWork (Eq rec) s (s.settlePin rec) := by
  unfold State.settlePin
  split
  · exact PowerWork.refl (Eq rec) s
  · split
    · exact powerWork_dropRestorePin s rec
    · exact PowerWork.refl (Eq rec) s

theorem powerWork_modActive (s : State) (rec person : Nat) (g : Nat → Nat) :
    PowerWork (Eq rec) s (s.modActive person g) := by
  refine { PowerWork.refl (Eq rec) s with
    tally := rfl, once := id, releases := fun _ _ h => h, cores := fun hwf => ⟨wf_tmod _ _ hwf, ?_⟩ }
  change (tmod s.tally.principals person _).map _ = _
  rw [tmod_eq_map 0 _ _ _ hwf, List.map_map]
  refine List.map_congr_left fun kp _ => ?_
  simp only [Function.comp_apply]
  split <;> rfl

theorem powerWork_raise (s : State) (rec : Nat) (b : NoticeBody) : PowerWork (Eq rec) s (s.raise b) := by
  refine PowerWork.of_bare ?_
  rw [raise_eq]

theorem powerWork_raiseEnd (s : State) (rec : Nat) : PowerWork (Eq rec) s (s.raiseEnd rec) := by
  unfold State.raiseEnd
  split
  · exact PowerWork.refl (Eq rec) s
  · exact powerWork_raise s rec _

theorem orphanSteps_eq (s : State) (rec : Nat) :
    s.orphanSteps rec = { s with links := (s.orphanSteps rec).links, str := (s.orphanSteps rec).str } := by
  have hslots (l : Link) (d : Directive) (u : State) :
      u.orphanSlots l rec d = { u with str := (u.orphanSlots l rec d).str } := by
    unfold State.orphanSlots
    split
    · split <;> rfl
    · rfl
  have hone (l : Link) (ds : List Directive) (u : State) : ds.foldl (fun s d => s.orphanSlots l rec d) u =
      { u with str := (ds.foldl (fun s d => s.orphanSlots l rec d) u).str } := by
    induction ds generalizing u with
    | nil => rfl
    | cons d ds ih => rw [List.foldl_cons, ih, hslots]
  unfold State.orphanSteps
  generalize allLinks = ls
  induction ls generalizing s with
  | nil => rfl
  | cons l ls ih =>
    rw [List.foldl_cons, ih]
    dsimp only
    rw [hone]
    rfl

theorem powerWork_releaseConversions (s : State) (rec : Nat) : PowerWork (Eq rec) s (s.releaseConversions rec) := by
  have hjob (o : TallyOp) : ((match o.job with
      | .convert n i p _ d l => if n = rec then { o with job := .convert Config.restoreTableSize i p 0 d l } else o
      | _ => o) : TallyOp).job = o.job ∨ ∃ n i p c d l n' c', o.job = .convert n i p c d l ∧ ((match o.job with
      | .convert n i p _ d l => if n = rec then { o with job := .convert Config.restoreTableSize i p 0 d l } else o
      | _ => o) : TallyOp).job = .convert n' i p c' d l := by
    split
    · next n i p c d l h =>
      split
      · exact .inr ⟨n, i, p, c, d, l, _, _, h, rfl⟩
      · exact .inl rfl
    · exact .inl rfl
  refine { PowerWork.refl (Eq rec) s with
    tally := rfl, cores := fun h => ⟨h, rfl⟩, once := fun ho o hm => ?_, releases := fun p n ⟨o, hm, hj⟩ => ?_ }
  · obtain ⟨x, hx, rfl⟩ := List.mem_map.mp hm
    rcases hjob x with h | ⟨n, i, p, c, d, l, n', c', -, h⟩
    · exact (congrArg Job.runsAtOnce h).trans (ho x hx)
    · exact congrArg Job.runsAtOnce h
  · refine ⟨_, List.mem_map.mpr ⟨o, hm, rfl⟩, ?_⟩
    rcases hjob o with h | ⟨a, b, c, d, e, l, n', c', h, -⟩
    · exact h.trans hj
    · exact nomatch h.symm.trans hj

/-- A step in flight failed with its restore, and what it holds dropped. -/
theorem powerWork_stepFailed (s : State) (rec i : Nat) (f : Step → Step) :
    PowerWork (Eq rec) s ((s.modStep rec i f).dropStep rec i) :=
  (powerWork_modRestore s rec _).trans (powerWork_dropStep _ rec i)

theorem powerWork_failInFlight (s : State) (rec : Nat) (why : StepReason) :
    PowerWork (Eq rec) s (s.failInFlight rec why) := by
  unfold State.failInFlight
  split
  · exact PowerWork.refl (Eq rec) s
  · have horphan : PowerWork (Eq rec) s (s.orphanSteps rec) := PowerWork.of_bare (by rw [orphanSteps_eq])
    have hconv := horphan.trans (powerWork_releaseConversions _ rec)
    generalize (s.orphanSteps rec).releaseConversions rec = w at hconv
    dsimp only
    exact hconv.trans (PowerWork.foldl (fun u j => powerWork_stepFailed u rec j _) _ w)

/-! ### The record of a failed restore -/

/-- A restore whose steps alone have changed, as many as they were. -/
def Restepped (r q : Restore) : Prop := q = { r with steps := q.steps } ∧ q.steps.length = r.steps.length

theorem restore_releaseConversions (s : State) (rec k : Nat) :
    (s.releaseConversions rec).restore k = s.restore k := rfl

theorem failInFlight_restore (why : StepReason) (hr : s.restore rec = some r) :
    ∃ q, (s.failInFlight rec why).restore rec = some q ∧ Restepped r q := by
  have hfold (js : List Nat) (f : Step → Step) (u : State) (q : Restore) (hq : u.restore rec = some q)
      (hsame : Restepped r q) : ∃ q, (js.foldl (fun s i => (s.modStep rec i f).dropStep rec i) u).restore rec = some q ∧
        Restepped r q := by
    induction js generalizing u q with
    | nil => exact ⟨q, hq, hsame⟩
    | cons j js ih =>
      refine ih _ { q with steps := modAt q.steps j f } ?_ ⟨?_, (length_modAt _ _ _).trans hsame.2⟩
      · rw [restore_dropStep]
        exact (State.restore_modRestore u rec _).trans (congrArg _ hq)
      · rw [hsame.1]
  have hw : ((s.orphanSteps rec).releaseConversions rec).restore rec = some r := by
    rw [restore_releaseConversions, restore_congr (s := s) (by rw [orphanSteps_eq]), hr]
  unfold State.failInFlight
  rw [hr]
  generalize (s.orphanSteps rec).releaseConversions rec = w at hw
  dsimp only
  exact hfold _ _ w r hw ⟨rfl, rfl⟩

theorem restore_releaseBlocks (n : Nat) (hr : s.restore rec = some r) :
    (s.releaseBlocks rec n).restore rec = some { r with remaining := r.remaining - n } := by
  rw [releaseBlocks_eq hr, restore_congr (s := s.modRestore rec fun r => { r with remaining := r.remaining - n })]
  · exact (State.restore_modRestore s rec _).trans (congrArg _ hr)
  · rw [(askRelease_eq _ _ _).1]

theorem releaseBlocks_job {n : Nat} (hr : s.restore rec = some r) (hn : 0 < n) :
    ∃ o ∈ (s.releaseBlocks rec n).tally.ops, o.job = .unreserve r.principal n := by
  rw [releaseBlocks_eq hr]
  unfold State.askRelease
  rw [if_neg (Nat.ne_of_gt hn)]
  exact ⟨_, List.mem_append_right _ (List.mem_singleton.mpr rfl), rfl⟩

theorem restore_unlockSteps (s : State) (is : List Nat) (k : Nat) :
    (s.unlockSteps rec is).restore k = s.restore k := by
  unfold State.unlockSteps
  induction is generalizing s with
  | nil => rfl
  | cons i is ih => rw [List.foldl_cons, ih, restore_unlockStep]

/-- The targets of the steps unlocked are not locked under the restore's id (R62). -/
theorem unlockSteps_lock (is : List Nat) (hr : s.restore rec = some r) {i : Nat} (hi : i ∈ is) :
    ((s.unlockSteps rec is).extent (r.target i).1 (r.target i).2).lock ≠ some r.rid := by
  unfold State.unlockSteps
  induction is generalizing s with
  | nil => cases hi
  | cons j is ih =>
    rw [List.foldl_cons]
    rcases List.mem_cons.mp hi with rfl | hi
    · refine (powerWork_unlockSteps _ rec is).locks _ _ _ ?_
      unfold State.unlockStep
      rw [hr]
      exact unlock_lock (.inl rfl)
    · exact ih ((restore_unlockStep s rec j rec).trans hr) hi

theorem restore_raiseEnd (s : State) (k : Nat) : (s.raiseEnd rec).restore k = s.restore k := by
  unfold State.raiseEnd
  split
  · rfl
  · rw [raise_eq]
    rfl

theorem restore_settlePin (hr : s.restore rec = some r) : ∃ q, (s.settlePin rec).restore rec = some q ∧
    q.state = r.state := by
  unfold State.settlePin
  rw [hr]
  dsimp only
  split
  · exact ⟨_, restore_dropRestorePin hr, rfl⟩
  · exact ⟨r, hr, rfl⟩

/-! ### A restore failed for want of power -/

/-- What a restore that was active has become (R103, R104). -/
structure PowerFailed (t : State) (rec : Nat) (r : Restore) : Prop where
  record : ∃ q, t.restore rec = some q ∧ q.rid = r.rid ∧ q.state = .failed ∧ q.cause = some .power ∧
    q.remaining = 0 ∧ q.pin = false
  release : 0 < r.remaining → ∃ o ∈ t.tally.ops, o.job = .unreserve r.principal r.remaining
  unlocked : ∀ i < r.steps.length, (t.extent (r.target i).1 (r.target i).2).lock ≠ some r.rid

theorem powerFail_work (s : State) (rec : Nat) : PowerWork (Eq rec) s (s.powerFail rec) := by
  unfold State.powerFail
  split
  · exact PowerWork.refl (Eq rec) s
  next r _ =>
    have hfirst := powerWork_failInFlight s rec .power
    generalize s.failInFlight rec .power = w at hfirst
    dsimp only
    split
    · refine hfirst.trans ((powerWork_finishAs w rec .failed (some .power) none).trans
        ((powerWork_releaseBlocks _ rec r.remaining).trans ?_))
      generalize (w.finishAs rec .failed (some .power) none).releaseBlocks rec r.remaining = x
      refine PowerWork.trans (t := x.unlockAll rec) ?_ ((powerWork_dropRestorePin _ rec).trans
        ((powerWork_modActive _ rec _ _).trans (powerWork_raiseEnd _ rec)))
      unfold State.unlockAll
      split
      · exact PowerWork.refl (Eq rec) x
      · exact powerWork_unlockSteps x rec _
    · exact hfirst.trans ((powerWork_unlockSteps w rec _).trans ((powerWork_releaseBlocks _ rec _).trans
        (powerWork_settlePin _ rec)))

theorem powerFail_active (hr : s.restore rec = some r) (hactive : r.state.isActive = true) :
    PowerFailed (s.powerFail rec) rec r := by
  obtain ⟨q, hq, hsteps, hlen⟩ := failInFlight_restore (why := .power) hr
  unfold State.powerFail
  rw [hr]
  dsimp only
  rw [if_pos hactive]
  generalize s.failInFlight rec .power = w at hq
  obtain ⟨x, hx⟩ : ∃ x, x = w.finishAs rec .failed (some .power) none := ⟨_, rfl⟩
  rw [← hx]
  obtain ⟨qx, hqx, hxrid, hxst, hxcause, hxrem, hxprin, hxtarget, hxlen⟩ : ∃ qx, x.restore rec = some qx ∧
      qx.rid = r.rid ∧ qx.state = .failed ∧ qx.cause = some .power ∧ qx.remaining = r.remaining ∧
      qx.principal = r.principal ∧ (∀ i, qx.target i = r.target i) ∧ qx.steps.length = r.steps.length := by
    refine ⟨_, (congrArg (fun u : State => u.restore rec) hx).trans
      ((State.restore_modRestore w rec _).trans (congrArg _ hq)), ?_, rfl, rfl, ?_, ?_, fun i => ?_, hlen⟩
    all_goals rw [hsteps]
    rfl
  have hy := restore_releaseBlocks r.remaining hqx
  have hyjob (hn : 0 < r.remaining) := releaseBlocks_job hqx hn
  generalize x.releaseBlocks rec r.remaining = y at hy hyjob
  have hz := restore_unlockSteps (rec := rec) y (List.range qx.steps.length) rec
  have hzwork := powerWork_unlockSteps y rec (List.range qx.steps.length)
  have hzlock (i : Nat) := unlockSteps_lock (List.range qx.steps.length) hy (i := i)
  have hall : y.unlockAll rec = y.unlockSteps rec (List.range qx.steps.length) := by
    unfold State.unlockAll
    rw [hy]
  rw [hall]
  generalize y.unlockSteps rec (List.range qx.steps.length) = z at hz hzwork hzlock
  have hpin := restore_dropRestorePin (hz.trans hy)
  have hlast := (powerWork_dropRestorePin z rec).trans ((powerWork_modActive _ rec r.principal (· - 1)).trans
    (powerWork_raiseEnd _ rec))
  have hrecord := restore_raiseEnd (rec := rec) ((z.dropRestorePin rec).modActive r.principal (· - 1)) rec
  have hprins : ((z.dropRestorePin rec).modActive r.principal (· - 1)).restore rec =
      (z.dropRestorePin rec).restore rec := rfl
  rw [hprins, hpin] at hrecord
  refine ⟨⟨_, hrecord, hxrid, hxst, hxcause, ?_, rfl⟩, fun hn => ?_, fun i hi => ?_⟩
  · change qx.remaining - r.remaining = 0
    rw [hxrem, Nat.sub_self]
  · refine hlast.releases _ _ (hzwork.releases _ _ ?_)
    rw [← hxprin]
    exact hyjob hn
  · refine hlast.locks _ _ _ ?_
    have h := hzlock i (List.mem_range.mpr (by rw [hxlen]; exact hi))
    rw [← hxrid, ← hxtarget i]
    exact h

theorem powerFail_inactive (s : State) (rec : Nat) : ∀ q, (s.powerFail rec).restore rec = some q →
    q.state.isActive = false := by
  intro q hq
  cases hr : s.restore rec with
  | none =>
    unfold State.powerFail at hq
    rw [hr] at hq
    exact nomatch hr.symm.trans hq
  | some r =>
    by_cases hactive : r.state.isActive = true
    · obtain ⟨x, hx, -, hst, -⟩ := (powerFail_active hr hactive).record
      rw [hx] at hq
      cases hq
      rw [hst]
      rfl
    · obtain ⟨w, hw, hsteps, -⟩ := failInFlight_restore (why := .power) hr
      unfold State.powerFail at hq
      rw [hr] at hq
      dsimp only at hq
      rw [if_neg hactive] at hq
      generalize s.failInFlight rec .power = x at hw hq
      obtain ⟨y, hy, hyst⟩ := restore_settlePin (restore_releaseBlocks (r.positives (r.indexes Step.inFlight))
        ((restore_unlockSteps (rec := rec) x (r.indexes Step.inFlight) rec).trans hw))
      rw [hy] at hq
      cases hq
      rw [hyst]
      change w.state.isActive = false
      rw [hsteps]
      exact Bool.eq_false_iff.mpr hactive

/-! ### Every restore failed -/

theorem PowerFailed.keep {P : Nat → Prop} (h : PowerFailed s rec r) (hw : PowerWork P s t) (hrec : ¬ P rec) :
    PowerFailed t rec r := by
  obtain ⟨⟨q, hq, hrest⟩, hrelease, hunlocked⟩ := h
  exact ⟨⟨q, (hw.others rec hrec).trans hq, hrest⟩, fun hn => hw.releases _ _ (hrelease hn),
    fun i hi => hw.locks _ _ _ (hunlocked i hi)⟩

theorem powerWork_each {g : State → Nat → State} (hg : ∀ u j, PowerWork (Eq j) u (g u j)) (js : List Nat) (s : State) :
    PowerWork (· ∈ js) s (js.foldl g s) := by
  induction js generalizing s with
  | nil => exact PowerWork.refl _ s
  | cons j js ih =>
    refine ((hg s j).mono fun k hk => ?_).trans ((ih _).mono fun k hk => List.mem_cons_of_mem _ hk)
    exact hk ▸ List.mem_cons_self

/-- Each of some restores has ended once all have been failed in turn. -/
theorem each_inactive {g : State → Nat → State} (hg : ∀ u j, PowerWork (Eq j) u (g u j))
    (hends : ∀ u j q, (g u j).restore j = some q → q.state.isActive = false) {js : List Nat} {k : Nat} (hk : k ∈ js) :
    ∀ q, (js.foldl g s).restore k = some q → q.state.isActive = false := by
  induction js generalizing s with
  | nil => cases hk
  | cons j js ih =>
    rw [List.foldl_cons]
    by_cases hin : k ∈ js
    · exact ih hin
    · obtain rfl : k = j := (List.mem_cons.mp hk).resolve_right hin
      intro q hq
      rw [(powerWork_each hg js (g s k)).others k hin] at hq
      exact hends s k q hq

/-- Each restore that was active has failed. -/
theorem powerFails_active {js : List Nat} (hnodup : js.Nodup) (hk : rec ∈ js) (hr : s.restore rec = some r)
    (hactive : r.state.isActive = true) : PowerFailed (js.foldl State.powerFail s) rec r := by
  induction js generalizing s with
  | nil => cases hk
  | cons j js ih =>
    obtain ⟨hnot, hrest⟩ := List.nodup_cons.mp hnodup
    rw [List.foldl_cons]
    by_cases hj : rec = j
    · subst hj
      exact (powerFail_active hr hactive).keep (powerWork_each powerFail_work js _) hnot
    · refine ih hrest ((List.mem_cons.mp hk).resolve_left hj) ?_
      rw [(powerFail_work s j).others rec fun h => hj h.symm]
      exact hr

/-- The keys of a table are its records', each once. -/
theorem keys_nodup {α : Type} {t : Tbl α} (h : Tbl.wf t = true) : (t.map Prod.fst).Nodup := by
  have hrising (b : Nat) (t : Tbl α) (h : risingFrom b t = true) :
      (t.map Prod.fst).Nodup ∧ ∀ k ∈ t.map Prod.fst, b ≤ k := by
    induction t generalizing b with
    | nil => exact ⟨List.nodup_nil, fun _ hk => nomatch hk⟩
    | cons kv t ih =>
      obtain ⟨k, v⟩ := kv
      simp only [risingFrom, Bool.and_eq_true, decide_eq_true_eq] at h
      obtain ⟨hnodup, hge⟩ := ih (k + 1) h.2
      refine ⟨List.nodup_cons.mpr ⟨fun hin => absurd (hge k hin) (Nat.not_succ_le_self k), hnodup⟩, fun x hx => ?_⟩
      rcases List.mem_cons.mp hx with rfl | hx
      · exact h.1
      · exact Nat.le_trans h.1 (Nat.le_of_succ_le (hge x hx))
  exact (hrising 0 t h).1

theorem mem_keys {α : Type} {t : Tbl α} {k : Nat} {v : α} (h : tget t k = some v) : k ∈ t.map Prod.fst :=
  List.mem_map.mpr ⟨(k, v), mem_of_tget h, rfl⟩

end

end Sys2Proof.Machine
end

section
/-! PROOF. The walk of LOADING and its end (R21, R104, R184): O13. -/

namespace Sys2Proof.Machine

section
variable {s t u : State} {rec id : Nat}

/-! ### Principals' records but for grace and active restores -/

theorem prin_of_cores (h : t.cores = s.cores) (id : Nat) :
    (t.prin id).map principalCore = (s.prin id).map principalCore := by
  have hread (u : State) : (u.prin id).map principalCore = tget u.cores id :=
    (tget_tmap (fun _ p => principalCore p) u.tally.principals id).symm
  rw [hread, hread, h]

/-- A record that is an unsettled member of a pool (R3, R19). -/
def unsettledMember (pool : Nat) (kp : Nat × Principal) : Bool :=
  kp.2.unsettled && (decide (kp.2.kind = .person) &&
    (decide (kp.2.course = some pool) || decide (kp.2.dept = some pool)))

/-- The unsettled members of a pool are counted in any table that differs from it in nothing they are known by. -/
theorem unsettledMembers_map {α : Type} (ps : List (Nat × Principal)) (g : Nat × Principal → α) (q : α → Bool)
    (hg : ∀ kp, q (g kp) = unsettledMember id kp) (h : s.tally.principals = ps) :
    ((s.membersOf id).filter fun m => m.2.unsettled).length = ((ps.map g).filter q).length := by
  unfold State.membersOf
  rw [h, List.filter_filter, List.filter_map, List.length_map]
  refine congrArg List.length (List.filter_congr fun kp _ => ?_)
  exact (hg kp).symm

theorem unsettledMembers_cores (h : t.cores = s.cores) (id : Nat) :
    ((t.membersOf id).filter fun m => m.2.unsettled).length =
      ((s.membersOf id).filter fun m => m.2.unsettled).length := by
  rw [unsettledMembers_map (s := t) t.tally.principals (fun kp => (kp.1, principalCore kp.2)) (unsettledMember id)
      (fun _ => rfl) rfl,
    unsettledMembers_map (s := s) s.tally.principals (fun kp => (kp.1, principalCore kp.2)) (unsettledMember id)
      (fun _ => rfl) rfl]
  exact congrArg (fun l : List (Nat × Principal) => (l.filter (unsettledMember id)).length) h

/-! ### Flags and counts -/

/-- The tables as the walk has written flags and counts, the note cleared (R21). -/
def State.walkedTables (s : State) : State :=
  { s.walkFlags.walkPools with tally.note := [], tally.recounts := [] }

/-- A record with its flag set from its marker (R21). -/
def State.walkFlagged (s : State) (id : Nat) (p : Principal) : Principal :=
  { p with unsettled := p.unsettled || s.walkMarks id p, marker := false }

theorem prin_walkFlags (s : State) (id : Nat) : s.walkFlags.prin id = (s.prin id).map (s.walkFlagged id) :=
  tget_tmap s.walkFlagged s.tally.principals id

/-- What the walk writes into a pool's record and what it leaves of a person's (R21). -/
def poolWalked (n : Nat) (p : Principal) : Principal :=
  if p.kind = .pool then { p with unsettledMembers := n, unsettled := p.unsettled || decide (0 < n) } else p

theorem prin_walkedTables (s : State) (id : Nat) : s.walkedTables.prin id =
    (s.walkFlags.prin id).map (poolWalked ((s.walkFlags.membersOf id).filter fun m => m.2.unsettled).length) :=
  tget_tmap (fun k => poolWalked ((s.walkFlags.membersOf k).filter fun m : Nat × Principal => m.2.unsettled).length)
    s.walkFlags.tally.principals id

theorem unsettledMember_poolWalked (id : Nat) (n : Nat) (k : Nat) (p : Principal) :
    unsettledMember id (k, poolWalked n p) = unsettledMember id (k, p) := by
  unfold poolWalked
  split
  · next hpool =>
    unfold unsettledMember
    simp [hpool]
  · rfl

theorem unsettledMembers_walked (s : State) (id : Nat) :
    ((s.walkedTables.membersOf id).filter fun m => m.2.unsettled).length =
      ((s.walkFlags.membersOf id).filter fun m => m.2.unsettled).length := by
  rw [unsettledMembers_map (s := s.walkedTables) s.walkedTables.tally.principals (fun kp => kp) (unsettledMember id)
      (fun _ => rfl) rfl,
    unsettledMembers_map (s := s.walkFlags) s.walkFlags.tally.principals
      (fun kp => (kp.1, poolWalked ((s.walkFlags.membersOf kp.1).filter fun m => m.2.unsettled).length kp.2))
      (unsettledMember id) (fun kp => unsettledMember_poolWalked id _ kp.1 kp.2) rfl, List.map_id']
  rfl

theorem wf_walkedTables (h : Tbl.wf s.tally.principals = true) : Tbl.wf s.walkedTables.tally.principals = true :=
  wf_tmap (fun k => poolWalked ((s.walkFlags.membersOf k).filter fun m : Nat × Principal => m.2.unsettled).length)
    (wf_tmap s.walkFlagged h)

/-! ### The rest of the walk -/

/-- A principal's grace state as the rebuilt Grace Queue marks it (R42). -/
def graceRebuilt (q : List GraceEntry) (id : Nat) (p : Principal) : Principal :=
  match p.grace with
  | .grace d _ => { p with grace := .grace d (q.any fun e => e.id == id) }
  | _ => p

theorem rebuildGrace_principals (s : State) : s.rebuildGrace.tally.principals =
    tmap (graceRebuilt (s.inGrace.take Config.graceQueueSize)) s.tally.principals := rfl

theorem principalCore_graceRebuilt (q : List GraceEntry) (id : Nat) (p : Principal) :
    principalCore (graceRebuilt q id p) = principalCore p := by
  unfold graceRebuilt
  split <;> rfl

theorem rebuildGrace_cores (s : State) : s.rebuildGrace.cores = s.cores := by
  unfold State.cores
  rw [rebuildGrace_principals, tmap_eq_map, List.map_map]
  refine List.map_congr_left fun kp _ => ?_
  exact congrArg (Prod.mk kp.1) (principalCore_graceRebuilt _ kp.1 kp.2)

theorem powerWork_failLoading (s : State) (rec : Nat) : PowerWork (Eq rec) s (s.failLoading rec) :=
  (powerWork_modRestore s rec _).trans (powerFail_work _ rec)

/-- The walk's tables, the recounts begun and the Grace Queue rebuilt, before the restores are failed. -/
def State.walkReported (s : State) (before : Nat) : State :=
  let w := s.walkedTables
  (if 0 < w.unsettledCount - before then w.raise (.unsettled (w.unsettledCount - before))
    else w).beginRecounts.rebuildGrace

theorem endWalk_eq (s : State) (before : Nat) : s.endWalk before =
    (((s.walkReported before).rst.table.map Prod.fst).foldl State.failLoading (s.walkReported before)).modSup fun u =>
      { u with stage := .walked } := rfl

theorem walkReported_spec (s : State) (before : Nat) (hwf : Tbl.wf s.tally.principals = true) :
    Tbl.wf (s.walkReported before).tally.principals = true ∧ (s.walkReported before).cores = s.walkedTables.cores ∧
      (s.walkReported before).tally.note = [] ∧ (s.walkReported before).tally.ops = s.tally.ops ∧
      (s.walkReported before).tally.postings = s.tally.postings ∧
      (s.walkReported before).tally.modeReply = s.tally.modeReply ∧
      (s.walkReported before).tally.flushing = s.tally.flushing ∧ (s.walkReported before).pat = s.pat ∧
      (s.walkReported before).rst = s.rst ∧ supKept s.sup (s.walkReported before).sup := by
  obtain ⟨x, hx⟩ : ∃ x, x = if 0 < s.walkedTables.unsettledCount - before then
    s.walkedTables.raise (.unsettled (s.walkedTables.unsettledCount - before)) else s.walkedTables := ⟨_, rfl⟩
  have hkeep : x.tally = s.walkedTables.tally ∧ x.pat = s.pat ∧ x.rst = s.rst ∧ supKept s.sup x.sup := by
    rw [hx]
    split
    · refine ⟨raise_tally _ _, (raise_parts _ _).2.1, ?_, supKept_raise _ (supKept_refl s.sup)⟩
      rw [raise_eq]
      rfl
    · exact ⟨rfl, rfl, rfl, supKept_refl _⟩
  obtain ⟨htally, hpat, hrst, hsup⟩ := hkeep
  have hdef : s.walkReported before = x.beginRecounts.rebuildGrace := by
    rw [hx]
    rfl
  have hframe : x.beginRecounts = { x with tally.recounts := x.beginRecounts.tally.recounts } := beginRecounts_eq x _
  generalize x.beginRecounts = y at hdef hframe
  have hy : y.tally = { s.walkedTables.tally with recounts := y.tally.recounts } := by
    rw [← htally]
    exact congrArg State.tally hframe
  have hprin : y.tally.principals = s.walkedTables.tally.principals := by rw [hy]
  rw [hdef]
  refine ⟨by
    rw [rebuildGrace_principals]
    exact wf_tmap _ (by rw [hprin]; exact wf_walkedTables hwf),
    (rebuildGrace_cores y).trans ?_, ?_, ?_, ?_, ?_, ?_, ?_, ?_, ?_⟩
  · unfold State.cores
    rw [hprin]
  · change y.tally.note = _
    rw [hy]
    rfl
  · change y.tally.ops = _
    rw [hy]
    rfl
  · change y.tally.postings = _
    rw [hy]
    rfl
  · change y.tally.modeReply = _
    rw [hy]
    rfl
  · change y.tally.flushing = _
    rw [hy]
    rfl
  · change y.pat = _
    rw [hframe]
    exact hpat
  · change y.rst = _
    rw [hframe]
    exact hrst
  · change supKept s.sup y.sup
    rw [hframe]
    exact hsup

theorem supKept_setStage {v : Supervisor} {u : Supervisor} (st : LoadStage) (h : supKept u v) :
    supKept { u with stage := st } { v with stage := st } := by
  obtain ⟨hop, -, hrest⟩ := h
  exact ⟨hop, rfl, hrest⟩

/-- The walk has ended: what it leaves, and what the end of its step does. -/
theorem walkEnd_spec (hop : s.sup.op = .loading) (hstage : s.sup.stage = .walking) (htally : s.tallyStill)
    (hpat : s.patrolStill) (hwf : Tbl.wf s.tally.principals = true) :
    ∃ t, Sys2Proof.Machine.exec (.tallyLoadingWalkEnd []) s = .next t ∧ t.sup.stage = .walked ∧
      SupKept { s with sup.stage := .walked } t ∧ t.tally.note = [] ∧ t.cores = s.walkedTables.cores ∧
      ∀ rec r, t.restore rec = some r → r.state.isActive = false := by
  let a : State := { s with sent := [] }
  have hrun : s.sup.op ≠ .halted := fun hno => nomatch hop.symm.trans hno
  have hexec : Sys2Proof.Machine.exec (.tallyLoadingWalkEnd []) s = .next (a.endWalk a.unsettledCount).finish := by
    change execTallyLoadingWalkEnd [] s = _
    unfold execTallyLoadingWalkEnd
    rw [act_running _ hrun, if_pos ⟨hop, hstage⟩]
    exact congrArg Host.Outcome.next (withErrs_nil _ hrun)
  obtain ⟨xwf, xcores, xnote, xops, xpost, xmode, xflush, xpat, xrst, xsup⟩ :=
    walkReported_spec a a.unsettledCount hwf
  rw [endWalk_eq] at hexec
  generalize a.walkReported a.unsettledCount = x at hexec xwf xcores xnote xops xpost xmode xflush xpat xrst xsup
  have hwork := powerWork_each powerWork_failLoading (x.rst.table.map Prod.fst) x
  have hends (k : Nat) (hk : k ∈ x.rst.table.map Prod.fst) :=
    each_inactive (s := x) powerWork_failLoading (fun u j => powerFail_inactive (u.modRestore j _) j) hk
  have hysup : supKept s.sup ((x.rst.table.map Prod.fst).foldl State.failLoading x).sup :=
    supKept_foldl _ _ (fun _ _ h => supKept_powerFail _ h) xsup
  generalize (x.rst.table.map Prod.fst).foldl State.failLoading x = y at hexec hwork hends hysup
  obtain ⟨w, hw⟩ : ∃ w : State, w = y.modSup fun u => { u with stage := .walked } := ⟨_, rfl⟩
  rw [← hw] at hexec
  obtain ⟨-, hcores⟩ := hwork.cores xwf
  have hwtally : w.tally = y.tally := by rw [hw]; rfl
  have hwsup : SupKept { s with sup.stage := .walked } w := by
    rw [hw]
    exact supKept_setStage .walked hysup
  have hwrun : w.sup.op ≠ .halted := by
    rw [hwsup.1]
    exact hrun
  have hwstill : w.patrolStill := by
    have hwpat : w.pat = s.pat := by
      rw [hw]
      exact hwork.pat.trans xpat
    unfold State.patrolStill
    rw [hwpat]
    exact hpat
  obtain ⟨hops, hpost, hmode, hflush⟩ := htally
  have hquiet : ∀ o ∈ w.tally.ops, o.job.runsAtOnce = false := by
    rw [hwtally]
    refine hwork.once fun o ho => ?_
    rw [xops] at ho
    rw [show a.tally.ops = [] from hops] at ho
    cases ho
  have hfields : w.tally.postings = [] ∧ w.tally.modeReply = [] ∧ w.tally.flushing = false ∧ w.tally.note = [] := by
    rw [hwtally, hwork.tally]
    exact ⟨xpost.trans hpost, xmode.trans hmode, xflush.trans hflush, xnote⟩
  obtain ⟨wpost, wmode, wflush, wnote⟩ := hfields
  have hg := advance_gatherOnly hquiet wpost wmode wflush
  have hftally : w.finish.tally = w.advance.tally := by rw [finish_running hwrun, settle_tally]
  refine ⟨w.finish, hexec, ?_, ?_, ?_, ?_, ?_⟩
  · rw [(finish_gathers hwrun hquiet wpost wmode wflush hwstill).1, hw]
    rfl
  · unfold SupKept
    rw [(finish_gathers hwrun hquiet wpost wmode wflush hwstill).1]
    exact hwsup
  · rw [hftally, hg.frame]
    exact wnote
  · have hprins : w.finish.tally.principals = y.tally.principals := by rw [hftally, hg.principals, hwtally]
    unfold State.cores at hcores xcores ⊢
    rw [hprins, hcores, xcores]
    rfl
  · intro rec r hr
    rw [State.restore, finish_rst, hw] at hr
    by_cases hk : rec ∈ x.rst.table.map Prod.fst
    · exact hends rec hk r hr
    · have hnone : x.restore rec = some r := (hwork.others rec hk).symm.trans hr
      exact absurd (mem_keys hnone) hk

end

end Sys2Proof.Machine
end

section
/-! PROOF. O13: the walk of LOADING, and the state in which LOADING ends (R21, R184). -/

namespace Sys2Proof.Machine

section
variable {s t u : State} {l : Link}

/-! ### Entry to HOLDUP and the Supervisor -/

theorem supKept_setQuiet {u v : Supervisor} (w : Option QuietWait) (h : supKept u v) :
    supKept { u with quiet := w } { v with quiet := w } := by
  obtain ⟨h1, h2, h3, h4, h5, h6, h7, h8, h9, h10, h11, -, hrest⟩ := h
  exact ⟨h1, h2, h3, h4, h5, h6, h7, h8, h9, h10, h11, rfl, hrest⟩

/-- Of the Supervisor's registers only what waits for quiet changes (R185). -/
theorem refuseWaiting_sup (s : State) : supKept { s.sup with quiet := none } s.refuseWaiting.sup := by
  unfold State.refuseWaiting
  dsimp only
  have hx : supKept s.sup (allLinks.foldl (fun s l =>
      (((s.link l).queue.filter fun e => !e.taken).map ReqEntry.num).foldl
        (fun s q => s.reply l q .wrongState .none) s) s).sup :=
    supKept_foldl _ _ (fun _ _ h => supKept_foldl _ _ (fun _ _ h => supKept_reply _ _ _ _ h) h) (supKept_refl s.sup)
  generalize allLinks.foldl _ s = x at hx ⊢
  split
  · exact supKept_reply _ _ _ _ (supKept_setQuiet none hx)
  · next hnone =>
    have hquiet : x.sup.quiet = none := hnone
    obtain ⟨h1, h2, h3, h4, h5, h6, h7, h8, h9, h10, h11, -, hrest⟩ := hx
    exact ⟨h1, h2, h3, h4, h5, h6, h7, h8, h9, h10, h11, hquiet, hrest⟩

/-- Entry to HOLDUP after the requests have been turned away (R186). -/
def State.holdupWork (s : State) : State :=
  ((s.rst.table.map Prod.fst).foldl State.powerFail
    { s with tally.recounts := [], tally.flushing := true }).offsiteHoldup.streamHoldup.patrolHoldup

theorem enterHoldup_eq (s : State) : s.enterHoldup =
    State.holdupWork (State.refuseWaiting (s.modSup fun u => { u with op := .holdup })) := by
  unfold State.enterHoldup State.holdupWork
  dsimp only

theorem holdupWork_sup (s : State) : supKept s.sup s.holdupWork.sup :=
  supKept_patrolHoldup (supKept_streamHoldup (supKept_offsiteHoldup
    (supKept_foldl _ _ (fun _ _ h => supKept_powerFail _ h) (supKept_refl s.sup))))

theorem enterHoldup_sup (s : State) : supKept { s.sup with op := .holdup, quiet := none } s.enterHoldup.sup := by
  rw [enterHoldup_eq]
  obtain ⟨x, hx⟩ : ∃ x : State, x = s.modSup fun u => { u with op := .holdup } := ⟨_, rfl⟩
  rw [← hx]
  have hsup : { s.sup with op := .holdup, quiet := none } = { x.sup with quiet := none } := by
    rw [hx]
    rfl
  rw [hsup]
  exact (refuseWaiting_sup x).trans (holdupWork_sup _)

/-! ### The end of LOADING -/

/-- The Supervisor's registers with the clean-shutdown flag read and written clear (R184). -/
def Supervisor.flagRead (u : Supervisor) : Supervisor := { u with prevClean := u.cleanFlag, cleanFlag := false }

/-- The state that LOADING ends in (R184). -/
def Supervisor.loadedOp (u : Supervisor) : OpState :=
  if u.powerWarn then .holdup else if u.settings.autoActivate then .active else .standby

/-- The end of LOADING sets the state, the flag, and at most what waits for quiet. -/
theorem endLoading_sup (s : State) : ∃ w,
    supKept { s.sup.flagRead with op := s.sup.loadedOp, quiet := w } s.endLoading.sup := by
  unfold State.endLoading
  obtain ⟨x, hx⟩ : ∃ x : State, x = s.modSup fun u => { u with prevClean := u.cleanFlag, cleanFlag := false } :=
    ⟨_, rfl⟩
  rw [← hx]
  have hsup : x.sup = s.sup.flagRead := by
    rw [hx]
    rfl
  have hwarn : x.sup.powerWarn = s.sup.powerWarn := by rw [hsup]; rfl
  have hauto : x.sup.settings.autoActivate = s.sup.settings.autoActivate := by rw [hsup]; rfl
  unfold Supervisor.loadedOp
  dsimp only
  rw [hwarn, hauto]
  split
  · refine ⟨none, ?_⟩
    have h := enterHoldup_sup x
    rw [hsup] at h
    exact h
  · split
    · refine ⟨s.sup.quiet, ?_⟩
      have hact : supKept { s.sup.flagRead with op := .active, quiet := s.sup.quiet }
          (x.modSup fun u => { u with op := .active }).sup := by
        change supKept _ { x.sup with op := .active }
        rw [hsup]
        exact supKept_refl _
      split
      · exact supKept_askOpening hact
      · exact hact
    · refine ⟨s.sup.quiet, ?_⟩
      change supKept _ { x.sup with op := .standby }
      rw [hsup]
      exact supKept_refl _

theorem loadingEnd_spec (h : s.loaded = true) : ∃ t w, Sys2Proof.Machine.exec .loadingEnd s = .next t ∧
    supKept { s.sup.flagRead with op := s.sup.loadedOp, quiet := w } t.sup := by
  have hop : s.sup.op = .loading := by
    unfold State.loaded at h
    simp only [Bool.and_eq_true, decide_eq_true_eq] at h
    exact h.1.1.1.1
  have hrun : s.sup.op ≠ .halted := fun hno => nomatch hop.symm.trans hno
  obtain ⟨w, hw⟩ := endLoading_sup { s with sent := [] }
  refine ⟨State.finish (State.endLoading { s with sent := [] }), w, ?_, supKept_finish hw⟩
  change execLoadingEnd s [] = _
  unfold execLoadingEnd
  refine (act_withErrs_nil _ hrun).trans (congrArg Host.Outcome.next ?_)
  exact if_pos h

/-! ### The records of principals after the walk -/

/-- What the walk leaves of a principal's record (R21). -/
theorem walked_prin (hcores : t.cores = s.walkedTables.cores) {id : Nat} {p : Principal} (hp : s.prin id = some p) :
    ∃ p', t.prin id = some p' ∧ p'.marker = false ∧ p'.used = p.used ∧ p'.reserved = p.reserved ∧
      (p.kind = .person → p'.unsettled = (p.unsettled || p.marker || s.tally.note.contains id)) ∧
      (p.kind = .pool →
        p'.unsettledMembers = ((t.membersOf id).filter fun m => m.2.unsettled).length ∧
        p'.unsettled =
          (p.unsettled || p.marker || s.tally.note.contains id || decide (0 < p'.unsettledMembers))) := by
  obtain ⟨n, hn⟩ : ∃ n, n = ((s.walkFlags.membersOf id).filter fun m => m.2.unsettled).length := ⟨_, rfl⟩
  have hcount : ((t.membersOf id).filter fun m => m.2.unsettled).length = n :=
    (unsettledMembers_cores hcores id).trans ((unsettledMembers_walked s id).trans hn.symm)
  have hread : (t.prin id).map principalCore = some (principalCore (poolWalked n (s.walkFlagged id p))) := by
    rw [prin_of_cores hcores, prin_walkedTables, prin_walkFlags, hp, ← hn]
    rfl
  obtain ⟨p', hp', hcore⟩ := Option.map_eq_some_iff.1 hread
  have hmark : (s.walkFlagged id p).unsettled = (p.unsettled || p.marker || s.tally.note.contains id) :=
    (Bool.or_assoc _ _ _).symm
  have hfields : p'.marker = (poolWalked n (s.walkFlagged id p)).marker ∧
      p'.used = (poolWalked n (s.walkFlagged id p)).used ∧
      p'.reserved = (poolWalked n (s.walkFlagged id p)).reserved ∧
      p'.unsettled = (poolWalked n (s.walkFlagged id p)).unsettled ∧
      p'.unsettledMembers = (poolWalked n (s.walkFlagged id p)).unsettledMembers :=
    ⟨(congrArg Principal.marker hcore :), (congrArg Principal.used hcore :), (congrArg Principal.reserved hcore :),
      (congrArg Principal.unsettled hcore :), (congrArg Principal.unsettledMembers hcore :)⟩
  obtain ⟨hmarker, hused, hres, hun, hmem⟩ := hfields
  rw [hcount]
  unfold poolWalked at hmarker hused hres hun hmem
  by_cases hk : p.kind = .pool
  · have hpool : (s.walkFlagged id p).kind = .pool := hk
    rw [if_pos hpool] at hmarker hused hres hun hmem
    refine ⟨p', hp', hmarker, hused, hres, fun hperson => (nomatch hk.symm.trans hperson), fun _ => ⟨hmem, ?_⟩⟩
    rw [hun, hmem, ← hmark]
  · have hpool : (s.walkFlagged id p).kind ≠ .pool := hk
    rw [if_neg hpool] at hmarker hused hres hun hmem
    exact ⟨p', hp', hmarker, hused, hres, fun _ => hun.trans hmark, fun hno => absurd hno hk⟩

end

end Sys2Proof.Machine

open Sys2Proof Sys2Proof.Machine

/-- Settles O13: the walk's tables differ from the tables found in flags and counts alone, the rest of the step
changes no record that they are read from, and the end of LOADING writes flag and state before anything else. -/
theorem loadingWalkSettlesTheFlagsAndEnds : Obligations.LoadingWalkSettlesTheFlagsAndEnds := by
  unfold Obligations.LoadingWalkSettlesTheFlagsAndEnds
  refine ⟨fun s hop hstage htally hpat hwf _ => ?_, fun s hloaded => ?_⟩
  · obtain ⟨t, hexec, htstage, hsup, hnote, hcores, hrest⟩ := walkEnd_spec hop hstage htally hpat hwf
    exact ⟨t, hexec, htstage, hsup, hnote, fun id p hp => walked_prin hcores hp, hrest⟩
  · obtain ⟨t, w, hexec, hsup⟩ := loadingEnd_spec hloaded
    obtain ⟨hop, -, -, hclock, -, -, -, -, -, hflag, hprev, -, hsettings, -⟩ := hsup
    refine ⟨t, hexec, hprev, hflag, hclock, hsettings, fun hw => ?_, fun hw ha => ?_, fun hw ha => ?_⟩
    · rw [hop]
      exact if_pos hw
    · rw [hop]
      change (if s.sup.powerWarn then _ else _) = _
      rw [hw, if_neg Bool.false_ne_true]
      exact if_pos ha
    · rw [hop]
      change (if s.sup.powerWarn then _ else _) = _
      rw [hw, ha]
      rfl

end

section
/-! PROOF. O6: fields of bytes, and the frames of both links as they are sent and read (R1, R141, R170). -/

namespace Sys2Proof.Machine

section
variable {n k : Nat} {xs ys rest : List Byte}

/-! ### Fields of bytes -/

@[simp] theorem length_leBytes (k n : Nat) : (leBytes k n).length = k := by
  induction k generalizing n with
  | zero => rfl
  | succ k ih => exact congrArg (· + 1) (ih _)

theorem leValue_leBytes (h : n < 256 ^ k) : leValue (leBytes k n) = n := by
  induction k generalizing n with
  | zero =>
    have hzero : n = 0 := by simpa using h
    exact hzero.symm
  | succ k ih =>
    have hdiv : n / 256 < 256 ^ k := Nat.div_lt_of_lt_mul (by rwa [Nat.pow_succ, Nat.mul_comm] at h)
    change (BitVec.ofNat 8 n).toNat + 256 * leValue (leBytes k (n / 256)) = n
    rw [ih hdiv, BitVec.toNat_ofNat]
    exact Nat.mod_add_div n 256

/-- The field at the front of a string of bytes. -/
theorem leValue_take (h : n < 256 ^ k) : leValue ((leBytes k n ++ rest).take k) = n := by
  rw [List.take_left' (length_leBytes k n), leValue_leBytes h]

/-- Past the field at the front. -/
theorem drop_field (j k n : Nat) (rest : List Byte) : (leBytes k n ++ rest).drop (k + j) = rest.drop j := by
  rw [← List.drop_drop, List.drop_left' (length_leBytes k n)]

/-! ### Server-link frames -/

theorem length_covered (f : Frame) : f.covered.length = 7 + f.body.length := by
  unfold Frame.covered
  simp only [List.length_append, length_leBytes]
  omega

/-- What the check code of a frame covers is read back field by field (Table 10-1). -/
theorem covered_fields {f : Frame} (h : f.fits = true) (rest : List Byte) :
    leValue ((f.covered ++ rest).take 1) = f.kind ∧ leValue (((f.covered ++ rest).drop 1).take 1) = f.flags ∧
      leValue (((f.covered ++ rest).drop 2).take 2) = f.tag ∧
      leValue (((f.covered ++ rest).drop 4).take 3) = f.body.length ∧ f.covered.drop 7 = f.body := by
  unfold Frame.fits at h
  simp only [Bool.and_eq_true, decide_eq_true_eq] at h
  obtain ⟨⟨⟨hkind, hflags⟩, htag⟩, hbody⟩ := h
  have hlen : f.body.length < 256 ^ 3 := Nat.lt_of_le_of_lt hbody (by decide)
  unfold Frame.covered
  simp only [List.append_assoc]
  refine ⟨leValue_take hkind, ?_, ?_, ?_, ?_⟩
  · rw [drop_field 0 1]
    exact leValue_take hflags
  · rw [drop_field 1 1, drop_field 0 1]
    exact leValue_take htag
  · rw [drop_field 3 1, drop_field 2 1, drop_field 0 2]
    exact leValue_take hlen
  · rw [drop_field 6 1, drop_field 5 1, drop_field 3 2, drop_field 0 3]
    rfl

theorem codeMatches_covered {len : Nat} (h : xs.length = 7 + len) :
    codeMatches (xs ++ leBytes 4 (checkCode xs).toNat) len = true := by
  unfold codeMatches
  rw [List.length_append, length_leBytes, List.drop_left' h, List.take_left' h, h]
  simp

/-- A frame that fits is read back as it was sent (R170). -/
theorem parseFrame_encode {f : Frame} (h : f.fits = true) : parseFrame f.encode = .good f := by
  obtain ⟨c, hc⟩ : ∃ c, c = leBytes 4 (checkCode f.covered).toNat := ⟨_, rfl⟩
  obtain ⟨hkind, hflags, htag, hbodylen, hbody⟩ := covered_fields h []
  rw [List.append_nil] at hkind hflags htag
  have hlen : leValue (((f.covered ++ c).drop 4).take 3) = f.body.length := by
    obtain ⟨-, -, -, hlen, -⟩ := covered_fields h c
    exact hlen
  have hmatch : codeMatches (f.covered ++ c) f.body.length = true := by
    rw [hc]
    exact codeMatches_covered (length_covered f)
  have hmax : ¬ f.body.length > maxBody := by
    unfold Frame.fits at h
    simp only [Bool.and_eq_true, decide_eq_true_eq] at h
    exact Nat.not_lt.2 h.2
  unfold parseFrame Frame.encode
  rw [← hc, List.take_left' (length_leBytes 2 _), List.drop_left' (length_leBytes 2 _), if_neg fun hno => hno rfl]
  dsimp only
  rw [hlen, if_neg hmax, if_pos hmatch, List.take_left' (length_covered f), hkind, hflags, htag, hbody]

/-! ### Offsite frames -/

theorem length_offsiteCovered (f : OffsiteFrame) : f.covered.length = 6 + f.body.length := by
  unfold OffsiteFrame.covered
  simp only [List.length_append, length_leBytes]
  omega

/-- What the check code of an offsite frame covers is read back field by field (Table 8-2). -/
theorem offsiteCovered_fields {f : OffsiteFrame} (h : f.fits = true) (rest : List Byte) :
    leValue ((f.covered ++ rest).take 1) = f.kind ∧ leValue (((f.covered ++ rest).drop 1).take 2) = f.number ∧
      leValue (((f.covered ++ rest).drop 3).take 3) = f.body.length ∧ f.covered.drop 6 = f.body := by
  unfold OffsiteFrame.fits at h
  simp only [Bool.and_eq_true, decide_eq_true_eq] at h
  obtain ⟨⟨hkind, hnum⟩, hbody⟩ := h
  have hlen : f.body.length < 256 ^ 3 := Nat.lt_of_le_of_lt hbody (by decide)
  unfold OffsiteFrame.covered
  simp only [List.append_assoc]
  refine ⟨leValue_take hkind, ?_, ?_, ?_⟩
  · rw [drop_field 0 1]
    exact leValue_take hnum
  · rw [drop_field 2 1, drop_field 0 2]
    exact leValue_take hlen
  · rw [drop_field 5 1, drop_field 3 2, drop_field 0 3]
    rfl

/-- An offsite frame that fits is read back as it was sent (R141). -/
theorem parseOffsite_encode {f : OffsiteFrame} (h : f.fits = true) : parseOffsite f.encode = some f := by
  obtain ⟨c, hc⟩ : ∃ c, c = leBytes 4 (checkCode f.covered).toNat := ⟨_, rfl⟩
  obtain ⟨hkind, hnum, -, hbody⟩ := offsiteCovered_fields h []
  rw [List.append_nil] at hkind hnum
  have hlen : leValue (((f.covered ++ c).drop 3).take 3) = f.body.length := by
    obtain ⟨-, -, hlen, -⟩ := offsiteCovered_fields h c
    exact hlen
  have hmax : ¬ f.body.length > maxBody := by
    unfold OffsiteFrame.fits at h
    simp only [Bool.and_eq_true, decide_eq_true_eq] at h
    exact Nat.not_lt.2 h.2
  have hbytes : (f.covered ++ c).length = 6 + f.body.length + 4 := by
    rw [List.length_append, length_offsiteCovered, hc, length_leBytes]
  unfold parseOffsite OffsiteFrame.encode
  rw [← hc]
  dsimp only
  rw [hlen, if_neg hmax, if_neg fun hno => hno hbytes, List.take_left' (length_offsiteCovered f),
    List.drop_left' (length_offsiteCovered f), if_pos hc, hkind, hnum, hbody]

/-! ### Commands in frames -/

theorem length_codes (cs : List Code) : (cs.flatMap fun c => leBytes 4 c.toNat).length = 4 * cs.length := by
  induction cs with
  | nil => rfl
  | cons c cs ih =>
    rw [List.flatMap_cons, List.length_append, length_leBytes, ih, List.length_cons]
    omega

/-- The codes of a Commit's body are read back (Table 10-3). -/
theorem codesFrom_codes (cs : List Code) : codesFrom cs.length (cs.flatMap fun c => leBytes 4 c.toNat) = cs := by
  induction cs with
  | nil => rfl
  | cons c cs ih =>
    change BitVec.ofNat 32 (leValue ((leBytes 4 c.toNat ++ cs.flatMap fun c => leBytes 4 c.toNat).take 4)) ::
      codesFrom cs.length ((leBytes 4 c.toNat ++ cs.flatMap fun c => leBytes 4 c.toNat).drop 4) = _
    rw [leValue_take c.isLt, List.drop_left' (length_leBytes 4 _), ih, BitVec.ofNat_toNat, BitVec.setWidth_eq]

/-- The length of a Commit's body: 15 bytes and the codes (R170). -/
theorem length_commitBody (vol ext owner loc occ : Nat) (codes : Option (List Code)) :
    (commitBody vol ext owner loc occ codes).length = 15 + 4 * (codes.getD []).length := by
  unfold commitBody
  simp only [List.length_append, length_leBytes]
  cases codes with
  | none => rfl
  | some cs =>
    dsimp only [Option.getD]
    rw [length_codes]
    omega

/-- The fields of a Commit's body (Table 10-3). -/
theorem commitBody_fields {vol ext owner loc occ : Nat} (codes : Option (List Code)) (hvol : vol < 2 ^ 8)
    (hext : ext < 2 ^ 24) (howner : owner < 2 ^ 24) (hloc : loc < 2 ^ 48) (hocc : occ < 2 ^ 16) :
    leValue ((commitBody vol ext owner loc occ codes).take 1) = vol ∧
      leValue (((commitBody vol ext owner loc occ codes).drop 1).take 3) = ext ∧
      leValue (((commitBody vol ext owner loc occ codes).drop 4).take 3) = owner ∧
      leValue (((commitBody vol ext owner loc occ codes).drop 7).take 6) = loc ∧
      leValue (((commitBody vol ext owner loc occ codes).drop 13).take 2) = occ ∧
      (commitBody vol ext owner loc occ codes).drop 15 =
        (codes.getD []).flatMap fun c => leBytes 4 c.toNat := by
  unfold commitBody
  refine ⟨leValue_take hvol, ?_, ?_, ?_, ?_, ?_⟩
  · rw [drop_field 0 1]
    exact leValue_take hext
  · rw [drop_field 3 1, drop_field 0 3]
    exact leValue_take howner
  · rw [drop_field 6 1, drop_field 3 3, drop_field 0 3]
    exact leValue_take hloc
  · rw [drop_field 12 1, drop_field 9 3, drop_field 6 3, drop_field 0 6]
    exact leValue_take hocc
  · rw [drop_field 14 1, drop_field 11 3, drop_field 8 3, drop_field 2 6, drop_field 0 2]
    cases codes <;> rfl

theorem commit_spelled (l : Link) (errs : List StoreError) (tag : Nat) {vol ext owner loc occ : Nat}
    (codes : Option (List Code)) (hvol : vol < 2 ^ 8) (hext : ext < 2 ^ 24) (howner : owner < 2 ^ 24)
    (hloc : loc < 2 ^ 48) (hocc : occ < 2 ^ 16) (hcodes : ∀ cs, codes = some cs → cs.length = 16) :
    Frame.commit l errs { kind := 16, flags := 1, tag := tag, body := commitBody vol ext owner loc occ codes } =
      some (.commit l tag vol ext owner loc occ codes errs) := by
  obtain ⟨h1, h2, h3, h4, h5, h6⟩ := commitBody_fields codes hvol hext howner hloc hocc
  have hlen := length_commitBody vol ext owner loc occ codes
  generalize commitBody vol ext owner loc occ codes = b at h1 h2 h3 h4 h5 h6 hlen
  have hread : (if b.length = 79 then some (codesFrom 16 (b.drop 15)) else none) = codes := by
    cases codes with
    | none => exact if_neg (by rw [hlen]; decide)
    | some cs =>
      have hcs := hcodes cs rfl
      have hback := codesFrom_codes cs
      rw [hcs] at hback
      rw [if_pos (by rw [hlen]; change 15 + 4 * cs.length = 79; rw [hcs]), h6]
      exact congrArg some hback
  have hfits : requestFits 16 b = true := by
    unfold requestFits
    rw [if_neg (by decide), if_pos rfl]
    cases codes with
    | none => rw [hlen]; rfl
    | some cs =>
      have hcs := hcodes cs rfl
      rw [hlen]
      change (decide (15 + 4 * cs.length = 15) || decide (15 + 4 * cs.length = 79)) = true
      rw [hcs]
      rfl
  unfold Frame.commit
  rw [if_pos ⟨rfl, rfl, hfits⟩]
  dsimp only
  rw [h1, h2, h3, h4, h5, hread]

theorem admitReq_spelled (l : Link) (errs : List StoreError) (tag : Nat) {principal n q : Nat} (part : Bool)
    (hp : principal < 2 ^ 24) (hn : n < 2 ^ 24) (hq : q < 2 ^ 16) :
    Frame.admitReq l errs { kind := 1, flags := 1, tag := tag, body := admitBody principal n q part } =
      some (.admitReq l tag principal n q part errs) := by
  obtain ⟨o, ho⟩ : ∃ o : Nat, o = if part then 1 else 0 := ⟨_, rfl⟩
  have hone : o < 256 ^ 1 := by
    rw [ho]
    split <;> decide
  have hfields : leValue ((admitBody principal n q part).take 3) = principal ∧
      leValue (((admitBody principal n q part).drop 3).take 3) = n ∧
      leValue (((admitBody principal n q part).drop 6).take 2) = q ∧
      leValue ((admitBody principal n q part).drop 8) = o := by
    unfold admitBody
    rw [← ho]
    refine ⟨leValue_take hp, ?_, ?_, ?_⟩
    · rw [drop_field 0 3]
      exact leValue_take hn
    · rw [drop_field 3 3, drop_field 0 3]
      exact leValue_take hq
    · rw [drop_field 5 3, drop_field 2 3, drop_field 0 2]
      exact leValue_leBytes hone
  have hlen : (admitBody principal n q part).length = 9 := by
    unfold admitBody
    simp only [List.length_append, length_leBytes]
  obtain ⟨h1, h2, h3, h4⟩ := hfields
  generalize admitBody principal n q part = b at h1 h2 h3 h4 hlen
  have hfits : requestFits 1 b = true := by
    unfold requestFits
    rw [if_pos rfl, hlen, h4, decide_eq_true (Nat.lt_succ_iff.1 (show o < 2 by rw [ho]; split <;> decide))]
    rfl
  unfold Frame.admitReq
  rw [if_pos ⟨rfl, rfl, hfits⟩]
  dsimp only
  rw [h1, h2, h3, h4, ho]
  cases part <;> rfl

theorem extentData_spelled (l : Link) (errs : List StoreError) (tag : Nat) {idx : Nat} {data : List Byte}
    (hidx : idx < 2 ^ 8) (hdata : data.length = chunkBytes) :
    Frame.extentData l errs { kind := 128, flags := 8, tag := tag, body := leBytes 1 idx ++ data } =
      some (.extentData l tag idx data errs) := by
  have hfits : answerFits 128 (leBytes 1 idx ++ data) = true := by
    unfold answerFits
    rw [if_pos rfl, List.length_append, length_leBytes, hdata, decide_eq_true rfl]
  unfold Frame.extentData
  rw [if_pos ⟨rfl, rfl, hfits⟩]
  dsimp only
  rw [leValue_take hidx, List.drop_left' (length_leBytes 1 idx)]

theorem fetchData_spelled (errs : List StoreError) (num : Nat) {data : List Byte} (h : data.length = chunkBytes) :
    OffsiteFrame.command errs { kind := 171, number := num, body := data } = some (.fetchData num data errs) := by
  have hfits : peerFits 171 data = true := by
    unfold peerFits
    rw [if_pos rfl, h, decide_eq_true rfl]
  unfold OffsiteFrame.command
  exact (if_neg fun hno => Bool.noConfusion (hfits.symm.trans hno)).trans rfl

/-! ### The frames the part sends -/

theorem linkFrame_fits {f : LinkFrame} (htag : f.tag < 2 ^ 16) (hbody : f.body.length ≤ maxBody) :
    Frame.fits { kind := f.kind, flags := f.flags, tag := f.tag, body := f.body } = true := by
  have hkind : f.kind < 256 := by
    unfold LinkFrame.kind
    split <;> decide
  have hflags : f.flags < 256 := by
    unfold LinkFrame.flags
    split <;> decide
  unfold Frame.fits
  simp only [Bool.and_eq_true, decide_eq_true_eq]
  exact ⟨⟨⟨hkind, hflags⟩, htag⟩, hbody⟩

theorem offFrame_fits {f : OffFrame} (hnum : f.number < 2 ^ 16) (hbody : f.body.length ≤ maxBody) :
    OffsiteFrame.fits { kind := f.kind, number := f.number, body := f.body } = true := by
  have hkind : f.kind < 256 := by
    unfold OffFrame.kind
    split <;> decide
  unfold OffsiteFrame.fits
  simp only [Bool.and_eq_true, decide_eq_true_eq]
  exact ⟨⟨hkind, hnum⟩, hbody⟩

/-- A notice's body begins with its class code and the clock (R177). -/
theorem notice_body (m : Notice) :
    (LinkFrame.notice m).body.take 7 = leBytes 1 m.body.cls ++ leBytes 6 m.clock := by
  change ((leBytes 1 m.body.cls ++ leBytes 6 m.clock) ++ Config.noticeContents m.body).take 7 = _
  exact List.take_left' (by rw [List.length_append, length_leBytes, length_leBytes])

end

end Sys2Proof.Machine

open Sys2Proof Sys2Proof.Machine

/-- Settles O6: a field of k bytes reads back below 256^k, and each frame is read field by field. -/
theorem framesReadBackAndSpellTheirCommands : Obligations.FramesReadBackAndSpellTheirCommands := by
  unfold Obligations.FramesReadBackAndSpellTheirCommands
  refine ⟨fun f => parseFrame_encode, fun f => parseOffsite_encode,
    fun l errs tag principal n q part => admitReq_spelled l errs tag part,
    fun l errs tag vol ext owner loc occ cs hvol hext howner hloc hocc hcs => ⟨?_, ?_, ?_, ?_⟩,
    fun l errs tag idx data => extentData_spelled l errs tag,
    fun errs num data hdata => ⟨fetchData_spelled errs num hdata, rfl⟩,
    fun f htag hbody => parseFrame_encode (linkFrame_fits htag hbody),
    fun f hnum hbody => parseOffsite_encode (offFrame_fits hnum hbody), notice_body, rfl, rfl, rfl⟩
  · rw [length_commitBody]
    change 15 + 4 * cs.length = 79
    rw [hcs]
  · exact length_commitBody vol ext owner loc occ none
  · exact commit_spelled l errs tag (some cs) hvol hext howner hloc hocc fun _ h => Option.some.inj h ▸ hcs
  · exact commit_spelled l errs tag none hvol hext howner hloc hocc fun _ h => nomatch h

end

section
/-! PROOF. Entry to HOLDUP, block by block (R103, R116, R136, R154, R168, R186). -/

namespace Sys2Proof.Machine

section
variable {s t u : State}

/-! ### The Tally Unit goes on -/

theorem endModeSwitch_tally (s : State) : s.endModeSwitch.tally =
    { s.tally with modeReply := s.endModeSwitch.tally.modeReply, flushing := s.endModeSwitch.tally.flushing } := by
  unfold State.endModeSwitch
  split
  · rfl
  · split
    · have h := tallyKept_foldl (ta := { s.tally with modeReply := [], flushing := s.sup.op == OpState.holdup })
        (fun s (r : Link × Nat) => s.reply r.1 r.2 .done .none) s.tally.modeReply (s := { s with
          tally.modeReply := [], tally.flushing := s.sup.op == OpState.holdup })
        (fun _ _ hb => tallyKept_reply _ _ _ _ hb) rfl
      rw [h]
    · rfl

/-- The recounts stand, and each operation with its job. -/
def TallyRests (s t : State) : Prop :=
  t.tally.recounts = s.tally.recounts ∧ ∀ o ∈ s.tally.ops, ∃ x ∈ t.tally.ops, x.job = o.job

theorem TallyRests.trans (h : TallyRests s t) (k : TallyRests t u) : TallyRests s u := by
  refine ⟨k.1.trans h.1, fun o ho => ?_⟩
  obtain ⟨x, hx, hxo⟩ := h.2 o ho
  obtain ⟨y, hy, hyx⟩ := k.2 x hx
  exact ⟨y, hy, hyx.trans hxo⟩

theorem tallyRests_refl (s : State) : TallyRests s s := ⟨rfl, fun o ho => ⟨o, ho, rfl⟩⟩

theorem GatherOnly.rests (h : GatherOnly s t) : TallyRests s t := by
  refine ⟨h.recounts, fun o ho => ?_⟩
  obtain ⟨x, hx, -, hj⟩ := h.mem_of ho
  exact ⟨x, hx, hj⟩

theorem castoutDirty_rests (s : State) : TallyRests s s.castoutDirty := by
  refine ⟨?_, fun o ho => ⟨o, by rw [castoutDirty_ops]; exact ho, rfl⟩⟩
  rw [tidied_castoutDirty s]

theorem takePosting_rests (s : State) : TallyRests s s.takePosting := by
  obtain ⟨ht, hkeep, -⟩ := takePosting_spec s
  refine ⟨?_, fun o ho => ⟨o, hkeep o ho, rfl⟩⟩
  rw [ht]

/-- While no operation runs at once, whatever else the Tally Unit goes on with leaves recounts and operations. -/
theorem advance_rests (hj : ∀ o ∈ s.tally.ops, o.job.runsAtOnce = false) : TallyRests s s.advance := by
  have hgather (w : State) (hw : TallyRests s w ∧ ∀ o ∈ w.tally.ops, o.job.runsAtOnce = false) (n : Nat) :
      TallyRests s (w.advanceOp n) ∧ ∀ o ∈ (w.advanceOp n).tally.ops, o.job.runsAtOnce = false := by
    obtain ⟨hrest, hquiet⟩ := hw
    rw [advanceOp_gathers n hquiet]
    refine ⟨hrest.trans (gatherOnly_gather w n).rests, fun o ho => ?_⟩
    obtain ⟨x, hx, -, hxj⟩ := (gatherOnly_gather w n).mem ho
    rw [← hxj]
    exact hquiet x hx
  have hops (w : State) (hw : TallyRests s w ∧ ∀ o ∈ w.tally.ops, o.job.runsAtOnce = false) :
      TallyRests s w.advanceOps ∧ ∀ o ∈ w.advanceOps.tally.ops, o.job.runsAtOnce = false := by
    unfold State.advanceOps
    induction w.tally.ops.map TallyOp.num generalizing w with
    | nil => exact hw
    | cons n ns ih => exact ih _ (hgather w hw n)
  have htaken : TallyRests s s.castoutDirty.takePosting ∧
      ∀ o ∈ s.castoutDirty.takePosting.tally.ops, o.job.runsAtOnce = false := by
    refine ⟨(castoutDirty_rests s).trans (takePosting_rests _), fun o ho => ?_⟩
    obtain ⟨-, -, hnew⟩ := takePosting_spec s.castoutDirty
    refine (hnew o ho).elim (fun hold => ?_) id
    rw [castoutDirty_ops] at hold
    exact hj o hold
  unfold State.advance
  split
  · exact tallyRests_refl s
  · dsimp only
    obtain ⟨hrest, -⟩ := iter_keeps
      (P := fun w => TallyRests s w ∧ ∀ o ∈ w.tally.ops, o.job.runsAtOnce = false)
      hops (s.castoutDirty.takePosting.tally.ops.length + 1) htaken
    generalize iter _ State.advanceOps s.castoutDirty.takePosting = w at hrest
    have hcast := hrest.trans (castoutDirty_rests w)
    generalize w.castoutDirty = v at hcast
    refine hcast.trans ⟨?_, fun o ho => ⟨o, ?_, rfl⟩⟩
    · rw [endModeSwitch_tally]
    · rw [endModeSwitch_tally]
      exact ho

/-! ### Requests turned away -/

theorem othersKept_refused (s : State) :
    (allLinks.foldl (fun s l => (((s.link l).queue.filter fun e => !e.taken).map ReqEntry.num).foldl
      (fun s q => s.reply l q .wrongState .none) s) s).others = s.others :=
  othersKept_foldl _ _ (fun _ _ h => othersKept_foldl _ _ (fun _ _ h => othersKept_reply _ _ _ _ h) h) rfl

theorem tallyKept_refused (s : State) :
    (allLinks.foldl (fun s l => (((s.link l).queue.filter fun e => !e.taken).map ReqEntry.num).foldl
      (fun s q => s.reply l q .wrongState .none) s) s).tally = s.tally :=
  tallyKept_foldl _ _ (fun _ _ h => tallyKept_foldl _ _ (fun _ _ h => tallyKept_reply _ _ _ _ h) h) rfl

/-- The requests turned away touch links, the Supervisor and the Restores that wait, and nothing else (R182, R185). -/
theorem refuseWaiting_parts (s : State) : s.refuseWaiting.tally = s.tally ∧
    s.refuseWaiting.others = (s.cat, { s.rst with waiting := [] }, s.str, s.off, s.pat) := by
  have hothers := othersKept_refused s
  have htally := tallyKept_refused s
  unfold State.refuseWaiting
  dsimp only
  generalize allLinks.foldl _ s = x at hothers htally ⊢
  have hmod : State.others (x.modRst fun e => { e with waiting := [] }) =
      (s.cat, { s.rst with waiting := [] }, s.str, s.off, s.pat) := by
    unfold State.others at hothers
    simp only [Prod.mk.injEq] at hothers
    obtain ⟨hcat, hrst, hstr, hoff, hpat⟩ := hothers
    change (x.cat, { x.rst with waiting := [] }, x.str, x.off, x.pat) = _
    rw [hcat, hrst, hstr, hoff, hpat]
  split
  · exact ⟨tallyKept_reply _ _ _ _ htally, othersKept_reply _ _ _ _ hmod⟩
  · exact ⟨htally, hmod⟩

/-! ### The offsite link goes DOWN -/

/-- Entries as they stand, but for their states and slots. -/
def SameEntries (s t : State) : Prop :=
  t.off = { s.off with queue := t.off.queue } ∧ t.off.queue.map ShipEntry.num = s.off.queue.map ShipEntry.num

theorem SameEntries.trans (h : SameEntries s t) (k : SameEntries t u) : SameEntries s u := by
  refine ⟨?_, k.2.trans h.2⟩
  have hoff := k.1
  rw [h.1] at hoff
  exact hoff

theorem map_num_mapIf (p : ShipEntry → Bool) {f : ShipEntry → ShipEntry} (hf : ∀ e, (f e).num = e.num)
    (es : List ShipEntry) : (mapIf p f es).map ShipEntry.num = es.map ShipEntry.num := by
  unfold mapIf
  rw [List.map_map]
  refine List.map_congr_left fun e _ => ?_
  simp only [Function.comp_apply]
  split
  · exact hf e
  · rfl

/-- A frame given back while the night does not end takes no entry with it (Table 8-4). -/
theorem sameEntries_giveBack (h : s.nightEnding = false) (f : OutFrame) : SameEntries s (s.giveBack f) := by
  have hmod (v : State) (hv : v.off = s.off) (num : Nat) (g : ShipEntry → ShipEntry) (hg : ∀ e, (g e).num = e.num) :
      SameEntries s (if v.nightEnding then v.modOff fun o => { o with queue := o.queue.filter fun x => x.num != num }
        else v.modEntry num g) := by
    have hnight : v.nightEnding = false := by
      unfold State.nightEnding at h ⊢
      rw [hv]
      exact h
    rw [hnight, if_neg Bool.false_ne_true]
    have hoff : (v.modEntry num g).off = { s.off with queue := mapIf (fun e => e.num == num) g s.off.queue } := by
      rw [← hv]
      rfl
    unfold SameEntries
    rw [hoff]
    exact ⟨rfl, map_num_mapIf _ hg _⟩
  unfold State.giveBack
  split
  · split
    · exact ⟨rfl, rfl⟩
    · split
      · exact ⟨rfl, rfl⟩
      · dsimp only
        split
        · next n _ => exact hmod (s.freeSlot n) rfl _ _ fun _ => rfl
        · exact hmod s rfl _ _ fun _ => rfl
  · exact ⟨rfl, rfl⟩
  · split
    · exact ⟨rfl, rfl⟩
    · unfold State.freeFilling
      split <;> exact ⟨rfl, rfl⟩

theorem nightEnding_of_phase (h : t.off.phase = s.off.phase) : t.nightEnding = s.nightEnding := by
  unfold State.nightEnding
  rw [h]

theorem SameEntries.nightEnding (h : SameEntries s t) : t.nightEnding = s.nightEnding :=
  nightEnding_of_phase (by rw [h.1])

theorem sameEntries_giveBacks (h : s.nightEnding = false) (fs : List OutFrame) :
    SameEntries s (fs.foldl State.giveBack s) := by
  induction fs generalizing s with
  | nil => exact ⟨rfl, rfl⟩
  | cons f fs ih =>
    have hone := sameEntries_giveBack h f
    exact hone.trans (ih (hone.nightEnding.trans h))

/-- A control that is out comes back as pending unless the night ends (R136, R154). -/
theorem mem_controlsBack {fs : List OutFrame} {f : OutFrame} {c : Control} (hf : f ∈ fs) (hc : f.body = .control c) :
    c ∈ controlsBack false fs := by
  refine List.mem_filterMap.mpr ⟨f, hf, ?_⟩
  rw [hc]
  cases c <;> rfl

/-- What an outage of the link leaves: no frame, fetch or wait, and of the Ship Queue every entry, unsent. -/
structure LinkOut (s t : State) : Prop where
  down : t.off.link = .down ∧ t.off.outstanding = [] ∧ t.off.fetchQueue = [] ∧ t.off.roomWaits = []
  plan : t.off.plan = s.off.plan
  phase : t.off.phase = s.off.phase
  unpulled : s.nightEnding = false → ∀ e ∈ t.off.queue, e.form = .ship → e.state = .unpulled ∧ e.slot = none
  nums : s.nightEnding = false → t.off.queue.map ShipEntry.num = s.off.queue.map ShipEntry.num
  controls : s.nightEnding = false → ∀ f ∈ s.off.outstanding, ∀ c, f.body = .control c → c ∈ t.off.controls

/-- The Offsite Engine's holdup path after the frames have been given back. -/
def Offsite.holdup (o : Offsite) (ending : Bool) : Offsite :=
  { o with
    link := .down, dir := .idle, expiries := 0, idleSince := none, shipTurn := none
    fetchQueue := [], roomWaits := []
    queue := mapIf (fun e => decide (e.form = .ship) && !ending)
      (fun e => { e with state := .unpulled, slot := none }) o.queue }

theorem offsiteHoldup_off (s : State) : ∃ v : State, v = (s.cancelRuns fun _ => true).giveBackAll false ∧
    s.offsiteHoldup.off = v.off.holdup v.nightEnding ∧ s.offsiteHoldup.tally = v.tally ∧
    s.offsiteHoldup.rst = v.rst ∧ s.offsiteHoldup.cat = v.cat ∧ s.offsiteHoldup.pat = v.pat := by
  refine ⟨_, rfl, ?_⟩
  unfold State.offsiteHoldup
  dsimp only
  generalize State.giveBackAll false (s.cancelRuns fun _ => true) = v
  split
  · exact ⟨rfl, rfl, rfl, rfl, rfl⟩
  · exact ⟨rfl, rfl, rfl, rfl, rfl⟩

theorem cancelRuns_runsFreed (s : State) (p : ShipPull → Bool) : RunsFreed s (s.cancelRuns p) :=
  runsFreed_foldl (fun s (x : ShipPull) => runsFreed_cancelRun s x.n) _ s

/-- The outstanding list given back touches slots, Ship Queue, controls and Fetch Queue (R147). -/
theorem giveBackAll_parts (s : State) (ahead : Bool) :
    (s.giveBackAll ahead).tally = s.tally ∧ (s.giveBackAll ahead).rst = s.rst ∧ (s.giveBackAll ahead).cat = s.cat ∧
      (s.giveBackAll ahead).pat = s.pat ∧ (s.giveBackAll ahead).off.outstanding = [] ∧
      (s.giveBackAll ahead).off.plan = s.off.plan ∧ (s.giveBackAll ahead).off.phase = s.off.phase ∧
      (s.nightEnding = false → (s.giveBackAll ahead).off.queue.map ShipEntry.num = s.off.queue.map ShipEntry.num) ∧
      (s.giveBackAll false).off.controls = s.off.controls ++ controlsBack s.nightEnding s.off.outstanding := by
  have hback := (framesBack_foldl s.off.outstanding s).frame
  have hsame := fun h => sameEntries_giveBacks (s := s) h s.off.outstanding
  unfold State.giveBackAll
  dsimp only
  generalize s.off.outstanding.foldl State.giveBack s = v at hback hsame
  have hnight : v.nightEnding = s.nightEnding := nightEnding_of_phase (by rw [hback])
  have hoff : v.off = { s.off with queue := v.off.queue } := congrArg State.off hback
  have hparts : v.tally = s.tally ∧ v.rst = s.rst ∧ v.cat = s.cat ∧ v.pat = s.pat := by
    rw [hback]
    exact ⟨rfl, rfl, rfl, rfl⟩
  obtain ⟨htally, hrst, hcat, hpat⟩ := hparts
  refine ⟨htally, hrst, hcat, hpat, rfl, ?_, ?_, fun h => (hsame h).2, ?_⟩
  · change v.off.plan = _
    rw [hoff]
  · change v.off.phase = _
    rw [hoff]
  · change v.off.controls ++ controlsBack v.nightEnding s.off.outstanding = _
    rw [hnight, hoff]

theorem offsiteHoldup_parts (s : State) : s.offsiteHoldup.tally = s.tally ∧ s.offsiteHoldup.rst = s.rst ∧
    s.offsiteHoldup.cat = s.cat ∧ s.offsiteHoldup.pat = s.pat ∧ LinkOut s s.offsiteHoldup := by
  obtain ⟨v, hv, hoff, htally, hrst, hcat, hpat⟩ := offsiteHoldup_off s
  have hruns := (cancelRuns_runsFreed s fun _ => true).frame
  generalize s.cancelRuns (fun _ => true) = w at hruns hv
  obtain ⟨gtally, grst, gcat, gpat, gout, gplan, gphase, gnums, gcontrols⟩ := giveBackAll_parts w false
  rw [← hv] at gtally grst gcat gpat gout gplan gphase gnums gcontrols
  have hwoff : w.off = { s.off with pulls := w.off.pulls } := congrArg State.off hruns
  have hw : w.tally = s.tally ∧ w.rst = s.rst ∧ w.cat = s.cat ∧ w.pat = s.pat := by
    rw [hruns]
    exact ⟨rfl, rfl, rfl, rfl⟩
  have hwkeep : w.off.phase = s.off.phase ∧ w.off.plan = s.off.plan ∧ w.off.queue = s.off.queue ∧
      w.off.outstanding = s.off.outstanding := by
    rw [hwoff]
    exact ⟨rfl, rfl, rfl, rfl⟩
  obtain ⟨wtally, wrst, wcat, wpat⟩ := hw
  obtain ⟨hphase, hplan, hqueue, hout⟩ := hwkeep
  have hwnight : w.nightEnding = s.nightEnding := nightEnding_of_phase hphase
  have hvnight : v.nightEnding = s.nightEnding := (nightEnding_of_phase gphase).trans hwnight
  refine ⟨htally.trans (gtally.trans wtally), hrst.trans (grst.trans wrst), hcat.trans (gcat.trans wcat),
    hpat.trans (gpat.trans wpat), ?_⟩
  refine ⟨?_, ?_, ?_, fun h e he hform => ?_, fun h => ?_, fun h f hf c hc => ?_⟩
  · rw [hoff]
    exact ⟨rfl, gout, rfl, rfl⟩
  · rw [hoff]
    exact gplan.trans hplan
  · rw [hoff]
    exact gphase.trans hphase
  · rw [hoff, hvnight, h] at he
    obtain ⟨x, -, hx⟩ := List.mem_map.mp he
    have hxform : x.form = .ship := by
      by_cases hship : x.form = .ship
      · exact hship
      · rw [if_neg (by simp [hship])] at hx
        rw [hx]
        exact hform
    rw [if_pos (by simp [hxform])] at hx
    rw [← hx]
    exact ⟨rfl, rfl⟩
  · rw [hoff]
    refine (map_num_mapIf _ (f := fun e => { e with state := .unpulled, slot := none }) (fun _ => rfl)
      v.off.queue).trans ((gnums (hwnight.trans h)).trans ?_)
    rw [hqueue]
  · rw [hoff]
    change c ∈ v.off.controls
    rw [gcontrols, hwnight, h, hout]
    exact List.mem_append_right _ (mem_controlsBack hf hc)

/-! ### The Patrol Unit's lists emptied -/

/-- No slot request waits. -/
def Stream.noneWait (x : Stream) : Prop :=
  x.waitRepair = [] ∧ x.waitFetch = [] ∧ x.waitShip = [] ∧ x.waitPatrol = []

/-- Items gone from the Work List take slots, requests and waits for places with them. -/
structure ItemsGone (s t : State) : Prop where
  frame : t = { s with links := t.links, str := t.str, pat := t.pat }
  slots : ∀ kv ∈ t.str.slots, kv ∈ s.str.slots
  waits : s.str.noneWait → t.str.noneWait

theorem ItemsGone.trans (h : ItemsGone s t) (k : ItemsGone t u) : ItemsGone s u := by
  refine ⟨?_, fun kv hkv => h.slots kv (k.slots kv hkv), fun hw => k.waits (h.waits hw)⟩
  have hframe := k.frame
  rw [h.frame] at hframe
  exact hframe

theorem itemsGone_leaveItem (s : State) (n : Nat) : ItemsGone s (s.leaveItem n) := by
  have hask : ItemsGone s ((s.withdrawAsk (.verify n)).freeAllOf (.verify n)) := by
    refine ⟨rfl, fun kv hkv => (List.mem_filter.mp hkv).1, fun ⟨h1, h2, h3, h4⟩ => ⟨?_, ?_, ?_, ?_⟩⟩
    · exact congrArg (List.filter _) h1
    · exact congrArg (List.filter _) h2
    · exact congrArg (List.filter _) h3
    · exact congrArg (List.filter _) h4
  have hplaces (v : State) : ItemsGone v (v.leavePlaces (.verify n)) := by
    have hframe := foldl_modLink_beside
      (fun _ r => { r with placeWaits := r.placeWaits.filter (· ≠ Issuer.verify n) }) allLinks v
    unfold State.leavePlaces
    rw [hframe]
    exact ⟨rfl, fun _ h => h, id⟩
  exact (hask.trans (hplaces _)).trans ⟨rfl, fun _ h => h, id⟩

theorem itemsGone_foldl (ws : List WorkItem) (s : State) : ItemsGone s (ws.foldl (fun s w => s.leaveItem w.n) s) := by
  induction ws generalizing s with
  | nil => exact ⟨rfl, fun _ h => h, id⟩
  | cons w ws ih => exact (itemsGone_leaveItem s w.n).trans (ih _)

/-- What the Patrol Unit's holdup path leaves (R168). -/
structure PatrolOut (s t : State) : Prop where
  tally : t.tally = s.tally
  rst : t.rst = s.rst
  off : t.off = s.off
  locks : ∀ v e, (t.extent v e).lock = (s.extent v e).lock
  slots : ∀ kv ∈ t.str.slots, kv ∈ s.str.slots
  waits : s.str.noneWait → t.str.noneWait
  still : t.patrolStill
  empty : t.pat.waiting = []

theorem patrolHoldup_out (s : State) : PatrolOut s s.patrolHoldup := by
  unfold State.patrolHoldup
  dsimp only
  have hgone := itemsGone_foldl (s.pat.work.filter fun w => decide (w.state ≠ .issued)) s
  generalize (s.pat.work.filter fun w => decide (w.state ≠ .issued)).foldl (fun s w => s.leaveItem w.n) s = v at hgone
  obtain ⟨hframe, hslots, hwaits⟩ := hgone
  have hlinks := foldl_modLink_beside (fun _ => LinkRec.orphanRepairs) allLinks
    (v.modPat fun p => { p with work := [], folds := [], repairs := [], waiting := [], clearing := false })
  generalize allLinks.foldl (fun s l => s.modLink l LinkRec.orphanRepairs)
    (v.modPat fun p => { p with work := [], folds := [], repairs := [], waiting := [], clearing := false }) = w
    at hlinks
  have hv : v.tally = s.tally ∧ v.rst = s.rst ∧ v.off = s.off ∧ v.cat = s.cat := by
    rw [hframe]
    exact ⟨rfl, rfl, rfl, rfl⟩
  have hw : w.tally = v.tally ∧ w.rst = v.rst ∧ w.off = v.off ∧ w.cat = v.cat ∧ w.str = v.str ∧
      w.pat = { v.pat with work := [], folds := [], repairs := [], waiting := [], clearing := false } := by
    rw [hlinks]
    exact ⟨rfl, rfl, rfl, rfl, rfl, rfl⟩
  obtain ⟨vtally, vrst, voff, vcat⟩ := hv
  obtain ⟨wtally, wrst, woff, wcat, hstr, hpat⟩ := hw
  have hext : w.cat = s.cat := wcat.trans vcat
  refine ⟨wtally.trans vtally, wrst.trans vrst, woff.trans voff, fun vol ext => ?_, ?_, ?_, ?_, ?_⟩
  · unfold State.extent
    dsimp only
    rw [tget_tmap, hext]
    cases tget s.cat.extents (extentKey vol ext) <;> rfl
  · change ∀ kv ∈ w.str.slots, _
    rw [hstr]
    exact hslots
  · change _ → w.str.noneWait
    rw [hstr]
    exact hwaits
  · change w.pat.work = [] ∧ w.pat.folds = [] ∧ w.pat.repairs = [] ∧ w.pat.clearing = false
    rw [hpat]
    exact ⟨rfl, rfl, rfl, rfl⟩
  · change w.pat.waiting = []
    rw [hpat]

/-! ### The end of the step -/

theorem settleLink_down (hlink : s.off.link ≠ .up) (hroom : s.off.roomWaits = []) :
    s.settleLink = s.clearShed.markRest := by
  have hserved : s.clearShed.serveRoom = s.clearShed := by
    unfold State.serveRoom
    rw [show s.clearShed.off.roomWaits = [] from hroom]
    rfl
  unfold State.settleLink
  rw [hserved, redirect_of_not_up (s := s.clearShed) hlink]

theorem clearShed_mem {e : ShipEntry} (h : e ∈ s.clearShed.off.queue) : e ∈ s.off.queue := (List.mem_filter.mp h).1

end

end Sys2Proof.Machine
end

section
/-! SUPPORT. In STANDBY with no slot held, settling grants none (R107, R158). -/

namespace Sys2Proof.Machine

/-- In STANDBY, with every slot free. -/
def Slotless (s : State) : Prop := s.str.slots = [] ∧ s.sup.op = .standby

theorem slotless_foldl {α : Type} (f : State → α → State) (xs : List α) {s : State}
    (hf : ∀ s x, Slotless s → Slotless (f s x)) (h : Slotless s) : Slotless (xs.foldl f s) := by
  induction xs generalizing s with
  | nil => exact h
  | cons x xs ih => exact ih (hf s x h)

theorem slotless_iter (n : Nat) (f : State → State) {s : State} (hf : ∀ s, Slotless s → Slotless (f s))
    (h : Slotless s) : Slotless (iter n f s) := iter_keeps hf n h

theorem slotless_modLink {s : State} (l : Link) (f : LinkRec → LinkRec) (h : Slotless s) :
    Slotless (s.modLink l f) := h

theorem slotless_modSup {s : State} (f : Supervisor → Supervisor) (hf : ∀ u, (f u).op = u.op) (h : Slotless s) :
    Slotless (s.modSup f) := ⟨h.1, (hf s.sup).trans h.2⟩

theorem slotless_freeSlot {s : State} (n : Nat) (h : Slotless s) : Slotless (s.freeSlot n) :=
  ⟨(congrArg (tdel · n) h.1).trans rfl, h.2⟩

theorem slotless_freeSlotsIf {s : State} (p : Slot → Bool) (h : Slotless s) : Slotless (s.freeSlotsIf p) :=
  ⟨(congrArg (List.filter _) h.1).trans rfl, h.2⟩

theorem slotless_send {s : State} (o : Output) (hb : Slotless s) : Slotless (State.send s o) := hb

theorem slotless_setExtent {s : State} (vol ext : Nat) (e : Extent) (hb : Slotless s) :
    Slotless (State.setExtent s vol ext e) := hb

theorem slotless_setDues {s : State} (vol : Nat) (d : Dues) (hb : Slotless s) : Slotless (State.setDues s vol d) := hb

theorem slotless_modPlan {s : State} (vol : Nat) (f : PlanVol → PlanVol) (hb : Slotless s) :
    Slotless (State.modPlan s vol f) := hb

theorem slotless_modRepair {s : State} (n : Nat) (f : Repair → Repair) (hb : Slotless s) :
    Slotless (State.modRepair s n f) := hb

theorem slotless_queueTo {s : State} (b : NoticeBody) (n : Notice) (ls : List Link) (h : Slotless s) :
    Slotless (State.queueTo b n ls s) := by
  induction ls generalizing s with
  | nil => exact h
  | cons l ls ih =>
    unfold State.queueTo
    refine ih ?_
    split
    · exact h
    · exact h

theorem slotless_raise {s : State} (b : NoticeBody) (hb : Slotless s) : Slotless (State.raise s b) := by
  unfold State.raise
  repeat' first
    | with_reducible assumption
    | with_reducible apply slotless_queueTo
    | with_reducible refine slotless_modSup _ (fun _ => rfl) ?_

theorem slotless_leavePlaces {s : State} (who : Issuer) (hb : Slotless s) : Slotless (State.leavePlaces s who) := by
  unfold State.leavePlaces
  repeat' first
    | with_reducible assumption
    | with_reducible refine slotless_foldl _ _ (fun _ _ _ => ?_) ?_
    | with_reducible refine slotless_modLink _ _ ?_

theorem slotless_closeDue {s : State} (nightly : Bool) (vol : Nat) (hb : Slotless s) :
    Slotless (State.closeDue s nightly vol) := by
  unfold State.closeDue
  repeat' first
    | with_reducible assumption
    | with_reducible apply slotless_setDues

theorem slotless_changeVersion {s : State} (vol ext birth : Nat) (p : Version → Bool)
    (f : Version → Version) (hb : Slotless s) :
    Slotless (State.changeVersion s vol ext birth p f) := by
  unfold State.changeVersion
  repeat' first
    | with_reducible assumption
    | with_reducible apply slotless_setExtent
    | split

theorem slotless_setVerified {s : State} (vol ext birth loc : Nat) (hb : Slotless s) :
    Slotless (State.setVerified s vol ext birth loc) := by
  unfold State.setVerified
  repeat' first
    | with_reducible assumption
    | with_reducible apply slotless_changeVersion

theorem slotless_writeRepair {s : State} (vol ext birth loc : Nat) (st : RepairState) (hb : Slotless s) :
    Slotless (State.writeRepair s vol ext birth loc st) := by
  unfold State.writeRepair
  repeat' first
    | with_reducible assumption
    | with_reducible apply slotless_changeVersion

theorem slotless_withdrawAsk {s : State} (h : SlotHolder) (hb : Slotless s) : Slotless (State.withdrawAsk s h) := hb

theorem slotless_freeHolder {s : State} (h : SlotHolder) (hb : Slotless s) : Slotless (State.freeHolder s h) := by
  unfold State.freeHolder
  repeat' first
    | with_reducible assumption
    | with_reducible apply slotless_freeSlotsIf

theorem slotless_freeAllOf {s : State} (h : SlotHolder) (hb : Slotless s) : Slotless (State.freeAllOf s h) := by
  unfold State.freeAllOf
  repeat' first
    | with_reducible assumption
    | with_reducible apply slotless_freeSlotsIf

theorem slotless_modOff {s : State} (f : Offsite → Offsite) (hb : Slotless s) : Slotless (State.modOff s f) := hb

theorem slotless_startOpening {s : State} (hb : Slotless s) : Slotless (State.startOpening s) := by
  unfold State.startOpening
  repeat' first
    | with_reducible assumption
    | with_reducible apply slotless_modOff
    | with_reducible apply slotless_send

theorem slotless_askOpening {s : State} (hb : Slotless s) : Slotless (State.askOpening s) := by
  unfold State.askOpening
  repeat' first
    | with_reducible assumption
    | with_reducible apply slotless_startOpening
    | split

theorem slotless_leaveUp {s : State} (hb : Slotless s) : Slotless (State.leaveUp s) := hb

theorem slotless_closeLink {s : State} (hb : Slotless s) : Slotless (State.closeLink s) := by
  unfold State.closeLink
  repeat' first
    | with_reducible assumption
    | with_reducible apply slotless_leaveUp
    | with_reducible apply slotless_modOff
    | with_reducible apply slotless_send

theorem slotless_chooseDir {s : State} (hb : Slotless s) : Slotless (State.chooseDir s) := by
  unfold State.chooseDir
  repeat' first
    | with_reducible assumption
    | with_reducible apply slotless_modOff

theorem slotless_redirectOnce {s : State} (hb : Slotless s) : Slotless (State.redirectOnce s) := by
  unfold State.redirectOnce
  try dsimp only
  repeat' first
    | with_reducible assumption
    | with_reducible apply slotless_chooseDir
    | with_reducible apply slotless_closeLink
    | with_reducible apply slotless_modOff
    | split

theorem slotless_redirect {s : State} (hb : Slotless s) : Slotless (State.redirect s) := by
  unfold State.redirect
  repeat' first
    | with_reducible assumption
    | with_reducible apply slotless_redirectOnce
    | with_reducible refine slotless_iter _ _ (fun _ _ => ?_) ?_

theorem slotless_markRest {s : State} (hb : Slotless s) : Slotless (State.markRest s) := by
  unfold State.markRest
  repeat' first
    | with_reducible assumption
    | with_reducible apply slotless_modOff

theorem slotless_placeFetch {s : State} (es : List FetchEntry) (atHead : Bool) (hb : Slotless s) :
    Slotless (State.placeFetch s es atHead) := by
  unfold State.placeFetch
  repeat' first
    | with_reducible assumption
    | with_reducible apply slotless_askOpening
    | with_reducible apply slotless_modOff

theorem slotless_askRoom {s : State} (h : FetchHolder) (es : List FetchEntry) (atHead : Bool) (hb : Slotless s) :
    Slotless (State.askRoom s h es atHead) := by
  unfold State.askRoom
  repeat' first
    | with_reducible assumption
    | with_reducible apply slotless_modOff
    | with_reducible apply slotless_placeFetch
    | split

theorem slotless_serveRoomOnce {s : State} (hb : Slotless s) : Slotless (State.serveRoomOnce s) := by
  unfold State.serveRoomOnce
  repeat' first
    | with_reducible assumption
    | with_reducible apply slotless_modOff
    | with_reducible apply slotless_placeFetch
    | split

theorem slotless_serveRoom {s : State} (hb : Slotless s) : Slotless (State.serveRoom s) := by
  unfold State.serveRoom
  repeat' first
    | with_reducible assumption
    | with_reducible apply slotless_serveRoomOnce
    | with_reducible refine slotless_iter _ _ (fun _ _ => ?_) ?_

theorem slotless_withdrawFetch {s : State} (h : FetchHolder) (hb : Slotless s) :
    Slotless (State.withdrawFetch s h) := by
  unfold State.withdrawFetch
  repeat' first
    | with_reducible assumption
    | with_reducible apply slotless_modOff
    | with_reducible apply slotless_withdrawAsk

theorem slotless_clearShed {s : State} (hb : Slotless s) : Slotless (State.clearShed s) := by
  unfold State.clearShed
  repeat' first
    | with_reducible assumption
    | with_reducible apply slotless_modOff

theorem slotless_settleLink {s : State} (hb : Slotless s) : Slotless (State.settleLink s) := by
  unfold State.settleLink
  repeat' first
    | with_reducible assumption
    | with_reducible apply slotless_clearShed
    | with_reducible apply slotless_markRest
    | with_reducible apply slotless_redirect
    | with_reducible apply slotless_serveRoom

theorem slotless_progress {s : State} (hb : Slotless s) : Slotless (State.progress s) := by
  unfold State.progress
  repeat' first
    | with_reducible assumption
    | with_reducible apply slotless_modOff

theorem slotless_cancelRun {s : State} (n : Nat) (hb : Slotless s) : Slotless (State.cancelRun s n) := by
  unfold State.cancelRun
  repeat' first
    | with_reducible assumption
    | with_reducible apply slotless_freeAllOf
    | with_reducible apply slotless_leavePlaces
    | with_reducible apply slotless_modOff
    | with_reducible apply slotless_withdrawAsk

theorem slotless_cancelRuns {s : State} (p : ShipPull → Bool) (hb : Slotless s) :
    Slotless (State.cancelRuns s p) := by
  unfold State.cancelRuns
  repeat' first
    | with_reducible assumption
    | with_reducible apply slotless_cancelRun
    | with_reducible refine slotless_foldl _ _ (fun _ _ _ => ?_) ?_

theorem slotless_freeEntrySlots {s : State} (es : List ShipEntry) (hb : Slotless s) :
    Slotless (State.freeEntrySlots s es) := by
  unfold State.freeEntrySlots
  repeat' first
    | with_reducible assumption
    | with_reducible apply slotless_freeSlot
    | with_reducible refine slotless_foldl _ _ (fun _ _ _ => ?_) ?_

theorem slotless_damageEntries {s : State} (vol ext birth : Nat) (p : ShipEntry → Bool) (hb : Slotless s) :
    Slotless (State.damageEntries s vol ext birth p) := by
  unfold State.damageEntries
  try dsimp only
  repeat' first
    | with_reducible assumption
    | with_reducible apply slotless_freeEntrySlots
    | with_reducible apply slotless_modOff
    | with_reducible apply slotless_modPlan
    | split

theorem slotless_shipLost {s : State} (vol ext birth : Nat) (hb : Slotless s) :
    Slotless (State.shipLost s vol ext birth) := by
  unfold State.shipLost
  exact slotless_damageEntries _ _ _ _ (slotless_cancelRuns _ hb)

theorem slotless_shipReact {s : State} (vol ext birth : Nat) (st : RepairState) (hb : Slotless s) :
    Slotless (State.shipReact s vol ext birth st) := by
  unfold State.shipReact
  repeat' first
    | with_reducible assumption
    | with_reducible apply slotless_shipLost
    | with_reducible apply slotless_modOff
    | split

theorem slotless_restoreReact {s : State} (vol ext birth : Nat) (st : RepairState) (hb : Slotless s) :
    Slotless (State.restoreReact s vol ext birth st) := by
  unfold State.restoreReact
  try dsimp only
  repeat' first
    | with_reducible assumption
    | split
    | with_reducible refine slotless_foldl _ _ (fun _ _ _ => ?_) ?_
    | with_reducible refine slotless_modLink _ _ ?_

theorem slotless_setRepair {s : State} (vol ext birth loc : Nat) (st : RepairState) (hb : Slotless s) :
    Slotless (State.setRepair s vol ext birth loc st) := by
  unfold State.setRepair
  try dsimp only
  repeat' first
    | with_reducible assumption
    | with_reducible apply slotless_restoreReact
    | with_reducible apply slotless_shipReact
    | with_reducible apply slotless_writeRepair
    | split

theorem slotless_modPat {s : State} (f : Patrol → Patrol) (hb : Slotless s) : Slotless (State.modPat s f) := hb

theorem slotless_leaveItem {s : State} (n : Nat) (hb : Slotless s) : Slotless (State.leaveItem s n) := by
  unfold State.leaveItem
  repeat' first
    | with_reducible assumption
    | with_reducible apply slotless_freeAllOf
    | with_reducible apply slotless_leavePlaces
    | with_reducible apply slotless_modPat
    | with_reducible apply slotless_withdrawAsk

theorem slotless_addFold {s : State} (w : WorkItem) (hb : Slotless s) : Slotless (State.addFold s w) := by
  unfold State.addFold
  repeat' first
    | with_reducible assumption
    | with_reducible apply slotless_modPat

theorem slotless_loseItem {s : State} (w : WorkItem) (hb : Slotless s) : Slotless (State.loseItem s w) := by
  unfold State.loseItem
  try dsimp only
  repeat' first
    | with_reducible assumption
    | with_reducible apply slotless_leaveItem
    | with_reducible apply slotless_modPat
    | split

theorem slotless_modChunk {s : State} (n idx : Nat) (f : RepairChunk → RepairChunk) (hb : Slotless s) :
    Slotless (State.modChunk s n idx f) := by
  unfold State.modChunk
  repeat' first
    | with_reducible assumption
    | with_reducible apply slotless_modRepair

theorem slotless_leaveRepairPlaces {s : State} (n : Nat) (hb : Slotless s) :
    Slotless (State.leaveRepairPlaces s n) := by
  unfold State.leaveRepairPlaces
  try dsimp only
  repeat' first
    | with_reducible assumption
    | with_reducible apply slotless_leavePlaces
    | split
    | with_reducible refine slotless_foldl _ _ (fun _ _ _ => ?_) ?_

theorem slotless_chunkOffsite {s : State} (n idx : Nat) (hb : Slotless s) :
    Slotless (State.chunkOffsite s n idx) := by
  unfold State.chunkOffsite
  try dsimp only
  repeat' first
    | with_reducible assumption
    | with_reducible apply slotless_askRoom
    | with_reducible apply slotless_leavePlaces
    | with_reducible apply slotless_modChunk
    | with_reducible apply slotless_progress
    | split

theorem slotless_startChunk {s : State} (n : Nat) (idx : Nat) (hb : Slotless s) :
    Slotless (State.startChunk s n idx) := by
  unfold State.startChunk
  repeat' first
    | with_reducible assumption
    | with_reducible apply slotless_chunkOffsite
    | split

theorem slotless_loseRepair {s : State} (n : Nat) (hb : Slotless s) : Slotless (State.loseRepair s n) := by
  unfold State.loseRepair
  try dsimp only
  repeat' first
    | with_reducible assumption
    | with_reducible apply slotless_freeHolder
    | with_reducible apply slotless_leaveRepairPlaces
    | with_reducible apply slotless_modRepair
    | with_reducible apply slotless_setRepair
    | with_reducible apply slotless_withdrawFetch
    | split

theorem slotless_startWhole {s : State} (n : Nat) (hb : Slotless s) : Slotless (State.startWhole s n) := by
  unfold State.startWhole
  try dsimp only
  repeat' first
    | with_reducible assumption
    | with_reducible apply slotless_askRoom
    | with_reducible apply slotless_freeHolder
    | with_reducible apply slotless_leaveRepairPlaces
    | with_reducible apply slotless_loseRepair
    | with_reducible apply slotless_modRepair
    | with_reducible apply slotless_progress
    | with_reducible apply slotless_withdrawFetch
    | split

theorem slotless_openRepair {s : State} (n : Nat) (q : RepairReq) (hb : Slotless s) :
    Slotless (State.openRepair s n q) := by
  unfold State.openRepair
  repeat' first
    | with_reducible assumption
    | with_reducible apply slotless_modPat
    | with_reducible apply slotless_setRepair
    | with_reducible apply slotless_startChunk
    | with_reducible apply slotless_startWhole
    | split
    | with_reducible refine slotless_foldl _ _ (fun _ _ _ => ?_) ?_

theorem slotless_openWaiting {s : State} (n : Nat) (q : List RepairReq) (h : Slotless s) :
    Slotless (State.openWaiting n q s) := by
  induction q generalizing s with
  | nil => exact h
  | cons x t ih =>
    unfold State.openWaiting
    split
    · exact slotless_openRepair _ _ (slotless_modPat _ h)
    · exact ih h

theorem slotless_closeRepair {s : State} (n : Nat) (hb : Slotless s) : Slotless (State.closeRepair s n) := by
  unfold State.closeRepair
  try dsimp only
  repeat' first
    | with_reducible assumption
    | with_reducible apply slotless_freeAllOf
    | with_reducible apply slotless_leaveRepairPlaces
    | with_reducible apply slotless_modPat
    | with_reducible apply slotless_openWaiting

theorem slotless_endRepair {s : State} (n : Nat) (r : Repair) (hb : Slotless s) :
    Slotless (State.endRepair s n r) := by
  unfold State.endRepair
  repeat' first
    | with_reducible assumption
    | with_reducible apply slotless_closeRepair
    | with_reducible apply slotless_raise
    | with_reducible apply slotless_setRepair
    | with_reducible apply slotless_setVerified
    | split

theorem slotless_checkRepair {s : State} (n : Nat) (hb : Slotless s) : Slotless (State.checkRepair s n) := by
  unfold State.checkRepair
  repeat' first
    | with_reducible assumption
    | with_reducible apply slotless_closeRepair
    | with_reducible apply slotless_endRepair
    | with_reducible apply slotless_startWhole
    | split

theorem slotless_abandonRepair {s : State} (n : Nat) (hb : Slotless s) : Slotless (State.abandonRepair s n) := by
  unfold State.abandonRepair
  try dsimp only
  repeat' first
    | with_reducible assumption
    | with_reducible apply slotless_freeHolder
    | with_reducible apply slotless_leaveRepairPlaces
    | with_reducible apply slotless_modRepair
    | with_reducible apply slotless_withdrawFetch

theorem slotless_abandonIf {s : State} (p : Repair → Bool) (hb : Slotless s) : Slotless (State.abandonIf s p) := by
  unfold State.abandonIf
  repeat' first
    | with_reducible assumption
    | with_reducible apply slotless_abandonRepair
    | with_reducible refine slotless_foldl _ _ (fun _ _ _ => ?_) ?_

/-- Outside ACTIVE no item is issued (R158). -/
theorem slotless_decideItem {s : State} (n : Nat) (hb : Slotless s) : Slotless (s.decideItem n) := by
  have hop : s.sup.op ≠ .active ∨ s.pat.clearing = true := .inl fun hno => nomatch hb.2.symm.trans hno
  unfold State.decideItem
  split
  · exact hb
  · split
    · exact slotless_loseItem _ hb
    · split
      · exact hb
      · split
        · exact slotless_addFold _ (slotless_leaveItem n hb)
        · exact hb

theorem slotless_checkFold {s : State} (f : Fold) (hb : Slotless s) : Slotless (State.checkFold s f) := by
  unfold State.checkFold
  repeat' first
    | with_reducible assumption
    | with_reducible apply slotless_modPat
    | with_reducible apply slotless_setVerified
    | split

theorem slotless_endClearing {s : State} (hb : Slotless s) : Slotless (State.endClearing s) := by
  unfold State.endClearing
  repeat' first
    | with_reducible assumption
    | with_reducible apply slotless_leaveItem
    | with_reducible apply slotless_modPat
    | split
    | with_reducible refine slotless_foldl _ _ (fun _ _ _ => ?_) ?_

theorem slotless_checkRepairs {s : State} (hb : Slotless s) : Slotless (State.checkRepairs s) := by
  unfold State.checkRepairs
  try dsimp only
  repeat' first
    | with_reducible assumption
    | with_reducible apply slotless_checkRepair
    | split
    | with_reducible refine slotless_foldl _ _ (fun _ _ _ => ?_) ?_
    | with_reducible refine slotless_iter _ _ (fun _ _ => ?_) ?_

theorem slotless_settlePatrol {s : State} (hb : Slotless s) : Slotless (State.settlePatrol s) := by
  unfold State.settlePatrol
  try dsimp only
  repeat' first
    | with_reducible assumption
    | with_reducible apply slotless_abandonIf
    | with_reducible apply slotless_checkFold
    | with_reducible apply slotless_checkRepairs
    | with_reducible apply slotless_decideItem
    | with_reducible apply slotless_endClearing
    | split
    | with_reducible refine slotless_foldl _ _ (fun _ _ _ => ?_) ?_

theorem slotless_settle {s : State} (hb : Slotless s) : Slotless (State.settle s) := by
  unfold State.settle
  repeat' first
    | with_reducible assumption
    | with_reducible apply slotless_settleLink
    | with_reducible apply slotless_settlePatrol

theorem slotless_reportMissed {s : State} (vol : Nat) (hb : Slotless s) : Slotless (State.reportMissed s vol) := by
  unfold State.reportMissed
  repeat' first
    | with_reducible assumption
    | with_reducible apply slotless_modOff
    | split

theorem slotless_missDue {s : State} (vol : Nat) (hb : Slotless s) : Slotless (State.missDue s vol) := by
  unfold State.missDue
  repeat' first
    | with_reducible assumption
    | with_reducible apply slotless_closeDue
    | with_reducible apply slotless_raise
    | with_reducible apply slotless_reportMissed
    | split

theorem slotless_missLate {s : State} (hb : Slotless s) : Slotless (State.missLate s) := by
  unfold State.missLate
  repeat' first
    | with_reducible assumption
    | with_reducible apply slotless_missDue
    | split
    | with_reducible refine slotless_foldl _ _ (fun _ _ _ => ?_) ?_

end Sys2Proof.Machine
end

section
/-! PROOF. O14: HOLDUP entered, stayed in and left (R22, R103, R186). -/

namespace Sys2Proof.Machine

section
variable {s t u : State}

/-! ### The blocks at entry -/

theorem PowerFailed.congr {rec : Nat} {r : Restore} (h : PowerFailed s rec r) (hrst : t.rst = s.rst)
    (hops : ∀ o ∈ s.tally.ops, ∃ x ∈ t.tally.ops, x.job = o.job)
    (hlock : ∀ v e, (t.extent v e).lock = (s.extent v e).lock) : PowerFailed t rec r := by
  obtain ⟨⟨q, hq, hrest⟩, hrelease, hunlocked⟩ := h
  refine ⟨⟨q, (restore_congr hrst rec).trans hq, hrest⟩, fun hn => ?_, fun i hi => ?_⟩
  · obtain ⟨o, ho, hjob⟩ := hrelease hn
    obtain ⟨x, hx, hxo⟩ := hops o ho
    exact ⟨x, hx, hxo.trans hjob⟩
  · rw [hlock]
    exact hunlocked i hi

/-- What entry to HOLDUP leaves of a state whose requests have been turned away (R186). -/
structure HoldupDone (s t : State) : Prop where
  recounts : t.tally.recounts = []
  once : (∀ o ∈ s.tally.ops, o.job.runsAtOnce = false) → ∀ o ∈ t.tally.ops, o.job.runsAtOnce = false
  ended : ∀ rec r, t.restore rec = some r → r.state.isActive = false
  failed : ∀ rec r, s.restore rec = some r → r.state.isActive = true → PowerFailed t rec r
  waiting : t.rst.waiting = s.rst.waiting
  link : LinkOut s t
  slots : ∀ kv ∈ t.str.slots, kv.2.cls = .patrol
  waits : t.str.noneWait
  still : t.patrolStill
  empty : t.pat.waiting = []

theorem streamHoldup_slots (s : State) : ∀ kv ∈ s.streamHoldup.str.slots, kv.2.cls = .patrol := by
  intro kv hkv
  have hcls := (List.mem_filter.mp hkv).2
  simpa using hcls

/-- The failures of the restores keep what the link's outage is read from. -/
theorem LinkOut.of_powerWork {P : Nat → Prop} (hw : PowerWork P s t) (h : LinkOut t u) : LinkOut s u := by
  have hkeep : t.off.plan = s.off.plan ∧ t.off.phase = s.off.phase ∧ t.off.queue = s.off.queue := by
    rw [hw.off]
    exact ⟨rfl, rfl, rfl⟩
  obtain ⟨hplan, hphase, hqueue⟩ := hkeep
  have hnight := nightEnding_of_phase hphase
  refine ⟨h.down, h.plan.trans hplan, h.phase.trans hphase, fun hn => h.unpulled (hnight.trans hn),
    fun hn => (h.nums (hnight.trans hn)).trans (by rw [hqueue]), fun hn f hf c hc => ?_⟩
  exact h.controls (hnight.trans hn) f (hw.stays f hf ⟨c, hc⟩) c hc

theorem holdupWork_done (hwf : Tbl.wf s.rst.table = true) : HoldupDone s s.holdupWork := by
  obtain ⟨x, hx⟩ : ∃ x : State, x = { s with tally.recounts := [], tally.flushing := true } := ⟨_, rfl⟩
  have hrst : x.rst = s.rst := by rw [hx]
  have hoff : x.off = s.off := by rw [hx]
  have hrec : x.tally.recounts = [] := by rw [hx]
  have hops : x.tally.ops = s.tally.ops := by rw [hx]
  unfold State.holdupWork
  rw [← hx]
  have hkeys : s.rst.table.map Prod.fst = x.rst.table.map Prod.fst := by rw [hrst]
  rw [hkeys]
  have hnodup := keys_nodup (hrst ▸ hwf : Tbl.wf x.rst.table = true)
  have hwork := powerWork_each powerFail_work (x.rst.table.map Prod.fst) x
  have hends (k : Nat) (hk : k ∈ x.rst.table.map Prod.fst) :=
    each_inactive (s := x) powerFail_work powerFail_inactive hk
  have hfails (rec : Nat) (r : Restore) (hr : x.restore rec = some r) (hactive : r.state.isActive = true) :=
    powerFails_active hnodup (mem_keys hr) hr hactive
  generalize (x.rst.table.map Prod.fst).foldl State.powerFail x = y at hwork hends hfails ⊢
  obtain ⟨otally, orst, ocat, opat, hlink⟩ := offsiteHoldup_parts y
  generalize y.offsiteHoldup = z at otally orst ocat opat hlink ⊢
  have hslots := streamHoldup_slots z
  have hsz : z.streamHoldup.tally = z.tally ∧ z.streamHoldup.rst = z.rst ∧ z.streamHoldup.cat = z.cat ∧
      z.streamHoldup.off = z.off ∧ z.streamHoldup.str.noneWait := ⟨rfl, rfl, rfl, rfl, rfl, rfl, rfl, rfl⟩
  obtain ⟨stally, srst, scat, soff, swaits⟩ := hsz
  generalize z.streamHoldup = w at hslots stally srst scat soff swaits ⊢
  have hout := patrolHoldup_out w
  generalize w.patrolHoldup = v at hout ⊢
  have vtally : v.tally = y.tally := hout.tally.trans (stally.trans otally)
  have vrst : v.rst = y.rst := hout.rst.trans (srst.trans orst)
  have vlock (vol ext : Nat) : (v.extent vol ext).lock = (y.extent vol ext).lock := by
    rw [hout.locks, State.extent, State.extent, scat, ocat]
  have vlink : LinkOut y v := by
    have voff : v.off = z.off := hout.off.trans soff
    obtain ⟨hdown, hplan, hphase, hun, hnums, hcontrols⟩ := hlink
    rw [← voff] at hdown hplan hphase hun hnums hcontrols
    exact ⟨hdown, hplan, hphase, hun, hnums, hcontrols⟩
  have hlinkx : LinkOut x v := vlink.of_powerWork hwork
  refine ⟨?_, fun hquiet => ?_, fun rec r hr => ?_, fun rec r hr hactive => ?_, ?_, ?_,
    fun kv hkv => hslots kv (hout.slots kv hkv), hout.waits swaits, hout.still, hout.empty⟩
  · rw [vtally, hwork.tally]
    exact hrec
  · rw [vtally]
    exact hwork.once (by rw [hops]; exact hquiet)
  · rw [restore_congr vrst] at hr
    by_cases hk : rec ∈ x.rst.table.map Prod.fst
    · exact hends rec hk r hr
    · have hnone : x.restore rec = some r := (hwork.others rec hk).symm.trans hr
      exact absurd (mem_keys hnone) hk
  · refine (hfails rec r ((restore_congr hrst rec).trans hr) hactive).congr vrst (fun o ho => ⟨o, ?_, rfl⟩) vlock
    rw [vtally]
    exact ho
  · rw [vrst, hwork.waiting, hrst]
  · obtain ⟨hdown, hplan, hphase, hun, hnums, hcontrols⟩ := hlinkx
    have hnight : x.nightEnding = s.nightEnding := nightEnding_of_phase (by rw [hoff])
    rw [hnight] at hun hnums hcontrols
    rw [hoff] at hplan hphase hnums hcontrols
    exact ⟨hdown, hplan, hphase, hun, hnums, hcontrols⟩

/-! ### The step that asserts the line -/

/-- What the end of a step leaves of a state that has entered HOLDUP. -/
structure HoldupEnds (s t : State) : Prop where
  rst : t.rst = s.rst
  pat : t.pat = s.pat
  str : t.str = s.str
  down : t.off.link = .down ∧ t.off.outstanding = [] ∧ t.off.fetchQueue = []
  queue : ∀ e ∈ t.off.queue, e ∈ s.off.queue
  whole : (∀ p ∈ s.off.plan, p.state ≠ .shed ∧ p.state ≠ .failed) → t.off.queue = s.off.queue
  controls : t.off.controls = s.off.controls
  locks : ∀ v e, (t.extent v e).lock = (s.extent v e).lock
  tally : (∀ o ∈ s.tally.ops, o.job.runsAtOnce = false) → TallyRests s t

theorem holdup_ends (hrun : s.sup.op ≠ .halted) (hstill : s.patrolStill)
    (h : s.off.link = .down ∧ s.off.outstanding = [] ∧ s.off.fetchQueue = [] ∧ s.off.roomWaits = []) :
    HoldupEnds s s.finish := by
  obtain ⟨hlink, hout, hfetch, hroom⟩ := h
  have hlocks := finish_lock s
  have hrst := finish_rst s
  have hfinish := finish_patrolStill hstill hrun
  have hothers : s.advance.others = s.others := othersKept_advance rfl
  have hrests : (∀ o ∈ s.tally.ops, o.job.runsAtOnce = false) → TallyRests s s.advance := advance_rests
  generalize s.finish = t at hlocks hrst hfinish ⊢
  generalize s.advance = v at hothers hfinish hrests
  unfold State.others at hothers
  simp only [Prod.mk.injEq] at hothers
  obtain ⟨-, -, hstr, hoff, hpat⟩ := hothers
  rw [settleLink_down (by rw [hoff, hlink]; nofun) (by rw [hoff, hroom])] at hfinish
  have hend : t.tally = v.tally ∧ t.pat = v.pat ∧ t.str = v.str ∧ t.off.link = v.off.link ∧
      t.off.outstanding = v.off.outstanding ∧ t.off.fetchQueue = v.off.fetchQueue ∧
      t.off.queue = v.clearShed.off.queue ∧ t.off.controls = v.off.controls := by
    rw [hfinish]
    exact ⟨rfl, rfl, rfl, rfl, rfl, rfl, rfl, rfl⟩
  obtain ⟨etally, epat, estr, elink, eout, efetch, equeue, econtrols⟩ := hend
  refine ⟨hrst, epat.trans hpat, estr.trans hstr, ⟨?_, ?_, ?_⟩, fun e he => ?_, fun hplan => ?_, ?_, hlocks,
    fun hquiet => ?_⟩
  · rw [elink, hoff, hlink]
  · rw [eout, hoff, hout]
  · rw [efetch, hoff, hfetch]
  · rw [equeue] at he
    rw [← hoff]
    exact clearShed_mem he
  · rw [equeue, clearShed_queue (s := v) (by rw [hoff]; exact hplan), hoff]
  · rw [econtrols, hoff]
  · obtain ⟨hrec, hops⟩ := hrests hquiet
    unfold TallyRests
    rw [etally]
    exact ⟨hrec, hops⟩

/-- The power-warn line in STANDBY or ACTIVE. -/
theorem exec_powerWarnAssert (hop : s.sup.op = .standby ∨ s.sup.op = .active) :
    Sys2Proof.Machine.exec .powerWarnAssert s =
      .next (State.finish (State.enterHoldup { s with sup.powerWarn := true, sent := [] })) := by
  have hrun : s.sup.op ≠ .halted := by
    rcases hop with h | h <;> rw [h] <;> nofun
  change execPowerWarnAssert s [] = _
  unfold execPowerWarnAssert
  refine (act_withErrs_nil (s := { s with sup.powerWarn := true }) _ hrun).trans (congrArg Host.Outcome.next ?_)
  refine if_pos ?_
  unfold State.running
  rcases hop with h | h
  · exact Bool.or_eq_true_iff.mpr (.inl (decide_eq_true h))
  · exact Bool.or_eq_true_iff.mpr (.inr (decide_eq_true h))

/-- The state as its requests are turned away at entry to HOLDUP. -/
theorem enterHoldup_parts (hwf : Tbl.wf s.rst.table = true) : ∃ y : State, HoldupDone y s.enterHoldup ∧
    y.tally = s.tally ∧ y.rst = { s.rst with waiting := [] } ∧ y.off = s.off := by
  rw [enterHoldup_eq]
  have hmod : (s.modSup fun u => { u with op := .holdup }).tally = s.tally ∧
      (s.modSup fun u => { u with op := .holdup }).rst = s.rst ∧
      (s.modSup fun u => { u with op := .holdup }).off = s.off := ⟨rfl, rfl, rfl⟩
  obtain ⟨mtally, mrst, moff⟩ := hmod
  generalize (s.modSup fun u => { u with op := .holdup }) = x at mtally mrst moff ⊢
  obtain ⟨htally, hothers⟩ := refuseWaiting_parts x
  generalize x.refuseWaiting = y at htally hothers ⊢
  unfold State.others at hothers
  simp only [Prod.mk.injEq] at hothers
  obtain ⟨-, hrst, -, hoff, -⟩ := hothers
  refine ⟨y, holdupWork_done ?_, htally.trans mtally, by rw [hrst, mrst], hoff.trans moff⟩
  rw [hrst, mrst]
  exact hwf

/-! ### HOLDUP left -/

theorem graceOnly_expireHead (s : State) : GraceOnly s s.expireHead := by
  unfold State.expireHead
  split
  · exact GraceOnly.refl s
  · split
    · next e _ _ _ => exact (graceOnly_expire s e.id).trans (graceOnly_queue _ _)
    · exact GraceOnly.refl s

theorem graceOnly_expireDue (s : State) : GraceOnly s s.expireDue :=
  iter_keeps (P := GraceOnly s) (fun u hu => hu.trans (graceOnly_expireHead u)) _ (GraceOnly.refl s)

/-- The return to STANDBY (R186): what it does first, and what follows. -/
def State.standbyAgain (s : State) : State :=
  { s with sup.op := .standby, sup.cleanFlag := false, tally.flushing := false, str.slots := [] }

theorem leaveHoldup_eq (s : State) : s.leaveHoldup = s.standbyAgain.beginRecounts.expireDue.missLate := rfl

/-- The state after the return to STANDBY. -/
theorem leaveHoldup_finish (s : State) :
    supKept { s.sup with op := .standby, cleanFlag := false } s.leaveHoldup.finish.sup ∧
      s.leaveHoldup.finish.str.slots = [] ∧
      (s.tally.ops = [] → ∀ id p, s.prin id = some p → p.kind = .pool → p.unsettled = true → p.unsettledMembers = 0 →
        id ∈ s.leaveHoldup.finish.tally.recounts) := by
  rw [leaveHoldup_eq]
  obtain ⟨x, hx⟩ : ∃ x, x = s.standbyAgain := ⟨_, rfl⟩
  have hsup : x.sup = { s.sup with op := .standby, cleanFlag := false } := by rw [hx]; rfl
  have hprins : x.tally.principals = s.tally.principals := by rw [hx]; rfl
  have hops : x.tally.ops = s.tally.ops := by rw [hx]; rfl
  have hslots : x.str.slots = [] := by rw [hx]; rfl
  rw [← hx, ← hsup]
  have hframe : x.beginRecounts = { x with tally.recounts := x.beginRecounts.tally.recounts } := beginRecounts_eq x _
  have hbegun := (beginRecounts_spec (s := x) (ids := x.tally.principals.map Prod.fst)
    (by rw [hsup]; nofun)).2
  change ∀ i ∈ x.tally.principals.map Prod.fst, ∀ k, x.prin i = some k → _ → _ → _ →
    i ∈ x.beginRecounts.tally.recounts at hbegun
  generalize x.beginRecounts = y at hframe hbegun ⊢
  have hy : y.sup = x.sup ∧ y.tally.ops = x.tally.ops ∧ y.str = x.str := by
    rw [hframe]
    exact ⟨rfl, rfl, rfl⟩
  obtain ⟨ysup, yops, ystr⟩ := hy
  have hgrace := graceOnly_expireDue y
  generalize y.expireDue = z at hgrace ⊢
  have zstr : z.str = y.str := congrArg (fun o => o.2.2.1) hgrace.others
  have zsup : supKept x.sup z.sup := by
    rw [← ysup]
    exact hgrace.sup
  have zslots : Slotless z := by
    refine ⟨by rw [zstr, ystr, hslots], ?_⟩
    rw [zsup.1, hsup]
  have mslots := slotless_missLate zslots
  have mtally : z.missLate.tally = z.tally := tallyKept_missLate rfl
  have msup : supKept x.sup z.missLate.sup := supKept_missLate zsup
  generalize z.missLate = w at mslots mtally msup ⊢
  have wrun : w.sup.op ≠ .halted := by
    rw [mslots.2]
    nofun
  refine ⟨supKept_finish msup, ?_, fun hnone id p hp hpool hun hmem => ?_⟩
  · rw [finish_running wrun]
    have hadv : Slotless w.advance := by
      have hothers : w.advance.others = w.others := othersKept_advance rfl
      refine ⟨?_, ?_⟩
      · rw [show w.advance.str = w.str from congrArg (fun o => o.2.2.1) hothers]
        exact mslots.1
      · rw [(supKept_advance (supKept_refl w.sup)).1]
        exact mslots.2
    exact (slotless_settle hadv).1
  · have hnops : w.tally.ops = [] := by rw [mtally, hgrace.ops, yops, hops, hnone]
    have hrests := advance_rests (s := w) (by rw [hnops]; exact fun _ hno => nomatch hno)
    rw [finish_running wrun, settle_tally, hrests.1, mtally, hgrace.recounts]
    have hpx : x.prin id = some p := by
      rw [State.prin, hprins]
      exact hp
    exact hbegun id (mem_keys hpx) p hpx hpool hun hmem

/-- A release waits at a Tally Unit that has nothing else to go on with. -/
theorem TallyRests.release {p n : Nat} (h : TallyRests s t) (ho : ∃ o ∈ s.tally.ops, o.job = .unreserve p n) :
    ∃ o ∈ t.tally.ops, o.job = .unreserve p n := by
  obtain ⟨o, ho, hjob⟩ := ho
  obtain ⟨x, hx, hxo⟩ := h.2 o ho
  exact ⟨x, hx, hxo.trans hjob⟩

/-- A record with its marker cleared (R10). -/
def Principal.unmarked (p : Principal) : Principal := { p with marker := false }

theorem prin_clearMarkers (s : State) (id : Nat) : s.clearMarkers.prin id = (s.prin id).map Principal.unmarked :=
  tget_tmap (fun _ => Principal.unmarked) s.tally.principals id

theorem tallyEmpty_ops (h : s.tallyEmpty = true) : s.tally.ops = [] := by
  unfold State.tallyEmpty at h
  simp only [Bool.and_eq_true, List.isEmpty_iff] at h
  exact h.1.2

/-- The clean-shutdown flag is written in HOLDUP with the Tally Unit's buffers empty (R186). -/
theorem exec_cleanShutdownWrite (hop : s.sup.op = .holdup) (hflag : s.sup.cleanFlag = false)
    (hempty : s.tallyEmpty = true) : Sys2Proof.Machine.exec .cleanShutdownWrite s =
      .next (if s.sup.powerWarn then { s.clearMarkers with sup.cleanFlag := true, sent := [] }
        else State.finish (State.leaveHoldup { s.clearMarkers with sup.cleanFlag := true, sent := [] })) := by
  change execCleanShutdownWrite s [] = _
  unfold execCleanShutdownWrite
  refine (act_withErrs_nil _ fun hno => nomatch hop.symm.trans hno).trans (congrArg Host.Outcome.next ?_)
  exact if_pos ⟨hop, hflag, hempty⟩

theorem exec_powerWarnDeassert (hop : s.sup.op = .holdup) : Sys2Proof.Machine.exec .powerWarnDeassert s =
    .next (if s.sup.op = .holdup ∧ s.sup.cleanFlag = true then
      State.finish (State.leaveHoldup { s with sup.powerWarn := false, sent := [] })
      else { s with sup.powerWarn := false, sent := [] }) := by
  change execPowerWarnDeassert s [] = _
  unfold execPowerWarnDeassert
  exact act_withErrs_nil (s := { s with sup.powerWarn := false }) _ fun hno => nomatch hop.symm.trans hno

/-- In LOADING the power-warn line is only noted (R186). -/
theorem exec_powerWarnAssert_loading (hop : s.sup.op = .loading) :
    Sys2Proof.Machine.exec .powerWarnAssert s = .next { s with sup.powerWarn := true, sent := [] } := by
  change execPowerWarnAssert s [] = _
  unfold execPowerWarnAssert
  refine (act_withErrs_nil (s := { s with sup.powerWarn := true }) _
    fun hno => nomatch hop.symm.trans hno).trans (congrArg Host.Outcome.next ?_)
  refine if_neg fun hrunning => ?_
  unfold State.running at hrunning
  change (decide (s.sup.op = .standby) || decide (s.sup.op = .active)) = true at hrunning
  rw [hop] at hrunning
  exact nomatch hrunning

end

end Sys2Proof.Machine

open Sys2Proof Sys2Proof.Machine

/-- Settles O14: entry block by block, with what the end of its step leaves; and HOLDUP left, where the flag is
written or the line deasserted. -/
theorem holdupIsEnteredAndLeft : Obligations.HoldupIsEnteredAndLeft := by
  unfold Obligations.HoldupIsEnteredAndLeft
  refine ⟨⟨fun s hop hwf => ?_, fun s hop => exec_powerWarnAssert_loading hop⟩,
    fun s hop hflag hempty => ?_, fun s hop => ?_⟩
  · refine ⟨_, exec_powerWarnAssert hop, ?_⟩
    have hsup := enterHoldup_sup { s with sup.powerWarn := true, sent := [] }
    obtain ⟨y, hdone, ytally, yrst, yoff⟩ := enterHoldup_parts (s := { s with sup.powerWarn := true, sent := [] }) hwf
    generalize State.enterHoldup { s with sup.powerWarn := true, sent := [] } = w at hsup hdone
    have hfsup := supKept_finish hsup
    obtain ⟨fop, -, -, fclock, -, -, -, -, fwarn, fflag, -, fquiet, fsettings, -⟩ := hfsup
    have hrun : w.sup.op ≠ .halted := by
      rw [hsup.1]
      nofun
    have hends := holdup_ends hrun hdone.still hdone.link.down
    have yops : y.tally.ops = s.tally.ops := congrArg Tally.ops ytally
    have hnight : y.nightEnding = s.nightEnding := nightEnding_of_phase (by rw [yoff])
    obtain ⟨hwr, hwf', hws, hwp⟩ := hdone.waits
    generalize w.finish = t at fop fclock fwarn fflag fquiet fsettings hends ⊢
    refine ⟨fop, fwarn, fquiet, fsettings, fflag, fclock, fun hquiet => ?_, fun rec r hr => ?_,
      fun rec r hr hactive => ?_, ?_, hends.down.1, hends.down.2.1, hends.down.2.2, fun hn => ⟨fun e he hform => ?_,
        fun hplan => ?_, fun f hf c hc _ => ?_⟩, fun n x hx => ?_, ?_, ?_, ?_, ?_, ?_, ?_, ?_, ?_⟩
    · exact (hends.tally (hdone.once (by rw [yops]; exact hquiet))).1.trans hdone.recounts
    · exact hdone.ended rec r ((restore_congr hends.rst rec).symm.trans hr)
    · have hyr : y.restore rec = some r := by
        rw [State.restore, yrst]
        exact hr
      obtain ⟨⟨q, hq, hrid, hstate, hcause, hrem, hpin⟩, hrelease, hunlocked⟩ := hdone.failed rec r hyr hactive
      refine ⟨q, (restore_congr hends.rst rec).trans hq, hrid, hstate, hcause, hrem, hpin, fun htally hn => ?_,
        fun i hi => ?_⟩
      · have hnone : ∀ o ∈ y.tally.ops, o.job.runsAtOnce = false := by
          rw [yops, htally.1]
          exact fun _ hno => nomatch hno
        exact (hends.tally (hdone.once hnone)).release (hrelease hn)
      · rw [hends.locks]
        exact hunlocked i hi
    · rw [hends.rst, hdone.waiting, yrst]
    · exact hdone.link.unpulled (hnight.trans hn) e (hends.queue e he) hform
    · have hplan' : ∀ p ∈ w.off.plan, p.state ≠ .shed ∧ p.state ≠ .failed := by
        rw [hdone.link.plan, yoff]
        exact hplan
      rw [hends.whole hplan', hdone.link.nums (hnight.trans hn), yoff]
    · rw [hends.controls]
      exact hdone.link.controls (hnight.trans hn) f (by rw [yoff]; exact hf) c hc
    · rw [State.slot, hends.str] at hx
      exact hdone.slots (n, x) (mem_of_tget hx)
    · rw [hends.str, hwr]
    · rw [hends.str, hwf']
    · rw [hends.str, hws]
    · rw [hends.str, hwp]
    · rw [hends.pat, hdone.still.1]
    · rw [hends.pat, hdone.still.2.1]
    · rw [hends.pat, hdone.still.2.2.1]
    · rw [hends.pat, hdone.empty]
  · refine ⟨_, exec_cleanShutdownWrite hop hflag hempty, ?_, fun hw => ?_, fun hw => ?_⟩
    · split
      · rfl
      · obtain ⟨hsup, -⟩ := leaveHoldup_finish { s.clearMarkers with sup.cleanFlag := true, sent := [] }
        obtain ⟨-, -, -, -, -, -, -, -, -, -, -, -, hsettings, -⟩ := hsup
        exact hsettings
    · rw [if_pos hw]
      exact ⟨rfl, rfl, rfl, fun id => prin_clearMarkers s id, rfl, rfl, rfl, rfl, rfl⟩
    · rw [if_neg (by rw [hw]; exact Bool.false_ne_true)]
      obtain ⟨hsup, hslots, hrecounts⟩ :=
        leaveHoldup_finish { s.clearMarkers with sup.cleanFlag := true, sent := [] }
      obtain ⟨hsop, -, -, -, -, -, -, -, -, hsflag, -⟩ := hsup
      refine ⟨hsop, hsflag, hslots, fun id p hp hpool hun hmem => ?_⟩
      refine hrecounts (tallyEmpty_ops hempty) id p.unmarked ?_ hpool hun hmem
      exact (prin_clearMarkers s id).trans (congrArg (Option.map Principal.unmarked) hp)
  · refine ⟨_, exec_powerWarnDeassert hop, ?_⟩
    obtain ⟨hsup, hslots, -⟩ := leaveHoldup_finish { s with sup.powerWarn := false, sent := [] }
    obtain ⟨hsop, -, -, -, -, -, -, -, hswarn, hsflag, -, -, hssettings, -⟩ := hsup
    by_cases hf : s.sup.cleanFlag = true
    · rw [if_pos ⟨hop, hf⟩]
      exact ⟨hswarn, hsflag, hssettings, fun _ => ⟨hsop, hslots⟩, fun hno => absurd hf (by rw [hno]; nofun)⟩
    · rw [if_neg fun h => hf h.2]
      exact ⟨rfl, Bool.eq_false_iff.mpr hf, rfl, fun hno => absurd hno hf, fun _ => rfl⟩

end

section
/-! SUPPORT. Repair states and verified times written, and repair records that end (R64, R165 to R167). -/

namespace Sys2Proof.Machine

section
variable {s t u : State} {vol ext birth loc rec : Nat} {st : RepairState} {r : Repair} {x : Version}

/-! ### Versions written -/

theorem directives_of_settles (h : Settles s t) (l : Link) : (t.link l).directives = (s.link l).directives := by
  obtain ⟨-, hlinks, -⟩ := h
  exact (hlinks l).1.2.1

theorem versionAt_of_cat (h : t.cat.extents = s.cat.extents) (vol ext birth loc : Nat) :
    t.versionAt vol ext birth loc = s.versionAt vol ext birth loc := by
  unfold State.versionAt State.extent
  rw [h]

theorem damaged_of_volumes (h : t.cat.volumes = s.cat.volumes) (vol ext : Nat) :
    t.damaged vol ext = s.damaged vol ext := by
  unfold State.damaged State.volume
  rw [h]

/-- The first element that satisfies a predicate, where every such one is changed and goes on satisfying it. -/
theorem find_mapIf_same {α : Type} {p : α → Bool} {f : α → α} (hp : ∀ v, p (f v) = p v) (vs : List α) :
    (mapIf p f vs).find? p = (vs.find? p).map f := by
  induction vs with
  | nil => rfl
  | cons v vs ih =>
    unfold mapIf at ih ⊢
    by_cases hv : p v = true
    · rw [List.map_cons, if_pos hv, List.find?_cons_of_pos ((hp v).trans hv), List.find?_cons_of_pos hv]
      rfl
    · rw [List.map_cons, if_neg hv, List.find?_cons_of_neg hv, List.find?_cons_of_neg hv, ih]

/-- A field of the version with a birth and a location written (R64). -/
theorem changeVersion_versionAt {f : Version → Version} (hf : ∀ v, (f v).birth = v.birth ∧ (f v).loc = v.loc)
    (hd : s.damaged vol ext = false) :
    (s.changeVersion vol ext birth (fun v => decide (v.loc = some loc)) f).versionAt vol ext birth loc =
      (s.versionAt vol ext birth loc).map f := by
  unfold State.changeVersion
  rw [hd, if_neg Bool.false_ne_true]
  unfold State.versionAt
  rw [extent_setExtent_self]
  refine find_mapIf_same (fun v => ?_) _
  rw [(hf v).1, (hf v).2]

theorem changeVersion_single {f : Version → Version} (hd : s.damaged vol ext = false)
    (hx : (s.extent vol ext).versions = [x]) (hb : x.birth = birth) (hl : x.loc = some loc) :
    ((s.changeVersion vol ext birth (fun v => decide (v.loc = some loc)) f).extent vol ext).versions = [f x] := by
  unfold State.changeVersion
  rw [hd, if_neg Bool.false_ne_true]
  dsimp only
  rw [extent_setExtent_self, hx]
  unfold mapIf
  rw [List.map_cons, if_pos (by simp [hb, hl]), List.map_nil]

/-- A version field written touches the extent records alone. -/
theorem changeVersion_frame (s : State) (vol ext birth : Nat) (p : Version → Bool) (f : Version → Version) :
    s.changeVersion vol ext birth p f =
      { s with cat.extents := (s.changeVersion vol ext birth p f).cat.extents } := by
  unfold State.changeVersion
  split
  · rfl
  · rfl

/-! ### What other blocks do about a repair state -/

/-- From one state to another, links, slots, the Ship Queue, the plan and the pulls alone differ. -/
structure ShipOnly (s t : State) : Prop where
  frame : t = { s with
    links := t.links, str := t.str
    off := { s.off with
      queue := t.off.queue, nextEntry := t.off.nextEntry, plan := t.off.plan, pulls := t.off.pulls } }

theorem ShipOnly.trans (h : ShipOnly s t) (k : ShipOnly t u) : ShipOnly s u := by
  have hframe := k.frame
  rw [h.frame] at hframe
  exact ⟨hframe⟩

theorem RunsFreed.shipOnly (h : RunsFreed s t) : ShipOnly s t := by
  have hframe := h.frame
  rw [hframe]
  exact ⟨rfl⟩

theorem ShipOnly.parts (h : ShipOnly s t) : t.sup = s.sup ∧ t.tally = s.tally ∧ t.cat = s.cat ∧ t.rst = s.rst ∧
    t.pat = s.pat := by
  rw [h.frame]
  exact ⟨rfl, rfl, rfl, rfl, rfl⟩

theorem shipOnly_foldl {α : Type} {g : State → α → State} (hg : ∀ u x, ShipOnly u (g u x)) (xs : List α) (s : State) :
    ShipOnly s (xs.foldl g s) := by
  induction xs generalizing s with
  | nil => exact ⟨rfl⟩
  | cons x xs ih => exact (hg s x).trans (ih _)

theorem shipOnly_restoreReact (s : State) (vol ext birth : Nat) (st : RepairState) :
    ShipOnly s (s.restoreReact vol ext birth st) := by
  unfold State.restoreReact
  split
  · exact shipOnly_foldl (fun _ _ => ⟨rfl⟩) allLinks s
  · exact ⟨rfl⟩

theorem shipOnly_damageEntries (s : State) (vol ext birth : Nat) (p : ShipEntry → Bool) :
    ShipOnly s (s.damageEntries vol ext birth p) := by
  unfold State.damageEntries
  dsimp only
  split
  · exact ⟨rfl⟩
  · rw [freeEntrySlots_eq]
    exact ⟨rfl⟩

theorem shipOnly_shipLost (s : State) (vol ext birth : Nat) : ShipOnly s (s.shipLost vol ext birth) :=
  (cancelRuns_runsFreed s _).shipOnly.trans (shipOnly_damageEntries _ vol ext birth _)

theorem shipOnly_shipReact (s : State) (vol ext birth : Nat) (st : RepairState) :
    ShipOnly s (s.shipReact vol ext birth st) := by
  unfold State.shipReact
  split
  · split
    · exact ⟨rfl⟩
    · exact shipOnly_shipLost s vol ext birth
    · exact ⟨rfl⟩
    · exact ⟨rfl⟩
  · exact ⟨rfl⟩

/-- A repair state set writes the record, where it changes, and tells Offsite and Restore Engine (R64). -/
theorem setRepair_spec (hd : s.damaged vol ext = false) (hx : s.versionAt vol ext birth loc = some x) :
    (x.repair = st ∧ s.setRepair vol ext birth loc st = s) ∨
      (x.repair ≠ st ∧ ShipOnly (s.writeRepair vol ext birth loc st) (s.setRepair vol ext birth loc st)) := by
  unfold State.setRepair
  rw [hx]
  dsimp only
  rw [hd]
  by_cases hst : x.repair = st
  · rw [if_pos (.inr hst)]
    exact .inl ⟨hst, rfl⟩
  · rw [if_neg fun hno => hno.elim (fun h => Bool.noConfusion h) hst]
    exact .inr ⟨hst, (shipOnly_restoreReact _ _ _ _ _).trans (shipOnly_shipReact _ _ _ _ _)⟩

/-- A repair state set leaves frames, fetches and waits for room. -/
theorem setRepair_fetches (s : State) (vol ext birth loc : Nat) (st : RepairState) :
    (s.setRepair vol ext birth loc st).off.outstanding = s.off.outstanding ∧
      (s.setRepair vol ext birth loc st).off.fetchQueue = s.off.fetchQueue ∧
      (s.setRepair vol ext birth loc st).off.roomWaits = s.off.roomWaits := by
  unfold State.setRepair
  split
  · exact ⟨rfl, rfl, rfl⟩
  · split
    · exact ⟨rfl, rfl, rfl⟩
    · have hship := (shipOnly_restoreReact (s.writeRepair vol ext birth loc st) vol ext birth st).trans
        (shipOnly_shipReact _ vol ext birth st)
      have hwrite : (s.writeRepair vol ext birth loc st).off = s.off :=
        (congrArg State.off (changeVersion_frame s vol ext birth _ _)).trans rfl
      rw [hship.frame, ← hwrite]
      exact ⟨rfl, rfl, rfl⟩

/-- What a repair state set leaves. -/
theorem setRepair_parts (hd : s.damaged vol ext = false) (hx : s.versionAt vol ext birth loc = some x) :
    (s.setRepair vol ext birth loc st).sup = s.sup ∧ (s.setRepair vol ext birth loc st).pat = s.pat ∧
      (s.setRepair vol ext birth loc st).cat.volumes = s.cat.volumes ∧
      (s.setRepair vol ext birth loc st).versionAt vol ext birth loc = some { x with repair := st } := by
  rcases setRepair_spec (st := st) hd hx with ⟨hst, heq⟩ | ⟨-, hship⟩
  · rw [heq, hx, ← hst]
    exact ⟨rfl, rfl, rfl, rfl⟩
  · obtain ⟨hsup, -, hcat, -, hpat⟩ := hship.parts
    have hframe := changeVersion_frame s vol ext birth (fun v => decide (v.loc = some loc))
      fun v => { v with repair := st }
    have hwrite : (s.writeRepair vol ext birth loc st).versionAt vol ext birth loc = some { x with repair := st } := by
      refine (changeVersion_versionAt (f := fun v => { v with repair := st }) (fun _ => ⟨rfl, rfl⟩) hd).trans ?_
      rw [hx]
      rfl
    refine ⟨hsup.trans ?_, hpat.trans ?_, ?_, ?_⟩
    · exact (congrArg State.sup hframe).trans rfl
    · exact (congrArg State.pat hframe).trans rfl
    · rw [hcat]
      exact (congrArg (fun v : State => v.cat.volumes) hframe).trans rfl
    · exact (versionAt_of_cat (congrArg Catalogue.extents hcat) vol ext birth loc).trans hwrite

theorem setRepair_single (hd : s.damaged vol ext = false) (hx : (s.extent vol ext).versions = [x])
    (hb : x.birth = birth) (hl : x.loc = some loc) :
    ((s.setRepair vol ext birth loc st).extent vol ext).versions = [{ x with repair := st }] := by
  have hat : s.versionAt vol ext birth loc = some x := by
    unfold State.versionAt
    rw [hx, List.find?_cons_of_pos (by simp [hb, hl])]
  rcases setRepair_spec (st := st) hd hat with ⟨hst, heq⟩ | ⟨-, hship⟩
  · rw [heq, hx, ← hst]
  · obtain ⟨-, -, hcat, -, -⟩ := hship.parts
    rw [State.extent, hcat]
    exact changeVersion_single (f := fun v => { v with repair := st }) hd hx hb hl

/-- What a verified time set leaves. -/
theorem setVerified_parts (hd : s.damaged vol ext = false) (hx : s.versionAt vol ext birth loc = some x) :
    (s.setVerified vol ext birth loc).sup = s.sup ∧ (s.setVerified vol ext birth loc).pat = s.pat ∧
      (s.setVerified vol ext birth loc).cat.volumes = s.cat.volumes ∧
      (s.setVerified vol ext birth loc).versionAt vol ext birth loc = some { x with verified := s.sup.clock } := by
  have hframe := changeVersion_frame s vol ext birth (fun v => decide (v.loc = some loc))
    fun v => { v with verified := s.sup.clock }
  refine ⟨(congrArg State.sup hframe).trans rfl, (congrArg State.pat hframe).trans rfl,
    (congrArg (fun v : State => v.cat.volumes) hframe).trans rfl, ?_⟩
  refine (changeVersion_versionAt (f := fun v => { v with verified := s.sup.clock }) (fun _ => ⟨rfl, rfl⟩) hd).trans ?_
  rw [hx]
  rfl

/-! ### A record that ends -/

theorem leavePlaces_frame (s : State) (who : Issuer) :
    s.leavePlaces who = { s with links := (s.leavePlaces who).links } := by
  have hframe := foldl_modLink_beside (fun _ r => { r with placeWaits := r.placeWaits.filter (· ≠ who) }) allLinks s
  exact hframe

theorem leaveRepairPlaces_frame (s : State) (n : Nat) :
    s.leaveRepairPlaces n = { s with links := (s.leaveRepairPlaces n).links } := by
  unfold State.leaveRepairPlaces
  generalize List.range 16 = is
  induction is generalizing s with
  | nil => rfl
  | cons i is ih =>
    rw [List.foldl_cons, ih, leavePlaces_frame]

/-- A record closed while none waits takes its slots and its waits for places with it (R167). -/
theorem closeRepair_none (n : Nat) (h : s.pat.waiting = []) : ∃ ls, s.closeRepair n =
    { s with
      links := ls, str.slots := s.str.slots.filter fun kv => !decide (kv.2.holder = .repair n)
      pat := { s.pat with repairs := tdel s.pat.repairs n, waiting := [] } } := by
  unfold State.closeRepair
  dsimp only
  rw [leaveRepairPlaces_frame]
  refine ⟨((s.freeAllOf (.repair n)).leaveRepairPlaces n).links, ?_⟩
  unfold State.freeAllOf State.freeSlotsIf State.modPat
  dsimp only
  rw [h]
  rfl

/-- The version of a record that ends, as its outcome writes it (R167). -/
def endedVersion (r : Repair) (now : Nat) (x : Version) : Version :=
  if r.outcome.1 then { x with repair := .sound, verified := now } else { x with repair := .unrepairable }

/-- What the end of a record writes before it is closed (R167). -/
def State.repairWritten (s : State) (r : Repair) : State :=
  if r.outcome.1 then (s.setRepair r.vol r.ext r.birth r.loc .sound).setVerified r.vol r.ext r.birth r.loc
  else s.setRepair r.vol r.ext r.birth r.loc .unrepairable

theorem repairWritten_parts (hd : s.damaged r.vol r.ext = false) (hx : s.repairVersion r = some x) :
    (s.repairWritten r).sup = s.sup ∧ (s.repairWritten r).pat = s.pat ∧
      (s.repairWritten r).repairVersion r = some (endedVersion r s.sup.clock x) := by
  unfold State.repairWritten endedVersion
  split
  · obtain ⟨hsup, hpat, hvol, hver⟩ := setRepair_parts (st := .sound) hd hx
    have hd' := (damaged_of_volumes hvol r.vol r.ext).trans hd
    obtain ⟨hsup', hpat', -, hver'⟩ := setVerified_parts hd' hver
    refine ⟨hsup'.trans hsup, hpat'.trans hpat, hver'.trans ?_⟩
    rw [hsup]
  · obtain ⟨hsup, hpat, -, hver⟩ := setRepair_parts (st := .unrepairable) hd hx
    exact ⟨hsup, hpat, hver⟩

/-- What the end of a record leaves (R167). -/
structure RepairEnded (s t : State) (rec : Nat) (r : Repair) (x : Version) : Prop where
  pat : t.pat = { s.pat with repairs := tdel s.pat.repairs rec, waiting := [] }
  raised : t.sup.raised[9]? = (s.sup.raised[9]?).map countUp
  version : t.repairVersion r = some (endedVersion r s.sup.clock x)
  written : t.cat = (s.repairWritten r).cat
  slots : ∀ kv ∈ t.str.slots, kv.2.holder ≠ .repair rec

theorem endRepair_ended (hwait : s.pat.waiting = []) (hd : s.damaged r.vol r.ext = false)
    (hx : s.repairVersion r = some x) : RepairEnded s (s.endRepair rec r) rec r x := by
  obtain ⟨hsup, hpat, hver⟩ := repairWritten_parts hd hx
  have hdef : s.endRepair rec r =
      ((s.repairWritten r).raise (.damage r.vol r.ext r.birth r.outcome.1 r.outcome.2)).closeRepair rec := rfl
  rw [hdef]
  generalize hv : s.repairWritten r = v at hsup hpat hver
  have hraise := raise_eq v (.damage r.vol r.ext r.birth r.outcome.1 r.outcome.2)
  have hraised := raise_raised v (.damage r.vol r.ext r.birth r.outcome.1 r.outcome.2)
  generalize v.raise (.damage r.vol r.ext r.birth r.outcome.1 r.outcome.2) = w at hraise hraised
  have hw : w.cat = v.cat ∧ w.pat = v.pat := by
    rw [hraise]
    exact ⟨rfl, rfl⟩
  obtain ⟨wcat, wpat⟩ := hw
  obtain ⟨ls, hclose⟩ := closeRepair_none (s := w) rec (by rw [wpat, hpat, hwait])
  rw [hclose]
  refine ⟨?_, ?_, ?_, wcat.trans (congrArg State.cat hv.symm), fun kv hkv => ?_⟩
  · change { w.pat with repairs := tdel w.pat.repairs rec, waiting := [] } = _
    rw [wpat, hpat]
  · change w.sup.raised[9]? = _
    rw [hraised, hsup]
    exact (getElem?_modAt s.sup.raised 9 9 countUp).trans (if_pos rfl)
  · exact (versionAt_of_cat (s := v) (congrArg Catalogue.extents wcat) r.vol r.ext r.birth r.loc).trans hver
  · have hno := (List.mem_filter.mp hkv).2
    simpa using hno

/-! ### The records looked at -/

/-- No directive and no fetch of a record is out. -/
theorem repairBusy_none (hdir : ∀ l : Link, (s.link l).directives = []) (hout : s.off.outstanding = []) (n : Nat) :
    s.repairBusy n = false := by
  unfold State.repairBusy
  rw [hout, Bool.or_eq_false_iff]
  refine ⟨?_, rfl⟩
  rw [List.any_eq_false]
  intro l _
  rw [hdir l]
  exact Bool.false_ne_true

/-- A directive of a record is out. -/
theorem repairBusy_of {l : Link} {d : Directive} {n i : Nat} (hd : d ∈ (s.link l).directives)
    (hissuer : d.issuer = .repair n i) : s.repairBusy n = true := by
  unfold State.repairBusy
  rw [Bool.or_eq_true]
  refine .inl (List.any_eq_true.mpr ⟨l, mem_allLinks l, List.any_eq_true.mpr ⟨d, hd, ?_⟩⟩)
  rw [hissuer]
  exact beq_self_eq_true n

theorem repair_single (h : s.pat.repairs = [(rec, r)]) : s.repair rec = some r := by
  unfold State.repair
  rw [h]
  exact if_pos rfl

theorem tdel_single {α : Type} (k : Nat) (v : α) : tdel [(k, v)] k = [] := by
  unfold tdel
  rw [List.filter_cons_of_neg (by simp)]
  rfl

theorem tmod_single {α : Type} (k : Nat) (v : α) (f : α → α) : tmod [(k, v)] k f = [(k, f v)] := by
  unfold tmod tget
  rw [if_pos rfl]
  dsimp only
  unfold tput
  rw [if_neg (Nat.lt_irrefl k), if_pos rfl]

/-- A record with work out is left, and with nothing else in hand the Patrol Unit rests. -/
theorem settlePatrol_working (hwork : s.pat.work = []) (hfolds : s.pat.folds = []) (hclear : s.pat.clearing = false)
    (hrep : s.pat.repairs = [(rec, r)]) (hnot : r.abandoned = false) (hd : s.damaged r.vol r.ext = false)
    (hx : s.repairVersion r = some x) (hbusy : s.repairBusy rec = true) : s.settlePatrol = s := by
  have habandon : (s.abandonIf fun r => s.damaged r.vol r.ext || (s.repairVersion r).isNone) = s := by
    unfold State.abandonIf
    rw [hrep, List.filter_cons_of_neg]
    · rfl
    · simp [hnot, hd, hx]
  have hone : (s.pat.repairs.map Prod.fst).foldl State.checkRepair s = s := by
    rw [hrep]
    change s.checkRepair rec = s
    unfold State.checkRepair
    rw [repair_single hrep]
    exact if_pos hbusy
  have hrecords : s.checkRepairs = s := iter_fixed hone _
  unfold State.settlePatrol
  dsimp only
  rw [habandon, hrecords, hfolds]
  dsimp only [List.foldl]
  rw [hwork]
  dsimp only [List.map, List.foldl]
  unfold State.endClearing
  rw [hclear]
  exact if_neg fun h => Bool.noConfusion h.1

end

end Sys2Proof.Machine
end

section
/-! PROOF. O54: FIX issued from fetched chunks and from a twin, and its answers (R164 to R167). -/

namespace Sys2Proof.Machine

section
variable {s t u : State} {l : Link} {vol ext birth loc rec idx : Nat} {r : Repair} {c : RepairChunk} {v : Volume}
  {x : Version} {d : Directive}

/-! ### References taken -/

theorem carries_of_versionAt (hx : s.versionAt vol ext birth loc = some x) :
    (s.extent vol ext).carries loc = true := by
  have hp := List.find?_some (p := fun v : Version => v.birth == birth && decide (v.loc = some loc)) hx
  rw [Bool.and_eq_true] at hp
  exact List.any_eq_true.mpr ⟨x, List.mem_of_find?_eq_some hx, hp.2⟩

/-- The increment of a location that a version carries (R58). -/
theorem incRef_granted (hd : s.damaged vol ext = false) (hc : (s.extent vol ext).carries loc = true) :
    ∃ b, s.incRef vol ext loc = .granted b ∧ RefsMoved s b ∧ b.links = s.links := by
  unfold State.incRef
  rw [hd, if_neg Bool.false_ne_true, if_pos hc]
  exact ⟨_, rfl, refsMoved_setRefs s vol ext loc (· + 1) (· + 1), rfl⟩

namespace RefsMoved

/-- The version with a birth and a location is the same but for its references. -/
theorem versionAt (h : RefsMoved s t) (vol ext birth loc : Nat) : ∃ g : Version → Version, (∀ v, SameButRefs v (g v)) ∧
    t.versionAt vol ext birth loc = (s.versionAt vol ext birth loc).map g := by
  obtain ⟨g, hg, hgv⟩ := h.versions vol ext
  refine ⟨g, hg, ?_⟩
  unfold State.versionAt
  rw [hgv, List.find?_map]
  refine congrArg _ (congrArg (fun p => List.find? p _) ?_)
  funext v
  have hbirth : (g v).birth = v.birth := by rw [(hg v).1]
  rw [Function.comp_apply, hbirth, (hg v).2]

theorem carries (h : RefsMoved s t) (vol ext loc : Nat) :
    (t.extent vol ext).carries loc = (s.extent vol ext).carries loc := by
  obtain ⟨g, hg, hgv⟩ := h.versions vol ext
  unfold Extent.carries
  rw [hgv, List.any_map]
  refine congrArg (fun p => List.any _ p) ?_
  funext v
  rw [Function.comp_apply, (hg v).2]

theorem repairVersion (h : RefsMoved s t) (hx : s.repairVersion r = some x) : ∃ y, t.repairVersion r = some y ∧
    SameButRefs x y := by
  obtain ⟨g, hg, hgv⟩ := h.versionAt r.vol r.ext r.birth r.loc
  refine ⟨g x, ?_, hg x⟩
  unfold State.repairVersion at hx ⊢
  rw [hgv, hx]
  rfl

end RefsMoved

/-! ### A FIX issued -/

theorem exec_fix (hop : s.sup.op = .active) (hr : s.repair rec = some r) (hv : s.volume r.vol = some v)
    (hnot : r.abandoned = false) (hlost : r.lost = false) (hbecome : r.becomeWhole = false) :
    Sys2Proof.Machine.exec (.fix rec idx []) s =
      .next (State.finish (if r.whole then State.fixWhole { s with sent := [] } rec r v.owner
        else State.fixChunk { s with sent := [] } rec idx r v.owner)) := by
  have hrun : s.sup.op ≠ .halted := by
    rw [hop]
    nofun
  have hr' : ({ s with sent := [] } : State).repair rec = some r := hr
  have hown : ({ s with sent := [] } : State).ownerOf r.vol = some v.owner := congrArg (Option.map Volume.owner) hv
  change execFix rec idx [] s = _
  unfold execFix
  refine (act_withErrs_nil _ hrun).trans (congrArg Host.Outcome.next ?_)
  rw [hr']
  dsimp only
  rw [hown]
  dsimp only
  rw [if_neg (by rw [hop, hnot, hlost, hbecome]; simp)]
  split <;> rfl

/-- A record with some of its chunks marked as being fixed. -/
def Repair.fixing (idxs : List Nat) (r : Repair) : Repair :=
  { r with chunks := mapIf (fun c => idxs.contains c.idx) (fun c => { c with progress := .fixing }) r.chunks }

theorem markFixing_eq (s : State) (n : Nat) (idxs : List Nat) :
    s.markFixing n idxs = { s with pat.repairs := tmod s.pat.repairs n (Repair.fixing idxs) } := rfl

/-- A FIX stands on its link, its record marked, and the references taken. -/
structure FixOut (s t : State) (l : Link) (rec idx : Nat) (r : Repair) (idxs : List Nat)
    (refs : List (Nat × Nat × Nat)) (b : DirBody) (chunks : List (Nat × Nat)) : Prop where
  pat : t.pat = { s.pat with repairs := [(rec, r.fixing idxs)] }
  moved : RefsMoved s { t with pat := s.pat }
  tx : (t.link l).tx = (s.link l).tx ++ .directive (s.link l).nextTag b ::
    chunks.map fun c => .chunk (s.link l).nextTag c.1 c.2
  directives : ∃ d : Directive, (t.link l).directives = (s.link l).directives ++ [d] ∧
    d.tag = (s.link l).nextTag ∧ d.kind = .fix ∧ d.issuer = .repair rec idx ∧ d.refs = refs

theorem fixOut_handed {idxs : List Nat} {refs : List (Nat × Nat × Nat)} {b : DirBody} {chunks : List (Nat × Nat)}
    (hrep : s.pat.repairs = [(rec, r)]) (hmoved : RefsMoved s u) (hlinks : u.links = s.links) :
    FixOut s ((u.markFixing rec idxs).handDirective l .fix (.repair rec idx) refs b chunks) l rec idx r idxs refs b
      chunks := by
  have hlink : (u.markFixing rec idxs).link l = s.link l := State.link_congr hlinks l
  have hspec := handDirective_link (s := u.markFixing rec idxs) (l := l) (k := .fix) (who := .repair rec idx)
    (refs := refs) (b := b) (chunks := chunks)
  rw [hlink] at hspec
  have hupat : u.pat = s.pat := hmoved.pat
  refine ⟨?_, ⟨?_, hmoved.versions, hmoved.volume⟩, ?_, ?_⟩
  · rw [handDirective_eq, markFixing_eq]
    change { u.pat with repairs := tmod u.pat.repairs rec (Repair.fixing idxs) } = _
    rw [hupat, hrep, tmod_single]
  · rw [handDirective_eq]
    generalize ((u.markFixing rec idxs).handDirective l .fix (.repair rec idx) refs b chunks).links = ls
    change { u with links := ls, pat := s.pat } = { s with links := ls, cat := u.cat }
    rw [hmoved.frame]
  · rw [hspec]
  · refine ⟨(u.markFixing rec idxs).newDirective l .fix (.repair rec idx) refs, ?_, ?_, rfl, rfl, rfl⟩
    · rw [hspec]
    · exact congrArg LinkRec.nextTag hlink

/-- The step that issues a FIX ends with its record left alone. -/
theorem fixOut_finish {idxs : List Nat} {refs : List (Nat × Nat × Nat)} {b : DirBody} {chunks : List (Nat × Nat)}
    {w : State} (h : FixOut s t l rec idx r idxs refs b chunks)
    (hw : w = { t with str := w.str }) (hop : s.sup.op = .active) (htally : s.tallyStill) (hwork : s.pat.work = [])
    (hfolds : s.pat.folds = []) (hclear : s.pat.clearing = false) (hnot : r.abandoned = false)
    (hd : s.damaged r.vol r.ext = false) (hx : s.repairVersion r = some x) :
    w.finish.links = t.links ∧ w.finish.pat = t.pat ∧ w.finish.str.slots = w.str.slots := by
  obtain ⟨hpat, hmoved, -, d, hdir, -, -, hissuer, -⟩ := h
  have hsup : t.sup = s.sup := hmoved.sup
  have ht : t.tally = s.tally := hmoved.tally
  have hwt : w.sup = t.sup ∧ w.links = t.links ∧ w.tally = t.tally ∧ w.cat = t.cat ∧ w.pat = t.pat := by
    rw [hw]
    exact ⟨rfl, rfl, rfl, rfl, rfl⟩
  obtain ⟨wsup, wlinks, wtally, wcat, wpat⟩ := hwt
  have hrun : w.sup.op ≠ .halted := by
    rw [wsup, hsup, hop]
    nofun
  obtain ⟨y, hy, -⟩ := hmoved.repairVersion hx
  have hpatrol : w.settlePatrol = w := by
    refine settlePatrol_working (rec := rec) (r := r.fixing idxs) (x := y) ?_ ?_ ?_ ?_ hnot ?_ ?_
      (repairBusy_of (l := l) (d := d) (i := idx) ?_ hissuer)
    · rw [wpat, hpat]
      exact hwork
    · rw [wpat, hpat]
      exact hfolds
    · rw [wpat, hpat]
      exact hclear
    · rw [wpat, hpat]
    · exact (damaged_of_volumes (congrArg Catalogue.volumes wcat) r.vol r.ext).trans
        ((hmoved.damaged r.vol r.ext).trans hd)
    · exact (versionAt_of_cat (congrArg Catalogue.extents wcat) r.vol r.ext r.birth r.loc).trans hy
    · rw [State.link_congr wlinks, hdir]
      exact List.mem_append_right _ List.mem_cons_self
  have hstill : w.tallyStill := by
    unfold State.tallyStill
    rw [wtally, ht]
    exact htally
  have hfinish : w.finish = w.settleLink := by
    rw [finish_running hrun, advance_still hstill, State.settle, hpatrol]
  have hbeside := settleLink_beside w
  unfold State.besideLink at hbeside
  simp only [Prod.mk.injEq] at hbeside
  obtain ⟨-, blinks, -, -, -, bpat, -⟩ := hbeside
  rw [hfinish]
  exact ⟨blinks.trans wlinks, bpat.trans wpat, (settleLink_lasting w).2⟩

/-- The fetched chunks of a record that a FIX carries, with their slots. -/
def State.fixedChunks (s : State) (rec : Nat) (idxs : List Nat) : List (Nat × Nat) :=
  (s.chunksOf (.repair rec) .full).filter fun c => idxs.contains c.1

/-- A FIX with data takes the reference, and its slots are SENDING (R164, R166). -/
theorem fixData_out (idxs : List Nat) (hrep : s.pat.repairs = [(rec, r)]) (hd : s.damaged r.vol r.ext = false)
    (hx : s.repairVersion r = some x) : ∃ t, FixOut s t l rec idx r idxs [(r.vol, r.ext, r.loc)] (.fixData r.loc idxs)
      (s.fixedChunks rec idxs) ∧ t.str = s.str ∧
      s.fixData rec idx r l idxs = t.setSlots ((s.fixedChunks rec idxs).map Prod.snd) .sending := by
  obtain ⟨b, hb, hmoved, hlinks⟩ := incRef_granted hd (carries_of_versionAt hx)
  have hchunks : (b.chunksOf (.repair rec) .full).filter (fun c => idxs.contains c.1) = s.fixedChunks rec idxs := by
    unfold State.fixedChunks State.chunksOf
    rw [hmoved.str]
  refine ⟨_, fixOut_handed (u := b) hrep hmoved hlinks, ?_, ?_⟩
  · exact hmoved.str
  · unfold State.fixData
    rw [hb]
    dsimp only
    rw [hchunks]

/-- What the step that issues a FIX with data leaves. -/
theorem fixData_finish (idxs : List Nat) (hop : s.sup.op = .active) (htally : s.tallyStill)
    (hrep : s.pat.repairs = [(rec, r)]) (hwork : s.pat.work = []) (hfolds : s.pat.folds = [])
    (hclear : s.pat.clearing = false) (hnot : r.abandoned = false) (hd : s.damaged r.vol r.ext = false)
    (hx : s.repairVersion r = some x) :
    ∃ d : Directive, (s.fixData rec idx r l idxs).finish.repair rec = some (r.fixing idxs) ∧
      ((s.fixData rec idx r l idxs).finish.link l).directives = (s.link l).directives ++ [d] ∧ d.kind = .fix ∧
      d.issuer = .repair rec idx ∧ d.refs = [(r.vol, r.ext, r.loc)] ∧
      ((s.fixData rec idx r l idxs).finish.link l).tx = (s.link l).tx ++
        .directive d.tag (.fixData r.loc idxs) :: (s.fixedChunks rec idxs).map (fun c => .chunk d.tag c.1 c.2) ∧
      ∀ n, (s.fixData rec idx r l idxs).finish.slot n =
        if n ∈ (s.fixedChunks rec idxs).map Prod.snd then (s.slot n).map fun y => { y with state := .sending }
        else s.slot n := by
  obtain ⟨t, hout, hstr, heq⟩ := fixData_out (l := l) (idx := idx) idxs hrep hd hx
  have hslots := setSlots_eq t ((s.fixedChunks rec idxs).map Prod.snd) .sending
  have hslot := slot_setSlots t ((s.fixedChunks rec idxs).map Prod.snd) .sending
  rw [heq]
  generalize t.setSlots ((s.fixedChunks rec idxs).map Prod.snd) .sending = w at hslots hslot
  have hw : w = { t with str := w.str } := hslots.trans (by rw [hslots])
  obtain ⟨flinks, fpat, fslots⟩ := fixOut_finish hout hw hop htally hwork hfolds hclear hnot hd hx
  obtain ⟨hpat, -, htx, d, hdir, htag, hkind, hissuer, hrefs⟩ := hout
  have hlink : w.finish.link l = t.link l := State.link_congr flinks l
  refine ⟨d, ?_, ?_, hkind, hissuer, hrefs, ?_, fun n => ?_⟩
  · exact repair_single (by rw [fpat, hpat])
  · rw [hlink, hdir]
  · rw [hlink, htx, htag]
  · have hread : w.finish.slot n = w.slot n := by rw [State.slot, fslots, State.slot]
    have hts : t.slot n = s.slot n := by rw [State.slot, hstr, State.slot]
    rw [hread, hslot, hts]

/-- The only chunk of a record marked as being fixed. -/
theorem fixing_single (h : r.chunks = [c]) :
    r.fixing [c.idx] = { r with chunks := [{ c with progress := .fixing }] } := by
  unfold Repair.fixing
  rw [h]
  unfold mapIf
  rw [List.map_cons, if_pos (by simp), List.map_nil]

theorem find_chunk_single (h : r.chunks = [c]) : (r.chunks.find? fun x => x.idx == c.idx) = some c := by
  rw [h]
  exact List.find?_cons_of_pos (beq_self_eq_true c.idx)

/-- The only slot of a record, FULL, is the chunk its FIX carries. -/
theorem fixedChunks_single {n : Nat} {y : Slot} (hslots : s.str.slots = [(n, y)]) (hholder : y.holder = .repair rec)
    (hidx : y.idx = c.idx) (hfull : y.state = .full) : s.fixedChunks rec [c.idx] = [(c.idx, n)] := by
  unfold State.fixedChunks State.chunksOf
  rw [hslots, List.filter_cons_of_pos (by simp [hholder, hfull])]
  change [(y.idx, n)].filter _ = _
  rw [hidx]
  exact List.filter_cons_of_pos (by simp)

/-- A fetched chunk goes out in a FIX (R164). -/
theorem fixChunk_fetched {n : Nat} {y : Slot} (hop : s.sup.op = .active) (htally : s.tallyStill)
    (hrep : s.pat.repairs = [(rec, r)]) (hwork : s.pat.work = []) (hfolds : s.pat.folds = [])
    (hclear : s.pat.clearing = false) (hwhole : r.whole = false) (hnot : r.abandoned = false) (hlost : r.lost = false)
    (hbecome : r.becomeWhole = false) (hchunks : r.chunks = [c]) (hprog : c.progress = .fetched)
    (hv : s.volume r.vol = some v) (hd : s.damaged r.vol r.ext = false) (hx : s.repairVersion r = some x)
    (hfree : s.placeFree v.owner (.repair rec c.idx) = true) (hslots : s.str.slots = [(n, y)])
    (hholder : y.holder = .repair rec) (hidx : y.idx = c.idx) (hfull : y.state = .full) :
    ∃ t d, Sys2Proof.Machine.exec (.fix rec c.idx []) s = .next t ∧
      t.repair rec = some { r with chunks := [{ c with progress := .fixing }] } ∧
      t.slot n = some { y with state := .sending } ∧
      (t.link v.owner).directives = (s.link v.owner).directives ++ [d] ∧ d.kind = .fix ∧
      d.issuer = .repair rec c.idx ∧ d.refs = [(r.vol, r.ext, r.loc)] ∧
      (t.link v.owner).tx = (s.link v.owner).tx ++
        [.directive d.tag (.fixData r.loc [c.idx]), .chunk d.tag c.idx n] := by
  have hexec := exec_fix (idx := c.idx) hop (repair_single hrep) hv hnot hlost hbecome
  rw [hwhole, if_neg Bool.false_ne_true] at hexec
  have hchunk : State.fixChunk { s with sent := [] } rec c.idx r v.owner =
      State.fixData { s with sent := [] } rec c.idx r v.owner [c.idx] := by
    unfold State.fixChunk
    rw [find_chunk_single hchunks]
    dsimp only
    rw [hprog]
    exact if_pos hfree
  rw [hchunk] at hexec
  obtain ⟨d, hrepair, hdir, hkind, hissuer, hrefs, htx, hslot⟩ := fixData_finish (s := { s with sent := [] })
    (l := v.owner) (idx := c.idx) [c.idx] hop htally hrep hwork hfolds hclear hnot hd hx
  have hfix : State.fixedChunks { s with sent := [] } rec [c.idx] = [(c.idx, n)] :=
    fixedChunks_single (s := { s with sent := [] }) hslots hholder hidx hfull
  rw [hfix] at htx hslot
  rw [fixing_single hchunks] at hrepair
  have hn : s.slot n = some y := by
    rw [State.slot, hslots]
    exact if_pos rfl
  refine ⟨_, d, hexec, hrepair, ?_, hdir, hkind, hissuer, hrefs, htx⟩
  rw [hslot, if_pos (by simp)]
  exact (congrArg (Option.map _) hn).trans rfl

/-- A whole record goes out in one FIX (R166). -/
theorem fixWhole_fetched (hop : s.sup.op = .active) (htally : s.tallyStill) (hrep : s.pat.repairs = [(rec, r)])
    (hwork : s.pat.work = []) (hfolds : s.pat.folds = []) (hclear : s.pat.clearing = false) (hwhole : r.whole = true)
    (hnot : r.abandoned = false) (hlost : r.lost = false) (hbecome : r.becomeWhole = false)
    (hidxs : r.chunks.map RepairChunk.idx = List.range 16) (hprog : ∀ c ∈ r.chunks, c.progress = .fetched)
    (hv : s.volume r.vol = some v) (hd : s.damaged r.vol r.ext = false) (hx : s.repairVersion r = some x)
    (hfree : s.placeFree v.owner (.repair rec 0) = true) :
    ∃ t d, Sys2Proof.Machine.exec (.fix rec 0 []) s = .next t ∧
      t.repair rec = some { r with chunks := r.chunks.map fun c => { c with progress := .fixing } } ∧
      (t.link v.owner).directives = (s.link v.owner).directives ++ [d] ∧ d.kind = .fix ∧
      d.issuer = .repair rec 0 ∧ d.refs = [(r.vol, r.ext, r.loc)] ∧
      TxFrame.directive d.tag (.fixData r.loc (List.range 16)) ∈ (t.link v.owner).tx ∧
      ∀ n y, s.slot n = some y → y.holder = .repair rec → y.idx < 16 → y.state = .full →
        t.slot n = some { y with state := .sending } ∧ TxFrame.chunk d.tag y.idx n ∈ (t.link v.owner).tx := by
  have hexec := exec_fix (idx := 0) hop (repair_single hrep) hv hnot hlost hbecome
  rw [hwhole, if_pos rfl] at hexec
  have hall : (r.chunks.all fun c => decide (c.progress = .fetched)) = true :=
    List.all_eq_true.mpr fun c hc => decide_eq_true (hprog c hc)
  have hchunk : State.fixWhole { s with sent := [] } rec r v.owner =
      State.fixData { s with sent := [] } rec 0 r v.owner (List.range 16) := by
    unfold State.fixWhole
    rw [if_pos hall]
    exact if_pos hfree
  rw [hchunk] at hexec
  obtain ⟨d, hrepair, hdir, hkind, hissuer, hrefs, htx, hslot⟩ := fixData_finish (s := { s with sent := [] })
    (l := v.owner) (idx := 0) (List.range 16) hop htally hrep hwork hfolds hclear hnot hd hx
  have hfixing : r.fixing (List.range 16) =
      { r with chunks := r.chunks.map fun c => { c with progress := .fixing } } := by
    unfold Repair.fixing mapIf
    refine congrArg (fun cs => { r with chunks := cs }) (List.map_congr_left fun c hc => if_pos ?_)
    rw [← hidxs]
    exact List.contains_iff_mem.mpr (List.mem_map_of_mem hc)
  rw [hfixing] at hrepair
  refine ⟨_, d, hexec, hrepair, hdir, hkind, hissuer, hrefs, ?_, fun n y hy hholder hidx hfull => ?_⟩
  · rw [htx]
    exact List.mem_append_right _ List.mem_cons_self
  · have hmem : (y.idx, n) ∈ State.fixedChunks { s with sent := [] } rec (List.range 16) := by
      refine List.mem_filter.mpr ⟨?_, List.contains_iff_mem.mpr (List.mem_range.mpr hidx)⟩
      refine (mem_sortBy _ _ _).mpr (List.mem_map.mpr ⟨(n, y), List.mem_filter.mpr ⟨mem_of_tget hy, ?_⟩, rfl⟩)
      simp [hholder, hfull]
    refine ⟨?_, ?_⟩
    · rw [hslot, if_pos (List.mem_map.mpr ⟨_, hmem, rfl⟩)]
      exact (congrArg (Option.map _) hy).trans rfl
    · rw [htx]
      exact List.mem_append_right _ (List.mem_cons_of_mem _ (List.mem_map.mpr ⟨_, hmem, rfl⟩))

/-- A chunk with a twin goes out in a FIX that names the twin (R164). -/
theorem fixChunk_twin {twin : Nat} {w : Version} (hop : s.sup.op = .active) (htally : s.tallyStill)
    (hrep : s.pat.repairs = [(rec, r)]) (hwork : s.pat.work = []) (hfolds : s.pat.folds = [])
    (hclear : s.pat.clearing = false) (hwhole : r.whole = false) (hnot : r.abandoned = false) (hlost : r.lost = false)
    (hbecome : r.becomeWhole = false) (hchunks : r.chunks = [c]) (hprog : c.progress = .twinWait)
    (hv : s.volume r.vol = some v) (hd : s.damaged r.vol r.ext = false) (hx : s.repairVersion r = some x)
    (htwin : s.twinOf r c.idx = some w) (hloc : w.loc = some twin)
    (hfree : s.placeFree v.owner (.repair rec c.idx) = true) :
    ∃ t d, Sys2Proof.Machine.exec (.fix rec c.idx []) s = .next t ∧
      t.repair rec = some { r with chunks := [{ c with progress := .fixing }] } ∧
      (t.link v.owner).directives = (s.link v.owner).directives ++ [d] ∧ d.kind = .fix ∧
      d.issuer = .repair rec c.idx ∧ d.refs = [(r.vol, r.ext, r.loc), (r.vol, r.ext, twin)] ∧
      (t.link v.owner).tx = (s.link v.owner).tx ++ [.directive d.tag (.fixTwin r.loc c.idx twin)] := by
  have hexec := exec_fix (idx := c.idx) hop (repair_single hrep) hv hnot hlost hbecome
  rw [hwhole, if_neg Bool.false_ne_true] at hexec
  obtain ⟨a, ha⟩ : ∃ a : State, a = { s with sent := [] } := ⟨_, rfl⟩
  have hcarries : (a.extent r.vol r.ext).carries twin = true := by
    unfold State.twinOf at htwin
    unfold State.repairVersion at hx htwin
    rw [hx] at htwin
    rw [ha]
    exact List.any_eq_true.mpr ⟨w, List.mem_of_find?_eq_some htwin, decide_eq_true hloc⟩
  have had : a.damaged r.vol r.ext = false := by rw [ha]; exact hd
  have hax : a.repairVersion r = some x := by rw [ha]; exact hx
  have harep : a.pat.repairs = [(rec, r)] := by rw [ha]; exact hrep
  obtain ⟨b, hb, hmoved, hlinks⟩ := incRef_granted had (carries_of_versionAt hax)
  obtain ⟨e, he, hmoved', hlinks'⟩ := incRef_granted ((hmoved.damaged r.vol r.ext).trans had)
    ((hmoved.carries r.vol r.ext twin).trans hcarries)
  have hchunk : a.fixChunk rec c.idx r v.owner =
      (e.markFixing rec [c.idx]).handDirective v.owner .fix (.repair rec c.idx)
        [(r.vol, r.ext, r.loc), (r.vol, r.ext, twin)] (.fixTwin r.loc c.idx twin) [] := by
    have htwin' : (a.twinOf r c.idx).bind Version.loc = some twin := by
      have hsame : a.twinOf r c.idx = some w := by
        rw [ha]
        exact htwin
      rw [hsame]
      exact hloc
    have hfree' : a.placeFree v.owner (.repair rec c.idx) = true := by rw [ha]; exact hfree
    unfold State.fixChunk
    rw [find_chunk_single hchunks]
    dsimp only
    rw [hprog]
    dsimp only
    rw [htwin']
    dsimp only
    rw [if_pos hfree']
    unfold State.fixTwin
    rw [hb]
    dsimp only
    rw [he]
  rw [← ha, hchunk] at hexec
  have hout : FixOut a _ v.owner rec c.idx r [c.idx] _ (.fixTwin r.loc c.idx twin) [] :=
    fixOut_handed (l := v.owner) (idx := c.idx) (refs := [(r.vol, r.ext, r.loc), (r.vol, r.ext, twin)])
      harep (hmoved.trans hmoved') (hlinks'.trans hlinks)
  generalize (e.markFixing rec [c.idx]).handDirective v.owner .fix (.repair rec c.idx)
    [(r.vol, r.ext, r.loc), (r.vol, r.ext, twin)] (.fixTwin r.loc c.idx twin) [] = t at hexec hout
  obtain ⟨flinks, fpat, -⟩ := fixOut_finish (w := t) hout rfl (by rw [ha]; exact hop) (by rw [ha]; exact htally)
    (by rw [ha]; exact hwork) (by rw [ha]; exact hfolds) (by rw [ha]; exact hclear) hnot had hax
  obtain ⟨hpat, -, htx, d, hdir, htag, hkind, hissuer, hrefs⟩ := hout
  have hlink : t.finish.link v.owner = t.link v.owner := State.link_congr flinks v.owner
  have hal : a.link v.owner = s.link v.owner := by rw [ha]; rfl
  refine ⟨_, d, hexec, ?_, ?_, hkind, hissuer, hrefs, ?_⟩
  · rw [← fixing_single hchunks]
    exact repair_single (by rw [fpat, hpat])
  · rw [hlink, hdir, hal]
  · rw [hlink, htx, htag, hal]
    rfl

end

end Sys2Proof.Machine
end

section
/-! PROOF. O54: the answers of a FIX end its record (R164 to R167). -/

namespace Sys2Proof.Machine

section
variable {s t u w a : State} {l : Link} {rec idx tag : Nat} {r : Repair} {c : RepairChunk} {x : Version}
  {d : Directive} {ok : Bool} {ws : List WorkItem}

/-! ### A record alone at the Patrol Unit -/

/-- A record stands alone at the Patrol Unit beside its items, and nothing of it is out. -/
structure LoneRecord (ws : List WorkItem) (w : State) (rec : Nat) (r : Repair) : Prop where
  tally : w.tallyStill
  repairs : w.pat.repairs = [(rec, r)]
  work : w.pat.work = ws
  folds : w.pat.folds = []
  waiting : w.pat.waiting = []
  clearing : w.pat.clearing = false
  live : r.abandoned = false
  damaged : w.damaged r.vol r.ext = false
  version : ∃ x, w.repairVersion r = some x
  directives : ∀ l : Link, (w.link l).directives = []
  frames : w.off.outstanding = []

/-- What the end of a record leaves when its step is over (R167). -/
structure RecordClosed (w t : State) (rec : Nat) (r : Repair) : Prop where
  directives : ∀ l : Link, (t.link l).directives = []
  gone : t.repair rec = none
  raised : t.sup.raised[9]? = (w.sup.raised[9]?).map countUp
  slots : ∀ kv ∈ t.str.slots, kv.2.holder ≠ .repair rec
  version : ∃ y ∈ (t.extent r.vol r.ext).versions, y.birth = r.birth ∧ y.loc = some r.loc ∧
    (r.outcome.1 = true → y.repair = .sound ∧ y.verified = w.sup.clock) ∧
    (r.outcome.1 = false → y.repair = .unrepairable)

theorem RecordClosed.of_sup (hsup : u.sup = w.sup) (h : RecordClosed u t rec r) : RecordClosed w t rec r := by
  obtain ⟨hdirs, hgone, hraised, hslots, hver⟩ := h
  rw [hsup] at hraised hver
  exact ⟨hdirs, hgone, hraised, hslots, hver⟩

theorem endedVersion_spec (r : Repair) (now : Nat) (x : Version) :
    (r.outcome.1 = true → (endedVersion r now x).repair = .sound ∧ (endedVersion r now x).verified = now) ∧
      (r.outcome.1 = false → (endedVersion r now x).repair = .unrepairable) := by
  unfold endedVersion
  refine ⟨fun h => ?_, fun h => ?_⟩
  · rw [if_pos h]
    exact ⟨rfl, rfl⟩
  · rw [h, if_neg Bool.false_ne_true]

namespace LoneRecord

/-- A record given up, or with all its chunks decided, ends (R165 to R167). -/
theorem checkRepair_eq (h : LoneRecord ws w rec r) (hbecome : r.becomeWhole = false)
    (hover : r.lost = true ∨ ∀ c ∈ r.chunks, c.progress = .failed ∨ ∃ src, c.progress = .done src) :
    w.checkRepair rec = w.endRepair rec r := by
  unfold State.checkRepair
  rw [repair_single h.repairs]
  dsimp only
  rw [repairBusy_none h.directives h.frames, h.live, if_neg Bool.false_ne_true, if_neg Bool.false_ne_true]
  cases hlost : r.lost with
  | true => exact if_pos rfl
  | false =>
    have hchunks := hover.resolve_left (by rw [hlost]; exact Bool.false_ne_true)
    rw [if_neg Bool.false_ne_true, hbecome, if_neg Bool.false_ne_true, if_pos]
    refine List.all_eq_true.mpr fun c hc => ?_
    rcases hchunks c hc with hp | ⟨src, hp⟩ <;> rw [hp]

theorem closed (h : LoneRecord [] w rec r) (hrun : w.sup.op ≠ .halted) (hbecome : r.becomeWhole = false)
    (hover : r.lost = true ∨ ∀ c ∈ r.chunks, c.progress = .failed ∨ ∃ src, c.progress = .done src) :
    RecordClosed w (w.checkRepair rec).finish rec r := by
  obtain ⟨x, hx⟩ := h.version
  have hdirs : ∀ l : Link, ((w.checkRepair rec).link l).directives = [] := fun l =>
    (directives_of_settles (settles_checkRepair rec (Settles.refl w)) l).trans (h.directives l)
  rw [h.checkRepair_eq hbecome hover] at hdirs ⊢
  have hended := endRepair_ended (rec := rec) h.waiting h.damaged hx
  have htally : (w.endRepair rec r).tally = w.tally := tallyKept_endRepair rec r rfl
  have hop : (w.endRepair rec r).sup.op = w.sup.op := (supKept_endRepair rec r (supKept_refl w.sup)).1
  generalize w.endRepair rec r = e at hdirs hended htally hop
  have hpat : e.pat.repairs = [] := by rw [hended.pat, h.repairs, tdel_single]
  have hpatrol : e.patrolStill := by
    refine ⟨?_, ?_, hpat, ?_⟩
    · rw [hended.pat]
      exact h.work
    · rw [hended.pat]
      exact h.folds
    · rw [hended.pat]
      exact h.clearing
  have hcalm : e.calm := by
    refine ⟨?_, hpatrol⟩
    unfold State.tallyStill
    rw [htally]
    exact h.tally
  have herun : e.sup.op ≠ .halted := hop ▸ hrun
  obtain ⟨fsup, -, -, fcat, -, fpat, -⟩ := finish_beside_parts hcalm herun
  obtain ⟨-, fslots, -⟩ := finish_lasting hpatrol herun
  have hver : e.repairVersion r = some (endedVersion r w.sup.clock x) := hended.version
  have hfind := List.find?_some
    (p := fun v : Version => v.birth == r.birth && decide (v.loc = some r.loc)) hver
  rw [Bool.and_eq_true] at hfind
  refine ⟨fun l => ?_, ?_, ?_, ?_, endedVersion r w.sup.clock x, ?_, ?_, ?_, endedVersion_spec r w.sup.clock x⟩
  · rw [finish_link hcalm herun]
    exact hdirs l
  · rw [State.repair, fpat, hpat]
    rfl
  · rw [fsup]
    exact hended.raised
  · rw [fslots]
    exact hended.slots
  · rw [State.extent, fcat]
    exact List.mem_of_find?_eq_some hver
  · simpa using hfind.1
  · simpa using hfind.2

/-- The record written, and slots with it. -/
theorem changed (h : LoneRecord ws w rec r) (f : Repair → Repair)
    (hf : (f r).vol = r.vol ∧ (f r).ext = r.ext ∧ (f r).birth = r.birth ∧ (f r).loc = r.loc ∧
      (f r).abandoned = r.abandoned) (st : Stream) :
    LoneRecord ws { w with pat.repairs := tmod w.pat.repairs rec f, str := st } rec (f r) := by
  obtain ⟨hvol, hext, hbirth, hloc, hnot⟩ := hf
  refine ⟨h.tally, ?_, h.work, h.folds, h.waiting, h.clearing, hnot.trans h.live, ?_, ?_, h.directives, h.frames⟩
  · change tmod w.pat.repairs rec f = _
    rw [h.repairs, tmod_single]
  · rw [hvol, hext]
    exact h.damaged
  · unfold State.repairVersion
    rw [hvol, hext, hbirth, hloc]
    exact h.version

end LoneRecord

/-! ### The end of a FIX -/

/-- A record of one chunk with that chunk's outcome. -/
def Repair.answered (r : Repair) (c : RepairChunk) (ok : Bool) : Repair :=
  { r with chunks := [{ c with progress := if ok then .done c.src else .failed }] }

theorem outcome_answered (hlost : r.lost = false) : (r.answered c ok).outcome.1 = ok := by
  unfold Repair.answered Repair.outcome
  cases ok <;> simp [hlost]

/-- A record with the outcome of the chunk of an index (R165). -/
def Repair.chunkEnded (idx : Nat) (ok : Bool) (r : Repair) : Repair :=
  { r with
    chunks := mapIf (fun e => e.idx == idx) (fun e => { e with progress := if ok then .done e.src else .failed })
      r.chunks }

theorem chunkEnded_single (h : r.chunks = [c]) : r.chunkEnded c.idx ok = r.answered c ok := by
  unfold Repair.chunkEnded Repair.answered
  rw [h]
  unfold mapIf
  rw [List.map_cons, if_pos (beq_self_eq_true c.idx), List.map_nil]

/-- A chunk of a record with its outcome, and its slots freed (R112, R165). -/
def State.chunkEnded (w : State) (rec idx : Nat) (ok : Bool) : State :=
  { w with
    pat.repairs := tmod w.pat.repairs rec (Repair.chunkEnded idx ok)
    str.slots := w.str.slots.filter fun kv => !(decide (kv.2.holder = .repair rec) && decide (kv.2.idx = idx)) }

/-- The only chunk of a record repaired, or failed from the offsite source (R165). -/
theorem fixEnded_chunk (h : LoneRecord [] w rec r) (hrun : w.sup.op ≠ .halted) (hwhole : r.whole = false)
    (hbecome : r.becomeWhole = false) (hchunks : r.chunks = [c]) (hsrc : ok = true ∨ c.src = .offsite) :
    RecordClosed w (w.fixEnded rec c.idx ok).finish rec (r.answered c ok) := by
  have hfixed : w.fixEnded rec c.idx ok = (w.chunkEnded rec c.idx ok).checkRepair rec := by
    unfold State.fixEnded
    rw [repair_single h.repairs]
    dsimp only
    rw [hwhole, if_neg Bool.false_ne_true, find_chunk_single hchunks]
    dsimp only
    cases ok with
    | true => exact congrArg (fun z => State.checkRepair z rec) (if_pos rfl)
    | false =>
      have hoff := hsrc.resolve_left Bool.false_ne_true
      rw [if_neg Bool.false_ne_true, hoff, if_neg (by simp)]
      rfl
  have hlone : LoneRecord [] (w.chunkEnded rec c.idx ok) rec (r.chunkEnded c.idx ok) :=
    h.changed (Repair.chunkEnded c.idx ok) ⟨rfl, rfl, rfl, rfl, rfl⟩ _
  rw [chunkEnded_single hchunks] at hlone
  rw [hfixed]
  refine RecordClosed.of_sup (u := w.chunkEnded rec c.idx ok) rfl (hlone.closed hrun hbecome (.inr fun e he => ?_))
  rw [List.mem_singleton.mp he]
  cases ok with
  | true => exact .inr ⟨c.src, rfl⟩
  | false => exact .inl rfl

/-- A WHOLE record repaired: all its chunks are done (R166). -/
def Repair.wholeDone (r : Repair) : Repair :=
  { r with chunks := r.chunks.map fun c => { c with progress := .done .offsite } }

theorem outcome_wholeDone (hlost : r.lost = false) : r.wholeDone.outcome.1 = true := by
  unfold Repair.wholeDone Repair.outcome
  simp [hlost, List.filterMap_map]

/-- A WHOLE record with all its chunks done, and its slots freed (R112, R166). -/
def State.wholeEnded (w : State) (rec : Nat) : State :=
  { w with
    pat.repairs := tmod w.pat.repairs rec Repair.wholeDone
    str.slots := w.str.slots.filter fun kv => !decide (kv.2.holder = .repair rec) }

theorem fixEnded_whole (h : LoneRecord [] w rec r) (hrun : w.sup.op ≠ .halted) (hwhole : r.whole = true)
    (hbecome : r.becomeWhole = false) (idx : Nat) :
    RecordClosed w (w.fixEnded rec idx true).finish rec r.wholeDone := by
  have hfixed : w.fixEnded rec idx true = (w.wholeEnded rec).checkRepair rec := by
    unfold State.fixEnded
    rw [repair_single h.repairs]
    dsimp only
    rw [hwhole, if_pos rfl, h.live, if_neg Bool.false_ne_true, if_pos rfl]
    rfl
  have hlone : LoneRecord [] (w.wholeEnded rec) rec r.wholeDone := h.changed Repair.wholeDone ⟨rfl, rfl, rfl, rfl, rfl⟩ _
  rw [hfixed]
  refine RecordClosed.of_sup (u := w.wholeEnded rec) rfl (hlone.closed hrun hbecome (.inr fun e he => ?_))
  obtain ⟨c, -, rfl⟩ := List.mem_map.mp he
  exact .inr ⟨.offsite, rfl⟩

/-! ### A WHOLE record given up -/

/-- A record as its end as UNREPAIRABLE is decided (R166). -/
def Repair.givenUp (r : Repair) : Repair := { r with lost := true }

theorem outcome_givenUp (r : Repair) : r.givenUp.outcome.1 = false := by
  unfold Repair.givenUp Repair.outcome
  dsimp only
  rw [Bool.true_or]
  rfl

/-- What is taken from a record that is given up: its fetches, its slots and its waits for places. -/
def State.stripped (s : State) (rec : Nat) : State :=
  (((s.modRepair rec Repair.givenUp).withdrawFetch (.repair rec)).freeHolder (.repair rec)).leaveRepairPlaces rec

theorem stripped_parts (h : w.off.outstanding = []) :
    (w.stripped rec).sup = w.sup ∧ (w.stripped rec).tally = w.tally ∧
    (w.stripped rec).cat = w.cat ∧ (w.stripped rec).off.outstanding = [] ∧
      (w.stripped rec).pat = { w.pat with repairs := tmod w.pat.repairs rec Repair.givenUp } := by
  unfold State.stripped
  rw [leaveRepairPlaces_frame]
  refine ⟨rfl, rfl, rfl, ?_, rfl⟩
  change w.off.outstanding.map _ = []
  rw [h]
  rfl

theorem LoneRecord.givenUp (h : LoneRecord ws w rec r) :
    LoneRecord ws (w.loseRepair rec) rec r.givenUp ∧ (w.loseRepair rec).sup = w.sup := by
  have hdirs : ∀ l : Link, ((w.loseRepair rec).link l).directives = [] := fun l =>
    (directives_of_settles (settles_loseRepair rec (Settles.refl w)) l).trans (h.directives l)
  have hdef : w.loseRepair rec = (w.stripped rec).setRepair r.vol r.ext r.birth r.loc .unrepairable := by
    unfold State.loseRepair
    rw [repair_single h.repairs]
    rfl
  have htally : (w.loseRepair rec).tally = w.tally := tallyKept_loseRepair rec rfl
  rw [hdef] at hdirs htally ⊢
  obtain ⟨hsup, -, hcat, hout, hpat⟩ := stripped_parts (rec := rec) h.frames
  obtain ⟨x, hx⟩ := h.version
  have hd : (w.stripped rec).damaged r.vol r.ext = false :=
    (damaged_of_volumes (congrArg Catalogue.volumes hcat) r.vol r.ext).trans h.damaged
  have hx' : (w.stripped rec).versionAt r.vol r.ext r.birth r.loc = some x :=
    (versionAt_of_cat (congrArg Catalogue.extents hcat) r.vol r.ext r.birth r.loc).trans hx
  obtain ⟨psup, ppat, pvol, pver⟩ := setRepair_parts (st := .unrepairable) hd hx'
  obtain ⟨pout, -, -⟩ := setRepair_fetches (w.stripped rec) r.vol r.ext r.birth r.loc .unrepairable
  generalize (w.stripped rec).setRepair r.vol r.ext r.birth r.loc .unrepairable = z at *
  rw [hpat, h.repairs, tmod_single] at ppat
  refine ⟨⟨?_, ?_, ?_, ?_, ?_, ?_, h.live, ?_, ⟨_, pver⟩, hdirs, pout.trans hout⟩, psup.trans hsup⟩
  · unfold State.tallyStill
    rw [htally]
    exact h.tally
  · rw [ppat]
  · rw [ppat]
    exact h.work
  · rw [ppat]
    exact h.folds
  · rw [ppat]
    exact h.waiting
  · rw [ppat]
    exact h.clearing
  · exact (damaged_of_volumes pvol r.vol r.ext).trans hd

theorem fixEnded_lost (h : LoneRecord [] w rec r) (hrun : w.sup.op ≠ .halted) (hwhole : r.whole = true)
    (hbecome : r.becomeWhole = false) (idx : Nat) : RecordClosed w (w.fixEnded rec idx false).finish rec r.givenUp := by
  have hfixed : w.fixEnded rec idx false = ((w.freeAllOf (.repair rec)).loseRepair rec).checkRepair rec := by
    unfold State.fixEnded
    rw [repair_single h.repairs]
    dsimp only
    rw [hwhole, if_pos rfl, h.live, if_neg Bool.false_ne_true, if_neg Bool.false_ne_true]
  have hfree : LoneRecord [] (w.freeAllOf (.repair rec)) rec r :=
    ⟨h.tally, h.repairs, h.work, h.folds, h.waiting, h.clearing, h.live, h.damaged, h.version, h.directives, h.frames⟩
  obtain ⟨hlone, hsup⟩ := hfree.givenUp
  rw [hfixed]
  have hsup' : ((w.freeAllOf (.repair rec)).loseRepair rec).sup = w.sup := hsup
  generalize (w.freeAllOf (.repair rec)).loseRepair rec = z at hlone hsup'
  exact (hlone.closed (hsup' ▸ hrun) hbecome (.inl rfl)).of_sup hsup'

/-! ### The directive's answer -/

theorem exec_fixDone (hrun : s.sup.op ≠ .halted) (hup : (s.link l).up = true) :
    Sys2Proof.Machine.exec (.fixDone l tag) s = .next (((({ s with sent := [] } : State).modLink l fun r =>
      { r with up := true, badRun := 0 }).fixDone l tag).finish) := by
  have harr := arrive_up (s := { s with sent := [] }) (l := l) hup
  change execFixDone l tag s [] = _
  unfold execFixDone
  refine (act_running _ hrun).trans (congrArg Host.Outcome.next ?_)
  rw [harr]
  exact withErrs_nil _ hrun

theorem exec_fixFail (hrun : s.sup.op ≠ .halted) (hup : (s.link l).up = true) :
    Sys2Proof.Machine.exec (.fixFail l tag) s = .next (((({ s with sent := [] } : State).modLink l fun r =>
      { r with up := true, badRun := 0 }).failAnswer l tag .fix).finish) := by
  have harr := arrive_up (s := { s with sent := [] }) (l := l) hup
  change execFixFail l tag s [] = _
  unfold execFixFail
  refine (act_running _ hrun).trans (congrArg Host.Outcome.next ?_)
  rw [harr]
  exact withErrs_nil _ hrun

/-- The only directive of all, ended, leaves none. -/
theorem directives_ended (refs : List (Nat × Nat × Nat)) (hl : (s.link l).directives = [d])
    (hothers : ∀ k, k ≠ l → (s.link k).directives = []) (hw : w.links = (s.endDirective l d.tag).links) (j : Link) :
    ((w.decRefs refs).link j).directives = [] := by
  refine gains_decRefs (linksGain_directives [] j) refs ?_
  rw [hw]
  change ((s.endDirective l d.tag).link j).directives = []
  by_cases hj : j = l
  · rw [hj, endDirective_directives, hl, List.filter_cons_of_neg (by simp)]
    rfl
  · unfold State.endDirective State.restartIdle
    rw [State.link_modLink, if_neg (Ne.symm hj), State.link_modLink, if_neg (Ne.symm hj)]
    exact hothers j hj

/-- A record whose only directive has ended, and its references with it, stands alone. -/
theorem loneRecord_of_refsMoved {sl : List (Nat × Slot)} (hmoved : RefsMoved { a with str.slots := sl } u)
    (htally : a.tallyStill) (hrep : a.pat.repairs = [(rec, r)]) (hwork : a.pat.work = []) (hfolds : a.pat.folds = [])
    (hwait : a.pat.waiting = []) (hclear : a.pat.clearing = false) (hnot : r.abandoned = false)
    (hd : a.damaged r.vol r.ext = false) (hx : a.repairVersion r = some x)
    (hdirs : ∀ j : Link, (u.link j).directives = []) (hout : a.off.outstanding = []) : LoneRecord [] u rec r := by
  have hpat : u.pat = a.pat := hmoved.pat
  have ht : u.tally = a.tally := hmoved.tally
  have hoff : u.off = a.off := hmoved.off
  obtain ⟨y, hy, -⟩ := hmoved.repairVersion (r := r) (x := x) hx
  refine ⟨?_, ?_, ?_, ?_, ?_, ?_, hnot, (hmoved.damaged r.vol r.ext).trans hd, ⟨y, hy⟩, hdirs, ?_⟩
  · unfold State.tallyStill
    rw [ht]
    exact htally
  · rw [hpat, hrep]
  · rw [hpat, hwork]
  · rw [hpat, hfolds]
  · rw [hpat, hwait]
  · rw [hpat, hclear]
  · rw [hoff, hout]

/-- An answer that names the only FIX of a record ends it: what is left, and the record told (R165, R166). -/
theorem fixAnswer_lone (hrun : s.sup.op ≠ .halted) (htally : s.tallyStill) (hrep : s.pat.repairs = [(rec, r)])
    (hwork : s.pat.work = []) (hfolds : s.pat.folds = []) (hwait : s.pat.waiting = []) (hclear : s.pat.clearing = false)
    (hnot : r.abandoned = false) (hd : s.damaged r.vol r.ext = false) (hx : s.repairVersion r = some x)
    (hup : (s.link l).up = true) (hl : (s.link l).directives = [d])
    (hothers : ∀ k, k ≠ l → (s.link k).directives = []) (hout : s.off.outstanding = []) (hkind : d.kind = .fix)
    (hissuer : d.issuer = .repair rec idx) :
    (∃ u, Sys2Proof.Machine.exec (.fixDone l d.tag) s = .next (u.fixEnded rec idx true).finish ∧
      LoneRecord [] u rec r ∧ u.sup = s.sup) ∧
    ∃ u, Sys2Proof.Machine.exec (.fixFail l d.tag) s = .next (u.fixEnded rec idx false).finish ∧
      LoneRecord [] u rec r ∧ u.sup = s.sup := by
  obtain ⟨a, ha⟩ : ∃ a, a = ({ s with sent := [] } : State).modLink l fun r => { r with up := true, badRun := 0 } :=
    ⟨_, rfl⟩
  have hdir : a.directive l d.tag = some d := by
    rw [ha, directive_arrived]
    unfold State.directive
    change ((s.link l).directives.find? _) = _
    rw [hl]
    exact List.find?_cons_of_pos (beq_self_eq_true d.tag)
  have hmatch : a.matching l d.tag .fix = some d := matching_of hdir hkind
  have hal : (a.link l).directives = [d] := by
    rw [ha, State.link_modLink_self]
    exact hl
  have haothers : ∀ k, k ≠ l → (a.link k).directives = [] := fun k hk => by
    rw [ha, State.link_modLink, if_neg (Ne.symm hk)]
    exact hothers k hk
  have hparts : a.sup = s.sup ∧ a.tally = s.tally ∧ a.pat = s.pat ∧ a.cat = s.cat ∧ a.off = s.off := by
    rw [ha]
    exact ⟨rfl, rfl, rfl, rfl, rfl⟩
  obtain ⟨asup, atally, apat, acat, aoff⟩ := hparts
  have hlone : ∀ {sl : List (Nat × Slot)} {u : State}, RefsMoved { a with str.slots := sl } u →
      (∀ j : Link, (u.link j).directives = []) → LoneRecord [] u rec r ∧ u.sup = s.sup := fun hmoved hdirs => by
    refine ⟨loneRecord_of_refsMoved (x := x) hmoved ?_ ?_ ?_ ?_ ?_ ?_ hnot ?_ ?_ hdirs ?_, hmoved.sup.trans asup⟩
    · unfold State.tallyStill
      rw [atally]
      exact htally
    · rw [apat, hrep]
    · rw [apat, hwork]
    · rw [apat, hfolds]
    · rw [apat, hwait]
    · rw [apat, hclear]
    · exact (damaged_of_volumes (congrArg Catalogue.volumes acat) r.vol r.ext).trans hd
    · exact (versionAt_of_cat (congrArg Catalogue.extents acat) r.vol r.ext r.birth r.loc).trans hx
    · rw [aoff, hout]
  constructor
  · refine ⟨(a.endDirective l d.tag).decRefs d.refs, ?_, hlone (sl := a.str.slots) ?_ ?_⟩
    · rw [exec_fixDone hrun hup, ← ha]
      unfold State.fixDone
      rw [hmatch]
      dsimp only
      rw [hissuer]
    · have hgone : RefsMoved { a with str.slots := a.str.slots } (a.endDirective l d.tag) :=
        RefsMoved.of_kept rfl rfl rfl
      exact hgone.trans (refsMoved_decRefs (a.endDirective l d.tag) d.refs)
    · exact directives_ended d.refs hal haothers rfl
  · refine ⟨a.directiveGone l d, ?_, hlone (directiveGone_spec a l d).1 ?_⟩
    · rw [exec_fixFail hrun hup, ← ha]
      unfold State.failAnswer
      rw [hmatch]
      dsimp only
      unfold State.failDirective
      rw [hissuer]
      rfl
    · exact directives_ended (w := (a.endDirective l d.tag).freeAllOf (.gone l d.tag)) d.refs hal haothers rfl

/-- An answer that names no FIX of its link changes nothing. -/
theorem fixAnswer_late (hrun : s.sup.op ≠ .halted) (hcalm : s.calm) (hup : (s.link l).up = true)
    (hlate : ∀ d ∈ (s.link l).directives, d.tag = tag → d.kind ≠ .fix) :
    (∃ t, Sys2Proof.Machine.exec (.fixDone l tag) s = .next t ∧ t.pat = s.pat ∧ t.cat = s.cat ∧
      (t.link l).directives = (s.link l).directives) ∧
    ∃ t, Sys2Proof.Machine.exec (.fixFail l tag) s = .next t ∧ t.pat = s.pat ∧ t.cat = s.cat ∧
      (t.link l).directives = (s.link l).directives := by
  obtain ⟨a, ha⟩ : ∃ a, a = ({ s with sent := [] } : State).modLink l fun r => { r with up := true, badRun := 0 } :=
    ⟨_, rfl⟩
  have hmatch : a.matching l tag .fix = none := by
    rw [ha]
    unfold State.matching
    rw [directive_arrived]
    cases hd : ({ s with sent := [] } : State).directive l tag with
    | none => rfl
    | some d =>
      have htag := List.find?_some (p := fun y : Directive => y.tag == tag) hd
      exact if_neg (hlate d (List.mem_of_find?_eq_some hd) (by simpa using htag))
  have hparts : a.sup = s.sup ∧ a.tally = s.tally ∧ a.pat = s.pat ∧ a.cat = s.cat ∧
      (a.link l).directives = (s.link l).directives := by
    rw [ha, State.link_modLink_self]
    exact ⟨rfl, rfl, rfl, rfl, rfl⟩
  obtain ⟨asup, atally, apat, acat, alink⟩ := hparts
  have hacalm : a.calm := calm_congr atally apat hcalm
  have harun : a.sup.op ≠ .halted := asup ▸ hrun
  obtain ⟨-, -, -, fcat, -, fpat, -⟩ := finish_beside_parts hacalm harun
  have hend : a.finish.pat = s.pat ∧ a.finish.cat = s.cat ∧ (a.finish.link l).directives = (s.link l).directives := by
    rw [finish_link hacalm harun]
    exact ⟨fpat.trans apat, fcat.trans acat, alink⟩
  refine ⟨⟨a.finish, ?_, hend⟩, a.finish, ?_, hend⟩
  · rw [exec_fixDone hrun hup, ← ha]
    unfold State.fixDone
    rw [hmatch]
  · rw [exec_fixFail hrun hup, ← ha]
    unfold State.failAnswer
    rw [hmatch]

end

end Sys2Proof.Machine

open Sys2Proof Sys2Proof.Machine

/-- Settles O54: a FIX is issued with its chunks, and the answer that names it tells its record, which, alone and with
nothing out, ends. -/
theorem fixesRepairOrGiveUp : Obligations.FixesRepairOrGiveUp := by
  unfold Obligations.FixesRepairOrGiveUp
  refine ⟨?_, ?_, ?_, ?_, ?_, ?_⟩
  · intro s rec n r c v x y hop htally hrep hwork hfolds hclear hwhole hnot hlost hbecome hchunks hprog hv hd hx hup
      hlen hplaces hslots hholder hidx hfull
    exact fixChunk_fetched hop htally hrep hwork hfolds hclear hwhole hnot hlost hbecome hchunks hprog hv hd hx
      (placeFree_of hup hlen hplaces) hslots hholder hidx hfull
  · intro s rec twin r c v x w hop htally hrep hwork hfolds hclear hwhole hnot hlost hbecome hchunks hprog hv hd hx
      htwin hloc hup hlen hplaces
    exact fixChunk_twin hop htally hrep hwork hfolds hclear hwhole hnot hlost hbecome hchunks hprog hv hd hx htwin hloc
      (placeFree_of hup hlen hplaces)
  · intro s l rec r c d x hrun htally hrep hwork hfolds hwait hclear hwhole hnot hlost hbecome hchunks _ hd hx hup hl
      hothers hout hkind hissuer
    obtain ⟨⟨u, hdone, hlone, hsup⟩, z, hfail, hzlone, hzsup⟩ := fixAnswer_lone hrun htally hrep hwork hfolds hwait
      hclear hnot hd hx hup hl hothers hout hkind hissuer
    refine ⟨?_, fun hsrc => ?_⟩
    · obtain ⟨kdirs, kgone, kraised, -, y, hy, hbirth, hloc, hsound, -⟩ :=
        fixEnded_chunk (ok := true) hlone (hsup ▸ hrun) hwhole hbecome hchunks (.inl rfl)
      obtain ⟨hrepair, hverified⟩ := hsound (outcome_answered hlost)
      rw [hsup] at kraised hverified
      exact ⟨_, y, hdone, kdirs l, kgone, kraised, hy, hbirth, hloc, hrepair, hverified⟩
    · obtain ⟨kdirs, kgone, kraised, -, y, hy, hbirth, hloc, -, hlose⟩ :=
        fixEnded_chunk (ok := false) hzlone (hzsup ▸ hrun) hwhole hbecome hchunks (.inr hsrc)
      rw [hzsup] at kraised
      exact ⟨_, y, hfail, kdirs l, kgone, kraised, hy, hbirth, hloc, hlose (outcome_answered hlost)⟩
  · intro s l tag hrun hcalm hup hlate
    exact fixAnswer_late hrun hcalm hup hlate
  · intro s rec r v x hop htally hrep hwork hfolds hclear hwhole hnot hlost hbecome hidxs hprog hv hd hx hup hlen
      hplaces
    exact fixWhole_fetched hop htally hrep hwork hfolds hclear hwhole hnot hlost hbecome hidxs hprog hv hd hx
      (placeFree_of hup hlen hplaces)
  · intro s l rec r d x hrun htally hrep hwork hfolds hwait hclear hwhole hnot hlost hbecome _ hd hx _ hup hl hothers
      hout hkind hissuer
    obtain ⟨⟨u, hdone, hlone, hsup⟩, z, hfail, hzlone, hzsup⟩ := fixAnswer_lone hrun htally hrep hwork hfolds hwait
      hclear hnot hd hx hup hl hothers hout hkind hissuer
    constructor
    · obtain ⟨kdirs, kgone, kraised, kslots, y, hy, hbirth, hloc, hsound, -⟩ :=
        fixEnded_whole hlone (hsup ▸ hrun) hwhole hbecome 0
      obtain ⟨hrepair, hverified⟩ := hsound (outcome_wholeDone hlost)
      rw [hsup] at kraised hverified
      exact ⟨_, y, hdone, kdirs l, kgone, kraised, kslots, hy, hbirth, hloc, hrepair, hverified⟩
    · obtain ⟨kdirs, kgone, kraised, kslots, y, hy, hbirth, hloc, -, hlose⟩ :=
        fixEnded_lost hzlone (hzsup ▸ hrun) hwhole hbecome 0
      rw [hzsup] at kraised
      exact ⟨_, y, hfail, kdirs l, kgone, kraised, kslots, hy, hbirth, hloc, hlose (outcome_givenUp r)⟩
end

section
/-! SUPPORT. Work List items, fold entries and the decisions made about them (R156 to R161). -/

namespace Sys2Proof.Machine

section
variable {s t u : State} {w : WorkItem} {v : Volume} {x : Version} {l : Link}

/-! ### What decisions about items and folds touch -/

/-- Items, fold entries and extent records, slots, links and the offsite link's lists alone differ. -/
structure ItemsOnly (s t : State) : Prop where
  frame : t = { s with
    links := t.links, str := t.str, off := t.off, cat := { s.cat with extents := t.cat.extents }
    pat := { s.pat with work := t.pat.work, folds := t.pat.folds, nextItem := t.pat.nextItem } }

namespace ItemsOnly

theorem refl (s : State) : ItemsOnly s s := ⟨rfl⟩

theorem trans (h : ItemsOnly s t) (k : ItemsOnly t u) : ItemsOnly s u := by
  have hframe := k.frame
  rw [h.frame] at hframe
  exact ⟨hframe⟩

theorem parts (h : ItemsOnly s t) : t.sup = s.sup ∧ t.tally = s.tally ∧ t.cat.volumes = s.cat.volumes ∧
    t.pat.repairs = s.pat.repairs ∧ t.pat.waiting = s.pat.waiting ∧ t.pat.clearing = s.pat.clearing ∧
    t.pat.turn = s.pat.turn := by
  rw [h.frame]
  exact ⟨rfl, rfl, rfl, rfl, rfl, rfl, rfl⟩

end ItemsOnly

theorem itemsOnly_foldl {α : Type} {g : State → α → State} (hg : ∀ u a, ItemsOnly u (g u a)) (as : List α) (s : State) :
    ItemsOnly s (as.foldl g s) := by
  induction as generalizing s with
  | nil => exact ItemsOnly.refl s
  | cons a as ih => exact (hg s a).trans (ih _)

/-- Slots, requests and the offsite link's lists alone differ, and items told of their grants. -/
structure SlotsMoved (s t : State) : Prop where
  frame : t = { s with str := t.str, off := t.off, pat := { s.pat with work := t.pat.work } }
  none : s.pat.work = [] → t.pat.work = []

namespace SlotsMoved

theorem refl (s : State) : SlotsMoved s s := ⟨rfl, id⟩

theorem trans (h : SlotsMoved s t) (k : SlotsMoved t u) : SlotsMoved s u := by
  have hframe := k.frame
  rw [h.frame] at hframe
  exact ⟨hframe, fun hw => k.none (h.none hw)⟩

theorem itemsOnly (h : SlotsMoved s t) : ItemsOnly s t := by
  rw [h.frame]
  exact ⟨rfl⟩

/-- What moved slots leave while the Work List is empty. -/
theorem parts (h : SlotsMoved s t) (hwork : s.pat.work = []) : t.sup = s.sup ∧ t.links = s.links ∧ t.tally = s.tally ∧
    t.cat = s.cat ∧ t.pat = s.pat := by
  have hpat : t.pat = { s.pat with work := t.pat.work } := by rw [h.frame]
  rw [h.none hwork] at hpat
  refine ⟨?_, ?_, ?_, ?_, hpat.trans (by rw [← hwork])⟩ <;> rw [h.frame]

end SlotsMoved

theorem slotsMoved_iter {g : State → State} (hg : ∀ u, SlotsMoved u (g u)) (n : Nat) (s : State) :
    SlotsMoved s (iter n g s) :=
  iter_keeps (P := fun u => SlotsMoved s u) (fun u hu => hu.trans (hg u)) n (SlotsMoved.refl s)

theorem slotsMoved_setWaiting (s : State) (c : SlotClass) (q : List SlotReq) : SlotsMoved s (s.setWaiting c q) := by
  cases c <;> exact ⟨rfl, id⟩

theorem slotsMoved_grant (s : State) (c : SlotClass) (r : SlotReq) : SlotsMoved s (s.grant c r) := by
  have hslots : ∀ (ws : List (Nat × Code)) (u : State), SlotsMoved u (ws.foldl (State.grantSlot c r.holder) u) :=
    fun ws => by
      induction ws with
      | nil => exact SlotsMoved.refl
      | cons w ws ih => exact fun u => SlotsMoved.trans (t := State.grantSlot c r.holder u w) ⟨rfl, id⟩ (ih _)
  unfold State.grant
  dsimp only
  have hthis := hslots r.wants s
  generalize r.wants.foldl (State.grantSlot c r.holder) s = z at hthis ⊢
  split
  · exact hthis.trans ⟨rfl, id⟩
  · next i _ =>
    refine hthis.trans ⟨rfl, fun hw => ?_⟩
    change mapIf _ _ z.pat.work = []
    rw [hw]
    rfl
  · exact hthis
  · exact hthis
  · exact hthis

theorem slotsMoved_considerOnce (s : State) : SlotsMoved s s.considerOnce := by
  unfold State.considerOnce
  split
  · exact SlotsMoved.refl s
  · split
    · exact SlotsMoved.refl s
    · exact (slotsMoved_setWaiting s _ _).trans (slotsMoved_grant _ _ _)

theorem slotsMoved_takeBack (s : State) : SlotsMoved s s.takeBack := by
  refine slotsMoved_iter (fun u => ?_) _ s
  unfold State.takeBackOnce
  split
  · split
    · exact SlotsMoved.refl u
    · next n _ =>
      have hback : SlotsMoved u (u.handBack n) := ⟨rfl, id⟩
      exact hback.trans (slotsMoved_iter slotsMoved_considerOnce _ _)
  · exact SlotsMoved.refl u

theorem slotsMoved_enqueue (s : State) (c : SlotClass) (r : SlotReq) : SlotsMoved s (s.enqueue c r) := by
  cases c with
  | repair | fetch =>
    unfold State.enqueue
    dsimp only
    split <;> exact slotsMoved_setWaiting s _ _
  | ship => exact slotsMoved_setWaiting s .ship _
  | patrol => exact slotsMoved_setWaiting s .patrol _

theorem itemsOnly_askSlots (s : State) (c : SlotClass) (r : SlotReq) : ItemsOnly s (s.askSlots c r) := by
  unfold State.askSlots
  split
  · exact (slotsMoved_grant s c r).itemsOnly
  · exact ((slotsMoved_enqueue s c r).trans (slotsMoved_takeBack _)).itemsOnly

theorem itemsOnly_issueItem (s : State) (w : WorkItem) : ItemsOnly s (s.issueItem w) := by
  have hmod : ItemsOnly s (s.modItem w.n fun y => { y with state := .slot }) := ⟨rfl⟩
  exact hmod.trans (itemsOnly_askSlots _ _ _)

theorem itemsOnly_leaveItem (s : State) (n : Nat) : ItemsOnly s (s.leaveItem n) := by
  unfold State.leaveItem
  rw [leavePlaces_frame]
  exact ⟨rfl⟩

theorem itemsOnly_addFold (s : State) (w : WorkItem) : ItemsOnly s (s.addFold w) := by
  unfold State.addFold State.modPat
  dsimp only
  split <;> exact ⟨rfl⟩

theorem itemsOnly_loseItem (s : State) (w : WorkItem) : ItemsOnly s (s.loseItem w) := by
  unfold State.loseItem
  split
  · exact ⟨rfl⟩
  · exact itemsOnly_leaveItem s w.n

theorem itemsOnly_busy (s : State) (l : Link) : ItemsOnly s (s.busy l) := ⟨rfl⟩

theorem itemsOnly_decideItem (s : State) (n : Nat) : ItemsOnly s (s.decideItem n) := by
  unfold State.decideItem
  split
  · exact ItemsOnly.refl s
  · next w _ =>
    split
    · exact itemsOnly_loseItem s w
    · split
      · exact ItemsOnly.refl s
      · split
        · exact (itemsOnly_leaveItem s n).trans (itemsOnly_addFold _ w)
        · split
          · exact ItemsOnly.refl s
          · split
            · split
              · exact ⟨rfl⟩
              · split
                · exact (itemsOnly_busy s _).trans (itemsOnly_issueItem _ w)
                · split
                  · exact itemsOnly_issueItem s w
                  · exact ⟨rfl⟩
            · exact ItemsOnly.refl s

theorem itemsOnly_setVerified (s : State) (vol ext birth loc : Nat) :
    ItemsOnly s (s.setVerified vol ext birth loc) := by
  have hframe := changeVersion_frame s vol ext birth (fun v => decide (v.loc = some loc))
    fun v => { v with verified := s.sup.clock }
  unfold State.setVerified
  rw [hframe]
  exact ⟨rfl⟩

theorem itemsOnly_checkFold (s : State) (f : Fold) : ItemsOnly s (s.checkFold f) := by
  have hdrop : ItemsOnly s (s.modPat fun p => { p with folds := p.folds.filter fun x => decide (x ≠ f) }) := ⟨rfl⟩
  unfold State.checkFold
  dsimp only
  split
  · exact hdrop
  · split
    · exact hdrop.trans (itemsOnly_setVerified _ _ _ _ _)
    · split
      · exact hdrop
      · exact ItemsOnly.refl s

/-! ### The Patrol Unit without records -/

theorem checkRepairs_noRecord (h : s.pat.repairs = []) : s.checkRepairs = s := by
  refine iter_fixed ?_ _
  rw [h]
  rfl

theorem abandonIf_noRecord (h : s.pat.repairs = []) (p : Repair → Bool) : s.abandonIf p = s := by
  unfold State.abandonIf
  rw [h]
  rfl

theorem endClearing_none (h : s.pat.clearing = false) : s.endClearing = s := by
  unfold State.endClearing
  rw [h]
  exact if_neg fun hc => Bool.noConfusion hc.1

/-- Without records and with no Clear under way, folds are checked and items decided. -/
theorem settlePatrol_items (hrep : s.pat.repairs = []) (hclear : s.pat.clearing = false) :
    s.settlePatrol = ((s.pat.folds.foldl State.checkFold s).pat.work.map WorkItem.n).foldl State.decideItem
      (s.pat.folds.foldl State.checkFold s) := by
  unfold State.settlePatrol
  dsimp only
  rw [abandonIf_noRecord hrep, checkRepairs_noRecord hrep, endClearing_none]
  have hfold := itemsOnly_foldl itemsOnly_checkFold s.pat.folds s
  obtain ⟨-, -, -, -, -, hkept, -⟩ :=
    (hfold.trans (itemsOnly_foldl itemsOnly_decideItem ((s.pat.folds.foldl State.checkFold s).pat.work.map WorkItem.n)
      _)).parts
  exact hkept.trans hclear

theorem itemsOnly_settlePatrol (hrep : s.pat.repairs = []) (hclear : s.pat.clearing = false) :
    ItemsOnly s s.settlePatrol := by
  rw [settlePatrol_items hrep hclear]
  exact (itemsOnly_foldl itemsOnly_checkFold s.pat.folds s).trans (itemsOnly_foldl itemsOnly_decideItem _ _)

/-- With the Tally Unit at rest, the step ends in the Patrol Unit and at the offsite link. -/
theorem finish_tallyStill (hrun : s.sup.op ≠ .halted) (htally : s.tallyStill) :
    s.finish = s.settlePatrol.settleLink := by
  rw [finish_running hrun, advance_still htally, State.settle]

theorem settleLink_parts (s : State) : s.settleLink.sup = s.sup ∧ s.settleLink.links = s.links ∧
    s.settleLink.cat = s.cat ∧ s.settleLink.pat = s.pat ∧ s.settleLink.str.slots = s.str.slots := by
  have hbeside := settleLink_beside s
  unfold State.besideLink at hbeside
  simp only [Prod.mk.injEq] at hbeside
  obtain ⟨bsup, blinks, -, bcat, -, bpat, -⟩ := hbeside
  exact ⟨bsup, blinks, bcat, bpat, (settleLink_lasting s).2⟩

/-! ### One item -/

theorem item_single (h : s.pat.work = [w]) : s.item w.n = some w := by
  unfold State.item
  rw [h]
  exact List.find?_cons_of_pos (beq_self_eq_true w.n)

theorem modItem_single (h : s.pat.work = [w]) (f : WorkItem → WorkItem) : (s.modItem w.n f).pat.work = [f w] := by
  unfold State.modItem mapIf
  dsimp only
  rw [h, List.map_cons, if_pos (beq_self_eq_true w.n), List.map_nil]

theorem leaveItem_single (h : s.pat.work = [w]) : (s.leaveItem w.n).pat = { s.pat with work := [] } := by
  have hframe : (s.leaveItem w.n).pat = { s.pat with work := s.pat.work.filter fun y => y.n != w.n } := by
    unfold State.leaveItem
    rw [leavePlaces_frame]
    rfl
  rw [hframe, h, List.filter_cons_of_neg (by simp)]
  rfl

/-- The end of a step with one item and no fold entry, while the Patrol Unit has no record: the item decided. -/
theorem settlePatrol_oneItem (hwork : s.pat.work = [w]) (hfolds : s.pat.folds = []) (hrep : s.pat.repairs = [])
    (hclear : s.pat.clearing = false) : s.settlePatrol = s.decideItem w.n := by
  rw [settlePatrol_items hrep hclear, hfolds]
  dsimp only [List.foldl]
  rw [hwork]
  rfl

/-- An item under way and still eligible is left as it is. -/
theorem decideItem_underWay (hwork : s.pat.work = [w]) (hel : s.eligible w.vol w.ext w.birth w.loc w.forced = true)
    (hst : w.state = .issued ∨ w.state = .slot ∨ w.state = .place) : s.decideItem w.n = s := by
  unfold State.decideItem
  rw [item_single hwork]
  dsimp only
  rw [if_neg (by rw [hel]; exact Bool.noConfusion), if_pos hst]

/-- A waiting item whose version ships folds into shipping (R161). -/
theorem decideItem_folds (hwork : s.pat.work = [w]) (hel : s.eligible w.vol w.ext w.birth w.loc w.forced = true)
    (hst : w.state = .waitingIdle ∨ w.state = .waitingLock) (hforced : w.forced = false)
    (hship : s.shipBound w.vol w.ext w.birth = true) : s.decideItem w.n = (s.leaveItem w.n).addFold w := by
  unfold State.decideItem
  rw [item_single hwork]
  dsimp only
  rw [if_neg (by rw [hel]; exact Bool.noConfusion), if_neg, if_pos ⟨hforced, hship⟩]
  rcases hst with hst | hst <;> rw [hst] <;> nofun

/-- What a waiting item of an eligible, unforced version that does not ship and is not locked does in ACTIVE, its link
not IDLE: it is issued when overdue, and waits till then (R158). -/
theorem decideItem_active (hwork : s.pat.work = [w]) (hop : s.sup.op = .active) (hclear : s.pat.clearing = false)
    (hel : s.eligible w.vol w.ext w.birth w.loc w.forced = true) (hst : w.state = .waitingIdle)
    (hforced : w.forced = false) (hship : s.shipBound w.vol w.ext w.birth = false) (hv : s.volume w.vol = some v)
    (hx : s.versionAt w.vol w.ext w.birth w.loc = some x) (hlock : (s.extent w.vol w.ext).lock = none)
    (hidle : (s.link v.owner).idle = false) :
    s.decideItem w.n = if s.isOverdue x = true then s.issueItem w else s := by
  have hown : s.ownerOf w.vol = some v.owner := congrArg (Option.map Volume.owner) hv
  have hsame : (s.modItem w.n fun y => { y with state := .waitingIdle }) = s := by
    have hwork' : mapIf (fun y => y.n == w.n) (fun y : WorkItem => { y with state := .waitingIdle }) s.pat.work =
        s.pat.work := by
      refine (modItem_single hwork fun y => { y with state := .waitingIdle }).trans ?_
      rw [hwork, ← hst]
    unfold State.modItem
    rw [hwork']
  unfold State.decideItem
  rw [item_single hwork]
  dsimp only
  rw [if_neg (by rw [hel]; exact Bool.noConfusion), if_neg (by rw [hst]; nofun),
    if_neg (fun h => Bool.noConfusion (hship.symm.trans h.2)), if_neg (by rw [hop, hclear]; simp), hx, hown]
  dsimp only
  rw [hlock, if_neg (fun h => Bool.noConfusion h.1), hidle, if_neg Bool.false_ne_true, hforced, hsame]
  refine if_congr ?_ rfl rfl
  simp

theorem shipBound_none (hpulls : s.off.pulls = []) (hqueue : s.off.queue = []) (vol ext birth : Nat) :
    s.shipBound vol ext birth = false := by
  unfold State.shipBound
  rw [hpulls, hqueue]
  rfl

/-- A SOUND version of an attached volume, its record whole, is eligible (R158). -/
theorem eligible_sound {vol ext birth loc : Nat} (hd : s.damaged vol ext = false) (hv : (s.volume vol).isSome = true)
    (hx : s.versionAt vol ext birth loc = some x) (hsound : x.repair = .sound) (forced : Bool) :
    s.eligible vol ext birth loc forced = true := by
  unfold State.eligible
  rw [hd, hv, hx]
  dsimp only
  rw [hsound]
  rfl

end

end Sys2Proof.Machine
end

section
/-! SUPPORT. O53: the walk's visit, and items that wait, are issued, pulled or folded (R155 to R161). -/

namespace Sys2Proof.Machine

section
variable {s t u a b : State} {w : WorkItem} {v : Volume} {x : Version} {l : Link} {vol ext loc refs : Nat}

/-! ### The walk's visit -/

theorem exec_patrolWalkVisit (hop : s.sup.op = .active) : Sys2Proof.Machine.exec (.patrolWalkVisit []) s =
    .next (State.finish (State.patrolVisit { s with sent := [] })) := by
  have hrun : s.sup.op ≠ .halted := by
    rw [hop]
    nofun
  change execPatrolWalkVisit [] s = _
  unfold execPatrolWalkVisit
  exact (act_withErrs_nil _ hrun).trans (congrArg Host.Outcome.next (if_pos hop))

/-- Outside ACTIVE no visit is made (R156). -/
theorem exec_patrolWalkVisit_else (hop : s.sup.op ≠ .active) :
    Sys2Proof.Machine.exec (.patrolWalkVisit []) s = .next { s with sent := [] } := by
  change execPatrolWalkVisit [] s = _
  unfold execPatrolWalkVisit
  by_cases hrun : s.sup.op = .halted
  · exact act_halted _ hrun
  · exact (act_withErrs_nil _ hrun).trans (congrArg Host.Outcome.next (if_neg hop))

/-- The turn and the cursor moved on by a visit (R156). -/
def State.visited (s : State) (vol : Nat) (v : Volume) : State :=
  (s.modPat fun p => { p with turn := vol + 1 }).modVolume vol fun y =>
    { y with patrolCursor := if v.patrolCursor + 1 < y.count then v.patrolCursor + 1 else 0 }

/-- The volume whose extent was visited. -/
def Volume.walked (v : Volume) : Volume :=
  { v with patrolCursor := if v.patrolCursor + 1 < v.count then v.patrolCursor + 1 else 0 }

theorem turnVolume_single (h : s.cat.volumes = [(vol, v)]) : s.turnVolume = some (vol, v) := by
  unfold State.turnVolume
  rw [h]
  by_cases hturn : s.pat.turn ≤ vol
  · rw [List.find?_cons_of_pos (by simpa using hturn)]
  · rw [List.find?_cons_of_neg (by simpa using hturn)]
    rfl

theorem volume_single (hvol : vol < 32) (h : s.cat.volumes = [(vol, v)]) : s.volume vol = some v := by
  unfold State.volume
  rw [h]
  exact (if_pos hvol).trans (if_pos rfl)

theorem visited_volumes (h : s.cat.volumes = [(vol, v)]) : (s.visited vol v).cat.volumes = [(vol, v.walked)] := by
  unfold State.visited State.modPat State.modVolume
  dsimp only
  rw [h, tmod_single]
  rfl

/-- Volumes that a volume's walk leaves undamaged. -/
theorem damaged_of_volume (hv : s.volume vol = some v) (hd : v.damage.contains ext = false) :
    s.damaged vol ext = false := by
  unfold State.damaged
  rw [hv]
  exact hd

theorem patrolNames_none (hpat : s.patrolStill) (hwait : s.pat.waiting = []) (vol ext birth : Nat) :
    s.patrolNames vol ext birth = false := by
  obtain ⟨hwork, hfolds, hrep, -⟩ := hpat
  unfold State.patrolNames
  rw [hwork, hfolds, hrep, hwait]
  rfl

theorem loc_of_here (h : x.res = .here loc refs) : x.loc = some loc := by
  unfold Version.loc
  rw [h]

/-- A resting Patrol Unit examines the only version of an extent. -/
theorem examined_single (hpat : s.patrolStill) (hwait : s.pat.waiting = [])
    (hx : (s.extent vol ext).versions = [x]) (hres : x.res = .here loc refs) : s.examined vol ext = [x] := by
  unfold State.examined
  rw [hx, List.filter_cons_of_pos]
  · rfl
  · rw [loc_of_here hres, patrolNames_none hpat hwait]
    rfl

/-- A visit of a resting Patrol Unit to an extent with one version, where one volume is attached. -/
theorem patrolVisit_single (hvol : vol < 32) (hpat : s.patrolStill) (hwait : s.pat.waiting = [])
    (hvols : s.cat.volumes = [(vol, v)])
    (hd : v.damage.contains v.patrolCursor = false) (hx : (s.extent vol v.patrolCursor).versions = [x])
    (hres : x.res = .here loc refs) :
    s.patrolVisit = (s.visited vol v).visitVersions vol v.patrolCursor := by
  have hdam : s.damaged vol v.patrolCursor = false := damaged_of_volume (volume_single hvol hvols) hd
  have hdam' : (s.visited vol v).damaged vol v.patrolCursor = false :=
    damaged_of_volume (volume_single hvol (visited_volumes hvols)) hd
  have hroom : ¬ Config.workListSize <
      s.pat.work.length + ((s.examined vol v.patrolCursor).filter s.placesItem).length := by
    have hlen := List.length_filter_le s.placesItem [x]
    have hsize : Config.workListSize = 16 := rfl
    have hone : [x].length = 1 := rfl
    rw [examined_single hpat hwait hx hres, hpat.1, List.length_nil]
    omega
  unfold State.patrolVisit
  rw [turnVolume_single hvols]
  dsimp only
  rw [hdam, if_neg Bool.false_ne_true, if_neg hroom]
  refine (if_neg ?_ : _ = _)
  exact fun h => Bool.noConfusion (hdam'.symm.trans h)

/-- What a visit does with the only version it examines, by its occupied blocks and whether it is due (R156). -/
theorem visitVersions_single (hvs : s.examined vol ext = [x]) (hsound : x.repair = .sound)
    (hres : x.res = .here loc refs) :
    s.visitVersions vol ext =
      if s.dueTime x ≤ s.sup.clock then
        if x.occ = 0 then s.setVerified vol ext x.birth loc else State.placeItem vol ext s x
      else s := by
  have hdue : s.isDue x = decide (s.dueTime x ≤ s.sup.clock) := by
    unfold State.isDue
    rw [loc_of_here hres]
    rfl
  unfold State.visitVersions
  dsimp only
  rw [hvs]
  by_cases hd : s.dueTime x ≤ s.sup.clock
  · by_cases hocc : x.occ = 0
    · rw [if_pos hd, if_pos hocc, List.filter_cons_of_pos (by simp [hsound, hdue, hd, hocc])]
      dsimp only [List.filter, List.foldl]
      rw [loc_of_here hres]
      dsimp only [Option.getD]
      rw [show State.placesItem (s.setVerified vol ext x.birth loc) x = false by
        unfold State.placesItem
        simp [hsound, hocc]]
      rfl
    · rw [if_pos hd, if_neg hocc, List.filter_cons_of_neg (by simp [hocc])]
      dsimp only [List.filter, List.foldl]
      rw [show s.placesItem x = true by
        unfold State.placesItem
        simp [hsound, hdue, hd, Nat.pos_of_ne_zero hocc]]
      rfl
  · rw [if_neg hd, List.filter_cons_of_neg (by simp [hdue, hd])]
    dsimp only [List.filter, List.foldl]
    rw [show s.placesItem x = false by
      unfold State.placesItem
      simp [hsound, hdue, hd]]
    rfl

theorem itemsOnly_placeItem (vol ext : Nat) (s : State) (x : Version) : ItemsOnly s (State.placeItem vol ext s x) := by
  unfold State.placeItem
  dsimp only
  refine ItemsOnly.trans ?_ (itemsOnly_decideItem _ _)
  exact ⟨rfl⟩

theorem itemsOnly_visitVersions (s : State) (vol ext : Nat) : ItemsOnly s (s.visitVersions vol ext) :=
  (itemsOnly_foldl (fun _ _ => itemsOnly_setVerified _ _ _ _ _) _ s).trans
    (itemsOnly_foldl (itemsOnly_placeItem vol ext) _ _)

/-- The item that a visit places for a SOUND version (R157). -/
def State.newItem (s : State) (vol ext loc : Nat) (x : Version) : WorkItem :=
  { n := s.pat.nextItem, vol := vol, ext := ext, birth := x.birth, loc := loc, forced := false, retry := false
    state := .waitingIdle, received := [], differed := [], codes := x.codes }

/-- An item placed for a SOUND version, its decision to come. -/
def State.withItem (s : State) (vol ext loc : Nat) (x : Version) : State :=
  s.modPat fun p => { p with work := p.work ++ [s.newItem vol ext loc x], nextItem := p.nextItem + 1 }

theorem placeItem_sound (hsound : x.repair = .sound) (hres : x.res = .here loc refs) :
    State.placeItem vol ext s x = (s.withItem vol ext loc x).decideItem s.pat.nextItem := by
  unfold State.placeItem State.withItem State.newItem
  dsimp only
  rw [hsound, loc_of_here hres]
  rfl

theorem versionAt_single {birth : Nat} (hx : (s.extent vol ext).versions = [x]) (hb : x.birth = birth)
    (hl : x.loc = some loc) : s.versionAt vol ext birth loc = some x := by
  unfold State.versionAt
  rw [hx]
  exact List.find?_cons_of_pos (by simp [hb, hl])

/-- What a visit leaves: the turn and the cursor moved on, and the rest of the step (R156). -/
theorem visit_finish (hvol : vol < 32) (hop : s.sup.op = .active) (hcalm : s.calm)
    (hvols : s.cat.volumes = [(vol, v)]) :
    (((s.visited vol v).visitVersions vol ext).finish).pat.turn = vol + 1 ∧
      (((s.visited vol v).visitVersions vol ext).finish).volume vol = some v.walked := by
  obtain ⟨htally, hpat⟩ := hcalm
  obtain ⟨-, -, hrep, hclear⟩ := hpat
  have hitems := itemsOnly_visitVersions (s.visited vol v) vol ext
  generalize (s.visited vol v).visitVersions vol ext = z at hitems ⊢
  obtain ⟨zsup, ztally, -, zrep, -, zclear, -⟩ := hitems.parts
  have hrun : z.sup.op ≠ .halted := by
    rw [zsup]
    change s.sup.op ≠ .halted
    rw [hop]
    nofun
  have hstill : z.tallyStill := by
    unfold State.tallyStill
    rw [ztally]
    exact htally
  have hsettled := hitems.trans (itemsOnly_settlePatrol (zrep.trans hrep) (zclear.trans hclear))
  obtain ⟨-, -, hvolumes, -, -, -, hturn⟩ := hsettled.parts
  rw [finish_tallyStill hrun hstill]
  generalize z.settlePatrol = y at hvolumes hturn ⊢
  obtain ⟨-, -, ycat, ypat, -⟩ := settleLink_parts y
  refine ⟨?_, ?_⟩
  · rw [ypat, hturn]
    rfl
  · refine volume_single hvol ?_
    rw [ycat, hvolumes, visited_volumes hvols]

/-- A step that leaves Tally Unit and Patrol Unit at rest. -/
theorem rest_finish (hrun : s.sup.op ≠ .halted) (hcalm : s.calm) : s.finish.pat = s.pat ∧ s.finish.cat = s.cat := by
  obtain ⟨-, -, -, hcat, -, hpat, -⟩ := finish_beside_parts hcalm hrun
  exact ⟨hpat, hcat⟩

/-- A step that leaves the Tally Unit at rest and one item under decision that stands as it is. -/
theorem item_finish (hrun : s.sup.op ≠ .halted) (htally : s.tallyStill) (hwork : s.pat.work = [w])
    (hfolds : s.pat.folds = []) (hrep : s.pat.repairs = []) (hclear : s.pat.clearing = false)
    (hdecide : s.decideItem w.n = s) : s.finish.pat = s.pat ∧ s.finish.cat = s.cat ∧
      s.finish.str.slots = s.str.slots ∧ s.finish.links = s.links := by
  rw [finish_tallyStill hrun htally, settlePatrol_oneItem hwork hfolds hrep hclear, hdecide]
  obtain ⟨-, hlinks, hcat, hpat, hslots⟩ := settleLink_parts s
  exact ⟨hpat, hcat, hslots, hlinks⟩

/-- The visit of the walk to an extent of one SOUND version (R155 to R158). -/
theorem patrolWalkVisit_spec (hvol : vol < 32) (hop : s.sup.op = .active) (hcalm : s.calm) (hwait : s.pat.waiting = [])
    (hvols : s.cat.volumes = [(vol, v)]) (hd : v.damage.contains v.patrolCursor = false)
    (hx : (s.extent vol v.patrolCursor).versions = [x]) (hres : x.res = .here loc refs) (hsound : x.repair = .sound) :
    ∃ t, Sys2Proof.Machine.exec (.patrolWalkVisit []) s = .next t ∧ t.pat.turn = vol + 1 ∧
      t.volume vol = some { v with
        patrolCursor := if v.patrolCursor + 1 < v.count then v.patrolCursor + 1 else 0 } ∧
      (s.sup.clock < x.verified + 86400 * s.sup.settings.patrolPeriod →
        t.pat.work = [] ∧ (t.extent vol v.patrolCursor).versions = [x]) ∧
      (x.verified + 86400 * s.sup.settings.patrolPeriod ≤ s.sup.clock → x.occ = 0 →
        t.pat.work = [] ∧ (t.extent vol v.patrolCursor).versions = [{ x with verified := s.sup.clock }]) ∧
      (x.verified + 86400 * s.sup.settings.patrolPeriod ≤ s.sup.clock → 0 < x.occ →
        s.sup.clock ≤ x.verified + 86400 * s.sup.settings.patrolPeriod +
          3600 * s.sup.settings.overdueLimit →
        (s.extent vol v.patrolCursor).lock = none → (s.link v.owner).idle = false →
        s.off.pulls = [] → s.off.queue = [] → ∃ w, t.pat.work = [w] ∧ w.vol = vol ∧
          w.ext = v.patrolCursor ∧ w.birth = x.birth ∧ w.loc = loc ∧ w.forced = false ∧
          w.state = .waitingIdle ∧ (t.extent vol v.patrolCursor).versions = [x]) := by
  obtain ⟨a, ha⟩ : ∃ a : State, a = { s with sent := [] } := ⟨_, rfl⟩
  have hparts : a.sup = s.sup ∧ a.tally = s.tally ∧ a.pat = s.pat ∧ a.cat = s.cat ∧ a.off = s.off ∧
      a.links = s.links := by
    rw [ha]
    exact ⟨rfl, rfl, rfl, rfl, rfl, rfl⟩
  obtain ⟨asup, atally, apat, acat, aoff, alinks⟩ := hparts
  have hacalm : a.calm := calm_congr atally apat hcalm
  have haop : a.sup.op = .active := by rw [asup, hop]
  have harun : a.sup.op ≠ .halted := by
    rw [haop]
    nofun
  have hawait : a.pat.waiting = [] := by rw [apat, hwait]
  have havols : a.cat.volumes = [(vol, v)] := by rw [acat, hvols]
  have hax : (a.extent vol v.patrolCursor).versions = [x] := by
    rw [State.extent, acat]
    exact hx
  obtain ⟨hturn, hvolume⟩ := visit_finish (ext := v.patrolCursor) hvol haop hacalm havols
  rw [exec_patrolWalkVisit hop, ← ha, patrolVisit_single hvol hacalm.2 hawait havols hd hax hres]
  have hvis : (a.visited vol v).examined vol v.patrolCursor = [x] :=
    examined_single (s := a.visited vol v) hacalm.2 hawait hax hres
  have hvcalm : (a.visited vol v).calm := hacalm
  have hdue : (a.visited vol v).dueTime x = x.verified + 86400 * s.sup.settings.patrolPeriod := by
    change x.verified + 86400 * a.sup.settings.patrolPeriod = _
    rw [asup]
  have hvvol : (a.visited vol v).volume vol = some v.walked := volume_single hvol (visited_volumes havols)
  have hvdam : (a.visited vol v).damaged vol v.patrolCursor = false := damaged_of_volume hvvol hd
  have hvsup : (a.visited vol v).sup = s.sup := asup
  have hvx : ((a.visited vol v).extent vol v.patrolCursor).versions = [x] := hax
  have hvoff : (a.visited vol v).off = s.off := aoff
  have hvlinks : (a.visited vol v).links = s.links := alinks
  have hvlock : ((a.visited vol v).extent vol v.patrolCursor).lock = (s.extent vol v.patrolCursor).lock := by
    change (a.extent vol v.patrolCursor).lock = _
    rw [State.extent, acat, State.extent]
  have hvpat : (a.visited vol v).pat.work = [] := hacalm.2.1
  refine ⟨_, rfl, hturn, hvolume, ?_⟩
  rw [visitVersions_single hvis hsound hres, hdue, hvsup]
  generalize a.visited vol v = b at *
  have hbrun : b.sup.op ≠ .halted := by
    rw [hvsup, hop]
    nofun
  refine ⟨fun hnot => ?_, fun hdue hocc => ?_, fun hdue hocc hover hlock hidle hpulls hqueue => ?_⟩
  · rw [if_neg (Nat.not_le.mpr hnot)]
    obtain ⟨fpat, fcat⟩ := rest_finish hbrun hvcalm
    rw [fpat, State.extent, fcat]
    exact ⟨hvpat, hvx⟩
  · rw [if_pos hdue, if_pos hocc]
    have hitems := itemsOnly_setVerified b vol v.patrolCursor x.birth loc
    obtain ⟨-, hpat, -, -⟩ := setVerified_parts (loc := loc) hvdam (versionAt_single hvx rfl (loc_of_here hres))
    have hone : ((b.setVerified vol v.patrolCursor x.birth loc).extent vol v.patrolCursor).versions =
        [{ x with verified := b.sup.clock }] :=
      changeVersion_single (f := fun y => { y with verified := b.sup.clock }) hvdam hvx rfl (loc_of_here hres)
    generalize b.setVerified vol v.patrolCursor x.birth loc = z at hitems hpat hone ⊢
    obtain ⟨zsup, ztally, -⟩ := hitems.parts
    obtain ⟨fpat, fcat⟩ := rest_finish (s := z) (by rw [zsup]; exact hbrun) (calm_congr ztally hpat hvcalm)
    rw [fpat, hpat, State.extent, fcat]
    rw [hvsup] at hone
    exact ⟨hvpat, hone⟩
  · rw [if_pos hdue, if_neg (Nat.pos_iff_ne_zero.mp hocc), placeItem_sound hsound hres]
    have hdueB : b.dueTime x = x.verified + 86400 * s.sup.settings.patrolPeriod := by
      rw [State.dueTime, hvsup]
    obtain ⟨z, hz⟩ : ∃ z, z = b.withItem vol v.patrolCursor loc x := ⟨_, rfl⟩
    obtain ⟨w, hw⟩ : ∃ w, w = b.newItem vol v.patrolCursor loc x := ⟨_, rfl⟩
    have hwork : z.pat.work = [w] := by
      rw [hz, hw]
      change b.pat.work ++ _ = _
      rw [hvpat]
      rfl
    have hfields : w.vol = vol ∧ w.ext = v.patrolCursor ∧ w.birth = x.birth ∧ w.loc = loc ∧ w.forced = false ∧
        w.state = .waitingIdle ∧ w.n = b.pat.nextItem := by
      rw [hw]
      exact ⟨rfl, rfl, rfl, rfl, rfl, rfl, rfl⟩
    obtain ⟨hwvol, hwext, hwbirth, hwloc, hwforced, hwstate, hwn⟩ := hfields
    have hzparts : z.sup = b.sup ∧ z.tally = b.tally ∧ z.cat = b.cat ∧ z.off = b.off ∧ z.links = b.links ∧
        z.pat.folds = b.pat.folds ∧ z.pat.repairs = b.pat.repairs ∧ z.pat.clearing = b.pat.clearing := by
      rw [hz]
      exact ⟨rfl, rfl, rfl, rfl, rfl, rfl, rfl, rfl⟩
    obtain ⟨zsup, ztally, zcat, zoff, zlinks, zfolds, zrep, zclear⟩ := hzparts
    obtain ⟨bstill, -, bfolds, brep, bclear⟩ := hvcalm
    have hzx : z.versionAt w.vol w.ext w.birth w.loc = some x := by
      rw [hwvol, hwext, hwbirth, hwloc, versionAt_of_cat (congrArg Catalogue.extents zcat)]
      exact versionAt_single hvx rfl (loc_of_here hres)
    have hzvol : z.volume w.vol = some v.walked := by
      rw [hwvol, volume_congr (congrArg Catalogue.volumes zcat), hvvol]
    have hzdam : z.damaged w.vol w.ext = false := by
      rw [hwvol, hwext, damaged_of_volumes (congrArg Catalogue.volumes zcat), hvdam]
    have hzship : z.shipBound w.vol w.ext w.birth = false :=
      shipBound_none (by rw [zoff, hvoff, hpulls]) (by rw [zoff, hvoff, hqueue]) _ _ _
    have hzidle : (z.link v.walked.owner).idle = false := by
      rw [State.link_congr (zlinks.trans hvlinks)]
      exact hidle
    have hzlock : (z.extent w.vol w.ext).lock = none := by
      rw [hwvol, hwext, State.extent, zcat]
      exact hvlock.trans hlock
    have hnotOver : z.isOverdue x = false := by
      unfold State.isOverdue State.dueTime
      rw [zsup, hvsup, Bool.and_eq_false_iff]
      exact .inr (decide_eq_false (Nat.not_lt.mpr hover))
    have hdecide : z.decideItem w.n = z := by
      rw [decideItem_active hwork (by rw [zsup, hvsup, hop]) (by rw [zclear, bclear])
        (eligible_sound hzdam (by rw [hzvol]; rfl) hzx hsound _) hwstate hwforced hzship hzvol hzx hzlock hzidle,
        hnotOver, if_neg Bool.false_ne_true]
    have hstill : z.tallyStill := by
      unfold State.tallyStill
      rw [ztally]
      exact bstill
    obtain ⟨fpat, fcat, -⟩ := item_finish (by rw [zsup]; exact hbrun) hstill hwork (by rw [zfolds, bfolds])
      (by rw [zrep, brep]) (by rw [zclear, bclear]) hdecide
    rw [← hz, ← hwn, hdecide]
    refine ⟨w, by rw [fpat, hwork], hwvol, hwext, hwbirth, hwloc, hwforced, hwstate, ?_⟩
    rw [State.extent, fcat, zcat]
    exact hvx

end

end Sys2Proof.Machine
end

section
/-! SUPPORT. O53: items issued to the arbiter, pulled, and folded into shipping (R158, R160, R161). -/

namespace Sys2Proof.Machine

section
variable {s t u a b : State} {w : WorkItem} {v : Volume} {x : Version} {l : Link} {vol ext birth loc refs : Nat}

/-! ### An item issued -/

theorem exec_versionOverdue (hrun : s.sup.op ≠ .halted) (hwork : s.pat.work = [w]) :
    Sys2Proof.Machine.exec (.versionOverdue w.vol w.ext w.birth) s =
      .next (State.finish (State.decideItem { s with sent := [] } w.n)) := by
  have hfind : (({ s with sent := [] } : State).pat.work.find? fun y =>
      y.vol == w.vol && y.ext == w.ext && y.birth == w.birth) = some w := by
    change (s.pat.work.find? _) = _
    rw [hwork]
    exact List.find?_cons_of_pos (by simp)
  change execVersionOverdue w.vol w.ext w.birth s = _
  unfold execVersionOverdue
  refine (act_withErrs_nil _ hrun).trans (congrArg Host.Outcome.next ?_)
  rw [hfind]

/-- A PATROL request of one slot, with every slot free and none waiting in its class nor ahead of it, is granted. -/
theorem askSlots_patrol {h : SlotHolder} {i : Nat} {code : Code} (hop : s.sup.op ≠ .holdup)
    (hslots : s.str.slots = []) (hrepair : s.str.waitRepair = []) (hfetch : s.str.waitFetch = [])
    (hpatrol : s.str.waitPatrol = []) :
    s.askSlots .patrol { holder := h, wants := [(i, code)] } =
      s.grant .patrol { holder := h, wants := [(i, code)] } := by
  have hfree : s.freeSlots = 64 := by
    unfold State.freeSlots
    rw [hslots]
    rfl
  have hreserve : s.reserve = 12 := by
    unfold State.reserve State.slotsHeld
    rw [hslots]
    rfl
  have hheld : s.slotsHeld .patrol = 0 := by
    unfold State.slotsHeld
    rw [hslots]
    rfl
  have hurgent : s.urgent = false := by
    unfold State.urgent
    rw [hrepair, hfetch]
    rfl
  have hallowed : s.grantAllowed .patrol 1 = true := by
    unfold State.grantAllowed
    dsimp only
    rw [hfree, hreserve, hheld, hurgent, decide_eq_true hop]
    rfl
  unfold State.askSlots
  refine if_pos ⟨hallowed, ?_⟩
  change s.str.waitPatrol.isEmpty = true
  rw [hpatrol]
  rfl

/-- An item issued while every slot is free holds one and waits for its place (R160). -/
theorem issueItem_granted (hwork : s.pat.work = [w]) (hop : s.sup.op ≠ .holdup)
    (hslots : s.str.slots = []) (hrepair : s.str.waitRepair = []) (hfetch : s.str.waitFetch = [])
    (hpatrol : s.str.waitPatrol = []) :
    (∃ str, s.issueItem w = { s with str := str, pat := { s.pat with work := [{ w with state := .place }] } }) ∧
      ∃ n y, (s.issueItem w).slot n = some y ∧ y.state = .filling ∧ y.cls = .patrol ∧ y.holder = .verify w.n := by
  have hmod : (s.modItem w.n fun y => { y with state := .slot }) =
      { s with pat := { s.pat with work := [{ w with state := .slot }] } } := by
    have h := modItem_single hwork fun y => { y with state := .slot }
    unfold State.modItem at h ⊢
    dsimp only at h
    rw [h]
  obtain ⟨m, hm⟩ : ∃ m, m = s.modItem w.n fun y => { y with state := .slot } := ⟨_, rfl⟩
  obtain ⟨y, hy⟩ : ∃ y : Slot, y =
      { state := .filling, cls := .patrol, holder := .verify w.n, idx := 0, expected := (w.codes[0]?).getD 0
        computed := crcInit, seq := none, data := [], fullOrder := 0, covered := false } := ⟨_, rfl⟩
  have hissue : s.issueItem w =
      { m with str.slots := tput m.str.slots m.lowestSlot y
               pat.work := mapIf (fun z => z.n == w.n) (fun z => { z with state := .place }) m.pat.work } := by
    unfold State.issueItem
    rw [← hm, askSlots_patrol (by rw [hm]; exact hop) (by rw [hm]; exact hslots) (by rw [hm]; exact hrepair)
      (by rw [hm]; exact hfetch) (by rw [hm]; exact hpatrol), hy]
    rfl
  have hmwork : m.pat.work = [{ w with state := .slot }] := by rw [hm, hmod]
  have hplace : mapIf (fun z => z.n == w.n) (fun z : WorkItem => { z with state := .place }) m.pat.work =
      [{ w with state := .place }] := by
    rw [hmwork]
    unfold mapIf
    rw [List.map_cons, if_pos (beq_self_eq_true w.n), List.map_nil]
  rw [hplace] at hissue
  refine ⟨⟨{ m.str with slots := tput m.str.slots m.lowestSlot y }, ?_⟩, m.lowestSlot, y, ?_, ?_⟩
  · rw [hissue, hm, hmod]
  · rw [hissue]
    exact tget_tput_self m.str.slots m.lowestSlot y
  · rw [hy]
    exact ⟨rfl, rfl, rfl⟩

/-- An overdue version's item is issued although its link is BUSY (R158). -/
theorem overdue_issued (hop : s.sup.op = .active) (htally : s.tallyStill) (hwork : s.pat.work = [w])
    (hfolds : s.pat.folds = []) (hrep : s.pat.repairs = []) (hclear : s.pat.clearing = false)
    (hst : w.state = .waitingIdle) (hforced : w.forced = false) (hv : s.volume w.vol = some v)
    (hd : s.damaged w.vol w.ext = false) (hx : s.versionAt w.vol w.ext w.birth w.loc = some x)
    (hsound : x.repair = .sound) (hlock : (s.extent w.vol w.ext).lock = none) (hidle : (s.link v.owner).idle = false)
    (hpulls : s.off.pulls = []) (hqueue : s.off.queue = []) (hslots : s.str.slots = [])
    (hrepair : s.str.waitRepair = [])
    (hfetch : s.str.waitFetch = []) (hpatrol : s.str.waitPatrol = [])
    (hover : x.verified + 86400 * s.sup.settings.patrolPeriod + 3600 * s.sup.settings.overdueLimit < s.sup.clock) :
    ∃ t n y, Sys2Proof.Machine.exec (.versionOverdue w.vol w.ext w.birth) s = .next t ∧
      t.pat.work = [{ w with state := .place }] ∧ t.slot n = some y ∧ y.state = .filling ∧
      y.cls = .patrol ∧ y.holder = .verify w.n := by
  have hrun : s.sup.op ≠ .halted := by
    rw [hop]
    nofun
  have hvsome : (s.volume w.vol).isSome = true := by
    rw [hv]
    rfl
  have hloc : x.loc = some w.loc := by
    have hp := List.find?_some (p := fun y : Version => y.birth == w.birth && decide (y.loc = some w.loc)) hx
    rw [Bool.and_eq_true] at hp
    simpa using hp.2
  have hisOver : s.isOverdue x = true := by
    unfold State.isOverdue State.isDue State.dueTime
    rw [hloc]
    simp only [Option.isSome_some, Bool.true_and, Bool.and_eq_true, decide_eq_true_eq]
    exact ⟨by omega, hover⟩
  obtain ⟨a, ha⟩ : ∃ a : State, a = { s with sent := [] } := ⟨_, rfl⟩
  have hdecide : a.decideItem w.n = a.issueItem w := by
    rw [ha]
    rw [decideItem_active (s := { s with sent := [] }) hwork hop hclear
      (eligible_sound hd hvsome hx hsound w.forced) hst
      hforced (shipBound_none hpulls hqueue w.vol w.ext w.birth) hv hx hlock hidle]
    exact if_pos hisOver
  have hnotHold : a.sup.op ≠ .holdup := by
    rw [ha]
    change s.sup.op ≠ .holdup
    rw [hop]
    nofun
  obtain ⟨⟨str, hframe⟩, n, y, hslot, hfilling, hcls, hholder⟩ := issueItem_granted (s := a) (w := w)
    (by rw [ha]; exact hwork) hnotHold (by rw [ha]; exact hslots) (by rw [ha]; exact hrepair) (by rw [ha]; exact hfetch)
    (by rw [ha]; exact hpatrol)
  rw [exec_versionOverdue hrun hwork, ← ha, hdecide]
  generalize a.issueItem w = z at hframe hslot ⊢
  have hparts : z.sup = s.sup ∧ z.tally = s.tally ∧ z.cat = s.cat ∧
      z.pat = { s.pat with work := [{ w with state := .place }] } := by
    rw [hframe, ha]
    exact ⟨rfl, rfl, rfl, rfl⟩
  obtain ⟨zsup, ztally, zcat, zpat⟩ := hparts
  have hzwork : z.pat.work = [{ w with state := .place }] := by rw [zpat]
  have hzel : z.eligible w.vol w.ext w.birth w.loc w.forced = true := by
    refine eligible_sound (x := x) ?_ ?_ ?_ hsound _
    · rw [damaged_of_volumes (congrArg Catalogue.volumes zcat), hd]
    · rw [volume_congr (congrArg Catalogue.volumes zcat), hvsome]
    · rw [versionAt_of_cat (congrArg Catalogue.extents zcat), hx]
  have hstill : z.tallyStill := by
    unfold State.tallyStill
    rw [ztally]
    exact htally
  obtain ⟨fpat, -, fslots, -⟩ := item_finish (w := { w with state := .place }) (by rw [zsup]; exact hrun) hstill hzwork
    (by rw [zpat]; exact hfolds) (by rw [zpat]; exact hrep) (by rw [zpat]; exact hclear)
    (decideItem_underWay hzwork hzel (.inr (.inr rfl)))
  refine ⟨_, n, y, rfl, by rw [fpat, hzwork], ?_, hfilling, hcls, hholder⟩
  rw [State.slot, fslots]
  exact hslot

/-! ### An item folded -/

/-- The fold entry of an item (R161). -/
def WorkItem.fold (w : WorkItem) : Fold := { vol := w.vol, ext := w.ext, birth := w.birth, loc := w.loc, equal := [] }

theorem addFold_first (hfolds : s.pat.folds = []) (w : WorkItem) :
    s.addFold w = { s with pat := { s.pat with folds := [w.fold] } } := by
  unfold State.addFold State.modPat
  dsimp only
  rw [hfolds, if_pos ⟨show 0 < Config.foldTableSize from Nat.lt_of_sub_eq_succ rfl, rfl⟩]
  rfl

/-- A fold entry of an eligible version that ships, with equal chunks yet to come, stands (R161). -/
theorem checkFold_stands {f : Fold} (hel : s.eligible f.vol f.ext f.birth f.loc false = true)
    (hequal : f.equal.length < 16) (hship : s.shipBound f.vol f.ext f.birth = true) : s.checkFold f = s := by
  unfold State.checkFold
  dsimp only
  rw [if_neg (by rw [hel]; exact Bool.noConfusion), if_neg (Nat.not_le.mpr hequal),
    if_neg (by rw [hship]; exact Bool.noConfusion)]

/-- An item whose version ships leaves and a fold entry is made (R161). -/
theorem overdue_folds (hrun : s.sup.op ≠ .halted) (htally : s.tallyStill) (hwork : s.pat.work = [w])
    (hfolds : s.pat.folds = []) (hrep : s.pat.repairs = []) (hclear : s.pat.clearing = false)
    (hst : w.state = .waitingIdle ∨ w.state = .waitingLock) (hforced : w.forced = false)
    (hv : s.volume w.vol = some v) (hd : s.damaged w.vol w.ext = false)
    (hx : s.versionAt w.vol w.ext w.birth w.loc = some x) (hsound : x.repair = .sound)
    (hship : s.shipBound w.vol w.ext w.birth = true) :
    ∃ t, Sys2Proof.Machine.exec (.versionOverdue w.vol w.ext w.birth) s = .next t ∧ t.pat.work = [] ∧
      t.pat.folds = [{ vol := w.vol, ext := w.ext, birth := w.birth, loc := w.loc, equal := [] }] ∧
      t.cat = s.cat := by
  have hvsome : (s.volume w.vol).isSome = true := by
    rw [hv]
    rfl
  have hel : ∀ forced, s.eligible w.vol w.ext w.birth w.loc forced = true := eligible_sound hd hvsome hx hsound
  obtain ⟨a, ha⟩ : ∃ a : State, a = { s with sent := [] } := ⟨_, rfl⟩
  have hawork : a.pat.work = [w] := by rw [ha]; exact hwork
  have hdecide : a.decideItem w.n = (a.leaveItem w.n).addFold w :=
    decideItem_folds hawork (by rw [ha]; exact hel w.forced) hst hforced (by rw [ha]; exact hship)
  have hgone := itemsGone_leaveItem a w.n
  have hleft := leaveItem_single hawork
  have hlfolds : (a.leaveItem w.n).pat.folds = [] := by
    rw [hleft, ha]
    exact hfolds
  rw [exec_versionOverdue hrun hwork, ← ha, hdecide, addFold_first hlfolds, hleft]
  obtain ⟨b, hb⟩ : ∃ b, b = a.leaveItem w.n := ⟨_, rfl⟩
  rw [← hb] at hgone ⊢
  have hparts : b.sup = s.sup ∧ b.tally = s.tally ∧ b.cat = s.cat ∧ b.off = s.off ∧ a.pat = s.pat := by
    rw [hgone.frame, ha]
    exact ⟨rfl, rfl, rfl, rfl, rfl⟩
  obtain ⟨bsup, btally, bcat, boff, apat⟩ := hparts
  obtain ⟨z, hz⟩ : ∃ z : State, z = { b with pat := { a.pat with work := [], folds := [w.fold] } } := ⟨_, rfl⟩
  have hzparts : z.sup = s.sup ∧ z.tally = s.tally ∧ z.cat = s.cat ∧ z.off = s.off ∧
      z.pat = { s.pat with work := [], folds := [w.fold] } := by
    rw [hz]
    exact ⟨bsup, btally, bcat, boff, by rw [apat]⟩
  obtain ⟨zsup, ztally, zcat, zoff, zpat⟩ := hzparts
  have hstill : z.tallyStill := by
    unfold State.tallyStill
    rw [ztally]
    exact htally
  have hzel : z.eligible w.vol w.ext w.birth w.loc false = true := by
    refine eligible_sound (x := x) ?_ ?_ ?_ hsound _
    · rw [damaged_of_volumes (congrArg Catalogue.volumes zcat), hd]
    · rw [volume_congr (congrArg Catalogue.volumes zcat), hvsome]
    · rw [versionAt_of_cat (congrArg Catalogue.extents zcat), hx]
  have hzship : z.shipBound w.vol w.ext w.birth = true := by
    unfold State.shipBound at hship ⊢
    rw [zoff]
    exact hship
  have hsettle : z.settlePatrol = z := by
    rw [settlePatrol_items (by rw [zpat]; exact hrep) (by rw [zpat]; exact hclear), zpat]
    dsimp only [List.foldl]
    rw [checkFold_stands (f := w.fold) hzel (Nat.lt_of_sub_eq_succ rfl) hzship, zpat]
    rfl
  have hfinish : z.finish = z.settleLink := by
    rw [finish_tallyStill (by rw [zsup]; exact hrun) hstill, hsettle]
  obtain ⟨-, -, fcat, fpat, -⟩ := settleLink_parts z
  refine ⟨z.finish, by rw [hz], ?_, ?_, ?_⟩
  · rw [hfinish, fpat, zpat]
  · rw [hfinish, fpat, zpat]
    rfl
  · rw [hfinish, fcat, zcat]

/-! ### A verifying PULL -/

/-- The increment of a location, written out for the versions that carry it (R58). -/
theorem incRef_versions (hd : s.damaged vol ext = false) (hc : (s.extent vol ext).carries loc = true) :
    ∃ b, s.incRef vol ext loc = .granted b ∧ RefsMoved s b ∧ b.links = s.links ∧
      (b.extent vol ext).versions = (s.extent vol ext).versions.map (modRefs loc (· + 1)) := by
  unfold State.incRef
  rw [hd, if_neg Bool.false_ne_true, if_pos hc]
  refine ⟨_, rfl, refsMoved_setRefs s vol ext loc (· + 1) (· + 1), rfl, ?_⟩
  unfold State.modVolume
  exact congrArg Extent.versions (extent_setExtent_self s vol ext _)

theorem modRefs_here {f : Nat → Nat} (hres : x.res = .here loc refs) :
    modRefs loc f x = { x with res := .here loc (f refs) } := by
  unfold modRefs
  rw [hres]
  exact if_pos rfl

theorem exec_verifyingPull (hop : s.sup.op = .active) (hwork : s.pat.work = [w]) (hst : w.state = .place)
    (hel : s.eligible w.vol w.ext w.birth w.loc w.forced = true) (hv : s.volume w.vol = some v) :
    Sys2Proof.Machine.exec (.verifyingPull w.n []) s =
      .next (State.finish (State.issueVerify { s with sent := [] } w v.owner)) := by
  have hrun : s.sup.op ≠ .halted := by
    rw [hop]
    nofun
  have hitem : ({ s with sent := [] } : State).item w.n = some w := item_single hwork
  have hown : ({ s with sent := [] } : State).ownerOf w.vol = some v.owner := congrArg (Option.map Volume.owner) hv
  change execVerifyingPull w.n [] s = _
  unfold execVerifyingPull
  refine (act_withErrs_nil _ hrun).trans (congrArg Host.Outcome.next ?_)
  rw [hitem]
  dsimp only
  rw [if_neg (fun h => h.elim (fun h => h hop) fun h => h hst), hown]
  exact if_neg fun h => Bool.noConfusion (Eq.trans h.symm hel)

theorem eligible_parts {forced : Bool} (hel : s.eligible vol ext birth loc forced = true) :
    s.damaged vol ext = false ∧ (s.volume vol).isSome = true := by
  unfold State.eligible at hel
  rw [Bool.and_eq_true, Bool.and_eq_true, Bool.not_eq_true'] at hel
  exact hel.1

/-- References counted leave what is eligible. -/
theorem eligible_moved (h : RefsMoved s t) {forced : Bool} :
    t.eligible vol ext birth loc forced = s.eligible vol ext birth loc forced := by
  obtain ⟨g, hg, hat⟩ := h.versionAt vol ext birth loc
  obtain ⟨n, hvol⟩ := h.volume vol
  unfold State.eligible
  rw [h.damaged, hvol, hat, Option.isSome_map]
  cases s.versionAt vol ext birth loc with
  | none => rfl
  | some y =>
    have hrep : (g y).repair = y.repair := by rw [(hg y).1]
    rw [Option.map_some]
    dsimp only
    rw [hrep]

/-- A verifying PULL goes out with a reference to its location (R160). -/
theorem verifyingPull_spec (hop : s.sup.op = .active) (htally : s.tallyStill) (hwork : s.pat.work = [w])
    (hfolds : s.pat.folds = []) (hrep : s.pat.repairs = []) (hclear : s.pat.clearing = false) (hst : w.state = .place)
    (hel : s.eligible w.vol w.ext w.birth w.loc w.forced = true) (hv : s.volume w.vol = some v)
    (hx : s.versionAt w.vol w.ext w.birth w.loc = some x) (hres : x.res = .here w.loc refs)
    (hfree : s.placeFree v.owner (.verify w.n) = true) :
    ∃ t d, Sys2Proof.Machine.exec (.verifyingPull w.n []) s = .next t ∧
      t.pat.work = [{ w with state := .issued, received := [], differed := [], codes := x.codes }] ∧
      (t.link v.owner).directives = (s.link v.owner).directives ++ [d] ∧ d.kind = .pull ∧
      d.issuer = .verify w.n ∧ d.refs = [(w.vol, w.ext, w.loc)] ∧
      TxFrame.directive d.tag (.pull w.loc 0 16 true) ∈ (t.link v.owner).tx ∧
      (t.link v.owner).idle = false ∧
      { x with res := .here w.loc (refs + 1) } ∈ (t.extent w.vol w.ext).versions := by
  have hrun : s.sup.op ≠ .halted := by
    rw [hop]
    nofun
  obtain ⟨a, ha⟩ : ∃ a : State, a = { s with sent := [] } := ⟨_, rfl⟩
  have hadam : a.damaged w.vol w.ext = false := by rw [ha]; exact (eligible_parts hel).1
  have hax : a.versionAt w.vol w.ext w.birth w.loc = some x := by rw [ha]; exact hx
  have hael : a.eligible w.vol w.ext w.birth w.loc w.forced = true := by rw [ha]; exact hel
  have hafree : a.placeFree v.owner (.verify w.n) = true := by rw [ha]; exact hfree
  obtain ⟨b, hb, hmoved, hlinks, hversions⟩ := incRef_versions hadam (carries_of_versionAt hax)
  obtain ⟨i, hi⟩ : ∃ i : WorkItem, i = { w with state := .issued, received := [], differed := [], codes := x.codes } :=
    ⟨_, rfl⟩
  obtain ⟨m, hm⟩ : ∃ m, m = b.modItem w.n fun y =>
    { y with state := .issued, received := [], differed := [], codes := x.codes } := ⟨_, rfl⟩
  have hbpat : b.pat = s.pat := hmoved.pat.trans (by rw [ha])
  have hmwork : m.pat.work = [i] := by
    rw [hm, hi]
    exact modItem_single (by rw [hbpat, hwork]) _
  have hissue : a.issueVerify w v.owner =
      m.handDirective v.owner .pull (.verify w.n) [(w.vol, w.ext, w.loc)] (.pull w.loc 0 16 true) [] := by
    unfold State.issueVerify
    rw [if_neg (by rw [hafree]; exact Bool.noConfusion), hb, hax, hm]
  have hmlink : m.link v.owner = s.link v.owner := by
    have h : m.links = s.links := by
      rw [hm]
      exact hlinks.trans (by rw [ha])
    exact State.link_congr h v.owner
  obtain ⟨hdirs, htx, hidle⟩ := handDirective_spec (s := m) (l := v.owner) (k := .pull) (who := .verify w.n)
    (refs := [(w.vol, w.ext, w.loc)]) (b := .pull w.loc 0 16 true) (chunks := [])
  have hhand := handDirective_eq m v.owner .pull (.verify w.n) [(w.vol, w.ext, w.loc)] (.pull w.loc 0 16 true) []
  rw [exec_verifyingPull hop hwork hst hel hv, ← ha, hissue]
  generalize m.handDirective v.owner .pull (.verify w.n) [(w.vol, w.ext, w.loc)] (.pull w.loc 0 16 true) [] = z at *
  have hzparts : z.sup = s.sup ∧ z.tally = s.tally ∧ z.cat = b.cat ∧ z.pat = m.pat ∧ m.pat.folds = s.pat.folds ∧
      m.pat.repairs = s.pat.repairs ∧ m.pat.clearing = s.pat.clearing := by
    have hbsup : b.sup = s.sup := hmoved.sup.trans (by rw [ha])
    have hbtally : b.tally = s.tally := hmoved.tally.trans (by rw [ha])
    rw [hhand, hm, ← hbsup, ← hbtally, ← hbpat]
    exact ⟨rfl, rfl, rfl, rfl, rfl, rfl, rfl⟩
  obtain ⟨zsup, ztally, zcat, zpat, mfolds, mrep, mclear⟩ := hzparts
  have hzwork : z.pat.work = [i] := by rw [zpat, hmwork]
  have hifields : i.n = w.n ∧ i.vol = w.vol ∧ i.ext = w.ext ∧ i.birth = w.birth ∧ i.loc = w.loc ∧ i.forced = w.forced ∧
      i.state = .issued := by
    rw [hi]
    exact ⟨rfl, rfl, rfl, rfl, rfl, rfl, rfl⟩
  obtain ⟨hin, hivol, hiext, hibirth, hiloc, hiforced, histate⟩ := hifields
  have hzel : z.eligible i.vol i.ext i.birth i.loc i.forced = true := by
    have hbz : z.eligible w.vol w.ext w.birth w.loc w.forced = b.eligible w.vol w.ext w.birth w.loc w.forced := by
      unfold State.eligible
      rw [damaged_of_volumes (congrArg Catalogue.volumes zcat), volume_congr (congrArg Catalogue.volumes zcat),
        versionAt_of_cat (congrArg Catalogue.extents zcat)]
    rw [hivol, hiext, hibirth, hiloc, hiforced, hbz, eligible_moved hmoved, hael]
  have hstill : z.tallyStill := by
    unfold State.tallyStill
    rw [ztally]
    exact htally
  obtain ⟨fpat, fcat, -, flinks⟩ := item_finish (by rw [zsup]; exact hrun) hstill hzwork (by rw [zpat, mfolds, hfolds])
    (by rw [zpat, mrep, hrep]) (by rw [zpat, mclear, hclear]) (decideItem_underWay hzwork hzel (.inl histate))
  have hlink : z.finish.link v.owner = z.link v.owner := State.link_congr flinks v.owner
  refine ⟨z.finish, m.newDirective v.owner .pull (.verify w.n) [(w.vol, w.ext, w.loc)], rfl, ?_, ?_, rfl, rfl, rfl,
    ?_, ?_, ?_⟩
  · rw [fpat, hzwork, hi]
  · rw [hlink, hdirs, hmlink]
  · rw [hlink]
    exact htx
  · rw [hlink, hidle]
  · rw [State.extent, fcat, zcat]
    change _ ∈ (b.extent w.vol w.ext).versions
    rw [hversions, ← modRefs_here (f := (· + 1)) hres]
    exact List.mem_map_of_mem (List.mem_of_find?_eq_some hax)

end

end Sys2Proof.Machine
end

section
/-! SUPPORT. Repair requests and the records they open (R163, R164, R166). -/

namespace Sys2Proof.Machine

section
variable {s t u : State} {vol ext birth loc n : Nat} {st : RepairState} {r : Repair} {x : Version} {q : RepairReq}

/-! ### What an opening touches -/

/-- Links, frames sent, extent records, repair records and the offsite link alone differ, and of the offsite link
neither the night's lists nor the frames outstanding. -/
structure RepairOpening (s t : State) : Prop where
  frame : t = { s with
    links := t.links, sent := t.sent, off := t.off, cat := { s.cat with extents := t.cat.extents }
    pat := { s.pat with repairs := t.pat.repairs } }
  night : t.off.queue = s.off.queue ∧ t.off.plan = s.off.plan ∧ t.off.pulls = s.off.pulls ∧
    t.off.outstanding = s.off.outstanding

namespace RepairOpening

theorem refl (s : State) : RepairOpening s s := ⟨rfl, rfl, rfl, rfl, rfl⟩

theorem trans (h : RepairOpening s t) (k : RepairOpening t u) : RepairOpening s u := by
  have hframe := k.frame
  rw [h.frame] at hframe
  obtain ⟨hqueue, hplan, hpulls, hout⟩ := h.night
  obtain ⟨kqueue, kplan, kpulls, kout⟩ := k.night
  exact ⟨hframe, kqueue.trans hqueue, kplan.trans hplan, kpulls.trans hpulls, kout.trans hout⟩

theorem parts (h : RepairOpening s t) : t.sup = s.sup ∧ t.tally = s.tally ∧ t.str = s.str ∧
    t.cat.volumes = s.cat.volumes ∧ t.pat = { s.pat with repairs := t.pat.repairs } := by
  rw [h.frame]
  exact ⟨rfl, rfl, rfl, rfl, rfl⟩

theorem of_off (h : t = { s with sent := t.sent, off := t.off })
    (hoff : t.off.queue = s.off.queue ∧ t.off.plan = s.off.plan ∧ t.off.pulls = s.off.pulls ∧
      t.off.outstanding = s.off.outstanding) : RepairOpening s t := by
  refine ⟨?_, hoff⟩
  rw [h]

end RepairOpening

theorem foldl_linksOnly {α : Type} {g : State → α → State} (hg : ∀ u a, g u a = { u with links := (g u a).links })
    (as : List α) (s : State) : as.foldl g s = { s with links := (as.foldl g s).links } := by
  induction as generalizing s with
  | nil => rfl
  | cons a as ih => rw [List.foldl_cons, ih, hg]

theorem restoreReact_frame (s : State) (vol ext birth : Nat) (st : RepairState) :
    s.restoreReact vol ext birth st = { s with links := (s.restoreReact vol ext birth st).links } := by
  unfold State.restoreReact
  split
  · exact foldl_linksOnly (fun _ _ => rfl) allLinks s
  · rfl

/-- A version that turns SUSPECT or REPAIRING leaves the Ship Queue (R129). -/
theorem shipReact_noted (hst : st = .suspect ∨ st = .repairing) (vol ext birth : Nat) :
    s.shipReact vol ext birth st = s := by
  unfold State.shipReact
  split
  · rcases hst with rfl | rfl <;> rfl
  · rfl

theorem repairOpening_setRepair (hst : st = .suspect ∨ st = .repairing) (s : State) (vol ext birth loc : Nat) :
    RepairOpening s (s.setRepair vol ext birth loc st) := by
  unfold State.setRepair
  split
  · exact RepairOpening.refl s
  · split
    · exact RepairOpening.refl s
    · rw [shipReact_noted hst]
      rw [restoreReact_frame]
      unfold State.writeRepair
      rw [changeVersion_frame]
      exact ⟨rfl, rfl, rfl, rfl, rfl⟩

theorem repairOpening_askRoom (s : State) (h : FetchHolder) (es : List FetchEntry) (atHead : Bool) :
    RepairOpening s (s.askRoom h es atHead) := by
  unfold State.askRoom
  split
  · unfold State.placeFetch State.askOpening
    split
    · exact RepairOpening.of_off rfl ⟨rfl, rfl, rfl, rfl⟩
    · exact RepairOpening.of_off rfl ⟨rfl, rfl, rfl, rfl⟩
  · exact RepairOpening.of_off rfl ⟨rfl, rfl, rfl, rfl⟩

theorem askRoom_cat (s : State) (h : FetchHolder) (es : List FetchEntry) (atHead : Bool) :
    (s.askRoom h es atHead).cat = s.cat := by
  unfold State.askRoom State.placeFetch State.askOpening
  split
  · split <;> rfl
  · rfl

/-- Room asked for where none waits and there is room: the entries take their places (R150). -/
theorem askRoom_placed {h : FetchHolder} {es : List FetchEntry} {atHead : Bool} (hwait : s.off.roomWaits = [])
    (hroom : s.off.fetchQueue.length + s.fetchesOut + es.length ≤ 32) :
    (s.askRoom h es atHead).off.fetchQueue = placeIn s.off.fetchQueue es atHead ∧
      (s.askRoom h es atHead).off.roomWaits = [] := by
  have hfirst : s.firstRoom = none := by
    unfold State.firstRoom
    rw [hwait]
    rfl
  have hfits : s.fetchRoom es.length = true := decide_eq_true hroom
  unfold State.askRoom
  rw [if_pos (by rw [hfirst, hfits]; rfl)]
  unfold State.placeFetch State.askOpening
  split
  · exact ⟨rfl, hwait⟩
  · exact ⟨rfl, hwait⟩

/-- Repair entries placed at the tail of a queue that holds only such (R150). -/
theorem placeIn_repairs {fs es : List FetchEntry} (hfs : ∀ e ∈ fs, e.isRepair = true)
    (hes : ∀ e ∈ es, e.isRepair = true) :
    placeIn fs es false = fs ++ es := by
  have hreps : ∀ {gs : List FetchEntry}, (∀ e ∈ gs, e.isRepair = true) →
      gs.filter FetchEntry.isRepair = gs ∧ (gs.filter fun e => !e.isRepair) = [] := fun h =>
    ⟨List.filter_eq_self.mpr h, List.filter_eq_nil_iff.mpr fun e he => by rw [h e he]; exact Bool.false_ne_true⟩
  unfold placeIn
  dsimp only
  rw [(hreps hfs).1, (hreps hfs).2, (hreps hes).1, (hreps hes).2, if_neg Bool.false_ne_true]
  exact List.append_nil _

/-! ### Chunks fetched -/

/-- A record with the chunks of some indexes at the offsite source (R164). -/
def Repair.fetching (idxs : List Nat) (r : Repair) : Repair :=
  { r with
    chunks := mapIf (fun c => idxs.contains c.idx) (fun c => { c with src := .offsite, progress := .fetching })
      r.chunks }

theorem fetching_cons (i : Nat) (is : List Nat) (r : Repair) :
    (r.fetching [i]).fetching is = r.fetching (i :: is) := by
  unfold Repair.fetching mapIf
  refine congrArg (fun cs => { r with chunks := cs }) ?_
  rw [List.map_map]
  refine List.map_congr_left fun c _ => ?_
  rw [Function.comp_apply]
  by_cases hi : c.idx = i
  · simp [hi]
  · simp [hi]

theorem fetching_nil (r : Repair) : r.fetching [] = r := by
  unfold Repair.fetching mapIf
  simp

theorem modChunk_eq (s : State) (n i : Nat) :
    (s.modChunk n i fun c => { c with src := .offsite, progress := .fetching }) =
      { s with pat.repairs := tmod s.pat.repairs n (Repair.fetching [i]) } := by
  unfold State.modChunk State.modRepair Repair.fetching mapIf
  simp only [List.contains_cons, List.contains_nil, Bool.or_false]

/-- The only version of an extent has no twin (R164). -/
theorem twinOf_none (hv : (s.extent r.vol r.ext).versions = [x]) (hb : x.birth = r.birth) (hl : x.loc = some r.loc)
    (i : Nat) : s.twinOf r i = none := by
  unfold State.twinOf
  rw [State.repairVersion, versionAt_single hv hb hl]
  dsimp only
  rw [hv, List.find?_cons_of_neg (by simp)]
  rfl

/-- A chunk of the only version of an extent, shipped, taken up: it is fetched (R164). -/
theorem startChunk_fetched (hrep : s.pat.repairs = [(n, r)]) (hv : (s.extent r.vol r.ext).versions = [x])
    (hb : x.birth = r.birth) (hl : x.loc = some r.loc) (hshipped : x.shipped = true) (i : Nat) :
    s.startChunk n i = ((s.leavePlaces (.repair n i)).modChunk n i fun c =>
      { c with src := .offsite, progress := .fetching }).askRoom (.repair n) [r.fetchEntry n x i] false := by
  unfold State.startChunk
  rw [repair_single hrep]
  dsimp only
  rw [twinOf_none hv hb hl, if_neg fun h => Bool.noConfusion h]
  unfold State.chunkOffsite
  rw [repair_single hrep]
  dsimp only
  rw [State.repairVersion, versionAt_single hv hb hl]
  dsimp only
  rw [hshipped, if_pos rfl]

/-- The chunks of a record taken up, all of a shipped version without a twin (R164). -/
theorem startChunks_fetched (is : List Nat) (hrep : s.pat.repairs = [(n, r)])
    (hv : (s.extent r.vol r.ext).versions = [x]) (hb : x.birth = r.birth) (hl : x.loc = some r.loc)
    (hshipped : x.shipped = true) :
    RepairOpening s (is.foldl (fun s i => s.startChunk n i) s) ∧
      (is.foldl (fun s i => s.startChunk n i) s).pat.repairs = [(n, r.fetching is)] ∧
      ((is.foldl (fun s i => s.startChunk n i) s).extent r.vol r.ext).versions = [x] ∧
      (s.off.roomWaits = [] → (∀ e ∈ s.off.fetchQueue, e.isRepair = true) →
        s.off.fetchQueue.length + s.fetchesOut + is.length ≤ 32 →
        (is.foldl (fun s i => s.startChunk n i) s).off.fetchQueue = s.off.fetchQueue ++ is.map (r.fetchEntry n x) ∧
          (is.foldl (fun s i => s.startChunk n i) s).off.roomWaits = []) := by
  induction is generalizing s r with
  | nil =>
    refine ⟨RepairOpening.refl s, ?_, hv, fun hwait _ _ => ⟨(List.append_nil _).symm, hwait⟩⟩
    rw [fetching_nil]
    exact hrep
  | cons i is ih =>
    obtain ⟨a, ha⟩ : ∃ a, a = (s.leavePlaces (.repair n i)).modChunk n i fun c =>
      { c with src := .offsite, progress := .fetching } := ⟨_, rfl⟩
    have haframe : a = { s with
        links := (s.leavePlaces (.repair n i)).links, pat := { s.pat with repairs := [(n, r.fetching [i])] } } := by
      rw [ha, modChunk_eq, leavePlaces_frame]
      dsimp only
      rw [hrep, tmod_single]
    have haopen : RepairOpening s a := by
      rw [haframe]
      exact ⟨rfl, rfl, rfl, rfl, rfl⟩
    have hparts : a.cat = s.cat ∧ a.off = s.off ∧ a.pat.repairs = [(n, r.fetching [i])] := by
      rw [haframe]
      exact ⟨rfl, rfl, rfl⟩
    obtain ⟨acat, aoff, arep⟩ := hparts
    have hstart := startChunk_fetched hrep hv hb hl hshipped i
    rw [← ha] at hstart
    obtain ⟨b, hbdef⟩ : ∃ b, b = a.askRoom (.repair n) [r.fetchEntry n x i] false := ⟨_, rfl⟩
    have hbopen : RepairOpening a b := hbdef ▸ repairOpening_askRoom a (.repair n) [r.fetchEntry n x i] false
    have hbcat : b.cat = s.cat := by
      rw [hbdef]
      exact (askRoom_cat a _ _ _).trans acat
    have hbrep : b.pat.repairs = [(n, r.fetching [i])] := by
      rw [hbdef, (askRoom_spec a (.repair n) [r.fetchEntry n x i] false).2.2.1, arep]
    have hbv : (b.extent (r.fetching [i]).vol (r.fetching [i]).ext).versions = [x] := by
      rw [State.extent, hbcat]
      exact hv
    obtain ⟨topen, trep, tv, tplaced⟩ := ih hbrep hbv hb hl
    rw [List.foldl_cons, hstart, ← hbdef]
    refine ⟨(haopen.trans hbopen).trans topen, ?_, tv, fun hwait hreps hroom => ?_⟩
    · rw [trep, fetching_cons]
    · have hone : [r.fetchEntry n x i].length = 1 := rfl
      have hlen : (i :: is).length = is.length + 1 := rfl
      have hfetches : a.fetchesOut = s.fetchesOut := by rw [State.fetchesOut, aoff, State.fetchesOut]
      obtain ⟨hqueue, hwaits⟩ := askRoom_placed (s := a) (h := .repair n) (es := [r.fetchEntry n x i]) (atHead := false)
        (by rw [aoff, hwait]) (by rw [hfetches, aoff]; omega)
      have hsingle : ∀ e ∈ [r.fetchEntry n x i], e.isRepair = true := fun e he => by
        rw [List.mem_singleton.mp he]
        rfl
      rw [← hbdef, aoff, placeIn_repairs hreps hsingle] at hqueue
      rw [← hbdef] at hwaits
      have hbfetches : b.fetchesOut = s.fetchesOut := by
        have hout : b.off.outstanding = s.off.outstanding :=
          hbopen.night.2.2.2.trans (congrArg Offsite.outstanding aoff)
        rw [State.fetchesOut, hout, State.fetchesOut]
      obtain ⟨tqueue, twaits⟩ := tplaced hwaits (fun e he => by
        rw [hqueue] at he
        rcases List.mem_append.mp he with he | he
        · exact hreps e he
        · exact hsingle e he) (by rw [hqueue, hbfetches, List.length_append]; omega)
      refine ⟨?_, twaits⟩
      rw [tqueue, hqueue, List.append_assoc]
      rfl

/-! ### A record opened -/

/-- The record that a chunk request opens, its chunks fetched (R163, R164). -/
def RepairReq.fetched (q : RepairReq) : Repair :=
  { vol := q.vol, ext := q.ext, birth := q.birth, loc := q.loc, whole := false
    chunks := q.idxs.map fun i => { idx := i, src := .offsite, progress := .fetching, refetched := false }
    becomeWhole := false, lost := false, abandoned := false }

/-- The record that a request opens, before its chunks are taken up (R163). -/
def RepairReq.record (q : RepairReq) : Repair :=
  { vol := q.vol, ext := q.ext, birth := q.birth, loc := q.loc, whole := q.whole
    chunks := q.idxs.map fun i => { idx := i, src := .twin, progress := .twinWait, refetched := false }
    becomeWhole := false, lost := false, abandoned := false }

theorem record_fetching (hwhole : q.whole = false) : q.record.fetching q.idxs = q.fetched := by
  unfold Repair.fetching RepairReq.record RepairReq.fetched mapIf
  dsimp only
  rw [hwhole, List.map_map]
  refine congrArg (fun cs => Repair.mk q.vol q.ext q.birth q.loc false cs false false false)
    (List.map_congr_left fun i hi => ?_)
  exact if_pos (List.contains_iff_mem.mpr hi)

/-- The site of a request: its extent holds one version, the one it names, and its record is whole. -/
structure RepairSite (s : State) (q : RepairReq) (x : Version) : Prop where
  damaged : s.damaged q.vol q.ext = false
  versions : (s.extent q.vol q.ext).versions = [x]
  birth : x.birth = q.birth
  loc : x.loc = some q.loc

namespace RepairSite

theorem versionAt (h : RepairSite s q x) : s.versionAt q.vol q.ext q.birth q.loc = some x :=
  versionAt_single h.versions h.birth h.loc

/-- A repair state set at the site. -/
theorem setRepair (h : RepairSite s q x) (st : RepairState) :
    RepairSite (s.setRepair q.vol q.ext q.birth q.loc st) q { x with repair := st } := by
  obtain ⟨-, -, hvol, -⟩ := setRepair_parts (st := st) h.damaged h.versionAt
  exact ⟨(damaged_of_volumes hvol q.vol q.ext).trans h.damaged, setRepair_single h.damaged h.versions h.birth h.loc,
    h.birth, h.loc⟩

end RepairSite

/-- A version of the only record freed last: record 0 is opened first (R163). -/
theorem freeRepair_first (h : s.pat.repairs = []) : s.freeRepair = some 0 := by
  unfold State.freeRepair State.repair
  rw [h]
  rfl

/-- A request with no record open and none waiting, for a version that may still be repaired (R163). -/
theorem requestRepair_opens (h : RepairSite s q x) (hrep : s.pat.repairs = []) (hwait : s.pat.waiting = [])
    (hx : x.repair = .sound ∨ x.repair = .suspect) :
    ∃ b, s.requestRepair q = (b.openRepair 0 q).checkRepair 0 ∧ RepairOpening s b ∧ b.pat = s.pat ∧
      RepairSite b q { x with repair := .suspect } ∧ b.off = s.off ∧
        (∀ l : Link, (b.link l).directives = (s.link l).directives) := by
  obtain ⟨b, hb⟩ : ∃ b, b = if x.repair = .sound then s.setRepair q.vol q.ext q.birth q.loc .suspect else s := ⟨_, rfl⟩
  have hspec : RepairOpening s b ∧ b.pat = s.pat ∧ RepairSite b q { x with repair := .suspect } ∧ b.off = s.off ∧
      ∀ l : Link, (b.link l).directives = (s.link l).directives := by
    rcases hx with hx | hx
    · rw [hx, if_pos rfl] at hb
      rw [hb]
      obtain ⟨-, hpat, -⟩ := setRepair_parts (st := .suspect) h.damaged h.versionAt
      refine ⟨repairOpening_setRepair (.inl rfl) s _ _ _ _, hpat, h.setRepair .suspect, ?_,
        directives_of_settles (settles_setRepair _ _ _ _ _ (Settles.refl s))⟩
      rcases setRepair_spec (st := .suspect) h.damaged h.versionAt with ⟨-, heq⟩ | ⟨hne, -⟩
      · rw [heq]
      · unfold State.setRepair
        rw [h.versionAt]
        dsimp only
        rw [h.damaged, if_neg (fun hno => hno.elim (fun h => Bool.noConfusion h) hne), shipReact_noted (.inl rfl)]
        rw [restoreReact_frame]
        unfold State.writeRepair
        rw [changeVersion_frame]
    · rw [hx, if_neg (by nofun)] at hb
      rw [hb]
      refine ⟨RepairOpening.refl s, rfl, ?_, rfl, fun _ => rfl⟩
      rw [← hx]
      exact h
  obtain ⟨hopen, hpat, hsite, hoff, hdirs⟩ := hspec
  refine ⟨b, ?_, hopen, hpat, hsite, hoff, hdirs⟩
  have hnot : x.repair ≠ .unrepairable := by
    rcases hx with hx | hx <;> rw [hx] <;> nofun
  have hbrep : b.pat.repairs = [] := by rw [hpat, hrep]
  unfold State.requestRepair
  rw [h.versionAt]
  dsimp only
  rw [h.damaged, if_neg Bool.false_ne_true, if_neg hnot, ← hb]
  have hnone : b.repairOf q.vol q.ext q.birth = none := by
    unfold State.repairOf
    rw [hbrep]
    rfl
  rw [hnone]
  dsimp only
  rw [hpat, hwait, List.any_nil, if_neg Bool.false_ne_true, freeRepair_first hbrep]

/-- A record whose chunks are being fetched stands. -/
theorem checkRepair_fetching (hrep : s.repair n = some r) (hnot : r.abandoned = false) (hlost : r.lost = false)
    (hbecome : r.becomeWhole = false) (hc : ∃ c ∈ r.chunks, c.progress = .fetching) : s.checkRepair n = s := by
  unfold State.checkRepair
  rw [hrep]
  dsimp only
  by_cases hbusy : s.repairBusy n = true
  · rw [if_pos hbusy]
  · rw [if_neg hbusy, hnot, if_neg Bool.false_ne_true, hlost, if_neg Bool.false_ne_true, hbecome,
      if_neg Bool.false_ne_true, if_neg]
    intro hall
    obtain ⟨c, hmem, hp⟩ := hc
    have hthis := List.all_eq_true.mp hall c hmem
    rw [hp] at hthis
    exact Bool.false_ne_true hthis

/-- The record of a request placed, its version REPAIRING (R163). -/
def State.recorded (s : State) (q : RepairReq) : State :=
  (s.setRepair q.vol q.ext q.birth q.loc .repairing).modPat fun p => { p with repairs := tput p.repairs 0 q.record }

theorem recorded_spec (h : RepairSite s q x) (hrep : s.pat.repairs = []) :
    RepairOpening s (s.recorded q) ∧ (s.recorded q).pat.repairs = [(0, q.record)] ∧
      RepairSite (s.recorded q) q { x with repair := .repairing } ∧
      (s.recorded q).off.fetchQueue = s.off.fetchQueue ∧ (s.recorded q).off.roomWaits = s.off.roomWaits ∧
      ∀ l : Link, ((s.recorded q).link l).directives = (s.link l).directives := by
  obtain ⟨-, hpat, -⟩ := setRepair_parts (st := .repairing) h.damaged h.versionAt
  obtain ⟨-, hfetch, hroom⟩ := setRepair_fetches s q.vol q.ext q.birth q.loc .repairing
  have hopen := repairOpening_setRepair (.inr rfl) s q.vol q.ext q.birth q.loc
  have hsite := h.setRepair .repairing
  have hdirs := directives_of_settles (settles_setRepair q.vol q.ext q.birth q.loc .repairing (Settles.refl s))
  unfold State.recorded
  generalize s.setRepair q.vol q.ext q.birth q.loc .repairing = b at hpat hfetch hroom hopen hsite hdirs ⊢
  refine ⟨hopen.trans ⟨rfl, rfl, rfl, rfl, rfl⟩, ?_, ⟨hsite.damaged, hsite.versions, hsite.birth, hsite.loc⟩, hfetch,
    hroom, hdirs⟩
  change tput b.pat.repairs 0 q.record = _
  rw [hpat, hrep]
  rfl

/-- A chunk request for the only version of an extent, shipped: a record of chunks being fetched (R163, R164). -/
theorem requestRepair_chunks (h : RepairSite s q x) (hrep : s.pat.repairs = []) (hwait : s.pat.waiting = [])
    (hx : x.repair = .sound ∨ x.repair = .suspect) (hwhole : q.whole = false) (hidxs : q.idxs ≠ [])
    (hshipped : x.shipped = true) :
    RepairOpening s (s.requestRepair q) ∧ (s.requestRepair q).pat.repairs = [(0, q.fetched)] ∧
      ((s.requestRepair q).extent q.vol q.ext).versions = [{ x with repair := .repairing }] ∧
      (s.off.roomWaits = [] → s.off.fetchQueue = [] → s.off.outstanding = [] → q.idxs.length ≤ 32 →
        (s.requestRepair q).off.fetchQueue = q.idxs.map (fun i =>
          { holder := .repair 0, vol := q.vol, ext := q.ext, birth := q.birth, idx := some i, code := x.codeAt i }) ∧
        (s.requestRepair q).off.roomWaits = []) := by
  obtain ⟨b, heq, hopen, hpat, hsite, hoff, -⟩ := requestRepair_opens h hrep hwait hx
  obtain ⟨ropen, rrep, rsite, rfetch, rroom, -⟩ := recorded_spec hsite (by rw [hpat, hrep])
  have hrecord : b.openRepair 0 q = q.idxs.foldl (fun s i => s.startChunk 0 i) (b.recorded q) := by
    unfold State.openRepair
    dsimp only
    rw [hwhole, if_neg Bool.false_ne_true]
    unfold State.recorded RepairReq.record
    rw [hwhole]
  obtain ⟨copen, crep, cv, cplaced⟩ := startChunks_fetched q.idxs rrep rsite.versions rsite.birth rsite.loc hshipped
  rw [← hrecord] at copen crep cv cplaced
  rw [record_fetching hwhole] at crep
  have hcheck : (b.openRepair 0 q).checkRepair 0 = b.openRepair 0 q := by
    obtain ⟨i, hi⟩ := List.exists_mem_of_ne_nil _ hidxs
    exact checkRepair_fetching (repair_single crep) rfl rfl rfl ⟨_, List.mem_map_of_mem hi, rfl⟩
  rw [heq, hcheck]
  refine ⟨(hopen.trans ropen).trans copen, crep, cv, fun hw hq hout hlen => ?_⟩
  have hfetches : (b.recorded q).fetchesOut = 0 := by
    rw [State.fetchesOut, ropen.night.2.2.2, hoff, hout]
    rfl
  have hqueue : (b.recorded q).off.fetchQueue = [] := by rw [rfetch, hoff, hq]
  obtain ⟨tqueue, twaits⟩ := cplaced (by rw [rroom, hoff, hw]) (fun e he => by rw [hqueue] at he; cases he)
    (by rw [hqueue, hfetches, List.length_nil]; omega)
  rw [hqueue, List.nil_append] at tqueue
  exact ⟨tqueue, twaits⟩

end

end Sys2Proof.Machine
end

section
/-! SUPPORT. O53: the outcome of a verifying pull (R162), and WHOLE repairs that open (R163, R166). -/

namespace Sys2Proof.Machine

section
variable {s t u a b : State} {w : WorkItem} {x : Version} {l : Link} {n tag refs : Nat} {r : Repair} {q : RepairReq}
  {d : Directive} {cause : PullCause} {ws : List WorkItem}

/-! ### WHOLE repairs -/

/-- A WHOLE record, its chunks being fetched (R166). -/
def RepairReq.wholeFetched (q : RepairReq) : Repair :=
  { vol := q.vol, ext := q.ext, birth := q.birth, loc := q.loc, whole := true
    chunks := (List.range 16).map fun i => { idx := i, src := .offsite, progress := .fetching, refetched := false }
    becomeWhole := false, lost := false, abandoned := false }

/-- A record turned WHOLE (R166). -/
def Repair.turnedWhole (r : Repair) : Repair :=
  { r with
    whole := true, becomeWhole := false
    chunks := (List.range 16).map fun i => { idx := i, src := .offsite, progress := .fetching, refetched := false } }

/-- A record turned WHOLE, its fetches, slots and waits for places taken from it (R166). -/
def State.cleared (s : State) (n : Nat) : State :=
  (((s.withdrawFetch (.repair n)).freeHolder (.repair n)).leaveRepairPlaces n).modRepair n Repair.turnedWhole

theorem cleared_spec (hrep : s.pat.repairs = [(n, r)]) : (s.cleared n).sup = s.sup ∧ (s.cleared n).tally = s.tally ∧
    (s.cleared n).cat = s.cat ∧ (s.cleared n).pat = { s.pat with repairs := [(n, r.turnedWhole)] } ∧
    (s.off.outstanding = [] → (s.cleared n).off.outstanding = []) := by
  obtain ⟨ls, hls⟩ : ∃ ls, ((s.withdrawFetch (.repair n)).freeHolder (.repair n)).leaveRepairPlaces n =
      { (s.withdrawFetch (.repair n)).freeHolder (.repair n) with links := ls } := ⟨_, leaveRepairPlaces_frame _ n⟩
  unfold State.cleared
  rw [hls]
  refine ⟨rfl, rfl, rfl, ?_, fun h => ?_⟩
  · change { s.pat with repairs := tmod s.pat.repairs n Repair.turnedWhole } = _
    rw [hrep, tmod_single]
  · change s.off.outstanding.map _ = []
    rw [h]
    rfl

/-- A record that opens or turns WHOLE: a shipped version's chunks are fetched, and another's end is decided (R166). -/
theorem startWhole_single (hrep : s.pat.repairs = [(n, r)]) (hv : (s.extent r.vol r.ext).versions = [x])
    (hb : x.birth = r.birth) (hl : x.loc = some r.loc) :
    s.startWhole n = if x.shipped then (s.cleared n).askRoom (.repair n) ((List.range 16).map (r.fetchEntry n x)) false
      else (s.cleared n).loseRepair n := by
  obtain ⟨-, -, hcat, -⟩ := cleared_spec hrep
  have hat : (s.cleared n).repairVersion r = some x := by
    refine (versionAt_of_cat (congrArg Catalogue.extents hcat) r.vol r.ext r.birth r.loc).trans ?_
    exact versionAt_single hv hb hl
  unfold State.startWhole
  rw [repair_single hrep]
  dsimp only
  change (match (s.cleared n).repairVersion r with
    | none => s.cleared n
    | some v => if v.shipped then (s.cleared n).askRoom (.repair n) ((List.range 16).map (r.fetchEntry n v)) false
      else (s.cleared n).loseRepair n) = _
  rw [hat]

/-- A record given up makes its version UNREPAIRABLE (R166). -/
theorem loseRepair_site (hrep : s.pat.repairs = [(n, r)]) (h : RepairSite s q x)
    (hr : r.vol = q.vol ∧ r.ext = q.ext ∧ r.birth = q.birth ∧ r.loc = q.loc) :
    RepairSite (s.loseRepair n) q { x with repair := .unrepairable } := by
  obtain ⟨hvol, hext, hbirth, hloc⟩ := hr
  have hdef : s.loseRepair n = (s.stripped n).setRepair q.vol q.ext q.birth q.loc .unrepairable := by
    unfold State.loseRepair
    rw [repair_single hrep]
    dsimp only
    rw [hvol, hext, hbirth, hloc]
    rfl
  have hcat : (s.stripped n).cat = s.cat := by
    unfold State.stripped
    rw [leaveRepairPlaces_frame]
    rfl
  rw [hdef]
  refine RepairSite.setRepair ⟨?_, ?_, h.birth, h.loc⟩ .unrepairable
  · rw [damaged_of_volumes (congrArg Catalogue.volumes hcat), h.damaged]
  · rw [State.extent, hcat]
    exact h.versions

/-- What a whole-version request for the only version of an extent leaves: of a shipped version a WHOLE record with its
chunks being fetched, and of another the record ended at once (R163, R166, R167). -/
structure WholeAsked (s t : State) (q : RepairReq) (x : Version) : Prop where
  tally : t.tally = s.tally
  work : t.pat.work = s.pat.work
  folds : t.pat.folds = s.pat.folds
  clearing : t.pat.clearing = s.pat.clearing
  damaged : t.damaged q.vol q.ext = false
  shipped : x.shipped = true → t.pat.repairs = [(0, q.wholeFetched)] ∧
    (t.extent q.vol q.ext).versions = [{ x with repair := .repairing }]
  other : x.shipped = false → t.pat.repairs = [] ∧ t.sup.raised[9]? = (s.sup.raised[9]?).map countUp ∧
    (t.extent q.vol q.ext).versions = [{ x with repair := .unrepairable }]

theorem requestRepair_whole (h : RepairSite s q x) (htally : s.tallyStill) (hrep : s.pat.repairs = [])
    (hwait : s.pat.waiting = []) (hx : x.repair = .sound ∨ x.repair = .suspect) (hwhole : q.whole = true)
    (hfolds : s.pat.folds = []) (hclear : s.pat.clearing = false)
    (hdirs : ∀ l : Link, (s.link l).directives = []) (hout : s.off.outstanding = []) :
    WholeAsked s (s.requestRepair q) q x := by
  have htkept : (s.requestRepair q).tally = s.tally := tallyKept_requestRepair q rfl
  obtain ⟨b, heq, hopen, hpat, hsite, hoff, hbdirs⟩ := requestRepair_opens h hrep hwait hx
  obtain ⟨ropen, rrep, rsite, -, -, rdirs⟩ := recorded_spec hsite (by rw [hpat, hrep])
  have hso := hopen.trans ropen
  obtain ⟨cso, cto, -, cvo, cpo⟩ := hso.parts
  have hopened : b.openRepair 0 q = (b.recorded q).startWhole 0 := by
    unfold State.openRepair
    dsimp only
    rw [hwhole, if_pos rfl]
    unfold State.recorded RepairReq.record
    rw [hwhole]
  have hstart := startWhole_single rrep rsite.versions rsite.birth rsite.loc
  rw [← hopened] at hstart
  have hcopen : (b.recorded q).off.outstanding = [] := hso.night.2.2.2.trans hout
  have hcdirs : ∀ l : Link, ((b.recorded q).link l).directives = [] := fun l =>
    (rdirs l).trans ((hbdirs l).trans (hdirs l))
  rw [heq] at htkept ⊢
  generalize b.recorded q = c at *
  obtain ⟨ksup, ktally, kcat, kpat, kout⟩ := cleared_spec rrep
  have hkrep : (c.cleared 0).pat.repairs = [(0, q.wholeFetched)] := by
    rw [kpat]
    rfl
  have hksite : RepairSite (c.cleared 0) q { x with repair := .repairing } :=
    ⟨(damaged_of_volumes (congrArg Catalogue.volumes kcat) _ _).trans rsite.damaged,
      by rw [State.extent, kcat]; exact rsite.versions, rsite.birth, rsite.loc⟩
  have hkdirs : ∀ l : Link, ((c.cleared 0).link l).directives = [] := fun l => by
    refine (directives_of_settles (s := c) ?_ l).trans (hcdirs l)
    unfold State.cleared
    exact settles_modRepair _ _ (settles_leaveRepairPlaces _ (settles_freeHolder _ (settles_withdrawFetch _
      (Settles.refl c))))
  have hkpat : (c.cleared 0).pat = { s.pat with repairs := [(0, q.wholeFetched)] } := by
    rw [kpat, cpo]
    rfl
  replace kout := kout hcopen
  replace ksup := ksup.trans cso
  replace ktally := ktally.trans cto
  generalize c.cleared 0 = k at *
  by_cases hshipped : x.shipped = true
  · obtain ⟨es, hes⟩ : ∃ es, b.openRepair 0 q = k.askRoom (.repair 0) es false := ⟨_, hstart.trans (if_pos hshipped)⟩
    obtain ⟨-, -, apat, -⟩ := askRoom_spec k (.repair 0) es false
    have acat := askRoom_cat k (.repair 0) es false
    rw [← hes] at apat acat
    clear hstart hes
    generalize b.openRepair 0 q = z at *
    have hzrep : z.pat.repairs = [(0, q.wholeFetched)] := by rw [apat, hkrep]
    have hcheck : z.checkRepair 0 = z :=
      checkRepair_fetching (repair_single hzrep) rfl rfl rfl
        ⟨_, List.mem_map_of_mem (List.mem_range.mpr (show 0 < 16 from Nat.lt_of_sub_eq_succ rfl)), rfl⟩
    rw [hcheck] at htkept ⊢
    have hzpat : z.pat = { s.pat with repairs := [(0, q.wholeFetched)] } := apat.trans hkpat
    refine ⟨htkept, by rw [hzpat], by rw [hzpat], by rw [hzpat], ?_, fun _ => ⟨hzrep, ?_⟩,
      fun hno => absurd (hno.symm.trans hshipped) Bool.false_ne_true⟩
    · rw [damaged_of_volumes (congrArg Catalogue.volumes acat), hksite.damaged]
    · rw [State.extent, acat]
      exact hksite.versions
  · replace hstart : b.openRepair 0 q = k.loseRepair 0 := hstart.trans (if_neg hshipped)
    have hlone : LoneRecord s.pat.work k 0 q.wholeFetched := by
      refine ⟨?_, hkrep, ?_, ?_, ?_, ?_, rfl, hksite.damaged, ⟨_, hksite.versionAt⟩, hkdirs, kout⟩
      · unfold State.tallyStill
        rw [ktally]
        exact htally
      · rw [hkpat]
      · rw [hkpat, hfolds]
      · rw [hkpat, hwait]
      · rw [hkpat, hclear]
    obtain ⟨hlost, hlsup⟩ := hlone.givenUp
    have hlsite := loseRepair_site hkrep hksite ⟨rfl, rfl, rfl, rfl⟩
    rw [← hstart] at hlost hlsup hlsite
    rw [hlost.checkRepair_eq rfl (.inl rfl)] at htkept ⊢
    generalize b.openRepair 0 q = z at *
    have hended := endRepair_ended (rec := 0) hlost.waiting hlost.damaged hlsite.versionAt
    have hunrep : z.repairWritten q.wholeFetched.givenUp = z.setRepair q.vol q.ext q.birth q.loc .unrepairable :=
      if_neg fun h => Bool.noConfusion (h.symm.trans (outcome_givenUp q.wholeFetched))
    have hfinal := hlsite.setRepair .unrepairable
    have hcat := hended.written
    rw [hunrep] at hcat
    refine ⟨htkept, ?_, ?_, ?_, ?_, fun hno => absurd hno hshipped, fun _ => ⟨?_, ?_, ?_⟩⟩
    · rw [hended.pat]
      exact hlost.work
    · rw [hended.pat]
      exact hlost.folds.trans hfolds.symm
    · rw [hended.pat]
      exact hlost.clearing.trans hclear.symm
    · rw [damaged_of_volumes (congrArg Catalogue.volumes hcat), hfinal.damaged]
    · rw [hended.pat, hlost.repairs]
      exact tdel_single 0 q.wholeFetched.givenUp
    · rw [hended.raised, hlsup, ksup]
    · rw [State.extent, hcat]
      exact hfinal.versions

/-! ### The end of a step with a record that stands -/

theorem settlePatrol_standing (hwork : s.pat.work = []) (hfolds : s.pat.folds = []) (hclear : s.pat.clearing = false)
    (hrep : s.pat.repairs = [(n, r)]) (hnot : r.abandoned = false) (hd : s.damaged r.vol r.ext = false)
    (hx : s.repairVersion r = some x) (hcheck : s.checkRepair n = s) : s.settlePatrol = s := by
  have habandon : (s.abandonIf fun r => s.damaged r.vol r.ext || (s.repairVersion r).isNone) = s := by
    unfold State.abandonIf
    rw [hrep, List.filter_cons_of_neg]
    · rfl
    · simp [hnot, hd, hx]
  have hone : (s.pat.repairs.map Prod.fst).foldl State.checkRepair s = s := by
    rw [hrep]
    exact hcheck
  have hrecords : s.checkRepairs = s := iter_fixed hone _
  unfold State.settlePatrol
  dsimp only
  rw [habandon, hrecords, hfolds]
  dsimp only [List.foldl]
  rw [hwork]
  dsimp only [List.map, List.foldl]
  exact endClearing_none hclear

/-- The link's settling leaves the Fetch Queue while none waits for room. -/
theorem settleLink_fetchQueue (hwait : s.off.roomWaits = []) : s.settleLink.off.fetchQueue = s.off.fetchQueue := by
  have hone : ∀ u : State, u.redirectOnce.off.fetchQueue = u.off.fetchQueue := fun u => by
    unfold State.redirectOnce State.chooseDir State.modOff
    dsimp only
    repeat' split
    all_goals rfl
  have hroom : s.clearShed.serveRoom = s.clearShed := by
    unfold State.serveRoom
    rw [show s.clearShed.off.roomWaits = [] from hwait]
    rfl
  unfold State.settleLink
  rw [hroom]
  exact iter_keeps (P := fun u => u.off.fetchQueue = s.off.fetchQueue) (fun u hu => (hone u).trans hu) 3 rfl

end

end Sys2Proof.Machine
end

section
/-! SUPPORT. O53: the end of a verifying pull (R162). -/

namespace Sys2Proof.Machine

section
variable {s t u a b : State} {w : WorkItem} {x : Version} {l : Link} {n tag refs : Nat} {r : Repair} {q : RepairReq}
  {d : Directive} {cause : PullCause} {ws : List WorkItem}

/-- The indexes of a verifying pull that did not arrive, or arrived unequal (R162). -/
def WorkItem.bad (w : WorkItem) : List Nat :=
  (List.range 16).filter fun i => w.differed.contains i || !(w.received.contains i)

/-- The repair request that the outcome of a verifying pull makes (R162). -/
def WorkItem.request (w : WorkItem) (whole : Bool) : RepairReq :=
  { vol := w.vol, ext := w.ext, birth := w.birth, loc := w.loc, idxs := if whole then [] else w.bad, whole := whole }

/-- The version of an item found equal: verified, and SOUND where the item was forced (R162). -/
def State.verifiedItem (s : State) (w : WorkItem) : State :=
  if w.forced then
    (s.setVerified w.vol w.ext w.birth w.loc).setRepair w.vol w.ext w.birth w.loc .sound
  else s.setVerified w.vol w.ext w.birth w.loc

/-- The outcome of a verifying pull that its answer ends (R162). -/
theorem verifyEnded_answered (hwork : s.pat.work = [w]) (hcause : cause = .ended ∨ cause = .failed)
    (hel : s.eligible w.vol w.ext w.birth w.loc w.forced = true) (whole : Bool)
    (hwhole : whole = (decide (cause ≠ .ended) || decide (5 ≤ w.bad.length))) :
    s.verifyEnded w.n cause = ((if whole = false ∧ w.bad = [] then (s.freeAllOf (.verify w.n)).verifiedItem w
      else (s.freeAllOf (.verify w.n)).requestRepair (w.request whole)).leaveItem w.n) := by
  have hreset : cause ≠ .reset := by rcases hcause with h | h <;> rw [h] <;> nofun
  have hlimit : cause ≠ .limit := by rcases hcause with h | h <;> rw [h] <;> nofun
  have hel' : ¬ (s.freeAllOf (.verify w.n)).eligible w.vol w.ext w.birth w.loc w.forced = false := fun h =>
    Bool.noConfusion (h.symm.trans hel)
  unfold State.verifyEnded
  rw [item_single hwork]
  dsimp only
  rw [if_neg hreset, if_neg (fun h => hlimit h.1), if_neg hel', hwhole]
  rfl

theorem exec_pullEnd (hrun : s.sup.op ≠ .halted) (hup : (s.link l).up = true) :
    Sys2Proof.Machine.exec (.pullEnd l tag) s = .next (((({ s with sent := [] } : State).modLink l fun r =>
      { r with up := true, badRun := 0 }).pullAnswer l tag .ended).tryEndNight.finish) := by
  have harr := arrive_up (s := { s with sent := [] }) (l := l) hup
  change execPullEnd l tag s [] = _
  unfold execPullEnd
  refine (act_running _ hrun).trans (congrArg Host.Outcome.next ?_)
  rw [harr]
  exact withErrs_nil _ hrun

theorem exec_pullFail (hrun : s.sup.op ≠ .halted) (hup : (s.link l).up = true) :
    Sys2Proof.Machine.exec (.pullFail l tag) s = .next (((({ s with sent := [] } : State).modLink l fun r =>
      { r with up := true, badRun := 0 }).pullAnswer l tag .failed).tryEndNight.finish) := by
  have harr := arrive_up (s := { s with sent := [] }) (l := l) hup
  change execPullFail l tag s [] = _
  unfold execPullFail
  refine (act_running _ hrun).trans (congrArg Host.Outcome.next ?_)
  rw [harr]
  exact withErrs_nil _ hrun

/-- The answer of a verifying pull that the outcome is taken of. -/
def PullCause.answer (cause : PullCause) (l : Link) (tag : Nat) : Instr :=
  match cause with
  | .ended => .pullEnd l tag
  | _ => .pullFail l tag

theorem tryEndNight_none (h : s.nightEnding = false) : s.tryEndNight = s := by
  rw [tryEndNight_eq, if_neg]
  unfold State.nightIsOver
  rw [h]
  exact Bool.false_ne_true

/-- One item stands alone at the Patrol Unit, its pull no longer out, and its version with it. -/
structure LoneItem (s : State) (w : WorkItem) (x : Version) : Prop where
  tally : s.tallyStill
  work : s.pat.work = [w]
  folds : s.pat.folds = []
  repairs : s.pat.repairs = []
  waiting : s.pat.waiting = []
  clearing : s.pat.clearing = false
  attached : (s.volume w.vol).isSome = true
  damaged : s.damaged w.vol w.ext = false
  versions : (s.extent w.vol w.ext).versions = [x]
  birth : x.birth = w.birth
  loc : x.loc = some w.loc
  state : x.repair = if w.forced then .suspect else .sound
  directives : ∀ l : Link, (s.link l).directives = []
  frames : s.off.outstanding = []

namespace LoneItem

theorem site (h : LoneItem s w x) (whole : Bool) : RepairSite s (w.request whole) x :=
  ⟨h.damaged, h.versions, h.birth, h.loc⟩

theorem eligible (h : LoneItem s w x) : s.eligible w.vol w.ext w.birth w.loc w.forced = true := by
  unfold State.eligible
  rw [h.damaged, h.attached, versionAt_single h.versions h.birth h.loc]
  dsimp only
  rw [h.state]
  cases w.forced <;> rfl

theorem sound_or_suspect (h : LoneItem s w x) : x.repair = .sound ∨ x.repair = .suspect := by
  rw [h.state]
  cases w.forced
  · exact .inl rfl
  · exact .inr rfl

end LoneItem

/-- The state in which the outcome of a verifying pull is taken (R162). -/
theorem verifyAnswer_lone (hrun : s.sup.op ≠ .halted) (htally : s.tallyStill) (hwork : s.pat.work = [w])
    (hfolds : s.pat.folds = []) (hrep : s.pat.repairs = []) (hwait : s.pat.waiting = [])
    (hclear : s.pat.clearing = false)
    (hup : (s.link l).up = true) (hl : (s.link l).directives = [d])
    (hothers : ∀ k, k ≠ l → (s.link k).directives = []) (hout : s.off.outstanding = []) (hkind : d.kind = .pull)
    (hissuer : d.issuer = .verify w.n) (hrefs : d.refs = [(w.vol, w.ext, w.loc)])
    (hvol : (s.volume w.vol).isSome = true) (hd : s.damaged w.vol w.ext = false)
    (hx : (s.extent w.vol w.ext).versions = [x]) (hb : x.birth = w.birth) (hres : x.res = .here w.loc refs)
    (hstate : x.repair = if w.forced then .suspect else .sound) (hcause : cause = .ended ∨ cause = .failed) :
    ∃ u, Sys2Proof.Machine.exec (cause.answer l d.tag) s = .next ((u.verifyEnded w.n cause).tryEndNight.finish) ∧
      LoneItem u w { x with res := .here w.loc (refs - 1) } ∧ u.sup = s.sup ∧ u.off = s.off := by
  obtain ⟨a, ha⟩ : ∃ a, a = ({ s with sent := [] } : State).modLink l fun r => { r with up := true, badRun := 0 } :=
    ⟨_, rfl⟩
  have hdir : a.directive l d.tag = some d := by
    rw [ha, directive_arrived]
    unfold State.directive
    change ((s.link l).directives.find? _) = _
    rw [hl]
    exact List.find?_cons_of_pos (beq_self_eq_true d.tag)
  have hanswer : a.pullAnswer l d.tag cause = (a.directiveGone l d).verifyEnded w.n cause := by
    unfold State.pullAnswer
    rw [matching_of hdir hkind]
    dsimp only
    unfold State.failDirective
    rw [hissuer]
    rfl
  have hexec : Sys2Proof.Machine.exec (cause.answer l d.tag) s =
      .next (((a.directiveGone l d).verifyEnded w.n cause).tryEndNight.finish) := by
    rw [← hanswer, ha]
    rcases hcause with rfl | rfl
    · exact exec_pullEnd hrun hup
    · exact exec_pullFail hrun hup
  have hal : (a.link l).directives = [d] := by
    rw [ha, State.link_modLink_self]
    exact hl
  have haothers : ∀ k, k ≠ l → (a.link k).directives = [] := fun k hk => by
    rw [ha, State.link_modLink, if_neg (Ne.symm hk)]
    exact hothers k hk
  have hparts : a.sup = s.sup ∧ a.tally = s.tally ∧ a.pat = s.pat ∧ a.cat = s.cat ∧ a.off = s.off := by
    rw [ha]
    exact ⟨rfl, rfl, rfl, rfl, rfl⟩
  obtain ⟨asup, atally, apat, acat, aoff⟩ := hparts
  obtain ⟨e, he⟩ : ∃ e, e = (a.endDirective l d.tag).freeAllOf (.gone l d.tag) := ⟨_, rfl⟩
  have hecat : e.cat = s.cat := by
    rw [he]
    exact acat
  have hcarries : (e.extent w.vol w.ext).carries w.loc = true := by
    unfold Extent.carries
    rw [State.extent, hecat]
    change (s.extent w.vol w.ext).versions.any _ = true
    rw [hx, List.any_cons, loc_of_here hres]
    simp
  have hversions : ((a.directiveGone l d).extent w.vol w.ext).versions =
      [{ x with res := .here w.loc (refs - 1) }] := by
    have hgone : a.directiveGone l d = e.decRef w.vol w.ext w.loc := by
      unfold State.directiveGone
      rw [← he, hrefs]
      rfl
    rw [hgone, decRef_carried hcarries]
    unfold State.modVolume
    refine (congrArg Extent.versions (extent_setExtent_self e w.vol w.ext _)).trans ?_
    dsimp only
    rw [State.extent, hecat]
    change (s.extent w.vol w.ext).versions.map _ = _
    rw [hx, List.map_cons, List.map_nil, modRefs_here (f := (· - 1)) hres]
  obtain ⟨hmoved, -, -⟩ := directiveGone_spec a l d
  have hdirs : ∀ j : Link, ((a.directiveGone l d).link j).directives = [] :=
    directives_ended (w := (a.endDirective l d.tag).freeAllOf (.gone l d.tag)) d.refs hal haothers rfl
  have hrest : (a.directiveGone l d).tally = s.tally ∧ (a.directiveGone l d).pat = s.pat ∧
      (a.directiveGone l d).off = s.off ∧ (a.directiveGone l d).sup = s.sup :=
    ⟨hmoved.tally.trans atally, hmoved.pat.trans apat, hmoved.off.trans aoff, hmoved.sup.trans asup⟩
  have hattached : ((a.directiveGone l d).volume w.vol).isSome = true := by
    obtain ⟨f, hf⟩ := hmoved.volume w.vol
    rw [hf, Option.isSome_map]
    change (a.volume w.vol).isSome = true
    rw [volume_congr (congrArg Catalogue.volumes acat), hvol]
  have hdam : (a.directiveGone l d).damaged w.vol w.ext = false := by
    rw [hmoved.damaged]
    change a.damaged w.vol w.ext = false
    rw [damaged_of_volumes (congrArg Catalogue.volumes acat), hd]
  generalize a.directiveGone l d = u at *
  obtain ⟨utally, upat, uoff, usup⟩ := hrest
  refine ⟨u, hexec, ⟨?_, ?_, ?_, ?_, ?_, ?_, hattached, hdam, hversions, hb, rfl, hstate, hdirs, ?_⟩, usup, uoff⟩
  · unfold State.tallyStill
    rw [utally]
    exact htally
  · rw [upat, hwork]
  · rw [upat, hfolds]
  · rw [upat, hrep]
  · rw [upat, hwait]
  · rw [upat, hclear]
  · rw [uoff, hout]

/-- The slots of an item freed. -/
theorem LoneItem.freed (h : LoneItem s w x) : LoneItem (s.freeAllOf (.verify w.n)) w x :=
  ⟨h.tally, h.work, h.folds, h.repairs, h.waiting, h.clearing, h.attached, h.damaged, h.versions, h.birth, h.loc,
    h.state, h.directives, h.frames⟩

/-- What the outcome leaves when its step is over, while no night is ending. -/
theorem outcome_finish {v : State} (hrun : s.sup.op ≠ .halted) (hnight : s.nightEnding = false)
    (hdirs : ∀ l : Link, (s.link l).directives = []) (hv : s.verifyEnded w.n cause = v.leaveItem w.n)
    (htally : v.tallyStill) (hvwork : v.pat.work = [w])
    (hfolds : v.pat.folds = []) (hclear : v.pat.clearing = false)
    (hstands : v.pat.repairs = [] ∨ ∃ n r x, v.pat.repairs = [(n, r)] ∧ r.abandoned = false ∧ r.lost = false ∧
      r.becomeWhole = false ∧ (∃ c ∈ r.chunks, c.progress = .fetching) ∧ v.damaged r.vol r.ext = false ∧
      v.repairVersion r = some x) :
    ∃ t, (s.verifyEnded w.n cause).tryEndNight.finish = t ∧ t.pat = { v.pat with work := [] } ∧ t.cat = v.cat ∧
      t.sup = v.sup ∧ (∀ l : Link, (t.link l).directives = []) ∧
      (v.off.roomWaits = [] → t.off.fetchQueue = v.off.fetchQueue) := by
  have hsettles := settles_verifyEnded w.n cause (Settles.refl s)
  have hphase : (s.verifyEnded w.n cause).off.phase = s.off.phase := by
    obtain ⟨-, -, -, -, ⟨hphase, -⟩, -⟩ := hsettles
    exact hphase
  have hnight' : (s.verifyEnded w.n cause).nightEnding = false := (nightEnding_of_phase hphase).trans hnight
  have hop : (s.verifyEnded w.n cause).sup.op = s.sup.op := (supKept_verifyEnded w.n cause (supKept_refl s.sup)).1
  have hzdirs := directives_of_settles hsettles
  rw [tryEndNight_none hnight']
  rw [hv] at hop hzdirs ⊢
  have hgone := itemsGone_leaveItem v w.n
  have hpat := leaveItem_single hvwork
  generalize v.leaveItem w.n = z at *
  have hz : z.sup = v.sup ∧ z.tally = v.tally ∧ z.cat = v.cat ∧ z.off = v.off := by
    rw [hgone.frame]
    exact ⟨rfl, rfl, rfl, rfl⟩
  obtain ⟨zsup, ztally, zcat, zoff⟩ := hz
  have hzrun : z.sup.op ≠ .halted := hop ▸ hrun
  have hstill : z.tallyStill := by
    unfold State.tallyStill
    rw [ztally]
    exact htally
  have hsettled : z.settlePatrol = z := by
    rcases hstands with hrep | ⟨n, r, x, hrep, hnot, hlost, hbecome, hfetching, hd, hx⟩
    · refine settlePatrol_still ⟨?_, ?_, ?_, ?_⟩ <;> rw [hpat]
      · exact hfolds
      · exact hrep
      · exact hclear
    · have hzrep : z.pat.repairs = [(n, r)] := by rw [hpat, hrep]
      refine settlePatrol_standing (x := x) ?_ ?_ ?_ hzrep hnot ?_ ?_
        (checkRepair_fetching (repair_single hzrep) hnot hlost hbecome hfetching)
      · rw [hpat]
      · rw [hpat, hfolds]
      · rw [hpat, hclear]
      · rw [damaged_of_volumes (congrArg Catalogue.volumes zcat), hd]
      · exact (versionAt_of_cat (congrArg Catalogue.extents zcat) r.vol r.ext r.birth r.loc).trans hx
  refine ⟨z.finish, rfl, ?_⟩
  rw [finish_tallyStill hzrun hstill, hsettled]
  obtain ⟨fsup, flinks, fcat, fpat, -⟩ := settleLink_parts z
  refine ⟨fpat.trans hpat, fcat.trans zcat, fsup.trans zsup, fun l => ?_, fun hroom => ?_⟩
  · rw [State.link_congr flinks l]
    exact (hzdirs l).trans (hdirs l)
  · rw [settleLink_fetchQueue (by rw [zoff, hroom]), zoff]

/-- A version found equal (R162). -/
theorem verifiedItem_spec (h : LoneItem s w x) : (s.verifiedItem w).pat = s.pat ∧ (s.verifiedItem w).sup = s.sup ∧
    (s.verifiedItem w).tally = s.tally ∧
    ((s.verifiedItem w).extent w.vol w.ext).versions = [{ x with verified := s.sup.clock, repair := .sound }] := by
  have hat := (h.site true).versionAt
  obtain ⟨hsup, hpat, hvol, hver⟩ := setVerified_parts h.damaged hat
  have hone : ((s.setVerified w.vol w.ext w.birth w.loc).extent w.vol w.ext).versions =
      [{ x with verified := s.sup.clock }] :=
    changeVersion_single (f := fun y => { y with verified := s.sup.clock }) h.damaged h.versions h.birth h.loc
  have htally : (s.setVerified w.vol w.ext w.birth w.loc).tally = s.tally :=
    (itemsOnly_setVerified s w.vol w.ext w.birth w.loc).parts.2.1
  have hd := (damaged_of_volumes hvol w.vol w.ext).trans h.damaged
  have hstate := h.state
  unfold State.verifiedItem
  cases hforced : w.forced with
  | true =>
    rw [if_pos rfl]
    obtain ⟨ksup, kpat, -, -⟩ := setRepair_parts (st := .sound) hd hver
    exact ⟨kpat.trans hpat, ksup.trans hsup, (tallyKept_setRepair _ _ _ _ _ rfl).trans htally,
      setRepair_single hd hone h.birth h.loc⟩
  | false =>
    rw [if_neg Bool.false_ne_true]
    rw [hforced, if_neg Bool.false_ne_true] at hstate
    refine ⟨hpat, hsup, htally, ?_⟩
    rw [hone, ← hstate]

/-- The outcome of a verifying pull as its answer ends it (R162). -/
theorem verifyAnswer_spec (hrun : s.sup.op ≠ .halted) (htally : s.tallyStill) (hwork : s.pat.work = [w])
    (hfolds : s.pat.folds = []) (hrep : s.pat.repairs = []) (hwait : s.pat.waiting = [])
    (hclear : s.pat.clearing = false)
    (hnight : s.nightEnding = false) (hup : (s.link l).up = true) (hl : (s.link l).directives = [d])
    (hothers : ∀ k, k ≠ l → (s.link k).directives = []) (hout : s.off.outstanding = []) (hqueue : s.off.fetchQueue = [])
    (hroom : s.off.roomWaits = []) (hkind : d.kind = .pull) (hissuer : d.issuer = .verify w.n)
    (hrefs : d.refs = [(w.vol, w.ext, w.loc)]) (hvol : (s.volume w.vol).isSome = true)
    (hd : s.damaged w.vol w.ext = false) (hx : (s.extent w.vol w.ext).versions = [x]) (hb : x.birth = w.birth)
    (hres : x.res = .here w.loc refs) (hstate : x.repair = if w.forced then .suspect else .sound) (bad : List Nat)
    (hbad : bad = (List.range 16).filter (fun i => w.differed.contains i || !(w.received.contains i))) :
    (bad = [] → ∃ t, Sys2Proof.Machine.exec (.pullEnd l d.tag) s = .next t ∧ t.pat.work = [] ∧
      (t.link l).directives = [] ∧ t.pat.repairs = [] ∧ (t.extent w.vol w.ext).versions =
        [{ x with res := .here w.loc (refs - 1), verified := s.sup.clock, repair := .sound }]) ∧
    (bad ≠ [] → bad.length ≤ 4 → x.shipped = true →
      ∃ t, Sys2Proof.Machine.exec (.pullEnd l d.tag) s = .next t ∧ t.pat.work = [] ∧
        (t.link l).directives = [] ∧ t.pat.repairs = [(0,
          { vol := w.vol, ext := w.ext, birth := w.birth, loc := w.loc, whole := false
            chunks := bad.map fun i => { idx := i, src := .offsite, progress := .fetching, refetched := false }
            becomeWhole := false, lost := false, abandoned := false })] ∧
        (t.extent w.vol w.ext).versions = [{ x with res := .here w.loc (refs - 1), repair := .repairing }] ∧
        t.off.fetchQueue = bad.map fun i =>
          { holder := .repair 0, vol := w.vol, ext := w.ext, birth := w.birth, idx := some i,
            code := x.codeAt i }) ∧
    (∀ c, (c = .pullEnd l d.tag ∧ 5 ≤ bad.length) ∨ c = .pullFail l d.tag →
      ∃ t, Sys2Proof.Machine.exec c s = .next t ∧ t.pat.work = [] ∧ (t.link l).directives = [] ∧
        (x.shipped = true → t.pat.repairs = [(0,
            { vol := w.vol, ext := w.ext, birth := w.birth, loc := w.loc, whole := true
              chunks := (List.range 16).map fun i =>
                { idx := i, src := .offsite, progress := .fetching, refetched := false }
              becomeWhole := false, lost := false, abandoned := false })] ∧
          (t.extent w.vol w.ext).versions = [{ x with res := .here w.loc (refs - 1), repair := .repairing }]) ∧
        (x.shipped = false → t.pat.repairs = [] ∧
          t.sup.raised[9]? = (s.sup.raised[9]?).map countUp ∧
          (t.extent w.vol w.ext).versions =
            [{ x with res := .here w.loc (refs - 1), repair := .unrepairable }])) := by
  have hbad' : w.bad = bad := hbad.symm
  have hlone := fun {cause : PullCause} (hcause : cause = .ended ∨ cause = .failed) =>
    verifyAnswer_lone hrun htally hwork hfolds hrep hwait hclear hup hl hothers hout hkind hissuer hrefs hvol hd hx hb
      hres hstate hcause
  refine ⟨fun hnone => ?_, fun hsome hfour hshipped => ?_, fun c hc => ?_⟩
  · obtain ⟨u, hexec, hu, usup, uoff⟩ := hlone (.inl rfl)
    have heq := verifyEnded_answered hu.work (.inl rfl) hu.eligible false (by rw [hbad', hnone]; rfl)
    rw [if_pos ⟨rfl, hbad'.trans hnone⟩] at heq
    obtain ⟨vpat, vsup, vtally, vver⟩ := verifiedItem_spec hu.freed
    have hstill : ((u.freeAllOf (.verify w.n)).verifiedItem w).tallyStill := by
      unfold State.tallyStill
      rw [vtally]
      exact hu.tally
    obtain ⟨t, ht, tpat, tcat, tsup, tdirs, -⟩ := outcome_finish (usup ▸ hrun)
      ((nightEnding_of_phase (congrArg Offsite.phase uoff)).trans hnight) hu.directives heq hstill
      (by rw [vpat]; exact hu.work) (by rw [vpat]; exact hu.folds) (by rw [vpat]; exact hu.clearing)
      (.inl (by rw [vpat]; exact hu.repairs))
    rw [ht] at hexec
    refine ⟨t, hexec, by rw [tpat], tdirs l, ?_, ?_⟩
    · rw [tpat, vpat]
      exact hu.repairs
    · rw [State.extent, tcat]
      refine vver.trans ?_
      rw [show (u.freeAllOf (.verify w.n)).sup.clock = s.sup.clock from congrArg Supervisor.clock usup]
  · obtain ⟨u, hexec, hu, usup, uoff⟩ := hlone (.inl rfl)
    have hfive : ¬ 5 ≤ w.bad.length := by
      rw [hbad']
      omega
    have heq := verifyEnded_answered hu.work (.inl rfl) hu.eligible false (by rw [decide_eq_false hfive]; rfl)
    rw [if_neg (fun h => hsome (hbad'.symm.trans h.2))] at heq
    have hf := hu.freed
    obtain ⟨vopen, vrep, vver, vplaced⟩ := requestRepair_chunks (hf.site false) hf.repairs hf.waiting
      hf.sound_or_suspect rfl (show w.bad ≠ [] from fun h => hsome (hbad'.symm.trans h)) hshipped
    obtain ⟨vqueue, vroom⟩ := vplaced (by rw [← hroom, ← uoff]; rfl) (by rw [← hqueue, ← uoff]; rfl) hf.frames
      (by change w.bad.length ≤ 32; rw [hbad']; omega)
    obtain ⟨vsup, vtally, -, vvols, vpat⟩ := vopen.parts
    generalize (u.freeAllOf (.verify w.n)).requestRepair (w.request false) = v at *
    have hstill : v.tallyStill := by
      unfold State.tallyStill
      rw [vtally]
      exact hu.tally
    obtain ⟨t, ht, tpat, tcat, tsup, tdirs, tqueue⟩ := outcome_finish (usup ▸ hrun)
      ((nightEnding_of_phase (congrArg Offsite.phase uoff)).trans hnight) hu.directives heq hstill
      (by rw [vpat]; exact hu.work) (by rw [vpat]; exact hu.folds) (by rw [vpat]; exact hu.clearing)
      (.inr ⟨0, _, _, vrep, rfl, rfl, rfl, by
        obtain ⟨i, hi⟩ := List.exists_mem_of_ne_nil (w.request false).idxs
          (show w.bad ≠ [] from fun h => hsome (hbad'.symm.trans h))
        exact ⟨_, List.mem_map_of_mem hi, rfl⟩,
        (damaged_of_volumes vvols _ _).trans hf.damaged, versionAt_single vver hf.birth hf.loc⟩)
    rw [ht] at hexec
    refine ⟨t, hexec, by rw [tpat], tdirs l, ?_, ?_, ?_⟩
    · rw [tpat, vrep, ← hbad']
      rfl
    · rw [State.extent, tcat]
      exact vver
    · rw [tqueue vroom, vqueue, ← hbad']
      rfl
  · obtain ⟨cause, hcause, hanswer, hwhole⟩ : ∃ cause : PullCause, (cause = .ended ∨ cause = .failed) ∧
        cause.answer l d.tag = c ∧ true = (decide (cause ≠ .ended) || decide (5 ≤ w.bad.length)) := by
      rcases hc with ⟨rfl, hfive⟩ | rfl
      · exact ⟨.ended, .inl rfl, rfl, by rw [hbad', decide_eq_true hfive]; rfl⟩
      · exact ⟨.failed, .inr rfl, rfl, rfl⟩
    obtain ⟨u, hexec, hu, usup, uoff⟩ := hlone hcause
    rw [hanswer] at hexec
    have heq := verifyEnded_answered hu.work hcause hu.eligible true hwhole
    rw [if_neg (fun h => Bool.noConfusion h.1)] at heq
    have hf := hu.freed
    have hasked := requestRepair_whole (hf.site true) hf.tally hf.repairs hf.waiting hf.sound_or_suspect rfl hf.folds
      hf.clearing hf.directives hf.frames
    generalize (u.freeAllOf (.verify w.n)).requestRepair (w.request true) = v at *
    have hstill : v.tallyStill := by
      unfold State.tallyStill
      rw [hasked.tally]
      exact hu.tally
    have hstands : v.pat.repairs = [] ∨ ∃ n r x, v.pat.repairs = [(n, r)] ∧ r.abandoned = false ∧ r.lost = false ∧
        r.becomeWhole = false ∧ (∃ c ∈ r.chunks, c.progress = .fetching) ∧ v.damaged r.vol r.ext = false ∧
        v.repairVersion r = some x := by
      by_cases hshipped : x.shipped = true
      · obtain ⟨vrep, vver⟩ := hasked.shipped hshipped
        exact .inr ⟨0, _, _, vrep, rfl, rfl, rfl,
          ⟨_, List.mem_map_of_mem (List.mem_range.mpr (show 0 < 16 from Nat.lt_of_sub_eq_succ rfl)), rfl⟩,
          hasked.damaged, versionAt_single vver hf.birth hf.loc⟩
      · obtain ⟨vrep, -⟩ := hasked.other (by simpa using hshipped)
        exact .inl vrep
    obtain ⟨t, ht, tpat, tcat, tsup, tdirs, -⟩ := outcome_finish (usup ▸ hrun)
      ((nightEnding_of_phase (congrArg Offsite.phase uoff)).trans hnight) hu.directives heq hstill
      (hasked.work.trans hu.work) (hasked.folds.trans hu.folds) (hasked.clearing.trans hu.clearing) hstands
    rw [ht] at hexec
    refine ⟨t, hexec, by rw [tpat], tdirs l, fun hshipped => ?_, fun hno => ?_⟩
    · obtain ⟨vrep, vver⟩ := hasked.shipped hshipped
      refine ⟨by rw [tpat, vrep]; rfl, ?_⟩
      rw [State.extent, tcat]
      exact vver
    · obtain ⟨vrep, vraised, vver⟩ := hasked.other hno
      refine ⟨by rw [tpat, vrep], ?_, ?_⟩
      · rw [tsup, vraised]
        exact congrArg (fun y : Supervisor => (y.raised[9]?).map countUp) usup
      · rw [State.extent, tcat]
        exact vver

end

end Sys2Proof.Machine
end

section
/-! PROOF. O53: the patrol walk, its items, their pulls, and the folds into shipping (R155 to R162). -/

namespace Sys2Proof.Machine

section
variable {s t u a b : State} {x : Version} {l : Link} {n tag idx refs : Nat} {d : Directive} {p : ShipPull}
  {y : Slot} {e : ShipEntry} {f : Fold} {data : List Byte}

/-! ### Equal chunks counted -/

theorem eraseDups_nodup {xs : List Nat} (h : xs.Nodup) : xs.eraseDups = xs := by
  induction xs with
  | nil => rfl
  | cons x xs ih =>
    obtain ⟨hx, hxs⟩ := List.nodup_cons.mp h
    rw [List.eraseDups_cons, List.filter_eq_self.mpr fun y hy => ?_, ih hxs]
    have hne : y ≠ x := fun h => hx (h ▸ hy)
    simpa using hne

theorem length_sortBy {α : Type} (lt : α → α → Bool) (xs : List α) : (sortBy lt xs).length = xs.length := by
  induction xs with
  | nil => rfl
  | cons x xs ih => rw [sortBy, length_insertBy, ih, List.length_cons]

theorem length_distinctNat {xs : List Nat} (h : xs.Nodup) : (distinctNat xs).length = xs.length := by
  unfold distinctNat sortNat
  rw [length_sortBy, eraseDups_nodup h]

/-! ### A chunk of a shipping pull beside a fold entry -/

/-- A fold entry of the version of a pull. -/
def Fold.ofPull (f : Fold) (p : ShipPull) : Prop := p.vol = f.vol ∧ p.ext = f.ext ∧ p.birth = f.birth ∧ p.loc = f.loc

/-- A fold entry with one more chunk equal (R161). -/
def Fold.equalled (f : Fold) (idx : Nat) : Fold := { f with equal := distinctNat (idx :: f.equal) }

/-- The arrival of a chunk for a FILLING slot of the only pull, whose entry is the only one of the Ship Queue. -/
structure ChunkArrives (a : State) (p : ShipPull) (idx n : Nat) (y : Slot) (e : ShipEntry) : Prop where
  op : a.sup.op = .active
  phase : a.off.phase = .windowOpen
  pulls : a.off.pulls = [p]
  issued : p.stage = .issued
  slot : a.slotFor (.shipPull p.n) idx = some (n, y)
  filling : y.state = .filling
  queue : a.off.queue = [e]
  pulling : e.state = .pulling p.n
  chunk : e.chunks = [idx]
  kept : a.pullLost p = false

namespace ChunkArrives

theorem nightEnding (h : ChunkArrives a p idx n y e) : a.nightEnding = false := by
  unfold State.nightEnding
  rw [h.phase]

theorem pullEntry (h : ChunkArrives a p idx n y e) (hq : b.off.queue = a.off.queue) : b.pullEntry p idx = some e := by
  unfold State.pullEntry
  rw [hq, h.queue, List.find?_cons_of_pos]
  rw [decide_eq_true h.pulling, decide_eq_true h.chunk]
  rfl

/-- An equal chunk is counted by the fold entries of its version, and its slot and entry go on (R128, R161). -/
theorem shipChunk_equal (h : ChunkArrives a p idx n y e) (hcode : checkCode data = y.expected) :
    SlotsMoved (a.foldEqual p idx) (a.shipChunk p.n idx data) := by
  have hfill : SlotsMoved (a.foldEqual p idx) ((a.fill n data).foldEqual p idx) := ⟨rfl, id⟩
  have hentry : ((a.fill n data).foldEqual p idx).pullEntry p idx = some e := h.pullEntry rfl
  have hend : ((a.fill n data).foldEqual p idx).nightEnding = false := h.nightEnding
  have hlost : ((a.fill n data).foldEqual p idx).pullLost p = false := h.kept
  have hshown : a.shipChunk p.n idx data = ((a.fill n data).foldEqual p idx).shipEqual p e n := by
    unfold State.shipChunk
    rw [find_pull h.pulls, h.slot]
    dsimp only
    rw [if_neg (by rw [h.filling]; exact fun hno => hno rfl), decide_eq_true hcode, if_pos rfl, hentry]
    exact if_pos rfl
  rw [hshown]
  refine hfill.trans ?_
  unfold State.shipEqual
  rw [hend, if_neg Bool.false_ne_true]
  split
  · rw [hlost, if_neg Bool.false_ne_true]
    exact ⟨rfl, id⟩
  · rw [hlost, if_neg Bool.false_ne_true]
    exact SlotsMoved.trans (t := (((a.fill n data).foldEqual p idx).makeFull n).modEntry e.num fun x =>
      { x with state := .ready, slot := some n }) ⟨rfl, id⟩ (slotsMoved_takeBack _)

end ChunkArrives

/-- A fold entry whose sixteenth chunk is equal ends, and its version is verified (R161). -/
theorem checkFold_complete (hel : s.eligible f.vol f.ext f.birth f.loc false = true) (hequal : 16 ≤ f.equal.length) :
    s.checkFold f = (s.modPat fun q => { q with folds := q.folds.filter fun x => decide (x ≠ f) }).setVerified
      f.vol f.ext f.birth f.loc := by
  unfold State.checkFold
  dsimp only
  rw [if_neg (by rw [hel]; exact Bool.noConfusion), if_pos hequal]

/-- The step of the sixteenth equal chunk (R161). -/
theorem foldComplete_finish (hrun : s.sup.op ≠ .halted) (htally : s.tallyStill) (hwork : s.pat.work = [])
    (hfolds : s.pat.folds = [f]) (hrep : s.pat.repairs = []) (hclear : s.pat.clearing = false)
    (hv : (s.volume f.vol).isSome = true) (hd : s.damaged f.vol f.ext = false)
    (hx : (s.extent f.vol f.ext).versions = [x]) (hb : x.birth = f.birth) (hl : x.loc = some f.loc)
    (hsound : x.repair = .sound) (hequal : 16 ≤ f.equal.length) : s.finish.pat.folds = [] ∧
      (s.finish.extent f.vol f.ext).versions = [{ x with verified := s.sup.clock }] := by
  have hat := versionAt_single hx hb hl
  obtain ⟨z, hz⟩ : ∃ z, z = s.modPat fun q => { q with folds := q.folds.filter fun x => decide (x ≠ f) } := ⟨_, rfl⟩
  have hzfolds : z.pat.folds = [] := by
    rw [hz]
    change s.pat.folds.filter _ = []
    rw [hfolds, List.filter_cons_of_neg (by simp)]
    rfl
  have hzd : z.damaged f.vol f.ext = false := by rw [hz]; exact hd
  have hzx : (z.extent f.vol f.ext).versions = [x] := by rw [hz]; exact hx
  have hzclock : z.sup.clock = s.sup.clock := by rw [hz]; rfl
  have hzwork : z.pat.work = [] := by rw [hz]; exact hwork
  obtain ⟨-, vpat, -, -⟩ := setVerified_parts hzd (versionAt_single hzx hb hl)
  have hver : ((z.setVerified f.vol f.ext f.birth f.loc).extent f.vol f.ext).versions =
      [{ x with verified := z.sup.clock }] :=
    changeVersion_single (f := fun y => { y with verified := z.sup.clock }) hzd hzx hb hl
  have hsettle : s.settlePatrol = z.setVerified f.vol f.ext f.birth f.loc := by
    rw [settlePatrol_items hrep hclear, hfolds]
    dsimp only [List.foldl]
    rw [checkFold_complete (eligible_sound hd hv hat hsound false) hequal, ← hz, vpat, hzwork]
    rfl
  rw [finish_tallyStill hrun htally, hsettle]
  generalize z.setVerified f.vol f.ext f.birth f.loc = v at vpat hver ⊢
  obtain ⟨-, -, fcat, fpat, -⟩ := settleLink_parts v
  refine ⟨by rw [fpat, vpat, hzfolds], ?_⟩
  rw [State.extent, fcat, ← hzclock]
  exact hver

/-- A chunk that differs is withheld: its entry is PARKED, its fold entry ends, and its repair is opened (R129). -/
theorem ChunkArrives.withheld (h : ChunkArrives a p idx n y e) (hcode : checkCode data ≠ y.expected)
    (hf : f.ofPull p) (hfolds : a.pat.folds = [f]) (hrep : a.pat.repairs = []) (hwait : a.pat.waiting = [])
    (hd : a.damaged f.vol f.ext = false) (hx : (a.extent f.vol f.ext).versions = [x]) (hb : x.birth = f.birth)
    (hl : x.loc = some f.loc) (hsound : x.repair = .sound) (hshipped : x.shipped = true) :
    ∃ q : RepairReq, q.fetched =
      { vol := f.vol, ext := f.ext, birth := f.birth, loc := f.loc, whole := false
        chunks := [{ idx := idx, src := .offsite, progress := .fetching, refetched := false }]
        becomeWhole := false, lost := false, abandoned := false } ∧
      (a.shipChunk p.n idx data).sup = a.sup ∧ (a.shipChunk p.n idx data).tally = a.tally ∧
      (a.shipChunk p.n idx data).pat = { a.pat with folds := [], repairs := [(0, q.fetched)] } ∧
      (a.shipChunk p.n idx data).slot n = none ∧
      (a.shipChunk p.n idx data).off.queue = [{ e with state := .parked, slot := none }] ∧
      (a.shipChunk p.n idx data).off.plan = a.off.plan ∧ (a.shipChunk p.n idx data).damaged f.vol f.ext = false ∧
      ((a.shipChunk p.n idx data).extent f.vol f.ext).versions = [{ x with repair := .repairing }] := by
  obtain ⟨hvol, hext, hbirth, hloc⟩ := hf
  obtain ⟨b, hbdef⟩ : ∃ b, b = ((a.fill n data).freeSlot n).modEntry e.num fun x =>
    { x with state := .parked, slot := none } := ⟨_, rfl⟩
  have hbparts : b.sup = a.sup ∧ b.tally = a.tally ∧ b.pat = a.pat ∧ b.cat = a.cat ∧ b.slot n = none ∧
      b.off = { a.off with queue := [{ e with state := .parked, slot := none }] } := by
    rw [hbdef]
    refine ⟨rfl, rfl, rfl, rfl, State.slot_freeSlot (a.fill n data) n, ?_⟩
    have hone : mapIf (fun z : ShipEntry => z.num == e.num) (fun z => { z with state := .parked, slot := none })
        a.off.queue = [{ e with state := .parked, slot := none }] := by
      rw [h.queue]
      unfold mapIf
      rw [List.map_cons, if_pos (beq_self_eq_true e.num), List.map_nil]
    rw [← hone]
    rfl
  obtain ⟨bsup, btally, bpat, bcat, bslot, boff⟩ := hbparts
  have hruns : (b.cancelRuns fun q => q.isOf p.vol p.ext p.birth) = b := by
    unfold State.cancelRuns
    rw [boff]
    dsimp only
    rw [h.pulls, List.filter_cons_of_neg (by simp [h.issued])]
    rfl
  obtain ⟨c, hc⟩ : ∃ c, c = { b with pat := { a.pat with folds := [] } } := ⟨_, rfl⟩
  obtain ⟨q, hq⟩ : ∃ q : RepairReq, q =
      { vol := p.vol, ext := p.ext, birth := p.birth, loc := p.loc, idxs := [idx], whole := false } := ⟨_, rfl⟩
  have hparked : (b.modOff fun o =>
      { o with
        queue := mapIf (fun z => z.isOf p.vol p.ext p.birth && decide (z.state = .unpulled))
          (fun z => { z with state := .parked }) o.queue }) = b := by
    have hqueue : mapIf (fun z : ShipEntry => z.isOf p.vol p.ext p.birth && decide (z.state = .unpulled))
        (fun z => { z with state := .parked }) b.off.queue = b.off.queue := by
      rw [boff]
      unfold mapIf
      rw [List.map_cons, if_neg (by simp), List.map_nil]
    unfold State.modOff
    dsimp only
    rw [hqueue]
  have hreported : b.reportMismatch p idx = c.requestRepair q := by
    unfold State.reportMismatch State.modPat
    dsimp only
    rw [bpat, hfolds, List.filter_cons_of_neg (by simp [hvol, hext, hbirth]), hc, hq]
    rfl
  have hshown : a.shipChunk p.n idx data = c.requestRepair q := by
    have hentry : (a.fill n data).pullEntry p idx = some e := h.pullEntry rfl
    have hlost : ((a.fill n data).freeSlot n).pullLost p = false := h.kept
    have hend : ((a.fill n data).freeSlot n).nightEnding = false := h.nightEnding
    have hhead : e.chunks.headD 0 = idx := by rw [h.chunk]; rfl
    unfold State.shipChunk
    rw [find_pull h.pulls, h.slot]
    dsimp only
    rw [if_neg (by rw [h.filling]; exact fun hno => hno rfl), decide_eq_false hcode, if_neg Bool.false_ne_true, hentry]
    dsimp only
    rw [if_neg Bool.false_ne_true]
    unfold State.withhold
    dsimp only
    rw [hend, hlost, Bool.or_false, if_neg Bool.false_ne_true, ← hbdef, hruns, hparked, hhead, hreported]
  have hcsite : RepairSite c q x := by
    rw [hc, hq]
    refine ⟨?_, ?_, hb.trans hbirth.symm, hl.trans (congrArg some hloc.symm)⟩
    · change b.damaged p.vol p.ext = false
      rw [hvol, hext, damaged_of_volumes (congrArg Catalogue.volumes bcat), hd]
    · change (b.extent p.vol p.ext).versions = [x]
      rw [hvol, hext, State.extent, bcat]
      exact hx
  have hcparts : c.pat = { a.pat with folds := [] } ∧ c.sup = a.sup ∧ c.tally = a.tally ∧ c.off = b.off ∧
      c.str = b.str := by
    rw [hc]
    exact ⟨rfl, bsup, btally, rfl, rfl⟩
  obtain ⟨cpat, csup, ctally, coff, cstr⟩ := hcparts
  obtain ⟨ropen, rrep, rver, -⟩ := requestRepair_chunks hcsite (by rw [cpat, hrep]) (by rw [cpat, hwait]) (.inl hsound)
    (by rw [hq]) (by rw [hq]; exact List.cons_ne_nil _ _) hshipped
  obtain ⟨rsup, rtally, rstr, rvols, rpat⟩ := ropen.parts
  obtain ⟨rqueue, rplan, -, -⟩ := ropen.night
  have hqfields : q.vol = f.vol ∧ q.ext = f.ext := by
    rw [hq]
    exact ⟨hvol, hext⟩
  obtain ⟨hqvol, hqext⟩ := hqfields
  rw [hshown]
  refine ⟨q, ?_, rsup.trans csup, rtally.trans ctally, ?_, ?_, ?_, ?_, ?_, ?_⟩
  · rw [hq, ← hvol, ← hext, ← hbirth, ← hloc]
    rfl
  · rw [rpat, rrep, cpat]
  · rw [State.slot, rstr, cstr]
    exact bslot
  · rw [rqueue, coff, boff]
  · rw [rplan, coff, boff]
  · rw [← hqvol, ← hqext, damaged_of_volumes rvols, hcsite.damaged]
  · rw [← hqvol, ← hqext]
    exact rver

/-- A chunk of a shipping pull whose version has a fold entry (R129, R161). -/
theorem foldChunk_spec (hop : s.sup.op = .active) (htally : s.tallyStill) (hwork : s.pat.work = [])
    (hfolds : s.pat.folds = [f]) (hrep : s.pat.repairs = []) (hwait : s.pat.waiting = [])
    (hclear : s.pat.clearing = false)
    (hup : (s.link l).up = true) (hdir : s.directive l tag = some d) (hkind : d.kind = .pull)
    (hissuer : d.issuer = .shipPull p.n) (hf : f.ofPull p) (hlen : data.length = 262144)
    (harrives : ChunkArrives s p idx n y e) (hv : (s.volume f.vol).isSome = true) (hd : s.damaged f.vol f.ext = false)
    (hx : (s.extent f.vol f.ext).versions = [x]) (hb : x.birth = f.birth) (hl : x.loc = some f.loc)
    (hsound : x.repair = .sound) :
    (checkCode data = y.expected → f.equal.Nodup → f.equal.length = 15 → idx ∉ f.equal →
      ∃ t, Sys2Proof.Machine.exec (.extentData l tag idx data) s = .next t ∧ t.pat.folds = [] ∧
        (t.extent f.vol f.ext).versions = [{ x with verified := s.sup.clock }]) ∧
    (checkCode data ≠ y.expected → x.shipped = true →
      (∀ q ∈ s.off.plan, q.state ≠ .shed ∧ q.state ≠ .failed) →
      ∃ t, Sys2Proof.Machine.exec (.extentData l tag idx data) s = .next t ∧ t.pat.folds = [] ∧
        t.slot n = none ∧ t.off.queue = [{ e with state := .parked, slot := none }] ∧
        t.repair 0 = some
          { vol := f.vol, ext := f.ext, birth := f.birth, loc := f.loc, whole := false
            chunks := [{ idx := idx, src := .offsite, progress := .fetching, refetched := false }]
            becomeWhole := false, lost := false, abandoned := false } ∧
        (t.extent f.vol f.ext).versions = [{ x with repair := .repairing }]) := by
  have hrun : s.sup.op ≠ .halted := by
    rw [hop]
    nofun
  obtain ⟨a, ha⟩ : ∃ a, a = ({ s with sent := [] } : State).modLink l fun r => { r with up := true, badRun := 0 } :=
    ⟨_, rfl⟩
  have hmatch : a.matching l tag .pull = some d := by
    refine matching_of ?_ hkind
    rw [ha, directive_arrived]
    exact hdir
  have hplace : a.placeChunk d idx data = a.shipChunk p.n idx data := by
    unfold State.placeChunk
    rw [hissuer]
  have hexec : Sys2Proof.Machine.exec (.extentData l tag idx data) s = .next (a.shipChunk p.n idx data).finish := by
    rw [exec_extentData hrun hup, if_neg (show ¬ data.length ≠ chunkBytes from not_not.mpr hlen), ← ha, hmatch]
    dsimp only
    rw [hplace]
  have harr : ChunkArrives a p idx n y e := by
    rw [ha]
    exact ⟨hop, harrives.phase, harrives.pulls, harrives.issued, harrives.slot, harrives.filling, harrives.queue,
      harrives.pulling, harrives.chunk, harrives.kept⟩
  have hparts : a.sup = s.sup ∧ a.tally = s.tally ∧ a.pat = s.pat ∧ a.cat = s.cat ∧ a.off = s.off := by
    rw [ha]
    exact ⟨rfl, rfl, rfl, rfl, rfl⟩
  obtain ⟨asup, atally, apat, acat, aoff⟩ := hparts
  have hax : (a.extent f.vol f.ext).versions = [x] := by
    rw [State.extent, acat]
    exact hx
  have had : a.damaged f.vol f.ext = false := (damaged_of_volumes (congrArg Catalogue.volumes acat) _ _).trans hd
  rw [hexec]
  refine ⟨fun hcode hnodup hfifteen hnew => ?_, fun hcode hshipped hplan => ?_⟩
  · obtain ⟨m, hm⟩ : ∃ m, m = a.foldEqual p idx := ⟨_, rfl⟩
    have hmoved := harr.shipChunk_equal hcode
    rw [← hm] at hmoved
    have hmparts : m.sup = s.sup ∧ m.tally = s.tally ∧ m.cat = s.cat ∧
        m.pat = { s.pat with folds := [f.equalled idx] } := by
      have hfoldsEq : mapIf (fun g : Fold => g.vol == p.vol && g.ext == p.ext && g.birth == p.birth)
          (fun g => { g with equal := distinctNat (idx :: g.equal) }) a.pat.folds = [f.equalled idx] := by
        obtain ⟨hvol, hext, hbirth, -⟩ := hf
        rw [apat, hfolds]
        unfold mapIf
        rw [List.map_cons, if_pos (by simp [hvol, hext, hbirth]), List.map_nil]
        rfl
      rw [hm, State.foldEqual, State.modPat, hfoldsEq]
      exact ⟨asup, atally, acat, by rw [apat]⟩
    obtain ⟨msup, mtally, mcat, mpat⟩ := hmparts
    obtain ⟨zsup, -, ztally, zcat, zpat⟩ := hmoved.parts (by rw [mpat]; exact hwork)
    generalize a.shipChunk p.n idx data = z at *
    rw [mpat] at zpat
    have hstill : z.tallyStill := by
      unfold State.tallyStill
      rw [ztally, mtally]
      exact htally
    have hcat : z.cat = s.cat := zcat.trans mcat
    have hequal : (f.equalled idx).equal.length = 16 := by
      refine (length_distinctNat (List.nodup_cons.mpr ⟨hnew, hnodup⟩)).trans ?_
      rw [List.length_cons, hfifteen]
    obtain ⟨tfolds, tver⟩ := foldComplete_finish (f := f.equalled idx) (x := x) (by rw [zsup, msup]; exact hrun) hstill
      (by rw [zpat]; exact hwork) (by rw [zpat]) (by rw [zpat]; exact hrep) (by rw [zpat]; exact hclear)
      ((congrArg Option.isSome (volume_congr (congrArg Catalogue.volumes hcat) f.vol)).trans hv)
      ((damaged_of_volumes (congrArg Catalogue.volumes hcat) _ _).trans hd) (by rw [State.extent, hcat]; exact hx) hb hl
      hsound (by rw [hequal])
    rw [zsup, msup] at tver
    exact ⟨_, rfl, tfolds, tver⟩
  · obtain ⟨q, hq, zsup, ztally, zpat, zslot, zqueue, zplan, zd, zver⟩ := harr.withheld hcode hf
      (by rw [apat, hfolds]) (by rw [apat, hrep]) (by rw [apat, hwait]) had hax hb hl hsound hshipped
    generalize a.shipChunk p.n idx data = z at *
    have hstill : z.tallyStill := by
      unfold State.tallyStill
      rw [ztally, atally]
      exact htally
    have hzrep : z.pat.repairs = [(0, q.fetched)] := by rw [zpat]
    rw [hq] at hzrep
    have hsettle : z.settlePatrol = z := by
      refine settlePatrol_standing ?_ ?_ ?_ hzrep rfl zd (versionAt_single zver hb hl)
        (checkRepair_fetching (repair_single hzrep) rfl rfl rfl ⟨_, List.mem_singleton.mpr rfl, rfl⟩)
      · rw [zpat, apat]
        exact hwork
      · rw [zpat]
      · rw [zpat, apat]
        exact hclear
    have hfinish : z.finish = z.settleLink := by
      rw [finish_tallyStill (by rw [zsup, asup]; exact hrun) hstill, hsettle]
    obtain ⟨-, -, fcat, fpat, fslots⟩ := settleLink_parts z
    refine ⟨_, rfl, ?_, ?_, ?_, ?_, ?_⟩
    · rw [hfinish, fpat, zpat]
    · rw [hfinish, State.slot, fslots]
      exact zslot
    · rw [hfinish, settleLink_queue, clearShed_queue (by rw [zplan, aoff]; exact hplan), zqueue]
    · rw [hfinish]
      exact repair_single (by rw [fpat, hzrep])
    · rw [hfinish, State.extent, fcat]
      exact zver

end

end Sys2Proof.Machine

open Sys2Proof Sys2Proof.Machine

/-- Settles O53: the walk's visit, the decisions of its items, their verifying pulls and the outcome of those, and the
fold entries that shipping completes or a differing chunk ends. -/
theorem patrolPlacesIssuesAndPulls : Obligations.PatrolPlacesIssuesAndPulls := by
  unfold Obligations.PatrolPlacesIssuesAndPulls
  refine ⟨?_, ?_, ?_, ?_, ?_, ?_, ?_⟩
  · intro s vol loc refs v x hop hcalm hwait hvols hvol hd hx hres hsound
    exact patrolWalkVisit_spec hvol hop hcalm hwait hvols hd hx hres hsound
  · intro s hop
    exact exec_patrolWalkVisit_else hop
  · intro s w v x hop htally hwork hfolds hrep hclear hst hforced hv hd hx hsound hlock hidle hpulls hqueue hslots
      hrepair hfetch hpatrol hover
    exact overdue_issued hop htally hwork hfolds hrep hclear hst hforced hv hd hx hsound hlock hidle hpulls hqueue
      hslots hrepair hfetch hpatrol hover
  · intro s w v x refs hop htally hwork hfolds hrep hclear hst hel hv hx hres hup hlen hplaces
    exact verifyingPull_spec hop htally hwork hfolds hrep hclear hst hel hv hx hres (placeFree_of hup hlen hplaces)
  · intro s w v x hrun htally hwork hfolds hrep hclear hst hforced hv hd hx hsound hship
    exact overdue_folds hrun htally hwork hfolds hrep hclear hst hforced hv hd hx hsound hship
  · intro s l tag idx n data d p y e f x refs hop htally hwork hfolds hrep hwait hclear hup hdir hkind hissuer hpulls
      hissued hvol hext hbirth hloc _ hslot hfilling hlen hqueue hpulling hchunk hphase hv hd hx hb hres hsound
    have hkept : s.pullLost p = false := by
      unfold State.pullLost Extent.version
      rw [hvol, hext, hbirth, hx, List.find?_cons_of_pos (by simp [hb])]
      dsimp only
      rw [hsound]
      rfl
    exact foldChunk_spec hop htally hwork hfolds hrep hwait hclear hup hdir hkind hissuer ⟨hvol, hext, hbirth, hloc⟩
      hlen ⟨hop, hphase, hpulls, hissued, hslot, hfilling, hqueue, hpulling, hchunk, hkept⟩ hv hd hx hb
      (loc_of_here hres) hsound
  · intro s l w d x refs hrun htally hwork hfolds hrep hwait hclear hnight _ hup hl hothers hout hqueue hroom hkind
      hissuer hrefs hvol hd hx hb hres hstate bad hbad
    exact verifyAnswer_spec hrun htally hwork hfolds hrep hwait hclear hnight hup hl hothers hout hqueue hroom hkind
      hissuer hrefs hvol hd hx hb hres hstate bad hbad
end

section
/-! PROOF. A double error of the layout block, the settings region or the catalogue region halts the part (R190):
first clause of O9. -/

namespace Sys2Proof.Machine

section
variable {s t u : State}

/-! ### Entry to HALTED -/

/-- A double error that halts the part, and the item its STORE_ERROR names (R190). -/
def HaltsWith (e : StoreError) (item : StoreItem) : Prop :=
  (e = .layout ∧ item = .layout) ∨ (e = .settings ∧ item = .settings) ∨ (e = .catalogue ∧ item = .catalogue)

theorem HaltsWith.meet {e : StoreError} {item : StoreItem} (h : HaltsWith e item) (s : State) :
    s.meet e = s.halt item := by
  rcases h with ⟨rfl, rfl⟩ | ⟨rfl, rfl⟩ | ⟨rfl, rfl⟩ <;> rfl

/-- A link as it hears of a STORE_ERROR: UP and subscribed to its class (R177). -/
def LinkRec.hearsStore (r : LinkRec) : Prop := r.up = true ∧ r.subs.contains 10 = true

theorem receives_storeError {l : Link} (item : StoreItem) (h : (s.link l).hearsStore) :
    s.receives (.storeError item) l = true := by
  obtain ⟨hup, hsub⟩ := h
  unfold State.receives
  rw [hup]
  exact (Bool.and_true _).trans hsub

theorem queueNotice_hears {r : LinkRec} (n : Notice) (h : r.hearsStore) : (r.queueNotice n).hearsStore := by
  unfold LinkRec.queueNotice
  split <;> exact h

theorem modLink_hears {l : Link} {f : LinkRec → LinkRec} (k : Link)
    (hf : ∀ r : LinkRec, r.hearsStore → (f r).hearsStore)
    (h : (s.link l).hearsStore) : ((s.modLink k f).link l).hearsStore := by
  rw [State.link_modLink]
  split
  · exact hf _ h
  · exact h

theorem queueTo_hears (b : NoticeBody) (n : Notice) (ls : List Link) {l : Link} (h : (s.link l).hearsStore) :
    ((State.queueTo b n ls s).link l).hearsStore := by
  induction ls generalizing s with
  | nil => exact h
  | cons k ls ih =>
    unfold State.queueTo
    refine ih ?_
    split
    · exact modLink_hears k (fun r => queueNotice_hears n) h
    · exact h

theorem raise_hears (b : NoticeBody) {l : Link} (h : (s.link l).hearsStore) : ((s.raise b).link l).hearsStore :=
  queueTo_hears _ _ _ h

/-- The notice of a halt as it is kept for the links that receive it (R182). -/
def State.tellHalt (item : StoreItem) (n : Notice) (ls : List Link) (s : State) : State :=
  ls.foldl (fun s l =>
    if s.receives (.storeError item) l then s.modLink l fun r => { r with haltNotice := some n } else s) s

theorem tellHalt_eq (item : StoreItem) (n : Notice) (ls : List Link) (s : State) :
    s.tellHalt item n ls = { s with links := (s.tellHalt item n ls).links } := by
  unfold State.tellHalt
  induction ls generalizing s with
  | nil => rfl
  | cons l ls ih =>
    rw [List.foldl_cons, ih]
    split <;> rfl

theorem tellHalt_cons (item : StoreItem) (n : Notice) (k : Link) (ls : List Link) (s : State) :
    s.tellHalt item n (k :: ls) =
      (if s.receives (.storeError item) k then s.modLink k fun r => { r with haltNotice := some n } else s).tellHalt
        item n ls := rfl

/-- Whoever hears of the error, and stands in the list or has been told, is told. -/
theorem tellHalt_told (item : StoreItem) (n : Notice) (ls : List Link) {l : Link} (h : (s.link l).hearsStore)
    (hin : l ∈ ls ∨ (s.link l).haltNotice = some n) : ((s.tellHalt item n ls).link l).haltNotice = some n := by
  induction ls generalizing s with
  | nil => exact hin.resolve_left (List.not_mem_nil)
  | cons k ls ih =>
    rw [tellHalt_cons]
    by_cases hk : k = l
    · subst hk
      rw [if_pos (receives_storeError item h)]
      refine ih (modLink_hears k (fun r hr => hr) h) (.inr ?_)
      rw [State.link_modLink, if_pos rfl]
    · have hrest : l ∈ ls ∨ (s.link l).haltNotice = some n :=
        hin.imp_left fun hm => (List.mem_cons.mp hm).resolve_left (Ne.symm hk)
      split
      · refine ih (modLink_hears k (fun r hr => hr) h) ?_
        rw [State.link_modLink, if_neg hk]
        exact hrest
      · exact ih h hrest

/-- From one state to another the part has been HALTED over an item: nothing but STORE_ERROR's count, the links and
the state has changed (R190). -/
structure HaltedOver (item : StoreItem) (s t : State) : Prop where
  op : t.sup.op = .halted
  raised : t.sup.raised = modAt s.sup.raised 10 countUp
  blocks : t.tally = s.tally ∧ t.cat = s.cat ∧ t.rst = s.rst ∧ t.str = s.str ∧ t.off = s.off ∧ t.pat = s.pat
  sent : t.sent = s.sent
  told : ∀ l, (s.link l).hearsStore →
    (t.link l).haltNotice = some { clock := s.sup.clock, body := .storeError item }

theorem halt_spec (s : State) (item : StoreItem) : HaltedOver item s (s.halt item) := by
  have hclock : (s.raise (.storeError item)).sup.clock = s.sup.clock := by
    unfold State.raise
    dsimp only
    rw [(queueTo_kept _ _ _ _).2]
    rfl
  have hraised := raise_raised s (.storeError item)
  have hframe := raise_eq s (.storeError item)
  have hhears (l : Link) (h : (s.link l).hearsStore) := raise_hears (.storeError item) h
  have hhalt : s.halt item = ((s.raise (.storeError item)).tellHalt item
      { clock := (s.raise (.storeError item)).sup.clock, body := .storeError item } allLinks).modSup
        fun u => { u with op := .halted } := rfl
  rw [hhalt, hclock]
  generalize s.raise (.storeError item) = v at *
  have htell := tellHalt_eq item { clock := s.sup.clock, body := .storeError item } allLinks v
  have htold (l : Link) (h : (s.link l).hearsStore) := tellHalt_told item
    { clock := s.sup.clock, body := .storeError item } allLinks (hhears l h) (.inl (mem_allLinks l))
  generalize v.tellHalt item { clock := s.sup.clock, body := .storeError item } allLinks = w at *
  refine ⟨rfl, ?_, ?_, ?_, htold⟩
  · rw [htell]
    exact hraised
  · rw [htell, hframe]
    exact ⟨rfl, rfl, rfl, rfl, rfl, rfl⟩
  · rw [htell, hframe]
    rfl

/-! ### The commands that meet it -/

theorem withErrs_haltsWith {e : StoreError} {item : StoreItem} (he : HaltsWith e item) (hrun : s.sup.op ≠ .halted)
    (f : State → State) : withErrs [e] f s = s.halt item := by
  have hmeet : [e].foldl (fun s e => if s.sup.op = .halted then s else s.meet e) s = s.halt item := by
    rw [List.foldl_cons, if_neg hrun, he.meet]
    rfl
  unfold withErrs
  dsimp only
  rw [hmeet, if_pos (halt_spec s item).op]

/-- The commands of O9's first clause meet their error before all else. -/
theorem exec_meets {e : StoreError} {c : Instr} {a b : Nat} (hrun : s.sup.op ≠ .halted)
    (hc : c ∈ [.graceExpiry [e], .nightEnd [e], .castoutDrain [e], .postingApply [e], .restoreStart [e],
      .windowOpening [e], .stepTakeUp a [e], .countWalkVisit a [e], .ack a [e], .doneAck a b [e],
      .dropAck a b [e], .slotGrant [e], .volumeDone [e], .drop [e], .admitReply a [e], .openAck [e],
      .offsiteIdleTimeout [e]]) :
    ∃ f, Sys2Proof.Machine.exec c s = .next (withErrs [e] f { s with sent := [] }) := by
  simp only [List.mem_cons, List.not_mem_nil, or_false] at hc
  rcases hc with rfl | rfl | rfl | rfl | rfl | rfl | rfl | rfl | rfl | rfl | rfl | rfl | rfl | rfl | rfl | rfl | rfl
  case inr.inr.inl =>
    refine ⟨fun u => (if u.tally.castout.head? = s.tally.castout.head? then u.drain else u).finish, ?_⟩
    change execCastoutDrain [e] s = _
    unfold execCastoutDrain
    rw [act_running _ hrun]
  all_goals exact ⟨_, act_running _ hrun⟩

theorem exec_haltsOver {e : StoreError} {item : StoreItem} {c : Instr} {a b : Nat} (hrun : s.sup.op ≠ .halted)
    (he : HaltsWith e item)
    (hc : c ∈ [.graceExpiry [e], .nightEnd [e], .castoutDrain [e], .postingApply [e], .restoreStart [e],
      .windowOpening [e], .stepTakeUp a [e], .countWalkVisit a [e], .ack a [e], .doneAck a b [e],
      .dropAck a b [e], .slotGrant [e], .volumeDone [e], .drop [e], .admitReply a [e], .openAck [e],
      .offsiteIdleTimeout [e]]) :
    ∃ t, Sys2Proof.Machine.exec c s = .next t ∧ HaltedOver item { s with sent := [] } t := by
  obtain ⟨f, hf⟩ := exec_meets hrun hc
  have hrun' : ({ s with sent := [] } : State).sup.op ≠ .halted := hrun
  generalize ({ s with sent := [] } : State) = u at *
  rw [withErrs_haltsWith he hrun' f] at hf
  exact ⟨_, hf, halt_spec u item⟩

/-- First clause of O9. -/
theorem majorError_halts {e : StoreError} {item : StoreItem} {c : Instr} {a b : Nat} (hrun : s.sup.op ≠ .halted)
    (he : HaltsWith e item)
    (hc : c ∈ [.graceExpiry [e], .nightEnd [e], .castoutDrain [e], .postingApply [e], .restoreStart [e],
      .windowOpening [e], .stepTakeUp a [e], .countWalkVisit a [e], .ack a [e], .doneAck a b [e],
      .dropAck a b [e], .slotGrant [e], .volumeDone [e], .drop [e], .admitReply a [e], .openAck [e],
      .offsiteIdleTimeout [e]]) :
    ∃ t, Sys2Proof.Machine.exec c s = .next t ∧ t.sup.op = .halted ∧ t.tally = s.tally ∧ t.cat = s.cat ∧
      t.rst = s.rst ∧ t.str = s.str ∧ t.off = s.off ∧ t.pat = s.pat ∧ t.sent = [] ∧
      t.sup.raised[10]? = (s.sup.raised[10]?).map countUp ∧
      ∀ l : Link, (s.link l).up = true → (s.link l).subs.contains 10 = true →
        (t.link l).haltNotice = some { clock := s.sup.clock, body := .storeError item } := by
  obtain ⟨t, hexec, hover⟩ := exec_haltsOver hrun he hc
  obtain ⟨h1, h2, h3, h4, h5, h6⟩ := hover.blocks
  refine ⟨t, hexec, hover.op, h1, h2, h3, h4, h5, h6, hover.sent, ?_, fun l hup hsub => hover.told l ⟨hup, hsub⟩⟩
  rw [hover.raised, getElem?_modAt, if_pos rfl]

end

end Sys2Proof.Machine
end

section
/-! SUPPORT. The Supervisor's registers stand as the Patrol Unit settles, but for the count of DAMAGE (R167, R177). -/

namespace Sys2Proof.Machine

section
variable {s : State} {sup0 : Supervisor}

/-! ### The Supervisor stands -/

theorem supStands_foldl {α : Type} (f : State → α → State) (xs : List α) {s : State}
    (hf : ∀ s x, s.sup = sup0 → (f s x).sup = sup0) (hs : s.sup = sup0) : (xs.foldl f s).sup = sup0 := by
  induction xs generalizing s with
  | nil => exact hs
  | cons x xs ih => exact ih (hf s x hs)

theorem supStands_iter (n : Nat) (f : State → State) {s : State}
    (hf : ∀ s, s.sup = sup0 → (f s).sup = sup0) (hs : s.sup = sup0) : (iter n f s).sup = sup0 := by
  induction n generalizing s with
  | zero => exact hs
  | succ n ih => exact ih (hf s hs)

theorem supStands_modLink (l : Link) (f : LinkRec → LinkRec) (hs : s.sup = sup0) : (s.modLink l f).sup = sup0 := hs

theorem supStands_send (o : Output) (hs : s.sup = sup0) : (s.send o).sup = sup0 := hs

theorem supStands_setExtent (vol ext : Nat) (e : Extent) (hs : s.sup = sup0) :
    (s.setExtent vol ext e).sup = sup0 := hs

theorem supStands_freeSlot (n : Nat) (hs : s.sup = sup0) : (s.freeSlot n).sup = sup0 := hs

theorem supStands_freeSlotsIf (p : Slot → Bool) (hs : s.sup = sup0) : (s.freeSlotsIf p).sup = sup0 := hs

theorem supStands_modPlan (vol : Nat) (f : PlanVol → PlanVol) (hs : s.sup = sup0) : (s.modPlan vol f).sup = sup0 := hs

theorem supStands_modRepair (n : Nat) (f : Repair → Repair) (hs : s.sup = sup0) : (s.modRepair n f).sup = sup0 := hs

theorem supStands_modItem (n : Nat) (f : WorkItem → WorkItem) (hs : s.sup = sup0) : (s.modItem n f).sup = sup0 := hs

theorem supStands_busy (l : Link) (hs : s.sup = sup0) : (s.busy l).sup = sup0 := by
  unfold State.busy
  repeat' first
    | with_reducible assumption
    | with_reducible refine supStands_modLink _ _ ?_

theorem supStands_leavePlaces (who : Issuer) (hs : s.sup = sup0) : (s.leavePlaces who).sup = sup0 := by
  unfold State.leavePlaces
  repeat' first
    | with_reducible assumption
    | with_reducible refine supStands_foldl _ _ (fun _ _ _ => ?_) ?_
    | with_reducible refine supStands_modLink _ _ ?_

theorem supStands_changeVersion (vol ext birth : Nat) (p : Version → Bool) (f : Version → Version) (hs : s.sup = sup0) :
    (s.changeVersion vol ext birth p f).sup = sup0 := by
  unfold State.changeVersion
  repeat' first
    | with_reducible assumption
    | with_reducible apply supStands_setExtent
    | split

theorem supStands_setVerified (vol ext birth loc : Nat) (hs : s.sup = sup0) : (s.setVerified vol ext birth loc).sup =
    sup0 := by
  unfold State.setVerified
  repeat' first
    | with_reducible assumption
    | with_reducible apply supStands_changeVersion

theorem supStands_writeRepair (vol ext birth loc : Nat) (st : RepairState) (hs : s.sup = sup0) :
    (s.writeRepair vol ext birth loc st).sup = sup0 := by
  unfold State.writeRepair
  repeat' first
    | with_reducible assumption
    | with_reducible apply supStands_changeVersion

theorem supStands_setWaiting (c : SlotClass) (q : List SlotReq) (hs : s.sup = sup0) :
    (s.setWaiting c q).sup = sup0 := by
  unfold State.setWaiting
  repeat' first
    | with_reducible assumption
    | split

theorem supStands_grantSlot (c : SlotClass) (h : SlotHolder) (w : Nat × Code) (hs : s.sup = sup0) :
    (State.grantSlot c h s w).sup = sup0 := hs

theorem supStands_grant (c : SlotClass) (r : SlotReq) (hs : s.sup = sup0) : (s.grant c r).sup = sup0 := by
  unfold State.grant
  repeat' first
    | with_reducible assumption
    | with_reducible apply supStands_grantSlot
    | with_reducible apply supStands_modItem
    | split
    | with_reducible refine supStands_foldl _ _ (fun _ _ _ => ?_) ?_

theorem supStands_enqueue (c : SlotClass) (r : SlotReq) (hs : s.sup = sup0) : (s.enqueue c r).sup = sup0 := by
  unfold State.enqueue
  repeat' first
    | with_reducible assumption
    | with_reducible apply supStands_setWaiting
    | split

theorem supStands_considerOnce (hs : s.sup = sup0) : (s.considerOnce).sup = sup0 := by
  unfold State.considerOnce
  repeat' first
    | with_reducible assumption
    | with_reducible apply supStands_grant
    | with_reducible apply supStands_setWaiting
    | split

theorem supStands_consider (hs : s.sup = sup0) : (s.consider).sup = sup0 := by
  unfold State.consider
  repeat' first
    | with_reducible assumption
    | with_reducible apply supStands_considerOnce
    | with_reducible refine supStands_iter _ _ (fun _ _ => ?_) ?_

theorem supStands_handBack (n : Nat) (hs : s.sup = sup0) : (s.handBack n).sup = sup0 := by
  unfold State.handBack
  repeat' first
    | with_reducible assumption
    | with_reducible apply supStands_freeSlot

theorem supStands_takeBackOnce (hs : s.sup = sup0) : (s.takeBackOnce).sup = sup0 := by
  unfold State.takeBackOnce
  repeat' first
    | with_reducible assumption
    | with_reducible apply supStands_consider
    | with_reducible apply supStands_handBack
    | split

theorem supStands_takeBack (hs : s.sup = sup0) : (s.takeBack).sup = sup0 := by
  unfold State.takeBack
  repeat' first
    | with_reducible assumption
    | with_reducible apply supStands_takeBackOnce
    | with_reducible refine supStands_iter _ _ (fun _ _ => ?_) ?_

theorem supStands_askSlots (c : SlotClass) (r : SlotReq) (hs : s.sup = sup0) : (s.askSlots c r).sup = sup0 := by
  unfold State.askSlots
  repeat' first
    | with_reducible assumption
    | with_reducible apply supStands_enqueue
    | with_reducible apply supStands_grant
    | with_reducible apply supStands_takeBack
    | split

theorem supStands_withdrawAsk (h : SlotHolder) (hs : s.sup = sup0) : (s.withdrawAsk h).sup = sup0 := hs

theorem supStands_freeHolder (h : SlotHolder) (hs : s.sup = sup0) : (s.freeHolder h).sup = sup0 := by
  unfold State.freeHolder
  repeat' first
    | with_reducible assumption
    | with_reducible apply supStands_freeSlotsIf

theorem supStands_freeAllOf (h : SlotHolder) (hs : s.sup = sup0) : (s.freeAllOf h).sup = sup0 := by
  unfold State.freeAllOf
  repeat' first
    | with_reducible assumption
    | with_reducible apply supStands_freeSlotsIf

theorem supStands_modOff (f : Offsite → Offsite) (hs : s.sup = sup0) : (s.modOff f).sup = sup0 := hs

theorem supStands_startOpening (hs : s.sup = sup0) : (s.startOpening).sup = sup0 := by
  unfold State.startOpening
  repeat' first
    | with_reducible assumption
    | with_reducible apply supStands_modOff
    | with_reducible apply supStands_send

theorem supStands_askOpening (hs : s.sup = sup0) : (s.askOpening).sup = sup0 := by
  unfold State.askOpening
  repeat' first
    | with_reducible assumption
    | with_reducible apply supStands_startOpening
    | split

theorem supStands_placeFetch (es : List FetchEntry) (atHead : Bool) (hs : s.sup = sup0) :
    (s.placeFetch es atHead).sup =
    sup0 := by
  unfold State.placeFetch
  repeat' first
    | with_reducible assumption
    | with_reducible apply supStands_askOpening
    | with_reducible apply supStands_modOff

theorem supStands_askRoom (h : FetchHolder) (es : List FetchEntry) (atHead : Bool) (hs : s.sup = sup0) :
    (s.askRoom h es atHead).sup = sup0 := by
  unfold State.askRoom
  repeat' first
    | with_reducible assumption
    | with_reducible apply supStands_modOff
    | with_reducible apply supStands_placeFetch
    | split

theorem supStands_withdrawFetch (h : FetchHolder) (hs : s.sup = sup0) : (s.withdrawFetch h).sup = sup0 := by
  unfold State.withdrawFetch
  repeat' first
    | with_reducible assumption
    | with_reducible apply supStands_modOff
    | with_reducible apply supStands_withdrawAsk

theorem supStands_progress (hs : s.sup = sup0) : (s.progress).sup = sup0 := by
  unfold State.progress
  repeat' first
    | with_reducible assumption
    | with_reducible apply supStands_modOff

theorem supStands_cancelRun (n : Nat) (hs : s.sup = sup0) : (s.cancelRun n).sup = sup0 := by
  unfold State.cancelRun
  repeat' first
    | with_reducible assumption
    | with_reducible apply supStands_freeAllOf
    | with_reducible apply supStands_leavePlaces
    | with_reducible apply supStands_modOff
    | with_reducible apply supStands_withdrawAsk

theorem supStands_cancelRuns (p : ShipPull → Bool) (hs : s.sup = sup0) : (s.cancelRuns p).sup = sup0 := by
  unfold State.cancelRuns
  repeat' first
    | with_reducible assumption
    | with_reducible apply supStands_cancelRun
    | with_reducible refine supStands_foldl _ _ (fun _ _ _ => ?_) ?_

theorem supStands_freeEntrySlots (es : List ShipEntry) (hs : s.sup = sup0) : (s.freeEntrySlots es).sup = sup0 := by
  unfold State.freeEntrySlots
  repeat' first
    | with_reducible assumption
    | with_reducible apply supStands_freeSlot
    | with_reducible refine supStands_foldl _ _ (fun _ _ _ => ?_) ?_

theorem supStands_damageEntries (vol ext birth : Nat) (p : ShipEntry → Bool) (hs : s.sup = sup0) :
    (s.damageEntries vol ext birth p).sup = sup0 := by
  unfold State.damageEntries
  dsimp only
  repeat' first
    | with_reducible assumption
    | with_reducible apply supStands_freeEntrySlots
    | with_reducible apply supStands_modOff
    | with_reducible apply supStands_modPlan
    | split

theorem supStands_shipLost (vol ext birth : Nat) (hs : s.sup = sup0) : (s.shipLost vol ext birth).sup = sup0 := by
  unfold State.shipLost
  exact supStands_damageEntries _ _ _ _ (supStands_cancelRuns _ hs)

theorem supStands_shipReact (vol ext birth : Nat) (st : RepairState) (hs : s.sup = sup0) :
    (s.shipReact vol ext birth st).sup = sup0 := by
  unfold State.shipReact
  repeat' first
    | with_reducible assumption
    | with_reducible apply supStands_shipLost
    | with_reducible apply supStands_modOff
    | split

theorem supStands_restoreReact (vol ext birth : Nat) (st : RepairState) (hs : s.sup = sup0) :
    (s.restoreReact vol ext birth st).sup = sup0 := by
  unfold State.restoreReact
  repeat' first
    | with_reducible assumption
    | split
    | with_reducible refine supStands_foldl _ _ (fun _ _ _ => ?_) ?_
    | with_reducible refine supStands_modLink _ _ ?_

theorem supStands_setRepair (vol ext birth loc : Nat) (st : RepairState) (hs : s.sup = sup0) :
    (s.setRepair vol ext birth loc st).sup = sup0 := by
  unfold State.setRepair
  repeat' first
    | with_reducible assumption
    | with_reducible apply supStands_restoreReact
    | with_reducible apply supStands_shipReact
    | with_reducible apply supStands_writeRepair
    | split

theorem supStands_modPat (f : Patrol → Patrol) (hs : s.sup = sup0) : (s.modPat f).sup = sup0 := hs

theorem supStands_leaveItem (n : Nat) (hs : s.sup = sup0) : (s.leaveItem n).sup = sup0 := by
  unfold State.leaveItem
  repeat' first
    | with_reducible assumption
    | with_reducible apply supStands_freeAllOf
    | with_reducible apply supStands_leavePlaces
    | with_reducible apply supStands_modPat
    | with_reducible apply supStands_withdrawAsk

theorem supStands_addFold (w : WorkItem) (hs : s.sup = sup0) : (s.addFold w).sup = sup0 := by
  unfold State.addFold
  repeat' first
    | with_reducible assumption
    | with_reducible apply supStands_modPat

theorem supStands_issueItem (w : WorkItem) (hs : s.sup = sup0) : (s.issueItem w).sup = sup0 := by
  unfold State.issueItem
  repeat' first
    | with_reducible assumption
    | with_reducible apply supStands_askSlots
    | with_reducible apply supStands_modItem

theorem supStands_loseItem (w : WorkItem) (hs : s.sup = sup0) : (s.loseItem w).sup = sup0 := by
  unfold State.loseItem
  repeat' first
    | with_reducible assumption
    | with_reducible apply supStands_leaveItem
    | with_reducible apply supStands_modPat
    | split

theorem supStands_decideItem (n : Nat) (hs : s.sup = sup0) : (s.decideItem n).sup = sup0 := by
  unfold State.decideItem
  repeat' first
    | with_reducible assumption
    | with_reducible apply supStands_addFold
    | with_reducible apply supStands_busy
    | with_reducible apply supStands_issueItem
    | with_reducible apply supStands_leaveItem
    | with_reducible apply supStands_loseItem
    | with_reducible apply supStands_modItem
    | split

theorem supStands_modChunk (n idx : Nat) (f : RepairChunk → RepairChunk) (hs : s.sup = sup0) :
    (s.modChunk n idx f).sup = sup0 := by
  unfold State.modChunk
  repeat' first
    | with_reducible assumption
    | with_reducible apply supStands_modRepair

theorem supStands_leaveRepairPlaces (n : Nat) (hs : s.sup = sup0) : (s.leaveRepairPlaces n).sup = sup0 := by
  unfold State.leaveRepairPlaces
  repeat' first
    | with_reducible assumption
    | with_reducible apply supStands_leavePlaces
    | split
    | with_reducible refine supStands_foldl _ _ (fun _ _ _ => ?_) ?_

theorem supStands_chunkOffsite (n idx : Nat) (hs : s.sup = sup0) : (s.chunkOffsite n idx).sup = sup0 := by
  unfold State.chunkOffsite
  repeat' first
    | with_reducible assumption
    | with_reducible apply supStands_askRoom
    | with_reducible apply supStands_leavePlaces
    | with_reducible apply supStands_modChunk
    | with_reducible apply supStands_progress
    | split

theorem supStands_startChunk (n : Nat) (idx : Nat) (hs : s.sup = sup0) : (s.startChunk n idx).sup = sup0 := by
  unfold State.startChunk
  repeat' first
    | with_reducible assumption
    | with_reducible apply supStands_chunkOffsite
    | split

theorem supStands_loseRepair (n : Nat) (hs : s.sup = sup0) : (s.loseRepair n).sup = sup0 := by
  unfold State.loseRepair
  repeat' first
    | with_reducible assumption
    | with_reducible apply supStands_freeHolder
    | with_reducible apply supStands_leaveRepairPlaces
    | with_reducible apply supStands_modRepair
    | with_reducible apply supStands_setRepair
    | with_reducible apply supStands_withdrawFetch
    | split

theorem supStands_startWhole (n : Nat) (hs : s.sup = sup0) : (s.startWhole n).sup = sup0 := by
  unfold State.startWhole
  dsimp only
  repeat' first
    | with_reducible assumption
    | with_reducible apply supStands_askRoom
    | with_reducible apply supStands_freeHolder
    | with_reducible apply supStands_leaveRepairPlaces
    | with_reducible apply supStands_loseRepair
    | with_reducible apply supStands_modRepair
    | with_reducible apply supStands_progress
    | with_reducible apply supStands_withdrawFetch
    | split

theorem supStands_openRepair (n : Nat) (q : RepairReq) (hs : s.sup = sup0) : (s.openRepair n q).sup = sup0 := by
  unfold State.openRepair
  repeat' first
    | with_reducible assumption
    | with_reducible apply supStands_modPat
    | with_reducible apply supStands_setRepair
    | with_reducible apply supStands_startChunk
    | with_reducible apply supStands_startWhole
    | split
    | with_reducible refine supStands_foldl _ _ (fun _ _ _ => ?_) ?_

theorem supStands_openWaiting (n : Nat) (q : List RepairReq) (hs : s.sup = sup0) :
    (State.openWaiting n q s).sup = sup0 := by
  induction q generalizing s with
  | nil => exact hs
  | cons x t ih =>
    unfold State.openWaiting
    split
    · exact supStands_openRepair _ _ (supStands_modPat _ hs)
    · exact ih hs

theorem supStands_closeRepair (n : Nat) (hs : s.sup = sup0) : (s.closeRepair n).sup = sup0 := by
  unfold State.closeRepair
  repeat' first
    | with_reducible assumption
    | with_reducible apply supStands_freeAllOf
    | with_reducible apply supStands_leaveRepairPlaces
    | with_reducible apply supStands_modPat
    | with_reducible apply supStands_openWaiting

theorem supStands_abandonRepair (n : Nat) (hs : s.sup = sup0) : (s.abandonRepair n).sup = sup0 := by
  unfold State.abandonRepair
  repeat' first
    | with_reducible assumption
    | with_reducible apply supStands_freeHolder
    | with_reducible apply supStands_leaveRepairPlaces
    | with_reducible apply supStands_modRepair
    | with_reducible apply supStands_withdrawFetch

theorem supStands_abandonIf (p : Repair → Bool) (hs : s.sup = sup0) : (s.abandonIf p).sup = sup0 := by
  unfold State.abandonIf
  repeat' first
    | with_reducible assumption
    | with_reducible apply supStands_abandonRepair
    | with_reducible refine supStands_foldl _ _ (fun _ _ _ => ?_) ?_

theorem supStands_checkFold (f : Fold) (hs : s.sup = sup0) : (s.checkFold f).sup = sup0 := by
  unfold State.checkFold
  repeat' first
    | with_reducible assumption
    | with_reducible apply supStands_modPat
    | with_reducible apply supStands_setVerified
    | split

theorem supStands_endClearing (hs : s.sup = sup0) : (s.endClearing).sup = sup0 := by
  unfold State.endClearing
  repeat' first
    | with_reducible assumption
    | with_reducible apply supStands_leaveItem
    | with_reducible apply supStands_modPat
    | split
    | with_reducible refine supStands_foldl _ _ (fun _ _ _ => ?_) ?_

/-! ### The count of STORE_ERROR -/

/-- The raised count of STORE_ERROR (R177, R190). -/
def State.storeCount (s : State) : Option Nat := s.sup.raised[10]?

theorem storeCount_of_sup {t : State} (h : t.sup = s.sup) : t.storeCount = s.storeCount := by
  unfold State.storeCount
  rw [h]

theorem storeCount_foldl {α : Type} (f : State → α → State) (xs : List α)
    (hf : ∀ s x, (f s x).storeCount = s.storeCount) (s : State) : (xs.foldl f s).storeCount = s.storeCount := by
  induction xs generalizing s with
  | nil => rfl
  | cons x xs ih => exact (ih _).trans (hf s x)

theorem storeCount_iter (n : Nat) (f : State → State) (hf : ∀ s, (f s).storeCount = s.storeCount) (s : State) :
    (iter n f s).storeCount = s.storeCount := by
  induction n generalizing s with
  | zero => rfl
  | succ n ih => exact (ih _).trans (hf s)

theorem storeCount_raise (s : State) {b : NoticeBody} (hb : b.cls ≠ 10) : (s.raise b).storeCount = s.storeCount := by
  unfold State.storeCount
  rw [raise_raised, getElem?_modAt, if_neg hb]

/-- A STORE_ERROR is counted (R190). -/
theorem storeCount_storeError (s : State) (item : StoreItem) :
    (s.raise (.storeError item)).storeCount = s.storeCount.map countUp := by
  unfold State.storeCount
  rw [raise_raised, getElem?_modAt]
  rfl

/-- A repair that ends counts DAMAGE, and no STORE_ERROR (R167). -/
theorem storeCount_endRepair (s : State) (n : Nat) (r : Repair) : (s.endRepair n r).storeCount = s.storeCount := by
  unfold State.endRepair
  dsimp only
  refine (storeCount_of_sup (supStands_closeRepair n rfl)).trans ((storeCount_raise _ (by nofun)).trans ?_)
  refine storeCount_of_sup ?_
  split
  · exact supStands_setVerified _ _ _ _ (supStands_setRepair _ _ _ _ _ rfl)
  · exact supStands_setRepair _ _ _ _ _ rfl

theorem storeCount_checkRepair (s : State) (n : Nat) : (s.checkRepair n).storeCount = s.storeCount := by
  unfold State.checkRepair
  split
  case h_1 => rfl
  case h_2 r _ =>
    by_cases hbusy : s.repairBusy n = true
    · rw [if_pos hbusy]
    · rw [if_neg hbusy]
      by_cases habandoned : r.abandoned = true
      · rw [if_pos habandoned]
        exact storeCount_of_sup (supStands_closeRepair n rfl)
      · rw [if_neg habandoned]
        by_cases hlost : r.lost = true
        · rw [if_pos hlost]
          exact storeCount_endRepair s n r
        · rw [if_neg hlost]
          by_cases hwhole : r.becomeWhole = true
          · rw [if_pos hwhole]
            exact storeCount_of_sup (supStands_startWhole n rfl)
          · rw [if_neg hwhole]
            split
            · exact storeCount_endRepair s n r
            · rfl

theorem storeCount_checkRepairs (s : State) : s.checkRepairs.storeCount = s.storeCount :=
  storeCount_iter _ _ (fun u => storeCount_foldl _ _ storeCount_checkRepair u) s

theorem storeCount_settlePatrol (s : State) : s.settlePatrol.storeCount = s.storeCount := by
  unfold State.settlePatrol
  dsimp only
  refine (storeCount_of_sup (supStands_endClearing rfl)).trans ?_
  refine (storeCount_foldl _ _ (fun u n => storeCount_of_sup (supStands_decideItem n rfl)) _).trans ?_
  refine (storeCount_foldl _ _ (fun u f => storeCount_of_sup (supStands_checkFold f rfl)) _).trans ?_
  exact (storeCount_checkRepairs _).trans (storeCount_of_sup (supStands_abandonIf _ rfl))

/-- A step ends without a STORE_ERROR of its own where the Tally Unit has nothing to go on with. -/
theorem finish_storeCount (h : s.tallyStill) (hrun : s.sup.op ≠ .halted) : s.finish.storeCount = s.storeCount := by
  rw [finish_running hrun, advance_still h]
  obtain ⟨hsup, -⟩ := settleLink_parts s.settlePatrol
  exact (storeCount_of_sup hsup).trans (storeCount_settlePatrol s)

end

end Sys2Proof.Machine
end

section
/-! PROOF. Double errors in a principal's record (R20): second and third clause of O9. -/

namespace Sys2Proof.Machine

section
variable {s t u v : State} {id : Nat} {p : Principal}

/-! ### One double error on the way -/

theorem withErrs_one {e : StoreError} (hrun : s.sup.op ≠ .halted) (hmet : (s.meet e).sup.op ≠ .halted)
    (f : State → State) : withErrs [e] f s = f (s.meet e) := by
  unfold withErrs
  dsimp only
  rw [List.foldl_cons, List.foldl_nil, if_neg hrun, if_neg hmet]

/-- The step of a request whose block meets one double error, and goes on with what that leaves (log entry 7). -/
theorem act_asked_met {l : Link} {tag : Nat} {k : ReqKind} {co : Bool} {e : StoreError} (body : Nat → State → State)
    (h : s.takes l) (hc : co = false ∨ s.role l = .console) (hmet : ((s.asked l tag k).meet e).sup.op ≠ .halted) :
    act (fun s => (request l tag k true co [e] body s).finish) s =
      .next (body s.sup.nextReq ((s.asked l tag k).meet e)).finish := by
  have hreq : request l tag k true co [e] body { s with sent := [] } =
      body s.sup.nextReq ((s.asked l tag k).meet e) :=
    (request_takes tag k true [e] body (takes_unsent h) hc).trans (withErrs_one (asked_running tag k h) hmet _)
  rw [act_running _ (takes_running h), hreq]

theorem exec_query_met {l : Link} {tag : Nat} {q : QuerySubject} {e : StoreError} (h : s.takes l)
    (hmet : ((s.asked l tag .query).meet e).sup.op ≠ .halted) :
    Machine.exec (.query l tag q [e]) s =
      .next (((s.asked l tag .query).meet e).reply l s.sup.nextReq
        (queryReply (((s.asked l tag .query).meet e).lookup q)).1
        (queryReply (((s.asked l tag .query).meet e).lookup q)).2).finish := by
  refine (act_asked_met _ h (.inl rfl) hmet).trans (congrArg Host.Outcome.next ?_)
  generalize (s.asked l tag .query).meet e = w
  change State.finish (match w.lookup q with | .ok v => _ | .error st => _) = _
  cases w.lookup q <;> rfl

/-- An error in one copy of a field has no effect (R20). -/
theorem query_oneCopy {l : Link} (tag id : Nat) (f : DupField) (q : QuerySubject) (h : s.takes l) :
    ∃ t, Machine.exec (.query l tag q [.principalOneCopy id f]) s = .next t ∧ Spared s t :=
  ⟨_, exec_query_met h (asked_running tag .query h), spared_replied tag .query _ _ h⟩

/-! ### A principal made unsettled -/

/-- The unsettled flag set in a record, and in no write under way to it taken back (R20). -/
def State.flagged (s : State) (id : Nat) : State :=
  { s.modPrin id fun p => { p with unsettled := true } with
    tally.writes := mapIf (fun w => w.id == id) (fun w => { w with settles := false }) s.tally.writes }

theorem makeUnsettled_person (hp : s.prin id = some p) (hkind : p.kind = .person) (hcourse : p.course = none)
    (hdept : p.dept = none) : s.makeUnsettled id = s.flagged id := by
  unfold State.makeUnsettled
  rw [hp]
  dsimp only
  rw [if_pos hkind, hcourse, hdept]
  split <;> rfl

theorem flagged_writes (s : State) (id k : Nat) : ((s.flagged id).tally.writes.filter fun w => w.id == k).getLast?.map
      (fun w => (w.used, w.reserved)) =
    (s.tally.writes.filter fun w => w.id == k).getLast?.map (fun w => (w.used, w.reserved)) := by
  have hmap : ((s.flagged id).tally.writes.filter fun w => w.id == k) =
      mapIf (fun w => w.id == id) (fun w => { w with settles := false }) (s.tally.writes.filter fun w => w.id == k) :=
        by
    refine List.filter_map.trans (congrArg (List.map _) (List.filter_congr fun w _ => ?_))
    dsimp only [Function.comp_apply]
    split <;> rfl
  rw [hmap]
  unfold mapIf
  rw [List.getLast?_map, Option.map_map]
  refine Option.map_congr fun w _ => ?_
  dsimp only [Function.comp_apply]
  split <;> rfl

/-- The stored tally, by the last write under way or the record. -/
theorem stored_eq (s : State) (k : Nat) : s.stored k =
    (((s.tally.writes.filter fun w => w.id == k).getLast?.map fun w => (w.used, w.reserved)).or
      ((s.prin k).map Principal.tally)).getD (0, 0) := by
  unfold State.stored
  cases (s.tally.writes.filter fun w => w.id == k).getLast? with
  | some w => rfl
  | none => cases s.prin k <;> rfl

theorem flagged_current (s : State) (id k : Nat) : (s.flagged id).current k = s.current k := by
  have hprin : ((s.flagged id).prin k).map Principal.tally = (s.prin k).map Principal.tally := by
    change ((s.modPrin id fun p => { p with unsettled := true }).prin k).map Principal.tally = _
    by_cases hk : id = k
    · subst hk
      rw [State.prin_modPrin, Option.map_map]
      rfl
    · rw [State.prin_modPrin_ne _ _ hk]
  have hstored : (s.flagged id).stored k = s.stored k := by rw [stored_eq, stored_eq, flagged_writes, hprin]
  exact current_of_line_eq rfl rfl hstored

theorem flagged_isUnsettled (hp : s.prin id = some p) : (s.flagged id).isUnsettled id = true := by
  have hprin : (s.flagged id).prin id = some { p with unsettled := true } :=
    (State.prin_modPrin s id _).trans (congrArg _ hp)
  have hwrites : ((s.flagged id).tally.writes.any fun w => w.id == id && w.settles) = false := by
    refine List.any_eq_false.mpr fun w hw => ?_
    obtain ⟨x, -, rfl⟩ := List.mem_map.mp hw
    dsimp only
    split
    · simp
    · next hx => simp [hx]
  unfold State.isUnsettled
  rw [hprin]
  dsimp only
  rw [hwrites]
  rfl

/-! ### The end of a principal's double error -/

theorem recompute_still (h : s.tally.ops = []) (id : Nat) : s.recompute id = s := by
  have htally := regatherIf_none h fun o => o.isOpen && (o.ids.contains id || o.job.person == id)
  change s.regatherIf _ = s
  have hframe : ∀ again, s.regatherIf again = { s with tally := (s.regatherIf again).tally } := fun _ => rfl
  rw [hframe, htally]

/-- A principal whose record has met a double error (R20): frozen, unsettled, and reported. -/
def State.lost (s : State) (id : Nat) : State :=
  ((s.modPrin id fun p => { p with frozen := true }).flagged id).raise (.storeError (.principal id))

theorem lost_tally (s : State) (id : Nat) :
    (s.lost id).tally = ((s.modPrin id fun p => { p with frozen := true }).flagged id).tally := raise_tally _ _

/-- What R20 leaves of a person without parents, whose load no soft limit bounds. -/
theorem endPrincipalError_person (hstill : s.tallyStill) (hp : s.prin id = some p) (hkind : p.kind = .person)
    (hparents : p.course = none ∧ p.dept = none) (hsoft : p.soft = none) (hgrace : p.grace = .within)
    (changed : Bool) : s.endPrincipalError id changed = s.lost id := by
  obtain ⟨hcourse, hdept⟩ := hparents
  have hfrozen : (s.modPrin id fun p => { p with frozen := true }).prin id = some { p with frozen := true } :=
    (State.prin_modPrin s id _).trans (congrArg _ hp)
  have hmade : ((s.modPrin id fun p => { p with frozen := true }).makeUnsettled id) =
      (s.modPrin id fun p => { p with frozen := true }).flagged id := makeUnsettled_person hfrozen hkind hcourse hdept
  have hflag : ((s.modPrin id fun p => { p with frozen := true }).flagged id).prin id =
      some { p with frozen := true, unsettled := true } := (State.prin_modPrin _ id _).trans (congrArg _ hfrozen)
  have heval : ((s.modPrin id fun p => { p with frozen := true }).flagged id).evalGrace id =
      (s.modPrin id fun p => { p with frozen := true }).flagged id := by
    rw [evalGrace_within hflag hgrace, if_neg]
    unfold State.aboveSoft
    dsimp only
    rw [hsoft]
    nofun
  have hlost : (s.lost id).tallyStill := by
    unfold State.tallyStill
    rw [lost_tally]
    exact hstill
  unfold State.endPrincipalError
  dsimp only
  rw [hmade, heval, ite_self]
  change ((s.lost id).recompute id).advance = _
  rw [recompute_still hlost.1, advance_still hlost]

theorem raise_op (s : State) (b : NoticeBody) : (s.raise b).sup.op = s.sup.op := by
  obtain ⟨hop, -⟩ := supKept_raise b (supKept_refl s.sup)
  exact hop

/-- From one state to another a principal's record has met a double error: it is frozen and unsettled, no tally has
changed, and STORE_ERROR is counted (R20, R190). -/
structure PrincipalLost (id : Nat) (p : Principal) (s t : State) : Prop where
  prin : t.prin id = some { p with frozen := true, unsettled := true }
  others : ∀ k, id ≠ k → t.prin k = s.prin k
  current : ∀ k, t.current k = s.current k
  unsettled : t.isUnsettled id = true
  still : s.tallyStill → t.tallyStill
  op : t.sup.op = s.sup.op
  count : t.storeCount = s.storeCount.map countUp
  gains : ∀ P, LinksGain P → P s.links → P t.links

theorem lost_spec (hp : s.prin id = some p) : PrincipalLost id p s (s.lost id) := by
  have htally := lost_tally s id
  have hfrozen : (s.modPrin id fun p => { p with frozen := true }).prin id = some { p with frozen := true } :=
    (State.prin_modPrin s id _).trans (congrArg _ hp)
  have hprin (k : Nat) : (s.lost id).prin k = ((s.modPrin id fun p => { p with frozen := true }).flagged id).prin k :=
    by
    unfold State.prin
    rw [htally]
  refine ⟨?_, fun k hk => ?_, fun k => ?_, ?_, fun hstill => ?_, ?_, ?_, fun P kg h => ?_⟩
  · rw [hprin]
    exact (State.prin_modPrin _ id _).trans (congrArg _ hfrozen)
  · rw [hprin]
    exact (State.prin_modPrin_ne _ _ hk).trans (State.prin_modPrin_ne _ _ hk)
  · rw [current_of_tally htally, flagged_current]
    exact current_modPrin_of s id (f := fun p => { p with frozen := true }) (fun _ => rfl) k
  · have hun := flagged_isUnsettled hfrozen
    unfold State.isUnsettled at hun ⊢
    rw [hprin, htally]
    exact hun
  · unfold State.tallyStill
    rw [htally]
    exact hstill
  · exact raise_op _ _
  · exact storeCount_storeError _ _
  · exact gains_raise kg _ h

/-! ### A Query of it -/

/-- A Query of a principal whose record meets a double error, as its record and tally then stand. -/
theorem query_lost {l : Link} {tag : Nat} {e : StoreError} (h : s.takes l)
    (hmeet : (s.asked l tag .query).meet e = v.lost id) (hgains : ∀ P, LinksGain P → P (s.asked l tag .query).links →
    P v.links)
    (hop : v.sup.op = s.sup.op) (hcount : v.storeCount = s.storeCount) (hstill : v.tallyStill)
    (hp : v.prin id = some p) :
    ∃ t, Machine.exec (.query l tag (.principal id) [e]) s = .next t ∧
      t.prin id = some { p with frozen := true, unsettled := true } ∧ t.current id = v.current id ∧
      Answered s t l tag .query .done (.record (.principal id { p with
        used := (v.current id).1, reserved := (v.current id).2, frozen := true, unsettled := true, marker := false })) ∧
      (∀ q, id ≠ q → t.prin q = v.prin q) ∧ t.sup.raised[10]? = (s.sup.raised[10]?).map countUp := by
  have hlost := lost_spec hp
  have hrun : (v.lost id).sup.op ≠ .halted := by
    rw [hlost.op, hop]
    exact takes_running h
  have hentered : Entered s (v.lost id) l tag .query true :=
    (entered_asked s l tag .query).gains fun P kg hP => hlost.gains P kg (hgains P kg hP)
  have hview : queryReply ((v.lost id).lookup (.principal id)) = (.done, .record (.principal id { p with
      used := (v.current id).1, reserved := (v.current id).2, frozen := true, unsettled := true, marker := false })) :=
        by
    have hlook : (v.lost id).lookup (.principal id) =
        .ok ((v.lost id).principalView id { p with frozen := true, unsettled := true }) := by
      unfold State.lookup
      dsimp only
      rw [hlost.prin]
    rw [hlook]
    unfold State.principalView
    rw [hlost.current, hlost.unsettled]
    rfl
  have hexec := exec_query_met (q := .principal id) h (e := e) (tag := tag) (by rw [hmeet]; exact hrun)
  rw [hmeet, hview] at hexec
  generalize v.lost id = w at *
  have hfinish : ((w.reply l s.sup.nextReq .done (.record (.principal id { p with
      used := (v.current id).1, reserved := (v.current id).2, frozen := true, unsettled := true,
      marker := false }))).finish).tally = w.tally := finish_tally (hlost.still hstill)
  have hfcount := finish_storeCount (s := w.reply l s.sup.nextReq .done (.record (.principal id { p with
      used := (v.current id).1, reserved := (v.current id).2, frozen := true, unsettled := true,
      marker := false }))) (hlost.still hstill) hrun
  refine ⟨_, hexec, ?_, (current_of_tally hfinish id).trans (hlost.current id), answered_finish _ _ h hentered,
    fun q hq => ?_, ?_⟩
  · unfold State.prin
    rw [hfinish]
    exact hlost.prin
  · unfold State.prin
    rw [hfinish]
    exact hlost.others q hq
  · exact (hfcount.trans hlost.count).trans (congrArg _ hcount)

/-! ### A field lost in both copies -/

/-- Records made unsettled, each with its recount begun and its operations computed anew (R20). -/
def State.unsettleAll (xs : List (Nat × Principal)) (s : State) : State :=
  xs.foldl (fun s kp => ((s.modPrin kp.1 fun p => { p with unsettled := true }).beginRecount kp.1).recompute kp.1) s

/-- One record made unsettled, where no operation is in progress. -/
theorem unsettleOne_eq (hstill : s.tallyStill) (q : Nat) :
    ((s.modPrin q fun p => { p with unsettled := true }).beginRecount q).recompute q =
      (s.modPrin q fun p => { p with unsettled := true }).beginRecount q := by
  obtain ⟨hops, -⟩ := hstill
  refine recompute_still ?_ q
  rw [beginRecount_eq]
  exact hops

/-- Records made unsettled keep their tallies; nothing else of the Tally Unit that goes on by itself changes. -/
theorem unsettleAll_spec (xs : List (Nat × Principal)) (hstill : s.tallyStill) :
    (s.unsettleAll xs).tallyStill ∧ (∀ k, (s.unsettleAll xs).current k = s.current k) ∧
      (∀ k, (s.unsettleAll xs).prin k =
        if k ∈ xs.map Prod.fst then (s.prin k).map fun p => { p with unsettled := true } else s.prin k) ∧
      (s.unsettleAll xs).sup = s.sup ∧ (s.unsettleAll xs).links = s.links := by
  induction xs generalizing s with
  | nil => exact ⟨hstill, fun _ => rfl, fun _ => rfl, rfl, rfl⟩
  | cons x xs ih =>
    have hone := unsettleOne_eq hstill x.1
    have hframe := beginRecount_eq (s.modPrin x.1 fun p => { p with unsettled := true }) x.1
    have hstep : s.unsettleAll (x :: xs) =
        ((s.modPrin x.1 fun p => { p with unsettled := true }).beginRecount x.1).unsettleAll xs :=
      congrArg (State.unsettleAll xs) hone
    rw [hstep]
    generalize (s.modPrin x.1 fun p => { p with unsettled := true }).beginRecount x.1 = w at hframe
    have hw : w.tallyStill := by
      rw [hframe]
      exact hstill
    obtain ⟨istill, icurrent, iprin, isup, ilinks⟩ := ih hw
    have hcurrent (k : Nat) : w.current k = s.current k := by
      rw [hframe]
      exact current_modPrin_of s x.1 (f := fun p => { p with unsettled := true }) (fun _ => rfl) k
    have hprin (k : Nat) : w.prin k = (s.modPrin x.1 fun p => { p with unsettled := true }).prin k := by
      rw [hframe]
      rfl
    refine ⟨istill, fun k => (icurrent k).trans (hcurrent k), fun k => ?_, isup.trans ?_, ilinks.trans ?_⟩
    · rw [iprin, hprin, List.map_cons]
      by_cases hk : x.1 = k
      · subst hk
        rw [State.prin_modPrin, if_pos List.mem_cons_self, Option.map_map]
        exact ite_self _
      · rw [State.prin_modPrin_ne _ _ hk]
        refine if_congr ?_ rfl rfl
        rw [List.mem_cons]
        exact (or_iff_right (Ne.symm hk)).symm
    · rw [hframe]
      rfl
    · rw [hframe]
      rfl

theorem unsettlePools_eq (s : State) : s.unsettlePools =
    s.unsettleAll (s.tally.principals.filter fun kp => decide (kp.2.kind = .pool)) := rfl

/-- A pool with a record is among those that a lost parent field makes unsettled. -/
theorem pool_listed {q : Nat} {k : Principal} (hq : s.prin q = some k) (hkind : k.kind = .pool) :
    q ∈ (s.tally.principals.filter fun kp => decide (kp.2.kind = .pool)).map Prod.fst :=
  List.mem_map.mpr ⟨(q, k), List.mem_filter.mpr ⟨mem_of_tget hq, decide_eq_true hkind⟩, rfl⟩

/-! ### Second clause of O9 -/

/-- What O9 says of the answer to a Query that meets a double error in its person's record. -/
def QueriedLost (s t : State) (l : Link) (tag id : Nat) (p : Principal) (now : Nat × Nat) : Prop :=
  t.prin id = some { p with frozen := true, unsettled := true } ∧ t.current id = now ∧
    Answered s t l tag .query .done (.record (.principal id { p with
      used := now.1, reserved := now.2, frozen := true, unsettled := true, marker := false })) ∧
    t.sup.raised[10]? = (s.sup.raised[10]?).map countUp

/-- A person without parents, without a soft limit and within its grace. -/
def Principal.single (p : Principal) : Prop :=
  p.kind = .person ∧ (p.course = none ∧ p.dept = none) ∧ p.soft = none ∧ p.grace = .within

theorem endPrincipalError_single (hstill : s.tallyStill) (hp : s.prin id = some p) (hsingle : p.single)
    (changed : Bool) : s.endPrincipalError id changed = s.lost id := by
  obtain ⟨hkind, hparents, hsoft, hgrace⟩ := hsingle
  exact endPrincipalError_person hstill hp hkind hparents hsoft hgrace changed

/-- The tally that is taken for lost tally words: what line or castout entry holds, or 0 (R20). -/
def State.knownTally (s : State) (id : Nat) : Nat × Nat :=
  let held := match s.line id with
    | some x => !x.filling
    | none => false
  if held || (s.castoutOf id).isSome then s.current id else (0, 0)

theorem meet_principalTally (hp : s.prin id = some p) : s.meet (.principalTally id) =
    (s.storeClean id (s.knownTally id).1 (s.knownTally id).2).endPrincipalError id
      (decide (s.current id ≠ s.knownTally id)) := by
  unfold State.meet
  dsimp only
  rw [hp]
  rfl

theorem knownTally_of_line {x : Line} (hx : s.line id = some x) (hfill : x.filling = false) :
    s.knownTally id = (x.used, x.reserved) := by
  unfold State.knownTally
  rw [hx, current_of_line hx hfill]
  dsimp only
  rw [hfill]
  rfl

theorem knownTally_of_none (hline : s.line id = none) (hcast : s.castoutOf id = none) : s.knownTally id = (0, 0) := by
  unfold State.knownTally
  rw [hline, hcast]
  rfl

theorem storeClean_frame (s : State) (id used reserved : Nat) : (s.storeClean id used reserved).links = s.links ∧
    (s.storeClean id used reserved).sup = s.sup ∧
    (s.storeClean id used reserved).tally.ops = s.tally.ops ∧
    (s.storeClean id used reserved).tally.postings = s.tally.postings ∧
    (s.storeClean id used reserved).tally.modeReply = s.tally.modeReply ∧
    (s.storeClean id used reserved).tally.flushing = s.tally.flushing := ⟨rfl, rfl, rfl, rfl, rfl, rfl⟩

theorem storeClean_still {used reserved : Nat} (h : s.tallyStill) : (s.storeClean id used reserved).tallyStill := by
  obtain ⟨hops, hpost, hmode, hflush⟩ := h
  obtain ⟨-, -, eops, epost, emode, eflush⟩ := storeClean_frame s id used reserved
  exact ⟨eops.trans hops, epost.trans hpost, emode.trans hmode, eflush.trans hflush⟩

theorem storeClean_record (used reserved : Nat) (hp : s.prin id = some p) :
    (s.storeClean id used reserved).prin id = some { p with used := used, reserved := reserved, marker := false } := by
  rw [storeClean_prin, hp]
  rfl

theorem meet_tallyLost (hstill : s.tallyStill) (hp : s.prin id = some p) (hsingle : p.single) {now : Nat × Nat}
    (hknown : s.knownTally id = now) :
    s.meet (.principalTally id) = (s.storeClean id now.1 now.2).lost id := by
  rw [meet_principalTally hp, hknown]
  exact endPrincipalError_single (storeClean_still hstill) (storeClean_record now.1 now.2 hp) hsingle _

/-- Tally words lost: the values of the line, or 0 without one (R20). -/
theorem query_tallyLost {l : Link} (tag : Nat) (h : s.takes l) (hstill : s.tallyStill) (hp : s.prin id = some p)
    (hsingle : p.single) {now : Nat × Nat}
    (hnow : (s.line id = none ∧ s.castoutOf id = none ∧ now = (0, 0)) ∨
      ∃ x, s.line id = some x ∧ x.filling = false ∧ now = (x.used, x.reserved)) :
    ∃ t, Machine.exec (.query l tag (.principal id) [.principalTally id]) s = .next t ∧
      QueriedLost s t l tag id { p with used := now.1, reserved := now.2, marker := false } now := by
  have hprin : (s.asked l tag .query).prin id = some p := hp
  have hknown : (s.asked l tag .query).knownTally id = now := by
    rcases hnow with ⟨hline, hcast, rfl⟩ | ⟨x, hline, hfill, rfl⟩
    · exact knownTally_of_none hline hcast
    · exact knownTally_of_line hline hfill
  have hmeet := meet_tallyLost (s := s.asked l tag .query) hstill hprin hsingle hknown
  have hclean := storeClean_record now.1 now.2 hprin
  have hcurrent := storeClean_current (s.asked l tag .query) now.1 now.2 hprin
  obtain ⟨clinks, csup, -⟩ := storeClean_frame (s.asked l tag .query) id now.1 now.2
  have cstill := storeClean_still (s := s.asked l tag .query) (id := id) (used := now.1) (reserved := now.2) hstill
  generalize (s.asked l tag .query).storeClean id now.1 now.2 = w at *
  obtain ⟨t, hexec, tprin, tcurrent, tanswered, -, traised⟩ := query_lost (tag := tag) h hmeet
    (fun P kg hP => by rw [clinks]; exact hP) (by rw [csup]; rfl)
    (storeCount_of_sup (s := s.asked l tag .query) csup)
    cstill hclean
  rw [hcurrent] at tcurrent tanswered
  exact ⟨t, hexec, tprin, tcurrent, tanswered, traised⟩

/-- The record of a lost field, before the end of R20. -/
theorem query_fieldLost {l : Link} (tag : Nat) {f : DupField} {q : Principal} (h : s.takes l)
    (hmeet : (s.asked l tag .query).meet (.principalBoth id f) = v.endPrincipalError id false) (hstill : v.tallyStill)
    (hp : v.prin id = some q) (hsingle : q.single) (hcurrent : v.current id = s.current id)
    (hgains : ∀ P, LinksGain P → P (s.asked l tag .query).links → P v.links) (hop : v.sup.op = s.sup.op)
    (hcount : v.storeCount = s.storeCount) :
    ∃ t, Machine.exec (.query l tag (.principal id) [.principalBoth id f]) s = .next t ∧
      QueriedLost s t l tag id q (s.current id) ∧ ∀ k, id ≠ k → t.prin k = v.prin k := by
  obtain ⟨t, hexec, tprin, tcurrent, tanswered, tothers, traised⟩ := query_lost (tag := tag) h
    (hmeet.trans (endPrincipalError_single hstill hp hsingle false)) hgains hop hcount hstill hp
  rw [hcurrent] at tcurrent tanswered
  exact ⟨t, hexec, ⟨tprin, tcurrent, tanswered, traised⟩, tothers⟩

/-- A class or a hard limit lost in both copies takes 0 or none (R20). -/
theorem query_limitLost {l : Link} (tag : Nat) {f : DupField} (h : s.takes l) (hstill : s.tallyStill)
    (hp : s.prin id = some p) (hsingle : p.single) (hf : f = .cls ∨ f = .hard) :
    ∃ t, Machine.exec (.query l tag (.principal id) [.principalBoth id f]) s = .next t ∧
      QueriedLost s t l tag id (loseDup 0 f p) (s.current id) := by
  have hasked : (s.asked l tag .query).prin id = some p := hp
  have hmeet : (s.asked l tag .query).meet (.principalBoth id f) =
      ((s.asked l tag .query).draw.2.modPrin id (loseDup 0 f)).endPrincipalError id false := by
    unfold State.meet
    dsimp only
    rw [hasked]
    rcases hf with rfl | rfl <;> rfl
  have htally (q : Principal) : (loseDup 0 f q).tally = q.tally := by rcases hf with rfl | rfl <;> rfl
  have hlost : (loseDup 0 f p).single := by rcases hf with rfl | rfl <;> exact hsingle
  obtain ⟨t, hexec, hqueried, -⟩ := query_fieldLost tag h hmeet hstill
    ((State.prin_modPrin _ id _).trans (congrArg _ hasked)) hlost
    (current_modPrin_of (s.asked l tag .query).draw.2 id htally id) (fun P kg hP => hP) rfl rfl
  exact ⟨t, hexec, hqueried⟩

/-- A parent lost in both copies is taken as none, and every pool is unsettled (R20). -/
theorem query_parentLost {l : Link} (tag : Nat) (h : s.takes l) (hstill : s.tallyStill)
    (hp : s.prin id = some p) (hsingle : p.single) :
    ∃ t, Machine.exec (.query l tag (.principal id) [.principalBoth id .course]) s = .next t ∧
      QueriedLost s t l tag id p (s.current id) ∧
      ∀ q k, s.prin q = some k → k.kind = .pool → ∃ k', t.prin q = some k' ∧ k'.unsettled = true := by
  obtain ⟨hkind, ⟨hcourse, hdept⟩, hsoft, hgrace⟩ := hsingle
  have hasked : (s.asked l tag .query).prin id = some p := hp
  obtain ⟨a, ha⟩ : ∃ a, a = (s.asked l tag .query).draw.2.modPrin id (loseDup 0 .course) := ⟨_, rfl⟩
  have hmeet : (s.asked l tag .query).meet (.principalBoth id .course) =
      a.unsettlePools.endPrincipalError id false := by
    rw [ha]
    unfold State.meet
    dsimp only
    rw [hasked]
    rfl
  have haprin : a.prin id = some p := by
    rw [ha]
    refine (State.prin_modPrin _ id _).trans ((congrArg _ hasked).trans ?_)
    unfold loseDup
    rw [Option.map_some, ← hcourse]
  have hacurrent : a.current id = s.current id := by
    rw [ha]
    exact current_modPrin_of (s.asked l tag .query).draw.2 id (f := loseDup 0 .course) (fun _ => rfl) id
  have hpools (q : Nat) (k : Principal) (hq : s.prin q = some k) (hk : k.kind = .pool) (hne : id ≠ q) :
      a.prin q = some k := by
    rw [ha]
    exact (State.prin_modPrin_ne _ _ hne).trans hq
  have haframe : a.tallyStill ∧ a.links = (s.asked l tag .query).links ∧ a.sup.op = s.sup.op ∧
      a.storeCount = s.storeCount := by
    rw [ha]
    exact ⟨hstill, rfl, rfl, rfl⟩
  clear ha
  obtain ⟨astill, alinks, aop, acount⟩ := haframe
  obtain ⟨bstill, bcurrent, bprin, bsup, blinks⟩ :=
    unsettleAll_spec (a.tally.principals.filter fun kp => decide (kp.2.kind = .pool)) astill
  rw [← unsettlePools_eq] at bstill bcurrent bprin bsup blinks
  have hbprin : ∃ q, a.unsettlePools.prin id = some q ∧ ∃ b, q = { p with unsettled := b } := by
    rw [bprin, haprin]
    split
    · exact ⟨_, rfl, true, rfl⟩
    · exact ⟨p, rfl, p.unsettled, rfl⟩
  obtain ⟨q, hq, b, hqp⟩ := hbprin
  have hsingle : q.single := by
    rw [hqp]
    exact ⟨hkind, ⟨hcourse, hdept⟩, hsoft, hgrace⟩
  obtain ⟨t, hexec, hqueried, hothers⟩ := query_fieldLost tag h hmeet bstill hq hsingle
    ((bcurrent id).trans hacurrent) (fun P kg hP => by rw [blinks, alinks]; exact hP)
    ((congrArg Supervisor.op bsup).trans aop) ((storeCount_of_sup bsup).trans acount)
  rw [hqp] at hqueried
  refine ⟨t, hexec, hqueried, fun j k hj hk => ?_⟩
  by_cases hne : id = j
  · subst hne
    obtain ⟨tprin, -⟩ := hqueried
    exact ⟨_, tprin, rfl⟩
  · have haj := hpools j k hj hk hne
    have hb := bprin j
    rw [if_pos (pool_listed haj hk), haj] at hb
    exact ⟨_, (hothers j hne).trans hb, rfl⟩

end

end Sys2Proof.Machine
end

section
/-! PROOF. Double errors in an extent record (R65): fourth to sixth clause of O9. -/

namespace Sys2Proof.Machine

section
variable {s t u v : State} {vol ext : Nat} {y : Volume} {lost : List ExtentField}

/-! ### A record damaged -/

/-- A volume with the damaged-record flag of one extent set (R65). -/
def Volume.damagedAt (y : Volume) (ext : Nat) : Volume :=
  { y with damage := if y.damage.contains ext then y.damage else sortNat (ext :: y.damage) }

theorem damagedAt_contains (y : Volume) (ext : Nat) : (y.damagedAt ext).damage.contains ext = true := by
  unfold Volume.damagedAt
  dsimp only
  split
  · assumption
  · exact List.contains_iff_mem.mpr (mem_sortNat.mpr List.mem_cons_self)

/-- The fields of an extent record lost with their words, one after another (R65). -/
def State.loseFields (s : State) (vol ext : Nat) (lost : List ExtentField) : State :=
  lost.foldl (fun s f => s.draw.2.setExtent vol ext (loseField s.draw.1 f (s.draw.2.extent vol ext))) s

theorem loseFields_frame (s : State) (vol ext : Nat) (lost : List ExtentField) :
    s.loseFields vol ext lost = { s with
      sup := { s.sup with draws := (s.loseFields vol ext lost).sup.draws }
      cat.extents := (s.loseFields vol ext lost).cat.extents } := by
  unfold State.loseFields
  induction lost generalizing s with
  | nil => rfl
  | cons f lost ih =>
    rw [List.foldl_cons, ih]
    rfl

/-- One field lost: nothing but the extent itself says what is read of it. -/
theorem loseFields_one (s : State) (vol ext : Nat) (f : ExtentField) :
    ∃ x, (s.loseFields vol ext [f]).extent vol ext = loseField x f (s.extent vol ext) :=
  ⟨s.draw.1, extent_setExtent_self s.draw.2 vol ext _⟩

/-- What a double error leaves of an extent record, by the fields lost (R65). -/
structure FieldsLost (lost : List ExtentField) (e x : Extent) : Prop where
  none : lost = [] → x = e
  owner : lost = [.owner] → x = { e with owner := 0 }
  occupied : ∀ i, lost = [.occupied i] → x = { e with versions := modAt e.versions i fun v => { v with occ := 0 } }
  shipped : ∀ i, lost = [.shipped i] →
    x = { e with versions := modAt e.versions i fun v => { v with shipped := false } }

theorem loseFields_spec (s : State) (vol ext : Nat) (lost : List ExtentField) :
    FieldsLost lost (s.extent vol ext) ((s.loseFields vol ext lost).extent vol ext) := by
  refine ⟨?_, ?_, ?_, ?_⟩
  · rintro rfl
    rfl
  · rintro rfl
    obtain ⟨x, hx⟩ := loseFields_one s vol ext .owner
    exact hx
  · rintro i rfl
    obtain ⟨x, hx⟩ := loseFields_one s vol ext (.occupied i)
    exact hx
  · rintro i rfl
    obtain ⟨x, hx⟩ := loseFields_one s vol ext (.shipped i)
    exact hx

theorem damageExtent_eq (s : State) (vol ext : Nat) (lost : List ExtentField) : s.damageExtent vol ext lost =
    ((s.modVolume vol fun y => y.damagedAt ext).loseFields vol ext lost).raise (.storeError (.extent vol ext)) := rfl

/-- From one state to another an extent record has been damaged: its flag is set, the fields lost read as zero, and
STORE_ERROR is counted; the blocks beside have not changed (R65). -/
structure ExtentDamaged (vol ext : Nat) (y : Volume) (lost : List ExtentField) (s t : State) : Prop where
  volume : t.volume vol = some (y.damagedAt ext)
  fields : FieldsLost lost (s.extent vol ext) (t.extent vol ext)
  parts : t.tally = s.tally ∧ t.pat = s.pat ∧ t.rst = s.rst ∧ t.cat.snapshots = s.cat.snapshots ∧
    t.cat.reclaims = s.cat.reclaims
  op : t.sup.op = s.sup.op
  count : t.storeCount = s.storeCount.map countUp
  gains : ∀ P, LinksGain P → P s.links → P t.links

theorem ExtentDamaged.damaged (h : ExtentDamaged vol ext y lost s t) : t.damaged vol ext = true := by
  unfold State.damaged
  rw [h.volume]
  exact damagedAt_contains y ext

theorem ExtentDamaged.calm (h : ExtentDamaged vol ext y lost s t) (hcalm : s.calm) : t.calm := by
  obtain ⟨htally, hpat, -⟩ := h.parts
  exact calm_congr htally hpat hcalm

theorem damageExtent_spec (lost : List ExtentField) (hy : s.volume vol = some y) :
    ExtentDamaged vol ext y lost s (s.damageExtent vol ext lost) := by
  rw [damageExtent_eq]
  obtain ⟨a, ha⟩ : ∃ a, a = s.modVolume vol fun y => y.damagedAt ext := ⟨_, rfl⟩
  have haext : a.extent vol ext = s.extent vol ext := by
    rw [ha]
    rfl
  have havol : a.volume vol = some (y.damagedAt ext) := by
    rw [ha, State.volume_modVolume, hy]
    rfl
  have haparts : a.tally = s.tally ∧ a.pat = s.pat ∧ a.rst = s.rst ∧ a.cat.snapshots = s.cat.snapshots ∧
      a.cat.reclaims = s.cat.reclaims ∧ a.sup = s.sup ∧ a.links = s.links := by
    rw [ha]
    exact ⟨rfl, rfl, rfl, rfl, rfl, rfl, rfl⟩
  rw [← ha]
  clear ha
  have hbframe := loseFields_frame a vol ext lost
  have hbfields := loseFields_spec a vol ext lost
  generalize a.loseFields vol ext lost = b at hbframe hbfields
  have hcframe := raise_eq b (.storeError (.extent vol ext))
  have hcop := raise_op b (.storeError (.extent vol ext))
  have hccount := storeCount_storeError b (.extent vol ext)
  have hcgains (P : Vector LinkRec 6 → Prop) (kg : LinksGain P) (hP : P b.links) :=
    gains_raise kg (s := b) (.storeError (.extent vol ext)) hP
  generalize b.raise (.storeError (.extent vol ext)) = c at hcframe hcop hccount hcgains
  obtain ⟨atally, apat, arst, asnap, arec, asup, alinks⟩ := haparts
  have hcat : c.cat = b.cat := by rw [hcframe]
  have hbop : b.sup.op = s.sup.op ∧ b.storeCount = s.storeCount ∧ b.links = s.links := by
    rw [hbframe]
    refine ⟨?_, ?_, alinks⟩
    · rw [← asup]
    · refine Eq.trans ?_ (storeCount_of_sup (s := s) asup)
      rfl
  obtain ⟨bop, bcount, blinks⟩ := hbop
  refine ⟨?_, ?_, ?_, hcop.trans bop, hccount.trans (congrArg _ bcount), fun P kg hP => hcgains P kg ?_⟩
  · rw [volume_congr (s := a) (by rw [hcat, hbframe])]
    exact havol
  · rw [← haext]
    have hext : c.extent vol ext = b.extent vol ext := by
      unfold State.extent
      rw [hcat]
    rw [hext]
    exact hbfields
  · rw [hcframe, hbframe]
    exact ⟨atally, apat, arst, asnap, arec⟩
  · rw [blinks]
    exact hP

/-- A double error in an extent record of an ATTACHED volume, met where Tally Unit and Patrol Unit are at rest. -/
theorem meet_extentRecord (lost : List ExtentField) (hcalm : s.calm) (hatt : s.cat.attaching = [])
    (hy : s.volume vol = some y) (hext : ext < y.count) :
    ExtentDamaged vol ext y lost s (s.meet (.extentRecord vol ext lost)) := by
  have hspec := damageExtent_spec (ext := ext) lost hy
  have hmeet : s.meet (.extentRecord vol ext lost) = s.damageExtent vol ext lost := by
    unfold State.meet
    dsimp only
    rw [hatt, if_neg (by simp), hy]
    dsimp only
    rw [if_pos hext]
    exact settlePatrol_still (hspec.calm hcalm).2
  rw [hmeet]
  exact hspec

/-! ### The commands that meet it -/

/-- A Query of an extent whose record meets a double error (R65). -/
theorem query_damaged {l : Link} (tag : Nat) (lost : List ExtentField) (h : s.takes l) (hcalm : s.calm)
    (hatt : s.cat.attaching = []) (hy : s.volume vol = some y) (hext : ext < y.count) :
    ∃ t, Machine.exec (.query l tag (.extent vol ext) [.extentRecord vol ext lost]) s = .next t ∧
      t.volume vol = some (y.damagedAt ext) ∧ Answered s t l tag .query .done (.record (t.extentView vol ext)) ∧
      t.sup.raised[10]? = (s.sup.raised[10]?).map countUp ∧ FieldsLost lost (s.extent vol ext) (t.extent vol ext) := by
  have hmet := meet_extentRecord (s := s.asked l tag .query) lost hcalm hatt hy hext
  have hentered : Entered s ((s.asked l tag .query).meet (.extentRecord vol ext lost)) l tag .query true :=
    (entered_asked s l tag .query).gains hmet.gains
  have hrun : ((s.asked l tag .query).meet (.extentRecord vol ext lost)).sup.op ≠ .halted := by
    rw [hmet.op]
    exact asked_running tag .query h
  have hexec := exec_query_met (q := .extent vol ext) h hrun
  have hcalmw := hmet.calm hcalm
  obtain ⟨hvolume, hfields, -, -, hcount, -⟩ := hmet
  generalize (s.asked l tag .query).meet (.extentRecord vol ext lost) = w at *
  have hlook : queryReply (w.lookup (.extent vol ext)) = (.done, .record (w.extentView vol ext)) := by
    unfold State.lookup
    dsimp only
    rw [hvolume]
    dsimp only
    rw [if_pos (show ext < (y.damagedAt ext).count from hext)]
    rfl
  rw [hlook] at hexec
  obtain ⟨fsup, -, -, fcat, -⟩ := finish_beside_parts
    (s := w.reply l s.sup.nextReq .done (.record (w.extentView vol ext))) hcalmw hrun
  have hanswered := answered_finish .done (.record (w.extentView vol ext)) h hentered
  generalize (w.reply l s.sup.nextReq .done (.record (w.extentView vol ext))).finish = t at *
  have hext' : t.extent vol ext = w.extent vol ext := by
    unfold State.extent
    rw [fcat]
    rfl
  have hview : t.extentView vol ext = w.extentView vol ext := by
    unfold State.extentView State.damaged State.snapsOf State.volume
    rw [hext', fcat]
    rfl
  refine ⟨t, hexec, ?_, ?_, ?_, ?_⟩
  · exact (volume_congr (s := w) (congrArg Catalogue.volumes fcat) vol).trans hvolume
  · rw [hview]
    exact hanswered
  · rw [fsup]
    exact hcount
  · rw [hext']
    exact hfields

theorem exec_commit_met {l : Link} {owner loc occ : Nat} {codes : Option (List Code)} {e : StoreError} {st : Status}
    (tag : Nat) (h : s.takes l) (hmet : ((s.asked l tag .commit).meet e).sup.op ≠ .halted)
    (hc : ((s.asked l tag .commit).meet e).commitCheck (some l) none vol ext owner loc occ codes = some st) :
    Machine.exec (.commit l tag vol ext owner loc occ codes [e]) s =
      .next (((s.asked l tag .commit).meet e).reply l s.sup.nextReq st .none).finish := by
  refine (act_asked_met _ h (.inl rfl) hmet).trans (congrArg Host.Outcome.next (congrArg State.finish ?_))
  generalize (s.asked l tag .commit).meet e = w at *
  rw [hc]

/-- A Commit that meets a double error in its extent record is refused DAMAGED (R53, R65). -/
theorem commit_damaged {l : Link} {owner loc occ : Nat} {codes : Option (List Code)} (tag : Nat)
    (h : s.commitReady l vol ext owner loc occ codes y) (hatt : s.cat.attaching = []) :
    ∃ t, Machine.exec (.commit l tag vol ext owner loc occ codes [.extentRecord vol ext []]) s = .next t ∧
      Answered s t l tag .commit .damaged .none ∧ t.damaged vol ext = true ∧ t.extent vol ext = s.extent vol ext := by
  obtain ⟨htakes, hcalm, hy, howner, hext, hown1, hown2, hocc, hcodes, hlock, -⟩ := h
  have hmet := meet_extentRecord (s := s.asked l tag .commit) [] hcalm hatt hy hext
  have hentered : Entered s ((s.asked l tag .commit).meet (.extentRecord vol ext [])) l tag .commit true :=
    (entered_asked s l tag .commit).gains hmet.gains
  have hrun : ((s.asked l tag .commit).meet (.extentRecord vol ext [])).sup.op ≠ .halted := by
    rw [hmet.op]
    exact asked_running tag .commit htakes
  have hcalmw := hmet.calm hcalm
  have hdamaged := hmet.damaged
  have hexec := exec_commit_met (e := .extentRecord vol ext []) (owner := owner) (loc := loc) (occ := occ)
    (codes := codes) (vol := vol) (ext := ext) (st := .damaged) tag htakes hrun
  obtain ⟨hvolume, hfields, -⟩ := hmet
  generalize (s.asked l tag .commit).meet (.extentRecord vol ext []) = w at *
  have hsame : w.extent vol ext = s.extent vol ext := hfields.none rfl
  have hcheck : w.commitCheck (some l) none vol ext owner loc occ codes = some .damaged := by
    rw [commitCheck_fits ⟨hown1, hown2, hocc, codesMatch_of hcodes⟩ hvolume, if_neg fun hne => hne howner.symm]
    unfold State.extentCheck
    rw [if_neg (show ¬(y.damagedAt ext).count ≤ ext from Nat.not_le.mpr hext), hsame, hlock, if_neg (by nofun),
      if_pos hdamaged]
  obtain ⟨-, -, -, fcat, -⟩ := finish_beside_parts (s := w.reply l s.sup.nextReq .damaged .none) hcalmw hrun
  refine ⟨_, hexec hcheck, answered_finish _ _ htakes hentered, ?_, ?_⟩
  · unfold State.damaged State.volume
    rw [fcat]
    exact hdamaged
  · unfold State.extent
    rw [fcat]
    exact hsame

/-- A sweep's visit that meets a double error in its extent record moves on (R65, R78). -/
theorem expiryVisit_damaged {gen : Nat} {p : Snapshot} (h : s.sweeps vol ext y) (hatt : s.cat.attaching = [])
    (hp : s.snapshot vol gen = some p) (hstate : p.state = .expiring ext) (hext : ext + 1 < y.count) :
    ∃ t, Machine.exec (.expirySweepVisit vol gen [.extentRecord vol ext []]) s = .next t ∧
      t.snapshot vol gen = some { p with state := .expiring (ext + 1) } ∧ t.damaged vol ext = true ∧
      t.extent vol ext = s.extent vol ext := by
  obtain ⟨hop, hcalm, hy, -⟩ := h
  have hrun : s.sup.op ≠ .halted := by rcases hop with h | h <;> rw [h] <;> decide
  have hmet := meet_extentRecord (s := { s with sent := [] }) [] hcalm hatt hy (Nat.lt_of_succ_lt hext)
  have hrunw : (State.meet { s with sent := [] } (.extentRecord vol ext [])).sup.op ≠ .halted := by
    rw [hmet.op]
    exact hrun
  have hexec : Machine.exec (.expirySweepVisit vol gen [.extentRecord vol ext []]) s =
      .next (withErrs [.extentRecord vol ext []] (fun s =>
        match s.volume vol, s.snapshot vol gen with
        | some v, some p =>
          (match p.state with
           | .expiring cursor =>
             (match s.visit vol gen cursor (s.expiryFate vol gen) with
              | some s => (s.moveExpiry vol gen cursor v.count).finish
              | none => s.waitSweep (snapKey vol gen))
           | _ => s)
        | _, _ => s) { s with sent := [] }) :=
    (act_running _ hrun).trans (congrArg Host.Outcome.next (if_pos (running_iff.mpr hop)))
  rw [withErrs_one (s := { s with sent := [] }) hrun hrunw] at hexec
  have hdamaged := hmet.damaged
  have hcalmw := hmet.calm hcalm
  obtain ⟨hvolume, hfields, ⟨-, -, -, hsnap, -⟩, -⟩ := hmet
  generalize State.meet { s with sent := [] } (.extentRecord vol ext []) = w at *
  have hwp : w.snapshot vol gen = some p := by
    unfold State.snapshot
    rw [hsnap]
    exact hp
  have hvisit : w.visit vol gen ext (w.expiryFate vol gen) = some (w.leaveSweep (snapKey vol gen)) := if_pos hdamaged
  rw [hvolume, hwp] at hexec
  dsimp only at hexec
  rw [hstate] at hexec
  dsimp only at hexec
  rw [hvisit] at hexec
  dsimp only at hexec
  have hmoved : (w.leaveSweep (snapKey vol gen)).moveExpiry vol gen ext (y.damagedAt ext).count =
      (w.leaveSweep (snapKey vol gen)).modSnapshot vol gen fun p => { p with state := .expiring (ext + 1) } :=
        if_pos hext
  rw [hmoved] at hexec
  obtain ⟨-, -, -, fcat, -⟩ := finish_beside_parts (s := (w.leaveSweep (snapKey vol gen)).modSnapshot vol gen
    fun p => { p with state := .expiring (ext + 1) }) hcalmw hrunw
  refine ⟨_, hexec, ?_, ?_, ?_⟩
  · unfold State.snapshot
    rw [fcat]
    exact (State.snapshot_modSnapshot (w.leaveSweep (snapKey vol gen)) vol gen _).trans (congrArg _ hwp)
  · unfold State.damaged State.volume
    rw [fcat]
    exact hdamaged
  · unfold State.extent
    rw [fcat]
    exact hfields.none rfl

end

end Sys2Proof.Machine
end

section
/-! PROOF. A double error in a restore record (R105): seventh clause of O9. -/

namespace Sys2Proof.Machine

section
variable {s t u : State} {rec : Nat} {r q : Restore}

/-! ### The record that holds a restore id -/

/-- A record holds a restore id, and is the one found under it (R99, R101). -/
def State.holdsRid (s : State) (rid rec : Nat) (q : Restore) : Prop :=
  s.recordOf rid = some (rec, q) ∧ s.restore rec = some q

theorem find_tput {rid : Nat} {x : Restore} (hx : x.rid = rid) : ∀ {t : Tbl Restore},
    t.find? (fun kr => kr.2.rid == rid) = some (rec, q) → tget t rec = some q →
      (tput t rec x).find? (fun kr => kr.2.rid == rid) = some (rec, x)
  | [], h, _ => nomatch h
  | (k, w) :: t, h, hget => by
    have hhead : ((rec, x) :: t).find? (fun kr => kr.2.rid == rid) = some (rec, x) :=
      List.find?_cons_of_pos (by simpa using hx)
    have hhead' : ((rec, x) :: (k, w) :: t).find? (fun kr => kr.2.rid == rid) = some (rec, x) :=
      List.find?_cons_of_pos (by simpa using hx)
    unfold tput
    by_cases hlt : rec < k
    · rw [if_pos hlt]
      exact hhead'
    · rw [if_neg hlt]
      by_cases hk : rec = k
      · rw [if_pos hk]
        exact hhead
      · rw [if_neg hk]
        unfold tget at hget
        rw [if_neg (Ne.symm hk)] at hget
        by_cases hw : w.rid = rid
        · rw [List.find?_cons_of_pos (by simpa using hw)] at h
          cases h
          exact absurd rfl hk
        · rw [List.find?_cons_of_neg (by simpa using hw)] at h ⊢
          exact find_tput hx h hget

theorem holdsRid_modRestore {rid : Nat} {f : Restore → Restore} (h : s.holdsRid rid rec q)
    (hf : ∀ x : Restore, (f x).rid = x.rid) : (s.modRestore rec f).holdsRid rid rec (f q) := by
  obtain ⟨hfind, hget⟩ := h
  have hrid : q.rid = rid := by simpa using List.find?_some (p := fun kr : Nat × Restore => kr.2.rid == rid) hfind
  refine ⟨?_, (State.restore_modRestore s rec f).trans (congrArg _ hget)⟩
  have hmod : (s.modRestore rec f).rst.table = tput s.rst.table rec (f q) := by
    change tmod s.rst.table rec f = _
    unfold tmod
    rw [show tget s.rst.table rec = some q from hget]
  unfold State.recordOf
  rw [hmod]
  exact find_tput ((hf q).trans hrid) hfind hget

theorem holdsRid_congr {rid : Nat} (h : s.holdsRid rid rec q) (htable : t.rst.table = s.rst.table) :
    t.holdsRid rid rec q := by
  obtain ⟨hfind, hget⟩ := h
  unfold State.holdsRid State.recordOf State.restore at *
  rw [htable]
  exact ⟨hfind, hget⟩

/-! ### What failing a restore leaves of the rest -/

/-- What of a link bears on the requests in its queue. -/
def LinkRec.asks (r : LinkRec) : Bool × List TxFrame × List ReqEntry := (r.up, r.tx, r.queue)

/-- From one state to another a restore record is failed: Supervisor and Patrol Unit stand, requests stay with their
blocks, and the record is still found under its id. -/
structure FailWork (rec : Nat) (s t : State) : Prop where
  sup : t.sup = s.sup
  pat : t.pat = s.pat
  asks : ∀ l, (t.link l).asks = (s.link l).asks
  holds : ∀ rid q, s.holdsRid rid rec q → ∃ x, t.holdsRid rid rec x

namespace FailWork

theorem refl (rec : Nat) (s : State) : FailWork rec s s := ⟨rfl, rfl, fun _ => rfl, fun _ q h => ⟨q, h⟩⟩

theorem trans (h : FailWork rec s t) (k : FailWork rec t u) : FailWork rec s u := by
  refine ⟨k.sup.trans h.sup, k.pat.trans h.pat, fun l => (k.asks l).trans (h.asks l), fun rid q hq => ?_⟩
  obtain ⟨x, hx⟩ := h.holds rid q hq
  exact k.holds rid x hx

theorem foldl {α : Type} {g : State → α → State} (hg : ∀ u j, FailWork rec u (g u j)) (js : List α) (s : State) :
    FailWork rec s (js.foldl g s) := by
  induction js generalizing s with
  | nil => exact refl rec s
  | cons j js ih => exact (hg s j).trans (ih _)

/-- Work beside Supervisor, Patrol Unit and records that leaves the links' requests. -/
theorem of_parts (hsup : t.sup = s.sup) (hpat : t.pat = s.pat) (hrst : t.rst.table = s.rst.table)
    (hasks : ∀ l, (t.link l).asks = (s.link l).asks) : FailWork rec s t :=
  ⟨hsup, hpat, hasks, fun _ q h => ⟨q, holdsRid_congr h hrst⟩⟩

theorem modRestore {f : Restore → Restore} (hf : ∀ x : Restore, (f x).rid = x.rid) (s : State) :
    FailWork rec s (s.modRestore rec f) :=
  ⟨rfl, rfl, fun _ => rfl, fun _ q h => ⟨f q, holdsRid_modRestore h hf⟩⟩

end FailWork

theorem modLink_asks {f : LinkRec → LinkRec} (hf : ∀ x : LinkRec, (f x).asks = x.asks) (l k : Link) (s : State) :
    ((s.modLink k f).link l).asks = (s.link l).asks := by
  rw [State.link_modLink]
  split
  · exact hf _
  · rfl

theorem leavePlaces_asks (who : Issuer) (l : Link) (s : State) :
    ((s.leavePlaces who).link l).asks = (s.link l).asks :=
    by
  unfold State.leavePlaces
  generalize allLinks = ls
  induction ls generalizing s with
  | nil => rfl
  | cons k ls ih =>
    refine (ih _).trans ?_
    apply modLink_asks
    exact fun _ => rfl

theorem failWork_dropStep (s : State) (i : Nat) : FailWork rec s (s.dropStep rec i) := by
  have hframe := dropStep_eq s rec i
  have hpart : (s.dropStep rec i).sup = s.sup ∧ (s.dropStep rec i).pat = s.pat ∧
      (s.dropStep rec i).rst.table = s.rst.table := by
    rw [hframe]
    exact ⟨rfl, rfl, rfl⟩
  obtain ⟨hsup, hpat, hrst⟩ := hpart
  exact FailWork.of_parts hsup hpat hrst fun l => leavePlaces_asks _ l _

theorem failWork_stepGone (s : State) (i : Nat) (f : Step → Step) :
    FailWork rec s ((s.modStep rec i f).dropStep rec i) :=
  (FailWork.modRestore (f := fun r => { r with steps := modAt r.steps i f }) (fun _ => rfl) s).trans
    (failWork_dropStep _ i)

theorem failWork_unlockStep (s : State) (i : Nat) : FailWork rec s (s.unlockStep rec i) := by
  rw [unlockStep_eq]
  exact FailWork.of_parts rfl rfl rfl fun _ => rfl

theorem orphanSteps_asks (rec : Nat) (l : Link) (s : State) :
    ((s.orphanSteps rec).link l).asks = (s.link l).asks := by
  have hslots (k : Link) (d : Directive) (u : State) : (u.orphanSlots k rec d).links = u.links := by
    unfold State.orphanSlots
    split
    · split <;> rfl
    · rfl
  have hone (k : Link) (ds : List Directive) (u : State) :
      (ds.foldl (fun s d => s.orphanSlots k rec d) u).links = u.links := by
    induction ds generalizing u with
    | nil => rfl
    | cons d ds ih => exact (ih _).trans (hslots k d u)
  unfold State.orphanSteps
  generalize allLinks = ls
  induction ls generalizing s with
  | nil => rfl
  | cons k ls ih =>
    refine (ih _).trans (Eq.trans ?_ (congrArg LinkRec.asks (State.link_congr (hone k (s.link k).directives s) l)))
    apply modLink_asks
    exact fun _ => rfl

theorem failWork_releaseConversions (s : State) : FailWork rec s (s.releaseConversions rec) :=
  FailWork.of_parts rfl rfl rfl fun _ => rfl

theorem failWork_failInFlight (s : State) (why : StepReason) : FailWork rec s (s.failInFlight rec why) := by
  unfold State.failInFlight
  split
  · exact FailWork.refl rec s
  · have horphan : FailWork rec s (s.orphanSteps rec) := by
      have hframe := orphanSteps_eq s rec
      have hpart : (s.orphanSteps rec).sup = s.sup ∧ (s.orphanSteps rec).pat = s.pat ∧
          (s.orphanSteps rec).rst.table = s.rst.table := by
        rw [hframe]
        exact ⟨rfl, rfl, rfl⟩
      obtain ⟨hsup, hpat, hrst⟩ := hpart
      exact FailWork.of_parts hsup hpat hrst fun l => orphanSteps_asks rec l s
    have hconv : FailWork rec s ((s.orphanSteps rec).releaseConversions rec) :=
      horphan.trans (failWork_releaseConversions _)
    generalize (s.orphanSteps rec).releaseConversions rec = w at hconv
    dsimp only
    exact hconv.trans (FailWork.foldl (fun u j => failWork_stepGone u j _) _ w)

theorem failWork_finishAs (s : State) (st : RestoreState) (cause : Option FailCause)
    (failed : Option (Nat × StepReason)) : FailWork rec s (s.finishAs rec st cause failed) :=
  (FailWork.modRestore (f := fun r =>
    { r with
      state := st, cause := cause, failedStep := failed, finishNo := some s.rst.nextFinish
      pausing := false }) (fun _ => rfl) s).trans (FailWork.of_parts rfl rfl rfl fun _ => rfl)

theorem failWork_releaseBlocks (s : State) (n : Nat) : FailWork rec s (s.releaseBlocks rec n) := by
  unfold State.releaseBlocks
  split
  · exact FailWork.refl rec s
  · refine (FailWork.modRestore (f := fun r => { r with remaining := r.remaining - n }) (fun _ => rfl) s).trans ?_
    rw [(askRelease_eq _ _ _).1]
    exact FailWork.of_parts rfl rfl rfl fun _ => rfl

theorem failWork_unlockAll (s : State) : FailWork rec s (s.unlockAll rec) := by
  unfold State.unlockAll State.unlockSteps
  split
  · exact FailWork.refl rec s
  · exact FailWork.foldl (fun u j => failWork_unlockStep u j) _ s

theorem failWork_dropRestorePin (s : State) : FailWork rec s (s.dropRestorePin rec) := by
  unfold State.dropRestorePin
  split
  · exact FailWork.refl rec s
  · split
    · refine (FailWork.modRestore (f := fun r => { r with pin := false }) (fun _ => rfl) s).trans ?_
      rw [dropPin_eq]
      exact FailWork.of_parts rfl rfl rfl fun _ => rfl
    · exact FailWork.refl rec s

theorem failWork_modActive (s : State) (person : Nat) (f : Nat → Nat) : FailWork rec s (s.modActive person f) :=
  FailWork.of_parts rfl rfl rfl fun _ => rfl

/-! ### What failing a restore leaves of the Tally Unit -/

/-- With no operation in progress, failing the steps of a restore leaves the Tally Unit. -/
theorem failInFlight_tally (h : s.tally.ops = []) (why : StepReason) : (s.failInFlight rec why).tally = s.tally := by
  unfold State.failInFlight
  split
  · rfl
  · have hconv : ((s.orphanSteps rec).releaseConversions rec).tally = s.tally := by
      rw [orphanSteps_eq]
      unfold State.releaseConversions
      dsimp only
      rw [h, List.map_nil, ← h]
    generalize (s.orphanSteps rec).releaseConversions rec = w at hconv
    dsimp only
    generalize Restore.indexes _ _ = js
    induction js generalizing w with
    | nil => exact hconv
    | cons j js ih =>
      refine ih _ ?_
      dsimp only
      rw [dropStep_eq]
      exact hconv

theorem unlockSteps_tally (s : State) (rec : Nat) (js : List Nat) : (s.unlockSteps rec js).tally = s.tally := by
  unfold State.unlockSteps
  induction js generalizing s with
  | nil => rfl
  | cons j js ih =>
    refine (ih _).trans ?_
    dsimp only
    rw [unlockStep_eq]

theorem unlockAll_tally (s : State) (rec : Nat) : (s.unlockAll rec).tally = s.tally := by
  unfold State.unlockAll
  split
  · rfl
  · exact unlockSteps_tally s rec _

theorem dropRestorePin_tally (s : State) (rec : Nat) : (s.dropRestorePin rec).tally = s.tally := by
  rw [dropRestorePin_eq]

/-- Blocks given up by a restore: a release of them waits at the Tally Unit, and nothing else there has changed. -/
theorem releaseBlocks_tally (n : Nat) (hr : s.restore rec = some r) :
    (s.releaseBlocks rec n).tally = { s.tally with
      ops := (s.releaseBlocks rec n).tally.ops, nextOp := (s.releaseBlocks rec n).tally.nextOp } ∧
    (n = 0 → (s.releaseBlocks rec n).tally.ops = s.tally.ops) ∧
    (0 < n → ∃ o ∈ (s.releaseBlocks rec n).tally.ops, o.job = .unreserve r.principal n) ∧
    ∀ o ∈ (s.releaseBlocks rec n).tally.ops, o ∈ s.tally.ops ∨ o.job = .unreserve r.principal n := by
  obtain ⟨-, htally, hops⟩ := askRelease_eq (s.modRestore rec fun r => { r with remaining := r.remaining - n })
    r.principal n
  refine ⟨?_, fun hn => ?_, fun hn => releaseBlocks_job hr hn, ?_⟩
  · rw [releaseBlocks_eq hr]
    exact htally
  · rw [releaseBlocks_eq hr]
    unfold State.askRelease
    rw [if_pos hn]
    rfl
  · rw [releaseBlocks_eq hr]
    exact hops

end

end Sys2Proof.Machine
end

section
/-! PROOF. A restore failed by a double error in its record (R105), and O9's Restore Status of it. -/

namespace Sys2Proof.Machine

section
variable {s t u : State} {rec n : Nat} {r q : Restore} {k : Principal}

/-! ### Notices leave requests -/

theorem queueTo_asks (b : NoticeBody) (x : Notice) (ls : List Link) (l : Link) (s : State) :
    ((State.queueTo b x ls s).link l).asks = (s.link l).asks := by
  induction ls generalizing s with
  | nil => rfl
  | cons j ls ih =>
    unfold State.queueTo
    refine (ih _).trans ?_
    split
    · apply modLink_asks
      intro r
      unfold LinkRec.queueNotice
      split <;> rfl
    · rfl

theorem raise_asks (s : State) (b : NoticeBody) (l : Link) : ((s.raise b).link l).asks = (s.link l).asks :=
  queueTo_asks _ _ _ l _

theorem holdsRid_raise {rid : Nat} (b : NoticeBody) (h : s.holdsRid rid rec q) : (s.raise b).holdsRid rid rec q :=
  holdsRid_congr h (by rw [raise_eq])

/-! ### A restore failed for want of its record -/

/-- From one state to another a restore has failed with cause STORE, `n` blocks of it going to a release (R105). -/
structure StoreFailed (s t : State) (rec n : Nat) (r : Restore) (k : Principal) : Prop where
  record : ∃ q, t.holdsRid r.rid rec q ∧ q.state = .failed ∧ q.cause = some .store ∧ q.remaining = 0 ∧ q.pin = false
  prin : t.prin r.principal = some { k with active := k.active - 1 }
  unlocked : ∀ i < r.steps.length, (t.extent (r.target i).1 (r.target i).2).lock ≠ some r.rid
  none : n = 0 → t.tally.ops = []
  release : 0 < n → ∃ o ∈ t.tally.ops, o.job = .unreserve r.principal n
  waits : ∀ o ∈ t.tally.ops, o.job = .unreserve r.principal n
  queues : t.tally.postings = s.tally.postings ∧ t.tally.modeReply = s.tally.modeReply ∧
    t.tally.flushing = s.tally.flushing
  op : t.sup.op = s.sup.op
  pat : t.pat = s.pat
  stores : t.storeCount = s.storeCount.map countUp
  ends : t.sup.raised[3]? = (s.sup.raised[3]?).map countUp
  asks : ∀ l, (t.link l).asks = (s.link l).asks

/-- The steps in flight failed, and the record finished (R105). -/
def State.storeEnded (s : State) (rec : Nat) : State :=
  (s.failInFlight rec .abandoned).finishAs rec .failed (some .store) none

/-- The blocks released, and no reservation left (R34, R105). -/
def State.storeReleased (s : State) (rec n : Nat) : State :=
  (s.releaseBlocks rec n).modRestore rec fun r => { r with remaining := 0 }

theorem storeFail_eq {readable : Bool} (hr : s.restore rec = some r) (hactive : r.state.isActive = true) :
    s.storeFail rec readable =
      (((((((s.raise (.storeError (.restore r.rid))).storeEnded rec).storeReleased rec
        (if readable then r.remaining else 0)).unlockAll rec).dropRestorePin rec).modActive r.principal
          (· - 1)).raiseEnd rec) := by
  unfold State.storeFail
  rw [hr]
  dsimp only
  rw [if_pos (.inl hactive), if_pos hactive, if_pos hactive]
  rfl

theorem storeEnded_record (hr : s.restore rec = some r) : ∃ q, (s.storeEnded rec).restore rec = some q ∧
    q.rid = r.rid ∧ q.state = .failed ∧ q.cause = some .store ∧ q.principal = r.principal ∧
      (∀ i, q.target i = r.target i) ∧ q.steps.length = r.steps.length := by
  obtain ⟨q, hq, hsteps, hlen⟩ := failInFlight_restore (why := .abandoned) hr
  refine ⟨_, (State.restore_modRestore (s.failInFlight rec .abandoned) rec _).trans (congrArg _ hq), ?_, rfl, rfl, ?_,
    fun i => ?_, hlen⟩
  all_goals rw [hsteps]
  rfl

theorem storeEnded_work (s : State) (rec : Nat) : FailWork rec s (s.storeEnded rec) :=
  (failWork_failInFlight s .abandoned).trans (failWork_finishAs _ _ _ _)

theorem storeEnded_tally (h : s.tally.ops = []) : (s.storeEnded rec).tally = s.tally :=
  failInFlight_tally h .abandoned

theorem storeReleased_work (s : State) (rec n : Nat) : FailWork rec s (s.storeReleased rec n) :=
  (failWork_releaseBlocks s n).trans (FailWork.modRestore (f := fun r => { r with remaining := 0 }) (fun _ => rfl) _)

theorem storeReleased_record (n : Nat) (hr : s.restore rec = some r) :
    (s.storeReleased rec n).restore rec = some { r with remaining := 0 } :=
  (State.restore_modRestore (s.releaseBlocks rec n) rec _).trans (congrArg _ (restore_releaseBlocks n hr))

theorem storeReleased_tally (hr : s.restore rec = some r) (n : Nat) : (s.storeReleased rec n).tally = { s.tally with
      ops := (s.storeReleased rec n).tally.ops, nextOp := (s.storeReleased rec n).tally.nextOp } ∧
    (n = 0 → (s.storeReleased rec n).tally.ops = s.tally.ops) ∧
    (0 < n → ∃ o ∈ (s.storeReleased rec n).tally.ops, o.job = .unreserve r.principal n) ∧
    ∀ o ∈ (s.storeReleased rec n).tally.ops, o ∈ s.tally.ops ∨ o.job = .unreserve r.principal n :=
  releaseBlocks_tally n hr

/-- The locks and the pin given up (R105). -/
theorem unlockDrop_spec (hr : s.restore rec = some r) :
    ((s.unlockAll rec).dropRestorePin rec).restore rec = some { r with pin := false } ∧
      ((s.unlockAll rec).dropRestorePin rec).tally = s.tally ∧
      FailWork rec s ((s.unlockAll rec).dropRestorePin rec) ∧
      ∀ i < r.steps.length, (((s.unlockAll rec).dropRestorePin rec).extent (r.target i).1 (r.target i).2).lock ≠
        some r.rid := by
  have hall : s.unlockAll rec = s.unlockSteps rec (List.range r.steps.length) := by
    unfold State.unlockAll
    rw [hr]
  have hlocks (i : Nat) (hi : i < r.steps.length) := unlockSteps_lock (List.range r.steps.length) hr
    (List.mem_range.mpr hi)
  have hrecord := (restore_unlockSteps (rec := rec) s (List.range r.steps.length) rec).trans hr
  have htally := unlockAll_tally s rec
  have hwork := failWork_unlockAll (rec := rec) s
  rw [← hall] at hlocks hrecord
  generalize s.unlockAll rec = w at *
  exact ⟨restore_dropRestorePin hrecord, (dropRestorePin_tally w rec).trans htally,
    hwork.trans (failWork_dropRestorePin w), fun i hi => (powerWork_dropRestorePin w rec).locks _ _ _ (hlocks i hi)⟩

theorem storeFail_spec {readable : Bool} (hholds : s.holdsRid r.rid rec r) (hactive : r.state.isActive = true)
    (hops : s.tally.ops = []) (hk : s.prin r.principal = some k) (hn : n = if readable then r.remaining else 0) :
    StoreFailed s (s.storeFail rec readable) rec n r k := by
  rw [storeFail_eq hholds.2 hactive, ← hn]
  clear hn
  have araise := holdsRid_raise (.storeError (.restore r.rid)) hholds
  have atally := raise_tally s (.storeError (.restore r.rid))
  obtain ⟨-, apat, -⟩ := raise_parts s (.storeError (.restore r.rid))
  have aop := raise_op s (.storeError (.restore r.rid))
  have astores := storeCount_storeError s (.restore r.rid)
  have aends : (s.raise (.storeError (.restore r.rid))).sup.raised[3]? = s.sup.raised[3]? := by
    rw [raise_raised, getElem?_modAt]
    rfl
  have aasks := raise_asks s (.storeError (.restore r.rid))
  generalize s.raise (.storeError (.restore r.rid)) = a at *
  obtain ⟨qb, bget, brid, bstate, bcause, bprin, btarget, blen⟩ := storeEnded_record araise.2
  have bwork := storeEnded_work a rec
  have btally := (storeEnded_tally (rec := rec) ((congrArg Tally.ops atally).trans hops)).trans atally
  generalize a.storeEnded rec = b at *
  have cget := storeReleased_record n bget
  have cwork := bwork.trans (storeReleased_work b rec n)
  obtain ⟨ctally, cnone, crelease, cwaits⟩ := storeReleased_tally bget n
  rw [btally] at ctally cnone cwaits
  generalize b.storeReleased rec n = c at *
  obtain ⟨dget, dtally, dwork, dlocks⟩ := unlockDrop_spec cget
  have dwork := cwork.trans dwork
  generalize (c.unlockAll rec).dropRestorePin rec = d at *
  obtain ⟨e, he⟩ : ∃ e, e = d.modActive r.principal (· - 1) := ⟨_, rfl⟩
  have ework : FailWork rec a e := by
    rw [he]
    exact dwork.trans (failWork_modActive d _ _)
  have eget : e.restore rec = some { qb with remaining := 0, pin := false } := by
    rw [he]
    exact dget
  have eprin : e.prin r.principal = some { k with active := k.active - 1 } := by
    have hd : d.prin r.principal = some k := by
      unfold State.prin
      rw [dtally, ctally]
      exact hk
    rw [he]
    exact (State.prin_modPrin d r.principal _).trans (congrArg _ hd)
  have etally : e.tally.ops = c.tally.ops ∧ e.tally.postings = s.tally.postings ∧
      e.tally.modeReply = s.tally.modeReply ∧ e.tally.flushing = s.tally.flushing := by
    have hkept : e.tally.ops = d.tally.ops ∧ e.tally.postings = d.tally.postings ∧
        e.tally.modeReply = d.tally.modeReply ∧ e.tally.flushing = d.tally.flushing := by
      rw [he]
      exact ⟨rfl, rfl, rfl, rfl⟩
    rw [dtally] at hkept
    obtain ⟨h1, h2, h3, h4⟩ := hkept
    refine ⟨h1, h2.trans ?_, h3.trans ?_, h4.trans ?_⟩
    all_goals rw [ctally]
  have elocks : ∀ i < r.steps.length, (e.extent (r.target i).1 (r.target i).2).lock ≠ some r.rid := by
    intro i hi
    have h := dlocks i (show i < qb.steps.length by rw [blen]; exact hi)
    have htarget : ({ qb with remaining := 0 } : Restore).target i = r.target i := btarget i
    rw [htarget] at h
    rw [he, ← brid]
    exact h
  rw [← he]
  clear he dget dtally dwork dlocks
  obtain ⟨eops, epost, emode, eflush⟩ := etally
  obtain ⟨x, hx⟩ := ework.holds r.rid r araise
  have hxq : x = { qb with remaining := 0, pin := false } := Option.some.inj (hx.2.symm.trans eget)
  rw [raiseEnd_eq hx.2]
  have hframe := raise_eq e (.restoreEnd x.rid x.principal x.link x.state x.cause x.failedStep (x.stepsIn .done)
    (x.stepsIn .skipped) (x.stepsIn .failed) (x.stepsIn .waiting) x.inFlight)
  have hholdsf := holdsRid_raise (.restoreEnd x.rid x.principal x.link x.state x.cause x.failedStep (x.stepsIn .done)
    (x.stepsIn .skipped) (x.stepsIn .failed) (x.stepsIn .waiting) x.inFlight) hx
  have hop := raise_op e (.restoreEnd x.rid x.principal x.link x.state x.cause x.failedStep (x.stepsIn .done)
    (x.stepsIn .skipped) (x.stepsIn .failed) (x.stepsIn .waiting) x.inFlight)
  have hstores := storeCount_raise e (b := .restoreEnd x.rid x.principal x.link x.state x.cause x.failedStep
    (x.stepsIn .done) (x.stepsIn .skipped) (x.stepsIn .failed) (x.stepsIn .waiting) x.inFlight) (by nofun)
  have hends : (e.raise (.restoreEnd x.rid x.principal x.link x.state x.cause x.failedStep
      (x.stepsIn .done) (x.stepsIn .skipped) (x.stepsIn .failed) (x.stepsIn .waiting) x.inFlight)).sup.raised[3]? =
      (e.sup.raised[3]?).map countUp := by
    rw [raise_raised, getElem?_modAt]
    rfl
  have hasks := raise_asks e (.restoreEnd x.rid x.principal x.link x.state x.cause x.failedStep (x.stepsIn .done)
    (x.stepsIn .skipped) (x.stepsIn .failed) (x.stepsIn .waiting) x.inFlight)
  generalize e.raise (.restoreEnd x.rid x.principal x.link x.state x.cause x.failedStep
    (x.stepsIn .done) (x.stepsIn .skipped) (x.stepsIn .failed) (x.stepsIn .waiting) x.inFlight) = f at *
  have ftally : f.tally = e.tally := by rw [hframe]
  have fcat : f.cat = e.cat := by rw [hframe]
  have fpat : f.pat = e.pat := by rw [hframe]
  refine ⟨⟨x, hholdsf, ?_, ?_, ?_, ?_⟩, ?_, fun i hi => ?_, fun hz => ?_, fun hpos => ?_, fun o ho => ?_, ?_, ?_, ?_,
    ?_, ?_, fun l => ?_⟩
  · rw [hxq]
    exact bstate
  · rw [hxq]
    exact bcause
  · rw [hxq]
  · rw [hxq]
  · unfold State.prin
    rw [ftally]
    exact eprin
  · unfold State.extent
    rw [fcat]
    exact elocks i hi
  · rw [ftally, eops, cnone hz]
    exact hops
  · rw [ftally, eops, ← bprin]
    exact crelease hpos
  · rw [ftally, eops] at ho
    rcases cwaits o ho with h | h
    · rw [hops] at h
      cases h
    · rw [← bprin]
      exact h
  · rw [ftally]
    exact ⟨epost, emode, eflush⟩
  · rw [hop, ework.sup]
    exact aop
  · rw [fpat, ework.pat]
    exact apat
  · rw [hstores, storeCount_of_sup ework.sup]
    exact astores
  · rw [hends, ework.sup, aends]
  · exact (hasks l).trans ((ework.asks l).trans (aasks l))

/-! ### The Tally Unit goes on, and the step ends -/

/-- From one state to another only lines, castout entries and the stages of operations, links, slots and the offsite
engine have changed. -/
structure Gathered (s t : State) : Prop where
  sup : t.sup = s.sup
  cat : t.cat = s.cat
  rst : t.rst = s.rst
  pat : t.pat = s.pat
  principals : t.tally.principals = s.tally.principals
  queues : t.tally.postings = s.tally.postings ∧ t.tally.modeReply = s.tally.modeReply ∧
    t.tally.flushing = s.tally.flushing
  ops : t.tally.ops.map TallyOp.job = s.tally.ops.map TallyOp.job

theorem Gathered.trans (h : Gathered s t) (k : Gathered t u) : Gathered s u := by
  obtain ⟨hpost, hmode, hflush⟩ := h.queues
  obtain ⟨kpost, kmode, kflush⟩ := k.queues
  exact ⟨k.sup.trans h.sup, k.cat.trans h.cat, k.rst.trans h.rst, k.pat.trans h.pat,
    k.principals.trans h.principals, ⟨kpost.trans hpost, kmode.trans hmode, kflush.trans hflush⟩, k.ops.trans h.ops⟩

/-- Operations that wait for steps of their own, and nothing else to go on with (R22). -/
structure Waits (s : State) : Prop where
  jobs : ∀ j ∈ s.tally.ops.map TallyOp.job, j.runsAtOnce = false
  queues : s.tally.postings = [] ∧ s.tally.modeReply = [] ∧ s.tally.flushing = false
  patrol : s.patrolStill

theorem Waits.gathered (h : Waits s) (k : Gathered s t) : Waits t := by
  obtain ⟨hpost, hmode, hflush⟩ := h.queues
  obtain ⟨kpost, kmode, kflush⟩ := k.queues
  refine ⟨?_, ⟨kpost.trans hpost, kmode.trans hmode, kflush.trans hflush⟩, ?_⟩
  · rw [k.ops]
    exact h.jobs
  · unfold State.patrolStill
    rw [k.pat]
    exact h.patrol

theorem gathered_settled (h : Waits s) : Gathered s s.advance.settle ∧ s.advance.settle.links = s.links := by
  obtain ⟨hpost, hmode, hflush⟩ := h.queues
  have hg := advance_gatherOnly (fun o ho => h.jobs o.job (List.mem_map_of_mem ho)) hpost hmode hflush
  have hothers := hg.others
  simp only [State.others, Prod.mk.injEq] at hothers
  obtain ⟨gcat, grst, -, -, gpat⟩ := hothers
  have hstill : s.advance.patrolStill := by
    unfold State.patrolStill
    rw [gpat]
    exact h.patrol
  have gsup := hg.sup
  have glinks := hg.links
  have gprins := hg.principals
  have gqueues := hg.queues
  have gops : s.advance.tally.ops.map TallyOp.job = s.tally.ops.map TallyOp.job := by
    have hmap := congrArg (List.map Prod.snd) hg.ops
    rw [List.map_map, List.map_map] at hmap
    exact hmap
  unfold State.settle
  rw [settlePatrol_still hstill]
  generalize s.advance = a at *
  have hbeside := settleLink_beside a
  simp only [State.besideLink, Prod.mk.injEq] at hbeside
  obtain ⟨bsup, blinks, btally, bcat, brst, bpat, -⟩ := hbeside
  generalize a.settleLink = b at *
  refine ⟨⟨bsup.trans gsup, bcat.trans gcat, brst.trans grst, bpat.trans gpat, ?_, ?_, ?_⟩, blinks.trans glinks⟩
  · rw [btally]
    exact gprins
  · rw [btally]
    exact gqueues
  · rw [btally]
    exact gops

theorem gathered_finish (hrun : s.sup.op ≠ .halted) (h : Waits s) : Gathered s s.finish := by
  rw [finish_running hrun]
  obtain ⟨hg, -⟩ := gathered_settled h
  exact hg

/-- A reply leaves all but its link. -/
theorem gathered_reply (s : State) (l : Link) (req : Nat) (st : Status) (b : ReplyBody) :
    Gathered s (s.reply l req st b) := ⟨rfl, rfl, rfl, rfl, rfl, ⟨rfl, rfl, rfl⟩, rfl⟩

theorem mem_jobs_gathered (k : Gathered s t) {j : Job} (h : ∃ o ∈ s.tally.ops, o.job = j) :
    ∃ o ∈ t.tally.ops, o.job = j := by
  have hmem : j ∈ t.tally.ops.map TallyOp.job := by
    rw [k.ops]
    obtain ⟨o, ho, hj⟩ := h
    exact hj ▸ List.mem_map_of_mem ho
  exact List.mem_map.mp hmem

theorem none_gathered (k : Gathered s t) (h : s.tally.ops = []) : t.tally.ops = [] := by
  have hops := k.ops
  rw [h] at hops
  exact List.map_eq_nil_iff.mp hops

/-! ### Restore Status of it -/

theorem asks_parts {a b : LinkRec} (h : a.asks = b.asks) : a.up = b.up ∧ a.tx = b.tx ∧ a.queue = b.queue := by
  simpa only [LinkRec.asks, Prod.mk.injEq] using h

theorem StoreFailed.waiting (h : StoreFailed s t rec n r k) (hcalm : s.calm) : Waits t := by
  obtain ⟨⟨-, hpost, hmode, hflush⟩, hpatrol⟩ := hcalm
  obtain ⟨qpost, qmode, qflush⟩ := h.queues
  refine ⟨fun j hj => ?_, ⟨qpost.trans hpost, qmode.trans hmode, qflush.trans hflush⟩, ?_⟩
  · obtain ⟨o, ho, rfl⟩ := List.mem_map.mp hj
    rw [h.waits o ho]
    rfl
  · unfold State.patrolStill
    rw [h.pat]
    exact hpatrol

/-- What has failed stands as the Tally Unit goes on, and as its record is reported. -/
theorem StoreFailed.gathered (h : StoreFailed s t rec n r k) (g : Gathered t u) :
    (∃ q, u.holdsRid r.rid rec q ∧ q.state = .failed ∧ q.cause = some .store ∧ q.remaining = 0 ∧ q.pin = false) ∧
      u.prin r.principal = some { k with active := k.active - 1 } ∧
      (∀ i < r.steps.length, (u.extent (r.target i).1 (r.target i).2).lock ≠ some r.rid) ∧
      u.sup = t.sup := by
  obtain ⟨q, hq, hrest⟩ := h.record
  refine ⟨⟨q, holdsRid_congr hq (by rw [g.rst]), hrest⟩, ?_, fun i hi => ?_, g.sup⟩
  · unfold State.prin
    rw [g.principals]
    exact h.prin
  · unfold State.extent
    rw [g.cat]
    exact h.unlocked i hi

/-- Seventh clause of O9: what a Restore Status shows of a restore whose record has met a double error. -/
theorem restoreStatus_failed {l : Link} {rid : Nat} (tag : Nat) (readable : Bool) (h : s.takes l) (hcalm : s.calm)
    (hfind : s.recordOf rid = some (rec, r)) (hget : s.restore rec = some r) (hrid : r.rid = rid)
    (hplanned : r.state = .planned) (hk : s.prin r.principal = some k) :
    ∃ t r' k', Machine.exec (.restoreStatus l tag rid [.restoreBoth rec readable]) s = .next t ∧
      t.restore rec = some r' ∧ r'.state = .failed ∧ r'.cause = some .store ∧ r'.remaining = 0 ∧
      r'.pin = false ∧ t.prin r.principal = some k' ∧ k'.active = k.active - 1 ∧
      (∀ i, i < r.steps.length → (t.extent (r.target i).1 (r.target i).2).lock ≠ some rid) ∧
      Answered s t l tag .restoreStatus .done (.record (restoreView rec r')) ∧
      t.sup.raised[10]? = (s.sup.raised[10]?).map countUp ∧
      t.sup.raised[3]? = (s.sup.raised[3]?).map countUp ∧
      (readable = false ∨ r.remaining = 0 → t.tally.ops = []) ∧
      (readable = true → 0 < r.remaining → ∃ o ∈ t.tally.ops, o.job = .unreserve r.principal r.remaining) := by
  subst hrid
  have hactive : r.state.isActive = true := by
    rw [hplanned]
    rfl
  have hfailed := storeFail_spec (s := s.asked l tag .restoreStatus) (readable := readable) ⟨hfind, hget⟩ hactive
    hcalm.1.1 hk rfl
  have hmeet : (s.asked l tag .restoreStatus).meet (.restoreBoth rec readable) =
      ((s.asked l tag .restoreStatus).storeFail rec readable).advance.settle := rfl
  have hwaits := hfailed.waiting hcalm
  obtain ⟨hg, hlinks⟩ := gathered_settled hwaits
  have hentered : Entered s (((s.asked l tag .restoreStatus).storeFail rec readable).advance.settle) l tag
      .restoreStatus true := by
    obtain ⟨hup, htx, hqueue⟩ := asks_parts (hfailed.asks l)
    have hlink := State.link_congr hlinks l
    exact (entered_asked s l tag .restoreStatus).of_kept ((congrArg LinkRec.up hlink).trans hup)
      ((congrArg LinkRec.tx hlink).trans htx) ((congrArg LinkRec.queue hlink).trans hqueue)
  have hrun : (((s.asked l tag .restoreStatus).storeFail rec readable).advance.settle).sup.op ≠ .halted := by
    rw [hg.sup, hfailed.op]
    exact asked_running tag .restoreStatus h
  have hexec := act_asked_met (s := s) (l := l) (tag := tag) (k := .restoreStatus) (co := false)
    (e := .restoreBoth rec readable) (fun q s =>
      match s.recordOf r.rid with
      | none => s.reply l q .range .none
      | some (rec, r) => s.reply l q .done (.record (restoreView rec r))) h (.inl rfl) (by rw [hmeet]; exact hrun)
  rw [hmeet] at hexec
  generalize (s.asked l tag .restoreStatus).storeFail rec readable = f at *
  have hwaitsg := hwaits.gathered hg
  generalize f.advance.settle = g at *
  obtain ⟨⟨q, hq, -⟩, -⟩ := hfailed.gathered hg
  rw [hq.1] at hexec
  have hreply := gathered_reply g l s.sup.nextReq .done (.record (restoreView rec q))
  have hend := hreply.trans (gathered_finish (s := g.reply l s.sup.nextReq .done (.record (restoreView rec q))) hrun
    (hwaitsg.gathered hreply))
  have hanswered := answered_finish .done (.record (restoreView rec q)) h hentered
  dsimp only at hexec
  generalize (g.reply l s.sup.nextReq .done (.record (restoreView rec q))).finish = t at *
  have hall := hg.trans hend
  obtain ⟨⟨x, hx, hstate, hcause, hrem, hpin⟩, hprin, hlocks, hsup⟩ := hfailed.gathered hall
  have hxq : x = q := by
    have hgq := hq.2
    have hxt := hx.2
    unfold State.restore at hgq hxt
    rw [hend.rst] at hxt
    exact Option.some.inj (hxt.symm.trans hgq)
  subst hxq
  refine ⟨t, x, _, hexec, hx.2, hstate, hcause, hrem, hpin, hprin, rfl, hlocks, hanswered, ?_, ?_, fun hz => ?_,
    fun hread hpos => ?_⟩
  · rw [hsup]
    exact hfailed.stores
  · rw [hsup]
    exact hfailed.ends
  · refine none_gathered hall (hfailed.none ?_)
    rcases hz with rfl | hz
    · rfl
    · rw [hz, ite_self]
  · rw [hread, if_pos rfl] at hfailed
    exact mem_jobs_gathered hall (hfailed.release hpos)

end

end Sys2Proof.Machine
end

section
/-! PROOF. A double error in the slot of a SHIP frame (R115): eighth clause of O9. -/

namespace Sys2Proof.Machine

section
variable {s t u : State} {n m : Nat} {e : ShipEntry} {x : Slot} {p : PlanVol}

/-! ### What settling sends -/

/-- With frames outstanding, a move of the direction closes nothing. -/
theorem redirectOnce_sent (hout : s.off.outstanding ≠ []) :
    s.redirectOnce.sent = s.sent ∧ s.redirectOnce.off.outstanding = s.off.outstanding := by
  have hsome : s.off.outstanding.isEmpty = false := by
    cases h : s.off.outstanding with
    | nil => exact absurd h hout
    | cons f fs => rfl
  have hchoose : s.chooseDir.sent = s.sent ∧ s.chooseDir.off.outstanding = s.off.outstanding := by
    unfold State.chooseDir State.modOff
    dsimp only
    repeat' split
    all_goals exact ⟨rfl, rfl⟩
  unfold State.redirectOnce
  rw [hsome]
  dsimp only
  repeat' split
  all_goals first
    | exact hchoose
    | exact ⟨rfl, rfl⟩
    | contradiction

/-- With the link not DOWN and frames outstanding, the settling of the link sends nothing. -/
theorem settleLink_sent (hlink : s.off.link ≠ .down) (hout : s.off.outstanding ≠ []) :
    s.settleLink.sent = s.sent := by
  have hserved := (serveRoom_served (s := s.clearShed) hlink).frame
  have hroom : s.clearShed.serveRoom.sent = s.sent ∧ s.clearShed.serveRoom.off.outstanding ≠ [] := by
    rw [hserved]
    exact ⟨rfl, hout⟩
  obtain ⟨hsent, -⟩ := iter_keeps (P := fun u => u.sent = s.sent ∧ u.off.outstanding ≠ [])
    (fun u hu => by
      obtain ⟨hu1, hu2⟩ := hu
      obtain ⟨h1, h2⟩ := redirectOnce_sent hu2
      exact ⟨h1.trans hu1, by rw [h2]; exact hu2⟩) 3 hroom
  exact hsent

/-! ### A frame cut short -/

theorem meet_shipSlot (hx : s.slot n = some x) (hcls : x.cls = .ship) (hholder : x.holder = .shipPull m) :
    s.meet (.slot n) = ((s.raise (.storeError (.slot n))).vacate n).handBack n := by
  unfold State.meet
  dsimp only
  rw [hx]
  dsimp only
  rw [if_neg (by rw [hcls]; nofun), hholder]

/-- Frames that are vacant, or carry no entry of a slot, stand as the slot's frame is made vacant. -/
theorem vacate_outstanding (h : ∀ f ∈ s.off.outstanding, f.vacant = true ∨
      ∀ num y, f.entryNum = some num → s.entry num = some y → y.slot ≠ some n) :
    (s.vacate n).off.outstanding = s.off.outstanding := by
  unfold State.vacate State.modOff
  dsimp only
  unfold mapIf
  refine (List.map_congr_left fun f hf => ?_).trans (List.map_id _)
  by_cases hvacant : f.vacant = true
  · have hsame : ({ f with vacant := true } : OutFrame) = f := by
      cases f
      cases hvacant
      rfl
    dsimp only [id]
    rw [hsame]
    exact ite_self _
  · have hkeeps := (h f hf).resolve_left hvacant
    unfold OutFrame.entryNum at hkeeps
    rw [if_neg]
    · rfl
    · dsimp only
      cases hbody : f.body with
      | ship num vol ext birth target base chunks =>
        rw [hbody] at hkeeps
        dsimp only at hkeeps
        rw [if_neg hvacant] at hkeeps
        cases hentry : s.entry num with
        | none => simp [hentry]
        | some y => simpa [hentry] using hkeeps num y rfl hentry
      | _ => simp

theorem unreadable_slot (hslot : e.slot = some n) : e.unreadable [.slot n] = true := by
  unfold ShipEntry.unreadable
  rw [hslot]
  simp

/-- The state in which an entry's frame has joined the list vacant (R115, R143). -/
def State.vacantJoined (s : State) (e : ShipEntry) (p : PlanVol) : State :=
  s.joinShip (.ship e.num e.vol e.ext e.birth p.target p.base e.chunks) true

theorem shipEntry_unread (hplan : s.planOf e.vol = some p) (hslot : e.slot = some n) :
    s.shipEntry e [.slot n] = (s.vacantJoined e p).meet (.slot n) := by
  unfold State.shipEntry
  rw [targetBase_of hplan]
  dsimp only
  rw [if_pos (unreadable_slot hslot)]
  unfold State.cutShort
  rw [hslot]
  rfl

theorem exec_ship_slot (hrun : s.sup.op ≠ .halted) : Sys2Proof.Machine.exec (.ship [.slot n]) s =
    .next (({ s with sent := [] } : State).shipNext [.slot n]).finish := by
  have hslots : slotErrors [.slot n] = [.slot n] := rfl
  have hothers : otherErrors [.slot n] = [] := by simp [otherErrors, hslots]
  change execShip [.slot n] s = _
  unfold execShip
  rw [hslots, hothers]
  exact act_withErrs_nil _ hrun

theorem shipNext_first {rest : List ShipEntry} (errs : List StoreError) (hphase : s.off.phase = .windowOpen)
    (hmay : s.shipMay = true) (hctl : s.off.controls = []) (hvacant : ∀ f ∈ s.off.outstanding, f.vacant = false)
    (hq : s.off.queue = e :: rest) (hst : e.state = .ready) : s.shipNext errs = s.shipEntry e errs := by
  obtain ⟨hup, hdir, -, -⟩ := shipMay_iff.mp hmay
  have hopen : s.windowIsOpen = true := decide_eq_true hphase
  have hlink : s.linkUp = true := decide_eq_true hup
  have hfind : (s.off.queue.find? fun e => decide (e.state = .ready)) = some e := by
    rw [hq, List.find?_cons_of_pos]
    exact decide_eq_true hst
  unfold State.shipNext
  rw [if_neg (by rw [hopen, hlink, hdir]; rintro (h | h | h) <;> simp at h), vacantReady_none hvacant]
  dsimp only
  rw [if_neg (by rw [hmay, hctl]; rintro (h | h) <;> simp at h), hfind]

/-- What a frame cut short leaves: it is the list's last, vacant, and its entry is UNPULLED without its slot. -/
structure CutShort (s t : State) (e : ShipEntry) (n : Nat) (f : OutFrame) : Prop where
  outstanding : t.off.outstanding = s.off.outstanding ++ [f]
  entry : { e with state := .unpulled, slot := none } ∈ t.off.queue
  slot : t.slot n = none
  kept : t.off.plan = s.off.plan ∧ t.off.link = s.off.link ∧ t.sent = s.sent ∧ t.tally = s.tally ∧ t.pat = s.pat
  op : t.sup.op = s.sup.op
  count : t.storeCount = s.storeCount.map countUp

theorem cutShort_spec (hplan : s.planOf e.vol = some p) (hslot : e.slot = some n) (hx : s.slot n = some x)
    (hcls : x.cls = .ship) (hholder : x.holder = .shipPull m) (hnums : s.off.withdrawnNums = [])
    (hmem : e ∈ s.off.queue) (hready : e.state = .ready)
    (hfree : ∀ f ∈ s.off.outstanding, ∀ num y, f.entryNum = some num → s.entry num = some y → y.slot ≠ some n) :
    CutShort s (s.shipEntry e [.slot n]) e n { num := s.off.seqCounter
                                               body := .ship e.num e.vol e.ext e.birth p.target p.base e.chunks
                                               received := false, naks := 0, vacant := true } := by
  rw [shipEntry_unread hplan hslot]
  obtain ⟨jout, -, -, jqueue, jlink, -, -, -, jplan, jstr, jpat, jsup, jtally, jsent⟩ :=
    joinShip_spec (s := s) (.ship e.num e.vol e.ext e.birth p.target p.base e.chunks) true
  rw [nextSeq_none hnums] at jout
  change (s.vacantJoined e p).off.outstanding = _ at jout
  change (s.vacantJoined e p).off.queue = _ at jqueue
  change (s.vacantJoined e p).off.link = _ at jlink
  change (s.vacantJoined e p).off.plan = _ at jplan
  change (s.vacantJoined e p).str = _ at jstr
  change (s.vacantJoined e p).pat = _ at jpat
  change (s.vacantJoined e p).sup = _ at jsup
  change (s.vacantJoined e p).tally = _ at jtally
  change (s.vacantJoined e p).sent = _ at jsent
  generalize s.vacantJoined e p = j at *
  have hjx : j.slot n = some x := by
    unfold State.slot at hx ⊢
    rw [jstr]
    exact hx
  rw [meet_shipSlot hjx hcls hholder]
  have vframe := raise_eq j (.storeError (.slot n))
  have vop := raise_op j (.storeError (.slot n))
  have vcount := storeCount_storeError j (.slot n)
  generalize j.raise (.storeError (.slot n)) = v at *
  have voff : v.off = j.off := by rw [vframe]
  have vkept : v.tally = j.tally ∧ v.pat = j.pat ∧ v.sent = j.sent := by
    rw [vframe]
    exact ⟨rfl, rfl, rfl⟩
  have hout : (v.vacate n).off.outstanding = v.off.outstanding := by
    refine vacate_outstanding fun f hf => ?_
    rw [voff, jout] at hf
    rcases List.mem_append.mp hf with hf | hf
    · right
      intro num y hnum hentry
      refine hfree f hf num y hnum ?_
      unfold State.entry at hentry ⊢
      rw [voff, jqueue] at hentry
      exact hentry
    · left
      rw [List.mem_singleton.mp hf]
  have hqueue : (v.vacate n).off.queue = s.off.queue := by
    change v.off.queue = _
    rw [voff, jqueue]
  have hback := handBack_queue (s := v.vacate n) (n := n) (y := e) (by rw [hqueue]; exact hmem) hslot hready
  obtain ⟨vtally, vpat, vsent⟩ := vkept
  refine ⟨?_, hback, State.slot_freeSlot _ n, ⟨?_, ?_, vsent.trans jsent, vtally.trans jtally, vpat.trans jpat⟩, ?_, ?_⟩
  · change (v.vacate n).off.outstanding = _
    rw [hout, voff, jout]
  · change v.off.plan = _
    rw [voff, jplan]
  · change v.off.link = _
    rw [voff, jlink]
  · change v.sup.op = _
    rw [vop, jsup]
  · change v.storeCount = _
    rw [vcount, storeCount_of_sup jsup]

/-- Eighth clause of O9. -/
theorem ship_cutShort {rest : List ShipEntry} (hrun : s.sup.op ≠ .halted) (hcalm : s.calm)
    (hphase : s.off.phase = .windowOpen) (hmay : s.shipMay = true) (hctl : s.off.controls = [])
    (hnums : s.off.withdrawnNums = []) (hvacant : ∀ f ∈ s.off.outstanding, f.vacant = false)
    (hq : s.off.queue = e :: rest) (hst : e.state = .ready) (hplan : s.planOf e.vol = some p)
    (hplans : ∀ q ∈ s.off.plan, q.state ≠ .shed ∧ q.state ≠ .failed) (hslot : e.slot = some n)
    (hx : s.slot n = some x) (hcls : x.cls = .ship) (hholder : x.holder = .shipPull m)
    (hfree : ∀ f ∈ s.off.outstanding, ∀ num y, f.entryNum = some num → s.entry num = some y → y.slot ≠ some n) :
    ∃ t f, Sys2Proof.Machine.exec (.ship [.slot n]) s = .next t ∧ t.off.outstanding = s.off.outstanding ++ [f] ∧
      f.num = s.off.seqCounter ∧ f.vacant = true ∧ (∀ o, Output.offsite o ∉ t.sent) ∧ t.slot n = none ∧
      { e with state := .unpulled, slot := none } ∈ t.off.queue ∧
      t.sup.raised[10]? = (s.sup.raised[10]?).map countUp := by
  let a : State := { s with sent := [] }
  have hexec := exec_ship_slot (n := n) hrun
  have hnext : a.shipNext [.slot n] = a.shipEntry e [.slot n] :=
    shipNext_first (s := a) [.slot n] hphase hmay hctl hvacant hq hst
  have hcut := cutShort_spec (s := a) hplan hslot hx hcls hholder hnums
    (by change e ∈ s.off.queue; rw [hq]; exact List.mem_cons_self) hst hfree
  obtain ⟨hup, -, -, -⟩ := shipMay_iff.mp hmay
  change _ = Host.Outcome.next (a.shipNext [.slot n]).finish at hexec
  rw [hnext] at hexec
  generalize a.shipEntry e [.slot n] = w at *
  obtain ⟨wplan, wlink, wsent, wtally, wpat⟩ := hcut.kept
  have hwcalm : w.calm := calm_congr (s := s) wtally wpat hcalm
  have hwrun : w.sup.op ≠ .halted := by
    rw [hcut.op]
    exact hrun
  have hwout := hcut.outstanding
  obtain ⟨hlast, -, hqueue⟩ := finish_lasting hwcalm.2 hwrun
  obtain ⟨hsup, -⟩ := finish_beside_parts hwcalm hwrun
  have hsent : w.finish.sent = [] := by
    rw [finish_calm hwcalm hwrun]
    refine (settleLink_sent ?_ ?_).trans wsent
    · rw [wlink]
      exact fun hno => nomatch hup.symm.trans hno
    · rw [hwout]
      simp
  refine ⟨w.finish, _, hexec, (congrArg Offsite.outstanding hlast : _).trans hwout, rfl, rfl, ?_, ?_, ?_, ?_⟩
  · rw [hsent]
    exact fun o => List.not_mem_nil
  · rw [finish_slots hwcalm.2 hwrun]
    exact hcut.slot
  · rw [hqueue, clearShed_queue (by rw [wplan]; exact hplans)]
    exact hcut.entry
  · rw [hsup]
    exact hcut.count

end

end Sys2Proof.Machine
end

section
/-! PROOF. A double error in a slot of a PUT (R115), and O9. -/

namespace Sys2Proof.Machine

section
variable {s t u : State} {rec i n k : Nat} {r : Restore} {x : Step} {v : Version} {y : Slot}

/-! ### A slot's error and the chunks of its step -/

theorem meet_stepSlot (hy : s.slot n = some y) (hcls : y.cls = .fetch) (hholder : y.holder = .step rec i) :
    s.meet (.slot n) =
      ((s.raise (.storeError (.slot n))).freeSlot n).stepFetched rec i (some y.idx) .differs := by
  unfold State.meet
  dsimp only
  rw [hy]
  dsimp only
  rw [if_neg (by rw [hcls]; nofun), hholder]

theorem length_chunksOf (s : State) (h : SlotHolder) (st : SlotState) : (s.chunksOf h st).length =
    (s.str.slots.filter fun kv => decide (kv.2.holder = h) && decide (kv.2.state = st)).length := by
  unfold State.chunksOf
  rw [length_sortBy, List.length_map]

/-- With a slot freed its holder has fewer chunks. -/
theorem length_chunksOf_freeSlot {h : SlotHolder} {st : SlotState} (hy : s.slot n = some y) (hh : y.holder = h)
    (hs : y.state = st) : ((s.freeSlot n).chunksOf h st).length < (s.chunksOf h st).length := by
  rw [length_chunksOf, length_chunksOf]
  change ((s.str.slots.filter fun kv => kv.1 != n).filter _).length < _
  rw [List.filter_comm]
  refine List.length_filter_lt_length_iff_exists.mpr ⟨(n, y), ?_, by simp⟩
  exact List.mem_filter.mpr ⟨mem_of_tget hy, by simp [hh, hs]⟩

/-- While a chunk of the step is missing no PUT is issued (R94, R95). -/
theorem issuePut_unready (hr : s.restore rec = some r) (hx : r.steps[i]? = some x) (hmarker : x.marker = false)
    (hlen : (s.chunksOf (.step rec i) .full).length ≠ 16) : s.issuePut rec i = s := by
  have hready : s.chunksReady rec i x = false := by
    unfold State.chunksReady
    rw [hmarker]
    simp [hlen]
  unfold State.issuePut
  rw [hr]
  dsimp only
  rw [hx]
  repeat' split
  all_goals first
    | rfl
    | simp_all

/-! ### The chunk fetched again -/

/-- The entry that fetches one chunk of a step (R94). -/
def chunkEntry (rec i vol ext k : Nat) (v : Version) : FetchEntry :=
  { holder := .step rec i, vol := vol, ext := ext, birth := v.birth, idx := some k, code := v.codeAt k }

theorem filter_fetchEntries {vol ext : Nat} (hocc : 0 < v.occ) (hk : k < 16) :
    (fetchEntries rec i vol ext v).filter (fun e => decide (e.idx = some k)) = [chunkEntry rec i vol ext k v] := by
  unfold fetchEntries
  dsimp only
  rw [if_neg (Nat.ne_of_gt hocc), List.filter_map]
  have hone : (List.range 16).filter ((fun e : FetchEntry => decide (e.idx = some k)) ∘
      fun j => chunkEntry rec i vol ext j v) = [k] := by
    change (List.range 16).filter (fun j => decide (some j = some k)) = [k]
    simp only [Option.some.injEq]
    exact (List.filter_eq k).trans
      (congrArg (List.replicate · k) (List.count_eq_one_of_mem List.nodup_range (List.mem_range.mpr hk)))
  exact congrArg (List.map fun j => chunkEntry rec i vol ext j v) hone

/-- What a chunk fetched again leaves: its step notes it, its entry is in the Fetch Queue, and no directive has
gone. -/
structure Refetched (s t : State) (rec i k : Nat) (r : Restore) (x : Step) (v : Version) : Prop where
  restore : t.restore rec = some { r with steps := r.steps.set i { x with refetched := sortNat (k :: x.refetched) } }
  queued : chunkEntry rec i r.vol (r.first + i) k v ∈ t.off.fetchQueue
  waits : t.off.roomWaits = []
  kept : t.str = s.str ∧ t.sup = s.sup ∧ t.tally = s.tally ∧ t.pat = s.pat
  directives : ∀ l : Link, (t.link l).directives = (s.link l).directives

theorem fetchedAgain_refetched (hr : s.restore rec = some r) (hx : r.steps[i]? = some x) (hocc : 0 < v.occ)
    (hk : k < 16) (hwaits : s.off.roomWaits = []) (hroom : s.off.fetchQueue.length + s.fetchesOut + 1 ≤ 32) :
    Refetched s (s.fetchedAgain rec i k r v) rec i k r x v := by
  have hlinks : ∀ l : Link, ((s.leavePlaces (.step rec i)).link l).directives = (s.link l).directives := fun l =>
    gains_leavePlaces (linksGain_directives _ l) _ rfl
  obtain ⟨w, hw⟩ : ∃ w, w = s.leavePlaces (.step rec i) := ⟨_, rfl⟩
  have hframe := leavePlaces_eq s (.step rec i)
  unfold State.fetchedAgain
  rw [← hw] at hframe hlinks ⊢
  rw [filter_fetchEntries hocc hk]
  have hparts : w.off = s.off ∧ w.rst = s.rst ∧ w.str = s.str ∧ w.sup = s.sup ∧ w.tally = s.tally ∧ w.pat = s.pat := by
    rw [hframe]
    exact ⟨rfl, rfl, rfl, rfl, rfl, rfl⟩
  obtain ⟨woff, wrst, wstr, wsup, wtally, wpat⟩ := hparts
  have hbr := restore_modStep ((restore_congr wrst rec).trans hr) hx
    fun x => { x with refetched := sortNat (k :: x.refetched) }
  obtain ⟨b, hb⟩ : ∃ b, b = w.modStep rec i fun x => { x with refetched := sortNat (k :: x.refetched) } := ⟨_, rfl⟩
  have hbdirs : ∀ l : Link, (b.link l).directives = (s.link l).directives := by
    rw [hb]
    exact hlinks
  rw [← hb] at hbr ⊢
  have hboff : b.off = s.off := by
    rw [hb]
    exact woff
  have hbout : b.fetchesOut = s.fetchesOut := by
    unfold State.fetchesOut
    rw [hboff]
  obtain ⟨hqueue, hnone⟩ := askRoom_placed (s := b) (h := .step rec i)
    (es := [chunkEntry rec i r.vol (r.first + i) k v]) (atHead := true) (by rw [hboff]; exact hwaits)
    (by rw [hboff, hbout]; exact hroom)
  obtain ⟨arst, astr, apat, asup, -⟩ := askRoom_spec b (.step rec i) [chunkEntry rec i r.vol (r.first + i) k v] true
  refine ⟨(restore_congr arst rec).trans hbr, ?_, hnone, ⟨?_, ?_, ?_, ?_⟩, fun l => ?_⟩
  · rw [hqueue]
    exact (mem_placeIn true).mpr (.inr List.mem_cons_self)
  · rw [astr, hb]
    exact wstr
  · rw [asup, hb]
    exact wsup
  · refine tallyKept_askRoom _ _ _ ?_
    rw [hb]
    exact wtally
  · rw [apat, hb]
    exact wpat
  · exact gains_askRoom (P := fun ls => (ls[l]).directives = (s.link l).directives) (s := b) _ _ _ (hbdirs l)

/-! ### The PUT -/

theorem exec_put_met {e : StoreError} (hop : s.sup.op = .standby ∨ s.sup.op = .active)
    (hmet : (({ s with sent := [] } : State).meet e).sup.op = s.sup.op) :
    Sys2Proof.Machine.exec (.put rec i [e]) s =
      .next ((({ s with sent := [] } : State).meet e).issuePut rec i).finish := by
  have hrun : s.sup.op ≠ .halted := by rcases hop with h | h <;> rw [h] <;> decide
  have hmrun : (({ s with sent := [] } : State).meet e).sup.op ≠ .halted := by
    rw [hmet]
    exact hrun
  refine (act_running _ hrun).trans (congrArg Host.Outcome.next ?_)
  refine (withErrs_one (s := { s with sent := [] }) hrun hmrun _).trans (if_pos (running_iff.mpr ?_))
  rw [hmet]
  exact hop

/-- Ninth clause of O9. -/
theorem put_fetchesAgain (hop : s.sup.op = .standby ∨ s.sup.op = .active) (hcalm : s.calm)
    (hr : s.restore rec = some r) (hx : r.steps[i]? = some x) (hmarker : x.marker = false)
    (hfresh : x.refetched.contains y.idx = false) (hsrc : x.src = some v.birth)
    (hv : (s.extent r.vol (r.first + i)).version v.birth = some v) (hocc : 0 < v.occ) (hidx : y.idx < 16)
    (hy : s.slot n = some y) (hcls : y.cls = .fetch) (hholder : y.holder = .step rec i) (hfull : y.state = .full)
    (hlen : (s.chunksOf (.step rec i) .full).length = 16) (hwaits : s.off.roomWaits = [])
    (hroom : s.off.fetchQueue.length + s.fetchesOut + 1 ≤ 32) :
    ∃ t, Sys2Proof.Machine.exec (.put rec i [.slot n]) s = .next t ∧ t.slot n = none ∧
      (∀ l : Link, (t.link l).directives = (s.link l).directives) ∧
      t.restore rec = some { r with
        steps := r.steps.set i { x with refetched := sortNat (y.idx :: x.refetched) } } ∧
      chunkEntry rec i r.vol (r.first + i) y.idx v ∈ t.off.fetchQueue ∧
      t.sup.raised[10]? = (s.sup.raised[10]?).map countUp := by
  let a : State := { s with sent := [] }
  have hmeet := meet_stepSlot (s := a) hy hcls hholder
  have vframe := raise_eq a (.storeError (.slot n))
  have vop := raise_op a (.storeError (.slot n))
  have vcount := storeCount_storeError a (.slot n)
  have vdirs : ∀ l : Link, ((a.raise (.storeError (.slot n))).link l).directives = (s.link l).directives := fun l =>
    gains_raise (linksGain_directives _ l) (s := a) _ rfl
  generalize a.raise (.storeError (.slot n)) = w at *
  have hparts : w.off = s.off ∧ w.rst = s.rst ∧ w.str = s.str ∧ w.cat = s.cat ∧ w.tally = s.tally ∧ w.pat = s.pat := by
    rw [vframe]
    exact ⟨rfl, rfl, rfl, rfl, rfl, rfl⟩
  obtain ⟨woff, wrst, wstr, wcat, wtally, wpat⟩ := hparts
  have wslot : w.slot n = some y := by
    unfold State.slot at hy ⊢
    rw [wstr]
    exact hy
  have wextent : (w.freeSlot n).extent r.vol (r.first + i) = s.extent r.vol (r.first + i) := by
    change w.extent _ _ = _
    unfold State.extent
    rw [wcat]
  have hshort := length_chunksOf_freeSlot wslot hholder hfull
  have wchunks : w.chunksOf (.step rec i) .full = s.chunksOf (.step rec i) .full := by
    unfold State.chunksOf
    rw [wstr]
  rw [wchunks, hlen] at hshort
  have hjr : (w.freeSlot n).restore rec = some r := (restore_congr (s := s) (t := w.freeSlot n) wrst rec).trans hr
  rw [stepFetched_again hjr hx (by simpa using hfresh)
    (sourceOf_of hx hsrc (by rw [wextent]; exact hv))] at hmeet
  have hagain := fetchedAgain_refetched (s := w.freeSlot n) (v := v) hjr hx hocc hidx
    (by change w.off.roomWaits = []; rw [woff]; exact hwaits)
    (by
      change w.off.fetchQueue.length + w.fetchesOut + 1 ≤ 32
      unfold State.fetchesOut
      rw [woff]
      exact hroom)
  generalize (w.freeSlot n).fetchedAgain rec i y.idx r v = z at *
  obtain ⟨zstr, zsup, ztally, zpat⟩ := hagain.kept
  have zop : z.sup.op = s.sup.op := by
    rw [zsup]
    exact vop
  have zcalm : z.calm := calm_congr (s := s) (ztally.trans wtally) (zpat.trans wpat) hcalm
  have zrun : z.sup.op ≠ .halted := by
    rw [zop]
    rcases hop with h | h <;> rw [h] <;> decide
  have hstays : z.issuePut rec i = z := by
    refine issuePut_unready (x := { x with refetched := sortNat (y.idx :: x.refetched) }) hagain.restore ?_ hmarker ?_
    · exact (List.getElem?_set_self (List.getElem?_eq_some_iff.mp hx).1)
    · have : z.chunksOf (.step rec i) .full = (w.freeSlot n).chunksOf (.step rec i) .full := by
        unfold State.chunksOf
        rw [zstr]
      rw [this]
      exact Nat.ne_of_lt hshort
  have hexec := exec_put_met (rec := rec) (i := i) (e := .slot n) hop (by
    change (a.meet _).sup.op = _
    rw [hmeet]
    exact zop)
  change _ = Host.Outcome.next ((a.meet _).issuePut rec i).finish at hexec
  rw [hmeet, hstays] at hexec
  obtain ⟨fsup, -, -, -, frst, -⟩ := finish_beside_parts zcalm zrun
  refine ⟨z.finish, hexec, ?_, ?_, ?_, ?_, ?_⟩
  · rw [finish_slots zcalm.2 zrun, State.slot, zstr]
    exact State.slot_freeSlot w n
  · intro l
    rw [finish_link zcalm zrun, hagain.directives l]
    exact vdirs l
  · exact (restore_congr frst rec).trans hagain.restore
  · rw [finish_calm zcalm zrun, settleLink_fetchQueue hagain.waits]
    exact hagain.queued
  · rw [fsup, zsup]
    exact vcount

/-! ### The forms of a principal's loss together -/

/-- Second clause of O9: whatever is lost of a person's record, the Query answers with what was taken. -/
theorem query_personLost {id : Nat} {l : Link} {e : StoreError} {p p' : Principal} {now : Nat × Nat} (tag : Nat)
    (h : s.takes l) (hstill : s.tallyStill) (hp : s.prin id = some p) (hsingle : p.single)
    (hlost : (e = .principalTally id ∧ s.line id = none ∧ s.castoutOf id = none ∧ now = (0, 0) ∧
        p' = { p with used := 0, reserved := 0, marker := false }) ∨
      (∃ x, e = .principalTally id ∧ s.line id = some x ∧ x.filling = false ∧ now = (x.used, x.reserved) ∧
        p' = { p with used := x.used, reserved := x.reserved, marker := false }) ∨
      (e = .principalBoth id .cls ∧ now = s.current id ∧ p' = { p with cls := 0 }) ∨
      (e = .principalBoth id .hard ∧ now = s.current id ∧ p' = { p with hard := none }) ∨
      (e = .principalBoth id .course ∧ now = s.current id ∧ p' = p)) :
    ∃ t, Sys2Proof.Machine.exec (.query l tag (.principal id) [e]) s = .next t ∧
      t.prin id = some { p' with frozen := true, unsettled := true } ∧ t.current id = now ∧
      Answered s t l tag .query .done (.record (.principal id { p' with
        used := now.1, reserved := now.2, frozen := true, unsettled := true, marker := false })) ∧
      (e = .principalBoth id .course → ∀ q k, s.prin q = some k → k.kind = .pool →
        ∃ k', t.prin q = some k' ∧ k'.unsettled = true) ∧
      t.sup.raised[10]? = (s.sup.raised[10]?).map countUp := by
  rcases hlost with ⟨rfl, hline, hcast, rfl, rfl⟩ | ⟨x, rfl, hline, hfill, rfl, rfl⟩ | ⟨rfl, rfl, rfl⟩ |
    ⟨rfl, rfl, rfl⟩ | ⟨rfl, rfl, rfl⟩
  · obtain ⟨t, hexec, hprin, hnow, hanswered, hcount⟩ :=
      query_tallyLost tag h hstill hp hsingle (.inl ⟨hline, hcast, rfl⟩)
    exact ⟨t, hexec, hprin, hnow, hanswered, nofun, hcount⟩
  · obtain ⟨t, hexec, hprin, hnow, hanswered, hcount⟩ :=
      query_tallyLost tag h hstill hp hsingle (.inr ⟨x, hline, hfill, rfl⟩)
    exact ⟨t, hexec, hprin, hnow, hanswered, nofun, hcount⟩
  · obtain ⟨t, hexec, hprin, hnow, hanswered, hcount⟩ := query_limitLost tag h hstill hp hsingle (.inl rfl)
    exact ⟨t, hexec, hprin, hnow, hanswered, nofun, hcount⟩
  · obtain ⟨t, hexec, hprin, hnow, hanswered, hcount⟩ := query_limitLost tag h hstill hp hsingle (.inr rfl)
    exact ⟨t, hexec, hprin, hnow, hanswered, nofun, hcount⟩
  · obtain ⟨t, hexec, ⟨hprin, hnow, hanswered, hcount⟩, hpools⟩ := query_parentLost tag h hstill hp hsingle
    exact ⟨t, hexec, hprin, hnow, hanswered, fun _ => hpools, hcount⟩

end

end Sys2Proof.Machine

open Sys2Proof Sys2Proof.Machine

/-- Settles O9. -/
theorem doubleErrorsAreHandledByTheirOwners : Obligations.DoubleErrorsAreHandledByTheirOwners := by
  refine ⟨?_, ?_, ?_, ?_, ?_, ?_, ?_, ?_, ?_⟩
  · intro s e item c a b hrun he hc
    exact majorError_halts hrun he hc
  · intro s l tag id e p p' now h hstill hp hkind hparents hsoft hgrace hlost
    exact query_personLost tag h hstill hp ⟨hkind, hparents, hsoft, hgrace⟩ hlost
  · intro s l tag id f q h _
    exact query_oneCopy tag id f q h
  · intro s l tag vol ext v lost h hcalm hatt hv hext
    obtain ⟨t, hexec, hvolume, hanswered, hcount, hfields⟩ := query_damaged tag lost h hcalm hatt hv hext
    exact ⟨t, hexec, hvolume, hanswered, hcount, hfields.none, hfields.owner, hfields.occupied, hfields.shipped⟩
  · intro s l tag vol ext owner loc occ codes v h hatt
    exact commit_damaged tag h hatt
  · intro s vol gen ext v p h hatt hp hstate hext
    exact expiryVisit_damaged h hatt hp hstate hext
  · intro s l tag rid rec r k readable h hcalm hfind hget hrid hplanned _ hk
    exact restoreStatus_failed tag readable h hcalm hfind hget hrid hplanned hk
  · intro s e rest p n m x hrun hcalm hphase hmay hctl hnums hvacant hq _ hst hplan hplans hslot hx hcls hholder hfree
    exact ship_cutShort hrun hcalm hphase hmay hctl hnums hvacant hq hst hplan hplans hslot hx hcls hholder hfree
  · intro s rec i n r x v y hop hcalm hr hx _ hmarker hfresh hsrc hv hocc hidx hy hcls hholder hfull hlen hwaits hroom
    exact put_fetchesAgain hop hcalm hr hx hmarker hfresh hsrc hv hocc hidx hy hcls hholder hfull hlen hwaits hroom
end
